-- ==== Sys2Proof/Word.lean ====
section
/-! DEFINITION. The plain words of the model: register fields, the rows by which whole 32-bit
words are read and written, and the kinds of page. Only types stand here; every computation on
them is in the files under Machine. -/

namespace Sys2Proof

/-- One register field of a page (R45): the byte offset of the word that holds its lowest bit, that
bit, its width in bits (more than 32 for a LO/HI pair) and its value after reset. -/
structure Fld where
  off : Nat
  lsb : Nat
  width : Nat
  reset : Nat
  deriving DecidableEq, Repr

/-- The access type of a field (R45). -/
inductive Acc
  | rw
  | st
  | ro
  | wo
  | w1s
  deriving DecidableEq, Repr

/-- A row of a page's word table: a field, repeated `n1` times at `s1` bytes and each of those `n2`
times at `s2` bytes; whether a staged field is plan-class (R79), whether it is a counter that
`CTRL.CLR_COUNTERS` clears (R50), and the reset values of an array whose elements differ. -/
structure Row where
  fld : Fld
  n1 : Nat
  s1 : Nat
  n2 : Nat
  s2 : Nat
  acc : Acc
  plan : Bool
  ctr : Bool
  resets : List Nat
  deriving DecidableEq, Repr

/-- The kinds of page that have registers of their own (R52, R53, R54). `gpio` and `alm` have only
the common registers of R43. -/
inductive PageKind
  | cat | pkg | pace | paceTbl | time | ptp | pps | pf | btn | shelfHub | shelfDie | dmc | dly
  | arc | nch | mel | chk | pcie | rings | eth | flows | svc | sfe | loop | gpio | alm | bkp | therm
  | lpuLane | lpuBus | lpuAna | bist
  | line | starter | rx | thrx | slot | gauge | resamp | frame | stack | hurdle | cal | strideCl
  | stride | bridge
  deriving DecidableEq, Repr

end Sys2Proof
end

