-- ==== Sys2Proof/Syntax.lean ====
section
/-! DEFINITION. The commands of the block, one constructor per row of spec/opcode_table.json, in the
table's order. The first operand `t` of a command is the tick at which it reaches the device. -/

namespace Sys2Proof

/-- A flit as it crosses a bridge: its virtual channel (0 FRAME, 1 EVENT, 2 SHELF, 3 CONTROL), its bytes, and the credits of
that channel that the receiver gives back (R33, R35). -/
structure Flit where
  vc : Nat
  len : Nat
  free : Nat
  deriving DecidableEq, Repr

/-- The channel from Pipe cluster `clus` of line `ln` to the line's Frame cluster (R19, R20). -/
structure PipeChan where
  ln : Nat
  clus : Nat
  deriving DecidableEq, Repr

/-- What a calibration of a service converter core measures (R283). -/
structure SvcMeas where
  ofs : Int
  trim : Nat
  deriving DecidableEq, Repr

/-- A command. Operands that name a unit are its number in the spec; data that reaches the part from
outside (readings, edges, words, host memory that it reads) comes with the command. -/
inductive Instr
  /-- REGISTER_WRITE (R45): A write to a register field that has no row of its own stores or ignores the value according to its access type. -/
  | registerWrite (t : Nat) (addr : Nat) (size : Nat) (v : Nat)
  /-- STAGED_WRITE (R48): A write to an ST field sets its staged value, which takes effect at the region's next commit point. -/
  | stagedWrite (t : Nat) (pg : Nat) (off : Nat) (v : Nat)
  /-- PLAN_CHECK_EVAL (R85): Within 1 µs of a staged write, the device evaluates the staged plan and shows the result in PLAN_CHECK. -/
  | planCheckEval (t : Nat) (ln : Nat)
  /-- CLR_COUNTERS (R50): Writing CTRL.CLR_COUNTERS clears the page's live counters and its since-clear peak trackers. -/
  | clrCounters (t : Nat) (pg : Nat)
  /-- EVT_CLR (R55): Writing 1s to EVT_CLR clears those EVT_RAW bits unless the device raises them in the same cycle. -/
  | evtClr (t : Nat) (pg : Nat) (v : Nat) (same : Nat)
  /-- EVT_SET (R55): Writing 1s to EVT_SET sets those EVT_RAW bits as if the device had raised them. -/
  | evtSet (t : Nat) (pg : Nat) (v : Nat)
  /-- VEC_REARM (R57): Writing 1 to a bit of VEC_REARM resends the message of an active vector, or sets its pending bit while masked. -/
  | vecRearm (t : Nat) (half : Nat) (v : Nat)
  /-- MSIX_UNMASK (R57): Unmasking a vector whose pending bit is set sends its message at once and clears the pending bit. -/
  | msixUnmask (t : Nat) (vec : Nat) (mask : Bool) (func : Bool)
  /-- CAT_ENTRY_HI_READ (R51): A read of CAT.ENTRY_HI returns the selected entry and advances INDEX by 1. -/
  | catEntryHiRead (t : Nat)
  /-- NOW_READ (R301): A read of TIME.NOW_S_LO latches the whole time counter into NOW_S_HI, NOW_NS and NOW_SUB. -/
  | nowRead (t : Nat)
  /-- STOCKTAKE_REQ (R58): Writing PKG.STOCKTAKE.REQ requests a local or system Stocktake, or joins a pending one and counts STK_MERGED. -/
  | stocktakeReq (t : Nat) (v : Nat)
  /-- STOCKTAKE_FORWARD (R61): A system Stocktake request carried up the Baton chain reaches the master, which sets T at its first Pacer tick at least 100 µs later. -/
  | stocktakeForward (t : Nat)
  /-- STOCKTAKE_INSTANT (R58): At instant T every unfenced page copies its counters into the snapshot half, the Stocktake epoch increments and the snapshot item is offered. -/
  | stocktakeInstant (t : Nat)
  /-- STOCKTAKE_T_WORD (R329): A Stocktake instant T received from the master over Baton is adopted and passed down the chain. -/
  | stocktakeTWord (t : Nat) (inst : Int) (epoch : Nat)
  /-- STOCKTAKE_CONFIRM (R61): A package's confirmation of a system Stocktake reaches the master and counts in ANSWERED. -/
  | stocktakeConfirm (t : Nat) (idx : Nat)
  /-- STOCKTAKE_MASTER_CLOSE (R61): At T + 2 ms the master finalises ANSWERED and PARTIAL, clears PENDING and raises STOCKTAKE_DONE. -/
  | stocktakeMasterClose (t : Nat)
  /-- STOCKTAKE_SYS_TIMEOUT (R61): No T reaches a non-master within 10 ms of its system request, so the request fails with SYS_FAILED. -/
  | stocktakeSysTimeout (t : Nat)
  /-- COMMIT (R80): A COMMIT write on any page of a region requests a plan commit or a shot commit of its staged values. -/
  | commit (t : Nat) (pg : Nat)
  /-- COMMIT_SHOT (R80): Writing LINE.CTRL.COMMIT_SHOT requests that only shot-class values apply at the next slot-0 launch instant. -/
  | commitShot (t : Nat) (ln : Nat)
  /-- CANCEL (R84): Writing LINE.CTRL.CANCEL before the capture instant withdraws the pending commit and counts CANCELS. -/
  | cancel (t : Nat) (ln : Nat)
  /-- COMMIT_CAPTURE (R49): At 200 ticks before the commit point, the line region captures the staged values and re-checks a plan commit. -/
  | commitCapture (t : Nat) (ln : Nat)
  /-- IMMEDIATE_COMMIT_APPLY (R29): A service-region, OFF-line or DARK-line commit applies within 100 ticks of the write and increments the epoch. -/
  | immediateCommitApply (t : Nat) (region : Nat)
  /-- SLOT0_INSTANT (R74): At each slot-0 launch instant the line applies due commits, changes state and launches S0 or skips it. -/
  | slot0Instant (t : Nat) (ln : Nat)
  /-- SLOT_LAUNCH (R72): Slot k launches its waveform at its launch instant, and its pipe emits the launch word. -/
  | slotLaunch (t : Nat) (ln : Nat) (slot : Nat)
  /-- LINE_START (R87): When the clusters of a starting line are ready plus 200 ticks, the line makes its first launch and counts a plan change. -/
  | lineStart (t : Nat) (ln : Nat)
  /-- GAP_END (R88): One old period after a stopping boundary, the line becomes OFF, its clusters are gated and a fine-mode partner becomes OFF. -/
  | gapEnd (t : Nat) (ln : Nat)
  /-- CATCH_UP (R14): At the commit point meeting the lead, a STALE unit receives its full live configuration and takes the region epoch. -/
  | catchUp (t : Nat) (region : Nat)
  /-- CLUSTER_READY (R25): A waking cluster completes its wake; its units are STALE and its calibration-bearing units CAL_STALE. -/
  | clusterReady (t : Nat) (ln : Nat) (clus : Nat)
  /-- DVFS_DONE (R27): A Stride cluster's DVFS change completes, and its clock restarts and its cores resume. -/
  | dvfsDone (t : Nat) (ln : Nat) (c : Nat)
  /-- THERMAL_SENSOR_UPDATE (R31): Every 1 ms the thermal sensors update, and the valid set, die temperature and die maximum are recomputed. -/
  | thermalSensorUpdate (t : Nat) (readings : List Int)
  /-- BRIDGE_FLIT (R35): A bridge flit arrives, is checked by its CRC and is replayed on failure. -/
  | bridgeFlit (t : Nat) (ldie : Nat) (up : Bool) (flit : Flit) (ok : Bool)
  /-- BRIDGE_RETRAIN (R35): Writing BRIDGE.CFG.RETRAIN starts a retrain of the bridge. -/
  | bridgeRetrain (t : Nat) (ldie : Nat)
  /-- BRIDGE_RETRAIN_DONE (R35): A bridge retrain completes and held upstream traffic resumes. -/
  | bridgeRetrainDone (t : Nat) (ldie : Nat)
  /-- BRIDGE_READ_TIMEOUT (R35): A register read outstanding beyond READ_TIMEOUT completes with 0xFFFF_FFFF and is counted. -/
  | bridgeReadTimeout (t : Nat) (ldie : Nat)
  /-- BRIDGE_FRAME_ARRIVE (R34): A frame crossing the bridge reaches a hub shelf and is written to the rolling record and offered to its ring. -/
  | bridgeFrameArrive (t : Nat) (ln : Nat)
  /-- CONVERTER_WORD (R116): A converter word reaches a Pipe cluster, which conditions its samples and carries their marks. -/
  | converterWord (t : Nat) (ln : Nat) (num : Nat) (phase : Nat) (halt : Nat) (raw : List Int)
  /-- AUTORANGE_HOLD_EXPIRY (R122): When AR_HOLD × 64 sample ticks pass since the last trigger, the depth falls by 1 and a step is made. -/
  | autorangeHoldExpiry (t : Nat) (ln : Nat)
  /-- GAIN_SCHEDULE_ENTRY (R119): A scheduled gain entry reaches its OFFSET after L and sets the nominal gain code. -/
  | gainScheduleEntry (t : Nat) (ln : Nat) (k : Nat)
  /-- STAT_WINDOW_END (R128): A converter statistics window ends and its MEAN, MIN, MAX, OVR and WIN_SEQ are latched. -/
  | statWindowEnd (t : Nat) (ln : Nat) (conv : Nat) (mean : Int) (lo : Int) (hi : Int) (ovr : Nat)
  /-- FAIL_CORE (R124): Writing RX.SPARE.FAIL_CORE declares the core serving that input FAILED. -/
  | failCore (t : Nat) (ln : Nat) (input : Nat)
  /-- SPARE_SUBSTITUTION (R125): The lowest ready spare takes a failed core's input at the first slot-0 instant at least 200 ticks after the declaration. -/
  | spareSubstitution (t : Nat) (ln : Nat)
  /-- REQUAL (R127): Writing RX.SPARE.REQUAL starts a re-test of every FAILED core of the line. -/
  | requal (t : Nat) (ln : Nat)
  /-- REQUAL_DONE (R127): The re-test ends and each passing core joins the spare role STALE and CAL_STALE. -/
  | requalDone (t : Nat) (ln : Nat) (pass : List Nat)
  /-- PSENSE_WINDOW_END (R98): The 1 µs PSENSE integration window of a PGATE pulse ends and the pulse is judged low or not. -/
  | psenseWindowEnd (t : Nat) (ln : Nat) (q : Nat)
  /-- RETURN_POWER_WINDOW (R103): The 4,096-tick return power window of an S0 launch ends and the shot is judged dim or not. -/
  | returnPowerWindow (t : Nat) (ln : Nat)
  /-- LISTEN_WINDOW_CLOSE (R133): A slot's listening window closes after its last bin. -/
  | listenWindowClose (t : Nat) (ln : Nat) (slot : Nat)
  /-- COEF_WRITE (R140): A coefficient window write stores the tap and unseals a stopped bank, or is refused on a running bank. -/
  | coefWrite (t : Nat) (ln : Nat) (slot : Nat) (w : Nat) (v : Nat)
  /-- COEF_SEAL (R140): Writing COEF_CTRL.SEAL seals the selected bank if it is stopped. -/
  | coefSeal (t : Nat) (ln : Nat) (slot : Nat) (v : Nat)
  /-- PIPE_WORD (R150): A slot pipe's output word of bins or launch word reaches the Frame cluster. -/
  | pipeWord (t : Nat) (chan : PipeChan)
  /-- PIPE_SETTLED (R146): After the settling count of launches following a clear, the pipe leaves SETTLING and raises SETTLED. -/
  | pipeSettled (t : Nat) (ln : Nat) (slot : Nat)
  /-- MERGED_SAMPLE (R157): The gauge forms a merged sample and rate for every gauge position from a launch's differences. -/
  | mergedSample (t : Nat) (ln : Nat)
  /-- GAUGE_SETTLED (R161): After the settling count of merged samples, the gauge leaves SETTLING and raises SETTLED. -/
  | gaugeSettled (t : Nat) (ln : Nat)
  /-- FRAME_INSTANT (R165): A frame instant of the plan arrives and takes the next frame number. -/
  | frameInstant (t : Nat) (ln : Nat)
  /-- FRAME_BUILT (R168): The frame builder completes a frame and places it in a shelf of the line die's pool. -/
  | frameBuilt (t : Nat) (ln : Nat)
  /-- RAMAN_SHOT_ACCUMULATE (R185): A Raman shot's thermal samples complete and are pre-averaged and added to the accumulating bank. -/
  | ramanShotAccumulate (t : Nat) (ln : Nat) (st : List Int) (anti : List Int)
  /-- STACK_FLIP (R186): At the flip the Stack banks swap and the completed stack becomes the resting stack. -/
  | stackFlip (t : Nat) (ln : Nat)
  /-- THERMAL_FRAME_BUILT (R197): The stack engine solves constants, computes temperatures and places the thermal frame in the shelf pool. -/
  | thermalFrameBuilt (t : Nat) (ln : Nat)
  /-- STACK_SEED (R195): Writing STACK.CONST_CTRL.SEED makes the seed constants live at the next flip. -/
  | stackSeed (t : Nat) (ln : Nat) (v : Nat)
  /-- NOP (R215): Stride instruction that does nothing. -/
  | strideNop (t : Nat) (ln : Nat) (k : Nat)
  /-- ADD (R215): Stride instruction that adds two registers, optionally per half and saturating. -/
  | strideAdd (t : Nat) (ln : Nat) (k : Nat)
  /-- SUB (R215): Stride instruction that subtracts two registers. -/
  | strideSub (t : Nat) (ln : Nat) (k : Nat)
  /-- AND (R215): Stride instruction forming the bitwise AND. -/
  | strideAnd (t : Nat) (ln : Nat) (k : Nat)
  /-- OR (R215): Stride instruction forming the bitwise OR. -/
  | strideOr (t : Nat) (ln : Nat) (k : Nat)
  /-- XOR (R215): Stride instruction forming the bitwise XOR. -/
  | strideXor (t : Nat) (ln : Nat) (k : Nat)
  /-- MIN (R215): Stride instruction forming the signed minimum. -/
  | strideMin (t : Nat) (ln : Nat) (k : Nat)
  /-- MAX (R215): Stride instruction forming the signed maximum. -/
  | strideMax (t : Nat) (ln : Nat) (k : Nat)
  /-- ABS (R215): Stride instruction forming the absolute value. -/
  | strideAbs (t : Nat) (ln : Nat) (k : Nat)
  /-- SLT (R215): Stride instruction setting 1 when s < t signed. -/
  | strideSlt (t : Nat) (ln : Nat) (k : Nat)
  /-- SHL (R215): Stride instruction shifting left by a register count. -/
  | strideShl (t : Nat) (ln : Nat) (k : Nat)
  /-- SHR (R215): Stride instruction shifting right logically by a register count. -/
  | strideShr (t : Nat) (ln : Nat) (k : Nat)
  /-- SRA (R215): Stride instruction shifting right arithmetically by a register count. -/
  | strideSra (t : Nat) (ln : Nat) (k : Nat)
  /-- NORM (R215): Stride instruction counting redundant sign bits. -/
  | strideNorm (t : Nat) (ln : Nat) (k : Nat)
  /-- ADDI (R215): Stride instruction adding a sign-extended immediate. -/
  | strideAddi (t : Nat) (ln : Nat) (k : Nat)
  /-- SHLI (R215): Stride instruction shifting left by an immediate. -/
  | strideShli (t : Nat) (ln : Nat) (k : Nat)
  /-- SHRI (R215): Stride instruction shifting right logically by an immediate. -/
  | strideShri (t : Nat) (ln : Nat) (k : Nat)
  /-- SRAI (R215): Stride instruction shifting right arithmetically by an immediate. -/
  | strideSrai (t : Nat) (ln : Nat) (k : Nat)
  /-- MOVI (R215): Stride instruction loading a sign-extended immediate. -/
  | strideMovi (t : Nat) (ln : Nat) (k : Nat)
  /-- MOVIH (R215): Stride instruction loading an immediate into the high half. -/
  | strideMovih (t : Nat) (ln : Nat) (k : Nat)
  /-- MOVTX (R218): Stride instruction writing an extended register. -/
  | strideMovtx (t : Nat) (ln : Nat) (k : Nat)
  /-- MOVFX (R218): Stride instruction reading an extended register. -/
  | strideMovfx (t : Nat) (ln : Nat) (k : Nat)
  /-- LD (R208): Stride instruction loading a 32-bit word from the core store. -/
  | strideLd (t : Nat) (ln : Nat) (k : Nat)
  /-- LDH (R208): Stride instruction loading a sign-extended 16-bit half. -/
  | strideLdh (t : Nat) (ln : Nat) (k : Nat)
  /-- ST (R208): Stride instruction storing a 32-bit word. -/
  | strideSt (t : Nat) (ln : Nat) (k : Nat)
  /-- STH (R208): Stride instruction storing a 16-bit half. -/
  | strideSth (t : Nat) (ln : Nat) (k : Nat)
  /-- BEQ (R211): Stride branch if equal, with two delay slots. -/
  | strideBeq (t : Nat) (ln : Nat) (k : Nat)
  /-- BNE (R211): Stride branch if not equal. -/
  | strideBne (t : Nat) (ln : Nat) (k : Nat)
  /-- BLT (R211): Stride branch if less, signed. -/
  | strideBlt (t : Nat) (ln : Nat) (k : Nat)
  /-- BGE (R211): Stride branch if greater or equal, signed. -/
  | strideBge (t : Nat) (ln : Nat) (k : Nat)
  /-- BDEC (R215): Stride instruction decrementing a counter and branching while nonzero. -/
  | strideBdec (t : Nat) (ln : Nat) (k : Nat)
  /-- J (R211): Stride jump. -/
  | strideJ (t : Nat) (ln : Nat) (k : Nat)
  /-- JAL (R215): Stride jump that writes the return address to D15. -/
  | strideJal (t : Nat) (ln : Nat) (k : Nat)
  /-- JR (R211): Stride jump to a register address. -/
  | strideJr (t : Nat) (ln : Nat) (k : Nat)
  /-- RTI (R223): Stride return from interrupt to IRA and the main bank. -/
  | strideRti (t : Nat) (ln : Nat) (k : Nat)
  /-- WAIT (R223): Stride instruction that stops issue until an enabled source is pending. -/
  | strideWait (t : Nat) (ln : Nat) (k : Nat)
  /-- HALT (R215): Stride instruction that stops the core in HALTED. -/
  | strideHalt (t : Nat) (ln : Nat) (k : Nat)
  /-- MAC (R216): Stride multiply-accumulate of selected halves, with optional parallel loads. -/
  | strideMac (t : Nat) (ln : Nat) (k : Nat) (win : Bool)
  /-- MAC2 (R216): Stride dual multiply-accumulate into two accumulators. -/
  | strideMac2 (t : Nat) (ln : Nat) (k : Nat) (win : Bool)
  /-- CMAC (R216): Stride complex multiply-accumulate. -/
  | strideCmac (t : Nat) (ln : Nat) (k : Nat) (win : Bool)
  /-- EXT (R217): Stride extraction from an accumulator by an immediate shift. -/
  | strideExt (t : Nat) (ln : Nat) (k : Nat)
  /-- EXTR (R217): Stride extraction from an accumulator by a register shift. -/
  | strideExtr (t : Nat) (ln : Nat) (k : Nat)
  /-- MOVA (R215): Stride instruction loading an accumulator from a shifted register. -/
  | strideMova (t : Nat) (ln : Nat) (k : Nat)
  /-- ASHR (R215): Stride arithmetic right shift of an accumulator. -/
  | strideAshr (t : Nat) (ln : Nat) (k : Nat)
  /-- ADDA (R215): Stride saturating add of two accumulators. -/
  | strideAdda (t : Nat) (ln : Nat) (k : Nat)
  /-- EXP (R217): Stride instruction counting an accumulator's redundant sign bits. -/
  | strideExp (t : Nat) (ln : Nat) (k : Nat)
  /-- ACLR (R215): Stride instruction clearing an accumulator. -/
  | strideAclr (t : Nat) (ln : Nat) (k : Nat)
  /-- IN (R225): Stride instruction popping the next word of an IN port, stalling while empty. -/
  | strideIn (t : Nat) (ln : Nat) (k : Nat)
  /-- OUT (R227): Stride instruction pushing a feature word onto an OUT port. -/
  | strideOut (t : Nat) (ln : Nat) (k : Nat)
  /-- MARK (R227): Stride instruction ORing bits into the mark set. -/
  | strideMark (t : Nat) (ln : Nat) (k : Nat)
  /-- SIG (R224): Stride instruction writing another core's mailbox or MAILBOX_OUT. -/
  | strideSig (t : Nat) (ln : Nat) (k : Nat)
  /-- INTERRUPT_TAKEN (R221): At an eligible boundary the core takes the lowest pending enabled source and switches to the shadow bank. -/
  | interruptTaken (t : Nat) (ln : Nat) (k : Nat)
  /-- STRIDE_TIMER_EXPIRY (R220): A core's TIMER reaches 0, sets source 4 and reloads. -/
  | strideTimerExpiry (t : Nat) (ln : Nat) (k : Nat)
  /-- DOORBELL (R224): Writing CTRL.DOORBELL sends MAILBOX_IN to the core's mailbox. -/
  | doorbell (t : Nat) (ln : Nat) (k : Nat)
  /-- CORE_START (R232): Writing CTRL.START starts loading a kernel into a stopped, halted or faulted core. -/
  | coreStart (t : Nat) (ln : Nat) (k : Nat)
  /-- CORE_STOP (R232): Writing CTRL.STOP stops the core at the next instruction boundary. -/
  | coreStop (t : Nat) (ln : Nat) (k : Nat)
  /-- KERNEL_LOAD_END (R232): A kernel load ends, and the core runs or returns to STOPPED with LOAD_ERROR. -/
  | kernelLoadEnd (t : Nat) (ln : Nat) (k : Nat)
  /-- FEATURE_WORD (R228): A feature bus word reaches the sequencers and, with PL = 1, the frame builder. -/
  | featureWord (t : Nat) (ln : Nat)
  /-- FEATURE_FRAME_CLOSE (R229): At t_k + FEAT_WAIT the frame builder closes and builds the feature frame. -/
  | featureFrameClose (t : Nat) (ln : Nat)
  /-- SEQUENCER_STEP (R239): A Hurdle sequencer steps for a frame, evaluates its arcs and fires at most one. -/
  | sequencerStep (t : Nat) (ln : Nat)
  /-- GPIO_EDGE (R237): A rising edge on a selected GPIO pin latches its GPIO term. -/
  | gpioEdge (t : Nat) (gpio : Nat) (half : Nat)
  /-- TRIGGER_WORD (R329): A sequencer SIG trigger word arrives and latches the matching XSIG term and is forwarded. -/
  | triggerWord (t : Nat) (port : Nat) (pkg : Nat) (ln : Nat) (h : Nat) (inst : Int)
  /-- TOD_INSTANT (R243): The daily instant TOD_SEC passes and sets the TOD term. -/
  | todInstant (t : Nat) (ln : Nat)
  /-- RECORD_EMIT (R248): When its capture is complete the event record and its capture frames are emitted on ring 25. -/
  | recordEmit (t : Nat) (ln : Nat) (h : Nat)
  /-- ARC_TABLE_WRITE (R255): A write to the arc table stores the arc, or is refused while the sequencer is enabled. -/
  | arcTableWrite (t : Nat) (ln : Nat) (w : Nat) (v : Nat)
  /-- SEQUENCER_ENABLE (R255): Writing HURDLE.CFG.EN enables or disables a sequencer, refused with CFG_ERR on a bad arc. -/
  | sequencerEnable (t : Nat) (ln : Nat) (h : Nat) (v : Nat)
  /-- USER_GO (R253): Writing PKG USER_GO writes one USER Ledger entry. -/
  | userGo (t : Nat) (v : Nat)
  /-- LEDGER_ENTRY (R252): A Ledger entry reaches the hub buffer and takes its accession number. -/
  | ledgerEntry (t : Nat)
  /-- LEDGER_RESERVE (R250): The device writes and verifies the next accession reservation block in the Almanac. -/
  | ledgerReserve (t : Nat) (ok : Bool)
  /-- LEDGER_RESERVE_RETRY (R250): After a failed reservation the device retries every 1 ms. -/
  | ledgerReserveRetry (t : Nat) (ok : Bool)
  /-- LEDGER_ARCHIVE_WRITE (R252): At least once per second buffered entries are written to the Archive's Ledger volume. -/
  | ledgerArchiveWrite (t : Nat)
  /-- CAL_EVAL_TICK (R258): Every 1 ms the device evaluates whether a calibration pass is due or forced. -/
  | calEvalTick (t : Nat) (unit13 : Nat)
  /-- CAL_REQ (R258): Writing CAL.CTRL.REQ makes a calibration pass due. -/
  | calReq (t : Nat) (ln : Nat)
  /-- CAL_FORCE (R258): Writing CAL.CTRL.FORCE with REQ makes the pass forced. -/
  | calForce (t : Nat) (ln : Nat)
  /-- CAL_PASS_START (R259): A granted or forced pass starts at the first eligible slot-0 instant, native or GL-3204. -/
  | calPassStart (t : Nat) (ln : Nat)
  /-- CAL_PHASE_END (R260): A timed phase of a native pass ends and the next measurement begins. -/
  | calPhaseEnd (t : Nat) (ln : Nat) (vals : List Int)
  /-- CAL_EXIT (R260): At the first slot-0 instant after 29 ms the pass checks its values, applies the accepted ones and leaves CAL. -/
  | calExit (t : Nat) (ln : Nat) (ok : Bool)
  /-- CAL_HANDOVER (R267): In GL-3204 mode the spare takes an input at a slot-0 handover instant. -/
  | calHandover (t : Nat) (ln : Nat)
  /-- CAL_RETURN (R267): The relieved core returns to its input at a slot-0 instant with its new values if accepted. -/
  | calReturn (t : Nat) (ln : Nat) (ok : Bool)
  /-- SVC_CONVERSION (R273): A service converter conversion cycle completes. -/
  | svcConversion (t : Nat) (svc : Nat) (raw : Int)
  /-- SCAN_START (R278): A timed scan of a core's regular sequence falls due and starts. -/
  | scanStart (t : Nat) (svc : Nat)
  /-- INJ_GO (R279): Writing SVC.INJ_GO triggers CONTROL injected entries. -/
  | injGo (t : Nat) (v : Nat)
  /-- SHOT_TRIGGER (R281): DELAY ticks after a launching slot-0 instant, a SHOT entry converts or is dropped. -/
  | shotTrigger (t : Nat) (inj : Nat)
  /-- SVC_CAL_REQ (R283): Writing SVC.CTRL.CAL_REQ makes a service converter calibration due. -/
  | svcCalReq (t : Nat)
  /-- SVC_CAL_FORCE (R283): Writing SVC.CTRL.CAL_FORCE forces a service converter calibration. -/
  | svcCalForce (t : Nat)
  /-- SVC_CAL_START (R284): A granted service converter pass starts once no injected entry runs or waits. -/
  | svcCalStart (t : Nat) (svc : Nat)
  /-- SVC_CAL_DONE (R284): A core's calibration ends, held CONTROL entries run and the sequence resumes. -/
  | svcCalDone (t : Nat) (svc : Nat) (meas : SvcMeas) (ok : Bool)
  /-- SFE_MEASUREMENT (R286): A sensor front end measurement completes its phases and its result is converted. -/
  | sfeMeasurement (t : Nat) (svc : Nat) (raw : List Int)
  /-- SFE_CHECK (R288): A channel's tone check falls due after CHECK_S seconds and starts. -/
  | sfeCheck (t : Nat) (sfe : Nat)
  /-- SFE_CHECK_DONE (R288): The tone check ends and classifies the channel. -/
  | sfeCheckDone (t : Nat) (sfe : Nat) (z : Nat) (leads : List Nat)
  /-- SFE_CLAMP (R289): A SEN ball clamping sets CLAMP and discards the channel's measurements. -/
  | sfeClamp (t : Nat) (sfe : Nat)
  /-- WIRE_BREAK (R290): A source losing headroom for 2 µs ends the measurement and sets CLASS OPEN. -/
  | wireBreak (t : Nat) (sfe : Nat)
  /-- LOOP_TICK (R292): A control loop ticks every PERIOD µs and triggers or reads its input. -/
  | loopTick (t : Nat) (lp : Nat)
  /-- PWM_PERIOD (R295): A PWM period starts and takes the updated high time. -/
  | pwmPeriod (t : Nat) (lp : Nat)
  /-- PPS_EDGE (R304): A PPS_IN edge is timestamped and accepted, rejected or used to step the counter. -/
  | ppsEdge (t : Nat) (ps : Nat)
  /-- SET_ARM (R302): Writing TIME.CTRL.SET_ARM arms a label from SET_S. -/
  | setArm (t : Nat)
  /-- TOD_SENTENCE (R302): An NMEA ZDA sentence on TOD_IN labels a PPS edge or is counted bad. -/
  | todSentence (t : Nat) (ok : Bool) (utc : Int)
  /-- FREQ_WINDOW_END (R300): A 100 s frequency window ends and the spread test of OCXO_WARM is re-evaluated. -/
  | freqWindowEnd (t : Nat) (off : Int)
  /-- OCXO_RDY_CHANGE (R300): A change on OCXO_RDY re-evaluates OCXO_WARM. -/
  | ocxoRdyChange (t : Nat) (on : Bool)
  /-- WARM_MIN_EXPIRY (R300): WARM_MIN_S seconds pass and the minimum-time condition of OCXO_WARM holds. -/
  | warmMinExpiry (t : Nat)
  /-- PPS_MISSING_TIMEOUT (R304): No accepted PPS edge for 3 s sends a locked servo to HOLDOVER. -/
  | ppsMissingTimeout (t : Nat)
  /-- HOLD_LIMIT_EXPIRY (R303): HOLD_S reaches HOLD_LIMIT and HOLD_EXCEEDED is set. -/
  | holdLimitExpiry (t : Nat)
  /-- SECOND_BOUNDARY (R308): At each second boundary the PPS and 10 MHz outputs pulse or squelch. -/
  | secondBoundary (t : Nat)
  /-- TOD_OUT_START (R309): START_MS after the second the ZDA sentence is sent on TOD_OUT. -/
  | todOutStart (t : Nat)
  /-- LEAP_SECOND (R309): At the end of the UTC day a scheduled leap second is applied and TAI_UTC changes. -/
  | leapSecond (t : Nat)
  /-- SYNC_TX (R313): A PTP port sends Sync and Follow_Up at its sync interval. -/
  | syncTx (t : Nat) (port : Nat)
  /-- ANNOUNCE_TX (R312): A PTP port sends Announce with values that follow TIME_STATE. -/
  | announceTx (t : Nat) (port : Nat)
  /-- DELAY_REQ (R311): A received Delay_Req is answered with Delay_Resp, or dropped over the rate limit. -/
  | delayReq (t : Nat) (port : Nat) (client : Nat)
  /-- FOREIGN_ANNOUNCE (R313): An Announce from another clock is counted and raises FOREIGN_MASTER. -/
  | foreignAnnounce (t : Nat) (port : Nat)
  /-- PTP_UNSUPPORTED (R311): A PTP message outside the supported set is counted in IGNORED. -/
  | ptpUnsupported (t : Nat) (port : Nat)
  /-- ESMC_TX (R314): A port sends its ESMC message once per second. -/
  | esmcTx (t : Nat) (port : Nat)
  /-- PF_ARM (R318): Writing PF.CTRL.ARM arms a Photo-finish channel. -/
  | pfArm (t : Nat) (pf : Nat)
  /-- PF_DISARM (R318): Writing PF.CTRL.DISARM returns the channel to IDLE. -/
  | pfDisarm (t : Nat) (pf : Nat)
  /-- PF_EDGE (R316): An edge on a channel's start or stop source is timestamped and processed. -/
  | pfEdge (t : Nat) (pf : Nat) (src : Nat) (fall : Bool) (ce : Nat) (v0 : Nat) (v1 : Nat)
  /-- PF_WINDOW_CLOSE (R318): A channel's window closes, ending in a BIPOLAR result or a timeout. -/
  | pfWindowClose (t : Nat) (pf : Nat)
  /-- PF_CAL_REQ (R324): Writing PF.CTRL.CAL_REQ requests an interpolator calibration. -/
  | pfCalReq (t : Nat) (pf : Nat)
  /-- PF_CAL_PASS (R324): An interpolator calibration pass falls due by time, temperature or CAL_STALE and starts. -/
  | pfCalPass (t : Nat) (pf : Nat)
  /-- PF_CAL_DONE (R324): The pass ends and its K1, K2 are accepted or rejected. -/
  | pfCalDone (t : Nat) (pf : Nat) (a0 : Nat) (b0 : Nat) (a1 : Nat) (b1 : Nat)
  /-- BATON_LINK_CHANGE (R325): A Baton link changes state and writes a BATON_LINK entry. -/
  | batonLinkChange (t : Nat) (port : Nat) (v : Nat)
  /-- BATON_FRAME (R325): A Baton frame arrives, is checked, replayed once or dropped. -/
  | batonFrame (t : Nat) (port : Nat) (good : Bool) (again : Bool) (sig : Bool)
  /-- BATON_ANNOUNCE (R326): A master or index announcement arrives and may put the link in CONFIG_FAULT. -/
  | batonAnnounce (t : Nat) (port : Nat) (master : Bool) (idx : Nat) (hops : Nat) (others : List Nat)
  /-- BATON_TIMING_WORD (R327): A timing word exchange gives delay and offset for steering the lower package. -/
  | batonTimingWord (t : Nat) (port : Nat) (t1 : Int) (t2 : Int) (t3 : Int) (t4 : Int) (set : Bool) (qual : Bool) (ann : List Nat)
  /-- HOP_CALIBRATED (R327): 10 s after a link comes UP the hop becomes calibrated. -/
  | hopCalibrated (t : Nat) (port : Nat)
  /-- PROXY_ACCESS (R330): An access to the remote window is carried by proxy to the target package. -/
  | proxyAccess (t : Nat) (off : Nat) (write : Bool) (size : Nat) (v : Nat)
  /-- PROXY_COMPLETION (R330): A proxied access completes and its data is returned. -/
  | proxyCompletion (t : Nat) (v : Nat)
  /-- PROXY_TIMEOUT (R330): A proxied access with no completion in PROXY_TIMEOUT is counted and a read returns 0xFFFF_FFFF. -/
  | proxyTimeout (t : Nat)
  /-- SHELF_REQUEST (R338): A requester asks for shelves and is granted, refused with LIMIT, or retries after a NACK. -/
  | shelfRequest (t : Nat) (pool : Nat) (q : Nat) (n : Nat) (rivals : List Nat)
  /-- SHELF_RELEASE (R340): A requester releases a shelf, free from the next cycle. -/
  | shelfRelease (t : Nat) (pool : Nat) (q : Nat) (n : Nat)
  /-- SHELF_LIMIT_WRITE (R341): A write of a requester's LIMIT sets it, and for HOST sets HOST_SHELVES and its reserve. -/
  | shelfLimitWrite (t : Nat) (pool : Nat) (q : Nat) (v : Nat)
  /-- SHELF_RESERVE_WRITE (R341): A write of a RESERVE is applied or refused when reserves would exceed the pool. -/
  | shelfReserveWrite (t : Nat) (pool : Nat) (q : Nat) (v : Nat)
  /-- ROLL_CONFIG_WRITE (R346): A write of a line's rolling-record fields is taken while the line is OFF and discarded otherwise. -/
  | rollConfigWrite (t : Nat) (ln : Nat) (w : Nat) (v : Nat)
  /-- DRAM_ACCESS (R349): A DRAM access is served, correcting single-bit errors or returning poison. -/
  | dramAccess (t : Nat) (addr : Nat) (rank : Nat) (write : Bool) (len : Nat) (bytes : List Nat) (bankRow : List Nat) (err : Nat)
  /-- RH_WINDOW (R354): A 64 ms refresh window starts and the row-hammer tallies clear. -/
  | rhWindow (t : Nat) (dmc : Nat)
  /-- PATROL_SCRUB (R349): The patrol scrub advances through the channel as a class 2 job. -/
  | patrolScrub (t : Nat) (dmc : Nat) (n : Nat) (ce : Nat) (rank : Nat) (ue : List Nat)
  /-- DRAM_CE_HOUR (R349): An hour in which CE rose writes a DRAM_CE entry. -/
  | dramCeHour (t : Nat) (dmc : Nat)
  /-- CA_PARITY_ALERT (R350): ALERT_n reports a CA parity error; commands are replayed and the rank retired. -/
  | caParityAlert (t : Nat) (dmc : Nat) (rank : Nat)
  /-- MIGRATION_DONE (R350): A rank migration copy completes; the spare becomes ACTIVE and the failing rank RETIRED. -/
  | migrationDone (t : Nat) (dmc : Nat) (bad : List Nat)
  /-- REQUAL_GO (R353): Writing DMC.REQUAL_GO starts the re-qualification of a retired or failing rank. -/
  | requalGo (t : Nat) (dmc : Nat) (v : Nat)
  /-- RANK_REQUAL_DONE (R353): The rank test ends and a passing rank becomes SPARE. -/
  | rankRequalDone (t : Nat) (dmc : Nat) (pass : Bool)
  /-- DELAY_WRITE (R355): A DLY delay write applies at the rank's next refresh command. -/
  | delayWrite (t : Nat) (dmc : Nat) (rank : Nat) (lane : Nat) (w : Nat) (v : Nat)
  /-- SWEEP_GO (R356): Writing DLY.SWEEP_GO starts a sweep, or refuses it outside INIT. -/
  | sweepGo (t : Nat) (dmc : Nat) (v : Nat)
  /-- SWEEP_DONE (R356): A sweep completes and SWEEP_PASS holds its results. -/
  | sweepDone (t : Nat) (dmc : Nat) (pass : Nat) (errs : Nat)
  /-- MARGIN_SWEEP (R357): Every MARGIN_S a controller sweeps one rank's bit delays and may raise MARGIN_LOW. -/
  | marginSweep (t : Nat) (dmc : Nat) (margins : List Nat)
  /-- SR_ENTRY (R358): An idle channel with enough tolerance issues self-refresh entry. -/
  | srEntry (t : Nat) (dmc : Nat) (same : Bool)
  /-- ARCHIVE_FRAME (R368): A frame of an archived stream joins its open Melain block. -/
  | archiveFrame (t : Nat)
  /-- BLOCK_CLOSE_TIMER (R368): 100 ms after its first frame, an open block closes. -/
  | blockCloseTimer (t : Nat) (stream : Nat)
  /-- BLOCK_DURABLE (R376): A block becomes durable once journalled and programmed, releasing its staging. -/
  | blockDurable (t : Nat)
  /-- JOURNAL_WRITE (R376): The journal is written at least once per second. -/
  | journalWrite (t : Nat)
  /-- CHECKPOINT (R376): Every CKPT_S a checkpoint of the map is written and the journal restarts. -/
  | checkpoint (t : Nat)
  /-- NAND_READ (R366): A NAND read decodes its codewords through hard, retry and soft decoding. -/
  | nandRead (t : Nat) (ch : Nat) (target : Nat) (seg : Nat) (blk : Nat) (cw : Nat) (cws : List (Nat × Nat))
  /-- NAND_PROGRAM_DONE (R372): A page program completes with good status or retires its block. -/
  | nandProgramDone (t : Nat) (ch : Nat) (target : Nat) (lun : Nat) (blk : Nat) (pages : Nat) (ok : Bool)
  /-- NAND_ERASE_DONE (R372): A block erase completes with good or failing status. -/
  | nandEraseDone (t : Nat) (ch : Nat) (target : Nat) (lun : Nat) (blk : Nat) (ok : Bool)
  /-- PIN_REQUEST (R370): A pin request is granted with a new identifier or refused. -/
  | pinRequest (t : Nat)
  /-- PIN_CLOSE (R370): A pin closes and its copy job is posted to Pacer. -/
  | pinClose (t : Nat)
  /-- PIN_COPY_DONE (R370): A pin's window is copied into EVENTS and its hold released. -/
  | pinCopyDone (t : Nat)
  /-- UNPIN (R370): Writing ARC.UNPIN_ID releases a pin without copying, or deletes its copy. -/
  | unpin (t : Nat) (id : Nat)
  /-- WEAR_MOVE_DONE (R371): A wear-levelling move completes and frees its source segment. -/
  | wearMoveDone (t : Nat)
  /-- AGE_UPDATE (R374): Every 60 s each segment's retention age rises by its acceleration factor. -/
  | ageUpdate (t : Nat)
  /-- REFRESH_DONE (R375): A refresh copy completes and frees its source. -/
  | refreshDone (t : Nat)
  /-- WEAR_BUDGET (R379): Every 60 s the daily write budget and WEAR_RATIO are recomputed. -/
  | wearBudget (t : Nat)
  /-- MOUNT (R378): Writing ARC.CTRL.MOUNT starts a mount. -/
  | mount (t : Nat)
  /-- MOUNT_DONE (R378): A mount completes after journal replay and scan, or leaves the Archive FAILED. -/
  | mountDone (t : Nat) (ok : Bool) (params : List (Nat × List Nat)) (marks : List Nat) (replayed : Nat)
  /-- FORMAT (R383): Writing ARC.CTRL.FORMAT with FMT_KEY starts a format. -/
  | format (t : Nat)
  /-- FORMAT_DONE (R369): A format completes and the segments are divided into volumes. -/
  | formatDone (t : Nat) (ok : Bool) (params : List (Nat × List Nat)) (marks : List Nat)
  /-- UNMOUNT (R383): Writing ARC.CTRL.UNMOUNT unmounts the Archive. -/
  | unmount (t : Nat)
  /-- SNAP_GO (R383): Writing ARC.CTRL.SNAP_GO writes the snapshot buffer to stream 37. -/
  | snapGo (t : Nat)
  /-- RET_GO (R380): Writing ARC.CTRL.RET_GO queues a retrieval request. -/
  | retGo (t : Nat)
  /-- RET_CANCEL (R380): Writing ARC.CTRL.RET_CANCEL ends the running retrieval after its block. -/
  | retCancel (t : Nat)
  /-- RET_DONE (R380): A retrieval completes, writes RET_TAG_DONE and raises RET_DONE. -/
  | retDone (t : Nat)
  /-- MEL_ARCHIVE_BLOCK (R390): A Melain engine finishes encoding or decoding an Archive block. -/
  | melArchiveBlock (t : Nat) (eng : Nat) (decode : Bool) (poison : Bool)
  /-- MEL_GO (R393): Writing MEL.CTRL.GO starts a host encode or decode job, or refuses it. -/
  | melGo (t : Nat) (eng : Nat)
  /-- MEL_JOB_DONE (R393): A host Melain job completes with OUT_LEN and VERDICT. -/
  | melJobDone (t : Nat) (eng : Nat)
  /-- CHK_DATA_WRITE (R396): A write to a check unit's DATA feeds its low bytes into the CRC. -/
  | chkDataWrite (t : Nat) (unit : Nat) (v : Nat)
  /-- CHK_STATE_WRITE (R396): A write to a check unit's STATE restores the CRC register. -/
  | chkStateWrite (t : Nat) (unit : Nat) (w : Nat) (v : Nat)
  /-- CHK_POLY_WRITE (R396): A change of POLY sets STATE to the new initial value. -/
  | chkPolyWrite (t : Nat) (unit : Nat) (v : Nat)
  /-- CHK_COMPARE (R396): The COMPARE bit checks RESULT against EXPECT and counts the outcome. -/
  | chkCompare (t : Nat) (unit : Nat)
  /-- CHK_INIT (R396): The INIT bit resets the CRC register to its initial value. -/
  | chkInit (t : Nat) (unit : Nat)
  /-- CHK_GO (R396): The GO bit starts a DMA feed of LEN bytes from SRC. -/
  | chkGo (t : Nat) (unit : Nat)
  /-- CHK_ABORT (R397): The ABORT bit ends a running DMA after the byte in progress. -/
  | chkAbort (t : Nat) (unit : Nat) (fed : Nat)
  /-- CHK_DMA_DONE (R397): A check unit DMA completes, compares if AUTO_CMP and raises DONE. -/
  | chkDmaDone (t : Nat) (unit : Nat)
  /-- PCIE_RESET (R401): FLR, hot reset or link down stops HOST rings and resets the PCIe function state. -/
  | pcieReset (t : Nat) (kind : Nat)
  /-- BUS_MASTER_CHANGE (R401): A change of Bus Master Enable or D3hot makes HOST rings drop or resume. -/
  | busMasterChange (t : Nat) (bme : Bool) (d3 : Bool)
  /-- BAR2_ACCESS (R400): A BAR2 access reaches DRAM or a HOST shelf, or is refused. -/
  | bar2Access (t : Nat) (off : Nat) (write : Bool) (len : Nat) (bytes : List Nat)
  /-- ETH_MODE_WRITE (R402): A change of ETH.CFG.MODE takes the port down and up again. -/
  | ethModeWrite (t : Nat) (port : Nat) (v : Nat) (fault : Bool)
  /-- ETH_LINK_CHANGE (R402): An Ethernet sub-port link goes up or down. -/
  | ethLinkChange (t : Nat) (port : Nat) (sub : Nat) (v : Nat)
  /-- ARP_REQUEST (R403): An ARP request for a sub-port address is answered. -/
  | arpRequest (t : Nat) (port : Nat) (sub : Nat) (ip : Nat) (mac : Nat)
  /-- NEIGHBOUR_SOLICITATION (R403): An ICMPv6 neighbour solicitation for a sub-port address is answered. -/
  | neighbourSolicitation (t : Nat) (port : Nat) (sub : Nat) (ip : List Nat)
  /-- ECHO_REQUEST (R403): An echo request is answered up to 100 per second. -/
  | echoRequest (t : Nat) (port : Nat) (sub : Nat) (v6 : Bool) (ip : List Nat) (id : Nat)
  /-- PAUSE_FRAME (R403): A received PAUSE frame holds transmission when PAUSE_EN is set. -/
  | pauseFrame (t : Nat) (port : Nat) (quanta : Nat)
  /-- RX_IGNORED (R403): Any other received frame is discarded and counted. -/
  | rxIgnored (t : Nat) (port : Nat) (badFcs : Bool)
  /-- RING_ITEM_DELIVER (R408): A held item is written to its HOST buffer or sent as datagrams once room exists. -/
  | ringItemDeliver (t : Nat) (ring : Nat)
  /-- RING_HOLD_EXPIRY (R409): An item held beyond HOLD_US in DROP mode is dropped and counted. -/
  | ringHoldExpiry (t : Nat) (ring : Nat)
  /-- RING_RD_WRITE (R408): The host writes a ring's read offset, freeing space. -/
  | ringRdWrite (t : Nat) (ring : Nat) (v : Nat)
  /-- RING_BIND_WRITE (R408): A write of BIND, BASE or SIZE_LOG2 stops the ring, drops held items and restarts it. -/
  | ringBindWrite (t : Nat) (ring : Nat) (w : Nat) (v : Nat)
  /-- LOSS_REPORT (R412): After each TAI second with drops a loss report is offered to source 30. -/
  | lossReport (t : Nat)
  /-- NOTIFY_TIMEOUT (R413): An item older than NOTIFY_US makes the ring indication pending. -/
  | notifyTimeout (t : Nat) (ring : Nat)
  /-- CMD_DATAGRAM (R414): A UDP command datagram is accepted into the queue, rejected or dropped. -/
  | cmdDatagram (t : Nat) (port : Nat) (sub : Nat) (v6 : Bool) (src : List Nat) (sport : Nat) (dport : Nat) (data : List Nat)
  /-- CMD_ENTRY_FETCH (R414): The device takes the next command entry from ring 28 or the queue. -/
  | cmdEntryFetch (t : Nat) (bytes : List Nat)
  /-- CMD_READ (R415): Command READ reads count words and returns them in a completion. -/
  | cmdRead (t : Nat)
  /-- CMD_WRITE (R415): Command WRITE writes one register. -/
  | cmdWrite (t : Nat)
  /-- CMD_MODIFY (R415): Command MODIFY reads then writes masked bits. -/
  | cmdModify (t : Nat)
  /-- CMD_WAIT (R415): Command WAIT polls an address until a masked value matches or a timeout. -/
  | cmdWait (t : Nat)
  /-- CMD_WAIT_POLL (R415): Every 1 µs a WAIT re-reads its address, ending on match or timeout. -/
  | cmdWaitPoll (t : Nat)
  /-- FLOW_WRITE (R419): A write to a flow's words takes effect at the next item boundary. -/
  | flowWrite (t : Nat) (flow : Nat) (w : Nat) (v : Nat)
  /-- PACER_TICK (R420): Every millisecond Pacer computes headroom, decides the step and grants jobs. -/
  | pacerTick (t : Nat) (est : List Nat)
  /-- PMBUS_TELEMETRY (R421): Every 1 s Pacer reads regulator telemetry and recalibrates rail gains. -/
  | pmbusTelemetry (t : Nat) (meas : List Int)
  /-- JOB_POST (R427): Writing PACE.JOB_POST posts a host job or refuses it. -/
  | jobPost (t : Nat)
  /-- JOB_DONE (R427): Writing PACE.JOB_DONE frees a host job entry. -/
  | jobDone (t : Nat) (entry : Nat)
  /-- PSTATE (R435): Writing PACE.PSTATE requests a power state transition. -/
  | pstate (t : Nat) (v : Nat)
  /-- SLEEP_ENTERED (R435): The transition into SLEEP completes after lines stop and DRAM self-refreshes. -/
  | sleepEntered (t : Nat)
  /-- RUN_RESTORED (R435): The transition back to RUN completes with pages restored. -/
  | runRestored (t : Nat)
  /-- WAKE_ALARM (R435): The TAI second WAKE_ALARM_S wakes the package from SLEEP. -/
  | wakeAlarm (t : Nat)
  /-- WAKE_PIN (R435): A rising edge on WAKE_PIN wakes the package from SLEEP. -/
  | wakePin (t : Nat) (gpio : Nat)
  /-- PACER_REPORT (R433): Every REPORT_MS Pacer offers a report to source 31. -/
  | pacerReport (t : Nat)
  /-- VBAT_LOW (R436): VBAT falls below 2.2 V and VBAT_LOW is raised. -/
  | vbatLow (t : Nat) (low : Bool)
  /-- OSC_FAIL (R436): The backup oscillator fails and OSC_FAIL is raised. -/
  | oscFail (t : Nat) (fail : Bool) (long : Bool)
  /-- POWER_ON_RESET (R439): Power-on reset is released 10 ms after the supplies, PORST_N and the clock hold. -/
  | powerOnReset (t : Nat) (idx : Nat)
  /-- PIN_RESET (R441): A low pulse on RESET_N resets the device at once. -/
  | pinReset (t : Nat)
  /-- WARM_RESET (R441): Writing PKG WARM_RESET with KEY runs shut-down steps 1–3 and resets. -/
  | warmReset (t : Nat) (key : Nat)
  /-- BOOT_STAGE_END (R444): A start-up stage completes and the next stage begins. -/
  | bootStageEnd (t : Nat) (vals : List Nat) (cfg : List (Nat × Nat))
  /-- WAKE_N_FALL (R440): A falling edge of WAKE_N drives SUPPLY_EN high. -/
  | wakeNFall (t : Nat)
  /-- OFF_ALARM (R440): The backup alarm second drives SUPPLY_EN high. -/
  | offAlarm (t : Nat)
  /-- LC_ADVANCE (R449): Writing LC_ADVANCE with KEY checks and programs the next life-cycle state. -/
  | lcAdvance (t : Nat) (key : Nat) (ok : Bool) (vdda : Bool)
  /-- WDOG_KICK (R450): Writing 0x0000_4B4B to WDOG_KICK restarts the watchdog. -/
  | wdogKick (t : Nat) (v : Nat)
  /-- WATCHDOG_EXPIRY (R450): The watchdog expires and resets the management core or the package. -/
  | watchdogExpiry (t : Nat)
  /-- LINE_RESET (R451): Writing LINE_RESET with KEY fences and resets the named lines. -/
  | lineReset (t : Nat) (mask : Nat) (key : Nat)
  /-- LINE_RESET_RELEASE (R451): 1 ms after a line reset the fence is released and the line restarts if it runs. -/
  | lineResetRelease (t : Nat) (ln : Nat)
  /-- LINE_AUTO_RESET (R452): A line frozen for LINE_AUTO_S seconds is reset automatically. -/
  | lineAutoReset (t : Nat) (ln : Nat)
  /-- SHUTDOWN (R453): Writing PKG SHUTDOWN with KEY starts an orderly shut-down. -/
  | shutdown (t : Nat) (key : Nat)
  /-- SHUTDOWN_STEP_END (R453): A shut-down step completes and the next begins. -/
  | shutdownStepEnd (t : Nat)
  /-- SMBUS_STATUS (R454): SMBus command STATUS returns the power, life-cycle and boot status. -/
  | smbusStatus (t : Nat) (addr : Nat) (pec : Bool)
  /-- SMBUS_WAKE (R454): SMBus command WAKE requests RUN. -/
  | smbusWake (t : Nat) (addr : Nat) (pec : Bool)
  /-- SMBUS_SHUTDOWN (R454): SMBus command SHUTDOWN with 0x5D starts an orderly shut-down. -/
  | smbusShutdown (t : Nat) (addr : Nat) (v : Nat) (pec : Bool)
  /-- SMBUS_RESET (R454): SMBus command RESET with 0xA5 starts an SMBus reset. -/
  | smbusReset (t : Nat) (addr : Nat) (v : Nat) (pec : Bool)
  /-- SMBUS_TEMP (R454): SMBus command TEMP returns the highest die maximum. -/
  | smbusTemp (t : Nat) (addr : Nat) (pec : Bool)
  /-- POWER_FAIL (R455): PWR_FAIL_N low holds the gates inactive and flushes the Ledger buffer and journal. -/
  | powerFail (t : Nat)
  /-- LANE_START (R461): Writing a lane unit's START begins a pattern run, or refuses it. -/
  | laneStart (t : Nat) (lpu : Nat) (unit : Nat)
  /-- LANE_STOP (R460): Writing a lane unit's STOP ends its run with a verdict. -/
  | laneStop (t : Nat) (lpu : Nat) (unit : Nat) (errs : Nat) (n : Nat)
  /-- INJECT (R460): Writing INJECT inverts one transmitted bit. -/
  | inject (t : Nat) (lpu : Nat) (unit : Nat)
  /-- LANE_DURATION_END (R460): DURATION_S expires and the lane run ends with its verdict. -/
  | laneDurationEnd (t : Nat) (lpu : Nat) (unit : Nat) (errs : Nat) (n : Nat)
  /-- BUS_UNIT_START (R462): Writing a memory or NAND pattern unit's START begins its run, or refuses it. -/
  | busUnitStart (t : Nat) (lpu : Nat) (unit : Nat)
  /-- BUS_UNIT_STOP (R462): Writing a bus unit's STOP ends its run. -/
  | busUnitStop (t : Nat) (lpu : Nat) (unit : Nat) (errs : Nat) (first : Nat) (lanes : Nat) (worst : Nat)
  /-- BUS_UNIT_DONE (R463): A bus pattern run completes and gives its verdict. -/
  | busUnitDone (t : Nat) (lpu : Nat) (unit : Nat) (errs : Nat) (first : Nat) (lanes : Nat) (worst : Nat)
  /-- SLICE_START (R468): The self-test sequencer marks STARTED and begins the next slice, fencing its region. -/
  | sliceStart (t : Nat)
  /-- SLICE_END (R466): A slice ends with its verdict recorded in the Almanac. -/
  | sliceEnd (t : Nat) (sig : Nat) (count : Nat) (expSig : Nat) (expCount : Nat) (ok : Bool) (vals : List Int)
  /-- SLICE_TIMEOUT (R468): A slice running past SLICE_MS is cut as INCOMPLETE. -/
  | sliceTimeout (t : Nat) (sig : Nat) (count : Nat)
  /-- BUDGET_TIMEOUT (R468): The run reaching BUDGET_MS is cut and unstarted slices stay NOT_RUN. -/
  | budgetTimeout (t : Nat) (sig : Nat) (count : Nat)
  /-- RUN_NOW (R470): Writing BIST.RUN_NOW runs the slices of OFF line regions. -/
  | runNow (t : Nat)
  /-- POWER_ON_RESET_HOLD (R439): When a rail of groups 1–3 leaves its range, PORST_N falls or OCXO_CLK stops, the device holds power-on reset at once. -/
  | powerOnResetHold (t : Nat)
  /-- VBAT_APPLIED (R440): When VBAT is first applied, the backup domain drives SUPPLY_EN high. -/
  | vbatApplied (t : Nat)
  /-- BACKUP_VALID_LOST (R436): VBAT falling below 1.8 V clears the backup domain's VALID, so the counter and retained bytes count as absent. -/
  | backupValidLost (t : Nat)
  /-- PCIE_LINK_UP (R416): The PCIe link completes training, STATE becomes UP and LINK_UP is raised. -/
  | pcieLinkUp (t : Nat) (speed : Nat) (width : Nat) (mps : Nat) (mrrs : Nat)
  /-- CHECKER_LOCKED (R460): A lane checker locks after 256 consecutive error-free received bits and starts counting. -/
  | checkerLocked (t : Nat) (lpu : Nat) (unit : Nat)
  /-- LOST_LOCK (R460): 128 errors within 1,024 received bits make the checker lose lock, count LOCK_LOSSES, raise LOST_LOCK and search again. -/
  | lostLock (t : Nat) (lpu : Nat) (unit : Nat) (errs : Nat) (n : Nat)
  /-- NAND_TIMEOUT (R384): A NAND operation such as RESET or ZQ calibration times out, counts TIMEOUTS, raises TIMEOUT and can leave the channel FAILED. -/
  | nandTimeout (t : Nat) (ch : Nat) (fatal : Bool)
  /-- SFE_CLAMP_RELEASE (R289): When no ball of a sensor front end channel is clamped any longer, CLAMPn returns to 0 and measurements are kept again. -/
  | sfeClampRelease (t : Nat) (sfe : Nat)
  deriving DecidableEq, Repr

end Sys2Proof
end

