-- ==== Sys2Proof/Decode.lean ====
section
/-! DEFINITION. The words of commands: the spec's table of commands gives none of its rows any bits (no
command of the block is spelled by a word), so no word spells a command. -/

namespace Sys2Proof

/-- The command that the word `w` of `nbits` bits spells: none, since no row of the table has bits.
(Log: 9 DESIGN CHOICE.) -/
def decodeTableWord (_nbits _w : Nat) : Option Instr := none

end Sys2Proof
end

