-- ==== Sys2Proof/Machine/Bits.lean ====
section
/-! DEFINITION. Bit fields, two's complement, rounding and byte order, as the spec uses them. -/

namespace Sys2Proof.Machine

/-- Two's complement reading of the low `w` bits of `n`. -/
def sx (w n : Nat) : Int :=
  let m := n % 2 ^ w
  if 2 * m < 2 ^ w then (m : Int) else (m : Int) - (2 ^ w : Nat)

/-- The low `w` bits of the two's complement form of `i`. -/
def ux (w : Nat) (i : Int) : Nat := (i % ((2 ^ w : Nat) : Int)).toNat

/-- Bits `lsb + w - 1 … lsb` of `n`. -/
def bits (n lsb w : Nat) : Nat := n / 2 ^ lsb % 2 ^ w

/-- Bit `b` of `n`. -/
def bit (n b : Nat) : Bool := n / 2 ^ b % 2 == 1

/-- 1 for true. -/
def b2n (b : Bool) : Nat := if b then 1 else 0

/-- `n` with its bits `lsb + w - 1 … lsb` replaced by those of `v`. -/
def putBits (n lsb w v : Nat) : Nat :=
  n - bits n lsb w * 2 ^ lsb + v % 2 ^ w * 2 ^ lsb

/-- Limit of `i` to `lo … hi`. -/
def clampI (lo hi i : Int) : Int := if i < lo then lo else if hi < i then hi else i

/-- Limit of `n` to `lo … hi`. -/
def clampN (lo hi n : Nat) : Nat := if n < lo then lo else if hi < n then hi else n

/-- The quotient `num / den` (`den` positive) rounded to nearest, ties to even (RNE). -/
def rne (num : Int) (den : Nat) : Int :=
  let q := num / (den : Int)
  let r := 2 * (num - q * (den : Int))
  if r < (den : Int) then q
  else if (den : Int) < r then q + 1
  else if q % 2 = 0 then q else q + 1

/-- The quotient rounded down. -/
def fdiv (num : Int) (den : Nat) : Int := num / (den : Int)

/-- The quotient of naturals rounded up. -/
def cdiv (a b : Nat) : Nat := (a + b - 1) / b

/-- The largest natural whose square is at most `n`, by `fuel` halvings of the bracket. -/
def isqrtGo : Nat → Nat → Nat → Nat → Nat
  | 0, _, lo, _ => lo
  | fuel + 1, n, lo, hi =>
    if hi ≤ lo + 1 then lo
    else
      let m := (lo + hi) / 2
      if m * m ≤ n then isqrtGo fuel n m hi else isqrtGo fuel n lo m

/-- The whole square root, rounded down. -/
def isqrt (n : Nat) : Nat := isqrtGo (Nat.log2 n + 2) n 0 (n + 1)

/-- The `k` little-endian bytes of `n` (all multi-byte fields of the spec's items are little-endian). -/
def leBytes : Nat → Nat → List Nat
  | 0, _ => []
  | k + 1, n => n % 256 :: leBytes k (n / 256)

/-- The number that little-endian bytes spell. -/
def ofLe : List Nat → Nat
  | [] => 0
  | b :: r => b % 256 + 256 * ofLe r

/-- The list cut or filled with zeros to `n` elements. -/
def padTo (n : Nat) (l : List Nat) : List Nat := (l ++ List.replicate n 0).take n

/-- The bitwise AND, OR and XOR of naturals, and the bits of `n` not in `m`. -/
def andNot (n m : Nat) : Nat := n ^^^ (n &&& m)

/-- The number of ones in the low `w` bits of `n`. -/
def popcount (w n : Nat) : Nat := ((List.range w).filter (fun b => bit n b)).length

/-- The sum of a list of integers. -/
def sumI (l : List Int) : Int := l.foldl (· + ·) 0

/-- The largest element of a list, `d` for an empty one. -/
def maxI (d : Int) (l : List Int) : Int :=
  match l with
  | [] => d
  | a :: r => r.foldl max a

/-- The smallest element of a list, `d` for an empty one. -/
def minI (d : Int) (l : List Int) : Int :=
  match l with
  | [] => d
  | a :: r => r.foldl min a

/-- Insertion into an ascending list of integers. -/
def insI (a : Int) : List Int → List Int
  | [] => [a]
  | b :: r => if a ≤ b then a :: b :: r else b :: insI a r

/-- The list in ascending order. -/
def sortI (l : List Int) : List Int := l.foldl (fun acc a => insI a acc) []

end Sys2Proof.Machine
end

