-- ==== Sys2Proof/Machine/Crc.lean ====
section
/-! DEFINITION. Cyclic redundancy checks, bit by bit, from the parameters of the spec's table (R395). -/

namespace Sys2Proof.Machine

/-- The parameters of a check (R395). -/
structure CrcParm where
  width : Nat
  poly : Nat
  init : Nat
  refl : Bool
  xorout : Nat
  deriving DecidableEq, Repr

/-- The low `w` bits of `n` in reverse order. -/
def reflect : Nat → Nat → Nat
  | 0, _ => 0
  | w + 1, n => n % 2 * 2 ^ w + reflect w (n / 2)

/-- One bit through a reflected register with the reflected polynomial `rp`. -/
def crcBitR (rp c : Nat) : Nat := if c % 2 = 1 then (c / 2) ^^^ rp else c / 2

/-- One bit through a register that shifts left. -/
def crcBitL (w p c : Nat) : Nat :=
  if c / 2 ^ (w - 1) % 2 = 1 then (c * 2 % 2 ^ w) ^^^ p else c * 2 % 2 ^ w

/-- `n` times `f`. -/
def iter {α : Type} (f : α → α) : Nat → α → α
  | 0, a => a
  | n + 1, a => iter f n (f a)

/-- One byte into the register `c` (R396). -/
def crcByte (q : CrcParm) (c b : Nat) : Nat :=
  if q.refl then iter (crcBitR (reflect q.width q.poly)) 8 (c ^^^ b % 256)
  else iter (crcBitL q.width q.poly) 8 (c ^^^ b % 256 * 2 ^ (q.width - 8))

/-- A list of bytes into the register, first byte first. -/
def crcFeed (q : CrcParm) (c : Nat) (bytes : List Nat) : Nat := bytes.foldl (crcByte q) c

/-- The finished check of register `c`. -/
def crcOut (q : CrcParm) (c : Nat) : Nat := c ^^^ q.xorout

/-- The check over a whole list. -/
def crcOf (q : CrcParm) (bytes : List Nat) : Nat := crcOut q (crcFeed q q.init bytes)

/-- CRC-32C (R395, POLY 0). -/
def crc32cP : CrcParm := ⟨32, 0x1EDC6F41, 0xFFFFFFFF, true, 0xFFFFFFFF⟩
/-- CRC-32/ISO-HDLC (POLY 1). -/
def crc32P : CrcParm := ⟨32, 0x04C11DB7, 0xFFFFFFFF, true, 0xFFFFFFFF⟩
/-- CRC-16/IBM-3740 (POLY 2). -/
def crc16P : CrcParm := ⟨16, 0x1021, 0xFFFF, false, 0⟩
/-- CRC-64/XZ (POLY 3). -/
def crc64P : CrcParm := ⟨64, 0x42F0E1EBA9EA3693, 0xFFFFFFFFFFFFFFFF, true, 0xFFFFFFFFFFFFFFFF⟩

/-- The parameters that POLY selects (R395). -/
def crcParm (poly : Nat) : CrcParm :=
  if poly = 0 then crc32cP else if poly = 1 then crc32P else if poly = 2 then crc16P else crc64P

/-- CRC-32C of bytes. -/
def crc32c (bytes : List Nat) : Nat := crcOf crc32cP bytes

end Sys2Proof.Machine
end

