-- ==== Sys2Proof/Machine/Codec.lean ====
section
/-! DEFINITION. The Melain block: layout, DELTA, tokens, encoding and decoding (R385–R391), as functions of bytes. -/

namespace Sys2Proof.Machine

/-! ## Frames in bytes (R174, R198, R229, R387) -/

/-- Little-endian number of `n` bytes at `o`. -/
def leAt (b : List Nat) (o n : Nat) : Nat := ofLe ((b.drop o).take n)

/-- The length of the frame whose header begins `b`, where a known header does. The S plane of a thermal frame is
sized by a count that its header does not hold; it is left out.
(Log: 183 DESIGN CHOICE.) -/
def frameLen (b : List Nat) : Option Nat :=
  let magic := leAt b 0 2
  let mask := leAt b 31 1
  let c := leAt b 40 4
  let on (k n : Nat) : Nat := if bit mask k then n else 0
  if b.length < 64 then none
  else if magic = 0x4746 then
    let q := leAt b 46 1
    let rs := if q = 0 then 1 else if q = 3 then 4 else 2
    some (64 + on 0 (2 * c) + on 1 (cdiv c rs) + on 2 (2 * c) + on 3 (cdiv c 64))
  else if magic = 0x4754 then some (64 + on 0 (2 * c) + on 1 (4 * c) + on 2 (8 * c) + on 3 (cdiv c 64))
  else if magic = 0x4758 then some (64 + on 0 (12 * c))
  else none

/-- The frames at the start of `b`, each as its bytes, and the bytes after the walk stops.
(Log: 183 DESIGN CHOICE.) -/
def walk : Nat → List Nat → List (List Nat) × List Nat
  | 0, b => ([], b)
  | fuel + 1, b =>
    match frameLen b with
    | some n =>
      if n ≤ b.length then
        let r := walk fuel (b.drop n)
        (b.take n :: r.1, r.2)
      else ([], b)
    | none => ([], b)

/-- The walk over all of `b`. -/
def walkAll (b : List Nat) : List (List Nat) × List Nat := walk (b.length / 64 + 1) b

/-- Frame `f` after frame `p` is transformed (R387). -/
def deltaPair (p f : List Nat) : Bool :=
  leAt f 0 2 == 0x4746 && bit (leAt f 31 1) 0 && leAt p 0 2 == 0x4746 && bit (leAt p 31 1) 0 &&
    leAt f 40 4 == leAt p 40 4 && leAt f 45 1 == leAt p 45 1

/-- 16-bit values of bytes. -/
def words16 : List Nat → List Nat
  | a :: b :: r => (a % 256 + 256 * (b % 256)) :: words16 r
  | _ => []

/-- The P plane of `f` replaced by its values combined by `op` with those of `p`. -/
def deltaFrame (op : Nat → Nat → Nat) (p f : List Nat) : List Nat :=
  let n := 2 * leAt f 40 4
  let vs := (words16 ((f.drop 64).take n)).zip (words16 ((p.drop 64).take n))
  f.take 64 ++ vs.flatMap (fun e => leBytes 2 (op e.1 e.2 % 65536)) ++ f.drop (64 + n)

/-- The frames transformed by the encoder: each against the original frame before it. -/
def deltaFwd : List Nat → List (List Nat) → List (List Nat)
  | _, [] => []
  | p, f :: r => (if deltaPair p f then deltaFrame (fun v w => v + 65536 - w) p f else f) :: deltaFwd f r

/-- The frames restored by the decoder: each against the restored frame before it. -/
def deltaBack : List Nat → List (List Nat) → List (List Nat)
  | _, [] => []
  | p, f :: r =>
    let g := if deltaPair p f then deltaFrame (fun v w => v + w) p f else f
    g :: deltaBack g r

/-- The DELTA transform of original bytes, and its inverse. -/
def deltaOf (b : List Nat) : List Nat := let w := walkAll b; (deltaFwd [] w.1).flatten ++ w.2
def deltaUndo (b : List Nat) : List Nat := let w := walkAll b; (deltaBack [] w.1).flatten ++ w.2

/-! ## Tokens (R388) -/

/-- An unsigned LEB128 number of at most three bytes. -/
def varint (v : Nat) : List Nat :=
  if v < 128 then [v] else if v < 16384 then [v % 128 + 128, v / 128]
  else [v % 128 + 128, v / 128 % 128 + 128, v / 16384]

/-- A literal run. -/
def tokLit (b : List Nat) : List Nat :=
  if b.isEmpty then [] else if b.length ≤ 63 then (b.length - 1) :: b else 63 :: varint (b.length - 64) ++ b

/-- The token of a match of `len` at offset `off`, `last` being the last offset (R390 step 3). -/
def tokMatch (last off len : Nat) : List Nat :=
  if off = last ∧ len ≤ 66 then [0xC0 + (len - 3)]
  else if len ≤ 10 ∧ off ≤ 2048 then
    let v := 0x4000 + (len - 3) * 2048 + (off - 1)
    [v / 256, v % 256]
  else if len - 3 ≤ 62 then (0x80 + (len - 3)) :: leBytes 2 (off - 1)
  else (0x80 + 63) :: varint (len - 66) ++ leBytes 2 (off - 1)

/-- The length of the common start of two lists. -/
def prefixLen : List Nat → List Nat → Nat
  | a :: r, b :: q => if a = b then prefixLen r q + 1 else 0
  | _, _ => 0

/-- The best match at position `p` of `b` at level `l`: among the nearest 2^l earlier positions in the window whose
next 3 bytes are the same, the longest, and among equals the nearest (R390 step 2).
(Log: 182 DEDUCED.) -/
def bestMatch (b : List Nat) (p l : Nat) : Option (Nat × Nat) :=
  let here := b.drop p
  if here.length < 3 then none
  else
    let offs := ((List.range (min p 65536)).map (· + 1)).filter (fun o => (b.drop (p - o)).take 3 == here.take 3)
    (offs.take (2 ^ l)).foldl (fun a o =>
      let n := prefixLen (b.drop (p - o)) here
      match a with
      | some (_, m) => if m < n then some (o, n) else a
      | none => some (o, n)) none

/-- The tokens of `b` from position `p` on; `lits`: the literal bytes not yet written, newest first.
(Log: 182 DEDUCED.) -/
def tokens : Nat → List Nat → Nat → Nat → Nat → List Nat → List Nat
  | 0, _, _, _, _, lits => tokLit lits.reverse
  | fuel + 1, b, l, p, last, lits =>
    if b.length ≤ p then tokLit lits.reverse
    else match bestMatch b p l with
      | some (o, n) => tokLit lits.reverse ++ tokMatch last o n ++ tokens fuel b l (p + n) o []
      | none => tokens fuel b l (p + 1) last (b.getD p 0 :: lits)

/-- The payload at level `l` ≥ 1. -/
def compress (b : List Nat) (l : Nat) : List Nat := tokens (b.length + 1) b l 0 1 []

/-! ## Blocks (R385, R386, R390) -/

/-- What an encoder is told of a block. -/
structure BlockHead where
  stream : Nat
  items : Nat
  first : Nat
  time : Nat
  deriving DecidableEq, Repr

/-- The header without its CRC, then with it. -/
def blockHeader (h : BlockHead) (flags orig stored : Nat) : List Nat :=
  let b := leBytes 2 0x4D4C ++ [1, flags, h.stream % 256, 0] ++ leBytes 2 h.items ++ leBytes 4 orig ++ leBytes 4 stored ++
    leBytes 8 h.first ++ leBytes 4 h.time ++ [0, 0]
  b ++ leBytes 2 (crcOf crc16P b)

/-- The trailer (R386). -/
def blockTrailer (orig : List Nat) : List Nat :=
  let c := leBytes 4 (crc32c orig)
  c ++ leBytes 4 (crc32c c)

/-- The block of the original bytes at level `l`, and whether it is RAW (R390). -/
def encodeBlock (h : BlockHead) (l : Nat) (delta : Bool) (orig : List Nat) : List Nat × Bool :=
  let pay := if l = 0 then orig else compress (if delta then deltaOf orig else orig) l
  if l = 0 ∨ orig.length ≤ pay.length then
    (blockHeader h (1 + 16 * l) orig.length orig.length ++ orig ++ blockTrailer orig, true)
  else (blockHeader h (2 * b2n delta + 16 * l) orig.length pay.length ++ pay ++ blockTrailer orig, false)

/-! ## Decoding (R389, R391) -/

/-- A varint at the start of bytes: its value and the rest; none where it is longer than three bytes or cut off. -/
def unvarint : List Nat → Option (Nat × List Nat)
  | a :: r =>
    if a < 128 then some (a, r)
    else match r with
      | b :: r =>
        if b < 128 then some (a % 128 + 128 * b, r)
        else match r with
          | c :: r => if c < 128 then some (a % 128 + 128 * (b % 128) + 16384 * c, r) else none
          | [] => none
      | [] => none
  | [] => none

/-- `n` bytes copied one at a time from `off` behind; the output stands newest first. -/
def copyBack : Nat → Nat → List Nat → List Nat
  | 0, _, out => out
  | n + 1, off, out => copyBack n off (out.getD (off - 1) 0 :: out)

/-- The tokens of a payload decoded: the output, newest first, and whether they are well-formed up to the end. A token
that would pass the original length yields its bytes up to it.
(Log: 182 DEDUCED.) -/
def untok : Nat → List Nat → Nat → Nat → List Nat → List Nat × Bool
  | 0, p, orig, _, out => (out, p.isEmpty && out.length == orig)
  | fuel + 1, p, orig, last, out =>
    match p with
    | [] => (out, out.length == orig)
    | t :: r =>
      let n := t % 64
      let put (off len : Nat) (rest : List Nat) : List Nat × Bool :=
        if out.length < off then (out, false)
        else if orig < out.length + len then (copyBack (orig - out.length) off out, false)
        else untok fuel rest orig off (copyBack len off out)
      if t < 64 then
        match (if n = 63 then (unvarint r).map (fun e => (e.1 + 64, e.2)) else some (n + 1, r)) with
        | none => (out, false)
        | some (k, q) =>
          if q.length < k ∨ orig < out.length + k then ((q.take (min k (orig - out.length))).reverse ++ out, false)
          else untok fuel (q.drop k) orig last ((q.take k).reverse ++ out)
      else if t < 128 then
        match r with
        | b :: q => put ((n % 8) * 256 + b + 1) (n / 8 + 3) q
        | [] => (out, false)
      else if t < 192 then
        match (if n = 63 then (unvarint r).map (fun e => (e.1 + 66, e.2)) else some (n + 3, r)) with
        | some (k, a :: b :: q) => put (a + 256 * b + 1) k q
        | _ => (out, false)
      else put last (n + 3) r

/-- The header of a block is good: magic, version, reserved bits, CRC and original length (R389). -/
def headerGood (b : List Nat) : Bool :=
  decide (32 ≤ b.length) && leAt b 0 2 == 0x4D4C && leAt b 2 1 == 1 && leAt b 3 1 / 4 % 4 == 0 && leAt b 5 1 == 0 &&
    leAt b 28 2 == 0 && leAt b 30 2 == crcOf crc16P (b.take 30) && decide (1 ≤ leAt b 8 4) && decide (leAt b 8 4 ≤ 1048576)

/-- A whole block decoded: verdict (0 OK, 1 DATA_MISMATCH, 2 CHECK_UNVERIFIED, 3 MALFORMED) and the bytes delivered
(R389, R391). `whole`: the block is as long as its header says.
(Log: 182 DEDUCED.) -/
def decodeBlock (b : List Nat) : Nat × List Nat :=
  if !headerGood b then (3, [])
  else
    let orig := leAt b 8 4
    let stored := leAt b 12 4
    let fl := leAt b 3 1
    let pay := (b.drop 32).take stored
    let (out, good) :=
      if bit fl 0 then (pay.take orig, decide (stored = orig))
      else
        let r := untok (pay.length + 1) pay orig 1 []
        (r.1.reverse, r.2)
    let whole := b.length == 40 + stored
    let data := padTo orig out
    let data := if bit fl 1 then deltaUndo data else data
    if !good || !whole then (3, data)
    else
      let t := b.drop (32 + stored)
      let v := if leAt t 4 4 ≠ crc32c (t.take 4) then 2 else if leAt t 0 4 ≠ crc32c data then 1 else 0
      (v, data)

end Sys2Proof.Machine
end

