-- ==== Sys2Proof/Config.lean ====
section
/-! DEFINITION. What the spec leaves open: one constant without a body for each value the spec does
not fix. Nothing in Lean can evaluate them, so a statement holds whatever they are. -/

namespace Sys2Proof.Config

/-- The `k`-th free value: a plain number that nothing constrains. A meaning that needs a value the
spec leaves open applies it to the counter `freeN` of the state and advances the counter.
(Log: 7 DESIGN CHOICE.) -/
opaque freeValue : Nat → Nat

/-- Cost in mW and duration in ms of the device owner `o`'s Pacer job where the spec states none (R424).
(Log: 136 DESIGN CHOICE.) -/
opaque jobCost : Nat → Nat
opaque jobDur : Nat → Nat

/-- tXS and tXSDLL in ns at DRAM speed code `s` other than 3200 MT/s, by density (R358).
(Log: 165 DESIGN CHOICE.) -/
opaque tXs : Nat → Nat → Nat
opaque tXsDll : Nat → Nat → Nat

/-- The lowest latency tolerance, in ns, that the device clients of a DRAM channel other than lines,
migration and host declare from their buffering (R358).
(Log: 165 DESIGN CHOICE.) -/
opaque clientTol : Nat → Nat

/-- MiB that a rank migration on channel `c` has copied some ticks after its start; at most what MIG_BW allows counts (R350).
(Log: 165 DESIGN CHOICE.) -/
opaque migCopied : Nat → Nat → Nat

/-- How many credits a virtual channel of a bridge has in each direction (R33).
(Log: 251 DESIGN CHOICE.) -/
opaque vcCredits : Nat → Nat

/-- How far the NCO's cosine and sine (R135) for a 20-bit phase lie from the values rounded to 2^-17; at most one LSB of it counts.
(Log: 74 DESIGN CHOICE.) -/
opaque ncoCos : Nat → Int
opaque ncoSin : Nat → Int

/-- The decimation cascade (R136): the weight, in units of 2^-24, of an input `k` ns from the output's instant, at slot rate code
`rate`, in fine mode or not.
(Log: 75 DESIGN CHOICE.) -/
opaque decTap : Bool → Nat → Nat → Int

/-- The fractional-delay filter of R114 (R256): the corrected sample from the latest 16, for a nonzero SKEW.
(Log: 68 DESIGN CHOICE.) -/
opaque skew : Int → List Int → Int

/-- CORDIC (R147): how far PHASE of a complex number, in units of 2^-24 turn, lies from the value rounded, or PHASE itself where its
amplitude is below 64; and how far AMP of a power does.
(Log: 76 DESIGN CHOICE.) -/
opaque cordicArg : Int → Int → Int
opaque cordicAmp : Nat → Int

/-- What the samples past the last bin of a launch hold in its last word (R150), by bin number.
(Log: 241 DESIGN CHOICE.) -/
opaque fillSample : Nat → Nat

/-- How far ln R of the positive ratio of two integers lies from the value rounded to 2^-24 (R190).
(Log: 91 DESIGN CHOICE.) -/
opaque lnRatio : Int → Int → Int

/-- Whether the PT solution of R287, which holds to ±1 LSB, is one above the floor, for R, RNOM as a ratio.
(Log: 128 DEDUCED.) -/
opaque ptUp : Rat → Bool

/-- How far the NTC temperature of R287 lies from the value rounded to 1/128 °C, for R / RNOM and BETA; only the two codes next
to the value count.
(Log: 129 DESIGN CHOICE.) -/
opaque ntcTemp : Rat → Nat → Int

/-- Which of the two multiples of 2^-8 hours next to the rise of a segment's age is taken (R374), for EA in meV, a temperature in
1/128 °C and a time in seconds: only those two count.
(Log: 180 DESIGN CHOICE.) -/
opaque ageStep : Nat → Int → Nat → Int

/-- The Melain level of the blocks of streams 36 and 37, which R368 leaves open.
(Log: 171 DESIGN CHOICE, 172 DEDUCED.) -/
opaque arcLevel : Nat → Nat

/-- What SECONDS_LO, SECONDS_HI and PHASE of the BKP page read while VALID is 0 (R436), by offset.
(Log: 16 DESIGN CHOICE.) -/
opaque bkpUnset : Nat → Nat

/-- The characterised AVS voltage of line die 1 or 2 in mV for its present load (R422), by P_est in mW.
(Log: 205 DESIGN CHOICE.) -/
opaque avsVolt : Nat → Nat → Nat

end Sys2Proof.Config
end

