-- ==== Sys2Proof/Machine/Pages.lean ====
section
/-! DEFINITION. Where pages lie (R52, R53, R54), which region each belongs to (R28, R495) and the
page identities of R43. A page is named by its BAR0 address bits [23:12]. -/

namespace Sys2Proof.Machine

/-- The region numbers: 0–11 the lines, then the five service regions. -/
def regMemory : Nat := 12
/-- The archive region. -/
def regArchive : Nat := 13
/-- The host/network region. -/
def regHost : Nat := 14
/-- The time region. -/
def regTime : Nat := 15
/-- The service region. -/
def regService : Nat := 16

/-- The first page of line `n` (R53). -/
def lineBase (n : Nat) : Nat := 0x400 + 0x400 * (n / 6) + 0x40 * (n % 6)

def pgCat : Nat := 0x000
def pgPkg : Nat := 0x001
def pgPace : Nat := 0x002
def pgPaceTbl : Nat := 0x003
def pgTime : Nat := 0x010
def pgPtp (i : Nat) : Nat := 0x011 + i
def pgPps : Nat := 0x013
def pgPf (i : Nat) : Nat := 0x014 + i
def pgBtn : Nat := 0x01C
def pgShelfHub : Nat := 0x020
def pgDmc (c : Nat) : Nat := 0x021 + c
def pgDly (c : Nat) : Nat := 0x023 + c
def pgArc : Nat := 0x030
def pgNch (i : Nat) : Nat := 0x031 + i
def pgMel (i : Nat) : Nat := 0x039 + i
def pgChk : Nat := 0x03D
def pgPcie : Nat := 0x040
def pgRings : Nat := 0x041
def pgEth (i : Nat) : Nat := 0x042 + i
def pgFlows : Nat := 0x044
def pgSvc : Nat := 0x050
def pgSfe : Nat := 0x051
def pgLoop : Nat := 0x052
def pgGpio : Nat := 0x053
def pgAlm : Nat := 0x054
def pgBkp : Nat := 0x055
def pgThermHub : Nat := 0x056
def pgLpu (i : Nat) : Nat := 0x060 + i
def pgBist : Nat := 0x068

def pgLine (n : Nat) : Nat := lineBase n
def pgStarter (n : Nat) : Nat := lineBase n + 0x01
def pgRx (n : Nat) : Nat := lineBase n + 0x02
def pgThrx (n : Nat) : Nat := lineBase n + 0x03
def pgSlot (n s : Nat) : Nat := lineBase n + 0x04 + s
def pgGauge (n : Nat) : Nat := lineBase n + 0x0C
def pgResamp (n : Nat) : Nat := lineBase n + 0x0D
def pgFrame (n : Nat) : Nat := lineBase n + 0x0E
def pgStack (n : Nat) : Nat := lineBase n + 0x0F
def pgHurdle (n : Nat) : Nat := lineBase n + 0x10
def pgCal (n : Nat) : Nat := lineBase n + 0x11
def pgStrideCl (n : Nat) : Nat := lineBase n + 0x12
def pgStride (n k : Nat) : Nat := lineBase n + 0x20 + k
/-- The first page of the coefficient window of slot `s` (8 KiB, R153). -/
def pgCoef (n s : Nat) : Nat := lineBase n + 0x30 + 2 * s

/-- The first die-common page of line die `d` (1 = A, 2 = B; R54). -/
def dieCommon (d : Nat) : Nat := if d = 1 then 0x700 else 0xB00
/-- The shelf pool page of pool `d` (0 hub, 1 and 2 the line dies). -/
def pgShelf (d : Nat) : Nat := if d = 0 then pgShelfHub else dieCommon d
/-- The thermal page of die `d`. -/
def pgTherm (d : Nat) : Nat := if d = 0 then pgThermHub else dieCommon d + 1
/-- The bridge page of line die `d`. -/
def pgBridge (d : Nat) : Nat := dieCommon d + 2
/-- The line die of line `n` (1 = A, 2 = B). -/
def dieOf (n : Nat) : Nat := 1 + n / 6

/-- The kind of the page at `o` pages from the base of a line region (R53). -/
def lineKind (o : Nat) : Option PageKind :=
  if o = 0 then some .line
  else if o = 1 then some .starter
  else if o = 2 then some .rx
  else if o = 3 then some .thrx
  else if o < 0x0C then some .slot
  else if o = 0x0C then some .gauge
  else if o = 0x0D then some .resamp
  else if o = 0x0E then some .frame
  else if o = 0x0F then some .stack
  else if o = 0x10 then some .hurdle
  else if o = 0x11 then some .cal
  else if o = 0x12 then some .strideCl
  else if 0x20 ≤ o ∧ o < 0x30 then some .stride
  else none

/-- The kind of the hub page `p` (R52). -/
def hubKind (p : Nat) : Option PageKind :=
  if p = 0x000 then some .cat
  else if p = 0x001 then some .pkg
  else if p = 0x002 then some .pace
  else if p = 0x003 then some .paceTbl
  else if p = 0x010 then some .time
  else if p = 0x011 ∨ p = 0x012 then some .ptp
  else if p = 0x013 then some .pps
  else if 0x014 ≤ p ∧ p < 0x01C then some .pf
  else if p = 0x01C then some .btn
  else if p = 0x020 then some .shelfHub
  else if p = 0x021 ∨ p = 0x022 then some .dmc
  else if p = 0x023 ∨ p = 0x024 then some .dly
  else if p = 0x030 then some .arc
  else if 0x031 ≤ p ∧ p < 0x039 then some .nch
  else if 0x039 ≤ p ∧ p < 0x03D then some .mel
  else if p = 0x03D then some .chk
  else if p = 0x040 then some .pcie
  else if p = 0x041 then some .rings
  else if p = 0x042 ∨ p = 0x043 then some .eth
  else if p = 0x044 then some .flows
  else if p = 0x050 then some .svc
  else if p = 0x051 then some .sfe
  else if p = 0x052 then some .loop
  else if p = 0x053 then some .gpio
  else if p = 0x054 then some .alm
  else if p = 0x055 then some .bkp
  else if p = 0x056 then some .therm
  else if 0x060 ≤ p ∧ p < 0x063 then some .lpuLane
  else if 0x063 ≤ p ∧ p < 0x065 then some .lpuBus
  else if 0x065 ≤ p ∧ p < 0x068 then some .lpuAna
  else if p = 0x068 then some .bist
  else none

/-- The line whose region holds page number `p`, if one does. -/
def lineOfPage (p : Nat) : Option Nat :=
  if 0x400 ≤ p ∧ p < 0x400 + 0x180 then some ((p - 0x400) / 0x40)
  else if 0x800 ≤ p ∧ p < 0x800 + 0x180 then some (6 + (p - 0x800) / 0x40)
  else none

/-- The die-common page `p`: its die and its place. -/
def dieCommonOf (p : Nat) : Option (Nat × Nat) :=
  if 0x700 ≤ p ∧ p < 0x703 then some (1, p - 0x700)
  else if 0xB00 ≤ p ∧ p < 0xB03 then some (2, p - 0xB00)
  else none

/-- The kind of page `p`; none where no page lies. -/
def kindOf (p : Nat) : Option PageKind :=
  match lineOfPage p with
  | some n => lineKind (p - lineBase n)
  | none =>
    match dieCommonOf p with
    | some (_, 0) => some .shelfDie
    | some (_, 1) => some .therm
    | some (_, _) => some .bridge
    | none => hubKind p

/-- The coefficient window that page number `p` lies in: its line, slot and page within it (R153). -/
def coefOf (p : Nat) : Option (Nat × Nat × Nat) :=
  match lineOfPage p with
  | some n =>
    let o := p - lineBase n
    if 0x30 ≤ o ∧ o < 0x40 then some (n, (o - 0x30) / 2, (o - 0x30) % 2) else none
  | none => none

/-- The region of page `p`; none for the pages of R495. -/
def regionOf (p : Nat) : Option Nat :=
  match lineOfPage p with
  | some n => some n
  | none =>
    if p = 0x002 ∨ p = 0x003 then some regService
    else if 0x010 ≤ p ∧ p < 0x020 then some regTime
    else if 0x020 ≤ p ∧ p < 0x030 then some regMemory
    else if 0x030 ≤ p ∧ p < 0x040 then some regArchive
    else if 0x040 ≤ p ∧ p < 0x050 then some regHost
    else if 0x050 ≤ p ∧ p < 0x070 then some regService
    else none

/-- The offsets of the pages of a line region, in address order. -/
def lineOffsets : List Nat := List.range 0x13 ++ (List.range 16).map (0x20 + ·)

/-- The pages of line `n`. -/
def linePages (n : Nat) : List Nat := lineOffsets.map (lineBase n + ·)

/-- The hub pages (R52). -/
def hubPages : List Nat :=
  [0x000, 0x001, 0x002, 0x003] ++ (List.range 13).map (0x010 + ·) ++ (List.range 5).map (0x020 + ·) ++
  (List.range 14).map (0x030 + ·) ++ (List.range 5).map (0x040 + ·) ++ (List.range 7).map (0x050 + ·) ++
  (List.range 9).map (0x060 + ·)

/-- The pages of region `r` (R28, R495). -/
def regionPages (r : Nat) : List Nat :=
  if r < 12 then linePages r
  else hubPages.filter (fun p => decide (regionOf p = some r))

/-- Every page of the package, in address order. -/
def allPages : List Nat :=
  hubPages ++ (List.range 6).flatMap linePages ++ [0x700, 0x701, 0x702] ++
  (List.range 6).flatMap (fun i => linePages (6 + i)) ++ [0xB00, 0xB01, 0xB02]

/-- The type code of a page kind (R52, R53, R54). -/
def typeCode : PageKind → Nat
  | .cat => 0x0001 | .pkg => 0x0002 | .pace => 0x0003 | .paceTbl => 0x0004
  | .time => 0x0010 | .ptp => 0x0011 | .pps => 0x0012 | .pf => 0x0013 | .btn => 0x0014
  | .shelfHub => 0x0020 | .shelfDie => 0x0020 | .dmc => 0x0021 | .dly => 0x0022
  | .arc => 0x0030 | .nch => 0x0031 | .mel => 0x0032 | .chk => 0x0033
  | .pcie => 0x0040 | .rings => 0x0041 | .eth => 0x0042 | .flows => 0x0043
  | .svc => 0x0050 | .sfe => 0x0051 | .loop => 0x0052 | .gpio => 0x0053 | .alm => 0x0054
  | .bkp => 0x0055 | .therm => 0x0056
  | .lpuLane => 0x0060 | .lpuBus => 0x0060 | .lpuAna => 0x0060 | .bist => 0x0061
  | .line => 0x0100 | .starter => 0x0101 | .rx => 0x0102 | .thrx => 0x0103 | .slot => 0x0104
  | .gauge => 0x0105 | .resamp => 0x0106 | .frame => 0x0107 | .stack => 0x0108 | .hurdle => 0x0109
  | .cal => 0x010A | .strideCl => 0x010B | .stride => 0x010C | .bridge => 0x0072

/-- INSTANCE of page `p`: its index among the pages of its type in its line, or in its die (R43). -/
def instanceOf (p : Nat) : Nat :=
  match lineOfPage p with
  | some n =>
    let o := p - lineBase n
    if 4 ≤ o ∧ o < 0x0C then o - 4 else if 0x20 ≤ o then o - 0x20 else 0
  | none =>
    if p = 0x012 then 1
    else if 0x014 ≤ p ∧ p < 0x01C then p - 0x014
    else if p = 0x022 ∨ p = 0x024 then 1
    else if 0x031 ≤ p ∧ p < 0x039 then p - 0x031
    else if 0x039 ≤ p ∧ p < 0x03D then p - 0x039
    else if p = 0x043 then 1
    else if 0x060 ≤ p ∧ p < 0x068 then p - 0x060
    else 0

/-- PAGE_INFO.DIE of page `p`. -/
def pageDie (p : Nat) : Nat :=
  match lineOfPage p with
  | some n => dieOf n
  | none =>
    match dieCommonOf p with
    | some (d, _) => d
    | none => 0

/-- PAGE_INFO.REGION of page `p` (R43). -/
def regionCode (p : Nat) : Nat :=
  match lineOfPage p with
  | some _ => 0
  | none =>
    match dieCommonOf p with
    | some _ => 6
    | none =>
      if p = 0x000 ∨ p = 0x001 then 7
      else if p < 0x010 then 5
      else if p < 0x020 then 4
      else if p < 0x030 then 1
      else if p < 0x040 then 2
      else if p < 0x050 then 3
      else 5

/-- PAGE_INFO.LINE of page `p`. -/
def lineCode (p : Nat) : Nat := (lineOfPage p).getD 0xF

/-- PAGE_ID of page `p` of kind `k` (R43). -/
def pageId (p : Nat) (k : PageKind) : Nat := typeCode k * 65536 + instanceOf p * 256 + 1

/-- PAGE_INFO of page `p` (R43, R44: PACE and PACE_TBL are the one block of two pages). -/
def pageInfo (p : Nat) : Nat :=
  let count := if p = 0x002 ∨ p = 0x003 then 2 else 1
  let index := if p = 0x003 then 1 else 0
  pageDie p + regionCode p * 16 + lineCode p * 256 + count * 65536 + index * 16777216

/-- The entries of the Catalogue in address order: page number, and whether it is a window (R51). -/
def lineEntries (n : Nat) : List (Nat × Bool) :=
  (linePages n).map (·, false) ++ (List.range 8).map (fun s => (pgCoef n s, true))

/-- The whole Catalogue (R51). -/
def catalogue : List (Nat × Bool) :=
  hubPages.map (·, false) ++ (List.range 6).flatMap lineEntries ++
  [(0x700, false), (0x701, false), (0x702, false)] ++
  (List.range 6).flatMap (fun i => lineEntries (6 + i)) ++
  [(0xB00, false), (0xB01, false), (0xB02, false)]

/-- ENTRY_LO of a Catalogue entry (R51); a window has the type code 0x010D (R52). -/
def entryLo (e : Nat × Bool) : Nat :=
  match e with
  | (p, false) => match kindOf p with
    | some k => pageId p k
    | none => 0
  | (p, true) => match coefOf p with
    | some (_, s, _) => 0x010D * 65536 + s * 256 + 1
    | none => 0

/-- ENTRY_HI of a Catalogue entry (R51). -/
def entryHi (e : Nat × Bool) : Nat :=
  e.1 + pageDie e.1 * 2 ^ 12 + regionCode e.1 * 2 ^ 16 + lineCode e.1 * 2 ^ 20 +
  (if e.2 then 2 ^ 24 + 2 ^ 25 else 0)

/-- The partner of line `n` (R66). -/
def partner (n : Nat) : Nat := if n % 2 = 0 then n + 1 else n - 1

end Sys2Proof.Machine
end

