-- ==== Sys2Proof/Machine/RegTable.lean ====
section
/-! DEFINITION. The fields of every register page, one definition each (offset, lowest bit,
width and reset value), transcribed from the register tables of the spec, and the rows by which
whole 32-bit words are read and written. The rule of each page's table stands over its fields. -/

namespace Sys2Proof.Machine

namespace F

/-! THERM page: R31 -/
def THERM_TEMP_MEAN : Fld := ⟨0x400, 0, 16, 0⟩
def THERM_TEMP_MAX : Fld := ⟨0x400, 16, 16, 0⟩
def THERM_VALID : Fld := ⟨0x404, 0, 16, 65535⟩
def THERM_SENSOR (i : Nat) : Fld := ⟨0x440 + 4 * i, 0, 16, 0⟩

/-! BRIDGE page: R35 -/
def BRIDGE_RETRAIN : Fld := ⟨0x040, 0, 1, 0⟩
def BRIDGE_REPLAY_LIMIT : Fld := ⟨0x040, 8, 8, 16⟩
def BRIDGE_READ_TIMEOUT : Fld := ⟨0x040, 16, 16, 50⟩
def BRIDGE_LINK_STATE : Fld := ⟨0x400, 0, 2, 0⟩
def BRIDGE_HELD_PEAK : Fld := ⟨0x400, 8, 8, 0⟩
def BRIDGE_UP_BYTES : Fld := ⟨0x408, 0, 64, 0⟩
def BRIDGE_DOWN_BYTES : Fld := ⟨0x410, 0, 64, 0⟩
def BRIDGE_REPLAY_COUNT : Fld := ⟨0x418, 0, 32, 0⟩
def BRIDGE_RETRAIN_COUNT : Fld := ⟨0x41C, 0, 32, 0⟩
def BRIDGE_DROP_FRAMES : Fld := ⟨0x420, 0, 32, 0⟩
def BRIDGE_READ_TIMEOUTS : Fld := ⟨0x424, 0, 32, 0⟩

/-! CAT page: R51 -/
def CAT_INDEX : Fld := ⟨0x040, 0, 10, 0⟩
def CAT_COUNT : Fld := ⟨0x400, 0, 16, 579⟩

/-! PKG page: R57, R58, R253, R456 -/
def PKG_VMAP_VECTOR (s : Nat) : Fld := ⟨0xC00 + 4 * s, 0, 6, s⟩
def PKG_VMAP_EN (s : Nat) : Fld := ⟨0xC00 + 4 * s, 7, 1, 0⟩
def PKG_STK_REQ : Fld := ⟨0x040, 0, 1, 0⟩
def PKG_STK_SYSTEM : Fld := ⟨0x040, 1, 1, 0⟩
def PKG_STK_RING_OUT : Fld := ⟨0x040, 2, 1, 0⟩
def PKG_LAST_EPOCH : Fld := ⟨0x400, 0, 16, 0⟩
def PKG_STK_PENDING : Fld := ⟨0x400, 16, 1, 0⟩
def PKG_LAST_SYSTEM : Fld := ⟨0x400, 17, 1, 0⟩
def PKG_PARTIAL : Fld := ⟨0x400, 18, 1, 0⟩
def PKG_SYS_FAILED : Fld := ⟨0x400, 19, 1, 0⟩
def PKG_ANSWERED : Fld := ⟨0x400, 24, 4, 0⟩
def PKG_STK_TAI_S : Fld := ⟨0x404, 0, 32, 0⟩
def PKG_STK_NS : Fld := ⟨0x408, 0, 32, 0⟩
def PKG_STK_MERGED : Fld := ⟨0x40C, 0, 32, 0⟩
def PKG_BAD_ACCESS : Fld := ⟨0x4E0, 0, 32, 0⟩
def PKG_FENCE_ACCESS : Fld := ⟨0x4E4, 0, 32, 0⟩
def PKG_USER_P (w : Nat) : Fld := ⟨0x070 + 4 * w, 0, 32, 0⟩
def PKG_USER_DETAIL : Fld := ⟨0x08C, 0, 16, 0⟩
def PKG_USER_GO : Fld := ⟨0x08C, 31, 1, 0⟩
def PKG_NEXT_ACC : Fld := ⟨0x500, 0, 64, 0⟩
def PKG_RSV_END : Fld := ⟨0x508, 0, 64, 0⟩
def PKG_ENTRIES : Fld := ⟨0x510, 0, 32, 0⟩
def PKG_LEDGER_LOST : Fld := ⟨0x514, 0, 32, 0⟩
def PKG_BUF_LEVEL : Fld := ⟨0x518, 0, 13, 0⟩
def PKG_RESEEDS : Fld := ⟨0x51C, 0, 32, 0⟩
def PKG_KEY : Fld := ⟨0x0A0, 0, 16, 0⟩
def PKG_WARM_RESET : Fld := ⟨0x0A0, 16, 1, 0⟩
def PKG_SHUTDOWN : Fld := ⟨0x0A0, 17, 1, 0⟩
def PKG_LC_ADVANCE : Fld := ⟨0x0A0, 18, 1, 0⟩
def PKG_LINE_RESET : Fld := ⟨0x0A4, 0, 12, 0⟩
def PKG_LR_KEY : Fld := ⟨0x0A4, 16, 16, 0⟩
def PKG_WDOG_MS : Fld := ⟨0x0A8, 0, 16, 1000⟩
def PKG_WDOG_EN : Fld := ⟨0x0A8, 16, 1, 1⟩
def PKG_WDOG_LIMIT : Fld := ⟨0x0A8, 20, 4, 3⟩
def PKG_WDOG_KICK : Fld := ⟨0x0AC, 0, 32, 0⟩
def PKG_LINE_AUTO_S : Fld := ⟨0x0B0, 0, 16, 0⟩
def PKG_LC_TARGET : Fld := ⟨0x0B4, 0, 2, 0⟩
def PKG_CERT_ADDR : Fld := ⟨0x0B8, 0, 32, 0⟩
def PKG_OFF_ALARM_S : Fld := ⟨0x0BC, 0, 32, 0⟩
def PKG_RESET_CAUSE : Fld := ⟨0x520, 0, 3, 0⟩
def PKG_LC_STATE : Fld := ⟨0x520, 4, 2, 0⟩
def PKG_BOOT_STAGE : Fld := ⟨0x520, 8, 4, 0⟩
def PKG_BOOT_SLOT : Fld := ⟨0x520, 12, 1, 0⟩
def PKG_TRIP_SEEN : Fld := ⟨0x520, 13, 1, 0⟩
def PKG_UNCLEAN : Fld := ⟨0x520, 14, 1, 0⟩
def PKG_LC_ERR : Fld := ⟨0x520, 15, 1, 0⟩
def PKG_LINE_RESET_ERR : Fld := ⟨0x520, 16, 1, 0⟩
def PKG_BOOT_MS : Fld := ⟨0x524, 0, 32, 0⟩
def PKG_PKG_ID : Fld := ⟨0x528, 0, 64, 0⟩
def PKG_PKG_INDEX : Fld := ⟨0x530, 0, 3, 0⟩
def PKG_WDOG_EXPIRIES : Fld := ⟨0x534, 0, 32, 0⟩
def PKG_MGMT_RESETS : Fld := ⟨0x538, 0, 32, 0⟩
def PKG_LINE_RESETS : Fld := ⟨0x53C, 0, 32, 0⟩
def PKG_TESTED : Fld := ⟨0x540, 0, 17, 0⟩
def PKG_LINE_FAILED : Fld := ⟨0x544, 0, 12, 0⟩
def PKG_VEC_REARM : Fld := ⟨0x050, 0, 64, 0⟩

/-! LINE page: R89 -/
def LINE_RUN : Fld := ⟨0x040, 0, 1, 0⟩
def LINE_TIMING : Fld := ⟨0x040, 1, 1, 1⟩
def LINE_FINE : Fld := ⟨0x040, 2, 1, 0⟩
def LINE_MODE : Fld := ⟨0x040, 3, 1, 0⟩
def LINE_SLOTS : Fld := ⟨0x040, 8, 4, 1⟩
def LINE_PLAN_CYCLE : Fld := ⟨0x040, 16, 5, 10⟩
def LINE_PERIOD : Fld := ⟨0x044, 0, 20, 100000⟩
def LINE_GRID_PHASE : Fld := ⟨0x048, 0, 20, 0⟩
def LINE_RANGE : Fld := ⟨0x04C, 0, 17, 50000⟩
def LINE_GROUP_INDEX : Fld := ⟨0x050, 0, 32, 394116936⟩
def LINE_PAUSE : Fld := ⟨0x054, 0, 1, 0⟩
def LINE_FREQ (s : Nat) : Fld := ⟨0x060 + 4 * s, 0, 20, 0⟩
def LINE_RATE (s : Nat) : Fld := ⟨0x060 + 4 * s, 24, 2, 2⟩
def LINE_REASON : Fld := ⟨0x400, 0, 8, 0⟩
def LINE_CHECK_SLOT : Fld := ⟨0x400, 8, 3, 0⟩
def LINE_CHECK_PAGE : Fld := ⟨0x400, 16, 6, 0⟩
def LINE_PLAN_ID : Fld := ⟨0x404, 0, 32, 0⟩
def LINE_SHOT_NO : Fld := ⟨0x408, 0, 64, 0⟩
def LINE_NEXT_PB_S : Fld := ⟨0x410, 0, 32, 0⟩
def LINE_NEXT_PB_NS : Fld := ⟨0x414, 0, 32, 0⟩
def LINE_NEXT_L0_S : Fld := ⟨0x418, 0, 32, 0⟩
def LINE_NEXT_L0_NS : Fld := ⟨0x41C, 0, 32, 0⟩
def LINE_COMMITS : Fld := ⟨0x420, 0, 32, 0⟩
def LINE_LATE_COMMITS : Fld := ⟨0x424, 0, 32, 0⟩
def LINE_PLAN_REJECTS : Fld := ⟨0x428, 0, 32, 0⟩
def LINE_PLAN_CHANGES : Fld := ⟨0x42C, 0, 32, 0⟩
def LINE_SYNC_LOSSES : Fld := ⟨0x430, 0, 32, 0⟩
def LINE_SHOTS : Fld := ⟨0x434, 0, 64, 0⟩
def LINE_SKIPPED : Fld := ⟨0x43C, 0, 32, 0⟩
def LINE_CANCELS : Fld := ⟨0x440, 0, 32, 0⟩
def LINE_COMMIT_SHOT : Fld := ⟨0x008, 8, 1, 0⟩
def LINE_CANCEL : Fld := ⟨0x008, 9, 1, 0⟩
def LINE_SYNC_LOST : Fld := ⟨0x00C, 8, 1, 0⟩
def LINE_ST_FINE : Fld := ⟨0x00C, 9, 1, 0⟩
def LINE_DEGRADED : Fld := ⟨0x00C, 10, 1, 0⟩
def LINE_PLAN_PENDING : Fld := ⟨0x00C, 11, 1, 0⟩
def LINE_SHOT_PENDING : Fld := ⟨0x00C, 12, 1, 0⟩
def LINE_TIMELINE : Fld := ⟨0x00C, 13, 1, 0⟩
def LINE_IN_GAP : Fld := ⟨0x00C, 14, 1, 0⟩
def LINE_PAUSE_REG : Fld := ⟨0x00C, 15, 1, 0⟩
def LINE_PAUSE_PACE : Fld := ⟨0x00C, 16, 1, 0⟩
def LINE_SAFE_COND : Fld := ⟨0x00C, 17, 1, 0⟩

/-! STARTER page: R110 -/
def STARTER_PROBE_OPEN : Fld := ⟨0x00C, 8, 1, 0⟩
def STARTER_PROBE_LOSS : Fld := ⟨0x00C, 9, 1, 0⟩
def STARTER_BREAK_RUN : Fld := ⟨0x00C, 10, 1, 0⟩
def STARTER_DERATING : Fld := ⟨0x00C, 11, 1, 0⟩
def STARTER_LAST_UNDECIDED : Fld := ⟨0x00C, 12, 1, 0⟩
def STARTER_END_VALID : Fld := ⟨0x00C, 13, 1, 0⟩
def STARTER_SRC_INVALID : Fld := ⟨0x00C, 14, 1, 0⟩
def STARTER_PGATE_POL : Fld := ⟨0x040, 0, 1, 0⟩
def STARTER_TGATE_POL : Fld := ⟨0x040, 1, 1, 0⟩
def STARTER_TGATE_EN : Fld := ⟨0x040, 2, 1, 0⟩
def STARTER_LEVEL : Fld := ⟨0x044, 0, 12, 0⟩
def STARTER_LEAD : Fld := ⟨0x048, 0, 8, 0⟩
def STARTER_TAIL : Fld := ⟨0x048, 8, 8, 0⟩
def STARTER_OFFSET : Fld := ⟨0x048, 16, 12, 0⟩
def STARTER_TG_OFFSET : Fld := ⟨0x04C, 0, 16, 0⟩
def STARTER_TG_WIDTH : Fld := ⟨0x04C, 16, 8, 20⟩
def STARTER_DURATION (s : Nat) : Fld := ⟨0x060 + 8 * s, 0, 16, 200⟩
def STARTER_SHAPE (s : Nat) : Fld := ⟨0x060 + 8 * s, 16, 2, 0⟩
def STARTER_CHIRP_BW (s : Nat) : Fld := ⟨0x064 + 8 * s, 0, 20, 0⟩
def STARTER_AMP (s : Nat) : Fld := ⟨0x064 + 8 * s, 20, 12, 0⟩
def STARTER_CONFIRM : Fld := ⟨0x0A0, 0, 4, 3⟩
def STARTER_OPEN_FRAC : Fld := ⟨0x0A0, 8, 8, 128⟩
def STARTER_DIAG_EN : Fld := ⟨0x0A0, 16, 1, 1⟩
def STARTER_Q_EXP : Fld := ⟨0x0A4, 0, 16, 0⟩
def STARTER_LOSS_FLOOR : Fld := ⟨0x0A8, 0, 8, 200⟩
def STARTER_LOSS_DELAY : Fld := ⟨0x0A8, 8, 16, 1000⟩
def STARTER_LOSS_SAFE : Fld := ⟨0x0A8, 24, 1, 1⟩
def STARTER_BREAK_MIN : Fld := ⟨0x0AC, 0, 16, 50⟩
def STARTER_END_FLOOR : Fld := ⟨0x0AC, 16, 8, 180⟩
def STARTER_END_LEARN : Fld := ⟨0x0AC, 24, 1, 1⟩
def STARTER_END_REF : Fld := ⟨0x0B0, 0, 17, 0⟩
def STARTER_SAFE_LEVEL : Fld := ⟨0x0B4, 0, 12, 256⟩
def STARTER_SAFE_HOLD : Fld := ⟨0x0B4, 16, 1, 0⟩
def STARTER_TEMP_SRC : Fld := ⟨0x0B8, 0, 3, 0⟩
def STARTER_DERATE_EN : Fld := ⟨0x0B8, 3, 1, 0⟩
def STARTER_DERATE_MIN : Fld := ⟨0x0B8, 16, 12, 0⟩
def STARTER_DERATE_T : Fld := ⟨0x0BC, 0, 16, 7680⟩
def STARTER_DERATE_SLOPE : Fld := ⟨0x0BC, 16, 12, 256⟩
def STARTER_SPLIT_SRC : Fld := ⟨0x0C0, 0, 2, 1⟩
def STARTER_LMON_TH : Fld := ⟨0x0C0, 8, 8, 100⟩
def STARTER_LEVEL_OUT : Fld := ⟨0x400, 0, 12, 0⟩
def STARTER_LEVEL_LIMIT : Fld := ⟨0x400, 16, 12, 4095⟩
def STARTER_LAST_Q : Fld := ⟨0x404, 0, 16, 0⟩
def STARTER_LAST_VERDICT : Fld := ⟨0x404, 16, 2, 0⟩
def STARTER_FAIL_RUN : Fld := ⟨0x404, 18, 4, 0⟩
def STARTER_END_NOW : Fld := ⟨0x408, 0, 17, 0⟩
def STARTER_END_REF_USED : Fld := ⟨0x40C, 0, 17, 0⟩
def STARTER_RETURN_P : Fld := ⟨0x410, 0, 8, 0⟩
def STARTER_DIM_RUN : Fld := ⟨0x410, 8, 5, 0⟩
def STARTER_SPLIT_MEAN : Fld := ⟨0x414, 0, 32, 0⟩
def STARTER_SPLIT_SD : Fld := ⟨0x418, 0, 32, 0⟩
def STARTER_SPLIT_USED : Fld := ⟨0x41C, 0, 32, 0⟩
def STARTER_VERDICTS_OK : Fld := ⟨0x420, 0, 32, 0⟩
def STARTER_VERDICTS_FAIL : Fld := ⟨0x424, 0, 32, 0⟩
def STARTER_VERDICTS_UNDECIDED : Fld := ⟨0x428, 0, 32, 0⟩
def STARTER_DIAG_RESTARTS : Fld := ⟨0x42C, 0, 32, 0⟩
def STARTER_PROBE_OPENS : Fld := ⟨0x430, 0, 32, 0⟩
def STARTER_LOSS_ENTRIES : Fld := ⟨0x434, 0, 32, 0⟩
def STARTER_SAFE_ENTRIES : Fld := ⟨0x438, 0, 32, 0⟩
def STARTER_DAC_CLIPS : Fld := ⟨0x43C, 0, 32, 0⟩
def STARTER_DERATE_ENTRIES : Fld := ⟨0x440, 0, 32, 0⟩
def STARTER_PULSES : Fld := ⟨0x444, 0, 64, 0⟩

/-! RX page: R129 -/
def RX_SPARE_READY : Fld := ⟨0x00C, 8, 1, 1⟩
def RX_SPARE_IN_USE : Fld := ⟨0x00C, 9, 1, 0⟩
def RX_POL_X_LOST : Fld := ⟨0x00C, 10, 1, 0⟩
def RX_POL_Y_LOST : Fld := ⟨0x00C, 11, 1, 0⟩
def RX_GAIN : Fld := ⟨0x040, 0, 6, 0⟩
def RX_GREF : Fld := ⟨0x040, 8, 6, 0⟩
def RX_AR_EN : Fld := ⟨0x044, 0, 1, 1⟩
def RX_AR_MAXDEPTH : Fld := ⟨0x044, 1, 3, 5⟩
def RX_AR_HOLD : Fld := ⟨0x044, 16, 16, 1563⟩
def RX_SCHED_EN : Fld := ⟨0x048, 0, 1, 0⟩
def RX_SCHED_COUNT : Fld := ⟨0x048, 8, 5, 0⟩
def RX_FAIL_CORE : Fld := ⟨0x04C, 0, 3, 0⟩
def RX_REQUAL : Fld := ⟨0x04C, 4, 1, 0⟩
def RX_STUCK_FAIL : Fld := ⟨0x04C, 8, 1, 1⟩
def RX_STAT_LEN : Fld := ⟨0x050, 0, 5, 16⟩
def RX_OFFSET (k : Nat) : Fld := ⟨0x0C0 + 4 * k, 0, 23, 0⟩
def RX_CODE (k : Nat) : Fld := ⟨0x0C0 + 4 * k, 24, 6, 0⟩
def RX_GAIN_NOW : Fld := ⟨0x400, 0, 6, 0⟩
def RX_AR_DEPTH : Fld := ⟨0x400, 8, 3, 0⟩
def RX_GAIN_DLY : Fld := ⟨0x400, 16, 4, 2⟩
def RX_CORE_XI : Fld := ⟨0x404, 0, 3, 0⟩
def RX_CORE_XQ : Fld := ⟨0x404, 4, 3, 1⟩
def RX_CORE_YI : Fld := ⟨0x404, 8, 3, 2⟩
def RX_CORE_YQ : Fld := ⟨0x404, 12, 3, 3⟩
def RX_CORE_SPARE : Fld := ⟨0x404, 16, 3, 4⟩
def RX_FAILED : Fld := ⟨0x404, 24, 5, 0⟩
def RX_STEPS_SCHED : Fld := ⟨0x410, 0, 32, 0⟩
def RX_STEPS_AR_DOWN : Fld := ⟨0x414, 0, 32, 0⟩
def RX_STEPS_AR_UP : Fld := ⟨0x418, 0, 32, 0⟩
def RX_SLIPS : Fld := ⟨0x41C, 0, 32, 0⟩
def RX_FLOOR_HITS : Fld := ⟨0x420, 0, 32, 0⟩
def RX_SUBSTITUTIONS : Fld := ⟨0x424, 0, 32, 0⟩
def RX_STUCK_WINDOWS : Fld := ⟨0x428, 0, 32, 0⟩
def RX_REQUAL_PASS : Fld := ⟨0x42C, 0, 32, 0⟩
def RX_REQUAL_FAIL : Fld := ⟨0x430, 0, 32, 0⟩
def RX_MEAN (c : Nat) : Fld := ⟨0x440 + 16 * c, 0, 24, 0⟩
def RX_MIN (c : Nat) : Fld := ⟨0x444 + 16 * c, 0, 16, 0⟩
def RX_MAX (c : Nat) : Fld := ⟨0x444 + 16 * c, 16, 16, 0⟩
def RX_OVR (c : Nat) : Fld := ⟨0x448 + 16 * c, 0, 32, 0⟩
def RX_WIN_SEQ (c : Nat) : Fld := ⟨0x44C + 16 * c, 0, 32, 0⟩

/-! THRX page: R131 -/
def THRX_TEST_I : Fld := ⟨0x040, 0, 2, 0⟩
def THRX_STAT_LEN : Fld := ⟨0x044, 0, 5, 16⟩
def THRX_MEAN (c : Nat) : Fld := ⟨0x440 + 16 * c, 0, 24, 0⟩
def THRX_MIN (c : Nat) : Fld := ⟨0x444 + 16 * c, 0, 16, 0⟩
def THRX_MAX (c : Nat) : Fld := ⟨0x444 + 16 * c, 16, 16, 0⟩
def THRX_OVR (c : Nat) : Fld := ⟨0x448 + 16 * c, 0, 32, 0⟩
def THRX_WIN_SEQ (c : Nat) : Fld := ⟨0x44C + 16 * c, 0, 32, 0⟩

/-! SLOT page: R152 -/
def SLOT_LIVE_BANK : Fld := ⟨0x00C, 8, 1, 0⟩
def SLOT_SEALED0 : Fld := ⟨0x00C, 9, 1, 0⟩
def SLOT_SEALED1 : Fld := ⟨0x00C, 10, 1, 0⟩
def SLOT_RUNNING0 : Fld := ⟨0x00C, 11, 1, 0⟩
def SLOT_RUNNING1 : Fld := ⟨0x00C, 12, 1, 0⟩
def SLOT_TAPS : Fld := ⟨0x040, 0, 11, 128⟩
def SLOT_BANK : Fld := ⟨0x040, 12, 1, 0⟩
def SLOT_SHIFT : Fld := ⟨0x040, 16, 5, 20⟩
def SLOT_POL_MODE : Fld := ⟨0x044, 0, 2, 0⟩
def SLOT_POL_K : Fld := ⟨0x044, 4, 4, 4⟩
def SLOT_WBANK : Fld := ⟨0x048, 0, 1, 0⟩
def SLOT_SEAL : Fld := ⟨0x048, 8, 1, 0⟩
def SLOT_NCO_WORD : Fld := ⟨0x400, 0, 32, 0⟩
def SLOT_BINS : Fld := ⟨0x404, 0, 19, 0⟩
def SLOT_TAP_LIMIT : Fld := ⟨0x408, 0, 11, 256⟩
def SLOT_LAUNCHES : Fld := ⟨0x40C, 0, 64, 0⟩
def SLOT_SKIPS : Fld := ⟨0x414, 0, 32, 0⟩
def SLOT_BINS_OUT : Fld := ⟨0x418, 0, 64, 0⟩
def SLOT_BINS_UNSETTLED : Fld := ⟨0x420, 0, 64, 0⟩
def SLOT_ACC_SATS : Fld := ⟨0x428, 0, 32, 0⟩
def SLOT_OUT_SATS : Fld := ⟨0x42C, 0, 32, 0⟩
def SLOT_TAIL_BINS : Fld := ⟨0x430, 0, 32, 0⟩
def SLOT_COEF_REFUSED : Fld := ⟨0x434, 0, 32, 0⟩
def SLOT_CLEARS : Fld := ⟨0x438, 0, 32, 0⟩

/-! GAUGE page: R180 -/
def GAUGE_G : Fld := ⟨0x040, 0, 8, 10⟩
def GAUGE_MERGE_K : Fld := ⟨0x040, 16, 4, 6⟩
def GAUGE_POSITIONS : Fld := ⟨0x400, 0, 19, 0⟩
def GAUGE_MERGED : Fld := ⟨0x404, 0, 64, 0⟩
def GAUGE_RESYNCS : Fld := ⟨0x40C, 0, 32, 0⟩
def GAUGE_SKIPPED_SAMPLES : Fld := ⟨0x410, 0, 32, 0⟩
def GAUGE_CLEARS : Fld := ⟨0x414, 0, 32, 0⟩
def GAUGE_NULL_SUMS : Fld := ⟨0x418, 0, 32, 0⟩

/-! RESAMP page: R181 -/
def RESAMP_STEP : Fld := ⟨0x040, 0, 32, 65536⟩
def RESAMP_ORIGIN : Fld := ⟨0x044, 0, 32, 0⟩
def RESAMP_SPACING : Fld := ⟨0x048, 0, 17, 1024⟩
def RESAMP_CHANNELS : Fld := ⟨0x04C, 0, 17, 1000⟩
def RESAMP_FIBRE_START : Fld := ⟨0x050, 0, 24, 0⟩
def RESAMP_LAUNCH_TRIM : Fld := ⟨0x054, 0, 24, 0⟩
def RESAMP_FIRST_SETTLED : Fld := ⟨0x400, 0, 17, 0⟩
def RESAMP_LAST_SETTLED : Fld := ⟨0x404, 0, 17, 0⟩
def RESAMP_I_OUT : Fld := ⟨0x408, 0, 48, 0⟩
def RESAMP_TAU0 : Fld := ⟨0x410, 0, 32, 0⟩
def RESAMP_A_DIV : Fld := ⟨0x414, 0, 16, 0⟩
def RESAMP_OUT_SATS : Fld := ⟨0x418, 0, 32, 0⟩

/-! FRAME page: R182 -/
def FRAME_KIND : Fld := ⟨0x040, 0, 1, 0⟩
def FRAME_PSCALE : Fld := ⟨0x040, 4, 4, 8⟩
def FRAME_Q_CODE : Fld := ⟨0x040, 8, 2, 0⟩
def FRAME_Q_EN : Fld := ⟨0x040, 12, 1, 1⟩
def FRAME_A_EN : Fld := ⟨0x040, 13, 1, 0⟩
def FRAME_M_EN : Fld := ⟨0x040, 14, 1, 0⟩
def FRAME_Q_BASE : Fld := ⟨0x044, 0, 16, 0⟩
def FRAME_FREEZE_N : Fld := ⟨0x048, 0, 8, 16⟩
def FRAME_FREEZE_EN : Fld := ⟨0x048, 8, 1, 1⟩
def FRAME_WAVELENGTH : Fld := ⟨0x04C, 0, 21, 1550000⟩
def FRAME_XI : Fld := ⟨0x050, 0, 16, 51118⟩
def FRAME_FRAME_NO : Fld := ⟨0x400, 0, 64, 0⟩
def FRAME_FRAMES : Fld := ⟨0x408, 0, 64, 0⟩
def FRAME_LAST_CRC : Fld := ⟨0x410, 0, 32, 0⟩
def FRAME_FRZ_BLOCKS : Fld := ⟨0x414, 0, 16, 0⟩
def FRAME_STRAIN_LSB : Fld := ⟨0x418, 0, 32, 0⟩
def FRAME_DROPPED : Fld := ⟨0x41C, 0, 32, 0⟩
def FRAME_FROZEN_FRAMES : Fld := ⟨0x420, 0, 32, 0⟩
def FRAME_GAP_FRAMES : Fld := ⟨0x424, 0, 32, 0⟩
def FRAME_UNSETTLED_FRAMES : Fld := ⟨0x428, 0, 32, 0⟩
def FRAME_PLAN_CHANGE_FRAMES : Fld := ⟨0x42C, 0, 32, 0⟩

/-! STACK page: R206 -/
def STACK_EN : Fld := ⟨0x040, 0, 1, 0⟩
def STACK_PRE_J : Fld := ⟨0x040, 4, 4, 0⟩
def STACK_SHIFT : Fld := ⟨0x040, 8, 4, 0⟩
def STACK_STACK_K : Fld := ⟨0x040, 16, 5, 16⟩
def STACK_SOLVE : Fld := ⟨0x040, 24, 1, 0⟩
def STACK_START : Fld := ⟨0x044, 0, 11, 0⟩
def STACK_BINS : Fld := ⟨0x048, 0, 17, 1024⟩
def STACK_BG_BINS : Fld := ⟨0x048, 24, 8, 0⟩
def STACK_FIBRE_START_T : Fld := ⟨0x04C, 0, 24, 0⟩
def STACK_OVEN_FIRST : Fld := ⟨0x050, 0, 16, 0⟩
def STACK_OVEN_LAST : Fld := ⟨0x050, 16, 16, 0⟩
def STACK_AMB_FIRST : Fld := ⟨0x054, 0, 16, 0⟩
def STACK_AMB_LAST : Fld := ⟨0x054, 16, 16, 0⟩
def STACK_OVEN_SRC : Fld := ⟨0x058, 0, 3, 0⟩
def STACK_AMB_SRC : Fld := ⟨0x058, 4, 3, 1⟩
def STACK_GAMMA : Fld := ⟨0x05C, 0, 32, 41484288⟩
def STACK_LNC_SEED : Fld := ⟨0x060, 0, 32, 0⟩
def STACK_DALPHA_SEED : Fld := ⟨0x064, 0, 32, 0⟩
def STACK_SEED : Fld := ⟨0x068, 0, 1, 0⟩
def STACK_ALM_RESTORE : Fld := ⟨0x068, 1, 1, 1⟩
def STACK_SPREAD_MAX : Fld := ⟨0x06C, 0, 8, 50⟩
def STACK_CHECK_MAX : Fld := ⟨0x06C, 8, 8, 100⟩
def STACK_MIN_FILL : Fld := ⟨0x06C, 16, 8, 128⟩
def STACK_DLNC_MAX : Fld := ⟨0x070, 0, 32, 167772⟩
def STACK_DDA_MAX : Fld := ⟨0x074, 0, 32, 1099512⟩
def STACK_RISE_TH : Fld := ⟨0x078, 0, 16, 500⟩
def STACK_TAU : Fld := ⟨0x080, 0, 12, 600⟩
def STACK_K_T : Fld := ⟨0x084, 0, 32, 0⟩
def STACK_SUSPECT_K : Fld := ⟨0x088, 0, 16, 50⟩
def STACK_DREF_FIRST : Fld := ⟨0x08C, 0, 16, 0⟩
def STACK_DREF_LAST : Fld := ⟨0x08C, 16, 16, 0⟩
def STACK_DREF_EN : Fld := ⟨0x090, 0, 1, 0⟩
def STACK_T_EN : Fld := ⟨0x094, 0, 1, 1⟩
def STACK_R_EN : Fld := ⟨0x094, 1, 1, 0⟩
def STACK_X_EN : Fld := ⟨0x094, 2, 1, 0⟩
def STACK_M_EN : Fld := ⟨0x094, 3, 1, 0⟩
def STACK_S_EN : Fld := ⟨0x094, 4, 1, 0⟩
def STACK_RD_BASE : Fld := ⟨0x098, 0, 17, 0⟩
def STACK_STACK_NO : Fld := ⟨0x400, 0, 64, 0⟩
def STACK_COUNTED : Fld := ⟨0x408, 0, 32, 0⟩
def STACK_CONST_STATE : Fld := ⟨0x40C, 0, 2, 0⟩
def STACK_LAST_REASON : Fld := ⟨0x40C, 4, 4, 0⟩
def STACK_REJECT_RUN : Fld := ⟨0x40C, 8, 4, 0⟩
def STACK_LNC_LIVE : Fld := ⟨0x410, 0, 32, 0⟩
def STACK_DALPHA_LIVE : Fld := ⟨0x414, 0, 32, 0⟩
def STACK_OVEN_T : Fld := ⟨0x418, 0, 16, 0⟩
def STACK_AMB_T : Fld := ⟨0x418, 16, 16, 0⟩
def STACK_MISSED_SHOTS : Fld := ⟨0x41C, 0, 32, 0⟩
def STACK_STALE_SHOTS : Fld := ⟨0x420, 0, 32, 0⟩
def STACK_VSATS : Fld := ⟨0x424, 0, 32, 0⟩
def STACK_NO_VALUE_BINS : Fld := ⟨0x428, 0, 32, 0⟩
def STACK_ACCEPTS : Fld := ⟨0x42C, 0, 32, 0⟩
def STACK_REJECTS : Fld := ⟨0x430, 0, 32, 0⟩
def STACK_SUSPECT_CHANNELS : Fld := ⟨0x434, 0, 32, 0⟩
def STACK_RISE_BINS : Fld := ⟨0x438, 0, 32, 0⟩
def STACK_FIRST_RISE : Fld := ⟨0x43C, 0, 17, 0⟩
def STACK_CONST_DEGRADED : Fld := ⟨0x00C, 8, 1, 0⟩
def STACK_SUSPECT_ANY : Fld := ⟨0x00C, 9, 1, 0⟩

/-! STRIDECL page: R235 -/
def STRIDECL_POINT_REQ (k : Nat) : Fld := ⟨0x040 + 4 * k, 0, 2, 3⟩
def STRIDECL_CLASS (k : Nat) : Fld := ⟨0x040 + 4 * k, 4, 2, 1⟩
def STRIDECL_FEAT_MAX : Fld := ⟨0x050, 0, 13, 0⟩
def STRIDECL_FEAT_WAIT : Fld := ⟨0x050, 16, 8, 10⟩
def STRIDECL_POINT_NOW : Fld := ⟨0x400, 0, 8, 255⟩
def STRIDECL_FEAT_FRAMES : Fld := ⟨0x404, 0, 64, 0⟩
def STRIDECL_FEAT_DROPPED : Fld := ⟨0x40C, 0, 32, 0⟩
def STRIDECL_FEAT_LATE : Fld := ⟨0x410, 0, 32, 0⟩
def STRIDECL_BUS_WORDS : Fld := ⟨0x414, 0, 64, 0⟩

/-! STRIDE page: R236 -/
def STRIDE_KADDR : Fld := ⟨0x040, 0, 40, 0⟩
def STRIDE_MAILBOX_IN : Fld := ⟨0x048, 0, 32, 0⟩
def STRIDE_WIN_KB : Fld := ⟨0x04C, 0, 6, 0⟩
def STRIDE_TIMER_RELOAD : Fld := ⟨0x050, 0, 32, 0⟩
def STRIDE_EN (n : Nat) : Fld := ⟨0x060 + 8 * n, 0, 1, 0⟩
def STRIDE_SRC (n : Nat) : Fld := ⟨0x060 + 8 * n, 1, 2, 0⟩
def STRIDE_DEC (n : Nat) : Fld := ⟨0x060 + 8 * n, 8, 8, 1⟩
def STRIDE_TH (n : Nat) : Fld := ⟨0x060 + 8 * n, 16, 12, 1024⟩
def STRIDE_FIRST (n : Nat) : Fld := ⟨0x064 + 8 * n, 0, 16, 0⟩
def STRIDE_LAST (n : Nat) : Fld := ⟨0x064 + 8 * n, 16, 16, 0⟩
def STRIDE_PC : Fld := ⟨0x400, 0, 12, 0⟩
def STRIDE_FAULT_PC : Fld := ⟨0x404, 0, 12, 0⟩
def STRIDE_CAUSE : Fld := ⟨0x404, 16, 3, 0⟩
def STRIDE_CYCLES : Fld := ⟨0x408, 0, 64, 0⟩
def STRIDE_STALL_CYCLES : Fld := ⟨0x410, 0, 32, 0⟩
def STRIDE_INTERRUPTS : Fld := ⟨0x414, 0, 32, 0⟩
def STRIDE_IRQ_LAT_MAX : Fld := ⟨0x418, 0, 32, 0⟩
def STRIDE_WIN_STALLS : Fld := ⟨0x41C, 0, 32, 0⟩
def STRIDE_IN_OVERRUNS (n : Nat) : Fld := ⟨0x420 + 4 * n, 0, 32, 0⟩
def STRIDE_IN_LEVEL (n : Nat) : Fld := ⟨0x430 + 4 * n, 0, 13, 0⟩
def STRIDE_OUT_WORDS0 : Fld := ⟨0x440, 0, 32, 0⟩
def STRIDE_OUT_WORDS1 : Fld := ⟨0x444, 0, 32, 0⟩
def STRIDE_MAILBOX_OUT : Fld := ⟨0x448, 0, 32, 0⟩
def STRIDE_MAIL_OVERWRITES : Fld := ⟨0x44C, 0, 32, 0⟩
def STRIDE_LOADS : Fld := ⟨0x450, 0, 32, 0⟩
def STRIDE_LOAD_ERRORS : Fld := ⟨0x454, 0, 32, 0⟩
def STRIDE_START : Fld := ⟨0x008, 8, 1, 0⟩
def STRIDE_STOP : Fld := ⟨0x008, 9, 1, 0⟩
def STRIDE_DOORBELL : Fld := ⟨0x008, 10, 1, 0⟩
def STRIDE_IN_ISR : Fld := ⟨0x00C, 8, 1, 0⟩
def STRIDE_RESTART : Fld := ⟨0x00C, 9, 1, 0⟩

/-! HURDLE page: R254 -/
def HURDLE_START_STATE (h : Nat) : Fld := ⟨0x040 + 4 * h, 0, 4, 0⟩
def HURDLE_EN (h : Nat) : Fld := ⟨0x040 + 4 * h, 4, 1, 0⟩
def HURDLE_PRE (h : Nat) : Fld := ⟨0x048 + 8 * h, 0, 16, 0⟩
def HURDLE_POST (h : Nat) : Fld := ⟨0x048 + 8 * h, 16, 16, 0⟩
def HURDLE_MAX_DUR (h : Nat) : Fld := ⟨0x04C + 8 * h, 0, 24, 16777215⟩
def HURDLE_REC_DET (h : Nat) : Fld := ⟨0x04C + 8 * h, 24, 3, 0⟩
def HURDLE_CAP_EN (h : Nat) : Fld := ⟨0x04C + 8 * h, 27, 1, 0⟩
def HURDLE_PIN_EN (h : Nat) : Fld := ⟨0x04C + 8 * h, 28, 1, 0⟩
def HURDLE_CMP0 (h : Nat) : Fld := ⟨0x060 + 8 * h, 0, 16, 0⟩
def HURDLE_CMP1 (h : Nat) : Fld := ⟨0x060 + 8 * h, 16, 16, 0⟩
def HURDLE_CMP2 (h : Nat) : Fld := ⟨0x064 + 8 * h, 0, 16, 0⟩
def HURDLE_CMP3 (h : Nat) : Fld := ⟨0x064 + 8 * h, 16, 16, 0⟩
def HURDLE_TLOAD (h : Nat) (t : Nat) : Fld := ⟨0x070 + 16 * h + 4 * t, 0, 32, 0⟩
def HURDLE_GPIO_SEL : Fld := ⟨0x090, 0, 16, 0⟩
def HURDLE_GPIO_DELAY : Fld := ⟨0x094, 0, 32, 0⟩
def HURDLE_XS_PKG (x : Nat) : Fld := ⟨0x098 + 4 * x, 0, 3, 0⟩
def HURDLE_XS_SEQ (x : Nat) : Fld := ⟨0x098 + 4 * x, 3, 1, 0⟩
def HURDLE_XS_LINE (x : Nat) : Fld := ⟨0x098 + 4 * x, 4, 4, 0⟩
def HURDLE_XS_EN (x : Nat) : Fld := ⟨0x098 + 4 * x, 8, 1, 0⟩
def HURDLE_TOD_SEC : Fld := ⟨0x0A8, 0, 17, 0⟩
def HURDLE_TOD_OFFSET : Fld := ⟨0x0AC, 0, 16, 0⟩
def HURDLE_DET_FIRST (d : Nat) : Fld := ⟨0x100 + 16 * d, 0, 16, 0⟩
def HURDLE_DET_LAST (d : Nat) : Fld := ⟨0x100 + 16 * d, 16, 16, 0⟩
def HURDLE_DET_TH (d : Nat) : Fld := ⟨0x104 + 16 * d, 0, 16, 0⟩
def HURDLE_MIN_CH (d : Nat) : Fld := ⟨0x104 + 16 * d, 16, 16, 1⟩
def HURDLE_WIN_K (d : Nat) : Fld := ⟨0x108 + 16 * d, 0, 4, 6⟩
def HURDLE_MASK_U (d : Nat) : Fld := ⟨0x108 + 16 * d, 4, 1, 1⟩
def HURDLE_DET_EN (d : Nat) : Fld := ⟨0x108 + 16 * d, 5, 1, 0⟩
def HURDLE_CORE_MASK (f : Nat) : Fld := ⟨0x180 + 16 * f, 0, 16, 0⟩
def HURDLE_ID (f : Nat) : Fld := ⟨0x180 + 16 * f, 16, 8, 0⟩
def HURDLE_ID_MASK (f : Nat) : Fld := ⟨0x180 + 16 * f, 24, 8, 0⟩
def HURDLE_PORT (f : Nat) : Fld := ⟨0x184 + 16 * f, 0, 2, 2⟩
def HURDLE_FILT_CMP (f : Nat) : Fld := ⟨0x184 + 16 * f, 2, 1, 0⟩
def HURDLE_FILT_EN (f : Nat) : Fld := ⟨0x184 + 16 * f, 3, 1, 0⟩
def HURDLE_THRESH (f : Nat) : Fld := ⟨0x188 + 16 * f, 0, 32, 0⟩
def HURDLE_SEQ_STATE (h : Nat) : Fld := ⟨0x400 + 4 * h, 0, 4, 0⟩
def HURDLE_REC_OPEN (h : Nat) : Fld := ⟨0x400 + 4 * h, 4, 1, 0⟩
def HURDLE_SEQ_RUNNING (h : Nat) : Fld := ⟨0x400 + 4 * h, 5, 1, 0⟩
def HURDLE_CFG_ERR (h : Nat) : Fld := ⟨0x400 + 4 * h, 6, 1, 0⟩
def HURDLE_CNT0 (h : Nat) : Fld := ⟨0x408 + 8 * h, 0, 16, 0⟩
def HURDLE_CNT1 (h : Nat) : Fld := ⟨0x408 + 8 * h, 16, 16, 0⟩
def HURDLE_CNT2 (h : Nat) : Fld := ⟨0x40C + 8 * h, 0, 16, 0⟩
def HURDLE_CNT3 (h : Nat) : Fld := ⟨0x40C + 8 * h, 16, 16, 0⟩
def HURDLE_TREM (h : Nat) (t : Nat) : Fld := ⟨0x418 + 16 * h + 4 * t, 0, 32, 0⟩
def HURDLE_STEPS : Fld := ⟨0x438, 0, 64, 0⟩
def HURDLE_TRIGGERS : Fld := ⟨0x440, 0, 32, 0⟩
def HURDLE_RECORDS : Fld := ⟨0x444, 0, 32, 0⟩
def HURDLE_RETRIGGERS : Fld := ⟨0x448, 0, 32, 0⟩
def HURDLE_CAP_TRUNC : Fld := ⟨0x44C, 0, 32, 0⟩
def HURDLE_CAP_NONE : Fld := ⟨0x450, 0, 32, 0⟩
def HURDLE_FEAT_MATCHES : Fld := ⟨0x454, 0, 32, 0⟩
def HURDLE_TABLE_REFUSED : Fld := ⟨0x458, 0, 32, 0⟩
def HURDLE_OVER (d : Nat) : Fld := ⟨0x480 + 8 * d, 0, 17, 0⟩
def HURDLE_PEAK_CH (d : Nat) : Fld := ⟨0x484 + 8 * d, 0, 32, 0⟩
def HURDLE_ARC_W0 (h : Nat) (a : Nat) : Fld := ⟨0xC00 + 512 * h + 8 * a, 0, 32, 0⟩
def HURDLE_ARC_W1 (h : Nat) (a : Nat) : Fld := ⟨0xC04 + 512 * h + 8 * a, 0, 32, 0⟩

/-! CAL page: R272 -/
def CAL_CAL_DT : Fld := ⟨0x040, 0, 8, 24⟩
def CAL_MODE : Fld := ⟨0x040, 8, 1, 0⟩
def CAL_TEMP_EN : Fld := ⟨0x040, 9, 1, 1⟩
def CAL_TIMER_EN : Fld := ⟨0x040, 10, 1, 1⟩
def CAL_NATIVE_EVERY : Fld := ⟨0x040, 16, 4, 0⟩
def CAL_CAL_PERIOD : Fld := ⟨0x044, 0, 32, 86400⟩
def CAL_RETRY_S : Fld := ⟨0x048, 0, 16, 60⟩
def CAL_DEFER_S : Fld := ⟨0x048, 16, 16, 3600⟩
def CAL_T_REF : Fld := ⟨0x400, 0, 16, 0⟩
def CAL_LAST_PASS_S : Fld := ⟨0x404, 0, 32, 0⟩
def CAL_REJECT_RUN : Fld := ⟨0x408, 0, 4, 0⟩
def CAL_LAST_UNIT : Fld := ⟨0x408, 4, 4, 0⟩
def CAL_LAST_COEF : Fld := ⟨0x408, 8, 4, 0⟩
def CAL_LAST_STEP : Fld := ⟨0x408, 12, 1, 0⟩
def CAL_DURATION_MAX : Fld := ⟨0x40C, 0, 32, 0⟩
def CAL_PASSES : Fld := ⟨0x410, 0, 32, 0⟩
def CAL_PASSES_ACCEPTED : Fld := ⟨0x414, 0, 32, 0⟩
def CAL_PASSES_REJECTED : Fld := ⟨0x418, 0, 32, 0⟩
def CAL_UNIT_REJECTS : Fld := ⟨0x41C, 0, 32, 0⟩
def CAL_FORCED_PASSES : Fld := ⟨0x420, 0, 32, 0⟩
def CAL_FALLBACKS : Fld := ⟨0x424, 0, 32, 0⟩
def CAL_HANDOVERS : Fld := ⟨0x428, 0, 32, 0⟩
def CAL_ABANDONED : Fld := ⟨0x42C, 0, 32, 0⟩
def CAL_ALM_WRITE_FAILS : Fld := ⟨0x430, 0, 32, 0⟩
def CAL_OFS (c : Nat) : Fld := ⟨0x440 + 8 * c, 0, 16, 0⟩
def CAL_TRIM (c : Nat) : Fld := ⟨0x444 + 8 * c, 0, 20, 524288⟩
def CAL_SKEW (k : Nat) : Fld := ⟨0x470 + 4 * k, 0, 16, 0⟩
def CAL_QPH_X : Fld := ⟨0x480, 0, 16, 0⟩
def CAL_QPH_Y : Fld := ⟨0x480, 16, 16, 0⟩
def CAL_DAC_G : Fld := ⟨0x484, 0, 16, 0⟩
def CAL_DAC_P : Fld := ⟨0x484, 16, 16, 0⟩
def CAL_TOFS_S : Fld := ⟨0x488, 0, 16, 0⟩
def CAL_TOFS_AS : Fld := ⟨0x488, 16, 16, 0⟩
def CAL_REQ : Fld := ⟨0x008, 8, 1, 0⟩
def CAL_FORCE : Fld := ⟨0x008, 9, 1, 0⟩
def CAL_DEGRADED : Fld := ⟨0x00C, 8, 1, 0⟩

/-! SVC page: R296 -/
def SVC_SEQ_LEN (c : Nat) : Fld := ⟨0x040 + 4 * c, 0, 6, 0⟩
def SVC_MODE (c : Nat) : Fld := ⟨0x040 + 4 * c, 8, 1, 0⟩
def SVC_SCAN_PERIOD (c : Nat) : Fld := ⟨0x040 + 4 * c, 12, 20, 10000⟩
def SVC_CAL_DT : Fld := ⟨0x048, 0, 8, 24⟩
def SVC_TEMP_EN : Fld := ⟨0x048, 8, 1, 1⟩
def SVC_TIMER_EN : Fld := ⟨0x048, 9, 1, 1⟩
def SVC_CAL_PERIOD : Fld := ⟨0x04C, 0, 32, 86400⟩
def SVC_RETRY_S : Fld := ⟨0x050, 0, 16, 60⟩
def SVC_DEFER_S : Fld := ⟨0x050, 16, 16, 3600⟩
def SVC_ACC_BASE : Fld := ⟨0x054, 0, 7, 0⟩
def SVC_VIEW : Fld := ⟨0x054, 8, 1, 0⟩
def SVC_INJ_GO : Fld := ⟨0x058, 0, 8, 0⟩
def SVC_INPUT (e : Nat) : Fld := ⟨0x100 + 4 * e, 0, 6, 0⟩
def SVC_DIFF (e : Nat) : Fld := ⟨0x100 + 4 * e, 6, 1, 0⟩
def SVC_ALIGN (e : Nat) : Fld := ⟨0x100 + 4 * e, 7, 1, 0⟩
def SVC_AVG (e : Nat) : Fld := ⟨0x100 + 4 * e, 8, 4, 1⟩
def SVC_SHIFT (e : Nat) : Fld := ⟨0x100 + 4 * e, 12, 4, 0⟩
def SVC_SETTLE (e : Nat) : Fld := ⟨0x100 + 4 * e, 16, 4, 0⟩
def SVC_INJ_WORD (i : Nat) : Fld := ⟨0x200 + 8 * i, 0, 32, 0⟩
def SVC_INJ_EN (i : Nat) : Fld := ⟨0x204 + 8 * i, 0, 1, 0⟩
def SVC_INJ_CLASS (i : Nat) : Fld := ⟨0x204 + 8 * i, 1, 1, 0⟩
def SVC_INJ_LINE (i : Nat) : Fld := ⟨0x204 + 8 * i, 4, 4, 0⟩
def SVC_INJ_DELAY (i : Nat) : Fld := ⟨0x204 + 8 * i, 12, 20, 0⟩
def SVC_SCANS0 : Fld := ⟨0x400, 0, 32, 0⟩
def SVC_SCANS1 : Fld := ⟨0x404, 0, 32, 0⟩
def SVC_SCAN_OVERRUNS0 : Fld := ⟨0x408, 0, 32, 0⟩
def SVC_SCAN_OVERRUNS1 : Fld := ⟨0x40C, 0, 32, 0⟩
def SVC_REG_ABORTS : Fld := ⟨0x410, 0, 32, 0⟩
def SVC_REG_PROTECTS : Fld := ⟨0x414, 0, 32, 0⟩
def SVC_CONTROL_RUNS : Fld := ⟨0x418, 0, 32, 0⟩
def SVC_CONTROL_MERGED : Fld := ⟨0x41C, 0, 32, 0⟩
def SVC_SHOT_RUNS : Fld := ⟨0x420, 0, 32, 0⟩
def SVC_SHOT_DROPS : Fld := ⟨0x424, 0, 32, 0⟩
def SVC_SHOT_DROPS_CAL : Fld := ⟨0x428, 0, 32, 0⟩
def SVC_CAL_HELD : Fld := ⟨0x42C, 0, 32, 0⟩
def SVC_ENTRY_SKIPS : Fld := ⟨0x430, 0, 32, 0⟩
def SVC_SATURATIONS : Fld := ⟨0x434, 0, 32, 0⟩
def SVC_OFS (c : Nat) : Fld := ⟨0x440 + 8 * c, 0, 16, 0⟩
def SVC_TRIM (c : Nat) : Fld := ⟨0x444 + 8 * c, 0, 20, 524288⟩
def SVC_T_REF : Fld := ⟨0x450, 0, 16, 0⟩
def SVC_LAST_PASS_S : Fld := ⟨0x454, 0, 32, 0⟩
def SVC_REJECT_RUN : Fld := ⟨0x458, 0, 4, 0⟩
def SVC_PASSES : Fld := ⟨0x45C, 0, 32, 0⟩
def SVC_PASSES_REJECTED : Fld := ⟨0x460, 0, 32, 0⟩
def SVC_CAL_REQ : Fld := ⟨0x008, 8, 1, 0⟩
def SVC_CAL_FORCE : Fld := ⟨0x008, 9, 1, 0⟩
def SVC_CAL0 : Fld := ⟨0x00C, 8, 1, 0⟩
def SVC_CAL1 : Fld := ⟨0x00C, 9, 1, 0⟩
def SVC_DEGRADED : Fld := ⟨0x00C, 10, 1, 0⟩

/-! SFE page: R297 -/
def SFE_WIRE (n : Nat) : Fld := ⟨0x040 + 16 * n, 0, 2, 2⟩
def SFE_TYPE (n : Nat) : Fld := ⟨0x040 + 16 * n, 2, 2, 0⟩
def SFE_IEXC (n : Nat) : Fld := ⟨0x040 + 16 * n, 4, 2, 2⟩
def SFE_GAIN (n : Nat) : Fld := ⟨0x040 + 16 * n, 6, 2, 0⟩
def SFE_CHECK_EN (n : Nat) : Fld := ⟨0x040 + 16 * n, 8, 1, 1⟩
def SFE_CHECK_S (n : Nat) : Fld := ⟨0x040 + 16 * n, 16, 16, 10⟩
def SFE_RNOM (n : Nat) : Fld := ⟨0x044 + 16 * n, 0, 32, 25600⟩
def SFE_BETA (n : Nat) : Fld := ⟨0x048 + 16 * n, 0, 16, 3950⟩
def SFE_LEAD_R (n : Nat) : Fld := ⟨0x048 + 16 * n, 16, 16, 0⟩
def SFE_ZLO (n : Nat) : Fld := ⟨0x04C + 16 * n, 0, 16, 0⟩
def SFE_ZHI (n : Nat) : Fld := ⟨0x04C + 16 * n, 16, 16, 65535⟩
def SFE_REF_R : Fld := ⟨0x0C0, 0, 32, 102400⟩
def SFE_LEAD_MAX : Fld := ⟨0x0C4, 0, 16, 320⟩
def SFE_TEMP (n : Nat) : Fld := ⟨0x400 + 16 * n, 0, 16, 0⟩
def SFE_CLASS (n : Nat) : Fld := ⟨0x400 + 16 * n, 16, 3, 0⟩
def SFE_CLAMP (n : Nat) : Fld := ⟨0x400 + 16 * n, 19, 1, 0⟩
def SFE_OK (n : Nat) : Fld := ⟨0x400 + 16 * n, 20, 1, 0⟩
def SFE_Z_LAST (n : Nat) : Fld := ⟨0x404 + 16 * n, 0, 32, 0⟩
def SFE_LEAD_LAST (n : Nat) : Fld := ⟨0x408 + 16 * n, 0, 16, 0⟩
def SFE_MEASUREMENTS (n : Nat) : Fld := ⟨0x40C + 16 * n, 0, 32, 0⟩
def SFE_BREAKS (n : Nat) : Fld := ⟨0x480 + 4 * n, 0, 32, 0⟩
def SFE_CLAMPS (n : Nat) : Fld := ⟨0x4A0 + 4 * n, 0, 32, 0⟩
def SFE_SKIPS (n : Nat) : Fld := ⟨0x4C0 + 4 * n, 0, 32, 0⟩

/-! LOOP page: R298 -/
def LOOP_EN (k : Nat) : Fld := ⟨0x040 + 32 * k, 0, 1, 0⟩
def LOOP_OUT_SEL (k : Nat) : Fld := ⟨0x040 + 32 * k, 1, 2, 0⟩
def LOOP_POL (k : Nat) : Fld := ⟨0x040 + 32 * k, 3, 1, 0⟩
def LOOP_POL_OUT (k : Nat) : Fld := ⟨0x040 + 32 * k, 4, 1, 0⟩
def LOOP_IN_SEL (k : Nat) : Fld := ⟨0x040 + 32 * k, 8, 7, 0⟩
def LOOP_PWM_PER (k : Nat) : Fld := ⟨0x040 + 32 * k, 16, 16, 10000⟩
def LOOP_PERIOD (k : Nat) : Fld := ⟨0x044 + 32 * k, 0, 20, 100000⟩
def LOOP_FAIL_TICKS (k : Nat) : Fld := ⟨0x044 + 32 * k, 20, 12, 50⟩
def LOOP_SP (k : Nat) : Fld := ⟨0x048 + 32 * k, 0, 32, 0⟩
def LOOP_KP (k : Nat) : Fld := ⟨0x04C + 32 * k, 0, 32, 0⟩
def LOOP_KI (k : Nat) : Fld := ⟨0x050 + 32 * k, 0, 32, 0⟩
def LOOP_KD (k : Nat) : Fld := ⟨0x054 + 32 * k, 0, 32, 0⟩
def LOOP_OUT_MIN (k : Nat) : Fld := ⟨0x058 + 32 * k, 0, 16, 0⟩
def LOOP_OUT_MAX (k : Nat) : Fld := ⟨0x058 + 32 * k, 16, 16, 65535⟩
def LOOP_FAIL_OUT (k : Nat) : Fld := ⟨0x05C + 32 * k, 0, 16, 0⟩
def LOOP_MAN_OUT (k : Nat) : Fld := ⟨0x05C + 32 * k, 16, 16, 0⟩
def LOOP_OUT_NOW (k : Nat) : Fld := ⟨0x400 + 16 * k, 0, 16, 0⟩
def LOOP_LSTATE (k : Nat) : Fld := ⟨0x400 + 16 * k, 16, 3, 0⟩
def LOOP_Y_LAST (k : Nat) : Fld := ⟨0x404 + 16 * k, 0, 32, 0⟩
def LOOP_HOLD_TICKS (k : Nat) : Fld := ⟨0x408 + 16 * k, 0, 32, 0⟩
def LOOP_SAT_TICKS (k : Nat) : Fld := ⟨0x40C + 16 * k, 0, 32, 0⟩

/-! TIME page: R331 -/
def TIME_MASTER : Fld := ⟨0x040, 0, 1, 0⟩
def TIME_SET_SRC : Fld := ⟨0x040, 1, 2, 0⟩
def TIME_READY_EN : Fld := ⟨0x040, 3, 1, 0⟩
def TIME_FREE_QUAL : Fld := ⟨0x040, 4, 1, 0⟩
def TIME_TOD_LAG : Fld := ⟨0x040, 5, 1, 0⟩
def TIME_WARM_MIN_S : Fld := ⟨0x044, 0, 16, 900⟩
def TIME_HOLD_LIMIT : Fld := ⟨0x048, 0, 32, 14400⟩
def TIME_SERVO_TC : Fld := ⟨0x04C, 0, 16, 100⟩
def TIME_LOCK_TH : Fld := ⟨0x04C, 16, 16, 100⟩
def TIME_STEP_TH : Fld := ⟨0x050, 0, 32, 1000⟩
def TIME_PPS_DELAY : Fld := ⟨0x054, 0, 32, 0⟩
def TIME_TAI_UTC : Fld := ⟨0x058, 0, 16, 37⟩
def TIME_LEAP : Fld := ⟨0x058, 16, 2, 0⟩
def TIME_SET_S : Fld := ⟨0x05C, 0, 48, 0⟩
def TIME_SET_NS : Fld := ⟨0x064, 0, 32, 0⟩
def TIME_OVEN_ENTRY : Fld := ⟨0x068, 0, 7, 127⟩
def TIME_OVEN_LO : Fld := ⟨0x06C, 0, 16, 0⟩
def TIME_OVEN_HI : Fld := ⟨0x06C, 16, 16, 65535⟩
def TIME_FREQ_MAN : Fld := ⟨0x070, 0, 32, 0⟩
def TIME_NOW_S : Fld := ⟨0x400, 0, 48, 0⟩
def TIME_NOW_NS : Fld := ⟨0x408, 0, 32, 0⟩
def TIME_NOW_SUB : Fld := ⟨0x40C, 0, 16, 0⟩
def TIME_FREQ_NOW : Fld := ⟨0x410, 0, 32, 0⟩
def TIME_PHASE_ERR : Fld := ⟨0x414, 0, 32, 0⟩
def TIME_HOLD_S : Fld := ⟨0x418, 0, 32, 0⟩
def TIME_PPS_EDGES : Fld := ⟨0x41C, 0, 32, 0⟩
def TIME_PPS_REJECTS : Fld := ⟨0x420, 0, 32, 0⟩
def TIME_PPS_MISSING : Fld := ⟨0x424, 0, 32, 0⟩
def TIME_STEPS : Fld := ⟨0x428, 0, 32, 0⟩
def TIME_TOD_BAD : Fld := ⟨0x42C, 0, 32, 0⟩
def TIME_OVEN_ANOMALIES : Fld := ⟨0x430, 0, 32, 0⟩
def TIME_SET_ARM : Fld := ⟨0x008, 8, 1, 0⟩
def TIME_OCXO_WARM : Fld := ⟨0x00C, 8, 1, 0⟩
def TIME_QUALIFIED : Fld := ⟨0x00C, 9, 1, 0⟩
def TIME_GRID_VALID : Fld := ⟨0x00C, 10, 1, 0⟩
def TIME_ST_MASTER : Fld := ⟨0x00C, 11, 1, 0⟩
def TIME_HOLD_EXCEEDED : Fld := ⟨0x00C, 12, 1, 0⟩
def TIME_LABEL_BACKUP : Fld := ⟨0x00C, 13, 1, 0⟩

/-! PTP page: R332 -/
def PTP_EN : Fld := ⟨0x040, 0, 1, 0⟩
def PTP_PROFILE : Fld := ⟨0x040, 1, 1, 0⟩
def PTP_ONE_STEP : Fld := ⟨0x040, 2, 1, 0⟩
def PTP_TRANSPORT : Fld := ⟨0x040, 3, 2, 0⟩
def PTP_ESMC_EN : Fld := ⟨0x040, 5, 1, 0⟩
def PTP_DOMAIN : Fld := ⟨0x040, 8, 8, 0⟩
def PTP_PRIO1 : Fld := ⟨0x040, 16, 8, 128⟩
def PTP_PRIO2 : Fld := ⟨0x040, 24, 8, 128⟩
def PTP_LOG_SYNC : Fld := ⟨0x044, 0, 8, 0⟩
def PTP_LOG_ANN : Fld := ⟨0x044, 8, 8, 1⟩
def PTP_LOG_MINDR : Fld := ⟨0x044, 16, 8, 0⟩
def PTP_LOCAL_PRIO : Fld := ⟨0x044, 24, 8, 128⟩
def PTP_TX_DELAY : Fld := ⟨0x048, 0, 32, 0⟩
def PTP_RX_DELAY : Fld := ⟨0x04C, 0, 32, 0⟩
def PTP_CLOCK_CLASS : Fld := ⟨0x400, 0, 8, 248⟩
def PTP_TIME_SOURCE : Fld := ⟨0x400, 8, 8, 160⟩
def PTP_SYNC_TX : Fld := ⟨0x404, 0, 32, 0⟩
def PTP_DREQ_RX : Fld := ⟨0x408, 0, 32, 0⟩
def PTP_DREQ_DROPS : Fld := ⟨0x40C, 0, 32, 0⟩
def PTP_FOREIGN_ANN : Fld := ⟨0x410, 0, 32, 0⟩
def PTP_IGNORED : Fld := ⟨0x414, 0, 32, 0⟩
def PTP_CFG_ERR : Fld := ⟨0x00C, 8, 1, 0⟩

/-! PPS page: R333 -/
def PPS_EN (i : Nat) : Fld := ⟨0x040 + 4 * i, 0, 1, 0⟩
def PPS_SQUELCH (i : Nat) : Fld := ⟨0x040 + 4 * i, 1, 1, 1⟩
def PPS_POL (i : Nat) : Fld := ⟨0x040 + 4 * i, 2, 1, 0⟩
def PPS_WIDTH (i : Nat) : Fld := ⟨0x040 + 4 * i, 8, 8, 100⟩
def PPS_DELAY (i : Nat) : Fld := ⟨0x050 + 4 * i, 0, 16, 0⟩
def PPS_F10M_EN (f : Nat) : Fld := ⟨0x060 + 4 * f, 0, 1, 0⟩
def PPS_F10M_SQUELCH (f : Nat) : Fld := ⟨0x060 + 4 * f, 1, 1, 1⟩
def PPS_F10M_DELAY (f : Nat) : Fld := ⟨0x060 + 4 * f, 16, 16, 0⟩
def PPS_TOD_EN : Fld := ⟨0x068, 0, 1, 0⟩
def PPS_TOD_SQUELCH : Fld := ⟨0x068, 1, 1, 1⟩
def PPS_BAUD : Fld := ⟨0x068, 2, 2, 1⟩
def PPS_TALKER : Fld := ⟨0x068, 4, 1, 0⟩
def PPS_START_MS : Fld := ⟨0x068, 16, 10, 100⟩
def PPS_PULSES (i : Nat) : Fld := ⟨0x400 + 4 * i, 0, 32, 0⟩
def PPS_SQUELCHED_S : Fld := ⟨0x410, 0, 32, 0⟩

/-! PF page: R334 -/
def PF_MODE : Fld := ⟨0x040, 0, 2, 0⟩
def PF_SRC_START : Fld := ⟨0x040, 4, 6, 0⟩
def PF_SRC_STOP : Fld := ⟨0x040, 10, 6, 0⟩
def PF_EDGE_START : Fld := ⟨0x040, 16, 1, 0⟩
def PF_EDGE_STOP : Fld := ⟨0x040, 17, 1, 0⟩
def PF_LINE : Fld := ⟨0x040, 20, 4, 0⟩
def PF_AMBIG_DROP : Fld := ⟨0x040, 24, 1, 0⟩
def PF_OPEN : Fld := ⟨0x044, 0, 16, 0⟩
def PF_CLOSE : Fld := ⟨0x048, 0, 20, 64⟩
def PF_STAT_N : Fld := ⟨0x04C, 0, 5, 10⟩
def PF_CAL_S : Fld := ⟨0x050, 0, 16, 10⟩
def PF_LAST : Fld := ⟨0x400, 0, 32, 0⟩
def PF_AMBIG : Fld := ⟨0x404, 0, 1, 0⟩
def PF_LAST_CAL_STALE : Fld := ⟨0x404, 1, 1, 0⟩
def PF_MEAN : Fld := ⟨0x408, 0, 48, 0⟩
def PF_SD : Fld := ⟨0x410, 0, 32, 0⟩
def PF_MIN : Fld := ⟨0x414, 0, 32, 0⟩
def PF_MAX : Fld := ⟨0x418, 0, 32, 0⟩
def PF_RESULTS : Fld := ⟨0x41C, 0, 32, 0⟩
def PF_BLOCKS : Fld := ⟨0x420, 0, 32, 0⟩
def PF_AMBIGS : Fld := ⟨0x424, 0, 32, 0⟩
def PF_ORDER : Fld := ⟨0x428, 0, 32, 0⟩
def PF_EARLY : Fld := ⟨0x42C, 0, 32, 0⟩
def PF_LATE : Fld := ⟨0x430, 0, 32, 0⟩
def PF_TIMEOUTS : Fld := ⟨0x434, 0, 32, 0⟩
def PF_START_BUSY : Fld := ⟨0x438, 0, 32, 0⟩
def PF_MISSED : Fld := ⟨0x43C, 0, 32, 0⟩
def PF_CAL_REJECTS : Fld := ⟨0x440, 0, 32, 0⟩
def PF_K1 (u : Nat) : Fld := ⟨0x448 + 4 * u, 0, 16, 19200⟩
def PF_K2 (u : Nat) : Fld := ⟨0x448 + 4 * u, 16, 16, 46080⟩
def PF_STAMP_S : Fld := ⟨0x460, 0, 32, 0⟩
def PF_STAMP_NS : Fld := ⟨0x464, 0, 32, 0⟩
def PF_STAMP_SUB : Fld := ⟨0x468, 0, 16, 0⟩
def PF_ARM : Fld := ⟨0x008, 8, 1, 0⟩
def PF_DISARM : Fld := ⟨0x008, 9, 1, 0⟩
def PF_CAL_REQ : Fld := ⟨0x008, 10, 1, 0⟩
def PF_DEGRADED : Fld := ⟨0x00C, 8, 1, 0⟩
def PF_DUPLICATE : Fld := ⟨0x00C, 9, 1, 0⟩

/-! BTN page: R335 -/
def BTN_WIN_PKG : Fld := ⟨0x040, 0, 3, 0⟩
def BTN_WIN_QTR : Fld := ⟨0x040, 4, 2, 0⟩
def BTN_PROXY_TIMEOUT : Fld := ⟨0x044, 0, 16, 100⟩
def BTN_ASYM_PS : Fld := ⟨0x048, 0, 32, 0⟩
def BTN_UP_STATE : Fld := ⟨0x400, 0, 2, 0⟩
def BTN_DOWN_STATE : Fld := ⟨0x400, 2, 2, 0⟩
def BTN_UP_CAL : Fld := ⟨0x400, 4, 1, 0⟩
def BTN_UP_LOCKED : Fld := ⟨0x400, 5, 1, 0⟩
def BTN_MASTER_IDX : Fld := ⟨0x400, 8, 3, 0⟩
def BTN_HOPS : Fld := ⟨0x400, 12, 3, 0⟩
def BTN_OFFSET : Fld := ⟨0x404, 0, 32, 0⟩
def BTN_DELAY : Fld := ⟨0x408, 0, 32, 0⟩
def BTN_PROXY_READS : Fld := ⟨0x410, 0, 32, 0⟩
def BTN_PROXY_WRITES : Fld := ⟨0x414, 0, 32, 0⟩
def BTN_PROXY_TIMEOUTS : Fld := ⟨0x418, 0, 32, 0⟩
def BTN_PROXY_REFUSED : Fld := ⟨0x41C, 0, 32, 0⟩
def BTN_SIG_LOST : Fld := ⟨0x420, 0, 32, 0⟩
def BTN_REPLAYS : Fld := ⟨0x424, 0, 32, 0⟩
def BTN_FRAME_DROPS : Fld := ⟨0x428, 0, 32, 0⟩
def BTN_LINK_DOWNS : Fld := ⟨0x42C, 0, 32, 0⟩

/-! SHELFH page: R342, R346 -/
def SHELFH_RESERVE (q : Nat) : Fld := ⟨0x040 + 4 * q, 0, 10, ([64, 64, 4, 32, 32, 16, 16, 8, 16, 8, 4] : List Nat).getD q 0⟩
def SHELFH_LIMIT (q : Nat) : Fld := ⟨0x040 + 4 * q, 16, 10, ([256, 256, 4, 128, 128, 64, 64, 32, 16, 32, 16] : List Nat).getD q 0⟩
def SHELFH_FREE : Fld := ⟨0x400, 0, 10, 512⟩
def SHELFH_COMMON_FREE : Fld := ⟨0x400, 16, 10, 248⟩
def SHELFH_RESERVED_SUM : Fld := ⟨0x404, 0, 10, 264⟩
def SHELFH_MAX_WAIT : Fld := ⟨0x408, 0, 8, 0⟩
def SHELFH_RESERVE_REFUSED : Fld := ⟨0x40C, 0, 32, 0⟩
def SHELFH_HELD (q : Nat) : Fld := ⟨0x480 + 4 * q, 0, 10, 0⟩
def SHELFH_PEAK (q : Nat) : Fld := ⟨0x480 + 4 * q, 16, 10, 0⟩
def SHELFH_LIMIT_REFUSALS (q : Nat) : Fld := ⟨0x500 + 4 * q, 0, 32, 0⟩
def SHELFH_ROLL_BASE (n : Nat) : Fld := ⟨0xC00 + 32 * n, 0, 18, 0⟩
def SHELFH_ROLL_SIZE (n : Nat) : Fld := ⟨0xC04 + 32 * n, 0, 18, 0⟩
def SHELFH_IDX_BASE (n : Nat) : Fld := ⟨0xC08 + 32 * n, 0, 18, 0⟩
def SHELFH_IDX_LOG2 (n : Nat) : Fld := ⟨0xC0C + 32 * n, 0, 5, 17⟩
def SHELFH_OLDEST (n : Nat) : Fld := ⟨0xC10 + 32 * n, 0, 64, 0⟩
def SHELFH_NEWEST (n : Nat) : Fld := ⟨0xC18 + 32 * n, 0, 64, 0⟩

/-! SHELFD page: R342 -/
def SHELFD_RESERVE (q : Nat) : Fld := ⟨0x040 + 4 * q, 0, 10, ([8, 4, 4, 8, 4, 4, 8, 4, 4, 8, 4, 4, 8, 4, 4, 8, 4, 4, 104] : List Nat).getD q 0⟩
def SHELFD_LIMIT (q : Nat) : Fld := ⟨0x040 + 4 * q, 16, 10, ([64, 16, 4, 64, 16, 4, 64, 16, 4, 64, 16, 4, 64, 16, 4, 64, 16, 4, 104] : List Nat).getD q 0⟩
def SHELFD_FREE : Fld := ⟨0x400, 0, 10, 384⟩
def SHELFD_COMMON_FREE : Fld := ⟨0x400, 16, 10, 208⟩
def SHELFD_RESERVED_SUM : Fld := ⟨0x404, 0, 10, 200⟩
def SHELFD_MAX_WAIT : Fld := ⟨0x408, 0, 8, 0⟩
def SHELFD_RESERVE_REFUSED : Fld := ⟨0x40C, 0, 32, 0⟩
def SHELFD_HELD (q : Nat) : Fld := ⟨0x480 + 4 * q, 0, 10, 0⟩
def SHELFD_PEAK (q : Nat) : Fld := ⟨0x480 + 4 * q, 16, 10, 0⟩
def SHELFD_LIMIT_REFUSALS (q : Nat) : Fld := ⟨0x500 + 4 * q, 0, 32, 0⟩

/-! DMC page: R360 -/
def DMC_SPEED : Fld := ⟨0x040, 0, 2, 3⟩
def DMC_RANKS : Fld := ⟨0x040, 4, 2, 0⟩
def DMC_SPARE_EN : Fld := ⟨0x040, 8, 1, 0⟩
def DMC_SPARE_RANK : Fld := ⟨0x040, 9, 2, 3⟩
def DMC_DENSITY : Fld := ⟨0x040, 12, 1, 1⟩
def DMC_RDIMM : Fld := ⟨0x040, 13, 1, 1⟩
def DMC_RH_TH : Fld := ⟨0x044, 0, 16, 4096⟩
def DMC_RH_RADIUS : Fld := ⟨0x044, 16, 1, 0⟩
def DMC_SCRUB_H : Fld := ⟨0x048, 0, 16, 24⟩
def DMC_IDLE_CYCLES : Fld := ⟨0x04C, 0, 16, 8000⟩
def DMC_SR_MARGIN : Fld := ⟨0x04C, 16, 16, 200⟩
def DMC_SR_EN : Fld := ⟨0x050, 0, 1, 1⟩
def DMC_HOST_TOL : Fld := ⟨0x050, 16, 16, 2⟩
def DMC_MARGIN_S : Fld := ⟨0x054, 0, 16, 600⟩
def DMC_MARGIN_MIN : Fld := ⟨0x054, 16, 8, 12⟩
def DMC_REQUAL_RANK : Fld := ⟨0x058, 0, 2, 0⟩
def DMC_REQUAL_GO : Fld := ⟨0x058, 8, 1, 0⟩
def DMC_CAP_BW : Fld := ⟨0x060, 0, 8, 16⟩
def DMC_ARC_BW : Fld := ⟨0x060, 8, 8, 16⟩
def DMC_MIG_BW : Fld := ⟨0x060, 16, 8, 16⟩
def DMC_RANK_STATE : Fld := ⟨0x400, 0, 16, 0⟩
def DMC_MIG_DONE : Fld := ⟨0x404, 0, 32, 0⟩
def DMC_TOL_MIN : Fld := ⟨0x408, 0, 32, 0⟩
def DMC_CE : Fld := ⟨0x40C, 0, 64, 0⟩
def DMC_UE : Fld := ⟨0x414, 0, 32, 0⟩
def DMC_CA_PAR : Fld := ⟨0x418, 0, 32, 0⟩
def DMC_RH_REFRESHES : Fld := ⟨0x41C, 0, 32, 0⟩
def DMC_SR_ENTRIES : Fld := ⟨0x420, 0, 32, 0⟩
def DMC_SR_CANCELS : Fld := ⟨0x424, 0, 32, 0⟩
def DMC_SR_WAIT_MAX : Fld := ⟨0x428, 0, 32, 0⟩
def DMC_POISON_LINES : Fld := ⟨0x42C, 0, 32, 0⟩
def DMC_POISON_HITS : Fld := ⟨0x430, 0, 32, 0⟩
def DMC_POISON_OVERFLOW : Fld := ⟨0x434, 0, 32, 0⟩
def DMC_SCRUB_PASSES : Fld := ⟨0x438, 0, 32, 0⟩
def DMC_MARGIN (l : Nat) : Fld := ⟨0x440 + 4 * l, 0, 32, 0⟩

/-! DLY page: R355, R356 -/
def DLY_SWEEP_RANK : Fld := ⟨0x040, 0, 2, 0⟩
def DLY_SWEEP_LANE : Fld := ⟨0x040, 4, 4, 0⟩
def DLY_SWEEP_PARAM : Fld := ⟨0x040, 8, 3, 0⟩
def DLY_SWEEP_BIT : Fld := ⟨0x040, 12, 3, 0⟩
def DLY_SWEEP_START : Fld := ⟨0x040, 16, 8, 0⟩
def DLY_SWEEP_STEP : Fld := ⟨0x040, 24, 4, 1⟩
def DLY_SWEEP_GO : Fld := ⟨0x040, 31, 1, 0⟩
def DLY_SWEEP_PASS : Fld := ⟨0x400, 0, 64, 0⟩
def DLY_SWEEP_ERRORS : Fld := ⟨0x408, 0, 32, 0⟩
def DLY_DL_WL (r : Nat) (l : Nat) : Fld := ⟨0xC00 + 216 * r + 24 * l, 0, 10, 0⟩
def DLY_DL_GATE (r : Nat) (l : Nat) : Fld := ⟨0xC00 + 216 * r + 24 * l, 16, 10, 0⟩
def DLY_DL_RD (r : Nat) (l : Nat) : Fld := ⟨0xC04 + 216 * r + 24 * l, 0, 64, 0⟩
def DLY_DL_WR (r : Nat) (l : Nat) : Fld := ⟨0xC0C + 216 * r + 24 * l, 0, 64, 0⟩
def DLY_DL_VREF (r : Nat) (l : Nat) : Fld := ⟨0xC14 + 216 * r + 24 * l, 0, 7, 0⟩

/-! ARC page: R383 -/
def ARC_FMT_KEY : Fld := ⟨0x040, 0, 16, 0⟩
def ARC_PE_RATED : Fld := ⟨0x044, 0, 16, 3000⟩
def ARC_TARGET_LIFE_DAYS : Fld := ⟨0x044, 16, 16, 3650⟩
def ARC_EVT_SEGS : Fld := ⟨0x048, 0, 16, 256⟩
def ARC_LEDGER_SEGS : Fld := ⟨0x048, 16, 8, 8⟩
def ARC_CFG_SEGS : Fld := ⟨0x048, 24, 8, 2⟩
def ARC_FREE_MIN : Fld := ⟨0x04C, 0, 8, 32⟩
def ARC_WEAR_SPREAD : Fld := ⟨0x04C, 8, 16, 200⟩
def ARC_AGE_LIMIT : Fld := ⟨0x050, 0, 24, 8760⟩
def ARC_EA : Fld := ⟨0x054, 0, 12, 1100⟩
def ARC_AGE_SRC : Fld := ⟨0x054, 12, 4, 0⟩
def ARC_OFF_TEMP : Fld := ⟨0x054, 16, 16, 7040⟩
def ARC_REFRESH_BITS : Fld := ⟨0x058, 0, 8, 128⟩
def ARC_REFRESH_LEVEL : Fld := ⟨0x058, 8, 5, 8⟩
def ARC_REFRESH_DEFER_H : Fld := ⟨0x058, 16, 16, 168⟩
def ARC_CKPT_S : Fld := ⟨0x05C, 0, 16, 60⟩
def ARC_PIN_COPY_S : Fld := ⟨0x05C, 16, 16, 3600⟩
def ARC_PIN_HOLD_MAX : Fld := ⟨0x060, 0, 16, 512⟩
def ARC_EVT_KEEP : Fld := ⟨0x060, 16, 1, 0⟩
def ARC_RR_COUNT : Fld := ⟨0x064, 0, 5, 0⟩
def ARC_SOFT_LO : Fld := ⟨0x064, 8, 5, 1⟩
def ARC_SOFT_HI : Fld := ⟨0x064, 16, 5, 2⟩
def ARC_UNPIN_ID : Fld := ⟨0x068, 0, 32, 0⟩
def ARC_SNAP_ADDR : Fld := ⟨0x06C, 0, 32, 0⟩
def ARC_RET_STREAM : Fld := ⟨0x070, 0, 8, 0⟩
def ARC_RET_MODE : Fld := ⟨0x070, 8, 2, 0⟩
def ARC_RET_DECODE : Fld := ⟨0x070, 10, 1, 0⟩
def ARC_RET_TAG : Fld := ⟨0x070, 16, 16, 0⟩
def ARC_RET_A : Fld := ⟨0x074, 0, 64, 0⟩
def ARC_RET_A_NS : Fld := ⟨0x07C, 0, 32, 0⟩
def ARC_RET_B : Fld := ⟨0x080, 0, 64, 0⟩
def ARC_RET_B_NS : Fld := ⟨0x088, 0, 32, 0⟩
def ARC_SEGS_TOTAL : Fld := ⟨0x400, 0, 16, 0⟩
def ARC_SEGS_FREE : Fld := ⟨0x400, 16, 16, 0⟩
def ARC_HELD_SEGS : Fld := ⟨0x404, 0, 16, 0⟩
def ARC_WEAR_RATIO : Fld := ⟨0x408, 0, 16, 0⟩
def ARC_BUDGET : Fld := ⟨0x40C, 0, 64, 0⟩
def ARC_WRITTEN : Fld := ⟨0x414, 0, 64, 0⟩
def ARC_ERASE_MIN : Fld := ⟨0x41C, 0, 16, 0⟩
def ARC_ERASE_MAX : Fld := ⟨0x41C, 16, 16, 0⟩
def ARC_OLDEST_S : Fld := ⟨0x420, 0, 32, 0⟩
def ARC_BACKLOG_MS : Fld := ⟨0x424, 0, 16, 0⟩
def ARC_GROWN_BAD : Fld := ⟨0x428, 0, 32, 0⟩
def ARC_LATE_BLOCKS : Fld := ⟨0x42C, 0, 32, 0⟩
def ARC_DROP_BLOCKS : Fld := ⟨0x430, 0, 32, 0⟩
def ARC_POISON_DROPS : Fld := ⟨0x434, 0, 32, 0⟩
def ARC_UNREADABLE : Fld := ⟨0x438, 0, 32, 0⟩
def ARC_SOFT_DECODES : Fld := ⟨0x43C, 0, 32, 0⟩
def ARC_REFRESHES : Fld := ⟨0x440, 0, 32, 0⟩
def ARC_WEAR_MOVES : Fld := ⟨0x444, 0, 32, 0⟩
def ARC_PINS_REFUSED : Fld := ⟨0x448, 0, 32, 0⟩
def ARC_PINS_BROKEN : Fld := ⟨0x44C, 0, 32, 0⟩
def ARC_PINS_OPEN : Fld := ⟨0x450, 0, 32, 0⟩
def ARC_RET_STATUS : Fld := ⟨0x454, 0, 3, 0⟩
def ARC_RET_TAG_DONE : Fld := ⟨0x454, 16, 16, 0⟩
def ARC_NEXT_PIN : Fld := ⟨0x458, 0, 32, 1⟩
def ARC_BEHIND : Fld := ⟨0x00C, 8, 1, 0⟩
def ARC_PINS_FULL : Fld := ⟨0x00C, 9, 1, 0⟩
def ARC_FORMAT : Fld := ⟨0x008, 8, 1, 0⟩
def ARC_MOUNT : Fld := ⟨0x008, 9, 1, 0⟩
def ARC_UNMOUNT : Fld := ⟨0x008, 10, 1, 0⟩
def ARC_SNAP_GO : Fld := ⟨0x008, 11, 1, 0⟩
def ARC_RET_GO : Fld := ⟨0x008, 12, 1, 0⟩
def ARC_RET_CANCEL : Fld := ⟨0x008, 13, 1, 0⟩
def ARC_LN_EN (n : Nat) : Fld := ⟨0xC00 + 4 * n, 0, 1, 0⟩
def ARC_LN_PLANES (n : Nat) : Fld := ⟨0xC00 + 4 * n, 1, 4, 0⟩
def ARC_LN_DECIM (n : Nat) : Fld := ⟨0xC00 + 4 * n, 8, 4, 0⟩
def ARC_LN_THERM (n : Nat) : Fld := ⟨0xC00 + 4 * n, 12, 1, 0⟩
def ARC_LN_FEAT (n : Nat) : Fld := ⟨0xC00 + 4 * n, 13, 1, 0⟩
def ARC_LN_LEVEL (n : Nat) : Fld := ⟨0xC00 + 4 * n, 16, 4, 0⟩
def ARC_LN_DELTA (n : Nat) : Fld := ⟨0xC00 + 4 * n, 20, 1, 0⟩
def ARC_RR_ADDR (v : Nat) (o : Nat) : Fld := ⟨0xC40 + 32 * v + 8 * o, 0, 8, 0⟩
def ARC_RR_EN (v : Nat) (o : Nat) : Fld := ⟨0xC40 + 32 * v + 8 * o, 8, 1, 0⟩
def ARC_RR_PARAM (v : Nat) (o : Nat) : Fld := ⟨0xC44 + 32 * v + 8 * o, 0, 32, 0⟩

/-! NCH page: R384 -/
def NCH_EN : Fld := ⟨0x040, 0, 1, 0⟩
def NCH_RATE : Fld := ⟨0x040, 4, 2, 3⟩
def NCH_CE_MASK : Fld := ⟨0x040, 8, 4, 1⟩
def NCH_TARGETS : Fld := ⟨0x400, 0, 4, 0⟩
def NCH_LUNS : Fld := ⟨0x400, 4, 4, 0⟩
def NCH_PLANES_LOG2 : Fld := ⟨0x400, 8, 2, 0⟩
def NCH_PAGE_BYTES : Fld := ⟨0x404, 0, 16, 0⟩
def NCH_SPARE_BYTES : Fld := ⟨0x404, 16, 16, 0⟩
def NCH_PAGES_PER_BLOCK : Fld := ⟨0x408, 0, 16, 0⟩
def NCH_BLOCKS_PER_LUN : Fld := ⟨0x40C, 0, 32, 0⟩
def NCH_READS : Fld := ⟨0x410, 0, 64, 0⟩
def NCH_PROGRAMS : Fld := ⟨0x418, 0, 64, 0⟩
def NCH_ERASES : Fld := ⟨0x420, 0, 32, 0⟩
def NCH_RETRY_READS : Fld := ⟨0x424, 0, 32, 0⟩
def NCH_SOFT_READS : Fld := ⟨0x428, 0, 32, 0⟩
def NCH_UNCORRECTABLE : Fld := ⟨0x42C, 0, 32, 0⟩
def NCH_PROG_FAILS : Fld := ⟨0x430, 0, 32, 0⟩
def NCH_ERASE_FAILS : Fld := ⟨0x434, 0, 32, 0⟩
def NCH_TIMEOUTS : Fld := ⟨0x438, 0, 32, 0⟩
def NCH_MAX_BITS : Fld := ⟨0x43C, 0, 32, 0⟩

/-! MEL page: R394 -/
def MEL_HOST_EN : Fld := ⟨0x040, 0, 1, 0⟩
def MEL_OP : Fld := ⟨0x044, 0, 1, 0⟩
def MEL_LEVEL : Fld := ⟨0x044, 8, 4, 1⟩
def MEL_DELTA : Fld := ⟨0x044, 12, 1, 0⟩
def MEL_STREAM : Fld := ⟨0x044, 16, 8, 0⟩
def MEL_SRC : Fld := ⟨0x048, 0, 40, 0⟩
def MEL_SRC_LEN : Fld := ⟨0x050, 0, 21, 0⟩
def MEL_DST : Fld := ⟨0x054, 0, 40, 0⟩
def MEL_DST_LEN : Fld := ⟨0x05C, 0, 21, 0⟩
def MEL_FIRST_FRAME : Fld := ⟨0x060, 0, 64, 0⟩
def MEL_OUT_LEN : Fld := ⟨0x400, 0, 21, 0⟩
def MEL_VERDICT : Fld := ⟨0x404, 0, 3, 7⟩
def MEL_JOB_REFUSED : Fld := ⟨0x404, 8, 1, 0⟩
def MEL_IN_BYTES : Fld := ⟨0x408, 0, 64, 0⟩
def MEL_OUT_BYTES : Fld := ⟨0x410, 0, 64, 0⟩
def MEL_ENCODED : Fld := ⟨0x418, 0, 32, 0⟩
def MEL_RAW_BLOCKS : Fld := ⟨0x41C, 0, 32, 0⟩
def MEL_DECODED : Fld := ⟨0x420, 0, 32, 0⟩
def MEL_MISMATCHES : Fld := ⟨0x424, 0, 32, 0⟩
def MEL_UNVERIFIED : Fld := ⟨0x428, 0, 32, 0⟩
def MEL_MALFORMED : Fld := ⟨0x42C, 0, 32, 0⟩
def MEL_REFUSED : Fld := ⟨0x430, 0, 32, 0⟩
def MEL_GO : Fld := ⟨0x008, 8, 1, 0⟩

/-! CHK page: R398 -/
def CHK_POLY (u : Nat) : Fld := ⟨0x040 + 64 * u, 0, 2, 0⟩
def CHK_BYTES (u : Nat) : Fld := ⟨0x040 + 64 * u, 8, 3, 4⟩
def CHK_AUTO_CMP (u : Nat) : Fld := ⟨0x040 + 64 * u, 16, 1, 0⟩
def CHK_INIT (u : Nat) : Fld := ⟨0x044 + 64 * u, 0, 1, 0⟩
def CHK_COMPARE (u : Nat) : Fld := ⟨0x044 + 64 * u, 1, 1, 0⟩
def CHK_GO (u : Nat) : Fld := ⟨0x044 + 64 * u, 2, 1, 0⟩
def CHK_ABORT (u : Nat) : Fld := ⟨0x044 + 64 * u, 3, 1, 0⟩
def CHK_DATA (u : Nat) : Fld := ⟨0x048 + 64 * u, 0, 32, 0⟩
def CHK_CRC_STATE (u : Nat) : Fld := ⟨0x04C + 64 * u, 0, 64, 18446744073709551615⟩
def CHK_EXPECT (u : Nat) : Fld := ⟨0x054 + 64 * u, 0, 64, 0⟩
def CHK_SRC (u : Nat) : Fld := ⟨0x05C + 64 * u, 0, 40, 0⟩
def CHK_LEN (u : Nat) : Fld := ⟨0x064 + 64 * u, 0, 32, 0⟩
def CHK_RESULT (u : Nat) : Fld := ⟨0x400 + 32 * u, 0, 64, 0⟩
def CHK_BUSY (u : Nat) : Fld := ⟨0x408 + 32 * u, 0, 1, 0⟩
def CHK_LAST_MISMATCH (u : Nat) : Fld := ⟨0x408 + 32 * u, 1, 1, 0⟩
def CHK_DMA_ERROR (u : Nat) : Fld := ⟨0x408 + 32 * u, 2, 1, 0⟩
def CHK_FED (u : Nat) : Fld := ⟨0x40C + 32 * u, 0, 64, 0⟩
def CHK_MATCHES (u : Nat) : Fld := ⟨0x414 + 32 * u, 0, 32, 0⟩
def CHK_MISMATCHES (u : Nat) : Fld := ⟨0x418 + 32 * u, 0, 32, 0⟩
def CHK_REFUSED (u : Nat) : Fld := ⟨0x41C + 32 * u, 0, 32, 0⟩

/-! PCIE page: R416 -/
def PCIE_BAR2_DRAM : Fld := ⟨0x040, 0, 18, 0⟩
def PCIE_SPEED : Fld := ⟨0x400, 0, 3, 0⟩
def PCIE_WIDTH : Fld := ⟨0x400, 4, 4, 0⟩
def PCIE_MPS : Fld := ⟨0x400, 8, 3, 0⟩
def PCIE_MRRS : Fld := ⟨0x400, 12, 3, 0⟩
def PCIE_WR_BYTES : Fld := ⟨0x404, 0, 64, 0⟩
def PCIE_RD_BYTES : Fld := ⟨0x40C, 0, 64, 0⟩
def PCIE_AER_CORR : Fld := ⟨0x414, 0, 32, 0⟩
def PCIE_AER_UNCORR : Fld := ⟨0x418, 0, 32, 0⟩
def PCIE_POISONED_CPL : Fld := ⟨0x41C, 0, 32, 0⟩
def PCIE_FLRS : Fld := ⟨0x420, 0, 32, 0⟩
def PCIE_L1_ENTRIES : Fld := ⟨0x424, 0, 32, 0⟩
def PCIE_LINK_DOWNS : Fld := ⟨0x428, 0, 32, 0⟩
def PCIE_BME : Fld := ⟨0x00C, 8, 1, 0⟩
def PCIE_D3HOT : Fld := ⟨0x00C, 9, 1, 0⟩

/-! RINGS page: R417 -/
def RINGS_WB_BASE : Fld := ⟨0x040, 0, 64, 0⟩
def RINGS_NOTIFY_US : Fld := ⟨0x048, 0, 20, 1000⟩
def RINGS_BIND (r : Nat) : Fld := ⟨0x100 + 16 * r, 0, 2, 0⟩
def RINGS_MODE (r : Nat) : Fld := ⟨0x100 + 16 * r, 2, 1, 0⟩
def RINGS_NOTIFY_EN (r : Nat) : Fld := ⟨0x100 + 16 * r, 3, 1, 0⟩
def RINGS_FLOW (r : Nat) : Fld := ⟨0x100 + 16 * r, 8, 5, 0⟩
def RINGS_SIZE_LOG2 (r : Nat) : Fld := ⟨0x100 + 16 * r, 24, 5, 12⟩
def RINGS_BASE (r : Nat) : Fld := ⟨0x104 + 16 * r, 0, 64, 0⟩
def RINGS_HOLD_US (r : Nat) : Fld := ⟨0x10C + 16 * r, 0, 16, 1000⟩
def RINGS_NOTIFY_64B (r : Nat) : Fld := ⟨0x10C + 16 * r, 16, 16, 0⟩
def RINGS_RD (r : Nat) : Fld := ⟨0x300 + 4 * r, 0, 30, 0⟩
def RINGS_ITEMS (r : Nat) : Fld := ⟨0x400 + 8 * r, 0, 32, 0⟩
def RINGS_DROPS (r : Nat) : Fld := ⟨0x404 + 8 * r, 0, 32, 0⟩
def RINGS_WR (r : Nat) : Fld := ⟨0x500 + 4 * r, 0, 30, 0⟩
def RINGS_OFF_ITEMS : Fld := ⟨0x580, 0, 32, 0⟩
def RINGS_CMD_EXEC : Fld := ⟨0x584, 0, 32, 0⟩
def RINGS_CMD_ERRORS : Fld := ⟨0x588, 0, 32, 0⟩
def RINGS_STOPPED : Fld := ⟨0x58C, 0, 32, 0⟩
def RINGS_MAP (s : Nat) : Fld := ⟨0xC00 + 4 * s, 0, 5, s⟩

/-! ETH page: R418 -/
def ETH_MODE : Fld := ⟨0x040, 0, 3, 0⟩
def ETH_FEC25 : Fld := ⟨0x040, 4, 2, 2⟩
def ETH_AN_EN : Fld := ⟨0x040, 8, 1, 1⟩
def ETH_PAUSE_EN : Fld := ⟨0x040, 9, 1, 0⟩
def ETH_MTU : Fld := ⟨0x040, 16, 14, 9000⟩
def ETH_MAC (p : Nat) : Fld := ⟨0x080 + 32 * p, 0, 48, 0⟩
def ETH_IPV4 (p : Nat) : Fld := ⟨0x088 + 32 * p, 0, 32, 0⟩
def ETH_IPV6 (p : Nat) (i : Nat) : Fld := ⟨0x08C + 32 * p + 4 * i, 0, 32, 0⟩
def ETH_VLAN (p : Nat) : Fld := ⟨0x09C + 32 * p, 0, 12, 0⟩
def ETH_PCP (p : Nat) : Fld := ⟨0x09C + 32 * p, 12, 3, 0⟩
def ETH_LINK (p : Nat) : Fld := ⟨0x400 + 4 * p, 0, 2, 0⟩
def ETH_TX_PKTS : Fld := ⟨0x410, 0, 64, 0⟩
def ETH_TX_BYTES : Fld := ⟨0x418, 0, 64, 0⟩
def ETH_RX_PKTS : Fld := ⟨0x420, 0, 64, 0⟩
def ETH_RX_FCS : Fld := ⟨0x428, 0, 32, 0⟩
def ETH_FEC_CORR : Fld := ⟨0x42C, 0, 32, 0⟩
def ETH_FEC_UNCORR : Fld := ⟨0x430, 0, 32, 0⟩
def ETH_RX_IGNORED : Fld := ⟨0x434, 0, 32, 0⟩
def ETH_PAUSE_RX : Fld := ⟨0x438, 0, 32, 0⟩
def ETH_LINK_DOWNS : Fld := ⟨0x43C, 0, 32, 0⟩

/-! FLOWS page: R419 -/
def FLOWS_CMD_PORT : Fld := ⟨0x040, 0, 16, 50100⟩
def FLOWS_PKTS (f : Nat) : Fld := ⟨0x400 + 4 * f, 0, 32, 0⟩
def FLOWS_CMD_RX : Fld := ⟨0x480, 0, 32, 0⟩
def FLOWS_CMD_REJECTS : Fld := ⟨0x484, 0, 32, 0⟩
def FLOWS_CMD_DROPS : Fld := ⟨0x488, 0, 32, 0⟩
def FLOWS_DMAC (f : Nat) : Fld := ⟨0xC00 + 32 * f, 0, 48, 0⟩
def FLOWS_ETH (f : Nat) : Fld := ⟨0xC04 + 32 * f, 16, 1, 0⟩
def FLOWS_SUB (f : Nat) : Fld := ⟨0xC04 + 32 * f, 17, 2, 0⟩
def FLOWS_IPV6 (f : Nat) : Fld := ⟨0xC04 + 32 * f, 19, 1, 0⟩
def FLOWS_DSCP (f : Nat) : Fld := ⟨0xC04 + 32 * f, 20, 6, 0⟩
def FLOWS_CMD_OK (f : Nat) : Fld := ⟨0xC04 + 32 * f, 30, 1, 0⟩
def FLOWS_EN (f : Nat) : Fld := ⟨0xC04 + 32 * f, 31, 1, 0⟩
def FLOWS_DPORT (f : Nat) : Fld := ⟨0xC08 + 32 * f, 0, 16, 0⟩
def FLOWS_SPORT (f : Nat) : Fld := ⟨0xC08 + 32 * f, 16, 16, 0⟩
def FLOWS_RATE (f : Nat) : Fld := ⟨0xC0C + 32 * f, 0, 16, 0⟩
def FLOWS_DIP (f : Nat) (i : Nat) : Fld := ⟨0xC10 + 32 * f + 4 * i, 0, 32, 0⟩

/-! BKP page: R436 -/
def BKP_RETAIN (w : Nat) : Fld := ⟨0x040 + 4 * w, 0, 32, 0⟩
def BKP_SECONDS : Fld := ⟨0x400, 0, 48, 0⟩
def BKP_PHASE : Fld := ⟨0x408, 0, 15, 0⟩
def BKP_VALID : Fld := ⟨0x00C, 8, 1, 0⟩
def BKP_OSC_FAIL : Fld := ⟨0x00C, 9, 1, 0⟩
def BKP_VBAT_LOW : Fld := ⟨0x00C, 10, 1, 0⟩

/-! PACE page: R437 -/
def PACE_PWR_EN : Fld := ⟨0x040, 0, 1, 1⟩
def PACE_TEMP_EN : Fld := ⟨0x040, 1, 1, 1⟩
def PACE_ENERGY_EN : Fld := ⟨0x040, 2, 1, 0⟩
def PACE_WEAR_EN : Fld := ⟨0x040, 3, 1, 1⟩
def PACE_AUTO : Fld := ⟨0x040, 4, 1, 1⟩
def PACE_STEPS : Fld := ⟨0x040, 8, 5, 0⟩
def PACE_MAN_STEP : Fld := ⟨0x040, 16, 5, 0⟩
def PACE_PWR_CAP : Fld := ⟨0x044, 0, 18, 55000⟩
def PACE_PWR_AVG_MS : Fld := ⟨0x044, 18, 14, 100⟩
def PACE_T_LIMIT : Fld := ⟨0x048, 0, 16, 13440⟩
def PACE_T_SPAN : Fld := ⟨0x048, 16, 8, 10⟩
def PACE_E_CAP : Fld := ⟨0x04C, 0, 32, 60000⟩
def PACE_EXTRA_MW : Fld := ⟨0x050, 0, 18, 0⟩
def PACE_DOWN_TH : Fld := ⟨0x054, 0, 16, 51⟩
def PACE_UP_TH : Fld := ⟨0x054, 16, 16, 154⟩
def PACE_DOWN_MS : Fld := ⟨0x058, 0, 16, 50⟩
def PACE_UP_MS : Fld := ⟨0x058, 16, 16, 10000⟩
def PACE_DWELL_MS : Fld := ⟨0x05C, 0, 16, 2000⟩
def PACE_GRANT_TH : Fld := ⟨0x060, 0, 16, 102⟩
def PACE_OPP_TH : Fld := ⟨0x060, 16, 16, 256⟩
def PACE_MAX_RUN : Fld := ⟨0x064, 0, 4, 4⟩
def PACE_REPORT_MS : Fld := ⟨0x064, 16, 16, 1000⟩
def PACE_PSTATE : Fld := ⟨0x068, 0, 2, 0⟩
def PACE_WAKE_ALARM_S : Fld := ⟨0x06C, 0, 32, 0⟩
def PACE_WAKE_PIN : Fld := ⟨0x070, 0, 4, 0⟩
def PACE_WAKE_EN : Fld := ⟨0x070, 4, 1, 0⟩
def PACE_JOB_COST_MW : Fld := ⟨0x080, 0, 18, 0⟩
def PACE_JOB_DUR_MS : Fld := ⟨0x084, 0, 24, 0⟩
def PACE_JOB_DEADLINE_S : Fld := ⟨0x088, 0, 24, 0⟩
def PACE_JOB_CLASS : Fld := ⟨0x08C, 0, 2, 2⟩
def PACE_JOB_TAG : Fld := ⟨0x08C, 16, 16, 0⟩
def PACE_JOB_POST : Fld := ⟨0x090, 0, 1, 0⟩
def PACE_JOB_ENTRY : Fld := ⟨0x094, 0, 6, 0⟩
def PACE_JOB_DONE : Fld := ⟨0x094, 8, 1, 0⟩
def PACE_PMBUS_ADDR (r : Nat) : Fld := ⟨0x0A0 + 4 * r, 0, 7, 0⟩
def PACE_PMBUS_PAGE (r : Nat) : Fld := ⟨0x0A0 + 4 * r, 8, 8, 0⟩
def PACE_TELEM_EN (r : Nat) : Fld := ⟨0x0A0 + 4 * r, 16, 1, 0⟩
def PACE_AVS (r : Nat) : Fld := ⟨0x0A0 + 4 * r, 17, 1, 0⟩
def PACE_SLEEP_OFF (r : Nat) : Fld := ⟨0x0A0 + 4 * r, 18, 1, 0⟩
def PACE_STEP : Fld := ⟨0x400, 0, 5, 0⟩
def PACE_LIMITER : Fld := ⟨0x400, 8, 2, 0⟩
def PACE_PSTATE_NOW : Fld := ⟨0x400, 12, 2, 0⟩
def PACE_H : Fld := ⟨0x404, 0, 16, 1024⟩
def PACE_H_PWR : Fld := ⟨0x404, 16, 16, 1024⟩
def PACE_H_TEMP : Fld := ⟨0x408, 0, 16, 1024⟩
def PACE_H_ENERGY : Fld := ⟨0x408, 16, 16, 1024⟩
def PACE_H_WEAR : Fld := ⟨0x40C, 0, 16, 1024⟩
def PACE_P_AVG : Fld := ⟨0x410, 0, 32, 0⟩
def PACE_E_HOUR : Fld := ⟨0x414, 0, 32, 0⟩
def PACE_T_MAX_HUB : Fld := ⟨0x418, 0, 16, 0⟩
def PACE_T_MAX_A : Fld := ⟨0x418, 16, 16, 0⟩
def PACE_T_MAX_B : Fld := ⟨0x41C, 0, 16, 0⟩
def PACE_STEPS_DEEPER : Fld := ⟨0x420, 0, 32, 0⟩
def PACE_STEPS_RELAXED : Fld := ⟨0x424, 0, 32, 0⟩
def PACE_OVER_LIMIT_TICKS : Fld := ⟨0x428, 0, 32, 0⟩
def PACE_JOBS_GRANTED : Fld := ⟨0x42C, 0, 32, 0⟩
def PACE_JOBS_FORCED : Fld := ⟨0x430, 0, 32, 0⟩
def PACE_JOBS_REVOKED : Fld := ⟨0x434, 0, 32, 0⟩
def PACE_JOBS_REFUSED : Fld := ⟨0x438, 0, 32, 0⟩
def PACE_EST_FAILS : Fld := ⟨0x43C, 0, 32, 0⟩
def PACE_PSTATE_REFUSED : Fld := ⟨0x440, 0, 32, 0⟩
def PACE_TICKS : Fld := ⟨0x444, 0, 32, 0⟩
def PACE_J_OWNER (e : Nat) : Fld := ⟨0xC00 + 16 * e, 0, 16, 0⟩
def PACE_J_LINE (e : Nat) : Fld := ⟨0xC00 + 16 * e, 16, 4, 0⟩
def PACE_J_CLASS (e : Nat) : Fld := ⟨0xC00 + 16 * e, 20, 2, 0⟩
def PACE_J_FORCED (e : Nat) : Fld := ⟨0xC00 + 16 * e, 24, 1, 0⟩
def PACE_J_RUNNING (e : Nat) : Fld := ⟨0xC00 + 16 * e, 25, 1, 0⟩
def PACE_J_VALID (e : Nat) : Fld := ⟨0xC00 + 16 * e, 26, 1, 0⟩
def PACE_J_COST (e : Nat) : Fld := ⟨0xC04 + 16 * e, 0, 18, 0⟩
def PACE_J_DUR (e : Nat) : Fld := ⟨0xC08 + 16 * e, 0, 24, 0⟩
def PACE_J_DEADLINE (e : Nat) : Fld := ⟨0xC0C + 16 * e, 0, 32, 0⟩

/-! LPUL page: R472 -/
def LPUL_PATTERN (u : Nat) : Fld := ⟨0x040 + 64 * u, 0, 3, 4⟩
def LPUL_LOOP (u : Nat) : Fld := ⟨0x040 + 64 * u, 4, 2, 0⟩
def LPUL_INVERT (u : Nat) : Fld := ⟨0x040 + 64 * u, 6, 1, 0⟩
def LPUL_DURATION_S (u : Nat) : Fld := ⟨0x040 + 64 * u, 16, 16, 10⟩
def LPUL_USER (u : Nat) : Fld := ⟨0x044 + 64 * u, 0, 80, 0⟩
def LPUL_START (u : Nat) : Fld := ⟨0x050 + 64 * u, 0, 1, 0⟩
def LPUL_STOP (u : Nat) : Fld := ⟨0x050 + 64 * u, 1, 1, 0⟩
def LPUL_INJECT (u : Nat) : Fld := ⟨0x050 + 64 * u, 2, 1, 0⟩
def LPUL_ERRORS (u : Nat) : Fld := ⟨0x404 + 32 * u, 0, 48, 0⟩
def LPUL_BITS (u : Nat) : Fld := ⟨0x40C + 32 * u, 0, 48, 0⟩
def LPUL_LOCK_LOSSES (u : Nat) : Fld := ⟨0x414 + 32 * u, 0, 32, 0⟩
def LPUL_UNIT_STATE (u : Nat) : Fld := ⟨0x400 + 32 * u, 0, 2, 0⟩
def LPUL_VERDICT (u : Nat) : Fld := ⟨0x400 + 32 * u, 2, 2, 0⟩
def LPUL_REFUSED : Fld := ⟨0x5FC, 0, 32, 0⟩

/-! LPUB page: R472 -/
def LPUB_PATTERN (u : Nat) : Fld := ⟨0x040 + 64 * u, 0, 3, 0⟩
def LPUB_RANK (u : Nat) : Fld := ⟨0x040 + 64 * u, 4, 2, 0⟩
def LPUB_SCOPE (u : Nat) : Fld := ⟨0x040 + 64 * u, 8, 1, 0⟩
def LPUB_CE_MASK (u : Nat) : Fld := ⟨0x040 + 64 * u, 16, 4, 1⟩
def LPUB_PAGES (u : Nat) : Fld := ⟨0x040 + 64 * u, 20, 12, 64⟩
def LPUB_USER (u : Nat) : Fld := ⟨0x044 + 64 * u, 0, 64, 0⟩
def LPUB_RAW_MAX (u : Nat) : Fld := ⟨0x04C + 64 * u, 0, 16, 40⟩
def LPUB_START (u : Nat) : Fld := ⟨0x050 + 64 * u, 0, 1, 0⟩
def LPUB_STOP (u : Nat) : Fld := ⟨0x050 + 64 * u, 1, 1, 0⟩
def LPUB_LANE_ERR (u : Nat) : Fld := ⟨0x400 + 32 * u, 4, 9, 0⟩
def LPUB_ERRORS (u : Nat) : Fld := ⟨0x404 + 32 * u, 0, 64, 0⟩
def LPUB_FIRST_FAIL (u : Nat) : Fld := ⟨0x40C + 32 * u, 0, 40, 0⟩
def LPUB_WORST_RAW (u : Nat) : Fld := ⟨0x414 + 32 * u, 0, 16, 0⟩
def LPUB_UNIT_STATE (u : Nat) : Fld := ⟨0x400 + 32 * u, 0, 2, 0⟩
def LPUB_VERDICT (u : Nat) : Fld := ⟨0x400 + 32 * u, 2, 2, 0⟩
def LPUB_REFUSED : Fld := ⟨0x5FC, 0, 32, 0⟩

/-! LPUA page: R472 -/
def LPUA_TONE_MHZ (u : Nat) : Fld := ⟨0x040 + 64 * u, 0, 9, 100⟩
def LPUA_AMP_TOL (u : Nat) : Fld := ⟨0x044 + 64 * u, 0, 16, 128⟩
def LPUA_PH_TOL (u : Nat) : Fld := ⟨0x044 + 64 * u, 16, 16, 546⟩
def LPUA_TI_TOL (u : Nat) : Fld := ⟨0x048 + 64 * u, 0, 8, 5⟩
def LPUA_AMP (u : Nat) (c : Nat) : Fld := ⟨0x404 + 32 * u + 4 * c, 0, 16, 0⟩
def LPUA_PHASE (u : Nat) (c : Nat) : Fld := ⟨0x404 + 32 * u + 4 * c, 16, 16, 0⟩
def LPUA_UNIT_STATE (u : Nat) : Fld := ⟨0x400 + 32 * u, 0, 2, 0⟩
def LPUA_VERDICT (u : Nat) : Fld := ⟨0x400 + 32 * u, 2, 2, 0⟩
def LPUA_REFUSED : Fld := ⟨0x5FC, 0, 32, 0⟩

/-! BIST page: R473 -/
def BIST_BUDGET_MS : Fld := ⟨0x040, 0, 13, 5000⟩
def BIST_SLICE_MS : Fld := ⟨0x040, 16, 8, 50⟩
def BIST_REGIONS : Fld := ⟨0x044, 0, 17, 131071⟩
def BIST_RUN_NOW : Fld := ⟨0x048, 0, 1, 0⟩
def BIST_LAST_MS : Fld := ⟨0x400, 0, 32, 0⟩
def BIST_RUNS : Fld := ⟨0x404, 0, 32, 0⟩
def BIST_VERDICT (g : Nat) : Fld := ⟨0xC00 + 16 * g, 0, 2, 0⟩
def BIST_FIRST_BAD (g : Nat) : Fld := ⟨0xC00 + 16 * g, 8, 4, 0⟩
def BIST_SLICES (g : Nat) : Fld := ⟨0xC04 + 16 * g, 0, 20, 0⟩
def BIST_DURATION_US (g : Nat) : Fld := ⟨0xC08 + 16 * g, 0, 32, 0⟩
def BIST_FAIL_SIG_LO (g : Nat) : Fld := ⟨0xC0C + 16 * g, 0, 32, 0⟩

/-! PACETBL page: R438 -/
def PACETBL_ACT (s : Nat) (a : Nat) : Fld := ⟨0xC00 + 16 * s + 4 * a, 0, 20, 0⟩

end F

/-- The word rows of a THERM page. -/
def rowsTherm : List Row :=
  [⟨F.THERM_TEMP_MEAN, 1, 0, 1, 0, .ro, false, false, []⟩,
   ⟨F.THERM_TEMP_MAX, 1, 0, 1, 0, .ro, false, false, []⟩,
   ⟨F.THERM_VALID, 1, 0, 1, 0, .ro, false, false, []⟩,
   ⟨F.THERM_SENSOR 0, 16, 4, 1, 0, .ro, false, false, []⟩]

/-- The word rows of a BRIDGE page. -/
def rowsBridge : List Row :=
  [⟨F.BRIDGE_RETRAIN, 1, 0, 1, 0, .wo, false, false, []⟩,
   ⟨F.BRIDGE_REPLAY_LIMIT, 1, 0, 1, 0, .rw, false, false, []⟩,
   ⟨F.BRIDGE_READ_TIMEOUT, 1, 0, 1, 0, .rw, false, false, []⟩,
   ⟨F.BRIDGE_LINK_STATE, 1, 0, 1, 0, .ro, false, false, []⟩,
   ⟨F.BRIDGE_HELD_PEAK, 1, 0, 1, 0, .ro, false, false, []⟩,
   ⟨F.BRIDGE_UP_BYTES, 1, 0, 1, 0, .ro, false, true, []⟩,
   ⟨F.BRIDGE_DOWN_BYTES, 1, 0, 1, 0, .ro, false, true, []⟩,
   ⟨F.BRIDGE_REPLAY_COUNT, 1, 0, 1, 0, .ro, false, true, []⟩,
   ⟨F.BRIDGE_RETRAIN_COUNT, 1, 0, 1, 0, .ro, false, true, []⟩,
   ⟨F.BRIDGE_DROP_FRAMES, 1, 0, 1, 0, .ro, false, true, []⟩,
   ⟨F.BRIDGE_READ_TIMEOUTS, 1, 0, 1, 0, .ro, false, true, []⟩]

/-- The word rows of a CAT page. -/
def rowsCat : List Row :=
  [⟨F.CAT_INDEX, 1, 0, 1, 0, .rw, false, false, []⟩,
   ⟨F.CAT_COUNT, 1, 0, 1, 0, .ro, false, false, []⟩]

/-- The word rows of a PKG page. -/
def rowsPkg0 : List Row :=
  [⟨F.PKG_VMAP_VECTOR 0, 64, 4, 1, 0, .rw, false, false, [0, 1, 2, 3, 4, 5, 6, 7, 8, 9, 10, 11, 12, 13, 14, 15, 16, 17, 18, 19, 20, 21, 22, 23, 24, 25, 26, 27, 28, 29, 30, 31, 32, 33, 34, 35, 36, 37, 38, 39, 40, 41, 42, 43, 44, 45, 46, 47, 48, 49, 50, 51, 52, 53, 54, 55, 56, 57, 58, 59, 60, 61, 62, 63]⟩,
   ⟨F.PKG_VMAP_EN 0, 64, 4, 1, 0, .rw, false, false, []⟩,
   ⟨F.PKG_STK_REQ, 1, 0, 1, 0, .w1s, false, false, []⟩,
   ⟨F.PKG_STK_SYSTEM, 1, 0, 1, 0, .rw, false, false, []⟩,
   ⟨F.PKG_STK_RING_OUT, 1, 0, 1, 0, .rw, false, false, []⟩,
   ⟨F.PKG_LAST_EPOCH, 1, 0, 1, 0, .ro, false, false, []⟩,
   ⟨F.PKG_STK_PENDING, 1, 0, 1, 0, .ro, false, false, []⟩,
   ⟨F.PKG_LAST_SYSTEM, 1, 0, 1, 0, .ro, false, false, []⟩,
   ⟨F.PKG_PARTIAL, 1, 0, 1, 0, .ro, false, false, []⟩,
   ⟨F.PKG_SYS_FAILED, 1, 0, 1, 0, .ro, false, false, []⟩,
   ⟨F.PKG_ANSWERED, 1, 0, 1, 0, .ro, false, false, []⟩,
   ⟨F.PKG_STK_TAI_S, 1, 0, 1, 0, .ro, false, false, []⟩,
   ⟨F.PKG_STK_NS, 1, 0, 1, 0, .ro, false, false, []⟩,
   ⟨F.PKG_STK_MERGED, 1, 0, 1, 0, .ro, false, true, []⟩,
   ⟨F.PKG_BAD_ACCESS, 1, 0, 1, 0, .ro, false, true, []⟩,
   ⟨F.PKG_FENCE_ACCESS, 1, 0, 1, 0, .ro, false, true, []⟩,
   ⟨F.PKG_USER_P 0, 7, 4, 1, 0, .rw, false, false, []⟩,
   ⟨F.PKG_USER_DETAIL, 1, 0, 1, 0, .rw, false, false, []⟩,
   ⟨F.PKG_USER_GO, 1, 0, 1, 0, .wo, false, false, []⟩,
   ⟨F.PKG_NEXT_ACC, 1, 0, 1, 0, .ro, false, false, []⟩]
def rowsPkg1 : List Row :=
  [⟨F.PKG_RSV_END, 1, 0, 1, 0, .ro, false, false, []⟩,
   ⟨F.PKG_ENTRIES, 1, 0, 1, 0, .ro, false, true, []⟩,
   ⟨F.PKG_LEDGER_LOST, 1, 0, 1, 0, .ro, false, true, []⟩,
   ⟨F.PKG_BUF_LEVEL, 1, 0, 1, 0, .ro, false, false, []⟩,
   ⟨F.PKG_RESEEDS, 1, 0, 1, 0, .ro, false, true, []⟩,
   ⟨F.PKG_KEY, 1, 0, 1, 0, .wo, false, false, []⟩,
   ⟨F.PKG_WARM_RESET, 1, 0, 1, 0, .wo, false, false, []⟩,
   ⟨F.PKG_SHUTDOWN, 1, 0, 1, 0, .wo, false, false, []⟩,
   ⟨F.PKG_LC_ADVANCE, 1, 0, 1, 0, .wo, false, false, []⟩,
   ⟨F.PKG_LINE_RESET, 1, 0, 1, 0, .wo, false, false, []⟩,
   ⟨F.PKG_LR_KEY, 1, 0, 1, 0, .wo, false, false, []⟩,
   ⟨F.PKG_WDOG_MS, 1, 0, 1, 0, .rw, false, false, []⟩,
   ⟨F.PKG_WDOG_EN, 1, 0, 1, 0, .rw, false, false, []⟩,
   ⟨F.PKG_WDOG_LIMIT, 1, 0, 1, 0, .rw, false, false, []⟩,
   ⟨F.PKG_WDOG_KICK, 1, 0, 1, 0, .wo, false, false, []⟩,
   ⟨F.PKG_LINE_AUTO_S, 1, 0, 1, 0, .rw, false, false, []⟩,
   ⟨F.PKG_LC_TARGET, 1, 0, 1, 0, .rw, false, false, []⟩,
   ⟨F.PKG_CERT_ADDR, 1, 0, 1, 0, .rw, false, false, []⟩,
   ⟨F.PKG_OFF_ALARM_S, 1, 0, 1, 0, .rw, false, false, []⟩,
   ⟨F.PKG_RESET_CAUSE, 1, 0, 1, 0, .ro, false, false, []⟩]
def rowsPkg2 : List Row :=
  [⟨F.PKG_LC_STATE, 1, 0, 1, 0, .ro, false, false, []⟩,
   ⟨F.PKG_BOOT_STAGE, 1, 0, 1, 0, .ro, false, false, []⟩,
   ⟨F.PKG_BOOT_SLOT, 1, 0, 1, 0, .ro, false, false, []⟩,
   ⟨F.PKG_TRIP_SEEN, 1, 0, 1, 0, .ro, false, false, []⟩,
   ⟨F.PKG_UNCLEAN, 1, 0, 1, 0, .ro, false, false, []⟩,
   ⟨F.PKG_LC_ERR, 1, 0, 1, 0, .ro, false, false, []⟩,
   ⟨F.PKG_LINE_RESET_ERR, 1, 0, 1, 0, .ro, false, false, []⟩,
   ⟨F.PKG_BOOT_MS, 1, 0, 1, 0, .ro, false, false, []⟩,
   ⟨F.PKG_PKG_ID, 1, 0, 1, 0, .ro, false, false, []⟩,
   ⟨F.PKG_PKG_INDEX, 1, 0, 1, 0, .ro, false, false, []⟩,
   ⟨F.PKG_WDOG_EXPIRIES, 1, 0, 1, 0, .ro, false, true, []⟩,
   ⟨F.PKG_MGMT_RESETS, 1, 0, 1, 0, .ro, false, true, []⟩,
   ⟨F.PKG_LINE_RESETS, 1, 0, 1, 0, .ro, false, true, []⟩,
   ⟨F.PKG_TESTED, 1, 0, 1, 0, .ro, false, false, []⟩,
   ⟨F.PKG_LINE_FAILED, 1, 0, 1, 0, .ro, false, false, []⟩,
   ⟨F.PKG_VEC_REARM, 1, 0, 1, 0, .wo, false, false, []⟩]
/-- All word rows of a PKG page. -/
def rowsPkg : List Row := rowsPkg0 ++ rowsPkg1 ++ rowsPkg2

/-- The word rows of a LINE page. -/
def rowsLine0 : List Row :=
  [⟨F.LINE_RUN, 1, 0, 1, 0, .st, true, false, []⟩,
   ⟨F.LINE_TIMING, 1, 0, 1, 0, .st, true, false, []⟩,
   ⟨F.LINE_FINE, 1, 0, 1, 0, .st, true, false, []⟩,
   ⟨F.LINE_MODE, 1, 0, 1, 0, .st, true, false, []⟩,
   ⟨F.LINE_SLOTS, 1, 0, 1, 0, .st, true, false, []⟩,
   ⟨F.LINE_PLAN_CYCLE, 1, 0, 1, 0, .st, true, false, []⟩,
   ⟨F.LINE_PERIOD, 1, 0, 1, 0, .st, true, false, []⟩,
   ⟨F.LINE_GRID_PHASE, 1, 0, 1, 0, .st, true, false, []⟩,
   ⟨F.LINE_RANGE, 1, 0, 1, 0, .st, true, false, []⟩,
   ⟨F.LINE_GROUP_INDEX, 1, 0, 1, 0, .st, true, false, []⟩,
   ⟨F.LINE_PAUSE, 1, 0, 1, 0, .st, false, false, []⟩,
   ⟨F.LINE_FREQ 0, 8, 4, 1, 0, .st, true, false, []⟩,
   ⟨F.LINE_RATE 0, 8, 4, 1, 0, .st, true, false, []⟩,
   ⟨F.LINE_REASON, 1, 0, 1, 0, .ro, false, false, []⟩,
   ⟨F.LINE_CHECK_SLOT, 1, 0, 1, 0, .ro, false, false, []⟩,
   ⟨F.LINE_CHECK_PAGE, 1, 0, 1, 0, .ro, false, false, []⟩,
   ⟨F.LINE_PLAN_ID, 1, 0, 1, 0, .ro, false, false, []⟩,
   ⟨F.LINE_SHOT_NO, 1, 0, 1, 0, .ro, false, false, []⟩,
   ⟨F.LINE_NEXT_PB_S, 1, 0, 1, 0, .ro, false, false, []⟩,
   ⟨F.LINE_NEXT_PB_NS, 1, 0, 1, 0, .ro, false, false, []⟩]
def rowsLine1 : List Row :=
  [⟨F.LINE_NEXT_L0_S, 1, 0, 1, 0, .ro, false, false, []⟩,
   ⟨F.LINE_NEXT_L0_NS, 1, 0, 1, 0, .ro, false, false, []⟩,
   ⟨F.LINE_COMMITS, 1, 0, 1, 0, .ro, false, true, []⟩,
   ⟨F.LINE_LATE_COMMITS, 1, 0, 1, 0, .ro, false, true, []⟩,
   ⟨F.LINE_PLAN_REJECTS, 1, 0, 1, 0, .ro, false, true, []⟩,
   ⟨F.LINE_PLAN_CHANGES, 1, 0, 1, 0, .ro, false, true, []⟩,
   ⟨F.LINE_SYNC_LOSSES, 1, 0, 1, 0, .ro, false, true, []⟩,
   ⟨F.LINE_SHOTS, 1, 0, 1, 0, .ro, false, true, []⟩,
   ⟨F.LINE_SKIPPED, 1, 0, 1, 0, .ro, false, true, []⟩,
   ⟨F.LINE_CANCELS, 1, 0, 1, 0, .ro, false, true, []⟩,
   ⟨F.LINE_COMMIT_SHOT, 1, 0, 1, 0, .wo, false, false, []⟩,
   ⟨F.LINE_CANCEL, 1, 0, 1, 0, .wo, false, false, []⟩,
   ⟨F.LINE_SYNC_LOST, 1, 0, 1, 0, .ro, false, false, []⟩,
   ⟨F.LINE_ST_FINE, 1, 0, 1, 0, .ro, false, false, []⟩,
   ⟨F.LINE_DEGRADED, 1, 0, 1, 0, .ro, false, false, []⟩,
   ⟨F.LINE_PLAN_PENDING, 1, 0, 1, 0, .ro, false, false, []⟩,
   ⟨F.LINE_SHOT_PENDING, 1, 0, 1, 0, .ro, false, false, []⟩,
   ⟨F.LINE_TIMELINE, 1, 0, 1, 0, .ro, false, false, []⟩,
   ⟨F.LINE_IN_GAP, 1, 0, 1, 0, .ro, false, false, []⟩,
   ⟨F.LINE_PAUSE_REG, 1, 0, 1, 0, .ro, false, false, []⟩]
def rowsLine2 : List Row :=
  [⟨F.LINE_PAUSE_PACE, 1, 0, 1, 0, .ro, false, false, []⟩,
   ⟨F.LINE_SAFE_COND, 1, 0, 1, 0, .ro, false, false, []⟩]
/-- All word rows of a LINE page. -/
def rowsLine : List Row := rowsLine0 ++ rowsLine1 ++ rowsLine2

/-- The word rows of a STARTER page. -/
def rowsStarter0 : List Row :=
  [⟨F.STARTER_PROBE_OPEN, 1, 0, 1, 0, .ro, false, false, []⟩,
   ⟨F.STARTER_PROBE_LOSS, 1, 0, 1, 0, .ro, false, false, []⟩,
   ⟨F.STARTER_BREAK_RUN, 1, 0, 1, 0, .ro, false, false, []⟩,
   ⟨F.STARTER_DERATING, 1, 0, 1, 0, .ro, false, false, []⟩,
   ⟨F.STARTER_LAST_UNDECIDED, 1, 0, 1, 0, .ro, false, false, []⟩,
   ⟨F.STARTER_END_VALID, 1, 0, 1, 0, .ro, false, false, []⟩,
   ⟨F.STARTER_SRC_INVALID, 1, 0, 1, 0, .ro, false, false, []⟩,
   ⟨F.STARTER_PGATE_POL, 1, 0, 1, 0, .st, true, false, []⟩,
   ⟨F.STARTER_TGATE_POL, 1, 0, 1, 0, .st, true, false, []⟩,
   ⟨F.STARTER_TGATE_EN, 1, 0, 1, 0, .st, true, false, []⟩,
   ⟨F.STARTER_LEVEL, 1, 0, 1, 0, .st, false, false, []⟩,
   ⟨F.STARTER_LEAD, 1, 0, 1, 0, .st, false, false, []⟩,
   ⟨F.STARTER_TAIL, 1, 0, 1, 0, .st, false, false, []⟩,
   ⟨F.STARTER_OFFSET, 1, 0, 1, 0, .st, false, false, []⟩,
   ⟨F.STARTER_TG_OFFSET, 1, 0, 1, 0, .st, false, false, []⟩,
   ⟨F.STARTER_TG_WIDTH, 1, 0, 1, 0, .st, false, false, []⟩,
   ⟨F.STARTER_DURATION 0, 8, 8, 1, 0, .st, true, false, []⟩,
   ⟨F.STARTER_SHAPE 0, 8, 8, 1, 0, .st, true, false, []⟩,
   ⟨F.STARTER_CHIRP_BW 0, 8, 8, 1, 0, .st, true, false, []⟩,
   ⟨F.STARTER_AMP 0, 8, 8, 1, 0, .st, false, false, []⟩]
def rowsStarter1 : List Row :=
  [⟨F.STARTER_CONFIRM, 1, 0, 1, 0, .st, false, false, []⟩,
   ⟨F.STARTER_OPEN_FRAC, 1, 0, 1, 0, .st, false, false, []⟩,
   ⟨F.STARTER_DIAG_EN, 1, 0, 1, 0, .st, false, false, []⟩,
   ⟨F.STARTER_Q_EXP, 1, 0, 1, 0, .st, false, false, []⟩,
   ⟨F.STARTER_LOSS_FLOOR, 1, 0, 1, 0, .st, false, false, []⟩,
   ⟨F.STARTER_LOSS_DELAY, 1, 0, 1, 0, .st, false, false, []⟩,
   ⟨F.STARTER_LOSS_SAFE, 1, 0, 1, 0, .st, false, false, []⟩,
   ⟨F.STARTER_BREAK_MIN, 1, 0, 1, 0, .st, false, false, []⟩,
   ⟨F.STARTER_END_FLOOR, 1, 0, 1, 0, .st, false, false, []⟩,
   ⟨F.STARTER_END_LEARN, 1, 0, 1, 0, .st, false, false, []⟩,
   ⟨F.STARTER_END_REF, 1, 0, 1, 0, .st, false, false, []⟩,
   ⟨F.STARTER_SAFE_LEVEL, 1, 0, 1, 0, .st, false, false, []⟩,
   ⟨F.STARTER_SAFE_HOLD, 1, 0, 1, 0, .st, false, false, []⟩,
   ⟨F.STARTER_TEMP_SRC, 1, 0, 1, 0, .st, false, false, []⟩,
   ⟨F.STARTER_DERATE_EN, 1, 0, 1, 0, .st, false, false, []⟩,
   ⟨F.STARTER_DERATE_MIN, 1, 0, 1, 0, .st, false, false, []⟩,
   ⟨F.STARTER_DERATE_T, 1, 0, 1, 0, .st, false, false, []⟩,
   ⟨F.STARTER_DERATE_SLOPE, 1, 0, 1, 0, .st, false, false, []⟩,
   ⟨F.STARTER_SPLIT_SRC, 1, 0, 1, 0, .st, false, false, []⟩,
   ⟨F.STARTER_LMON_TH, 1, 0, 1, 0, .st, false, false, []⟩]
def rowsStarter2 : List Row :=
  [⟨F.STARTER_LEVEL_OUT, 1, 0, 1, 0, .ro, false, false, []⟩,
   ⟨F.STARTER_LEVEL_LIMIT, 1, 0, 1, 0, .ro, false, false, []⟩,
   ⟨F.STARTER_LAST_Q, 1, 0, 1, 0, .ro, false, false, []⟩,
   ⟨F.STARTER_LAST_VERDICT, 1, 0, 1, 0, .ro, false, false, []⟩,
   ⟨F.STARTER_FAIL_RUN, 1, 0, 1, 0, .ro, false, false, []⟩,
   ⟨F.STARTER_END_NOW, 1, 0, 1, 0, .ro, false, false, []⟩,
   ⟨F.STARTER_END_REF_USED, 1, 0, 1, 0, .ro, false, false, []⟩,
   ⟨F.STARTER_RETURN_P, 1, 0, 1, 0, .ro, false, false, []⟩,
   ⟨F.STARTER_DIM_RUN, 1, 0, 1, 0, .ro, false, false, []⟩,
   ⟨F.STARTER_SPLIT_MEAN, 1, 0, 1, 0, .ro, false, false, []⟩,
   ⟨F.STARTER_SPLIT_SD, 1, 0, 1, 0, .ro, false, false, []⟩,
   ⟨F.STARTER_SPLIT_USED, 1, 0, 1, 0, .ro, false, false, []⟩,
   ⟨F.STARTER_VERDICTS_OK, 1, 0, 1, 0, .ro, false, true, []⟩,
   ⟨F.STARTER_VERDICTS_FAIL, 1, 0, 1, 0, .ro, false, true, []⟩,
   ⟨F.STARTER_VERDICTS_UNDECIDED, 1, 0, 1, 0, .ro, false, true, []⟩,
   ⟨F.STARTER_DIAG_RESTARTS, 1, 0, 1, 0, .ro, false, true, []⟩,
   ⟨F.STARTER_PROBE_OPENS, 1, 0, 1, 0, .ro, false, true, []⟩,
   ⟨F.STARTER_LOSS_ENTRIES, 1, 0, 1, 0, .ro, false, true, []⟩,
   ⟨F.STARTER_SAFE_ENTRIES, 1, 0, 1, 0, .ro, false, true, []⟩,
   ⟨F.STARTER_DAC_CLIPS, 1, 0, 1, 0, .ro, false, true, []⟩]
def rowsStarter3 : List Row :=
  [⟨F.STARTER_DERATE_ENTRIES, 1, 0, 1, 0, .ro, false, true, []⟩,
   ⟨F.STARTER_PULSES, 1, 0, 1, 0, .ro, false, true, []⟩]
/-- All word rows of a STARTER page. -/
def rowsStarter : List Row := rowsStarter0 ++ rowsStarter1 ++ rowsStarter2 ++ rowsStarter3

/-- The word rows of a RX page. -/
def rowsRx0 : List Row :=
  [⟨F.RX_SPARE_READY, 1, 0, 1, 0, .ro, false, false, []⟩,
   ⟨F.RX_SPARE_IN_USE, 1, 0, 1, 0, .ro, false, false, []⟩,
   ⟨F.RX_POL_X_LOST, 1, 0, 1, 0, .ro, false, false, []⟩,
   ⟨F.RX_POL_Y_LOST, 1, 0, 1, 0, .ro, false, false, []⟩,
   ⟨F.RX_GAIN, 1, 0, 1, 0, .st, false, false, []⟩,
   ⟨F.RX_GREF, 1, 0, 1, 0, .st, true, false, []⟩,
   ⟨F.RX_AR_EN, 1, 0, 1, 0, .st, false, false, []⟩,
   ⟨F.RX_AR_MAXDEPTH, 1, 0, 1, 0, .st, false, false, []⟩,
   ⟨F.RX_AR_HOLD, 1, 0, 1, 0, .st, false, false, []⟩,
   ⟨F.RX_SCHED_EN, 1, 0, 1, 0, .st, true, false, []⟩,
   ⟨F.RX_SCHED_COUNT, 1, 0, 1, 0, .st, false, false, []⟩,
   ⟨F.RX_FAIL_CORE, 1, 0, 1, 0, .wo, false, false, []⟩,
   ⟨F.RX_REQUAL, 1, 0, 1, 0, .wo, false, false, []⟩,
   ⟨F.RX_STUCK_FAIL, 1, 0, 1, 0, .rw, false, false, []⟩,
   ⟨F.RX_STAT_LEN, 1, 0, 1, 0, .rw, false, false, []⟩,
   ⟨F.RX_OFFSET 0, 16, 4, 1, 0, .st, false, false, []⟩,
   ⟨F.RX_CODE 0, 16, 4, 1, 0, .st, false, false, []⟩,
   ⟨F.RX_GAIN_NOW, 1, 0, 1, 0, .ro, false, false, []⟩,
   ⟨F.RX_AR_DEPTH, 1, 0, 1, 0, .ro, false, false, []⟩,
   ⟨F.RX_GAIN_DLY, 1, 0, 1, 0, .ro, false, false, []⟩]
def rowsRx1 : List Row :=
  [⟨F.RX_CORE_XI, 1, 0, 1, 0, .ro, false, false, []⟩,
   ⟨F.RX_CORE_XQ, 1, 0, 1, 0, .ro, false, false, []⟩,
   ⟨F.RX_CORE_YI, 1, 0, 1, 0, .ro, false, false, []⟩,
   ⟨F.RX_CORE_YQ, 1, 0, 1, 0, .ro, false, false, []⟩,
   ⟨F.RX_CORE_SPARE, 1, 0, 1, 0, .ro, false, false, []⟩,
   ⟨F.RX_FAILED, 1, 0, 1, 0, .ro, false, false, []⟩,
   ⟨F.RX_STEPS_SCHED, 1, 0, 1, 0, .ro, false, true, []⟩,
   ⟨F.RX_STEPS_AR_DOWN, 1, 0, 1, 0, .ro, false, true, []⟩,
   ⟨F.RX_STEPS_AR_UP, 1, 0, 1, 0, .ro, false, true, []⟩,
   ⟨F.RX_SLIPS, 1, 0, 1, 0, .ro, false, true, []⟩,
   ⟨F.RX_FLOOR_HITS, 1, 0, 1, 0, .ro, false, true, []⟩,
   ⟨F.RX_SUBSTITUTIONS, 1, 0, 1, 0, .ro, false, true, []⟩,
   ⟨F.RX_STUCK_WINDOWS, 1, 0, 1, 0, .ro, false, true, []⟩,
   ⟨F.RX_REQUAL_PASS, 1, 0, 1, 0, .ro, false, true, []⟩,
   ⟨F.RX_REQUAL_FAIL, 1, 0, 1, 0, .ro, false, true, []⟩,
   ⟨F.RX_MEAN 0, 5, 16, 1, 0, .ro, false, false, []⟩,
   ⟨F.RX_MIN 0, 5, 16, 1, 0, .ro, false, false, []⟩,
   ⟨F.RX_MAX 0, 5, 16, 1, 0, .ro, false, false, []⟩,
   ⟨F.RX_OVR 0, 5, 16, 1, 0, .ro, false, false, []⟩,
   ⟨F.RX_WIN_SEQ 0, 5, 16, 1, 0, .ro, false, false, []⟩]
/-- All word rows of a RX page. -/
def rowsRx : List Row := rowsRx0 ++ rowsRx1

/-- The word rows of a THRX page. -/
def rowsThrx : List Row :=
  [⟨F.THRX_TEST_I, 1, 0, 1, 0, .rw, false, false, []⟩,
   ⟨F.THRX_STAT_LEN, 1, 0, 1, 0, .rw, false, false, []⟩,
   ⟨F.THRX_MEAN 0, 2, 16, 1, 0, .ro, false, false, []⟩,
   ⟨F.THRX_MIN 0, 2, 16, 1, 0, .ro, false, false, []⟩,
   ⟨F.THRX_MAX 0, 2, 16, 1, 0, .ro, false, false, []⟩,
   ⟨F.THRX_OVR 0, 2, 16, 1, 0, .ro, false, false, []⟩,
   ⟨F.THRX_WIN_SEQ 0, 2, 16, 1, 0, .ro, false, false, []⟩]

/-- The word rows of a SLOT page. -/
def rowsSlot0 : List Row :=
  [⟨F.SLOT_LIVE_BANK, 1, 0, 1, 0, .ro, false, false, []⟩,
   ⟨F.SLOT_SEALED0, 1, 0, 1, 0, .ro, false, false, []⟩,
   ⟨F.SLOT_SEALED1, 1, 0, 1, 0, .ro, false, false, []⟩,
   ⟨F.SLOT_RUNNING0, 1, 0, 1, 0, .ro, false, false, []⟩,
   ⟨F.SLOT_RUNNING1, 1, 0, 1, 0, .ro, false, false, []⟩,
   ⟨F.SLOT_TAPS, 1, 0, 1, 0, .st, true, false, []⟩,
   ⟨F.SLOT_BANK, 1, 0, 1, 0, .st, true, false, []⟩,
   ⟨F.SLOT_SHIFT, 1, 0, 1, 0, .st, true, false, []⟩,
   ⟨F.SLOT_POL_MODE, 1, 0, 1, 0, .st, true, false, []⟩,
   ⟨F.SLOT_POL_K, 1, 0, 1, 0, .st, true, false, []⟩,
   ⟨F.SLOT_WBANK, 1, 0, 1, 0, .rw, false, false, []⟩,
   ⟨F.SLOT_SEAL, 1, 0, 1, 0, .wo, false, false, []⟩,
   ⟨F.SLOT_NCO_WORD, 1, 0, 1, 0, .ro, false, false, []⟩,
   ⟨F.SLOT_BINS, 1, 0, 1, 0, .ro, false, false, []⟩,
   ⟨F.SLOT_TAP_LIMIT, 1, 0, 1, 0, .ro, false, false, []⟩,
   ⟨F.SLOT_LAUNCHES, 1, 0, 1, 0, .ro, false, true, []⟩,
   ⟨F.SLOT_SKIPS, 1, 0, 1, 0, .ro, false, true, []⟩,
   ⟨F.SLOT_BINS_OUT, 1, 0, 1, 0, .ro, false, true, []⟩,
   ⟨F.SLOT_BINS_UNSETTLED, 1, 0, 1, 0, .ro, false, true, []⟩,
   ⟨F.SLOT_ACC_SATS, 1, 0, 1, 0, .ro, false, true, []⟩]
def rowsSlot1 : List Row :=
  [⟨F.SLOT_OUT_SATS, 1, 0, 1, 0, .ro, false, true, []⟩,
   ⟨F.SLOT_TAIL_BINS, 1, 0, 1, 0, .ro, false, true, []⟩,
   ⟨F.SLOT_COEF_REFUSED, 1, 0, 1, 0, .ro, false, true, []⟩,
   ⟨F.SLOT_CLEARS, 1, 0, 1, 0, .ro, false, true, []⟩]
/-- All word rows of a SLOT page. -/
def rowsSlot : List Row := rowsSlot0 ++ rowsSlot1

/-- The word rows of a GAUGE page. -/
def rowsGauge : List Row :=
  [⟨F.GAUGE_G, 1, 0, 1, 0, .st, true, false, []⟩,
   ⟨F.GAUGE_MERGE_K, 1, 0, 1, 0, .st, true, false, []⟩,
   ⟨F.GAUGE_POSITIONS, 1, 0, 1, 0, .ro, false, false, []⟩,
   ⟨F.GAUGE_MERGED, 1, 0, 1, 0, .ro, false, true, []⟩,
   ⟨F.GAUGE_RESYNCS, 1, 0, 1, 0, .ro, false, true, []⟩,
   ⟨F.GAUGE_SKIPPED_SAMPLES, 1, 0, 1, 0, .ro, false, true, []⟩,
   ⟨F.GAUGE_CLEARS, 1, 0, 1, 0, .ro, false, true, []⟩,
   ⟨F.GAUGE_NULL_SUMS, 1, 0, 1, 0, .ro, false, true, []⟩]

/-- The word rows of a RESAMP page. -/
def rowsResamp : List Row :=
  [⟨F.RESAMP_STEP, 1, 0, 1, 0, .st, true, false, []⟩,
   ⟨F.RESAMP_ORIGIN, 1, 0, 1, 0, .st, true, false, []⟩,
   ⟨F.RESAMP_SPACING, 1, 0, 1, 0, .st, true, false, []⟩,
   ⟨F.RESAMP_CHANNELS, 1, 0, 1, 0, .st, true, false, []⟩,
   ⟨F.RESAMP_FIBRE_START, 1, 0, 1, 0, .st, true, false, []⟩,
   ⟨F.RESAMP_LAUNCH_TRIM, 1, 0, 1, 0, .st, true, false, []⟩,
   ⟨F.RESAMP_FIRST_SETTLED, 1, 0, 1, 0, .ro, false, false, []⟩,
   ⟨F.RESAMP_LAST_SETTLED, 1, 0, 1, 0, .ro, false, false, []⟩,
   ⟨F.RESAMP_I_OUT, 1, 0, 1, 0, .ro, false, false, []⟩,
   ⟨F.RESAMP_TAU0, 1, 0, 1, 0, .ro, false, false, []⟩,
   ⟨F.RESAMP_A_DIV, 1, 0, 1, 0, .ro, false, false, []⟩,
   ⟨F.RESAMP_OUT_SATS, 1, 0, 1, 0, .ro, false, true, []⟩]

/-- The word rows of a FRAME page. -/
def rowsFrame0 : List Row :=
  [⟨F.FRAME_KIND, 1, 0, 1, 0, .st, true, false, []⟩,
   ⟨F.FRAME_PSCALE, 1, 0, 1, 0, .st, true, false, []⟩,
   ⟨F.FRAME_Q_CODE, 1, 0, 1, 0, .st, true, false, []⟩,
   ⟨F.FRAME_Q_EN, 1, 0, 1, 0, .st, true, false, []⟩,
   ⟨F.FRAME_A_EN, 1, 0, 1, 0, .st, true, false, []⟩,
   ⟨F.FRAME_M_EN, 1, 0, 1, 0, .st, true, false, []⟩,
   ⟨F.FRAME_Q_BASE, 1, 0, 1, 0, .st, false, false, []⟩,
   ⟨F.FRAME_FREEZE_N, 1, 0, 1, 0, .rw, false, false, []⟩,
   ⟨F.FRAME_FREEZE_EN, 1, 0, 1, 0, .rw, false, false, []⟩,
   ⟨F.FRAME_WAVELENGTH, 1, 0, 1, 0, .rw, false, false, []⟩,
   ⟨F.FRAME_XI, 1, 0, 1, 0, .rw, false, false, []⟩,
   ⟨F.FRAME_FRAME_NO, 1, 0, 1, 0, .ro, false, false, []⟩,
   ⟨F.FRAME_FRAMES, 1, 0, 1, 0, .ro, false, true, []⟩,
   ⟨F.FRAME_LAST_CRC, 1, 0, 1, 0, .ro, false, false, []⟩,
   ⟨F.FRAME_FRZ_BLOCKS, 1, 0, 1, 0, .ro, false, false, []⟩,
   ⟨F.FRAME_STRAIN_LSB, 1, 0, 1, 0, .ro, false, false, []⟩,
   ⟨F.FRAME_DROPPED, 1, 0, 1, 0, .ro, false, true, []⟩,
   ⟨F.FRAME_FROZEN_FRAMES, 1, 0, 1, 0, .ro, false, true, []⟩,
   ⟨F.FRAME_GAP_FRAMES, 1, 0, 1, 0, .ro, false, true, []⟩,
   ⟨F.FRAME_UNSETTLED_FRAMES, 1, 0, 1, 0, .ro, false, true, []⟩]
def rowsFrame1 : List Row :=
  [⟨F.FRAME_PLAN_CHANGE_FRAMES, 1, 0, 1, 0, .ro, false, true, []⟩]
/-- All word rows of a FRAME page. -/
def rowsFrame : List Row := rowsFrame0 ++ rowsFrame1

/-- The word rows of a STACK page. -/
def rowsStack0 : List Row :=
  [⟨F.STACK_EN, 1, 0, 1, 0, .st, true, false, []⟩,
   ⟨F.STACK_PRE_J, 1, 0, 1, 0, .st, true, false, []⟩,
   ⟨F.STACK_SHIFT, 1, 0, 1, 0, .st, true, false, []⟩,
   ⟨F.STACK_STACK_K, 1, 0, 1, 0, .st, true, false, []⟩,
   ⟨F.STACK_SOLVE, 1, 0, 1, 0, .st, true, false, []⟩,
   ⟨F.STACK_START, 1, 0, 1, 0, .st, true, false, []⟩,
   ⟨F.STACK_BINS, 1, 0, 1, 0, .st, true, false, []⟩,
   ⟨F.STACK_BG_BINS, 1, 0, 1, 0, .st, true, false, []⟩,
   ⟨F.STACK_FIBRE_START_T, 1, 0, 1, 0, .st, true, false, []⟩,
   ⟨F.STACK_OVEN_FIRST, 1, 0, 1, 0, .st, true, false, []⟩,
   ⟨F.STACK_OVEN_LAST, 1, 0, 1, 0, .st, true, false, []⟩,
   ⟨F.STACK_AMB_FIRST, 1, 0, 1, 0, .st, true, false, []⟩,
   ⟨F.STACK_AMB_LAST, 1, 0, 1, 0, .st, true, false, []⟩,
   ⟨F.STACK_OVEN_SRC, 1, 0, 1, 0, .st, false, false, []⟩,
   ⟨F.STACK_AMB_SRC, 1, 0, 1, 0, .st, false, false, []⟩,
   ⟨F.STACK_GAMMA, 1, 0, 1, 0, .st, true, false, []⟩,
   ⟨F.STACK_LNC_SEED, 1, 0, 1, 0, .rw, false, false, []⟩,
   ⟨F.STACK_DALPHA_SEED, 1, 0, 1, 0, .rw, false, false, []⟩,
   ⟨F.STACK_SEED, 1, 0, 1, 0, .wo, false, false, []⟩,
   ⟨F.STACK_ALM_RESTORE, 1, 0, 1, 0, .rw, false, false, []⟩]
def rowsStack1 : List Row :=
  [⟨F.STACK_SPREAD_MAX, 1, 0, 1, 0, .st, false, false, []⟩,
   ⟨F.STACK_CHECK_MAX, 1, 0, 1, 0, .st, false, false, []⟩,
   ⟨F.STACK_MIN_FILL, 1, 0, 1, 0, .st, false, false, []⟩,
   ⟨F.STACK_DLNC_MAX, 1, 0, 1, 0, .st, false, false, []⟩,
   ⟨F.STACK_DDA_MAX, 1, 0, 1, 0, .st, false, false, []⟩,
   ⟨F.STACK_RISE_TH, 1, 0, 1, 0, .st, false, false, []⟩,
   ⟨F.STACK_TAU, 1, 0, 1, 0, .st, false, false, []⟩,
   ⟨F.STACK_K_T, 1, 0, 1, 0, .st, false, false, []⟩,
   ⟨F.STACK_SUSPECT_K, 1, 0, 1, 0, .st, false, false, []⟩,
   ⟨F.STACK_DREF_FIRST, 1, 0, 1, 0, .st, true, false, []⟩,
   ⟨F.STACK_DREF_LAST, 1, 0, 1, 0, .st, true, false, []⟩,
   ⟨F.STACK_DREF_EN, 1, 0, 1, 0, .st, true, false, []⟩,
   ⟨F.STACK_T_EN, 1, 0, 1, 0, .st, true, false, []⟩,
   ⟨F.STACK_R_EN, 1, 0, 1, 0, .st, true, false, []⟩,
   ⟨F.STACK_X_EN, 1, 0, 1, 0, .st, true, false, []⟩,
   ⟨F.STACK_M_EN, 1, 0, 1, 0, .st, true, false, []⟩,
   ⟨F.STACK_S_EN, 1, 0, 1, 0, .st, true, false, []⟩,
   ⟨F.STACK_RD_BASE, 1, 0, 1, 0, .rw, false, false, []⟩,
   ⟨F.STACK_STACK_NO, 1, 0, 1, 0, .ro, false, false, []⟩,
   ⟨F.STACK_COUNTED, 1, 0, 1, 0, .ro, false, false, []⟩]
def rowsStack2 : List Row :=
  [⟨F.STACK_CONST_STATE, 1, 0, 1, 0, .ro, false, false, []⟩,
   ⟨F.STACK_LAST_REASON, 1, 0, 1, 0, .ro, false, false, []⟩,
   ⟨F.STACK_REJECT_RUN, 1, 0, 1, 0, .ro, false, false, []⟩,
   ⟨F.STACK_LNC_LIVE, 1, 0, 1, 0, .ro, false, false, []⟩,
   ⟨F.STACK_DALPHA_LIVE, 1, 0, 1, 0, .ro, false, false, []⟩,
   ⟨F.STACK_OVEN_T, 1, 0, 1, 0, .ro, false, false, []⟩,
   ⟨F.STACK_AMB_T, 1, 0, 1, 0, .ro, false, false, []⟩,
   ⟨F.STACK_MISSED_SHOTS, 1, 0, 1, 0, .ro, false, true, []⟩,
   ⟨F.STACK_STALE_SHOTS, 1, 0, 1, 0, .ro, false, true, []⟩,
   ⟨F.STACK_VSATS, 1, 0, 1, 0, .ro, false, true, []⟩,
   ⟨F.STACK_NO_VALUE_BINS, 1, 0, 1, 0, .ro, false, false, []⟩,
   ⟨F.STACK_ACCEPTS, 1, 0, 1, 0, .ro, false, true, []⟩,
   ⟨F.STACK_REJECTS, 1, 0, 1, 0, .ro, false, true, []⟩,
   ⟨F.STACK_SUSPECT_CHANNELS, 1, 0, 1, 0, .ro, false, false, []⟩,
   ⟨F.STACK_RISE_BINS, 1, 0, 1, 0, .ro, false, false, []⟩,
   ⟨F.STACK_FIRST_RISE, 1, 0, 1, 0, .ro, false, false, []⟩,
   ⟨F.STACK_CONST_DEGRADED, 1, 0, 1, 0, .ro, false, false, []⟩,
   ⟨F.STACK_SUSPECT_ANY, 1, 0, 1, 0, .ro, false, false, []⟩]
/-- All word rows of a STACK page. -/
def rowsStack : List Row := rowsStack0 ++ rowsStack1 ++ rowsStack2

/-- The word rows of a STRIDECL page. -/
def rowsStridecl : List Row :=
  [⟨F.STRIDECL_POINT_REQ 0, 4, 4, 1, 0, .rw, false, false, []⟩,
   ⟨F.STRIDECL_CLASS 0, 4, 4, 1, 0, .rw, false, false, []⟩,
   ⟨F.STRIDECL_FEAT_MAX, 1, 0, 1, 0, .st, true, false, []⟩,
   ⟨F.STRIDECL_FEAT_WAIT, 1, 0, 1, 0, .st, false, false, []⟩,
   ⟨F.STRIDECL_POINT_NOW, 1, 0, 1, 0, .ro, false, false, []⟩,
   ⟨F.STRIDECL_FEAT_FRAMES, 1, 0, 1, 0, .ro, false, true, []⟩,
   ⟨F.STRIDECL_FEAT_DROPPED, 1, 0, 1, 0, .ro, false, true, []⟩,
   ⟨F.STRIDECL_FEAT_LATE, 1, 0, 1, 0, .ro, false, true, []⟩,
   ⟨F.STRIDECL_BUS_WORDS, 1, 0, 1, 0, .ro, false, true, []⟩]

/-- The word rows of a STRIDE page. -/
def rowsStride0 : List Row :=
  [⟨F.STRIDE_KADDR, 1, 0, 1, 0, .rw, false, false, []⟩,
   ⟨F.STRIDE_MAILBOX_IN, 1, 0, 1, 0, .rw, false, false, []⟩,
   ⟨F.STRIDE_WIN_KB, 1, 0, 1, 0, .rw, false, false, []⟩,
   ⟨F.STRIDE_TIMER_RELOAD, 1, 0, 1, 0, .rw, false, false, []⟩,
   ⟨F.STRIDE_EN 0, 4, 8, 1, 0, .st, false, false, []⟩,
   ⟨F.STRIDE_SRC 0, 4, 8, 1, 0, .st, false, false, []⟩,
   ⟨F.STRIDE_DEC 0, 4, 8, 1, 0, .st, false, false, []⟩,
   ⟨F.STRIDE_TH 0, 4, 8, 1, 0, .st, false, false, []⟩,
   ⟨F.STRIDE_FIRST 0, 4, 8, 1, 0, .st, false, false, []⟩,
   ⟨F.STRIDE_LAST 0, 4, 8, 1, 0, .st, false, false, []⟩,
   ⟨F.STRIDE_PC, 1, 0, 1, 0, .ro, false, false, []⟩,
   ⟨F.STRIDE_FAULT_PC, 1, 0, 1, 0, .ro, false, false, []⟩,
   ⟨F.STRIDE_CAUSE, 1, 0, 1, 0, .ro, false, false, []⟩,
   ⟨F.STRIDE_CYCLES, 1, 0, 1, 0, .ro, false, true, []⟩,
   ⟨F.STRIDE_STALL_CYCLES, 1, 0, 1, 0, .ro, false, true, []⟩,
   ⟨F.STRIDE_INTERRUPTS, 1, 0, 1, 0, .ro, false, true, []⟩,
   ⟨F.STRIDE_IRQ_LAT_MAX, 1, 0, 1, 0, .ro, false, true, []⟩,
   ⟨F.STRIDE_WIN_STALLS, 1, 0, 1, 0, .ro, false, true, []⟩,
   ⟨F.STRIDE_IN_OVERRUNS 0, 4, 4, 1, 0, .ro, false, true, []⟩,
   ⟨F.STRIDE_IN_LEVEL 0, 4, 4, 1, 0, .ro, false, false, []⟩]
def rowsStride1 : List Row :=
  [⟨F.STRIDE_OUT_WORDS0, 1, 0, 1, 0, .ro, false, true, []⟩,
   ⟨F.STRIDE_OUT_WORDS1, 1, 0, 1, 0, .ro, false, true, []⟩,
   ⟨F.STRIDE_MAILBOX_OUT, 1, 0, 1, 0, .ro, false, false, []⟩,
   ⟨F.STRIDE_MAIL_OVERWRITES, 1, 0, 1, 0, .ro, false, true, []⟩,
   ⟨F.STRIDE_LOADS, 1, 0, 1, 0, .ro, false, true, []⟩,
   ⟨F.STRIDE_LOAD_ERRORS, 1, 0, 1, 0, .ro, false, true, []⟩,
   ⟨F.STRIDE_START, 1, 0, 1, 0, .wo, false, false, []⟩,
   ⟨F.STRIDE_STOP, 1, 0, 1, 0, .wo, false, false, []⟩,
   ⟨F.STRIDE_DOORBELL, 1, 0, 1, 0, .wo, false, false, []⟩,
   ⟨F.STRIDE_IN_ISR, 1, 0, 1, 0, .ro, false, false, []⟩,
   ⟨F.STRIDE_RESTART, 1, 0, 1, 0, .ro, false, false, []⟩]
/-- All word rows of a STRIDE page. -/
def rowsStride : List Row := rowsStride0 ++ rowsStride1

/-- The word rows of a HURDLE page. -/
def rowsHurdle0 : List Row :=
  [⟨F.HURDLE_START_STATE 0, 2, 4, 1, 0, .rw, false, false, []⟩,
   ⟨F.HURDLE_EN 0, 2, 4, 1, 0, .rw, false, false, []⟩,
   ⟨F.HURDLE_PRE 0, 2, 8, 1, 0, .rw, false, false, []⟩,
   ⟨F.HURDLE_POST 0, 2, 8, 1, 0, .rw, false, false, []⟩,
   ⟨F.HURDLE_MAX_DUR 0, 2, 8, 1, 0, .rw, false, false, []⟩,
   ⟨F.HURDLE_REC_DET 0, 2, 8, 1, 0, .rw, false, false, []⟩,
   ⟨F.HURDLE_CAP_EN 0, 2, 8, 1, 0, .rw, false, false, []⟩,
   ⟨F.HURDLE_PIN_EN 0, 2, 8, 1, 0, .rw, false, false, []⟩,
   ⟨F.HURDLE_CMP0 0, 2, 8, 1, 0, .rw, false, false, []⟩,
   ⟨F.HURDLE_CMP1 0, 2, 8, 1, 0, .rw, false, false, []⟩,
   ⟨F.HURDLE_CMP2 0, 2, 8, 1, 0, .rw, false, false, []⟩,
   ⟨F.HURDLE_CMP3 0, 2, 8, 1, 0, .rw, false, false, []⟩,
   ⟨F.HURDLE_TLOAD 0 0, 2, 16, 4, 4, .rw, false, false, []⟩,
   ⟨F.HURDLE_GPIO_SEL, 1, 0, 1, 0, .rw, false, false, []⟩,
   ⟨F.HURDLE_GPIO_DELAY, 1, 0, 1, 0, .rw, false, false, []⟩,
   ⟨F.HURDLE_XS_PKG 0, 4, 4, 1, 0, .rw, false, false, []⟩,
   ⟨F.HURDLE_XS_SEQ 0, 4, 4, 1, 0, .rw, false, false, []⟩,
   ⟨F.HURDLE_XS_LINE 0, 4, 4, 1, 0, .rw, false, false, []⟩,
   ⟨F.HURDLE_XS_EN 0, 4, 4, 1, 0, .rw, false, false, []⟩,
   ⟨F.HURDLE_TOD_SEC, 1, 0, 1, 0, .rw, false, false, []⟩]
def rowsHurdle1 : List Row :=
  [⟨F.HURDLE_TOD_OFFSET, 1, 0, 1, 0, .rw, false, false, []⟩,
   ⟨F.HURDLE_DET_FIRST 0, 8, 16, 1, 0, .st, true, false, []⟩,
   ⟨F.HURDLE_DET_LAST 0, 8, 16, 1, 0, .st, true, false, []⟩,
   ⟨F.HURDLE_DET_TH 0, 8, 16, 1, 0, .st, true, false, []⟩,
   ⟨F.HURDLE_MIN_CH 0, 8, 16, 1, 0, .st, true, false, []⟩,
   ⟨F.HURDLE_WIN_K 0, 8, 16, 1, 0, .st, true, false, []⟩,
   ⟨F.HURDLE_MASK_U 0, 8, 16, 1, 0, .st, true, false, []⟩,
   ⟨F.HURDLE_DET_EN 0, 8, 16, 1, 0, .st, true, false, []⟩,
   ⟨F.HURDLE_CORE_MASK 0, 8, 16, 1, 0, .st, false, false, []⟩,
   ⟨F.HURDLE_ID 0, 8, 16, 1, 0, .st, false, false, []⟩,
   ⟨F.HURDLE_ID_MASK 0, 8, 16, 1, 0, .st, false, false, []⟩,
   ⟨F.HURDLE_PORT 0, 8, 16, 1, 0, .st, false, false, []⟩,
   ⟨F.HURDLE_FILT_CMP 0, 8, 16, 1, 0, .st, false, false, []⟩,
   ⟨F.HURDLE_FILT_EN 0, 8, 16, 1, 0, .st, false, false, []⟩,
   ⟨F.HURDLE_THRESH 0, 8, 16, 1, 0, .st, false, false, []⟩,
   ⟨F.HURDLE_SEQ_STATE 0, 2, 4, 1, 0, .ro, false, false, []⟩,
   ⟨F.HURDLE_REC_OPEN 0, 2, 4, 1, 0, .ro, false, false, []⟩,
   ⟨F.HURDLE_SEQ_RUNNING 0, 2, 4, 1, 0, .ro, false, false, []⟩,
   ⟨F.HURDLE_CFG_ERR 0, 2, 4, 1, 0, .ro, false, false, []⟩,
   ⟨F.HURDLE_CNT0 0, 2, 8, 1, 0, .ro, false, false, []⟩]
def rowsHurdle2 : List Row :=
  [⟨F.HURDLE_CNT1 0, 2, 8, 1, 0, .ro, false, false, []⟩,
   ⟨F.HURDLE_CNT2 0, 2, 8, 1, 0, .ro, false, false, []⟩,
   ⟨F.HURDLE_CNT3 0, 2, 8, 1, 0, .ro, false, false, []⟩,
   ⟨F.HURDLE_TREM 0 0, 2, 16, 4, 4, .ro, false, false, []⟩,
   ⟨F.HURDLE_STEPS, 1, 0, 1, 0, .ro, false, true, []⟩,
   ⟨F.HURDLE_TRIGGERS, 1, 0, 1, 0, .ro, false, true, []⟩,
   ⟨F.HURDLE_RECORDS, 1, 0, 1, 0, .ro, false, true, []⟩,
   ⟨F.HURDLE_RETRIGGERS, 1, 0, 1, 0, .ro, false, true, []⟩,
   ⟨F.HURDLE_CAP_TRUNC, 1, 0, 1, 0, .ro, false, true, []⟩,
   ⟨F.HURDLE_CAP_NONE, 1, 0, 1, 0, .ro, false, true, []⟩,
   ⟨F.HURDLE_FEAT_MATCHES, 1, 0, 1, 0, .ro, false, true, []⟩,
   ⟨F.HURDLE_TABLE_REFUSED, 1, 0, 1, 0, .ro, false, true, []⟩,
   ⟨F.HURDLE_OVER 0, 8, 8, 1, 0, .ro, false, false, []⟩,
   ⟨F.HURDLE_PEAK_CH 0, 8, 8, 1, 0, .ro, false, false, []⟩,
   ⟨F.HURDLE_ARC_W0 0 0, 2, 512, 64, 8, .rw, false, false, []⟩,
   ⟨F.HURDLE_ARC_W1 0 0, 2, 512, 64, 8, .rw, false, false, []⟩]
/-- All word rows of a HURDLE page. -/
def rowsHurdle : List Row := rowsHurdle0 ++ rowsHurdle1 ++ rowsHurdle2

/-- The word rows of a CAL page. -/
def rowsCal0 : List Row :=
  [⟨F.CAL_CAL_DT, 1, 0, 1, 0, .rw, false, false, []⟩,
   ⟨F.CAL_MODE, 1, 0, 1, 0, .rw, false, false, []⟩,
   ⟨F.CAL_TEMP_EN, 1, 0, 1, 0, .rw, false, false, []⟩,
   ⟨F.CAL_TIMER_EN, 1, 0, 1, 0, .rw, false, false, []⟩,
   ⟨F.CAL_NATIVE_EVERY, 1, 0, 1, 0, .rw, false, false, []⟩,
   ⟨F.CAL_CAL_PERIOD, 1, 0, 1, 0, .rw, false, false, []⟩,
   ⟨F.CAL_RETRY_S, 1, 0, 1, 0, .rw, false, false, []⟩,
   ⟨F.CAL_DEFER_S, 1, 0, 1, 0, .rw, false, false, []⟩,
   ⟨F.CAL_T_REF, 1, 0, 1, 0, .ro, false, false, []⟩,
   ⟨F.CAL_LAST_PASS_S, 1, 0, 1, 0, .ro, false, false, []⟩,
   ⟨F.CAL_REJECT_RUN, 1, 0, 1, 0, .ro, false, false, []⟩,
   ⟨F.CAL_LAST_UNIT, 1, 0, 1, 0, .ro, false, false, []⟩,
   ⟨F.CAL_LAST_COEF, 1, 0, 1, 0, .ro, false, false, []⟩,
   ⟨F.CAL_LAST_STEP, 1, 0, 1, 0, .ro, false, false, []⟩,
   ⟨F.CAL_DURATION_MAX, 1, 0, 1, 0, .ro, false, false, []⟩,
   ⟨F.CAL_PASSES, 1, 0, 1, 0, .ro, false, true, []⟩,
   ⟨F.CAL_PASSES_ACCEPTED, 1, 0, 1, 0, .ro, false, true, []⟩,
   ⟨F.CAL_PASSES_REJECTED, 1, 0, 1, 0, .ro, false, true, []⟩,
   ⟨F.CAL_UNIT_REJECTS, 1, 0, 1, 0, .ro, false, true, []⟩,
   ⟨F.CAL_FORCED_PASSES, 1, 0, 1, 0, .ro, false, true, []⟩]
def rowsCal1 : List Row :=
  [⟨F.CAL_FALLBACKS, 1, 0, 1, 0, .ro, false, true, []⟩,
   ⟨F.CAL_HANDOVERS, 1, 0, 1, 0, .ro, false, true, []⟩,
   ⟨F.CAL_ABANDONED, 1, 0, 1, 0, .ro, false, true, []⟩,
   ⟨F.CAL_ALM_WRITE_FAILS, 1, 0, 1, 0, .ro, false, true, []⟩,
   ⟨F.CAL_OFS 0, 5, 8, 1, 0, .ro, false, false, []⟩,
   ⟨F.CAL_TRIM 0, 5, 8, 1, 0, .ro, false, false, []⟩,
   ⟨F.CAL_SKEW 0, 4, 4, 1, 0, .ro, false, false, []⟩,
   ⟨F.CAL_QPH_X, 1, 0, 1, 0, .ro, false, false, []⟩,
   ⟨F.CAL_QPH_Y, 1, 0, 1, 0, .ro, false, false, []⟩,
   ⟨F.CAL_DAC_G, 1, 0, 1, 0, .ro, false, false, []⟩,
   ⟨F.CAL_DAC_P, 1, 0, 1, 0, .ro, false, false, []⟩,
   ⟨F.CAL_TOFS_S, 1, 0, 1, 0, .ro, false, false, []⟩,
   ⟨F.CAL_TOFS_AS, 1, 0, 1, 0, .ro, false, false, []⟩,
   ⟨F.CAL_REQ, 1, 0, 1, 0, .wo, false, false, []⟩,
   ⟨F.CAL_FORCE, 1, 0, 1, 0, .wo, false, false, []⟩,
   ⟨F.CAL_DEGRADED, 1, 0, 1, 0, .ro, false, false, []⟩]
/-- All word rows of a CAL page. -/
def rowsCal : List Row := rowsCal0 ++ rowsCal1

/-- The word rows of a SVC page. -/
def rowsSvc0 : List Row :=
  [⟨F.SVC_SEQ_LEN 0, 2, 4, 1, 0, .st, false, false, []⟩,
   ⟨F.SVC_MODE 0, 2, 4, 1, 0, .st, false, false, []⟩,
   ⟨F.SVC_SCAN_PERIOD 0, 2, 4, 1, 0, .st, false, false, []⟩,
   ⟨F.SVC_CAL_DT, 1, 0, 1, 0, .rw, false, false, []⟩,
   ⟨F.SVC_TEMP_EN, 1, 0, 1, 0, .rw, false, false, []⟩,
   ⟨F.SVC_TIMER_EN, 1, 0, 1, 0, .rw, false, false, []⟩,
   ⟨F.SVC_CAL_PERIOD, 1, 0, 1, 0, .rw, false, false, []⟩,
   ⟨F.SVC_RETRY_S, 1, 0, 1, 0, .rw, false, false, []⟩,
   ⟨F.SVC_DEFER_S, 1, 0, 1, 0, .rw, false, false, []⟩,
   ⟨F.SVC_ACC_BASE, 1, 0, 1, 0, .rw, false, false, []⟩,
   ⟨F.SVC_VIEW, 1, 0, 1, 0, .rw, false, false, []⟩,
   ⟨F.SVC_INJ_GO, 1, 0, 1, 0, .wo, false, false, []⟩,
   ⟨F.SVC_INPUT 0, 64, 4, 1, 0, .st, false, false, []⟩,
   ⟨F.SVC_DIFF 0, 64, 4, 1, 0, .st, false, false, []⟩,
   ⟨F.SVC_ALIGN 0, 64, 4, 1, 0, .st, false, false, []⟩,
   ⟨F.SVC_AVG 0, 64, 4, 1, 0, .st, false, false, []⟩,
   ⟨F.SVC_SHIFT 0, 64, 4, 1, 0, .st, false, false, []⟩,
   ⟨F.SVC_SETTLE 0, 64, 4, 1, 0, .st, false, false, []⟩,
   ⟨F.SVC_INJ_WORD 0, 8, 8, 1, 0, .st, false, false, []⟩,
   ⟨F.SVC_INJ_EN 0, 8, 8, 1, 0, .st, false, false, []⟩]
def rowsSvc1 : List Row :=
  [⟨F.SVC_INJ_CLASS 0, 8, 8, 1, 0, .st, false, false, []⟩,
   ⟨F.SVC_INJ_LINE 0, 8, 8, 1, 0, .st, false, false, []⟩,
   ⟨F.SVC_INJ_DELAY 0, 8, 8, 1, 0, .st, false, false, []⟩,
   ⟨F.SVC_SCANS0, 1, 0, 1, 0, .ro, false, true, []⟩,
   ⟨F.SVC_SCANS1, 1, 0, 1, 0, .ro, false, true, []⟩,
   ⟨F.SVC_SCAN_OVERRUNS0, 1, 0, 1, 0, .ro, false, true, []⟩,
   ⟨F.SVC_SCAN_OVERRUNS1, 1, 0, 1, 0, .ro, false, true, []⟩,
   ⟨F.SVC_REG_ABORTS, 1, 0, 1, 0, .ro, false, true, []⟩,
   ⟨F.SVC_REG_PROTECTS, 1, 0, 1, 0, .ro, false, true, []⟩,
   ⟨F.SVC_CONTROL_RUNS, 1, 0, 1, 0, .ro, false, true, []⟩,
   ⟨F.SVC_CONTROL_MERGED, 1, 0, 1, 0, .ro, false, true, []⟩,
   ⟨F.SVC_SHOT_RUNS, 1, 0, 1, 0, .ro, false, true, []⟩,
   ⟨F.SVC_SHOT_DROPS, 1, 0, 1, 0, .ro, false, true, []⟩,
   ⟨F.SVC_SHOT_DROPS_CAL, 1, 0, 1, 0, .ro, false, true, []⟩,
   ⟨F.SVC_CAL_HELD, 1, 0, 1, 0, .ro, false, true, []⟩,
   ⟨F.SVC_ENTRY_SKIPS, 1, 0, 1, 0, .ro, false, true, []⟩,
   ⟨F.SVC_SATURATIONS, 1, 0, 1, 0, .ro, false, true, []⟩,
   ⟨F.SVC_OFS 0, 2, 8, 1, 0, .ro, false, false, []⟩,
   ⟨F.SVC_TRIM 0, 2, 8, 1, 0, .ro, false, false, []⟩,
   ⟨F.SVC_T_REF, 1, 0, 1, 0, .ro, false, false, []⟩]
def rowsSvc2 : List Row :=
  [⟨F.SVC_LAST_PASS_S, 1, 0, 1, 0, .ro, false, false, []⟩,
   ⟨F.SVC_REJECT_RUN, 1, 0, 1, 0, .ro, false, false, []⟩,
   ⟨F.SVC_PASSES, 1, 0, 1, 0, .ro, false, true, []⟩,
   ⟨F.SVC_PASSES_REJECTED, 1, 0, 1, 0, .ro, false, true, []⟩,
   ⟨F.SVC_CAL_REQ, 1, 0, 1, 0, .wo, false, false, []⟩,
   ⟨F.SVC_CAL_FORCE, 1, 0, 1, 0, .wo, false, false, []⟩,
   ⟨F.SVC_CAL0, 1, 0, 1, 0, .ro, false, false, []⟩,
   ⟨F.SVC_CAL1, 1, 0, 1, 0, .ro, false, false, []⟩,
   ⟨F.SVC_DEGRADED, 1, 0, 1, 0, .ro, false, false, []⟩]
/-- All word rows of a SVC page. -/
def rowsSvc : List Row := rowsSvc0 ++ rowsSvc1 ++ rowsSvc2

/-- The word rows of a SFE page. -/
def rowsSfe0 : List Row :=
  [⟨F.SFE_WIRE 0, 8, 16, 1, 0, .st, false, false, []⟩,
   ⟨F.SFE_TYPE 0, 8, 16, 1, 0, .st, false, false, []⟩,
   ⟨F.SFE_IEXC 0, 8, 16, 1, 0, .st, false, false, []⟩,
   ⟨F.SFE_GAIN 0, 8, 16, 1, 0, .st, false, false, []⟩,
   ⟨F.SFE_CHECK_EN 0, 8, 16, 1, 0, .st, false, false, []⟩,
   ⟨F.SFE_CHECK_S 0, 8, 16, 1, 0, .st, false, false, []⟩,
   ⟨F.SFE_RNOM 0, 8, 16, 1, 0, .st, false, false, []⟩,
   ⟨F.SFE_BETA 0, 8, 16, 1, 0, .st, false, false, []⟩,
   ⟨F.SFE_LEAD_R 0, 8, 16, 1, 0, .st, false, false, []⟩,
   ⟨F.SFE_ZLO 0, 8, 16, 1, 0, .st, false, false, []⟩,
   ⟨F.SFE_ZHI 0, 8, 16, 1, 0, .st, false, false, []⟩,
   ⟨F.SFE_REF_R, 1, 0, 1, 0, .st, false, false, []⟩,
   ⟨F.SFE_LEAD_MAX, 1, 0, 1, 0, .st, false, false, []⟩,
   ⟨F.SFE_TEMP 0, 8, 16, 1, 0, .ro, false, false, []⟩,
   ⟨F.SFE_CLASS 0, 8, 16, 1, 0, .ro, false, false, []⟩,
   ⟨F.SFE_CLAMP 0, 8, 16, 1, 0, .ro, false, false, []⟩,
   ⟨F.SFE_OK 0, 8, 16, 1, 0, .ro, false, false, []⟩,
   ⟨F.SFE_Z_LAST 0, 8, 16, 1, 0, .ro, false, false, []⟩,
   ⟨F.SFE_LEAD_LAST 0, 8, 16, 1, 0, .ro, false, false, []⟩,
   ⟨F.SFE_MEASUREMENTS 0, 8, 16, 1, 0, .ro, false, true, []⟩]
def rowsSfe1 : List Row :=
  [⟨F.SFE_BREAKS 0, 8, 4, 1, 0, .ro, false, true, []⟩,
   ⟨F.SFE_CLAMPS 0, 8, 4, 1, 0, .ro, false, true, []⟩,
   ⟨F.SFE_SKIPS 0, 8, 4, 1, 0, .ro, false, true, []⟩]
/-- All word rows of a SFE page. -/
def rowsSfe : List Row := rowsSfe0 ++ rowsSfe1

/-- The word rows of a LOOP page. -/
def rowsLoop0 : List Row :=
  [⟨F.LOOP_EN 0, 8, 32, 1, 0, .st, false, false, []⟩,
   ⟨F.LOOP_OUT_SEL 0, 8, 32, 1, 0, .st, false, false, []⟩,
   ⟨F.LOOP_POL 0, 8, 32, 1, 0, .st, false, false, []⟩,
   ⟨F.LOOP_POL_OUT 0, 8, 32, 1, 0, .st, false, false, []⟩,
   ⟨F.LOOP_IN_SEL 0, 8, 32, 1, 0, .st, false, false, []⟩,
   ⟨F.LOOP_PWM_PER 0, 8, 32, 1, 0, .st, false, false, []⟩,
   ⟨F.LOOP_PERIOD 0, 8, 32, 1, 0, .st, false, false, []⟩,
   ⟨F.LOOP_FAIL_TICKS 0, 8, 32, 1, 0, .st, false, false, []⟩,
   ⟨F.LOOP_SP 0, 8, 32, 1, 0, .st, false, false, []⟩,
   ⟨F.LOOP_KP 0, 8, 32, 1, 0, .st, false, false, []⟩,
   ⟨F.LOOP_KI 0, 8, 32, 1, 0, .st, false, false, []⟩,
   ⟨F.LOOP_KD 0, 8, 32, 1, 0, .st, false, false, []⟩,
   ⟨F.LOOP_OUT_MIN 0, 8, 32, 1, 0, .st, false, false, []⟩,
   ⟨F.LOOP_OUT_MAX 0, 8, 32, 1, 0, .st, false, false, []⟩,
   ⟨F.LOOP_FAIL_OUT 0, 8, 32, 1, 0, .st, false, false, []⟩,
   ⟨F.LOOP_MAN_OUT 0, 8, 32, 1, 0, .st, false, false, []⟩,
   ⟨F.LOOP_OUT_NOW 0, 8, 16, 1, 0, .ro, false, false, []⟩,
   ⟨F.LOOP_LSTATE 0, 8, 16, 1, 0, .ro, false, false, []⟩,
   ⟨F.LOOP_Y_LAST 0, 8, 16, 1, 0, .ro, false, false, []⟩,
   ⟨F.LOOP_HOLD_TICKS 0, 8, 16, 1, 0, .ro, false, true, []⟩]
def rowsLoop1 : List Row :=
  [⟨F.LOOP_SAT_TICKS 0, 8, 16, 1, 0, .ro, false, true, []⟩]
/-- All word rows of a LOOP page. -/
def rowsLoop : List Row := rowsLoop0 ++ rowsLoop1

/-- The word rows of a TIME page. -/
def rowsTime0 : List Row :=
  [⟨F.TIME_MASTER, 1, 0, 1, 0, .rw, false, false, []⟩,
   ⟨F.TIME_SET_SRC, 1, 0, 1, 0, .rw, false, false, []⟩,
   ⟨F.TIME_READY_EN, 1, 0, 1, 0, .rw, false, false, []⟩,
   ⟨F.TIME_FREE_QUAL, 1, 0, 1, 0, .rw, false, false, []⟩,
   ⟨F.TIME_TOD_LAG, 1, 0, 1, 0, .rw, false, false, []⟩,
   ⟨F.TIME_WARM_MIN_S, 1, 0, 1, 0, .rw, false, false, []⟩,
   ⟨F.TIME_HOLD_LIMIT, 1, 0, 1, 0, .rw, false, false, []⟩,
   ⟨F.TIME_SERVO_TC, 1, 0, 1, 0, .rw, false, false, []⟩,
   ⟨F.TIME_LOCK_TH, 1, 0, 1, 0, .rw, false, false, []⟩,
   ⟨F.TIME_STEP_TH, 1, 0, 1, 0, .rw, false, false, []⟩,
   ⟨F.TIME_PPS_DELAY, 1, 0, 1, 0, .rw, false, false, []⟩,
   ⟨F.TIME_TAI_UTC, 1, 0, 1, 0, .rw, false, false, []⟩,
   ⟨F.TIME_LEAP, 1, 0, 1, 0, .rw, false, false, []⟩,
   ⟨F.TIME_SET_S, 1, 0, 1, 0, .rw, false, false, []⟩,
   ⟨F.TIME_SET_NS, 1, 0, 1, 0, .rw, false, false, []⟩,
   ⟨F.TIME_OVEN_ENTRY, 1, 0, 1, 0, .rw, false, false, []⟩,
   ⟨F.TIME_OVEN_LO, 1, 0, 1, 0, .rw, false, false, []⟩,
   ⟨F.TIME_OVEN_HI, 1, 0, 1, 0, .rw, false, false, []⟩,
   ⟨F.TIME_FREQ_MAN, 1, 0, 1, 0, .rw, false, false, []⟩,
   ⟨F.TIME_NOW_S, 1, 0, 1, 0, .ro, false, false, []⟩]
def rowsTime1 : List Row :=
  [⟨F.TIME_NOW_NS, 1, 0, 1, 0, .ro, false, false, []⟩,
   ⟨F.TIME_NOW_SUB, 1, 0, 1, 0, .ro, false, false, []⟩,
   ⟨F.TIME_FREQ_NOW, 1, 0, 1, 0, .ro, false, false, []⟩,
   ⟨F.TIME_PHASE_ERR, 1, 0, 1, 0, .ro, false, false, []⟩,
   ⟨F.TIME_HOLD_S, 1, 0, 1, 0, .ro, false, false, []⟩,
   ⟨F.TIME_PPS_EDGES, 1, 0, 1, 0, .ro, false, true, []⟩,
   ⟨F.TIME_PPS_REJECTS, 1, 0, 1, 0, .ro, false, true, []⟩,
   ⟨F.TIME_PPS_MISSING, 1, 0, 1, 0, .ro, false, true, []⟩,
   ⟨F.TIME_STEPS, 1, 0, 1, 0, .ro, false, true, []⟩,
   ⟨F.TIME_TOD_BAD, 1, 0, 1, 0, .ro, false, true, []⟩,
   ⟨F.TIME_OVEN_ANOMALIES, 1, 0, 1, 0, .ro, false, true, []⟩,
   ⟨F.TIME_SET_ARM, 1, 0, 1, 0, .wo, false, false, []⟩,
   ⟨F.TIME_OCXO_WARM, 1, 0, 1, 0, .ro, false, false, []⟩,
   ⟨F.TIME_QUALIFIED, 1, 0, 1, 0, .ro, false, false, []⟩,
   ⟨F.TIME_GRID_VALID, 1, 0, 1, 0, .ro, false, false, []⟩,
   ⟨F.TIME_ST_MASTER, 1, 0, 1, 0, .ro, false, false, []⟩,
   ⟨F.TIME_HOLD_EXCEEDED, 1, 0, 1, 0, .ro, false, false, []⟩,
   ⟨F.TIME_LABEL_BACKUP, 1, 0, 1, 0, .ro, false, false, []⟩]
/-- All word rows of a TIME page. -/
def rowsTime : List Row := rowsTime0 ++ rowsTime1

/-- The word rows of a PTP page. -/
def rowsPtp0 : List Row :=
  [⟨F.PTP_EN, 1, 0, 1, 0, .rw, false, false, []⟩,
   ⟨F.PTP_PROFILE, 1, 0, 1, 0, .rw, false, false, []⟩,
   ⟨F.PTP_ONE_STEP, 1, 0, 1, 0, .rw, false, false, []⟩,
   ⟨F.PTP_TRANSPORT, 1, 0, 1, 0, .rw, false, false, []⟩,
   ⟨F.PTP_ESMC_EN, 1, 0, 1, 0, .rw, false, false, []⟩,
   ⟨F.PTP_DOMAIN, 1, 0, 1, 0, .rw, false, false, []⟩,
   ⟨F.PTP_PRIO1, 1, 0, 1, 0, .rw, false, false, []⟩,
   ⟨F.PTP_PRIO2, 1, 0, 1, 0, .rw, false, false, []⟩,
   ⟨F.PTP_LOG_SYNC, 1, 0, 1, 0, .rw, false, false, []⟩,
   ⟨F.PTP_LOG_ANN, 1, 0, 1, 0, .rw, false, false, []⟩,
   ⟨F.PTP_LOG_MINDR, 1, 0, 1, 0, .rw, false, false, []⟩,
   ⟨F.PTP_LOCAL_PRIO, 1, 0, 1, 0, .rw, false, false, []⟩,
   ⟨F.PTP_TX_DELAY, 1, 0, 1, 0, .rw, false, false, []⟩,
   ⟨F.PTP_RX_DELAY, 1, 0, 1, 0, .rw, false, false, []⟩,
   ⟨F.PTP_CLOCK_CLASS, 1, 0, 1, 0, .ro, false, false, []⟩,
   ⟨F.PTP_TIME_SOURCE, 1, 0, 1, 0, .ro, false, false, []⟩,
   ⟨F.PTP_SYNC_TX, 1, 0, 1, 0, .ro, false, true, []⟩,
   ⟨F.PTP_DREQ_RX, 1, 0, 1, 0, .ro, false, true, []⟩,
   ⟨F.PTP_DREQ_DROPS, 1, 0, 1, 0, .ro, false, true, []⟩,
   ⟨F.PTP_FOREIGN_ANN, 1, 0, 1, 0, .ro, false, true, []⟩]
def rowsPtp1 : List Row :=
  [⟨F.PTP_IGNORED, 1, 0, 1, 0, .ro, false, true, []⟩,
   ⟨F.PTP_CFG_ERR, 1, 0, 1, 0, .ro, false, false, []⟩]
/-- All word rows of a PTP page. -/
def rowsPtp : List Row := rowsPtp0 ++ rowsPtp1

/-- The word rows of a PPS page. -/
def rowsPps : List Row :=
  [⟨F.PPS_EN 0, 4, 4, 1, 0, .rw, false, false, []⟩,
   ⟨F.PPS_SQUELCH 0, 4, 4, 1, 0, .rw, false, false, []⟩,
   ⟨F.PPS_POL 0, 4, 4, 1, 0, .rw, false, false, []⟩,
   ⟨F.PPS_WIDTH 0, 4, 4, 1, 0, .rw, false, false, []⟩,
   ⟨F.PPS_DELAY 0, 4, 4, 1, 0, .rw, false, false, []⟩,
   ⟨F.PPS_F10M_EN 0, 2, 4, 1, 0, .rw, false, false, []⟩,
   ⟨F.PPS_F10M_SQUELCH 0, 2, 4, 1, 0, .rw, false, false, []⟩,
   ⟨F.PPS_F10M_DELAY 0, 2, 4, 1, 0, .rw, false, false, []⟩,
   ⟨F.PPS_TOD_EN, 1, 0, 1, 0, .rw, false, false, []⟩,
   ⟨F.PPS_TOD_SQUELCH, 1, 0, 1, 0, .rw, false, false, []⟩,
   ⟨F.PPS_BAUD, 1, 0, 1, 0, .rw, false, false, []⟩,
   ⟨F.PPS_TALKER, 1, 0, 1, 0, .rw, false, false, []⟩,
   ⟨F.PPS_START_MS, 1, 0, 1, 0, .rw, false, false, []⟩,
   ⟨F.PPS_PULSES 0, 4, 4, 1, 0, .ro, false, true, []⟩,
   ⟨F.PPS_SQUELCHED_S, 1, 0, 1, 0, .ro, false, true, []⟩]

/-- The word rows of a PF page. -/
def rowsPf0 : List Row :=
  [⟨F.PF_MODE, 1, 0, 1, 0, .rw, false, false, []⟩,
   ⟨F.PF_SRC_START, 1, 0, 1, 0, .rw, false, false, []⟩,
   ⟨F.PF_SRC_STOP, 1, 0, 1, 0, .rw, false, false, []⟩,
   ⟨F.PF_EDGE_START, 1, 0, 1, 0, .rw, false, false, []⟩,
   ⟨F.PF_EDGE_STOP, 1, 0, 1, 0, .rw, false, false, []⟩,
   ⟨F.PF_LINE, 1, 0, 1, 0, .rw, false, false, []⟩,
   ⟨F.PF_AMBIG_DROP, 1, 0, 1, 0, .rw, false, false, []⟩,
   ⟨F.PF_OPEN, 1, 0, 1, 0, .rw, false, false, []⟩,
   ⟨F.PF_CLOSE, 1, 0, 1, 0, .rw, false, false, []⟩,
   ⟨F.PF_STAT_N, 1, 0, 1, 0, .rw, false, false, []⟩,
   ⟨F.PF_CAL_S, 1, 0, 1, 0, .rw, false, false, []⟩,
   ⟨F.PF_LAST, 1, 0, 1, 0, .ro, false, false, []⟩,
   ⟨F.PF_AMBIG, 1, 0, 1, 0, .ro, false, false, []⟩,
   ⟨F.PF_LAST_CAL_STALE, 1, 0, 1, 0, .ro, false, false, []⟩,
   ⟨F.PF_MEAN, 1, 0, 1, 0, .ro, false, false, []⟩,
   ⟨F.PF_SD, 1, 0, 1, 0, .ro, false, false, []⟩,
   ⟨F.PF_MIN, 1, 0, 1, 0, .ro, false, false, []⟩,
   ⟨F.PF_MAX, 1, 0, 1, 0, .ro, false, false, []⟩,
   ⟨F.PF_RESULTS, 1, 0, 1, 0, .ro, false, true, []⟩,
   ⟨F.PF_BLOCKS, 1, 0, 1, 0, .ro, false, true, []⟩]
def rowsPf1 : List Row :=
  [⟨F.PF_AMBIGS, 1, 0, 1, 0, .ro, false, true, []⟩,
   ⟨F.PF_ORDER, 1, 0, 1, 0, .ro, false, true, []⟩,
   ⟨F.PF_EARLY, 1, 0, 1, 0, .ro, false, true, []⟩,
   ⟨F.PF_LATE, 1, 0, 1, 0, .ro, false, true, []⟩,
   ⟨F.PF_TIMEOUTS, 1, 0, 1, 0, .ro, false, true, []⟩,
   ⟨F.PF_START_BUSY, 1, 0, 1, 0, .ro, false, true, []⟩,
   ⟨F.PF_MISSED, 1, 0, 1, 0, .ro, false, true, []⟩,
   ⟨F.PF_CAL_REJECTS, 1, 0, 1, 0, .ro, false, true, []⟩,
   ⟨F.PF_K1 0, 2, 4, 1, 0, .ro, false, false, []⟩,
   ⟨F.PF_K2 0, 2, 4, 1, 0, .ro, false, false, []⟩,
   ⟨F.PF_STAMP_S, 1, 0, 1, 0, .ro, false, false, []⟩,
   ⟨F.PF_STAMP_NS, 1, 0, 1, 0, .ro, false, false, []⟩,
   ⟨F.PF_STAMP_SUB, 1, 0, 1, 0, .ro, false, false, []⟩,
   ⟨F.PF_ARM, 1, 0, 1, 0, .wo, false, false, []⟩,
   ⟨F.PF_DISARM, 1, 0, 1, 0, .wo, false, false, []⟩,
   ⟨F.PF_CAL_REQ, 1, 0, 1, 0, .wo, false, false, []⟩,
   ⟨F.PF_DEGRADED, 1, 0, 1, 0, .ro, false, false, []⟩,
   ⟨F.PF_DUPLICATE, 1, 0, 1, 0, .ro, false, false, []⟩]
/-- All word rows of a PF page. -/
def rowsPf : List Row := rowsPf0 ++ rowsPf1

/-- The word rows of a BTN page. -/
def rowsBtn : List Row :=
  [⟨F.BTN_WIN_PKG, 1, 0, 1, 0, .rw, false, false, []⟩,
   ⟨F.BTN_WIN_QTR, 1, 0, 1, 0, .rw, false, false, []⟩,
   ⟨F.BTN_PROXY_TIMEOUT, 1, 0, 1, 0, .rw, false, false, []⟩,
   ⟨F.BTN_ASYM_PS, 1, 0, 1, 0, .rw, false, false, []⟩,
   ⟨F.BTN_UP_STATE, 1, 0, 1, 0, .ro, false, false, []⟩,
   ⟨F.BTN_DOWN_STATE, 1, 0, 1, 0, .ro, false, false, []⟩,
   ⟨F.BTN_UP_CAL, 1, 0, 1, 0, .ro, false, false, []⟩,
   ⟨F.BTN_UP_LOCKED, 1, 0, 1, 0, .ro, false, false, []⟩,
   ⟨F.BTN_MASTER_IDX, 1, 0, 1, 0, .ro, false, false, []⟩,
   ⟨F.BTN_HOPS, 1, 0, 1, 0, .ro, false, false, []⟩,
   ⟨F.BTN_OFFSET, 1, 0, 1, 0, .ro, false, false, []⟩,
   ⟨F.BTN_DELAY, 1, 0, 1, 0, .ro, false, false, []⟩,
   ⟨F.BTN_PROXY_READS, 1, 0, 1, 0, .ro, false, true, []⟩,
   ⟨F.BTN_PROXY_WRITES, 1, 0, 1, 0, .ro, false, true, []⟩,
   ⟨F.BTN_PROXY_TIMEOUTS, 1, 0, 1, 0, .ro, false, true, []⟩,
   ⟨F.BTN_PROXY_REFUSED, 1, 0, 1, 0, .ro, false, true, []⟩,
   ⟨F.BTN_SIG_LOST, 1, 0, 1, 0, .ro, false, true, []⟩,
   ⟨F.BTN_REPLAYS, 1, 0, 1, 0, .ro, false, true, []⟩,
   ⟨F.BTN_FRAME_DROPS, 1, 0, 1, 0, .ro, false, true, []⟩,
   ⟨F.BTN_LINK_DOWNS, 1, 0, 1, 0, .ro, false, true, []⟩]

/-- The word rows of a SHELFH page. -/
def rowsShelfh : List Row :=
  [⟨F.SHELFH_RESERVE 0, 11, 4, 1, 0, .rw, false, false, [64, 64, 4, 32, 32, 16, 16, 8, 16, 8, 4]⟩,
   ⟨F.SHELFH_LIMIT 0, 11, 4, 1, 0, .rw, false, false, [256, 256, 4, 128, 128, 64, 64, 32, 16, 32, 16]⟩,
   ⟨F.SHELFH_FREE, 1, 0, 1, 0, .ro, false, false, []⟩,
   ⟨F.SHELFH_COMMON_FREE, 1, 0, 1, 0, .ro, false, false, []⟩,
   ⟨F.SHELFH_RESERVED_SUM, 1, 0, 1, 0, .ro, false, false, []⟩,
   ⟨F.SHELFH_MAX_WAIT, 1, 0, 1, 0, .ro, false, false, []⟩,
   ⟨F.SHELFH_RESERVE_REFUSED, 1, 0, 1, 0, .ro, false, true, []⟩,
   ⟨F.SHELFH_HELD 0, 11, 4, 1, 0, .ro, false, false, []⟩,
   ⟨F.SHELFH_PEAK 0, 11, 4, 1, 0, .ro, false, true, []⟩,
   ⟨F.SHELFH_LIMIT_REFUSALS 0, 11, 4, 1, 0, .ro, false, true, []⟩,
   ⟨F.SHELFH_ROLL_BASE 0, 12, 32, 1, 0, .rw, false, false, []⟩,
   ⟨F.SHELFH_ROLL_SIZE 0, 12, 32, 1, 0, .rw, false, false, []⟩,
   ⟨F.SHELFH_IDX_BASE 0, 12, 32, 1, 0, .rw, false, false, []⟩,
   ⟨F.SHELFH_IDX_LOG2 0, 12, 32, 1, 0, .rw, false, false, []⟩,
   ⟨F.SHELFH_OLDEST 0, 12, 32, 1, 0, .ro, false, false, []⟩,
   ⟨F.SHELFH_NEWEST 0, 12, 32, 1, 0, .ro, false, false, []⟩]

/-- The word rows of a SHELFD page. -/
def rowsShelfd : List Row :=
  [⟨F.SHELFD_RESERVE 0, 19, 4, 1, 0, .rw, false, false, [8, 4, 4, 8, 4, 4, 8, 4, 4, 8, 4, 4, 8, 4, 4, 8, 4, 4, 104]⟩,
   ⟨F.SHELFD_LIMIT 0, 19, 4, 1, 0, .rw, false, false, [64, 16, 4, 64, 16, 4, 64, 16, 4, 64, 16, 4, 64, 16, 4, 64, 16, 4, 104]⟩,
   ⟨F.SHELFD_FREE, 1, 0, 1, 0, .ro, false, false, []⟩,
   ⟨F.SHELFD_COMMON_FREE, 1, 0, 1, 0, .ro, false, false, []⟩,
   ⟨F.SHELFD_RESERVED_SUM, 1, 0, 1, 0, .ro, false, false, []⟩,
   ⟨F.SHELFD_MAX_WAIT, 1, 0, 1, 0, .ro, false, false, []⟩,
   ⟨F.SHELFD_RESERVE_REFUSED, 1, 0, 1, 0, .ro, false, true, []⟩,
   ⟨F.SHELFD_HELD 0, 19, 4, 1, 0, .ro, false, false, []⟩,
   ⟨F.SHELFD_PEAK 0, 19, 4, 1, 0, .ro, false, true, []⟩,
   ⟨F.SHELFD_LIMIT_REFUSALS 0, 19, 4, 1, 0, .ro, false, true, []⟩]

/-- The word rows of a DMC page. -/
def rowsDmc0 : List Row :=
  [⟨F.DMC_SPEED, 1, 0, 1, 0, .rw, false, false, []⟩,
   ⟨F.DMC_RANKS, 1, 0, 1, 0, .rw, false, false, []⟩,
   ⟨F.DMC_SPARE_EN, 1, 0, 1, 0, .rw, false, false, []⟩,
   ⟨F.DMC_SPARE_RANK, 1, 0, 1, 0, .rw, false, false, []⟩,
   ⟨F.DMC_DENSITY, 1, 0, 1, 0, .rw, false, false, []⟩,
   ⟨F.DMC_RDIMM, 1, 0, 1, 0, .rw, false, false, []⟩,
   ⟨F.DMC_RH_TH, 1, 0, 1, 0, .rw, false, false, []⟩,
   ⟨F.DMC_RH_RADIUS, 1, 0, 1, 0, .rw, false, false, []⟩,
   ⟨F.DMC_SCRUB_H, 1, 0, 1, 0, .rw, false, false, []⟩,
   ⟨F.DMC_IDLE_CYCLES, 1, 0, 1, 0, .rw, false, false, []⟩,
   ⟨F.DMC_SR_MARGIN, 1, 0, 1, 0, .rw, false, false, []⟩,
   ⟨F.DMC_SR_EN, 1, 0, 1, 0, .rw, false, false, []⟩,
   ⟨F.DMC_HOST_TOL, 1, 0, 1, 0, .rw, false, false, []⟩,
   ⟨F.DMC_MARGIN_S, 1, 0, 1, 0, .rw, false, false, []⟩,
   ⟨F.DMC_MARGIN_MIN, 1, 0, 1, 0, .rw, false, false, []⟩,
   ⟨F.DMC_REQUAL_RANK, 1, 0, 1, 0, .rw, false, false, []⟩,
   ⟨F.DMC_REQUAL_GO, 1, 0, 1, 0, .wo, false, false, []⟩,
   ⟨F.DMC_CAP_BW, 1, 0, 1, 0, .rw, false, false, []⟩,
   ⟨F.DMC_ARC_BW, 1, 0, 1, 0, .rw, false, false, []⟩,
   ⟨F.DMC_MIG_BW, 1, 0, 1, 0, .rw, false, false, []⟩]
def rowsDmc1 : List Row :=
  [⟨F.DMC_RANK_STATE, 1, 0, 1, 0, .ro, false, false, []⟩,
   ⟨F.DMC_MIG_DONE, 1, 0, 1, 0, .ro, false, false, []⟩,
   ⟨F.DMC_TOL_MIN, 1, 0, 1, 0, .ro, false, false, []⟩,
   ⟨F.DMC_CE, 1, 0, 1, 0, .ro, false, true, []⟩,
   ⟨F.DMC_UE, 1, 0, 1, 0, .ro, false, true, []⟩,
   ⟨F.DMC_CA_PAR, 1, 0, 1, 0, .ro, false, true, []⟩,
   ⟨F.DMC_RH_REFRESHES, 1, 0, 1, 0, .ro, false, true, []⟩,
   ⟨F.DMC_SR_ENTRIES, 1, 0, 1, 0, .ro, false, true, []⟩,
   ⟨F.DMC_SR_CANCELS, 1, 0, 1, 0, .ro, false, true, []⟩,
   ⟨F.DMC_SR_WAIT_MAX, 1, 0, 1, 0, .ro, false, false, []⟩,
   ⟨F.DMC_POISON_LINES, 1, 0, 1, 0, .ro, false, false, []⟩,
   ⟨F.DMC_POISON_HITS, 1, 0, 1, 0, .ro, false, true, []⟩,
   ⟨F.DMC_POISON_OVERFLOW, 1, 0, 1, 0, .ro, false, true, []⟩,
   ⟨F.DMC_SCRUB_PASSES, 1, 0, 1, 0, .ro, false, true, []⟩,
   ⟨F.DMC_MARGIN 0, 9, 4, 1, 0, .ro, false, false, []⟩]
/-- All word rows of a DMC page. -/
def rowsDmc : List Row := rowsDmc0 ++ rowsDmc1

/-- The word rows of a DLY page. -/
def rowsDly : List Row :=
  [⟨F.DLY_SWEEP_RANK, 1, 0, 1, 0, .rw, false, false, []⟩,
   ⟨F.DLY_SWEEP_LANE, 1, 0, 1, 0, .rw, false, false, []⟩,
   ⟨F.DLY_SWEEP_PARAM, 1, 0, 1, 0, .rw, false, false, []⟩,
   ⟨F.DLY_SWEEP_BIT, 1, 0, 1, 0, .rw, false, false, []⟩,
   ⟨F.DLY_SWEEP_START, 1, 0, 1, 0, .rw, false, false, []⟩,
   ⟨F.DLY_SWEEP_STEP, 1, 0, 1, 0, .rw, false, false, []⟩,
   ⟨F.DLY_SWEEP_GO, 1, 0, 1, 0, .wo, false, false, []⟩,
   ⟨F.DLY_SWEEP_PASS, 1, 0, 1, 0, .ro, false, false, []⟩,
   ⟨F.DLY_SWEEP_ERRORS, 1, 0, 1, 0, .ro, false, false, []⟩,
   ⟨F.DLY_DL_WL 0 0, 4, 216, 9, 24, .rw, false, false, []⟩,
   ⟨F.DLY_DL_GATE 0 0, 4, 216, 9, 24, .rw, false, false, []⟩,
   ⟨F.DLY_DL_RD 0 0, 4, 216, 9, 24, .rw, false, false, []⟩,
   ⟨F.DLY_DL_WR 0 0, 4, 216, 9, 24, .rw, false, false, []⟩,
   ⟨F.DLY_DL_VREF 0 0, 4, 216, 9, 24, .rw, false, false, []⟩]

/-- The word rows of a ARC page. -/
def rowsArc0 : List Row :=
  [⟨F.ARC_FMT_KEY, 1, 0, 1, 0, .wo, false, false, []⟩,
   ⟨F.ARC_PE_RATED, 1, 0, 1, 0, .rw, false, false, []⟩,
   ⟨F.ARC_TARGET_LIFE_DAYS, 1, 0, 1, 0, .rw, false, false, []⟩,
   ⟨F.ARC_EVT_SEGS, 1, 0, 1, 0, .rw, false, false, []⟩,
   ⟨F.ARC_LEDGER_SEGS, 1, 0, 1, 0, .rw, false, false, []⟩,
   ⟨F.ARC_CFG_SEGS, 1, 0, 1, 0, .rw, false, false, []⟩,
   ⟨F.ARC_FREE_MIN, 1, 0, 1, 0, .rw, false, false, []⟩,
   ⟨F.ARC_WEAR_SPREAD, 1, 0, 1, 0, .rw, false, false, []⟩,
   ⟨F.ARC_AGE_LIMIT, 1, 0, 1, 0, .rw, false, false, []⟩,
   ⟨F.ARC_EA, 1, 0, 1, 0, .rw, false, false, []⟩,
   ⟨F.ARC_AGE_SRC, 1, 0, 1, 0, .rw, false, false, []⟩,
   ⟨F.ARC_OFF_TEMP, 1, 0, 1, 0, .rw, false, false, []⟩,
   ⟨F.ARC_REFRESH_BITS, 1, 0, 1, 0, .rw, false, false, []⟩,
   ⟨F.ARC_REFRESH_LEVEL, 1, 0, 1, 0, .rw, false, false, []⟩,
   ⟨F.ARC_REFRESH_DEFER_H, 1, 0, 1, 0, .rw, false, false, []⟩,
   ⟨F.ARC_CKPT_S, 1, 0, 1, 0, .rw, false, false, []⟩,
   ⟨F.ARC_PIN_COPY_S, 1, 0, 1, 0, .rw, false, false, []⟩,
   ⟨F.ARC_PIN_HOLD_MAX, 1, 0, 1, 0, .rw, false, false, []⟩,
   ⟨F.ARC_EVT_KEEP, 1, 0, 1, 0, .rw, false, false, []⟩,
   ⟨F.ARC_RR_COUNT, 1, 0, 1, 0, .rw, false, false, []⟩]
def rowsArc1 : List Row :=
  [⟨F.ARC_SOFT_LO, 1, 0, 1, 0, .rw, false, false, []⟩,
   ⟨F.ARC_SOFT_HI, 1, 0, 1, 0, .rw, false, false, []⟩,
   ⟨F.ARC_UNPIN_ID, 1, 0, 1, 0, .wo, false, false, []⟩,
   ⟨F.ARC_SNAP_ADDR, 1, 0, 1, 0, .rw, false, false, []⟩,
   ⟨F.ARC_RET_STREAM, 1, 0, 1, 0, .rw, false, false, []⟩,
   ⟨F.ARC_RET_MODE, 1, 0, 1, 0, .rw, false, false, []⟩,
   ⟨F.ARC_RET_DECODE, 1, 0, 1, 0, .rw, false, false, []⟩,
   ⟨F.ARC_RET_TAG, 1, 0, 1, 0, .rw, false, false, []⟩,
   ⟨F.ARC_RET_A, 1, 0, 1, 0, .rw, false, false, []⟩,
   ⟨F.ARC_RET_A_NS, 1, 0, 1, 0, .rw, false, false, []⟩,
   ⟨F.ARC_RET_B, 1, 0, 1, 0, .rw, false, false, []⟩,
   ⟨F.ARC_RET_B_NS, 1, 0, 1, 0, .rw, false, false, []⟩,
   ⟨F.ARC_SEGS_TOTAL, 1, 0, 1, 0, .ro, false, false, []⟩,
   ⟨F.ARC_SEGS_FREE, 1, 0, 1, 0, .ro, false, false, []⟩,
   ⟨F.ARC_HELD_SEGS, 1, 0, 1, 0, .ro, false, false, []⟩,
   ⟨F.ARC_WEAR_RATIO, 1, 0, 1, 0, .ro, false, false, []⟩,
   ⟨F.ARC_BUDGET, 1, 0, 1, 0, .ro, false, false, []⟩,
   ⟨F.ARC_WRITTEN, 1, 0, 1, 0, .ro, false, false, []⟩,
   ⟨F.ARC_ERASE_MIN, 1, 0, 1, 0, .ro, false, false, []⟩,
   ⟨F.ARC_ERASE_MAX, 1, 0, 1, 0, .ro, false, false, []⟩]
def rowsArc2 : List Row :=
  [⟨F.ARC_OLDEST_S, 1, 0, 1, 0, .ro, false, false, []⟩,
   ⟨F.ARC_BACKLOG_MS, 1, 0, 1, 0, .ro, false, false, []⟩,
   ⟨F.ARC_GROWN_BAD, 1, 0, 1, 0, .ro, false, true, []⟩,
   ⟨F.ARC_LATE_BLOCKS, 1, 0, 1, 0, .ro, false, true, []⟩,
   ⟨F.ARC_DROP_BLOCKS, 1, 0, 1, 0, .ro, false, true, []⟩,
   ⟨F.ARC_POISON_DROPS, 1, 0, 1, 0, .ro, false, true, []⟩,
   ⟨F.ARC_UNREADABLE, 1, 0, 1, 0, .ro, false, true, []⟩,
   ⟨F.ARC_SOFT_DECODES, 1, 0, 1, 0, .ro, false, true, []⟩,
   ⟨F.ARC_REFRESHES, 1, 0, 1, 0, .ro, false, true, []⟩,
   ⟨F.ARC_WEAR_MOVES, 1, 0, 1, 0, .ro, false, true, []⟩,
   ⟨F.ARC_PINS_REFUSED, 1, 0, 1, 0, .ro, false, true, []⟩,
   ⟨F.ARC_PINS_BROKEN, 1, 0, 1, 0, .ro, false, true, []⟩,
   ⟨F.ARC_PINS_OPEN, 1, 0, 1, 0, .ro, false, false, []⟩,
   ⟨F.ARC_RET_STATUS, 1, 0, 1, 0, .ro, false, false, []⟩,
   ⟨F.ARC_RET_TAG_DONE, 1, 0, 1, 0, .ro, false, false, []⟩,
   ⟨F.ARC_NEXT_PIN, 1, 0, 1, 0, .ro, false, false, []⟩,
   ⟨F.ARC_BEHIND, 1, 0, 1, 0, .ro, false, false, []⟩,
   ⟨F.ARC_PINS_FULL, 1, 0, 1, 0, .ro, false, false, []⟩,
   ⟨F.ARC_FORMAT, 1, 0, 1, 0, .wo, false, false, []⟩,
   ⟨F.ARC_MOUNT, 1, 0, 1, 0, .wo, false, false, []⟩]
def rowsArc3 : List Row :=
  [⟨F.ARC_UNMOUNT, 1, 0, 1, 0, .wo, false, false, []⟩,
   ⟨F.ARC_SNAP_GO, 1, 0, 1, 0, .wo, false, false, []⟩,
   ⟨F.ARC_RET_GO, 1, 0, 1, 0, .wo, false, false, []⟩,
   ⟨F.ARC_RET_CANCEL, 1, 0, 1, 0, .wo, false, false, []⟩,
   ⟨F.ARC_LN_EN 0, 12, 4, 1, 0, .rw, false, false, []⟩,
   ⟨F.ARC_LN_PLANES 0, 12, 4, 1, 0, .rw, false, false, []⟩,
   ⟨F.ARC_LN_DECIM 0, 12, 4, 1, 0, .rw, false, false, []⟩,
   ⟨F.ARC_LN_THERM 0, 12, 4, 1, 0, .rw, false, false, []⟩,
   ⟨F.ARC_LN_FEAT 0, 12, 4, 1, 0, .rw, false, false, []⟩,
   ⟨F.ARC_LN_LEVEL 0, 12, 4, 1, 0, .rw, false, false, []⟩,
   ⟨F.ARC_LN_DELTA 0, 12, 4, 1, 0, .rw, false, false, []⟩,
   ⟨F.ARC_RR_ADDR 0 0, 16, 32, 4, 8, .rw, false, false, []⟩,
   ⟨F.ARC_RR_EN 0 0, 16, 32, 4, 8, .rw, false, false, []⟩,
   ⟨F.ARC_RR_PARAM 0 0, 16, 32, 4, 8, .rw, false, false, []⟩]
/-- All word rows of a ARC page. -/
def rowsArc : List Row := rowsArc0 ++ rowsArc1 ++ rowsArc2 ++ rowsArc3

/-- The word rows of a NCH page. -/
def rowsNch : List Row :=
  [⟨F.NCH_EN, 1, 0, 1, 0, .rw, false, false, []⟩,
   ⟨F.NCH_RATE, 1, 0, 1, 0, .rw, false, false, []⟩,
   ⟨F.NCH_CE_MASK, 1, 0, 1, 0, .rw, false, false, []⟩,
   ⟨F.NCH_TARGETS, 1, 0, 1, 0, .ro, false, false, []⟩,
   ⟨F.NCH_LUNS, 1, 0, 1, 0, .ro, false, false, []⟩,
   ⟨F.NCH_PLANES_LOG2, 1, 0, 1, 0, .ro, false, false, []⟩,
   ⟨F.NCH_PAGE_BYTES, 1, 0, 1, 0, .ro, false, false, []⟩,
   ⟨F.NCH_SPARE_BYTES, 1, 0, 1, 0, .ro, false, false, []⟩,
   ⟨F.NCH_PAGES_PER_BLOCK, 1, 0, 1, 0, .ro, false, false, []⟩,
   ⟨F.NCH_BLOCKS_PER_LUN, 1, 0, 1, 0, .ro, false, false, []⟩,
   ⟨F.NCH_READS, 1, 0, 1, 0, .ro, false, true, []⟩,
   ⟨F.NCH_PROGRAMS, 1, 0, 1, 0, .ro, false, true, []⟩,
   ⟨F.NCH_ERASES, 1, 0, 1, 0, .ro, false, true, []⟩,
   ⟨F.NCH_RETRY_READS, 1, 0, 1, 0, .ro, false, true, []⟩,
   ⟨F.NCH_SOFT_READS, 1, 0, 1, 0, .ro, false, true, []⟩,
   ⟨F.NCH_UNCORRECTABLE, 1, 0, 1, 0, .ro, false, true, []⟩,
   ⟨F.NCH_PROG_FAILS, 1, 0, 1, 0, .ro, false, true, []⟩,
   ⟨F.NCH_ERASE_FAILS, 1, 0, 1, 0, .ro, false, true, []⟩,
   ⟨F.NCH_TIMEOUTS, 1, 0, 1, 0, .ro, false, true, []⟩,
   ⟨F.NCH_MAX_BITS, 1, 0, 1, 0, .ro, false, true, []⟩]

/-- The word rows of a MEL page. -/
def rowsMel0 : List Row :=
  [⟨F.MEL_HOST_EN, 1, 0, 1, 0, .rw, false, false, []⟩,
   ⟨F.MEL_OP, 1, 0, 1, 0, .rw, false, false, []⟩,
   ⟨F.MEL_LEVEL, 1, 0, 1, 0, .rw, false, false, []⟩,
   ⟨F.MEL_DELTA, 1, 0, 1, 0, .rw, false, false, []⟩,
   ⟨F.MEL_STREAM, 1, 0, 1, 0, .rw, false, false, []⟩,
   ⟨F.MEL_SRC, 1, 0, 1, 0, .rw, false, false, []⟩,
   ⟨F.MEL_SRC_LEN, 1, 0, 1, 0, .rw, false, false, []⟩,
   ⟨F.MEL_DST, 1, 0, 1, 0, .rw, false, false, []⟩,
   ⟨F.MEL_DST_LEN, 1, 0, 1, 0, .rw, false, false, []⟩,
   ⟨F.MEL_FIRST_FRAME, 1, 0, 1, 0, .rw, false, false, []⟩,
   ⟨F.MEL_OUT_LEN, 1, 0, 1, 0, .ro, false, false, []⟩,
   ⟨F.MEL_VERDICT, 1, 0, 1, 0, .ro, false, false, []⟩,
   ⟨F.MEL_JOB_REFUSED, 1, 0, 1, 0, .ro, false, false, []⟩,
   ⟨F.MEL_IN_BYTES, 1, 0, 1, 0, .ro, false, true, []⟩,
   ⟨F.MEL_OUT_BYTES, 1, 0, 1, 0, .ro, false, true, []⟩,
   ⟨F.MEL_ENCODED, 1, 0, 1, 0, .ro, false, true, []⟩,
   ⟨F.MEL_RAW_BLOCKS, 1, 0, 1, 0, .ro, false, true, []⟩,
   ⟨F.MEL_DECODED, 1, 0, 1, 0, .ro, false, true, []⟩,
   ⟨F.MEL_MISMATCHES, 1, 0, 1, 0, .ro, false, true, []⟩,
   ⟨F.MEL_UNVERIFIED, 1, 0, 1, 0, .ro, false, true, []⟩]
def rowsMel1 : List Row :=
  [⟨F.MEL_MALFORMED, 1, 0, 1, 0, .ro, false, true, []⟩,
   ⟨F.MEL_REFUSED, 1, 0, 1, 0, .ro, false, true, []⟩,
   ⟨F.MEL_GO, 1, 0, 1, 0, .wo, false, false, []⟩]
/-- All word rows of a MEL page. -/
def rowsMel : List Row := rowsMel0 ++ rowsMel1

/-- The word rows of a CHK page. -/
def rowsChk : List Row :=
  [⟨F.CHK_POLY 0, 8, 64, 1, 0, .rw, false, false, []⟩,
   ⟨F.CHK_BYTES 0, 8, 64, 1, 0, .rw, false, false, []⟩,
   ⟨F.CHK_AUTO_CMP 0, 8, 64, 1, 0, .rw, false, false, []⟩,
   ⟨F.CHK_INIT 0, 8, 64, 1, 0, .wo, false, false, []⟩,
   ⟨F.CHK_COMPARE 0, 8, 64, 1, 0, .wo, false, false, []⟩,
   ⟨F.CHK_GO 0, 8, 64, 1, 0, .wo, false, false, []⟩,
   ⟨F.CHK_ABORT 0, 8, 64, 1, 0, .wo, false, false, []⟩,
   ⟨F.CHK_DATA 0, 8, 64, 1, 0, .wo, false, false, []⟩,
   ⟨F.CHK_CRC_STATE 0, 8, 64, 1, 0, .rw, false, false, []⟩,
   ⟨F.CHK_EXPECT 0, 8, 64, 1, 0, .rw, false, false, []⟩,
   ⟨F.CHK_SRC 0, 8, 64, 1, 0, .rw, false, false, []⟩,
   ⟨F.CHK_LEN 0, 8, 64, 1, 0, .rw, false, false, []⟩,
   ⟨F.CHK_RESULT 0, 8, 32, 1, 0, .ro, false, false, []⟩,
   ⟨F.CHK_BUSY 0, 8, 32, 1, 0, .ro, false, false, []⟩,
   ⟨F.CHK_LAST_MISMATCH 0, 8, 32, 1, 0, .ro, false, false, []⟩,
   ⟨F.CHK_DMA_ERROR 0, 8, 32, 1, 0, .ro, false, false, []⟩,
   ⟨F.CHK_FED 0, 8, 32, 1, 0, .ro, false, true, []⟩,
   ⟨F.CHK_MATCHES 0, 8, 32, 1, 0, .ro, false, true, []⟩,
   ⟨F.CHK_MISMATCHES 0, 8, 32, 1, 0, .ro, false, true, []⟩,
   ⟨F.CHK_REFUSED 0, 8, 32, 1, 0, .ro, false, true, []⟩]

/-- The word rows of a PCIE page. -/
def rowsPcie : List Row :=
  [⟨F.PCIE_BAR2_DRAM, 1, 0, 1, 0, .rw, false, false, []⟩,
   ⟨F.PCIE_SPEED, 1, 0, 1, 0, .ro, false, false, []⟩,
   ⟨F.PCIE_WIDTH, 1, 0, 1, 0, .ro, false, false, []⟩,
   ⟨F.PCIE_MPS, 1, 0, 1, 0, .ro, false, false, []⟩,
   ⟨F.PCIE_MRRS, 1, 0, 1, 0, .ro, false, false, []⟩,
   ⟨F.PCIE_WR_BYTES, 1, 0, 1, 0, .ro, false, true, []⟩,
   ⟨F.PCIE_RD_BYTES, 1, 0, 1, 0, .ro, false, true, []⟩,
   ⟨F.PCIE_AER_CORR, 1, 0, 1, 0, .ro, false, true, []⟩,
   ⟨F.PCIE_AER_UNCORR, 1, 0, 1, 0, .ro, false, true, []⟩,
   ⟨F.PCIE_POISONED_CPL, 1, 0, 1, 0, .ro, false, true, []⟩,
   ⟨F.PCIE_FLRS, 1, 0, 1, 0, .ro, false, true, []⟩,
   ⟨F.PCIE_L1_ENTRIES, 1, 0, 1, 0, .ro, false, true, []⟩,
   ⟨F.PCIE_LINK_DOWNS, 1, 0, 1, 0, .ro, false, true, []⟩,
   ⟨F.PCIE_BME, 1, 0, 1, 0, .ro, false, false, []⟩,
   ⟨F.PCIE_D3HOT, 1, 0, 1, 0, .ro, false, false, []⟩]

/-- The word rows of a RINGS page. -/
def rowsRings : List Row :=
  [⟨F.RINGS_WB_BASE, 1, 0, 1, 0, .rw, false, false, []⟩,
   ⟨F.RINGS_NOTIFY_US, 1, 0, 1, 0, .rw, false, false, []⟩,
   ⟨F.RINGS_BIND 0, 32, 16, 1, 0, .rw, false, false, []⟩,
   ⟨F.RINGS_MODE 0, 32, 16, 1, 0, .rw, false, false, []⟩,
   ⟨F.RINGS_NOTIFY_EN 0, 32, 16, 1, 0, .rw, false, false, []⟩,
   ⟨F.RINGS_FLOW 0, 32, 16, 1, 0, .rw, false, false, []⟩,
   ⟨F.RINGS_SIZE_LOG2 0, 32, 16, 1, 0, .rw, false, false, []⟩,
   ⟨F.RINGS_BASE 0, 32, 16, 1, 0, .rw, false, false, []⟩,
   ⟨F.RINGS_HOLD_US 0, 32, 16, 1, 0, .rw, false, false, []⟩,
   ⟨F.RINGS_NOTIFY_64B 0, 32, 16, 1, 0, .rw, false, false, []⟩,
   ⟨F.RINGS_RD 0, 32, 4, 1, 0, .rw, false, false, []⟩,
   ⟨F.RINGS_ITEMS 0, 32, 8, 1, 0, .ro, false, true, []⟩,
   ⟨F.RINGS_DROPS 0, 32, 8, 1, 0, .ro, false, true, []⟩,
   ⟨F.RINGS_WR 0, 32, 4, 1, 0, .ro, false, false, []⟩,
   ⟨F.RINGS_OFF_ITEMS, 1, 0, 1, 0, .ro, false, true, []⟩,
   ⟨F.RINGS_CMD_EXEC, 1, 0, 1, 0, .ro, false, true, []⟩,
   ⟨F.RINGS_CMD_ERRORS, 1, 0, 1, 0, .ro, false, true, []⟩,
   ⟨F.RINGS_STOPPED, 1, 0, 1, 0, .ro, false, false, []⟩,
   ⟨F.RINGS_MAP 0, 32, 4, 1, 0, .rw, false, false, [0, 1, 2, 3, 4, 5, 6, 7, 8, 9, 10, 11, 12, 13, 14, 15, 16, 17, 18, 19, 20, 21, 22, 23, 24, 25, 26, 27, 28, 29, 30, 31]⟩]

/-- The word rows of a ETH page. -/
def rowsEth : List Row :=
  [⟨F.ETH_MODE, 1, 0, 1, 0, .rw, false, false, []⟩,
   ⟨F.ETH_FEC25, 1, 0, 1, 0, .rw, false, false, []⟩,
   ⟨F.ETH_AN_EN, 1, 0, 1, 0, .rw, false, false, []⟩,
   ⟨F.ETH_PAUSE_EN, 1, 0, 1, 0, .rw, false, false, []⟩,
   ⟨F.ETH_MTU, 1, 0, 1, 0, .rw, false, false, []⟩,
   ⟨F.ETH_MAC 0, 4, 32, 1, 0, .rw, false, false, []⟩,
   ⟨F.ETH_IPV4 0, 4, 32, 1, 0, .rw, false, false, []⟩,
   ⟨F.ETH_IPV6 0 0, 4, 32, 4, 4, .rw, false, false, []⟩,
   ⟨F.ETH_VLAN 0, 4, 32, 1, 0, .rw, false, false, []⟩,
   ⟨F.ETH_PCP 0, 4, 32, 1, 0, .rw, false, false, []⟩,
   ⟨F.ETH_LINK 0, 4, 4, 1, 0, .ro, false, false, []⟩,
   ⟨F.ETH_TX_PKTS, 1, 0, 1, 0, .ro, false, true, []⟩,
   ⟨F.ETH_TX_BYTES, 1, 0, 1, 0, .ro, false, true, []⟩,
   ⟨F.ETH_RX_PKTS, 1, 0, 1, 0, .ro, false, true, []⟩,
   ⟨F.ETH_RX_FCS, 1, 0, 1, 0, .ro, false, true, []⟩,
   ⟨F.ETH_FEC_CORR, 1, 0, 1, 0, .ro, false, true, []⟩,
   ⟨F.ETH_FEC_UNCORR, 1, 0, 1, 0, .ro, false, true, []⟩,
   ⟨F.ETH_RX_IGNORED, 1, 0, 1, 0, .ro, false, true, []⟩,
   ⟨F.ETH_PAUSE_RX, 1, 0, 1, 0, .ro, false, true, []⟩,
   ⟨F.ETH_LINK_DOWNS, 1, 0, 1, 0, .ro, false, true, []⟩]

/-- The word rows of a FLOWS page. -/
def rowsFlows : List Row :=
  [⟨F.FLOWS_CMD_PORT, 1, 0, 1, 0, .rw, false, false, []⟩,
   ⟨F.FLOWS_PKTS 0, 32, 4, 1, 0, .ro, false, true, []⟩,
   ⟨F.FLOWS_CMD_RX, 1, 0, 1, 0, .ro, false, true, []⟩,
   ⟨F.FLOWS_CMD_REJECTS, 1, 0, 1, 0, .ro, false, true, []⟩,
   ⟨F.FLOWS_CMD_DROPS, 1, 0, 1, 0, .ro, false, true, []⟩,
   ⟨F.FLOWS_DMAC 0, 32, 32, 1, 0, .rw, false, false, []⟩,
   ⟨F.FLOWS_ETH 0, 32, 32, 1, 0, .rw, false, false, []⟩,
   ⟨F.FLOWS_SUB 0, 32, 32, 1, 0, .rw, false, false, []⟩,
   ⟨F.FLOWS_IPV6 0, 32, 32, 1, 0, .rw, false, false, []⟩,
   ⟨F.FLOWS_DSCP 0, 32, 32, 1, 0, .rw, false, false, []⟩,
   ⟨F.FLOWS_CMD_OK 0, 32, 32, 1, 0, .rw, false, false, []⟩,
   ⟨F.FLOWS_EN 0, 32, 32, 1, 0, .rw, false, false, []⟩,
   ⟨F.FLOWS_DPORT 0, 32, 32, 1, 0, .rw, false, false, []⟩,
   ⟨F.FLOWS_SPORT 0, 32, 32, 1, 0, .rw, false, false, []⟩,
   ⟨F.FLOWS_RATE 0, 32, 32, 1, 0, .rw, false, false, []⟩,
   ⟨F.FLOWS_DIP 0 0, 32, 32, 4, 4, .rw, false, false, []⟩]

/-- The word rows of a BKP page. -/
def rowsBkp : List Row :=
  [⟨F.BKP_RETAIN 0, 4, 4, 1, 0, .rw, false, false, []⟩,
   ⟨F.BKP_SECONDS, 1, 0, 1, 0, .ro, false, false, []⟩,
   ⟨F.BKP_PHASE, 1, 0, 1, 0, .ro, false, false, []⟩,
   ⟨F.BKP_VALID, 1, 0, 1, 0, .ro, false, false, []⟩,
   ⟨F.BKP_OSC_FAIL, 1, 0, 1, 0, .ro, false, false, []⟩,
   ⟨F.BKP_VBAT_LOW, 1, 0, 1, 0, .ro, false, false, []⟩]

/-- The word rows of a PACE page. -/
def rowsPace0 : List Row :=
  [⟨F.PACE_PWR_EN, 1, 0, 1, 0, .rw, false, false, []⟩,
   ⟨F.PACE_TEMP_EN, 1, 0, 1, 0, .rw, false, false, []⟩,
   ⟨F.PACE_ENERGY_EN, 1, 0, 1, 0, .rw, false, false, []⟩,
   ⟨F.PACE_WEAR_EN, 1, 0, 1, 0, .rw, false, false, []⟩,
   ⟨F.PACE_AUTO, 1, 0, 1, 0, .rw, false, false, []⟩,
   ⟨F.PACE_STEPS, 1, 0, 1, 0, .rw, false, false, []⟩,
   ⟨F.PACE_MAN_STEP, 1, 0, 1, 0, .rw, false, false, []⟩,
   ⟨F.PACE_PWR_CAP, 1, 0, 1, 0, .rw, false, false, []⟩,
   ⟨F.PACE_PWR_AVG_MS, 1, 0, 1, 0, .rw, false, false, []⟩,
   ⟨F.PACE_T_LIMIT, 1, 0, 1, 0, .rw, false, false, []⟩,
   ⟨F.PACE_T_SPAN, 1, 0, 1, 0, .rw, false, false, []⟩,
   ⟨F.PACE_E_CAP, 1, 0, 1, 0, .rw, false, false, []⟩,
   ⟨F.PACE_EXTRA_MW, 1, 0, 1, 0, .rw, false, false, []⟩,
   ⟨F.PACE_DOWN_TH, 1, 0, 1, 0, .rw, false, false, []⟩,
   ⟨F.PACE_UP_TH, 1, 0, 1, 0, .rw, false, false, []⟩,
   ⟨F.PACE_DOWN_MS, 1, 0, 1, 0, .rw, false, false, []⟩,
   ⟨F.PACE_UP_MS, 1, 0, 1, 0, .rw, false, false, []⟩,
   ⟨F.PACE_DWELL_MS, 1, 0, 1, 0, .rw, false, false, []⟩,
   ⟨F.PACE_GRANT_TH, 1, 0, 1, 0, .rw, false, false, []⟩,
   ⟨F.PACE_OPP_TH, 1, 0, 1, 0, .rw, false, false, []⟩]
def rowsPace1 : List Row :=
  [⟨F.PACE_MAX_RUN, 1, 0, 1, 0, .rw, false, false, []⟩,
   ⟨F.PACE_REPORT_MS, 1, 0, 1, 0, .rw, false, false, []⟩,
   ⟨F.PACE_PSTATE, 1, 0, 1, 0, .wo, false, false, []⟩,
   ⟨F.PACE_WAKE_ALARM_S, 1, 0, 1, 0, .rw, false, false, []⟩,
   ⟨F.PACE_WAKE_PIN, 1, 0, 1, 0, .rw, false, false, []⟩,
   ⟨F.PACE_WAKE_EN, 1, 0, 1, 0, .rw, false, false, []⟩,
   ⟨F.PACE_JOB_COST_MW, 1, 0, 1, 0, .rw, false, false, []⟩,
   ⟨F.PACE_JOB_DUR_MS, 1, 0, 1, 0, .rw, false, false, []⟩,
   ⟨F.PACE_JOB_DEADLINE_S, 1, 0, 1, 0, .rw, false, false, []⟩,
   ⟨F.PACE_JOB_CLASS, 1, 0, 1, 0, .rw, false, false, []⟩,
   ⟨F.PACE_JOB_TAG, 1, 0, 1, 0, .rw, false, false, []⟩,
   ⟨F.PACE_JOB_POST, 1, 0, 1, 0, .wo, false, false, []⟩,
   ⟨F.PACE_JOB_ENTRY, 1, 0, 1, 0, .wo, false, false, []⟩,
   ⟨F.PACE_JOB_DONE, 1, 0, 1, 0, .wo, false, false, []⟩,
   ⟨F.PACE_PMBUS_ADDR 0, 9, 4, 1, 0, .rw, false, false, []⟩,
   ⟨F.PACE_PMBUS_PAGE 0, 9, 4, 1, 0, .rw, false, false, []⟩,
   ⟨F.PACE_TELEM_EN 0, 9, 4, 1, 0, .rw, false, false, []⟩,
   ⟨F.PACE_AVS 0, 9, 4, 1, 0, .rw, false, false, []⟩,
   ⟨F.PACE_SLEEP_OFF 0, 9, 4, 1, 0, .rw, false, false, []⟩,
   ⟨F.PACE_STEP, 1, 0, 1, 0, .ro, false, false, []⟩]
def rowsPace2 : List Row :=
  [⟨F.PACE_LIMITER, 1, 0, 1, 0, .ro, false, false, []⟩,
   ⟨F.PACE_PSTATE_NOW, 1, 0, 1, 0, .ro, false, false, []⟩,
   ⟨F.PACE_H, 1, 0, 1, 0, .ro, false, false, []⟩,
   ⟨F.PACE_H_PWR, 1, 0, 1, 0, .ro, false, false, []⟩,
   ⟨F.PACE_H_TEMP, 1, 0, 1, 0, .ro, false, false, []⟩,
   ⟨F.PACE_H_ENERGY, 1, 0, 1, 0, .ro, false, false, []⟩,
   ⟨F.PACE_H_WEAR, 1, 0, 1, 0, .ro, false, false, []⟩,
   ⟨F.PACE_P_AVG, 1, 0, 1, 0, .ro, false, false, []⟩,
   ⟨F.PACE_E_HOUR, 1, 0, 1, 0, .ro, false, false, []⟩,
   ⟨F.PACE_T_MAX_HUB, 1, 0, 1, 0, .ro, false, false, []⟩,
   ⟨F.PACE_T_MAX_A, 1, 0, 1, 0, .ro, false, false, []⟩,
   ⟨F.PACE_T_MAX_B, 1, 0, 1, 0, .ro, false, false, []⟩,
   ⟨F.PACE_STEPS_DEEPER, 1, 0, 1, 0, .ro, false, true, []⟩,
   ⟨F.PACE_STEPS_RELAXED, 1, 0, 1, 0, .ro, false, true, []⟩,
   ⟨F.PACE_OVER_LIMIT_TICKS, 1, 0, 1, 0, .ro, false, true, []⟩,
   ⟨F.PACE_JOBS_GRANTED, 1, 0, 1, 0, .ro, false, true, []⟩,
   ⟨F.PACE_JOBS_FORCED, 1, 0, 1, 0, .ro, false, true, []⟩,
   ⟨F.PACE_JOBS_REVOKED, 1, 0, 1, 0, .ro, false, true, []⟩,
   ⟨F.PACE_JOBS_REFUSED, 1, 0, 1, 0, .ro, false, true, []⟩,
   ⟨F.PACE_EST_FAILS, 1, 0, 1, 0, .ro, false, true, []⟩]
def rowsPace3 : List Row :=
  [⟨F.PACE_PSTATE_REFUSED, 1, 0, 1, 0, .ro, false, true, []⟩,
   ⟨F.PACE_TICKS, 1, 0, 1, 0, .ro, false, true, []⟩,
   ⟨F.PACE_J_OWNER 0, 64, 16, 1, 0, .ro, false, false, []⟩,
   ⟨F.PACE_J_LINE 0, 64, 16, 1, 0, .ro, false, false, []⟩,
   ⟨F.PACE_J_CLASS 0, 64, 16, 1, 0, .ro, false, false, []⟩,
   ⟨F.PACE_J_FORCED 0, 64, 16, 1, 0, .ro, false, false, []⟩,
   ⟨F.PACE_J_RUNNING 0, 64, 16, 1, 0, .ro, false, false, []⟩,
   ⟨F.PACE_J_VALID 0, 64, 16, 1, 0, .ro, false, false, []⟩,
   ⟨F.PACE_J_COST 0, 64, 16, 1, 0, .ro, false, false, []⟩,
   ⟨F.PACE_J_DUR 0, 64, 16, 1, 0, .ro, false, false, []⟩,
   ⟨F.PACE_J_DEADLINE 0, 64, 16, 1, 0, .ro, false, false, []⟩]
/-- All word rows of a PACE page. -/
def rowsPace : List Row := rowsPace0 ++ rowsPace1 ++ rowsPace2 ++ rowsPace3

/-- The word rows of a LPUL page. -/
def rowsLpul : List Row :=
  [⟨F.LPUL_PATTERN 0, 8, 64, 1, 0, .rw, false, false, []⟩,
   ⟨F.LPUL_LOOP 0, 8, 64, 1, 0, .rw, false, false, []⟩,
   ⟨F.LPUL_INVERT 0, 8, 64, 1, 0, .rw, false, false, []⟩,
   ⟨F.LPUL_DURATION_S 0, 8, 64, 1, 0, .rw, false, false, []⟩,
   ⟨F.LPUL_USER 0, 8, 64, 1, 0, .rw, false, false, []⟩,
   ⟨F.LPUL_START 0, 8, 64, 1, 0, .wo, false, false, []⟩,
   ⟨F.LPUL_STOP 0, 8, 64, 1, 0, .wo, false, false, []⟩,
   ⟨F.LPUL_INJECT 0, 8, 64, 1, 0, .wo, false, false, []⟩,
   ⟨F.LPUL_ERRORS 0, 8, 32, 1, 0, .ro, false, true, []⟩,
   ⟨F.LPUL_BITS 0, 8, 32, 1, 0, .ro, false, true, []⟩,
   ⟨F.LPUL_LOCK_LOSSES 0, 8, 32, 1, 0, .ro, false, true, []⟩,
   ⟨F.LPUL_UNIT_STATE 0, 8, 32, 1, 0, .ro, false, false, []⟩,
   ⟨F.LPUL_VERDICT 0, 8, 32, 1, 0, .ro, false, false, []⟩,
   ⟨F.LPUL_REFUSED, 1, 0, 1, 0, .ro, false, true, []⟩]

/-- The word rows of a LPUB page. -/
def rowsLpub : List Row :=
  [⟨F.LPUB_PATTERN 0, 8, 64, 1, 0, .rw, false, false, []⟩,
   ⟨F.LPUB_RANK 0, 8, 64, 1, 0, .rw, false, false, []⟩,
   ⟨F.LPUB_SCOPE 0, 8, 64, 1, 0, .rw, false, false, []⟩,
   ⟨F.LPUB_CE_MASK 0, 8, 64, 1, 0, .rw, false, false, []⟩,
   ⟨F.LPUB_PAGES 0, 8, 64, 1, 0, .rw, false, false, []⟩,
   ⟨F.LPUB_USER 0, 8, 64, 1, 0, .rw, false, false, []⟩,
   ⟨F.LPUB_RAW_MAX 0, 8, 64, 1, 0, .rw, false, false, []⟩,
   ⟨F.LPUB_START 0, 8, 64, 1, 0, .wo, false, false, []⟩,
   ⟨F.LPUB_STOP 0, 8, 64, 1, 0, .wo, false, false, []⟩,
   ⟨F.LPUB_LANE_ERR 0, 8, 32, 1, 0, .ro, false, false, []⟩,
   ⟨F.LPUB_ERRORS 0, 8, 32, 1, 0, .ro, false, true, []⟩,
   ⟨F.LPUB_FIRST_FAIL 0, 8, 32, 1, 0, .ro, false, false, []⟩,
   ⟨F.LPUB_WORST_RAW 0, 8, 32, 1, 0, .ro, false, false, []⟩,
   ⟨F.LPUB_UNIT_STATE 0, 8, 32, 1, 0, .ro, false, false, []⟩,
   ⟨F.LPUB_VERDICT 0, 8, 32, 1, 0, .ro, false, false, []⟩,
   ⟨F.LPUB_REFUSED, 1, 0, 1, 0, .ro, false, true, []⟩]

/-- The word rows of a LPUA page. -/
def rowsLpua : List Row :=
  [⟨F.LPUA_TONE_MHZ 0, 12, 64, 1, 0, .rw, false, false, []⟩,
   ⟨F.LPUA_AMP_TOL 0, 12, 64, 1, 0, .rw, false, false, []⟩,
   ⟨F.LPUA_PH_TOL 0, 12, 64, 1, 0, .rw, false, false, []⟩,
   ⟨F.LPUA_TI_TOL 0, 12, 64, 1, 0, .rw, false, false, []⟩,
   ⟨F.LPUA_AMP 0 0, 12, 32, 5, 4, .ro, false, false, []⟩,
   ⟨F.LPUA_PHASE 0 0, 12, 32, 5, 4, .ro, false, false, []⟩,
   ⟨F.LPUA_UNIT_STATE 0, 12, 32, 1, 0, .ro, false, false, []⟩,
   ⟨F.LPUA_VERDICT 0, 12, 32, 1, 0, .ro, false, false, []⟩,
   ⟨F.LPUA_REFUSED, 1, 0, 1, 0, .ro, false, true, []⟩]

/-- The word rows of a BIST page. -/
def rowsBist : List Row :=
  [⟨F.BIST_BUDGET_MS, 1, 0, 1, 0, .rw, false, false, []⟩,
   ⟨F.BIST_SLICE_MS, 1, 0, 1, 0, .rw, false, false, []⟩,
   ⟨F.BIST_REGIONS, 1, 0, 1, 0, .rw, false, false, []⟩,
   ⟨F.BIST_RUN_NOW, 1, 0, 1, 0, .wo, false, false, []⟩,
   ⟨F.BIST_LAST_MS, 1, 0, 1, 0, .ro, false, false, []⟩,
   ⟨F.BIST_RUNS, 1, 0, 1, 0, .ro, false, true, []⟩,
   ⟨F.BIST_VERDICT 0, 17, 16, 1, 0, .ro, false, false, []⟩,
   ⟨F.BIST_FIRST_BAD 0, 17, 16, 1, 0, .ro, false, false, []⟩,
   ⟨F.BIST_SLICES 0, 17, 16, 1, 0, .ro, false, false, []⟩,
   ⟨F.BIST_DURATION_US 0, 17, 16, 1, 0, .ro, false, false, []⟩,
   ⟨F.BIST_FAIL_SIG_LO 0, 17, 16, 1, 0, .ro, false, false, []⟩]

/-- The word rows of a PACETBL page. -/
def rowsPacetbl : List Row :=
  [⟨F.PACETBL_ACT 0 0, 16, 16, 4, 4, .st, false, false, []⟩]

/-- The word rows of a page of kind `k` (R45; the tables of each chapter). -/
def rowsOf : PageKind → List Row
  | .therm => rowsTherm
  | .bridge => rowsBridge
  | .cat => rowsCat
  | .pkg => rowsPkg
  | .line => rowsLine
  | .starter => rowsStarter
  | .rx => rowsRx
  | .thrx => rowsThrx
  | .slot => rowsSlot
  | .gauge => rowsGauge
  | .resamp => rowsResamp
  | .frame => rowsFrame
  | .stack => rowsStack
  | .strideCl => rowsStridecl
  | .stride => rowsStride
  | .hurdle => rowsHurdle
  | .cal => rowsCal
  | .svc => rowsSvc
  | .sfe => rowsSfe
  | .loop => rowsLoop
  | .time => rowsTime
  | .ptp => rowsPtp
  | .pps => rowsPps
  | .pf => rowsPf
  | .btn => rowsBtn
  | .shelfHub => rowsShelfh
  | .shelfDie => rowsShelfd
  | .dmc => rowsDmc
  | .dly => rowsDly
  | .arc => rowsArc
  | .nch => rowsNch
  | .mel => rowsMel
  | .chk => rowsChk
  | .pcie => rowsPcie
  | .rings => rowsRings
  | .eth => rowsEth
  | .flows => rowsFlows
  | .bkp => rowsBkp
  | .pace => rowsPace
  | .lpuLane => rowsLpul
  | .lpuBus => rowsLpub
  | .lpuAna => rowsLpua
  | .bist => rowsBist
  | .paceTbl => rowsPacetbl
  | .gpio => []
  | .alm => []

end Sys2Proof.Machine
end

