-- ==== Sys2Proof/Machine/State.lean ====
section
/-! DEFINITION. The state of the block: everything the spec gives it, as plain data, the state after
reset, and the two ways a command can stop. -/

namespace Sys2Proof.Machine

/-- A sparse table: pairs of a key and a value with rising keys (see Machine/Store.lean). -/
abbrev Store (α : Type) := List (Nat × α)

/-- The balls and internal nodes that the model drives, one name each. -/
inductive Pin
  | pgate (line : Nat)
  | tgate (line : Nat)
  | level (line : Nat)
  | dac (line : Nat)
  | thermtrip
  | supplyEn
  | ppsOut (i : Nat)
  | f10m (i : Nat)
  | pwm (k : Nat)
  | cdac (k : Nat)
  | sfe (n : Nat)
  | nandVref (i : Nat)
  deriving DecidableEq, Repr

/-- What the part sends out of its package, in the order in which it sends it.
(Log: 8 DESIGN CHOICE, 59 DESIGN CHOICE.) -/
inductive Output
  /-- the MSI-X message of vector `v` (R57) -/
  | msix (v : Nat)
  /-- the data that a register read or a BAR2 read returns -/
  | readData (v : Nat)
  /-- the bytes that a BAR2 read returns, and whether the completion is poisoned (R400) -/
  | readBytes (bytes : List Nat) (poisoned : Bool)
  /-- a write of `bytes` to host memory at `addr` (R408) -/
  | hostWrite (addr : Nat) (bytes : List Nat)
  /-- a UDP datagram of flow `flow` with its payload (R410) -/
  | datagram (flow : Nat) (bytes : List Nat)
  /-- an Ethernet reply or protocol message of a sub-port: `kind` 0 ARP reply, 1 neighbour
  advertisement, 2 echo reply, 3 Sync, 4 Follow_Up, 5 Announce, 6 Delay_Resp, 7 ESMC -/
  | ether (port sub kind : Nat) (fields : List Int)
  /-- a level on a pin: on PGATE and TGATE 0 low, 1 high, 2 high impedance; on a DAC pair its code, mid-code 8,192 -/
  | pin (p : Pin) (level : Nat)
  /-- a pulse or waveform on a pin: start and length in half nanoseconds, counted from tick 0; a pulse that
  begins where the previous one ended goes on from it -/
  | pulse (p : Pin) (start : Int) (len : Nat)
  /-- a message on a Baton port (0 UP, 1 DOWN): `kind` 0 Stocktake request, 1 Stocktake instant,
  2 Stocktake confirmation, 3 trigger, 4 timing word, 5 proxy request, 6 proxy completion,
  7 announcement, 8 replay request -/
  | baton (port kind : Nat) (fields : List Int)
  /-- an SMBus reply -/
  | smbus (bytes : List Nat)
  /-- a ZDA sentence on TOD_OUT (R309): the UTC second, as a count on the PTP epoch's scale, whether it is an
  inserted leap second, the talker (0 GP, 1 GN) and the BAUD code -/
  | zda (utc : Int) (leap : Bool) (talker baud : Nat)
  /-- a pulse on PPS_OUTi (R308): its rising edge in ps from tick 0, its length in ms, inverted or not -/
  | ppsPulse (i : Nat) (start : Int) (ms : Nat) (inverted : Bool)
  /-- F10M_OUTf runs with this delay in ps, or holds low (R308) -/
  | clock10 (f : Nat) (on : Bool) (delay : Int)
  /-- a period of PWMk: its start in ticks, high time, length, inverted or not (R295) -/
  | pwm (k start high per : Nat) (inverted : Bool)
  /-- a VOUT_COMMAND on PMBus: regulator address and page, mV (R422) -/
  | vout (addr page mv : Nat)
  /-- a rail switched on or off over PMBus (R435) -/
  | rail (addr page : Nat) (on : Bool)
  /-- rows of a bank that a DRAM controller activates and precharges to refresh them (R354) -/
  | rowRefresh (dmc bank : Nat) (rows : List Nat)
  /-- one bit that a lane unit sends inverted: LPU page, unit (R460) -/
  | inject (lpu unit : Nat)
  deriving DecidableEq, Repr

/-- MSI-X (R57): the table's Mask bits, the Function Mask, the vectors active now and the pending
bit array.
(Log: 19 PRESUMED.) -/
structure Irq where
  masked : List Nat
  funcMask : Bool
  active : List Nat
  pba : List Nat
  deriving DecidableEq, Repr

/-- An item on its way to a ring (R404): its source, its bytes, the number that R410 gives a line
frame (otherwise the sequence number stands for it) and the shelves it keeps while it is held. -/
structure Item where
  src : Nat
  bytes : List Nat
  frameNo : Option Nat
  pool : Nat
  req : Nat
  shelves : Nat
  deriving DecidableEq, Repr

/-- An item that a ring holds (R409): its sequence number and the tick it was offered at. -/
structure Held where
  item : Item
  seq : Nat
  since : Nat
  deriving DecidableEq, Repr

/-- The drops of a ring in one TAI second (R412): the second, the count, the sequence number and the
number of the first dropped item and its cause. -/
structure Loss where
  sec : Nat
  count : Nat
  seq : Nat
  num : Nat
  cause : Nat
  deriving DecidableEq, Repr

/-- A ring's state outside its registers: the next sequence number (R405), the held items, whether
the next drop is an onset of DROP (R409), the drops not yet reported, oldest first (R412), the
items written and not yet passed by RD (end offset and tick, R413), and whether one of them is
known to be older than NOTIFY_US. -/
structure RingSt where
  seq : Nat
  held : List Held
  dropArmed : Bool
  losses : List Loss
  written : List (Nat × Nat)
  aged : Bool
  deriving DecidableEq, Repr

/-- A shelf pool outside its registers (R337–R341): the owner of each shelf that is held (requester
+ 1), the round-robin pointer, and the cycles each requester has waited. -/
structure PoolSt where
  owner : List (Nat × Nat)
  rr : Nat
  waits : List (Nat × Nat)
  deriving DecidableEq, Repr

/-- A flow's earliest tick for its next item (R411); by port, the end of PAUSE and word 0x040 in force since it came up
(R418); by sub-port, the second of the latest echo reply and the replies in it (R403). -/
structure NetSt where
  flowFree : List (Nat × Nat)
  pauseUntil : List (Nat × Nat)
  echoSec : List (Nat × Nat)
  echoCount : List (Nat × Nat)
  ethCfg : List (Nat × Nat)
  deriving DecidableEq, Repr

/-- A command entry (R414), decoded. -/
structure CmdEntry where
  op : Nat
  tag : Nat
  count : Nat
  addr : Nat
  data : Nat
  mask : Nat
  timeout : Nat
  deriving DecidableEq, Repr

/-- The command path (R414, R415): the queue of entries from datagrams (32 bytes each); the entry fetched and not yet
completed, `none` between entries; since which tick it WAITs, and the tick of its latest read; the data words it has so
far, its status, the value that a MODIFY has read; whether an access of its is on its way to another package. -/
structure CmdSt where
  queue : List (List Nat)
  cur : Option CmdEntry
  waitSince : Option Nat
  readAt : Nat
  words : List Nat
  status : Nat
  old : Option Nat
  away : Bool
  deriving DecidableEq, Repr

/-- A cluster of a line (R25): powered, waking, the tick at which its wake ends or ended, and for a
Stride cluster its DVFS change in progress with the point aimed at, and its voltage in mV (R27). -/
structure ClusterSt where
  powered : Bool
  waking : Bool
  readyAt : Nat
  changing : Bool
  target : Nat
  mv : Nat
  deriving DecidableEq, Repr

/-- A converter word (R115): the samples' line (the partner's for 180° samples), the phase (0 normal, 1 fine 0°, 2 fine
180°), the sample number of its first sample in full, the 64-bit side field, the 32 raw codes, and what the Pipe clusters
know of the cores: the core serving each input, and the inputs that enter conditioning as 0 (R124, R126). -/
structure ConvW where
  src : Nat
  phase : Nat
  num : Nat
  side : Nat
  raw : List Int
  cores : List Nat
  zeros : List Bool
  deriving DecidableEq, Repr

/-- The relay channel from a line's Converter cluster to a Pipe cluster (R19, R24): the words in the FIFO of depth 8, oldest
first (a credit is spent for each), the words discarded, and whether the next word carries GAP.
(Log: 56 DESIGN CHOICE.) -/
structure RelaySt where
  fifo : List ConvW
  drops : Nat
  gapNext : Bool
  deriving DecidableEq, Repr

/-- A Stocktake in progress (R58, R61): the tick of its request on this package, if it made one;
whether it is a system Stocktake; its instant T in TAI (units of 2^-16 ns) and the epoch it gives,
once known; the package indices that confirmed to the master; whether its snapshots are taken. -/
structure StkSt where
  reqAt : Option Nat
  system : Bool
  instant : Option Int
  epoch : Nat
  confirms : List Nat
  taken : Bool
  deriving DecidableEq, Repr

/-- A commit request that waits for its capture instant (R80–R82): the tick it counts as written at, and whether
it has missed the first point of its class. -/
structure PendC where
  reqAt : Nat
  late : Bool
  deriving DecidableEq, Repr

/-- A captured commit (R49, R80): whether it is a shot commit, whether it is late, and every staged value that
differed from its field's reset value at the capture instant. -/
structure CapC where
  shotKind : Bool
  late : Bool
  vals : List (Nat × Nat)
  deriving DecidableEq, Repr

/-- A line's shot clock (R63–R88). `base`: the state without CAL, PAUSED and SAFE (0 OFF, 1 SELF, 2 LOCKED,
6 DARK); `cal`, `paused`: those conditions; `next`, `nextNo`: the next slot-0 launch instant and its shot number,
while the timeline runs; `l0`, `l0No`: the latest one, `launched`: whether S0 launched at it; `period`: PERIOD in
ticks of the running timeline; `gap`: the transition gap or start wait ends with the next slot-0 instant;
`starting`: it is the first after OFF; `waitWake`: a start waits for its clusters; `stopAt`: the tick at which the
gap of a stop ends; `darkEnd`: the tick at which the partner's service in fine mode ends; `plan`, `shot`: the COMMIT
and COMMIT_SHOT requests not captured yet; `cap`, `capShot`: those captured for the next slot-0 instant; `capFor`:
the slot-0 instant whose capture instant has passed; `ov`: the pace overrides in force (halve, frame divisor
exponent, planes dropped; none: empty) and `ovCap`: those captured for the next plan boundary (R429); `clearDue`:
the first launch after CAL or PAUSED clears the filters; `gridAt`: the tick the grid became valid at, while the line
awaits its return to LOCKED; `paceStop`: Pacer stops the line; `launches`: the slots of the current shot whose launch
instants have passed; `gapN`, `gapStep`: the enabled slots of the old plan and the ticks between their launches, in a
transition gap (R134).
(Log: 40 DESIGN CHOICE.) -/
structure LineSt where
  base : Nat
  cal : Bool
  paused : Bool
  next : Option Nat
  nextNo : Nat
  l0 : Nat
  l0No : Nat
  launched : Bool
  period : Nat
  gap : Bool
  starting : Bool
  waitWake : Bool
  stopAt : Option Nat
  darkEnd : Option Nat
  plan : Option PendC
  shot : Option PendC
  cap : Option CapC
  capShot : Option CapC
  capFor : Option Nat
  ov : List Nat
  ovCap : Option (List Nat)
  clearDue : Bool
  gridAt : Option Nat
  paceStop : Bool
  launches : List Nat
  gapN : Nat
  gapStep : Nat
  deriving DecidableEq, Repr

/-- A shot whose return is being judged (R103, R104): whether it is dim, its E in metres, whether it is a
probe shot, the tick of its launch, the first sample tick of its return window and the sum of y² and
the number of samples of that window so far. -/
structure ShotRec where
  dim : Option Bool
  e : Option Nat
  probe : Bool
  at_ : Nat
  from_ : Nat
  pSum : Nat
  pN : Nat
  deriving DecidableEq, Repr

/-- A waveform being played (R90): slot, first DAC sample number, and its registers at the launch. -/
structure Wave where
  start : Nat
  samples : Nat
  shape : Nat
  freq : Int
  bw : Nat
  amp : Nat
  deriving DecidableEq, Repr

/-- A Starter outside its registers. The diagnosis accumulation (R99): pulses, Σq, Σe, whether a pulse
was not low, whether a pulse had e below Q_MIN; the expected charges of the pulses whose windows are
open, oldest first (R98); the end of the latest PGATE pulse in half nanoseconds (R93); the shots
being judged; consecutive break shots; the collection of R105 (shots, largest E, clean); the learned
reference; the run of good probe shots (tick of the first, count); the splits of the plan cycle
(count, sum, sum of squares, ps); LEVEL_OUT before the latest slot-0 instant; the waveforms being
played; whether the present and the previous shot clipped, and the DAC sample up to
which clipped samples have been counted; the launch instant of the latest shot with a
TGATE pulse; whether the gates are driven (R95); and the latest spans of ticks in SAFE, the last one without an end while the
line is SAFE (R176). -/
structure StarterSt where
  accN : Nat
  accQ : Nat
  accE : Nat
  accHigh : Bool
  accSmall : Bool
  windows : List Nat
  gateEnd : Nat
  shots : List ShotRec
  breakRun : Nat
  colN : Nat
  colE : Nat
  colClean : Bool
  refLearn : Option Nat
  goodFrom : Option Nat
  goodN : Nat
  splitN : Nat
  splitSum : Int
  splitSq : Nat
  levelPrev : Nat
  waves : List Wave
  clipShot : Bool
  clipPrev : Bool
  clipFrom : Nat
  tgLast : Option Nat
  driven : Bool
  safeSpans : List (Nat × Option Nat)
  deriving DecidableEq, Repr

/-- A change of gain (R118–R122): the sample from which it holds, the nominal code it sets, if it does, and what it adds to
the depth. Where the code g changes with it, it is a gain step. -/
structure GainStep where
  first : Nat
  gnom : Option Nat
  dep : Int
  deriving DecidableEq, Repr

/-- Samples of a thermal converter in its statistics window (R130): how many, their sum, the least, the largest, and those at
a limit code. -/
structure ThAcc where
  n : Nat
  sum : Int
  mn : Int
  mx : Int
  ovr : Nat
  deriving DecidableEq, Repr

/-- A line's receiver outside its registers (R116–R130): the nominal code and depth before the first
listed change of gain; the changes, in order; the schedule entries reached in the current shot; the 0° raw codes of a
fine-mode word pair, with their tag, until the 180° ones come; GREF with the first sample of the plan it is of, oldest
first; the sample the auto-ranging hold counts from, per input the qualifying samples
of the detection window, the sample the window starts at, per core the consecutive stuck windows,
the tick of each core's declaration that still awaits substitution or R126, the tick each core took
its input, whether a re-test runs, the sample tick of the latest calibration handover, + 1 (R268); the cores that
have passed a re-test and still stand in MAP (R127); and the statistics windows of the thermal converters. -/
structure RxSt where
  gnom : Nat
  depth : Nat
  steps : List GainStep
  schedDone : List Nat
  half : Option (Nat × List Int)
  grefs : List (Nat × Nat)
  holdFrom : Nat
  win : List (List Nat)
  winFrom : Nat
  stuckRun : Store Nat
  failAt : Store Nat
  serveFrom : Store Nat
  requal : Bool
  handAt : Nat
  away : List Nat
  th : Store ThAcc
  deriving DecidableEq, Repr

/-- One conditioned input sample of a line (R116): its instant in ns, the four values y in quarter raw LSB and its marks
(bit 0 UNSETTLED, 1 GAIN_STEP, 2 SAT, 3 STALE, 4 CAL_STALE, 5 GAP). -/
structure InS where
  num : Nat
  xi : Int
  xq : Int
  yi : Int
  yq : Int
  marks : Nat
  deriving DecidableEq, Repr

/-- The conditioning of a line's samples in a Pipe cluster (R116, R144): the latest samples, oldest first; the sample ticks
that the normal, the 0° and the 180° streams go on with, once they have begun; the latest 180° samples before the skew
correction; and the first sample of the latest gain step. -/
structure CondSt where
  hist : List InS
  nextN : Option Nat
  next0 : Option Nat
  next1 : Option Nat
  skew : List InS
  stepNum : Option Nat
  deriving DecidableEq, Repr

/-- One slot-rate sample x(i) of both polarisations (R136). -/
structure XS where
  xr : Int
  xj : Int
  yr : Int
  yj : Int
  marks : Nat
  deriving DecidableEq, Repr

/-- One combined sample (R150). -/
structure BinS where
  bin : Nat
  phase : Int
  amp : Nat
  marks : Nat
  deriving DecidableEq, Repr

/-- A launch as its launch word gives it (R150). -/
structure Launch where
  slot : Nat
  at_ : Nat
  plan : Nat
  shot : Nat
  bins : Nat
  taps : Nat
  rate : Nat
  skipped : Bool
  stale : Bool
  cal : Bool
  deriving DecidableEq, Repr

/-- A launch window of a pipe (R133): its launch, what it was launched with (bank, P_s, SHIFT, POL_MODE,
POL_K, NCO word, fine mode) and the instant in ns from which its inputs count (R146), whether the
settling period covers it, the x of the next bins on, the bins emitted, whether its launch word has
been sent, whether a bin saturated, and the sum of AMP over the block of 16 bins in progress (R104). -/
structure PipeWin where
  launch : Launch
  from_ : Nat
  bank : Nat
  ps : Nat
  shift : Nat
  polMode : Nat
  polK : Nat
  word : Nat
  fine : Bool
  settle : Bool
  xs : List XS
  done : Nat
  lwSent : Bool
  satSeen : Bool
  blkSum : Nat
  deriving DecidableEq, Repr

/-- A listening window that has not closed (R133): its launch instant, the tick it closes at, its
bank, and the far edge, in bins, of the last block of 16 that reached END_FLOOR (R104). -/
structure ListenW where
  at_ : Nat
  closeAt : Nat
  bank : Nat
  edge : Nat
  deriving DecidableEq, Repr

/-- A slot pipe outside its registers: its windows, oldest first; the rotation table (R149); launches
left of the settling period and the instant in ns of the latest clear (R146); the listening windows
that are open, the bank that a captured plan commit names (R139); and whether the last launch had
saturated or tail bins. -/
structure PipeSt where
  wins : List PipeWin
  theta : Store Nat
  settle : Nat
  clearNs : Nat
  listen : List ListenW
  capBank : Option Nat
  satLast : Bool
  tailLast : Bool
  deriving DecidableEq, Repr


/-- A feature word (R227): value, index, id, core, port, PL, the frame number it is stamped with, marks. -/
structure FeatW where
  value : Nat
  index : Nat
  id : Nat
  core : Nat
  port : Nat
  pl : Bool
  frame : Nat
  marks : Nat
  deriving DecidableEq, Repr

/-- A frame whose feature frame is not closed (R229): number, instant in 2^-16 tick and TAI time, plan, flags
of the frame once built, the records and the count left out over FEAT_MAX, and FEAT_MAX and FEAT_WAIT for it. -/
structure FeatRec where
  num : Nat
  inst : Int
  tai : Int
  plan : Nat
  flags : Nat
  recs : List FeatW
  dropped : Nat
  mx : Nat
  wait : Nat
  deriving DecidableEq, Repr


/-- A launch whose bins reach the Frame cluster (R150, R155): its launch word, the combined samples so far
(phase, AMP, marks), in order, and whether all have come. -/
structure LaunchBins where
  launch : Launch
  bins : List BinS
  deriving DecidableEq, Repr

/-- What the gauge keeps of a slot: phases, AMP and marks of its previous launch, while it has one (R156), the marks of g
there (R160), and ψ and β of R157. -/
structure SlotG where
  prev : Option LaunchBins
  gm : List Nat
  psi : List Int
  beta : List Int
  deriving DecidableEq, Repr

/-- A channel value with its marks. -/
structure ChanV where
  v : Int
  marks : Nat
  deriving DecidableEq, Repr

/-- A merged sample after spatial resampling (R162, R164): its plan, launch instant, τ_0 in ps, whether the
line was SAFE at the launch, whether the resamplers were cleared for it (R64), and the rate of each channel. -/
structure MergedS where
  plan : Nat
  at_ : Nat
  tau : Int
  safe : Bool
  clear : Bool
  chans : List ChanV
  deriving DecidableEq, Repr

/-- A built-in detector's settings (R241, R254). -/
structure DetCfg where
  en : Bool
  first : Nat
  last : Nat
  th : Nat
  minCh : Nat
  winK : Nat
  maskU : Bool
  deriving DecidableEq, Repr

/-- A plan as the Frame cluster needs it for launches and frames of that plan: its identifier and the
fields of R154–R175; whether the Stacks run, and the reference channels of the drift filter where on (R202); the detectors
(R241); the anchor and E, in 2^-16 tick, once its first launch has come
(R165); its first frame instant and that frame's number; and the boundary that ended it.
(Log: 90 DEDUCED.) -/
structure PlanRec where
  id : Nat
  g : Nat
  mergeK : Nat
  div : Bool
  slots : Nat
  period : Nat
  rate : Nat
  gi : Nat
  bins : Nat
  tmax : Nat
  ps : Nat
  step : Nat
  origin : Int
  spacing : Nat
  channels : Nat
  d0 : Int
  kind : Nat
  pscale : Nat
  qcode : Nat
  qEn : Bool
  aEn : Bool
  mEn : Bool
  tEn : Bool
  dref : Option (Nat × Nat)
  dets : List DetCfg
  anchor : Int
  inst0 : Int
  no0 : Nat
  start : Nat
  ended : Option Nat
  deriving DecidableEq, Repr

/-- The gauge and merge stages of a line outside the registers (R155–R161): the launches arriving, by slot;
those complete and not merged, in order of completion; the slots; Φ and its marks at the latest merged
sample; the e of the latest N merged samples, newest first; merged samples left of the settling
period; the launch instants of clears not yet reached; whether the latest merged sample rejoined; and
the plans, newest first.
(Log: 81 DEDUCED.) -/
structure GaugeSt where
  arriving : Store LaunchBins
  ready : List LaunchBins
  slots : Store SlotG
  phi : List Int
  phiMarks : List Nat
  es : List (List Int)
  settle : Nat
  clears : List Nat
  rejoined : Bool
  plans : List PlanRec
  deriving DecidableEq, Repr

/-- A frame instant whose frame is not built yet (R165, R167): its number, plan, instant in 2^-16 tick,
whether its time is unqualified, and its TAI time in 2^-16 ns. -/
structure DueFrame where
  num : Nat
  plan : Nat
  inst : Int
  unq : Bool
  tai : Int
  deriving DecidableEq, Repr

/-- A launch's amplitudes, kept for the Q plane (R171). -/
structure AmpRec where
  at_ : Nat
  amps : List (Nat × Bool)
  deriving DecidableEq, Repr

/-- A frame, thermal frame or feature frame in the line die's pool, on its way to the hub (R34, R168):
kind 0 frame, 1 thermal frame, 2 feature frame, 3 capture frame; number, bytes and shelves; the decimation that
Pacer asked of the Archive's stream when it was built (R429).
(Log: 13 DESIGN CHOICE.) -/
structure OutFrame where
  kind : Nat
  num : Nat
  bytes : List Nat
  shelves : Nat
  dec : Nat
  deriving DecidableEq, Repr

/-- Resamplers and frame builder of a line outside the registers: the merged samples, oldest first; the next
frame instant in 2^-16 tick and its number; the frames to be built, oldest first; the amplitudes
kept; the PHASE accumulators in 2^-32 LSB (R170) and the clears they have not reached; whether the
latest frame had saturation, was dropped; the freeze runs (block: CRC, count); the frames whose
feature frames are not closed (R229); the frames in the line die's pool, oldest first; τ_0 in ps with the plan boundary
from which it holds (R164), and Q_BASE, K_T and TAU with the instant from which they do (R83), oldest first.
(Log: 13 DESIGN CHOICE.) -/
structure FrameSt where
  merged : List MergedS
  nextInst : Option Int
  nextNo : Nat
  due : List DueFrame
  amps : List AmpRec
  phase : List Int
  phaseClears : List Nat
  satLast : Bool
  dropLast : Bool
  runs : Store (Nat × Nat)
  feats : List FeatRec
  out : List OutFrame
  taus : List (Nat × Int)
  shotCfg : List (Nat × Nat × Nat × Nat)
  deriving DecidableEq, Repr


/-- A Stack bin of one converter (R185): accumulator, minimum, maximum, and whether a sample carried SAT. -/
structure BinAcc where
  acc : Int
  mn : Int
  mx : Int
  sat : Bool
  deriving DecidableEq, Repr

/-- The plan-class settings that a stack interval runs with (R183–R193), its thermal planes (R199) and the P grid of its
acoustic channels (R204). -/
structure StackP where
  j : Nat
  shift : Nat
  k : Nat
  solve : Nat
  start : Int
  bins : Nat
  bg : Nat
  dT : Int
  ovenFirst : Nat
  ovenLast : Nat
  ambFirst : Nat
  ambLast : Nat
  gamma : Nat
  gi : Nat
  plan : Nat
  mask : Nat
  chans : Nat
  origin : Int
  spacing : Nat
  deriving DecidableEq, Repr

/-- The results of a sensor front end channel over a stack interval (R192): sum in 1/128 °C, count, and
whether it was at some moment not classified OK. -/
structure RefAcc where
  sum : Int
  n : Nat
  bad : Bool
  deriving DecidableEq, Repr

/-- The shot-class settings of the STACK page that judge a stack, as they are at its flip (R192, R194, R196, R204). -/
structure StackLim where
  oven : Nat
  amb : Nat
  spread : Nat
  check : Nat
  fill : Nat
  dlnC : Nat
  dda : Nat
  rise : Nat
  suspect : Nat
  kT : Int
  deriving DecidableEq, Repr

/-- A stack interval (R186): its settings, its opening instant, the slot-0 instants it holds, the counted
shots, whether it holds a missed shot, a STALE shot, a SAFE instant or a counted CAL_STALE sample,
the counted samples at a limit, the references, the two banks, the Raman shots whose samples have not
come (launch, whether the Starter was STALE); for a closed one the flip, its line state, SYNC_LOST, pace step and judging
settings then; per channel the sum of θ over the A instants in it, their number, and whether the drift filter restarted at
its opening (R204). -/
structure StackIv where
  p : StackP
  openAt : Nat
  instants : Nat
  counted : Nat
  missed : Bool
  staleN : Nat
  safe : Bool
  cal : Bool
  satN : Nat
  refs : Store RefAcc
  bank0 : List BinAcc
  bank1 : List BinAcc
  shots : List (Nat × Bool)
  flipAt : Nat
  flipSt : Nat
  sync : Bool
  pace : Nat
  lim : StackLim
  thSum : List Int
  thN : Nat
  thNew : Bool
  deriving DecidableEq, Repr

/-- The resting stack (R186, R190): number, interval, ln R per bin in 2^-24, T codes and whether its thermal
frame is still to be built. -/
structure RestSt where
  no : Nat
  iv : StackIv
  lnR : List (Option Int)
  tCode : List Int
  todo : Bool
  deriving DecidableEq, Repr

/-- The Raman temperatures of a flip (R202): the flip, the settings, and T per bin from bin 0 on in 2^-24 K
above 0 °C. -/
structure TherRes where
  flipAt : Nat
  p : StackP
  temps : List (Option Int)
  deriving DecidableEq, Repr

/-- A line's Stacks, stack engine and drift filter outside the registers (R183–R204): the open interval,
closed ones that await their flip, the resting stack; the number of the next flip, whether it is the
first after a start from OFF, whether SEED waits, whether the next solution is the first after seeding;
the thermal results, newest first; the previous stack's ln R and settings; the A values in 2^-24 K above 0 °C; per
channel the sum of rates since the latest A instant, θ in 2^-40 rad, its mean over the previous interval, consecutive
flips without T_R, the flip last used; the suspect channels; whether the filter has restarted since the latest interval
opened. -/
structure StackSt where
  cur : Option StackIv
  closed : List StackIv
  rest : Option RestSt
  nextNo : Nat
  fresh : Bool
  seedWait : Bool
  seeded : Bool
  thermal : List TherRes
  prevLn : List (Option Int)
  prevP : Option StackP
  a : List (Option Int)
  rSum : List Int
  theta : List Int
  thPrev : Option (List Int)
  miss : List Nat
  lastFlip : Option Nat
  suspect : List Bool
  thNew : Bool
  deriving DecidableEq, Repr

/-- The stack constants in the Almanac (R195): ln C, Δα, and whether their CRC-32C is good. -/
structure StackConst where
  lnC : Int
  dA : Int
  ok : Bool
  deriving DecidableEq, Repr


/-- A word in an IN buffer (R225) and the number of its frame. -/
structure InW where
  word : Nat
  frame : Nat
  deriving DecidableEq, Repr

/-- The settings of an IN port from a tick on (R225). -/
structure InCfg where
  fromT : Nat
  en : Bool
  src : Nat
  dec : Nat
  th : Nat
  first : Nat
  last : Nat
  deriving DecidableEq, Repr

/-- A Stride core outside its page's registers (R207–R236). `regs`: D, A, P, B, L, M and STAT of both banks
by key; `mem`: the core store, by word; `prog`: the program store; `pc`: the address of the next
instruction, 4,096 beyond the last; `slots`: delay slots left, `target`: where they end (none: the next
address), `rti`: they end a handler; `isr`: the shadow bank is in force; `late`: register writes that
the next instruction does not see yet; `lat2`: the previous instruction issued a latency-2 operation;
`timerV`, `timerAt`: TIMER's value at a tick; the interrupt registers and the tick of each source's
onset; the mailbox; the frame context; the IN buffers by port, ports whose next word carries GAP;
whether it holds its shelf; the words at the OUT ports; the tick it began WAITING, the state before
HELD, and whether the load in progress is a restart (R233). -/
structure CoreSt where
  regs : Store Nat
  mem : Store Nat
  prog : Store Nat
  pc : Nat
  slots : Nat
  target : Option Nat
  rti : Bool
  isr : Bool
  late : List (Nat × Nat)
  lat2 : Bool
  timerV : Nat
  timerAt : Nat
  ivec : Nat
  ira : Nat
  icause : Nat
  ipend : Nat
  imask : Nat
  srcAt : Store Nat
  mailbox : Nat
  mailFull : Bool
  frame : Nat
  bufs : Store (List InW)
  gapPorts : List Nat
  shelf : Bool
  out0 : List FeatW
  out1 : List FeatW
  waitAt : Nat
  heldFrom : Nat
  reload : Bool
  deriving DecidableEq, Repr

/-- A Ledger entry before it is numbered (R249): kind, line (0xF outside lines), page type, TAI
seconds, nanoseconds and sub-nanoseconds, time quality and payload bytes; `test`: it goes to source 30 too (R471). -/
structure LedgerEntry where
  kind : Nat
  line : Nat
  ptype : Nat
  taiS : Nat
  ns : Nat
  sub : Nat
  quality : Nat
  payload : List Nat
  test : Bool := false
  deriving DecidableEq, Repr

/-- A place in the hub Ledger buffer (R252): the entry; its accession number, once it has one; for a
LOST entry the run of lost entries before it (its first number, once known, its count, and how many
of its numbers are still to be passed over, and its EVENT_OPEN entries with their places in it); whether it has gone to the
Archive's Ledger volume, and whether it is durable there. -/
structure LedgerPlace where
  entry : LedgerEntry
  num : Option Nat
  isLost : Bool
  lostFirst : Option Nat
  lostCount : Nat
  lostPend : Nat
  lostOpens : List (Nat × LedgerEntry)
  arcSent : Bool
  arcDone : Bool
  deriving DecidableEq, Repr

/-- The Ledger outside the PKG registers (R250–R252): the buffer, oldest first; the open run of lost
entries (first number, count, numbers still to be passed over); whether the last reservation failed
its verification; whether H failed its CRC, so that numbering awaits a reseed; whether a mount has
completed in this run; and the EVENT_OPEN entries of the open run with their places in it. -/
structure LedgerSt where
  places : List LedgerPlace
  lostFirst : Option Nat
  lostCount : Nat
  lostPend : Nat
  rsvFailed : Bool
  reseedWait : Bool
  mounted : Bool
  lostOpens : List (Nat × LedgerEntry)
  deriving DecidableEq, Repr

/-- A channel over its detector's threshold at a step (R246): channel, value v, ms and marks. -/
structure OverV where
  ch : Nat
  v : Int
  ms : Nat
  marks : Nat
  deriving DecidableEq, Repr

/-- A frame that has passed the detectors and awaits its sequencer step (R238): number, TAI time, flags of its
header, PSCALE, P kind, I_out in 2^-16 tick, plan, the detectors that hold, per detector the channels over
and the channel of the largest ms. -/
structure StepRec where
  num : Nat
  tai : Int
  flags : Nat
  pscale : Nat
  kind : Nat
  iout : Nat
  plan : Nat
  holds : List Bool
  overs : List (List OverV)
  peaks : List Nat
  deriving DecidableEq, Repr

/-- An event record (R245–R248): k_t, term, state and trigger time; the accession number of its EVENT_OPEN
entry, once known; plan, PSCALE and kind of frame k_t; flags so far; the peak (value, channel, step
offset), Σv², n, extent, Σ j × ms and Σ ms; the anchor, its sign at the latest step where it was over,
Z and D; I_out; the capture: whether it runs, its first frame number, the frames copied; the pin: whether
asked for, its identifier, whether refused; and, from its close on, k_c, its time, the cause and the last
frame number of the capture. -/
structure RecSt where
  kt : Nat
  term : Nat
  state : Nat
  trig : Int
  acc : Option Nat
  plan : Nat
  pscale : Nat
  kind : Nat
  flags : Nat
  peak : Option (Int × Nat × Nat)
  sumSq : Nat
  n : Nat
  lo : Nat
  hi : Nat
  jSum : Nat
  mSum : Nat
  anchor : Option Nat
  sign : Option Bool
  z : Nat
  dn : Nat
  iout : Nat
  capOn : Bool
  capFrom : Nat
  cap : List (Nat × List Nat)
  pinAsked : Bool
  pin : Option Nat
  pinRefused : Bool
  kc : Nat
  tc : Int
  cause : Nat
  endNo : Nat
  deriving DecidableEq, Repr

/-- A sequencer outside its registers: whether it entered its state at the previous step, whether it fired SIG
there, its open record, its closed records that are not emitted yet, oldest first, and of those emitted before their pin
request was answered k_t and the end of the pin's window (R247). -/
structure SeqSt where
  entered : Bool
  sig : Bool
  open_ : Option RecSt
  done : List RecSt
  gone : List (Nat × Int)
  deriving DecidableEq, Repr

/-- A feature filter's settings (R242, R254). -/
structure FiltCfg where
  en : Bool
  cores : Nat
  id : Nat
  mask : Nat
  port : Nat
  cmp : Nat
  th : Int
  deriving DecidableEq, Repr

/-- The Hurdle block of a line outside its registers (R237–R248): the latched terms and their times; the mean
squares by detector × 65,536 + channel, the P values of the previous frame and the plan they belong to;
the frames that await their step; the two sequencers; the number of the latest acoustic frame that has
reached the hub; the daily instants, in TAI seconds, that have set TOD; the latest step's number and time; and the feature
filters with the tick from which they hold, oldest first (R83). -/
structure HurdleSt where
  latched : List (Nat × Int)
  ms : Store Nat
  prevP : List Int
  detPlan : Option Nat
  steps : List StepRec
  seq0 : SeqSt
  seq1 : SeqSt
  arrived : Option Nat
  todDone : List Int
  lastK : Nat
  lastT : Int
  filts : List (Nat × List FiltCfg)
  deriving DecidableEq, Repr

/-- A pin request on its way to the Archive (R247): line, sequencer, k_t and start time. -/
structure PinAsk where
  line : Nat
  seq : Nat
  kt : Nat
  from_ : Int
  deriving DecidableEq, Repr

/-- A pin (R370): identifier, line, the sequencer and k_t that asked, the window's start and, once known, its
end; whether it has closed, been copied into EVENTS, been journalled. -/
structure PinSt where
  id : Nat
  line : Nat
  seq : Nat
  kt : Nat
  from_ : Int
  end_ : Option Int
  closed : Bool
  copied : Bool
  logged : Bool
  deriving DecidableEq, Repr

/-- A value measured in a calibration pass (R256, R271): unit, coefficient code, which input (SKEW) or pair
(QPH) it belongs to, and the new value. -/
structure CalMeas where
  unit : Nat
  coef : Nat
  idx : Nat
  v : Int
  deriving DecidableEq, Repr

/-- Self-calibration of a line outside the CAL page (R258–R269). `trig`: the trigger bits since the last accepted
pass; `dueAt`: since when a pass is due; `forced`, `forcedAt`: it is forced, since which tick; `retryAt`: no
pass starts before it; `lastPass`: the tick the timer counts from; `compatRuns`: GL-3204 passes since the last
native one. A pass that runs: `run` 1 native, 2 GL-3204; its start, the exit of the latest native pass, the
phases ended, whether it was forced, the causes it answers, the units CAL_STALE at its start, the values
measured; of a GL-3204 pass the step (0 the spare, 1–4 the inputs), the spare, the relieved core, the handover
instant, the latest return, whether the step restarts, from when the next instant may come, whether the step's
measurement has ended, and the units accepted and rejected so far. `skewOk`: the live SKEW values are accepted. `tChk`: the die temperature at the latest checks. -/
structure CalSt where
  trig : Nat
  dueAt : Option Nat
  forced : Bool
  forcedAt : Nat
  retryAt : Nat
  lastPass : Nat
  compatRuns : Nat
  run : Nat
  startAt : Nat
  endAt : Nat
  phase : Nat
  runForced : Bool
  causes : List Nat
  stale : List Nat
  meas : List CalMeas
  step : Nat
  spare : Nat
  relieved : Nat
  handAt : Option Nat
  lastRet : Nat
  restart : Bool
  readyAt : Nat
  measured : Bool
  accN : Nat
  rejN : Nat
  skewOk : Bool
  tChk : Option Int
  deriving DecidableEq, Repr

/-- A copy of a coefficient record in the Almanac (R265, R270): its sequence number, whether its CRC is good,
T_REF, the TAI seconds, SKEW_VALID and the coefficients (of a line: OFS 0–4, TRIM 0–4, SKEW 0–3, QPH_X, QPH_Y, DAC_G,
DAC_P, TOFS_S, TOFS_AS; of the service converter: OFS 0–1, TRIM 0–1; of a Photo-finish channel: K1 and K2 of its start
interpolator, then of its stop interpolator). -/
structure CalRec where
  seq : Nat
  ok : Bool
  tRef : Nat
  secs : Nat
  skewOk : Bool
  coefs : List Int
  deriving DecidableEq, Repr

/-- The accumulator record of an entry (R276). `val` is the latest result right-aligned, which the loops read. -/
structure AccRec where
  sum : Nat
  count : Nat
  mn : Int
  mx : Int
  latest : Nat
  sec : Nat
  ns : Nat
  val : Int
  deriving DecidableEq, Repr

/-- An entry that a service converter core runs (R275, R286). `kind`: 0 regular, 1 CONTROL, 2 SHOT; `word`: its
entry word as it stood when the run began; `settle`: the cycles still to discard; `sum`, `n`: the codes so far;
`first`: the tick at which the first kept conversion began; `at_`: the tick at which the cycle in progress (of a
sensor front end entry, the measurement) began; `prot`: no CONTROL trigger aborts it. Of a sensor front
end measurement, `used`: the ticks done before its latest pause; `bad`: a ball of the channel has clamped in it. -/
structure SvcRun where
  x : Nat
  kind : Nat
  word : Nat
  settle : Nat
  sum : Int
  n : Nat
  first : Option Nat
  at_ : Nat
  prot : Bool
  used : Nat
  bad : Bool
  deriving DecidableEq, Repr

/-- A service converter core (R278–R284). `run`: the entry in progress; `paused`: a regular entry that keeps its
partial sum; `scan`, `idx`: the entry words of the scan in progress, and its present entry; `aborts`: how often
in a row that entry has been aborted; `waiting`: CONTROL entries that wait; `held`: those held for a calibration;
`nextScan`: the tick at which the next timed scan falls due; `deferred`: a scan start waits for the end of a
calibration; `timed`: scans are timed since `nextScan` was set. -/
structure SvcCore where
  run : Option SvcRun
  paused : Option SvcRun
  scan : Option (List Nat)
  idx : Nat
  aborts : Nat
  waiting : List Nat
  held : List Nat
  nextScan : Nat
  timed : Bool
  deferred : Bool
  deriving DecidableEq, Repr

/-- The calibration of the service converter (R270, R283), as `CalSt` has it for a line; `run`: 0 none, 1 and 2
core 0 and core 1 calibrate, 3 core 1 is next; `want`: commands not yet answered (1 CAL_REQ, 2 CAL_FORCE, 7 fence
release); `coreAt_`: the tick at which the pass of the core in progress, or the wait for core 1, began. -/
structure SvcCalSt where
  want : List Nat
  trig : Nat
  dueAt : Option Nat
  forced : Bool
  retryAt : Nat
  lastPass : Nat
  run : Nat
  startAt : Nat
  coreAt_ : Nat
  runForced : Bool
  causes : List Nat
  stale : List Bool
  accN : Nat
  rejN : Nat
  deriving DecidableEq, Repr

/-- A sensor front end channel outside its page (R288, R290): the tick at which its tone check in progress began,
the tick of the latest check's start, and whether a wire has broken since the last check. -/
structure SfeSt where
  check : Option Nat
  lastCheck : Nat
  broke : Bool
  deriving DecidableEq, Repr

/-- A control loop (R292–R295). `i`: the integrator, in 2^-16; `yPrev`: y of the previous computation; `first`: the
next computation is the first; `fresh`: a result of the input has arrived since the previous tick; `asked`: a tick
has triggered the CONTROL entry and its result is awaited; `hold`: the run of held ticks; `calHold`: held for a
calibration (R284); `next`: the tick of the next loop tick; `pwmAt`: the start of the next PWM period; `on`: EN was
live at the latest commit. -/
structure LoopSt where
  i : Int
  yPrev : Int
  first : Bool
  fresh : Bool
  asked : Bool
  hold : Nat
  calHold : Bool
  next : Nat
  pwmAt : Nat
  on : Bool
  deriving DecidableEq, Repr


/-- The time counter and its servo (R299–R307). `base` + 655,360 × ticks is the TAI time in units of
2^-16 ns. `isSet`: a label or a backup time has been applied; `armed`: a SET_ARM awaits its edge (R302);
`lagSecond`: the TAI second that the next edge takes under TOD_LAG; `todDone`: a ZDA sentence has labelled the
counter, and `disagree`: consecutive labels since that disagree; `locked`, `held`: the servo is locked, or in
HOLDOVER; `accRun`: consecutive accepted edges under LOCK_TH; `rejects`: the errors of the consecutive rejected
edges, newest first, in units of 2^-16 ns / 125; `fresh`: no edge has come since the last label; `lastEdge`: the
tick of the latest accepted edge and its place after it, in ps (off the master, the tick of the latest entry in
`freqHist`); `freqHist`: FREQ_NOW over the seconds of lock,
newest first; `refPresent`, `windows`: the frequency reference, and the offsets of its latest complete windows,
newest first, in units of 10^-13 (R300); `windowStart`: the tick the window in progress began at; `ocxoRdy`: the
pin; `warmFrom`: the tick WARM_MIN_S counts from; `ovenRun`, `ovenBad`: consecutive OVEN_ENTRY results outside
limits, and the anomaly; `conds`: the four conditions of R300 in the order of the causes of R336; `quals`: the ticks at
which QUALIFIED changed, with its value from there on, newest first; `unqual`:
QUALIFIED was 0 at some moment of the present 1 ms interval (R305); `holdStart`: the tick of the latest entry to
HOLDOVER; `secDone`: the latest second boundary passed; `msDone`: the latest whole millisecond whose Pacer
tick has passed (R420); `zdaDone`: the latest second that a sentence named;
`outOn`, `outSq`: the outputs enabled, and those squelchable, at that boundary (0–3 PPS, 4–5 10 MHz, 6 TOD);
`squelched`: those that hold low now (R310); `leapAt`: the TAI second inserted as a leap second; `upFresh`: the
next calibrated exchange is the first (R328); `lockRun`: the tick since which the UP offsets lie within 500 ps;
`masterQual`, `masterAnn`: the master's QUALIFIED and its announced class, accuracy, variance and source; `freqFrom`,
`freqAt`, `freqGoal`: FREQ slews from the one value, at that tick, to the other (R299); `todCfg`: START_MS, TALKER and BAUD as
the latest second boundary took them (R333). -/
structure TimeSt where
  base : Int
  isSet : Bool
  armed : Bool
  lagSecond : Option Int
  todDone : Bool
  disagree : Nat
  locked : Bool
  held : Bool
  accRun : Nat
  rejects : List Int
  fresh : Bool
  lastEdge : Option (Nat × Int)
  freqHist : List Int
  refPresent : Bool
  windows : List Int
  windowStart : Option Nat
  ocxoRdy : Bool
  warmFrom : Nat
  ovenRun : Nat
  ovenBad : Bool
  conds : List Bool
  unqual : Bool
  quals : List (Nat × Bool)
  holdStart : Nat
  secDone : Int
  msDone : Int
  zdaDone : Int
  outOn : List Nat
  outSq : List Nat
  squelched : List Nat
  leapAt : Option Int
  upFresh : Bool
  lockRun : Option Nat
  masterQual : Bool
  masterAnn : List Nat
  freqFrom : Int
  freqAt : Nat
  freqGoal : Int
  todCfg : List Nat
  deriving DecidableEq, Repr

/-- A PTP port (R313, R314): the TAI second of its latest Delay_Req and how many came in it, the tick of the latest foreign
Announce, and the ticks from which its next Sync, Announce and ESMC message may leave. -/
structure PtpSt where
  sec : Nat
  count : Nat
  foreignAt : Option Nat
  syncAt : Nat
  annAt : Nat
  esmcAt : Nat
  deriving DecidableEq, Repr

/-- The configuration of a Photo-finish channel (R334), as a start takes it. -/
structure PfCfg where
  mode : Nat
  srcStart : Nat
  srcStop : Nat
  edgeStart : Nat
  edgeStop : Nat
  line : Nat
  drop : Bool
  open_ : Int
  close : Int
  statN : Nat
  deriving DecidableEq, Repr

/-- A measurement in progress (R318): its configuration, its start in ps from tick 0, and whether that start is
ambiguous. -/
structure PfRun where
  cfg : PfCfg
  at_ : Int
  ambig : Bool
  deriving DecidableEq, Repr

/-- A Photo-finish channel (R315–R324). `early`: stops that came before a start that may accept them (ps, and
whether the source is internal); `best`: the BIPOLAR stop that leads; `closed`: the close tick of the last
window that ran out; `last0`, `last1`: the latest edges that the start and stop interpolators timestamped; `n`,
`sum`, `sq`, `mn`, `mx`: the block in progress; `feed`: the line whose split the channel feeds (R322); `calRun`:
a pass runs, with the unit CAL_STALE states at its start in `calWas`; `lastPass`: the tick of the latest pass;
`lastTemp`: the hub temperature of the last accepted one; `rejRun`: consecutive rejected passes. -/
structure PfSt where
  run : Option PfRun
  early : List (Int × Bool)
  best : Option (Int × Bool)
  closed : Option Int
  last0 : Option Int
  last1 : Option Int
  n : Nat
  sum : Int
  sq : Nat
  mn : Int
  mx : Int
  feed : Option Nat
  calRun : Bool
  calWas : List Bool
  lastPass : Nat
  lastTemp : Option Int
  rejRun : Nat
  deriving DecidableEq, Repr


/-- A proxied access (R330): whose it is (0 BAR0, 1 the command in progress, 2 nobody's any more), the target package,
its register address, a write or a read, its data, the tick at which it was issued and
its size in bytes. -/
structure Proxy where
  owner : Nat
  pkg : Nat
  addr : Nat
  write : Bool
  data : Nat
  since : Nat
  size : Nat
  deriving DecidableEq, Repr

/-- A bridge (R33, R35): consecutive failed transfers of the flit being sent, whether it retrains, since which tick, the
credits in use of each virtual channel (key 4 × up + channel) and the register reads that wait for it. -/
structure BridgeSt where
  failRun : Nat
  retraining : Bool
  since : Nat
  used : Store Nat
  reads : List Proxy
  deriving DecidableEq, Repr

/-- The Baton chain. `below`, `above`: the indices announced on DOWN and on UP (R326); `upAt`, `downAt`: the tick
at which each link came UP; `proxies`: accesses without completion, in issue order; `waiting`: those that wait
because 8 reads are outstanding (R330). -/
structure BatonSt where
  below : List Nat
  above : List Nat
  upAt : Option Nat
  downAt : Option Nat
  proxies : List Proxy
  waiting : List Proxy
  deriving DecidableEq, Repr


/-- A rank migration (R350): the failing rank, the spare that takes its addresses, the tick it began at,
and the lines found uncorrectable since it began. -/
structure MigSt where
  failing : Nat
  spare : Nat
  start : Nat
  lines : List Nat
  deriving DecidableEq, Repr

/-- A DDR4 controller outside its registers (R347–R359): the poison map (line numbers), the lines
written with inverted check bits, the migration, the rank under re-qualification and its state
before, whether one rank per channel is kept as spare since initialisation, the words corrected in the present
hour, the row-hammer tallies (bank, 16 entries of row + 1 and count), the tick of the last request
and of the last self-refresh entry, the line the scrub has reached, the rank whose margin is
swept next, the word 0x040 in force since initialisation (R360), and the ticks at which the present hour, the present
refresh window, the latest margin sweep and the next pass of the scrub begin (R349, R354, R357). -/
structure DmcSt where
  poison : List Nat
  inverted : List Nat
  mig : Option MigSt
  requal : Option (Nat × Nat)
  spareEn : Bool
  ceHour : Nat
  tally : Store (List (Nat × Nat))
  lastReq : Nat
  sreAt : Nat
  scrubPos : Nat
  marginRank : Nat
  cfg : Nat
  hourAt : Nat
  winAt : Nat
  marginAt : Nat
  scrubAt : Nat
  deriving DecidableEq, Repr

/-- A valid index entry of a rolling record (R344): position, frame number, byte offset from ROLL_BASE,
unpadded length. -/
structure RollEntry where
  pos : Nat
  frame : Nat
  off : Nat
  len : Nat
  deriving DecidableEq, Repr

/-- A line's rolling record (R344): frames written since the line last started from OFF, the next
write offset in bytes, the valid index entries, oldest first, and one more than the highest number of
an acoustic frame that has been overwritten (0: none). -/
structure RollSt where
  seq : Nat
  off : Nat
  entries : List RollEntry
  lostNo : Nat
  deriving DecidableEq, Repr

/-- Something on its way into its stream's open block (R368): stream, number, TAI time in 2^-16 ns, bytes. -/
structure ArcItem where
  stream : Nat
  num : Nat
  tai : Int
  bytes : List Nat
  deriving DecidableEq, Repr

/-- An open Melain block (R368): its stream, the tick its first item arrived at, its items, oldest first, and the level, + 1, that Pacer
allowed when it was opened, 0 any (R429). -/
structure ArcOpen where
  stream : Nat
  at_ : Nat
  items : List ArcItem
  cap : Nat
  deriving DecidableEq, Repr

/-- A closed block (R368, R376). `id` rises from block to block; `items`, `first`, `last`, `from_`, `to_`: the count,
numbers and TAI times of its items; `origLen`: its original length; `data`: its original bytes until it is encoded,
its Melain bytes from then on; `logged`: the journal names it; `pin`: of a copy in EVENTS, the pin; `bad`: the
4,096-byte spans found unreadable; `cap`: the level, + 1, that Pacer allowed when it was opened, 0 any (R429). -/
structure ArcBlock where
  id : Nat
  stream : Nat
  items : Nat
  first : Nat
  last : Nat
  from_ : Int
  to_ : Int
  closedAt : Nat
  origLen : Nat
  data : List Nat
  logged : Bool
  durable : Bool
  pin : Nat
  bad : List Nat
  cap : Nat
  deriving DecidableEq, Repr

/-- A segment (R364, R369–R375). `vol`: 0 FREE, 1 CONTINUOUS, 2 EVENTS, 3 LEDGER, 4 CONFIG; `order`: rises with each
allocation; erase count; age in 2^-8 hours; `dirty`: programmed since its latest erase; the cause it is due for
refresh on and the tick since which; the bytes of its blocks and the blocks, oldest first. -/
structure ArcSeg where
  vol : Nat
  order : Nat
  erases : Nat
  age : Nat
  dirty : Bool
  due : Option (Nat × Nat)
  used : Nat
  blocks : List ArcBlock
  deriving DecidableEq, Repr

/-- The NAND geometry in use (R363): the accepted targets, as 4 × channel + target, and their common geometry. -/
structure ArcGeo where
  targets : List Nat
  pageBytes : Nat
  spareBytes : Nat
  ppb : Nat
  bpl : Nat
  luns : Nat
  planes : Nat
  deriving DecidableEq, Repr

/-- A retrieval request as its registers stood at RET_GO (R380); once it runs, the identifiers of the blocks still
to be sent. -/
structure RetReq where
  stream : Nat
  mode : Nat
  decode : Bool
  tag : Nat
  a : Nat
  aNs : Nat
  b : Nat
  bNs : Nat
  todo : Option (List Nat)
  deriving DecidableEq, Repr

/-- The Archive outside its registers (R362–R382). The geometry, once read; the segments; the blocks that carry
the factory mark or are test blocks (R463), by block key, and the test blocks; the segments of each volume, fixed at
format; items on their way to open blocks; the open blocks; the closed blocks not yet encoded, oldest first; the
next block identifier and allocation order; the segment being written in each volume, + 1; whether a checkpoint
exists, its tick and BKP.SECONDS then; the ticks of the latest AGE_UPDATE and WEAR_BUDGET; the TAI second of the format; bytes programmed by minute (minute, bytes),
newest first; the retrieval requests, the running one first, and whether it is cancelled. -/
structure ArcSt where
  geo : Option ArcGeo
  segs : Store ArcSeg
  marks : List Nat
  tests : List Nat
  quota : List Nat
  inQ : List ArcItem
  opens : List ArcOpen
  staged : List ArcBlock
  nextId : Nat
  nextOrder : Nat
  openSeg : Store Nat
  hasCkpt : Bool
  ckptAt : Nat
  ckptBkp : Nat
  ageAt : Nat
  budgetAt : Nat
  formatS : Int
  wear : List (Nat × Nat)
  rets : List RetReq
  cancel : Bool
  deriving DecidableEq, Repr

/-- A host job of a Melain engine (R393, R394), as its registers stood at GO. -/
structure MelJob where
  op : Nat
  level : Nat
  delta : Bool
  stream : Nat
  src : Nat
  srcLen : Nat
  dst : Nat
  dstLen : Nat
  first : Nat
  deriving DecidableEq, Repr


/-- Pacer outside its registers (R420–R435). `gains`: g of each rail; `ests`, `estN`: Σest of each rail and the
ticks since the latest telemetry, and `telemAt` its tick (R421); `hist`: P_est of the latest ticks in mW, newest
first; `minAcc`, `minN`: the energy account of the minute in progress in mW·ms, and its ticks; `mins`: the latest
complete minutes, newest first; `runNeg`, `runDown`, `runUp`: the ticks in a row with H below 0, below DOWN_TH and
above UP_TH since the latest change of step, and `since`: the ticks since that change, if there was one (R432);
`isOver`: H was below 0 at step STEPS at the latest tick; `repN`: ticks since the latest report, `repDue`: a report is
due, `repAt`: the TAI instant of the latest tick (R433); `revoked`: the host jobs revoked and neither granted again
nor completed (R427); `power`: the power state that an action in force asks for, 0 none (R428); `goal`: the
transition in progress, with its cause (R435); `held`: the lines that Pacer keeps stopped; `mount`: the Archive was
mounted when SLEEP began; `avs`: the AVS target of each line die in mV (R422). -/
structure PacerSt where
  gains : List Rat
  ests : List Nat
  estN : Nat
  telemAt : Nat
  hist : List Rat
  minAcc : Rat
  minN : Nat
  mins : List Rat
  runNeg : Nat
  runDown : Nat
  runUp : Nat
  since : Option Nat
  isOver : Bool
  repN : Nat
  repDue : Bool
  repAt : Int
  revoked : List Nat
  power : Nat
  goal : Option (Nat × Nat)
  held : List Nat
  mount : Bool
  avs : List Nat
  granted : Nat
  deriving DecidableEq, Repr


/-- A shut-down in progress (R453): its step; its SHUTDOWN cause; the reset that follows step 3, if one does (R441). -/
structure StopSt where
  step : Nat
  cause : Nat
  reset : Option Nat
  deriving DecidableEq, Repr

/-- A shut-down self-test as the Almanac records it (R466–R469): whether its results have served a start (R445), the
verdict of each region, its duration in ms and, for each slice that ended FAIL or INCOMPLETE, region, slice, verdict,
signature and count. -/
structure RunRec where
  spent : Bool
  verdicts : List Nat
  ms : Nat
  bad : List (List Nat)
  deriving DecidableEq, Repr

/-- The self-test sequencer (R465–R470): the run in progress: its cause, the tick of its start, the ticks that earlier
stages of a start took, the slices still to begin as (region, slice); the slice under test with the tick at which it
began; the tick at which the present region began; the verdicts of the slices of this run: (region, slice, verdict,
signature, count), latest first; the clusters of the present region powered for the slices only (R467). -/
structure BistSt where
  cause : Nat
  startAt : Nat
  before : Nat
  todo : List (Nat × Nat)
  cur : Option (Nat × Nat × Nat)
  regionAt : Nat
  done : List (List Nat)
  lent : List Nat
  deriving DecidableEq, Repr

/-- Start-up, life-cycle and recovery outside the registers (R439–R455). `held`: the part is held in reset, or is OFF;
`tripped`: the thermal trip is latched, and `tripAt` its tick (R32); `supply`: SUPPLY_EN; `offAlarm`: the alarm second
of the backup domain (R440); `fuseLc`, `fuseId`, `fuseKey`, `fuseTrim`: the fuses: life-cycle state, package ID, key
hash, GAIN_DLY trim; `fw`: image version of the firmware that runs; `cfg`: the configuration image of the slot in use,
as (address, value); `dram`: the DRAM is initialised; `cleared`: the regions cleared under R445; `releaseAt`: the tick
of the release of reset; `stop`: the shut-down in progress; `failed`: PWR_FAIL_N has fallen (R455); `kick`, `grace`:
the tick from which the watchdog counts, and whether 5 × WDOG_MS apply; `expiries`: the ticks of its expiries, latest
first (R450); `frozenAt`: line: the tick since which its frames carry FROZEN, + 1, and `autoAt`: that of its latest
automatic reset, + 1 (R452); `freeAt`: line: the tick at which the fence of its line reset is released, + 1 (R451).
In the Almanac: `orderly`, `almFw`: the shut-down marker and its firmware version; `trip`: the thermal trip: die, sensor,
reading; `keys`: the key area is not erased (R449); `slices`: the slices of the latest run marked STARTED, with their
verdict once they have one: (region, slice, verdict, signature, count), 5 while there is none; `almRun`: the record of
the latest shut-down run.
(Log: 6 DEDUCED.) -/
structure BootSt where
  held : Bool
  tripped : Bool
  tripAt : Nat
  supply : Bool
  offAlarm : Nat
  fuseLc : Nat
  fuseId : Nat
  fuseKey : List Nat
  fuseTrim : List Nat
  fw : Nat
  cfg : List (Nat × Nat)
  dram : Bool
  cleared : List Nat
  releaseAt : Nat
  stop : Option StopSt
  failed : Bool
  kick : Nat
  grace : Bool
  expiries : List Nat
  frozenAt : Store Nat
  autoAt : Store Nat
  freeAt : Store Nat
  orderly : Bool
  almFw : Nat
  trip : Option (Nat × Nat × Int)
  keys : Bool
  slices : List (List Nat)
  almRun : Option RunRec
  deriving DecidableEq, Repr

/-- A lane or bus pattern unit outside its registers (R460, R462): the tick of its START and whether its checker has
locked within 1 ms of it. -/
structure LpuSt where
  startAt : Nat
  inTime : Bool
  deriving DecidableEq, Repr


/-- What the device answers when it is asked who it is (R493): the PCIe configuration header's vendor and device ID,
revision, class code and subsystem IDs, and the JTAG IDCODE. Nothing writes them.
(Log: 259 DESIGN CHOICE.) -/
structure DeviceIds where
  pciVendor : BitVec 16
  pciDevice : BitVec 16
  pciRevision : BitVec 8
  pciClass : BitVec 24
  subVendor : BitVec 16
  subDevice : BitVec 16
  jtagIdcode : BitVec 32
  deriving DecidableEq, Repr


/-- The device without its queue of commands. The comments name what each field holds; the registers
themselves are in `regs`, one entry for each field that differs from its reset value. -/
structure Dev where
  /-- every register field that differs from its reset value -/
  regs : Store Nat
  /-- EVT_RAW of each page (R55) -/
  evt : Store Nat
  /-- the Stocktake snapshot halves (R58) -/
  snap : Store Nat
  /-- the pages whose snapshot half has been taken -/
  snapTaken : List Nat
  /-- the line regions' copy of the coefficient banks (R140, R142): 18-bit components of the taps -/
  coef : Store Nat
  /-- the pipes' own coefficient memory (R142) -/
  coefOwn : Store Nat
  /-- MSI-X -/
  irq : Irq
  /-- what the part has sent -/
  out : List Output
  /-- ticks since the release of reset -/
  ticks : Nat
  /-- MODEL'S OWN: how many free values have been taken -/
  freeN : Nat
  /-- the 32 rings -/
  rings : Store RingSt
  net : NetSt
  cmd : CmdSt
  /-- line × 11 + cluster -/
  clusters : Store ClusterSt
  /-- from the Converter cluster of a line, by line × 4 + Pipe cluster -/
  relays : Store RelaySt
  /-- line die 1 or 2 -/
  bridges : Store BridgeSt
  /-- page × 32 + unit (R12); unlisted: STALE -/
  unitStale : Store Bool
  /-- page × 32 + unit (R18); unlisted: not CAL_STALE -/
  unitCal : Store Bool
  /-- page × 32 + unit: applied epoch (R10) -/
  unitEpoch : Store Nat
  /-- region: configuration epoch (R11) -/
  epochs : Store Nat
  /-- the regions fenced now (R30) -/
  fenced : List Nat
  /-- region: tick of the latest fence release -/
  fenceFree : Store Nat
  /-- Stocktakes in progress, at most one local and one system -/
  stk : List StkSt
  /-- the package Stocktake epoch (R58) -/
  stkEpoch : Nat
  /-- the Baton chain -/
  baton : BatonSt
  /-- the time counter and its servo -/
  time : TimeSt
  /-- the PTP ports -/
  ptp : Store PtpSt
  /-- the Photo-finish channels -/
  pfs : Store PfSt
  /-- the hub Ledger buffer and its numbering -/
  ledger : LedgerSt
  /-- Almanac: the Ledger's high-water mark H (R250) -/
  almH : Nat
  /-- Almanac: H passes its CRC-32C -/
  almHOk : Bool
  /-- entries made and not yet numbered, oldest first -/
  ledgerOut : List LedgerEntry
  /-- 0 hub, 1 and 2 the line dies -/
  pools : Store PoolSt
  /-- the two DDR4 controllers -/
  dmc : Store DmcSt
  /-- MiB of each DRAM rank fitted, found at initialisation (0: none yet) -/
  rankMiB : Nat
  /-- delays in force: (channel × 216 + 6 × (9 × rank + lane) + word) -/
  dlyLive : Store Nat
  /-- Almanac: the stored delays (R355), keyed as above -/
  almDly : Store Nat
  /-- DRAM and shelf bytes by device address (R343), rising, no zero byte -/
  mem : List Host.Cell
  /-- the rolling records, by line -/
  roll : Store RollSt
  /-- job entry: its owner code + 1 (R424) -/
  jobOwner : Store Nat
  /-- the receivers, by line -/
  rx : Store RxSt
  /-- the conditioning, by line × 4 + Pipe cluster -/
  conds : Store CondSt
  /-- line × 8 + slot -/
  pipes : Store PipeSt
  /-- the 256-bit words in the FIFO to the Frame cluster, oldest first, by line × 4 + Pipe cluster -/
  toFrame : Store (List Nat)
  /-- line: causes that make a calibration due (R258): 1 command, 2 command with FORCE, 3 substitution, 4 spare return, 5 load failure, 6 fine-mode entry, 7 cluster wake or fence release -/
  calPend : Store (List Nat)
  /-- line: tick since which it runs outside gaps (R124), + 1; 0 not -/
  eligFrom : Store Nat
  /-- the lines' shot clocks -/
  lines : Store LineSt
  /-- live values before the pace overrides (R430), keyed as the live fields -/
  committed : Store Nat
  /-- the Starters, by line -/
  starters : Store StarterSt
  /-- sensor front end channel: tick of its latest result, + 1 -/
  sfeAt : Store Nat
  /-- PGATE and TGATE are held inactive: thermal trip (R95), power fail, reset -/
  gatesHeld : Bool
  /-- the gauge and merge stages, by line -/
  gauges : Store GaugeSt
  /-- the resamplers and frame builders, by line -/
  frames : Store FrameSt
  /-- the Stacks, by line -/
  ramans : Store StackSt
  /-- Almanac: the stack constants, by line -/
  almStack : Store StackConst
  /-- the lines whose Stacks a pace step pauses -/
  stkPause : List Nat
  /-- the Stride cores: line × 16 + core -/
  cores : Store CoreSt
  /-- IN port settings, newest first: (line × 16 + core) × 4 + port -/
  inCfg : Store (List InCfg)
  /-- line: the OUT port that the feature bus looks at first (core × 2 + port) -/
  busNext : Store Nat
  /-- Stride clusters that a pace step holds gated: line × 4 + cluster -/
  paceGate : List Nat
  /-- the Hurdle blocks, by line -/
  hurdles : Store HurdleSt
  /-- pin requests on their way to the Archive, oldest first -/
  pinAsk : List PinAsk
  /-- the Archive's pins, oldest first -/
  pins : List PinSt
  /-- self-calibration, by line -/
  cals : Store CalSt
  /-- Almanac: the coefficient records: owner × 2 + copy; owner 0–11 a line, 12 the service converter, 13–20 a Photo-finish channel -/
  almCal : Store CalRec
  /-- job owner: tick at which Pacer granted its job, + 1 -/
  jobSince : Store Nat
  /-- the accumulator records of entries 0–71 -/
  svcRec : Store AccRec
  /-- their Stocktake snapshot (R276) -/
  svcSnap : Store AccRec
  /-- the service converter's cores -/
  svcCores : Store SvcCore
  /-- SHOT instants to come: tick and injected entry (R279) -/
  svcShots : List (Nat × Nat)
  /-- its calibration -/
  svcCal : SvcCalSt
  /-- the sensor front end channels -/
  sfes : Store SfeSt
  /-- the control loops -/
  loops : Store LoopSt
  /-- the host jobs of the Melain engines -/
  mels : Store MelJob
  /-- engine: HOST_EN that takes effect when its job or block ends (R392) -/
  melHostNext : Store Nat
  /-- check unit: source and length of its DMA job -/
  chkJobs : Store (Nat × Nat)
  /-- the Archive -/
  arc : ArcSt
  /-- Almanac: the grown bad-block list (R372), by block key -/
  almBad : List Nat
  /-- line: highest Archive LEVEL that a pace step allows, + 1; 0 none (R430) -/
  paceMel : Store Nat
  /-- line: lowest Archive DECIM that a pace step sets -/
  paceDecim : Store Nat
  /-- regions with a commit to be applied at once (R29, R82) -/
  commitPend : List Nat
  /-- line: the pace overrides of the steps in force (R428), as in LineSt -/
  paceOv : Store (List Nat)
  /-- Pacer outside its registers -/
  pacer : PacerSt
  /-- the backup counter is this + 655,360 × ticks, in units of 2^-16 ns, while the time is not set (R307, R436) -/
  bkpBase : Int
  /-- VBAT is below 1.8 V (R436) -/
  vbatLow18 : Bool
  /-- the backup oscillator has been stopped for more than 1 s (R436) -/
  oscStop : Bool
  /-- start-up, life-cycle and recovery -/
  boot : BootSt
  /-- the self-test run in progress -/
  bist : Option BistSt
  /-- the pattern units: LPU page × 16 + unit -/
  lpus : Store LpuSt
  /-- how the device identifies itself (R493) -/
  ids : DeviceIds
  deriving DecidableEq, Repr

/-- The whole state: the commands that wait, first in first out, and the device.
(Log: 228 DESIGN CHOICE.) -/
structure State where
  pending : List Instr
  dev : Dev
  deriving DecidableEq, Repr

/-- Why a run stops with a fault: there is no such case. The spec names no access and no event at
which the part itself stops without an effect, so this type has no constructor, and every
well-formed command answers a next state. -/
inductive Fault
  deriving DecidableEq, Repr

/-- Why a command is refused. -/
inductive Refusal
  /-- the command has no meaning yet; raised by an arm of `exec`. Safe. -/
  | notModelled (mnemonic : String)
  /-- the command names a unit, line, page or value that the part does not have (it is not
  well-formed); raised by every meaning. Safe: the spec gives such a command no effect because
  nothing can send it. -/
  | noSuchUnit
  deriving DecidableEq, Repr

/-- The time counter after reset: UNSET, on the backup counter's absence (R303, R307).
(Log: 23 DESIGN CHOICE.) -/
def TimeSt.reset : TimeSt :=
  { base := 0, isSet := false, armed := false, lagSecond := none, todDone := false, disagree := 0,
    locked := false, held := false, accRun := 0, rejects := [], fresh := false, lastEdge := none,
    freqHist := [], refPresent := false, windows := [], windowStart := none, ocxoRdy := false, warmFrom := 0,
    ovenRun := 0, ovenBad := false, conds := [true, true, true, false], unqual := true, quals := [], holdStart := 0,
    secDone := 0, msDone := 0, zdaDone := 0, outOn := [], outSq := [], squelched := [], leapAt := none, upFresh := true,
    lockRun := none, masterQual := false, masterAnn := [248, 254, 65535, 160],
    freqFrom := 0, freqAt := 0, freqGoal := 0, todCfg := [100, 0, 1] }

/-- A PTP port after reset: it has received nothing. -/
def PtpSt.reset : PtpSt := ⟨0, 0, none, 0, 0, 0⟩

/-- A Photo-finish channel after reset: IDLE.
(Log: 23 DESIGN CHOICE.) -/
def PfSt.reset : PfSt :=
  { run := none, early := [], best := none, closed := none, last0 := none, last1 := none, n := 0, sum := 0,
    sq := 0, mn := 0, mx := 0, feed := none, calRun := false, calWas := [], lastPass := 0, lastTemp := none,
    rejRun := 0 }

/-- A ring after reset: OFF, empty, its next sequence number 0 (R405, R407).
(Log: 23 DESIGN CHOICE.) -/
def RingSt.reset : RingSt :=
  { seq := 0, held := [], dropArmed := true, losses := [], written := [], aged := false }

/-- A cluster after reset: gated (R25, lines are OFF). -/
def ClusterSt.reset : ClusterSt :=
  { powered := false, waking := false, readyAt := 0, changing := false, target := 3, mv := 850 }

/-- A relay channel after reset: an empty FIFO, so eight credits (R19). -/
def RelaySt.reset : RelaySt := { fifo := [], drops := 0, gapNext := false }

/-- A bridge after reset. -/
def BridgeSt.reset : BridgeSt := { failRun := 0, retraining := false, since := 0, used := [], reads := [] }

/-- A shelf pool after reset: nothing held.
(Log: 23 DESIGN CHOICE.) -/
def PoolSt.reset : PoolSt := { owner := [], rr := 0, waits := [] }
/-- A DDR4 controller after reset: nothing poisoned, no migration.
(Log: 23 DESIGN CHOICE.) -/
def DmcSt.reset : DmcSt :=
  { poison := [], inverted := [], mig := none, requal := none, spareEn := false, ceHour := 0, tally := [],
    lastReq := 0, sreAt := 0, scrubPos := 0, marginRank := 0, cfg := 0, hourAt := 0, winAt := 0,
    marginAt := 0, scrubAt := 0 }

/-- A rolling record after reset: empty. -/
def RollSt.reset : RollSt := { seq := 0, off := 0, entries := [], lostNo := 0 }

/-- A line's receiver after reset: code 0, no depth, no step.
(Log: 23 DESIGN CHOICE.) -/
def RxSt.reset : RxSt :=
  { gnom := 0, depth := 0, steps := [], schedDone := [], half := none, grefs := [], holdFrom := 0,
    win := [[], [], [], []], winFrom := 0, stuckRun := [], failAt := [], serveFrom := [], requal := false, handAt := 0,
    away := [], th := [] }

/-- A statistics window of a thermal converter as it begins. -/
def ThAcc.reset : ThAcc := ⟨0, 0, 32767, -32768, 0⟩

/-- The conditioning of a Pipe cluster after reset: no sample. -/
def CondSt.reset : CondSt := { hist := [], nextN := none, next0 := none, next1 := none, skew := [], stepNum := none }

/-- A slot pipe after reset: stopped, both banks unsealed.
(Log: 23 DESIGN CHOICE.) -/
def PipeSt.reset : PipeSt :=
  { wins := [], theta := [], settle := 0, clearNs := 0, listen := [], capBank := none, satLast := false,
    tailLast := false }

/-- A line after reset: OFF.
(Log: 23 DESIGN CHOICE.) -/
def LineSt.reset : LineSt :=
  { base := 0, cal := false, paused := false, next := none, nextNo := 0, l0 := 0, l0No := 0, launched := false,
    period := 0, gap := false, starting := false, waitWake := false, stopAt := none, darkEnd := none, plan := none,
    shot := none, cap := none, capShot := none, capFor := none, ov := [], ovCap := none, clearDue := false,
    gridAt := none, paceStop := false, launches := [], gapN := 0, gapStep := 0 }

/-- A Starter after reset: nothing judged, no reference.
(Log: 23 DESIGN CHOICE.) -/
def StarterSt.reset : StarterSt :=
  { accN := 0, accQ := 0, accE := 0, accHigh := false, accSmall := false, windows := [], gateEnd := 0,
    shots := [], breakRun := 0, colN := 0, colE := 0, colClean := true, refLearn := none, goodFrom := none,
    goodN := 0, splitN := 0, splitSum := 0, splitSq := 0, levelPrev := 0, waves := [], clipShot := false,
    clipPrev := false, clipFrom := 0, tgLast := none, driven := false, safeSpans := [] }


/-- The gauge and merge stages after reset.
(Log: 23 DESIGN CHOICE.) -/
def GaugeSt.reset : GaugeSt :=
  { arriving := [], ready := [], slots := [], phi := [], phiMarks := [], es := [], settle := 0, clears := [],
    rejoined := false, plans := [] }

/-- Resamplers and frame builder after reset.
(Log: 23 DESIGN CHOICE.) -/
def FrameSt.reset : FrameSt :=
  { merged := [], nextInst := none, nextNo := 0, due := [], amps := [], phase := [], phaseClears := [],
    satLast := false, dropLast := false, runs := [], feats := [], out := [], taus := [], shotCfg := [] }

/-- The Stacks after reset.
(Log: 23 DESIGN CHOICE.) -/
def StackSt.reset : StackSt :=
  { cur := none, closed := [], rest := none, nextNo := 0, fresh := true, seedWait := false, seeded := false,
    thermal := [], prevLn := [], prevP := none, a := [], rSum := [], theta := [], thPrev := none,
    miss := [], lastFlip := none, suspect := [], thNew := true }

/-- A Stride core after reset, and after its registers reset when a kernel starts (R207).
(Log: 23 DESIGN CHOICE, 25 DESIGN CHOICE.) -/
def CoreSt.reset : CoreSt :=
  { regs := [], mem := [], prog := [], pc := 0, slots := 0, target := none, rti := false, isr := false, late := [],
    lat2 := false, timerV := 0, timerAt := 0, ivec := 0, ira := 0, icause := 0, ipend := 0, imask := 0,
    srcAt := [], mailbox := 0, mailFull := false, frame := 0, bufs := [], gapPorts := [], shelf := false,
    out0 := [], out1 := [], waitAt := 0, heldFrom := 0, reload := false }

/-- A sequencer after reset.
(Log: 23 DESIGN CHOICE.) -/
def SeqSt.reset : SeqSt := { entered := false, sig := false, open_ := none, done := [], gone := [] }

/-- The Hurdle block of a line after reset.
(Log: 23 DESIGN CHOICE.) -/
def HurdleSt.reset : HurdleSt :=
  { latched := [], ms := [], prevP := [], detPlan := none, steps := [], seq0 := SeqSt.reset, seq1 := SeqSt.reset,
    arrived := none, todDone := [], lastK := 0, lastT := 0, filts := [] }

/-- Self-calibration of a line after reset: nothing due.
(Log: 23 DESIGN CHOICE.) -/
def CalSt.reset : CalSt :=
  { trig := 0, dueAt := none, forced := false, forcedAt := 0, retryAt := 0, lastPass := 0, compatRuns := 0, run := 0,
    startAt := 0, endAt := 0, phase := 0, runForced := false, causes := [], stale := [], meas := [], step := 0,
    spare := 0, relieved := 0, handAt := none, lastRet := 0, restart := false, readyAt := 0, measured := false,
    accN := 0, rejN := 0, skewOk := false, tChk := none }

/-- No copy of a coefficient record.
(Log: 24 DESIGN CHOICE.) -/
def CalRec.none : CalRec := { seq := 0, ok := false, tRef := 0, secs := 0, skewOk := false, coefs := [] }

/-- A record after reset, as CLR_COUNTERS leaves it.
(Log: 21 DESIGN CHOICE.) -/
def AccRec.reset : AccRec := ⟨0, 0, 0x7FFFFFFF, -0x80000000, 0, 0, 0, 0⟩

/-- A service converter core after reset: idle.
(Log: 23 DESIGN CHOICE.) -/
def SvcCore.reset : SvcCore :=
  { run := none, paused := none, scan := none, idx := 0, aborts := 0, waiting := [], held := [], nextScan := 0,
    timed := false, deferred := false }

/-- The service converter's calibration after reset: nothing due. -/
def SvcCalSt.reset : SvcCalSt :=
  { want := [], trig := 0, dueAt := none, forced := false, retryAt := 0, lastPass := 0, run := 0, startAt := 0,
    coreAt_ := 0, runForced := false, causes := [], stale := [], accN := 0, rejN := 0 }

/-- A sensor front end channel after reset: never checked. -/
def SfeSt.reset : SfeSt := ⟨none, 0, false⟩

/-- A loop after reset: off.
(Log: 23 DESIGN CHOICE.) -/
def LoopSt.reset : LoopSt :=
  { i := 0, yPrev := 0, first := true, fresh := false, asked := false, hold := 0, calHold := false, next := 0,
    pwmAt := 0, on := false }

/-- A segment that is not listed: FREE, never erased since format. -/
def ArcSeg.reset : ArcSeg :=
  { vol := 0, order := 0, erases := 0, age := 0, dirty := false, due := none, used := 0, blocks := [] }

/-- The Archive after reset: UNMOUNTED, no geometry, nothing formatted.
(Log: 23 DESIGN CHOICE.) -/
def ArcSt.reset : ArcSt :=
  { geo := none, segs := [], marks := [], tests := [], quota := [], inQ := [], opens := [], staged := [], nextId := 1,
    nextOrder := 1, openSeg := [], hasCkpt := false, ckptAt := 0, ckptBkp := 0, ageAt := 0, budgetAt := 0, formatS := 0, wear := [], rets := [],
    cancel := false }

/-- Pacer after reset: gains of 1, no history.
(Log: 23 DESIGN CHOICE.) -/
def PacerSt.reset : PacerSt :=
  { gains := List.replicate 9 1, ests := List.replicate 9 0, estN := 0, telemAt := 0, hist := [], minAcc := 0, minN := 0,
    mins := [], runNeg := 0, runDown := 0, runUp := 0, since := none, isOver := false, repN := 0, repDue := false,
    repAt := 0, revoked := [], power := 0, goal := none, held := [], mount := false, avs := [0, 0], granted := 0 }

/-- The part right after its first power-on reset: nothing recorded, a fresh part.
(Log: 23 DESIGN CHOICE.) -/
def BootSt.reset : BootSt :=
  { held := false, tripped := false, tripAt := 0, supply := true, offAlarm := 0, fuseLc := 0, fuseId := 0, fuseKey := [],
    fuseTrim := List.replicate 12 2, fw := 0, cfg := [], dram := false, cleared := [], releaseAt := 0, stop := none, failed := false,
    kick := 0, grace := false, expiries := [], frozenAt := [], autoAt := [], freeAt := [], orderly := false, almFw := 0,
    trip := none, keys := true, slices := [], almRun := none }

/-- A pattern unit after reset. -/
def LpuSt.reset : LpuSt := ⟨0, false⟩

/-- The identification of R493. -/
def DeviceIds.reset : DeviceIds :=
  { pciVendor := 0x1F9D, pciDevice := 0x9648, pciRevision := 0x01, pciClass := 0x118000, subVendor := 0x1F9D,
    subDevice := 0x9648, jtagIdcode := 0x196480E3 }

/-- The device right after reset.
(Log: 19 PRESUMED, 23 DESIGN CHOICE, 24 DESIGN CHOICE.) -/
def Dev.reset : Dev :=
  { regs := [],
    evt := [],
    snap := [],
    snapTaken := [],
    coef := [],
    coefOwn := [],
    irq := ⟨List.range 64, false, [], []⟩,
    out := [],
    ticks := 0,
    freeN := 0,
    rings := [],
    net := ⟨[], [], [], [], []⟩,
    cmd := ⟨[], none, none, 0, [], 0, none, false⟩,
    clusters := [],
    relays := [],
    bridges := [],
    unitStale := [],
    unitCal := [],
    unitEpoch := [],
    epochs := [],
    fenced := [],
    fenceFree := [],
    stk := [],
    stkEpoch := 0,
    baton := ⟨[], [], none, none, [], []⟩,
    time := TimeSt.reset,
    ptp := [],
    pfs := [],
    ledger := ⟨[], none, 0, 0, false, false, false, []⟩,
    almH := 0,
    almHOk := true,
    ledgerOut := [],
    pools := [],
    dmc := [],
    rankMiB := 0,
    dlyLive := [],
    almDly := [],
    mem := [],
    roll := [],
    jobOwner := [],
    rx := [],
    conds := [],
    pipes := [],
    toFrame := [],
    calPend := [],
    eligFrom := [],
    lines := [],
    committed := [],
    starters := [],
    sfeAt := [],
    gatesHeld := false,
    gauges := [],
    frames := [],
    ramans := [],
    almStack := [],
    stkPause := [],
    cores := [],
    inCfg := [],
    busNext := [],
    paceGate := [],
    hurdles := [],
    pinAsk := [],
    pins := [],
    cals := [],
    almCal := [],
    jobSince := [],
    svcRec := [],
    svcSnap := [],
    svcCores := [],
    svcShots := [],
    svcCal := SvcCalSt.reset,
    sfes := [],
    loops := [],
    mels := [],
    melHostNext := [],
    chkJobs := [],
    arc := ArcSt.reset,
    almBad := [],
    paceMel := [],
    paceDecim := [],
    commitPend := [],
    paceOv := [],
    pacer := PacerSt.reset,
    bkpBase := 0,
    vbatLow18 := false,
    oscStop := false,
    boot := BootSt.reset,
    bist := none,
    lpus := [],
    ids := DeviceIds.reset }

/-- The machine right after reset: nothing waits.
(Log: 9 DESIGN CHOICE, 17 DESIGN CHOICE.) -/
def State.reset : State := { pending := [], dev := Dev.reset }

end Sys2Proof.Machine
end

