-- ==== Sys2Proof/Machine/Store.lean ====
section
/-! DEFINITION. Sparse tables: lists of keys and values with strictly rising keys. A key that is not
listed holds its default, and a value equal to the default is never listed, so equal tables are
equal data. -/

namespace Sys2Proof.Machine


namespace Store

variable {α : Type}

/-- The listed value of key `k`, if any. -/
def find (t : Store α) (k : Nat) : Option α :=
  match t with
  | [] => none
  | (j, v) :: r => if j = k then some v else find r k

/-- The table without key `k`. -/
def erase (t : Store α) (k : Nat) : Store α := t.filter (fun e => e.1 != k)

/-- Insertion of a pair into a table that does not list its key, before the first greater key. -/
def insert (t : Store α) (k : Nat) (v : α) : Store α :=
  match t with
  | [] => [(k, v)]
  | e :: r => if k < e.1 then (k, v) :: e :: r else e :: insert r k v

/-- The value of key `k`, `dflt` where it is not listed. -/
def get (t : Store α) (dflt : α) (k : Nat) : α := (find t k).getD dflt

/-- The table in which key `k` holds `v`; `dflt` is what an unlisted key `k` reads as. -/
def set [DecidableEq α] (t : Store α) (dflt : α) (k : Nat) (v : α) : Store α :=
  if v = dflt then erase t k else insert (erase t k) k v

/-- The keys rise strictly. -/
def sorted (t : Store α) : Bool :=
  match t with
  | [] => true
  | [_] => true
  | a :: b :: r => decide (a.1 < b.1) && sorted (b :: r)

/-- The table without the keys from `lo` up to, not including, `hi`. -/
def clearRange (t : Store α) (lo hi : Nat) : Store α :=
  t.filter (fun e => decide (e.1 < lo) || decide (hi ≤ e.1))

end Store

end Sys2Proof.Machine
end

