-- ==== Sys2Proof/Machine/Ops.lean ====
section
/-! DEFINITION. The operations over the state that every meaning uses: registers, counters, events,
the interrupt tree, units and epochs, time stamps and Ledger entries. -/

namespace Sys2Proof.Machine

open Sys2Proof

/-! ## Registers -/

/-- The key of field `f` of page `p`: its bit address in BAR0. -/
def key (p : Nat) (f : Fld) : Nat := (p * 4096 + f.off) * 32 + f.lsb

/-- The field `f` of page `p`: its staged value, where it is an ST field (R48). -/
def getR (d : Dev) (p : Nat) (f : Fld) : Nat := Store.get d.regs f.reset (key p f)

/-- Field `f` of page `p` set to the low bits of `v`. -/
def setR (d : Dev) (p : Nat) (f : Fld) (v : Nat) : Dev :=
  { d with regs := Store.set d.regs f.reset (key p f) (v % 2 ^ f.width) }

/-- The field that holds the live value of the ST field `f`: the mirror, at its offset + 0x800
(R48). -/
def liveF (f : Fld) : Fld := { f with off := f.off + 0x800 }

/-- The live value of the ST field `f` of page `p`. -/
def getL (d : Dev) (p : Nat) (f : Fld) : Nat := getR d p (liveF f)

/-- The live value of the ST field `f` set to `v`. -/
def setL (d : Dev) (p : Nat) (f : Fld) (v : Nat) : Dev := setR d p (liveF f) v

/-- Field read as a flag. -/
def flagR (d : Dev) (p : Nat) (f : Fld) : Bool := getR d p f == 1

/-- Live field read as a flag. -/
def flagL (d : Dev) (p : Nat) (f : Fld) : Bool := getL d p f == 1

/-- Field read as a signed number of its own width. -/
def getS (d : Dev) (p : Nat) (f : Fld) : Int := sx f.width (getR d p f)

/-- Live field read as a signed number. -/
def getLS (d : Dev) (p : Nat) (f : Fld) : Int := sx f.width (getL d p f)

/-- Field set to the two's complement form of `i`. -/
def setS (d : Dev) (p : Nat) (f : Fld) (i : Int) : Dev := setR d p f (ux f.width i)

/-- A counter advanced by `n`: up to 32 bits it saturates, above it wraps (R50). -/
def addC (d : Dev) (p : Nat) (f : Fld) (n : Nat) : Dev :=
  let v := getR d p f + n
  if f.width ≤ 32 then setR d p f (min v (2 ^ f.width - 1)) else setR d p f v

/-- A counter advanced by one. -/
def bump (d : Dev) (p : Nat) (f : Fld) : Dev := addC d p f 1

/-- The largest value seen, kept in field `f`. -/
def peak (d : Dev) (p : Nat) (f : Fld) (v : Nat) : Dev :=
  if getR d p f < v then setR d p f (min v (2 ^ f.width - 1)) else d

/-- The common fields of every page (R43). -/
def cBUSY : Fld := ⟨0x00C, 0, 1, 0⟩
def cERROR : Fld := ⟨0x00C, 2, 1, 0⟩
def cSTATE : Fld := ⟨0x00C, 4, 4, 0⟩
def cEVT_EN : Fld := ⟨0x014, 0, 32, 0⟩
def cSTOCKTAKE : Fld := ⟨0x028, 16, 16, 0⟩

/-! ## Events and the interrupt tree (R55, R56, R57) -/

/-- EVT_RAW of page `p`. -/
def evtRaw (d : Dev) (p : Nat) : Nat := Store.get d.evt 0 p

/-- Event bit `b` of page `p` is raised (R55). -/
def raise (d : Dev) (p b : Nat) : Dev :=
  { d with evt := Store.set d.evt 0 p (evtRaw d p ||| 2 ^ b) }

/-- Event bit `b` of page `p` is raised at an onset: where `was` is false and `now` true (R55). -/
def raiseOn (d : Dev) (p b : Nat) (was now : Bool) : Dev :=
  if now && !was then raise d p b else d

/-- EVT_PEND of page `p` (R43). -/
def evtPend (d : Dev) (p : Nat) : Nat := evtRaw d p &&& getR d p cEVT_EN

/-- The pages with EVT_PEND ≠ 0. -/
def pendPages (d : Dev) : List Nat :=
  (d.evt.filter (fun e => e.2 &&& getR d e.1 cEVT_EN != 0)).map (·.1)

/-- The ring indication of ring `r` is pending (R413): a HOST ring other than 28 with NOTIFY_EN whose
buffer holds at least NOTIFY_64B × 64 bytes, or an item older than NOTIFY_US. -/
def ringInd (d : Dev) (r : Nat) : Bool :=
  let held := (getR d pgRings (F.RINGS_WR r) + 2 ^ 31 - getR d pgRings (F.RINGS_RD r)) %
    2 ^ clampN 12 30 (getR d pgRings (F.RINGS_SIZE_LOG2 r))
  getR d pgRings (F.RINGS_BIND r) == 1 && r != 28 && flagR d pgRings (F.RINGS_NOTIFY_EN r) &&
  decide (0 < held) &&
  (decide (getR d pgRings (F.RINGS_NOTIFY_64B r) * 64 ≤ held) || (Store.get d.rings RingSt.reset r).aged)

/-- The source of the interrupt tree that page `p` belongs to (R56). -/
def pageSource (p : Nat) : Option Nat :=
  match lineOfPage p with
  | some n => some (if n < 6 then 8 + n else 10 + n)
  | none =>
    match dieCommonOf p with
    | some (1, _) => some 14
    | some (_, _) => some 22
    | none => if p < 0x070 then some (p / 16) else none

/-- The pending sources (R56). -/
def srcPend (d : Dev) : List Nat :=
  (pendPages d).filterMap pageSource ++
  ((List.range 32).filter (ringInd d)).map (32 + ·)

/-- The active vectors (R57): those with an enabled pending source mapped to them. -/
def vecsActive (d : Dev) : List Nat :=
  let on := (srcPend d).filter (fun s => flagR d pgPkg (F.PKG_VMAP_EN s))
  let vs := on.map (fun s => getR d pgPkg (F.PKG_VMAP_VECTOR s))
  (List.range 64).filter (fun v => vs.contains v)

/-- Vector `v` is masked, by its Mask bit or by the Function Mask (R57). -/
def vecMasked (q : Irq) (v : Nat) : Bool := q.funcMask || q.masked.contains v

/-- A message of vector `v` is due: it is sent, or its pending bit is set while masked (R57). -/
def sendVec (d : Dev) (v : Nat) : Dev :=
  if vecMasked d.irq v then
    { d with irq := { d.irq with pba := if d.irq.pba.contains v then d.irq.pba else v :: d.irq.pba } }
  else { d with out := d.out ++ [.msix v] }

/-- The interrupt tree after a command: newly active vectors send their message, and while a vector is masked its pending
bit follows its activity (R57). -/
def settle (d : Dev) : Dev :=
  let act := vecsActive d
  let fresh := act.filter (fun v => !d.irq.active.contains v)
  let d := { d with irq := { d.irq with active := act, pba := act.filter (vecMasked d.irq) } }
  fresh.foldl sendVec d

/-! ## How a meaning ends -/

/-- The outcome of a command: where its operands name units that the part has, the device after
`f`, with the interrupt tree settled; else a refusal. The queue is untouched.
(Log: 6 DEDUCED.) -/
def actAlways (ok : Bool) (s : State) (f : Dev → Dev) : Host.Outcome State Fault Refusal :=
  if ok then .next { s with dev := settle (f s.dev) } else .refused .noSuchUnit

/-- The same for a command that a part held in reset, or OFF, does not take: there it has no effect (R32, R439,
R453).
(Log: 4 DESIGN CHOICE, 5 DESIGN CHOICE, 6 DEDUCED.) -/
def act (ok : Bool) (s : State) (f : Dev → Dev) : Host.Outcome State Fault Refusal :=
  if ok then (if s.dev.boot.held then .next s else .next { s with dev := settle (f s.dev) })
  else .refused .noSuchUnit

/-- Time moves on to tick `t`; a command that comes late does not move it back.
(Log: 2 DESIGN CHOICE, 10 DESIGN CHOICE.) -/
def advance (d : Dev) (t : Nat) : Dev := { d with ticks := max d.ticks t }

/-- While no command waits the clock goes on: one tick of 10 ns (DESIGN CHOICE, log entry 1).
(Log: 1 DESIGN CHOICE.) -/
def idle (d : Dev) : Dev := advance d (d.ticks + 1)

/-- The change `f`, where `c` holds.
(Log: 4 DESIGN CHOICE.) -/
def onlyIf (c : Bool) (f : Dev → Dev) (d : Dev) : Dev := if c then f d else d

/-- An output.
(Log: 8 DESIGN CHOICE.) -/
def emit (d : Dev) (o : Output) : Dev := { d with out := d.out ++ [o] }

/-- A fresh free value: one the spec leaves open.
(Log: 7 DESIGN CHOICE.) -/
def freeV (d : Dev) : Nat × Dev := (Config.freeValue d.freeN, { d with freeN := d.freeN + 1 })

/-! ## Time -/

/-- TAI now, in units of 2^-16 ns (R301).
(Log: 142 DEDUCED.) -/
def tai (d : Dev) : Int := d.time.base + 655360 * (d.ticks : Int)

/-- 2^-16 ns in one second. -/
def secU : Int := 65536000000000

/-- TAI seconds, nanoseconds and sub-nanoseconds of instant `x`. -/
def taiSec (x : Int) : Nat := (x / secU).toNat
def taiNs (x : Int) : Nat := ((x % secU) / 65536).toNat
def taiSub (x : Int) : Nat := (x % 65536).toNat

/-- The backup counter is valid (R436).
(Log: 206 DEDUCED.) -/
def bkpValid (d : Dev) : Bool := flagR d pgBkp F.BKP_VALID

/-- The backup domain's counter (R307, R436): in step with the time counter while the time is set. -/
def bkpTai (d : Dev) : Int := (if d.time.isSet then d.time.base else d.bkpBase) + 655360 * (d.ticks : Int)

/-- Its seconds and its phase in 1/32,768 s; without VALID it holds nothing usable. -/
def bkpSecs (d : Dev) : Nat := if bkpValid d then taiSec (bkpTai d) % 2 ^ 48 else 0
def bkpPhase (d : Dev) : Nat := ((bkpTai d % secU) / 2000000000).toNat

/-- Microseconds and milliseconds in ticks. -/
def usT (n : Nat) : Nat := n * 100
def msT (n : Nat) : Nat := n * 100000
def sT (n : Nat) : Nat := n * 100000000

/-- The number of ticks until TAI reaches `x`, at least 0. -/
def ticksUntil (d : Dev) (x : Int) : Nat := ((x - tai d + 655359) / 655360).toNat

/-- Times taken now are TIME_UNQUALIFIED (R305).
(Log: 145 DEDUCED.) -/
def unqualNow (d : Dev) : Bool := !(flagR d pgTime F.TIME_QUALIFIED) || d.time.unqual

/-- QUALIFIED was 0 at some moment of the 1 ms interval that contains the past instant `x` (R305).
(Log: 145 DEDUCED.) -/
def unqualAt (d : Dev) (x : Int) : Bool :=
  let tickOf (y : Int) : Int := -(fdiv (-(y - d.time.base)) 655360)
  let a := tickOf (x / 65536000000 * 65536000000)
  let b := tickOf (x / 65536000000 * 65536000000 + 65536000000)
  let during := d.time.quals.any (fun q => !q.2 && decide (a ≤ (q.1 : Int)) && decide ((q.1 : Int) < b))
  let before := ((d.time.quals.find? (fun q => decide ((q.1 : Int) ≤ a))).map (fun q => !q.2)).getD true
  during || before

/-- The package index (R37). -/
def pkgIndex (d : Dev) : Nat := getR d pgPkg F.PKG_PKG_INDEX

/-! ## The Ledger: making an entry (R249). Numbering is LEDGER_ENTRY's. -/

/-- A Ledger entry of kind `k` from line `ln` (0xF outside lines) and page type `pt`, stamped at
instant `x`, is made. -/
def ledgerAt (d : Dev) (x : Int) (k ln pt : Nat) (payload : List Nat) : Dev :=
  { d with ledgerOut := d.ledgerOut ++
      [{ kind := k, line := ln, ptype := pt, taiS := taiSec x, ns := taiNs x, sub := taiSub x,
         quality := b2n (unqualNow d) + 2 * getR d pgTime F.TIME_LABEL_BACKUP, payload := padTo 28 payload }] }

/-- A Ledger entry stamped now. -/
def ledgerNow (d : Dev) (k ln pt : Nat) (payload : List Nat) : Dev := ledgerAt d (tai d) k ln pt payload

/-! ## Units, epochs, fences (R10–R18, R29, R30, R495) -/

/-- The configuration epoch of region `r`. -/
def epoch (d : Dev) (r : Nat) : Nat := Store.get d.epochs 0 r

/-- The number of units on a page of kind `k`: the five receiver cores and the gain stage, the two
thermal converters, the Starter and its DAC pair, the two service converter cores, the two
interpolators of a Photo-finish channel; one elsewhere; none of its own on the pages of R495 and on STRIDE_CL,
which shows the units of its sixteen cores (R235, `pageUnits`). -/
def unitsOf : PageKind → Nat
  | .rx => 6
  | .thrx => 2
  | .starter => 2
  | .svc => 2
  | .pf => 2
  | .cat => 0
  | .pkg => 0
  | .shelfDie => 0
  | .bridge => 0
  | .strideCl => 0
  | _ => 1

/-- Unit `u` of page `p`. -/
def unitKey (p u : Nat) : Nat := p * 32 + u

/-- The unit is STALE (R12). -/
def isStale (d : Dev) (p u : Nat) : Bool := Store.get d.unitStale true (unitKey p u)

/-- The unit is CAL_STALE (R18). -/
def isCal (d : Dev) (p u : Nat) : Bool := Store.get d.unitCal false (unitKey p u)

/-- The epoch the unit last applied (R10). -/
def unitEpochOf (d : Dev) (p u : Nat) : Nat := Store.get d.unitEpoch 0 (unitKey p u)

/-- The unit enters STALE; STALE_ENTER is raised unless it was STALE already (R12, R16). -/
def enterStale (d : Dev) (p u : Nat) : Dev :=
  if isStale d p u then d
  else raise { d with unitStale := Store.set d.unitStale true (unitKey p u) true } p 1

/-- The unit is made CAL_STALE, or leaves it. -/
def setCal (d : Dev) (p u : Nat) (b : Bool) : Dev :=
  { d with unitCal := Store.set d.unitCal false (unitKey p u) b }

/-- The unit leaves STALE and takes its region's epoch (R14). -/
def makeCurrent (d : Dev) (p u : Nat) : Dev :=
  match regionOf p with
  | none => d
  | some r =>
    { d with unitStale := Store.set d.unitStale true (unitKey p u) false,
             unitEpoch := Store.set d.unitEpoch 0 (unitKey p u) (epoch d r) }

/-- The number of units of page `p`. -/
def unitCount (p : Nat) : Nat :=
  match kindOf p with
  | some k => match dieCommonOf p with
    | some _ => 0
    | none => unitsOf k
  | none => 0

/-- The core that serves input `i` (0 XI, 1 XQ, 2 YI, 3 YQ) of the receiver page `p` (R113). -/
def coreAt (d : Dev) (p i : Nat) : Nat :=
  getR d p (if i = 0 then F.RX_CORE_XI else if i = 1 then F.RX_CORE_XQ else if i = 2 then F.RX_CORE_YI
    else F.RX_CORE_YQ)

/-- The units that page `p` covers, in number order, each with the page that keeps it: its own, or on STRIDE_CL those of
the sixteen cores (R235). -/
def pageUnits (p : Nat) : List (Nat × Nat) :=
  if kindOf p = some .strideCl then (List.range 16).map (fun k => (pgStride ((lineOfPage p).getD 0) k, 0))
  else (List.range (unitCount p)).map (fun u => (p, u))

/-- The units that STATUS shows: on an RX page the cores serving inputs (R129), elsewhere all.
(Log: 73 DEDUCED.) -/
def statusUnits (d : Dev) (p : Nat) : List Nat :=
  if kindOf p = some .rx then
    let away := (Store.get d.rx RxSt.reset ((lineOfPage p).getD 0)).away
    ((List.range 4).map (coreAt d p)).filter (fun c => !away.contains c)
  else List.range (unitCount p)

/-- STATUS.STALE of page `p`: the OR over its units; 0 on the pages of R495 (R10, R43, R235).
(Log: 73 DEDUCED.) -/
def pageStale (d : Dev) (p : Nat) : Bool :=
  if kindOf p = some .strideCl then (pageUnits p).any (fun u => isStale d u.1 u.2)
  else (statusUnits d p).any (isStale d p)

/-- The cores serving inputs of line `n` are CAL_STALE, one of them.
(Log: 73 DEDUCED.) -/
def coresCal (d : Dev) (n : Nat) : Bool := (statusUnits d (pgRx n)).any (isCal d (pgRx n))

/-- STATUS.CAL_STALE of page `p`; on a CAL page that of the line's cores serving inputs, thermal converters and
probe DAC pair, and in fine mode of the partner's cores (R272). -/
def pageCal (d : Dev) (p : Nat) : Bool :=
  match kindOf p, lineOfPage p with
  | some .cal, some n =>
    coresCal d n || isCal d (pgThrx n) 0 || isCal d (pgThrx n) 1 || isCal d (pgStarter n) 1 ||
      (flagR d (pgLine n) F.LINE_ST_FINE && coresCal d (partner n))
  | _, _ => (statusUnits d p).any (isCal d p)

/-- EPOCH.APPLIED of page `p`: that of its lowest-numbered STALE unit, or the common epoch when no
unit is STALE; 0 on the pages of R495 (R10). -/
def pageApplied (d : Dev) (p : Nat) : Nat :=
  match (pageUnits p).find? (fun u => isStale d u.1 u.2) with
  | some u => unitEpochOf d u.1 u.2
  | none => match pageUnits p with
    | [] => 0
    | u :: _ => unitEpochOf d u.1 u.2

/-- Every unit of the pages enters STALE (R12). -/
def stalePages (d : Dev) (ps : List Nat) : Dev :=
  ps.foldl (fun d p => (List.range (unitCount p)).foldl (fun d u => enterStale d p u) d) d

/-- Every page of region `r` raises event bit `b`. -/
def raiseRegion (d : Dev) (r b : Nat) : Dev := (regionPages r).foldl (fun d p => raise d p b) d

/-- Region `r` is fenced (R30).
(Log: 257 DEDUCED.) -/
def isFenced (d : Dev) (r : Nat) : Bool := d.fenced.contains r

/-- Page `p` lies in a fenced region (R47). -/
def pageFenced (d : Dev) (p : Nat) : Bool :=
  match regionOf p with
  | some r => isFenced d r
  | none => false

/-! ## Clusters (R25) -/

/-- Cluster `c` of line `n`: 0 Converter, 1 Starter, 2–5 Pipe, 6 Frame, 7–10 Stride. -/
def cluster (d : Dev) (n c : Nat) : ClusterSt := Store.get d.clusters ClusterSt.reset (n * 11 + c)

/-- Cluster `c` of line `n` set. -/
def setCluster (d : Dev) (n c : Nat) (x : ClusterSt) : Dev :=
  { d with clusters := Store.set d.clusters ClusterSt.reset (n * 11 + c) x }

/-- The cluster is powered and its wake is complete. -/
def clusterUp (d : Dev) (n c : Nat) : Bool := (cluster d n c).powered && !(cluster d n c).waking

/-- Wake time of cluster `c`, in ticks (R25). -/
def wakeTicks (c : Nat) : Nat := if c = 0 then msT 2 else if c = 1 then usT 200 else usT 50

/-- The pages whose units cluster `c` of line `n` holds. -/
def clusterPages (n c : Nat) : List Nat :=
  if c = 0 then [pgRx n, pgThrx n]
  else if c = 1 then [pgStarter n]
  else if c < 6 then [pgSlot n (2 * (c - 2)), pgSlot n (2 * (c - 2) + 1)]
  else if c = 6 then [pgGauge n, pgResamp n, pgFrame n, pgStack n, pgHurdle n]
  else (List.range 4).map (fun i => pgStride n (4 * (c - 7) + i))

/-- The cluster that serves page `p` of line `n`; pages of the region itself have none. -/
def clusterOf (n p : Nat) : Option Nat := (List.range 11).find? (fun c => (clusterPages n c).contains p)

/-- The point at which Stride cluster `c` of line `n` runs. -/
def pointNow (d : Dev) (n c : Nat) : Nat := bits (getR d (pgStrideCl n) F.STRIDECL_POINT_NOW) (2 * c) 2

/-- The voltage of a DVFS point in mV (R27). -/
def pointMv (p : Nat) : Nat := if p = 0 then 650 else if p = 1 then 720 else if p = 2 then 800 else 850

/-- The highest voltage that a running Stride cluster of line die `k` needs of the rail, or aims at: 30 mV above its
point's (R26).
(Log: 205 DESIGN CHOICE, 230 DEDUCED.) -/
def railNeed (d : Dev) (k : Nat) : Nat :=
  (List.range 12).foldl (fun m n =>
    if dieOf n ≠ k then m
    else (List.range 4).foldl (fun m c =>
      let x := cluster d n (7 + c)
      if x.powered then max m (pointMv (if x.changing then max x.target (pointNow d n c) else pointNow d n c) + 30) else m) m) 0

/-- The AVS target of line die `k` becomes `v` mV; where its rail is marked AVS the change goes out over PMBus (R422). -/
def avsPut (d : Dev) (k v : Nat) : Dev :=
  if d.pacer.avs.getD (k - 1) 0 = v then d
  else
    let d := { d with pacer := { d.pacer with avs := d.pacer.avs.set (k - 1) v } }
    onlyIf (flagR d pgPace (F.PACE_AVS k)) (fun d =>
      emit d (.vout (getR d pgPace (F.PACE_PMBUS_ADDR k)) (getR d pgPace (F.PACE_PMBUS_PAGE k)) v)) d

/-- The AVS target of line die `k` rises at once to what its Stride clusters need (R26).
(Log: 205 DESIGN CHOICE.) -/
def avsHold (d : Dev) (k : Nat) : Dev := avsPut d k (max (d.pacer.avs.getD (k - 1) 0) (railNeed d k))

/-- A wake of a gated cluster starts (R25): power is restored, and its units are STALE (R12).
(Log: 233 DEDUCED.) -/
def wakeCluster (d : Dev) (n c : Nat) : Dev :=
  let x := cluster d n c
  if x.powered then d
  else
    let d := setCluster d n c { x with powered := true, waking := true, readyAt := d.ticks + wakeTicks c }
    stalePages (onlyIf (decide (7 ≤ c)) (fun d => avsHold d (dieOf n)) d) (clusterPages n c)

/-- A cluster is gated: no state of its units survives but their epochs; its units count as STALE
from the moment power returns (R12), and stay STALE while gated (R14). -/
def gateCluster (d : Dev) (n c : Nat) : Dev :=
  let x := cluster d n c
  if x.powered then setCluster d n c { x with powered := false, waking := false } else d

/-! ## Commits (R11) -/

/-- The cluster that serves page `p` is gated or still waking.
(Log: 233 DEDUCED.) -/
def pageAsleep (d : Dev) (p : Nat) : Bool :=
  match lineOfPage p with
  | some n => ((clusterOf n p).map (fun c => !clusterUp d n c)).getD false
  | none => false

/-- The current units of the pages take epoch `e` (R11); those of a cluster without power fall behind and are STALE
(R12).
(Log: 233 DEDUCED.) -/
def epochPages (d : Dev) (ps : List Nat) (e : Nat) : Dev :=
  ps.foldl (fun d p => (List.range (unitCount p)).foldl (fun d u =>
    if isStale d p u then d
    else if pageAsleep d p then enterStale d p u
    else { d with unitEpoch := Store.set d.unitEpoch 0 (unitKey p u) e }) d) d

/-- Region `r` applies a commit: its epoch advances modulo 65,536, its current units take it and
every page raises COMMIT_APPLIED (R11, R49).
(Log: 38 DEDUCED.) -/
def epochCommit (d : Dev) (r : Nat) : Dev :=
  let e := (epoch d r + 1) % 65536
  let d := { d with epochs := Store.set d.epochs 0 r e }
  raiseRegion (epochPages d (regionPages r) e) r 2

/-! ## Stride cores and their cycles (R26, R236) -/

/-- Core `k` of line `n`. -/
def core (d : Dev) (n k : Nat) : CoreSt := Store.get d.cores CoreSt.reset (n * 16 + k)
def setCore (d : Dev) (n k : Nat) (x : CoreSt) : Dev :=
  { d with cores := Store.set d.cores CoreSt.reset (n * 16 + k) x }

/-- STATUS.STATE of the core (R236). -/
def coreState (d : Dev) (n k : Nat) : Nat := getR d (pgStride n k) cSTATE

/-- The cluster that holds core `k`. -/
def coreCluster (k : Nat) : Nat := 7 + k / 4

/-- The Stride clock of a cluster in MHz, by its point (R26). -/
def clockMHz (d : Dev) (n k : Nat) : Nat :=
  let p := bits (getR d (pgStrideCl n) F.STRIDECL_POINT_NOW) (2 * (k / 4)) 2
  if p = 0 then 400 else if p = 1 then 650 else if p = 2 then 850 else 1000

/-- Core cycles in a span of ticks.
(Log: 100 DEDUCED.) -/
def cyclesIn (d : Dev) (n k ticks : Nat) : Nat := ticks * clockMHz d n k / 100

/-- One instruction's cycles count. -/
def addCycles (d : Dev) (n k c : Nat) : Dev := addC d (pgStride n k) F.STRIDE_CYCLES c

/-- The cycles of a WAIT in progress that CYCLES does not hold yet (R236).
(Log: 100 DEDUCED.) -/
def waitCycles (d : Dev) (n k : Nat) : Nat :=
  if coreState d n k = 2 then cyclesIn d n k (d.ticks - (core d n k).waitAt) else 0

/-- CYCLES takes them; half a cycle is left for later.
(Log: 100 DEDUCED.) -/
def waitNote (d : Dev) (n k : Nat) : Dev :=
  if coreState d n k ≠ 2 then d
  else
    let x := core d n k
    let c := (d.ticks - x.waitAt) / 2 * 2
    addCycles (setCore d n k { x with waitAt := x.waitAt + c }) n k (cyclesIn d n k c)

end Sys2Proof.Machine
end

