-- ==== Sys2Proof/Machine/Jobs.lean ====
section
/-! DEFINITION. The job board (R424): posting, forcing and freeing the jobs of the device owners. Pacer's
grants stand in Machine/Pacer.lean. -/

namespace Sys2Proof.Machine

open Sys2Proof

/-- Owner codes: 0–11 the CAL pages; 12 SVC; 13, 14 the scrubs and 15, 16 the re-sweeps of DMC0 and DMC1;
17–20 the Archive's refresh, wear move, pin copy and retrieval. -/
def ownSVC : Nat := 12
def ownScrub (c : Nat) : Nat := 13 + c
def ownSweep (c : Nat) : Nat := 15 + c
def ownRefresh : Nat := 17
def ownWear : Nat := 18
def ownPin : Nat := 19
def ownRet : Nat := 20

/-- The page type of an owner and its line, 0xF outside lines (R437). -/
def ownType (o : Nat) : Nat :=
  if o < 12 then typeCode .cal else if o = 12 then typeCode .svc else if o < 17 then typeCode .dmc
  else typeCode .arc
def ownLine (o : Nat) : Nat := if o < 12 then o else 0xF

/-- The entry that owner `o` holds. -/
def jobEntry (d : Dev) (o : Nat) : Option Nat :=
  (List.range 48).find? (fun e =>
    flagR d pgPace (F.PACE_J_VALID e) && Store.get d.jobOwner 0 e == o + 1)

/-- The owner's job runs. -/
def jobRunning (d : Dev) (o : Nat) : Bool :=
  match jobEntry d o with
  | some e => flagR d pgPace (F.PACE_J_RUNNING e)
  | none => false

/-- The owner's job has been granted since it was posted: a job whose chapter gives it no pause point runs to its end even
where Pacer revokes it (R426).
(Log: 199 DEDUCED.) -/
def jobBegun (d : Dev) (o : Nat) : Bool := (jobEntry d o).isSome && Store.get d.jobSince 0 o != 0

/-- Entry `e` filled. -/
def fillJob (d : Dev) (e own ln cls cost dur dl : Nat) : Dev :=
  let d := setR (setR d pgPace (F.PACE_J_OWNER e) own) pgPace (F.PACE_J_LINE e) ln
  let d := setR (setR d pgPace (F.PACE_J_CLASS e) cls) pgPace (F.PACE_J_FORCED e) 0
  let d := setR (setR d pgPace (F.PACE_J_RUNNING e) 0) pgPace (F.PACE_J_VALID e) 1
  setR (setR (setR d pgPace (F.PACE_J_COST e) cost) pgPace (F.PACE_J_DUR e) dur) pgPace (F.PACE_J_DEADLINE e) dl

/-- Owner `o` posts its job of class 2, into the lowest free entry of 0–47, unless it holds one (R424). -/
def postJob (d : Dev) (o cost dur dl : Nat) : Dev :=
  match jobEntry d o with
  | some _ => d
  | none =>
    match (List.range 48).find? (fun e => !flagR d pgPace (F.PACE_J_VALID e)) with
    | none => d
    | some e =>
      let d := fillJob d e (ownType o) (ownLine o) 2 cost dur dl
      { d with jobOwner := Store.set d.jobOwner 0 e (o + 1) }

/-- Entry `e` becomes forced, by its deadline (0) or its owner (1): JOB_FORCED is raised, counted and
logged (R424, R433).
(Log: 136 DESIGN CHOICE.) -/
def forceEntry (d : Dev) (e cause : Nat) : Dev :=
  if flagR d pgPace (F.PACE_J_FORCED e) then d
  else
    let d := setR d pgPace (F.PACE_J_FORCED e) 1
    let d := raise (bump d pgPace F.PACE_JOBS_FORCED) pgPace 11
    let own := getR d pgPace (F.PACE_J_OWNER e)
    ledgerNow d 0x0603 0xF (typeCode .pace) (leBytes 2 own ++ [getR d pgPace (F.PACE_J_LINE e), cause])

/-- Owner `o` declares its job forced.
(Log: 122 DEDUCED.) -/
def forceJob (d : Dev) (o : Nat) : Dev :=
  match jobEntry d o with
  | some e => forceEntry d e 1
  | none => d

/-- The entry is freed: its words read 0 again.
(Log: 136 DESIGN CHOICE.) -/
def freeEntry (d : Dev) (e : Nat) : Dev :=
  let lo := key pgPace ⟨0xC00 + 16 * e, 0, 0, 0⟩
  let since := match Store.get d.jobOwner 0 e with
    | 0 => d.jobSince
    | o + 1 => Store.erase d.jobSince o
  { d with regs := Store.clearRange d.regs lo (lo + 512), jobOwner := Store.erase d.jobOwner e, jobSince := since }

/-- The owner's job has ended. -/
def freeJob (d : Dev) (o : Nat) : Dev :=
  match jobEntry d o with
  | some e => freeEntry d e
  | none => d

/-- The tick since which Pacer has granted owner `o`'s job. -/
def jobGranted (d : Dev) (o : Nat) : Option Nat :=
  if jobRunning d o then some (Store.get d.jobSince 0 o - 1) else none

/-- The cost and duration that R424 leaves to the owner where its chapter states none.
(Log: 136 DESIGN CHOICE.) -/
def openCost (o : Nat) : Nat := Config.jobCost o % 2 ^ 18
def openDur (o : Nat) : Nat := Config.jobDur o % 2 ^ 24

end Sys2Proof.Machine
end

