-- ==== Sys2Proof/Machine/Plan.lean ====
section
/-! DEFINITION. A line's live plan and its shot clock: what the blocks of a line read from them (R63–R76,
R133). -/

namespace Sys2Proof.Machine

open Sys2Proof

/-- Line `n`'s shot clock. -/
def line (d : Dev) (n : Nat) : LineSt := Store.get d.lines LineSt.reset n
def setLine (d : Dev) (n : Nat) (x : LineSt) : Dev := { d with lines := Store.set d.lines LineSt.reset n x }

/-- Line `n`'s Starter. -/
def starter (d : Dev) (n : Nat) : StarterSt := Store.get d.starters StarterSt.reset n
def setStarter (d : Dev) (n : Nat) (x : StarterSt) : Dev :=
  { d with starters := Store.set d.starters StarterSt.reset n x }

/-- The line state shown (R63). -/
def lineState (d : Dev) (n : Nat) : Nat := getR d (pgLine n) cSTATE

/-- A live field of the LINE page. -/
def lv (d : Dev) (n : Nat) (f : Fld) : Nat := getL d (pgLine n) f

/-- Enabled slots of the live plan (R70). -/
def slotsN (d : Dev) (n : Nat) : Nat := lv d n F.LINE_SLOTS

/-- Slot rate in Hz for code `c` (R89). -/
def rateHz (c : Nat) : Nat := 25000000 * 2 ^ c

/-- The live slot rate code, that of S0 (R70). -/
def rateCode (d : Dev) (n : Nat) : Nat := lv d n (F.LINE_RATE 0)

/-- The line runs in fine mode. -/
def inFine (d : Dev) (n : Nat) : Bool := flagL d (pgLine n) F.LINE_FINE && lineState d n != 0

/-- The speed of light in m/s. -/
def cLight : Nat := 299792458

/-- M of R133 for RANGE in metres, GROUP_INDEX and rate code. -/
def binsOf (range gi rate : Nat) : Nat := cdiv (2 * gi * range * rateHz rate) (cLight * 2 ^ 28)

/-- P_s of R133: slot samples in one period. -/
def psOf (period rate : Nat) : Nat := period * rateHz rate / 100000000

/-- The identifier of the live plan. -/
def planId (d : Dev) (n : Nat) : Nat := getR d (pgLine n) F.LINE_PLAN_ID

/-- The TAI tick index of tick 0: TAI in ticks is `t + gridOfs`. -/
def gridOfs (d : Dev) : Int := d.time.base / 655360

/-- The first grid instant, in ticks, at or after tick `t` (R74). -/
def nextGrid (d : Dev) (period phase t : Nat) : Nat :=
  let g := (t : Int) + gridOfs d
  ((t : Int) + ((phase : Int) - g) % (period : Int)).toNat

/-- The shot number of the grid instant at tick `t` (R74). -/
def gridShot (d : Dev) (period phase t : Nat) : Nat :=
  (((t : Int) + gridOfs d - (phase : Int)) / (period : Int)).toNat

/-- The line emits launches normally: SELF, LOCKED or SAFE outside gaps and start waits (R124). -/
def lineEligible (d : Dev) (n : Nat) : Bool :=
  let s := lineState d n
  (s == 1 || s == 2 || s == 4) && !flagR d (pgLine n) F.LINE_IN_GAP

/-- The tick since which the line is eligible follows its state. -/
def eligShow (d : Dev) (n : Nat) : Dev :=
  let was := Store.get d.eligFrom 0 n
  if lineEligible d n then
    if was = 0 then { d with eligFrom := Store.set d.eligFrom 0 n (d.ticks + 1) } else d
  else { d with eligFrom := Store.erase d.eligFrom n }

/-- The unit's cluster is awake, and its region's fence released, at least 200 ticks before `e`. -/
def leadMet (d : Dev) (n p e : Nat) : Bool :=
  let free := decide (Store.get d.fenceFree 0 n + 200 ≤ e) && !isFenced d n
  match clusterOf n p with
  | none => free
  | some c => free && clusterUp d n c && decide ((cluster d n c).readyAt + 200 ≤ e)

/-- A calibration of line `n` is due for cause `c` (R258): 1 command, 2 command with FORCE, 3
substitution, 4 spare return, 5 load failure, 6 fine-mode entry, 7 cluster wake or fence release. -/
def calDue (d : Dev) (n c : Nat) : Dev :=
  let l := Store.get d.calPend [] n
  if l.contains c then d else { d with calPend := Store.set d.calPend [] n (l ++ [c]) }

/-- Line `n`'s self-calibration. -/
def calSt (d : Dev) (n : Nat) : CalSt := Store.get d.cals CalSt.reset n
def setCalSt (d : Dev) (n : Nat) (x : CalSt) : Dev := { d with cals := Store.set d.cals CalSt.reset n x }

/-! ## Coefficient records in the Almanac (R18, R265, R266, R270)

Owner 0–11: a line; 12: the service converter; 13–20: a Photo-finish channel. -/

/-- Copy `k` of the records: owner `o` has copies 2·`o` and 2·`o` + 1. -/
def calCopy (d : Dev) (k : Nat) : CalRec := Store.get d.almCal CalRec.none k

/-- The copy that holds owner `o`'s latest good record. -/
def calBest (d : Dev) (o : Nat) : Option Nat :=
  let a := calCopy d (2 * o)
  let b := calCopy d (2 * o + 1)
  if a.ok ∧ (!b.ok ∨ b.seq < a.seq) then some (2 * o)
  else if b.ok then some (2 * o + 1) else none

/-- The copy of owner `o` that is written next: the older one. -/
def calOlder (d : Dev) (o : Nat) : Nat := if calBest d o = some (2 * o) then 2 * o + 1 else 2 * o

/-- Owner `o`'s older copy is written with the next sequence number; `ok`: the write is verified (R265).
(Log: 120 DEDUCED, 254 DEDUCED.) -/
def almPut (d : Dev) (o : Nat) (ok : Bool) (tRef secs : Nat) (skewOk : Bool) (coefs : List Int) : Dev :=
  let seq := (((calBest d o).map (fun b => (calCopy d b).seq)).getD 0) + 1
  let r : CalRec := { seq := seq, ok := ok, tRef := tRef, secs := secs, skewOk := skewOk, coefs := coefs }
  { d with almCal := Store.set d.almCal CalRec.none (calOlder d o) r }

/-- Line `n`'s Hurdle block. -/
def hurdle (d : Dev) (n : Nat) : HurdleSt := Store.get d.hurdles HurdleSt.reset n
def setHurdle (d : Dev) (n : Nat) (x : HurdleSt) : Dev :=
  { d with hurdles := Store.set d.hurdles HurdleSt.reset n x }

/-- Latched term `k` is set at time `x`; it keeps the earliest time (R237). -/
def latchTerm (d : Dev) (n k : Nat) (x : Int) : Dev :=
  let h := hurdle d n
  match h.latched.find? (fun e => e.1 == k) with
  | some e => setHurdle d n { h with latched := (k, min e.2 x) :: h.latched.filter (fun e => e.1 != k) }
  | none => setHurdle d n { h with latched := (k, x) :: h.latched }

end Sys2Proof.Machine
end

