-- ==== Sys2Proof/Machine/Elem.lean ====
section
/-! DEFINITION. The elementary functions that the rules name (square root, exponential, logarithm, sine, cosine, argument,
the Kaiser window), as integers in units of 2^-96, by series that structural recursion sums. Their error is far below
2^-80, so a value that a rule rounds is the rule's own unless it lies that close to a tie (log entry 237). -/

namespace Sys2Proof.Machine

/-- The unit, 1.0.
(Log: 237 DEDUCED.) -/
def fxOne : Int := 2 ^ 96

/-- π, ln 2 and ln 10. -/
def fxPi : Int := 248902613312231085230521944622
def fxLn2 : Int := 54916777467707473351141471128
def fxLn10 : Int := 182429585950654714090129938606

/-- The product and the quotient of two of them. -/
def fxMul (a b : Int) : Int := a * b / fxOne
def fxDiv (a b : Int) : Int := if b = 0 then 0 else a * fxOne / b

/-- The ratio of an integer and a positive natural. -/
def fxOf (num : Int) (den : Nat) : Int := num * fxOne / (den : Int)

/-- 2^k times `a`. -/
def fxScale (a : Int) (k : Int) : Int := if 0 ≤ k then a * 2 ^ k.toNat else a / 2 ^ (-k).toNat

/-- `t × (1 + x/(k+1) + x²/((k+1)(k+2)) + …)`, `fuel` terms. -/
def fxExpGo (x : Int) : Nat → Nat → Int → Int
  | 0, _, _ => 0
  | fuel + 1, k, t => t + fxExpGo x fuel (k + 1) (fxMul t x / ((k + 1 : Nat) : Int))

/-- The exponential.
(Log: 237 DEDUCED.) -/
def fxExp (x : Int) : Int :=
  let k := x / fxLn2
  fxScale (fxExpGo (x - k * fxLn2) 32 0 fxOne) k

/-- 10^(num / den). -/
def fxPow10 (num : Int) (den : Nat) : Int := fxExp (num * fxLn10 / (den : Int))

/-- `t/(2k+1) + t·z/(2k+3) + …`, `fuel` terms. -/
def fxOddGo (z : Int) : Nat → Nat → Int → Int
  | 0, _, _ => 0
  | fuel + 1, k, t => t / ((2 * k + 1 : Nat) : Int) + fxOddGo z fuel (k + 1) (fxMul t z)

/-- The natural logarithm of the ratio of two positive naturals.
(Log: 237 DEDUCED.) -/
def fxLn (num den : Nat) : Int :=
  let k : Int := (Nat.log2 num : Int) - (Nat.log2 den : Int)
  let a : Int := if k < 0 then (num : Int) * 2 ^ (-k).toNat else num
  let b : Int := if k < 0 then (den : Int) else (den : Int) * 2 ^ k.toNat
  let z := (a - b) * fxOne / (a + b)
  2 * fxOddGo (fxMul z z) 34 0 z + k * fxLn2

/-- The square root of a non-negative number.
(Log: 237 DEDUCED.) -/
def fxSqrt (a : Int) : Int := isqrt ((a * fxOne).toNat)

/-- Sine and cosine of an angle of 0 to π/2, by their series. -/
def fxSinGo (y : Int) : Nat → Nat → Int → Int
  | 0, _, _ => 0
  | fuel + 1, k, t => t + fxSinGo y fuel (k + 2) (-(fxMul t y / (((k + 1) * (k + 2) : Nat) : Int)))

def fxSinQ (x : Int) : Int := fxSinGo (fxMul x x) 18 1 x
def fxCosQ (x : Int) : Int := fxSinGo (fxMul x x) 18 0 fxOne

/-- Cosine and sine of `num / den` turns.
(Log: 237 DEDUCED.) -/
def fxCis (num : Int) (den : Nat) : Int × Int :=
  let r := 4 * (num % (den : Int))
  let q := r / (den : Int)
  let x := (r % (den : Int)) * fxPi / (2 * (den : Int))
  let c := fxCosQ x
  let s := fxSinQ x
  if q = 0 then (c, s) else if q = 1 then (-s, c) else if q = 2 then (-c, -s) else (s, -c)

def fxCos (num : Int) (den : Nat) : Int := (fxCis num den).1
def fxSin (num : Int) (den : Nat) : Int := (fxCis num den).2

/-- The arc tangent of k / 8. -/
def atan8 : List Int :=
  [0, 9852417717411270447055696660, 19409209334742409676227471293, 28424740969548440804915253393,
   36733948115265955625643942646, 44256797336396557219629587990, 50983410425583631363973087018,
   56951580030150638616131249490, 62225653328057771307630486156]

/-- The sum `t − t·z/3 + t·z²/5 − …`. -/
def fxAtanGo (z : Int) (t : Int) : Int := fxOddGo (-z) 16 0 t

/-- The arc tangent of the ratio of two non-negative integers, the first not above the second. -/
def fxAtan (y x : Int) : Int :=
  if x = 0 then 0
  else
    let k := (16 * y + x) / (2 * x)
    let t := (8 * y - k * x) * fxOne / (8 * x + k * y)
    atan8.getD k.toNat 0 + fxAtanGo (fxMul t t) t

/-- The argument of re + j im in turns, −1/2 to 1/2; 0 for the number 0.
(Log: 237 DEDUCED.) -/
def fxArg (re im : Int) : Int :=
  let a : Int := re.natAbs
  let b : Int := im.natAbs
  let t := if b ≤ a then fxAtan b a else fxPi / 2 - fxAtan a b
  let t := if re < 0 then fxPi - t else t
  let t := if im < 0 then -t else t
  t * fxOne / (2 * fxPi)

/-- A number in units of 2^-96 rounded to nearest, in units of 2^-k.
(Log: 237 DEDUCED.) -/
def fxRne (k : Nat) (a : Int) : Int := rne (a * 2 ^ k) (2 ^ 96)

/-- A number in units of 2^-96 rounded to nearest in units of 2^-k, moved by `dev` but not to more than `tol` from it.
(Log: 237 DEDUCED.) -/
def fxNear (k : Nat) (tol a dev : Int) : Int :=
  clampI (-(fdiv (-(a * 2 ^ k)) (2 ^ 96)) - tol) (fdiv (a * 2 ^ k) (2 ^ 96) + tol) (fxRne k a + dev)

/-- `Σ y^k / (k!)²` from term `t` on: I0(x) of y = x²/4. -/
def fxBesselGo (y : Int) : Nat → Nat → Int → Int
  | 0, _, _ => 0
  | fuel + 1, k, t => t + fxBesselGo y fuel (k + 1) (fxMul t y / (((k + 1) * (k + 1) : Nat) : Int))

/-- The Kaiser window of parameter β at u = num / den, 0 outside −1 … 1.
(Log: 237 DEDUCED.) -/
def fxKaiser (beta : Nat) (num : Int) (den : Nat) : Int :=
  let n : Nat := num.natAbs * num.natAbs
  let m : Nat := den * den
  if m < n then 0
  else
    let y := fxOf ((beta * beta * (m - n) : Nat) : Int) (4 * m)
    fxDiv (fxBesselGo y 44 0 fxOne) (fxBesselGo (fxOf ((beta * beta : Nat) : Int) 4) 44 0 fxOne)

/-- sin(πx) / (πx) at x = num / den.
(Log: 237 DEDUCED.) -/
def fxSinc (num : Int) (den : Nat) : Int :=
  if num = 0 then fxOne
  else fxDiv (fxSin num (2 * den)) (fxPi * num / (den : Int))

end Sys2Proof.Machine
end

