-- ==== Sys2Proof/Machine/Dac.lean ====
section
/-! DEFINITION. The probe synthesiser and its DAC pair: the waveforms, their sum, the correction of the pair, saturation and
the count of clipped samples (R90, R91, R256). -/

namespace Sys2Proof.Machine

open Sys2Proof

/-- A live field of the STARTER page. -/
def sv (d : Dev) (n : Nat) (f : Fld) : Nat := getL d (pgStarter n) f

/-- The phase of sample `i` of a waveform, in units of 2^-32 turn: FREQ and CHIRP_BW in kHz.
(Log: 58 DEDUCED.) -/
def wavePhase (w : Wave) (i : Nat) : Nat :=
  let m : Int := w.samples
  let b : Int := if w.shape = 1 then w.bw else if w.shape = 2 then -(w.bw : Int) else 0
  ux 32 (rne ((2 * m * w.freq * i - m * b * i + b * i * i) * 2 ^ 32) (4000000 * w.samples))

/-- The sample of waveform `w` at DAC sample `k`, I and Q, in units of 2^-96 of full scale (R90).
(Log: 57 DEDUCED.) -/
def waveAt (k : Nat) (w : Wave) : Int × Int :=
  if decide (w.start ≤ k) && decide (k < w.start + w.samples) then
    let e := fxCis (wavePhase w (k - w.start)) (2 ^ 32)
    ((w.amp : Int) * e.1 / 4096, (w.amp : Int) * e.2 / 4096)
  else (0, 0)

/-- The Q of a DAC pair, for its corrections DAC_G and DAC_P (R256).
(Log: 57 DEDUCED.) -/
def dacQuad (g p i q : Int) : Int :=
  let e := fxCis p 65536
  fxDiv (q - fxMul i e.2) (fxMul (fxOf (65536 + g) 65536) e.1)

/-- Rounding to nearest, ties away from zero. -/
def roundAway (num : Int) (den : Nat) : Int :=
  if 0 ≤ num then (2 * num + den) / (2 * den) else -((2 * (-num) + den) / (2 * den))

/-- The sum of the waveforms `ws` of line `n` at DAC sample `k`, corrected and rounded to the LSB of the DACs, before it
saturates (R91).
(Log: 57 DEDUCED.) -/
def dacSum (d : Dev) (n : Nat) (ws : List Wave) (k : Nat) : Int × Int :=
  let l := ws.map (waveAt k)
  let i := sumI (l.map (·.1))
  let q := dacQuad (getS d (pgCal n) F.CAL_DAC_G) (getS d (pgCal n) F.CAL_DAC_P) i (sumI (l.map (·.2)))
  (roundAway (8192 * i) (2 ^ 96), roundAway (8192 * q) (2 ^ 96))

/-- A DAC's code saturates at its limits (R91).
(Log: 57 DEDUCED.) -/
def dacSat (v : Int) : Int := clampI (-8192) 8191 v

/-- The codes that line `n`'s DAC pair outputs at DAC sample `k`, counted from tick 0: mid-code, 0, outside all waveforms
and while the outputs are held (R32, R91).
(Log: 57 DEDUCED.) -/
def dacOut (d : Dev) (n k : Nat) : Int × Int :=
  if d.gatesHeld then (0, 0)
  else
    let v := dacSum d n (starter d n).waves k
    (dacSat v.1, dacSat v.2)

/-- A sample of the sum of the waveforms `ws` clips (R91). -/
def clips (d : Dev) (n : Nat) (ws : List Wave) (k : Nat) : Bool :=
  let v := dacSum d n ws k
  v.1 != dacSat v.1 || v.2 != dacSat v.2

/-- No sample of the waveforms can clip: without corrections, their amplitudes come to less than full scale. -/
def neverClips (d : Dev) (n : Nat) (ws : List Wave) : Bool :=
  getS d (pgCal n) F.CAL_DAC_G == 0 && getS d (pgCal n) F.CAL_DAC_P == 0 &&
    decide ((ws.map (·.amp)).foldl (· + ·) 0 ≤ 4095)

/-- The clipped samples of the waveforms `ws` from DAC sample `a` to before `b`. -/
def clipCount (d : Dev) (n : Nat) (ws : List Wave) (a b : Nat) : Nat :=
  if neverClips d n ws then 0
  else
    let e := min b (ws.foldl (fun m w => max m (w.start + w.samples)) 0)
    ((List.range (e - a)).filter (fun i => clips d n ws (a + i))).length

/-- The clipped samples of line `n` played before DAC sample `b` that DAC_CLIPS does not hold yet. -/
def clipsDue (d : Dev) (n b : Nat) : Nat :=
  let x := starter d n
  if x.waves.isEmpty then 0 else clipCount d n x.waves x.clipFrom b

/-- Line `n`'s DAC pair has played up to tick `t`: the clipped samples count, and the first one of a shot that follows a shot
without clipping raises DAC_CLIP (R91).
(Log: 246 DESIGN CHOICE.) -/
def clipRun (d : Dev) (n t : Nat) : Dev :=
  let x := starter d n
  let b := 20 * t
  if x.waves.isEmpty ∨ b ≤ x.clipFrom then d
  else
    let k := clipsDue d n b
    let d := setStarter d n { x with clipFrom := b, waves := x.waves.filter (fun w => decide (b < w.start + w.samples)),
                                     clipShot := x.clipShot || decide (0 < k) }
    raiseOn (addC d (pgStarter n) F.STARTER_DAC_CLIPS k) (pgStarter n) 15 (x.clipShot || x.clipPrev) (decide (0 < k))

end Sys2Proof.Machine
end

