-- ==== Sys2Proof/Machine/Gain.lean ====
section
/-! DEFINITION. The gain of a receiver: the changes of its nominal code and depth, the code in force at a sample tick, and the
spacing of gain steps (R117–R122). -/

namespace Sys2Proof.Machine

open Sys2Proof

def rx (d : Dev) (n : Nat) : RxSt := Store.get d.rx RxSt.reset n
def setRx (d : Dev) (n : Nat) (x : RxSt) : Dev := { d with rx := Store.set d.rx RxSt.reset n x }

/-- The first sample tick of tick `t` (R111). -/
def sampleOf (t : Nat) : Nat := 5 * t

/-- The code in force for a nominal code and a depth (R118). -/
def gainCode (gnom depth : Nat) : Nat := gnom - 12 * depth

/-- The nominal code and depth `v` after a change. -/
def gainApply (v : Nat × Nat) (e : GainStep) : Nat × Nat := (e.gnom.getD v.1, ((v.2 : Int) + e.dep).toNat)

/-- The code of a nominal code and depth. -/
def gainOf (v : Nat × Nat) : Nat := gainCode v.1 v.2

/-- The nominal code and depth from the start of a list of changes on, up to sample `s`. -/
def gainVals (x : RxSt) (s : Nat) : Nat × Nat :=
  (x.steps.filter (fun e => decide (e.first ≤ s))).foldl gainApply (x.gnom, x.depth)

/-- The gain code in force at sample `s`. -/
def gainAt (x : RxSt) (s : Nat) : Nat := gainOf (gainVals x s)

/-- The nominal code and depth after every change asked for. -/
def gainEnd (x : RxSt) : Nat × Nat := x.steps.foldl gainApply (x.gnom, x.depth)

/-- The first samples of the gain steps in a list of changes: those that change the code (R118). -/
def stepsFrom (v : Nat × Nat) : List GainStep → List Nat
  | [] => []
  | e :: r => (if gainOf (gainApply v e) = gainOf v then [] else [e.first]) ++ stepsFrom (gainApply v e) r

/-- The first samples of the line's gain steps. -/
def gainSteps (x : RxSt) : List Nat := stepsFrom (x.gnom, x.depth) x.steps

/-- Two changes at one sample make one (R120). -/
def stepJoin (a b : GainStep) : GainStep := ⟨a.first, b.gnom <|> a.gnom, a.dep + b.dep⟩

/-- A change takes its place in a list of changes in order.
(Log: 70 DEDUCED.) -/
def stepPut (e : GainStep) : List GainStep → List GainStep
  | [] => [e]
  | a :: r => if a.first = e.first then stepJoin a e :: r else if e.first < a.first then e :: a :: r else a :: stepPut e r

/-- Whether `e` is a gain step less than 8 sample ticks after the step at `q`, where it may not stay. -/
def stepSlips (v : Nat × Nat) (q : Option Nat) (e : GainStep) : Option Nat :=
  match q with
  | some a => if gainOf (gainApply v e) ≠ gainOf v ∧ e.first < a + 8 then some (a + 8) else none
  | none => none

/-- The sample of the latest gain step once `e` has its place. -/
def stepLast (v : Nat × Nat) (q : Option Nat) (e : GainStep) : Option Nat :=
  if gainOf (gainApply v e) = gainOf v then q else some e.first

/-- A list of changes with its gain steps at least 8 sample ticks apart, and how many of them move (R120): `v` are the values
before, `q` the latest step, `pend` a step that has moved and that later ones up to its sample join.
(Log: 70 DEDUCED.) -/
def spaceSteps (v : Nat × Nat) (q : Option Nat) : Option GainStep → List GainStep → List GainStep × Nat
  | none, [] => ([], 0)
  | some p, [] => ([p], 0)
  | none, e :: r =>
    match stepSlips v q e with
    | some s =>
      let o := spaceSteps v q (some { e with first := s }) r
      (o.1, o.2 + 1)
    | none =>
      let o := spaceSteps (gainApply v e) (stepLast v q e) none r
      (e :: o.1, o.2)
  | some p, e :: r =>
    if e.first ≤ p.first then
      let o := spaceSteps v q (some (stepJoin p e)) r
      (o.1, o.2 + b2n (decide (e.first < p.first)))
    else
      let w := gainApply v p
      let q := stepLast v q p
      match stepSlips w q e with
      | some s =>
        let o := spaceSteps w q (some { e with first := s }) r
        (p :: o.1, o.2 + 1)
      | none =>
        let o := spaceSteps (gainApply w e) (stepLast w q e) none r
        (p :: e :: o.1, o.2)

/-- The changes before sample `s` become the values before the list. -/
def gainTrim (x : RxSt) (s : Nat) : RxSt :=
  let v := (x.steps.filter (fun e => decide (e.first < s))).foldl gainApply (x.gnom, x.depth)
  { x with gnom := v.1, depth := v.2, steps := x.steps.filter (fun e => decide (s ≤ e.first)) }

/-- A cause asks for nominal code `gnom`, where it sets one, and a change `dep` of the depth from sample `s` on; answers also
whether the code changes with it.
(Log: 70 DEDUCED.) -/
def gainAsk (d : Dev) (n s : Nat) (gnom : Option Nat) (dep : Int) : Dev × Bool :=
  let x := rx d n
  let e : GainStep := ⟨s, gnom, dep⟩
  let o := spaceSteps (x.gnom, x.depth) none none (stepPut e x.steps)
  let y := { x with steps := o.1 }
  let d := setR (setRx d n y) (pgRx n) F.RX_AR_DEPTH (gainEnd y).2
  let d := onlyIf (decide (0 < o.2)) (fun d => raise (addC d (pgRx n) F.RX_SLIPS o.2) (pgRx n) 14) d
  (d, gainOf (gainApply (gainVals x s) e) != gainAt x s)

end Sys2Proof.Machine
end

