-- ==== Sys2Proof/Machine/Operands.lean ====
section
/-! DEFINITION. Whole 32-bit words of the register pages: how a word is composed of its fields, and
how a write of a word falls into them (R43–R48, R51, R56, R58). -/

namespace Sys2Proof.Machine

open Sys2Proof

/-! ## Fields at an offset -/

/-- A field of a row at one of its places, and which 32-bit part of it stands at the offset asked
for. -/
structure Hit where
  row : Row
  fld : Fld
  part : Nat
  deriving DecidableEq, Repr

/-- The number of 32-bit words that a field takes. -/
def fldParts (f : Fld) : Nat := cdiv (f.lsb + f.width) 32

/-- The field of row `r` at place `(i, j)` (R45). -/
def rowFld (r : Row) (i j : Nat) : Fld :=
  { r.fld with off := r.fld.off + i * r.s1 + j * r.s2,
               reset := r.resets.getD (i * r.n2 + j) r.fld.reset }

/-- The places of row `r` at offset `off`. -/
def rowHits (r : Row) (off : Nat) : List Hit :=
  if off < r.fld.off then []
  else
    (List.range (fldParts r.fld)).flatMap (fun k =>
      (List.range r.n1).flatMap (fun i =>
        ((List.range r.n2).filter (fun j => decide (r.fld.off + i * r.s1 + j * r.s2 + 4 * k = off))).map
          (fun j => ⟨r, rowFld r i j, k⟩)))

/-- Every field that has bits in the word at offset `off` of a page of kind `k`. -/
def hits (k : PageKind) (off : Nat) : List Hit := (rowsOf k).flatMap (fun r => rowHits r off)

/-- The units that LPU page `i` holds (R458, R462–R464). -/
def lpuUnits (i : Nat) : Nat := if i = 2 ∨ i = 3 then 2 else if i = 5 ∨ i = 6 then 6 else if i = 7 then 12 else 8

/-- The field of LPU page `i` at `f` is there (R472): its unit exists, and a field that the page's table gives to one
page only is on that page.
(Log: 34 DESIGN CHOICE.) -/
def lpuHas (i : Nat) (f : Fld) : Bool :=
  let u := if f.off < 0x400 then (f.off - 0x040) / 64 else (f.off - 0x400) / 32
  let w := if f.off < 0x400 then (f.off - 0x040) % 64 else 0x40 + (f.off - 0x400) % 32
  f.off == 0x5FC ||
  (decide (u < lpuUnits i) &&
    !(i == 3 && ((w == 0 && decide (16 ≤ f.lsb)) || w == 0x0C || w == 0x54)) &&
    !(i == 4 && ((w == 0 && (f.lsb == 4 || f.lsb == 8)) || (w == 0x40 && f.lsb == 4))) &&
    !((i == 5 || i == 6) && w == 0x08) &&
    !(i == 7 && (w == 0 || (decide (0x44 ≤ w) && f.lsb == 16) || decide (0x4C ≤ w))))

/-- The fields in the word at `off` of page `p`, of kind `k`; DMC1 has no word 0x060 (R360).
(Log: 34 DESIGN CHOICE.) -/
def hitsOn (p : Nat) (k : PageKind) (off : Nat) : List Hit :=
  if p = pgDmc 1 ∧ (off = 0x060 ∨ off = 0x860) then [] else
  if pgLpu 0 ≤ p ∧ p ≤ pgLpu 7 then (hits k off).filter (fun h => lpuHas (p - pgLpu 0) h.fld) else hits k off

/-- The bits of value `v` of hit `h` as they stand in the word. -/
def hitBits (h : Hit) (v : Nat) : Nat :=
  if 32 < h.fld.width then bits v (32 * h.part) 32 else v % 2 ^ h.fld.width * 2 ^ h.fld.lsb

/-- The value of the field of hit `h`, `old` before, after word `w` is written over it.
(Log: 35 DEDUCED.) -/
def hitPut (h : Hit) (old w : Nat) : Nat :=
  if 32 < h.fld.width then putBits old (32 * h.part) 32 w else bits w h.fld.lsb h.fld.width

/-- The word of the given fields, each read by `get`. -/
def wordOf (get : Hit → Nat) (hs : List Hit) : Nat :=
  (hs.map (fun h => hitBits h (get h))).foldl (· + ·) 0

/-! ## The Catalogue and the summaries, which follow the pages (R51, R56) -/

/-- The Catalogue entry selected by INDEX.
(Log: 27 DESIGN CHOICE.) -/
def catSel (d : Dev) : Option (Nat × Bool) := catalogue[getR d pgCat F.CAT_INDEX]?

/-- Page `p` has EVT_PEND ≠ 0. -/
def pends (d : Dev) (p : Nat) : Bool := evtPend d p != 0

/-- LINE_SUM of line `n`: bit b is the page at line base + b pages (R56). -/
def lineSum (d : Dev) (n : Nat) : Nat :=
  (lineOffsets.map (fun b => if pends d (lineBase n + b) then 2 ^ b else 0)).foldl (· + ·) 0

/-- HUB_SUM of block `b` (R56). -/
def hubSum (d : Dev) (b : Nat) : Nat :=
  ((List.range 16).map (fun p => if pends d (16 * b + p) then 2 ^ p else 0)).foldl (· + ·) 0

/-- DIEA_COM_SUM and DIEB_COM_SUM (R56). -/
def dieSum (d : Dev) (die : Nat) : Nat :=
  ((List.range 3).map (fun i => if pends d (0x300 + 0x400 * die + i) then 2 ^ i else 0)).foldl (· + ·) 0

/-- The set of small numbers as a mask. -/
def maskOf (l : List Nat) : Nat := l.foldl (fun m b => m ||| 2 ^ b) 0

/-- The computed words of the PKG page (R56, R57). -/
def pkgWord (d : Dev) (off : Nat) : Option Nat :=
  if off = 0x410 then some (maskOf (srcPend d) % 2 ^ 32)
  else if off = 0x414 then some (maskOf (srcPend d) / 2 ^ 32)
  else if off = 0x418 then some (maskOf (vecsActive d) % 2 ^ 32)
  else if off = 0x41C then some (maskOf (vecsActive d) / 2 ^ 32)
  else if 0x440 ≤ off ∧ off < 0x45C then some (hubSum d ((off - 0x440) / 4))
  else if off = 0x460 then some (dieSum d 1)
  else if off = 0x464 then some (dieSum d 2)
  else if 0x480 ≤ off ∧ off < 0x4E0 then
    let s := lineSum d ((off - 0x480) / 8)
    some (if (off - 0x480) % 8 = 0 then s % 2 ^ 32 else s / 2 ^ 32)
  else none

/-- The block table of the STACK page: bin RD_BASE + b of the resting bank (R187, R206). -/
def stackWord (d : Dev) (n off : Nat) : Nat :=
  match (Store.get d.ramans StackSt.reset n).rest with
  | none => 0
  | some r =>
    let q := getR d (pgStack n) F.STACK_RD_BASE / 32 * 32 + (off - 0xC00) / 32
    let w := off % 32
    let side (b : List BinAcc) (k : Nat) : Nat :=
      match b[q]? with
      | none => 0
      | some x =>
        if k = 0 then ux 40 x.acc % 2 ^ 32 else if k = 4 then ux 40 x.acc / 2 ^ 32
        else ux 16 x.mn + ux 16 x.mx * 65536
    if w < 0x0C then side r.iv.bank0 w
    else if w < 0x18 then side r.iv.bank1 (w - 0x0C)
    else if w = 0x18 then ux 16 (r.tCode.getD q (-32768))
    else 0

/-- The block table of the SVC page: the record of entry ACC_BASE + w, live or from the snapshot (R296). -/
def svcWord (d : Dev) (off : Nat) : Nat :=
  let x := getR d pgSvc F.SVC_ACC_BASE + (off - 0xC00) / 32
  if 72 ≤ x then 0
  else
    let r := Store.get (if flagR d pgSvc F.SVC_VIEW then d.svcSnap else d.svcRec) AccRec.reset x
    let w := off % 32
    if w < 4 then r.sum % 2 ^ 32 else if w < 8 then r.sum / 2 ^ 32 else if w < 0xC then r.count
    else if w < 0x10 then ux 32 r.mn else if w < 0x14 then ux 32 r.mx else if w < 0x18 then r.latest
    else if w < 0x1C then r.sec else r.ns

/-- HOLD_S of the holdover in progress (R303).
(Log: 143 DEDUCED.) -/
def holdSecs (d : Dev) : Nat := min ((d.ticks - d.time.holdStart) / 100000000) (2 ^ 32 - 1)

/-! ## Words computed when they are read -/

/-- Controller `c` outside its registers. -/
def dmc (d : Dev) (c : Nat) : DmcSt := Store.get d.dmc DmcSt.reset c
def setDmc (d : Dev) (c : Nat) (x : DmcSt) : Dev := { d with dmc := Store.set d.dmc DmcSt.reset c x }

/-- A line's frames flow: it is neither OFF nor DARK (R63). -/
def lineFlows (d : Dev) (n : Nat) : Bool :=
  getR d (pgLine n) cSTATE != 0 && getR d (pgLine n) cSTATE != 6

/-- TOL_MIN, the lowest declared tolerance (R358).
(Log: 165 DESIGN CHOICE.) -/
def tolMin (d : Dev) (c : Nat) : Nat :=
  if (List.range 12).any (lineFlows d) || (dmc d c).mig.isSome then 0
  else min (1000 * getR d (pgDmc c) F.DMC_HOST_TOL) (Config.clientTol c)

/-- MIG_DONE of a migration in progress: MIB copied by now, at most what MIG_BW allows; how far the copy has come below that
is open (R348, R350, R360). -/
def migDone (d : Dev) (c : Nat) (m : MigSt) : Nat :=
  let most := (d.ticks - m.start) * 5 * getR d (pgDmc 0) F.DMC_MIG_BW / 2 / 2 ^ 20
  min (min (d.rankMiB - 1) most) (Config.migCopied c (d.ticks - m.start))

/-- FREQ now: it slews towards its goal by at most 10^-8 per second (R299).
(Log: 141 DESIGN CHOICE.) -/
def freqNow (d : Dev) : Int :=
  let x := d.time
  let k : Int := ((d.ticks - x.freqAt) * 2 ^ 48 / 10 ^ 16 : Nat)
  x.freqFrom + clampI (-k) k (x.freqGoal - x.freqFrom)

/-- FREQ is to become `v` (R299).
(Log: 141 DESIGN CHOICE.) -/
def freqTo (d : Dev) (v : Int) : Dev :=
  let g := clampI (-(2 ^ 31)) (2 ^ 31 - 1) v
  if d.time.freqGoal = g then d
  else { d with time := { d.time with freqFrom := freqNow d, freqAt := d.ticks, freqGoal := g } }

/-- Ticks since the oldest closed block that is not durable closed. -/
def backlogTicks (d : Dev) : Nat :=
  let waits := d.arc.staged ++ (d.arc.segs.flatMap (fun e => e.2.blocks.filter (fun b => !b.durable && b.pin == 0)))
  (waits.map (fun b => d.ticks - b.closedAt)).foldl max 0

/-- The words that are computed when they are read: `none` elsewhere.
(Log: 16 DESIGN CHOICE.) -/
def liveWord (d : Dev) (p off : Nat) : Option Nat :=
  if p = pgPkg then pkgWord d off
  else if p = pgCat then
    if off = 0x404 then some ((catSel d).elim 0 entryLo)
    else if off = 0x408 then some ((catSel d).elim 0 entryHi)
    else none
  else if p = pgSvc ∧ 0xC00 ≤ off then some (svcWord d off)
  else if p = pgChk ∧ 0x040 ≤ off ∧ off < 0x240 ∧ (off % 64 = 0x0C ∨ off % 64 = 0x10) then
    let u := (off - 0x040) / 64
    let w := (crcParm (getR d pgChk (F.CHK_POLY u))).width
    some (bits (getR d pgChk (F.CHK_CRC_STATE u) % 2 ^ w) (if off % 64 = 0x0C then 0 else 32) 32)
  else if p = pgBkp ∧ (off = 0x400 ∨ off = 0x404 ∨ off = 0x408) then
    some (if bkpValid d then
        (if off = 0x400 then bkpSecs d % 2 ^ 32 else if off = 0x404 then bkpSecs d / 2 ^ 32 else bkpPhase d)
      else Config.bkpUnset off % (if off = 0x400 then 2 ^ 32 else if off = 0x404 then 2 ^ 16 else 2 ^ 15))
  else if (p = pgDmc 0 ∨ p = pgDmc 1) ∧ off = 0x404 ∧ (dmc d (p - pgDmc 0)).mig.isSome then
    (dmc d (p - pgDmc 0)).mig.map (migDone d (p - pgDmc 0))
  else if (p = pgDmc 0 ∨ p = pgDmc 1) ∧ off = 0x408 ∧ getR d p cSTATE ≠ 0 then some (min (2 ^ 32 - 1) (tolMin d (p - pgDmc 0)))
  else if p = pgArc ∧ off = 0x424 then some (min 65535 (backlogTicks d / msT 1))
  else if p = pgTime ∧ off = 0x410 then some (ux 32 (freqNow d))
  else if p = pgTime ∧ off = 0x418 ∧ getR d pgTime cSTATE = 4 then some (holdSecs d)
  else if kindOf p = some .slot ∧ off = 0x408 then
    match lineOfPage p with
    | some n => some (2 ^ (10 - getR d (pgLine n) (F.LINE_RATE (p - pgSlot n 0))))
    | none => none
  else if kindOf p = some .starter ∧ off = 0x43C then
    (lineOfPage p).map (fun n => min (2 ^ 32 - 1) (getR d p F.STARTER_DAC_CLIPS + clipsDue d n (20 * d.ticks)))
  else if kindOf p = some .rx ∧ off = 0x400 then
    (lineOfPage p).map (fun n => gainAt (rx d n) (sampleOf d.ticks) + getR d p F.RX_AR_DEPTH * 2 ^ 8 +
      getR d p F.RX_GAIN_DLY * 2 ^ 16)
  else if kindOf p = some .stride ∧ (off = 0x408 ∨ off = 0x40C) then
    (lineOfPage p).map (fun n =>
      let c := (getR d p F.STRIDE_CYCLES + waitCycles d n (p - pgStride n 0)) % 2 ^ 64
      if off = 0x408 then c % 2 ^ 32 else c / 2 ^ 32)
  else if kindOf p = some .stack ∧ 0xC00 ≤ off then (lineOfPage p).map (fun n => stackWord d n off)
  else none

/-! ## Reading a word -/

/-- What reading field of hit `h` of page `p` gives: WO fields read 0, ST fields their staged value
(R45, R48). -/
def readHit (d : Dev) (p : Nat) (h : Hit) : Nat :=
  match h.row.acc with
  | .wo => 0
  | _ => getR d p h.fld

/-- What the mirror gives for it: the live value of an ST field, otherwise the field's (R48).
(Log: 35 DEDUCED.) -/
def mirrorHit (d : Dev) (p : Nat) (h : Hit) : Nat :=
  match h.row.acc with
  | .wo => 0
  | .st => getL d p h.fld
  | _ => getR d p h.fld

/-- STATUS.STATE of page `p`. RX shows what its cores serve (R129), RINGS whether a ring is bound (R417), FLOWS whether a
flow is on (R419); the other blocks keep theirs.
(Log: 232 DEDUCED.) -/
def pageState (d : Dev) (p : Nat) (k : PageKind) : Nat :=
  match k with
  | .rx =>
    let q := pgLine ((lineOfPage p).getD 0)
    if getR d q cSTATE = 0 then 0
    else if getR d q cSTATE = 6 then 3
    else if flagR d q F.LINE_ST_FINE then 2
    else 1
  | .rings => b2n ((List.range 32).any (fun r => getR d p (F.RINGS_BIND r) == 1 || getR d p (F.RINGS_BIND r) == 2))
  | .flows => b2n ((List.range 32).any (fun f => flagR d p (F.FLOWS_EN f)))
  | _ => getR d p cSTATE

/-- The common registers of R43 at offset `off`; on PACE_TBL those at 0x008–0x027 read 0 (R44). -/
def commonWord (d : Dev) (p : Nat) (k : PageKind) (off : Nat) : Nat :=
  if off = 0x000 then pageId p k
  else if off = 0x004 then pageInfo p
  else if off = 0x028 then
    let q := if p = pgPaceTbl then pgPace else p
    pageApplied d q + getR d q cSTOCKTAKE * 65536
  else if p = pgPaceTbl then 0
  else if off = 0x00C then
    getR d p cBUSY + b2n (pageStale d p) * 2 + getR d p cERROR * 4 + b2n (pageCal d p) * 8 +
      pageState d p k * 16 +
      wordOf (fun h => if p = pgArc ∧ h.fld = F.ARC_BEHIND then b2n (decide (sT 1 < backlogTicks d)) else readHit d p h)
        (hitsOn p k off)
  else if off = 0x010 then evtRaw d p
  else if off = 0x014 then getR d p cEVT_EN
  else if off = 0x018 then evtPend d p
  else if off = 0x01C then evtRaw d p
  else 0

/-- The snapshot of the word at live offset `off` (R58): 0 before the first Stocktake.
(Log: 22 DESIGN CHOICE.) -/
def snapWord (d : Dev) (p : Nat) (k : PageKind) (off : Nat) : Nat :=
  if d.snapTaken.contains p then
    match liveWord d p off with
    | some _ => Store.get d.snap 0 (key p ⟨off, 0, 32, 0⟩)
    | none => wordOf (fun h => Store.get d.snap h.fld.reset (key p h.fld)) (hitsOn p k off)
  else 0

/-- The word at offset `off` of page `p`, without the effects of reading it. -/
def pageWord (d : Dev) (p : Nat) (k : PageKind) (off : Nat) : Nat :=
  if off < 0x040 then commonWord d p k off
  else if 0x600 ≤ off ∧ off < 0x800 then snapWord d p k (off - 0x200)
  else if 0x840 ≤ off ∧ off < 0xC00 then
    match liveWord d p (off - 0x800) with
    | some w => w
    | none => wordOf (mirrorHit d p) (hitsOn p k (off - 0x800))
  else match liveWord d p off with
    | some w => w
    | none => wordOf (readHit d p) (hitsOn p k off)

/-! ## Writing a word -/

/-- The fields of one access type in the word at `off` of page `p` take their bits of `w`.
(Log: 35 DEDUCED.) -/
def putFields (acc : Acc) (d : Dev) (p : Nat) (k : PageKind) (off w : Nat) : Dev :=
  ((hitsOn p k off).filter (fun h => decide (h.row.acc = acc))).foldl
    (fun d h => setR d p h.fld (hitPut h (getR d p h.fld) w)) d

/-- The bits of WO or W1S field `f` in a word written at `off`; 0 where the field is elsewhere. -/
def woField (f : Fld) (off w : Nat) : Nat := if f.off = off then bits w f.lsb f.width else 0

/-! ## Access checks (R46, R47) -/

/-- An access that R46 turns away: counted, and PKG.BAD_ACCESS raised.
(Log: 30 DEDUCED.) -/
def badAccess (d : Dev) : Dev := raise (bump d pgPkg F.PKG_BAD_ACCESS) pgPkg 10

/-- Page `p` is not to be seen: in HALTED only CAT and PKG are (R443).
(Log: 30 DEDUCED.) -/
def pageHidden (d : Dev) (p : Nat) : Bool := getR d pgPkg F.PKG_BOOT_STAGE == 15 && decide (1 < p)

/-- Page `p` lies in a region that has no power in SLEEP (R434): line dies, memory, Archive, host/network.
(Log: 29 DESIGN CHOICE.) -/
def pageDark (d : Dev) (p : Nat) : Bool :=
  getR d pgPace F.PACE_PSTATE_NOW == 2 &&
    (match regionOf p with
     | some r => r != regTime && r != regService
     | none => (dieCommonOf p).isSome)

/-- The effect `f` of a register write to page `p`; a write to a page of a fenced region is discarded
and counted (R47), one to a page without power is discarded. -/
def onPage (p : Nat) (f : Dev → Dev) (d : Dev) : Dev :=
  if pageHidden d p then badAccess d
  else if pageFenced d p then bump d pgPkg F.PKG_FENCE_ACCESS
  else if pageDark d p then d
  else f d

/-- Page `p` exists. -/
def pageOk (p : Nat) : Bool := (kindOf p).isSome

end Sys2Proof.Machine
end

