-- ==== Sys2Proof/Machine/Shelf.lean ====
section
/-! DEFINITION. The shelf pools (R337–R342). -/

namespace Sys2Proof.Machine

open Sys2Proof

/-- Shelves of pool `p` (0 hub, 1 and 2 the line dies). -/
def poolSize (p : Nat) : Nat := if p = 0 then 512 else 384

/-- Requesters of pool `p`. -/
def poolReqs (p : Nat) : Nat := if p = 0 then 11 else 19

/-- The RESERVE, LIMIT, HELD, PEAK and LIMIT_REFUSALS fields of requester `q`. -/
def fRESERVE (p q : Nat) : Fld := if p = 0 then F.SHELFH_RESERVE q else F.SHELFD_RESERVE q
def fLIMIT (p q : Nat) : Fld := if p = 0 then F.SHELFH_LIMIT q else F.SHELFD_LIMIT q
def fHELD (q : Nat) : Fld := F.SHELFH_HELD q
def fPEAK (q : Nat) : Fld := F.SHELFH_PEAK q
def fFREE (p : Nat) : Fld := if p = 0 then F.SHELFH_FREE else F.SHELFD_FREE
def fCOMMON (p : Nat) : Fld := if p = 0 then F.SHELFH_COMMON_FREE else F.SHELFD_COMMON_FREE

/-- The pool's state. -/
def pool (d : Dev) (p : Nat) : PoolSt := Store.get d.pools PoolSt.reset p
def setPool (d : Dev) (p : Nat) (x : PoolSt) : Dev :=
  { d with pools := Store.set d.pools PoolSt.reset p x }

/-- Line `n` uses its Stacks in its live plan, or in its pending one (R341). -/
def stackUsed (d : Dev) (n : Nat) : Bool :=
  flagL d (pgStack n) F.STACK_EN || (flagR d (pgLine n) F.LINE_PLAN_PENDING && flagR d (pgStack n) F.STACK_EN)

/-- The reserve that requester `q` holds in operation: a STACK reserve only while its line uses its
Stacks (R341). -/
def resNow (d : Dev) (p q : Nat) : Nat :=
  if p != 0 && q < 18 && q % 3 == 2 then
    if stackUsed d (6 * (p - 1) + q / 3) then getR d (pgShelf p) (fRESERVE p q) else 0
  else getR d (pgShelf p) (fRESERVE p q)

/-- The limit of requester `q`: at least its reserve (R342).
(Log: 161 DEDUCED.) -/
def limNow (d : Dev) (p q : Nat) : Nat :=
  max (getR d (pgShelf p) (fLIMIT p q)) (getR d (pgShelf p) (fRESERVE p q))

/-- Shelves held by `q`. -/
def heldBy (d : Dev) (p q : Nat) : Nat := getR d (pgShelf p) (fHELD q)

/-- Shelves of the common part (R338). -/
def commonSize (d : Dev) (p : Nat) : Nat :=
  poolSize p - ((List.range (poolReqs p)).map (resNow d p)).foldl (· + ·) 0

/-- Free shelves of the common part.
(Log: 20 DEDUCED.) -/
def commonFree (d : Dev) (p : Nat) : Nat :=
  commonSize d p -
    ((List.range (poolReqs p)).map (fun q => heldBy d p q - resNow d p q)).foldl (· + ·) 0

/-- FREE and COMMON_FREE follow the holdings; COMMON_EMPTY is raised when COMMON_FREE reaches 0. -/
def poolShow (d : Dev) (p : Nat) : Dev :=
  let was := getR d (pgShelf p) (fCOMMON p)
  let now := commonFree d p
  let d := setR d (pgShelf p) (fFREE p) (poolSize p - (pool d p).owner.length)
  let d := setR d (pgShelf p) (fCOMMON p) now
  let d := setR d (pgShelf p) cSTATE (if (pool d p).owner.isEmpty then 0 else 1)
  raiseOn d (pgShelf p) 9 (was == 0) (now == 0)

/-- A request by `q` for `n` shelves would be granted (R338): from its reserve, then from the common
part, whole or not at all. -/
def wouldGrant (d : Dev) (p q n : Nat) : Bool :=
  let held := heldBy d p q
  decide (held + n ≤ limNow d p q) && decide ((held + n) - max held (resNow d p q) ≤ commonFree d p)

/-- The `n` lowest shelves that nobody holds and HOST does not own.
(Log: 160 DEDUCED.) -/
def freeShelves (d : Dev) (p n : Nat) : List Nat :=
  let lo := if p = 0 then getR d (pgShelf 0) (F.SHELFH_LIMIT 8) else 0
  (((List.range (poolSize p)).filter
    (fun s => decide (lo ≤ s) && (Store.find (pool d p).owner s).isNone)).take n)

/-- `n` shelves given to `q`. -/
def giveShelves (d : Dev) (p q n : Nat) : Dev :=
  let ss := freeShelves d p n
  let x := pool d p
  let d := setPool d p { x with owner := ss.foldl (fun o s => Store.set o 0 s (q + 1)) x.owner }
  let d := setR d (pgShelf p) (fHELD q) (heldBy d p q + n)
  let d := peak d (pgShelf p) (fPEAK q) (heldBy d p q)
  poolShow d p

/-- A refusal: counted, and LIMIT raised where the limit was the reason (R338). -/
def refuseShelf (d : Dev) (p q : Nat) : Dev :=
  raise (bump d (pgShelf p) (F.SHELFH_LIMIT_REFUSALS q)) (pgShelf p) 8

/-- A request outside the arbitration: granted whole (true), or refused with LIMIT. -/
def takeShelves (d : Dev) (p q n : Nat) : Bool × Dev :=
  if wouldGrant d p q n then (true, giveShelves d p q n) else (false, refuseShelf d p q)

/-- `q` releases `n` shelves (R340). -/
def freeShelf (d : Dev) (p q n : Nat) : Dev :=
  if n = 0 then d
  else
    let x := pool d p
    let mine := ((x.owner.filter (fun e => e.2 == q + 1)).map (·.1)).take n
    let d := setPool d p { x with owner := mine.foldl Store.erase x.owner }
    let d := setR d (pgShelf p) (fHELD q) (heldBy d p q - n)
    poolShow d p

/-- Shelves that `len` bytes take (R338). -/
def shelvesFor (len : Nat) : Nat := max 1 (cdiv len 65536)

/-- SHELF_REQUEST: `q` and the `rivals` ask in one cycle; the first at or after the pointer wins, the
others retry (R338, R339). -/
def doShelfRequest (t p q n : Nat) (rivals : List Nat) (d : Dev) : Dev :=
  let d := advance d t
  let x := pool d p
  let asks := q :: rivals
  let order := (List.range (poolReqs p)).map (fun i => (x.rr + i) % poolReqs p)
  if !(wouldGrant d p q n) then
    refuseShelf d p q
  else
    match order.find? (fun w => asks.contains w) with
    | some w =>
      if w = q then
        let d := peak d (pgShelf p) F.SHELFH_MAX_WAIT (Store.get x.waits 0 q)
        let d := setPool d p { x with rr := (q + 1) % poolReqs p, waits := Store.set x.waits 0 q 0 }
        giveShelves d p q n
      else
        setPool d p { x with waits := Store.set x.waits 0 q (Store.get x.waits 0 q + 1) }
    | none => d

def execShelfRequest (t pool q n : Nat) (rivals : List Nat) (s : State) :
    Host.Outcome State Fault Refusal :=
  act (decide (pool < 3) && decide (q < poolReqs pool)) s (doShelfRequest t pool q n rivals)

/-- SHELF_RELEASE: the shelves are free from the next cycle (R340). -/
def execShelfRelease (t pool q n : Nat) (s : State) : Host.Outcome State Fault Refusal :=
  act (decide (pool < 3) && decide (q < poolReqs pool)) s
    (fun d => freeShelf (advance d t) pool q (min n (heldBy d pool q)))

/-- SHELF_LIMIT_WRITE: a limit takes the value written, at least its reserve; the limit of HOST is
HOST_SHELVES, 0–256, and sets HOST's reserve (R341, R342), where the reserves still fit.
(Log: 161 DEDUCED.) -/
def doShelfLimit (t p q v : Nat) (d : Dev) : Dev :=
  let d := advance d t
  if p = 0 ∧ q = 8 then
    let v := min v 256
    let sum := getR d (pgShelf 0) F.SHELFH_RESERVED_SUM - getR d (pgShelf 0) (fRESERVE 0 8) + v
    if 512 < sum then raise (bump d (pgShelf 0) F.SHELFH_RESERVE_REFUSED) (pgShelf 0) 10
    else
      let d := setR d (pgShelf 0) (fLIMIT 0 8) v
      let d := setR d (pgShelf 0) (fRESERVE 0 8) v
      poolShow (setR d (pgShelf 0) F.SHELFH_RESERVED_SUM sum) 0
  else poolShow (setR d (pgShelf p) (fLIMIT p q) (max v (getR d (pgShelf p) (fRESERVE p q)))) p

def execShelfLimitWrite (t pool q v : Nat) (s : State) : Host.Outcome State Fault Refusal :=
  act (decide (pool < 3) && decide (q < poolReqs pool)) s (fun d => onPage (pgShelf pool) (doShelfLimit t pool q v) (advance d t))

/-- The reserves that cannot be written: PIPES and STACK on a line die, LEDGER and HOST on the hub
(R341). -/
def fixedReserve (p q : Nat) : Bool :=
  if p = 0 then q == 2 || q == 8 else q == 18 || q % 3 == 2

/-- SHELF_RESERVE_WRITE: applied, or refused where the reserves would exceed the pool (R341). -/
def doShelfReserve (t p q v : Nat) (d : Dev) : Dev :=
  let d := advance d t
  if fixedReserve p q then d
  else
    let sum := getR d (pgShelf p) (if p = 0 then F.SHELFH_RESERVED_SUM else F.SHELFD_RESERVED_SUM) -
      getR d (pgShelf p) (fRESERVE p q) + v % 1024
    if poolSize p < sum then raise (bump d (pgShelf p) F.SHELFH_RESERVE_REFUSED) (pgShelf p) 10
    else
      let d := setR d (pgShelf p) (fRESERVE p q) v
      let d := setR d (pgShelf p) (if p = 0 then F.SHELFH_RESERVED_SUM else F.SHELFD_RESERVED_SUM) sum
      poolShow d p

def execShelfReserveWrite (t pool q v : Nat) (s : State) : Host.Outcome State Fault Refusal :=
  act (decide (pool < 3) && decide (q < poolReqs pool)) s (fun d => onPage (pgShelf pool) (doShelfReserve t pool q v) (advance d t))

end Sys2Proof.Machine
end

