-- ==== Sys2Proof/Machine/LedgerBuf.lean ====
section
/-! DEFINITION. The hub Ledger buffer: the bytes of an entry and when its place is freed (R249, R252). -/

namespace Sys2Proof.Machine

open Sys2Proof

/-- Ring `r` outside its registers. -/
def ringSt (d : Dev) (r : Nat) : RingSt := Store.get d.rings RingSt.reset r
def setRing (d : Dev) (r : Nat) (x : RingSt) : Dev :=
  { d with rings := Store.set d.rings RingSt.reset r x }

/-- The 64 bytes of entry `e` with accession number `n` (R249). -/
def entryBytes (d : Dev) (e : LedgerEntry) (n : Nat) : List Nat :=
  let b := leBytes 2 0x474C ++ [1, pkgIndex d * 16 + e.line] ++ leBytes 2 e.kind ++ leBytes 2 e.ptype ++
    leBytes 8 n ++ leBytes 8 e.taiS ++ leBytes 4 e.ns ++ leBytes 2 e.sub ++ leBytes 2 e.quality ++
    padTo 28 e.payload
  b ++ leBytes 4 (crc32c b)

/-- Ring 24's stream still holds the entry with number `n`: it is neither delivered nor dropped nor
discarded (R252). -/
def ringHolds (d : Dev) (n : Nat) : Bool :=
  d.rings.any (fun x => x.2.held.any (fun h =>
    h.item.src == 24 && ofLe ((h.item.bytes.drop 8).take 8) == n))

/-- The Archive is not awaited: READ_ONLY, FAILED, or UNMOUNTED after a mount of the present run (R252). -/
def arcWaived (d : Dev) : Bool :=
  let st := getR d pgArc cSTATE
  st == 3 || st == 4 || (st == 0 && d.ledger.mounted)

/-- The place is freed (R252). -/
def placeFree (d : Dev) (p : LedgerPlace) : Bool :=
  match p.num with
  | none => false
  | some n => !ringHolds d n && (p.arcDone || arcWaived d)

/-- Places that are freed leave the buffer; BUF_LEVEL shows the rest (R252). -/
def ledgerPurge (d : Dev) : Dev :=
  let ps := d.ledger.places.filter (fun p => !placeFree d p)
  setR { d with ledger := { d.ledger with places := ps } } pgPkg F.PKG_BUF_LEVEL ps.length

/-- The entries with numbers from `a` to `b` are durable in the Ledger volume, or their block was dropped and they are to be
written again (R252). -/
def ledgerStored (d : Dev) (a b : Nat) (ok : Bool) : Dev :=
  let mine (p : LedgerPlace) : Bool := (p.num.map (fun n => decide (a ≤ n) && decide (n ≤ b))).getD false
  let ps := d.ledger.places.map (fun p => if mine p then { p with arcSent := ok, arcDone := ok || p.arcDone } else p)
  ledgerPurge { d with ledger := { d.ledger with places := ps } }

end Sys2Proof.Machine
end

