-- ==== Sys2Proof/Machine/Rings.lean ====
section
/-! DEFINITION. Rings, flows, the PCIe function and the Ethernet ports (R399–R419), but for the
commands of ring 28, which stand in Machine/Commands.lean. -/

namespace Sys2Proof.Machine

open Sys2Proof

/-! ## Rings -/


/-- BIND of ring `r`: 0 OFF, 1 HOST, 2 FLOW; 3 acts as 0 (R407, R417). -/
def ringBind (d : Dev) (r : Nat) : Nat :=
  let b := getR d pgRings (F.RINGS_BIND r)
  if b = 3 then 0 else b

/-- Ring `r` is STOPPED (R401). -/
def ringStopped (d : Dev) (r : Nat) : Bool := bit (getR d pgRings F.RINGS_STOPPED) r

/-- The device may write and read host memory (R401). -/
def hostUp (d : Dev) : Bool := flagR d pgPcie F.PCIE_BME && !(flagR d pgPcie F.PCIE_D3HOT)

/-- The ring of source `s` (R404, R417): 29 is fixed, 28 does not exist, and a map entry that names
ring 28 acts as OFF. -/
def ringOf (d : Dev) (s : Nat) : Option Nat :=
  if s = 29 then some 29
  else if s = 28 then none
  else
    let r := getR d pgRings (F.RINGS_MAP s)
    if r = 28 then none else some r

/-- Sources whose items may wait without limit (R404). -/
def waitAllowed (s : Nat) : Bool := s == 24 || s == 25 || s == 26 || s == 27 || s == 29

/-- The buffer size of ring `r`. -/
def ringSize (d : Dev) (r : Nat) : Nat := 2 ^ clampN 12 30 (getR d pgRings (F.RINGS_SIZE_LOG2 r))

/-- Bytes the buffer of ring `r` holds. -/
def ringHeld (d : Dev) (r : Nat) : Nat :=
  (getR d pgRings (F.RINGS_WR r) + 2 ^ 31 - getR d pgRings (F.RINGS_RD r)) % ringSize d r

/-- Free space of the buffer (R408). -/
def ringFree (d : Dev) (r : Nat) : Nat := ringSize d r - ringHeld d r - 64

/-- The number of an item (R410). -/
def itemNumber (h : Held) : Nat := (h.item.frameNo.getD h.seq) % 2 ^ 32

/-- The shelves that an item keeps are released. -/
def freeItem (d : Dev) (i : Item) : Dev := freeShelf d i.pool i.req i.shelves

/-- A drop is noted for the loss report of the second (R412).
(Log: 193 DEDUCED.) -/
def noteLoss (d : Dev) (x : RingSt) (h : Held) (cause : Nat) : RingSt :=
  if h.item.src = 30 then x
  else
    let sec := taiSec (tai d)
    match x.losses.getLast? with
    | some l =>
      if l.sec = sec then { x with losses := x.losses.dropLast ++ [{ l with count := l.count + 1 }] }
      else { x with losses := x.losses ++ [⟨sec, 1, h.seq, itemNumber h, cause⟩] }
    | none => { x with losses := [⟨sec, 1, h.seq, itemNumber h, cause⟩] }

/-- Item `h` of ring `r` is dropped: counted, DROP raised at its onset, its shelves released (R409,
R412). -/
def dropItem (d : Dev) (r : Nat) (h : Held) (cause : Nat) : Dev :=
  let x := ringSt d r
  let d := bump d pgRings (F.RINGS_DROPS r)
  let d := if x.dropArmed then raise d pgRings 8 else d
  let d := setRing d r (noteLoss d { x with dropArmed := false } h cause)
  freeItem d h.item

/-- A write to host memory, counted (R416). -/
def hostWrite (d : Dev) (addr : Nat) (bytes : List Nat) : Dev :=
  emit (addC d pgPcie F.PCIE_WR_BYTES bytes.length) (.hostWrite addr bytes)

/-- The write-back of offset `v` to slot `r` (R408). -/
def writeBack (d : Dev) (r v : Nat) : Dev :=
  hostWrite d (getR d pgRings F.RINGS_WB_BASE / 64 * 64 + 4 * r) (leBytes 4 v)

/-- The 16-byte item header of R408. -/
def itemHeader (r kind len seq : Nat) : List Nat :=
  leBytes 2 0x4752 ++ [1, r, kind, 0, 0, 0] ++ leBytes 4 len ++ leBytes 4 seq

/-- An item is too large for its ring (R409). -/
def tooLarge (d : Dev) (r : Nat) (i : Item) : Bool := decide (ringSize d r - 128 < i.bytes.length)

/-- Bytes that an item takes in the buffer (R408). -/
def itemSpace (i : Item) : Nat := cdiv (16 + i.bytes.length) 64 * 64

/-- The pad before an item that does not fit before the end of the buffer, written as soon as the
free space holds it (R408). -/
def ringPad (d : Dev) (r : Nat) (i : Item) : Dev :=
  let wr := getR d pgRings (F.RINGS_WR r)
  let left := ringSize d r - wr
  if left < itemSpace i ∧ left ≤ ringFree d r then
    let d := hostWrite d (getR d pgRings (F.RINGS_BASE r) / 4096 * 4096 + wr) (itemHeader r 1 (left - 16) 0)
    let d := setR d pgRings (F.RINGS_WR r) 0
    writeBack d r 0
  else d

/-- The item fits in the buffer of ring `r` where WR stands. -/
def ringFits (d : Dev) (r : Nat) (i : Item) : Bool :=
  decide (getR d pgRings (F.RINGS_WR r) + itemSpace i ≤ ringSize d r) &&
  decide (itemSpace i ≤ ringFree d r)

/-- The item is written to the buffer: header, bytes, padding, then the write-back (R408). -/
def ringWrite (d : Dev) (r : Nat) (h : Held) : Dev :=
  let wr := getR d pgRings (F.RINGS_WR r)
  let sp := itemSpace h.item
  let d := hostWrite d (getR d pgRings (F.RINGS_BASE r) / 4096 * 4096 + wr)
    (padTo sp (itemHeader r 0 h.item.bytes.length h.seq ++ h.item.bytes))
  let w' := (wr + sp) % ringSize d r
  let d := setR d pgRings (F.RINGS_WR r) w'
  let d := writeBack d r w'
  let x := ringSt d r
  let d := setRing d r { x with dropArmed := true, written := x.written ++ [(w', d.ticks)] }
  freeItem (bump d pgRings (F.RINGS_ITEMS r)) h.item

/-! ## Flows (R410, R411) -/

/-- Word 0x040 of port `e` as it is in force, taken when the port last came up (R418); the reset word before that. -/
def ethCfg (d : Dev) (e : Nat) : Nat := Store.get d.net.ethCfg 0x23280120 e

/-- The MTU of port `e`, limited to 1,280–9,000 (R418). -/
def ethMtu (d : Dev) (e : Nat) : Nat := clampN 1280 9000 (bits (ethCfg d e) 16 14)

/-- F: bytes of an item in one datagram of flow `f` (R410). -/
def fragBytes (d : Dev) (f : Nat) : Nat :=
  let ip := if flagR d pgFlows (F.FLOWS_IPV6 f) then 40 else 20
  (ethMtu d (getR d pgFlows (F.FLOWS_ETH f)) - ip - 24) / 8 * 8

/-- Number of fragments of `len` bytes on flow `f`. -/
def fragCount (d : Dev) (f len : Nat) : Nat := cdiv len (fragBytes d f)

/-- The sub-port of flow `f` is up, has a MAC address, and no PAUSE holds its port (R403, R411). -/
def flowReady (d : Dev) (f : Nat) : Bool :=
  let e := getR d pgFlows (F.FLOWS_ETH f)
  let p := getR d pgFlows (F.FLOWS_SUB f)
  getR d (pgEth e) (F.ETH_LINK p) == 2 && getR d (pgEth e) (F.ETH_MAC p) != 0 &&
  decide (Store.get d.net.pauseUntil 0 e ≤ d.ticks) && decide (Store.get d.net.flowFree 0 f ≤ d.ticks)

/-- The fragment header of R410. -/
def fragHeader (r i n off num : Nat) : List Nat :=
  leBytes 2 0x4753 ++ [1, r] ++ leBytes 2 i ++ leBytes 2 n ++ leBytes 4 off ++ leBytes 4 num

/-- The fragments of an item, in index order. -/
def fragments (r f fb n num : Nat) (bytes : List Nat) : List Output :=
  (List.range n).map (fun i =>
    .datagram f (fragHeader r i n (i * fb) num ++ (bytes.drop (i * fb)).take fb))

/-- Bytes on the wire of an item of flow `f`, preamble and gap included (R411).
(Log: 192 DESIGN CHOICE.) -/
def wireBytes (d : Dev) (f len : Nat) : Nat :=
  let ip := if flagR d pgFlows (F.FLOWS_IPV6 f) then 40 else 20
  let tag := if getR d (pgEth (getR d pgFlows (F.FLOWS_ETH f))) (F.ETH_VLAN (getR d pgFlows (F.FLOWS_SUB f))) = 0
    then 0 else 4
  len + fragCount d f len * (16 + 8 + ip + 14 + tag + 4 + 8 + 12)

/-- The item is sent as datagrams of flow `f` (R410, R411).
(Log: 192 DESIGN CHOICE.) -/
def flowSend (d : Dev) (r f : Nat) (h : Held) : Dev :=
  let len := h.item.bytes.length
  let n := fragCount d f len
  let e := getR d pgFlows (F.FLOWS_ETH f)
  let wire := wireBytes d f len
  let rate := getR d pgFlows (F.FLOWS_RATE f)
  let d := { d with out := d.out ++ fragments r f (fragBytes d f) n (itemNumber h) h.item.bytes }
  let d := addC (addC d (pgEth e) F.ETH_TX_PKTS n) (pgEth e) F.ETH_TX_BYTES wire
  let d := addC d pgFlows (F.FLOWS_PKTS f) n
  let d := if rate = 0 then d
    else { d with net := { d.net with flowFree := Store.set d.net.flowFree 0 f (d.ticks + cdiv (8 * wire) rate) } }
  let x := ringSt d r
  let d := setRing d r { x with dropArmed := true }
  freeItem (bump d pgRings (F.RINGS_ITEMS r)) h.item

/-- The cause for which an item can never be delivered on ring `r` (R409, R410, R412, R419), if any:
1 too large, 2 flow off, 4 stopped, 3 Bus Master Enable or D3hot. -/
def dropCause (d : Dev) (r : Nat) (i : Item) : Option Nat :=
  if ringStopped d r then some 4
  else if ringBind d r = 1 then
    if !hostUp d then some 3 else if tooLarge d r i then some 1 else none
  else
    let f := getR d pgRings (F.RINGS_FLOW r)
    if !(flagR d pgFlows (F.FLOWS_EN f)) then some 2
    else if 65535 < fragCount d f i.bytes.length then some 1 else none

/-- Ring `r` tries to deliver `h`: true where it was delivered or dropped, false where it must be
held. -/
def tryDeliver (d : Dev) (r : Nat) (h : Held) : Bool × Dev :=
  match dropCause d r h.item with
  | some c => (true, dropItem d r h c)
  | none =>
    if ringBind d r = 1 then
      let d := ringPad d r h.item
      if ringFits d r h.item then (true, ringWrite d r h) else (false, d)
    else
      let f := getR d pgRings (F.RINGS_FLOW r)
      if flowReady d f then (true, flowSend d r f h) else (false, d)

/-- RING_ITEM_OFFER: an item of source `i.src` is offered: OFF rings discard and count it; otherwise it
takes the ring's next sequence number and is written, held or dropped (R404, R405, R407, R409). -/
def offer (d : Dev) (i : Item) : Dev :=
  match ringOf d i.src with
  | none => freeItem (bump d pgRings F.RINGS_OFF_ITEMS) i
  | some r =>
    if ringBind d r = 0 then freeItem (bump d pgRings F.RINGS_OFF_ITEMS) i
    else
      let x := ringSt d r
      let h : Held := ⟨i, x.seq, d.ticks⟩
      let d := setRing d r { x with seq := (x.seq + 1) % 2 ^ 32 }
      if x.held.isEmpty then
        match tryDeliver d r h with
        | (true, d) => d
        | (false, d) => let y := ringSt d r; setRing d r { y with held := y.held ++ [h] }
      else
        let y := ringSt d r
        setRing d r { y with held := y.held ++ [h] }

/-- An item without shelves, offered. -/
def offerBytes (d : Dev) (src : Nat) (bytes : List Nat) : Dev := offer d ⟨src, bytes, none, 0, 0, 0⟩

/-- The items of ring `r` wait without limit where the ring is in MODE WAIT and the source allows it
(R404, R409). -/
def waits (d : Dev) (r : Nat) (i : Item) : Bool := flagR d pgRings (F.RINGS_MODE r) && waitAllowed i.src

/-- The cause in a loss report for an item held too long: the link is down, or the hold expired. -/
def holdCause (d : Dev) (r : Nat) : Nat :=
  if ringBind d r = 2 &&
    getR d (pgEth (getR d pgFlows (F.FLOWS_ETH (getR d pgRings (F.RINGS_FLOW r)))))
      (F.ETH_LINK (getR d pgFlows (F.FLOWS_SUB (getR d pgRings (F.RINGS_FLOW r))))) != 2 then 2 else 0

/-- The held items of ring `r` that may wait no longer are dropped: those of sources and rings without WAIT whose HOLD_US had
passed before tick `now` (R409).
(Log: 258 DEDUCED.) -/
def dropExpired (d : Dev) (r now : Nat) : Dev :=
  let late (h : Held) : Bool := !waits d r h.item && decide (h.since + usT (getR d pgRings (F.RINGS_HOLD_US r)) < now)
  let hs := (ringSt d r).held.filter late
  if hs.isEmpty then d
  else
    let d' := hs.foldl (fun d h => dropItem d r h (holdCause d r)) d
    let y := ringSt d' r
    ledgerPurge (setRing d' r { y with held := y.held.filter (fun h => !late h) })

/-- RING_ITEM_DELIVER: the first held item is delivered once room exists (R408, R411); items held for longer than they may be
are dropped before (R409). -/
def doRingDeliver (t r : Nat) (d : Dev) : Dev :=
  let d := advance d t
  let d := dropExpired d r d.ticks
  match (ringSt d r).held with
  | [] => d
  | h :: _ =>
    match tryDeliver d r h with
    | (true, d) => let y := ringSt d r; ledgerPurge (setRing d r { y with held := y.held.drop 1 })
    | (false, d) => d

def execRingItemDeliver (t ring : Nat) (s : State) : Host.Outcome State Fault Refusal :=
  act (decide (ring < 32)) s (doRingDeliver t ring)

/-- RING_HOLD_EXPIRY: the held items whose HOLD_US has passed are dropped (R409). -/
def doHoldExpiry (t r : Nat) (d : Dev) : Dev :=
  let d := advance d t
  dropExpired d r (d.ticks + 1)

def execRingHoldExpiry (t ring : Nat) (s : State) : Host.Outcome State Fault Refusal :=
  act (decide (ring < 32)) s (doHoldExpiry t ring)

/-- RING_RD_WRITE: the host moves RD; items it has passed are no longer in the buffer, and the
indication of an aged item falls with the last of them (R408, R413). On ring 28 RD is the tail. -/
def doRdWrite (t r v : Nat) (d : Dev) : Dev :=
  let d := advance d t
  if r = 28 then setR d pgRings (F.RINGS_RD 28) (v / 32 * 32)
  else
    let d := setR d pgRings (F.RINGS_RD r) (v / 64 * 64)
    let sz := ringSize d r
    let rd := getR d pgRings (F.RINGS_RD r)
    let x := ringSt d r
    let left := x.written.filter (fun e =>
      let a := (e.1 + 2 ^ 31 - rd) % sz
      decide (0 < a) && decide (a ≤ ringHeld d r))
    let old := left.any (fun e => decide (e.2 + usT (getR d pgRings F.RINGS_NOTIFY_US) < d.ticks))
    setRing d r { x with written := left, aged := x.aged && old }

def execRingRdWrite (t ring v : Nat) (s : State) : Host.Outcome State Fault Refusal :=
  act (decide (ring < 32)) s (fun d => onPage pgRings (doRdWrite t ring v) (advance d t))

/-- Every held item of ring `r` is dropped. -/
def dropHeld (d : Dev) (r cause : Nat) : Dev :=
  let hs := (ringSt d r).held
  let d := hs.foldl (fun d h => dropItem d r h cause) d
  let y := ringSt d r
  ledgerPurge (setRing d r { y with held := [] })

/-- RING_BIND_WRITE: word `w` of ring `r`'s binding (0 BIND, 1–2 BASE, 3 HOLD and NOTIFY) is written. A
write of one of the first three stops the ring, drops its held items, sets WR and RD to 0 and writes
0 to the write-back slot; the ring then runs under its new binding (R408). -/
def doBindWrite (t r w v : Nat) (d : Dev) : Dev :=
  let d := advance d t
  if w = 3 then
    setR (setR d pgRings (F.RINGS_HOLD_US r) v) pgRings (F.RINGS_NOTIFY_64B r) (v / 65536)
  else
    let d := dropHeld d r 4
    let d :=
      if w = 0 then
        let d := setR d pgRings (F.RINGS_BIND r) v
        let d := setR d pgRings (F.RINGS_MODE r) (bits v 2 1)
        let d := setR d pgRings (F.RINGS_NOTIFY_EN r) (bits v 3 1)
        let d := setR d pgRings (F.RINGS_FLOW r) (bits v 8 5)
        setR d pgRings (F.RINGS_SIZE_LOG2 r) (bits v 24 5)
      else if w = 1 then
        setR d pgRings (F.RINGS_BASE r) (putBits (getR d pgRings (F.RINGS_BASE r)) 0 32 (v / 4096 * 4096))
      else setR d pgRings (F.RINGS_BASE r) (putBits (getR d pgRings (F.RINGS_BASE r)) 32 32 v)
    let d := setR d pgRings (F.RINGS_WR r) 0
    let d := setR d pgRings (F.RINGS_RD r) 0
    let d := setR d pgRings F.RINGS_STOPPED (putBits (getR d pgRings F.RINGS_STOPPED) r 1 0)
    let x := ringSt d r
    let d := setRing d r { x with dropArmed := true, written := [], aged := false }
    onlyIf (hostUp d && ringBind d r == 1) (fun d => writeBack d r 0) d

def execRingBindWrite (t ring w v : Nat) (s : State) : Host.Outcome State Fault Refusal :=
  act (decide (ring < 32) && decide (w < 4)) s (fun d => onPage pgRings (doBindWrite t ring w v) (advance d t))

/-- The loss report of R412.
(Log: 193 DEDUCED.) -/
def lossReport (r : Nat) (l : Loss) : List Nat :=
  let b := padTo 60 (leBytes 2 0x4744 ++ [1, r] ++ leBytes 4 l.count ++ leBytes 4 l.seq ++
    leBytes 4 l.num ++ leBytes 4 l.sec ++ [l.cause])
  b ++ leBytes 4 (crc32c b)

/-- The reports of ring `r` for the seconds that have ended. -/
def reportRing (d : Dev) (r : Nat) : Dev :=
  let x := ringSt d r
  let sec := taiSec (tai d)
  let done := x.losses.filter (fun l => decide (l.sec ≠ sec))
  let d := setRing d r { x with losses := x.losses.filter (fun l => decide (l.sec = sec)) }
  done.foldl (fun d l => offerBytes d 30 (lossReport r l)) d

/-- LOSS_REPORT: after a TAI second with drops, each ring's report is offered to source 30 (R412). -/
def execLossReport (t : Nat) (s : State) : Host.Outcome State Fault Refusal :=
  act true s (fun d => (List.range 32).foldl reportRing (advance d t))

/-- NOTIFY_TIMEOUT: the ring indication becomes pending for an item written more than NOTIFY_US ago
(R413).
(Log: 193 DEDUCED.) -/
def doNotify (t r : Nat) (d : Dev) : Dev :=
  let d := advance d t
  let x := ringSt d r
  let old := x.written.any (fun e => decide (e.2 + usT (getR d pgRings F.RINGS_NOTIFY_US) < d.ticks))
  setRing d r { x with aged := x.aged || old }

def execNotifyTimeout (t ring : Nat) (s : State) : Host.Outcome State Fault Refusal :=
  act (decide (ring < 32)) s (doNotify t ring)

/-! ## The PCIe function (R399, R401, R416) -/

/-- The rings bound to HOST.
(Log: 191 DEDUCED.) -/
def hostRings (d : Dev) : List Nat := (List.range 32).filter (fun r => ringBind d r == 1)

/-- The command read but not executed is discarded; an access of it on its way to another package is nobody's (R401).
(Log: 191 DEDUCED.) -/
def dropCmd (d : Dev) : Dev :=
  let own := d.baton.proxies.map (fun x => if x.owner = 1 then { x with owner := 2 } else x)
  let wait := d.baton.waiting.map (fun x => if x.owner = 1 then { x with owner := 2 } else x)
  let d := { d with baton := { d.baton with proxies := own, waiting := wait } }
  { d with cmd := { d.cmd with cur := none, waitSince := none, away := false } }

/-- PCIE_RESET: function level reset (0), hot reset (1) or link down (2): rings bound to HOST stop and
drop what they hold, the PCIE page, the MSI-X table, the pending bits and WB_BASE return to reset
values, and commands read from the host but not executed are discarded; FLRS counts (R401).
(Log: 19 PRESUMED, 191 DEDUCED.) -/
def doPcieReset (t kind : Nat) (d : Dev) : Dev :=
  let d := advance d t
  let flrs := getR d pgPcie F.PCIE_FLRS
  let downs := getR d pgPcie F.PCIE_LINK_DOWNS
  let state := getR d pgPcie cSTATE
  let rs := hostRings d
  let d := rs.foldl (fun d r =>
    setR (dropHeld d r 4) pgRings F.RINGS_STOPPED (putBits (getR d pgRings F.RINGS_STOPPED) r 1 1)) d
  let d := onlyIf (!rs.isEmpty) (fun d => raise d pgRings 9) d
  let regs := Store.clearRange d.regs (key pgPcie ⟨0, 0, 0, 0⟩) (key (pgPcie + 1) ⟨0, 0, 0, 0⟩)
  let d := { d with regs := regs, evt := Store.set d.evt 0 pgPcie 0 }
  let d := { d with irq := { d.irq with masked := List.range 64, funcMask := false, pba := [] } }
  let d := setR d pgRings F.RINGS_WB_BASE 0
  let d := onlyIf (rs.contains 28) dropCmd d
  let d := setR d pgPcie F.PCIE_FLRS (min (flrs + 1) (2 ^ 32 - 1))
  let d := setR d pgPcie F.PCIE_LINK_DOWNS downs
  if kind = 2 then
    raise (bump (setR d pgPcie cSTATE 0) pgPcie F.PCIE_LINK_DOWNS) pgPcie 9
  else raise (setR d pgPcie cSTATE state) pgPcie 10

def execPcieReset (t kind : Nat) (s : State) : Host.Outcome State Fault Refusal :=
  act (decide (kind < 3)) s (doPcieReset t kind)

/-- BUS_MASTER_CHANGE: the host sets Bus Master Enable and the power state of the function; while it may
not write host memory, the rings bound to HOST behave as DROP with HOLD_US 0 (R401). -/
def doBusMaster (t : Nat) (bme d3 : Bool) (d : Dev) : Dev :=
  let d := advance d t
  let d := setR (setR d pgPcie F.PCIE_BME (b2n bme)) pgPcie F.PCIE_D3HOT (b2n d3)
  if hostUp d then d else (hostRings d).foldl (fun d r => dropHeld d r 3) d

def execBusMasterChange (t : Nat) (bme d3 : Bool) (s : State) : Host.Outcome State Fault Refusal :=
  act true s (doBusMaster t bme d3)

/-- PCIE_LINK_UP: the link completes training (R399, R416), not in SLEEP (R435).
(Log: 190 DESIGN CHOICE.) -/
def doPcieLinkUp (t speed width mps mrrs : Nat) (d : Dev) : Dev :=
  let d := advance d t
  if getR d pgPace F.PACE_PSTATE_NOW = 2 then d else
  let was := getR d pgPcie cSTATE
  let d := setR d pgPcie cSTATE 2
  let d := setR (setR d pgPcie F.PCIE_SPEED speed) pgPcie F.PCIE_WIDTH width
  let d := setR (setR d pgPcie F.PCIE_MPS mps) pgPcie F.PCIE_MRRS mrrs
  onlyIf (was != 2) (fun d => raise d pgPcie 8) d

def execPcieLinkUp (t speed width mps mrrs : Nat) (s : State) : Host.Outcome State Fault Refusal :=
  act true s (doPcieLinkUp t speed width mps mrrs)

/-! ## Ethernet ports (R402, R403, R418) -/

/-- Sub-ports of port `e` in its MODE (R402). -/
def subPorts (d : Dev) (e : Nat) : Nat :=
  let m := getR d (pgEth e) F.ETH_MODE
  if m = 0 ∨ m = 7 then 0 else if m < 4 then 1 else 4

/-- STATUS.STATE of the port follows its sub-ports (R418); `fault` says that the lanes cannot run the
MODE. -/
def ethShow (d : Dev) (e : Nat) (fault : Bool) : Dev :=
  let up := (List.range 4).any (fun p => getR d (pgEth e) (F.ETH_LINK p) == 2)
  let st := if fault then 3 else if subPorts d e = 0 then 0 else if up then 2 else 1
  setR d (pgEth e) cSTATE st

/-- Word 0x040 of port `e` as it is written.
(Log: 188 DEDUCED.) -/
def ethWord (d : Dev) (e : Nat) : Nat :=
  let p := pgEth e
  getR d p F.ETH_MODE + 2 ^ 4 * getR d p F.ETH_FEC25 + 2 ^ 8 * getR d p F.ETH_AN_EN + 2 ^ 9 * getR d p F.ETH_PAUSE_EN +
    2 ^ 16 * getR d p F.ETH_MTU

/-- Sub-port `p` of port `e` takes link state `v` (0 down, 1 training, 2 up): LINK_UP and LINK_DOWN at
their onsets, LINK_DOWNS counts; a port that comes up takes its configuration (R418).
(Log: 188 DEDUCED.) -/
def setLink (d : Dev) (e p v : Nat) : Dev :=
  let was := getR d (pgEth e) (F.ETH_LINK p)
  let up := (List.range 4).any (fun p => getR d (pgEth e) (F.ETH_LINK p) == 2)
  let d := if v = 2 ∧ up = false then
      { d with net := { d.net with ethCfg := Store.set d.net.ethCfg 0x23280120 e (ethWord d e) } }
    else d
  let d := setR d (pgEth e) (F.ETH_LINK p) v
  let d := onlyIf (was != 2 && v == 2) (fun d => raise d (pgEth e) 8) d
  onlyIf (was == 2 && v != 2) (fun d => raise (bump d (pgEth e) F.ETH_LINK_DOWNS) (pgEth e) 9) d

/-- ETH_MODE_WRITE: a write of ETH.CFG; a change of MODE takes the port down, to come up again in the new
mode (R402). `fault`: the lanes cannot run the MODE written.
(Log: 188 DEDUCED.) -/
def doEthMode (t e v : Nat) (fault : Bool) (d : Dev) : Dev :=
  let d := advance d t
  let was := getR d (pgEth e) F.ETH_MODE
  let d := setR d (pgEth e) F.ETH_MODE v
  let d := setR d (pgEth e) F.ETH_FEC25 (bits v 4 2)
  let d := setR d (pgEth e) F.ETH_AN_EN (bits v 8 1)
  let d := setR d (pgEth e) F.ETH_PAUSE_EN (bits v 9 1)
  let d := setR d (pgEth e) F.ETH_MTU (bits v 16 14)
  if was = bits v 0 3 then d
  else
    let d := (List.range 4).foldl (fun d p => setLink d e p (if p < subPorts d e then 1 else 0)) d
    ethShow d e fault

def execEthModeWrite (t port v : Nat) (fault : Bool) (s : State) : Host.Outcome State Fault Refusal :=
  act (decide (port < 2)) s (fun d => onPage (pgEth port) (doEthMode t port v fault) (advance d t))

/-- A lane unit of port `e` runs: the port carries no traffic (R461).
(Log: 190 DESIGN CHOICE.) -/
def laneRuns (d : Dev) (e : Nat) : Bool :=
  (List.range 4).any (fun i =>
    let st := getR d (pgLpu 1) (F.LPUL_UNIT_STATE (4 * e + i))
    st == 1 || st == 2)

/-- ETH_LINK_CHANGE: a sub-port link goes down (0), trains (1) or comes up (2) (R402, R411), the latter two not while
a lane unit of the port runs (R461) or in SLEEP (R434). -/
def doEthLink (t e p v : Nat) (d : Dev) : Dev :=
  let d := advance d t
  if (laneRuns d e || getR d pgPace F.PACE_PSTATE_NOW == 2) && v != 0 then d
  else if p < subPorts d e then ethShow (setLink d e p v) e false else d

def execEthLinkChange (t port sub v : Nat) (s : State) : Host.Outcome State Fault Refusal :=
  act (decide (port < 2) && decide (sub < 4) && decide (v < 3)) s (doEthLink t port sub v)

/-- The sub-port can send and answer: up, with a MAC address (R418). -/
def subUp (d : Dev) (e p : Nat) : Bool :=
  getR d (pgEth e) (F.ETH_LINK p) == 2 && getR d (pgEth e) (F.ETH_MAC p) != 0

/-- The IPv6 address words of sub-port `p`. -/
def subV6 (d : Dev) (e p : Nat) : List Nat := (List.range 4).map (fun i => getR d (pgEth e) (F.ETH_IPV6 p i))

/-- A frame is received, and one that nothing handles is discarded and counted (R403).
(Log: 151 DEDUCED, 189 DEDUCED.) -/
def rxFrame (d : Dev) (e : Nat) : Dev := bump d (pgEth e) F.ETH_RX_PKTS
def rxIgnore (d : Dev) (e : Nat) : Dev := bump d (pgEth e) F.ETH_RX_IGNORED

/-- A reply leaves the port: it counts as sent, with bytes that the rules do not state.
(Log: 190 DESIGN CHOICE.) -/
def reply (d : Dev) (e p kind : Nat) (fields : List Int) : Dev :=
  let (n, d) := freeV (bump d (pgEth e) F.ETH_TX_PKTS)
  emit (addC d (pgEth e) F.ETH_TX_BYTES n) (.ether e p kind fields)

/-- ARP_REQUEST: answered for the sub-port's own IPv4 address (R403). -/
def doArp (t e p ip mac : Nat) (d : Dev) : Dev :=
  let d := rxFrame (advance d t) e
  if subUp d e p && ip != 0 && ip == getR d (pgEth e) (F.ETH_IPV4 p) then
    reply d e p 0 [(ip : Int), (mac : Int), (getR d (pgEth e) (F.ETH_MAC p) : Int)]
  else rxIgnore d e

def execArpRequest (t port sub ip mac : Nat) (s : State) : Host.Outcome State Fault Refusal :=
  act (decide (port < 2) && decide (sub < 4)) s (doArp t port sub ip mac)

/-- NEIGHBOUR_SOLICITATION: answered for the sub-port's own IPv6 address (R403). -/
def doNeighbour (t e p : Nat) (ip : List Nat) (d : Dev) : Dev :=
  let d := rxFrame (advance d t) e
  if subUp d e p && ip == subV6 d e p && ip.any (· != 0) then
    reply d e p 1 ((ip.map (fun (x : Nat) => (x : Int))) ++ [(getR d (pgEth e) (F.ETH_MAC p) : Int)])
  else rxIgnore d e

def execNeighbourSolicitation (t port sub : Nat) (ip : List Nat) (s : State) :
    Host.Outcome State Fault Refusal :=
  act (decide (port < 2) && decide (sub < 4)) s (doNeighbour t port sub ip)

/-- ECHO_REQUEST: an echo request to the sub-port's address is answered, at most 100 per second; the
excess is ignored (R403).
(Log: 189 DEDUCED.) -/
def doEcho (t e p : Nat) (v6 : Bool) (ip : List Nat) (id : Nat) (d : Dev) : Dev :=
  let d := rxFrame (advance d t) e
  let mine := if v6 then ip == subV6 d e p && ip.any (· != 0)
    else ip == [getR d (pgEth e) (F.ETH_IPV4 p)] && ip != [0]
  if subUp d e p && mine then
    let k := 4 * e + p
    let sec := taiSec (tai d)
    let n := if Store.get d.net.echoSec 0 k = sec then Store.get d.net.echoCount 0 k else 0
    if n < 100 then
      let d := { d with net := { d.net with echoSec := Store.set d.net.echoSec 0 k sec,
                                            echoCount := Store.set d.net.echoCount 0 k (n + 1) } }
      reply d e p 2 [(id : Int)]
    else d
  else rxIgnore d e

def execEchoRequest (t port sub : Nat) (v6 : Bool) (ip : List Nat) (id : Nat) (s : State) :
    Host.Outcome State Fault Refusal :=
  act (decide (port < 2) && decide (sub < 4)) s (doEcho t port sub v6 ip id)

/-- PAUSE_FRAME: counted; with PAUSE_EN in force it holds transmission for `quanta` of 512 bit times, else it is ignored
(R403, R411).
(Log: 189 DEDUCED.) -/
def doPause (t e quanta : Nat) (d : Dev) : Dev :=
  let d := rxFrame (advance d t) e
  if bit (ethCfg d e) 9 then
    let d := bump d (pgEth e) F.ETH_PAUSE_RX
    let gbps := if getR d (pgEth e) F.ETH_MODE < 4 then 100 else 25
    let till := Store.set d.net.pauseUntil 0 e (d.ticks + cdiv (quanta * 512) (gbps * 10))
    { d with net := { d.net with pauseUntil := till } }
  else rxIgnore (bump d (pgEth e) F.ETH_PAUSE_RX) e

def execPauseFrame (t port quanta : Nat) (s : State) : Host.Outcome State Fault Refusal :=
  act (decide (port < 2)) s (doPause t port quanta)

/-- RX_IGNORED: any other received frame is discarded and counted (R403); `badFcs` says that its FCS was
bad.
(Log: 189 DEDUCED.) -/
def doRxIgnored (t e : Nat) (badFcs : Bool) (d : Dev) : Dev :=
  let d := advance d t
  if badFcs then bump d (pgEth e) F.ETH_RX_FCS else rxIgnore (rxFrame d e) e

def execRxIgnored (t port : Nat) (badFcs : Bool) (s : State) : Host.Outcome State Fault Refusal :=
  act (decide (port < 2)) s (doRxIgnored t port badFcs)

/-- FLOW_WRITE: word `w` of flow `f` is written; it takes effect at the next item boundary of the flow,
and items leave whole (R411, R419). -/
def doFlowWrite (t f w v : Nat) (d : Dev) : Dev :=
  let d := advance d t
  if w = 0 then setR d pgFlows (F.FLOWS_DMAC f) (putBits (getR d pgFlows (F.FLOWS_DMAC f)) 0 32 v)
  else if w = 1 then
    let d := setR d pgFlows (F.FLOWS_DMAC f) (putBits (getR d pgFlows (F.FLOWS_DMAC f)) 32 16 v)
    let d := setR d pgFlows (F.FLOWS_ETH f) (bits v 16 1)
    let d := setR d pgFlows (F.FLOWS_SUB f) (bits v 17 2)
    let d := setR d pgFlows (F.FLOWS_IPV6 f) (bits v 19 1)
    let d := setR d pgFlows (F.FLOWS_DSCP f) (bits v 20 6)
    let d := setR d pgFlows (F.FLOWS_CMD_OK f) (bits v 30 1)
    setR d pgFlows (F.FLOWS_EN f) (bits v 31 1)
  else if w = 2 then
    setR (setR d pgFlows (F.FLOWS_DPORT f) v) pgFlows (F.FLOWS_SPORT f) (v / 65536)
  else if w = 3 then setR d pgFlows (F.FLOWS_RATE f) v
  else setR d pgFlows (F.FLOWS_DIP f (w - 4)) v

def execFlowWrite (t flow w v : Nat) (s : State) : Host.Outcome State Fault Refusal :=
  act (decide (flow < 32) && decide (w < 8)) s (fun d => onPage pgFlows (doFlowWrite t flow w v) (advance d t))

end Sys2Proof.Machine
end

