-- ==== Sys2Proof/Machine/Ledger.lean ====
section
/-! DEFINITION. The Ledger: numbering, reservation, loss and USER entries (R249–R253). -/

namespace Sys2Proof.Machine

open Sys2Proof

/-- The next accession number and the end of the reserved block. -/
def nextAcc (d : Dev) : Nat := getR d pgPkg F.PKG_NEXT_ACC
def rsvEnd (d : Dev) : Nat := getR d pgPkg F.PKG_RSV_END

/-- Numbering is held under R250 or R251. -/
def numberHeld (d : Dev) : Bool := d.ledger.reseedWait || decide (rsvEnd d ≤ nextAcc d)

/-- `n` numbers are passed over. -/
def passNumbers (d : Dev) (n : Nat) : Dev := setR d pgPkg F.PKG_NEXT_ACC (nextAcc d + n)

/-- The payload of a LOST entry (R249, R252). -/
def lostPayload (first count : Nat) : List Nat := leBytes 8 first ++ leBytes 4 count

/-- The record whose EVENT_OPEN entry this is notes its accession number `k` (R248). -/
def noteAcc (k : Nat) (e : LedgerEntry) (r : RecSt) : RecSt :=
  if r.acc.isNone && decide (ofLe ((e.payload.drop 3).take 8) = r.kt) then { r with acc := some k } else r
def noteSeq (k : Nat) (e : LedgerEntry) (x : SeqSt) : SeqSt :=
  { x with open_ := x.open_.map (noteAcc k e), done := x.done.map (noteAcc k e) }
def noteOpen (d : Dev) (e : LedgerEntry) (k : Nat) : Dev :=
  if e.kind = 0x0160 ∧ e.line < 12 then
    let x := hurdle d e.line
    if e.payload.headD 0 = 0 then setHurdle d e.line { x with seq0 := noteSeq k e x.seq0 }
    else setHurdle d e.line { x with seq1 := noteSeq k e x.seq1 }
  else d

/-- Of a run of lost entries whose first number is `first`, the EVENT_OPEN entries among the first `k` note theirs (R252).
(Log: 111 DESIGN CHOICE.) -/
def noteLost (d : Dev) (first : Option Nat) (k : Nat) (opens : List (Nat × LedgerEntry)) : Dev :=
  match first with
  | some f => opens.foldl (fun d e => if e.1 < k then noteOpen d e.2 (f + e.1) else d) d
  | none => d

/-- A place takes the next number and its entry goes to ring 24 (R252). -/
def numberPlace (d : Dev) (p : LedgerPlace) : LedgerPlace × Dev :=
  let n := nextAcc d
  let e := if p.isLost then { p.entry with payload := padTo 28 (lostPayload (p.lostFirst.getD 0) p.lostCount) }
    else p.entry
  let d := bump (passNumbers (noteOpen d e n) 1) pgPkg F.PKG_ENTRIES
  let d := onlyIf e.test (fun d => offerBytes d 30 (entryBytes d e n)) d
  ({ p with entry := e, num := some n }, offerBytes d 24 (entryBytes d e n))

/-- Place `p` is numbered as far as the reserved block allows: first the lost numbers before it. -/
def tryNumber (d : Dev) (p : LedgerPlace) : LedgerPlace × Dev :=
  if p.num.isSome || numberHeld d then (p, d)
  else
    let k := min p.lostPend (rsvEnd d - nextAcc d)
    let p := if k = 0 then p
      else { p with lostFirst := some (p.lostFirst.getD (nextAcc d)), lostPend := p.lostPend - k }
    let d := noteLost (passNumbers d k) p.lostFirst (p.lostCount - p.lostPend) p.lostOpens
    let p := { p with lostOpens := p.lostOpens.filter (fun e => decide (p.lostCount - p.lostPend ≤ e.1)) }
    if p.lostPend = 0 && !numberHeld d then numberPlace d p else (p, d)

/-- Numbers are given in arrival order, then to the open run of lost entries (R252). -/
def numberAll (d : Dev) : Dev :=
  let r := d.ledger.places.foldl (fun (a : List LedgerPlace × Dev) p =>
    let x := tryNumber a.2 p
    (a.1 ++ [x.1], x.2)) ([], d)
  let d := { r.2 with ledger := { r.2.ledger with places := r.1 } }
  let k := if numberHeld d || r.1.any (·.num.isNone) then 0 else min d.ledger.lostPend (rsvEnd d - nextAcc d)
  if k = 0 then d
  else
    let l := { d.ledger with lostFirst := some (d.ledger.lostFirst.getD (nextAcc d)),
                             lostPend := d.ledger.lostPend - k }
    let j := l.lostCount - l.lostPend
    let d := noteLost (passNumbers d k) l.lostFirst j l.lostOpens
    { d with ledger := { l with lostOpens := l.lostOpens.filter (fun e => decide (j ≤ e.1)) } }

/-- A place of an entry that is not a LOST entry. -/
def plainPlace (e : LedgerEntry) : LedgerPlace := ⟨e, none, false, none, 0, 0, [], false, false⟩

/-- An entry that the package itself makes now (line 0xF, page type PKG). -/
def pkgEntry (d : Dev) (k : Nat) (payload : List Nat) : LedgerEntry :=
  { kind := k, line := 0xF, ptype := typeCode .pkg, taiS := taiSec (tai d), ns := taiNs (tai d),
    sub := taiSub (tai d), quality := b2n (unqualNow d) + 2 * getR d pgTime F.TIME_LABEL_BACKUP,
    payload := padTo 28 payload }

/-- Entry `e` reaches the hub: it takes a place and a number, or is lost; after a loss the LOST entry is
stored with the next entry once two places are free (R252). -/
def ledgerArrive (d : Dev) (e : LedgerEntry) : Dev :=
  let d := ledgerPurge d
  let free := 4096 - d.ledger.places.length
  let isOpen := decide (e.kind = 0x0160)
  let l := d.ledger
  let d :=
    if 0 < l.lostCount then
      if 2 ≤ free then
        let lost : LedgerPlace := ⟨pkgEntry d 0x0001 [], none, true, l.lostFirst, l.lostCount, l.lostPend, l.lostOpens, false, false⟩
        { d with ledger := { l with places := l.places ++ [lost, plainPlace e], lostFirst := none,
                                    lostCount := 0, lostPend := 0, lostOpens := [] } }
      else { d with ledger := { l with lostCount := l.lostCount + 1, lostPend := l.lostPend + 1,
                                       lostOpens := if isOpen then l.lostOpens ++ [(l.lostCount, e)] else l.lostOpens } }
    else if 1 ≤ free then { d with ledger := { l with places := l.places ++ [plainPlace e] } }
    else { d with ledger := { l with lostCount := 1, lostPend := 1, lostFirst := none,
                                     lostOpens := if isOpen then [(0, e)] else [] } }
  let lost := decide (l.lostCount < d.ledger.lostCount)
  let d := onlyIf lost (fun d => raise (bump d pgPkg F.PKG_LEDGER_LOST) pgPkg 11) d
  ledgerPurge (numberAll d)

/-- LEDGER_ENTRY: the oldest entry on its way reaches the hub buffer (R252). -/
def doLedgerEntry (t : Nat) (d : Dev) : Dev :=
  let d := advance d t
  match d.ledgerOut with
  | [] => d
  | e :: r => ledgerArrive { d with ledgerOut := r } e

def execLedgerEntry (t : Nat) (s : State) : Host.Outcome State Fault Refusal :=
  act true s (doLedgerEntry t)

/-- The device reserves the following block of 4,096 numbers: `ok` says that the write of the Almanac
was verified (R250 steps 2, 3 and 5).
(Log: 115 DEDUCED.) -/
def reserveBlock (d : Dev) (ok : Bool) : Dev :=
  if ok then
    let e := rsvEnd d + 4096
    let d := setR { d with almH := e, almHOk := true } pgPkg F.PKG_RSV_END e
    ledgerPurge (numberAll { d with ledger := { d.ledger with rsvFailed := false } })
  else { d with ledger := { d.ledger with rsvFailed := true } }

/-- Numbers are reserved from stage 4 of a start on (R444).
(Log: 115 DEDUCED.) -/
def reserveOn (d : Dev) : Bool := decide (4 ≤ getR d pgPkg F.PKG_BOOT_STAGE) && decide (getR d pgPkg F.PKG_BOOT_STAGE ≤ 6)

/-- LEDGER_RESERVE: the next number has reached the reserved end.
(Log: 115 DEDUCED.) -/
def doReserve (t : Nat) (ok : Bool) (d : Dev) : Dev :=
  let d := advance d t
  if reserveOn d && !d.ledger.reseedWait && decide (rsvEnd d ≤ nextAcc d) then reserveBlock d ok else d

def execLedgerReserve (t : Nat) (ok : Bool) (s : State) : Host.Outcome State Fault Refusal :=
  act true s (doReserve t ok)

/-- LEDGER_RESERVE_RETRY: 1 ms after a reservation that could not be verified, the device tries again
(R250 step 5).
(Log: 115 DEDUCED.) -/
def doReserveRetry (t : Nat) (ok : Bool) (d : Dev) : Dev :=
  let d := advance d t
  if reserveOn d && d.ledger.rsvFailed then reserveBlock d ok else d

def execLedgerReserveRetry (t : Nat) (ok : Bool) (s : State) : Host.Outcome State Fault Refusal :=
  act true s (doReserveRetry t ok)

/-- The numbered entries of the buffer go to the Archive's Ledger volume, where the Archive is MOUNTED (R252): to stream 36
(R368). They are written once their block is durable. -/
def ledgerToArchive (d : Dev) : Dev :=
  if getR d pgArc cSTATE = 2 then
    let items := (d.ledger.places.filter (fun p => !p.arcSent)).filterMap (fun p => p.num.map (fun n =>
      ArcItem.mk 36 n ((p.entry.taiS : Int) * secU + ((p.entry.ns * 65536 + p.entry.sub : Nat) : Int))
        (entryBytes d p.entry n)))
    let ps := d.ledger.places.map (fun p => if p.num.isSome then { p with arcSent := true } else p)
    { d with ledger := { d.ledger with places := ps }, arc := { d.arc with inQ := d.arc.inQ ++ items } }
  else d

/-- LEDGER_ARCHIVE_WRITE: at least once per second (R252). -/
def execLedgerArchiveWrite (t : Nat) (s : State) : Host.Outcome State Fault Refusal :=
  act true s (fun d => ledgerToArchive (advance d t))

/-- USER_GO: word 0x08C is written as `v`: USER_DETAIL is set, and USER_GO writes one USER entry
(R253). -/
def doUserGo (t v : Nat) (d : Dev) : Dev :=
  let d := advance d t
  let d := setR d pgPkg F.PKG_USER_DETAIL (bits v 0 16)
  if bit v 31 then
    ledgerNow d 0xF000 0xF (bits v 0 16)
      ((List.range 7).flatMap (fun w => leBytes 4 (getR d pgPkg (F.PKG_USER_P w))))
  else d

def execUserGo (t v : Nat) (s : State) : Host.Outcome State Fault Refusal := act true s (doUserGo t v)

/-- Numbering resumes from mark `h` after H failed its CRC; the first entry numbered is a RESEED with
its `source`: 1 Archive, 2 backup counter (R251).
(Log: 218 DEDUCED.) -/
def reseed (d : Dev) (h source : Nat) : Dev :=
  if d.ledger.reseedWait then
    let e := pkgEntry d 0x0002 (leBytes 8 h ++ [source])
    let l := { d.ledger with reseedWait := false, places := plainPlace e :: d.ledger.places }
    let d := setR { d with ledger := l, almH := h } pgPkg F.PKG_NEXT_ACC h
    bump (setR d pgPkg F.PKG_RSV_END h) pgPkg F.PKG_RESEEDS
  else d

/-- The highest accession number in the Archive's Ledger volume (R251).
(Log: 218 DEDUCED.) -/
def ledgerTop (d : Dev) : Option Nat :=
  let bs := (d.arc.segs.filter (fun e => e.2.vol == 3)).flatMap (fun e => e.2.blocks.filter (fun b => b.stream == 36 && b.durable))
  if bs.isEmpty then none else some ((bs.map (·.last)).foldl max 0)

/-- The Archive has mounted: H is the highest number of the Ledger volume plus 2^20 + 1, or the backup
domain's seconds × 2^20 where there is no such volume (R251).
(Log: 218 DEDUCED.) -/
def reseedAtMount (d : Dev) : Dev :=
  match ledgerTop d with
  | some m => reseed d (m + 2 ^ 20 + 1) 1
  | none => reseed d (bkpSecs d * 2 ^ 20) 2

end Sys2Proof.Machine
end

