-- ==== Sys2Proof/Machine/Memory.lean ====
section
/-! DEFINITION. The bytes behind device addresses (R343): DRAM and the hub shelves that BAR2 reaches, as a
list of address and byte with rising addresses and no zero byte. A byte that nothing has written
reads 0 (DESIGN CHOICE). -/

namespace Sys2Proof.Machine

open Sys2Proof

/-- The canonical form: addresses rise strictly and no listed byte is zero.
(Log: 11 DESIGN CHOICE.) -/
def Memory.wf (m : List Host.Cell) : Bool :=
  match m with
  | [] => true
  | [a] => a.2 != 0
  | a :: b :: r => a.2 != 0 && decide (a.1 < b.1) && Memory.wf (b :: r)

/-- The byte at `a`.
(Log: 11 DESIGN CHOICE.) -/
def memByte (m : List Host.Cell) (a : Nat) : Nat :=
  match m.find? (fun c => c.1 == a) with
  | some c => c.2.toNat
  | none => 0

/-- The cells of `bytes` from address `a` on. -/
def memCells (a : Nat) (bytes : List Nat) : List Host.Cell :=
  match bytes with
  | [] => []
  | b :: r => if b % 256 = 0 then memCells (a + 1) r else (a, BitVec.ofNat 8 b) :: memCells (a + 1) r

/-- Memory with `bytes` stored at `a`. -/
def memWrite (m : List Host.Cell) (a : Nat) (bytes : List Nat) : List Host.Cell :=
  m.filter (fun c => decide (c.1 < a)) ++ memCells a bytes ++
    m.filter (fun c => decide (a + bytes.length ≤ c.1))

/-- `len` bytes from `a` on. -/
def memRead (m : List Host.Cell) (a len : Nat) : List Nat := (List.range len).map (fun i => memByte m (a + i))

/-- Bytes stored in the device's memory. -/
def store (d : Dev) (a : Nat) (bytes : List Nat) : Dev := { d with mem := memWrite d.mem a bytes }

/-- Bytes read from the device's memory. -/
def load (d : Dev) (a len : Nat) : List Nat := memRead d.mem a len

end Sys2Proof.Machine
end

