-- ==== Sys2Proof/Machine/Dram.lean ====
section
/-! DEFINITION. The rolling records and the DDR4 controllers (R343–R361), and BAR2 (R400). -/

namespace Sys2Proof.Machine

open Sys2Proof

/-- Rank states (R360): 0 ABSENT, 1 ACTIVE, 2 SPARE, 3 MIGRATING, 4 RETIRED, 5 SPARE_PENDING, 6 FAILING. -/
def rankState (d : Dev) (c r : Nat) : Nat := bits (getR d (pgDmc c) F.DMC_RANK_STATE) (4 * r) 4
def setRank (d : Dev) (c r v : Nat) : Dev :=
  setR d (pgDmc c) F.DMC_RANK_STATE (putBits (getR d (pgDmc c) F.DMC_RANK_STATE) (4 * r) 4 v)

/-- Usable DRAM capacity in bytes (R347), and the start of the device area (R343). -/
def usable (d : Dev) : Nat :=
  2 * (((List.range 4).filter (fun r => rankState d 0 r != 0)).length - b2n (dmc d 0).spareEn) *
    d.rankMiB * 2 ^ 20
def deviceArea (d : Dev) : Nat := usable d - 256 * 2 ^ 20

/-! ## What the host reaches (R343, R400) -/

/-- The device address of hub shelf `s`.
(Log: 160 DEDUCED.) -/
def shelfAddr (s : Nat) : Nat := 0xFF00000000 + 0x10000 * s

/-- The host reaches the byte at device address `a`: DRAM outside the device area, or a hub shelf that has
been handed to HOST.
(Log: 160 DEDUCED.) -/
def hostReach (d : Dev) (a : Nat) : Bool :=
  if 0xFF00000000 ≤ a then
    let s := (a - 0xFF00000000) / 0x10000
    decide (s < getR d (pgShelf 0) (F.SHELFH_LIMIT 8)) && (Store.find (pool d 0).owner s).isNone
  else decide (a < deviceArea d)

/-- The channel of device address `a` (R347) and its 64-byte line. -/
def chanOf (a : Nat) : Nat := a / 256 % 2
def lineNo (a : Nat) : Nat := a / 64

/-- The lines that `len` bytes from `a` touch. -/
def linesOf (a len : Nat) : List Nat :=
  (List.range (cdiv (a % 64 + len) 64)).map (fun i => a / 64 + i)

/-- A read of `len` bytes at DRAM address `a` meets a poisoned line (R351). -/
def poisoned (d : Dev) (a len : Nat) : Bool :=
  (linesOf a len).any (fun l => (dmc d (chanOf (64 * l))).poison.contains l)

/-- POISON_LINES follows the map. -/
def poisonShow (d : Dev) (c : Nat) : Dev :=
  setR d (pgDmc c) F.DMC_POISON_LINES (dmc d c).poison.length

/-- A read that touches poisoned lines counts once at each controller that holds one (R351). -/
def poisonHit (d : Dev) (a len : Nat) : Dev :=
  (List.range 2).foldl (fun d c =>
    if (linesOf a len).any (fun l => chanOf (64 * l) == c && (dmc d c).poison.contains l) then
      bump d (pgDmc c) F.DMC_POISON_HITS
    else d) d

/-- A write of `len` bytes at `a`: each line written whole leaves the poison map and is written with good
check bits (R351). -/
def unpoison (d : Dev) (a len : Nat) : Dev :=
  (linesOf a len).foldl (fun d l =>
    if a ≤ 64 * l ∧ 64 * l + 64 ≤ a + len then
      let c := chanOf (64 * l)
      let x := dmc d c
      poisonShow (setDmc d c { x with poison := x.poison.filter (· != l),
                                      inverted := x.inverted.filter (· != l) }) c
    else d) d

/-- Bytes are written to DRAM or a shelf. -/
def dramWrite (d : Dev) (a : Nat) (bytes : List Nat) : Dev := unpoison (store d a bytes) a bytes.length

/-- An uncorrectable line enters the poison map; with the map full it is written with inverted check bits
and counted (R351). -/
def poisonAdd (d : Dev) (c l : Nat) : Dev :=
  let x := dmc d c
  if x.poison.contains l || x.inverted.contains l then d
  else if x.poison.length < 4096 then poisonShow (setDmc d c { x with poison := x.poison ++ [l] }) c
  else
    let d := setDmc d c { x with inverted := x.inverted ++ [l] }
    let d := raise (bump d (pgDmc c) F.DMC_POISON_OVERFLOW) (pgDmc c) 15
    ledgerNow d 0x0416 0xF (typeCode .dmc) (c :: leBytes 8 (64 * l))

/-! ## Ranks (R350–R353) -/

/-- The line is known to be uncorrectable on the rank that a migration copies. -/
def noteLine (d : Dev) (c l : Nat) : Dev :=
  let x := dmc d c
  match x.mig with
  | some m => if m.lines.contains l then d
    else setDmc d c { x with mig := some { m with lines := m.lines ++ [l] } }
  | none => d

/-- Rank `r` of channel `c` must be retired; `l` is the uncorrectable line, if one was found (R350, R352).
(Log: 162 DESIGN CHOICE.) -/
def retire (d : Dev) (c r : Nat) (l : Option Nat) : Dev :=
  let st := rankState d c r
  if st = 3 ∨ st = 6 then
    match l with
    | some l => noteLine (poisonAdd d c l) c l
    | none => d
  else if st != 1 then d
  else
    let x := dmc d c
    match x.mig, (List.range 4).find? (fun q => rankState d c q == 2) with
    | none, some sp =>
      let d := setDmc d c { x with mig := some ⟨r, sp, d.ticks, l.toList⟩ }
      let d := setRank (setRank d c r 3) c sp 3
      let d := setR (setR d (pgDmc c) F.DMC_MIG_DONE 0) (pgDmc c) cSTATE 3
      let d := raise d (pgDmc c) 11
      ledgerNow d 0x0412 0xF (typeCode .dmc) [c, r, sp]
    | _, _ =>
      let d := setRank d c r 6
      let d := ledgerNow d 0x0412 0xF (typeCode .dmc) [c, r, 0xFF]
      match l with
      | some l => poisonAdd d c l
      | none => d

/-- An uncorrectable word of line `l` is found on rank `r` (R350, R351). -/
def dramUe (d : Dev) (c r l : Nat) : Dev :=
  let d := raise (bump d (pgDmc c) F.DMC_UE) (pgDmc c) 9
  let d := ledgerNow d 0x0410 0xF (typeCode .dmc) ([c, r] ++ leBytes 8 (64 * l))
  if (dmc d c).inverted.contains l then d else retire d c r (some l)

/-- `n` words are corrected (R349). -/
def dramCe (d : Dev) (c n : Nat) : Dev :=
  if n = 0 then d
  else raise (addC (setDmc d c { dmc d c with ceHour := (dmc d c).ceHour + n }) (pgDmc c) F.DMC_CE n) (pgDmc c) 8

/-! ## Row hammer (R354) -/

/-- The 16 entries of a bank's tally: row + 1 (0: none) and count. -/
def tallyOf (x : DmcSt) (b : Nat) : List (Nat × Nat) :=
  Store.get x.tally (List.replicate 16 (0, 0)) b

/-- The index of the entry with the lowest count, the lowest-numbered on ties. -/
def lowestIdx (l : List (Nat × Nat)) : Nat :=
  let m := l.foldl (fun a e => min a e.2) (l.headD (0, 0)).2
  l.findIdx (fun e => e.2 == m)

/-- An activate of row `r` enters the tally (R354): the tally after it, and the count reached.
(Log: 164 DEDUCED.) -/
def tallyPut (l : List (Nat × Nat)) (r : Nat) : List (Nat × Nat) × Nat :=
  let i := l.findIdx (fun e => e.1 == r + 1)
  let i := if i < l.length then i else lowestIdx l
  let n := (l.getD i (0, 0)).2 + 1
  (l.set i (r + 1, n), n)

/-- The rows whose neighbourhood to row `r` RH_RADIUS names (R354). -/
def nearRows (d : Dev) (c r : Nat) : List Nat :=
  let out (k : Nat) : List Nat := (if k ≤ r then [r - k] else []) ++ [r + k]
  out 1 ++ (if flagR d (pgDmc c) F.DMC_RH_RADIUS then out 2 else [])

/-- An activate of row `r` of bank `b`: a count that reaches RH_TH refreshes the neighbours and falls by
RH_TH (R354).
(Log: 164 DEDUCED, 256 DEDUCED.) -/
def activate (d : Dev) (c b r : Nat) : Dev :=
  let x := dmc d c
  let (l, n) := tallyPut (tallyOf x b) r
  let th := getR d (pgDmc c) F.DMC_RH_TH
  let hit := decide (th ≤ n)
  let l := if hit then l.map (fun e => if e.1 = r + 1 then (e.1, e.2 - th) else e) else l
  let d := setDmc d c { x with tally := Store.set x.tally (List.replicate 16 (0, 0)) b l }
  onlyIf hit (fun d => bump (emit d (.rowRefresh c b (nearRows d c r))) (pgDmc c) F.DMC_RH_REFRESHES) d

/-- The tallies clear.
(Log: 164 DEDUCED.) -/
def clearTally (d : Dev) (c : Nat) : Dev := setDmc d c { dmc d c with tally := [] }

/-! ## Self-refresh (R358, R359) -/

/-- Field `f` of a controller's word 0x040 as it is in force: fixed when initialisation ends (R360). -/
def dmcCfg (d : Dev) (c : Nat) (f : Fld) : Nat :=
  if getR d (pgDmc c) cSTATE = 0 then getR d (pgDmc c) f else bits (dmc d c).cfg f.lsb f.width

/-- tXS and tXSDLL in ns. -/
def tXs (d : Dev) (c : Nat) : Nat :=
  let s := dmcCfg d c F.DMC_SPEED
  let g := dmcCfg d c F.DMC_DENSITY
  if s = 3 then if g = 0 then 360 else 560 else Config.tXs s g
def tXsDll (d : Dev) (c : Nat) : Nat :=
  let s := dmcCfg d c F.DMC_SPEED
  if s = 3 then 480 else Config.tXsDll s (dmcCfg d c F.DMC_DENSITY)

/-- Controller cycles since tick `a`, at half the DRAM clock (R347). -/
def ctlCycles (d : Dev) (c a : Nat) : Nat :=
  let mt := match dmcCfg d c F.DMC_SPEED with
    | 0 => 2400
    | 1 => 2666
    | 2 => 2933
    | _ => 3200
  (d.ticks - a) * mt / 400

/-- A request arrives: it waits for the exit from self-refresh, where there is one (R359). -/
def srExit (d : Dev) (c : Nat) (write : Bool) : Dev :=
  let d :=
    if getR d (pgDmc c) cSTATE = 2 then
      let rest := 20 - 10 * (d.ticks - (dmc d c).sreAt)
      let d := peak d (pgDmc c) F.DMC_SR_WAIT_MAX (rest + if write then tXs d c else tXsDll d c)
      setR (clearTally d c) (pgDmc c) cSTATE 1
    else d
  setDmc d c { dmc d c with lastReq := d.ticks }

/-- DRAM_ACCESS: an access by a device client at device address `a` of rank `r`: a write of `bytes` or a
read of `len` bytes; `act` names the bank and row it activates, if it opens one; `err` is 1 for a
single-bit error and 2 for an uncorrectable word met by a read (R349–R354, R359). -/
def doDramAccess (t a r : Nat) (write : Bool) (len : Nat) (bytes open_ : List Nat) (err : Nat) (d : Dev) : Dev :=
  let d := advance d t
  let c := chanOf a
  let st := getR d (pgDmc c) cSTATE
  if st = 0 ∨ st = 4 then d
  else
    let d := srExit d c write
    let d := match open_ with
      | [b, row] => activate d c b row
      | _ => d
    if write then dramWrite d a bytes
    else
      let d := if err = 1 then dramCe d c 1 else if err = 2 then dramUe d c r (lineNo a) else d
      poisonHit d a len

def execDramAccess (t addr rank : Nat) (write : Bool) (len : Nat) (bytes bankRow : List Nat) (err : Nat)
    (s : State) : Host.Outcome State Fault Refusal :=
  act (decide (rank < 4)) s (doDramAccess t addr rank write len bytes bankRow err)

/-- RH_WINDOW: the next 64 ms refresh window starts and the tallies of channel `c` clear (R354). -/
def doRhWindow (t c : Nat) (d : Dev) : Dev :=
  let d := advance d (max t ((dmc d c).winAt + msT 64))
  clearTally (setDmc d c { dmc d c with winAt := d.ticks }) c

def execRhWindow (t dmc : Nat) (s : State) : Host.Outcome State Fault Refusal :=
  act (decide (dmc < 2)) s (doRhWindow t dmc)

/-- Lines of 64 bytes in one channel. -/
def chanLines (d : Dev) : Nat := usable d / 128

/-- The scrub's job of class 2 stands on Pacer's board (R349).
(Log: 166 DEDUCED.) -/
def scrubWant (d : Dev) (c : Nat) : Dev :=
  postJob d (ownScrub c) (openCost (ownScrub c)) (openDur (ownScrub c)) 0

/-- PATROL_SCRUB: `n` lines further on rank `r`, with `ce` corrected words and the uncorrectable lines `ue`;
it waits for its grant, pauses while it is deferred or in self-refresh, and counts each full pass, with which its
job ends; the next pass begins SCRUB_H hours after it began (R349, R350).
(Log: 166 DEDUCED.) -/
def doScrub (t c n ce r : Nat) (ue : List Nat) (d : Dev) : Dev :=
  let d := advance d t
  let st := getR d (pgDmc c) cSTATE
  let x := dmc d c
  if (st != 1 && st != 3) || (x.scrubPos == 0 && decide (d.ticks < x.scrubAt)) then d
  else if !jobRunning d (ownScrub c) then scrubWant d c
  else
    let at_ := if x.scrubPos = 0 then d.ticks + sT (3600 * max 1 (getR d (pgDmc c) F.DMC_SCRUB_H)) else x.scrubAt
    let d := dramCe (setDmc d c { x with scrubAt := at_ }) c ce
    let d := ue.foldl (fun d l => dramUe d c r l) d
    let x := dmc d c
    let pos := x.scrubPos + n
    let tot := chanLines d
    if 0 < tot ∧ tot ≤ pos then
      freeJob (bump (setDmc d c { x with scrubPos := 0 }) (pgDmc c) F.DMC_SCRUB_PASSES) (ownScrub c)
    else setDmc d c { x with scrubPos := pos }

def execPatrolScrub (t dmc n ce rank : Nat) (ue : List Nat) (s : State) :
    Host.Outcome State Fault Refusal :=
  act (decide (dmc < 2) && decide (rank < 4)) s (doScrub t dmc n ce rank ue)

/-- DRAM_CE_HOUR: the present hour ends; one in which CE rose writes one DRAM_CE entry (R349). -/
def doCeHour (t c : Nat) (d : Dev) : Dev :=
  let d := advance d (max t (max (dmc d c).hourAt d.boot.releaseAt + sT 3600))
  let x := dmc d c
  let d := setDmc d c { x with ceHour := 0, hourAt := d.ticks }
  onlyIf (x.ceHour != 0) (fun d => ledgerNow d 0x0417 0xF (typeCode .dmc) (c :: leBytes 4 x.ceHour)) d

def execDramCeHour (t dmc : Nat) (s : State) : Host.Outcome State Fault Refusal :=
  act (decide (dmc < 2)) s (doCeHour t dmc)

/-- CA_PARITY_ALERT: ALERT_n reports a CA parity error on rank `r`: its commands are replayed and it is
retired (R350). -/
def doCaParity (t c r : Nat) (d : Dev) : Dev :=
  let d := advance d t
  let d := raise (bump d (pgDmc c) F.DMC_CA_PAR) (pgDmc c) 10
  retire (ledgerNow d 0x0411 0xF (typeCode .dmc) [c, r]) c r none

def execCaParityAlert (t dmc rank : Nat) (s : State) : Host.Outcome State Fault Refusal :=
  act (decide (dmc < 2) && decide (rank < 4)) s (doCaParity t dmc rank)

/-- The ticks that a migration takes at MIG_BW, which DMC0 holds, or none where that is 0 (R348, R350).
(Log: 165 DESIGN CHOICE.) -/
def migTicks (d : Dev) : Option Nat :=
  let bw := getR d (pgDmc 0) F.DMC_MIG_BW
  if bw = 0 then none else some (cdiv (2 * d.rankMiB * 2 ^ 20) (5 * bw))

/-- MIGRATION_DONE: the copy completes, at MIG_BW at the soonest; `bad` are the lines that the copy found uncorrectable; the
spare becomes ACTIVE and the failing rank RETIRED (R350 steps 1, 3 and 4). -/
def doMigDone (t c : Nat) (bad : List Nat) (d : Dev) : Dev :=
  match (dmc d c).mig, migTicks d with
  | some m, some k =>
    let d := advance d (max t (m.start + k))
    let d := (m.lines ++ bad).foldl (fun d l => noteLine (poisonAdd d c l) c l) d
    let n := match (dmc d c).mig with
      | some m => m.lines.length
      | none => 0
    let d := setDmc d c { dmc d c with mig := none }
    let d := setRank (setRank d c m.spare 1) c m.failing 4
    let d := setR (setR d (pgDmc c) cSTATE 1) (pgDmc c) F.DMC_MIG_DONE d.rankMiB
    let d := raise d (pgDmc c) 12
    ledgerNow d 0x0413 0xF (typeCode .dmc)
      ([c, m.failing] ++ leBytes 4 n ++ leBytes 4 ((d.ticks - m.start) / msT 1))
  | _, _ => advance d t

def execMigrationDone (t dmc : Nat) (bad : List Nat) (s : State) : Host.Outcome State Fault Refusal :=
  act (decide (dmc < 2)) s (doMigDone t dmc bad)

/-- REQUAL_GO: word 0x058 is written as `v`; with GO a RETIRED or FAILING rank is tested (R353). -/
def doRequalGo (t c v : Nat) (d : Dev) : Dev :=
  onPage (pgDmc c) (fun d =>
    let d := setR d (pgDmc c) F.DMC_REQUAL_RANK v
    let r := bits v 0 2
    let st := rankState d c r
    if bit v 8 && (st == 4 || st == 6) && (dmc d c).requal.isNone then
      setRank (setDmc d c { dmc d c with requal := some (r, st) }) c r 5
    else d) (advance d t)

def execRequalGo (t dmc v : Nat) (s : State) : Host.Outcome State Fault Refusal :=
  act (decide (dmc < 2)) s (doRequalGo t dmc v)

/-- RANK_REQUAL_DONE: the test ends; a rank that passes becomes SPARE, one that fails stays as it was
(R353).
(Log: 162 DESIGN CHOICE.) -/
def doRankRequal (t c : Nat) (pass : Bool) (d : Dev) : Dev :=
  let d := advance d t
  match (dmc d c).requal with
  | none => d
  | some (r, st) =>
    let d := setDmc d c { dmc d c with requal := none }
    if pass then
      ledgerNow (raise (setRank d c r 2) (pgDmc c) 13) 0x0414 0xF (typeCode .dmc) [c, r]
    else setRank d c r st

def execRankRequalDone (t dmc : Nat) (pass : Bool) (s : State) : Host.Outcome State Fault Refusal :=
  act (decide (dmc < 2)) s (doRankRequal t dmc pass)

/-! ## Delays and sweeps (R355–R357) -/

/-- The register of delay word `w` of rank `r`, lane `l`, written as `v` (R355).
(Log: 163 DESIGN CHOICE.) -/
def setDelay (d : Dev) (c r l w v : Nat) : Dev :=
  let p := pgDly c
  if w = 0 then setR (setR d p (F.DLY_DL_WL r l) v) p (F.DLY_DL_GATE r l) (v / 65536)
  else if w < 3 then
    let f := F.DLY_DL_RD r l
    setR d p f (putBits (getR d p f) (32 * (w - 1)) 32 v)
  else if w < 5 then
    let f := F.DLY_DL_WR r l
    setR d p f (putBits (getR d p f) (32 * (w - 3)) 32 v)
  else setR d p (F.DLY_DL_VREF r l) v

/-- DELAY_WRITE: delay word `w` of rank `r` and lane `l` is written and kept in the Almanac; it applies at the rank's
next refresh command, a VREF only in INIT (R355).
(Log: 163 DESIGN CHOICE.) -/
def doDelayWrite (t c r l w v : Nat) (d : Dev) : Dev :=
  onPage (pgDly c) (fun d =>
    let d := setDelay d c r l w v
    let d := { d with almDly := Store.set d.almDly 0 (c * 216 + 6 * (9 * r + l) + w) (v % 2 ^ 32) }
    if w = 5 ∧ getR d (pgDmc c) cSTATE ≠ 0 then d
    else { d with dlyLive := Store.set d.dlyLive 0 (c * 216 + 6 * (9 * r + l) + w) (v % 2 ^ 32) })
    (advance d t)

def execDelayWrite (t dmc rank lane w v : Nat) (s : State) : Host.Outcome State Fault Refusal :=
  act (decide (dmc < 2) && decide (rank < 4) && decide (lane < 9) && decide (w < 6)) s
    (doDelayWrite t dmc rank lane w v)

/-- SWEEP_GO: word 0x040 of a DLY page is written as `v`; with GO a sweep starts, or is refused outside
INIT for WL, GATE and VREF (R356).
(Log: 163 DESIGN CHOICE.) -/
def doSweepGo (t c v : Nat) (d : Dev) : Dev :=
  onPage (pgDly c) (fun d =>
    let p := pgDly c
    let d := setR (setR d p F.DLY_SWEEP_RANK v) p F.DLY_SWEEP_LANE (v / 16)
    let d := setR (setR d p F.DLY_SWEEP_PARAM (v / 256)) p F.DLY_SWEEP_BIT (v / 4096)
    let d := setR (setR d p F.DLY_SWEEP_START (v / 65536)) p F.DLY_SWEEP_STEP (v / 2 ^ 24)
    let k := bits v 8 3
    if bit v 31 && getR d p cSTATE == 0 && decide (k < 5) then
      if (k == 0 || k == 1 || k == 4) && getR d (pgDmc c) cSTATE != 0 then raise d p 9
      else setR (setR d p cSTATE 1) p cBUSY 1
    else d) (advance d t)

def execSweepGo (t dmc v : Nat) (s : State) : Host.Outcome State Fault Refusal :=
  act (decide (dmc < 2)) s (doSweepGo t dmc v)

/-- SWEEP_DONE: the sweep ends with its 64 pass bits and its failing bursts (R356); the re-sweep job that Pacer granted
ends with it (R357).
(Log: 166 DEDUCED.) -/
def doSweepDone (t c pass errs : Nat) (d : Dev) : Dev :=
  let d := advance d t
  let p := pgDly c
  if getR d p cSTATE = 1 then
    let d := setR (setR d p F.DLY_SWEEP_PASS pass) p F.DLY_SWEEP_ERRORS errs
    let d := onlyIf (jobBegun d (ownSweep c)) (fun d => freeJob d (ownSweep c)) d
    raise (setR (setR d p cSTATE 0) p cBUSY 0) p 8
  else d

def execSweepDone (t dmc pass errs : Nat) (s : State) : Host.Outcome State Fault Refusal :=
  act (decide (dmc < 2)) s (doSweepDone t dmc pass errs)

/-- The least of the four sides of a margin word. -/
def worstSide (m : Nat) : Nat :=
  min (min (bits m 0 8) (bits m 8 8)) (min (bits m 16 8) (bits m 24 8))

/-- The lane with the lowest margin, the lowest-numbered on ties.
(Log: 161 DEDUCED.) -/
def worstLane (ms : List Nat) : Nat :=
  let w := (ms.map worstSide).foldl min 255
  ms.findIdx (fun m => worstSide m == w)

/-- MARGIN_SWEEP: MARGIN_S seconds after the last, the margins of the nine lanes of the rank in turn (R357). -/
def doMargin (t c : Nat) (ms : List Nat) (d : Dev) : Dev :=
  let x := dmc d c
  let d := advance d (max t (max x.marginAt d.boot.releaseAt + sT (getR d (pgDmc c) F.DMC_MARGIN_S)))
  let r := x.marginRank
  let ms := padTo 9 ms
  let d := (List.range 9).foldl (fun d l => setR d (pgDmc c) (F.DMC_MARGIN l) (ms.getD l 0)) d
  let d := setDmc d c { x with marginRank := (r + 1) % (dmcCfg d c F.DMC_RANKS + 1), marginAt := d.ticks }
  let w := worstLane ms
  let m := worstSide (ms.getD w 0)
  if m < getR d (pgDmc c) F.DMC_MARGIN_MIN then
    let d := raise d (pgDmc c) 14
    let d := ledgerNow d 0x0415 0xF (typeCode .dmc) [c, r, w, m]
    postJob d (ownSweep c) (openCost (ownSweep c)) (openDur (ownSweep c)) 0
  else d

def execMarginSweep (t dmc : Nat) (margins : List Nat) (s : State) : Host.Outcome State Fault Refusal :=
  act (decide (dmc < 2)) s (doMargin t dmc margins)

/-- SR_ENTRY: the controller would issue self-refresh entry; a request in or before that cycle (`same`)
cancels it (R358, R359). -/
def doSrEntry (t c : Nat) (same : Bool) (d : Dev) : Dev :=
  let d := advance d t
  let tol := tolMin d c
  let d := setR d (pgDmc c) F.DMC_TOL_MIN tol
  let ok := flagR d (pgDmc c) F.DMC_SR_EN && getR d (pgDmc c) cSTATE == 1 &&
    decide (20 + max (tXs d c) (tXsDll d c) + getR d (pgDmc c) F.DMC_SR_MARGIN < tol) &&
    decide (getR d (pgDmc c) F.DMC_IDLE_CYCLES ≤ ctlCycles d c (dmc d c).lastReq)
  if ok then
    if same then
      bump (setDmc d c { dmc d c with lastReq := d.ticks }) (pgDmc c) F.DMC_SR_CANCELS
    else
      let d := setDmc d c { dmc d c with sreAt := d.ticks }
      bump (setR d (pgDmc c) cSTATE 2) (pgDmc c) F.DMC_SR_ENTRIES
  else d

def execSrEntry (t dmc : Nat) (same : Bool) (s : State) : Host.Outcome State Fault Refusal :=
  act (decide (dmc < 2)) s (doSrEntry t dmc same)

/-! ## The rolling record (R344–R346) -/

def roll (d : Dev) (n : Nat) : RollSt := Store.get d.roll RollSt.reset n
def setRoll (d : Dev) (n : Nat) (x : RollSt) : Dev := { d with roll := Store.set d.roll RollSt.reset n x }

/-- The index size of line `n` (R346). -/
def idxSize (d : Dev) (n : Nat) : Nat := 2 ^ clampN 10 24 (getR d (pgShelf 0) (F.SHELFH_IDX_LOG2 n))

/-- Byte addresses of the record and of its index. -/
def rollBase (d : Dev) (n : Nat) : Nat := getR d (pgShelf 0) (F.SHELFH_ROLL_BASE n) * 2 ^ 20
def idxBase (d : Dev) (n : Nat) : Nat := getR d (pgShelf 0) (F.SHELFH_IDX_BASE n) * 2 ^ 20
def rollSize (d : Dev) (n : Nat) : Nat := getR d (pgShelf 0) (F.SHELFH_ROLL_SIZE n) * 2 ^ 20

/-- OLDEST and NEWEST follow the valid entries (R345). -/
def rollShow (d : Dev) (n : Nat) : Dev :=
  let fs := (roll d n).entries.map (·.frame)
  match fs with
  | [] => d
  | f :: r =>
    setR (setR d (pgShelf 0) (F.SHELFH_OLDEST n) (r.foldl min f)) (pgShelf 0) (F.SHELFH_NEWEST n) (r.foldl max f)

/-- The bytes at offset `o` of the record begin an acoustic frame: magic 0x4746 (R175, R344). -/
def isAcoustic (d : Dev) (n o : Nat) : Bool := load d (rollBase d n + o) 2 == [0x46, 0x47]

/-- The entries that overlap bytes `lo … hi − 1` of the record, or that stand at index position `pos`, are
invalidated (R345).
(Log: 52 DESIGN CHOICE.) -/
def rollInvalidate (d : Dev) (n lo hi pos : Nat) : Dev :=
  let x := roll d n
  let out (e : RollEntry) : Bool := e.pos == pos || (decide (e.off < hi) && decide (lo < e.off + e.len))
  let d := (x.entries.filter out).foldl
    (fun d e => store d (idxBase d n + 16 * e.pos) (List.replicate 8 0xFF)) d
  let lost := (x.entries.filter (fun e => out e && isAcoustic d n e.off)).foldl (fun m e => max m (e.frame + 1)) x.lostNo
  setRoll d n { x with entries := x.entries.filter (fun e => !out e), lostNo := lost }

/-- Frame number `f` of line `n` is written whole to the rolling record and indexed (R344, R345).
(Log: 52 DESIGN CHOICE.) -/
def rollWrite (d : Dev) (n f : Nat) (bytes : List Nat) : Dev :=
  let size := rollSize d n
  let pad := cdiv bytes.length 64 * 64
  if size = 0 ∨ size < pad then d
  else
    let x := roll d n
    let pos := x.seq % idxSize d n
    let wrap := decide (size < x.off + pad)
    let d := if wrap then
        store (rollInvalidate d n x.off size pos) (rollBase d n + x.off) (List.replicate (size - x.off) 0)
      else d
    let off := if wrap then 0 else x.off
    let d := rollInvalidate d n off (off + pad) pos
    let d := dramWrite d (rollBase d n + off) (padTo pad bytes)
    let d := store d (idxBase d n + 16 * pos) (leBytes 8 f ++ leBytes 4 (off / 64) ++ leBytes 4 bytes.length)
    let y := roll d n
    let es := y.entries ++ [⟨pos, f, off, bytes.length⟩]
    rollShow (setRoll d n { y with seq := x.seq + 1, off := (off + pad) % size, entries := es }) n

/-- ROLL_CONFIG_WRITE: word `w` of line `n`'s rolling-record fields, taken while the line is OFF (R346). -/
def doRollCfg (t n w v : Nat) (d : Dev) : Dev :=
  onPage (pgShelf 0) (fun d =>
    if getR d (pgLine n) cSTATE = 0 then
      let f := if w = 0 then F.SHELFH_ROLL_BASE n else if w = 1 then F.SHELFH_ROLL_SIZE n
        else if w = 2 then F.SHELFH_IDX_BASE n else F.SHELFH_IDX_LOG2 n
      setR d (pgShelf 0) f v
    else d) (advance d t)

def execRollConfigWrite (t ln w v : Nat) (s : State) : Host.Outcome State Fault Refusal :=
  act (decide (ln < 12) && decide (w < 4)) s (doRollCfg t ln w v)

/-! ## BAR2 (R343, R400) -/

/-- The device address that BAR2 offset `o` reaches (R400). -/
def bar2Addr (d : Dev) (o : Nat) : Nat :=
  if o < 0xF000000 then getR d pgPcie F.PCIE_BAR2_DRAM * 2 ^ 20 + o
  else 0xFF00000000 + (o - 0xF000000)

/-- BAR2_ACCESS: the host reads `len` bytes, or writes `bytes`, at BAR2 offset `o`, in D0 (R343, R351,
R400, R401). -/
def doBar2 (t o : Nat) (write : Bool) (len : Nat) (bytes : List Nat) (d : Dev) : Dev :=
  let d := advance d t
  let n := if write then bytes.length else len
  let a := bar2Addr d o
  if flagR d pgPcie F.PCIE_D3HOT then d
  else if hostReach d a && hostReach d (a + n - 1) then
    let dram := decide (a < 0xFF00000000)
    let d := onlyIf dram (fun d => srExit d (chanOf a) write) d
    if write then (if dram then dramWrite d a bytes else store d a bytes)
    else
      let bad := dram && poisoned d a n
      let d := onlyIf dram (fun d => poisonHit d a n) d
      let d := onlyIf bad (fun d =>
        raise (bump (bump d pgPcie F.PCIE_POISONED_CPL) pgPcie F.PCIE_AER_UNCORR) pgPcie 11) d
      emit d (.readBytes (load d a n) bad)
  else
    let d := badAccess d
    if write then d else emit d (.readBytes (List.replicate n 0xFF) false)

def execBar2Access (t off : Nat) (write : Bool) (len : Nat) (bytes : List Nat) (s : State) :
    Host.Outcome State Fault Refusal :=
  act (decide (off < 2 ^ 28)) s (doBar2 t off write len bytes)

end Sys2Proof.Machine
end

