-- ==== Sys2Proof/Machine/Melain.lean ====
section
/-! DEFINITION. The Melain engines' host jobs and the check units (R392–R398). -/

namespace Sys2Proof.Machine

open Sys2Proof

/-! ## Host jobs (R393) -/

/-- Every byte of a range lies where the host reaches (R343). -/
def reachAll (d : Dev) (a len : Nat) : Bool :=
  if 0xFF00000000 ≤ a then
    (List.range ((a % 0x10000 + len + 0xFFFF) / 0x10000)).all (fun i => hostReach d (a + i * 0x10000)) &&
      hostReach d (a + (len - 1))
  else hostReach d a && hostReach d (a + (len - 1))

/-- The page's engine is reserved for host jobs. -/
def melHost (d : Dev) (e : Nat) : Bool := flagR d (pgMel e) F.MEL_HOST_EN

/-- The job registers of engine `e` (R394).
(Log: 184 DEDUCED.) -/
def melJob (d : Dev) (e : Nat) : MelJob :=
  let p := pgMel e
  { op := getR d p F.MEL_OP, level := min 9 (getR d p F.MEL_LEVEL), delta := flagR d p F.MEL_DELTA,
    stream := getR d p F.MEL_STREAM, src := getR d p F.MEL_SRC, srcLen := getR d p F.MEL_SRC_LEN,
    dst := getR d p F.MEL_DST, dstLen := getR d p F.MEL_DST_LEN, first := getR d p F.MEL_FIRST_FRAME }

/-- The job is refused (R393).
(Log: 184 DEDUCED.) -/
def melRefuse (d : Dev) (e : Nat) (j : MelJob) : Bool :=
  !melHost d e || getR d (pgMel e) cSTATE != 0 || !reachAll d j.src j.srcLen || !reachAll d j.dst j.dstLen ||
    j.srcLen == 0 ||
    (if j.op = 0 then decide (1048576 < j.srcLen) || decide (j.dstLen < j.srcLen + 40)
     else decide (j.dstLen < leAt (load d j.src 32) 8 4))

/-- MEL_GO: CTRL.GO starts a host job, or it is refused (R393).
(Log: 184 DEDUCED.) -/
def doMelGo (t e : Nat) (d : Dev) : Dev :=
  onPage (pgMel e) (fun d =>
    let p := pgMel e
    let j := melJob d e
    if melRefuse d e j then raise (bump (setR d p F.MEL_JOB_REFUSED 1) p F.MEL_REFUSED) p 10
    else
      let d := setR (setR (setR d p F.MEL_JOB_REFUSED 0) p cSTATE 2) p cBUSY 1
      { d with mels := Store.insert (Store.erase d.mels e) e j }) (advance d t)

def execMelGo (t eng : Nat) (s : State) : Host.Outcome State Fault Refusal :=
  act (decide (eng < 4)) s (doMelGo t eng)

/-- Counters of an engine after a block (R394). -/
def melCount (d : Dev) (e inN outN : Nat) (op : Nat) (raw : Bool) (verdict : Nat) : Dev :=
  let p := pgMel e
  let d := addC (addC d p F.MEL_IN_BYTES inN) p F.MEL_OUT_BYTES outN
  if op = 0 then onlyIf raw (fun d => bump d p F.MEL_RAW_BLOCKS) (bump d p F.MEL_ENCODED)
  else
    let d := bump d p F.MEL_DECODED
    if verdict = 1 then bump d p F.MEL_MISMATCHES else if verdict = 2 then bump d p F.MEL_UNVERIFIED
    else if verdict = 3 then bump d p F.MEL_MALFORMED else d

/-- Items and first time of host data, by the walk (R393). -/
def hostHead (j : MelJob) (b : List Nat) : BlockHead :=
  let n := (walkAll b).1.length
  ⟨j.stream, n % 65536, j.first, if n = 0 then 0 else leAt b 16 4⟩

/-- A HOST_EN that waits for the end of the present job or block takes effect (R392). -/
def melHostShow (d : Dev) (e : Nat) : Dev :=
  match Store.find d.melHostNext e with
  | some v => { setR d (pgMel e) F.MEL_HOST_EN v with melHostNext := Store.erase d.melHostNext e }
  | none => d

/-- MEL_JOB_DONE: the host job of engine `e` completes (R393).
(Log: 184 DEDUCED.) -/
def doMelDone (t e : Nat) (d : Dev) : Dev :=
  let d := advance d t
  let p := pgMel e
  match Store.find d.mels e with
  | none => d
  | some j =>
    let d := setR (setR { d with mels := Store.erase d.mels e } p cSTATE 0) p cBUSY 0
    let fin (d : Dev) (len v : Nat) : Dev :=
      let d := raise (setR (setR d p F.MEL_OUT_LEN len) p F.MEL_VERDICT v) p 8
      melHostShow (onlyIf (v != 0) (fun d => raise d p 9) d) e
    if poisoned d j.src j.srcLen then fin (poisonHit d j.src j.srcLen) 0 7
    else
      let b := load d j.src j.srcLen
      if j.op = 0 then
        let (out, raw) := encodeBlock (hostHead j b) j.level j.delta b
        fin (melCount (dramWrite d j.dst out) e j.srcLen out.length 0 raw 0) out.length 0
      else
        let (v, out) := decodeBlock b
        fin (melCount (dramWrite d j.dst out) e j.srcLen out.length 1 false v) out.length v

def execMelJobDone (t eng : Nat) (s : State) : Host.Outcome State Fault Refusal :=
  act (decide (eng < 4)) s (doMelDone t eng)

/-- HOST_EN is written: it is ignored where it would reserve the last engine, and waits for the end of a job or
block (R392). -/
def melHostWrite (d : Dev) (e v : Nat) : Dev :=
  let others := (List.range 4).filter (fun i => i != e && !melHost d i)
  if v = 1 ∧ others.isEmpty ∧ !melHost d e then d
  else if getR d (pgMel e) cSTATE = 0 then setR d (pgMel e) F.MEL_HOST_EN v
  else { d with melHostNext := Store.insert (Store.erase d.melHostNext e) e v }

/-! ## Check units (R395–R398) -/

/-- The parameters of unit `u`, and its register over the width in use. -/
def chkParm (d : Dev) (u : Nat) : CrcParm := crcParm (getR d pgChk (F.CHK_POLY u))
def chkState (d : Dev) (u : Nat) : Nat := getR d pgChk (F.CHK_CRC_STATE u) % 2 ^ (chkParm d u).width

/-- The CRC register takes `c`; RESULT follows at every moment (R396). -/
def chkPut (d : Dev) (u c : Nat) : Dev :=
  let q := chkParm d u
  setR (setR d pgChk (F.CHK_CRC_STATE u) (c % 2 ^ q.width)) pgChk (F.CHK_RESULT u) (crcOut q (c % 2 ^ q.width))

/-- Bytes are fed to unit `u`. -/
def chkFeed (d : Dev) (u : Nat) (b : List Nat) : Dev :=
  addC (chkPut d u (crcFeed (chkParm d u) (chkState d u) b)) pgChk (F.CHK_FED u) b.length

/-- A DMA job of the unit runs. -/
def chkBusy (d : Dev) (u : Nat) : Bool := flagR d pgChk (F.CHK_BUSY u)

/-- BUSY of a unit, and STATUS.STATE of the page. -/
def chkSetBusy (d : Dev) (u v : Nat) : Dev :=
  let d := setR d pgChk (F.CHK_BUSY u) v
  setR d pgChk cSTATE (b2n ((List.range 8).any (chkBusy d)))

/-- A write that the unit discards while a DMA job runs, or else `f` (R397). -/
def chkIdle (u : Nat) (f : Dev → Dev) (d : Dev) : Dev :=
  if chkBusy d u then bump d pgChk (F.CHK_REFUSED u) else f d

/-- BYTES in use: values other than 1–4 act as 4 (R398). -/
def chkBytes (d : Dev) (u : Nat) : Nat :=
  let n := getR d pgChk (F.CHK_BYTES u)
  if 1 ≤ n ∧ n ≤ 4 then n else 4

/-- DATA is written (R396). -/
def chkData (d : Dev) (u v : Nat) : Dev := chkIdle u (fun d => chkFeed d u (leBytes (chkBytes d u) v)) d

def execChkDataWrite (t unit v : Nat) (s : State) : Host.Outcome State Fault Refusal :=
  act (decide (unit < 8)) s (fun d => onPage pgChk (fun d => chkData d unit v) (advance d t))

/-- STATE_LO (0) or STATE_HI (1) is written (R396). -/
def chkStateW (d : Dev) (u w v : Nat) : Dev :=
  chkIdle u (fun d => chkPut d u (putBits (getR d pgChk (F.CHK_CRC_STATE u)) (32 * w) 32 v)) d

def execChkStateWrite (t unit w v : Nat) (s : State) : Host.Outcome State Fault Refusal :=
  act (decide (unit < 8) && decide (w < 2)) s (fun d => onPage pgChk (fun d => chkStateW d unit w v) (advance d t))

/-- CFG is written: a change of POLY sets STATE to the new init value (R396). -/
def chkCfg (d : Dev) (u v : Nat) : Dev :=
  chkIdle u (fun d =>
    let was := getR d pgChk (F.CHK_POLY u)
    let d := setR (setR d pgChk (F.CHK_BYTES u) (bits v 8 3)) pgChk (F.CHK_AUTO_CMP u) (bits v 16 1)
    let d := setR d pgChk (F.CHK_POLY u) (bits v 0 2)
    if was = bits v 0 2 then d else chkPut d u (chkParm d u).init) d

def execChkPolyWrite (t unit v : Nat) (s : State) : Host.Outcome State Fault Refusal :=
  act (decide (unit < 8)) s (fun d => onPage pgChk (fun d => chkCfg d unit v) (advance d t))

/-- RESULT is compared with EXPECT over the width in use (R396). -/
def chkCompare (d : Dev) (u : Nat) : Dev :=
  let q := chkParm d u
  if crcOut q (chkState d u) = getR d pgChk (F.CHK_EXPECT u) % 2 ^ q.width then
    bump (setR d pgChk (F.CHK_LAST_MISMATCH u) 0) pgChk (F.CHK_MATCHES u)
  else raise (bump (setR d pgChk (F.CHK_LAST_MISMATCH u) 1) pgChk (F.CHK_MISMATCHES u)) pgChk (8 + u)

def execChkCompare (t unit : Nat) (s : State) : Host.Outcome State Fault Refusal :=
  act (decide (unit < 8)) s (fun d => onPage pgChk (fun d => chkCompare d unit) (advance d t))

/-- INIT resets the CRC register (R396). -/
def chkInit (d : Dev) (u : Nat) : Dev := chkPut d u (chkParm d u).init

def execChkInit (t unit : Nat) (s : State) : Host.Outcome State Fault Refusal :=
  act (decide (unit < 8)) s (fun d => onPage pgChk (fun d => chkInit d unit) (advance d t))

/-- GO starts a DMA job; while one runs it is ignored (R396, R397). -/
def chkGo (d : Dev) (u : Nat) : Dev :=
  if chkBusy d u then d
  else
    let j := (getR d pgChk (F.CHK_SRC u), getR d pgChk (F.CHK_LEN u))
    chkSetBusy (setR { d with chkJobs := Store.insert (Store.erase d.chkJobs u) u j } pgChk (F.CHK_DMA_ERROR u) 0) u 1

def execChkGo (t unit : Nat) (s : State) : Host.Outcome State Fault Refusal :=
  act (decide (unit < 8)) s (fun d => onPage pgChk (fun d => chkGo d unit) (advance d t))

/-- The job of unit `u` ends. -/
def chkEnd (d : Dev) (u : Nat) : Dev := chkSetBusy { d with chkJobs := Store.erase d.chkJobs u } u 0

/-- ABORT ends the job once `fed` bytes have gone through (R397).
(Log: 186 DEDUCED.) -/
def chkAbort (d : Dev) (u fed : Nat) : Dev :=
  match Store.find d.chkJobs u with
  | some (a, len) => chkEnd (chkFeed d u (load d a (min fed len))) u
  | none => d

def execChkAbort (t unit fed : Nat) (s : State) : Host.Outcome State Fault Refusal :=
  act (decide (unit < 8)) s (fun d => onPage pgChk (fun d => chkAbort d unit fed) (advance d t))

/-- The bytes before the first poisoned line of a range.
(Log: 186 DEDUCED.) -/
def beforePoison (d : Dev) (a len : Nat) : Nat :=
  match (linesOf a len).find? (fun l => (dmc d (chanOf (64 * l))).poison.contains l) with
  | some l => 64 * l - a
  | none => len

/-- CHK_DMA_DONE: the DMA job of unit `u` ends: complete, with DONE and where AUTO_CMP a COMPARE, or at a poisoned
read (R396, R397).
(Log: 186 DEDUCED.) -/
def doChkDone (t u : Nat) (d : Dev) : Dev :=
  let d := advance d t
  match Store.find d.chkJobs u with
  | none => d
  | some (a, len) =>
    let n := beforePoison d a len
    let d := chkEnd (chkFeed d u (load d a n)) u
    if n < len then poisonHit (setR d pgChk (F.CHK_DMA_ERROR u) 1) a len
    else
      let d := onlyIf (flagR d pgChk (F.CHK_AUTO_CMP u)) (fun d => chkCompare d u) d
      raise d pgChk (16 + u)

def execChkDmaDone (t unit : Nat) (s : State) : Host.Outcome State Fault Refusal :=
  act (decide (unit < 8)) s (doChkDone t unit)

end Sys2Proof.Machine
end

