-- ==== Sys2Proof/WellFormed.lean ====
section
/-! DEFINITION. Which commands are well-formed: every operand that names a unit of the part names one
that the part has. -/

namespace Sys2Proof

/-- A word has 32 codes of 14 bits, and starts at a sample number that is a multiple of 8 (R111, R115). -/
def rawFits (num : Nat) (raw : List Int) : Bool :=
  num % 8 == 0 && raw.length == 32 && raw.all (fun v => decide (-8192 ≤ v) && decide (v ≤ 8191))

/-- The values that a window of 14-bit codes can have. -/
def statFits (mean lo hi : Int) : Bool :=
  decide (-8192 ≤ lo) && decide (lo ≤ hi) && decide (hi ≤ 8191) && decide (256 * lo ≤ mean) && decide (mean ≤ 256 * hi)

/-- The operands name units that the part has.
(Log: 5 DESIGN CHOICE.) -/
def Instr.wf : Instr → Bool
  | .registerWrite _ _ size _ => decide (size < 5)
  | .stagedWrite _ _ _ _ => true
  | .planCheckEval _ ln => decide (ln < 12)
  | .clrCounters _ _ => true
  | .evtClr _ _ _ _ => true
  | .evtSet _ _ _ => true
  | .vecRearm _ half _ => decide (half < 2)
  | .msixUnmask _ vec _ _ => decide (vec < 64)
  | .catEntryHiRead _ => true
  | .nowRead _ => true
  | .stocktakeReq _ _ => true
  | .stocktakeForward _ => true
  | .stocktakeInstant _ => true
  | .stocktakeTWord _ _ epoch => decide (epoch < 65536)
  | .stocktakeConfirm _ idx => decide (idx < 8)
  | .stocktakeMasterClose _ => true
  | .stocktakeSysTimeout _ => true
  | .commit _ _ => true
  | .commitShot _ ln => decide (ln < 12)
  | .cancel _ ln => decide (ln < 12)
  | .commitCapture _ ln => decide (ln < 12)
  | .immediateCommitApply _ region => decide (region < 17)
  | .slot0Instant _ ln => decide (ln < 12)
  | .slotLaunch _ ln slot => decide (ln < 12) && decide (slot < 8)
  | .lineStart _ ln => decide (ln < 12)
  | .gapEnd _ ln => decide (ln < 12)
  | .catchUp _ region => decide (region < 17)
  | .clusterReady _ ln clus => decide (ln < 12) && decide (clus < 11)
  | .dvfsDone _ ln c => decide (ln < 12) && decide (c < 4)
  | .thermalSensorUpdate _ _ => true
  | .bridgeFlit _ ldie _ flit _ => decide (1 ≤ ldie) && decide (ldie < 3) && decide (flit.vc < 4)
  | .bridgeRetrain _ ldie => decide (1 ≤ ldie) && decide (ldie < 3)
  | .bridgeRetrainDone _ ldie => decide (1 ≤ ldie) && decide (ldie < 3)
  | .bridgeReadTimeout _ ldie => decide (1 ≤ ldie) && decide (ldie < 3)
  | .bridgeFrameArrive _ ln => decide (ln < 12)
  | .converterWord _ ln num phase halt raw =>
    decide (ln < 12) && decide (phase < 3) && decide (halt < 16) && rawFits num raw
  | .autorangeHoldExpiry _ ln => decide (ln < 12)
  | .gainScheduleEntry _ ln k => decide (ln < 12) && decide (k < 16)
  | .statWindowEnd _ ln conv mean lo hi _ =>
    decide (ln < 12) && decide (conv < 7) && (decide (5 ≤ conv) || statFits mean lo hi)
  | .failCore _ ln _ => decide (ln < 12)
  | .spareSubstitution _ ln => decide (ln < 12)
  | .requal _ ln => decide (ln < 12)
  | .requalDone _ ln _ => decide (ln < 12)
  | .psenseWindowEnd _ ln _ => decide (ln < 12)
  | .returnPowerWindow _ ln => decide (ln < 12)
  | .listenWindowClose _ ln slot => decide (ln < 12) && decide (slot < 8)
  | .coefWrite _ ln slot w _ => decide (ln < 12) && decide (slot < 8) && decide (w < 2048)
  | .coefSeal _ ln slot _ => decide (ln < 12) && decide (slot < 8)
  | .pipeWord _ chan => decide (chan.ln < 12) && decide (chan.clus < 4)
  | .pipeSettled _ ln slot => decide (ln < 12) && decide (slot < 8)
  | .mergedSample _ ln => decide (ln < 12)
  | .gaugeSettled _ ln => decide (ln < 12)
  | .frameInstant _ ln => decide (ln < 12)
  | .frameBuilt _ ln => decide (ln < 12)
  | .ramanShotAccumulate _ ln _ _ => decide (ln < 12)
  | .stackFlip _ ln => decide (ln < 12)
  | .thermalFrameBuilt _ ln => decide (ln < 12)
  | .stackSeed _ ln _ => decide (ln < 12)
  | .strideNop _ ln k => decide (ln < 12) && decide (k < 16)
  | .strideAdd _ ln k => decide (ln < 12) && decide (k < 16)
  | .strideSub _ ln k => decide (ln < 12) && decide (k < 16)
  | .strideAnd _ ln k => decide (ln < 12) && decide (k < 16)
  | .strideOr _ ln k => decide (ln < 12) && decide (k < 16)
  | .strideXor _ ln k => decide (ln < 12) && decide (k < 16)
  | .strideMin _ ln k => decide (ln < 12) && decide (k < 16)
  | .strideMax _ ln k => decide (ln < 12) && decide (k < 16)
  | .strideAbs _ ln k => decide (ln < 12) && decide (k < 16)
  | .strideSlt _ ln k => decide (ln < 12) && decide (k < 16)
  | .strideShl _ ln k => decide (ln < 12) && decide (k < 16)
  | .strideShr _ ln k => decide (ln < 12) && decide (k < 16)
  | .strideSra _ ln k => decide (ln < 12) && decide (k < 16)
  | .strideNorm _ ln k => decide (ln < 12) && decide (k < 16)
  | .strideAddi _ ln k => decide (ln < 12) && decide (k < 16)
  | .strideShli _ ln k => decide (ln < 12) && decide (k < 16)
  | .strideShri _ ln k => decide (ln < 12) && decide (k < 16)
  | .strideSrai _ ln k => decide (ln < 12) && decide (k < 16)
  | .strideMovi _ ln k => decide (ln < 12) && decide (k < 16)
  | .strideMovih _ ln k => decide (ln < 12) && decide (k < 16)
  | .strideMovtx _ ln k => decide (ln < 12) && decide (k < 16)
  | .strideMovfx _ ln k => decide (ln < 12) && decide (k < 16)
  | .strideLd _ ln k => decide (ln < 12) && decide (k < 16)
  | .strideLdh _ ln k => decide (ln < 12) && decide (k < 16)
  | .strideSt _ ln k => decide (ln < 12) && decide (k < 16)
  | .strideSth _ ln k => decide (ln < 12) && decide (k < 16)
  | .strideBeq _ ln k => decide (ln < 12) && decide (k < 16)
  | .strideBne _ ln k => decide (ln < 12) && decide (k < 16)
  | .strideBlt _ ln k => decide (ln < 12) && decide (k < 16)
  | .strideBge _ ln k => decide (ln < 12) && decide (k < 16)
  | .strideBdec _ ln k => decide (ln < 12) && decide (k < 16)
  | .strideJ _ ln k => decide (ln < 12) && decide (k < 16)
  | .strideJal _ ln k => decide (ln < 12) && decide (k < 16)
  | .strideJr _ ln k => decide (ln < 12) && decide (k < 16)
  | .strideRti _ ln k => decide (ln < 12) && decide (k < 16)
  | .strideWait _ ln k => decide (ln < 12) && decide (k < 16)
  | .strideHalt _ ln k => decide (ln < 12) && decide (k < 16)
  | .strideMac _ ln k _ => decide (ln < 12) && decide (k < 16)
  | .strideMac2 _ ln k _ => decide (ln < 12) && decide (k < 16)
  | .strideCmac _ ln k _ => decide (ln < 12) && decide (k < 16)
  | .strideExt _ ln k => decide (ln < 12) && decide (k < 16)
  | .strideExtr _ ln k => decide (ln < 12) && decide (k < 16)
  | .strideMova _ ln k => decide (ln < 12) && decide (k < 16)
  | .strideAshr _ ln k => decide (ln < 12) && decide (k < 16)
  | .strideAdda _ ln k => decide (ln < 12) && decide (k < 16)
  | .strideExp _ ln k => decide (ln < 12) && decide (k < 16)
  | .strideAclr _ ln k => decide (ln < 12) && decide (k < 16)
  | .strideIn _ ln k => decide (ln < 12) && decide (k < 16)
  | .strideOut _ ln k => decide (ln < 12) && decide (k < 16)
  | .strideMark _ ln k => decide (ln < 12) && decide (k < 16)
  | .strideSig _ ln k => decide (ln < 12) && decide (k < 16)
  | .interruptTaken _ ln k => decide (ln < 12) && decide (k < 16)
  | .strideTimerExpiry _ ln k => decide (ln < 12) && decide (k < 16)
  | .doorbell _ ln k => decide (ln < 12) && decide (k < 16)
  | .coreStart _ ln k => decide (ln < 12) && decide (k < 16)
  | .coreStop _ ln k => decide (ln < 12) && decide (k < 16)
  | .kernelLoadEnd _ ln k => decide (ln < 12) && decide (k < 16)
  | .featureWord _ ln => decide (ln < 12)
  | .featureFrameClose _ ln => decide (ln < 12)
  | .sequencerStep _ ln => decide (ln < 12)
  | .gpioEdge _ gpio half => decide (gpio < 16) && decide (half < 5)
  | .triggerWord _ port pkg ln h _ => decide (port < 2) && decide (pkg < 8) && decide (ln < 12) && decide (h < 2)
  | .todInstant _ ln => decide (ln < 12)
  | .recordEmit _ ln h => decide (ln < 12) && decide (h < 2)
  | .arcTableWrite _ ln w _ => decide (ln < 12) && decide (w < 256)
  | .sequencerEnable _ ln h _ => decide (ln < 12) && decide (h < 2)
  | .userGo _ _ => true
  | .ledgerEntry _ => true
  | .ledgerReserve _ _ => true
  | .ledgerReserveRetry _ _ => true
  | .ledgerArchiveWrite _ => true
  | .calEvalTick _ unit13 => decide (unit13 < 13)
  | .calReq _ ln => decide (ln < 12)
  | .calForce _ ln => decide (ln < 12)
  | .calPassStart _ ln => decide (ln < 12)
  | .calPhaseEnd _ ln _ => decide (ln < 12)
  | .calExit _ ln _ => decide (ln < 12)
  | .calHandover _ ln => decide (ln < 12)
  | .calReturn _ ln _ => decide (ln < 12)
  | .svcConversion _ svc _ => decide (svc < 2)
  | .scanStart _ svc => decide (svc < 2)
  | .injGo _ _ => true
  | .shotTrigger _ inj => decide (inj < 8)
  | .svcCalReq _ => true
  | .svcCalForce _ => true
  | .svcCalStart _ svc => decide (svc < 2)
  | .svcCalDone _ svc _ _ => decide (svc < 2)
  | .sfeMeasurement _ svc _ => decide (svc < 2)
  | .sfeCheck _ sfe => decide (sfe < 8)
  | .sfeCheckDone _ sfe _ _ => decide (sfe < 8)
  | .sfeClamp _ sfe => decide (sfe < 8)
  | .wireBreak _ sfe => decide (sfe < 8)
  | .loopTick _ lp => decide (lp < 8)
  | .pwmPeriod _ lp => decide (lp < 8)
  | .ppsEdge _ ps => decide (ps < 10000)
  | .setArm _ => true
  | .todSentence _ _ _ => true
  | .freqWindowEnd _ _ => true
  | .ocxoRdyChange _ _ => true
  | .warmMinExpiry _ => true
  | .ppsMissingTimeout _ => true
  | .holdLimitExpiry _ => true
  | .secondBoundary _ => true
  | .todOutStart _ => true
  | .leapSecond _ => true
  | .syncTx _ port => decide (port < 2)
  | .announceTx _ port => decide (port < 2)
  | .delayReq _ port _ => decide (port < 2)
  | .foreignAnnounce _ port => decide (port < 2)
  | .ptpUnsupported _ port => decide (port < 2)
  | .esmcTx _ port => decide (port < 2)
  | .pfArm _ pf => decide (pf < 8)
  | .pfDisarm _ pf => decide (pf < 8)
  | .pfEdge _ pf src _ _ v0 v1 => decide (pf < 8) && decide (src < 64) && decide (v0 < 4096) && decide (v1 < 4096)
  | .pfWindowClose _ pf => decide (pf < 8)
  | .pfCalReq _ pf => decide (pf < 8)
  | .pfCalPass _ pf => decide (pf < 8)
  | .pfCalDone _ pf a0 b0 a1 b1 => decide (pf < 8) && decide (a0 < 65536) && decide (b0 < 65536) && decide (a1 < 65536) && decide (b1 < 65536)
  | .batonLinkChange _ port v => decide (port < 2) && decide (v < 3)
  | .batonFrame _ port _ _ _ => decide (port < 2)
  | .batonAnnounce _ port _ idx hops _ => decide (port < 2) && decide (idx < 8) && decide (hops < 8)
  | .batonTimingWord _ port _ _ _ _ _ _ _ => decide (port < 2)
  | .hopCalibrated _ port => decide (port < 2)
  | .proxyAccess _ off _ size _ => decide (off < 4194304) && decide (size < 5)
  | .proxyCompletion _ _ => true
  | .proxyTimeout _ => true
  | .shelfRequest _ pool q _ _ => decide (pool < 3) && decide (q < if pool = 0 then 11 else 19)
  | .shelfRelease _ pool q _ => decide (pool < 3) && decide (q < if pool = 0 then 11 else 19)
  | .shelfLimitWrite _ pool q _ => decide (pool < 3) && decide (q < if pool = 0 then 11 else 19)
  | .shelfReserveWrite _ pool q _ => decide (pool < 3) && decide (q < if pool = 0 then 11 else 19)
  | .rollConfigWrite _ ln w _ => decide (ln < 12) && decide (w < 4)
  | .dramAccess _ _ rank _ _ _ _ _ => decide (rank < 4)
  | .rhWindow _ dmc => decide (dmc < 2)
  | .patrolScrub _ dmc _ _ rank _ => decide (dmc < 2) && decide (rank < 4)
  | .dramCeHour _ dmc => decide (dmc < 2)
  | .caParityAlert _ dmc rank => decide (dmc < 2) && decide (rank < 4)
  | .migrationDone _ dmc _ => decide (dmc < 2)
  | .requalGo _ dmc _ => decide (dmc < 2)
  | .rankRequalDone _ dmc _ => decide (dmc < 2)
  | .delayWrite _ dmc rank lane w _ => decide (dmc < 2) && decide (rank < 4) && decide (lane < 9) && decide (w < 6)
  | .sweepGo _ dmc _ => decide (dmc < 2)
  | .sweepDone _ dmc _ _ => decide (dmc < 2)
  | .marginSweep _ dmc _ => decide (dmc < 2)
  | .srEntry _ dmc _ => decide (dmc < 2)
  | .archiveFrame _ => true
  | .blockCloseTimer _ stream => decide (stream < 64)
  | .blockDurable _ => true
  | .journalWrite _ => true
  | .checkpoint _ => true
  | .nandRead _ ch target _ _ _ _ => decide (ch < 8) && decide (target < 4)
  | .nandProgramDone _ ch target lun _ _ _ => decide (ch < 8) && decide (target < 4) && decide (lun < 4)
  | .nandEraseDone _ ch target lun _ _ => decide (ch < 8) && decide (target < 4) && decide (lun < 4)
  | .pinRequest _ => true
  | .pinClose _ => true
  | .pinCopyDone _ => true
  | .unpin _ _ => true
  | .wearMoveDone _ => true
  | .ageUpdate _ => true
  | .refreshDone _ => true
  | .wearBudget _ => true
  | .mount _ => true
  | .mountDone _ _ _ _ _ => true
  | .format _ => true
  | .formatDone _ _ _ _ => true
  | .unmount _ => true
  | .snapGo _ => true
  | .retGo _ => true
  | .retCancel _ => true
  | .retDone _ => true
  | .melArchiveBlock _ eng _ _ => decide (eng < 4)
  | .melGo _ eng => decide (eng < 4)
  | .melJobDone _ eng => decide (eng < 4)
  | .chkDataWrite _ unit _ => decide (unit < 8)
  | .chkStateWrite _ unit w _ => decide (unit < 8) && decide (w < 2)
  | .chkPolyWrite _ unit _ => decide (unit < 8)
  | .chkCompare _ unit => decide (unit < 8)
  | .chkInit _ unit => decide (unit < 8)
  | .chkGo _ unit => decide (unit < 8)
  | .chkAbort _ unit _ => decide (unit < 8)
  | .chkDmaDone _ unit => decide (unit < 8)
  | .pcieReset _ kind => decide (kind < 3)
  | .busMasterChange _ _ _ => true
  | .bar2Access _ off _ _ _ => decide (off < 268435456)
  | .ethModeWrite _ port _ _ => decide (port < 2)
  | .ethLinkChange _ port sub v => decide (port < 2) && decide (sub < 4) && decide (v < 3)
  | .arpRequest _ port sub _ _ => decide (port < 2) && decide (sub < 4)
  | .neighbourSolicitation _ port sub _ => decide (port < 2) && decide (sub < 4)
  | .echoRequest _ port sub _ _ _ => decide (port < 2) && decide (sub < 4)
  | .pauseFrame _ port _ => decide (port < 2)
  | .rxIgnored _ port _ => decide (port < 2)
  | .ringItemDeliver _ ring => decide (ring < 32)
  | .ringHoldExpiry _ ring => decide (ring < 32)
  | .ringRdWrite _ ring _ => decide (ring < 32)
  | .ringBindWrite _ ring w _ => decide (ring < 32) && decide (w < 4)
  | .lossReport _ => true
  | .notifyTimeout _ ring => decide (ring < 32)
  | .cmdDatagram _ port sub _ _ sport dport _ => decide (port < 2) && decide (sub < 4) && decide (sport < 65536) && decide (dport < 65536)
  | .cmdEntryFetch _ _ => true
  | .cmdRead _ => true
  | .cmdWrite _ => true
  | .cmdModify _ => true
  | .cmdWait _ => true
  | .cmdWaitPoll _ => true
  | .flowWrite _ flow w _ => decide (flow < 32) && decide (w < 8)
  | .pacerTick _ _ => true
  | .pmbusTelemetry _ _ => true
  | .jobPost _ => true
  | .jobDone _ entry => decide (entry < 64)
  | .pstate _ v => decide (v < 4)
  | .sleepEntered _ => true
  | .runRestored _ => true
  | .wakeAlarm _ => true
  | .wakePin _ gpio => decide (gpio < 16)
  | .pacerReport _ => true
  | .vbatLow _ _ => true
  | .oscFail _ _ _ => true
  | .powerOnReset _ idx => decide (idx < 8)
  | .pinReset _ => true
  | .warmReset _ _ => true
  | .bootStageEnd _ _ _ => true
  | .wakeNFall _ => true
  | .offAlarm _ => true
  | .lcAdvance _ _ _ _ => true
  | .wdogKick _ _ => true
  | .watchdogExpiry _ => true
  | .lineReset _ _ _ => true
  | .lineResetRelease _ ln => decide (ln < 12)
  | .lineAutoReset _ ln => decide (ln < 12)
  | .shutdown _ _ => true
  | .shutdownStepEnd _ => true
  | .smbusStatus _ addr _ => decide (addr < 128)
  | .smbusWake _ addr _ => decide (addr < 128)
  | .smbusShutdown _ addr _ _ => decide (addr < 128)
  | .smbusReset _ addr _ _ => decide (addr < 128)
  | .smbusTemp _ addr _ => decide (addr < 128)
  | .powerFail _ => true
  | .laneStart _ lpu unit => decide (lpu < 3) && decide (unit < 8)
  | .laneStop _ lpu unit _ _ => decide (lpu < 3) && decide (unit < 8)
  | .inject _ lpu unit => decide (lpu < 3) && decide (unit < 8)
  | .laneDurationEnd _ lpu unit _ _ => decide (lpu < 3) && decide (unit < 8)
  | .busUnitStart _ lpu unit => decide (3 ≤ lpu) && decide (lpu < 5) && decide (unit < 8)
  | .busUnitStop _ lpu unit _ _ _ _ => decide (3 ≤ lpu) && decide (lpu < 5) && decide (unit < 8)
  | .busUnitDone _ lpu unit _ _ _ _ => decide (3 ≤ lpu) && decide (lpu < 5) && decide (unit < 8)
  | .sliceStart _ => true
  | .sliceEnd _ _ _ _ _ _ _ => true
  | .sliceTimeout _ _ _ => true
  | .budgetTimeout _ _ _ => true
  | .runNow _ => true
  | .powerOnResetHold _ => true
  | .vbatApplied _ => true
  | .backupValidLost _ => true
  | .pcieLinkUp _ _ _ _ _ => true
  | .checkerLocked _ lpu unit => decide (lpu < 3) && decide (unit < 8)
  | .lostLock _ lpu unit _ _ => decide (lpu < 3) && decide (unit < 8)
  | .nandTimeout _ ch _ => decide (ch < 8)
  | .sfeClampRelease _ sfe => decide (sfe < 8)

end Sys2Proof
end

