-- ==== Sys2Proof/Machine/Converter.lean ====
section
/-! DEFINITION. The receiver converters: gain steps, auto-ranging, failure and substitution, statistics, the words they form and
the conditioning of their samples (R111–R131). -/

namespace Sys2Proof.Machine

open Sys2Proof

/-! ## Gain (R117–R122) -/

/-- The cause counters of a step: 0 schedule or GAIN, 1 auto-ranging down, 2 auto-ranging up. -/
def stepCounter (c : Nat) : Fld :=
  if c = 0 then F.RX_STEPS_SCHED else if c = 1 then F.RX_STEPS_AR_DOWN else F.RX_STEPS_AR_UP

/-- Causes `cs` ask for a change of gain at sample `s`; where the code changes, the step counts under each (R118–R122).
(Log: 70 DEDUCED.) -/
def gainSet (d : Dev) (n s : Nat) (gnom : Option Nat) (dep : Int) (cs : List Nat) : Dev :=
  if cs.isEmpty then d
  else
    let o := gainAsk d n s gnom dep
    if o.2 then cs.foldl (fun d c => bump d (pgRx n) (stepCounter c)) o.1 else o.1

/-- Schedule entries in use (R119). -/
def schedOn (d : Dev) (n k : Nat) : Bool :=
  flagL d (pgRx n) F.RX_SCHED_EN && decide (k < min 16 (getL d (pgRx n) F.RX_SCHED_COUNT))

/-- At a slot-0 launch instant the nominal code returns to GAIN, or takes the entry with OFFSET 0; with AR_EN
at 0, or where `reset` says so, the depth returns to 0: one change together (R118–R120, R122). Changes older than a
period are no longer needed one by one. -/
def gainAtLaunch (d : Dev) (n t : Nat) (reset : Bool) : Dev :=
  let p := pgRx n
  let zero := (List.range 16).filter (fun k => schedOn d n k && getL d p (F.RX_OFFSET k) == 0)
  let g := match zero.getLast? with
    | some k => getL d p (F.RX_CODE k)
    | none => getL d p F.RX_GAIN
  let g := min 60 g
  let d := setRx d n { gainTrim (rx d n) (sampleOf (t - (line d n).period)) with schedDone := zero }
  let v := gainEnd (rx d n)
  let back := (reset || !flagL d p F.RX_AR_EN) && v.2 != 0
  gainSet d n (sampleOf t) (some g) (if back then -(v.2 : Int) else 0)
    ((if g = v.1 then [] else [0]) ++ if back then [2] else [])

/-- GAIN_SCHEDULE_ENTRY: entry `k` reaches its OFFSET after the latest slot-0 launch instant; one that lies at the next slot-0
instant or beyond never applies (R119). -/
def doSchedule (t n k : Nat) (d : Dev) : Dev :=
  let p := pgRx n
  let s := sampleOf (line d n).l0 + getL d p (F.RX_OFFSET k)
  let soon := (line d n).next.any (fun e => decide (s < sampleOf e))
  if schedOn d n k && soon && !(rx d n).schedDone.contains k then
    let d := advance d (max t (s / 5))
    let d := setRx d n { rx d n with schedDone := (rx d n).schedDone ++ [k] }
    gainSet d n s (some (min 60 (getL d p (F.RX_CODE k)))) 0 [0]
  else advance d t

def execGainScheduleEntry (t ln k : Nat) (s : State) : Host.Outcome State Fault Refusal :=
  act (decide (ln < 12) && decide (k < 16)) s (doSchedule t ln k)

/-- AUTORANGE_HOLD_EXPIRY: AR_HOLD × 64 sample ticks after the latest trigger or reduction, the depth falls
by 1 (R122).
(Log: 238 DESIGN CHOICE.) -/
def doHoldEnd (t n : Nat) (d : Dev) : Dev :=
  let x := rx d n
  if (gainEnd x).2 = 0 then advance d t
  else
    let s := x.holdFrom + 64 * max 1 (getL d (pgRx n) F.RX_AR_HOLD)
    let d := gainSet (advance d (max t (s / 5))) n s none (-1) [2]
    setRx d n { rx d n with holdFrom := s }

def execAutorangeHoldExpiry (t ln : Nat) (s : State) : Host.Outcome State Fault Refusal :=
  act (decide (ln < 12)) s (doHoldEnd t ln)

/-- A trigger at sample `s` (R121). A depth already above AR_MAXDEPTH, which a commit has lowered, stays; the trigger makes no
step.
(Log: 238 DESIGN CHOICE.) -/
def arTrigger (d : Dev) (n s : Nat) : Dev :=
  let x := rx d n
  let p := pgRx n
  let v := gainEnd x
  let empty : List (List Nat) := [[], [], [], []]
  if min 5 (getL d p F.RX_AR_MAXDEPTH) ≤ v.2 ∨ gainOf v = 0 then
    let d := setRx d n { x with win := empty, winFrom := s + 1, holdFrom := s }
    raise (bump d p F.RX_FLOOR_HITS) p 13
  else
    let f := s + 1 + getR d p F.RX_GAIN_DLY
    let d := gainSet d n f none 1 [1]
    setRx d n { rx d n with win := empty, winFrom := f, holdFrom := s }

/-- Sample `s` of input `i` enters the detection window (R121). -/
def arSample (d : Dev) (n s i : Nat) (raw : Int) : Dev :=
  let x := rx d n
  if raw.natAbs < 7782 ∨ s < x.winFrom then d
  else
    let l := ((x.win.getD i []).filter (fun k => decide (s < k + 64))) ++ [s]
    let d := setRx d n { x with win := x.win.set i l }
    if 4 ≤ l.length then arTrigger d n s else d

/-! ## Failure, substitution and return (R124–R127) -/

/-- Core `c` has left FAILED in a re-test and still stands in MAP: it serves no input (R127). -/
def isAway (d : Dev) (n c : Nat) : Bool := (rx d n).away.contains c

/-- Input (1–4) that core `c` serves, 0 for none. -/
def inputOf (d : Dev) (n c : Nat) : Nat :=
  match (List.range 4).find? (fun i => coreAt d (pgRx n) i == c) with
  | some i => if isAway d n c then 0 else i + 1
  | none => 0

/-- Core `c` is FAILED. -/
def isFailed (d : Dev) (n c : Nat) : Bool := bit (getR d (pgRx n) F.RX_FAILED) c

/-- The cores in the spare role (R113), and the ready ones (R125).
(Log: 118 DEDUCED.) -/
def spareRole (d : Dev) (n : Nat) : List Nat :=
  (List.range 5).filter (fun c => inputOf d n c == 0 && !isFailed d n c)
def readyCores (d : Dev) (n : Nat) : List Nat :=
  (spareRole d n).filter (fun c => !isCal d (pgRx n) c)

/-- Input `i` has no core: the one in MAP is FAILED, or has passed a re-test and awaits a substitution (R124, R127). -/
def deadInput (d : Dev) (m i : Nat) : Bool :=
  isFailed d m (coreAt d (pgRx m) i) || isAway d m (coreAt d (pgRx m) i)

/-- The polarisation of input `i` is dropped (R126). -/
def polLost (d : Dev) (m i : Nat) : Bool :=
  flagR d (pgRx m) (if i < 2 then F.RX_POL_X_LOST else F.RX_POL_Y_LOST)

/-- CORE_SPARE, SPARE_READY and SPARE_IN_USE follow the map (R129). -/
def rxShow (d : Dev) (n : Nat) : Dev :=
  let p := pgRx n
  let d := setR d p F.RX_CORE_SPARE ((spareRole d n).headD 7)
  let d := setR d p F.RX_SPARE_READY (b2n (!(readyCores d n).isEmpty))
  setR d p F.RX_SPARE_IN_USE (b2n (inputOf d n 4 != 0))

/-- The field of CORE_XI … CORE_YQ. -/
def coreFld (i : Nat) : Fld :=
  if i = 0 then F.RX_CORE_XI else if i = 1 then F.RX_CORE_XQ else if i = 2 then F.RX_CORE_YI else F.RX_CORE_YQ

/-- Conditioning takes input `i` from core `c` at tick `t`; the sample tick there and the 7 after carry UNSETTLED
(R268).
(Log: 118 DEDUCED.) -/
def handOver (d : Dev) (n i c t : Nat) : Dev :=
  let x := rx d n
  rxShow (setRx (setR d (pgRx n) (coreFld i) c) n
    { x with handAt := sampleOf t + 1, serveFrom := Store.set x.serveFrom 0 c t }) n

/-- The calibration pass of line `n` is abandoned for cause `c`: 0 fence or gating, 1 fine mode, 2 substitution,
3 PAUSED or OFF; the relieved core returns, the request stays pending (R261, R269, R271).
(Log: 118 DEDUCED, 119 DEDUCED.) -/
def calAbandon (d : Dev) (n c : Nat) : Dev :=
  let x := calSt d n
  if x.run = 0 then d
  else
    let d := if x.run = 2 ∧ x.handAt.isSome then handOver d n (x.step - 1) x.relieved d.ticks else d
    let pend := Store.get d.calPend [] n
    let keep := x.causes.filter (fun k => !pend.contains k)
    let d := { d with calPend := Store.set d.calPend [] n (keep ++ pend) }
    let d := setCalSt d n { x with run := 0, handAt := none, meas := [], endAt := d.ticks }
    let d := bump d (pgCal n) F.CAL_ABANDONED
    ledgerNow d 0x0204 n (typeCode .cal) [x.run - 1, c]

/-- Core `c` is declared FAILED: cause 0 self-test, 1 stuck, 2 command (R124). -/
def declareFailed (d : Dev) (n c cause : Nat) : Dev :=
  let p := pgRx n
  if isFailed d n c then d
  else
    let d := raise (setR d p F.RX_FAILED (getR d p F.RX_FAILED ||| 2 ^ c)) p 8
    let d := ledgerNow d 0x0120 n (typeCode .rx) [c, inputOf d n c, cause]
    let x := rx d n
    let d := rxShow (setRx d n { x with failAt := Store.set x.failAt 0 c (d.ticks + 1), away := x.away.erase c }) n
    let k := calSt d n
    onlyIf (k.run == 2 && decide (inputOf d n c != 0 ∨ c = k.spare ∨ c = k.relieved)) (fun d => calAbandon d n 2) d

/-- POL_X_LOST and POL_Y_LOST clear where both inputs of the polarisation are served again. -/
def polShow (d : Dev) (n : Nat) : Dev :=
  let ok (i : Nat) : Bool := !deadInput d n i
  let d := onlyIf (ok 0 && ok 1) (fun d => setR d (pgRx n) F.RX_POL_X_LOST 0) d
  onlyIf (ok 2 && ok 3) (fun d => setR d (pgRx n) F.RX_POL_Y_LOST 0) d

/-- The line whose slot-0 instants and calibration passes are those of line `n`'s cores: its partner while it is DARK. -/
def coreOwner (d : Dev) (n : Nat) : Nat := if (line d n).base = 6 then partner n else n

/-- The lowest ready core takes input `i`: it is STALE until its catch-up at this instant, if that has the lead of R14, and
CAL_STALE until the next accepted calibration, which is requested as forced (R125).
(Log: 72 DEDUCED.) -/
def substitute (d : Dev) (n i : Nat) : Dev :=
  match (readyCores d n).head? with
  | none => d
  | some c =>
    let p := pgRx n
    let old := coreAt d p i
    let d := setR d p (coreFld i) c
    let d := enterStale d p c
    let d := setCal (if leadMet d n p d.ticks then makeCurrent d p c else d) p c true
    let x := rx d n
    let d := setRx d n { x with failAt := Store.erase x.failAt old, away := x.away.filter (fun a => a != c && a != old),
                                serveFrom := Store.set x.serveFrom 0 c d.ticks }
    let d := raise (bump d p F.RX_SUBSTITUTIONS) p 9
    rxShow (polShow (calDue d (coreOwner d n) 3) n) n

/-- A slot-0 instant of line `n` is now. -/
def atSlot0 (d : Dev) (n : Nat) : Bool :=
  let x := line d n
  x.base != 0 && (x.next == some d.ticks || (x.l0 == d.ticks && x.next.isSome))

/-- SPARE_SUBSTITUTION: at a slot-0 instant at least 200 ticks after its declaration, a failed input is
taken by the lowest ready core (R125, R126); one whose core has passed a re-test as soon as a core is ready (R127).
(Log: 72 DEDUCED.) -/
def doSubstitute (t n : Nat) (d : Dev) : Dev :=
  let d := advance d t
  if atSlot0 d (coreOwner d n) then
    (List.range 4).foldl (fun d i =>
      let c := coreAt d (pgRx n) i
      let at_ := Store.get (rx d n).failAt 0 c
      if isAway d n c || (isFailed d n c && decide (at_ + 199 ≤ d.ticks)) then substitute d n i else d) d
  else d

def execSpareSubstitution (t ln : Nat) (s : State) : Host.Outcome State Fault Refusal :=
  act (decide (ln < 12)) s (doSubstitute t ln)

/-- At a slot-0 instant after a declaration that no ready spare answers, the polarisation is dropped
(R126).
(Log: 72 DEDUCED.) -/
def polDrop (d : Dev) (n : Nat) : Dev :=
  let p := pgRx n
  if !(readyCores d n).isEmpty then d
  else
    let x := deadInput d n 0 || deadInput d n 1
    let y := deadInput d n 2 || deadInput d n 3
    let d := onlyIf (x && !flagR d p F.RX_POL_X_LOST) (fun d => raise (setR d p F.RX_POL_X_LOST 1) p 10) d
    onlyIf (y && !flagR d p F.RX_POL_Y_LOST) (fun d => raise (setR d p F.RX_POL_Y_LOST 1) p 10) d

/-- The same for line `n` and a DARK partner, whose cores serve it. -/
def polDrops (d : Dev) (n : Nat) : Dev :=
  let d := polDrop d n
  onlyIf ((line d (partner n)).base == 6) (fun d => polDrop d (partner n)) d

/-- REQUAL: every FAILED core of the line is re-tested (R127). -/
def doRequal (t n : Nat) (d : Dev) : Dev :=
  onPage (pgRx n) (fun d =>
    if getR d (pgRx n) F.RX_FAILED = 0 then d else setRx d n { rx d n with requal := true }) (advance d t)

def execRequal (t ln : Nat) (s : State) : Host.Outcome State Fault Refusal :=
  act (decide (ln < 12)) s (doRequal t ln)

/-- A FAILED core that passed joins the spare role STALE and CAL_STALE, and a calibration is due; it serves no input, not even
one that MAP still shows it at, until a substitution chooses it (R127). -/
def coreReturns (d : Dev) (n c : Nat) : Dev :=
  let p := pgRx n
  let mapped := inputOf d n c != 0
  let d := setR d p F.RX_FAILED (andNot (getR d p F.RX_FAILED) (2 ^ c))
  let d := onlyIf mapped (fun d => setRx d n { rx d n with away := (rx d n).away ++ [c], failAt := Store.erase (rx d n).failAt c }) d
  let d := setCal (enterStale d p c) p c true
  let d := raise (bump d p F.RX_REQUAL_PASS) p 11
  rxShow (calDue (ledgerNow d 0x0121 n (typeCode .rx) [c]) (coreOwner d n) 4) n

/-- REQUAL_DONE: the re-test ends; `pass` lists the cores that passed (R127). -/
def doRequalDone (t n : Nat) (pass : List Nat) (d : Dev) : Dev :=
  let d := advance d t
  if (rx d n).requal then
    let d := setRx d n { rx d n with requal := false }
    (List.range 5).foldl (fun d c =>
      if !isFailed d n c then d
      else if pass.contains c then coreReturns d n c
      else bump d (pgRx n) F.RX_REQUAL_FAIL) d
  else d

def execRequalDone (t ln : Nat) (pass : List Nat) (s : State) : Host.Outcome State Fault Refusal :=
  act (decide (ln < 12)) s (doRequalDone t ln pass)

/-! ## Statistics (R128, R130) -/

/-- The window length of core `c` in sample ticks (R129). -/
def statLen (d : Dev) (n : Nat) : Nat := 2 ^ clampN 10 24 (getR d (pgRx n) F.RX_STAT_LEN)

/-- The window that ends now was eligible for stuck detection throughout (R124). -/
def statEligible (d : Dev) (n c : Nat) : Bool :=
  let len := statLen d n / 5
  let from_ := Store.get d.eligFrom 0 n
  inputOf d n c != 0 && from_ != 0 && decide (from_ - 1 + len ≤ d.ticks) &&
    decide (Store.get (rx d n).serveFrom 0 c + len ≤ d.ticks)

/-- An eligible window is judged (R124). -/
def judgeStuck (d : Dev) (n c : Nat) (lo hi : Int) (ovr : Nat) : Dev :=
  let p := pgRx n
  let x := rx d n
  if statEligible d n c then
    if lo = hi ∨ ovr = statLen d n then
      let run := Store.get x.stuckRun 0 c + 1
      let d := setRx d n { x with stuckRun := Store.set x.stuckRun 0 c run }
      let d := raise (bump d p F.RX_STUCK_WINDOWS) p 12
      onlyIf (decide (2 ≤ run) && flagR d p F.RX_STUCK_FAIL) (fun d => declareFailed d n c 1) d
    else setRx d n { x with stuckRun := Store.erase x.stuckRun c }
  else d

/-- A sample enters the statistics window of a thermal converter (R130). -/
def thSample (a : ThAcc) (v : Int) : ThAcc :=
  ⟨a.n + 1, a.sum + v, min a.mn v, max a.mx v, a.ovr + b2n (v == -32768 || v == 32767)⟩

/-- The samples of a Raman shot that the Stacks take enter the windows of both thermal converters (R130). -/
def thShot (d : Dev) (n : Nat) (st anti : List Int) : Dev :=
  let x := rx d n
  let add (k : Nat) (l : List Int) (m : Store ThAcc) : Store ThAcc :=
    Store.set m ThAcc.reset k (l.foldl thSample (Store.get m ThAcc.reset k))
  setRx d n { x with th := add 1 anti (add 0 st x.th) }

/-- The window of thermal converter `k` ends (R128, R130): without a sample MIN, MAX and OVR are 0; MEAN is then a value the
spec does not state.
(Log: 240 DESIGN CHOICE.) -/
def thWindowEnd (d : Dev) (n k : Nat) : Dev :=
  let p := pgThrx n
  let a := Store.get (rx d n).th ThAcc.reset k
  let was := getR d p (F.THRX_OVR k)
  let (free, d) := if a.n = 0 then freeV d else (0, d)
  let mean : Int := if a.n = 0 then free else rne (256 * a.sum) a.n
  let lim (v : Int) : Int := if a.n = 0 then 0 else v
  let d := setS (setS (setS d p (F.THRX_MEAN k) mean) p (F.THRX_MIN k) (lim a.mn)) p (F.THRX_MAX k) (lim a.mx)
  let d := setR (setR d p (F.THRX_OVR k) a.ovr) p (F.THRX_WIN_SEQ k) (getR d p (F.THRX_WIN_SEQ k) + 1)
  let d := setRx d n { rx d n with th := Store.erase (rx d n).th k }
  raiseOn d p 8 (was != 0) (a.ovr != 0)

/-- STAT_WINDOW_END: the window of receiver core `c` (0–4) ends with these values, or that of thermal converter `c − 5` with
those of the samples that came in it (R128, R130).
(Log: 240 DESIGN CHOICE.) -/
def doStatEnd (t n c : Nat) (mean lo hi : Int) (ovr : Nat) (d : Dev) : Dev :=
  let d := advance d t
  if c < 5 then
    let p := pgRx n
    let d := setS (setS (setS d p (F.RX_MEAN c) mean) p (F.RX_MIN c) lo) p (F.RX_MAX c) hi
    let d := setR (setR d p (F.RX_OVR c) ovr) p (F.RX_WIN_SEQ c) (getR d p (F.RX_WIN_SEQ c) + 1)
    judgeStuck d n c lo hi ovr
  else thWindowEnd d n (c - 5)

def execStatWindowEnd (t ln conv : Nat) (mean lo hi : Int) (ovr : Nat) (s : State) :
    Host.Outcome State Fault Refusal :=
  act (decide (ln < 12) && decide (conv < 7) && (decide (5 ≤ conv) || statFits mean lo hi)) s (doStatEnd t ln conv mean lo hi ovr)

/-! ## The converter word (R115) -/

/-- The line whose cores a word of phase `ph` comes from: the partner's for the 180° samples (R113). -/
def wordLine (n ph : Nat) : Nat := if ph = 2 then partner n else n

/-- The raw codes of sample tick `i` of a word. -/
def tickRaws (raw : List Int) (i : Nat) : List Int := (raw.drop (4 * i)).take 4

/-- Auto-ranging looks at sample tick `s` of the inputs of line `n`, as the cores of line `m` give them (R121). -/
def arTick (d : Dev) (n m s : Nat) (raws : List Int) : Dev :=
  if flagL d (pgRx n) F.RX_AR_EN then
    (List.range 4).foldl (fun d i => if deadInput d m i then d else arSample d n s i (raws.getD i 0)) d
  else d

/-- UNSETTLED of sample tick `s` (R115, R123, R124, R126, R268). -/
def unsettledAt (d : Dev) (n m s : Nat) : Bool :=
  let near := (gainSteps (rx d n)).any (fun a => decide (a ≤ s) && decide (s < a + 8))
  let dead := (List.range 4).any (fun i => deadInput d m i && !polLost d m i)
  let h := (rx d m).handAt
  near || dead || (polLost d m 0 && polLost d m 2) || (h != 0 && decide (h ≤ s + 1) && decide (s + 1 < h + 8))

/-- SAT of a sample tick (R115). -/
def satAt (d : Dev) (m : Nat) (raws : List Int) : Bool :=
  (List.range 4).any (fun i => !deadInput d m i && (raws.getD i 0 == -8192 || raws.getD i 0 == 8191))

/-- The 64-bit side field of a word of phase `ph` whose first sample is `num` (R115), GAP apart. Without a step in the word
GAIN_B is GAIN_A and STEP_POS 0. -/
def sideOf (d : Dev) (n ph num : Nat) (raw : List Int) : Nat :=
  let m := wordLine n ph
  let x := rx d n
  let step := (gainSteps x).find? (fun a => decide (num ≤ a) && decide (a < num + 8))
  let cores := (List.range 4).map (coreAt d (pgRx m))
  maskOf ((List.range 8).filter (fun i => unsettledAt d n m (num + i))) +
    maskOf ((List.range 8).filter (fun i => satAt d m (tickRaws raw i))) * 2 ^ 8 +
    gainAt x num * 2 ^ 16 + gainAt x (step.getD num) * 2 ^ 22 + (step.getD num - num) * 2 ^ 28 + b2n step.isSome * 2 ^ 31 +
    b2n (cores.any (isStale d (pgRx m))) * 2 ^ 32 + b2n (cores.any (isCal d (pgRx m))) * 2 ^ 33 +
    num % 2 ^ 24 * 2 ^ 36 + ph * 2 ^ 60

/-- The word of phase `ph` with first sample `num` and raw codes `raw`. -/
def wordOf32 (d : Dev) (n ph num : Nat) (raw : List Int) : ConvW :=
  let m := wordLine n ph
  { src := m, phase := ph, num := num, side := sideOf d n ph num raw, raw := raw,
    cores := (List.range 4).map (coreAt d (pgRx m)),
    zeros := (List.range 4).map (fun i => deadInput d m i || polLost d m i) }

/-- The 512 bits of a word on its relay channel: container k holds a raw code and bits 2k + 1 and 2k of the side field
(R115). -/
def wordBits (w : ConvW) : Nat :=
  (List.range 32).foldl (fun a k => a + (ux 14 (w.raw.getD k 0) + bits w.side (2 * k) 2 * 2 ^ 14) * 2 ^ (16 * k)) 0

/-! ## Conditioning (R116, R256) -/

/-- K(g) of R116 for GREF − g = −60 … 60, in units of 2^-19: 10^((GREF − g) / 40) rounded to nearest. -/
def gainTable0 : List Nat :=
  [16579, 17562, 18602, 19705, 20872, 22109, 23419, 24807, 26277, 27834, 29483, 31230, 33080,
   35040, 37117, 39316, 41646, 44113, 46727, 49496, 52429, 55535, 58826, 62312, 66004, 69915,
   74058, 78446, 83094, 88018, 93233]

def gainTable1 : List Nat :=
  [98757, 104609, 110808, 117373, 124328, 131695, 139499, 147764, 156520, 165794, 175618, 186024,
   197047, 208723, 221090, 234191, 248068, 262766, 278336, 294829, 312299, 330803, 350405,
   371167, 393161, 416457, 441133, 467272, 494960, 524288, 555354]

def gainTable2 : List Nat :=
  [588261, 623117, 660039, 699149, 740576, 784458, 830940, 880177, 932331, 987575, 1046092,
   1108077, 1173735, 1243283, 1316952, 1394986, 1477644, 1565200, 1657944, 1756184, 1860244,
   1970470, 2087228, 2210904, 2341908, 2480675, 2627665, 2783363, 2948288, 3122985, 3308034]

def gainTable3 : List Nat :=
  [3504047, 3711675, 3931605, 4164568, 4411334, 4672722, 4949598, 5242880, 5553540, 5882608,
   6231175, 6600395, 6991493, 7405765, 7844584, 8309405, 8801768, 9323306, 9875746, 10460921,
   11080769, 11737346, 12432828, 13169519, 13949862, 14776444, 15652003, 16579442]

/-- K(g) for the reference code `gref`. -/
def gainK (gref g : Nat) : Nat :=
  let i := gref + 60 - g
  if i < 31 then gainTable0.getD i 0
  else if i < 62 then gainTable1.getD (i - 31) 0
  else if i < 93 then gainTable2.getD (i - 62) 0
  else gainTable3.getD (i - 93) 0

/-- GREF of the plan that sample `s` belongs to. -/
def grefAt (d : Dev) (n s : Nat) : Nat :=
  min 60 (match ((rx d n).grefs.filter (fun e => decide (e.1 ≤ s))).getLast? with
    | some e => e.2
    | none => getL d (pgRx n) F.RX_GREF)

/-- y of R116 in quarter raw LSB, a signed 22-bit value, from core `c` of the CAL page `q` at code `g`. -/
def conditionY (d : Dev) (q c gref g : Nat) (raw : Int) : Int :=
  let ofs := getS d q (F.CAL_OFS c)
  let trim := getR d q (F.CAL_TRIM c)
  rne ((256 * raw - ofs) * (trim : Int) * (gainK gref g : Int) * 4) (256 * 2 ^ 38)

/-- The quadrature correction of R256, rounded to the LSB of y.
(Log: 69 DEDUCED.) -/
def quad (qph i q : Int) : Int :=
  if qph = 0 then q
  else
    let e := fxCis qph 65536
    fxRne 0 (fxDiv (q * fxOne - i * e.2) e.1)

/-- The quadrature correction of a sample with the coefficients of CAL page `q`.
(Log: 69 DEDUCED, 239 DESIGN CHOICE.) -/
def quadTick (d : Dev) (q : Nat) (a : InS) : InS :=
  { a with xq := quad (getS d q F.CAL_QPH_X) a.xi a.xq, yq := quad (getS d q F.CAL_QPH_Y) a.yi a.yq }

/-- The skew correction of one 180° stream (R114): `hist` are its earlier samples, oldest first.
(Log: 68 DESIGN CHOICE.) -/
def skewOne (k : Int) (hist : List Int) (v : Int) : Int :=
  if k = 0 then v else Config.skew k ((hist ++ [v]).drop (hist.length + 1 - 16))

/-- The skew correction of a 180° sample of line `n`; `old` are the earlier samples before the correction.
(Log: 68 DESIGN CHOICE.) -/
def skewTick (d : Dev) (n : Nat) (old : List InS) (a : InS) : InS :=
  let k (i : Nat) : Int := getS d (pgCal n) (F.CAL_SKEW i)
  { a with xi := skewOne (k 0) (old.map (·.xi)) a.xi, xq := skewOne (k 1) (old.map (·.xq)) a.xq,
           yi := skewOne (k 2) (old.map (·.yi)) a.yi, yq := skewOne (k 3) (old.map (·.yq)) a.yq }

/-- The gain code that a word gives for its sample tick `i`. -/
def wordGain (w : ConvW) (i : Nat) : Nat :=
  if bit w.side 31 && decide (bits w.side 28 3 ≤ i) then bits w.side 22 6 else bits w.side 16 6

/-- The marks of sample tick `i` of a word (R123, R144): samples that settle from a step in an earlier word carry GAIN_STEP
too; `last` is the first sample of the latest step.
(Log: 71 DEDUCED.) -/
def wordMarks (w : ConvW) (last : Option Nat) (i : Nat) : Nat :=
  let u := bit w.side i
  let tail := last.any (fun a => decide (a ≤ w.num + i) && decide (w.num + i < a + 8))
  b2n u + 2 * b2n (u && (bit w.side 31 || tail)) + 4 * b2n (bit w.side (8 + i)) + 8 * b2n (bit w.side 32) +
    16 * b2n (bit w.side 33) + 32 * b2n (bit w.side 34)

/-- Sample tick `i` of a word, before skew and quadrature correction (R116). -/
def wordTick (d : Dev) (n : Nat) (w : ConvW) (last : Option Nat) (i : Nat) : InS :=
  let gref := grefAt d n (w.num + i)
  let raws := tickRaws w.raw i
  let y (k : Nat) : Int :=
    if w.zeros.getD k false then 0
    else conditionY d (pgCal w.src) (w.cores.getD k 0) gref (wordGain w i) (raws.getD k 0)
  { num := 2 * (w.num + i) + b2n (w.phase == 2), xi := y 0, xq := y 1, yi := y 2, yq := y 3, marks := wordMarks w last i }

/-- A conditioned sample enters a stream; in fine mode the 180° samples take their places
between the 0° ones. The latest 2,048 are kept. -/
def histPut (l : List InS) (a : InS) : List InS :=
  let lo := l.filter (fun b => decide (b.num < a.num))
  let hi := l.filter (fun b => decide (a.num < b.num))
  let r := lo ++ [a] ++ hi
  r.drop (r.length - 2048)

/-- The conditioning in Pipe cluster `k` of line `n`. -/
def cond (d : Dev) (n k : Nat) : CondSt := Store.get d.conds CondSt.reset (4 * n + k)
def setCond (d : Dev) (n k : Nat) (x : CondSt) : Dev := { d with conds := Store.set d.conds CondSt.reset (4 * n + k) x }

/-- The instant in ns up to which every sample has come. -/
def condUpTo (x : CondSt) : Nat :=
  match x.nextN, x.next0, x.next1 with
  | some a, _, _ => 2 * a
  | none, some a, some b => 2 * min a b
  | _, _, _ => 0

/-- The sample tick with which the stream of phase `ph` goes on. -/
def condNext (x : CondSt) (ph : Nat) : Option Nat := if ph = 0 then x.nextN else if ph = 1 then x.next0 else x.next1

/-- The stream of phase `ph` has come up to sample tick `s`; normal and fine mode take turns. -/
def condReach (x : CondSt) (ph s : Nat) : CondSt :=
  if ph = 0 then { x with nextN := some s, next0 := none, next1 := none, skew := [] }
  else if ph = 1 then { x with nextN := none, next0 := some s }
  else { x with nextN := none, next1 := some s }

/-- A sample of phase `ph` of line `n` is corrected and enters the stream (R114, R116, R256). The 180° samples take QPH of the
CAL page of their own cores.
(Log: 71 DEDUCED, 239 DESIGN CHOICE.) -/
def condSample (d : Dev) (n ph : Nat) (x : CondSt) (a : InS) : CondSt :=
  let b := if ph = 2 then skewTick d n x.skew a else a
  let c := quadTick d (pgCal (wordLine n ph)) b
  { x with hist := histPut x.hist c, skew := if ph = 2 then (x.skew ++ [a]).drop (x.skew.length + 1 - 16) else x.skew }

/-- The eight samples of a word enter the stream (R115, R116, R144).
(Log: 71 DEDUCED.) -/
def condWord (d : Dev) (n : Nat) (w : ConvW) (x : CondSt) : CondSt :=
  let y := condReach { x with stepNum := if bit w.side 31 then some (w.num + bits w.side 28 3) else x.stepNum } w.phase (w.num + 8)
  (List.range 8).foldl (fun y i => condSample d n w.phase y (wordTick d n w x.stepNum i)) y

/-- Eight sample ticks of phase `ph` from `s` on that a discard left out enter as zeros with GAP (R144). -/
def condMissing (d : Dev) (n ph s : Nat) (x : CondSt) : CondSt :=
  (List.range 8).foldl (fun y i => condSample d n ph y ⟨2 * (s + i) + b2n (ph == 2), 0, 0, 0, 0, 32⟩) (condReach x ph (s + 8))

end Sys2Proof.Machine
end

