-- ==== Sys2Proof/Machine/Pipe.lean ====
section
/-! DEFINITION. The slot pipes: launch windows, down-conversion, pulse compression, CORDIC and combining,
the coefficient banks and the hand-off to the Frame cluster (R132–R153). -/

namespace Sys2Proof.Machine

open Sys2Proof

/-- Slot pipe `s` of line `n`. -/
def pipe (d : Dev) (n s : Nat) : PipeSt := Store.get d.pipes PipeSt.reset (n * 8 + s)
def setPipe (d : Dev) (n s : Nat) (x : PipeSt) : Dev :=
  { d with pipes := Store.set d.pipes PipeSt.reset (n * 8 + s) x }

/-- Pipe `s` runs (R132). -/
def pipeRuns (d : Dev) (n s : Nat) : Bool :=
  let st := lineState d n
  decide (s < slotsN d n) && st != 0 && st != 6

/-! ## Coefficient banks (R139–R142) -/

/-- Bank `b` of pipe `s` is running (R139). -/
def bankRuns (d : Dev) (n s b : Nat) : Bool :=
  let x := pipe d n s
  (pipeRuns d n s && getL d (pgSlot n s) F.SLOT_BANK == b) || x.listen.any (fun w => w.bank == b) ||
    x.capBank == some b

/-- The seal of bank `b`. -/
def sealFld (b : Nat) : Fld := if b = 0 then F.SLOT_SEALED0 else F.SLOT_SEALED1
def isSealed (d : Dev) (n s b : Nat) : Bool := flagR d (pgSlot n s) (sealFld b)

/-- The key of component `w % 2` (0 RE, 1 IM) of tap `w / 2` of bank `b`. -/
def coefKey (n s b w : Nat) : Nat := ((n * 8 + s) * 2 + b) * 2048 + w

/-- The pipe's own memory of bank `b` is loaded from the line region's copy (R142). -/
def coefLoad (d : Dev) (n s b : Nat) : Dev :=
  let lo := coefKey n s b 0
  let hi := lo + 2048
  { d with coefOwn := d.coefOwn.filter (fun e => decide (e.1 < lo)) ++
      d.coef.filter (fun e => decide (lo ≤ e.1) && decide (e.1 < hi)) ++ d.coefOwn.filter (fun e => decide (hi ≤ e.1)) }

/-- Bank `b` becomes running, and is loaded; it is not while a listening window uses it (R142). -/
def bankUp (n s b : Nat) (d : Dev) : Dev :=
  let f := if b = 0 then F.SLOT_RUNNING0 else F.SLOT_RUNNING1
  let run := bankRuns d n s b
  let load := run && !flagR d (pgSlot n s) f && !(pipe d n s).listen.any (fun w => w.bank == b)
  setR (onlyIf load (fun d => coefLoad d n s b) d) (pgSlot n s) f (b2n run)

/-- LIVE_BANK, RUNNING0 and RUNNING1 follow the banks (R152). -/
def bankShow (d : Dev) (n s : Nat) : Dev :=
  bankUp n s 1 (bankUp n s 0 (setR d (pgSlot n s) F.SLOT_LIVE_BANK (getL d (pgSlot n s) F.SLOT_BANK)))

/-- A pipe catches up: its running banks that no listening window uses are loaded (R142). -/
def pipeCatchUp (d : Dev) (n s : Nat) : Dev :=
  [0, 1].foldl (fun d b =>
    if bankRuns d n s b && !(pipe d n s).listen.any (fun w => w.bank == b) then coefLoad d n s b else d) d

/-- The tap component, as written (18 bits). -/
def coefRaw (d : Dev) (n s b w : Nat) : Nat := Store.get d.coef 0 (coefKey n s b w)

/-- Word `w` of the coefficient window reads the component with its sign in bits 31:18 (R153). -/
def coefWord (d : Dev) (n s w : Nat) : Nat :=
  ux 32 (sx 18 (coefRaw d n s (getR d (pgSlot n s) F.SLOT_WBANK) w))

/-- A write of word `w` of the coefficient window (R140). -/
def coefWrite (d : Dev) (n s w v : Nat) : Dev :=
  let p := pgSlot n s
  let b := getR d p F.SLOT_WBANK
  if bankRuns d n s b then raise (bump d p F.SLOT_COEF_REFUSED) p 8
  else
    setR { d with coef := Store.set d.coef 0 (coefKey n s b w) (v % 2 ^ 18) } p (sealFld b) 0

/-- COEF_CTRL is written with `v`: WBANK, and SEAL = 1 seals the bank it selects if that is stopped (R140).
(Log: 79 DESIGN CHOICE.) -/
def coefCtrl (d : Dev) (n s v : Nat) : Dev :=
  let p := pgSlot n s
  let d := setR d p F.SLOT_WBANK v
  let b := getR d p F.SLOT_WBANK
  if bit v 8 && !bankRuns d n s b then setR d p (sealFld b) 1 else d

/-- COEF_SEAL. -/
def doCoefSeal (t n s v : Nat) (d : Dev) : Dev :=
  onPage (pgSlot n s) (fun d => coefCtrl d n s v) (advance d t)

def execCoefSeal (t ln slot v : Nat) (s : State) : Host.Outcome State Fault Refusal :=
  act (decide (ln < 12) && decide (slot < 8)) s (doCoefSeal t ln slot v)

/-! ## The window of a launch (R133, R135) -/

/-- W_NCO of R135 for FREQ in kHz.
(Log: 74 DESIGN CHOICE.) -/
def ncoWord (freq : Int) (fine : Bool) : Nat :=
  ux 32 (rne (freq * 2 ^ 32) (if fine then 1000000 else 500000))

/-- M of the live plan. -/
def binsLive (d : Dev) (n : Nat) : Nat :=
  binsOf (lv d n F.LINE_RANGE) (lv d n F.LINE_GROUP_INDEX) (rateCode d n)

/-- The registers of the SLOT page that show the live plan. -/
def pipeShow (d : Dev) (n s : Nat) : Dev :=
  let p := pgSlot n s
  let d := setR d p F.SLOT_NCO_WORD (ncoWord (getLS d (pgLine n) (F.LINE_FREQ s)) (flagL d (pgLine n) F.LINE_FINE))
  let d := setR d p F.SLOT_BINS (binsLive d n)
  let d := bankShow d n s
  if !pipeRuns d n s then setR d p cSTATE 0
  else if getR d p cSTATE = 0 then setR d p cSTATE (if 0 < (pipe d n s).settle then 2 else 1)
  else d

/-- All eight pipes of a line show its live plan. -/
def pipesShow (d : Dev) (n : Nat) : Dev := (List.range 8).foldl (fun d s => pipeShow d n s) d

/-- The pipe is cleared for its first launch at tick `t` (R146). -/
def pipeClear (t n : Nat) (d : Dev) (s : Nat) : Dev :=
  let p := pgSlot n s
  if pipeRuns d n s then
    let k := if getL d p F.SLOT_POL_MODE = 0 then 2 ^ getL d p F.SLOT_POL_K else 1
    let d := setPipe d n s { pipe d n s with theta := [], settle := k, clearNs := 10 * t }
    setR (bump d p F.SLOT_CLEARS) p cSTATE 2
  else d

/-- Every running pipe of the line is cleared. -/
def pipesClear (d : Dev) (n t : Nat) : Dev := (List.range 8).foldl (pipeClear t n) d

/-- PIPE_SETTLED: the settling period ends once its launches have been made and their bins emitted
(R146). -/
def doPipeSettled (t n s : Nat) (d : Dev) : Dev :=
  let d := advance d t
  let p := pgSlot n s
  let x := pipe d n s
  if getR d p cSTATE = 2 ∧ x.settle = 0 ∧ x.wins.all (fun w => !w.settle) then
    raise (setR d p cSTATE 1) p 10
  else d

def execPipeSettled (t ln slot : Nat) (s : State) : Host.Outcome State Fault Refusal :=
  act (decide (ln < 12) && decide (slot < 8)) s (doPipeSettled t ln slot)

/-- The launch word's facts for a launch of slot `s` at tick `t` (R150). -/
def launchOf (d : Dev) (n s t shot : Nat) (skipped : Bool) : Launch :=
  { slot := s, at_ := t, plan := planId d n, shot := shot % 2 ^ 32, bins := binsLive d n,
    taps := getL d (pgSlot n s) F.SLOT_TAPS, rate := rateCode d n, skipped := skipped,
    stale := isStale d (pgStarter n) 0, cal := isCal d (pgStarter n) 1 }

/-- The window of that launch. -/
def windowOf (d : Dev) (n s t shot : Nat) (skipped : Bool) : PipeWin :=
  let p := pgSlot n s
  let x := pipe d n s
  let fine := flagL d (pgLine n) F.LINE_FINE
  { launch := launchOf d n s t shot skipped, from_ := x.clearNs, bank := getL d p F.SLOT_BANK,
    ps := psOf (lv d n F.LINE_PERIOD) (rateCode d n), shift := min 24 (getL d p F.SLOT_SHIFT),
    polMode := getL d p F.SLOT_POL_MODE, polK := getL d p F.SLOT_POL_K,
    word := ncoWord (getLS d (pgLine n) (F.LINE_FREQ s)) fine, fine := fine,
    settle := !skipped && decide (0 < x.settle), xs := [], done := 0, lwSent := false,
    satSeen := false, blkSum := 0 }

/-- The tick at which the listening window of `w` has closed: W slot samples after the launch (R133). -/
def closeTick (w : PipeWin) : Nat :=
  w.launch.at_ + cdiv (min (w.launch.bins + w.launch.taps - 1) w.ps * 100000000) (rateHz w.launch.rate)

/-- Bin `m` is a tail bin (R145). -/
def isTail (w : PipeWin) (m : Nat) : Bool := decide (w.ps ≤ m + w.launch.taps - 1 + 8)

/-! ## NCO and decimation (R135, R136) -/

/-- Slot sample spacing in ns. -/
def stepNs (rate : Nat) : Nat := 40 / 2 ^ rate

/-- The NCO's cosine and sine for a 20-bit phase: 18-bit Q1.17 values within one LSB of the true ones. -/
def ncoAt (ph : Nat) : Int × Int :=
  let e := fxCis ph (2 ^ 20)
  (clampI (-131072) 131071 (fxNear 17 1 e.1 (Config.ncoCos ph)), clampI (-131072) 131071 (fxNear 17 1 e.2 (Config.ncoSin ph)))

/-- One input mixed with the NCO of window `w`: (X, Y) complex, in units of 2^-17 of ¼ raw LSB.
(Log: 74 DESIGN CHOICE.) -/
def mix (w : PipeWin) (a : InS) : Int × Int × Int × Int :=
  let j : Int := (a.num : Int) - 10 * (w.launch.at_ : Int)
  let j := if w.fine then j else j / 2
  let e := ncoAt (ux 32 ((w.word : Int) * j) / 4096)
  (a.xi * e.1 + a.xq * e.2, a.xq * e.1 - a.xi * e.2, a.yi * e.1 + a.yq * e.2, a.yq * e.1 - a.yi * e.2)

/-- The weight, in units of 2^-24, of an input `k` ns after the output's instant: the same on both sides (linear phase), and
their sum over the inputs of an output is exactly 1 (gain 1 at 0 Hz).
(Log: 75 DESIGN CHOICE.) -/
def decTap (fine : Bool) (rate : Nat) (k : Int) : Int :=
  let r := 8 * stepNs rate
  let side (l : List Nat) : Int := sumI (l.map (Config.decTap fine rate))
  let odd := !fine && k % 2 != 0
  if odd && k.natAbs == 1 then
    2 ^ 23 - side ((List.range (r + 1)).filter (fun i => decide (3 ≤ i) && i % 2 == 1))
  else if k = 0 then
    2 ^ 24 - 2 * side ((List.range (r + 1)).filter (fun i => decide (0 < i) && (fine || i % 2 == 0)))
  else Config.decTap fine rate k.natAbs

/-- The instant of x(i), in ns. -/
def xNs (w : PipeWin) (i : Nat) : Nat := 10 * w.launch.at_ + i * stepNs w.launch.rate

/-- The limit of a signed 24-bit component. -/
def sat24 (v : Int) : Int := clampI (-8388608) 8388607 v

/-- x(i) from the inputs of `h` (R136), with the marks of every input in its support (R144).
(Log: 75 DESIGN CHOICE.) -/
def xOf (w : PipeWin) (h : List InS) (i : Nat) : XS :=
  let c := xNs w i
  let r := 8 * stepNs w.launch.rate
  let near := h.filter (fun a => decide (c ≤ a.num + r) && decide (a.num ≤ c + r))
  let used := near.filter (fun a => decide (w.from_ ≤ a.num))
  let tap (a : InS) : Int := decTap w.fine w.launch.rate ((a.num : Int) - (c : Int))
  let out (f : Int × Int × Int × Int → Int) : Int :=
    sat24 (rne (2 * sumI (used.map (fun a => tap a * f (mix w a)))) (2 ^ 41))
  { xr := out (fun v => v.1), xj := out (fun v => v.2.1), yr := out (fun v => v.2.2.1),
    yj := out (fun v => v.2.2.2), marks := near.foldl (fun m a => m ||| a.marks) 0 }

/-- How many x the window needs: M + T − 1. -/
def xNeed (w : PipeWin) : Nat := w.launch.bins + w.launch.taps - 1

/-- The window takes the x whose inputs, up to `upTo` ns, have come; x(i) = 0 for i ≥ P_s (R133).
(Log: 75 DESIGN CHOICE.) -/
def extendWin (h : List InS) (upTo : Nat) (w : PipeWin) : PipeWin :=
  if w.launch.skipped then w
  else
    let have_ := w.done + w.xs.length
    let new := (List.range 64).filterMap (fun k =>
      let i := have_ + k
      if decide (i < min w.ps (xNeed w)) && decide (xNs w i + 8 * stepNs w.launch.rate < upTo) then some (xOf w h i) else none)
    let xs := w.xs ++ new
    let full := decide (w.done + xs.length = min w.ps (xNeed w))
    let zero : XS := ⟨0, 0, 0, 0, 0⟩
    { w with xs := if full then xs ++ List.replicate (xNeed w - w.ps) zero else xs }

/-! ## Pulse compression (R137, R138) -/

/-- Accumulation of one product, saturating for the rest of the bin.
(Log: 78 DEDUCED.) -/
def accAdd (a : Int × Bool) (v : Int) : Int × Bool :=
  if a.2 then a
  else if 2 ^ 47 - 1 < a.1 + v then (2 ^ 47 - 1, true)
  else if a.1 + v < -(2 ^ 47) then (-(2 ^ 47), true)
  else (a.1 + v, false)

/-- The four accumulators of a bin: taps `cs` against the samples `xs`.
(Log: 78 DEDUCED.) -/
def correlate (cs : List (Int × Int)) (xs : List XS) : List (Int × Bool) :=
  let l := cs.zip xs
  let acc (f : Int × Int → XS → Int) : Int × Bool := l.foldl (fun a p => accAdd a (f p.1 p.2)) (0, false)
  [acc (fun c x => c.1 * x.xr - c.2 * x.xj), acc (fun c x => c.1 * x.xj + c.2 * x.xr),
   acc (fun c x => c.1 * x.yr - c.2 * x.yj), acc (fun c x => c.1 * x.yj + c.2 * x.yr)]

/-- The taps of a bank, from the pipe's own memory. -/
def tapsOf (d : Dev) (n s b t : Nat) : List (Int × Int) :=
  (List.range t).map (fun k => (sx 18 (Store.get d.coefOwn 0 (coefKey n s b (2 * k))), sx 18 (Store.get d.coefOwn 0 (coefKey n s b (2 * k + 1)))))

/-! ## CORDIC and combining (R147–R149) -/

/-- AMP of a power, within 2 LSB of the value rounded.
(Log: 76 DESIGN CHOICE.) -/
def ampOf (power : Nat) : Nat :=
  if power = 0 then 0
  else
    let a := fxRne 0 (2560 * fxLn power 1 * fxOne / fxLn10)
    (clampI 0 65535 (a + clampI (-2) 2 (Config.cordicAmp power))).toNat

/-- PHASE of a complex number as a signed 24-bit fraction of a turn, within 16 LSB where the squared amplitude `pw` in z LSB is at
least 64².
(Log: 76 DESIGN CHOICE.) -/
def argOf (pw : Nat) (re im : Int) : Int :=
  sx 24 (ux 24 (if pw < 4096 then Config.cordicArg re im else fxNear 24 16 (fxArg re im) (Config.cordicArg re im)))

/-- The squared magnitude. -/
def pow2 (re im : Int) : Nat := (re * re + im * im).toNat

/-- The vector sum of COMBINE at rotation `th`, in units of 2^-96 (R148).
(Log: 77 DEDUCED.) -/
def combineSum (th : Nat) (xr xj yr yj : Int) : Int × Int :=
  let ax : Int := pow2 xr xj
  let ay : Int := pow2 yr yj
  let e := fxCis th 65536
  (ax * xr * fxOne + ay * (yr * e.1 - yj * e.2), ax * xj * fxOne + ay * (yr * e.2 + yj * e.1))

/-- The vector sum is exactly 0: both polarisations are, or they cancel, which a rotation can bring about only by a multiple of
a quarter turn, where it is exact.
(Log: 77 DEDUCED.) -/
def combineNull (th : Nat) (xr xj yr yj : Int) : Bool :=
  (pow2 xr xj == 0 && pow2 yr yj == 0) || (th % 16384 == 0 && combineSum th xr xj yr yj == (0, 0))

/-- PHASE and AMP of the two polarisations at rotation `th` (R148).
(Log: 77 DEDUCED.) -/
def combine (mode th : Nat) (xr xj yr yj : Int) : Int × Nat :=
  let px := pow2 xr xj
  let py := pow2 yr yj
  if mode = 1 then (argOf px xr xj, ampOf px)
  else if mode = 2 then (argOf py yr yj, ampOf py)
  else
    let v := combineSum th xr xj yr yj
    (if combineNull th xr xj yr yj then 0 else argOf (px + py) v.1 v.2, ampOf (px + py))

/-- The rotation entry after a bin (R149).
(Log: 77 DEDUCED.) -/
def thetaNext (th k : Nat) (xr xj yr yj : Int) : Nat :=
  if pow2 xr xj = 0 ∨ pow2 yr yj = 0 then th
  else
    let a := fxRne 16 (fxArg (xr * yr + xj * yj) (xj * yr - xr * yj))
    let e := sx 16 (ux 16 (a - (th : Int)))
    ux 16 ((th : Int) + rne e (2 ^ k))

/-! ## Bins (R134, R143–R145, R150) -/

/-- Counters and events of one emitted bin.
(Log: 78 DEDUCED.) -/
def countBin (d : Dev) (n s : Nat) (accSat outSat unset tail : Bool) : Dev :=
  let p := pgSlot n s
  let d := bump d p F.SLOT_BINS_OUT
  let d := onlyIf unset (fun d => bump d p F.SLOT_BINS_UNSETTLED) d
  let d := onlyIf accSat (fun d => bump d p F.SLOT_ACC_SATS) d
  let d := onlyIf outSat (fun d => bump d p F.SLOT_OUT_SATS) d
  onlyIf tail (fun d => bump d p F.SLOT_TAIL_BINS) d

/-- The bin's own marks: launch settle, tail, settling, pipe STALE, launch STALE or CAL_STALE, overflow. -/
def ownMarks (d : Dev) (n s : Nat) (w : PipeWin) (m : Nat) (sat : Bool) : Nat :=
  b2n (decide (m + 2 ≤ w.launch.taps) || isTail w m || w.settle) + 4 * b2n sat +
    8 * b2n (isStale d (pgSlot n s) 0 || w.launch.stale) + 16 * b2n w.launch.cal

/-- The block sum of R104 after bin `m` of AMP `amp` of S0, and the far edge if a block that qualifies ends.
(Log: 65 DESIGN CHOICE.) -/
def blockOf (d : Dev) (n sum m amp : Nat) : Nat × Option Nat :=
  let sum := sum + amp
  if m % 16 = 15 then
    let floor_ := getL d (pgStarter n) F.STARTER_END_FLOOR
    (0, if (4096 : Int) * (13847 - 25 * (floor_ : Int)) ≤ 100 * (sum : Int) then some (m + 1) else none)
  else (sum, none)

/-- The open listening window of launch `at_` takes the edge. -/
def putEdge (x : PipeSt) (at_ edge : Nat) : PipeSt :=
  { x with listen := x.listen.map (fun l => if l.at_ = at_ then { l with edge := edge } else l) }

/-- One bin of window `w`, the head of the pipe's windows. -/
def oneBin (n s : Nat) (cs : List (Int × Int)) (acc : Dev × PipeWin × List BinS) : Dev × PipeWin × List BinS :=
  let (d, w, out) := acc
  let p := pgSlot n s
  let x := pipe d n s
  let m := w.done
  let xs := w.xs.take w.launch.taps
  let accs := correlate cs xs
  let raw := accs.map (fun a => rne a.1 (2 ^ w.shift))
  let accSat := accs.any (·.2)
  let outSat := raw.any (fun v => sat24 v != v)
  let z (i : Nat) : Int := sat24 (raw.getD i 0)
  let th := Store.get x.theta 0 m
  let (ph, amp) := combine w.polMode th (z 0) (z 1) (z 2) (z 3)
  let marks := xs.foldl (fun k a => k ||| a.marks) (ownMarks d n s w m (accSat || outSat))
  let (sum, edge) := blockOf d n w.blkSum m amp
  let x := if w.polMode = 0 then
      { x with theta := Store.set x.theta 0 m (thetaNext th (min 10 w.polK) (z 0) (z 1) (z 2) (z 3)) }
    else x
  let x := match edge with
    | some e => putEdge x w.launch.at_ e
    | none => x
  let d := raiseOn d p 9 (x.satLast || w.satSeen) (accSat || outSat)
  let d := countBin (setPipe d n s x) n s accSat outSat (marks % 2 == 1) (isTail w m)
  let w := { w with xs := w.xs.drop 1, done := m + 1, satSeen := w.satSeen || accSat || outSat, blkSum := sum }
  (d, w, out ++ [⟨m, ph, amp, marks⟩])

/-! ## Hand-off (R150) -/

/-- The bits of a combined sample of pipe `s` (R150). -/
def binWord (s : Nat) (b : BinS) : Nat :=
  ux 24 b.phase + b.amp * 2 ^ 24 + b.marks % 64 * 2 ^ 40 + s % 2 * 2 ^ 46 + b.bin % 65536 * 2 ^ 48

/-- The combined sample that its bits give. -/
def wordBin (w : Nat) : BinS := ⟨bits w 48 16, sx 24 (bits w 0 24), bits w 24 16, bits w 40 6⟩

/-- The 256 bits of a word of up to four bins of pipe `s`; past the last bin of a launch, the `k`-th sample runs on with values
the spec does not state.
(Log: 241 DESIGN CHOICE.) -/
def binsWord (s : Nat) (l : List BinS) : Nat :=
  let last := (l.getLast?.map (·.bin)).getD 0
  (List.range 4).foldl (fun a q =>
    let b : BinS := match l[q]? with
      | some b => b
      | none =>
        let m := last + 1 + q - l.length
        let v := Config.fillSample m
        ⟨m, sx 24 v, v / 2 ^ 24 % 2 ^ 16, v / 2 ^ 40 % 64⟩
    a + binWord s b * 2 ^ (64 * q)) 0

/-- The 256 bits of a launch word. -/
def launchWord (l : Launch) : Nat :=
  l.slot + b2n l.stale * 2 ^ 43 + b2n l.cal * 2 ^ 44 + b2n l.skipped * 2 ^ 45 + l.slot % 2 * 2 ^ 46 + 2 ^ 47 +
    l.at_ % 2 ^ 64 * 2 ^ 64 + l.plan % 2 ^ 32 * 2 ^ 128 + l.shot % 2 ^ 32 * 2 ^ 160 + l.bins % 2 ^ 19 * 2 ^ 192 +
    l.taps % 2 ^ 11 * 2 ^ 211 + l.rate % 4 * 2 ^ 222

/-- The launch that the bits of a launch word give. -/
def wordLaunch (w : Nat) : Launch :=
  { slot := bits w 0 3, at_ := bits w 64 64, plan := bits w 128 32, shot := bits w 160 32, bins := bits w 192 19,
    taps := bits w 211 11, rate := bits w 222 2, skipped := bit w 45, stale := bit w 43, cal := bit w 44 }

/-- The FIFO of depth 8 from Pipe cluster `k` of line `n` to its Frame cluster (R19).
(Log: 244 DESIGN CHOICE.) -/
def toFrame (d : Dev) (n k : Nat) : List Nat := Store.get d.toFrame [] (4 * n + k)
def setToFrame (d : Dev) (n k : Nat) (l : List Nat) : Dev := { d with toFrame := Store.set d.toFrame [] (4 * n + k) l }

/-- The pipe's cluster holds no credit: it stalls (R19, R24). -/
def frameFull (d : Dev) (n k : Nat) : Bool := decide (8 ≤ (toFrame d n k).length)

/-- A word of pipe `s` enters the FIFO. -/
def sendPipe (d : Dev) (n s w : Nat) : Dev := setToFrame d n (s / 2) (toFrame d n (s / 2) ++ [w])

/-- Up to four bins make one word, where a credit is held (R150). -/
def oneWord (n s : Nat) (cs : List (Int × Int)) (acc : Dev × PipeWin) : Dev × PipeWin :=
  let (d, w) := acc
  let left := w.launch.bins - w.done
  let k := min 4 left
  if k = 0 ∨ w.xs.length + 1 < w.launch.taps + k ∨ frameFull d n (s / 2) then acc
  else
    let (d, w, out) := (List.range k).foldl (fun a _ => oneBin n s cs a) (d, w, [])
    (sendPipe d n s (binsWord s out), w)

/-- The head window emits its launch word and the words that are ready; once complete it leaves (R134). -/
def emitHead (n s : Nat) (d : Dev) : Dev :=
  let x := pipe d n s
  match x.wins with
  | [] => d
  | w :: r =>
    if !w.lwSent && frameFull d n (s / 2) then d
    else
      let d := if w.lwSent then d else sendPipe d n s (launchWord w.launch)
      let w := { w with lwSent := true }
      if w.launch.skipped then setPipe d n s { pipe d n s with wins := r }
      else
        let cs := tapsOf d n s w.bank w.launch.taps
        let (d, w) := (List.range 32).foldl (fun a _ => oneWord n s cs a) (d, w)
        let x := pipe d n s
        if w.launch.bins ≤ w.done then setPipe d n s { x with wins := r, satLast := w.satSeen }
        else setPipe d n s { x with wins := w :: r }

/-- Pipe `s` emits what it can: its windows in order. -/
def emitPipe (n : Nat) (d : Dev) (s : Nat) : Dev :=
  (List.range (pipe d n s).wins.length).foldl (fun d _ => emitHead n s d) d

/-- Both pipes of Pipe cluster `k` take the x that the conditioned samples now give. -/
def extendPipes (d : Dev) (n k : Nat) : Dev :=
  let c := cond d n k
  [2 * k, 2 * k + 1].foldl (fun d s =>
    let x := pipe d n s
    if x.wins.isEmpty then d else setPipe d n s { x with wins := x.wins.map (extendWin c.hist (condUpTo c)) }) d

/-- A launch instant of slot `s`: the window opens, and its launch word goes out behind the bins of older
windows (R134, R145, R146).
(Log: 44 DEDUCED.) -/
def pipeLaunch (d : Dev) (n s t shot : Nat) (skipped : Bool) : Dev :=
  let p := pgSlot n s
  if pipeRuns d n s then
    let w := windowOf d n s t shot skipped
    let x := pipe d n s
    if skipped then emitPipe n (bump (setPipe d n s { x with wins := x.wins ++ [w] }) p F.SLOT_SKIPS) s
    else
      let tail := isTail w (w.launch.bins - 1)
      let d := setPipe d n s { x with
        wins := x.wins ++ [w], settle := x.settle - 1, tailLast := tail,
        listen := x.listen ++ [⟨t, closeTick w, w.bank, 0⟩] }
      let d := raiseOn d p 11 x.tailLast tail
      emitPipe n (bankShow (bump d p F.SLOT_LAUNCHES) n s) s
  else d

/-! ## Converter words (R24, R115, R116, R144) -/

/-- The sample `a` in a shot's return window (R103): y² of the inputs that cores in use serve.
(Log: 63 DESIGN CHOICE.) -/
def retSample (zeros : List Bool) (a : InS) (r : ShotRec) : ShotRec :=
  let k := a.num / 2
  if r.dim.isNone && decide (r.from_ ≤ k) && decide (k < r.from_ + 4096) then
    let v (i : Nat) (y : Int) : Nat := if zeros.getD i false then 0 else y.natAbs * y.natAbs
    let used := (List.range 4).filter (fun i => !zeros.getD i false)
    { r with pSum := r.pSum + v 0 a.xi + v 1 a.xq + v 2 a.yi + v 3 a.yq, pN := r.pN + used.length }
  else r

/-- The conditioned samples of a word in the return windows of the shots being judged: those of Pipe cluster 0, where S0's pipe
is. -/
def retWord (d : Dev) (n : Nat) (w : ConvW) : Dev :=
  let x := starter d n
  let mine (a : InS) : Bool := decide (w.num ≤ a.num / 2) && decide (a.num / 2 < w.num + 8) && (w.phase == 0 || a.num % 2 == w.phase - 1)
  let l := (cond d n 0).hist.filter mine
  setStarter d n { x with shots := x.shots.map (fun r => l.foldl (fun r a => retSample w.zeros a r) r) }

/-- The word at sample tick `tag` was taken within a native calibration pass (R260). -/
def calGap (d : Dev) (n tag : Nat) : Bool :=
  let x := calSt d n
  (x.run == 1 && decide (5 * x.startAt ≤ tag + 7)) || (decide (5 * x.startAt ≤ tag + 7) && decide (tag < 5 * x.endAt))

/-- The relay channel from the Converter cluster of line `n` to its Pipe cluster `k` (R19, R24).
(Log: 56 DESIGN CHOICE.) -/
def relay (d : Dev) (n k : Nat) : RelaySt := Store.get d.relays RelaySt.reset (4 * n + k)
def setRelay (d : Dev) (n k : Nat) (x : RelaySt) : Dev := { d with relays := Store.set d.relays RelaySt.reset (4 * n + k) x }

/-- The words of phase `ph` that a discard left out before sample tick `upTo` enter one by one, as zeros with GAP (R144). -/
def fillGap (n k ph : Nat) : Nat → Nat → Dev → Dev
  | 0, _, d => d
  | fuel + 1, s, d => fillGap n k ph fuel (s + 8) (extendPipes (setCond d n k (condMissing d n ph s (cond d n k))) n k)

/-- Pipe cluster `k` conditions a word of its FIFO (R116, R144). -/
def takeWord (d : Dev) (n k : Nat) (w : ConvW) : Dev :=
  let d := match condNext (cond d n k) w.phase with
    | some a => if bit w.side 34 then fillGap n k w.phase ((w.num - a) / 8) a d else d
    | none => d
  let d := setCond d n k (condWord d n w (cond d n k))
  extendPipes (onlyIf (k == 0) (fun d => retWord d n w) d) n k

/-- Pipe cluster `k` works: its pipes emit, and it takes words from its FIFO, until it stalls or the FIFO is empty.
(Log: 244 DESIGN CHOICE.) -/
def pumpPipes (n k : Nat) : Nat → Dev → Dev
  | 0, d => d
  | fuel + 1, d =>
    let d := emitPipe n (emitPipe n d (2 * k)) (2 * k + 1)
    if frameFull d n k then d
    else
      let r := relay d n k
      match r.fifo with
      | [] => d
      | w :: l => pumpPipes n k fuel (takeWord (setRelay d n k { r with fifo := l }) n k w)

/-- Pipe cluster `k` of line `n` is in use: a pipe of it runs, or has a window of an earlier plan to finish.
(Log: 242 DEDUCED.) -/
def clusterUsed (d : Dev) (n k : Nat) : Bool :=
  [2 * k, 2 * k + 1].any (fun s => pipeRuns d n s || !(pipe d n s).wins.isEmpty)

/-- A word reaches the relay channel to Pipe cluster `k`: without a credit, or with the region fenced, it is discarded and
counted, and the next one carries GAP (R24, R30).
(Log: 56 DESIGN CHOICE.) -/
def relayPut (d : Dev) (n k : Nat) (w : ConvW) : Dev :=
  let r := relay d n k
  if isFenced d n || decide (8 ≤ r.fifo.length) then setRelay d n k { r with drops := r.drops + 1, gapNext := true }
  else
    let gap := r.gapNext || calGap d n w.num
    setRelay d n k { r with fifo := r.fifo ++ [{ w with side := w.side + b2n gap * 2 ^ 34 }], gapNext := false }

/-- The Converter cluster sends a word to each Pipe cluster in use; those in `halt` do not take it yet.
(Log: 56 DESIGN CHOICE, 242 DEDUCED.) -/
def sendWord (n halt : Nat) (d : Dev) (w : ConvW) : Dev :=
  (List.range 4).foldl (fun d k =>
    if clusterUsed d n k then
      onlyIf (!bit halt k) (fun d => pumpPipes n k 10 d) (relayPut d n k w)
    else d) d

/-- Auto-ranging sees a word pair or word of line `n` in time order: at each sample tick its own cores, then in fine mode the
partner's (R121). -/
def arWord (d : Dev) (n num : Nat) (raw : List Int) (other : Option (List Int)) : Dev :=
  (List.range 8).foldl (fun d i =>
    let d := arTick d n n (num + i) (tickRaws raw i)
    match other with
    | some l => arTick d n (partner n) (num + i) (tickRaws l i)
    | none => d) d

/-- CONVERTER_WORD: the raw codes of eight sample ticks from sample number `num` on of line `n`'s converters (phase 0, or in fine
mode 1 for the 0° and 2 for the 180° samples, which come as a pair) form a word, which reaches the Pipe clusters in use. `halt`
is the mask of the Pipe clusters that are halted now.
(Log: 56 DESIGN CHOICE, 243 DESIGN CHOICE.) -/
def doConverterWord (t n num ph halt : Nat) (raw : List Int) (d : Dev) : Dev :=
  let d := clipRun (advance d t) n (max d.ticks t)
  let st := lineState d n
  if st = 0 ∨ st = 6 ∨ !clusterUp d n 0 then d
  else if ph = 0 then
    let d := arWord d n num raw none
    sendWord n halt d (wordOf32 d n 0 num raw)
  else if ph = 1 then setRx d n { rx d n with half := some (num, raw) }
  else
    match (rx d n).half with
    | some h =>
      if h.1 = num ∧ clusterUp d (partner n) 0 then
        let d := arWord (setRx d n { rx d n with half := none }) n num h.2 (some raw)
        let a := wordOf32 d n 1 num h.2
        let b := wordOf32 d n 2 num raw
        sendWord n halt (sendWord n halt d a) b
      else d
    | none => d

def execConverterWord (t ln num phase halt : Nat) (raw : List Int) (s : State) :
    Host.Outcome State Fault Refusal :=
  act (decide (ln < 12) && decide (phase < 3) && decide (halt < 16) && rawFits num raw) s
    (doConverterWord t ln num phase halt raw)

end Sys2Proof.Machine
end

