-- ==== Sys2Proof/Machine/Starter.lean ====
section
/-! DEFINITION. The Starter: waveforms, gates, LEVEL, the open-load diagnosis, the probe-loss check, the end of
backscatter, SAFE and launch splits (R90–R110), and the line state that STATUS shows (R63, R64). -/

namespace Sys2Proof.Machine

open Sys2Proof

/-- The SAFE condition of line `n` (R106).
(Log: 64 DEDUCED.) -/
def safeCond (d : Dev) (n : Nat) : Bool := flagR d (pgLine n) F.LINE_SAFE_COND

/-! ## The state shown (R63, R64) -/

/-- The state of the first of CAL, PAUSED and SAFE that applies. -/
def stateCode (d : Dev) (n : Nat) : Nat :=
  let x := line d n
  if x.base = 0 ∨ x.base = 6 then x.base
  else if x.cal then 3
  else if x.paused then 5
  else if safeCond d n then 4
  else x.base

/-- STARTER.STATUS.STATE: 0 IDLE, 1 ACTIVE, 2 SAFE_PROBE (R110). -/
def starterCode (st : Nat) : Nat := if st = 1 ∨ st = 2 then 1 else if st = 4 then 2 else 0

/-- The spans in SAFE as the state goes from `was` to `now` (R176); the latest 64 are kept. -/
def safeSpan (d : Dev) (n was now : Nat) : Dev :=
  let x := starter d n
  let l := if now = 4 then x.safeSpans ++ [(d.ticks, none)]
    else if was = 4 then x.safeSpans.map (fun e => (e.1, some (e.2.getD d.ticks))) else x.safeSpans
  setStarter d n { x with safeSpans := l.drop (l.length - 64) }

/-- STATUS follows the line; a change of state raises STATE_CHANGE and makes its Ledger entry with cause
`cause` (R64, R249). -/
def lineShow (d : Dev) (n cause : Nat) : Dev :=
  let p := pgLine n
  let was := lineState d n
  let now := stateCode d n
  let d := setR d p F.LINE_TIMELINE (b2n ((line d n).base == 2))
  if now = was then d
  else
    let d := setR (setR (safeSpan d n was now) p cSTATE now) (pgStarter n) cSTATE (starterCode now)
    let d := ledgerNow (raise d p 12) 0x0101 n (typeCode .line) ([was, now, cause] ++ leBytes 4 (planId d n))
    pipesShow (eligShow d n) n

/-! ## LEVEL (R96, R97) -/

/-- LEVEL_OUT (R96). -/
def levelOf (d : Dev) (n : Nat) : Nat :=
  let l := min (sv d n F.STARTER_LEVEL) (getR d (pgStarter n) F.STARTER_LEVEL_LIMIT)
  if safeCond d n then min l (sv d n F.STARTER_SAFE_LEVEL) else l

/-- LEVEL_OUT takes `v`, at the LEVEL ball.
(Log: 245 DESIGN CHOICE.) -/
def levelPut (d : Dev) (n v : Nat) : Dev :=
  let p := pgStarter n
  if getR d p F.STARTER_LEVEL_OUT = v then d
  else emit (setR d p F.STARTER_LEVEL_OUT v) (.pin (.level n) v)

/-- The limit of R97 at temperature code `t`. -/
def derateLimit (d : Dev) (n : Nat) (t : Int) : Nat :=
  let th := getLS d (pgStarter n) F.STARTER_DERATE_T
  let lo := sv d n F.STARTER_DERATE_MIN
  if t ≤ th then 4095
  else max lo (4095 - (fdiv ((sv d n F.STARTER_DERATE_SLOPE : Int) * (t - th)) 128).toNat)

/-- The derating source has a result of the last 100 ms and is classified OK (R97, R291).
(Log: 66 DEDUCED.) -/
def srcValid (d : Dev) (k : Nat) : Bool :=
  let a := Store.get d.sfeAt 0 k
  flagR d pgSfe (F.SFE_OK k) && a != 0 && decide (d.ticks < a + msT 100)

/-- At a slot-0 instant the Starter reads its temperature source and sets LEVEL_LIMIT (R97). -/
def derate (d : Dev) (n : Nat) : Dev :=
  let p := pgStarter n
  let on := flagL d p F.STARTER_DERATE_EN
  let k := sv d n F.STARTER_TEMP_SRC
  let bad := on && !srcValid d k
  let lim := if !on then 4095 else if bad then sv d n F.STARTER_DERATE_MIN
    else derateLimit d n (getS d pgSfe (F.SFE_TEMP k))
  let d := raiseOn d p 16 (flagR d p F.STARTER_SRC_INVALID) bad
  let d := setR (setR d p F.STARTER_SRC_INVALID (b2n bad)) p F.STARTER_LEVEL_LIMIT lim
  let was := flagR d p F.STARTER_DERATING
  let now := decide (lim < sv d n F.STARTER_LEVEL)
  let d := onlyIf (now && !was) (fun d => bump d p F.STARTER_DERATE_ENTRIES) d
  setR (raiseOn d p 14 was now) p F.STARTER_DERATING (b2n now)

/-! ## SAFE (R105–R107) -/

/-- The reference in use: END_REF with END_LEARN = 0, else the learned one (R105). -/
def endRef (d : Dev) (n : Nat) : Option Nat :=
  if flagL d (pgStarter n) F.STARTER_END_LEARN then (starter d n).refLearn
  else if sv d n F.STARTER_END_REF = 0 then none else some (sv d n F.STARTER_END_REF)

/-- END_REF_USED and END_VALID follow the reference. -/
def refShow (d : Dev) (n : Nat) : Dev :=
  let p := pgStarter n
  let d := setR d p F.STARTER_END_REF_USED ((endRef d n).getD 0)
  setR d p F.STARTER_END_VALID (b2n (endRef d n).isSome)

/-- An output still to come on pin `p` is withheld from half nanosecond `b` on: a pulse that has begun ends there, one that has
not is not given. -/
def holdBack (p : Pin) (b : Int) (o : Output) : Option Output :=
  match o with
  | .pulse q s l =>
    if q ≠ p ∨ s + (l : Int) ≤ b then some o else if b ≤ s then none else some (.pulse q s (b - s).toNat)
  | o => some o

/-- Pin `p` gives no pulse from now on. -/
def pinHold (d : Dev) (p : Pin) : Dev := { d with out := d.out.filterMap (holdBack p ((20 * d.ticks : Nat) : Int)) }

/-- TGATE is held inactive: a pulse that has not begun is withheld, and its shot has none (R94, R106). -/
def tgateHold (d : Dev) (n : Nat) : Dev :=
  let due := (starter d n).tgLast.any (fun t =>
    d.out.any (fun o => match o with
      | .pulse q s _ => q == .tgate n && s == ((20 * t : Nat) : Int) + getLS d (pgStarter n) F.STARTER_TG_OFFSET &&
          decide (((20 * d.ticks : Nat) : Int) ≤ s)
      | _ => false))
  pinHold (onlyIf due (fun d => setStarter d n { starter d n with tgLast := none }) d) (.tgate n)

/-- The level at which PGATE (`pg`) or TGATE of line `n` is inactive (R95). -/
def gateIdle (d : Dev) (n : Nat) (pg : Bool) : Nat := sv d n (if pg then F.STARTER_PGATE_POL else F.STARTER_TGATE_POL)

/-- Both gates of line `n` are driven inactive from now on. -/
def gatesIdle (d : Dev) (n : Nat) : Dev :=
  let d := pinHold (tgateHold d n) (.pgate n)
  emit (emit d (.pin (.pgate n) (gateIdle d n true))) (.pin (.tgate n) (gateIdle d n false))

/-- The Starter cluster of line `n` loses its power: its gates are at high impedance, and its unit's state is gone (R95). -/
def gatesOff (d : Dev) (n : Nat) : Dev :=
  let d := pinHold (tgateHold d n) (.pgate n)
  let d := emit (emit d (.pin (.pgate n) 2)) (.pin (.tgate n) 2)
  setStarter d n { starter d n with driven := false }

/-- The causes of an entry to SAFE (R106): bit 0 BREAK, 1 LOSS, 2 HOLD. The condition is set, LEVEL_OUT falls
and the line shows SAFE, unless CAL or PAUSED holds. -/
def safeEnter (d : Dev) (n causes : Nat) : Dev :=
  let p := pgStarter n
  if safeCond d n ∨ causes = 0 then d
  else
    let d := setR d (pgLine n) F.LINE_SAFE_COND 1
    let d := raise (bump d p F.STARTER_SAFE_ENTRIES) p 12
    let d := ledgerNow d 0x0111 n (typeCode .starter)
      (causes :: leBytes 4 (getR d p F.STARTER_END_NOW) ++ leBytes 4 (getR d p F.STARTER_END_REF_USED))
    let d := onlyIf (bit causes 0) (fun d => latchTerm d n 17 (tai d)) d
    let d := setStarter d n { starter d n with goodFrom := none, goodN := 0 }
    let d := levelPut d n (min (getR d p F.STARTER_LEVEL_OUT) (sv d n F.STARTER_SAFE_LEVEL))
    lineShow (tgateHold d n) n 4

/-- The condition clears: the line returns to the state it left and LEVEL_OUT to its normal value (R107). -/
def safeLeave (d : Dev) (n : Nat) : Dev :=
  let p := pgStarter n
  let d := setR d (pgLine n) F.LINE_SAFE_COND 0
  let d := setStarter d n { starter d n with goodFrom := none, goodN := 0 }
  lineShow (raise d p 13) n 4

/-- At a slot-0 instant the line leaves SAFE with SAFE_HOLD live at 0 and a run of at least two good probe
shots that began at least 2 s earlier (R107). -/
def safeExit (d : Dev) (n : Nat) : Dev :=
  let x := starter d n
  match x.goodFrom with
  | some a =>
    if lineState d n = 4 ∧ sv d n F.STARTER_SAFE_HOLD = 0 ∧ 2 ≤ x.goodN ∧ a + sT 2 ≤ d.ticks then safeLeave d n else d
  | none => d

/-! ## Judging a shot (R103–R107) -/

/-- E is not above the reference less BREAK_MIN (R106). -/
def isBreak (d : Dev) (n e : Nat) : Bool :=
  match endRef d n with
  | some r => decide (e + sv d n F.STARTER_BREAK_MIN < r)
  | none => false

/-- An evaluated shot joins the collection of R105. -/
def collect (d : Dev) (n e : Nat) : Dev :=
  let x := starter d n
  let clean := !safeCond d n && !flagR d (pgStarter n) F.STARTER_PROBE_LOSS && x.breakRun == 0
  setStarter d n { x with colN := x.colN + 1, colE := max x.colE e, colClean := x.colClean && clean }

/-- A shot that is not dim is judged by its E (R104–R106). -/
def judgeEnd (d : Dev) (n e : Nat) : Dev :=
  let p := pgStarter n
  let d := setR d p F.STARTER_END_NOW e
  let brk := isBreak d n e
  let run := if brk then (starter d n).breakRun + 1 else 0
  let d := setR (setStarter d n { starter d n with breakRun := run }) p F.STARTER_BREAK_RUN (b2n brk)
  let d := collect d n e
  if 8 ≤ run then safeEnter d n 1 else d

/-- A probe shot counts toward leaving SAFE (R107). -/
def judgeProbe (d : Dev) (n : Nat) (r : ShotRec) (good : Bool) : Dev :=
  let x := starter d n
  if !safeCond d n ∨ !r.probe then d
  else if good then
    setStarter d n { x with goodFrom := some (x.goodFrom.getD r.at_), goodN := x.goodN + 1 }
  else setStarter d n { x with goodFrom := none, goodN := 0 }

/-- The oldest shots whose return power and E are both known are judged, in order. -/
def judgeHead (n : Nat) (d : Dev) : Dev :=
  let x := starter d n
  match x.shots with
  | [] => d
  | r :: l =>
    match r.dim, r.e with
    | some dim, some e =>
      let d := setStarter d n { x with shots := l }
      let good := !dim && !isBreak d n e
      judgeProbe (if dim then d else judgeEnd d n e) n r good
    | _, _ => d

/-- The first of the shots that `p` holds of takes the change `f`. -/
def firstShot (p : ShotRec → Bool) (f : ShotRec → ShotRec) : List ShotRec → List ShotRec
  | [] => []
  | r :: l => if p r then f r :: l else r :: firstShot p f l

/-- The code c of a power `num / den` of full scale in −0.25 dB steps, rounded to nearest: the least c ≤ 255
with (num / den)^80 × 10^(2c + 1) > 1, and 256 below them all (R103).
(Log: 62 DEDUCED, 63 DESIGN CHOICE.) -/
def dbCode (num den : Nat) : Nat :=
  if num = 0 then 256
  else ((List.range 256).find? (fun c => decide (den ^ 80 < num ^ 80 * 10 ^ (2 * c + 1)))).getD 256

/-- The run of dim or not-dim shots toward the next change of PROBE_LOSS (R103).
(Log: 62 DEDUCED, 63 DESIGN CHOICE, 64 DEDUCED.) -/
def dimRun (d : Dev) (n : Nat) (dim : Bool) : Dev :=
  let p := pgStarter n
  let loss := flagR d p F.STARTER_PROBE_LOSS
  let run := if dim == loss then 0 else getR d p F.STARTER_DIM_RUN + 1
  if run < 16 then setR d p F.STARTER_DIM_RUN run
  else
    let d := setR d p F.STARTER_DIM_RUN 0
    if loss then raise (setR d p F.STARTER_PROBE_LOSS 0) p 11
    else
      let d := bump (raise (setR d p F.STARTER_PROBE_LOSS 1) p 10) p F.STARTER_LOSS_ENTRIES
      if flagL d p F.STARTER_LOSS_SAFE then safeEnter d n 2 else d

/-- RETURN_POWER_WINDOW: the return power window of the oldest S0 launch that has none yet ends (R103). 0 dBFS
is a component of 8,192 raw LSB.
(Log: 62 DEDUCED, 63 DESIGN CHOICE.) -/
def doReturnPower (t n : Nat) (d : Dev) : Dev :=
  let d := advance d t
  match (starter d n).shots.find? (fun r => r.dim.isNone) with
  | none => d
  | some r =>
    let c := dbCode r.pSum (r.pN * 1073741824)
    let dim := decide (sv d n F.STARTER_LOSS_FLOOR < c)
    let d := setR d (pgStarter n) F.STARTER_RETURN_P (min 255 c)
    let x := starter d n
    let d := setStarter d n { x with shots := firstShot (fun r => r.dim.isNone) (fun r => { r with dim := some dim }) x.shots }
    judgeHead n (dimRun d n dim)

def execReturnPowerWindow (t ln : Nat) (s : State) : Host.Outcome State Fault Refusal :=
  act (decide (ln < 12)) s (doReturnPower t ln)

/-- `bins` bins along the fibre, in whole metres, ties to even (R104). -/
def binsToM (gi rate bins : Nat) : Nat :=
  if gi = 0 then 0 else (rne ((bins * cLight * 2 ^ 28 : Nat) : Int) (2 * gi * rateHz rate)).toNat

/-- LISTEN_WINDOW_CLOSE: the oldest listening window of slot `s` closes: its bank may stop (R139), and
S0's gives the shot's E (R104).
(Log: 65 DESIGN CHOICE.) -/
def doListenClose (t n s : Nat) (d : Dev) : Dev :=
  let x := pipe d n s
  match x.listen with
  | [] => advance d t
  | w :: r =>
    let d := advance d (max t w.closeAt)
    let d := clipRun (bankShow (setPipe d n s { x with listen := r }) n s) n d.ticks
    if s = 0 then
      let e := binsToM (lv d n F.LINE_GROUP_INDEX) (rateCode d n) w.edge
      let y := starter d n
      judgeHead n (setStarter d n { y with shots := firstShot (fun r => r.e.isNone) (fun r => { r with e := some e }) y.shots })
    else d

def execListenWindowClose (t ln slot : Nat) (s : State) : Host.Outcome State Fault Refusal :=
  act (decide (ln < 12) && decide (slot < 8)) s (doListenClose t ln slot)

/-- At a plan boundary a collection of at least 64 evaluated shots ends (R105). -/
def refBoundary (d : Dev) (n : Nat) : Dev :=
  let x := starter d n
  if flagL d (pgStarter n) F.STARTER_END_LEARN && decide (64 ≤ x.colN) then
    let ref := if x.colClean then some x.colE else x.refLearn
    refShow (setStarter d n { x with refLearn := ref, colN := 0, colE := 0, colClean := true }) n
  else d

/-! ## Open-load diagnosis (R98–R102) -/

/-- The accumulation and FAIL_RUN clear (R100). -/
def diagClear (d : Dev) (n : Nat) : Dev :=
  let d := setStarter d n { starter d n with accN := 0, accQ := 0, accE := 0, accHigh := false, accSmall := false }
  setR d (pgStarter n) F.STARTER_FAIL_RUN 0

/-- A FAIL verdict, with the declaration of PROBE_OPEN (R99).
(Log: 61 DESIGN CHOICE.) -/
def failVerdict (d : Dev) (n e : Nat) : Dev :=
  let p := pgStarter n
  let run := min 15 (getR d p F.STARTER_FAIL_RUN + 1)
  let d := bump (setR d p F.STARTER_FAIL_RUN run) p F.STARTER_VERDICTS_FAIL
  if clampN 1 8 (sv d n F.STARTER_CONFIRM) ≤ run ∧ getR d p F.STARTER_PROBE_OPEN = 0 then
    let d := bump (raise (setR d p F.STARTER_PROBE_OPEN 1) p 8) p F.STARTER_PROBE_OPENS
    ledgerNow d 0x0110 n (typeCode .starter)
      (leBytes 2 (getR d p F.STARTER_LAST_Q) ++ leBytes 2 e ++ [sv d n F.STARTER_CONFIRM])
  else d

/-- An OK verdict (R99). -/
def okVerdict (d : Dev) (n : Nat) : Dev :=
  let p := pgStarter n
  let d := bump (setR d p F.STARTER_FAIL_RUN 0) p F.STARTER_VERDICTS_OK
  if flagR d p F.STARTER_PROBE_OPEN then raise (setR d p F.STARTER_PROBE_OPEN 0) p 9 else d

/-- The verdict at 64 pulses (R99).
(Log: 60 DEDUCED, 61 DESIGN CHOICE.) -/
def verdict (d : Dev) (n e : Nat) : Dev :=
  let p := pgStarter n
  let x := starter d n
  let frac := sv d n F.STARTER_OPEN_FRAC
  let v := if x.accSmall then 3 else if x.accQ * 256 < x.accE * frac then 2 else 1
  let d := setR (setR d p F.STARTER_LAST_Q (x.accQ / 64)) p F.STARTER_LAST_VERDICT v
  let d := setR d p F.STARTER_LAST_UNDECIDED (b2n (v == 3))
  let d := setStarter d n { x with accN := 0, accQ := 0, accE := 0, accHigh := false, accSmall := false }
  if v = 3 then bump d p F.STARTER_VERDICTS_UNDECIDED
  else if v = 2 then failVerdict d n e
  else okVerdict d n

/-- A pulse of charge `q` and expected charge `e` joins the accumulation (R98, R99).
(Log: 60 DEDUCED.) -/
def diagPulse (d : Dev) (n q e : Nat) : Dev :=
  let x := starter d n
  let low := decide (q * 256 < e * sv d n F.STARTER_OPEN_FRAC)
  let restart := low && x.accHigh
  let d := onlyIf restart (fun d => bump d (pgStarter n) F.STARTER_DIAG_RESTARTS) d
  let x := if restart then { x with accN := 0, accQ := 0, accE := 0, accHigh := false, accSmall := false } else x
  let d := setStarter d n { x with accN := x.accN + 1, accQ := x.accQ + q, accE := x.accE + e,
                                   accHigh := x.accHigh || !low, accSmall := x.accSmall || decide (e < 200) }
  if 64 ≤ (starter d n).accN then verdict d n e else d

/-- PSENSE_WINDOW_END: the window of the oldest PGATE pulse ends with charge `q` in 0.1 V·ns (R98).
(Log: 229 DESIGN CHOICE.) -/
def doPsense (t n q : Nat) (d : Dev) : Dev :=
  let d := advance d t
  let x := starter d n
  match x.windows with
  | [] => d
  | e :: r =>
    let d := setStarter d n { x with windows := r }
    if flagL d (pgStarter n) F.STARTER_DIAG_EN then diagPulse d n (min q 65535) e else d

def execPsenseWindowEnd (t ln q : Nat) (s : State) : Host.Outcome State Fault Refusal :=
  act (decide (ln < 12)) s (doPsense t ln q)

/-! ## Waveforms (R90–R92) -/

/-- The waveform of slot `s` launched at tick `t` (R90). -/
def waveOf (d : Dev) (n s t : Nat) : Wave :=
  { start := 20 * t, samples := sv d n (F.STARTER_DURATION s), shape := sv d n (F.STARTER_SHAPE s),
    freq := getLS d (pgLine n) (F.LINE_FREQ s), bw := sv d n (F.STARTER_CHIRP_BW s),
    amp := sv d n (F.STARTER_AMP s) }

/-- The synthesiser starts the slot's waveform (R90). -/
def launchWave (d : Dev) (n s t : Nat) : Dev :=
  let d := clipRun d n t
  let w := waveOf d n s t
  let d := emit d (.pulse (.dac n) (w.start : Int) w.samples)
  let x := starter d n
  setStarter d n { x with waves := x.waves ++ [w], clipFrom := max x.clipFrom w.start }

/-! ## Gates (R93–R95) -/

/-- The gates of line `n` are driven (R95). -/
def gatesOn (d : Dev) (n : Nat) : Bool := (starter d n).driven && !d.gatesHeld

/-- A PGATE pulse from `open_` to `close` in half nanoseconds, with expected charge at LEVEL_OUT `lvl`; a pulse
less than 10 ns after the previous one merges with it (R93, R98).
(Log: 59 DESIGN CHOICE.) -/
def pgate (d : Dev) (n : Nat) (open_ close : Int) (lvl : Nat) : Dev :=
  let x := starter d n
  if !gatesOn d n then d
  else if x.gateEnd ≠ 0 ∧ open_ < (x.gateEnd : Int) + 20 then
    let d := onlyIf (decide ((x.gateEnd : Int) < close))
      (fun d => emit d (.pulse (.pgate n) (x.gateEnd : Int) (close - (x.gateEnd : Int)).toNat)) d
    setStarter d n { x with gateEnd := max x.gateEnd close.toNat }
  else
    let d := emit d (.pulse (.pgate n) open_ (close - open_).toNat)
    let e := sv d n F.STARTER_Q_EXP * lvl / 4095
    bump (setStarter d n { x with gateEnd := close.toNat, windows := x.windows ++ [e] }) (pgStarter n) F.STARTER_PULSES

/-- The longest DURATION among the enabled slots. -/
def longest (d : Dev) (n : Nat) : Nat :=
  (List.range (slotsN d n)).foldl (fun m s => max m (sv d n (F.STARTER_DURATION s))) 0

/-- The PGATE pulse of a launch of slot `s` at tick `t`: each slot's own in RATE mode, one for all in
DIVERSITY mode (R93). -/
def gateLaunch (d : Dev) (n s t : Nat) : Dev :=
  let div := flagL d (pgLine n) F.LINE_MODE
  if div && decide (0 < s) then d
  else
    let o := (20 * t : Nat) + getLS d (pgStarter n) F.STARTER_OFFSET
    let len := if div then longest d n else sv d n (F.STARTER_DURATION s)
    let open_ := o - (sv d n F.STARTER_LEAD : Int)
    let lvl := if open_ < ((20 * t : Nat) : Int) ∧ s = 0 then (starter d n).levelPrev
      else getR d (pgStarter n) F.STARTER_LEVEL_OUT
    pgate d n open_ (o + (len : Int) + (sv d n F.STARTER_TAIL : Int)) lvl

/-- The TGATE pulse of a shot with slot-0 launch at tick `t` (R94). -/
def tgate (d : Dev) (n t : Nat) : Dev :=
  if flagL d (pgStarter n) F.STARTER_TGATE_EN && lineState d n != 4 && gatesOn d n then
    let d := emit d (.pulse (.tgate n) ((20 * t : Nat) + getLS d (pgStarter n) F.STARTER_TG_OFFSET)
      (max 1 (sv d n F.STARTER_TG_WIDTH)))
    setStarter d n { starter d n with tgLast := some t }
  else d

/-- The Starter launches slot `s` at tick `t`: waveform, PGATE, and for S0 TGATE and the shot to be judged. -/
def starterLaunch (d : Dev) (n s t : Nat) : Dev :=
  let d := gateLaunch (launchWave d n s t) n s t
  if s = 0 then
    let d := tgate d n t
    let x := starter d n
    let r : ShotRec := { dim := none, e := none, probe := lineState d n == 4, at_ := t,
                         from_ := 5 * t + sv d n F.STARTER_LOSS_DELAY, pSum := 0, pN := 0 }
    setStarter d n { x with shots := x.shots ++ [r] }
  else d

/-! ## Slot-0 instants and configuration (R96, R100, R105, R106, R109) -/

/-- LEVEL at a slot-0 launch instant (R96, R97), and the clipping of the shot before.
(Log: 246 DESIGN CHOICE.) -/
def starterSlot0 (d : Dev) (n : Nat) : Dev :=
  let d := clipRun (derate d n) n d.ticks
  let x := starter d n
  let d := setStarter d n { x with clipPrev := x.clipShot, clipShot := false }
  levelPut d n (levelOf d n)

/-- The LEVEL code in force as a slot-0 instant comes is kept for the gates that have opened before it (R98). -/
def levelKeep (d : Dev) (n : Nat) : Dev :=
  setStarter d n { starter d n with levelPrev := getR d (pgStarter n) F.STARTER_LEVEL_OUT }

/-- What a change of the live configuration from that of `d0` does, SAFE apart (R95, R100, R105). -/
def starterConfig (d0 d : Dev) (n : Nat) : Dev :=
  let p := pgStarter n
  let ch (f : Fld) : Bool := getL d0 p f != getL d p f
  let diag := [F.STARTER_LEAD, F.STARTER_TAIL, F.STARTER_OFFSET, F.STARTER_Q_EXP, F.STARTER_CONFIRM,
    F.STARTER_OPEN_FRAC, F.STARTER_DIAG_EN].any ch
  let d := onlyIf (diag || !flagL d p F.STARTER_DIAG_EN) (fun d => diagClear d n) d
  let d := onlyIf (ch F.STARTER_END_LEARN && flagL d p F.STARTER_END_LEARN) (fun d =>
    setStarter d n { starter d n with refLearn := none, colN := 0, colE := 0, colClean := true }) d
  let pol := (starter d n).driven && (ch F.STARTER_PGATE_POL || ch F.STARTER_TGATE_POL)
  refShow (onlyIf pol (fun d => gatesIdle d n) d) n

/-- The same on a line that runs, where it can be a cause of SAFE (R106).
(Log: 45 DESIGN CHOICE, 64 DEDUCED.) -/
def starterApplied (d0 d : Dev) (n : Nat) : Dev :=
  let p := pgStarter n
  let ch (f : Fld) : Bool := getL d0 p f != getL d p f
  let d := starterConfig d0 d n
  let loss := ch F.STARTER_LOSS_SAFE && flagL d p F.STARTER_LOSS_SAFE && flagR d p F.STARTER_PROBE_LOSS
  let hold := ch F.STARTER_SAFE_HOLD && flagL d p F.STARTER_SAFE_HOLD
  safeEnter d n (2 * b2n loss + 4 * b2n hold)

/-- A launch split of `ps` picoseconds joins the statistics of the plan cycle (R109).
(Log: 67 DESIGN CHOICE.) -/
def splitAdd (d : Dev) (n : Nat) (ps : Int) : Dev :=
  let x := starter d n
  let x := { x with splitN := x.splitN + 1, splitSum := x.splitSum + ps, splitSq := x.splitSq + ps.natAbs * ps.natAbs }
  let p := pgStarter n
  let d := setS (setStarter d n x) p F.STARTER_SPLIT_MEAN (rne x.splitSum x.splitN)
  setR d p F.STARTER_SPLIT_SD
    (isqrt ((x.splitN * x.splitSq - x.splitSum.natAbs * x.splitSum.natAbs) / (x.splitN * x.splitN)))

/-- At a plan boundary the mean split of the cycle just ended is latched (R109).
(Log: 67 DESIGN CHOICE.) -/
def splitLatch (d : Dev) (n : Nat) : Dev :=
  let x := starter d n
  if x.splitN = 0 then d
  else
    let d := setS d (pgStarter n) F.STARTER_SPLIT_USED (rne x.splitSum x.splitN)
    setStarter d n { x with splitN := 0, splitSum := 0, splitSq := 0 }

end Sys2Proof.Machine
end

