-- ==== Sys2Proof/Machine/PhotoFinish.lean ====
section
/-! DEFINITION. The Photo-finish unit: eight channels that measure the time between two edges, and the
calibration of their interpolators (R315–R324). Times are picoseconds from tick 0. -/

namespace Sys2Proof.Machine

open Sys2Proof

/-- Channel `i`. -/
def pfSt (d : Dev) (i : Nat) : PfSt := Store.get d.pfs PfSt.reset i
def setPf (d : Dev) (i : Nat) (x : PfSt) : Dev := { d with pfs := Store.set d.pfs PfSt.reset i x }

/-- The configuration as the registers hold it (R334, R318). -/
def pfCfg (d : Dev) (i : Nat) : PfCfg :=
  let p := pgPf i
  { mode := getR d p F.PF_MODE, srcStart := getR d p F.PF_SRC_START, srcStop := getR d p F.PF_SRC_STOP,
    edgeStart := getR d p F.PF_EDGE_START, edgeStop := getR d p F.PF_EDGE_STOP, line := getR d p F.PF_LINE,
    drop := flagR d p F.PF_AMBIG_DROP, open_ := max (-32767) (getS d p F.PF_OPEN),
    close := (max 1 (getR d p F.PF_CLOSE) : Nat), statN := min 20 (getR d p F.PF_STAT_N) }

/-- The configuration in force: that of the latest start while a measurement runs (R334). -/
def pfNow (d : Dev) (i : Nat) : PfCfg := ((pfSt d i).run.map (·.cfg)).getD (pfCfg d i)

/-- The stop source of a configuration (R315, R318). -/
def pfStopSrc (c : PfCfg) : Nat := if c.mode = 2 then 44 + c.line else c.srcStop

/-- The sample tick that contains the time (R316). -/
def pfTick (p : Int) : Int := p / 2000

/-- The first coarse tick of the window that starts at coarse tick `n`, and the tick after its last (R318). -/
def pfOpen (c : PfCfg) (n : Int) : Int :=
  if c.mode = 1 then n - c.close else if c.mode = 0 then n + max 0 c.open_ else n + c.open_
def pfClose (c : PfCfg) (n : Int) : Int := n + c.close

/-- A stop at `p` lies within 40 ps of a deciding edge (R320).
(Log: 152 DEDUCED.) -/
def pfNear (c : PfCfg) (n p : Int) : Bool :=
  let near (e : Int) : Bool := decide ((p - 2000 * e).natAbs ≤ 40)
  near (pfOpen c n) || near (pfClose c n)

/-- A start at `p` lies within 40 ps of an edge of its coarse tick (R320). -/
def pfStartNear (p : Int) : Bool := decide (p % 2000 ≤ 40) || decide (1960 ≤ p % 2000)

/-- The channel is the lowest-numbered one in SPLIT on its line (R323). -/
def pfFirst (d : Dev) (i : Nat) : Bool :=
  let c := pfCfg d i
  (List.range i).all (fun j => !((pfCfg d j).mode == 2 && (pfCfg d j).line == c.line))

/-- DUPLICATE of every channel follows the configurations (R323). -/
def pfDup (d : Dev) : Dev :=
  (List.range 8).foldl (fun d i =>
    setR d (pgPf i) F.PF_DUPLICATE (b2n ((pfCfg d i).mode == 2 && !pfFirst d i))) d

/-! ## Results (R320–R322) -/

/-- A full block latches its statistics and restarts (R321).
(Log: 153 DEDUCED.) -/
def pfBlock (d : Dev) (i statN : Nat) : Dev :=
  let x := pfSt d i
  if x.n < 2 ^ statN then d
  else
    let p := pgPf i
    let d := setS d p F.PF_MEAN (rne (256 * x.sum) x.n)
    let d := setR d p F.PF_SD (isqrt (256 * (x.n * x.sq - x.sum.natAbs * x.sum.natAbs) / (x.n * x.n)))
    let d := setS (setS d p F.PF_MIN x.mn) p F.PF_MAX x.mx
    raise (bump (setPf d i { x with n := 0, sum := 0, sq := 0 }) p F.PF_BLOCKS) p 8

/-- A result that is not dropped enters the block (R321), and in SPLIT the line's statistics (R322, R323). -/
def pfCount (d : Dev) (i : Nat) (c : PfCfg) (v : Int) (calStale : Bool) : Dev :=
  let x := pfSt d i
  let mn : Int := if x.n = 0 then v else min x.mn v
  let mx : Int := if x.n = 0 then v else max x.mx v
  let d := setPf d i { x with n := x.n + 1, sum := x.sum + v, sq := x.sq + v.natAbs * v.natAbs, mn := mn, mx := mx }
  let d := pfBlock d i c.statN
  onlyIf (c.mode == 2 && !calStale && x.feed == some c.line && pfFirst d i) (fun d => splitAdd d c.line v) d

/-- The measurement ends with the stop at `p` (R318, R320). -/
def pfResult (d : Dev) (i : Nat) (r : PfRun) (p : Int) (inner : Bool) : Dev :=
  let q := pgPf i
  let v := p - r.at_
  let amb := r.ambig || (!inner && pfNear r.cfg (pfTick r.at_) p)
  let was := flagR d q F.PF_AMBIG
  let stale := pageCal d q
  let d := setR (setR (setS d q F.PF_LAST v) q F.PF_AMBIG (b2n amb)) q F.PF_LAST_CAL_STALE (b2n stale)
  let d := bump (setPf d i { pfSt d i with run := none, best := none, early := [] }) q F.PF_RESULTS
  let d := onlyIf amb (fun d => raiseOn (bump d q F.PF_AMBIGS) q 9 was true) (setR d q cSTATE 1)
  if amb && r.cfg.drop then d else pfCount d i r.cfg v stale

/-- The window closes: a BIPOLAR result, or a timeout (R318, R319). -/
def pfEnd (d : Dev) (i : Nat) (r : PfRun) : Dev :=
  let x := pfSt d i
  let d := setPf d i { x with closed := some (pfClose r.cfg (pfTick r.at_)) }
  match x.best with
  | some (p, inner) => pfResult d i r p inner
  | none =>
    let d := setPf d i { pfSt d i with run := none, early := [] }
    raise (bump (setR d (pgPf i) cSTATE 1) (pgPf i) F.PF_TIMEOUTS) (pgPf i) 11

/-! ## Edges (R318, R319) -/

/-- A stop out of order (R319).
(Log: 152 DEDUCED.) -/
def pfOrder (d : Dev) (i : Nat) : Dev := raise (bump d (pgPf i) F.PF_ORDER) (pgPf i) 10

/-- A stop at `p` while measurement `r` runs.
(Log: 153 DEDUCED.) -/
def pfStopIn (d : Dev) (i : Nat) (r : PfRun) (p : Int) (inner : Bool) : Dev :=
  let n := pfTick p
  let n0 := pfTick r.at_
  let o := pfOpen r.cfg n0
  if r.cfg.mode = 1 then
    if n < o then pfOrder d i
    else
      let x := pfSt d i
      let better : Bool := match x.best with
        | none => true
        | some (b, _) =>
          decide ((p - r.at_).natAbs < (b - r.at_).natAbs) || (decide ((p - r.at_).natAbs = (b - r.at_).natAbs) && decide (p < b))
      if better then setPf d i { x with best := some (p, inner) } else d
  else if p < r.at_ ∧ (r.cfg.mode ≠ 2 ∨ 0 ≤ r.cfg.open_) then pfOrder d i
  else if n < o then bump d (pgPf i) F.PF_EARLY
  else pfResult d i r p inner

/-- A stop edge at `p` (R318, R319). A channel that may accept stops before its start keeps them. -/
def pfStop (d : Dev) (i : Nat) (p : Int) (inner : Bool) : Dev :=
  let x := pfSt d i
  let c := pfNow d i
  match x.run with
  | some r => pfStopIn d i r p inner
  | none =>
    if x.closed = some (pfTick p) then bump d (pgPf i) F.PF_LATE
    else if (c.mode = 1 ∧ getR d (pgPf i) cSTATE = 1) ∨ (c.mode = 2 ∧ c.open_ < 0) then
      setPf d i { x with early := x.early ++ [(p, inner)] }
    else pfOrder d i

/-- The stops kept from before the start are judged in their order (R318, R319).
(Log: 152 DEDUCED.) -/
def pfEarly (d : Dev) (i : Nat) (l : List (Int × Bool)) : Dev :=
  l.foldl (fun d e => match (pfSt d i).run with
    | some r => pfStopIn d i r e.1 e.2
    | none => pfOrder d i) d

/-- A start at `p` (R318).
(Log: 152 DEDUCED.) -/
def pfStart (d : Dev) (i : Nat) (p : Int) (inner : Bool) : Dev :=
  let x := pfSt d i
  let q := pgPf i
  match x.run with
  | some _ => bump d q F.PF_START_BUSY
  | none =>
    let r : PfRun := ⟨pfCfg d i, p, !inner && pfStartNear p⟩
    pfEarly (setR (setPf d i { x with run := some r, best := none, early := [], closed := none }) q cSTATE 2) i x.early

/-- The instant of a STAMP (R318).
(Log: 154 DEDUCED.) -/
def pfStamp (d : Dev) (i : Nat) (p : Int) : Dev :=
  let q := pgPf i
  let x := d.time.base + rne (8192 * p) 125
  bump (setR (setR (setR d q F.PF_STAMP_S (taiSec x % 2 ^ 32)) q F.PF_STAMP_NS (taiNs x)) q F.PF_STAMP_SUB (taiSub x))
    q F.PF_RESULTS

/-- A window that has run out by time `p` closes first.
(Log: 153 DEDUCED.) -/
def pfExpire (d : Dev) (i : Nat) (p : Int) : Dev :=
  match (pfSt d i).run with
  | some r => if pfClose r.cfg (pfTick r.at_) ≤ pfTick p then pfEnd d i r else d
  | none => d

/-- An edge of the start source. In INTERVAL and BIPOLAR it needs the channel armed; STAMP takes every edge. -/
def pfStartEdge (d : Dev) (i : Nat) (p : Int) (inner : Bool) : Dev :=
  let st := getR d (pgPf i) cSTATE
  if st = 0 then d
  else if (pfNow d i).mode = 3 then pfStamp d i p
  else pfStart d i p inner

/-- An edge of the stop source; an IDLE channel takes none, but in SPLIT it arms itself. -/
def pfStopEdge (d : Dev) (i : Nat) (p : Int) (inner : Bool) : Dev :=
  let m := (pfNow d i).mode
  if m = 3 ∨ (getR d (pgPf i) cSTATE = 0 ∧ m ≠ 2) then d else pfStop d i p inner

/-- An internal edge of source `src`, on the present tick (R315).
(Log: 154 DEDUCED.) -/
def pfInternal (d : Dev) (src : Nat) : Dev :=
  let p : Int := 10000 * (d.ticks : Int)
  (List.range 8).foldl (fun d i =>
    let d := pfExpire d i p
    let c := pfNow d i
    let d := onlyIf (c.mode != 2 && c.srcStart == src) (fun d => pfStartEdge d i p true) d
    onlyIf (pfStopSrc c == src) (fun d => pfStopEdge d i p true) d) d

/-- The slot-0 launch instant of line `n`; `launched`: S0 launches at it (R318).
(Log: 154 DEDUCED.) -/
def pfSlot0 (d : Dev) (n : Nat) (launched : Bool) : Dev :=
  let p : Int := 10000 * (d.ticks : Int)
  let d := pfInternal d (32 + n)
  if !launched then d
  else
    (List.range 8).foldl (fun d i =>
      let d := pfExpire d i p
      onlyIf ((pfNow d i).mode == 2 && (pfNow d i).line == n) (fun d => pfStart d i p true) d) d

/-- At a plan boundary of line `n` the channels set to its split feed it from now on (R322).
(Log: 154 DEDUCED.) -/
def pfBoundary (d : Dev) (n : Nat) : Dev :=
  (List.range 8).foldl (fun d i =>
    let c := pfCfg d i
    if c.mode = 2 ∧ c.line = n then setPf d i { pfSt d i with feed := some n }
    else if (pfSt d i).feed = some n then setPf d i { pfSt d i with feed := none } else d) d

/-- The time of an edge from its clock edge `ce` and code `v` at interpolator `u` (R316).
(Log: 153 DEDUCED.) -/
def pfTime (d : Dev) (i u ce v : Nat) : Int :=
  let k1 := getR d (pgPf i) (F.PF_K1 u)
  let k2 := getR d (pgPf i) (F.PF_K2 u)
  2000 * (ce : Int) - 2000 - rne (2000 * (16 * (v : Int) - (k1 : Int))) (max 1 (k2 - k1))

/-- An edge within 8 ns of the last one timestamped (R316). -/
def pfMissed (last : Option Int) (p : Int) : Bool :=
  match last with
  | some l => decide (p - l < 8000) && decide (l ≤ p)
  | none => false

/-- PF_EDGE: an edge of source `src`, falling or rising, reaches channel `i`; its interpolators charge to sample
clock edge `ce` and digitise to the codes `v0` (start) and `v1` (stop) (R316, R318, R319); the internal sources have no ball
(R315). -/
def doPfEdge (t i src : Nat) (fall : Bool) (ce v0 v1 : Nat) (d : Dev) : Dev :=
  let d := advance d t
  let x := pfSt d i
  let c := pfNow d i
  let asStart := c.mode != 2 && c.srcStart == src && decide (c.edgeStart = b2n fall)
  let asStop := c.mode != 3 && pfStopSrc c == src && (if c.mode == 2 then !fall else decide (c.edgeStop = b2n fall))
  let p0 := pfTime d i 0 ce v0
  let p1 := pfTime d i 1 ce v1
  if 56 ≤ src ∨ src = 25 ∨ (32 ≤ src ∧ src < 44) ∨ (44 ≤ src ∧ getL d (pgStarter (src - 44)) F.STARTER_SPLIT_SRC = 0) then d
  else if (asStart && pfMissed x.last0 p0) || (asStop && pfMissed x.last1 p1) then bump d (pgPf i) F.PF_MISSED
  else
    let x := { x with last0 := if asStart then some p0 else x.last0, last1 := if asStop then some p1 else x.last1 }
    let d := setPf d i x
    let d := onlyIf asStart (fun d => pfStartEdge (pfExpire d i p0) i p0 false) d
    onlyIf asStop (fun d => pfStopEdge (pfExpire d i p1) i p1 false) d

def execPfEdge (t pf src : Nat) (fall : Bool) (ce v0 v1 : Nat) (s : State) : Host.Outcome State Fault Refusal :=
  act (decide (pf < 8) && decide (src < 64) && decide (v0 < 4096) && decide (v1 < 4096)) s (doPfEdge t pf src fall ce v0 v1)

/-- PF_WINDOW_CLOSE: the window of channel `i` closes, at its close tick (R318). -/
def doPfWindowClose (t i : Nat) (d : Dev) : Dev :=
  match (pfSt d i).run with
  | some r =>
    let at_ := (pfClose r.cfg (pfTick r.at_) + 4) / 5
    pfEnd (advance d (max t at_.toNat)) i r
  | none => advance d t

def execPfWindowClose (t pf : Nat) (s : State) : Host.Outcome State Fault Refusal :=
  act (decide (pf < 8)) s (doPfWindowClose t pf)

/-- PF_ARM: CTRL.ARM arms an IDLE channel (R318). -/
def doPfArm (t i : Nat) (d : Dev) : Dev :=
  onPage (pgPf i) (fun d => if getR d (pgPf i) cSTATE = 0 then setR d (pgPf i) cSTATE 1 else d) (advance d t)

def execPfArm (t pf : Nat) (s : State) : Host.Outcome State Fault Refusal :=
  act (decide (pf < 8)) s (doPfArm t pf)

/-- PF_DISARM: CTRL.DISARM returns the channel to IDLE; a measurement in progress ends without a result (R318). -/
def doPfDisarm (t i : Nat) (d : Dev) : Dev :=
  onPage (pgPf i) (fun d =>
    setR (setPf d i { pfSt d i with run := none, best := none, early := [], closed := none }) (pgPf i) cSTATE 0)
    (advance d t)

def execPfDisarm (t pf : Nat) (s : State) : Host.Outcome State Fault Refusal :=
  act (decide (pf < 8)) s (doPfDisarm t pf)

/-! ## Calibration of the interpolators (R324) -/

/-- The hub die temperature, where a sensor is valid (R31). -/
def hubTemp (d : Dev) : Option Int :=
  let v := getR d (pgTherm 0) F.THERM_TEMP_MEAN
  if v = 0x8000 then none else some (sx 16 v)

/-- A pass starts. -/
def pfPass (d : Dev) (i : Nat) : Dev :=
  let x := pfSt d i
  if x.calRun then d
  else setPf d i { x with calRun := true, calWas := [isCal d (pgPf i) 0, isCal d (pgPf i) 1], lastPass := d.ticks }

/-- PF_CAL_REQ: CTRL.CAL_REQ starts a pass (R324). -/
def doPfCalReq (t i : Nat) (d : Dev) : Dev := onPage (pgPf i) (fun d => pfPass d i) (advance d t)

def execPfCalReq (t pf : Nat) (s : State) : Host.Outcome State Fault Refusal :=
  act (decide (pf < 8)) s (doPfCalReq t pf)

/-- A pass is due: CAL_S seconds since the latest, a move of the hub temperature by more than 1 K since the last
accepted one, or the channel CAL_STALE (R324). -/
def pfDue (d : Dev) (i : Nat) : Bool :=
  let x := pfSt d i
  let hot : Bool := match x.lastTemp, hubTemp d with
    | some a, some b => decide (128 < (b - a).natAbs)
    | _, _ => false
  decide (max x.lastPass d.boot.releaseAt + sT (max 1 (getR d (pgPf i) F.PF_CAL_S)) ≤ d.ticks) || hot || pageCal d (pgPf i)

/-- PF_CAL_PASS: a due pass of channel `i` starts (R324). -/
def doPfCalPass (t i : Nat) (d : Dev) : Dev :=
  let d := advance d t
  if pfDue d i then pfPass d i else d

def execPfCalPass (t pf : Nat) (s : State) : Host.Outcome State Fault Refusal :=
  act (decide (pf < 8)) s (doPfCalPass t pf)

/-- The limit that a coefficient fails: 0 absolute, 1 step; the step limit is skipped where `was` holds (R263).
(Log: 155 DEDUCED.) -/
def pfLimit (lo hi step : Int) (was : Bool) (v live : Int) : Option Nat :=
  if v < lo ∨ hi < v then some 0 else if !was ∧ step < (v - live).natAbs then some 1 else none

/-- The pass measures K1 = `a` and K2 = `b` (1/16 code) at interpolator `u`: they become live, or each failing
coefficient is logged. The answer says whether the unit is rejected (R324, R263, R336).
(Log: 155 DEDUCED.) -/
def pfJudge (d : Dev) (i u a b : Nat) : Bool × Dev :=
  let p := pgPf i
  let was := (pfSt d i).calWas.getD u false
  let k1 : Int := getR d p (F.PF_K1 u)
  let dk : Int := (getR d p (F.PF_K2 u) : Int) - k1
  let nd : Int := (b : Int) - a
  let f1 := pfLimit 12800 24000 256 was a k1
  let f2 := pfLimit 24000 40000 (dk / 100) was nd dk
  match f1, f2 with
  | none, none => (false, setCal (setR (setR d p (F.PF_K1 u) a) p (F.PF_K2 u) b) p u false)
  | _, _ =>
    let log (d : Dev) (c : Nat) (f : Option Nat) (v live : Int) : Dev := match f with
      | some k => ledgerNow d 0x0315 0xF (typeCode .pf) ([i, u, c, k] ++ leBytes 4 (ux 32 v) ++ leBytes 4 (ux 32 live))
      | none => d
    (true, log (log d 1 f1 a k1) 2 f2 nd dk)

/-- DEGRADED is set or cleared (R324). -/
def pfDegrade (d : Dev) (i : Nat) (on : Bool) : Dev :=
  let p := pgPf i
  let d := onlyIf on (fun d => raise d p 13) (setR d p F.PF_DEGRADED (b2n on))
  ledgerNow d 0x0316 0xF (typeCode .pf) [i, b2n on]

/-- The fields of a channel's record in its order. -/
def pfRecFlds : List Fld := [F.PF_K1 0, F.PF_K2 0, F.PF_K1 1, F.PF_K2 1]

/-- The older copy of channel `i`'s record is written (R18, R265, R270).
(Log: 254 DEDUCED.) -/
def pfStore (d : Dev) (i : Nat) : Dev :=
  almPut d (13 + i) true (ux 16 (((pfSt d i).lastTemp).getD (-32768))) (taiSec (tai d) % 2 ^ 32) false
    (pfRecFlds.map (fun f => (getR d (pgPf i) f : Int)))

/-- At start-up channel `i`'s better copy is loaded; without a good one K1 and K2 take their reset values and both
interpolators are CAL_STALE, so that a pass is due at once (R18, R266, R324). -/
def pfLoad (d : Dev) (i : Nat) : Dev :=
  let p := pgPf i
  match calBest d (13 + i) with
  | some b =>
    let r := calCopy d b
    let d := (pfRecFlds.zip r.coefs).foldl (fun d e => setS d p e.1 e.2) d
    setPf d i { pfSt d i with lastTemp := if r.tRef = 0x8000 then none else some (sx 16 r.tRef) }
  | none => setCal (setCal (pfRecFlds.foldl (fun d f => setR d p f f.reset) d) p 0 true) p 1 true

/-- PF_CAL_DONE: the pass ends with K1 and K2 of the start interpolator (`a0`, `b0`) and the stop interpolator
(`a1`, `b1`) (R324, R263).
(Log: 155 DEDUCED.) -/
def doPfCalDone (t i a0 b0 a1 b1 : Nat) (d : Dev) : Dev :=
  let d := advance d t
  if !(pfSt d i).calRun then d
  else
    let p := pgPf i
    let (r0, d) := pfJudge d i 0 a0 b0
    let (r1, d) := pfJudge d i 1 a1 b1
    let d := setPf d i { pfSt d i with calRun := false, lastTemp := if r0 || r1 then (pfSt d i).lastTemp else hubTemp d }
    let d := onlyIf (!(r0 && r1)) (fun d => pfStore d i) d
    if r0 || r1 then
      let run := (pfSt d i).rejRun + 1
      let d := raise (bump (setPf d i { pfSt d i with rejRun := run }) p F.PF_CAL_REJECTS) p 12
      if 3 ≤ run ∧ !flagR d p F.PF_DEGRADED then pfDegrade d i true else d
    else
      let d := setPf d i { pfSt d i with rejRun := 0 }
      if flagR d p F.PF_DEGRADED then pfDegrade d i false else d

def execPfCalDone (t pf a0 b0 a1 b1 : Nat) (s : State) : Host.Outcome State Fault Refusal :=
  act (decide (pf < 8) && decide (a0 < 65536) && decide (b0 < 65536) && decide (a1 < 65536) && decide (b1 < 65536))
    s (doPfCalDone t pf a0 b0 a1 b1)

end Sys2Proof.Machine
end

