-- ==== Sys2Proof/Machine/Gauge.lean ====
section
/-! DEFINITION. The gauge and merge stages, spatial resampling and the frame instants of a line (R154–R169),
with the registers of GAUGE and RESAMP that show the live plan. -/

namespace Sys2Proof.Machine

open Sys2Proof

def gauge (d : Dev) (n : Nat) : GaugeSt := Store.get d.gauges GaugeSt.reset n
def setGauge (d : Dev) (n : Nat) (x : GaugeSt) : Dev := { d with gauges := Store.set d.gauges GaugeSt.reset n x }
def frame (d : Dev) (n : Nat) : FrameSt := Store.get d.frames FrameSt.reset n
def setFrame (d : Dev) (n : Nat) (x : FrameSt) : Dev := { d with frames := Store.set d.frames FrameSt.reset n x }

/-! ## The plan -/

/-- The largest TAPS among the enabled slots. -/
def tapsMax (d : Dev) (n : Nat) : Nat :=
  (List.range (slotsN d n)).foldl (fun m s => max m (getL d (pgSlot n s) F.SLOT_TAPS)) 0

/-- The live settings of detector `k`. -/
def detCfg (d : Dev) (n k : Nat) : DetCfg :=
  let p := pgHurdle n
  { en := flagL d p (F.HURDLE_DET_EN k), first := getL d p (F.HURDLE_DET_FIRST k), last := getL d p (F.HURDLE_DET_LAST k),
    th := getL d p (F.HURDLE_DET_TH k), minCh := getL d p (F.HURDLE_MIN_CH k), winK := getL d p (F.HURDLE_WIN_K k),
    maskU := flagL d p (F.HURDLE_MASK_U k) }

/-- The live plan of line `n` as the Frame cluster needs it, from its boundary at tick `start` on. -/
def planNow (d : Dev) (n start : Nat) : PlanRec :=
  let r (f : Fld) : Nat := getL d (pgResamp n) f
  let f (x : Fld) : Nat := getL d (pgFrame n) x
  { id := planId d n, g := getL d (pgGauge n) F.GAUGE_G, mergeK := getL d (pgGauge n) F.GAUGE_MERGE_K,
    div := lv d n F.LINE_MODE == 1, slots := slotsN d n, period := lv d n F.LINE_PERIOD, rate := rateCode d n,
    gi := lv d n F.LINE_GROUP_INDEX, bins := binsLive d n, tmax := tapsMax d n,
    ps := psOf (lv d n F.LINE_PERIOD) (rateCode d n), step := r F.RESAMP_STEP,
    origin := getLS d (pgResamp n) F.RESAMP_ORIGIN, spacing := r F.RESAMP_SPACING,
    channels := r F.RESAMP_CHANNELS, d0 := getLS d (pgResamp n) F.RESAMP_FIBRE_START,
    kind := f F.FRAME_KIND, pscale := f F.FRAME_PSCALE, qcode := f F.FRAME_Q_CODE,
    qEn := f F.FRAME_Q_EN == 1, aEn := f F.FRAME_A_EN == 1, mEn := f F.FRAME_M_EN == 1,
    tEn := flagL d (pgStack n) F.STACK_EN,
    dref := if flagL d (pgStack n) F.STACK_DREF_EN then
      some (getL d (pgStack n) F.STACK_DREF_FIRST, getL d (pgStack n) F.STACK_DREF_LAST) else none,
    dets := (List.range 8).map (detCfg d n), anchor := 65536 * (start : Int), inst0 := 65536 * (start : Int), no0 := 0,
    start := start, ended := none }

/-- The plan with identifier `id`; the live one where it is not kept.
(Log: 90 DEDUCED.) -/
def planOf (d : Dev) (n id : Nat) : PlanRec :=
  ((gauge d n).plans.find? (fun p => p.id == id)).getD (planNow d n d.ticks)

/-- I_m in ticks (R164). -/
def imOf (p : PlanRec) : Nat := if p.div then p.period else p.period / max 1 p.slots

/-- I_out in 2^-16 tick (R165). -/
def ioutOf (p : PlanRec) : Nat := p.step * imOf p

/-- A_DIV (R172). -/
def aDivOf (p : PlanRec) : Nat := cdiv 655360000000 (max 1 (ioutOf p))

/-- Gauge positions. -/
def positionsOf (p : PlanRec) : Nat := p.bins - p.g

/-! ## Spatial resampling (R162, R163) -/

/-- u_j of R162 as a numerator over `uDen`.
(Log: 83 DEDUCED.) -/
def uDen : Nat := 1024 * 2 ^ 28 * cLight
def uNum (p : PlanRec) (j : Nat) : Int :=
  (p.origin + (j * p.spacing : Nat) + p.d0) * ((2 * p.gi * rateHz p.rate : Nat) : Int)
    - ((p.g : Int) * (uDen / 2 : Nat))

/-- i_0 and the phase of channel `j`, for `q` phases.
(Log: 83 DEDUCED.) -/
def indexPhase (q : Nat) (num : Int) (den : Nat) : Int × Nat :=
  let i := fdiv num den
  let ph := (rne ((num - i * (den : Int)) * (q : Int)) den).toNat
  if ph = q then (i + 1, 0) else (i, ph)

/-- The support positions of channel `j`.
(Log: 83 DEDUCED.) -/
def support (p : PlanRec) (j : Nat) : Int × Nat := indexPhase 64 (uNum p j) uDen

/-- The taps `l` with tap `k` adjusted so that they sum to 2^16.
(Log: 82 DEDUCED.) -/
def adjust (l : List Int) (k : Nat) : List Int := l.set k (l.getD k 0 + (65536 - sumI l))

/-- The tap ρ sinc(ρ x) w(x / a) in units of 2^-16, rounded to nearest: ρ = min(1, `rn` / `rd`), x = `xn` / `xd`, and a Kaiser
window of parameter `beta` and half-width a = `hn` / 2 (R162, R166).
(Log: 82 DEDUCED.) -/
def tapOf (beta hn rn rd : Nat) (xn : Int) (xd : Nat) : Int :=
  let (a, b) := if rd ≤ rn then (1, 1) else (rn, rd)
  fxRne 16 (fxMul (fxOf (a : Int) b) (fxMul (fxSinc ((a : Int) * xn) (b * xd)) (fxKaiser beta (2 * xn) (hn * xd))))

/-- The eight taps of phase `ph` (R162): Δz / SPACING as a ratio of integers.
(Log: 82 DEDUCED.) -/
def taps8 (p : PlanRec) (ph : Nat) : List Int :=
  let num := 1024 * cLight * 2 ^ 28
  let den := 2 * p.gi * rateHz p.rate * p.spacing
  adjust ((List.range 8).map (fun t => tapOf 5 9 num den (64 * (t : Int) - 192 - (ph : Int)) 64)) (if ph < 32 then 3 else 4)

/-- The limit of a signed 40-bit value. -/
def sat40 (v : Int) : Int := clampI (-549755813888) 549755813887 v

/-- The channel's rate and marks from the rates per position (R162). -/
def channelOf (p : PlanRec) (rs : List ChanV) (j : Nat) : ChanV :=
  let (i0, ph) := support p j
  let at_ (t : Nat) : ChanV :=
    let k := i0 - 3 + (t : Int)
    if k < 0 ∨ ((rs.length : Nat) : Int) ≤ k then ⟨0, 1⟩ else rs.getD k.toNat ⟨0, 1⟩
  let vs := (List.range 8).map at_
  ⟨sat40 (rne (sumI (((taps8 p ph).zip vs).map (fun q => q.1 * q.2.v))) 65536),
   vs.foldl (fun m v => m ||| v.marks) 0⟩

/-- The first settled channel F, C where none qualifies (R163). -/
def firstSettled (p : PlanRec) : Nat :=
  ((List.range p.channels).find? (fun j => decide ((p.tmax : Int) - 1 ≤ (support p j).1 - 3))).getD p.channels

/-- The last settled channel F_last, 0 where none qualifies (R163). -/
def lastSettled (p : PlanRec) : Nat :=
  let ok (j : Nat) : Bool :=
    let hi := (support p j).1 + 4
    decide (hi ≤ (p.bins : Int) - p.g - 1) && decide (hi + p.g + p.tmax - 1 + 8 < (p.ps : Int))
  ((List.range p.channels).reverse.find? ok).getD 0

/-! ## Registers that show the plan (R170, R180, R181) -/

/-- π to fifty places, as a ratio.
(Log: 86 DESIGN CHOICE.) -/
def piNum : Nat := 314159265358979323846264338327950288419716939937510
def piDen : Nat := 10 ^ 50

/-- The positive ratio `num / den` as an IEEE 754 single, rounded to nearest even.
(Log: 86 DESIGN CHOICE.) -/
def f32Of (num den : Nat) : Nat :=
  if num = 0 then 0
  else
    let e : Int := (Nat.log2 (num * 2 ^ 200 / den) : Int) - 200
    let e := if e < -126 then -126 else e
    let m := if e ≤ 23 then (rne ((num * 2 ^ (23 - e).toNat : Nat) : Int) den).toNat
      else (rne ((num : Nat) : Int) (den * 2 ^ (e - 23).toNat)).toNat
    min 0x7F800000 (m + ((e + 126).toNat) * 2 ^ 23)

/-- STRAIN_LSB: λ f_s / (2π G c ξ 2^PSCALE); with ξ or G at 0 the spec states no value.
(Log: 86 DESIGN CHOICE.) -/
def strainShow (d : Dev) (n : Nat) : Dev :=
  let p := pgFrame n
  let xi := getR d p F.FRAME_XI
  let g := getL d (pgGauge n) F.GAUGE_G
  if xi = 0 ∨ g = 0 then
    let (v, d) := freeV d
    setR d p F.FRAME_STRAIN_LSB v
  else
    let num := getR d p F.FRAME_WAVELENGTH * rateHz (rateCode d n) * 65536 * piDen
    let den := 10 ^ 12 * 2 * piNum * g * cLight * xi * 2 ^ getL d p F.FRAME_PSCALE
    setR d p F.FRAME_STRAIN_LSB (f32Of num den)

/-- τ_0 in use (R164). -/
def tau0 (d : Dev) (n : Nat) : Int :=
  getS d (pgStarter n) F.STARTER_SPLIT_USED + getLS d (pgResamp n) F.RESAMP_LAUNCH_TRIM

/-- τ_0 as SPLIT_USED and LAUNCH_TRIM stand at plan boundary or first instant `e` is in use from there on (R164). -/
def tauShow (d : Dev) (n e : Nat) : Dev :=
  let y := frame d n
  let l := y.taus ++ [(e, tau0 d n)]
  setS (setFrame d n { y with taus := l.drop (l.length - 16) }) (pgResamp n) F.RESAMP_TAU0 (tau0 d n)

/-- τ_0 of a merged sample with launch instant `at_`. -/
def tauAt (d : Dev) (n at_ : Nat) : Int :=
  match ((frame d n).taus.filter (fun e => decide (e.1 ≤ at_))).getLast? with
  | some e => e.2
  | none => getS d (pgResamp n) F.RESAMP_TAU0

/-- The shot-class settings that act by frame instant: Q_BASE, K_T and TAU. -/
def shotCfgNow (d : Dev) (n : Nat) : Nat × Nat × Nat :=
  (getL d (pgFrame n) F.FRAME_Q_BASE, getL d (pgStack n) F.STACK_K_T, getL d (pgStack n) F.STACK_TAU)

/-- A change of them from their values in `d0` holds for the frames whose instants are at or after tick `e` (R83). -/
def shotCfgNote (d0 d : Dev) (n e : Nat) : Dev :=
  let old := shotCfgNow d0 n
  let new := shotCfgNow d n
  if old = new then d
  else
    let y := frame d n
    let l := (if y.shotCfg.isEmpty then [(0, old)] else y.shotCfg) ++ [(e, new)]
    setFrame d n { y with shotCfg := l.drop (l.length - 64) }

/-- Those settings for a frame instant in 2^-16 tick. -/
def shotCfgAt (d : Dev) (n : Nat) (inst : Int) : Nat × Nat × Nat :=
  match ((frame d n).shotCfg.filter (fun e => decide (65536 * (e.1 : Int) ≤ inst))).getLast? with
  | some e => e.2
  | none => shotCfgNow d n

/-- The live settings of line `n`'s feature filters. -/
def filtsNow (d : Dev) (n : Nat) : List FiltCfg :=
  let g (x : Fld) : Nat := getL d (pgHurdle n) x
  (List.range 8).map (fun f =>
    { en := g (F.HURDLE_FILT_EN f) == 1, cores := g (F.HURDLE_CORE_MASK f), id := g (F.HURDLE_ID f), mask := g (F.HURDLE_ID_MASK f),
      port := g (F.HURDLE_PORT f), cmp := g (F.HURDLE_FILT_CMP f), th := getLS d (pgHurdle n) (F.HURDLE_THRESH f) })

/-- A change of them from their settings in `d0` holds for the words of frames whose instants are at or after tick `e`
(R83). -/
def filtsNote (d0 d : Dev) (n e : Nat) : Dev :=
  let old := filtsNow d0 n
  let new := filtsNow d n
  if old = new then d
  else
    let y := hurdle d n
    let l := (if y.filts.isEmpty then [(0, old)] else y.filts) ++ [(e, new)]
    setHurdle d n { y with filts := l.drop (l.length - 64) }

/-- The settings for a frame instant in 2^-16 tick. -/
def filtsAt (d : Dev) (n : Nat) (inst : Int) : List FiltCfg :=
  match ((hurdle d n).filts.filter (fun e => decide (65536 * (e.1 : Int) ≤ inst))).getLast? with
  | some e => e.2
  | none => filtsNow d n

/-- The registers of GAUGE, RESAMP and FRAME that follow the live plan. -/
def planShow (d : Dev) (n : Nat) : Dev :=
  let p := planNow d n d.ticks
  let d := setR d (pgGauge n) F.GAUGE_POSITIONS (positionsOf p)
  let q := pgResamp n
  let d := setR (setR d q F.RESAMP_FIRST_SETTLED (firstSettled p)) q F.RESAMP_LAST_SETTLED (lastSettled p)
  let d := setR (setR d q F.RESAMP_I_OUT (ioutOf p)) q F.RESAMP_A_DIV (aDivOf p)
  strainShow (pipesShow d n) n

/-- STATE of GAUGE, RESAMP and FRAME follows the line (R180–R182). -/
def framesShow (d : Dev) (n : Nat) : Dev :=
  let st := lineState d n
  let on := st != 0 && st != 6
  let d := setR d (pgResamp n) cSTATE (b2n on)
  let d := setR d (pgFrame n) cSTATE (b2n (on && st != 5))
  if !on then setR d (pgGauge n) cSTATE 0
  else if getR d (pgGauge n) cSTATE = 0 then setR d (pgGauge n) cSTATE (if 0 < (gauge d n).settle ∨ (gauge d n).clears ≠ [] then 2 else 1)
  else d

/-! ## Arrival of pipe words (R150) -/

/-- The samples `bs` of a word go on with the bins of launch `l`, in order; those past its last bin are discarded (R150). -/
def takeBins (l : LaunchBins) (bs : List BinS) : LaunchBins :=
  let k := l.bins.length
  { l with bins := l.bins ++ ((List.range (min 4 (l.launch.bins - k))).map (fun q =>
      { bs.getD q ⟨0, 0, 0, 0⟩ with bin := k + q })) }

/-- Word `w` of Pipe cluster `k` reaches line `n`'s Frame cluster. A launch is complete with its
last bin; a skipped one at once. -/
def pipeWord (d : Dev) (n k w : Nat) : Dev :=
  let x := gauge d n
  let done (l : LaunchBins) : Bool := l.launch.skipped || decide (l.launch.bins ≤ l.bins.length)
  let put (s : Nat) (l : LaunchBins) : Dev :=
    if done l then setGauge d n { x with arriving := Store.erase x.arriving s, ready := x.ready ++ [l] }
    else setGauge d n { x with arriving := Store.insert (Store.erase x.arriving s) s l }
  let s := 2 * k + bits w 46 1
  if bit w 47 then put s ⟨wordLaunch w, []⟩
  else match Store.find x.arriving s with
    | some l => put s (takeBins l ((List.range 4).map (fun q => wordBin (bits w (64 * q) 64))))
    | none => d

/-- PIPE_WORD: the Frame cluster takes the oldest word of Pipe cluster `k`, which regains a credit and goes on (R19, R24).
(Log: 244 DESIGN CHOICE.) -/
def doPipeWord (t n k : Nat) (d : Dev) : Dev :=
  let d := advance d t
  match toFrame d n k with
  | [] => d
  | m :: r => pumpPipes n k 10 (pipeWord (setToFrame d n k r) n k m)

def execPipeWord (t : Nat) (chan : PipeChan) (s : State) : Host.Outcome State Fault Refusal :=
  act (decide (chan.ln < 12) && decide (chan.clus < 4)) s (doPipeWord t chan.ln chan.clus)

/-! ## Gauge differences (R155, R160) -/

/-- Reduction to −0.5 … 0.5 − 2^-24 turn. -/
def wrap24 (v : Int) : Int := sx 24 (ux 24 v)
/-- Reduction to a signed 48-bit value. -/
def wrap48 (v : Int) : Int := sx 48 (ux 48 v)

/-- g of a launch per gauge position. -/
def gOf (g : Nat) (l : LaunchBins) : List Int :=
  ((l.bins.drop g).zip l.bins).map (fun q => wrap24 (q.1.phase - q.2.phase))

/-- The marks of bins m … m + G, per position. -/
def gMarks (g np : Nat) (l : LaunchBins) : List Nat :=
  (List.range np).map (fun m => ((l.bins.drop m).take (g + 1)).foldl (fun k b => k ||| b.marks) 0)

/-- d of R155 between two launches of a slot. -/
def dOf (g : Nat) (a b : LaunchBins) : List Int :=
  ((gOf g b).zip (gOf g a)).map (fun q => wrap24 (q.1 - q.2))

/-- The smallest AMP among bins m and m + G of the two launches. -/
def ampMin (g np : Nat) (a b : LaunchBins) : List Nat :=
  let v (l : LaunchBins) (m : Nat) : Nat := ((l.bins.getD m ⟨0, 0, 0, 0⟩).amp)
  (List.range np).map (fun m => min (min (v a m) (v a (m + g))) (min (v b m) (v b (m + g))))

def slotG (x : GaugeSt) (s : Nat) : SlotG := Store.get x.slots ⟨none, [], [], []⟩ s
def setSlotG (x : GaugeSt) (s : Nat) (v : SlotG) : GaugeSt := { x with slots := Store.set x.slots ⟨none, [], [], []⟩ s v }

/-- A list of integers cut or filled with zeros. -/
def padI (k : Nat) (l : List Int) : List Int := (l ++ List.replicate k 0).take k

/-- The union of two lists of marks. -/
def orMarks (a b : List Nat) : List Nat := (a.zip b).map (fun q => q.1 ||| q.2)

/-! ## Merging (R157–R159, R161) -/

/-- The clears whose launch instants this launch has reached take effect: ψ, β and Φ are 0 and every slot
rejoins (R161). -/
def reachClears (p : PlanRec) (x : GaugeSt) (at_ : Nat) : GaugeSt :=
  if x.clears.any (fun c => decide (c ≤ at_)) then
    { x with settle := if !p.div && decide (1 < p.slots) then p.slots * 2 ^ p.mergeK else 1, clears := x.clears.filter (fun c => decide (at_ < c)), slots := [], phi := [], phiMarks := [], es := [] }
  else x

/-- Φ_n, its marks, e_n, the slots and whether a slot rejoined: one slot in RATE mode (R157).
(Log: 81 DEDUCED.) -/
def mergeRate (p : PlanRec) (x : GaugeSt) (own : Nat) (l : LaunchBins) : GaugeSt × List Int × List Nat × List Int × Nat :=
  let np := positionsOf p
  let s := l.launch.slot
  let phi0 := padI np x.phi
  let zero := List.replicate np (0 : Int)
  let y := slotG x s
  if l.launch.skipped then (setSlotG x s { y with prev := none }, phi0, List.replicate np (32 ||| own), zero, 0)
  else
    let gm := (gMarks p.g np l).map (· ||| own)
    match y.prev with
    | none => (setSlotG x s ⟨some l, gm, zero, phi0⟩, phi0, gm.map (· ||| 1), zero, 1)
    | some a =>
      let psi := ((padI np y.psi).zip (dOf p.g a l)).map (fun q => wrap48 (q.1 + q.2))
      let phi := (psi.zip (padI np y.beta)).map (fun q => wrap48 (q.1 + q.2))
      let e := (phi.zip phi0).map (fun q => wrap48 (q.1 - q.2))
      let es := (e :: x.es).take p.slots
      let mean (m : Nat) : Int := rne (sumI (es.map (fun v => v.getD m 0))) p.slots
      let marks := orMarks gm (orMarks (gMarks p.g np a) y.gm)
      let beta := (List.range np).map (fun m =>
        let b := y.beta.getD m 0
        if marks.getD m 0 = 0 then wrap48 (b - rne (e.getD m 0 - mean m) (2 ^ p.mergeK)) else b)
      (setSlotG x s ⟨some l, gm, psi, beta⟩, phi, marks, e, 0)

/-- The weighted sum of R158 over pairs of AMP and phase, in units of 2^-96.
(Log: 80 DEDUCED.) -/
def weighted (l : List (Nat × Int)) : Int × Int :=
  l.foldl (fun a q =>
    let w := fxPow10 (q.1 : Int) 2560
    let e := fxCis q.2 (2 ^ 24)
    (a.1 + fxMul w e.1, a.2 + fxMul w e.2)) (0, 0)

/-- The weighted sum is exactly 0. Weights whose AMP differ modulo 2,560 and phases that differ by no half turn are independent
over the rationals, so it is where the terms of each such class cancel.
(Log: 80 DEDUCED.) -/
def weightedNull (l : List (Nat × Int)) : Bool :=
  l.all (fun q =>
    let own := l.filter (fun r => r.1 % 2560 == q.1 % 2560 && (r.2 - q.2) % 2 ^ 23 == 0)
    sumI (own.map (fun r => (if (r.2 - q.2) % 2 ^ 24 = 0 then 1 else -1) * 10 ^ (r.1 / 2560))) == 0)

/-- The same for the launches of one instant in DIVERSITY mode (R158); the last number counts null sums.
(Log: 80 DEDUCED.) -/
def mergeDiv (p : PlanRec) (x : GaugeSt) (own : Nat) (ls : List LaunchBins) :
    GaugeSt × List Int × List Nat × Nat × Nat :=
  let np := positionsOf p
  let phi0 := padI np x.phi
  let live := ls.filter (fun l => !l.launch.skipped)
  let marksOf (l : LaunchBins) : List Nat := (gMarks p.g np l).map (· ||| own)
  let next := ls.foldl (fun y l => setSlotG y l.launch.slot
    ⟨if l.launch.skipped then none else some l, if l.launch.skipped then [] else marksOf l, [], []⟩) x
  if live.isEmpty then (next, phi0, List.replicate np (32 ||| own), 0, 0)
  else
    let pairs := live.filterMap (fun l => (slotG x l.launch.slot).prev.map (fun a => (a, l)))
    let rejoin := live.length - pairs.length
    let data := pairs.map (fun q => (ampMin p.g np q.1 q.2, dOf p.g q.1 q.2))
    let terms (m : Nat) : List (Nat × Int) := data.map (fun q => (q.1.getD m 0, q.2.getD m 0))
    let null (m : Nat) : Bool := data.isEmpty || weightedNull (terms m)
    let nulls := (List.range np).any null
    let phi := (List.range np).map (fun m =>
      if null m then phi0.getD m 0
      else
        let v := weighted (terms m)
        wrap48 (phi0.getD m 0 + wrap24 (fxRne 24 (fxArg v.1 v.2))))
    let base := pairs.foldl (fun k q => orMarks k (orMarks (marksOf q.2)
      (orMarks (gMarks p.g np q.1) (slotG x q.2.launch.slot).gm))) (List.replicate np own)
    let marks := (List.range np).map (fun m => base.getD m 0 ||| b2n (null m || decide (0 < rejoin)))
    (next, phi, marks, rejoin, b2n nulls)

/-- r of R159 for a difference of Φ, with f_m = 10^8 / I_m Hz. -/
def rateOf (p : PlanRec) (dphi : Int) : Int :=
  sat40 (rne (dphi * ((2 * piNum * 100000000 : Nat) : Int)) (256 * max 1 (imOf p) * piDen))

/-- Line `n` was SAFE at tick `t`. -/
def safeAt (d : Dev) (n t : Nat) : Bool :=
  (starter d n).safeSpans.any (fun e => decide (e.1 ≤ t) && (e.2.map (fun b => decide (t < b))).getD true)

/-- The merged sample at launch instant `at_` of plan `p` is formed: rates, spatial resampling, counters. -/
def putMerged (d : Dev) (n : Nat) (p : PlanRec) (x : GaugeSt) (at_ : Nat) (clear skipped : Bool)
    (phi : List Int) (marks : List Nat) (e : List Int) (rejoin nulls : Nat) : Dev :=
  let np := positionsOf p
  let phi0 := padI np x.phi
  let marks0 := if x.phiMarks.isEmpty then List.replicate np 0 else x.phiMarks
  let settle := b2n (decide (0 < x.settle))
  let marks := marks.map (· ||| settle)
  let rs := (List.range np).map (fun m =>
    let v := if skipped then 0 else rateOf p (wrap48 (phi.getD m 0 - phi0.getD m 0))
    ChanV.mk v (marks.getD m 0 ||| marks0.getD m 0))
  let chans := (List.range p.channels).map (channelOf p rs)
  let q := pgGauge n
  let was := x.rejoined
  let d := setGauge d n { x with phi := phi, phiMarks := marks, es := (e :: x.es).take p.slots,
                                 settle := x.settle - 1, rejoined := decide (0 < rejoin) }
  let y := frame d n
  let m : MergedS := { plan := p.id, at_ := at_, tau := tauAt d n at_, safe := safeAt d n at_, clear := clear, chans := chans }
  let d := setFrame d n { y with merged := (y.merged ++ [m]).drop (y.merged.length + 1 - 1024) }
  let d := addC (bump d q F.GAUGE_MERGED) q F.GAUGE_RESYNCS rejoin
  let d := addC d q F.GAUGE_NULL_SUMS nulls
  let d := onlyIf skipped (fun d => bump d q F.GAUGE_SKIPPED_SAMPLES) d
  raiseOn d q 9 was (decide (0 < rejoin))

/-- The amplitudes of a launch are kept for the Q plane (R171). -/
def keepAmps (d : Dev) (n : Nat) (l : LaunchBins) : Dev :=
  if l.launch.skipped then d
  else
    let y := frame d n
    setFrame d n { y with amps := y.amps ++ [⟨l.launch.at_, l.bins.map (fun b => (b.amp, bit b.marks 5))⟩] }

/-- A launch of line `n` before tick `at_` has not come in whole yet: its window is open in a pipe, its words are on their way, or
its bins are arriving. -/
def earlierDue (d : Dev) (n at_ : Nat) : Bool :=
  (gauge d n).arriving.any (fun e => decide (e.2.launch.at_ < at_)) ||
  (List.range 8).any (fun s => (pipe d n s).wins.any (fun w => decide (w.launch.at_ < at_))) ||
  (List.range 4).any (fun k => (toFrame d n k).any (fun w => bit w 47 && decide (bits w 64 64 < at_)))

/-- MERGED_SAMPLE: the earliest launch, once it has come in whole, or in DIVERSITY mode all enabled slots' launches of one
instant, make the next merged sample, in launch order (R157, R158). -/
def doMerged (t n : Nat) (d : Dev) : Dev :=
  let d := advance d t
  let x := gauge d n
  match x.ready with
  | [] => d
  | a :: _ =>
    let first := x.ready.foldl (fun m l => if l.launch.at_ < m.launch.at_ then l else m) a
    let at_ := first.launch.at_
    let p := planOf d n first.launch.plan
    let ls := if p.div then x.ready.filter (fun l => l.launch.at_ == at_) else [first]
    if earlierDue d n at_ || (p.div && decide (ls.length < p.slots)) then d
    else
      let clear := x.clears.any (fun c => decide (c ≤ at_))
      let x := reachClears p { x with ready := x.ready.filter (fun l => !ls.contains l) } at_
      let own := 8 * b2n (isStale d (pgGauge n) 0)
      let d := ls.foldl (fun d l => keepAmps d n l) d
      let skipped := ls.all (fun l => l.launch.skipped)
      if p.div then
        let (y, phi, marks, rejoin, nulls) := mergeDiv p x own ls
        putMerged d n p { y with phi := x.phi } at_ clear skipped phi marks [] rejoin nulls
      else
        let (y, phi, marks, e, rejoin) := mergeRate p x own first
        putMerged d n p y at_ clear skipped phi marks e rejoin 0

def execMergedSample (t ln : Nat) (s : State) : Host.Outcome State Fault Refusal :=
  act (decide (ln < 12)) s (doMerged t ln)

/-- The gauge stage is cleared for the first launch at tick `t` (R161). -/
def gaugeClear (d : Dev) (n t : Nat) : Dev :=
  let x := gauge d n
  let d := setGauge d n { x with clears := x.clears ++ [t] }
  let y := frame d n
  let d := setFrame d n { y with phaseClears := y.phaseClears ++ [t] }
  setR (bump d (pgGauge n) F.GAUGE_CLEARS) (pgGauge n) cSTATE 2

/-- GAUGE_SETTLED: the settling period has ended (R161). -/
def doGaugeSettled (t n : Nat) (d : Dev) : Dev :=
  let d := advance d t
  if getR d (pgGauge n) cSTATE = 2 ∧ (gauge d n).settle = 0 ∧ (gauge d n).clears = [] then raise (setR d (pgGauge n) cSTATE 1) (pgGauge n) 8
  else d

def execGaugeSettled (t ln : Nat) (s : State) : Host.Outcome State Fault Refusal :=
  act (decide (ln < 12)) s (doGaugeSettled t ln)

/-! ## Plans and frame instants (R165, R167, R169) -/

/-- The old plan ends at tick `b`: it has no frame instant at or after it.
(Log: 90 DEDUCED.) -/
def planEnds (d : Dev) (n b : Nat) : Dev :=
  let x := gauge d n
  let d := setGauge d n { x with plans := (x.plans.map (fun p => if p.ended.isNone then { p with ended := some b } else p)).take 3 }
  setFrame d n { frame d n with nextInst := none }

/-- The first slot-0 launch instant `e` of the live plan: its anchor and its first frame instant (R165).
(Log: 90 DEDUCED, 250 DEDUCED.) -/
def planStarts (d : Dev) (n e : Nat) : Dev :=
  let p := planNow d n e
  let grid := flagR d (pgLine n) F.LINE_TIMELINE
  let a : Int := if grid then -(fdiv (-((d.time.base + 655360 * (e : Int)) / secU * secU - d.time.base)) 10) else 65536 * (e : Int)
  let x := gauge d n
  let io := max 1 (ioutOf p)
  let q := -(fdiv (-(65536 * (e : Int) - a)) io)
  let p := { p with anchor := a, inst0 := a + q * io, no0 := (frame d n).nextNo }
  let d := setGauge d n { x with plans := p :: x.plans }
  setFrame d n { frame d n with nextInst := if d.boot.failed then none else some (a + q * io) }

/-- FRAME_INSTANT: the next frame instant takes its number; in PAUSED no frame follows (R167).
(Log: 250 DEDUCED.) -/
def doFrameInstant (t n : Nat) (d : Dev) : Dev :=
  let y := frame d n
  match y.nextInst, (gauge d n).plans.head? with
  | some i, some p =>
    let d := advance d (max t (-(fdiv (-i) 65536)).toNat)
    let st := lineState d n
    if st = 0 ∨ st = 6 then d
    else
      let mx := getL d (pgStrideCl n) F.STRIDECL_FEAT_MAX
      let due : DueFrame := { num := y.nextNo, plan := p.id, inst := i, unq := unqualNow d,
                              tai := d.time.base + 10 * i }
      let d := setFrame d n { y with nextInst := some (i + ioutOf p), nextNo := (y.nextNo + 1) % 2 ^ 64,
                                     due := if st = 5 then y.due else y.due ++ [due],
                                     feats := if st = 5 ∨ mx = 0 then y.feats
                                       else y.feats ++ [⟨y.nextNo, i, due.tai, p.id, 0, [], 0, mx,
                                         getL d (pgStrideCl n) F.STRIDECL_FEAT_WAIT⟩] }
      setR d (pgFrame n) F.FRAME_FRAME_NO y.nextNo
  | _, _ => advance d t

def execFrameInstant (t ln : Nat) (s : State) : Host.Outcome State Fault Refusal :=
  act (decide (ln < 12)) s (doFrameInstant t ln)

/-- The TAI time of frame instant `k` of line `n` (R165, R167).
(Log: 89 DEDUCED.) -/
def timeOfFrame (d : Dev) (n k : Nat) : Int :=
  let ps := (gauge d n).plans
  let p := match ps.find? (fun p => decide (p.no0 ≤ k)) with
    | some p => p
    | none => ps.getLast?.getD (planNow d n d.ticks)
  d.time.base + 10 * (p.inst0 + ((k : Int) - (p.no0 : Int)) * (ioutOf p : Int))

/-- A line that starts from OFF numbers its frames from 0 (R167); one that stops otherwise than by a plan
change builds no frame whose support is incomplete (R169). -/
def framesFresh (d : Dev) (n : Nat) : Dev :=
  setFrame (setGauge d n GaugeSt.reset) n { FrameSt.reset with out := (frame d n).out }

end Sys2Proof.Machine
end

