-- ==== Sys2Proof/Machine/Raman.lean ====
section
/-! DEFINITION. Raman shots, Stacks, the stack engine, thermal frames and the drift filter (R183–R206). -/

namespace Sys2Proof.Machine

open Sys2Proof

def stack (d : Dev) (n : Nat) : StackSt := Store.get d.ramans StackSt.reset n
def setStack (d : Dev) (n : Nat) (x : StackSt) : Dev := { d with ramans := Store.set d.ramans StackSt.reset n x }

/-- A live field of the STACK page. -/
def kv (d : Dev) (n : Nat) (f : Fld) : Nat := getL d (pgStack n) f

/-- The whole number nearest to `q`, ties to even. -/
def rneQ (q : Rat) : Int := rne q.num q.den

/-! ## Frames on their way to the hub (R34, R178) -/

/-- The FRAME requester of line `n` in its die's pool. -/
def frameReq (n : Nat) : Nat := 3 * (n % 6)

/-- The bridge of line die `b`. -/
def bridge (d : Dev) (b : Nat) : BridgeSt := Store.get d.bridges BridgeSt.reset b
def setBridge (d : Dev) (b : Nat) (x : BridgeSt) : Dev := { d with bridges := Store.set d.bridges BridgeSt.reset b x }

/-- While bridge `b` retrains, the shelves that frames hold in its die's pool reach a peak (R35).
(Log: 88 DESIGN CHOICE.) -/
def heldPeak (d : Dev) (b : Nat) : Dev :=
  if (bridge d b).retraining then
    peak d (pgBridge b) F.BRIDGE_HELD_PEAK (((List.range 6).map (fun i => heldBy d b (3 * i))).foldl (· + ·) 0)
  else d

/-- An item is placed in a shelf of the line die's pool; without a free shelf it is dropped whole and counted, by the
bridge too while it retrains (R35, R178). Answers whether it was placed. -/
def placeFrame (d : Dev) (n kind num : Nat) (bytes : List Nat) : Bool × Dev :=
  let k := shelvesFor bytes.length
  let b := dieOf n
  let (ok, d) := takeShelves d b (frameReq n) k
  if ok then
    let y := frame d n
    (true, heldPeak (setFrame d n { y with out := y.out ++ [⟨kind, num, bytes, k, Store.get d.paceDecim 0 n⟩] }) b)
  else
    let d := onlyIf (bridge d b).retraining (fun d => raise (bump d (pgBridge b) F.BRIDGE_DROP_FRAMES) (pgBridge b) 10) d
    (false, raise (bump d (pgFrame n) F.FRAME_DROPPED) (pgFrame n) 10)

/-- The 64-byte header of R175 and R198: the fields from offset 0 to 59 and their CRC-32C. -/
def withCrc (h : List Nat) : List Nat :=
  let b := padTo 60 h
  b ++ leBytes 4 (crc32c b)

/-- Bytes 0–31 of a header: magic, flags, number, time in 2^-16 ns, pace step and plane mask (R175). -/
def headTop (d : Dev) (magic n flags num : Nat) (time : Int) (pace mask : Nat) : List Nat :=
  leBytes 2 magic ++ [1, pkgIndex d % 8 * 16 + n] ++ leBytes 4 flags ++ leBytes 8 num ++ leBytes 8 (taiSec time) ++
    leBytes 4 (taiNs time) ++ leBytes 2 (taiSub time) ++ [pace, mask]

/-! ## Shots and intervals (R183–R186) -/

/-- The live settings. -/
def stackP (d : Dev) (n : Nat) : StackP :=
  { j := min 8 (kv d n F.STACK_PRE_J), shift := min 8 (kv d n F.STACK_SHIFT), k := kv d n F.STACK_STACK_K,
    solve := kv d n F.STACK_SOLVE, start := getLS d (pgStack n) F.STACK_START, bins := kv d n F.STACK_BINS,
    bg := kv d n F.STACK_BG_BINS, dT := getLS d (pgStack n) F.STACK_FIBRE_START_T,
    ovenFirst := kv d n F.STACK_OVEN_FIRST, ovenLast := kv d n F.STACK_OVEN_LAST,
    ambFirst := kv d n F.STACK_AMB_FIRST, ambLast := kv d n F.STACK_AMB_LAST, gamma := kv d n F.STACK_GAMMA,
    gi := lv d n F.LINE_GROUP_INDEX, plan := planId d n,
    mask := kv d n F.STACK_T_EN + 2 * kv d n F.STACK_R_EN + 4 * kv d n F.STACK_X_EN + 8 * kv d n F.STACK_M_EN +
      16 * kv d n F.STACK_S_EN,
    chans := getL d (pgResamp n) F.RESAMP_CHANNELS, origin := getLS d (pgResamp n) F.RESAMP_ORIGIN,
    spacing := getL d (pgResamp n) F.RESAMP_SPACING }

/-- The judging settings now. -/
def stackLim (d : Dev) (n : Nat) : StackLim :=
  { oven := kv d n F.STACK_OVEN_SRC, amb := kv d n F.STACK_AMB_SRC, spread := kv d n F.STACK_SPREAD_MAX,
    check := kv d n F.STACK_CHECK_MAX, fill := kv d n F.STACK_MIN_FILL, dlnC := kv d n F.STACK_DLNC_MAX,
    dda := kv d n F.STACK_DDA_MAX, rise := kv d n F.STACK_RISE_TH, suspect := kv d n F.STACK_SUSPECT_K,
    kT := getLS d (pgStack n) F.STACK_K_T }

/-- An accumulator at the start of a stack (R185). -/
def BinAcc.zero : BinAcc := ⟨0, 32767, -32768, false⟩

/-- An interval that opens at tick `t`. -/
def openIv (d : Dev) (n t : Nat) : StackIv :=
  let p := stackP d n
  let bad (c : Nat) : Nat × RefAcc := (c, ⟨0, 0, !flagR d pgSfe (F.SFE_OK c)⟩)
  { p := p, openAt := t, instants := 0, counted := 0, missed := false, staleN := 0, safe := false, cal := false,
    satN := 0, refs := (List.range 8).map bad, bank0 := List.replicate p.bins BinAcc.zero,
    bank1 := List.replicate p.bins BinAcc.zero, shots := [], flipAt := 0, flipSt := 0, sync := false, pace := 0,
    lim := stackLim d n, thSum := [], thN := 0, thNew := (stack d n).thNew }

/-- The interval closes at the flip at tick `t`: shots whose samples have not all come are missed (R186).
(Log: 92 DEDUCED.) -/
def closeStack (d : Dev) (n t : Nat) : Dev :=
  let x := stack d n
  match x.cur with
  | none => d
  | some v =>
    let late := v.shots.length
    let d := addC d (pgStack n) F.STACK_MISSED_SHOTS late
    let v := { v with shots := [], missed := v.missed || decide (0 < late), flipAt := t, flipSt := lineState d n,
                      sync := flagR d (pgLine n) F.LINE_SYNC_LOST, pace := getR d pgPace F.PACE_STEP, lim := stackLim d n }
    setStack d n { x with cur := none, closed := x.closed ++ [v] }

/-- A slot-0 instant at tick `t` with shot number `shot` (R186): the stack closes at a multiple of 2^STACK_K, and
the instant's shot is a Raman shot that awaits its samples, or missed.
(Log: 92 DEDUCED.) -/
def stackSlot0 (d : Dev) (n t shot : Nat) : Dev :=
  if kv d n F.STACK_EN = 0 then d
  else
    let d := if shot % 2 ^ kv d n F.STACK_STACK_K = 0 then closeStack d n t else d
    let x := stack d n
    let v := x.cur.getD (openIv d n t)
    let raman := (starter d n).tgLast == some t
    let ok := raman && !d.stkPause.contains n
    let v := { v with instants := v.instants + 1, safe := v.safe || lineState d n == 4, missed := v.missed || !ok,
                      shots := if ok then v.shots ++ [(t, isStale d (pgStarter n) 0)] else v.shots }
    let d := onlyIf (!ok) (fun d => bump d (pgStack n) F.STACK_MISSED_SHOTS) d
    setStack d n { x with cur := some v, thNew := false }

/-- v_c of R184 for the samples of one thermal bin, before saturation. -/
def preAvg (shift : Nat) (l : List Int) : Int := fdiv (sumI l) (2 ^ shift)
def sat16 (v : Int) : Int := clampI (-32768) 32767 v

/-- The samples of bin `q`. -/
def binSamples (j q : Nat) (l : List Int) : List Int := (l.drop (q * 2 ^ j)).take (2 ^ j)

def atLimit (v : Int) : Bool := v == -32768 || v == 32767

/-- One converter's samples enter a bank (R185). -/
def accBank (p : StackP) (bank : List BinAcc) (l : List Int) : List BinAcc :=
  (List.range p.bins).map (fun q =>
    let b := bank.getD q BinAcc.zero
    let s := binSamples p.j q l
    let v := sat16 (preAvg p.shift s)
    ⟨b.acc + v, min b.mn v, max b.mx v, b.sat || s.any atLimit⟩)

/-- Values of R184 that saturate. -/
def vSats (p : StackP) (l : List Int) : Nat :=
  ((List.range p.bins).filter (fun q =>
    let v := preAvg p.shift (binSamples p.j q l)
    sat16 v != v)).length

/-- RAMAN_SHOT_ACCUMULATE: the samples of the oldest Raman shot have come: Stokes `st`, anti-Stokes `anti`
(R183–R186). -/
def doRamanShot (t n : Nat) (st anti : List Int) (d : Dev) : Dev :=
  let d := advance d t
  let x := stack d n
  match x.cur with
  | none => d
  | some v =>
    match v.shots with
    | [] => d
    | (_, stale) :: r =>
      let q := pgThrx n
      let all := 2 ^ v.p.j * v.p.bins
      let st := padI all st
      let anti := padI all anti
      let d := thShot d n st anti
      if stale || isStale d q 0 || isStale d q 1 then
        let d := bump d (pgStack n) F.STACK_STALE_SHOTS
        setStack d n { x with cur := some { v with shots := r, staleN := v.staleN + 1, missed := true } }
      else
        let d := addC d (pgStack n) F.STACK_VSATS (vSats v.p st + vSats v.p anti)
        let sats := (st.filter atLimit).length + (anti.filter atLimit).length
        setStack d n { x with cur := some { v with
          shots := r, counted := v.counted + 1, satN := v.satN + sats, cal := v.cal || isCal d q 0 || isCal d q 1,
          bank0 := accBank v.p v.bank0 st, bank1 := accBank v.p v.bank1 anti } }

def execRamanShotAccumulate (t ln : Nat) (st anti : List Int) (s : State) : Host.Outcome State Fault Refusal :=
  act (decide (ln < 12)) s (doRamanShot t ln st anti)

/-- A result `v` of sensor front end channel `c` whose instant is half of `m2`, in ticks, enters the interval that holds
that instant, where its constants are still to be solved (R192, R277). -/
def refIn (c : Nat) (v m2 : Int) (closed : Bool) (i : StackIv) : StackIv :=
  if m2 < 2 * (i.openAt : Int) ∨ (closed ∧ 2 * (i.flipAt : Int) ≤ m2) then i
  else
    let r := (Store.find i.refs c).getD ⟨0, 0, false⟩
    { i with refs := Store.insert (Store.erase i.refs c) c { r with sum := r.sum + v, n := r.n + 1 } }

def refResult (c : Nat) (v m2 : Int) (d : Dev) (n : Nat) : Dev :=
  let x := stack d n
  setStack d n { x with cur := x.cur.map (refIn c v m2 false), closed := x.closed.map (refIn c v m2 true),
                        rest := x.rest.map (fun r => if r.todo then { r with iv := refIn c v m2 true r.iv } else r) }

/-- Channel `c` is not classified OK at a moment of the open interval (R192). -/
def refBad (c : Nat) (d : Dev) (n : Nat) : Dev :=
  let x := stack d n
  let mark (i : StackIv) : StackIv :=
    let r := (Store.find i.refs c).getD ⟨0, 0, false⟩
    { i with refs := Store.insert (Store.erase i.refs c) c { r with bad := true } }
  setStack d n { x with cur := x.cur.map mark }

/-! ## Positions and ratios (R189, R190) -/

/-- Δz_T in metres. -/
def dzT (p : StackP) : Rat := ((cLight * 2 ^ 28 : Nat) : Rat) / ((200000000 * p.gi : Nat) : Rat)

/-- z_q in metres. -/
def zOf (p : StackP) (q : Nat) : Rat :=
  ((p.start : Rat) + ((q * 2 ^ p.j : Nat) : Rat) + ((2 ^ p.j - 1 : Nat) : Rat) / 2) * dzT p - (p.dT : Rat) / 1024

/-- m_c(q) of R190 without its offset, times `N_c × 2^j`, as an integer; and the mean over the background
bins. -/
def accAt (bank : List BinAcc) (q : Nat) : Int := (bank.getD q BinAcc.zero).acc

/-- m_c(q) of R190. -/
def meanC (v : StackIv) (bank : List BinAcc) (ofs : Int) (q : Nat) : Rat :=
  (accAt bank q * (2 ^ v.p.shift : Nat) : Int) / ((v.counted * 2 ^ v.p.j : Nat) : Rat) - (ofs : Rat) / 256

/-- b_c of R190. -/
def backC (v : StackIv) (bank : List BinAcc) (ofs : Int) : Rat :=
  if v.p.bg = 0 then 0
  else ((List.range v.p.bg).foldl (fun a q => a + meanC v bank ofs q) 0) / (v.p.bg : Rat)

/-- ln R(q) in 2^-24, or no value (R190).
(Log: 91 DESIGN CHOICE.) -/
def lnROf (v : StackIv) (o0 o1 : Int) (b0 b1 : Rat) (q : Nat) : Option Int :=
  if v.counted = 0 ∨ q < v.p.bg then none
  else
    let num := meanC v v.bank1 o1 q - b1
    let den := meanC v v.bank0 o0 q - b0
    if num < 1 / 256 ∨ den < 1 / 256 then none
    else
      let r := num / den
      some (fxNear 24 4 (fxLn r.num.toNat r.den) (Config.lnRatio r.num r.den))

/-- ln R of every bin of an interval; OFS of the thermal converters is on the CAL page.
(Log: 91 DESIGN CHOICE.) -/
def lnRs (d : Dev) (n : Nat) (v : StackIv) : List (Option Int) :=
  let o0 := getS d (pgCal n) F.CAL_TOFS_S
  let o1 := getS d (pgCal n) F.CAL_TOFS_AS
  let b0 := backC v v.bank0 o0
  let b1 := backC v v.bank1 o1
  (List.range v.p.bins).map (lnROf v o0 o1 b0 b1)

/-! ## Temperatures (R191) -/

/-- Constants: ln C in 2^-24 and Δα in 2^-40 per m. -/
abbrev Consts := Int × Int

def lnCQ (k : Consts) : Rat := (k.1 : Rat) / 16777216
def dAQ (k : Consts) : Rat := (k.2 : Rat) / 1099511627776
def gammaQ (p : StackP) : Rat := (p.gamma : Rat) / 65536

/-- T(q) in kelvin, or none where the denominator of R191 is not positive.
(Log: 93 DEDUCED.) -/
def tempOf (p : StackP) (k : Consts) (q : Nat) (lnR : Int) : Option Rat :=
  let den := lnCQ k - (lnR : Rat) / 16777216 + dAQ k * zOf p q
  if den ≤ 0 then none else some (gammaQ p / den)

/-- T in 2^-24 K above 0 °C.
(Log: 93 DEDUCED.) -/
def tempFix (t : Rat) : Int := rneQ ((t - 27315 / 100) * 16777216)

/-- T per bin. -/
def tempsOf (p : StackP) (k : Consts) (l : List (Option Int)) : List (Option Rat) :=
  (List.range p.bins).map (fun q => (l.getD q none).bind (tempOf p k q))

/-- The T code of R191, and whether it saturated.
(Log: 93 DEDUCED.) -/
def tCodeOf (t : Option Rat) : Int × Bool :=
  match t with
  | none => (-32768, false)
  | some t =>
    let c := rneQ ((t - 27315 / 100) * 100)
    if c < -32767 then (-32767, true) else if 32767 < c then (32767, true) else (c, false)

/-! ## Solving the constants (R192–R195) -/

/-- The live constants. -/
def constsLive (d : Dev) (n : Nat) : Consts :=
  (getS d (pgStack n) F.STACK_LNC_LIVE, getS d (pgStack n) F.STACK_DALPHA_LIVE)
def setConsts (d : Dev) (n : Nat) (k : Consts) : Dev :=
  setS (setS d (pgStack n) F.STACK_LNC_LIVE k.1) (pgStack n) F.STACK_DALPHA_LIVE k.2

/-- The reference mean of channel `c` in 1/128 °C, where valid (R192).
(Log: 94 DEDUCED.) -/
def refOf (v : StackIv) (c : Nat) : Option Rat :=
  match Store.find v.refs c with
  | some r => if r.bad ∨ r.n = 0 then none else some ((r.sum : Rat) / (r.n : Rat))
  | none => none

/-- T_i in kelvin. -/
def refK (m : Rat) : Rat := 27315 / 100 + m / 128

/-- The bins of a section that have values. -/
def sectionBins (l : List (Option Int)) (a b : Nat) : List (Nat × Int) :=
  (List.range (b + 1 - a)).filterMap (fun i => (l.getD (a + i) none).map (fun v => (a + i, v)))

def sumQ (l : List Rat) : Rat := l.foldl (· + ·) 0
def meanQ (l : List Rat) : Rat := sumQ l / (l.length : Rat)

/-- ℓ_i and z̄_i of a section (R193). -/
def sectionMeans (p : StackP) (s : List (Nat × Int)) : Rat × Rat :=
  (meanQ (s.map (fun q => (q.2 : Rat) / 16777216)), meanQ (s.map (fun q => zOf p q.1)))

/-- The standard deviation of T over a section exceeds `lim` kelvin, or a bin has no temperature (R194). -/
def spreadOver (p : StackP) (k : Consts) (s : List (Nat × Int)) (lim : Rat) : Bool :=
  let ts := s.filterMap (fun q => tempOf p k q.1 q.2)
  let m := meanQ ts
  let var := sumQ (ts.map (fun t => (t - m) * (t - m))) / (ts.length : Rat)
  decide (lim * lim < var)

/-- The new constants (R193). -/
def solveConsts (p : StackP) (live : Consts) (t0 t1 : Rat) (m0 m1 : Rat × Rat) : Consts :=
  let a0 := gammaQ p / t0 + m0.1
  let a1 := gammaQ p / t1 + m1.1
  let da := if p.solve = 0 then (a0 - a1) / (m0.2 - m1.2) else dAQ live
  let lnc := a0 - da * m0.2
  (rneQ (lnc * 16777216), if p.solve = 0 then rneQ (da * 1099511627776) else live.2)

/-- The outcome of a solution: 0 accepted, else the first failing check of R194; and the constants.
(Log: 95 DESIGN CHOICE.) -/
def judgeConsts (d : Dev) (n : Nat) (v : StackIv) (l : List (Option Int)) (first : Bool) : Nat × Consts :=
  let p := v.p
  let live := constsLive d n
  let s0 := sectionBins l p.ovenFirst p.ovenLast
  let s1 := sectionBins l p.ambFirst p.ambLast
  if v.counted * 256 < 2 ^ p.k * v.lim.fill then (1, live)
  else
    match refOf v v.lim.oven, refOf v v.lim.amb with
    | some r0, some r1 =>
      if 2 * s0.length < p.ovenLast + 1 - p.ovenFirst ∨ 2 * s1.length < p.ambLast + 1 - p.ambFirst ∨ s0.isEmpty ∨ s1.isEmpty then
        (3, live)
      else
        let m0 := sectionMeans p s0
        let m1 := sectionMeans p s1
        let t1 := refK r1
        let k := solveConsts p live (refK r0) t1 m0 m1
        let lim := ((v.lim.spread : Nat) : Rat) / 100
        let den1 := lnCQ k - m1.1 + dAQ k * m1.2
        let t1' := gammaQ p / den1
        let chk := ((v.lim.check : Nat) : Rat) / 100
        if spreadOver p k s0 lim || spreadOver p k s1 lim then (4, live)
        else if p.solve = 1 ∧ (den1 ≤ 0 ∨ chk < t1' - t1 ∨ chk < t1 - t1') then (5, live)
        else if !first && decide (v.lim.dlnC < (k.1 - live.1).natAbs) then (6, live)
        else if !first && p.solve == 0 && decide (v.lim.dda < (k.2 - live.2).natAbs) then (7, live)
        else (0, k)
    | _, _ => (2, live)

/-- The decision takes effect (R194, R195); the first solution after seeding has passed.
(Log: 95 DESIGN CHOICE.) -/
def applyConsts (d : Dev) (n : Nat) (r : Nat × Consts) (no : Nat) : Dev :=
  let p := pgStack n
  let d := setStack (setR d p F.STACK_LAST_REASON r.1) n { stack d n with seeded := false }
  let solved := getR d p F.STACK_CONST_STATE != 0
  let kept := if solved then 2 else 0
  if r.1 = 0 then
    let d := setR (setR (setConsts d n r.2) p F.STACK_CONST_STATE 1) p F.STACK_REJECT_RUN 0
    let d := setR (raise (bump d p F.STACK_ACCEPTS) p 9) p F.STACK_CONST_DEGRADED 0
    { d with almStack := Store.insert (Store.erase d.almStack n) n ⟨r.2.1, r.2.2, true⟩ }
  else
    let d := setR d p F.STACK_CONST_STATE kept
    if r.1 = 1 then d
    else
      let run := min 15 (getR d p F.STACK_REJECT_RUN + 1)
      let d := setR (raise (bump d p F.STACK_REJECTS) p 10) p F.STACK_REJECT_RUN run
      let d := ledgerNow d 0x0140 n (typeCode .stack) (r.1 :: leBytes 4 no)
      let was := flagR d p F.STACK_CONST_DEGRADED
      if 3 ≤ run then raiseOn (setR d p F.STACK_CONST_DEGRADED 1) p 11 was true else d

/-- At the first flip after a start the constants are restored or seeded; SEED seeds at any flip (R195).
(Log: 95 DESIGN CHOICE.) -/
def seedConsts (d : Dev) (n : Nat) : Dev :=
  let x := stack d n
  let p := pgStack n
  let seeds : Consts := (getS d p F.STACK_LNC_SEED, getS d p F.STACK_DALPHA_SEED)
  if x.seedWait || x.fresh then
    let stored := Store.find d.almStack n
    let k := match stored with
      | some c => if !x.seedWait && flagR d p F.STACK_ALM_RESTORE && c.ok then (c.lnC, c.dA) else seeds
      | none => seeds
    let d := setStack d n { x with seedWait := false, fresh := false, seeded := true }
    setR (setConsts d n k) p F.STACK_CONST_STATE 0
  else d

/-- STACK_SEED (R195). -/
def doSeed (t n v : Nat) (d : Dev) : Dev :=
  onPage (pgStack n) (fun d =>
    let p := pgStack n
    let d := setR d p F.STACK_ALM_RESTORE (bits v 1 1)
    if bit v 0 then setStack d n { stack d n with seedWait := true } else d) (advance d t)

def execStackSeed (t ln v : Nat) (s : State) : Host.Outcome State Fault Refusal :=
  act (decide (ln < 12)) s (doSeed t ln v)

/-! ## The flip (R186, R190, R195, R196) -/

/-- OVEN_T and AMB_T (R206). -/
def refsShow (d : Dev) (n : Nat) (v : StackIv) : Dev :=
  let ref (c : Nat) : Int := ((refOf v c).map rneQ).getD 0
  setS (setS d (pgStack n) F.STACK_OVEN_T (ref v.lim.oven)) (pgStack n) F.STACK_AMB_T (ref v.lim.amb)

/-- STACK_FLIP: the oldest closed stack becomes the resting stack (R186).
(Log: 92 DEDUCED.) -/
def doFlip (t n : Nat) (d : Dev) : Dev :=
  let x := stack d n
  match x.closed with
  | [] => advance d t
  | v :: r =>
    let d := advance d (max t v.flipAt)
    let p := pgStack n
    let d := seedConsts d n
    let x := stack d n
    let l := lnRs d n v
    let d := setStack d n { x with closed := r, prevLn := (x.rest.map (·.lnR)).getD [], prevP := x.rest.map (·.iv.p), nextNo := x.nextNo + 1,
                                   rest := some ⟨x.nextNo, v, l, [], true⟩ }
    let d := setR (setR d p F.STACK_STACK_NO x.nextNo) p F.STACK_COUNTED v.counted
    raise (refsShow d n v) p 8

def execStackFlip (t ln : Nat) (s : State) : Host.Outcome State Fault Refusal :=
  act (decide (ln < 12)) s (doFlip t ln)

/-! ## Raman temperature at a channel (R202, R203) -/

/-- z_j of an acoustic channel in metres (R162). -/
def chanZ (origin : Int) (spacing j : Nat) : Rat := ((origin + (j * spacing : Nat) : Int) : Rat) / 1024

/-- T_R at `z`: interpolated between the two bin centres on either side; that of one bin where the other
has no value and `z` lies within one bin width of it. -/
def trAt (p : StackP) (ts : List (Option Int)) (z : Rat) : Option Int :=
  let w := ((2 ^ p.j : Nat) : Rat) * dzT p
  let u := (z - zOf p 0) / w
  let q := u.floor
  let get (k : Int) : Option Int := if k < 0 then none else ts.getD k.toNat none
  match get q, get (q + 1) with
  | some a, some b => some (rneQ ((a : Rat) + ((b - a : Int) : Rat) * (u - (q : Rat))))
  | some a, none => some a
  | none, some b => some b
  | none, none => none

/-! ## Drift filter (R202, R203) -/

/-- The A filter restarts: every channel takes the first case of R203. -/
def driftRestart (d : Dev) (n : Nat) : Dev :=
  setStack d n { stack d n with a := [], rSum := [], theta := [], miss := [], thNew := true }

/-- The rate that a channel's value contributes (R202). -/
def driftRate (v : ChanV) : Int := if bit v.marks 0 || bit v.marks 5 || bit v.marks 3 then 0 else v.v

/-- δθ in 2^-40 rad for a sum of rates of frames spaced `iout`. -/
def dTheta (iout : Nat) (r : Int) : Int := rne (r * ((iout * 2 ^ 40 : Nat) : Int)) (2 ^ 32 * 100000000)

/-- One channel at an A instant: its value, T_R, δθ in 2^-40 rad, whether three consecutive flips gave it no T_R since its
latest value, Δt in seconds (R202, R203). -/
def driftStep (kT : Int) (tau : Nat) (dt : Rat) (a : Option Int) (tr : Option Int) (dth : Int) (lost : Bool) : Option Int :=
  match (if lost then none else a), tr with
  | none, t => t
  | some a, some t => some (rneQ ((a : Rat) + (kT * dth : Int) / ((2 ^ 48 : Nat) : Rat) + dt / (tau : Rat) * ((t - a : Int) : Rat)))
  | some a, none => some (a + rne (kT * dth) (2 ^ 48))

/-- The flips without T_R that channel `j` has missed in a row after those of `rs`, oldest first, and whether the row
reached three (R203).
(Log: 252 DEDUCED.) -/
def driftMiss (p : PlanRec) (j : Nat) (rs : List TherRes) (m : Nat) : Nat × Bool :=
  rs.foldl (fun a r =>
    let m := if (trAt r.p r.temps (chanZ p.origin p.spacing j)).isSome then 0 else a.1 + 1
    (m, a.2 || decide (3 ≤ m))) (m, false)

/-- The running integrals θ at the A instant `inst`, in 2^-16 tick, enter the mean of the interval that holds it (R204). -/
def thetaIn (inst chans : Nat) (th : List Int) (closed : Bool) (i : StackIv) : StackIv :=
  if inst < 65536 * i.openAt ∨ (closed ∧ 65536 * i.flipAt ≤ inst) then i
  else { i with thSum := ((padI chans i.thSum).zip th).map (fun q => q.1 + q.2), thN := i.thN + 1 }

/-- The filter takes the channel rates of a frame, and at an A instant updates every A value (R202, R203). -/
def driftFrame (d : Dev) (n : Nat) (p : PlanRec) (num inst : Nat) (chans : List ChanV) : Dev :=
  let x := stack d n
  let rs := ((padI p.channels x.rSum).zip chans).map (fun q => q.1 + driftRate q.2)
  if !p.aEn then d
  else if num % aDivOf p ≠ 0 then setStack d n { x with rSum := rs }
  else
    let io := ioutOf p
    let raw := rs.map (dTheta io)
    let ref := match p.dref with
      | some (a, b) =>
        let l := (raw.drop a).take (b + 1 - a)
        rne (sumI l) (max 1 l.length)
      | none => 0
    let dth := raw.map (· - ref)
    let due := if p.tEn then x.thermal.filter (fun r => decide (65536 * (r.flipAt + msT 10) ≤ inst)) else []
    let res := due.head?
    let new := (due.filter (fun r => (x.lastFlip.map (fun f => decide (f < r.flipAt))).getD true)).reverse
    let tr (j : Nat) : Option Int := res.bind (fun r => trAt r.p r.temps (chanZ p.origin p.spacing j))
    let dt : Rat := ((aDivOf p * io : Nat) : Rat) / ((65536 * 100000000 : Nat) : Rat)
    let (_, k, tau) := shotCfgAt d n inst
    let miss (j : Nat) : Nat × Bool := driftMiss p j new (x.miss.getD j 0)
    let a (j : Nat) : Option Int :=
      if res.isNone then none
      else driftStep (sx 32 k) (max 1 tau) dt (x.a.getD j none) (tr j) (dth.getD j 0) (miss j).2
    let js := List.range p.channels
    let th := ((padI p.channels x.theta).zip dth).map (fun q => q.1 + q.2)
    let flip := (res.map (·.flipAt)).orElse (fun _ => x.lastFlip)
    let put := thetaIn inst p.channels th
    setStack d n { x with
      rSum := [], a := js.map a, miss := js.map (fun j => (miss j).1), lastFlip := flip, theta := th,
      thermal := x.thermal.filter (fun r => (flip.map (fun f => decide (f ≤ r.flipAt))).getD true),
      cur := x.cur.map (put false), closed := x.closed.map (put true),
      rest := x.rest.map (fun r => if r.todo then { r with iv := put true r.iv } else r) }

/-- The A code of a channel (R202). -/
def aCode (a : Option Int) : Int :=
  match a with
  | none => -32768
  | some v => sat16 (rne (200 * v) 16777216)

/-! ## Suspects (R204) and rise (R196) -/

/-- Bins with a value in both stacks and ΔT of at least RISE_TH. -/
def riseBins (now prev : List (Option Rat)) (th : Rat) : List Nat :=
  (List.range now.length).filter (fun q =>
    match now.getD q none, prev.getD q none with
    | some a, some b => decide (th ≤ a - b)
    | _, _ => false)

/-- The mean of θ over the A instants of an interval, where it has one (R204). -/
def thMean (v : StackIv) : Option (List Int) :=
  if v.thN = 0 then none else some ((padI v.p.chans v.thSum).map (fun q => rne q v.thN))

/-- Which channels are STRAIN_SUSPECT, from the mean of θ over this interval and over the previous one (R204). -/
def suspects (v : StackIv) (before : Option (List Int)) (now prev : List (Option Rat)) (pp : StackP) : List Bool :=
  let fix (l : List (Option Rat)) : List (Option Int) := l.map (fun t => t.map tempFix)
  let tn := fix now
  let tp := fix prev
  let lim := ((v.lim.suspect : Nat) : Rat) / 100 * 16777216
  match thMean v, (if v.thNew then none else before) with
  | some m, some mp =>
    (List.range v.p.chans).map (fun j =>
      let z := chanZ v.p.origin v.p.spacing j
      match trAt v.p tn z, trAt pp tp z with
      | some a, some b =>
        let dr : Rat := (v.lim.kT * (m.getD j 0 - mp.getD j 0) : Int) / ((2 ^ 48 : Nat) : Rat)
        let e := dr - ((a - b : Int) : Rat)
        decide (lim < e) || decide (lim < -e)
      | _, _ => false)
  | _, _ => List.replicate v.p.chans false

/-- The evaluation of R204 at a thermal frame.
(Log: 252 DEDUCED.) -/
def suspectShow (d : Dev) (n : Nat) (v : StackIv) (now prev : List (Option Rat)) (pp : StackP) : Dev :=
  let x := stack d n
  let l := suspects v x.thPrev now prev pp
  let k := (l.filter id).length
  let q := pgStack n
  let was := getR d q F.STACK_SUSPECT_CHANNELS
  let d := setStack d n { x with suspect := l, thPrev := thMean v }
  let d := setR (setR d q F.STACK_SUSPECT_CHANNELS k) q F.STACK_SUSPECT_ANY (b2n (decide (0 < k)))
  raiseOn d q 13 (was != 0) (decide (0 < k))

/-! ## The thermal frame (R197–R200) -/

/-- Bits to bytes, lowest first. -/
def packBits (l : List Bool) : List Nat :=
  (List.range (cdiv l.length 8)).map (fun i =>
    (List.range 8).foldl (fun a b => a + b2n (l.getD (8 * i + b) false) * 2 ^ b) 0)

/-- The mark bytes of R173: one per block of 64 items. -/
def markBytes (marks : List Nat) : List Nat :=
  (List.range (cdiv marks.length 64)).map (fun i => ((marks.drop (64 * i)).take 64).foldl (· ||| ·) 0)

/-- The planes' bytes (R199, R200). -/
def thermalPlanes (d : Dev) (n : Nat) (v : StackIv) (l : List (Option Int)) (codes : List (Int × Bool)) : List Nat :=
  let m := v.p.mask
  let qs := (List.range (v.p.bins - v.p.bg)).map (· + v.p.bg)
  let t := qs.flatMap (fun q => leBytes 2 (ux 16 ((codes.getD q (-32768, false)).1)))
  let r := qs.flatMap (fun q => leBytes 4 (ux 32 ((l.getD q none).getD (-(2 ^ 31)))))
  let x := qs.flatMap (fun q =>
    let a := v.bank0.getD q BinAcc.zero
    let b := v.bank1.getD q BinAcc.zero
    [a.mn, a.mx, b.mn, b.mx].flatMap (fun i => leBytes 2 (ux 16 i)))
  let gap := 32 * b2n (decide (v.counted < 2 ^ v.p.k))
  let marks := qs.map (fun q =>
    let c := codes.getD q (-32768, false)
    let sat := c.2 || (v.bank0.getD q BinAcc.zero).sat || (v.bank1.getD q BinAcc.zero).sat
    b2n (c.1 == -32768) + 4 * b2n sat + gap)
  let s := packBits (padTo v.p.chans ((stack d n).suspect.map b2n) |>.map (· == 1))
  (if bit m 0 then t else []) ++ (if bit m 1 then r else []) ++ (if bit m 2 then x else []) ++
    (if bit m 3 then markBytes marks else []) ++ (if bit m 4 then s else [])

/-- The time of a thermal frame: the middle of its interval (R198). -/
def thermalTime (d : Dev) (v : StackIv) : Int := d.time.base + 655360 * ((v.openAt + v.flipAt : Nat) : Int) / 2

/-- The flags of R200. -/
def thermalFlags (d : Dev) (n : Nat) (v : StackIv) (codes : List (Int × Bool)) : Nat :=
  b2n (unqualAt d (thermalTime d v)) + 2 * b2n (decide (0 < v.staleN)) + 4 * b2n (decide (v.instants < 2 ^ v.p.k)) + 8 * b2n v.missed +
    16 * b2n (getR d (pgStack n) F.STACK_CONST_STATE != 1) + 64 * b2n (decide (0 < v.satN) || codes.any (·.2)) +
    256 * b2n v.safe + 512 * b2n (v.pace != 0) + 1024 * b2n v.cal + 2048 * b2n v.sync

/-- The whole thermal frame. -/
def thermalBytes (d : Dev) (n : Nat) (r : RestSt) (codes : List (Int × Bool)) : List Nat :=
  let v := r.iv
  let p := v.p
  let width := ((2 ^ p.j : Nat) : Rat) * dzT p
  let h := headTop d 0x4754 n (thermalFlags d n v codes) r.no (thermalTime d v) (getR d pgPace F.PACE_STEP) p.mask ++
    leBytes 4 (ux 32 (rneQ (zOf p p.bg * 1024))) ++ leBytes 4 (rneQ (width * 65536)).toNat ++
    leBytes 4 (p.bins - p.bg) ++ [p.j, p.k, getR d (pgStack n) F.STACK_CONST_STATE, p.solve] ++
    leBytes 4 p.plan ++ leBytes 4 v.counted ++ leBytes 4 v.satN
  withCrc h ++ thermalPlanes d n v r.lnR codes

/-- Of the thermal results, newest first, those that an A instant from now on can still use: while no A plane is built, the
latest 10 ms old and those younger (R202). -/
def therKeep (d : Dev) (n : Nat) (l : List TherRes) : List TherRes :=
  if flagL d (pgFrame n) F.FRAME_A_EN then l
  else
    let young (r : TherRes) : Bool := decide (d.ticks < r.flipAt + msT 10)
    l.takeWhile young ++ (l.dropWhile young).take 1

/-- THERMAL_FRAME_BUILT: the stack engine solves the constants for the resting stack, computes its
temperatures, and unless the flip fell in PAUSED places the thermal frame (R190–R204).
(Log: 88 DESIGN CHOICE.) -/
def doThermal (t n : Nat) (d : Dev) : Dev :=
  let d := advance d t
  let x := stack d n
  match x.rest with
  | none => d
  | some r =>
    if !r.todo then d
    else
      let v := r.iv
      let p := pgStack n
      let d := refsShow d n v
      let d := applyConsts d n (judgeConsts d n v r.lnR x.seeded) r.no
      let k := constsLive d n
      let now := tempsOf v.p k r.lnR
      let pp := x.prevP.getD v.p
      let prev := tempsOf pp k x.prevLn
      let codes := now.map tCodeOf
      let none_ := (((List.range v.p.bins).filter (fun q => decide (v.p.bg ≤ q) && (now.getD q none).isNone)).length)
      let d := setR d p F.STACK_NO_VALUE_BINS none_
      let rise := riseBins now prev (((v.lim.rise : Nat) : Rat) / 100)
      let d := setR (setR d p F.STACK_RISE_BINS rise.length) p F.STACK_FIRST_RISE (rise.headD 0x1FFFF)
      let d := onlyIf (!rise.isEmpty) (fun d => latchTerm (raise d p 12) n 16 (thermalTime d v)) d
      let r := { r with todo := false, tCode := codes.map (·.1) }
      let d := setStack d n { stack d n with rest := some r }
      if v.flipSt = 5 ∨ v.flipSt = 0 ∨ v.flipSt = 6 then d
      else
        let res : TherRes := ⟨v.flipAt, v.p, now.map (fun t => t.map tempFix)⟩
        let d := setStack d n { stack d n with thermal := therKeep d n (res :: (stack d n).thermal) }
        let d := suspectShow d n v now prev pp
        (placeFrame d n 1 r.no (thermalBytes d n r codes)).2

def execThermalFrameBuilt (t ln : Nat) (s : State) : Host.Outcome State Fault Refusal :=
  act (decide (ln < 12)) s (doThermal t ln)

/-- STATE of the STACK page (R206), and the settings at a start from OFF or a plan change (R186, R203). -/
def stackShow (d : Dev) (n : Nat) : Dev :=
  let st := lineState d n
  setR d (pgStack n) cSTATE (b2n (kv d n F.STACK_EN == 1 && st != 0 && st != 6))

/-- A start from OFF: the stack number is 0 at the first flip, and the filter restarts. -/
def stackFresh (d : Dev) (n : Nat) : Dev :=
  driftRestart (setStack d n { StackSt.reset with rest := (stack d n).rest, seedWait := (stack d n).seedWait }) n

end Sys2Proof.Machine
end

