-- ==== Sys2Proof/Machine/Registers.lean ====
section
/-! DEFINITION. The common registers: events, counters, MSI-X, the Catalogue, the latched time and
Stocktake (R43–R62). Writes of whole words stand in Machine/Access.lean. -/

namespace Sys2Proof.Machine

open Sys2Proof

/-! ## Counters and events -/

/-- SUM, COUNT, MIN and MAX of a record cleared; LATEST keeps its value (R276).
(Log: 21 DESIGN CHOICE.) -/
def clearRec (r : AccRec) : AccRec := { r with sum := 0, count := 0, mn := 0x7FFFFFFF, mx := -0x80000000 }

/-- Every counter and since-clear tracker of page `p` cleared (R50); the snapshot half is not. -/
def clearCounters (d : Dev) (p : Nat) (k : PageKind) : Dev :=
  let d := if p = pgSvc then { d with svcRec := d.svcRec.foldl (fun m e => Store.set m AccRec.reset e.1 (clearRec e.2)) d.svcRec } else d
  ((rowsOf k).filter (·.ctr)).foldl (fun d r =>
    (List.range r.n1).foldl (fun d i =>
      (List.range r.n2).foldl (fun d j => setR d p (rowFld r i j) 0) d) d) d

/-- EVT_CLR: the ones of `v` clear their EVT_RAW bits; `same` holds the bits that the device raises
in the same cycle, which stay set (R55).
(Log: 26 DESIGN CHOICE.) -/
def doEvtClr (t p v same : Nat) (d : Dev) : Dev :=
  let d := advance d t
  if pageOk p then
    onPage p (fun d => if p = pgPaceTbl then d else
      { d with evt := Store.set d.evt 0 p (andNot (evtRaw d p) (v % 2 ^ 32) ||| same % 2 ^ 32) }) d
  else badAccess d

def execEvtClr (t pg v same : Nat) (s : State) : Host.Outcome State Fault Refusal :=
  act true s (doEvtClr t pg v same)

/-- EVT_SET: the ones of `v` set their EVT_RAW bits as if the device had raised them (R55). -/
def doEvtSet (t p v : Nat) (d : Dev) : Dev :=
  let d := advance d t
  if pageOk p then
    onPage p (fun d => if p = pgPaceTbl then d else
      { d with evt := Store.set d.evt 0 p (evtRaw d p ||| v % 2 ^ 32) }) d
  else badAccess d

def execEvtSet (t pg v : Nat) (s : State) : Host.Outcome State Fault Refusal :=
  act true s (doEvtSet t pg v)

/-! ## MSI-X -/

/-- VEC_REARM: each active vector named by a 1 in word `half` (0 LO, 1 HI) sends its message again, or
sets its pending bit while masked (R57). -/
def doVecRearm (t half v : Nat) (d : Dev) : Dev :=
  let d := advance d t
  let vs := (vecsActive d).filter (fun x => decide (x / 32 = half) && bit v (x % 32))
  vs.foldl sendVec d

def execVecRearm (t half v : Nat) (s : State) : Host.Outcome State Fault Refusal :=
  act (decide (half < 2)) s (doVecRearm t half v)

/-- MSIX_UNMASK: the host writes the Mask bit of vector `v` and the Function Mask; every vector that is
then unmasked with its pending bit set sends its message and the bit clears (R57). -/
def doMsixUnmask (t v : Nat) (mask func : Bool) (d : Dev) : Dev :=
  let d := advance d t
  let ms := d.irq.masked.filter (· != v)
  let q := { d.irq with masked := if mask then v :: ms else ms, funcMask := func }
  let go := (List.range 64).filter (fun x => q.pba.contains x && !vecMasked q x)
  { d with irq := { q with pba := q.pba.filter (fun x => !go.contains x) },
           out := d.out ++ go.map Output.msix }

def execMsixUnmask (t vec : Nat) (mask func : Bool) (s : State) : Host.Outcome State Fault Refusal :=
  act (decide (vec < 64)) s (doMsixUnmask t vec mask func)

/-! ## Reads with an effect -/

/-- CAT_ENTRY_HI_READ: the selected entry's upper word is returned and INDEX advances by 1 (R51).
(Log: 27 DESIGN CHOICE.) -/
def doCatRead (t : Nat) (d : Dev) : Dev :=
  let d := advance d t
  let d := emit d (.readData ((catSel d).elim 0 entryHi))
  setR d pgCat F.CAT_INDEX (getR d pgCat F.CAT_INDEX + 1)

def execCatEntryHiRead (t : Nat) (s : State) : Host.Outcome State Fault Refusal :=
  act true s (doCatRead t)

/-- The time counter latched into NOW_S, NOW_NS and NOW_SUB (R301).
(Log: 142 DEDUCED.) -/
def latchNow (d : Dev) : Dev :=
  let x := tai d
  setR (setR (setR d pgTime F.TIME_NOW_S (taiSec x)) pgTime F.TIME_NOW_NS (taiNs x))
    pgTime F.TIME_NOW_SUB (taiSub x)

/-- NOW_READ: a read of TIME.NOW_S_LO latches the whole counter (R301). -/
def doNowRead (t : Nat) (d : Dev) : Dev :=
  let d := advance d t
  onPage pgTime (fun d => emit (latchNow d) (.readData (taiSec (tai d) % 2 ^ 32))) d

def execNowRead (t : Nat) (s : State) : Host.Outcome State Fault Refusal :=
  act true s (doNowRead t)

/-! ## Stocktake (R58–R62) -/

/-- One millisecond in units of 2^-16 ns. -/
def msU : Int := 65536000000

/-- The first Pacer tick boundary at least `n` ticks from now (R58, R420).
(Log: 198 DESIGN CHOICE.) -/
def nextPacer (d : Dev) (n : Nat) : Int :=
  let x := tai d + 655360 * (n : Int)
  (x + msU - 1) / msU * msU

/-- STOCKTAKE.REQ reads 1, and PENDING is 1, while a Stocktake is pending (R58). -/
def stkShow (d : Dev) : Dev :=
  let v := b2n (!d.stk.isEmpty)
  setR (setR d pgPkg F.PKG_STK_REQ v) pgPkg F.PKG_STK_PENDING v

/-- A Stocktake begins.
(Log: 247 DESIGN CHOICE.) -/
def stkBegin (d : Dev) (k : StkSt) : Dev := stkShow { d with stk := d.stk ++ [k] }

/-- The Baton port UP (0) or DOWN (1) is UP. -/
def batonUp (d : Dev) (port : Nat) : Bool :=
  getR d pgBtn (if port = 0 then F.BTN_UP_STATE else F.BTN_DOWN_STATE) == 2

/-- A message on a Baton port, where its link is UP (R39). -/
def batonSend (d : Dev) (port kind : Nat) (fields : List Int) : Dev :=
  onlyIf (batonUp d port) (fun d => emit d (.baton port kind fields)) d

/-- The package is the time master (R38). -/
def isMaster (d : Dev) : Bool := flagR d pgTime F.TIME_MASTER

/-- The master sets T and sends it down the chain (R61 steps 2 and 3). -/
def stkMaster (d : Dev) (own : Option Nat) : Dev :=
  let x := nextPacer d (usT 100)
  let e := (d.stkEpoch + 1) % 65536
  batonSend (stkBegin d ⟨own, true, some x, e, [], false⟩) 1 1 [x, (e : Int)]

/-- A system request fails (R61): PENDING clears, SYS_FAILED is set, STOCKTAKE_FAILED raised. -/
def stkFail (d : Dev) : Dev :=
  let d := stkShow { d with stk := d.stk.filter (fun k => !k.system) }
  raise (setR d pgPkg F.PKG_SYS_FAILED 1) pgPkg 16

/-- STOCKTAKE_REQ: word `v` is written to PKG.STOCKTAKE: SYSTEM and RING_OUT are set, and REQ requests a
Stocktake or joins the pending one (R58, R59, R61). -/
def doStkReq (t v : Nat) (d : Dev) : Dev :=
  let d := advance d t
  let d := setR d pgPkg F.PKG_STK_SYSTEM (bits v 1 1)
  let d := setR d pgPkg F.PKG_STK_RING_OUT (bits v 2 1)
  if bit v 0 then
    if !d.stk.isEmpty then bump d pgPkg F.PKG_STK_MERGED
    else if bit v 1 then
      if isMaster d then stkMaster d (some d.ticks)
      else if batonUp d 0 then
        batonSend (stkBegin d ⟨some d.ticks, true, none, 0, [], false⟩) 0 0 []
      else stkFail d
    else stkBegin d ⟨some d.ticks, false, some (nextPacer d (usT 20)), (d.stkEpoch + 1) % 65536, [], false⟩
  else d

def execStocktakeReq (t v : Nat) (s : State) : Host.Outcome State Fault Refusal :=
  act true s (doStkReq t v)

/-- STOCKTAKE_FORWARD: a system request from a package below arrives on DOWN: the master sets T, or
joins it to the pending one; another package carries it up (R61 step 1).
(Log: 28 DEDUCED.) -/
def doStkForward (t : Nat) (d : Dev) : Dev :=
  let d := advance d t
  if !batonUp d 1 then d
  else if isMaster d then
    if d.stk.isEmpty then stkMaster d none else bump d pgPkg F.PKG_STK_MERGED
  else batonSend d 0 0 []

def execStocktakeForward (t : Nat) (s : State) : Host.Outcome State Fault Refusal :=
  act true s (doStkForward t)

/-- The words of 0x400–0x5FF that follow other state are copied word by word. -/
def snapComputed (d : Dev) (p : Nat) : Store Nat :=
  (List.range 128).foldl (fun m i =>
    match liveWord d p (0x400 + 4 * i) with
    | some w => Store.set m 0 (key p ⟨0x400 + 4 * i, 0, 32, 0⟩) w
    | none => m) d.snap

/-- Page `p` copies 0x400–0x5FF into its snapshot half and takes epoch `e` (R58 step 3). -/
def snapPage (e : Nat) (d : Dev) (p : Nat) : Dev :=
  let lo := key p ⟨0x400, 0, 0, 0⟩
  let hi := key p ⟨0x600, 0, 0, 0⟩
  let now := d.regs.filter (fun x => decide (lo ≤ x.1) && decide (x.1 < hi))
  let base := Store.clearRange d.snap lo hi
  let d := { d with snap := snapComputed { d with snap := base } p }
  let d := { d with snap := now.foldl (fun m x => Store.insert (Store.erase m x.1) x.1 x.2) d.snap,
                    snapTaken := if d.snapTaken.contains p then d.snapTaken else p :: d.snapTaken }
  setR d p cSTOCKTAKE e

/-- The 520 bytes of page `p` in a snapshot item (R406). -/
def snapBytes (d : Dev) (p : Nat) : List Nat :=
  match kindOf p with
  | none => []
  | some k =>
    leBytes 4 (pageId p k) ++ leBytes 4 (commonWord d p k 0x028) ++
    (List.range 128).flatMap (fun i => leBytes 4 (snapWord d p k (0x400 + 4 * i)))

/-- The snapshot item of R406. -/
def snapItem (d : Dev) (system : Bool) (e : Nat) (x : Int) : List Nat :=
  let b := leBytes 2 0x474B ++ [1, pkgIndex d + 128 * b2n system] ++ leBytes 2 e ++ leBytes 2 483 ++
    leBytes 4 (taiSec x) ++ leBytes 4 (taiNs x) ++ List.replicate 16 0 ++ allPages.flatMap (snapBytes d)
  b ++ leBytes 4 (crc32c b)

/-- A Stocktake completes: PENDING clears, SYS_FAILED clears, STOCKTAKE_DONE is raised (R58, R61). -/
def stkDone (d : Dev) (k : StkSt) : Dev :=
  let d := stkShow { d with stk := d.stk.filter (fun j => j.system != k.system) }
  let d := setR d pgPkg F.PKG_LAST_EPOCH k.epoch
  let d := setR d pgPkg F.PKG_LAST_SYSTEM (b2n k.system)
  let d := setR d pgPkg F.PKG_SYS_FAILED 0
  raise d pgPkg 8

/-- The snapshots of Stocktake `k` are taken at its instant `x` (R58 steps 3 and 4, R59, R61). -/
def stkTake (d : Dev) (k : StkSt) (x : Int) : Dev :=
  let d := (allPages.filter (fun p => !pageFenced d p)).foldl (snapPage k.epoch) d
  let d := { d with stkEpoch := k.epoch, svcSnap := if pageFenced d pgSvc then d.svcSnap else d.svcRec }
  let d := setR (setR d pgPkg F.PKG_STK_TAI_S (taiSec x)) pgPkg F.PKG_STK_NS (taiNs x)
  let d := onlyIf (flagR d pgPkg F.PKG_STK_RING_OUT)
    (fun d => offerBytes d 27 (snapItem d k.system k.epoch x)) d
  if k.system && isMaster d then
    { d with stk := d.stk.map (fun j => if j.system then { j with taken := true } else j) }
  else
    let d := stkDone d k
    onlyIf k.system (fun d => batonSend d 0 2 [(pkgIndex d : Int)]) d

/-- STOCKTAKE_INSTANT: the instant T of the earliest Stocktake not yet taken (R58, R61). -/
def doStkInstant (t : Nat) (d : Dev) : Dev :=
  let due := d.stk.filter (fun k => !k.taken && k.instant.isSome)
  let first := due.foldl (fun a k => match a with
    | none => some k
    | some j => if k.instant.getD 0 < j.instant.getD 0 then some k else some j) (none : Option StkSt)
  match first with
  | none => advance d t
  | some k =>
    let x := k.instant.getD 0
    stkTake (advance d (max t (d.ticks + ticksUntil d x))) k x

def execStocktakeInstant (t : Nat) (s : State) : Host.Outcome State Fault Refusal :=
  act true s (doStkInstant t)

/-- A Stocktake whose instant T is this very tick is taken now (R59).
(Log: 234 DEDUCED.) -/
def stkCatch (d : Dev) : Dev :=
  if d.stk.any (fun k => !k.taken && (k.instant.map (fun x => ticksUntil d x == 0)).getD false) then doStkInstant d.ticks d else d

/-- CTRL.CLR_COUNTERS clears the counters of page `p`, after the Stocktake of this cycle (R50, R59).
(Log: 234 DEDUCED.) -/
def clearPage (d : Dev) (p : Nat) (k : PageKind) : Dev :=
  let d := stkCatch d
  let n := (lineOfPage p).getD 0
  let d := onlyIf (decide (k = .starter)) (fun d => clipRun d n d.ticks) d
  clearCounters (onlyIf (decide (k = .stride)) (fun d => waitNote d n (p - pgStride n 0)) d) p k

/-- CLR_COUNTERS: CTRL.CLR_COUNTERS is written on page `p` (R43, R50); PACE_TBL has no CTRL (R44). -/
def doClrCounters (t p : Nat) (d : Dev) : Dev :=
  let d := advance d t
  match kindOf p with
  | none => badAccess d
  | some k => onPage p (fun d => if p = pgPaceTbl then d else clearPage d p k) d

def execClrCounters (t pg : Nat) (s : State) : Host.Outcome State Fault Refusal :=
  act true s (doClrCounters t pg)

/-- STOCKTAKE_T_WORD: the instant `x` and the epoch arrive from the master on UP; a package that
receives T before T adopts it, and it passes the word down (R61, R329).
(Log: 28 DEDUCED, 247 DESIGN CHOICE.) -/
def doStkTWord (t : Nat) (x : Int) (e : Nat) (d : Dev) : Dev :=
  let d := advance d t
  if isMaster d || !batonUp d 0 then d
  else
    let d := batonSend d 1 1 [x, (e : Int)]
    if x ≤ tai d then d
    else
      let own := (d.stk.find? (·.system)).bind (·.reqAt)
      stkBegin { d with stk := d.stk.filter (fun k => !k.system) } ⟨own, true, some x, e, [], false⟩

def execStocktakeTWord (t : Nat) (inst : Int) (epoch : Nat) (s : State) :
    Host.Outcome State Fault Refusal :=
  act (decide (epoch < 65536)) s (doStkTWord t inst epoch)

/-- STOCKTAKE_CONFIRM: the confirmation of package `i` arrives on DOWN; it counts at the master within
2 ms of T, and another package carries it up (R61 step 5, R329). -/
def doStkConfirm (t i : Nat) (d : Dev) : Dev :=
  let d := advance d t
  if !batonUp d 1 then d
  else if isMaster d then
    { d with stk := d.stk.map (fun k =>
        if k.system && k.taken && !k.confirms.contains i && decide (tai d ≤ k.instant.getD 0 + 2 * msU) then
          { k with confirms := k.confirms ++ [i] } else k) }
  else batonSend d 0 2 [(i : Int)]

def execStocktakeConfirm (t idx : Nat) (s : State) : Host.Outcome State Fault Refusal :=
  act (decide (idx < 8)) s (doStkConfirm t idx)

/-- STOCKTAKE_MASTER_CLOSE: at T + 2 ms the master's ANSWERED and PARTIAL are final and it completes
(R61 steps 5 and 6). -/
def doStkClose (t : Nat) (d : Dev) : Dev :=
  match d.stk.find? (fun k => k.system && k.taken) with
  | none => advance d t
  | some k =>
    let d := advance d (max t (d.ticks + ticksUntil d (k.instant.getD 0 + 2 * msU)))
    let part := batonUp d 1 && d.baton.below.any (fun i => !k.confirms.contains i)
    let d := setR d pgPkg F.PKG_ANSWERED (1 + k.confirms.length)
    let d := setR d pgPkg F.PKG_PARTIAL (b2n part)
    onlyIf part (fun d => raise d pgPkg 9) (stkDone d k)

def execStocktakeMasterClose (t : Nat) (s : State) : Host.Outcome State Fault Refusal :=
  act true s (doStkClose t)

/-- STOCKTAKE_SYS_TIMEOUT: no T has come within 10 ms of a system request on a package that is not the
master: it fails (R61). -/
def doStkTimeout (t : Nat) (d : Dev) : Dev :=
  match d.stk.find? (fun k => k.system && k.instant.isNone) with
  | none => advance d t
  | some k => stkFail (advance d (max t (k.reqAt.getD 0 + msT 10)))

def execStocktakeSysTimeout (t : Nat) (s : State) : Host.Outcome State Fault Refusal :=
  act true s (doStkTimeout t)

end Sys2Proof.Machine
end

