-- ==== Sys2Proof/Machine/Stride.lean ====
section
/-! DEFINITION. A Stride core: its registers and banks, fetch and retirement with the exposed latencies, faults,
interrupt sources, mailboxes and ports (R207–R236). The instructions stand in the files StrideAlu,
StrideMem, StrideMac and StrideCtl. -/

namespace Sys2Proof.Machine

open Sys2Proof

/-! ## Registers (R207) -/

/-- The keys of the registers: banked ones at + 100 in the shadow bank. -/
def kD (b i : Nat) : Nat := if i < 8 then i else i + 100 * b
def kA (b i : Nat) : Nat := if i < 2 then 20 + i else 20 + i + 100 * b
def kP (b i : Nat) : Nat := if i < 4 then 30 + i else 30 + i + 100 * b
def kB (i : Nat) : Nat := 40 + i
def kL (i : Nat) : Nat := 50 + i
def kM (i : Nat) : Nat := 60 + i
def kStat (b : Nat) : Nat := 70 + 100 * b

/-- The bank in force: 0 main, 1 shadow. -/
def bank (x : CoreSt) : Nat := b2n x.isr

def rdKey (x : CoreSt) (k : Nat) : Nat := Store.get x.regs 0 k
/-- D, A (signed), P, B, L, M (signed) and STAT as an instruction reads them. -/
def rdD (x : CoreSt) (i : Nat) : Nat := rdKey x (kD (bank x) i)
def rdA (x : CoreSt) (i : Nat) : Int := sx 40 (rdKey x (kA (bank x) i))
def rdP (x : CoreSt) (i : Nat) : Nat := rdKey x (kP (bank x) i)
def rdB (x : CoreSt) (i : Nat) : Nat := rdKey x (kB i)
def rdL (x : CoreSt) (i : Nat) : Nat := rdKey x (kL i)
def rdM (x : CoreSt) (i : Nat) : Int := sx 16 (rdKey x (kM i))
def rdStat (x : CoreSt) : Nat := rdKey x (kStat (bank x))
/-- D signed, and its halves. -/
def rdS (x : CoreSt) (i : Nat) : Int := sx 32 (rdD x i)

/-- A write of a register in the bank in force. -/
def wrD (x : CoreSt) (i : Nat) (v : Int) : Nat × Nat := (kD (bank x) i, ux 32 v)
def wrA (x : CoreSt) (i : Nat) (v : Int) : Nat × Nat := (kA (bank x) i, ux 40 v)
def wrP (x : CoreSt) (i : Nat) (v : Int) : Nat × Nat := (kP (bank x) i, ux 16 v)
/-- STAT with further bits set. -/
def wrStat (x : CoreSt) (m : Nat) : Nat × Nat := (kStat (bank x), rdStat x ||| m)

/-- Register writes in order, the later ones kept (R211). -/
def putRegs (r : Store Nat) (l : List (Nat × Nat)) : Store Nat := l.foldl (fun r w => Store.set r 0 w.1 w.2) r

/-! ## The core store (R208, R209) -/

/-- The 32-bit word at byte address `a`, and a half. -/
def memW (x : CoreSt) (a : Nat) : Nat := Store.get x.mem 0 (a / 4)
def memH (x : CoreSt) (a : Nat) : Nat := bits (memW x a) (8 * (a / 2 % 2 * 2)) 16
def putW (x : CoreSt) (a v : Nat) : CoreSt := { x with mem := Store.set x.mem 0 (a / 4) (v % 2 ^ 32) }
def putH (x : CoreSt) (a v : Nat) : CoreSt := putW x a (putBits (memW x a) (16 * (a / 2 % 2)) 16 v)

/-- The one correction of R209 to the raw sum `v` for pointer `p`, modulo 65,536. -/
def circ (x : CoreSt) (p : Nat) (v : Int) : Nat :=
  let l : Int := rdL x p
  let b : Int := rdB x p
  if l = 0 then ux 16 v
  else if b + l ≤ v then ux 16 (v - l)
  else if v < b then ux 16 (v + l)
  else ux 16 v

/-- The effective address and the new pointer of a load or store word (R208). -/
def address (x : CoreSt) (w : Nat) : Nat × Nat :=
  let p := bits w 19 3
  let mode := bits w 17 2
  let a : Int := rdP x p
  let imm := sx 14 (bits w 0 14)
  if mode = 0 then (rdP x p, rdP x p)
  else if mode = 1 then (circ x p (a + imm), rdP x p)
  else if mode = 2 then (rdP x p, circ x p (a + imm))
  else (rdP x p, circ x p (a + rdM x (bits w 15 2)))

/-! ## What the page shows -/

/-- PC and IN_ISR follow the core (R236). -/
def coreShow (d : Dev) (n k : Nat) : Dev :=
  let x := core d n k
  setR (setR d (pgStride n k) F.STRIDE_PC x.pc) (pgStride n k) F.STRIDE_IN_ISR (b2n x.isr)

/-- STRIDE_CL shows ACTIVE while a core is loaded (R235). -/
def clShow (d : Dev) (n : Nat) : Dev :=
  setR d (pgStrideCl n) cSTATE (b2n ((List.range 16).any (fun k => coreState d n k != 0)))

/-- The core enters a state. -/
def setCoreState (d : Dev) (n k st : Nat) : Dev := clShow (setR d (pgStride n k) cSTATE st) n

/-! ## Shelf of the IN buffers (R226) -/

/-- The STRIDE requester of line `n`. -/
def strideReq (n : Nat) : Nat := 3 * (n % 6) + 1

/-- An IN port of the core is enabled. -/
def anyPort (d : Dev) (n k : Nat) : Bool := (List.range 4).any (fun i => flagL d (pgStride n k) (F.STRIDE_EN i))

/-- The core's shelf is given back. -/
def dropShelf (d : Dev) (n k : Nat) : Dev :=
  let x := core d n k
  if x.shelf then setCore (freeShelf d (dieOf n) (strideReq n) 1) n k { x with shelf := false } else d

/-- The core asks for its shelf, while it needs one. -/
def wantShelf (d : Dev) (n k : Nat) : Dev :=
  let x := core d n k
  if x.shelf || !anyPort d n k then d
  else
    let (ok, d) := takeShelves d (dieOf n) (strideReq n) 1
    if ok then setCore d n k { core d n k with shelf := true } else d

/-! ## Interrupt sources (R220, R221, R223) -/

/-- A source is set in both IPEND and IMASK. -/
def wanted (x : CoreSt) : Bool := x.ipend &&& x.imask != 0

/-- Source `s` has an onset; a waiting core goes on when the source is enabled.
(Log: 100 DEDUCED.) -/
def srcRaise (d : Dev) (n k s : Nat) : Dev :=
  let x := core d n k
  let x := { x with ipend := x.ipend ||| 2 ^ s, srcAt := if bit x.ipend s then x.srcAt else Store.set x.srcAt 0 s d.ticks }
  let d := setCore d n k x
  if coreState d n k = 2 ∧ wanted x then setCoreState (waitNote d n k) n k 1 else d

/-- The core takes an interrupt at its next boundary (R221). -/
def eligible (x : CoreSt) : Bool := bit (rdStat x) 16 && !x.isr && wanted x && x.slots == 0 && !x.lat2

/-- TIMER now (R220).
(Log: 102 DESIGN CHOICE.) -/
def timerNow (d : Dev) (x : CoreSt) : Nat := x.timerV - (d.ticks - x.timerAt)

/-! ## Faults and retirement (R210, R211, R219) -/

/-- The core stops in FAULT with cause `c`; earlier instructions complete (R219).
(Log: 97 DEDUCED.) -/
def strideFault (d : Dev) (n k c : Nat) : Dev :=
  let x := core d n k
  let p := pgStride n k
  let d := setCore d n k { x with regs := putRegs x.regs x.late, late := [], lat2 := false }
  let d := setR (setR d p F.STRIDE_FAULT_PC x.pc) p F.STRIDE_CAUSE c
  let d := raise (setCoreState d n k 4) p 9
  let d := ledgerNow d 0x0150 n (typeCode .stride) ([k, c] ++ leBytes 2 (x.pc % 4096))
  coreShow (dropShelf d n k) n k

/-- What an instruction does to the registers: a fault, or writes usable by the next instruction, writes
usable by the one after it, and for a branch whether it is taken and where to. -/
structure StrideRes where
  fault : Option Nat
  now : List (Nat × Nat)
  late : List (Nat × Nat)
  branch : Bool
  target : Option Nat

def okRes (now : List (Nat × Nat)) : StrideRes := ⟨none, now, [], false, none⟩
def faultRes (c : Nat) : StrideRes := ⟨some c, [], [], false, none⟩
def branchRes (target : Option Nat) (now : List (Nat × Nat)) : StrideRes := ⟨none, now, [], true, target⟩

/-- The program counter after the instruction at `pc`: the end of the delay slots, or the next address. -/
def nextPc (x : CoreSt) : CoreSt :=
  if x.slots = 1 then
    if x.rti then { x with pc := x.ira, slots := 0, rti := false, isr := false }
    else { x with pc := x.target.getD (x.pc + 1), slots := 0, target := none }
  else { x with pc := x.pc + 1, slots := x.slots - 1 }

/-- The cluster of core `k` is changing its DVFS point (R27). -/
def coreMoves (d : Dev) (n k : Nat) : Bool := (cluster d n (coreCluster k)).changing

/-- A core that runs or waits is HELD while its cluster's point changes (R27, R234). -/
def coreHeld (d : Dev) (n k : Nat) : Dev :=
  let d := waitNote d n k
  setCoreState (setCore d n k { core d n k with heldFrom := coreState d n k }) n k 6

/-- The instruction completes: the previous one's latency-2 writes land, then its own (R210, R211). A core whose cluster's
point is to change halts once it is outside delay slots (R27). -/
def retireInstr (d : Dev) (n k : Nat) (x : CoreSt) (r : StrideRes) (lat2 : Bool) : Dev :=
  let x := { x with regs := putRegs x.regs (x.late ++ r.now), late := r.late, lat2 := lat2 }
  let y := nextPc x
  let y := if r.branch then { y with slots := 2, target := r.target } else y
  let d := coreShow (addCycles (setCore d n k y) n k 1) n k
  if y.slots = 0 ∧ coreMoves d n k then coreHeld d n k else d

/-- A result is applied: the fault, or the retirement. -/
def finish (d : Dev) (n k : Nat) (x : CoreSt) (r : StrideRes) : Dev :=
  match r.fault with
  | some c => strideFault d n k c
  | none => retireInstr d n k x r (!r.late.isEmpty)

/-- The major opcodes of R215.
(Log: 97 DEDUCED.) -/
def opListed (op : Nat) : Bool :=
  decide (op ≤ 0x0D) || (decide (0x10 ≤ op) && decide (op ≤ 0x1B)) || (decide (0x20 ≤ op) && decide (op ≤ 0x2A)) ||
    (decide (0x30 ≤ op) && decide (op ≤ 0x3D))

/-- The major opcode of a word. -/
def opOf (w : Nat) : Nat := w / 2 ^ 26 % 64

/-- Opcodes that may not stand in a delay slot (R211). -/
def noSlot (op : Nat) : Bool := decide (0x20 ≤ op) && decide (op ≤ 0x2A)

/-- Core `k` issues its next instruction, fetched at PC. The command names the instruction's opcode: where
another listed opcode stands there, where the core does not run, or where it takes an interrupt first,
the command's event cannot occur and nothing happens. An opcode that is not listed is ILLEGAL.
(Log: 97 DEDUCED, 103 DESIGN CHOICE.) -/
def issue (t n k op : Nat) (run : Dev → CoreSt → Nat → Dev) (d : Dev) : Dev :=
  let d := advance d t
  let x := core d n k
  if coreState d n k ≠ 1 ∨ !clusterUp d n (coreCluster k) ∨ eligible x then d
  else if 4096 ≤ x.pc then strideFault d n k 5
  else
    let w := Store.get x.prog 0 x.pc
    if !opListed (opOf w) then strideFault d n k 1
    else if opOf w ≠ op then d
    else if noSlot op ∧ x.slots ≠ 0 then strideFault d n k 3
    else run d x w

/-- An instruction that only touches registers.
(Log: 103 DESIGN CHOICE.) -/
def issueRegs (t n k op : Nat) (f : CoreSt → Nat → StrideRes) (d : Dev) : Dev :=
  issue t n k op (fun d x w => finish d n k x (f x w)) d

/-- The operands of an instruction command name a core. -/
def coreOk (ln k : Nat) : Bool := decide (ln < 12) && decide (k < 16)

/-! ## Mailboxes (R224) -/

/-- A value is written to the mailbox of core `k`: source 5; a full mailbox is overwritten and counted. -/
def mailPut (d : Dev) (n k v : Nat) : Dev :=
  let x := core d n k
  let d := onlyIf x.mailFull (fun d => bump d (pgStride n k) F.STRIDE_MAIL_OVERWRITES) d
  srcRaise (setCore d n k { x with mailbox := v, mailFull := true }) n k 5

/-! ## IN ports (R225, R226) -/

/-- IN_LEVELn follows the buffer. -/
def levelShow (d : Dev) (n k i : Nat) : Dev :=
  setR d (pgStride n k) (F.STRIDE_IN_LEVEL i) (Store.get (core d n k).bufs [] i).length

/-- One word reaches port `i`'s buffer, or is discarded as an overrun. -/
def inPush (n k i th : Nat) (d : Dev) (w : InW) : Dev :=
  let p := pgStride n k
  let x := core d n k
  let l := Store.get x.bufs [] i
  if !x.shelf ∨ 4096 ≤ l.length then
    let d := setCore d n k { x with gapPorts := if x.gapPorts.contains i then x.gapPorts else i :: x.gapPorts }
    raiseOn (bump d p (F.STRIDE_IN_OVERRUNS i)) p 12 (x.gapPorts.contains i) true
  else
    let w := if x.gapPorts.contains i then { w with word := w.word ||| 2 ^ 21 } else w
    let d := setCore d n k { x with bufs := Store.set x.bufs [] i (l ++ [w]), gapPorts := x.gapPorts.filter (· != i) }
    let d := levelShow d n k i
    if l.length + 1 = max 1 th then srcRaise d n k i else d

/-- The settings of port `i` in force at frame instant `inst` (2^-16 tick).
(Log: 253 DEDUCED.) -/
def portCfg (d : Dev) (n k i : Nat) (inst : Int) : Option InCfg :=
  (Store.get d.inCfg [] ((n * 16 + k) * 4 + i)).find? (fun c => decide (65536 * (c.fromT : Int) ≤ inst))

/-- The live settings of port `i` are noted at tick `t`, where they differ from the latest. -/
def notePort (t n k : Nat) (d : Dev) (i : Nat) : Dev :=
  let p := pgStride n k
  let key := (n * 16 + k) * 4 + i
  let l := Store.get d.inCfg [] key
  let c : InCfg := ⟨t, flagL d p (F.STRIDE_EN i), getL d p (F.STRIDE_SRC i), getL d p (F.STRIDE_DEC i),
    getL d p (F.STRIDE_TH i), getL d p (F.STRIDE_FIRST i), getL d p (F.STRIDE_LAST i)⟩
  match l with
  | a :: _ => if { a with fromT := t } = c then d else { d with inCfg := Store.set d.inCfg [] key ((c :: l).take 64) }
  | [] => { d with inCfg := Store.set d.inCfg [] key [c] }

/-- All ports of a line. -/
def notePorts (d : Dev) (n t : Nat) : Dev :=
  (List.range 16).foldl (fun d k => (List.range 4).foldl (notePort t n k) d) d

/-- The channels that a port takes of a plane of `len` values. -/
def portChans (c : InCfg) (len : Nat) : List Nat :=
  let last := min c.last (len - 1)
  if len = 0 ∨ last < c.first then []
  else (List.range ((last - c.first) / max 1 c.dec + 1)).map (fun i => c.first + i * max 1 c.dec)

/-- A frame feeds one port from its planes: P, Q and A values (none: plane absent), and the channel marks
(R225). Q words take the union of the marks of the P channels they cover. -/
def feedPort (n num : Nat) (inst : Int) (ps : List Nat) (qs as_ : Option (List Nat)) (marks : List Nat) (rs k : Nat)
    (d : Dev) (i : Nat) : Dev :=
  match portCfg d n k i inst with
  | none => d
  | some c =>
    let plane : Option (List Nat) := if c.src = 1 then qs else if c.src = 2 then as_ else some ps
    match c.en, plane with
    | true, some vs =>
      let js := portChans c vs.length
      let mark (j : Nat) : Nat :=
        if c.src = 1 then ((marks.drop (j * rs)).take rs).foldl (· ||| ·) 0 else marks.getD j 0
      let word (q : Nat) (j : Nat) : InW :=
        ⟨vs.getD j 0 % 65536 + (mark j % 64) * 65536 + b2n (q == 0) * 2 ^ 22 + b2n (q + 1 == js.length) * 2 ^ 23, num⟩
      ((List.range js.length).zip js).foldl (fun d q => inPush n k i c.th d (word q.1 q.2)) d
    | _, _ => d

/-- The core keeps its shelf while an IN port is enabled, live or for a frame that is still due (R226).
(Log: 253 DEDUCED.) -/
def shelfFit (n : Nat) (d : Dev) (k : Nat) : Dev :=
  let st := coreState d n k
  if st ≠ 1 ∧ st ≠ 2 ∧ st ≠ 6 then d
  else if anyPort d n k then wantShelf d n k
  else if (frame d n).due.any (fun f => (List.range 4).any (fun i => ((portCfg d n k i f.inst).map (·.en)).getD false)) then d
  else dropShelf d n k

/-- All cores of a line. -/
def shelvesFit (d : Dev) (n : Nat) : Dev := (List.range 16).foldl (shelfFit n) d

/-- A frame feeds every port of the line's RUNNING, WAITING and HELD cores. -/
def feedPorts (d : Dev) (n num : Nat) (inst : Int) (ps : List Nat) (qs as_ : Option (List Nat)) (marks : List Nat) (rs : Nat) : Dev :=
  let d := (List.range 16).foldl (fun d k =>
    let st := coreState d n k
    if st = 1 ∨ st = 2 ∨ st = 6 then
      (List.range 4).foldl (feedPort n num inst ps qs as_ marks rs k) (wantShelf d n k)
    else d) d
  shelvesFit d n

/-! ## OUT ports and the feature bus (R227, R228) -/

/-- The words that port `q` of core `k` holds. -/
def outPort (x : CoreSt) (q : Nat) : List FeatW := if q = 0 then x.out0 else x.out1
def setOut (x : CoreSt) (q : Nat) (l : List FeatW) : CoreSt :=
  if q = 0 then { x with out0 := l } else { x with out1 := l }

/-- The feature bus takes the next word of the line's 32 OUT ports in round-robin order; its port regains a
credit, which is source 7 where the port was full (R220).
(Log: 105 DEDUCED.) -/
def busTake (d : Dev) (n : Nat) : Option (FeatW × Dev) :=
  let start := Store.get d.busNext 0 n
  let order := (List.range 32).map (fun i => (start + i) % 32)
  match order.find? (fun p => !(outPort (core d n (p / 2)) (p % 2)).isEmpty) with
  | none => none
  | some p =>
    let x := core d n (p / 2)
    match outPort x (p % 2) with
    | [] => none
    | w :: r =>
      let d := setCore d n (p / 2) (setOut x (p % 2) r)
      let d := { d with busNext := Store.set d.busNext 0 n ((p + 1) % 32) }
      let d := if r.length = 7 then srcRaise d n (p / 2) 7 else d
      some (w, bump d (pgStrideCl n) F.STRIDECL_BUS_WORDS)

end Sys2Proof.Machine
end

