-- ==== Sys2Proof/Machine/Hurdle.lean ====
section
/-! DEFINITION. Hurdle: terms, the two sequencers of a line, trigger times and event records (R237–R248,
R254, R255), and the feature bus words (R228, R229, R242). -/

namespace Sys2Proof.Machine

open Sys2Proof

/-- The HURDLE page. -/
def ph (n : Nat) : Nat := pgHurdle n

/-- Sequencer `h` of a line. -/
def seqOf (x : HurdleSt) (h : Nat) : SeqSt := if h = 0 then x.seq0 else x.seq1
def setSeq (d : Dev) (n h : Nat) (y : SeqSt) : Dev :=
  let x := hurdle d n
  setHurdle d n (if h = 0 then { x with seq0 := y } else { x with seq1 := y })

/-- STATUS.STATE: ACTIVE while a sequencer is enabled; OPEN follows the record (R254). -/
def hurdleShow (d : Dev) (n : Nat) : Dev :=
  let d := [0, 1].foldl (fun d h =>
    setR d (ph n) (F.HURDLE_REC_OPEN h) (b2n (seqOf (hurdle d n) h).open_.isSome)) d
  setR d (ph n) cSTATE (b2n (flagR d (ph n) (F.HURDLE_SEQ_RUNNING 0) || flagR d (ph n) (F.HURDLE_SEQ_RUNNING 1)))

/-! ## Terms (R237, R244) -/

/-- Counter `c` of sequencer `h`, and its threshold. -/
def fCNT (h c : Nat) : Fld :=
  if c = 0 then F.HURDLE_CNT0 h else if c = 1 then F.HURDLE_CNT1 h else if c = 2 then F.HURDLE_CNT2 h else F.HURDLE_CNT3 h
def fCMP (h c : Nat) : Fld :=
  if c = 0 then F.HURDLE_CMP0 h else if c = 1 then F.HURDLE_CMP1 h else if c = 2 then F.HURDLE_CMP2 h else F.HURDLE_CMP3 h

/-- Terms that are latched. -/
def isLatched (k : Nat) : Bool :=
  (decide (8 ≤ k) && decide (k < 18)) || (decide (20 ≤ k) && decide (k < 24)) || (decide (25 ≤ k) && decide (k < 30))

/-- Whether level term `k` holds at step `r` for sequencer `h`; `other` is the other sequencer's SIG of the
previous step and `exp` the timers that expire at this step. -/
def levelTerm (d : Dev) (n h : Nat) (r : StepRec) (other : Bool) (exp : List Bool) (k : Nat) : Bool :=
  if k < 8 then r.holds.getD k false
  else if k = 18 then lineState d n == 4
  else if k = 19 then flagR d (pgStarter n) F.STARTER_PROBE_OPEN
  else if k = 24 then other
  else if k = 30 then true
  else if k = 31 then (seqOf (hurdle d n) h).entered
  else if 32 ≤ k ∧ k < 36 then decide (getR d (ph n) (fCMP h (k - 32)) ≤ getR d (ph n) (fCNT h (k - 32)))
  else if 36 ≤ k ∧ k < 40 then exp.getD (k - 36) false
  else if 40 ≤ k ∧ k < 44 then decide (0 < getR d (ph n) (F.HURDLE_TREM h (k - 40)))
  else false

/-- The time of term `k`, where it holds, inverted or not (R244). -/
def termTime (d : Dev) (n h : Nat) (r : StepRec) (other : Bool) (exp : List Bool) (neg : Bool) (k : Nat) : Option Int :=
  let t : Option Int :=
    if isLatched k then ((hurdle d n).latched.find? (fun e => e.1 == k)).map (·.2)
    else if levelTerm d n h r other exp k then some r.tai else none
  if neg then (if t.isSome then none else some r.tai) else t

/-- The words of arc `a` of state `s`. -/
def arcWords (d : Dev) (n h s a : Nat) : Nat × Nat :=
  (getR d (ph n) (F.HURDLE_ARC_W0 h (4 * s + a)), getR d (ph n) (F.HURDLE_ARC_W1 h (4 * s + a)))

/-- The time of the arc, where it is enabled and its condition holds (R239, R244). -/
def arcTime (d : Dev) (n h : Nat) (r : StepRec) (other : Bool) (exp : List Bool) (w : Nat) : Option Int :=
  if !bit w 31 then none
  else
    match termTime d n h r other exp (bit w 6) (bits w 0 6) with
    | none => none
    | some a =>
      if bit w 15 then (termTime d n h r other exp (bit w 14) (bits w 8 6)).map (max a) else some a

/-! ## Event records (R245–R248) -/

/-- Records whose captures run, in the whole package. -/
def capturing (d : Dev) : Nat :=
  ((List.range 12).map (fun n =>
    let x := hurdle d n
    ((x.seq0.open_.toList ++ x.seq0.done ++ x.seq1.open_.toList ++ x.seq1.done).filter (·.capOn)).length)).foldl (· + ·) 0

/-- The acoustic frames from number `a` on that the rolling record holds, in frame-number order. -/
def rollFrames (d : Dev) (n a : Nat) : List (Nat × List Nat) :=
  ((roll d n).entries.filter (fun e => decide (a ≤ e.frame) && isAcoustic d n e.off)).map
    (fun e => (e.frame, load d (rollBase d n + e.off) e.len))

/-- CAP_TRUNC is set in a record: counted and raised once.
(Log: 110 DEDUCED.) -/
def capTrunc (d : Dev) (n : Nat) : Dev := raise (bump d (ph n) F.HURDLE_CAP_TRUNC) (ph n) 11

/-- A record opens at step `r` for the arc with word `w0` (R245–R247). -/
def openRec (d : Dev) (n h : Nat) (r : StepRec) (w0 : Nat) (trig : Int) : Dev :=
  let p := ph n
  let st := getR d p (F.HURDLE_SEQ_STATE h)
  let from_ := r.num - getR d p (F.HURDLE_PRE h)
  let want := flagR d p (F.HURDLE_CAP_EN h)
  let cap := want && decide (capturing d < 8) && decide (0 < rollSize d n)
  let trunc := cap && decide (from_ < (roll d n).lostNo)
  let pin := flagR d p (F.HURDLE_PIN_EN h)
  let x : RecSt :=
    { kt := r.num, term := bits w0 0 6, state := st, trig := trig, acc := none, plan := r.plan, pscale := r.pscale,
      kind := r.kind, flags := 4 * b2n trunc + 8 * b2n (want && !cap), peak := none, sumSq := 0, n := 0, lo := 0,
      hi := 0, jSum := 0, mSum := 0, anchor := none, sign := none, z := 0, dn := 0, iout := r.iout, capOn := cap,
      capFrom := from_, cap := if cap then rollFrames d n from_ else [], pinAsked := pin, pin := none,
      pinRefused := false, kc := r.num, tc := r.tai, cause := 0, endNo := 0 }
  let d := onlyIf trunc (fun d => capTrunc d n) d
  let d := onlyIf (want && !cap) (fun d => bump d p F.HURDLE_CAP_NONE) d
  let d := onlyIf pin (fun d => { d with pinAsk := d.pinAsk ++ [⟨n, h, r.num, timeOfFrame d n from_⟩] }) d
  let d := ledgerAt d trig 0x0160 n (typeCode .hurdle) ([h, bits w0 0 6, st] ++ leBytes 8 r.num)
  let d := raise (bump d p F.HURDLE_TRIGGERS) p 8
  setSeq d n h { seqOf (hurdle d n) h with open_ := some x }

/-- One channel that is over joins the measurement (R246).
(Log: 109 DEDUCED.) -/
def recOver (off : Nat) (x : RecSt) (o : OverV) : RecSt :=
  let pk := match x.peak with
    | some (v, c, k) => if v.natAbs < o.v.natAbs then (o.v, o.ch, off) else (v, c, k)
    | none => (o.v, o.ch, off)
  { x with peak := some pk, sumSq := x.sumSq + o.v.natAbs * o.v.natAbs, n := x.n + 1,
           lo := if x.n = 0 then o.ch else min x.lo o.ch, hi := max x.hi o.ch, jSum := x.jSum + o.ch * o.ms,
           mSum := x.mSum + o.ms,
           flags := x.flags ||| (if bit o.marks 0 then 64 else 0) ||| (if bit o.marks 2 then 128 else 0) }

/-- Step `r` of the open record: flags, measurements, and the anchor's zero crossings (R246, R248).
(Log: 109 DEDUCED.) -/
def recStep (d : Dev) (n h : Nat) (r : StepRec) : Dev :=
  let y := seqOf (hurdle d n) h
  match y.open_ with
  | none => d
  | some x =>
    let overs := r.overs.getD (getR d (ph n) (F.HURDLE_REC_DET h)) []
    let x := overs.foldl (recOver (r.num - x.kt)) x
    let first := decide (r.num = x.kt)
    let x := if first then { x with anchor := x.peak.map (fun q => q.2.1) } else x
    let now := x.anchor.bind (fun a => (overs.find? (fun o => o.ch == a)).map (fun o => decide (0 ≤ o.v)))
    let x := match x.sign, now with
      | some a, some b => { x with dn := x.dn + 1, z := x.z + b2n (a != b) }
      | _, _ => x
    let fl := b2n (bit r.flags 0) ||| (if bit r.flags 11 then 512 else 0) ||| (if r.plan = x.plan then 0 else 256)
    setSeq d n h { y with open_ := some { x with sign := now, flags := x.flags ||| fl, iout := r.iout, kc := r.num, tc := r.tai } }

/-- The end of a pin's window is known. -/
def pinEnd (d : Dev) (id : Nat) (x : Int) : Dev :=
  { d with pins := d.pins.map (fun q => if q.id = id ∧ q.end_.isNone then { q with end_ := some x } else q) }

/-- The open record closes with cause `c` at the latest step it has seen (R245).
(Log: 109 DEDUCED, 110 DEDUCED.) -/
def closeRec (d : Dev) (n h c : Nat) : Dev :=
  let y := seqOf (hurdle d n) h
  match y.open_ with
  | none => d
  | some x =>
    let endNo := x.kc + getR d (ph n) (F.HURDLE_POST h)
    let x := { x with cause := c, endNo := endNo, flags := x.flags ||| (if c = 2 then 2 else 0),
                      cap := x.cap.filter (fun f => decide (f.1 ≤ endNo)) }
    let d := setSeq d n h { y with open_ := none, done := y.done ++ [x] }
    let d := match x.pin with
      | some id => pinEnd d id (timeOfFrame d n endNo)
      | none => d
    ledgerAt d x.tc 0x0161 n (typeCode .hurdle)
      ([h, c] ++ leBytes 8 x.kc ++ leBytes 4 x.cap.length ++ leBytes 4 (x.pin.getD 0))

/-- The line stops: open records close with STOP (R245). -/
def hurdleStop (d : Dev) (n : Nat) : Dev := hurdleShow (closeRec (closeRec d n 0 3) n 1 3) n

/-! ## SIG (R244, R329) -/

/-- SIG of sequencer `h` of line `ln` of package `pkg` with time `x` latches the XSIG terms that choose it, on
the lines other than its own (R237); at a fenced region it is discarded (R30). -/
def sigArrive (d : Dev) (pkg ln h : Nat) (x : Int) : Dev :=
  (List.range 12).foldl (fun d n =>
    if (pkg = pkgIndex d ∧ n = ln) ∨ isFenced d n then d
    else (List.range 4).foldl (fun d k =>
      let p := ph n
      if flagR d p (F.HURDLE_XS_EN k) ∧ getR d p (F.HURDLE_XS_PKG k) = pkg ∧ getR d p (F.HURDLE_XS_LINE k) = ln ∧
          getR d p (F.HURDLE_XS_SEQ k) = h then latchTerm d n (25 + k) x else d) d) d

/-- A trigger word goes out both ways along the chain, where the links are up (R329).
(Log: 108 DEDUCED.) -/
def sigSend (d : Dev) (port pkg ln h : Nat) (x : Int) : Dev :=
  onlyIf (getR d pgBtn (if port = 0 then F.BTN_UP_STATE else F.BTN_DOWN_STATE) == 2)
    (fun d => emit d (.baton port 3 [(pkg : Int), (ln : Int), (h : Int), x])) d

/-- A sequencer raises SIG.
(Log: 108 DEDUCED.) -/
def sigRaise (d : Dev) (n h : Nat) (x : Int) : Dev :=
  let k := pkgIndex d
  sigArrive (sigSend (sigSend d 0 k n h x) 1 k n h x) k n h x

/-- TRIGGER_WORD: a trigger word arrives on Baton port `port` and goes on through the other; it latches where it comes on UP,
and on the master, which has no package above it (R38, R237, R329). While the time region is fenced it is discarded (R30).
(Log: 108 DEDUCED.) -/
def doTriggerWord (t port pkg ln h : Nat) (x : Int) (d : Dev) : Dev :=
  let d := advance d t
  if batonUp d port && !isFenced d regTime then
    sigSend (onlyIf (port == 0 || isMaster d) (fun d => sigArrive d pkg ln h x) d) (1 - port) pkg ln h x
  else d

def execTriggerWord (t port pkg ln h : Nat) (inst : Int) (s : State) : Host.Outcome State Fault Refusal :=
  act (decide (port < 2) && decide (pkg < 8) && decide (ln < 12) && decide (h < 2)) s (doTriggerWord t port pkg ln h inst)

/-! ## A step (R238–R240) -/

/-- The timers of sequencer `h` count down; which of them expire at this step. -/
def timersDown (d : Dev) (n h : Nat) : List Bool × Dev :=
  (List.range 4).foldl (fun (a : List Bool × Dev) t =>
    let f := F.HURDLE_TREM h t
    let v := getR a.2 (ph n) f
    (a.1 ++ [v == 1], setR a.2 (ph n) f (v - 1))) ([], d)

/-- The counter action, then the timer action, of an arc's second word (R239, R240).
(Log: 108 DEDUCED.) -/
def arcActs (d : Dev) (n h w1 : Nat) : Dev :=
  let f := fCNT h (bits w1 0 2)
  let d := if bits w1 2 2 = 1 then setR d (ph n) f (min 65535 (getR d (ph n) f + 1))
    else if bits w1 2 2 = 2 then setR d (ph n) f 0 else d
  let t := bits w1 4 2
  if bits w1 6 2 = 1 then setR d (ph n) (F.HURDLE_TREM h t) (max 1 (getR d (ph n) (F.HURDLE_TLOAD h t)))
  else if bits w1 6 2 = 2 then setR d (ph n) (F.HURDLE_TREM h t) 0 else d

/-- TRIG of a fired arc (R245). -/
def arcTrig (d : Dev) (n h : Nat) (r : StepRec) (w0 w1 : Nat) (x : Int) : Dev :=
  if !bit w1 8 then d
  else if (seqOf (hurdle d n) h).open_.isSome then raise (bump d (ph n) F.HURDLE_RETRIGGERS) (ph n) 10
  else openRec d n h r w0 x

/-- The open record reaches MAX_DUR steps (R245). -/
def recForced (d : Dev) (n h : Nat) (r : StepRec) : Dev :=
  match (seqOf (hurdle d n) h).open_ with
  | some x => if max 1 (getR d (ph n) (F.HURDLE_MAX_DUR h)) ≤ r.num + 1 - x.kt then closeRec d n h 2 else d
  | none => d

/-- Sequencer `h`, enabled since the latest step, starts in START_STATE: counters at 0, timers idle, no record (R240,
R254).
(Log: 106 DEDUCED.) -/
def seqStart (n : Nat) (d : Dev) (h : Nat) : Dev :=
  let p := ph n
  if !flagR d p (F.HURDLE_EN h) || flagR d p (F.HURDLE_SEQ_RUNNING h) then d
  else
    let d := (List.range 4).foldl (fun d c => setR (setR d p (fCNT h c) 0) p (F.HURDLE_TREM h c) 0) d
    let d := setR d p (F.HURDLE_SEQ_STATE h) (getR d p (F.HURDLE_START_STATE h))
    let d := setSeq d n h { seqOf (hurdle d n) h with entered := false }
    setR d p (F.HURDLE_SEQ_RUNNING h) 1

/-- Sequencer `h` takes step `r` (R238–R240): at most one arc fires.
(Log: 106 DEDUCED.) -/
def seqStep (n : Nat) (r : StepRec) (others : List Bool) (d : Dev) (h : Nat) : Dev :=
  if !flagR d (ph n) (F.HURDLE_SEQ_RUNNING h) then setSeq d n h { seqOf (hurdle d n) h with sig := false }
  else
    let (exp, d) := timersDown d n h
    let st := getR d (ph n) (F.HURDLE_SEQ_STATE h)
    let hit := (List.range 4).findSome? (fun a =>
      let w := arcWords d n h st a
      (arcTime d n h r (others.getD h false) exp w.1).map (fun x => (w, x)))
    match hit with
    | none =>
      let d := setSeq d n h { seqOf (hurdle d n) h with entered := false, sig := false }
      recForced (recStep d n h r) n h r
    | some ((w0, w1), x) =>
      let d := arcTrig (arcActs d n h w1) n h r w0 w1 x
      let d := recStep d n h r
      let d := onlyIf (bit w1 9) (fun d => closeRec d n h 1) d
      let d := onlyIf (bit w1 10) (fun d => sigRaise d n h x) d
      let d := setSeq d n h { seqOf (hurdle d n) h with entered := true, sig := bit w1 10 }
      recForced (setR d (ph n) (F.HURDLE_SEQ_STATE h) (bits w0 16 4)) n h r

/-- The detector registers at a step. -/
def detShow (d : Dev) (n : Nat) (r : StepRec) : Dev :=
  (List.range 8).foldl (fun d k =>
    setR (setR d (ph n) (F.HURDLE_OVER k) (r.overs.getD k []).length) (ph n) (F.HURDLE_PEAK_CH k) (r.peaks.getD k 0)) d

/-- SEQUENCER_STEP: both sequencers of the line step for its oldest frame that has passed the detectors; no
step runs in OFF, DARK or PAUSED; latched terms clear (R237, R238).
(Log: 106 DEDUCED.) -/
def doSeqStep (t n : Nat) (d : Dev) : Dev :=
  let d := advance d t
  let x := hurdle d n
  let st := lineState d n
  match x.steps with
  | [] => d
  | r :: rest =>
    if st = 0 ∨ st = 5 ∨ st = 6 then d
    else
      let d := setHurdle d n { x with steps := rest, lastK := r.num, lastT := r.tai }
      let d := [0, 1].foldl (seqStart n) d
      let on := flagR d (ph n) (F.HURDLE_SEQ_RUNNING 0) || flagR d (ph n) (F.HURDLE_SEQ_RUNNING 1)
      let d := onlyIf on (fun d => bump d (ph n) F.HURDLE_STEPS) (detShow d n r)
      let old := x.latched
      let d := [0, 1].foldl (seqStep n r [x.seq1.sig, x.seq0.sig]) d
      let y := hurdle d n
      hurdleShow (setHurdle d n { y with latched := y.latched.filter (fun e => !old.contains e) }) n

def execSequencerStep (t ln : Nat) (s : State) : Host.Outcome State Fault Refusal :=
  act (decide (ln < 12)) s (doSeqStep t ln)

/-! ## Inputs (R237, R243) -/

/-- GPIO_EDGE: a rising edge on pin `gpio`, `half` sample ticks after tick `t` (R237, R244). GPIO_DELAY is in ps.
(Log: 114 DEDUCED.) -/
def doGpioEdge (t gpio half : Nat) (d : Dev) : Dev :=
  let d := advance d t
  (List.range 12).foldl (fun d n => (List.range 4).foldl (fun d g =>
    if bits (getR d (ph n) F.HURDLE_GPIO_SEL) (4 * g) 4 = gpio then
      let delay := rne (getS d (ph n) F.HURDLE_GPIO_DELAY * 65536) 1000
      latchTerm d n (20 + g) (d.time.base + 655360 * (t : Int) + 131072 * (half : Int) - delay)
    else d) d) d

def execGpioEdge (t gpio half : Nat) (s : State) : Host.Outcome State Fault Refusal :=
  act (decide (gpio < 16) && decide (half < 5)) s (doGpioEdge t gpio half)

/-- The first daily instant of line `n`, in TAI seconds, at or after second `s` (R243).
(Log: 112 DEDUCED.) -/
def todNext (d : Dev) (n : Nat) (s : Int) : Int :=
  let want := (getR d (ph n) F.HURDLE_TOD_SEC : Int) - getS d (ph n) F.HURDLE_TOD_OFFSET
  s + (want - s) % 86400

/-- TOD is set for the daily instant at TAI second `s`.
(Log: 112 DEDUCED.) -/
def todSet (d : Dev) (n : Nat) (s : Int) : Dev :=
  let x := hurdle d n
  latchTerm (setHurdle d n { x with todDone := x.todDone ++ [s] }) n 29 (s * secU)

/-- TOD_INSTANT: the next daily instant of line `n` passes (R243); one that TAI repeats does not set TOD again.
(Log: 112 DEDUCED.) -/
def doTod (t n : Nat) (d : Dev) : Dev :=
  let s := todNext d n (-(-(tai d) / secU))
  let l := (hurdle d n).todDone
  let s := (((List.range (l.length + 1)).map (fun i => s + 86400 * (i : Int))).find? (fun q => !l.contains q)).getD s
  todSet (advance d (max t (d.ticks + ticksUntil d (s * secU)))) n s

def execTodInstant (t ln : Nat) (s : State) : Host.Outcome State Fault Refusal :=
  act (decide (ln < 12)) s (doTod t ln)

/-- A step of TAI from `was` to now that skips a line's daily instant sets TOD at once (R243); the latest one skipped is
not to set it again either.
(Log: 112 DEDUCED.) -/
def todSkip (d : Dev) (was : Int) : Dev :=
  (List.range 12).foldl (fun d n =>
    let s := todNext d n (-(-was / secU))
    let last := s + (tai d / secU - s) / 86400 * 86400
    let l := (hurdle d n).todDone
    if s * secU ≤ tai d ∧ was < s * secU ∧ !l.contains last then
      todSet (if s = last then d else setHurdle d n { hurdle d n with todDone := l ++ [s] }) n last
    else d) d

/-! ## Configuration (R240, R255) -/

/-- An arc that R255 does not let a sequencer run with.
(Log: 107 DEDUCED.) -/
def badArc (w : Nat × Nat) : Bool :=
  bit w.1 31 &&
    (decide (44 ≤ bits w.1 0 6) || (bit w.1 15 && decide (44 ≤ bits w.1 8 6)) || decide (bits w.2 2 2 = 3) ||
     decide (bits w.2 6 2 = 3) || bit w.1 7 || decide (0 < bits w.1 20 11) || decide (0 < bits w.2 11 21))

/-- Sequencer `h` stops. -/
def seqOff (d : Dev) (n h : Nat) : Dev := setR (closeRec d n h 3) (ph n) (F.HURDLE_SEQ_RUNNING h) 0

/-- The CFG word of sequencer `h` is written with `v` (R254, R255): it starts at the next step, and stops at once. -/
def seqCfg (d : Dev) (n h v : Nat) : Dev :=
  let p := ph n
  let d := setR d p (F.HURDLE_START_STATE h) (bits v 0 4)
  let bad := ((List.range 64).map (fun i => arcWords d n h (i / 4) (i % 4))).any badArc
  let d := if bit v 4 then
      if flagR d p (F.HURDLE_EN h) then d
      else if bad then setR d p (F.HURDLE_CFG_ERR h) 1
      else setR (setR d p (F.HURDLE_EN h) 1) p (F.HURDLE_CFG_ERR h) 0
    else onlyIf (flagR d p (F.HURDLE_SEQ_RUNNING h)) (fun d => seqOff d n h) (setR d p (F.HURDLE_EN h) 0)
  hurdleShow d n

/-- SEQUENCER_ENABLE: the CFG word of sequencer `h` is written (R240, R255).
(Log: 107 DEDUCED.) -/
def doSeqEnable (t n h v : Nat) (d : Dev) : Dev := onPage (ph n) (fun d => seqCfg d n h v) (advance d t)

def execSequencerEnable (t ln h v : Nat) (s : State) : Host.Outcome State Fault Refusal :=
  act (decide (ln < 12) && decide (h < 2)) s (doSeqEnable t ln h v)

/-- Word `w` of the arc table is written with `v`, unless its sequencer is enabled or to start at the next step (R255). -/
def arcWrite (d : Dev) (n w v : Nat) : Dev :=
  let h := w / 128
  let a := w % 128 / 2
  if flagR d (ph n) (F.HURDLE_EN h) then raise (bump d (ph n) F.HURDLE_TABLE_REFUSED) (ph n) 12
  else setR d (ph n) (if w % 2 = 0 then F.HURDLE_ARC_W0 h a else F.HURDLE_ARC_W1 h a) v

/-- ARC_TABLE_WRITE. -/
def doArcWrite (t n w v : Nat) (d : Dev) : Dev := onPage (ph n) (fun d => arcWrite d n w v) (advance d t)

def execArcTableWrite (t ln w v : Nat) (s : State) : Host.Outcome State Fault Refusal :=
  act (decide (ln < 12) && decide (w < 256)) s (doArcWrite t ln w v)

/-! ## Capture and emission (R247, R248) -/

/-- An acoustic frame reaches the rolling record: the records whose captures want it copy it.
(Log: 110 DEDUCED.) -/
def capTake (num : Nat) (bytes : List Nat) (x : RecSt) : RecSt :=
  if x.capOn && decide (x.capFrom ≤ num) && (x.cause == 0 || decide (num ≤ x.endNo)) then
    { x with cap := x.cap ++ [(num, bytes)] } else x

def hurdleArrive (d : Dev) (n num : Nat) (bytes : List Nat) : Dev :=
  let x := hurdle d n
  let f (y : SeqSt) : SeqSt := { y with open_ := y.open_.map (capTake num bytes), done := y.done.map (capTake num bytes) }
  setHurdle d n { x with arrived := some num, seq0 := f x.seq0, seq1 := f x.seq1 }

/-- The nearest whole number to the square root of `num / den`. -/
def rootNear (num den : Nat) : Nat := (isqrt (4 * num / max 1 den) + 1) / 2

/-- The 128 bytes of a record (R248). With no pair over, the measured fields are all ones; a centroid over Σ ms
= 0 and an accession number not yet given are the free values `cen` and `acc`.
(Log: 111 DESIGN CHOICE.) -/
def recBytes (d : Dev) (n h : Nat) (x : RecSt) (cen acc : Nat) : List Nat :=
  let ones := 0xFFFFFFFF
  let none_ := x.peak.isNone
  let (v, c, k) := x.peak.getD (0, 0, 0)
  let sel (a : Nat) : Nat := if none_ then ones else a
  let fl := x.flags ||| (if none_ then 32 else 0) ||| (if x.pinRefused then 16 else 0)
  let period := if x.z < 2 then ones else (rne ((2 * x.dn * x.iout : Nat) : Int) (x.z * 65536)).toNat
  let cent := if x.mSum = 0 then cen % 2 ^ 32 else (rne ((256 * x.jSum : Nat) : Int) x.mSum).toNat
  let b := leBytes 2 0x4745 ++ [1, pkgIndex d % 8 * 16 + n, h, x.term, x.state, x.cause] ++
    leBytes 8 (x.acc.getD acc) ++ leBytes 8 (taiSec x.trig) ++ leBytes 4 (taiNs x.trig) ++
    leBytes 2 (taiSub x.trig) ++ leBytes 2 fl ++ leBytes 8 x.kt ++ leBytes 8 x.kc ++ leBytes 8 (taiSec x.tc) ++
    leBytes 4 (taiNs x.tc) ++ leBytes 2 (taiSub x.tc) ++ [x.pscale, x.kind] ++ leBytes 4 (sel (ux 32 v)) ++
    leBytes 4 (sel c) ++ leBytes 4 (sel k) ++ leBytes 4 (sel (rootNear (65536 * x.sumSq) x.n)) ++
    leBytes 4 period ++ leBytes 4 x.z ++ leBytes 4 (x.anchor.getD ones) ++ leBytes 4 (sel x.lo) ++
    leBytes 4 (sel x.hi) ++ leBytes 4 (sel cent) ++ leBytes 4 x.n ++ leBytes 4 x.cap.length ++
    leBytes 8 ((x.cap.map (·.1)).headD 0) ++ leBytes 4 (x.pin.getD 0)
  b ++ leBytes 4 (crc32c b)

/-- The record's capture is complete: its last frame, or a later one, has reached the hub, or no frame of the
line is on its way and none can come (R248). -/
def recReady (d : Dev) (n : Nat) (x : RecSt) : Bool :=
  let st := lineState d n
  ((hurdle d n).arrived.map (fun k => decide (x.endNo ≤ k))).getD false ||
    ((st == 0 || st == 6) && (frame d n).out.isEmpty && (frame d n).due.isEmpty)

/-- RECORD_EMIT: the oldest closed record of sequencer `h` is emitted on ring 25, its capture frames after it.
(Log: 111 DESIGN CHOICE.) -/
def doRecordEmit (t n h : Nat) (d : Dev) : Dev :=
  let d := advance d t
  let y := seqOf (hurdle d n) h
  match y.done with
  | [] => d
  | x :: rest =>
    if !recReady d n x then d
    else
      let (cen, d) := if x.peak.isSome ∧ x.mSum = 0 then freeV d else (0, d)
      let (acc, d) := if x.acc.isNone then freeV d else (0, d)
      let b := recBytes d n h x cen acc
      let y := seqOf (hurdle d n) h
      let late := x.pinAsked && x.pin.isNone && !x.pinRefused
      let d := setSeq d n h { y with done := rest, gone := if late then y.gone ++ [(x.kt, timeOfFrame d n x.endNo)] else y.gone }
      let d := offerBytes d 25 b
      let d := x.cap.foldl (fun d f => offerBytes d 25 f.2) d
      raise (bump d (ph n) F.HURDLE_RECORDS) (ph n) 9

def execRecordEmit (t ln h : Nat) (s : State) : Host.Outcome State Fault Refusal :=
  act (decide (ln < 12) && decide (h < 2)) s (doRecordEmit t ln h)

/-! ## Feature words (R228, R229, R242) -/

/-- A filter with settings `c` matches word `w` (R242). -/
def featMatch (c : FiltCfg) (w : FeatW) : Bool :=
  let v := sx 32 w.value
  c.en && bit c.cores w.core && (decide (2 ≤ c.port) || c.port == w.port) && (w.id &&& c.mask) == (c.id &&& c.mask) &&
    (if c.cmp = 0 then decide (c.th ≤ v) else decide (v < c.th)) && !bit w.marks 3

/-- A PL = 1 word reaches the frame builder (R229). -/
def featCollect (d : Dev) (n : Nat) (w : FeatW) : Dev :=
  let y := frame d n
  let p := pgStrideCl n
  match y.feats.find? (fun r => r.num == w.frame) with
  | none => onlyIf (decide (0 < getL d p F.STRIDECL_FEAT_MAX)) (fun d => raise (bump d p F.STRIDECL_FEAT_LATE) p 9) d
  | some r =>
    let isOver := decide (r.mx ≤ r.recs.length)
    let r' := if isOver then { r with dropped := r.dropped + 1 } else { r with recs := r.recs ++ [w] }
    let d := setFrame d n { y with feats := y.feats.map (fun q => if q.num = w.frame then r' else q) }
    onlyIf isOver (fun d => raise (bump d p F.STRIDECL_FEAT_DROPPED) p 8) d

/-- FEATURE_WORD: the feature bus takes the next word of the line: the frame builder and the filters get it. -/
def doFeatureWord (t n : Nat) (d : Dev) : Dev :=
  let d := advance d t
  match busTake d n with
  | none => d
  | some (w, d) =>
    let d := onlyIf w.pl (fun d => featCollect d n w) d
    let cs := filtsAt d n (fdiv (timeOfFrame d n w.frame - d.time.base) 10)
    (List.range 8).foldl (fun d f =>
      if (cs[f]?.map (featMatch · w)).getD false then
        bump (latchTerm d n (8 + f) (timeOfFrame d n w.frame)) (ph n) F.HURDLE_FEAT_MATCHES
      else d) d

def execFeatureWord (t ln : Nat) (s : State) : Host.Outcome State Fault Refusal :=
  act (decide (ln < 12)) s (doFeatureWord t ln)

/-- The bytes of a feature frame (R229). -/
def featBytes (d : Dev) (n : Nat) (r : FeatRec) : List Nat :=
  let mark (b : Nat) : Bool := r.recs.any (fun w => bit w.marks b)
  let copy (b : Nat) : Nat := if bit r.flags b then 2 ^ b else 0
  let set (b : Nat) (c : Bool) : Nat := if c then 2 ^ b else 0
  let fl := copy 0 + copy 2 + copy 8 + copy 9 + copy 11 + set 4 (mark 0) + set 5 (mark 1) + set 6 (mark 2) +
    set 1 (mark 3) + set 10 (mark 4) + set 3 (mark 5 || decide (0 < r.dropped))
  let h := headTop d 0x4758 n fl r.num r.tai (getR d pgPace F.PACE_STEP) 1 ++ leBytes 8 0 ++ leBytes 4 r.recs.length ++
    leBytes 4 0 ++ leBytes 4 r.plan ++ leBytes 4 r.dropped ++ leBytes 4 (r.recs.filter (fun w => bit w.marks 3)).length
  withCrc h ++ r.recs.flatMap (fun w =>
    leBytes 4 w.value ++ leBytes 2 w.index ++ [w.id, w.core + 16 * w.port, w.marks % 64, 0, 0, 0])

/-- FEATURE_FRAME_CLOSE: at t_k + FEAT_WAIT ms the oldest open feature frame closes; with records it is built.
(Log: 88 DESIGN CHOICE.) -/
def doFeatureClose (t n : Nat) (d : Dev) : Dev :=
  let y := frame d n
  match y.feats with
  | [] => advance d t
  | r :: rest =>
    let close := (r.inst / 65536).toNat + msT r.wait
    let d := setFrame (advance d (max t close)) n { y with feats := rest }
    if r.recs.isEmpty then d
    else
      let (ok, d) := placeFrame d n 2 r.num (featBytes d n r)
      onlyIf ok (fun d => bump d (pgStrideCl n) F.STRIDECL_FEAT_FRAMES) d

def execFeatureFrameClose (t ln : Nat) (s : State) : Host.Outcome State Fault Refusal :=
  act (decide (ln < 12)) s (doFeatureClose t ln)

end Sys2Proof.Machine
end

