-- ==== Sys2Proof/Machine/LineSync.lean ====
section
/-! DEFINITION. What a line does when the system grid becomes invalid or valid (R75, R77, R78). -/

namespace Sys2Proof.Machine

open Sys2Proof

/-- NEXT_L0 and NEXT_PB follow the timeline; 0 where there is none.
(Log: 48 DESIGN CHOICE.) -/
def nextShow (d : Dev) (n : Nat) : Dev :=
  let p := pgLine n
  let x := line d n
  let put (d : Dev) (fs fn : Fld) (t : Nat) : Dev :=
    let y := d.time.base + 655360 * (t : Int)
    setR (setR d p fs (taiSec y)) p fn (taiNs y)
  match x.next with
  | none => setR (setR (setR (setR d p F.LINE_NEXT_L0_S 0) p F.LINE_NEXT_L0_NS 0) p F.LINE_NEXT_PB_S 0) p F.LINE_NEXT_PB_NS 0
  | some e =>
    let c := 2 ^ lv d n F.LINE_PLAN_CYCLE
    let k := cdiv x.nextNo c * c - x.nextNo
    put (put d F.LINE_NEXT_L0_S F.LINE_NEXT_L0_NS e) F.LINE_NEXT_PB_S F.LINE_NEXT_PB_NS (e + k * x.period)

/-- Line `n` loses the grid: a LOCKED line goes on in SELF with SYNC_LOST set, its launches, shot numbers and
commits as they were (R75).
(Log: 46 DESIGN CHOICE.) -/
def lineUnsync (d : Dev) (n : Nat) : Dev :=
  let x := line d n
  let d := setLine d n { x with gridAt := none }
  if x.base ≠ 2 then d
  else
    let p := pgLine n
    let d := setLine d n { x with base := 1, gridAt := none }
    lineShow (bump (raise (setR d p F.LINE_SYNC_LOST 1) p 10) p F.LINE_SYNC_LOSSES) n 1

/-- The grid becomes invalid (R75).
(Log: 140 DEDUCED.) -/
def gridInvalid (d : Dev) : Dev := (List.range 12).foldl lineUnsync d

/-- The grid becomes valid: lines in SELF that wait for it move to LOCKED at the first plan boundary whose
capture comes at or after this instant (R77).
(Log: 140 DEDUCED.) -/
def gridValid (d : Dev) : Dev :=
  (List.range 12).foldl (fun d n =>
    let x := line d n
    if x.base = 1 ∧ flagR d (pgLine n) F.LINE_SYNC_LOST then setLine d n { x with gridAt := some d.ticks } else d) d

end Sys2Proof.Machine
end

