-- ==== Sys2Proof/Machine/Time.lean ====
section
/-! DEFINITION. The time counter, its qualification and its servo, the time outputs and the PTP grandmaster
(R299–R314). -/

namespace Sys2Proof.Machine

open Sys2Proof

/-! ## What follows the time: PTP, outputs, the grid -/

/-- TIME_STATE as shown (R303). -/
def timeState (d : Dev) : Nat := getR d pgTime cSTATE

/-- TIME_STATE by the precedence of R303. -/
def timeCode (d : Dev) : Nat :=
  if !d.time.isSet then 0
  else if !flagR d pgTime F.TIME_OCXO_WARM then 1
  else if d.time.locked then 3
  else if d.time.held then 4
  else 2

/-- The announced clockClass, clockAccuracy, offsetScaledLogVariance and timeSource (R312). -/
def announced (d : Dev) : List Nat :=
  let s := timeState d
  if s = 3 then (if isMaster d then [6, 0x21, 0x4E5D, 0x20] else d.time.masterAnn)
  else if s = 4 ∧ !flagR d pgTime F.TIME_HOLD_EXCEEDED then [7, 0x22, 0x4E5D, 0xA0]
  else [248, 0xFE, 0xFFFF, 0xA0]

/-- The configuration of PTP port `i` lies outside the ranges of R313.
(Log: 149 PRESUMED.) -/
def ptpBad (d : Dev) (i : Nat) : Bool :=
  let p := pgPtp i
  let out (f : Fld) (lo hi : Int) : Bool := decide (getS d p f < lo) || decide (hi < getS d p f)
  if flagR d p F.PTP_PROFILE then
    decide (getR d p F.PTP_DOMAIN < 24) || decide (43 < getR d p F.PTP_DOMAIN) || decide (getR d p F.PTP_TRANSPORT < 2)
  else out F.PTP_LOG_SYNC (-7) 1 || out F.PTP_LOG_ANN (-3) 4 || out F.PTP_LOG_MINDR (-7) 5

/-- PTP port `i`: its state, CFG_ERR and the announced values (R311–R313).
(Log: 149 PRESUMED.) -/
def ptpShow (d : Dev) (i : Nat) : Dev :=
  let p := pgPtp i
  let bad := ptpBad d i
  let was := flagR d p F.PTP_CFG_ERR
  let d := raiseOn (setR d p F.PTP_CFG_ERR (b2n bad)) p 9 was bad
  let a := announced d
  let d := setR (setR d p F.PTP_CLOCK_CLASS (a.getD 0 0)) p F.PTP_TIME_SOURCE (a.getD 3 0)
  setR d p cSTATE (b2n (flagR d p F.PTP_EN && !bad && timeState d != 0))

/-- An output squelches at once where it is enabled with SQUELCH = 1 and QUALIFIED is 0 (R310). -/
def squelchNow (d : Dev) : Dev :=
  if flagR d pgTime F.TIME_QUALIFIED then d
  else
    let s := d.time.outOn.filter (fun o => d.time.outSq.contains o && !d.time.squelched.contains o)
    if s.isEmpty then d
    else raise { d with time := { d.time with squelched := d.time.squelched ++ s } } pgPps 8

/-- FREQ goes to FREQ_MAN in FREE without a reference to steer by (R303).
(Log: 141 DESIGN CHOICE.) -/
def freqShow (d : Dev) : Dev :=
  if timeState d = 2 ∧ !d.time.refPresent then freqTo d (getS d pgTime F.TIME_FREQ_MAN) else d

/-- QUALIFIED by R305. -/
def qualified (d : Dev) : Bool :=
  let s := timeState d
  flagR d pgTime F.TIME_OCXO_WARM && !flagR d pgTime F.TIME_LABEL_BACKUP &&
  (s == 3 || (s == 4 && !flagR d pgTime F.TIME_HOLD_EXCEEDED) || (s == 2 && flagR d pgTime F.TIME_FREE_QUAL)) &&
  (isMaster d || (flagR d pgBtn F.BTN_UP_CAL && flagR d pgBtn F.BTN_UP_LOCKED && d.time.masterQual))

/-- QUALIFIED and GRID_VALID follow; a change of the grid raises GRID_CHANGE and reaches the lines (R305, R306).
(Log: 145 DEDUCED.) -/
def qualShow (d : Dev) : Dev :=
  let was := flagR d pgTime F.TIME_GRID_VALID
  let now := qualified d
  let d := setR (setR d pgTime F.TIME_QUALIFIED (b2n now)) pgTime F.TIME_GRID_VALID (b2n now)
  let d := if now then d else { d with time := { d.time with unqual := true } }
  let d := if now = was then d else { d with time := { d.time with quals := (d.ticks, now) :: d.time.quals } }
  let d := squelchNow d
  if now = was then d
  else if now then gridValid (raise d pgTime 14)
  else gridInvalid (raise d pgTime 14)

/-- While the time is set the backup counter is kept in step with it, and holds (R307, R436).
(Log: 206 DEDUCED.) -/
def bkpStep (d : Dev) : Dev :=
  if d.time.isSet && !d.vbatLow18 && !d.oscStop then
    setR { d with bkpBase := d.time.base } pgBkp F.BKP_VALID 1
  else d

/-- TIME_STATE follows its conditions; a change raises STATE_CHANGE and makes its Ledger entry (R303). -/
def timeShow (d : Dev) : Dev :=
  let was := timeState d
  let now := timeCode d
  let d :=
    if now = was then d
    else
      let d := ledgerNow (raise (setR d pgTime cSTATE now) pgTime 8) 0x0310 0xF (typeCode .time)
        ([was, now] ++ leBytes 4 (getR d pgTime F.TIME_PHASE_ERR))
      if now = 4 then
        setR { d with time := { d.time with holdStart := d.ticks } } pgTime F.TIME_HOLD_S 0
      else if was = 4 then setR d pgTime F.TIME_HOLD_S (holdSecs d)
      else d
  let d := bkpStep (qualShow (freqShow d))
  ptpShow (ptpShow d 0) 1

/-! ## OCXO_WARM (R300) -/

/-- The largest less the smallest of a list. -/
def spread (l : List Int) : Int := maxI 0 l - minI 0 l

/-- The conditions of R300, in the order of the causes of R336: ready pin, oven, frequency, minimum time.
(Log: 144 DEDUCED.) -/
def warmConds (d : Dev) : List Bool :=
  let x := d.time
  [!flagR d pgTime F.TIME_READY_EN || x.ocxoRdy,
   !x.ovenBad,
   !x.refPresent || (decide (3 ≤ x.windows.length) && decide (spread (x.windows.take 3) < 5000)),
   decide (x.warmFrom + sT (getR d pgTime F.TIME_WARM_MIN_S) ≤ d.ticks)]

/-- The lowest place at which two lists differ. -/
def firstDiff : List Bool → List Bool → Nat
  | a :: r, b :: q => if a = b then firstDiff r q + 1 else 0
  | _, _ => 0

/-- OCXO_WARM follows its conditions; a change raises WARM or WARM_LOST and makes its entry (R300, R336). The time
state follows. -/
def warmShow (d : Dev) : Dev :=
  let cs := warmConds d
  let cause := firstDiff d.time.conds cs
  let was := flagR d pgTime F.TIME_OCXO_WARM
  let now := cs.all id
  let d := { d with time := { d.time with conds := cs } }
  let d :=
    if now = was then d
    else
      let d := raise (setR d pgTime F.TIME_OCXO_WARM (b2n now)) pgTime (if now then 10 else 11)
      ledgerNow d 0x0312 0xF (typeCode .time) [b2n now, cause]
  timeShow d

/-- A result of OVEN_ENTRY: three consecutive ones outside OVEN_LO … OVEN_HI make an oven anomaly, and it ends
with one inside; WARM_MIN_S counts from its end (R300).
(Log: 144 DEDUCED.) -/
def ovenResult (d : Dev) (v : Int) : Dev :=
  let x := d.time
  let out := decide (v < (getR d pgTime F.TIME_OVEN_LO : Int)) || decide ((getR d pgTime F.TIME_OVEN_HI : Int) < v)
  if out then
    let run := x.ovenRun + 1
    let d := { d with time := { x with ovenRun := run, ovenBad := x.ovenBad || decide (3 ≤ run) } }
    warmShow (onlyIf (!x.ovenBad && decide (3 ≤ run)) (fun d => bump d pgTime F.TIME_OVEN_ANOMALIES) d)
  else
    warmShow { d with time := { x with ovenRun := 0, ovenBad := false, warmFrom := if x.ovenBad then d.ticks else x.warmFrom } }

/-- The oven check is disabled, or its entry changes: an anomaly in progress ends (R300).
(Log: 144 DEDUCED.) -/
def ovenOff (d : Dev) : Dev :=
  if getR d pgTime F.TIME_OVEN_ENTRY = 127 then ovenResult d (getR d pgTime F.TIME_OVEN_LO) else d

/-- The frequency reference becomes present at `t`, where it was not; a window starts (R300). -/
def refOn (d : Dev) : Dev :=
  let x := d.time
  { d with time := { x with refPresent := true, windowStart := some (x.windowStart.getD d.ticks) } }

/-- The frequency reference becomes absent: the window in progress is discarded (R300). -/
def refOff (d : Dev) : Dev := { d with time := { d.time with refPresent := false, windowStart := none } }

/-- FREQ_WINDOW_END: a 100 s window ends with the measured offset `off`, in 10^-13 (R300). -/
def doFreqWindowEnd (t : Nat) (off : Int) (d : Dev) : Dev :=
  match d.time.windowStart with
  | some a =>
    let d := advance d (max t (a + sT 100))
    warmShow { d with time := { d.time with windows := (off :: d.time.windows).take 3, windowStart := some (a + sT 100) } }
  | none => advance d t

def execFreqWindowEnd (t : Nat) (off : Int) (s : State) : Host.Outcome State Fault Refusal :=
  act true s (doFreqWindowEnd t off)

/-- OCXO_RDY_CHANGE: the OCXO_RDY pin is asserted or not (R300). -/
def doOcxoRdy (t : Nat) (on : Bool) (d : Dev) : Dev :=
  let d := advance d t
  warmShow { d with time := { d.time with ocxoRdy := on } }

def execOcxoRdyChange (t : Nat) (on : Bool) (s : State) : Host.Outcome State Fault Refusal :=
  act true s (doOcxoRdy t on)

/-- WARM_MIN_EXPIRY: WARM_MIN_S have passed (R300).
(Log: 144 DEDUCED.) -/
def doWarmMin (t : Nat) (d : Dev) : Dev :=
  warmShow (advance d (max t (d.time.warmFrom + sT (getR d pgTime F.TIME_WARM_MIN_S))))

def execWarmMinExpiry (t : Nat) (s : State) : Host.Outcome State Fault Refusal :=
  act true s (doWarmMin t)

/-! ## Steps and labels (R301, R302) -/

/-- The servo leaves LOCKED or HOLDOVER, and its runs restart.
(Log: 140 DEDUCED.) -/
def unlockServo (d : Dev) : Dev :=
  setR { d with time := { d.time with locked := false, held := false, accRun := 0, rejects := [] } }
    pgTime F.TIME_HOLD_EXCEEDED 0

/-- The counter changes by `delta` (2^-16 ns), for cause 0 label, 1 PPS, 2 Baton (R301). LOCKED lines meet a grid
jump (R78), the frequency window is discarded and a daily instant passed over is set at once.
(Log: 138 DEDUCED, 140 DEDUCED.) -/
def counterStep (d : Dev) (delta : Int) (cause : Nat) : Dev :=
  if delta = 0 then d
  else
    let was := tai d
    let x := d.time
    let base := x.base + delta
    let sec := -(-(base + 655360 * (d.ticks : Int)) / secU) - 1
    let ms := (base + 655360 * (d.ticks : Int)) / msU
    let x := { x with base := base, secDone := sec, zdaDone := sec, msDone := ms, windowStart := none }
    let d := { d with time := x }
    let d := raise (bump d pgTime F.TIME_STEPS) pgTime 9
    let d := ledgerNow d 0x0311 0xF (typeCode .time) (leBytes 8 (ux 64 delta) ++ [cause])
    let d := gridInvalid (todSkip (unlockServo d) was)
    let d := onlyIf (flagR d pgTime F.TIME_GRID_VALID) (fun d => gridValid (raise d pgTime 14)) d
    (List.range 12).foldl nextShow d

/-- A label makes the counter read `x` at the instant `p` picoseconds after tick `k` (R302).
(Log: 138 DEDUCED, 139 DEDUCED.) -/
def label (d : Dev) (x : Int) (k : Nat) (p : Int) : Dev :=
  let delta := x - (d.time.base + 655360 * (k : Int)) - rne (8192 * p) 125
  let d := counterStep d delta 0
  let d := { d with time := { d.time with isSet := true, fresh := true, armed := false, lagSecond := none } }
  setR d pgTime F.TIME_LABEL_BACKUP 0

/-- PPS_DELAY in 2^-16 ns.
(Log: 138 DEDUCED.) -/
def ppsDelay (d : Dev) : Int := rne (8192 * getS d pgTime F.TIME_PPS_DELAY) 125

/-- A ZDA label of the edge `e`: the TAI second `l`. The first labels the counter; later, three consecutive ones that
disagree with it do (R302).
(Log: 139 DEDUCED.) -/
def todLabel (d : Dev) (l : Int) (e : Nat × Int) : Dev :=
  let x := d.time
  let at_ := x.base + 655360 * (e.1 : Int) + rne (8192 * e.2) 125 - ppsDelay d
  let s := (at_ + secU / 2) / secU
  if !x.todDone then
    label { d with time := { x with todDone := true, disagree := 0 } } (l * secU + ppsDelay d) e.1 e.2
  else if s = l then { d with time := { x with disagree := 0 } }
  else if 2 ≤ x.disagree then
    label { d with time := { x with disagree := 0 } } (l * secU + ppsDelay d) e.1 e.2
  else { d with time := { x with disagree := x.disagree + 1 } }

/-- SET_SRC with 3 acting as 0 (R331).
(Log: 139 DEDUCED.) -/
def setSrc (d : Dev) : Nat := if getR d pgTime F.TIME_SET_SRC = 3 then 0 else getR d pgTime F.TIME_SET_SRC

/-- SET_ARM: on the time master it arms a label for the next accepted edge, or sets the counter at the next tick
(R302). -/
def doSetArm (t : Nat) (d : Dev) : Dev :=
  onPage pgTime (fun d =>
    if !isMaster d then d
    else if setSrc d = 0 then { d with time := { d.time with armed := true } }
    else if setSrc d = 1 then
      let d := advance d (d.ticks + 1)
      timeShow (label d ((getR d pgTime F.TIME_SET_S : Int) * secU + (getR d pgTime F.TIME_SET_NS : Int) * 65536) d.ticks 0)
    else d) (advance d t)

def execSetArm (t : Nat) (s : State) : Host.Outcome State Fault Refusal :=
  act true s (doSetArm t)

/-- TOD_SENTENCE: a ZDA sentence for UTC second `utc` on the PTP epoch's scale; `ok`: its checksum is good and its
status valid (R302). -/
def doTodSentence (t : Nat) (ok : Bool) (utc : Int) (d : Dev) : Dev :=
  let d := advance d t
  if !isMaster d || setSrc d != 2 then d
  else if !ok then bump d pgTime F.TIME_TOD_BAD
  else
    let l := utc + getS d pgTime F.TIME_TAI_UTC
    if flagR d pgTime F.TIME_TOD_LAG then { d with time := { d.time with lagSecond := some l } }
    else match d.time.lastEdge with
      | some e => timeShow (todLabel d l e)
      | none => d

def execTodSentence (t : Nat) (ok : Bool) (utc : Int) (s : State) : Host.Outcome State Fault Refusal :=
  act true s (doTodSentence t ok utc)

/-! ## The servo (R304) -/

/-- The servo steers FREQ anew from the latest edge, to a value that the spec does not fix (R299, R304).
(Log: 137 DEDUCED, 141 DESIGN CHOICE.) -/
def steer (d : Dev) : Dev :=
  let (v, d) := freeV d
  freqTo d (sx 32 v)

/-- An accepted edge is `p` ps after tick `k`: the reference is present, and the edge takes the label that waits for
it (R300, R302). -/
def edgeTaken (d : Dev) (k : Nat) (p : Int) : Dev :=
  let d := refOn { d with time := { d.time with lastEdge := some (k, p), rejects := [] } }
  let x := d.time
  if x.armed ∧ setSrc d = 0 then label d ((getR d pgTime F.TIME_SET_S : Int) * secU + ppsDelay d) k p
  else match x.lagSecond with
    | some l => if setSrc d = 2 then todLabel { d with time := { x with lagSecond := none } } l (k, p) else d
    | none => d

/-- The edge is one of R304's runs: steering, and lock after 16 edges under LOCK_TH. `e` in 2^-16 ns / 125.
(Log: 146 DEDUCED.) -/
def edgeGood (d : Dev) (e : Int) : Dev :=
  let d := steer d
  let x := d.time
  let run := if e.natAbs < getR d pgTime F.TIME_LOCK_TH * 8192000 then x.accRun + 1 else 0
  let lock := x.locked || decide (16 ≤ run)
  let d := onlyIf (lock && !x.locked) (fun d => setR d pgTime F.TIME_HOLD_EXCEEDED 0) d
  let h := if lock then (freqNow d :: x.freqHist).take 10000 else x.freqHist
  { d with time := { d.time with accRun := min run 16, locked := lock, held := x.held && !lock, freqHist := h } }

/-- An edge makes the counter step by −e at the next tick boundary (R304); it starts a new frequency window (R300).
(Log: 139 DEDUCED.) -/
def edgeStep (d : Dev) (e : Int) : Dev :=
  let d := advance d (d.ticks + 1)
  let d := counterStep d (-(rne e 125)) 1
  { d with time := { d.time with accRun := 0 } }

/-- PPS_EDGE: a PPS_IN edge `p` picoseconds after tick `t` (R304).
(Log: 137 DEDUCED, 146 DEDUCED.) -/
def doPpsEdge (t p : Nat) (d : Dev) : Dev :=
  let d := advance d t
  if !isMaster d then d
  else
    let d := bump d pgTime F.TIME_PPS_EDGES
    let k := d.ticks
    let at_ : Int := 125 * tai d + 8192 * ((p : Int) - getS d pgTime F.TIME_PPS_DELAY)
    let e := at_ - (at_ + 125 * secU / 2) / (125 * secU) * (125 * secU)
    let d := setS d pgTime F.TIME_PHASE_ERR (clampI (-(2 ^ 31)) (2 ^ 31 - 1) (rne e 8192))
    let x := d.time
    let small := decide (e.natAbs ≤ getR d pgTime F.TIME_STEP_TH * 8192000)
    let inLock := x.locked || x.held
    let d := { d with time := { x with fresh := false } }
    let named := (x.armed && setSrc d == 0) || (x.lagSecond.isSome && setSrc d == 2)
    if small then
      let d := edgeGood d e
      warmShow (edgeTaken (if named then advance d (d.ticks + 1) else d) k p)
    else if x.fresh || !inLock then
      let d := if named && (setSrc d == 0 || !x.todDone) then advance d (d.ticks + 1) else edgeStep d e
      warmShow (edgeTaken d k p)
    else
      let rs := (e :: x.rejects).take 16
      let d := bump { d with time := { d.time with rejects := rs, accRun := 0 } } pgTime F.TIME_PPS_REJECTS
      if rs.length = 16 ∧ spread rs ≤ (getR d pgTime F.TIME_LOCK_TH : Int) * 8192000 then
        let d := edgeStep d e
        warmShow (edgeTaken d k p)
      else d

def execPpsEdge (t ps : Nat) (s : State) : Host.Outcome State Fault Refusal :=
  act (decide (ps < 10000)) s (doPpsEdge t ps)

/-- FREQ goes to the mean of the latest SERVO_TC seconds of lock (R303).
(Log: 143 DEDUCED.) -/
def holdFreq (d : Dev) : Dev :=
  let h := d.time.freqHist.take (clampN 10 10000 (getR d pgTime F.TIME_SERVO_TC))
  if h.isEmpty then d else freqTo d (rne (sumI h) h.length)

/-- The lock is lost: HOLDOVER (R303, R304, R328).
(Log: 143 DEDUCED.) -/
def loseLock (d : Dev) : Dev :=
  if !d.time.locked then d
  else
    let d := holdFreq d
    { d with time := { d.time with locked := false, held := true, accRun := 0, rejects := [], freqHist := [] } }

/-- PPS_MISSING_TIMEOUT: no edge was accepted for 3 s (R300, R304). -/
def doPpsMissing (t : Nat) (d : Dev) : Dev :=
  match d.time.lastEdge with
  | some e =>
    let d := advance d (max t (e.1 + sT 3))
    if !isMaster d || !d.time.refPresent then d
    else
      let d := onlyIf d.time.locked (fun d => bump (raise d pgTime 12) pgTime F.TIME_PPS_MISSING) d
      warmShow (refOff (loseLock d))
  | none => advance d t

def execPpsMissingTimeout (t : Nat) (s : State) : Host.Outcome State Fault Refusal :=
  act true s (doPpsMissing t)

/-- HOLD_LIMIT_EXPIRY: HOLD_S reaches HOLD_LIMIT (R303). -/
def doHoldLimit (t : Nat) (d : Dev) : Dev :=
  if timeState d ≠ 4 ∨ flagR d pgTime F.TIME_HOLD_EXCEEDED then advance d t
  else
    let d := advance d (max t (d.time.holdStart + sT (getR d pgTime F.TIME_HOLD_LIMIT)))
    timeShow (raise (setR d pgTime F.TIME_HOLD_EXCEEDED 1) pgTime 13)

def execHoldLimitExpiry (t : Nat) (s : State) : Host.Outcome State Fault Refusal :=
  act true s (doHoldLimit t)

/-- At power-on a valid backup counter gives the seconds and its 32.768 kHz phase (R307).
(Log: 207 DEDUCED.) -/
def restoreTime (d : Dev) (secs phase : Nat) : Dev :=
  let base : Int := (secs : Int) * secU + (phase : Int) * 2000000000 - 655360 * (d.ticks : Int)
  let sec := -(-(base + 655360 * (d.ticks : Int)) / secU) - 1
  let ms := (base + 655360 * (d.ticks : Int)) / msU
  let x := { d.time with base := base, isSet := true, secDone := sec, zdaDone := sec, msDone := ms }
  let d := { d with time := x }
  timeShow (setR d pgTime F.TIME_LABEL_BACKUP 1)

/-- The configuration of the TIME page has been written (R331). -/
def timeCfg (d : Dev) : Dev :=
  let d := setR d pgTime F.TIME_ST_MASTER (getR d pgTime F.TIME_MASTER)
  let d := onlyIf (isMaster d) (fun d => setR (setR d pgBtn F.BTN_MASTER_IDX (pkgIndex d)) pgBtn F.BTN_HOPS 0) d
  warmShow (ovenOff d)

/-! ## The outputs (R308–R310) -/

/-- The outputs: 0–3 PPS, 4 and 5 10 MHz, 6 TOD: their page and EN and SQUELCH fields. -/
def outEn (o : Nat) : Fld := if o < 4 then F.PPS_EN o else if o < 6 then F.PPS_F10M_EN (o - 4) else F.PPS_TOD_EN
def outSquelch (o : Nat) : Fld :=
  if o < 4 then F.PPS_SQUELCH o else if o < 6 then F.PPS_F10M_SQUELCH (o - 4) else F.PPS_TOD_SQUELCH

/-- Output `o` runs: it is enabled, not squelched, and the time is set (R310).
(Log: 148 DEDUCED.) -/
def outRuns (d : Dev) (o : Nat) : Bool :=
  !isFenced d regTime && d.time.outOn.contains o && !d.time.squelched.contains o && timeState d != 0

/-- The instant `x` (TAI) in ps from tick 0. -/
def psOf_ (d : Dev) (x : Int) : Int := rne (125 * (x - d.time.base)) 8192

/-- PPS output `i` pulses at the boundary `x` (R308). -/
def ppsPulse (d : Dev) (i : Nat) (x : Int) : Dev :=
  if outRuns d i then
    let w := max 1 (getR d pgPps (F.PPS_WIDTH i))
    bump (emit d (.ppsPulse i (psOf_ d x + 10 * getS d pgPps (F.PPS_DELAY i)) w (flagR d pgPps (F.PPS_POL i))))
      pgPps (F.PPS_PULSES i)
  else d

/-- SECOND_BOUNDARY: the outputs take their settings, squelch or resume, and pulse (R308, R310, R333).
(Log: 148 DEDUCED.) -/
def doSecond (t : Nat) (d : Dev) : Dev :=
  let d := advance d t
  let cur := tai d / secU
  let k := if d.time.secDone < cur then cur else d.time.secDone + 1
  let d := advance d (d.ticks + ticksUntil d (k * secU))
  let on := (List.range 7).filter (fun o => flagR d pgPps (outEn o))
  let sq := on.filter (fun o => flagR d pgPps (outSquelch o))
  let was := d.time.squelched
  let now := if flagR d pgTime F.TIME_QUALIFIED then [] else sq
  let tod := [F.PPS_START_MS, F.PPS_TALKER, F.PPS_BAUD].map (getR d pgPps)
  let d := { d with time := { d.time with secDone := k, outOn := on, outSq := sq, squelched := now, todCfg := tod } }
  let d := onlyIf (now.any (fun o => !was.contains o)) (fun d => raise d pgPps 8) d
  let d := onlyIf (was.any (fun o => !now.contains o)) (fun d => raise d pgPps 9) d
  let d := onlyIf (!now.isEmpty) (fun d => bump d pgPps F.PPS_SQUELCHED_S) d
  let d := (List.range 4).foldl (fun d i => ppsPulse d i (k * secU)) d
  let d := (List.range 2).foldl (fun d f =>
    emit d (.clock10 f (outRuns d (4 + f)) (10 * getS d pgPps (F.PPS_F10M_DELAY f)))) d
  pfInternal d 25

def execSecondBoundary (t : Nat) (s : State) : Host.Outcome State Fault Refusal :=
  act true s (doSecond t)

/-- TOD_OUT_START: START_MS after the second just begun its ZDA sentence leaves, under the settings of its boundary (R309,
R333).
(Log: 148 DEDUCED.) -/
def doTodOut (t : Nat) (d : Dev) : Dev :=
  let k := d.time.secDone
  if d.time.zdaDone = k then advance d t
  else
    let cfg := d.time.todCfg
    let ms := clampN 1 900 (cfg.getD 0 100)
    let d := advance d (max t (d.ticks + ticksUntil d (k * secU + (ms : Int) * msU)))
    let d := { d with time := { d.time with zdaDone := k } }
    onlyIf (outRuns d 6) (fun d =>
      emit d (.zda (k - getS d pgTime F.TIME_TAI_UTC) (d.time.leapAt == some k) (cfg.getD 1 0)
        (if cfg.getD 2 1 = 3 then 1 else cfg.getD 2 1))) d

def execTodOutStart (t : Nat) (s : State) : Host.Outcome State Fault Refusal :=
  act true s (doTodOut t)

/-- LEAP_SECOND: the scheduled leap second is inserted or removed at the end of the UTC day, TAI_UTC changes, and
the schedule is done (R309).
(Log: 147 DESIGN CHOICE.) -/
def doLeap (t : Nat) (d : Dev) : Dev :=
  let d := advance d t
  let u := getS d pgTime F.TIME_TAI_UTC
  let leap := getR d pgTime F.TIME_LEAP
  if leap ≠ 1 ∧ leap ≠ 2 then d
  else
    let cut : Int := if leap = 1 then 0 else 1
    let k := -(-(tai d) / secU)
    let k := k + (u - cut - k) % 86400
    let d := advance d (d.ticks + ticksUntil d (k * secU))
    let d := { d with time := { d.time with leapAt := if leap = 1 then some k else none } }
    setR (setS d pgTime F.TIME_TAI_UTC (if leap = 1 then u + 1 else u - 1)) pgTime F.TIME_LEAP 0

def execLeapSecond (t : Nat) (s : State) : Host.Outcome State Fault Refusal :=
  act true s (doLeap t)

/-! ## PTP (R311–R314) -/

/-- PTP port `i` is in MASTER. -/
def ptpOn (d : Dev) (i : Nat) : Bool := getR d (pgPtp i) cSTATE == 1

/-- A PTP message leaves the port, on sub-port 0 where it is split. -/
def ptpSend (d : Dev) (i kind : Nat) (fields : List Int) : Dev :=
  onlyIf (subUp d i 0) (fun d => reply d i 0 kind fields) d

/-- PTP's timestamps refer to the points that TX_DELAY and RX_DELAY choose (R312): instants in 2^-16 ns. -/
def txStamp (d : Dev) (i : Nat) : Int := tai d + rne (8192 * getS d (pgPtp i) F.PTP_TX_DELAY) 125
def rxStamp (d : Dev) (i : Nat) : Int := tai d - rne (8192 * getS d (pgPtp i) F.PTP_RX_DELAY) 125

/-- PTP port `i`'s own state. -/
def ptpSt (d : Dev) (i : Nat) : PtpSt := Store.get d.ptp PtpSt.reset i
def setPtp (d : Dev) (i : Nat) (x : PtpSt) : Dev := { d with ptp := Store.set d.ptp PtpSt.reset i x }

/-- 2^`l` seconds in ticks. -/
def logTicks (l : Int) : Nat := if l < 0 then sT 1 / 2 ^ l.natAbs else sT 1 * 2 ^ l.toNat

/-- The Sync and announce intervals of port `i` in ticks (R313).
(Log: 149 PRESUMED.) -/
def syncTicks (d : Dev) (i : Nat) : Nat :=
  if flagR d (pgPtp i) F.PTP_PROFILE then sT 1 / 16 else logTicks (getS d (pgPtp i) F.PTP_LOG_SYNC)
def annTicks (d : Dev) (i : Nat) : Nat :=
  if flagR d (pgPtp i) F.PTP_PROFILE then sT 1 / 8 else logTicks (getS d (pgPtp i) F.PTP_LOG_ANN)

/-- SYNC_TX: the next Sync, an interval after the last, with Follow_Up on a two-step port (R311, R313).
(Log: 151 DEDUCED.) -/
def doSyncTx (t i : Nat) (d : Dev) : Dev :=
  if !ptpOn d i then advance d t
  else
    let d := advance d (max t (ptpSt d i).syncAt)
    let d := setPtp d i { ptpSt d i with syncAt := d.ticks + syncTicks d i }
    let d := bump d (pgPtp i) F.PTP_SYNC_TX
    let dom : Int := getR d (pgPtp i) F.PTP_DOMAIN
    if flagR d (pgPtp i) F.PTP_ONE_STEP then ptpSend d i 3 [dom, txStamp d i]
    else ptpSend (ptpSend d i 3 [dom]) i 4 [dom, txStamp d i]

def execSyncTx (t port : Nat) (s : State) : Host.Outcome State Fault Refusal :=
  act (decide (port < 2)) s (doSyncTx t port)

/-- ANNOUNCE_TX: the next Announce, an interval after the last, with the values of R312 (R313).
(Log: 151 DEDUCED.) -/
def doAnnounceTx (t i : Nat) (d : Dev) : Dev :=
  let p := pgPtp i
  if !ptpOn d i then advance d t
  else
    let d := advance d (max t (ptpSt d i).annAt)
    let d := setPtp d i { ptpSt d i with annAt := d.ticks + annTicks d i }
    let labelled := d.time.isSet && !flagR d pgTime F.TIME_LABEL_BACKUP
    let leap := getR d pgTime F.TIME_LEAP
    let own : List Nat := [getR d p F.PTP_DOMAIN, getR d p F.PTP_PRIO1, getR d p F.PTP_PRIO2, getR d p F.PTP_LOCAL_PRIO]
    ptpSend d i 5 ((announced d ++ own).map Int.ofNat ++
      [getS d pgTime F.TIME_TAI_UTC, (b2n labelled : Int), (b2n (leap == 2) : Int), (b2n (leap == 1) : Int)])

def execAnnounceTx (t port : Nat) (s : State) : Host.Outcome State Fault Refusal :=
  act (decide (port < 2)) s (doAnnounceTx t port)

/-- DELAY_REQ: a Delay_Req from `client` is answered, with the interval that the port accepts, or dropped over 4,096 in a second
(R311, R313).
(Log: 151 DEDUCED.) -/
def doDelayReq (t i client : Nat) (d : Dev) : Dev :=
  let d := rxFrame (advance d t) i
  let p := pgPtp i
  if !ptpOn d i then d
  else
    let d := bump d p F.PTP_DREQ_RX
    let x := ptpSt d i
    let s := taiSec (tai d)
    let n := if x.sec = s then x.count else 0
    if 4096 ≤ n then bump d p F.PTP_DREQ_DROPS
    else
      let d := setPtp d i { x with sec := s, count := n + 1 }
      ptpSend d i 6 [(client : Int), rxStamp d i, if flagR d p F.PTP_PROFILE then -4 else getS d p F.PTP_LOG_MINDR]

def execDelayReq (t port client : Nat) (s : State) : Host.Outcome State Fault Refusal :=
  act (decide (port < 2)) s (doDelayReq t port client)

/-- FOREIGN_ANNOUNCE: an Announce from another clock is counted; FOREIGN_MASTER is raised at its onset, where none
came within the last four announce intervals (R313).
(Log: 149 PRESUMED.) -/
def doForeign (t i : Nat) (d : Dev) : Dev :=
  let d := rxFrame (advance d t) i
  if !ptpOn d i then d
  else
    let x := ptpSt d i
    let was : Bool := match x.foreignAt with
      | some a => decide (d.ticks ≤ a + 4 * annTicks d i)
      | none => false
    let d := setPtp d i { x with foreignAt := some d.ticks }
    raiseOn (bump d (pgPtp i) F.PTP_FOREIGN_ANN) (pgPtp i) 8 was true

def execForeignAnnounce (t port : Nat) (s : State) : Host.Outcome State Fault Refusal :=
  act (decide (port < 2)) s (doForeign t port)

/-- PTP_UNSUPPORTED: a message outside the supported set is counted and not answered (R311). -/
def doPtpUnsupported (t i : Nat) (d : Dev) : Dev :=
  let d := rxFrame (advance d t) i
  onlyIf (ptpOn d i) (fun d => bump d (pgPtp i) F.PTP_IGNORED) d

def execPtpUnsupported (t port : Nat) (s : State) : Host.Outcome State Fault Refusal :=
  act (decide (port < 2)) s (doPtpUnsupported t port)

/-- The ESMC quality level: QL-PRC (2) when the master is LOCKED, QL-SEC (11) in HOLDOVER, QL-DNU (15) otherwise
(R314).
(Log: 150 PRESUMED.) -/
def esmcQl (d : Dev) : Int :=
  if timeState d = 4 then 11
  else if timeState d = 3 then
    let c := (announced d).getD 0 248
    if c = 6 then 2 else if c = 7 then 11 else 15
  else 15

/-- ESMC_TX: the port's next ESMC message, 1 s after the last (R314).
(Log: 150 PRESUMED.) -/
def doEsmc (t i : Nat) (d : Dev) : Dev :=
  if flagR d (pgPtp i) F.PTP_ESMC_EN then
    let d := advance d (max t (ptpSt d i).esmcAt)
    ptpSend (setPtp d i { ptpSt d i with esmcAt := d.ticks + sT 1 }) i 7 [esmcQl d]
  else advance d t

def execEsmcTx (t port : Nat) (s : State) : Host.Outcome State Fault Refusal :=
  act (decide (port < 2)) s (doEsmc t port)

end Sys2Proof.Machine
end

