-- ==== Sys2Proof/Machine/Baton.lean ====
section
/-! DEFINITION. The Baton links: their states, announcements, frames and timing words (R325–R329). Proxied
accesses stand in Machine/Proxy.lean. -/

namespace Sys2Proof.Machine

open Sys2Proof

/-- The state field of port 0 (UP) or 1 (DOWN). -/
def btnFld (port : Nat) : Fld := if port = 0 then F.BTN_UP_STATE else F.BTN_DOWN_STATE
def btnState (d : Dev) (port : Nat) : Nat := getR d pgBtn (btnFld port)

/-- The UP lock follows: LOCK or UNLOCK is raised, and the servo of a package that is not the master with it
(R328).
(Log: 156 DEDUCED.) -/
def upLock (d : Dev) (on : Bool) : Dev :=
  let was := flagR d pgBtn F.BTN_UP_LOCKED
  if was = on then d
  else
    let d := raise (setR d pgBtn F.BTN_UP_LOCKED (b2n on)) pgBtn (if on then 11 else 12)
    if isMaster d then d
    else if on then
      setR { d with time := { d.time with locked := true, held := false } } pgTime F.TIME_HOLD_EXCEEDED 0
    else
      let d := loseLock d
      { d with time := { d.time with upFresh := true, lockRun := none } }

/-- A port takes state `v`: LINK_UP or LINK_DOWN and the BATON_LINK entry; a link that leaves UP takes what went
over it along (R325, R327, R328). -/
def linkPut (d : Dev) (port v : Nat) : Dev :=
  let was := btnState d port
  if was = v then d
  else
    let d := setR d pgBtn (btnFld port) v
    let d := ledgerNow (raise d pgBtn (if v = 2 then 8 else 9)) 0x0313 0xF (typeCode .btn) [port, v]
    let at_ := if v = 2 then some d.ticks else none
    let b := d.baton
    let b := if port = 0 then { b with upAt := at_ } else { b with downAt := at_ }
    let b := if was = 2 ∨ v = 0 ∨ v = 3 then (if port = 0 then { b with above := [] } else { b with below := [] }) else b
    let d := onlyIf (was == 2) (fun d => bump d pgBtn F.BTN_LINK_DOWNS) { d with baton := b }
    if was = 2 ∧ port = 0 then
      let d := setR d pgBtn F.BTN_UP_CAL 0
      let d := upLock d false
      let d := { d with time := { d.time with upFresh := true, lockRun := none } }
      warmShow (onlyIf (!isMaster d) refOff d)
    else d

/-- BATON_LINK_CHANGE: the lane of a port goes down (0), trains (1) or comes UP (2); a link in CONFIG_FAULT stays
there until the announcements no longer conflict (R325, R326), one whose lane unit runs stays DOWN (R461).
(Log: 156 DEDUCED.) -/
def doLinkChange (t port v : Nat) (d : Dev) : Dev :=
  let d := advance d t
  let lane := getR d (pgLpu 2) (F.LPUL_UNIT_STATE port)
  if (btnState d port = 3 ∨ lane = 1 ∨ lane = 2) ∧ v ≠ 0 then d else linkPut d port v

def execBatonLinkChange (t port v : Nat) (s : State) : Host.Outcome State Fault Refusal :=
  act (decide (port < 2) && decide (v < 3)) s (doLinkChange t port v)

/-- BATON_FRAME: a frame arrives on a port; `good`: it passes its check; `again`: so does its replay; `sig`: it
carries a trigger word (R325, R329). What a good frame carries comes in its own command. -/
def doBatonFrame (t port : Nat) (good again sig : Bool) (d : Dev) : Dev :=
  let d := advance d t
  if btnState d port ≠ 2 ∨ good then d
  else
    let d := emit (bump d pgBtn F.BTN_REPLAYS) (.baton port 8 [])
    if again then d
    else onlyIf sig (fun d => bump d pgBtn F.BTN_SIG_LOST) (bump d pgBtn F.BTN_FRAME_DROPS)

def execBatonFrame (t port : Nat) (good again sig : Bool) (s : State) : Host.Outcome State Fault Refusal :=
  act (decide (port < 2)) s (doBatonFrame t port good again sig)

/-- Two packages of the list have one index.
(Log: 157 DESIGN CHOICE.) -/
def hasTwin : List Nat → Bool
  | [] => false
  | a :: r => r.contains a || hasTwin r

/-- The package announces itself, and what it has heard, on a port (R326).
(Log: 157 DESIGN CHOICE.) -/
def announce (d : Dev) (port : Nat) : Dev :=
  let heard := if port = 0 then d.baton.below else d.baton.above
  emit d (.baton port 7 (((b2n (isMaster d && port == 1)) :: pkgIndex d :: heard).map Int.ofNat))

/-- BATON_ANNOUNCE: an announcement on a port: whether it is the master's, the index of the neighbour, for a master
announcement the hops to the master, and the indices beyond the neighbour (R326, R39).
(Log: 157 DESIGN CHOICE.) -/
def doAnnounce (t port : Nat) (master : Bool) (idx hops : Nat) (others : List Nat) (d : Dev) : Dev :=
  let d := advance d t
  let st := btnState d port
  if st = 0 then d
  else
    let side := idx :: others
    let b := if port = 0 then { d.baton with above := side } else { d.baton with below := side }
    let chain := pkgIndex d :: b.above ++ b.below
    let twin := hasTwin chain
    let wrong := master && port == 1
    if wrong || twin then
      if st = 3 then d
      else
        let d := raise (linkPut d port 3) pgBtn 10
        ledgerNow d 0x0314 0xF (typeCode .btn) [port, b2n (!wrong), idx]
    else
      let d := { d with baton := b }
      let d := onlyIf (st == 3) (fun d => linkPut d port 1) d
      if master && port == 0 && !isMaster d then
        let m := if hops = 0 then idx else others.getD (hops - 1) idx
        announce (setR (setR d pgBtn F.BTN_MASTER_IDX m) pgBtn F.BTN_HOPS (hops + 1)) 1
      else d

def execBatonAnnounce (t port : Nat) (master : Bool) (idx hops : Nat) (others : List Nat) (s : State) :
    Host.Outcome State Fault Refusal :=
  act (decide (port < 2) && decide (idx < 8) && decide (hops < 8)) s (doAnnounce t port master idx hops others)

/-- HOP_CALIBRATED: a hop becomes calibrated 10 s after its link came UP (R327). -/
def doHopCal (t port : Nat) (d : Dev) : Dev :=
  match (if port = 0 then d.baton.upAt else d.baton.downAt) with
  | some a =>
    let d := advance d (max t (a + sT 10))
    if port = 0 then warmShow (setR d pgBtn F.BTN_UP_CAL 1) else d
  | none => advance d t

def execHopCalibrated (t port : Nat) (s : State) : Host.Outcome State Fault Refusal :=
  act (decide (port < 2)) s (doHopCal t port)

/-- The first calibrated exchange: the counter steps where |offset| is above STEP_TH (R328).
(Log: 156 DEDUCED.) -/
def upFirst (d : Dev) (ofs : Int) : Dev :=
  let d := onlyIf (decide (getR d pgTime F.TIME_STEP_TH * 1000 < ofs.natAbs))
    (fun d => counterStep d (-(rne (8192 * ofs) 125)) 2) d
  let d := onlyIf (d.time.windowStart.isNone) refOn d
  { d with time := { d.time with upFresh := false, lockRun := none } }

/-- A calibrated exchange steers FREQ, and locks after 1 s of offsets within ±500 ps (R328).
(Log: 141 DESIGN CHOICE.) -/
def upSteer (d : Dev) (ofs : Int) : Dev :=
  let d := refOn (steer d)
  if 500 < ofs.natAbs then upLock { d with time := { d.time with lockRun := none } } false
  else
    let a := d.time.lockRun.getD d.ticks
    let d := { d with time := { d.time with lockRun := some a } }
    let due : Bool := match d.time.lastEdge with
      | some e => decide (e.1 + sT 1 ≤ d.ticks)
      | none => true
    let d := onlyIf (flagR d pgBtn F.BTN_UP_LOCKED && due) (fun d =>
      let h := (freqNow d :: d.time.freqHist).take 10000
      { d with time := { d.time with lastEdge := some (d.ticks, 0), freqHist := h } }) d
    if a + sT 1 ≤ d.ticks then upLock d true else d

/-- BATON_TIMING_WORD: an exchange on a port with its four timestamps in ps. On UP the lower package forms delay and
offset, takes the master's label (`set`: it has one), QUALIFIED state and announced values, and steers (R327, R328); on DOWN it sends its own
(t1, t4), with what it knows of the master.
(Log: 158 DEDUCED.) -/
def doTimingWord (t port : Nat) (t1 t2 t3 t4 : Int) (set qual : Bool) (ann : List Nat) (d : Dev) : Dev :=
  let d := advance d t
  if btnState d port ≠ 2 then d
  else if port = 1 then
    emit d (.baton 1 4 ([t1, t4, (getR d pgTime F.TIME_QUALIFIED : Int)] ++ (announced d).map Int.ofNat))
  else
    let del := rne ((t2 - t1) + (t4 - t3)) 2
    let ofs := rne (2 * (t2 - t1) - ((t2 - t1) + (t4 - t3)) - 2 * getS d pgBtn F.BTN_ASYM_PS) 2
    let d := setS (setS d pgBtn F.BTN_OFFSET (clampI (-(2 ^ 31)) (2 ^ 31 - 1) ofs)) pgBtn F.BTN_DELAY
      (clampI (-(2 ^ 31)) (2 ^ 31 - 1) del)
    let d := emit d (.baton 0 4 [t2, t3])
    if isMaster d then d
    else
      let d := { d with time := { d.time with masterQual := qual, masterAnn := padTo 4 ann } }
      if !flagR d pgBtn F.BTN_UP_CAL then timeShow d
      else
        let d := onlyIf set (fun d =>
          setR { d with time := { d.time with isSet := true } } pgTime F.TIME_LABEL_BACKUP 0) d
        warmShow (if d.time.upFresh then upFirst d ofs else upSteer d ofs)

def execBatonTimingWord (t port : Nat) (t1 t2 t3 t4 : Int) (set qual : Bool) (ann : List Nat) (s : State) :
    Host.Outcome State Fault Refusal :=
  act (decide (port < 2)) s (doTimingWord t port t1 t2 t3 t4 set qual ann)

end Sys2Proof.Machine
end

