-- ==== Sys2Proof/Machine/Segments.lean ====
section
/-! DEFINITION. The Archive's segments, volumes, pins and states (R363, R364, R369–R373, R375, R379). -/

namespace Sys2Proof.Machine

open Sys2Proof

/-- ARC.STATUS.STATE (R383): 0 UNMOUNTED, 1 MOUNTING, 2 MOUNTED, 3 READ_ONLY, 4 FAILED, 5 FORMATTING. -/
def arcSt (d : Dev) : Nat := getR d pgArc cSTATE

/-- The state becomes `v`: STATE_CHANGE and an ARC_STATE entry (R382, R383); Ledger places that await the Archive no more
are freed (R252). -/
def arcState (d : Dev) (v : Nat) : Dev :=
  if arcSt d = v then d
  else
    let d := ledgerNow d 0x0505 0xF (typeCode .arc) [arcSt d, v]
    ledgerPurge (raise (setR d pgArc cSTATE v) pgArc 8)

/-! ## Geometry (R363, R364) -/

/-- The key of block `b` of LUN `u` of target `t` of channel `c`. -/
def blkKey (c t u b : Nat) : Nat := ((c * 4 + t) * 4 + u) * 2 ^ 32 + b

/-- Channels with an accepted target. -/
def arcChans (g : ArcGeo) : List Nat := (List.range 8).filter (fun c => g.targets.any (fun x => x / 4 == c))

/-- The planes in use. -/
def arcP (g : ArcGeo) : Nat := max 1 (min g.planes 4)

/-- Segments of a LUN, and of the whole geometry. -/
def segGroups (g : ArcGeo) : Nat := g.bpl / arcP g
def segCount (g : ArcGeo) : Nat := (g.targets.foldl (fun m x => max m (x % 4 + 1)) 0) * g.luns * segGroups g

/-- Target, LUN and group of segment `s`. -/
def segPlace (g : ArcGeo) (s : Nat) : Nat × Nat × Nat :=
  (s / (g.luns * segGroups g), s / segGroups g % g.luns, s % segGroups g)

/-- Block `k` is marked or grown bad (R372). -/
def isBad (d : Dev) (k : Nat) : Bool := d.arc.marks.contains k || d.almBad.contains k

/-- Good positions of segment `s`. -/
def segGood (d : Dev) (g : ArcGeo) (s : Nat) : Nat :=
  let (t, u, gr) := segPlace g s
  ((arcChans g).map (fun c =>
    if g.targets.contains (4 * c + t) then
      ((List.range (arcP g)).filter (fun i => !isBad d (blkKey c t u (gr * arcP g + i)))).length
    else 0)).foldl (· + ·) 0

/-- The segment may be used: at least half of the positions it should hold are good (R364).
(Log: 169 DEDUCED.) -/
def segUsable (d : Dev) (g : ArcGeo) (s : Nat) : Bool :=
  decide (arcP g * (arcChans g).length ≤ 2 * segGood d g s) && decide (0 < segGood d g s)

/-- Bytes of a block, of a whole segment, and of the good positions of segment `s`. -/
def blkBytes (g : ArcGeo) : Nat := g.ppb * g.pageBytes
def segBytes (g : ArcGeo) : Nat := arcP g * (arcChans g).length * blkBytes g
def segRoom (d : Dev) (g : ArcGeo) (s : Nat) : Nat := segGood d g s * blkBytes g

/-- The segments that may be used. -/
def segsUsed (d : Dev) : List Nat :=
  match d.arc.geo with
  | some g => (List.range (segCount g)).filter (segUsable d g)
  | none => []

/-- Segment `s`. -/
def seg (d : Dev) (s : Nat) : ArcSeg := Store.get d.arc.segs ArcSeg.reset s
def setSeg (d : Dev) (s : Nat) (x : ArcSeg) : Dev :=
  { d with arc := { d.arc with segs := Store.set d.arc.segs ArcSeg.reset s x } }

/-- The segments of volume `v`, in the order of their allocation. -/
def insOrd (e : Nat × ArcSeg) : List (Nat × ArcSeg) → List (Nat × ArcSeg)
  | [] => [e]
  | f :: r => if e.2.order ≤ f.2.order then e :: f :: r else f :: insOrd e r
def volSegs (d : Dev) (v : Nat) : List (Nat × ArcSeg) :=
  (d.arc.segs.filter (fun e => e.2.vol == v)).foldl (fun l e => insOrd e l) []

/-- The usable FREE segments. -/
def freeSegs (d : Dev) : List Nat := (segsUsed d).filter (fun s => (seg d s).vol == 0)

/-- The sum of the erase counts.
(Log: 169 DEDUCED.) -/
def eraseSum (d : Dev) : Nat := ((segsUsed d).map (fun s => (seg d s).erases)).foldl (· + ·) 0

/-! ## Pins (R370) -/

/-- Block `b` belongs to the window of pin `p`. -/
def inWindow (p : PinSt) (b : ArcBlock) : Bool :=
  decide (b.stream < 36) && b.stream % 12 == p.line && decide (p.from_ ≤ b.to_) &&
    (match p.end_ with
     | some e => decide (b.from_ ≤ e)
     | none => true)

/-- The pins whose hold is in force: granted and not copied. -/
def holding (d : Dev) : List PinSt := d.pins.filter (fun p => !p.copied)

/-- Segment `x` of CONTINUOUS is held by one of `ps`. -/
def heldByPins (ps : List PinSt) (x : ArcSeg) : Bool := x.blocks.any (fun b => ps.any (fun p => inWindow p b))

/-- Segments that are held. -/
def heldSegs (d : Dev) : Nat := ((volSegs d 1).filter (fun e => heldByPins (holding d) e.2)).length

/-- Open pins: not yet closed.
(Log: 175 DEDUCED.) -/
def openPins (d : Dev) : Nat := (d.pins.filter (fun p => !p.closed)).length

/-- A further pin would be refused for want of room.
(Log: 175 DEDUCED.) -/
def pinsFull (d : Dev) : Bool :=
  decide (256 ≤ openPins d) || decide (getR d pgArc F.ARC_PIN_HOLD_MAX < getR d pgArc F.ARC_HELD_SEGS + 1)

/-- Pin `p` is broken (R370). -/
def breakPin (d : Dev) (p : PinSt) : Dev :=
  let d := { d with pins := d.pins.filter (fun q => q.id != p.id) }
  let d := ledgerNow d 0x0162 p.line (typeCode .arc) (leBytes 4 p.id)
  raise (bump d pgArc F.ARC_PINS_BROKEN) pgArc 13

/-! ## What the registers show (R377, R383) -/

/-- The TAI seconds of the oldest continuous block. -/
def oldestS (d : Dev) : Nat :=
  match (volSegs d 1).flatMap (fun e => e.2.blocks) with
  | b :: r => r.foldl (fun m c => min m (taiSec c.from_)) (taiSec b.from_)
  | [] => 0

/-- The computed registers of the ARC page; BEHIND is raised at its onset.
(Log: 173 DEDUCED.) -/
def arcShow (d : Dev) : Dev :=
  let p := pgArc
  let us := segsUsed d
  let es := us.map (fun s => (seg d s).erases)
  let d := setR (setR d p F.ARC_SEGS_TOTAL (min us.length 65535)) p F.ARC_SEGS_FREE (min (freeSegs d).length 65535)
  let d := setR (setR d p F.ARC_HELD_SEGS (heldSegs d)) p F.ARC_OLDEST_S (oldestS d)
  let d := setR d p F.ARC_ERASE_MIN (min 65535 (es.foldl min (es.headD 0)))
  let d := setR d p F.ARC_ERASE_MAX (min 65535 (es.foldl max 0))
  let d := setR d p F.ARC_PINS_OPEN (openPins d)
  let d := setR d p F.ARC_PINS_FULL (b2n (pinsFull d))
  let back := backlogTicks d
  let was := flagR d p F.ARC_BEHIND
  let now := decide (sT 1 < back)
  let d := setR (setR d p F.ARC_BACKLOG_MS (min 65535 (back / msT 1))) p F.ARC_BEHIND (b2n now)
  raiseOn d p 9 was now

/-! ## READ_ONLY (R373) -/

/-- The segments of CONTINUOUS that could be reclaimed while only the pins `ps` hold.
(Log: 174 DEDUCED.) -/
def reclaimable (d : Dev) (ps : List PinSt) : List (Nat × ArcSeg) :=
  (volSegs d 1).filter (fun e => Store.get d.arc.openSeg 0 1 != e.1 + 1 && !heldByPins ps e.2)

/-- READ_ONLY is due. FREE cannot be kept at FREE_MIN without breaking every pin where even with only the newest pin
left it falls short.
(Log: 174 DEDUCED.) -/
def readOnlyDue (d : Dev) : Bool :=
  let us := segsUsed d
  let keep := match (holding d).getLast? with
    | some p => [p]
    | none => []
  decide (16384 ≤ d.almBad.length) || decide (us.length * getR d pgArc F.ARC_PE_RATED ≤ eraseSum d) ||
    decide ((freeSegs d).length + (reclaimable d keep).length < getR d pgArc F.ARC_FREE_MIN)

/-- A MOUNTED Archive becomes READ_ONLY where that is due. -/
def arcCheck (d : Dev) : Dev := if arcSt d = 2 ∧ readOnlyDue d then arcState d 3 else d

/-! ## Allocation and reclaim (R369–R371) -/

/-- Segment `s` returns to FREE; it is erased before its reuse. -/
def freeSeg (d : Dev) (s : Nat) : Dev :=
  let x := seg d s
  setSeg d s { ArcSeg.reset with erases := x.erases, dirty := true }

/-- Segment `s` is taken from FREE for volume `v`, erased first where it has been programmed.
(Log: 169 DEDUCED.) -/
def takeSeg (d : Dev) (s v : Nat) : Dev :=
  let x := seg d s
  let d := setSeg d s { ArcSeg.reset with vol := v, order := d.arc.nextOrder, erases := x.erases + b2n x.dirty, dirty := true }
  { d with arc := { d.arc with nextOrder := d.arc.nextOrder + 1 } }

/-- The FREE segment with the lowest erase count and the lowest number (R371). -/
def coldest (d : Dev) : Option Nat :=
  match freeSegs d with
  | [] => none
  | s :: r => some (r.foldl (fun m k => if (seg d k).erases < (seg d m).erases then k else m) s)

/-- The FREE segment with the highest erase count. -/
def hottest (d : Dev) : Option Nat :=
  match freeSegs d with
  | [] => none
  | s :: r => some (r.foldl (fun m k => if (seg d m).erases < (seg d k).erases then k else m) s)

/-- CONTINUOUS gives up its oldest segment that is not held, pins being broken, oldest first, as far as needed. -/
def reclaimCont : Nat → Dev → Dev
  | 0, d => d
  | fuel + 1, d =>
    match (reclaimable d (holding d)).head? with
    | some e => freeSeg d e.1
    | none =>
      match holding d with
      | p :: _ => reclaimCont fuel (breakPin d p)
      | [] => d

/-- EVENTS gives up its oldest window: the copy of the pin whose blocks lie first; segments left empty are freed. -/
def reclaimEvents (d : Dev) : Dev :=
  match (volSegs d 2).flatMap (fun e => e.2.blocks) with
  | [] => d
  | b :: _ =>
    let d := { d with pins := d.pins.filter (fun p => p.id != b.pin) }
    (volSegs d 2).foldl (fun d e =>
      let bs := e.2.blocks.filter (fun c => c.pin != b.pin)
      if bs.isEmpty then freeSeg d e.1 else setSeg d e.1 { e.2 with blocks := bs }) d

/-- Volume `v` holds all its segments: its share of R369, or, for CONTINUOUS, FREE is at FREE_MIN. -/
def volFull (d : Dev) (v : Nat) : Bool :=
  decide (d.arc.quota.getD v 0 ≤ (volSegs d v).length) ||
    (v == 1 && decide ((freeSegs d).length ≤ getR d pgArc F.ARC_FREE_MIN))

/-- Room for a new segment of volume `v` is made (R369). -/
def makeRoom (d : Dev) (v : Nat) : Dev :=
  if !volFull d v then d
  else if v = 1 then reclaimCont (d.pins.length + 1) d
  else if v = 2 then reclaimEvents d
  else match (volSegs d v).head? with
    | some e => freeSeg d e.1
    | none => d

/-- A wear move is posted where the spread exceeds WEAR_SPREAD (R371).
(Log: 181 DEDUCED.) -/
def wearWant (d : Dev) : Dev :=
  let es := (segsUsed d).map (fun s => (seg d s).erases)
  if getR d pgArc F.ARC_WEAR_SPREAD < es.foldl max 0 - es.foldl min (es.headD 0) then
    postJob d ownWear (openCost ownWear) (openDur ownWear) 0
  else d

/-- A new segment for volume `v`, with the device after it. -/
def allocSeg (d : Dev) (v : Nat) : Option Nat × Dev :=
  let d := makeRoom d v
  match coldest d with
  | some s => (some s, wearWant (takeSeg d s v))
  | none => (none, d)

/-- The segment of volume `v` that takes `n` bytes more: the one being written, or a new one. -/
def segFor (d : Dev) (v n : Nat) : Option Nat × Dev :=
  match d.arc.geo with
  | none => (none, d)
  | some g =>
    let o := Store.get d.arc.openSeg 0 v
    if o ≠ 0 ∧ (seg d (o - 1)).vol = v ∧ (seg d (o - 1)).used + n ≤ segRoom d g (o - 1) then (some (o - 1), d)
    else
      match allocSeg d v with
      | (some s, d) => (some s, { d with arc := { d.arc with openSeg := Store.set d.arc.openSeg 0 v (s + 1) } })
      | (none, d) => (none, d)

/-- Block `b` is placed at the end of volume `v`.
(Log: 167 DESIGN CHOICE.) -/
def placeBlock (d : Dev) (v : Nat) (b : ArcBlock) : Bool × Dev :=
  match segFor d v b.data.length with
  | (none, d) => (false, d)
  | (some s, d) =>
    let x := seg d s
    (true, setSeg d s { x with used := x.used + b.data.length, blocks := x.blocks ++ [b] })

/-- The volume of a stream (R368, R369). -/
def volOf (stream : Nat) : Nat := if stream < 36 then 1 else if stream = 36 then 3 else 4

/-- The valid data of segment `s` moves to segment `r`, and `s` is freed.
(Log: 180 DESIGN CHOICE.) -/
def moveSeg (d : Dev) (s r : Nat) : Dev :=
  let x := seg d s
  let y := seg d r
  let d := setSeg d r { x with erases := y.erases + b2n y.dirty, dirty := true, age := 0, due := none }
  let o := Store.get d.arc.openSeg 0 x.vol
  let d := if o = s + 1 then { d with arc := { d.arc with openSeg := Store.set d.arc.openSeg 0 x.vol (r + 1) } } else d
  freeSeg d s

/-! ## Refresh (R375) -/

/-- The segments due for refresh, each with its cause and the tick since which. -/
def dueSegs (d : Dev) : List (Nat × ArcSeg) := d.arc.segs.filter (fun e => e.2.due.isSome && e.2.vol != 0)

/-- The refresh job stands on the board while a segment is due; it is forced where R375 says so.
(Log: 181 DEDUCED.) -/
def refreshWant (d : Dev) : Dev :=
  let ds := dueSegs d
  if ds.isEmpty then freeJob d ownRefresh
  else
    let d := postJob d ownRefresh (openCost ownRefresh) (openDur ownRefresh) 0
    let late := ds.any (fun e => match e.2.due with
      | some (c, t) => c == 3 || decide (t + sT (3600 * getR d pgArc F.ARC_REFRESH_DEFER_H) ≤ d.ticks) ||
          decide (5 * 256 * getR d pgArc F.ARC_AGE_LIMIT ≤ 4 * e.2.age)
      | none => false)
    onlyIf late (fun d => forceJob d ownRefresh) d

/-- Segment `s` becomes due on `cause`; a segment already due keeps its time, and cause 3 takes its place. -/
def makeDue (d : Dev) (s cause : Nat) : Dev :=
  let x := seg d s
  if x.vol = 0 then d
  else
    let due := match x.due with
      | some (c, t) => if cause = 3 then some (3, t) else some (c, t)
      | none => some (cause, d.ticks)
    setSeg d s { x with due := due }

/-! ## Bytes programmed (R379) -/

/-- Minutes of the model's time. -/
def minuteNow (d : Dev) : Nat := d.ticks / sT 60

/-- `n` bytes have been programmed: they count in WRITTEN and in the minute. -/
def noteBytes (d : Dev) (n : Nat) : Dev :=
  let d := addC d pgArc F.ARC_WRITTEN n
  let m := minuteNow d
  let w := match d.arc.wear with
    | (k, v) :: r => if k = m then (k, v + n) :: r else (m, n) :: (k, v) :: r
    | [] => [(m, n)]
  { d with arc := { d.arc with wear := w.filter (fun e => decide (m < e.1 + 1440)) } }

/-- W: the bytes of the last 24 h. -/
def wearDay (d : Dev) : Nat :=
  ((d.arc.wear.filter (fun e => decide (minuteNow d < e.1 + 1440))).map (·.2)).foldl (· + ·) 0

/-- WEAR_RATIO from W and D; OVERSPEND is raised when it first exceeds 256.
(Log: 170 DEDUCED.) -/
def wearShow (d : Dev) : Dev :=
  let was := decide (256 < getR d pgArc F.ARC_WEAR_RATIO)
  let b := getR d pgArc F.ARC_BUDGET
  let w := wearDay d
  let r := if b = 0 then (if w = 0 then 0 else 65535) else (rne (256 * w : Nat) b).toNat
  let d := setR d pgArc F.ARC_WEAR_RATIO (min 65535 r)
  raiseOn d pgArc 15 was (decide (256 < min 65535 r))

/-- D of R379, at least 0.
(Log: 170 DEDUCED.) -/
def dayBudget (d : Dev) : Nat :=
  match d.arc.geo with
  | none => getR d pgArc F.ARC_BUDGET
  | some g =>
    let days := ((tai d / secU - d.arc.formatS) / 86400).toNat
    let left := (segsUsed d).length * getR d pgArc F.ARC_PE_RATED - eraseSum d
    (rne ((left * segBytes g : Nat) : Int) (max 30 (getR d pgArc F.ARC_TARGET_LIFE_DAYS - days))).toNat

end Sys2Proof.Machine
end

