-- ==== Sys2Proof/Machine/Archive.lean ====
section
/-! DEFINITION. The Archive: streams, blocks, pins, wear, ageing, mount and retrieval (R362–R384). -/

namespace Sys2Proof.Machine

open Sys2Proof

/-! ## What a line contributes (R368) -/

/-- The length of plane `k` (0 P, 1 Q, 2 A, 3 M) of an acoustic frame that carries it (R174). -/
def planeLen (b : List Nat) (k : Nat) : Nat :=
  let c := leAt b 40 4
  let q := leAt b 46 1
  if k = 0 ∨ k = 2 then 2 * c
  else if k = 1 then cdiv c (if q = 0 then 1 else if q = 3 then 4 else 2)
  else cdiv c 64

/-- An acoustic frame reduced to the planes in `keep`; its header shows the planes kept. -/
def reduceFrame (b : List Nat) (keep : Nat) : List Nat :=
  let mask := leAt b 31 1
  let r := (List.range 4).foldl (fun (a : List Nat × List Nat) k =>
    if bit mask k then
      let n := planeLen b k
      (a.1 ++ (if bit keep k then a.2.take n else []), a.2.drop n)
    else a) ([], b.drop 64)
  let h := b.take 31 ++ [mask &&& keep &&& 15] ++ (b.drop 32).take 28
  h ++ leBytes 4 (crc32c h) ++ r.1

/-- The TAI time in a frame's header (R175). -/
def headTai (b : List Nat) : Int :=
  (leAt b 16 8 : Int) * secU + ((leAt b 24 4 * 65536 + leAt b 28 2 : Nat) : Int)

/-- A frame of kind `k` (0 acoustic, 1 thermal, 2 feature) of line `n` reaches the hub: what the Archive keeps of it
goes on its way to its stream. `paced`: the DECIM that Pacer asked for when it was built (R429).
(Log: 172 DEDUCED.) -/
def archiveOffer (d : Dev) (n k paced : Nat) (b : List Nat) : Dev :=
  let p := pgArc
  let num := leAt b 8 8
  let dec := max (min 12 (getR d p (F.ARC_LN_DECIM n))) paced
  let on := flagR d p (F.ARC_LN_EN n) &&
    (if k = 0 then num % 2 ^ dec == 0 else if k = 1 then flagR d p (F.ARC_LN_THERM n)
     else flagR d p (F.ARC_LN_FEAT n))
  if on then
    let bytes := if k = 0 then reduceFrame b (getR d p (F.ARC_LN_PLANES n)) else b
    let i := ArcItem.mk (12 * k + n) num (headTai b) bytes
    { d with arc := { d.arc with inQ := d.arc.inQ ++ [i] } }
  else d

/-! ## Blocks (R368, R377) -/

/-- The bytes that staging holds: those of closed blocks that are not durable.
(Log: 173 DEDUCED.) -/
def stagingUsed (d : Dev) : Nat :=
  let waits := d.arc.staged ++ (d.arc.segs.flatMap (fun e => e.2.blocks.filter (fun b => !b.durable)))
  (waits.map (·.origLen)).foldl (· + ·) 0

/-- A block is dropped (R377): cause 0 backlog, 1 poison, 2 READ_ONLY.
(Log: 173 DEDUCED.) -/
def dropBlock (d : Dev) (b : ArcBlock) (cause : Nat) : Dev :=
  let d := bump d pgArc (if cause = 1 then F.ARC_POISON_DROPS else F.ARC_DROP_BLOCKS)
  let d := onlyIf (b.stream == 36) (fun d => ledgerStored d b.first b.last false) (raise d pgArc 10)
  ledgerNow d 0x0504 0xF (typeCode .arc) ([b.stream] ++ leBytes 8 b.first ++ leBytes 4 1 ++ [cause])

/-- An open block closes and waits in staging, or is dropped. It closes no later than 100 ms after its first item (R368).
(Log: 173 DEDUCED.) -/
def closeBlock (d : Dev) (o : ArcOpen) : Dev :=
  let d := { d with arc := { d.arc with opens := d.arc.opens.filter (fun x => x.stream != o.stream) } }
  match o.items.head?, o.items.getLast? with
  | some f, some l =>
    let bytes := o.items.flatMap (·.bytes)
    let b : ArcBlock :=
      { id := d.arc.nextId, stream := o.stream, items := o.items.length, first := f.num, last := l.num, from_ := f.tai,
        to_ := l.tai, closedAt := min d.ticks (o.at_ + msT 100), origLen := bytes.length, data := bytes, logged := false,
        durable := false, pin := 0, bad := [], cap := o.cap }
    if arcSt d = 3 then dropBlock d b 2
    else if 128 * 2 ^ 20 < stagingUsed d + bytes.length then dropBlock d b 0
    else { d with arc := { d.arc with nextId := d.arc.nextId + 1, staged := d.arc.staged ++ [b] } }
  | _, _ => d

/-- The open block of a stream. -/
def openOf (d : Dev) (s : Nat) : Option ArcOpen := d.arc.opens.find? (fun o => o.stream == s)

/-- An item joins its stream's open block (R368). -/
def joinBlock (d : Dev) (i : ArcItem) : Dev :=
  let size (o : ArcOpen) : Nat := (o.items.flatMap (·.bytes)).length
  let d := match openOf d i.stream with
    | some o => if 262144 < size o + i.bytes.length ∨ o.at_ + msT 100 ≤ d.ticks then closeBlock d o else d
    | none => d
  let o := match openOf d i.stream with
    | some o => { o with items := o.items ++ [i] }
    | none => ArcOpen.mk i.stream d.ticks [i] (if i.stream < 36 then Store.get d.paceMel 0 (i.stream % 12) else 0)
  let d := { d with arc := { d.arc with opens := o :: d.arc.opens.filter (fun x => x.stream != i.stream) } }
  if 262144 < i.bytes.length then closeBlock d o else d

/-- ARCHIVE_FRAME: the oldest item on its way joins its open block. -/
def doArchiveFrame (t : Nat) (d : Dev) : Dev :=
  let d := advance d t
  match d.arc.inQ with
  | [] => d
  | i :: r => arcShow (joinBlock { d with arc := { d.arc with inQ := r } } i)

def execArchiveFrame (t : Nat) (s : State) : Host.Outcome State Fault Refusal := act true s (doArchiveFrame t)

/-- BLOCK_CLOSE_TIMER: 100 ms after its first item, the open block of stream `x` closes. -/
def doBlockTimer (t x : Nat) (d : Dev) : Dev :=
  match openOf d x with
  | some o => let d := advance d (max t (o.at_ + msT 100)); arcShow (closeBlock d o)
  | none => advance d t

def execBlockCloseTimer (t stream : Nat) (s : State) : Host.Outcome State Fault Refusal :=
  act (decide (stream < 64)) s (doBlockTimer t stream)

/-- The Melain header fields of a block (R385). -/
def arcHead (b : ArcBlock) : BlockHead :=
  if b.stream < 37 then ⟨b.stream, b.items % 65536, b.first, taiSec b.from_ % 2 ^ 32⟩ else ⟨b.stream, 0, 0, 0⟩

/-- LEVEL of a stream (R368); the level, + 1, in force for Pacer when the block was opened lowers it (R428, R429).
(Log: 171 DESIGN CHOICE, 172 DEDUCED.) -/
def arcLevel (d : Dev) (s cap : Nat) : Nat :=
  if s < 36 then
    let v := min 9 (getR d pgArc (F.ARC_LN_LEVEL (s % 12)))
    if cap = 0 then v else min v (cap - 1)
  else Config.arcLevel s % 10
/-- DELTA of a stream (R387).
(Log: 171 DESIGN CHOICE.) -/
def arcDelta (d : Dev) (s : Nat) : Bool := decide (s < 12) && flagR d pgArc (F.ARC_LN_DELTA s)

/-- The oldest staged block is encoded by engine `e` and programmed into its volume; `none` for `e` leaves the
engine's counters.
(Log: 172 DEDUCED, 173 DEDUCED.) -/
def encodeNext (d : Dev) (e : Option Nat) : Dev :=
  match d.arc.staged with
  | [] => d
  | b :: r =>
    let (out, raw) := encodeBlock (arcHead b) (arcLevel d b.stream b.cap) (arcDelta d b.stream) b.data
    match placeBlock d (volOf b.stream) { b with data := out } with
    | (false, d) => arcCheck d
    | (true, d) =>
      let d := { d with arc := { d.arc with staged := r } }
      let d := match e with
        | some k => melCount d k b.origLen out.length 0 raw 0
        | none => d
      arcCheck d

/-! ## Retrieval (R380, R381) -/

/-- A block by its identifier. -/
def blockById (d : Dev) (i : Nat) : Option ArcBlock :=
  (d.arc.segs.flatMap (fun e => e.2.blocks)).find? (fun b => b.id == i)

/-- Blocks in stored order. -/
def insId (b : ArcBlock) : List ArcBlock → List ArcBlock
  | [] => [b]
  | c :: r => if b.id ≤ c.id then b :: c :: r else c :: insId b r
def blocksIn (d : Dev) (f : ArcBlock → Bool) : List ArcBlock :=
  ((d.arc.segs.flatMap (fun e => e.2.blocks)).filter f).foldl (fun l b => insId b l) []

/-- The blocks that a request selects.
(Log: 176 DEDUCED.) -/
def retSelect (d : Dev) (q : RetReq) : List ArcBlock :=
  let a := (q.a : Int) * secU + 65536 * (q.aNs : Int)
  let b := (q.b : Int) * secU + 65536 * (q.bNs : Int)
  if q.mode = 0 then
    blocksIn d (fun x => x.durable && x.pin == 0 && x.stream == q.stream && decide (x.from_ < b) && decide (a ≤ x.to_))
  else if q.mode = 1 then
    blocksIn d (fun x => x.durable && x.pin == 0 && x.stream == q.stream && decide (x.first ≤ q.b) &&
      decide (q.a ≤ x.last))
  else if q.mode = 2 then blocksIn d (fun x => x.pin != 0 && x.pin == q.a)
  else []

/-- A stored block with its unreadable spans filled with 0.
(Log: 177 DEDUCED.) -/
def spanFill (b : List Nat) (bad : List Nat) : List Nat :=
  bad.foldl (fun l s =>
    let n := min 4096 (l.length - 4096 * s)
    l.take (4096 * s) ++ List.replicate n 0 ++ l.drop (4096 * s + n)) b

/-- The item of ring 26 for a block (R381), with the engine's verdict of it: each block goes through an engine, and one that is
sent as stored is sent unchanged; on the ring a MALFORMED block carries verdict 1 (R391).
(Log: 176 DEDUCED.) -/
def retItem (q : RetReq) (b : ArcBlock) : List Nat × Nat :=
  let r := decodeBlock b.data
  let (v, dec, data) :=
    if !b.bad.isEmpty then (3, false, spanFill b.data b.bad)
    else (if r.1 = 3 then 1 else r.1, q.decode, if q.decode then r.2 else b.data)
  let h := leBytes 2 0x4152 ++ [1, v, b.stream, b2n dec] ++ leBytes 2 q.tag ++ leBytes 4 data.length
  (h ++ leBytes 4 (crc32c h) ++ data, r.1)

/-- The next block of the running request is sent on ring 26. -/
def retSend (d : Dev) (e : Option Nat) : Dev :=
  match d.arc.rets with
  | [] => d
  | q :: r =>
    let ids := match q.todo with
      | some l => l
      | none => (retSelect d q).map (·.id)
    match ids with
    | [] => { d with arc := { d.arc with rets := { q with todo := some [] } :: r } }
    | i :: is =>
      let d := { d with arc := { d.arc with rets := { q with todo := some is } :: r } }
      match blockById d i with
      | none => d
      | some b =>
        let (out, v) := retItem q b
        let d := match e with
          | some k => if b.bad.isEmpty then melCount d k b.data.length (decodeBlock b.data).2.length 1 false v else d
          | none => d
        offerBytes d 26 out

/-- All that the request has left is sent. -/
def retSendAll : Nat → Dev → Dev
  | 0, d => d
  | fuel + 1, d => retSendAll fuel (retSend d none)

/-- The retrieval job stands on the board while a request waits.
(Log: 181 DEDUCED.) -/
def retWant (d : Dev) : Dev :=
  if d.arc.rets.isEmpty then freeJob d ownRet else postJob d ownRet (openCost ownRet) (openDur ownRet) 0

/-- RET_STATUS follows the requests (R380): queued, or running once Pacer has granted the job. -/
def retShow (d : Dev) : Dev :=
  if d.arc.rets.isEmpty then d
  else setR d pgArc F.ARC_RET_STATUS (if jobBegun d ownRet then 2 else 1)

/-- CTRL.RET_GO is written (R380). At most 8 requests wait besides the one that runs.
(Log: 176 DEDUCED.) -/
def retGo (d : Dev) : Dev :=
  let p := pgArc
  let waits := d.arc.rets.length - b2n (jobBegun d ownRet)
  if 8 ≤ waits ∨ (arcSt d ≠ 2 ∧ arcSt d ≠ 3) then setR d p F.ARC_RET_STATUS 4
  else
    let q : RetReq :=
      { stream := getR d p F.ARC_RET_STREAM, mode := getR d p F.ARC_RET_MODE, decode := flagR d p F.ARC_RET_DECODE,
        tag := getR d p F.ARC_RET_TAG, a := getR d p F.ARC_RET_A, aNs := getR d p F.ARC_RET_A_NS,
        b := getR d p F.ARC_RET_B, bNs := getR d p F.ARC_RET_B_NS, todo := none }
    retShow (retWant { d with arc := { d.arc with rets := d.arc.rets ++ [q] } })

/-- RET_GO. -/
def execRetGo (t : Nat) (s : State) : Host.Outcome State Fault Refusal :=
  act true s (fun d => onPage pgArc retGo (advance d t))

/-- CTRL.RET_CANCEL is written. -/
def retCancel (d : Dev) : Dev :=
  if jobBegun d ownRet then { d with arc := { d.arc with cancel := true } } else d

/-- RET_CANCEL. -/
def execRetCancel (t : Nat) (s : State) : Host.Outcome State Fault Refusal :=
  act true s (fun d => onPage pgArc retCancel (advance d t))

/-- RET_DONE: the running request has sent its blocks, or ends as cancelled (R380). -/
def doRetDone (t : Nat) (d : Dev) : Dev :=
  let d := advance d t
  match d.arc.rets with
  | [] => d
  | q :: _ =>
    if !jobBegun d ownRet then d
    else
      let n := match q.todo with
        | some l => l.length
        | none => (retSelect d q).length
      let d := if d.arc.cancel then d else retSendAll n d
      let d := freeJob { d with arc := { d.arc with rets := d.arc.rets.drop 1, cancel := false } } ownRet
      let d := setR (setR d pgArc F.ARC_RET_TAG_DONE q.tag) pgArc F.ARC_RET_STATUS 3
      retShow (retWant (raise d pgArc 14))

def execRetDone (t : Nat) (s : State) : Host.Outcome State Fault Refusal := act true s (doRetDone t)

/-- MEL_ARCHIVE_BLOCK: an engine that is not reserved and idle encodes the oldest staged block, or decodes the next
block of the running retrieval; `poison` says that the staged data read back poisoned (R377, R390).
(Log: 185 DESIGN CHOICE.) -/
def doMelArchive (t e : Nat) (decode poison : Bool) (d : Dev) : Dev :=
  let d := advance d t
  if melHost d e || getR d (pgMel e) cSTATE != 0 then d
  else if decode then
    match d.arc.rets with
    | _ :: _ => if jobBegun d ownRet && !d.arc.cancel then retSend d (some e) else d
    | [] => d
  else if arcSt d ≠ 2 then d
  else
    match d.arc.staged with
    | [] => d
    | b :: r =>
      if poison then arcShow (dropBlock { d with arc := { d.arc with staged := r } } b 1)
      else arcShow (encodeNext d (some e))

def execMelArchiveBlock (t eng : Nat) (decode poison : Bool) (s : State) : Host.Outcome State Fault Refusal :=
  act (decide (eng < 4)) s (doMelArchive t eng decode poison)

/-! ## Journal and durability (R376) -/

/-- The journal is written: it names every block placed and every pin; `ckpt`: a checkpoint of the map follows and the
journal restarts (R376).
(Log: 179 DEDUCED.) -/
def journal (d : Dev) (ckpt : Bool) : Dev :=
  let segs := d.arc.segs.map (fun e => (e.1, { e.2 with blocks := e.2.blocks.map (fun b => { b with logged := true }) }))
  let d := { d with arc := { d.arc with segs := segs }, pins := d.pins.map (fun p => { p with logged := true }) }
  if ckpt then
    { d with arc := { d.arc with hasCkpt := true, ckptAt := d.ticks, ckptBkp := bkpSecs d } }
  else d

/-- JOURNAL_WRITE. -/
def execJournalWrite (t : Nat) (s : State) : Host.Outcome State Fault Refusal :=
  act true s (fun d => let d := advance d t; if arcSt d = 2 then journal d false else d)

/-- CHECKPOINT: CKPT_S after the latest checkpoint the next one is written (R376).
(Log: 179 DEDUCED.) -/
def doCheckpoint (t : Nat) (d : Dev) : Dev :=
  if arcSt d = 2 then
    journal (advance d (max t (d.arc.ckptAt + sT (getR d pgArc F.ARC_CKPT_S)))) true
  else advance d t

def execCheckpoint (t : Nat) (s : State) : Host.Outcome State Fault Refusal := act true s (doCheckpoint t)

/-- Block `i` becomes durable and leaves staging; it counts as late 1 s after it closed (R377). -/
def setDurable (d : Dev) (b : ArcBlock) : Dev :=
  let segs := d.arc.segs.map (fun e =>
    (e.1, { e.2 with blocks := e.2.blocks.map (fun c => if c.id = b.id then { c with durable := true } else c) }))
  let d := { d with arc := { d.arc with segs := segs } }
  let d := onlyIf (b.stream == 36) (fun d => ledgerStored d b.first b.last true) d
  onlyIf (decide (b.closedAt + sT 1 < d.ticks)) (fun d => bump d pgArc F.ARC_LATE_BLOCKS) d

/-- BLOCK_DURABLE: the programs of the oldest block that the journal names have all ended well. -/
def doDurable (t : Nat) (d : Dev) : Dev :=
  let d := advance d t
  match (blocksIn d (fun b => b.logged && !b.durable)).head? with
  | some b => arcShow (setDurable d b)
  | none => d

def execBlockDurable (t : Nat) (s : State) : Host.Outcome State Fault Refusal := act true s (doDurable t)

/-! ## NAND operations (R365–R367, R372, R384) -/

/-- NAND_READ: a page of channel `c` is read and decoded: `cws` gives, for each codeword from span `cw` of the `k`-th
block of segment `x` on, how it decoded (0–16 the read-retry level, 17 the soft decoder, 18 not at all) and its
corrected bits (R366, R375).
(Log: 168 DESIGN CHOICE, 177 DEDUCED.) -/
def doNandRead (t c x k cw : Nat) (cws : List (Nat × Nat)) (d : Dev) : Dev :=
  let d := advance d t
  let p := pgNch c
  let rr := min 16 (getR d pgArc F.ARC_RR_COUNT)
  let d := bump d p F.NCH_READS
  let b := (seg d x).blocks[k]?
  let d := (cws.zip (List.range cws.length)).foldl (fun d (e : (Nat × Nat) × Nat) =>
    let lv := if e.1.1 ≤ 16 then min e.1.1 rr else e.1.1
    let retries := if lv ≤ 16 then lv else rr
    let d := addC d p F.NCH_RETRY_READS retries
    let d := onlyIf (decide (16 < lv)) (fun d => bump d p F.NCH_SOFT_READS) d
    let d := onlyIf (lv == 17) (fun d => makeDue (bump d pgArc F.ARC_SOFT_DECODES) x 3) d
    if lv = 18 then
      let d := raise (bump (bump d p F.NCH_UNCORRECTABLE) pgArc F.ARC_UNREADABLE) pgArc 11
      let d := match b with
        | some b => ledgerNow d 0x0503 0xF (typeCode .arc) ([b.stream] ++ leBytes 8 b.first)
        | none => d
      let y := seg d x
      let bs := y.blocks.zip (List.range y.blocks.length)
      setSeg d x { y with blocks := bs.map (fun z =>
        if z.2 = k then { z.1 with bad := z.1.bad ++ [cw + e.2] } else z.1) }
    else
      let d := peak d p F.NCH_MAX_BITS e.1.2
      let d := onlyIf (decide (lv ≤ 16) && decide (getR d pgArc F.ARC_REFRESH_LEVEL ≤ lv)) (fun d => makeDue d x 1) d
      onlyIf (decide (getR d pgArc F.ARC_REFRESH_BITS < e.1.2)) (fun d => makeDue d x 2) d) d
  arcShow (refreshWant d)

def execNandRead (t ch target seg blk cw : Nat) (cws : List (Nat × Nat)) (s : State) :
    Host.Outcome State Fault Refusal :=
  act (decide (ch < 8) && decide (target < 4)) s (doNandRead t ch seg blk cw cws)

/-- A block is retired as a grown bad block (R372): cause 0 program, 1 erase. -/
def growBad (d : Dev) (c tg u b cause : Nat) : Dev :=
  let d := if d.almBad.length < 16384 ∧ !d.almBad.contains (blkKey c tg u b) then { d with almBad := d.almBad ++ [blkKey c tg u b] } else d
  let d := ledgerNow d 0x0501 0xF (typeCode .arc) ([c, tg, u] ++ leBytes 4 b ++ [cause])
  arcShow (arcCheck (raise (bump d pgArc F.ARC_GROWN_BAD) pgArc 12))

/-- NAND_PROGRAM_DONE: `pages` pages of block `b` have been programmed, with good status or with FAIL.
(Log: 167 DESIGN CHOICE.) -/
def doNandProgram (t c tg u b pages : Nat) (ok : Bool) (d : Dev) : Dev :=
  let d := advance d t
  let p := pgNch c
  let size := match d.arc.geo with
    | some g => g.pageBytes
    | none => 0
  let d := noteBytes (addC d p F.NCH_PROGRAMS pages) (pages * size)
  if ok then d else growBad (raise (bump d p F.NCH_PROG_FAILS) p 8) c tg u b 0

def execNandProgramDone (t ch target lun blk pages : Nat) (ok : Bool) (s : State) :
    Host.Outcome State Fault Refusal :=
  act (decide (ch < 8) && decide (target < 4) && decide (lun < 4)) s (doNandProgram t ch target lun blk pages ok)

/-- NAND_ERASE_DONE: block `b` has been erased, with good status or with FAIL. -/
def doNandErase (t c tg u b : Nat) (ok : Bool) (d : Dev) : Dev :=
  let d := advance d t
  let p := pgNch c
  let d := bump d p F.NCH_ERASES
  if ok then d else growBad (raise (bump d p F.NCH_ERASE_FAILS) p 9) c tg u b 1

def execNandEraseDone (t ch target lun blk : Nat) (ok : Bool) (s : State) : Host.Outcome State Fault Refusal :=
  act (decide (ch < 8) && decide (target < 4) && decide (lun < 4)) s (doNandErase t ch target lun blk ok)

/-- NAND_TIMEOUT: an operation of channel `c` timed out; `fatal`: it was RESET or ZQ calibration (R384). -/
def doNandTimeout (t c : Nat) (fatal : Bool) (d : Dev) : Dev :=
  let d := advance d t
  let d := raise (bump d (pgNch c) F.NCH_TIMEOUTS) (pgNch c) 10
  if fatal then setR d (pgNch c) cSTATE 3 else d

def execNandTimeout (t ch : Nat) (fatal : Bool) (s : State) : Host.Outcome State Fault Refusal :=
  act (decide (ch < 8)) s (doNandTimeout t ch fatal)

/-! ## Pins (R247, R370) -/

/-- The record that asked for a pin takes its identifier, or notes the refusal; the answer is its close frame, where
it has closed. -/
def pinAnswer (kt : Nat) (id : Option Nat) (r : RecSt) : RecSt :=
  if r.kt = kt ∧ r.pinAsked then
    match id with
    | some i => { r with pin := some i }
    | none => { r with pinRefused := true }
  else r

/-- The answer to pin request `a` reaches its sequencer. -/
def pinTell (d : Dev) (a : PinAsk) (id : Option Nat) : Dev :=
  let y := seqOf (hurdle d a.line) a.seq
  setSeq d a.line a.seq { y with gone := y.gone.filter (fun g => g.1 != a.kt), open_ := y.open_.map (pinAnswer a.kt id), done := y.done.map (pinAnswer a.kt id) }

/-- The end of the window, where the record has closed.
(Log: 111 DESIGN CHOICE.) -/
def pinEndOf (d : Dev) (a : PinAsk) : Option Int :=
  let y := seqOf (hurdle d a.line) a.seq
  match y.done.find? (fun r => r.kt == a.kt && r.pinAsked) with
  | some r => some (timeOfFrame d a.line r.endNo)
  | none => (y.gone.find? (fun g => g.1 == a.kt)).map (·.2)

/-- PIN_REQUEST: the oldest request is granted or refused (R370).
(Log: 175 DEDUCED.) -/
def doPinRequest (t : Nat) (d : Dev) : Dev :=
  let d := advance d t
  match d.pinAsk with
  | [] => d
  | a :: r =>
    let d := arcShow { d with pinAsk := r }
    if arcSt d ≠ 2 ∨ pinsFull d then
      bump (pinTell d a none) pgArc F.ARC_PINS_REFUSED
    else
      let id := getR d pgArc F.ARC_NEXT_PIN
      let p : PinSt :=
        { id := id, line := a.line, seq := a.seq, kt := a.kt, from_ := a.from_, end_ := pinEndOf d a, closed := false,
          copied := false, logged := false }
      let d := setR d pgArc F.ARC_NEXT_PIN (if id + 1 = 2 ^ 32 then 1 else id + 1)
      arcShow (pinTell { d with pins := d.pins ++ [p] } a (some id))

def execPinRequest (t : Nat) (s : State) : Host.Outcome State Fault Refusal := act true s (doPinRequest t)

/-- The pin-copy job covers the oldest closed pin not yet copied (R424). -/
def pinCopyWant (d : Dev) : Dev :=
  match d.pins.find? (fun p => p.closed && !p.copied) with
  | some p =>
    let dl := taiSec (p.end_.getD (tai d)) + getR d pgArc F.ARC_PIN_COPY_S
    postJob d ownPin (openCost ownPin) (openDur ownPin) dl
  | none => freeJob d ownPin

/-- PIN_CLOSE: the oldest pin whose window has its end closes at that instant, and its copy is posted. -/
def doPinClose (t : Nat) (d : Dev) : Dev :=
  match d.pins.find? (fun p => p.end_.isSome && !p.closed) with
  | none => advance d t
  | some p =>
    let d := advance d (max t (d.ticks + ticksUntil d (p.end_.getD 0)))
    let pins := d.pins.map (fun q => if q.id = p.id then { q with closed := true } else q)
    arcShow (pinCopyWant { d with pins := pins })

def execPinClose (t : Nat) (s : State) : Host.Outcome State Fault Refusal := act true s (doPinClose t)

/-- EVENTS has no room for `n` bytes more without giving up a window. -/
def eventsFull (d : Dev) (n : Nat) : Bool :=
  match d.arc.geo with
  | none => true
  | some g =>
    let o := Store.get d.arc.openSeg 0 2
    let room := if o ≠ 0 ∧ (seg d (o - 1)).vol = 2 then segRoom d g (o - 1) - (seg d (o - 1)).used else 0
    decide (room < n) && volFull d 2

/-- The blocks of a pin's window are copied into EVENTS; false where a copy is refused (R369). -/
def copyPin (d : Dev) (p : PinSt) : List ArcBlock → Bool × Dev
  | [] => (true, d)
  | b :: r =>
    if flagR d pgArc F.ARC_EVT_KEEP && eventsFull d b.data.length then (false, d)
    else
      let d := { d with arc := { d.arc with nextId := d.arc.nextId + 1 } }
      match placeBlock d 2 { b with id := d.arc.nextId - 1, pin := p.id, durable := true, logged := true } with
      | (true, d) => copyPin d p r
      | (false, d) => (false, d)

/-- The copy of pin `i` leaves EVENTS. -/
def dropCopy (d : Dev) (i : Nat) : Dev :=
  (volSegs d 2).foldl (fun d e =>
    if e.2.blocks.any (fun b => b.pin == i) then
      let bs := e.2.blocks.filter (fun b => b.pin != i)
      if bs.isEmpty then freeSeg d e.1 else setSeg d e.1 { e.2 with blocks := bs }
    else d) d

/-- PIN_COPY_DONE: the window of the oldest closed pin has been copied, or the copy is refused and the pin
broken; its hold ends. -/
def doPinCopyDone (t : Nat) (d : Dev) : Dev :=
  let d := advance d t
  match d.pins.find? (fun p => p.closed && !p.copied) with
  | none => d
  | some p =>
    if !jobBegun d ownPin ∨ arcSt d ≠ 2 then d
    else
      let bs := blocksIn d (fun b => b.pin == 0 && inWindow p b)
      let d := match copyPin d p bs with
        | (true, d) => { d with pins := d.pins.map (fun q => if q.id = p.id then { q with copied := true } else q) }
        | (false, d) => breakPin (dropCopy d p.id) p
      arcShow (arcCheck (pinCopyWant (freeJob d ownPin)))

def execPinCopyDone (t : Nat) (s : State) : Host.Outcome State Fault Refusal := act true s (doPinCopyDone t)

/-- A pin identifier is written to UNPIN_ID (R370). -/
def unpin (d : Dev) (i : Nat) : Dev :=
  match d.pins.find? (fun p => p.id == i) with
  | none => d
  | some p =>
    let d := { d with pins := d.pins.filter (fun q => q.id != i) }
    let d := if p.copied then dropCopy d i else d
    arcShow (if (d.pins.any (fun q => q.closed && !q.copied)) then d else freeJob d ownPin)

/-- UNPIN. -/
def execUnpin (t id : Nat) (s : State) : Host.Outcome State Fault Refusal :=
  act true s (fun d => onPage pgArc (fun d => unpin d id) (advance d t))

/-! ## Wear, refresh and ageing (R371, R374, R375, R379) -/

/-- WEAR_MOVE_DONE: the segment in use with the lowest erase count has moved to the FREE one with the highest. -/
def doWearMove (t : Nat) (d : Dev) : Dev :=
  let d := advance d t
  if !jobBegun d ownWear ∨ arcSt d ≠ 2 then d
  else
    let used := (segsUsed d).filter (fun s => (seg d s).vol != 0)
    let src := match used with
      | [] => none
      | s :: r => some (r.foldl (fun m k => if (seg d k).erases < (seg d m).erases then k else m) s)
    let d := freeJob d ownWear
    match src, hottest d with
    | some s, some r => arcShow (arcCheck (wearWant (bump (moveSeg d s r) pgArc F.ARC_WEAR_MOVES)))
    | _, _ => d

def execWearMoveDone (t : Nat) (s : State) : Host.Outcome State Fault Refusal := act true s (doWearMove t)

/-- Of the segments due, the one whose refresh comes first: the longest due. -/
def nextDue (d : Dev) : Option Nat :=
  match dueSegs d with
  | [] => none
  | e :: r => some (r.foldl (fun (m : Nat × ArcSeg) k =>
      if (k.2.due.map (·.2)).getD 0 < (m.2.due.map (·.2)).getD 0 then k else m) e).1

/-- REFRESH_DONE: the segment's valid data has been copied into a FREE segment and the source freed; a CONTINUOUS
segment that is next to be reclaimed and not held is reclaimed instead (R375). -/
def doRefreshDone (t : Nat) (d : Dev) : Dev :=
  let d := advance d t
  if !jobBegun d ownRefresh ∨ arcSt d ≠ 2 then d
  else
    let d := freeJob d ownRefresh
    match nextDue d with
    | none => d
    | some s =>
      let x := seg d s
      if x.vol = 1 ∧ ((reclaimable d (holding d)).head?.map (·.1)) = some s then arcShow (refreshWant (freeSeg d s))
      else
        match coldest d with
        | none => refreshWant d
        | some r =>
          let d := moveSeg d s r
          let cause := (x.due.map (·.1)).getD 0
          let d := ledgerNow d 0x0502 0xF (typeCode .arc) (leBytes 4 s ++ [cause] ++ leBytes 4 (x.age / 256))
          arcShow (arcCheck (refreshWant (wearWant (bump d pgArc F.ARC_REFRESHES))))

def execRefreshDone (t : Nat) (s : State) : Host.Outcome State Fault Refusal := act true s (doRefreshDone t)

/-- The temperature that ages the segments, in 1/128 °C (R374), where a sensor is valid. -/
def arcTemp (d : Dev) : Option Int :=
  let n := getR d pgArc F.ARC_AGE_SRC
  if 1 ≤ n ∧ n ≤ 8 ∧ flagR d pgSfe (F.SFE_OK (n - 1)) then some (getS d pgSfe (F.SFE_TEMP (n - 1))) else hubTemp d

/-- AF of R374 for EA in meV and a temperature in 1/128 °C: exp((EA / k) × (1 / 328.15 K − 1 / T)). -/
def ageFactor (ea : Nat) (x : Int) : Int :=
  let den : Int := 100 * x + 3496320
  fxExp (fxOf ((ea : Int) * 100000 * (100 * den - 12800 * 32815)) (8617 * 32815 * den.toNat))

/-- The rise of A in 2^-8 hours over `secs` seconds (R374).
(Log: 180 DESIGN CHOICE.) -/
def ageRise (ea : Nat) (x : Int) (secs : Nat) : Nat :=
  (fxNear 0 1 (ageFactor ea x * ((256 * secs : Nat) : Int) / 3600) (Config.ageStep ea x secs)).toNat

/-- Every segment in use ages by `a`; those that reach AGE_LIMIT become due.
(Log: 180 DESIGN CHOICE.) -/
def ageAll (d : Dev) (a : Nat) : Dev :=
  d.arc.segs.foldl (fun d e =>
    if e.2.vol = 0 then d
    else
      let x := { e.2 with age := e.2.age + a }
      let d := setSeg d e.1 x
      if 256 * getR d pgArc F.ARC_AGE_LIMIT ≤ x.age then makeDue d e.1 0 else d) d

/-- AGE_UPDATE: 60 s after the latest one. Where no temperature is stated the rise is a free value.
(Log: 180 DESIGN CHOICE.) -/
def doAge (t : Nat) (d : Dev) : Dev :=
  if arcSt d = 2 ∨ arcSt d = 3 then
    let d := advance d (max t (d.arc.ageAt + sT 60))
    let d := match arcTemp d with
      | some x => ageAll d (ageRise (getR d pgArc F.ARC_EA) x 60)
      | none => let (v, d) := freeV d; ageAll d v
    refreshWant { d with arc := { d.arc with ageAt := d.ticks } }
  else advance d t

def execAgeUpdate (t : Nat) (s : State) : Host.Outcome State Fault Refusal := act true s (doAge t)

/-- WEAR_BUDGET: 60 s after the latest one (R379). While the Archive is not mounted D holds its last value, where it has one
(R420).
(Log: 170 DEDUCED.) -/
def doWearBudget (t : Nat) (d : Dev) : Dev :=
  if arcSt d = 2 ∨ arcSt d = 3 then
    let d := advance d (max t (d.arc.budgetAt + sT 60))
    let d := { d with arc := { d.arc with budgetAt := d.ticks } }
    arcCheck (wearShow (setR d pgArc F.ARC_BUDGET (dayBudget d)))
  else
    let d := advance d t
    if getR d pgArc F.ARC_BUDGET = 0 then d else wearShow d

def execWearBudget (t : Nat) (s : State) : Host.Outcome State Fault Refusal := act true s (doWearBudget t)

/-! ## Mount, format, unmount (R363, R369, R372, R376, R378, R383) -/

/-- What a target's parameter page says: whether its CRC is good, page bytes, spare bytes, pages per block, blocks per
LUN, LUNs, planes. It is of use where its CRC is good and its part is one that R362 supports.
(Log: 168 DESIGN CHOICE.) -/
def paramGood : List Nat → Bool
  | [crc, page, spare, _, _, luns, _] =>
    crc == 1 && (page == 8192 || page == 16384) && decide (page / 4096 * 488 ≤ spare) && decide (1 ≤ luns) && decide (luns ≤ 4)
  | _ => false

/-- The targets in CE_MASK of the enabled channels whose pages were read, by key 4 × channel + target. -/
def paramsRead (d : Dev) (ps : List (Nat × List Nat)) : List (Nat × List Nat) :=
  ps.filter (fun e => decide (e.1 < 32) && flagR d (pgNch (e.1 / 4)) F.NCH_EN &&
    bit (getR d (pgNch (e.1 / 4)) F.NCH_CE_MASK) (e.1 % 4))

/-- The parameter pages of all targets are read (R363): the accepted ones agree with target 0 of the lowest enabled
channel; channels show what they have.
(Log: 168 DESIGN CHOICE.) -/
def readGeometry (d : Dev) (ps : List (Nat × List Nat)) : Dev :=
  let rs := paramsRead d ps
  let ref : Option (List Nat) := match (List.range 8).find? (fun c => flagR d (pgNch c) F.NCH_EN) with
    | some c => (rs.find? (fun e => e.1 == 4 * c)).map (·.2)
    | none => none
  let acc : List Nat := match ref with
    | some g => if paramGood g then (rs.filter (fun e => e.2 == g)).map (·.1) else []
    | none => []
  let geo : Option ArcGeo := match ref with
    | some [_, pb, sp, ppb, bpl, lu, pl] =>
      if acc.isEmpty then none else some (ArcGeo.mk acc pb sp ppb bpl lu pl)
    | _ => none
  let d := { d with arc := { d.arc with geo := geo } }
  (List.range 8).foldl (fun d c =>
    let p := pgNch c
    let mine := (List.range 4).filter (fun t => acc.contains (4 * c + t))
    let all := (List.range 4).filter (fun t => flagR d p F.NCH_EN && bit (getR d p F.NCH_CE_MASK) t)
    let st := if !flagR d p F.NCH_EN then 0 else if mine.length < all.length ∨ mine.isEmpty then 2 else 1
    let d := if getR d p cSTATE = 3 ∧ st ≠ 0 then d else setR d p cSTATE st
    let d := setR d p F.NCH_TARGETS (mine.foldl (fun m t => m + 2 ^ t) 0)
    match geo with
    | some g =>
      let on := !mine.isEmpty
      let v (n : Nat) : Nat := if on then n else 0
      let d := setR (setR d p F.NCH_LUNS (v g.luns)) p F.NCH_PLANES_LOG2 (v (Nat.log2 (arcP g)))
      let d := setR (setR d p F.NCH_PAGE_BYTES (v g.pageBytes)) p F.NCH_SPARE_BYTES (v g.spareBytes)
      setR (setR d p F.NCH_PAGES_PER_BLOCK (v g.ppb)) p F.NCH_BLOCKS_PER_LUN (v g.bpl)
    | none => d) d

/-- The lowest good block of LUN 0 of each target: its test block (R463). -/
def testBlocks (d : Dev) (g : ArcGeo) : List Nat :=
  g.targets.filterMap (fun x => (List.range g.bpl).findSome? (fun b =>
    let k := blkKey (x / 4) (x % 4) 0 b
    if isBad d k then none else some k))

/-- CTRL.MOUNT is written: an UNMOUNTED Archive starts a mount. -/
def mount (d : Dev) : Dev := if arcSt d = 0 then arcState d 1 else d

/-- MOUNT. -/
def execMount (t : Nat) (s : State) : Host.Outcome State Fault Refusal :=
  act true s (fun d => onPage pgArc mount (advance d t))

/-- The TAI seconds of the last durable block. -/
def lastDurable (d : Dev) : Nat :=
  ((blocksIn d (fun b => b.durable && b.pin == 0)).getLast?.map (fun b => taiSec b.to_)).getD 0

/-- MOUNT_DONE: the mount ends (R378): `ok` says that a good checkpoint was found; `marks`, the blocks with the factory
mark; `replayed`, the journal records replayed.
(Log: 168 DESIGN CHOICE, 178 DEDUCED.) -/
def doMountDone (t : Nat) (ok : Bool) (ps : List (Nat × List Nat)) (marks : List Nat) (replayed : Nat) (d : Dev) : Dev :=
  let d := advance d t
  if arcSt d ≠ 1 then d
  else
    let d := readGeometry d ps
    if !ok || !d.arc.hasCkpt || d.arc.geo.isNone then arcState d 4
    else
      let d := { d with arc := { d.arc with marks := marks ++ d.arc.tests } }
      let off := bkpSecs d - d.arc.ckptBkp
      let d := ageAll d (ageRise (getR d pgArc F.ARC_EA) (getS d pgArc F.ARC_OFF_TEMP) off)
      let d := { d with arc := { d.arc with ageAt := d.ticks, budgetAt := d.ticks } }
      let d := ledgerNow d 0x0506 0xF (typeCode .arc) (leBytes 4 replayed ++ leBytes 8 (lastDurable d))
      let d := arcState d 2
      let d := reseedAtMount { d with ledger := { d.ledger with mounted := true } }
      arcShow (arcCheck (pinCopyWant (refreshWant (wearWant d))))

def execMountDone (t : Nat) (ok : Bool) (params : List (Nat × List Nat)) (marks : List Nat) (replayed : Nat)
    (s : State) : Host.Outcome State Fault Refusal :=
  act true s (doMountDone t ok params marks replayed)

/-- CTRL.FORMAT is written: it acts in UNMOUNTED or FAILED, with FMT_KEY = 0x464D (R383). -/
def format (d : Dev) : Dev :=
  if (arcSt d = 0 ∨ arcSt d = 4) ∧ getR d pgArc F.ARC_FMT_KEY = 0x464D then arcState d 5 else d

/-- FORMAT. -/
def execFormat (t : Nat) (s : State) : Host.Outcome State Fault Refusal :=
  act true s (fun d => onPage pgArc format (advance d t))

/-- FORMAT_DONE: the format ends; the segments are divided into volumes (R369) and the Archive is UNMOUNTED.
(Log: 168 DESIGN CHOICE, 169 DEDUCED, 178 DEDUCED.) -/
def doFormatDone (t : Nat) (ok : Bool) (ps : List (Nat × List Nat)) (marks : List Nat) (d : Dev) : Dev :=
  let d := advance d t
  if arcSt d ≠ 5 then d
  else
    let d := readGeometry d ps
    match d.arc.geo with
    | none => arcState d 4
    | some g =>
      if !ok then arcState d 4
      else
        let p := pgArc
        let d := { d with arc := { d.arc with marks := marks, segs := [], openSeg := [] }, pins := [] }
        let ts := testBlocks d g
        let d := { d with arc := { d.arc with marks := marks ++ ts, tests := ts } }
        let e := getR d p F.ARC_EVT_SEGS
        let l := getR d p F.ARC_LEDGER_SEGS
        let c := getR d p F.ARC_CFG_SEGS
        let n := (segsUsed d).length
        let q := [0, n - e - l - c - getR d p F.ARC_FREE_MIN, e, l, c]
        let a := { d.arc with quota := q, hasCkpt := true, ckptAt := d.ticks, ckptBkp := bkpSecs d,
                              formatS := tai d / secU }
        let d := setR { d with arc := a } p F.ARC_WRITTEN 0
        arcShow (arcState d 0)

def execFormatDone (t : Nat) (ok : Bool) (params : List (Nat × List Nat)) (marks : List Nat) (s : State) :
    Host.Outcome State Fault Refusal :=
  act true s (doFormatDone t ok params marks)

/-- Every staged block is encoded and programmed. -/
def encodeAll : Nat → Dev → Dev
  | 0, d => d
  | fuel + 1, d => encodeAll fuel (encodeNext d none)

/-- The Archive writes what it holds and a checkpoint, then unmounts (R376, R437, R453).
(Log: 176 DEDUCED, 178 DEDUCED.) -/
def unmount (d : Dev) : Dev :=
  let d :=
    if arcSt d = 2 then
      let d := d.arc.opens.foldl closeBlock d
      let d := journal (encodeAll d.arc.staged.length d) true
      (blocksIn d (fun b => !b.durable)).foldl setDurable d
    else d
  if arcSt d = 2 ∨ arcSt d = 3 then
    let d := [ownRefresh, ownWear, ownPin, ownRet].foldl freeJob d
    let d := if d.arc.rets.isEmpty then d else setR d pgArc F.ARC_RET_STATUS 4
    arcShow (arcState { d with arc := { d.arc with rets := [], cancel := false } } 0)
  else d

/-- UNMOUNT: CTRL.UNMOUNT is written. -/
def execUnmount (t : Nat) (s : State) : Host.Outcome State Fault Refusal :=
  act true s (fun d => onPage pgArc unmount (advance d t))

/-- CTRL.SNAP_GO is written: the snapshot buffer goes to stream 37 (R383).
(Log: 181 DEDUCED.) -/
def snapGo (d : Dev) : Dev :=
  let a := getR d pgArc F.ARC_SNAP_ADDR * 256
  let len := leAt (load d a 4) 0 4
  if arcSt d ≠ 2 then d
  else if poisoned d a (4 + len) then
    let b : ArcBlock :=
      { id := 0, stream := 37, items := 0, first := 0, last := 0, from_ := tai d, to_ := tai d, closedAt := d.ticks,
        origLen := len, data := [], logged := false, durable := false, pin := 0, bad := [], cap := 0 }
    dropBlock (poisonHit d a (4 + len)) b 1
  else
    let i := ArcItem.mk 37 0 (tai d) (load d (a + 4) len)
    { d with arc := { d.arc with inQ := d.arc.inQ ++ [i] } }

/-- SNAP_GO. -/
def execSnapGo (t : Nat) (s : State) : Host.Outcome State Fault Refusal :=
  act true s (fun d => onPage pgArc snapGo (advance d t))

/-- Power is lost, or the package resets, without an unmount (R377, R378): staged and open blocks are gone, the
blocks that were not durable are torn, and of the pins those the journal names remain.
(Log: 12 DEDUCED.) -/
def arcReset (d : Dev) : Dev :=
  let segs := d.arc.segs.map (fun e => (e.1, { e.2 with blocks := e.2.blocks.filter (·.durable) }))
  let a := { d.arc with geo := none, segs := segs, inQ := [], opens := [], staged := [], openSeg := [], rets := [],
                        cancel := false }
  { d with arc := a, pins := d.pins.filter (·.logged), pinAsk := [] }

end Sys2Proof.Machine
end

