-- ==== Sys2Proof/Machine/Loops.lean ====
section
/-! DEFINITION. The control loops: computation, holding and failing, and their outputs (R292–R295). Their ticks,
which trigger entries, stand in Machine/Svc.lean. -/

namespace Sys2Proof.Machine

open Sys2Proof

/-- Loop `k`. -/
def loop_ (d : Dev) (k : Nat) : LoopSt := Store.get d.loops LoopSt.reset k
def setLoop (d : Dev) (k : Nat) (x : LoopSt) : Dev := { d with loops := Store.set d.loops LoopSt.reset k x }

/-- A live field of the LOOP page. -/
def lpv (d : Dev) (f : Fld) : Nat := getL d pgLoop f
def lps (d : Dev) (f : Fld) : Int := getLS d pgLoop f

/-- The record of entry `x`. -/
def svcRecOf (d : Dev) (x : Nat) : AccRec := Store.get d.svcRec AccRec.reset x

/-- Entry `x` is a CONTROL entry: injected, enabled, class 0 (R279). -/
def isControl (d : Dev) (x : Nat) : Bool :=
  decide (64 ≤ x) && decide (x < 72) && flagL d pgSvc (F.SVC_INJ_EN (x - 64)) && !flagL d pgSvc (F.SVC_INJ_CLASS (x - 64))

/-- The live entry word of entry `x` (R296). -/
def svcWordOf (d : Dev) (x : Nat) : Nat :=
  if x < 64 then
    let g (f : Fld) : Nat := getL d pgSvc f
    g (F.SVC_INPUT x) + g (F.SVC_DIFF x) * 64 + g (F.SVC_ALIGN x) * 128 + g (F.SVC_AVG x) * 256 +
      g (F.SVC_SHIFT x) * 4096 + g (F.SVC_SETTLE x) * 65536
  else getL d pgSvc (F.SVC_INJ_WORD (x - 64))

/-- The input of entry `x` is valid for the loops: a sensor front end channel must be classified OK (R292). -/
def inputOk (d : Dev) (x : Nat) : Bool :=
  let i := bits (svcWordOf d x) 0 6
  if 28 ≤ i ∧ i < 36 then flagR d pgSfe (F.SFE_OK (i - 28)) else true

/-! ## Outputs (R295) -/

/-- The outputs may drive: not after the thermal trip. -/
def loopDrives (d : Dev) : Bool := !d.gatesHeld

/-- CDACk takes the output's code. -/
def cdacOut (d : Dev) (k : Nat) : Dev :=
  if 2 ≤ lpv d (F.LOOP_OUT_SEL k) then
    emit d (.pin (.cdac k) (if loopDrives d then getR d pgLoop (F.LOOP_OUT_NOW k) / 16 else 0))
  else d

/-- Output `u` is in force. -/
def loopOut (d : Dev) (k u : Nat) : Dev := cdacOut (setR d pgLoop (F.LOOP_OUT_NOW k) u) k

/-- PWM_PERIOD: a period of PWMk starts and takes the high time of the output in force. -/
def doPwm (t k : Nat) (d : Dev) : Dev :=
  if lpv d (F.LOOP_OUT_SEL k) % 2 = 0 then advance d t
  else
    let d := advance d (max t (loop_ d k).pwmAt)
    let per := max 100 (lpv d (F.LOOP_PWM_PER k))
    let high := if loopDrives d then getR d pgLoop (F.LOOP_OUT_NOW k) * per / 65536 else 0
    let d := emit d (.pwm k d.ticks high per (flagL d pgLoop (F.LOOP_POL_OUT k)))
    setLoop d k { loop_ d k with pwmAt := d.ticks + per }

def execPwmPeriod (t lp : Nat) (s : State) : Host.Outcome State Fault Refusal :=
  act (decide (lp < 8)) s (doPwm t lp)

/-! ## The state shown -/

/-- LSTATE takes `v`: 0 OFF, 1 RUN, 2 HOLD, 3 FAILED (R298). -/
def lstate (d : Dev) (k v : Nat) : Dev := setR d pgLoop (F.LOOP_LSTATE k) v
def lstateOf (d : Dev) (k : Nat) : Nat := getR d pgLoop (F.LOOP_LSTATE k)

/-- STATUS.STATE of the LOOP page: ACTIVE while a loop is on. -/
def loopShow (d : Dev) : Dev :=
  setR d pgLoop cSTATE (b2n ((List.range 8).any (fun k => (loop_ d k).on)))

/-! ## Computation (R293, R294) -/

/-- Saturation to 32 bits. -/
def sat32 (i : Int) : Int := clampI (-(2 ^ 31)) (2 ^ 31 - 1) i

/-- The loop computes its output from y (R293).
(Log: 133 DEDUCED.) -/
def loopCompute (d : Dev) (k : Nat) (y : Int) : Dev :=
  let x := loop_ d k
  let was := getR d pgLoop (F.LOOP_OUT_NOW k)
  let failed := lstateOf d k == 3
  let first := x.first || failed
  let e0 := sat32 (lps d (F.LOOP_SP k) - y)
  let e := if flagL d pgLoop (F.LOOP_POL k) then sat32 (-e0) else e0
  let lo : Int := lpv d (F.LOOP_OUT_MIN k)
  let hi : Int := lpv d (F.LOOP_OUT_MAX k)
  let kp := lps d (F.LOOP_KP k)
  let der := if first then 0 else lps d (F.LOOP_KD k) * (x.yPrev - y)
  let stuck := (decide ((was : Int) = hi) && decide (0 < e)) || (decide ((was : Int) = lo) && decide (e < 0))
  let i0 : Int := if first then (was : Int) * 65536 - kp * e
    else if stuck then x.i else clampI (lo * 65536) (hi * 65536) (x.i + lps d (F.LOOP_KI k) * e)
  let u := (clampI lo hi (rne (kp * e + i0 + der) 65536)).toNat
  let i := clampI (lo * 65536) (hi * 65536) i0
  let atLim := decide ((u : Int) = lo) || decide ((u : Int) = hi)
  let wasLim := decide ((was : Int) = lo) || decide ((was : Int) = hi)
  let d := setLoop d k { x with i := i, yPrev := y, first := false, hold := 0, calHold := false, asked := false }
  let d := setR d pgLoop (F.LOOP_Y_LAST k) (ux 32 y)
  let d := onlyIf atLim (fun d => raiseOn (bump d pgLoop (F.LOOP_SAT_TICKS k)) pgLoop 8 wasLim true) d
  let d := onlyIf failed (fun d => raise d pgLoop 10) d
  loopOut (lstate d k 1) k u

/-- A tick of loop `k` without a valid input (R294).
(Log: 134 DEDUCED.) -/
def loopHold (d : Dev) (k : Nat) : Dev :=
  let x := loop_ d k
  let d := bump d pgLoop (F.LOOP_HOLD_TICKS k)
  let u := getR d pgLoop (F.LOOP_OUT_NOW k)
  let lim := u == lpv d (F.LOOP_OUT_MIN k) || u == lpv d (F.LOOP_OUT_MAX k)
  let d := onlyIf (lim && lstateOf d k != 3) (fun d => bump d pgLoop (F.LOOP_SAT_TICKS k)) d
  if x.calHold then (if lstateOf d k = 3 then d else lstate d k 2)
  else if lstateOf d k = 3 then d
  else
    let run := x.hold + 1
    let lim := lpv d (F.LOOP_FAIL_TICKS k)
    let d := setLoop d k { x with hold := run }
    if lim ≠ 0 ∧ lim ≤ run then
      let u := lpv d (F.LOOP_FAIL_OUT k)
      let d := loopOut (lstate (raise d pgLoop 9) k 3) k u
      ledgerNow d 0x0901 0xF (typeCode .loop) (k :: leBytes 2 u)
    else lstate d k 2

/-- A result of entry `x` arrives: a loop whose CONTROL entry it is computes; another notes it (R292, R284).
(Log: 134 DEDUCED.) -/
def loopResult (d : Dev) (x : Nat) : Dev :=
  if isFenced d regService then d else (List.range 8).foldl (fun d k =>
    let l := loop_ d k
    if !l.on || lpv d (F.LOOP_IN_SEL k) != x then d
    else if isControl d x then
      if inputOk d x then loopCompute (setLoop d k { l with fresh := true }) k (svcRecOf d x).val else d
    else setLoop d k { l with fresh := true, calHold := false }) d

/-- The loops whose input entry lies on core `c` hold from the start of its calibration (R284).
(Log: 134 DEDUCED.) -/
def loopCalHold (d : Dev) (c : Nat) : Dev :=
  (List.range 8).foldl (fun d k =>
    let l := loop_ d k
    let x := lpv d (F.LOOP_IN_SEL k)
    let core := if x < 64 then x / 32 else (x - 64) / 4
    if l.on && decide (x < 72) && core == c then setLoop d k { l with calHold := true } else d) d

/-- A commit reached the LOOP page: loops turn on and off (R292, R295).
(Log: 133 DEDUCED.) -/
def loopCommit (d : Dev) : Dev :=
  let d := (List.range 8).foldl (fun d k =>
    let l := loop_ d k
    let en := flagL d pgLoop (F.LOOP_EN k)
    if en && !l.on then
      let per := 100 * clampN 10 1000000 (lpv d (F.LOOP_PERIOD k))
      cdacOut (lstate (setLoop d k { LoopSt.reset with on := true, next := d.ticks + per, pwmAt := l.pwmAt }) k 1) k
    else if en then cdacOut d k
    else
      let d := setLoop d k { LoopSt.reset with pwmAt := l.pwmAt }
      loopOut (lstate d k 0) k (lpv d (F.LOOP_MAN_OUT k))) d
  loopShow d

end Sys2Proof.Machine
end

