-- ==== Sys2Proof/Machine/Cal.lean ====
section
/-! DEFINITION. Self-calibration of a line: when a pass is due and forced, native and GL-3204 passes, checks,
acceptance and storage (R256–R272). -/

namespace Sys2Proof.Machine

open Sys2Proof

/-! ## When a pass is due (R258) -/

/-- The die temperature that line `n` goes by, in 1/128 °C; none where no sensor is valid (R31). -/
def lineTemp (d : Dev) (n : Nat) : Option Int :=
  let v := getR d (pgTherm (dieOf n)) F.THERM_TEMP_MEAN
  if v = 0x8000 then none else some (sx 16 v)

/-- CAL_DT in 1/128 K. -/
def calDt (d : Dev) (n : Nat) : Nat := 16 * clampN 4 128 (getR d (pgCal n) F.CAL_CAL_DT)

/-- |T_die − T_REF|, while the temperature trigger is on. -/
def calDrift (d : Dev) (n : Nat) : Nat :=
  if flagR d (pgCal n) F.CAL_TEMP_EN then
    match lineTemp d n with
    | some t => (t - getS d (pgCal n) F.CAL_T_REF).natAbs
    | none => 0
  else 0

/-- The timer's period in ticks, while it is on. -/
def calPeriod (d : Dev) (n : Nat) : Option Nat :=
  let s := getR d (pgCal n) F.CAL_CAL_PERIOD
  if flagR d (pgCal n) F.CAL_TIMER_EN ∧ s ≠ 0 then some (sT s) else none

/-- The trigger bit of a cause (R271). -/
def causeBit (c : Nat) : Nat := if c ≤ 2 then 4 else if c ≤ 4 then 8 else if c = 5 then 16 else if c = 6 then 32 else 64

/-- Causes that force a pass at once. -/
def forcingCause (c : Nat) : Bool := c != 1 && c != 4

/-- CAL.STATUS.STATE (R272). -/
def calShow (d : Dev) (n : Nat) : Dev :=
  let x := calSt d n
  let st := if x.run = 1 then 3 else if x.run = 2 then 4
    else if !x.forced && x.dueAt.isNone then 0
    else if d.ticks < x.retryAt then 5
    else if x.forced then 2 else 1
  setR d (pgCal n) cSTATE st

/-- The pass would be the NATIVE_EVERY-th since the last native one. -/
def nativeTurn (d : Dev) (n : Nat) : Bool :=
  let k := getR d (pgCal n) F.CAL_NATIVE_EVERY
  k != 0 && decide (k ≤ (calSt d n).compatRuns + 1)

/-- The first three conditions of R267. -/
def compatOk (d : Dev) (n : Nat) : Bool :=
  !inFine d n && !(readyCores d n).isEmpty && !isCal d (pgThrx n) 0 && !isCal d (pgThrx n) 1 && !isCal d (pgStarter n) 1

/-- Cost and duration of the pass in the mode in which it would run now: a native pass where MODE is 0, where it is that
one's turn and where a forced pass falls back (R259, R267). -/
def calCost (d : Dev) (n : Nat) : Nat × Nat :=
  let native := !flagR d (pgCal n) F.CAL_MODE || (if compatOk d n then nativeTurn d n else (calSt d n).forced)
  if native then (300, 40) else (100, 70)

/-- DEFER_S in ticks.
(Log: 122 DEDUCED.) -/
def deferT (d : Dev) (n : Nat) : Nat := sT (max 1 (getR d (pgCal n) F.CAL_DEFER_S))

/-- The tick from which a pass that has been due since tick `a` is forced: the deferral's end, or twice the timer's period
`per` after tick `last` where that comes first (R258).
(Log: 122 DEDUCED.) -/
def dueBy (a defer last : Nat) (per : Option Nat) : Nat :=
  match per with
  | some p => min (a + defer) (last + 2 * p)
  | none => a + defer

/-- The conditions of R258 are evaluated for line `n`: while a pass runs new causes wait for its end, and a DARK line has
no pass of its own (R259).
(Log: 121 DESIGN CHOICE, 122 DEDUCED.) -/
def calEval (d : Dev) (n : Nat) : Dev :=
  let x := calSt d n
  if x.run ≠ 0 then calShow d n
  else if (line d n).base = 6 then calShow (freeJob d n) n
  else
    let cs := Store.get d.calPend [] n
    let from_ := max x.lastPass d.boot.releaseAt
    let el := d.ticks - from_
    let per := calPeriod d n
    let dr := calDrift d n
    let hot := decide (calDt d n < dr)
    let old := (per.map (fun p => decide (p ≤ el))).getD false
    let due := hot || old || !cs.isEmpty
    let dueAt := if due then some (x.dueAt.getD d.ticks) else none
    let late := (dueAt.map (fun a => decide (a + deferT d n ≤ d.ticks))).getD false
    let now := decide (2 * calDt d n ≤ dr) && decide (0 < dr) || (per.map (fun p => decide (2 * p ≤ el))).getD false ||
      cs.any forcingCause || late
    let forced := x.forced || now
    let bits_ := cs.foldl (fun m c => m ||| causeBit c) (x.trig ||| b2n hot ||| 2 * b2n old)
    let dueAt := if forced then some (dueAt.getD (x.dueAt.getD d.ticks)) else dueAt
    let d := setCalSt d n { x with trig := bits_, dueAt := dueAt, forced := forced,
                                   forcedAt := if forced && !x.forced then d.ticks else x.forcedAt }
    let d := match dueAt with
      | none => freeJob d n
      | some a =>
        let (c, t) := calCost d n
        let dl := taiSec (d.time.base + 655360 * ((dueBy a (deferT d n) from_ per : Nat) : Int))
        let d := postJob d n c t dl
        onlyIf forced (fun d => forceJob d n) d
    calShow d n

/-- CAL_REQ: CTRL.REQ is written. -/
def execCalReq (t ln : Nat) (s : State) : Host.Outcome State Fault Refusal :=
  act (decide (ln < 12)) s (fun d => onPage (pgCal ln) (fun d => calEval (calDue d ln 1) ln) (advance d t))

/-- CAL_FORCE: CTRL.REQ is written together with CTRL.FORCE. -/
def execCalForce (t ln : Nat) (s : State) : Host.Outcome State Fault Refusal :=
  act (decide (ln < 12)) s (fun d => onPage (pgCal ln) (fun d => calEval (calDue d ln 2) ln) (advance d t))

/-! ## Start (R259, R267) -/

/-- The mode in which a pass would run now: 1 native, 2 GL-3204; none where it waits; and whether it falls back. -/
def passMode (d : Dev) (n : Nat) : Option Nat × Bool :=
  if !flagR d (pgCal n) F.CAL_MODE then (some 1, false)
  else if compatOk d n then (if nativeTurn d n then some 1 else some 2, false)
  else if (calSt d n).forced then (some 1, true) else (none, false)

/-- The pass may start at slot-0 instant `e` (R65, R259); a transition gap ends with the first launch instant after it.
(Log: 236 DEDUCED.) -/
def passMay (d : Dev) (n e : Nat) : Bool :=
  let x := calSt d n
  let l := line d n
  let st := lineState d n
  let asked := (x.forced && decide (x.forcedAt + 200 ≤ e)) ||
    ((jobGranted d n).map (fun g => decide (g + 200 ≤ e))).getD false
  let captured := (l.cap.map (fun c => !c.shotKind)).getD false
  asked && (x.forced || x.dueAt.isSome) && x.run == 0 && !captured && l.stopAt.isNone &&
    (st == 1 || st == 2 || (st == 4 && x.forced)) && decide (x.retryAt ≤ e)

/-- Units of line `n` that are CAL_STALE now, by number (R271). -/
def staleUnits (d : Dev) (n : Nat) : List Nat :=
  (List.range 5).filter (isCal d (pgRx n)) ++ ((List.range 2).filter (isCal d (pgThrx n))).map (5 + ·) ++
  (if isCal d (pgStarter n) 1 then [7] else []) ++ ((List.range 5).filter (isCal d (pgRx (partner n)))).map (8 + ·)

/-- A pass starts at slot-0 instant `e` in mode `m`. -/
def passStart (d : Dev) (n e m : Nat) (fell : Bool) : Dev :=
  let x := calSt d n
  let p := pgCal n
  let cs := Store.get d.calPend [] n
  let d := { d with calPend := Store.set d.calPend [] n [] }
  let d := setCalSt d n { x with run := m, startAt := e, phase := 0, runForced := x.forced, causes := cs,
                                 stale := staleUnits d n, meas := [], step := 0, spare := (readyCores d n).headD 0,
                                 handAt := none, lastRet := e, restart := false, readyAt := e + msT 4,
                                 measured := false, accN := 0, rejN := 0 }
  let d := onlyIf x.forced (fun d => bump d p F.CAL_FORCED_PASSES) d
  let d := onlyIf fell (fun d => bump d p F.CAL_FALLBACKS) d
  let d := if m = 1 then lineShow (setLine (raise d p 8) n { line d n with cal := true }) n 3 else d
  calShow d n

/-- CAL_PASS_START: at the line's next slot-0 instant, where a granted or forced pass may start there.
(Log: 117 DEDUCED.) -/
def doPassStart (t n : Nat) (d : Dev) : Dev :=
  match (line d n).next with
  | none => advance d t
  | some e =>
    match passMode d n with
    | (some m, fell) => if passMay d n e then passStart (advance d (max t e)) n e m fell else advance d t
    | (none, _) => advance d t

def execCalPassStart (t ln : Nat) (s : State) : Host.Outcome State Fault Refusal :=
  act (decide (ln < 12)) s (doPassStart t ln)

/-! ## Coefficients and limits (R256, R263) -/

/-- The page and field of a measured coefficient. -/
def coefFld (n : Nat) (m : CalMeas) : Nat × Fld :=
  let p := if m.unit < 8 then pgCal n else pgCal (partner n)
  let c := if m.unit < 8 then m.unit else m.unit - 8
  if m.coef = 1 then (p, F.CAL_OFS c)
  else if m.coef = 2 then (p, F.CAL_TRIM c)
  else if m.coef = 3 then (pgCal n, F.CAL_SKEW m.idx)
  else if m.coef = 4 then (pgCal n, if m.idx = 0 then F.CAL_QPH_X else F.CAL_QPH_Y)
  else if m.coef = 5 then (pgCal n, F.CAL_DAC_G)
  else if m.coef = 6 then (pgCal n, F.CAL_DAC_P)
  else (pgCal n, if m.unit = 5 then F.CAL_TOFS_S else F.CAL_TOFS_AS)

/-- The live value: TRIM is unsigned, the others are signed. -/
def liveCoef (d : Dev) (n : Nat) (m : CalMeas) : Int :=
  let (p, f) := coefFld n m
  if m.coef = 2 then (getR d p f : Int) else getS d p f

/-- The new value is within its absolute limit (R256). -/
def absOk (coef : Nat) (v : Int) : Bool :=
  if coef = 1 ∨ coef = 7 then decide (v.natAbs ≤ 16384)
  else if coef = 2 then decide (19 * 524288 ≤ 20 * v) && decide (20 * v ≤ 21 * 524288)
  else if coef = 3 then decide (v.natAbs ≤ 320)
  else if coef = 5 then decide (20 * v.natAbs ≤ 65536)
  else decide (72 * v.natAbs ≤ 65536)

/-- The change is within its step limit (R256). -/
def stepOk (coef : Nat) (dv : Int) : Bool :=
  if coef = 1 ∨ coef = 7 then decide (dv.natAbs ≤ 2048)
  else if coef = 2 then decide (100 * dv.natAbs ≤ 524288)
  else if coef = 3 then decide (dv.natAbs ≤ 80)
  else if coef = 5 then decide (100 * dv.natAbs ≤ 65536)
  else decide (360 * dv.natAbs ≤ 65536)

/-- The limit that a measured value fails: 0 absolute, 1 step; the step limit is skipped for a unit that was
CAL_STALE at the start. -/
def failLimit (d : Dev) (n : Nat) (stale : List Nat) (m : CalMeas) : Option Nat :=
  if !absOk m.coef m.v then some 0
  else if !stale.contains m.unit && !stepOk m.coef (m.v - liveCoef d n m) then some 1
  else none

/-- The page and unit index of a unit number (R271). -/
def unitPlace (n u : Nat) : Nat × Nat :=
  if u < 5 then (pgRx n, u) else if u < 7 then (pgThrx n, u - 5) else if u = 7 then (pgStarter n, 1)
  else (pgRx (partner n), u - 8)

/-- A unit's new set is checked as a whole: its values become live, or each failing coefficient is logged.
(Log: 123 DEDUCED.) -/
def judgeUnit (d : Dev) (n u : Nat) : Dev :=
  let x := calSt d n
  let ms := x.meas.filter (fun m => m.unit == u)
  let bad := ms.filter (fun m => (failLimit d n x.stale m).isSome)
  let p := pgCal n
  if bad.isEmpty then
    let d := ms.foldl (fun d m =>
      let (q, f) := coefFld n m
      setS d q f m.v) d
    let (q, i) := unitPlace n u
    setCalSt (setCal d q i false) n { x with accN := x.accN + 1 }
  else
    let d0 := d
    let d := bad.foldl (fun d m =>
      let k := (failLimit d0 n x.stale m).getD 0
      let d := setR (setR (setR d p F.CAL_LAST_UNIT u) p F.CAL_LAST_COEF m.coef) p F.CAL_LAST_STEP k
      ledgerNow d 0x0202 n (typeCode .cal)
        ([u, m.coef, k] ++ leBytes 4 (ux 32 m.v) ++ leBytes 4 (ux 32 (liveCoef d0 n m)))) d
    bump (setCalSt d n { x with rejN := x.rejN + 1 }) p F.CAL_UNIT_REJECTS

/-! ## Storage (R265, R266) -/

/-- The fields of a record in its order, and whether each is signed. -/
def recFlds : List (Fld × Bool) :=
  (List.range 5).map (fun c => (F.CAL_OFS c, true)) ++ (List.range 5).map (fun c => (F.CAL_TRIM c, false)) ++
  (List.range 4).map (fun k => (F.CAL_SKEW k, true)) ++
  [(F.CAL_QPH_X, true), (F.CAL_QPH_Y, true), (F.CAL_DAC_G, true), (F.CAL_DAC_P, true), (F.CAL_TOFS_S, true), (F.CAL_TOFS_AS, true)]

/-- The older copy of line `n`'s record is written; `ok`: the write is verified (R265).
(Log: 120 DEDUCED.) -/
def calStore (d : Dev) (n : Nat) (ok : Bool) : Dev :=
  let p := pgCal n
  let k := calOlder d n
  let d := almPut d n ok (getR d p F.CAL_T_REF) (getR d p F.CAL_LAST_PASS_S) (calSt d n).skewOk
    (recFlds.map (fun e => if e.2 then getS d p e.1 else (getR d p e.1 : Int)))
  if ok then d
  else ledgerNow (raise (bump d p F.CAL_ALM_WRITE_FAILS) p 12) 0x0205 n (typeCode .cal) [k % 2]

/-- At start-up the better copy is loaded; without a good one the units load defaults, are CAL_STALE, and a pass
is forced (R266). -/
def calLoad (d : Dev) (n : Nat) : Dev :=
  let p := pgCal n
  match calBest d n with
  | some b =>
    let r := calCopy d b
    let d := (recFlds.zip r.coefs).foldl (fun d e => setS d p e.1.1 e.2) d
    let d := setR (setR d p F.CAL_T_REF r.tRef) p F.CAL_LAST_PASS_S r.secs
    setCalSt d n { calSt d n with skewOk := r.skewOk }
  | none =>
    let d := recFlds.foldl (fun d e => setR d p e.1 e.1.reset) d
    let us := (List.range 5).map (fun c => (pgRx n, c)) ++ [(pgThrx n, 0), (pgThrx n, 1), (pgStarter n, 1)]
    calDue (rxShow (us.foldl (fun d u => setCal d u.1 u.2 true) d) n) n 5

/-! ## The end of a pass (R263, R264) -/

/-- DEGRADED is set or cleared (R264). -/
def calDegrade (d : Dev) (n : Nat) (on : Bool) : Dev :=
  let p := pgCal n
  let d := setR (setR d p F.CAL_DEGRADED (b2n on)) (pgLine n) F.LINE_DEGRADED (b2n on)
  let d := onlyIf on (fun d => raise d p 11) d
  ledgerNow d 0x0203 n (typeCode .cal) [b2n on, getR d p F.CAL_REJECT_RUN]

/-- An accepted pass: T_REF is the temperature at the checks (R263).
(Log: 120 DEDUCED.) -/
def passAccepted (d : Dev) (n : Nat) : Dev :=
  let p := pgCal n
  let x := calSt d n
  let d := setR d p F.CAL_T_REF (ux 16 (x.tChk.getD (-32768)))
  let d := bump (setR d p F.CAL_LAST_PASS_S (taiSec (tai d) % 2 ^ 32)) p F.CAL_PASSES_ACCEPTED
  let d := setR (raise d p 9) p F.CAL_REJECT_RUN 0
  let d := setCalSt d n { x with trig := 0, dueAt := none, forced := false, lastPass := d.ticks, retryAt := 0 }
  onlyIf (flagR d p F.CAL_DEGRADED) (fun d => calDegrade d n false) d

/-- A rejected pass: causes that force stay; RETRY_S runs.
(Log: 119 DEDUCED.) -/
def passRejected (d : Dev) (n : Nat) : Dev :=
  let p := pgCal n
  let x := calSt d n
  let d := raise (bump d p F.CAL_PASSES_REJECTED) p 10
  let d := setR d p F.CAL_REJECT_RUN (min 15 (getR d p F.CAL_REJECT_RUN + 1))
  let pend := Store.get d.calPend [] n
  let keep := x.causes.filter (fun k => forcingCause k && !pend.contains k)
  let d := { d with calPend := Store.set d.calPend [] n (keep ++ pend) }
  let d := setCalSt d n { x with retryAt := d.ticks + sT (max 1 (getR d p F.CAL_RETRY_S)) }
  onlyIf (decide (3 ≤ getR d p F.CAL_REJECT_RUN) && !flagR d p F.CAL_DEGRADED) (fun d => calDegrade d n true) d

/-- The pass ends: its entry, counters and storage; `ok`: the Almanac write is verified.
(Log: 119 DEDUCED.) -/
def passEnd (d : Dev) (n : Nat) (ok : Bool) : Dev :=
  let p := pgCal n
  let x := calSt d n
  let us := (d.ticks - x.startAt) / 100
  let t := x.tChk.getD (-32768)
  let d := peak (bump d p F.CAL_PASSES) p F.CAL_DURATION_MAX us
  let d := if x.rejN = 0 then passAccepted d n else passRejected d n
  let d := ledgerNow d 0x0201 n (typeCode .cal)
    ([x.run - 1, x.trig, b2n x.runForced] ++ leBytes 2 x.accN ++ leBytes 2 x.rejN ++ leBytes 2 (ux 16 t) ++ leBytes 4 us)
  let y := calSt d n
  let d := setCalSt d n { y with run := 0, meas := [], causes := [], handAt := none,
                                 endAt := if x.run = 1 then d.ticks else x.endAt,
                                 compatRuns := if x.run = 1 then 0 else x.compatRuns + 1 }
  let d := freeJob d n
  let d := onlyIf (decide (0 < x.accN)) (fun d => calStore d n ok) d
  calEval d n

/-! ## Native mode (R260–R262) -/

/-- The ends of the phases of a native pass, in ticks from E. -/
def phaseEnds : List Nat := [50000, 450000, 1250000, 1850000, 2650000, 2800000, 2900000]

/-- What the phase that ends measures (R260): unit, coefficient and index of each value, in order. -/
def phaseUnits (d : Dev) (n k : Nat) : List (Nat × Nat × Nat) :=
  let cores (c : Nat) : List (Nat × Nat × Nat) := (List.range 5).map (fun u => (u, c, 0))
  let mates (c : Nat) : List (Nat × Nat × Nat) := if inFine d n then (List.range 5).map (fun u => (8 + u, c, 0)) else []
  if k = 1 then cores 1 ++ [(5, 7, 0), (6, 7, 0)] ++ mates 1
  else if k = 2 then cores 2 ++ mates 2
  else if k = 3 then [(7, 5, 0), (7, 6, 0)]
  else if k = 4 then
    [(coreAt d (pgRx n) 1, 4, 0), (coreAt d (pgRx n) 3, 4, 1)] ++
    (if inFine d n then (List.range 4).map (fun i => (8 + coreAt d (pgRx (partner n)) i, 3, i)) else [])
  else []

/-- Measured values of the units listed.
(Log: 116 DESIGN CHOICE.) -/
def takeMeas (us : List (Nat × Nat × Nat)) (vals : List Int) : List CalMeas :=
  (us.zip vals).map (fun e => ⟨e.1.1, e.1.2.1, e.1.2.2, e.2⟩)

/-- A phase of a native pass ends with the values `vals`. -/
def nativePhase (t n : Nat) (vals : List Int) (d : Dev) : Dev :=
  let x := calSt d n
  match phaseEnds[x.phase]? with
  | none => advance d t
  | some e =>
    let d := advance d (max t (x.startAt + e))
    setCalSt d n { x with phase := x.phase + 1, meas := x.meas ++ takeMeas (phaseUnits d n x.phase) vals,
                          tChk := if x.phase = 5 then lineTemp d n else x.tChk }

/-- A unit is a core that is FAILED now: its values are discarded (R261).
(Log: 123 DEDUCED.) -/
def unitFailed (d : Dev) (n u : Nat) : Bool :=
  if u < 5 then isFailed d n u else if u < 8 then false else isFailed d (partner n) (u - 8)

/-- The pass brings an accepted SKEW value for every input (R258, R265). -/
def skewAccepted (d : Dev) (n : Nat) : Bool :=
  let x := calSt d n
  (List.range 4).all (fun i =>
    let u := 8 + coreAt d (pgRx (partner n)) i
    x.meas.any (fun m => m.unit == u && m.coef == 3 && m.idx == i) && !unitFailed d n u &&
      (x.meas.filter (fun m => m.unit == u)).all (fun m => (failLimit d n x.stale m).isNone))

/-- CAL_EXIT: at the first slot-0 instant at least 29 ms after E the units are judged, the accepted values become
live, and the line leaves CAL (R260, R263–R265).
(Log: 116 DESIGN CHOICE, 117 DEDUCED.) -/
def doCalExit (t n : Nat) (ok : Bool) (d : Dev) : Dev :=
  let x := calSt d n
  match (line d n).next with
  | none => advance d t
  | some e =>
    if x.run ≠ 1 ∨ x.phase < phaseEnds.length ∨ e < x.startAt + msT 29 then advance d t
    else
      let d := advance d (max t e)
      let us := (List.range 13).filter (fun u => x.meas.any (fun m => m.unit == u) && !unitFailed d n u)
      let skew := x.skewOk || (inFine d n && skewAccepted d n)
      let d := us.foldl (fun d u => judgeUnit d n u) d
      let mates := us.any (fun u => decide (8 ≤ u) && !isCal d (pgRx (partner n)) (u - 8))
      let d := setCalSt d n { calSt d n with skewOk := skew }
      let d := passEnd d n ok
      let d := onlyIf mates (fun d => calStore d (partner n) ok) d
      let d := setLine d n { line d n with cal := false, clearDue := true }
      calShow (rxShow (rxShow (lineShow d n 3) n) (partner n)) n

def execCalExit (t ln : Nat) (ok : Bool) (s : State) : Host.Outcome State Fault Refusal :=
  act (decide (ln < 12)) s (doCalExit t ln ok)

/-! ## GL-3204 mode (R267–R269) -/

/-- The core that the present step measures. -/
def compatCore (x : CalSt) : Nat := if x.step = 0 then x.spare else x.relieved

/-- The 4 ms measurement of a GL-3204 step ends with OFS and TRIM; a rejected spare ends the pass. -/
def compatPhase (t n : Nat) (vals : List Int) (d : Dev) : Dev :=
  let x := calSt d n
  if x.measured ∨ (x.step ≠ 0 ∧ x.handAt.isNone) then advance d t
  else
    let d := advance d (max t x.readyAt)
    let u := compatCore x
    let d := setCalSt d n { x with measured := true, tChk := lineTemp d n, meas := takeMeas [(u, 1, 0), (u, 2, 0)] vals }
    if x.step ≠ 0 then d
    else
      let d := judgeUnit d n u
      if (calSt d n).rejN ≠ 0 then passEnd d n true
      else setCalSt d n { calSt d n with step := 1, measured := false }

/-- CAL_PHASE_END: the measurement in progress ends with the values `vals`.
(Log: 116 DESIGN CHOICE.) -/
def doPhaseEnd (t n : Nat) (vals : List Int) (d : Dev) : Dev :=
  let r := (calSt d n).run
  if r = 1 then nativePhase t n vals d else if r = 2 then compatPhase t n vals d else advance d t

def execCalPhaseEnd (t ln : Nat) (vals : List Int) (s : State) : Host.Outcome State Fault Refusal :=
  act (decide (ln < 12)) s (doPhaseEnd t ln vals)

/-- CAL_HANDOVER: at the next slot-0 instant the spare takes the step's input, where the previous step has ended
and its core has returned earlier (R267).
(Log: 116 DESIGN CHOICE, 117 DEDUCED.) -/
def doHandover (t n : Nat) (d : Dev) : Dev :=
  let x := calSt d n
  match (line d n).next with
  | none => advance d t
  | some h =>
    if x.run ≠ 2 ∨ x.step = 0 ∨ x.handAt.isSome ∨ h < x.readyAt ∨ h ≤ x.lastRet ∨ (line d n).gap ∨
        isFailed d n (coreAt d (pgRx n) (x.step - 1)) then advance d t
    else
      let d := advance d (max t h)
      let i := x.step - 1
      let old := coreAt d (pgRx n) i
      let d := handOver d n i x.spare h
      let d := bump d (pgCal n) F.CAL_HANDOVERS
      setCalSt d n { x with handAt := some h, relieved := old, readyAt := h + msT 4, measured := false, restart := false }

def execCalHandover (t ln : Nat) (s : State) : Host.Outcome State Fault Refusal :=
  act (decide (ln < 12)) s (doHandover t ln)

/-- CAL_RETURN: at the first slot-0 instant at least 4 ms after the handover the relieved core is judged and serves
its input again; after the fourth the pass ends. A captured plan commit returns it earlier (R267, R269).
(Log: 116 DESIGN CHOICE, 117 DEDUCED.) -/
def doReturn (t n : Nat) (ok : Bool) (d : Dev) : Dev :=
  let x := calSt d n
  match (line d n).next, x.handAt with
  | some e, some _ =>
    if x.run ≠ 2 ∨ (!x.restart ∧ (e < x.readyAt ∨ !x.measured)) then advance d t
    else
      let d := advance d (max t e)
      let d := onlyIf (!x.restart) (fun d => judgeUnit d n x.relieved) d
      let d := bump (handOver d n (x.step - 1) x.relieved e) (pgCal n) F.CAL_HANDOVERS
      let y := calSt d n
      let d := setCalSt d n { y with handAt := none, lastRet := e, restart := false, measured := false, readyAt := e,
                                     step := if x.restart then y.step else y.step + 1 }
      if !x.restart ∧ y.step = 4 then passEnd d n ok else d
  | _, _ => advance d t

def execCalReturn (t ln : Nat) (ok : Bool) (s : State) : Host.Outcome State Fault Refusal :=
  act (decide (ln < 12)) s (doReturn t ln ok)

/-- A plan commit reaches its capture instant during a GL-3204 pass (R269); `fine`: it enables fine mode. -/
def calCapture (d : Dev) (n : Nat) (fine : Bool) : Dev :=
  let x := calSt d n
  if x.run ≠ 2 then d
  else if fine then calEval (calAbandon d n 1) n
  else if x.handAt.isSome then setCalSt d n { x with restart := true } else d

/-! ## A core declared FAILED by command (R124) -/

/-- FAIL_CORE: the core that serves logical input `input` (1–4) is declared FAILED; other values do nothing. -/
def failCore (d : Dev) (n i : Nat) : Dev :=
  if 1 ≤ i ∧ i ≤ 4 then
    let d := declareFailed d n (coreAt d (pgRx n) (i - 1)) 2
    calShow d n
  else d

def execFailCore (t ln input : Nat) (s : State) : Host.Outcome State Fault Refusal :=
  act (decide (ln < 12)) s (fun d => onPage (pgRx ln) (fun d => failCore d ln input) (advance d t))

end Sys2Proof.Machine
end

