-- ==== Sys2Proof/Machine/Frame.lean ====
section
/-! DEFINITION. The frame builder: temporal resampling, planes, header, flags, the freeze detector, the built-in
detectors and dropped frames (R164–R179, R241). -/

namespace Sys2Proof.Machine

open Sys2Proof

/-! ## Temporal resampling (R164, R166) -/

/-- t_n(j) of R164 for a merged sample, in ticks from tick 0.
(Log: 84 DESIGN CHOICE.) -/
def sampleTime (p : PlanRec) (j : Nat) (m : MergedS) : Rat :=
  let z : Int := p.origin + (j * p.spacing : Nat)
  (m.at_ : Rat) + (m.tau : Rat) / 10000 +
    ((p.gi : Int) * z * 100000000 : Int) / ((1024 * 2 ^ 28 * cLight : Nat) : Rat) - (imOf p : Rat) / 2

/-- u of R166 as an index into the plan's merged samples. -/
def indexAt (ts : List Rat) (im tk : Rat) : Rat :=
  match ts with
  | [] => 0
  | t0 :: _ =>
    let k := (ts.filter (fun t => decide (t ≤ tk))).length
    if k = 0 then (tk - t0) / im
    else
      let a := ts.getD (k - 1) t0
      let w := match ts[k]? with
        | some b => b - a
        | none => im
      ((k - 1 : Nat) : Rat) + (tk - a) / w

/-- i_0 and the phase of channel `j` at frame instant `inst`.
(Log: 84 DESIGN CHOICE.) -/
def timeIndex (p : PlanRec) (ms : List MergedS) (inst : Int) (j : Nat) : Int × Nat :=
  let u := indexAt (ms.map (sampleTime p j)) (max 1 (imOf p) : Nat) ((inst : Rat) / 65536)
  indexPhase 256 u.num u.den

/-- The sixteen taps of phase `ph` (R166).
(Log: 82 DEDUCED.) -/
def taps16 (p : PlanRec) (ph : Nat) : List Int :=
  adjust ((List.range 16).map (fun t => tapOf 7 17 65536 p.step (256 * (t : Int) - 1792 - (ph : Int)) 256)) (if ph < 128 then 7 else 8)

/-- The merged sample at index `i`, if the plan has it. -/
def mergedAt (ms : List MergedS) (i : Int) : Option MergedS := if i < 0 then none else ms[i.toNat]?

/-- The first merged sample that the resamplers, cleared last for it, still hold once sample `top` has come (R64). -/
def heldFrom (ms : List MergedS) (top : Int) : Int :=
  let l : List Nat := (List.range ms.length).filter (fun i => decide ((i : Int) ≤ top) && (ms[i]?.map (·.clear)).getD false)
  ((l.getLast?.getD 0 : Nat) : Int)

/-- r of channel `j` with its marks; missing inputs are 0 with UNSETTLED (R166), those that a clear has taken away with
GAP too (R64). -/
def resample (p : PlanRec) (ms : List MergedS) (inst : Int) (j : Nat) : ChanV :=
  let (i0, ph) := timeIndex p ms inst j
  let from_ := heldFrom ms (i0 + 8)
  let v (t : Nat) : ChanV :=
    let i := i0 - 7 + (t : Int)
    match mergedAt ms i with
    | some m => if i < from_ then ⟨0, 33⟩ else m.chans.getD j ⟨0, 1⟩
    | none => ⟨0, 1⟩
  let vs := (List.range 16).map v
  ⟨sat40 (rne (sumI (((taps16 p ph).zip vs).map (fun q => q.1 * q.2.v))) 65536),
   vs.foldl (fun k c => k ||| c.marks) 0⟩

/-- The lowest and highest index of merged samples that any channel of the frame needs. -/
def frameSpan (p : PlanRec) (ms : List MergedS) (inst : Int) : Int × Int :=
  let is_ := (List.range p.channels).map (fun j => (timeIndex p ms inst j).1)
  (minI 0 is_ - 7, maxI 0 is_ + 8)

/-- Launches of plan `id` are still on their way to the merge stage. -/
def planFlowing (d : Dev) (n id : Nat) : Bool :=
  let x := gauge d n
  x.ready.any (fun l => l.launch.plan == id) || x.arriving.any (fun e => e.2.launch.plan == id) ||
  (List.range 4).any (fun k => (toFrame d n k).any (fun w => bit w 47 && bits w 128 32 == id)) ||
  (List.range 8).any (fun s => (pipe d n s).wins.any (fun w => w.launch.plan == id))

/-! ## Planes (R170–R173) -/

/-- A P value: its 16 bits, its marks and whether it saturated. -/
def pRate (p : PlanRec) (c : ChanV) : Nat × Nat × Bool :=
  let v := rne (c.v * ((2 ^ p.pscale : Nat) : Int)) 65536
  let s := sat16 v
  (ux 16 s, if s = v then c.marks else c.marks ||| 4, s != v)

/-- The next O_j of R170, in 2^-32 LSB. -/
def phaseNext (p : PlanRec) (o : Int) (c : ChanV) : Int := o + rne (c.v * ((2 ^ p.pscale * ioutOf p : Nat) : Int)) 100000000

/-- r_s and r_t of a Q code (R171). -/
def qSpace (c : Nat) : Nat := if c = 0 then 1 else if c = 3 then 4 else 2
def qTime (c : Nat) : Nat := if c < 2 then 1 else if c = 2 then 2 else 4

/-- b_j of R171. -/
def qBin (p : PlanRec) (j : Nat) : Nat :=
  (clampI 0 ((p.bins : Int) - 1) (rne (uNum p j + ((p.g * (uDen / 2) : Nat) : Int)) uDen)).toNat

/-- Q of R171 for the AMP values averaged as linear power.
(Log: 85 DEDUCED.) -/
def qOf (as_ : List Nat) (base : Nat) : Nat :=
  let mean := sumI (as_.map (fun a => fxPow10 (a : Int) 2560)) / (as_.length : Int)
  let amp := 2560 * (fxLn mean.toNat (2 ^ 96)) * fxOne / fxLn10
  (clampI 0 255 (rne (amp - (base : Int) * fxOne) (64 * 2 ^ 96))).toNat

/-- The Q plane (R171).
(Log: 85 DEDUCED.) -/
def qPlane (d : Dev) (n : Nat) (p : PlanRec) (inst : Int) : List Nat :=
  let rs := qSpace p.qcode
  let lo := inst - ((qTime p.qcode * ioutOf p : Nat) : Int)
  let ls := (frame d n).amps.filter (fun a => decide (lo ≤ 65536 * (a.at_ : Int)) && decide (65536 * (a.at_ : Int) < inst))
  let base := (shotCfgAt d n inst).1
  (List.range (cdiv p.channels rs)).map (fun i =>
    let js := (List.range rs).map (i * rs + ·)
    let as_ := ls.flatMap (fun a => (js.filter (fun j => decide (j < p.channels))).filterMap (fun j =>
      match a.amps[qBin p j]? with
      | some (v, false) => some v
      | _ => none))
    if as_.isEmpty then 0 else qOf as_ base)

/-! ## The freeze detector (R177) -/

/-- A plane's 16-bit values as bytes. -/
def planeBytes (l : List Nat) : List Nat := l.flatMap (leBytes 2)

/-- The blocks of 4,096 channels. -/
def blocksOf (l : List Nat) : List (List Nat) :=
  (List.range (cdiv l.length 4096)).map (fun b => (l.drop (4096 * b)).take 4096)

/-- One block's CRC joins its run; whether it is frozen after this frame.
(Log: 87 DEDUCED.) -/
def freezeBlock (counted : Bool) (need crc : Nat) (run : Nat × Nat) (was : Bool) : (Nat × Nat) × Bool :=
  let same := run.1 == crc
  let k := if !counted then 0 else if same then run.2 + 1 else 1
  ((crc, k), (was && same) || decide (need ≤ k))

/-- The freeze detector sees the P plane of a frame (R177).
(Log: 87 DEDUCED.) -/
def freezeFrame (d : Dev) (n num : Nat) (ps : List Nat) (counted : Bool) : Dev :=
  let p := pgFrame n
  let was := getR d p F.FRAME_FRZ_BLOCKS
  let y := frame d n
  if !flagR d p F.FRAME_FREEZE_EN then
    let d := setFrame d n { y with runs := [] }
    onlyIf (was != 0) (fun d => raise (setR d p F.FRAME_FRZ_BLOCKS 0) p 9) d
  else
    let need := max 2 (getR d p F.FRAME_FREEZE_N)
    let bs := blocksOf ps
    let rs := (List.range bs.length).map (fun b =>
      freezeBlock counted need (crc32c (planeBytes (bs.getD b []))) (Store.get y.runs (0, 0) b) (bit was b))
    let now := maskOf ((List.range bs.length).filter (fun b => (rs.getD b ((0, 0), false)).2))
    let d := setFrame d n { y with runs := (List.range bs.length).foldl (fun m b =>
      Store.set m (0, 0) b (rs.getD b ((0, 0), false)).1) ([] : Store (Nat × Nat)) }
    let d := setR (setR d p F.FRAME_FRZ_BLOCKS now) p F.FRAME_LAST_CRC (crc32c (planeBytes ps))
    let d := onlyIf (andNot now was != 0) (fun d =>
      ledgerNow (raise d p 8) 0x0130 n (typeCode .frame) (leBytes 2 now ++ leBytes 8 num)) d
    onlyIf (was != 0 && now == 0) (fun d => raise d p 9) d

/-! ## Built-in detectors (R241) -/

/-- v_j of R241: the P value, or the difference of consecutive ones in PHASE kind.
(Log: 113 DEDUCED.) -/
def detValues (p : PlanRec) (ps : List Nat) (prev : List Int) : List Int :=
  let vs := ps.map (sx 16)
  if p.kind = 0 then vs else (vs.zip (padI vs.length prev)).map (fun q => sx 16 (ux 16 (q.1 - q.2)))

/-- Channel `j` may change its ms and be over. -/
def detUses (p : PlanRec) (c : DetCfg) (f l j marks : Nat) : Bool :=
  !bit marks 3 && decide (f ≤ j) && decide (j ≤ l) && !(c.maskU && (bit marks 0 || bit marks 5)) && decide (j < p.channels)

/-- Detector `k` at a frame: its mean squares, the channels over, and the channel of the largest ms. -/
def detRun (p : PlanRec) (k f l : Nat) (vs : List Int) (marks : List Nat) (ms : Store Nat) : Store Nat × List OverV × Nat :=
  let c := p.dets.getD k ⟨false, 0, 0, 0, 0, 0, false⟩
  if !c.en then (ms, [], 0)
  else
    let js := (List.range (c.last + 1 - c.first)).map (c.first + ·)
    let one (a : Store Nat × List OverV) (j : Nat) : Store Nat × List OverV :=
      if detUses p c f l j (marks.getD j 0) then
        let v := vs.getD j 0
        let old : Nat := Store.get a.1 0 (k * 65536 + j)
        let m := ((old : Int) + rne (v * v - (old : Int)) (2 ^ c.winK)).toNat
        let t := Store.set a.1 0 (k * 65536 + j) m
        if c.th * c.th ≤ m then (t, a.2 ++ [⟨j, v, m, marks.getD j 0⟩]) else (t, a.2)
      else a
    let (ms, overs) := js.foldl one (ms, [])
    let top := js.foldl (fun (b : Nat × Nat) j =>
      let m := Store.get ms 0 (k * 65536 + j)
      if b.2 < m then (j, m) else b) (c.first, 0)
    (ms, overs, top.1)

/-- All detectors see a frame, which then awaits its sequencer step (R238, R241).
(Log: 89 DEDUCED.) -/
def detFrame (d : Dev) (n : Nat) (p : PlanRec) (f : DueFrame) (flags : Nat) (ps marks : List Nat) : Dev :=
  let x := hurdle d n
  let same := x.detPlan == some p.id
  let ms0 := if same then x.ms else []
  let vs := detValues p ps (if same then x.prevP else [])
  let lo := firstSettled p
  let hi := lastSettled p
  let run := (List.range 8).foldl (fun (a : Store Nat × List (List OverV) × List Nat) k =>
    let (m, o, t) := detRun p k lo hi vs marks a.1
    (m, a.2.1 ++ [o], a.2.2 ++ [t])) (ms0, [], [])
  let holds := (List.range 8).map (fun k =>
    let c := p.dets.getD k ⟨false, 0, 0, 0, 0, 0, false⟩
    c.en && decide (c.minCh ≤ (run.2.1.getD k []).length))
  let r : StepRec := { num := f.num, tai := f.tai, flags := flags, pscale := p.pscale, kind := p.kind, iout := ioutOf p,
                       plan := p.id, holds := holds, overs := run.2.1, peaks := run.2.2 }
  setHurdle d n { x with ms := run.1, prevP := ps.map (sx 16), detPlan := some p.id, steps := x.steps ++ [r] }

/-! ## A frame (R168–R178) -/

/-- The 64-byte header (R175). -/
def frameHeader (d : Dev) (n : Nat) (p : PlanRec) (f : DueFrame) (flags mask sat : Nat) : List Nat :=
  withCrc (headTop d 0x4746 n flags f.num f.tai (getR d pgPace F.PACE_STEP) mask ++ leBytes 4 (ux 32 p.origin) ++
    leBytes 4 (p.spacing * 64) ++ leBytes 4 p.channels ++ [p.pscale, p.kind, p.qcode, p.slots] ++ leBytes 4 p.id ++
    leBytes 4 (firstSettled p) ++ leBytes 4 sat)

/-- The unbroken run of frames of line `n` that carry FROZEN goes on, begins or ends (R452). -/
def frozenRun (d : Dev) (n : Nat) (on : Bool) : Dev :=
  let since := if on then (if Store.get d.boot.frozenAt 0 n = 0 then d.ticks + 1 else Store.get d.boot.frozenAt 0 n) else 0
  { d with boot := { d.boot with frozenAt := Store.set d.boot.frozenAt 0 n since } }

/-- The flags of R176 but FROZEN, from the union of the marks over the channels that count. -/
def frameFlags (d : Dev) (n : Nat) (f : DueFrame) (um : Nat) (edge safe drop : Bool) (sat : Nat) : Nat :=
  b2n f.unq + 2 * b2n (bit um 3) + 4 * b2n edge + 8 * b2n (bit um 5 || drop) + 16 * b2n (bit um 0) + 32 * b2n (bit um 1) +
    64 * b2n (decide (0 < sat)) + 256 * b2n safe + 512 * b2n (getR d pgPace F.PACE_STEP != 0) + 1024 * b2n (bit um 4) +
    2048 * b2n (flagR d (pgLine n) F.LINE_SYNC_LOST)

/-- The oldest due frame `f` of plan `p` is built from the plan's merged samples `ms`.
(Log: 88 DESIGN CHOICE.) -/
def buildFrame (d : Dev) (n : Nat) (f : DueFrame) (p : PlanRec) (ms : List MergedS) (edge : Bool) : Dev :=
  let q := pgFrame n
  let y := frame d n
  let own := 8 * b2n (isStale d (pgResamp n) 0 || isStale d q 0)
  let cs := (List.range p.channels).map (fun j =>
    let c := resample p ms f.inst j
    ChanV.mk c.v (c.marks ||| own))
  let clear := y.phaseClears.any (fun c => decide (65536 * (c : Int) ≤ f.inst))
  let os := ((padI p.channels (if clear then [] else y.phase)).zip cs).map (fun e => phaseNext p e.1 e.2)
  let pv : List (Nat × Nat × Bool) := if p.kind = 0 then cs.map (pRate p)
    else (os.zip cs).map (fun e => (ux 16 (rne e.1 (2 ^ 32)), e.2.marks, false))
  let ps := pv.map (·.1)
  let marks := pv.map (·.2.1)
  let sats := (pv.filter (·.2.2)).length
  let lo := firstSettled p
  let hi := lastSettled p
  let span := if hi < lo then marks else (marks.drop lo).take (hi + 1 - lo)
  let um := span.foldl (· ||| ·) 0
  let sat := (span.filter (fun m => bit m 2)).length
  let (a, b) := frameSpan p ms f.inst
  let safe := (List.range ms.length).any (fun i =>
    decide (a ≤ (i : Int)) && decide ((i : Int) ≤ b) && (ms[i]?.map (·.safe)).getD false)
  let fl := frameFlags d n f um edge safe y.dropLast sat
  let d := setFrame d n { y with due := y.due.drop 1, phase := if p.kind = 0 then [] else os, satLast := decide (0 < sats),
                                 phaseClears := y.phaseClears.filter (fun c => decide (f.inst < 65536 * (c : Int))) }
  let d := raiseOn (addC d (pgResamp n) F.RESAMP_OUT_SATS sats) (pgResamp n) 8 y.satLast (decide (0 < sats))
  let st := lineState d n
  let d := freezeFrame d n f.num ps ((st == 1 || st == 2) && !bit fl 3 && !bit fl 2)
  let fl := fl + 128 * b2n (getR d q F.FRAME_FRZ_BLOCKS != 0)
  let d := driftFrame d n p f.num f.inst.toNat cs
  let qs := if p.qEn && f.num % qTime p.qcode == 0 then some (qPlane d n p f.inst) else none
  let as_ := if p.aEn && f.num % aDivOf p == 0 then
    some ((List.range p.channels).map (fun j => ux 16 (aCode ((stack d n).a.getD j none)))) else none
  let mask := 1 + 2 * b2n qs.isSome + 4 * b2n as_.isSome + 8 * b2n p.mEn
  let bytes := frameHeader d n p f fl mask sat ++ planeBytes ps ++ qs.getD [] ++ planeBytes (as_.getD []) ++
    (if p.mEn then markBytes marks else [])
  let d := detFrame d n p f fl ps marks
  let d := feedPorts d n f.num f.inst ps qs as_ marks (qSpace p.qcode)
  let d := frozenRun (onlyIf (bit fl 7) (fun d => bump d q F.FRAME_FROZEN_FRAMES) d) n (bit fl 7)
  let d := onlyIf (bit fl 3) (fun d => bump d q F.FRAME_GAP_FRAMES) d
  let d := onlyIf (bit fl 4) (fun d => bump d q F.FRAME_UNSETTLED_FRAMES) d
  let d := onlyIf (bit fl 2) (fun d => bump d q F.FRAME_PLAN_CHANGE_FRAMES) d
  let (ok, d) := placeFrame d n 0 f.num bytes
  let d := onlyIf ok (fun d => bump d q F.FRAME_FRAMES) d
  let z := frame d n
  setFrame d n { z with dropLast := !ok,
                        amps := z.amps.filter (fun r => decide (f.inst - ((4 * ioutOf p : Nat) : Int) ≤ 65536 * (r.at_ : Int))),
                        feats := z.feats.map (fun r => if r.num = f.num then { r with flags := fl } else r) }

/-- FRAME_BUILT: the oldest frame instant's frame is built, once every merged sample that its plan will have in
its support exists (R166, R168, R169).
(Log: 10 DESIGN CHOICE.) -/
def doFrameBuilt (t n : Nat) (d : Dev) : Dev :=
  let d := advance d t
  let y := frame d n
  match y.due with
  | [] => d
  | f :: _ =>
    let p := planOf d n f.plan
    let ms := y.merged.filter (fun m => m.plan == p.id)
    let (a, b) := frameSpan p ms f.inst
    let late := decide ((ms.length : Int) ≤ b)
    if late && (p.ended.isNone || planFlowing d n p.id) then d
    else buildFrame d n f p ms (late || decide (a < 0))

def execFrameBuilt (t ln : Nat) (s : State) : Host.Outcome State Fault Refusal :=
  act (decide (ln < 12)) s (doFrameBuilt t ln)

end Sys2Proof.Machine
end

