-- ==== Sys2Proof/Machine/PlanCheck.lean ====
section
/-! DEFINITION. The staged, captured and committed plans of a line, and the plan check (R68–R73, R79, R80, R85,
R179, R188, R201, R230, R241, R346, R430). -/

namespace Sys2Proof.Machine

open Sys2Proof

/-! ## The staged fields of a line region -/

/-- The places of row `r`. -/
def rowPlaces (r : Row) : List Fld :=
  (List.range r.n1).flatMap (fun i => (List.range r.n2).map (fun j => rowFld r i j))

/-- The staged fields of page `p`, and whether each is plan-class (R79). -/
def stagedOf (p : Nat) : List (Nat × Fld × Bool) :=
  match kindOf p with
  | none => []
  | some k => ((rowsOf k).filter (fun r => decide (r.acc = .st))).flatMap (fun r =>
      (rowPlaces r).map (fun f => (p, f, r.plan)))

/-- The staged fields of region `r`. -/
def stagedFields (r : Nat) : List (Nat × Fld × Bool) := (regionPages r).flatMap stagedOf

/-- Where a plan's values are taken from. -/
inductive PlanSrc
  /-- the staged values -/
  | staged
  /-- values captured for a commit: those that differ from their field's reset value -/
  | captured (vals : List (Nat × Nat))
  /-- the values of the latest commit, before the pace overrides (R430) -/
  | committed
  deriving DecidableEq, Repr

/-- Field `f` of page `p` in a plan. -/
def planVal (d : Dev) (w : PlanSrc) (p : Nat) (f : Fld) : Nat :=
  match w with
  | .staged => getR d p f
  | .captured vals => ((vals.find? (fun e => e.1 == key p f)).map (·.2)).getD f.reset
  | .committed => Store.get d.committed f.reset (key p (liveF f))

/-- It as a signed number. -/
def planInt (d : Dev) (w : PlanSrc) (p : Nat) (f : Fld) : Int := sx f.width (planVal d w p f)

/-- Every staged value of line `n` that differs from its reset value (R49). -/
def captureNow (d : Dev) (n : Nat) : List (Nat × Nat) :=
  (stagedFields n).filterMap (fun e =>
    if getR d e.1 e.2.1 = e.2.1.reset then none else some (key e.1 e.2.1, getR d e.1 e.2.1))

/-- A staged plan-class field differs from its live value before the overrides (R80, R430). -/
def planDiffers (d : Dev) (n : Nat) : Bool :=
  (stagedFields n).any (fun e => e.2.2 && getR d e.1 e.2.1 != planVal d .committed e.1 e.2.1)

/-! ## What a plan amounts to (R133, R165, R179, R201, R230) -/

/-- A field of the LINE page. -/
def pLine (d : Dev) (w : PlanSrc) (n : Nat) (f : Fld) : Nat := planVal d w (pgLine n) f

/-- Enabled slots, at most 8. -/
def pSlots (d : Dev) (w : PlanSrc) (n : Nat) : List Nat := List.range (min 8 (pLine d w n F.LINE_SLOTS))

def pRateMode (d : Dev) (w : PlanSrc) (n : Nat) : Bool := pLine d w n F.LINE_MODE == 0

/-- f_out in frames per second.
(Log: 50 DESIGN CHOICE.) -/
def pFout (d : Dev) (w : PlanSrc) (n : Nat) : Rat :=
  let per : Rat := (pLine d w n F.LINE_PERIOD : Nat)
  let k : Rat := if pRateMode d w n then ((pLine d w n F.LINE_SLOTS : Nat) : Rat) else 1
  k * 100000000 / per * 65536 / ((planVal d w (pgResamp n) F.RESAMP_STEP : Nat) : Rat)

def pChannels (d : Dev) (w : PlanSrc) (n : Nat) : Nat := planVal d w (pgResamp n) F.RESAMP_CHANNELS

/-- P samples per second. -/
def pSLine (d : Dev) (w : PlanSrc) (n : Nat) : Rat := ((pChannels d w n : Nat) : Rat) * pFout d w n

/-- A field as 0 or 1. -/
def pOn (d : Dev) (w : PlanSrc) (p : Nat) (f : Fld) : Nat := if planVal d w p f = 1 then 1 else 0

/-- Thermal bytes per second (R201). -/
def pThermal (d : Dev) (w : PlanSrc) (n : Nat) : Rat :=
  let q := pgStack n
  if pOn d w q F.STACK_EN = 0 then 0
  else
    let b := planVal d w q F.STACK_BINS - planVal d w q F.STACK_BG_BINS
    let size := 64 + 2 * b + 4 * b * pOn d w q F.STACK_R_EN + 8 * b * pOn d w q F.STACK_X_EN +
      cdiv b 64 * pOn d w q F.STACK_M_EN + cdiv (pChannels d w n) 8 * pOn d w q F.STACK_S_EN
    ((size * 100000000 : Nat) : Rat) /
      ((2 ^ planVal d w q F.STACK_STACK_K * pLine d w n F.LINE_PERIOD : Nat) : Rat)

/-- Feature bytes per second (R230). -/
def pFeature (d : Dev) (w : PlanSrc) (n : Nat) : Rat :=
  let m := planVal d w (pgStrideCl n) F.STRIDECL_FEAT_MAX
  if m = 0 then 0 else ((64 + 12 * m : Nat) : Rat) * pFout d w n

/-- A_DIV of the plan (R172). -/
def pADiv (d : Dev) (w : PlanSrc) (n : Nat) : Nat :=
  let per := pLine d w n F.LINE_PERIOD
  let im := if pRateMode d w n then per / max 1 (pLine d w n F.LINE_SLOTS) else per
  cdiv 655360000000 (max 1 (planVal d w (pgResamp n) F.RESAMP_STEP * im))

/-- Bytes per second (R179). -/
def pBLine (d : Dev) (w : PlanSrc) (n : Nat) : Rat :=
  let q := pgFrame n
  let c := pChannels d w n
  let code := planVal d w q F.FRAME_Q_CODE
  let p : Rat := ((2 * c + 64 + cdiv c 64 * pOn d w q F.FRAME_M_EN : Nat) : Rat)
  let qb : Rat := ((cdiv c (qSpace code) * pOn d w q F.FRAME_Q_EN : Nat) : Rat) / ((qTime code : Nat) : Rat)
  let ab : Rat := ((2 * c * pOn d w q F.FRAME_A_EN : Nat) : Rat) / ((pADiv d w n : Nat) : Rat)
  (p + qb + ab) * pFout d w n + pThermal d w n + pFeature d w n

/-! ## Line by line (R85) -/

/-- The longest waveform among the enabled slots, in half nanoseconds. -/
def pLongest (d : Dev) (w : PlanSrc) (n : Nat) : Nat :=
  (pSlots d w n).foldl (fun m s => max m (planVal d w (pgStarter n) (F.STARTER_DURATION s))) 0

/-- The round-trip check (R68). -/
def roundTripOk (d : Dev) (w : PlanSrc) (n : Nat) : Bool :=
  let gi := pLine d w n F.LINE_GROUP_INDEX
  decide (cdiv (2 * gi * pLine d w n F.LINE_RANGE * 100000000) (cLight * 2 ^ 28) + cdiv (pLongest d w n) 20 ≤
    pLine d w n F.LINE_PERIOD)

def pFreq (d : Dev) (w : PlanSrc) (n s : Nat) : Int := planInt d w (pgLine n) (F.LINE_FREQ s)
def pRateOf (d : Dev) (w : PlanSrc) (n s : Nat) : Nat := pLine d w n (F.LINE_RATE s)

/-- The band rule for slot `s` (R71), in kHz. -/
def bandOk (d : Dev) (w : PlanSrc) (n s : Nat) : Bool :=
  decide (2000 * (pFreq d w n s).natAbs + rateHz (pRateOf d w n s) ≤
    if pLine d w n F.LINE_FINE = 1 then 900000000 else 450000000)

/-- Slots `a` and `b` overlap. -/
def overlap (d : Dev) (w : PlanSrc) (n a b : Nat) : Bool :=
  a != b && decide (1000 * (pFreq d w n a - pFreq d w n b).natAbs < rateHz (pRateOf d w n a))

/-- The chirp rule. -/
def chirpOk (d : Dev) (w : PlanSrc) (n s : Nat) : Bool :=
  let sh := planVal d w (pgStarter n) (F.STARTER_SHAPE s)
  (sh != 1 && sh != 2) ||
    decide (10000 * planVal d w (pgStarter n) (F.STARTER_CHIRP_BW s) ≤ 8 * rateHz (pRateOf d w n s))

/-- FIR taps within the limit of the slot rate. -/
def tapsOk (d : Dev) (w : PlanSrc) (n s : Nat) : Bool :=
  decide (planVal d w (pgSlot n s) F.SLOT_TAPS ≤ 1024 / 2 ^ pRateOf d w n s)

/-- The first enabled slot for which `bad` holds. -/
def badSlot (d : Dev) (w : PlanSrc) (n : Nat) (bad : Nat → Bool) : Option Nat := (pSlots d w n).find? bad

/-- The odd line `n` and its partner are OFF with plan commits written in the same tick, and the partner's takes fine
mode: their capture instants tie, and the even line takes it (R67).
(Log: 42 DESIGN CHOICE.) -/
def fineTie (d : Dev) (n : Nat) : Bool :=
  let m := partner n
  n % 2 == 1 && (line d n).base == 0 && (line d m).base == 0 && (line d n).plan.isSome &&
    (line d n).plan.map (·.reqAt) == (line d m).plan.map (·.reqAt) &&
    planVal d .staged (pgLine m) F.LINE_FINE == 1 && planVal d .staged (pgLine m) F.LINE_RUN == 1

/-- The partner stands in the way of fine mode (R66, R67): it is neither OFF nor DARK for this line, waits for
its start or for Pacer to start it, has captured a plan that takes fine mode, or wins a tie.
(Log: 42 DESIGN CHOICE.) -/
def partnerBusy (d : Dev) (n : Nat) : Bool :=
  let m := partner n
  let x := line d m
  let free := (x.base == 0 && !x.waitWake && !x.starting && !d.pacer.held.contains m) || x.base == 6
  let caught := match x.cap with
    | some c => !c.shotKind && planVal d (.captured c.vals) (pgLine m) F.LINE_FINE == 1 &&
        planVal d (.captured c.vals) (pgLine m) F.LINE_RUN == 1
    | none => false
  !free || caught || fineTie d n

/-- Lines whose pending or live plans enter the package sums, with where each plan stands (R179).
(Log: 50 DESIGN CHOICE.) -/
def otherPlans (d : Dev) (n : Nat) : List (Nat × PlanSrc) :=
  ((List.range 12).filter (· != n)).filterMap (fun m =>
    let x := line d m
    let live := x.base == 1 || x.base == 2 || x.waitWake
    let w : Option PlanSrc := match x.cap with
      | some c => if c.shotKind then (if live then some .committed else none) else some (.captured c.vals)
      | none =>
        if x.plan.isSome && planDiffers d m then some .staged
        else if live then some .committed else none
    match w with
    | some w => if x.base = 6 ∨ pLine d w m F.LINE_RUN = 0 then none else some (m, w)
    | none => none)

/-- Exact sums over the package. -/
def sumRat (l : List Rat) : Rat := l.foldl (· + ·) 0

/-- PACKAGE_RATE fails (R179).
(Log: 50 DESIGN CHOICE.) -/
def packageBad (d : Dev) (w : PlanSrc) (n : Nat) : Bool :=
  let mine := if pLine d w n F.LINE_RUN = 1 ∧ (line d n).base ≠ 6 then [(n, w)] else []
  let l := mine ++ otherPlans d n
  decide ((6000000000 : Rat) < sumRat (l.map (fun e => pSLine d e.2 e.1))) ||
    decide ((15000000000 : Rat) < sumRat (l.map (fun e => pBLine d e.2 e.1)))

/-! ## FIELD_RANGE (R79), page by page -/

/-- The rolling record's place is refused at a start from OFF (R346).
(Log: 51 DESIGN CHOICE.) -/
def rollBad (d : Dev) (n : Nat) : Bool :=
  let size := rollSize d n
  let mine : List (Nat × Nat) := [(rollBase d n, size), (idxBase d n, 16 * idxSize d n)]
  let others := ((List.range 12).filter (fun m => m != n && decide (0 < rollSize d m))).flatMap (fun m =>
    [(rollBase d m, rollSize d m), (idxBase d m, 16 * idxSize d m)])
  let hit (a b : Nat × Nat) : Bool := decide (a.1 < b.1 + b.2) && decide (b.1 < a.1 + a.2)
  decide (0 < size) && mine.any (fun a =>
    decide (deviceArea d < a.1 + a.2) || others.any (hit a))

/-- LINE (page 0). -/
def rangeLine (d : Dev) (w : PlanSrc) (n : Nat) : Bool :=
  let run := pLine d w n F.LINE_RUN == 1
  decide (16 < pLine d w n F.LINE_PLAN_CYCLE) || (run && getR d pgPkg F.PKG_LC_STATE == 0) ||
    (run && (line d n).base == 0 && rollBad d n)

/-- STARTER (page 1), over the enabled slots. -/
def rangeStarter (d : Dev) (w : PlanSrc) (n : Nat) : Bool :=
  (pSlots d w n).any (fun s =>
    let l := planVal d w (pgStarter n) (F.STARTER_DURATION s)
    decide (l < 20) || decide (40000 < l) || planVal d w (pgStarter n) (F.STARTER_SHAPE s) == 3)

/-- The SLOT page of an enabled slot. A running plan needs its bank sealed (R141). -/
def rangeSlot (d : Dev) (w : PlanSrc) (n s : Nat) : Bool :=
  let v (f : Fld) : Nat := planVal d w (pgSlot n s) f
  decide (v F.SLOT_TAPS < 16) || decide (24 < v F.SLOT_SHIFT) || v F.SLOT_POL_MODE == 3 ||
    decide (10 < v F.SLOT_POL_K) || (pLine d w n F.LINE_RUN == 1 && !isSealed d n s (v F.SLOT_BANK))

/-- GAUGE (page 0xC). -/
def rangeGauge (d : Dev) (w : PlanSrc) (n : Nat) : Bool :=
  let g := planVal d w (pgGauge n) F.GAUGE_G
  let m := binsOf (pLine d w n F.LINE_RANGE) (pLine d w n F.LINE_GROUP_INDEX) (pRateOf d w n 0)
  decide (g < 1) || decide (200 < g) || decide (m ≤ g) || decide (12 < planVal d w (pgGauge n) F.GAUGE_MERGE_K)

/-- RESAMP (page 0xD). -/
def rangeResamp (d : Dev) (w : PlanSrc) (n : Nat) : Bool :=
  let s := planVal d w (pgResamp n) F.RESAMP_SPACING
  decide (planVal d w (pgResamp n) F.RESAMP_STEP < 65536) || decide (s < 256) || decide (65536 < s)

/-- The conditions of R188 on a plan that runs the Stacks fail. -/
def stackBad (d : Dev) (w : PlanSrc) (n : Nat) : Bool :=
  let q := pgStack n
  let v (f : Fld) : Nat := planVal d w q f
  let st := (planInt d w q F.STACK_START).natAbs
  let inside (a b : Nat) : Bool := decide (v F.STACK_BG_BINS ≤ a) && decide (a ≤ b) && decide (b < v F.STACK_BINS)
  let far : Bool :=
    let da : Int := (v F.STACK_OVEN_FIRST : Int) + v F.STACK_OVEN_LAST - v F.STACK_AMB_FIRST - v F.STACK_AMB_LAST
    decide (4000 * pLine d w n F.LINE_GROUP_INDEX * 100000000 ≤ da.natAbs * 2 ^ v F.STACK_PRE_J * cLight * 2 ^ 28)
  planVal d w (pgStarter n) F.STARTER_TGATE_EN != 1 ||
    decide (pLine d w n F.LINE_PERIOD < 2 ^ v F.STACK_PRE_J * v F.STACK_BINS + st) ||
    decide (v F.STACK_BINS ≤ v F.STACK_BG_BINS) ||
    !inside (v F.STACK_OVEN_FIRST) (v F.STACK_OVEN_LAST) || !inside (v F.STACK_AMB_FIRST) (v F.STACK_AMB_LAST) ||
    (v F.STACK_SOLVE == 0 && !far) ||
    (v F.STACK_S_EN == 1 && planVal d w (pgFrame n) F.FRAME_A_EN != 1)

/-- STACK (page 0xF). -/
def rangeStack (d : Dev) (w : PlanSrc) (n : Nat) : Bool :=
  let v (f : Fld) : Nat := planVal d w (pgStack n) f
  decide (8 < v F.STACK_PRE_J) || decide (8 < v F.STACK_SHIFT) || decide (v F.STACK_STACK_K < 8) ||
    decide (24 < v F.STACK_STACK_K) || decide (1000 < (planInt d w (pgStack n) F.STACK_START).natAbs) ||
    decide (v F.STACK_BINS < 1) || decide (65536 < v F.STACK_BINS) || decide (v F.STACK_GAMMA < 400 * 65536) ||
    decide (1000 * 65536 < v F.STACK_GAMMA) || (v F.STACK_EN == 1 && stackBad d w n)

/-- HURDLE (page 0x10): fields and the detectors of R241. -/
def rangeHurdle (d : Dev) (w : PlanSrc) (n : Nat) : Bool :=
  let v (f : Fld) : Nat := planVal d w (pgHurdle n) f
  let on := (List.range 8).filter (fun k => v (F.HURDLE_DET_EN k) == 1)
  let c := pChannels d w n
  (List.range 8).any (fun k => decide (12 < v (F.HURDLE_WIN_K k)) || v (F.HURDLE_MIN_CH k) == 0) ||
    on.any (fun k => decide (v (F.HURDLE_DET_LAST k) < v (F.HURDLE_DET_FIRST k)) || decide (c ≤ v (F.HURDLE_DET_LAST k))) ||
    decide (65536 < (on.map (fun k => v (F.HURDLE_DET_LAST k) + 1 - v (F.HURDLE_DET_FIRST k))).foldl (· + ·) 0)

/-- The lowest page that fails FIELD_RANGE. -/
def rangePage (d : Dev) (w : PlanSrc) (n : Nat) : Option Nat :=
  if rangeLine d w n then some 0
  else if rangeStarter d w n then some 1
  else if decide (60 < planVal d w (pgRx n) F.RX_GREF) then some 2
  else match badSlot d w n (rangeSlot d w n) with
    | some s => some (4 + s)
    | none =>
      if rangeGauge d w n then some 0xC
      else if rangeResamp d w n then some 0xD
      else if rangeStack d w n then some 0xF
      else if rangeHurdle d w n then some 0x10
      else if decide (4096 < planVal d w (pgStrideCl n) F.STRIDECL_FEAT_MAX) then some 0x12
      else none

/-! ## The verdict -/

/-- REASON, SLOT and PAGE of a plan of line `n`: the lowest-numbered failure (R85).
(Log: 231 DEDUCED, 248 DESIGN CHOICE.) -/
def planCheck (d : Dev) (w : PlanSrc) (n : Nat) : Nat × Nat × Nat :=
  let v (f : Fld) : Nat := pLine d w n f
  let per := v F.LINE_PERIOD
  let slots := v F.LINE_SLOTS
  let run := v F.LINE_RUN == 1
  let fine := v F.LINE_FINE == 1
  let rate := pRateMode d w n
  let mixed := badSlot d w n (fun s => pRateOf d w n s != pRateOf d w n 0)
  let band := badSlot d w n (fun s => !bandOk d w n s)
  let isOver := badSlot d w n (fun s => (pSlots d w n).any (overlap d w n s))
  let chirp := badSlot d w n (fun s => !chirpOk d w n s)
  let taps := badSlot d w n (fun s => !tapsOk d w n s)
  let c := pChannels d w n
  let gi := v F.LINE_GROUP_INDEX
  if per < 2000 then (1, 0, 0)
  else if !roundTripOk d w n then (2, 0, 0)
  else if v F.LINE_TIMING = 1 ∧ 100000000 % per ≠ 0 then (3, 0, 0)
  else if per ≤ v F.LINE_GRID_PHASE then (4, 0, 0)
  else if rate ∧ per % slots ≠ 0 then (5, 0, 0)
  else if slots = 0 ∨ 8 < slots then (6, 0, 0)
  else if mixed.isSome then (7, mixed.getD 0, 0)
  else if band.isSome then (8, band.getD 0, 0)
  else if isOver.isSome then (9, isOver.getD 0, 0)
  else if chirp.isSome then (10, chirp.getD 0, 1)
  else if taps.isSome then (11, taps.getD 0, 4 + taps.getD 0)
  else if planVal d w (pgRx n) F.RX_SCHED_EN = 1 ∧ rate ∧ 1 < slots then (12, 0, 0)
  else if fine ∧ (line d n).base ≠ 6 ∧ partnerBusy d n then (13, 0, 0)
  else if (line d n).base = 6 ∧ (run ∨ fine) then (14, 0, 0)
  else if c = 0 ∨ 65536 < c then (15, 0, 0)
  else if run ∧ (1250000000 < pSLine d w n ∨ 3125000000 < pBLine d w n) then (16, 0, 0)
  else if packageBad d w n then (17, 0, 0)
  else match rangePage d w n with
    | some p => (18, 0, p)
    | none =>
      if v F.LINE_RANGE < 1 ∨ 100000 < v F.LINE_RANGE ∨ gi < 2 ^ 28 ∨ 2 ^ 29 < gi then (19, 0, 0) else (0, 0, 0)

/-- PLAN_CHECK and STATUS.ERROR show the verdict on the staged plan. -/
def checkShow (d : Dev) (n : Nat) : Dev :=
  let (r, s, p) := planCheck d .staged n
  let q := pgLine n
  setR (setR (setR (setR d q F.LINE_REASON r) q F.LINE_CHECK_SLOT s) q F.LINE_CHECK_PAGE p) q cERROR (b2n (r != 0))

/-- PLAN_CHECK_EVAL: the evaluation that follows a staged write of line `n` ends (R85). -/
def doPlanCheckEval (t n : Nat) (d : Dev) : Dev := checkShow (advance d t) n

def execPlanCheckEval (t ln : Nat) (s : State) : Host.Outcome State Fault Refusal :=
  act (decide (ln < 12)) s (doPlanCheckEval t ln)

end Sys2Proof.Machine
end

