-- ==== Sys2Proof/Machine/StrideAlu.lean ====
section
/-! DEFINITION. The Stride instructions that work on registers: R, I, K and X formats (R214, R215, R218). -/

namespace Sys2Proof.Machine

open Sys2Proof

/-! ## R format -/

/-- d, s and t of the R format. -/
def fD (w : Nat) : Nat := bits w 22 4
def fS (w : Nat) : Nat := bits w 18 4
def fT (w : Nat) : Nat := bits w 14 4

/-- The reserved bits of an R word are 0; H, S and t as the instruction allows.
(Log: 96 DEDUCED.) -/
def rOk (w : Nat) (h s t : Bool) : Bool :=
  bits w 0 12 == 0 && (h || !bit w 13) && (s || !bit w 12) && (t || fT w == 0)

/-- The low half, signed, and the high half. -/
def lo16 (v : Nat) : Int := sx 16 v
def hi16 (v : Nat) : Int := sx 16 (v / 65536)
def pair (h l : Int) : Int := (ux 16 h * 65536 + ux 16 l : Nat)

/-- The limit of a signed value of `b` bits. -/
def satB (b : Nat) (v : Int) : Int := clampI (-(2 ^ (b - 1) : Nat)) ((2 ^ (b - 1) : Nat) - 1) v

/-- The exact result `v` at width `b`, saturated where `sat`, and whether it overflowed. -/
def narrow (b : Nat) (sat : Bool) (v : Int) : Int × Bool :=
  (if sat then satB b v else sx b (ux b v), decide (satB b v ≠ v))

/-- An ALU result in d, with OV where it overflowed (R207).
(Log: 99 DEDUCED.) -/
def aluRes (x : CoreSt) (w : Nat) (r : Int × Bool) : StrideRes :=
  okRes (wrD x (fD w) r.1 :: if r.2 then [wrStat x 32] else [])

/-- ADD and SUB: 32 bits, or per half with H; S saturates.
(Log: 99 DEDUCED.) -/
def addSub (f : Int → Int → Int) (x : CoreSt) (w : Nat) : StrideRes :=
  let s := rdD x (fS w)
  let t := rdD x (fT w)
  let sat := bit w 12
  if !rOk w true true true then faultRes 1
  else if bit w 13 then
    let l := narrow 16 sat (f (lo16 s) (lo16 t))
    let h := narrow 16 sat (f (hi16 s) (hi16 t))
    aluRes x w (pair h.1 l.1, l.2 || h.2)
  else aluRes x w (narrow 32 sat (f (sx 32 s) (sx 32 t)))

def insAdd (x : CoreSt) (w : Nat) : StrideRes := addSub (· + ·) x w
def insSub (x : CoreSt) (w : Nat) : StrideRes := addSub (· - ·) x w

/-- An instruction of the R format with neither H nor S. -/
def rPlain (f : Nat → Nat → Nat) (x : CoreSt) (w : Nat) : StrideRes :=
  if rOk w false false true then okRes [wrD x (fD w) (f (rdD x (fS w)) (rdD x (fT w)) : Nat)] else faultRes 1

def insAnd (x : CoreSt) (w : Nat) : StrideRes := rPlain (· &&& ·) x w
def insOr (x : CoreSt) (w : Nat) : StrideRes := rPlain (· ||| ·) x w
def insXor (x : CoreSt) (w : Nat) : StrideRes := rPlain (· ^^^ ·) x w

/-- MIN and MAX, signed, per half with H. -/
def minMax (f : Int → Int → Int) (x : CoreSt) (w : Nat) : StrideRes :=
  let s := rdD x (fS w)
  let t := rdD x (fT w)
  if !rOk w true false true then faultRes 1
  else if bit w 13 then okRes [wrD x (fD w) (pair (f (hi16 s) (hi16 t)) (f (lo16 s) (lo16 t)))]
  else okRes [wrD x (fD w) (f (sx 32 s) (sx 32 t))]

def insMin (x : CoreSt) (w : Nat) : StrideRes := minMax min x w
def insMax (x : CoreSt) (w : Nat) : StrideRes := minMax max x w

/-- ABS: without S, |−2^31| wraps.
(Log: 99 DEDUCED.) -/
def insAbs (x : CoreSt) (w : Nat) : StrideRes :=
  if rOk w false true false then aluRes x w (narrow 32 (bit w 12) ((rdS x (fS w)).natAbs : Nat)) else faultRes 1

def insSlt (x : CoreSt) (w : Nat) : StrideRes :=
  rPlain (fun s t => b2n (decide (sx 32 s < sx 32 t))) x w

/-- The shifts by t[5:0]. -/
def shl (s c : Nat) : Nat := if 32 ≤ c then 0 else s * 2 ^ c % 2 ^ 32
def shr (s c : Nat) : Nat := if 32 ≤ c then 0 else s / 2 ^ c
def sra (s c : Nat) : Nat := ux 32 (fdiv (sx 32 s) (2 ^ min c 31))

def insShl (x : CoreSt) (w : Nat) : StrideRes := rPlain (fun s t => shl s (t % 64)) x w
def insShr (x : CoreSt) (w : Nat) : StrideRes := rPlain (fun s t => shr s (t % 64)) x w
def insSra (x : CoreSt) (w : Nat) : StrideRes := rPlain (fun s t => sra s (t % 64)) x w

/-- The number of bits below bit `b` equal to bit `b`, counted down from it. -/
def signRun (b v : Nat) : Nat :=
  match (List.range b).find? (fun i => bit v (b - 1 - i) != bit v b) with
  | some i => i
  | none => b

def insNorm (x : CoreSt) (w : Nat) : StrideRes :=
  if rOk w false false false then okRes [wrD x (fD w) (signRun 31 (rdD x (fS w)) : Nat)] else faultRes 1

/-! ## I and K formats -/

def fImm (w : Nat) : Nat := bits w 0 16

def insAddi (x : CoreSt) (w : Nat) : StrideRes :=
  if bits w 16 2 = 0 then aluRes x w (narrow 32 false (rdS x (fS w) + sx 16 (fImm w))) else faultRes 1

/-- A shift by imm16[4:0]; the other bits of imm16 are 0.
(Log: 96 DEDUCED.) -/
def shiftImm (f : Nat → Nat → Nat) (x : CoreSt) (w : Nat) : StrideRes :=
  if bits w 16 2 = 0 ∧ bits w 5 11 = 0 then okRes [wrD x (fD w) (f (rdD x (fS w)) (bits w 0 5) : Nat)] else faultRes 1

def insShli (x : CoreSt) (w : Nat) : StrideRes := shiftImm shl x w
def insShri (x : CoreSt) (w : Nat) : StrideRes := shiftImm shr x w
def insSrai (x : CoreSt) (w : Nat) : StrideRes := shiftImm sra x w

def insMovi (x : CoreSt) (w : Nat) : StrideRes :=
  if bits w 16 6 = 0 then okRes [wrD x (fD w) (sx 16 (fImm w))] else faultRes 1

def insMovih (x : CoreSt) (w : Nat) : StrideRes :=
  if bits w 16 6 = 0 then okRes [wrD x (fD w) (rdD x (fD w) % 65536 + fImm w * 65536 : Nat)] else faultRes 1

/-! ## Extended registers (R218) -/

/-- The bits of STAT that a write reaches: AS, ES, OV and IE. -/
def statMask : Nat := 0x1003F

/-- STAT as read: ISR shows the bank in force. -/
def statRead (x : CoreSt) : Nat := rdStat x + b2n x.isr * 2 ^ 17

/-- What MOVFX reads of extended register `e`; none where it is not listed. -/
def extRead (d : Dev) (n k : Nat) (x : CoreSt) (e : Nat) : Option Int :=
  if e < 8 then some (rdP x e)
  else if e < 16 then some (rdB x (e - 8))
  else if e < 24 then some (rdL x (e - 16))
  else if e < 28 then some (rdM x (e - 24))
  else if e = 28 then some (statRead x)
  else if e = 29 then some (timerNow d x)
  else if e = 30 then some (getR d (pgStride n k) F.STRIDE_CYCLES % 2 ^ 32 : Nat)
  else if e = 31 then some (x.frame % 2 ^ 32 : Nat)
  else if e < 36 then some (ux 40 (rdA x (e - 32)) % 2 ^ 32 : Nat)
  else if e < 40 then some (sx 8 (ux 40 (rdA x (e - 36)) / 2 ^ 32))
  else if e = 40 then some x.ivec
  else if e = 41 then some x.ira
  else if e = 42 then some x.icause
  else if e = 43 then some x.ipend
  else if e = 44 then some x.imask
  else if e = 45 then some x.mailbox
  else if e = 46 then some (k + n * 16 + pkgIndex d % 8 * 256 : Nat)
  else if e = 47 then some (getR d pgPace F.PACE_STEP)
  else none

/-- MOVFX d,x. A read of MAILBOX clears mailbox-full. -/
def runMovfx (n k : Nat) (d : Dev) (x : CoreSt) (w : Nat) : Dev :=
  let e := bits w 16 6
  match extRead d n k x e with
  | some v =>
    if bits w 0 16 = 0 then
      let x := if e = 45 then { x with mailFull := false } else x
      finish d n k x (okRes [wrD x (fD w) v])
    else strideFault d n k 1
  | none => strideFault d n k 1

/-- What MOVTX of value `v` to extended register `e` does: the core, and the register write with whether it is
of latency 2; none where the register is RO or not listed. -/
def extWrite (d : Dev) (x : CoreSt) (e v : Nat) : Option (CoreSt × List (Nat × Nat) × Bool) :=
  let h := v % 65536
  if e < 8 then some (x, [(kP (bank x) e, h)], true)
  else if e < 16 then some (x, [(kB (e - 8), h)], true)
  else if e < 24 then some (x, [(kL (e - 16), h)], true)
  else if e < 28 then some (x, [(kM (e - 24), h)], true)
  else if e = 28 then some (x, [(kStat (bank x), andNot (rdStat x) statMask ||| (v &&& statMask))], false)
  else if e = 29 then some ({ x with timerV := v, timerAt := d.ticks }, [], false)
  else if e < 32 then none
  else if e < 36 then some (x, [wrA x (e - 32) (putBits (ux 40 (rdA x (e - 32))) 0 32 v : Nat)], false)
  else if e < 40 then some (x, [wrA x (e - 36) (putBits (ux 40 (rdA x (e - 36))) 32 8 v : Nat)], false)
  else if e = 40 then some ({ x with ivec := v % 4096 }, [], false)
  else if e = 41 then some ({ x with ira := v % 4096 }, [], false)
  else if e = 43 then some ({ x with ipend := andNot x.ipend (v % 256) }, [], false)
  else if e = 44 then some ({ x with imask := v % 256 }, [], false)
  else none

/-- MOVTX x,d. -/
def runMovtx (n k : Nat) (d : Dev) (x : CoreSt) (w : Nat) : Dev :=
  if bits w 0 16 ≠ 0 then strideFault d n k 1
  else
    match extWrite d x (bits w 16 6) (rdD x (fD w)) with
    | none => strideFault d n k 1
    | some (x, l, true) => finish d n k x ⟨none, [], l, false, none⟩
    | some (x, l, false) => finish d n k x (okRes l)

/-! ## The meanings -/

/-- NOP: its word is 0x0000_0000; another word of its opcode is ILLEGAL. -/
def insNop (_x : CoreSt) (w : Nat) : StrideRes := if w = 0 then okRes [] else faultRes 1

def execStrideNop (t ln k : Nat) (s : State) : Host.Outcome State Fault Refusal :=
  act (coreOk ln k) s (issueRegs t ln k 0x00 insNop)
def execStrideAdd (t ln k : Nat) (s : State) : Host.Outcome State Fault Refusal :=
  act (coreOk ln k) s (issueRegs t ln k 0x01 insAdd)
def execStrideSub (t ln k : Nat) (s : State) : Host.Outcome State Fault Refusal :=
  act (coreOk ln k) s (issueRegs t ln k 0x02 insSub)
def execStrideAnd (t ln k : Nat) (s : State) : Host.Outcome State Fault Refusal :=
  act (coreOk ln k) s (issueRegs t ln k 0x03 insAnd)
def execStrideOr (t ln k : Nat) (s : State) : Host.Outcome State Fault Refusal :=
  act (coreOk ln k) s (issueRegs t ln k 0x04 insOr)
def execStrideXor (t ln k : Nat) (s : State) : Host.Outcome State Fault Refusal :=
  act (coreOk ln k) s (issueRegs t ln k 0x05 insXor)
def execStrideMin (t ln k : Nat) (s : State) : Host.Outcome State Fault Refusal :=
  act (coreOk ln k) s (issueRegs t ln k 0x06 insMin)
def execStrideMax (t ln k : Nat) (s : State) : Host.Outcome State Fault Refusal :=
  act (coreOk ln k) s (issueRegs t ln k 0x07 insMax)
def execStrideAbs (t ln k : Nat) (s : State) : Host.Outcome State Fault Refusal :=
  act (coreOk ln k) s (issueRegs t ln k 0x08 insAbs)
def execStrideSlt (t ln k : Nat) (s : State) : Host.Outcome State Fault Refusal :=
  act (coreOk ln k) s (issueRegs t ln k 0x09 insSlt)
def execStrideShl (t ln k : Nat) (s : State) : Host.Outcome State Fault Refusal :=
  act (coreOk ln k) s (issueRegs t ln k 0x0A insShl)
def execStrideShr (t ln k : Nat) (s : State) : Host.Outcome State Fault Refusal :=
  act (coreOk ln k) s (issueRegs t ln k 0x0B insShr)
def execStrideSra (t ln k : Nat) (s : State) : Host.Outcome State Fault Refusal :=
  act (coreOk ln k) s (issueRegs t ln k 0x0C insSra)
def execStrideNorm (t ln k : Nat) (s : State) : Host.Outcome State Fault Refusal :=
  act (coreOk ln k) s (issueRegs t ln k 0x0D insNorm)
def execStrideAddi (t ln k : Nat) (s : State) : Host.Outcome State Fault Refusal :=
  act (coreOk ln k) s (issueRegs t ln k 0x10 insAddi)
def execStrideShli (t ln k : Nat) (s : State) : Host.Outcome State Fault Refusal :=
  act (coreOk ln k) s (issueRegs t ln k 0x11 insShli)
def execStrideShri (t ln k : Nat) (s : State) : Host.Outcome State Fault Refusal :=
  act (coreOk ln k) s (issueRegs t ln k 0x12 insShri)
def execStrideSrai (t ln k : Nat) (s : State) : Host.Outcome State Fault Refusal :=
  act (coreOk ln k) s (issueRegs t ln k 0x13 insSrai)
def execStrideMovi (t ln k : Nat) (s : State) : Host.Outcome State Fault Refusal :=
  act (coreOk ln k) s (issueRegs t ln k 0x14 insMovi)
def execStrideMovih (t ln k : Nat) (s : State) : Host.Outcome State Fault Refusal :=
  act (coreOk ln k) s (issueRegs t ln k 0x15 insMovih)
def execStrideMovtx (t ln k : Nat) (s : State) : Host.Outcome State Fault Refusal :=
  act (coreOk ln k) s (issue t ln k 0x16 (runMovtx ln k))
def execStrideMovfx (t ln k : Nat) (s : State) : Host.Outcome State Fault Refusal :=
  act (coreOk ln k) s (issue t ln k 0x17 (runMovfx ln k))

end Sys2Proof.Machine
end

