-- ==== Sys2Proof/Machine/StrideMem.lean ====
section
/-! DEFINITION. The Stride loads, stores and branches (R208, R209, R211, R215). -/

namespace Sys2Proof.Machine

open Sys2Proof

/-! ## Loads and stores -/

/-- The pointer write of a load or store; no write where the mode leaves the pointer. -/
def ptrWrite (x : CoreSt) (w p : Nat) : List (Nat × Nat) :=
  if bits w 17 2 < 2 then [] else [wrP x (bits w 19 3) (p : Nat)]

/-- LD and LDH: `b` is the size in bytes (R219: bit 14 is reserved, the address is aligned). -/
def loadRes (b : Nat) (val : CoreSt → Nat → Int) (x : CoreSt) (w : Nat) : StrideRes :=
  let (ea, p) := address x w
  if bit w 14 then faultRes 1
  else if ea % b ≠ 0 then faultRes 2
  else ⟨none, ptrWrite x w p, [wrD x (fD w) (val x ea)], false, none⟩

def insLd (x : CoreSt) (w : Nat) : StrideRes := loadRes 4 (fun x a => (memW x a : Nat)) x w
def insLdh (x : CoreSt) (w : Nat) : StrideRes := loadRes 2 (fun x a => sx 16 (memH x a)) x w

/-- ST and STH. -/
def runStore (n k b : Nat) (put : CoreSt → Nat → Nat → CoreSt) (d : Dev) (x : CoreSt) (w : Nat) : Dev :=
  let (ea, p) := address x w
  if bit w 14 then strideFault d n k 1
  else if ea % b ≠ 0 then strideFault d n k 2
  else finish d n k (put x ea (rdD x (fD w))) (okRes (ptrWrite x w p))

def execStrideLd (t ln k : Nat) (s : State) : Host.Outcome State Fault Refusal :=
  act (coreOk ln k) s (issueRegs t ln k 0x18 insLd)
def execStrideLdh (t ln k : Nat) (s : State) : Host.Outcome State Fault Refusal :=
  act (coreOk ln k) s (issueRegs t ln k 0x19 insLdh)
def execStrideSt (t ln k : Nat) (s : State) : Host.Outcome State Fault Refusal :=
  act (coreOk ln k) s (issue t ln k 0x1A (runStore ln k 4 putW))
def execStrideSth (t ln k : Nat) (s : State) : Host.Outcome State Fault Refusal :=
  act (coreOk ln k) s (issue t ln k 0x1B (runStore ln k 2 putH))

/-! ## Branches -/

/-- The target: the branch's address + off, modulo 4,096.
(Log: 98 DEDUCED.) -/
def bTarget (x : CoreSt) (w : Nat) : Nat := ux 12 ((x.pc : Int) + sx 12 (bits w 0 12))

/-- A conditional branch on s (bits 25:22) and t (bits 21:18). -/
def condBranch (c : Int → Int → Bool) (x : CoreSt) (w : Nat) : StrideRes :=
  if bits w 12 6 ≠ 0 then faultRes 1
  else branchRes (if c (rdS x (bits w 22 4)) (rdS x (bits w 18 4)) then some (bTarget x w) else none) []

def insBeq (x : CoreSt) (w : Nat) : StrideRes := condBranch (fun a b => a == b) x w
def insBne (x : CoreSt) (w : Nat) : StrideRes := condBranch (fun a b => a != b) x w
def insBlt (x : CoreSt) (w : Nat) : StrideRes := condBranch (fun a b => decide (a < b)) x w
def insBge (x : CoreSt) (w : Nat) : StrideRes := condBranch (fun a b => decide (b ≤ a)) x w

/-- BDEC: the counter falls by 1; branch while the new value is not 0. -/
def insBdec (x : CoreSt) (w : Nat) : StrideRes :=
  let v := ux 32 (rdS x (bits w 22 4) - 1)
  if bits w 12 10 ≠ 0 then faultRes 1
  else branchRes (if v ≠ 0 then some (bTarget x w) else none) [wrD x (bits w 22 4) (v : Nat)]

def insJump (x : CoreSt) (w : Nat) : StrideRes :=
  let _ := x
  if bits w 12 14 ≠ 0 then faultRes 1 else branchRes (some (bits w 0 12)) []

/-- JAL: D15 takes its address + 3.
(Log: 98 DEDUCED.) -/
def insJal (x : CoreSt) (w : Nat) : StrideRes :=
  if bits w 12 14 ≠ 0 then faultRes 1 else branchRes (some (bits w 0 12)) [wrD x 15 (x.pc + 3 : Nat)]

def insJr (x : CoreSt) (w : Nat) : StrideRes :=
  if bits w 0 22 ≠ 0 then faultRes 1 else branchRes (some (rdD x (bits w 22 4) % 4096)) []

def execStrideBeq (t ln k : Nat) (s : State) : Host.Outcome State Fault Refusal :=
  act (coreOk ln k) s (issueRegs t ln k 0x20 insBeq)
def execStrideBne (t ln k : Nat) (s : State) : Host.Outcome State Fault Refusal :=
  act (coreOk ln k) s (issueRegs t ln k 0x21 insBne)
def execStrideBlt (t ln k : Nat) (s : State) : Host.Outcome State Fault Refusal :=
  act (coreOk ln k) s (issueRegs t ln k 0x22 insBlt)
def execStrideBge (t ln k : Nat) (s : State) : Host.Outcome State Fault Refusal :=
  act (coreOk ln k) s (issueRegs t ln k 0x23 insBge)
def execStrideBdec (t ln k : Nat) (s : State) : Host.Outcome State Fault Refusal :=
  act (coreOk ln k) s (issueRegs t ln k 0x24 insBdec)
def execStrideJ (t ln k : Nat) (s : State) : Host.Outcome State Fault Refusal :=
  act (coreOk ln k) s (issueRegs t ln k 0x25 insJump)
def execStrideJal (t ln k : Nat) (s : State) : Host.Outcome State Fault Refusal :=
  act (coreOk ln k) s (issueRegs t ln k 0x26 insJal)
def execStrideJr (t ln k : Nat) (s : State) : Host.Outcome State Fault Refusal :=
  act (coreOk ln k) s (issueRegs t ln k 0x27 insJr)

/-- RTI: two delay slots in the shadow bank, then IRA and the main bank (R223). -/
def runRti (n k : Nat) (d : Dev) (x : CoreSt) (w : Nat) : Dev :=
  if bits w 0 26 ≠ 0 then strideFault d n k 1
  else if !x.isr then strideFault d n k 4
  else
    let d := retireInstr d n k x (branchRes none []) false
    setCore d n k { core d n k with rti := true }

/-- WAIT: issue stops until a source is pending and enabled (R223).
(Log: 100 DEDUCED.) -/
def runWait (n k : Nat) (d : Dev) (x : CoreSt) (w : Nat) : Dev :=
  if bits w 0 26 ≠ 0 then strideFault d n k 1
  else
    let d := retireInstr d n k x (okRes []) false
    if wanted x then d else setCoreState (setCore d n k { core d n k with waitAt := d.ticks }) n k 2

/-- HALT: the core stops; what was issued completes. -/
def runHalt (n k : Nat) (d : Dev) (x : CoreSt) (w : Nat) : Dev :=
  if bits w 0 26 ≠ 0 then strideFault d n k 1
  else
    let d := retireInstr d n k x (okRes []) false
    raise (setCoreState (dropShelf d n k) n k 3) (pgStride n k) 8

def execStrideRti (t ln k : Nat) (s : State) : Host.Outcome State Fault Refusal :=
  act (coreOk ln k) s (issue t ln k 0x28 (runRti ln k))
def execStrideWait (t ln k : Nat) (s : State) : Host.Outcome State Fault Refusal :=
  act (coreOk ln k) s (issue t ln k 0x29 (runWait ln k))
def execStrideHalt (t ln k : Nat) (s : State) : Host.Outcome State Fault Refusal :=
  act (coreOk ln k) s (issue t ln k 0x2A (runHalt ln k))

end Sys2Proof.Machine
end

