-- ==== Sys2Proof/Machine/StrideMac.lean ====
section
/-! DEFINITION. The Stride accumulator instructions: MAC forms with parallel loads, extraction and moves
(R214–R217). -/

namespace Sys2Proof.Machine

open Sys2Proof

/-! ## Accumulators -/

/-- A new accumulator value: saturated to 40 bits, with its AS bit (R216). -/
def accWrite (x : CoreSt) (a : Nat) (v : Int) : (Nat × Nat) × Nat :=
  (wrA x a (satB 40 v), if satB 40 v = v then 0 else 2 ^ a)

/-- Writes of accumulators, with the STAT bits that they set. -/
def accRes (x : CoreSt) (l : List ((Nat × Nat) × Nat)) (stat : Nat) : List (Nat × Nat) :=
  let m := l.foldl (fun m q => m ||| q.2) stat
  l.map (·.1) ++ if m = 0 then [] else [wrStat x m]

/-- ⊕ of R215 for SUB. -/
def accOp (sub : Nat) (a p : Int) : Int :=
  if sub = 0 then a + p else if sub = 1 then a - p else if sub = 2 then p else -p

/-! ## Parallel loads (R215) -/

/-- One parallel load: D register, pointer, modifier; the D write and the pointer write. -/
def parLoad (x : CoreSt) (d p m : Nat) : (Nat × Nat) × (Nat × Nat) :=
  (wrD x d (memW x (rdP x p) : Nat), wrP x p (circ x p ((rdP x p : Int) + rdM x m) : Nat))

/-- The X and Y loads of a C word, in that order, and whether their addresses are aligned.
(Log: 96 DEDUCED.) -/
def parLoads (x : CoreSt) (w : Nat) : List ((Nat × Nat) × (Nat × Nat)) × Bool :=
  let xp := bits w 8 2
  let yp := 4 + bits w 1 2
  let lx := if bit w 13 then [parLoad x (bits w 10 3) xp (bits w 7 1)] else []
  let ly := if bit w 6 then [parLoad x (bits w 3 3) yp (2 + bits w 0 1)] else []
  (lx ++ ly, (!bit w 13 || rdP x xp % 4 == 0) && (!bit w 6 || rdP x yp % 4 == 0))

/-- A MAC-form instruction with accumulator results `accs`. -/
def macRes (x : CoreSt) (w : Nat) (ok : Bool) (accs : List ((Nat × Nat) × Nat)) : StrideRes :=
  let (l, al) := parLoads x w
  if !ok then faultRes 1
  else if !al then faultRes 2
  else ⟨none, accRes x accs 0 ++ l.map (·.2), l.map (·.1), false, none⟩

def cA (w : Nat) : Nat := bits w 24 2
def cSub (w : Nat) : Nat := bits w 22 2
def cS (x : CoreSt) (w : Nat) : Nat := rdD x (bits w 19 3)
def cT (x : CoreSt) (w : Nat) : Nat := rdD x (bits w 16 3)

def insMac (x : CoreSt) (w : Nat) : StrideRes :=
  let hs := bits w 14 2
  let s := if 2 ≤ hs then hi16 (cS x w) else lo16 (cS x w)
  let t := if hs % 2 = 1 then hi16 (cT x w) else lo16 (cT x w)
  macRes x w true [accWrite x (cA w) (accOp (cSub w) (rdA x (cA w)) (s * t))]

def insMac2 (x : CoreSt) (w : Nat) : StrideRes :=
  let a := cA w
  macRes x w (a % 2 == 0 && bits w 14 2 == 0)
    [accWrite x a (accOp (cSub w) (rdA x a) (lo16 (cS x w) * lo16 (cT x w))),
     accWrite x (a + 1) (accOp (cSub w) (rdA x (a + 1)) (hi16 (cS x w) * hi16 (cT x w)))]

/-- CMAC: s × t, or s × conj(t) with HS[15] (R216). -/
def insCmac (x : CoreSt) (w : Nat) : StrideRes :=
  let a := cA w
  let sr := lo16 (cS x w)
  let sj := hi16 (cS x w)
  let tr := lo16 (cT x w)
  let tj := if bit w 15 then -(hi16 (cT x w)) else hi16 (cT x w)
  macRes x w (a % 2 == 0 && !bit w 14)
    [accWrite x a (accOp (cSub w) (rdA x a) (sr * tr - sj * tj)),
     accWrite x (a + 1) (accOp (cSub w) (rdA x (a + 1)) (sr * tj + sj * tr))]

/-- A MAC form issues; where it needs both access slots and the page window takes one (`win`), the core
stalls one cycle (R212).
(Log: 103 DESIGN CHOICE, 104 DESIGN CHOICE.) -/
def issueMac (t n k op : Nat) (win : Bool) (f : CoreSt → Nat → StrideRes) (d : Dev) : Dev :=
  issue t n k op (fun d x w =>
    let r := f x w
    let d := onlyIf (win && r.fault.isNone && bit w 13 && bit w 6)
      (fun d => addCycles (bump d (pgStride n k) F.STRIDE_WIN_STALLS) n k 1) d
    finish d n k x r) d

def execStrideMac (t ln k : Nat) (win : Bool) (s : State) : Host.Outcome State Fault Refusal :=
  act (coreOk ln k) s (issueMac t ln k 0x30 win insMac)
def execStrideMac2 (t ln k : Nat) (win : Bool) (s : State) : Host.Outcome State Fault Refusal :=
  act (coreOk ln k) s (issueMac t ln k 0x31 win insMac2)
def execStrideCmac (t ln k : Nat) (win : Bool) (s : State) : Host.Outcome State Fault Refusal :=
  act (coreOk ln k) s (issueMac t ln k 0x32 win insCmac)

/-! ## Extraction and moves (R217) -/

def aA (w : Nat) : Nat := bits w 20 2

/-- The extraction of accumulator a by `sh` into d. -/
def extract (x : CoreSt) (w sh : Nat) : StrideRes :=
  let v := fdiv (rdA x (aA w)) (2 ^ sh)
  let wsel := bits w 12 2
  let b := if wsel = 0 then 32 else 16
  let r := if bit w 11 then satB b v else v
  let old := rdD x (fD w)
  let out : Nat := if wsel = 0 then ux 32 r else if wsel = 1 then putBits old 0 16 (ux 16 r) else putBits old 16 16 (ux 16 r)
  okRes (wrD x (fD w) (out : Nat) :: if bit w 11 && decide (satB b v ≠ v) then [wrStat x 16] else [])

def insExt (x : CoreSt) (w : Nat) : StrideRes :=
  let sh := bits w 14 6
  if bits w 0 11 ≠ 0 ∨ bits w 12 2 = 3 ∨ 39 < sh then faultRes 1 else extract x w sh

def insExtr (x : CoreSt) (w : Nat) : StrideRes :=
  let sh := rdD x (bits w 16 4) % 64
  if bits w 0 11 ≠ 0 ∨ bits w 14 2 ≠ 0 ∨ bits w 12 2 = 3 ∨ 39 < sh then faultRes 1 else extract x w sh

def insMova (x : CoreSt) (w : Nat) : StrideRes :=
  let sh := bits w 14 6
  if bits w 0 14 ≠ 0 ∨ 8 < sh then faultRes 1
  else okRes (accRes x [accWrite x (aA w) (rdS x (fD w) * 2 ^ sh)] 0)

def insAshr (x : CoreSt) (w : Nat) : StrideRes :=
  let sh := bits w 14 6
  if bits w 0 14 ≠ 0 ∨ fD w ≠ 0 ∨ 39 < sh then faultRes 1
  else okRes [wrA x (aA w) (fdiv (rdA x (aA w)) (2 ^ sh))]

def insAdda (x : CoreSt) (w : Nat) : StrideRes :=
  if bits w 0 18 ≠ 0 ∨ fD w ≠ 0 then faultRes 1
  else okRes (accRes x [accWrite x (aA w) (rdA x (aA w) + rdA x (bits w 18 2))] 0)

def insExp (x : CoreSt) (w : Nat) : StrideRes :=
  if bits w 0 20 ≠ 0 then faultRes 1
  else okRes [wrD x (fD w) ((signRun 39 (ux 40 (rdA x (aA w))) : Int) - 8)]

def insAclr (x : CoreSt) (w : Nat) : StrideRes :=
  if bits w 0 20 ≠ 0 ∨ fD w ≠ 0 then faultRes 1 else okRes [wrA x (aA w) 0]

def execStrideExt (t ln k : Nat) (s : State) : Host.Outcome State Fault Refusal :=
  act (coreOk ln k) s (issueRegs t ln k 0x33 insExt)
def execStrideExtr (t ln k : Nat) (s : State) : Host.Outcome State Fault Refusal :=
  act (coreOk ln k) s (issueRegs t ln k 0x34 insExtr)
def execStrideMova (t ln k : Nat) (s : State) : Host.Outcome State Fault Refusal :=
  act (coreOk ln k) s (issueRegs t ln k 0x35 insMova)
def execStrideAshr (t ln k : Nat) (s : State) : Host.Outcome State Fault Refusal :=
  act (coreOk ln k) s (issueRegs t ln k 0x36 insAshr)
def execStrideAdda (t ln k : Nat) (s : State) : Host.Outcome State Fault Refusal :=
  act (coreOk ln k) s (issueRegs t ln k 0x37 insAdda)
def execStrideExp (t ln k : Nat) (s : State) : Host.Outcome State Fault Refusal :=
  act (coreOk ln k) s (issueRegs t ln k 0x38 insExp)
def execStrideAclr (t ln k : Nat) (s : State) : Host.Outcome State Fault Refusal :=
  act (coreOk ln k) s (issueRegs t ln k 0x39 insAclr)

end Sys2Proof.Machine
end

