-- ==== Sys2Proof/Machine/StrideCtl.lean ====
section
/-! DEFINITION. The Stride port and mailbox instructions, interrupts, and the starting, loading and stopping of
kernels (R220–R236). -/

namespace Sys2Proof.Machine

open Sys2Proof

/-! ## IN, OUT, MARK, SIG -/

/-- The core stalls one cycle on a port (R213). -/
def portStall (d : Dev) (n k : Nat) : Dev := addCycles (bump d (pgStride n k) F.STRIDE_STALL_CYCLES) n k 1

/-- IN d,n: pops the next word; MK takes its marks, and FS sets the frame context (R225). -/
def runIn (n k : Nat) (d : Dev) (x : CoreSt) (w : Nat) : Dev :=
  let i := bits w 20 2
  if bits w 0 20 ≠ 0 then strideFault d n k 1
  else
    match Store.get x.bufs [] i with
    | [] => portStall d n k
    | a :: r =>
      let x := { x with bufs := Store.set x.bufs [] i r, frame := if bit a.word 22 then a.frame else x.frame }
      let d := finish d n k x ⟨none, [wrStat x (bits a.word 16 6 * 256)], [wrD x (fD w) (a.word : Nat)], false, none⟩
      levelShow d n k i

/-- OUT n,d,id: pushes a feature word, or stalls while the port holds no credit (R227). -/
def runOut (n k : Nat) (d : Dev) (x : CoreSt) (w : Nat) : Dev :=
  let q := bits w 21 1
  let l := outPort x q
  if bits w 0 8 ≠ 0 ∨ bits w 16 3 ≠ 0 ∨ fD w % 2 ≠ 0 then strideFault d n k 1
  else if 8 ≤ l.length then portStall d n k
  else
    let f : FeatW := { value := rdD x (fD w), index := rdD x (fD w + 1) % 65536, id := bits w 8 8, core := k, port := q,
                       pl := bit w 20, frame := x.frame,
                       marks := bits (rdStat x) 8 6 ||| 8 * b2n (isStale d (pgStride n k) 0) }
    let now := if bit w 19 then [] else [(kStat (bank x), andNot (rdStat x) 0x3F00)]
    let d := finish d n k (setOut x q (l ++ [f])) (okRes now)
    bump d (pgStride n k) (if q = 0 then F.STRIDE_OUT_WORDS0 else F.STRIDE_OUT_WORDS1)

def insMark (x : CoreSt) (w : Nat) : StrideRes :=
  if bits w 0 8 ≠ 0 ∨ bits w 14 12 ≠ 0 then faultRes 1 else okRes [wrStat x (bits w 8 6 * 256)]

/-- SIG d,c: the mailbox of core c, or MAILBOX_OUT for the core's own number (R224). -/
def runSig (n k : Nat) (d : Dev) (x : CoreSt) (w : Nat) : Dev :=
  let c := bits w 18 4
  let v := rdD x (fD w)
  if bits w 0 18 ≠ 0 then strideFault d n k 1
  else
    let d := finish d n k x (okRes [])
    if c = k then raise (setR d (pgStride n k) F.STRIDE_MAILBOX_OUT v) (pgStride n k) 13
    else mailPut d n c v

def execStrideIn (t ln k : Nat) (s : State) : Host.Outcome State Fault Refusal :=
  act (coreOk ln k) s (issue t ln k 0x3A (runIn ln k))
def execStrideOut (t ln k : Nat) (s : State) : Host.Outcome State Fault Refusal :=
  act (coreOk ln k) s (issue t ln k 0x3B (runOut ln k))
def execStrideMark (t ln k : Nat) (s : State) : Host.Outcome State Fault Refusal :=
  act (coreOk ln k) s (issueRegs t ln k 0x3C insMark)
def execStrideSig (t ln k : Nat) (s : State) : Host.Outcome State Fault Refusal :=
  act (coreOk ln k) s (issue t ln k 0x3D (runSig ln k))

/-! ## Interrupts (R221, R222) -/

/-- INTERRUPT_TAKEN: at an eligible boundary the core takes the lowest pending enabled source.
(Log: 10 DESIGN CHOICE.) -/
def doInterrupt (t n k : Nat) (d : Dev) : Dev :=
  let d := advance d t
  let x := core d n k
  let p := pgStride n k
  if coreState d n k ≠ 1 ∨ !clusterUp d n (coreCluster k) ∨ !eligible x then d
  else
    match (List.range 8).find? (fun s => bit (x.ipend &&& x.imask) s) with
    | none => d
    | some s =>
      let lat := cyclesIn d n k (d.ticks - Store.get x.srcAt 0 s) + 3
      let y := { x with ipend := andNot x.ipend (2 ^ s), icause := s, ira := x.pc, pc := x.ivec, isr := true,
                        regs := putRegs x.regs x.late, late := [] }
      let d := addCycles (setCore d n k y) n k 3
      coreShow (peak (bump d p F.STRIDE_INTERRUPTS) p F.STRIDE_IRQ_LAT_MAX lat) n k

def execInterruptTaken (t ln k : Nat) (s : State) : Host.Outcome State Fault Refusal :=
  act (coreOk ln k) s (doInterrupt t ln k)

/-- STRIDE_TIMER_EXPIRY: TIMER reaches 0, sets source 4 and reloads (R220).
(Log: 102 DESIGN CHOICE.) -/
def doTimer (t n k : Nat) (d : Dev) : Dev :=
  let x := core d n k
  let st := coreState d n k
  if (x.timerV = 0 ∧ getR d (pgStride n k) F.STRIDE_TIMER_RELOAD = 0) ∨ (st ≠ 1 ∧ st ≠ 2 ∧ st ≠ 6) then advance d t
  else
    let at_ := x.timerAt + x.timerV
    let d := advance d (max t at_)
    let d := setCore d n k { x with timerV := getR d (pgStride n k) F.STRIDE_TIMER_RELOAD, timerAt := at_ }
    srcRaise d n k 4

def execStrideTimerExpiry (t ln k : Nat) (s : State) : Host.Outcome State Fault Refusal :=
  act (coreOk ln k) s (doTimer t ln k)

/-- DOORBELL: MAILBOX_IN is sent to the core's mailbox (R224). -/
def doDoorbell (t n k : Nat) (d : Dev) : Dev :=
  onPage (pgStride n k) (fun d => mailPut d n k (getR d (pgStride n k) F.STRIDE_MAILBOX_IN)) (advance d t)

def execDoorbell (t ln k : Nat) (s : State) : Host.Outcome State Fault Refusal :=
  act (coreOk ln k) s (doDoorbell t ln k)

/-! ## Kernels (R231–R233) -/

/-- A pace step holds the Stride cluster of core `k` gated (R233, R430). -/
def paceGated (d : Dev) (n k : Nat) : Bool := d.paceGate.contains (n * 4 + k / 4)

/-- CTRL.START (R232, R233).
(Log: 102 DESIGN CHOICE.) -/
def startCore (d : Dev) (n k : Nat) : Dev :=
  let p := pgStride n k
  let st := coreState d n k
  if st ≠ 0 ∧ st ≠ 3 ∧ st ≠ 4 then d
  else if paceGated d n k then setR d p F.STRIDE_RESTART 1
  else
    let x := core d n k
    let d := setCore d n k { x with frame := getR d (pgFrame n) F.FRAME_FRAME_NO, bufs := [], gapPorts := [] }
    let d := (List.range 4).foldl (fun d i => levelShow d n k i) d
    setCoreState (wakeCluster d n (coreCluster k)) n k 5

def execCoreStart (t ln k : Nat) (s : State) : Host.Outcome State Fault Refusal :=
  act (coreOk ln k) s (fun d => onPage (pgStride ln k) (fun d => startCore d ln k) (advance d t))

/-- CTRL.STOP: the core stops at the next instruction boundary; what is in flight lands (R232). -/
def stopCore (d : Dev) (n k : Nat) : Dev :=
  let d := waitNote d n k
  let x := core d n k
  let d := setCore (setR d (pgStride n k) F.STRIDE_RESTART 0) n k
    { x with regs := putRegs x.regs x.late, late := [], lat2 := false, reload := false }
  dropShelf (setCoreState d n k 0) n k

def execCoreStop (t ln k : Nat) (s : State) : Host.Outcome State Fault Refusal :=
  act (coreOk ln k) s (fun d => onPage (pgStride ln k) (fun d => stopCore d ln k) (advance d t))

/-- ENTRY of the header of an image, where every field is in range (R231). -/
def imageHead (h : List Nat) : Option Nat :=
  let u (o k : Nat) : Nat := ofLe ((h.drop o).take k)
  let pw := u 4 2
  let entry := u 6 2
  let db := u 8 4
  let off := u 12 2
  if u 0 2 = 0x4B53 ∧ u 2 1 = 1 ∧ u 3 1 = 0 ∧ 1 ≤ pw ∧ pw ≤ 4096 ∧ entry < pw ∧ db % 4 = 0 ∧ off % 4 = 0 ∧
      off + db ≤ 65536 ∧ u 14 2 = 0 ∧ (h.drop 20).all (· == 0) then some entry
  else none

/-- `k` words of four bytes as a table from key `base` on. -/
def wordTable (base : Nat) (bytes : List Nat) : Store Nat :=
  (List.range (bytes.length / 4)).foldl (fun t i =>
    Store.set t 0 (base + i) (ofLe ((bytes.drop (4 * i)).take 4))) []

/-- The image at KADDR: the program store and the core store that it leaves, filled up with NOPs and zeros, and its entry;
no entry where a field is out of range or the CRC fails (R232).
(Log: 101 DEDUCED.) -/
def readImage (d : Dev) (n k : Nat) : Store Nat × Store Nat × Option Nat :=
  let a := getR d (pgStride n k) F.STRIDE_KADDR / 64 * 64
  let h := load d a 32
  let pw := min 4096 (ofLe ((h.drop 4).take 2))
  let off := ofLe ((h.drop 12).take 2)
  let db := min (ofLe ((h.drop 8).take 4)) (65536 - off)
  let prog := load d (a + 32) (4 * pw)
  let data := load d (a + 32 + 4 * pw) db
  let ok := crc32c (h.take 16 ++ prog ++ data) = ofLe ((h.drop 16).take 4) ∧ !poisoned d a (32 + 4 * pw + db)
  (wordTable 0 prog, wordTable (off / 4) data, (imageHead h).bind (fun e => if ok then some e else none))

/-- A loaded core runs, or is HELD where its cluster's point is changing (R232, R234). -/
def coreRuns (d : Dev) (n k : Nat) : Dev :=
  let d := setCoreState d n k 1
  if coreMoves d n k then coreHeld d n k else d

/-- The load ends (R232): the core runs from ENTRY with its registers reset, or returns to STOPPED. A restart
clears RESTART and raises RESTARTED (R233). Words at the OUT ports stay there.
(Log: 101 DEDUCED, 102 DESIGN CHOICE.) -/
def loadEnd (d : Dev) (n k : Nat) : Dev :=
  let p := pgStride n k
  let x := core d n k
  let again := x.reload
  let d := setR d p F.STRIDE_RESTART 0
  let (prog, data, start) := readImage d n k
  match start with
  | none =>
    let y := { x with reload := false, prog := prog, mem := data }
    raise (bump (setCoreState (setCore d n k y) n k 0) p F.STRIDE_LOAD_ERRORS) p 11
  | some entry =>
    let y := { CoreSt.reset with prog := prog, mem := data, pc := entry, frame := x.frame, shelf := x.shelf,
                                 out0 := x.out0, out1 := x.out1,
                                 timerV := getR d p F.STRIDE_TIMER_RELOAD, timerAt := d.ticks }
    let d := coreRuns (setCore d n k y) n k
    let d := raise (bump d p F.STRIDE_LOADS) p 10
    let d := onlyIf again (fun d => raise d p 14) d
    coreShow (wantShelf d n k) n k

/-- KERNEL_LOAD_END. A load waits for its cluster's wake. -/
def doLoadEnd (t n k : Nat) (d : Dev) : Dev :=
  let d := advance d t
  if coreState d n k = 5 ∧ clusterUp d n (coreCluster k) then loadEnd d n k else d

def execKernelLoadEnd (t ln k : Nat) (s : State) : Host.Outcome State Fault Refusal :=
  act (coreOk ln k) s (doLoadEnd t ln k)

/-- The core loses its state with its cluster's power or its region's fence: RESTART is set where it was
RUNNING, WAITING or HELD (R233). -/
def coreLost (n : Nat) (d : Dev) (k : Nat) : Dev :=
  let st := coreState d n k
  let p := pgStride n k
  let d := dropShelf (waitNote d n k) n k
  let d := onlyIf (st == 1 || st == 2 || st == 6) (fun d => setR d p F.STRIDE_RESTART 1) d
  let d := setCore d n k CoreSt.reset
  let d := (List.range 4).foldl (fun d i => levelShow d n k i) d
  coreShow (setCoreState d n k 0) n k

/-- At a core's catch-up with RESTART set, its kernel is loaded again (R233).
(Log: 101 DEDUCED.) -/
def coreRestart (d : Dev) (n k : Nat) : Dev :=
  if flagR d (pgStride n k) F.STRIDE_RESTART ∧ coreState d n k = 0 then
    let d := setCore d n k { core d n k with reload := true, frame := getR d (pgFrame n) F.FRAME_FRAME_NO }
    setCoreState d n k 5
  else d

/-- A Stride cluster's point change holds its RUNNING and WAITING cores in HELD, one in a delay slot after the last of them;
on resume source 6 is raised (R27, R234). -/
def holdCores (d : Dev) (n c : Nat) : Dev :=
  (List.range 4).foldl (fun d i =>
    let k := 4 * c + i
    let st := coreState d n k
    if st = 2 ∨ (st = 1 ∧ (core d n k).slots = 0) then coreHeld d n k else d) d

/-- No core of the cluster issues instructions. -/
def coresHalted (d : Dev) (n c : Nat) : Bool :=
  (List.range 4).all (fun i => coreState d n (4 * c + i) != 1 && coreState d n (4 * c + i) != 2)

def resumeCores (d : Dev) (n c : Nat) : Dev :=
  (List.range 4).foldl (fun d i =>
    let k := 4 * c + i
    let d := if coreState d n k = 6 then
        let x := core d n k
        setCoreState (setCore d n k { x with waitAt := d.ticks }) n k (if x.heldFrom = 2 ∧ !wanted x then 2 else 1)
      else d
    if coreState d n k = 0 then d else srcRaise d n k 6) d

/-- Source 6 of every loaded core of the line: the pace step changes (R220). -/
def paceSource (d : Dev) (n : Nat) : Dev :=
  (List.range 16).foldl (fun d k => if coreState d n k = 0 then d else srcRaise d n k 6) d

/-- The core store through the page window (R236): 0 while the cluster is gated. -/
def winWord (d : Dev) (n k off : Nat) : Nat :=
  if clusterUp d n (coreCluster k) then
    memW (core d n k) (getR d (pgStride n k) F.STRIDE_WIN_KB * 1024 + (off - 0xC00)) else 0

/-- A write through the window, where the core is STOPPED, HALTED or in FAULT. -/
def winWrite (d : Dev) (n k off v : Nat) : Dev :=
  let st := coreState d n k
  if clusterUp d n (coreCluster k) ∧ (st = 0 ∨ st = 3 ∨ st = 4) then
    setCore d n k (putW (core d n k) (getR d (pgStride n k) F.STRIDE_WIN_KB * 1024 + (off - 0xC00)) v)
  else d

end Sys2Proof.Machine
end

