-- ==== Sys2Proof/Machine/PlanApply.lean ====
section
/-! DEFINITION. Putting a plan into force: live values, pace overrides, epochs, clusters and catch-up (R10–R18, R25,
R66, R79, R83, R428–R430). -/

namespace Sys2Proof.Machine

open Sys2Proof

/-! ## Live values (R48, R79, R430) -/

/-- A shot-class value limited to its field's range as it is applied (R79). -/
def clampShot (k : PageKind) (f : Fld) (v : Nat) : Nat :=
  if k = .starter then
    if f = F.STARTER_TG_WIDTH then clampN 1 255 v else if f = F.STARTER_CONFIRM then clampN 1 8 v else v
  else if k = .rx then
    if f = F.RX_GAIN then min 60 v else if f = F.RX_AR_MAXDEPTH then min 5 v
    else if f = F.RX_AR_HOLD then max 1 v else if f = F.RX_SCHED_COUNT then min 16 v
    else if (List.range 16).any (fun i => decide (f = F.RX_CODE i)) then min 60 v else v
  else if k = .stack then (if f = F.STACK_TAU then clampN 1 3600 v else v)
  else if k = .strideCl then (if f = F.STRIDECL_FEAT_WAIT then max 1 v else v)
  else if k = .stride then
    if (List.range 4).any (fun i => decide (f = F.STRIDE_DEC i)) then max 1 v
    else if (List.range 4).any (fun i => decide (f = F.STRIDE_TH i)) then clampN 1 4095 v else v
  else v

/-- The live value of field `f` of page `p`, and its value before the overrides, set to `v`. -/
def putLive (d : Dev) (p : Nat) (f : Fld) (v : Nat) : Dev :=
  let v := v % 2 ^ f.width
  let d := setL d p f v
  { d with committed := Store.set d.committed f.reset (key p (liveF f)) v }

/-- The staged fields of region `r` take their values of plan `w`; of a line's, the plan-class ones only where
`whole` holds (R80). -/
def putPlan (d0 : Dev) (r : Nat) (w : PlanSrc) (whole : Bool) (d : Dev) : Dev :=
  (stagedFields r).foldl (fun d e =>
    if e.2.2 && !whole then d
    else
      let v := planVal d0 w e.1 e.2.1
      let v := match kindOf e.1 with
        | some k => if e.2.2 then v else clampShot k e.2.1 v
        | none => v
      putLive d e.1 e.2.1 v) d

/-- A committed value of line `n`, before the overrides. -/
def pcom (d : Dev) (p : Nat) (f : Fld) : Nat := planVal d .committed p f

/-- The fields that overrides touch, with their values under the overrides `ov` (R428). -/
def overVals (d : Dev) (n : Nat) (ov : List Nat) : List (Nat × Fld × Nat) :=
  let slots := pcom d (pgLine n) F.LINE_SLOTS
  let step := pcom d (pgResamp n) F.RESAMP_STEP
  let half := ov.getD 0 0 == 1 && pcom d (pgLine n) F.LINE_MODE == 0 && slots % 2 == 0 && decide (0 < slots)
  let step1 := if half then max 65536 (step / 2) else step
  let p := ov.getD 1 0
  let step2 := if p = 0 then step1 else min (2 ^ 32 - 1) (step1 * 2 ^ p)
  let drop (b : Nat) : Bool := bit (ov.getD 2 0) b
  let keep (b : Nat) (q : Nat) (f : Fld) : Nat × Fld × Nat := (q, f, if drop b then 0 else pcom d q f)
  [(pgLine n, F.LINE_SLOTS, if half then slots / 2 else slots), (pgResamp n, F.RESAMP_STEP, step2),
   keep 0 (pgFrame n) F.FRAME_Q_EN, keep 1 (pgFrame n) F.FRAME_A_EN, keep 2 (pgFrame n) F.FRAME_M_EN,
   keep 3 (pgStrideCl n) F.STRIDECL_FEAT_MAX, keep 1 (pgStack n) F.STACK_S_EN]

/-- The overrides `ov` of line `n` put into its live values. -/
def override (d : Dev) (n : Nat) (ov : List Nat) : Dev :=
  (overVals d n ov).foldl (fun d e => setL d e.1 e.2.1 e.2.2) d

/-- The live values differ from what the overrides `ov` make of the committed ones. -/
def overDiffers (d : Dev) (n : Nat) (ov : List Nat) : Bool :=
  (overVals d n ov).any (fun e => getL d e.1 e.2.1 != e.2.2)

/-! ## Epochs (R11, R66) -/

/-- Unit `u` of page `p`, where it is not STALE, takes epoch `e`. -/
def epochUnit (d : Dev) (p u e : Nat) : Dev :=
  if isStale d p u then d else { d with unitEpoch := Store.set d.unitEpoch 0 (unitKey p u) e }

/-- The receiver cores of line `n`'s DARK partner take line `n`'s epoch. -/
def partnerEpoch (d : Dev) (n : Nat) : Dev :=
  if (line d (partner n)).base = 6 then
    (List.range 5).foldl (fun d u => epochUnit d (pgRx (partner n)) u (epoch d n)) d
  else d

/-- Line `n` applies a commit; `late`: later than its first commit point (R11, R49, R81). The cores of a DARK line
keep to their partner's epoch. -/
def lineCommitted (d : Dev) (n : Nat) (late : Bool) : Dev :=
  let dark := (line d n).base == 6
  let cores := (List.range 5).map (fun u => unitEpochOf d (pgRx n) u)
  let d := epochCommit d n
  let d := if dark then
      (List.range 5).foldl (fun d u => epochUnit d (pgRx n) u (cores.getD u 0)) d
    else partnerEpoch d n
  let d := bump d (pgLine n) F.LINE_COMMITS
  onlyIf late (fun d => bump d (pgLine n) F.LINE_LATE_COMMITS) d

/-! ## Clusters (R25, R87) -/

/-- The clusters that a plan with `slots` slots needs, Stride clusters apart. -/
def needed (slots : Nat) : List Nat :=
  [0, 1] ++ (List.range 4).filterMap (fun k => if 2 * k < slots then some (2 + k) else none) ++ [6]

/-- The clusters that plan `w` of line `n` needs under the overrides `ov`: line and cluster (R66). -/
def neededBy (d : Dev) (n : Nat) (w : PlanSrc) (ov : List Nat) : List (Nat × Nat) :=
  if pLine d w n F.LINE_RUN = 0 then []
  else
    let s := pLine d w n F.LINE_SLOTS
    let half := ov.getD 0 0 == 1 && pLine d w n F.LINE_MODE == 0 && s % 2 == 0
    (needed (if half then s / 2 else s)).map (n, ·) ++
      (if pLine d w n F.LINE_FINE = 1 then [(partner n, 0)] else [])

/-- The wakes of the gated ones start (R25). -/
def wakeAll (d : Dev) (l : List (Nat × Nat)) : Dev := l.foldl (fun d e => wakeCluster d e.1 e.2) d

/-- All of them are ready, with the lead of 200 ticks, at tick `e`. -/
def allReady (d : Dev) (l : List (Nat × Nat)) (e : Nat) : Bool :=
  l.all (fun c => (cluster d c.1 c.2).powered && decide ((cluster d c.1 c.2).readyAt + 200 ≤ e))

/-- The latest tick at which one of them is ready. -/
def readyTick (d : Dev) (l : List (Nat × Nat)) : Nat := l.foldl (fun m c => max m (cluster d c.1 c.2).readyAt) 0

/-- Line `n` runs, waits for its start or serves its partner. -/
def lineOn (d : Dev) (n : Nat) : Bool := (line d n).base != 0 || (line d n).waitWake

/-- The clusters that line `n` keeps powered: those of its live plan and of a plan commit that is pending.
(Log: 36 DESIGN CHOICE.) -/
def keepSet (d : Dev) (n : Nat) : List (Nat × Nat) :=
  let x := line d n
  let live : List (Nat × Nat) :=
    if x.base = 6 then [(n, 0)]
    else if lineOn d n then (needed (slotsN d n)).map (n, ·) ++ (if flagL d (pgLine n) F.LINE_FINE then [(partner n, 0)] else [])
    else []
  let pend : List (Nat × Nat) := match x.cap with
    | some c => if c.shotKind then [] else neededBy d n (.captured c.vals) x.ov
    | none => if x.plan.isSome then neededBy d n .staged x.ov else []
  live ++ pend

/-- A cluster of line `n` is gated: Stride cores lose their state, a calibration pass that needs the Converter
cluster ends (R25, R233, R261). -/
def gateUnit (d : Dev) (n c : Nat) : Dev :=
  if !(cluster d n c).powered then d
  else
    let d := if 7 ≤ c then (List.range 4).foldl (fun d i => coreLost n d (4 * (c - 7) + i)) d else d
    let d := onlyIf (c == 0) (fun d => calAbandon d n 0) d
    let d := onlyIf (c == 1) (fun d => gatesOff d n) d
    gateCluster d n c

/-- A Stride cluster no core of which has a kernel loaded or to be loaded again (R25).
(Log: 36 DESIGN CHOICE.) -/
def strideIdle (d : Dev) (n c : Nat) : Bool :=
  (List.range 4).all (fun i =>
    let k := 4 * (c - 7) + i
    coreState d n k == 0 && !flagR d (pgStride n k) F.STRIDE_RESTART)

/-- At a commit point line `n` gates the clusters that neither its live plan nor a pending one needs, and its
partner's Converter cluster where that served it alone (R25).
(Log: 36 DESIGN CHOICE.) -/
def gateUnused (d : Dev) (n : Nat) : Dev :=
  let keep := keepSet d n ++ keepSet d (partner n)
  let d := ((List.range 7).filter (fun c => !keep.contains (n, c))).foldl (fun d c => gateUnit d n c) d
  let d := ((List.range 4).filter (fun k => strideIdle d n (7 + k))).foldl (fun d k => gateUnit d n (7 + k)) d
  if keep.contains (partner n, 0) then d else gateUnit d (partner n) 0

/-- The wake of cluster `c` of line `n` is complete: its units are STALE, those that carry calibration CAL_STALE,
and a forced pass is due (R12, R18, R258). For a Converter cluster that serves or is to serve the partner in fine mode the
pass is the partner's (R262). -/
def clusterReady (d : Dev) (n c : Nat) : Dev :=
  let x := cluster d n c
  let d := setCluster d n c { x with waking := false }
  let d := stalePages d (clusterPages n c)
  let m := partner n
  let who := if (line d n).base = 6 ∨ (!lineOn d n ∧ (keepSet d m).contains (n, 0)) then m else n
  let d := if c = 0 then
      let d := (List.range 5).foldl (fun d u => setCal d (pgRx n) u true) d
      setCal (setCal d (pgThrx n) 0 true) (pgThrx n) 1 true
    else if c = 1 then setCal d (pgStarter n) 1 true else d
  if c < 2 then rxShow (calEval (calDue d who 7) who) n else d

/-- CLUSTER_READY. -/
def doClusterReady (t n c : Nat) (d : Dev) : Dev :=
  let x := cluster d n c
  if x.powered && x.waking then clusterReady (advance d (max t x.readyAt)) n c else advance d t

def execClusterReady (t ln clus : Nat) (s : State) : Host.Outcome State Fault Refusal :=
  act (decide (ln < 12) && decide (clus < 11)) s (doClusterReady t ln clus)

/-- DVFS_DONE: once every core has halted, the voltage of Stride cluster `c` rises where it is to, its frequency changes to
that of the point aimed at, and then the voltage falls where it is to; its cores resume and POINT_CHANGE is raised (R27,
R234, R235).
(Log: 187 DEDUCED, 230 DEDUCED.) -/
def doDvfsDone (t n c : Nat) (d : Dev) : Dev :=
  let d := advance d t
  let x := cluster d n (7 + c)
  if x.changing && coresHalted d n c then
    let d := setCluster d n (7 + c) { x with mv := max x.mv (pointMv x.target) }
    let f := F.STRIDECL_POINT_NOW
    let d := setR d (pgStrideCl n) f (putBits (getR d (pgStrideCl n) f) (2 * c) 2 x.target)
    let d := setCluster d n (7 + c) { x with changing := false, mv := pointMv x.target }
    raise (resumeCores d n c) (pgStrideCl n) 10
  else d

def execDvfsDone (t ln c : Nat) (s : State) : Host.Outcome State Fault Refusal :=
  act (decide (ln < 12) && decide (c < 4)) s (doDvfsDone t ln c)

/-! ## Catch-up (R14–R17) -/

/-- Unit `u` of page `p` holds a plan-class field (R14).
(Log: 37 DEDUCED.) -/
def holdsPlan (p u : Nat) : Bool :=
  if kindOf p = some .rx ∧ u < 5 then false else (stagedOf p).any (fun e => e.2.2)

/-- A unit of line `n` completes its catch-up: the first one of the Starter drives its gates (R95), a Stride core
that lost its state is loaded again (R233).
(Log: 37 DEDUCED.) -/
def caughtUp (d : Dev) (n p u : Nat) : Dev :=
  let d := makeCurrent d p u
  let d := onlyIf (p == pgStarter n && u == 0 && !(starter d n).driven)
    (fun d => gatesIdle (setStarter d n { starter d n with driven := true }) n) d
  let d := onlyIf (decide (kindOf p = some .slot)) (fun d => pipeCatchUp d n (p - pgSlot n 0)) d
  onlyIf (decide (kindOf p = some .stride)) (fun d => coreRestart d n (p - pgStride n 0)) d

/-- At point `e` the STALE units on the pages `ps` of line `n` whose point of R14 this is complete their catch-up.
(Log: 37 DEDUCED.) -/
def catchUpPages (d : Dev) (n e : Nat) (boundary : Bool) (ps : List Nat) : Dev :=
  ps.foldl (fun d p =>
    if !leadMet d n p e then d
    else (List.range (unitCount p)).foldl (fun d u =>
      if isStale d p u && (boundary || !holdsPlan p u) then caughtUp d n p u else d) d) d

/-- So do those of the whole line at slot-0 instant `e`.
(Log: 37 DEDUCED.) -/
def lineCatchUp (d : Dev) (n e : Nat) (boundary : Bool) : Dev := catchUpPages d n e boundary (linePages n)

/-- So do the receiver cores of its DARK partner, which follow line `n` (R66).
(Log: 37 DEDUCED.) -/
def partnerCatchUp (d : Dev) (n e : Nat) : Dev :=
  let m := partner n
  let p := pgRx m
  if (line d m).base = 6 ∧ leadMet d m p e then
    (List.range 5).foldl (fun d u => if isStale d p u then makeCurrent d p u else d) d |> fun d => partnerEpoch d n
  else d

/-- CATCH_UP of region `r` at tick `t`: a service region's STALE units become current (R14); a line's at its own
slot-0 instant, where one has come at this tick.
(Log: 10 DESIGN CHOICE.) -/
def doCatchUp (t r : Nat) (d : Dev) : Dev :=
  let d := advance d t
  if isFenced d r then d
  else if r < 12 then
    let x := line d r
    if lineOn d r ∧ x.l0 = d.ticks ∧ x.base ≠ 6 then
      partnerCatchUp (lineCatchUp d r d.ticks (decide (x.l0No % 2 ^ lv d r F.LINE_PLAN_CYCLE = 0))) r d.ticks
    else d
  else (regionPages r).foldl (fun d p =>
    (List.range (unitCount p)).foldl (fun d u => if isStale d p u then makeCurrent d p u else d) d) d

def execCatchUp (t region : Nat) (s : State) : Host.Outcome State Fault Refusal :=
  act (decide (region < 17)) s (doCatchUp t region)

/-! ## What follows the live values of a line -/

/-- Blocks of line `n` follow a change of live values from those of `d0`, at tick `e` (R83). -/
def liveShow (d0 d : Dev) (n e : Nat) : Dev :=
  let moved := [F.RESAMP_ORIGIN, F.RESAMP_SPACING, F.RESAMP_CHANNELS].any (fun f => getL d0 (pgResamp n) f != getL d (pgResamp n) f)
  let d := onlyIf moved (fun d => driftRestart d n) d
  let d := setR d (pgLine n) F.LINE_PAUSE_REG (lv d n F.LINE_PAUSE)
  let d := stackShow (framesShow (planShow (filtsNote d0 (shotCfgNote d0 d n e) n e) n) n) n
  shelvesFit (notePorts d n e) n

end Sys2Proof.Machine
end

