-- ==== Sys2Proof/Machine/PaceActs.lean ====
section
/-! DEFINITION. The actions of the pace table that are in force (R428–R431). -/

namespace Sys2Proof.Machine

open Sys2Proof

/-- The action words of the steps in force: 1 to STEP (R428). -/
def paceWords (d : Dev) : List Nat :=
  (List.range (getR d pgPace F.PACE_STEP)).flatMap (fun s =>
    (List.range 4).map (fun a => getL d pgPaceTbl (F.PACETBL_ACT s a)))

/-- The parameters of the in-force actions of code `c` that touch line `n`.
(Log: 201 DEDUCED.) -/
def acting (d : Dev) (c n : Nat) : List Nat :=
  ((paceWords d).filter (fun w => bits w 0 4 == c && bit w (8 + n))).map (fun w => bits w 4 4)

/-- The largest of the parameters, 0 with none. -/
def strongest (l : List Nat) : Nat := l.foldl max 0

/-- The overrides of line `n`: halve, frame divisor exponent, planes dropped; none: empty (R428).
(Log: 201 DEDUCED.) -/
def paceOverrides (d : Dev) (n : Nat) : List Nat :=
  let half := b2n (!(acting d 1 n).isEmpty)
  let div := strongest ((acting d 2 n).map (min 8))
  let drop := (acting d 3 n).foldl (fun m p => m ||| p) 0
  if half = 0 ∧ div = 0 ∧ drop = 0 then [] else [half, div, drop]

/-- Line `n` takes what the steps in force ask of it (R429). -/
def paceLine (d : Dev) (n : Nat) : Dev :=
  let mel := match acting d 4 n with
    | [] => 0
    | p :: r => r.foldl min p + 1
  let d := { d with paceOv := Store.set d.paceOv [] n (paceOverrides d n),
                    paceMel := Store.set d.paceMel 0 n mel,
                    paceDecim := Store.set d.paceDecim 0 n (strongest ((acting d 5 n).map (min 12))),
                    stkPause := if (acting d 6 n).isEmpty then d.stkPause.filter (· != n)
                      else if d.stkPause.contains n then d.stkPause else d.stkPause ++ [n] }
  setR d (pgLine n) F.LINE_PAUSE_PACE (b2n (!(acting d 7 n).isEmpty))

/-- The actions on lines, Stacks, frames and the Archive follow the step and the table (R428, R429, R438).
(Log: 201 DEDUCED.) -/
def paceActs (d : Dev) : Dev := (List.range 12).foldl paceLine d

/-- The class of Stride cluster `c` of line `n` (R234). -/
def strideClass (d : Dev) (n c : Nat) : Nat := getR d (pgStrideCl n) (F.STRIDECL_CLASS c)

/-- Pacer holds Stride cluster `c` of line `n` gated: by STRIDE_GATE, and outside RUN (R428, R434). -/
def gateHeld (d : Dev) (n c : Nat) : Bool :=
  getR d pgPace F.PACE_PSTATE_NOW != 0 || (acting d 8 n).any (fun p => decide (p ≤ strideClass d n c))

/-- A cluster that Pacer no longer holds is woken where one of its cores is to restart (R233). -/
def ungate (d : Dev) (n c : Nat) : Dev :=
  if (List.range 4).any (fun i => flagR d (pgStride n (4 * c + i)) F.STRIDE_RESTART) then wakeCluster d n (7 + c) else d

/-- The point at which Stride cluster `c` of line `n` is to run (R431). -/
def pointWant (d : Dev) (n c : Nat) : Nat :=
  let req := getR d (pgStrideCl n) (F.STRIDECL_POINT_REQ c)
  let cls := strideClass d n c
  if cls < 2 then req
  else
    let p := (acting d 9 n).foldl min req
    if cls = 3 ∧ getS d pgPace F.PACE_H < getS d pgPace F.PACE_OPP_TH then 0 else p

/-- A point change starts where one is needed: the cluster's cores are held until DVFS_DONE (R27, R431).
(Log: 230 DEDUCED.) -/
def pointMove (d : Dev) (n c : Nat) : Dev :=
  let x := cluster d n (7 + c)
  let p := pointWant d n c
  if x.powered && !x.waking && !x.changing && pointNow d n c != p then
    holdCores (avsHold (setCluster d n (7 + c) { x with changing := true, target := p }) (dieOf n)) n c
  else d

/-- Stride cluster `c` of line `n` at a tick: gated, released or moved to another point (R429). -/
def strideTick (d : Dev) (n c : Nat) : Dev :=
  let k := n * 4 + c
  let was := d.paceGate.contains k
  let now := gateHeld d n c
  let d := if now && !was then gateUnit { d with paceGate := d.paceGate ++ [k] } n (7 + c)
    else if was && !now then ungate { d with paceGate := d.paceGate.filter (· != k) } n c
    else d
  pointMove d n c

/-- The Stride clusters of every line at a tick. -/
def strideTicks (d : Dev) : Dev :=
  (List.range 12).foldl (fun d n => (List.range 4).foldl (fun d c => strideTick d n c) d) d

/-- The power state that the POWER_STATE actions in force ask for: SLEEP over IDLE, 0 none (R428). -/
def powerWant (d : Dev) : Nat :=
  strongest (((paceWords d).filter (fun w => bits w 0 4 == 10 && (bits w 4 4 == 1 || bits w 4 4 == 2))).map (fun w => bits w 4 4))

/-- Lines are kept stopped: outside RUN, or on the way out of it (R434, R435), and during a shut-down (R453).
(Log: 203 DEDUCED.) -/
def linesHeld (d : Dev) : Bool :=
  getR d pgPace F.PACE_PSTATE_NOW != 0 || d.pacer.goal.isSome || d.boot.stop.isSome

/-- Line `n` is to start when Pacer returns to RUN, or not any more.
(Log: 203 DEDUCED.) -/
def holdLine (d : Dev) (n : Nat) (on : Bool) : Dev :=
  let h := d.pacer.held.filter (· != n)
  { d with pacer := { d.pacer with held := if on then h ++ [n] else h } }

end Sys2Proof.Machine
end

