-- ==== Sys2Proof/Machine/Svc.lean ====
section
/-! DEFINITION. The service converter's entries and sequences, and the sensor front end (R273–R291), with the ticks of
the control loops. -/

namespace Sys2Proof.Machine

open Sys2Proof

/-- Core `c`. -/
def svcCore (d : Dev) (c : Nat) : SvcCore := Store.get d.svcCores SvcCore.reset c
def setSvcCore (d : Dev) (c : Nat) (x : SvcCore) : Dev := { d with svcCores := Store.set d.svcCores SvcCore.reset c x }

/-- Channel `n` of the sensor front end. -/
def sfeSt (d : Dev) (n : Nat) : SfeSt := Store.get d.sfes SfeSt.reset n
def setSfe (d : Dev) (n : Nat) (x : SfeSt) : Dev := { d with sfes := Store.set d.sfes SfeSt.reset n x }

/-- Core `c` calibrates now. -/
def svcCaling (d : Dev) (c : Nat) : Bool := d.svcCal.run == c + 1

/-- The core that entry `x` runs on. -/
def entryCore (x : Nat) : Nat := if x < 64 then x / 32 else (x - 64) / 4

/-! ## Entry words (R275, R296) -/

def wInput (w : Nat) : Nat := bits w 0 6
def wDiff (w : Nat) : Bool := bit w 6 && decide (wInput w < 16) && wInput w % 2 == 0
def wAlign (w : Nat) : Bool := bit w 7
def wAvg (w : Nat) : Nat := clampN 1 8 (bits w 8 4)
def wShift (w : Nat) : Nat := min 8 (bits w 12 4)
def wSettle (w : Nat) : Nat := bits w 16 4

/-- The sensor front end channel that the word names.
(Log: 127 DEDUCED.) -/
def wSfe (w : Nat) : Option Nat := if 28 ≤ wInput w ∧ wInput w < 36 then some (wInput w - 28) else none

/-- The word names a reserved input. -/
def wReserved (w : Nat) : Bool := decide (52 ≤ wInput w)

/-! ## States shown -/

/-- SVC.STATUS.STATE: RUNNING while a core runs an entry or a scan; SFE.STATUS.STATE: ACTIVE while a channel is
measured or checked (R296, R297). -/
def svcShow (d : Dev) : Dev :=
  let cs := (List.range 2).map (svcCore d)
  let d := setR d pgSvc cSTATE (b2n (cs.any (fun x => x.run.isSome || x.scan.isSome)))
  let meas := cs.any (fun x => (x.run.map (fun r => (wSfe r.word).isSome)).getD false)
  setR d pgSfe cSTATE (b2n (meas || (List.range 8).any (fun n => (sfeSt d n).check.isSome)))

/-- OK of channel `n` (R291); a channel that stops being OK spoils the intervals of R192 that it serves.
(Log: 94 DEDUCED.) -/
def sfeOkShow (d : Dev) (n : Nat) : Dev :=
  let was := flagR d pgSfe (F.SFE_OK n)
  let now := getR d pgSfe (F.SFE_CLASS n) == 1 && !flagR d pgSfe (F.SFE_CLAMP n) && !(sfeSt d n).broke
  let d := setR d pgSfe (F.SFE_OK n) (b2n now)
  if was && !now then (List.range 12).foldl (refBad n) d else d

/-- CLASS takes `v`; a change raises CLASS_CHANGE (R288). -/
def sfeClass (d : Dev) (n v : Nat) : Dev :=
  let was := getR d pgSfe (F.SFE_CLASS n)
  sfeOkShow (onlyIf (was != v) (fun d => raise d pgSfe 8) (setR d pgSfe (F.SFE_CLASS n) v)) n

/-! ## SHOT instants and the hold-off before them (R279, R281) -/

/-- The SHOT instants of core `c`: those of launches that were, and of the next launch of a line that launches.
(Log: 126 DEDUCED.) -/
def shotInstants (d : Dev) (c : Nat) : List Nat :=
  let es := (List.range 4).map (fun i => 4 * c + i)
  let soon := es.filterMap (fun i =>
    let ln := getL d pgSvc (F.SVC_INJ_LINE i)
    if flagL d pgSvc (F.SVC_INJ_EN i) && flagL d pgSvc (F.SVC_INJ_CLASS i) && decide (ln < 12) && lineEligible d ln then
      (line d ln).next.map (fun t => t + getL d pgSvc (F.SVC_INJ_DELAY i))
    else none)
  (d.svcShots.filter (fun e => e.2 / 4 == c)).map (·.1) ++ soon

/-- A conversion that began now at core `c` would end after a SHOT instant to come; none of a CONTROL entry starts from 500 ns
before it (`ctl`) (R281, R282).
(Log: 126 DEDUCED.) -/
def shotNear (d : Dev) (c : Nat) (ctl : Bool) : Bool :=
  (shotInstants d c).any (fun t => decide (d.ticks ≤ t) && decide (t < d.ticks + 50 + b2n ctl))

/-- At a slot-0 instant of line `n` that carries a launch its SHOT entries are triggered DELAY ticks later (R279). -/
def shotsAt (d : Dev) (n : Nat) : Dev :=
  (List.range 8).foldl (fun d i =>
    if flagL d pgSvc (F.SVC_INJ_EN i) && flagL d pgSvc (F.SVC_INJ_CLASS i) && getL d pgSvc (F.SVC_INJ_LINE i) == n then
      { d with svcShots := d.svcShots ++ [(d.ticks + getL d pgSvc (F.SVC_INJ_DELAY i), i)] }
    else d) d

/-! ## Starting what comes next (R278, R280, R281) -/

/-- The channel is measured by a core now.
(Log: 132 DEDUCED.) -/
def sfeBusy (d : Dev) (n : Nat) : Bool :=
  (List.range 2).any (fun c =>
    ((svcCore d c).run.map (fun r => wSfe r.word == some n)).getD false ||
    ((svcCore d c).paused.map (fun r => wSfe r.word == some n)).getD false)

/-- An entry with this word makes no measurement now: reserved input (1), or its channel cannot be measured (2). -/
def skipCause (d : Dev) (w : Nat) : Nat :=
  if wReserved w then 1
  else match wSfe w with
    | some n =>
      let k := getR d pgSfe (F.SFE_CLASS n)
      if k = 2 ∨ k = 3 ∨ (sfeSt d n).check.isSome ∨ sfeBusy d n then 2 else 0
    | none => 0

/-- The skip is counted (R275, R286, R288). -/
def countSkip (d : Dev) (w cause : Nat) : Dev :=
  if cause = 1 then bump d pgSvc F.SVC_ENTRY_SKIPS
  else bump d pgSfe (F.SFE_SKIPS ((wSfe w).getD 0))

/-- A run of entry `x` begins now. -/
def startRun (d : Dev) (c x kind w : Nat) (prot : Bool) : Dev :=
  let settle := if kind = 2 then 0 else wSettle w
  let bad := ((wSfe w).map (fun n => flagR d pgSfe (F.SFE_CLAMP n))).getD false
  setSvcCore d c { svcCore d c with run := some ⟨x, kind, w, settle, 0, 0, none, d.ticks, prot, 0, bad⟩ }

/-- A scan begins under the live settings (R278). -/
def startScan (d : Dev) (c : Nat) : Dev :=
  let n := min 32 (getL d pgSvc (F.SVC_SEQ_LEN c))
  setSvcCore d c { svcCore d c with scan := some ((List.range n).map (fun i => svcWordOf d (32 * c + i))), idx := 0,
                                    aborts := 0 }

/-- The field that counts scans, and overruns, of core `c`. -/
def scansF (c : Nat) : Fld := if c = 0 then F.SVC_SCANS0 else F.SVC_SCANS1
def overrunsF (c : Nat) : Fld := if c = 0 then F.SVC_SCAN_OVERRUNS0 else F.SVC_SCAN_OVERRUNS1

/-- The next regular entry of core `c` starts, with at most `fuel` entries passed over; a scan that has ended is
counted, and in CONT the next one begins; where TIMED has been set meanwhile its first start falls due (R278).
(Log: 125 DESIGN CHOICE.) -/
def nextRegular : Nat → Dev → Nat → Dev
  | 0, d, _ => d
  | fuel + 1, d, c =>
    let x := svcCore d c
    match x.scan with
    | none =>
      if x.timed || getL d pgSvc (F.SVC_SEQ_LEN c) == 0 then d
      else if getL d pgSvc (F.SVC_MODE c) = 0 then nextRegular fuel (startScan d c) c
      else setSvcCore d c { x with timed := true, nextScan := d.ticks }
    | some ws =>
      match ws[x.idx]? with
      | none => nextRegular fuel (bump (setSvcCore d c { x with scan := none }) pgSvc (scansF c)) c
      | some w =>
        let k := skipCause d w
        if k = 0 then startRun d c (32 * c + x.idx) 0 w (decide (4 ≤ x.aborts))
        else nextRegular fuel (countSkip (setSvcCore d c { x with idx := x.idx + 1, aborts := 0 }) w k) c

/-- An idle core starts what comes next: a paused regular entry that is protected, else the lowest waiting CONTROL entry, else
the paused regular entry, else the next one of its scan; nothing while it calibrates or a SHOT instant is near (R280–R282,
R284).
(Log: 125 DESIGN CHOICE.) -/
def svcNext (d : Dev) (c : Nat) : Dev :=
  let x := svcCore d c
  let low := x.waiting.foldl min (x.waiting.headD 0)
  let resume (r : SvcRun) : Dev := setSvcCore d c { x with run := some { r with at_ := d.ticks }, paused := none }
  let guarded := (x.paused.map (fun r => r.prot)).getD false
  let d :=
    if x.run.isSome || svcCaling d c || shotNear d c (!x.waiting.isEmpty && !guarded) then d
    else if x.waiting.isEmpty || guarded then
      match x.paused with
      | some r => resume r
      | none => nextRegular 40 d c
    else
      let d := setSvcCore d c { x with waiting := x.waiting.filter (· != low) }
      let w := svcWordOf d low
      let k := skipCause d w
      if k = 0 then bump (startRun d c low 1 w false) pgSvc F.SVC_CONTROL_RUNS else countSkip d w k
  svcShow d

/-! ## Results (R275–R277) -/

/-- A conversion's code with the core's accepted OFS and TRIM (R273), in the range of its kind.
(Log: 124 DEDUCED.) -/
def svcCode (d : Dev) (c : Nat) (diff : Bool) (raw : Int) : Int :=
  let v := rne ((256 * raw - getS d pgSvc (F.SVC_OFS c)) * (getR d pgSvc (F.SVC_TRIM c) : Int)) 134217728
  if diff then clampI (-32768) 32767 v else clampI 0 65535 v

/-- The result `v`, shown as `latest`, of entry `x` enters its record at the instant `at_` (TAI), and reaches those
that use it. -/
def putResult (d : Dev) (x : Nat) (v : Int) (latest : Nat) (at_ : Int) : Dev :=
  let r := svcRecOf d x
  let r : AccRec := { sum := (r.sum + ux 64 v) % 2 ^ 64, count := min (r.count + 1) (2 ^ 32 - 1), mn := min r.mn v,
                      mx := max r.mx v, latest := latest, sec := taiSec at_ % 2 ^ 32, ns := taiNs at_, val := v }
  let d := { d with svcRec := Store.set d.svcRec AccRec.reset x r }
  let d := onlyIf (getR d pgTime F.TIME_OVEN_ENTRY == x) (fun d => ovenResult d v) d
  loopResult d x

/-- The regular entry at hand has ended. -/
def regularDone (d : Dev) (c : Nat) : Dev :=
  let x := svcCore d c
  setSvcCore d c { x with idx := x.idx + 1, aborts := 0 }

/-- A run of core `c` ends; the regular sequence moves on after a regular one. -/
def endRun (d : Dev) (c : Nat) (r : SvcRun) : Dev :=
  let d := setSvcCore d c { svcCore d c with run := none }
  if r.kind = 0 then regularDone d c else d

/-- The entry's conversions are complete (R275, R277). -/
def entryResult (d : Dev) (c : Nat) (r : SvcRun) : Dev :=
  let v := fdiv r.sum (2 ^ wShift r.word)
  let w := 16 + wAvg r.word - wShift r.word
  let latest := if wAlign r.word then ux w v * 2 ^ (32 - w) else ux 32 v
  let at_ := d.time.base + 327680 * (((r.first.getD r.at_) + d.ticks : Nat) : Int)
  putResult (endRun d c r) r.x v latest at_

/-- A cycle of run `r` ends with the raw code `raw` (R273, R275).
(Log: 125 DESIGN CHOICE.) -/
def cycleEnd (d : Dev) (c : Nat) (r : SvcRun) (raw : Int) : Dev :=
  if 0 < r.settle then
    let r := { r with settle := r.settle - 1, at_ := d.ticks }
    setSvcCore d c { svcCore d c with run := some r }
  else
    let r := { r with sum := r.sum + svcCode d c (wDiff r.word) raw, n := r.n + 1, first := some (r.first.getD r.at_),
                      at_ := d.ticks }
    if r.n = 2 ^ wAvg r.word then entryResult d c r
    else setSvcCore d c { svcCore d c with run := some r }

/-- The number of phases of channel `n`'s wiring, and the conversions of each (R286). -/
def sfePhases (d : Dev) (n : Nat) : Nat := if getL d pgSfe (F.SFE_WIRE n) = 1 then 4 else 2

/-- The ticks that a measurement of channel `n` under word `w` takes: each phase 20 µs and 2^AVG conversions (R286). -/
def sfeTicks (d : Dev) (n w : Nat) : Nat := sfePhases d n * (2000 + 50 * 2 ^ min 6 (wAvg w))

/-- How much of run `r` is done now: of a measurement the ticks up to the last conversion, or moment of settling, that has
ended.
(Log: 127 DEDUCED.) -/
def usedNow (d : Dev) (r : SvcRun) : Nat :=
  let per := 2000 + 50 * 2 ^ min 6 (wAvg r.word)
  let u := r.used + (d.ticks - r.at_)
  if u % per < 2000 then u else u - (u % per - 2000) % 50

/-- A regular run pauses: it keeps its partial sum, a measurement the phases and conversions done (R281).
(Log: 127 DEDUCED.) -/
def pauseNow (d : Dev) (c : Nat) (r : SvcRun) : Dev :=
  let r := if (wSfe r.word).isSome then { r with used := usedNow d r, first := some (r.first.getD r.at_) } else r
  setSvcCore d c { svcCore d c with run := none, paused := some r }

/-- A regular run whose next cycle would end after a SHOT instant pauses (R281). -/
def pauseRun (d : Dev) (c : Nat) : Dev :=
  match (svcCore d c).run with
  | some r => if r.kind = 0 ∧ shotNear d c false then pauseNow d c r else d
  | none => d

/-- SVC_CONVERSION: the conversion cycle in progress at core `c` ends, 50 ticks after its start, with the raw code
`raw`; an idle core starts what it may.
(Log: 125 DESIGN CHOICE.) -/
def doConversion (t c : Nat) (raw : Int) (d : Dev) : Dev :=
  match (svcCore d c).run with
  | some r =>
    if (wSfe r.word).isSome then advance d t
    else
      let d := cycleEnd (advance d (max t (r.at_ + 50))) c r raw
      svcNext (pauseRun d c) c
  | none => svcNext (advance d t) c

def execSvcConversion (t svc : Nat) (raw : Int) (s : State) : Host.Outcome State Fault Refusal :=
  act (decide (svc < 2)) s (doConversion t svc raw)

/-! ## Triggers (R279–R282, R284) -/

/-- Entry `x` waits; a second trigger merges into the first (R282). -/
def waitControl (d : Dev) (c x : Nat) : Dev :=
  let y := svcCore d c
  if y.waiting.contains x then bump d pgSvc F.SVC_CONTROL_MERGED
  else setSvcCore d c { y with waiting := y.waiting ++ [x] }

/-- A trigger while core `c` calibrates is held, one per entry (R284).
(Log: 135 DEDUCED.) -/
def holdControl (d : Dev) (c x : Nat) : Dev :=
  let y := svcCore d c
  if y.held.contains x then bump d pgSvc F.SVC_CONTROL_MERGED
  else bump (setSvcCore d c { y with held := y.held ++ [x] }) pgSvc F.SVC_CAL_HELD

/-- The regular run of core `c` is aborted; its entry starts anew later (R280). -/
def abortRegular (d : Dev) (c : Nat) : Dev :=
  let y := svcCore d c
  bump (setSvcCore d c { y with run := none, aborts := y.aborts + 1 }) pgSvc F.SVC_REG_ABORTS

/-- CONTROL entry `x` is triggered (R280, R282).
(Log: 127 DEDUCED.) -/
def svcControl (d : Dev) (x : Nat) : Dev :=
  if !isControl d x then d
  else
    let c := entryCore x
    if svcCaling d c then holdControl d c x
    else
      let y := svcCore d c
      match y.run with
      | some r =>
        if r.kind = 0 ∧ !shotNear d c true then
          if r.prot then bump (waitControl d c x) pgSvc F.SVC_REG_PROTECTS
          else svcNext (waitControl (abortRegular d c) c x) c
        else waitControl d c x
      | none => svcNext (waitControl d c x) c

/-- INJ_GO: word `v` is written to INJ_GO: each of its bits triggers a CONTROL entry (R279). -/
def doInjGo (t v : Nat) (d : Dev) : Dev :=
  onPage pgSvc (fun d => ((List.range 8).filter (fun i => bit v i)).foldl (fun d i => svcControl d (64 + i)) d)
    (advance d t)

def execInjGo (t v : Nat) (s : State) : Host.Outcome State Fault Refusal :=
  act true s (doInjGo t v)

/-- A SHOT entry at its instant converts, or is dropped (R275, R281, R282, R284). -/
def shotRun (d : Dev) (i : Nat) : Dev :=
  let c := i / 4
  let y := svcCore d c
  let w := getL d pgSvc (F.SVC_INJ_WORD i)
  if !(flagL d pgSvc (F.SVC_INJ_EN i) && flagL d pgSvc (F.SVC_INJ_CLASS i)) then d
  else if svcCaling d c then bump d pgSvc F.SVC_SHOT_DROPS_CAL
  else if wReserved w || (wSfe w).isSome then bump d pgSvc F.SVC_ENTRY_SKIPS
  else if (y.run.map (fun r => r.kind != 0)).getD false then raise (bump d pgSvc F.SVC_SHOT_DROPS) pgSvc 9
  else
    let d := match y.run with
      | some r => pauseNow d c r
      | none => d
    svcShow (bump (startRun d c (64 + i) 2 w false) pgSvc F.SVC_SHOT_RUNS)

/-- SHOT_TRIGGER: the instant of the earliest SHOT trigger of injected entry `i` comes; entries of its core with the same
instant have theirs at once, in order (R279, R281, R282). -/
def doShotTrigger (t i : Nat) (d : Dev) : Dev :=
  match d.svcShots.filter (fun e => e.2 == i) with
  | [] => advance d t
  | e :: r =>
    let at_ := r.foldl (fun a b => min a b.1) e.1
    let d := advance d (max t at_)
    let now (e : Nat × Nat) : Bool := e.1 == at_ && e.2 / 4 == i / 4
    let es := (List.range 8).filter (fun k => d.svcShots.any (fun e => now e && e.2 == k))
    es.foldl (fun d k => shotRun d k) { d with svcShots := d.svcShots.filter (fun e => !now e) }

def execShotTrigger (t inj : Nat) (s : State) : Host.Outcome State Fault Refusal :=
  act (decide (inj < 8)) s (doShotTrigger t inj)

/-- SCAN_START: a timed scan of core `c` falls due; the sequence fields live then take effect, where no scan runs (R278, R284).
(Log: 125 DESIGN CHOICE.) -/
def doScanStart (t c : Nat) (d : Dev) : Dev :=
  let y := svcCore d c
  if !y.timed then advance d t
  else
    let d := advance d (max t y.nextScan)
    let per := 100 * max 1 (getL d pgSvc (F.SVC_SCAN_PERIOD c))
    let on := getL d pgSvc (F.SVC_MODE c) == 1 && getL d pgSvc (F.SVC_SEQ_LEN c) != 0
    let isOver (d : Dev) : Dev := raise (bump d pgSvc (overrunsF c)) pgSvc 8
    if y.scan.isSome && !svcCaling d c then isOver (setSvcCore d c { y with nextScan := y.nextScan + per })
    else
      let y := { y with timed := on, nextScan := if on then y.nextScan + per else y.nextScan }
      let d := setSvcCore d c y
      if !on then svcNext d c
      else if svcCaling d c then (if y.deferred then isOver d else setSvcCore d c { y with deferred := true })
      else svcNext (startScan d c) c

def execScanStart (t svc : Nat) (s : State) : Host.Outcome State Fault Refusal :=
  act (decide (svc < 2)) s (doScanStart t svc)

/-- A commit reached the SVC page: an idle core starts what it may; the sequence fields wait for the next scan start (R278). -/
def svcCommit (d : Dev) : Dev := (List.range 2).foldl (fun d c => svcNext d c) d

/-! ## Measurements of the sensor front end (R285–R287, R289, R290) -/

/-- The resistance in 2^-8 Ω from the phase sums; none where the reference phase reads 0 (R286).
(Log: 130 DESIGN CHOICE, 131 DEDUCED.) -/
def sfeOhms (d : Dev) (n : Nat) (s : List Int) : Option Rat :=
  let g (k : Nat) : Int := s.getD k 0
  let ref : Rat := getL d pgSfe F.SFE_REF_R
  let wire := getL d pgSfe (F.SFE_WIRE n)
  if wire = 1 then
    if g 1 + g 3 = 0 then none else some (2 * ref * ((g 0 + g 2 : Int) : Rat) / ((g 1 + g 3 : Int) : Rat))
  else if g 1 = 0 then none
  else
    let r := ref * (g 0 : Rat) / (g 1 : Rat)
    some (if wire = 0 then r - (getL d pgSfe (F.SFE_LEAD_R n) : Rat) else r)

/-- R(T) / R0 of the Callendar–Van Dusen model, T in 1/128 °C (R287).
(Log: 128 DEDUCED.) -/
def cvd (k : Int) : Rat :=
  let t : Rat := (k : Rat) / 128
  let q := 1 + 39083 / 10000000 * t - 5775 / 10000000000 * (t * t)
  if k < 0 then q - 4183 / 1000000000000000 * ((t - 100) * (t * t * t)) else q

/-- The greatest T, from `lo` up to `lo + 2^fuel − 1`, with R(T) / R0 not above `q`.
(Log: 128 DEDUCED.) -/
def cvdSolve : Nat → Int → Rat → Int
  | 0, lo, _ => lo
  | fuel + 1, lo, q =>
    let m := lo + (2 ^ fuel : Nat)
    cvdSolve fuel (if cvd m ≤ q then m else lo) q

/-- The temperature of a PT channel, solved to ±1 LSB, and whether it saturates (R287).
(Log: 128 DEDUCED.) -/
def ptTemp (q : Rat) : Int × Bool :=
  if q < cvd (-32767) then (-32767, true)
  else if cvd 32767 < q then (32767, true)
  else
    let t := cvdSolve 16 (-32768) q
    (clampI (-32767) 32767 (if Config.ptUp q then t + 1 else t), false)

/-- The temperature of an NTC channel, one of the two codes next to its value, and whether it saturates (R287).
(Log: 129 DESIGN CHOICE.) -/
def ntcTemp (q : Rat) (beta : Nat) : Int × Bool :=
  let inv := fxOf 100 29815 + fxLn q.num.toNat q.den / (beta : Int)
  if inv ≤ 0 then (32767, true)
  else
    let t := fxNear 7 0 (fxDiv fxOne inv - fxOf 27315 100) (Config.ntcTemp q beta)
    if t < -32767 then (-32767, true) else if 32767 < t then (32767, true) else (t, false)

/-- The rational rounded to the nearest integer. -/
def rneRat (q : Rat) : Int := rne q.num q.den

/-- The converted result of channel `n`: the value for the record, and whether it saturates (R287). A resistance of
0 / 0, or a ratio to RNOM = 0, leaves the value open.
(Log: 130 DESIGN CHOICE.) -/
def sfeValue (d : Dev) (n : Nat) (r : Option Rat) : Dev × Int × Bool :=
  let ty := getL d pgSfe (F.SFE_TYPE n)
  let rn := getL d pgSfe (F.SFE_RNOM n)
  let beta := getL d pgSfe (F.SFE_BETA n)
  match r with
  | some q =>
    if 2 ≤ ty then (d, clampI 0 (2 ^ 32 - 1) (rneRat q), false)
    else if rn = 0 ∨ (ty = 1 ∧ (q ≤ 0 ∨ beta = 0)) then
      let (v, d) := freeV d
      (d, sx 16 v, false)
    else
      let (v, sat) := if ty = 0 then ptTemp (q / (rn : Rat)) else ntcTemp (q / (rn : Rat)) beta
      (d, v, sat)
  | none =>
    let (v, d) := freeV d
    (d, (if 2 ≤ ty then ((v % 2 ^ 32 : Nat) : Int) else sx 16 v), false)

/-- A measurement of channel `n` for entry `r.x` is complete and kept.
(Log: 94 DEDUCED.) -/
def sfeKeep (d : Dev) (c n : Nat) (r : SvcRun) (s : List Int) : Dev :=
  let (d, v, sat) := sfeValue d n (sfeOhms d n s)
  let d := onlyIf sat (fun d => bump d pgSvc F.SVC_SATURATIONS) d
  let d := bump d pgSfe (F.SFE_MEASUREMENTS n)
  let temp := decide (getL d pgSfe (F.SFE_TYPE n) < 2)
  let d := onlyIf temp (fun d => setS d pgSfe (F.SFE_TEMP n) v) d
  let from_ := r.first.getD r.at_
  let at_ := d.time.base + 327680 * ((from_ + d.ticks : Nat) : Int)
  let d := { d with sfeAt := Store.set d.sfeAt 0 n (d.ticks + 1) }
  let d := onlyIf temp (fun d => (List.range 12).foldl (refResult n v (from_ + d.ticks : Nat)) d) d
  putResult (endRun d c r) r.x v (ux 32 v) at_

/-- The sums of the phases from the raw codes, each corrected (R273, R286).
(Log: 131 DEDUCED.) -/
def phaseSums (d : Dev) (c per : Nat) : Nat → List Int → List Int
  | 0, _ => []
  | k + 1, l => sumI ((l.take per).map (svcCode d c true)) :: phaseSums d c per k (l.drop per)

/-- SFE_MEASUREMENT: the measurement that core `c` runs completes, its phases' time after its start; `raw` holds the raw codes
of its phases in their order. One in which a ball has clamped is discarded (R286, R287, R289). -/
def doSfeMeasure (t c : Nat) (raw : List Int) (d : Dev) : Dev :=
  match (svcCore d c).run with
  | none => advance d t
  | some r =>
    match wSfe r.word with
    | none => advance d t
    | some n =>
      let d := advance d (max t (r.at_ + sfeTicks d n r.word - r.used))
      let s := phaseSums d c (2 ^ min 6 (wAvg r.word)) (sfePhases d n) raw
      let d := if r.bad then endRun (bump d pgSfe (F.SFE_CLAMPS n)) c r else sfeKeep d c n r s
      svcNext d c

def execSfeMeasurement (t svc : Nat) (raw : List Int) (s : State) : Host.Outcome State Fault Refusal :=
  act (decide (svc < 2)) s (doSfeMeasure t svc raw)

/-- The run of core `c`, in progress or paused, that measures channel `n` ends without a result. -/
def dropMeasure (d : Dev) (c n : Nat) : Dev :=
  let y := svcCore d c
  let hit (o : Option SvcRun) : Bool := (o.map (fun r => wSfe r.word == some n)).getD false
  match y.run with
  | some r =>
    if hit y.run then svcNext (endRun d c r) c
    else if hit y.paused then regularDone (setSvcCore d c { y with paused := none }) c else d
  | none => if hit y.paused then svcNext (regularDone (setSvcCore d c { y with paused := none }) c) c else d

/-- WIRE_BREAK: a source of channel `n` has lost headroom for 2 µs in a measurement or a check, which ends at once (R290).
(Log: 132 DEDUCED.) -/
def doWireBreak (t n : Nat) (d : Dev) : Dev :=
  let d := advance d t
  if !(sfeBusy d n || (sfeSt d n).check.isSome) then d
  else
    let d := raise (bump d pgSfe (F.SFE_BREAKS n)) pgSfe 10
    let d := sfeClass (setSfe d n { sfeSt d n with broke := true, check := none }) n 2
    svcShow (dropMeasure (dropMeasure d 0 n) 1 n)

def execWireBreak (t sfe : Nat) (s : State) : Host.Outcome State Fault Refusal :=
  act (decide (sfe < 8)) s (doWireBreak t sfe)

/-- Measurements of channel `n` in progress at core `c` are spoilt (R289). -/
def spoilRuns (n : Nat) (d : Dev) (c : Nat) : Dev :=
  let y := svcCore d c
  let f (r : SvcRun) : SvcRun := if wSfe r.word = some n then { r with bad := true } else r
  setSvcCore d c { y with run := y.run.map f, paused := y.paused.map f }

/-- SFE_CLAMP: a ball of channel `n` clamps; CLAMP is raised at the onset (R289). -/
def doClamp (t n : Nat) (d : Dev) : Dev :=
  let d := advance d t
  let was := flagR d pgSfe (F.SFE_CLAMP n)
  let d := (List.range 2).foldl (spoilRuns n) d
  sfeOkShow (raiseOn (setR d pgSfe (F.SFE_CLAMP n) 1) pgSfe 9 was true) n

def execSfeClamp (t sfe : Nat) (s : State) : Host.Outcome State Fault Refusal :=
  act (decide (sfe < 8)) s (doClamp t sfe)

/-- SFE_CLAMP_RELEASE: no ball of channel `n` is clamped any longer (R289). -/
def doClampRelease (t n : Nat) (d : Dev) : Dev :=
  sfeOkShow (setR (advance d t) pgSfe (F.SFE_CLAMP n) 0) n

def execSfeClampRelease (t sfe : Nat) (s : State) : Host.Outcome State Fault Refusal :=
  act (decide (sfe < 8)) s (doClampRelease t sfe)

/-- SFE_CHECK: a tone check of channel `n` falls due, CHECK_S after the last one, or 1 s while OPEN, and starts where no
measurement of the channel runs (R288).
(Log: 132 DEDUCED.) -/
def doSfeCheck (t n : Nat) (d : Dev) : Dev :=
  let d := advance d t
  let x := sfeSt d n
  let per := if getR d pgSfe (F.SFE_CLASS n) = 2 then sT 1 else sT (max 1 (getL d pgSfe (F.SFE_CHECK_S n)))
  if !flagL d pgSfe (F.SFE_CHECK_EN n) || x.check.isSome || decide (d.ticks < x.lastCheck + per) || sfeBusy d n then d
  else svcShow (setSfe d n { x with check := some d.ticks, lastCheck := d.ticks })

def execSfeCheck (t sfe : Nat) (s : State) : Host.Outcome State Fault Refusal :=
  act (decide (sfe < 8)) s (doSfeCheck t sfe)

/-- The class of R288 for |Z| = `z` and lead resistances `leads`, in 2^-4 Ω.
(Log: 132 DEDUCED.) -/
def classify (d : Dev) (n z : Nat) (leads : List Nat) : Nat :=
  let hi := leads.foldl max 0
  if 200000 * 16 < z then 2
  else if z < 32 then 3
  else if z < 16 * getL d pgSfe (F.SFE_ZLO n) ∨ 16 * getL d pgSfe (F.SFE_ZHI n) < z ∨ getL d pgSfe F.SFE_LEAD_MAX < hi then 4
  else 1

/-- SFE_CHECK_DONE: after 16.384 ms the check ends with |Z| and, in 3-wire and 4-wire, the lead resistances (R288). -/
def doSfeCheckDone (t n z : Nat) (leads : List Nat) (d : Dev) : Dev :=
  match (sfeSt d n).check with
  | none => advance d t
  | some a =>
    let d := advance d (max t (a + 1638400))
    let leads := if getL d pgSfe (F.SFE_WIRE n) = 0 then [] else leads
    let d := setR d pgSfe (F.SFE_Z_LAST n) (min z (2 ^ 32 - 1))
    let d := setR d pgSfe (F.SFE_LEAD_LAST n) (min (leads.foldl max 0) 65535)
    let d := setSfe d n { sfeSt d n with check := none, broke := false }
    svcShow (sfeClass d n (classify d n z leads))

def execSfeCheckDone (t sfe z : Nat) (leads : List Nat) (s : State) : Host.Outcome State Fault Refusal :=
  act (decide (sfe < 8)) s (doSfeCheckDone t sfe z leads)

/-! ## The ticks of the loops (R292, R294) -/

/-- LOOP_TICK: loop `k` ticks; it triggers its CONTROL entry, or computes from the latest result (R292, R294).
(Log: 4 DESIGN CHOICE, 133 DEDUCED.) -/
def doLoopTick (t k : Nat) (d : Dev) : Dev :=
  let l := loop_ d k
  if !l.on then advance d t
  else
    let d := advance d (max t l.next)
    let x := lpv d (F.LOOP_IN_SEL k)
    let per := 100 * clampN 10 1000000 (lpv d (F.LOOP_PERIOD k))
    let d := setLoop d k { l with next := l.next + per, fresh := false, asked := isControl d x }
    if isControl d x then
      let d := onlyIf (l.asked && !l.fresh) (fun d => loopHold d k) d
      svcControl d x
    else if l.fresh && !l.calHold && decide (x < 72) && inputOk d x then loopCompute d k (svcRecOf d x).val
    else loopHold d k

def execLoopTick (t lp : Nat) (s : State) : Host.Outcome State Fault Refusal :=
  act (decide (lp < 8)) s (doLoopTick t lp)

end Sys2Proof.Machine
end

