-- ==== Sys2Proof/Machine/SvcCal.lean ====
section
/-! DEFINITION. The calibration of the service converter's cores (R270, R283, R284), and the 1 ms evaluation of
when a pass is due (R258). -/

namespace Sys2Proof.Machine

open Sys2Proof

/-- The service converter's calibration, with `x` for its state. -/
def setSvcCal (d : Dev) (x : SvcCalSt) : Dev := { d with svcCal := x }

/-- |T_die − T_REF| on the hub die, while the temperature trigger is on. -/
def svcDrift (d : Dev) : Nat :=
  if flagR d pgSvc F.SVC_TEMP_EN then
    match hubTemp d with
    | some t => (t - getS d pgSvc F.SVC_T_REF).natAbs
    | none => 0
  else 0

/-- DEFER_S in ticks. -/
def svcDefer (d : Dev) : Nat := sT (max 1 (getR d pgSvc F.SVC_DEFER_S))

/-- The conditions of R258 are evaluated for the service converter; its job follows (R259).
(Log: 121 DESIGN CHOICE.) -/
def svcEval (d : Dev) : Dev :=
  let x := d.svcCal
  if x.run ≠ 0 then d else
  let from_ := max x.lastPass d.boot.releaseAt
  let el := d.ticks - from_
  let s := getR d pgSvc F.SVC_CAL_PERIOD
  let timer := flagR d pgSvc F.SVC_TIMER_EN && s != 0
  let dt := 16 * clampN 4 128 (getR d pgSvc F.SVC_CAL_DT)
  let dr := svcDrift d
  let hot := decide (dt < dr)
  let old := timer && decide (sT s ≤ el)
  let due := hot || old || !x.want.isEmpty
  let dueAt := if due then some (x.dueAt.getD d.ticks) else none
  let late := (dueAt.map (fun a => decide (a + svcDefer d ≤ d.ticks))).getD false
  let forced := x.forced || decide (2 * dt ≤ dr) || (timer && decide (2 * sT s ≤ el)) || x.want.any (· != 1) || late
  let tb := x.want.foldl (fun m c => m ||| causeBit c) (x.trig ||| b2n hot ||| 2 * b2n old)
  let dueAt := if forced then some (dueAt.getD (x.dueAt.getD d.ticks)) else dueAt
  let d := setSvcCal d { x with trig := tb, dueAt := dueAt, forced := forced }
  match dueAt with
  | none => freeJob d ownSVC
  | some a =>
    let per := if timer then some (sT s) else none
    let dl := taiSec (d.time.base + 655360 * ((dueBy a (svcDefer d) from_ per : Nat) : Int))
    let d := postJob d ownSVC (openCost ownSVC) (openDur ownSVC) dl
    onlyIf forced (fun d => forceJob d ownSVC) d

/-- A cause (1 CAL_REQ, 2 CAL_FORCE, 5 no good record, 7 fence release) asks for a pass. -/
def svcWant (d : Dev) (c : Nat) : Dev :=
  let x := d.svcCal
  svcEval (setSvcCal d { x with want := if x.want.contains c then x.want else x.want ++ [c] })

/-- CAL_EVAL_TICK: every 1 ms, for line `u`, or with 12 for the service converter (R258, R270). -/
def execCalEvalTick (t u : Nat) (s : State) : Host.Outcome State Fault Refusal :=
  act (decide (u < 13)) s (fun d => let d := advance d t; if u < 12 then calEval d u else svcEval d)

/-- SVC_CAL_REQ: CTRL.CAL_REQ is written. -/
def execSvcCalReq (t : Nat) (s : State) : Host.Outcome State Fault Refusal :=
  act true s (fun d => onPage pgSvc (fun d => svcWant d 1) (advance d t))

/-- SVC_CAL_FORCE: CTRL.CAL_FORCE is written. -/
def execSvcCalForce (t : Nat) (s : State) : Host.Outcome State Fault Refusal :=
  act true s (fun d => onPage pgSvc (fun d => svcWant d 2) (advance d t))

/-- Core `c` runs or awaits an injected entry. -/
def injBusy (d : Dev) (c : Nat) : Bool :=
  let y := svcCore d c
  !y.waiting.isEmpty || (y.run.map (fun r => r.kind != 0)).getD false

/-- The status bit of core `c`. -/
def calBit (c : Nat) : Fld := if c = 0 then F.SVC_CAL0 else F.SVC_CAL1

/-- Core `c` starts to calibrate: what it runs ends; injected entries still there are held (R284).
(Log: 135 DEDUCED.) -/
def svcCalBegin (d : Dev) (c : Nat) : Dev :=
  let y := svcCore d c
  let d := match y.run with
    | some r => if r.kind = 0 then abortRegular d c
      else if r.kind = 1 then holdControl (setSvcCore d c { y with run := none }) c r.x
      else raise (bump (setSvcCore d c { y with run := none }) pgSvc F.SVC_SHOT_DROPS_CAL) pgSvc 9
    | none => d
  let ws := (svcCore d c).waiting
  let d := ws.foldl (fun d x => holdControl d c x) (setSvcCore d c { svcCore d c with waiting := [] })
  let x := d.svcCal
  let d := setSvcCal d { x with run := c + 1, coreAt_ := d.ticks }
  svcShow (loopCalHold (raise (setR d pgSvc (calBit c) 1) pgSvc 10) c)

/-- The tick from which core `c` may start: the grant, the forcing, or the end of core 0's turn. -/
def svcAsked (d : Dev) (c : Nat) : Option Nat :=
  let x := d.svcCal
  if c = 1 then (if x.run = 3 then some x.coreAt_ else none)
  else if x.run ≠ 0 ∨ x.dueAt.isNone ∨ d.ticks < x.retryAt then none
  else if x.forced then some ((jobGranted d ownSVC).getD (x.dueAt.getD 0))
  else jobGranted d ownSVC

/-- SVC_CAL_START: a granted or forced pass starts on core `c`, core 0 first, once no injected entry of it runs or
waits, or 200 µs after it could (R284).
(Log: 135 DEDUCED.) -/
def doSvcCalStart (t c : Nat) (d : Dev) : Dev :=
  let d := advance d t
  match svcAsked d c with
  | none => d
  | some a =>
    if injBusy d c ∧ d.ticks < a + usT 200 then d
    else
      let x := d.svcCal
      let d := if c = 1 then d
        else setSvcCal d { x with startAt := d.ticks, runForced := x.forced, causes := x.want, want := [],
                                  stale := [isCal d pgSvc 0, isCal d pgSvc 1], accN := 0, rejN := 0 }
      svcCalBegin d c

def execSvcCalStart (t svc : Nat) (s : State) : Host.Outcome State Fault Refusal :=
  act (decide (svc < 2)) s (doSvcCalStart t svc)

/-- The limit that a coefficient fails (R263): 0 absolute, 1 step. -/
def svcLimit (lo hi step : Int) (was : Bool) (v live : Int) : Option Nat :=
  if v < lo ∨ hi < v then some 0 else if !was ∧ step < (v - live).natAbs then some 1 else none

/-- The core's new OFS and TRIM become live, or each failing one is logged (R263, R283). -/
def svcJudge (d : Dev) (c : Nat) (ofs trim : Int) : Dev :=
  let x := d.svcCal
  let was := x.stale.getD c false
  let o := getS d pgSvc (F.SVC_OFS c)
  let k : Int := getR d pgSvc (F.SVC_TRIM c)
  let f1 := svcLimit (-16384) 16384 2048 was ofs o
  let f2 := svcLimit 498074 550502 5242 was trim k
  let log (d : Dev) (coef : Nat) (f : Option Nat) (v live : Int) : Dev := match f with
    | some l => ledgerNow d 0x0202 0xF (typeCode .svc) ([c, coef, l] ++ leBytes 4 (ux 32 v) ++ leBytes 4 (ux 32 live))
    | none => d
  if f1.isNone && f2.isNone then
    let d := setCal (setS (setS d pgSvc (F.SVC_OFS c) ofs) pgSvc (F.SVC_TRIM c) trim) pgSvc c false
    setSvcCal d { x with accN := x.accN + 1 }
  else
    let d := log (log d 1 f1 ofs o) 2 f2 trim k
    setSvcCal d { x with rejN := x.rejN + 1 }

/-- DEGRADED is set or cleared (R264). -/
def svcDegrade (d : Dev) (on : Bool) : Dev :=
  let d := onlyIf on (fun d => raise d pgSvc 13) (setR d pgSvc F.SVC_DEGRADED (b2n on))
  ledgerNow d 0x0203 0xF (typeCode .svc) [b2n on, getR d pgSvc F.SVC_REJECT_RUN]

/-- The fields of the service converter's record in its order, and whether each is signed (R265, R270). -/
def svcRecFlds : List (Fld × Bool) :=
  [(F.SVC_OFS 0, true), (F.SVC_OFS 1, true), (F.SVC_TRIM 0, false), (F.SVC_TRIM 1, false)]

/-- The older copy of the service converter's record is written; `ok`: the write is verified. The SVC page counts no
failure (R265, R270, R296).
(Log: 254 DEDUCED.) -/
def svcStore (d : Dev) (ok : Bool) : Dev :=
  let k := calOlder d 12
  let d := almPut d 12 ok (getR d pgSvc F.SVC_T_REF) (getR d pgSvc F.SVC_LAST_PASS_S) false
    (svcRecFlds.map (fun e => if e.2 then getS d pgSvc e.1 else (getR d pgSvc e.1 : Int)))
  if ok then d else ledgerNow d 0x0205 0xF (typeCode .svc) [k % 2]

/-- At start-up the better copy is loaded; without a good one OFS is 0 and TRIM 1, both cores are CAL_STALE, and a pass is
forced (R18, R266, R270). -/
def svcLoad (d : Dev) : Dev :=
  match calBest d 12 with
  | some b =>
    let r := calCopy d b
    let d := (svcRecFlds.zip r.coefs).foldl (fun d e => setS d pgSvc e.1.1 e.2) d
    setR (setR d pgSvc F.SVC_T_REF r.tRef) pgSvc F.SVC_LAST_PASS_S r.secs
  | none =>
    let d := svcRecFlds.foldl (fun d e => setR d pgSvc e.1 e.1.reset) d
    svcWant (setCal (setCal d pgSvc 0 true) pgSvc 1 true) 5

/-- The pass has ended on both cores; `ok`: the Almanac write that follows where a core was accepted is verified (R263–R265,
R271).
(Log: 135 DEDUCED.) -/
def svcPassEnd (d : Dev) (ok : Bool) : Dev :=
  let x := d.svcCal
  let d := bump d pgSvc F.SVC_PASSES
  let d :=
    if x.rejN = 0 then
      let d := setR d pgSvc F.SVC_T_REF (ux 16 ((hubTemp d).getD (-32768)))
      let d := raise (setR d pgSvc F.SVC_LAST_PASS_S (taiSec (tai d) % 2 ^ 32)) pgSvc 11
      let d := setSvcCal (setR d pgSvc F.SVC_REJECT_RUN 0)
        { x with run := 0, trig := 0, dueAt := none, forced := false, lastPass := d.ticks, retryAt := 0, causes := [] }
      onlyIf (flagR d pgSvc F.SVC_DEGRADED) (fun d => svcDegrade d false) d
    else
      let d := raise (bump d pgSvc F.SVC_PASSES_REJECTED) pgSvc 12
      let d := setR d pgSvc F.SVC_REJECT_RUN (min 15 (getR d pgSvc F.SVC_REJECT_RUN + 1))
      let keep := x.causes.filter (fun k => k != 1 && !x.want.contains k)
      let at_ := d.ticks + sT (max 1 (getR d pgSvc F.SVC_RETRY_S))
      let d := setSvcCal d { x with run := 0, want := keep ++ x.want, retryAt := at_, causes := [] }
      onlyIf (decide (3 ≤ getR d pgSvc F.SVC_REJECT_RUN) && !flagR d pgSvc F.SVC_DEGRADED) (fun d => svcDegrade d true) d
  let d := ledgerNow d 0x0201 0xF (typeCode .svc)
    ([0, x.trig, b2n x.runForced] ++ leBytes 2 x.accN ++ leBytes 2 x.rejN ++
      leBytes 2 (ux 16 ((hubTemp d).getD (-32768))) ++ leBytes 4 ((d.ticks - x.startAt) / 100))
  svcEval (onlyIf (decide (0 < x.accN)) (fun d => svcStore d ok) (freeJob d ownSVC))

/-- Core `c`'s calibration has ended or is abandoned: the held CONTROL entries run, then its sequence goes on (R284). -/
def svcResume (d : Dev) (c : Nat) : Dev :=
  let y := svcCore d c
  let d := setR d pgSvc (calBit c) 0
  let d := setSvcCore d c { y with waiting := y.held ++ y.waiting, held := [], deferred := false }
  let d := onlyIf (y.deferred && y.scan.isNone) (fun d => startScan d c) d
  svcNext d c

/-- SVC_CAL_DONE: core `c`'s calibration ends with the measured OFS and TRIM; `ok`: an Almanac write at the end of the pass
is verified (R265, R283, R284). -/
def doSvcCalDone (t c : Nat) (ofs : Int) (trim : Nat) (ok : Bool) (d : Dev) : Dev :=
  let d := advance d t
  if !svcCaling d c then d
  else
    let d := svcJudge d c ofs trim
    let x := d.svcCal
    let d := setSvcCal d { x with run := if c = 0 then 3 else 0, coreAt_ := d.ticks }
    let d := svcResume d c
    if c = 0 then d else svcPassEnd d ok

def execSvcCalDone (t svc : Nat) (meas : SvcMeas) (ok : Bool) (s : State) : Host.Outcome State Fault Refusal :=
  act (decide (svc < 2)) s (doSvcCalDone t svc meas.ofs meas.trim ok)

/-- A fence or gating abandons a pass in progress (R261). -/
def svcCalAbandon (d : Dev) : Dev :=
  let x := d.svcCal
  if x.run = 0 then d
  else
    let d := setSvcCal d { x with run := 0, want := x.causes ++ x.want.filter (fun k => !x.causes.contains k) }
    let d := setR (setR d pgSvc F.SVC_CAL0 0) pgSvc F.SVC_CAL1 0
    let d := (List.range 2).foldl (fun d c =>
      let y := svcCore d c
      setSvcCore d c { y with waiting := y.held ++ y.waiting, held := [] }) d
    ledgerNow d 0x0204 0xF (typeCode .svc) [0, 0]

end Sys2Proof.Machine
end

