-- ==== Sys2Proof/Machine/Commit.lean ====
section
/-! DEFINITION. Commits: requests, cancellation, capture, and the commits that apply at once (R29, R49, R66, R67,
R80–R82, R84, R85, R87). -/

namespace Sys2Proof.Machine

open Sys2Proof

/-! ## What STATUS shows -/

/-- BUSY, PLAN_PENDING and SHOT_PENDING of line `n` (R89). -/
def commitShow (d : Dev) (n : Nat) : Dev :=
  let x := line d n
  let whole := x.plan.isSome && planDiffers d n
  let cap := (x.cap.map (fun c => !c.shotKind)).getD false
  let capS := (x.cap.map (·.shotKind)).getD false
  let run := lineOn d n && x.base != 6
  let p := pgLine n
  let d := setR d p cBUSY (b2n (x.plan.isSome || x.shot.isSome || x.cap.isSome || x.capShot.isSome))
  let d := setR d p F.LINE_PLAN_PENDING (b2n (run && (whole || cap)))
  setR d p F.LINE_SHOT_PENDING (b2n (run && (x.shot.isSome || x.capShot.isSome || capS || (x.plan.isSome && !whole))))

/-- Shot number `k` of line `n` is a plan boundary (R74, R76). -/
def isBoundary (d : Dev) (n k : Nat) : Bool := k % 2 ^ lv d n F.LINE_PLAN_CYCLE == 0

/-! ## Requests (R80–R82, R84, R85) -/

/-- A commit of line `n` is refused (R85). -/
def reject (d : Dev) (n : Nat) : Dev :=
  bump (raise d (pgLine n) 9) (pgLine n) F.LINE_PLAN_REJECTS

/-- The overrides in force for line `n`.
(Log: 41 DESIGN CHOICE.) -/
def ovNow (d : Dev) (n : Nat) : List Nat := Store.get d.paceOv [] n

/-- COMMIT_LATE of line `n` (R49, R81).
(Log: 38 DEDUCED.) -/
def lateEvent (d : Dev) (n : Nat) : Dev := raiseRegion d n 3

/-- The COMMIT request of line `n` misses its first point. -/
def latePlan (d : Dev) (n : Nat) : Dev :=
  let x := line d n
  match x.plan with
  | some q => if q.late then d else lateEvent (setLine d n { x with plan := some { q with late := true } }) n
  | none => d

/-- So does the COMMIT_SHOT request. -/
def lateShot (d : Dev) (n : Nat) : Dev :=
  let x := line d n
  match x.shot with
  | some q => if q.late then d else lateEvent (setLine d n { x with shot := some { q with late := true } }) n
  | none => d

/-- A commit request of line `n` that comes within 200 ticks of the point it would have is late at once. -/
def requestLate (d : Dev) (n : Nat) (shot : Bool) : Dev :=
  let x := line d n
  match x.next with
  | none => d
  | some e =>
    if d.ticks + 200 ≤ e then d
    else if shot then lateShot d n
    else if !planDiffers d n ∨ isBoundary d n x.nextNo then latePlan d n else d

/-- COMMIT in the region of line `n`.
(Log: 43 DESIGN CHOICE.) -/
def commitLine (d : Dev) (n : Nat) : Dev :=
  let d := checkShow d n
  let x := line d n
  if getR d (pgLine n) F.LINE_REASON ≠ 0 then reject d n
  else if x.plan.isSome then d
  else
    let d := setLine d n { x with plan := some ⟨d.ticks, false⟩ }
    let d := onlyIf (lineOn d n && x.base != 6 && planDiffers d n)
      (fun d => wakeAll d (neededBy d n .staged (ovNow d n))) d
    commitShow (requestLate d n false) n

/-- COMMIT written on page `p` (R43, R49, R495). -/
def commitPage (d : Dev) (p : Nat) : Dev :=
  if p = pgPaceTbl then d
  else match regionOf p with
  | none => d
  | some r => if r < 12 then commitLine d r
    else if d.commitPend.contains r then d else { d with commitPend := d.commitPend ++ [r] }

def doCommit (t p : Nat) (d : Dev) : Dev :=
  let d := advance d t
  if pageOk p then onPage p (fun d => commitPage d p) d else badAccess d

def execCommit (t pg : Nat) (s : State) : Host.Outcome State Fault Refusal := act true s (doCommit t pg)

/-- LINE.CTRL.COMMIT_SHOT (R80). -/
def commitShot (d : Dev) (n : Nat) : Dev :=
  let x := line d n
  if x.shot.isSome then d
  else commitShow (requestLate (setLine d n { x with shot := some ⟨d.ticks, false⟩ }) n true) n

def execCommitShot (t ln : Nat) (s : State) : Host.Outcome State Fault Refusal :=
  act (decide (ln < 12)) s (fun d => onPage (pgLine ln) (fun d => commitShot d ln) (advance d t))

/-! ## Capture (R49, R65, R80–R82, R85) -/

/-- The banks that the staged BANK of captured plan commit `w` of line `n` names, one of each pipe, run from its capture on
(R139). -/
def captureBanks (d : Dev) (n : Nat) (w : PlanSrc) : Dev :=
  (List.range 8).foldl (fun d s =>
    bankShow (setPipe d n s { pipe d n s with capBank := some (planVal d w (pgSlot n s) F.SLOT_BANK) }) n s) d

/-- COMMIT_SHOT is captured for slot-0 instant `e`. -/
def captureShot (d : Dev) (n e : Nat) : Dev :=
  let x := line d n
  match x.shot with
  | some q =>
    if q.reqAt + 200 ≤ e then setLine d n { x with shot := none, capShot := some ⟨true, q.late, captureNow d n⟩ } else d
  | none => d

/-- A COMMIT that is a plan commit meets plan boundary `e`. -/
def capturePlan (d : Dev) (n e : Nat) (q : PendC) : Dev :=
  if (line d n).cal then latePlan d n
  else
    let l := neededBy d n .staged (ovNow d n)
    let d := wakeAll d l
    if !allReady d l e then latePlan d n
    else
      let d := checkShow d n
      let x := line d n
      if getR d (pgLine n) F.LINE_REASON ≠ 0 then reject (setLine d n { x with plan := none }) n
      else
        let fine := getR d (pgLine n) F.LINE_FINE == 1 && !inFine d n
        let c : CapC := ⟨false, q.late, captureNow d n⟩
        let d := setLine d n { x with plan := none, cap := some c }
        calCapture (captureBanks d n (.captured c.vals)) n fine

/-- COMMIT is captured for slot-0 instant `e`, where that is its point.
(Log: 39 DEDUCED.) -/
def captureCommit (d : Dev) (n e : Nat) : Dev :=
  let x := line d n
  match x.plan with
  | some q =>
    if e < q.reqAt + 200 then d
    else if planDiffers d n then
      if isBoundary d n x.nextNo then capturePlan d n e q else d
    else setLine d n { x with plan := none, cap := some ⟨true, q.late, captureNow d n⟩ }
  | none => d

/-- The capture instant of slot-0 instant `e`, once. -/
def capture (d : Dev) (n e : Nat) : Dev :=
  let x := line d n
  if x.capFor = some e then d
  else
    let ovc := if isBoundary d n x.nextNo then some (ovNow d n) else none
    let d := setLine d n { x with capFor := some e, ovCap := ovc }
    commitShow (captureCommit (captureShot d n e) n e) n

/-- COMMIT_CAPTURE: 200 ticks before line `n`'s next slot-0 instant. -/
def doCapture (t n : Nat) (d : Dev) : Dev :=
  match (line d n).next with
  | some e => if (line d n).capFor = some e then advance d t else capture (advance d (max t (e - 200))) n e
  | none => advance d t

def execCommitCapture (t ln : Nat) (s : State) : Host.Outcome State Fault Refusal :=
  act (decide (ln < 12)) s (doCapture t ln)

/-- The capture instant of line `n` that has come is taken, where it has not been.
(Log: 235 DEDUCED.) -/
def captureDue (d : Dev) (n : Nat) : Dev :=
  match (line d n).next with
  | some e => if e ≤ d.ticks + 200 then capture d n e else d
  | none => d

/-- A write of a coefficient window: in the tick of a capture instant, and later, it meets a bank that the capture made
running as running (R140).
(Log: 235 DEDUCED.) -/
def coefStore (d : Dev) (n s w v : Nat) : Dev := coefWrite (captureDue d n) n s w v

/-- COEF_WRITE. -/
def doCoefWrite (t n s w v : Nat) (d : Dev) : Dev :=
  onPage (pgCoef n s) (fun d => coefStore d n s w v) (advance d t)

def execCoefWrite (t ln slot w v : Nat) (s : State) : Host.Outcome State Fault Refusal :=
  act (decide (ln < 12) && decide (slot < 8) && decide (w < 2048)) s (doCoefWrite t ln slot w v)

/-- LINE.CTRL.CANCEL withdraws what is pending and not captured; at its capture instant, and after it, a commit is
captured first (R84).
(Log: 235 DEDUCED, 249 DESIGN CHOICE.) -/
def cancelLine (d : Dev) (n : Nat) : Dev :=
  let d := captureDue d n
  let x := line d n
  if x.plan.isNone ∧ x.shot.isNone then d
  else
    let d := bump (setLine d n { x with plan := none, shot := none }) (pgLine n) F.LINE_CANCELS
    commitShow (gateUnused d n) n

def execCancel (t ln : Nat) (s : State) : Host.Outcome State Fault Refusal :=
  act (decide (ln < 12)) s (fun d => onPage (pgLine ln) (fun d => cancelLine d ln) (advance d t))

/-! ## Commits of lines that are OFF or DARK, and of service regions (R29, R66, R82, R87) -/

/-- The receiver cores of line `n` that serve inputs are CAL_STALE. -/
def coresStale (d : Dev) (n : Nat) : Dev :=
  rxShow ((List.range 4).foldl (fun d i => setCal d (pgRx n) (coreAt d (pgRx n) i) true) d) n

/-- Line `n`'s partner becomes DARK and serves it, a start of its own that waits given up; without accepted SKEW a pass is due,
and the cores that serve it are CAL_STALE until then (R66, R114, R258). -/
def partnerDark (d : Dev) (n : Nat) : Dev :=
  let m := partner n
  if (line d m).base = 6 then d
  else
    let d := onlyIf (line d m).waitWake (fun d => setR (setR d (pgLine m) F.LINE_IN_GAP 0) (pgLine m) F.LINE_ST_FINE 0) d
    let d := lineShow (setLine d m { line d m with base := 6, waitWake := false }) m 7
    let d := gateUnused (wakeCluster (framesShow d m) m 0) m
    onlyIf (!(calSt d n).skewOk) (fun d => calEval (calDue (coresStale d m) n 6) n) d

/-- Line `n`'s partner leaves DARK (R66, R88). -/
def partnerOff (d : Dev) (n : Nat) : Dev :=
  let m := partner n
  if (line d m).base = 6 then
    let d := lineShow (setLine d m { line d m with base := 0 }) m 7
    commitShow (gateUnit d m 0) m
  else d

/-- A line starts from OFF: its clusters wake, and in fine mode its partner becomes DARK (R66, R87).
(Log: 40 DESIGN CHOICE.) -/
def startFrom (d : Dev) (n : Nat) : Dev :=
  let ov := ovNow d n
  let d := planShow (override d n ov) n
  let d := setLine d n { line d n with waitWake := true, ov := ov, paceStop := false }
  let d := setR d (pgLine n) F.LINE_IN_GAP 1
  let fine := flagL d (pgLine n) F.LINE_FINE
  let d := setR d (pgLine n) F.LINE_ST_FINE (b2n fine)
  let d := if fine then partnerDark d n else partnerOff d n
  gateUnused (wakeAll d (keepSet d n)) n

/-- A start that waits is given up, because a commit sets RUN to 0.
(Log: 40 DESIGN CHOICE.) -/
def startDrop (d : Dev) (n : Nat) : Dev :=
  let d := setLine d n { line d n with waitWake := false }
  let d := setR (setR d (pgLine n) F.LINE_IN_GAP 0) (pgLine n) F.LINE_ST_FINE 0
  gateUnused (partnerOff d n) n

/-- The COMMIT that waits on OFF or DARK line `n` would put a line into operation: its staged plan runs. -/
def startsOff (d : Dev) (n : Nat) : Bool :=
  (line d n).plan.isSome && !(line d n).waitWake && pLine d .staged n F.LINE_RUN == 1

/-- What a plan commit that applied on OFF line `n` does to its operation (R66, R87, R435, R445); a line that failed its
start-up test stays OFF. -/
def offRun (d : Dev) (n : Nat) : Dev :=
  let run := flagL d (pgLine n) F.LINE_RUN
  if (line d n).base ≠ 0 ∨ (run && bit (getR d pgPkg F.PKG_LINE_FAILED) n) then d
  else if run then (if linesHeld d then holdLine d n true else startFrom d n)
  else if linesHeld d then holdLine d n false
  else if (line d n).waitWake then startDrop d n
  else d

/-- The commits that wait on OFF or DARK line `n` apply, one after the other: COMMIT_SHOT, then COMMIT (R11, R80, R82). A
COMMIT with a plan commit's effect whose check fails now is refused (R85).
(Log: 39 DEDUCED, 41 DESIGN CHOICE, 42 DESIGN CHOICE.) -/
def offApply (d : Dev) (n : Nat) : Dev :=
  let x := line d n
  let judged := x.plan.isSome && (planDiffers d n || startsOff d n)
  let d := onlyIf judged (fun d => checkShow d n) d
  let bad := judged && getR d (pgLine n) F.LINE_REASON != 0
  let d0 := onlyIf bad (fun d => reject d n) (setLine d n { x with plan := none, shot := none })
  let whole := x.plan.isSome && !bad
  if !whole && x.shot.isNone then commitShow d0 n
  else
    let d := override (putPlan d0 n .staged whole d0) n (line d0 n).ov
    let d := onlyIf x.shot.isSome (fun d => lineCommitted d n false) d
    let d := onlyIf whole (fun d => lineCommitted d n false) d
    let d := liveShow d0 (starterConfig d0 d n) n d.ticks
    commitShow (onlyIf whole (fun d => offRun d n) d) n

/-- Line `n` is to be tested in the self-test run in progress, and its test has not ended (R444, R465).
(Log: 224 DEDUCED.) -/
def testDue (d : Dev) (n : Nat) : Bool :=
  match d.bist with
  | none => false
  | some b => b.todo.any (fun e => e.1 == n) || (b.cur.map (fun c => c.1 == n)).getD false

/-- A service region applies its commit (R29); the service converter, the loops and the pace table act on it
(R278, R292, R438). -/
def serviceApply (d : Dev) (r : Nat) : Dev :=
  let d := { d with commitPend := d.commitPend.filter (· != r) }
  let d := epochCommit (putPlan d r .staged true d) r
  if r = regService then paceActs (loopCommit (svcCommit d)) else d

/-- IMMEDIATE_COMMIT_APPLY: the commit waiting in region `r` applies (R29, R66, R82).
(Log: 10 DESIGN CHOICE.) -/
def doImmediate (t r : Nat) (d : Dev) : Dev :=
  let d := advance d t
  if isFenced d r || testDue d r then d
  else if r < 12 then
    let x := line d r
    if (x.base = 0 ∨ x.base = 6) ∧ (x.plan.isSome ∨ x.shot.isSome) then offApply d r else d
  else if d.commitPend.contains r then serviceApply d r else d

def execImmediateCommitApply (t region : Nat) (s : State) : Host.Outcome State Fault Refusal :=
  act (decide (region < 17)) s (doImmediate t region)

end Sys2Proof.Machine
end

