-- ==== Sys2Proof/Machine/Slot0.lean ====
section
/-! DEFINITION. The shot timeline: slot-0 instants, slot launches, plan changes, starts and stops (R63–R66, R72–R78,
R83, R86–R88). -/

namespace Sys2Proof.Machine

open Sys2Proof

/-! ## Commit points (R81, R83, R86, R88) -/

/-- The values captured in `c` apply to line `n` (R80).
(Log: 38 DEDUCED, 39 DEDUCED.) -/
def applyCap (d : Dev) (n : Nat) (c : CapC) : Dev :=
  lineCommitted (putPlan d n (.captured c.vals) (!c.shotKind) d) n c.late

/-- A captured shot commit applies at slot-0 instant `e`. -/
def applyShot (e n : Nat) (d : Dev) (c : CapC) : Dev :=
  let d1 := liveShow d (applyCap d n c) n e
  starterApplied d d1 n

/-- The captured shot commits of line `n` apply; what is left is a captured plan commit. -/
def shotPoint (d : Dev) (n e : Nat) : Dev :=
  let x := line d n
  let caps := x.capShot.toList ++ (x.cap.toList.filter (·.shotKind))
  let d := setLine d n { x with capShot := none, cap := if (x.cap.map (·.shotKind)).getD false then none else x.cap }
  caps.foldl (applyShot e n) d

/-- Requests that missed slot-0 instant `e` are late (R81). -/
def missPoint (d : Dev) (n : Nat) (bnd : Bool) : Dev :=
  let d := lateShot d n
  if (line d n).plan.isSome && (bnd || !planDiffers d n) then latePlan d n else d

/-- At a plan boundary without a launch, slot 0's launch instant of the old plan yields its launch word with SKIPPED; those of
the old plan's other slots follow in the gap (R134). -/
def gapBegin (d : Dev) (n : Nat) : Dev :=
  let x := line d n
  let k := slotsN d n
  let step := if flagL d (pgLine n) F.LINE_MODE then 0 else x.period / max 1 k
  setLine d n { x with gapN := k, gapStep := step, launched := false, launches := [0] }

def skipWord (d : Dev) (n b : Nat) : Dev :=
  if (line d n).gapN = 0 then d else pipeLaunch d n 0 b (line d n).l0No true

/-- The old plan of line `n` ends at boundary `b` (R86): no launch follows it.
(Log: 44 DEDUCED.) -/
def oldEnds (d : Dev) (n b : Nat) : Dev :=
  let d := closeStack (planEnds (gapBegin d n) n b) n b
  bump d (pgLine n) F.LINE_SKIPPED

/-- The banks named by a captured plan run as the live ones now. -/
def banksApplied (d : Dev) (n : Nat) : Dev :=
  (List.range 8).foldl (fun d s => bankShow (setPipe d n s { pipe d n s with capBank := none }) n s) d

/-- PLAN_ID, PLAN_CHANGES and PLAN_APPLIED of a plan change or a start (R86, R87). -/
def planApplied (d : Dev) (n : Nat) : Dev :=
  let p := pgLine n
  let d := setR d p F.LINE_PLAN_ID (planId d n + 1)
  raise (bump d p F.LINE_PLAN_CHANGES) p 8

/-- The grid is valid and the live plan of line `n` asks for it (R74, R77). -/
def onGrid (d : Dev) (n : Nat) : Bool :=
  flagL d (pgLine n) F.LINE_TIMING && flagR d pgTime F.TIME_GRID_VALID

/-- The line's state, SYNC_LOST and new timeline from tick `from_` on; in SELF the first launch takes number `no`
(R76, R77, R86).
(Log: 46 DESIGN CHOICE.) -/
def newTimeline (d : Dev) (n from_ no : Nat) : Dev :=
  let p := pgLine n
  let per := max 1 (lv d n F.LINE_PERIOD)
  let grid := onGrid d n
  let e := if grid then nextGrid d per (lv d n F.LINE_GRID_PHASE) from_ else from_
  let k := if grid then gridShot d per (lv d n F.LINE_GRID_PHASE) e else no
  let d := setLine d n { line d n with base := if grid then 2 else 1, next := some e, nextNo := k, period := per,
                                       gap := true, gridAt := none }
  setR (setR d p F.LINE_SYNC_LOST (b2n (flagL d p F.LINE_TIMING && !grid))) p F.LINE_IN_GAP 1

/-- A plan change at boundary `b`: by a captured plan commit, by the overrides `ov`, or by the return to LOCKED
(R77, R86, R429).
(Log: 46 DESIGN CHOICE.) -/
def planChange (d : Dev) (n b : Nat) (cap : Option CapC) (ov : List Nat) : Dev :=
  let p := pgLine n
  let old := (line d n).period
  let oldFine := flagL d p F.LINE_FINE
  let lost := flagR d p F.LINE_SYNC_LOST
  let d := oldEnds d n b
  let d0 := d
  let d := match cap with
    | some c => applyCap d n c
    | none => d
  let d := override d n ov
  let d := planApplied d n
  let d := setLine d n { line d n with cap := none, ov := ov }
  let d := newTimeline d n (b + old) ((line d n).l0No + 1)
  let fine := flagL d p F.LINE_FINE
  let d := setR d p F.LINE_ST_FINE (b2n fine)
  let d := if fine && !oldFine then partnerDark d n
    else if oldFine && !fine then setLine d n { line d n with darkEnd := some (b + old) } else d
  let back := lost && (line d n).base == 2
  let d := onlyIf back (fun d => raise d p 11) d
  let d := lineShow d n (if back then 2 else 0)
  let d := liveShow d0 (banksApplied d n) n b
  starterApplied d0 (diagClear d n) n

/-- A stop at instant `b` (R88), by a captured plan commit, by Pacer (R435) or by a shut-down (R453). -/
def planStop (d : Dev) (n b : Nat) (cap : Option CapC) : Dev :=
  let x := line d n
  let d := oldEnds d n b
  let d0 := d
  let d := match cap with
    | some c => override (applyCap d n c) n x.ov
    | none => d
  let d := setLine d n { line d n with cap := none, next := none, stopAt := some (b + x.period), gap := true, gridAt := none }
  let d := setR d (pgLine n) F.LINE_IN_GAP 1
  starterApplied d0 (liveShow d0 (banksApplied d n) n b) n

/-- What a plan boundary of a running plan closes: the reference collection, the splits and the channels that
take them (R105, R109, R322). -/
def boundaryWork (d : Dev) (n : Nat) : Dev := pfBoundary (splitLatch (refBoundary d n) n) n

/-! ## PAUSED (R64, R107, R261) -/

/-- PAUSED follows PAUSE.PAUSE and the pace step at a slot-0 instant; `was`: PAUSE was live at the previous one.
(Log: 47 DESIGN CHOICE.) -/
def pausePoint (d : Dev) (n : Nat) (was : Bool) : Dev :=
  let x := line d n
  let reg := flagL d (pgLine n) F.LINE_PAUSE
  let want := reg || flagR d (pgLine n) F.LINE_PAUSE_PACE
  if want && !x.paused then
    let d := setLine d n { x with paused := true }
    let d := setStarter d n { starter d n with goodFrom := none, goodN := 0 }
    let d := onlyIf ((calSt d n).run == 2) (fun d => calAbandon d n 3) d
    lineShow d n (if reg then 5 else 6)
  else if !want && x.paused then
    lineShow (setLine d n { x with paused := false, clearDue := true }) n (if was then 5 else 6)
  else d

/-! ## Launches -/

/-- The filters of pipes and gauge clear before the launch at tick `e` (R64, R86, R146, R161). -/
def filtersClear (d : Dev) (n e : Nat) : Dev := gaugeClear (pipesClear d n e) n e

/-- GREF of the plan that begins at tick `e`: samples from there on are referred to it (R116). -/
def grefNote (d : Dev) (n e : Nat) : Dev :=
  let x := rx d n
  let l := x.grefs ++ [(sampleOf e, getL d (pgRx n) F.RX_GREF)]
  setRx d n { x with grefs := l.drop (l.length - 2) }

/-- The first slot-0 instant of a plan at tick `e`: the gap or start wait ends (R86, R87, R165).
(Log: 45 DESIGN CHOICE.) -/
def firstInstant (d : Dev) (n e : Nat) : Dev :=
  let x := line d n
  let d := setLine d n { x with gap := false, starting := false, darkEnd := none, gapN := 0 }
  let d := if x.darkEnd.isSome then partnerOff d n else d
  let d := setR d (pgLine n) F.LINE_IN_GAP 0
  let d := onlyIf x.starting (fun d => planApplied (diagClear d n) n) d
  let d := onlyIf (x.starting && flagL d (pgStarter n) F.STARTER_SAFE_HOLD) (fun d => safeEnter d n 4) d
  let d := tauShow (grefNote (planShow d n) n e) n e
  planStarts (filtersClear d n e) n e

/-- Slot 0 launches at `e` with shot number `no`, or is skipped (R63, R107). -/
def launch0 (d : Dev) (n e no : Nat) (first : Bool) : Dev :=
  let st := lineState d n
  let can := st == 1 || st == 2 || (st == 4 && no % 100 == 0)
  let clear := can && (line d n).clearDue
  let d := onlyIf (clear && !first) (fun d => filtersClear d n e) d
  let d := setLine d n { line d n with launched := can, launches := [0], clearDue := (line d n).clearDue && !can }
  let d := polDrops (gainAtLaunch d n e (first || clear)) n
  if can then
    let d := bump d (pgLine n) F.LINE_SHOTS
    shotsAt (pfSlot0 (pipeLaunch (starterLaunch d n 0 e) n 0 e no false) n true) n
  else
    pfSlot0 (pipeLaunch (bump d (pgLine n) F.LINE_SKIPPED) n 0 e no true) n false

/-- A slot-0 instant at which the plan goes on. -/
def plainInstant (d : Dev) (n e no : Nat) (bnd was : Bool) : Dev :=
  let first := (line d n).gap
  let d := onlyIf first (fun d => firstInstant d n e) d
  let d := pausePoint (safeExit d n) n was
  let d := partnerCatchUp (lineCatchUp d n e bnd) n e
  let d := launch0 (starterSlot0 d n) n e no first
  stackSlot0 d n e no

/-- A slot-0 instant that ends the plan: no launch, but the commit point completes catch-ups (R14, R86). -/
def endInstant (d : Dev) (n e no : Nat) (was stops : Bool) : Dev :=
  let d := skipWord d n e
  let d := pausePoint (safeExit d n) n was
  let d := partnerCatchUp (lineCatchUp d n e true) n e
  let d := polDrops (gainAtLaunch d n e false) n
  let d := pfSlot0 (starterSlot0 d n) n false
  if stops then d else stackSlot0 d n e no

/-- Line `n`'s slot-0 instant `e` (R64, R74–R77, R81). -/
def slot0 (d : Dev) (n e : Nat) : Dev :=
  let d := capture d n e
  let x := line d n
  let p := pgLine n
  let no := x.nextNo
  let bnd := isBoundary d n no
  let was := flagL d p F.LINE_PAUSE
  let d := setLine d n { x with l0 := e, l0No := no, next := some (e + x.period), nextNo := no + 1, ovCap := none }
  let d := setR d p F.LINE_SHOT_NO no
  let d := levelKeep (onlyIf (bnd && !x.gap) (fun d => boundaryWork d n) d) n
  let d := missPoint (shotPoint d n e) n bnd
  let cap := (line d n).cap
  let ov := x.ovCap.getD x.ov
  let halt := d.boot.stop.isSome
  let stops := halt || bnd && ((cap.map (fun c => pLine d (.captured c.vals) n F.LINE_RUN == 0)).getD false || x.paceStop)
  let back := bnd && flagR d p F.LINE_SYNC_LOST && onGrid d n &&
    (x.gridAt.map (fun g => decide (g + 200 ≤ e))).getD false
  let change := bnd && (cap.isSome || back || (x.ovCap.isSome && overDiffers d n ov))
  let d := if stops then endInstant (planStop d n e (if bnd then cap else none)) n e no was true
    else if change then endInstant (planChange d n e cap ov) n e no was false
    else plainInstant (onlyIf bnd (fun d => tauShow (setLine d n { line d n with ov := ov }) n e) d) n e no bnd was
  let d := eligShow (stackShow (framesShow (gateUnused d n) n) n) n
  nextShow (commitShow d n) n

/-- SLOT0_INSTANT: line `n`'s next slot-0 instant.
(Log: 2 DESIGN CHOICE.) -/
def doSlot0 (t n : Nat) (d : Dev) : Dev :=
  match (line d n).next with
  | none => advance d t
  | some e => slot0 (advance d (max t e)) n e

def execSlot0Instant (t ln : Nat) (s : State) : Host.Outcome State Fault Refusal :=
  act (decide (ln < 12)) s (doSlot0 t ln)

/-- SLOT_LAUNCH: slot `s` of the current shot reaches its launch instant (R72, R73). It launches where S0 did and
the line has not entered SAFE (R106). In a transition gap it is a slot of the old plan, and is skipped (R134).
(Log: 44 DEDUCED.) -/
def doSlotLaunch (t n s : Nat) (d : Dev) : Dev :=
  let x := line d n
  let gap := x.gap || x.stopAt.isSome
  let k := if gap then x.gapN else slotsN d n
  let step := if gap then x.gapStep else if flagL d (pgLine n) F.LINE_MODE then 0 else x.period / max 1 k
  if s = 0 ∨ k ≤ s ∨ x.launches.contains s ∨ x.launches.isEmpty ∨ x.base = 0 ∨ x.base = 6 then advance d t
  else
    let at_ := x.l0 + s * step
    let d := advance d (max t at_)
    let d := setLine d n { x with launches := x.launches ++ [s] }
    let go := x.launched && lineState d n != 4
    let d := onlyIf go (fun d => starterLaunch d n s at_) d
    pipeLaunch d n s at_ x.l0No (!go)

def execSlotLaunch (t ln slot : Nat) (s : State) : Host.Outcome State Fault Refusal :=
  act (decide (ln < 12) && decide (slot < 8)) s (doSlotLaunch t ln slot)

/-! ## Starts (R87) -/

/-- What a start from OFF begins afresh: frames, Stacks, detectors and sequencer inputs, the rolling record. -/
def freshRun (d : Dev) (n : Nat) : Dev :=
  let d := stackFresh (framesFresh d n) n
  let x := hurdle d n
  let anew (y : SeqSt) : SeqSt := { y with entered := false, sig := false }
  let d := setHurdle d n { x with ms := [], prevP := [], detPlan := none, steps := [], arrived := none,
                                  seq0 := anew x.seq0, seq1 := anew x.seq1 }
  setRoll (rollInvalidate d n 0 (rollSize d n) (idxSize d n)) n RollSt.reset

/-- The start instant of line `n` at tick `a`. -/
def startAt (d : Dev) (n a : Nat) : Dev :=
  let d := freshRun d n
  let d := setLine d n { line d n with waitWake := false, starting := true, cal := false, paused := false, clearDue := false,
                                       launches := [], launched := false, capFor := none, ovCap := none }
  let d := newTimeline d n a 0
  let d := nextShow (commitShow (framesShow (lineShow d n 0) n) n) n
  if (line d n).base = 1 then slot0 d n a else d

/-- LINE_START: the last cluster that the start needs is ready, and 200 ticks have passed (R87).
(Log: 49 DESIGN CHOICE.) -/
def doLineStart (t n : Nat) (d : Dev) : Dev :=
  if !(line d n).waitWake ∨ isFenced d n then advance d t
  else
    let l := keepSet d n
    let a := readyTick d l + 200
    let d := advance d (max t a)
    let d := l.foldl (fun d c => if (cluster d c.1 c.2).waking then clusterReady d c.1 c.2 else d) d
    startAt d n d.ticks

def execLineStart (t ln : Nat) (s : State) : Host.Outcome State Fault Refusal :=
  act (decide (ln < 12)) s (doLineStart t ln)

/-! ## Stops (R88) -/

/-- The blocks of line `n` as a stop leaves them: nothing launched, no gain, no window. What is known of its cores stays.
(Log: 245 DESIGN CHOICE.) -/
def lineIdle (d : Dev) (n : Nat) : Dev :=
  let d := clipRun d n d.ticks
  let x := starter d n
  let d := setStarter d n { StarterSt.reset with refLearn := x.refLearn, driven := x.driven, safeSpans := x.safeSpans }
  let d := [F.STARTER_BREAK_RUN, F.STARTER_DERATING, F.STARTER_SRC_INVALID].foldl (fun d f => setR d (pgStarter n) f 0) d
  let d := setR d (pgStarter n) F.STARTER_LEVEL_LIMIT 4095
  let d := refShow (levelPut d n 0) n
  let y := rx d n
  let d := setRx d n { RxSt.reset with stuckRun := y.stuckRun, failAt := y.failAt, serveFrom := y.serveFrom,
                                       requal := y.requal, away := y.away, th := y.th }
  let d := setR d (pgRx n) F.RX_AR_DEPTH 0
  let d := (List.range 8).foldl (fun d s => setPipe d n s PipeSt.reset) d
  let d := (List.range 4).foldl (fun d k => setRelay (setCond d n k CondSt.reset) n k { relay d n k with fifo := [] }) d
  { d with coefOwn := Store.clearRange d.coefOwn (coefKey n 0 0 0) (coefKey (n + 1) 0 0 0) }

/-- Line `n` is OFF: its clusters are gated, and a partner that served it is OFF (R66, R88), or stays DARK where `keep`
holds (R451). -/
def lineDown (d : Dev) (n cause : Nat) (keep : Bool) : Dev :=
  let p := pgLine n
  let x := line d n
  let d := hurdleStop (onlyIf (decide ((calSt d n).run ≠ 0)) (fun d => calAbandon d n 3) d) n
  let d := setLine d n { LineSt.reset with plan := x.plan, shot := x.shot, l0 := x.l0, l0No := x.l0No }
  let d := setR (setR (setR (setR d p F.LINE_SAFE_COND 0) p F.LINE_IN_GAP 0) p F.LINE_SYNC_LOST 0) p F.LINE_ST_FINE 0
  let d := lineShow d n cause
  let d := lineIdle d n
  let d := if keep then d else gateUnused (partnerOff d n) n
  let d := pipesShow (stackShow (framesShow d n) n) n
  eligShow (nextShow (commitShow d n) n) n

def lineOff (d : Dev) (n cause : Nat) : Dev := lineDown d n cause false

/-- GAP_END: the transition gap of a stop ends, or that of a plan change that leaves fine mode. The cause that a
shut-down gives the change of state is one the spec leaves open (R249).
(Log: 4 DESIGN CHOICE, 209 DESIGN CHOICE.) -/
def doGapEnd (t n : Nat) (d : Dev) : Dev :=
  let x := line d n
  match x.stopAt, x.darkEnd with
  | some a, _ =>
    let d := advance d (max t a)
    let (c, d) := if d.boot.stop.isSome then freeV d else (if x.paceStop then 6 else 0, d)
    lineOff d n (c % 256)
  | none, some a => partnerOff (setLine (advance d (max t a)) n { x with darkEnd := none }) n
  | none, none => advance d t

def execGapEnd (t ln : Nat) (s : State) : Host.Outcome State Fault Refusal :=
  act (decide (ln < 12)) s (doGapEnd t ln)

end Sys2Proof.Machine
end

