-- ==== Sys2Proof/Machine/Bridge.lean ====
section
/-! DEFINITION. The bridges between the line dies and the hub, and the die temperatures (R31, R33–R35). -/

namespace Sys2Proof.Machine

open Sys2Proof

/-! ## Bridges -/

/-- A retrain of bridge `b` starts (R35). -/
def retrain (d : Dev) (b : Nat) : Dev :=
  if (bridge d b).retraining then d
  else
    let p := pgBridge b
    let d := setBridge d b { bridge d b with failRun := 0, retraining := true, since := d.ticks }
    heldPeak (raise (bump (setR d p F.BRIDGE_LINK_STATE 1) p F.BRIDGE_RETRAIN_COUNT) p 9) b

/-- The key of a bridge's virtual channel: 0 FRAME, 1 EVENT, 2 SHELF, 3 CONTROL, toward the hub (`up`) or from it (R33). -/
def vcKey (up : Bool) (vc : Nat) : Nat := 4 * b2n up + vc

/-- A virtual channel of bridge `b` holds a credit: its own, whatever the others hold (R33).
(Log: 251 DESIGN CHOICE.) -/
def vcFree (d : Dev) (b : Nat) (up : Bool) (vc : Nat) : Bool :=
  let u := Store.get (bridge d b).used 0 (vcKey up vc)
  u == 0 || decide (u < Config.vcCredits vc)

/-- BRIDGE_FLIT: a flit of `len` bytes crosses bridge `b` on virtual channel `vc` toward the hub (`up`) or from it; `ok`:
its CRC is good; `free`: the credits of this channel that the receiver gives back. Without a credit of its channel it
waits. A failed one is replayed; after REPLAY_LIMIT failed replays in a row the bridge retrains (R33, R35).
(Log: 55 DESIGN CHOICE, 251 DESIGN CHOICE.) -/
def doFlit (t b : Nat) (up : Bool) (vc len : Nat) (ok : Bool) (free : Nat) (d : Dev) : Dev :=
  let d := advance d t
  let p := pgBridge b
  let x := bridge d b
  let k := vcKey up vc
  let u := Store.get x.used 0 k
  if x.retraining then d
  else if !vcFree d b up vc then setBridge d b { x with used := Store.set x.used 0 k (u - free) }
  else if ok then
    addC (setBridge d b { x with failRun := 0, used := Store.set x.used 0 k (u + 1 - free) }) p
      (if up then F.BRIDGE_UP_BYTES else F.BRIDGE_DOWN_BYTES) len
  else if max 1 (getR d p F.BRIDGE_REPLAY_LIMIT) ≤ x.failRun then retrain d b
  else raise (bump (setBridge d b { x with failRun := x.failRun + 1 }) p F.BRIDGE_REPLAY_COUNT) p 8

def execBridgeFlit (t ldie : Nat) (up : Bool) (flit : Flit) (ok : Bool) (s : State) : Host.Outcome State Fault Refusal :=
  act (decide (1 ≤ ldie) && decide (ldie < 3) && decide (flit.vc < 4)) s (doFlit t ldie up flit.vc flit.len ok flit.free)

/-- BRIDGE_RETRAIN: BRIDGE.CFG.RETRAIN is written with 1. -/
def execBridgeRetrain (t ldie : Nat) (s : State) : Host.Outcome State Fault Refusal :=
  act (decide (1 ≤ ldie) && decide (ldie < 3)) s (fun d => retrain (advance d t) ldie)

/-- Frame `f` of line `n`, in its hub shelves, is written to the rolling record, kept by the Archive and offered to
its ring (R34, R344, R366, R404).
(Log: 13 DESIGN CHOICE.) -/
def frameAtHub (d : Dev) (n : Nat) (f : OutFrame) : Dev :=
  let d := rollWrite d n f.num f.bytes
  let d := onlyIf (f.kind == 0) (fun d => hurdleArrive d n f.num f.bytes) d
  let d := archiveOffer d n f.kind f.dec f.bytes
  offer d ⟨if f.kind = 1 then 12 + n else n, f.bytes, some f.num, 0, dieOf n - 1, f.shelves⟩

/-- BRIDGE_FRAME_ARRIVE: line `n`'s oldest frame in its die's pool crosses the bridge, where the hub has shelves for
it (R34, R338); at a fenced memory region it is discarded (R30).
(Log: 55 DESIGN CHOICE.) -/
def doFrameArrive (t n : Nat) (d : Dev) : Dev :=
  let d := advance d t
  let b := dieOf n
  match (frame d n).out with
  | [] => d
  | f :: r =>
    if (bridge d b).retraining ∨ getR d (pgBridge b) F.BRIDGE_LINK_STATE ≠ 2 ∨ !vcFree d b true 0 then d
    else if isFenced d regMemory then
      freeShelf (setFrame d n { frame d n with out := r }) b (frameReq n) f.shelves
    else
      let (ok, d) := takeShelves d 0 (b - 1) f.shelves
      if ok then
        let d := freeShelf (setFrame d n { frame d n with out := r }) b (frameReq n) f.shelves
        frameAtHub d n f
      else d

def execBridgeFrameArrive (t ln : Nat) (s : State) : Host.Outcome State Fault Refusal :=
  act (decide (ln < 12)) s (doFrameArrive t ln)

/-! ## Die temperature (R31) -/

/-- A reading in range, of a sensor that gives one (−32,768: none). -/
def inRange (r : Int) : Bool := decide (-7040 ≤ r) && decide (r ≤ 19200)

/-- Twice the median of the readings. -/
def median2 (l : List Int) : Int :=
  let s := sortI l
  let k := s.length
  if k % 2 = 1 then 2 * s.getD (k / 2) 0 else s.getD (k / 2 - 1) 0 + s.getD (k / 2) 0

/-- Sensor `i` is valid among the 16 readings.
(Log: 53 DESIGN CHOICE.) -/
def sensorValid (rs : List Int) (i : Nat) : Bool :=
  let r := rs.getD i (-32768)
  let others := ((List.range 16).filter (fun j => j != i && inRange (rs.getD j (-32768)))).map (fun j => rs.getD j (-32768))
  inRange r && (others.isEmpty || decide ((2 * r - median2 others).natAbs ≤ 2560))

/-- SENSORi, VALID, TEMP_MEAN and TEMP_MAX of die `k` take the readings `rs`. -/
def thermPut (d : Dev) (k : Nat) (rs : List Int) : Dev :=
  let p := pgTherm k
  let ok := (List.range 16).filter (sensorValid rs)
  let vs := ok.map (fun i => rs.getD i (-32768))
  let d := (List.range 16).foldl (fun d i => setS d p (F.THERM_SENSOR i) (rs.getD i (-32768))) d
  let was := getR d p F.THERM_VALID
  let d := onlyIf (was != maskOf ok) (fun d => raise d p 8) d
  let d := setR d p F.THERM_VALID (maskOf ok)
  let d := setS d p F.THERM_TEMP_MEAN (if vs.isEmpty then -32768 else rne (sumI vs) vs.length)
  setS d p F.THERM_TEMP_MAX (maxI (-32768) vs)

/-- The sensor that trips the part, and its reading: the highest at 125 °C or above, the lowest number of equals
(R32).
(Log: 53 DESIGN CHOICE.) -/
def tripSensor (rs : List Int) : Option (Nat × Int) :=
  (List.range 16).foldl (fun a i =>
    let r := rs.getD i (-32768)
    if r < 16000 then a
    else match a with
      | some (j, m) => if m < r then some (i, r) else some (j, m)
      | none => some (i, r)) none

end Sys2Proof.Machine
end

