-- ==== Sys2Proof/Machine/Pacer.lean ====
section
/-! DEFINITION. Pacer: headroom, pace steps, jobs, telemetry, reports and power states (R420–R437). -/

namespace Sys2Proof.Machine

open Sys2Proof

/-! ## Headroom (R420, R421) -/

/-- P_est of rail estimates `est` (R421).
(Log: 196 DEDUCED.) -/
def pEst (gains : List Rat) (est : List Nat) : Rat :=
  ((List.range 9).map (fun r => gains.getD r 1 * (est.getD r 0 : Rat))).foldl (· + ·) 0

/-- P_avg: the mean of P_est over the latest PWR_AVG_MS ticks.
(Log: 196 DEDUCED.) -/
def pAvg (d : Dev) : Rat :=
  let h := d.pacer.hist.take (max 1 (getR d pgPace F.PACE_PWR_AVG_MS))
  if h.isEmpty then 0 else h.foldl (· + ·) 0 / (h.length : Rat)

/-- E_hour: the energy of the latest 60 complete minutes, in mW·ms.
(Log: 196 DEDUCED.) -/
def eHour (d : Dev) : Rat := d.pacer.mins.foldl (· + ·) 0

/-- E_CAP in mW·ms. -/
def eCap (d : Dev) : Rat := ((getR d pgPace F.PACE_E_CAP * 3600000 : Nat) : Rat)

/-- A headroom term within ±1,024 (R420). -/
def headClamp (i : Int) : Int := clampI (-1024) 1024 i

/-- ⌊1,024 × (cap − x) / cap⌋; −1,024 where the cap is 0.
(Log: 196 DEDUCED.) -/
def share (cap x : Rat) : Int := if cap = 0 then -1024 else headClamp (1024 * (cap - x) / cap).floor

/-- The die maximum that Pacer takes for die `k`: T_LIMIT with fewer than 4 valid sensors (R31). -/
def dieMax (d : Dev) (k : Nat) : Int :=
  let valid := ((List.range 16).filter (fun i => bit (getR d (pgTherm k) F.THERM_VALID) i)).length
  if valid < 4 then getS d pgPace F.PACE_T_LIMIT else getS d (pgTherm k) F.THERM_TEMP_MAX

/-- The four terms, 1,024 where their input is disabled. -/
def headTerms (d : Dev) : List Int :=
  let p := pgPace
  let tMax := maxI (-32768) ((List.range 3).map (dieMax d))
  let on (f : Fld) (v : Int) : Int := if flagR d p f then v else 1024
  [on F.PACE_PWR_EN (share (getR d p F.PACE_PWR_CAP : Rat) (pAvg d)),
   on F.PACE_TEMP_EN (headClamp (8 * (getS d p F.PACE_T_LIMIT - tMax) / ((max 1 (getR d p F.PACE_T_SPAN) : Nat) : Int))),
   on F.PACE_ENERGY_EN (share (eCap d) (eHour d)),
   on F.PACE_WEAR_EN (headClamp (4 * (256 - (getR d pgArc F.ARC_WEAR_RATIO : Int))))]

/-- H and LIMITER as shown. -/
def paceH (d : Dev) : Int := getS d pgPace F.PACE_H
def limiter (d : Dev) : Nat := getR d pgPace F.PACE_LIMITER

/-- A number of mW or mWh as its register shows it. -/
def show32 (x : Rat) : Nat := min (2 ^ 32 - 1) x.floor.toNat

/-- The estimates of one tick join the averages and the energy account.
(Log: 196 DEDUCED.) -/
def takeEst (d : Dev) (est : List Nat) : Dev :=
  let x := d.pacer
  let p := pEst x.gains est
  let acc := x.minAcc + p + (getR d pgPace F.PACE_EXTRA_MW : Rat)
  let full := decide (60000 ≤ x.minN + 1)
  let y := { x with hist := (p :: x.hist).take 16383, estN := x.estN + 1 }
  let y := { y with ests := (List.range 9).map (fun r => x.ests.getD r 0 + est.getD r 0) }
  let y := { y with minAcc := if full then 0 else acc, minN := if full then 0 else x.minN + 1 }
  { d with pacer := { y with mins := if full then (acc :: x.mins).take 60 else x.mins } }

/-- The headroom registers follow.
(Log: 196 DEDUCED.) -/
def headShow (d : Dev) : Dev :=
  let p := pgPace
  let ts := headTerms d
  let h := minI 1024 ts
  let d := setS (setS (setS d p F.PACE_H h) p F.PACE_H_PWR (ts.getD 0 0)) p F.PACE_H_TEMP (ts.getD 1 0)
  let d := setS (setS d p F.PACE_H_ENERGY (ts.getD 2 0)) p F.PACE_H_WEAR (ts.getD 3 0)
  let d := setR d p F.PACE_LIMITER (ts.findIdx (· == h))
  let d := setR (setR d p F.PACE_P_AVG (show32 (pAvg d))) p F.PACE_E_HOUR (show32 (eHour d / 3600000))
  let tm (k : Nat) : Int := getS d (pgTherm k) F.THERM_TEMP_MAX
  setS (setS (setS d p F.PACE_T_MAX_HUB (tm 0)) p F.PACE_T_MAX_A (tm 1)) p F.PACE_T_MAX_B (tm 2)

/-! ## Steps (R432) -/

/-- The runs of ticks with this tick's H.
(Log: 200 DEDUCED.) -/
def runsTick (d : Dev) : Dev :=
  let x := d.pacer
  let h := paceH d
  let lo := getS d pgPace F.PACE_DOWN_TH
  let up := max (getS d pgPace F.PACE_UP_TH) lo
  let y := { x with runNeg := if h < 0 then x.runNeg + 1 else 0, runDown := if h < lo then x.runDown + 1 else 0 }
  { d with pacer := { y with runUp := if up < h then x.runUp + 1 else 0, since := x.since.map (· + 1) } }

/-- STEPS, 0–16. -/
def paceSteps (d : Dev) : Nat := min 16 (getR d pgPace F.PACE_STEPS)

/-- The step of this tick (R432).
(Log: 200 DEDUCED.) -/
def stepWant (d : Dev) : Nat :=
  let p := pgPace
  let x := d.pacer
  let s := getR d p F.PACE_STEP
  let n := paceSteps d
  let down := max 1 (getR d p F.PACE_DOWN_MS)
  let up := max 1 (getR d p F.PACE_UP_MS)
  let since (k : Nat) : Bool := (x.since.map (fun a => decide (k ≤ a))).getD true
  let dwell := since (getR d p F.PACE_DWELL_MS)
  if !flagR d p F.PACE_AUTO then min n (getR d p F.PACE_MAN_STEP)
  else if n < s then n
  else if s < n && decide (down ≤ x.runNeg) && since down then s + 1
  else if s < n && decide (down ≤ x.runDown) && dwell then s + 1
  else if decide (0 < s) && decide (up ≤ x.runUp) && dwell then s - 1
  else s

/-- The payload words that name H (R433). -/
def hBytes (d : Dev) : List Nat := leBytes 2 (ux 16 (paceH d))

/-- The step in force becomes `s` (R432).
(Log: 200 DEDUCED.) -/
def stepTo (d : Dev) (s : Nat) : Dev :=
  let was := getR d pgPace F.PACE_STEP
  if s = was then d
  else
    let x := d.pacer
    let d := { d with pacer := { x with runNeg := 0, runDown := 0, runUp := 0, since := some 0, repDue := true, repN := 0 } }
    let d := raise (setR d pgPace F.PACE_STEP s) pgPace 8
    let d := bump d pgPace (if was < s then F.PACE_STEPS_DEEPER else F.PACE_STEPS_RELAXED)
    let d := ledgerNow d 0x0601 0xF (typeCode .pace)
      ([was, s, limiter d] ++ hBytes d ++ leBytes 4 (getR d pgPace F.PACE_P_AVG))
    paceActs ((List.range 12).foldl paceSource d)

/-- H below 0 at step STEPS (R432). -/
def overTick (d : Dev) : Dev :=
  let isOver := decide (paceH d < 0) && decide (paceSteps d ≤ getR d pgPace F.PACE_STEP)
  let was := d.pacer.isOver
  let d := { d with pacer := { d.pacer with isOver := isOver } }
  let d := onlyIf isOver (fun d => bump d pgPace F.PACE_OVER_LIMIT_TICKS) d
  onlyIf (isOver && !was) (fun d =>
    ledgerNow (raise d pgPace 9) 0x0602 0xF (typeCode .pace) ([limiter d] ++ hBytes d ++ [getR d pgPace F.PACE_STEP])) d

/-! ## Jobs (R424–R427) -/

/-- Fields of entry `e`. -/
def jValid (d : Dev) (e : Nat) : Bool := flagR d pgPace (F.PACE_J_VALID e)
def jRuns (d : Dev) (e : Nat) : Bool := flagR d pgPace (F.PACE_J_RUNNING e)
def jForced (d : Dev) (e : Nat) : Bool := flagR d pgPace (F.PACE_J_FORCED e)

/-- The jobs on the board. -/
def jobs (d : Dev) : List Nat := (List.range 64).filter (jValid d)

/-- Those whose deadline has passed become forced (R424).
(Log: 199 DEDUCED.) -/
def deadlines (d : Dev) : Dev :=
  (jobs d).foldl (fun d e =>
    let dl := getR d pgPace (F.PACE_J_DEADLINE e)
    if dl ≠ 0 ∧ dl ≤ taiSec (tai d) % 2 ^ 32 then forceEntry d e 0 else d) d

/-- Entry `e` is granted (R425). -/
def grant (d : Dev) (e : Nat) : Dev :=
  let d := setR { d with pacer := { d.pacer with granted := d.pacer.granted + 1 } } pgPace (F.PACE_J_RUNNING e) 1
  let d := raise (bump d pgPace F.PACE_JOBS_GRANTED) pgPace 10
  let d := { d with pacer := { d.pacer with revoked := d.pacer.revoked.filter (· != e) } }
  match Store.get d.jobOwner 0 e with
  | 0 => d
  | o + 1 => retShow { d with jobSince := Store.set d.jobSince 0 o (d.ticks + 1) }

/-- Running entry `e` is revoked and waits again (R426). Work whose chapter gives it no pause point runs to its end all the
same: a calibration pass that has begun, a re-sweep, and the Archive's jobs (jobBegun).
(Log: 199 DEDUCED.) -/
def revoke (d : Dev) (e : Nat) : Dev :=
  let d := setR d pgPace (F.PACE_J_RUNNING e) 0
  let d := raise (bump d pgPace F.PACE_JOBS_REVOKED) pgPace 14
  let d := if 48 ≤ e then { d with pacer := { d.pacer with revoked := d.pacer.revoked ++ [e] } } else d
  retShow d

/-- While H < 0 the unforced jobs that run are revoked (R426). -/
def revokeAll (d : Dev) : Dev :=
  if 0 ≤ paceH d then d
  else ((jobs d).filter (fun e => jRuns d e && !jForced d e)).foldl revoke d

/-- A revoked job goes on: a host job counts until it is completed (R427), an owner's without a pause point runs (R426).
(Log: 199 DEDUCED.) -/
def goesOn (d : Dev) (e : Nat) : Bool :=
  d.pacer.revoked.contains e ||
    (match Store.get d.jobOwner 0 e with
     | 0 => false
     | o + 1 => decide (15 ≤ o) && jobBegun d o)

/-- The unforced jobs that count as running (R425–R427). -/
def unforced (d : Dev) : Nat := ((jobs d).filter (fun e => !jForced d e && (jRuns d e || goesOn d e))).length

/-- A waiting job may be granted under threshold `th` (R425).
(Log: 199 DEDUCED.) -/
def mayRun (d : Dev) (e : Nat) (th : Int) : Bool :=
  let p := pgPace
  let cost : Rat := (getR d p (F.PACE_J_COST e) : Rat)
  let cap : Rat := (getR d p F.PACE_PWR_CAP : Rat)
  let dur : Rat := (getR d p (F.PACE_J_DUR e) : Rat)
  let others := unforced d - b2n (goesOn d e)
  decide (others < max 1 (getR d p F.PACE_MAX_RUN)) && decide (th ≤ paceH d) &&
  (!flagR d p F.PACE_PWR_EN || (cap != 0 && decide (th ≤ (1024 * (cap - pAvg d - cost) / cap).floor))) &&
  (!flagR d p F.PACE_ENERGY_EN || decide (eHour d + cost * dur ≤ eCap d * (1 - (th : Rat) / 1024)))

/-- Entry `e` is due before entry `f`: the earlier deadline, none last, then the lower entry. -/
def dueBefore (d : Dev) (e f : Nat) : Bool :=
  let a := getR d pgPace (F.PACE_J_DEADLINE e)
  let b := getR d pgPace (F.PACE_J_DEADLINE f)
  if a = b then decide (e ≤ f) else if a = 0 then false else if b = 0 then true else decide (a < b)

/-- Entry `e` put into its place in a list ordered so. -/
def insDue (d : Dev) (e : Nat) : List Nat → List Nat
  | [] => [e]
  | f :: r => if dueBefore d e f then e :: f :: r else f :: insDue d e r

/-- The jobs of class `c` that wait, in the order in which they are granted. -/
def waitingJobs (d : Dev) (c : Nat) : List Nat :=
  ((jobs d).filter (fun e => !jRuns d e && getR d pgPace (F.PACE_J_CLASS e) == c)).foldl (fun l e => insDue d e l) []

/-- The jobs of class `c` are granted under the threshold `th`.
(Log: 199 DEDUCED.) -/
def grantClass (d : Dev) (c : Nat) (th : Int) : Dev :=
  (waitingJobs d c).foldl (fun d e => if mayRun d e th then grant d e else d) d

/-- The grants of a tick (R425). -/
def grants (d : Dev) : Dev :=
  let d := ((jobs d).filter (fun e => jForced d e && !jRuns d e)).foldl grant d
  let d := grantClass d 2 (getS d pgPace F.PACE_GRANT_TH)
  if (waitingJobs d 2).isEmpty then grantClass d 3 (getS d pgPace F.PACE_OPP_TH) else d

/-- JOB_POST: PACE.JOB_POST is written (R427).
(Log: 199 DEDUCED.) -/
def postHost (d : Dev) : Dev :=
  let p := pgPace
  let c := getR d p F.PACE_JOB_CLASS
  match ((List.range 16).map (48 + ·)).find? (fun e => !jValid d e) with
  | none => bump d p F.PACE_JOBS_REFUSED
  | some e =>
    if c < 2 then bump d p F.PACE_JOBS_REFUSED
    else
      let s := getR d p F.PACE_JOB_DEADLINE_S
      fillJob d e (getR d p F.PACE_JOB_TAG) 0xF c (getR d p F.PACE_JOB_COST_MW) (getR d p F.PACE_JOB_DUR_MS)
        (if s = 0 then 0 else taiSec (tai d) + s)

def execJobPost (t : Nat) (s : State) : Host.Outcome State Fault Refusal :=
  act true s (fun d => onPage pgPace postHost (advance d t))

/-- JOB_DONE: PACE.JOB_DONE is written with entry `e`, which is freed where it is a host job's (R427). -/
def doneHost (d : Dev) (e : Nat) : Dev :=
  if 48 ≤ e ∧ e < 64 then
    freeEntry { d with pacer := { d.pacer with revoked := d.pacer.revoked.filter (· != e) } } e
  else d

def execJobDone (t entry : Nat) (s : State) : Host.Outcome State Fault Refusal :=
  act (decide (entry < 64)) s (fun d => onPage pgPace (fun d => doneHost d entry) (advance d t))

/-! ## Power states (R434, R435) -/

/-- The power state (R437). -/
def pState (d : Dev) : Nat := getR d pgPace F.PACE_PSTATE_NOW

/-- The package enters power state `v`. -/
def pEnter (d : Dev) (v cause : Nat) : Dev :=
  let was := pState d
  let d := setR (setR d pgPace F.PACE_PSTATE_NOW v) pgPace cSTATE v
  let d := { d with pacer := { d.pacer with goal := none } }
  ledgerNow (raise d pgPace 12) 0x0604 0xF (typeCode .pace) [was, v, cause]

/-- Line `n` stops at its next plan boundary, and Pacer records it (R435). A start that waits is given up. -/
def stopLine (d : Dev) (n : Nat) : Dev :=
  let x := line d n
  if x.waitWake then holdLine (startDrop d n) n true
  else if x.base = 0 ∨ x.base = 6 then d
  else holdLine (setLine d n { x with paceStop := true }) n true

/-- Every line is OFF. -/
def allOff (d : Dev) : Bool := (List.range 12).all (fun n => (line d n).base == 0 && !(line d n).waitWake)

/-- A line that Pacer stopped goes on, or starts with its staged plan, where the plan check lets it (R66, R85, R87, R435); one
in the gap of its stop starts after it. -/
def resumeLine (d : Dev) (n : Nat) : Dev :=
  let x := line d n
  if x.stopAt.isSome then setLine d n { x with plan := some ⟨d.ticks, false⟩ }
  else if x.base ≠ 0 ∧ x.base ≠ 6 then setLine d n { x with paceStop := false }
  else offApply (setLine d n { x with plan := some ⟨d.ticks, false⟩ }) n

/-- All the lines that Pacer stopped. -/
def resumeLines (d : Dev) : Dev :=
  let l := d.pacer.held
  l.foldl resumeLine { d with pacer := { d.pacer with held := [] } }

/-- RUN is requested (R435); a shut-down in progress goes on.
(Log: 203 DEDUCED.) -/
def askRun (d : Dev) (cause : Nat) : Dev :=
  if d.boot.stop.isSome then d
  else if pState d = 2 then
    if d.pacer.goal.isSome then d else { d with pacer := { d.pacer with goal := some (0, cause) } }
  else if pState d = 1 then resumeLines (pEnter d 0 cause)
  else if d.pacer.goal.isSome then resumeLines { d with pacer := { d.pacer with goal := none } }
  else d

/-- IDLE (1) or SLEEP (2) is requested (R435).
(Log: 203 DEDUCED.) -/
def askStop (d : Dev) (v cause : Nat) : Dev :=
  if pState d = 2 ∨ pState d = v ∨ d.boot.stop.isSome then d
  else (List.range 12).foldl stopLine { d with pacer := { d.pacer with goal := some (v, cause) } }

/-- IDLE is entered once every line is OFF.
(Log: 203 DEDUCED.) -/
def idleTick (d : Dev) : Dev :=
  match d.pacer.goal with
  | some (1, c) => if allOff d then pEnter d 1 c else d
  | _ => d

/-- The POWER_STATE actions come into or out of force (R428, R435). -/
def powerTick (d : Dev) : Dev :=
  let v := powerWant d
  if v = d.pacer.power then d
  else
    let d := { d with pacer := { d.pacer with power := v } }
    if v = 0 ∨ pState d = 2 then askRun d 1 else askStop d v 1

/-- The rails with SLEEP_OFF are switched over PMBus. -/
def sleepRails (d : Dev) (on : Bool) : Dev :=
  ((List.range 9).filter (fun r => flagR d pgPace (F.PACE_SLEEP_OFF r))).foldl (fun d r =>
    emit d (.rail (getR d pgPace (F.PACE_PMBUS_ADDR r)) (getR d pgPace (F.PACE_PMBUS_PAGE r)) on)) d

/-- A line region loses its power: its clusters with the state of their units, and what its die still held.
(Log: 204 DEDUCED.) -/
def lineDark (d : Dev) (n : Nat) : Dev :=
  let d := (List.range 11).foldl (fun d c => gateUnit d n c) d
  setFrame d n { frame d n with out := [] }

/-- SLEEP_ENTERED: every line is OFF, the Archive unmounts, DRAM enters self-refresh and the other regions lose their
power (R434, R435).
(Log: 204 DEDUCED.) -/
def sleepEnter (d : Dev) (cause : Nat) : Dev :=
  let mount := arcSt d == 2 || arcSt d == 3
  let d := unmount d
  let d := { d with pacer := { d.pacer with mount := mount } }
  let d := (List.range 12).foldl lineDark d
  let d := { d with pools := Store.erase (Store.erase d.pools 1) 2 }
  let d := (List.range 2).foldl (fun d c =>
    if getR d (pgDmc c) cSTATE = 0 then d else setDmc (setR d (pgDmc c) cSTATE 2) c { dmc d c with sreAt := d.ticks }) d
  let d := (List.range 2).foldl (fun d b => setR d (pgBridge (b + 1)) F.BRIDGE_LINK_STATE 0) d
  let d := (List.range 2).foldl (fun d e => ethShow ((List.range 4).foldl (fun d p => setLink d e p 0) d) e false) d
  let d := onlyIf (getR d pgPcie cSTATE != 0) (doPcieReset 0 2) d
  pEnter (sleepRails d false) 2 cause

def doSleepEntered (t : Nat) (d : Dev) : Dev :=
  let d := advance d t
  match d.pacer.goal with
  | some (2, c) => if allOff d then sleepEnter d c else d
  | _ => d

def execSleepEntered (t : Nat) (s : State) : Host.Outcome State Fault Refusal := act true s (doSleepEntered t)

/-- The transition back to RUN: rails on, DRAM and bridges up, the units of the regions that had no power STALE (R12),
the stopped lines start, the Archive mounts.
(Log: 204 DEDUCED.) -/
def runRestore (d : Dev) (cause : Nat) : Dev :=
  let d := sleepRails d true
  let d := (List.range 2).foldl (fun d c => if getR d (pgDmc c) cSTATE = 2 then setR d (pgDmc c) cSTATE 1 else d) d
  let d := (List.range 2).foldl (fun d b => setR d (pgBridge (b + 1)) F.BRIDGE_LINK_STATE 2) d
  let d := ((List.range 12) ++ [regMemory, regArchive, regHost]).foldl (fun d r => stalePages d (regionPages r)) d
  let d := pEnter d 0 cause
  let d := resumeLines (strideTicks d)
  let d := onlyIf d.pacer.mount mount d
  if d.pacer.power = 1 then askStop d 1 1 else d

/-- RUN_RESTORED. -/
def doRunRestored (t : Nat) (d : Dev) : Dev :=
  let d := advance d t
  match d.pacer.goal with
  | some (0, c) => if pState d = 2 then runRestore d c else d
  | _ => d

def execRunRestored (t : Nat) (s : State) : Host.Outcome State Fault Refusal := act true s (doRunRestored t)

/-- WAKE_ALARM: the TAI second WAKE_ALARM_S wakes the package from SLEEP (R435). -/
def doWakeAlarm (t : Nat) (d : Dev) : Dev :=
  let d := advance d t
  let a := getR d pgPace F.PACE_WAKE_ALARM_S
  if a = 0 ∨ pState d ≠ 2 then d
  else
    let now := taiSec (tai d)
    let k : Nat := now + (a + 2 ^ 32 - now % 2 ^ 32) % 2 ^ 32
    askRun (advance d (d.ticks + ticksUntil d ((k : Int) * secU))) 2

def execWakeAlarm (t : Nat) (s : State) : Host.Outcome State Fault Refusal := act true s (doWakeAlarm t)

/-- WAKE_PIN: a rising edge of a GPIO; on WAKE_PIN with WAKE_EN it wakes the package from SLEEP (R435). -/
def doWakePin (t g : Nat) (d : Dev) : Dev :=
  let d := advance d t
  if pState d = 2 ∧ flagR d pgPace F.PACE_WAKE_EN ∧ getR d pgPace F.PACE_WAKE_PIN = g then askRun d 3 else d

def execWakePin (t gpio : Nat) (s : State) : Host.Outcome State Fault Refusal :=
  act (decide (gpio < 16)) s (doWakePin t gpio)

/-! ## Telemetry and rails (R421, R422) -/

/-- An estimate of rail `r` fails for a cause (R421, R433).
(Log: 197 DEDUCED.) -/
def estFail (d : Dev) (r cause : Nat) : Dev :=
  ledgerNow (raise (bump d pgPace F.PACE_EST_FAILS) pgPace 13) 0x0605 0xF (typeCode .pace) [r, cause]

/-- The reading of rail `r`, in mW, none below 0: its gain follows where the ratio lies within 0.80–1.25.
(Log: 197 DEDUCED.) -/
def railTelemetry (meas : List Int) (d : Dev) (r : Nat) : Dev :=
  if !flagR d pgPace (F.PACE_TELEM_EN r) then d
  else
    let m := meas.getD r (-1)
    let sum := d.pacer.ests.getD r 0
    let g : Rat := (m * (d.pacer.estN : Int) : Int) / (sum : Rat)
    if m < 0 then estFail d r 0
    else if sum = 0 ∨ g < 4 / 5 ∨ 5 / 4 < g then estFail d r 1
    else { d with pacer := { d.pacer with gains := d.pacer.gains.set r g } }

/-- PMBUS_TELEMETRY: every 1 s the rails with TELEM_EN are read (R421). -/
def doTelemetry (t : Nat) (meas : List Int) (d : Dev) : Dev :=
  let d := advance d (max t (d.pacer.telemAt + sT 1))
  let d := (List.range 9).foldl (railTelemetry meas) d
  { d with pacer := { d.pacer with ests := List.replicate 9 0, estN := 0, telemAt := d.ticks } }

def execPmbusTelemetry (t : Nat) (meas : List Int) (s : State) : Host.Outcome State Fault Refusal :=
  act true s (doTelemetry t meas)

/-- The AVS targets of the line dies, within the rails' range (R484); a change of one goes out over PMBus where its rail is marked
AVS (R422). The rails stay at nominal until the firmware runs (R439).
(Log: 205 DESIGN CHOICE.) -/
def avsTick (d : Dev) : Dev :=
  let st := getR d pgPkg F.PKG_BOOT_STAGE
  if st < 2 ∨ 6 < st then d
  else
    (List.range 2).foldl (fun d i =>
      avsPut d (i + 1) (clampN 650 880 (max (Config.avsVolt (i + 1) (show32 (pAvg d))) (railNeed d (i + 1))))) d

/-! ## Reports (R433) -/

/-- The 64 bytes of a report.
(Log: 202 DEDUCED.) -/
def reportBytes (d : Dev) : List Nat :=
  let p := pgPace
  let i16 (f : Fld) : List Nat := leBytes 2 (getR d p f)
  let run := ((jobs d).filter (jRuns d)).length
  let b := leBytes 2 0x4750 ++ [1, pkgIndex d, getR d p F.PACE_STEP, pState d, limiter d, 0] ++
    leBytes 4 (taiSec d.pacer.repAt) ++ leBytes 4 (taiNs d.pacer.repAt) ++
    i16 F.PACE_H ++ i16 F.PACE_H_PWR ++ i16 F.PACE_H_TEMP ++ i16 F.PACE_H_ENERGY ++ i16 F.PACE_H_WEAR ++
    leBytes 2 ((jobs d).length - run) ++ leBytes 4 (getR d p F.PACE_P_AVG) ++ leBytes 4 (getR d p F.PACE_E_HOUR) ++
    i16 F.PACE_T_MAX_HUB ++ i16 F.PACE_T_MAX_A ++ i16 F.PACE_T_MAX_B ++ leBytes 2 run ++
    leBytes 4 d.pacer.granted ++ List.replicate 12 0
  b ++ leBytes 4 (crc32c b)

/-- A report becomes due REPORT_MS ticks after the latest one.
(Log: 202 DEDUCED.) -/
def reportTick (d : Dev) : Dev :=
  let x := d.pacer
  let n := x.repN + 1
  let ms := getR d pgPace F.PACE_REPORT_MS
  if x.repDue then { d with pacer := { x with repAt := tai d } }
  else if ms ≠ 0 ∧ ms ≤ n then { d with pacer := { x with repN := 0, repDue := true, repAt := tai d } }
  else { d with pacer := { x with repN := n, repAt := tai d } }

/-- PACER_REPORT: the report that is due goes to source 31.
(Log: 202 DEDUCED.) -/
def doReport (t : Nat) (d : Dev) : Dev :=
  let d := advance d t
  if d.pacer.repDue then offerBytes { d with pacer := { d.pacer with repDue := false } } 31 (reportBytes d) else d

def execPacerReport (t : Nat) (s : State) : Host.Outcome State Fault Refusal := act true s (doReport t)

/-! ## The tick (R420) -/

/-- A tick of Pacer with the rail estimates `est` in mW: gates and points of the step in force, the headroom, the step,
the power state, the jobs, the report. -/
def pacerTick (d : Dev) (est : List Nat) : Dev :=
  let d := { d with time := { d.time with unqual := !(flagR d pgTime F.TIME_QUALIFIED) } }
  let d := bump (arcShow d) pgPace F.PACE_TICKS
  let d := avsTick (strideTicks d)
  let d := runsTick (headShow (takeEst d est))
  let d := overTick (stepTo d (stepWant d))
  let d := idleTick (powerTick d)
  reportTick (grants (revokeAll (deadlines d)))

/-- PACER_TICK: at the next whole millisecond of the time counter; Pacer stands still while its region is fenced (R30, R467).
(Log: 198 DESIGN CHOICE, 257 DEDUCED.) -/
def doPacerTick (t : Nat) (est : List Nat) (d : Dev) : Dev :=
  let d := advance d t
  if isFenced d regService then d else
  let cur := tai d / msU
  let k := if d.time.msDone < cur then cur else d.time.msDone + 1
  let d := advance d (d.ticks + ticksUntil d (k * msU))
  pacerTick { d with time := { d.time with msDone := k } } est

def execPacerTick (t : Nat) (est : List Nat) (s : State) : Host.Outcome State Fault Refusal :=
  act true s (doPacerTick t est)

end Sys2Proof.Machine
end

