-- ==== Sys2Proof/Machine/Startup.lean ====
section
/-! DEFINITION. Resets, the supplies and the backup domain, the thermal trip, the life-cycle, the watchdog and line resets
(R31, R32, R436, R439–R441, R448–R452). The start sequence stands in Machine/Boot.lean. -/

namespace Sys2Proof.Machine

open Sys2Proof

/-! ## Resets (R441) -/

/-- The registers of a reset part that keep a value: the backup domain, RESET_CAUSE, what the fuses and the balls say,
the Ledger's next number and the next pin (R37, R250, R370, R436). -/
def keptRegs (old d : Dev) (kind idx : Nat) : Dev :=
  let valid := bkpValid old
  let ret (d : Dev) (w : Nat) : Dev :=
    setR d pgBkp (F.BKP_RETAIN w) (if kind = 0 ∧ !valid then 0 else getR old pgBkp (F.BKP_RETAIN w))
  let d := (List.range 4).foldl ret d
  let keep (d : Dev) (p : Nat) (f : Fld) : Dev := setR d p f (getR old p f)
  let d := keep (keep (keep d pgBkp F.BKP_VALID) pgBkp F.BKP_OSC_FAIL) pgBkp F.BKP_VBAT_LOW
  let d := keep d pgArc F.ARC_NEXT_PIN
  let d := setR (setR d pgPkg F.PKG_RESET_CAUSE kind) pgPkg F.PKG_PKG_INDEX (if kind = 0 then idx else pkgIndex old)
  let d := if kind = 0 then setR (setR d pgPkg F.PKG_LC_STATE old.boot.fuseLc) pgPkg F.PKG_PKG_ID old.boot.fuseId
    else keep (keep d pgPkg F.PKG_LC_STATE) pgPkg F.PKG_PKG_ID
  setR (setR d pgPkg F.PKG_NEXT_ACC old.almH) pgPkg F.PKG_RSV_END old.almH

/-- What of start-up a reset of kind `kind` keeps: the backup domain, the fuses and the Almanac, and for all but a
power-on reset the latch of the thermal trip. -/
def keptBoot (x : BootSt) (kind now : Nat) : BootSt :=
  let y := { BootSt.reset with supply := x.supply, offAlarm := x.offAlarm, fuseLc := x.fuseLc, fuseId := x.fuseId }
  let y := { y with fuseKey := x.fuseKey, fuseTrim := x.fuseTrim, orderly := x.orderly, almFw := x.almFw, trip := x.trip }
  let y := { y with keys := x.keys, slices := x.slices, almRun := x.almRun, releaseAt := now, tripAt := x.tripAt }
  let t := x.tripped && kind != 0
  { y with tripped := t, held := t }

/-- A reset of the kinds of R441 (`idx`: the balls PKG_IDX, read by a power-on reset): everything outside the backup
domain, the Almanac and the devices outside the part is as after reset; the time is set from a valid backup counter
(R307, R446).
(Log: 12 DEDUCED, 207 DEDUCED, 255 DEDUCED.) -/
def deviceReset (d : Dev) (kind idx : Nat) : Dev :=
  let a := arcReset d
  let x := { Dev.reset with ticks := d.ticks, freeN := d.freeN, out := d.out, almH := d.almH, almHOk := d.almHOk }
  let x := { x with almDly := d.almDly, almStack := d.almStack, almCal := d.almCal, almBad := d.almBad }
  let x := { x with mem := if kind = 0 then [] else d.mem, arc := a.arc, pins := a.pins }
  let x := { x with ledger := { x.ledger with reseedWait := !d.almHOk } }
  let x := { x with bkpBase := if d.time.isSet then d.time.base else d.bkpBase, vbatLow18 := d.vbatLow18, oscStop := d.oscStop }
  let warm := if kind = 0 then d.ticks else d.time.warmFrom
  let x := { x with time := { x.time with base := -(655360 * (d.ticks : Int)), warmFrom := warm, ocxoRdy := d.time.ocxoRdy } }
  let x := keptRegs d { x with boot := keptBoot d.boot kind d.ticks } kind idx
  if bkpValid x then restoreTime x (bkpSecs x) (bkpPhase x) else x

/-- POWER_ON_RESET: power-on reset is released; the balls read `idx` (R37, R439, R441). -/
def execPowerOnReset (t idx : Nat) (s : State) : Host.Outcome State Fault Refusal :=
  actAlways (decide (idx < 8)) s (fun d => emit (deviceReset (advance d t) 0 idx) (.pin .thermtrip 1))

/-- POWER_ON_RESET_HOLD: a rail leaves its range, PORST_N falls or OCXO_CLK stops: the part is held in reset (R439). -/
def execPowerOnResetHold (t : Nat) (s : State) : Host.Outcome State Fault Refusal :=
  actAlways true s (fun d =>
    let d := deviceReset (advance d t) 0 (pkgIndex d)
    { d with boot := { d.boot with held := true } })

/-- PIN_RESET: RESET_N is low for at least 1 µs. -/
def execPinReset (t : Nat) (s : State) : Host.Outcome State Fault Refusal :=
  act true s (fun d => deviceReset (advance d t) 1 0)

/-! ## The backup domain (R436, R440) -/

/-- SUPPLY_EN takes a level (R440). -/
def supplyPut (d : Dev) (on : Bool) : Dev :=
  emit { d with boot := { d.boot with supply := on } } (.pin .supplyEn (b2n on))

/-- WAKE_N_FALL. -/
def execWakeNFall (t : Nat) (s : State) : Host.Outcome State Fault Refusal :=
  actAlways true s (fun d => supplyPut (advance d t) true)

/-- VBAT_APPLIED: VBAT is applied for the first time. -/
def execVbatApplied (t : Nat) (s : State) : Host.Outcome State Fault Refusal :=
  actAlways true s (fun d =>
    supplyPut (setR { advance d t with vbatLow18 := false } pgBkp F.BKP_VBAT_LOW 0) true)

/-- OFF_ALARM: the backup alarm second, copied at shut-down, is reached. -/
def doOffAlarm (t : Nat) (d : Dev) : Dev :=
  let d := advance d t
  let a := d.boot.offAlarm
  if a = 0 ∨ !bkpValid d ∨ d.boot.supply then d
  else
    let now := taiSec (bkpTai d)
    let k : Nat := now + (a + 2 ^ 32 - now % 2 ^ 32) % 2 ^ 32
    let wait := (((k : Int) * secU - bkpTai d + 655359) / 655360).toNat
    supplyPut (advance d (d.ticks + wait)) true

def execOffAlarm (t : Nat) (s : State) : Host.Outcome State Fault Refusal := actAlways true s (doOffAlarm t)

/-- VBAT_LOW: VBAT falls below 2.2 V, or rises above it again (`low`). -/
def execVbatLow (t : Nat) (low : Bool) (s : State) : Host.Outcome State Fault Refusal :=
  actAlways true s (fun d =>
    let d := advance d t
    let was := flagR d pgBkp F.BKP_VBAT_LOW
    raiseOn (setR d pgBkp F.BKP_VBAT_LOW (b2n low)) pgBkp 8 was low)

/-- OSC_FAIL: the backup oscillator fails or runs again (`fail`); `long`: it has been stopped for more than 1 s, so that
the counter is not valid any more. -/
def execOscFail (t : Nat) (fail long : Bool) (s : State) : Host.Outcome State Fault Refusal :=
  actAlways true s (fun d =>
    let d := advance d t
    let was := flagR d pgBkp F.BKP_OSC_FAIL
    let d := raiseOn (setR d pgBkp F.BKP_OSC_FAIL (b2n fail)) pgBkp 9 was fail
    let stop := fail && long
    let d := { d with oscStop := stop }
    if stop then setR d pgBkp F.BKP_VALID 0 else d)

/-- BACKUP_VALID_LOST: VBAT falls below 1.8 V. -/
def execBackupValidLost (t : Nat) (s : State) : Host.Outcome State Fault Refusal :=
  actAlways true s (fun d => setR { advance d t with vbatLow18 := true } pgBkp F.BKP_VALID 0)

/-! ## Die temperature and the thermal trip (R31, R32) -/

/-- The sensor of the part that trips it, among the readings of the dies in order: die, sensor, reading. -/
def tripOf (rs : List Int) : Option (Nat × Nat × Int) :=
  (List.range 3).foldl (fun a k =>
    match tripSensor ((rs.drop (16 * k)).take 16), a with
    | some (i, r), some (j, n, m) => if m < r then some (k, i, r) else some (j, n, m)
    | some (i, r), none => some (k, i, r)
    | none, a => a) none

/-- The thermal trip: gates inactive, probe DACs at mid-code, THERMTRIP_N low, the Almanac record, and reset (R32).
(Log: 53 DESIGN CHOICE, 54 DESIGN CHOICE.) -/
def thermalTrip (d : Dev) (x : Nat × Nat × Int) : Dev :=
  let d := { d with boot := { d.boot with trip := some x, orderly := false } }
  let d := (List.range 12).foldl (fun d n => emit (gatesIdle d n) (.pin (.dac n) 8192)) d
  let d := emit d (.pin .thermtrip 0)
  let cause := getR d pgPkg F.PKG_RESET_CAUSE
  let d := setR (deviceReset d 1 0) pgPkg F.PKG_RESET_CAUSE cause
  { d with gatesHeld := true, boot := { d.boot with held := true, tripped := true, tripAt := d.ticks } }

/-- THERMAL_SENSOR_UPDATE: the 16 readings of the hub die, line die A and line die B, in 1/128 °C (−32,768: none).
(Log: 53 DESIGN CHOICE.) -/
def doThermalUpdate (t : Nat) (rs : List Int) (d : Dev) : Dev :=
  let d := advance d t
  let d := (List.range 3).foldl (fun d k => thermPut d k ((rs.drop (16 * k)).take 16)) d
  match tripOf rs with
  | some x => thermalTrip d x
  | none => d

def execThermalSensorUpdate (t : Nat) (readings : List Int) (s : State) : Host.Outcome State Fault Refusal :=
  act true s (doThermalUpdate t readings)

/-! ## Life-cycle (R448, R449) -/

/-- The request to advance from life-cycle state `lc` is good: LC_TARGET is the next state, VDDA_18 is in range
(`vdda`), and the buffer at CERT_ADDR is what R449 asks: for RETURN a type 4 image that verifies (`ok`) and names this
package.
(Log: 219 DEDUCED.) -/
def lcGood (d : Dev) (lc : Nat) (ok vdda : Bool) : Bool :=
  let a := getR d pgPkg F.PKG_CERT_ADDR * 256
  let cert := decide (load d (a + 3) 1 = [4]) && decide (ofLe (load d (a + 256) 8) = d.boot.fuseId) &&
    decide (load d (a + 264) 1 = [3])
  decide (lc < 3) && decide (getR d pgPkg F.PKG_LC_TARGET = lc + 1) && vdda && (lc != 2 || (ok && cert))

/-- LC_ADVANCE with KEY: the fuses take the next state, which applies from the next power-on reset (R449).
(Log: 219 DEDUCED.) -/
def lcAdvance (d : Dev) (ok vdda : Bool) : Dev :=
  let lc := d.boot.fuseLc
  if lcGood d lc ok vdda then
    let b := d.boot
    let b := if lc = 0 then { b with fuseKey := load d (getR d pgPkg F.PKG_CERT_ADDR * 256) 48 } else b
    let b := if lc = 2 then { b with keys := false } else b
    let d := setR { d with boot := { b with fuseLc := lc + 1 } } pgPkg F.PKG_LC_ERR 0
    ledgerNow (raise d pgPkg 15) 0x0703 0xF (typeCode .pkg) [lc, lc + 1]
  else setR d pgPkg F.PKG_LC_ERR 1

def keyGood (k : Nat) : Bool := k == 0x5A17

def execLcAdvance (t key : Nat) (ok vdda : Bool) (s : State) : Host.Outcome State Fault Refusal :=
  act true s (fun d => onlyIf (keyGood key) (fun d => lcAdvance d ok vdda) (advance d t))

/-! ## The watchdog (R450) -/

/-- WDOG_KICK is written with `v`.
(Log: 220 DEDUCED.) -/
def wdogKick (d : Dev) (v : Nat) : Dev :=
  if v = 0x4B4B then { d with boot := { d.boot with kick := d.ticks, grace := false } } else d

def execWdogKick (t v : Nat) (s : State) : Host.Outcome State Fault Refusal :=
  act true s (fun d => wdogKick (advance d t) v)

/-- The watchdog runs: enabled, firmware loaded, no shut-down in progress.
(Log: 220 DEDUCED.) -/
def wdogRuns (d : Dev) : Bool :=
  let st := getR d pgPkg F.PKG_BOOT_STAGE
  flagR d pgPkg F.PKG_WDOG_EN && d.boot.stop.isNone && decide (2 ≤ st) && decide (st ≤ 6)

/-- The latest WDOG_LIMIT expiries came within 600 s of each other, so that the next one resets the package.
(Log: 220 DEDUCED.) -/
def wdogArmed (d : Dev) : Bool :=
  let l := d.boot.expiries.take (max 1 (getR d pgPkg F.PKG_WDOG_LIMIT))
  decide (max 1 (getR d pgPkg F.PKG_WDOG_LIMIT) ≤ l.length) && decide (l.headD 0 ≤ l.getLastD 0 + sT 600)

/-- The watchdog expires: the management core alone is reset, or the package where WDOG_LIMIT expiries came within
600 s before.
(Log: 220 DEDUCED.) -/
def wdogExpire (d : Dev) : Dev :=
  let old := d.boot.expiries.filter (fun e => decide (d.ticks ≤ e + sT 600))
  let whole := wdogArmed d
  let d := bump d pgPkg F.PKG_WDOG_EXPIRIES
  let d := raise (ledgerNow d 0x0704 0xF (typeCode .pkg) [min 255 (old.length + 1), b2n whole]) pgPkg 13
  if whole then deviceReset d 4 0
  else
    let d := bump d pgPkg F.PKG_MGMT_RESETS
    { d with boot := { d.boot with kick := d.ticks, grace := true, expiries := (d.ticks :: d.boot.expiries).take 15 } }

/-- WATCHDOG_EXPIRY: no good kick for WDOG_MS, or for five times that after a reset of the core. -/
def doWatchdog (t : Nat) (d : Dev) : Dev :=
  if !wdogRuns d then advance d t
  else
    let ms := max 10 (getR d pgPkg F.PKG_WDOG_MS) * (if d.boot.grace then 5 else 1)
    wdogExpire (advance d (max t (d.boot.kick + msT ms)))

def execWatchdogExpiry (t : Nat) (s : State) : Host.Outcome State Fault Refusal := act true s (doWatchdog t)

/-! ## Line resets (R451, R452) -/

/-- The pending commits of line `n` are withdrawn, captured or not.
(Log: 209 DESIGN CHOICE.) -/
def withdraw (d : Dev) (n : Nat) : Dev :=
  let x := line d n
  let had := x.plan.isSome || x.shot.isSome || x.cap.isSome || x.capShot.isSome
  let d := setLine d n { x with plan := none, shot := none, cap := none, capShot := none }
  onlyIf had (fun d => bump d (pgLine n) F.LINE_CANCELS) d

/-- Every unit of line `n`'s region is reset; registers, coefficient banks and counters keep their values.
(Log: 221 DEDUCED, 255 DEDUCED.) -/
def unitsReset (d : Dev) (n : Nat) : Dev :=
  let d := (List.range 11).foldl (fun d c => gateUnit d n c) d
  let d := { d with ramans := Store.erase d.ramans n, gauges := Store.erase d.gauges n, frames := Store.erase d.frames n }
  (List.range 4).foldl (fun d k => setRelay (setToFrame d n k []) n k RelaySt.reset) d

/-- Line `n` is reset for a cause: 0 command, 1 FROZEN; the cause of its change of state is one the spec leaves open
(R249). In fine mode the partner's Converter cluster is reset with it.
(Log: 209 DESIGN CHOICE, 221 DEDUCED.) -/
def lineReset (d : Dev) (n cause : Nat) : Dev :=
  let fine := (line d n).base != 0 && flagL d (pgLine n) F.LINE_FINE
  let (c, d) := freeV (withdraw d n)
  let d := unitsReset (lineDown d n (c % 256) true) n
  let d := onlyIf fine (fun d => gateUnit d (partner n) 0) d
  let d := { d with fenced := n :: d.fenced.filter (· != n) }
  let b := { d.boot with freeAt := Store.set d.boot.freeAt 0 n (d.ticks + msT 1 + 1), frozenAt := Store.erase d.boot.frozenAt n }
  let d := raise (bump { d with boot := b } pgPkg F.PKG_LINE_RESETS) pgPkg 14
  ledgerNow d 0x0705 0xF (typeCode .pkg) [n, cause]

/-- LINE_RESET: the word with KEY and the lines of `mask`; a DARK line is refused, and so is one in reset already.
(Log: 221 DEDUCED.) -/
def lineResets (d : Dev) (mask key : Nat) : Dev :=
  if !keyGood key then d
  else
    let ls := (List.range 12).filter (bit mask)
    let dark := ls.filter (fun n => (line d n).base == 6)
    let d := (ls.filter (fun n => (line d n).base != 6 && !isFenced d n)).foldl (fun d n => lineReset d n 0) d
    setR d pgPkg F.PKG_LINE_RESET_ERR (b2n (!dark.isEmpty))

def execLineReset (t mask key : Nat) (s : State) : Host.Outcome State Fault Refusal :=
  act true s (fun d => lineResets (advance d t) mask key)

/-- The fence of region `r` is released: its units are STALE, and those that carry calibration CAL_STALE, which forces a
pass (R12, R18, R30, R258). -/
def unfence (d : Dev) (r : Nat) : Dev :=
  let d := { d with fenced := d.fenced.filter (· != r), fenceFree := Store.set d.fenceFree 0 r d.ticks }
  let d := stalePages d (regionPages r)
  let us : List (Nat × Nat) :=
    if r < 12 then (List.range 5).map (fun c => (pgRx r, c)) ++ [(pgThrx r, 0), (pgThrx r, 1), (pgStarter r, 1)]
    else if r = regTime then (List.range 8).flatMap (fun c => [(pgPf c, 0), (pgPf c, 1)])
    else if r = regService then [(pgSvc, 0), (pgSvc, 1)] else []
  let d := us.foldl (fun d u => setCal d u.1 u.2 true) d
  if r < 12 then calEval (calDue d r 7) r else if r = regService then svcWant d 7 else d

/-- LINE_RESET_RELEASE: 1 ms after a line reset the fence is released, and a line whose live RUN is 1 starts (R451). -/
def doResetRelease (t n : Nat) (d : Dev) : Dev :=
  match Store.get d.boot.freeAt 0 n with
  | 0 => advance d t
  | a + 1 =>
    let d := advance d (max t a)
    let d := unfence { d with boot := { d.boot with freeAt := Store.erase d.boot.freeAt n } } n
    let go := flagL d (pgLine n) F.LINE_RUN && (line d n).base == 0 && d.boot.stop.isNone
    if !go then d
    else if linesHeld d then holdLine d n true
    else startFrom d n

def execLineResetRelease (t ln : Nat) (s : State) : Host.Outcome State Fault Refusal :=
  act (decide (ln < 12)) s (doResetRelease t ln)

/-- LINE_AUTO_RESET: the frames of line `n` have carried FROZEN for LINE_AUTO_S seconds (R452). -/
def doAutoReset (t n : Nat) (d : Dev) : Dev :=
  let s := getR d pgPkg F.PKG_LINE_AUTO_S
  let a := Store.get d.boot.frozenAt 0 n
  if s = 0 ∨ a = 0 ∨ isFenced d n ∨ (line d n).base = 6 then advance d t
  else
    let last := Store.get d.boot.autoAt 0 n
    let d := advance d (max t (max (a - 1 + sT s) (if last = 0 then 0 else last - 1 + sT (10 * s))))
    let d := lineReset d n 1
    { d with boot := { d.boot with autoAt := Store.set d.boot.autoAt 0 n (d.ticks + 1) } }

def execLineAutoReset (t ln : Nat) (s : State) : Host.Outcome State Fault Refusal :=
  act (decide (ln < 12)) s (doAutoReset t ln)

end Sys2Proof.Machine
end

