-- ==== Sys2Proof/Machine/Lpu.lean ====
section
/-! DEFINITION. Link pattern units: lane units and memory and NAND bus units (R458–R463, R472). -/

namespace Sys2Proof.Machine

open Sys2Proof

/-- Unit `u` of LPU page `i` outside its registers. -/
def lpu (d : Dev) (i u : Nat) : LpuSt := Store.get d.lpus LpuSt.reset (i * 16 + u)
def setLpu (d : Dev) (i u : Nat) (x : LpuSt) : Dev := { d with lpus := Store.set d.lpus LpuSt.reset (i * 16 + u) x }

/-- BUSY of an LPU page: a unit of it runs.
(Log: 222 DEDUCED.) -/
def lpuShow (d : Dev) (i : Nat) : Dev :=
  let run := (List.range 12).any (fun u =>
    let st := getR d (pgLpu i) (F.LPUL_UNIT_STATE u)
    st == 1 || st == 2)
  setR d (pgLpu i) cBUSY (b2n run)

/-- A refused START (R461–R463). -/
def lpuRefuse (d : Dev) (i : Nat) : Dev := raise (bump d (pgLpu i) F.LPUL_REFUSED) (pgLpu i) 20

/-- An entry of a test goes to source 30 too (R471). -/
def testEntry (d : Dev) (k pt : Nat) (payload : List Nat) : Dev :=
  let d := ledgerNow d k 0xF pt payload
  { d with ledgerOut := d.ledgerOut.dropLast ++ d.ledgerOut.getLast?.toList.map (fun e => { e with test := true }) }

/-- The run of unit `u` ends with a verdict: DONE and the LPU_RESULT entry (R471, R472). -/
def lpuDone (d : Dev) (i u verdict errs nbits : Nat) : Dev :=
  let p := pgLpu i
  let d := setR (setR d p (F.LPUL_UNIT_STATE u) 3) p (F.LPUL_VERDICT u) verdict
  let d := testEntry (raise d p (8 + u)) 0x0803 (typeCode .lpuLane)
    ([i, u, verdict, getR d p (F.LPUL_PATTERN u)] ++ leBytes 8 errs ++ leBytes 8 nbits)
  lpuShow d i

/-! ## Lane units (R458–R461) -/

/-- LOOP, with 3 as 0. -/
def lpuLoop (d : Dev) (i u : Nat) : Nat :=
  let l := getR d (pgLpu i) (F.LPUL_LOOP u)
  if l = 3 then 0 else l

/-- While a lane unit runs, its lane serves no traffic (R461). -/
def laneDown (d : Dev) (i u : Nat) : Dev :=
  if i = 1 then
    let e := u / 4
    ethShow ((List.range (subPorts d e)).foldl (fun d p => setLink d e p 0) d) e false
  else if i = 2 then linkPut d u 0
  else d

/-- START of lane unit `u` of page `i`; refused for a PCIe lane while the endpoint is not DOWN.
(Log: 222 DEDUCED.) -/
def laneStart (d : Dev) (i u : Nat) : Dev :=
  let p := pgLpu i
  let st := getR d p (F.LPUL_UNIT_STATE u)
  if lpuUnits i ≤ u ∨ st = 1 ∨ st = 2 then d
  else if i = 0 ∧ getR d pgPcie cSTATE ≠ 0 then lpuRefuse d i
  else
    let d := setR (setR d p (F.LPUL_ERRORS u) 0) p (F.LPUL_BITS u) 0
    let d := setR (setR d p (F.LPUL_LOCK_LOSSES u) 0) p (F.LPUL_VERDICT u) 0
    let d := setR d p (F.LPUL_UNIT_STATE u) (if lpuLoop d i u = 2 then 2 else 1)
    lpuShow (laneDown (setLpu d i u ⟨d.ticks, false⟩) i u) i

def execLaneStart (t lpu unit : Nat) (s : State) : Host.Outcome State Fault Refusal :=
  act (decide (lpu < 3) && decide (unit < 8)) s
    (fun d => onPage (pgLpu lpu) (fun d => laneStart d lpu unit) (advance d t))

/-- `errs` bit errors in `n` bits checked join the counters of a locked unit, which saturate (R460). -/
def laneCount (d : Dev) (i u errs n : Nat) : Dev :=
  let p := pgLpu i
  let add (d : Dev) (f : Fld) (k : Nat) : Dev := setR d p f (min (2 ^ 48 - 1) (getR d p f + k))
  if getR d p (F.LPUL_UNIT_STATE u) = 2 ∧ lpuLoop d i u ≠ 2 then add (add d (F.LPUL_ERRORS u) errs) (F.LPUL_BITS u) n
  else d

/-- A lane run ends: the verdict (R459, R460). -/
def laneEnd (d : Dev) (i u errs n : Nat) : Dev :=
  let p := pgLpu i
  let st := getR d p (F.LPUL_UNIT_STATE u)
  if st ≠ 1 ∧ st ≠ 2 then d
  else
    let d := laneCount d i u errs n
    let e := getR d p (F.LPUL_ERRORS u)
    let good := (lpu d i u).inTime && e == 0 && getR d p (F.LPUL_LOCK_LOSSES u) == 0
    lpuDone d i u (if lpuLoop d i u = 2 then 0 else if good then 1 else 2) e (getR d p (F.LPUL_BITS u))

/-- LANE_STOP. -/
def execLaneStop (t lpu unit errs n : Nat) (s : State) : Host.Outcome State Fault Refusal :=
  act (decide (lpu < 3) && decide (unit < 8)) s
    (fun d => onPage (pgLpu lpu) (fun d => laneEnd d lpu unit errs n) (advance d t))

/-- LANE_DURATION_END: DURATION_S after START. -/
def doLaneDuration (t i u errs n : Nat) (d : Dev) : Dev :=
  let st := getR d (pgLpu i) (F.LPUL_UNIT_STATE u)
  if st ≠ 1 ∧ st ≠ 2 then advance d t
  else
    let s := max 1 (getR d (pgLpu i) (F.LPUL_DURATION_S u))
    laneEnd (advance d (max t ((lpu d i u).startAt + sT s))) i u errs n

def execLaneDurationEnd (t lpu unit errs n : Nat) (s : State) : Host.Outcome State Fault Refusal :=
  act (decide (lpu < 3) && decide (unit < 8)) s (doLaneDuration t lpu unit errs n)

/-- CHECKER_LOCKED: 256 consecutive error-free bits. -/
def doChecker (t i u : Nat) (d : Dev) : Dev :=
  let d := advance d t
  let p := pgLpu i
  if getR d p (F.LPUL_UNIT_STATE u) = 1 then
    let x := lpu d i u
    let d := setLpu d i u { x with inTime := x.inTime || decide (d.ticks ≤ x.startAt + msT 1) }
    setR d p (F.LPUL_UNIT_STATE u) 2
  else d

def execCheckerLocked (t lpu unit : Nat) (s : State) : Host.Outcome State Fault Refusal :=
  act (decide (lpu < 3) && decide (unit < 8)) s (doChecker t lpu unit)

/-- LOST_LOCK: 128 errors within 1,024 bits; `errs` and `n` are what the checker counted since the counters were last
brought up. It searches again. -/
def doLostLock (t i u errs n : Nat) (d : Dev) : Dev :=
  let d := advance d t
  let p := pgLpu i
  if getR d p (F.LPUL_UNIT_STATE u) = 2 ∧ lpuLoop d i u ≠ 2 then
    let d := bump (laneCount d i u errs n) p (F.LPUL_LOCK_LOSSES u)
    raise (setR d p (F.LPUL_UNIT_STATE u) 1) p 21
  else d

def execLostLock (t lpu unit errs n : Nat) (s : State) : Host.Outcome State Fault Refusal :=
  act (decide (lpu < 3) && decide (unit < 8)) s (doLostLock t lpu unit errs n)

/-- INJECT: one transmitted bit of a running unit is inverted; in NEAR, inside the part, a locked checker counts it
(R459, R460).
(Log: 222 DEDUCED.) -/
def laneInject (d : Dev) (i u : Nat) : Dev :=
  let st := getR d (pgLpu i) (F.LPUL_UNIT_STATE u)
  if (st ≠ 1 ∧ st ≠ 2) ∨ lpuLoop d i u = 2 then d
  else emit (onlyIf (lpuLoop d i u == 0) (fun d => laneCount d i u 1 0) d) (.inject i u)

def execInject (t lpu unit : Nat) (s : State) : Host.Outcome State Fault Refusal :=
  act (decide (lpu < 3) && decide (unit < 8)) s
    (fun d => onPage (pgLpu lpu) (fun d => laneInject d lpu unit) (advance d t))

/-! ## Bus units (R462, R463) -/

/-- START of a bus unit: on page 3 a whole rank that is ACTIVE or MIGRATING is refused, on page 4 every run while the
Archive is MOUNTING or FORMATTING.
(Log: 222 DEDUCED.) -/
def busStart (d : Dev) (i u : Nat) : Dev :=
  let p := pgLpu i
  let rank := rankState d u (getR d p (F.LPUB_RANK u))
  let refused := if i = 3 then flagR d p (F.LPUB_SCOPE u) && (rank == 1 || rank == 3) else arcSt d == 1 || arcSt d == 5
  if lpuUnits i ≤ u ∨ getR d p (F.LPUB_UNIT_STATE u) = 2 then d
  else if refused then lpuRefuse d i
  else
    let d := setR (setR d p (F.LPUB_ERRORS u) 0) p (F.LPUB_FIRST_FAIL u) 0
    let d := setR (setR d p (F.LPUB_LANE_ERR u) 0) p (F.LPUB_WORST_RAW u) 0
    let d := setR (setR d p (F.LPUB_VERDICT u) 0) p (F.LPUB_UNIT_STATE u) 2
    let d := onlyIf (i == 3 && getR d (pgDmc u) cSTATE == 2) (fun d => srExit d u true) d
    lpuShow (setLpu d i u ⟨d.ticks, false⟩) i

def execBusUnitStart (t lpu unit : Nat) (s : State) : Host.Outcome State Fault Refusal :=
  act (decide (3 ≤ lpu) && decide (lpu < 5) && decide (unit < 8)) s
    (fun d => onPage (pgLpu lpu) (fun d => busStart d lpu unit) (advance d t))

/-- A bus run ends with `errs` bit errors, the first failing place, the failing byte lanes (page 3) and the worst span
(page 4).
(Log: 222 DEDUCED.) -/
def busEnd (d : Dev) (i u errs first lanes worst : Nat) : Dev :=
  let p := pgLpu i
  if getR d p (F.LPUB_UNIT_STATE u) ≠ 2 then d
  else
    let d := setR (setR d p (F.LPUB_ERRORS u) (min (2 ^ 64 - 1) errs)) p (F.LPUB_FIRST_FAIL u) (if errs = 0 then 0 else first)
    let d := if i = 3 then setR d p (F.LPUB_LANE_ERR u) lanes else setR d p (F.LPUB_WORST_RAW u) (min 65535 worst)
    let good := if i = 3 then errs == 0 else decide (worst ≤ getR d p (F.LPUB_RAW_MAX u))
    lpuDone d i u (if good then 1 else 2) errs 0

/-- BUS_UNIT_DONE. -/
def execBusUnitDone (t lpu unit errs first lanes worst : Nat) (s : State) : Host.Outcome State Fault Refusal :=
  act (decide (3 ≤ lpu) && decide (lpu < 5) && decide (unit < 8)) s
    (fun d => busEnd (advance d t) lpu unit errs first lanes worst)

/-- BUS_UNIT_STOP. -/
def execBusUnitStop (t lpu unit errs first lanes worst : Nat) (s : State) : Host.Outcome State Fault Refusal :=
  act (decide (3 ≤ lpu) && decide (lpu < 5) && decide (unit < 8)) s
    (fun d => onPage (pgLpu lpu) (fun d => busEnd d lpu unit errs first lanes worst) (advance d t))

end Sys2Proof.Machine
end

