-- ==== Sys2Proof/Machine/SelfTest.lean ====
section
/-! DEFINITION. The self-test sequencer: slices, verdicts, fences and reports (R464–R471, R473). -/

namespace Sys2Proof.Machine

open Sys2Proof

/-! ## Regions and slices (R465) -/

/-- The number of slices of region `r`. -/
def slicesOf (r : Nat) : Nat :=
  if r < 12 then 10 else if r = regArchive then 4 else if r = regService then 5 else 3

/-- The regions in the order of their tests. -/
def bistOrder : List Nat := [regMemory, regArchive, regHost, regTime] ++ List.range 12 ++ [regService]

/-- The slices of the regions of `l` that REGIONS names, in order.
(Log: 224 DEDUCED.) -/
def bistTodo (d : Dev) (l : List Nat) : List (Nat × Nat) :=
  (bistOrder.filter (fun r => l.contains r && bit (getR d pgBist F.BIST_REGIONS) r)).flatMap (fun r =>
    (List.range (slicesOf r)).map (r, ·))

/-- The verdict of slice `s` of region `r` among slice records (region, slice, verdict, signature, count): NOT_RUN
where it has none, INCOMPLETE where it is STARTED only (R468). -/
def verdictIn (l : List (List Nat)) (r s : Nat) : Nat :=
  match l.find? (fun e => e.getD 0 0 == r && e.getD 1 0 == s) with
  | none => 0
  | some e => min 3 (e.getD 2 0)

/-- The verdicts of the slices of region `r`. -/
def verdictsIn (l : List (List Nat)) (r : Nat) : List Nat := (List.range (slicesOf r)).map (verdictIn l r)

/-- The verdict of region `r` (R466). -/
def regionVerdict (l : List (List Nat)) (r : Nat) : Nat :=
  let vs := verdictsIn l r
  if vs.contains 2 then 2
  else if vs.all (· == 0) then 0
  else if vs.all (· == 1) then 1
  else 3

/-- The regions with verdict `v` as a mask with bits as TESTED. -/
def verdictMask (vs : List Nat) (v : Nat) : Nat := maskOf ((List.range 17).filter (fun r => vs.getD r 0 == v))

/-! ## Reports (R469, R471) -/

/-- The payload of a SELFTEST entry: cause, the masks of the verdicts of all regions, duration in ms. -/
def selftestBytes (cause : Nat) (vs : List Nat) (ms : Nat) : List Nat :=
  cause :: ([1, 2, 3, 0].flatMap (fun v => leBytes 4 (verdictMask vs v)) ++ leBytes 4 ms)

/-- The payload of a SLICE_FAIL entry. -/
def sliceBytes (e : List Nat) : List Nat :=
  [e.getD 0 0, e.getD 1 0, e.getD 2 0] ++ leBytes 8 (e.getD 3 0) ++ leBytes 4 (e.getD 4 0)

/-- The slice records of a run that are FAIL or INCOMPLETE, in the order of the tests.
(Log: 223 DEDUCED.) -/
def badSlices (l : List (List Nat)) : List (List Nat) :=
  (l.filter (fun e => decide (2 ≤ e.getD 2 0))).reverse.map (fun e => e.set 2 (min 3 (e.getD 2 0)))

/-- The milliseconds that the tests of run `b` have taken so far. -/
def bistMs (d : Dev) (b : BistSt) : Nat := (b.before + (d.ticks - b.startAt)) / msT 1

/-- The Almanac follows the run: the slices marked STARTED and their verdicts, and for a shut-down the record that the
next start reads. -/
def almanacShow (d : Dev) (b : BistSt) (l : List (List Nat)) : Dev :=
  let x := { d.boot with slices := l }
  let r : RunRec := ⟨false, (List.range 17).map (regionVerdict l), bistMs d b, badSlices l⟩
  { d with boot := if b.cause = 0 then { x with almRun := some r } else x }

/-- STATUS of the BIST page, and the run as it stands. -/
def bistPut (d : Dev) (b : Option BistSt) : Dev :=
  let run := match b with
    | none => false
    | some b => b.cur.isSome || !b.todo.isEmpty
  let d := setR (setR { d with bist := b } pgBist cSTATE (b2n run)) pgBist cBUSY (b2n run)
  d

/-! ## Beginning and ending a run (R465, R468–R471) -/

/-- The verdicts of the latest run leave the BIST page.
(Log: 225 DEDUCED.) -/
def bistClear (d : Dev) : Dev :=
  let p := pgBist
  (List.range 17).foldl (fun d g =>
    let d := setR (setR (setR d p (F.BIST_VERDICT g) 0) p (F.BIST_FIRST_BAD g) 0) p (F.BIST_SLICES g) 0
    setR (setR d p (F.BIST_DURATION_US g) 0) p (F.BIST_FAIL_SIG_LO g) 0) d

/-- A run ends: its counters and events, and its entries; those of a shut-down run stay in the Almanac (R469).
(Log: 215 DEDUCED, 223 DEDUCED.) -/
def bistFinish (d : Dev) (b : BistSt) : Dev :=
  let p := pgBist
  let vs := (List.range 17).map (regionVerdict b.done)
  let d := setR (bump d p F.BIST_RUNS) p F.BIST_LAST_MS (min (2 ^ 32 - 1) (bistMs d b))
  let d := onlyIf (vs.contains 2) (fun d => raise d p 9) (raise d p 8)
  let d := if b.cause = 0 then almanacShow d b b.done
    else testEntry d 0x0801 (typeCode .bist) (selftestBytes b.cause vs (bistMs d b))
  bistPut d none

/-- The tests that have begun are all done: a run ends, but for the stages of a start, which report together. -/
def bistRest (d : Dev) (b : BistSt) : Dev :=
  if b.cause = 1 then bistPut d (some { b with before := b.before + (d.ticks - b.startAt), startAt := d.ticks })
  else bistFinish d b

/-- A run of `cause` over the slices `todo` begins: 0 shut-down, 2 RUN_NOW.
(Log: 224 DEDUCED.) -/
def bistBegin (d : Dev) (cause : Nat) (todo : List (Nat × Nat)) : Dev :=
  let b : BistSt := ⟨cause, d.ticks, 0, todo, none, 0, [], []⟩
  let d := almanacShow (bistClear d) b []
  if todo.isEmpty then bistFinish d b else bistPut d (some b)

/-- A stage of a start adds the slices `todo` to the start's run (R469). -/
def bistStage (d : Dev) (todo : List (Nat × Nat)) : Dev :=
  if todo.isEmpty then d
  else
    match d.bist with
    | none => bistPut (almanacShow (bistClear d) ⟨1, d.ticks, 0, todo, none, 0, [], []⟩ [])
        (some ⟨1, d.ticks, 0, todo, none, 0, [], []⟩)
    | some b => bistPut d (some { b with startAt := d.ticks, todo := b.todo ++ todo })

/-- The start's tests are over: one report for them all.
(Log: 223 DEDUCED.) -/
def bistStartEnd (d : Dev) : Dev :=
  match d.bist with
  | some b => if b.cause = 1 then bistFinish d { b with startAt := d.ticks } else d
  | none => d

/-- No slice is under test or waits for its turn. -/
def bistQuiet (d : Dev) : Bool :=
  match d.bist with
  | none => true
  | some b => b.cur.isNone && b.todo.isEmpty

/-! ## Fences (R467) -/

/-- Region `r` is fenced for its slices: its Stride cores lose their state (R233), and the gated clusters of a line region are powered for them. -/
def bistFence (d : Dev) (b : BistSt) (r : Nat) : Dev × BistSt :=
  let lend := if r < 12 then (List.range 11).filter (fun c => !(cluster d r c).powered) else []
  let d := if r < 12 ∧ (calSt d r).run ≠ 0 then calAbandon d r 0 else if r = regService then svcCalAbandon d else d
  let d := if r < 12 then (List.range 16).foldl (coreLost r) d else d
  let d := lend.foldl (fun d c => setCluster d r c { cluster d r c with powered := true, waking := false }) d
  let d := { d with fenced := d.fenced ++ [r] }
  let d := if b.cause = 1 then setR d pgPkg F.PKG_TESTED (getR d pgPkg F.PKG_TESTED ||| 2 ^ r) else d
  (d, { b with regionAt := d.ticks, lent := lend })

/-- The verdict of region `r` on the BIST page. That of the memory region at a start takes slices 0–2 together, once
slice 2 has run (R469). -/
def regionShow (d : Dev) (b : BistSt) (r : Nat) : Dev :=
  let p := pgBist
  let vs := verdictsIn b.done r
  let half := b.cause == 1 && r == regMemory && verdictIn b.done r 2 == 0
  let code := (vs.zipIdx.map (fun e => e.1 * 4 ^ e.2)).foldl (· + ·) 0
  let fb := vs.findIdx (· != 1)
  let some_ := decide (fb < vs.length) && !half
  let sig := ((b.done.find? (fun e => e.getD 0 0 == r && e.getD 1 0 == fb)).map (fun e => e.getD 3 0)).getD 0
  let us := getR d p (F.BIST_DURATION_US r) + (d.ticks - b.regionAt) / usT 1
  let d := setR (setR d p (F.BIST_SLICES r) code) p (F.BIST_DURATION_US r) (min (2 ^ 32 - 1) us)
  let d := setR d p (F.BIST_VERDICT r) (if half then 0 else regionVerdict b.done r)
  setR (setR d p (F.BIST_FIRST_BAD r) (if some_ then fb else 0)) p (F.BIST_FAIL_SIG_LO r) (if some_ then sig else 0)

/-- The fence of region `r` is released; the clusters that were powered for the slices are gated again.
(Log: 225 DEDUCED.) -/
def bistRelease (d : Dev) (b : BistSt) (r : Nat) : Dev × BistSt :=
  let d := unfence (regionShow d b r) r
  (b.lent.foldl (fun d c => gateUnit d r c) d, { b with lent := [] })

/-! ## A slice (R464–R466) -/

/-- The page number among the LPU pages and the unit of the analogue checker of line `n`'s cores. -/
def checkPage (n : Nat) : Nat := pgLpu (5 + n / 6)

/-- Slice `s` of region `r` is judged by its measurements and not by a signature.
(Log: 226 DEDUCED.) -/
def analogue (r s : Nat) : Bool := (r < 12 && s < 7) || (r == regService && s < 2)

/-- Every value of an analogue slice lies within its limits: a core's amplitude and phase (slices 0–4), the shift of
both thermal converters against the expected one (slice 5); elsewhere the slice's own finding `ok`. -/
def within (d : Dev) (r s : Nat) (ok : Bool) (vals : List Int) : Bool :=
  if r < 12 ∧ s < 5 then
    decide ((vals.getD 0 0).natAbs ≤ getR d (checkPage r) (F.LPUA_AMP_TOL (r % 6))) &&
    decide ((vals.getD 1 0).natAbs ≤ getR d (checkPage r) (F.LPUA_PH_TOL (r % 6)))
  else if r < 12 ∧ s = 5 then
    (List.range 2).all (fun c =>
      let e := vals.getD (2 + c) 0
      decide ((vals.getD c 0 - e).natAbs * 100 ≤ getR d (pgLpu 7) (F.LPUA_TI_TOL r) * e.natAbs))
  else ok

/-- The analogue checkers show what slice `s` of line `n` measured. -/
def checkShowVals (d : Dev) (n s : Nat) (vals : List Int) : Dev :=
  if s < 5 then
    let d := setS d (checkPage n) (F.LPUA_AMP (n % 6) s) (vals.getD 0 0)
    setS d (checkPage n) (F.LPUA_PHASE (n % 6) s) (vals.getD 1 0)
  else if s = 5 then setS (setS d (pgLpu 7) (F.LPUA_AMP n 0) (vals.getD 0 0)) (pgLpu 7) (F.LPUA_AMP n 1) (vals.getD 1 0)
  else d

/-- The state of the analogue checker that slice `s` of line `n` uses, as the slice begins. -/
def checkerRuns (d : Dev) (n s : Nat) : Dev :=
  if s < 5 then lpuShow (setR (setR d (checkPage n) (F.LPUA_UNIT_STATE (n % 6)) 2) (checkPage n) (F.LPUA_VERDICT (n % 6)) 0) (5 + n / 6)
  else if s = 5 then lpuShow (setR (setR d (pgLpu 7) (F.LPUA_UNIT_STATE n) 2) (pgLpu 7) (F.LPUA_VERDICT n) 0) 7
  else d

/-- The analogue checker of line `n` is done, after its last core (slice 4) or its thermal converters (slice 5). -/
def checkerDone (d : Dev) (b : BistSt) (n s : Nat) : Dev :=
  let judge (l : List Nat) : Nat := if l.all (· == 1) then 1 else if l.contains 2 then 2 else 0
  let put (d : Dev) (i u v : Nat) : Dev :=
    lpuShow (raise (setR (setR d (pgLpu i) (F.LPUA_UNIT_STATE u) 3) (pgLpu i) (F.LPUA_VERDICT u) v) (pgLpu i) (8 + u)) i
  if s = 4 then put d (5 + n / 6) (n % 6) (judge ((List.range 5).map (verdictIn b.done n)))
  else if s = 5 then put d 7 n (judge [verdictIn b.done n 5])
  else d

/-- The tick at which the slice under test is cut: SLICE_MS after its start, or at the end of the budget (R468).
(Log: 225 DEDUCED.) -/
def budgetEnd (d : Dev) (b : BistSt) : Nat := b.startAt + msT (clampN 1 5000 (getR d pgBist F.BIST_BUDGET_MS))
def sliceCut (d : Dev) (b : BistSt) (at_ : Nat) : Nat :=
  min (at_ + msT (max 1 (getR d pgBist F.BIST_SLICE_MS))) (budgetEnd d b)

/-- A core of line `n` was tested with verdict `v` (R127, R465).
(Log: 226 DEDUCED.) -/
def coreTested (d : Dev) (n c v : Nat) : Dev :=
  if v = 2 then
    if isFailed d n c then bump d (pgRx n) F.RX_REQUAL_FAIL else declareFailed d n c 0
  else if v = 1 && isFailed d n c then coreReturns d n c
  else d

/-- What a slice that ends does: a core is declared FAILED or returns; at a start, a DRAM rank that fails is retired
(`vals`: channel and rank, in pairs) and another failure of a line keeps it OFF (R445, R465). -/
def pairsOf : List Int → List (Nat × Nat)
  | c :: r :: l => (c.toNat, r.toNat) :: pairsOf l
  | _ => []
def sliceActs (d : Dev) (b : BistSt) (r s v : Nat) (vals : List Int) : Dev :=
  if r < 12 ∧ s < 5 then coreTested d r s v
  else if b.cause ≠ 1 ∨ v ≠ 2 then d
  else if r < 12 then setR d pgPkg F.PKG_LINE_FAILED (getR d pgPkg F.PKG_LINE_FAILED ||| 2 ^ r)
  else if r = regMemory ∧ s = 2 then
    ((pairsOf vals).filter (fun e => decide (e.1 < 2) && decide (e.2 < 4))).foldl (fun d e => retire d e.1 e.2 none) d
  else d

/-- The slice under test ends with verdict `v`: it is recorded, its region is released after its last slice, and the
run may end.
(Log: 223 DEDUCED, 226 DEDUCED.) -/
def sliceEnd (d : Dev) (b : BistSt) (r s v sig count : Nat) (vals : List Int) (budget : Bool) : Dev :=
  let b := { b with cur := none, done := [r, s, v, sig, count] :: b.done, todo := if budget then [] else b.todo }
  let d := sliceActs (almanacShow d b b.done) b r s v vals
  let d := if r < 12 then checkerDone d b r (if budget then (if s < 5 then 4 else s) else s) else d
  let d := onlyIf (decide (2 ≤ v) && b.cause != 0)
    (fun d => testEntry d 0x0802 (typeCode .bist) (sliceBytes [r, s, v, sig, count])) d
  let x := if b.todo.any (fun e => e.1 == r) then (d, b) else bistRelease d b r
  if x.2.todo.isEmpty then bistRest x.1 x.2 else bistPut x.1 (some x.2)

/-- SLICE_START: the next slice begins, with a STARTED mark, its region fenced. -/
def doSliceStart (t : Nat) (d : Dev) : Dev :=
  let d := advance d t
  match d.bist with
  | none => d
  | some b =>
    match b.cur, b.todo with
    | none, (r, s) :: rest =>
      if Store.get d.boot.freeAt 0 r ≠ 0 then d
      else if budgetEnd d b ≤ d.ticks then
        let b := { b with todo := [] }
        let x := if isFenced d r then bistRelease d b r else (d, b)
        bistRest x.1 x.2
      else
        let x := if isFenced d r then (d, b) else bistFence d b r
        let b := { x.2 with cur := some (r, s, d.ticks), todo := rest }
        let d := almanacShow x.1 b ([r, s, 5, 0, 0] :: b.done)
        bistPut (if r < 12 then checkerRuns d r s else d) (some b)
    | _, _ => d

def execSliceStart (t : Nat) (s : State) : Host.Outcome State Fault Refusal := act true s (doSliceStart t)

/-- SLICE_END: the slice under test ends, with its signature and count and those of the firmware image, or with its
measurements. One that ends past its limits has been cut short (R466, R468). -/
def doSliceEnd (t sig count expSig expCount : Nat) (ok : Bool) (vals : List Int) (d : Dev) : Dev :=
  let d := advance d t
  match d.bist with
  | none => d
  | some b =>
    match b.cur with
    | none => d
    | some (r, s, a) =>
      let good := if analogue r s then within d r s ok vals else sig == expSig
      let v := if count ≠ expCount ∨ sliceCut d b a < d.ticks then 3 else if good then 1 else 2
      sliceEnd (if r < 12 then checkShowVals d r s vals else d) b r s v sig count vals (decide (budgetEnd d b ≤ d.ticks))

def execSliceEnd (t sig count expSig expCount : Nat) (ok : Bool) (vals : List Int) (s : State) :
    Host.Outcome State Fault Refusal :=
  act true s (doSliceEnd t sig count expSig expCount ok vals)

/-- SLICE_TIMEOUT: the slice under test has run for SLICE_MS. -/
def doSliceTimeout (t sig count : Nat) (d : Dev) : Dev :=
  match d.bist with
  | none => advance d t
  | some b =>
    match b.cur with
    | none => advance d t
    | some (r, s, a) =>
      let d := advance d (max t (sliceCut d b a))
      sliceEnd d b r s 3 sig count [] (decide (budgetEnd d b ≤ d.ticks))

def execSliceTimeout (t sig count : Nat) (s : State) : Host.Outcome State Fault Refusal :=
  act true s (doSliceTimeout t sig count)

/-- BUDGET_TIMEOUT: the run has taken BUDGET_MS; slices that have not begun stay NOT_RUN. -/
def doBudgetTimeout (t sig count : Nat) (d : Dev) : Dev :=
  match d.bist with
  | none => advance d t
  | some b =>
    if b.cur.isNone ∧ b.todo.isEmpty then advance d t
    else
      let d := advance d (max t (budgetEnd d b))
      match b.cur with
      | some (r, s, _) => sliceEnd d b r s 3 sig count [] true
      | none =>
        let r := (b.todo.headD (0, 0)).1
        let b := { b with todo := [] }
        let x := if isFenced d r && Store.get d.boot.freeAt 0 r == 0 then bistRelease d b r else (d, b)
        bistRest x.1 x.2

def execBudgetTimeout (t sig count : Nat) (s : State) : Host.Outcome State Fault Refusal :=
  act true s (doBudgetTimeout t sig count)

/-- RUN_NOW: the line regions in REGIONS whose lines are OFF are tested; while a run, a start or a shut-down is in
progress, and in SLEEP, it does nothing (R470).
(Log: 224 DEDUCED.) -/
def runNow (d : Dev) : Dev :=
  if d.bist.isSome ∨ d.boot.stop.isSome ∨ getR d pgPkg F.PKG_BOOT_STAGE < 6 ∨ pState d = 2 then d
  else
    let todo := bistTodo d ((List.range 12).filter (fun n => (line d n).base == 0))
    if todo.isEmpty then d else bistBegin d 2 todo

def execRunNow (t : Nat) (s : State) : Host.Outcome State Fault Refusal :=
  act true s (fun d => onPage pgBist runNow (advance d t))

end Sys2Proof.Machine
end

