-- ==== Sys2Proof/Machine/Shutdown.lean ====
section
/-! DEFINITION. Shut-down, software and SMBus resets, the SMBus slave, power failure and the power state requests of
PACE.PSTATE (R435, R441, R453–R455). -/

namespace Sys2Proof.Machine

open Sys2Proof

/-! ## The steps of an orderly shut-down (R453) -/

/-- A shut-down in progress is at step `k`.
(Log: 210 DEDUCED, 212 DEDUCED.) -/
def stopStep (d : Dev) (x : StopSt) (k : Nat) : Dev :=
  { d with boot := { d.boot with stop := some { x with step := k } } }

/-- The SHUTDOWN entry.
(Log: 211 DEDUCED.) -/
def stopEntry (d : Dev) (cause : Nat) : Dev := ledgerNow d 0x0706 0xF (typeCode .pkg) [cause]

/-- A shut-down begins for a cause (0 PSTATE, 1 register, 2 SMBus, 3 reset request), with the reset that is to follow
step 3, if one is: in SLEEP at step 4, with the time and service regions only. A request during one joins it; after
PWR_FAIL_N nothing is left but the reset (R455).
(Log: 211 DEDUCED.) -/
def stopBegin (d : Dev) (cause : Nat) (reset : Option Nat) : Dev :=
  if d.boot.stop.isSome then d
  else if d.boot.failed ∨ (reset.isSome ∧ pState d = 2) then
    match reset with
    | some k => deviceReset d k 0
    | none => d
  else
    let d := { d with pacer := { d.pacer with goal := none } }
    if pState d = 2 then
      bistBegin (stopEntry (stopStep d ⟨4, cause, none⟩ 4) cause) 0 (bistTodo d [regTime, regService])
    else
      let d := stopStep d ⟨1, cause, reset⟩ 1
      (List.range 12).foldl (fun d n => if (line d n).waitWake then startDrop d n else d) d

/-- Step 1 ends: every line is OFF and its gates are inactive.
(Log: 210 DEDUCED.) -/
def stopLines (d : Dev) : Dev :=
  let d := (List.range 12).foldl (fun d n =>
    let b := (line d n).base
    if b = 0 ∨ b = 6 then d
    else
      let (c, d) := freeV d
      lineOff d n (c % 256)) d
  let d := (List.range 12).foldl gatesIdle d
  { d with gatesHeld := true }

/-- The Ledger entries on their way reach the hub.
(Log: 212 DEDUCED.) -/
def entriesArrive : Nat → Dev → Dev
  | 0, d => d
  | k + 1, d => entriesArrive k (doLedgerEntry d.ticks d)

/-- Step 2 ends: the Stride cores have stopped; frames, records and entries already made are at their rings. -/
def stopCores (d : Dev) : Dev :=
  let lines := List.range 12
  let d := lines.foldl (fun d n => (List.range 16).foldl (fun d k =>
    if coreState d n k = 0 then d else stopCore d n k) d) d
  let d := lines.foldl (fun d n => ((frame d n).out).foldl (fun d _ => doFrameArrive d.ticks n d) d) d
  let d := lines.foldl (fun d n => (List.range 2).foldl (fun d h =>
    ((seqOf (hurdle d n) h).done).foldl (fun d _ => doRecordEmit d.ticks n h d) d) d) d
  entriesArrive d.ledgerOut.length d

/-- What is on its way to the Archive joins its block.
(Log: 212 DEDUCED.) -/
def itemsJoin : Nat → Dev → Dev
  | 0, d => d
  | k + 1, d => itemsJoin k (doArchiveFrame d.ticks d)

/-- Step 3: the SHUTDOWN entry and the Ledger buffer go to the Archive, which writes what it holds, and unmounts. -/
def stopArchive (d : Dev) (cause : Nat) : Dev :=
  let d := stopEntry d cause
  let d := ledgerToArchive (entriesArrive d.ledgerOut.length d)
  unmount (itemsJoin d.arc.inQ.length d)

/-- Step 5: the marker of an orderly shut-down, with the firmware version, and the backup alarm second (R440).
(Log: 208 DEDUCED.) -/
def stopMark (d : Dev) : Dev :=
  let x := { d.boot with orderly := true, almFw := d.boot.fw, offAlarm := getR d pgPkg F.PKG_OFF_ALARM_S }
  { d with boot := x }

/-- Step 6: SUPPLY_EN goes low; the package is OFF.
(Log: 213 DEDUCED.) -/
def stopOff (d : Dev) (cause : Nat) : Dev :=
  let d := supplyPut (pEnter d 3 (if cause = 2 then 4 else 0)) false
  { d with boot := { d.boot with stop := none, held := true } }

/-- SHUTDOWN_STEP_END: the step in progress completes and the next begins; step 4 completes with its self-test.
(Log: 210 DEDUCED, 215 DEDUCED.) -/
def doStopStep (t : Nat) (d : Dev) : Dev :=
  let d := advance d t
  match d.boot.stop with
  | none => d
  | some x =>
    if x.step = 1 then stopStep (stopLines d) x 2
    else if x.step = 2 then stopStep (stopCores d) x 3
    else if x.step = 3 then
      if !bistQuiet d then d
      else
        let d := stopArchive { d with bist := none } x.cause
        match x.reset with
        | some k => deviceReset d k 0
        | none => bistBegin (stopStep d x 4) 0 (bistTodo d (List.range 17))
    else if x.step = 4 then if d.bist.isSome then d else stopStep d x 5
    else stopOff (stopMark d) x.cause

def execShutdownStepEnd (t : Nat) (s : State) : Host.Outcome State Fault Refusal := act true s (doStopStep t)

/-! ## Requests (R435, R441, R453) -/

/-- SHUTDOWN with KEY. -/
def execShutdown (t key : Nat) (s : State) : Host.Outcome State Fault Refusal :=
  act true s (fun d => onlyIf (keyGood key) (fun d => stopBegin d 1 none) (advance d t))

/-- WARM_RESET with KEY: a software reset. -/
def execWarmReset (t key : Nat) (s : State) : Host.Outcome State Fault Refusal :=
  act true s (fun d => onlyIf (keyGood key) (fun d => stopBegin d 3 (some 2)) (advance d t))

/-- PACE.PSTATE is written with `v`: 0 RUN, 1 IDLE, 2 SLEEP, 3 OFF. RUN is refused while a POWER_STATE action is in
force.
(Log: 213 DEDUCED.) -/
def pstatePut (d : Dev) (v : Nat) : Dev :=
  if v = 0 then
    if d.pacer.power ≠ 0 then bump d pgPace F.PACE_PSTATE_REFUSED else askRun d 0
  else if v < 3 then askStop d v 0
  else stopBegin d 0 none

def execPstate (t v : Nat) (s : State) : Host.Outcome State Fault Refusal :=
  act (decide (v < 4)) s (fun d => onPage pgPace (fun d => pstatePut d v) (advance d t))

/-! ## The SMBus slave (R454) -/

/-- The slave at address `addr` answers, and the packet error code, where there is one, is good (`pec`). -/
def smbusOn (d : Dev) (addr : Nat) (pec : Bool) : Bool := addr == 0x60 + pkgIndex d && pec

/-- The STATUS word. -/
def smbusWord (d : Dev) : Nat :=
  let p := pgPkg
  pState d + getR d p F.PKG_LC_STATE * 4 + getR d p F.PKG_BOOT_STAGE * 16 + getR d p F.PKG_UNCLEAN * 256 +
    getR d p F.PKG_TRIP_SEEN * 512

/-- A command of the slave with effect `f`.
(Log: 214 DEDUCED.) -/
def smbus (t addr : Nat) (pec : Bool) (f : Dev → Dev) (s : State) : Host.Outcome State Fault Refusal :=
  act (decide (addr < 128)) s (fun d =>
    let d := advance d t
    onlyIf (smbusOn d addr pec) f d)

def execSmbusStatus (t addr : Nat) (pec : Bool) (s : State) : Host.Outcome State Fault Refusal :=
  smbus t addr pec (fun d => emit d (.smbus (leBytes 2 (smbusWord d)))) s

def execSmbusWake (t addr : Nat) (pec : Bool) (s : State) : Host.Outcome State Fault Refusal :=
  smbus t addr pec (fun d => askRun d 4) s

def execSmbusShutdown (t addr v : Nat) (pec : Bool) (s : State) : Host.Outcome State Fault Refusal :=
  smbus t addr pec (onlyIf (v == 0x5D) (fun d => stopBegin d 2 none)) s

def execSmbusReset (t addr v : Nat) (pec : Bool) (s : State) : Host.Outcome State Fault Refusal :=
  smbus t addr pec (onlyIf (v == 0xA5) (fun d => stopBegin d 3 (some 3))) s

def execSmbusTemp (t addr : Nat) (pec : Bool) (s : State) : Host.Outcome State Fault Refusal :=
  smbus t addr pec (fun d =>
    let m := maxI (-32768) ((List.range 3).map (fun k => getS d (pgTherm k) F.THERM_TEMP_MAX))
    emit d (.smbus (leBytes 2 (ux 16 m)))) s

/-! ## Power failure (R455) -/

/-- The blocks of the Ledger volume, and they alone, are written and durable. -/
def ledgerFlush (d : Dev) : Dev :=
  let d := ledgerToArchive (entriesArrive d.ledgerOut.length d)
  let d := itemsJoin d.arc.inQ.length d
  if arcSt d ≠ 2 then d
  else
    let d := match openOf d 36 with
      | some o => closeBlock d o
      | none => d
    let rest := d.arc.staged.filter (fun b => b.stream != 36)
    let d := { d with arc := { d.arc with staged := d.arc.staged.filter (fun b => b.stream == 36) } }
    let d := encodeAll d.arc.staged.length d
    let d := journal { d with arc := { d.arc with staged := d.arc.staged ++ rest } } false
    arcShow ((blocksIn d (fun b => b.stream == 36 && !b.durable)).foldl setDurable d)

/-- POWER_FAIL: PWR_FAIL_N goes low.
(Log: 214 DEDUCED.) -/
def doPowerFail (t : Nat) (d : Dev) : Dev :=
  let d := advance d t
  let d := (List.range 12).foldl (fun d n => emit (gatesIdle d n) (.pin (.dac n) 8192)) d
  let d := (List.range 12).foldl (fun d n => setFrame d n { frame d n with nextInst := none }) d
  let d := ledgerFlush { d with gatesHeld := true }
  { d with boot := { d.boot with failed := true, stop := none } }

def execPowerFail (t : Nat) (s : State) : Host.Outcome State Fault Refusal := act true s (doPowerFail t)

end Sys2Proof.Machine
end

