-- ==== Sys2Proof/Machine/Access.lean ====
section
/-! DEFINITION. A 32-bit access to a register address of this package: what each word of each page does when it is
written, and what a read returns (R43–R51, and the register tables of every page). -/

namespace Sys2Proof.Machine

open Sys2Proof

/-! ## Words that only store -/

/-- The RW and ST fields of the word take their bits (R45, R48); WO and RO fields do not store. -/
def plainWord (d : Dev) (p : Nat) (k : PageKind) (off v : Nat) : Dev :=
  putFields .st (putFields .rw d p k off v) p k off v

/-! ## CTRL and the common registers (R43, R44) -/

/-- The block-specific bits of CTRL, taken in ascending order.
(Log: 32 DESIGN CHOICE.) -/
def ctrlBits (d : Dev) (p : Nat) (k : PageKind) (v : Nat) : Dev :=
  let t := d.ticks
  let b (i : Nat) (f : Dev → Dev) (d : Dev) : Dev := if bit v i then f d else d
  let n := (lineOfPage p).getD 0
  match k with
  | .line => b 9 (fun d => cancelLine d n) (b 8 (fun d => commitShot d n) d)
  | .cal => b 8 (fun d => calEval (calDue d n (if bit v 9 then 2 else 1)) n) d
  | .stride =>
    let c := p - pgStride n 0
    b 10 (doDoorbell t n c) (b 9 (fun d => stopCore d n c) (b 8 (fun d => startCore d n c) d))
  | .svc => b 9 (fun d => svcWant d 2) (b 8 (fun d => svcWant d 1) d)
  | .time => b 8 (doSetArm t) d
  | .pf =>
    let i := p - pgPf 0
    b 10 (fun d => pfPass d i) (b 9 (doPfDisarm t i) (b 8 (doPfArm t i) d))
  | .arc =>
    let d := b 10 unmount (b 9 mount (b 8 format d))
    b 13 retCancel (b 12 retGo (b 11 snapGo d))
  | .mel => b 8 (doMelGo t (p - pgMel 0)) d
  | _ => d

/-- A word below 0x040; on PACE_TBL none of them is implemented (R44).
(Log: 32 DESIGN CHOICE.) -/
def commonWrite (d : Dev) (p : Nat) (k : PageKind) (off v : Nat) : Dev :=
  if p = pgPaceTbl then d
  else if off = 0x008 then
    let d := if bit v 1 then clearPage d p k else d
    ctrlBits (if bit v 0 then commitPage d p else d) p k v
  else if off = 0x014 then setR d p cEVT_EN v
  else if off = 0x01C then doEvtClr d.ticks p v 0 d
  else if off = 0x020 then doEvtSet d.ticks p v d
  else d

/-! ## The words of the hub pages that do more than store -/

/-- PKG (R57, R58, R253, R456). What an LC_ADVANCE needs to know of its certificate's signature is left open where it
comes as a plain write.
(Log: 32 DESIGN CHOICE, 33 DESIGN CHOICE.) -/
def pkgWrite (d : Dev) (off v : Nat) : Dev :=
  let t := d.ticks
  if off = 0x040 then doStkReq t v d
  else if off = 0x050 then doVecRearm t 0 v d
  else if off = 0x054 then doVecRearm t 1 v d
  else if off = 0x08C then doUserGo t v d
  else if off = 0x0A0 then
    if keyGood (bits v 0 16) then
      let d := if bit v 18 then (let (x, d) := freeV d; lcAdvance d (x % 2 == 1) true) else d
      let d := if bit v 17 then stopBegin d 1 none else d
      if bit v 16 then stopBegin d 3 (some 2) else d
    else d
  else if off = 0x0A4 then lineResets d (bits v 0 12) (bits v 16 16)
  else if off = 0x0A8 then
    let was := flagR d pgPkg F.PKG_WDOG_EN
    let d := plainWord d pgPkg .pkg off v
    onlyIf (!was && flagR d pgPkg F.PKG_WDOG_EN) (fun d => wdogKick d 0x4B4B) d
  else if off = 0x0AC then wdogKick d v
  else plainWord d pgPkg .pkg off v

/-- PACE (R427, R435, R437). -/
def paceWrite (d : Dev) (off v : Nat) : Dev :=
  if off = 0x068 then pstatePut d (bits v 0 2)
  else if off = 0x090 then if bit v 0 then postHost d else d
  else if off = 0x094 then if bit v 8 then doneHost d (bits v 0 6) else d
  else plainWord d pgPace .pace off v

/-- A shelf pool's page (R341, R342, R346): RESERVE and LIMIT share a word, and RESERVE is taken first.
(Log: 32 DESIGN CHOICE.) -/
def shelfWrite (d : Dev) (k off v : Nat) : Dev :=
  let t := d.ticks
  if 0x040 ≤ off ∧ off < 0x040 + 4 * poolReqs k then
    let q := (off - 0x040) / 4
    doShelfLimit t k q (bits v 16 10) (doShelfReserve t k q (bits v 0 10) d)
  else if k = 0 ∧ 0xC00 ≤ off ∧ off < 0xC00 + 32 * 12 ∧ off % 32 < 16 then
    doRollCfg t ((off - 0xC00) / 32) (off % 32 / 4) v d
  else d

/-- The delay words of a DLY page (R355, R356). -/
def dlyWrite (d : Dev) (c off v : Nat) : Dev :=
  if off = 0x040 then doSweepGo d.ticks c v d
  else if 0xC00 ≤ off ∧ off < 0xC00 + 24 * 36 then
    let x := (off - 0xC00) / 24
    doDelayWrite d.ticks c (x / 9) (x % 9) ((off - 0xC00) % 24 / 4) v d
  else d

/-- ARC (R370, R383). -/
def arcPageWrite (d : Dev) (off v : Nat) : Dev :=
  if off = 0x040 then setR d pgArc F.ARC_FMT_KEY v
  else if off = 0x068 then unpin d v
  else plainWord d pgArc .arc off v

/-- CHK (R396–R398): CTRL takes COMPARE, INIT, GO and ABORT in this order; how many bytes an aborted job has fed is
left open where ABORT comes as a plain write.
(Log: 33 DESIGN CHOICE.) -/
def chkWrite (d : Dev) (off v : Nat) : Dev :=
  if 0x040 ≤ off ∧ off < 0x240 then
    let u := (off - 0x040) / 64
    let o := (off - 0x040) % 64
    if o = 0 then chkCfg d u v
    else if o = 4 then
      let d := if bit v 1 then chkCompare d u else d
      let d := if bit v 0 then chkInit d u else d
      let d := if bit v 2 then chkGo d u else d
      if bit v 3 then (let (x, d) := freeV d; chkAbort d u x) else d
    else if o = 8 then chkData d u v
    else if o = 0x0C then chkStateW d u 0 v
    else if o = 0x10 then chkStateW d u 1 v
    else plainWord d pgChk .chk off v
  else plainWord d pgChk .chk off v

/-- RINGS (R408, R417). -/
def ringsWrite (d : Dev) (off v : Nat) : Dev :=
  if 0x100 ≤ off ∧ off < 0x300 then doBindWrite d.ticks ((off - 0x100) / 16) (off % 16 / 4) v d
  else if 0x300 ≤ off ∧ off < 0x380 then doRdWrite d.ticks ((off - 0x300) / 4) v d
  else plainWord d pgRings .rings off v

/-- FLOWS (R411, R419). -/
def flowsWrite (d : Dev) (off v : Nat) : Dev :=
  if 0xC00 ≤ off then doFlowWrite d.ticks ((off - 0xC00) / 32) (off % 32 / 4) v d
  else plainWord d pgFlows .flows off v

/-- The LPU pages (R459–R463, R472): what a stopped unit had counted is left open where STOP comes as a plain write.
(Log: 33 DESIGN CHOICE.) -/
def lpuWrite (d : Dev) (i : Nat) (k : PageKind) (off v : Nat) : Dev :=
  let u := (off - 0x040) / 64
  if i < 5 ∧ 0x040 ≤ off ∧ off < 0x240 ∧ (off - 0x040) % 64 = 0x10 then
    if lpuUnits i ≤ u then d
    else if i < 3 then
      let d := if bit v 0 then laneStart d i u else d
      let d := if bit v 1 then (let (e, d) := freeV d; let (n, d) := freeV d; laneEnd d i u e n) else d
      if bit v 2 then laneInject d i u else d
    else
      let d := if bit v 0 then busStart d i u else d
      if bit v 1 then
        let (e, d) := freeV d
        let (f, d) := freeV d
        let (l, d) := freeV d
        let (w, d) := freeV d
        busEnd d i u e f l w
      else d
  else plainWord d (pgLpu i) k off v

/-! ## The words of the line pages that do more than store -/

/-- The pages of line `n` (R124, R127, R140, R206, R236, R240, R254, R255). -/
def lineWrite (d : Dev) (n p : Nat) (k : PageKind) (off v : Nat) : Dev :=
  let t := d.ticks
  match k with
  | .rx =>
    let d := plainWord d p k off v
    if off = 0x04C then
      let d := failCore d n (bits v 0 3)
      if bit v 4 then doRequal t n d else d
    else d
  | .slot => if off = 0x048 then coefCtrl d n (p - pgSlot n 0) v else plainWord d p k off v
  | .frame =>
    let d := plainWord d p k off v
    if off = 0x04C ∨ off = 0x050 then strainShow d n else d
  | .stack =>
    if off = 0x068 then doSeed t n v d
    else if off = 0x098 then setR d p F.STACK_RD_BASE (v / 32 * 32)
    else plainWord d p k off v
  | .stride =>
    let c := p - pgStride n 0
    if 0xC00 ≤ off then winWrite d n c off v
    else if off = 0x040 then plainWord d p k off (v / 64 * 64)
    else
      let d := plainWord d p k off v
      let x := core d n c
      if off = 0x050 ∧ x.timerV = 0 then setCore d n c { x with timerV := v, timerAt := d.ticks } else d
  | .hurdle =>
    if off = 0x040 ∨ off = 0x044 then seqCfg d n ((off - 0x040) / 4) v
    else if 0xC00 ≤ off then arcWrite d n ((off - 0xC00) / 4) v
    else plainWord d p k off v
  | _ => plainWord d p k off v

/-! ## A write of one word -/

/-- The word at `off` of page `p`, of kind `k`, is written with `v`. -/
def pageWrite (d : Dev) (p : Nat) (k : PageKind) (off v : Nat) : Dev :=
  if off < 0x040 then commonWrite d p k off v
  else
    match lineOfPage p with
    | some n => commitShow (lineWrite d n p k off v) n
    | none =>
      match k with
      | .pkg => pkgWrite d off v
      | .pace => paceWrite d off v
      | .time => timeShow (timeCfg (plainWord d p k off v))
      | .ptp => ptpShow (plainWord d p k off v) (p - pgPtp 0)
      | .pf => pfDup (plainWord d p k off v)
      | .shelfHub => shelfWrite d 0 off v
      | .shelfDie => shelfWrite d (if p < 0x800 then 1 else 2) off v
      | .bridge =>
        let d := plainWord d p k off v
        if off = 0x040 ∧ bit v 0 then retrain d (if p < 0x800 then 1 else 2) else d
      | .dmc => if off = 0x058 then doRequalGo d.ticks (p - pgDmc 0) v d else plainWord d p k off v
      | .dly => dlyWrite d (p - pgDly 0) off v
      | .arc => arcPageWrite d off v
      | .mel => if off = 0x040 then melHostWrite d (p - pgMel 0) (bits v 0 1) else plainWord d p k off v
      | .chk => chkWrite d off v
      | .rings => ringsWrite d off v
      | .eth => if off = 0x040 then doEthMode d.ticks (p - pgEth 0) v false d else plainWord d p k off v
      | .flows => flowsWrite d off v
      | .svc => if off = 0x058 then doInjGo d.ticks v d else plainWord d p k off v
      | .lpuLane => lpuWrite d (p - pgLpu 0) k off v
      | .lpuBus => lpuWrite d (p - pgLpu 0) k off v
      | .lpuAna => plainWord d p k off v
      | .bist => if off = 0x048 then (if bit v 0 then runNow d else d) else plainWord d p k off v
      | _ => plainWord d p k off v

/-- What became of an access: 0 carried out, 2 turned away under R46, 3 under R47; with the value that a read gives,
and the device after it. -/
def localWrite (d : Dev) (addr size v : Nat) : Nat × Dev :=
  let p := addr / 4096
  let off := addr % 4096
  let v := v % 2 ^ 32
  if size ≠ 4 ∨ addr % 4 ≠ 0 ∨ (kindOf p = none ∧ coefOf p = none) ∨ pageHidden d p then (2, badAccess d)
  else if pageFenced d p then (3, bump d pgPkg F.PKG_FENCE_ACCESS)
  else if pageDark d p then (0, d)
  else match coefOf p, kindOf p with
    | some (n, s, h), _ => (0, coefStore d n s (1024 * h + off / 4) v)
    | none, some k => (0, pageWrite d p k off v)
    | none, none => (2, badAccess d)

/-- The word at `off` of page `p`, with the effects of a read (R51, R301).
(Log: 29 DESIGN CHOICE.) -/
def pageRead (d : Dev) (p : Nat) (k : PageKind) (off : Nat) : Nat × Dev :=
  if p = pgCat ∧ off = 0x408 then
    ((catSel d).elim 0 entryHi, setR d pgCat F.CAT_INDEX (getR d pgCat F.CAT_INDEX + 1))
  else if p = pgTime ∧ off = F.TIME_NOW_S.off then (taiSec (tai d) % 2 ^ 32, latchNow d)
  else if k = .stride ∧ 0xC00 ≤ off then
    let n := (lineOfPage p).getD 0
    (winWord d n (p - pgStride n 0) off, d)
  else (pageWord d p k off, d)

/-- A read of the word at `addr` (R46, R47, R153, R443); a page without power gives a value the spec leaves open.
(Log: 29 DESIGN CHOICE.) -/
def localRead (d : Dev) (addr : Nat) : Nat × Nat × Dev :=
  let p := addr / 4096
  let off := addr % 4096 / 4 * 4
  if (kindOf p = none ∧ coefOf p = none) ∨ pageHidden d p then (2, 0, d)
  else if pageFenced d p then (3, 0xFFFFFFFF, bump d pgPkg F.PKG_FENCE_ACCESS)
  else if pageDark d p then (let (x, d) := freeV d; (0, x % 2 ^ 32, d))
  else match coefOf p, kindOf p with
    | some (n, s, h), _ => (0, coefWord d n s (1024 * h + off / 4), d)
    | none, some k => (0, pageRead d p k off)
    | none, none => (2, 0, d)

/-- What a narrower read returns: the bytes asked for in their places, the others 0 (R46). -/
def narrowRead (size off v : Nat) : Nat :=
  if 4 ≤ size then v else bits v (8 * (off % 4)) (8 * size) * 2 ^ (8 * (off % 4)) % 2 ^ 32

/-- STAGED_WRITE: the word at `off` of page `pg` is written; its ST fields take their staged values (R48). -/
def execStagedWrite (t pg off v : Nat) (s : State) : Host.Outcome State Fault Refusal :=
  act true s (fun d => (localWrite (advance d t) (pg * 4096 + off % 4096) 4 v).2)

end Sys2Proof.Machine
end

