-- ==== Sys2Proof/Machine/Proxy.lean ====
section
/-! DEFINITION. The remote window: accesses that Baton carries to another package, and a register write at any address
(R45, R330). -/

namespace Sys2Proof.Machine

open Sys2Proof

/-- The port on which package `g` is reached: 1 DOWN, 0 UP; none where no announcement names it. -/
def pkgPort (d : Dev) (g : Nat) : Option Nat :=
  if d.baton.below.contains g then some 1 else if d.baton.above.contains g then some 0 else none

/-- A proxied access is issued: it leaves where its target is reached, and is outstanding from now on. -/
def proxyIssue (d : Dev) (x : Proxy) : Dev :=
  let x := { x with since := d.ticks }
  let d := { d with baton := { d.baton with proxies := d.baton.proxies ++ [x] } }
  match pkgPort d x.pkg with
  | some port => batonSend d port 5 [(x.pkg : Int), (x.addr : Int), (b2n x.write : Int), (x.data : Int)]
  | none => d

/-- The reads outstanding. -/
def readsOut (d : Dev) : Nat := (d.baton.proxies.filter (fun x => !x.write)).length

/-- The accesses that wait are issued in order, as far as at most 8 reads are outstanding.
(Log: 159 DEDUCED.) -/
def proxyDrain : Nat → Dev → Dev
  | 0, d => d
  | k + 1, d =>
    match d.baton.waiting with
    | [] => d
    | x :: r =>
      if !x.write && decide (8 ≤ readsOut d) then d
      else proxyDrain k (proxyIssue { d with baton := { d.baton with waiting := r } } x)

/-- A proxied access is made: counted, and issued in its turn.
(Log: 159 DEDUCED.) -/
def proxyPut (d : Dev) (x : Proxy) : Dev :=
  let d := bump d pgBtn (if x.write then F.BTN_PROXY_WRITES else F.BTN_PROXY_READS)
  let d := { d with baton := { d.baton with waiting := d.baton.waiting ++ [x] } }
  proxyDrain d.baton.waiting.length d

/-- What an access at BAR0 address `addr` comes to: carried out here with a status (0 done, 2 R46, 3 R47), a value
and the device after it, or on its way to another package, or waiting for a bridge that retrains (R35).
(Log: 31 DEDUCED.) -/
def busAccess (d : Dev) (owner addr : Nat) (write : Bool) (size v : Nat) : Option (Nat × Nat) × Dev :=
  let here (d : Dev) (a : Nat) : Option (Nat × Nat) × Dev :=
    let b := pageDie (a / 4096)
    if write then
      let r := localWrite d a size v
      (some (r.1, 0), r.2)
    else if b ≠ 0 ∧ (bridge d b).retraining then
      let x : Proxy := ⟨owner, pkgIndex d, a, false, 0, d.ticks, size⟩
      (none, setBridge d b { bridge d b with reads := (bridge d b).reads ++ [x] })
    else
      let r := localRead d a
      (some (r.1, r.2.1), r.2.2)
  if addr < 0xC00000 ∨ 0x1000000 ≤ addr then here d addr
  else
    let q := getR d pgBtn F.BTN_WIN_QTR
    let g := getR d pgBtn F.BTN_WIN_PKG
    let a := q * 0x400000 + (addr - 0xC00000)
    if write ∧ (size ≠ 4 ∨ addr % 4 ≠ 0) then (some (2, 0), badAccess d)
    else if q = 3 then (some (0, 0xFFFFFFFF), bump d pgBtn F.BTN_PROXY_REFUSED)
    else if g = pkgIndex d then here d a
    else (none, proxyPut d ⟨owner, g, a, write, v % 2 ^ 32, d.ticks, size⟩)

/-- PROXY_ACCESS: an access to the remote window at offset `off` (R330). -/
def doProxyAccess (t off : Nat) (write : Bool) (size v : Nat) (d : Dev) : Dev :=
  let d := advance d t
  match busAccess d 0 (0xC00000 + off) write size v with
  | (some r, d) => if write then d else emit d (.readData (narrowRead size off r.2))
  | (none, d) => d

def execProxyAccess (t off : Nat) (write : Bool) (size v : Nat) (s : State) : Host.Outcome State Fault Refusal :=
  act (decide (off < 4194304) && decide (size < 5)) s (doProxyAccess t off write size v)

/-- REGISTER_WRITE: a write of `size` bytes at BAR0 address `addr` (R45–R47, R330). -/
def execRegisterWrite (t addr size v : Nat) (s : State) : Host.Outcome State Fault Refusal :=
  act (decide (size < 5)) s (fun d => (busAccess (advance d t) 0 addr true size v).2)

end Sys2Proof.Machine
end

