-- ==== Sys2Proof/Machine/Boot.lean ====
section
/-! DEFINITION. The start sequence (R443–R447, R469). -/

namespace Sys2Proof.Machine

open Sys2Proof

/-- BOOT_STAGE (R444).
(Log: 208 DEDUCED, 216 DEDUCED.) -/
def bootStage (d : Dev) : Nat := getR d pgPkg F.PKG_BOOT_STAGE
def toStage (d : Dev) (k : Nat) : Dev := setR d pgPkg F.PKG_BOOT_STAGE k

/-- Stage 0 ends: trims, the shut-down marker, which is cleared, and the record of a thermal trip (R117, R447). The
bridges are up.
(Log: 18 DESIGN CHOICE.) -/
def bootFuses (d : Dev) : Dev :=
  let d := (List.range 12).foldl (fun d n => setR d (pgRx n) F.RX_GAIN_DLY (clampN 2 6 (d.boot.fuseTrim.getD n 2))) d
  let d := setR (setR d pgPkg F.PKG_UNCLEAN (b2n (!d.boot.orderly))) pgPkg F.PKG_TRIP_SEEN (b2n d.boot.trip.isSome)
  let d := (List.range 2).foldl (fun d b => setR d (pgBridge (b + 1)) F.BRIDGE_LINK_STATE 2) d
  toStage { d with boot := { d.boot with orderly := false } } 1

/-- Region `r` is cleared (R445). -/
def isCleared (d : Dev) (r : Nat) : Bool :=
  match d.boot.almRun with
  | none => false
  | some x => !x.spent && x.verdicts.getD r 0 == 1 && !flagR d pgPkg F.PKG_UNCLEAN && d.boot.almFw == d.boot.fw &&
      !flagR d pgPkg F.PKG_TRIP_SEEN

/-- The configuration image's records are written in order, those that `f` takes (R442). -/
def applyCfg (d : Dev) (f : Nat → Bool) : Dev :=
  (d.boot.cfg.filter (fun e => f e.1)).foldl (fun d e => (busAccess d 2 e.1 true 4 e.2).2) d

/-- The word 0x040 of a DRAM controller, which takes effect only in INIT (R360).
(Log: 216 DEDUCED.) -/
def dmcWord (a : Nat) : Bool := a == pgDmc 0 * 4096 + 0x040 || a == pgDmc 1 * 4096 + 0x040

/-- Stage 1 ends: `vals` says for slots A and B whether each passes R443 and what firmware version it holds; the
configuration image of the slot used is `cfg`. Stage 2 begins: it clears the stored results (R445) and tests the service
regions that are not cleared, the memory region without its slice 2.
(Log: 216 DEDUCED, 217 DESIGN CHOICE.) -/
def bootImages (d : Dev) (vals : List Nat) (cfg : List (Nat × Nat)) : Dev :=
  let slot := if vals.getD 0 0 = 1 then 0 else 1
  if vals.getD slot 0 ≠ 1 then toStage d 15
  else
    let x := { d.boot with fw := vals.getD (2 + slot) 0 % 2 ^ 32, cfg := cfg, kick := d.ticks, grace := false }
    let d := toStage (setR { d with boot := x } pgPkg F.PKG_BOOT_SLOT slot) 2
    let ok := (List.range 17).filter (isCleared d)
    let d := { d with boot := { d.boot with cleared := ok, almRun := d.boot.almRun.map (fun r => { r with spent := true }) } }
    let rs := [regMemory, regArchive, regHost, regTime, regService].filter (fun r => !ok.contains r)
    bistStage d ((bistTodo d rs).filter (fun e => e != (regMemory, 2)))

/-- The DRAM is initialised: `vals` gives the MiB of a rank and whether the stored delays pass their CRC; else `cfg` gives
the delays that the full sweeps found, keyed as in the Almanac (R355, R444).
(Log: 216 DEDUCED.) -/
def bootDram (d : Dev) (vals : List Nat) (cfg : List (Nat × Nat)) : Dev :=
  let d := if vals.getD 1 0 = 1 then d
    else { d with almDly := cfg.foldl (fun m e => Store.set m 0 e.1 (e.2 % 2 ^ 32)) [] }
  let d := d.almDly.foldl (fun d e =>
    setDelay d (e.1 / 216) (e.1 % 216 / 54) (e.1 % 54 / 6) (e.1 % 6) e.2) { d with dlyLive := d.almDly }
  let d := { d with rankMiB := vals.getD 0 0, boot := { d.boot with dram := true } }
  (List.range 2).foldl (fun d c =>
    let p := pgDmc c
    let n := getR d p F.DMC_RANKS
    let sp := getR d p F.DMC_SPARE_RANK
    let keep := flagR d p F.DMC_SPARE_EN && decide (sp ≤ n) && decide (0 < n)
    let word := getR d p F.DMC_SPEED + n * 16 + b2n keep * 256 + sp * 512 + getR d p F.DMC_DENSITY * 4096 +
      getR d p F.DMC_RDIMM * 8192
    let d := (List.range 4).foldl (fun d r => setRank d c r (if n < r then 0 else if keep && r == sp then 2 else 1)) d
    setR (setDmc d c { dmc d c with spareEn := keep, cfg := word, lastReq := d.ticks }) p cSTATE 1) d

/-- Stage 4 begins: the lines not cleared are to be tested, the configuration is applied, coefficients load, the Ledger
reserves its block, where `ok` says that the write was verified (R250), and the Archive begins to mount. -/
def bootLines (d : Dev) (ok : Bool) : Dev :=
  let d := toStage d 4
  let d := bistStage d (bistTodo d ((List.range 12).filter (fun n => !d.boot.cleared.contains n)))
  let d := applyCfg d (fun _ => true)
  let d := (List.range 8).foldl pfLoad (svcLoad ((List.range 12).foldl calLoad d))
  let d := if d.ledger.reseedWait then d else reserveBlock d ok
  mount d

/-- Stage 3: the DRAM, then slice 2 of a memory region that is not cleared. -/
def bootMemory (d : Dev) (vals : List Nat) (cfg : List (Nat × Nat)) : Dev :=
  let todo := (bistTodo d [regMemory]).filter (fun e => e == (regMemory, 2))
  let ok := vals.getD 2 1 != 0
  if d.boot.dram then (if bistQuiet d then bootLines d ok else d)
  else
    let d := bootDram d vals cfg
    if d.boot.cleared.contains regMemory ∨ todo.isEmpty then bootLines d ok else bistStage d todo

/-- The verdicts of the latest shut-down run, from the Almanac (R469).
(Log: 215 DEDUCED.) -/
def storedRun (d : Dev) : Dev :=
  match d.boot.almRun with
  | none => d
  | some r =>
    let d := ledgerNow d 0x0801 0xF (typeCode .bist) (selftestBytes 0 r.verdicts r.ms)
    let d := r.bad.foldl (fun d e => ledgerNow d 0x0802 0xF (typeCode .bist) (sliceBytes e)) d
    { d with boot := { d.boot with almRun := none } }

/-- Stage 6 (R444, R447, R457): the entries POWER_FAIL, THERMAL_TRIP, those of the shut-down self-test, and BOOT. Numbering
that still waits for an Archive resumes from the backup counter (R251).
(Log: 216 DEDUCED, 218 DEDUCED.) -/
def bootDone (d : Dev) : Dev :=
  let p := pgPkg
  let d := if d.ledger.reseedWait ∧ arcSt d ≠ 2 then reseed d (bkpSecs d * 2 ^ 20) 2 else d
  let d := toStage d 6
  let d := onlyIf (flagR d p F.PKG_UNCLEAN) (fun d => ledgerNow d 0x0707 0xF (typeCode .pkg) (leBytes 4 (lastDurable d))) d
  let d := match d.boot.trip with
    | some (k, i, r) =>
      let d := ledgerNow d 0x0702 0xF (typeCode .pkg) ([k, i] ++ leBytes 2 (ux 16 r))
      { d with boot := { d.boot with trip := none } }
    | none => d
  let d := storedRun d
  let ms := min (2 ^ 32 - 1) ((d.ticks - d.boot.releaseAt) / msT 1)
  let d := raise (setR d p F.PKG_BOOT_MS ms) p 12
  ledgerNow d 0x0701 0xF (typeCode .pkg)
    ([getR d p F.PKG_RESET_CAUSE, getR d p F.PKG_LC_STATE, getR d p F.PKG_BOOT_SLOT] ++ leBytes 4 d.boot.fw ++
      leBytes 4 ms ++ leBytes 4 (getR d p F.PKG_TESTED) ++ leBytes 2 (getR d p F.PKG_LINE_FAILED))

/-- BOOT_STAGE_END: the stage in progress completes and the next begins; a stage with tests completes when they have, and
stage 5 when the mount has.
(Log: 217 DESIGN CHOICE.) -/
def doBootStage (t : Nat) (vals : List Nat) (cfg : List (Nat × Nat)) (d : Dev) : Dev :=
  let d := advance d t
  let k := bootStage d
  if d.boot.stop.isSome then d
  else if k = 0 then bootFuses d
  else if k = 1 then bootImages d vals cfg
  else if k = 2 then (if bistQuiet d then applyCfg (toStage d 3) dmcWord else d)
  else if k = 3 then bootMemory d vals cfg
  else if k = 4 then (if bistQuiet d then toStage (bistStartEnd d) 5 else d)
  else if k = 5 then (if arcSt d = 1 then d else bootDone d)
  else d

def execBootStageEnd (t : Nat) (vals : List Nat) (cfg : List (Nat × Nat)) (s : State) : Host.Outcome State Fault Refusal :=
  act true s (doBootStage t vals cfg)

end Sys2Proof.Machine
end

