-- ==== Sys2Proof/Machine/Commands.lean ====
section
/-! DEFINITION. The command path: datagrams, entries, operations and completions, and the completion of proxied accesses
(R330, R414, R415). -/

namespace Sys2Proof.Machine

open Sys2Proof

/-! ## Entries (R414) -/

/-- The data words that an operation defines (R415). -/
def opWords (op count : Nat) : Nat := if op = 1 then min count 64 else if op = 3 ∨ op = 4 then 1 else 0

/-- The fields of an entry of 32 bytes. -/
def entryOf (b : List Nat) : CmdEntry :=
  let u (o k : Nat) : Nat := ofLe ((b.drop o).take k)
  ⟨u 3 1, u 4 2, u 6 2, u 8 4, u 12 4, u 16 4, u 20 4⟩

/-- The entry's magic, version, CRC and fields are good. -/
def entryGood (b : List Nat) : Bool :=
  let e := entryOf b
  let u (o k : Nat) : Nat := ofLe ((b.drop o).take k)
  u 0 2 == 0x4743 && u 2 1 == 1 && crc32c (b.take 28) == u 28 4 && decide (1 ≤ e.op) && decide (e.op ≤ 4) &&
    (if e.op = 1 then decide (1 ≤ e.count) && decide (e.count ≤ 64) else e.count == 0) &&
    decide (e.addr % 4 = 0) && decide (e.addr < 0x1000000) && u 24 4 == 0 &&
    (e.op != 4 || (decide (1 ≤ e.timeout) && decide (e.timeout ≤ 1000000)))

/-- The lower of two statuses other than 0. -/
def lowStatus (a b : Nat) : Nat := if a = 0 then b else if b = 0 then a else min a b

/-- The completion of entry `e`.
(Log: 187 DEDUCED, 195 DEDUCED.) -/
def completion (e : CmdEntry) (status : Nat) (words : List Nat) : List Nat :=
  let ws := words.flatMap (leBytes 4)
  let h := leBytes 2 0x4741 ++ [1, status] ++ leBytes 2 e.tag ++ leBytes 2 words.length ++ leBytes 4 e.addr
  h ++ leBytes 4 (crc32c (h ++ ws)) ++ ws

/-- The command in progress ends: its completion is offered to ring 29, and on a HOST ring 28 the head moves on.
(Log: 187 DEDUCED.) -/
def cmdFinish (d : Dev) (e : CmdEntry) (status : Nat) (words : List Nat) : Dev :=
  let d := offerBytes d 29 (completion e status words)
  let d := bump d pgRings F.RINGS_CMD_EXEC
  let d := onlyIf (status != 0) (fun d => raise (bump d pgRings F.RINGS_CMD_ERRORS) pgRings 10) d
  let d := { d with cmd := { d.cmd with cur := none, waitSince := none, words := [], status := 0, old := none, away := false } }
  if ringBind d 28 = 1 then
    let head := (getR d pgRings (F.RINGS_WR 28) + 32) % ringSize d 28
    let d := setR d pgRings (F.RINGS_WR 28) head
    onlyIf (hostUp d) (fun d => writeBack d 28 head) d
  else d

/-- CMD_ENTRY_FETCH: the next entry is taken: on a HOST ring the 32 bytes `bytes` at the head of the host's buffer, on
a FLOW ring the first of the queue. It waits while a completion has not got into ring 29. -/
def doCmdFetch (t : Nat) (bytes : List Nat) (d : Dev) : Dev :=
  let d := advance d t
  let full := flagR d pgRings (F.RINGS_MODE 29) && !(ringSt d 29).held.isEmpty
  if d.cmd.cur.isSome ∨ full ∨ ringStopped d 28 then d
  else
    let run (b : List Nat) (d : Dev) : Dev :=
      let e := entryOf b
      let d := { d with cmd := { d.cmd with cur := some e, words := [], status := 0, old := none, waitSince := none } }
      if entryGood b then d else cmdFinish d e 1 (List.replicate (opWords e.op e.count) 0)
    if ringBind d 28 = 1 then
      if hostUp d && getR d pgRings (F.RINGS_WR 28) != getR d pgRings (F.RINGS_RD 28) % ringSize d 28 then
        run (padTo 32 (bytes.map (· % 256))) (addC d pgPcie F.PCIE_RD_BYTES 32)
      else d
    else if ringBind d 28 = 2 then
      match d.cmd.queue with
      | [] => d
      | b :: r => run b { d with cmd := { d.cmd with queue := r } }
    else d

def execCmdEntryFetch (t : Nat) (bytes : List Nat) (s : State) : Host.Outcome State Fault Refusal :=
  act true s (doCmdFetch t bytes)

/-- Flow `f` is enabled for commands and its destination is the datagram's source. -/
def cmdFlow (d : Dev) (v6 : Bool) (src : List Nat) (sport f : Nat) : Bool :=
  let dip := (List.range 4).map (fun i => getR d pgFlows (F.FLOWS_DIP f i))
  flagR d pgFlows (F.FLOWS_EN f) && flagR d pgFlows (F.FLOWS_CMD_OK f) && flagR d pgFlows (F.FLOWS_IPV6 f) == v6 &&
    (if v6 then dip == src else dip.take 1 == src) && getR d pgFlows (F.FLOWS_DPORT f) == sport

/-- The entries of a datagram.
(Log: 194 DEDUCED.) -/
def entriesOf (data : List Nat) : List (List Nat) :=
  (List.range (data.length / 32)).map (fun i => ((data.drop (32 * i)).take 32).map (· % 256))

/-- CMD_DATAGRAM: a UDP datagram from `src` and port `sport` arrives at port `dport` of a sub-port's address.
(Log: 187 DEDUCED, 194 DEDUCED.) -/
def doCmdDatagram (t e p : Nat) (v6 : Bool) (src : List Nat) (sport dport : Nat) (data : List Nat) (d : Dev) : Dev :=
  let d := rxFrame (advance d t) e
  let whole := data.length % 32 == 0 && decide (32 ≤ data.length) && decide (data.length ≤ 64 * 32)
  if !subUp d e p || ringBind d 28 != 2 || dport != getR d pgFlows F.FLOWS_CMD_PORT then rxIgnore d e
  else if !((List.range 32).any (cmdFlow d v6 src sport) && whole) then raise (bump d pgFlows F.FLOWS_CMD_REJECTS) pgFlows 8
  else if 256 < d.cmd.queue.length + data.length / 32 then raise (bump d pgFlows F.FLOWS_CMD_DROPS) pgFlows 9
  else
    let d := bump d pgFlows F.FLOWS_CMD_RX
    { d with cmd := { d.cmd with queue := d.cmd.queue ++ entriesOf data } }

def execCmdDatagram (t port sub : Nat) (v6 : Bool) (src : List Nat) (sport dport : Nat) (data : List Nat) (s : State) :
    Host.Outcome State Fault Refusal :=
  act (decide (port < 2) && decide (sub < 4) && decide (sport < 65536) && decide (dport < 65536)) s
    (doCmdDatagram t port sub v6 src sport dport data)

/-! ## Operations (R415) -/

/-- The value that MODIFY writes over `old`. -/
def modified (e : CmdEntry) (old : Nat) : Nat := (andNot old e.mask) ||| (e.data &&& e.mask)

/-- The access that the command in progress makes next: its address, a write or a read, and the value written. -/
def nextAccess (e : CmdEntry) (c : CmdSt) : Nat × Bool × Nat :=
  if e.op = 1 then (e.addr + 4 * c.words.length, false, 0)
  else if e.op = 2 then (e.addr, true, e.data)
  else if e.op = 3 then
    match c.old with
    | none => (e.addr, false, 0)
    | some o => (e.addr, true, modified e o)
  else (e.addr, false, 0)

/-- The access made has ended with a status and a value: true where the command makes its next one at once.
(Log: 159 DEDUCED.) -/
def accessDone (d : Dev) (e : CmdEntry) (status v : Nat) : Bool × Dev :=
  let c := d.cmd
  let st := lowStatus c.status status
  if e.op = 1 then
    let ws := c.words ++ [v]
    if e.count ≤ ws.length then (false, cmdFinish d e st ws)
    else (true, { d with cmd := { c with words := ws, status := st, away := false } })
  else if e.op = 2 then (false, cmdFinish d e st [])
  else if e.op = 3 then
    match c.old with
    | none => (true, { d with cmd := { c with old := some v, status := st, away := false } })
    | some o => (false, cmdFinish d e st [modified e o])
  else if v &&& e.mask = e.data then (false, cmdFinish d e st [v])
  else if (c.waitSince.getD d.ticks) + usT e.timeout ≤ d.ticks then (false, cmdFinish d e (lowStatus st 4) [v])
  else (false, { d with cmd := { c with status := st, away := false } })

/-- The command in progress makes its accesses until one is on its way to another package, or it waits or ends.
(Log: 195 DEDUCED.) -/
def cmdRun : Nat → Dev → Dev
  | 0, d => d
  | k + 1, d =>
    match d.cmd.cur with
    | none => d
    | some e =>
      let (a, w, v) := nextAccess e d.cmd
      match busAccess d 1 a w 4 v with
      | (none, d) => { d with cmd := { d.cmd with away := true } }
      | (some r, d) =>
        if d.cmd.cur.isNone then d
        else
          match accessDone d e r.1 r.2 with
          | (true, d) => cmdRun k d
          | (false, d) => d

/-- The operation `op` of the command in progress begins. -/
def doCmd (op t : Nat) (d : Dev) : Dev :=
  let d := advance d t
  match d.cmd.cur with
  | none => d
  | some e =>
    if e.op ≠ op ∨ d.cmd.away ∨ !d.cmd.words.isEmpty ∨ d.cmd.waitSince.isSome then d
    else
      let d := if op = 4 then { d with cmd := { d.cmd with waitSince := some d.ticks, readAt := d.ticks } } else d
      cmdRun 64 d

/-- CMD_READ. -/
def execCmdRead (t : Nat) (s : State) : Host.Outcome State Fault Refusal := act true s (doCmd 1 t)

/-- CMD_WRITE. -/
def execCmdWrite (t : Nat) (s : State) : Host.Outcome State Fault Refusal := act true s (doCmd 2 t)

/-- CMD_MODIFY. -/
def execCmdModify (t : Nat) (s : State) : Host.Outcome State Fault Refusal := act true s (doCmd 3 t)

/-- CMD_WAIT: the first read of a WAIT. -/
def execCmdWait (t : Nat) (s : State) : Host.Outcome State Fault Refusal := act true s (doCmd 4 t)

/-- CMD_WAIT_POLL: 1 µs after its latest read a WAIT reads its address again.
(Log: 195 DEDUCED.) -/
def doCmdPoll (t : Nat) (d : Dev) : Dev :=
  match d.cmd.cur, d.cmd.waitSince with
  | some _, some _ =>
    if d.cmd.away then advance d t
    else
      let d := advance d (max t (d.cmd.readAt + usT 1))
      cmdRun 1 { d with cmd := { d.cmd with readAt := d.ticks } }
  | _, _ => advance d t

def execCmdWaitPoll (t : Nat) (s : State) : Host.Outcome State Fault Refusal := act true s (doCmdPoll t)

/-! ## Proxied accesses end (R330) -/

/-- An access that was under way ends with a status and a value: a read returns the bytes asked for, a command takes
it.
(Log: 31 DEDUCED.) -/
def giveBack (d : Dev) (x : Proxy) (status v : Nat) : Dev :=
  if x.owner = 0 then (if x.write then d else emit d (.readData (narrowRead x.size x.addr v)))
  else if x.owner = 1 then
    match d.cmd.cur with
    | some e =>
      match accessDone d e status v with
      | (true, d) => cmdRun 64 d
      | (false, d) => d
    | none => d
  else d

/-- The oldest proxied access ends. -/
def proxyEnd (d : Dev) (x : Proxy) (status v : Nat) : Dev :=
  let d := { d with baton := { d.baton with proxies := d.baton.proxies.drop 1 } }
  giveBack (proxyDrain d.baton.waiting.length d) x status v

/-- PROXY_COMPLETION: the target answers the oldest access, a read with value `v`. -/
def doProxyCompletion (t v : Nat) (d : Dev) : Dev :=
  let d := advance d t
  match d.baton.proxies with
  | [] => d
  | x :: _ => proxyEnd d x 0 (v % 2 ^ 32)

def execProxyCompletion (t v : Nat) (s : State) : Host.Outcome State Fault Refusal :=
  act true s (doProxyCompletion t v)

/-- PROXY_TIMEOUT: the oldest access has had no completion for PROXY_TIMEOUT µs.
(Log: 159 DEDUCED.) -/
def doProxyTimeout (t : Nat) (d : Dev) : Dev :=
  match d.baton.proxies with
  | [] => advance d t
  | x :: _ =>
    let d := advance d (max t (x.since + usT (max 1 (getR d pgBtn F.BTN_PROXY_TIMEOUT))))
    let d := raise (bump d pgBtn F.BTN_PROXY_TIMEOUTS) pgBtn 13
    proxyEnd d x 5 0xFFFFFFFF

def execProxyTimeout (t : Nat) (s : State) : Host.Outcome State Fault Refusal := act true s (doProxyTimeout t)

/-! ## Reads of a line die whose bridge retrains (R35) -/

/-- BRIDGE_RETRAIN_DONE: the bridge is UP again, and the reads that waited are carried out in order. -/
def doRetrainDone (t b : Nat) (d : Dev) : Dev :=
  let d := advance d t
  let x := bridge d b
  if x.retraining then
    let d := setR (setBridge d b { x with retraining := false, reads := [] }) (pgBridge b) F.BRIDGE_LINK_STATE 2
    x.reads.foldl (fun d q =>
      let r := localRead d q.addr
      giveBack r.2.2 q r.1 r.2.1) d
  else d

def execBridgeRetrainDone (t ldie : Nat) (s : State) : Host.Outcome State Fault Refusal :=
  act (decide (1 ≤ ldie) && decide (ldie < 3)) s (doRetrainDone t ldie)

/-- BRIDGE_READ_TIMEOUT: the oldest read that waits for the bridge has been outstanding for READ_TIMEOUT µs: it completes
with ones and is counted (R35).
(Log: 31 DEDUCED, 55 DESIGN CHOICE.) -/
def doReadTimeout (t b : Nat) (d : Dev) : Dev :=
  let p := pgBridge b
  match (bridge d b).reads with
  | [] => advance d t
  | q :: r =>
    let d := advance d (max t (q.since + usT (max 1 (getR d p F.BRIDGE_READ_TIMEOUT))))
    let d := raise (bump (setBridge d b { bridge d b with reads := r }) p F.BRIDGE_READ_TIMEOUTS) p 11
    giveBack d q 0 0xFFFFFFFF

def execBridgeReadTimeout (t ldie : Nat) (s : State) : Host.Outcome State Fault Refusal :=
  act (decide (1 ≤ ldie) && decide (ldie < 3)) s (doReadTimeout t ldie)

end Sys2Proof.Machine
end

