-- ==== Sys2Proof/Machine/Dispatch.lean ====
section
/-! DEFINITION. Which meaning each command calls. -/

namespace Sys2Proof.Machine

open Sys2Proof

/-- The effect of a command on everything but the queue. -/
def exec (i : Instr) (s : State) : Host.Outcome State Fault Refusal :=
  match i with
  | .registerWrite t addr size v => Sys2Proof.Machine.execRegisterWrite t addr size v s
  | .stagedWrite t pg off v => Sys2Proof.Machine.execStagedWrite t pg off v s
  | .planCheckEval t ln => Sys2Proof.Machine.execPlanCheckEval t ln s
  | .clrCounters t pg => Sys2Proof.Machine.execClrCounters t pg s
  | .evtClr t pg v same => Sys2Proof.Machine.execEvtClr t pg v same s
  | .evtSet t pg v => Sys2Proof.Machine.execEvtSet t pg v s
  | .vecRearm t half v => Sys2Proof.Machine.execVecRearm t half v s
  | .msixUnmask t vec mask func => Sys2Proof.Machine.execMsixUnmask t vec mask func s
  | .catEntryHiRead t => Sys2Proof.Machine.execCatEntryHiRead t s
  | .nowRead t => Sys2Proof.Machine.execNowRead t s
  | .stocktakeReq t v => Sys2Proof.Machine.execStocktakeReq t v s
  | .stocktakeForward t => Sys2Proof.Machine.execStocktakeForward t s
  | .stocktakeInstant t => Sys2Proof.Machine.execStocktakeInstant t s
  | .stocktakeTWord t inst epoch => Sys2Proof.Machine.execStocktakeTWord t inst epoch s
  | .stocktakeConfirm t idx => Sys2Proof.Machine.execStocktakeConfirm t idx s
  | .stocktakeMasterClose t => Sys2Proof.Machine.execStocktakeMasterClose t s
  | .stocktakeSysTimeout t => Sys2Proof.Machine.execStocktakeSysTimeout t s
  | .commit t pg => Sys2Proof.Machine.execCommit t pg s
  | .commitShot t ln => Sys2Proof.Machine.execCommitShot t ln s
  | .cancel t ln => Sys2Proof.Machine.execCancel t ln s
  | .commitCapture t ln => Sys2Proof.Machine.execCommitCapture t ln s
  | .immediateCommitApply t region => Sys2Proof.Machine.execImmediateCommitApply t region s
  | .slot0Instant t ln => Sys2Proof.Machine.execSlot0Instant t ln s
  | .slotLaunch t ln slot => Sys2Proof.Machine.execSlotLaunch t ln slot s
  | .lineStart t ln => Sys2Proof.Machine.execLineStart t ln s
  | .gapEnd t ln => Sys2Proof.Machine.execGapEnd t ln s
  | .catchUp t region => Sys2Proof.Machine.execCatchUp t region s
  | .clusterReady t ln clus => Sys2Proof.Machine.execClusterReady t ln clus s
  | .dvfsDone t ln c => Sys2Proof.Machine.execDvfsDone t ln c s
  | .thermalSensorUpdate t readings => Sys2Proof.Machine.execThermalSensorUpdate t readings s
  | .bridgeFlit t ldie up flit ok => Sys2Proof.Machine.execBridgeFlit t ldie up flit ok s
  | .bridgeRetrain t ldie => Sys2Proof.Machine.execBridgeRetrain t ldie s
  | .bridgeRetrainDone t ldie => Sys2Proof.Machine.execBridgeRetrainDone t ldie s
  | .bridgeReadTimeout t ldie => Sys2Proof.Machine.execBridgeReadTimeout t ldie s
  | .bridgeFrameArrive t ln => Sys2Proof.Machine.execBridgeFrameArrive t ln s
  | .converterWord t ln num phase halt raw => Sys2Proof.Machine.execConverterWord t ln num phase halt raw s
  | .autorangeHoldExpiry t ln => Sys2Proof.Machine.execAutorangeHoldExpiry t ln s
  | .gainScheduleEntry t ln k => Sys2Proof.Machine.execGainScheduleEntry t ln k s
  | .statWindowEnd t ln conv mean lo hi ovr => Sys2Proof.Machine.execStatWindowEnd t ln conv mean lo hi ovr s
  | .failCore t ln input => Sys2Proof.Machine.execFailCore t ln input s
  | .spareSubstitution t ln => Sys2Proof.Machine.execSpareSubstitution t ln s
  | .requal t ln => Sys2Proof.Machine.execRequal t ln s
  | .requalDone t ln pass => Sys2Proof.Machine.execRequalDone t ln pass s
  | .psenseWindowEnd t ln q => Sys2Proof.Machine.execPsenseWindowEnd t ln q s
  | .returnPowerWindow t ln => Sys2Proof.Machine.execReturnPowerWindow t ln s
  | .listenWindowClose t ln slot => Sys2Proof.Machine.execListenWindowClose t ln slot s
  | .coefWrite t ln slot w v => Sys2Proof.Machine.execCoefWrite t ln slot w v s
  | .coefSeal t ln slot v => Sys2Proof.Machine.execCoefSeal t ln slot v s
  | .pipeWord t chan => Sys2Proof.Machine.execPipeWord t chan s
  | .pipeSettled t ln slot => Sys2Proof.Machine.execPipeSettled t ln slot s
  | .mergedSample t ln => Sys2Proof.Machine.execMergedSample t ln s
  | .gaugeSettled t ln => Sys2Proof.Machine.execGaugeSettled t ln s
  | .frameInstant t ln => Sys2Proof.Machine.execFrameInstant t ln s
  | .frameBuilt t ln => Sys2Proof.Machine.execFrameBuilt t ln s
  | .ramanShotAccumulate t ln st anti => Sys2Proof.Machine.execRamanShotAccumulate t ln st anti s
  | .stackFlip t ln => Sys2Proof.Machine.execStackFlip t ln s
  | .thermalFrameBuilt t ln => Sys2Proof.Machine.execThermalFrameBuilt t ln s
  | .stackSeed t ln v => Sys2Proof.Machine.execStackSeed t ln v s
  | .strideNop t ln k => Sys2Proof.Machine.execStrideNop t ln k s
  | .strideAdd t ln k => Sys2Proof.Machine.execStrideAdd t ln k s
  | .strideSub t ln k => Sys2Proof.Machine.execStrideSub t ln k s
  | .strideAnd t ln k => Sys2Proof.Machine.execStrideAnd t ln k s
  | .strideOr t ln k => Sys2Proof.Machine.execStrideOr t ln k s
  | .strideXor t ln k => Sys2Proof.Machine.execStrideXor t ln k s
  | .strideMin t ln k => Sys2Proof.Machine.execStrideMin t ln k s
  | .strideMax t ln k => Sys2Proof.Machine.execStrideMax t ln k s
  | .strideAbs t ln k => Sys2Proof.Machine.execStrideAbs t ln k s
  | .strideSlt t ln k => Sys2Proof.Machine.execStrideSlt t ln k s
  | .strideShl t ln k => Sys2Proof.Machine.execStrideShl t ln k s
  | .strideShr t ln k => Sys2Proof.Machine.execStrideShr t ln k s
  | .strideSra t ln k => Sys2Proof.Machine.execStrideSra t ln k s
  | .strideNorm t ln k => Sys2Proof.Machine.execStrideNorm t ln k s
  | .strideAddi t ln k => Sys2Proof.Machine.execStrideAddi t ln k s
  | .strideShli t ln k => Sys2Proof.Machine.execStrideShli t ln k s
  | .strideShri t ln k => Sys2Proof.Machine.execStrideShri t ln k s
  | .strideSrai t ln k => Sys2Proof.Machine.execStrideSrai t ln k s
  | .strideMovi t ln k => Sys2Proof.Machine.execStrideMovi t ln k s
  | .strideMovih t ln k => Sys2Proof.Machine.execStrideMovih t ln k s
  | .strideMovtx t ln k => Sys2Proof.Machine.execStrideMovtx t ln k s
  | .strideMovfx t ln k => Sys2Proof.Machine.execStrideMovfx t ln k s
  | .strideLd t ln k => Sys2Proof.Machine.execStrideLd t ln k s
  | .strideLdh t ln k => Sys2Proof.Machine.execStrideLdh t ln k s
  | .strideSt t ln k => Sys2Proof.Machine.execStrideSt t ln k s
  | .strideSth t ln k => Sys2Proof.Machine.execStrideSth t ln k s
  | .strideBeq t ln k => Sys2Proof.Machine.execStrideBeq t ln k s
  | .strideBne t ln k => Sys2Proof.Machine.execStrideBne t ln k s
  | .strideBlt t ln k => Sys2Proof.Machine.execStrideBlt t ln k s
  | .strideBge t ln k => Sys2Proof.Machine.execStrideBge t ln k s
  | .strideBdec t ln k => Sys2Proof.Machine.execStrideBdec t ln k s
  | .strideJ t ln k => Sys2Proof.Machine.execStrideJ t ln k s
  | .strideJal t ln k => Sys2Proof.Machine.execStrideJal t ln k s
  | .strideJr t ln k => Sys2Proof.Machine.execStrideJr t ln k s
  | .strideRti t ln k => Sys2Proof.Machine.execStrideRti t ln k s
  | .strideWait t ln k => Sys2Proof.Machine.execStrideWait t ln k s
  | .strideHalt t ln k => Sys2Proof.Machine.execStrideHalt t ln k s
  | .strideMac t ln k win => Sys2Proof.Machine.execStrideMac t ln k win s
  | .strideMac2 t ln k win => Sys2Proof.Machine.execStrideMac2 t ln k win s
  | .strideCmac t ln k win => Sys2Proof.Machine.execStrideCmac t ln k win s
  | .strideExt t ln k => Sys2Proof.Machine.execStrideExt t ln k s
  | .strideExtr t ln k => Sys2Proof.Machine.execStrideExtr t ln k s
  | .strideMova t ln k => Sys2Proof.Machine.execStrideMova t ln k s
  | .strideAshr t ln k => Sys2Proof.Machine.execStrideAshr t ln k s
  | .strideAdda t ln k => Sys2Proof.Machine.execStrideAdda t ln k s
  | .strideExp t ln k => Sys2Proof.Machine.execStrideExp t ln k s
  | .strideAclr t ln k => Sys2Proof.Machine.execStrideAclr t ln k s
  | .strideIn t ln k => Sys2Proof.Machine.execStrideIn t ln k s
  | .strideOut t ln k => Sys2Proof.Machine.execStrideOut t ln k s
  | .strideMark t ln k => Sys2Proof.Machine.execStrideMark t ln k s
  | .strideSig t ln k => Sys2Proof.Machine.execStrideSig t ln k s
  | .interruptTaken t ln k => Sys2Proof.Machine.execInterruptTaken t ln k s
  | .strideTimerExpiry t ln k => Sys2Proof.Machine.execStrideTimerExpiry t ln k s
  | .doorbell t ln k => Sys2Proof.Machine.execDoorbell t ln k s
  | .coreStart t ln k => Sys2Proof.Machine.execCoreStart t ln k s
  | .coreStop t ln k => Sys2Proof.Machine.execCoreStop t ln k s
  | .kernelLoadEnd t ln k => Sys2Proof.Machine.execKernelLoadEnd t ln k s
  | .featureWord t ln => Sys2Proof.Machine.execFeatureWord t ln s
  | .featureFrameClose t ln => Sys2Proof.Machine.execFeatureFrameClose t ln s
  | .sequencerStep t ln => Sys2Proof.Machine.execSequencerStep t ln s
  | .gpioEdge t gpio half => Sys2Proof.Machine.execGpioEdge t gpio half s
  | .triggerWord t port pkg ln h inst => Sys2Proof.Machine.execTriggerWord t port pkg ln h inst s
  | .todInstant t ln => Sys2Proof.Machine.execTodInstant t ln s
  | .recordEmit t ln h => Sys2Proof.Machine.execRecordEmit t ln h s
  | .arcTableWrite t ln w v => Sys2Proof.Machine.execArcTableWrite t ln w v s
  | .sequencerEnable t ln h v => Sys2Proof.Machine.execSequencerEnable t ln h v s
  | .userGo t v => Sys2Proof.Machine.execUserGo t v s
  | .ledgerEntry t => Sys2Proof.Machine.execLedgerEntry t s
  | .ledgerReserve t ok => Sys2Proof.Machine.execLedgerReserve t ok s
  | .ledgerReserveRetry t ok => Sys2Proof.Machine.execLedgerReserveRetry t ok s
  | .ledgerArchiveWrite t => Sys2Proof.Machine.execLedgerArchiveWrite t s
  | .calEvalTick t unit13 => Sys2Proof.Machine.execCalEvalTick t unit13 s
  | .calReq t ln => Sys2Proof.Machine.execCalReq t ln s
  | .calForce t ln => Sys2Proof.Machine.execCalForce t ln s
  | .calPassStart t ln => Sys2Proof.Machine.execCalPassStart t ln s
  | .calPhaseEnd t ln vals => Sys2Proof.Machine.execCalPhaseEnd t ln vals s
  | .calExit t ln ok => Sys2Proof.Machine.execCalExit t ln ok s
  | .calHandover t ln => Sys2Proof.Machine.execCalHandover t ln s
  | .calReturn t ln ok => Sys2Proof.Machine.execCalReturn t ln ok s
  | .svcConversion t svc raw => Sys2Proof.Machine.execSvcConversion t svc raw s
  | .scanStart t svc => Sys2Proof.Machine.execScanStart t svc s
  | .injGo t v => Sys2Proof.Machine.execInjGo t v s
  | .shotTrigger t inj => Sys2Proof.Machine.execShotTrigger t inj s
  | .svcCalReq t => Sys2Proof.Machine.execSvcCalReq t s
  | .svcCalForce t => Sys2Proof.Machine.execSvcCalForce t s
  | .svcCalStart t svc => Sys2Proof.Machine.execSvcCalStart t svc s
  | .svcCalDone t svc meas ok => Sys2Proof.Machine.execSvcCalDone t svc meas ok s
  | .sfeMeasurement t svc raw => Sys2Proof.Machine.execSfeMeasurement t svc raw s
  | .sfeCheck t sfe => Sys2Proof.Machine.execSfeCheck t sfe s
  | .sfeCheckDone t sfe z leads => Sys2Proof.Machine.execSfeCheckDone t sfe z leads s
  | .sfeClamp t sfe => Sys2Proof.Machine.execSfeClamp t sfe s
  | .wireBreak t sfe => Sys2Proof.Machine.execWireBreak t sfe s
  | .loopTick t lp => Sys2Proof.Machine.execLoopTick t lp s
  | .pwmPeriod t lp => Sys2Proof.Machine.execPwmPeriod t lp s
  | .ppsEdge t ps => Sys2Proof.Machine.execPpsEdge t ps s
  | .setArm t => Sys2Proof.Machine.execSetArm t s
  | .todSentence t ok utc => Sys2Proof.Machine.execTodSentence t ok utc s
  | .freqWindowEnd t off => Sys2Proof.Machine.execFreqWindowEnd t off s
  | .ocxoRdyChange t on => Sys2Proof.Machine.execOcxoRdyChange t on s
  | .warmMinExpiry t => Sys2Proof.Machine.execWarmMinExpiry t s
  | .ppsMissingTimeout t => Sys2Proof.Machine.execPpsMissingTimeout t s
  | .holdLimitExpiry t => Sys2Proof.Machine.execHoldLimitExpiry t s
  | .secondBoundary t => Sys2Proof.Machine.execSecondBoundary t s
  | .todOutStart t => Sys2Proof.Machine.execTodOutStart t s
  | .leapSecond t => Sys2Proof.Machine.execLeapSecond t s
  | .syncTx t port => Sys2Proof.Machine.execSyncTx t port s
  | .announceTx t port => Sys2Proof.Machine.execAnnounceTx t port s
  | .delayReq t port client => Sys2Proof.Machine.execDelayReq t port client s
  | .foreignAnnounce t port => Sys2Proof.Machine.execForeignAnnounce t port s
  | .ptpUnsupported t port => Sys2Proof.Machine.execPtpUnsupported t port s
  | .esmcTx t port => Sys2Proof.Machine.execEsmcTx t port s
  | .pfArm t pf => Sys2Proof.Machine.execPfArm t pf s
  | .pfDisarm t pf => Sys2Proof.Machine.execPfDisarm t pf s
  | .pfEdge t pf src fall ce v0 v1 => Sys2Proof.Machine.execPfEdge t pf src fall ce v0 v1 s
  | .pfWindowClose t pf => Sys2Proof.Machine.execPfWindowClose t pf s
  | .pfCalReq t pf => Sys2Proof.Machine.execPfCalReq t pf s
  | .pfCalPass t pf => Sys2Proof.Machine.execPfCalPass t pf s
  | .pfCalDone t pf a0 b0 a1 b1 => Sys2Proof.Machine.execPfCalDone t pf a0 b0 a1 b1 s
  | .batonLinkChange t port v => Sys2Proof.Machine.execBatonLinkChange t port v s
  | .batonFrame t port good again sig => Sys2Proof.Machine.execBatonFrame t port good again sig s
  | .batonAnnounce t port master idx hops others => Sys2Proof.Machine.execBatonAnnounce t port master idx hops others s
  | .batonTimingWord t port t1 t2 t3 t4 set qual ann => Sys2Proof.Machine.execBatonTimingWord t port t1 t2 t3 t4 set qual ann s
  | .hopCalibrated t port => Sys2Proof.Machine.execHopCalibrated t port s
  | .proxyAccess t off write size v => Sys2Proof.Machine.execProxyAccess t off write size v s
  | .proxyCompletion t v => Sys2Proof.Machine.execProxyCompletion t v s
  | .proxyTimeout t => Sys2Proof.Machine.execProxyTimeout t s
  | .shelfRequest t pool q n rivals => Sys2Proof.Machine.execShelfRequest t pool q n rivals s
  | .shelfRelease t pool q n => Sys2Proof.Machine.execShelfRelease t pool q n s
  | .shelfLimitWrite t pool q v => Sys2Proof.Machine.execShelfLimitWrite t pool q v s
  | .shelfReserveWrite t pool q v => Sys2Proof.Machine.execShelfReserveWrite t pool q v s
  | .rollConfigWrite t ln w v => Sys2Proof.Machine.execRollConfigWrite t ln w v s
  | .dramAccess t addr rank write len bytes bankRow err => Sys2Proof.Machine.execDramAccess t addr rank write len bytes bankRow err s
  | .rhWindow t dmc => Sys2Proof.Machine.execRhWindow t dmc s
  | .patrolScrub t dmc n ce rank ue => Sys2Proof.Machine.execPatrolScrub t dmc n ce rank ue s
  | .dramCeHour t dmc => Sys2Proof.Machine.execDramCeHour t dmc s
  | .caParityAlert t dmc rank => Sys2Proof.Machine.execCaParityAlert t dmc rank s
  | .migrationDone t dmc bad => Sys2Proof.Machine.execMigrationDone t dmc bad s
  | .requalGo t dmc v => Sys2Proof.Machine.execRequalGo t dmc v s
  | .rankRequalDone t dmc pass => Sys2Proof.Machine.execRankRequalDone t dmc pass s
  | .delayWrite t dmc rank lane w v => Sys2Proof.Machine.execDelayWrite t dmc rank lane w v s
  | .sweepGo t dmc v => Sys2Proof.Machine.execSweepGo t dmc v s
  | .sweepDone t dmc pass errs => Sys2Proof.Machine.execSweepDone t dmc pass errs s
  | .marginSweep t dmc margins => Sys2Proof.Machine.execMarginSweep t dmc margins s
  | .srEntry t dmc same => Sys2Proof.Machine.execSrEntry t dmc same s
  | .archiveFrame t => Sys2Proof.Machine.execArchiveFrame t s
  | .blockCloseTimer t stream => Sys2Proof.Machine.execBlockCloseTimer t stream s
  | .blockDurable t => Sys2Proof.Machine.execBlockDurable t s
  | .journalWrite t => Sys2Proof.Machine.execJournalWrite t s
  | .checkpoint t => Sys2Proof.Machine.execCheckpoint t s
  | .nandRead t ch target seg blk cw cws => Sys2Proof.Machine.execNandRead t ch target seg blk cw cws s
  | .nandProgramDone t ch target lun blk pages ok => Sys2Proof.Machine.execNandProgramDone t ch target lun blk pages ok s
  | .nandEraseDone t ch target lun blk ok => Sys2Proof.Machine.execNandEraseDone t ch target lun blk ok s
  | .pinRequest t => Sys2Proof.Machine.execPinRequest t s
  | .pinClose t => Sys2Proof.Machine.execPinClose t s
  | .pinCopyDone t => Sys2Proof.Machine.execPinCopyDone t s
  | .unpin t id => Sys2Proof.Machine.execUnpin t id s
  | .wearMoveDone t => Sys2Proof.Machine.execWearMoveDone t s
  | .ageUpdate t => Sys2Proof.Machine.execAgeUpdate t s
  | .refreshDone t => Sys2Proof.Machine.execRefreshDone t s
  | .wearBudget t => Sys2Proof.Machine.execWearBudget t s
  | .mount t => Sys2Proof.Machine.execMount t s
  | .mountDone t ok params marks replayed => Sys2Proof.Machine.execMountDone t ok params marks replayed s
  | .format t => Sys2Proof.Machine.execFormat t s
  | .formatDone t ok params marks => Sys2Proof.Machine.execFormatDone t ok params marks s
  | .unmount t => Sys2Proof.Machine.execUnmount t s
  | .snapGo t => Sys2Proof.Machine.execSnapGo t s
  | .retGo t => Sys2Proof.Machine.execRetGo t s
  | .retCancel t => Sys2Proof.Machine.execRetCancel t s
  | .retDone t => Sys2Proof.Machine.execRetDone t s
  | .melArchiveBlock t eng decode poison => Sys2Proof.Machine.execMelArchiveBlock t eng decode poison s
  | .melGo t eng => Sys2Proof.Machine.execMelGo t eng s
  | .melJobDone t eng => Sys2Proof.Machine.execMelJobDone t eng s
  | .chkDataWrite t unit v => Sys2Proof.Machine.execChkDataWrite t unit v s
  | .chkStateWrite t unit w v => Sys2Proof.Machine.execChkStateWrite t unit w v s
  | .chkPolyWrite t unit v => Sys2Proof.Machine.execChkPolyWrite t unit v s
  | .chkCompare t unit => Sys2Proof.Machine.execChkCompare t unit s
  | .chkInit t unit => Sys2Proof.Machine.execChkInit t unit s
  | .chkGo t unit => Sys2Proof.Machine.execChkGo t unit s
  | .chkAbort t unit fed => Sys2Proof.Machine.execChkAbort t unit fed s
  | .chkDmaDone t unit => Sys2Proof.Machine.execChkDmaDone t unit s
  | .pcieReset t kind => Sys2Proof.Machine.execPcieReset t kind s
  | .busMasterChange t bme d3 => Sys2Proof.Machine.execBusMasterChange t bme d3 s
  | .bar2Access t off write len bytes => Sys2Proof.Machine.execBar2Access t off write len bytes s
  | .ethModeWrite t port v fault => Sys2Proof.Machine.execEthModeWrite t port v fault s
  | .ethLinkChange t port sub v => Sys2Proof.Machine.execEthLinkChange t port sub v s
  | .arpRequest t port sub ip mac => Sys2Proof.Machine.execArpRequest t port sub ip mac s
  | .neighbourSolicitation t port sub ip => Sys2Proof.Machine.execNeighbourSolicitation t port sub ip s
  | .echoRequest t port sub v6 ip id => Sys2Proof.Machine.execEchoRequest t port sub v6 ip id s
  | .pauseFrame t port quanta => Sys2Proof.Machine.execPauseFrame t port quanta s
  | .rxIgnored t port badFcs => Sys2Proof.Machine.execRxIgnored t port badFcs s
  | .ringItemDeliver t ring => Sys2Proof.Machine.execRingItemDeliver t ring s
  | .ringHoldExpiry t ring => Sys2Proof.Machine.execRingHoldExpiry t ring s
  | .ringRdWrite t ring v => Sys2Proof.Machine.execRingRdWrite t ring v s
  | .ringBindWrite t ring w v => Sys2Proof.Machine.execRingBindWrite t ring w v s
  | .lossReport t => Sys2Proof.Machine.execLossReport t s
  | .notifyTimeout t ring => Sys2Proof.Machine.execNotifyTimeout t ring s
  | .cmdDatagram t port sub v6 src sport dport data => Sys2Proof.Machine.execCmdDatagram t port sub v6 src sport dport data s
  | .cmdEntryFetch t bytes => Sys2Proof.Machine.execCmdEntryFetch t bytes s
  | .cmdRead t => Sys2Proof.Machine.execCmdRead t s
  | .cmdWrite t => Sys2Proof.Machine.execCmdWrite t s
  | .cmdModify t => Sys2Proof.Machine.execCmdModify t s
  | .cmdWait t => Sys2Proof.Machine.execCmdWait t s
  | .cmdWaitPoll t => Sys2Proof.Machine.execCmdWaitPoll t s
  | .flowWrite t flow w v => Sys2Proof.Machine.execFlowWrite t flow w v s
  | .pacerTick t est => Sys2Proof.Machine.execPacerTick t est s
  | .pmbusTelemetry t meas => Sys2Proof.Machine.execPmbusTelemetry t meas s
  | .jobPost t => Sys2Proof.Machine.execJobPost t s
  | .jobDone t entry => Sys2Proof.Machine.execJobDone t entry s
  | .pstate t v => Sys2Proof.Machine.execPstate t v s
  | .sleepEntered t => Sys2Proof.Machine.execSleepEntered t s
  | .runRestored t => Sys2Proof.Machine.execRunRestored t s
  | .wakeAlarm t => Sys2Proof.Machine.execWakeAlarm t s
  | .wakePin t gpio => Sys2Proof.Machine.execWakePin t gpio s
  | .pacerReport t => Sys2Proof.Machine.execPacerReport t s
  | .vbatLow t low => Sys2Proof.Machine.execVbatLow t low s
  | .oscFail t fail long => Sys2Proof.Machine.execOscFail t fail long s
  | .powerOnReset t idx => Sys2Proof.Machine.execPowerOnReset t idx s
  | .pinReset t => Sys2Proof.Machine.execPinReset t s
  | .warmReset t key => Sys2Proof.Machine.execWarmReset t key s
  | .bootStageEnd t vals cfg => Sys2Proof.Machine.execBootStageEnd t vals cfg s
  | .wakeNFall t => Sys2Proof.Machine.execWakeNFall t s
  | .offAlarm t => Sys2Proof.Machine.execOffAlarm t s
  | .lcAdvance t key ok vdda => Sys2Proof.Machine.execLcAdvance t key ok vdda s
  | .wdogKick t v => Sys2Proof.Machine.execWdogKick t v s
  | .watchdogExpiry t => Sys2Proof.Machine.execWatchdogExpiry t s
  | .lineReset t mask key => Sys2Proof.Machine.execLineReset t mask key s
  | .lineResetRelease t ln => Sys2Proof.Machine.execLineResetRelease t ln s
  | .lineAutoReset t ln => Sys2Proof.Machine.execLineAutoReset t ln s
  | .shutdown t key => Sys2Proof.Machine.execShutdown t key s
  | .shutdownStepEnd t => Sys2Proof.Machine.execShutdownStepEnd t s
  | .smbusStatus t addr pec => Sys2Proof.Machine.execSmbusStatus t addr pec s
  | .smbusWake t addr pec => Sys2Proof.Machine.execSmbusWake t addr pec s
  | .smbusShutdown t addr v pec => Sys2Proof.Machine.execSmbusShutdown t addr v pec s
  | .smbusReset t addr v pec => Sys2Proof.Machine.execSmbusReset t addr v pec s
  | .smbusTemp t addr pec => Sys2Proof.Machine.execSmbusTemp t addr pec s
  | .powerFail t => Sys2Proof.Machine.execPowerFail t s
  | .laneStart t lpu unit => Sys2Proof.Machine.execLaneStart t lpu unit s
  | .laneStop t lpu unit errs n => Sys2Proof.Machine.execLaneStop t lpu unit errs n s
  | .inject t lpu unit => Sys2Proof.Machine.execInject t lpu unit s
  | .laneDurationEnd t lpu unit errs n => Sys2Proof.Machine.execLaneDurationEnd t lpu unit errs n s
  | .busUnitStart t lpu unit => Sys2Proof.Machine.execBusUnitStart t lpu unit s
  | .busUnitStop t lpu unit errs first lanes worst => Sys2Proof.Machine.execBusUnitStop t lpu unit errs first lanes worst s
  | .busUnitDone t lpu unit errs first lanes worst => Sys2Proof.Machine.execBusUnitDone t lpu unit errs first lanes worst s
  | .sliceStart t => Sys2Proof.Machine.execSliceStart t s
  | .sliceEnd t sig count expSig expCount ok vals => Sys2Proof.Machine.execSliceEnd t sig count expSig expCount ok vals s
  | .sliceTimeout t sig count => Sys2Proof.Machine.execSliceTimeout t sig count s
  | .budgetTimeout t sig count => Sys2Proof.Machine.execBudgetTimeout t sig count s
  | .runNow t => Sys2Proof.Machine.execRunNow t s
  | .powerOnResetHold t => Sys2Proof.Machine.execPowerOnResetHold t s
  | .vbatApplied t => Sys2Proof.Machine.execVbatApplied t s
  | .backupValidLost t => Sys2Proof.Machine.execBackupValidLost t s
  | .pcieLinkUp t speed width mps mrrs => Sys2Proof.Machine.execPcieLinkUp t speed width mps mrrs s
  | .checkerLocked t lpu unit => Sys2Proof.Machine.execCheckerLocked t lpu unit s
  | .lostLock t lpu unit errs n => Sys2Proof.Machine.execLostLock t lpu unit errs n s
  | .nandTimeout t ch fatal => Sys2Proof.Machine.execNandTimeout t ch fatal s
  | .sfeClampRelease t sfe => Sys2Proof.Machine.execSfeClampRelease t sfe s

end Sys2Proof.Machine
end

