-- ==== Sys2Proof/Safety.lean ====
section
/-! DEFINITION. The words in which statements about runs are made. -/

namespace Sys2Proof.Machine

open Sys2Proof

/-- Command `c` on `s` answers a next state with the same queue, whose device satisfies `P`. -/
def Does (c : Instr) (s : State) (P : Dev → Prop) : Prop :=
  ∃ t, exec c s = .next t ∧ t.pending = s.pending ∧ P t.dev

/-- Command `c` on `s` answers exactly this next state: the same queue, the device `d`, and the interrupt tree of
`d` settled (R57). Everything that `d` shares with the device of `s` is unchanged. -/
def Gives (c : Instr) (s : State) (d : Dev) : Prop :=
  exec c s = .next { s with dev := settle d }

/-- The part is neither held in reset nor OFF, so that it takes commands. -/
abbrev Awake (s : State) : Prop := s.dev.boot.held = false

/-- A write to page `p` reaches it: the page exists and is not the second page of its block, and it is neither hidden
in HALTED (R443) nor fenced (R47) nor without power (R434). -/
abbrev Reach (d : Dev) (p : Nat) : Prop :=
  pageOk p = true ∧ p ≠ pgPaceTbl ∧ pageHidden d p = false ∧ pageFenced d p = false ∧ pageDark d p = false

/-- A write to the window at page `p` that has no common header reaches it, as `Reach` says of a page. -/
abbrev Visible (d : Dev) (p : Nat) : Prop :=
  pageHidden d p = false ∧ pageFenced d p = false ∧ pageDark d p = false

/-- The interrupt tree is settled (R57): the vectors recorded as active are those with an enabled pending source
mapped to them, and the pending bits set are those of the active vectors that are masked. -/
def TreeSettled (d : Dev) : Prop :=
  d.irq.active = vecsActive d ∧ d.irq.pba = d.irq.active.filter (vecMasked d.irq)

/-- Every command that waits names units that the part has. -/
def QueueWf (s : State) : Prop := ∀ c ∈ s.pending, c.wf = true

/-- The registers of `d` and `e` agree outside the fields listed as pairs of a page and a field. -/
def RegsBut (fs : List (Nat × Fld)) (d e : Dev) : Prop :=
  ∀ p f, (∀ x ∈ fs, key x.1 x.2 ≠ key p f) → getR d p f = getR e p f

/-- Core `k` of line `n` issues the word `w` next: it is RUNNING in a cluster that is up and whose DVFS point is not changing,
takes no interrupt first, is in no delay slot and has no result in flight (R27, R210, R211, R221). -/
def Issues (d : Dev) (n k w : Nat) : Prop :=
  coreState d n k = 1 ∧ clusterUp d n (coreCluster k) = true ∧ coreMoves d n k = false ∧ eligible (core d n k) = false ∧
  (core d n k).pc < 4096 ∧
  Store.get (core d n k).prog 0 (core d n k).pc = w ∧ (core d n k).slots = 0 ∧ (core d n k).late = []

/-- Command `c` makes core `k` of line `n` into `y` in one cycle: its page shows the program counter and the bank, and
counts the cycle; every other core, register, event and byte of memory is unchanged. -/
def Retires (c : Instr) (s : State) (n k : Nat) (y : CoreSt) : Prop :=
  Does c s (fun d =>
    core d n k = y ∧ (∀ i j, i * 16 + j ≠ n * 16 + k → core d i j = core s.dev i j) ∧
    getR d (pgStride n k) F.STRIDE_CYCLES = (getR s.dev (pgStride n k) F.STRIDE_CYCLES + 1) % 2 ^ 64 ∧
    getR d (pgStride n k) F.STRIDE_PC = y.pc % 4096 ∧ getR d (pgStride n k) F.STRIDE_IN_ISR = b2n y.isr ∧
    RegsBut [(pgStride n k, F.STRIDE_CYCLES), (pgStride n k, F.STRIDE_PC), (pgStride n k, F.STRIDE_IN_ISR)] d s.dev ∧
    d.evt = s.dev.evt ∧ d.mem = s.dev.mem)

/-- Core `x` past an instruction that wrote the registers `now`, and whose results `late` are usable by the instruction
after the next one (R210). -/
def stepped (x : CoreSt) (now late : List (Nat × Nat)) : CoreSt :=
  { x with regs := putRegs x.regs now, late := late, lat2 := !late.isEmpty, pc := x.pc + 1 }

/-- Core `x` past a branch that wrote the registers `now`: two delay slots, then `target` or the next address (R211). -/
def branched (x : CoreSt) (now : List (Nat × Nat)) (target : Option Nat) : CoreSt :=
  { x with regs := putRegs x.regs now, lat2 := false, pc := x.pc + 1, slots := 2, target := target }

/-- The Stride instructions by their major opcode (R215). -/
def strideOps (t n k : Nat) : List (Nat × Instr) :=
  [(0x00, .strideNop t n k), (0x01, .strideAdd t n k), (0x02, .strideSub t n k), (0x03, .strideAnd t n k), (0x04, .strideOr t n k), (0x05, .strideXor t n k),
   (0x06, .strideMin t n k), (0x07, .strideMax t n k), (0x08, .strideAbs t n k), (0x09, .strideSlt t n k), (0x0A, .strideShl t n k), (0x0B, .strideShr t n k),
   (0x0C, .strideSra t n k), (0x0D, .strideNorm t n k), (0x10, .strideAddi t n k), (0x11, .strideShli t n k), (0x12, .strideShri t n k),
   (0x13, .strideSrai t n k), (0x14, .strideMovi t n k), (0x15, .strideMovih t n k), (0x16, .strideMovtx t n k), (0x17, .strideMovfx t n k),
   (0x18, .strideLd t n k), (0x19, .strideLdh t n k), (0x1A, .strideSt t n k), (0x1B, .strideSth t n k), (0x20, .strideBeq t n k), (0x21, .strideBne t n k),
   (0x22, .strideBlt t n k), (0x23, .strideBge t n k), (0x24, .strideBdec t n k), (0x25, .strideJ t n k), (0x26, .strideJal t n k), (0x27, .strideJr t n k),
   (0x28, .strideRti t n k), (0x29, .strideWait t n k), (0x2A, .strideHalt t n k)] ++
  [(0x30, .strideMac t n k false), (0x31, .strideMac2 t n k false), (0x32, .strideCmac t n k false), (0x33, .strideExt t n k), (0x34, .strideExtr t n k),
   (0x35, .strideMova t n k), (0x36, .strideAshr t n k), (0x37, .strideAdda t n k), (0x38, .strideExp t n k), (0x39, .strideAclr t n k),
   (0x3A, .strideIn t n k), (0x3B, .strideOut t n k), (0x3C, .strideMark t n k), (0x3D, .strideSig t n k)]

/-- Memory reads the same at every address. -/
def MemSame (d e : Dev) : Prop := ∀ a, memByte d.mem a = memByte e.mem a

end Sys2Proof.Machine
end

