-- ==== Sys2Proof/Certificates/Slice0/Obligations.lean ====
section
/-! DEFINITION. The statements for the provers, family by family. `Gives` states the whole next state; `Does` states
what the next state holds. -/

open Sys2Proof Sys2Proof.Machine

/-! ## The machine as a whole -/

/-- A step runs the command at the front of the queue, with the queue's rest. -/
def Obligations.StepRunsFrontCommand : Prop :=
  ∀ (c : Instr) (s : State), Machine.step { s with pending := c :: s.pending } = Machine.exec c s

/-- With an empty queue a step lets one tick pass and changes nothing else (the model's own choice, log entry 1). -/
def Obligations.IdleStepPassesOneTick : Prop :=
  ∀ s : State, s.pending = [] →
    Machine.step s = .next { s with dev := { s.dev with ticks := s.dev.ticks + 1 } }

/-- What reset leaves: every register field at its reset value, no event latched, every unit STALE (R12), every line
OFF (R63), no ring bound, no Stocktake pending, the PCIe identifiers and the IDCODE of R493, MSI-X and memory in their
canonical forms, and an empty queue. -/
def Obligations.ResetLeavesRegistersAtReset : Prop :=
  State.reset.pending = [] ∧
  (∀ p f, getR State.reset.dev p f = f.reset) ∧
  (∀ p, evtRaw State.reset.dev p = 0) ∧
  (∀ p u, isStale State.reset.dev p u = true) ∧
  (∀ n, (line State.reset.dev n).base = 0) ∧
  State.reset.dev.stk = [] ∧ State.reset.dev.fenced = [] ∧
  State.reset.dev.ids = ⟨0x1F9D, 0x9648, 0x01, 0x118000, 0x1F9D, 0x9648, 0x196480E3⟩ ∧
  TreeSettled State.reset.dev ∧ Memory.wf State.reset.dev.mem = true

/-- A command that is not well-formed is refused by name, and no other command is: every well-formed command answers
a next state, which leaves the queue as it was; a part that is held answers with itself or with a settled device. -/
def Obligations.WellFormedCommandsComplete : Prop :=
  ∀ (c : Instr) (s : State),
    (c.wf = false → Machine.exec c s = .refused .noSuchUnit) ∧
    (c.wf = true → ∃ t, Machine.exec c s = .next t ∧ t.pending = s.pending)

/-- Soundness of a run: while every waiting command names units that the part has, no step is a fault or a refusal,
the queue keeps that form, and each step takes exactly the front command from it. -/
def Obligations.WellFormedQueueNeverStops : Prop :=
  ∀ s : State, QueueWf s →
    ∃ t, Machine.step s = .next t ∧ QueueWf t ∧ t.pending = s.pending.tail

/-- The interrupt tree stays settled: if the active vectors are exactly those with an enabled pending source mapped to
them and pending bits stand only for active vectors (R57), they do so after every step, whatever the command. -/
def Obligations.InterruptTreeStaysSettled : Prop :=
  ∀ s t : State, TreeSettled s.dev → Machine.step s = .next t → TreeSettled t.dev

/-- Settling the tree (R57) touches MSI-X and the outputs alone: it recomputes the active vectors, sends messages only for
vectors that were not active and now are, and leaves every register, event and byte of memory alone. R57: a rearm
write for an active vector sends its message while it is unmasked and sets its pending bit while it is masked, and
does nothing for a vector that is not active; unmasking an active vector whose pending bit is set sends its message at
once and clears the bit. Nothing but MSI-X and the outputs changes. A rearm word sends for each active vector that it
names, and a write of a Mask bit or the Function Mask sends what it unmasks, whatever the state of the tree. R51,
R301: reading ENTRY_HI returns the selected Catalogue entry and advances INDEX by 1; reading NOW_S_LO latches the
whole time counter and returns its low word. -/
def Obligations.InterruptMessagesAndReadsWithAnEffect : Prop :=
  (∀ d : Dev, ∃ (q : Irq) (vs : List Nat),
     settle d = { d with irq := q, out := d.out ++ vs.map Output.msix } ∧
     q.active = vecsActive d ∧ q.masked = d.irq.masked ∧ q.funcMask = d.irq.funcMask ∧
     (∀ v ∈ vs, v ∈ vecsActive d ∧ v ∉ d.irq.active ∧ vecMasked d.irq v = false) ∧
     (∀ v ∈ vecsActive d, v ∉ d.irq.active → vecMasked d.irq v = false → v ∈ vs)) ∧
  (∀ (s : State) (t v : Nat), Awake s → TreeSettled s.dev → v < 64 →
     (v ∉ vecsActive s.dev → Gives (.vecRearm t (v / 32) (2 ^ (v % 32))) s (advance s.dev t)) ∧
     (v ∈ vecsActive s.dev → vecMasked s.dev.irq v = false →
       Gives (.vecRearm t (v / 32) (2 ^ (v % 32))) s (emit (advance s.dev t) (.msix v))) ∧
     (v ∈ vecsActive s.dev → vecMasked s.dev.irq v = true →
       Does (.vecRearm t (v / 32) (2 ^ (v % 32))) s (fun d =>
         v ∈ d.irq.pba ∧ d.out = s.dev.out ∧ d.regs = s.dev.regs ∧ d.evt = s.dev.evt)) ∧
     (v ∈ vecsActive s.dev → v ∈ s.dev.irq.pba → (∀ w ∈ s.dev.irq.pba, w ≠ v → vecMasked s.dev.irq w = true) →
       s.dev.irq.funcMask = false →
       Does (.msixUnmask t v false false) s (fun d =>
         d.out = s.dev.out ++ [.msix v] ∧ v ∉ d.irq.pba ∧ d.irq.masked = s.dev.irq.masked.filter (· != v) ∧
         d.regs = s.dev.regs ∧ d.evt = s.dev.evt ∧ d.mem = s.dev.mem)) ∧
     (∀ h < 2, ∀ w, Gives (.vecRearm t h w) s
       (((vecsActive s.dev).filter (fun x => decide (x / 32 = h) && bit w (x % 32))).foldl sendVec (advance s.dev t))) ∧
     (∀ m f, Does (.msixUnmask t v m f) s (fun d =>
       d.irq.masked = (if m then [v] else []) ++ s.dev.irq.masked.filter (· != v) ∧ d.irq.funcMask = f ∧
       d.irq.active = s.dev.irq.active ∧ d.irq.pba = s.dev.irq.active.filter (vecMasked d.irq) ∧
       d.out = s.dev.out ++
         ((List.range 64).filter (fun x => s.dev.irq.pba.contains x && !vecMasked d.irq x)).map Output.msix ∧
       d.regs = s.dev.regs ∧ d.evt = s.dev.evt ∧ d.mem = s.dev.mem))) ∧
  (∀ (s : State) (t : Nat), Awake s →
     Gives (.catEntryHiRead t) s
       (setR (emit (advance s.dev t) (.readData (match catalogue[getR s.dev pgCat F.CAT_INDEX]? with
           | some e => entryHi e
           | none => 0)))
         pgCat F.CAT_INDEX (getR s.dev pgCat F.CAT_INDEX + 1)) ∧
     (Reach s.dev pgTime → 0 ≤ tai s.dev →
       Does (.nowRead t) s (fun d =>
         getR d pgTime F.TIME_NOW_S = taiSec (tai (advance s.dev t)) % 2 ^ 48 ∧
         getR d pgTime F.TIME_NOW_NS = taiNs (tai (advance s.dev t)) ∧
         getR d pgTime F.TIME_NOW_SUB = taiSub (tai (advance s.dev t)) ∧
         .readData (taiSec (tai (advance s.dev t)) % 2 ^ 32) ∈ d.out ∧
         RegsBut [(pgTime, F.TIME_NOW_S), (pgTime, F.TIME_NOW_NS), (pgTime, F.TIME_NOW_SUB)] d s.dev ∧
         d.evt = s.dev.evt ∧ d.mem = s.dev.mem)))

/-! ## Register pages, events, MSI-X, Stocktake (R43–R62) -/

/-- R45, R48: a word written to EVT_EN of a page takes effect at once; a word written to a staged register of the LOOP
page is read back and leaves the value in force alone; every aligned word write that reaches a page or a coefficient
window completes there, whether it comes as a register write or as a staged write; one that meets a fence is counted in
FENCE_ACCESS (R47); one into the remote window goes on as a proxied write (R330); and a write that is narrower than a
word, or meets no page, is discarded and counted in PKG.BAD_ACCESS with its event, changing nothing else (R46). -/
def Obligations.RegisterWritesStoreByAccessType : Prop :=
  ∀ (s : State) (t v : Nat), Awake s →
    (∀ p, p < 0xC00 → Reach s.dev p →
      Gives (.registerWrite t (p * 4096 + 0x014) 4 v) s (setR (advance s.dev t) p cEVT_EN (v % 2 ^ 32))) ∧
    (∀ l, l < 8 → Reach s.dev pgLoop →
      Does (.stagedWrite t pgLoop (F.LOOP_KP l).off v) s (fun d =>
        getR d pgLoop (F.LOOP_KP l) = v % 2 ^ 32 ∧
        getL d pgLoop (F.LOOP_KP l) = getL s.dev pgLoop (F.LOOP_KP l) ∧
        RegsBut [(pgLoop, F.LOOP_KP l)] d s.dev ∧ d.evt = s.dev.evt ∧ MemSame d s.dev)) ∧
    (∀ p k off, p < 0xC00 → kindOf p = some k → coefOf p = none → Visible s.dev p → off < 4096 → off % 4 = 0 →
      Gives (.registerWrite t (p * 4096 + off) 4 v) s (pageWrite (advance s.dev t) p k off (v % 2 ^ 32)) ∧
      Gives (.stagedWrite t p off v) s (pageWrite (advance s.dev t) p k off (v % 2 ^ 32))) ∧
    (∀ p n l h off, p < 0xC00 → coefOf p = some (n, l, h) → Visible s.dev p → off < 4096 → off % 4 = 0 →
      Gives (.registerWrite t (p * 4096 + off) 4 v) s
        (coefStore (advance s.dev t) n l (1024 * h + off / 4) (v % 2 ^ 32))) ∧
    (∀ p k off, p < 0xC00 → kindOf p = some k → pageHidden s.dev p = false → pageFenced s.dev p = true → off < 4096 →
      off % 4 = 0 →
      Gives (.registerWrite t (p * 4096 + off) 4 v) s (bump (advance s.dev t) pgPkg F.PKG_FENCE_ACCESS)) ∧
    (∀ off, off < 0x400000 → off % 4 = 0 → getR s.dev pgBtn F.BTN_WIN_QTR ≠ 3 →
      getR s.dev pgBtn F.BTN_WIN_PKG ≠ pkgIndex s.dev →
      Gives (.registerWrite t (0xC00000 + off) 4 v) s
        (proxyPut (advance s.dev t) ⟨0, getR s.dev pgBtn F.BTN_WIN_PKG,
          getR s.dev pgBtn F.BTN_WIN_QTR * 0x400000 + off, true, v % 2 ^ 32, max s.dev.ticks t, 4⟩)) ∧
    (∀ addr size, size < 4 → addr < 0xC00000 →
      Gives (.registerWrite t addr size v) s (badAccess (advance s.dev t))) ∧
    (∀ addr, addr < 0xC00000 → kindOf (addr / 4096) = none → coefOf (addr / 4096) = none →
      Gives (.registerWrite t addr 4 v) s (badAccess (advance s.dev t)))

/-- R50, R59: CLR_COUNTERS clears every counter and since-clear tracker of its page and leaves every other register field,
every event, the Stocktake snapshots and memory alone; a Stocktake whose instant is the cycle of the clear is taken first,
with the counters as they stood, and the clips and cycles that a STARTER or STRIDE page had still to count are counted
before they are cleared; else the clear is all that happens. -/
def Obligations.ClearCountersClearsExactlyThePagesCounters : Prop :=
  ∀ (s : State) (t p : Nat) (k : PageKind), Awake s → kindOf p = some k → Reach s.dev p →
    let n := (lineOfPage p).getD 0
    let d1 := stkCatch (advance s.dev t)
    let d2 := if k = .starter then clipRun d1 n d1.ticks else d1
    let d0 := if k = .stride then waitNote d2 n (p - pgStride n 0) else d2
    Does (.clrCounters t p) s (fun d =>
      (∀ r ∈ rowsOf k, r.ctr = true → ∀ i < r.n1, ∀ j < r.n2, getR d p (rowFld r i j) = 0) ∧
      (∀ q f, (∀ r ∈ rowsOf k, r.ctr = true → ∀ i < r.n1, ∀ j < r.n2, key p (rowFld r i j) ≠ key q f) →
        getR d q f = getR d0 q f) ∧
      d.evt = d0.evt ∧ d.snap = d0.snap ∧ MemSame d d0) ∧
    ((∀ x ∈ s.dev.stk, x.taken = true ∨ ∀ i, x.instant = some i → ticksUntil (advance s.dev t) i ≠ 0) →
      d1 = advance s.dev t)

/-- R55: raising an event sets its bit and no other, an onset is a change of its condition to true, and a condition that
persists after its bit is cleared sets nothing. EVT_SET sets the bits written as 1, one bit just as the device's own raise
does; EVT_CLR clears them except those that the device raises in the same cycle; events of other pages, all registers and
memory stay as they are. -/
def Obligations.EventWritesSetAndClearBits : Prop :=
  (∀ (d : Dev) (p b i q : Nat), (evtRaw (raise d p b) p).testBit i = ((evtRaw d p).testBit i || decide (i = b)) ∧
    (q ≠ p → evtRaw (raise d p b) q = evtRaw d q) ∧ raiseOn d p b false true = raise d p b ∧
    raiseOn d p b true true = d ∧ raiseOn d p b true false = d ∧ raiseOn d p b false false = d) ∧
  (∀ (s : State) (t p v same : Nat), Awake s → Reach s.dev p →
    (∀ b < 32, Does (.evtSet t p (2 ^ b)) s (fun d => d.evt = (raise s.dev p b).evt)) ∧
    Does (.evtSet t p v) s (fun d =>
      (∀ i < 32, (evtRaw d p).testBit i = ((evtRaw s.dev p).testBit i || v.testBit i)) ∧
      (∀ q, q ≠ p → evtRaw d q = evtRaw s.dev q) ∧ d.regs = s.dev.regs ∧ d.mem = s.dev.mem) ∧
    Does (.evtClr t p v same) s (fun d =>
      (∀ i < 32, (evtRaw d p).testBit i = (((evtRaw s.dev p).testBit i && !v.testBit i) || same.testBit i)) ∧
      (∀ q, q ≠ p → evtRaw d q = evtRaw s.dev q) ∧ d.regs = s.dev.regs ∧ d.mem = s.dev.mem))

/-- R58, R59, R61: with none pending, a local request fixes T as the first Pacer tick boundary at least 20 µs ahead and
gives the epoch after the present one; a request while one is pending joins it and counts STK_MERGED; a system request
on a package that is not the master and whose UP link is not UP fails with SYS_FAILED and STOCKTAKE_FAILED; the master
fixes T at least 100 µs ahead, another package sends the request up; and a word without REQ sets SYSTEM and RING_OUT.
R58, R61: at the instant of a pending local Stocktake the package epoch becomes the one it gives, every page outside
fenced regions shows it in EPOCH.STOCKTAKE and the pages of fenced regions keep theirs, PENDING clears and
STOCKTAKE_DONE is raised. A system Stocktake: the master sets T for a forwarded request and sends it down; a package
below adopts a T that is still to come; confirmations count at the master within 2 ms; at T + 2 ms the master shows
ANSWERED and completes; and 10 ms after a request that no T has answered, the request fails. Another package carries
requests and confirmations up and T down, also a T that has gone by; the master joins a request to the pending one. -/
def Obligations.StocktakesRunFromRequestToEnd : Prop :=
  (∀ (s : State) (t : Nat), Awake s →
     (s.dev.stk = [] → Does (.stocktakeReq t 1) s (fun d =>
       ∃ x : Int, d.stk = [⟨some d.ticks, false, some x, (s.dev.stkEpoch + 1) % 65536, [], false⟩] ∧
         x % msU = 0 ∧ tai d + 655360 * 2000 ≤ x ∧ x < tai d + 655360 * 2000 + msU ∧
         getR d pgPkg F.PKG_STK_REQ = 1 ∧ getR d pgPkg F.PKG_STK_PENDING = 1 ∧
         d.snap = s.dev.snap ∧ d.stkEpoch = s.dev.stkEpoch ∧ d.mem = s.dev.mem)) ∧
     (s.dev.stk ≠ [] → Does (.stocktakeReq t 1) s (fun d =>
       d.stk = s.dev.stk ∧ d.snap = s.dev.snap ∧ d.evt = s.dev.evt ∧
       getR d pgPkg F.PKG_STK_MERGED = min (getR s.dev pgPkg F.PKG_STK_MERGED + 1) (2 ^ 32 - 1))) ∧
     (s.dev.stk = [] → isMaster s.dev = false → batonUp s.dev 0 = false → Does (.stocktakeReq t 3) s (fun d =>
       d.stk = [] ∧ getR d pgPkg F.PKG_SYS_FAILED = 1 ∧ getR d pgPkg F.PKG_STK_PENDING = 0 ∧
       (evtRaw d pgPkg).testBit 16 = true ∧ d.snap = s.dev.snap ∧ d.stkEpoch = s.dev.stkEpoch)) ∧
     (s.dev.stk = [] → isMaster s.dev = true → Does (.stocktakeReq t 3) s (fun d =>
       ∃ x : Int, d.stk = [⟨some d.ticks, true, some x, (s.dev.stkEpoch + 1) % 65536, [], false⟩] ∧
         x % msU = 0 ∧ tai d + 655360 * 10000 ≤ x ∧ getR d pgPkg F.PKG_STK_PENDING = 1 ∧ d.snap = s.dev.snap)) ∧
     (s.dev.stk = [] → isMaster s.dev = false → batonUp s.dev 0 = true → Does (.stocktakeReq t 3) s (fun d =>
       d.stk = [⟨some d.ticks, true, none, 0, [], false⟩] ∧ .baton 0 0 [] ∈ d.out ∧
       getR d pgPkg F.PKG_STK_PENDING = 1 ∧ d.snap = s.dev.snap)) ∧
     (∀ w, bit w 0 = false → Gives (.stocktakeReq t w) s
       (setR (setR (advance s.dev t) pgPkg F.PKG_STK_SYSTEM (bits w 1 1)) pgPkg F.PKG_STK_RING_OUT (bits w 2 1)))) ∧
  (∀ (s : State) (t : Nat), Awake s →
     (∀ k x, s.dev.stk = [k] → k.system = false → k.taken = false → k.instant = some x →
       getR s.dev pgPkg F.PKG_STK_RING_OUT = 0 →
       Does (.stocktakeInstant t) s (fun d =>
         d.stkEpoch = k.epoch ∧ d.stk = [] ∧ getR d pgPkg F.PKG_STK_PENDING = 0 ∧
         getR d pgPkg F.PKG_LAST_EPOCH = k.epoch % 65536 ∧ (evtRaw d pgPkg).testBit 8 = true ∧
         (∀ p ∈ allPages, pageFenced s.dev p = false → getR d p cSTOCKTAKE = k.epoch % 65536) ∧
         (∀ p ∈ allPages, pageFenced s.dev p = true → getR d p cSTOCKTAKE = getR s.dev p cSTOCKTAKE) ∧
         d.mem = s.dev.mem)) ∧
     (s.dev.stk = [] → isMaster s.dev = true → batonUp s.dev 1 = true →
       Does (.stocktakeForward t) s (fun d =>
         ∃ x : Int, d.stk = [⟨none, true, some x, (s.dev.stkEpoch + 1) % 65536, [], false⟩] ∧ x % msU = 0 ∧
           tai d + 655360 * 10000 ≤ x ∧ .baton 1 1 [x, ((s.dev.stkEpoch + 1) % 65536 : Nat)] ∈ d.out)) ∧
     (∀ (x : Int) (e : Nat), e < 65536 → isMaster s.dev = false → batonUp s.dev 0 = true →
       tai (advance s.dev t) < x → s.dev.stk = [] →
       Does (.stocktakeTWord t x e) s (fun d => d.stk = [⟨none, true, some x, e, [], false⟩] ∧ d.snap = s.dev.snap)) ∧
     (s.dev.stk ≠ [] → isMaster s.dev = true → batonUp s.dev 1 = true →
       Gives (.stocktakeForward t) s (bump (advance s.dev t) pgPkg F.PKG_STK_MERGED)) ∧
     (isMaster s.dev = false → batonUp s.dev 1 = true →
       Gives (.stocktakeForward t) s (batonSend (advance s.dev t) 0 0 [])) ∧
     (∀ (x : Int) (e : Nat), e < 65536 → isMaster s.dev = false → batonUp s.dev 0 = true → x ≤ tai (advance s.dev t) →
       Gives (.stocktakeTWord t x e) s (batonSend (advance s.dev t) 1 1 [x, (e : Int)])) ∧
     (∀ i < 8, isMaster s.dev = false → batonUp s.dev 1 = true →
       Gives (.stocktakeConfirm t i) s (batonSend (advance s.dev t) 0 2 [(i : Int)])) ∧
     (∀ k x i, i < 8 → s.dev.stk = [k] → k.system = true → k.taken = true → k.instant = some x → i ∉ k.confirms →
       isMaster s.dev = true → batonUp s.dev 1 = true → tai (advance s.dev t) ≤ x + 2 * msU →
       Does (.stocktakeConfirm t i) s (fun d =>
         d.stk = [{ k with confirms := k.confirms ++ [i] }] ∧ d.regs = s.dev.regs)) ∧
     (∀ k x, s.dev.stk = [k] → k.system = true → k.taken = true → k.instant = some x → k.confirms.length < 8 →
       Does (.stocktakeMasterClose t) s (fun d =>
         getR d pgPkg F.PKG_ANSWERED = 1 + k.confirms.length ∧ d.stk = [] ∧ x + 2 * msU ≤ tai d ∧
         (evtRaw d pgPkg).testBit 8 = true ∧
         getR d pgPkg F.PKG_PARTIAL = b2n (batonUp s.dev 1 && s.dev.baton.below.any (fun i => !k.confirms.contains i)))) ∧
     (∀ k q, s.dev.stk = [k] → k.system = true → k.instant = none → k.reqAt = some q →
       Does (.stocktakeSysTimeout t) s (fun d =>
         d.stk = [] ∧ q + 1000000 ≤ d.ticks ∧ getR d pgPkg F.PKG_SYS_FAILED = 1 ∧
         (evtRaw d pgPkg).testBit 16 = true ∧ d.snap = s.dev.snap ∧ d.stkEpoch = s.dev.stkEpoch)))

/-! ## Commits and the shot timeline (R63–R89) -/

/-- R85: an evaluation shows the lowest-numbered failure of the staged plan. A PERIOD below 2,000 is reason 1, a round
trip that does not fit reason 2, LOCKED timing with a PERIOD that does not divide 100,000,000 reason 3, a GRID_PHASE not
below PERIOD reason 4, in RATE mode a PERIOD that is no multiple of N reason 5, an N out of range reason 6, each only where
no lower one holds; ERROR follows. Nothing else changes. Every evaluation completes: it shows the verdict of the check on
the staged plan, and a plan without a failure shows reason 0 and no ERROR. -/
def Obligations.PlanCheckShowsTheLowestReason : Prop :=
  ∀ (s : State) (t n : Nat), n < 12 → Awake s →
    let per := getR s.dev (pgLine n) F.LINE_PERIOD
    let fits := roundTripOk s.dev .staged n = true
    let shows (r : Nat) : Prop := Does (.planCheckEval t n) s (fun d =>
      getR d (pgLine n) F.LINE_REASON = r ∧ getR d (pgLine n) F.LINE_CHECK_SLOT = 0 ∧
      getR d (pgLine n) F.LINE_CHECK_PAGE = 0 ∧ getR d (pgLine n) cERROR = 1 ∧
      RegsBut [(pgLine n, F.LINE_REASON), (pgLine n, F.LINE_CHECK_SLOT), (pgLine n, F.LINE_CHECK_PAGE),
        (pgLine n, cERROR)] d s.dev ∧
      d.lines = s.dev.lines ∧ d.epochs = s.dev.epochs ∧ d.evt = s.dev.evt ∧ d.mem = s.dev.mem)
    (per < 2000 → shows 1) ∧
    (2000 ≤ per → ¬fits → shows 2) ∧
    (2000 ≤ per → fits → getR s.dev (pgLine n) F.LINE_TIMING = 1 → 100000000 % per ≠ 0 → shows 3) ∧
    let lower := 2000 ≤ per ∧ fits ∧ getR s.dev (pgLine n) F.LINE_TIMING = 0
    (lower → per ≤ getR s.dev (pgLine n) F.LINE_GRID_PHASE → shows 4) ∧
    (lower → getR s.dev (pgLine n) F.LINE_GRID_PHASE < per → getR s.dev (pgLine n) F.LINE_MODE = 0 →
      per % getR s.dev (pgLine n) F.LINE_SLOTS ≠ 0 → shows 5) ∧
    (lower → getR s.dev (pgLine n) F.LINE_GRID_PHASE < per → getR s.dev (pgLine n) F.LINE_MODE = 1 →
      (getR s.dev (pgLine n) F.LINE_SLOTS = 0 ∨ 8 < getR s.dev (pgLine n) F.LINE_SLOTS) → shows 6) ∧
    Gives (.planCheckEval t n) s (checkShow (advance s.dev t) n) ∧
    ((planCheck s.dev .staged n).1 = 0 → Does (.planCheckEval t n) s (fun d =>
      getR d (pgLine n) F.LINE_REASON = 0 ∧ getR d (pgLine n) cERROR = 0 ∧ d.epochs = s.dev.epochs ∧ d.evt = s.dev.evt))

/-- R49, R80, R81, R84, R85: a COMMIT_SHOT that is in time waits for its point without touching the epoch; one within 200
ticks of the next slot-0 instant is late and every page of the region raises COMMIT_LATE; CANCEL without a pending
commit does nothing, and with one withdraws it and counts it in CANCELS; a COMMIT whose check fails is refused at once
with PLAN_REJECT and PLAN_REJECTS; one whose check passes waits, on a line that runs and on one that does not, and
joins one that waits; a COMMIT in a service region waits once, however often it is written; and COMMIT on the pages of
R495 has no effect. R29, R49, R80: at the capture instant a pending COMMIT_SHOT is captured with every staged value of
that moment, and its epoch does not move yet, and so is a COMMIT without a plan change; each slot-0 instant has one
capture. The commit that waits in a service region is taken and applied, advancing that region's epoch by one modulo
65,536 and no other, with COMMIT_APPLIED raised on each of its pages; those of an OFF or DARK line apply at once. -/
def Obligations.CommitsWaitApplyOrAreWithdrawn : Prop :=
  (∀ (s : State) (t : Nat), Awake s →
     (∀ n < 12, Reach s.dev (pgLine n) → (line s.dev n).shot = none →
       (∀ e, (line s.dev n).next = some e → max s.dev.ticks t + 200 ≤ e) →
       Does (.commitShot t n) s (fun d =>
         (line d n).shot = some ⟨max s.dev.ticks t, false⟩ ∧ d.epochs = s.dev.epochs ∧ d.evt = s.dev.evt ∧
         RegsBut [(pgLine n, cBUSY), (pgLine n, F.LINE_PLAN_PENDING), (pgLine n, F.LINE_SHOT_PENDING)] d s.dev ∧
         getR d (pgLine n) cBUSY = 1 ∧ d.mem = s.dev.mem)) ∧
     (∀ n < 12, Reach s.dev (pgLine n) → (line s.dev n).shot = none →
       (∃ e, (line s.dev n).next = some e ∧ e < max s.dev.ticks t + 200) →
       Does (.commitShot t n) s (fun d =>
         (line d n).shot = some ⟨max s.dev.ticks t, true⟩ ∧ d.epochs = s.dev.epochs ∧
         (∀ p ∈ regionPages n, (evtRaw d p).testBit 3 = true) ∧ d.mem = s.dev.mem)) ∧
     (∀ n < 12, Reach s.dev (pgLine n) → (line s.dev n).shot ≠ none →
       Gives (.commitShot t n) s (advance s.dev t)) ∧
     (∀ n < 12, Reach s.dev (pgLine n) → (∀ e, (line s.dev n).next = some e → max s.dev.ticks t + 200 < e) →
       (line s.dev n).plan = none → (line s.dev n).shot = none → Gives (.cancel t n) s (advance s.dev t)) ∧
     (∀ n < 12, Reach s.dev (pgLine n) → (∀ e, (line s.dev n).next = some e → max s.dev.ticks t + 200 < e) →
       (line s.dev n).plan ≠ none ∨ (line s.dev n).shot ≠ none →
       Gives (.cancel t n) s
         (let d := setLine (advance s.dev t) n { line s.dev n with plan := none, shot := none }
          commitShow (gateUnused (bump d (pgLine n) F.LINE_CANCELS) n) n)) ∧
     (∀ n < 12, Reach s.dev (pgLine n) → (planCheck (advance s.dev t) .staged n).1 ≠ 0 →
       (planCheck (advance s.dev t) .staged n).1 < 256 →
       Gives (.commit t (pgLine n)) s
         (bump (raise (checkShow (advance s.dev t) n) (pgLine n) 9) (pgLine n) F.LINE_PLAN_REJECTS)) ∧
     (∀ n < 12, ∀ p ∈ linePages n, Reach s.dev p → (planCheck s.dev .staged n).1 = 0 → (line s.dev n).plan = none →
       (∀ e, (line s.dev n).next = some e → max s.dev.ticks t + 200 ≤ e) →
       Does (.commit t p) s (fun d =>
         (line d n).plan = some ⟨max s.dev.ticks t, false⟩ ∧ (line d n).shot = (line s.dev n).shot ∧
         (line d n).cap = (line s.dev n).cap ∧ getR d (pgLine n) cBUSY = 1 ∧ getR d (pgLine n) F.LINE_REASON = 0 ∧
         d.epochs = s.dev.epochs ∧ d.committed = s.dev.committed ∧ d.mem = s.dev.mem)) ∧
     (∀ n < 12, ∀ p ∈ linePages n, Reach s.dev p → (planCheck s.dev .staged n).1 = 0 → (line s.dev n).plan = none →
       planDiffers s.dev n = false → (∃ e, (line s.dev n).next = some e ∧ e < max s.dev.ticks t + 200) →
       Does (.commit t p) s (fun d =>
         (line d n).plan = some ⟨max s.dev.ticks t, true⟩ ∧ (∀ q ∈ regionPages n, (evtRaw d q).testBit 3 = true) ∧
         d.epochs = s.dev.epochs ∧ d.mem = s.dev.mem)) ∧
     (∀ n < 12, ∀ p ∈ linePages n, Reach s.dev p → (planCheck s.dev .staged n).1 = 0 → (line s.dev n).plan ≠ none →
       Gives (.commit t p) s (checkShow (advance s.dev t) n)) ∧
     (∀ p r, Reach s.dev p → regionOf p = some r → 12 ≤ r → r ∉ s.dev.commitPend →
       Gives (.commit t p) s { advance s.dev t with commitPend := s.dev.commitPend ++ [r] }) ∧
     (∀ p r, Reach s.dev p → regionOf p = some r → 12 ≤ r → r ∈ s.dev.commitPend →
       Gives (.commit t p) s (advance s.dev t)) ∧
     (∀ p, Reach s.dev p → regionOf p = none → Gives (.commit t p) s (advance s.dev t))) ∧
  (∀ (s : State) (t : Nat), Awake s →
     (∀ n < 12, ∀ e q, (line s.dev n).next = some e → (line s.dev n).capFor ≠ some e →
       (line s.dev n).plan = none → (line s.dev n).shot = some q → q.reqAt + 200 ≤ e →
       Does (.commitCapture t n) s (fun d =>
         (line d n).shot = none ∧ (line d n).capShot = some ⟨true, q.late, captureNow s.dev n⟩ ∧
         (line d n).capFor = some e ∧ e - 200 ≤ d.ticks ∧ d.epochs = s.dev.epochs ∧ d.evt = s.dev.evt ∧
         RegsBut [(pgLine n, cBUSY), (pgLine n, F.LINE_PLAN_PENDING), (pgLine n, F.LINE_SHOT_PENDING)] d s.dev ∧
         d.mem = s.dev.mem)) ∧
     (∀ n < 12, ∀ e q, (line s.dev n).next = some e → (line s.dev n).capFor ≠ some e →
       (line s.dev n).shot = none → (line s.dev n).plan = some q → q.reqAt + 200 ≤ e → planDiffers s.dev n = false →
       Does (.commitCapture t n) s (fun d =>
         (line d n).plan = none ∧ (line d n).cap = some ⟨true, q.late, captureNow s.dev n⟩ ∧
         (line d n).capFor = some e ∧ e - 200 ≤ d.ticks ∧ d.epochs = s.dev.epochs ∧ d.evt = s.dev.evt ∧
         RegsBut [(pgLine n, cBUSY), (pgLine n, F.LINE_PLAN_PENDING), (pgLine n, F.LINE_SHOT_PENDING)] d s.dev ∧
         d.mem = s.dev.mem)) ∧
     (∀ n < 12, ∀ e, (line s.dev n).next = some e → (line s.dev n).capFor ≠ some e →
       Gives (.commitCapture t n) s (capture (advance s.dev (max t (e - 200))) n e)) ∧
     (∀ n < 12, (∀ e, (line s.dev n).next = some e → (line s.dev n).capFor = some e) →
       Gives (.commitCapture t n) s (advance s.dev t)) ∧
     (∀ n < 12, isFenced s.dev n = false → s.dev.bist = none → (line s.dev n).base = 0 ∨ (line s.dev n).base = 6 →
       (line s.dev n).plan ≠ none ∨ (line s.dev n).shot ≠ none →
       Gives (.immediateCommitApply t n) s (offApply (advance s.dev t) n)) ∧
     (isFenced s.dev 16 = false → s.dev.bist = none → 16 ∈ s.dev.commitPend →
       Gives (.immediateCommitApply t 16) s (serviceApply (advance s.dev t) 16)) ∧
     (∀ r, 12 ≤ r → r < 16 → r ∈ s.dev.commitPend → isFenced s.dev r = false → s.dev.bist = none →
       Does (.immediateCommitApply t r) s (fun d =>
         epoch d r = (epoch s.dev r + 1) % 65536 ∧ (∀ q, q ≠ r → epoch d q = epoch s.dev q) ∧
         r ∉ d.commitPend ∧ (∀ p ∈ regionPages r, (evtRaw d p).testBit 2 = true) ∧ d.mem = s.dev.mem)) ∧
     (∀ r, 12 ≤ r → r < 17 → r ∉ s.dev.commitPend → isFenced s.dev r = false →
       Gives (.immediateCommitApply t r) s (advance s.dev t)))

/-- R84: CANCEL before the capture instant withdraws the line's waiting commits: none is pending afterwards, every staged
value stays staged, and CANCELS counts the withdrawal. With no commit pending it has no effect; at or after the capture
instant of slot-0 instant e it leaves what is captured for e captured, changing nothing where nothing more waits. -/
def Obligations.CancelWithdrawsWaitingCommits : Prop :=
  ∀ (s : State) (t n : Nat), n < 12 → Awake s → Reach s.dev (pgLine n) →
    let before := ∀ e, (line s.dev n).next = some e → (line s.dev n).capFor = some e ∨ max s.dev.ticks t + 200 < e
    (before → (line s.dev n).plan = none → (line s.dev n).shot = none → Gives (.cancel t n) s (advance s.dev t)) ∧
    (∀ e, (line s.dev n).next = some e → e ≤ max s.dev.ticks t + 200 →
      (line (capture (advance s.dev t) n e) n).plan = none → (line (capture (advance s.dev t) n e) n).shot = none →
      Gives (.cancel t n) s (capture (advance s.dev t) n e)) ∧
    (before → (line s.dev n).plan ≠ none ∨ (line s.dev n).shot ≠ none → Does (.cancel t n) s (fun d =>
      (line d n).plan = none ∧ (line d n).shot = none ∧ (line d n).cap = (line s.dev n).cap ∧
      (line d n).capShot = (line s.dev n).capShot ∧
      (∀ e ∈ stagedFields n, getR d e.1 e.2.1 = getR s.dev e.1 e.2.1) ∧
      getR d (pgLine n) F.LINE_CANCELS = min (getR s.dev (pgLine n) F.LINE_CANCELS + 1) (2 ^ 32 - 1) ∧
      d.mem = s.dev.mem))

/-- R64, R72, R74, R81, R86–R88: a slot-0 instant, a slot's launch, a start and the end of a gap happen at the ticks
that the timeline gives, not before them, and do what the rules of the timeline say; without a timeline, a waiting start
or a gap, and for a slot that the plan does not enable, they do nothing. A slot launches where slot 0 did and the line is
not in SAFE, and is skipped otherwise; in a gap it is a slot of the old plan. -/
def Obligations.TimelineEventsComeAtTheirInstants : Prop :=
  ∀ (s : State) (t n : Nat), n < 12 → Awake s →
    (∀ e, (line s.dev n).next = some e →
      Gives (.slot0Instant t n) s (slot0 (advance s.dev (max t e)) n e)) ∧
    ((line s.dev n).next = none → Gives (.slot0Instant t n) s (advance s.dev t)) ∧
    let x := line s.dev n
    let gap := x.gap || x.stopAt.isSome
    let slots := if gap then x.gapN else slotsN s.dev n
    let step := if gap then x.gapStep else if flagL s.dev (pgLine n) F.LINE_MODE then 0 else x.period / max 1 slots
    (∀ k < 8, slots ≤ k → Gives (.slotLaunch t n k) s (advance s.dev t)) ∧
    (∀ k < 8, 0 < k → k < slots → k ∉ x.launches → x.launches ≠ [] → x.base ≠ 0 → x.base ≠ 6 →
      let d := setLine (advance s.dev (max t (x.l0 + k * step))) n { x with launches := x.launches ++ [k] }
      (x.launched = true → lineState s.dev n ≠ 4 → Gives (.slotLaunch t n k) s
        (pipeLaunch (starterLaunch d n k (x.l0 + k * step)) n k (x.l0 + k * step) x.l0No false)) ∧
      (x.launched = false ∨ lineState s.dev n = 4 → Gives (.slotLaunch t n k) s
        (pipeLaunch d n k (x.l0 + k * step) x.l0No true))) ∧
    ((line s.dev n).waitWake = true → isFenced s.dev n = false →
      let d := advance s.dev (max t (readyTick s.dev (keepSet s.dev n) + 200))
      let d := (keepSet s.dev n).foldl
        (fun d c => if (cluster d c.1 c.2).waking then clusterReady d c.1 c.2 else d) d
      Gives (.lineStart t n) s (startAt d n d.ticks)) ∧
    ((line s.dev n).waitWake = false → Gives (.lineStart t n) s (advance s.dev t)) ∧
    (∀ a, (line s.dev n).stopAt = some a → s.dev.boot.stop = none → (line s.dev n).paceStop = false →
      Gives (.gapEnd t n) s (lineOff (advance s.dev (max t a)) n 0)) ∧
    (∀ a, (line s.dev n).stopAt = some a → s.dev.boot.stop = none → (line s.dev n).paceStop = true →
      Gives (.gapEnd t n) s (lineOff (advance s.dev (max t a)) n 6)) ∧
    (∀ a, (line s.dev n).stopAt = none → (line s.dev n).darkEnd = some a →
      Gives (.gapEnd t n) s
        (partnerOff (setLine (advance s.dev (max t a)) n { line s.dev n with darkEnd := none }) n)) ∧
    ((line s.dev n).stopAt = none → (line s.dev n).darkEnd = none → Gives (.gapEnd t n) s (advance s.dev t))

/-- R12, R14, R18, R25, R27: a wake ends at its time and leaves the cluster's units STALE, those of a Converter or Starter
cluster with a calibration pass due; a service region's STALE units become current with the region's epoch, a line's
at its own slot-0 instant alone; and a Stride cluster whose point changes runs at the point aimed at once its cores
have halted. R31, R32: when all 48 sensors of the three dies read the same value in range and below the trip, each
die's mean and maximum are that value and every sensor is valid; when any sensor reads 125 °C (16,000) or more,
whatever the others read, the gates of all twelve lines go to their inactive levels and the probe DACs to mid-code,
THERMTRIP_N goes low, the trip is recorded, and the part holds itself in reset. -/
def Obligations.ClustersWakeUnitsCatchUpAndHeatTrips : Prop :=
  (∀ (s : State) (t : Nat), Awake s →
     (∀ n < 12, ∀ c, 2 ≤ c → c < 11 → (cluster s.dev n c).powered = true → (cluster s.dev n c).waking = true →
       Does (.clusterReady t n c) s (fun d =>
         cluster d n c = { cluster s.dev n c with waking := false } ∧ (cluster s.dev n c).readyAt ≤ d.ticks ∧
         (∀ p ∈ clusterPages n c, ∀ u < unitCount p, isStale d p u = true) ∧
         d.regs = s.dev.regs ∧ d.unitEpoch = s.dev.unitEpoch ∧ d.mem = s.dev.mem)) ∧
     (∀ n < 12, ∀ c < 11, (cluster s.dev n c).powered = true → (cluster s.dev n c).waking = true →
       Gives (.clusterReady t n c) s (clusterReady (advance s.dev (max t (cluster s.dev n c).readyAt)) n c)) ∧
     (∀ n < 12, ∀ c < 11, (cluster s.dev n c).powered = false ∨ (cluster s.dev n c).waking = false →
       Gives (.clusterReady t n c) s (advance s.dev t)) ∧
     (∀ n < 12, isFenced s.dev n = false → lineOn s.dev n = true → (line s.dev n).base ≠ 6 →
       (line s.dev n).l0 = max s.dev.ticks t →
       Gives (.catchUp t n) s (partnerCatchUp (lineCatchUp (advance s.dev t) n (max s.dev.ticks t)
         (decide ((line s.dev n).l0No % 2 ^ lv s.dev n F.LINE_PLAN_CYCLE = 0))) n (max s.dev.ticks t))) ∧
     (∀ n < 12, (line s.dev n).l0 ≠ max s.dev.ticks t → Gives (.catchUp t n) s (advance s.dev t)) ∧
     (∀ r, 12 ≤ r → r < 17 → isFenced s.dev r = false →
       Does (.catchUp t r) s (fun d =>
         (∀ p ∈ regionPages r, ∀ u < unitCount p, isStale d p u = false) ∧
         (∀ p ∈ regionPages r, ∀ u < unitCount p, isStale s.dev p u = true → unitEpochOf d p u = epoch s.dev r) ∧
         d.epochs = s.dev.epochs ∧ d.regs = s.dev.regs ∧ d.evt = s.dev.evt ∧ d.mem = s.dev.mem)) ∧
     (∀ n < 12, ∀ c < 4, (cluster s.dev n (7 + c)).changing = true → coresHalted s.dev n c = true →
       Does (.dvfsDone t n c) s (fun d =>
         let x := cluster s.dev n (7 + c)
         cluster d n (7 + c) = { x with changing := false, mv := pointMv x.target } ∧
         getR d (pgStrideCl n) F.STRIDECL_POINT_NOW =
           putBits (getR s.dev (pgStrideCl n) F.STRIDECL_POINT_NOW) (2 * c) 2 x.target % 256 ∧
         (evtRaw d (pgStrideCl n)).testBit 10 = true ∧
         (∀ i < 4, coreState s.dev n (4 * c + i) = 6 → coreState d n (4 * c + i) ≠ 6) ∧ d.mem = s.dev.mem)) ∧
     (∀ n < 12, ∀ c < 4, (cluster s.dev n (7 + c)).changing = false ∨ coresHalted s.dev n c = false →
       Gives (.dvfsDone t n c) s (advance s.dev t))) ∧
  (∀ (s : State) (t : Nat), Awake s →
     (∀ r : Int, -7040 ≤ r → r < 16000 →
       Does (.thermalSensorUpdate t (List.replicate 48 r)) s (fun d => ∀ k < 3,
         getS d (pgTherm k) F.THERM_TEMP_MEAN = r ∧ getS d (pgTherm k) F.THERM_TEMP_MAX = r ∧
         getR d (pgTherm k) F.THERM_VALID = 65535 ∧ d.mem = s.dev.mem ∧ d.boot = s.dev.boot)) ∧
     (∀ (rs : List Int) (i : Nat), i < 48 → rs.length = 48 → 16000 ≤ rs.getD i 0 →
       Does (.thermalSensorUpdate t rs) s (fun d =>
         d.boot.held = true ∧ d.boot.tripped = true ∧ d.gatesHeld = true ∧
         (∃ k j r, d.boot.trip = some (k, j, r) ∧ k < 3 ∧ j < 16 ∧ r = rs.getD (16 * k + j) 0 ∧ rs.getD i 0 ≤ r) ∧
         Output.pin .thermtrip 0 ∈ d.out ∧ ∀ n < 12, Output.pin (.dac n) 8192 ∈ d.out ∧
           Output.pin (.pgate n) (gateIdle s.dev n true) ∈ d.out ∧ Output.pin (.tgate n) (gateIdle s.dev n false) ∈ d.out)))

/-! ## Dies and bridges (R30–R35) -/

/-- R33, R35: a good flit takes a credit of its own virtual channel and adds its bytes to the counter of its direction;
one without a credit waits; a failed one is replayed with REPLAY_COUNT and REPLAY until REPLAY_LIMIT replays in a row
have failed, when the bridge retrains; RETRAIN starts a retrain of a bridge that does not retrain already; its end
shows the link UP and carries out the reads that waited, in order; and the oldest of them completes with all ones,
counted, once READ_TIMEOUT has passed. R34, R338: a frame that waits in its die's pool crosses the bridge once the hub
has shelves for it: it leaves the die's pool, frees its shelves there, and reaches the rolling record, the Archive and
its ring; while the bridge is not UP, or its FRAME channel has no credit, it stays; at a fenced memory region it is
discarded (R30). -/
def Obligations.BridgesReplayAndCarryFrames : Prop :=
  (∀ (s : State) (t b : Nat), 1 ≤ b → b < 3 → Awake s →
     let x := bridge s.dev b
     (∀ up vc len free, vc < 4 → x.retraining = false → vcFree s.dev b up vc = true →
       Gives (.bridgeFlit t b up ⟨vc, len, free⟩ true) s
         (addC (setBridge (advance s.dev t) b { x with
             failRun := 0, used := Store.set x.used 0 (vcKey up vc) (Store.get x.used 0 (vcKey up vc) + 1 - free) }) (pgBridge b)
           (if up then F.BRIDGE_UP_BYTES else F.BRIDGE_DOWN_BYTES) len)) ∧
     (∀ up vc len ok free, vc < 4 → x.retraining = false → vcFree s.dev b up vc = false →
       Gives (.bridgeFlit t b up ⟨vc, len, free⟩ ok) s
         (setBridge (advance s.dev t) b { x with
           used := Store.set x.used 0 (vcKey up vc) (Store.get x.used 0 (vcKey up vc) - free) })) ∧
     (∀ up vc len free, vc < 4 → x.retraining = false → vcFree s.dev b up vc = true →
       x.failRun < max 1 (getR s.dev (pgBridge b) F.BRIDGE_REPLAY_LIMIT) →
       Gives (.bridgeFlit t b up ⟨vc, len, free⟩ false) s
         (raise (bump (setBridge (advance s.dev t) b { x with failRun := x.failRun + 1 }) (pgBridge b)
           F.BRIDGE_REPLAY_COUNT) (pgBridge b) 8)) ∧
     (∀ up vc len free, vc < 4 → x.retraining = false → vcFree s.dev b up vc = true →
       max 1 (getR s.dev (pgBridge b) F.BRIDGE_REPLAY_LIMIT) ≤ x.failRun →
       Does (.bridgeFlit t b up ⟨vc, len, free⟩ false) s (fun d =>
         (bridge d b).retraining = true ∧ getR d (pgBridge b) F.BRIDGE_LINK_STATE = 1 ∧
         (evtRaw d (pgBridge b)).testBit 9 = true ∧
         getR d (pgBridge b) F.BRIDGE_REPLAY_COUNT = getR s.dev (pgBridge b) F.BRIDGE_REPLAY_COUNT ∧
         d.mem = s.dev.mem)) ∧
     (x.retraining = false →
       Does (.bridgeRetrain t b) s (fun d =>
         (bridge d b).retraining = true ∧ getR d (pgBridge b) F.BRIDGE_LINK_STATE = 1 ∧
         getR d (pgBridge b) F.BRIDGE_RETRAIN_COUNT =
           min (getR s.dev (pgBridge b) F.BRIDGE_RETRAIN_COUNT + 1) (2 ^ 32 - 1) ∧
         (evtRaw d (pgBridge b)).testBit 9 = true ∧ d.mem = s.dev.mem)) ∧
     (x.retraining = true →
       Gives (.bridgeRetrainDone t b) s
         (x.reads.foldl (fun d q => giveBack (localRead d q.addr).2.2 q (localRead d q.addr).1 (localRead d q.addr).2.1)
           (setR (setBridge (advance s.dev t) b { x with retraining := false, reads := [] }) (pgBridge b)
             F.BRIDGE_LINK_STATE 2))) ∧
     (∀ q r, x.reads = q :: r →
       Gives (.bridgeReadTimeout t b) s
         (let d := advance s.dev (max t (q.since + 100 * max 1 (getR s.dev (pgBridge b) F.BRIDGE_READ_TIMEOUT)))
          giveBack (raise (bump (setBridge d b { x with reads := r }) (pgBridge b) F.BRIDGE_READ_TIMEOUTS) (pgBridge b) 11)
            q 0 0xFFFFFFFF)) ∧
     (x.reads = [] → Gives (.bridgeReadTimeout t b) s (advance s.dev t))) ∧
  (∀ (s : State) (t n : Nat), n < 12 → Awake s →
     (∀ f r, (frame s.dev n).out = f :: r → (bridge s.dev (dieOf n)).retraining = false →
       getR s.dev (pgBridge (dieOf n)) F.BRIDGE_LINK_STATE = 2 → vcFree s.dev (dieOf n) true 0 = true →
       isFenced s.dev regMemory = false → (takeShelves (advance s.dev t) 0 (dieOf n - 1) f.shelves).1 = true →
       Gives (.bridgeFrameArrive t n) s
         (let d := (takeShelves (advance s.dev t) 0 (dieOf n - 1) f.shelves).2
          frameAtHub (freeShelf (setFrame d n { frame d n with out := r }) (dieOf n) (frameReq n) f.shelves) n f)) ∧
     (∀ f r, (frame s.dev n).out = f :: r → (bridge s.dev (dieOf n)).retraining = false →
       getR s.dev (pgBridge (dieOf n)) F.BRIDGE_LINK_STATE = 2 → vcFree s.dev (dieOf n) true 0 = true →
       isFenced s.dev regMemory = true →
       Gives (.bridgeFrameArrive t n) s
         (freeShelf (setFrame (advance s.dev t) n { frame s.dev n with out := r }) (dieOf n) (frameReq n) f.shelves)) ∧
     (vcFree s.dev (dieOf n) true 0 = false → Gives (.bridgeFrameArrive t n) s (advance s.dev t)) ∧
     (getR s.dev (pgBridge (dieOf n)) F.BRIDGE_LINK_STATE ≠ 2 → Gives (.bridgeFrameArrive t n) s (advance s.dev t)) ∧
     ((frame s.dev n).out = [] → Gives (.bridgeFrameArrive t n) s (advance s.dev t)))

/-! ## Receiver converters, Starter and slot pipes (R90–R153) -/

/-- R118–R122: a schedule entry in use makes a gain step to its code at its OFFSET after the latest slot-0 launch instant,
not before, once in a shot and counted as a schedule step where it changes the code; an entry not in use, one that has
been applied, and one that lies at the next slot-0 instant or beyond do nothing. At the end of the auto-ranging hold the
depth falls by 1, and the next hold starts; at depth 0 nothing happens. -/
def Obligations.GainStepsComeFromScheduleAndHold : Prop :=
  ∀ (s : State) (t n : Nat), n < 12 → Awake s →
    let x := rx s.dev n
    (∀ k < 16, schedOn s.dev n k = false ∨ k ∈ x.schedDone → Gives (.gainScheduleEntry t n k) s (advance s.dev t)) ∧
    (∀ k < 16, ∀ e,
      let at_ := 5 * (line s.dev n).l0 + getL s.dev (pgRx n) (F.RX_OFFSET k)
      (line s.dev n).next = some e → 5 * e ≤ at_ → Gives (.gainScheduleEntry t n k) s (advance s.dev t)) ∧
    (∀ k < 16, ∀ e, schedOn s.dev n k = true → k ∉ x.schedDone → (line s.dev n).next = some e →
      let c := min 60 (getL s.dev (pgRx n) (F.RX_CODE k))
      let at_ := 5 * (line s.dev n).l0 + getL s.dev (pgRx n) (F.RX_OFFSET k)
      at_ < 5 * e →
      Gives (.gainScheduleEntry t n k) s
        (gainSet (setRx (advance s.dev (max t (at_ / 5))) n { x with schedDone := x.schedDone ++ [k] }) n at_ (some c) 0 [0]) ∧
      (x.steps = [] → gainCode c x.depth ≠ gainCode x.gnom x.depth → Does (.gainScheduleEntry t n k) s (fun d =>
        gainAt (rx d n) at_ = gainCode c x.depth ∧ gainSteps (rx d n) = [at_] ∧ at_ / 5 ≤ d.ticks ∧
        getR d (pgRx n) F.RX_STEPS_SCHED = min (getR s.dev (pgRx n) F.RX_STEPS_SCHED + 1) (2 ^ 32 - 1) ∧
        RegsBut [(pgRx n, F.RX_STEPS_SCHED), (pgRx n, F.RX_AR_DEPTH)] d s.dev ∧
        d.evt = s.dev.evt ∧ d.mem = s.dev.mem))) ∧
    ((gainEnd x).2 = 0 → Gives (.autorangeHoldExpiry t n) s (advance s.dev t)) ∧
    (let at_ := x.holdFrom + 64 * max 1 (getL s.dev (pgRx n) F.RX_AR_HOLD)
     (0 < (gainEnd x).2 → Gives (.autorangeHoldExpiry t n) s
       (let d := gainSet (advance s.dev (max t (at_ / 5))) n at_ none (-1) [2]
        setRx d n { rx d n with holdFrom := at_ })) ∧
     (x.steps = [] → 0 < x.depth → Does (.autorangeHoldExpiry t n) s (fun d =>
       gainEnd (rx d n) = (x.gnom, x.depth - 1) ∧ (rx d n).holdFrom = at_ ∧ at_ / 5 ≤ d.ticks ∧
       d.mem = s.dev.mem ∧ d.epochs = s.dev.epochs)))

/-- R124–R127: FAIL_CORE declares the core that serves the named logical input FAILED, with its event, and does nothing
for any other value; a failed core that no ready core can replace keeps its place; REQUAL with a FAILED core starts
the re-test, without one it does nothing; and the end of the re-test takes every FAILED core that did not pass as
still FAILED, counted in REQUAL_FAIL, and one that passed as a STALE and CAL_STALE spare, with a calibration due.
R125: at a slot-0 instant, when one input alone has failed at least 200 ticks ago, the lowest ready core takes it: it
is current with the region's epoch where the lead of R14 is met, CAL_STALE, and a forced calibration is due;
SUBSTITUTIONS and its event follow. -/
def Obligations.CoresFailReturnAndAreReplaced : Prop :=
  (∀ (s : State) (t n : Nat), n < 12 → Awake s →
     (∀ i, i = 0 ∨ 4 < i → Reach s.dev (pgRx n) → Gives (.failCore t n i) s (advance s.dev t)) ∧
     (∀ i < 4, Reach s.dev (pgRx n) → isFailed s.dev n (coreAt s.dev (pgRx n) i) = false →
       (calSt s.dev n).run ≠ 2 →
       Does (.failCore t n (i + 1)) s (fun d =>
         (coreAt s.dev (pgRx n) i < 5 → isFailed d n (coreAt s.dev (pgRx n) i) = true) ∧
         (∀ c < 5, c ≠ coreAt s.dev (pgRx n) i → isFailed d n c = isFailed s.dev n c) ∧
         (evtRaw d (pgRx n)).testBit 8 = true ∧ d.ledgerOut.length = s.dev.ledgerOut.length + 1 ∧
         d.mem = s.dev.mem)) ∧
     (readyCores s.dev n = [] → Gives (.spareSubstitution t n) s (advance s.dev t)) ∧
     ((∀ i < 4, deadInput s.dev n i = false) → Gives (.spareSubstitution t n) s (advance s.dev t)) ∧
     (atSlot0 (advance s.dev t) (coreOwner s.dev n) = false → Gives (.spareSubstitution t n) s (advance s.dev t)) ∧
     (∀ i < 4, Reach s.dev (pgRx n) → isFailed s.dev n (coreAt s.dev (pgRx n) i) = true →
       Gives (.failCore t n (i + 1)) s (calShow (advance s.dev t) n)) ∧
     (∀ c < 5, isFailed s.dev n c = true → (∀ b < 5, b ≠ c → isFailed s.dev n b = false) → (rx s.dev n).requal = true →
       Does (.requalDone t n [c]) s (fun d =>
         isFailed d n c = false ∧ isStale d (pgRx n) c = true ∧ isCal d (pgRx n) c = true ∧ inputOf d n c = 0 ∧
         4 ∈ Store.get d.calPend [] (coreOwner s.dev n) ∧ (evtRaw d (pgRx n)).testBit 11 = true ∧
         getR d (pgRx n) F.RX_REQUAL_PASS = min (getR s.dev (pgRx n) F.RX_REQUAL_PASS + 1) (2 ^ 32 - 1) ∧
         (rx d n).requal = false ∧ d.ledgerOut.length = s.dev.ledgerOut.length + 1 ∧ d.mem = s.dev.mem)) ∧
     (Reach s.dev (pgRx n) → getR s.dev (pgRx n) F.RX_FAILED = 0 → Gives (.requal t n) s (advance s.dev t)) ∧
     (Reach s.dev (pgRx n) → getR s.dev (pgRx n) F.RX_FAILED ≠ 0 →
       Gives (.requal t n) s (setRx (advance s.dev t) n { rx s.dev n with requal := true })) ∧
     ((rx s.dev n).requal = false → ∀ l, Gives (.requalDone t n l) s (advance s.dev t)) ∧
     ((rx s.dev n).requal = true → getR s.dev (pgRx n) F.RX_REQUAL_FAIL < 2 ^ 32 → Does (.requalDone t n []) s (fun d =>
       (rx d n).requal = false ∧ getR d (pgRx n) F.RX_FAILED = getR s.dev (pgRx n) F.RX_FAILED ∧
       getR d (pgRx n) F.RX_REQUAL_FAIL = min (getR s.dev (pgRx n) F.RX_REQUAL_FAIL +
         ((List.range 5).filter (fun c => isFailed s.dev n c)).length) (2 ^ 32 - 1) ∧
       RegsBut [(pgRx n, F.RX_REQUAL_FAIL)] d s.dev ∧ d.evt = s.dev.evt ∧ d.mem = s.dev.mem))) ∧
  (∀ (s : State) (t n i c : Nat), n < 12 → i < 4 → Awake s →
     let old := coreAt s.dev (pgRx n) i
     isFailed s.dev n old = true → (readyCores s.dev n).head? = some c →
     (∀ j < 4, j ≠ i → deadInput s.dev n j = false) → atSlot0 (advance s.dev t) (coreOwner s.dev n) = true →
     Store.get (rx s.dev n).failAt 0 old + 199 ≤ max s.dev.ticks t →
     Does (.spareSubstitution t n) s (fun d =>
       coreAt d (pgRx n) i = c ∧ (∀ j < 4, j ≠ i → coreAt d (pgRx n) j = coreAt s.dev (pgRx n) j) ∧
       isCal d (pgRx n) c = true ∧
       (let lead := leadMet s.dev n (pgRx n) (max s.dev.ticks t)
        isStale d (pgRx n) c = !lead ∧ (lead = true → unitEpochOf d (pgRx n) c = epoch s.dev n)) ∧
       3 ∈ Store.get d.calPend [] (coreOwner s.dev n) ∧ (evtRaw d (pgRx n)).testBit 9 = true ∧
       getR d (pgRx n) F.RX_SUBSTITUTIONS = min (getR s.dev (pgRx n) F.RX_SUBSTITUTIONS + 1) (2 ^ 32 - 1) ∧
       d.mem = s.dev.mem))

/-- R24, R111, R115, R116, R124, R128, R130, R144: a converter word that finds no credit on a relay channel is discarded
there whole, counted, and leaves the next one to carry GAP; one with a credit enters the channel's FIFO, and the Pipe
cluster that is not halted conditions its eight samples; a line that is OFF or DARK forms none, and the 0° word of fine
mode waits for its 180° word. A statistics window shows its mean, extremes and over-range count and advances its sequence
number, a stuck core's with its event; that of a thermal converter shows what came in it. -/
def Obligations.ConverterWordsAndStatistics : Prop :=
  ∀ (s : State) (t n : Nat), n < 12 → Awake s →
    (∀ num ph halt raw, ph < 3 → halt < 16 → rawFits num raw = true →
      lineState s.dev n = 0 ∨ lineState s.dev n = 6 ∨ clusterUp s.dev n 0 = false →
      Gives (.converterWord t n num ph halt raw) s (clipRun (advance s.dev t) n (max s.dev.ticks t))) ∧
    (∀ num ph halt raw k, ph < 3 → halt < 16 → rawFits num raw = true → lineState s.dev n ≠ 0 → lineState s.dev n ≠ 6 →
      clusterUp s.dev n 0 = true → k < 4 → clusterUsed s.dev n k = true →
      let r := relay s.dev n k
      (ph = 0 → isFenced s.dev n = true ∨ 8 ≤ r.fifo.length → Does (.converterWord t n num ph halt raw) s (fun d =>
        (relay d n k).drops = r.drops + 1 ∧ (relay d n k).gapNext = true ∧ d.mem = s.dev.mem)) ∧
      (ph = 0 → isFenced s.dev n = false → r.fifo.length < 8 → bit halt k = true →
        flagL s.dev (pgRx n) F.RX_AR_EN = false → Does (.converterWord t n num ph halt raw) s (fun d =>
          let w := wordOf32 s.dev n 0 num raw
          (relay d n k).fifo = r.fifo ++ [{ w with side := w.side + b2n (r.gapNext || calGap s.dev n num) * 2 ^ 34 }] ∧
          (relay d n k).gapNext = false ∧ (relay d n k).drops = r.drops ∧ cond d n k = cond s.dev n k)) ∧
      (ph = 0 → isFenced s.dev n = false → r.fifo = [] → bit halt k = false → cond s.dev n k = CondSt.reset →
        (pipe s.dev n (2 * k)).wins = [] → (pipe s.dev n (2 * k + 1)).wins = [] → frameFull s.dev n k = false →
        flagL s.dev (pgRx n) F.RX_AR_EN = false → Does (.converterWord t n num ph halt raw) s (fun d =>
          (relay d n k).fifo = [] ∧ (∀ i < 8, ∃ a ∈ (cond d n k).hist, a.num = 2 * (num + i)) ∧ d.mem = s.dev.mem)) ∧
      (ph = 1 → Gives (.converterWord t n num ph halt raw) s
        (setRx (clipRun (advance s.dev t) n (max s.dev.ticks t)) n { rx s.dev n with half := some (num, raw) })) ∧
      (∀ raw0, ph = 2 → (rx s.dev n).half = some (num, raw0) → clusterUp s.dev (partner n) 0 = true →
        Gives (.converterWord t n num ph halt raw) s
          (let d := setRx (clipRun (advance s.dev t) n (max s.dev.ticks t)) n { rx s.dev n with half := none }
           let d := arWord d n num raw0 (some raw)
           sendWord n halt (sendWord n halt d (wordOf32 d n 1 num raw0)) (wordOf32 d n 2 num raw)))) ∧
    (∀ c < 5, ∀ mean lo hi ovr, statFits mean lo hi = true → ovr < 2 ^ 25 →
      statEligible (advance s.dev t) n c = false ∨ (lo < hi ∧ ovr ≠ statLen s.dev n) →
      Does (.statWindowEnd t n c mean lo hi ovr) s (fun d =>
        getS d (pgRx n) (F.RX_MEAN c) = mean ∧ getS d (pgRx n) (F.RX_MIN c) = lo ∧
        getS d (pgRx n) (F.RX_MAX c) = hi ∧ getR d (pgRx n) (F.RX_OVR c) = ovr ∧
        getR d (pgRx n) (F.RX_WIN_SEQ c) = (getR s.dev (pgRx n) (F.RX_WIN_SEQ c) + 1) % 2 ^ 32 ∧
        RegsBut [(pgRx n, F.RX_MEAN c), (pgRx n, F.RX_MIN c), (pgRx n, F.RX_MAX c), (pgRx n, F.RX_OVR c),
          (pgRx n, F.RX_WIN_SEQ c)] d s.dev ∧ d.evt = s.dev.evt ∧ d.mem = s.dev.mem)) ∧
    (∀ c < 5, ∀ v ovr, statFits (256 * v) v v = true → statEligible (advance s.dev t) n c = true →
      Does (.statWindowEnd t n c (256 * v) v v ovr) s (fun d =>
        (evtRaw d (pgRx n)).testBit 12 = true ∧
        Store.get (rx d n).stuckRun 0 c = Store.get (rx s.dev n).stuckRun 0 c + 1 ∧ d.mem = s.dev.mem)) ∧
    (∀ c < 2, ∀ mean lo hi ovr,
      Gives (.statWindowEnd t n (c + 5) mean lo hi ovr) s (thWindowEnd (advance s.dev t) n c) ∧
      Does (.statWindowEnd t n (c + 5) mean lo hi ovr) s (fun d =>
        let a := Store.get (rx s.dev n).th ThAcc.reset c
        getR d (pgThrx n) (F.THRX_OVR c) = a.ovr % 2 ^ (F.THRX_OVR c).width ∧
        (a.n = 0 → getS d (pgThrx n) (F.THRX_MIN c) = 0 ∧ getS d (pgThrx n) (F.THRX_MAX c) = 0) ∧
        (getR s.dev (pgThrx n) (F.THRX_OVR c) = 0 → 0 < a.ovr → (evtRaw d (pgThrx n)).testBit 8 = true) ∧
        Store.get (rx d n).th ThAcc.reset c = ThAcc.reset ∧ d.mem = s.dev.mem))

/-- R98, R99, R103: a PSENSE window with nothing to judge does nothing; below 64 pulses a pulse only joins the
accumulation, and a low pulse after one that was not low restarts it; the 64th gives the verdict OK or FAIL; with
DIAG_EN at 0 a pulse is not judged; a return power window without a shot does nothing, and else judges the oldest
shot. R103, R106: sixteen dim shots in a row declare PROBE_LOSS, which enters SAFE where LOSS_SAFE is live; eight
break shots in a row enter SAFE. Entering it sets the SAFE condition, lowers LEVEL_OUT to at most SAFE_LEVEL at once
and is counted; S0's listening window gives E, and a close with no window open does nothing. -/
def Obligations.ChargeIsDiagnosedAndLightWatched : Prop :=
  (∀ (s : State) (t n q : Nat), n < 12 → Awake s →
     let x := starter s.dev n
     ((starter s.dev n).windows = [] → Gives (.psenseWindowEnd t n q) s (advance s.dev t)) ∧
     (∀ e r, x.windows = e :: r → flagL s.dev (pgStarter n) F.STARTER_DIAG_EN = true → x.accN < 63 →
       let low := decide (min q 65535 * 256 < e * sv s.dev n F.STARTER_OPEN_FRAC)
       (low && x.accHigh) = false →
       Gives (.psenseWindowEnd t n q) s (setStarter (advance s.dev t) n { x with
         windows := r, accN := x.accN + 1, accQ := x.accQ + min q 65535, accE := x.accE + e,
         accHigh := x.accHigh || !low, accSmall := x.accSmall || decide (e < 200) })) ∧
     (∀ e r, x.windows = e :: r → flagL s.dev (pgStarter n) F.STARTER_DIAG_EN = true → x.accHigh = true →
       min q 65535 * 256 < e * sv s.dev n F.STARTER_OPEN_FRAC →
       Does (.psenseWindowEnd t n q) s (fun d =>
         (starter d n).accN = 1 ∧ (starter d n).accQ = min q 65535 ∧ (starter d n).accE = e ∧
         getR d (pgStarter n) F.STARTER_DIAG_RESTARTS =
           min (getR s.dev (pgStarter n) F.STARTER_DIAG_RESTARTS + 1) (2 ^ 32 - 1) ∧
         RegsBut [(pgStarter n, F.STARTER_DIAG_RESTARTS)] d s.dev ∧ d.evt = s.dev.evt ∧ d.mem = s.dev.mem)) ∧
     (∀ e r, x.windows = e :: r → flagL s.dev (pgStarter n) F.STARTER_DIAG_EN = false →
       Gives (.psenseWindowEnd t n q) s (setStarter (advance s.dev t) n { x with windows := r })) ∧
     (∀ e r, x.windows = e :: r → flagL s.dev (pgStarter n) F.STARTER_DIAG_EN = true → x.accN = 63 →
       x.accSmall = false → 200 ≤ e →
       let low := decide (min q 65535 * 256 < e * sv s.dev n F.STARTER_OPEN_FRAC)
       (low && x.accHigh) = false →
       let ok := (x.accE + e) * sv s.dev n F.STARTER_OPEN_FRAC ≤ (x.accQ + min q 65535) * 256
       Does (.psenseWindowEnd t n q) s (fun d =>
         (starter d n).accN = 0 ∧ (starter d n).windows = r ∧ d.mem = s.dev.mem ∧
         (ok → getR d (pgStarter n) F.STARTER_LAST_VERDICT = 1 ∧ getR d (pgStarter n) F.STARTER_FAIL_RUN = 0 ∧
           getR d (pgStarter n) F.STARTER_PROBE_OPEN = 0 ∧ getR d (pgStarter n) F.STARTER_VERDICTS_OK =
             min (getR s.dev (pgStarter n) F.STARTER_VERDICTS_OK + 1) (2 ^ 32 - 1)) ∧
         (¬ok → getR d (pgStarter n) F.STARTER_LAST_VERDICT = 2 ∧ getR d (pgStarter n) F.STARTER_VERDICTS_FAIL =
             min (getR s.dev (pgStarter n) F.STARTER_VERDICTS_FAIL + 1) (2 ^ 32 - 1)))) ∧
     ((∀ r ∈ x.shots, r.dim ≠ none) → Gives (.returnPowerWindow t n) s (advance s.dev t)) ∧
     (∀ r, x.shots.find? (fun r => r.dim.isNone) = some r →
       let c := dbCode r.pSum (r.pN * 1073741824)
       let dim := decide (sv s.dev n F.STARTER_LOSS_FLOOR < c)
       Gives (.returnPowerWindow t n) s
         (judgeHead n (dimRun (setStarter (setR (advance s.dev t) (pgStarter n) F.STARTER_RETURN_P (min 255 c)) n { x with
           shots := firstShot (fun r => r.dim.isNone) (fun r => { r with dim := some dim }) x.shots }) n dim)))) ∧
  (∀ (s : State) (t n : Nat), n < 12 → Awake s → safeCond s.dev n = false →
     let p := pgStarter n
     let safe (d : Dev) : Prop := safeCond d n = true ∧
       getR d p F.STARTER_LEVEL_OUT ≤ sv s.dev n F.STARTER_SAFE_LEVEL ∧
       getR d p F.STARTER_SAFE_ENTRIES = min (getR s.dev p F.STARTER_SAFE_ENTRIES + 1) (2 ^ 32 - 1) ∧
       (evtRaw d p).testBit 12 = true ∧ d.mem = s.dev.mem
     (∀ r, (starter s.dev n).shots = [r] → r.dim = none → r.e = none → r.pSum = 0 →
       sv s.dev n F.STARTER_LOSS_FLOOR < 256 → getR s.dev p F.STARTER_PROBE_LOSS = 0 →
       getR s.dev p F.STARTER_DIM_RUN = 15 → flagL s.dev p F.STARTER_LOSS_SAFE = true →
       Does (.returnPowerWindow t n) s (fun d => safe d ∧ getR d p F.STARTER_PROBE_LOSS = 1 ∧
         (evtRaw d p).testBit 10 = true ∧ getR d p F.STARTER_RETURN_P = 255)) ∧
     (∀ r w, (starter s.dev n).shots = [r] → r.dim = some false → r.e = none → (pipe s.dev n 0).listen = [w] →
       isBreak s.dev n (binsToM (lv s.dev n F.LINE_GROUP_INDEX) (rateCode s.dev n) w.edge) = true →
       (starter s.dev n).breakRun = 7 →
       Does (.listenWindowClose t n 0) s (fun d => safe d ∧ (starter d n).breakRun = 8 ∧
         getR d p F.STARTER_BREAK_RUN = 1)) ∧
     (∀ k < 8, (pipe s.dev n k).listen = [] → Gives (.listenWindowClose t n k) s (advance s.dev t)) ∧
     (∀ k w r, k < 8 → (pipe s.dev n k).listen = w :: r →
       let d0 := advance s.dev (max t w.closeAt)
       let d := clipRun (bankShow (setPipe d0 n k { pipe s.dev n k with listen := r }) n k) n d0.ticks
       (0 < k → Gives (.listenWindowClose t n k) s d) ∧
       (k = 0 → Gives (.listenWindowClose t n k) s (judgeHead n (setStarter d n { starter d n with
         shots := firstShot (fun r => r.e.isNone)
           (fun r => { r with e := some (binsToM (lv s.dev n F.LINE_GROUP_INDEX) (rateCode s.dev n) w.edge) })
           (starter d n).shots })))))

/-- R139–R141: a write to a stopped bank stores its 18 bits in the bank that WBANK shows and clears its seal; a write to
a running bank stores nothing, keeps the seal, and is counted in COEF_REFUSED with COEF_BUSY; a write in the tick of a
capture instant, or later, meets the bank as running if that capture made it running; SEAL seals a stopped bank and has
no effect on a running one, and a word without it selects the bank. -/
def Obligations.CoefficientBanksLockWhileRunning : Prop :=
  ∀ (s : State) (t n k w v : Nat), n < 12 → k < 8 → w < 2048 → Awake s →
    let p := pgSlot n k
    let b := getR s.dev p F.SLOT_WBANK
    let before := ∀ e, (line s.dev n).next = some e → (line s.dev n).capFor = some e ∨ max s.dev.ticks t + 200 < e
    (Visible s.dev (pgCoef n k) → before → bankRuns s.dev n k b = false →
      Does (.coefWrite t n k w v) s (fun d =>
        coefRaw d n k b w = v % 2 ^ 18 ∧ (∀ c u, c < 2 → u < 2048 → b < 2 → (c ≠ b ∨ u ≠ w) →
          coefRaw d n k c u = coefRaw s.dev n k c u) ∧
        isSealed d n k b = false ∧ RegsBut [(p, sealFld b)] d s.dev ∧ d.evt = s.dev.evt ∧ d.mem = s.dev.mem)) ∧
    (Visible s.dev (pgCoef n k) → before → bankRuns s.dev n k b = true →
      Gives (.coefWrite t n k w v) s (raise (bump (advance s.dev t) p F.SLOT_COEF_REFUSED) p 8)) ∧
    (∀ e, (line s.dev n).next = some e → e ≤ max s.dev.ticks t + 200 → Visible s.dev (pgCoef n k) →
      let d1 := capture (advance s.dev t) n e
      bankRuns d1 n k (getR d1 p F.SLOT_WBANK) = true →
      Gives (.coefWrite t n k w v) s (raise (bump d1 p F.SLOT_COEF_REFUSED) p 8)) ∧
    (Reach s.dev p → bankRuns s.dev n k (v % 2) = false → v.testBit 8 = true →
      Does (.coefSeal t n k v) s (fun d => isSealed d n k (v % 2) = true ∧ getR d p F.SLOT_WBANK = v % 2 ∧
        RegsBut [(p, F.SLOT_WBANK), (p, sealFld (v % 2))] d s.dev ∧ d.evt = s.dev.evt ∧ d.coef = s.dev.coef)) ∧
    (Reach s.dev p → bankRuns s.dev n k (v % 2) = true ∨ v.testBit 8 = false →
      Gives (.coefSeal t n k v) s (setR (advance s.dev t) p F.SLOT_WBANK v))

/-! ## Gauge and frames (R154–R182) -/

/-- R19, R24, R134, R146, R150, R161: a word of a Pipe cluster's channel reaches the Frame cluster in order, a skipped
launch being complete with its launch word and any other with its last bin, and gives the cluster a credit back; a
pipe and the gauge stage leave SETTLING with their event once the launches of their settling period are through, and
not before. R156, R159: in RATE mode a launch instant that was skipped still makes its merged sample: Φ keeps its
value, every rate is 0 and carries GAP, and it is counted in MERGED and SKIPPED_SAMPLES; without a complete launch, or
with an earlier one still on its way, nothing happens. R157, R158: any other complete launch, in DIVERSITY mode those
of one instant, makes the merged sample of its plan. -/
def Obligations.PipesSettleAndSkipLaunches : Prop :=
  (∀ (s : State) (t n : Nat), n < 12 → Awake s →
     (∀ k < 4, toFrame s.dev n k = [] → Gives (.pipeWord t ⟨n, k⟩) s (advance s.dev t)) ∧
     (∀ k < 4, ∀ m r, toFrame s.dev n k = m :: r →
       Gives (.pipeWord t ⟨n, k⟩) s (pumpPipes n k 10 (pipeWord (setToFrame (advance s.dev t) n k r) n k m)) ∧
       (let x := gauge s.dev n
        (pipe s.dev n (2 * k)).wins = [] → (pipe s.dev n (2 * k + 1)).wins = [] → (relay s.dev n k).fifo = [] →
        (bit m 47 = true → bit m 45 = true → Does (.pipeWord t ⟨n, k⟩) s (fun d => toFrame d n k = r ∧
          (gauge d n).ready = x.ready ++ [⟨wordLaunch m, []⟩] ∧ d.regs = s.dev.regs ∧ d.evt = s.dev.evt ∧
          d.mem = s.dev.mem)) ∧
        (∀ a, bit m 47 = false → Store.find x.arriving (2 * k + bits m 46 1) = some a → a.launch.skipped = false →
          let b := takeBins a ((List.range 4).map (fun q => wordBin (bits m (64 * q) 64)))
          (a.launch.bins ≤ a.bins.length + 4 → Does (.pipeWord t ⟨n, k⟩) s (fun d => toFrame d n k = r ∧
            (gauge d n).ready = x.ready ++ [b] ∧ d.regs = s.dev.regs ∧ d.evt = s.dev.evt)) ∧
          (a.bins.length + 4 < a.launch.bins → Does (.pipeWord t ⟨n, k⟩) s (fun d => toFrame d n k = r ∧
            (gauge d n).ready = x.ready ∧ Store.find (gauge d n).arriving (2 * k + bits m 46 1) = some b ∧
            d.regs = s.dev.regs ∧ d.evt = s.dev.evt))))) ∧
     (∀ k < 8, getR s.dev (pgSlot n k) cSTATE = 2 → (pipe s.dev n k).settle = 0 → (pipe s.dev n k).wins = [] →
       Gives (.pipeSettled t n k) s (raise (setR (advance s.dev t) (pgSlot n k) cSTATE 1) (pgSlot n k) 10)) ∧
     (∀ k < 8, getR s.dev (pgSlot n k) cSTATE ≠ 2 ∨ (pipe s.dev n k).settle ≠ 0 →
       Gives (.pipeSettled t n k) s (advance s.dev t)) ∧
     (getR s.dev (pgGauge n) cSTATE = 2 → (gauge s.dev n).settle = 0 → (gauge s.dev n).clears = [] →
       Gives (.gaugeSettled t n) s (raise (setR (advance s.dev t) (pgGauge n) cSTATE 1) (pgGauge n) 8)) ∧
     (getR s.dev (pgGauge n) cSTATE ≠ 2 ∨ (gauge s.dev n).settle ≠ 0 →
       Gives (.gaugeSettled t n) s (advance s.dev t))) ∧
  (∀ (s : State) (t n : Nat), n < 12 → Awake s →
     ((gauge s.dev n).ready = [] → Gives (.mergedSample t n) s (advance s.dev t)) ∧
     (∀ a, (gauge s.dev n).ready = [a] → earlierDue s.dev n a.launch.at_ = true →
       Gives (.mergedSample t n) s (advance s.dev t)) ∧
     (∀ a l, (gauge s.dev n).ready = a :: l → (∀ b ∈ l, b.launch.at_ = a.launch.at_) →
       earlierDue s.dev n a.launch.at_ = false →
       let e := a.launch.at_
       let clear := (gauge s.dev n).clears.any (fun c => decide (c ≤ e))
       let p := planOf (advance s.dev t) n a.launch.plan
       let x := reachClears p { gauge s.dev n with ready := [] } e
       let own := 8 * b2n (isStale s.dev (pgGauge n) 0)
       (l = [] → p.div = false → Gives (.mergedSample t n) s
         (let v := mergeRate p x own a
          putMerged (keepAmps (advance s.dev t) n a) n p v.1 e clear a.launch.skipped v.2.1 v.2.2.1 v.2.2.2.1 v.2.2.2.2 0)) ∧
       (p.div = true → p.slots ≤ l.length + 1 → Gives (.mergedSample t n) s
         (let v := mergeDiv p x own (a :: l)
          putMerged ((a :: l).foldl (fun d b => keepAmps d n b) (advance s.dev t)) n p { v.1 with phi := x.phi } e clear
            ((a :: l).all (fun b => b.launch.skipped)) v.2.1 v.2.2.1 [] v.2.2.2.1 v.2.2.2.2))) ∧
     (∀ a, (gauge s.dev n).ready = [a] → a.launch.skipped = true → (planOf s.dev n a.launch.plan).div = false →
       (gauge s.dev n).plans.any (fun p => p.id == a.launch.plan) = true → (gauge s.dev n).clears = [] →
       earlierDue s.dev n a.launch.at_ = false →
       let p := planOf s.dev n a.launch.plan
       Does (.mergedSample t n) s (fun d =>
         (gauge d n).ready = [] ∧ (gauge d n).phi = padI (positionsOf p) (gauge s.dev n).phi ∧
         (∃ m, (frame d n).merged.getLast? = some m ∧ m.at_ = a.launch.at_ ∧ m.plan = p.id ∧
           m.chans.length = p.channels ∧
           ∀ c ∈ m.chans, c.v = 0) ∧
         getR d (pgGauge n) F.GAUGE_SKIPPED_SAMPLES =
           min (getR s.dev (pgGauge n) F.GAUGE_SKIPPED_SAMPLES + 1) (2 ^ 32 - 1) ∧
         getR d (pgGauge n) F.GAUGE_MERGED = (getR s.dev (pgGauge n) F.GAUGE_MERGED + 1) % 2 ^ 64 ∧
         getR d (pgGauge n) F.GAUGE_RESYNCS = min (getR s.dev (pgGauge n) F.GAUGE_RESYNCS) (2 ^ 32 - 1) ∧
         d.evt = s.dev.evt ∧ d.mem = s.dev.mem)))

/-- R165, R167, R169: at a frame instant the frame takes the next number and the following instant is I_out later; in
PAUSED no frame is due, and without an instant nothing happens. A due frame is built from its plan's merged samples
once all of its support exists; until then it waits, but for samples that its ended plan will not have. -/
def Obligations.FrameInstantsNumberFrames : Prop :=
  ∀ (s : State) (t n : Nat), n < 12 → Awake s →
    ((frame s.dev n).nextInst = none → Gives (.frameInstant t n) s (advance s.dev t)) ∧
    (∀ i p r, (frame s.dev n).nextInst = some i → (gauge s.dev n).plans = p :: r →
      lineState s.dev n = 1 ∨ lineState s.dev n = 2 ∨ lineState s.dev n = 3 ∨ lineState s.dev n = 4 →
      (frame s.dev n).nextNo < 2 ^ 64 →
      Does (.frameInstant t n) s (fun d =>
        (frame d n).nextInst = some (i + p.step * imOf p) ∧ (frame d n).nextNo = ((frame s.dev n).nextNo + 1) % 2 ^ 64 ∧
        (frame d n).due = (frame s.dev n).due ++
          [⟨(frame s.dev n).nextNo, p.id, i, unqualNow s.dev, s.dev.time.base + 10 * i⟩] ∧
        i ≤ 65536 * (d.ticks : Int) ∧ getR d (pgFrame n) F.FRAME_FRAME_NO = (frame s.dev n).nextNo ∧
        RegsBut [(pgFrame n, F.FRAME_FRAME_NO)] d s.dev ∧ d.evt = s.dev.evt ∧ d.mem = s.dev.mem)) ∧
    (∀ i p r, (frame s.dev n).nextInst = some i → (gauge s.dev n).plans = p :: r → lineState s.dev n = 5 →
      Does (.frameInstant t n) s (fun d =>
        (frame d n).nextNo = ((frame s.dev n).nextNo + 1) % 2 ^ 64 ∧ (frame d n).due = (frame s.dev n).due)) ∧
    ((frame s.dev n).due = [] → Gives (.frameBuilt t n) s (advance s.dev t)) ∧
    (∀ f r, (frame s.dev n).due = f :: r →
      let p := planOf (advance s.dev t) n f.plan
      let ms := (frame s.dev n).merged.filter (fun m => m.plan == p.id)
      let late := decide ((ms.length : Int) ≤ (frameSpan p ms f.inst).2)
      (late = true → p.ended = none ∨ planFlowing s.dev n p.id = true → Gives (.frameBuilt t n) s (advance s.dev t)) ∧
      (late = true → p.ended ≠ none → planFlowing s.dev n p.id = false → Gives (.frameBuilt t n) s
        (buildFrame (advance s.dev t) n f p ms true)) ∧
      (late = false → Gives (.frameBuilt t n) s
        (buildFrame (advance s.dev t) n f p ms (decide ((frameSpan p ms f.inst).1 < 0)))))

/-! ## Raman channels (R183–R206) -/

/-- R183–R186: the samples of a Raman shot enter both converters' banks, bin by bin, as the pre-averaged values of R184,
and the shot is counted; a shot with a STALE converter or Starter is not accumulated and counts in STALE_SHOTS;
without an open interval or a shot that awaits its samples nothing happens. R186, R195, R197: at a flip the oldest
closed stack becomes the resting stack under the next stack number, with FLIP; without one nothing happens. Its
thermal frame is built once, and its temperatures are kept for the drift filter; at a flip in PAUSED none is placed.
SEED marks the seeds for the next flip. -/
def Obligations.RamanShotsAndStacksAccumulate : Prop :=
  (∀ (s : State) (t n : Nat) (st an : List Int), n < 12 → Awake s →
     ((stack s.dev n).cur = none → Gives (.ramanShotAccumulate t n st an) s (advance s.dev t)) ∧
     (∀ v, (stack s.dev n).cur = some v → v.shots = [] → Gives (.ramanShotAccumulate t n st an) s (advance s.dev t)) ∧
     (∀ v a r, (stack s.dev n).cur = some v → v.shots = (a, false) :: r →
       isStale s.dev (pgThrx n) 0 = false → isStale s.dev (pgThrx n) 1 = false →
       st.length = 2 ^ v.p.j * v.p.bins → an.length = 2 ^ v.p.j * v.p.bins →
       Does (.ramanShotAccumulate t n st an) s (fun d => ∃ w, (stack d n).cur = some w ∧ w.shots = r ∧
         w.counted = v.counted + 1 ∧ w.p = v.p ∧ w.instants = v.instants ∧
         (∀ q < v.p.bins,
           (w.bank0.getD q BinAcc.zero).acc = (v.bank0.getD q BinAcc.zero).acc +
             sat16 (fdiv (sumI ((st.drop (q * 2 ^ v.p.j)).take (2 ^ v.p.j))) (2 ^ v.p.shift)) ∧
           (w.bank1.getD q BinAcc.zero).acc = (v.bank1.getD q BinAcc.zero).acc +
             sat16 (fdiv (sumI ((an.drop (q * 2 ^ v.p.j)).take (2 ^ v.p.j))) (2 ^ v.p.shift))) ∧
         RegsBut [(pgStack n, F.STACK_VSATS)] d s.dev ∧ d.evt = s.dev.evt ∧ d.mem = s.dev.mem)) ∧
     (∀ v a b r, (stack s.dev n).cur = some v → v.shots = (a, b) :: r →
       b = true ∨ isStale s.dev (pgThrx n) 0 = true ∨ isStale s.dev (pgThrx n) 1 = true →
       Does (.ramanShotAccumulate t n st an) s (fun d =>
         (stack d n).cur = some { v with shots := r, staleN := v.staleN + 1, missed := true } ∧
         getR d (pgStack n) F.STACK_STALE_SHOTS = min (getR s.dev (pgStack n) F.STACK_STALE_SHOTS + 1) (2 ^ 32 - 1) ∧
         RegsBut [(pgStack n, F.STACK_STALE_SHOTS)] d s.dev ∧ d.evt = s.dev.evt ∧ d.mem = s.dev.mem))) ∧
  (∀ (s : State) (t n : Nat), n < 12 → Awake s →
     ((stack s.dev n).closed = [] → Gives (.stackFlip t n) s (advance s.dev t)) ∧
     (∀ v r, (stack s.dev n).closed = v :: r → Does (.stackFlip t n) s (fun d =>
       (stack d n).closed = r ∧ (stack d n).nextNo = (stack s.dev n).nextNo + 1 ∧
       (∃ q, (stack d n).rest = some q ∧ q.iv = v ∧ q.no = (stack s.dev n).nextNo ∧ q.todo = true) ∧
       getR d (pgStack n) F.STACK_STACK_NO = (stack s.dev n).nextNo % 2 ^ 64 ∧
       getR d (pgStack n) F.STACK_COUNTED = v.counted % 2 ^ 32 ∧ v.flipAt ≤ d.ticks ∧
       (evtRaw d (pgStack n)).testBit 8 = true ∧ d.mem = s.dev.mem)) ∧
     ((stack s.dev n).rest = none → Gives (.thermalFrameBuilt t n) s (advance s.dev t)) ∧
     (∀ q, (stack s.dev n).rest = some q → q.todo = false → Gives (.thermalFrameBuilt t n) s (advance s.dev t)) ∧
     (∀ q, (stack s.dev n).rest = some q → q.todo = true → q.iv.flipSt = 5 →
       Does (.thermalFrameBuilt t n) s (fun d => (∃ r, (stack d n).rest = some r ∧ r.todo = false ∧ r.no = q.no ∧ r.iv = q.iv) ∧
         (frame d n).out = (frame s.dev n).out ∧ d.pools = s.dev.pools)) ∧
     (∀ q, (stack s.dev n).rest = some q → q.todo = true → q.iv.flipSt = 1 ∨ q.iv.flipSt = 2 ∨ q.iv.flipSt = 3 ∨ q.iv.flipSt = 4 →
       Does (.thermalFrameBuilt t n) s (fun d => (∃ r, (stack d n).rest = some r ∧ r.todo = false ∧ r.no = q.no ∧ r.iv = q.iv) ∧
         (∃ r l, (stack d n).thermal = r :: l ∧ r.flipAt = q.iv.flipAt ∧ r.p = q.iv.p) ∧ d.mem = s.dev.mem)) ∧
     (Reach s.dev (pgStack n) → ∀ v, v % 2 = 1 → Does (.stackSeed t n v) s (fun d =>
       (stack d n).seedWait = true ∧ getR d (pgStack n) F.STACK_ALM_RESTORE = v / 2 % 2 ∧
       RegsBut [(pgStack n, F.STACK_ALM_RESTORE)] d s.dev ∧ d.evt = s.dev.evt)) ∧
     (Reach s.dev (pgStack n) → ∀ v, v % 2 = 0 → Gives (.stackSeed t n v) s
       (setR (advance s.dev t) (pgStack n) F.STACK_ALM_RESTORE (v / 2 % 2))))

/-! ## Stride cores (R207–R236) -/

/-- R214, R215: the ALU instructions of the R, I and K formats, each from its encoding: the result, modulo 2^32, is in d
for the next instruction, no other register changes, and the program counter is the next address. R207, R214: ADD and
SUB that overflow set OV, and saturate with S = 1 and wrap with S = 0; with H = 1 they add each 16-bit half on its
own; ABS of the most negative value wraps and sets OV without S. -/
def Obligations.StrideAluResultsAndOverflow : Prop :=
  (∀ (s : State) (t n k w i j m : Nat), n < 12 → k < 16 → i < 16 → j < 16 → m < 16 → Awake s → Issues s.dev n k w →
     let x := Machine.core s.dev n k
     let a := rdD x j
     let b := rdD x m
     let r (op : Nat) : Prop := w = op * 2 ^ 26 + i * 2 ^ 22 + j * 2 ^ 18 + m * 2 ^ 14
     let im (op imm : Nat) : Prop := imm < 65536 ∧ w = op * 2 ^ 26 + i * 2 ^ 22 + j * 2 ^ 18 + imm
     let gets (c : Instr) (v : Nat) : Prop := Retires c s n k (stepped x [(kD (bank x) i, v)] [])
     (w = 0 → Retires (.strideNop t n k) s n k (stepped x [] [])) ∧
     (r 0x01 → -(2 ^ 31) ≤ sx 32 a + sx 32 b → sx 32 a + sx 32 b < 2 ^ 31 → gets (.strideAdd t n k) ((a + b) % 2 ^ 32)) ∧
     (r 0x02 → -(2 ^ 31) ≤ sx 32 a - sx 32 b → sx 32 a - sx 32 b < 2 ^ 31 →
       gets (.strideSub t n k) (ux 32 (sx 32 a - sx 32 b))) ∧
     (r 0x03 → gets (.strideAnd t n k) ((a &&& b) % 2 ^ 32)) ∧
     (r 0x04 → gets (.strideOr t n k) ((a ||| b) % 2 ^ 32)) ∧
     (r 0x05 → gets (.strideXor t n k) ((a ^^^ b) % 2 ^ 32)) ∧
     (r 0x06 → gets (.strideMin t n k) (ux 32 (min (sx 32 a) (sx 32 b)))) ∧
     (r 0x07 → gets (.strideMax t n k) (ux 32 (max (sx 32 a) (sx 32 b)))) ∧
     (r 0x08 → m = 0 → sx 32 a ≠ -(2 ^ 31) → gets (.strideAbs t n k) (sx 32 a).natAbs) ∧
     (r 0x09 → gets (.strideSlt t n k) (if sx 32 a < sx 32 b then 1 else 0)) ∧
     (r 0x0A → gets (.strideShl t n k) (if b % 64 < 32 then a * 2 ^ (b % 64) % 2 ^ 32 else 0)) ∧
     (r 0x0B → a < 2 ^ 32 → gets (.strideShr t n k) (if b % 64 < 32 then a / 2 ^ (b % 64) else 0)) ∧
     (r 0x0C → gets (.strideSra t n k) (ux 32 (sx 32 a / ((2 ^ min (b % 64) 31 : Nat) : Int)))) ∧
     (r 0x0D → m = 0 → gets (.strideNorm t n k) (signRun 31 a)) ∧
     (∀ imm, im 0x10 imm → -(2 ^ 31) ≤ sx 32 a + sx 16 imm → sx 32 a + sx 16 imm < 2 ^ 31 →
       gets (.strideAddi t n k) (ux 32 (sx 32 a + sx 16 imm))) ∧
     (∀ imm, im 0x11 imm → imm < 32 → gets (.strideShli t n k) (a * 2 ^ imm % 2 ^ 32)) ∧
     (∀ imm, im 0x12 imm → imm < 32 → a < 2 ^ 32 → gets (.strideShri t n k) (a / 2 ^ imm)) ∧
     (∀ imm, im 0x13 imm → imm < 32 → gets (.strideSrai t n k) (ux 32 (sx 32 a / ((2 ^ imm : Nat) : Int)))) ∧
     (∀ imm, im 0x14 imm → j = 0 → gets (.strideMovi t n k) (ux 32 (sx 16 imm))) ∧
     (∀ imm, im 0x15 imm → j = 0 → gets (.strideMovih t n k) (rdD x i % 65536 + imm * 65536))) ∧
  (∀ (s : State) (t n k w i j m : Nat), n < 12 → k < 16 → i < 16 → j < 16 → m < 16 → Awake s → Issues s.dev n k w →
     let x := Machine.core s.dev n k
     let a := sx 32 (rdD x j)
     let b := sx 32 (rdD x m)
     let r (op low : Nat) : Prop := w = op * 2 ^ 26 + i * 2 ^ 22 + j * 2 ^ 18 + m * 2 ^ 14 + low
     let ov (c : Instr) (v : Int) : Prop :=
       Retires c s n k (stepped x [(kD (bank x) i, ux 32 v), (kStat (bank x), rdStat x ||| 32)] [])
     (r 0x01 0 → a + b < -(2 ^ 31) ∨ 2 ^ 31 ≤ a + b → ov (.strideAdd t n k) (a + b)) ∧
     (r 0x01 4096 → 2 ^ 31 ≤ a + b → ov (.strideAdd t n k) (2 ^ 31 - 1)) ∧
     (r 0x01 4096 → a + b < -(2 ^ 31) → ov (.strideAdd t n k) (-(2 ^ 31))) ∧
     (r 0x02 4096 → 2 ^ 31 ≤ a - b → ov (.strideSub t n k) (2 ^ 31 - 1)) ∧
     (r 0x02 4096 → a - b < -(2 ^ 31) → ov (.strideSub t n k) (-(2 ^ 31))) ∧
     (r 0x08 0 → m = 0 → a = -(2 ^ 31) → ov (.strideAbs t n k) (-(2 ^ 31))) ∧
     (r 0x08 4096 → m = 0 → a = -(2 ^ 31) → ov (.strideAbs t n k) (2 ^ 31 - 1)) ∧
     (∀ l h : Int, r 0x01 8192 → l = sx 16 (rdD x j) + sx 16 (rdD x m) →
       h = sx 16 (rdD x j / 65536) + sx 16 (rdD x m / 65536) →
       -(2 ^ 15) ≤ l → l < 2 ^ 15 → -(2 ^ 15) ≤ h → h < 2 ^ 15 →
       Retires (.strideAdd t n k) s n k (stepped x [(kD (bank x) i, ux 16 h * 65536 + ux 16 l)] [])))

/-- R208–R210, R215, R218: loads read the aligned word or half at the address of their mode, usable after the next
instruction; stores write it; pointers move by mode 2 and 3 with the one correction of R209; MOVTX to a pointer is
usable after the next instruction, to STAT at once without MK and ISR; MOVFX reads MAILBOX and clears mailbox-full, and every other
extended register as it stands. -/
def Obligations.StrideLoadsStoresAndMoves : Prop :=
  ∀ (s : State) (t n k w i p m imm : Nat), n < 12 → k < 16 → i < 16 → p < 8 → m < 4 → imm < 2 ^ 14 →
    Awake s → Issues s.dev n k w →
    let x := Machine.core s.dev n k
    let a := rdP x p
    let enc (op mode : Nat) : Prop := w = op * 2 ^ 26 + i * 2 ^ 22 + p * 2 ^ 19 + mode * 2 ^ 17 + m * 2 ^ 15 + imm
    let post := (kP (bank x) p, circ x p ((a : Int) + sx 14 imm))
    let postM := (kP (bank x) p, circ x p ((a : Int) + rdM x m))
    (enc 0x18 0 → a % 4 = 0 → Retires (.strideLd t n k) s n k (stepped x [] [(kD (bank x) i, memW x a % 2 ^ 32)])) ∧
    (enc 0x18 1 → circ x p ((a : Int) + sx 14 imm) % 4 = 0 → Retires (.strideLd t n k) s n k
      (stepped x [] [(kD (bank x) i, memW x (circ x p ((a : Int) + sx 14 imm)) % 2 ^ 32)])) ∧
    (enc 0x18 2 → a % 4 = 0 → Retires (.strideLd t n k) s n k (stepped x [post] [(kD (bank x) i, memW x a % 2 ^ 32)])) ∧
    (enc 0x18 3 → a % 4 = 0 → Retires (.strideLd t n k) s n k (stepped x [postM] [(kD (bank x) i, memW x a % 2 ^ 32)])) ∧
    (enc 0x19 0 → a % 2 = 0 → Retires (.strideLdh t n k) s n k
      (stepped x [] [(kD (bank x) i, ux 32 (sx 16 (memW x a / 2 ^ (16 * (a / 2 % 2)))))])) ∧
    (enc 0x1A 2 → a % 4 = 0 → Retires (.strideSt t n k) s n k (stepped (putW x a (rdD x i)) [post] [])) ∧
    (enc 0x1B 0 → a % 2 = 0 → Retires (.strideSth t n k) s n k (stepped (putH x a (rdD x i)) [] [])) ∧
    (∀ mode < 4, let ea := (address x w).1
      let wr := if mode < 2 then [] else [(kP (bank x) p, (address x w).2 % 65536)]
      (enc 0x18 mode → ea % 4 = 0 → Retires (.strideLd t n k) s n k (stepped x wr [(kD (bank x) i, memW x ea % 2 ^ 32)])) ∧
      (enc 0x19 mode → ea % 2 = 0 → Retires (.strideLdh t n k) s n k
        (stepped x wr [(kD (bank x) i, ux 32 (sx 16 (memH x ea)))])) ∧
      (enc 0x1A mode → ea % 4 = 0 → Retires (.strideSt t n k) s n k (stepped (putW x ea (rdD x i)) wr [])) ∧
      (enc 0x1B mode → ea % 2 = 0 → Retires (.strideSth t n k) s n k (stepped (putH x ea (rdD x i)) wr []))) ∧
    (∀ e < 64, ∀ y l late, w = 0x16 * 2 ^ 26 + i * 2 ^ 22 + e * 2 ^ 16 →
      extWrite (advance s.dev t) x e (rdD x i) = some (y, l, late) →
      Retires (.strideMovtx t n k) s n k (if late then stepped y [] l else stepped y l [])) ∧
    (∀ e < 64, ∀ v, e ≠ 45 → w = 0x17 * 2 ^ 26 + i * 2 ^ 22 + e * 2 ^ 16 → extRead (advance s.dev t) n k x e = some v →
      Retires (.strideMovfx t n k) s n k (stepped x [(kD (bank x) i, ux 32 v)] [])) ∧
    (w = 0x16 * 2 ^ 26 + i * 2 ^ 22 + p * 2 ^ 16 →
      Retires (.strideMovtx t n k) s n k (stepped x [] [(kP (bank x) p, rdD x i % 65536)])) ∧
    (w = 0x16 * 2 ^ 26 + i * 2 ^ 22 + 28 * 2 ^ 16 →
      Retires (.strideMovtx t n k) s n k (stepped x
        [(kStat (bank x), andNot (rdStat x) 0x1003F ||| (rdD x i &&& 0x1003F))] [])) ∧
    (w = 0x17 * 2 ^ 26 + i * 2 ^ 22 + 45 * 2 ^ 16 →
      Retires (.strideMovfx t n k) s n k (stepped { x with mailFull := false } [(kD (bank x) i, x.mailbox % 2 ^ 32)] [])) ∧
    (w = 0x17 * 2 ^ 26 + i * 2 ^ 22 + 46 * 2 ^ 16 →
      Retires (.strideMovfx t n k) s n k (stepped x [(kD (bank x) i, k + 16 * n + 256 * (pkgIndex s.dev % 8))] []))

/-- R209: the effective address of mode 1 and the new pointer of modes 2 and 3 are the raw sum with the one correction of
a circular buffer, taken modulo 65,536 and never a fault; where L is 0 there is none. A step smaller than the buffer from
inside it stays inside. -/
def Obligations.CircularAddressesCorrectOnce : Prop :=
  ∀ (x : CoreSt) (p : Nat) (v : Int),
    (∀ w, bits w 19 3 = p → v = rdP x p + sx 14 (bits w 0 14) →
      (bits w 17 2 = 1 → address x w = (circ x p v, rdP x p)) ∧ (bits w 17 2 = 2 → address x w = (rdP x p, circ x p v))) ∧
    (∀ w, bits w 19 3 = p → bits w 17 2 = 3 → v = rdP x p + rdM x (bits w 15 2) → address x w = (rdP x p, circ x p v)) ∧
    (rdL x p = 0 → circ x p v = (v % 65536).toNat) ∧
    (rdL x p ≠ 0 → (rdB x p : Int) + rdL x p ≤ v → circ x p v = ((v - rdL x p) % 65536).toNat) ∧
    (rdL x p ≠ 0 → v < rdB x p → circ x p v = ((v + rdL x p) % 65536).toNat) ∧
    (rdL x p ≠ 0 → (rdB x p : Int) ≤ v → v < (rdB x p : Int) + rdL x p → circ x p v = (v % 65536).toNat) ∧
    (rdL x p ≠ 0 → rdB x p + rdL x p ≤ 65536 → (rdB x p : Int) ≤ v + rdL x p → v < (rdB x p : Int) + 2 * rdL x p →
      rdB x p ≤ circ x p v ∧ circ x p v < rdB x p + rdL x p)

/-- R211, R215, R223: branches are decided at once and take effect after two delay slots; BDEC counts down; JAL keeps the
address after the slots in D15; JR takes s[11:0]; RTI returns from the handler after its slots; WAIT stops issue until a
source is pending and enabled; HALT stops the core. -/
def Obligations.StrideBranchesAndStops : Prop :=
  ∀ (s : State) (t n k w i j off : Nat), n < 12 → k < 16 → i < 16 → j < 16 → off < 4096 → Awake s → Issues s.dev n k w →
    let x := Machine.core s.dev n k
    let a := sx 32 (rdD x i)
    let b := sx 32 (rdD x j)
    let enc (op : Nat) : Prop := w = op * 2 ^ 26 + i * 2 ^ 22 + j * 2 ^ 18 + off
    let tgt := ((x.pc : Int) + sx 12 off) % 4096
    let if_ (c : Instr) (q : Prop) [Decidable q] : Prop :=
      Retires c s n k (branched x [] (if q then some tgt.toNat else none))
    (enc 0x20 → if_ (.strideBeq t n k) (a = b)) ∧ (enc 0x21 → if_ (.strideBne t n k) (a ≠ b)) ∧
    (enc 0x22 → if_ (.strideBlt t n k) (a < b)) ∧ (enc 0x23 → if_ (.strideBge t n k) (b ≤ a)) ∧
    (enc 0x24 → j = 0 → Retires (.strideBdec t n k) s n k
      (branched x [(kD (bank x) i, ux 32 (a - 1))] (if ux 32 (a - 1) ≠ 0 then some tgt.toNat else none))) ∧
    (w = 0x25 * 2 ^ 26 + off → Retires (.strideJ t n k) s n k (branched x [] (some off))) ∧
    (w = 0x26 * 2 ^ 26 + off → Retires (.strideJal t n k) s n k (branched x [(kD (bank x) 15, x.pc + 3)] (some off))) ∧
    (w = 0x27 * 2 ^ 26 + i * 2 ^ 22 → Retires (.strideJr t n k) s n k (branched x [] (some (rdD x i % 4096)))) ∧
    (w = 0x28 * 2 ^ 26 → x.isr = true → Retires (.strideRti t n k) s n k { branched x [] none with rti := true }) ∧
    (w = 0x29 * 2 ^ 26 → wanted x = true → Retires (.strideWait t n k) s n k (stepped x [] [])) ∧
    (w = 0x29 * 2 ^ 26 → wanted x = false → Does (.strideWait t n k) s (fun d => coreState d n k = 2 ∧
      Machine.core d n k = { stepped x [] [] with waitAt := d.ticks } ∧ d.evt = s.dev.evt ∧ d.mem = s.dev.mem)) ∧
    (w = 0x2A * 2 ^ 26 → Does (.strideHalt t n k) s (fun d => coreState d n k = 3 ∧ (Machine.core d n k).shelf = false ∧
      Machine.core d n k = { stepped x [] [] with shelf := false } ∧ (evtRaw d (pgStride n k)).testBit 8 = true ∧
      d.mem = s.dev.mem))

/-- R216, R217: multiply-accumulate combines exact products with 40-bit accumulators that saturate and set AS; EXT and
EXTR take floor(Aa / 2^sh), clamped with S = 1, which sets ES; MOVA, ASHR, ADDA, EXP and ACLR work on one
accumulator. -/
def Obligations.StrideAccumulators : Prop :=
  ∀ (s : State) (t n k w i a j m sh : Nat) (win : Bool), n < 12 → k < 16 → i < 16 → a < 4 → j < 8 → m < 8 → sh < 40 →
    Awake s → Issues s.dev n k w →
    let x := Machine.core s.dev n k
    let v := rdA x a
    let u := rdD x j
    let q := rdD x m
    let c (op sub hs : Nat) : Prop := w = op * 2 ^ 26 + a * 2 ^ 24 + sub * 2 ^ 22 + j * 2 ^ 19 + m * 2 ^ 16 + hs * 2 ^ 14
    let f (op : Nat) : Prop := w = op * 2 ^ 26 + i * 2 ^ 22 + a * 2 ^ 20 + sh * 2 ^ 14
    let fits (z : Int) : Prop := -(2 ^ 39) ≤ z ∧ z < 2 ^ 39
    let acc (ins : Instr) (z : Int) : Prop := Retires ins s n k (stepped x [(kA (bank x) a, ux 40 z)] [])
    let p := sx 16 u * sx 16 q
    let ph := sx 16 (u / 65536) * sx 16 (q / 65536)
    (c 0x30 0 0 → fits (v + p) → acc (.strideMac t n k win) (v + p)) ∧
    (c 0x30 1 0 → fits (v - p) → acc (.strideMac t n k win) (v - p)) ∧
    (c 0x30 2 3 → acc (.strideMac t n k win) ph) ∧ (c 0x30 3 0 → acc (.strideMac t n k win) (-p)) ∧
    (c 0x30 0 0 → 2 ^ 39 ≤ v + p → Retires (.strideMac t n k win) s n k
      (stepped x [(kA (bank x) a, 2 ^ 39 - 1), (kStat (bank x), rdStat x ||| 2 ^ a)] [])) ∧
    (c 0x31 2 0 → a % 2 = 0 → Retires (.strideMac2 t n k win) s n k
      (stepped x [(kA (bank x) a, ux 40 p), (kA (bank x) (a + 1), ux 40 ph)] [])) ∧
    (c 0x32 2 0 → a % 2 = 0 → Retires (.strideCmac t n k win) s n k (stepped x [(kA (bank x) a, ux 40 (p - ph)),
      (kA (bank x) (a + 1), ux 40 (sx 16 u * sx 16 (q / 65536) + sx 16 (u / 65536) * sx 16 q))] [])) ∧
    (f 0x33 → Retires (.strideExt t n k) s n k (stepped x [(kD (bank x) i, ux 32 (v / ((2 ^ sh : Nat) : Int)))] [])) ∧
    (w = 0x34 * 2 ^ 26 + i * 2 ^ 22 + a * 2 ^ 20 + m * 2 ^ 16 → q % 64 < 40 → Retires (.strideExtr t n k) s n k
      (stepped x [(kD (bank x) i, ux 32 (v / ((2 ^ (q % 64) : Nat) : Int)))] [])) ∧
    (f 0x35 → sh ≤ 8 → acc (.strideMova t n k) (sx 32 (rdD x i) * 2 ^ sh)) ∧
    (f 0x36 → i = 0 → acc (.strideAshr t n k) (v / ((2 ^ sh : Nat) : Int))) ∧
    (w = 0x37 * 2 ^ 26 + a * 2 ^ 20 + m % 4 * 2 ^ 18 → fits (v + rdA x (m % 4)) →
      acc (.strideAdda t n k) (v + rdA x (m % 4))) ∧
    (w = 0x38 * 2 ^ 26 + i * 2 ^ 22 + a * 2 ^ 20 → Retires (.strideExp t n k) s n k
      (stepped x [(kD (bank x) i, ux 32 ((signRun 39 (ux 40 v) : Int) - 8))] [])) ∧
    (w = 0x39 * 2 ^ 26 + a * 2 ^ 20 → acc (.strideAclr t n k) 0)

/-- R213, R224–R227: IN pops the oldest word of its port, with its marks and frame context, or stalls one cycle while the
port is empty; OUT pushes a feature word with the marks and clears MK with K = 0, or stalls while the port holds 8
words; MARK adds marks; SIG writes another core's mailbox, which raises source 5 there, or its own MAILBOX_OUT. -/
def Obligations.StridePortsAndMailboxes : Prop :=
  ∀ (s : State) (t n k w i : Nat), n < 12 → k < 16 → i < 16 → Awake s → Issues s.dev n k w →
    let x := Machine.core s.dev n k
    let p := pgStride n k
    (∀ q < 4, w = 0x3A * 2 ^ 26 + i * 2 ^ 22 + q * 2 ^ 20 → Store.get x.bufs [] q = [] →
      Does (.strideIn t n k) s (fun d => Machine.core d n k = x ∧
        getR d p F.STRIDE_STALL_CYCLES = min (getR s.dev p F.STRIDE_STALL_CYCLES + 1) (2 ^ 32 - 1) ∧
        getR d p F.STRIDE_CYCLES = (getR s.dev p F.STRIDE_CYCLES + 1) % 2 ^ 64 ∧ d.evt = s.dev.evt)) ∧
    (∀ q < 4, ∀ e r, w = 0x3A * 2 ^ 26 + i * 2 ^ 22 + q * 2 ^ 20 → Store.get x.bufs [] q = e :: r →
      Does (.strideIn t n k) s (fun d => Store.get (Machine.core d n k).bufs [] q = r ∧ (Machine.core d n k).pc = x.pc + 1 ∧
        (Machine.core d n k).late = [(kD (bank x) i, e.word % 2 ^ 32)] ∧ (Machine.core d n k).lat2 = true ∧
        rdStat (Machine.core d n k) = rdStat x ||| (bits e.word 16 6 * 256) ∧
        (Machine.core d n k).frame = (if bit e.word 22 then e.frame else x.frame) ∧
        getR d p (F.STRIDE_IN_LEVEL q) = r.length % 2 ^ 13 ∧ d.evt = s.dev.evt ∧ d.mem = s.dev.mem)) ∧
    (∀ q id, q < 2 → id < 256 → i % 2 = 0 → w = 0x3B * 2 ^ 26 + i * 2 ^ 22 + q * 2 ^ 21 + id * 2 ^ 8 →
      (outPort x q).length < 8 → Does (.strideOut t n k) s (fun d =>
        outPort (Machine.core d n k) q = outPort x q ++ [⟨rdD x i, rdD x (i + 1) % 65536, id, k, q, false, x.frame,
          bits (rdStat x) 8 6 ||| 8 * b2n (isStale s.dev p 0)⟩] ∧
        bits (rdStat (Machine.core d n k)) 8 6 = 0 ∧ (Machine.core d n k).pc = x.pc + 1 ∧ d.evt = s.dev.evt ∧ d.mem = s.dev.mem)) ∧
    (∀ q id, q < 2 → id < 256 → i % 2 = 0 → w = 0x3B * 2 ^ 26 + i * 2 ^ 22 + q * 2 ^ 21 + id * 2 ^ 8 →
      8 ≤ (outPort x q).length → Does (.strideOut t n k) s (fun d => Machine.core d n k = x ∧
        getR d p F.STRIDE_STALL_CYCLES = min (getR s.dev p F.STRIDE_STALL_CYCLES + 1) (2 ^ 32 - 1))) ∧
    (∀ m < 64, w = 0x3C * 2 ^ 26 + m * 2 ^ 8 → Retires (.strideMark t n k) s n k
      (stepped x [(kStat (bank x), rdStat x ||| m * 256)] [])) ∧
    (w = 0x3D * 2 ^ 26 + i * 2 ^ 22 + k * 2 ^ 18 → Does (.strideSig t n k) s (fun d =>
      Machine.core d n k = stepped x [] [] ∧ getR d p F.STRIDE_MAILBOX_OUT = rdD x i % 2 ^ 32 ∧
      (evtRaw d p).testBit 13 = true ∧ d.mem = s.dev.mem)) ∧
    (∀ c < 16, c ≠ k → w = 0x3D * 2 ^ 26 + i * 2 ^ 22 + c * 2 ^ 18 → Does (.strideSig t n k) s (fun d =>
      Machine.core d n k = stepped x [] [] ∧ (Machine.core d n c).mailbox = rdD x i ∧ (Machine.core d n c).mailFull = true ∧
      bit (Machine.core d n c).ipend 5 = true ∧ d.evt = s.dev.evt ∧ d.mem = s.dev.mem))

/-- R211, R215, R219: a core that is not running issues nothing; a fetch beyond 0xFFF is PC_END; a word whose opcode is
not listed is ILLEGAL; a branch, jump, RTI, WAIT or HALT in a delay slot is SLOT. A fault stops the core at the
instruction, which has no effect. R221, R222: at an eligible boundary the core takes the lowest pending enabled
source: IRA, ICAUSE, IVEC and the shadow bank follow, and that IPEND bit clears; where it is not eligible nothing
happens. R220, R224: the timer of a loaded core raises source 4 as it comes to 0 and reloads, and a doorbell fills the
mailbox with source 5. -/
def Obligations.StrideFaultsAndInterrupts : Prop :=
  (∀ (s : State) (t n k : Nat), n < 12 → k < 16 → Awake s → ∀ q ∈ strideOps t n k,
     let x := Machine.core s.dev n k
     let w := Store.get x.prog 0 x.pc
     let ready := coreState s.dev n k = 1 ∧ clusterUp s.dev n (coreCluster k) = true ∧ eligible x = false
     let stops (c : Nat) : Prop := Does q.2 s (fun d =>
       coreState d n k = 4 ∧ getR d (pgStride n k) F.STRIDE_CAUSE = c ∧
       getR d (pgStride n k) F.STRIDE_FAULT_PC = x.pc % 4096 ∧ (evtRaw d (pgStride n k)).testBit 9 = true ∧
       (Machine.core d n k).regs = putRegs x.regs x.late ∧ (Machine.core d n k).mem = x.mem ∧ (Machine.core d n k).pc = x.pc ∧
       d.ledgerOut.length = s.dev.ledgerOut.length + 1 ∧ d.mem = s.dev.mem)
     (coreState s.dev n k ≠ 1 → Gives q.2 s (advance s.dev t)) ∧
     (ready → 4096 ≤ x.pc → stops 5) ∧
     (ready → x.pc < 4096 → opListed (w / 2 ^ 26 % 64) = false → stops 1) ∧
     (ready → x.pc < 4096 → w / 2 ^ 26 % 64 = q.1 → 0x20 ≤ q.1 → q.1 ≤ 0x2A → x.slots ≠ 0 → stops 3) ∧
     (ready → x.pc < 4096 → opListed (w / 2 ^ 26 % 64) = true → w / 2 ^ 26 % 64 ≠ q.1 → Gives q.2 s (advance s.dev t))) ∧
  (∀ (s : State) (t n k : Nat), n < 12 → k < 16 → Awake s →
     let x := Machine.core s.dev n k
     (coreState s.dev n k = 1 → clusterUp s.dev n (coreCluster k) = true → eligible x = true → ∀ i < 8,
       bit (x.ipend &&& x.imask) i = true → (∀ j < i, bit (x.ipend &&& x.imask) j = false) → x.late = [] →
       Does (.interruptTaken t n k) s (fun d =>
         Machine.core d n k = { x with ipend := andNot x.ipend (2 ^ i), icause := i, ira := x.pc, pc := x.ivec, isr := true } ∧
         getR d (pgStride n k) F.STRIDE_INTERRUPTS = min (getR s.dev (pgStride n k) F.STRIDE_INTERRUPTS + 1) (2 ^ 32 - 1) ∧
         getR d (pgStride n k) F.STRIDE_IN_ISR = 1 ∧ d.evt = s.dev.evt ∧ d.mem = s.dev.mem)) ∧
     (eligible x = false → Gives (.interruptTaken t n k) s (advance s.dev t)) ∧
     (x.timerV ≠ 0 ∨ getR s.dev (pgStride n k) F.STRIDE_TIMER_RELOAD ≠ 0 → coreState s.dev n k = 1 ∨ coreState s.dev n k = 6 →
       Does (.strideTimerExpiry t n k) s (fun d =>
       (Machine.core d n k).timerV = getR s.dev (pgStride n k) F.STRIDE_TIMER_RELOAD ∧ (Machine.core d n k).timerAt = x.timerAt + x.timerV ∧
       bit (Machine.core d n k).ipend 4 = true ∧ x.timerAt + x.timerV ≤ d.ticks ∧ d.regs = s.dev.regs ∧ d.evt = s.dev.evt)) ∧
     ((x.timerV = 0 ∧ getR s.dev (pgStride n k) F.STRIDE_TIMER_RELOAD = 0) ∨
       coreState s.dev n k = 0 ∨ coreState s.dev n k = 3 ∨ coreState s.dev n k = 4 ∨ coreState s.dev n k = 5 →
       Gives (.strideTimerExpiry t n k) s (advance s.dev t)) ∧
     (Reach s.dev (pgStride n k) → Gives (.doorbell t n k) s
       (mailPut (advance s.dev t) n k (getR s.dev (pgStride n k) F.STRIDE_MAILBOX_IN))) ∧
     (Reach s.dev (pgStride n k) → coreState s.dev n k ≠ 2 → x.mailFull = false → Does (.doorbell t n k) s (fun d =>
       (Machine.core d n k).mailbox = getR s.dev (pgStride n k) F.STRIDE_MAILBOX_IN ∧ (Machine.core d n k).mailFull = true ∧
       bit (Machine.core d n k).ipend 5 = true ∧ d.regs = s.dev.regs ∧ d.evt = s.dev.evt ∧ d.mem = s.dev.mem)))

/-- R231–R233: START of a core in STOPPED, HALTED or FAULT enters LOADING and wakes its cluster, in another state it has
no effect, and while a pace step holds the cluster it sets RESTART; a load whose header or CRC is bad returns to
STOPPED and is counted; a good one runs from ENTRY with every register 0, or is HELD while the cluster's DVFS point
changes; both leave the image in the stores; STOP stops the core. -/
def Obligations.KernelsLoadAndStop : Prop :=
  ∀ (s : State) (t n k : Nat), n < 12 → k < 16 → Awake s →
    let p := pgStride n k
    let st := coreState s.dev n k
    (Reach s.dev p → st = 0 ∨ st = 3 ∨ st = 4 → paceGated s.dev n k = false → Does (.coreStart t n k) s (fun d =>
      coreState d n k = 5 ∧ (cluster d n (coreCluster k)).powered = true ∧ (∀ q, Store.get (Machine.core d n k).bufs [] q = []) ∧
      ((cluster s.dev n (coreCluster k)).powered = true → d.evt = s.dev.evt) ∧ d.mem = s.dev.mem)) ∧
    (Reach s.dev p → st = 1 ∨ st = 2 ∨ st = 5 ∨ st = 6 → Gives (.coreStart t n k) s (advance s.dev t)) ∧
    (Reach s.dev p → st = 0 ∨ st = 3 ∨ st = 4 → paceGated s.dev n k = true →
      Gives (.coreStart t n k) s (setR (advance s.dev t) p F.STRIDE_RESTART 1)) ∧
    (Reach s.dev p → Does (.coreStop t n k) s (fun d => coreState d n k = 0 ∧ getR d p F.STRIDE_RESTART = 0 ∧
      (Machine.core d n k).mem = (Machine.core s.dev n k).mem ∧ (Machine.core d n k).prog = (Machine.core s.dev n k).prog ∧ (Machine.core d n k).shelf = false ∧
      (Machine.core d n k).regs = putRegs (Machine.core s.dev n k).regs (Machine.core s.dev n k).late ∧ evtRaw d p = evtRaw s.dev p)) ∧
    (∀ pr da, st = 5 → clusterUp s.dev n (coreCluster k) = true → readImage (advance s.dev t) n k = (pr, da, none) →
      Does (.kernelLoadEnd t n k) s (fun d => coreState d n k = 0 ∧ (evtRaw d p).testBit 11 = true ∧
        (Machine.core d n k).prog = pr ∧ (Machine.core d n k).mem = da ∧
        getR d p F.STRIDE_LOAD_ERRORS = min (getR s.dev p F.STRIDE_LOAD_ERRORS + 1) (2 ^ 32 - 1) ∧ d.mem = s.dev.mem)) ∧
    (∀ pr da e, st = 5 → clusterUp s.dev n (coreCluster k) = true → readImage (advance s.dev t) n k = (pr, da, some e) →
      Does (.kernelLoadEnd t n k) s (fun d => coreState d n k = (if coreMoves s.dev n k then 6 else 1) ∧
        (Machine.core d n k).pc = e ∧ (Machine.core d n k).regs = [] ∧
        (Machine.core d n k).prog = pr ∧ (Machine.core d n k).mem = da ∧ (Machine.core d n k).isr = false ∧ (evtRaw d p).testBit 10 = true ∧
        getR d p F.STRIDE_LOADS = min (getR s.dev p F.STRIDE_LOADS + 1) (2 ^ 32 - 1) ∧
        getR d p F.STRIDE_RESTART = 0 ∧ d.mem = s.dev.mem)) ∧
    (st = 5 → clusterUp s.dev n (coreCluster k) = false → Gives (.kernelLoadEnd t n k) s (advance s.dev t)) ∧
    (st ≠ 5 → Gives (.kernelLoadEnd t n k) s (advance s.dev t))

/-! ## Hurdle and the Ledger (R237–R255) -/

/-- R238–R240: with a frame waiting, a sequencer whose present state has the arc 0 "TRUE, no action" enabled moves to its
NEXT, whatever the other arcs say; one with no arc enabled stays; its running timers fall by 1; latched terms clear; the
step is counted. A sequencer enabled since the last step starts at this one in START_STATE with its counters and timers
at 0 (R254). No step runs in OFF, DARK or PAUSED, nor without a frame; with no sequencer enabled only the latched terms
clear. -/
def Obligations.SequencersFireOneArc : Prop :=
  ∀ (s : State) (t n : Nat), n < 12 → Awake s →
    let x := hurdle s.dev n
    let p := pgHurdle n
    let st := lineState s.dev n
    (x.steps = [] → Gives (.sequencerStep t n) s (advance s.dev t)) ∧
    (st = 0 ∨ st = 5 ∨ st = 6 → Gives (.sequencerStep t n) s (advance s.dev t)) ∧
    (∀ r rest, x.steps = r :: rest → st = 1 ∨ st = 2 ∨ st = 3 ∨ st = 4 →
      (∀ h < 2, flagR s.dev p (F.HURDLE_SEQ_RUNNING h) = false ∧ flagR s.dev p (F.HURDLE_EN h) = false) →
      Does (.sequencerStep t n) s (fun d => (hurdle d n).steps = rest ∧ (hurdle d n).latched = [] ∧
        getR d p F.HURDLE_STEPS = getR s.dev p F.HURDLE_STEPS ∧ d.evt = s.dev.evt ∧ d.mem = s.dev.mem)) ∧
    (∀ r rest h q nx, x.steps = r :: rest → st = 1 ∨ st = 2 ∨ st = 3 ∨ st = 4 → nx < 16 → h < 2 →
      getR s.dev p (F.HURDLE_SEQ_STATE h) = q → q < 16 → flagR s.dev p (F.HURDLE_SEQ_RUNNING h) = true →
      flagR s.dev p (F.HURDLE_SEQ_RUNNING (1 - h)) = false → flagR s.dev p (F.HURDLE_EN (1 - h)) = false →
      (seqOf x h).open_ = none → getR s.dev p (F.HURDLE_ARC_W0 h (4 * q)) = 2 ^ 31 + nx * 2 ^ 16 + 30 →
      getR s.dev p (F.HURDLE_ARC_W1 h (4 * q)) = 0 →
      Does (.sequencerStep t n) s (fun d => (hurdle d n).steps = rest ∧ (hurdle d n).latched = [] ∧
        getR d p (F.HURDLE_SEQ_STATE h) = nx ∧ (seqOf (hurdle d n) h).entered = true ∧
        (seqOf (hurdle d n) h).open_ = none ∧
        (∀ i < 4, getR s.dev p (F.HURDLE_TREM h i) < 2 ^ 32 →
          getR d p (F.HURDLE_TREM h i) = getR s.dev p (F.HURDLE_TREM h i) - 1) ∧
        getR d p F.HURDLE_STEPS = (getR s.dev p F.HURDLE_STEPS + 1) % 2 ^ 64 ∧ d.evt = s.dev.evt ∧ d.mem = s.dev.mem)) ∧
    (∀ r rest h q, x.steps = r :: rest → st = 1 ∨ st = 2 ∨ st = 3 ∨ st = 4 → h < 2 →
      getR s.dev p (F.HURDLE_SEQ_STATE h) = q → q < 16 → flagR s.dev p (F.HURDLE_SEQ_RUNNING h) = true →
      flagR s.dev p (F.HURDLE_SEQ_RUNNING (1 - h)) = false → flagR s.dev p (F.HURDLE_EN (1 - h)) = false →
      (seqOf x h).open_ = none → (∀ a < 4, (getR s.dev p (F.HURDLE_ARC_W0 h (4 * q + a))).testBit 31 = false) →
      Does (.sequencerStep t n) s (fun d => (hurdle d n).steps = rest ∧ (hurdle d n).latched = [] ∧
        getR d p (F.HURDLE_SEQ_STATE h) = q ∧ (seqOf (hurdle d n) h).entered = false ∧
        (∀ i < 4, getR s.dev p (F.HURDLE_TREM h i) < 2 ^ 32 →
          getR d p (F.HURDLE_TREM h i) = getR s.dev p (F.HURDLE_TREM h i) - 1) ∧
        getR d p F.HURDLE_STEPS = (getR s.dev p F.HURDLE_STEPS + 1) % 2 ^ 64 ∧ d.evt = s.dev.evt ∧ d.mem = s.dev.mem)) ∧
    (∀ r rest h q, x.steps = r :: rest → st = 1 ∨ st = 2 ∨ st = 3 ∨ st = 4 → h < 2 →
      getR s.dev p (F.HURDLE_START_STATE h) = q → q < 16 → flagR s.dev p (F.HURDLE_EN h) = true →
      flagR s.dev p (F.HURDLE_SEQ_RUNNING h) = false →
      flagR s.dev p (F.HURDLE_SEQ_RUNNING (1 - h)) = false → flagR s.dev p (F.HURDLE_EN (1 - h)) = false →
      (seqOf x h).open_ = none → (∀ a < 4, (getR s.dev p (F.HURDLE_ARC_W0 h (4 * q + a))).testBit 31 = false) →
      Does (.sequencerStep t n) s (fun d => flagR d p (F.HURDLE_SEQ_RUNNING h) = true ∧
        getR d p (F.HURDLE_SEQ_STATE h) = q ∧ (∀ c < 4, getR d p (fCNT h c) = 0 ∧ getR d p (F.HURDLE_TREM h c) = 0) ∧
        getR d p cSTATE = 1 ∧ getR d p F.HURDLE_STEPS = (getR s.dev p F.HURDLE_STEPS + 1) % 2 ^ 64 ∧
        d.evt = s.dev.evt ∧ d.mem = s.dev.mem))

/-- R239, R245, R246: an arc with TRIG opens a record at its step, with EVENT_OPEN written, TRIGGERS counted and the
event raised; with a record open it counts in RETRIGGERS and leaves the record. The record's emission waits for its
capture, then the record leaves with RECORDS counted. -/
def Obligations.RecordsOpenAndAreEmitted : Prop :=
  ∀ (s : State) (t n : Nat), n < 12 → Awake s →
    let x := hurdle s.dev n
    let p := pgHurdle n
    (∀ r q, x.steps = [r] → lineState s.dev n = 2 → getR s.dev p (F.HURDLE_SEQ_STATE 0) = q → q < 16 →
      flagR s.dev p (F.HURDLE_SEQ_RUNNING 0) = true → flagR s.dev p (F.HURDLE_SEQ_RUNNING 1) = false →
      flagR s.dev p (F.HURDLE_EN 1) = false →
      x.seq0.open_ = none → 1 < getR s.dev p (F.HURDLE_MAX_DUR 0) →
      getR s.dev p (F.HURDLE_ARC_W0 0 (4 * q)) = 2 ^ 31 + 30 → getR s.dev p (F.HURDLE_ARC_W1 0 (4 * q)) = 256 →
      Does (.sequencerStep t n) s (fun d => (∃ y, (hurdle d n).seq0.open_ = some y ∧ y.kt = r.num ∧ y.trig = r.tai ∧
          y.term = 30 ∧ y.state = q ∧ y.cause = 0) ∧ (evtRaw d p).testBit 8 = true ∧
        getR d p F.HURDLE_TRIGGERS = min (getR s.dev p F.HURDLE_TRIGGERS + 1) (2 ^ 32 - 1) ∧
        d.ledgerOut.length = s.dev.ledgerOut.length + 1 ∧ d.mem = s.dev.mem)) ∧
    (∀ r q y, x.steps = [r] → lineState s.dev n = 2 → getR s.dev p (F.HURDLE_SEQ_STATE 0) = q → q < 16 →
      flagR s.dev p (F.HURDLE_SEQ_RUNNING 0) = true → flagR s.dev p (F.HURDLE_SEQ_RUNNING 1) = false →
      flagR s.dev p (F.HURDLE_EN 1) = false →
      x.seq0.open_ = some y → r.num + 1 - y.kt < getR s.dev p (F.HURDLE_MAX_DUR 0) →
      getR s.dev p (F.HURDLE_ARC_W0 0 (4 * q)) = 2 ^ 31 + 30 → getR s.dev p (F.HURDLE_ARC_W1 0 (4 * q)) = 256 →
      Does (.sequencerStep t n) s (fun d => (∃ z, (hurdle d n).seq0.open_ = some z ∧ z.kt = y.kt ∧ z.trig = y.trig ∧
          z.kc = r.num) ∧ (evtRaw d p).testBit 10 = true ∧
        getR d p F.HURDLE_RETRIGGERS = min (getR s.dev p F.HURDLE_RETRIGGERS + 1) (2 ^ 32 - 1) ∧
        d.ledgerOut = s.dev.ledgerOut)) ∧
    (∀ h < 2, (seqOf x h).done = [] → Gives (.recordEmit t n h) s (advance s.dev t)) ∧
    (∀ h < 2, ∀ y r, (seqOf x h).done = y :: r → recReady s.dev n y = false →
      Gives (.recordEmit t n h) s (advance s.dev t)) ∧
    (∀ h < 2, ∀ y r, (seqOf x h).done = y :: r → recReady s.dev n y = true →
      Does (.recordEmit t n h) s (fun d => (seqOf (hurdle d n) h).done = r ∧ (evtRaw d p).testBit 9 = true ∧
        getR d p F.HURDLE_RECORDS = min (getR s.dev p F.HURDLE_RECORDS + 1) (2 ^ 32 - 1)))

/-- R237, R243, R244, R329: a rising edge on the pin that a line's GPIO term chooses, a trigger word of the sequencer that
its XSIG term chooses, and the daily instant latch their terms with their own times, the earliest one kept; a trigger
word on a Baton port that is not UP, or while the time region is fenced, is ignored, and one that comes on DOWN to a
package that is not the master only goes on upwards (R30, R38). R228, R229, R242, R255: without a feature word, or an
open feature frame, nothing happens; a word goes to the feature frame of its own frame where PL is 1, and latches the
term of each filter that it matches; a feature frame that holds no record closes without a frame, another builds one
once its pool grants the shelves. A write to the arc table of an enabled sequencer is discarded and counted; an enable
with a reserved term is refused with CFG_ERR, a good one sets EN, and a CFG write with EN at 0 stops it. -/
def Obligations.EdgesTriggersFeaturesAndSequencerSetUp : Prop :=
  (∀ (s : State) (t n k : Nat), n < 12 → k < 4 → Awake s →
     let p := pgHurdle n
     let has (d : Dev) (m : Nat) (x : Int) : Prop := (hurdle d n).latched.find? (fun e => e.1 == m) = some (m, x)
     (∀ g half, g < 16 → half < 5 → bits (getR s.dev p F.HURDLE_GPIO_SEL) (4 * k) 4 = g →
       (∀ e ∈ (hurdle s.dev n).latched, e.1 ≠ 20 + k) →
       Does (.gpioEdge t g half) s (fun d => has d (20 + k) (s.dev.time.base + 655360 * (t : Int) + 131072 * (half : Int) -
           rne (getS s.dev p F.HURDLE_GPIO_DELAY * 65536) 1000) ∧
         d.regs = s.dev.regs ∧ d.evt = s.dev.evt ∧ d.mem = s.dev.mem)) ∧
     (∀ port pkg ln h inst, port < 2 → pkg < 8 → ln < 12 → h < 2 →
       batonUp s.dev port = true → isFenced s.dev regTime = false → port = 0 ∨ isMaster s.dev = true →
       isFenced s.dev n = false → pkg ≠ pkgIndex s.dev ∨ n ≠ ln → flagR s.dev p (F.HURDLE_XS_EN k) = true →
       getR s.dev p (F.HURDLE_XS_PKG k) = pkg → getR s.dev p (F.HURDLE_XS_LINE k) = ln →
       getR s.dev p (F.HURDLE_XS_SEQ k) = h → (∀ e ∈ (hurdle s.dev n).latched, e.1 ≠ 25 + k) →
       Does (.triggerWord t port pkg ln h inst) s (fun d => has d (25 + k) inst ∧ d.regs = s.dev.regs ∧
         d.evt = s.dev.evt ∧ d.mem = s.dev.mem)) ∧
     (∀ port pkg ln h inst, port < 2 → pkg < 8 → ln < 12 → h < 2 →
       batonUp s.dev port = false ∨ isFenced s.dev regTime = true →
       Gives (.triggerWord t port pkg ln h inst) s (advance s.dev t)) ∧
     (∀ pkg ln h inst, pkg < 8 → ln < 12 → h < 2 → batonUp s.dev 1 = true → isFenced s.dev regTime = false →
       isMaster s.dev = false →
       Gives (.triggerWord t 1 pkg ln h inst) s (sigSend (advance s.dev t) 0 pkg ln h inst)) ∧
     ((∀ e ∈ (hurdle s.dev n).latched, e.1 ≠ 29) → Does (.todInstant t n) s (fun d => ∃ z : Int,
       has d 29 (z * secU) ∧ (hurdle d n).todDone = (hurdle s.dev n).todDone ++ [z] ∧ z ∉ (hurdle s.dev n).todDone ∧ tai s.dev ≤ z * secU ∧ z * secU ≤ tai d ∧
       (z + getS s.dev p F.HURDLE_TOD_OFFSET - getR s.dev p F.HURDLE_TOD_SEC) % 86400 = 0 ∧
       d.regs = s.dev.regs ∧ d.evt = s.dev.evt))) ∧
  (∀ (s : State) (t n h w v : Nat), n < 12 → h < 2 → w < 256 → Awake s →
     let p := pgHurdle n
     let runs := flagR s.dev p (F.HURDLE_SEQ_RUNNING h)
     let bad := ((List.range 64).map (fun i => arcWords s.dev n h (i / 4) (i % 4))).any badArc
     ((∀ k < 16, outPort (Machine.core s.dev n k) 0 = [] ∧ outPort (Machine.core s.dev n k) 1 = []) →
       Gives (.featureWord t n) s (advance s.dev t)) ∧
     (∀ k u r, k < 16 → Store.get s.dev.busNext 0 n = 2 * k → (Machine.core s.dev n k).out0 = u :: r → u.pl = false →
       r.length ≠ 7 → (∀ c ∈ filtsAt s.dev n (fdiv (timeOfFrame s.dev n u.frame - s.dev.time.base) 10), featMatch c u = false) →
       Does (.featureWord t n) s (fun d => (Machine.core d n k).out0 = r ∧ Store.get d.busNext 0 n = (2 * k + 1) % 32 ∧
         getR d (pgStrideCl n) F.STRIDECL_BUS_WORDS = (getR s.dev (pgStrideCl n) F.STRIDECL_BUS_WORDS + 1) % 2 ^ 64 ∧
         (hurdle d n).latched = (hurdle s.dev n).latched ∧ d.evt = s.dev.evt ∧ d.mem = s.dev.mem)) ∧
     (∀ k u r f c, k < 16 → f < 8 → Store.get s.dev.busNext 0 n = 2 * k → (Machine.core s.dev n k).out0 = u :: r →
       (filtsAt s.dev n (fdiv (timeOfFrame s.dev n u.frame - s.dev.time.base) 10))[f]? = some c → featMatch c u = true →
       (∀ e ∈ (hurdle s.dev n).latched, e.1 ≠ 8 + f) →
       Does (.featureWord t n) s (fun d => (Machine.core d n k).out0 = r ∧
         (hurdle d n).latched.find? (fun e => e.1 == 8 + f) = some (8 + f, timeOfFrame s.dev n u.frame) ∧ d.mem = s.dev.mem)) ∧
     (∀ k u r q, k < 16 → Store.get s.dev.busNext 0 n = 2 * k → (Machine.core s.dev n k).out0 = u :: r → u.pl = true →
       (frame s.dev n).feats = [q] → q.num = u.frame → q.recs.length < q.mx →
       Does (.featureWord t n) s (fun d => (Machine.core d n k).out0 = r ∧
         (frame d n).feats = [{ q with recs := q.recs ++ [u] }] ∧ d.mem = s.dev.mem)) ∧
     ((frame s.dev n).feats = [] → Gives (.featureFrameClose t n) s (advance s.dev t)) ∧
     (∀ r l, (frame s.dev n).feats = r :: l → r.recs = [] → Does (.featureFrameClose t n) s (fun d =>
       (frame d n).feats = l ∧ (frame d n).out = (frame s.dev n).out ∧ d.regs = s.dev.regs ∧ d.evt = s.dev.evt)) ∧
     (∀ r l, (frame s.dev n).feats = r :: l → r.recs ≠ [] →
       wouldGrant s.dev (dieOf n) (frameReq n) (shelvesFor (64 + 12 * r.recs.length)) = true →
       Does (.featureFrameClose t n) s (fun d => (frame d n).feats = l ∧ (r.inst / 65536).toNat + msT r.wait ≤ d.ticks ∧
         (∃ f, (frame d n).out = (frame s.dev n).out ++ [f] ∧ f.kind = 2 ∧ f.num = r.num ∧
           f.bytes.length = 64 + 12 * r.recs.length) ∧
         getR d (pgStrideCl n) F.STRIDECL_FEAT_FRAMES = (getR s.dev (pgStrideCl n) F.STRIDECL_FEAT_FRAMES + 1) % 2 ^ 64)) ∧
     (Reach s.dev p → flagR s.dev p (F.HURDLE_EN (w / 128)) = true → Gives (.arcTableWrite t n w v) s
       (raise (bump (advance s.dev t) p F.HURDLE_TABLE_REFUSED) p 12)) ∧
     (Reach s.dev p → flagR s.dev p (F.HURDLE_EN (w / 128)) = false → Gives (.arcTableWrite t n w v) s
       (setR (advance s.dev t) p (if w % 2 = 0 then F.HURDLE_ARC_W0 (w / 128) (w % 128 / 2)
         else F.HURDLE_ARC_W1 (w / 128) (w % 128 / 2)) v)) ∧
     (Reach s.dev p → v.testBit 4 = true → flagR s.dev p (F.HURDLE_EN h) = false → bad = true → Does (.sequencerEnable t n h v) s (fun d =>
       getR d p (F.HURDLE_CFG_ERR h) = 1 ∧ flagR d p (F.HURDLE_EN h) = false ∧ d.evt = s.dev.evt)) ∧
     (Reach s.dev p → v.testBit 4 = true → flagR s.dev p (F.HURDLE_EN h) = false → bad = false →
       Does (.sequencerEnable t n h v) s (fun d => getR d p (F.HURDLE_CFG_ERR h) = 0 ∧ flagR d p (F.HURDLE_EN h) = true ∧
       getR d p (F.HURDLE_START_STATE h) = v % 16 ∧ flagR d p (F.HURDLE_SEQ_RUNNING h) = runs ∧
       d.evt = s.dev.evt ∧ d.mem = s.dev.mem)) ∧
     (Reach s.dev p → v.testBit 4 = true → flagR s.dev p (F.HURDLE_EN h) = true → Does (.sequencerEnable t n h v) s (fun d =>
       getR d p (F.HURDLE_START_STATE h) = v % 16 ∧ flagR d p (F.HURDLE_EN h) = true ∧
       flagR d p (F.HURDLE_SEQ_RUNNING h) = runs ∧ d.evt = s.dev.evt ∧ d.mem = s.dev.mem)) ∧
     (Reach s.dev p → v.testBit 4 = false → runs = true → (seqOf (hurdle s.dev n) h).open_ = none →
       Does (.sequencerEnable t n h v) s (fun d => flagR d p (F.HURDLE_SEQ_RUNNING h) = false ∧
         getR d p (F.HURDLE_EN h) = 0 ∧ d.evt = s.dev.evt ∧ d.mem = s.dev.mem)))

/-- R250, R252, R253: a USER entry is made with the detail and payload written; the oldest entry on its way takes a place
and the next number while numbers are reserved, and numbers rise; when the reserved block is used up the next 4,096 are
reserved and verified, and after a failure the device tries again; a mounted Archive takes the numbered entries. -/
def Obligations.LedgerNumbersInOrder : Prop :=
  ∀ (s : State) (t : Nat), Awake s →
    let next := getR s.dev pgPkg F.PKG_NEXT_ACC
    let end_ := getR s.dev pgPkg F.PKG_RSV_END
    (∀ v, v.testBit 31 = true → Does (.userGo t v) s (fun d => ∃ e, d.ledgerOut = s.dev.ledgerOut ++ [e] ∧
      e.kind = 0xF000 ∧ e.line = 0xF ∧ e.ptype = v % 65536 ∧ getR d pgPkg F.PKG_USER_DETAIL = v % 65536 ∧
      e.payload = padTo 28 ((List.range 7).flatMap (fun w => leBytes 4 (getR s.dev pgPkg (F.PKG_USER_P w)))) ∧
      RegsBut [(pgPkg, F.PKG_USER_DETAIL)] d s.dev ∧ d.evt = s.dev.evt)) ∧
    (∀ v, v.testBit 31 = false → Gives (.userGo t v) s (setR (advance s.dev t) pgPkg F.PKG_USER_DETAIL (v % 65536))) ∧
    (s.dev.ledgerOut = [] → Gives (.ledgerEntry t) s (advance s.dev t)) ∧
    (∀ e r, s.dev.ledgerOut = e :: r → s.dev.ledger.places = [] → s.dev.ledger.lostCount = 0 →
      s.dev.ledger.lostPend = 0 → s.dev.ledger.reseedWait = false → next < end_ → next < 2 ^ 63 → e.kind ≠ 0x0160 →
      e.test = false → Does (.ledgerEntry t) s (fun d => d.ledgerOut = r ∧ getR d pgPkg F.PKG_NEXT_ACC = next + 1 ∧
        getR d pgPkg F.PKG_ENTRIES = min (getR s.dev pgPkg F.PKG_ENTRIES + 1) (2 ^ 32 - 1) ∧
        (∀ q ∈ d.ledger.places, q.entry = e ∧ q.num = some next))) ∧
    (∀ e r, s.dev.ledgerOut = e :: r → s.dev.ledger.places = [] → s.dev.ledger.lostCount = 0 →
      s.dev.ledger.reseedWait = true → Does (.ledgerEntry t) s (fun d => d.ledgerOut = r ∧
        getR d pgPkg F.PKG_NEXT_ACC = next ∧ (∃ q, d.ledger.places = [q] ∧ q.entry = e ∧ q.num = none) ∧
        getR d pgPkg F.PKG_BUF_LEVEL = 1 ∧ d.evt = s.dev.evt)) ∧
    (∀ ok, next < end_ ∨ reserveOn s.dev = false → Gives (.ledgerReserve t ok) s (advance s.dev t)) ∧
    (end_ ≤ next → reserveOn s.dev = true → s.dev.ledger.reseedWait = false → s.dev.ledger.places = [] →
      s.dev.ledger.lostPend = 0 → end_ < 2 ^ 63 →
      Does (.ledgerReserve t true) s (fun d => getR d pgPkg F.PKG_RSV_END = end_ + 4096 ∧ d.almH = end_ + 4096 ∧
        d.almHOk = true ∧ getR d pgPkg F.PKG_NEXT_ACC = next ∧ d.ledger.rsvFailed = false ∧ d.evt = s.dev.evt) ∧
      Does (.ledgerReserve t false) s (fun d => d.ledger.rsvFailed = true ∧ d.regs = s.dev.regs ∧ d.almH = s.dev.almH)) ∧
    (∀ ok, s.dev.ledger.rsvFailed = false → Gives (.ledgerReserveRetry t ok) s (advance s.dev t)) ∧
    (s.dev.ledger.rsvFailed = true → reserveOn s.dev = true → s.dev.ledger.places = [] → s.dev.ledger.lostPend = 0 →
      end_ < 2 ^ 63 → Does (.ledgerReserveRetry t true) s (fun d => d.ledger.rsvFailed = false ∧
        getR d pgPkg F.PKG_RSV_END = end_ + 4096 ∧ d.almH = end_ + 4096)) ∧
    (getR s.dev pgArc cSTATE ≠ 2 → Gives (.ledgerArchiveWrite t) s (advance s.dev t)) ∧
    (getR s.dev pgArc cSTATE = 2 → Does (.ledgerArchiveWrite t) s (fun d =>
      (∀ q ∈ d.ledger.places, q.num ≠ none → q.arcSent = true) ∧
      d.arc.inQ.length = s.dev.arc.inQ.length +
        (s.dev.ledger.places.filter (fun q => !q.arcSent && q.num.isSome)).length ∧ d.evt = s.dev.evt))

/-! ## Calibration of the lines and of the service converter (R256–R284) -/

/-- R258: a request makes a pass due, with its trigger bit; one with FORCE makes it forced; one in a pass waits for its
end. Every millisecond the die's drift from T_REF makes a pass due above CAL_DT and forces it from twice CAL_DT; with
no condition, none is due. R259–R261, R263, R267: a pass starts only at a slot-0 instant that R259 allows; a native
pass measures phase by phase and ends at the first slot-0 instant at least 29 ms after its start; in a GL-3204 pass
the spare takes one input at a slot-0 instant and the relieved core serves it again later, each counted in HANDOVERS. -/
def Obligations.CalibrationFallsDueAndRuns : Prop :=
  (∀ (s : State) (t n : Nat), n < 12 → Awake s →
     let p := pgCal n
     let idle := (calSt s.dev n).run = 0 ∧ (line s.dev n).base ≠ 6
     (Reach s.dev p → idle → Does (.calReq t n) s (fun d => 1 ∈ Store.get d.calPend [] n ∧ (calSt d n).dueAt ≠ none ∧
       (calSt d n).trig.testBit 2 = true ∧ d.lines = s.dev.lines ∧ d.epochs = s.dev.epochs ∧ d.mem = s.dev.mem)) ∧
     (Reach s.dev p → idle → Does (.calForce t n) s (fun d => 2 ∈ Store.get d.calPend [] n ∧ (calSt d n).dueAt ≠ none ∧
       (calSt d n).forced = true ∧ (calSt d n).trig.testBit 2 = true ∧ d.lines = s.dev.lines ∧ d.mem = s.dev.mem)) ∧
     (Reach s.dev p → (calSt s.dev n).run ≠ 0 →
       Does (.calReq t n) s (fun d => 1 ∈ Store.get d.calPend [] n ∧ d.cals = s.dev.cals ∧ d.mem = s.dev.mem) ∧
       Does (.calForce t n) s (fun d => 2 ∈ Store.get d.calPend [] n ∧ d.cals = s.dev.cals ∧ d.mem = s.dev.mem)) ∧
     (∀ k, idle → flagR s.dev p F.CAL_TEMP_EN = true → lineTemp s.dev n = some k →
       calDt s.dev n < (k - getS s.dev p F.CAL_T_REF).natAbs → Does (.calEvalTick t n) s (fun d =>
         (calSt d n).dueAt ≠ none ∧ (calSt d n).trig.testBit 0 = true ∧
         (2 * calDt s.dev n ≤ (k - getS s.dev p F.CAL_T_REF).natAbs → (calSt d n).forced = true) ∧ d.mem = s.dev.mem)) ∧
     (idle → flagR s.dev p F.CAL_TEMP_EN = false → flagR s.dev p F.CAL_TIMER_EN = false → (calSt s.dev n).forced = false →
       Store.get s.dev.calPend [] n = [] → Does (.calEvalTick t n) s (fun d =>
         (calSt d n).dueAt = none ∧ (calSt d n).forced = false ∧ getR d p cSTATE = 0 ∧ d.evt = s.dev.evt ∧
         d.mem = s.dev.mem)) ∧
     (Reach s.dev pgSvc → Does (.svcCalReq t) s (fun d => 1 ∈ d.svcCal.want ∧
       (s.dev.svcCal.run = 0 → d.svcCal.dueAt ≠ none) ∧ d.mem = s.dev.mem)) ∧
     (Reach s.dev pgSvc → Does (.svcCalForce t) s (fun d => 2 ∈ d.svcCal.want ∧
       (s.dev.svcCal.run = 0 → d.svcCal.dueAt ≠ none ∧ d.svcCal.forced = true) ∧ d.mem = s.dev.mem)) ∧
     Gives (.calEvalTick t 12) s (svcEval (advance s.dev t))) ∧
  (∀ (s : State) (t n : Nat), n < 12 → Awake s →
     let x := calSt s.dev n
     let p := pgCal n
     let i := x.step - 1
     (∀ e, (line s.dev n).next = some e → passMay s.dev n e = false → Gives (.calPassStart t n) s (advance s.dev t)) ∧
     (∀ e m fell, (line s.dev n).next = some e → passMay s.dev n e = true → passMode s.dev n = (some m, fell) →
       Gives (.calPassStart t n) s (passStart (advance s.dev (max t e)) n e m fell)) ∧
     (∀ e, (line s.dev n).next = some e → passMay s.dev n e = true → flagR s.dev p F.CAL_MODE = false →
       Does (.calPassStart t n) s (fun d => (calSt d n).run = 1 ∧ (calSt d n).startAt = e ∧ (line d n).cal = true ∧
         (evtRaw d p).testBit 8 = true ∧ e ≤ d.ticks ∧ d.mem = s.dev.mem)) ∧
     (∀ vals, x.run = 0 → Gives (.calPhaseEnd t n vals) s (advance s.dev t)) ∧
     (∀ vals e, x.run = 1 → phaseEnds[x.phase]? = some e → Gives (.calPhaseEnd t n vals) s
       (setCalSt (advance s.dev (max t (x.startAt + e))) n { x with
         tChk := if x.phase = 5 then lineTemp s.dev n else x.tChk, phase := x.phase + 1, meas := x.meas ++ takeMeas (phaseUnits s.dev n x.phase) vals })) ∧
     (∀ vals u v, x.run = 2 → x.step ≠ 0 → x.handAt ≠ none → x.measured = false → vals = [u, v] →
       Gives (.calPhaseEnd t n vals) s (setCalSt (advance s.dev (max t x.readyAt)) n { x with
         measured := true, tChk := lineTemp s.dev n, meas := [⟨x.relieved, 1, 0, u⟩, ⟨x.relieved, 2, 0, v⟩] })) ∧
     (∀ ok, x.run ≠ 1 → Gives (.calExit t n ok) s (advance s.dev t)) ∧
     (∀ ok e, (line s.dev n).next = some e → e < x.startAt + 2900000 → Gives (.calExit t n ok) s (advance s.dev t)) ∧
     (∀ ok e, (line s.dev n).next = some e → x.run = 1 → x.phase = 7 → x.startAt + 2900000 ≤ e →
       Does (.calExit t n ok) s (fun d => (calSt d n).run = 0 ∧ (line d n).cal = false ∧ e ≤ d.ticks ∧
         d.mem = s.dev.mem)) ∧
     (x.run ≠ 2 → Gives (.calHandover t n) s (advance s.dev t)) ∧
     (∀ h, (line s.dev n).next = some h → x.run = 2 → 1 ≤ x.step → x.step ≤ 4 → x.handAt = none → x.readyAt ≤ h →
       x.lastRet < h → (line s.dev n).gap = false → isFailed s.dev n (coreAt s.dev (pgRx n) i) = false → x.spare < 5 →
       Does (.calHandover t n) s (fun d => coreAt d (pgRx n) i = x.spare ∧
         (∀ j < 4, j ≠ i → coreAt d (pgRx n) j = coreAt s.dev (pgRx n) j) ∧ (calSt d n).handAt = some h ∧
         (calSt d n).relieved = coreAt s.dev (pgRx n) i ∧ (calSt d n).readyAt = h + 400000 ∧
         getR d p F.CAL_HANDOVERS = min (getR s.dev p F.CAL_HANDOVERS + 1) (2 ^ 32 - 1) ∧ d.evt = s.dev.evt ∧
         d.mem = s.dev.mem)) ∧
     (∀ ok, x.handAt = none → Gives (.calReturn t n ok) s (advance s.dev t)) ∧
     (∀ ok e, (line s.dev n).next = some e → e < x.readyAt → x.restart = false →
       Gives (.calReturn t n ok) s (advance s.dev t)) ∧
     (∀ ok e, (line s.dev n).next = some e → x.run = 2 → 1 ≤ x.step → x.step < 4 → x.handAt ≠ none →
       x.restart = false → x.readyAt ≤ e → x.measured = true → x.relieved < 5 → Does (.calReturn t n ok) s (fun d =>
         coreAt d (pgRx n) i = x.relieved ∧ (calSt d n).step = x.step + 1 ∧ (calSt d n).lastRet = e ∧
         (calSt d n).handAt = none ∧ e ≤ d.ticks ∧ d.mem = s.dev.mem)))

/-! ## Service converter, sensor front end, loops (R273–R298) -/

/-- R275, R276, R278–R282: an entry discards its SETTLE cycles, adds the corrected codes of 2^AVG conversions, and its
floor by 2^SHIFT enters its record; a timed scan that falls due in another is an overrun; a CONTROL trigger starts an
idle core and merges into one that waits; a SHOT entry converts at its instant, or is dropped. R263, R283, R284: a
core starts to calibrate once it may, its regular run ended and CAL_START raised; new values within the limits become
live and end CAL_STALE, a value outside them is kept off and logged; core 1's end is the end of the pass, which is
counted. -/
def Obligations.ServiceEntriesConvertAndCoresCalibrate : Prop :=
  (∀ (s : State) (t c : Nat) (raw : Int), c < 2 → Awake s →
     let y := svcCore s.dev c
     ((svcCore s.dev c).run = none → Gives (.svcConversion t c raw) s (svcNext (advance s.dev t) c)) ∧
     (∀ r, y.run = some r → wSfe r.word = none →
       let q := max t (r.at_ + 50)
       let free : Prop := r.kind = 0 → shotNear (advance s.dev q) c false = false
       let code := svcCode s.dev c (wDiff r.word) raw
       let v := fdiv (r.sum + code) (2 ^ wShift r.word)
       (0 < r.settle → free → Does (.svcConversion t c raw) s (fun d => d.svcRec = s.dev.svcRec ∧ r.at_ + 50 ≤ d.ticks ∧
         (svcCore d c).run = some { r with settle := r.settle - 1, at_ := d.ticks } ∧ d.evt = s.dev.evt ∧
         d.mem = s.dev.mem)) ∧
       (r.settle = 0 → r.n + 1 ≠ 2 ^ wAvg r.word → free → Does (.svcConversion t c raw) s (fun d =>
         (∃ z, (svcCore d c).run = some z ∧ z.sum = r.sum + code ∧ z.n = r.n + 1 ∧ z.settle = 0 ∧ z.x = r.x) ∧
         d.svcRec = s.dev.svcRec ∧ d.evt = s.dev.evt ∧ d.mem = s.dev.mem)) ∧
       (r.settle = 0 → r.n + 1 = 2 ^ wAvg r.word → Does (.svcConversion t c raw) s (fun d =>
         let a := svcRecOf s.dev r.x
         let b := svcRecOf d r.x
         b.sum = (a.sum + ux 64 v) % 2 ^ 64 ∧ b.count = min (a.count + 1) (2 ^ 32 - 1) ∧ b.mn = min a.mn v ∧
         b.mx = max a.mx v ∧ b.val = v ∧ (wAlign r.word = false → b.latest = ux 32 v) ∧
         (∀ x, x ≠ r.x → svcRecOf d x = svcRecOf s.dev x) ∧ d.mem = s.dev.mem))) ∧
     (y.timed = false → Gives (.scanStart t c) s (advance s.dev t)) ∧
     (let per := 100 * max 1 (getL s.dev pgSvc (F.SVC_SCAN_PERIOD c))
      let on := getL s.dev pgSvc (F.SVC_MODE c) = 1 ∧ getL s.dev pgSvc (F.SVC_SEQ_LEN c) ≠ 0
      let d (z : SvcCore) := setSvcCore (advance s.dev (max t y.nextScan)) c z
      y.timed = true →
       (y.scan = none → on → svcCaling s.dev c = false →
         Gives (.scanStart t c) s (svcNext (startScan (d { y with timed := true, nextScan := y.nextScan + per }) c) c)) ∧
       (y.scan = none → ¬on → Gives (.scanStart t c) s (svcNext (d { y with timed := false }) c)) ∧
       (on → svcCaling s.dev c = true → y.deferred = false →
         Gives (.scanStart t c) s (d { y with timed := true, nextScan := y.nextScan + per, deferred := true })) ∧
       (y.scan ≠ none → svcCaling s.dev c = false →
         Gives (.scanStart t c) s (raise (bump (d { y with nextScan := y.nextScan + per }) pgSvc (overrunsF c)) pgSvc 8))) ∧
     (∀ i < 8, Reach s.dev pgSvc → isControl s.dev (64 + i) = false →
       Gives (.injGo t (2 ^ i)) s (advance s.dev t)) ∧
     (∀ i < 8, i / 4 = c → Reach s.dev pgSvc → isControl s.dev (64 + i) = true → svcCaling s.dev c = false →
       let w := svcWordOf s.dev (64 + i)
       (y.run = none → y.waiting = [] → y.paused = none → shotNear (advance s.dev t) c true = false → skipCause s.dev w = 0 →
         Does (.injGo t (2 ^ i)) s (fun d =>
           (svcCore d c).run = some ⟨64 + i, 1, w, wSettle w, 0, 0, none, d.ticks, false, 0,
              ((wSfe w).map (fun n => flagR s.dev pgSfe (F.SFE_CLAMP n))).getD false⟩ ∧ (svcCore d c).waiting = [] ∧
           getR d pgSvc F.SVC_CONTROL_RUNS = min (getR s.dev pgSvc F.SVC_CONTROL_RUNS + 1) (2 ^ 32 - 1) ∧
           d.evt = s.dev.evt ∧ d.mem = s.dev.mem)) ∧
       (∀ r, y.run = some r → r.kind ≠ 0 → (64 + i) ∈ y.waiting →
         Gives (.injGo t (2 ^ i)) s (bump (advance s.dev t) pgSvc F.SVC_CONTROL_MERGED))) ∧
     (∀ i < 8, (∀ e ∈ s.dev.svcShots, e.2 ≠ i) → Gives (.shotTrigger t i) s (advance s.dev t)) ∧
     (∀ i a, i < 8 → i / 4 = c → s.dev.svcShots = [(a, i)] → flagL s.dev pgSvc (F.SVC_INJ_EN i) = true →
       flagL s.dev pgSvc (F.SVC_INJ_CLASS i) = true →
       let w := getL s.dev pgSvc (F.SVC_INJ_WORD i)
       let d := { advance s.dev (max t a) with svcShots := [] }
       (svcCaling s.dev c = true → Gives (.shotTrigger t i) s (bump d pgSvc F.SVC_SHOT_DROPS_CAL)) ∧
       (svcCaling s.dev c = false → wReserved w = true ∨ wSfe w ≠ none →
         Gives (.shotTrigger t i) s (bump d pgSvc F.SVC_ENTRY_SKIPS)) ∧
       (svcCaling s.dev c = false → wReserved w = false → wSfe w = none → ∀ r, y.run = some r → r.kind ≠ 0 →
         Gives (.shotTrigger t i) s (raise (bump d pgSvc F.SVC_SHOT_DROPS) pgSvc 9)) ∧
       (svcCaling s.dev c = false → wReserved w = false → wSfe w = none → (∀ r, y.run = some r → r.kind = 0) →
         Does (.shotTrigger t i) s (fun d => a ≤ d.ticks ∧ d.svcShots = [] ∧
           (svcCore d c).run = some ⟨64 + i, 2, w, 0, 0, 0, none, d.ticks, false, 0, false⟩ ∧
           (∀ r, y.run = some r → ∃ z, (svcCore d c).paused = some z ∧ z.x = r.x ∧ z.sum = r.sum ∧ z.n = r.n ∧
             z.settle = r.settle ∧ (wSfe r.word = none → z = r)) ∧
           getR d pgSvc F.SVC_SHOT_RUNS = min (getR s.dev pgSvc F.SVC_SHOT_RUNS + 1) (2 ^ 32 - 1) ∧
           d.evt = s.dev.evt ∧ d.mem = s.dev.mem)))) ∧
  (∀ (s : State) (t c : Nat) (ofs : Int) (trim : Nat) (ok : Bool), c < 2 → Awake s →
     (svcAsked (advance s.dev t) c = none → Gives (.svcCalStart t c) s (advance s.dev t)) ∧
     (∀ a, svcAsked (advance s.dev t) c = some a → injBusy s.dev c = false → Does (.svcCalStart t c) s (fun d =>
       d.svcCal.run = c + 1 ∧ flagR d pgSvc (calBit c) = true ∧ (svcCore d c).run = none ∧
       (evtRaw d pgSvc).testBit 10 = true ∧ d.svcRec = s.dev.svcRec ∧ d.mem = s.dev.mem)) ∧
     (svcCaling s.dev c = false → Gives (.svcCalDone t c ⟨ofs, trim⟩ ok) s (advance s.dev t)) ∧
     (c = 0 → svcCaling s.dev 0 = true → -16384 ≤ ofs → ofs ≤ 16384 → 498074 ≤ trim → trim ≤ 550502 →
       (ofs - getS s.dev pgSvc (F.SVC_OFS 0)).natAbs ≤ 2048 →
       ((trim : Int) - (getR s.dev pgSvc (F.SVC_TRIM 0) : Int)).natAbs ≤ 5242 →
       Does (.svcCalDone t 0 ⟨ofs, trim⟩ ok) s (fun d => getS d pgSvc (F.SVC_OFS 0) = ofs ∧ getR d pgSvc (F.SVC_TRIM 0) = trim ∧
         isCal d pgSvc 0 = false ∧ d.svcCal.run = 3 ∧ flagR d pgSvc F.SVC_CAL0 = false ∧ d.mem = s.dev.mem)) ∧
     (c = 0 → svcCaling s.dev 0 = true → 16384 < ofs → Does (.svcCalDone t 0 ⟨ofs, trim⟩ ok) s (fun d =>
       getS d pgSvc (F.SVC_OFS 0) = getS s.dev pgSvc (F.SVC_OFS 0) ∧
       getR d pgSvc (F.SVC_TRIM 0) = getR s.dev pgSvc (F.SVC_TRIM 0) ∧ isCal d pgSvc 0 = isCal s.dev pgSvc 0 ∧
       d.svcCal.run = 3 ∧ s.dev.ledgerOut.length < d.ledgerOut.length ∧ d.mem = s.dev.mem)) ∧
     (c = 1 → svcCaling s.dev 1 = true → Does (.svcCalDone t 1 ⟨ofs, trim⟩ ok) s (fun d => d.svcCal.run = 0 ∧
       flagR d pgSvc F.SVC_CAL1 = false ∧ getR d pgSvc F.SVC_PASSES = min (getR s.dev pgSvc F.SVC_PASSES + 1) (2 ^ 32 - 1) ∧
       s.dev.ledgerOut.length < d.ledgerOut.length ∧
       ((evtRaw d pgSvc).testBit 11 = true ∨ (evtRaw d pgSvc).testBit 12 = true))))

/-- R286–R290: a measurement of a clamped channel is discarded and counted; a 4-wire OHMS measurement gives
REF_R × V / V_REF; a check starts when due and classifies by |Z|; a clamp and a broken wire take OK away, and a break
changes no record. -/
def Obligations.SensorChannelsMeasureAndCheck : Prop :=
  ∀ (s : State) (t c n : Nat) (raw : List Int), c < 2 → n < 8 → Awake s →
    let p := pgSfe
    ((svcCore s.dev c).run = none → Gives (.sfeMeasurement t c raw) s (advance s.dev t)) ∧
    (∀ r, (svcCore s.dev c).run = some r → wSfe r.word = some n →
      let g := phaseSums s.dev c (2 ^ min 6 (wAvg r.word)) 2 raw
      (r.bad = true → Does (.sfeMeasurement t c raw) s (fun d =>
        getR d p (F.SFE_CLAMPS n) = min (getR s.dev p (F.SFE_CLAMPS n) + 1) (2 ^ 32 - 1) ∧ d.svcRec = s.dev.svcRec ∧
        getR d p (F.SFE_TEMP n) = getR s.dev p (F.SFE_TEMP n) ∧ d.mem = s.dev.mem)) ∧
      (r.bad = false → Does (.sfeMeasurement t c raw) s (fun d =>
        (svcRecOf d r.x).count = min ((svcRecOf s.dev r.x).count + 1) (2 ^ 32 - 1) ∧ r.at_ + sfeTicks s.dev n r.word - r.used ≤ d.ticks ∧
        getR d p (F.SFE_MEASUREMENTS n) = min (getR s.dev p (F.SFE_MEASUREMENTS n) + 1) (2 ^ 32 - 1) ∧ d.mem = s.dev.mem)) ∧
      (r.bad = false → getL s.dev p (F.SFE_WIRE n) = 2 → getL s.dev p (F.SFE_TYPE n) = 2 →
        g.getD 1 0 ≠ 0 → Does (.sfeMeasurement t c raw) s (fun d =>
          (svcRecOf d r.x).val = clampI 0 (2 ^ 32 - 1)
            (rneRat ((getL s.dev p F.SFE_REF_R : Rat) * (g.getD 0 0 : Rat) / (g.getD 1 0 : Rat))) ∧
          getR d p (F.SFE_MEASUREMENTS n) = min (getR s.dev p (F.SFE_MEASUREMENTS n) + 1) (2 ^ 32 - 1) ∧
          d.mem = s.dev.mem))) ∧
    (flagL s.dev p (F.SFE_CHECK_EN n) = false → Gives (.sfeCheck t n) s (advance s.dev t)) ∧
    (flagL s.dev p (F.SFE_CHECK_EN n) = true → (sfeSt s.dev n).check = none → sfeBusy s.dev n = false →
      (sfeSt s.dev n).lastCheck + (if getR s.dev p (F.SFE_CLASS n) = 2 then 100000000
        else 100000000 * max 1 (getL s.dev p (F.SFE_CHECK_S n))) ≤ max s.dev.ticks t →
      Does (.sfeCheck t n) s (fun d => (sfeSt d n).check = some d.ticks ∧ (sfeSt d n).lastCheck = d.ticks ∧
        getR d p cSTATE = 1 ∧ d.evt = s.dev.evt ∧ d.mem = s.dev.mem)) ∧
    (∀ z l, (sfeSt s.dev n).check = none → Gives (.sfeCheckDone t n z l) s (advance s.dev t)) ∧
    (∀ a z, (sfeSt s.dev n).check = some a → Does (.sfeCheckDone t n z []) s (fun d =>
      (sfeSt d n).check = none ∧ a + 1638400 ≤ d.ticks ∧ getR d p (F.SFE_Z_LAST n) = min z (2 ^ 32 - 1) ∧
      (3200000 < z → getR d p (F.SFE_CLASS n) = 2) ∧ (z < 32 → getR d p (F.SFE_CLASS n) = 3) ∧
      (32 ≤ z → z ≤ 3200000 → z < 16 * getL s.dev p (F.SFE_ZLO n) ∨ 16 * getL s.dev p (F.SFE_ZHI n) < z →
        getR d p (F.SFE_CLASS n) = 4) ∧
      (32 ≤ z → z ≤ 3200000 → 16 * getL s.dev p (F.SFE_ZLO n) ≤ z → z ≤ 16 * getL s.dev p (F.SFE_ZHI n) →
        getR d p (F.SFE_CLASS n) = 1 ∧ (flagR s.dev p (F.SFE_CLAMP n) = false → flagR d p (F.SFE_OK n) = true)) ∧
      d.mem = s.dev.mem)) ∧
    Does (.sfeClamp t n) s (fun d => flagR d p (F.SFE_CLAMP n) = true ∧ flagR d p (F.SFE_OK n) = false ∧
      (flagR s.dev p (F.SFE_CLAMP n) = false → (evtRaw d p).testBit 9 = true) ∧ d.svcRec = s.dev.svcRec ∧
      d.mem = s.dev.mem) ∧
    Does (.sfeClampRelease t n) s (fun d => flagR d p (F.SFE_CLAMP n) = false ∧ d.evt = s.dev.evt ∧ d.mem = s.dev.mem) ∧
    (sfeBusy s.dev n = false → (sfeSt s.dev n).check = none → Gives (.wireBreak t n) s (advance s.dev t)) ∧
    (sfeBusy s.dev n = true ∨ (sfeSt s.dev n).check ≠ none → Does (.wireBreak t n) s (fun d => (sfeSt d n).check = none ∧
      getR d p (F.SFE_BREAKS n) = min (getR s.dev p (F.SFE_BREAKS n) + 1) (2 ^ 32 - 1) ∧ getR d p (F.SFE_CLASS n) = 2 ∧
      flagR d p (F.SFE_OK n) = false ∧ (evtRaw d p).testBit 10 = true ∧ d.svcRec = s.dev.svcRec ∧ d.mem = s.dev.mem))

/-- R292–R295: a tick with a fresh valid input computes the output of R293; one without holds the output and counts, and
the FAIL_TICKS-th such tick sets FAIL_OUT, LOOP_FAIL and a Ledger entry; a PWM period takes the floor of
u × PWM_PER / 65,536 as its high time, and 0 after the thermal trip; a tick of a loop on a CONTROL entry triggers that
entry. -/
def Obligations.LoopsComputeHoldAndFail : Prop :=
  ∀ (s : State) (t k : Nat), k < 8 → Awake s →
    let l := loop_ s.dev k
    let f (g : Nat → Fld) : Nat := lpv s.dev (g k)
    let y := (svcRecOf s.dev (f F.LOOP_IN_SEL)).val
    let was := getR s.dev pgLoop (F.LOOP_OUT_NOW k)
    let e := lps s.dev (F.LOOP_SP k) - y
    let i := clampI (f F.LOOP_OUT_MIN * 65536) (f F.LOOP_OUT_MAX * 65536) (l.i + lps s.dev (F.LOOP_KI k) * e)
    (l.on = false → Gives (.loopTick t k) s (advance s.dev t)) ∧
    (l.on = true → isControl s.dev (f F.LOOP_IN_SEL) = false → l.fresh = true → l.calHold = false → l.first = false →
      f F.LOOP_IN_SEL < 72 → inputOk s.dev (f F.LOOP_IN_SEL) = true → lstateOf s.dev k = 1 →
      flagL s.dev pgLoop (F.LOOP_POL k) = false → lps s.dev (F.LOOP_KD k) = 0 → -(2 ^ 31) ≤ e → e < 2 ^ 31 →
      f F.LOOP_OUT_MIN < was → was < f F.LOOP_OUT_MAX → f F.LOOP_OUT_MAX < 65536 → Does (.loopTick t k) s (fun d =>
        (getR d pgLoop (F.LOOP_OUT_NOW k) : Int) =
          clampI (f F.LOOP_OUT_MIN) (f F.LOOP_OUT_MAX) (rne (lps s.dev (F.LOOP_KP k) * e + i) 65536) ∧
        (loop_ d k).i = i ∧ (loop_ d k).yPrev = y ∧ lstateOf d k = 1 ∧ l.next ≤ d.ticks ∧
        (∀ j, j ≠ k → loop_ d j = loop_ s.dev j) ∧ d.mem = s.dev.mem)) ∧
    (l.on = true → isControl s.dev (f F.LOOP_IN_SEL) = true → l.asked = false → Gives (.loopTick t k) s
      (svcControl (setLoop (advance s.dev (max t l.next)) k { l with
        next := l.next + 100 * clampN 10 1000000 (f F.LOOP_PERIOD), fresh := false, asked := true }) (f F.LOOP_IN_SEL))) ∧
    (l.on = true → isControl s.dev (f F.LOOP_IN_SEL) = false → l.fresh = false → l.calHold = false →
      lstateOf s.dev k ≠ 3 →
      (f F.LOOP_FAIL_TICKS = 0 ∨ l.hold + 1 < f F.LOOP_FAIL_TICKS → Does (.loopTick t k) s (fun d =>
        getR d pgLoop (F.LOOP_OUT_NOW k) = was ∧ (loop_ d k).i = l.i ∧ (loop_ d k).hold = l.hold + 1 ∧
        lstateOf d k = 2 ∧ getR d pgLoop (F.LOOP_HOLD_TICKS k) =
          min (getR s.dev pgLoop (F.LOOP_HOLD_TICKS k) + 1) (2 ^ 32 - 1) ∧ d.out = s.dev.out ∧ d.evt = s.dev.evt ∧
        d.mem = s.dev.mem)) ∧
      (f F.LOOP_FAIL_TICKS ≠ 0 → f F.LOOP_FAIL_TICKS ≤ l.hold + 1 → Does (.loopTick t k) s (fun d =>
        getR d pgLoop (F.LOOP_OUT_NOW k) = f F.LOOP_FAIL_OUT % 65536 ∧ lstateOf d k = 3 ∧
        (evtRaw d pgLoop).testBit 9 = true ∧ d.ledgerOut.length = s.dev.ledgerOut.length + 1 ∧ d.mem = s.dev.mem))) ∧
    (f F.LOOP_OUT_SEL % 2 = 0 → Gives (.pwmPeriod t k) s (advance s.dev t)) ∧
    (f F.LOOP_OUT_SEL % 2 = 1 → Does (.pwmPeriod t k) s (fun d =>
      let per := max 100 (f F.LOOP_PWM_PER)
      Output.pwm k d.ticks (if s.dev.gatesHeld then 0 else was * per / 65536) per (flagL s.dev pgLoop (F.LOOP_POL_OUT k)) ∈ d.out ∧
      (loop_ d k).pwmAt = d.ticks + per ∧ l.pwmAt ≤ d.ticks ∧ d.regs = s.dev.regs ∧ d.evt = s.dev.evt ∧
      d.mem = s.dev.mem))

/-! ## Time, Photo-finish, Baton, shelves (R299–R342) -/

/-- R300, R302–R304: what steers the counter. An edge under STEP_TH is accepted; one above it steps a counter that is
neither locked nor held, and is rejected by one that is; a label sets the counter; without an accepted edge for 3 s a
locked servo enters HOLDOVER; OCXO_WARM follows its conditions; and HOLD_EXCEEDED is set at HOLD_LIMIT. -/
def Obligations.TimeFollowsItsReference : Prop :=
  ∀ (s : State) (t p : Nat), p < 10000 → Awake s →
    let x := s.dev.time
    let at_ : Int := 125 * tai (advance s.dev t) + 8192 * ((p : Int) - getS s.dev pgTime F.TIME_PPS_DELAY)
    let e := at_ - (at_ + 125 * secU / 2) / (125 * secU) * (125 * secU)
    let small : Prop := e.natAbs ≤ getR s.dev pgTime F.TIME_STEP_TH * 8192000
    let plain : Prop := isMaster s.dev = true ∧ x.armed = false ∧ x.lagSecond = none
    let edges (d : Dev) : Prop :=
      getR d pgTime F.TIME_PPS_EDGES = min (getR s.dev pgTime F.TIME_PPS_EDGES + 1) (2 ^ 32 - 1)
    (isMaster s.dev = false → Gives (.ppsEdge t p) s (advance s.dev t)) ∧
    (plain → small → x.locked = true → Does (.ppsEdge t p) s (fun d => edges d ∧ d.time.locked = true ∧
      d.time.base = x.base ∧ d.time.refPresent = true ∧ d.time.lastEdge = some (max s.dev.ticks t, (p : Int)) ∧
      d.mem = s.dev.mem)) ∧
    (plain → ¬small → x.locked = true → x.fresh = false → x.rejects = [] → Does (.ppsEdge t p) s (fun d => edges d ∧
      d.time.locked = true ∧ d.time.base = x.base ∧ d.time.rejects = [e] ∧
      getR d pgTime F.TIME_PPS_REJECTS = min (getR s.dev pgTime F.TIME_PPS_REJECTS + 1) (2 ^ 32 - 1) ∧
      d.evt = s.dev.evt ∧ d.mem = s.dev.mem)) ∧
    (plain → ¬small → x.locked = false → x.held = false → Does (.ppsEdge t p) s (fun d => edges d ∧
      d.time.base = x.base - rne e 125 ∧ d.ticks = max s.dev.ticks t + 1 ∧ d.time.accRun = 0 ∧ d.mem = s.dev.mem)) ∧
    (Reach s.dev pgTime → isMaster s.dev = false → Gives (.setArm t) s (advance s.dev t)) ∧
    (Reach s.dev pgTime → isMaster s.dev = true → setSrc s.dev = 0 → Gives (.setArm t) s
      { advance s.dev t with time := { x with armed := true } }) ∧
    (Reach s.dev pgTime → isMaster s.dev = true → setSrc s.dev = 1 → Does (.setArm t) s (fun d =>
      tai d = (getR s.dev pgTime F.TIME_SET_S : Int) * secU + (getR s.dev pgTime F.TIME_SET_NS : Int) * 65536 ∧
      d.ticks = max s.dev.ticks t + 1 ∧ d.time.isSet = true ∧ flagR d pgTime F.TIME_LABEL_BACKUP = false ∧
      d.mem = s.dev.mem)) ∧
    (∀ ok utc, isMaster s.dev = false ∨ setSrc s.dev ≠ 2 → Gives (.todSentence t ok utc) s (advance s.dev t)) ∧
    (∀ utc, isMaster s.dev = true → setSrc s.dev = 2 →
      Gives (.todSentence t false utc) s (bump (advance s.dev t) pgTime F.TIME_TOD_BAD)) ∧
    (∀ utc, isMaster s.dev = true → setSrc s.dev = 2 → flagR s.dev pgTime F.TIME_TOD_LAG = true →
      Gives (.todSentence t true utc) s
        { advance s.dev t with time := { x with lagSecond := some (utc + getS s.dev pgTime F.TIME_TAI_UTC) } }) ∧
    (∀ utc, isMaster s.dev = true → setSrc s.dev = 2 → flagR s.dev pgTime F.TIME_TOD_LAG = false → x.lastEdge = none →
      Gives (.todSentence t true utc) s (advance s.dev t)) ∧
    (∀ utc k q, isMaster s.dev = true → setSrc s.dev = 2 → flagR s.dev pgTime F.TIME_TOD_LAG = false →
      x.lastEdge = some (k, q) → x.todDone = false → Does (.todSentence t true utc) s (fun d => d.time.isSet = true ∧
        d.time.todDone = true ∧ flagR d pgTime F.TIME_LABEL_BACKUP = false ∧
        d.time.base + 655360 * (k : Int) + rne (8192 * q) 125 =
          (utc + getS s.dev pgTime F.TIME_TAI_UTC) * secU + ppsDelay s.dev ∧ d.mem = s.dev.mem)) ∧
    (∀ off, x.windowStart = none → Gives (.freqWindowEnd t off) s (advance s.dev t)) ∧
    (∀ off a, x.windowStart = some a → Does (.freqWindowEnd t off) s (fun d =>
      d.time.windows = (off :: x.windows).take 3 ∧ d.time.windowStart = some (a + 10000000000) ∧
      a + 10000000000 ≤ d.ticks ∧ d.time.base = x.base ∧ d.mem = s.dev.mem)) ∧
    (∀ on, Does (.ocxoRdyChange t on) s (fun d => d.time.ocxoRdy = on ∧ d.time.base = x.base ∧
      (flagR s.dev pgTime F.TIME_READY_EN = true → on = false → flagR d pgTime F.TIME_OCXO_WARM = false ∧
        (flagR s.dev pgTime F.TIME_OCXO_WARM = true → (evtRaw d pgTime).testBit 11 = true)))) ∧
    (Does (.warmMinExpiry t) s (fun d => x.warmFrom + 100000000 * getR s.dev pgTime F.TIME_WARM_MIN_S ≤ d.ticks ∧
      (flagR s.dev pgTime F.TIME_READY_EN = false → x.ovenBad = false → x.refPresent = false →
        flagR d pgTime F.TIME_OCXO_WARM = true) ∧ d.time.base = x.base)) ∧
    (x.lastEdge = none → Gives (.ppsMissingTimeout t) s (advance s.dev t)) ∧
    (∀ k q, x.lastEdge = some (k, q) → isMaster s.dev = true → x.refPresent = true → x.locked = true →
      Does (.ppsMissingTimeout t) s (fun d => k + 300000000 ≤ d.ticks ∧ d.time.locked = false ∧ d.time.held = true ∧
        d.time.refPresent = false ∧ (evtRaw d pgTime).testBit 12 = true ∧
        (x.isSet = true → flagR d pgTime F.TIME_OCXO_WARM = true → timeState d = 4) ∧
        getR d pgTime F.TIME_PPS_MISSING = min (getR s.dev pgTime F.TIME_PPS_MISSING + 1) (2 ^ 32 - 1))) ∧
    (timeState s.dev ≠ 4 → Gives (.holdLimitExpiry t) s (advance s.dev t)) ∧
    (timeState s.dev = 4 → flagR s.dev pgTime F.TIME_HOLD_EXCEEDED = false → Does (.holdLimitExpiry t) s (fun d =>
      x.holdStart + 100000000 * getR s.dev pgTime F.TIME_HOLD_LIMIT ≤ d.ticks ∧
      flagR d pgTime F.TIME_HOLD_EXCEEDED = true ∧ (evtRaw d pgTime).testBit 13 = true ∧ d.time.base = x.base))

/-- R308–R314: what the time is served by. At a second boundary outputs squelch or resume, and an enabled PPS output of
a qualified time pulses; a leap second moves TAI_UTC and clears LEAP; a PTP port in MASTER sends Sync, Follow_Up,
Announce and Delay_Resp at its intervals and counts what it hears, another only counts the frames it receives; ESMC carries the quality level. -/
def Obligations.TimeIsServed : Prop :=
  ∀ (s : State) (t i : Nat), i < 2 → Awake s →
    let x := s.dev.time
    let p := pgPtp i
    let d0 := advance s.dev t
    let cur := tai d0 / secU
    let k := if x.secDone < cur then cur else x.secDone + 1
    let on := (List.range 7).filter (fun o => flagR s.dev pgPps (outEn o))
    let u := getS s.dev pgTime F.TIME_TAI_UTC
    let dom : Int := getR s.dev p F.PTP_DOMAIN
    Does (.secondBoundary t) s (fun d => d.time.secDone = k ∧ k * secU ≤ tai d ∧ d.time.outOn = on ∧
      d.time.squelched = (if flagR s.dev pgTime F.TIME_QUALIFIED then []
        else on.filter (fun o => flagR s.dev pgPps (outSquelch o))) ∧
      (∀ j < 4, flagR s.dev pgPps (outEn j) = true → flagR s.dev pgTime F.TIME_QUALIFIED = true →
        timeState s.dev ≠ 0 → isFenced s.dev regTime = false →
        getR d pgPps (F.PPS_PULSES j) = min (getR s.dev pgPps (F.PPS_PULSES j) + 1) (2 ^ 32 - 1)) ∧ d.mem = s.dev.mem) ∧
    (x.zdaDone = x.secDone → Gives (.todOutStart t) s d0) ∧
    (x.zdaDone ≠ x.secDone → Does (.todOutStart t) s (fun d => d.time.zdaDone = x.secDone ∧
      (outRuns s.dev 6 = false → d.out = s.dev.out) ∧ (outRuns s.dev 6 = true → d.out.length = s.dev.out.length + 1) ∧
      d.regs = s.dev.regs ∧ d.evt = s.dev.evt)) ∧
    (getR s.dev pgTime F.TIME_LEAP ≠ 1 → getR s.dev pgTime F.TIME_LEAP ≠ 2 → Gives (.leapSecond t) s d0) ∧
    (getR s.dev pgTime F.TIME_LEAP = 1 → u < 32767 → Does (.leapSecond t) s (fun d =>
      getS d pgTime F.TIME_TAI_UTC = u + 1 ∧ getR d pgTime F.TIME_LEAP = 0 ∧
      RegsBut [(pgTime, F.TIME_TAI_UTC), (pgTime, F.TIME_LEAP)] d s.dev ∧ d.evt = s.dev.evt)) ∧
    (getR s.dev pgTime F.TIME_LEAP = 2 → -32768 < u → Does (.leapSecond t) s (fun d =>
      getS d pgTime F.TIME_TAI_UTC = u - 1 ∧ getR d pgTime F.TIME_LEAP = 0)) ∧
    (ptpOn s.dev i = false → Gives (.syncTx t i) s d0 ∧ Gives (.announceTx t i) s d0 ∧
      ∀ c, ∀ q ∈ [Instr.delayReq t i c, .foreignAnnounce t i, .ptpUnsupported t i], Gives q s (rxFrame d0 i)) ∧
    (ptpOn s.dev i = true →
      let z := ptpSt s.dev i
      let e := advance s.dev (max t z.syncAt)
      let d1 := bump (setPtp e i { z with syncAt := e.ticks + syncTicks s.dev i }) p F.PTP_SYNC_TX
      let every : Int := if flagR s.dev p F.PTP_PROFILE then -4 else getS s.dev p F.PTP_LOG_MINDR
      (flagR s.dev p F.PTP_ONE_STEP = true → Gives (.syncTx t i) s (ptpSend d1 i 3 [dom, txStamp e i])) ∧
      (flagR s.dev p F.PTP_ONE_STEP = false → Gives (.syncTx t i) s
        (ptpSend (ptpSend d1 i 3 [dom]) i 4 [dom, txStamp e i])) ∧
      Does (.announceTx t i) s (fun d => z.annAt ≤ d.ticks ∧ (ptpSt d i).annAt = d.ticks + annTicks s.dev i ∧
        (subUp s.dev i 0 = false → d.out = s.dev.out) ∧
        (subUp s.dev i 0 = true → ∃ l, d.out = s.dev.out ++ [.ether i 0 5 l] ∧ u ∈ l ∧
          (∀ a ∈ announced s.dev, (a : Int) ∈ l)) ∧ d.evt = s.dev.evt) ∧
      (∀ c, z.sec ≠ taiSec (tai d0) → Does (.delayReq t i c) s (fun d => (ptpSt d i).count = 1 ∧
        (subUp s.dev i 0 = false → d.out = s.dev.out) ∧
        (subUp s.dev i 0 = true → d.out = s.dev.out ++ [.ether i 0 6 [(c : Int), rxStamp d0 i, every]]) ∧
        getR d p F.PTP_DREQ_RX = min (getR s.dev p F.PTP_DREQ_RX + 1) (2 ^ 32 - 1) ∧ d.evt = s.dev.evt))) ∧
    (ptpOn s.dev i = true → ∀ c, (ptpSt s.dev i).sec = taiSec (tai d0) → 4096 ≤ (ptpSt s.dev i).count →
      Gives (.delayReq t i c) s (bump (bump (rxFrame d0 i) p F.PTP_DREQ_RX) p F.PTP_DREQ_DROPS)) ∧
    (ptpOn s.dev i = true → (ptpSt s.dev i).foreignAt = none → Does (.foreignAnnounce t i) s (fun d =>
      (evtRaw d p).testBit 8 = true ∧ getR d p cSTATE = getR s.dev p cSTATE ∧
      getR d p F.PTP_FOREIGN_ANN = min (getR s.dev p F.PTP_FOREIGN_ANN + 1) (2 ^ 32 - 1) ∧ d.out = s.dev.out)) ∧
    (ptpOn s.dev i = true → Gives (.ptpUnsupported t i) s (bump (rxFrame d0 i) p F.PTP_IGNORED)) ∧
    (flagR s.dev p F.PTP_ESMC_EN = false → Gives (.esmcTx t i) s d0) ∧
    (flagR s.dev p F.PTP_ESMC_EN = true →
      let e := advance s.dev (max t (ptpSt s.dev i).esmcAt)
      Gives (.esmcTx t i) s
        (ptpSend (setPtp e i { ptpSt s.dev i with esmcAt := e.ticks + 100000000 }) i 7 [esmcQl s.dev]))

/-- R316, R318–R320, R324: ARM and DISARM; an INTERVAL start opens a measurement and the first stop at or after it ends
it with the interval, an edge in its window's close tick being late; a window that runs out without a stop is a timeout;
a pass starts once, and its values within the limits become live and end CAL_STALE. -/
def Obligations.PhotoFinishMeasures : Prop :=
  ∀ (s : State) (t i : Nat), i < 8 → Awake s →
    let p := pgPf i
    let x := pfSt s.dev i
    let c := pfCfg s.dev i
    (Reach s.dev p → getR s.dev p cSTATE = 0 → Gives (.pfArm t i) s (setR (advance s.dev t) p cSTATE 1)) ∧
    (Reach s.dev p → getR s.dev p cSTATE ≠ 0 → Gives (.pfArm t i) s (advance s.dev t)) ∧
    (Reach s.dev p → Does (.pfDisarm t i) s (fun d => getR d p cSTATE = 0 ∧ (pfSt d i).run = none ∧
      RegsBut [(p, cSTATE)] d s.dev ∧ d.evt = s.dev.evt ∧ d.mem = s.dev.mem)) ∧
    (∀ src fall ce v0 v1, 56 ≤ src → src < 64 → v0 < 4096 → v1 < 4096 →
      Gives (.pfEdge t i src fall ce v0 v1) s (advance s.dev t)) ∧
    (∀ ce v0 v1, v0 < 4096 → v1 < 4096 → x.run = none → getR s.dev p cSTATE = 1 → c.mode = 0 → c.srcStart = 0 →
      c.srcStop = 1 → c.edgeStart = 0 → x.last0 = none → x.early = [] → Does (.pfEdge t i 0 false ce v0 v1) s (fun d =>
        (∃ r, (pfSt d i).run = some r ∧ r.at_ = pfTime s.dev i 0 ce v0 ∧ r.cfg = c) ∧ getR d p cSTATE = 2 ∧
        RegsBut [(p, cSTATE)] d s.dev ∧ d.evt = s.dev.evt ∧ d.mem = s.dev.mem)) ∧
    (∀ ce v0 v1 r, v0 < 4096 → v1 < 4096 → x.run = some r → r.cfg.mode = 0 → r.cfg.srcStart = 0 → r.cfg.srcStop = 1 →
      r.cfg.edgeStop = 0 → r.cfg.open_ ≤ 0 → r.ambig = false → x.last1 = none →
      getR s.dev p cSTATE = 2 →
      let q := pfTime s.dev i 1 ce v1
      let bumped (d : Dev) (f : Fld) : Prop := getR d p f = min (getR s.dev p f + 1) (2 ^ 32 - 1)
      (r.at_ ≤ q → pfTick q < pfTick r.at_ + r.cfg.close → q - r.at_ < 2 ^ 31 →
        Does (.pfEdge t i 1 false ce v0 v1) s (fun d => getS d p F.PF_LAST = q - r.at_ ∧ (pfSt d i).run = none ∧
          getR d p F.PF_AMBIG = b2n (pfNear r.cfg (pfTick r.at_) q) ∧ bumped d F.PF_RESULTS ∧ d.mem = s.dev.mem)) ∧
      (q < r.at_ → pfTick q < pfTick r.at_ + r.cfg.close → Does (.pfEdge t i 1 false ce v0 v1) s (fun d =>
        (pfSt d i).run = some r ∧ bumped d F.PF_ORDER ∧ (evtRaw d p).testBit 10 = true ∧
        getR d p F.PF_RESULTS = getR s.dev p F.PF_RESULTS)) ∧
      (pfTick q = pfTick r.at_ + r.cfg.close → x.best = none → c.mode = 0 → Does (.pfEdge t i 1 false ce v0 v1) s (fun d =>
        (pfSt d i).run = none ∧ bumped d F.PF_TIMEOUTS ∧ bumped d F.PF_LATE ∧
        getR d p F.PF_RESULTS = getR s.dev p F.PF_RESULTS))) ∧
    (x.run = none → Gives (.pfWindowClose t i) s (advance s.dev t)) ∧
    (∀ r, x.run = some r → x.best = none → Does (.pfWindowClose t i) s (fun d => (pfSt d i).run = none ∧
      getR d p cSTATE = 1 ∧ (evtRaw d p).testBit 11 = true ∧ pfTick r.at_ + r.cfg.close ≤ 5 * (d.ticks : Int) ∧
      getR d p F.PF_TIMEOUTS = min (getR s.dev p F.PF_TIMEOUTS + 1) (2 ^ 32 - 1) ∧
      RegsBut [(p, cSTATE), (p, F.PF_TIMEOUTS)] d s.dev ∧ d.mem = s.dev.mem)) ∧
    (Reach s.dev p → x.calRun = true → Gives (.pfCalReq t i) s (advance s.dev t)) ∧
    (Reach s.dev p → x.calRun = false → Gives (.pfCalReq t i) s (setPf (advance s.dev t) i { x with
      calRun := true, calWas := [isCal s.dev p 0, isCal s.dev p 1], lastPass := max s.dev.ticks t })) ∧
    (pfDue (advance s.dev t) i = false → Gives (.pfCalPass t i) s (advance s.dev t)) ∧
    (pfDue (advance s.dev t) i = true → Gives (.pfCalPass t i) s (pfPass (advance s.dev t) i)) ∧
    (∀ a b, a < 65536 → b < 65536 → x.calRun = false → Gives (.pfCalDone t i a b a b) s (advance s.dev t)) ∧
    (∀ a b, x.calRun = true → x.calWas = [true, true] → flagR s.dev p F.PF_DEGRADED = false → 12800 ≤ a → a ≤ 24000 →
      a + 24000 ≤ b → b ≤ a + 40000 → b < 65536 → Does (.pfCalDone t i a b a b) s (fun d =>
        (∀ u < 2, getR d p (F.PF_K1 u) = a ∧ getR d p (F.PF_K2 u) = b ∧ isCal d p u = false) ∧
        (pfSt d i).calRun = false ∧ (pfSt d i).rejRun = 0 ∧ d.evt = s.dev.evt ∧ d.mem = s.dev.mem)) ∧
    (∀ a b, x.calRun = true → a < 12800 → b < 65536 → Does (.pfCalDone t i a b a b) s (fun d =>
      (∀ u < 2, getR d p (F.PF_K1 u) = getR s.dev p (F.PF_K1 u) ∧ isCal d p u = isCal s.dev p u) ∧
      (pfSt d i).rejRun = x.rejRun + 1 ∧ (evtRaw d p).testBit 12 = true ∧
      getR d p F.PF_CAL_REJECTS = min (getR s.dev p F.PF_CAL_REJECTS + 1) (2 ^ 32 - 1) ∧ d.mem = s.dev.mem))

/-- R325–R328: a link that comes UP or goes down is shown, counted when it leaves UP, and logged; an announcement without a
conflict names the packages on its side, and the master's the way to it; a bad frame is replayed once and dropped
after that; a master announcement on DOWN is a CONFIG_FAULT; the exchange gives delay and offset; a hop is calibrated
10 s after its link came UP. -/
def Obligations.BatonLinksFollowTheirRules : Prop :=
  ∀ (s : State) (t port : Nat), port < 2 → Awake s →
    let st := btnState s.dev port
    let b := pgBtn
    (∀ v, v < 3 → v = st → Gives (.batonLinkChange t port v) s (advance s.dev t)) ∧
    (st = 2 → Does (.batonLinkChange t port 0) s (fun d => btnState d port = 0 ∧ (evtRaw d b).testBit 9 = true ∧
      getR d b F.BTN_LINK_DOWNS = min (getR s.dev b F.BTN_LINK_DOWNS + 1) (2 ^ 32 - 1) ∧
      (port = 0 → flagR d b F.BTN_UP_CAL = false) ∧ s.dev.ledgerOut.length < d.ledgerOut.length ∧ d.mem = s.dev.mem)) ∧
    (∀ a, st ≠ 2 → st ≠ 3 → a = getR s.dev (pgLpu 2) (F.LPUL_UNIT_STATE port) → a ≠ 1 → a ≠ 2 →
      Does (.batonLinkChange t port 2) s (fun d => btnState d port = 2 ∧ (evtRaw d b).testBit 8 = true ∧
        (if port = 0 then d.baton.upAt else d.baton.downAt) = some d.ticks ∧
        d.ledgerOut.length = s.dev.ledgerOut.length + 1 ∧ RegsBut [(b, btnFld port)] d s.dev ∧ d.mem = s.dev.mem)) ∧
    (∀ good again sig, st ≠ 2 ∨ good = true → Gives (.batonFrame t port good again sig) s (advance s.dev t)) ∧
    (∀ sig, st = 2 → Gives (.batonFrame t port false true sig) s
      (emit (bump (advance s.dev t) b F.BTN_REPLAYS) (.baton port 8 []))) ∧
    (st = 2 → Does (.batonFrame t port false false true) s (fun d =>
      (∀ f ∈ [F.BTN_REPLAYS, F.BTN_FRAME_DROPS, F.BTN_SIG_LOST], getR d b f = min (getR s.dev b f + 1) (2 ^ 32 - 1)) ∧
      RegsBut [(b, F.BTN_REPLAYS), (b, F.BTN_FRAME_DROPS), (b, F.BTN_SIG_LOST)] d s.dev ∧ d.evt = s.dev.evt)) ∧
    (∀ m idx hops l, idx < 8 → hops < 8 → st = 0 → Gives (.batonAnnounce t port m idx hops l) s (advance s.dev t)) ∧
    (∀ idx hops l, idx < 8 → hops < 8 → port = 1 → st = 2 → Does (.batonAnnounce t 1 true idx hops l) s (fun d =>
      btnState d 1 = 3 ∧ (evtRaw d b).testBit 10 = true ∧ s.dev.ledgerOut.length < d.ledgerOut.length ∧
      d.mem = s.dev.mem)) ∧
    (∀ m idx hops l, idx < 8 → hops < 8 → port = 0 → st = 1 ∨ st = 2 →
      hasTwin (pkgIndex s.dev :: (idx :: l) ++ s.dev.baton.below) = false →
      Does (.batonAnnounce t 0 m idx hops l) s (fun d => btnState d 0 = st ∧ d.baton.above = idx :: l ∧
        (m = true → isMaster s.dev = false → getR d b F.BTN_HOPS = (hops + 1) % 8 ∧
          (hops = 0 → getR d b F.BTN_MASTER_IDX = idx)) ∧
        RegsBut [(b, F.BTN_HOPS), (b, F.BTN_MASTER_IDX)] d s.dev ∧ d.evt = s.dev.evt ∧ d.mem = s.dev.mem)) ∧
    (∀ t1 t2 t3 t4 set qual ann, st = 2 → port = 1 → Does (.batonTimingWord t 1 t1 t2 t3 t4 set qual ann) s (fun d =>
      (∃ l, Output.baton 1 4 (t1 :: t4 :: l) ∈ d.out) ∧ d.time = s.dev.time ∧ d.regs = s.dev.regs ∧ d.evt = s.dev.evt)) ∧
    (∀ t1 t2 t3 t4 set qual ann, st ≠ 2 → Gives (.batonTimingWord t port t1 t2 t3 t4 set qual ann) s
      (advance s.dev t)) ∧
    (∀ t1 t2 t3 t4 set qual ann, st = 2 → port = 0 → isMaster s.dev = true →
      let del := rne ((t2 - t1) + (t4 - t3)) 2
      del < 2 ^ 31 → -(2 ^ 31) ≤ del → Does (.batonTimingWord t 0 t1 t2 t3 t4 set qual ann) s (fun d =>
        getS d b F.BTN_DELAY = del ∧ Output.baton 0 4 [t2, t3] ∈ d.out ∧ d.time = s.dev.time ∧
        RegsBut [(b, F.BTN_OFFSET), (b, F.BTN_DELAY)] d s.dev ∧ d.evt = s.dev.evt)) ∧
    (port = 0 → s.dev.baton.upAt = none → Gives (.hopCalibrated t 0) s (advance s.dev t)) ∧
    (∀ a, port = 0 → s.dev.baton.upAt = some a → Does (.hopCalibrated t 0) s (fun d => flagR d b F.BTN_UP_CAL = true ∧
      a + 1000000000 ≤ d.ticks ∧ d.mem = s.dev.mem)) ∧
    (∀ a, port = 1 → s.dev.baton.downAt = some a →
      Gives (.hopCalibrated t 1) s (advance s.dev (max t (a + 1000000000))))

/-- R46, R330: an access that would reach the target's own remote window is refused; one to another package is issued and
counted, the ninth read waits; its completion returns the bytes asked for in issue order, and one without completion is a
timeout that reads all ones. -/
def Obligations.ProxiedAccessesCompleteInOrder : Prop :=
  ∀ (s : State) (t off v : Nat), off < 4194304 → Awake s →
    let b := pgBtn
    let g := getR s.dev b F.BTN_WIN_PKG
    let q := getR s.dev b F.BTN_WIN_QTR
    (∀ z < 5, q = 3 → Gives (.proxyAccess t off false z v) s
      (emit (bump (advance s.dev t) b F.BTN_PROXY_REFUSED) (.readData (narrowRead z off 0xFFFFFFFF)))) ∧
    (q = 3 → off % 4 = 0 → Gives (.proxyAccess t off true 4 v) s (bump (advance s.dev t) b F.BTN_PROXY_REFUSED)) ∧
    (q ≠ 3 → g ≠ pkgIndex s.dev → s.dev.baton.waiting = [] → off % 4 = 0 → Does (.proxyAccess t off true 4 v) s (fun d =>
        d.baton.proxies = s.dev.baton.proxies ++ [⟨0, g, q * 0x400000 + off, true, v % 2 ^ 32, d.ticks, 4⟩] ∧
        d.baton.waiting = [] ∧ getR d b F.BTN_PROXY_WRITES = min (getR s.dev b F.BTN_PROXY_WRITES + 1) (2 ^ 32 - 1) ∧
        RegsBut [(b, F.BTN_PROXY_WRITES)] d s.dev ∧ d.evt = s.dev.evt ∧ d.mem = s.dev.mem)) ∧
    (∀ z < 5, q ≠ 3 → g ≠ pkgIndex s.dev → s.dev.baton.waiting = [] → readsOut s.dev < 8 →
      Does (.proxyAccess t off false z v) s (fun d =>
        d.baton.proxies = s.dev.baton.proxies ++ [⟨0, g, q * 0x400000 + off, false, v % 2 ^ 32, d.ticks, z⟩] ∧
        d.baton.waiting = [] ∧ getR d b F.BTN_PROXY_READS = min (getR s.dev b F.BTN_PROXY_READS + 1) (2 ^ 32 - 1) ∧
        RegsBut [(b, F.BTN_PROXY_READS)] d s.dev ∧ d.evt = s.dev.evt ∧ d.mem = s.dev.mem)) ∧
    (q ≠ 3 → g ≠ pkgIndex s.dev → s.dev.baton.waiting = [] → 8 ≤ readsOut s.dev →
      Does (.proxyAccess t off false 4 v) s (fun d => d.baton.proxies = s.dev.baton.proxies ∧
        d.baton.waiting.length = 1 ∧ d.out = s.dev.out)) ∧
    (s.dev.baton.proxies = [] → Gives (.proxyCompletion t v) s (advance s.dev t)) ∧
    (∀ x r, s.dev.baton.proxies = x :: r → x.write = false → x.owner = 0 → s.dev.baton.waiting = [] →
      Does (.proxyCompletion t v) s (fun d => .readData (narrowRead x.size x.addr (v % 2 ^ 32)) ∈ d.out ∧ d.baton.proxies = r ∧
        d.regs = s.dev.regs ∧ d.evt = s.dev.evt)) ∧
    (s.dev.baton.proxies = [] → Gives (.proxyTimeout t) s (advance s.dev t)) ∧
    (∀ x r, s.dev.baton.proxies = x :: r → x.write = false → x.owner = 0 → s.dev.baton.waiting = [] →
      Does (.proxyTimeout t) s (fun d => .readData (narrowRead x.size x.addr 0xFFFFFFFF) ∈ d.out ∧ d.baton.proxies = r ∧
        (evtRaw d b).testBit 13 = true ∧
        getR d b F.BTN_PROXY_TIMEOUTS = min (getR s.dev b F.BTN_PROXY_TIMEOUTS + 1) (2 ^ 32 - 1)))

/-- R338–R342: a request that the pool cannot grant whole is refused, one that wins its cycle takes its shelves and
moves the pointer, a rival before it makes it wait; a release frees; a limit is at least its reserve; HOST_SHELVES sets
HOST's reserve; a reserve that would exceed the pool is refused. -/
def Obligations.ShelvesAreGrantedWhole : Prop :=
  ∀ (s : State) (t p q n v : Nat), p < 3 → q < poolReqs p → Awake s →
    let g := pgShelf p
    let held := heldBy s.dev p q
    let sumF := if p = 0 then F.SHELFH_RESERVED_SUM else F.SHELFD_RESERVED_SUM
    let sum := getR s.dev g sumF - getR s.dev g (fRESERVE p q)
    (∀ l, wouldGrant s.dev p q n = false → Gives (.shelfRequest t p q n l) s (refuseShelf (advance s.dev t) p q)) ∧
    (wouldGrant s.dev p q n = true → Does (.shelfRequest t p q n []) s (fun d => heldBy d p q = (held + n) % 1024 ∧
      (pool d p).rr = (q + 1) % poolReqs p ∧ (∀ r < poolReqs p, r ≠ q → heldBy d p r = heldBy s.dev p r) ∧
      d.mem = s.dev.mem)) ∧
    (∀ r < poolReqs p, r ≠ q → wouldGrant s.dev p q n = true → (pool s.dev p).rr = r →
      Does (.shelfRequest t p q n [r]) s (fun d => heldBy d p q = held ∧ d.regs = s.dev.regs ∧
        Store.get (pool d p).waits 0 q = Store.get (pool s.dev p).waits 0 q + 1 ∧ d.evt = s.dev.evt)) ∧
    (n = 0 → Gives (.shelfRelease t p q n) s (advance s.dev t)) ∧
    (n ≤ held → held < 1024 → Does (.shelfRelease t p q n) s (fun d => heldBy d p q = held - n ∧
      (∀ r < poolReqs p, r ≠ q → heldBy d p r = heldBy s.dev p r) ∧ d.mem = s.dev.mem)) ∧
    (Reach s.dev g → ¬(p = 0 ∧ q = 8) → v < 1024 → Does (.shelfLimitWrite t p q v) s (fun d =>
      getR d g (fLIMIT p q) = max v (getR s.dev g (fRESERVE p q)) % 1024 ∧ heldBy d p q = held)) ∧
    (Reach s.dev g → p = 0 → q = 8 → sum + min v 256 ≤ 512 → Does (.shelfLimitWrite t 0 8 v) s (fun d =>
      getR d (pgShelf 0) (fLIMIT 0 8) = min v 256 ∧ getR d (pgShelf 0) (fRESERVE 0 8) = min v 256)) ∧
    (Reach s.dev g → fixedReserve p q = true → Gives (.shelfReserveWrite t p q v) s (advance s.dev t)) ∧
    (Reach s.dev g → fixedReserve p q = false → v < 1024 → poolSize p < sum + v →
      Gives (.shelfReserveWrite t p q v) s (raise (bump (advance s.dev t) g F.SHELFH_RESERVE_REFUSED) g 10)) ∧
    (Reach s.dev g → fixedReserve p q = false → v < 1024 → sum + v ≤ poolSize p →
      Does (.shelfReserveWrite t p q v) s (fun d => getR d g (fRESERVE p q) = v ∧ getR d g sumF = (sum + v) % 1024 ∧
        heldBy d p q = held ∧ d.mem = s.dev.mem))

/-! ## DRAM controllers and rolling records (R343–R361) -/

/-- R346, R349–R352, R354, R358, R359: an access in RUN or SELF_REFRESH completes; a write stores its bytes and nothing
else; a corrected word counts in CE; an uncorrectable one starts the migration of an ACTIVE rank to the spare; a scrub
advances only under its grant; self-refresh entry is issued under R358's conditions and cancelled by a request. -/
def Obligations.MemoryChannelsServe : Prop :=
  ∀ (s : State) (t c r : Nat), c < 2 → r < 4 → Awake s →
    let p := pgDmc c
    let x := dmc s.dev c
    let st := getR s.dev p cSTATE
    let up (d : Dev) (f : Fld) : Prop := getR d p f = min (getR s.dev p f + 1) (2 ^ 32 - 1)
    let rest : Prop := x.scrubPos = 0 ∧ max s.dev.ticks t < x.scrubAt
    let mayEnter : Prop := flagR s.dev p F.DMC_SR_EN = true ∧ st = 1 ∧
      20 + max (tXs s.dev c) (tXsDll s.dev c) + getR s.dev p F.DMC_SR_MARGIN < tolMin s.dev c ∧
      getR s.dev p F.DMC_IDLE_CYCLES ≤ ctlCycles (advance s.dev t) c x.lastReq
    (∀ a w n bs br e, chanOf a = c → (st = 0 ∨ st = 4) →
      Gives (.dramAccess t a r w n bs br e) s (advance s.dev t)) ∧
    (∀ a n bs br e, chanOf a = c → (st = 1 ∨ st = 2 ∨ st = 3) → Does (.dramAccess t a r true n bs br e) s (fun d =>
      (∀ y, memByte d.mem y = if a ≤ y ∧ y < a + bs.length then bs.getD (y - a) 0 % 256 else memByte s.dev.mem y) ∧
      getR d p cSTATE = (if st = 2 then 1 else st) ∧ (dmc d c).lastReq = max s.dev.ticks t ∧ d.evt = s.dev.evt)) ∧
    (∀ a n bs br, chanOf a = c → (st = 1 ∨ st = 2 ∨ st = 3) → Does (.dramAccess t a r false n bs br 1) s (fun d =>
      getR d p F.DMC_CE = (getR s.dev p F.DMC_CE + 1) % 2 ^ 64 ∧ (evtRaw d p).testBit 8 = true ∧
      d.mem = s.dev.mem ∧ d.ledgerOut = s.dev.ledgerOut)) ∧
    (∀ a n bs br q, chanOf a = c → (st = 1 ∨ st = 2) → rankState s.dev c r = 1 → x.mig = none →
      (List.range 4).find? (fun k => rankState s.dev c k == 2) = some q → lineNo a ∉ x.inverted →
      Does (.dramAccess t a r false n bs br 2) s (fun d => rankState d c r = 3 ∧ rankState d c q = 3 ∧
        getR d p cSTATE = 3 ∧ up d F.DMC_UE ∧ (evtRaw d p).testBit 9 = true ∧ (evtRaw d p).testBit 11 = true ∧
        d.ledgerOut.length = s.dev.ledgerOut.length + 2 ∧ d.mem = s.dev.mem)) ∧
    Does (.rhWindow t c) s (fun d => (dmc d c).tally = [] ∧ (dmc d c).winAt = d.ticks ∧ x.winAt + 6400000 ≤ d.ticks ∧
      d.regs = s.dev.regs ∧ d.evt = s.dev.evt ∧ d.mem = s.dev.mem) ∧
    (∀ n ce ue, st ≠ 1 → st ≠ 3 → Gives (.patrolScrub t c n ce r ue) s (advance s.dev t)) ∧
    (∀ n ce ue, (st = 1 ∨ st = 3) → rest → Gives (.patrolScrub t c n ce r ue) s (advance s.dev t)) ∧
    (∀ n ce ue, (st = 1 ∨ st = 3) → ¬rest → jobRunning s.dev (ownScrub c) = false →
      Gives (.patrolScrub t c n ce r ue) s (scrubWant (advance s.dev t) c)) ∧
    (∀ n ce, (st = 1 ∨ st = 3) → ¬rest → jobRunning s.dev (ownScrub c) = true → x.scrubPos + n < chanLines s.dev →
      Does (.patrolScrub t c n ce r []) s (fun d => (dmc d c).scrubPos = x.scrubPos + n ∧
        getR d p F.DMC_CE = (if ce = 0 then getR s.dev p F.DMC_CE else (getR s.dev p F.DMC_CE + ce) % 2 ^ 64) ∧
        d.mem = s.dev.mem)) ∧
    (Does (.dramCeHour t c) s (fun d => (dmc d c).ceHour = 0 ∧ (dmc d c).hourAt = d.ticks ∧
      max x.hourAt s.dev.boot.releaseAt + 360000000000 ≤ d.ticks ∧ d.regs = s.dev.regs ∧ d.evt = s.dev.evt ∧
      (x.ceHour = 0 → d.ledgerOut = s.dev.ledgerOut) ∧
      (x.ceHour ≠ 0 → ∃ e, e.kind = 0x0417 ∧ d.ledgerOut = s.dev.ledgerOut ++ [e] ∧
        e.payload = padTo 28 (c :: leBytes 4 x.ceHour)))) ∧
    (rankState s.dev c r = 1 → (List.range 4).find? (fun k => rankState s.dev c k == 2) = none →
      Does (.caParityAlert t c r) s (fun d => rankState d c r = 6 ∧ up d F.DMC_CA_PAR ∧ getR d p cSTATE = st ∧
        (evtRaw d p).testBit 10 = true ∧ d.ledgerOut.length = s.dev.ledgerOut.length + 2 ∧ d.mem = s.dev.mem)) ∧
    (∀ same, flagR s.dev p F.DMC_SR_EN = false →
      Gives (.srEntry t c same) s (setR (advance s.dev t) p F.DMC_TOL_MIN (tolMin s.dev c))) ∧
    (mayEnter → Does (.srEntry t c true) s (fun d => getR d p cSTATE = 1 ∧ up d F.DMC_SR_CANCELS ∧
      (dmc d c).lastReq = max s.dev.ticks t ∧ RegsBut [(p, F.DMC_TOL_MIN), (p, F.DMC_SR_CANCELS)] d s.dev)) ∧
    (mayEnter → Does (.srEntry t c false) s (fun d => getR d p cSTATE = 2 ∧ up d F.DMC_SR_ENTRIES ∧
      (dmc d c).sreAt = max s.dev.ticks t ∧
      RegsBut [(p, F.DMC_TOL_MIN), (p, F.DMC_SR_ENTRIES), (p, cSTATE)] d s.dev)) ∧
    (∀ n < 12, ∀ w < 4, ∀ v, Reach s.dev (pgShelf 0) →
      let f := if w = 0 then F.SHELFH_ROLL_BASE n else if w = 1 then F.SHELFH_ROLL_SIZE n
        else if w = 2 then F.SHELFH_IDX_BASE n else F.SHELFH_IDX_LOG2 n
      Gives (.rollConfigWrite t n w v) s (if getR s.dev (pgLine n) cSTATE = 0
        then setR (advance s.dev t) (pgShelf 0) f v else advance s.dev t))

/-- R350, R353, R355–R357: a finished migration makes the spare ACTIVE and the failing rank RETIRED; a requalified rank
becomes SPARE, or stays as it was; a delay applies at once, VREF only in INIT; a sweep of WL, GATE or VREF is refused
outside INIT, another runs to its end; a margin below MARGIN_MIN raises MARGIN_LOW. -/
def Obligations.RanksMigrateAndDelaysSweep : Prop :=
  ∀ (s : State) (t c r l w v e : Nat), c < 2 → r < 4 → l < 9 → w < 6 → Awake s →
    let p := pgDmc c
    let q := pgDly c
    let x := dmc s.dev c
    let st := getR s.dev p cSTATE
    let k := c * 216 + 6 * (9 * r + l) + w
    let go : Prop := v.testBit 31 = true ∧ getR s.dev q cSTATE = 0
    let inInit : Prop := bits v 8 3 = 0 ∨ bits v 8 3 = 1 ∨ bits v 8 3 = 4
    (∀ bad, x.mig = none ∨ migTicks s.dev = none → Gives (.migrationDone t c bad) s (advance s.dev t)) ∧
    (∀ bad m k, x.mig = some m → migTicks s.dev = some k → m.spare < 4 → m.failing < 4 → m.spare ≠ m.failing →
      Does (.migrationDone t c bad) s (fun d => rankState d c m.spare = 1 ∧ rankState d c m.failing = 4 ∧
        (∀ i < 4, i ≠ m.spare → i ≠ m.failing → rankState d c i = rankState s.dev c i) ∧ (dmc d c).mig = none ∧
        m.start + k ≤ d.ticks ∧ getR d p cSTATE = 1 ∧ getR d p F.DMC_MIG_DONE = s.dev.rankMiB % 2 ^ 32 ∧ (evtRaw d p).testBit 12 = true ∧
        (∃ y ∈ d.ledgerOut, y.kind = 0x0413) ∧ d.mem = s.dev.mem)) ∧
    (Reach s.dev p → v.testBit 8 = false →
      Gives (.requalGo t c v) s (setR (advance s.dev t) p F.DMC_REQUAL_RANK v)) ∧
    (Reach s.dev p → v.testBit 8 = true → v % 4 = r → (rankState s.dev c r = 4 ∨ rankState s.dev c r = 6) →
      x.requal = none → Does (.requalGo t c v) s (fun d => rankState d c r = 5 ∧ getR d p F.DMC_REQUAL_RANK = r ∧
        (dmc d c).requal = some (r, rankState s.dev c r) ∧ d.evt = s.dev.evt ∧ d.mem = s.dev.mem)) ∧
    (∀ ok, x.requal = none → Gives (.rankRequalDone t c ok) s (advance s.dev t)) ∧
    (∀ ok y, x.requal = some (r, y) → y < 16 → Does (.rankRequalDone t c ok) s (fun d =>
      rankState d c r = (if ok then 2 else y) ∧ (dmc d c).requal = none ∧
      (ok = true → (evtRaw d p).testBit 13 = true) ∧ (ok = false → d.evt = s.dev.evt) ∧ d.mem = s.dev.mem)) ∧
    (Reach s.dev q → Does (.delayWrite t c r l w v) s (fun d => Store.get d.almDly 0 k = v % 2 ^ 32 ∧
      Store.get d.dlyLive 0 k = (if w = 5 ∧ st ≠ 0 then Store.get s.dev.dlyLive 0 k else v % 2 ^ 32) ∧
      (w = 0 → getR d q (F.DLY_DL_WL r l) = v % 2 ^ 10 ∧ getR d q (F.DLY_DL_GATE r l) = v / 2 ^ 16 % 2 ^ 10) ∧
      (w = 1 → getR d q (F.DLY_DL_RD r l) % 2 ^ 32 = v % 2 ^ 32) ∧
      (w = 4 → getR d q (F.DLY_DL_WR r l) / 2 ^ 32 = v % 2 ^ 32) ∧
      (w = 5 → getR d q (F.DLY_DL_VREF r l) = v % 2 ^ 7) ∧ d.evt = s.dev.evt ∧ d.mem = s.dev.mem)) ∧
    (Reach s.dev q → go → inInit → st ≠ 0 → Does (.sweepGo t c v) s (fun d => getR d q cSTATE = 0 ∧
      (evtRaw d q).testBit 9 = true ∧ d.mem = s.dev.mem)) ∧
    (Reach s.dev q → go → bits v 8 3 < 5 → (inInit → st = 0) → Does (.sweepGo t c v) s (fun d =>
      getR d q cSTATE = 1 ∧ getR d q cBUSY = 1 ∧ getR d q F.DLY_SWEEP_PARAM = bits v 8 3 ∧
      getR d q F.DLY_SWEEP_RANK = v % 4 ∧ d.evt = s.dev.evt ∧ d.mem = s.dev.mem)) ∧
    (getR s.dev q cSTATE ≠ 1 → Gives (.sweepDone t c v e) s (advance s.dev t)) ∧
    (getR s.dev q cSTATE = 1 → Does (.sweepDone t c v e) s (fun d => getR d q F.DLY_SWEEP_PASS = v % 2 ^ 64 ∧
      getR d q F.DLY_SWEEP_ERRORS = e % 2 ^ 32 ∧ getR d q cSTATE = 0 ∧ getR d q cBUSY = 0 ∧
      (evtRaw d q).testBit 8 = true ∧ d.mem = s.dev.mem)) ∧
    (∀ ms : List Nat, ms.length = 9 → Does (.marginSweep t c ms) s (fun d =>
      let low : Prop := ∃ m ∈ ms, worstSide m < getR s.dev p F.DMC_MARGIN_MIN
      (∀ i < 9, getR d p (F.DMC_MARGIN i) = ms.getD i 0 % 2 ^ 32) ∧
      max x.marginAt s.dev.boot.releaseAt + 100000000 * getR s.dev p F.DMC_MARGIN_S ≤ d.ticks ∧
      (dmc d c).marginRank = (x.marginRank + 1) % (dmcCfg s.dev c F.DMC_RANKS + 1) ∧
      (low → (evtRaw d p).testBit 14 = true ∧ d.ledgerOut.length = s.dev.ledgerOut.length + 1) ∧
      (¬low → d.evt = s.dev.evt ∧ d.ledgerOut = s.dev.ledgerOut) ∧ d.mem = s.dev.mem))

/-! ## The Archive (R362–R384) -/

/-- R366, R368, R372, R376, R377, R380, R384: items join their stream's open block, which closes at 262,144 bytes or
100 ms after its first; a closed block waits in staging, or is dropped; an engine encodes the oldest; journal and
checkpoint name what is placed; a block whose programs ended well is durable; reads, programs, erases and timeouts
count, a failed one retires its block; retrieval requests queue, cancel and complete. -/
def Obligations.ArchiveKeepsItsStreams : Prop :=
  ∀ (s : State) (t n e v c b u g : Nat), n < 64 → e < 4 → c < 8 → v < 4 → u < 4 → Awake s →
    let x := s.dev.arc
    let up (d : Dev) (p : Nat) (f : Fld) (k : Nat) : Prop := getR d p f = min (getR s.dev p f + k) (2 ^ 32 - 1)
    let at_ := max s.dev.ticks t
    let runs := jobBegun s.dev ownRet
    let cap (k : Nat) : Nat := if k < 36 then Store.get s.dev.paceMel 0 (k % 12) else 0
    let logged (d : Dev) : Prop := ∀ y ∈ d.arc.segs, ∀ z ∈ y.2.blocks, z.logged = true
    let r := (blocksIn s.dev (fun z => z.logged && !z.durable)).head?
    (x.inQ = [] → Gives (.archiveFrame t) s (advance s.dev t)) ∧
    (∀ i q, x.inQ = i :: q → i.bytes.length ≤ 262144 → openOf s.dev i.stream = none → Does (.archiveFrame t) s (fun d =>
      d.arc.inQ = q ∧ openOf d i.stream = some ⟨i.stream, at_, [i], cap i.stream⟩ ∧ d.arc.staged = x.staged ∧ d.mem = s.dev.mem)) ∧
    (∀ i q o, x.inQ = i :: q → openOf s.dev i.stream = some o → at_ < o.at_ + 10000000 →
      (o.items.flatMap (·.bytes)).length + i.bytes.length ≤ 262144 → Does (.archiveFrame t) s (fun d => d.arc.inQ = q ∧
        openOf d i.stream = some { o with items := o.items ++ [i] } ∧ d.arc.staged = x.staged ∧ d.mem = s.dev.mem)) ∧
    (∀ i q o, x.inQ = i :: q → openOf s.dev i.stream = some o → o.items ≠ [] → arcSt s.dev ≠ 3 →
      i.bytes.length ≤ 262144 →
      262144 < (o.items.flatMap (·.bytes)).length + i.bytes.length ∨ o.at_ + 10000000 ≤ at_ →
      stagingUsed s.dev + (o.items.flatMap (·.bytes)).length ≤ 128 * 2 ^ 20 → Does (.archiveFrame t) s (fun d =>
        openOf d i.stream = some ⟨i.stream, at_, [i], cap i.stream⟩ ∧ ∃ z, d.arc.staged = x.staged ++ [z] ∧ z.stream = i.stream ∧
          z.data = o.items.flatMap (·.bytes) ∧ z.items = o.items.length ∧ z.closedAt = min at_ (o.at_ + 10000000))) ∧
    (openOf s.dev n = none → Gives (.blockCloseTimer t n) s (advance s.dev t)) ∧
    (∀ o, openOf s.dev n = some o → o.items ≠ [] → arcSt s.dev ≠ 3 →
      stagingUsed s.dev + (o.items.flatMap (·.bytes)).length ≤ 128 * 2 ^ 20 → Does (.blockCloseTimer t n) s (fun d =>
        o.at_ + 10000000 ≤ d.ticks ∧ openOf d n = none ∧ d.arc.staged.length = x.staged.length + 1)) ∧
    (∀ o, openOf s.dev n = some o → o.items ≠ [] → arcSt s.dev = 3 → Does (.blockCloseTimer t n) s (fun d =>
      openOf d n = none ∧ d.arc.staged = x.staged ∧ up d pgArc F.ARC_DROP_BLOCKS 1 ∧
      (evtRaw d pgArc).testBit 10 = true ∧ ∃ z, d.ledgerOut = s.dev.ledgerOut ++ [z] ∧ z.kind = 0x0504)) ∧
    (∀ dec poi, melHost s.dev e = true ∨ getR s.dev (pgMel e) cSTATE ≠ 0 →
      Gives (.melArchiveBlock t e dec poi) s (advance s.dev t)) ∧
    (∀ z q, melHost s.dev e = false → getR s.dev (pgMel e) cSTATE = 0 → arcSt s.dev = 2 → x.staged = z :: q →
      Does (.melArchiveBlock t e false true) s (fun d => d.arc.staged = q ∧ up d pgArc F.ARC_POISON_DROPS 1 ∧
        (evtRaw d pgArc).testBit 10 = true)) ∧
    (∀ z q geo o, melHost s.dev e = false → getR s.dev (pgMel e) cSTATE = 0 → arcSt s.dev = 2 → x.staged = z :: q →
      let out := (encodeBlock (arcHead z) (arcLevel s.dev z.stream z.cap) (arcDelta s.dev z.stream) z.data).1
      x.geo = some geo → Store.get x.openSeg 0 (volOf z.stream) = o + 1 → (seg s.dev o).vol = volOf z.stream →
      (seg s.dev o).used + out.length ≤ segRoom s.dev geo o → Does (.melArchiveBlock t e false false) s (fun d =>
        d.arc.staged = q ∧ (seg d o).blocks = (seg s.dev o).blocks ++ [{ z with data := out }])) ∧
    (∀ q z poi, melHost s.dev e = false → getR s.dev (pgMel e) cSTATE = 0 → x.rets = q :: z → runs = true →
      x.cancel = false →
      Gives (.melArchiveBlock t e true poi) s (retSend (advance s.dev t) (some e))) ∧
    (arcSt s.dev ≠ 2 → Gives (.journalWrite t) s (advance s.dev t)) ∧
    (arcSt s.dev = 2 → Does (.journalWrite t) s (fun d => logged d ∧ (∀ p ∈ d.pins, p.logged = true) ∧
      d.arc.ckptAt = x.ckptAt ∧ d.regs = s.dev.regs ∧ d.evt = s.dev.evt)) ∧
    (arcSt s.dev ≠ 2 → Gives (.checkpoint t) s (advance s.dev t)) ∧
    (arcSt s.dev = 2 → Does (.checkpoint t) s (fun d => logged d ∧ d.arc.hasCkpt = true ∧ d.arc.ckptAt = d.ticks ∧
      x.ckptAt + 100000000 * getR s.dev pgArc F.ARC_CKPT_S ≤ d.ticks ∧ d.regs = s.dev.regs ∧ d.evt = s.dev.evt)) ∧
    (r = none → Gives (.blockDurable t) s (advance s.dev t)) ∧
    (∀ z, r = some z → getR s.dev pgArc F.ARC_LATE_BLOCKS < 2 ^ 32 → Does (.blockDurable t) s (fun d =>
      (∀ y ∈ d.arc.segs, ∀ k ∈ y.2.blocks, k.id = z.id → k.durable = true) ∧
      up d pgArc F.ARC_LATE_BLOCKS (if z.closedAt + 100000000 < at_ then 1 else 0))) ∧
    (∀ k cw lv bt, lv ≤ 16 → bt < 2 ^ 32 → Does (.nandRead t c v g k cw [(lv, bt)]) s (fun d =>
      getR d (pgNch c) F.NCH_READS = (getR s.dev (pgNch c) F.NCH_READS + 1) % 2 ^ 64 ∧
      up d (pgNch c) F.NCH_RETRY_READS (min lv (min 16 (getR s.dev pgArc F.ARC_RR_COUNT))) ∧
      getR d (pgNch c) F.NCH_MAX_BITS = max (getR s.dev (pgNch c) F.NCH_MAX_BITS) bt ∧
      (getR s.dev pgArc F.ARC_REFRESH_BITS < bt → (seg s.dev g).vol ≠ 0 → (seg d g).due ≠ none) ∧ d.mem = s.dev.mem)) ∧
    (∀ k cw bt, Does (.nandRead t c v g k cw [(18, bt)]) s (fun d => up d pgArc F.ARC_UNREADABLE 1 ∧
      up d (pgNch c) F.NCH_UNCORRECTABLE 1 ∧ (evtRaw d pgArc).testBit 11 = true ∧ ∀ z,
        (seg s.dev g).blocks[k]? = some z → (seg d g).blocks[k]? = some { z with bad := z.bad ++ [cw] })) ∧
    (∀ p, Does (.nandProgramDone t c v u b p true) s (fun d =>
      getR d (pgNch c) F.NCH_PROGRAMS = (getR s.dev (pgNch c) F.NCH_PROGRAMS + p) % 2 ^ 64 ∧ d.evt = s.dev.evt ∧
      (∀ geo, x.geo = some geo →
        getR d pgArc F.ARC_WRITTEN = (getR s.dev pgArc F.ARC_WRITTEN + p * geo.pageBytes) % 2 ^ 64))) ∧
    (∀ p, s.dev.almBad.length < 16384 → blkKey c v u b ∉ s.dev.almBad → Does (.nandProgramDone t c v u b p false) s (fun d =>
      up d (pgNch c) F.NCH_PROG_FAILS 1 ∧ (evtRaw d (pgNch c)).testBit 8 = true ∧ up d pgArc F.ARC_GROWN_BAD 1 ∧
      (evtRaw d pgArc).testBit 12 = true ∧ d.almBad = s.dev.almBad ++ [blkKey c v u b])) ∧
    Gives (.nandEraseDone t c v u b true) s (bump (advance s.dev t) (pgNch c) F.NCH_ERASES) ∧
    (s.dev.almBad.length < 16384 → blkKey c v u b ∉ s.dev.almBad → Does (.nandEraseDone t c v u b false) s (fun d => up d (pgNch c) F.NCH_ERASES 1 ∧
      up d (pgNch c) F.NCH_ERASE_FAILS 1 ∧ (evtRaw d (pgNch c)).testBit 9 = true ∧ up d pgArc F.ARC_GROWN_BAD 1 ∧
      (evtRaw d pgArc).testBit 12 = true ∧ d.almBad = s.dev.almBad ++ [blkKey c v u b])) ∧
    (∀ fatal, Does (.nandTimeout t c fatal) s (fun d => up d (pgNch c) F.NCH_TIMEOUTS 1 ∧
      (evtRaw d (pgNch c)).testBit 10 = true ∧
      getR d (pgNch c) cSTATE = (if fatal then 3 else getR s.dev (pgNch c) cSTATE) ∧ d.arc = x)) ∧
    (Reach s.dev pgArc → arcSt s.dev ≠ 2 → Gives (.snapGo t) s (advance s.dev t)) ∧
    (Reach s.dev pgArc → arcSt s.dev = 2 →
      let a := getR s.dev pgArc F.ARC_SNAP_ADDR * 256
      let len := ofLe (memRead s.dev.mem a 4)
      poisoned s.dev a (4 + len) = false → Gives (.snapGo t) s { advance s.dev t with
        arc := { x with inQ := x.inQ ++ [⟨37, 0, tai (advance s.dev t), memRead s.dev.mem (a + 4) len⟩] } }) ∧
    (Reach s.dev pgArc → 8 + b2n runs ≤ x.rets.length → Gives (.retGo t) s
      (setR (advance s.dev t) pgArc F.ARC_RET_STATUS 4)) ∧
    (Reach s.dev pgArc → x.rets.length < 8 → arcSt s.dev = 2 ∨ arcSt s.dev = 3 → Store.get s.dev.jobSince 0 ownRet = 0 →
      Does (.retGo t) s (fun d => getR d pgArc F.ARC_RET_STATUS = 1 ∧ ∃ q, d.arc.rets = x.rets ++ [q] ∧
        q.stream = getR s.dev pgArc F.ARC_RET_STREAM ∧ q.mode = getR s.dev pgArc F.ARC_RET_MODE ∧
        q.tag = getR s.dev pgArc F.ARC_RET_TAG ∧ q.a = getR s.dev pgArc F.ARC_RET_A ∧
        q.b = getR s.dev pgArc F.ARC_RET_B ∧ q.todo = none)) ∧
    (Reach s.dev pgArc → Gives (.retCancel t) s
      (if runs then { advance s.dev t with arc := { x with cancel := true } } else advance s.dev t)) ∧
    (x.rets = [] ∨ runs = false → Gives (.retDone t) s (advance s.dev t)) ∧
    (∀ q z, x.rets = q :: z → runs = true → x.cancel = true ∨ q.todo = some [] → Does (.retDone t) s (fun d =>
      d.arc.rets = z ∧ d.arc.cancel = false ∧ getR d pgArc F.ARC_RET_TAG_DONE = q.tag % 2 ^ 16 ∧
      (z = [] → getR d pgArc F.ARC_RET_STATUS = 3) ∧ (evtRaw d pgArc).testBit 14 = true ∧ d.rings = s.dev.rings))

/-- R369–R375, R378, R379, R383: a pin is granted or refused, closes at its end, is copied or broken, and is undone by
UNPIN; wear moves and refreshes move a segment's data to a FREE one; segments age and the budget follows; mount, format
and unmount change the state. -/
def Obligations.ArchivePinsWearAndMount : Prop :=
  ∀ (s : State) (t i : Nat), Awake s →
    let x := s.dev.arc
    let st := arcSt s.dev
    let up (d : Dev) (f : Fld) : Prop := getR d pgArc f = min (getR s.dev pgArc f + 1) (2 ^ 32 - 1)
    let toCopy := s.dev.pins.find? (fun p => p.closed && !p.copied)
    let id := getR s.dev pgArc F.ARC_NEXT_PIN
    let fresh (k : Nat) : Prop := (seg s.dev k).vol = 0
    let moved (d : Dev) (a b : Nat) : Prop := (seg d a).vol = 0 ∧ (seg d b).vol = (seg s.dev a).vol ∧
      (seg d b).blocks = (seg s.dev a).blocks ∧ (seg d b).erases = (seg s.dev b).erases + b2n (seg s.dev b).dirty ∧
      (∀ k, k ≠ a → k ≠ b → seg d k = seg s.dev k)
    let state (d : Dev) (v : Nat) : Prop := arcSt d = v ∧ (evtRaw d pgArc).testBit 8 = true ∧
      ∃ e ∈ d.ledgerOut, e.kind = 0x0505 ∧ e.payload = padTo 28 [st, v]
    (s.dev.pinAsk = [] → Gives (.pinRequest t) s (advance s.dev t)) ∧
    (∀ a q, s.dev.pinAsk = a :: q → st ≠ 2 → Does (.pinRequest t) s (fun d => d.pinAsk = q ∧ d.pins = s.dev.pins ∧
      up d F.ARC_PINS_REFUSED ∧ getR d pgArc F.ARC_NEXT_PIN = id)) ∧
    (∀ a q, s.dev.pinAsk = a :: q → st = 2 → openPins s.dev < 256 → id < 2 ^ 32 →
      heldSegs s.dev % 65536 + 1 ≤ getR s.dev pgArc F.ARC_PIN_HOLD_MAX → Does (.pinRequest t) s (fun d => d.pinAsk = q ∧
        getR d pgArc F.ARC_NEXT_PIN = (if id + 1 = 2 ^ 32 then 1 else id + 1) ∧ ∃ p, d.pins = s.dev.pins ++ [p] ∧
          p.id = id ∧ p.line = a.line ∧ p.from_ = a.from_ ∧ p.closed = false ∧ p.copied = false)) ∧
    (s.dev.pins.find? (fun p => p.end_.isSome && !p.closed) = none → Gives (.pinClose t) s (advance s.dev t)) ∧
    (∀ p e, s.dev.pins.find? (fun p => p.end_.isSome && !p.closed) = some p → p.end_ = some e →
      Does (.pinClose t) s (fun d => e ≤ tai d ∧
        d.pins = s.dev.pins.map (fun q => if q.id = p.id then { q with closed := true } else q) ∧ d.arc = x)) ∧
    (toCopy = none ∨ jobBegun s.dev ownPin = false → Gives (.pinCopyDone t) s (advance s.dev t)) ∧
    (∀ p, toCopy = some p → jobBegun s.dev ownPin = true → st = 2 →
      blocksIn s.dev (fun b => b.pin == 0 && inWindow p b) = [] → Does (.pinCopyDone t) s (fun d =>
        d.pins = s.dev.pins.map (fun q => if q.id = p.id then { q with copied := true } else q) ∧ d.arc = x)) ∧
    (∀ p b q, toCopy = some p → jobBegun s.dev ownPin = true → st = 2 → flagR s.dev pgArc F.ARC_EVT_KEEP = true →
      blocksIn s.dev (fun b => b.pin == 0 && inWindow p b) = b :: q → eventsFull s.dev b.data.length = true →
      Does (.pinCopyDone t) s (fun d => d.pins = s.dev.pins.filter (fun q => q.id != p.id) ∧ up d F.ARC_PINS_BROKEN ∧
        (evtRaw d pgArc).testBit 13 = true ∧ ∃ e ∈ d.ledgerOut, e.kind = 0x0162 ∧ e.line = p.line)) ∧
    (Reach s.dev pgArc → Does (.unpin t i) s (fun d => d.pins = s.dev.pins.filter (fun q => q.id != i) ∧
      ((∀ p ∈ s.dev.pins, p.id = i → p.copied = false) → d.arc = x) ∧ d.mem = s.dev.mem)) ∧
    (jobBegun s.dev ownWear = false ∨ st ≠ 2 → Gives (.wearMoveDone t) s (advance s.dev t)) ∧
    (∀ a b, jobBegun s.dev ownWear = true → st = 2 → a ∈ segsUsed s.dev → b ∈ segsUsed s.dev → ¬fresh a → fresh b →
      (∀ k ∈ segsUsed s.dev, ¬fresh k → k ≠ a → (seg s.dev a).erases < (seg s.dev k).erases) →
      (∀ k ∈ segsUsed s.dev, fresh k → k ≠ b → (seg s.dev k).erases < (seg s.dev b).erases) →
      Does (.wearMoveDone t) s (fun d => moved d a b ∧ up d F.ARC_WEAR_MOVES)) ∧
    (jobBegun s.dev ownRefresh = false ∨ st ≠ 2 → Gives (.refreshDone t) s (advance s.dev t)) ∧
    (∀ a b, jobBegun s.dev ownRefresh = true → st = 2 → nextDue s.dev = some a → coldest s.dev = some b → ¬fresh a →
      (seg s.dev a).vol ≠ 1 → Does (.refreshDone t) s (fun d => moved d a b ∧ up d F.ARC_REFRESHES ∧
        ∃ e ∈ d.ledgerOut, e.kind = 0x0502)) ∧
    (∀ a, jobBegun s.dev ownRefresh = true → st = 2 → nextDue s.dev = some a → (seg s.dev a).vol = 1 →
      (reclaimable s.dev (holding s.dev)).head?.map (·.1) = some a → Does (.refreshDone t) s (fun d =>
        (seg d a).vol = 0 ∧ getR d pgArc F.ARC_REFRESHES = getR s.dev pgArc F.ARC_REFRESHES)) ∧
    (st ≠ 2 → st ≠ 3 → Gives (.ageUpdate t) s (advance s.dev t)) ∧
    (∀ a, st = 2 ∨ st = 3 → arcTemp s.dev = some a →
      let y := ageAll (advance s.dev (max t (x.ageAt + 6000000000))) (ageRise (getR s.dev pgArc F.ARC_EA) a 60)
      Gives (.ageUpdate t) s (refreshWant { y with arc := { y.arc with ageAt := y.ticks } })) ∧
    (∀ a k e, st = 2 ∨ st = 3 → arcTemp s.dev = some a → x.segs = [(k, e)] → e.vol ≠ 0 → Does (.ageUpdate t) s (fun d =>
      let age := e.age + ageRise (getR s.dev pgArc F.ARC_EA) a 60
      x.ageAt + 6000000000 ≤ d.ticks ∧ d.arc.ageAt = d.ticks ∧ (seg d k).age = age ∧
      (256 * getR s.dev pgArc F.ARC_AGE_LIMIT ≤ age → (seg d k).due ≠ none) ∧ d.mem = s.dev.mem)) ∧
    (st = 2 ∨ st = 3 → arcTemp s.dev = none →
      let q := freeV (advance s.dev (max t (x.ageAt + 6000000000)))
      let y := ageAll q.2 q.1
      Gives (.ageUpdate t) s (refreshWant { y with arc := { y.arc with ageAt := y.ticks } })) ∧
    (st ≠ 2 → st ≠ 3 → Gives (.wearBudget t) s
      (if getR s.dev pgArc F.ARC_BUDGET = 0 then advance s.dev t else wearShow (advance s.dev t))) ∧
    (st = 2 ∨ st = 3 → Does (.wearBudget t) s (fun d =>
      let e := advance s.dev (max t (x.budgetAt + 6000000000))
      let day := dayBudget e % 2 ^ 64
      d.ticks = e.ticks ∧ getR d pgArc F.ARC_BUDGET = day ∧ (day ≠ 0 → getR d pgArc F.ARC_WEAR_RATIO =
        min 65535 (rne ((256 * wearDay e : Nat) : Int) day).toNat))) ∧
    (Reach s.dev pgArc → st ≠ 0 → Gives (.mount t) s (advance s.dev t)) ∧
    (Reach s.dev pgArc → st = 0 → Does (.mount t) s (fun d => state d 1 ∧ d.arc = x)) ∧
    (∀ ok ps ms k, st ≠ 1 → Gives (.mountDone t ok ps ms k) s (advance s.dev t)) ∧
    (∀ ok ps ms k, st = 1 → ok = false ∨ x.hasCkpt = false → Does (.mountDone t ok ps ms k) s (fun d => state d 4)) ∧
    (∀ ps ms k, st = 1 → x.hasCkpt = true → (readGeometry (advance s.dev t) ps).arc.geo ≠ none →
      Does (.mountDone t true ps ms k) s (fun d => (arcSt d = 2 ∨ arcSt d = 3) ∧ (evtRaw d pgArc).testBit 8 = true ∧
        ∃ e ∈ d.ledgerOut, e.kind = 0x0506)) ∧
    (Reach s.dev pgArc → (st = 0 ∨ st = 4) ∧ getR s.dev pgArc F.ARC_FMT_KEY = 0x464D →
      Does (.format t) s (fun d => state d 5 ∧ d.arc = x)) ∧
    (Reach s.dev pgArc → ¬((st = 0 ∨ st = 4) ∧ getR s.dev pgArc F.ARC_FMT_KEY = 0x464D) →
      Gives (.format t) s (advance s.dev t)) ∧
    (∀ ok ps ms, st ≠ 5 → Gives (.formatDone t ok ps ms) s (advance s.dev t)) ∧
    (∀ ps ms, st = 5 → Does (.formatDone t false ps ms) s (fun d => state d 4)) ∧
    (∀ ps ms, st = 5 → (readGeometry (advance s.dev t) ps).arc.geo ≠ none →
      Does (.formatDone t true ps ms) s (fun d =>
        let q := getR s.dev pgArc F.ARC_EVT_SEGS + getR s.dev pgArc F.ARC_LEDGER_SEGS +
          getR s.dev pgArc F.ARC_CFG_SEGS + getR s.dev pgArc F.ARC_FREE_MIN
        state d 0 ∧ d.pins = [] ∧ d.arc.segs = [] ∧ d.arc.hasCkpt = true ∧ getR d pgArc F.ARC_WRITTEN = 0 ∧
        d.arc.quota.getD 2 0 = getR s.dev pgArc F.ARC_EVT_SEGS ∧
        d.arc.quota.getD 1 0 + q = max (segsUsed d).length q)) ∧
    (Reach s.dev pgArc → st ≠ 2 → st ≠ 3 → Gives (.unmount t) s (advance s.dev t)) ∧
    (Reach s.dev pgArc → st = 2 → Does (.unmount t) s (fun d => arcSt d = 0 ∧ (evtRaw d pgArc).testBit 8 = true ∧
      d.arc.opens = [] ∧ d.arc.rets = [] ∧ d.arc.hasCkpt = true ∧
      ∀ y ∈ d.arc.segs, ∀ z ∈ y.2.blocks, z.durable = true)) ∧
    (Reach s.dev pgArc → st = 3 → Does (.unmount t) s (fun d => state d 0 ∧ d.arc.segs = x.segs ∧ d.arc.rets = []))

/-! ## The Melain engines and the check units (R385–R398) -/

/-- R389, R391–R393, R395–R397: a host job is refused or starts, and its end delivers what the format says and the
verdict; a check unit takes bytes, state and parameters while no DMA job runs, compares with EXPECT, and its DMA job
feeds what it reads, up to an abort or a poisoned line. -/
def Obligations.MelainJobsAndCheckUnits : Prop :=
  ∀ (s : State) (t e u v : Nat), e < 4 → u < 8 → Awake s →
    let p := pgMel e
    let q := pgChk
    let up (d : Dev) (p : Nat) (f : Fld) : Prop := getR d p f = min (getR s.dev p f + 1) (2 ^ 32 - 1)
    let m := crcParm (getR s.dev q (F.CHK_POLY u))
    let c := getR s.dev q (F.CHK_CRC_STATE u) % 2 ^ m.width
    let busy := flagR s.dev q (F.CHK_BUSY u)
    let holds (d : Dev) (x : Nat) : Prop := getR d q (F.CHK_CRC_STATE u) = x % 2 ^ m.width ∧
      getR d q (F.CHK_RESULT u) = (x % 2 ^ m.width) ^^^ m.xorout
    let fed (d : Dev) (b : List Nat) : Prop := holds d (crcFeed m c b) ∧
      getR d q (F.CHK_FED u) = (getR s.dev q (F.CHK_FED u) + b.length) % 2 ^ 64
    let equal : Prop := c ^^^ m.xorout = getR s.dev q (F.CHK_EXPECT u) % 2 ^ m.width
    let refused := bump (advance s.dev t) q (F.CHK_REFUSED u)
    (Reach s.dev p → melRefuse s.dev e (melJob s.dev e) = true → Gives (.melGo t e) s
      (raise (bump (setR (advance s.dev t) p F.MEL_JOB_REFUSED 1) p F.MEL_REFUSED) p 10)) ∧
    (Reach s.dev p → melRefuse s.dev e (melJob s.dev e) = false → Does (.melGo t e) s (fun d =>
      getR d p cSTATE = 2 ∧ getR d p cBUSY = 1 ∧ getR d p F.MEL_JOB_REFUSED = 0 ∧
      Store.find d.mels e = some (melJob s.dev e) ∧ d.mem = s.dev.mem ∧ d.evt = s.dev.evt)) ∧
    (melRefuse s.dev e (melJob s.dev e) = false → flagR s.dev p F.MEL_HOST_EN = true ∧ getR s.dev p cSTATE = 0 ∧
      getR s.dev p F.MEL_SRC_LEN ≠ 0 ∧ (getR s.dev p F.MEL_OP = 0 → getR s.dev p F.MEL_SRC_LEN ≤ 1048576 ∧
        getR s.dev p F.MEL_SRC_LEN + 40 ≤ getR s.dev p F.MEL_DST_LEN)) ∧
    (Store.find s.dev.mels e = none → Gives (.melJobDone t e) s (advance s.dev t)) ∧
    (∀ j, Store.find s.dev.mels e = some j → poisoned s.dev j.src j.srcLen = true → Does (.melJobDone t e) s (fun d =>
      getR d p F.MEL_VERDICT = 7 ∧ getR d p F.MEL_OUT_LEN = 0 ∧ getR d p cSTATE = 0 ∧ getR d p cBUSY = 0 ∧
      (evtRaw d p).testBit 8 = true ∧ (evtRaw d p).testBit 9 = true ∧ d.mem = s.dev.mem)) ∧
    (∀ j, Store.find s.dev.mels e = some j → poisoned s.dev j.src j.srcLen = false →
      Does (.melJobDone t e) s (fun d =>
        let b := memRead s.dev.mem j.src j.srcLen
        let out := if j.op = 0 then (encodeBlock (hostHead j b) j.level j.delta b).1 else (decodeBlock b).2
        let verdict := if j.op = 0 then 0 else (decodeBlock b).1
        (∀ y, memByte d.mem y =
          if j.dst ≤ y ∧ y < j.dst + out.length then out.getD (y - j.dst) 0 % 256 else memByte s.dev.mem y) ∧
        getR d p F.MEL_OUT_LEN = out.length % 2 ^ 21 ∧ getR d p F.MEL_VERDICT = verdict ∧ getR d p cSTATE = 0 ∧
        getR d p cBUSY = 0 ∧ (evtRaw d p).testBit 8 = true ∧ (verdict ≠ 0 → (evtRaw d p).testBit 9 = true) ∧
        (verdict = 1 → up d p F.MEL_MISMATCHES) ∧ (verdict = 2 → up d p F.MEL_UNVERIFIED) ∧
        (verdict = 3 → up d p F.MEL_MALFORMED))) ∧
    (Reach s.dev q → busy = true → Gives (.chkDataWrite t u v) s refused ∧ (∀ w < 2, Gives (.chkStateWrite t u w v) s refused) ∧
      Gives (.chkPolyWrite t u v) s refused ∧ Gives (.chkGo t u) s (advance s.dev t)) ∧
    (Reach s.dev q → busy = false → Does (.chkDataWrite t u v) s (fun d => fed d (leBytes (chkBytes s.dev u) v) ∧
      RegsBut [(q, F.CHK_CRC_STATE u), (q, F.CHK_RESULT u), (q, F.CHK_FED u)] d s.dev ∧ d.evt = s.dev.evt)) ∧
    (Reach s.dev q → busy = false → ∀ w < 2, Does (.chkStateWrite t u w v) s (fun d =>
      holds d (putBits (getR s.dev q (F.CHK_CRC_STATE u)) (32 * w) 32 v) ∧
      RegsBut [(q, F.CHK_CRC_STATE u), (q, F.CHK_RESULT u)] d s.dev ∧ d.evt = s.dev.evt)) ∧
    (Reach s.dev q → busy = false → Does (.chkPolyWrite t u v) s (fun d => getR d q (F.CHK_POLY u) = v % 4 ∧
      getR d q (F.CHK_BYTES u) = v / 2 ^ 8 % 8 ∧ getR d q (F.CHK_AUTO_CMP u) = v / 2 ^ 16 % 2 ∧
      (getR s.dev q (F.CHK_POLY u) = v % 4 → getR d q (F.CHK_CRC_STATE u) = getR s.dev q (F.CHK_CRC_STATE u)) ∧
      (getR s.dev q (F.CHK_POLY u) ≠ v % 4 → getR d q (F.CHK_CRC_STATE u) = (crcParm (v % 4)).init) ∧
      d.evt = s.dev.evt)) ∧
    (Reach s.dev q → equal → Does (.chkCompare t u) s (fun d => up d q (F.CHK_MATCHES u) ∧
      getR d q (F.CHK_LAST_MISMATCH u) = 0 ∧ RegsBut [(q, F.CHK_MATCHES u), (q, F.CHK_LAST_MISMATCH u)] d s.dev ∧
      d.evt = s.dev.evt)) ∧
    (Reach s.dev q → ¬equal → Does (.chkCompare t u) s (fun d => up d q (F.CHK_MISMATCHES u) ∧
      getR d q (F.CHK_LAST_MISMATCH u) = 1 ∧ RegsBut [(q, F.CHK_MISMATCHES u), (q, F.CHK_LAST_MISMATCH u)] d s.dev ∧
      (evtRaw d q).testBit (8 + u) = true)) ∧
    (Reach s.dev q → Does (.chkInit t u) s (fun d => holds d m.init ∧
      RegsBut [(q, F.CHK_CRC_STATE u), (q, F.CHK_RESULT u)] d s.dev ∧ d.evt = s.dev.evt)) ∧
    (Reach s.dev q → busy = false → Does (.chkGo t u) s (fun d => getR d q (F.CHK_BUSY u) = 1 ∧
      getR d q (F.CHK_DMA_ERROR u) = 0 ∧ getR d q cSTATE = 1 ∧ d.evt = s.dev.evt ∧
      Store.find d.chkJobs u = some (getR s.dev q (F.CHK_SRC u), getR s.dev q (F.CHK_LEN u)))) ∧
    (Reach s.dev q → Store.find s.dev.chkJobs u = none → Gives (.chkAbort t u v) s (advance s.dev t)) ∧
    (Reach s.dev q → ∀ a n, Store.find s.dev.chkJobs u = some (a, n) → Does (.chkAbort t u v) s (fun d =>
      fed d (memRead s.dev.mem a (min v n)) ∧ getR d q (F.CHK_BUSY u) = 0 ∧ Store.find d.chkJobs u = none ∧
      d.evt = s.dev.evt ∧ d.mem = s.dev.mem)) ∧
    (Store.find s.dev.chkJobs u = none → Gives (.chkDmaDone t u) s (advance s.dev t)) ∧
    (∀ a n, Store.find s.dev.chkJobs u = some (a, n) → Does (.chkDmaDone t u) s (fun d =>
      let k := beforePoison s.dev a n
      fed d (memRead s.dev.mem a k) ∧ getR d q (F.CHK_BUSY u) = 0 ∧ Store.find d.chkJobs u = none ∧ d.mem = s.dev.mem ∧
      (n ≤ k → (evtRaw d q).testBit (16 + u) = true) ∧ (k < n → getR d q (F.CHK_DMA_ERROR u) = 1 ∧ d.evt = s.dev.evt)))

/-! ## The host interface (R399–R419) -/

/-- R343, R399–R403, R411, R416, R418, R419: the PCIe link comes up, Bus Master Enable falls, and a reset of the
function leaves its page, MSI-X and the HOST rings as R401 says; BAR2 reaches memory; a port changes mode and link,
answers for its own addresses and ignores and counts the rest; a flow's words store. -/
def Obligations.PcieAndNetworkPorts : Prop :=
  ∀ (s : State) (t e n v : Nat), e < 2 → n < 4 → Awake s →
    let p := pgPcie
    let g := pgEth e
    let d0 := advance s.dev t
    let up (d : Dev) (p : Nat) (f : Fld) : Prop := getR d p f = min (getR s.dev p f + 1) (2 ^ 32 - 1)
    let onHost (r : Nat) : Prop := r < 32 ∧ ringBind s.dev r = 1
    let rx := bump d0 g F.ETH_RX_PKTS
    let ignored := bump rx g F.ETH_RX_IGNORED
    let mac : Int := getR s.dev g (F.ETH_MAC n)
    let sent (k : Nat) (l : List Int) : Dev := reply rx e n k l
    let ends (m : Nat) : Nat := if m = 0 ∨ m = 7 then 0 else if m < 4 then 1 else 4
    let now := taiSec (tai d0)
    let echoes := if Store.get s.dev.net.echoSec 0 (4 * e + n) = now then Store.get s.dev.net.echoCount 0 (4 * e + n) else 0
    let sleeps : Prop := getR s.dev pgPace F.PACE_PSTATE_NOW = 2
    let own (v6 : Bool) (ip : List Nat) : Prop := subUp s.dev e n = true ∧
      if v6 then ip = subV6 s.dev e n ∧ ∃ x ∈ ip, x ≠ 0 else ip = [getR s.dev g (F.ETH_IPV4 n)] ∧ ip ≠ [0]
    (∀ sp w mp mr, sleeps → Gives (.pcieLinkUp t sp w mp mr) s d0) ∧
    (∀ sp w mp mr, ¬sleeps → sp < 8 → w < 16 → mp < 8 → mr < 8 → Does (.pcieLinkUp t sp w mp mr) s (fun d =>
      getR d p cSTATE = 2 ∧ getR d p F.PCIE_SPEED = sp ∧ getR d p F.PCIE_WIDTH = w ∧ getR d p F.PCIE_MPS = mp ∧
      getR d p F.PCIE_MRRS = mr ∧ (getR s.dev p cSTATE ≠ 2 → (evtRaw d p).testBit 8 = true) ∧
      (getR s.dev p cSTATE = 2 → d.evt = s.dev.evt) ∧ RegsBut [(p, cSTATE), (p, F.PCIE_SPEED), (p, F.PCIE_WIDTH),
        (p, F.PCIE_MPS), (p, F.PCIE_MRRS)] d s.dev)) ∧
    Does (.busMasterChange t true false) s (fun d => flagR d p F.PCIE_BME = true ∧ flagR d p F.PCIE_D3HOT = false ∧
      d.rings = s.dev.rings ∧ d.evt = s.dev.evt ∧ RegsBut [(p, F.PCIE_BME), (p, F.PCIE_D3HOT)] d s.dev) ∧
    (∀ b x, (b && !x) = false → Does (.busMasterChange t b x) s (fun d => flagR d p F.PCIE_BME = b ∧
      flagR d p F.PCIE_D3HOT = x ∧ d.mem = s.dev.mem ∧ ∀ r, onHost r → (ringSt d r).held = [])) ∧
    (∀ k < 3, Does (.pcieReset t k) s (fun d => up d p F.PCIE_FLRS ∧ d.irq.masked = List.range 64 ∧
      d.irq.funcMask = false ∧ getR d pgRings F.RINGS_WB_BASE = 0 ∧ getR d p F.PCIE_BAR2_DRAM = 0 ∧
      flagR d p F.PCIE_BME = false ∧
      (∀ r, onHost r → (ringSt d r).held = [] ∧ (getR d pgRings F.RINGS_STOPPED).testBit r = true) ∧
      (onHost 28 → d.cmd.cur = none) ∧ (k = 2 → getR d p cSTATE = 0 ∧ (evtRaw d p).testBit 9 = true) ∧
      (k ≠ 2 → getR d p cSTATE = getR s.dev p cSTATE % 16 ∧ (evtRaw d p).testBit 10 = true) ∧
      d.lines = s.dev.lines ∧ d.time = s.dev.time ∧ d.arc = s.dev.arc ∧ d.mem = s.dev.mem)) ∧
    (∀ off w k bs, off < 2 ^ 28 → flagR s.dev p F.PCIE_D3HOT = true → Gives (.bar2Access t off w k bs) s d0) ∧
    (∀ off bs, off < 2 ^ 28 → flagR s.dev p F.PCIE_D3HOT = false →
      let a := bar2Addr s.dev off
      hostReach s.dev a = true → hostReach s.dev (a + bs.length - 1) = true → Does (.bar2Access t off true 0 bs) s (fun d =>
        (∀ y, memByte d.mem y =
          if a ≤ y ∧ y < a + bs.length then bs.getD (y - a) 0 % 256 else memByte s.dev.mem y) ∧ d.arc = s.dev.arc)) ∧
    (∀ off k, off < 2 ^ 28 → flagR s.dev p F.PCIE_D3HOT = false →
      let a := bar2Addr s.dev off
      hostReach s.dev a = true → hostReach s.dev (a + k - 1) = true → Does (.bar2Access t off false k []) s (fun d =>
        let bad := decide (a < 0xFF00000000) && poisoned s.dev a k
        Output.readBytes (memRead s.dev.mem a k) bad ∈ d.out ∧ d.mem = s.dev.mem ∧
        (bad = true → up d p F.PCIE_POISONED_CPL ∧ up d p F.PCIE_AER_UNCORR ∧ (evtRaw d p).testBit 11 = true))) ∧
    (∀ off k, off < 2 ^ 28 → flagR s.dev p F.PCIE_D3HOT = false → hostReach s.dev (bar2Addr s.dev off) = false →
      Gives (.bar2Access t off false k []) s (emit (badAccess d0) (.readBytes (List.replicate k 0xFF) false))) ∧
    (∀ f, Reach s.dev g → v % 8 = getR s.dev g F.ETH_MODE → Does (.ethModeWrite t e v f) s (fun d =>
      getR d g F.ETH_MTU = v / 2 ^ 16 % 2 ^ 14 ∧ getR d g F.ETH_PAUSE_EN = v / 2 ^ 9 % 2 ∧
      (∀ i < 4, getR d g (F.ETH_LINK i) = getR s.dev g (F.ETH_LINK i)) ∧ d.net = s.dev.net ∧ d.evt = s.dev.evt)) ∧
    (∀ f, Reach s.dev g → v % 8 ≠ getR s.dev g F.ETH_MODE → Does (.ethModeWrite t e v f) s (fun d =>
      getR d g F.ETH_MODE = v % 8 ∧ (∀ i < 4, getR d g (F.ETH_LINK i) = if i < ends (v % 8) then 1 else 0) ∧
      getR d g cSTATE = (if f then 3 else if ends (v % 8) = 0 then 0 else 1) ∧ d.net = s.dev.net)) ∧
    ((laneRuns s.dev e = true ∨ sleeps) ∧ v ≠ 0 ∨ ends (getR s.dev g F.ETH_MODE) ≤ n → v < 3 →
      Gives (.ethLinkChange t e n v) s d0) ∧
    (laneRuns s.dev e = false ∧ ¬sleeps ∨ v = 0 → n < ends (getR s.dev g F.ETH_MODE) → v < 3 →
      Does (.ethLinkChange t e n v) s (fun d =>
        let was := getR s.dev g (F.ETH_LINK n)
        getR d g (F.ETH_LINK n) = v ∧ (∀ i < 4, i ≠ n → getR d g (F.ETH_LINK i) = getR s.dev g (F.ETH_LINK i)) ∧
        (v = 2 → getR d g cSTATE = 2 ∧ (was ≠ 2 → (evtRaw d g).testBit 8 = true)) ∧
        (v ≠ 2 → was = 2 → up d g F.ETH_LINK_DOWNS ∧ (evtRaw d g).testBit 9 = true) ∧
        (v = 2 → (∀ i < 4, getR s.dev g (F.ETH_LINK i) ≠ 2) → ethCfg d e = ethWord s.dev e) ∧ d.mem = s.dev.mem)) ∧
    (∀ ip m, subUp s.dev e n = true → ip ≠ 0 → ip = getR s.dev g (F.ETH_IPV4 n) → Gives (.arpRequest t e n ip m) s
      (sent 0 [(ip : Int), (m : Int), mac])) ∧
    (∀ ip m, subUp s.dev e n = false ∨ ip = 0 ∨ ip ≠ getR s.dev g (F.ETH_IPV4 n) → Gives (.arpRequest t e n ip m) s ignored) ∧
    (∀ ip : List Nat, own true ip →
      Gives (.neighbourSolicitation t e n ip) s (sent 1 (ip.map (fun (x : Nat) => (x : Int)) ++ [mac]))) ∧
    (∀ ip : List Nat, ¬own true ip →
      Gives (.neighbourSolicitation t e n ip) s ignored) ∧
    (∀ b ip i, own b ip → echoes < 100 →
      Does (.echoRequest t e n b ip i) s (fun d => Output.ether e n 2 [(i : Int)] ∈ d.out ∧
        Store.get d.net.echoCount 0 (4 * e + n) = echoes + 1 ∧ Store.get d.net.echoSec 0 (4 * e + n) = now ∧
        up d g F.ETH_TX_PKTS ∧
        RegsBut [(g, F.ETH_RX_PKTS), (g, F.ETH_TX_PKTS), (g, F.ETH_TX_BYTES)] d s.dev ∧ d.evt = s.dev.evt)) ∧
    (∀ b ip i, own b ip → 100 ≤ echoes → Gives (.echoRequest t e n b ip i) s rx) ∧
    (∀ b ip i, ¬own b ip → Gives (.echoRequest t e n b ip i) s ignored) ∧
    (bit (ethCfg s.dev e) 9 = false → Gives (.pauseFrame t e v) s
      (bump (bump rx g F.ETH_PAUSE_RX) g F.ETH_RX_IGNORED)) ∧
    (bit (ethCfg s.dev e) 9 = true → Does (.pauseFrame t e v) s (fun d => up d g F.ETH_PAUSE_RX ∧
      Store.get d.net.pauseUntil 0 e =
        max s.dev.ticks t + cdiv (512 * v) (if getR s.dev g F.ETH_MODE < 4 then 1000 else 250) ∧
      RegsBut [(g, F.ETH_RX_PKTS), (g, F.ETH_PAUSE_RX)] d s.dev ∧ d.evt = s.dev.evt)) ∧
    Gives (.rxIgnored t e true) s (bump d0 g F.ETH_RX_FCS) ∧ Gives (.rxIgnored t e false) s ignored ∧
    (∀ f < 32, Reach s.dev pgFlows →
      Does (.flowWrite t f 0 v) s (fun d => getR d pgFlows (F.FLOWS_DMAC f) % 2 ^ 32 = v % 2 ^ 32 ∧
        RegsBut [(pgFlows, F.FLOWS_DMAC f)] d s.dev) ∧
      Does (.flowWrite t f 1 v) s (fun d => getR d pgFlows (F.FLOWS_DMAC f) / 2 ^ 32 = v % 2 ^ 16 ∧
        getR d pgFlows (F.FLOWS_ETH f) = v / 2 ^ 16 % 2 ∧ getR d pgFlows (F.FLOWS_SUB f) = v / 2 ^ 17 % 4 ∧
        getR d pgFlows (F.FLOWS_IPV6 f) = v / 2 ^ 19 % 2 ∧ getR d pgFlows (F.FLOWS_DSCP f) = v / 2 ^ 20 % 64 ∧
        getR d pgFlows (F.FLOWS_CMD_OK f) = v / 2 ^ 30 % 2 ∧ getR d pgFlows (F.FLOWS_EN f) = v / 2 ^ 31 % 2) ∧
      Does (.flowWrite t f 2 v) s (fun d => getR d pgFlows (F.FLOWS_DPORT f) = v % 2 ^ 16 ∧
        getR d pgFlows (F.FLOWS_SPORT f) = v / 2 ^ 16 % 2 ^ 16) ∧
      Does (.flowWrite t f 3 v) s (fun d => getR d pgFlows (F.FLOWS_RATE f) = v % 2 ^ 16) ∧
      (∀ i < 4, Does (.flowWrite t f (4 + i) v) s (fun d => getR d pgFlows (F.FLOWS_DIP f i) = v % 2 ^ 32 ∧
        RegsBut [(pgFlows, F.FLOWS_DIP f i)] d s.dev)))

/-- R404, R405, R408–R413: the first held item of a ring is dropped where it can never be delivered, and else written to
the host's buffer, its pad and write-back with it, or sent as fragments, or stays; a hold that expires drops it; RD moves;
a new binding empties the ring; losses are reported once their second has ended; an aged item sets the indication. -/
def Obligations.RingsCarryItems : Prop :=
  ∀ (s : State) (t r v : Nat), r < 32 → Awake s →
    let p := pgRings
    let d0 := advance s.dev t
    let x := ringSt s.dev r
    let up (d : Dev) (f : Fld) : Prop := getR d p f = min (getR s.dev p f + 1) (2 ^ 32 - 1)
    let wr := getR s.dev p (F.RINGS_WR r)
    let base := getR s.dev p (F.RINGS_BASE r) / 4096 * 4096
    let back (w : Nat) : Output := .hostWrite (getR s.dev p F.RINGS_WB_BASE / 64 * 64 + 4 * r) (leBytes 4 w)
    let size := ringSize s.dev r
    let f := getR s.dev p (F.RINGS_FLOW r)
    let limit (z : Held) : Nat := z.since + 100 * getR s.dev p (F.RINGS_HOLD_US r)
    let late (now : Nat) (z : Held) : Prop := waits s.dev r z.item = false ∧ limit z ≤ now
    let onTime : Prop := ∀ z ∈ x.held, waits s.dev r z.item = true ∨ max s.dev.ticks t ≤ limit z
    (x.held = [] → Gives (.ringItemDeliver t r) s d0) ∧
    Does (.ringItemDeliver t r) s (fun d => ∀ z ∈ (ringSt d r).held, z ∈ x.held ∧
      (waits s.dev r z.item = true ∨ d.ticks ≤ limit z)) ∧
    (∀ h q c, x.held = h :: q → onTime → dropCause s.dev r h.item = some c → Does (.ringItemDeliver t r) s (fun d =>
      up d (F.RINGS_DROPS r) ∧ (ringSt d r).held = q ∧ (x.dropArmed = true → (evtRaw d p).testBit 8 = true) ∧
      (h.item.src ≠ 30 → (ringSt d r).losses ≠ []) ∧ getR d p (F.RINGS_ITEMS r) = getR s.dev p (F.RINGS_ITEMS r) ∧
      d.mem = s.dev.mem)) ∧
    (∀ h q, x.held = h :: q → onTime → dropCause s.dev r h.item = none → ringBind s.dev r = 1 → ringFits s.dev r h.item = true →
      Does (.ringItemDeliver t r) s (fun d =>
        let sp := itemSpace h.item
        Output.hostWrite (base + wr) (padTo sp (itemHeader r 0 h.item.bytes.length h.seq ++ h.item.bytes)) ∈ d.out ∧
        back ((wr + sp) % size) ∈ d.out ∧ getR d p (F.RINGS_WR r) = (wr + sp) % size ∧ up d (F.RINGS_ITEMS r) ∧
        (ringSt d r).held = q ∧ (ringSt d r).dropArmed = true ∧ d.mem = s.dev.mem)) ∧
    (∀ h q, x.held = h :: q → onTime → dropCause s.dev r h.item = none → ringBind s.dev r = 1 →
      wr + itemSpace h.item ≤ size → ringFits s.dev r h.item = false → Gives (.ringItemDeliver t r) s d0) ∧
    (∀ h q, x.held = h :: q → onTime → dropCause s.dev r h.item = none → ringBind s.dev r = 1 →
      size - wr < itemSpace h.item → size - wr ≤ ringFree s.dev r → Does (.ringItemDeliver t r) s (fun d =>
        Output.hostWrite (base + wr) (itemHeader r 1 (size - wr - 16) 0) ∈ d.out ∧ back 0 ∈ d.out)) ∧
    (∀ h q, x.held = h :: q → onTime → dropCause s.dev r h.item = none → ringBind s.dev r ≠ 1 → flowReady s.dev f = false →
      s.dev.ticks = d0.ticks → Gives (.ringItemDeliver t r) s d0) ∧
    (∀ h q, x.held = h :: q → onTime → dropCause s.dev r h.item = none → ringBind s.dev r ≠ 1 → flowReady s.dev f = true →
      Does (.ringItemDeliver t r) s (fun d =>
        let n := fragCount s.dev f h.item.bytes.length
        (∀ o ∈ fragments r f (fragBytes s.dev f) n (itemNumber h) h.item.bytes, o ∈ d.out) ∧
        getR d pgFlows (F.FLOWS_PKTS f) = min (getR s.dev pgFlows (F.FLOWS_PKTS f) + n) (2 ^ 32 - 1) ∧
        up d (F.RINGS_ITEMS r) ∧ (ringSt d r).held = q ∧ d.mem = s.dev.mem)) ∧
    ((∀ z ∈ x.held, ¬late (max s.dev.ticks t) z) → Gives (.ringHoldExpiry t r) s d0) ∧
    ((∃ z ∈ x.held, late (max s.dev.ticks t) z) → Does (.ringHoldExpiry t r) s (fun d =>
      let stay := x.held.filter (fun z => waits s.dev r z.item || decide (max s.dev.ticks t < limit z))
      (ringSt d r).held = stay ∧ getR d p (F.RINGS_DROPS r) =
        min (getR s.dev p (F.RINGS_DROPS r) + (x.held.length - stay.length)) (2 ^ 32 - 1) ∧
      ((∃ z ∈ x.held, late (max s.dev.ticks t) z ∧ z.item.src ≠ 30) → (ringSt d r).losses ≠ []) ∧
      d.mem = s.dev.mem)) ∧
    (Reach s.dev p → r = 28 → Gives (.ringRdWrite t r v) s (setR d0 p (F.RINGS_RD 28) (v / 32 * 32))) ∧
    (Reach s.dev p → r ≠ 28 → Does (.ringRdWrite t r v) s (fun d => getR d p (F.RINGS_RD r) = v / 64 * 64 % 2 ^ 30 ∧
      (ringSt d r).held = x.held ∧ (ringSt d r).seq = x.seq ∧ (∀ e ∈ (ringSt d r).written, e ∈ x.written) ∧
      (x.aged = false → (ringSt d r).aged = false) ∧ RegsBut [(p, F.RINGS_RD r)] d s.dev ∧ d.evt = s.dev.evt)) ∧
    (Reach s.dev p → Gives (.ringBindWrite t r 3 v) s
      (setR (setR d0 p (F.RINGS_HOLD_US r) v) p (F.RINGS_NOTIFY_64B r) (v / 65536))) ∧
    (Reach s.dev p → ∀ w < 3, Does (.ringBindWrite t r w v) s (fun d => (ringSt d r).held = [] ∧
      (ringSt d r).written = [] ∧ (ringSt d r).seq = x.seq ∧ getR d p (F.RINGS_WR r) = 0 ∧ getR d p (F.RINGS_RD r) = 0 ∧
      (getR d p F.RINGS_STOPPED).testBit r = false ∧
      (w = 0 → getR d p (F.RINGS_BIND r) = v % 4 ∧ getR d p (F.RINGS_MODE r) = v / 4 % 2 ∧
        getR d p (F.RINGS_NOTIFY_EN r) = v / 8 % 2 ∧ getR d p (F.RINGS_FLOW r) = v / 2 ^ 8 % 32 ∧
        getR d p (F.RINGS_SIZE_LOG2 r) = v / 2 ^ 24 % 32 ∧ (v % 4 = 1 → hostUp s.dev = true → back 0 ∈ d.out)) ∧
      (w = 1 → getR d p (F.RINGS_BASE r) % 2 ^ 32 = v / 4096 * 4096 % 2 ^ 32) ∧
      (w = 2 → getR d p (F.RINGS_BASE r) / 2 ^ 32 = v % 2 ^ 32))) ∧
    Does (.lossReport t) s (fun d => (∀ q < 32, ∀ l ∈ (ringSt d q).losses, l.sec = taiSec (tai d)) ∧
      d.mem = s.dev.mem ∧ ∀ q l, ringOf s.dev 30 = some q → ringBind s.dev q ≠ 0 → (ringSt s.dev q).held ≠ [] →
        l ∈ x.losses → l.sec ≠ taiSec (tai d) → ∃ h ∈ (ringSt d q).held, h.item.src = 30 ∧ h.item.bytes = lossReport r l) ∧
    Does (.notifyTimeout t r) s (fun d => ((ringSt d r).aged = true ↔ x.aged = true ∨
      ∃ e ∈ x.written, e.2 + 100 * getR s.dev p F.RINGS_NOTIFY_US < max s.dev.ticks t) ∧
      (ringSt d r).held = x.held ∧ d.regs = s.dev.regs ∧ d.evt = s.dev.evt ∧ d.mem = s.dev.mem)

/-- R414, R415: a datagram is ignored, rejected, dropped or queued; an entry is taken once no command is in progress,
and one whose format is wrong fails at once; the operations make their accesses in order and complete with the lowest
status other than 0; WAIT reads until its condition holds or its time is over. -/
def Obligations.CommandsRunInOrder : Prop :=
  ∀ (s : State) (t : Nat), Awake s →
    let c := s.dev.cmd
    let d0 := advance s.dev t
    let p := pgRings
    let free : Prop := c.cur = none ∧ ringStopped s.dev 28 = false ∧
      (flagR s.dev p (F.RINGS_MODE 29) = false ∨ (ringSt s.dev 29).held = [])
    let fails (d : Dev) : Prop := d.cmd.cur = none ∧ (∀ f ∈ [F.RINGS_CMD_EXEC, F.RINGS_CMD_ERRORS],
      getR d p f = min (getR s.dev p f + 1) (2 ^ 32 - 1)) ∧ (evtRaw d p).testBit 10 = true
    let ready (e : CmdEntry) (op : Nat) : Prop := c.cur = some e ∧ e.op = op ∧ c.away = false ∧ c.words = [] ∧
      c.waitSince = none
    let ops : List (Nat × Instr) := [(1, .cmdRead t), (2, .cmdWrite t), (3, .cmdModify t), (4, .cmdWait t)]
    let first : Dev := { d0 with cmd := { c with waitSince := some d0.ticks, readAt := d0.ticks } }
    let poll (at_ : Nat) : Dev := { advance s.dev (max t at_) with cmd := { c with readAt := max s.dev.ticks (max t at_) } }
    (∀ e n v6 src sp dp data, e < 2 → n < 4 → sp < 65536 → dp < 65536 →
      let rx := bump d0 (pgEth e) F.ETH_RX_PKTS
      let mine : Prop := subUp s.dev e n = true ∧ ringBind s.dev 28 = 2 ∧ dp = getR s.dev pgFlows F.FLOWS_CMD_PORT
      let good : Prop := (∃ f < 32, cmdFlow s.dev v6 src sp f = true) ∧ data.length % 32 = 0 ∧ 32 ≤ data.length ∧
        data.length ≤ 2048
      let k := c.queue.length + data.length / 32
      let cmd := Instr.cmdDatagram t e n v6 src sp dp data
      (¬mine → Gives cmd s (bump rx (pgEth e) F.ETH_RX_IGNORED)) ∧
      (mine → ¬good → Gives cmd s (raise (bump rx pgFlows F.FLOWS_CMD_REJECTS) pgFlows 8)) ∧
      (mine → good → 256 < k → Gives cmd s (raise (bump rx pgFlows F.FLOWS_CMD_DROPS) pgFlows 9)) ∧
      (mine → good → k ≤ 256 → Gives cmd s
        { bump rx pgFlows F.FLOWS_CMD_RX with cmd := { c with queue := c.queue ++ entriesOf data } })) ∧
    (∀ b, ¬free ∨ ringBind s.dev 28 = 0 ∨ (ringBind s.dev 28 = 2 ∧ c.queue = []) ∨ (ringBind s.dev 28 = 1 ∧
        (hostUp s.dev = false ∨ getR s.dev p (F.RINGS_WR 28) = getR s.dev p (F.RINGS_RD 28) % ringSize s.dev 28)) →
      Gives (.cmdEntryFetch t b) s d0) ∧
    (∀ a b r, free → ringBind s.dev 28 = 2 → c.queue = b :: r → entryGood b = true → Does (.cmdEntryFetch t a) s (fun d =>
      d.cmd.cur = some (entryOf b) ∧ d.cmd.queue = r ∧ d.cmd.status = 0 ∧ d.regs = s.dev.regs ∧ d.evt = s.dev.evt)) ∧
    (∀ a b r, free → ringBind s.dev 28 = 2 → c.queue = b :: r → entryGood b = false → Does (.cmdEntryFetch t a) s (fun d =>
      fails d ∧ d.cmd.queue = r)) ∧
    (∀ b : List Nat, free → ringBind s.dev 28 = 1 → hostUp s.dev = true → b.length = 32 → (∀ x ∈ b, x < 256) →
      getR s.dev p (F.RINGS_WR 28) ≠ getR s.dev p (F.RINGS_RD 28) % ringSize s.dev 28 →
      (entryGood b = true → Does (.cmdEntryFetch t b) s (fun d => d.cmd.cur = some (entryOf b) ∧
        getR d pgPcie F.PCIE_RD_BYTES = (getR s.dev pgPcie F.PCIE_RD_BYTES + 32) % 2 ^ 64 ∧
        RegsBut [(pgPcie, F.PCIE_RD_BYTES)] d s.dev)) ∧
      (entryGood b = false → Does (.cmdEntryFetch t b) s (fun d => fails d ∧
        getR d p (F.RINGS_WR 28) = (getR s.dev p (F.RINGS_WR 28) + 32) % ringSize s.dev 28))) ∧
    (∀ i ∈ ops, (∀ e, ¬ready e i.1) → Gives i.2 s d0) ∧
    (∀ i ∈ ops, ∀ e d, i.1 < 4 → c.old = none → ready e i.1 →
      busAccess d0 1 e.addr (decide (i.1 = 2)) 4 (if i.1 = 2 then e.data else 0) = (none, d) →
      Gives i.2 s { d with cmd := { d.cmd with away := true } }) ∧
    (∀ e (ds : Nat → Dev) (as : Nat → Nat × Nat), ready e 1 → 1 ≤ e.count → e.count ≤ 64 → ds 0 = d0 →
      let words (k : Nat) : List Nat := (List.range k).map (fun i => (as i).2)
      let status (k : Nat) : Nat := (List.range k).foldl (fun q i => lowStatus q (as i).1) c.status
      let at_ (k : Nat) : CmdSt := if k = 0 then c else { c with words := words k, status := status k, away := false }
      (∀ k < e.count, busAccess { ds k with cmd := at_ k } 1 (e.addr + 4 * k) false 4 0 = (some (as k), ds (k + 1)) ∧
        (ds (k + 1)).cmd = at_ k) →
      Gives (.cmdRead t) s (cmdFinish (ds e.count) e (status e.count) (words e.count))) ∧
    (∀ e d a, ready e 2 → busAccess d0 1 e.addr true 4 e.data = (some a, d) → d.cmd = c →
      Gives (.cmdWrite t) s (cmdFinish d e (lowStatus c.status a.1) [])) ∧
    (∀ e d a d' a', ready e 3 → c.old = none → busAccess d0 1 e.addr false 4 0 = (some a, d) → d.cmd = c →
      let c' := { c with old := some a.2, status := lowStatus c.status a.1, away := false }
      busAccess { d with cmd := c' } 1 e.addr true 4 (modified e a.2) = (some a', d') → d'.cmd = c' →
      Gives (.cmdModify t) s (cmdFinish d' e (lowStatus c'.status a'.1) [modified e a.2])) ∧
    (∀ e d a, ready e 4 → busAccess first 1 e.addr false 4 0 = (some a, d) → d.cmd = first.cmd → d.ticks = d0.ticks →
      1 ≤ e.timeout →
      (a.2 &&& e.mask = e.data → Gives (.cmdWait t) s (cmdFinish d e (lowStatus c.status a.1) [a.2])) ∧
      (a.2 &&& e.mask ≠ e.data → Gives (.cmdWait t) s
        { d with cmd := { first.cmd with status := lowStatus c.status a.1, away := false } })) ∧
    (∀ e d, ready e 4 → busAccess first 1 e.addr false 4 0 = (none, d) →
      Gives (.cmdWait t) s { d with cmd := { d.cmd with away := true } }) ∧
    (c.cur = none ∨ c.waitSince = none ∨ c.away = true → Gives (.cmdWaitPoll t) s d0) ∧
    (∀ e w d a, c.cur = some e → c.waitSince = some w → c.away = false → e.op = 4 →
      let d1 := poll (c.readAt + 100)
      busAccess d1 1 e.addr false 4 0 = (some a, d) → d.cmd = d1.cmd → d.ticks = d1.ticks →
      let st := lowStatus c.status a.1
      (a.2 &&& e.mask = e.data → Gives (.cmdWaitPoll t) s (cmdFinish d e st [a.2])) ∧
      (a.2 &&& e.mask ≠ e.data → w + 100 * e.timeout ≤ d1.ticks →
        Gives (.cmdWaitPoll t) s (cmdFinish d e (lowStatus st 4) [a.2])) ∧
      (a.2 &&& e.mask ≠ e.data → d1.ticks < w + 100 * e.timeout →
        Gives (.cmdWaitPoll t) s { d with cmd := { d1.cmd with status := st, away := false } })) ∧
    (∀ d e st ws, (cmdFinish d e st ws).cmd.cur = none ∧ getR (cmdFinish d e st ws) p F.RINGS_CMD_EXEC =
      min (getR d p F.RINGS_CMD_EXEC + 1) (2 ^ 32 - 1))

/-! ## Pacer, resets, start-up and shut-down, self-test (R420–R473) -/

/-- R420–R422, R424–R427, R432–R435: a tick takes the lowest headroom term as H and a step within STEPS; forced jobs run and
below headroom 0 no other does; the gain of a rail follows its reading; power states are requested, entered and left; a
report has 64 bytes. -/
def Obligations.PacerRunsItsTick : Prop :=
  ∀ (s : State) (t v e : Nat), Awake s →
    let p := pgPace
    let d0 := advance s.dev t
    let x := s.dev.pacer
    let up (d : Dev) (f : Fld) : Prop := getR d p f = min (getR s.dev p f + 1) (2 ^ 32 - 1)
    let noStop : Prop := s.dev.boot.stop = none
    let ps := pState s.dev
    let entered (d : Dev) (k : Nat) : Prop := pState d = k ∧ getR d p cSTATE = k ∧ (evtRaw d p).testBit 12 = true
    (∀ est, isFenced s.dev regService = true → Gives (.pacerTick t est) s d0) ∧
    (∀ est, isFenced s.dev regService = false → Does (.pacerTick t est) s (fun d => up d F.PACE_TICKS ∧ d.time.msDone * msU ≤ tai d ∧
      getS d p F.PACE_H = min (min (getS d p F.PACE_H_PWR) (getS d p F.PACE_H_TEMP))
        (min (getS d p F.PACE_H_ENERGY) (getS d p F.PACE_H_WEAR)) ∧
      -1024 ≤ getS d p F.PACE_H ∧ getS d p F.PACE_H ≤ 1024 ∧
      (flagR s.dev p F.PACE_PWR_EN = false → getS d p F.PACE_H_PWR = 1024) ∧
      (flagR s.dev p F.PACE_PWR_EN = true → getR s.dev p F.PACE_PWR_CAP = 0 → getS d p F.PACE_H_PWR = -1024) ∧
      getR d p F.PACE_STEP ≤ min 16 (getR s.dev p F.PACE_STEPS))) ∧
    (∀ d : Dev, flagR d p F.PACE_AUTO = false → stepWant d = min (min 16 (getR d p F.PACE_STEPS)) (getR d p F.PACE_MAN_STEP)) ∧
    (∀ d : Dev, flagR d p F.PACE_AUTO = true → getR d p F.PACE_STEP < min 16 (getR d p F.PACE_STEPS) → d.pacer.since = none →
      max 1 (getR d p F.PACE_DOWN_MS) ≤ d.pacer.runDown → stepWant d = getR d p F.PACE_STEP + 1) ∧
    (∀ d : Dev, ∀ i < 64, jValid d i = true → jForced d i = true → jRuns (grants d) i = true) ∧
    (∀ d : Dev, ∀ i < 64, paceH d < 0 → jValid d i = true → jForced d i = false → jRuns (revokeAll d) i = false) ∧
    (∀ d : Dev, (reportBytes d).length = 64) ∧
    (∀ m, Does (.pmbusTelemetry t m) s (fun d => d.pacer.ests = List.replicate 9 0 ∧ d.pacer.estN = 0 ∧
      d.pacer.telemAt = d.ticks ∧ x.telemAt + 100000000 ≤ d.ticks ∧ ∀ r < 9, x.gains.length = 9 →
        let g : Rat := (m.getD r (-1) * (x.estN : Int) : Int) / (x.ests.getD r 0 : Rat)
        (flagR s.dev p (F.PACE_TELEM_EN r) = false → d.pacer.gains.getD r 1 = x.gains.getD r 1) ∧
        (flagR s.dev p (F.PACE_TELEM_EN r) = true → 0 ≤ m.getD r (-1) → x.ests.getD r 0 ≠ 0 → 4 / 5 ≤ g → g ≤ 5 / 4 →
          d.pacer.gains.getD r 1 = g) ∧
        (flagR s.dev p (F.PACE_TELEM_EN r) = true → m.getD r (-1) < 0 → (evtRaw d p).testBit 13 = true))) ∧
    (Reach s.dev p → getR s.dev p F.PACE_JOB_CLASS < 2 ∨ (∀ i, 48 ≤ i → i < 64 → jValid s.dev i = true) →
      Gives (.jobPost t) s (bump d0 p F.PACE_JOBS_REFUSED)) ∧
    (Reach s.dev p → 2 ≤ getR s.dev p F.PACE_JOB_CLASS → 48 ≤ e → e < 64 → jValid s.dev e = false →
      (∀ i, 48 ≤ i → i < e → jValid s.dev i = true) → Gives (.jobPost t) s
        (fillJob d0 e (getR s.dev p F.PACE_JOB_TAG) 0xF (getR s.dev p F.PACE_JOB_CLASS) (getR s.dev p F.PACE_JOB_COST_MW)
          (getR s.dev p F.PACE_JOB_DUR_MS) (if getR s.dev p F.PACE_JOB_DEADLINE_S = 0 then 0
            else taiSec (tai d0) + getR s.dev p F.PACE_JOB_DEADLINE_S))) ∧
    (Reach s.dev p → e < 48 → Gives (.jobDone t e) s d0) ∧
    (Reach s.dev p → 48 ≤ e → e < 64 → Does (.jobDone t e) s (fun d => jValid d e = false ∧ jRuns d e = false ∧
      e ∉ d.pacer.revoked ∧ (∀ i < 64, i ≠ e → jValid d i = jValid s.dev i) ∧ d.evt = s.dev.evt)) ∧
    (Reach s.dev p → x.power ≠ 0 → Gives (.pstate t 0) s (bump d0 p F.PACE_PSTATE_REFUSED)) ∧
    (Reach s.dev p → x.power = 0 → ps = 1 → noStop → Does (.pstate t 0) s (fun d => entered d 0)) ∧
    (Reach s.dev p → v = 1 ∨ v = 2 → ps = 2 ∨ ps = v ∨ ¬noStop → Gives (.pstate t v) s d0) ∧
    (Reach s.dev p → x.power = 0 → ps = 2 → noStop → x.goal = none → Gives (.pstate t 0) s
      { d0 with pacer := { x with goal := some (0, 0) } }) ∧
    (Reach s.dev p → x.power = 0 → ps = 0 → x.goal = none → Gives (.pstate t 0) s d0) ∧
    (Reach s.dev p → v = 1 ∨ v = 2 → ps ≠ 2 → ps ≠ v → noStop →
      Does (.pstate t v) s (fun d => d.pacer.goal = some (v, 0) ∧
        ((∀ n, (line s.dev n).waitWake = false) → d.regs = s.dev.regs) ∧ ∀ n < 12,
        ((line s.dev n).waitWake = true → (line d n).waitWake = false ∧ n ∈ d.pacer.held) ∧
        ((line s.dev n).waitWake = false → (line s.dev n).base ≠ 0 → (line s.dev n).base ≠ 6 →
          (line d n).base = (line s.dev n).base ∧ (line d n).paceStop = true ∧ n ∈ d.pacer.held))) ∧
    (Reach s.dev p → ps ≠ 2 → noStop → s.dev.boot.failed = false → Does (.pstate t 3) s (fun d =>
      d.boot.stop = some ⟨1, 0, none⟩ ∧ d.pacer.goal = none)) ∧
    (Reach s.dev p → ps = 2 → noStop → s.dev.boot.failed = false → Does (.pstate t 3) s (fun d =>
      d.boot.stop = some ⟨4, 0, none⟩ ∧ d.pacer.goal = none)) ∧
    (Reach s.dev p → ¬noStop ∨ s.dev.boot.failed = true → Gives (.pstate t 3) s d0) ∧
    ((∀ c, x.goal ≠ some (2, c)) ∨ allOff s.dev = false → Gives (.sleepEntered t) s d0) ∧
    (∀ c, x.goal = some (2, c) → allOff s.dev = true → Does (.sleepEntered t) s (fun d => entered d 2 ∧
      d.pacer.goal = none ∧ arcSt d ≠ 2 ∧ arcSt d ≠ 3 ∧ ∀ k < 2,
        getR d (pgDmc k) cSTATE = (if getR s.dev (pgDmc k) cSTATE = 0 then 0 else 2) ∧
        getR d (pgBridge (k + 1)) F.BRIDGE_LINK_STATE = 0)) ∧
    ((∀ c, x.goal ≠ some (0, c)) ∨ ps ≠ 2 → Gives (.runRestored t) s d0) ∧
    (∀ c, x.goal = some (0, c) → ps = 2 → Does (.runRestored t) s (fun d => entered d 0 ∧
      ∀ k < 2, getR d (pgBridge (k + 1)) F.BRIDGE_LINK_STATE = 2)) ∧
    (getR s.dev p F.PACE_WAKE_ALARM_S = 0 ∨ ps ≠ 2 → Gives (.wakeAlarm t) s d0) ∧
    (∀ a, getR s.dev p F.PACE_WAKE_ALARM_S = a → a ≠ 0 → a < 2 ^ 32 → ps = 2 → x.goal = none → noStop →
      Does (.wakeAlarm t) s (fun d => d.pacer.goal = some (0, 2) ∧ taiSec (tai d) % 2 ^ 32 = a ∧ d.regs = s.dev.regs)) ∧
    (∀ g < 16, ps = 2 → flagR s.dev p F.PACE_WAKE_EN = true → getR s.dev p F.PACE_WAKE_PIN = g → x.goal = none → noStop →
      Gives (.wakePin t g) s { d0 with pacer := { x with goal := some (0, 3) } }) ∧
    (∀ g < 16, ps ≠ 2 ∨ flagR s.dev p F.PACE_WAKE_EN = false ∨ getR s.dev p F.PACE_WAKE_PIN ≠ g →
      Gives (.wakePin t g) s d0) ∧
    (x.repDue = false → Gives (.pacerReport t) s d0) ∧
    (x.repDue = true → Gives (.pacerReport t) s
      (offerBytes { d0 with pacer := { x with repDue := false } } 31 (reportBytes d0)))

/-- R37, R307, R436, R439–R441: a reset leaves every register outside the backup domain, the fuses and the Almanac at its
reset value, names its cause, and keeps the index of PKG_IDX but for a power-on reset; a valid backup counter gives the
time; a software reset shuts down first; the backup domain follows its supply, its oscillator and its alarm. -/
def Obligations.ResetsAndBackupDomain : Prop :=
  ∀ (s : State) (t idx : Nat), idx < 8 →
    let b := pgBkp
    let d0 := advance s.dev t
    let kept : List (Nat × Fld) := (List.range 4).map (fun w => (b, F.BKP_RETAIN w)) ++ [(b, F.BKP_VALID),
      (b, F.BKP_OSC_FAIL), (b, F.BKP_VBAT_LOW), (pgArc, F.ARC_NEXT_PIN), (pgPkg, F.PKG_RESET_CAUSE),
      (pgPkg, F.PKG_PKG_INDEX), (pgPkg, F.PKG_LC_STATE), (pgPkg, F.PKG_PKG_ID), (pgPkg, F.PKG_NEXT_ACC),
      (pgPkg, F.PKG_RSV_END)]
    let fresh (d : Dev) (k : Nat) : Prop := getR d pgPkg F.PKG_RESET_CAUSE = k ∧ (∀ n, (line d n).base = 0) ∧
      d.fenced = [] ∧ d.stk = [] ∧ (getR s.dev b F.BKP_VALID = 0 → RegsBut kept d State.reset.dev ∧ ∀ p, evtRaw d p = 0)
    let timeKept (d : Dev) : Prop := getR s.dev b F.BKP_VALID = 1 →
      tai d = (bkpSecs d0 : Int) * secU + (bkpPhase d0 : Int) * 2000000000 ∧
        ∀ w < 4, getR d b (F.BKP_RETAIN w) = getR s.dev b (F.BKP_RETAIN w) % 2 ^ 32
    let a := s.dev.boot.offAlarm
    Does (.powerOnReset t idx) s (fun d => fresh d 0 ∧ timeKept d ∧ getR d pgPkg F.PKG_PKG_INDEX = idx ∧
      getR d pgPkg F.PKG_LC_STATE = s.dev.boot.fuseLc % 4 ∧ d.boot.held = false ∧ d.mem = [] ∧
      (getR s.dev b F.BKP_VALID = 0 → ∀ w < 4, getR d b (F.BKP_RETAIN w) = 0)) ∧
    Does (.powerOnResetHold t) s (fun d => d.boot.held = true ∧ fresh d 0 ∧ timeKept d) ∧
    (Awake s → Does (.pinReset t) s (fun d => fresh d 1 ∧ timeKept d ∧ d.mem = s.dev.mem ∧
      getR d pgPkg F.PKG_PKG_INDEX = getR s.dev pgPkg F.PKG_PKG_INDEX % 8)) ∧
    (∀ k, Awake s → k ≠ 0x5A17 ∨ s.dev.boot.stop.isSome = true → Gives (.warmReset t k) s d0) ∧
    (Awake s → s.dev.boot.stop = none → s.dev.boot.failed = true ∨ pState s.dev = 2 →
      Does (.warmReset t 0x5A17) s (fun d => fresh d 2 ∧ timeKept d)) ∧
    (Awake s → s.dev.boot.stop = none → s.dev.boot.failed = false → pState s.dev ≠ 2 →
      Does (.warmReset t 0x5A17) s (fun d => d.boot.stop = some ⟨1, 3, some 2⟩ ∧ d.mem = s.dev.mem)) ∧
    Gives (.wakeNFall t) s (emit { d0 with boot := { s.dev.boot with supply := true } } (.pin .supplyEn 1)) ∧
    Does (.vbatApplied t) s (fun d => d.boot.supply = true ∧ Output.pin .supplyEn 1 ∈ d.out ∧ d.vbatLow18 = false ∧
      getR d b F.BKP_VBAT_LOW = 0 ∧ RegsBut [(b, F.BKP_VBAT_LOW)] d s.dev ∧ d.evt = s.dev.evt) ∧
    (a = 0 ∨ flagR s.dev b F.BKP_VALID = false ∨ s.dev.boot.supply = true → Gives (.offAlarm t) s d0) ∧
    (a ≠ 0 → a < 2 ^ 32 → flagR s.dev b F.BKP_VALID = true → s.dev.boot.supply = false → Does (.offAlarm t) s (fun d =>
      d.boot.supply = true ∧ Output.pin .supplyEn 1 ∈ d.out ∧ taiSec (bkpTai d) % 2 ^ 32 = a ∧ d.regs = s.dev.regs)) ∧
    (∀ low, Does (.vbatLow t low) s (fun d => flagR d b F.BKP_VBAT_LOW = low ∧
      (low = true → flagR s.dev b F.BKP_VBAT_LOW = false → (evtRaw d b).testBit 8 = true) ∧
      (low = false ∨ flagR s.dev b F.BKP_VBAT_LOW = true → d.evt = s.dev.evt) ∧
      RegsBut [(b, F.BKP_VBAT_LOW)] d s.dev ∧ d.mem = s.dev.mem)) ∧
    (∀ fail long, Does (.oscFail t fail long) s (fun d => flagR d b F.BKP_OSC_FAIL = fail ∧
      (fail = true → flagR s.dev b F.BKP_OSC_FAIL = false → (evtRaw d b).testBit 9 = true) ∧
      (fail = true → long = true → getR d b F.BKP_VALID = 0) ∧
      (fail = false ∨ long = false → getR d b F.BKP_VALID = getR s.dev b F.BKP_VALID) ∧
      RegsBut [(b, F.BKP_OSC_FAIL), (b, F.BKP_VALID)] d s.dev ∧ d.mem = s.dev.mem)) ∧
    Gives (.backupValidLost t) s (setR { d0 with vbatLow18 := true } b F.BKP_VALID 0)

/-- R443–R445, R447–R452: the stages of a start follow each other; the life-cycle advances by one where the request is
good; the watchdog resets the management core, and the package where expiries are dense; a line reset fences its region
until it is released. -/
def Obligations.StartsLifeCycleWatchdogAndLineResets : Prop :=
  ∀ (s : State) (t n : Nat), n < 12 → Awake s →
    let p := pgPkg
    let d0 := advance s.dev t
    let b := s.dev.boot
    let stage := getR s.dev p F.PKG_BOOT_STAGE
    let up (d : Dev) (f : Fld) : Prop := getR d p f = min (getR s.dev p f + 1) (2 ^ 32 - 1)
    let base := (line s.dev n).base
    let fenced := isFenced s.dev n
    let auto := getR s.dev p F.PKG_LINE_AUTO_S
    let frozen := Store.get b.frozenAt 0 n
    (∀ v c, b.stop.isSome = true ∨ (5 < stage) ∨ ((stage = 2 ∨ stage = 4 ∨ (stage = 3 ∧ b.dram = true)) ∧
      bistQuiet s.dev = false) ∨ (stage = 5 ∧ arcSt s.dev = 1) → Gives (.bootStageEnd t v c) s d0) ∧
    (∀ v c, b.stop = none → stage = 0 → Does (.bootStageEnd t v c) s (fun d => getR d p F.PKG_BOOT_STAGE = 1 ∧
      flagR d p F.PKG_UNCLEAN = !b.orderly ∧ flagR d p F.PKG_TRIP_SEEN = b.trip.isSome ∧ d.boot.orderly = false ∧
      (∀ i < 12, getR d (pgRx i) F.RX_GAIN_DLY = clampN 2 6 (b.fuseTrim.getD i 2)) ∧
      ∀ k < 2, getR d (pgBridge (k + 1)) F.BRIDGE_LINK_STATE = 2)) ∧
    (∀ v c, b.stop = none → stage = 1 → v.getD 0 0 ≠ 1 → v.getD 1 0 ≠ 1 → Gives (.bootStageEnd t v c) s
      (setR d0 p F.PKG_BOOT_STAGE 15)) ∧
    (∀ v c, ∀ k < 2, b.stop = none → stage = 1 → v.getD k 0 = 1 → (k = 1 → v.getD 0 0 ≠ 1) →
      Does (.bootStageEnd t v c) s (fun d => getR d p F.PKG_BOOT_STAGE = 2 ∧ getR d p F.PKG_BOOT_SLOT = k ∧
        d.boot.fw = v.getD (2 + k) 0 % 2 ^ 32 ∧ d.boot.cfg = c)) ∧
    (∀ v c, b.stop = none → stage = 2 → bistQuiet s.dev = true → b.cfg = [] → Gives (.bootStageEnd t v c) s
      (setR d0 p F.PKG_BOOT_STAGE 3)) ∧
    (∀ v c, b.stop = none → stage = 2 → bistQuiet s.dev = true → Gives (.bootStageEnd t v c) s
      (applyCfg (setR d0 p F.PKG_BOOT_STAGE 3) dmcWord)) ∧
    (∀ v c, b.stop = none → stage = 3 → b.dram = true → bistQuiet s.dev = true → b.cfg = [] →
      Does (.bootStageEnd t v c) s (fun d => getR d p F.PKG_BOOT_STAGE = 4)) ∧
    (∀ v c, b.stop = none → stage = 4 → bistQuiet s.dev = true → Does (.bootStageEnd t v c) s (fun d =>
      getR d p F.PKG_BOOT_STAGE = 5)) ∧
    (∀ v c, b.stop = none → stage = 3 → b.dram = false → b.cfg = [] → Does (.bootStageEnd t v c) s (fun d =>
      d.boot.dram = true ∧ d.rankMiB = v.getD 0 0 ∧ ∀ k < 2, getR d (pgDmc k) cSTATE = 1)) ∧
    (∀ v c, b.stop = none → stage = 4 → s.dev.bist = none → Gives (.bootStageEnd t v c) s
      (setR d0 p F.PKG_BOOT_STAGE 5)) ∧
    (∀ v c, b.stop = none → stage = 5 → arcSt s.dev ≠ 1 → Does (.bootStageEnd t v c) s (fun d =>
      getR d p F.PKG_BOOT_STAGE = 6 ∧ (evtRaw d p).testBit 12 = true ∧ d.boot.trip = none ∧
      getR d p F.PKG_BOOT_MS = min (2 ^ 32 - 1) ((d.ticks - b.releaseAt) / 100000))) ∧
    (∀ k ok v, k ≠ 0x5A17 → Gives (.lcAdvance t k ok v) s d0) ∧
    (∀ ok v, lcGood s.dev b.fuseLc ok v = false → Gives (.lcAdvance t 0x5A17 ok v) s (setR d0 p F.PKG_LC_ERR 1)) ∧
    (∀ ok v, lcGood s.dev b.fuseLc ok v = true → b.fuseLc < 3 ∧ getR s.dev p F.PKG_LC_TARGET = b.fuseLc + 1 ∧ v = true ∧
      Does (.lcAdvance t 0x5A17 ok v) s (fun d => d.boot.fuseLc = b.fuseLc + 1 ∧ getR d p F.PKG_LC_ERR = 0 ∧
        (evtRaw d p).testBit 15 = true ∧ RegsBut [(p, F.PKG_LC_ERR)] d s.dev ∧ ∃ e ∈ d.ledgerOut, e.kind = 0x0703)) ∧
    Gives (.wdogKick t 0x4B4B) s { d0 with boot := { b with kick := d0.ticks, grace := false } } ∧
    (∀ v, v ≠ 0x4B4B → Gives (.wdogKick t v) s d0) ∧
    (wdogRuns s.dev = false → Gives (.watchdogExpiry t) s d0) ∧
    (wdogRuns s.dev = true → wdogArmed s.dev = false → Does (.watchdogExpiry t) s (fun d => up d F.PKG_WDOG_EXPIRIES ∧
      up d F.PKG_MGMT_RESETS ∧ (evtRaw d p).testBit 13 = true ∧ d.boot.kick = d.ticks ∧ d.boot.grace = true ∧
      b.kick + 100000 * (max 10 (getR s.dev p F.PKG_WDOG_MS) * (if b.grace then 5 else 1)) ≤ d.ticks ∧
      d.lines = s.dev.lines ∧ d.mem = s.dev.mem)) ∧
    (wdogRuns s.dev = true → wdogArmed s.dev = true → Does (.watchdogExpiry t) s (fun d =>
      getR d p F.PKG_RESET_CAUSE = 4 ∧ ∀ i, (line d i).base = 0)) ∧
    (∀ m k, k ≠ 0x5A17 → Gives (.lineReset t m k) s d0) ∧
    (∀ m, Does (.lineReset t m 0x5A17) s (fun d =>
      (getR d p F.PKG_LINE_RESET_ERR = 1 ↔ ∃ k < 12, m.testBit k = true ∧ (line s.dev k).base = 6) ∧
      ∀ k < 12, m.testBit k = true → (line s.dev k).base ≠ 6 → isFenced d k = true)) ∧
    (base = 6 → Gives (.lineReset t (2 ^ n) 0x5A17) s (setR d0 p F.PKG_LINE_RESET_ERR 1)) ∧
    (base ≠ 6 → fenced = true → Gives (.lineReset t (2 ^ n) 0x5A17) s (setR d0 p F.PKG_LINE_RESET_ERR 0)) ∧
    (base ≠ 6 → fenced = false → Does (.lineReset t (2 ^ n) 0x5A17) s (fun d => isFenced d n = true ∧
      (line d n).base = 0 ∧ up d F.PKG_LINE_RESETS ∧ getR d p F.PKG_LINE_RESET_ERR = 0 ∧
      (evtRaw d p).testBit 14 = true ∧ Store.get d.boot.freeAt 0 n = d.ticks + 100001 ∧ d.mem = s.dev.mem)) ∧
    (Store.get b.freeAt 0 n = 0 → Gives (.lineResetRelease t n) s d0) ∧
    (∀ a, Store.get b.freeAt 0 n = a + 1 → Does (.lineResetRelease t n) s (fun d => isFenced d n = false ∧
      Store.get d.boot.freeAt 0 n = 0 ∧ a ≤ d.ticks ∧ (flagL s.dev (pgLine n) F.LINE_RUN = true → base = 0 →
        b.stop = none → linesHeld s.dev = false → (line d n).waitWake = true))) ∧
    (auto = 0 ∨ frozen = 0 ∨ fenced = true ∨ base = 6 → Gives (.lineAutoReset t n) s d0) ∧
    (auto ≠ 0 → frozen ≠ 0 → fenced = false → base ≠ 6 → Does (.lineAutoReset t n) s (fun d => isFenced d n = true ∧
      up d F.PKG_LINE_RESETS ∧ (evtRaw d p).testBit 14 = true ∧ frozen - 1 + 100000000 * auto ≤ d.ticks ∧
      Store.get d.boot.autoAt 0 n = d.ticks + 1))

/-- R441, R453–R455: a shut-down needs its key, joins one in progress, and goes step by step to OFF or to the reset that it
precedes; the SMBus slave answers at its address alone; after PWR_FAIL_N the gates are inactive and nothing goes on. -/
def Obligations.ShutDownSmbusAndPowerFail : Prop :=
  ∀ (s : State) (t k a v : Nat), a < 128 → Awake s →
    let d0 := advance s.dev t
    let b := s.dev.boot
    let plain : Prop := b.stop = none ∧ b.failed = false ∧ pState s.dev ≠ 2
    let mine (pec : Bool) : Prop := a = 0x60 + pkgIndex s.dev ∧ pec = true
    let dark (d : Dev) : Prop := d.gatesHeld = true ∧
      ∀ n < 12, Output.pin (.pgate n) (gateIdle d n true) ∈ d.out ∧ Output.pin (.tgate n) (gateIdle d n false) ∈ d.out
    (k ≠ 0x5A17 ∨ b.stop.isSome = true ∨ b.failed = true → Gives (.shutdown t k) s d0) ∧
    (plain → Does (.shutdown t 0x5A17) s (fun d => d.boot.stop = some ⟨1, 1, none⟩ ∧ d.mem = s.dev.mem)) ∧
    (b.stop = none → b.failed = false → pState s.dev = 2 → Does (.shutdown t 0x5A17) s (fun d =>
      d.boot.stop = some ⟨4, 1, none⟩)) ∧
    (b.stop = none → Gives (.shutdownStepEnd t) s d0) ∧
    (∀ x, b.stop = some x → x.step = 1 → Does (.shutdownStepEnd t) s (fun d => d.boot.stop = some { x with step := 2 } ∧
      dark d ∧ ∀ n < 12, (line d n).base = 0 ∨ (line d n).base = 6)) ∧
    (∀ x, b.stop = some x → x.step = 2 → Does (.shutdownStepEnd t) s (fun d => d.boot.stop = some { x with step := 3 })) ∧
    (∀ x, b.stop = some x → x.step = 3 → bistQuiet s.dev = false → Gives (.shutdownStepEnd t) s d0) ∧
    (∀ x r, b.stop = some x → x.step = 3 → bistQuiet s.dev = true → x.reset = some r → r < 8 →
      Does (.shutdownStepEnd t) s (fun d => getR d pgPkg F.PKG_RESET_CAUSE = r ∧ d.boot.stop = none)) ∧
    (∀ x, b.stop = some x → x.step = 3 → bistQuiet s.dev = true → x.reset = none → Does (.shutdownStepEnd t) s (fun d =>
      d.boot.stop = some { x with step := 4 } ∧ arcSt d ≠ 2 ∧ arcSt d ≠ 3)) ∧
    (∀ x, b.stop = some x → x.step = 4 → s.dev.bist ≠ none → Gives (.shutdownStepEnd t) s d0) ∧
    (∀ x, b.stop = some x → x.step = 4 → s.dev.bist = none → Gives (.shutdownStepEnd t) s
      { d0 with boot := { b with stop := some { x with step := 5 } } }) ∧
    (∀ x, b.stop = some x → x.step = 5 → Does (.shutdownStepEnd t) s (fun d => d.boot.held = true ∧ d.boot.stop = none ∧
      d.boot.orderly = true ∧ d.boot.almFw = b.fw ∧ d.boot.offAlarm = getR s.dev pgPkg F.PKG_OFF_ALARM_S ∧
      d.boot.supply = false ∧ Output.pin .supplyEn 0 ∈ d.out ∧ pState d = 3)) ∧
    (∀ pec, ¬mine pec → ∀ i ∈ [Instr.smbusStatus t a pec, .smbusWake t a pec, .smbusShutdown t a v pec,
      .smbusReset t a v pec, .smbusTemp t a pec], Gives i s d0) ∧
    (mine true → Gives (.smbusStatus t a true) s (emit d0 (.smbus (leBytes 2 (pState s.dev +
      getR s.dev pgPkg F.PKG_LC_STATE * 4 + getR s.dev pgPkg F.PKG_BOOT_STAGE * 16 + getR s.dev pgPkg F.PKG_UNCLEAN * 256 +
      getR s.dev pgPkg F.PKG_TRIP_SEEN * 512))))) ∧
    (mine true → Gives (.smbusTemp t a true) s (emit d0 (.smbus (leBytes 2 (ux 16
      (maxI (-32768) ((List.range 3).map (fun k => getS s.dev (pgTherm k) F.THERM_TEMP_MAX)))))))) ∧
    (mine true → b.stop = none → pState s.dev = 2 → s.dev.pacer.goal = none → Gives (.smbusWake t a true) s
      { d0 with pacer := { s.dev.pacer with goal := some (0, 4) } }) ∧
    (mine true → v ≠ 0x5D → Gives (.smbusShutdown t a v true) s d0) ∧
    (mine true → plain → Does (.smbusShutdown t a 0x5D true) s (fun d => d.boot.stop = some ⟨1, 2, none⟩)) ∧
    (mine true → v ≠ 0xA5 → Gives (.smbusReset t a v true) s d0) ∧
    (mine true → plain → Does (.smbusReset t a 0xA5 true) s (fun d => d.boot.stop = some ⟨1, 3, some 3⟩)) ∧
    Does (.powerFail t) s (fun d => dark d ∧ (∀ n < 12, Output.pin (.dac n) 8192 ∈ d.out) ∧ d.boot.failed = true ∧
      d.boot.stop = none ∧ d.mem = s.dev.mem)

/-- R458–R463, R465–R472: a pattern unit starts, counts, locks, is refused where its link is in use, and ends with its
verdict; a slice of the self-test is fenced and marked STARTED, ends with its verdict or is cut as INCOMPLETE, and a run
ends with its budget; RUN_NOW tests the lines that are OFF. -/
def Obligations.PatternUnitsAndSelfTests : Prop :=
  ∀ (s : State) (t i u : Nat), u < 8 → Awake s →
    let p := pgLpu i
    let d0 := advance s.dev t
    let st := getR s.dev p (F.LPUL_UNIT_STATE u)
    let loop := lpuLoop s.dev i u
    let runs : Prop := st = 1 ∨ st = 2
    let old := getR s.dev p (F.LPUL_ERRORS u)
    let errors (n : Nat) := if st = 2 ∧ loop ≠ 2 then min (2 ^ 48 - 1) (old + n) else old
    let logged (d : Dev) (k : Nat) : Prop := ∃ z, d.ledgerOut = s.dev.ledgerOut ++ [z] ∧ z.kind = k ∧ z.test = true
    let laneEnds (d : Dev) (n : Nat) : Prop := getR d p (F.LPUL_UNIT_STATE u) = 3 ∧ (evtRaw d p).testBit (8 + u) = true ∧
      logged d 0x0803 ∧ getR d p (F.LPUL_ERRORS u) = errors n ∧ getR d p (F.LPUL_VERDICT u) = (if loop = 2 then 0
        else if (lpu s.dev i u).inTime = true ∧ errors n = 0 ∧ getR s.dev p (F.LPUL_LOCK_LOSSES u) = 0 then 1 else 2)
    let bst := getR s.dev p (F.LPUB_UNIT_STATE u)
    let busRefuse : Prop := if i = 3 then flagR s.dev p (F.LPUB_SCOPE u) = true ∧
      (rankState s.dev u (getR s.dev p (F.LPUB_RANK u)) = 1 ∨ rankState s.dev u (getR s.dev p (F.LPUB_RANK u)) = 3)
      else arcSt s.dev = 1 ∨ arcSt s.dev = 5
    let bist (f : BistSt → Prop) (d : Dev) : Prop := ∃ b, d.bist = some b ∧ f b
    let ended (b : BistSt) (r : Nat) (e : List Nat) (d : Dev) : Prop :=
      ((∃ x ∈ b.todo, x.1 = r) → d.bist = some { b with cur := none, done := e :: b.done }) ∧
      ((∀ x ∈ b.todo, x.1 ≠ r) → isFenced d r = false ∧
        (b.todo ≠ [] → d.bist = some { b with cur := none, done := e :: b.done, lent := [] }) ∧
        (b.todo = [] → b.cause ≠ 1 → d.bist = none ∧
          getR d pgBist F.BIST_RUNS = min (getR s.dev pgBist F.BIST_RUNS + 1) (2 ^ 32 - 1)))
    let offLines := bistTodo s.dev ((List.range 12).filter (fun n => (line s.dev n).base == 0))
    let idle : Prop := s.dev.bist = none ∧ s.dev.boot.stop = none ∧ 6 ≤ getR s.dev pgPkg F.PKG_BOOT_STAGE ∧ pState s.dev ≠ 2
    (i < 3 → Reach s.dev p → lpuUnits i ≤ u ∨ runs → Gives (.laneStart t i u) s d0) ∧
    (i = 0 → Reach s.dev p → ¬runs → getR s.dev pgPcie cSTATE ≠ 0 → Gives (.laneStart t i u) s
      (raise (bump d0 p F.LPUL_REFUSED) p 20)) ∧
    (i < 3 → Reach s.dev p → u < lpuUnits i → ¬runs → (i = 0 → getR s.dev pgPcie cSTATE = 0) →
      Does (.laneStart t i u) s (fun d => getR d p (F.LPUL_UNIT_STATE u) = (if loop = 2 then 2 else 1) ∧
        getR d p (F.LPUL_ERRORS u) = 0 ∧ getR d p (F.LPUL_BITS u) = 0 ∧ getR d p (F.LPUL_LOCK_LOSSES u) = 0 ∧
        getR d p (F.LPUL_VERDICT u) = 0 ∧ getR d p cBUSY = 1 ∧ d.mem = s.dev.mem)) ∧
    (∀ e n, i < 3 → Reach s.dev p → ¬runs → Gives (.laneStop t i u e n) s d0) ∧
    (∀ e n, i < 3 → Reach s.dev p → runs → Does (.laneStop t i u e n) s (fun d => laneEnds d e)) ∧
    (∀ e n, i < 3 → ¬runs → Gives (.laneDurationEnd t i u e n) s d0) ∧
    (∀ e n, i < 3 → runs → Does (.laneDurationEnd t i u e n) s (fun d => laneEnds d e ∧
      (lpu s.dev i u).startAt + 100000000 * max 1 (getR s.dev p (F.LPUL_DURATION_S u)) ≤ d.ticks)) ∧
    (i < 3 → st ≠ 1 → Gives (.checkerLocked t i u) s d0) ∧
    (i < 3 → st = 1 → Does (.checkerLocked t i u) s (fun d => getR d p (F.LPUL_UNIT_STATE u) = 2 ∧
      ((lpu d i u).inTime = true ↔ (lpu s.dev i u).inTime = true ∨ d.ticks ≤ (lpu s.dev i u).startAt + 100000) ∧
      RegsBut [(p, F.LPUL_UNIT_STATE u)] d s.dev ∧ d.evt = s.dev.evt)) ∧
    (∀ e n, i < 3 → st ≠ 2 ∨ loop = 2 → Gives (.lostLock t i u e n) s d0) ∧
    (∀ e n, i < 3 → st = 2 → loop ≠ 2 → Does (.lostLock t i u e n) s (fun d => getR d p (F.LPUL_UNIT_STATE u) = 1 ∧
      getR d p (F.LPUL_LOCK_LOSSES u) = min (getR s.dev p (F.LPUL_LOCK_LOSSES u) + 1) (2 ^ 32 - 1) ∧
      getR d p (F.LPUL_ERRORS u) = errors e ∧ (evtRaw d p).testBit 21 = true ∧ d.mem = s.dev.mem)) ∧
    (i < 3 → Reach s.dev p → ¬runs ∨ loop = 2 → Gives (.inject t i u) s d0) ∧
    (i < 3 → Reach s.dev p → runs → loop ≠ 2 → Does (.inject t i u) s (fun d => Output.inject i u ∈ d.out ∧
      getR d p (F.LPUL_ERRORS u) = (if loop = 0 then errors 1 else old) ∧ d.evt = s.dev.evt)) ∧
    (i = 3 ∨ i = 4 → Reach s.dev p → lpuUnits i ≤ u ∨ bst = 2 → Gives (.busUnitStart t i u) s d0) ∧
    (i = 3 ∨ i = 4 → Reach s.dev p → u < lpuUnits i → bst ≠ 2 → busRefuse → Gives (.busUnitStart t i u) s
      (raise (bump d0 p F.LPUL_REFUSED) p 20)) ∧
    (i = 3 ∨ i = 4 → Reach s.dev p → u < lpuUnits i → bst ≠ 2 → ¬busRefuse → Does (.busUnitStart t i u) s (fun d =>
      getR d p (F.LPUB_UNIT_STATE u) = 2 ∧ getR d p (F.LPUB_ERRORS u) = 0 ∧ getR d p (F.LPUB_VERDICT u) = 0 ∧
      getR d p cBUSY = 1 ∧ d.mem = s.dev.mem)) ∧
    (∀ e f l w, i = 3 ∨ i = 4 → bst ≠ 2 → Gives (.busUnitDone t i u e f l w) s d0 ∧
      (Reach s.dev p → Gives (.busUnitStop t i u e f l w) s d0)) ∧
    (∀ e f l w, i = 3 ∨ i = 4 → bst = 2 →
      let ends (d : Dev) : Prop := getR d p (F.LPUB_UNIT_STATE u) = 3 ∧ logged d 0x0803 ∧
        (evtRaw d p).testBit (8 + u) = true ∧ getR d p (F.LPUB_ERRORS u) = min (2 ^ 64 - 1) e ∧
        getR d p (F.LPUB_FIRST_FAIL u) = (if e = 0 then 0 else f % 2 ^ 40) ∧ getR d p (F.LPUB_VERDICT u) =
          (if (i = 3 ∧ e = 0) ∨ (i = 4 ∧ w ≤ getR s.dev p (F.LPUB_RAW_MAX u)) then 1 else 2)
      Does (.busUnitDone t i u e f l w) s ends ∧ (Reach s.dev p → Does (.busUnitStop t i u e f l w) s ends)) ∧
    (s.dev.bist = none → ∀ c ∈ [Instr.sliceStart t, .sliceEnd t 0 0 0 0 true [], .sliceTimeout t 0 0, .budgetTimeout t 0 0],
      Gives c s d0) ∧
    (∀ b r k q, s.dev.bist = some b → b.cur = none → b.todo = (r, k) :: q → Store.get s.dev.boot.freeAt 0 r = 0 →
      max s.dev.ticks t < budgetEnd s.dev b → Does (.sliceStart t) s (fun d => isFenced d r = true ∧
        bist (fun b' => b'.cur = some (r, k, d.ticks) ∧ b'.todo = q ∧ b'.done = b.done) d ∧
        d.boot.slices = [r, k, 5, 0, 0] :: b.done ∧ getR d pgBist cSTATE = 1)) ∧
    (∀ b r k a sig n es en ok vs, s.dev.bist = some b → b.cur = some (r, k, a) → max s.dev.ticks t < budgetEnd s.dev b →
      let good : Bool := if analogue r k then within s.dev r k ok vs else sig == es
      let v := if n ≠ en ∨ sliceCut s.dev b a < max s.dev.ticks t then 3 else if good then 1 else 2
      Does (.sliceEnd t sig n es en ok vs) s (ended b r [r, k, v, sig, n])) ∧
    (∀ b r k a sig n, s.dev.bist = some b → b.cur = some (r, k, a) →
      max s.dev.ticks (max t (sliceCut s.dev b a)) < budgetEnd s.dev b → Does (.sliceTimeout t sig n) s (fun d =>
        ended b r [r, k, 3, sig, n] d ∧ sliceCut s.dev b a ≤ d.ticks)) ∧
    (∀ b, s.dev.bist = some b → b.cur = none → ∀ c ∈ [Instr.sliceEnd t 0 0 0 0 true [], .sliceTimeout t 0 0], Gives c s d0) ∧
    (∀ b sig n, s.dev.bist = some b → b.cur ≠ none ∨ b.todo ≠ [] → b.cause = 1 → Does (.budgetTimeout t sig n) s (fun d =>
      bist (fun b' => b'.cur = none ∧ b'.todo = []) d ∧ budgetEnd s.dev b ≤ d.ticks ∧ getR d pgBist cSTATE = 0)) ∧
    (∀ b sig n, s.dev.bist = some b → b.cur ≠ none ∨ b.todo ≠ [] → b.cause ≠ 1 → Does (.budgetTimeout t sig n) s (fun d =>
      d.bist = none ∧ budgetEnd s.dev b ≤ d.ticks ∧
      getR d pgBist F.BIST_RUNS = min (getR s.dev pgBist F.BIST_RUNS + 1) (2 ^ 32 - 1) ∧ getR d pgBist cSTATE = 0 ∧
      ((evtRaw d pgBist).testBit 8 = true ∨ (evtRaw d pgBist).testBit 9 = true))) ∧
    (Reach s.dev pgBist → ¬idle ∨ offLines = [] → Gives (.runNow t) s d0) ∧
    (Reach s.dev pgBist → idle → offLines ≠ [] → Does (.runNow t) s (fun d => getR d pgBist cSTATE = 1 ∧
      bist (fun b => b.cause = 2 ∧ b.todo = offLines ∧ b.cur = none ∧ b.done = []) d))
end

