-- ==== Sys2Proof/Laws/Exec.lean ====
section
/-! SUPPORT. The form that the meanings of all commands share: a command that is not well-formed is refused; any
other changes the device and settles the interrupt tree, or, on a part that is held, changes nothing. -/

namespace Sys2Proof.Machine

open Sys2Proof

/-- The form of a command's outcome, `ok` telling whether it is well-formed. -/
def Settles (ok : Bool) (s : State) (o : Host.Outcome State Fault Refusal) : Prop :=
  (ok = false ∧ o = .refused .noSuchUnit) ∨
  (ok = true ∧ s.dev.boot.held = true ∧ o = .next s) ∨
  (ok = true ∧ ∃ d, o = .next { s with dev := settle d })

theorem act_settles (ok : Bool) (s : State) (f : Dev → Dev) : Settles ok s (act ok s f) := by
  unfold Settles act
  cases ok with
  | false => exact Or.inl ⟨rfl, rfl⟩
  | true =>
    cases h : s.dev.boot.held with
    | true => exact Or.inr (Or.inl ⟨rfl, rfl, rfl⟩)
    | false => exact Or.inr (Or.inr ⟨rfl, _, rfl⟩)

theorem actAlways_settles (ok : Bool) (s : State) (f : Dev → Dev) : Settles ok s (actAlways ok s f) := by
  unfold Settles actAlways
  cases ok with
  | false => exact Or.inl ⟨rfl, rfl⟩
  | true => exact Or.inr (Or.inr ⟨rfl, _, rfl⟩)

/-- A command taken from outside reset: the device after its change, settled. -/
theorem act_next {ok : Bool} {s : State} {f : Dev → Dev} (h : ok = true) (hh : s.dev.boot.held = false) :
    act ok s f = .next { s with dev := settle (f s.dev) } := by simp [act, h, hh]

/-- A command that a held part takes as well. -/
theorem actAlways_next {ok : Bool} {s : State} {f : Dev → Dev} (h : ok = true) :
    actAlways ok s f = .next { s with dev := settle (f s.dev) } := by simp [actAlways, h]

/-- A part that is held takes no command of `act`. -/
theorem act_held {ok : Bool} {s : State} {f : Dev → Dev} (h : ok = true) (hh : s.dev.boot.held = true) :
    act ok s f = .next s := by simp [act, h, hh]

/-- A command of `act` that is not well-formed. -/
theorem act_refused {ok : Bool} {s : State} {f : Dev → Dev} (h : ok = false) :
    act ok s f = .refused .noSuchUnit := by simp [act, h]

theorem exec_registerWrite_settles (t addr size v s) : Settles (Instr.wf (.registerWrite t addr size v)) s (exec (.registerWrite t addr size v) s) := by
  show Settles _ s (execRegisterWrite t addr size v s)
  unfold execRegisterWrite
  exact act_settles _ _ _
theorem exec_stagedWrite_settles (t pg off v s) : Settles (Instr.wf (.stagedWrite t pg off v)) s (exec (.stagedWrite t pg off v) s) := by
  show Settles _ s (execStagedWrite t pg off v s)
  unfold execStagedWrite
  exact act_settles _ _ _
theorem exec_planCheckEval_settles (t ln s) : Settles (Instr.wf (.planCheckEval t ln)) s (exec (.planCheckEval t ln) s) := by
  show Settles _ s (execPlanCheckEval t ln s)
  unfold execPlanCheckEval
  exact act_settles _ _ _
theorem exec_clrCounters_settles (t pg s) : Settles (Instr.wf (.clrCounters t pg)) s (exec (.clrCounters t pg) s) := by
  show Settles _ s (execClrCounters t pg s)
  unfold execClrCounters
  exact act_settles _ _ _
theorem exec_evtClr_settles (t pg v same s) : Settles (Instr.wf (.evtClr t pg v same)) s (exec (.evtClr t pg v same) s) := by
  show Settles _ s (execEvtClr t pg v same s)
  unfold execEvtClr
  exact act_settles _ _ _
theorem exec_evtSet_settles (t pg v s) : Settles (Instr.wf (.evtSet t pg v)) s (exec (.evtSet t pg v) s) := by
  show Settles _ s (execEvtSet t pg v s)
  unfold execEvtSet
  exact act_settles _ _ _
theorem exec_vecRearm_settles (t half v s) : Settles (Instr.wf (.vecRearm t half v)) s (exec (.vecRearm t half v) s) := by
  show Settles _ s (execVecRearm t half v s)
  unfold execVecRearm
  exact act_settles _ _ _
theorem exec_msixUnmask_settles (t vec mask func s) : Settles (Instr.wf (.msixUnmask t vec mask func)) s (exec (.msixUnmask t vec mask func) s) := by
  show Settles _ s (execMsixUnmask t vec mask func s)
  unfold execMsixUnmask
  exact act_settles _ _ _
theorem exec_catEntryHiRead_settles (t s) : Settles (Instr.wf (.catEntryHiRead t)) s (exec (.catEntryHiRead t) s) := by
  show Settles _ s (execCatEntryHiRead t s)
  unfold execCatEntryHiRead
  exact act_settles _ _ _
theorem exec_nowRead_settles (t s) : Settles (Instr.wf (.nowRead t)) s (exec (.nowRead t) s) := by
  show Settles _ s (execNowRead t s)
  unfold execNowRead
  exact act_settles _ _ _
theorem exec_stocktakeReq_settles (t v s) : Settles (Instr.wf (.stocktakeReq t v)) s (exec (.stocktakeReq t v) s) := by
  show Settles _ s (execStocktakeReq t v s)
  unfold execStocktakeReq
  exact act_settles _ _ _
theorem exec_stocktakeForward_settles (t s) : Settles (Instr.wf (.stocktakeForward t)) s (exec (.stocktakeForward t) s) := by
  show Settles _ s (execStocktakeForward t s)
  unfold execStocktakeForward
  exact act_settles _ _ _
theorem exec_stocktakeInstant_settles (t s) : Settles (Instr.wf (.stocktakeInstant t)) s (exec (.stocktakeInstant t) s) := by
  show Settles _ s (execStocktakeInstant t s)
  unfold execStocktakeInstant
  exact act_settles _ _ _
theorem exec_stocktakeTWord_settles (t inst epoch s) : Settles (Instr.wf (.stocktakeTWord t inst epoch)) s (exec (.stocktakeTWord t inst epoch) s) := by
  show Settles _ s (execStocktakeTWord t inst epoch s)
  unfold execStocktakeTWord
  exact act_settles _ _ _
theorem exec_stocktakeConfirm_settles (t idx s) : Settles (Instr.wf (.stocktakeConfirm t idx)) s (exec (.stocktakeConfirm t idx) s) := by
  show Settles _ s (execStocktakeConfirm t idx s)
  unfold execStocktakeConfirm
  exact act_settles _ _ _
theorem exec_stocktakeMasterClose_settles (t s) : Settles (Instr.wf (.stocktakeMasterClose t)) s (exec (.stocktakeMasterClose t) s) := by
  show Settles _ s (execStocktakeMasterClose t s)
  unfold execStocktakeMasterClose
  exact act_settles _ _ _
theorem exec_stocktakeSysTimeout_settles (t s) : Settles (Instr.wf (.stocktakeSysTimeout t)) s (exec (.stocktakeSysTimeout t) s) := by
  show Settles _ s (execStocktakeSysTimeout t s)
  unfold execStocktakeSysTimeout
  exact act_settles _ _ _
theorem exec_commit_settles (t pg s) : Settles (Instr.wf (.commit t pg)) s (exec (.commit t pg) s) := by
  show Settles _ s (execCommit t pg s)
  unfold execCommit
  exact act_settles _ _ _
theorem exec_commitShot_settles (t ln s) : Settles (Instr.wf (.commitShot t ln)) s (exec (.commitShot t ln) s) := by
  show Settles _ s (execCommitShot t ln s)
  unfold execCommitShot
  exact act_settles _ _ _
theorem exec_cancel_settles (t ln s) : Settles (Instr.wf (.cancel t ln)) s (exec (.cancel t ln) s) := by
  show Settles _ s (execCancel t ln s)
  unfold execCancel
  exact act_settles _ _ _
theorem exec_commitCapture_settles (t ln s) : Settles (Instr.wf (.commitCapture t ln)) s (exec (.commitCapture t ln) s) := by
  show Settles _ s (execCommitCapture t ln s)
  unfold execCommitCapture
  exact act_settles _ _ _
theorem exec_immediateCommitApply_settles (t region s) : Settles (Instr.wf (.immediateCommitApply t region)) s (exec (.immediateCommitApply t region) s) := by
  show Settles _ s (execImmediateCommitApply t region s)
  unfold execImmediateCommitApply
  exact act_settles _ _ _
theorem exec_slot0Instant_settles (t ln s) : Settles (Instr.wf (.slot0Instant t ln)) s (exec (.slot0Instant t ln) s) := by
  show Settles _ s (execSlot0Instant t ln s)
  unfold execSlot0Instant
  exact act_settles _ _ _
theorem exec_slotLaunch_settles (t ln slot s) : Settles (Instr.wf (.slotLaunch t ln slot)) s (exec (.slotLaunch t ln slot) s) := by
  show Settles _ s (execSlotLaunch t ln slot s)
  unfold execSlotLaunch
  exact act_settles _ _ _
theorem exec_lineStart_settles (t ln s) : Settles (Instr.wf (.lineStart t ln)) s (exec (.lineStart t ln) s) := by
  show Settles _ s (execLineStart t ln s)
  unfold execLineStart
  exact act_settles _ _ _
theorem exec_gapEnd_settles (t ln s) : Settles (Instr.wf (.gapEnd t ln)) s (exec (.gapEnd t ln) s) := by
  show Settles _ s (execGapEnd t ln s)
  unfold execGapEnd
  exact act_settles _ _ _
theorem exec_catchUp_settles (t region s) : Settles (Instr.wf (.catchUp t region)) s (exec (.catchUp t region) s) := by
  show Settles _ s (execCatchUp t region s)
  unfold execCatchUp
  exact act_settles _ _ _
theorem exec_clusterReady_settles (t ln clus s) : Settles (Instr.wf (.clusterReady t ln clus)) s (exec (.clusterReady t ln clus) s) := by
  show Settles _ s (execClusterReady t ln clus s)
  unfold execClusterReady
  exact act_settles _ _ _
theorem exec_dvfsDone_settles (t ln c s) : Settles (Instr.wf (.dvfsDone t ln c)) s (exec (.dvfsDone t ln c) s) := by
  show Settles _ s (execDvfsDone t ln c s)
  unfold execDvfsDone
  exact act_settles _ _ _
theorem exec_thermalSensorUpdate_settles (t readings s) : Settles (Instr.wf (.thermalSensorUpdate t readings)) s (exec (.thermalSensorUpdate t readings) s) := by
  show Settles _ s (execThermalSensorUpdate t readings s)
  unfold execThermalSensorUpdate
  exact act_settles _ _ _
theorem exec_bridgeFlit_settles (t ldie up flit ok s) : Settles (Instr.wf (.bridgeFlit t ldie up flit ok)) s (exec (.bridgeFlit t ldie up flit ok) s) := by
  show Settles _ s (execBridgeFlit t ldie up flit ok s)
  unfold execBridgeFlit
  exact act_settles _ _ _
theorem exec_bridgeRetrain_settles (t ldie s) : Settles (Instr.wf (.bridgeRetrain t ldie)) s (exec (.bridgeRetrain t ldie) s) := by
  show Settles _ s (execBridgeRetrain t ldie s)
  unfold execBridgeRetrain
  exact act_settles _ _ _
theorem exec_bridgeRetrainDone_settles (t ldie s) : Settles (Instr.wf (.bridgeRetrainDone t ldie)) s (exec (.bridgeRetrainDone t ldie) s) := by
  show Settles _ s (execBridgeRetrainDone t ldie s)
  unfold execBridgeRetrainDone
  exact act_settles _ _ _
theorem exec_bridgeReadTimeout_settles (t ldie s) : Settles (Instr.wf (.bridgeReadTimeout t ldie)) s (exec (.bridgeReadTimeout t ldie) s) := by
  show Settles _ s (execBridgeReadTimeout t ldie s)
  unfold execBridgeReadTimeout
  exact act_settles _ _ _
theorem exec_bridgeFrameArrive_settles (t ln s) : Settles (Instr.wf (.bridgeFrameArrive t ln)) s (exec (.bridgeFrameArrive t ln) s) := by
  show Settles _ s (execBridgeFrameArrive t ln s)
  unfold execBridgeFrameArrive
  exact act_settles _ _ _
theorem exec_converterWord_settles (t ln num phase halt raw s) : Settles (Instr.wf (.converterWord t ln num phase halt raw)) s (exec (.converterWord t ln num phase halt raw) s) := by
  show Settles _ s (execConverterWord t ln num phase halt raw s)
  unfold execConverterWord
  exact act_settles _ _ _
theorem exec_autorangeHoldExpiry_settles (t ln s) : Settles (Instr.wf (.autorangeHoldExpiry t ln)) s (exec (.autorangeHoldExpiry t ln) s) := by
  show Settles _ s (execAutorangeHoldExpiry t ln s)
  unfold execAutorangeHoldExpiry
  exact act_settles _ _ _
theorem exec_gainScheduleEntry_settles (t ln k s) : Settles (Instr.wf (.gainScheduleEntry t ln k)) s (exec (.gainScheduleEntry t ln k) s) := by
  show Settles _ s (execGainScheduleEntry t ln k s)
  unfold execGainScheduleEntry
  exact act_settles _ _ _
theorem exec_statWindowEnd_settles (t ln conv mean lo hi ovr s) : Settles (Instr.wf (.statWindowEnd t ln conv mean lo hi ovr)) s (exec (.statWindowEnd t ln conv mean lo hi ovr) s) := by
  show Settles _ s (execStatWindowEnd t ln conv mean lo hi ovr s)
  unfold execStatWindowEnd
  exact act_settles _ _ _
theorem exec_failCore_settles (t ln input s) : Settles (Instr.wf (.failCore t ln input)) s (exec (.failCore t ln input) s) := by
  show Settles _ s (execFailCore t ln input s)
  unfold execFailCore
  exact act_settles _ _ _
theorem exec_spareSubstitution_settles (t ln s) : Settles (Instr.wf (.spareSubstitution t ln)) s (exec (.spareSubstitution t ln) s) := by
  show Settles _ s (execSpareSubstitution t ln s)
  unfold execSpareSubstitution
  exact act_settles _ _ _
theorem exec_requal_settles (t ln s) : Settles (Instr.wf (.requal t ln)) s (exec (.requal t ln) s) := by
  show Settles _ s (execRequal t ln s)
  unfold execRequal
  exact act_settles _ _ _
theorem exec_requalDone_settles (t ln pass s) : Settles (Instr.wf (.requalDone t ln pass)) s (exec (.requalDone t ln pass) s) := by
  show Settles _ s (execRequalDone t ln pass s)
  unfold execRequalDone
  exact act_settles _ _ _
theorem exec_psenseWindowEnd_settles (t ln q s) : Settles (Instr.wf (.psenseWindowEnd t ln q)) s (exec (.psenseWindowEnd t ln q) s) := by
  show Settles _ s (execPsenseWindowEnd t ln q s)
  unfold execPsenseWindowEnd
  exact act_settles _ _ _
theorem exec_returnPowerWindow_settles (t ln s) : Settles (Instr.wf (.returnPowerWindow t ln)) s (exec (.returnPowerWindow t ln) s) := by
  show Settles _ s (execReturnPowerWindow t ln s)
  unfold execReturnPowerWindow
  exact act_settles _ _ _
theorem exec_listenWindowClose_settles (t ln slot s) : Settles (Instr.wf (.listenWindowClose t ln slot)) s (exec (.listenWindowClose t ln slot) s) := by
  show Settles _ s (execListenWindowClose t ln slot s)
  unfold execListenWindowClose
  exact act_settles _ _ _
theorem exec_coefWrite_settles (t ln slot w v s) : Settles (Instr.wf (.coefWrite t ln slot w v)) s (exec (.coefWrite t ln slot w v) s) := by
  show Settles _ s (execCoefWrite t ln slot w v s)
  unfold execCoefWrite
  exact act_settles _ _ _
theorem exec_coefSeal_settles (t ln slot v s) : Settles (Instr.wf (.coefSeal t ln slot v)) s (exec (.coefSeal t ln slot v) s) := by
  show Settles _ s (execCoefSeal t ln slot v s)
  unfold execCoefSeal
  exact act_settles _ _ _
theorem exec_pipeWord_settles (t chan s) : Settles (Instr.wf (.pipeWord t chan)) s (exec (.pipeWord t chan) s) := by
  show Settles _ s (execPipeWord t chan s)
  unfold execPipeWord
  exact act_settles _ _ _
theorem exec_pipeSettled_settles (t ln slot s) : Settles (Instr.wf (.pipeSettled t ln slot)) s (exec (.pipeSettled t ln slot) s) := by
  show Settles _ s (execPipeSettled t ln slot s)
  unfold execPipeSettled
  exact act_settles _ _ _
theorem exec_mergedSample_settles (t ln s) : Settles (Instr.wf (.mergedSample t ln)) s (exec (.mergedSample t ln) s) := by
  show Settles _ s (execMergedSample t ln s)
  unfold execMergedSample
  exact act_settles _ _ _
theorem exec_gaugeSettled_settles (t ln s) : Settles (Instr.wf (.gaugeSettled t ln)) s (exec (.gaugeSettled t ln) s) := by
  show Settles _ s (execGaugeSettled t ln s)
  unfold execGaugeSettled
  exact act_settles _ _ _
theorem exec_frameInstant_settles (t ln s) : Settles (Instr.wf (.frameInstant t ln)) s (exec (.frameInstant t ln) s) := by
  show Settles _ s (execFrameInstant t ln s)
  unfold execFrameInstant
  exact act_settles _ _ _
theorem exec_frameBuilt_settles (t ln s) : Settles (Instr.wf (.frameBuilt t ln)) s (exec (.frameBuilt t ln) s) := by
  show Settles _ s (execFrameBuilt t ln s)
  unfold execFrameBuilt
  exact act_settles _ _ _
theorem exec_ramanShotAccumulate_settles (t ln st anti s) : Settles (Instr.wf (.ramanShotAccumulate t ln st anti)) s (exec (.ramanShotAccumulate t ln st anti) s) := by
  show Settles _ s (execRamanShotAccumulate t ln st anti s)
  unfold execRamanShotAccumulate
  exact act_settles _ _ _
theorem exec_stackFlip_settles (t ln s) : Settles (Instr.wf (.stackFlip t ln)) s (exec (.stackFlip t ln) s) := by
  show Settles _ s (execStackFlip t ln s)
  unfold execStackFlip
  exact act_settles _ _ _
theorem exec_thermalFrameBuilt_settles (t ln s) : Settles (Instr.wf (.thermalFrameBuilt t ln)) s (exec (.thermalFrameBuilt t ln) s) := by
  show Settles _ s (execThermalFrameBuilt t ln s)
  unfold execThermalFrameBuilt
  exact act_settles _ _ _
theorem exec_stackSeed_settles (t ln v s) : Settles (Instr.wf (.stackSeed t ln v)) s (exec (.stackSeed t ln v) s) := by
  show Settles _ s (execStackSeed t ln v s)
  unfold execStackSeed
  exact act_settles _ _ _
theorem exec_strideNop_settles (t ln k s) : Settles (Instr.wf (.strideNop t ln k)) s (exec (.strideNop t ln k) s) := by
  show Settles _ s (execStrideNop t ln k s)
  unfold execStrideNop
  exact act_settles _ _ _
theorem exec_strideAdd_settles (t ln k s) : Settles (Instr.wf (.strideAdd t ln k)) s (exec (.strideAdd t ln k) s) := by
  show Settles _ s (execStrideAdd t ln k s)
  unfold execStrideAdd
  exact act_settles _ _ _
theorem exec_strideSub_settles (t ln k s) : Settles (Instr.wf (.strideSub t ln k)) s (exec (.strideSub t ln k) s) := by
  show Settles _ s (execStrideSub t ln k s)
  unfold execStrideSub
  exact act_settles _ _ _
theorem exec_strideAnd_settles (t ln k s) : Settles (Instr.wf (.strideAnd t ln k)) s (exec (.strideAnd t ln k) s) := by
  show Settles _ s (execStrideAnd t ln k s)
  unfold execStrideAnd
  exact act_settles _ _ _
theorem exec_strideOr_settles (t ln k s) : Settles (Instr.wf (.strideOr t ln k)) s (exec (.strideOr t ln k) s) := by
  show Settles _ s (execStrideOr t ln k s)
  unfold execStrideOr
  exact act_settles _ _ _
theorem exec_strideXor_settles (t ln k s) : Settles (Instr.wf (.strideXor t ln k)) s (exec (.strideXor t ln k) s) := by
  show Settles _ s (execStrideXor t ln k s)
  unfold execStrideXor
  exact act_settles _ _ _
theorem exec_strideMin_settles (t ln k s) : Settles (Instr.wf (.strideMin t ln k)) s (exec (.strideMin t ln k) s) := by
  show Settles _ s (execStrideMin t ln k s)
  unfold execStrideMin
  exact act_settles _ _ _
theorem exec_strideMax_settles (t ln k s) : Settles (Instr.wf (.strideMax t ln k)) s (exec (.strideMax t ln k) s) := by
  show Settles _ s (execStrideMax t ln k s)
  unfold execStrideMax
  exact act_settles _ _ _
theorem exec_strideAbs_settles (t ln k s) : Settles (Instr.wf (.strideAbs t ln k)) s (exec (.strideAbs t ln k) s) := by
  show Settles _ s (execStrideAbs t ln k s)
  unfold execStrideAbs
  exact act_settles _ _ _
theorem exec_strideSlt_settles (t ln k s) : Settles (Instr.wf (.strideSlt t ln k)) s (exec (.strideSlt t ln k) s) := by
  show Settles _ s (execStrideSlt t ln k s)
  unfold execStrideSlt
  exact act_settles _ _ _
theorem exec_strideShl_settles (t ln k s) : Settles (Instr.wf (.strideShl t ln k)) s (exec (.strideShl t ln k) s) := by
  show Settles _ s (execStrideShl t ln k s)
  unfold execStrideShl
  exact act_settles _ _ _
theorem exec_strideShr_settles (t ln k s) : Settles (Instr.wf (.strideShr t ln k)) s (exec (.strideShr t ln k) s) := by
  show Settles _ s (execStrideShr t ln k s)
  unfold execStrideShr
  exact act_settles _ _ _
theorem exec_strideSra_settles (t ln k s) : Settles (Instr.wf (.strideSra t ln k)) s (exec (.strideSra t ln k) s) := by
  show Settles _ s (execStrideSra t ln k s)
  unfold execStrideSra
  exact act_settles _ _ _
theorem exec_strideNorm_settles (t ln k s) : Settles (Instr.wf (.strideNorm t ln k)) s (exec (.strideNorm t ln k) s) := by
  show Settles _ s (execStrideNorm t ln k s)
  unfold execStrideNorm
  exact act_settles _ _ _
theorem exec_strideAddi_settles (t ln k s) : Settles (Instr.wf (.strideAddi t ln k)) s (exec (.strideAddi t ln k) s) := by
  show Settles _ s (execStrideAddi t ln k s)
  unfold execStrideAddi
  exact act_settles _ _ _
theorem exec_strideShli_settles (t ln k s) : Settles (Instr.wf (.strideShli t ln k)) s (exec (.strideShli t ln k) s) := by
  show Settles _ s (execStrideShli t ln k s)
  unfold execStrideShli
  exact act_settles _ _ _
theorem exec_strideShri_settles (t ln k s) : Settles (Instr.wf (.strideShri t ln k)) s (exec (.strideShri t ln k) s) := by
  show Settles _ s (execStrideShri t ln k s)
  unfold execStrideShri
  exact act_settles _ _ _
theorem exec_strideSrai_settles (t ln k s) : Settles (Instr.wf (.strideSrai t ln k)) s (exec (.strideSrai t ln k) s) := by
  show Settles _ s (execStrideSrai t ln k s)
  unfold execStrideSrai
  exact act_settles _ _ _
theorem exec_strideMovi_settles (t ln k s) : Settles (Instr.wf (.strideMovi t ln k)) s (exec (.strideMovi t ln k) s) := by
  show Settles _ s (execStrideMovi t ln k s)
  unfold execStrideMovi
  exact act_settles _ _ _
theorem exec_strideMovih_settles (t ln k s) : Settles (Instr.wf (.strideMovih t ln k)) s (exec (.strideMovih t ln k) s) := by
  show Settles _ s (execStrideMovih t ln k s)
  unfold execStrideMovih
  exact act_settles _ _ _
theorem exec_strideMovtx_settles (t ln k s) : Settles (Instr.wf (.strideMovtx t ln k)) s (exec (.strideMovtx t ln k) s) := by
  show Settles _ s (execStrideMovtx t ln k s)
  unfold execStrideMovtx
  exact act_settles _ _ _
theorem exec_strideMovfx_settles (t ln k s) : Settles (Instr.wf (.strideMovfx t ln k)) s (exec (.strideMovfx t ln k) s) := by
  show Settles _ s (execStrideMovfx t ln k s)
  unfold execStrideMovfx
  exact act_settles _ _ _
theorem exec_strideLd_settles (t ln k s) : Settles (Instr.wf (.strideLd t ln k)) s (exec (.strideLd t ln k) s) := by
  show Settles _ s (execStrideLd t ln k s)
  unfold execStrideLd
  exact act_settles _ _ _
theorem exec_strideLdh_settles (t ln k s) : Settles (Instr.wf (.strideLdh t ln k)) s (exec (.strideLdh t ln k) s) := by
  show Settles _ s (execStrideLdh t ln k s)
  unfold execStrideLdh
  exact act_settles _ _ _
theorem exec_strideSt_settles (t ln k s) : Settles (Instr.wf (.strideSt t ln k)) s (exec (.strideSt t ln k) s) := by
  show Settles _ s (execStrideSt t ln k s)
  unfold execStrideSt
  exact act_settles _ _ _
theorem exec_strideSth_settles (t ln k s) : Settles (Instr.wf (.strideSth t ln k)) s (exec (.strideSth t ln k) s) := by
  show Settles _ s (execStrideSth t ln k s)
  unfold execStrideSth
  exact act_settles _ _ _
theorem exec_strideBeq_settles (t ln k s) : Settles (Instr.wf (.strideBeq t ln k)) s (exec (.strideBeq t ln k) s) := by
  show Settles _ s (execStrideBeq t ln k s)
  unfold execStrideBeq
  exact act_settles _ _ _
theorem exec_strideBne_settles (t ln k s) : Settles (Instr.wf (.strideBne t ln k)) s (exec (.strideBne t ln k) s) := by
  show Settles _ s (execStrideBne t ln k s)
  unfold execStrideBne
  exact act_settles _ _ _
theorem exec_strideBlt_settles (t ln k s) : Settles (Instr.wf (.strideBlt t ln k)) s (exec (.strideBlt t ln k) s) := by
  show Settles _ s (execStrideBlt t ln k s)
  unfold execStrideBlt
  exact act_settles _ _ _
theorem exec_strideBge_settles (t ln k s) : Settles (Instr.wf (.strideBge t ln k)) s (exec (.strideBge t ln k) s) := by
  show Settles _ s (execStrideBge t ln k s)
  unfold execStrideBge
  exact act_settles _ _ _
theorem exec_strideBdec_settles (t ln k s) : Settles (Instr.wf (.strideBdec t ln k)) s (exec (.strideBdec t ln k) s) := by
  show Settles _ s (execStrideBdec t ln k s)
  unfold execStrideBdec
  exact act_settles _ _ _
theorem exec_strideJ_settles (t ln k s) : Settles (Instr.wf (.strideJ t ln k)) s (exec (.strideJ t ln k) s) := by
  show Settles _ s (execStrideJ t ln k s)
  unfold execStrideJ
  exact act_settles _ _ _
theorem exec_strideJal_settles (t ln k s) : Settles (Instr.wf (.strideJal t ln k)) s (exec (.strideJal t ln k) s) := by
  show Settles _ s (execStrideJal t ln k s)
  unfold execStrideJal
  exact act_settles _ _ _
theorem exec_strideJr_settles (t ln k s) : Settles (Instr.wf (.strideJr t ln k)) s (exec (.strideJr t ln k) s) := by
  show Settles _ s (execStrideJr t ln k s)
  unfold execStrideJr
  exact act_settles _ _ _
theorem exec_strideRti_settles (t ln k s) : Settles (Instr.wf (.strideRti t ln k)) s (exec (.strideRti t ln k) s) := by
  show Settles _ s (execStrideRti t ln k s)
  unfold execStrideRti
  exact act_settles _ _ _
theorem exec_strideWait_settles (t ln k s) : Settles (Instr.wf (.strideWait t ln k)) s (exec (.strideWait t ln k) s) := by
  show Settles _ s (execStrideWait t ln k s)
  unfold execStrideWait
  exact act_settles _ _ _
theorem exec_strideHalt_settles (t ln k s) : Settles (Instr.wf (.strideHalt t ln k)) s (exec (.strideHalt t ln k) s) := by
  show Settles _ s (execStrideHalt t ln k s)
  unfold execStrideHalt
  exact act_settles _ _ _
theorem exec_strideMac_settles (t ln k win s) : Settles (Instr.wf (.strideMac t ln k win)) s (exec (.strideMac t ln k win) s) := by
  show Settles _ s (execStrideMac t ln k win s)
  unfold execStrideMac
  exact act_settles _ _ _
theorem exec_strideMac2_settles (t ln k win s) : Settles (Instr.wf (.strideMac2 t ln k win)) s (exec (.strideMac2 t ln k win) s) := by
  show Settles _ s (execStrideMac2 t ln k win s)
  unfold execStrideMac2
  exact act_settles _ _ _
theorem exec_strideCmac_settles (t ln k win s) : Settles (Instr.wf (.strideCmac t ln k win)) s (exec (.strideCmac t ln k win) s) := by
  show Settles _ s (execStrideCmac t ln k win s)
  unfold execStrideCmac
  exact act_settles _ _ _
theorem exec_strideExt_settles (t ln k s) : Settles (Instr.wf (.strideExt t ln k)) s (exec (.strideExt t ln k) s) := by
  show Settles _ s (execStrideExt t ln k s)
  unfold execStrideExt
  exact act_settles _ _ _
theorem exec_strideExtr_settles (t ln k s) : Settles (Instr.wf (.strideExtr t ln k)) s (exec (.strideExtr t ln k) s) := by
  show Settles _ s (execStrideExtr t ln k s)
  unfold execStrideExtr
  exact act_settles _ _ _
theorem exec_strideMova_settles (t ln k s) : Settles (Instr.wf (.strideMova t ln k)) s (exec (.strideMova t ln k) s) := by
  show Settles _ s (execStrideMova t ln k s)
  unfold execStrideMova
  exact act_settles _ _ _
theorem exec_strideAshr_settles (t ln k s) : Settles (Instr.wf (.strideAshr t ln k)) s (exec (.strideAshr t ln k) s) := by
  show Settles _ s (execStrideAshr t ln k s)
  unfold execStrideAshr
  exact act_settles _ _ _
theorem exec_strideAdda_settles (t ln k s) : Settles (Instr.wf (.strideAdda t ln k)) s (exec (.strideAdda t ln k) s) := by
  show Settles _ s (execStrideAdda t ln k s)
  unfold execStrideAdda
  exact act_settles _ _ _
theorem exec_strideExp_settles (t ln k s) : Settles (Instr.wf (.strideExp t ln k)) s (exec (.strideExp t ln k) s) := by
  show Settles _ s (execStrideExp t ln k s)
  unfold execStrideExp
  exact act_settles _ _ _
theorem exec_strideAclr_settles (t ln k s) : Settles (Instr.wf (.strideAclr t ln k)) s (exec (.strideAclr t ln k) s) := by
  show Settles _ s (execStrideAclr t ln k s)
  unfold execStrideAclr
  exact act_settles _ _ _
theorem exec_strideIn_settles (t ln k s) : Settles (Instr.wf (.strideIn t ln k)) s (exec (.strideIn t ln k) s) := by
  show Settles _ s (execStrideIn t ln k s)
  unfold execStrideIn
  exact act_settles _ _ _
theorem exec_strideOut_settles (t ln k s) : Settles (Instr.wf (.strideOut t ln k)) s (exec (.strideOut t ln k) s) := by
  show Settles _ s (execStrideOut t ln k s)
  unfold execStrideOut
  exact act_settles _ _ _
theorem exec_strideMark_settles (t ln k s) : Settles (Instr.wf (.strideMark t ln k)) s (exec (.strideMark t ln k) s) := by
  show Settles _ s (execStrideMark t ln k s)
  unfold execStrideMark
  exact act_settles _ _ _
theorem exec_strideSig_settles (t ln k s) : Settles (Instr.wf (.strideSig t ln k)) s (exec (.strideSig t ln k) s) := by
  show Settles _ s (execStrideSig t ln k s)
  unfold execStrideSig
  exact act_settles _ _ _
theorem exec_interruptTaken_settles (t ln k s) : Settles (Instr.wf (.interruptTaken t ln k)) s (exec (.interruptTaken t ln k) s) := by
  show Settles _ s (execInterruptTaken t ln k s)
  unfold execInterruptTaken
  exact act_settles _ _ _
theorem exec_strideTimerExpiry_settles (t ln k s) : Settles (Instr.wf (.strideTimerExpiry t ln k)) s (exec (.strideTimerExpiry t ln k) s) := by
  show Settles _ s (execStrideTimerExpiry t ln k s)
  unfold execStrideTimerExpiry
  exact act_settles _ _ _
theorem exec_doorbell_settles (t ln k s) : Settles (Instr.wf (.doorbell t ln k)) s (exec (.doorbell t ln k) s) := by
  show Settles _ s (execDoorbell t ln k s)
  unfold execDoorbell
  exact act_settles _ _ _
theorem exec_coreStart_settles (t ln k s) : Settles (Instr.wf (.coreStart t ln k)) s (exec (.coreStart t ln k) s) := by
  show Settles _ s (execCoreStart t ln k s)
  unfold execCoreStart
  exact act_settles _ _ _
theorem exec_coreStop_settles (t ln k s) : Settles (Instr.wf (.coreStop t ln k)) s (exec (.coreStop t ln k) s) := by
  show Settles _ s (execCoreStop t ln k s)
  unfold execCoreStop
  exact act_settles _ _ _
theorem exec_kernelLoadEnd_settles (t ln k s) : Settles (Instr.wf (.kernelLoadEnd t ln k)) s (exec (.kernelLoadEnd t ln k) s) := by
  show Settles _ s (execKernelLoadEnd t ln k s)
  unfold execKernelLoadEnd
  exact act_settles _ _ _
theorem exec_featureWord_settles (t ln s) : Settles (Instr.wf (.featureWord t ln)) s (exec (.featureWord t ln) s) := by
  show Settles _ s (execFeatureWord t ln s)
  unfold execFeatureWord
  exact act_settles _ _ _
theorem exec_featureFrameClose_settles (t ln s) : Settles (Instr.wf (.featureFrameClose t ln)) s (exec (.featureFrameClose t ln) s) := by
  show Settles _ s (execFeatureFrameClose t ln s)
  unfold execFeatureFrameClose
  exact act_settles _ _ _
theorem exec_sequencerStep_settles (t ln s) : Settles (Instr.wf (.sequencerStep t ln)) s (exec (.sequencerStep t ln) s) := by
  show Settles _ s (execSequencerStep t ln s)
  unfold execSequencerStep
  exact act_settles _ _ _
theorem exec_gpioEdge_settles (t gpio half s) : Settles (Instr.wf (.gpioEdge t gpio half)) s (exec (.gpioEdge t gpio half) s) := by
  show Settles _ s (execGpioEdge t gpio half s)
  unfold execGpioEdge
  exact act_settles _ _ _
theorem exec_triggerWord_settles (t port pkg ln h inst s) : Settles (Instr.wf (.triggerWord t port pkg ln h inst)) s (exec (.triggerWord t port pkg ln h inst) s) := by
  show Settles _ s (execTriggerWord t port pkg ln h inst s)
  unfold execTriggerWord
  exact act_settles _ _ _
theorem exec_todInstant_settles (t ln s) : Settles (Instr.wf (.todInstant t ln)) s (exec (.todInstant t ln) s) := by
  show Settles _ s (execTodInstant t ln s)
  unfold execTodInstant
  exact act_settles _ _ _
theorem exec_recordEmit_settles (t ln h s) : Settles (Instr.wf (.recordEmit t ln h)) s (exec (.recordEmit t ln h) s) := by
  show Settles _ s (execRecordEmit t ln h s)
  unfold execRecordEmit
  exact act_settles _ _ _
theorem exec_arcTableWrite_settles (t ln w v s) : Settles (Instr.wf (.arcTableWrite t ln w v)) s (exec (.arcTableWrite t ln w v) s) := by
  show Settles _ s (execArcTableWrite t ln w v s)
  unfold execArcTableWrite
  exact act_settles _ _ _
theorem exec_sequencerEnable_settles (t ln h v s) : Settles (Instr.wf (.sequencerEnable t ln h v)) s (exec (.sequencerEnable t ln h v) s) := by
  show Settles _ s (execSequencerEnable t ln h v s)
  unfold execSequencerEnable
  exact act_settles _ _ _
theorem exec_userGo_settles (t v s) : Settles (Instr.wf (.userGo t v)) s (exec (.userGo t v) s) := by
  show Settles _ s (execUserGo t v s)
  unfold execUserGo
  exact act_settles _ _ _
theorem exec_ledgerEntry_settles (t s) : Settles (Instr.wf (.ledgerEntry t)) s (exec (.ledgerEntry t) s) := by
  show Settles _ s (execLedgerEntry t s)
  unfold execLedgerEntry
  exact act_settles _ _ _
theorem exec_ledgerReserve_settles (t ok s) : Settles (Instr.wf (.ledgerReserve t ok)) s (exec (.ledgerReserve t ok) s) := by
  show Settles _ s (execLedgerReserve t ok s)
  unfold execLedgerReserve
  exact act_settles _ _ _
theorem exec_ledgerReserveRetry_settles (t ok s) : Settles (Instr.wf (.ledgerReserveRetry t ok)) s (exec (.ledgerReserveRetry t ok) s) := by
  show Settles _ s (execLedgerReserveRetry t ok s)
  unfold execLedgerReserveRetry
  exact act_settles _ _ _
theorem exec_ledgerArchiveWrite_settles (t s) : Settles (Instr.wf (.ledgerArchiveWrite t)) s (exec (.ledgerArchiveWrite t) s) := by
  show Settles _ s (execLedgerArchiveWrite t s)
  unfold execLedgerArchiveWrite
  exact act_settles _ _ _
theorem exec_calEvalTick_settles (t unit13 s) : Settles (Instr.wf (.calEvalTick t unit13)) s (exec (.calEvalTick t unit13) s) := by
  show Settles _ s (execCalEvalTick t unit13 s)
  unfold execCalEvalTick
  exact act_settles _ _ _
theorem exec_calReq_settles (t ln s) : Settles (Instr.wf (.calReq t ln)) s (exec (.calReq t ln) s) := by
  show Settles _ s (execCalReq t ln s)
  unfold execCalReq
  exact act_settles _ _ _
theorem exec_calForce_settles (t ln s) : Settles (Instr.wf (.calForce t ln)) s (exec (.calForce t ln) s) := by
  show Settles _ s (execCalForce t ln s)
  unfold execCalForce
  exact act_settles _ _ _
theorem exec_calPassStart_settles (t ln s) : Settles (Instr.wf (.calPassStart t ln)) s (exec (.calPassStart t ln) s) := by
  show Settles _ s (execCalPassStart t ln s)
  unfold execCalPassStart
  exact act_settles _ _ _
theorem exec_calPhaseEnd_settles (t ln vals s) : Settles (Instr.wf (.calPhaseEnd t ln vals)) s (exec (.calPhaseEnd t ln vals) s) := by
  show Settles _ s (execCalPhaseEnd t ln vals s)
  unfold execCalPhaseEnd
  exact act_settles _ _ _
theorem exec_calExit_settles (t ln ok s) : Settles (Instr.wf (.calExit t ln ok)) s (exec (.calExit t ln ok) s) := by
  show Settles _ s (execCalExit t ln ok s)
  unfold execCalExit
  exact act_settles _ _ _
theorem exec_calHandover_settles (t ln s) : Settles (Instr.wf (.calHandover t ln)) s (exec (.calHandover t ln) s) := by
  show Settles _ s (execCalHandover t ln s)
  unfold execCalHandover
  exact act_settles _ _ _
theorem exec_calReturn_settles (t ln ok s) : Settles (Instr.wf (.calReturn t ln ok)) s (exec (.calReturn t ln ok) s) := by
  show Settles _ s (execCalReturn t ln ok s)
  unfold execCalReturn
  exact act_settles _ _ _
theorem exec_svcConversion_settles (t svc raw s) : Settles (Instr.wf (.svcConversion t svc raw)) s (exec (.svcConversion t svc raw) s) := by
  show Settles _ s (execSvcConversion t svc raw s)
  unfold execSvcConversion
  exact act_settles _ _ _
theorem exec_scanStart_settles (t svc s) : Settles (Instr.wf (.scanStart t svc)) s (exec (.scanStart t svc) s) := by
  show Settles _ s (execScanStart t svc s)
  unfold execScanStart
  exact act_settles _ _ _
theorem exec_injGo_settles (t v s) : Settles (Instr.wf (.injGo t v)) s (exec (.injGo t v) s) := by
  show Settles _ s (execInjGo t v s)
  unfold execInjGo
  exact act_settles _ _ _
theorem exec_shotTrigger_settles (t inj s) : Settles (Instr.wf (.shotTrigger t inj)) s (exec (.shotTrigger t inj) s) := by
  show Settles _ s (execShotTrigger t inj s)
  unfold execShotTrigger
  exact act_settles _ _ _
theorem exec_svcCalReq_settles (t s) : Settles (Instr.wf (.svcCalReq t)) s (exec (.svcCalReq t) s) := by
  show Settles _ s (execSvcCalReq t s)
  unfold execSvcCalReq
  exact act_settles _ _ _
theorem exec_svcCalForce_settles (t s) : Settles (Instr.wf (.svcCalForce t)) s (exec (.svcCalForce t) s) := by
  show Settles _ s (execSvcCalForce t s)
  unfold execSvcCalForce
  exact act_settles _ _ _
theorem exec_svcCalStart_settles (t svc s) : Settles (Instr.wf (.svcCalStart t svc)) s (exec (.svcCalStart t svc) s) := by
  show Settles _ s (execSvcCalStart t svc s)
  unfold execSvcCalStart
  exact act_settles _ _ _
theorem exec_svcCalDone_settles (t svc meas ok s) : Settles (Instr.wf (.svcCalDone t svc meas ok)) s (exec (.svcCalDone t svc meas ok) s) := by
  show Settles _ s (execSvcCalDone t svc meas ok s)
  unfold execSvcCalDone
  exact act_settles _ _ _
theorem exec_sfeMeasurement_settles (t svc raw s) : Settles (Instr.wf (.sfeMeasurement t svc raw)) s (exec (.sfeMeasurement t svc raw) s) := by
  show Settles _ s (execSfeMeasurement t svc raw s)
  unfold execSfeMeasurement
  exact act_settles _ _ _
theorem exec_sfeCheck_settles (t sfe s) : Settles (Instr.wf (.sfeCheck t sfe)) s (exec (.sfeCheck t sfe) s) := by
  show Settles _ s (execSfeCheck t sfe s)
  unfold execSfeCheck
  exact act_settles _ _ _
theorem exec_sfeCheckDone_settles (t sfe z leads s) : Settles (Instr.wf (.sfeCheckDone t sfe z leads)) s (exec (.sfeCheckDone t sfe z leads) s) := by
  show Settles _ s (execSfeCheckDone t sfe z leads s)
  unfold execSfeCheckDone
  exact act_settles _ _ _
theorem exec_sfeClamp_settles (t sfe s) : Settles (Instr.wf (.sfeClamp t sfe)) s (exec (.sfeClamp t sfe) s) := by
  show Settles _ s (execSfeClamp t sfe s)
  unfold execSfeClamp
  exact act_settles _ _ _
theorem exec_wireBreak_settles (t sfe s) : Settles (Instr.wf (.wireBreak t sfe)) s (exec (.wireBreak t sfe) s) := by
  show Settles _ s (execWireBreak t sfe s)
  unfold execWireBreak
  exact act_settles _ _ _
theorem exec_loopTick_settles (t lp s) : Settles (Instr.wf (.loopTick t lp)) s (exec (.loopTick t lp) s) := by
  show Settles _ s (execLoopTick t lp s)
  unfold execLoopTick
  exact act_settles _ _ _
theorem exec_pwmPeriod_settles (t lp s) : Settles (Instr.wf (.pwmPeriod t lp)) s (exec (.pwmPeriod t lp) s) := by
  show Settles _ s (execPwmPeriod t lp s)
  unfold execPwmPeriod
  exact act_settles _ _ _
theorem exec_ppsEdge_settles (t ps s) : Settles (Instr.wf (.ppsEdge t ps)) s (exec (.ppsEdge t ps) s) := by
  show Settles _ s (execPpsEdge t ps s)
  unfold execPpsEdge
  exact act_settles _ _ _
theorem exec_setArm_settles (t s) : Settles (Instr.wf (.setArm t)) s (exec (.setArm t) s) := by
  show Settles _ s (execSetArm t s)
  unfold execSetArm
  exact act_settles _ _ _
theorem exec_todSentence_settles (t ok utc s) : Settles (Instr.wf (.todSentence t ok utc)) s (exec (.todSentence t ok utc) s) := by
  show Settles _ s (execTodSentence t ok utc s)
  unfold execTodSentence
  exact act_settles _ _ _
theorem exec_freqWindowEnd_settles (t off s) : Settles (Instr.wf (.freqWindowEnd t off)) s (exec (.freqWindowEnd t off) s) := by
  show Settles _ s (execFreqWindowEnd t off s)
  unfold execFreqWindowEnd
  exact act_settles _ _ _
theorem exec_ocxoRdyChange_settles (t on s) : Settles (Instr.wf (.ocxoRdyChange t on)) s (exec (.ocxoRdyChange t on) s) := by
  show Settles _ s (execOcxoRdyChange t on s)
  unfold execOcxoRdyChange
  exact act_settles _ _ _
theorem exec_warmMinExpiry_settles (t s) : Settles (Instr.wf (.warmMinExpiry t)) s (exec (.warmMinExpiry t) s) := by
  show Settles _ s (execWarmMinExpiry t s)
  unfold execWarmMinExpiry
  exact act_settles _ _ _
theorem exec_ppsMissingTimeout_settles (t s) : Settles (Instr.wf (.ppsMissingTimeout t)) s (exec (.ppsMissingTimeout t) s) := by
  show Settles _ s (execPpsMissingTimeout t s)
  unfold execPpsMissingTimeout
  exact act_settles _ _ _
theorem exec_holdLimitExpiry_settles (t s) : Settles (Instr.wf (.holdLimitExpiry t)) s (exec (.holdLimitExpiry t) s) := by
  show Settles _ s (execHoldLimitExpiry t s)
  unfold execHoldLimitExpiry
  exact act_settles _ _ _
theorem exec_secondBoundary_settles (t s) : Settles (Instr.wf (.secondBoundary t)) s (exec (.secondBoundary t) s) := by
  show Settles _ s (execSecondBoundary t s)
  unfold execSecondBoundary
  exact act_settles _ _ _
theorem exec_todOutStart_settles (t s) : Settles (Instr.wf (.todOutStart t)) s (exec (.todOutStart t) s) := by
  show Settles _ s (execTodOutStart t s)
  unfold execTodOutStart
  exact act_settles _ _ _
theorem exec_leapSecond_settles (t s) : Settles (Instr.wf (.leapSecond t)) s (exec (.leapSecond t) s) := by
  show Settles _ s (execLeapSecond t s)
  unfold execLeapSecond
  exact act_settles _ _ _
theorem exec_syncTx_settles (t port s) : Settles (Instr.wf (.syncTx t port)) s (exec (.syncTx t port) s) := by
  show Settles _ s (execSyncTx t port s)
  unfold execSyncTx
  exact act_settles _ _ _
theorem exec_announceTx_settles (t port s) : Settles (Instr.wf (.announceTx t port)) s (exec (.announceTx t port) s) := by
  show Settles _ s (execAnnounceTx t port s)
  unfold execAnnounceTx
  exact act_settles _ _ _
theorem exec_delayReq_settles (t port client s) : Settles (Instr.wf (.delayReq t port client)) s (exec (.delayReq t port client) s) := by
  show Settles _ s (execDelayReq t port client s)
  unfold execDelayReq
  exact act_settles _ _ _
theorem exec_foreignAnnounce_settles (t port s) : Settles (Instr.wf (.foreignAnnounce t port)) s (exec (.foreignAnnounce t port) s) := by
  show Settles _ s (execForeignAnnounce t port s)
  unfold execForeignAnnounce
  exact act_settles _ _ _
theorem exec_ptpUnsupported_settles (t port s) : Settles (Instr.wf (.ptpUnsupported t port)) s (exec (.ptpUnsupported t port) s) := by
  show Settles _ s (execPtpUnsupported t port s)
  unfold execPtpUnsupported
  exact act_settles _ _ _
theorem exec_esmcTx_settles (t port s) : Settles (Instr.wf (.esmcTx t port)) s (exec (.esmcTx t port) s) := by
  show Settles _ s (execEsmcTx t port s)
  unfold execEsmcTx
  exact act_settles _ _ _
theorem exec_pfArm_settles (t pf s) : Settles (Instr.wf (.pfArm t pf)) s (exec (.pfArm t pf) s) := by
  show Settles _ s (execPfArm t pf s)
  unfold execPfArm
  exact act_settles _ _ _
theorem exec_pfDisarm_settles (t pf s) : Settles (Instr.wf (.pfDisarm t pf)) s (exec (.pfDisarm t pf) s) := by
  show Settles _ s (execPfDisarm t pf s)
  unfold execPfDisarm
  exact act_settles _ _ _
theorem exec_pfEdge_settles (t pf src fall ce v0 v1 s) : Settles (Instr.wf (.pfEdge t pf src fall ce v0 v1)) s (exec (.pfEdge t pf src fall ce v0 v1) s) := by
  show Settles _ s (execPfEdge t pf src fall ce v0 v1 s)
  unfold execPfEdge
  exact act_settles _ _ _
theorem exec_pfWindowClose_settles (t pf s) : Settles (Instr.wf (.pfWindowClose t pf)) s (exec (.pfWindowClose t pf) s) := by
  show Settles _ s (execPfWindowClose t pf s)
  unfold execPfWindowClose
  exact act_settles _ _ _
theorem exec_pfCalReq_settles (t pf s) : Settles (Instr.wf (.pfCalReq t pf)) s (exec (.pfCalReq t pf) s) := by
  show Settles _ s (execPfCalReq t pf s)
  unfold execPfCalReq
  exact act_settles _ _ _
theorem exec_pfCalPass_settles (t pf s) : Settles (Instr.wf (.pfCalPass t pf)) s (exec (.pfCalPass t pf) s) := by
  show Settles _ s (execPfCalPass t pf s)
  unfold execPfCalPass
  exact act_settles _ _ _
theorem exec_pfCalDone_settles (t pf a0 b0 a1 b1 s) : Settles (Instr.wf (.pfCalDone t pf a0 b0 a1 b1)) s (exec (.pfCalDone t pf a0 b0 a1 b1) s) := by
  show Settles _ s (execPfCalDone t pf a0 b0 a1 b1 s)
  unfold execPfCalDone
  exact act_settles _ _ _
theorem exec_batonLinkChange_settles (t port v s) : Settles (Instr.wf (.batonLinkChange t port v)) s (exec (.batonLinkChange t port v) s) := by
  show Settles _ s (execBatonLinkChange t port v s)
  unfold execBatonLinkChange
  exact act_settles _ _ _
theorem exec_batonFrame_settles (t port good again sig s) : Settles (Instr.wf (.batonFrame t port good again sig)) s (exec (.batonFrame t port good again sig) s) := by
  show Settles _ s (execBatonFrame t port good again sig s)
  unfold execBatonFrame
  exact act_settles _ _ _
theorem exec_batonAnnounce_settles (t port master idx hops others s) : Settles (Instr.wf (.batonAnnounce t port master idx hops others)) s (exec (.batonAnnounce t port master idx hops others) s) := by
  show Settles _ s (execBatonAnnounce t port master idx hops others s)
  unfold execBatonAnnounce
  exact act_settles _ _ _
theorem exec_batonTimingWord_settles (t port t1 t2 t3 t4 set qual ann s) : Settles (Instr.wf (.batonTimingWord t port t1 t2 t3 t4 set qual ann)) s (exec (.batonTimingWord t port t1 t2 t3 t4 set qual ann) s) := by
  show Settles _ s (execBatonTimingWord t port t1 t2 t3 t4 set qual ann s)
  unfold execBatonTimingWord
  exact act_settles _ _ _
theorem exec_hopCalibrated_settles (t port s) : Settles (Instr.wf (.hopCalibrated t port)) s (exec (.hopCalibrated t port) s) := by
  show Settles _ s (execHopCalibrated t port s)
  unfold execHopCalibrated
  exact act_settles _ _ _
theorem exec_proxyAccess_settles (t off write size v s) : Settles (Instr.wf (.proxyAccess t off write size v)) s (exec (.proxyAccess t off write size v) s) := by
  show Settles _ s (execProxyAccess t off write size v s)
  unfold execProxyAccess
  exact act_settles _ _ _
theorem exec_proxyCompletion_settles (t v s) : Settles (Instr.wf (.proxyCompletion t v)) s (exec (.proxyCompletion t v) s) := by
  show Settles _ s (execProxyCompletion t v s)
  unfold execProxyCompletion
  exact act_settles _ _ _
theorem exec_proxyTimeout_settles (t s) : Settles (Instr.wf (.proxyTimeout t)) s (exec (.proxyTimeout t) s) := by
  show Settles _ s (execProxyTimeout t s)
  unfold execProxyTimeout
  exact act_settles _ _ _
theorem exec_shelfRequest_settles (t pool q n rivals s) : Settles (Instr.wf (.shelfRequest t pool q n rivals)) s (exec (.shelfRequest t pool q n rivals) s) := by
  show Settles _ s (execShelfRequest t pool q n rivals s)
  unfold execShelfRequest
  exact act_settles _ _ _
theorem exec_shelfRelease_settles (t pool q n s) : Settles (Instr.wf (.shelfRelease t pool q n)) s (exec (.shelfRelease t pool q n) s) := by
  show Settles _ s (execShelfRelease t pool q n s)
  unfold execShelfRelease
  exact act_settles _ _ _
theorem exec_shelfLimitWrite_settles (t pool q v s) : Settles (Instr.wf (.shelfLimitWrite t pool q v)) s (exec (.shelfLimitWrite t pool q v) s) := by
  show Settles _ s (execShelfLimitWrite t pool q v s)
  unfold execShelfLimitWrite
  exact act_settles _ _ _
theorem exec_shelfReserveWrite_settles (t pool q v s) : Settles (Instr.wf (.shelfReserveWrite t pool q v)) s (exec (.shelfReserveWrite t pool q v) s) := by
  show Settles _ s (execShelfReserveWrite t pool q v s)
  unfold execShelfReserveWrite
  exact act_settles _ _ _
theorem exec_rollConfigWrite_settles (t ln w v s) : Settles (Instr.wf (.rollConfigWrite t ln w v)) s (exec (.rollConfigWrite t ln w v) s) := by
  show Settles _ s (execRollConfigWrite t ln w v s)
  unfold execRollConfigWrite
  exact act_settles _ _ _
theorem exec_dramAccess_settles (t addr rank write len bytes bankRow err s) : Settles (Instr.wf (.dramAccess t addr rank write len bytes bankRow err)) s (exec (.dramAccess t addr rank write len bytes bankRow err) s) := by
  show Settles _ s (execDramAccess t addr rank write len bytes bankRow err s)
  unfold execDramAccess
  exact act_settles _ _ _
theorem exec_rhWindow_settles (t dmc s) : Settles (Instr.wf (.rhWindow t dmc)) s (exec (.rhWindow t dmc) s) := by
  show Settles _ s (execRhWindow t dmc s)
  unfold execRhWindow
  exact act_settles _ _ _
theorem exec_patrolScrub_settles (t dmc n ce rank ue s) : Settles (Instr.wf (.patrolScrub t dmc n ce rank ue)) s (exec (.patrolScrub t dmc n ce rank ue) s) := by
  show Settles _ s (execPatrolScrub t dmc n ce rank ue s)
  unfold execPatrolScrub
  exact act_settles _ _ _
theorem exec_dramCeHour_settles (t dmc s) : Settles (Instr.wf (.dramCeHour t dmc)) s (exec (.dramCeHour t dmc) s) := by
  show Settles _ s (execDramCeHour t dmc s)
  unfold execDramCeHour
  exact act_settles _ _ _
theorem exec_caParityAlert_settles (t dmc rank s) : Settles (Instr.wf (.caParityAlert t dmc rank)) s (exec (.caParityAlert t dmc rank) s) := by
  show Settles _ s (execCaParityAlert t dmc rank s)
  unfold execCaParityAlert
  exact act_settles _ _ _
theorem exec_migrationDone_settles (t dmc bad s) : Settles (Instr.wf (.migrationDone t dmc bad)) s (exec (.migrationDone t dmc bad) s) := by
  show Settles _ s (execMigrationDone t dmc bad s)
  unfold execMigrationDone
  exact act_settles _ _ _
theorem exec_requalGo_settles (t dmc v s) : Settles (Instr.wf (.requalGo t dmc v)) s (exec (.requalGo t dmc v) s) := by
  show Settles _ s (execRequalGo t dmc v s)
  unfold execRequalGo
  exact act_settles _ _ _
theorem exec_rankRequalDone_settles (t dmc pass s) : Settles (Instr.wf (.rankRequalDone t dmc pass)) s (exec (.rankRequalDone t dmc pass) s) := by
  show Settles _ s (execRankRequalDone t dmc pass s)
  unfold execRankRequalDone
  exact act_settles _ _ _
theorem exec_delayWrite_settles (t dmc rank lane w v s) : Settles (Instr.wf (.delayWrite t dmc rank lane w v)) s (exec (.delayWrite t dmc rank lane w v) s) := by
  show Settles _ s (execDelayWrite t dmc rank lane w v s)
  unfold execDelayWrite
  exact act_settles _ _ _
theorem exec_sweepGo_settles (t dmc v s) : Settles (Instr.wf (.sweepGo t dmc v)) s (exec (.sweepGo t dmc v) s) := by
  show Settles _ s (execSweepGo t dmc v s)
  unfold execSweepGo
  exact act_settles _ _ _
theorem exec_sweepDone_settles (t dmc pass errs s) : Settles (Instr.wf (.sweepDone t dmc pass errs)) s (exec (.sweepDone t dmc pass errs) s) := by
  show Settles _ s (execSweepDone t dmc pass errs s)
  unfold execSweepDone
  exact act_settles _ _ _
theorem exec_marginSweep_settles (t dmc margins s) : Settles (Instr.wf (.marginSweep t dmc margins)) s (exec (.marginSweep t dmc margins) s) := by
  show Settles _ s (execMarginSweep t dmc margins s)
  unfold execMarginSweep
  exact act_settles _ _ _
theorem exec_srEntry_settles (t dmc same s) : Settles (Instr.wf (.srEntry t dmc same)) s (exec (.srEntry t dmc same) s) := by
  show Settles _ s (execSrEntry t dmc same s)
  unfold execSrEntry
  exact act_settles _ _ _
theorem exec_archiveFrame_settles (t s) : Settles (Instr.wf (.archiveFrame t)) s (exec (.archiveFrame t) s) := by
  show Settles _ s (execArchiveFrame t s)
  unfold execArchiveFrame
  exact act_settles _ _ _
theorem exec_blockCloseTimer_settles (t stream s) : Settles (Instr.wf (.blockCloseTimer t stream)) s (exec (.blockCloseTimer t stream) s) := by
  show Settles _ s (execBlockCloseTimer t stream s)
  unfold execBlockCloseTimer
  exact act_settles _ _ _
theorem exec_blockDurable_settles (t s) : Settles (Instr.wf (.blockDurable t)) s (exec (.blockDurable t) s) := by
  show Settles _ s (execBlockDurable t s)
  unfold execBlockDurable
  exact act_settles _ _ _
theorem exec_journalWrite_settles (t s) : Settles (Instr.wf (.journalWrite t)) s (exec (.journalWrite t) s) := by
  show Settles _ s (execJournalWrite t s)
  unfold execJournalWrite
  exact act_settles _ _ _
theorem exec_checkpoint_settles (t s) : Settles (Instr.wf (.checkpoint t)) s (exec (.checkpoint t) s) := by
  show Settles _ s (execCheckpoint t s)
  unfold execCheckpoint
  exact act_settles _ _ _
theorem exec_nandRead_settles (t ch target seg blk cw cws s) : Settles (Instr.wf (.nandRead t ch target seg blk cw cws)) s (exec (.nandRead t ch target seg blk cw cws) s) := by
  show Settles _ s (execNandRead t ch target seg blk cw cws s)
  unfold execNandRead
  exact act_settles _ _ _
theorem exec_nandProgramDone_settles (t ch target lun blk pages ok s) : Settles (Instr.wf (.nandProgramDone t ch target lun blk pages ok)) s (exec (.nandProgramDone t ch target lun blk pages ok) s) := by
  show Settles _ s (execNandProgramDone t ch target lun blk pages ok s)
  unfold execNandProgramDone
  exact act_settles _ _ _
theorem exec_nandEraseDone_settles (t ch target lun blk ok s) : Settles (Instr.wf (.nandEraseDone t ch target lun blk ok)) s (exec (.nandEraseDone t ch target lun blk ok) s) := by
  show Settles _ s (execNandEraseDone t ch target lun blk ok s)
  unfold execNandEraseDone
  exact act_settles _ _ _
theorem exec_pinRequest_settles (t s) : Settles (Instr.wf (.pinRequest t)) s (exec (.pinRequest t) s) := by
  show Settles _ s (execPinRequest t s)
  unfold execPinRequest
  exact act_settles _ _ _
theorem exec_pinClose_settles (t s) : Settles (Instr.wf (.pinClose t)) s (exec (.pinClose t) s) := by
  show Settles _ s (execPinClose t s)
  unfold execPinClose
  exact act_settles _ _ _
theorem exec_pinCopyDone_settles (t s) : Settles (Instr.wf (.pinCopyDone t)) s (exec (.pinCopyDone t) s) := by
  show Settles _ s (execPinCopyDone t s)
  unfold execPinCopyDone
  exact act_settles _ _ _
theorem exec_unpin_settles (t id s) : Settles (Instr.wf (.unpin t id)) s (exec (.unpin t id) s) := by
  show Settles _ s (execUnpin t id s)
  unfold execUnpin
  exact act_settles _ _ _
theorem exec_wearMoveDone_settles (t s) : Settles (Instr.wf (.wearMoveDone t)) s (exec (.wearMoveDone t) s) := by
  show Settles _ s (execWearMoveDone t s)
  unfold execWearMoveDone
  exact act_settles _ _ _
theorem exec_ageUpdate_settles (t s) : Settles (Instr.wf (.ageUpdate t)) s (exec (.ageUpdate t) s) := by
  show Settles _ s (execAgeUpdate t s)
  unfold execAgeUpdate
  exact act_settles _ _ _
theorem exec_refreshDone_settles (t s) : Settles (Instr.wf (.refreshDone t)) s (exec (.refreshDone t) s) := by
  show Settles _ s (execRefreshDone t s)
  unfold execRefreshDone
  exact act_settles _ _ _
theorem exec_wearBudget_settles (t s) : Settles (Instr.wf (.wearBudget t)) s (exec (.wearBudget t) s) := by
  show Settles _ s (execWearBudget t s)
  unfold execWearBudget
  exact act_settles _ _ _
theorem exec_mount_settles (t s) : Settles (Instr.wf (.mount t)) s (exec (.mount t) s) := by
  show Settles _ s (execMount t s)
  unfold execMount
  exact act_settles _ _ _
theorem exec_mountDone_settles (t ok params marks replayed s) : Settles (Instr.wf (.mountDone t ok params marks replayed)) s (exec (.mountDone t ok params marks replayed) s) := by
  show Settles _ s (execMountDone t ok params marks replayed s)
  unfold execMountDone
  exact act_settles _ _ _
theorem exec_format_settles (t s) : Settles (Instr.wf (.format t)) s (exec (.format t) s) := by
  show Settles _ s (execFormat t s)
  unfold execFormat
  exact act_settles _ _ _
theorem exec_formatDone_settles (t ok params marks s) : Settles (Instr.wf (.formatDone t ok params marks)) s (exec (.formatDone t ok params marks) s) := by
  show Settles _ s (execFormatDone t ok params marks s)
  unfold execFormatDone
  exact act_settles _ _ _
theorem exec_unmount_settles (t s) : Settles (Instr.wf (.unmount t)) s (exec (.unmount t) s) := by
  show Settles _ s (execUnmount t s)
  unfold execUnmount
  exact act_settles _ _ _
theorem exec_snapGo_settles (t s) : Settles (Instr.wf (.snapGo t)) s (exec (.snapGo t) s) := by
  show Settles _ s (execSnapGo t s)
  unfold execSnapGo
  exact act_settles _ _ _
theorem exec_retGo_settles (t s) : Settles (Instr.wf (.retGo t)) s (exec (.retGo t) s) := by
  show Settles _ s (execRetGo t s)
  unfold execRetGo
  exact act_settles _ _ _
theorem exec_retCancel_settles (t s) : Settles (Instr.wf (.retCancel t)) s (exec (.retCancel t) s) := by
  show Settles _ s (execRetCancel t s)
  unfold execRetCancel
  exact act_settles _ _ _
theorem exec_retDone_settles (t s) : Settles (Instr.wf (.retDone t)) s (exec (.retDone t) s) := by
  show Settles _ s (execRetDone t s)
  unfold execRetDone
  exact act_settles _ _ _
theorem exec_melArchiveBlock_settles (t eng decode poison s) : Settles (Instr.wf (.melArchiveBlock t eng decode poison)) s (exec (.melArchiveBlock t eng decode poison) s) := by
  show Settles _ s (execMelArchiveBlock t eng decode poison s)
  unfold execMelArchiveBlock
  exact act_settles _ _ _
theorem exec_melGo_settles (t eng s) : Settles (Instr.wf (.melGo t eng)) s (exec (.melGo t eng) s) := by
  show Settles _ s (execMelGo t eng s)
  unfold execMelGo
  exact act_settles _ _ _
theorem exec_melJobDone_settles (t eng s) : Settles (Instr.wf (.melJobDone t eng)) s (exec (.melJobDone t eng) s) := by
  show Settles _ s (execMelJobDone t eng s)
  unfold execMelJobDone
  exact act_settles _ _ _
theorem exec_chkDataWrite_settles (t unit v s) : Settles (Instr.wf (.chkDataWrite t unit v)) s (exec (.chkDataWrite t unit v) s) := by
  show Settles _ s (execChkDataWrite t unit v s)
  unfold execChkDataWrite
  exact act_settles _ _ _
theorem exec_chkStateWrite_settles (t unit w v s) : Settles (Instr.wf (.chkStateWrite t unit w v)) s (exec (.chkStateWrite t unit w v) s) := by
  show Settles _ s (execChkStateWrite t unit w v s)
  unfold execChkStateWrite
  exact act_settles _ _ _
theorem exec_chkPolyWrite_settles (t unit v s) : Settles (Instr.wf (.chkPolyWrite t unit v)) s (exec (.chkPolyWrite t unit v) s) := by
  show Settles _ s (execChkPolyWrite t unit v s)
  unfold execChkPolyWrite
  exact act_settles _ _ _
theorem exec_chkCompare_settles (t unit s) : Settles (Instr.wf (.chkCompare t unit)) s (exec (.chkCompare t unit) s) := by
  show Settles _ s (execChkCompare t unit s)
  unfold execChkCompare
  exact act_settles _ _ _
theorem exec_chkInit_settles (t unit s) : Settles (Instr.wf (.chkInit t unit)) s (exec (.chkInit t unit) s) := by
  show Settles _ s (execChkInit t unit s)
  unfold execChkInit
  exact act_settles _ _ _
theorem exec_chkGo_settles (t unit s) : Settles (Instr.wf (.chkGo t unit)) s (exec (.chkGo t unit) s) := by
  show Settles _ s (execChkGo t unit s)
  unfold execChkGo
  exact act_settles _ _ _
theorem exec_chkAbort_settles (t unit fed s) : Settles (Instr.wf (.chkAbort t unit fed)) s (exec (.chkAbort t unit fed) s) := by
  show Settles _ s (execChkAbort t unit fed s)
  unfold execChkAbort
  exact act_settles _ _ _
theorem exec_chkDmaDone_settles (t unit s) : Settles (Instr.wf (.chkDmaDone t unit)) s (exec (.chkDmaDone t unit) s) := by
  show Settles _ s (execChkDmaDone t unit s)
  unfold execChkDmaDone
  exact act_settles _ _ _
theorem exec_pcieReset_settles (t kind s) : Settles (Instr.wf (.pcieReset t kind)) s (exec (.pcieReset t kind) s) := by
  show Settles _ s (execPcieReset t kind s)
  unfold execPcieReset
  exact act_settles _ _ _
theorem exec_busMasterChange_settles (t bme d3 s) : Settles (Instr.wf (.busMasterChange t bme d3)) s (exec (.busMasterChange t bme d3) s) := by
  show Settles _ s (execBusMasterChange t bme d3 s)
  unfold execBusMasterChange
  exact act_settles _ _ _
theorem exec_bar2Access_settles (t off write len bytes s) : Settles (Instr.wf (.bar2Access t off write len bytes)) s (exec (.bar2Access t off write len bytes) s) := by
  show Settles _ s (execBar2Access t off write len bytes s)
  unfold execBar2Access
  exact act_settles _ _ _
theorem exec_ethModeWrite_settles (t port v fault s) : Settles (Instr.wf (.ethModeWrite t port v fault)) s (exec (.ethModeWrite t port v fault) s) := by
  show Settles _ s (execEthModeWrite t port v fault s)
  unfold execEthModeWrite
  exact act_settles _ _ _
theorem exec_ethLinkChange_settles (t port sub v s) : Settles (Instr.wf (.ethLinkChange t port sub v)) s (exec (.ethLinkChange t port sub v) s) := by
  show Settles _ s (execEthLinkChange t port sub v s)
  unfold execEthLinkChange
  exact act_settles _ _ _
theorem exec_arpRequest_settles (t port sub ip mac s) : Settles (Instr.wf (.arpRequest t port sub ip mac)) s (exec (.arpRequest t port sub ip mac) s) := by
  show Settles _ s (execArpRequest t port sub ip mac s)
  unfold execArpRequest
  exact act_settles _ _ _
theorem exec_neighbourSolicitation_settles (t port sub ip s) : Settles (Instr.wf (.neighbourSolicitation t port sub ip)) s (exec (.neighbourSolicitation t port sub ip) s) := by
  show Settles _ s (execNeighbourSolicitation t port sub ip s)
  unfold execNeighbourSolicitation
  exact act_settles _ _ _
theorem exec_echoRequest_settles (t port sub v6 ip id s) : Settles (Instr.wf (.echoRequest t port sub v6 ip id)) s (exec (.echoRequest t port sub v6 ip id) s) := by
  show Settles _ s (execEchoRequest t port sub v6 ip id s)
  unfold execEchoRequest
  exact act_settles _ _ _
theorem exec_pauseFrame_settles (t port quanta s) : Settles (Instr.wf (.pauseFrame t port quanta)) s (exec (.pauseFrame t port quanta) s) := by
  show Settles _ s (execPauseFrame t port quanta s)
  unfold execPauseFrame
  exact act_settles _ _ _
theorem exec_rxIgnored_settles (t port badFcs s) : Settles (Instr.wf (.rxIgnored t port badFcs)) s (exec (.rxIgnored t port badFcs) s) := by
  show Settles _ s (execRxIgnored t port badFcs s)
  unfold execRxIgnored
  exact act_settles _ _ _
theorem exec_ringItemDeliver_settles (t ring s) : Settles (Instr.wf (.ringItemDeliver t ring)) s (exec (.ringItemDeliver t ring) s) := by
  show Settles _ s (execRingItemDeliver t ring s)
  unfold execRingItemDeliver
  exact act_settles _ _ _
theorem exec_ringHoldExpiry_settles (t ring s) : Settles (Instr.wf (.ringHoldExpiry t ring)) s (exec (.ringHoldExpiry t ring) s) := by
  show Settles _ s (execRingHoldExpiry t ring s)
  unfold execRingHoldExpiry
  exact act_settles _ _ _
theorem exec_ringRdWrite_settles (t ring v s) : Settles (Instr.wf (.ringRdWrite t ring v)) s (exec (.ringRdWrite t ring v) s) := by
  show Settles _ s (execRingRdWrite t ring v s)
  unfold execRingRdWrite
  exact act_settles _ _ _
theorem exec_ringBindWrite_settles (t ring w v s) : Settles (Instr.wf (.ringBindWrite t ring w v)) s (exec (.ringBindWrite t ring w v) s) := by
  show Settles _ s (execRingBindWrite t ring w v s)
  unfold execRingBindWrite
  exact act_settles _ _ _
theorem exec_lossReport_settles (t s) : Settles (Instr.wf (.lossReport t)) s (exec (.lossReport t) s) := by
  show Settles _ s (execLossReport t s)
  unfold execLossReport
  exact act_settles _ _ _
theorem exec_notifyTimeout_settles (t ring s) : Settles (Instr.wf (.notifyTimeout t ring)) s (exec (.notifyTimeout t ring) s) := by
  show Settles _ s (execNotifyTimeout t ring s)
  unfold execNotifyTimeout
  exact act_settles _ _ _
theorem exec_cmdDatagram_settles (t port sub v6 src sport dport data s) : Settles (Instr.wf (.cmdDatagram t port sub v6 src sport dport data)) s (exec (.cmdDatagram t port sub v6 src sport dport data) s) := by
  show Settles _ s (execCmdDatagram t port sub v6 src sport dport data s)
  unfold execCmdDatagram
  exact act_settles _ _ _
theorem exec_cmdEntryFetch_settles (t bytes s) : Settles (Instr.wf (.cmdEntryFetch t bytes)) s (exec (.cmdEntryFetch t bytes) s) := by
  show Settles _ s (execCmdEntryFetch t bytes s)
  unfold execCmdEntryFetch
  exact act_settles _ _ _
theorem exec_cmdRead_settles (t s) : Settles (Instr.wf (.cmdRead t)) s (exec (.cmdRead t) s) := by
  show Settles _ s (execCmdRead t s)
  unfold execCmdRead
  exact act_settles _ _ _
theorem exec_cmdWrite_settles (t s) : Settles (Instr.wf (.cmdWrite t)) s (exec (.cmdWrite t) s) := by
  show Settles _ s (execCmdWrite t s)
  unfold execCmdWrite
  exact act_settles _ _ _
theorem exec_cmdModify_settles (t s) : Settles (Instr.wf (.cmdModify t)) s (exec (.cmdModify t) s) := by
  show Settles _ s (execCmdModify t s)
  unfold execCmdModify
  exact act_settles _ _ _
theorem exec_cmdWait_settles (t s) : Settles (Instr.wf (.cmdWait t)) s (exec (.cmdWait t) s) := by
  show Settles _ s (execCmdWait t s)
  unfold execCmdWait
  exact act_settles _ _ _
theorem exec_cmdWaitPoll_settles (t s) : Settles (Instr.wf (.cmdWaitPoll t)) s (exec (.cmdWaitPoll t) s) := by
  show Settles _ s (execCmdWaitPoll t s)
  unfold execCmdWaitPoll
  exact act_settles _ _ _
theorem exec_flowWrite_settles (t flow w v s) : Settles (Instr.wf (.flowWrite t flow w v)) s (exec (.flowWrite t flow w v) s) := by
  show Settles _ s (execFlowWrite t flow w v s)
  unfold execFlowWrite
  exact act_settles _ _ _
theorem exec_pacerTick_settles (t est s) : Settles (Instr.wf (.pacerTick t est)) s (exec (.pacerTick t est) s) := by
  show Settles _ s (execPacerTick t est s)
  unfold execPacerTick
  exact act_settles _ _ _
theorem exec_pmbusTelemetry_settles (t meas s) : Settles (Instr.wf (.pmbusTelemetry t meas)) s (exec (.pmbusTelemetry t meas) s) := by
  show Settles _ s (execPmbusTelemetry t meas s)
  unfold execPmbusTelemetry
  exact act_settles _ _ _
theorem exec_jobPost_settles (t s) : Settles (Instr.wf (.jobPost t)) s (exec (.jobPost t) s) := by
  show Settles _ s (execJobPost t s)
  unfold execJobPost
  exact act_settles _ _ _
theorem exec_jobDone_settles (t entry s) : Settles (Instr.wf (.jobDone t entry)) s (exec (.jobDone t entry) s) := by
  show Settles _ s (execJobDone t entry s)
  unfold execJobDone
  exact act_settles _ _ _
theorem exec_pstate_settles (t v s) : Settles (Instr.wf (.pstate t v)) s (exec (.pstate t v) s) := by
  show Settles _ s (execPstate t v s)
  unfold execPstate
  exact act_settles _ _ _
theorem exec_sleepEntered_settles (t s) : Settles (Instr.wf (.sleepEntered t)) s (exec (.sleepEntered t) s) := by
  show Settles _ s (execSleepEntered t s)
  unfold execSleepEntered
  exact act_settles _ _ _
theorem exec_runRestored_settles (t s) : Settles (Instr.wf (.runRestored t)) s (exec (.runRestored t) s) := by
  show Settles _ s (execRunRestored t s)
  unfold execRunRestored
  exact act_settles _ _ _
theorem exec_wakeAlarm_settles (t s) : Settles (Instr.wf (.wakeAlarm t)) s (exec (.wakeAlarm t) s) := by
  show Settles _ s (execWakeAlarm t s)
  unfold execWakeAlarm
  exact act_settles _ _ _
theorem exec_wakePin_settles (t gpio s) : Settles (Instr.wf (.wakePin t gpio)) s (exec (.wakePin t gpio) s) := by
  show Settles _ s (execWakePin t gpio s)
  unfold execWakePin
  exact act_settles _ _ _
theorem exec_pacerReport_settles (t s) : Settles (Instr.wf (.pacerReport t)) s (exec (.pacerReport t) s) := by
  show Settles _ s (execPacerReport t s)
  unfold execPacerReport
  exact act_settles _ _ _
theorem exec_vbatLow_settles (t low s) : Settles (Instr.wf (.vbatLow t low)) s (exec (.vbatLow t low) s) := by
  show Settles _ s (execVbatLow t low s)
  unfold execVbatLow
  exact actAlways_settles _ _ _
theorem exec_oscFail_settles (t fail long s) : Settles (Instr.wf (.oscFail t fail long)) s (exec (.oscFail t fail long) s) := by
  show Settles _ s (execOscFail t fail long s)
  unfold execOscFail
  exact actAlways_settles _ _ _
theorem exec_powerOnReset_settles (t idx s) : Settles (Instr.wf (.powerOnReset t idx)) s (exec (.powerOnReset t idx) s) := by
  show Settles _ s (execPowerOnReset t idx s)
  unfold execPowerOnReset
  exact actAlways_settles _ _ _
theorem exec_pinReset_settles (t s) : Settles (Instr.wf (.pinReset t)) s (exec (.pinReset t) s) := by
  show Settles _ s (execPinReset t s)
  unfold execPinReset
  exact act_settles _ _ _
theorem exec_warmReset_settles (t key s) : Settles (Instr.wf (.warmReset t key)) s (exec (.warmReset t key) s) := by
  show Settles _ s (execWarmReset t key s)
  unfold execWarmReset
  exact act_settles _ _ _
theorem exec_bootStageEnd_settles (t vals cfg s) : Settles (Instr.wf (.bootStageEnd t vals cfg)) s (exec (.bootStageEnd t vals cfg) s) := by
  show Settles _ s (execBootStageEnd t vals cfg s)
  unfold execBootStageEnd
  exact act_settles _ _ _
theorem exec_wakeNFall_settles (t s) : Settles (Instr.wf (.wakeNFall t)) s (exec (.wakeNFall t) s) := by
  show Settles _ s (execWakeNFall t s)
  unfold execWakeNFall
  exact actAlways_settles _ _ _
theorem exec_offAlarm_settles (t s) : Settles (Instr.wf (.offAlarm t)) s (exec (.offAlarm t) s) := by
  show Settles _ s (execOffAlarm t s)
  unfold execOffAlarm
  exact actAlways_settles _ _ _
theorem exec_lcAdvance_settles (t key ok vdda s) : Settles (Instr.wf (.lcAdvance t key ok vdda)) s (exec (.lcAdvance t key ok vdda) s) := by
  show Settles _ s (execLcAdvance t key ok vdda s)
  unfold execLcAdvance
  exact act_settles _ _ _
theorem exec_wdogKick_settles (t v s) : Settles (Instr.wf (.wdogKick t v)) s (exec (.wdogKick t v) s) := by
  show Settles _ s (execWdogKick t v s)
  unfold execWdogKick
  exact act_settles _ _ _
theorem exec_watchdogExpiry_settles (t s) : Settles (Instr.wf (.watchdogExpiry t)) s (exec (.watchdogExpiry t) s) := by
  show Settles _ s (execWatchdogExpiry t s)
  unfold execWatchdogExpiry
  exact act_settles _ _ _
theorem exec_lineReset_settles (t mask key s) : Settles (Instr.wf (.lineReset t mask key)) s (exec (.lineReset t mask key) s) := by
  show Settles _ s (execLineReset t mask key s)
  unfold execLineReset
  exact act_settles _ _ _
theorem exec_lineResetRelease_settles (t ln s) : Settles (Instr.wf (.lineResetRelease t ln)) s (exec (.lineResetRelease t ln) s) := by
  show Settles _ s (execLineResetRelease t ln s)
  unfold execLineResetRelease
  exact act_settles _ _ _
theorem exec_lineAutoReset_settles (t ln s) : Settles (Instr.wf (.lineAutoReset t ln)) s (exec (.lineAutoReset t ln) s) := by
  show Settles _ s (execLineAutoReset t ln s)
  unfold execLineAutoReset
  exact act_settles _ _ _
theorem exec_shutdown_settles (t key s) : Settles (Instr.wf (.shutdown t key)) s (exec (.shutdown t key) s) := by
  show Settles _ s (execShutdown t key s)
  unfold execShutdown
  exact act_settles _ _ _
theorem exec_shutdownStepEnd_settles (t s) : Settles (Instr.wf (.shutdownStepEnd t)) s (exec (.shutdownStepEnd t) s) := by
  show Settles _ s (execShutdownStepEnd t s)
  unfold execShutdownStepEnd
  exact act_settles _ _ _
theorem exec_smbusStatus_settles (t addr pec s) : Settles (Instr.wf (.smbusStatus t addr pec)) s (exec (.smbusStatus t addr pec) s) := by
  show Settles _ s (execSmbusStatus t addr pec s)
  unfold execSmbusStatus
  exact act_settles _ _ _
theorem exec_smbusWake_settles (t addr pec s) : Settles (Instr.wf (.smbusWake t addr pec)) s (exec (.smbusWake t addr pec) s) := by
  show Settles _ s (execSmbusWake t addr pec s)
  unfold execSmbusWake
  exact act_settles _ _ _
theorem exec_smbusShutdown_settles (t addr v pec s) : Settles (Instr.wf (.smbusShutdown t addr v pec)) s (exec (.smbusShutdown t addr v pec) s) := by
  show Settles _ s (execSmbusShutdown t addr v pec s)
  unfold execSmbusShutdown
  exact act_settles _ _ _
theorem exec_smbusReset_settles (t addr v pec s) : Settles (Instr.wf (.smbusReset t addr v pec)) s (exec (.smbusReset t addr v pec) s) := by
  show Settles _ s (execSmbusReset t addr v pec s)
  unfold execSmbusReset
  exact act_settles _ _ _
theorem exec_smbusTemp_settles (t addr pec s) : Settles (Instr.wf (.smbusTemp t addr pec)) s (exec (.smbusTemp t addr pec) s) := by
  show Settles _ s (execSmbusTemp t addr pec s)
  unfold execSmbusTemp
  exact act_settles _ _ _
theorem exec_powerFail_settles (t s) : Settles (Instr.wf (.powerFail t)) s (exec (.powerFail t) s) := by
  show Settles _ s (execPowerFail t s)
  unfold execPowerFail
  exact act_settles _ _ _
theorem exec_laneStart_settles (t lpu unit s) : Settles (Instr.wf (.laneStart t lpu unit)) s (exec (.laneStart t lpu unit) s) := by
  show Settles _ s (execLaneStart t lpu unit s)
  unfold execLaneStart
  exact act_settles _ _ _
theorem exec_laneStop_settles (t lpu unit errs n s) : Settles (Instr.wf (.laneStop t lpu unit errs n)) s (exec (.laneStop t lpu unit errs n) s) := by
  show Settles _ s (execLaneStop t lpu unit errs n s)
  unfold execLaneStop
  exact act_settles _ _ _
theorem exec_inject_settles (t lpu unit s) : Settles (Instr.wf (.inject t lpu unit)) s (exec (.inject t lpu unit) s) := by
  show Settles _ s (execInject t lpu unit s)
  unfold execInject
  exact act_settles _ _ _
theorem exec_laneDurationEnd_settles (t lpu unit errs n s) : Settles (Instr.wf (.laneDurationEnd t lpu unit errs n)) s (exec (.laneDurationEnd t lpu unit errs n) s) := by
  show Settles _ s (execLaneDurationEnd t lpu unit errs n s)
  unfold execLaneDurationEnd
  exact act_settles _ _ _
theorem exec_busUnitStart_settles (t lpu unit s) : Settles (Instr.wf (.busUnitStart t lpu unit)) s (exec (.busUnitStart t lpu unit) s) := by
  show Settles _ s (execBusUnitStart t lpu unit s)
  unfold execBusUnitStart
  exact act_settles _ _ _
theorem exec_busUnitStop_settles (t lpu unit errs first lanes worst s) : Settles (Instr.wf (.busUnitStop t lpu unit errs first lanes worst)) s (exec (.busUnitStop t lpu unit errs first lanes worst) s) := by
  show Settles _ s (execBusUnitStop t lpu unit errs first lanes worst s)
  unfold execBusUnitStop
  exact act_settles _ _ _
theorem exec_busUnitDone_settles (t lpu unit errs first lanes worst s) : Settles (Instr.wf (.busUnitDone t lpu unit errs first lanes worst)) s (exec (.busUnitDone t lpu unit errs first lanes worst) s) := by
  show Settles _ s (execBusUnitDone t lpu unit errs first lanes worst s)
  unfold execBusUnitDone
  exact act_settles _ _ _
theorem exec_sliceStart_settles (t s) : Settles (Instr.wf (.sliceStart t)) s (exec (.sliceStart t) s) := by
  show Settles _ s (execSliceStart t s)
  unfold execSliceStart
  exact act_settles _ _ _
theorem exec_sliceEnd_settles (t sig count expSig expCount ok vals s) : Settles (Instr.wf (.sliceEnd t sig count expSig expCount ok vals)) s (exec (.sliceEnd t sig count expSig expCount ok vals) s) := by
  show Settles _ s (execSliceEnd t sig count expSig expCount ok vals s)
  unfold execSliceEnd
  exact act_settles _ _ _
theorem exec_sliceTimeout_settles (t sig count s) : Settles (Instr.wf (.sliceTimeout t sig count)) s (exec (.sliceTimeout t sig count) s) := by
  show Settles _ s (execSliceTimeout t sig count s)
  unfold execSliceTimeout
  exact act_settles _ _ _
theorem exec_budgetTimeout_settles (t sig count s) : Settles (Instr.wf (.budgetTimeout t sig count)) s (exec (.budgetTimeout t sig count) s) := by
  show Settles _ s (execBudgetTimeout t sig count s)
  unfold execBudgetTimeout
  exact act_settles _ _ _
theorem exec_runNow_settles (t s) : Settles (Instr.wf (.runNow t)) s (exec (.runNow t) s) := by
  show Settles _ s (execRunNow t s)
  unfold execRunNow
  exact act_settles _ _ _
theorem exec_powerOnResetHold_settles (t s) : Settles (Instr.wf (.powerOnResetHold t)) s (exec (.powerOnResetHold t) s) := by
  show Settles _ s (execPowerOnResetHold t s)
  unfold execPowerOnResetHold
  exact actAlways_settles _ _ _
theorem exec_vbatApplied_settles (t s) : Settles (Instr.wf (.vbatApplied t)) s (exec (.vbatApplied t) s) := by
  show Settles _ s (execVbatApplied t s)
  unfold execVbatApplied
  exact actAlways_settles _ _ _
theorem exec_backupValidLost_settles (t s) : Settles (Instr.wf (.backupValidLost t)) s (exec (.backupValidLost t) s) := by
  show Settles _ s (execBackupValidLost t s)
  unfold execBackupValidLost
  exact actAlways_settles _ _ _
theorem exec_pcieLinkUp_settles (t speed width mps mrrs s) : Settles (Instr.wf (.pcieLinkUp t speed width mps mrrs)) s (exec (.pcieLinkUp t speed width mps mrrs) s) := by
  show Settles _ s (execPcieLinkUp t speed width mps mrrs s)
  unfold execPcieLinkUp
  exact act_settles _ _ _
theorem exec_checkerLocked_settles (t lpu unit s) : Settles (Instr.wf (.checkerLocked t lpu unit)) s (exec (.checkerLocked t lpu unit) s) := by
  show Settles _ s (execCheckerLocked t lpu unit s)
  unfold execCheckerLocked
  exact act_settles _ _ _
theorem exec_lostLock_settles (t lpu unit errs n s) : Settles (Instr.wf (.lostLock t lpu unit errs n)) s (exec (.lostLock t lpu unit errs n) s) := by
  show Settles _ s (execLostLock t lpu unit errs n s)
  unfold execLostLock
  exact act_settles _ _ _
theorem exec_nandTimeout_settles (t ch fatal s) : Settles (Instr.wf (.nandTimeout t ch fatal)) s (exec (.nandTimeout t ch fatal) s) := by
  show Settles _ s (execNandTimeout t ch fatal s)
  unfold execNandTimeout
  exact act_settles _ _ _
theorem exec_sfeClampRelease_settles (t sfe s) : Settles (Instr.wf (.sfeClampRelease t sfe)) s (exec (.sfeClampRelease t sfe) s) := by
  show Settles _ s (execSfeClampRelease t sfe s)
  unfold execSfeClampRelease
  exact act_settles _ _ _

/-- Every command has this form. -/
theorem exec_settles (c : Instr) (s : State) : Settles c.wf s (exec c s) := by
  cases c with
  | registerWrite => exact exec_registerWrite_settles _ _ _ _ _
  | stagedWrite => exact exec_stagedWrite_settles _ _ _ _ _
  | planCheckEval => exact exec_planCheckEval_settles _ _ _
  | clrCounters => exact exec_clrCounters_settles _ _ _
  | evtClr => exact exec_evtClr_settles _ _ _ _ _
  | evtSet => exact exec_evtSet_settles _ _ _ _
  | vecRearm => exact exec_vecRearm_settles _ _ _ _
  | msixUnmask => exact exec_msixUnmask_settles _ _ _ _ _
  | catEntryHiRead => exact exec_catEntryHiRead_settles _ _
  | nowRead => exact exec_nowRead_settles _ _
  | stocktakeReq => exact exec_stocktakeReq_settles _ _ _
  | stocktakeForward => exact exec_stocktakeForward_settles _ _
  | stocktakeInstant => exact exec_stocktakeInstant_settles _ _
  | stocktakeTWord => exact exec_stocktakeTWord_settles _ _ _ _
  | stocktakeConfirm => exact exec_stocktakeConfirm_settles _ _ _
  | stocktakeMasterClose => exact exec_stocktakeMasterClose_settles _ _
  | stocktakeSysTimeout => exact exec_stocktakeSysTimeout_settles _ _
  | commit => exact exec_commit_settles _ _ _
  | commitShot => exact exec_commitShot_settles _ _ _
  | cancel => exact exec_cancel_settles _ _ _
  | commitCapture => exact exec_commitCapture_settles _ _ _
  | immediateCommitApply => exact exec_immediateCommitApply_settles _ _ _
  | slot0Instant => exact exec_slot0Instant_settles _ _ _
  | slotLaunch => exact exec_slotLaunch_settles _ _ _ _
  | lineStart => exact exec_lineStart_settles _ _ _
  | gapEnd => exact exec_gapEnd_settles _ _ _
  | catchUp => exact exec_catchUp_settles _ _ _
  | clusterReady => exact exec_clusterReady_settles _ _ _ _
  | dvfsDone => exact exec_dvfsDone_settles _ _ _ _
  | thermalSensorUpdate => exact exec_thermalSensorUpdate_settles _ _ _
  | bridgeFlit => exact exec_bridgeFlit_settles _ _ _ _ _ _
  | bridgeRetrain => exact exec_bridgeRetrain_settles _ _ _
  | bridgeRetrainDone => exact exec_bridgeRetrainDone_settles _ _ _
  | bridgeReadTimeout => exact exec_bridgeReadTimeout_settles _ _ _
  | bridgeFrameArrive => exact exec_bridgeFrameArrive_settles _ _ _
  | converterWord => exact exec_converterWord_settles _ _ _ _ _ _ _
  | autorangeHoldExpiry => exact exec_autorangeHoldExpiry_settles _ _ _
  | gainScheduleEntry => exact exec_gainScheduleEntry_settles _ _ _ _
  | statWindowEnd => exact exec_statWindowEnd_settles _ _ _ _ _ _ _ _
  | failCore => exact exec_failCore_settles _ _ _ _
  | spareSubstitution => exact exec_spareSubstitution_settles _ _ _
  | requal => exact exec_requal_settles _ _ _
  | requalDone => exact exec_requalDone_settles _ _ _ _
  | psenseWindowEnd => exact exec_psenseWindowEnd_settles _ _ _ _
  | returnPowerWindow => exact exec_returnPowerWindow_settles _ _ _
  | listenWindowClose => exact exec_listenWindowClose_settles _ _ _ _
  | coefWrite => exact exec_coefWrite_settles _ _ _ _ _ _
  | coefSeal => exact exec_coefSeal_settles _ _ _ _ _
  | pipeWord => exact exec_pipeWord_settles _ _ _
  | pipeSettled => exact exec_pipeSettled_settles _ _ _ _
  | mergedSample => exact exec_mergedSample_settles _ _ _
  | gaugeSettled => exact exec_gaugeSettled_settles _ _ _
  | frameInstant => exact exec_frameInstant_settles _ _ _
  | frameBuilt => exact exec_frameBuilt_settles _ _ _
  | ramanShotAccumulate => exact exec_ramanShotAccumulate_settles _ _ _ _ _
  | stackFlip => exact exec_stackFlip_settles _ _ _
  | thermalFrameBuilt => exact exec_thermalFrameBuilt_settles _ _ _
  | stackSeed => exact exec_stackSeed_settles _ _ _ _
  | strideNop => exact exec_strideNop_settles _ _ _ _
  | strideAdd => exact exec_strideAdd_settles _ _ _ _
  | strideSub => exact exec_strideSub_settles _ _ _ _
  | strideAnd => exact exec_strideAnd_settles _ _ _ _
  | strideOr => exact exec_strideOr_settles _ _ _ _
  | strideXor => exact exec_strideXor_settles _ _ _ _
  | strideMin => exact exec_strideMin_settles _ _ _ _
  | strideMax => exact exec_strideMax_settles _ _ _ _
  | strideAbs => exact exec_strideAbs_settles _ _ _ _
  | strideSlt => exact exec_strideSlt_settles _ _ _ _
  | strideShl => exact exec_strideShl_settles _ _ _ _
  | strideShr => exact exec_strideShr_settles _ _ _ _
  | strideSra => exact exec_strideSra_settles _ _ _ _
  | strideNorm => exact exec_strideNorm_settles _ _ _ _
  | strideAddi => exact exec_strideAddi_settles _ _ _ _
  | strideShli => exact exec_strideShli_settles _ _ _ _
  | strideShri => exact exec_strideShri_settles _ _ _ _
  | strideSrai => exact exec_strideSrai_settles _ _ _ _
  | strideMovi => exact exec_strideMovi_settles _ _ _ _
  | strideMovih => exact exec_strideMovih_settles _ _ _ _
  | strideMovtx => exact exec_strideMovtx_settles _ _ _ _
  | strideMovfx => exact exec_strideMovfx_settles _ _ _ _
  | strideLd => exact exec_strideLd_settles _ _ _ _
  | strideLdh => exact exec_strideLdh_settles _ _ _ _
  | strideSt => exact exec_strideSt_settles _ _ _ _
  | strideSth => exact exec_strideSth_settles _ _ _ _
  | strideBeq => exact exec_strideBeq_settles _ _ _ _
  | strideBne => exact exec_strideBne_settles _ _ _ _
  | strideBlt => exact exec_strideBlt_settles _ _ _ _
  | strideBge => exact exec_strideBge_settles _ _ _ _
  | strideBdec => exact exec_strideBdec_settles _ _ _ _
  | strideJ => exact exec_strideJ_settles _ _ _ _
  | strideJal => exact exec_strideJal_settles _ _ _ _
  | strideJr => exact exec_strideJr_settles _ _ _ _
  | strideRti => exact exec_strideRti_settles _ _ _ _
  | strideWait => exact exec_strideWait_settles _ _ _ _
  | strideHalt => exact exec_strideHalt_settles _ _ _ _
  | strideMac => exact exec_strideMac_settles _ _ _ _ _
  | strideMac2 => exact exec_strideMac2_settles _ _ _ _ _
  | strideCmac => exact exec_strideCmac_settles _ _ _ _ _
  | strideExt => exact exec_strideExt_settles _ _ _ _
  | strideExtr => exact exec_strideExtr_settles _ _ _ _
  | strideMova => exact exec_strideMova_settles _ _ _ _
  | strideAshr => exact exec_strideAshr_settles _ _ _ _
  | strideAdda => exact exec_strideAdda_settles _ _ _ _
  | strideExp => exact exec_strideExp_settles _ _ _ _
  | strideAclr => exact exec_strideAclr_settles _ _ _ _
  | strideIn => exact exec_strideIn_settles _ _ _ _
  | strideOut => exact exec_strideOut_settles _ _ _ _
  | strideMark => exact exec_strideMark_settles _ _ _ _
  | strideSig => exact exec_strideSig_settles _ _ _ _
  | interruptTaken => exact exec_interruptTaken_settles _ _ _ _
  | strideTimerExpiry => exact exec_strideTimerExpiry_settles _ _ _ _
  | doorbell => exact exec_doorbell_settles _ _ _ _
  | coreStart => exact exec_coreStart_settles _ _ _ _
  | coreStop => exact exec_coreStop_settles _ _ _ _
  | kernelLoadEnd => exact exec_kernelLoadEnd_settles _ _ _ _
  | featureWord => exact exec_featureWord_settles _ _ _
  | featureFrameClose => exact exec_featureFrameClose_settles _ _ _
  | sequencerStep => exact exec_sequencerStep_settles _ _ _
  | gpioEdge => exact exec_gpioEdge_settles _ _ _ _
  | triggerWord => exact exec_triggerWord_settles _ _ _ _ _ _ _
  | todInstant => exact exec_todInstant_settles _ _ _
  | recordEmit => exact exec_recordEmit_settles _ _ _ _
  | arcTableWrite => exact exec_arcTableWrite_settles _ _ _ _ _
  | sequencerEnable => exact exec_sequencerEnable_settles _ _ _ _ _
  | userGo => exact exec_userGo_settles _ _ _
  | ledgerEntry => exact exec_ledgerEntry_settles _ _
  | ledgerReserve => exact exec_ledgerReserve_settles _ _ _
  | ledgerReserveRetry => exact exec_ledgerReserveRetry_settles _ _ _
  | ledgerArchiveWrite => exact exec_ledgerArchiveWrite_settles _ _
  | calEvalTick => exact exec_calEvalTick_settles _ _ _
  | calReq => exact exec_calReq_settles _ _ _
  | calForce => exact exec_calForce_settles _ _ _
  | calPassStart => exact exec_calPassStart_settles _ _ _
  | calPhaseEnd => exact exec_calPhaseEnd_settles _ _ _ _
  | calExit => exact exec_calExit_settles _ _ _ _
  | calHandover => exact exec_calHandover_settles _ _ _
  | calReturn => exact exec_calReturn_settles _ _ _ _
  | svcConversion => exact exec_svcConversion_settles _ _ _ _
  | scanStart => exact exec_scanStart_settles _ _ _
  | injGo => exact exec_injGo_settles _ _ _
  | shotTrigger => exact exec_shotTrigger_settles _ _ _
  | svcCalReq => exact exec_svcCalReq_settles _ _
  | svcCalForce => exact exec_svcCalForce_settles _ _
  | svcCalStart => exact exec_svcCalStart_settles _ _ _
  | svcCalDone => exact exec_svcCalDone_settles _ _ _ _ _
  | sfeMeasurement => exact exec_sfeMeasurement_settles _ _ _ _
  | sfeCheck => exact exec_sfeCheck_settles _ _ _
  | sfeCheckDone => exact exec_sfeCheckDone_settles _ _ _ _ _
  | sfeClamp => exact exec_sfeClamp_settles _ _ _
  | wireBreak => exact exec_wireBreak_settles _ _ _
  | loopTick => exact exec_loopTick_settles _ _ _
  | pwmPeriod => exact exec_pwmPeriod_settles _ _ _
  | ppsEdge => exact exec_ppsEdge_settles _ _ _
  | setArm => exact exec_setArm_settles _ _
  | todSentence => exact exec_todSentence_settles _ _ _ _
  | freqWindowEnd => exact exec_freqWindowEnd_settles _ _ _
  | ocxoRdyChange => exact exec_ocxoRdyChange_settles _ _ _
  | warmMinExpiry => exact exec_warmMinExpiry_settles _ _
  | ppsMissingTimeout => exact exec_ppsMissingTimeout_settles _ _
  | holdLimitExpiry => exact exec_holdLimitExpiry_settles _ _
  | secondBoundary => exact exec_secondBoundary_settles _ _
  | todOutStart => exact exec_todOutStart_settles _ _
  | leapSecond => exact exec_leapSecond_settles _ _
  | syncTx => exact exec_syncTx_settles _ _ _
  | announceTx => exact exec_announceTx_settles _ _ _
  | delayReq => exact exec_delayReq_settles _ _ _ _
  | foreignAnnounce => exact exec_foreignAnnounce_settles _ _ _
  | ptpUnsupported => exact exec_ptpUnsupported_settles _ _ _
  | esmcTx => exact exec_esmcTx_settles _ _ _
  | pfArm => exact exec_pfArm_settles _ _ _
  | pfDisarm => exact exec_pfDisarm_settles _ _ _
  | pfEdge => exact exec_pfEdge_settles _ _ _ _ _ _ _ _
  | pfWindowClose => exact exec_pfWindowClose_settles _ _ _
  | pfCalReq => exact exec_pfCalReq_settles _ _ _
  | pfCalPass => exact exec_pfCalPass_settles _ _ _
  | pfCalDone => exact exec_pfCalDone_settles _ _ _ _ _ _ _
  | batonLinkChange => exact exec_batonLinkChange_settles _ _ _ _
  | batonFrame => exact exec_batonFrame_settles _ _ _ _ _ _
  | batonAnnounce => exact exec_batonAnnounce_settles _ _ _ _ _ _ _
  | batonTimingWord => exact exec_batonTimingWord_settles _ _ _ _ _ _ _ _ _ _
  | hopCalibrated => exact exec_hopCalibrated_settles _ _ _
  | proxyAccess => exact exec_proxyAccess_settles _ _ _ _ _ _
  | proxyCompletion => exact exec_proxyCompletion_settles _ _ _
  | proxyTimeout => exact exec_proxyTimeout_settles _ _
  | shelfRequest => exact exec_shelfRequest_settles _ _ _ _ _ _
  | shelfRelease => exact exec_shelfRelease_settles _ _ _ _ _
  | shelfLimitWrite => exact exec_shelfLimitWrite_settles _ _ _ _ _
  | shelfReserveWrite => exact exec_shelfReserveWrite_settles _ _ _ _ _
  | rollConfigWrite => exact exec_rollConfigWrite_settles _ _ _ _ _
  | dramAccess => exact exec_dramAccess_settles _ _ _ _ _ _ _ _ _
  | rhWindow => exact exec_rhWindow_settles _ _ _
  | patrolScrub => exact exec_patrolScrub_settles _ _ _ _ _ _ _
  | dramCeHour => exact exec_dramCeHour_settles _ _ _
  | caParityAlert => exact exec_caParityAlert_settles _ _ _ _
  | migrationDone => exact exec_migrationDone_settles _ _ _ _
  | requalGo => exact exec_requalGo_settles _ _ _ _
  | rankRequalDone => exact exec_rankRequalDone_settles _ _ _ _
  | delayWrite => exact exec_delayWrite_settles _ _ _ _ _ _ _
  | sweepGo => exact exec_sweepGo_settles _ _ _ _
  | sweepDone => exact exec_sweepDone_settles _ _ _ _ _
  | marginSweep => exact exec_marginSweep_settles _ _ _ _
  | srEntry => exact exec_srEntry_settles _ _ _ _
  | archiveFrame => exact exec_archiveFrame_settles _ _
  | blockCloseTimer => exact exec_blockCloseTimer_settles _ _ _
  | blockDurable => exact exec_blockDurable_settles _ _
  | journalWrite => exact exec_journalWrite_settles _ _
  | checkpoint => exact exec_checkpoint_settles _ _
  | nandRead => exact exec_nandRead_settles _ _ _ _ _ _ _ _
  | nandProgramDone => exact exec_nandProgramDone_settles _ _ _ _ _ _ _ _
  | nandEraseDone => exact exec_nandEraseDone_settles _ _ _ _ _ _ _
  | pinRequest => exact exec_pinRequest_settles _ _
  | pinClose => exact exec_pinClose_settles _ _
  | pinCopyDone => exact exec_pinCopyDone_settles _ _
  | unpin => exact exec_unpin_settles _ _ _
  | wearMoveDone => exact exec_wearMoveDone_settles _ _
  | ageUpdate => exact exec_ageUpdate_settles _ _
  | refreshDone => exact exec_refreshDone_settles _ _
  | wearBudget => exact exec_wearBudget_settles _ _
  | mount => exact exec_mount_settles _ _
  | mountDone => exact exec_mountDone_settles _ _ _ _ _ _
  | format => exact exec_format_settles _ _
  | formatDone => exact exec_formatDone_settles _ _ _ _ _
  | unmount => exact exec_unmount_settles _ _
  | snapGo => exact exec_snapGo_settles _ _
  | retGo => exact exec_retGo_settles _ _
  | retCancel => exact exec_retCancel_settles _ _
  | retDone => exact exec_retDone_settles _ _
  | melArchiveBlock => exact exec_melArchiveBlock_settles _ _ _ _ _
  | melGo => exact exec_melGo_settles _ _ _
  | melJobDone => exact exec_melJobDone_settles _ _ _
  | chkDataWrite => exact exec_chkDataWrite_settles _ _ _ _
  | chkStateWrite => exact exec_chkStateWrite_settles _ _ _ _ _
  | chkPolyWrite => exact exec_chkPolyWrite_settles _ _ _ _
  | chkCompare => exact exec_chkCompare_settles _ _ _
  | chkInit => exact exec_chkInit_settles _ _ _
  | chkGo => exact exec_chkGo_settles _ _ _
  | chkAbort => exact exec_chkAbort_settles _ _ _ _
  | chkDmaDone => exact exec_chkDmaDone_settles _ _ _
  | pcieReset => exact exec_pcieReset_settles _ _ _
  | busMasterChange => exact exec_busMasterChange_settles _ _ _ _
  | bar2Access => exact exec_bar2Access_settles _ _ _ _ _ _
  | ethModeWrite => exact exec_ethModeWrite_settles _ _ _ _ _
  | ethLinkChange => exact exec_ethLinkChange_settles _ _ _ _ _
  | arpRequest => exact exec_arpRequest_settles _ _ _ _ _ _
  | neighbourSolicitation => exact exec_neighbourSolicitation_settles _ _ _ _ _
  | echoRequest => exact exec_echoRequest_settles _ _ _ _ _ _ _
  | pauseFrame => exact exec_pauseFrame_settles _ _ _ _
  | rxIgnored => exact exec_rxIgnored_settles _ _ _ _
  | ringItemDeliver => exact exec_ringItemDeliver_settles _ _ _
  | ringHoldExpiry => exact exec_ringHoldExpiry_settles _ _ _
  | ringRdWrite => exact exec_ringRdWrite_settles _ _ _ _
  | ringBindWrite => exact exec_ringBindWrite_settles _ _ _ _ _
  | lossReport => exact exec_lossReport_settles _ _
  | notifyTimeout => exact exec_notifyTimeout_settles _ _ _
  | cmdDatagram => exact exec_cmdDatagram_settles _ _ _ _ _ _ _ _ _
  | cmdEntryFetch => exact exec_cmdEntryFetch_settles _ _ _
  | cmdRead => exact exec_cmdRead_settles _ _
  | cmdWrite => exact exec_cmdWrite_settles _ _
  | cmdModify => exact exec_cmdModify_settles _ _
  | cmdWait => exact exec_cmdWait_settles _ _
  | cmdWaitPoll => exact exec_cmdWaitPoll_settles _ _
  | flowWrite => exact exec_flowWrite_settles _ _ _ _ _
  | pacerTick => exact exec_pacerTick_settles _ _ _
  | pmbusTelemetry => exact exec_pmbusTelemetry_settles _ _ _
  | jobPost => exact exec_jobPost_settles _ _
  | jobDone => exact exec_jobDone_settles _ _ _
  | pstate => exact exec_pstate_settles _ _ _
  | sleepEntered => exact exec_sleepEntered_settles _ _
  | runRestored => exact exec_runRestored_settles _ _
  | wakeAlarm => exact exec_wakeAlarm_settles _ _
  | wakePin => exact exec_wakePin_settles _ _ _
  | pacerReport => exact exec_pacerReport_settles _ _
  | vbatLow => exact exec_vbatLow_settles _ _ _
  | oscFail => exact exec_oscFail_settles _ _ _ _
  | powerOnReset => exact exec_powerOnReset_settles _ _ _
  | pinReset => exact exec_pinReset_settles _ _
  | warmReset => exact exec_warmReset_settles _ _ _
  | bootStageEnd => exact exec_bootStageEnd_settles _ _ _ _
  | wakeNFall => exact exec_wakeNFall_settles _ _
  | offAlarm => exact exec_offAlarm_settles _ _
  | lcAdvance => exact exec_lcAdvance_settles _ _ _ _ _
  | wdogKick => exact exec_wdogKick_settles _ _ _
  | watchdogExpiry => exact exec_watchdogExpiry_settles _ _
  | lineReset => exact exec_lineReset_settles _ _ _ _
  | lineResetRelease => exact exec_lineResetRelease_settles _ _ _
  | lineAutoReset => exact exec_lineAutoReset_settles _ _ _
  | shutdown => exact exec_shutdown_settles _ _ _
  | shutdownStepEnd => exact exec_shutdownStepEnd_settles _ _
  | smbusStatus => exact exec_smbusStatus_settles _ _ _ _
  | smbusWake => exact exec_smbusWake_settles _ _ _ _
  | smbusShutdown => exact exec_smbusShutdown_settles _ _ _ _ _
  | smbusReset => exact exec_smbusReset_settles _ _ _ _ _
  | smbusTemp => exact exec_smbusTemp_settles _ _ _ _
  | powerFail => exact exec_powerFail_settles _ _
  | laneStart => exact exec_laneStart_settles _ _ _ _
  | laneStop => exact exec_laneStop_settles _ _ _ _ _ _
  | inject => exact exec_inject_settles _ _ _ _
  | laneDurationEnd => exact exec_laneDurationEnd_settles _ _ _ _ _ _
  | busUnitStart => exact exec_busUnitStart_settles _ _ _ _
  | busUnitStop => exact exec_busUnitStop_settles _ _ _ _ _ _ _ _
  | busUnitDone => exact exec_busUnitDone_settles _ _ _ _ _ _ _ _
  | sliceStart => exact exec_sliceStart_settles _ _
  | sliceEnd => exact exec_sliceEnd_settles _ _ _ _ _ _ _ _
  | sliceTimeout => exact exec_sliceTimeout_settles _ _ _ _
  | budgetTimeout => exact exec_budgetTimeout_settles _ _ _ _
  | runNow => exact exec_runNow_settles _ _
  | powerOnResetHold => exact exec_powerOnResetHold_settles _ _
  | vbatApplied => exact exec_vbatApplied_settles _ _
  | backupValidLost => exact exec_backupValidLost_settles _ _
  | pcieLinkUp => exact exec_pcieLinkUp_settles _ _ _ _ _ _
  | checkerLocked => exact exec_checkerLocked_settles _ _ _ _
  | lostLock => exact exec_lostLock_settles _ _ _ _ _ _
  | nandTimeout => exact exec_nandTimeout_settles _ _ _ _
  | sfeClampRelease => exact exec_sfeClampRelease_settles _ _ _

end Sys2Proof.Machine
end

