-- ==== Sys2Proof/Laws/Memory.lean ====
section
/-! SUPPORT. The laws of memory: every write keeps the canonical form. -/

namespace Sys2Proof.Machine

/-- The canonical form, read off the head. -/
theorem wf_cons (a : Host.Cell) (r : List Host.Cell) :
    Memory.wf (a :: r) = true ↔ a.2 ≠ 0 ∧ (∀ x ∈ r, a.1 < x.1) ∧ Memory.wf r = true := by
  induction r generalizing a with
  | nil => simp [Memory.wf]
  | cons b r ih =>
    have h := ih b
    simp only [Memory.wf, Bool.and_eq_true, decide_eq_true_eq, bne_iff_ne, List.mem_cons, forall_eq_or_imp]
    constructor
    · rintro ⟨⟨h0, h1⟩, h2⟩
      exact ⟨h0, ⟨h1, fun x hx => Nat.lt_trans h1 ((h.1 h2).2.1 x hx)⟩, h2⟩
    · rintro ⟨h0, ⟨h1, _⟩, h2⟩
      exact ⟨⟨h0, h1⟩, h2⟩

theorem wf_filter (m : List Host.Cell) (p : Host.Cell → Bool) (h : Memory.wf m = true) :
    Memory.wf (m.filter p) = true := by
  induction m with
  | nil => rfl
  | cons e r ih =>
    obtain ⟨h0, h1, h2⟩ := (wf_cons e r).1 h
    by_cases hp : p e = true
    · rw [List.filter_cons_of_pos hp]
      exact (wf_cons _ _).2 ⟨h0, fun x hx => h1 x ((List.mem_filter.1 hx).1), ih h2⟩
    · rw [List.filter_cons_of_neg hp]; exact ih h2

theorem wf_append (m n : List Host.Cell) (hm : Memory.wf m = true) (hn : Memory.wf n = true)
    (h : ∀ x ∈ m, ∀ y ∈ n, x.1 < y.1) : Memory.wf (m ++ n) = true := by
  induction m with
  | nil => exact hn
  | cons e r ih =>
    obtain ⟨h0, h1, h2⟩ := (wf_cons e r).1 hm
    refine (wf_cons _ _).2 ⟨h0, ?_, ih h2 (fun x hx y hy => h x (by simp [hx]) y hy)⟩
    intro x hx
    rcases List.mem_append.1 hx with hx | hx
    · exact h1 x hx
    · exact h e (by simp) x hx

/-- The cells of a write lie in its range. -/
theorem memCells_range (a : Nat) (bytes : List Nat) :
    ∀ x ∈ memCells a bytes, a ≤ x.1 ∧ x.1 < a + bytes.length := by
  induction bytes generalizing a with
  | nil => simp [memCells]
  | cons b r ih =>
    intro x hx
    by_cases hb : b % 256 = 0
    · simp only [memCells, hb, if_true] at hx
      have := ih (a + 1) x hx
      simp only [List.length_cons]; omega
    · simp only [memCells, hb, if_false, List.mem_cons] at hx
      rcases hx with hx | hx
      · subst hx; simp
      · have := ih (a + 1) x hx
        simp only [List.length_cons]; omega

theorem memCells_wf (a : Nat) (bytes : List Nat) : Memory.wf (memCells a bytes) = true := by
  induction bytes generalizing a with
  | nil => rfl
  | cons b r ih =>
    by_cases hb : b % 256 = 0
    · simpa [memCells, hb] using ih (a + 1)
    · simp only [memCells, hb, if_false]
      refine (wf_cons _ _).2 ⟨?_, ?_, ih (a + 1)⟩
      · intro h
        have := congrArg BitVec.toNat h
        simp at this; omega
      · intro x hx
        have := memCells_range (a + 1) r x hx
        simp only; omega

/-- A write keeps the canonical form. -/
theorem memWrite_wf (m : List Host.Cell) (a : Nat) (bytes : List Nat) (h : Memory.wf m = true) :
    Memory.wf (memWrite m a bytes) = true := by
  unfold memWrite
  have h1 : ∀ x ∈ m.filter (fun c => decide (c.1 < a)), x.1 < a := by
    intro x hx; simpa using (List.mem_filter.1 hx).2
  have h2 := memCells_range a bytes
  have h3 : ∀ x ∈ m.filter (fun c => decide (a + bytes.length ≤ c.1)), a + bytes.length ≤ x.1 := by
    intro x hx; simpa using (List.mem_filter.1 hx).2
  refine wf_append _ _ (wf_append _ _ (wf_filter _ _ h) (memCells_wf a bytes) ?_) (wf_filter _ _ h) ?_
  · intro x hx y hy
    have := h1 x hx; have := h2 y hy; omega
  · intro x hx y hy
    have hy := h3 y hy
    rcases List.mem_append.1 hx with hx | hx
    · have := h1 x hx; omega
    · have := h2 x hx; omega

/-- The device's memory keeps its canonical form over a store. -/
theorem store_wf (d : Dev) (a : Nat) (bytes : List Nat) (h : Memory.wf d.mem = true) :
    Memory.wf (store d a bytes).mem = true := memWrite_wf d.mem a bytes h

/-- The memory after reset has the canonical form. -/
theorem reset_mem_wf : Memory.wf State.reset.dev.mem = true := rfl

theorem find_filter_out (m : List Host.Cell) (p : Host.Cell → Bool) (x : Nat) (h : ∀ c ∈ m, c.1 = x → p c = true) :
    (m.filter p).find? (fun c => c.1 == x) = m.find? (fun c => c.1 == x) := by
  induction m with
  | nil => rfl
  | cons e r ih =>
    have ih := ih (fun c hc => h c (by simp [hc]))
    by_cases hp : p e = true
    · rw [List.filter_cons_of_pos hp]; simp [List.find?_cons, ih]
    · rw [List.filter_cons_of_neg hp, ih]
      have : e.1 ≠ x := fun he => hp (h e (by simp) he)
      simp [this]

theorem find_none_of (m : List Host.Cell) (x : Nat) (h : ∀ c ∈ m, c.1 ≠ x) :
    m.find? (fun c => c.1 == x) = none := by
  simp only [List.find?_eq_none, beq_iff_eq]; exact h

/-- A byte outside the range of a write reads as before. -/
theorem memByte_memWrite_out (m : List Host.Cell) (a : Nat) (bytes : List Nat) (x : Nat)
    (h : x < a ∨ a + bytes.length ≤ x) : memByte (memWrite m a bytes) x = memByte m x := by
  have hc : (memCells a bytes).find? (fun c => c.1 == x) = none :=
    find_none_of _ _ (fun c hc => by have := memCells_range a bytes c hc; omega)
  unfold memByte memWrite
  simp only [List.find?_append, hc, Option.or_none]
  rcases h with h | h
  · rw [find_filter_out m _ x (fun c _ hx => by simp; omega),
      find_none_of (m.filter (fun c => decide (a + bytes.length ≤ c.1))) x (fun c hc he => by
        have := (List.mem_filter.1 hc).2; simp at this; omega)]
    simp
  · rw [find_filter_out m (fun c => decide (a + bytes.length ≤ c.1)) x (fun c _ hx => by simp; omega),
      find_none_of (m.filter (fun c => decide (c.1 < a))) x (fun c hc he => by
        have := (List.mem_filter.1 hc).2; simp at this; omega)]
    simp

/-- The cells of a write hold its bytes. -/
theorem memByte_memCells (a : Nat) (bytes : List Nat) (i : Nat) (h : i < bytes.length) :
    memByte (memCells a bytes) (a + i) = bytes[i] % 256 := by
  induction bytes generalizing a i with
  | nil => simp at h
  | cons b r ih =>
    cases i with
    | zero =>
      by_cases hb : b % 256 = 0
      · have : (memCells (a + 1) r).find? (fun c => c.1 == a) = none :=
          find_none_of _ _ (fun c hc => by have := memCells_range (a + 1) r c hc; omega)
        simp [memCells, hb, memByte, this]
      · simp [memCells, hb, memByte]
    | succ i =>
      have hi : i < r.length := by simpa using h
      have e : a + (i + 1) = a + 1 + i := by omega
      have step : memByte (memCells a (b :: r)) (a + (i + 1)) = memByte (memCells (a + 1) r) (a + 1 + i) := by
        by_cases hb : b % 256 = 0
        · simp [memCells, hb, e]
        · have : a ≠ a + 1 + i := by omega
          simp [memCells, hb, memByte, e, this]
      rw [step, ih (a + 1) i hi]; simp

/-- A byte in the range of a write reads as written. -/
theorem memByte_memWrite_in (m : List Host.Cell) (a : Nat) (bytes : List Nat) (i : Nat) (h : i < bytes.length) :
    memByte (memWrite m a bytes) (a + i) = bytes[i] % 256 := by
  rw [← memByte_memCells a bytes i h]
  unfold memByte memWrite
  simp only [List.find?_append]
  rw [find_none_of (m.filter (fun c => decide (c.1 < a))) (a + i) (fun c hc he => by
        have := (List.mem_filter.1 hc).2; simp at this; omega),
      find_none_of (m.filter (fun c => decide (a + bytes.length ≤ c.1))) (a + i) (fun c hc he => by
        have := (List.mem_filter.1 hc).2; simp at this; omega)]
  simp

end Sys2Proof.Machine
end

