-- ==== Sys2Proof/Laws/State.lean ====
section
/-! SUPPORT. What the elementary updates of the device leave alone: one lemma for each field and update. -/

namespace Sys2Proof.Machine

open Sys2Proof

/-! ## setR -/

@[simp] theorem setR_evt (d : Dev) (p : Nat) (f : Fld) (v : Nat) : (setR d p f v).evt = d.evt := rfl
@[simp] theorem setR_snap (d : Dev) (p : Nat) (f : Fld) (v : Nat) : (setR d p f v).snap = d.snap := rfl
@[simp] theorem setR_snapTaken (d : Dev) (p : Nat) (f : Fld) (v : Nat) : (setR d p f v).snapTaken = d.snapTaken := rfl
@[simp] theorem setR_coef (d : Dev) (p : Nat) (f : Fld) (v : Nat) : (setR d p f v).coef = d.coef := rfl
@[simp] theorem setR_coefOwn (d : Dev) (p : Nat) (f : Fld) (v : Nat) : (setR d p f v).coefOwn = d.coefOwn := rfl
@[simp] theorem setR_irq (d : Dev) (p : Nat) (f : Fld) (v : Nat) : (setR d p f v).irq = d.irq := rfl
@[simp] theorem setR_out (d : Dev) (p : Nat) (f : Fld) (v : Nat) : (setR d p f v).out = d.out := rfl
@[simp] theorem setR_ticks (d : Dev) (p : Nat) (f : Fld) (v : Nat) : (setR d p f v).ticks = d.ticks := rfl
@[simp] theorem setR_freeN (d : Dev) (p : Nat) (f : Fld) (v : Nat) : (setR d p f v).freeN = d.freeN := rfl
@[simp] theorem setR_rings (d : Dev) (p : Nat) (f : Fld) (v : Nat) : (setR d p f v).rings = d.rings := rfl
@[simp] theorem setR_net (d : Dev) (p : Nat) (f : Fld) (v : Nat) : (setR d p f v).net = d.net := rfl
@[simp] theorem setR_cmd (d : Dev) (p : Nat) (f : Fld) (v : Nat) : (setR d p f v).cmd = d.cmd := rfl
@[simp] theorem setR_clusters (d : Dev) (p : Nat) (f : Fld) (v : Nat) : (setR d p f v).clusters = d.clusters := rfl
@[simp] theorem setR_relays (d : Dev) (p : Nat) (f : Fld) (v : Nat) : (setR d p f v).relays = d.relays := rfl
@[simp] theorem setR_bridges (d : Dev) (p : Nat) (f : Fld) (v : Nat) : (setR d p f v).bridges = d.bridges := rfl
@[simp] theorem setR_unitStale (d : Dev) (p : Nat) (f : Fld) (v : Nat) : (setR d p f v).unitStale = d.unitStale := rfl
@[simp] theorem setR_unitCal (d : Dev) (p : Nat) (f : Fld) (v : Nat) : (setR d p f v).unitCal = d.unitCal := rfl
@[simp] theorem setR_unitEpoch (d : Dev) (p : Nat) (f : Fld) (v : Nat) : (setR d p f v).unitEpoch = d.unitEpoch := rfl
@[simp] theorem setR_epochs (d : Dev) (p : Nat) (f : Fld) (v : Nat) : (setR d p f v).epochs = d.epochs := rfl
@[simp] theorem setR_fenced (d : Dev) (p : Nat) (f : Fld) (v : Nat) : (setR d p f v).fenced = d.fenced := rfl
@[simp] theorem setR_fenceFree (d : Dev) (p : Nat) (f : Fld) (v : Nat) : (setR d p f v).fenceFree = d.fenceFree := rfl
@[simp] theorem setR_stk (d : Dev) (p : Nat) (f : Fld) (v : Nat) : (setR d p f v).stk = d.stk := rfl
@[simp] theorem setR_stkEpoch (d : Dev) (p : Nat) (f : Fld) (v : Nat) : (setR d p f v).stkEpoch = d.stkEpoch := rfl
@[simp] theorem setR_baton (d : Dev) (p : Nat) (f : Fld) (v : Nat) : (setR d p f v).baton = d.baton := rfl
@[simp] theorem setR_time (d : Dev) (p : Nat) (f : Fld) (v : Nat) : (setR d p f v).time = d.time := rfl
@[simp] theorem setR_ptp (d : Dev) (p : Nat) (f : Fld) (v : Nat) : (setR d p f v).ptp = d.ptp := rfl
@[simp] theorem setR_pfs (d : Dev) (p : Nat) (f : Fld) (v : Nat) : (setR d p f v).pfs = d.pfs := rfl
@[simp] theorem setR_ledger (d : Dev) (p : Nat) (f : Fld) (v : Nat) : (setR d p f v).ledger = d.ledger := rfl
@[simp] theorem setR_almH (d : Dev) (p : Nat) (f : Fld) (v : Nat) : (setR d p f v).almH = d.almH := rfl
@[simp] theorem setR_almHOk (d : Dev) (p : Nat) (f : Fld) (v : Nat) : (setR d p f v).almHOk = d.almHOk := rfl
@[simp] theorem setR_ledgerOut (d : Dev) (p : Nat) (f : Fld) (v : Nat) : (setR d p f v).ledgerOut = d.ledgerOut := rfl
@[simp] theorem setR_pools (d : Dev) (p : Nat) (f : Fld) (v : Nat) : (setR d p f v).pools = d.pools := rfl
@[simp] theorem setR_dmc (d : Dev) (p : Nat) (f : Fld) (v : Nat) : (setR d p f v).dmc = d.dmc := rfl
@[simp] theorem setR_rankMiB (d : Dev) (p : Nat) (f : Fld) (v : Nat) : (setR d p f v).rankMiB = d.rankMiB := rfl
@[simp] theorem setR_dlyLive (d : Dev) (p : Nat) (f : Fld) (v : Nat) : (setR d p f v).dlyLive = d.dlyLive := rfl
@[simp] theorem setR_almDly (d : Dev) (p : Nat) (f : Fld) (v : Nat) : (setR d p f v).almDly = d.almDly := rfl
@[simp] theorem setR_mem (d : Dev) (p : Nat) (f : Fld) (v : Nat) : (setR d p f v).mem = d.mem := rfl
@[simp] theorem setR_roll (d : Dev) (p : Nat) (f : Fld) (v : Nat) : (setR d p f v).roll = d.roll := rfl
@[simp] theorem setR_jobOwner (d : Dev) (p : Nat) (f : Fld) (v : Nat) : (setR d p f v).jobOwner = d.jobOwner := rfl
@[simp] theorem setR_rx (d : Dev) (p : Nat) (f : Fld) (v : Nat) : (setR d p f v).rx = d.rx := rfl
@[simp] theorem setR_conds (d : Dev) (p : Nat) (f : Fld) (v : Nat) : (setR d p f v).conds = d.conds := rfl
@[simp] theorem setR_pipes (d : Dev) (p : Nat) (f : Fld) (v : Nat) : (setR d p f v).pipes = d.pipes := rfl
@[simp] theorem setR_toFrame (d : Dev) (p : Nat) (f : Fld) (v : Nat) : (setR d p f v).toFrame = d.toFrame := rfl
@[simp] theorem setR_calPend (d : Dev) (p : Nat) (f : Fld) (v : Nat) : (setR d p f v).calPend = d.calPend := rfl
@[simp] theorem setR_eligFrom (d : Dev) (p : Nat) (f : Fld) (v : Nat) : (setR d p f v).eligFrom = d.eligFrom := rfl
@[simp] theorem setR_lines (d : Dev) (p : Nat) (f : Fld) (v : Nat) : (setR d p f v).lines = d.lines := rfl
@[simp] theorem setR_committed (d : Dev) (p : Nat) (f : Fld) (v : Nat) : (setR d p f v).committed = d.committed := rfl
@[simp] theorem setR_starters (d : Dev) (p : Nat) (f : Fld) (v : Nat) : (setR d p f v).starters = d.starters := rfl
@[simp] theorem setR_sfeAt (d : Dev) (p : Nat) (f : Fld) (v : Nat) : (setR d p f v).sfeAt = d.sfeAt := rfl
@[simp] theorem setR_gatesHeld (d : Dev) (p : Nat) (f : Fld) (v : Nat) : (setR d p f v).gatesHeld = d.gatesHeld := rfl
@[simp] theorem setR_gauges (d : Dev) (p : Nat) (f : Fld) (v : Nat) : (setR d p f v).gauges = d.gauges := rfl
@[simp] theorem setR_frames (d : Dev) (p : Nat) (f : Fld) (v : Nat) : (setR d p f v).frames = d.frames := rfl
@[simp] theorem setR_ramans (d : Dev) (p : Nat) (f : Fld) (v : Nat) : (setR d p f v).ramans = d.ramans := rfl
@[simp] theorem setR_almStack (d : Dev) (p : Nat) (f : Fld) (v : Nat) : (setR d p f v).almStack = d.almStack := rfl
@[simp] theorem setR_stkPause (d : Dev) (p : Nat) (f : Fld) (v : Nat) : (setR d p f v).stkPause = d.stkPause := rfl
@[simp] theorem setR_cores (d : Dev) (p : Nat) (f : Fld) (v : Nat) : (setR d p f v).cores = d.cores := rfl
@[simp] theorem setR_inCfg (d : Dev) (p : Nat) (f : Fld) (v : Nat) : (setR d p f v).inCfg = d.inCfg := rfl
@[simp] theorem setR_busNext (d : Dev) (p : Nat) (f : Fld) (v : Nat) : (setR d p f v).busNext = d.busNext := rfl
@[simp] theorem setR_paceGate (d : Dev) (p : Nat) (f : Fld) (v : Nat) : (setR d p f v).paceGate = d.paceGate := rfl
@[simp] theorem setR_hurdles (d : Dev) (p : Nat) (f : Fld) (v : Nat) : (setR d p f v).hurdles = d.hurdles := rfl
@[simp] theorem setR_pinAsk (d : Dev) (p : Nat) (f : Fld) (v : Nat) : (setR d p f v).pinAsk = d.pinAsk := rfl
@[simp] theorem setR_pins (d : Dev) (p : Nat) (f : Fld) (v : Nat) : (setR d p f v).pins = d.pins := rfl
@[simp] theorem setR_cals (d : Dev) (p : Nat) (f : Fld) (v : Nat) : (setR d p f v).cals = d.cals := rfl
@[simp] theorem setR_almCal (d : Dev) (p : Nat) (f : Fld) (v : Nat) : (setR d p f v).almCal = d.almCal := rfl
@[simp] theorem setR_jobSince (d : Dev) (p : Nat) (f : Fld) (v : Nat) : (setR d p f v).jobSince = d.jobSince := rfl
@[simp] theorem setR_svcRec (d : Dev) (p : Nat) (f : Fld) (v : Nat) : (setR d p f v).svcRec = d.svcRec := rfl
@[simp] theorem setR_svcSnap (d : Dev) (p : Nat) (f : Fld) (v : Nat) : (setR d p f v).svcSnap = d.svcSnap := rfl
@[simp] theorem setR_svcCores (d : Dev) (p : Nat) (f : Fld) (v : Nat) : (setR d p f v).svcCores = d.svcCores := rfl
@[simp] theorem setR_svcShots (d : Dev) (p : Nat) (f : Fld) (v : Nat) : (setR d p f v).svcShots = d.svcShots := rfl
@[simp] theorem setR_svcCal (d : Dev) (p : Nat) (f : Fld) (v : Nat) : (setR d p f v).svcCal = d.svcCal := rfl
@[simp] theorem setR_sfes (d : Dev) (p : Nat) (f : Fld) (v : Nat) : (setR d p f v).sfes = d.sfes := rfl
@[simp] theorem setR_loops (d : Dev) (p : Nat) (f : Fld) (v : Nat) : (setR d p f v).loops = d.loops := rfl
@[simp] theorem setR_mels (d : Dev) (p : Nat) (f : Fld) (v : Nat) : (setR d p f v).mels = d.mels := rfl
@[simp] theorem setR_melHostNext (d : Dev) (p : Nat) (f : Fld) (v : Nat) : (setR d p f v).melHostNext = d.melHostNext := rfl
@[simp] theorem setR_chkJobs (d : Dev) (p : Nat) (f : Fld) (v : Nat) : (setR d p f v).chkJobs = d.chkJobs := rfl
@[simp] theorem setR_arc (d : Dev) (p : Nat) (f : Fld) (v : Nat) : (setR d p f v).arc = d.arc := rfl
@[simp] theorem setR_almBad (d : Dev) (p : Nat) (f : Fld) (v : Nat) : (setR d p f v).almBad = d.almBad := rfl
@[simp] theorem setR_paceMel (d : Dev) (p : Nat) (f : Fld) (v : Nat) : (setR d p f v).paceMel = d.paceMel := rfl
@[simp] theorem setR_paceDecim (d : Dev) (p : Nat) (f : Fld) (v : Nat) : (setR d p f v).paceDecim = d.paceDecim := rfl
@[simp] theorem setR_commitPend (d : Dev) (p : Nat) (f : Fld) (v : Nat) : (setR d p f v).commitPend = d.commitPend := rfl
@[simp] theorem setR_paceOv (d : Dev) (p : Nat) (f : Fld) (v : Nat) : (setR d p f v).paceOv = d.paceOv := rfl
@[simp] theorem setR_pacer (d : Dev) (p : Nat) (f : Fld) (v : Nat) : (setR d p f v).pacer = d.pacer := rfl
@[simp] theorem setR_bkpBase (d : Dev) (p : Nat) (f : Fld) (v : Nat) : (setR d p f v).bkpBase = d.bkpBase := rfl
@[simp] theorem setR_vbatLow18 (d : Dev) (p : Nat) (f : Fld) (v : Nat) : (setR d p f v).vbatLow18 = d.vbatLow18 := rfl
@[simp] theorem setR_oscStop (d : Dev) (p : Nat) (f : Fld) (v : Nat) : (setR d p f v).oscStop = d.oscStop := rfl
@[simp] theorem setR_boot (d : Dev) (p : Nat) (f : Fld) (v : Nat) : (setR d p f v).boot = d.boot := rfl
@[simp] theorem setR_bist (d : Dev) (p : Nat) (f : Fld) (v : Nat) : (setR d p f v).bist = d.bist := rfl
@[simp] theorem setR_lpus (d : Dev) (p : Nat) (f : Fld) (v : Nat) : (setR d p f v).lpus = d.lpus := rfl
@[simp] theorem setR_ids (d : Dev) (p : Nat) (f : Fld) (v : Nat) : (setR d p f v).ids = d.ids := rfl

/-! ## setL -/

@[simp] theorem setL_evt (d : Dev) (p : Nat) (f : Fld) (v : Nat) : (setL d p f v).evt = d.evt := rfl
@[simp] theorem setL_snap (d : Dev) (p : Nat) (f : Fld) (v : Nat) : (setL d p f v).snap = d.snap := rfl
@[simp] theorem setL_snapTaken (d : Dev) (p : Nat) (f : Fld) (v : Nat) : (setL d p f v).snapTaken = d.snapTaken := rfl
@[simp] theorem setL_coef (d : Dev) (p : Nat) (f : Fld) (v : Nat) : (setL d p f v).coef = d.coef := rfl
@[simp] theorem setL_coefOwn (d : Dev) (p : Nat) (f : Fld) (v : Nat) : (setL d p f v).coefOwn = d.coefOwn := rfl
@[simp] theorem setL_irq (d : Dev) (p : Nat) (f : Fld) (v : Nat) : (setL d p f v).irq = d.irq := rfl
@[simp] theorem setL_out (d : Dev) (p : Nat) (f : Fld) (v : Nat) : (setL d p f v).out = d.out := rfl
@[simp] theorem setL_ticks (d : Dev) (p : Nat) (f : Fld) (v : Nat) : (setL d p f v).ticks = d.ticks := rfl
@[simp] theorem setL_freeN (d : Dev) (p : Nat) (f : Fld) (v : Nat) : (setL d p f v).freeN = d.freeN := rfl
@[simp] theorem setL_rings (d : Dev) (p : Nat) (f : Fld) (v : Nat) : (setL d p f v).rings = d.rings := rfl
@[simp] theorem setL_net (d : Dev) (p : Nat) (f : Fld) (v : Nat) : (setL d p f v).net = d.net := rfl
@[simp] theorem setL_cmd (d : Dev) (p : Nat) (f : Fld) (v : Nat) : (setL d p f v).cmd = d.cmd := rfl
@[simp] theorem setL_clusters (d : Dev) (p : Nat) (f : Fld) (v : Nat) : (setL d p f v).clusters = d.clusters := rfl
@[simp] theorem setL_relays (d : Dev) (p : Nat) (f : Fld) (v : Nat) : (setL d p f v).relays = d.relays := rfl
@[simp] theorem setL_bridges (d : Dev) (p : Nat) (f : Fld) (v : Nat) : (setL d p f v).bridges = d.bridges := rfl
@[simp] theorem setL_unitStale (d : Dev) (p : Nat) (f : Fld) (v : Nat) : (setL d p f v).unitStale = d.unitStale := rfl
@[simp] theorem setL_unitCal (d : Dev) (p : Nat) (f : Fld) (v : Nat) : (setL d p f v).unitCal = d.unitCal := rfl
@[simp] theorem setL_unitEpoch (d : Dev) (p : Nat) (f : Fld) (v : Nat) : (setL d p f v).unitEpoch = d.unitEpoch := rfl
@[simp] theorem setL_epochs (d : Dev) (p : Nat) (f : Fld) (v : Nat) : (setL d p f v).epochs = d.epochs := rfl
@[simp] theorem setL_fenced (d : Dev) (p : Nat) (f : Fld) (v : Nat) : (setL d p f v).fenced = d.fenced := rfl
@[simp] theorem setL_fenceFree (d : Dev) (p : Nat) (f : Fld) (v : Nat) : (setL d p f v).fenceFree = d.fenceFree := rfl
@[simp] theorem setL_stk (d : Dev) (p : Nat) (f : Fld) (v : Nat) : (setL d p f v).stk = d.stk := rfl
@[simp] theorem setL_stkEpoch (d : Dev) (p : Nat) (f : Fld) (v : Nat) : (setL d p f v).stkEpoch = d.stkEpoch := rfl
@[simp] theorem setL_baton (d : Dev) (p : Nat) (f : Fld) (v : Nat) : (setL d p f v).baton = d.baton := rfl
@[simp] theorem setL_time (d : Dev) (p : Nat) (f : Fld) (v : Nat) : (setL d p f v).time = d.time := rfl
@[simp] theorem setL_ptp (d : Dev) (p : Nat) (f : Fld) (v : Nat) : (setL d p f v).ptp = d.ptp := rfl
@[simp] theorem setL_pfs (d : Dev) (p : Nat) (f : Fld) (v : Nat) : (setL d p f v).pfs = d.pfs := rfl
@[simp] theorem setL_ledger (d : Dev) (p : Nat) (f : Fld) (v : Nat) : (setL d p f v).ledger = d.ledger := rfl
@[simp] theorem setL_almH (d : Dev) (p : Nat) (f : Fld) (v : Nat) : (setL d p f v).almH = d.almH := rfl
@[simp] theorem setL_almHOk (d : Dev) (p : Nat) (f : Fld) (v : Nat) : (setL d p f v).almHOk = d.almHOk := rfl
@[simp] theorem setL_ledgerOut (d : Dev) (p : Nat) (f : Fld) (v : Nat) : (setL d p f v).ledgerOut = d.ledgerOut := rfl
@[simp] theorem setL_pools (d : Dev) (p : Nat) (f : Fld) (v : Nat) : (setL d p f v).pools = d.pools := rfl
@[simp] theorem setL_dmc (d : Dev) (p : Nat) (f : Fld) (v : Nat) : (setL d p f v).dmc = d.dmc := rfl
@[simp] theorem setL_rankMiB (d : Dev) (p : Nat) (f : Fld) (v : Nat) : (setL d p f v).rankMiB = d.rankMiB := rfl
@[simp] theorem setL_dlyLive (d : Dev) (p : Nat) (f : Fld) (v : Nat) : (setL d p f v).dlyLive = d.dlyLive := rfl
@[simp] theorem setL_almDly (d : Dev) (p : Nat) (f : Fld) (v : Nat) : (setL d p f v).almDly = d.almDly := rfl
@[simp] theorem setL_mem (d : Dev) (p : Nat) (f : Fld) (v : Nat) : (setL d p f v).mem = d.mem := rfl
@[simp] theorem setL_roll (d : Dev) (p : Nat) (f : Fld) (v : Nat) : (setL d p f v).roll = d.roll := rfl
@[simp] theorem setL_jobOwner (d : Dev) (p : Nat) (f : Fld) (v : Nat) : (setL d p f v).jobOwner = d.jobOwner := rfl
@[simp] theorem setL_rx (d : Dev) (p : Nat) (f : Fld) (v : Nat) : (setL d p f v).rx = d.rx := rfl
@[simp] theorem setL_conds (d : Dev) (p : Nat) (f : Fld) (v : Nat) : (setL d p f v).conds = d.conds := rfl
@[simp] theorem setL_pipes (d : Dev) (p : Nat) (f : Fld) (v : Nat) : (setL d p f v).pipes = d.pipes := rfl
@[simp] theorem setL_toFrame (d : Dev) (p : Nat) (f : Fld) (v : Nat) : (setL d p f v).toFrame = d.toFrame := rfl
@[simp] theorem setL_calPend (d : Dev) (p : Nat) (f : Fld) (v : Nat) : (setL d p f v).calPend = d.calPend := rfl
@[simp] theorem setL_eligFrom (d : Dev) (p : Nat) (f : Fld) (v : Nat) : (setL d p f v).eligFrom = d.eligFrom := rfl
@[simp] theorem setL_lines (d : Dev) (p : Nat) (f : Fld) (v : Nat) : (setL d p f v).lines = d.lines := rfl
@[simp] theorem setL_committed (d : Dev) (p : Nat) (f : Fld) (v : Nat) : (setL d p f v).committed = d.committed := rfl
@[simp] theorem setL_starters (d : Dev) (p : Nat) (f : Fld) (v : Nat) : (setL d p f v).starters = d.starters := rfl
@[simp] theorem setL_sfeAt (d : Dev) (p : Nat) (f : Fld) (v : Nat) : (setL d p f v).sfeAt = d.sfeAt := rfl
@[simp] theorem setL_gatesHeld (d : Dev) (p : Nat) (f : Fld) (v : Nat) : (setL d p f v).gatesHeld = d.gatesHeld := rfl
@[simp] theorem setL_gauges (d : Dev) (p : Nat) (f : Fld) (v : Nat) : (setL d p f v).gauges = d.gauges := rfl
@[simp] theorem setL_frames (d : Dev) (p : Nat) (f : Fld) (v : Nat) : (setL d p f v).frames = d.frames := rfl
@[simp] theorem setL_ramans (d : Dev) (p : Nat) (f : Fld) (v : Nat) : (setL d p f v).ramans = d.ramans := rfl
@[simp] theorem setL_almStack (d : Dev) (p : Nat) (f : Fld) (v : Nat) : (setL d p f v).almStack = d.almStack := rfl
@[simp] theorem setL_stkPause (d : Dev) (p : Nat) (f : Fld) (v : Nat) : (setL d p f v).stkPause = d.stkPause := rfl
@[simp] theorem setL_cores (d : Dev) (p : Nat) (f : Fld) (v : Nat) : (setL d p f v).cores = d.cores := rfl
@[simp] theorem setL_inCfg (d : Dev) (p : Nat) (f : Fld) (v : Nat) : (setL d p f v).inCfg = d.inCfg := rfl
@[simp] theorem setL_busNext (d : Dev) (p : Nat) (f : Fld) (v : Nat) : (setL d p f v).busNext = d.busNext := rfl
@[simp] theorem setL_paceGate (d : Dev) (p : Nat) (f : Fld) (v : Nat) : (setL d p f v).paceGate = d.paceGate := rfl
@[simp] theorem setL_hurdles (d : Dev) (p : Nat) (f : Fld) (v : Nat) : (setL d p f v).hurdles = d.hurdles := rfl
@[simp] theorem setL_pinAsk (d : Dev) (p : Nat) (f : Fld) (v : Nat) : (setL d p f v).pinAsk = d.pinAsk := rfl
@[simp] theorem setL_pins (d : Dev) (p : Nat) (f : Fld) (v : Nat) : (setL d p f v).pins = d.pins := rfl
@[simp] theorem setL_cals (d : Dev) (p : Nat) (f : Fld) (v : Nat) : (setL d p f v).cals = d.cals := rfl
@[simp] theorem setL_almCal (d : Dev) (p : Nat) (f : Fld) (v : Nat) : (setL d p f v).almCal = d.almCal := rfl
@[simp] theorem setL_jobSince (d : Dev) (p : Nat) (f : Fld) (v : Nat) : (setL d p f v).jobSince = d.jobSince := rfl
@[simp] theorem setL_svcRec (d : Dev) (p : Nat) (f : Fld) (v : Nat) : (setL d p f v).svcRec = d.svcRec := rfl
@[simp] theorem setL_svcSnap (d : Dev) (p : Nat) (f : Fld) (v : Nat) : (setL d p f v).svcSnap = d.svcSnap := rfl
@[simp] theorem setL_svcCores (d : Dev) (p : Nat) (f : Fld) (v : Nat) : (setL d p f v).svcCores = d.svcCores := rfl
@[simp] theorem setL_svcShots (d : Dev) (p : Nat) (f : Fld) (v : Nat) : (setL d p f v).svcShots = d.svcShots := rfl
@[simp] theorem setL_svcCal (d : Dev) (p : Nat) (f : Fld) (v : Nat) : (setL d p f v).svcCal = d.svcCal := rfl
@[simp] theorem setL_sfes (d : Dev) (p : Nat) (f : Fld) (v : Nat) : (setL d p f v).sfes = d.sfes := rfl
@[simp] theorem setL_loops (d : Dev) (p : Nat) (f : Fld) (v : Nat) : (setL d p f v).loops = d.loops := rfl
@[simp] theorem setL_mels (d : Dev) (p : Nat) (f : Fld) (v : Nat) : (setL d p f v).mels = d.mels := rfl
@[simp] theorem setL_melHostNext (d : Dev) (p : Nat) (f : Fld) (v : Nat) : (setL d p f v).melHostNext = d.melHostNext := rfl
@[simp] theorem setL_chkJobs (d : Dev) (p : Nat) (f : Fld) (v : Nat) : (setL d p f v).chkJobs = d.chkJobs := rfl
@[simp] theorem setL_arc (d : Dev) (p : Nat) (f : Fld) (v : Nat) : (setL d p f v).arc = d.arc := rfl
@[simp] theorem setL_almBad (d : Dev) (p : Nat) (f : Fld) (v : Nat) : (setL d p f v).almBad = d.almBad := rfl
@[simp] theorem setL_paceMel (d : Dev) (p : Nat) (f : Fld) (v : Nat) : (setL d p f v).paceMel = d.paceMel := rfl
@[simp] theorem setL_paceDecim (d : Dev) (p : Nat) (f : Fld) (v : Nat) : (setL d p f v).paceDecim = d.paceDecim := rfl
@[simp] theorem setL_commitPend (d : Dev) (p : Nat) (f : Fld) (v : Nat) : (setL d p f v).commitPend = d.commitPend := rfl
@[simp] theorem setL_paceOv (d : Dev) (p : Nat) (f : Fld) (v : Nat) : (setL d p f v).paceOv = d.paceOv := rfl
@[simp] theorem setL_pacer (d : Dev) (p : Nat) (f : Fld) (v : Nat) : (setL d p f v).pacer = d.pacer := rfl
@[simp] theorem setL_bkpBase (d : Dev) (p : Nat) (f : Fld) (v : Nat) : (setL d p f v).bkpBase = d.bkpBase := rfl
@[simp] theorem setL_vbatLow18 (d : Dev) (p : Nat) (f : Fld) (v : Nat) : (setL d p f v).vbatLow18 = d.vbatLow18 := rfl
@[simp] theorem setL_oscStop (d : Dev) (p : Nat) (f : Fld) (v : Nat) : (setL d p f v).oscStop = d.oscStop := rfl
@[simp] theorem setL_boot (d : Dev) (p : Nat) (f : Fld) (v : Nat) : (setL d p f v).boot = d.boot := rfl
@[simp] theorem setL_bist (d : Dev) (p : Nat) (f : Fld) (v : Nat) : (setL d p f v).bist = d.bist := rfl
@[simp] theorem setL_lpus (d : Dev) (p : Nat) (f : Fld) (v : Nat) : (setL d p f v).lpus = d.lpus := rfl
@[simp] theorem setL_ids (d : Dev) (p : Nat) (f : Fld) (v : Nat) : (setL d p f v).ids = d.ids := rfl

/-! ## setS -/

@[simp] theorem setS_evt (d : Dev) (p : Nat) (f : Fld) (v : Int) : (setS d p f v).evt = d.evt := rfl
@[simp] theorem setS_snap (d : Dev) (p : Nat) (f : Fld) (v : Int) : (setS d p f v).snap = d.snap := rfl
@[simp] theorem setS_snapTaken (d : Dev) (p : Nat) (f : Fld) (v : Int) : (setS d p f v).snapTaken = d.snapTaken := rfl
@[simp] theorem setS_coef (d : Dev) (p : Nat) (f : Fld) (v : Int) : (setS d p f v).coef = d.coef := rfl
@[simp] theorem setS_coefOwn (d : Dev) (p : Nat) (f : Fld) (v : Int) : (setS d p f v).coefOwn = d.coefOwn := rfl
@[simp] theorem setS_irq (d : Dev) (p : Nat) (f : Fld) (v : Int) : (setS d p f v).irq = d.irq := rfl
@[simp] theorem setS_out (d : Dev) (p : Nat) (f : Fld) (v : Int) : (setS d p f v).out = d.out := rfl
@[simp] theorem setS_ticks (d : Dev) (p : Nat) (f : Fld) (v : Int) : (setS d p f v).ticks = d.ticks := rfl
@[simp] theorem setS_freeN (d : Dev) (p : Nat) (f : Fld) (v : Int) : (setS d p f v).freeN = d.freeN := rfl
@[simp] theorem setS_rings (d : Dev) (p : Nat) (f : Fld) (v : Int) : (setS d p f v).rings = d.rings := rfl
@[simp] theorem setS_net (d : Dev) (p : Nat) (f : Fld) (v : Int) : (setS d p f v).net = d.net := rfl
@[simp] theorem setS_cmd (d : Dev) (p : Nat) (f : Fld) (v : Int) : (setS d p f v).cmd = d.cmd := rfl
@[simp] theorem setS_clusters (d : Dev) (p : Nat) (f : Fld) (v : Int) : (setS d p f v).clusters = d.clusters := rfl
@[simp] theorem setS_relays (d : Dev) (p : Nat) (f : Fld) (v : Int) : (setS d p f v).relays = d.relays := rfl
@[simp] theorem setS_bridges (d : Dev) (p : Nat) (f : Fld) (v : Int) : (setS d p f v).bridges = d.bridges := rfl
@[simp] theorem setS_unitStale (d : Dev) (p : Nat) (f : Fld) (v : Int) : (setS d p f v).unitStale = d.unitStale := rfl
@[simp] theorem setS_unitCal (d : Dev) (p : Nat) (f : Fld) (v : Int) : (setS d p f v).unitCal = d.unitCal := rfl
@[simp] theorem setS_unitEpoch (d : Dev) (p : Nat) (f : Fld) (v : Int) : (setS d p f v).unitEpoch = d.unitEpoch := rfl
@[simp] theorem setS_epochs (d : Dev) (p : Nat) (f : Fld) (v : Int) : (setS d p f v).epochs = d.epochs := rfl
@[simp] theorem setS_fenced (d : Dev) (p : Nat) (f : Fld) (v : Int) : (setS d p f v).fenced = d.fenced := rfl
@[simp] theorem setS_fenceFree (d : Dev) (p : Nat) (f : Fld) (v : Int) : (setS d p f v).fenceFree = d.fenceFree := rfl
@[simp] theorem setS_stk (d : Dev) (p : Nat) (f : Fld) (v : Int) : (setS d p f v).stk = d.stk := rfl
@[simp] theorem setS_stkEpoch (d : Dev) (p : Nat) (f : Fld) (v : Int) : (setS d p f v).stkEpoch = d.stkEpoch := rfl
@[simp] theorem setS_baton (d : Dev) (p : Nat) (f : Fld) (v : Int) : (setS d p f v).baton = d.baton := rfl
@[simp] theorem setS_time (d : Dev) (p : Nat) (f : Fld) (v : Int) : (setS d p f v).time = d.time := rfl
@[simp] theorem setS_ptp (d : Dev) (p : Nat) (f : Fld) (v : Int) : (setS d p f v).ptp = d.ptp := rfl
@[simp] theorem setS_pfs (d : Dev) (p : Nat) (f : Fld) (v : Int) : (setS d p f v).pfs = d.pfs := rfl
@[simp] theorem setS_ledger (d : Dev) (p : Nat) (f : Fld) (v : Int) : (setS d p f v).ledger = d.ledger := rfl
@[simp] theorem setS_almH (d : Dev) (p : Nat) (f : Fld) (v : Int) : (setS d p f v).almH = d.almH := rfl
@[simp] theorem setS_almHOk (d : Dev) (p : Nat) (f : Fld) (v : Int) : (setS d p f v).almHOk = d.almHOk := rfl
@[simp] theorem setS_ledgerOut (d : Dev) (p : Nat) (f : Fld) (v : Int) : (setS d p f v).ledgerOut = d.ledgerOut := rfl
@[simp] theorem setS_pools (d : Dev) (p : Nat) (f : Fld) (v : Int) : (setS d p f v).pools = d.pools := rfl
@[simp] theorem setS_dmc (d : Dev) (p : Nat) (f : Fld) (v : Int) : (setS d p f v).dmc = d.dmc := rfl
@[simp] theorem setS_rankMiB (d : Dev) (p : Nat) (f : Fld) (v : Int) : (setS d p f v).rankMiB = d.rankMiB := rfl
@[simp] theorem setS_dlyLive (d : Dev) (p : Nat) (f : Fld) (v : Int) : (setS d p f v).dlyLive = d.dlyLive := rfl
@[simp] theorem setS_almDly (d : Dev) (p : Nat) (f : Fld) (v : Int) : (setS d p f v).almDly = d.almDly := rfl
@[simp] theorem setS_mem (d : Dev) (p : Nat) (f : Fld) (v : Int) : (setS d p f v).mem = d.mem := rfl
@[simp] theorem setS_roll (d : Dev) (p : Nat) (f : Fld) (v : Int) : (setS d p f v).roll = d.roll := rfl
@[simp] theorem setS_jobOwner (d : Dev) (p : Nat) (f : Fld) (v : Int) : (setS d p f v).jobOwner = d.jobOwner := rfl
@[simp] theorem setS_rx (d : Dev) (p : Nat) (f : Fld) (v : Int) : (setS d p f v).rx = d.rx := rfl
@[simp] theorem setS_conds (d : Dev) (p : Nat) (f : Fld) (v : Int) : (setS d p f v).conds = d.conds := rfl
@[simp] theorem setS_pipes (d : Dev) (p : Nat) (f : Fld) (v : Int) : (setS d p f v).pipes = d.pipes := rfl
@[simp] theorem setS_toFrame (d : Dev) (p : Nat) (f : Fld) (v : Int) : (setS d p f v).toFrame = d.toFrame := rfl
@[simp] theorem setS_calPend (d : Dev) (p : Nat) (f : Fld) (v : Int) : (setS d p f v).calPend = d.calPend := rfl
@[simp] theorem setS_eligFrom (d : Dev) (p : Nat) (f : Fld) (v : Int) : (setS d p f v).eligFrom = d.eligFrom := rfl
@[simp] theorem setS_lines (d : Dev) (p : Nat) (f : Fld) (v : Int) : (setS d p f v).lines = d.lines := rfl
@[simp] theorem setS_committed (d : Dev) (p : Nat) (f : Fld) (v : Int) : (setS d p f v).committed = d.committed := rfl
@[simp] theorem setS_starters (d : Dev) (p : Nat) (f : Fld) (v : Int) : (setS d p f v).starters = d.starters := rfl
@[simp] theorem setS_sfeAt (d : Dev) (p : Nat) (f : Fld) (v : Int) : (setS d p f v).sfeAt = d.sfeAt := rfl
@[simp] theorem setS_gatesHeld (d : Dev) (p : Nat) (f : Fld) (v : Int) : (setS d p f v).gatesHeld = d.gatesHeld := rfl
@[simp] theorem setS_gauges (d : Dev) (p : Nat) (f : Fld) (v : Int) : (setS d p f v).gauges = d.gauges := rfl
@[simp] theorem setS_frames (d : Dev) (p : Nat) (f : Fld) (v : Int) : (setS d p f v).frames = d.frames := rfl
@[simp] theorem setS_ramans (d : Dev) (p : Nat) (f : Fld) (v : Int) : (setS d p f v).ramans = d.ramans := rfl
@[simp] theorem setS_almStack (d : Dev) (p : Nat) (f : Fld) (v : Int) : (setS d p f v).almStack = d.almStack := rfl
@[simp] theorem setS_stkPause (d : Dev) (p : Nat) (f : Fld) (v : Int) : (setS d p f v).stkPause = d.stkPause := rfl
@[simp] theorem setS_cores (d : Dev) (p : Nat) (f : Fld) (v : Int) : (setS d p f v).cores = d.cores := rfl
@[simp] theorem setS_inCfg (d : Dev) (p : Nat) (f : Fld) (v : Int) : (setS d p f v).inCfg = d.inCfg := rfl
@[simp] theorem setS_busNext (d : Dev) (p : Nat) (f : Fld) (v : Int) : (setS d p f v).busNext = d.busNext := rfl
@[simp] theorem setS_paceGate (d : Dev) (p : Nat) (f : Fld) (v : Int) : (setS d p f v).paceGate = d.paceGate := rfl
@[simp] theorem setS_hurdles (d : Dev) (p : Nat) (f : Fld) (v : Int) : (setS d p f v).hurdles = d.hurdles := rfl
@[simp] theorem setS_pinAsk (d : Dev) (p : Nat) (f : Fld) (v : Int) : (setS d p f v).pinAsk = d.pinAsk := rfl
@[simp] theorem setS_pins (d : Dev) (p : Nat) (f : Fld) (v : Int) : (setS d p f v).pins = d.pins := rfl
@[simp] theorem setS_cals (d : Dev) (p : Nat) (f : Fld) (v : Int) : (setS d p f v).cals = d.cals := rfl
@[simp] theorem setS_almCal (d : Dev) (p : Nat) (f : Fld) (v : Int) : (setS d p f v).almCal = d.almCal := rfl
@[simp] theorem setS_jobSince (d : Dev) (p : Nat) (f : Fld) (v : Int) : (setS d p f v).jobSince = d.jobSince := rfl
@[simp] theorem setS_svcRec (d : Dev) (p : Nat) (f : Fld) (v : Int) : (setS d p f v).svcRec = d.svcRec := rfl
@[simp] theorem setS_svcSnap (d : Dev) (p : Nat) (f : Fld) (v : Int) : (setS d p f v).svcSnap = d.svcSnap := rfl
@[simp] theorem setS_svcCores (d : Dev) (p : Nat) (f : Fld) (v : Int) : (setS d p f v).svcCores = d.svcCores := rfl
@[simp] theorem setS_svcShots (d : Dev) (p : Nat) (f : Fld) (v : Int) : (setS d p f v).svcShots = d.svcShots := rfl
@[simp] theorem setS_svcCal (d : Dev) (p : Nat) (f : Fld) (v : Int) : (setS d p f v).svcCal = d.svcCal := rfl
@[simp] theorem setS_sfes (d : Dev) (p : Nat) (f : Fld) (v : Int) : (setS d p f v).sfes = d.sfes := rfl
@[simp] theorem setS_loops (d : Dev) (p : Nat) (f : Fld) (v : Int) : (setS d p f v).loops = d.loops := rfl
@[simp] theorem setS_mels (d : Dev) (p : Nat) (f : Fld) (v : Int) : (setS d p f v).mels = d.mels := rfl
@[simp] theorem setS_melHostNext (d : Dev) (p : Nat) (f : Fld) (v : Int) : (setS d p f v).melHostNext = d.melHostNext := rfl
@[simp] theorem setS_chkJobs (d : Dev) (p : Nat) (f : Fld) (v : Int) : (setS d p f v).chkJobs = d.chkJobs := rfl
@[simp] theorem setS_arc (d : Dev) (p : Nat) (f : Fld) (v : Int) : (setS d p f v).arc = d.arc := rfl
@[simp] theorem setS_almBad (d : Dev) (p : Nat) (f : Fld) (v : Int) : (setS d p f v).almBad = d.almBad := rfl
@[simp] theorem setS_paceMel (d : Dev) (p : Nat) (f : Fld) (v : Int) : (setS d p f v).paceMel = d.paceMel := rfl
@[simp] theorem setS_paceDecim (d : Dev) (p : Nat) (f : Fld) (v : Int) : (setS d p f v).paceDecim = d.paceDecim := rfl
@[simp] theorem setS_commitPend (d : Dev) (p : Nat) (f : Fld) (v : Int) : (setS d p f v).commitPend = d.commitPend := rfl
@[simp] theorem setS_paceOv (d : Dev) (p : Nat) (f : Fld) (v : Int) : (setS d p f v).paceOv = d.paceOv := rfl
@[simp] theorem setS_pacer (d : Dev) (p : Nat) (f : Fld) (v : Int) : (setS d p f v).pacer = d.pacer := rfl
@[simp] theorem setS_bkpBase (d : Dev) (p : Nat) (f : Fld) (v : Int) : (setS d p f v).bkpBase = d.bkpBase := rfl
@[simp] theorem setS_vbatLow18 (d : Dev) (p : Nat) (f : Fld) (v : Int) : (setS d p f v).vbatLow18 = d.vbatLow18 := rfl
@[simp] theorem setS_oscStop (d : Dev) (p : Nat) (f : Fld) (v : Int) : (setS d p f v).oscStop = d.oscStop := rfl
@[simp] theorem setS_boot (d : Dev) (p : Nat) (f : Fld) (v : Int) : (setS d p f v).boot = d.boot := rfl
@[simp] theorem setS_bist (d : Dev) (p : Nat) (f : Fld) (v : Int) : (setS d p f v).bist = d.bist := rfl
@[simp] theorem setS_lpus (d : Dev) (p : Nat) (f : Fld) (v : Int) : (setS d p f v).lpus = d.lpus := rfl
@[simp] theorem setS_ids (d : Dev) (p : Nat) (f : Fld) (v : Int) : (setS d p f v).ids = d.ids := rfl

/-! ## raise -/

@[simp] theorem raise_regs (d : Dev) (p b : Nat) : (raise d p b).regs = d.regs := rfl
@[simp] theorem raise_snap (d : Dev) (p b : Nat) : (raise d p b).snap = d.snap := rfl
@[simp] theorem raise_snapTaken (d : Dev) (p b : Nat) : (raise d p b).snapTaken = d.snapTaken := rfl
@[simp] theorem raise_coef (d : Dev) (p b : Nat) : (raise d p b).coef = d.coef := rfl
@[simp] theorem raise_coefOwn (d : Dev) (p b : Nat) : (raise d p b).coefOwn = d.coefOwn := rfl
@[simp] theorem raise_irq (d : Dev) (p b : Nat) : (raise d p b).irq = d.irq := rfl
@[simp] theorem raise_out (d : Dev) (p b : Nat) : (raise d p b).out = d.out := rfl
@[simp] theorem raise_ticks (d : Dev) (p b : Nat) : (raise d p b).ticks = d.ticks := rfl
@[simp] theorem raise_freeN (d : Dev) (p b : Nat) : (raise d p b).freeN = d.freeN := rfl
@[simp] theorem raise_rings (d : Dev) (p b : Nat) : (raise d p b).rings = d.rings := rfl
@[simp] theorem raise_net (d : Dev) (p b : Nat) : (raise d p b).net = d.net := rfl
@[simp] theorem raise_cmd (d : Dev) (p b : Nat) : (raise d p b).cmd = d.cmd := rfl
@[simp] theorem raise_clusters (d : Dev) (p b : Nat) : (raise d p b).clusters = d.clusters := rfl
@[simp] theorem raise_relays (d : Dev) (p b : Nat) : (raise d p b).relays = d.relays := rfl
@[simp] theorem raise_bridges (d : Dev) (p b : Nat) : (raise d p b).bridges = d.bridges := rfl
@[simp] theorem raise_unitStale (d : Dev) (p b : Nat) : (raise d p b).unitStale = d.unitStale := rfl
@[simp] theorem raise_unitCal (d : Dev) (p b : Nat) : (raise d p b).unitCal = d.unitCal := rfl
@[simp] theorem raise_unitEpoch (d : Dev) (p b : Nat) : (raise d p b).unitEpoch = d.unitEpoch := rfl
@[simp] theorem raise_epochs (d : Dev) (p b : Nat) : (raise d p b).epochs = d.epochs := rfl
@[simp] theorem raise_fenced (d : Dev) (p b : Nat) : (raise d p b).fenced = d.fenced := rfl
@[simp] theorem raise_fenceFree (d : Dev) (p b : Nat) : (raise d p b).fenceFree = d.fenceFree := rfl
@[simp] theorem raise_stk (d : Dev) (p b : Nat) : (raise d p b).stk = d.stk := rfl
@[simp] theorem raise_stkEpoch (d : Dev) (p b : Nat) : (raise d p b).stkEpoch = d.stkEpoch := rfl
@[simp] theorem raise_baton (d : Dev) (p b : Nat) : (raise d p b).baton = d.baton := rfl
@[simp] theorem raise_time (d : Dev) (p b : Nat) : (raise d p b).time = d.time := rfl
@[simp] theorem raise_ptp (d : Dev) (p b : Nat) : (raise d p b).ptp = d.ptp := rfl
@[simp] theorem raise_pfs (d : Dev) (p b : Nat) : (raise d p b).pfs = d.pfs := rfl
@[simp] theorem raise_ledger (d : Dev) (p b : Nat) : (raise d p b).ledger = d.ledger := rfl
@[simp] theorem raise_almH (d : Dev) (p b : Nat) : (raise d p b).almH = d.almH := rfl
@[simp] theorem raise_almHOk (d : Dev) (p b : Nat) : (raise d p b).almHOk = d.almHOk := rfl
@[simp] theorem raise_ledgerOut (d : Dev) (p b : Nat) : (raise d p b).ledgerOut = d.ledgerOut := rfl
@[simp] theorem raise_pools (d : Dev) (p b : Nat) : (raise d p b).pools = d.pools := rfl
@[simp] theorem raise_dmc (d : Dev) (p b : Nat) : (raise d p b).dmc = d.dmc := rfl
@[simp] theorem raise_rankMiB (d : Dev) (p b : Nat) : (raise d p b).rankMiB = d.rankMiB := rfl
@[simp] theorem raise_dlyLive (d : Dev) (p b : Nat) : (raise d p b).dlyLive = d.dlyLive := rfl
@[simp] theorem raise_almDly (d : Dev) (p b : Nat) : (raise d p b).almDly = d.almDly := rfl
@[simp] theorem raise_mem (d : Dev) (p b : Nat) : (raise d p b).mem = d.mem := rfl
@[simp] theorem raise_roll (d : Dev) (p b : Nat) : (raise d p b).roll = d.roll := rfl
@[simp] theorem raise_jobOwner (d : Dev) (p b : Nat) : (raise d p b).jobOwner = d.jobOwner := rfl
@[simp] theorem raise_rx (d : Dev) (p b : Nat) : (raise d p b).rx = d.rx := rfl
@[simp] theorem raise_conds (d : Dev) (p b : Nat) : (raise d p b).conds = d.conds := rfl
@[simp] theorem raise_pipes (d : Dev) (p b : Nat) : (raise d p b).pipes = d.pipes := rfl
@[simp] theorem raise_toFrame (d : Dev) (p b : Nat) : (raise d p b).toFrame = d.toFrame := rfl
@[simp] theorem raise_calPend (d : Dev) (p b : Nat) : (raise d p b).calPend = d.calPend := rfl
@[simp] theorem raise_eligFrom (d : Dev) (p b : Nat) : (raise d p b).eligFrom = d.eligFrom := rfl
@[simp] theorem raise_lines (d : Dev) (p b : Nat) : (raise d p b).lines = d.lines := rfl
@[simp] theorem raise_committed (d : Dev) (p b : Nat) : (raise d p b).committed = d.committed := rfl
@[simp] theorem raise_starters (d : Dev) (p b : Nat) : (raise d p b).starters = d.starters := rfl
@[simp] theorem raise_sfeAt (d : Dev) (p b : Nat) : (raise d p b).sfeAt = d.sfeAt := rfl
@[simp] theorem raise_gatesHeld (d : Dev) (p b : Nat) : (raise d p b).gatesHeld = d.gatesHeld := rfl
@[simp] theorem raise_gauges (d : Dev) (p b : Nat) : (raise d p b).gauges = d.gauges := rfl
@[simp] theorem raise_frames (d : Dev) (p b : Nat) : (raise d p b).frames = d.frames := rfl
@[simp] theorem raise_ramans (d : Dev) (p b : Nat) : (raise d p b).ramans = d.ramans := rfl
@[simp] theorem raise_almStack (d : Dev) (p b : Nat) : (raise d p b).almStack = d.almStack := rfl
@[simp] theorem raise_stkPause (d : Dev) (p b : Nat) : (raise d p b).stkPause = d.stkPause := rfl
@[simp] theorem raise_cores (d : Dev) (p b : Nat) : (raise d p b).cores = d.cores := rfl
@[simp] theorem raise_inCfg (d : Dev) (p b : Nat) : (raise d p b).inCfg = d.inCfg := rfl
@[simp] theorem raise_busNext (d : Dev) (p b : Nat) : (raise d p b).busNext = d.busNext := rfl
@[simp] theorem raise_paceGate (d : Dev) (p b : Nat) : (raise d p b).paceGate = d.paceGate := rfl
@[simp] theorem raise_hurdles (d : Dev) (p b : Nat) : (raise d p b).hurdles = d.hurdles := rfl
@[simp] theorem raise_pinAsk (d : Dev) (p b : Nat) : (raise d p b).pinAsk = d.pinAsk := rfl
@[simp] theorem raise_pins (d : Dev) (p b : Nat) : (raise d p b).pins = d.pins := rfl
@[simp] theorem raise_cals (d : Dev) (p b : Nat) : (raise d p b).cals = d.cals := rfl
@[simp] theorem raise_almCal (d : Dev) (p b : Nat) : (raise d p b).almCal = d.almCal := rfl
@[simp] theorem raise_jobSince (d : Dev) (p b : Nat) : (raise d p b).jobSince = d.jobSince := rfl
@[simp] theorem raise_svcRec (d : Dev) (p b : Nat) : (raise d p b).svcRec = d.svcRec := rfl
@[simp] theorem raise_svcSnap (d : Dev) (p b : Nat) : (raise d p b).svcSnap = d.svcSnap := rfl
@[simp] theorem raise_svcCores (d : Dev) (p b : Nat) : (raise d p b).svcCores = d.svcCores := rfl
@[simp] theorem raise_svcShots (d : Dev) (p b : Nat) : (raise d p b).svcShots = d.svcShots := rfl
@[simp] theorem raise_svcCal (d : Dev) (p b : Nat) : (raise d p b).svcCal = d.svcCal := rfl
@[simp] theorem raise_sfes (d : Dev) (p b : Nat) : (raise d p b).sfes = d.sfes := rfl
@[simp] theorem raise_loops (d : Dev) (p b : Nat) : (raise d p b).loops = d.loops := rfl
@[simp] theorem raise_mels (d : Dev) (p b : Nat) : (raise d p b).mels = d.mels := rfl
@[simp] theorem raise_melHostNext (d : Dev) (p b : Nat) : (raise d p b).melHostNext = d.melHostNext := rfl
@[simp] theorem raise_chkJobs (d : Dev) (p b : Nat) : (raise d p b).chkJobs = d.chkJobs := rfl
@[simp] theorem raise_arc (d : Dev) (p b : Nat) : (raise d p b).arc = d.arc := rfl
@[simp] theorem raise_almBad (d : Dev) (p b : Nat) : (raise d p b).almBad = d.almBad := rfl
@[simp] theorem raise_paceMel (d : Dev) (p b : Nat) : (raise d p b).paceMel = d.paceMel := rfl
@[simp] theorem raise_paceDecim (d : Dev) (p b : Nat) : (raise d p b).paceDecim = d.paceDecim := rfl
@[simp] theorem raise_commitPend (d : Dev) (p b : Nat) : (raise d p b).commitPend = d.commitPend := rfl
@[simp] theorem raise_paceOv (d : Dev) (p b : Nat) : (raise d p b).paceOv = d.paceOv := rfl
@[simp] theorem raise_pacer (d : Dev) (p b : Nat) : (raise d p b).pacer = d.pacer := rfl
@[simp] theorem raise_bkpBase (d : Dev) (p b : Nat) : (raise d p b).bkpBase = d.bkpBase := rfl
@[simp] theorem raise_vbatLow18 (d : Dev) (p b : Nat) : (raise d p b).vbatLow18 = d.vbatLow18 := rfl
@[simp] theorem raise_oscStop (d : Dev) (p b : Nat) : (raise d p b).oscStop = d.oscStop := rfl
@[simp] theorem raise_boot (d : Dev) (p b : Nat) : (raise d p b).boot = d.boot := rfl
@[simp] theorem raise_bist (d : Dev) (p b : Nat) : (raise d p b).bist = d.bist := rfl
@[simp] theorem raise_lpus (d : Dev) (p b : Nat) : (raise d p b).lpus = d.lpus := rfl
@[simp] theorem raise_ids (d : Dev) (p b : Nat) : (raise d p b).ids = d.ids := rfl

/-! ## advance -/

@[simp] theorem advance_regs (d : Dev) (t : Nat) : (advance d t).regs = d.regs := rfl
@[simp] theorem advance_evt (d : Dev) (t : Nat) : (advance d t).evt = d.evt := rfl
@[simp] theorem advance_snap (d : Dev) (t : Nat) : (advance d t).snap = d.snap := rfl
@[simp] theorem advance_snapTaken (d : Dev) (t : Nat) : (advance d t).snapTaken = d.snapTaken := rfl
@[simp] theorem advance_coef (d : Dev) (t : Nat) : (advance d t).coef = d.coef := rfl
@[simp] theorem advance_coefOwn (d : Dev) (t : Nat) : (advance d t).coefOwn = d.coefOwn := rfl
@[simp] theorem advance_irq (d : Dev) (t : Nat) : (advance d t).irq = d.irq := rfl
@[simp] theorem advance_out (d : Dev) (t : Nat) : (advance d t).out = d.out := rfl
@[simp] theorem advance_freeN (d : Dev) (t : Nat) : (advance d t).freeN = d.freeN := rfl
@[simp] theorem advance_rings (d : Dev) (t : Nat) : (advance d t).rings = d.rings := rfl
@[simp] theorem advance_net (d : Dev) (t : Nat) : (advance d t).net = d.net := rfl
@[simp] theorem advance_cmd (d : Dev) (t : Nat) : (advance d t).cmd = d.cmd := rfl
@[simp] theorem advance_clusters (d : Dev) (t : Nat) : (advance d t).clusters = d.clusters := rfl
@[simp] theorem advance_relays (d : Dev) (t : Nat) : (advance d t).relays = d.relays := rfl
@[simp] theorem advance_bridges (d : Dev) (t : Nat) : (advance d t).bridges = d.bridges := rfl
@[simp] theorem advance_unitStale (d : Dev) (t : Nat) : (advance d t).unitStale = d.unitStale := rfl
@[simp] theorem advance_unitCal (d : Dev) (t : Nat) : (advance d t).unitCal = d.unitCal := rfl
@[simp] theorem advance_unitEpoch (d : Dev) (t : Nat) : (advance d t).unitEpoch = d.unitEpoch := rfl
@[simp] theorem advance_epochs (d : Dev) (t : Nat) : (advance d t).epochs = d.epochs := rfl
@[simp] theorem advance_fenced (d : Dev) (t : Nat) : (advance d t).fenced = d.fenced := rfl
@[simp] theorem advance_fenceFree (d : Dev) (t : Nat) : (advance d t).fenceFree = d.fenceFree := rfl
@[simp] theorem advance_stk (d : Dev) (t : Nat) : (advance d t).stk = d.stk := rfl
@[simp] theorem advance_stkEpoch (d : Dev) (t : Nat) : (advance d t).stkEpoch = d.stkEpoch := rfl
@[simp] theorem advance_baton (d : Dev) (t : Nat) : (advance d t).baton = d.baton := rfl
@[simp] theorem advance_time (d : Dev) (t : Nat) : (advance d t).time = d.time := rfl
@[simp] theorem advance_ptp (d : Dev) (t : Nat) : (advance d t).ptp = d.ptp := rfl
@[simp] theorem advance_pfs (d : Dev) (t : Nat) : (advance d t).pfs = d.pfs := rfl
@[simp] theorem advance_ledger (d : Dev) (t : Nat) : (advance d t).ledger = d.ledger := rfl
@[simp] theorem advance_almH (d : Dev) (t : Nat) : (advance d t).almH = d.almH := rfl
@[simp] theorem advance_almHOk (d : Dev) (t : Nat) : (advance d t).almHOk = d.almHOk := rfl
@[simp] theorem advance_ledgerOut (d : Dev) (t : Nat) : (advance d t).ledgerOut = d.ledgerOut := rfl
@[simp] theorem advance_pools (d : Dev) (t : Nat) : (advance d t).pools = d.pools := rfl
@[simp] theorem advance_dmc (d : Dev) (t : Nat) : (advance d t).dmc = d.dmc := rfl
@[simp] theorem advance_rankMiB (d : Dev) (t : Nat) : (advance d t).rankMiB = d.rankMiB := rfl
@[simp] theorem advance_dlyLive (d : Dev) (t : Nat) : (advance d t).dlyLive = d.dlyLive := rfl
@[simp] theorem advance_almDly (d : Dev) (t : Nat) : (advance d t).almDly = d.almDly := rfl
@[simp] theorem advance_mem (d : Dev) (t : Nat) : (advance d t).mem = d.mem := rfl
@[simp] theorem advance_roll (d : Dev) (t : Nat) : (advance d t).roll = d.roll := rfl
@[simp] theorem advance_jobOwner (d : Dev) (t : Nat) : (advance d t).jobOwner = d.jobOwner := rfl
@[simp] theorem advance_rx (d : Dev) (t : Nat) : (advance d t).rx = d.rx := rfl
@[simp] theorem advance_conds (d : Dev) (t : Nat) : (advance d t).conds = d.conds := rfl
@[simp] theorem advance_pipes (d : Dev) (t : Nat) : (advance d t).pipes = d.pipes := rfl
@[simp] theorem advance_toFrame (d : Dev) (t : Nat) : (advance d t).toFrame = d.toFrame := rfl
@[simp] theorem advance_calPend (d : Dev) (t : Nat) : (advance d t).calPend = d.calPend := rfl
@[simp] theorem advance_eligFrom (d : Dev) (t : Nat) : (advance d t).eligFrom = d.eligFrom := rfl
@[simp] theorem advance_lines (d : Dev) (t : Nat) : (advance d t).lines = d.lines := rfl
@[simp] theorem advance_committed (d : Dev) (t : Nat) : (advance d t).committed = d.committed := rfl
@[simp] theorem advance_starters (d : Dev) (t : Nat) : (advance d t).starters = d.starters := rfl
@[simp] theorem advance_sfeAt (d : Dev) (t : Nat) : (advance d t).sfeAt = d.sfeAt := rfl
@[simp] theorem advance_gatesHeld (d : Dev) (t : Nat) : (advance d t).gatesHeld = d.gatesHeld := rfl
@[simp] theorem advance_gauges (d : Dev) (t : Nat) : (advance d t).gauges = d.gauges := rfl
@[simp] theorem advance_frames (d : Dev) (t : Nat) : (advance d t).frames = d.frames := rfl
@[simp] theorem advance_ramans (d : Dev) (t : Nat) : (advance d t).ramans = d.ramans := rfl
@[simp] theorem advance_almStack (d : Dev) (t : Nat) : (advance d t).almStack = d.almStack := rfl
@[simp] theorem advance_stkPause (d : Dev) (t : Nat) : (advance d t).stkPause = d.stkPause := rfl
@[simp] theorem advance_cores (d : Dev) (t : Nat) : (advance d t).cores = d.cores := rfl
@[simp] theorem advance_inCfg (d : Dev) (t : Nat) : (advance d t).inCfg = d.inCfg := rfl
@[simp] theorem advance_busNext (d : Dev) (t : Nat) : (advance d t).busNext = d.busNext := rfl
@[simp] theorem advance_paceGate (d : Dev) (t : Nat) : (advance d t).paceGate = d.paceGate := rfl
@[simp] theorem advance_hurdles (d : Dev) (t : Nat) : (advance d t).hurdles = d.hurdles := rfl
@[simp] theorem advance_pinAsk (d : Dev) (t : Nat) : (advance d t).pinAsk = d.pinAsk := rfl
@[simp] theorem advance_pins (d : Dev) (t : Nat) : (advance d t).pins = d.pins := rfl
@[simp] theorem advance_cals (d : Dev) (t : Nat) : (advance d t).cals = d.cals := rfl
@[simp] theorem advance_almCal (d : Dev) (t : Nat) : (advance d t).almCal = d.almCal := rfl
@[simp] theorem advance_jobSince (d : Dev) (t : Nat) : (advance d t).jobSince = d.jobSince := rfl
@[simp] theorem advance_svcRec (d : Dev) (t : Nat) : (advance d t).svcRec = d.svcRec := rfl
@[simp] theorem advance_svcSnap (d : Dev) (t : Nat) : (advance d t).svcSnap = d.svcSnap := rfl
@[simp] theorem advance_svcCores (d : Dev) (t : Nat) : (advance d t).svcCores = d.svcCores := rfl
@[simp] theorem advance_svcShots (d : Dev) (t : Nat) : (advance d t).svcShots = d.svcShots := rfl
@[simp] theorem advance_svcCal (d : Dev) (t : Nat) : (advance d t).svcCal = d.svcCal := rfl
@[simp] theorem advance_sfes (d : Dev) (t : Nat) : (advance d t).sfes = d.sfes := rfl
@[simp] theorem advance_loops (d : Dev) (t : Nat) : (advance d t).loops = d.loops := rfl
@[simp] theorem advance_mels (d : Dev) (t : Nat) : (advance d t).mels = d.mels := rfl
@[simp] theorem advance_melHostNext (d : Dev) (t : Nat) : (advance d t).melHostNext = d.melHostNext := rfl
@[simp] theorem advance_chkJobs (d : Dev) (t : Nat) : (advance d t).chkJobs = d.chkJobs := rfl
@[simp] theorem advance_arc (d : Dev) (t : Nat) : (advance d t).arc = d.arc := rfl
@[simp] theorem advance_almBad (d : Dev) (t : Nat) : (advance d t).almBad = d.almBad := rfl
@[simp] theorem advance_paceMel (d : Dev) (t : Nat) : (advance d t).paceMel = d.paceMel := rfl
@[simp] theorem advance_paceDecim (d : Dev) (t : Nat) : (advance d t).paceDecim = d.paceDecim := rfl
@[simp] theorem advance_commitPend (d : Dev) (t : Nat) : (advance d t).commitPend = d.commitPend := rfl
@[simp] theorem advance_paceOv (d : Dev) (t : Nat) : (advance d t).paceOv = d.paceOv := rfl
@[simp] theorem advance_pacer (d : Dev) (t : Nat) : (advance d t).pacer = d.pacer := rfl
@[simp] theorem advance_bkpBase (d : Dev) (t : Nat) : (advance d t).bkpBase = d.bkpBase := rfl
@[simp] theorem advance_vbatLow18 (d : Dev) (t : Nat) : (advance d t).vbatLow18 = d.vbatLow18 := rfl
@[simp] theorem advance_oscStop (d : Dev) (t : Nat) : (advance d t).oscStop = d.oscStop := rfl
@[simp] theorem advance_boot (d : Dev) (t : Nat) : (advance d t).boot = d.boot := rfl
@[simp] theorem advance_bist (d : Dev) (t : Nat) : (advance d t).bist = d.bist := rfl
@[simp] theorem advance_lpus (d : Dev) (t : Nat) : (advance d t).lpus = d.lpus := rfl
@[simp] theorem advance_ids (d : Dev) (t : Nat) : (advance d t).ids = d.ids := rfl

/-! ## emit -/

@[simp] theorem emit_regs (d : Dev) (o : Output) : (emit d o).regs = d.regs := rfl
@[simp] theorem emit_evt (d : Dev) (o : Output) : (emit d o).evt = d.evt := rfl
@[simp] theorem emit_snap (d : Dev) (o : Output) : (emit d o).snap = d.snap := rfl
@[simp] theorem emit_snapTaken (d : Dev) (o : Output) : (emit d o).snapTaken = d.snapTaken := rfl
@[simp] theorem emit_coef (d : Dev) (o : Output) : (emit d o).coef = d.coef := rfl
@[simp] theorem emit_coefOwn (d : Dev) (o : Output) : (emit d o).coefOwn = d.coefOwn := rfl
@[simp] theorem emit_irq (d : Dev) (o : Output) : (emit d o).irq = d.irq := rfl
@[simp] theorem emit_ticks (d : Dev) (o : Output) : (emit d o).ticks = d.ticks := rfl
@[simp] theorem emit_freeN (d : Dev) (o : Output) : (emit d o).freeN = d.freeN := rfl
@[simp] theorem emit_rings (d : Dev) (o : Output) : (emit d o).rings = d.rings := rfl
@[simp] theorem emit_net (d : Dev) (o : Output) : (emit d o).net = d.net := rfl
@[simp] theorem emit_cmd (d : Dev) (o : Output) : (emit d o).cmd = d.cmd := rfl
@[simp] theorem emit_clusters (d : Dev) (o : Output) : (emit d o).clusters = d.clusters := rfl
@[simp] theorem emit_relays (d : Dev) (o : Output) : (emit d o).relays = d.relays := rfl
@[simp] theorem emit_bridges (d : Dev) (o : Output) : (emit d o).bridges = d.bridges := rfl
@[simp] theorem emit_unitStale (d : Dev) (o : Output) : (emit d o).unitStale = d.unitStale := rfl
@[simp] theorem emit_unitCal (d : Dev) (o : Output) : (emit d o).unitCal = d.unitCal := rfl
@[simp] theorem emit_unitEpoch (d : Dev) (o : Output) : (emit d o).unitEpoch = d.unitEpoch := rfl
@[simp] theorem emit_epochs (d : Dev) (o : Output) : (emit d o).epochs = d.epochs := rfl
@[simp] theorem emit_fenced (d : Dev) (o : Output) : (emit d o).fenced = d.fenced := rfl
@[simp] theorem emit_fenceFree (d : Dev) (o : Output) : (emit d o).fenceFree = d.fenceFree := rfl
@[simp] theorem emit_stk (d : Dev) (o : Output) : (emit d o).stk = d.stk := rfl
@[simp] theorem emit_stkEpoch (d : Dev) (o : Output) : (emit d o).stkEpoch = d.stkEpoch := rfl
@[simp] theorem emit_baton (d : Dev) (o : Output) : (emit d o).baton = d.baton := rfl
@[simp] theorem emit_time (d : Dev) (o : Output) : (emit d o).time = d.time := rfl
@[simp] theorem emit_ptp (d : Dev) (o : Output) : (emit d o).ptp = d.ptp := rfl
@[simp] theorem emit_pfs (d : Dev) (o : Output) : (emit d o).pfs = d.pfs := rfl
@[simp] theorem emit_ledger (d : Dev) (o : Output) : (emit d o).ledger = d.ledger := rfl
@[simp] theorem emit_almH (d : Dev) (o : Output) : (emit d o).almH = d.almH := rfl
@[simp] theorem emit_almHOk (d : Dev) (o : Output) : (emit d o).almHOk = d.almHOk := rfl
@[simp] theorem emit_ledgerOut (d : Dev) (o : Output) : (emit d o).ledgerOut = d.ledgerOut := rfl
@[simp] theorem emit_pools (d : Dev) (o : Output) : (emit d o).pools = d.pools := rfl
@[simp] theorem emit_dmc (d : Dev) (o : Output) : (emit d o).dmc = d.dmc := rfl
@[simp] theorem emit_rankMiB (d : Dev) (o : Output) : (emit d o).rankMiB = d.rankMiB := rfl
@[simp] theorem emit_dlyLive (d : Dev) (o : Output) : (emit d o).dlyLive = d.dlyLive := rfl
@[simp] theorem emit_almDly (d : Dev) (o : Output) : (emit d o).almDly = d.almDly := rfl
@[simp] theorem emit_mem (d : Dev) (o : Output) : (emit d o).mem = d.mem := rfl
@[simp] theorem emit_roll (d : Dev) (o : Output) : (emit d o).roll = d.roll := rfl
@[simp] theorem emit_jobOwner (d : Dev) (o : Output) : (emit d o).jobOwner = d.jobOwner := rfl
@[simp] theorem emit_rx (d : Dev) (o : Output) : (emit d o).rx = d.rx := rfl
@[simp] theorem emit_conds (d : Dev) (o : Output) : (emit d o).conds = d.conds := rfl
@[simp] theorem emit_pipes (d : Dev) (o : Output) : (emit d o).pipes = d.pipes := rfl
@[simp] theorem emit_toFrame (d : Dev) (o : Output) : (emit d o).toFrame = d.toFrame := rfl
@[simp] theorem emit_calPend (d : Dev) (o : Output) : (emit d o).calPend = d.calPend := rfl
@[simp] theorem emit_eligFrom (d : Dev) (o : Output) : (emit d o).eligFrom = d.eligFrom := rfl
@[simp] theorem emit_lines (d : Dev) (o : Output) : (emit d o).lines = d.lines := rfl
@[simp] theorem emit_committed (d : Dev) (o : Output) : (emit d o).committed = d.committed := rfl
@[simp] theorem emit_starters (d : Dev) (o : Output) : (emit d o).starters = d.starters := rfl
@[simp] theorem emit_sfeAt (d : Dev) (o : Output) : (emit d o).sfeAt = d.sfeAt := rfl
@[simp] theorem emit_gatesHeld (d : Dev) (o : Output) : (emit d o).gatesHeld = d.gatesHeld := rfl
@[simp] theorem emit_gauges (d : Dev) (o : Output) : (emit d o).gauges = d.gauges := rfl
@[simp] theorem emit_frames (d : Dev) (o : Output) : (emit d o).frames = d.frames := rfl
@[simp] theorem emit_ramans (d : Dev) (o : Output) : (emit d o).ramans = d.ramans := rfl
@[simp] theorem emit_almStack (d : Dev) (o : Output) : (emit d o).almStack = d.almStack := rfl
@[simp] theorem emit_stkPause (d : Dev) (o : Output) : (emit d o).stkPause = d.stkPause := rfl
@[simp] theorem emit_cores (d : Dev) (o : Output) : (emit d o).cores = d.cores := rfl
@[simp] theorem emit_inCfg (d : Dev) (o : Output) : (emit d o).inCfg = d.inCfg := rfl
@[simp] theorem emit_busNext (d : Dev) (o : Output) : (emit d o).busNext = d.busNext := rfl
@[simp] theorem emit_paceGate (d : Dev) (o : Output) : (emit d o).paceGate = d.paceGate := rfl
@[simp] theorem emit_hurdles (d : Dev) (o : Output) : (emit d o).hurdles = d.hurdles := rfl
@[simp] theorem emit_pinAsk (d : Dev) (o : Output) : (emit d o).pinAsk = d.pinAsk := rfl
@[simp] theorem emit_pins (d : Dev) (o : Output) : (emit d o).pins = d.pins := rfl
@[simp] theorem emit_cals (d : Dev) (o : Output) : (emit d o).cals = d.cals := rfl
@[simp] theorem emit_almCal (d : Dev) (o : Output) : (emit d o).almCal = d.almCal := rfl
@[simp] theorem emit_jobSince (d : Dev) (o : Output) : (emit d o).jobSince = d.jobSince := rfl
@[simp] theorem emit_svcRec (d : Dev) (o : Output) : (emit d o).svcRec = d.svcRec := rfl
@[simp] theorem emit_svcSnap (d : Dev) (o : Output) : (emit d o).svcSnap = d.svcSnap := rfl
@[simp] theorem emit_svcCores (d : Dev) (o : Output) : (emit d o).svcCores = d.svcCores := rfl
@[simp] theorem emit_svcShots (d : Dev) (o : Output) : (emit d o).svcShots = d.svcShots := rfl
@[simp] theorem emit_svcCal (d : Dev) (o : Output) : (emit d o).svcCal = d.svcCal := rfl
@[simp] theorem emit_sfes (d : Dev) (o : Output) : (emit d o).sfes = d.sfes := rfl
@[simp] theorem emit_loops (d : Dev) (o : Output) : (emit d o).loops = d.loops := rfl
@[simp] theorem emit_mels (d : Dev) (o : Output) : (emit d o).mels = d.mels := rfl
@[simp] theorem emit_melHostNext (d : Dev) (o : Output) : (emit d o).melHostNext = d.melHostNext := rfl
@[simp] theorem emit_chkJobs (d : Dev) (o : Output) : (emit d o).chkJobs = d.chkJobs := rfl
@[simp] theorem emit_arc (d : Dev) (o : Output) : (emit d o).arc = d.arc := rfl
@[simp] theorem emit_almBad (d : Dev) (o : Output) : (emit d o).almBad = d.almBad := rfl
@[simp] theorem emit_paceMel (d : Dev) (o : Output) : (emit d o).paceMel = d.paceMel := rfl
@[simp] theorem emit_paceDecim (d : Dev) (o : Output) : (emit d o).paceDecim = d.paceDecim := rfl
@[simp] theorem emit_commitPend (d : Dev) (o : Output) : (emit d o).commitPend = d.commitPend := rfl
@[simp] theorem emit_paceOv (d : Dev) (o : Output) : (emit d o).paceOv = d.paceOv := rfl
@[simp] theorem emit_pacer (d : Dev) (o : Output) : (emit d o).pacer = d.pacer := rfl
@[simp] theorem emit_bkpBase (d : Dev) (o : Output) : (emit d o).bkpBase = d.bkpBase := rfl
@[simp] theorem emit_vbatLow18 (d : Dev) (o : Output) : (emit d o).vbatLow18 = d.vbatLow18 := rfl
@[simp] theorem emit_oscStop (d : Dev) (o : Output) : (emit d o).oscStop = d.oscStop := rfl
@[simp] theorem emit_boot (d : Dev) (o : Output) : (emit d o).boot = d.boot := rfl
@[simp] theorem emit_bist (d : Dev) (o : Output) : (emit d o).bist = d.bist := rfl
@[simp] theorem emit_lpus (d : Dev) (o : Output) : (emit d o).lpus = d.lpus := rfl
@[simp] theorem emit_ids (d : Dev) (o : Output) : (emit d o).ids = d.ids := rfl

/-! ## ledgerAt -/

@[simp] theorem ledgerAt_regs (d : Dev) (x : Int) (k ln pt : Nat) (l : List Nat) : (ledgerAt d x k ln pt l).regs = d.regs := rfl
@[simp] theorem ledgerAt_evt (d : Dev) (x : Int) (k ln pt : Nat) (l : List Nat) : (ledgerAt d x k ln pt l).evt = d.evt := rfl
@[simp] theorem ledgerAt_snap (d : Dev) (x : Int) (k ln pt : Nat) (l : List Nat) : (ledgerAt d x k ln pt l).snap = d.snap := rfl
@[simp] theorem ledgerAt_snapTaken (d : Dev) (x : Int) (k ln pt : Nat) (l : List Nat) : (ledgerAt d x k ln pt l).snapTaken = d.snapTaken := rfl
@[simp] theorem ledgerAt_coef (d : Dev) (x : Int) (k ln pt : Nat) (l : List Nat) : (ledgerAt d x k ln pt l).coef = d.coef := rfl
@[simp] theorem ledgerAt_coefOwn (d : Dev) (x : Int) (k ln pt : Nat) (l : List Nat) : (ledgerAt d x k ln pt l).coefOwn = d.coefOwn := rfl
@[simp] theorem ledgerAt_irq (d : Dev) (x : Int) (k ln pt : Nat) (l : List Nat) : (ledgerAt d x k ln pt l).irq = d.irq := rfl
@[simp] theorem ledgerAt_out (d : Dev) (x : Int) (k ln pt : Nat) (l : List Nat) : (ledgerAt d x k ln pt l).out = d.out := rfl
@[simp] theorem ledgerAt_ticks (d : Dev) (x : Int) (k ln pt : Nat) (l : List Nat) : (ledgerAt d x k ln pt l).ticks = d.ticks := rfl
@[simp] theorem ledgerAt_freeN (d : Dev) (x : Int) (k ln pt : Nat) (l : List Nat) : (ledgerAt d x k ln pt l).freeN = d.freeN := rfl
@[simp] theorem ledgerAt_rings (d : Dev) (x : Int) (k ln pt : Nat) (l : List Nat) : (ledgerAt d x k ln pt l).rings = d.rings := rfl
@[simp] theorem ledgerAt_net (d : Dev) (x : Int) (k ln pt : Nat) (l : List Nat) : (ledgerAt d x k ln pt l).net = d.net := rfl
@[simp] theorem ledgerAt_cmd (d : Dev) (x : Int) (k ln pt : Nat) (l : List Nat) : (ledgerAt d x k ln pt l).cmd = d.cmd := rfl
@[simp] theorem ledgerAt_clusters (d : Dev) (x : Int) (k ln pt : Nat) (l : List Nat) : (ledgerAt d x k ln pt l).clusters = d.clusters := rfl
@[simp] theorem ledgerAt_relays (d : Dev) (x : Int) (k ln pt : Nat) (l : List Nat) : (ledgerAt d x k ln pt l).relays = d.relays := rfl
@[simp] theorem ledgerAt_bridges (d : Dev) (x : Int) (k ln pt : Nat) (l : List Nat) : (ledgerAt d x k ln pt l).bridges = d.bridges := rfl
@[simp] theorem ledgerAt_unitStale (d : Dev) (x : Int) (k ln pt : Nat) (l : List Nat) : (ledgerAt d x k ln pt l).unitStale = d.unitStale := rfl
@[simp] theorem ledgerAt_unitCal (d : Dev) (x : Int) (k ln pt : Nat) (l : List Nat) : (ledgerAt d x k ln pt l).unitCal = d.unitCal := rfl
@[simp] theorem ledgerAt_unitEpoch (d : Dev) (x : Int) (k ln pt : Nat) (l : List Nat) : (ledgerAt d x k ln pt l).unitEpoch = d.unitEpoch := rfl
@[simp] theorem ledgerAt_epochs (d : Dev) (x : Int) (k ln pt : Nat) (l : List Nat) : (ledgerAt d x k ln pt l).epochs = d.epochs := rfl
@[simp] theorem ledgerAt_fenced (d : Dev) (x : Int) (k ln pt : Nat) (l : List Nat) : (ledgerAt d x k ln pt l).fenced = d.fenced := rfl
@[simp] theorem ledgerAt_fenceFree (d : Dev) (x : Int) (k ln pt : Nat) (l : List Nat) : (ledgerAt d x k ln pt l).fenceFree = d.fenceFree := rfl
@[simp] theorem ledgerAt_stk (d : Dev) (x : Int) (k ln pt : Nat) (l : List Nat) : (ledgerAt d x k ln pt l).stk = d.stk := rfl
@[simp] theorem ledgerAt_stkEpoch (d : Dev) (x : Int) (k ln pt : Nat) (l : List Nat) : (ledgerAt d x k ln pt l).stkEpoch = d.stkEpoch := rfl
@[simp] theorem ledgerAt_baton (d : Dev) (x : Int) (k ln pt : Nat) (l : List Nat) : (ledgerAt d x k ln pt l).baton = d.baton := rfl
@[simp] theorem ledgerAt_time (d : Dev) (x : Int) (k ln pt : Nat) (l : List Nat) : (ledgerAt d x k ln pt l).time = d.time := rfl
@[simp] theorem ledgerAt_ptp (d : Dev) (x : Int) (k ln pt : Nat) (l : List Nat) : (ledgerAt d x k ln pt l).ptp = d.ptp := rfl
@[simp] theorem ledgerAt_pfs (d : Dev) (x : Int) (k ln pt : Nat) (l : List Nat) : (ledgerAt d x k ln pt l).pfs = d.pfs := rfl
@[simp] theorem ledgerAt_ledger (d : Dev) (x : Int) (k ln pt : Nat) (l : List Nat) : (ledgerAt d x k ln pt l).ledger = d.ledger := rfl
@[simp] theorem ledgerAt_almH (d : Dev) (x : Int) (k ln pt : Nat) (l : List Nat) : (ledgerAt d x k ln pt l).almH = d.almH := rfl
@[simp] theorem ledgerAt_almHOk (d : Dev) (x : Int) (k ln pt : Nat) (l : List Nat) : (ledgerAt d x k ln pt l).almHOk = d.almHOk := rfl
@[simp] theorem ledgerAt_pools (d : Dev) (x : Int) (k ln pt : Nat) (l : List Nat) : (ledgerAt d x k ln pt l).pools = d.pools := rfl
@[simp] theorem ledgerAt_dmc (d : Dev) (x : Int) (k ln pt : Nat) (l : List Nat) : (ledgerAt d x k ln pt l).dmc = d.dmc := rfl
@[simp] theorem ledgerAt_rankMiB (d : Dev) (x : Int) (k ln pt : Nat) (l : List Nat) : (ledgerAt d x k ln pt l).rankMiB = d.rankMiB := rfl
@[simp] theorem ledgerAt_dlyLive (d : Dev) (x : Int) (k ln pt : Nat) (l : List Nat) : (ledgerAt d x k ln pt l).dlyLive = d.dlyLive := rfl
@[simp] theorem ledgerAt_almDly (d : Dev) (x : Int) (k ln pt : Nat) (l : List Nat) : (ledgerAt d x k ln pt l).almDly = d.almDly := rfl
@[simp] theorem ledgerAt_mem (d : Dev) (x : Int) (k ln pt : Nat) (l : List Nat) : (ledgerAt d x k ln pt l).mem = d.mem := rfl
@[simp] theorem ledgerAt_roll (d : Dev) (x : Int) (k ln pt : Nat) (l : List Nat) : (ledgerAt d x k ln pt l).roll = d.roll := rfl
@[simp] theorem ledgerAt_jobOwner (d : Dev) (x : Int) (k ln pt : Nat) (l : List Nat) : (ledgerAt d x k ln pt l).jobOwner = d.jobOwner := rfl
@[simp] theorem ledgerAt_rx (d : Dev) (x : Int) (k ln pt : Nat) (l : List Nat) : (ledgerAt d x k ln pt l).rx = d.rx := rfl
@[simp] theorem ledgerAt_conds (d : Dev) (x : Int) (k ln pt : Nat) (l : List Nat) : (ledgerAt d x k ln pt l).conds = d.conds := rfl
@[simp] theorem ledgerAt_pipes (d : Dev) (x : Int) (k ln pt : Nat) (l : List Nat) : (ledgerAt d x k ln pt l).pipes = d.pipes := rfl
@[simp] theorem ledgerAt_toFrame (d : Dev) (x : Int) (k ln pt : Nat) (l : List Nat) : (ledgerAt d x k ln pt l).toFrame = d.toFrame := rfl
@[simp] theorem ledgerAt_calPend (d : Dev) (x : Int) (k ln pt : Nat) (l : List Nat) : (ledgerAt d x k ln pt l).calPend = d.calPend := rfl
@[simp] theorem ledgerAt_eligFrom (d : Dev) (x : Int) (k ln pt : Nat) (l : List Nat) : (ledgerAt d x k ln pt l).eligFrom = d.eligFrom := rfl
@[simp] theorem ledgerAt_lines (d : Dev) (x : Int) (k ln pt : Nat) (l : List Nat) : (ledgerAt d x k ln pt l).lines = d.lines := rfl
@[simp] theorem ledgerAt_committed (d : Dev) (x : Int) (k ln pt : Nat) (l : List Nat) : (ledgerAt d x k ln pt l).committed = d.committed := rfl
@[simp] theorem ledgerAt_starters (d : Dev) (x : Int) (k ln pt : Nat) (l : List Nat) : (ledgerAt d x k ln pt l).starters = d.starters := rfl
@[simp] theorem ledgerAt_sfeAt (d : Dev) (x : Int) (k ln pt : Nat) (l : List Nat) : (ledgerAt d x k ln pt l).sfeAt = d.sfeAt := rfl
@[simp] theorem ledgerAt_gatesHeld (d : Dev) (x : Int) (k ln pt : Nat) (l : List Nat) : (ledgerAt d x k ln pt l).gatesHeld = d.gatesHeld := rfl
@[simp] theorem ledgerAt_gauges (d : Dev) (x : Int) (k ln pt : Nat) (l : List Nat) : (ledgerAt d x k ln pt l).gauges = d.gauges := rfl
@[simp] theorem ledgerAt_frames (d : Dev) (x : Int) (k ln pt : Nat) (l : List Nat) : (ledgerAt d x k ln pt l).frames = d.frames := rfl
@[simp] theorem ledgerAt_ramans (d : Dev) (x : Int) (k ln pt : Nat) (l : List Nat) : (ledgerAt d x k ln pt l).ramans = d.ramans := rfl
@[simp] theorem ledgerAt_almStack (d : Dev) (x : Int) (k ln pt : Nat) (l : List Nat) : (ledgerAt d x k ln pt l).almStack = d.almStack := rfl
@[simp] theorem ledgerAt_stkPause (d : Dev) (x : Int) (k ln pt : Nat) (l : List Nat) : (ledgerAt d x k ln pt l).stkPause = d.stkPause := rfl
@[simp] theorem ledgerAt_cores (d : Dev) (x : Int) (k ln pt : Nat) (l : List Nat) : (ledgerAt d x k ln pt l).cores = d.cores := rfl
@[simp] theorem ledgerAt_inCfg (d : Dev) (x : Int) (k ln pt : Nat) (l : List Nat) : (ledgerAt d x k ln pt l).inCfg = d.inCfg := rfl
@[simp] theorem ledgerAt_busNext (d : Dev) (x : Int) (k ln pt : Nat) (l : List Nat) : (ledgerAt d x k ln pt l).busNext = d.busNext := rfl
@[simp] theorem ledgerAt_paceGate (d : Dev) (x : Int) (k ln pt : Nat) (l : List Nat) : (ledgerAt d x k ln pt l).paceGate = d.paceGate := rfl
@[simp] theorem ledgerAt_hurdles (d : Dev) (x : Int) (k ln pt : Nat) (l : List Nat) : (ledgerAt d x k ln pt l).hurdles = d.hurdles := rfl
@[simp] theorem ledgerAt_pinAsk (d : Dev) (x : Int) (k ln pt : Nat) (l : List Nat) : (ledgerAt d x k ln pt l).pinAsk = d.pinAsk := rfl
@[simp] theorem ledgerAt_pins (d : Dev) (x : Int) (k ln pt : Nat) (l : List Nat) : (ledgerAt d x k ln pt l).pins = d.pins := rfl
@[simp] theorem ledgerAt_cals (d : Dev) (x : Int) (k ln pt : Nat) (l : List Nat) : (ledgerAt d x k ln pt l).cals = d.cals := rfl
@[simp] theorem ledgerAt_almCal (d : Dev) (x : Int) (k ln pt : Nat) (l : List Nat) : (ledgerAt d x k ln pt l).almCal = d.almCal := rfl
@[simp] theorem ledgerAt_jobSince (d : Dev) (x : Int) (k ln pt : Nat) (l : List Nat) : (ledgerAt d x k ln pt l).jobSince = d.jobSince := rfl
@[simp] theorem ledgerAt_svcRec (d : Dev) (x : Int) (k ln pt : Nat) (l : List Nat) : (ledgerAt d x k ln pt l).svcRec = d.svcRec := rfl
@[simp] theorem ledgerAt_svcSnap (d : Dev) (x : Int) (k ln pt : Nat) (l : List Nat) : (ledgerAt d x k ln pt l).svcSnap = d.svcSnap := rfl
@[simp] theorem ledgerAt_svcCores (d : Dev) (x : Int) (k ln pt : Nat) (l : List Nat) : (ledgerAt d x k ln pt l).svcCores = d.svcCores := rfl
@[simp] theorem ledgerAt_svcShots (d : Dev) (x : Int) (k ln pt : Nat) (l : List Nat) : (ledgerAt d x k ln pt l).svcShots = d.svcShots := rfl
@[simp] theorem ledgerAt_svcCal (d : Dev) (x : Int) (k ln pt : Nat) (l : List Nat) : (ledgerAt d x k ln pt l).svcCal = d.svcCal := rfl
@[simp] theorem ledgerAt_sfes (d : Dev) (x : Int) (k ln pt : Nat) (l : List Nat) : (ledgerAt d x k ln pt l).sfes = d.sfes := rfl
@[simp] theorem ledgerAt_loops (d : Dev) (x : Int) (k ln pt : Nat) (l : List Nat) : (ledgerAt d x k ln pt l).loops = d.loops := rfl
@[simp] theorem ledgerAt_mels (d : Dev) (x : Int) (k ln pt : Nat) (l : List Nat) : (ledgerAt d x k ln pt l).mels = d.mels := rfl
@[simp] theorem ledgerAt_melHostNext (d : Dev) (x : Int) (k ln pt : Nat) (l : List Nat) : (ledgerAt d x k ln pt l).melHostNext = d.melHostNext := rfl
@[simp] theorem ledgerAt_chkJobs (d : Dev) (x : Int) (k ln pt : Nat) (l : List Nat) : (ledgerAt d x k ln pt l).chkJobs = d.chkJobs := rfl
@[simp] theorem ledgerAt_arc (d : Dev) (x : Int) (k ln pt : Nat) (l : List Nat) : (ledgerAt d x k ln pt l).arc = d.arc := rfl
@[simp] theorem ledgerAt_almBad (d : Dev) (x : Int) (k ln pt : Nat) (l : List Nat) : (ledgerAt d x k ln pt l).almBad = d.almBad := rfl
@[simp] theorem ledgerAt_paceMel (d : Dev) (x : Int) (k ln pt : Nat) (l : List Nat) : (ledgerAt d x k ln pt l).paceMel = d.paceMel := rfl
@[simp] theorem ledgerAt_paceDecim (d : Dev) (x : Int) (k ln pt : Nat) (l : List Nat) : (ledgerAt d x k ln pt l).paceDecim = d.paceDecim := rfl
@[simp] theorem ledgerAt_commitPend (d : Dev) (x : Int) (k ln pt : Nat) (l : List Nat) : (ledgerAt d x k ln pt l).commitPend = d.commitPend := rfl
@[simp] theorem ledgerAt_paceOv (d : Dev) (x : Int) (k ln pt : Nat) (l : List Nat) : (ledgerAt d x k ln pt l).paceOv = d.paceOv := rfl
@[simp] theorem ledgerAt_pacer (d : Dev) (x : Int) (k ln pt : Nat) (l : List Nat) : (ledgerAt d x k ln pt l).pacer = d.pacer := rfl
@[simp] theorem ledgerAt_bkpBase (d : Dev) (x : Int) (k ln pt : Nat) (l : List Nat) : (ledgerAt d x k ln pt l).bkpBase = d.bkpBase := rfl
@[simp] theorem ledgerAt_vbatLow18 (d : Dev) (x : Int) (k ln pt : Nat) (l : List Nat) : (ledgerAt d x k ln pt l).vbatLow18 = d.vbatLow18 := rfl
@[simp] theorem ledgerAt_oscStop (d : Dev) (x : Int) (k ln pt : Nat) (l : List Nat) : (ledgerAt d x k ln pt l).oscStop = d.oscStop := rfl
@[simp] theorem ledgerAt_boot (d : Dev) (x : Int) (k ln pt : Nat) (l : List Nat) : (ledgerAt d x k ln pt l).boot = d.boot := rfl
@[simp] theorem ledgerAt_bist (d : Dev) (x : Int) (k ln pt : Nat) (l : List Nat) : (ledgerAt d x k ln pt l).bist = d.bist := rfl
@[simp] theorem ledgerAt_lpus (d : Dev) (x : Int) (k ln pt : Nat) (l : List Nat) : (ledgerAt d x k ln pt l).lpus = d.lpus := rfl
@[simp] theorem ledgerAt_ids (d : Dev) (x : Int) (k ln pt : Nat) (l : List Nat) : (ledgerAt d x k ln pt l).ids = d.ids := rfl

/-! ## ledgerNow -/

@[simp] theorem ledgerNow_regs (d : Dev) (k ln pt : Nat) (l : List Nat) : (ledgerNow d k ln pt l).regs = d.regs := rfl
@[simp] theorem ledgerNow_evt (d : Dev) (k ln pt : Nat) (l : List Nat) : (ledgerNow d k ln pt l).evt = d.evt := rfl
@[simp] theorem ledgerNow_snap (d : Dev) (k ln pt : Nat) (l : List Nat) : (ledgerNow d k ln pt l).snap = d.snap := rfl
@[simp] theorem ledgerNow_snapTaken (d : Dev) (k ln pt : Nat) (l : List Nat) : (ledgerNow d k ln pt l).snapTaken = d.snapTaken := rfl
@[simp] theorem ledgerNow_coef (d : Dev) (k ln pt : Nat) (l : List Nat) : (ledgerNow d k ln pt l).coef = d.coef := rfl
@[simp] theorem ledgerNow_coefOwn (d : Dev) (k ln pt : Nat) (l : List Nat) : (ledgerNow d k ln pt l).coefOwn = d.coefOwn := rfl
@[simp] theorem ledgerNow_irq (d : Dev) (k ln pt : Nat) (l : List Nat) : (ledgerNow d k ln pt l).irq = d.irq := rfl
@[simp] theorem ledgerNow_out (d : Dev) (k ln pt : Nat) (l : List Nat) : (ledgerNow d k ln pt l).out = d.out := rfl
@[simp] theorem ledgerNow_ticks (d : Dev) (k ln pt : Nat) (l : List Nat) : (ledgerNow d k ln pt l).ticks = d.ticks := rfl
@[simp] theorem ledgerNow_freeN (d : Dev) (k ln pt : Nat) (l : List Nat) : (ledgerNow d k ln pt l).freeN = d.freeN := rfl
@[simp] theorem ledgerNow_rings (d : Dev) (k ln pt : Nat) (l : List Nat) : (ledgerNow d k ln pt l).rings = d.rings := rfl
@[simp] theorem ledgerNow_net (d : Dev) (k ln pt : Nat) (l : List Nat) : (ledgerNow d k ln pt l).net = d.net := rfl
@[simp] theorem ledgerNow_cmd (d : Dev) (k ln pt : Nat) (l : List Nat) : (ledgerNow d k ln pt l).cmd = d.cmd := rfl
@[simp] theorem ledgerNow_clusters (d : Dev) (k ln pt : Nat) (l : List Nat) : (ledgerNow d k ln pt l).clusters = d.clusters := rfl
@[simp] theorem ledgerNow_relays (d : Dev) (k ln pt : Nat) (l : List Nat) : (ledgerNow d k ln pt l).relays = d.relays := rfl
@[simp] theorem ledgerNow_bridges (d : Dev) (k ln pt : Nat) (l : List Nat) : (ledgerNow d k ln pt l).bridges = d.bridges := rfl
@[simp] theorem ledgerNow_unitStale (d : Dev) (k ln pt : Nat) (l : List Nat) : (ledgerNow d k ln pt l).unitStale = d.unitStale := rfl
@[simp] theorem ledgerNow_unitCal (d : Dev) (k ln pt : Nat) (l : List Nat) : (ledgerNow d k ln pt l).unitCal = d.unitCal := rfl
@[simp] theorem ledgerNow_unitEpoch (d : Dev) (k ln pt : Nat) (l : List Nat) : (ledgerNow d k ln pt l).unitEpoch = d.unitEpoch := rfl
@[simp] theorem ledgerNow_epochs (d : Dev) (k ln pt : Nat) (l : List Nat) : (ledgerNow d k ln pt l).epochs = d.epochs := rfl
@[simp] theorem ledgerNow_fenced (d : Dev) (k ln pt : Nat) (l : List Nat) : (ledgerNow d k ln pt l).fenced = d.fenced := rfl
@[simp] theorem ledgerNow_fenceFree (d : Dev) (k ln pt : Nat) (l : List Nat) : (ledgerNow d k ln pt l).fenceFree = d.fenceFree := rfl
@[simp] theorem ledgerNow_stk (d : Dev) (k ln pt : Nat) (l : List Nat) : (ledgerNow d k ln pt l).stk = d.stk := rfl
@[simp] theorem ledgerNow_stkEpoch (d : Dev) (k ln pt : Nat) (l : List Nat) : (ledgerNow d k ln pt l).stkEpoch = d.stkEpoch := rfl
@[simp] theorem ledgerNow_baton (d : Dev) (k ln pt : Nat) (l : List Nat) : (ledgerNow d k ln pt l).baton = d.baton := rfl
@[simp] theorem ledgerNow_time (d : Dev) (k ln pt : Nat) (l : List Nat) : (ledgerNow d k ln pt l).time = d.time := rfl
@[simp] theorem ledgerNow_ptp (d : Dev) (k ln pt : Nat) (l : List Nat) : (ledgerNow d k ln pt l).ptp = d.ptp := rfl
@[simp] theorem ledgerNow_pfs (d : Dev) (k ln pt : Nat) (l : List Nat) : (ledgerNow d k ln pt l).pfs = d.pfs := rfl
@[simp] theorem ledgerNow_ledger (d : Dev) (k ln pt : Nat) (l : List Nat) : (ledgerNow d k ln pt l).ledger = d.ledger := rfl
@[simp] theorem ledgerNow_almH (d : Dev) (k ln pt : Nat) (l : List Nat) : (ledgerNow d k ln pt l).almH = d.almH := rfl
@[simp] theorem ledgerNow_almHOk (d : Dev) (k ln pt : Nat) (l : List Nat) : (ledgerNow d k ln pt l).almHOk = d.almHOk := rfl
@[simp] theorem ledgerNow_pools (d : Dev) (k ln pt : Nat) (l : List Nat) : (ledgerNow d k ln pt l).pools = d.pools := rfl
@[simp] theorem ledgerNow_dmc (d : Dev) (k ln pt : Nat) (l : List Nat) : (ledgerNow d k ln pt l).dmc = d.dmc := rfl
@[simp] theorem ledgerNow_rankMiB (d : Dev) (k ln pt : Nat) (l : List Nat) : (ledgerNow d k ln pt l).rankMiB = d.rankMiB := rfl
@[simp] theorem ledgerNow_dlyLive (d : Dev) (k ln pt : Nat) (l : List Nat) : (ledgerNow d k ln pt l).dlyLive = d.dlyLive := rfl
@[simp] theorem ledgerNow_almDly (d : Dev) (k ln pt : Nat) (l : List Nat) : (ledgerNow d k ln pt l).almDly = d.almDly := rfl
@[simp] theorem ledgerNow_mem (d : Dev) (k ln pt : Nat) (l : List Nat) : (ledgerNow d k ln pt l).mem = d.mem := rfl
@[simp] theorem ledgerNow_roll (d : Dev) (k ln pt : Nat) (l : List Nat) : (ledgerNow d k ln pt l).roll = d.roll := rfl
@[simp] theorem ledgerNow_jobOwner (d : Dev) (k ln pt : Nat) (l : List Nat) : (ledgerNow d k ln pt l).jobOwner = d.jobOwner := rfl
@[simp] theorem ledgerNow_rx (d : Dev) (k ln pt : Nat) (l : List Nat) : (ledgerNow d k ln pt l).rx = d.rx := rfl
@[simp] theorem ledgerNow_conds (d : Dev) (k ln pt : Nat) (l : List Nat) : (ledgerNow d k ln pt l).conds = d.conds := rfl
@[simp] theorem ledgerNow_pipes (d : Dev) (k ln pt : Nat) (l : List Nat) : (ledgerNow d k ln pt l).pipes = d.pipes := rfl
@[simp] theorem ledgerNow_toFrame (d : Dev) (k ln pt : Nat) (l : List Nat) : (ledgerNow d k ln pt l).toFrame = d.toFrame := rfl
@[simp] theorem ledgerNow_calPend (d : Dev) (k ln pt : Nat) (l : List Nat) : (ledgerNow d k ln pt l).calPend = d.calPend := rfl
@[simp] theorem ledgerNow_eligFrom (d : Dev) (k ln pt : Nat) (l : List Nat) : (ledgerNow d k ln pt l).eligFrom = d.eligFrom := rfl
@[simp] theorem ledgerNow_lines (d : Dev) (k ln pt : Nat) (l : List Nat) : (ledgerNow d k ln pt l).lines = d.lines := rfl
@[simp] theorem ledgerNow_committed (d : Dev) (k ln pt : Nat) (l : List Nat) : (ledgerNow d k ln pt l).committed = d.committed := rfl
@[simp] theorem ledgerNow_starters (d : Dev) (k ln pt : Nat) (l : List Nat) : (ledgerNow d k ln pt l).starters = d.starters := rfl
@[simp] theorem ledgerNow_sfeAt (d : Dev) (k ln pt : Nat) (l : List Nat) : (ledgerNow d k ln pt l).sfeAt = d.sfeAt := rfl
@[simp] theorem ledgerNow_gatesHeld (d : Dev) (k ln pt : Nat) (l : List Nat) : (ledgerNow d k ln pt l).gatesHeld = d.gatesHeld := rfl
@[simp] theorem ledgerNow_gauges (d : Dev) (k ln pt : Nat) (l : List Nat) : (ledgerNow d k ln pt l).gauges = d.gauges := rfl
@[simp] theorem ledgerNow_frames (d : Dev) (k ln pt : Nat) (l : List Nat) : (ledgerNow d k ln pt l).frames = d.frames := rfl
@[simp] theorem ledgerNow_ramans (d : Dev) (k ln pt : Nat) (l : List Nat) : (ledgerNow d k ln pt l).ramans = d.ramans := rfl
@[simp] theorem ledgerNow_almStack (d : Dev) (k ln pt : Nat) (l : List Nat) : (ledgerNow d k ln pt l).almStack = d.almStack := rfl
@[simp] theorem ledgerNow_stkPause (d : Dev) (k ln pt : Nat) (l : List Nat) : (ledgerNow d k ln pt l).stkPause = d.stkPause := rfl
@[simp] theorem ledgerNow_cores (d : Dev) (k ln pt : Nat) (l : List Nat) : (ledgerNow d k ln pt l).cores = d.cores := rfl
@[simp] theorem ledgerNow_inCfg (d : Dev) (k ln pt : Nat) (l : List Nat) : (ledgerNow d k ln pt l).inCfg = d.inCfg := rfl
@[simp] theorem ledgerNow_busNext (d : Dev) (k ln pt : Nat) (l : List Nat) : (ledgerNow d k ln pt l).busNext = d.busNext := rfl
@[simp] theorem ledgerNow_paceGate (d : Dev) (k ln pt : Nat) (l : List Nat) : (ledgerNow d k ln pt l).paceGate = d.paceGate := rfl
@[simp] theorem ledgerNow_hurdles (d : Dev) (k ln pt : Nat) (l : List Nat) : (ledgerNow d k ln pt l).hurdles = d.hurdles := rfl
@[simp] theorem ledgerNow_pinAsk (d : Dev) (k ln pt : Nat) (l : List Nat) : (ledgerNow d k ln pt l).pinAsk = d.pinAsk := rfl
@[simp] theorem ledgerNow_pins (d : Dev) (k ln pt : Nat) (l : List Nat) : (ledgerNow d k ln pt l).pins = d.pins := rfl
@[simp] theorem ledgerNow_cals (d : Dev) (k ln pt : Nat) (l : List Nat) : (ledgerNow d k ln pt l).cals = d.cals := rfl
@[simp] theorem ledgerNow_almCal (d : Dev) (k ln pt : Nat) (l : List Nat) : (ledgerNow d k ln pt l).almCal = d.almCal := rfl
@[simp] theorem ledgerNow_jobSince (d : Dev) (k ln pt : Nat) (l : List Nat) : (ledgerNow d k ln pt l).jobSince = d.jobSince := rfl
@[simp] theorem ledgerNow_svcRec (d : Dev) (k ln pt : Nat) (l : List Nat) : (ledgerNow d k ln pt l).svcRec = d.svcRec := rfl
@[simp] theorem ledgerNow_svcSnap (d : Dev) (k ln pt : Nat) (l : List Nat) : (ledgerNow d k ln pt l).svcSnap = d.svcSnap := rfl
@[simp] theorem ledgerNow_svcCores (d : Dev) (k ln pt : Nat) (l : List Nat) : (ledgerNow d k ln pt l).svcCores = d.svcCores := rfl
@[simp] theorem ledgerNow_svcShots (d : Dev) (k ln pt : Nat) (l : List Nat) : (ledgerNow d k ln pt l).svcShots = d.svcShots := rfl
@[simp] theorem ledgerNow_svcCal (d : Dev) (k ln pt : Nat) (l : List Nat) : (ledgerNow d k ln pt l).svcCal = d.svcCal := rfl
@[simp] theorem ledgerNow_sfes (d : Dev) (k ln pt : Nat) (l : List Nat) : (ledgerNow d k ln pt l).sfes = d.sfes := rfl
@[simp] theorem ledgerNow_loops (d : Dev) (k ln pt : Nat) (l : List Nat) : (ledgerNow d k ln pt l).loops = d.loops := rfl
@[simp] theorem ledgerNow_mels (d : Dev) (k ln pt : Nat) (l : List Nat) : (ledgerNow d k ln pt l).mels = d.mels := rfl
@[simp] theorem ledgerNow_melHostNext (d : Dev) (k ln pt : Nat) (l : List Nat) : (ledgerNow d k ln pt l).melHostNext = d.melHostNext := rfl
@[simp] theorem ledgerNow_chkJobs (d : Dev) (k ln pt : Nat) (l : List Nat) : (ledgerNow d k ln pt l).chkJobs = d.chkJobs := rfl
@[simp] theorem ledgerNow_arc (d : Dev) (k ln pt : Nat) (l : List Nat) : (ledgerNow d k ln pt l).arc = d.arc := rfl
@[simp] theorem ledgerNow_almBad (d : Dev) (k ln pt : Nat) (l : List Nat) : (ledgerNow d k ln pt l).almBad = d.almBad := rfl
@[simp] theorem ledgerNow_paceMel (d : Dev) (k ln pt : Nat) (l : List Nat) : (ledgerNow d k ln pt l).paceMel = d.paceMel := rfl
@[simp] theorem ledgerNow_paceDecim (d : Dev) (k ln pt : Nat) (l : List Nat) : (ledgerNow d k ln pt l).paceDecim = d.paceDecim := rfl
@[simp] theorem ledgerNow_commitPend (d : Dev) (k ln pt : Nat) (l : List Nat) : (ledgerNow d k ln pt l).commitPend = d.commitPend := rfl
@[simp] theorem ledgerNow_paceOv (d : Dev) (k ln pt : Nat) (l : List Nat) : (ledgerNow d k ln pt l).paceOv = d.paceOv := rfl
@[simp] theorem ledgerNow_pacer (d : Dev) (k ln pt : Nat) (l : List Nat) : (ledgerNow d k ln pt l).pacer = d.pacer := rfl
@[simp] theorem ledgerNow_bkpBase (d : Dev) (k ln pt : Nat) (l : List Nat) : (ledgerNow d k ln pt l).bkpBase = d.bkpBase := rfl
@[simp] theorem ledgerNow_vbatLow18 (d : Dev) (k ln pt : Nat) (l : List Nat) : (ledgerNow d k ln pt l).vbatLow18 = d.vbatLow18 := rfl
@[simp] theorem ledgerNow_oscStop (d : Dev) (k ln pt : Nat) (l : List Nat) : (ledgerNow d k ln pt l).oscStop = d.oscStop := rfl
@[simp] theorem ledgerNow_boot (d : Dev) (k ln pt : Nat) (l : List Nat) : (ledgerNow d k ln pt l).boot = d.boot := rfl
@[simp] theorem ledgerNow_bist (d : Dev) (k ln pt : Nat) (l : List Nat) : (ledgerNow d k ln pt l).bist = d.bist := rfl
@[simp] theorem ledgerNow_lpus (d : Dev) (k ln pt : Nat) (l : List Nat) : (ledgerNow d k ln pt l).lpus = d.lpus := rfl
@[simp] theorem ledgerNow_ids (d : Dev) (k ln pt : Nat) (l : List Nat) : (ledgerNow d k ln pt l).ids = d.ids := rfl

/-! ## setCal -/

@[simp] theorem setCal_regs (d : Dev) (p u : Nat) (b : Bool) : (setCal d p u b).regs = d.regs := rfl
@[simp] theorem setCal_evt (d : Dev) (p u : Nat) (b : Bool) : (setCal d p u b).evt = d.evt := rfl
@[simp] theorem setCal_snap (d : Dev) (p u : Nat) (b : Bool) : (setCal d p u b).snap = d.snap := rfl
@[simp] theorem setCal_snapTaken (d : Dev) (p u : Nat) (b : Bool) : (setCal d p u b).snapTaken = d.snapTaken := rfl
@[simp] theorem setCal_coef (d : Dev) (p u : Nat) (b : Bool) : (setCal d p u b).coef = d.coef := rfl
@[simp] theorem setCal_coefOwn (d : Dev) (p u : Nat) (b : Bool) : (setCal d p u b).coefOwn = d.coefOwn := rfl
@[simp] theorem setCal_irq (d : Dev) (p u : Nat) (b : Bool) : (setCal d p u b).irq = d.irq := rfl
@[simp] theorem setCal_out (d : Dev) (p u : Nat) (b : Bool) : (setCal d p u b).out = d.out := rfl
@[simp] theorem setCal_ticks (d : Dev) (p u : Nat) (b : Bool) : (setCal d p u b).ticks = d.ticks := rfl
@[simp] theorem setCal_freeN (d : Dev) (p u : Nat) (b : Bool) : (setCal d p u b).freeN = d.freeN := rfl
@[simp] theorem setCal_rings (d : Dev) (p u : Nat) (b : Bool) : (setCal d p u b).rings = d.rings := rfl
@[simp] theorem setCal_net (d : Dev) (p u : Nat) (b : Bool) : (setCal d p u b).net = d.net := rfl
@[simp] theorem setCal_cmd (d : Dev) (p u : Nat) (b : Bool) : (setCal d p u b).cmd = d.cmd := rfl
@[simp] theorem setCal_clusters (d : Dev) (p u : Nat) (b : Bool) : (setCal d p u b).clusters = d.clusters := rfl
@[simp] theorem setCal_relays (d : Dev) (p u : Nat) (b : Bool) : (setCal d p u b).relays = d.relays := rfl
@[simp] theorem setCal_bridges (d : Dev) (p u : Nat) (b : Bool) : (setCal d p u b).bridges = d.bridges := rfl
@[simp] theorem setCal_unitStale (d : Dev) (p u : Nat) (b : Bool) : (setCal d p u b).unitStale = d.unitStale := rfl
@[simp] theorem setCal_unitEpoch (d : Dev) (p u : Nat) (b : Bool) : (setCal d p u b).unitEpoch = d.unitEpoch := rfl
@[simp] theorem setCal_epochs (d : Dev) (p u : Nat) (b : Bool) : (setCal d p u b).epochs = d.epochs := rfl
@[simp] theorem setCal_fenced (d : Dev) (p u : Nat) (b : Bool) : (setCal d p u b).fenced = d.fenced := rfl
@[simp] theorem setCal_fenceFree (d : Dev) (p u : Nat) (b : Bool) : (setCal d p u b).fenceFree = d.fenceFree := rfl
@[simp] theorem setCal_stk (d : Dev) (p u : Nat) (b : Bool) : (setCal d p u b).stk = d.stk := rfl
@[simp] theorem setCal_stkEpoch (d : Dev) (p u : Nat) (b : Bool) : (setCal d p u b).stkEpoch = d.stkEpoch := rfl
@[simp] theorem setCal_baton (d : Dev) (p u : Nat) (b : Bool) : (setCal d p u b).baton = d.baton := rfl
@[simp] theorem setCal_time (d : Dev) (p u : Nat) (b : Bool) : (setCal d p u b).time = d.time := rfl
@[simp] theorem setCal_ptp (d : Dev) (p u : Nat) (b : Bool) : (setCal d p u b).ptp = d.ptp := rfl
@[simp] theorem setCal_pfs (d : Dev) (p u : Nat) (b : Bool) : (setCal d p u b).pfs = d.pfs := rfl
@[simp] theorem setCal_ledger (d : Dev) (p u : Nat) (b : Bool) : (setCal d p u b).ledger = d.ledger := rfl
@[simp] theorem setCal_almH (d : Dev) (p u : Nat) (b : Bool) : (setCal d p u b).almH = d.almH := rfl
@[simp] theorem setCal_almHOk (d : Dev) (p u : Nat) (b : Bool) : (setCal d p u b).almHOk = d.almHOk := rfl
@[simp] theorem setCal_ledgerOut (d : Dev) (p u : Nat) (b : Bool) : (setCal d p u b).ledgerOut = d.ledgerOut := rfl
@[simp] theorem setCal_pools (d : Dev) (p u : Nat) (b : Bool) : (setCal d p u b).pools = d.pools := rfl
@[simp] theorem setCal_dmc (d : Dev) (p u : Nat) (b : Bool) : (setCal d p u b).dmc = d.dmc := rfl
@[simp] theorem setCal_rankMiB (d : Dev) (p u : Nat) (b : Bool) : (setCal d p u b).rankMiB = d.rankMiB := rfl
@[simp] theorem setCal_dlyLive (d : Dev) (p u : Nat) (b : Bool) : (setCal d p u b).dlyLive = d.dlyLive := rfl
@[simp] theorem setCal_almDly (d : Dev) (p u : Nat) (b : Bool) : (setCal d p u b).almDly = d.almDly := rfl
@[simp] theorem setCal_mem (d : Dev) (p u : Nat) (b : Bool) : (setCal d p u b).mem = d.mem := rfl
@[simp] theorem setCal_roll (d : Dev) (p u : Nat) (b : Bool) : (setCal d p u b).roll = d.roll := rfl
@[simp] theorem setCal_jobOwner (d : Dev) (p u : Nat) (b : Bool) : (setCal d p u b).jobOwner = d.jobOwner := rfl
@[simp] theorem setCal_rx (d : Dev) (p u : Nat) (b : Bool) : (setCal d p u b).rx = d.rx := rfl
@[simp] theorem setCal_conds (d : Dev) (p u : Nat) (b : Bool) : (setCal d p u b).conds = d.conds := rfl
@[simp] theorem setCal_pipes (d : Dev) (p u : Nat) (b : Bool) : (setCal d p u b).pipes = d.pipes := rfl
@[simp] theorem setCal_toFrame (d : Dev) (p u : Nat) (b : Bool) : (setCal d p u b).toFrame = d.toFrame := rfl
@[simp] theorem setCal_calPend (d : Dev) (p u : Nat) (b : Bool) : (setCal d p u b).calPend = d.calPend := rfl
@[simp] theorem setCal_eligFrom (d : Dev) (p u : Nat) (b : Bool) : (setCal d p u b).eligFrom = d.eligFrom := rfl
@[simp] theorem setCal_lines (d : Dev) (p u : Nat) (b : Bool) : (setCal d p u b).lines = d.lines := rfl
@[simp] theorem setCal_committed (d : Dev) (p u : Nat) (b : Bool) : (setCal d p u b).committed = d.committed := rfl
@[simp] theorem setCal_starters (d : Dev) (p u : Nat) (b : Bool) : (setCal d p u b).starters = d.starters := rfl
@[simp] theorem setCal_sfeAt (d : Dev) (p u : Nat) (b : Bool) : (setCal d p u b).sfeAt = d.sfeAt := rfl
@[simp] theorem setCal_gatesHeld (d : Dev) (p u : Nat) (b : Bool) : (setCal d p u b).gatesHeld = d.gatesHeld := rfl
@[simp] theorem setCal_gauges (d : Dev) (p u : Nat) (b : Bool) : (setCal d p u b).gauges = d.gauges := rfl
@[simp] theorem setCal_frames (d : Dev) (p u : Nat) (b : Bool) : (setCal d p u b).frames = d.frames := rfl
@[simp] theorem setCal_ramans (d : Dev) (p u : Nat) (b : Bool) : (setCal d p u b).ramans = d.ramans := rfl
@[simp] theorem setCal_almStack (d : Dev) (p u : Nat) (b : Bool) : (setCal d p u b).almStack = d.almStack := rfl
@[simp] theorem setCal_stkPause (d : Dev) (p u : Nat) (b : Bool) : (setCal d p u b).stkPause = d.stkPause := rfl
@[simp] theorem setCal_cores (d : Dev) (p u : Nat) (b : Bool) : (setCal d p u b).cores = d.cores := rfl
@[simp] theorem setCal_inCfg (d : Dev) (p u : Nat) (b : Bool) : (setCal d p u b).inCfg = d.inCfg := rfl
@[simp] theorem setCal_busNext (d : Dev) (p u : Nat) (b : Bool) : (setCal d p u b).busNext = d.busNext := rfl
@[simp] theorem setCal_paceGate (d : Dev) (p u : Nat) (b : Bool) : (setCal d p u b).paceGate = d.paceGate := rfl
@[simp] theorem setCal_hurdles (d : Dev) (p u : Nat) (b : Bool) : (setCal d p u b).hurdles = d.hurdles := rfl
@[simp] theorem setCal_pinAsk (d : Dev) (p u : Nat) (b : Bool) : (setCal d p u b).pinAsk = d.pinAsk := rfl
@[simp] theorem setCal_pins (d : Dev) (p u : Nat) (b : Bool) : (setCal d p u b).pins = d.pins := rfl
@[simp] theorem setCal_cals (d : Dev) (p u : Nat) (b : Bool) : (setCal d p u b).cals = d.cals := rfl
@[simp] theorem setCal_almCal (d : Dev) (p u : Nat) (b : Bool) : (setCal d p u b).almCal = d.almCal := rfl
@[simp] theorem setCal_jobSince (d : Dev) (p u : Nat) (b : Bool) : (setCal d p u b).jobSince = d.jobSince := rfl
@[simp] theorem setCal_svcRec (d : Dev) (p u : Nat) (b : Bool) : (setCal d p u b).svcRec = d.svcRec := rfl
@[simp] theorem setCal_svcSnap (d : Dev) (p u : Nat) (b : Bool) : (setCal d p u b).svcSnap = d.svcSnap := rfl
@[simp] theorem setCal_svcCores (d : Dev) (p u : Nat) (b : Bool) : (setCal d p u b).svcCores = d.svcCores := rfl
@[simp] theorem setCal_svcShots (d : Dev) (p u : Nat) (b : Bool) : (setCal d p u b).svcShots = d.svcShots := rfl
@[simp] theorem setCal_svcCal (d : Dev) (p u : Nat) (b : Bool) : (setCal d p u b).svcCal = d.svcCal := rfl
@[simp] theorem setCal_sfes (d : Dev) (p u : Nat) (b : Bool) : (setCal d p u b).sfes = d.sfes := rfl
@[simp] theorem setCal_loops (d : Dev) (p u : Nat) (b : Bool) : (setCal d p u b).loops = d.loops := rfl
@[simp] theorem setCal_mels (d : Dev) (p u : Nat) (b : Bool) : (setCal d p u b).mels = d.mels := rfl
@[simp] theorem setCal_melHostNext (d : Dev) (p u : Nat) (b : Bool) : (setCal d p u b).melHostNext = d.melHostNext := rfl
@[simp] theorem setCal_chkJobs (d : Dev) (p u : Nat) (b : Bool) : (setCal d p u b).chkJobs = d.chkJobs := rfl
@[simp] theorem setCal_arc (d : Dev) (p u : Nat) (b : Bool) : (setCal d p u b).arc = d.arc := rfl
@[simp] theorem setCal_almBad (d : Dev) (p u : Nat) (b : Bool) : (setCal d p u b).almBad = d.almBad := rfl
@[simp] theorem setCal_paceMel (d : Dev) (p u : Nat) (b : Bool) : (setCal d p u b).paceMel = d.paceMel := rfl
@[simp] theorem setCal_paceDecim (d : Dev) (p u : Nat) (b : Bool) : (setCal d p u b).paceDecim = d.paceDecim := rfl
@[simp] theorem setCal_commitPend (d : Dev) (p u : Nat) (b : Bool) : (setCal d p u b).commitPend = d.commitPend := rfl
@[simp] theorem setCal_paceOv (d : Dev) (p u : Nat) (b : Bool) : (setCal d p u b).paceOv = d.paceOv := rfl
@[simp] theorem setCal_pacer (d : Dev) (p u : Nat) (b : Bool) : (setCal d p u b).pacer = d.pacer := rfl
@[simp] theorem setCal_bkpBase (d : Dev) (p u : Nat) (b : Bool) : (setCal d p u b).bkpBase = d.bkpBase := rfl
@[simp] theorem setCal_vbatLow18 (d : Dev) (p u : Nat) (b : Bool) : (setCal d p u b).vbatLow18 = d.vbatLow18 := rfl
@[simp] theorem setCal_oscStop (d : Dev) (p u : Nat) (b : Bool) : (setCal d p u b).oscStop = d.oscStop := rfl
@[simp] theorem setCal_boot (d : Dev) (p u : Nat) (b : Bool) : (setCal d p u b).boot = d.boot := rfl
@[simp] theorem setCal_bist (d : Dev) (p u : Nat) (b : Bool) : (setCal d p u b).bist = d.bist := rfl
@[simp] theorem setCal_lpus (d : Dev) (p u : Nat) (b : Bool) : (setCal d p u b).lpus = d.lpus := rfl
@[simp] theorem setCal_ids (d : Dev) (p u : Nat) (b : Bool) : (setCal d p u b).ids = d.ids := rfl

/-! ## setCluster -/

@[simp] theorem setCluster_regs (d : Dev) (n c : Nat) (x : ClusterSt) : (setCluster d n c x).regs = d.regs := rfl
@[simp] theorem setCluster_evt (d : Dev) (n c : Nat) (x : ClusterSt) : (setCluster d n c x).evt = d.evt := rfl
@[simp] theorem setCluster_snap (d : Dev) (n c : Nat) (x : ClusterSt) : (setCluster d n c x).snap = d.snap := rfl
@[simp] theorem setCluster_snapTaken (d : Dev) (n c : Nat) (x : ClusterSt) : (setCluster d n c x).snapTaken = d.snapTaken := rfl
@[simp] theorem setCluster_coef (d : Dev) (n c : Nat) (x : ClusterSt) : (setCluster d n c x).coef = d.coef := rfl
@[simp] theorem setCluster_coefOwn (d : Dev) (n c : Nat) (x : ClusterSt) : (setCluster d n c x).coefOwn = d.coefOwn := rfl
@[simp] theorem setCluster_irq (d : Dev) (n c : Nat) (x : ClusterSt) : (setCluster d n c x).irq = d.irq := rfl
@[simp] theorem setCluster_out (d : Dev) (n c : Nat) (x : ClusterSt) : (setCluster d n c x).out = d.out := rfl
@[simp] theorem setCluster_ticks (d : Dev) (n c : Nat) (x : ClusterSt) : (setCluster d n c x).ticks = d.ticks := rfl
@[simp] theorem setCluster_freeN (d : Dev) (n c : Nat) (x : ClusterSt) : (setCluster d n c x).freeN = d.freeN := rfl
@[simp] theorem setCluster_rings (d : Dev) (n c : Nat) (x : ClusterSt) : (setCluster d n c x).rings = d.rings := rfl
@[simp] theorem setCluster_net (d : Dev) (n c : Nat) (x : ClusterSt) : (setCluster d n c x).net = d.net := rfl
@[simp] theorem setCluster_cmd (d : Dev) (n c : Nat) (x : ClusterSt) : (setCluster d n c x).cmd = d.cmd := rfl
@[simp] theorem setCluster_relays (d : Dev) (n c : Nat) (x : ClusterSt) : (setCluster d n c x).relays = d.relays := rfl
@[simp] theorem setCluster_bridges (d : Dev) (n c : Nat) (x : ClusterSt) : (setCluster d n c x).bridges = d.bridges := rfl
@[simp] theorem setCluster_unitStale (d : Dev) (n c : Nat) (x : ClusterSt) : (setCluster d n c x).unitStale = d.unitStale := rfl
@[simp] theorem setCluster_unitCal (d : Dev) (n c : Nat) (x : ClusterSt) : (setCluster d n c x).unitCal = d.unitCal := rfl
@[simp] theorem setCluster_unitEpoch (d : Dev) (n c : Nat) (x : ClusterSt) : (setCluster d n c x).unitEpoch = d.unitEpoch := rfl
@[simp] theorem setCluster_epochs (d : Dev) (n c : Nat) (x : ClusterSt) : (setCluster d n c x).epochs = d.epochs := rfl
@[simp] theorem setCluster_fenced (d : Dev) (n c : Nat) (x : ClusterSt) : (setCluster d n c x).fenced = d.fenced := rfl
@[simp] theorem setCluster_fenceFree (d : Dev) (n c : Nat) (x : ClusterSt) : (setCluster d n c x).fenceFree = d.fenceFree := rfl
@[simp] theorem setCluster_stk (d : Dev) (n c : Nat) (x : ClusterSt) : (setCluster d n c x).stk = d.stk := rfl
@[simp] theorem setCluster_stkEpoch (d : Dev) (n c : Nat) (x : ClusterSt) : (setCluster d n c x).stkEpoch = d.stkEpoch := rfl
@[simp] theorem setCluster_baton (d : Dev) (n c : Nat) (x : ClusterSt) : (setCluster d n c x).baton = d.baton := rfl
@[simp] theorem setCluster_time (d : Dev) (n c : Nat) (x : ClusterSt) : (setCluster d n c x).time = d.time := rfl
@[simp] theorem setCluster_ptp (d : Dev) (n c : Nat) (x : ClusterSt) : (setCluster d n c x).ptp = d.ptp := rfl
@[simp] theorem setCluster_pfs (d : Dev) (n c : Nat) (x : ClusterSt) : (setCluster d n c x).pfs = d.pfs := rfl
@[simp] theorem setCluster_ledger (d : Dev) (n c : Nat) (x : ClusterSt) : (setCluster d n c x).ledger = d.ledger := rfl
@[simp] theorem setCluster_almH (d : Dev) (n c : Nat) (x : ClusterSt) : (setCluster d n c x).almH = d.almH := rfl
@[simp] theorem setCluster_almHOk (d : Dev) (n c : Nat) (x : ClusterSt) : (setCluster d n c x).almHOk = d.almHOk := rfl
@[simp] theorem setCluster_ledgerOut (d : Dev) (n c : Nat) (x : ClusterSt) : (setCluster d n c x).ledgerOut = d.ledgerOut := rfl
@[simp] theorem setCluster_pools (d : Dev) (n c : Nat) (x : ClusterSt) : (setCluster d n c x).pools = d.pools := rfl
@[simp] theorem setCluster_dmc (d : Dev) (n c : Nat) (x : ClusterSt) : (setCluster d n c x).dmc = d.dmc := rfl
@[simp] theorem setCluster_rankMiB (d : Dev) (n c : Nat) (x : ClusterSt) : (setCluster d n c x).rankMiB = d.rankMiB := rfl
@[simp] theorem setCluster_dlyLive (d : Dev) (n c : Nat) (x : ClusterSt) : (setCluster d n c x).dlyLive = d.dlyLive := rfl
@[simp] theorem setCluster_almDly (d : Dev) (n c : Nat) (x : ClusterSt) : (setCluster d n c x).almDly = d.almDly := rfl
@[simp] theorem setCluster_mem (d : Dev) (n c : Nat) (x : ClusterSt) : (setCluster d n c x).mem = d.mem := rfl
@[simp] theorem setCluster_roll (d : Dev) (n c : Nat) (x : ClusterSt) : (setCluster d n c x).roll = d.roll := rfl
@[simp] theorem setCluster_jobOwner (d : Dev) (n c : Nat) (x : ClusterSt) : (setCluster d n c x).jobOwner = d.jobOwner := rfl
@[simp] theorem setCluster_rx (d : Dev) (n c : Nat) (x : ClusterSt) : (setCluster d n c x).rx = d.rx := rfl
@[simp] theorem setCluster_conds (d : Dev) (n c : Nat) (x : ClusterSt) : (setCluster d n c x).conds = d.conds := rfl
@[simp] theorem setCluster_pipes (d : Dev) (n c : Nat) (x : ClusterSt) : (setCluster d n c x).pipes = d.pipes := rfl
@[simp] theorem setCluster_toFrame (d : Dev) (n c : Nat) (x : ClusterSt) : (setCluster d n c x).toFrame = d.toFrame := rfl
@[simp] theorem setCluster_calPend (d : Dev) (n c : Nat) (x : ClusterSt) : (setCluster d n c x).calPend = d.calPend := rfl
@[simp] theorem setCluster_eligFrom (d : Dev) (n c : Nat) (x : ClusterSt) : (setCluster d n c x).eligFrom = d.eligFrom := rfl
@[simp] theorem setCluster_lines (d : Dev) (n c : Nat) (x : ClusterSt) : (setCluster d n c x).lines = d.lines := rfl
@[simp] theorem setCluster_committed (d : Dev) (n c : Nat) (x : ClusterSt) : (setCluster d n c x).committed = d.committed := rfl
@[simp] theorem setCluster_starters (d : Dev) (n c : Nat) (x : ClusterSt) : (setCluster d n c x).starters = d.starters := rfl
@[simp] theorem setCluster_sfeAt (d : Dev) (n c : Nat) (x : ClusterSt) : (setCluster d n c x).sfeAt = d.sfeAt := rfl
@[simp] theorem setCluster_gatesHeld (d : Dev) (n c : Nat) (x : ClusterSt) : (setCluster d n c x).gatesHeld = d.gatesHeld := rfl
@[simp] theorem setCluster_gauges (d : Dev) (n c : Nat) (x : ClusterSt) : (setCluster d n c x).gauges = d.gauges := rfl
@[simp] theorem setCluster_frames (d : Dev) (n c : Nat) (x : ClusterSt) : (setCluster d n c x).frames = d.frames := rfl
@[simp] theorem setCluster_ramans (d : Dev) (n c : Nat) (x : ClusterSt) : (setCluster d n c x).ramans = d.ramans := rfl
@[simp] theorem setCluster_almStack (d : Dev) (n c : Nat) (x : ClusterSt) : (setCluster d n c x).almStack = d.almStack := rfl
@[simp] theorem setCluster_stkPause (d : Dev) (n c : Nat) (x : ClusterSt) : (setCluster d n c x).stkPause = d.stkPause := rfl
@[simp] theorem setCluster_cores (d : Dev) (n c : Nat) (x : ClusterSt) : (setCluster d n c x).cores = d.cores := rfl
@[simp] theorem setCluster_inCfg (d : Dev) (n c : Nat) (x : ClusterSt) : (setCluster d n c x).inCfg = d.inCfg := rfl
@[simp] theorem setCluster_busNext (d : Dev) (n c : Nat) (x : ClusterSt) : (setCluster d n c x).busNext = d.busNext := rfl
@[simp] theorem setCluster_paceGate (d : Dev) (n c : Nat) (x : ClusterSt) : (setCluster d n c x).paceGate = d.paceGate := rfl
@[simp] theorem setCluster_hurdles (d : Dev) (n c : Nat) (x : ClusterSt) : (setCluster d n c x).hurdles = d.hurdles := rfl
@[simp] theorem setCluster_pinAsk (d : Dev) (n c : Nat) (x : ClusterSt) : (setCluster d n c x).pinAsk = d.pinAsk := rfl
@[simp] theorem setCluster_pins (d : Dev) (n c : Nat) (x : ClusterSt) : (setCluster d n c x).pins = d.pins := rfl
@[simp] theorem setCluster_cals (d : Dev) (n c : Nat) (x : ClusterSt) : (setCluster d n c x).cals = d.cals := rfl
@[simp] theorem setCluster_almCal (d : Dev) (n c : Nat) (x : ClusterSt) : (setCluster d n c x).almCal = d.almCal := rfl
@[simp] theorem setCluster_jobSince (d : Dev) (n c : Nat) (x : ClusterSt) : (setCluster d n c x).jobSince = d.jobSince := rfl
@[simp] theorem setCluster_svcRec (d : Dev) (n c : Nat) (x : ClusterSt) : (setCluster d n c x).svcRec = d.svcRec := rfl
@[simp] theorem setCluster_svcSnap (d : Dev) (n c : Nat) (x : ClusterSt) : (setCluster d n c x).svcSnap = d.svcSnap := rfl
@[simp] theorem setCluster_svcCores (d : Dev) (n c : Nat) (x : ClusterSt) : (setCluster d n c x).svcCores = d.svcCores := rfl
@[simp] theorem setCluster_svcShots (d : Dev) (n c : Nat) (x : ClusterSt) : (setCluster d n c x).svcShots = d.svcShots := rfl
@[simp] theorem setCluster_svcCal (d : Dev) (n c : Nat) (x : ClusterSt) : (setCluster d n c x).svcCal = d.svcCal := rfl
@[simp] theorem setCluster_sfes (d : Dev) (n c : Nat) (x : ClusterSt) : (setCluster d n c x).sfes = d.sfes := rfl
@[simp] theorem setCluster_loops (d : Dev) (n c : Nat) (x : ClusterSt) : (setCluster d n c x).loops = d.loops := rfl
@[simp] theorem setCluster_mels (d : Dev) (n c : Nat) (x : ClusterSt) : (setCluster d n c x).mels = d.mels := rfl
@[simp] theorem setCluster_melHostNext (d : Dev) (n c : Nat) (x : ClusterSt) : (setCluster d n c x).melHostNext = d.melHostNext := rfl
@[simp] theorem setCluster_chkJobs (d : Dev) (n c : Nat) (x : ClusterSt) : (setCluster d n c x).chkJobs = d.chkJobs := rfl
@[simp] theorem setCluster_arc (d : Dev) (n c : Nat) (x : ClusterSt) : (setCluster d n c x).arc = d.arc := rfl
@[simp] theorem setCluster_almBad (d : Dev) (n c : Nat) (x : ClusterSt) : (setCluster d n c x).almBad = d.almBad := rfl
@[simp] theorem setCluster_paceMel (d : Dev) (n c : Nat) (x : ClusterSt) : (setCluster d n c x).paceMel = d.paceMel := rfl
@[simp] theorem setCluster_paceDecim (d : Dev) (n c : Nat) (x : ClusterSt) : (setCluster d n c x).paceDecim = d.paceDecim := rfl
@[simp] theorem setCluster_commitPend (d : Dev) (n c : Nat) (x : ClusterSt) : (setCluster d n c x).commitPend = d.commitPend := rfl
@[simp] theorem setCluster_paceOv (d : Dev) (n c : Nat) (x : ClusterSt) : (setCluster d n c x).paceOv = d.paceOv := rfl
@[simp] theorem setCluster_pacer (d : Dev) (n c : Nat) (x : ClusterSt) : (setCluster d n c x).pacer = d.pacer := rfl
@[simp] theorem setCluster_bkpBase (d : Dev) (n c : Nat) (x : ClusterSt) : (setCluster d n c x).bkpBase = d.bkpBase := rfl
@[simp] theorem setCluster_vbatLow18 (d : Dev) (n c : Nat) (x : ClusterSt) : (setCluster d n c x).vbatLow18 = d.vbatLow18 := rfl
@[simp] theorem setCluster_oscStop (d : Dev) (n c : Nat) (x : ClusterSt) : (setCluster d n c x).oscStop = d.oscStop := rfl
@[simp] theorem setCluster_boot (d : Dev) (n c : Nat) (x : ClusterSt) : (setCluster d n c x).boot = d.boot := rfl
@[simp] theorem setCluster_bist (d : Dev) (n c : Nat) (x : ClusterSt) : (setCluster d n c x).bist = d.bist := rfl
@[simp] theorem setCluster_lpus (d : Dev) (n c : Nat) (x : ClusterSt) : (setCluster d n c x).lpus = d.lpus := rfl
@[simp] theorem setCluster_ids (d : Dev) (n c : Nat) (x : ClusterSt) : (setCluster d n c x).ids = d.ids := rfl

/-! ## store -/

@[simp] theorem store_regs (d : Dev) (a : Nat) (l : List Nat) : (store d a l).regs = d.regs := rfl
@[simp] theorem store_evt (d : Dev) (a : Nat) (l : List Nat) : (store d a l).evt = d.evt := rfl
@[simp] theorem store_snap (d : Dev) (a : Nat) (l : List Nat) : (store d a l).snap = d.snap := rfl
@[simp] theorem store_snapTaken (d : Dev) (a : Nat) (l : List Nat) : (store d a l).snapTaken = d.snapTaken := rfl
@[simp] theorem store_coef (d : Dev) (a : Nat) (l : List Nat) : (store d a l).coef = d.coef := rfl
@[simp] theorem store_coefOwn (d : Dev) (a : Nat) (l : List Nat) : (store d a l).coefOwn = d.coefOwn := rfl
@[simp] theorem store_irq (d : Dev) (a : Nat) (l : List Nat) : (store d a l).irq = d.irq := rfl
@[simp] theorem store_out (d : Dev) (a : Nat) (l : List Nat) : (store d a l).out = d.out := rfl
@[simp] theorem store_ticks (d : Dev) (a : Nat) (l : List Nat) : (store d a l).ticks = d.ticks := rfl
@[simp] theorem store_freeN (d : Dev) (a : Nat) (l : List Nat) : (store d a l).freeN = d.freeN := rfl
@[simp] theorem store_rings (d : Dev) (a : Nat) (l : List Nat) : (store d a l).rings = d.rings := rfl
@[simp] theorem store_net (d : Dev) (a : Nat) (l : List Nat) : (store d a l).net = d.net := rfl
@[simp] theorem store_cmd (d : Dev) (a : Nat) (l : List Nat) : (store d a l).cmd = d.cmd := rfl
@[simp] theorem store_clusters (d : Dev) (a : Nat) (l : List Nat) : (store d a l).clusters = d.clusters := rfl
@[simp] theorem store_relays (d : Dev) (a : Nat) (l : List Nat) : (store d a l).relays = d.relays := rfl
@[simp] theorem store_bridges (d : Dev) (a : Nat) (l : List Nat) : (store d a l).bridges = d.bridges := rfl
@[simp] theorem store_unitStale (d : Dev) (a : Nat) (l : List Nat) : (store d a l).unitStale = d.unitStale := rfl
@[simp] theorem store_unitCal (d : Dev) (a : Nat) (l : List Nat) : (store d a l).unitCal = d.unitCal := rfl
@[simp] theorem store_unitEpoch (d : Dev) (a : Nat) (l : List Nat) : (store d a l).unitEpoch = d.unitEpoch := rfl
@[simp] theorem store_epochs (d : Dev) (a : Nat) (l : List Nat) : (store d a l).epochs = d.epochs := rfl
@[simp] theorem store_fenced (d : Dev) (a : Nat) (l : List Nat) : (store d a l).fenced = d.fenced := rfl
@[simp] theorem store_fenceFree (d : Dev) (a : Nat) (l : List Nat) : (store d a l).fenceFree = d.fenceFree := rfl
@[simp] theorem store_stk (d : Dev) (a : Nat) (l : List Nat) : (store d a l).stk = d.stk := rfl
@[simp] theorem store_stkEpoch (d : Dev) (a : Nat) (l : List Nat) : (store d a l).stkEpoch = d.stkEpoch := rfl
@[simp] theorem store_baton (d : Dev) (a : Nat) (l : List Nat) : (store d a l).baton = d.baton := rfl
@[simp] theorem store_time (d : Dev) (a : Nat) (l : List Nat) : (store d a l).time = d.time := rfl
@[simp] theorem store_ptp (d : Dev) (a : Nat) (l : List Nat) : (store d a l).ptp = d.ptp := rfl
@[simp] theorem store_pfs (d : Dev) (a : Nat) (l : List Nat) : (store d a l).pfs = d.pfs := rfl
@[simp] theorem store_ledger (d : Dev) (a : Nat) (l : List Nat) : (store d a l).ledger = d.ledger := rfl
@[simp] theorem store_almH (d : Dev) (a : Nat) (l : List Nat) : (store d a l).almH = d.almH := rfl
@[simp] theorem store_almHOk (d : Dev) (a : Nat) (l : List Nat) : (store d a l).almHOk = d.almHOk := rfl
@[simp] theorem store_ledgerOut (d : Dev) (a : Nat) (l : List Nat) : (store d a l).ledgerOut = d.ledgerOut := rfl
@[simp] theorem store_pools (d : Dev) (a : Nat) (l : List Nat) : (store d a l).pools = d.pools := rfl
@[simp] theorem store_dmc (d : Dev) (a : Nat) (l : List Nat) : (store d a l).dmc = d.dmc := rfl
@[simp] theorem store_rankMiB (d : Dev) (a : Nat) (l : List Nat) : (store d a l).rankMiB = d.rankMiB := rfl
@[simp] theorem store_dlyLive (d : Dev) (a : Nat) (l : List Nat) : (store d a l).dlyLive = d.dlyLive := rfl
@[simp] theorem store_almDly (d : Dev) (a : Nat) (l : List Nat) : (store d a l).almDly = d.almDly := rfl
@[simp] theorem store_roll (d : Dev) (a : Nat) (l : List Nat) : (store d a l).roll = d.roll := rfl
@[simp] theorem store_jobOwner (d : Dev) (a : Nat) (l : List Nat) : (store d a l).jobOwner = d.jobOwner := rfl
@[simp] theorem store_rx (d : Dev) (a : Nat) (l : List Nat) : (store d a l).rx = d.rx := rfl
@[simp] theorem store_conds (d : Dev) (a : Nat) (l : List Nat) : (store d a l).conds = d.conds := rfl
@[simp] theorem store_pipes (d : Dev) (a : Nat) (l : List Nat) : (store d a l).pipes = d.pipes := rfl
@[simp] theorem store_toFrame (d : Dev) (a : Nat) (l : List Nat) : (store d a l).toFrame = d.toFrame := rfl
@[simp] theorem store_calPend (d : Dev) (a : Nat) (l : List Nat) : (store d a l).calPend = d.calPend := rfl
@[simp] theorem store_eligFrom (d : Dev) (a : Nat) (l : List Nat) : (store d a l).eligFrom = d.eligFrom := rfl
@[simp] theorem store_lines (d : Dev) (a : Nat) (l : List Nat) : (store d a l).lines = d.lines := rfl
@[simp] theorem store_committed (d : Dev) (a : Nat) (l : List Nat) : (store d a l).committed = d.committed := rfl
@[simp] theorem store_starters (d : Dev) (a : Nat) (l : List Nat) : (store d a l).starters = d.starters := rfl
@[simp] theorem store_sfeAt (d : Dev) (a : Nat) (l : List Nat) : (store d a l).sfeAt = d.sfeAt := rfl
@[simp] theorem store_gatesHeld (d : Dev) (a : Nat) (l : List Nat) : (store d a l).gatesHeld = d.gatesHeld := rfl
@[simp] theorem store_gauges (d : Dev) (a : Nat) (l : List Nat) : (store d a l).gauges = d.gauges := rfl
@[simp] theorem store_frames (d : Dev) (a : Nat) (l : List Nat) : (store d a l).frames = d.frames := rfl
@[simp] theorem store_ramans (d : Dev) (a : Nat) (l : List Nat) : (store d a l).ramans = d.ramans := rfl
@[simp] theorem store_almStack (d : Dev) (a : Nat) (l : List Nat) : (store d a l).almStack = d.almStack := rfl
@[simp] theorem store_stkPause (d : Dev) (a : Nat) (l : List Nat) : (store d a l).stkPause = d.stkPause := rfl
@[simp] theorem store_cores (d : Dev) (a : Nat) (l : List Nat) : (store d a l).cores = d.cores := rfl
@[simp] theorem store_inCfg (d : Dev) (a : Nat) (l : List Nat) : (store d a l).inCfg = d.inCfg := rfl
@[simp] theorem store_busNext (d : Dev) (a : Nat) (l : List Nat) : (store d a l).busNext = d.busNext := rfl
@[simp] theorem store_paceGate (d : Dev) (a : Nat) (l : List Nat) : (store d a l).paceGate = d.paceGate := rfl
@[simp] theorem store_hurdles (d : Dev) (a : Nat) (l : List Nat) : (store d a l).hurdles = d.hurdles := rfl
@[simp] theorem store_pinAsk (d : Dev) (a : Nat) (l : List Nat) : (store d a l).pinAsk = d.pinAsk := rfl
@[simp] theorem store_pins (d : Dev) (a : Nat) (l : List Nat) : (store d a l).pins = d.pins := rfl
@[simp] theorem store_cals (d : Dev) (a : Nat) (l : List Nat) : (store d a l).cals = d.cals := rfl
@[simp] theorem store_almCal (d : Dev) (a : Nat) (l : List Nat) : (store d a l).almCal = d.almCal := rfl
@[simp] theorem store_jobSince (d : Dev) (a : Nat) (l : List Nat) : (store d a l).jobSince = d.jobSince := rfl
@[simp] theorem store_svcRec (d : Dev) (a : Nat) (l : List Nat) : (store d a l).svcRec = d.svcRec := rfl
@[simp] theorem store_svcSnap (d : Dev) (a : Nat) (l : List Nat) : (store d a l).svcSnap = d.svcSnap := rfl
@[simp] theorem store_svcCores (d : Dev) (a : Nat) (l : List Nat) : (store d a l).svcCores = d.svcCores := rfl
@[simp] theorem store_svcShots (d : Dev) (a : Nat) (l : List Nat) : (store d a l).svcShots = d.svcShots := rfl
@[simp] theorem store_svcCal (d : Dev) (a : Nat) (l : List Nat) : (store d a l).svcCal = d.svcCal := rfl
@[simp] theorem store_sfes (d : Dev) (a : Nat) (l : List Nat) : (store d a l).sfes = d.sfes := rfl
@[simp] theorem store_loops (d : Dev) (a : Nat) (l : List Nat) : (store d a l).loops = d.loops := rfl
@[simp] theorem store_mels (d : Dev) (a : Nat) (l : List Nat) : (store d a l).mels = d.mels := rfl
@[simp] theorem store_melHostNext (d : Dev) (a : Nat) (l : List Nat) : (store d a l).melHostNext = d.melHostNext := rfl
@[simp] theorem store_chkJobs (d : Dev) (a : Nat) (l : List Nat) : (store d a l).chkJobs = d.chkJobs := rfl
@[simp] theorem store_arc (d : Dev) (a : Nat) (l : List Nat) : (store d a l).arc = d.arc := rfl
@[simp] theorem store_almBad (d : Dev) (a : Nat) (l : List Nat) : (store d a l).almBad = d.almBad := rfl
@[simp] theorem store_paceMel (d : Dev) (a : Nat) (l : List Nat) : (store d a l).paceMel = d.paceMel := rfl
@[simp] theorem store_paceDecim (d : Dev) (a : Nat) (l : List Nat) : (store d a l).paceDecim = d.paceDecim := rfl
@[simp] theorem store_commitPend (d : Dev) (a : Nat) (l : List Nat) : (store d a l).commitPend = d.commitPend := rfl
@[simp] theorem store_paceOv (d : Dev) (a : Nat) (l : List Nat) : (store d a l).paceOv = d.paceOv := rfl
@[simp] theorem store_pacer (d : Dev) (a : Nat) (l : List Nat) : (store d a l).pacer = d.pacer := rfl
@[simp] theorem store_bkpBase (d : Dev) (a : Nat) (l : List Nat) : (store d a l).bkpBase = d.bkpBase := rfl
@[simp] theorem store_vbatLow18 (d : Dev) (a : Nat) (l : List Nat) : (store d a l).vbatLow18 = d.vbatLow18 := rfl
@[simp] theorem store_oscStop (d : Dev) (a : Nat) (l : List Nat) : (store d a l).oscStop = d.oscStop := rfl
@[simp] theorem store_boot (d : Dev) (a : Nat) (l : List Nat) : (store d a l).boot = d.boot := rfl
@[simp] theorem store_bist (d : Dev) (a : Nat) (l : List Nat) : (store d a l).bist = d.bist := rfl
@[simp] theorem store_lpus (d : Dev) (a : Nat) (l : List Nat) : (store d a l).lpus = d.lpus := rfl
@[simp] theorem store_ids (d : Dev) (a : Nat) (l : List Nat) : (store d a l).ids = d.ids := rfl

end Sys2Proof.Machine
end

