-- ==== Sys2Proof/Laws/Store.lean ====
section
/-! SUPPORT. The laws of sparse tables: reading after writing, and that writing keeps the canonical form. -/

namespace Sys2Proof.Machine

namespace Store

variable {α : Type}

theorem find_erase_self (t : Store α) (k : Nat) : find (erase t k) k = none := by
  induction t with
  | nil => rfl
  | cons e r ih =>
    obtain ⟨j, v⟩ := e
    by_cases h : j = k
    · subst h; simpa [erase] using ih
    · have : erase ((j, v) :: r) k = (j, v) :: erase r k := by simp [erase, h]
      rw [this]; simpa [find, h] using ih

theorem find_erase_ne (t : Store α) {k m : Nat} (h : k ≠ m) : find (erase t k) m = find t m := by
  induction t with
  | nil => rfl
  | cons e r ih =>
    obtain ⟨j, v⟩ := e
    by_cases hj : j = k
    · subst hj
      have e1 : erase ((j, v) :: r) j = erase r j := by simp [erase]
      rw [e1, ih]; simp [find, h]
    · have e1 : erase ((j, v) :: r) k = (j, v) :: erase r k := by simp [erase, hj]
      rw [e1]; simp only [find, ih]

theorem find_insert_self (t : Store α) (k : Nat) (v : α) (h : find t k = none) :
    find (insert t k v) k = some v := by
  induction t with
  | nil => simp [insert, find]
  | cons e r ih =>
    obtain ⟨j, w⟩ := e
    have hj : j ≠ k := by intro hj; simp [find, hj] at h
    have hr : find r k = none := by simpa [find, hj] using h
    by_cases hk : k < j
    · simp [insert, hk, find]
    · simp [insert, hk, find, hj, ih hr]

theorem find_insert_ne (t : Store α) {k m : Nat} (v : α) (h : k ≠ m) :
    find (insert t k v) m = find t m := by
  induction t with
  | nil => simp [insert, find, h]
  | cons e r ih =>
    obtain ⟨j, w⟩ := e
    by_cases hk : k < j
    · simp [insert, hk, find, h]
    · simp [insert, hk, find, ih]

variable [DecidableEq α]

/-- Reading what was written. -/
@[simp] theorem get_set_self (t : Store α) (d : α) (k : Nat) (v : α) : get (set t d k v) d k = v := by
  unfold set get
  by_cases h : v = d
  · simp [h, find_erase_self]
  · simp [h, find_insert_self _ _ _ (find_erase_self t k)]

/-- A write leaves every other key alone, whatever its default. -/
theorem get_set_ne (t : Store α) (d d' : α) {k m : Nat} (v : α) (h : k ≠ m) :
    get (set t d k v) d' m = get t d' m := by
  unfold set get
  by_cases hv : v = d
  · simp [hv, find_erase_ne t h]
  · simp [hv, find_insert_ne _ v h, find_erase_ne t h]

omit [DecidableEq α] in
/-- Taking out what was put in. -/
theorem erase_insert (t : Store α) (k : Nat) (v : α) : erase (insert t k v) k = erase t k := by
  induction t with
  | nil => simp [insert, erase]
  | cons e r ih =>
    by_cases hk : k < e.1
    · simp [insert, hk, erase]
    · by_cases he : e.1 = k
      · simp only [insert, hk, if_false]
        simpa [erase, he] using ih
      · simp only [insert, hk, if_false]
        simpa [erase, he] using ih

omit [DecidableEq α] in
/-- Taking out twice is taking out once. -/
theorem erase_erase (t : Store α) (k : Nat) : erase (erase t k) k = erase t k := by
  simp [erase, List.filter_filter]

/-- Of two writes to one key the later stands. -/
@[simp] theorem set_set (t : Store α) (d : α) (k : Nat) (v w : α) : set (set t d k v) d k w = set t d k w := by
  have h : erase (set t d k v) k = erase t k := by
    unfold set
    by_cases hv : v = d
    · simp [hv, erase_erase]
    · simp [hv, erase_insert, erase_erase]
  have e : ∀ u : Store α, set u d k w = if w = d then erase u k else insert (erase u k) k w := fun _ => rfl
  rw [e, e, h]

omit [DecidableEq α] in
/-- Sortedness, read off the head. -/
theorem sorted_cons (e : Nat × α) (r : Store α) :
    sorted (e :: r) = true ↔ (∀ x ∈ r, e.1 < x.1) ∧ sorted r = true := by
  induction r generalizing e with
  | nil => simp [sorted]
  | cons b r ih =>
    have h := ih b
    simp only [sorted, Bool.and_eq_true, decide_eq_true_eq, List.mem_cons, forall_eq_or_imp]
    constructor
    · rintro ⟨h1, h2⟩
      exact ⟨⟨h1, fun x hx => Nat.lt_trans h1 ((h.1 h2).1 x hx)⟩, h2⟩
    · rintro ⟨⟨h1, _⟩, h2⟩
      exact ⟨h1, h2⟩

omit [DecidableEq α] in
theorem sorted_filter (t : Store α) (p : Nat × α → Bool) (h : sorted t = true) : sorted (t.filter p) = true := by
  induction t with
  | nil => rfl
  | cons e r ih =>
    obtain ⟨h1, h2⟩ := (sorted_cons e r).1 h
    by_cases hp : p e = true
    · rw [List.filter_cons_of_pos hp]
      exact (sorted_cons _ _).2 ⟨fun x hx => h1 x ((List.mem_filter.1 hx).1), ih h2⟩
    · rw [List.filter_cons_of_neg hp]; exact ih h2

omit [DecidableEq α] in
theorem mem_insert (t : Store α) (k : Nat) (v : α) (x : Nat × α) (h : x ∈ insert t k v) : x = (k, v) ∨ x ∈ t := by
  induction t with
  | nil => simpa [insert] using h
  | cons e r ih =>
    by_cases hk : k < e.1
    · simp only [insert, hk, if_true, List.mem_cons] at h
      simpa using h
    · simp only [insert, hk, if_false, List.mem_cons] at h
      rcases h with h | h
      · exact Or.inr (by simp [h])
      · rcases ih h with h | h
        · exact Or.inl h
        · exact Or.inr (by simp [h])

omit [DecidableEq α] in
theorem sorted_insert (t : Store α) (k : Nat) (v : α) (h : sorted t = true) (hk : ∀ x ∈ t, x.1 ≠ k) :
    sorted (insert t k v) = true := by
  induction t with
  | nil => rfl
  | cons e r ih =>
    obtain ⟨h1, h2⟩ := (sorted_cons e r).1 h
    by_cases hlt : k < e.1
    · simp only [insert, hlt, if_true]
      refine (sorted_cons _ _).2 ⟨?_, h⟩
      intro x hx
      rcases List.mem_cons.1 hx with hx | hx
      · subst hx; exact hlt
      · exact Nat.lt_trans hlt (h1 x hx)
    · simp only [insert, hlt, if_false]
      have hne : e.1 ≠ k := hk e (by simp)
      refine (sorted_cons _ _).2 ⟨?_, ih h2 (fun x hx => hk x (by simp [hx]))⟩
      intro x hx
      rcases mem_insert r k v x hx with hx | hx
      · subst hx; simp only; omega
      · exact h1 x hx

/-- Writing keeps the keys rising. -/
theorem sorted_set (t : Store α) (d : α) (k : Nat) (v : α) (h : sorted t = true) :
    sorted (set t d k v) = true := by
  have he : sorted (erase t k) = true := sorted_filter _ _ h
  unfold set
  by_cases hv : v = d
  · simp [hv, he]
  · simp only [hv, if_false]
    refine sorted_insert _ _ _ he ?_
    intro x hx
    have := List.mem_filter.1 hx
    simpa using this.2

end Store

end Sys2Proof.Machine
end

