-- ==== Sys2Proof/Laws/Ops.lean ====
section
/-! SUPPORT. What each shared operation does: registers read what was written, events are raised and stay, and the
interrupt tree settles. -/

namespace Sys2Proof.Machine

open Sys2Proof

/-! ## Registers -/

/-- A register reads the low bits of what was written. -/
@[simp] theorem getR_setR_self (d : Dev) (p : Nat) (f : Fld) (v : Nat) :
    getR (setR d p f v) p f = v % 2 ^ f.width := by simp [getR, setR]

/-- A write leaves every other register alone. -/
theorem getR_setR_ne (d : Dev) {p q : Nat} {f g : Fld} (v : Nat) (h : key p f ≠ key q g) :
    getR (setR d p f v) q g = getR d q g := by
  simp only [getR, setR]; exact Store.get_set_ne _ _ _ _ h

/-- The live value reads what was written. -/
@[simp] theorem getL_setL_self (d : Dev) (p : Nat) (f : Fld) (v : Nat) :
    getL (setL d p f v) p f = v % 2 ^ f.width := getR_setR_self d p (liveF f) v

/-- A register's value depends on the register file alone. -/
theorem getR_congr {d e : Dev} (h : d.regs = e.regs) (p : Nat) (f : Fld) : getR d p f = getR e p f := by
  simp [getR, h]

@[simp] theorem getR_raise (d : Dev) (p b q : Nat) (f : Fld) : getR (raise d p b) q f = getR d q f := rfl
@[simp] theorem getR_advance (d : Dev) (t q : Nat) (f : Fld) : getR (advance d t) q f = getR d q f := rfl
@[simp] theorem getR_emit (d : Dev) (o : Output) (q : Nat) (f : Fld) : getR (emit d o) q f = getR d q f := rfl
@[simp] theorem getR_ledgerAt (d : Dev) (x : Int) (k ln pt : Nat) (l : List Nat) (q : Nat) (f : Fld) :
    getR (ledgerAt d x k ln pt l) q f = getR d q f := rfl
@[simp] theorem getR_ledgerNow (d : Dev) (k ln pt : Nat) (l : List Nat) (q : Nat) (f : Fld) :
    getR (ledgerNow d k ln pt l) q f = getR d q f := rfl

/-- The tick of a command is reached, and time does not go back. -/
theorem advance_ticks (d : Dev) (t : Nat) : (advance d t).ticks = max d.ticks t := rfl

/-! ## Events -/

/-- EVT_RAW after an event bit is raised. -/
@[simp] theorem evtRaw_raise_self (d : Dev) (p b : Nat) : evtRaw (raise d p b) p = evtRaw d p ||| 2 ^ b := by
  simp [evtRaw, raise]

/-- Raising an event on one page leaves the others alone. -/
theorem evtRaw_raise_ne (d : Dev) {p q : Nat} (b : Nat) (h : p ≠ q) : evtRaw (raise d p b) q = evtRaw d q := by
  simp only [evtRaw, raise]; exact Store.get_set_ne _ _ _ _ h

/-- The bit raised is set. -/
theorem raise_bit (d : Dev) (p b : Nat) : (evtRaw (raise d p b) p).testBit b = true := by
  simp [Nat.testBit_or, Nat.testBit_two_pow_self]

/-- Raising an event clears no bit. -/
theorem raise_mono (d : Dev) (p b q i : Nat) (h : (evtRaw d q).testBit i = true) :
    (evtRaw (raise d p b) q).testBit i = true := by
  by_cases hp : p = q
  · subst hp; simp [Nat.testBit_or, h]
  · rw [evtRaw_raise_ne d b hp]; exact h

/-- Raising an event leaves the register file alone. -/
theorem raiseOn_regs (d : Dev) (p b : Nat) (was now : Bool) : (raiseOn d p b was now).regs = d.regs := by
  unfold raiseOn; split <;> rfl

/-! ## The interrupt tree (R57) -/

/-- Sending or recording one vector touches MSI-X and the outputs only. -/
theorem sendVec_frame (d : Dev) (v : Nat) :
    ∃ (l vs : List Nat), sendVec d v = { d with irq := { d.irq with pba := l }, out := d.out ++ vs.map Output.msix } ∧
      (∀ x ∈ l, x ∈ d.irq.pba ∨ x = v) ∧ (∀ x ∈ vs, x = v) := by
  unfold sendVec
  by_cases h : vecMasked d.irq v = true
  · simp only [h, if_true]
    refine ⟨_, [], by simp; rfl, ?_, by simp⟩
    intro x hx
    split at hx
    · exact Or.inl hx
    · rcases List.mem_cons.1 hx with hx | hx
      · exact Or.inr hx
      · exact Or.inl hx
  · refine ⟨d.irq.pba, [v], ?_, fun x hx => Or.inl hx, by simp⟩
    simp [h]

/-- The same for a list of vectors. -/
theorem sendVecs_frame (l : List Nat) (d : Dev) :
    ∃ (p vs : List Nat), l.foldl sendVec d = { d with irq := { d.irq with pba := p }, out := d.out ++ vs.map Output.msix } ∧
      (∀ x ∈ p, x ∈ d.irq.pba ∨ x ∈ l) ∧ (∀ x ∈ vs, x ∈ l) := by
  induction l generalizing d with
  | nil => exact ⟨d.irq.pba, [], by simp, fun x hx => Or.inl hx, by simp⟩
  | cons v r ih =>
    obtain ⟨p, vs, h1, h2, h3⟩ := sendVec_frame d v
    obtain ⟨p', vs', g1, g2, g3⟩ := ih (sendVec d v)
    refine ⟨p', vs ++ vs', ?_, ?_, ?_⟩
    · rw [List.foldl_cons, g1, h1]; simp
    · intro x hx
      rcases g2 x hx with hx | hx
      · rw [h1] at hx
        rcases h2 x hx with hx | hx
        · exact Or.inl hx
        · exact Or.inr (by simp [hx])
      · exact Or.inr (by simp [hx])
    · intro x hx
      rcases List.mem_append.1 hx with hx | hx
      · simp [h3 x hx]
      · simp [g3 x hx]

/-- Settling leaves the pending bits as its first step makes them: those of the active vectors that are masked. -/
theorem sendVecs_pba (l : List Nat) (d : Dev) (h : ∀ v ∈ l, vecMasked d.irq v = true → v ∈ d.irq.pba) :
    (l.foldl sendVec d).irq = d.irq := by
  induction l generalizing d with
  | nil => rfl
  | cons v r ih =>
    have hv : (sendVec d v).irq = d.irq := by
      unfold sendVec
      by_cases hm : vecMasked d.irq v = true
      · simp [hm, h v (by simp) hm]
      · simp [hm]
    rw [List.foldl_cons, ih _ (by rw [hv]; intro w hw; exact h w (by simp [hw])), hv]

/-- Settling the interrupt tree: the active vectors are computed anew, the pending bits are those of the masked ones, and
messages of newly active vectors go out. -/
theorem settle_spec (d : Dev) :
    ∃ (p vs : List Nat), settle d =
        { d with irq := { d.irq with active := vecsActive d, pba := p }, out := d.out ++ vs.map Output.msix } ∧
      p = (vecsActive d).filter (vecMasked d.irq) ∧
      (∀ x ∈ vs, x ∈ vecsActive d ∧ x ∉ d.irq.active) := by
  let e : Dev := { d with irq := { d.irq with active := vecsActive d, pba := (vecsActive d).filter (vecMasked d.irq) } }
  obtain ⟨p, vs, h1, h2, h3⟩ := sendVecs_frame ((vecsActive d).filter (fun v => !d.irq.active.contains v)) e
  have hp := sendVecs_pba ((vecsActive d).filter (fun v => !d.irq.active.contains v)) e (by
    intro v hv hm
    exact List.mem_filter.2 ⟨(List.mem_filter.1 hv).1, hm⟩)
  refine ⟨p, vs, h1, ?_, ?_⟩
  · rw [h1] at hp
    exact congrArg Irq.pba hp
  · intro x hx
    have := List.mem_filter.1 (h3 x hx)
    exact ⟨this.1, by simpa using this.2⟩

/-- Settling changes MSI-X and the outputs only. -/
theorem settle_frame (d : Dev) :
    ∃ (q : Irq) (vs : List Nat), settle d = { d with irq := q, out := d.out ++ vs.map Output.msix } := by
  obtain ⟨p, vs, h, -, -⟩ := settle_spec d
  exact ⟨_, vs, h⟩

@[simp] theorem settle_regs (d : Dev) : (settle d).regs = d.regs := by
  obtain ⟨q, vs, h⟩ := settle_frame d; rw [h]
@[simp] theorem settle_evt (d : Dev) : (settle d).evt = d.evt := by
  obtain ⟨q, vs, h⟩ := settle_frame d; rw [h]
@[simp] theorem settle_snap (d : Dev) : (settle d).snap = d.snap := by
  obtain ⟨q, vs, h⟩ := settle_frame d; rw [h]
@[simp] theorem settle_snapTaken (d : Dev) : (settle d).snapTaken = d.snapTaken := by
  obtain ⟨q, vs, h⟩ := settle_frame d; rw [h]
@[simp] theorem settle_coef (d : Dev) : (settle d).coef = d.coef := by
  obtain ⟨q, vs, h⟩ := settle_frame d; rw [h]
@[simp] theorem settle_coefOwn (d : Dev) : (settle d).coefOwn = d.coefOwn := by
  obtain ⟨q, vs, h⟩ := settle_frame d; rw [h]
@[simp] theorem settle_ticks (d : Dev) : (settle d).ticks = d.ticks := by
  obtain ⟨q, vs, h⟩ := settle_frame d; rw [h]
@[simp] theorem settle_freeN (d : Dev) : (settle d).freeN = d.freeN := by
  obtain ⟨q, vs, h⟩ := settle_frame d; rw [h]
@[simp] theorem settle_rings (d : Dev) : (settle d).rings = d.rings := by
  obtain ⟨q, vs, h⟩ := settle_frame d; rw [h]
@[simp] theorem settle_net (d : Dev) : (settle d).net = d.net := by
  obtain ⟨q, vs, h⟩ := settle_frame d; rw [h]
@[simp] theorem settle_cmd (d : Dev) : (settle d).cmd = d.cmd := by
  obtain ⟨q, vs, h⟩ := settle_frame d; rw [h]
@[simp] theorem settle_clusters (d : Dev) : (settle d).clusters = d.clusters := by
  obtain ⟨q, vs, h⟩ := settle_frame d; rw [h]
@[simp] theorem settle_relays (d : Dev) : (settle d).relays = d.relays := by
  obtain ⟨q, vs, h⟩ := settle_frame d; rw [h]
@[simp] theorem settle_bridges (d : Dev) : (settle d).bridges = d.bridges := by
  obtain ⟨q, vs, h⟩ := settle_frame d; rw [h]
@[simp] theorem settle_unitStale (d : Dev) : (settle d).unitStale = d.unitStale := by
  obtain ⟨q, vs, h⟩ := settle_frame d; rw [h]
@[simp] theorem settle_unitCal (d : Dev) : (settle d).unitCal = d.unitCal := by
  obtain ⟨q, vs, h⟩ := settle_frame d; rw [h]
@[simp] theorem settle_unitEpoch (d : Dev) : (settle d).unitEpoch = d.unitEpoch := by
  obtain ⟨q, vs, h⟩ := settle_frame d; rw [h]
@[simp] theorem settle_epochs (d : Dev) : (settle d).epochs = d.epochs := by
  obtain ⟨q, vs, h⟩ := settle_frame d; rw [h]
@[simp] theorem settle_fenced (d : Dev) : (settle d).fenced = d.fenced := by
  obtain ⟨q, vs, h⟩ := settle_frame d; rw [h]
@[simp] theorem settle_fenceFree (d : Dev) : (settle d).fenceFree = d.fenceFree := by
  obtain ⟨q, vs, h⟩ := settle_frame d; rw [h]
@[simp] theorem settle_stk (d : Dev) : (settle d).stk = d.stk := by
  obtain ⟨q, vs, h⟩ := settle_frame d; rw [h]
@[simp] theorem settle_stkEpoch (d : Dev) : (settle d).stkEpoch = d.stkEpoch := by
  obtain ⟨q, vs, h⟩ := settle_frame d; rw [h]
@[simp] theorem settle_baton (d : Dev) : (settle d).baton = d.baton := by
  obtain ⟨q, vs, h⟩ := settle_frame d; rw [h]
@[simp] theorem settle_time (d : Dev) : (settle d).time = d.time := by
  obtain ⟨q, vs, h⟩ := settle_frame d; rw [h]
@[simp] theorem settle_ptp (d : Dev) : (settle d).ptp = d.ptp := by
  obtain ⟨q, vs, h⟩ := settle_frame d; rw [h]
@[simp] theorem settle_pfs (d : Dev) : (settle d).pfs = d.pfs := by
  obtain ⟨q, vs, h⟩ := settle_frame d; rw [h]
@[simp] theorem settle_ledger (d : Dev) : (settle d).ledger = d.ledger := by
  obtain ⟨q, vs, h⟩ := settle_frame d; rw [h]
@[simp] theorem settle_almH (d : Dev) : (settle d).almH = d.almH := by
  obtain ⟨q, vs, h⟩ := settle_frame d; rw [h]
@[simp] theorem settle_almHOk (d : Dev) : (settle d).almHOk = d.almHOk := by
  obtain ⟨q, vs, h⟩ := settle_frame d; rw [h]
@[simp] theorem settle_ledgerOut (d : Dev) : (settle d).ledgerOut = d.ledgerOut := by
  obtain ⟨q, vs, h⟩ := settle_frame d; rw [h]
@[simp] theorem settle_pools (d : Dev) : (settle d).pools = d.pools := by
  obtain ⟨q, vs, h⟩ := settle_frame d; rw [h]
@[simp] theorem settle_dmc (d : Dev) : (settle d).dmc = d.dmc := by
  obtain ⟨q, vs, h⟩ := settle_frame d; rw [h]
@[simp] theorem settle_rankMiB (d : Dev) : (settle d).rankMiB = d.rankMiB := by
  obtain ⟨q, vs, h⟩ := settle_frame d; rw [h]
@[simp] theorem settle_dlyLive (d : Dev) : (settle d).dlyLive = d.dlyLive := by
  obtain ⟨q, vs, h⟩ := settle_frame d; rw [h]
@[simp] theorem settle_almDly (d : Dev) : (settle d).almDly = d.almDly := by
  obtain ⟨q, vs, h⟩ := settle_frame d; rw [h]
@[simp] theorem settle_mem (d : Dev) : (settle d).mem = d.mem := by
  obtain ⟨q, vs, h⟩ := settle_frame d; rw [h]
@[simp] theorem settle_roll (d : Dev) : (settle d).roll = d.roll := by
  obtain ⟨q, vs, h⟩ := settle_frame d; rw [h]
@[simp] theorem settle_jobOwner (d : Dev) : (settle d).jobOwner = d.jobOwner := by
  obtain ⟨q, vs, h⟩ := settle_frame d; rw [h]
@[simp] theorem settle_rx (d : Dev) : (settle d).rx = d.rx := by
  obtain ⟨q, vs, h⟩ := settle_frame d; rw [h]
@[simp] theorem settle_conds (d : Dev) : (settle d).conds = d.conds := by
  obtain ⟨q, vs, h⟩ := settle_frame d; rw [h]
@[simp] theorem settle_pipes (d : Dev) : (settle d).pipes = d.pipes := by
  obtain ⟨q, vs, h⟩ := settle_frame d; rw [h]
@[simp] theorem settle_toFrame (d : Dev) : (settle d).toFrame = d.toFrame := by
  obtain ⟨q, vs, h⟩ := settle_frame d; rw [h]
@[simp] theorem settle_calPend (d : Dev) : (settle d).calPend = d.calPend := by
  obtain ⟨q, vs, h⟩ := settle_frame d; rw [h]
@[simp] theorem settle_eligFrom (d : Dev) : (settle d).eligFrom = d.eligFrom := by
  obtain ⟨q, vs, h⟩ := settle_frame d; rw [h]
@[simp] theorem settle_lines (d : Dev) : (settle d).lines = d.lines := by
  obtain ⟨q, vs, h⟩ := settle_frame d; rw [h]
@[simp] theorem settle_committed (d : Dev) : (settle d).committed = d.committed := by
  obtain ⟨q, vs, h⟩ := settle_frame d; rw [h]
@[simp] theorem settle_starters (d : Dev) : (settle d).starters = d.starters := by
  obtain ⟨q, vs, h⟩ := settle_frame d; rw [h]
@[simp] theorem settle_sfeAt (d : Dev) : (settle d).sfeAt = d.sfeAt := by
  obtain ⟨q, vs, h⟩ := settle_frame d; rw [h]
@[simp] theorem settle_gatesHeld (d : Dev) : (settle d).gatesHeld = d.gatesHeld := by
  obtain ⟨q, vs, h⟩ := settle_frame d; rw [h]
@[simp] theorem settle_gauges (d : Dev) : (settle d).gauges = d.gauges := by
  obtain ⟨q, vs, h⟩ := settle_frame d; rw [h]
@[simp] theorem settle_frames (d : Dev) : (settle d).frames = d.frames := by
  obtain ⟨q, vs, h⟩ := settle_frame d; rw [h]
@[simp] theorem settle_ramans (d : Dev) : (settle d).ramans = d.ramans := by
  obtain ⟨q, vs, h⟩ := settle_frame d; rw [h]
@[simp] theorem settle_almStack (d : Dev) : (settle d).almStack = d.almStack := by
  obtain ⟨q, vs, h⟩ := settle_frame d; rw [h]
@[simp] theorem settle_stkPause (d : Dev) : (settle d).stkPause = d.stkPause := by
  obtain ⟨q, vs, h⟩ := settle_frame d; rw [h]
@[simp] theorem settle_cores (d : Dev) : (settle d).cores = d.cores := by
  obtain ⟨q, vs, h⟩ := settle_frame d; rw [h]
@[simp] theorem settle_inCfg (d : Dev) : (settle d).inCfg = d.inCfg := by
  obtain ⟨q, vs, h⟩ := settle_frame d; rw [h]
@[simp] theorem settle_busNext (d : Dev) : (settle d).busNext = d.busNext := by
  obtain ⟨q, vs, h⟩ := settle_frame d; rw [h]
@[simp] theorem settle_paceGate (d : Dev) : (settle d).paceGate = d.paceGate := by
  obtain ⟨q, vs, h⟩ := settle_frame d; rw [h]
@[simp] theorem settle_hurdles (d : Dev) : (settle d).hurdles = d.hurdles := by
  obtain ⟨q, vs, h⟩ := settle_frame d; rw [h]
@[simp] theorem settle_pinAsk (d : Dev) : (settle d).pinAsk = d.pinAsk := by
  obtain ⟨q, vs, h⟩ := settle_frame d; rw [h]
@[simp] theorem settle_pins (d : Dev) : (settle d).pins = d.pins := by
  obtain ⟨q, vs, h⟩ := settle_frame d; rw [h]
@[simp] theorem settle_cals (d : Dev) : (settle d).cals = d.cals := by
  obtain ⟨q, vs, h⟩ := settle_frame d; rw [h]
@[simp] theorem settle_almCal (d : Dev) : (settle d).almCal = d.almCal := by
  obtain ⟨q, vs, h⟩ := settle_frame d; rw [h]
@[simp] theorem settle_jobSince (d : Dev) : (settle d).jobSince = d.jobSince := by
  obtain ⟨q, vs, h⟩ := settle_frame d; rw [h]
@[simp] theorem settle_svcRec (d : Dev) : (settle d).svcRec = d.svcRec := by
  obtain ⟨q, vs, h⟩ := settle_frame d; rw [h]
@[simp] theorem settle_svcSnap (d : Dev) : (settle d).svcSnap = d.svcSnap := by
  obtain ⟨q, vs, h⟩ := settle_frame d; rw [h]
@[simp] theorem settle_svcCores (d : Dev) : (settle d).svcCores = d.svcCores := by
  obtain ⟨q, vs, h⟩ := settle_frame d; rw [h]
@[simp] theorem settle_svcShots (d : Dev) : (settle d).svcShots = d.svcShots := by
  obtain ⟨q, vs, h⟩ := settle_frame d; rw [h]
@[simp] theorem settle_svcCal (d : Dev) : (settle d).svcCal = d.svcCal := by
  obtain ⟨q, vs, h⟩ := settle_frame d; rw [h]
@[simp] theorem settle_sfes (d : Dev) : (settle d).sfes = d.sfes := by
  obtain ⟨q, vs, h⟩ := settle_frame d; rw [h]
@[simp] theorem settle_loops (d : Dev) : (settle d).loops = d.loops := by
  obtain ⟨q, vs, h⟩ := settle_frame d; rw [h]
@[simp] theorem settle_mels (d : Dev) : (settle d).mels = d.mels := by
  obtain ⟨q, vs, h⟩ := settle_frame d; rw [h]
@[simp] theorem settle_melHostNext (d : Dev) : (settle d).melHostNext = d.melHostNext := by
  obtain ⟨q, vs, h⟩ := settle_frame d; rw [h]
@[simp] theorem settle_chkJobs (d : Dev) : (settle d).chkJobs = d.chkJobs := by
  obtain ⟨q, vs, h⟩ := settle_frame d; rw [h]
@[simp] theorem settle_arc (d : Dev) : (settle d).arc = d.arc := by
  obtain ⟨q, vs, h⟩ := settle_frame d; rw [h]
@[simp] theorem settle_almBad (d : Dev) : (settle d).almBad = d.almBad := by
  obtain ⟨q, vs, h⟩ := settle_frame d; rw [h]
@[simp] theorem settle_paceMel (d : Dev) : (settle d).paceMel = d.paceMel := by
  obtain ⟨q, vs, h⟩ := settle_frame d; rw [h]
@[simp] theorem settle_paceDecim (d : Dev) : (settle d).paceDecim = d.paceDecim := by
  obtain ⟨q, vs, h⟩ := settle_frame d; rw [h]
@[simp] theorem settle_commitPend (d : Dev) : (settle d).commitPend = d.commitPend := by
  obtain ⟨q, vs, h⟩ := settle_frame d; rw [h]
@[simp] theorem settle_paceOv (d : Dev) : (settle d).paceOv = d.paceOv := by
  obtain ⟨q, vs, h⟩ := settle_frame d; rw [h]
@[simp] theorem settle_pacer (d : Dev) : (settle d).pacer = d.pacer := by
  obtain ⟨q, vs, h⟩ := settle_frame d; rw [h]
@[simp] theorem settle_bkpBase (d : Dev) : (settle d).bkpBase = d.bkpBase := by
  obtain ⟨q, vs, h⟩ := settle_frame d; rw [h]
@[simp] theorem settle_vbatLow18 (d : Dev) : (settle d).vbatLow18 = d.vbatLow18 := by
  obtain ⟨q, vs, h⟩ := settle_frame d; rw [h]
@[simp] theorem settle_oscStop (d : Dev) : (settle d).oscStop = d.oscStop := by
  obtain ⟨q, vs, h⟩ := settle_frame d; rw [h]
@[simp] theorem settle_boot (d : Dev) : (settle d).boot = d.boot := by
  obtain ⟨q, vs, h⟩ := settle_frame d; rw [h]
@[simp] theorem settle_bist (d : Dev) : (settle d).bist = d.bist := by
  obtain ⟨q, vs, h⟩ := settle_frame d; rw [h]
@[simp] theorem settle_lpus (d : Dev) : (settle d).lpus = d.lpus := by
  obtain ⟨q, vs, h⟩ := settle_frame d; rw [h]
@[simp] theorem settle_ids (d : Dev) : (settle d).ids = d.ids := by
  obtain ⟨q, vs, h⟩ := settle_frame d; rw [h]

@[simp] theorem getR_settle (d : Dev) (p : Nat) (f : Fld) : getR (settle d) p f = getR d p f :=
  getR_congr (settle_regs d) p f
@[simp] theorem evtRaw_settle (d : Dev) (p : Nat) : evtRaw (settle d) p = evtRaw d p := by
  simp [evtRaw]
@[simp] theorem settle_active (d : Dev) : (settle d).irq.active = vecsActive d := by
  obtain ⟨p, vs, h, -, -⟩ := settle_spec d; rw [h]

/-- Which sources are pending depends on events, registers and rings alone. -/
theorem vecsActive_congr {d e : Dev} (h1 : d.regs = e.regs) (h2 : d.evt = e.evt) (h3 : d.rings = e.rings) :
    vecsActive d = vecsActive e := by
  have hr : ringInd d = ringInd e := by funext r; unfold ringInd flagR getR; rw [h1, h3]
  simp only [vecsActive, srcPend, pendPages, flagR, getR, h1, h2, hr]

/-- The tree is settled after settling. -/
theorem vecsActive_settle (d : Dev) : vecsActive (settle d) = vecsActive d :=
  vecsActive_congr (by simp) (by simp) (by simp)

end Sys2Proof.Machine
end

