-- ==== Sys2Proof/Laws/PerInstr.lean ====
section
/-! SUPPORT. Statements about commands as syntax, one lemma for each constructor: none is needed, since the spec
gives commands no encoding. -/
end

