-- ==== Sys2Proof/Laws/Reach.lean ====
section
/-! SUPPORT. How statements about commands are reached from the meanings: pages that a write reaches, and the forms of
`Does` and `Gives`. -/

namespace Sys2Proof.Machine

open Sys2Proof

/-- A write to a page that it reaches takes effect. -/
theorem onPage_reach {d : Dev} {p : Nat} (f : Dev → Dev) (h : Reach d p) : onPage p f d = f d := by
  obtain ⟨-, -, h1, h2, h3⟩ := h
  simp [onPage, h1, h2, h3]

/-- A write to a window that it reaches takes effect. -/
theorem onPage_visible {d : Dev} {p : Nat} (f : Dev → Dev) (h : Visible d p) : onPage p f d = f d := by
  obtain ⟨h1, h2, h3⟩ := h
  simp [onPage, h1, h2, h3]

/-- Time does not change what a write reaches. -/
theorem reach_advance {d : Dev} {p t : Nat} (h : Reach d p) : Reach (advance d t) p := h

/-- From the next state to what holds of it. -/
theorem does_of_gives {c : Instr} {s : State} {d : Dev} {P : Dev → Prop} (h : Gives c s d) (hp : P (settle d)) :
    Does c s P := ⟨_, h, rfl, hp⟩

/-- Settling leaves a settled tree. -/
theorem settle_settled (d : Dev) : TreeSettled (settle d) := by
  refine ⟨by rw [settle_active, vecsActive_settle], ?_⟩
  obtain ⟨p, vs, h, h2, -⟩ := settle_spec d
  rw [h]; exact h2

/-- A write changes one register only. -/
theorem regsBut_setR (d : Dev) (p : Nat) (f : Fld) (v : Nat) : RegsBut [(p, f)] (setR d p f v) d := by
  intro q g h
  exact getR_setR_ne d v (h (p, f) (by simp))

end Sys2Proof.Machine
end

