-- ==== Sys2Proof/Tests/Slice0.lean ====
section
/-! SUPPORT. Tests: what the spec's own examples and encodings say of the model, the ill-formed terms that the check
refuses, and for every statement with hypotheses a concrete state and operands that meet them. -/

namespace Sys2Proof.Tests

open Sys2Proof Sys2Proof.Machine

/-- The device after reset. -/
abbrev d0 : Dev := State.reset.dev

/-- A device with these register fields set. -/
def regs (l : List (Nat × Fld × Nat)) (d : Dev) : Dev := l.foldl (fun d e => setR d e.1 e.2.1 e.2.2) d

/-- A device with these live fields set. -/
def lives (l : List (Nat × Fld × Nat)) (d : Dev) : Dev := l.foldl (fun d e => setL d e.1 e.2.1 e.2.2) d

/-- A state with the device `d` and an empty queue. -/
abbrev st (d : Dev) : State := { State.reset with dev := d }

/-- The device of a next state; of any other outcome, the device after reset. -/
def after (o : Host.Outcome State Fault Refusal) : Dev :=
  match o with
  | .next t => t.dev
  | _ => State.reset.dev

/-- Line 11 with its shot clock at `x`. -/
def wLine (x : LineSt) : Dev := setLine d0 11 x

/-! ## Well-formedness: an ill-formed term for each check, and the largest well-formed one of some -/

theorem test_wellFormed_refuses_first : ∀ i ∈ ([
  .registerWrite 0 0 5 0, .planCheckEval 0 12, .vecRearm 0 2 0, .msixUnmask 0 64 false false,
   .stocktakeTWord 0 0 65536, .stocktakeConfirm 0 8, .immediateCommitApply 0 17, .slotLaunch 0 0 8,
   .clusterReady 0 0 11, .dvfsDone 0 0 4, .bridgeFlit 0 0 false ⟨0, 0, 0⟩ false, .bridgeFlit 0 3 false ⟨0, 0, 0⟩ false,
   .bridgeFlit 0 2 false ⟨4, 0, 0⟩ false, .converterWord 0 0 0 3 0 [], .converterWord 0 0 0 0 16 [],
   .converterWord 0 0 4 0 0 [0, 0, 0, 0], .converterWord 0 0 0 0 0 [8192, 0, 0, 0], .pipeWord 0 ⟨0, 4⟩, .gainScheduleEntry 0 0 16, .statWindowEnd 0 0 7 0 0 0 0, .coefWrite 0 0 0 2048 0,
   .gpioEdge 0 16 0, .gpioEdge 0 0 5, .triggerWord 0 2 0 0 0 0, .triggerWord 0 0 8 0 0 0, .triggerWord 0 0 0 0 2 0,
   .arcTableWrite 0 0 256 0, .calEvalTick 0 13] : List Instr), i.wf = false := by decide

theorem test_wellFormed_refuses_second : ∀ i ∈ ([
  .svcConversion 0 2 0, .shotTrigger 0 8, .sfeCheck 0 8, .loopTick 0 8, .ppsEdge 0 10000, .pfArm 0 8,
   .pfEdge 0 0 64 false 0 0 0, .pfEdge 0 0 0 false 0 4096 0, .pfEdge 0 0 0 false 0 0 4096, .pfCalDone 0 0 65536 0 0 0,
   .pfCalDone 0 0 0 65536 0 0, .pfCalDone 0 0 0 0 65536 0, .pfCalDone 0 0 0 0 0 65536, .batonLinkChange 0 0 3,
   .batonAnnounce 0 0 false 0 8 [], .proxyAccess 0 4194304 false 0 0, .shelfRequest 0 3 0 0 [],
   .shelfRequest 0 0 11 0 [], .rollConfigWrite 0 0 4 0, .dramAccess 0 0 4 false 0 [] [] 0, .rhWindow 0 2,
   .delayWrite 0 0 0 9 0 0, .delayWrite 0 0 0 0 6 0] : List Instr), i.wf = false := by decide

theorem test_wellFormed_refuses_third : ∀ i ∈ ([
  .blockCloseTimer 0 64, .nandRead 0 8 0 0 0 0 [], .nandRead 0 0 4 0 0 0 [], .nandProgramDone 0 0 0 4 0 0 false,
   .melArchiveBlock 0 4 false false, .chkDataWrite 0 8 0, .chkStateWrite 0 0 2 0, .pcieReset 0 3,
   .bar2Access 0 268435456 false 0 [], .ethLinkChange 0 0 4 0, .ringItemDeliver 0 32,
   .cmdDatagram 0 0 0 false [] 65536 0 [], .cmdDatagram 0 0 0 false [] 0 65536 [], .flowWrite 0 32 0 0,
   .flowWrite 0 0 8 0, .jobDone 0 64, .pstate 0 4, .smbusStatus 0 128 false, .laneStart 0 3 0, .busUnitStart 0 2 0,
   .busUnitStart 0 5 0] : List Instr), i.wf = false := by decide

/-! ## Witnesses: the machine as a whole -/

theorem witness_IdleStepPassesOneTick : State.reset.pending = [] := rfl

theorem witness_WellFormedCommandsComplete :
    (Instr.planCheckEval 0 12).wf = false ∧ (Instr.planCheckEval 0 11).wf = true := by decide

theorem witness_WellFormedQueueNeverStops :
    QueueWf { State.reset with pending := [.planCheckEval 0 11, .registerWrite 1 0x3F014 4 5] } := by
  unfold QueueWf; decide

theorem witness_InterruptTreeStaysSettled :
    ∃ t, TreeSettled State.reset.dev ∧ Machine.step { State.reset with pending := [.nowRead 7] } = .next t :=
  ⟨_, by unfold TreeSettled; decide, rfl⟩

/-- An event of page PKG is enabled and mapped to vector 63, whose table entry is unmasked or not. -/
def wIrq (masked pba : List Nat) : Dev :=
  let d := raise (regs [(pgPkg, cEVT_EN, 2 ^ 16), (pgPkg, F.PKG_VMAP_EN 0, 1), (pgPkg, F.PKG_VMAP_VECTOR 0, 63)] d0) pgPkg 16
  { d with irq := ⟨masked, false, [63], pba⟩ }

theorem witness_InterruptMessagesAndReadsWithAnEffect :
    (TreeSettled (wIrq [] []) ∧ 63 ∈ vecsActive (wIrq [] []) ∧ vecMasked (wIrq [] []).irq 63 = false) ∧
    (TreeSettled (wIrq [63] [63]) ∧ 63 ∈ vecsActive (wIrq [63] [63]) ∧ vecMasked (wIrq [63] [63]).irq 63 = true ∧
      0 ∉ vecsActive (wIrq [63] [63])) ∧
    (TreeSettled (wIrq [63] [63]) ∧ 63 ∈ (wIrq [63] [63]).irq.pba ∧ (wIrq [63] [63]).irq.funcMask = false ∧
      ∀ w ∈ (wIrq [63] [63]).irq.pba, w ≠ 63 → vecMasked (wIrq [63] [63]).irq w = true) ∧
    (Awake State.reset ∧ Reach d0 pgTime ∧ 0 ≤ tai d0) := by
  unfold TreeSettled; decide

theorem witness_RegisterWritesStoreByAccessType :
    Reach d0 0 ∧ Reach d0 0xB02 ∧ Reach d0 pgLoop ∧ kindOf 0x00F = none ∧ coefOf 0x00F = none ∧ kindOf 0xBFF = none ∧
    coefOf 0xBFF = none := by decide

theorem witness_EventWritesSetAndClearBits : Awake State.reset ∧ Reach d0 (pgLine 0) ∧ Reach d0 (pgLine 11) := by decide

/-- A pending Stocktake at the instant 2,000,000 µs. -/
def wStk (sys taken : Bool) (i : Option Int) : Dev := { d0 with stk := [⟨some 5, sys, i, 1, [], taken⟩] }

/-- The same on the time master, with both Baton links UP. -/
def wStkMaster : Dev :=
  regs [(pgTime, F.TIME_MASTER, 1), (pgBtn, F.BTN_UP_STATE, 2), (pgBtn, F.BTN_DOWN_STATE, 2)] (wStk true true (some (2000 * msU)))

theorem witness_ClearCountersClearsExactlyThePagesCounters :
    (∃ k, kindOf (pgStride 11 15) = some k ∧ Reach d0 (pgStride 11 15) ∧ Reach d0 pgSvc) ∧
    ((∀ x ∈ d0.stk, x.taken = true ∨ ∀ i, x.instant = some i → ticksUntil (advance d0 5) i ≠ 0) ∧
      ¬ (∀ x ∈ (wStk false false (some 0)).stk, x.taken = true ∨
        ∀ i, x.instant = some i → ticksUntil (advance (wStk false false (some 0)) 5) i ≠ 0)) := by
  refine ⟨⟨_, rfl, by decide⟩, by decide, ?_⟩
  intro h
  rcases h _ (List.mem_cons_self ..) with h | h
  · exact absurd h (by decide)
  · exact h 0 rfl (by decide)

theorem witness_StocktakesRunFromRequestToEnd :
    (d0.stk = [] ∧ isMaster d0 = false ∧ batonUp d0 0 = false) ∧ (wStk false false (some (2000 * msU))).stk ≠ [] ∧
    (∃ k, (wStk false false (some (2000 * msU))).stk = [k] ∧ k.system = false ∧ k.taken = false ∧
      k.instant = some (2000 * msU) ∧ getR (wStk false false (some (2000 * msU))) pgPkg F.PKG_STK_RING_OUT = 0) ∧
    (isMaster { wStkMaster with stk := [] } = true ∧ batonUp wStkMaster 1 = true) ∧
    (isMaster (regs [(pgBtn, F.BTN_UP_STATE, 2)] d0) = false ∧ batonUp (regs [(pgBtn, F.BTN_UP_STATE, 2)] d0) 0 = true ∧
      tai (advance (regs [(pgBtn, F.BTN_UP_STATE, 2)] d0) 3) < msU) ∧
    (∃ k, wStkMaster.stk = [k] ∧ k.system = true ∧ k.taken = true ∧ k.instant = some (2000 * msU) ∧ k.confirms = [] ∧
      isMaster wStkMaster = true ∧ tai (advance wStkMaster 3) ≤ 2000 * msU + 2 * msU) ∧
    (∃ k, (wStk true false none).stk = [k] ∧ k.system = true ∧ k.instant = none ∧ k.reqAt = some 5) := by
  refine ⟨by decide, by decide, ⟨_, rfl, by decide⟩, by decide, by decide, ⟨_, rfl, by decide⟩, ⟨_, rfl, by decide⟩⟩

/-! ## Witnesses: commits, lines, bridges, receivers -/

/-- Page LINE 11 with a staged plan. -/
def wPlan (per timing phase range : Nat) : Dev :=
  regs [(pgLine 11, F.LINE_PERIOD, per), (pgLine 11, F.LINE_TIMING, timing), (pgLine 11, F.LINE_GRID_PHASE, phase),
    (pgLine 11, F.LINE_RANGE, range)] d0

theorem witness_PlanCheckShowsTheLowestReason :
    getR (wPlan 1999 1 0 10) (pgLine 11) F.LINE_PERIOD < 2000 ∧
    (2000 ≤ getR (wPlan 2000 1 0 100000) (pgLine 11) F.LINE_PERIOD ∧ ¬roundTripOk (wPlan 2000 1 0 100000) .staged 11 = true) ∧
    (roundTripOk (wPlan 30000 1 0 10) .staged 11 = true ∧ getR (wPlan 30000 1 0 10) (pgLine 11) F.LINE_TIMING = 1 ∧
      100000000 % getR (wPlan 30000 1 0 10) (pgLine 11) F.LINE_PERIOD ≠ 0) ∧
    (roundTripOk (wPlan 30000 0 30000 10) .staged 11 = true ∧ getR (wPlan 30000 0 30000 10) (pgLine 11) F.LINE_TIMING = 0 ∧
      getR (wPlan 30000 0 30000 10) (pgLine 11) F.LINE_PERIOD ≤ getR (wPlan 30000 0 30000 10) (pgLine 11) F.LINE_GRID_PHASE) ∧
    (let d := regs [(pgLine 11, F.LINE_MODE, 0), (pgLine 11, F.LINE_SLOTS, 7)] (wPlan 30000 0 29999 10)
     roundTripOk d .staged 11 = true ∧ getR d (pgLine 11) F.LINE_GRID_PHASE < getR d (pgLine 11) F.LINE_PERIOD ∧
      getR d (pgLine 11) F.LINE_MODE = 0 ∧ getR d (pgLine 11) F.LINE_PERIOD % getR d (pgLine 11) F.LINE_SLOTS ≠ 0) ∧
    (let d := regs [(pgLine 11, F.LINE_MODE, 1), (pgLine 11, F.LINE_SLOTS, 9)] (wPlan 30000 0 0 10)
     roundTripOk d .staged 11 = true ∧ getR d (pgLine 11) F.LINE_MODE = 1 ∧ 8 < getR d (pgLine 11) F.LINE_SLOTS ∧
      getR (regs [(pgLine 11, F.LINE_SLOTS, 0)] d) (pgLine 11) F.LINE_SLOTS = 0) := by
  (repeat' apply And.intro) <;> decide

theorem witness_CommitsWaitApplyOrAreWithdrawn :
    ((line d0 0).shot = none ∧ (line d0 0).plan = none ∧ (line d0 0).next = none ∧ Reach d0 (pgLine 0)) ∧
    (Reach (wLine { LineSt.reset with next := some 400 }) (pgLine 11) ∧
      (∀ e, (line (wLine { LineSt.reset with next := some 400 }) 11).next = some e → max d0.ticks 200 + 200 ≤ e) ∧
      (∃ e, (line (wLine { LineSt.reset with next := some 400 }) 11).next = some e ∧ e < max d0.ticks 201 + 200)) ∧
    ((line (wLine { LineSt.reset with shot := some ⟨0, false⟩ }) 11).shot ≠ none) ∧
    ((planCheck (advance (wPlan 1999 1 0 10) 4) .staged 11).1 ≠ 0 ∧ (planCheck (advance (wPlan 1999 1 0 10) 4) .staged 11).1 < 256 ∧
      Reach (wPlan 1999 1 0 10) (pgLine 11)) ∧
    (Reach d0 pgTime ∧ regionOf pgTime = some 15 ∧ 15 ∉ d0.commitPend ∧ Reach d0 pgPkg ∧ regionOf pgPkg = none) ∧
    (15 ∈ { d0 with commitPend := [15] }.commitPend ∧ isFenced { d0 with commitPend := [15] } 15 = false ∧
      { d0 with commitPend := [15] }.bist = none ∧ 12 ∉ d0.commitPend ∧ 16 ∉ d0.commitPend ∧ isFenced d0 16 = false) ∧
    (let d := wLine { LineSt.reset with next := some 400, shot := some ⟨200, false⟩ }
     (line d 11).next = some 400 ∧ (line d 11).capFor ≠ some 400 ∧ (line d 11).plan = none ∧
      (line d 11).shot = some ⟨200, false⟩ ∧ 200 + 200 ≤ 400) := by
  refine ⟨by decide, ⟨by decide, ?_, 400, by decide⟩, by decide, by decide, by decide, by decide, by decide⟩
  intro e h
  have : e = 400 := by
    have h2 : (line (wLine { LineSt.reset with next := some 400 }) 11).next = some 400 := by decide
    rw [h2] at h; exact (Option.some.inj h).symm
  subst this; decide

theorem witness_CancelWithdrawsWaitingCommits :
    Reach d0 (pgLine 0) ∧ (line d0 0).plan = none ∧ (line d0 0).shot = none ∧
    (let d := wLine { LineSt.reset with shot := some ⟨0, false⟩, capShot := some ⟨true, false, []⟩ }
     Reach d (pgLine 11) ∧ (line d 11).shot ≠ none ∧ (line d 11).capShot ≠ none) ∧
    (let d := wLine { LineSt.reset with next := some 400, capFor := some 0, shot := some ⟨0, false⟩ }
     Reach d (pgLine 11) ∧ (line d 11).next = some 400 ∧ max d.ticks 199 + 200 < 400 ∧ (line d 11).shot ≠ none ∧
      400 ≤ max d.ticks 200 + 200 ∧ (line (capture (advance d 200) 11 400) 11).plan = none ∧
      (line (capture (advance d 200) 11 400) 11).shot = none) := by decide

theorem witness_TimelineEventsComeAtTheirInstants :
    ((line (wLine { LineSt.reset with next := some 400 }) 11).next = some 400 ∧ (line d0 0).next = none ∧ slotsN d0 0 ≤ 1) ∧
    (let d := lives [(pgLine 11, F.LINE_SLOTS, 8)] (wLine { LineSt.reset with base := 1, launches := [0], period := 8000, l0 := 90 })
     7 < slotsN d 11 ∧ 7 ∉ (line d 11).launches ∧ (line d 11).launches ≠ [] ∧ (line d 11).base ≠ 0 ∧ (line d 11).base ≠ 6 ∧
      (line d 11).launched = false ∧ flagL d (pgLine 11) F.LINE_MODE = false) ∧
    ((line (wLine { LineSt.reset with waitWake := true }) 11).waitWake = true ∧
      isFenced (wLine { LineSt.reset with waitWake := true }) 11 = false ∧ (line d0 0).waitWake = false) ∧
    (let d := wLine { LineSt.reset with stopAt := some 5000 }
     (line d 11).stopAt = some 5000 ∧ d.boot.stop = none ∧ (line d 11).paceStop = false) ∧
    ((line d0 0).stopAt = none ∧ (line d0 0).darkEnd = none) := by
  (repeat' apply And.intro) <;> decide

theorem witness_ClustersWakeUnitsCatchUpAndHeatTrips :
    (let d := setCluster (setCluster d0 11 10 ⟨true, true, 70, true, 1, 0⟩) 0 2 ⟨true, true, 70, false, 3, 700⟩
     (cluster d 0 2).powered = true ∧ (cluster d 0 2).waking = true ∧ (cluster d 11 10).powered = true ∧
      (cluster d 11 10).waking = true ∧ (cluster d 11 (7 + 3)).changing = true ∧ (cluster d 0 7).changing = false ∧
      isFenced d 12 = false ∧ isFenced d 16 = false ∧ coresHalted d 11 3 = true ∧ (cluster d 0 3).waking = false) ∧
    (let d := wLine { LineSt.reset with base := 1, l0 := 500 }
     isFenced d 11 = false ∧ lineOn d 11 = true ∧ (line d 11).base ≠ 6 ∧ (line d 11).l0 = max d.ticks 500 ∧
      (line d 0).l0 ≠ max d.ticks 500) ∧
    ((-7040 : Int) ≤ -7040 ∧ (15999 : Int) < 16000) ∧
    ((List.replicate 47 0 ++ [(16000 : Int)]).length = 48 ∧ 16000 ≤ (List.replicate 47 0 ++ [(16000 : Int)]).getD 47 0) := by
  (repeat' apply And.intro) <;> decide

/-- A feature frame of two shelves that waits in the pool of line 11's die, and the bridge UP. -/
def wBridge (x : BridgeSt) : Dev := setBridge (regs [(pgBridge 2, F.BRIDGE_LINK_STATE, 2), (pgBridge 2, F.BRIDGE_REPLAY_LIMIT, 4)] d0) 2 x

theorem witness_BridgesReplayAndCarryFrames :
    (let d := fun k => wBridge ⟨k, false, 0, [], []⟩
     (bridge (d 3) 2).retraining = false ∧ vcFree (d 3) 2 true 3 = true ∧
      (bridge (d 3) 2).failRun < max 1 (getR (d 3) (pgBridge 2) F.BRIDGE_REPLAY_LIMIT) ∧
      max 1 (getR (d 4) (pgBridge 2) F.BRIDGE_REPLAY_LIMIT) ≤ (bridge (d 4) 2).failRun ∧ (bridge (d 4) 2).reads = []) ∧
    (let q : Proxy := ⟨0, 0, 0xB00014, false, 0, 7, 4⟩
     let d := wBridge ⟨0, true, 7, [], [q]⟩
     (bridge d 2).retraining = true ∧ (bridge d 2).reads = q :: []) ∧
    (∃ f, (let d := setFrame (wBridge ⟨0, false, 0, [], []⟩) 11 { FrameSt.reset with out := [f] }
     (frame d 11).out = f :: [] ∧ (bridge d (dieOf 11)).retraining = false ∧ vcFree d (dieOf 11) true 0 = true ∧
      getR d (pgBridge (dieOf 11)) F.BRIDGE_LINK_STATE = 2 ∧ isFenced d regMemory = false ∧
      isFenced { d with fenced := [regMemory] } regMemory = true ∧
      (takeShelves (advance d 3) 0 (dieOf 11 - 1) f.shelves).1 = true)) ∧
    (getR d0 (pgBridge (dieOf 0)) F.BRIDGE_LINK_STATE ≠ 2 ∧ (frame d0 0).out = []) := by
  refine ⟨by decide, by decide, ⟨⟨1, 0, [], 2, 0⟩, by decide⟩, by decide⟩

/-- A channel of bridge 2 without a credit. -/
theorem witness_BridgesReplayAndCarryFrames_noCredit :
    vcFree { d0 with bridges := [(2, ⟨0, false, 0, [(4, Config.vcCredits 0 + 1)], []⟩)] } 2 true 0 = false := by
  change ((Config.vcCredits 0 + 1 == 0) || decide (Config.vcCredits 0 + 1 < Config.vcCredits 0)) = false
  simp

/-- Line 11 with two scheduled gain steps. -/
def wGain (depth : Nat) : Dev :=
  setRx (lives [(pgRx 11, F.RX_SCHED_EN, 1), (pgRx 11, F.RX_SCHED_COUNT, 16), (pgRx 11, F.RX_CODE 15, 60),
    (pgRx 11, F.RX_OFFSET 15, 50)] (wLine { LineSt.reset with next := some 9000, l0 := 1000 })) 11
    { RxSt.reset with depth := depth, gnom := 20 }

theorem witness_GainStepsComeFromScheduleAndHold :
    schedOn d0 11 15 = false ∧ (gainEnd (rx d0 11)).2 = 0 ∧ 0 < (rx (wGain 4) 11).depth ∧ schedOn (wGain 4) 11 15 = true ∧
    15 ∉ (rx (wGain 4) 11).schedDone ∧ (line (wGain 4) 11).next = some 9000 ∧ (rx (wGain 4) 11).steps = [] ∧
    0 < (gainEnd (rx (wGain 4) 11)).2 ∧
    5 * (line (wGain 4) 11).l0 + getL (wGain 4) (pgRx 11) (F.RX_OFFSET 15) < 5 * 9000 ∧
    gainCode (min 60 (getL (wGain 4) (pgRx 11) (F.RX_CODE 15))) (rx (wGain 4) 11).depth ≠ gainCode (rx (wGain 4) 11).gnom 4 ∧
    (let d := wLine { LineSt.reset with next := some 1000, l0 := 1000 }
     (line d 11).next = some 1000 ∧ 5 * 1000 ≤ 5 * (line d 11).l0 + getL d (pgRx 11) (F.RX_OFFSET 15)) := by
  (repeat' apply And.intro) <;> decide

/-- Core 1 of line 11 has failed, at tick 800; core 4 is ready. -/
def wFail : Dev :=
  setRx (regs [(pgRx 11, F.RX_FAILED, 2)] (wLine { LineSt.reset with base := 1, next := some 1000 })) 11
    { RxSt.reset with failAt := [(1, 801)], requal := true }

theorem witness_CoresFailReturnAndAreReplaced :
    (Reach d0 (pgRx 11) ∧ isFailed d0 11 (coreAt d0 (pgRx 11) 3) = false ∧ (calSt d0 11).run ≠ 2 ∧
      getR d0 (pgRx 11) F.RX_FAILED = 0 ∧ (rx d0 11).requal = false ∧
      ∀ i < 4, isFailed d0 11 (coreAt d0 (pgRx 11) i) = false) ∧
    (readyCores (regs [(pgRx 11, F.RX_FAILED, 16)] d0) 11 = []) ∧
    (Reach wFail (pgRx 11) ∧ getR wFail (pgRx 11) F.RX_FAILED ≠ 0 ∧ (rx wFail 11).requal = true ∧
      getR wFail (pgRx 11) F.RX_REQUAL_FAIL < 2 ^ 32) ∧
    (isFailed wFail 11 (coreAt wFail (pgRx 11) 1) = true ∧ (readyCores wFail 11).head? = some 4 ∧
      (∀ j < 4, j ≠ 1 → deadInput wFail 11 j = false) ∧ atSlot0 (advance wFail 1000) (coreOwner wFail 11) = true ∧
      Store.get (rx wFail 11).failAt 0 (coreAt wFail (pgRx 11) 1) + 199 ≤ max wFail.ticks 1000) ∧
    ((∀ i < 4, deadInput d0 11 i = false) ∧ atSlot0 (advance d0 5) (coreOwner d0 11) = false ∧
      isFailed wFail 11 1 = true ∧ ∀ b < 5, b ≠ 1 → isFailed wFail 11 b = false) := by
  (repeat' apply And.intro) <;> decide

/-- Line 11 converts, its pipe S7 runs, and `k` words wait in the relay channel of its Pipe cluster 3. -/
def wConv (k : Nat) : Dev :=
  setRelay (setCluster (setCluster (lives [(pgLine 11, F.LINE_SLOTS, 8), (pgRx 11, F.RX_AR_EN, 0)]
    (regs [(pgLine 11, cSTATE, 1)] d0)) 11 0 ⟨true, false, 0, false, 3, 0⟩) 10 0 ⟨true, false, 0, false, 3, 0⟩) 11 3
    { RelaySt.reset with fifo := List.replicate k ⟨0, 0, 0, 0, [], [], []⟩ }

theorem witness_ConverterWordsAndStatistics :
    (rawFits 8 (List.replicate 31 0 ++ [8191]) = true ∧ lineState d0 11 = 0 ∧ clusterUp d0 11 0 = false) ∧
    (lineState (wConv 8) 11 = 1 ∧ clusterUp (wConv 8) 11 0 = true ∧ clusterUsed (wConv 8) 11 3 = true ∧
      8 ≤ (relay (wConv 8) 11 3).fifo.length ∧ isFenced (wConv 7) 11 = false ∧ (relay (wConv 7) 11 3).fifo.length < 8 ∧
      bit 8 3 = true ∧ bit 7 3 = false ∧ flagL (wConv 7) (pgRx 11) F.RX_AR_EN = false ∧ (relay (wConv 0) 11 3).fifo = [] ∧
      cond (wConv 0) 11 3 = CondSt.reset ∧ (pipe (wConv 0) 11 6).wins = [] ∧ frameFull (wConv 0) 11 3 = false) ∧
    ((rx (setRx (wConv 0) 11 { RxSt.reset with half := some (8, []) }) 11).half = some (8, []) ∧
      clusterUp (wConv 0) (partner 11) 0 = true) ∧
    (statFits 0 (-8192) 8191 = true ∧ statFits (256 * 8191) 8191 8191 = true ∧ statEligible (advance d0 900) 11 4 = false ∧
      (-8192 : Int) < 8191 ∧ 0 ≠ statLen d0 11) ∧
    (let d := regs [(pgLine 11, cSTATE, 1)] { d0 with eligFrom := [(11, 1)], ticks := 10000000 }
     statEligible (advance d 0) 11 0 = true) ∧
    getR d0 (pgThrx 11) (F.THRX_OVR 1) = 0 ∧ (Store.get (rx d0 11).th ThAcc.reset 1).n = 0 := by
  (repeat' apply And.intro) <;> decide

/-- Line 11's Starter at `x`, with SAFE on probe loss and a short run of dim shots behind it. -/
def wStart (x : StarterSt) : Dev :=
  setStarter (lives [(pgStarter 11, F.STARTER_LOSS_FLOOR, 254)]
    (regs [(pgStarter 11, F.STARTER_LOSS_SAFE, 1), (pgStarter 11, F.STARTER_DIM_RUN, 15)] d0)) 11 x

/-- A shot of line 11 that nothing has judged, and one that is not dim. -/
def wShot (dim : Option Bool) : ShotRec := ⟨dim, none, false, 0, 0, 0, 0⟩

/-- Line 11's Starter after seven break shots in a row, S0's listening window open. -/
def wBreak : Dev :=
  setPipe (lives [(pgStarter 11, F.STARTER_END_LEARN, 0), (pgStarter 11, F.STARTER_END_REF, 5000)]
    (wStart { StarterSt.reset with shots := [wShot (some false)], breakRun := 7 })) 11 0
    { PipeSt.reset with listen := [⟨0, 100, 0, 0⟩] }

theorem witness_ChargeIsDiagnosedAndLightWatched :
    (starter d0 11).windows = [] ∧
    (let x := { StarterSt.reset with windows := [1000], accN := 62 }
     (starter (wStart x) 11).windows = 1000 :: [] ∧ flagL (wStart x) (pgStarter 11) F.STARTER_DIAG_EN = true ∧ x.accN < 63 ∧
      (decide (min 499 65535 * 256 < 1000 * sv (wStart x) 11 F.STARTER_OPEN_FRAC) && x.accHigh) = false) ∧
    (let x := { StarterSt.reset with windows := [1000], accHigh := true }
     (starter (wStart x) 11).windows = 1000 :: [] ∧ (starter (wStart x) 11).accHigh = true ∧
      min 499 65535 * 256 < 1000 * sv (wStart x) 11 F.STARTER_OPEN_FRAC) ∧
    (∀ r ∈ (starter d0 11).shots, r.dim ≠ none) ∧
    (let d := wStart { StarterSt.reset with shots := [wShot none] }
     safeCond d 11 = false ∧ (starter d 11).shots = [wShot none] ∧ sv d 11 F.STARTER_LOSS_FLOOR < 255 ∧
      getR d (pgStarter 11) F.STARTER_PROBE_LOSS = 0 ∧ getR d (pgStarter 11) F.STARTER_DIM_RUN = 15 ∧
      flagL d (pgStarter 11) F.STARTER_LOSS_SAFE = true) ∧
    (safeCond wBreak 11 = false ∧ (starter wBreak 11).shots = [wShot (some false)] ∧
      (pipe wBreak 11 0).listen = [⟨0, 100, 0, 0⟩] ∧
      isBreak wBreak 11 (binsToM (lv wBreak 11 F.LINE_GROUP_INDEX) (rateCode wBreak 11) 0) = true ∧ (starter wBreak 11).breakRun = 7) ∧
    ((pipe d0 11 7).listen = [] ∧ (pipe (setPipe d0 11 7 { PipeSt.reset with listen := [⟨0, 100, 0, 0⟩] }) 11 7).listen ≠ []) := by
  (repeat' apply And.intro) <;> decide

theorem witness_CoefficientBanksLockWhileRunning :
    (Visible d0 (pgCoef 11 7) ∧ bankRuns d0 11 7 0 = false ∧ Reach d0 (pgSlot 11 7) ∧ bankRuns d0 11 7 (257 % 2) = false ∧
      (257).testBit 8 = true) ∧
    (let d := setPipe d0 11 7 { PipeSt.reset with listen := [⟨0, 100, 0, 0⟩] }
     Visible d (pgCoef 11 7) ∧ bankRuns d 11 7 (getR d (pgSlot 11 7) F.SLOT_WBANK) = true ∧ Reach d (pgSlot 11 7) ∧
      bankRuns d 11 7 (256 % 2) = true) ∧
    (let d := setPipe (wLine { LineSt.reset with next := some 400 }) 11 7 { PipeSt.reset with listen := [⟨0, 100, 0, 0⟩] }
     (line d 11).next = some 400 ∧ max d.ticks 199 + 200 < 400 ∧ 400 ≤ max d.ticks 200 + 200 ∧ Visible d (pgCoef 11 7) ∧
      bankRuns (capture (advance d 200) 11 400) 11 7 (getR (capture (advance d 200) 11 400) (pgSlot 11 7) F.SLOT_WBANK) =
        true) := by
  (repeat' apply And.intro) <;> decide

/-! ## Witnesses: gauge, frames, Raman, Stride -/

/-- A skipped launch of slot 0 in plan 0, and a complete one of a single bin. -/
def wSkip : Launch := ⟨0, 500, 0, 9, 1, 8, 0, true, false, false⟩
def wOne : Launch := { wSkip with skipped := false }
def wBin : BinS := ⟨0, 5, 6, 0⟩

theorem witness_PipesSettleAndSkipLaunches :
    toFrame d0 11 3 = [] ∧
    (toFrame (setToFrame d0 11 3 [2 ^ 47 + 2 ^ 45]) 11 3 = (2 ^ 47 + 2 ^ 45) :: [] ∧ bit (2 ^ 47 + 2 ^ 45) 47 = true ∧
      bit (2 ^ 47 + 2 ^ 45) 45 = true ∧ (relay d0 11 3).fifo = []) ∧
    (let d := setGauge (setToFrame d0 11 3 [2 ^ 46]) 11 { GaugeSt.reset with arriving := [(7, ⟨wOne, []⟩)] }
     toFrame d 11 3 = 2 ^ 46 :: [] ∧ bit (2 ^ 46) 47 = false ∧ (pipe d 11 7).wins = [] ∧
      Store.find (gauge d 11).arriving (2 * 3 + bits (2 ^ 46) 46 1) = some ⟨wOne, []⟩ ∧ wOne.skipped = false ∧
      wOne.bins ≤ ([] : List BinS).length + 4 ∧ ([] : List BinS).length + 4 < { wOne with bins := 5 }.bins) ∧
    (let d := regs [(pgSlot 11 7, cSTATE, 2), (pgGauge 11, cSTATE, 2)] d0
     getR d (pgSlot 11 7) cSTATE = 2 ∧ (pipe d 11 7).settle = 0 ∧ (pipe d 11 7).wins = [] ∧ getR d (pgGauge 11) cSTATE = 2 ∧
      (gauge d 11).settle = 0 ∧ (gauge d 11).clears = []) ∧
    (getR d0 (pgSlot 11 7) cSTATE ≠ 2 ∧ getR d0 (pgGauge 11) cSTATE ≠ 2 ∧ (gauge d0 11).ready = []) ∧
    (let d := setGauge d0 11 { GaugeSt.reset with ready := [⟨wSkip, []⟩], plans := [{ planNow d0 11 0 with id := 0 }] }
     (gauge d 11).ready = [⟨wSkip, []⟩] ∧ wSkip.skipped = true ∧ (planOf d 11 wSkip.plan).div = false ∧
      (gauge d 11).plans.any (fun p => p.id == wSkip.plan) = true ∧ (gauge d 11).clears = [] ∧
      earlierDue d 11 500 = false) ∧
    (let d := setGauge d0 11 { GaugeSt.reset with ready := [⟨wSkip, []⟩], arriving := [(7, ⟨{ wOne with at_ := 499 }, []⟩)] }
     earlierDue d 11 500 = true) ∧
    (let d := setGauge d0 11 { GaugeSt.reset with ready := [⟨wSkip, []⟩, ⟨{ wSkip with slot := 1 }, []⟩],
                                                  plans := [{ planNow d0 11 0 with id := 0, div := true, slots := 2 }] }
     (planOf (advance d 5) 11 0).div = true ∧ (planOf (advance d 5) 11 0).slots ≤ 1 + 1 ∧ earlierDue d 11 500 = false) := by
  (repeat' apply And.intro) <;> decide

/-- Line 11 in state `s`, a frame instant at `i`, a frame due. -/
def wFrame (s : Nat) : Dev :=
  setFrame (setGauge (regs [(pgLine 11, cSTATE, s)] d0) 11 { GaugeSt.reset with plans := [planNow d0 11 0] }) 11
    { FrameSt.reset with nextInst := some 65536000, due := [⟨0, (planNow d0 11 0).id, 0, false, 0⟩] }

theorem witness_FrameInstantsNumberFrames :
    (frame d0 11).nextInst = none ∧ (frame d0 11).due = [] ∧
    ((frame (wFrame 4) 11).nextInst = some 65536000 ∧ (gauge (wFrame 4) 11).plans = [planNow d0 11 0] ∧
      lineState (wFrame 4) 11 = 4 ∧ lineState (wFrame 1) 11 = 1 ∧ lineState (wFrame 5) 11 = 5 ∧
      (frame (wFrame 4) 11).nextNo < 2 ^ 64) ∧
    ((frame (wFrame 1) 11).due ≠ [] ∧ (planOf (advance (wFrame 1) 5) 11 (planNow d0 11 0).id).ended = none ∧
      decide ((((frame (wFrame 1) 11).merged.filter (fun m => m.plan == 0)).length : Int) ≤
        (frameSpan (planNow d0 11 0) [] 0).2) = true ∧ planFlowing (wFrame 1) 11 0 = false) := by
  (repeat' apply And.intro) <;> decide +kernel

/-- A stack interval of two bins with a shot that waits for its samples. -/
def wStack (stale : Bool) (flip : Nat) : StackIv :=
  ⟨⟨1, 2, 0, 0, 0, 2, 0, 0, 0, 0, 0, 0, 0, 0, 0, 0, 0, 0, 0⟩, 0, 1, 0, false, 0, false, false, 0, [], [], [], [(7, stale)], 100, flip,
    false, 0, ⟨0, 0, 0, 0, 0, 0, 0, 0, 0, 0⟩, [], 0, false⟩

/-- Line 11's Stack with that interval open, or closed, or resting. -/
def wRaman (x : StackSt) : Dev :=
  { setStack d0 11 x with unitStale := [(pgThrx 11 * 32, false), (pgThrx 11 * 32 + 1, false)] }

theorem witness_RamanShotsAndStacksAccumulate :
    (stack d0 11).cur = none ∧ (stack d0 11).closed = [] ∧ (stack d0 11).rest = none ∧
    (let d := wRaman { StackSt.reset with cur := some (wStack false 0) }
     (stack d 11).cur = some (wStack false 0) ∧ (wStack false 0).shots = (7, false) :: [] ∧
      isStale d (pgThrx 11) 0 = false ∧ isStale d (pgThrx 11) 1 = false ∧
      [1, 2, 3, (-4 : Int)].length = 2 ^ (wStack false 0).p.j * (wStack false 0).p.bins) ∧
    (isStale (setStack d0 11 { StackSt.reset with cur := some (wStack false 0) }) (pgThrx 11) 1 = true) ∧
    (stack (wRaman { StackSt.reset with cur := some { wStack false 0 with shots := [] } }) 11).cur ≠ none ∧
    (stack (wRaman { StackSt.reset with closed := [wStack false 0] }) 11).closed = wStack false 0 :: [] ∧
    (let q : RestSt := ⟨3, wStack false 5, [], [], true⟩
     (stack (wRaman { StackSt.reset with rest := some q }) 11).rest = some q ∧ q.todo = true ∧ q.iv.flipSt = 5) ∧
    (let q : RestSt := ⟨3, wStack false 4, [], [], true⟩
     (stack (wRaman { StackSt.reset with rest := some q }) 11).rest = some q ∧ q.todo = true ∧ q.iv.flipSt = 4) ∧
    Reach d0 (pgStack 11) := by
  (repeat' apply And.intro) <;> decide

/-- Core 15 of line 11, RUNNING with its cluster up, at `x`. -/
def wCore (x : CoreSt) : Dev :=
  setCore (setCluster (regs [(pgStride 11 15, cSTATE, 1)] d0) 11 10 ⟨true, false, 0, false, 3, 0⟩) 11 15 x

/-- The same, with the word `w` next and the registers `r`. -/
def wWord (w : Nat) (r : Store Nat) : Dev := wCore { CoreSt.reset with prog := [(4095, w)], pc := 4095, regs := r }

theorem witness_StrideAluResultsAndOverflow :
    (∀ op ∈ [0x00, 0x01, 0x02, 0x03, 0x04, 0x05, 0x06, 0x07, 0x08, 0x09, 0x0A, 0x0B, 0x0C, 0x0D, 0x10, 0x11, 0x12, 0x13, 0x14, 0x15],
      Issues (wWord (op * 2 ^ 26) []) 11 15 (op * 2 ^ 26)) ∧
    (let x := Machine.core (wWord 0 [(0, 2 ^ 31 - 1), (1, 1)]) 11 15
     sx 32 (rdD x 0) + sx 32 (rdD x 2) < 2 ^ 31 ∧ 2 ^ 31 ≤ sx 32 (rdD x 0) + sx 32 (rdD x 1) ∧ rdD x 0 < 2 ^ 32) ∧
    (let x := Machine.core (wWord 0 [(0, 2 ^ 31), (1, 1)]) 11 15
     sx 32 (rdD x 0) - sx 32 (rdD x 1) < -(2 ^ 31) ∧ -(2 ^ 31) ≤ sx 32 (rdD x 0) + sx 32 (rdD x 2) ∧
      2 ^ 31 ≤ sx 32 (rdD x 1) - sx 32 (rdD x 0) ∧ sx 32 (rdD x 0) + sx 32 (rdD x 0) < -(2 ^ 31) ∧
      sx 32 (rdD x 0) = -(2 ^ 31) ∧ sx 32 (rdD x 1) ≠ -(2 ^ 31)) ∧
    (let x := Machine.core (wWord 0 [(0, 0x80007FFF), (1, 0x0000FFFF)]) 11 15
     let l := sx 16 (rdD x 0) + sx 16 (rdD x 1)
     let h := sx 16 (rdD x 0 / 65536) + sx 16 (rdD x 1 / 65536)
     l < 2 ^ 15 ∧ -(2 ^ 15) ≤ l ∧ -(2 ^ 15) ≤ h ∧ h < 2 ^ 15) := by
  unfold Issues; (repeat' apply And.intro) <;> decide

theorem witness_StrideLoadsStoresAndMoves :
    (∀ op ∈ [0x16, 0x17, 0x18, 0x19, 0x1A, 0x1B], Issues (wWord (op * 2 ^ 26) [(30, 65532)]) 11 15 (op * 2 ^ 26)) ∧
    (let x := Machine.core (wWord 0 [(30, 65532)]) 11 15
     rdP x 0 % 4 = 0 ∧ circ x 0 ((rdP x 0 : Int) + sx 14 4) % 4 = 0 ∧ rdP x 0 % 2 = 0) := by
  unfold Issues; (repeat' apply And.intro) <;> decide

theorem witness_CircularAddressesCorrectOnce :
    rdL CoreSt.reset 7 = 0 ∧
    (bits 0x603a3fff 19 3 = 7 ∧ bits 0x603a3fff 17 2 = 1 ∧ bits 0x603c2000 19 3 = 7 ∧ bits 0x603c2000 17 2 = 2 ∧
      bits 0x60066000 19 3 = 0 ∧ bits 0x60066000 17 2 = 3) ∧
    (let x := { CoreSt.reset with regs := [(40, 65524), (50, 12)] }
     rdL x 0 ≠ 0 ∧ (rdB x 0 : Int) + rdL x 0 ≤ 65536 ∧ (65523 : Int) < rdB x 0 ∧ (rdB x 0 : Int) ≤ 65535 ∧
      (65535 : Int) < (rdB x 0 : Int) + rdL x 0 ∧ rdB x 0 + rdL x 0 ≤ 65536 ∧ (rdB x 0 : Int) ≤ 65512 + rdL x 0 ∧
      (65547 : Int) < (rdB x 0 : Int) + 2 * rdL x 0) := by
  (repeat' apply And.intro) <;> decide

theorem witness_StrideBranchesAndStops :
    (∀ op ∈ [0x20, 0x21, 0x22, 0x23, 0x24, 0x25, 0x26, 0x27, 0x28, 0x29, 0x2A],
      Issues (wWord (op * 2 ^ 26) []) 11 15 (op * 2 ^ 26)) ∧
    (let d := wCore { CoreSt.reset with prog := [(0, 0x28 * 2 ^ 26)], isr := true }
     Issues d 11 15 (0x28 * 2 ^ 26) ∧ (Machine.core d 11 15).isr = true) ∧
    (let d := wCore { CoreSt.reset with prog := [(0, 0x29 * 2 ^ 26)], ipend := 128, imask := 128 }
     Issues d 11 15 (0x29 * 2 ^ 26) ∧ wanted (Machine.core d 11 15) = true) ∧
    wanted (Machine.core (wWord 0 []) 11 15) = false := by
  unfold Issues; (repeat' apply And.intro) <;> decide

theorem witness_StrideAccumulators :
    (∀ op ∈ [0x30, 0x31, 0x32, 0x33, 0x34, 0x35, 0x36, 0x37, 0x38, 0x39], Issues (wWord (op * 2 ^ 26) []) 11 15 (op * 2 ^ 26)) ∧
    (let x := Machine.core (wWord 0 [(0, 0x80008000), (1, 63), (20, 2 ^ 39 - 1)]) 11 15
     2 ^ 39 ≤ rdA x 0 + sx 16 (rdD x 0) * sx 16 (rdD x 0) ∧
      -(2 ^ 39) ≤ rdA x 0 - sx 16 (rdD x 0) * sx 16 (rdD x 0) ∧ rdA x 0 - sx 16 (rdD x 0) * sx 16 (rdD x 0) < 2 ^ 39 ∧
      rdA x 1 + sx 16 (rdD x 0) * sx 16 (rdD x 0) < 2 ^ 39 ∧ rdD x 2 % 64 < 40 ∧ rdA x 0 + rdA x 2 < 2 ^ 39) := by
  unfold Issues; (repeat' apply And.intro) <;> decide

/-- Core 15 of line 11 at an OUT or IN word, with `n` words at OUT port 1 and the words `b` in IN buffer 3. -/
def wPorts (w n : Nat) (b : List InW) : Dev :=
  wCore { CoreSt.reset with prog := [(0, w)], out1 := List.replicate n ⟨1, 2, 3, 15, 1, false, 0, 0⟩,
                            bufs := if b.isEmpty then [] else [(3, b)] }

theorem witness_StridePortsAndMailboxes :
    (Issues (wPorts (0x3A * 2 ^ 26 + 3 * 2 ^ 20) 0 []) 11 15 (0x3A * 2 ^ 26 + 3 * 2 ^ 20) ∧
      Store.get (Machine.core (wPorts (0x3A * 2 ^ 26 + 3 * 2 ^ 20) 0 []) 11 15).bufs [] 3 = []) ∧
    Store.get (Machine.core (wPorts (0x3A * 2 ^ 26 + 3 * 2 ^ 20) 0 [⟨7, 0⟩]) 11 15).bufs [] 3 = ⟨7, 0⟩ :: [] ∧
    (Issues (wPorts (0x3B * 2 ^ 26 + 2 ^ 21 + 255 * 2 ^ 8) 7 []) 11 15 (0x3B * 2 ^ 26 + 2 ^ 21 + 255 * 2 ^ 8) ∧
      (outPort (Machine.core (wPorts (0x3B * 2 ^ 26 + 2 ^ 21 + 255 * 2 ^ 8) 7 []) 11 15) 1).length < 8 ∧
      8 ≤ (outPort (Machine.core (wPorts (0x3B * 2 ^ 26 + 2 ^ 21 + 255 * 2 ^ 8) 8 []) 11 15) 1).length) ∧
    (∀ w ∈ [0x3C * 2 ^ 26 + 63 * 2 ^ 8, 0x3D * 2 ^ 26 + 15 * 2 ^ 18, 0x3D * 2 ^ 26], Issues (wWord w []) 11 15 w) := by
  unfold Issues; (repeat' apply And.intro) <;> decide

theorem witness_StrideFaultsAndInterrupts :
    (coreState d0 11 15 ≠ 1 ∧ eligible (Machine.core d0 11 15) = false ∧ (Machine.core d0 11 15).timerV = 0) ∧
    (let d := wCore { CoreSt.reset with pc := 4096 }
     coreState d 11 15 = 1 ∧ clusterUp d 11 (coreCluster 15) = true ∧ eligible (Machine.core d 11 15) = false ∧ 4096 ≤ (Machine.core d 11 15).pc) ∧
    (opListed (0x3F * 2 ^ 26 / 2 ^ 26 % 64) = false ∧ opListed 0x1C = false ∧ opListed 0x3E = false) ∧
    (let d := wCore { CoreSt.reset with prog := [(0, 0x2A * 2 ^ 26)], slots := 1 }
     coreState d 11 15 = 1 ∧ Store.get (Machine.core d 11 15).prog 0 0 / 2 ^ 26 % 64 = 0x2A ∧ (Machine.core d 11 15).slots ≠ 0) ∧
    (∀ q ∈ strideOps 5 11 15, opListed q.1 = true) ∧
    (let d := wCore { CoreSt.reset with regs := [(70, 65536)], ipend := 128, imask := 128 }
     coreState d 11 15 = 1 ∧ eligible (Machine.core d 11 15) = true ∧ bit ((Machine.core d 11 15).ipend &&& (Machine.core d 11 15).imask) 7 = true ∧
      (∀ j < 7, bit ((Machine.core d 11 15).ipend &&& (Machine.core d 11 15).imask) j = false) ∧ (Machine.core d 11 15).late = []) ∧
    (let d := wCore { CoreSt.reset with timerV := 1 }
     (Machine.core d 11 15).timerV ≠ 0 ∧ coreState d 11 15 = 1 ∧ Reach d (pgStride 11 15) ∧ (Machine.core d 11 15).mailFull = false) := by
  (repeat' apply And.intro) <;> decide

/-- A kernel image at 4,096 (R231): one word, HALT; its CRC-32C worked out apart from the model. -/
def wImage (crc : Nat) : Dev :=
  store (regs [(pgStride 11 15, cSTATE, 5), (pgStride 11 15, F.STRIDE_KADDR, 4096)] (wCore CoreSt.reset)) 4096
    ([0x53, 0x4B, 1, 0, 1, 0, 0, 0, 0, 0, 0, 0, 0, 0, 0, 0] ++ leBytes 4 crc ++ List.replicate 12 0 ++ [0, 0, 0, 168])

theorem witness_KernelsLoadAndStop :
    (Reach d0 (pgStride 11 15) ∧ coreState d0 11 15 = 0 ∧ paceGated d0 11 15 = false) ∧
    coreState (regs [(pgStride 11 15, cSTATE, 6)] d0) 11 15 = 6 ∧
    (paceGated { d0 with paceGate := [47] } 11 15 = true ∧ coreState { d0 with paceGate := [47] } 11 15 = 0) ∧
    (coreState (wImage 0) 11 15 = 5 ∧ clusterUp (wImage 0) 11 (coreCluster 15) = true ∧
      (readImage (advance (wImage 0) 5) 11 15).2.2 = none) ∧
    (readImage (advance (wImage 0x724FB6E0) 5) 11 15 = ([(0, 0xA8000000)], [], some 0) ∧
      coreMoves (wImage 0x724FB6E0) 11 15 = false ∧
      coreMoves (setCluster (wImage 0x724FB6E0) 11 (coreCluster 15)
        { cluster (wImage 0x724FB6E0) 11 (coreCluster 15) with changing := true }) 11 15 = true) := by
  (repeat' apply And.intro) <;> decide +kernel

/-! ## Witnesses: Hurdle, the Ledger, calibration, service converter, loops -/

/-- A frame that waits for its sequencer step. -/
def wStep : StepRec := ⟨40, 7, 0, 0, 0, 0, 0, [], [], []⟩

/-- Line 11 in state `s`, that frame waiting, sequencer 0 at `y` in state 15, enabled or not; its first arc there. -/
def wSeq (s : Nat) (run : Nat) (y : SeqSt) (w0 w1 : Nat) : Dev :=
  setHurdle (regs [(pgLine 11, cSTATE, s), (pgHurdle 11, F.HURDLE_SEQ_RUNNING 0, run), (pgHurdle 11, F.HURDLE_SEQ_STATE 0, 15),
    (pgHurdle 11, F.HURDLE_MAX_DUR 0, 3), (pgHurdle 11, F.HURDLE_ARC_W0 0 60, w0), (pgHurdle 11, F.HURDLE_ARC_W1 0 60, w1)] d0) 11
    { HurdleSt.reset with steps := [wStep], seq0 := y }

theorem witness_SequencersFireOneArc :
    ((hurdle d0 11).steps = [] ∧ lineState d0 11 = 0) ∧
    (let d := wSeq 4 0 SeqSt.reset 0 0
     (hurdle d 11).steps = wStep :: [] ∧ lineState d 11 = 4 ∧ flagR d (pgHurdle 11) (F.HURDLE_SEQ_RUNNING 0) = false ∧
      flagR d (pgHurdle 11) (F.HURDLE_SEQ_RUNNING 1) = false ∧ flagR d (pgHurdle 11) (F.HURDLE_EN 0) = false ∧
      flagR d (pgHurdle 11) (F.HURDLE_EN 1) = false) ∧
    (let d := wSeq 1 1 SeqSt.reset (2 ^ 31 + 15 * 2 ^ 16 + 30) 0
     lineState d 11 = 1 ∧ getR d (pgHurdle 11) (F.HURDLE_SEQ_STATE 0) = 15 ∧
      flagR d (pgHurdle 11) (F.HURDLE_SEQ_RUNNING 0) = true ∧ flagR d (pgHurdle 11) (F.HURDLE_SEQ_RUNNING 1) = false ∧
      flagR d (pgHurdle 11) (F.HURDLE_EN 1) = false ∧ (hurdle d 11).seq0.open_ = none ∧
      getR d (pgHurdle 11) (F.HURDLE_ARC_W0 0 (4 * 15)) = 2 ^ 31 + 15 * 2 ^ 16 + 30 ∧
      getR d (pgHurdle 11) (F.HURDLE_ARC_W1 0 (4 * 15)) = 0 ∧ getR d (pgHurdle 11) (F.HURDLE_TREM 0 3) < 2 ^ 32) ∧
    (let d := wSeq 1 1 SeqSt.reset (15 * 2 ^ 16 + 30) 0
     ∀ a < 4, (getR d (pgHurdle 11) (F.HURDLE_ARC_W0 0 (4 * 15 + a))).testBit 31 = false) ∧
    (let d := regs [(pgHurdle 11, F.HURDLE_START_STATE 0, 15), (pgHurdle 11, F.HURDLE_EN 0, 1)] (wSeq 1 0 SeqSt.reset 0 0)
     getR d (pgHurdle 11) (F.HURDLE_START_STATE 0) = 15 ∧ flagR d (pgHurdle 11) (F.HURDLE_EN 0) = true ∧
      flagR d (pgHurdle 11) (F.HURDLE_SEQ_RUNNING 0) = false ∧ flagR d (pgHurdle 11) (F.HURDLE_SEQ_RUNNING 1) = false ∧
      flagR d (pgHurdle 11) (F.HURDLE_EN 1) = false ∧
      ∀ a < 4, (getR d (pgHurdle 11) (F.HURDLE_ARC_W0 0 (4 * 15 + a))).testBit 31 = false) := by
  (repeat' apply And.intro) <;> decide

/-- An event record opened at frame 39. -/
def wRec : RecSt :=
  ⟨39, 30, 15, 6, none, 0, 0, 0, 0, none, 0, 0, 0, 0, 0, 0, none, none, 0, 0, 0, false, 0, [], false, none, false, 0, 0, 0, 41⟩

theorem witness_RecordsOpenAndAreEmitted :
    (let d := wSeq 2 1 SeqSt.reset (2 ^ 31 + 30) 256
     (hurdle d 11).steps = [wStep] ∧ lineState d 11 = 2 ∧ 1 < getR d (pgHurdle 11) (F.HURDLE_MAX_DUR 0) ∧
      flagR d (pgHurdle 11) (F.HURDLE_SEQ_RUNNING 0) = true ∧ flagR d (pgHurdle 11) (F.HURDLE_EN 1) = false ∧
      getR d (pgHurdle 11) (F.HURDLE_ARC_W0 0 (4 * 15)) = 2 ^ 31 + 30 ∧ getR d (pgHurdle 11) (F.HURDLE_ARC_W1 0 (4 * 15)) = 256) ∧
    (let d := wSeq 2 1 { SeqSt.reset with open_ := some wRec } (2 ^ 31 + 30) 256
     (hurdle d 11).seq0.open_ = some wRec ∧ wStep.num + 1 - wRec.kt < getR d (pgHurdle 11) (F.HURDLE_MAX_DUR 0)) ∧
    (seqOf (hurdle d0 11) 0).done = [] ∧
    (let d := wSeq 2 1 { SeqSt.reset with done := [wRec] } 0 0
     (seqOf (hurdle d 11) 0).done = wRec :: [] ∧ recReady d 11 wRec = false) ∧
    recReady (setHurdle d0 11 { HurdleSt.reset with arrived := some 41 }) 11 wRec = true := by
  (repeat' apply And.intro) <;> decide

/-- Line 11 whose GPIO and XSIG terms 3 are set, both Baton links UP; its feature bus at core 15 with one word there. -/
def wEdge : Dev :=
  setCore (regs [(pgHurdle 11, F.HURDLE_GPIO_SEL, 15 * 4096), (pgHurdle 11, F.HURDLE_XS_EN 3, 1),
    (pgHurdle 11, F.HURDLE_XS_PKG 3, 7), (pgHurdle 11, F.HURDLE_XS_LINE 3, 11), (pgHurdle 11, F.HURDLE_XS_SEQ 3, 1),
    (pgBtn, F.BTN_UP_STATE, 2)] { d0 with busNext := [(11, 30)] }) 11 15
    { CoreSt.reset with out0 := [⟨1, 2, 3, 15, 0, false, 0, 0⟩] }

theorem witness_EdgesTriggersFeaturesAndSequencerSetUp :
    (bits (getR wEdge (pgHurdle 11) F.HURDLE_GPIO_SEL) (4 * 3) 4 = 15 ∧ (∀ e ∈ (hurdle wEdge 11).latched, e.1 ≠ 20 + 3)) ∧
    (batonUp wEdge 0 = true ∧ batonUp wEdge 1 = false ∧ isFenced wEdge regTime = false ∧ isFenced wEdge 11 = false ∧
      7 ≠ pkgIndex wEdge ∧
      flagR wEdge (pgHurdle 11) (F.HURDLE_XS_EN 3) = true ∧ getR wEdge (pgHurdle 11) (F.HURDLE_XS_PKG 3) = 7 ∧
      getR wEdge (pgHurdle 11) (F.HURDLE_XS_LINE 3) = 11 ∧ getR wEdge (pgHurdle 11) (F.HURDLE_XS_SEQ 3) = 1 ∧
      (∀ e ∈ (hurdle wEdge 11).latched, e.1 ≠ 25 + 3) ∧ (∀ e ∈ (hurdle wEdge 11).latched, e.1 ≠ 29)) ∧
    (let d := regs [(pgBtn, F.BTN_DOWN_STATE, 2), (pgTime, F.TIME_MASTER, 0)] d0
     batonUp d 1 = true ∧ isFenced d regTime = false ∧ isMaster d = false ∧ isMaster (regs [(pgTime, F.TIME_MASTER, 1)] d) = true) ∧
    (∀ k < 16, outPort (Machine.core d0 11 k) 0 = [] ∧ outPort (Machine.core d0 11 k) 1 = []) ∧
    (Store.get wEdge.busNext 0 11 = 2 * 15 ∧ (Machine.core wEdge 11 15).out0 = ⟨1, 2, 3, 15, 0, false, 0, 0⟩ :: [] ∧
      (⟨1, 2, 3, 15, 0, false, 0, 0⟩ : FeatW).pl = false ∧
      ∀ c ∈ filtsAt wEdge 11 (fdiv (timeOfFrame wEdge 11 1 - wEdge.time.base) 10), featMatch c ⟨1, 2, 3, 15, 0, false, 0, 0⟩ = false) ∧
    (let d := lives [(pgHurdle 11, F.HURDLE_FILT_EN 7, 1), (pgHurdle 11, F.HURDLE_CORE_MASK 7, 2 ^ 15), (pgHurdle 11, F.HURDLE_PORT 7, 2)] wEdge
     let l := filtsAt d 11 (fdiv (timeOfFrame d 11 1 - d.time.base) 10)
     (l[7]?).isSome = true ∧ ∀ c ∈ l[7]?, featMatch c ⟨1, 2, 3, 15, 0, false, 0, 0⟩ = true ∧ ∀ e ∈ (hurdle d 11).latched, e.1 ≠ 8 + 7) ∧
    (let q : FeatRec := ⟨1, 0, 0, 0, 0, [], 0, 1, 0⟩
     (frame (setFrame wEdge 11 { FrameSt.reset with feats := [q] }) 11).feats = [q] ∧ q.recs.length < q.mx) ∧
    ((frame d0 11).feats = [] ∧ (frame (setFrame d0 11 { FrameSt.reset with feats := [⟨0, 0, 0, 0, 0, [], 0, 1, 0⟩] }) 11).feats ≠ [] ∧
      wouldGrant d0 (dieOf 11) (frameReq 11) (shelvesFor (64 + 12 * 1)) = true) ∧
    (let d := regs [(pgHurdle 11, F.HURDLE_EN 0, 1)] d0
     Reach d (pgHurdle 11) ∧ flagR d (pgHurdle 11) (F.HURDLE_EN (127 / 128)) = true ∧
      flagR d (pgHurdle 11) (F.HURDLE_EN (255 / 128)) = false) ∧
    ((16 + 15).testBit 4 = true ∧ (15).testBit 4 = false ∧ flagR d0 (pgHurdle 11) (F.HURDLE_EN 0) = false ∧
      (seqOf (hurdle (wSeq 1 1 SeqSt.reset 0 0) 11) 0).open_ = none ∧
      flagR (wSeq 1 1 SeqSt.reset 0 0) (pgHurdle 11) (F.HURDLE_SEQ_RUNNING 0) = true ∧
      ((List.range 64).map (fun i => arcWords (wSeq 1 0 SeqSt.reset (2 ^ 31 + 44) 0) 11 0 (i / 4) (i % 4))).any badArc = true ∧
      ((List.range 64).map (fun i => arcWords (wSeq 1 0 SeqSt.reset (2 ^ 31 + 43) 0) 11 0 (i / 4) (i % 4))).any badArc = false) := by
  (repeat' apply And.intro) <;> decide

/-- A Ledger entry, and a Ledger with the next number at the end of its reserved block, in operation. -/
def wEntry : LedgerEntry := ⟨0x0101, 0, 0, 0, 0, 0, 0, [], false⟩
def wLedger (failed : Bool) : Dev :=
  { regs [(pgPkg, F.PKG_BOOT_STAGE, 6), (pgPkg, F.PKG_NEXT_ACC, 4096), (pgPkg, F.PKG_RSV_END, 4096)] d0 with
    ledger := { d0.ledger with rsvFailed := failed } }

theorem witness_LedgerNumbersInOrder :
    ((2 ^ 31 + 65535).testBit 31 = true ∧ (65535).testBit 31 = false ∧ d0.ledgerOut = [] ∧ d0.ledger.rsvFailed = false) ∧
    (let d := { regs [(pgPkg, F.PKG_NEXT_ACC, 4095), (pgPkg, F.PKG_RSV_END, 4096)] d0 with ledgerOut := [wEntry] }
     d.ledgerOut = wEntry :: [] ∧ d.ledger.places = [] ∧ d.ledger.lostCount = 0 ∧ d.ledger.lostPend = 0 ∧
      d.ledger.reseedWait = false ∧ getR d pgPkg F.PKG_NEXT_ACC < getR d pgPkg F.PKG_RSV_END ∧ wEntry.kind ≠ 0x0160 ∧
      wEntry.test = false) ∧
    ({ d0 with ledgerOut := [wEntry], ledger := { d0.ledger with reseedWait := true } }.ledger.reseedWait = true) ∧
    reserveOn d0 = false ∧
    (getR (wLedger false) pgPkg F.PKG_RSV_END ≤ getR (wLedger false) pgPkg F.PKG_NEXT_ACC ∧ reserveOn (wLedger false) = true ∧
      (wLedger false).ledger.reseedWait = false ∧ (wLedger false).ledger.places = [] ∧ (wLedger false).ledger.lostPend = 0 ∧
      getR (wLedger false) pgPkg F.PKG_RSV_END < 2 ^ 63) ∧
    ((wLedger true).ledger.rsvFailed = true ∧ reserveOn (wLedger true) = true) ∧
    (getR d0 pgArc cSTATE ≠ 2 ∧ getR (regs [(pgArc, cSTATE, 2)] d0) pgArc cSTATE = 2) := by
  (repeat' apply And.intro) <;> decide

/-- Line 11 LOCKED with its next slot-0 instant at `e` and its calibration at `x`. -/
def wCal (e : Nat) (x : CalSt) : Dev :=
  setCalSt (regs [(pgLine 11, cSTATE, 2)] (wLine { LineSt.reset with base := 2, next := some e })) 11 x

theorem witness_CalibrationFallsDueAndRuns :
    (let d := regs [(pgCal 11, F.CAL_TEMP_EN, 1), (pgCal 11, F.CAL_CAL_DT, 4), (pgTherm (dieOf 11), F.THERM_TEMP_MEAN, 129),
       (pgCal 11, F.CAL_T_REF, 0)] d0
     Reach d (pgCal 11) ∧ flagR d (pgCal 11) F.CAL_TEMP_EN = true ∧ lineTemp d 11 = some 129 ∧ calDt d 11 = 64 ∧
      calDt d 11 < (129 - getS d (pgCal 11) F.CAL_T_REF).natAbs ∧
      2 * calDt d 11 ≤ (129 - getS d (pgCal 11) F.CAL_T_REF).natAbs) ∧
    (let d := regs [(pgCal 11, F.CAL_TEMP_EN, 0), (pgCal 11, F.CAL_TIMER_EN, 0)] d0
     flagR d (pgCal 11) F.CAL_TEMP_EN = false ∧ flagR d (pgCal 11) F.CAL_TIMER_EN = false ∧ (calSt d 11).forced = false ∧
      Store.get d.calPend [] 11 = [] ∧ (calSt d 11).run = 0) ∧
    Reach d0 pgSvc ∧
    ((line (wCal 199 { CalSt.reset with forced := true }) 11).next = some 199 ∧
      passMay (wCal 199 { CalSt.reset with forced := true }) 11 199 = false ∧
      passMay (wCal 200 { CalSt.reset with forced := true }) 11 200 = true ∧
      passMode (wCal 200 { CalSt.reset with forced := true }) 11 = (some 1, false) ∧
      flagR (wCal 200 { CalSt.reset with forced := true }) (pgCal 11) F.CAL_MODE = false) ∧
    ((calSt d0 11).run = 0 ∧ (calSt d0 11).handAt = none) ∧
    (let x := { CalSt.reset with run := 1, phase := 6, startAt := 50 }
     (calSt (wCal 200 x) 11).run = 1 ∧ phaseEnds[x.phase]? = some 2900000) ∧
    (let x := { CalSt.reset with run := 1, phase := 7, startAt := 50 }
     (line (wCal 2900049 x) 11).next = some 2900049 ∧ 2900049 < x.startAt + 2900000 ∧ x.startAt + 2900000 ≤ 2900050) ∧
    (let x := { CalSt.reset with run := 2, step := 4, spare := 4, readyAt := 70, lastRet := 69 }
     (line (wCal 70 x) 11).next = some 70 ∧ x.readyAt ≤ 70 ∧ x.lastRet < 70 ∧ (line (wCal 70 x) 11).gap = false ∧
      isFailed (wCal 70 x) 11 (coreAt (wCal 70 x) (pgRx 11) (x.step - 1)) = false ∧ x.spare < 5 ∧ x.handAt = none) ∧
    (let x := { CalSt.reset with run := 2, step := 3, spare := 4, relieved := 2, handAt := some 70, readyAt := 400070, measured := true }
     x.handAt ≠ none ∧ x.restart = false ∧ 400069 < x.readyAt ∧ x.readyAt ≤ 400070 ∧ x.relieved < 5 ∧ x.measured = true) ∧
    (let x := { CalSt.reset with run := 2, step := 3, handAt := some 70 }
     x.run = 2 ∧ x.step ≠ 0 ∧ x.handAt ≠ none ∧ x.measured = false) := by
  (repeat' apply And.intro) <;> decide

/-- Core 1 of the service converter running an entry; a SHOT entry 7 or a CONTROL entry 7 enabled. -/
def wRun (kind word settle n : Nat) : SvcRun :=
  ⟨40, kind, word, settle, 0, n, none, 100, false, 0, false⟩
def wSvc (cls word : Nat) (y : SvcCore) : Dev :=
  setSvcCore (lives [(pgSvc, F.SVC_INJ_EN 7, 1), (pgSvc, F.SVC_INJ_CLASS 7, cls), (pgSvc, F.SVC_INJ_WORD 7, word)] d0) 1 y

theorem witness_ServiceEntriesConvertAndCoresCalibrate :
    ((svcCore d0 1).run = none ∧ (svcCore d0 1).timed = false ∧ svcAsked (advance d0 5) 1 = none ∧ svcCaling d0 1 = false ∧
      (∀ e ∈ d0.svcShots, e.2 ≠ 7) ∧ isControl d0 (64 + 7) = false ∧ Reach d0 pgSvc) ∧
    (let d := wSvc 1 0x110 { SvcCore.reset with run := some (wRun 0 0x110 1 0) }
     (svcCore d 1).run = some (wRun 0 0x110 1 0) ∧ wSfe (wRun 0 0x110 1 0).word = none ∧ 0 < (wRun 0 0x110 1 0).settle ∧
      shotNear (advance d (max 5 150)) 1 false = false) ∧
    ((wRun 0 0x110 0 0).settle = 0 ∧ (wRun 0 0x110 0 0).n + 1 ≠ 2 ^ wAvg 0x110 ∧ (wRun 0 0x110 0 1).n + 1 = 2 ^ wAvg 0x110 ∧
      wAlign 0x110 = false) ∧
    (let d := wSvc 1 0x110 { SvcCore.reset with timed := true, nextScan := 7 }
     (svcCore d 1).timed = true ∧ svcCaling d 1 = false ∧ (svcCore d 1).scan = none ∧ (svcCore d 1).deferred = false) ∧
    (getL (lives [(pgSvc, F.SVC_MODE 1, 1), (pgSvc, F.SVC_SEQ_LEN 1, 8)] d0) pgSvc (F.SVC_MODE 1) = 1 ∧
      getL (lives [(pgSvc, F.SVC_MODE 1, 1), (pgSvc, F.SVC_SEQ_LEN 1, 8)] d0) pgSvc (F.SVC_SEQ_LEN 1) ≠ 0) ∧
    (svcCore (wSvc 1 0x110 { SvcCore.reset with timed := true, scan := some [1] }) 1).scan ≠ none ∧
    (let d := wSvc 0 0x110 SvcCore.reset
     isControl d (64 + 7) = true ∧ 7 / 4 = 1 ∧ shotNear (advance d 5) 1 true = false ∧ (svcCore d 1).paused = none ∧ skipCause d (svcWordOf d (64 + 7)) = 0 ∧
      (svcCore d 1).waiting = []) ∧
    (let d := wSvc 0 0x110 { SvcCore.reset with run := some (wRun 2 0x110 0 0), waiting := [71] }
     (svcCore d 1).run = some (wRun 2 0x110 0 0) ∧ (wRun 2 0x110 0 0).kind ≠ 0 ∧ (64 + 7) ∈ (svcCore d 1).waiting) ∧
    (let d := { wSvc 1 0x110 { SvcCore.reset with run := some (wRun 0 0x110 0 0) } with svcShots := [(900, 7)] }
     d.svcShots = [(900, 7)] ∧ flagL d pgSvc (F.SVC_INJ_EN 7) = true ∧ flagL d pgSvc (F.SVC_INJ_CLASS 7) = true ∧
      wReserved (getL d pgSvc (F.SVC_INJ_WORD 7)) = false ∧ wSfe (getL d pgSvc (F.SVC_INJ_WORD 7)) = none ∧
      svcCaling d 1 = false ∧ svcCaling { d with svcCal := { d.svcCal with run := 2 } } 1 = true) ∧
    (let d := { d0 with svcCal := { d0.svcCal with dueAt := some 3, forced := true } }
     svcAsked (advance d 5) 0 = some 3 ∧ injBusy d 0 = false) ∧
    (let d := regs [(pgSvc, F.SVC_OFS 0, 14336), (pgSvc, F.SVC_TRIM 0, 545260)] { d0 with svcCal := { d0.svcCal with run := 1 } }
     svcCaling d 0 = true ∧ (16384 - getS d pgSvc (F.SVC_OFS 0)).natAbs ≤ 2048 ∧
      ((550502 : Int) - (getR d pgSvc (F.SVC_TRIM 0) : Int)).natAbs ≤ 5242) := by
  (repeat' apply And.intro) <;> decide

/-- Channel 7 of the sensor front end measured by core 1 in a 4-wire OHMS entry. -/
def wSfeDev (clamp : Nat) : Dev :=
  setSvcCore (regs [(pgSfe, F.SFE_CLAMP 7, clamp), (pgSfe, F.SFE_CLASS 7, 2)] (lives [(pgSfe, F.SFE_WIRE 7, 2),
    (pgSfe, F.SFE_TYPE 7, 2), (pgSfe, F.SFE_CHECK_EN 7, 1)] d0)) 1 { SvcCore.reset with run := some (wRun 0 0x123 0 0) }

theorem witness_SensorChannelsMeasureAndCheck :
    ((svcCore d0 1).run = none ∧ (sfeSt d0 7).check = none ∧ sfeBusy d0 7 = false) ∧
    ((svcCore (wSfeDev 1) 1).run = some (wRun 0 0x123 0 0) ∧ wSfe 0x123 = some 7 ∧ { wRun 0 0x123 0 0 with bad := true }.bad = true ∧
      wSfe { wRun 0 0x123 0 0 with bad := true }.word = some 7 ∧ sfeBusy (wSfeDev 1) 7 = true) ∧
    ((wRun 0 0x123 0 0).bad = false ∧ getL (wSfeDev 0) pgSfe (F.SFE_WIRE 7) = 2 ∧
      getL (wSfeDev 0) pgSfe (F.SFE_TYPE 7) = 2 ∧
      (phaseSums (wSfeDev 0) 1 (2 ^ min 6 (wAvg 0x123)) 2 [5, 5, 9, 9]).getD 1 0 ≠ 0) ∧
    (flagL (lives [(pgSfe, F.SFE_CHECK_EN 7, 0)] d0) pgSfe (F.SFE_CHECK_EN 7) = false) ∧
    (let d := regs [(pgSfe, F.SFE_CLASS 7, 2)] (lives [(pgSfe, F.SFE_CHECK_EN 7, 1)] d0)
     flagL d pgSfe (F.SFE_CHECK_EN 7) = true ∧ (sfeSt d 7).check = none ∧ sfeBusy d 7 = false ∧
      getR d pgSfe (F.SFE_CLASS 7) = 2 ∧ (sfeSt d 7).lastCheck + 100000000 ≤ max d.ticks 100000000) ∧
    ((sfeSt (setSfe d0 7 ⟨some 9, 9, false⟩) 7).check = some 9) := by
  (repeat' apply And.intro) <;> decide

/-- Loop 7 on, with a result of entry 71 before it, in loop state `s`. -/
def wLoop (s : Nat) (x : LoopSt) : Dev :=
  { setLoop (lives [(pgLoop, F.LOOP_IN_SEL 7, 71), (pgLoop, F.LOOP_OUT_SEL 7, 1), (pgLoop, F.LOOP_KD 7, 0), (pgLoop, F.LOOP_POL 7, 0),
    (pgLoop, F.LOOP_OUT_MAX 7, 65535), (pgLoop, F.LOOP_FAIL_TICKS 7, 3)] (regs [(pgLoop, F.LOOP_OUT_NOW 7, 9),
    (pgLoop, F.LOOP_LSTATE 7, s)] d0)) 7 x with svcRec := [(71, { AccRec.reset with val := -100 })] }

theorem witness_LoopsComputeHoldAndFail :
    (loop_ d0 7).on = false ∧
    (let d := wLoop 1 { LoopSt.reset with on := true, fresh := true, first := false }
     (loop_ d 7).on = true ∧ isControl d (lpv d (F.LOOP_IN_SEL 7)) = false ∧ (loop_ d 7).fresh = true ∧ (loop_ d 7).first = false ∧
      lpv d (F.LOOP_IN_SEL 7) < 72 ∧ inputOk d (lpv d (F.LOOP_IN_SEL 7)) = true ∧ lstateOf d 7 = 1 ∧
      flagL d pgLoop (F.LOOP_POL 7) = false ∧ lps d (F.LOOP_KD 7) = 0 ∧
      -(2 ^ 31) ≤ lps d (F.LOOP_SP 7) - (svcRecOf d (lpv d (F.LOOP_IN_SEL 7))).val ∧ (loop_ d 7).calHold = false ∧
      lps d (F.LOOP_SP 7) - (svcRecOf d (lpv d (F.LOOP_IN_SEL 7))).val < 2 ^ 31 ∧
      lpv d (F.LOOP_OUT_MIN 7) < getR d pgLoop (F.LOOP_OUT_NOW 7) ∧ getR d pgLoop (F.LOOP_OUT_NOW 7) < lpv d (F.LOOP_OUT_MAX 7) ∧
      lpv d (F.LOOP_OUT_MAX 7) < 65536) ∧
    (let d := wLoop 2 { LoopSt.reset with on := true, hold := 1 }
     (loop_ d 7).fresh = false ∧ (loop_ d 7).calHold = false ∧ lstateOf d 7 ≠ 3 ∧ (loop_ d 7).hold + 1 < lpv d (F.LOOP_FAIL_TICKS 7)) ∧
    (let d := wLoop 2 { LoopSt.reset with on := true, hold := 2 }
     lpv d (F.LOOP_FAIL_TICKS 7) ≠ 0 ∧ lpv d (F.LOOP_FAIL_TICKS 7) ≤ (loop_ d 7).hold + 1) ∧
    (let d := lives [(pgSvc, F.SVC_INJ_EN 7, 1), (pgSvc, F.SVC_INJ_CLASS 7, 0)] (wLoop 1 { LoopSt.reset with on := true })
     (loop_ d 7).on = true ∧ isControl d (lpv d (F.LOOP_IN_SEL 7)) = true ∧ (loop_ d 7).asked = false) ∧
    (lpv d0 (F.LOOP_OUT_SEL 7) % 2 = 0 ∧ lpv (wLoop 1 LoopSt.reset) (F.LOOP_OUT_SEL 7) % 2 = 1 ∧ d0.gatesHeld = false) := by
  (repeat' apply And.intro) <;> decide

/-! ## Witnesses: time, Photo-finish, Baton, shelves, DRAM -/

/-- The time master with its servo at `x`. -/
def wTime (src step lag : Nat) (x : TimeSt) : Dev :=
  { regs [(pgTime, F.TIME_MASTER, 1), (pgTime, F.TIME_SET_SRC, src), (pgTime, F.TIME_STEP_TH, step), (pgTime, F.TIME_TOD_LAG, lag)] d0
    with time := x }

/-- The error of an edge on device `d` at tick 0, `p` ps after it, in 2^-16 ns / 125. -/
def wErr (d : Dev) (p : Nat) : Int :=
  let a : Int := 125 * tai (advance d 0) + 8192 * ((p : Int) - getS d pgTime F.TIME_PPS_DELAY)
  a - (a + 125 * secU / 2) / (125 * secU) * (125 * secU)

theorem witness_TimeFollowsItsReference :
    (isMaster (regs [(pgTime, F.TIME_MASTER, 0)] d0) = false ∧ d0.time.windowStart = none ∧ d0.time.lastEdge = none ∧
      timeState d0 ≠ 4 ∧ Reach d0 pgTime) ∧
    (let d := wTime 1 1000 0 { TimeSt.reset with locked := true }
     isMaster d = true ∧ d.time.armed = false ∧ d.time.lagSecond = none ∧ d.time.locked = true ∧ d.time.fresh = false ∧
      d.time.rejects = [] ∧ setSrc d = 1 ∧ (wErr d 9999).natAbs ≤ getR d pgTime F.TIME_STEP_TH * 8192000) ∧
    (let d := wTime 0 1 0 { TimeSt.reset with base := 65536 * 2000000 }
     setSrc d = 0 ∧ d.time.locked = false ∧ d.time.held = false ∧ ¬(wErr d 0).natAbs ≤ getR d pgTime F.TIME_STEP_TH * 8192000) ∧
    (setSrc (wTime 2 0 1 TimeSt.reset) = 2 ∧ flagR (wTime 2 0 1 TimeSt.reset) pgTime F.TIME_TOD_LAG = true ∧
      setSrc (wTime 0 0 0 TimeSt.reset) = 0 ∧ isMaster (wTime 0 0 0 TimeSt.reset) = true) ∧
    (let d := wTime 2 0 0 { TimeSt.reset with lastEdge := some (70, 3) }
     isMaster d = true ∧ setSrc d = 2 ∧ flagR d pgTime F.TIME_TOD_LAG = false ∧ d.time.lastEdge = some (70, 3) ∧
      d.time.todDone = false ∧ (wTime 2 0 0 TimeSt.reset).time.lastEdge = none) ∧
    (flagR (regs [(pgTime, F.TIME_READY_EN, 1)] d0) pgTime F.TIME_READY_EN = true ∧ d0.time.ovenBad = false ∧
      d0.time.refPresent = false) ∧
    (let d := wTime 0 1 0 { TimeSt.reset with windowStart := some 5, lastEdge := some (70, 3), refPresent := true, locked := true }
     d.time.windowStart = some 5 ∧ d.time.lastEdge = some (70, 3) ∧ isMaster d = true ∧ d.time.refPresent = true) ∧
    (let d := regs [(pgTime, cSTATE, 4), (pgTime, F.TIME_READY_EN, 0)] d0
     timeState d = 4 ∧ flagR d pgTime F.TIME_HOLD_EXCEEDED = false ∧ flagR d pgTime F.TIME_READY_EN = false) := by
  (repeat' apply And.intro) <;> decide

/-- PTP port 1 in MASTER with its sub-port 0 up, in one-step mode or not. -/
def wPtp (one n : Nat) : Dev :=
  { regs [(pgPtp 1, cSTATE, 1), (pgPtp 1, F.PTP_ONE_STEP, one), (pgPtp 1, F.PTP_ESMC_EN, one), (pgEth 1, F.ETH_LINK 0, 2),
      (pgEth 1, F.ETH_MAC 0, 5)] d0 with ptp := [(1, ⟨0, n, none, 0, 0, 0⟩)] }

theorem witness_TimeIsServed :
    (d0.time.zdaDone = d0.time.secDone ∧ getR d0 pgTime F.TIME_LEAP ≠ 1 ∧ getR d0 pgTime F.TIME_LEAP ≠ 2 ∧ ptpOn d0 1 = false) ∧
    ({ TimeSt.reset with secDone := 1 }.zdaDone ≠ 1) ∧
    (getR (regs [(pgTime, F.TIME_LEAP, 1), (pgTime, F.TIME_TAI_UTC, 32766)] d0) pgTime F.TIME_LEAP = 1 ∧
      getS (regs [(pgTime, F.TIME_LEAP, 1), (pgTime, F.TIME_TAI_UTC, 32766)] d0) pgTime F.TIME_TAI_UTC < 32767) ∧
    (getR (regs [(pgTime, F.TIME_LEAP, 2), (pgTime, F.TIME_TAI_UTC, 32769)] d0) pgTime F.TIME_LEAP = 2 ∧
      -32768 < getS (regs [(pgTime, F.TIME_LEAP, 2), (pgTime, F.TIME_TAI_UTC, 32769)] d0) pgTime F.TIME_TAI_UTC) ∧
    (ptpOn (wPtp 0 4096) 1 = true ∧ subUp (wPtp 0 4096) 1 0 = true ∧ flagR (wPtp 0 4096) (pgPtp 1) F.PTP_ONE_STEP = false ∧
      flagR (wPtp 1 0) (pgPtp 1) F.PTP_ONE_STEP = true ∧ flagR (wPtp 0 0) (pgPtp 1) F.PTP_ESMC_EN = false ∧
      flagR (wPtp 1 0) (pgPtp 1) F.PTP_ESMC_EN = true) ∧
    ((ptpSt (wPtp 0 4096) 1).sec = taiSec (tai (advance (wPtp 0 4096) 5)) ∧ 4096 ≤ (ptpSt (wPtp 0 4096) 1).count ∧
      (ptpSt (wPtp 0 0) 1).sec ≠ taiSec (tai (advance (wPtp 0 0) 100000000)) ∧ (ptpSt (wPtp 0 0) 1).foreignAt = none) := by
  (repeat' apply And.intro) <;> decide

/-- Photo-finish channel 7: INTERVAL from source 0 to source 1, one close tick, in state `s` with `x`. -/
def wPf (s : Nat) (x : PfSt) : Dev :=
  setPf (regs [(pgPf 7, cSTATE, s), (pgPf 7, F.PF_MODE, 0), (pgPf 7, F.PF_SRC_START, 0), (pgPf 7, F.PF_SRC_STOP, 1),
    (pgPf 7, F.PF_OPEN, 0), (pgPf 7, F.PF_CLOSE, 2), (pgPf 7, F.PF_K1 1, 16000), (pgPf 7, F.PF_K2 1, 48000)] d0) 7 x

/-- A measurement that began at 10,000 ps. -/
def wRunPf : PfRun := ⟨pfCfg (wPf 2 PfSt.reset) 7, 10000, false⟩

theorem witness_PhotoFinishMeasures :
    (getR (wPf 0 PfSt.reset) (pgPf 7) cSTATE = 0 ∧ getR (wPf 2 PfSt.reset) (pgPf 7) cSTATE ≠ 0 ∧ Reach d0 (pgPf 7) ∧
      (pfSt d0 7).run = none ∧ (pfSt d0 7).calRun = false) ∧
    (let d := wPf 1 PfSt.reset
     (pfSt d 7).run = none ∧ getR d (pgPf 7) cSTATE = 1 ∧ (pfCfg d 7).mode = 0 ∧ (pfCfg d 7).srcStart = 0 ∧
      (pfCfg d 7).srcStop = 1 ∧ (pfCfg d 7).edgeStart = 0 ∧ (pfSt d 7).last0 = none ∧ (pfSt d 7).early = []) ∧
    (let d := wPf 2 { PfSt.reset with run := some wRunPf }
     (pfSt d 7).run = some wRunPf ∧ wRunPf.cfg.mode = 0 ∧ wRunPf.cfg.srcStart = 0 ∧ wRunPf.cfg.srcStop = 1 ∧
      wRunPf.cfg.edgeStop = 0 ∧ wRunPf.cfg.open_ ≤ 0 ∧ wRunPf.ambig = false ∧ (pfSt d 7).last1 = none ∧
      getR d (pgPf 7) cSTATE = 2 ∧ (pfSt d 7).best = none ∧ wRunPf.at_ ≤ pfTime d 7 1 6 1000 ∧
      pfTick (pfTime d 7 1 6 1000) < pfTick wRunPf.at_ + wRunPf.cfg.close ∧ pfTime d 7 1 6 1000 - wRunPf.at_ < 2 ^ 31 ∧
      pfTime d 7 1 6 1001 < wRunPf.at_ ∧ pfTick (pfTime d 7 1 8 1000) = pfTick wRunPf.at_ + wRunPf.cfg.close) ∧
    (pfDue (advance d0 0) 7 = pfDue d0 7 ∧
      pfDue (advance (regs [(pgPf 7, F.PF_CAL_S, 1)] { d0 with unitCal := [] }) 99999999) 7 = false ∧
      pfDue (advance (regs [(pgPf 7, F.PF_CAL_S, 1)] d0) 100000000) 7 = true) ∧
    (let x := { PfSt.reset with calRun := true, calWas := [true, true] }
     (pfSt (setPf d0 7 x) 7).calRun = true ∧ x.calWas = [true, true] ∧ flagR (setPf d0 7 x) (pgPf 7) F.PF_DEGRADED = false ∧
      24000 + 40000 < 65536) := by
  (repeat' apply And.intro) <;> decide

/-- Both Baton links in state `u`; the package is the master or not. -/
def wBtn (u m : Nat) : Dev := regs [(pgBtn, F.BTN_UP_STATE, u), (pgBtn, F.BTN_DOWN_STATE, u), (pgTime, F.TIME_MASTER, m)] d0

theorem witness_BatonLinksFollowTheirRules :
    btnState (wBtn 2 1) 0 = 2 ∧ btnState (wBtn 2 1) 1 = 2 ∧ btnState (wBtn 0 1) 0 = 0 ∧ isMaster (wBtn 2 1) = true ∧
    rne (((7 : Int) - 2) + (9 - 8)) 2 < 2 ^ 31 ∧ d0.baton.upAt = none ∧
    { d0.baton with upAt := some 4 }.upAt = some 4 ∧ { d0.baton with downAt := some 4 }.downAt = some 4 := by
  (repeat' apply And.intro) <;> decide

/-- The remote window of quarter `q` on package 7, `n` reads outstanding. -/
def wProxy (q n : Nat) : Dev :=
  let d := regs [(pgBtn, F.BTN_WIN_PKG, 7), (pgBtn, F.BTN_WIN_QTR, q)] d0
  { d with baton := { d.baton with proxies := List.replicate n ⟨0, 7, 4, false, 0, 0, 2⟩ } }

theorem witness_ProxiedAccessesCompleteInOrder :
    getR (wProxy 3 0) pgBtn F.BTN_WIN_QTR = 3 ∧
    (getR (wProxy 2 7) pgBtn F.BTN_WIN_QTR ≠ 3 ∧ getR (wProxy 2 7) pgBtn F.BTN_WIN_PKG ≠ pkgIndex (wProxy 2 7) ∧
      (wProxy 2 7).baton.waiting = [] ∧ readsOut (wProxy 2 7) < 8 ∧ 8 ≤ readsOut (wProxy 2 8)) ∧
    ((wProxy 0 0).baton.proxies = [] ∧ (wProxy 0 1).baton.proxies = ⟨0, 7, 4, false, 0, 0, 2⟩ :: []) := by
  (repeat' apply And.intro) <;> decide

theorem witness_ShelvesAreGrantedWhole :
    (wouldGrant d0 2 18 1024 = false ∧ wouldGrant d0 2 18 1 = true ∧ wouldGrant d0 0 0 1 = true ∧ (pool d0 0).rr = 0 ∧
      wouldGrant d0 0 10 1 = true) ∧
    ((1 : Nat) ≤ heldBy (regs [(pgShelf 2, fHELD 18, 1023)] d0) 2 18 ∧ heldBy (regs [(pgShelf 2, fHELD 18, 1023)] d0) 2 18 < 1024) ∧
    (Reach d0 (pgShelf 0) ∧ Reach d0 (pgShelf 2) ∧ fixedReserve 2 18 = true ∧ fixedReserve 2 16 = false ∧
      getR d0 (pgShelf 0) F.SHELFH_RESERVED_SUM - getR d0 (pgShelf 0) (fRESERVE 0 8) + min 1 256 ≤ 512 ∧
      poolSize 2 < getR d0 (pgShelf 2) F.SHELFD_RESERVED_SUM - getR d0 (pgShelf 2) (fRESERVE 2 16) + 1023 ∧
      getR d0 (pgShelf 2) F.SHELFD_RESERVED_SUM - getR d0 (pgShelf 2) (fRESERVE 2 16) + 1 ≤ poolSize 2) := by
  (repeat' apply And.intro) <;> decide

/-- Controller 1 in state `s`, rank 3 ACTIVE and rank 2 in state `k`; its scrub granted or not. -/
def wDmc (s k run : Nat) : Dev :=
  setDmc (regs [(pgDmc 1, cSTATE, s), (pgDmc 1, F.DMC_RANK_STATE, 0x1000 + 256 * k), (pgDmc 0, F.DMC_RANK_STATE, 0x1111),
    (pgDmc 1, F.DMC_SR_EN, 1), (pgDmc 1, F.DMC_HOST_TOL, 2), (pgDmc 1, F.DMC_SR_MARGIN, 0), (pgDmc 1, F.DMC_IDLE_CYCLES, 8),
    (pgPace, F.PACE_J_VALID 0, 1), (pgPace, F.PACE_J_RUNNING 0, run)] { d0 with rankMiB := 1, jobOwner := [(0, ownScrub 1 + 1)] }) 1
    { DmcSt.reset with cfg := 3 * 2 ^ F.DMC_SPEED.lsb }

theorem witness_MemoryChannelsServe :
    (chanOf 256 = 1 ∧ getR (wDmc 0 0 0) (pgDmc 1) cSTATE = 0 ∧ getR (wDmc 4 0 0) (pgDmc 1) cSTATE = 4 ∧
      getR (wDmc 1 2 1) (pgDmc 1) cSTATE = 1 ∧ getR (wDmc 3 2 1) (pgDmc 1) cSTATE = 3) ∧
    (rankState (wDmc 2 2 0) 1 3 = 1 ∧ (dmc (wDmc 2 2 0) 1).mig = none ∧
      (List.range 4).find? (fun k => rankState (wDmc 2 2 0) 1 k == 2) = some 2 ∧ lineNo 256 ∉ (dmc (wDmc 2 2 0) 1).inverted) ∧
    (jobRunning (wDmc 1 0 0) (ownScrub 1) = false ∧ jobRunning (wDmc 1 0 1) (ownScrub 1) = true ∧
      (dmc (wDmc 1 0 1) 1).scrubPos + 1 < chanLines (wDmc 1 0 1)) ∧
    (getR d0 (pgDmc 1) F.DMC_CE = (dmc d0 1).ceHour ∧ (dmc d0 1).ceHour < getR (regs [(pgDmc 1, F.DMC_CE, 2 ^ 64 - 1)] d0) (pgDmc 1) F.DMC_CE) ∧
    ((List.range 4).find? (fun k => rankState (wDmc 1 0 0) 1 k == 2) = none ∧
      flagR (regs [(pgDmc 1, F.DMC_SR_EN, 0)] d0) (pgDmc 1) F.DMC_SR_EN = false ∧ Reach d0 (pgShelf 0)) := by
  (repeat' apply And.intro) <;> decide

/-- The conditions for self-refresh entry can hold: for every tolerance of the device clients above 500 ns (a free value). -/
theorem witness_MemoryChannelsServe_selfRefresh (h : 500 < Config.clientTol 1) :
    flagR (wDmc 1 0 0) (pgDmc 1) F.DMC_SR_EN = true ∧ getR (wDmc 1 0 0) (pgDmc 1) cSTATE = 1 ∧
    20 + max (tXs (wDmc 1 0 0) 1) (tXsDll (wDmc 1 0 0) 1) + getR (wDmc 1 0 0) (pgDmc 1) F.DMC_SR_MARGIN < tolMin (wDmc 1 0 0) 1 ∧
    getR (wDmc 1 0 0) (pgDmc 1) F.DMC_IDLE_CYCLES ≤ ctlCycles (advance (wDmc 1 0 0) 1) 1 (dmc (wDmc 1 0 0) 1).lastReq := by
  have a : 20 + max (tXs (wDmc 1 0 0) 1) (tXsDll (wDmc 1 0 0) 1) + getR (wDmc 1 0 0) (pgDmc 1) F.DMC_SR_MARGIN = 500 := by decide
  have b : tolMin (wDmc 1 0 0) 1 = min 2000 (Config.clientTol 1) := by
    have c : ((List.range 12).any (lineFlows (wDmc 1 0 0)) || (dmc (wDmc 1 0 0) 1).mig.isSome) = false := by decide
    have e : 1000 * getR (wDmc 1 0 0) (pgDmc 1) F.DMC_HOST_TOL = 2000 := by decide
    unfold tolMin; rw [c, e]; rfl
  refine ⟨by decide, by decide, ?_, by decide⟩
  rw [a, b]; omega

theorem witness_RanksMigrateAndDelaysSweep :
    ((dmc d0 1).mig = none ∧ (dmc d0 1).requal = none ∧ Reach d0 (pgDmc 1) ∧ Reach d0 (pgDly 1)) ∧
    ((dmc (setDmc d0 1 { DmcSt.reset with mig := some ⟨3, 2, 0, []⟩ }) 1).mig = some ⟨3, 2, 0, []⟩) ∧
    ((256 + 2).testBit 8 = true ∧ (256 + 2) % 4 = 2 ∧ rankState (wDmc 1 4 0) 1 2 = 4 ∧ rankState (wDmc 1 6 0) 1 2 = 6 ∧
      (dmc (wDmc 1 4 0) 1).requal = none) ∧
    ((dmc (setDmc d0 1 { DmcSt.reset with requal := some (3, 15) }) 1).requal = some (3, 15)) ∧
    ((2 ^ 31 + 1024).testBit 31 = true ∧ getR d0 (pgDly 1) cSTATE = 0 ∧ bits (2 ^ 31 + 1024) 8 3 = 4 ∧ bits (2 ^ 31 + 512) 8 3 = 2 ∧
      getR (wDmc 1 0 0) (pgDmc 1) cSTATE ≠ 0) ∧
    (getR (regs [(pgDly 1, cSTATE, 1)] d0) (pgDly 1) cSTATE = 1) ∧
    ((List.replicate 9 0).length = 9 ∧ (∃ m ∈ List.replicate 9 0, worstSide m < getR d0 (pgDmc 1) F.DMC_MARGIN_MIN) ∧
      ¬∃ m ∈ List.replicate 9 (2 ^ 32 - 1), worstSide m < getR d0 (pgDmc 1) F.DMC_MARGIN_MIN) := by
  (repeat' apply And.intro) <;> decide

/-! ## Witnesses: the Archive, Melain and the check units -/

/-- The Archive in state `s` at `x`, with a geometry of four segments of 64 pages. -/
def wGeo : ArcGeo := ⟨[0], 4096, 128, 64, 4, 1, 1⟩
def wArc (s : Nat) (x : ArcSt) : Dev := { regs [(pgArc, cSTATE, s)] d0 with arc := { x with geo := some wGeo } }

/-- An item of four bytes on stream 35; its open block; a closed block of stream 35. -/
def wItem : ArcItem := ⟨35, 7, 0, [1, 2, 3, 4]⟩
def wOpen : ArcOpen := ⟨35, 4, [wItem], 0⟩
def wBlock (logged durable : Bool) : ArcBlock := ⟨9, 35, 1, 7, 7, 0, 0, 4, 4, [1, 2, 3, 4], logged, durable, 0, [], 0⟩

/-- A retrieval request that decodes. -/
def wRet (todo : Option (List Nat)) : RetReq := ⟨35, 0, true, 5, 0, 0, 1, 0, todo⟩

/-- A job of the Archive of owner `o` that Pacer has granted. -/
def wJob (o : Nat) (d : Dev) : Dev :=
  { regs [(pgPace, F.PACE_J_VALID 47, 1), (pgPace, F.PACE_J_RUNNING 47, 1)] d with jobOwner := [(47, o + 1)], jobSince := [(o, 1)] }

/-- A closed block waits, and CONTINUOUS is written in segment 3. -/
def wStaged : ArcSt :=
  { ArcSt.reset with staged := [wBlock false false], openSeg := [(1, 4)], segs := [(3, { ArcSeg.reset with vol := 1 })] }

theorem witness_ArchiveKeepsItsStreams :
    (d0.arc.inQ = [] ∧ openOf d0 63 = none ∧ d0.arc.rets = [] ∧ arcSt d0 ≠ 2 ∧ Reach d0 pgArc ∧
      (blocksIn d0 (fun z => z.logged && !z.durable)).head? = none ∧ melHost (regs [(pgMel 3, F.MEL_HOST_EN, 1)] d0) 3 = true) ∧
    (let d := wArc 2 { ArcSt.reset with inQ := [wItem] }
     d.arc.inQ = wItem :: [] ∧ wItem.bytes.length ≤ 262144 ∧ openOf d wItem.stream = none) ∧
    (let d := wArc 2 { ArcSt.reset with inQ := [wItem], opens := [wOpen] }
     openOf d wItem.stream = some wOpen ∧ (wOpen.items.flatMap (·.bytes)).length + wItem.bytes.length ≤ 262144 ∧
      wOpen.items ≠ [] ∧ stagingUsed d + (wOpen.items.flatMap (·.bytes)).length ≤ 128 * 2 ^ 20) ∧
    (arcSt (wArc 3 ArcSt.reset) = 3 ∧ arcSt (wArc 2 ArcSt.reset) ≠ 3) ∧
    (let d := regs [(pgMel 3, F.MEL_HOST_EN, 0)] (wArc 2 wStaged)
     melHost d 3 = false ∧ getR d (pgMel 3) cSTATE = 0 ∧ arcSt d = 2 ∧ d.arc.staged = wBlock false false :: [] ∧
      d.arc.geo = some wGeo ∧ Store.get d.arc.openSeg 0 (volOf 35) = 3 + 1 ∧ (seg d 3).vol = volOf 35 ∧
      (seg d 3).used + (encodeBlock (arcHead (wBlock false false)) (arcLevel d 35 0) (arcDelta d 35) [1, 2, 3, 4]).1.length ≤
        segRoom d wGeo 3) ∧
    (let d := wJob ownRet (wArc 2 { ArcSt.reset with rets := [wRet (some [])] })
     d.arc.rets = wRet (some []) :: [] ∧ jobBegun d ownRet = true ∧ (wRet (some [])).decode = true ∧ d.arc.cancel = false ∧
      (wRet (some [])).todo = some []) ∧
    (let d := wArc 2 { ArcSt.reset with segs := [(3, { ArcSeg.reset with vol := 1, blocks := [wBlock true false] })] }
     (blocksIn d (fun z => z.logged && !z.durable)).head? = some (wBlock true false) ∧
      getR d pgArc F.ARC_LATE_BLOCKS < 2 ^ 32 ∧ (seg d 3).vol ≠ 0 ∧ (seg d 3).blocks[0]? = some (wBlock true false)) ∧
    (getR d0 pgArc F.ARC_REFRESH_BITS < 2 ^ 32 - 1 ∧ d0.almBad.length < 16384 ∧
      poisoned d0 (getR d0 pgArc F.ARC_SNAP_ADDR * 256) 4 = false) ∧
    (8 + b2n (jobBegun d0 ownRet) ≤ (wArc 2 { ArcSt.reset with rets := List.replicate 8 (wRet none) }).arc.rets.length ∧
      (wArc 2 { ArcSt.reset with rets := List.replicate 7 (wRet none) }).arc.rets.length < 8 ∧ jobRunning d0 ownRet = false) := by
  (repeat' apply And.intro) <;> decide +kernel

/-- Pin 3 on line 11 from 5, closed and not copied. -/
def wPin : PinSt := ⟨3, 11, 0, 0, 0, some 0, true, false, false⟩

/-- Segments: 0 in CONTINUOUS with a block of that window, 1 to 3 FREE, 2 erased most. -/
def wSegs (due : Option (Nat × Nat)) : Store ArcSeg :=
  [(0, { ArcSeg.reset with vol := 1, due := due, blocks := [wBlock true true] }), (1, { ArcSeg.reset with erases := 4 }),
   (2, { ArcSeg.reset with erases := 9 }), (3, { ArcSeg.reset with erases := 5 })]

theorem witness_ArchivePinsWearAndMount :
    (d0.pinAsk = [] ∧ arcSt d0 = 0 ∧ d0.pins.find? (fun p => p.end_.isSome && !p.closed) = none ∧
      d0.pins.find? (fun p => p.closed && !p.copied) = none ∧ jobBegun d0 ownWear = false ∧ arcTemp d0 = some 0 ∧ Reach d0 pgArc) ∧
    (let d := { wArc 2 ArcSt.reset with pinAsk := [⟨11, 0, 0, 5⟩] }
     d.pinAsk = ⟨11, 0, 0, 5⟩ :: [] ∧ openPins d < 256 ∧ getR d pgArc F.ARC_NEXT_PIN < 2 ^ 32 ∧
      heldSegs d % 65536 + 1 ≤ getR d pgArc F.ARC_PIN_HOLD_MAX) ∧
    ({ d0 with pins := [{ wPin with closed := false }] }.pins.find? (fun p => p.end_.isSome && !p.closed) =
      some { wPin with closed := false }) ∧
    (let d := wJob ownPin { wArc 2 { ArcSt.reset with segs := wSegs none } with pins := [wPin] }
     d.pins.find? (fun p => p.closed && !p.copied) = some wPin ∧ jobBegun d ownPin = true ∧
      blocksIn d (fun b => b.pin == 0 && inWindow wPin b) = wBlock true true :: [] ∧
      eventsFull d (wBlock true true).data.length = true ∧
      blocksIn d (fun b => b.pin == 0 && inWindow { wPin with line := 10 } b) = []) ∧
    (flagR (regs [(pgArc, F.ARC_EVT_KEEP, 1)] d0) pgArc F.ARC_EVT_KEEP = true) ∧
    (let d := wJob ownWear (wArc 2 { ArcSt.reset with segs := wSegs none })
     jobBegun d ownWear = true ∧ arcSt d = 2 ∧ 0 ∈ segsUsed d ∧ 2 ∈ segsUsed d ∧ (seg d 0).vol ≠ 0 ∧ (seg d 2).vol = 0 ∧
      (∀ k ∈ segsUsed d, ¬(seg d k).vol = 0 → k ≠ 0 → (seg d 0).erases < (seg d k).erases) ∧
      (∀ k ∈ segsUsed d, (seg d k).vol = 0 → k ≠ 2 → (seg d k).erases < (seg d 2).erases)) ∧
    (let d := wJob ownRefresh (wArc 2 { ArcSt.reset with segs := (wSegs (some (1, 4))).map (fun e =>
       (e.1, if e.1 = 0 then { e.2 with vol := 2 } else e.2)) })
     jobBegun d ownRefresh = true ∧ nextDue d = some 0 ∧ coldest d = some 1 ∧ (seg d 0).vol ≠ 0 ∧ (seg d 0).vol ≠ 1) ∧
    (let d := wJob ownRefresh (wArc 2 { ArcSt.reset with segs := wSegs (some (1, 4)) })
     nextDue d = some 0 ∧ (seg d 0).vol = 1 ∧ (reclaimable d (holding d)).head?.map (·.1) = some 0) ∧
    (let d := regs [(pgThermHub, F.THERM_TEMP_MEAN, 0x8000), (pgArc, F.ARC_AGE_SRC, 0)] (wArc 3 ArcSt.reset)
     arcSt d = 3 ∧ arcTemp d = none) ∧
    (arcSt (wArc 1 ArcSt.reset) = 1 ∧ ArcSt.reset.hasCkpt = false ∧ { ArcSt.reset with hasCkpt := true }.hasCkpt = true ∧
      (readGeometry (advance (regs [(pgNch 0, F.NCH_EN, 1), (pgNch 0, F.NCH_CE_MASK, 1)] (wArc 1 ArcSt.reset)) 5)
        [(0, [1, 8192, 976, 64, 4, 1, 1])]).arc.geo ≠ none) ∧
    (getR (regs [(pgArc, F.ARC_FMT_KEY, 0x464D)] (wArc 4 ArcSt.reset)) pgArc F.ARC_FMT_KEY = 0x464D ∧
      ¬((arcSt d0 = 0 ∨ arcSt d0 = 4) ∧ getR d0 pgArc F.ARC_FMT_KEY = 0x464D) ∧ arcSt (wArc 5 ArcSt.reset) = 5) := by
  (repeat' apply And.intro) <;> decide +kernel

/-- Engine 3 reserved for the host, a job of `n` bytes from 0 to 4,096 in its registers; the host reaches the DRAM. -/
def wMel (n : Nat) : Dev :=
  { regs [(pgDmc 0, F.DMC_RANK_STATE, 0x1111), (pgMel 3, F.MEL_HOST_EN, 1), (pgMel 3, F.MEL_SRC_LEN, n), (pgMel 3, F.MEL_DST, 4096),
      (pgMel 3, F.MEL_DST_LEN, 48)] d0 with rankMiB := 1024, mels := [(3, ⟨0, 1, false, 0, 0, 4, 4096, 48, 0⟩)] }

theorem witness_MelainJobsAndCheckUnits :
    (Reach d0 (pgMel 3) ∧ melRefuse d0 3 (melJob d0 3) = true ∧ melRefuse (wMel 8) 3 (melJob (wMel 8) 3) = false ∧
      Store.find d0.mels 3 = none ∧ Store.find (wMel 8).mels 3 = some ⟨0, 1, false, 0, 0, 4, 4096, 48, 0⟩ ∧
      poisoned (wMel 8) 0 4 = false ∧ poisoned (setDmc d0 0 { DmcSt.reset with poison := [0] }) 0 4 = true) ∧
    (Reach d0 pgChk ∧ flagR d0 pgChk (F.CHK_BUSY 7) = false ∧ flagR (regs [(pgChk, F.CHK_BUSY 7, 1)] d0) pgChk (F.CHK_BUSY 7) = true ∧
      Store.find d0.chkJobs 7 = none ∧ Store.find { d0 with chkJobs := [(7, (0, 64))] }.chkJobs 7 = some (0, 64)) ∧
    (let equal (d : Dev) : Prop := getR d pgChk (F.CHK_CRC_STATE 7) % 2 ^ (crcParm (getR d pgChk (F.CHK_POLY 7))).width ^^^
       (crcParm (getR d pgChk (F.CHK_POLY 7))).xorout =
       getR d pgChk (F.CHK_EXPECT 7) % 2 ^ (crcParm (getR d pgChk (F.CHK_POLY 7))).width
     equal (regs [(pgChk, F.CHK_CRC_STATE 7, 0), (pgChk, F.CHK_EXPECT 7, 2 ^ 32 - 1)] d0) ∧
      ¬equal (regs [(pgChk, F.CHK_CRC_STATE 7, 0), (pgChk, F.CHK_EXPECT 7, 0)] d0)) := by
  (repeat' apply And.intro) <;> decide

/-! ## Witnesses: the host interface, Pacer, resets, self-test -/

/-- The host reaches memory; Ethernet port 1 in mode 4 with its sub-port 3 up and its addresses set, PAUSE off or on. -/
def wHost (pause : Nat) : Dev :=
  { regs [(pgDmc 0, F.DMC_RANK_STATE, 0x1111), (pgPcie, cSTATE, 2), (pgPcie, F.PCIE_BME, 1), (pgEth 1, F.ETH_MODE, 4),
      (pgEth 1, F.ETH_LINK 3, 2), (pgEth 1, F.ETH_MAC 3, 9), (pgEth 1, F.ETH_IPV4 3, 0x0A000001), (pgEth 1, F.ETH_IPV6 3 0, 1),
      (pgRings, F.RINGS_BIND 31, 1)] d0 with rankMiB := 1024, net := { d0.net with ethCfg := [(1, pause * 512)] } }

theorem witness_PcieAndNetworkPorts :
    (ringBind (wHost 0) 31 = 1 ∧ flagR (wHost 0) pgPcie F.PCIE_D3HOT = false ∧
      flagR (regs [(pgPcie, F.PCIE_D3HOT, 1)] d0) pgPcie F.PCIE_D3HOT = true) ∧
    (hostReach (wHost 0) (bar2Addr (wHost 0) 0) = true ∧ hostReach (wHost 0) (bar2Addr (wHost 0) 0 + 64 - 1) = true ∧
      hostReach d0 (bar2Addr d0 (2 ^ 28 - 1)) = false) ∧
    (Reach (wHost 0) (pgEth 1) ∧ 4 % 8 = getR (wHost 0) (pgEth 1) F.ETH_MODE ∧ 7 % 8 ≠ getR (wHost 0) (pgEth 1) F.ETH_MODE) ∧
    (laneRuns (wHost 0) 1 = false ∧ laneRuns (regs [(pgLpu 1, F.LPUL_UNIT_STATE 7, 1)] d0) 1 = true ∧
      (∀ i < 4, getR d0 (pgEth 1) (F.ETH_LINK i) ≠ 2)) ∧
    (subUp (wHost 0) 1 3 = true ∧ 0x0A000001 = getR (wHost 0) (pgEth 1) (F.ETH_IPV4 3) ∧ subUp (wHost 0) 1 0 = false ∧
      subV6 (wHost 0) 1 3 = [1, 0, 0, 0] ∧ (∃ x ∈ [1, 0, 0, 0], x ≠ 0) ∧ [0x0A000001] ≠ [0] ∧
      getR (regs [(pgPace, F.PACE_PSTATE_NOW, 2)] d0) pgPace F.PACE_PSTATE_NOW = 2 ∧ getR d0 pgPace F.PACE_PSTATE_NOW ≠ 2 ∧ Store.get (wHost 0).net.echoSec 0 7 = taiSec (tai (advance (wHost 0) 5)) ∧
      Store.get (wHost 0).net.echoCount 0 7 < 100 ∧ 100 ≤ Store.get [(7, 100)] 0 7) ∧
    (bit (ethCfg (wHost 0) 1) 9 = false ∧ bit (ethCfg (wHost 1) 1) 9 = true ∧ Reach (wHost 0) pgFlows) := by
  (repeat' apply And.intro) <;> decide

/-- Ring 31 bound to the host (1) or flow 31 (2) with WR at `wr`, and an item of `n` bytes held since tick 5. -/
def wHeld (n : Nat) : Held := ⟨⟨31, List.replicate n 7, none, 0, 0, 0⟩, 3, 5⟩
def wRing (b wr n : Nat) : Dev :=
  setRing (regs [(pgRings, F.RINGS_BIND 31, b), (pgRings, F.RINGS_WR 31, wr), (pgRings, F.RINGS_RD 31, wr), (pgPcie, F.PCIE_BME, 1),
    (pgFlows, F.FLOWS_EN 31, 1), (pgRings, F.RINGS_FLOW 31, 31), (pgFlows, F.FLOWS_ETH 31, 1), (pgFlows, F.FLOWS_SUB 31, 3),
    (pgRings, F.RINGS_HOLD_US 31, 1)] (wHost 0)) 31 { RingSt.reset with held := [wHeld n], written := [(64, 3)] }

theorem witness_RingsCarryItems :
    ((ringSt d0 31).held = [] ∧ Reach d0 pgRings) ∧
    (∀ z ∈ (ringSt (wRing 1 0 4) 31).held, waits (wRing 1 0 4) 31 z.item = true ∨
      max (wRing 1 0 4).ticks 105 ≤ z.since + 100 * getR (wRing 1 0 4) pgRings (F.RINGS_HOLD_US 31)) ∧
    (dropCause (wRing 0 0 4) 31 (wHeld 4).item = none ∧ dropCause (regs [(pgFlows, F.FLOWS_EN 31, 0)] (wRing 2 0 4)) 31 (wHeld 4).item = some 2) ∧
    (dropCause (wRing 1 0 4) 31 (wHeld 4).item = none ∧ ringBind (wRing 1 0 4) 31 = 1 ∧ ringFits (wRing 1 0 4) 31 (wHeld 4).item = true) ∧
    (let d := regs [(pgRings, F.RINGS_RD 31, 64)] (wRing 1 0 4)
     getR d pgRings (F.RINGS_WR 31) + itemSpace (wHeld 4).item ≤ ringSize d 31 ∧ ringFits d 31 (wHeld 4).item = false) ∧
    (let d := wRing 1 4032 60
     ringSize d 31 - getR d pgRings (F.RINGS_WR 31) < itemSpace (wHeld 60).item ∧
      ringSize d 31 - getR d pgRings (F.RINGS_WR 31) ≤ ringFree d 31) ∧
    (ringBind (wRing 2 0 4) 31 ≠ 1 ∧ dropCause (wRing 2 0 4) 31 (wHeld 4).item = none ∧ flowReady (wRing 2 0 4) 31 = true ∧
      flowReady (regs [(pgEth 1, F.ETH_LINK 3, 0)] (wRing 2 0 4)) 31 = false ∧
      (wRing 2 0 4).ticks = (advance (wRing 2 0 4) 0).ticks) ∧
    (waits (wRing 1 0 4) 31 (wHeld 4).item = false ∧
      max (wRing 1 0 4).ticks 104 < (wHeld 4).since + 100 * getR (wRing 1 0 4) pgRings (F.RINGS_HOLD_US 31) ∧
      (wHeld 4).since + 100 * getR (wRing 1 0 4) pgRings (F.RINGS_HOLD_US 31) ≤ max (wRing 1 0 4).ticks 105) ∧
    (let d := setRing (wRing 1 0 4) 30 { RingSt.reset with held := [wHeld 4], losses := [⟨1, 1, 0, 0, 0⟩] }
     ringOf d 30 = some 30 ∧ (ringSt d 30).held ≠ [] ∧ (ringSt d 30).losses = [⟨1, 1, 0, 0, 0⟩] ∧ 1 ≠ taiSec (tai (advance d 5)) ∧
      ringBind (regs [(pgRings, F.RINGS_BIND 30, 1)] d) 30 ≠ 0) := by
  (repeat' apply And.intro) <;> decide

/-- Command entries (R414), their CRC-32C worked out apart from the model: WRITE 5 to 0x1014; the same with a wrong CRC. -/
def wWrite : List Nat := [67, 71, 1, 2, 7, 0, 0, 0, 20, 16, 0, 0, 5] ++ List.replicate 15 0 ++ [127, 60, 212, 45]
def wWrong : List Nat := [67, 71, 1, 2, 7, 0, 0, 0, 20, 16, 0, 0, 5] ++ List.replicate 19 0

/-- A command `e` in progress, or entries `q` in the queue of ring 28 bound to flows (2) or the host (1). -/
def wCmd (b : Nat) (q : List (List Nat)) (e : Option CmdEntry) (since : Option Nat) : Dev :=
  { regs [(pgRings, F.RINGS_BIND 28, b), (pgRings, F.RINGS_RD 28, 32), (pgFlows, F.FLOWS_EN 31, 1), (pgFlows, F.FLOWS_CMD_OK 31, 1),
      (pgFlows, F.FLOWS_DPORT 31, 9), (pgBtn, F.BTN_WIN_PKG, 7), (pgBtn, F.BTN_WIN_QTR, 0)] (wHost 0) with
    cmd := { d0.cmd with queue := q, cur := e, waitSince := since } }

/-- A command of operation `op` on `addr`. -/
def wOp (op addr : Nat) : CmdEntry := ⟨op, 7, if op = 1 then 2 else 0, addr, 5, 0xF, 1⟩

theorem witness_CommandsRunInOrder :
    (d0.cmd.cur = none ∧ ringStopped d0 28 = false ∧ flagR d0 pgRings (F.RINGS_MODE 29) = false ∧ (ringSt d0 29).held = [] ∧
      d0.cmd.waitSince = none ∧ ringBind d0 28 = 0) ∧
    (subUp (wCmd 2 [] none none) 1 3 = true ∧ ringBind (wCmd 2 [] none none) 28 = 2 ∧
      50100 = getR (wCmd 2 [] none none) pgFlows F.FLOWS_CMD_PORT ∧ (∃ f < 32, cmdFlow (wCmd 2 [] none none) false [0] 9 f = true) ∧
      2048 % 32 = 0 ∧ 256 < (wCmd 2 (List.replicate 193 []) none none).cmd.queue.length + 2048 / 32 ∧
      (wCmd 2 (List.replicate 192 []) none none).cmd.queue.length + 2048 / 32 ≤ 256) ∧
    ((wCmd 2 [wWrite] none none).cmd.queue = wWrite :: [] ∧ entryGood wWrite = true ∧ entryGood wWrong = false ∧
      wWrite.length = 32 ∧ wWrong.length = 32 ∧ (∀ x ∈ wWrite, x < 256) ∧ (∀ x ∈ wWrong, x < 256)) ∧
    (ringBind (wCmd 1 [] none none) 28 = 1 ∧ hostUp (wCmd 1 [] none none) = true ∧
      getR (wCmd 1 [] none none) pgRings (F.RINGS_WR 28) ≠ getR (wCmd 1 [] none none) pgRings (F.RINGS_RD 28) % ringSize (wCmd 1 [] none none) 28) ∧
    (∀ op ∈ [1, 2, 3, 4], let d := wCmd 1 [] (some (wOp op 0x1014)) none
      d.cmd.cur = some (wOp op 0x1014) ∧ (wOp op 0x1014).op = op ∧ d.cmd.away = false ∧ d.cmd.words = [] ∧ d.cmd.waitSince = none ∧
      d.cmd.old = none ∧ (busAccess (advance d 5) 1 0x1014 (decide (op = 2)) 4 5).1 = some (0, 0) ∧
      (busAccess (advance d 5) 1 0x1014 (decide (op = 2)) 4 5).2.cmd = d.cmd ∧
      (busAccess (advance d 5) 1 0x1018 false 4 0).1 = some (0, 0)) ∧
    (let d := regs [(pgRings, F.RINGS_WR 28, 32)] (wCmd 1 [] none none)
     getR d pgRings (F.RINGS_WR 28) = getR d pgRings (F.RINGS_RD 28) % ringSize d 28) ∧
    (let d := wCmd 1 [] (some { wOp 1 0x1014 with count := 2 }) none
     let d1 := (busAccess (advance d 5) 1 0x1014 false 4 0).2
     let c1 := { d.cmd with words := [0], status := 0, away := false }
     d.cmd.status = 0 ∧ d1.cmd = d.cmd ∧ (busAccess { d1 with cmd := c1 } 1 0x1018 false 4 0).1 = some (0, 0) ∧
      (busAccess { d1 with cmd := c1 } 1 0x1018 false 4 0).2.cmd = c1) ∧
    (let d := wCmd 1 [] (some (wOp 3 0x1014)) none
     let c1 := { d.cmd with old := some 0, status := lowStatus d.cmd.status 0, away := false }
     let d1 := { (busAccess (advance d 5) 1 0x1014 false 4 0).2 with cmd := c1 }
     (busAccess d1 1 0x1014 true 4 (modified (wOp 3 0x1014) 0)).1 = some (0, 0) ∧
      (busAccess d1 1 0x1014 true 4 (modified (wOp 3 0x1014) 0)).2.cmd = c1) ∧
    (let d := advance (wCmd 1 [] (some (wOp 4 0x1014)) none) 5
     let first := { d with cmd := { d.cmd with waitSince := some d.ticks, readAt := d.ticks } }
     (busAccess first 1 0x1014 false 4 0).1 = some (0, 0) ∧ (busAccess first 1 0x1014 false 4 0).2.cmd = first.cmd ∧
      (busAccess first 1 0x1014 false 4 0).2.ticks = d.ticks ∧ (busAccess first 1 0xC01014 false 4 0).1 = none) ∧
    (let d := wCmd 1 [] (some (wOp 1 0xC01014)) none
     (busAccess (advance d 5) 1 0xC01014 false 4 0).1 = none) ∧
    (let d := wCmd 1 [] (some (wOp 4 0x1014)) (some 5)
     let d1 := { advance d (max 5 (d.cmd.readAt + 100)) with cmd := { d.cmd with readAt := max d.ticks (max 5 (d.cmd.readAt + 100)) } }
     d.cmd.waitSince = some 5 ∧ (wOp 4 0x1014).op = 4 ∧ d.cmd.away = false ∧ 1 ≤ (wOp 4 0x1014).timeout ∧
      (busAccess d1 1 0x1014 false 4 0).1 = some (0, 0) ∧ (busAccess d1 1 0x1014 false 4 0).2.cmd = d1.cmd ∧
      (busAccess d1 1 0x1014 false 4 0).2.ticks = d1.ticks ∧
      0 &&& (wOp 4 0x1014).mask ≠ (wOp 4 0x1014).data ∧ 0 &&& (wOp 4 0x1014).mask = { wOp 4 0x1014 with data := 0 }.data ∧
      d1.ticks < 5 + 100 * (wOp 4 0x1014).timeout ∧ 0 + 100 * (wOp 4 0x1014).timeout ≤ d1.ticks) := by
  (repeat' apply And.intro) <;> decide +kernel

/-- Power state `k`, with a transition to `g` in progress. -/
def wPower (k : Nat) (g : Option (Nat × Nat)) : Dev :=
  { regs [(pgPace, F.PACE_PSTATE_NOW, k), (pgPace, F.PACE_WAKE_ALARM_S, 2 ^ 32 - 1), (pgPace, F.PACE_WAKE_EN, 1), (pgPace, F.PACE_WAKE_PIN, 15)] d0
    with pacer := { PacerSt.reset with goal := g, repDue := g.isSome } }

theorem witness_PacerRunsItsTick :
    (isFenced { d0 with fenced := [regService] } regService = true ∧ isFenced d0 regService = false) ∧
    (flagR (regs [(pgPace, F.PACE_PWR_EN, 0)] d0) pgPace F.PACE_PWR_EN = false ∧
      flagR (regs [(pgPace, F.PACE_PWR_EN, 1)] d0) pgPace F.PACE_PWR_EN = true ∧
      getR (regs [(pgPace, F.PACE_PWR_CAP, 0)] d0) pgPace F.PACE_PWR_CAP = 0) ∧
    (let d := { regs [(pgPace, F.PACE_AUTO, 1), (pgPace, F.PACE_STEPS, 16), (pgPace, F.PACE_STEP, 15), (pgPace, F.PACE_DOWN_MS, 1)] d0
       with pacer := { PacerSt.reset with runDown := 1 } }
     flagR d pgPace F.PACE_AUTO = true ∧ getR d pgPace F.PACE_STEP < min 16 (getR d pgPace F.PACE_STEPS) ∧ d.pacer.since = none ∧
      max 1 (getR d pgPace F.PACE_DOWN_MS) ≤ d.pacer.runDown) ∧
    flagR (regs [(pgPace, F.PACE_AUTO, 0)] d0) pgPace F.PACE_AUTO = false ∧
    (let d := regs [(pgPace, F.PACE_J_VALID 63, 1), (pgPace, F.PACE_J_FORCED 63, 1), (pgPace, F.PACE_J_VALID 0, 1), (pgPace, F.PACE_H, 65535)] d0
     jValid d 63 = true ∧ jForced d 63 = true ∧ paceH d < 0 ∧ jValid d 0 = true ∧ jForced d 0 = false) ∧
    (d0.pacer.gains.length = 9 ∧ flagR (regs [(pgPace, F.PACE_TELEM_EN 8, 1)] d0) pgPace (F.PACE_TELEM_EN 8) = true ∧
      (4 / 5 : Rat) ≤ 1 ∧ (1 : Rat) ≤ 5 / 4) ∧
    (Reach d0 pgPace ∧ getR (regs [(pgPace, F.PACE_JOB_CLASS, 1)] d0) pgPace F.PACE_JOB_CLASS < 2 ∧ 2 ≤ getR (regs [(pgPace, F.PACE_JOB_CLASS, 2)] d0) pgPace F.PACE_JOB_CLASS ∧
      jValid d0 48 = false ∧ (let d := regs ((List.range 15).map (fun i => (pgPace, F.PACE_J_VALID (48 + i), 1))) d0
        jValid d 63 = false ∧ ∀ i < 63, 48 ≤ i → jValid d i = true)) ∧
    (d0.pacer.power = 0 ∧ { PacerSt.reset with power := 1 }.power ≠ 0 ∧ pState (wPower 1 none) = 1 ∧ (wPower 1 none).boot.stop = none ∧
      Reach (wPower 1 none) pgPace ∧ pState d0 = 0 ∧ d0.boot.failed = false ∧ ∀ n < 12, (line d0 n).waitWake = false) ∧
    ((wPower 1 (some (2, 4))).pacer.goal = some (2, 4) ∧ allOff (wPower 1 (some (2, 4))) = true ∧
      pState (wPower 2 (some (0, 4))) = 2 ∧ (wPower 2 (some (0, 4))).pacer.goal = some (0, 4)) ∧
    (getR d0 pgPace F.PACE_WAKE_ALARM_S = 0 ∧ getR (wPower 2 none) pgPace F.PACE_WAKE_ALARM_S = 2 ^ 32 - 1 ∧
      (wPower 2 none).pacer.goal = none ∧ flagR (wPower 2 none) pgPace F.PACE_WAKE_EN = true ∧
      getR (wPower 2 none) pgPace F.PACE_WAKE_PIN = 15 ∧ d0.pacer.repDue = false ∧ (wPower 2 (some (0, 4))).pacer.repDue = true) := by
  (repeat' apply And.intro) <;> first | decide | norm_num

theorem witness_ResetsAndBackupDomain :
    (getR d0 pgBkp F.BKP_VALID = 0 ∧ getR (regs [(pgBkp, F.BKP_VALID, 1)] d0) pgBkp F.BKP_VALID = 1 ∧ d0.boot.offAlarm = 0) ∧
    (d0.boot.stop = none ∧ d0.boot.failed = false ∧ pState d0 ≠ 2 ∧ pState (wPower 2 none) = 2) ∧
    (let d := { regs [(pgBkp, F.BKP_VALID, 1)] d0 with boot := { d0.boot with supply := false, offAlarm := 2 ^ 32 - 1 } }
     d.boot.offAlarm ≠ 0 ∧ d.boot.offAlarm < 2 ^ 32 ∧ flagR d pgBkp F.BKP_VALID = true ∧ d.boot.supply = false) ∧
    (flagR d0 pgBkp F.BKP_VBAT_LOW = false ∧ flagR d0 pgBkp F.BKP_OSC_FAIL = false) := by
  (repeat' apply And.intro) <;> decide

/-- The start at stage `k`, the Archive in state `s`. -/
def wStage (k s : Nat) : Dev := regs [(pgPkg, F.PKG_BOOT_STAGE, k), (pgArc, cSTATE, s), (pgPkg, F.PKG_LC_TARGET, 1),
  (pgPkg, F.PKG_LINE_AUTO_S, 3)] d0

theorem witness_StartsLifeCycleWatchdogAndLineResets :
    (getR (wStage 5 1) pgPkg F.PKG_BOOT_STAGE = 5 ∧ arcSt (wStage 5 1) = 1 ∧ 5 < getR (wStage 6 0) pgPkg F.PKG_BOOT_STAGE ∧
      (wStage 0 0).boot.stop = none ∧ getR (wStage 0 0) pgPkg F.PKG_BOOT_STAGE = 0 ∧ bistQuiet d0 = true ∧ d0.boot.cfg = [] ∧
      d0.boot.dram = false ∧ arcSt (wStage 5 0) ≠ 1 ∧ d0.bist = none) ∧
    ([0, 1].getD 1 0 = 1 ∧ [0, 1].getD 0 0 ≠ 1 ∧ [1, 0].getD 0 0 = 1) ∧
    (lcGood d0 d0.boot.fuseLc true true = false ∧ lcGood (wStage 6 0) (wStage 6 0).boot.fuseLc true true = true) ∧
    (wdogRuns d0 = false ∧ wdogRuns (wStage 6 0) = true ∧ wdogArmed (wStage 6 0) = false ∧
      wdogArmed { wStage 6 0 with boot := { d0.boot with expiries := [60000000000, 7, 0] } } = true) ∧
    ((line d0 11).base = 0 ∧ isFenced d0 11 = false ∧ (line (wLine { LineSt.reset with base := 6 }) 11).base = 6 ∧
      isFenced { d0 with fenced := [11] } 11 = true) ∧
    (Store.get d0.boot.freeAt 0 11 = 0 ∧ Store.get (Store.set d0.boot.freeAt 0 11 900) 0 11 = 899 + 1) ∧
    (getR d0 pgPkg F.PKG_LINE_AUTO_S = 0 ∧ Store.get d0.boot.frozenAt 0 11 = 0 ∧ getR (wStage 6 0) pgPkg F.PKG_LINE_AUTO_S ≠ 0 ∧
      Store.get (Store.set d0.boot.frozenAt 0 11 900) 0 11 ≠ 0) ∧
    (flagL (lives [(pgLine 11, F.LINE_RUN, 1)] d0) (pgLine 11) F.LINE_RUN = true ∧ linesHeld d0 = false) := by
  (repeat' apply And.intro) <;> decide

/-- A shut-down in step `k`. -/
def wStop (k : Nat) (r : Option Nat) : Dev := { d0 with boot := { d0.boot with stop := some ⟨k, 1, r⟩ } }

theorem witness_ShutDownSmbusAndPowerFail :
    (d0.boot.stop = none ∧ d0.boot.failed = false ∧ pState d0 ≠ 2 ∧ pState (wPower 2 none) = 2) ∧
    (∀ k ∈ [1, 2, 3, 4, 5], (wStop k none).boot.stop = some ⟨k, 1, none⟩) ∧
    (bistQuiet (wStop 3 none) = true ∧ bistQuiet { wStop 3 none with bist := some ⟨1, 0, 0, [(11, 0)], none, 0, [], []⟩ } = false ∧
      (wStop 3 (some 7)).boot.stop = some ⟨3, 1, some 7⟩ ∧ (wStop 4 none).bist = none) ∧
    (0x60 + pkgIndex d0 = 0x60 ∧ (wPower 2 none).pacer.goal = none) := by
  (repeat' apply And.intro) <;> decide

/-- LPU page `i`, its unit 7 (0 on LPU2 and LPU3, which have two units: 1) in state `k`. -/
def wLane (i u k : Nat) : Dev := regs [(pgLpu i, F.LPUL_UNIT_STATE u, k), (pgLpu i, F.LPUL_LOOP u, 0)] d0

/-- A run of the self-test with slice `c` under test and `todo` still to begin. -/
def wBist (c : Option (Nat × Nat × Nat)) (todo : List (Nat × Nat)) : Dev := { d0 with bist := some ⟨0, 0, 0, todo, c, 0, [], []⟩ }

theorem witness_PatternUnitsAndSelfTests :
    (Reach d0 (pgLpu 0) ∧ Reach d0 (pgLpu 2) ∧ lpuUnits 2 ≤ 2 ∧ 1 < lpuUnits 2 ∧ 7 < lpuUnits 0 ∧
      getR (wHost 0) pgPcie cSTATE ≠ 0 ∧ getR d0 pgPcie cSTATE = 0 ∧ getR d0 (pgLpu 0) (F.LPUL_UNIT_STATE 7) = 0) ∧
    (getR (wLane 0 7 1) (pgLpu 0) (F.LPUL_UNIT_STATE 7) = 1 ∧ getR (wLane 1 7 2) (pgLpu 1) (F.LPUL_UNIT_STATE 7) = 2 ∧
      lpuLoop (wLane 1 7 2) 1 7 = 0) ∧
    (Reach d0 (pgLpu 3) ∧ Reach d0 (pgLpu 4) ∧ getR d0 (pgLpu 3) (F.LPUB_UNIT_STATE 1) ≠ 2 ∧ 1 < lpuUnits 3 ∧ 7 < lpuUnits 4 ∧
      flagR (regs [(pgLpu 3, F.LPUB_SCOPE 1, 1)] (wDmc 1 0 0)) (pgLpu 3) (F.LPUB_SCOPE 1) = true ∧
      getR (regs [(pgLpu 3, F.LPUB_RANK 1, 3)] (wDmc 1 0 0)) (pgLpu 3) (F.LPUB_RANK 1) = 3 ∧ rankState (wDmc 1 0 0) 1 3 = 1 ∧
      arcSt (wArc 5 ArcSt.reset) = 5 ∧ arcSt d0 = 0 ∧
      getR (regs [(pgLpu 4, F.LPUB_UNIT_STATE 7, 2)] d0) (pgLpu 4) (F.LPUB_UNIT_STATE 7) = 2) ∧
    ((wBist (some (11, 7, 4)) [(11, 8)]).bist = some ⟨0, 0, 0, [(11, 8)], some (11, 7, 4), 0, [], []⟩ ∧
      (∃ x ∈ [(11, 8)], x.1 = 11) ∧ (∀ x ∈ [(10, 8)], x.1 ≠ 11) ∧
      (⟨1, 0, 0, [(11, 8)], none, 0, [], []⟩ : BistSt).cause = 1 ∧ (⟨1, 0, 0, [(11, 8)], none, 0, [], []⟩ : BistSt).todo ≠ []) ∧
    (d0.bist = none ∧ (wBist none [(11, 0)]).bist ≠ none ∧ Store.get d0.boot.freeAt 0 11 = 0 ∧
      max (wBist none [(11, 0)]).ticks 499999999 < budgetEnd d0 ⟨0, 0, 0, [(11, 0)], none, 0, [], []⟩) ∧
    (analogue 11 6 = true ∧ analogue 11 7 = false ∧ (wBist (some (11, 7, 4)) [(11, 8)]).bist ≠ none ∧
      max d0.ticks (max 5 (sliceCut d0 ⟨0, 0, 0, [(11, 8)], some (11, 7, 4), 0, [], []⟩ 4)) <
        budgetEnd d0 ⟨0, 0, 0, [(11, 8)], some (11, 7, 4), 0, [], []⟩) ∧
    (Reach d0 pgBist ∧ 6 ≤ getR (wStage 6 0) pgPkg F.PKG_BOOT_STAGE ∧ pState d0 ≠ 2 ∧
      bistTodo (wStage 6 0) ((List.range 12).filter (fun n => (line (wStage 6 0) n).base == 0)) ≠ [] ∧
      bistTodo (regs [(pgBist, F.BIST_REGIONS, 2 ^ 17 - 4096)] d0) ((List.range 12).filter (fun n => (line d0 n).base == 0)) = []) := by
  (repeat' apply And.intro) <;> decide

/-! ## The spec's own examples -/

/-- A command with an operand outside its range is refused through `exec`. -/
theorem test_exec_refuses_ill_formed : exec (.planCheckEval 0 12) State.reset = .refused .noSuchUnit := rfl

/-- The CAT example of chapter 02: PAGE_ID, PAGE_INFO and ENTRY_HI of the FRAME page of L3, and ENTRY_HI of the
coefficient window of L3 S2. -/
theorem test_catalogue_of_line3 :
    pageId (pgFrame 3) .frame = 0x01070001 ∧ pageInfo (pgFrame 3) = 0x00010301 ∧ pgFrame 3 = 0x4CE ∧
    entryHi (pgFrame 3, false) = 0x003014CE ∧ entryHi (pgCoef 3 2, true) = 0x033014F4 ∧ catalogue.length = 579 := by
  decide +kernel

/-- The CRC check values of chapter 16, over the digits 1 to 9. -/
theorem test_crc_check_values :
    let m := [0x31, 0x32, 0x33, 0x34, 0x35, 0x36, 0x37, 0x38, 0x39]
    crcOf crc32cP m = 0xE3069283 ∧ crcOf crc32P m = 0xCBF43926 ∧ crcOf crc16P m = 0x29B1 ∧
    crcOf crc64P m = 0x995DC9BBDF1939FA := by decide +kernel

/-- The small block of chapter 16: ABCABCABCABCABCX at level 1, stream 37. -/
def exBytes : List Nat := [65, 66, 67, 65, 66, 67, 65, 66, 67, 65, 66, 67, 65, 66, 67, 88]
def exBlock : List Nat := (encodeBlock ⟨37, 1, 1, 0⟩ 1 false exBytes).1

theorem test_encode_example :
    exBlock.length = 49 ∧ exBlock.take 5 = [0x4C, 0x4D, 0x01, 0x10, 0x25] ∧
    (exBlock.drop 32).take 9 = [0x02, 0x41, 0x42, 0x43, 0x89, 0x02, 0x00, 0x00, 0x58] := by decide +kernel

theorem test_decode_example :
    decodeBlock exBlock = (0, exBytes) ∧
    decodeBlock (exBlock.set 37 5) = (3, [0x41, 0x42, 0x43] ++ List.replicate 13 0) ∧
    (decodeBlock (exBlock.set 45 (exBlock.getD 45 0 ^^^ 1))).1 = 2 := by decide +kernel

/-- The fragment header of chapter 17: index 18 of 19 of frame 1,234,000 on ring 3. -/
theorem test_fragment_header :
    fragHeader 3 18 19 160848 1234000 =
      [0x53, 0x47, 0x01, 0x03, 0x12, 0x00, 0x13, 0x00, 0x50, 0x74, 0x02, 0x00, 0x50, 0xD4, 0x12, 0x00] := by decide

/-- The house line L3 of chapters 03, 04, 06 and 07 as software stages it, with `slots` slots. -/
def house (plan chirp taps step : Nat) (freqs : List Nat) : Dev :=
  let w (d : Dev) (e : Nat × Nat × Nat) : Dev := (busAccess d 0 (e.1 * 4096 + e.2.1) true 4 e.2.2).2
  let d := regs [(pgPkg, F.PKG_LC_STATE, 2)] d0
  let d := [(pgLine 3, 0x40, plan), (pgLine 3, 0x44, 0x9C40), (pgLine 3, 0x4C, 0x927C), (pgStarter 3, 0x48, 0x1414),
    (pgGauge 3, 0x40, 0x6000A), (pgResamp 3, 0x40, step), (pgResamp 3, 0x4C, 0x927C), (pgResamp 3, 0x50, 0x3200),
    (pgResamp 3, 0x54, 0x118BE), (pgFrame 3, 0x40, 0x3260)].foldl w d
  (List.range freqs.length).foldl (fun d s =>
    let d := regs [(pgSlot 3 s, F.SLOT_SEALED0, 1)] d
    [(pgLine 3, 0x60 + 4 * s, freqs.getD s 0), (pgStarter 3, 0x60 + 8 * s, 0x112C0), (pgStarter 3, 0x64 + 8 * s, chirp),
      (pgSlot 3 s, 0x40, taps)].foldl w d) d

def house4 : Dev := house 0x000A0403 0xE6613880 0x001400F0 0x28000 [0x020DB610, 0x020F3CB0, 0x0200C350, 0x020249F0]

/-- Eight slots at 50 MS/s, −175 to +175 MHz, with this WAVE_B word. -/
def house8 (chirp : Nat) : Dev :=
  house 0x000A0803 chirp 0x00140078 0x50000
    [0x010D5468, 0x010E17B8, 0x010EDB08, 0x010F9E58, 0x010061A8, 0x010124F8, 0x0101E848, 0x0102AB98]

/-- The staged words read back, and the plan passes. -/
theorem test_plan_check_passes_house_plan :
    getS house4 (pgLine 3) (F.LINE_FREQ 0) = -150000 ∧ getR house4 (pgStarter 3) (F.STARTER_AMP 3) = 3686 ∧
    getR house4 (pgStarter 3) (F.STARTER_CHIRP_BW 0) = 80000 ∧ getR house4 (pgFrame 3) F.FRAME_PSCALE = 6 ∧
    planCheck house4 .staged 3 = (0, 0, 0) := by decide +kernel

/-- The house line after a commit of that plan, its next slot-0 instant at tick 400. -/
def house4Runs : Dev :=
  let d := (stagedFields 3).foldl (fun d e => putLive d e.1 e.2.1 (getR d e.1 e.2.1)) house4
  setLine d 3 { line d 3 with base := 1, next := some 400 }

/-- A COMMIT on L3 whose check passes can wait, on a line that runs and on one that does not. -/
theorem witness_CommitsWaitApplyOrAreWithdrawn_plan :
    ((line house4 3).plan = none ∧ (line house4 3).next = none ∧ Reach house4 (pgSlot 3 7) ∧ pgSlot 3 7 ∈ linePages 3) ∧
    ((planCheck house4Runs .staged 3).1 = 0 ∧ planDiffers house4Runs 3 = false ∧ (line house4Runs 3).next = some 400 ∧
      400 < max house4Runs.ticks 201 + 200 ∧ max house4Runs.ticks 200 + 200 ≤ 400) := by decide +kernel

/-- Eight slots at 50 MS/s: a chirp left at 80 MHz fails with reason 10, slot 0, page 1; at 40 MHz the plan passes. -/
theorem test_plan_check_refuses_wide_chirp :
    planCheck (house8 0xE6613880) .staged 3 = (10, 0, 1) ∧ planCheck (house8 0xE6609C40) .staged 3 = (0, 0, 0) := by
  decide +kernel

/-- M, the NCO words and the throughput of the house plan. -/
theorem test_house_derived_values :
    binsOf 37500 0x177DBF48 2 = 36731 ∧ ncoWord (-150000) false = 0xB3333333 ∧ ncoWord (-50000) false = 0xE6666666 ∧
    ncoWord 50000 false = 0x1999999A ∧ ncoWord 150000 false = 0x4CCCCCCD ∧ pADiv house4 .staged 3 = 400 ∧
    pSLine house4 .staged 3 = 150000000 ∧ pBLine house4 .staged 3 = 338506000 := by decide +kernel

/-- A plan record of the house line. -/
def housePlan : PlanRec :=
  ⟨7, 10, 6, false, 4, 40000, 2, 0x177DBF48, 36731, 240, 200000, 0x28000, 0, 1024, 37500, 0x3200, 0, 6, 2, true, true, true, false,
    none, [], 0, 0, 0, 0, none⟩

/-- Positions, frame interval and the supports at the ends of the settled span, with the fibre start at 12.5 m. -/
theorem test_house_gauge_supports :
    positionsOf housePlan = 36721 ∧ imOf housePlan = 10000 ∧ ioutOf housePlan = 655360000 * 5 / 2 ∧
    aDivOf housePlan = 400 ∧ (support housePlan 239).1 - 3 = 238 ∧ (support housePlan 240).1 - 3 = 239 ∧
    (support housePlan 37478).1 + 4 = 36720 ∧ (support housePlan 37479).1 + 4 = 36721 := by decide +kernel

/-- A raw sample of 7,000 at code 12, with zero offset and unit trim, becomes y = 55,867. -/
theorem test_conditioning_example :
    conditionY (regs [(pgCal 3, F.CAL_OFS 0, 0), (pgCal 3, F.CAL_TRIM 0, 524288)] d0) (pgCal 3) 0 24 12 7000 = 55867 := by
  decide +kernel

/-- The derating limit at 64.5 °C is 2,943. -/
theorem test_derating_example : derateLimit d0 3 8256 = 2943 := by decide +kernel

/-- The time of a start edge: K1 1,100, K2 2,900, V = 2,783 and the clock edge −6,000 ps after the reference. -/
theorem test_photo_finish_example :
    pfTime (regs [(pgPf 2, F.PF_K1 0, 17600), (pgPf 2, F.PF_K2 0, 46400)] d0) 2 0 100 2783 = 200000 - 2000 - 1870 := by
  decide +kernel

/-- The Pacer example: h_T = 40 at 13,389, h_P = 154 at 38,200 of 45,000 mW, h_W = 332 at ratio 173. -/
theorem test_pacer_headroom_example :
    headClamp (8 * (13440 - 13389) / 10) = 40 ∧ share 45000 38200 = 154 ∧ headClamp (4 * (256 - 173)) = 332 := by decide +kernel

/-- The loop example of chapter 12: SP 7,680, y 7,616, KP 200, KI 2, I = 20,000: u = 32,928. -/
theorem test_loop_example :
    let d := setLoop (regs [(pgLoop, F.LOOP_OUT_NOW 0, 30000), (pgLoop, F.LOOP_LSTATE 0, 1)] (lives [(pgLoop, F.LOOP_SP 0, 7680),
      (pgLoop, F.LOOP_KP 0, 0xC80000), (pgLoop, F.LOOP_KI 0, 0x20000), (pgLoop, F.LOOP_OUT_MAX 0, 65535)] d0)) 0
      { LoopSt.reset with on := true, first := false, i := 20000 * 65536, yPrev := 7616 }
    getR (loopCompute d 0 7616) pgLoop (F.LOOP_OUT_NOW 0) = 32928 := by decide +kernel

/-- The daily byte budget of chapter 15. -/
theorem test_wear_budget_example :
    (rne ((2199023255552 * 1000 : Nat) : Int) 3650).toNat = 602472124809 := by decide

/-- The kernel of chapter 09: what each word of the loop does, on a core running at address 5. -/
def exCore : CoreSt :=
  { CoreSt.reset with
    regs := [(0, 0x00030005), (2, 9), (7, 2344), (31, 9372), (51, 9376), (50, 9376)], mem := [(0, 77)],
    pc := 5 }

theorem test_kernel_encodings :
    (insLd exCore 0x60440004).now = [(30, 4)] ∧ (insLd exCore 0x60440004).late = [(1, 77)] ∧
    address exCore 0x688C0004 = (9372, 0) ∧
    (insBdec exCore 0x91C00FFC).target = some 1 ∧ (insBdec exCore 0x91C00FFC).now = [(7, 2343)] ∧
    (insMac { exCore with pc := 0 } 0xC0000000).now = [(20, 25)] ∧
    (insMova exCore 0xD4400000).now = [(20, 0)] ∧ (insExt exCore 0xCC800800).fault = none := by decide +kernel

end Sys2Proof.Tests
end

section
/-! PROOFS. What the proofs of commands share: a command as its effect, the keys of fields, counters. -/

namespace Sys2Proof.Machine

open Sys2Proof

/-! ### How a command's effect becomes a statement -/

/-- A command of `act` that is well-formed gives its effect on a part that takes commands. -/
theorem gives_of_act {c : Instr} {ok : Bool} {s : State} {f : Dev → Dev} (h : exec c s = act ok s f) (hok : ok = true)
    (hs : Awake s) : Gives c s (f s.dev) := by
  rw [Gives, h, act_next hok hs]

/-- Equal devices settle equally. -/
theorem Gives.of_eq {c : Instr} {s : State} {d e : Dev} (h : Gives c s d) (he : d = e) : Gives c s e := he ▸ h

/-! ### Keys: one lemma for two fields of a page, one for two pages -/

/-- The bit address of a field within its page. -/
def fldAt (f : Fld) : Nat := f.off * 32 + f.lsb

theorem key_eq (p : Nat) (f : Fld) : key p f = p * 131072 + fldAt f := by simp only [key, fldAt]; omega

/-- Two fields at different bits of a page have different keys. -/
theorem key_ne_fld (p : Nat) {f g : Fld} (h : fldAt f ≠ fldAt g) : key p f ≠ key p g := by
  rw [key_eq, key_eq]; omega

/-- Fields of different pages have different keys. -/
theorem key_ne_page {p q : Nat} {f g : Fld} (h : p ≠ q) (hf : fldAt f < 131072) (hg : fldAt g < 131072) :
    key p f ≠ key q g := by
  rw [key_eq, key_eq]; omega

/-- A write leaves the other fields of its page alone. -/
theorem getR_setR_fld (d : Dev) (p : Nat) {f g : Fld} (v : Nat) (h : fldAt f ≠ fldAt g) :
    getR (setR d p f v) p g = getR d p g := getR_setR_ne d v (key_ne_fld p h)

/-- A write leaves other pages alone. -/
theorem getR_setR_page (d : Dev) {p q : Nat} {f g : Fld} (v : Nat) (h : p ≠ q) (hf : fldAt f < 131072)
    (hg : fldAt g < 131072) : getR (setR d p f v) q g = getR d q g := getR_setR_ne d v (key_ne_page h hf hg)

/-! ### Counters -/

/-- A counter's step is a write of its field. -/
theorem addC_eq (d : Dev) (p : Nat) (f : Fld) (n : Nat) :
    addC d p f n = setR d p f (if f.width ≤ 32 then min (getR d p f + n) (2 ^ f.width - 1) else getR d p f + n) := by
  unfold addC; split <;> rfl

/-- A counter of up to 32 bits saturates (R50). -/
theorem getR_addC_narrow (d : Dev) (p : Nat) {f : Fld} (n : Nat) (h : f.width ≤ 32) :
    getR (addC d p f n) p f = min (getR d p f + n) (2 ^ f.width - 1) := by
  rw [addC_eq, if_pos h, getR_setR_self]
  exact Nat.mod_eq_of_lt (lt_of_le_of_lt (min_le_right _ _) (Nat.sub_lt (Nat.two_pow_pos _) one_pos))

/-- A wider counter wraps (R50). -/
theorem getR_addC_wide (d : Dev) (p : Nat) {f : Fld} (n : Nat) (h : 32 < f.width) :
    getR (addC d p f n) p f = (getR d p f + n) % 2 ^ f.width := by
  rw [addC_eq, if_neg (by omega), getR_setR_self]

/-- A counter's step leaves the other fields of its page alone. -/
theorem getR_addC_fld (d : Dev) (p : Nat) {f g : Fld} (n : Nat) (h : fldAt f ≠ fldAt g) :
    getR (addC d p f n) p g = getR d p g := by rw [addC_eq, getR_setR_fld _ _ _ h]

@[simp] theorem addC_evt (d : Dev) (p : Nat) (f : Fld) (n : Nat) : (addC d p f n).evt = d.evt := by rw [addC_eq]; rfl
@[simp] theorem addC_mem (d : Dev) (p : Nat) (f : Fld) (n : Nat) : (addC d p f n).mem = d.mem := by rw [addC_eq]; rfl
@[simp] theorem addC_bridges (d : Dev) (p : Nat) (f : Fld) (n : Nat) : (addC d p f n).bridges = d.bridges := by
  rw [addC_eq]; rfl

end Sys2Proof.Machine

namespace Sys2Proof.Machine

/-! ### Folds over devices -/

/-- A reflexive, transitive relation that every step of a fold has, the fold has. -/
theorem foldl_rel {α : Type} {R : Dev → Dev → Prop} (hrefl : ∀ d, R d d) (htrans : ∀ a b c, R a b → R b c → R a c)
    {f : Dev → α → Dev} {l : List α} (h : ∀ d, ∀ a ∈ l, R d (f d a)) (d : Dev) : R d (l.foldl f d) := by
  induction l generalizing d with
  | nil => exact hrefl d
  | cons a l ih =>
    exact htrans _ _ _ (h d a (by simp)) (ih (fun d b hb => h d b (by simp [hb])) _)

/-- What one step of a fold brings about, where `I` holds, and the later ones keep, holds after the fold. -/
theorem foldl_attains {α : Type} {I P : Dev → Prop} {f : Dev → α → Dev} {l : List α} {a : α} (ha : a ∈ l)
    (hI : ∀ d, ∀ b ∈ l, I d → I (f d b)) (hset : ∀ d, I d → P (f d a)) (hkeep : ∀ d, ∀ b ∈ l, I d → P d → P (f d b))
    {d : Dev} (hd : I d) : P (l.foldl f d) := by
  have hkeeps : ∀ l' : List α, (∀ b ∈ l', b ∈ l) → ∀ d, I d → P d → P (l'.foldl f d) := by
    intro l'
    induction l' with
    | nil => exact fun _ d _ hp => hp
    | cons b l' ih =>
      intro hl d hi hp
      have hb := hl b (by simp)
      exact ih (fun c hc => hl c (by simp [hc])) _ (hI d b hb hi) (hkeep d b hb hi hp)
  have hgo : ∀ l' : List α, (∀ b ∈ l', b ∈ l) → a ∈ l' → ∀ d, I d → P (l'.foldl f d) := by
    intro l'
    induction l' with
    | nil => intro _ h; simp at h
    | cons b l' ih =>
      intro hl h d hi
      have hsub : ∀ c ∈ l', c ∈ l := fun c hc => hl c (by simp [hc])
      have hb := hl b (by simp)
      rcases List.mem_cons.1 h with rfl | h
      · exact hkeeps l' hsub _ (hI d a hb hi) (hset d hi)
      · exact ih hsub h _ (hI d b hb hi)
  exact hgo l (fun _ h => h) ha d hd

/-- The device after `onlyIf` is one of two. -/
theorem onlyIf_rel {R : Dev → Dev → Prop} (hrefl : ∀ d, R d d) {f : Dev → Dev} (d : Dev) (c : Bool) (h : R d (f d)) :
    R d (onlyIf c f d) := by
  cases c
  · exact hrefl d
  · exact h

end Sys2Proof.Machine

end

section
/-! PROOFS. What reset leaves (R12, R63, R439). -/

open Sys2Proof Sys2Proof.Machine

/-- Settles O3: the sparse tables list nothing after reset, so every field, event word, unit and line reads its default, and
no source of the interrupt tree is pending. -/
theorem resetLeavesRegistersAtReset : Obligations.ResetLeavesRegistersAtReset := by
  have hact : vecsActive State.reset.dev = [] := by decide +kernel
  refine ⟨rfl, fun _ _ => rfl, fun _ => rfl, fun _ _ => rfl, fun _ => rfl, rfl, rfl, rfl, ?_, reset_mem_wf⟩
  exact ⟨by rw [hact]; rfl, rfl⟩

end

section
/-! PROOFS. Bridges: flits, retrains, waiting reads and frames (R30, R33–R35, R338). -/

namespace Sys2Proof.Machine

open Sys2Proof

/-! ### Bridges (R33–R35) -/

@[simp] theorem bridge_advance (d : Dev) (t b : Nat) : bridge (advance d t) b = bridge d b := rfl
@[simp] theorem bridge_settle (d : Dev) (b : Nat) : bridge (settle d) b = bridge d b := by simp [bridge]
@[simp] theorem bridge_setR (d : Dev) (p : Nat) (f : Fld) (v b : Nat) : bridge (setR d p f v) b = bridge d b := rfl
@[simp] theorem bridge_addC (d : Dev) (p : Nat) (f : Fld) (n b : Nat) : bridge (addC d p f n) b = bridge d b := by
  simp [bridge]
@[simp] theorem bridge_raise (d : Dev) (p v b : Nat) : bridge (raise d p v) b = bridge d b := rfl
@[simp] theorem bridge_setBridge (d : Dev) (b : Nat) (x : BridgeSt) : bridge (setBridge d b x) b = x := by
  simp [bridge, setBridge]
@[simp] theorem getR_setBridge (d : Dev) (b : Nat) (x : BridgeSt) (p : Nat) (f : Fld) :
    getR (setBridge d b x) p f = getR d p f := rfl
@[simp] theorem vcFree_advance (d : Dev) (t b : Nat) (up : Bool) (vc : Nat) :
    vcFree (advance d t) b up vc = vcFree d b up vc := rfl
@[simp] theorem isFenced_advance (d : Dev) (t r : Nat) : isFenced (advance d t) r = isFenced d r := rfl
@[simp] theorem frame_advance (d : Dev) (t n : Nat) : frame (advance d t) n = frame d n := rfl

/-- A peak is kept by writing its own field, or not at all. -/
theorem peak_cases (d : Dev) (p : Nat) (f : Fld) (v : Nat) : peak d p f v = d ∨ ∃ w, peak d p f v = setR d p f w := by
  unfold peak; split
  · exact Or.inr ⟨_, rfl⟩
  · exact Or.inl rfl

theorem heldPeak_cases (d : Dev) (b : Nat) :
    heldPeak d b = d ∨ ∃ w, heldPeak d b = setR d (pgBridge b) F.BRIDGE_HELD_PEAK w := by
  unfold heldPeak; split
  · exact peak_cases ..
  · exact Or.inl rfl

/-- What the start of a retrain leaves: LINK_STATE 1, RETRAIN_COUNT one more, event 9; REPLAY_COUNT as it was. -/
theorem retrain_spec (d : Dev) (b : Nat) (h : (bridge d b).retraining = false) :
    (bridge (retrain d b) b).retraining = true ∧ getR (retrain d b) (pgBridge b) F.BRIDGE_LINK_STATE = 1 ∧
    getR (retrain d b) (pgBridge b) F.BRIDGE_RETRAIN_COUNT =
      min (getR d (pgBridge b) F.BRIDGE_RETRAIN_COUNT + 1) (2 ^ 32 - 1) ∧
    getR (retrain d b) (pgBridge b) F.BRIDGE_REPLAY_COUNT = getR d (pgBridge b) F.BRIDGE_REPLAY_COUNT ∧
    (evtRaw (retrain d b) (pgBridge b)).testBit 9 = true ∧ (retrain d b).mem = d.mem := by
  let x : BridgeSt := { bridge d b with failRun := 0, retraining := true, since := d.ticks }
  let e := raise (bump (setR (setBridge d b x) (pgBridge b) F.BRIDGE_LINK_STATE 1) (pgBridge b) F.BRIDGE_RETRAIN_COUNT)
    (pgBridge b) 9
  have he : (bridge e b).retraining = true ∧ getR e (pgBridge b) F.BRIDGE_LINK_STATE = 1 ∧
      getR e (pgBridge b) F.BRIDGE_RETRAIN_COUNT = min (getR d (pgBridge b) F.BRIDGE_RETRAIN_COUNT + 1) (2 ^ 32 - 1) ∧
      getR e (pgBridge b) F.BRIDGE_REPLAY_COUNT = getR d (pgBridge b) F.BRIDGE_REPLAY_COUNT ∧
      (evtRaw e (pgBridge b)).testBit 9 = true ∧ e.mem = d.mem := by
    refine ⟨by simp [e, bump, x], ?_, ?_, ?_, raise_bit .., by simp [e, bump, setBridge]⟩
    · simp only [e, bump, getR_raise]; rw [getR_addC_fld _ _ _ (by decide), getR_setR_self]; rfl
    · simp only [e, bump, getR_raise]
      rw [getR_addC_narrow _ _ _ (by decide), getR_setR_fld _ _ _ (by decide)]; rfl
    · simp only [e, bump, getR_raise]
      rw [getR_addC_fld _ _ _ (by decide), getR_setR_fld _ _ _ (by decide)]; rfl
  have hr : retrain d b = heldPeak e b := by simp only [retrain, h]; rfl
  rw [hr]
  obtain hp | ⟨w, hp⟩ := heldPeak_cases e b <;> rw [hp]
  · exact he
  · obtain ⟨h1, h2, h3, h4, h5, h6⟩ := he
    refine ⟨h1, ?_, ?_, ?_, h5, h6⟩
    · rw [getR_setR_fld _ _ _ (by decide), h2]
    · rw [getR_setR_fld _ _ _ (by decide), h3]
    · rw [getR_setR_fld _ _ _ (by decide), h4]

/-! Commands as their effects. -/

theorem gives_bridgeFlit {s : State} {b vc : Nat} (t : Nat) (up : Bool) (len : Nat) (ok : Bool) (free : Nat)
    (h1 : 1 ≤ b) (h3 : b < 3) (hv : vc < 4) (hs : Awake s) :
    Gives (.bridgeFlit t b up ⟨vc, len, free⟩ ok) s (doFlit t b up vc len ok free s.dev) :=
  gives_of_act rfl (by simp [h1, h3, hv]) hs

theorem gives_bridgeRetrain {s : State} {b : Nat} (t : Nat) (h1 : 1 ≤ b) (h3 : b < 3) (hs : Awake s) :
    Gives (.bridgeRetrain t b) s (retrain (advance s.dev t) b) := gives_of_act (f := fun d => retrain (advance d t) b) rfl (by simp [h1, h3]) hs

theorem gives_bridgeRetrainDone {s : State} {b : Nat} (t : Nat) (h1 : 1 ≤ b) (h3 : b < 3) (hs : Awake s) :
    Gives (.bridgeRetrainDone t b) s (doRetrainDone t b s.dev) := gives_of_act rfl (by simp [h1, h3]) hs

theorem gives_bridgeReadTimeout {s : State} {b : Nat} (t : Nat) (h1 : 1 ≤ b) (h3 : b < 3) (hs : Awake s) :
    Gives (.bridgeReadTimeout t b) s (doReadTimeout t b s.dev) := gives_of_act rfl (by simp [h1, h3]) hs

theorem gives_bridgeFrameArrive {s : State} {n : Nat} (t : Nat) (hn : n < 12) (hs : Awake s) :
    Gives (.bridgeFrameArrive t n) s (doFrameArrive t n s.dev) := gives_of_act rfl (by simp [hn]) hs

/-! What a flit does, branch by branch (R33, R35). -/

section
variable {d : Dev} {t b : Nat} {up : Bool} {vc len free : Nat} (hr : (bridge d b).retraining = false)
include hr

theorem doFlit_good (hc : vcFree d b up vc = true) :
    doFlit t b up vc len true free d =
      addC (setBridge (advance d t) b { bridge d b with
          failRun := 0,
          used := Store.set (bridge d b).used 0 (vcKey up vc) (Store.get (bridge d b).used 0 (vcKey up vc) + 1 - free) })
        (pgBridge b) (if up then F.BRIDGE_UP_BYTES else F.BRIDGE_DOWN_BYTES) len := by
  simp [doFlit, hr, hc]

theorem doFlit_waits (ok : Bool) (hc : vcFree d b up vc = false) :
    doFlit t b up vc len ok free d =
      setBridge (advance d t) b { bridge d b with
        used := Store.set (bridge d b).used 0 (vcKey up vc) (Store.get (bridge d b).used 0 (vcKey up vc) - free) } := by
  simp [doFlit, hr, hc]

theorem doFlit_replays (hc : vcFree d b up vc = true)
    (hl : (bridge d b).failRun < max 1 (getR d (pgBridge b) F.BRIDGE_REPLAY_LIMIT)) :
    doFlit t b up vc len false free d =
      raise (bump (setBridge (advance d t) b { bridge d b with failRun := (bridge d b).failRun + 1 }) (pgBridge b)
        F.BRIDGE_REPLAY_COUNT) (pgBridge b) 8 := by
  simp only [doFlit, bridge_advance, hr, vcFree_advance, hc, getR_advance, not_le.2 hl]; rfl

theorem doFlit_retrains (hc : vcFree d b up vc = true)
    (hl : max 1 (getR d (pgBridge b) F.BRIDGE_REPLAY_LIMIT) ≤ (bridge d b).failRun) :
    doFlit t b up vc len false free d = retrain (advance d t) b := by
  simp only [doFlit, bridge_advance, hr, vcFree_advance, hc, getR_advance, hl]; rfl

end

/-! What the arrival of a frame does, branch by branch (R30, R34, R338). -/

/-- The bridge is not UP, or its FRAME channel has no credit: the frame stays. -/
theorem doFrameArrive_stays {d : Dev} {n : Nat} (t : Nat)
    (h : getR d (pgBridge (dieOf n)) F.BRIDGE_LINK_STATE ≠ 2 ∨ vcFree d (dieOf n) true 0 = false ∨ (frame d n).out = []) :
    doFrameArrive t n d = advance d t := by
  cases ho : (frame d n).out with
  | nil => simp [doFrameArrive, ho]
  | cons f r =>
    have hwait : (bridge d (dieOf n)).retraining = true ∨ getR d (pgBridge (dieOf n)) F.BRIDGE_LINK_STATE ≠ 2 ∨
        (!vcFree d (dieOf n) true 0) = true := by
      obtain h | h | h := h
      · exact Or.inr (Or.inl h)
      · exact Or.inr (Or.inr (by simp [h]))
      · rw [ho] at h; cases h
    simp only [doFrameArrive, frame_advance, ho, bridge_advance, getR_advance, vcFree_advance, if_pos hwait]

section
variable {d : Dev} {n : Nat} {f : OutFrame} {r : List OutFrame} (ho : (frame d n).out = f :: r)
  (hr : (bridge d (dieOf n)).retraining = false) (hl : getR d (pgBridge (dieOf n)) F.BRIDGE_LINK_STATE = 2)
  (hc : vcFree d (dieOf n) true 0 = true)
include ho hr hl hc

theorem doFrameArrive_fenced (t : Nat) (hf : isFenced d regMemory = true) :
    doFrameArrive t n d =
      freeShelf (setFrame (advance d t) n { frame d n with out := r }) (dieOf n) (frameReq n) f.shelves := by
  simp [doFrameArrive, ho, hr, hl, hc, hf]

theorem doFrameArrive_crosses (t : Nat) (hf : isFenced d regMemory = false)
    (hs : (takeShelves (advance d t) 0 (dieOf n - 1) f.shelves).1 = true) :
    doFrameArrive t n d =
      (let e := (takeShelves (advance d t) 0 (dieOf n - 1) f.shelves).2
       frameAtHub (freeShelf (setFrame e n { frame e n with out := r }) (dieOf n) (frameReq n) f.shelves) n f) := by
  simp [doFrameArrive, ho, hr, hl, hc, hf, hs]

end

end Sys2Proof.Machine

open Sys2Proof Sys2Proof.Machine


/-- Settles O17, branch by branch of the bridge's commands. -/
theorem bridgesReplayAndCarryFrames : Obligations.BridgesReplayAndCarryFrames := by
  unfold Obligations.BridgesReplayAndCarryFrames
  constructor
  · intro s t b h1 h3 hs x
    refine ⟨?_, ?_, ?_, ?_, ?_, ?_, ?_, ?_⟩
    · intro up vc len free hv hr hc
      exact (gives_bridgeFlit t up len true free h1 h3 hv hs).of_eq (doFlit_good hr hc)
    · intro up vc len ok free hv hr hc
      exact (gives_bridgeFlit t up len ok free h1 h3 hv hs).of_eq (doFlit_waits hr ok hc)
    · intro up vc len free hv hr hc hl
      exact (gives_bridgeFlit t up len false free h1 h3 hv hs).of_eq (doFlit_replays hr hc hl)
    · intro up vc len free hv hr hc hl
      obtain ⟨hx, hst, -, hrep, hev, hm⟩ := retrain_spec (advance s.dev t) b hr
      refine does_of_gives ((gives_bridgeFlit t up len false free h1 h3 hv hs).of_eq (doFlit_retrains hr hc hl)) ?_
      simpa using ⟨hx, hst, hev, hrep, hm⟩
    · intro hr
      obtain ⟨hx, hst, hrt, -, hev, hm⟩ := retrain_spec (advance s.dev t) b hr
      exact does_of_gives (gives_bridgeRetrain t h1 h3 hs) (by simpa using ⟨hx, hst, hrt, hev, hm⟩)
    · intro hr
      exact (gives_bridgeRetrainDone t h1 h3 hs).of_eq (if_pos hr)
    · intro q r hq
      refine (gives_bridgeReadTimeout t h1 h3 hs).of_eq ?_
      have hu (n : Nat) : 100 * n = usT n := Nat.mul_comm 100 n
      simp only [doReadTimeout, hu]
      rw [show (bridge s.dev b).reads = q :: r from hq]
      rfl
    · intro hq
      refine (gives_bridgeReadTimeout t h1 h3 hs).of_eq ?_
      simp only [doReadTimeout]
      rw [show (bridge s.dev b).reads = [] from hq]
  · intro s t n hn hs
    have hg := gives_bridgeFrameArrive t hn hs
    exact ⟨fun f r ho hr hl hc hf ht => hg.of_eq (doFrameArrive_crosses ho hr hl hc t hf ht),
      fun f r ho hr hl hc hf => hg.of_eq (doFrameArrive_fenced ho hr hl hc t hf),
      fun hc => hg.of_eq (doFrameArrive_stays t (Or.inr (Or.inl hc))),
      fun hl => hg.of_eq (doFrameArrive_stays t (Or.inl hl)),
      fun ho => hg.of_eq (doFrameArrive_stays t (Or.inr (Or.inr ho)))⟩

end

section
/-! PROOFS. Pipe words, settling periods and merged samples (R134, R146, R150, R156–R161). -/

namespace Sys2Proof.Machine

open Sys2Proof

/-! ### Pipe words at the Frame cluster (R19, R24, R134, R150) -/

@[simp] theorem gauge_advance (d : Dev) (t n : Nat) : gauge (advance d t) n = gauge d n := rfl
@[simp] theorem toFrame_advance (d : Dev) (t n k : Nat) : toFrame (advance d t) n k = toFrame d n k := rfl
@[simp] theorem gauge_settle (d : Dev) (n : Nat) : gauge (settle d) n = gauge d n := by simp [gauge]
@[simp] theorem frame_settle (d : Dev) (n : Nat) : frame (settle d) n = frame d n := by simp [frame]
@[simp] theorem toFrame_settle (d : Dev) (n k : Nat) : toFrame (settle d) n k = toFrame d n k := by simp [toFrame]
@[simp] theorem gauge_setGauge (d : Dev) (n : Nat) (x : GaugeSt) : gauge (setGauge d n x) n = x := by
  simp [gauge, setGauge]
@[simp] theorem frame_setFrame (d : Dev) (n : Nat) (x : FrameSt) : frame (setFrame d n x) n = x := by
  simp [frame, setFrame]
@[simp] theorem toFrame_setToFrame (d : Dev) (n k : Nat) (l : List Nat) : toFrame (setToFrame d n k l) n k = l := by
  simp [toFrame, setToFrame]
@[simp] theorem gauge_setToFrame (d : Dev) (n k m : Nat) (l : List Nat) :
    gauge (setToFrame d n k l) m = gauge d m := rfl

@[simp] theorem toFrame_setGauge (d : Dev) (n m k : Nat) (x : GaugeSt) : toFrame (setGauge d n x) m k = toFrame d m k := rfl
@[simp] theorem setGauge_regs (d : Dev) (n : Nat) (x : GaugeSt) : (setGauge d n x).regs = d.regs := rfl
@[simp] theorem setGauge_evt (d : Dev) (n : Nat) (x : GaugeSt) : (setGauge d n x).evt = d.evt := rfl
@[simp] theorem setGauge_mem (d : Dev) (n : Nat) (x : GaugeSt) : (setGauge d n x).mem = d.mem := rfl
@[simp] theorem setToFrame_regs (d : Dev) (n k : Nat) (l : List Nat) : (setToFrame d n k l).regs = d.regs := rfl
@[simp] theorem setToFrame_evt (d : Dev) (n k : Nat) (l : List Nat) : (setToFrame d n k l).evt = d.evt := rfl
@[simp] theorem setToFrame_mem (d : Dev) (n k : Nat) (l : List Nat) : (setToFrame d n k l).mem = d.mem := rfl

theorem gives_pipeWord {s : State} {n k : Nat} (t : Nat) (hn : n < 12) (hk : k < 4) (hs : Awake s) :
    Gives (.pipeWord t ⟨n, k⟩) s (doPipeWord t n k s.dev) := gives_of_act rfl (by simp [hn, hk]) hs

theorem gives_pipeSettled {s : State} {n k : Nat} (t : Nat) (hn : n < 12) (hk : k < 8) (hs : Awake s) :
    Gives (.pipeSettled t n k) s (doPipeSettled t n k s.dev) := gives_of_act rfl (by simp [hn, hk]) hs

theorem gives_gaugeSettled {s : State} {n : Nat} (t : Nat) (hn : n < 12) (hs : Awake s) :
    Gives (.gaugeSettled t n) s (doGaugeSettled t n s.dev) := gives_of_act rfl (by simp [hn]) hs

theorem gives_mergedSample {s : State} {n : Nat} (t : Nat) (hn : n < 12) (hs : Awake s) :
    Gives (.mergedSample t n) s (doMerged t n s.dev) := gives_of_act rfl (by simp [hn]) hs

/-- A pipe without a window emits nothing. -/
theorem emitPipe_idle {d : Dev} {n s : Nat} (h : (pipe d n s).wins = []) : emitPipe n d s = d := by
  simp [emitPipe, h]

/-- A Pipe cluster without a window and without a word does nothing. -/
theorem pumpPipes_idle {d : Dev} {n k : Nat} (fuel : Nat) (h0 : (pipe d n (2 * k)).wins = [])
    (h1 : (pipe d n (2 * k + 1)).wins = []) (hf : (relay d n k).fifo = []) : pumpPipes n k fuel d = d := by
  cases fuel with
  | zero => rfl
  | succ fuel => simp [pumpPipes, emitPipe_idle h0, emitPipe_idle h1, hf]

theorem doPipeWord_none {d : Dev} {n k : Nat} (t : Nat) (h : toFrame d n k = []) :
    doPipeWord t n k d = advance d t := by simp [doPipeWord, h]

theorem doPipeWord_word {d : Dev} {n k m : Nat} {r : List Nat} (t : Nat) (h : toFrame d n k = m :: r) :
    doPipeWord t n k d = pumpPipes n k 10 (pipeWord (setToFrame (advance d t) n k r) n k m) := by
  simp [doPipeWord, h]

/-- A word that completes a launch: it is ready. -/
theorem pipeWord_skipped {d : Dev} {n k m : Nat} (h47 : bit m 47 = true) (h45 : bit m 45 = true) :
    pipeWord d n k m = setGauge d n { gauge d n with
      arriving := Store.erase (gauge d n).arriving (2 * k + bits m 46 1), ready := (gauge d n).ready ++ [⟨wordLaunch m, []⟩] } := by
  have hs : (wordLaunch m).skipped = true := h45
  simp [pipeWord, h47, hs]

/-- The bins of a launch after a word's samples. -/
theorem takeBins_length (a : LaunchBins) (bs : List BinS) :
    (takeBins a bs).bins.length = a.bins.length + min 4 (a.launch.bins - a.bins.length) := by
  simp [takeBins]

/-- A word of bins goes on with the launch that is arriving; with the last bin the launch is ready. -/
theorem pipeWord_bins {d : Dev} {n k m : Nat} {a : LaunchBins} (h47 : bit m 47 = false)
    (ha : Store.find (gauge d n).arriving (2 * k + bits m 46 1) = some a) (hs : a.launch.skipped = false) :
    let b := takeBins a ((List.range 4).map (fun q => wordBin (bits m (64 * q) 64)))
    let j := 2 * k + bits m 46 1
    pipeWord d n k m = setGauge d n
      (if a.launch.bins ≤ a.bins.length + 4
       then { gauge d n with arriving := Store.erase (gauge d n).arriving j, ready := (gauge d n).ready ++ [b] }
       else { gauge d n with arriving := Store.insert (Store.erase (gauge d n).arriving j) j b }) := by
  intro b j
  have hlen : (a.launch.bins ≤ b.bins.length) ↔ a.launch.bins ≤ a.bins.length + 4 := by
    rw [takeBins_length]; omega
  have hb : b.launch = a.launch := rfl
  have hw : pipeWord d n k m =
      (if b.launch.skipped || decide (b.launch.bins ≤ b.bins.length)
       then setGauge d n { gauge d n with arriving := Store.erase (gauge d n).arriving j, ready := (gauge d n).ready ++ [b] }
       else setGauge d n { gauge d n with arriving := Store.insert (Store.erase (gauge d n).arriving j) j b }) := by
    simp only [pipeWord, h47, ha]; rfl
  rw [hw, hb, hs]
  simp only [Bool.false_or, decide_eq_true_eq, hlen]
  split <;> rfl

/-- What a word leaves when its cluster has nothing else to do. -/
theorem doPipeWord_only {d : Dev} {n k m : Nat} {r : List Nat} {x : GaugeSt} (t : Nat) (h : toFrame d n k = m :: r)
    (h0 : (pipe d n (2 * k)).wins = []) (h1 : (pipe d n (2 * k + 1)).wins = []) (hf : (relay d n k).fifo = [])
    (hw : pipeWord (setToFrame (advance d t) n k r) n k m = setGauge (setToFrame (advance d t) n k r) n x) :
    doPipeWord t n k d = setGauge (setToFrame (advance d t) n k r) n x := by
  rw [doPipeWord_word t h, hw]
  exact pumpPipes_idle 10 h0 h1 hf

/-! ### Settling (R146, R161) -/

theorem doPipeSettled_ends {d : Dev} {n k : Nat} (t : Nat) (h2 : getR d (pgSlot n k) cSTATE = 2)
    (hs : (pipe d n k).settle = 0) (hw : (pipe d n k).wins = []) :
    doPipeSettled t n k d = raise (setR (advance d t) (pgSlot n k) cSTATE 1) (pgSlot n k) 10 :=
  if_pos ⟨h2, hs, by show (pipe d n k).wins.all _ = true; rw [hw]; rfl⟩

theorem doPipeSettled_not {d : Dev} {n k : Nat} (t : Nat)
    (h : getR d (pgSlot n k) cSTATE ≠ 2 ∨ (pipe d n k).settle ≠ 0) : doPipeSettled t n k d = advance d t :=
  if_neg fun hc => h.elim (fun h => h hc.1) (fun h => h hc.2.1)

theorem doGaugeSettled_ends {d : Dev} {n : Nat} (t : Nat) (h2 : getR d (pgGauge n) cSTATE = 2)
    (hs : (gauge d n).settle = 0) (hc : (gauge d n).clears = []) :
    doGaugeSettled t n d = raise (setR (advance d t) (pgGauge n) cSTATE 1) (pgGauge n) 8 := if_pos ⟨h2, hs, hc⟩

theorem doGaugeSettled_not {d : Dev} {n : Nat} (t : Nat)
    (h : getR d (pgGauge n) cSTATE ≠ 2 ∨ (gauge d n).settle ≠ 0) : doGaugeSettled t n d = advance d t :=
  if_neg fun hc => h.elim (fun h => h hc.1) (fun h => h hc.2.1)

/-! ### Merged samples (R156–R159) -/

@[simp] theorem earlierDue_advance (d : Dev) (t n at_ : Nat) : earlierDue (advance d t) n at_ = earlierDue d n at_ := rfl

/-- The earliest of launches of one instant is the first. -/
theorem foldl_earliest (a : LaunchBins) (l : List LaunchBins) (h : ∀ b ∈ l, b.launch.at_ = a.launch.at_) :
    (a :: l).foldl (fun m b => if b.launch.at_ < m.launch.at_ then b else m) a = a := by
  rw [List.foldl_cons, if_neg (lt_irrefl _)]
  induction l with
  | nil => rfl
  | cons b l ih =>
    rw [List.foldl_cons, if_neg (by rw [h b (by simp)]; exact lt_irrefl _)]
    exact ih fun c hc => h c (by simp [hc])

theorem doMerged_none {d : Dev} {n : Nat} (t : Nat) (h : (gauge d n).ready = []) : doMerged t n d = advance d t := by
  simp [doMerged, h]

section
variable {d : Dev} {n : Nat} {a : LaunchBins} {l : List LaunchBins} (hr : (gauge d n).ready = a :: l)
  (hl : ∀ b ∈ l, b.launch.at_ = a.launch.at_)
include hr hl

/-- The launches that one merged sample takes: all of one instant in DIVERSITY mode, else the first. -/
theorem doMerged_eq (t : Nat) :
    doMerged t n d =
      (let d := advance d t
       let e := a.launch.at_
       let p := planOf d n a.launch.plan
       let ls := if p.div then a :: l else [a]
       if earlierDue d n e || (p.div && decide (ls.length < p.slots)) then d
       else
         let clear := (gauge d n).clears.any (fun c => decide (c ≤ e))
         let x := reachClears p { gauge d n with ready := (a :: l).filter (fun l => !ls.contains l) } e
         let own := 8 * b2n (isStale d (pgGauge n) 0)
         let d := ls.foldl (fun d l => keepAmps d n l) d
         let skipped := ls.all (fun l => l.launch.skipped)
         if p.div then
           let v := mergeDiv p x own ls
           putMerged d n p { v.1 with phi := x.phi } e clear skipped v.2.1 v.2.2.1 [] v.2.2.2.1 v.2.2.2.2
         else
           let v := mergeRate p x own a
           putMerged d n p v.1 e clear skipped v.2.1 v.2.2.1 v.2.2.2.1 v.2.2.2.2 0) := by
  have hls : (a :: l).filter (fun b => b.launch.at_ == a.launch.at_) = a :: l := by
    rw [List.filter_eq_self]
    intro b hb
    rcases List.mem_cons.1 hb with rfl | hb
    · exact beq_self_eq_true _
    · exact beq_iff_eq.2 (hl b hb)
  simp only [doMerged, gauge_advance, hr, foldl_earliest a l hl, hls]

theorem doMerged_waits (t : Nat) (he : earlierDue d n a.launch.at_ = true) : doMerged t n d = advance d t := by
  rw [doMerged_eq hr hl]; simp [he]

end

/-- RATE mode: the one launch makes its sample (R157). -/
theorem doMerged_rate {d : Dev} {n : Nat} {a : LaunchBins} (t : Nat) (hr : (gauge d n).ready = [a])
    (he : earlierDue d n a.launch.at_ = false) (hp : (planOf (advance d t) n a.launch.plan).div = false) :
    doMerged t n d =
      (let e := a.launch.at_
       let clear := (gauge d n).clears.any (fun c => decide (c ≤ e))
       let p := planOf (advance d t) n a.launch.plan
       let x := reachClears p { gauge d n with ready := [] } e
       let v := mergeRate p x (8 * b2n (isStale d (pgGauge n) 0)) a
       putMerged (keepAmps (advance d t) n a) n p v.1 e clear a.launch.skipped v.2.1 v.2.2.1 v.2.2.2.1 v.2.2.2.2 0) := by
  rw [doMerged_eq hr (by simp)]
  simp [he, hp]
  rfl

/-- DIVERSITY mode: the launches of all enabled slots make one (R158). -/
theorem doMerged_diversity {d : Dev} {n : Nat} {a : LaunchBins} {l : List LaunchBins} (t : Nat)
    (hr : (gauge d n).ready = a :: l) (hl : ∀ b ∈ l, b.launch.at_ = a.launch.at_)
    (he : earlierDue d n a.launch.at_ = false) (hp : (planOf (advance d t) n a.launch.plan).div = true)
    (hs : (planOf (advance d t) n a.launch.plan).slots ≤ l.length + 1) :
    doMerged t n d =
      (let e := a.launch.at_
       let clear := (gauge d n).clears.any (fun c => decide (c ≤ e))
       let p := planOf (advance d t) n a.launch.plan
       let x := reachClears p { gauge d n with ready := [] } e
       let v := mergeDiv p x (8 * b2n (isStale d (pgGauge n) 0)) (a :: l)
       putMerged ((a :: l).foldl (fun d b => keepAmps d n b) (advance d t)) n p { v.1 with phi := x.phi } e clear
         ((a :: l).all (fun b => b.launch.skipped)) v.2.1 v.2.2.1 [] v.2.2.2.1 v.2.2.2.2) := by
  have hf : (a :: l).filter (fun b => !(a :: l).contains b) = [] := by
    rw [List.filter_eq_nil_iff]
    intro b hb; simpa [or_iff_not_imp_left] using hb
  have hc : decide ((a :: l).length < (planOf (advance d t) n a.launch.plan).slots) = false := by
    simpa using hs
  rw [doMerged_eq hr hl]
  simp only [earlierDue_advance, he, hp, hc, hf, if_true, Bool.false_or, Bool.and_false, Bool.false_eq_true, if_false]
  rfl

/-- A sum of zeros. -/
theorem sumI_zeros (l : List Int) (h : ∀ v ∈ l, v = 0) : sumI l = 0 := by
  unfold sumI
  induction l with
  | nil => rfl
  | cons v l ih => rw [List.foldl_cons, h v (by simp)]; exact ih fun w hw => h w (by simp [hw])

/-- A channel of rates that are all 0 is 0. -/
theorem channelOf_zero (p : PlanRec) {rs : List ChanV} (j : Nat) (h : ∀ r ∈ rs, r.v = 0) : (channelOf p rs j).v = 0 := by
  have hget (k : Nat) : (rs.getD k ⟨0, 1⟩).v = 0 := by
    rw [List.getD_eq_getElem?_getD]
    cases hk : rs[k]? with
    | none => rfl
    | some r => exact h r (List.mem_of_getElem? hk)
  have hsum (ts : List Int) (vs : List ChanV) (hv : ∀ v ∈ vs, v.v = 0) :
      sumI ((ts.zip vs).map (fun q => q.1 * q.2.v)) = 0 := by
    refine sumI_zeros _ fun w hw => ?_
    obtain ⟨q, hq, rfl⟩ := List.mem_map.1 hw
    rw [hv q.2 (List.of_mem_zip hq).2, mul_zero]
  have hz : sat40 (rne 0 65536) = 0 := by decide
  unfold channelOf
  simp only
  rw [hsum _ _ ?_, hz]
  intro v hv
  obtain ⟨t, -, rfl⟩ := List.mem_map.1 hv
  split
  · rfl
  · exact hget _

@[simp] theorem gauge_addC (d : Dev) (p : Nat) (f : Fld) (v n : Nat) : gauge (addC d p f v) n = gauge d n := by
  rw [addC_eq]; rfl
@[simp] theorem frame_addC (d : Dev) (p : Nat) (f : Fld) (v n : Nat) : frame (addC d p f v) n = frame d n := by
  rw [addC_eq]; rfl
@[simp] theorem gauge_setFrame (d : Dev) (n m : Nat) (x : FrameSt) : gauge (setFrame d n x) m = gauge d m := rfl
@[simp] theorem frame_setGauge (d : Dev) (n m : Nat) (x : GaugeSt) : frame (setGauge d n x) m = frame d m := rfl

/-- The latest entry of a list cut to its last ones. -/
theorem getLast?_drop_snoc {α : Type} (l : List α) (a : α) (k : Nat) (h : k ≤ l.length) :
    ((l ++ [a]).drop k).getLast? = some a := by
  rw [List.drop_append_of_le_length h, List.getLast?_append]; rfl

/-- The registers of the gauge page after a merged sample of a skipped instant. -/
theorem putMerged_skipped_regs (d : Dev) (n : Nat) (p : PlanRec) (x : GaugeSt) (at_ : Nat) (clear : Bool) (phi : List Int)
    (marks : List Nat) (e : List Int) :
    ∃ d0 : Dev, d0.regs = d.regs ∧ d0.evt = d.evt ∧ d0.mem = d.mem ∧
      putMerged d n p x at_ clear true phi marks e 0 0 =
        bump (addC (addC (bump d0 (pgGauge n) F.GAUGE_MERGED) (pgGauge n) F.GAUGE_RESYNCS 0) (pgGauge n) F.GAUGE_NULL_SUMS 0)
          (pgGauge n) F.GAUGE_SKIPPED_SAMPLES := ⟨setFrame (setGauge d n _) n _, rfl, rfl, rfl, rfl⟩

/-- The merged sample of a skipped instant: every rate 0, Φ as given, counted as merged and as skipped, no event (R156,
R159). -/
theorem putMerged_skipped (d : Dev) (n : Nat) (p : PlanRec) (x : GaugeSt) (at_ : Nat) (clear : Bool) (phi : List Int)
    (marks : List Nat) (e : List Int) :
    let d' := putMerged d n p x at_ clear true phi marks e 0 0
    (gauge d' n).ready = x.ready ∧ (gauge d' n).phi = phi ∧
    (∃ m, (frame d' n).merged.getLast? = some m ∧ m.at_ = at_ ∧ m.plan = p.id ∧ m.chans.length = p.channels ∧
      ∀ c ∈ m.chans, c.v = 0) ∧
    getR d' (pgGauge n) F.GAUGE_SKIPPED_SAMPLES = min (getR d (pgGauge n) F.GAUGE_SKIPPED_SAMPLES + 1) (2 ^ 32 - 1) ∧
    getR d' (pgGauge n) F.GAUGE_MERGED = (getR d (pgGauge n) F.GAUGE_MERGED + 1) % 2 ^ 64 ∧
    getR d' (pgGauge n) F.GAUGE_RESYNCS = min (getR d (pgGauge n) F.GAUGE_RESYNCS) (2 ^ 32 - 1) ∧
    d'.evt = d.evt ∧ d'.mem = d.mem := by
  intro d'
  have hgauge : (gauge d' n).ready = x.ready ∧ (gauge d' n).phi = phi := by
    simp [d', putMerged, raiseOn, onlyIf, bump]
  have hmerged : ∃ m, (frame d' n).merged.getLast? = some m ∧ m.at_ = at_ ∧ m.plan = p.id ∧
      m.chans.length = p.channels ∧ ∀ c ∈ m.chans, c.v = 0 := by
    simp only [d', putMerged, raiseOn, onlyIf, bump, lt_irrefl, decide_false, Bool.false_and, Bool.false_eq_true, if_false,
      if_true, frame_addC, frame_setFrame]
    refine ⟨_, getLast?_drop_snoc _ _ _ (by omega), rfl, rfl, by simp, ?_⟩
    intro c hc
    obtain ⟨j, -, rfl⟩ := List.mem_map.1 hc
    exact channelOf_zero p j fun r hr => by obtain ⟨k, -, rfl⟩ := List.mem_map.1 hr; rfl
  obtain ⟨d0, hregs, hevt, hmem, hd⟩ := putMerged_skipped_regs d n p x at_ clear phi marks e
  have hgetR (f : Fld) : getR d0 (pgGauge n) f = getR d (pgGauge n) f := getR_congr hregs _ _
  refine ⟨hgauge.1, hgauge.2, hmerged, ?_⟩
  rw [show d' = _ from hd]
  refine ⟨?_, ?_, ?_, by simp [bump, hevt], by simp [bump, hmem]⟩
  · rw [bump, getR_addC_narrow _ _ _ (by decide), getR_addC_fld _ _ _ (by decide), getR_addC_fld _ _ _ (by decide), bump,
      getR_addC_fld _ _ _ (by decide), hgetR]; rfl
  · rw [bump, getR_addC_fld _ _ _ (by decide), getR_addC_fld _ _ _ (by decide), getR_addC_fld _ _ _ (by decide), bump,
      getR_addC_wide _ _ _ (by decide), hgetR]; rfl
  · rw [bump, getR_addC_fld _ _ _ (by decide), getR_addC_fld _ _ _ (by decide), getR_addC_narrow _ _ _ (by decide), bump,
      getR_addC_fld _ _ _ (by decide), hgetR]; rfl

/-- A plan that is kept does not depend on time. -/
theorem planOf_advance {d : Dev} {n id : Nat} (t : Nat) (h : (gauge d n).plans.any (fun p => p.id == id) = true) :
    planOf (advance d t) n id = planOf d n id := by
  obtain ⟨p, hp⟩ := Option.isSome_iff_exists.1 (by rwa [List.find?_isSome, ← List.any_eq_true] :
    ((gauge d n).plans.find? (fun p => p.id == id)).isSome)
  simp [planOf, hp]

theorem reachClears_none (p : PlanRec) {x : GaugeSt} (at_ : Nat) (h : x.clears = []) : reachClears p x at_ = x := by
  simp [reachClears, h]

/-- A skipped launch in RATE mode: Φ stays, every rate is 0 (R156, R159). -/
theorem mergeRate_skipped (p : PlanRec) (x : GaugeSt) (own : Nat) {a : LaunchBins} (h : a.launch.skipped = true) :
    mergeRate p x own a = (setSlotG x a.launch.slot { slotG x a.launch.slot with prev := none }, padI (positionsOf p) x.phi,
      List.replicate (positionsOf p) (32 ||| own), List.replicate (positionsOf p) 0, 0) := if_pos h

theorem doMerged_skipped {d : Dev} {n : Nat} {a : LaunchBins} (t : Nat) (hr : (gauge d n).ready = [a])
    (hs : a.launch.skipped = true) (he : earlierDue d n a.launch.at_ = false)
    (hp : (planOf d n a.launch.plan).div = false)
    (hk : (gauge d n).plans.any (fun p => p.id == a.launch.plan) = true) (hc : (gauge d n).clears = []) :
    ∃ (x : GaugeSt) (marks : List Nat) (e : List Int), x.ready = [] ∧
      doMerged t n d = putMerged (advance d t) n (planOf d n a.launch.plan) x a.launch.at_ false true
        (padI (positionsOf (planOf d n a.launch.plan)) (gauge d n).phi) marks e 0 0 := by
  have hpl := planOf_advance t hk
  rw [doMerged_rate t hr he (by rw [hpl]; exact hp), hpl]
  simp only [reachClears_none, hc, mergeRate_skipped _ _ _ hs, keepAmps, hs, if_true, List.any_nil]
  exact ⟨_, _, _, rfl, rfl⟩

end Sys2Proof.Machine

open Sys2Proof Sys2Proof.Machine

/-- Settles O23: the word that arrives, the settling periods and the merged sample, each by the branch it takes. -/
theorem pipesSettleAndSkipLaunches : Obligations.PipesSettleAndSkipLaunches := by
  unfold Obligations.PipesSettleAndSkipLaunches
  constructor
  · intro s t n hn hs
    refine ⟨?_, ?_, ?_, ?_, ?_, ?_⟩
    · intro k hk h
      exact (gives_pipeWord t hn hk hs).of_eq (doPipeWord_none t h)
    · intro k hk m r h
      have hg := gives_pipeWord t hn hk hs
      refine ⟨hg.of_eq (doPipeWord_word t h), fun h0 h1 hf => ⟨fun h47 h45 => ?_, fun a h47 ha hsk => ⟨fun hl => ?_, fun hl => ?_⟩⟩⟩
      · refine does_of_gives (hg.of_eq (doPipeWord_only t h h0 h1 hf (pipeWord_skipped h47 h45))) ?_
        simp
      · refine does_of_gives (hg.of_eq (doPipeWord_only t h h0 h1 hf (pipeWord_bins h47 ha hsk))) ?_
        simp [hl]
      · refine does_of_gives (hg.of_eq (doPipeWord_only t h h0 h1 hf (pipeWord_bins h47 ha hsk))) ?_
        simp [not_le.2 hl, Store.find_insert_self _ _ _ (Store.find_erase_self _ _)]
    · intro k hk h2 hst hw
      exact (gives_pipeSettled t hn hk hs).of_eq (doPipeSettled_ends t h2 hst hw)
    · intro k hk h
      exact (gives_pipeSettled t hn hk hs).of_eq (doPipeSettled_not t h)
    · intro h2 hst hc
      exact (gives_gaugeSettled t hn hs).of_eq (doGaugeSettled_ends t h2 hst hc)
    · intro h
      exact (gives_gaugeSettled t hn hs).of_eq (doGaugeSettled_not t h)
  · intro s t n hn hs
    have hg := gives_mergedSample t hn hs
    refine ⟨fun h => hg.of_eq (doMerged_none t h), fun a h he => hg.of_eq (doMerged_waits h (by simp) t he), ?_, ?_⟩
    · intro a l h hl he e clear p x own
      refine ⟨?_, fun hp hsl => hg.of_eq (doMerged_diversity t h hl he hp hsl)⟩
      rintro rfl hp
      exact hg.of_eq (doMerged_rate t h he hp)
    · intro a h hsk hp hk hc he p
      obtain ⟨x, marks, e, hx, hd⟩ := doMerged_skipped t h hsk he hp hk hc
      obtain ⟨h1, h2, h3, h4, h5, h6, h7, h8⟩ := putMerged_skipped (advance s.dev t) n p x a.launch.at_ false
        (padI (positionsOf p) (gauge s.dev n).phi) marks e
      refine does_of_gives (hg.of_eq hd) ?_
      simp only [gauge_settle, frame_settle, getR_settle, settle_evt, settle_mem]
      exact ⟨h1.trans hx, h2, h3, h4, h5, h6, h7, h8⟩

end

section
/-! PROOFS. Clusters that wake, catch-up and DVFS points (R12–R14, R25, R27). -/

namespace Sys2Proof.Machine

open Sys2Proof

theorem gives_clusterReady {s : State} {n c : Nat} (t : Nat) (hn : n < 12) (hc : c < 11) (hs : Awake s) :
    Gives (.clusterReady t n c) s (doClusterReady t n c s.dev) := gives_of_act rfl (by simp [hn, hc]) hs

theorem gives_catchUp {s : State} {r : Nat} (t : Nat) (hr : r < 17) (hs : Awake s) :
    Gives (.catchUp t r) s (doCatchUp t r s.dev) := gives_of_act rfl (by simp [hr]) hs

theorem gives_dvfsDone {s : State} {n c : Nat} (t : Nat) (hn : n < 12) (hc : c < 4) (hs : Awake s) :
    Gives (.dvfsDone t n c) s (doDvfsDone t n c s.dev) := gives_of_act rfl (by simp [hn, hc]) hs

theorem gives_thermalSensorUpdate {s : State} (t : Nat) (rs : List Int) (hs : Awake s) :
    Gives (.thermalSensorUpdate t rs) s (doThermalUpdate t rs s.dev) := gives_of_act rfl rfl hs

@[simp] theorem cluster_advance (d : Dev) (t n c : Nat) : cluster (advance d t) n c = cluster d n c := rfl
@[simp] theorem cluster_settle (d : Dev) (n c : Nat) : cluster (settle d) n c = cluster d n c := by simp [cluster]
@[simp] theorem isStale_settle (d : Dev) (p u : Nat) : isStale (settle d) p u = isStale d p u := by simp [isStale]
@[simp] theorem unitEpochOf_settle (d : Dev) (p u : Nat) : unitEpochOf (settle d) p u = unitEpochOf d p u := by
  simp [unitEpochOf]
@[simp] theorem coreState_settle (d : Dev) (n k : Nat) : coreState (settle d) n k = coreState d n k := by simp [coreState]
@[simp] theorem cluster_setCluster (d : Dev) (n c : Nat) (x : ClusterSt) : cluster (setCluster d n c x) n c = x := by
  simp [cluster, setCluster]

/-! ### Units that enter STALE (R12) -/

/-- From `d` to `e` units have at most entered STALE, with their events. -/
def StalesMore (d e : Dev) : Prop :=
  (∃ us ev, e = { d with unitStale := us, evt := ev }) ∧ ∀ p u, isStale d p u = true → isStale e p u = true

theorem StalesMore.refl (d : Dev) : StalesMore d d := ⟨⟨d.unitStale, d.evt, rfl⟩, fun _ _ h => h⟩

theorem StalesMore.trans (a b c : Dev) : StalesMore a b → StalesMore b c → StalesMore a c := by
  rintro ⟨⟨us, ev, rfl⟩, h1⟩ ⟨⟨us', ev', rfl⟩, h2⟩
  exact ⟨⟨us', ev', rfl⟩, fun p u h => h2 p u (h1 p u h)⟩

theorem isStale_setStale (d : Dev) (p u q w : Nat) (h : isStale d q w = true) :
    isStale (raise { d with unitStale := Store.set d.unitStale true (unitKey p u) true } p 1) q w = true := by
  by_cases hk : unitKey p u = unitKey q w
  · simp [isStale, hk]
  · simp only [isStale, raise_unitStale, Store.get_set_ne _ _ _ _ hk]; exact h

theorem enterStale_more (d : Dev) (p u : Nat) : StalesMore d (enterStale d p u) := by
  unfold enterStale
  split
  · exact .refl d
  · exact ⟨⟨_, _, rfl⟩, fun q w h => isStale_setStale d p u q w h⟩

theorem isStale_enterStale (d : Dev) (p u : Nat) : isStale (enterStale d p u) p u = true := by
  unfold enterStale
  split
  case isTrue h => exact h
  case isFalse => simp [isStale]

theorem stalePage_more (p : Nat) (d : Dev) :
    StalesMore d ((List.range (unitCount p)).foldl (fun d u => enterStale d p u) d) :=
  foldl_rel StalesMore.refl StalesMore.trans (fun d u _ => enterStale_more d p u) d

theorem stalePages_more (d : Dev) (ps : List Nat) : StalesMore d (stalePages d ps) :=
  foldl_rel StalesMore.refl StalesMore.trans (fun d p _ => stalePage_more p d) d

/-- After `stalePages` every unit of the pages is STALE. -/
theorem isStale_stalePages (d : Dev) {ps : List Nat} {p u : Nat} (hp : p ∈ ps) (hu : u < unitCount p) :
    isStale (stalePages d ps) p u = true := by
  refine foldl_attains (I := fun _ => True) (P := fun e => isStale e p u = true) hp (fun _ _ _ _ => trivial) ?_
    (fun e q _ _ h => (stalePage_more q e).2 p u h) trivial
  intro e _
  exact foldl_attains (I := fun _ => True) (P := fun e => isStale e p u = true) (List.mem_range.2 hu)
    (fun _ _ _ _ => trivial) (fun e _ => isStale_enterStale e p u) (fun e w _ _ h => (enterStale_more e p w).2 p u h) trivial

/-! ### The end of a wake (R25) -/

theorem doClusterReady_wakes {d : Dev} {n c : Nat} (t : Nat) (hp : (cluster d n c).powered = true)
    (hw : (cluster d n c).waking = true) :
    doClusterReady t n c d = clusterReady (advance d (max t (cluster d n c).readyAt)) n c := by
  simp [doClusterReady, hp, hw]

theorem doClusterReady_not {d : Dev} {n c : Nat} (t : Nat)
    (h : (cluster d n c).powered = false ∨ (cluster d n c).waking = false) : doClusterReady t n c d = advance d t := by
  rcases h with h | h <;> simp [doClusterReady, h]

/-- A Pipe, Frame or Stride cluster that is ready: its units are STALE, and nothing is due. -/
theorem clusterReady_of_two_le {d : Dev} {n c : Nat} (hc : 2 ≤ c) :
    clusterReady d n c = stalePages (setCluster d n c { cluster d n c with waking := false }) (clusterPages n c) := by
  have h0 : c ≠ 0 := by omega
  have h1 : c ≠ 1 := by omega
  simp [clusterReady, h0, h1, not_lt.2 hc]

/-! ### Catch-up of a service region (R14) -/

/-- From `d` to `e` some STALE units have become current with the epoch of region `r`; the others are as they were. -/
def CaughtUp (r : Nat) (d e : Dev) : Prop :=
  (∃ us ue, e = { d with unitStale := us, unitEpoch := ue }) ∧
  ∀ p u, (isStale e p u = isStale d p u ∧ unitEpochOf e p u = unitEpochOf d p u) ∨
    (isStale d p u = true ∧ isStale e p u = false ∧ unitEpochOf e p u = epoch d r)

theorem CaughtUp.refl (r : Nat) (d : Dev) : CaughtUp r d d :=
  ⟨⟨d.unitStale, d.unitEpoch, rfl⟩, fun _ _ => Or.inl ⟨rfl, rfl⟩⟩

theorem CaughtUp.trans (r : Nat) (a b c : Dev) : CaughtUp r a b → CaughtUp r b c → CaughtUp r a c := by
  rintro ⟨⟨us, ue, rfl⟩, h1⟩ ⟨⟨us', ue', rfl⟩, h2⟩
  refine ⟨⟨us', ue', rfl⟩, fun p u => ?_⟩
  rcases h2 p u with ⟨g1, g2⟩ | ⟨g1, g2, g3⟩
  · rcases h1 p u with ⟨f1, f2⟩ | ⟨f1, f2, f3⟩
    · exact Or.inl ⟨g1.trans f1, g2.trans f2⟩
    · exact Or.inr ⟨f1, g1.trans f2, g2.trans f3⟩
  · rcases h1 p u with ⟨f1, f2⟩ | ⟨f1, f2, f3⟩
    · exact Or.inr ⟨f1.symm.trans g1, g2, g3⟩
    · rw [f2] at g1; cases g1

theorem CaughtUp.current {r : Nat} {d e : Dev} (h : CaughtUp r d e) {p u : Nat} (hp : isStale d p u = false) :
    isStale e p u = false := by
  rcases h.2 p u with ⟨h, -⟩ | ⟨h, -⟩
  · exact h.trans hp
  · rw [hp] at h; cases h

theorem makeCurrent_eq {d : Dev} {p r : Nat} (u : Nat) (h : regionOf p = some r) :
    makeCurrent d p u =
      { d with unitStale := Store.set d.unitStale true (unitKey p u) false,
               unitEpoch := Store.set d.unitEpoch 0 (unitKey p u) (epoch d r) } := by
  simp [makeCurrent, h]

/-- The step of the catch-up of a service region for one unit. -/
def catchUnit (p : Nat) (d : Dev) (u : Nat) : Dev := if isStale d p u then makeCurrent d p u else d

theorem catchUnit_caughtUp {r p : Nat} (h : regionOf p = some r) (d : Dev) (u : Nat) :
    CaughtUp r d (catchUnit p d u) ∧ isStale (catchUnit p d u) p u = false := by
  unfold catchUnit
  split
  case isTrue hst =>
    rw [makeCurrent_eq u h]
    refine ⟨⟨⟨_, _, rfl⟩, fun q w => ?_⟩, by simp [isStale]⟩
    by_cases hk : unitKey p u = unitKey q w
    · refine Or.inr ⟨?_, by simp [isStale, hk], by simp [unitEpochOf, hk]⟩
      simpa only [isStale, hk] using hst
    · exact Or.inl ⟨by simp only [isStale, Store.get_set_ne _ _ _ _ hk], by simp only [unitEpochOf, Store.get_set_ne _ _ _ _ hk]⟩
  case isFalse hst => exact ⟨.refl r d, by simpa using hst⟩

/-- Every STALE unit of a service region's pages becomes current. -/
theorem catchPages_spec {r : Nat} {ps : List Nat} (h : ∀ p ∈ ps, regionOf p = some r) (d : Dev) :
    let e := ps.foldl (fun d p => (List.range (unitCount p)).foldl (catchUnit p) d) d
    CaughtUp r d e ∧ ∀ p ∈ ps, ∀ u < unitCount p, isStale e p u = false := by
  have hpage (d : Dev) (p : Nat) (hp : p ∈ ps) : CaughtUp r d ((List.range (unitCount p)).foldl (catchUnit p) d) :=
    foldl_rel (CaughtUp.refl r) (CaughtUp.trans r) (fun d u _ => (catchUnit_caughtUp (h p hp) d u).1) d
  refine ⟨foldl_rel (CaughtUp.refl r) (CaughtUp.trans r) hpage d, fun p hp u hu => ?_⟩
  refine foldl_attains (I := fun _ => True) (P := fun e => isStale e p u = false) hp (fun _ _ _ _ => trivial) ?_
    (fun e q hq _ hc => (hpage e q hq).current hc) trivial
  intro e _
  exact foldl_attains (I := fun _ => True) (P := fun e => isStale e p u = false) (List.mem_range.2 hu)
    (fun _ _ _ _ => trivial) (fun e _ => (catchUnit_caughtUp (h p hp) e u).2)
    (fun e w _ _ hc => (catchUnit_caughtUp (h p hp) e w).1.current hc) trivial

theorem regionOf_of_mem_regionPages {r p : Nat} (hr : 12 ≤ r) (h : p ∈ regionPages r) : regionOf p = some r := by
  rw [regionPages, if_neg (not_lt.2 hr)] at h
  simpa using (List.mem_filter.1 h).2

theorem doCatchUp_service {d : Dev} {r : Nat} (t : Nat) (hr : 12 ≤ r) (hf : isFenced d r = false) :
    doCatchUp t r d = (regionPages r).foldl (fun d p => (List.range (unitCount p)).foldl (catchUnit p) d) (advance d t) := by
  simp only [doCatchUp, isFenced_advance, hf, not_lt.2 hr]; rfl

/-- A line catches up at its own slot-0 instant (R14). -/
theorem doCatchUp_line {d : Dev} {n : Nat} (t : Nat) (hn : n < 12) (hf : isFenced d n = false) (ho : lineOn d n = true)
    (hb : (line d n).base ≠ 6) (hl : (line d n).l0 = max d.ticks t) :
    doCatchUp t n d = partnerCatchUp (lineCatchUp (advance d t) n (max d.ticks t)
      (decide ((line d n).l0No % 2 ^ lv d n F.LINE_PLAN_CYCLE = 0))) n (max d.ticks t) := by
  have hc : lineOn (advance d t) n = true ∧ (line (advance d t) n).l0 = (advance d t).ticks ∧ (line (advance d t) n).base ≠ 6 :=
    ⟨ho, hl, hb⟩
  simp only [doCatchUp, isFenced_advance, hf, hn, if_pos hc, if_true, Bool.false_eq_true, if_false]
  rfl

theorem doCatchUp_not {d : Dev} {n : Nat} (t : Nat) (hn : n < 12) (hl : (line d n).l0 ≠ max d.ticks t) :
    doCatchUp t n d = advance d t := by
  have hc : ¬(lineOn (advance d t) n = true ∧ (line (advance d t) n).l0 = (advance d t).ticks ∧
      (line (advance d t) n).base ≠ 6) := fun h => hl h.2.1
  simp only [doCatchUp, hn, if_neg hc, if_true, ite_self]

/-! ### A DVFS change that ends (R27, R234, R235) -/

/-- From `d` to `e` only registers and cores of line `n` have moved, the point shown has not, and no core has halted for the
change of the point. -/
def CoresGoOn (n : Nat) (d e : Dev) : Prop :=
  (∃ r c, e = { d with regs := r, cores := c }) ∧
  getR e (pgStrideCl n) F.STRIDECL_POINT_NOW = getR d (pgStrideCl n) F.STRIDECL_POINT_NOW ∧
  ∀ k, coreState d n k ≠ 6 → coreState e n k ≠ 6

theorem CoresGoOn.refl (n : Nat) (d : Dev) : CoresGoOn n d d := ⟨⟨d.regs, d.cores, rfl⟩, rfl, fun _ h => h⟩

theorem CoresGoOn.trans (n : Nat) (a b c : Dev) : CoresGoOn n a b → CoresGoOn n b c → CoresGoOn n a c := by
  rintro ⟨⟨r, c, rfl⟩, h1, h2⟩ ⟨⟨r', c', rfl⟩, g1, g2⟩
  exact ⟨⟨r', c', rfl⟩, g1.trans h1, fun k h => g2 k (h2 k h)⟩

theorem CoresGoOn.cluster_eq {n : Nat} {d e : Dev} (h : CoresGoOn n d e) (m c : Nat) : cluster e m c = cluster d m c := by
  obtain ⟨⟨r, y, rfl⟩, -⟩ := h; rfl

theorem CoresGoOn.mem_eq {n : Nat} {d e : Dev} (h : CoresGoOn n d e) : e.mem = d.mem := by
  obtain ⟨⟨r, y, rfl⟩, -⟩ := h; rfl

theorem pgStride_ne_pgStrideCl (n k : Nat) : pgStride n k ≠ pgStrideCl n := by unfold pgStride pgStrideCl; omega

theorem pgStride_injective (n : Nat) {j k : Nat} (h : j ≠ k) : pgStride n j ≠ pgStride n k := by unfold pgStride; omega

/-- The state of a core after `setCoreState`: the one set for that core, as it was for the others. -/
theorem coreState_setCoreState (d : Dev) (n k st j : Nat) :
    coreState (setCoreState d n k st) n j = if j = k then st % 16 else coreState d n j := by
  unfold setCoreState clShow coreState
  rw [getR_setR_page _ _ (pgStride_ne_pgStrideCl n j).symm (by decide) (by decide)]
  split
  case isTrue h => subst h; exact getR_setR_self ..
  case isFalse h => exact getR_setR_page _ _ (pgStride_injective n (Ne.symm h)) (by decide) (by decide)

theorem pointNow_setCoreState (d : Dev) (n k st : Nat) :
    getR (setCoreState d n k st) (pgStrideCl n) F.STRIDECL_POINT_NOW = getR d (pgStrideCl n) F.STRIDECL_POINT_NOW := by
  unfold setCoreState clShow
  rw [getR_setR_fld _ _ _ (by decide), getR_setR_page _ _ (pgStride_ne_pgStrideCl n k) (by decide) (by decide)]

theorem setCoreState_goOn (d : Dev) (n k : Nat) {st : Nat} (h : st % 16 ≠ 6) : CoresGoOn n d (setCoreState d n k st) := by
  refine ⟨⟨_, _, rfl⟩, pointNow_setCoreState .., fun j hj => ?_⟩
  rw [coreState_setCoreState]
  split
  · exact h
  · exact hj

theorem setCore_goOn (d : Dev) (n k : Nat) (x : CoreSt) : CoresGoOn n d (setCore d n k x) := ⟨⟨_, _, rfl⟩, rfl, fun _ h => h⟩

theorem addCycles_goOn (d : Dev) (n k c : Nat) : CoresGoOn n d (addCycles d n k c) := by
  have hst (j : Nat) : coreState (addCycles d n k c) n j = coreState d n j := by
    unfold addCycles coreState
    rw [addC_eq]
    exact getR_setR_ne d _ (by
      by_cases hj : j = k
      · subst hj; exact key_ne_fld _ (by decide)
      · exact key_ne_page (pgStride_injective n (Ne.symm hj)) (by decide) (by decide))
  refine ⟨⟨_, d.cores, by unfold addCycles; rw [addC_eq]; rfl⟩, ?_, fun j hj => by rwa [hst]⟩
  unfold addCycles
  rw [addC_eq, getR_setR_page _ _ (pgStride_ne_pgStrideCl n k) (by decide) (by decide)]

theorem waitNote_goOn (d : Dev) (n k : Nat) : CoresGoOn n d (waitNote d n k) := by
  unfold waitNote
  split
  · exact .refl n d
  · exact .trans n _ _ _ (setCore_goOn ..) (addCycles_goOn ..)

/-- The core takes the onset, and may go on from WAIT. -/
theorem srcRaise_cases (d : Dev) (n k s : Nat) :
    ∃ x, srcRaise d n k s = setCore d n k x ∨
      srcRaise d n k s = setCoreState (waitNote (setCore d n k x) n k) n k 1 := ⟨_, (ite_eq_or_eq _ _ _).symm⟩

theorem srcRaise_goOn (d : Dev) (n k s : Nat) : CoresGoOn n d (srcRaise d n k s) := by
  obtain ⟨x, h | h⟩ := srcRaise_cases d n k s <;> rw [h]
  · exact setCore_goOn ..
  · exact .trans n _ _ _ (setCore_goOn d n k x)
      (.trans n _ _ _ (waitNote_goOn _ n k) (setCoreState_goOn _ n k (st := 1) (by decide)))

/-- One core of the cluster goes on. -/
def resumeCore (n c : Nat) (d : Dev) (i : Nat) : Dev :=
  let k := 4 * c + i
  let d := if coreState d n k = 6 then
      let x := core d n k
      setCoreState (setCore d n k { x with waitAt := d.ticks }) n k (if x.heldFrom = 2 ∧ !wanted x then 2 else 1)
    else d
  if coreState d n k = 0 then d else srcRaise d n k 6

theorem resumeCores_eq (d : Dev) (n c : Nat) : resumeCores d n c = (List.range 4).foldl (resumeCore n c) d := rfl

theorem resumeCore_goOn (n c : Nat) (d : Dev) (i : Nat) :
    CoresGoOn n d (resumeCore n c d i) ∧ coreState (resumeCore n c d i) n (4 * c + i) ≠ 6 := by
  let x := core d n (4 * c + i)
  let e := if coreState d n (4 * c + i) = 6 then
      setCoreState (setCore d n (4 * c + i) { x with waitAt := d.ticks }) n (4 * c + i) (if x.heldFrom = 2 ∧ !wanted x then 2 else 1)
    else d
  have he : CoresGoOn n d e ∧ coreState e n (4 * c + i) ≠ 6 := by
    simp only [e]
    split
    case isTrue =>
      have hst : (if x.heldFrom = 2 ∧ (!wanted x) = true then 2 else 1) % 16 ≠ 6 := by split <;> decide
      refine ⟨.trans n _ _ _ (setCore_goOn ..) (setCoreState_goOn _ _ _ hst), ?_⟩
      rw [coreState_setCoreState, if_pos rfl]; exact hst
    case isFalse h => exact ⟨.refl n d, h⟩
  show CoresGoOn n d (if coreState e n (4 * c + i) = 0 then e else srcRaise e n (4 * c + i) 6) ∧
    coreState (if coreState e n (4 * c + i) = 0 then e else srcRaise e n (4 * c + i) 6) n (4 * c + i) ≠ 6
  split
  · exact he
  · have hs := srcRaise_goOn e n (4 * c + i) 6
    exact ⟨.trans n _ _ _ he.1 hs, hs.2.2 _ he.2⟩

theorem resumeCores_goOn (d : Dev) (n c : Nat) :
    CoresGoOn n d (resumeCores d n c) ∧ ∀ i < 4, coreState (resumeCores d n c) n (4 * c + i) ≠ 6 := by
  rw [resumeCores_eq]
  refine ⟨foldl_rel (CoresGoOn.refl n) (CoresGoOn.trans n) (fun d i _ => (resumeCore_goOn n c d i).1) d, fun i hi => ?_⟩
  exact foldl_attains (I := fun _ => True) (P := fun e => coreState e n (4 * c + i) ≠ 6) (List.mem_range.2 hi)
    (fun _ _ _ _ => trivial) (fun e _ => (resumeCore_goOn n c e i).2) (fun e j _ _ h => (resumeCore_goOn n c e j).1.2.2 _ h)
    trivial

/-- The cluster runs at the point aimed at. -/
def pointPut (d : Dev) (n c : Nat) : Dev :=
  let x := cluster d n (7 + c)
  let d := setCluster d n (7 + c) { x with mv := max x.mv (pointMv x.target) }
  let f := F.STRIDECL_POINT_NOW
  let d := setR d (pgStrideCl n) f (putBits (getR d (pgStrideCl n) f) (2 * c) 2 x.target)
  setCluster d n (7 + c) { x with changing := false, mv := pointMv x.target }

theorem cluster_pointPut (d : Dev) (n c : Nat) :
    cluster (pointPut d n c) n (7 + c) =
      { cluster d n (7 + c) with changing := false, mv := pointMv (cluster d n (7 + c)).target } := cluster_setCluster ..

theorem pointNow_pointPut (d : Dev) (n c : Nat) :
    getR (pointPut d n c) (pgStrideCl n) F.STRIDECL_POINT_NOW =
      putBits (getR d (pgStrideCl n) F.STRIDECL_POINT_NOW) (2 * c) 2 (cluster d n (7 + c)).target % 256 := getR_setR_self ..

theorem mem_pointPut (d : Dev) (n c : Nat) : (pointPut d n c).mem = d.mem := rfl

@[simp] theorem cluster_raise (d : Dev) (p b n c : Nat) : cluster (raise d p b) n c = cluster d n c := rfl
@[simp] theorem coreState_raise (d : Dev) (p b n k : Nat) : coreState (raise d p b) n k = coreState d n k := rfl

theorem doDvfsDone_changes {d : Dev} {n c : Nat} (t : Nat) (hx : (cluster d n (7 + c)).changing = true)
    (hh : coresHalted d n c = true) :
    doDvfsDone t n c d = raise (resumeCores (pointPut (advance d t) n c) n c) (pgStrideCl n) 10 := by
  have hc : ((cluster (advance d t) n (7 + c)).changing && coresHalted (advance d t) n c) = true := by
    rw [cluster_advance, hx, Bool.true_and]; exact hh
  unfold doDvfsDone
  simp only
  rw [if_pos hc]
  rfl

/-- What the end of a DVFS change leaves. -/
theorem doDvfsDone_spec {d : Dev} {n c : Nat} (t : Nat) (hx : (cluster d n (7 + c)).changing = true)
    (hh : coresHalted d n c = true) :
    let e := doDvfsDone t n c d
    let x := cluster d n (7 + c)
    cluster e n (7 + c) = { x with changing := false, mv := pointMv x.target } ∧
    getR e (pgStrideCl n) F.STRIDECL_POINT_NOW =
      putBits (getR d (pgStrideCl n) F.STRIDECL_POINT_NOW) (2 * c) 2 x.target % 256 ∧
    (evtRaw e (pgStrideCl n)).testBit 10 = true ∧ (∀ i < 4, coreState e n (4 * c + i) ≠ 6) ∧ e.mem = d.mem := by
  obtain ⟨hg, h6⟩ := resumeCores_goOn (pointPut (advance d t) n c) n c
  simp only [doDvfsDone_changes t hx hh, cluster_raise, getR_raise, coreState_raise, raise_mem]
  refine ⟨?_, ?_, raise_bit .., h6, ?_⟩
  · rw [hg.cluster_eq, cluster_pointPut, cluster_advance]
  · rw [hg.2.1, pointNow_pointPut, cluster_advance, getR_advance]
  · rw [hg.mem_eq, mem_pointPut, advance_mem]

theorem doDvfsDone_not {d : Dev} {n c : Nat} (t : Nat)
    (h : (cluster d n (7 + c)).changing = false ∨ coresHalted d n c = false) : doDvfsDone t n c d = advance d t := by
  have hc : ((cluster (advance d t) n (7 + c)).changing && coresHalted (advance d t) n c) = false := by
    rcases h with h | h
    · rw [cluster_advance, h, Bool.false_and]
    · rw [show coresHalted (advance d t) n c = false from h, Bool.and_false]
  simp only [doDvfsDone, hc]; rfl

end Sys2Proof.Machine

end

section
/-! PROOFS. What a reset sends and keeps of start-up (R441). -/

namespace Sys2Proof.Machine

open Sys2Proof

/-! ### What sends nothing and leaves start-up alone -/

/-- From `d` to `e` nothing was sent, and start-up's own state is as it was. -/
def Quiet (d e : Dev) : Prop := e.out = d.out ∧ e.boot = d.boot

theorem Quiet.refl (d : Dev) : Quiet d d := ⟨rfl, rfl⟩

theorem Quiet.trans (a b c : Dev) (h : Quiet a b) (g : Quiet b c) : Quiet a c := ⟨g.1.trans h.1, g.2.trans h.2⟩

theorem Quiet.setR {d e : Dev} (h : Quiet d e) (p : Nat) (f : Fld) (v : Nat) : Quiet d (setR e p f v) := h

theorem Quiet.raise {d e : Dev} (h : Quiet d e) (p b : Nat) : Quiet d (raise e p b) := h

theorem Quiet.ite {d a b : Dev} {c : Prop} [Decidable c] (ha : Quiet d a) (hb : Quiet d b) :
    Quiet d (if c then a else b) := by split <;> assumption

theorem Quiet.addC {d e : Dev} (h : Quiet d e) (p : Nat) (f : Fld) (n : Nat) : Quiet d (addC e p f n) := by
  rw [addC_eq]; exact h.setR ..

theorem Quiet.raiseOn {d e : Dev} (h : Quiet d e) (p b : Nat) (was now : Bool) : Quiet d (raiseOn e p b was now) :=
  .ite (h.raise p b) h

theorem Quiet.bankUp {d e : Dev} (h : Quiet d e) (n s b : Nat) : Quiet d (bankUp n s b e) := by
  unfold Machine.bankUp
  extract_lets f run load
  have hl : Quiet d (onlyIf load (fun d => coefLoad d n s b) e) := .ite (a := coefLoad e n s b) h h
  exact hl.setR ..

theorem Quiet.bankShow {d e : Dev} (h : Quiet d e) (n s : Nat) : Quiet d (bankShow e n s) :=
  ((h.setR ..).bankUp n s 0).bankUp n s 1

theorem Quiet.pipeShow {d e : Dev} (h : Quiet d e) (n s : Nat) : Quiet d (pipeShow e n s) := by
  unfold Machine.pipeShow
  extract_lets p e1 e2 e3
  have h3 : Quiet d e3 := ((h.setR p F.SLOT_NCO_WORD _).setR p F.SLOT_BINS _).bankShow n s
  exact .ite (h3.setR ..) (.ite (h3.setR ..) h3)

theorem Quiet.pipesShow {d e : Dev} (h : Quiet d e) (n : Nat) : Quiet d (pipesShow e n) :=
  h.trans _ _ _ (foldl_rel Quiet.refl Quiet.trans (fun a s _ => (Quiet.refl a).pipeShow n s) e)

theorem Quiet.eligShow {d e : Dev} (h : Quiet d e) (n : Nat) : Quiet d (eligShow e n) := by
  unfold Machine.eligShow
  extract_lets was
  exact .ite (.ite h h) h

theorem Quiet.lineShow {d e : Dev} (h : Quiet d e) (n cause : Nat) : Quiet d (lineShow e n cause) := by
  unfold Machine.lineShow
  extract_lets p was now e1 e2 e3
  have h1 : Quiet d e1 := h.setR ..
  have h2 : Quiet d e2 := ((show Quiet d (safeSpan e1 n was now) from h1).setR ..).setR ..
  have h3 : Quiet d e3 := h2.raise p 12
  exact .ite h1 ((h3.eligShow n).pipesShow n)

theorem lineUnsync_quiet (d : Dev) (n : Nat) : Quiet d (lineUnsync d n) := by
  unfold lineUnsync
  extract_lets x e1 p e2
  have h1 : Quiet d e1 := ⟨rfl, rfl⟩
  have h2 : Quiet d e2 := h1
  exact .ite h1 ((((h2.setR p F.LINE_SYNC_LOST 1).raise p 10).addC p F.LINE_SYNC_LOSSES 1).lineShow n 1)

theorem Quiet.gridInvalid {d e : Dev} (h : Quiet d e) : Quiet d (gridInvalid e) :=
  h.trans _ _ _ (foldl_rel Quiet.refl Quiet.trans (fun a n _ => lineUnsync_quiet a n) e)

theorem Quiet.gridValid {d e : Dev} (h : Quiet d e) : Quiet d (gridValid e) := by
  refine h.trans _ _ _ (foldl_rel Quiet.refl Quiet.trans (fun a n _ => ?_) e)
  extract_lets x
  exact .ite (show Quiet a (setLine a n _) from .refl a) (.refl a)

theorem Quiet.squelchNow {d e : Dev} (h : Quiet d e) : Quiet d (squelchNow e) := by
  unfold Machine.squelchNow
  extract_lets
  exact .ite h (.ite h h)

theorem Quiet.freqShow {d e : Dev} (h : Quiet d e) : Quiet d (freqShow e) := by
  unfold Machine.freqShow freqTo
  extract_lets
  exact .ite (.ite h h) h

theorem Quiet.qualShow {d e : Dev} (h : Quiet d e) : Quiet d (qualShow e) := by
  unfold Machine.qualShow
  extract_lets was now e1 t1 e2 t2 e3 e4
  have h2 : Quiet d e2 := .ite (show Quiet d e1 from h) h
  clear_value e2
  have h4 : Quiet d e4 := Quiet.squelchNow (.ite h2 h2)
  clear_value e4
  exact .ite h4 (.ite (h4.raise pgTime 14).gridValid (h4.raise pgTime 14).gridInvalid)

theorem Quiet.bkpStep {d e : Dev} (h : Quiet d e) : Quiet d (bkpStep e) :=
  .ite (show Quiet d (Machine.setR { e with bkpBase := e.time.base } pgBkp F.BKP_VALID 1) from h) h

theorem Quiet.ptpShow {d e : Dev} (h : Quiet d e) (i : Nat) : Quiet d (ptpShow e i) := by
  unfold Machine.ptpShow
  extract_lets p bad was e1 a e2
  have h1 : Quiet d e1 := (h.setR p F.PTP_CFG_ERR (b2n bad)).raiseOn p 9 was bad
  clear_value e1
  exact ((h1.setR ..).setR ..).setR ..

theorem Quiet.timeShow {d e : Dev} (h : Quiet d e) : Quiet d (timeShow e) := by
  unfold Machine.timeShow
  extract_lets was now e1 t1 e2 e3
  have h2 : Quiet d e2 := by
    have h1 : Quiet d e1 := (h.setR pgTime cSTATE now).raise pgTime 8
    clear_value e1
    exact .ite h (.ite (show Quiet d (Machine.setR { e1 with time := _ } pgTime F.TIME_HOLD_S 0) from h1) (.ite (h1.setR ..) h1))
  clear_value e2
  exact ((h2.freqShow.qualShow.bkpStep).ptpShow 0).ptpShow 1

theorem Quiet.restoreTime {d e : Dev} (h : Quiet d e) (secs phase : Nat) : Quiet d (restoreTime e secs phase) := by
  unfold Machine.restoreTime
  extract_lets base sec ms t1 t2 e1
  have h1 : Quiet d e1 := h
  clear_value e1
  exact (h1.setR ..).timeShow

theorem keptRegs_quiet (old d : Dev) (kind idx : Nat) : Quiet d (keptRegs old d kind idx) := by
  unfold keptRegs
  extract_lets valid ret e1 keep e2 e3 e4 e5
  have h1 : Quiet d e1 := foldl_rel Quiet.refl Quiet.trans (fun a _ _ => (Quiet.refl a).setR ..) d
  clear_value e1
  have h4 : Quiet d e4 := h1
  clear_value e4
  have h5 : Quiet d e5 := .ite h4 h4
  clear_value e5
  exact (h5.setR ..).setR ..

/-- A reset sends nothing, and keeps of start-up what `keptBoot` says (R441). -/
theorem deviceReset_spec (d : Dev) (kind idx : Nat) :
    (deviceReset d kind idx).out = d.out ∧ (deviceReset d kind idx).boot = keptBoot d.boot kind d.ticks := by
  unfold deviceReset
  extract_lets a r x1 x2 x3 led x4 x5 warm time x6 x7
  have hout : x6.out = d.out := rfl
  have hkept := keptRegs_quiet d { x6 with boot := keptBoot d.boot kind d.ticks } kind idx
  have hq : Quiet { x6 with boot := keptBoot d.boot kind d.ticks }
      (if bkpValid x7 then restoreTime x7 (bkpSecs x7) (bkpPhase x7) else x7) := .ite (hkept.restoreTime ..) hkept
  exact ⟨hq.1.trans hout, hq.2⟩

end Sys2Proof.Machine

end

section
/-! PROOFS. The thermal trip and what a die shows (R31, R32). -/

namespace Sys2Proof.Machine

open Sys2Proof

/-! ### The thermal trip (R32) -/

/-- Outputs that are levels of pins stay through an operation. -/
def KeepsPins (d e : Dev) : Prop := ∀ p v, Output.pin p v ∈ d.out → Output.pin p v ∈ e.out

/-- From `d` to `e` gates were driven at most: registers, start-up and the levels sent are kept. -/
def Gating (d e : Dev) : Prop := e.regs = d.regs ∧ e.boot = d.boot ∧ KeepsPins d e

theorem Gating.refl (d : Dev) : Gating d d := ⟨rfl, rfl, fun _ _ h => h⟩

theorem Gating.trans (a b c : Dev) : Gating a b → Gating b c → Gating a c := fun ⟨h1, h2, h3⟩ ⟨g1, g2, g3⟩ =>
  ⟨g1.trans h1, g2.trans h2, fun p v h => g3 p v (h3 p v h)⟩

theorem emit_gating (d : Dev) (o : Output) : Gating d (emit d o) := ⟨rfl, rfl, fun _ _ h => List.mem_append_left _ h⟩

theorem pinHold_gating (d : Dev) (p : Pin) : Gating d (pinHold d p) :=
  ⟨rfl, rfl, fun q v h => List.mem_filterMap.2 ⟨.pin q v, h, rfl⟩⟩

theorem tgateHold_gating (d : Dev) (n : Nat) : Gating d (tgateHold d n) := by
  have h (c : Bool) : Gating d (onlyIf c (fun d => setStarter d n { starter d n with tgLast := none }) d) :=
    onlyIf_rel Gating.refl d c ⟨rfl, rfl, fun _ _ h => h⟩
  exact .trans _ _ _ (h _) (pinHold_gating ..)

theorem mem_emit (d : Dev) (o : Output) : o ∈ (emit d o).out := List.mem_append_right _ (List.mem_singleton.2 rfl)

theorem mem_emit_left {d : Dev} {o : Output} (o' : Output) (h : o ∈ d.out) : o ∈ (emit d o').out := List.mem_append_left _ h

theorem gateIdle_congr {d e : Dev} (h : e.regs = d.regs) (n : Nat) (pg : Bool) : gateIdle e n pg = gateIdle d n pg :=
  getR_congr h _ _

/-- Both gates of the line are sent to their inactive levels. -/
theorem gatesIdle_spec (d : Dev) (n : Nat) :
    Gating d (gatesIdle d n) ∧ Output.pin (.pgate n) (gateIdle d n true) ∈ (gatesIdle d n).out ∧
    Output.pin (.tgate n) (gateIdle d n false) ∈ (gatesIdle d n).out := by
  obtain ⟨e, he, hd⟩ : ∃ e, Gating d e ∧ gatesIdle d n =
      emit (emit e (.pin (.pgate n) (gateIdle e n true))) (.pin (.tgate n) (gateIdle e n false)) :=
    ⟨_, .trans _ _ _ (tgateHold_gating d n) (pinHold_gating _ (.pgate n)), rfl⟩
  rw [hd, gateIdle_congr he.1, gateIdle_congr he.1]
  exact ⟨.trans _ _ _ he (.trans _ _ _ (emit_gating ..) (emit_gating ..)), mem_emit_left _ (mem_emit ..), mem_emit ..⟩

/-- The gates of line `n` are idle, and its probe DACs at mid-code. -/
def lineTrip (d : Dev) (n : Nat) : Dev := emit (gatesIdle d n) (.pin (.dac n) 8192)

/-- What the trip sends for one line, with the polarities of `d`. -/
def LineIdle (d : Dev) (n : Nat) (e : Dev) : Prop :=
  Output.pin (.dac n) 8192 ∈ e.out ∧ Output.pin (.pgate n) (gateIdle d n true) ∈ e.out ∧
  Output.pin (.tgate n) (gateIdle d n false) ∈ e.out

theorem LineIdle.keep {d a b : Dev} {n : Nat} (h : LineIdle d n a) (hk : KeepsPins a b) : LineIdle d n b :=
  ⟨hk _ _ h.1, hk _ _ h.2.1, hk _ _ h.2.2⟩

theorem lineTrip_spec (d : Dev) (n : Nat) : Gating d (lineTrip d n) ∧ LineIdle d n (lineTrip d n) := by
  obtain ⟨hg, hp, ht⟩ := gatesIdle_spec d n
  exact ⟨.trans _ _ _ hg (emit_gating ..), mem_emit .., mem_emit_left _ hp, mem_emit_left _ ht⟩

/-- All twelve lines. -/
theorem linesTrip_spec (d : Dev) :
    Gating d ((List.range 12).foldl lineTrip d) ∧ ∀ n < 12, LineIdle d n ((List.range 12).foldl lineTrip d) := by
  refine ⟨foldl_rel Gating.refl Gating.trans (fun a n _ => (lineTrip_spec a n).1) d, fun n hn => ?_⟩
  refine foldl_attains (I := fun a => a.regs = d.regs) (P := LineIdle d n) (List.mem_range.2 hn)
    (fun a m _ h => (lineTrip_spec a m).1.1.trans h) (fun a h => ?_) (fun a m _ _ h => h.keep (lineTrip_spec a m).1.2.2) rfl
  have hi := (lineTrip_spec a n).2
  rwa [LineIdle, gateIdle_congr h, gateIdle_congr h] at hi

/-- What a trip by sensor `x` leaves. -/
theorem thermalTrip_spec (d : Dev) (x : Nat × Nat × Int) :
    let e := thermalTrip d x
    e.boot.held = true ∧ e.boot.tripped = true ∧ e.gatesHeld = true ∧ e.boot.trip = some x ∧
    Output.pin .thermtrip 0 ∈ e.out ∧ ∀ n < 12, LineIdle d n e := by
  unfold thermalTrip
  extract_lets b d1 d2 d3 cause d4 bt
  have htrip : d1.boot.trip = some x := rfl
  have hregs : d1.regs = d.regs := rfl
  clear_value d1
  obtain ⟨hg, hl⟩ : Gating d1 d2 ∧ ∀ n < 12, LineIdle d1 n d2 := linesTrip_spec d1
  clear_value d2
  have h3 : Gating d1 d3 := .trans _ _ _ hg (emit_gating ..)
  have hthermtrip : Output.pin .thermtrip 0 ∈ d3.out := mem_emit ..
  have hlines (n : Nat) (hn : n < 12) : LineIdle d n d3 := by
    have hn := (hl n hn).keep (emit_gating d2 (.pin .thermtrip 0)).2.2
    rwa [LineIdle, gateIdle_congr hregs, gateIdle_congr hregs] at hn
  clear_value d3
  obtain ⟨hout, hboot⟩ := deviceReset_spec d3 1 0
  have h4 : d4.out = d3.out := hout
  have h5 : d4.boot.trip = some x := by
    rw [show d4.boot = _ from hboot, ← htrip, ← h3.2.1]; rfl
  clear_value d4
  refine ⟨rfl, rfl, rfl, h5, ?_, fun n hn => ?_⟩
  · show _ ∈ d4.out
    rw [h4]; exact hthermtrip
  · exact (hlines n hn).keep (b := { d4 with gatesHeld := true, boot := _ }) fun p v h => by
      show _ ∈ d4.out
      rw [h4]; exact h

/-- The sensor that trips, among the first `m` with readings `v`: none, where all read below 125 °C, else one with the highest
reading. -/
def Highest (v : Nat → Int) (m : Nat) : Option (Nat × Int) → Prop
  | none => ∀ i < m, v i < 16000
  | some (j, r) => j < m ∧ r = v j ∧ 16000 ≤ r ∧ ∀ i < m, v i ≤ r

theorem tripSensor_spec (rs : List Int) : Highest (fun i => rs.getD i (-32768)) 16 (tripSensor rs) := by
  unfold tripSensor
  generalize 16 = m
  induction m with
  | zero => exact fun i hi => absurd hi (Nat.not_lt_zero i)
  | succ m ih =>
    rw [List.range_succ, List.foldl_concat]
    generalize List.foldl _ none (List.range m) = a at ih ⊢
    have hlt {i : Nat} (h : i < m + 1) : i < m ∨ i = m := Nat.lt_succ_iff_lt_or_eq.1 h
    rcases a with _ | ⟨j, r⟩
    · by_cases hr : rs.getD m (-32768) < 16000
      · simp only [hr, if_true]
        intro i hi
        rcases hlt hi with hi | rfl
        · exact ih i hi
        · exact hr
      · simp only [hr, if_false]
        refine ⟨Nat.lt_succ_self m, rfl, not_lt.1 hr, fun i hi => ?_⟩
        rcases hlt hi with hi | rfl
        · exact (ih i hi).le.trans (not_lt.1 hr)
        · exact le_rfl
    · obtain ⟨hj, hv, h16, hle⟩ := ih
      have hstay (h : rs.getD m (-32768) ≤ r) : Highest (fun i => rs.getD i (-32768)) (m + 1) (some (j, r)) :=
        ⟨by omega, hv, h16, fun i hi => (hlt hi).elim (hle i) (fun hi => hi ▸ h)⟩
      by_cases hr : rs.getD m (-32768) < 16000
      · simp only [hr, if_true]
        exact hstay (by omega)
      · simp only [hr, if_false]
        split
        case isTrue h =>
          refine ⟨Nat.lt_succ_self m, rfl, not_lt.1 hr, fun i hi => ?_⟩
          rcases hlt hi with hi | rfl
          · exact (hle i hi).trans h.le
          · exact le_rfl
        case isFalse h => exact hstay (not_lt.1 h)

/-- The same over the first `m` dies, `v k i` the reading of sensor `i` of die `k`. -/
def HighestOf (v : Nat → Nat → Int) (m : Nat) : Option (Nat × Nat × Int) → Prop
  | none => ∀ k < m, ∀ i < 16, v k i < 16000
  | some (k, j, r) => k < m ∧ j < 16 ∧ r = v k j ∧ 16000 ≤ r ∧ ∀ l < m, ∀ i < 16, v l i ≤ r

/-- The readings of die `k`. -/
def dieReadings (rs : List Int) (k : Nat) : List Int := (rs.drop (16 * k)).take 16

/-- The reading of sensor `i` of die `k`. -/
def dieVal (rs : List Int) (k i : Nat) : Int := (dieReadings rs k).getD i (-32768)

theorem tripOf_spec (rs : List Int) : HighestOf (dieVal rs) 3 (tripOf rs) := by
  unfold tripOf
  generalize 3 = m
  induction m with
  | zero => exact fun i hi => absurd hi (Nat.not_lt_zero i)
  | succ m ih =>
    rw [List.range_succ, List.foldl_concat]
    generalize List.foldl _ none (List.range m) = a at ih ⊢
    have hlt {i : Nat} (h : i < m + 1) : i < m ∨ i = m := Nat.lt_succ_iff_lt_or_eq.1 h
    have hs : Highest (dieVal rs m) 16 (tripSensor ((rs.drop (16 * m)).take 16)) := tripSensor_spec _
    generalize tripSensor ((rs.drop (16 * m)).take 16) = b at hs ⊢
    rcases b with _ | ⟨i, r⟩
    · rcases a with _ | ⟨k, j, q⟩
      · exact fun l hl => (hlt hl).elim (ih l) (fun hl => hl ▸ hs)
      · obtain ⟨hk, hj, hq, h16, hle⟩ := ih
        exact ⟨by omega, hj, hq, h16, fun l hl => (hlt hl).elim (hle l) (fun hl x hx => hl ▸ (hs x hx).le.trans h16)⟩
    · obtain ⟨hi, hr, hr16, hrle⟩ := hs
      have htake (h : ∀ l < m, ∀ x < 16, dieVal rs l x ≤ r) : HighestOf (dieVal rs) (m + 1) (some (m, i, r)) :=
        ⟨Nat.lt_succ_self m, hi, hr, hr16, fun l hl => (hlt hl).elim (h l) (fun hl => hl ▸ hrle)⟩
      rcases a with _ | ⟨k, j, q⟩
      · exact htake fun l hl x hx => (ih l hl x hx).le.trans hr16
      · obtain ⟨hk, hj, hq, h16, hle⟩ := ih
        simp only
        split
        case isTrue h => exact htake fun l hl x hx => (hle l hl x hx).trans h.le
        case isFalse h =>
          exact ⟨by omega, hj, hq, h16, fun l hl => (hlt hl).elim (hle l) (fun hl x hx => hl ▸ (hrle x hx).trans (not_lt.1 h))⟩

/-- A die's readings stand 16 apart. -/
theorem dieVal_eq {rs : List Int} (h : rs.length = 48) {k i : Nat} (hk : k < 3) (hi : i < 16) :
    dieVal rs k i = rs.getD (16 * k + i) 0 := by
  have hlt : 16 * k + i < rs.length := by omega
  rw [dieVal, dieReadings, List.getD_eq_getElem?_getD, List.getElem?_take_of_lt hi, List.getElem?_drop, List.getD_eq_getElem?_getD,
    List.getElem?_eq_getElem hlt]
  rfl

/-- A reading at 125 °C or above trips the part, by a sensor that reads at least as much. -/
theorem tripOf_some {rs : List Int} (h : rs.length = 48) {i : Nat} (hi : i < 48) (hr : 16000 ≤ rs.getD i 0) :
    ∃ k j r, tripOf rs = some (k, j, r) ∧ k < 3 ∧ j < 16 ∧ r = rs.getD (16 * k + j) 0 ∧ rs.getD i 0 ≤ r := by
  have hs := tripOf_spec rs
  have hv : dieVal rs (i / 16) (i % 16) = rs.getD i 0 := by
    rw [dieVal_eq h (by omega) (by omega), Nat.div_add_mod]
  rcases htrip : tripOf rs with _ | ⟨k, j, r⟩
  · rw [htrip] at hs
    have hlow := hs (i / 16) (by omega) (i % 16) (by omega)
    rw [hv] at hlow
    omega
  · rw [htrip] at hs
    obtain ⟨hk, hj, hr, -, hle⟩ := hs
    have hmax := hle (i / 16) (by omega) (i % 16) (by omega)
    rw [hv] at hmax
    exact ⟨k, j, r, rfl, hk, hj, by rw [hr, dieVal_eq h hk hj], hmax⟩

theorem tripOf_none {rs : List Int} (h : rs.length = 48) (hr : ∀ i < 48, rs.getD i 0 < 16000) : tripOf rs = none := by
  have hs := tripOf_spec rs
  rcases htrip : tripOf rs with _ | ⟨k, j, r⟩
  · rfl
  · rw [htrip] at hs
    obtain ⟨hk, hj, hrv, h16, -⟩ := hs
    rw [dieVal_eq h hk hj] at hrv
    have hlow := hr (16 * k + j) (by omega)
    omega

/-! ### Die temperatures (R31) -/

theorem pgTherm_injective {j k : Nat} (hj : j < 3) (hk : k < 3) (h : j ≠ k) : pgTherm j ≠ pgTherm k := by
  have hall : ∀ j < 3, ∀ k < 3, j ≠ k → pgTherm j ≠ pgTherm k := by decide
  exact hall j hj k hk h

theorem pgTherm_ne_pgStarter {k n : Nat} (hn : n < 12) : pgTherm k ≠ pgStarter n := by
  unfold pgTherm dieCommon pgThermHub pgStarter lineBase
  split
  · omega
  · split <;> omega

/-- From `d` to `e` only registers of page `p` and events have moved. -/
def OnPage (p : Nat) (d e : Dev) : Prop :=
  (∃ r ev, e = { d with regs := r, evt := ev }) ∧
  ∀ q f, q ≠ p → fldAt f < 131072 → getR e q f = getR d q f

theorem OnPage.refl (p : Nat) (d : Dev) : OnPage p d d := ⟨⟨d.regs, d.evt, rfl⟩, fun _ _ _ _ => rfl⟩

theorem OnPage.trans (p : Nat) (a b c : Dev) : OnPage p a b → OnPage p b c → OnPage p a c := by
  rintro ⟨⟨r, ev, rfl⟩, h⟩ ⟨⟨r', ev', rfl⟩, g⟩
  exact ⟨⟨r', ev', rfl⟩, fun q f hq hf => (g q f hq hf).trans (h q f hq hf)⟩

theorem setR_onPage (d : Dev) (p : Nat) {f : Fld} (v : Nat) (hf : fldAt f < 131072) : OnPage p d (setR d p f v) :=
  ⟨⟨_, d.evt, rfl⟩, fun _ _ hq hg => getR_setR_page d v (Ne.symm hq) hf hg⟩

theorem raise_onPage (d : Dev) (p b : Nat) : OnPage p d (raise d p b) := ⟨⟨d.regs, _, rfl⟩, fun _ _ _ _ => rfl⟩

theorem fldAt_THERM_SENSOR {i : Nat} (hi : i < 16) : fldAt (F.THERM_SENSOR i) < 131072 := by
  simp only [fldAt, F.THERM_SENSOR]; omega

/-- The readings of a die, its valid sensors. -/
def validOf (rs : List Int) : List Nat := (List.range 16).filter (sensorValid rs)

/-- What `thermPut` writes last. -/
theorem thermPut_eq (d : Dev) (k : Nat) (rs : List Int) :
    ∃ e, OnPage (pgTherm k) d e ∧ thermPut d k rs =
      (let vs := (validOf rs).map (fun i => rs.getD i (-32768))
       setS (setS (setR e (pgTherm k) F.THERM_VALID (maskOf (validOf rs))) (pgTherm k) F.THERM_TEMP_MEAN
         (if vs.isEmpty then -32768 else rne (sumI vs) vs.length)) (pgTherm k) F.THERM_TEMP_MAX (maxI (-32768) vs)) := by
  refine ⟨_, ?_, rfl⟩
  refine .trans _ _ _ _ (foldl_rel (OnPage.refl _) (OnPage.trans _) (fun a i hi => ?_) d)
    (onlyIf_rel (f := fun d => raise d (pgTherm k) 8) (OnPage.refl _) _ _ (raise_onPage ..))
  exact setR_onPage a _ _ (fldAt_THERM_SENSOR (List.mem_range.1 hi))

theorem thermPut_onPage (d : Dev) (k : Nat) (rs : List Int) : OnPage (pgTherm k) d (thermPut d k rs) := by
  obtain ⟨e, he, h⟩ := thermPut_eq d k rs
  rw [h]
  exact .trans _ _ _ _ he (.trans _ _ _ _ (setR_onPage _ _ (f := F.THERM_VALID) _ (by decide))
    (.trans _ _ _ _ (setR_onPage _ _ (f := F.THERM_TEMP_MEAN) _ (by decide))
      (setR_onPage _ _ (f := F.THERM_TEMP_MAX) _ (by decide))))

/-- A die shows the mean, the maximum and the validity of its sensors. -/
theorem thermPut_shows (d : Dev) (k : Nat) (rs : List Int) :
    let e := thermPut d k rs
    let vs := (validOf rs).map (fun i => rs.getD i (-32768))
    getR e (pgTherm k) F.THERM_TEMP_MEAN = ux 16 (if vs.isEmpty then -32768 else rne (sumI vs) vs.length) % 65536 ∧
    getR e (pgTherm k) F.THERM_TEMP_MAX = ux 16 (maxI (-32768) vs) % 65536 ∧
    getR e (pgTherm k) F.THERM_VALID = maskOf (validOf rs) % 65536 := by
  obtain ⟨e, -, h⟩ := thermPut_eq d k rs
  simp only [h]
  refine ⟨?_, getR_setR_self .., ?_⟩
  · unfold setS; rw [getR_setR_fld _ _ _ (by decide)]; exact getR_setR_self ..
  · unfold setS; rw [getR_setR_fld _ _ _ (by decide), getR_setR_fld _ _ _ (by decide)]; exact getR_setR_self ..

end Sys2Proof.Machine

end

section
/-! PROOFS. Dies that read the same throughout, and wakes, catch-up and heat together (R12–R14, R25, R27, R31, R32). -/

namespace Sys2Proof.Machine

open Sys2Proof

/-! ### Dies whose sensors all read the same (R31) -/

theorem insI_replicate (r : Int) (m : Nat) : insI r (List.replicate m r) = List.replicate (m + 1) r := by
  cases m with
  | zero => rfl
  | succ m => rw [List.replicate_succ, insI, if_pos le_rfl]; rfl

theorem sortI_replicate (r : Int) (m : Nat) : sortI (List.replicate m r) = List.replicate m r := by
  unfold sortI
  induction m with
  | zero => rfl
  | succ m ih => rw [List.replicate_succ', List.foldl_concat, ih, insI_replicate, List.replicate_succ']

theorem median2_replicate (r : Int) {m : Nat} (hm : m % 2 = 1) : median2 (List.replicate m r) = 2 * r := by
  have hget : (List.replicate m r).getD (m / 2) 0 = r := by
    rw [List.getD_eq_getElem?_getD, List.getElem?_replicate_of_lt (by omega)]; rfl
  simp only [median2, sortI_replicate, List.length_replicate, if_pos hm, hget]

theorem sumI_replicate (r : Int) (m : Nat) : sumI (List.replicate m r) = m * r := by
  unfold sumI
  induction m with
  | zero => simp
  | succ m ih => rw [List.replicate_succ', List.foldl_concat, ih]; push_cast; ring

theorem rne_mul (r : Int) {m : Nat} (hm : 0 < m) : rne (m * r) m = r := by
  have hq : (m : Int) * r / (m : Int) = r := Int.mul_ediv_cancel_left r (by omega)
  have hr : 2 * ((m : Int) * r - r * (m : Int)) = 0 := by ring
  simp only [rne, hq, hr]
  rw [if_pos (by omega)]

theorem foldl_max_replicate (r : Int) (m : Nat) : (List.replicate m r).foldl max r = r := by
  induction m with
  | zero => rfl
  | succ m ih => rw [List.replicate_succ, List.foldl_cons, max_self, ih]

theorem getD_replicate_of_lt {r a : Int} {i m : Nat} (h : i < m) : (List.replicate m r).getD i a = r := by
  rw [List.getD_eq_getElem?_getD, List.getElem?_replicate_of_lt h]; rfl

/-- Readings by sensors below `m` of a die that reads `r` throughout. -/
theorem map_getD_replicate {r a : Int} {m : Nat} {l : List Nat} (h : ∀ i ∈ l, i < m) :
    l.map (fun i => (List.replicate m r).getD i a) = List.replicate l.length r := by
  rw [List.map_congr_left (g := fun _ => r) (fun i hi => getD_replicate_of_lt (h i hi)), List.map_const']

/-- The 15 other sensors of a die whose 16 read `r`. -/
theorem others_replicate {r : Int} (hr : inRange r = true) {i : Nat} (hi : i < 16) :
    ((List.range 16).filter (fun j => j != i && inRange ((List.replicate 16 r).getD j (-32768)))).map
      (fun j => (List.replicate 16 r).getD j (-32768)) = List.replicate 15 r := by
  have hf : (List.range 16).filter (fun j => j != i && inRange ((List.replicate 16 r).getD j (-32768))) =
      (List.range 16).filter (fun j => j != i) := by
    refine List.filter_congr fun j hj => ?_
    rw [getD_replicate_of_lt (List.mem_range.1 hj), hr, Bool.and_true]
  have hlen : ∀ i < 16, ((List.range 16).filter (fun j => j != i)).length = 15 := by decide
  rw [hf, map_getD_replicate (fun j hj => List.mem_range.1 (List.mem_filter.1 hj).1), hlen i hi]

theorem validOf_replicate {r : Int} (hr : inRange r = true) : validOf (List.replicate 16 r) = List.range 16 := by
  refine List.filter_eq_self.2 fun i hi => ?_
  have hi := List.mem_range.1 hi
  simp only [sensorValid, others_replicate hr hi, getD_replicate_of_lt hi, median2_replicate r (m := 15) rfl, hr]
  simp

theorem dieReadings_replicate (r : Int) {k : Nat} (hk : k < 3) : dieReadings (List.replicate 48 r) k = List.replicate 16 r := by
  rw [dieReadings, List.drop_replicate, List.take_replicate, min_eq_left (by omega)]

theorem sx_ux {r : Int} (hl : -32768 ≤ r) (hh : r < 32768) : sx 16 (ux 16 r % 65536) = r := by
  have h16 : (2 : Nat) ^ 16 = 65536 := rfl
  simp only [sx, ux, h16]
  by_cases hr : 0 ≤ r
  · rw [if_pos (by omega)]; omega
  · rw [if_neg (by omega)]; omega

/-- What a die shows whose 16 sensors read `r`. -/
def ShowsTemp (k : Nat) (r : Int) (d : Dev) : Prop :=
  getS d (pgTherm k) F.THERM_TEMP_MEAN = r ∧ getS d (pgTherm k) F.THERM_TEMP_MAX = r ∧
  getR d (pgTherm k) F.THERM_VALID = 65535

theorem thermPut_replicate (d : Dev) (k : Nat) {r : Int} (hl : -7040 ≤ r) (hh : r < 16000) :
    ShowsTemp k r (thermPut d k (List.replicate 16 r)) := by
  obtain ⟨hmean, hmax, hvalid⟩ := thermPut_shows d k (List.replicate 16 r)
  have hin : inRange r = true := by simp only [inRange, Bool.and_eq_true, decide_eq_true_eq]; omega
  rw [validOf_replicate hin, map_getD_replicate (fun j hj => List.mem_range.1 hj), List.length_range] at hmean hmax
  rw [validOf_replicate hin] at hvalid
  have hsx := sx_ux (r := r) (by omega) (by omega)
  refine ⟨?_, ?_, hvalid.trans (by decide)⟩
  · rw [getS, hmean, sumI_replicate, List.length_replicate, rne_mul r (by decide)]; exact hsx
  · rw [getS, hmax, List.replicate_succ, maxI, foldl_max_replicate]; exact hsx

/-! ### An update of all sensors (R31, R32) -/

/-- From `d` to `e` only registers of temperature pages and events have moved. -/
def OnTherm (d e : Dev) : Prop :=
  (∃ r ev, e = { d with regs := r, evt := ev }) ∧
  ∀ q f, (∀ k, q ≠ pgTherm k) → fldAt f < 131072 → getR e q f = getR d q f

theorem OnTherm.refl (d : Dev) : OnTherm d d := ⟨⟨d.regs, d.evt, rfl⟩, fun _ _ _ _ => rfl⟩

theorem OnTherm.trans (a b c : Dev) : OnTherm a b → OnTherm b c → OnTherm a c := by
  rintro ⟨⟨r, ev, rfl⟩, h⟩ ⟨⟨r', ev', rfl⟩, g⟩
  exact ⟨⟨r', ev', rfl⟩, fun q f hq hf => (g q f hq hf).trans (h q f hq hf)⟩

theorem OnPage.onTherm {k : Nat} {d e : Dev} (h : OnPage (pgTherm k) d e) : OnTherm d e :=
  ⟨h.1, fun q f hq hf => h.2 q f (hq k) hf⟩

/-- The readings of the three dies are taken. -/
def thermPuts (d : Dev) (rs : List Int) : Dev := (List.range 3).foldl (fun d k => thermPut d k (dieReadings rs k)) d

theorem thermPuts_onTherm (d : Dev) (rs : List Int) : OnTherm d (thermPuts d rs) :=
  foldl_rel OnTherm.refl OnTherm.trans (fun d k _ => (thermPut_onPage d k _).onTherm) d

theorem gateIdle_onTherm {d e : Dev} (h : OnTherm d e) {n : Nat} (hn : n < 12) (pg : Bool) :
    gateIdle e n pg = gateIdle d n pg := by
  unfold gateIdle
  cases pg <;> exact h.2 _ _ (fun k => (pgTherm_ne_pgStarter hn).symm) (by decide)

theorem thermPuts_replicate (d : Dev) {r : Int} (hl : -7040 ≤ r) (hh : r < 16000) {k : Nat} (hk : k < 3) :
    ShowsTemp k r (thermPuts d (List.replicate 48 r)) := by
  have hstep (a : Dev) (m : Nat) (hm : m ∈ List.range 3) (h : ShowsTemp k r a) :
      ShowsTemp k r (thermPut a m (dieReadings (List.replicate 48 r) m)) := by
    have hm := List.mem_range.1 hm
    by_cases hmk : m = k
    · subst hmk; rw [dieReadings_replicate r hm]; exact thermPut_replicate a m hl hh
    · obtain ⟨-, hp⟩ := thermPut_onPage a m (dieReadings (List.replicate 48 r) m)
      have hne := pgTherm_injective hk hm (Ne.symm hmk)
      unfold ShowsTemp getS
      rw [hp _ F.THERM_TEMP_MEAN hne (by decide), hp _ F.THERM_TEMP_MAX hne (by decide), hp _ F.THERM_VALID hne (by decide)]
      exact h
  refine foldl_attains (I := fun _ => True) (List.mem_range.2 hk) (fun _ _ _ _ => trivial) (fun a _ => ?_)
    (fun a m hm _ h => hstep a m hm h) trivial
  rw [dieReadings_replicate r hk]
  exact thermPut_replicate a k hl hh

theorem doThermalUpdate_some {rs : List Int} {x : Nat × Nat × Int} (t : Nat) (d : Dev) (h : tripOf rs = some x) :
    doThermalUpdate t rs d = thermalTrip (thermPuts (advance d t) rs) x := by
  simp only [doThermalUpdate, h]; rfl

theorem doThermalUpdate_none {rs : List Int} (t : Nat) (d : Dev) (h : tripOf rs = none) :
    doThermalUpdate t rs d = thermPuts (advance d t) rs := by
  simp only [doThermalUpdate, h]; rfl

theorem mem_settle_out {d : Dev} {o : Output} (h : o ∈ d.out) : o ∈ (settle d).out := by
  obtain ⟨q, vs, hs⟩ := settle_frame d; rw [hs]; exact List.mem_append_left _ h

end Sys2Proof.Machine

open Sys2Proof Sys2Proof.Machine

/-- Settles O16: wakes, catch-up and points command by command, the trip by the highest of the readings. -/
theorem clustersWakeUnitsCatchUpAndHeatTrips : Obligations.ClustersWakeUnitsCatchUpAndHeatTrips := by
  unfold Obligations.ClustersWakeUnitsCatchUpAndHeatTrips
  refine ⟨fun s t hs => ⟨?_, ?_, ?_, ?_, ?_, ?_, ?_, ?_⟩, fun s t hs => ⟨?_, ?_⟩⟩
  · intro n hn c hc2 hc hp hw
    have hg := (gives_clusterReady t hn hc hs).of_eq ((doClusterReady_wakes t hp hw).trans (clusterReady_of_two_le hc2))
    refine does_of_gives hg ?_
    generalize hd : setCluster _ _ _ _ = d
    obtain ⟨⟨us, ev, he⟩, -⟩ := stalePages_more d (clusterPages n c)
    have hst (p : Nat) (hpm : p ∈ clusterPages n c) (u : Nat) (hu : u < unitCount p) := isStale_stalePages d hpm hu
    simp only [cluster_settle, isStale_settle, settle_ticks, settle_regs, settle_unitEpoch, settle_mem]
    refine ⟨?_, ?_, hst, ?_⟩
    · rw [he, ← hd]; exact cluster_setCluster ..
    · rw [he, ← hd]; exact (le_max_right _ _).trans (le_max_right _ _)
    · rw [he, ← hd]; exact ⟨rfl, rfl, rfl⟩
  · intro n hn c hc hp hw
    exact (gives_clusterReady t hn hc hs).of_eq (doClusterReady_wakes t hp hw)
  · intro n hn c hc h
    exact (gives_clusterReady t hn hc hs).of_eq (doClusterReady_not t h)
  · intro n hn hf ho hb hl
    exact (gives_catchUp t (by omega) hs).of_eq (doCatchUp_line t hn hf ho hb hl)
  · intro n hn hl
    exact (gives_catchUp t (by omega) hs).of_eq (doCatchUp_not t hn hl)
  · intro r hr12 hr hf
    refine does_of_gives ((gives_catchUp t hr hs).of_eq (doCatchUp_service t hr12 hf)) ?_
    obtain ⟨⟨⟨us, ue, he⟩, hu⟩, hcur⟩ :=
      catchPages_spec (fun p hp => regionOf_of_mem_regionPages hr12 hp) (advance s.dev t)
    simp only [isStale_settle, unitEpochOf_settle, settle_epochs, settle_regs, settle_evt, settle_mem]
    refine ⟨hcur, fun p hp u hlt hst => ?_, ?_⟩
    · rcases hu p u with ⟨hsame, -⟩ | ⟨-, -, hep⟩
      · rw [hcur p hp u hlt] at hsame
        exact absurd (hsame.trans hst) Bool.false_ne_true
      · exact hep
    · rw [he]; exact ⟨rfl, rfl, rfl, rfl⟩
  · intro n hn c hc hx hh
    obtain ⟨hcl, hpt, hev, h6, hm⟩ := doDvfsDone_spec t hx hh
    refine does_of_gives (gives_dvfsDone t hn hc hs) ?_
    simp only [cluster_settle, getR_settle, coreState_settle, settle_mem]
    exact ⟨hcl, hpt, by simpa using hev, fun i hi _ => h6 i hi, hm⟩
  · intro n hn c hc h
    exact (gives_dvfsDone t hn hc hs).of_eq (doDvfsDone_not t h)
  · intro r hl hh
    have hnone : tripOf (List.replicate 48 r) = none :=
      tripOf_none List.length_replicate fun i hi => by rw [getD_replicate_of_lt hi]; exact hh
    refine does_of_gives ((gives_thermalSensorUpdate t _ hs).of_eq (doThermalUpdate_none t _ hnone)) fun k hk => ?_
    obtain ⟨hmean, hmax, hvalid⟩ := thermPuts_replicate (advance s.dev t) hl hh hk
    obtain ⟨⟨rg, ev, he⟩, -⟩ := thermPuts_onTherm (advance s.dev t) (List.replicate 48 r)
    simp only [getS, getR_settle, settle_mem, settle_boot]
    exact ⟨hmean, hmax, hvalid, by rw [he]; rfl, by rw [he]; rfl⟩
  · intro rs i hi hlen h16
    obtain ⟨k, j, r, htrip, hk, hj, hr, hle⟩ := tripOf_some hlen hi h16
    obtain ⟨hheld, htripped, hgates, hrec, hpin, hlines⟩ := thermalTrip_spec (thermPuts (advance s.dev t) rs) (k, j, r)
    refine does_of_gives ((gives_thermalSensorUpdate t rs hs).of_eq (doThermalUpdate_some t _ htrip)) ?_
    simp only [settle_boot, settle_gatesHeld]
    refine ⟨hheld, htripped, hgates, ⟨k, j, r, hrec, hk, hj, hr, hle⟩, mem_settle_out hpin, fun n hn => ?_⟩
    have hidle := gateIdle_onTherm (thermPuts_onTherm (advance s.dev t) rs) hn
    obtain ⟨hdac, hp, ht⟩ := hlines n hn
    rw [hidle] at hp ht
    exact ⟨mem_settle_out hdac, mem_settle_out hp, mem_settle_out ht⟩

end

section
/-! PROOFS. What the work of one Pipe cluster leaves to the others (R19, R24). -/

namespace Sys2Proof.Machine

open Sys2Proof

theorem gives_converterWord {s : State} {n num ph halt : Nat} {raw : List Int} (t : Nat) (hn : n < 12) (hp : ph < 3)
    (hh : halt < 16) (hr : rawFits num raw = true) (hs : Awake s) :
    Gives (.converterWord t n num ph halt raw) s (doConverterWord t n num ph halt raw s.dev) :=
  gives_of_act rfl (by simp [hn, hp, hh, hr]) hs

theorem gives_statWindowEnd {s : State} {n c : Nat} {mean lo hi : Int} (t ovr : Nat) (hn : n < 12) (hc : c < 7)
    (hf : 5 ≤ c ∨ statFits mean lo hi = true) (hs : Awake s) :
    Gives (.statWindowEnd t n c mean lo hi ovr) s (doStatEnd t n c mean lo hi ovr s.dev) :=
  gives_of_act rfl (by simpa [hn, hc] using hf) hs

@[simp] theorem relay_settle (d : Dev) (n k : Nat) : relay (settle d) n k = relay d n k := by simp [relay]
@[simp] theorem cond_settle (d : Dev) (n k : Nat) : cond (settle d) n k = cond d n k := by simp [cond]
@[simp] theorem rx_settle (d : Dev) (n : Nat) : rx (settle d) n = rx d n := by simp [rx]
@[simp] theorem relay_setRelay (d : Dev) (n k : Nat) (x : RelaySt) : relay (setRelay d n k x) n k = x := by
  simp [relay, setRelay]
@[simp] theorem cond_setCond (d : Dev) (n k : Nat) (x : CondSt) : cond (setCond d n k x) n k = x := by simp [cond, setCond]
@[simp] theorem rx_setRx (d : Dev) (n : Nat) (x : RxSt) : rx (setRx d n x) n = x := by simp [rx, setRx]

/-! ### What the work of one Pipe cluster leaves to another (R19, R24) -/

/-- A step of a fold that keeps `R` on what `g` gives. -/
theorem foldl_proj_rel {α β : Type} {R : Dev → Dev → Prop} (hrefl : ∀ d, R d d) (htrans : ∀ a b c, R a b → R b c → R a c)
    (g : β → Dev) {f : β → α → β} (h : ∀ b a, R (g b) (g (f b a))) (l : List α) (b : β) : R (g b) (g (l.foldl f b)) := by
  induction l generalizing b with
  | nil => exact hrefl _
  | cons a l ih => exact htrans _ _ _ (h b a) (ih _)

/-- A fold's step for `a`, between steps that keep `R`. -/
theorem foldl_around {α : Type} {R : Dev → Dev → Prop} (hrefl : ∀ d, R d d) (htrans : ∀ a b c, R a b → R b c → R a c)
    {f : Dev → α → Dev} {l : List α} {a : α} (ha : a ∈ l) (hnd : l.Nodup) (h : ∀ d, ∀ b, b ≠ a → R d (f d b)) (d : Dev) :
    ∃ e, R d e ∧ R (f e a) (l.foldl f d) := by
  obtain ⟨l₁, l₂, rfl⟩ := List.append_of_mem ha
  have hne : ∀ b ∈ l₁ ++ l₂, b ≠ a := by
    rintro b hb rfl
    exact (List.nodup_cons.1 (List.nodup_middle.1 hnd)).1 hb
  refine ⟨l₁.foldl f d, foldl_rel hrefl htrans (fun d b hb => h d b (hne b (by simp [hb]))) d, ?_⟩
  rw [List.foldl_append, List.foldl_cons]
  exact foldl_rel hrefl htrans (fun d b hb => h d b (hne b (by simp [hb]))) _

/-- From `d` to `e` nothing has moved that Pipe cluster `k` of line `n` works with. -/
structure Apart (n k : Nat) (d e : Dev) : Prop where
  mem : e.mem = d.mem
  fenced : e.fenced = d.fenced
  cals : e.cals = d.cals
  line : ∀ f, fldAt f < 131072 → getR e (pgLine n) f = getR d (pgLine n) f
  relay : relay e n k = relay d n k
  cond : cond e n k = cond d n k
  pipe : ∀ s, s / 2 = k → pipe e n s = pipe d n s
  toFrame : toFrame e n k = toFrame d n k

theorem Apart.refl (n k : Nat) (d : Dev) : Apart n k d d := ⟨rfl, rfl, rfl, fun _ _ => rfl, rfl, rfl, fun _ _ => rfl, rfl⟩

theorem Apart.trans (n k : Nat) (a b c : Dev) (h : Apart n k a b) (g : Apart n k b c) : Apart n k a c where
  mem := g.mem.trans h.mem
  fenced := g.fenced.trans h.fenced
  cals := g.cals.trans h.cals
  line f hf := (g.line f hf).trans (h.line f hf)
  relay := g.relay.trans h.relay
  cond := g.cond.trans h.cond
  pipe s hs := (g.pipe s hs).trans (h.pipe s hs)
  toFrame := g.toFrame.trans h.toFrame

theorem setR_apart (d : Dev) {n p : Nat} (k : Nat) {f : Fld} (v : Nat) (hp : p ≠ pgLine n) (hf : fldAt f < 131072) :
    Apart n k d (setR d p f v) :=
  { Apart.refl n k d with line := fun _ hg => getR_setR_page d v hp hf hg }

theorem addC_apart (d : Dev) {n p : Nat} (k : Nat) {f : Fld} (v : Nat) (hp : p ≠ pgLine n) (hf : fldAt f < 131072) :
    Apart n k d (addC d p f v) := by rw [addC_eq]; exact setR_apart d k _ hp hf

theorem raise_apart (d : Dev) (n k p b : Nat) : Apart n k d (raise d p b) := { Apart.refl n k d with }

theorem raiseOn_apart (d : Dev) (n k p b : Nat) (was now : Bool) : Apart n k d (raiseOn d p b was now) := by
  unfold raiseOn
  split
  · exact raise_apart ..
  · exact .refl n k d

theorem setRx_apart (d : Dev) (n k m : Nat) (x : RxSt) : Apart n k d (setRx d m x) := { Apart.refl n k d with }

theorem setStarter_apart (d : Dev) (n k m : Nat) (x : StarterSt) : Apart n k d (setStarter d m x) := { Apart.refl n k d with }

theorem setPipe_apart (d : Dev) (n : Nat) {k s : Nat} (x : PipeSt) (h : s / 2 ≠ k) : Apart n k d (setPipe d n s x) :=
  { Apart.refl n k d with pipe := fun _ hr => Store.get_set_ne _ _ _ _ (by omega) }

theorem setToFrame_apart (d : Dev) (n : Nat) {j k : Nat} (l : List Nat) (h : j ≠ k) : Apart n k d (setToFrame d n j l) :=
  { Apart.refl n k d with toFrame := Store.get_set_ne _ _ _ _ (by omega) }

theorem setCond_apart (d : Dev) (n : Nat) {j k : Nat} (x : CondSt) (h : j ≠ k) : Apart n k d (setCond d n j x) :=
  { Apart.refl n k d with cond := Store.get_set_ne _ _ _ _ (by omega) }

theorem setRelay_apart (d : Dev) (n : Nat) {j k : Nat} (x : RelaySt) (h : j ≠ k) : Apart n k d (setRelay d n j x) :=
  { Apart.refl n k d with relay := Store.get_set_ne _ _ _ _ (by omega) }

/-! ### What Pipe cluster `j` does to its own channel: it takes words only -/

/-- From `d` to `e` Pipe cluster `j` has worked: the others' state, the words discarded and the GAP to come are as they were. -/
structure Works (n j : Nat) (d e : Dev) : Prop where
  apart : ∀ k, j ≠ k → Apart n k d e
  drops : (relay e n j).drops = (relay d n j).drops
  gapNext : (relay e n j).gapNext = (relay d n j).gapNext

theorem Works.refl (n j : Nat) (d : Dev) : Works n j d d := ⟨fun k _ => .refl n k d, rfl, rfl⟩

theorem Works.trans (n j : Nat) (a b c : Dev) (h : Works n j a b) (g : Works n j b c) : Works n j a c :=
  ⟨fun k hk => .trans n k _ _ _ (h.apart k hk) (g.apart k hk), g.drops.trans h.drops, g.gapNext.trans h.gapNext⟩

theorem Works.mem {n j : Nat} {d e : Dev} (h : Works n j d e) : e.mem = d.mem := (h.apart (j + 1) (by omega)).mem

theorem pgSlot_ne_pgLine (n s : Nat) : pgSlot n s ≠ pgLine n := by unfold pgSlot pgLine; omega

theorem setPipe_works (d : Dev) (n s : Nat) (x : PipeSt) : Works n (s / 2) d (setPipe d n s x) :=
  ⟨fun _ h => setPipe_apart d n x h, rfl, rfl⟩

theorem setToFrame_works (d : Dev) (n j : Nat) (l : List Nat) : Works n j d (setToFrame d n j l) :=
  ⟨fun _ h => setToFrame_apart d n l h, rfl, rfl⟩

theorem setCond_works (d : Dev) (n j : Nat) (x : CondSt) : Works n j d (setCond d n j x) :=
  ⟨fun _ h => setCond_apart d n x h, rfl, rfl⟩

theorem setFifo_works (d : Dev) (n j : Nat) (l : List ConvW) : Works n j d (setRelay d n j { relay d n j with fifo := l }) :=
  ⟨fun _ h => setRelay_apart d n _ h, by rw [relay_setRelay], by rw [relay_setRelay]⟩

theorem setStarter_works (d : Dev) (n j : Nat) (x : StarterSt) : Works n j d (setStarter d n x) :=
  ⟨fun _ _ => setStarter_apart .., rfl, rfl⟩

theorem raiseOn_works (d : Dev) (n j p b : Nat) (was now : Bool) : Works n j d (raiseOn d p b was now) := by
  refine ⟨fun _ _ => raiseOn_apart .., ?_, ?_⟩ <;> unfold raiseOn <;> split <;> rfl

theorem bumpSlot_works (d : Dev) (n j s : Nat) {f : Fld} (hf : fldAt f < 131072) : Works n j d (bump d (pgSlot n s) f) := by
  refine ⟨fun _ _ => addC_apart d _ 1 (pgSlot_ne_pgLine n s) hf, ?_, ?_⟩ <;> unfold bump <;> rw [addC_eq] <;> rfl

theorem countBin_works (d : Dev) (n j s : Nat) (a o u t : Bool) : Works n j d (countBin d n s a o u t) := by
  have hb (f : Fld) (hf : fldAt f < 131072) (c : Bool) (d : Dev) : Works n j d (onlyIf c (fun d => bump d (pgSlot n s) f) d) :=
    onlyIf_rel (f := fun d => bump d (pgSlot n s) f) (Works.refl n j) d c (bumpSlot_works d n j s hf)
  exact .trans _ _ _ _ _ (bumpSlot_works d n j s (by decide)) <| .trans _ _ _ _ _ (hb F.SLOT_BINS_UNSETTLED (by decide) u _) <|
    .trans _ _ _ _ _ (hb F.SLOT_ACC_SATS (by decide) a _) <| .trans _ _ _ _ _ (hb F.SLOT_OUT_SATS (by decide) o _)
      (hb F.SLOT_TAIL_BINS (by decide) t _)

theorem oneBin_works (n s : Nat) (cs : List (Int × Int)) (a : Dev × PipeWin × List BinS) :
    Works n (s / 2) a.1 (oneBin n s cs a).1 := by
  obtain ⟨d, w, out⟩ := a
  exact .trans _ _ _ _ _ (raiseOn_works d n _ _ _ _ _) (.trans _ _ _ _ _ (setPipe_works _ n s _) (countBin_works _ n _ s _ _ _ _))

theorem oneWord_works (n s : Nat) (cs : List (Int × Int)) (a : Dev × PipeWin) : Works n (s / 2) a.1 (oneWord n s cs a).1 := by
  obtain ⟨d, w⟩ := a
  unfold oneWord
  dsimp only
  split
  · exact .refl ..
  · exact .trans _ _ _ _ _
      (foldl_proj_rel (Works.refl n _) (Works.trans n _) (fun a : Dev × PipeWin × List BinS => a.1)
        (f := fun a _ => oneBin n s cs a) (fun b _ => oneBin_works n s cs b) _ (d, w, []))
      (setToFrame_works _ n _ _)

theorem Works.ite {n j : Nat} {d a b : Dev} {c : Prop} [Decidable c] (ha : Works n j d a) (hb : Works n j d b) :
    Works n j d (if c then a else b) := by split <;> assumption

theorem emitHead_works (n s : Nat) (d : Dev) : Works n (s / 2) d (emitHead n s d) := by
  unfold emitHead
  extract_lets x
  rcases hx : x.wins with _ | ⟨w, r⟩
  · exact .refl ..
  · refine .ite (.refl ..) ?_
    extract_lets e v z cs
    have he : Works n (s / 2) d e := .ite (.refl ..) (setToFrame_works ..)
    clear_value e
    refine .ite (.trans _ _ _ _ _ he (setPipe_works ..)) ?_
    have hbins : Works n (s / 2) e ((List.range 32).foldl (fun a _ => oneWord n s cs a) (e, v)).1 :=
      foldl_proj_rel (Works.refl n _) (Works.trans n _) (fun a : Dev × PipeWin => a.1)
        (f := fun a _ => oneWord n s cs a) (fun b _ => oneWord_works n s cs b) _ (e, v)
    generalize List.foldl (fun a _ => oneWord n s cs a) (e, v) (List.range 32) = a at hbins ⊢
    obtain ⟨g, u⟩ := a
    exact .ite (.trans _ _ _ _ _ he (.trans _ _ _ _ _ hbins (setPipe_works ..)))
      (.trans _ _ _ _ _ he (.trans _ _ _ _ _ hbins (setPipe_works ..)))

theorem emitPipe_works (n : Nat) (d : Dev) (s : Nat) : Works n (s / 2) d (emitPipe n d s) :=
  foldl_rel (Works.refl n _) (Works.trans n _) (fun d _ _ => emitHead_works n s d) d

theorem extendPipes_works (d : Dev) (n j : Nat) : Works n j d (extendPipes d n j) := by
  refine foldl_rel (Works.refl n _) (Works.trans n _) (fun e s hs => ?_) d
  have hj : s / 2 = j := by
    rcases List.mem_pair.1 hs with rfl | rfl <;> omega
  dsimp only
  split
  · exact .refl ..
  · exact hj ▸ setPipe_works e n s _

theorem fillGap_works (n j ph fuel s : Nat) (d : Dev) : Works n j d (fillGap n j ph fuel s d) := by
  induction fuel generalizing s d with
  | zero => exact .refl ..
  | succ fuel ih =>
    exact .trans _ _ _ _ _ (setCond_works ..) (.trans _ _ _ _ _ (extendPipes_works ..) (ih ..))

theorem takeWord_works (d : Dev) (n j : Nat) (w : ConvW) : Works n j d (takeWord d n j w) := by
  unfold takeWord
  extract_lets e e1
  have he : Works n j d e := by
    simp only [e]
    split
    · split
      · exact fillGap_works ..
      · exact .refl ..
    · exact .refl ..
  clear_value e
  have h1 : Works n j d e1 := .trans _ _ _ _ _ he (setCond_works ..)
  clear_value e1
  have h2 : Works n j e1 (onlyIf (j == 0) (fun d => retWord d n w) e1) :=
    onlyIf_rel (f := fun d => retWord d n w) (Works.refl n j) e1 _ (setStarter_works ..)
  exact .trans _ _ _ _ _ h1 (.trans _ _ _ _ _ h2 (extendPipes_works ..))

theorem pumpPipes_works (n j fuel : Nat) (d : Dev) : Works n j d (pumpPipes n j fuel d) := by
  induction fuel generalizing d with
  | zero => exact .refl ..
  | succ fuel ih =>
    unfold pumpPipes
    have h0 := emitPipe_works n d (2 * j)
    have h1 := emitPipe_works n (emitPipe n d (2 * j)) (2 * j + 1)
    rw [show 2 * j / 2 = j by omega] at h0
    rw [show (2 * j + 1) / 2 = j by omega] at h1
    have h2 := Works.trans _ _ _ _ _ h0 h1
    generalize emitPipe n (emitPipe n d (2 * j)) (2 * j + 1) = e at h2 ⊢
    dsimp only
    split
    · exact h2
    · split
      · exact h2
      · exact .trans _ _ _ _ _ h2 (.trans _ _ _ _ _ (setFifo_works ..) (.trans _ _ _ _ _ (takeWord_works ..) (ih _)))

end Sys2Proof.Machine

end

section
/-! PROOFS. A converter word on its way to a Pipe cluster, and the conditioning of a first one (R24, R115, R116, R144). -/

namespace Sys2Proof.Machine

open Sys2Proof

/-! ### What the waveforms played and auto-ranging leave (R91, R121) -/

theorem pgRx_ne_pgLine (n : Nat) : pgRx n ≠ pgLine n := by unfold pgRx pgLine; omega
theorem pgStarter_ne_pgRx (n : Nat) : pgStarter n ≠ pgRx n := by unfold pgStarter pgRx; omega

/-- From `d` to `e` the waveforms of line `n` have played: only its Starter, its page and events have moved. -/
def Played (n : Nat) (d e : Dev) : Prop :=
  (∃ r ev st, e = { d with regs := r, evt := ev, starters := st }) ∧
  ∀ q f, q ≠ pgStarter n → fldAt f < 131072 → getR e q f = getR d q f

theorem clipRun_played (d : Dev) (n t : Nat) : Played n d (clipRun d n t) := by
  have hrefl : Played n d d := ⟨⟨d.regs, d.evt, d.starters, rfl⟩, fun _ _ _ _ => rfl⟩
  unfold clipRun
  extract_lets x b k e
  split
  · exact hrefl
  · have hs : Played n d (addC e (pgStarter n) F.STARTER_DAC_CLIPS k) := by
      rw [addC_eq]
      exact ⟨⟨_, _, _, rfl⟩, fun q f hq hf => getR_setR_page e _ (Ne.symm hq) (by decide) hf⟩
    unfold raiseOn
    split
    · obtain ⟨⟨r, ev, st, he⟩, hr⟩ := hs
      exact ⟨⟨r, _, st, by rw [he]; rfl⟩, hr⟩
    · exact hs

theorem Played.apart {n : Nat} {d e : Dev} (h : Played n d e) (k : Nat) : Apart n k d e := by
  obtain ⟨⟨r, ev, st, rfl⟩, hr⟩ := h
  exact ⟨rfl, rfl, rfl, fun f hf => hr _ f (by unfold pgLine pgStarter; omega) hf, rfl, rfl, fun _ _ => rfl, rfl⟩

theorem bumpRx_apart (d : Dev) (n k v : Nat) {f : Fld} (hf : fldAt f < 131072) : Apart n k d (addC d (pgRx n) f v) :=
  addC_apart d k v (pgRx_ne_pgLine n) hf

theorem fldAt_stepCounter (c : Nat) : fldAt (stepCounter c) < 131072 := by
  unfold stepCounter
  split
  · decide
  · split <;> decide

theorem gainAsk_apart (d : Dev) (n k s : Nat) (g : Option Nat) (dep : Int) : Apart n k d (gainAsk d n s g dep).1 := by
  unfold gainAsk
  extract_lets x e o y d1 d2
  have h1 : Apart n k d d1 := .trans _ _ _ _ _ (setRx_apart d n k n y)
    (setR_apart _ k _ (pgRx_ne_pgLine n) (f := F.RX_AR_DEPTH) (by decide))
  clear_value d1
  have h2 : Apart n k d1 d2 := onlyIf_rel (f := fun d => raise (addC d (pgRx n) F.RX_SLIPS o.2) (pgRx n) 14) (Apart.refl n k) d1 _
    (.trans _ _ _ _ _ (bumpRx_apart d1 n k o.2 (f := F.RX_SLIPS) (by decide)) (raise_apart ..))
  exact .trans _ _ _ _ _ h1 h2

theorem gainSet_apart (d : Dev) (n k s : Nat) (g : Option Nat) (dep : Int) (cs : List Nat) :
    Apart n k d (gainSet d n s g dep cs) := by
  have ha := gainAsk_apart d n k s g dep
  unfold gainSet
  dsimp only
  split
  · exact .refl ..
  · split
    · exact .trans _ _ _ _ _ ha
        (foldl_rel (Apart.refl n k) (Apart.trans n k) (fun d c _ => bumpRx_apart d n k 1 (fldAt_stepCounter c)) _)
    · exact ha

theorem arTrigger_apart (d : Dev) (n k s : Nat) : Apart n k d (arTrigger d n s) := by
  unfold arTrigger
  dsimp only
  split
  · exact .trans _ _ _ _ _ (setRx_apart ..)
      (.trans _ _ _ _ _ (bumpRx_apart _ n k 1 (f := F.RX_FLOOR_HITS) (by decide)) (raise_apart ..))
  · exact .trans _ _ _ _ _ (gainSet_apart ..) (setRx_apart ..)

theorem arSample_apart (d : Dev) (n k s i : Nat) (raw : Int) : Apart n k d (arSample d n s i raw) := by
  unfold arSample
  dsimp only
  split
  · exact .refl ..
  · split
    · exact .trans _ _ _ _ _ (setRx_apart ..) (arTrigger_apart ..)
    · exact setRx_apart ..

theorem arTick_apart (d : Dev) (n k m s : Nat) (raws : List Int) : Apart n k d (arTick d n m s raws) := by
  unfold arTick
  split
  · refine foldl_rel (Apart.refl n k) (Apart.trans n k) (fun d i _ => ?_) d
    split
    · exact .refl ..
    · exact arSample_apart ..
  · exact .refl ..

theorem arWord_apart (d : Dev) (n k num : Nat) (raw : List Int) : Apart n k d (arWord d n num raw none) :=
  foldl_rel (Apart.refl n k) (Apart.trans n k) (fun d _ _ => arTick_apart d n k n _ _) d

/-- With AR_EN at 0 auto-ranging does nothing. -/
theorem arWord_off {d : Dev} {n : Nat} (num : Nat) (raw : List Int) (h : flagL d (pgRx n) F.RX_AR_EN = false) :
    arWord d n num raw none = d := by
  unfold arWord arTick
  generalize List.range 8 = l
  induction l with
  | nil => rfl
  | cons i l ih => rw [List.foldl_cons]; simpa [h] using ih

/-! ### A word on its way to Pipe cluster `k` (R24, R116) -/

/-- The word is sent to one Pipe cluster. -/
def sendOne (n halt : Nat) (w : ConvW) (d : Dev) (k : Nat) : Dev :=
  if clusterUsed d n k then onlyIf (!bit halt k) (fun d => pumpPipes n k 10 d) (relayPut d n k w) else d

theorem Apart.clusterUsed_eq {n k : Nat} {d e : Dev} (h : Apart n k d e) : clusterUsed e n k = clusterUsed d n k := by
  have hruns (s : Nat) : pipeRuns e n s = pipeRuns d n s := by
    have h1 : lineState e n = lineState d n := h.line _ (by decide)
    have h2 : slotsN e n = slotsN d n := h.line _ (by decide)
    simp only [pipeRuns, h1, h2]
  simp only [clusterUsed, List.any_cons, List.any_nil, hruns, h.pipe (2 * k) (by omega), h.pipe (2 * k + 1) (by omega)]

theorem relayPut_apart (d : Dev) (n : Nat) {j k : Nat} (w : ConvW) (h : j ≠ k) : Apart n k d (relayPut d n j w) := by
  unfold relayPut
  dsimp only
  split <;> exact setRelay_apart d n _ h

theorem sendOne_apart (d : Dev) (n halt : Nat) {j k : Nat} (w : ConvW) (h : j ≠ k) : Apart n k d (sendOne n halt w d j) := by
  unfold sendOne
  split
  · exact .trans _ _ _ _ _ (relayPut_apart d n w h)
      (onlyIf_rel (f := fun d => pumpPipes n j 10 d) (Apart.refl n k) _ _ ((pumpPipes_works n j 10 _).apart k h))
  · exact .refl ..

/-- What Pipe cluster `k` makes of a word that is sent is what it makes of it alone. -/
theorem sendWord_around (d : Dev) (n halt : Nat) {k : Nat} (w : ConvW) (hk : k < 4) :
    ∃ e, Apart n k d e ∧ Apart n k (sendOne n halt w e k) (sendWord n halt d w) :=
  foldl_around (Apart.refl n k) (Apart.trans n k) (List.mem_range.2 hk) List.nodup_range
    (fun d _ hb => sendOne_apart d n halt w hb) d

theorem isFenced_congr {d e : Dev} (h : e.fenced = d.fenced) (r : Nat) : isFenced e r = isFenced d r := by
  unfold isFenced; rw [h]

/-- Without a credit, or in a fenced region, the word is discarded whole. -/
theorem relayPut_drop {d : Dev} {n k : Nat} (w : ConvW) (h : isFenced d n = true ∨ 8 ≤ (relay d n k).fifo.length) :
    relayPut d n k w = setRelay d n k { relay d n k with drops := (relay d n k).drops + 1, gapNext := true } := by
  have hc : (isFenced d n || decide (8 ≤ (relay d n k).fifo.length)) = true := by simpa using h
  simp only [relayPut, hc, if_true]

/-- With a credit it enters the FIFO, with GAP where one is due. -/
theorem relayPut_enters {d : Dev} {n k : Nat} (w : ConvW) (hf : isFenced d n = false) (hl : (relay d n k).fifo.length < 8) :
    relayPut d n k w = setRelay d n k { relay d n k with
      fifo := (relay d n k).fifo ++ [{ w with side := w.side + b2n ((relay d n k).gapNext || calGap d n w.num) * 2 ^ 34 }],
      gapNext := false } := by
  have hc : (isFenced d n || decide (8 ≤ (relay d n k).fifo.length)) = false := by simp [hf]; omega
  simp only [relayPut, hc, Bool.false_eq_true, if_false]

theorem sendWord_drops {d : Dev} {n halt k : Nat} (w : ConvW) (hk : k < 4) (hu : clusterUsed d n k = true)
    (h : isFenced d n = true ∨ 8 ≤ (relay d n k).fifo.length) :
    let e := sendWord n halt d w
    (relay e n k).drops = (relay d n k).drops + 1 ∧ (relay e n k).gapNext = true ∧ e.mem = d.mem := by
  intro e
  obtain ⟨a, ha, hb⟩ := sendWord_around d n halt w hk
  have hput := relayPut_drop (d := a) (n := n) (k := k) w (by rwa [isFenced_congr ha.fenced, ha.relay])
  have hone : Works n k (relayPut a n k w) (sendOne n halt w a k) := by
    rw [sendOne, ha.clusterUsed_eq, if_pos hu]
    exact onlyIf_rel (f := fun d => pumpPipes n k 10 d) (Works.refl n k) _ _ (pumpPipes_works ..)
  refine ⟨?_, ?_, ?_⟩
  · rw [hb.relay, hone.drops, hput, relay_setRelay, ha.relay]
  · rw [hb.relay, hone.gapNext, hput, relay_setRelay]
  · rw [hb.mem, hone.mem, hput]; exact ha.mem

theorem Apart.calGap_eq {n k : Nat} {d e : Dev} (h : Apart n k d e) (tag : Nat) : calGap e n tag = calGap d n tag := by
  simp only [calGap, calSt, h.cals]; rfl

/-- The word as it enters the channel. -/
def gapped (d : Dev) (n k : Nat) (w : ConvW) : ConvW :=
  { w with side := w.side + b2n ((relay d n k).gapNext || calGap d n w.num) * 2 ^ 34 }

theorem sendWord_halted {d : Dev} {n halt k : Nat} (w : ConvW) (hk : k < 4) (hu : clusterUsed d n k = true)
    (hf : isFenced d n = false) (hl : (relay d n k).fifo.length < 8) (hh : bit halt k = true) :
    let e := sendWord n halt d w
    relay e n k = { relay d n k with fifo := (relay d n k).fifo ++ [gapped d n k w], gapNext := false } ∧
    cond e n k = cond d n k := by
  intro e
  obtain ⟨a, ha, hb⟩ := sendWord_around d n halt w hk
  have hput := relayPut_enters (d := a) (n := n) (k := k) w (by rwa [isFenced_congr ha.fenced]) (by rwa [ha.relay])
  rw [ha.relay, ha.calGap_eq] at hput
  have hone : sendOne n halt w a k = relayPut a n k w := by rw [sendOne, ha.clusterUsed_eq, if_pos hu, hh]; rfl
  rw [hone, hput] at hb
  exact ⟨hb.relay.trans (relay_setRelay ..), hb.cond.trans ha.cond⟩

/-! ### Conditioning of a first word (R116) -/

theorem histAll_length (l : List InS) (a : InS) :
    (l.filter (fun b => decide (b.num < a.num)) ++ [a] ++ l.filter (fun b => decide (a.num < b.num))).length ≤ l.length + 1 := by
  have hsum := List.length_eq_length_filter_add (l := l) (fun b => decide (b.num < a.num))
  have hhi : (l.filter (fun b => decide (a.num < b.num))).length ≤ (l.filter (fun b => !decide (b.num < a.num))).length :=
    (List.monotone_filter_right l fun b hb => by simp only [decide_eq_true_eq] at hb; simp; omega).length_le
  simp only [List.length_append, List.length_singleton]
  omega

theorem histPut_length (l : List InS) (a : InS) : (histPut l a).length ≤ l.length + 1 :=
  (List.drop_sublist ..).length_le.trans (histAll_length l a)

/-- A sample that enters is there, and so is one at any place that was there. -/
theorem histPut_num {l : List InS} {a : InS} {v : Nat} (hl : l.length < 2048) (h : a.num = v ∨ ∃ b ∈ l, b.num = v) :
    ∃ b ∈ histPut l a, b.num = v := by
  have hall : histPut l a =
      l.filter (fun b => decide (b.num < a.num)) ++ [a] ++ l.filter (fun b => decide (a.num < b.num)) := by
    rw [histPut, Nat.sub_eq_zero_of_le ((histAll_length l a).trans hl)]; rfl
  rw [hall]
  by_cases hv : a.num = v
  · exact ⟨a, by simp, hv⟩
  · obtain ⟨b, hb, hbv⟩ := h.resolve_left hv
    refine ⟨b, ?_, hbv⟩
    simp only [List.mem_append, List.mem_filter, hb, true_and, decide_eq_true_eq]
    omega

theorem condReach_hist (x : CondSt) (ph s : Nat) : (condReach x ph s).hist = x.hist := by
  unfold condReach
  split
  · rfl
  · split <;> rfl

theorem condSample_hist (d : Dev) (n ph : Nat) (y : CondSt) (a : InS) :
    ∃ c : InS, c.num = a.num ∧ (condSample d n ph y a).hist = histPut y.hist c := by
  by_cases hp : ph = 2
  · exact ⟨quadTick d (pgCal (wordLine n ph)) (skewTick d n y.skew a), rfl, by simp only [condSample, if_pos hp]⟩
  · exact ⟨quadTick d (pgCal (wordLine n ph)) a, rfl, by simp only [condSample, if_neg hp]⟩

theorem wordTick_num (d : Dev) (n : Nat) {w : ConvW} (hw : w.phase = 0) (last : Option Nat) (i : Nat) :
    (wordTick d n w last i).num = 2 * (w.num + i) := by
  simp only [wordTick, hw]; rfl

/-- The samples of the first `m` ticks of a word of phase 0 have entered a stream that was empty. -/
theorem condSamples_num (d : Dev) (n : Nat) (w : ConvW) (last : Option Nat) (y : CondSt) (hy : y.hist = []) {m : Nat} (hm : m ≤ 8)
    (hw : w.phase = 0) :
    let z := (List.range m).foldl (fun y i => condSample d n w.phase y (wordTick d n w last i)) y
    z.hist.length ≤ m ∧ ∀ i < m, ∃ a ∈ z.hist, a.num = 2 * (w.num + i) := by
  induction m with
  | zero => exact ⟨by simp [hy], fun i hi => absurd hi (Nat.not_lt_zero i)⟩
  | succ m ih =>
    obtain ⟨hlen, hnum⟩ := ih (by omega)
    rw [List.range_succ, List.foldl_concat]
    generalize List.foldl _ y (List.range m) = z at hlen hnum ⊢
    obtain ⟨c, hc, hz⟩ := condSample_hist d n w.phase z (wordTick d n w last m)
    rw [wordTick_num d n hw] at hc
    simp only [hz]
    refine ⟨(histPut_length _ _).trans (by omega), fun i hi => histPut_num (by omega) ?_⟩
    rcases Nat.lt_succ_iff_lt_or_eq.1 hi with hi | rfl
    · exact Or.inr (hnum i hi)
    · exact Or.inl hc

/-- The eight samples of a first word of phase 0. -/
theorem condWord_num (d : Dev) (n : Nat) {w : ConvW} (hw : w.phase = 0) (i : Nat) (hi : i < 8) :
    ∃ a ∈ (condWord d n w CondSt.reset).hist, a.num = 2 * (w.num + i) := by
  unfold condWord
  exact (condSamples_num d n w _ _ (condReach_hist ..) (le_refl 8) hw).2 i hi

theorem extendPipes_idle {d : Dev} {n k : Nat} (h0 : (pipe d n (2 * k)).wins = []) (h1 : (pipe d n (2 * k + 1)).wins = []) :
    extendPipes d n k = d := by
  simp [extendPipes, h0, h1]

/-- Pipe cluster `k` has conditioned word `w`, with `x` the conditioning now. -/
def wordIn (d : Dev) (n k : Nat) (w : ConvW) (x : CondSt) : Dev := onlyIf (k == 0) (fun d => retWord d n w) (setCond d n k x)

theorem wordIn_spec (d : Dev) (n k : Nat) (w : ConvW) (x : CondSt) :
    cond (wordIn d n k w x) n k = x ∧ relay (wordIn d n k w x) n k = relay d n k ∧
    (∀ s, pipe (wordIn d n k w x) n s = pipe d n s) ∧ (wordIn d n k w x).mem = d.mem := by
  have hc := cond_setCond d n k x
  unfold wordIn
  cases k == 0
  · exact ⟨hc, rfl, fun _ => rfl, rfl⟩
  · exact ⟨hc, rfl, fun _ => rfl, rfl⟩

/-- Pipe cluster `k` takes a first word: its conditioning alone has moved, and in cluster 0 the shots being judged. -/
theorem takeWord_first {d : Dev} {n k : Nat} (w : ConvW) (hc : cond d n k = CondSt.reset) (hw : w.phase = 0)
    (h0 : (pipe d n (2 * k)).wins = []) (h1 : (pipe d n (2 * k + 1)).wins = []) :
    takeWord d n k w = wordIn d n k w (condWord d n w CondSt.reset) := by
  have hnext : condNext CondSt.reset w.phase = none := by rw [hw]; rfl
  obtain ⟨-, -, hp, -⟩ := wordIn_spec d n k w (condWord d n w CondSt.reset)
  simp only [takeWord, hc, hnext]
  exact extendPipes_idle (by rw [← h0, ← hp]; rfl) (by rw [← h1, ← hp]; rfl)

theorem pumpPipes_first {d : Dev} {n k : Nat} (w : ConvW) (fuel : Nat) (hf : frameFull d n k = false)
    (hc : cond d n k = CondSt.reset) (hw : w.phase = 0) (h0 : (pipe d n (2 * k)).wins = [])
    (h1 : (pipe d n (2 * k + 1)).wins = []) (hr : (relay d n k).fifo = [w]) :
    let e := pumpPipes n k (fuel + 1) d
    (relay e n k).fifo = [] ∧ (∀ i < 8, ∃ a ∈ (cond e n k).hist, a.num = 2 * (w.num + i)) ∧ e.mem = d.mem := by
  have hpump : pumpPipes n k (fuel + 1) d = pumpPipes n k fuel (takeWord (setRelay d n k { relay d n k with fifo := [] }) n k w) := by
    simp only [pumpPipes, emitPipe_idle h0, emitPipe_idle h1, hf, hr, Bool.false_eq_true, if_false]
  have hempty : (relay (setRelay d n k { relay d n k with fifo := [] }) n k).fifo = [] := by rw [relay_setRelay]
  have hmem : (setRelay d n k { relay d n k with fifo := [] }).mem = d.mem := rfl
  have hc : cond (setRelay d n k { relay d n k with fifo := [] }) n k = CondSt.reset := hc
  have h0 : (pipe (setRelay d n k { relay d n k with fifo := [] }) n (2 * k)).wins = [] := h0
  have h1 : (pipe (setRelay d n k { relay d n k with fifo := [] }) n (2 * k + 1)).wins = [] := h1
  rw [hpump]
  generalize setRelay d n k { relay d n k with fifo := [] } = a at *
  rw [takeWord_first w hc hw h0 h1]
  have hhist := condWord_num a n hw
  generalize condWord a n w CondSt.reset = x at hhist ⊢
  obtain ⟨hx, hrel, hp, hm⟩ := wordIn_spec a n k w x
  rw [pumpPipes_idle fuel (by rw [hp, h0]) (by rw [hp, h1]) (by rw [hrel, hempty])]
  exact ⟨by rw [hrel, hempty], fun i hi => by rw [hx]; exact hhist i hi, hm.trans hmem⟩

theorem gapped_num (d : Dev) (n k : Nat) (w : ConvW) : (gapped d n k w).num = w.num := by unfold gapped; rfl
theorem gapped_phase (d : Dev) (n k : Nat) (w : ConvW) : (gapped d n k w).phase = w.phase := by unfold gapped; rfl

theorem relayPut_gapped {d : Dev} {n k : Nat} (w : ConvW) (hf : isFenced d n = false) (hr : (relay d n k).fifo = []) :
    relayPut d n k w = setRelay d n k { relay d n k with fifo := [gapped d n k w], gapNext := false } := by
  rw [relayPut_enters w hf (by rw [hr]; decide), hr]; rfl

theorem sendWord_first {d : Dev} {n halt k : Nat} (w : ConvW) (hk : k < 4) (hu : clusterUsed d n k = true)
    (hf : isFenced d n = false) (hr : (relay d n k).fifo = []) (hh : bit halt k = false)
    (hff : frameFull d n k = false) (hc : cond d n k = CondSt.reset) (hw : w.phase = 0)
    (h0 : (pipe d n (2 * k)).wins = []) (h1 : (pipe d n (2 * k + 1)).wins = []) :
    let e := sendWord n halt d w
    (relay e n k).fifo = [] ∧ (∀ i < 8, ∃ a ∈ (cond e n k).hist, a.num = 2 * (w.num + i)) ∧ e.mem = d.mem := by
  intro e
  obtain ⟨a, ha, hb⟩ := sendWord_around d n halt w hk
  have hput := relayPut_gapped (d := a) (n := n) (k := k) w (by rwa [isFenced_congr ha.fenced]) (by rwa [ha.relay])
  have hone : sendOne n halt w a k = pumpPipes n k 10 (relayPut a n k w) := by
    rw [sendOne, ha.clusterUsed_eq, if_pos hu, hh, Bool.not_false, onlyIf, if_pos rfl]
  have hfull : frameFull (relayPut a n k w) n k = false := by
    rw [hput, frameFull]; exact (congrArg (fun l => decide (8 ≤ List.length l)) ha.toFrame).trans hff
  have hcond : cond (relayPut a n k w) n k = CondSt.reset := by rw [hput]; exact ha.cond.trans hc
  have hpipe (s : Nat) (hs : s / 2 = k) : pipe (relayPut a n k w) n s = pipe d n s := by rw [hput]; exact ha.pipe s hs
  have hfifo : (relay (relayPut a n k w) n k).fifo = [gapped a n k w] := by rw [hput, relay_setRelay]
  have hmem : (relayPut a n k w).mem = d.mem := by rw [hput]; exact ha.mem
  rw [hone] at hb
  generalize relayPut a n k w = b at *
  obtain ⟨hfifo, hhist, hm⟩ := pumpPipes_first (gapped a n k w) 9 hfull hcond ((gapped_phase ..).trans hw)
    (by rw [hpipe _ (by omega), h0]) (by rw [hpipe _ (by omega), h1]) hfifo
  refine ⟨?_, fun i hi => ?_, ?_⟩
  · rw [hb.relay]; exact hfifo
  · rw [gapped_num] at hhist
    rw [hb.cond]; exact hhist i hi
  · rw [hb.mem]; exact hm.trans hmem

end Sys2Proof.Machine

end

section
/-! PROOFS. The converter word, phase by phase (R111, R113, R115). -/

namespace Sys2Proof.Machine

open Sys2Proof

/-! ### The converter word, phase by phase (R113, R115) -/

section
variable {n : Nat} {d e : Dev} (h : Played n d e)
include h

theorem Played.lineState_eq : lineState e n = lineState d n :=
  h.2 _ _ (by unfold pgLine pgStarter; omega) (by decide)

theorem Played.clusterUp_eq (m c : Nat) : clusterUp e m c = clusterUp d m c := by obtain ⟨⟨r, ev, st, rfl⟩, -⟩ := h; rfl

theorem Played.rx_eq (m : Nat) : rx e m = rx d m := by obtain ⟨⟨r, ev, st, rfl⟩, -⟩ := h; rfl

theorem Played.getR_rx {f : Fld} (hf : fldAt f < 131072) : getR e (pgRx n) f = getR d (pgRx n) f :=
  h.2 _ _ (pgStarter_ne_pgRx n).symm hf

theorem Played.coreAt_eq (i : Nat) : coreAt e (pgRx n) i = coreAt d (pgRx n) i := by
  unfold coreAt
  refine h.getR_rx ?_
  split
  · decide
  · split
    · decide
    · split <;> decide

theorem Played.deadInput_eq (i : Nat) : deadInput e n i = deadInput d n i := by
  simp only [deadInput, isFailed, isAway, h.coreAt_eq, h.rx_eq, h.getR_rx (f := F.RX_FAILED) (by decide)]

theorem Played.polLost_eq (i : Nat) : polLost e n i = polLost d n i := by
  unfold polLost flagR
  split
  · rw [h.getR_rx (by decide)]
  · rw [h.getR_rx (by decide)]

/-- The word of line `n`'s own cores does not depend on the waveforms played. -/
theorem Played.wordOf32_eq (num : Nat) (raw : List Int) : wordOf32 e n 0 num raw = wordOf32 d n 0 num raw := by
  have hst (u : Nat) : isStale e (pgRx n) u = isStale d (pgRx n) u := by obtain ⟨⟨r, ev, st, rfl⟩, -⟩ := h; rfl
  have hcal (u : Nat) : isCal e (pgRx n) u = isCal d (pgRx n) u := by obtain ⟨⟨r, ev, st, rfl⟩, -⟩ := h; rfl
  have hm : wordLine n 0 = n := rfl
  simp only [wordOf32, sideOf, hm, unsettledAt, satAt, h.deadInput_eq, h.polLost_eq, h.rx_eq, funext h.coreAt_eq, funext hst,
    funext hcal]

end

theorem wordOf32_num (d : Dev) (n ph num : Nat) (raw : List Int) : (wordOf32 d n ph num raw).num = num := by
  unfold wordOf32; rfl

theorem wordOf32_phase (d : Dev) (n ph num : Nat) (raw : List Int) : (wordOf32 d n ph num raw).phase = ph := by
  unfold wordOf32; rfl

/-- Line `n` when a word comes at `t`: its waveforms have played up to then. -/
def playedTo (d : Dev) (t n : Nat) : Dev := clipRun (advance d t) n (max d.ticks t)

theorem playedTo_played (d : Dev) (t n : Nat) : Played n (advance d t) (playedTo d t n) := clipRun_played ..

theorem lineState_playedTo (d : Dev) (t n : Nat) : lineState (playedTo d t n) n = lineState d n :=
  (playedTo_played d t n).lineState_eq

theorem clusterUp_playedTo (d : Dev) (t n m c : Nat) : clusterUp (playedTo d t n) m c = clusterUp d m c :=
  (playedTo_played d t n).clusterUp_eq m c

theorem rx_playedTo (d : Dev) (t n m : Nat) : rx (playedTo d t n) m = rx d m := (playedTo_played d t n).rx_eq m

theorem wordOf32_playedTo (d : Dev) (t n num : Nat) (raw : List Int) :
    wordOf32 (playedTo d t n) n 0 num raw = wordOf32 d n 0 num raw := (playedTo_played d t n).wordOf32_eq num raw

theorem flagL_playedTo (d : Dev) (t n : Nat) : flagL (playedTo d t n) (pgRx n) F.RX_AR_EN = flagL d (pgRx n) F.RX_AR_EN := by
  unfold flagL getL
  rw [(playedTo_played d t n).getR_rx (by decide), getR_advance]

theorem playedTo_apart (d : Dev) (t n k : Nat) : Apart n k d (playedTo d t n) :=
  .trans n k d (advance d t) _ { Apart.refl n k d with } ((playedTo_played d t n).apart k)

/-- A line that is OFF or DARK, or whose Converter cluster is not up, forms no word. -/
theorem doConverterWord_none {d : Dev} {n : Nat} (t num ph halt : Nat) (raw : List Int)
    (h : lineState d n = 0 ∨ lineState d n = 6 ∨ clusterUp d n 0 = false) :
    doConverterWord t n num ph halt raw d = playedTo d t n := by
  have hc : lineState (playedTo d t n) n = 0 ∨ lineState (playedTo d t n) n = 6 ∨ (!clusterUp (playedTo d t n) n 0) = true := by
    rw [lineState_playedTo, clusterUp_playedTo]; simpa using h
  unfold doConverterWord
  exact if_pos hc

section
variable {d : Dev} {n : Nat} (h0 : lineState d n ≠ 0) (h6 : lineState d n ≠ 6) (hu : clusterUp d n 0 = true)
include h0 h6 hu

theorem formsWord (t : Nat) :
    ¬(lineState (playedTo d t n) n = 0 ∨ lineState (playedTo d t n) n = 6 ∨ (!clusterUp (playedTo d t n) n 0) = true) := by
  rw [lineState_playedTo, clusterUp_playedTo, hu]; simp [h0, h6]

theorem doConverterWord_normal (t num halt : Nat) (raw : List Int) :
    doConverterWord t n num 0 halt raw d =
      sendWord n halt (arWord (playedTo d t n) n num raw none) (wordOf32 (arWord (playedTo d t n) n num raw none) n 0 num raw) := by
  unfold doConverterWord
  exact (if_neg (formsWord h0 h6 hu t)).trans (if_pos rfl)

theorem doConverterWord_half (t num halt : Nat) (raw : List Int) :
    doConverterWord t n num 1 halt raw d = setRx (playedTo d t n) n { rx d n with half := some (num, raw) } := by
  rw [← rx_playedTo d t n n]
  unfold doConverterWord
  exact (if_neg (formsWord h0 h6 hu t)).trans ((if_neg Nat.one_ne_zero).trans (if_pos rfl))

theorem doConverterWord_pair (t num halt : Nat) {raw raw0 : List Int} (hh : (rx d n).half = some (num, raw0))
    (hp : clusterUp d (partner n) 0 = true) :
    doConverterWord t n num 2 halt raw d =
      (let d := setRx (playedTo d t n) n { rx d n with half := none }
       let d := arWord d n num raw0 (some raw)
       sendWord n halt (sendWord n halt d (wordOf32 d n 1 num raw0)) (wordOf32 d n 2 num raw)) := by
  have hform := formsWord h0 h6 hu t
  rw [← rx_playedTo d t n n] at hh ⊢
  rw [← clusterUp_playedTo d t n] at hp
  unfold doConverterWord
  refine (if_neg hform).trans ((if_neg (by decide)).trans ((if_neg (by decide)).trans ?_))
  change (match (rx (playedTo d t n) n).half with | some h => _ | none => _) = _
  rw [hh]
  exact if_pos ⟨rfl, hp⟩

end

end Sys2Proof.Machine

end

section
/-! PROOFS. Statistics windows (R124, R128, R130). -/

namespace Sys2Proof.Machine

open Sys2Proof

/-! ### The statistics window of a receiver core (R128) -/

theorem sx24_ux {r : Int} (hl : -8388608 ≤ r) (hh : r < 8388608) : sx 24 (ux 24 r % 16777216) = r := by
  have h24 : (2 : Nat) ^ 24 = 16777216 := rfl
  simp only [sx, ux, h24]
  by_cases hr : 0 ≤ r
  · rw [if_pos (by omega)]; omega
  · rw [if_neg (by omega)]; omega

/-- What the window of core `c` shows. -/
def statShow (d : Dev) (n c : Nat) (mean lo hi : Int) (ovr : Nat) : Dev :=
  let p := pgRx n
  let d := setS (setS (setS d p (F.RX_MEAN c) mean) p (F.RX_MIN c) lo) p (F.RX_MAX c) hi
  setR (setR d p (F.RX_OVR c) ovr) p (F.RX_WIN_SEQ c) (getR d p (F.RX_WIN_SEQ c) + 1)

theorem doStatEnd_core {c : Nat} (t n : Nat) (mean lo hi : Int) (ovr : Nat) (d : Dev) (hc : c < 5) :
    doStatEnd t n c mean lo hi ovr d = judgeStuck (statShow (advance d t) n c mean lo hi ovr) n c lo hi ovr := by
  unfold doStatEnd
  exact if_pos hc

theorem doStatEnd_thermal (t n c : Nat) (mean lo hi : Int) (ovr : Nat) (d : Dev) :
    doStatEnd t n (c + 5) mean lo hi ovr d = thWindowEnd (advance d t) n c := by
  unfold doStatEnd
  exact if_neg (by omega)

/-- The fields of a window of core `c`, in five places of the page. -/
theorem statFlds_distinct (c : Nat) :
    fldAt (F.RX_MEAN c) = 34816 + 512 * c ∧ fldAt (F.RX_MIN c) = 34944 + 512 * c ∧ fldAt (F.RX_MAX c) = 34960 + 512 * c ∧
    fldAt (F.RX_OVR c) = 35072 + 512 * c ∧ fldAt (F.RX_WIN_SEQ c) = 35200 + 512 * c := by
  simp only [fldAt, F.RX_MEAN, F.RX_MIN, F.RX_MAX, F.RX_OVR, F.RX_WIN_SEQ]; omega

theorem statShow_regsBut (d : Dev) (n c : Nat) (mean lo hi : Int) (ovr : Nat) :
    RegsBut [(pgRx n, F.RX_MEAN c), (pgRx n, F.RX_MIN c), (pgRx n, F.RX_MAX c), (pgRx n, F.RX_OVR c), (pgRx n, F.RX_WIN_SEQ c)]
      (statShow d n c mean lo hi ovr) d := by
  intro p f hf
  simp only [List.mem_cons, List.not_mem_nil, or_false, forall_eq_or_imp, forall_eq] at hf
  obtain ⟨h1, h2, h3, h4, h5⟩ := hf
  unfold statShow setS
  rw [getR_setR_ne _ _ h5, getR_setR_ne _ _ h4, getR_setR_ne _ _ h3, getR_setR_ne _ _ h2, getR_setR_ne _ _ h1]

/-- Fields of the page below the windows are as they were. -/
theorem statShow_low (d : Dev) (n c : Nat) (mean lo hi : Int) (ovr : Nat) {f : Fld} (hf : fldAt f < 34816) :
    getR (statShow d n c mean lo hi ovr) (pgRx n) f = getR d (pgRx n) f := by
  obtain ⟨h1, h2, h3, h4, h5⟩ := statFlds_distinct c
  refine statShow_regsBut d n c mean lo hi ovr _ _ ?_
  simp only [List.mem_cons, List.not_mem_nil, or_false, forall_eq_or_imp, forall_eq]
  exact ⟨key_ne_fld _ (by omega), key_ne_fld _ (by omega), key_ne_fld _ (by omega), key_ne_fld _ (by omega),
    key_ne_fld _ (by omega)⟩

/-- The values are shown, and the sequence number has advanced. -/
theorem statShow_shows (d : Dev) (n c : Nat) {mean lo hi : Int} {ovr : Nat} (h : statFits mean lo hi = true) (ho : ovr < 2 ^ 25) :
    let e := statShow d n c mean lo hi ovr
    getS e (pgRx n) (F.RX_MEAN c) = mean ∧ getS e (pgRx n) (F.RX_MIN c) = lo ∧ getS e (pgRx n) (F.RX_MAX c) = hi ∧
    getR e (pgRx n) (F.RX_OVR c) = ovr ∧ getR e (pgRx n) (F.RX_WIN_SEQ c) = (getR d (pgRx n) (F.RX_WIN_SEQ c) + 1) % 2 ^ 32 := by
  obtain ⟨h1, h2, h3, h4, h5⟩ := statFlds_distinct c
  simp only [statFits, Bool.and_eq_true, decide_eq_true_eq] at h
  obtain ⟨⟨⟨⟨hl, hlh⟩, hh⟩, hml⟩, hmh⟩ := h
  unfold statShow setS getS
  refine ⟨?_, ?_, ?_, ?_, ?_⟩
  · rw [getR_setR_fld _ _ _ (by omega), getR_setR_fld _ _ _ (by omega), getR_setR_fld _ _ _ (by omega),
      getR_setR_fld _ _ _ (by omega), getR_setR_self]
    exact sx24_ux (by omega) (by omega)
  · rw [getR_setR_fld _ _ _ (by omega), getR_setR_fld _ _ _ (by omega), getR_setR_fld _ _ _ (by omega), getR_setR_self]
    exact sx_ux (by omega) (by omega)
  · rw [getR_setR_fld _ _ _ (by omega), getR_setR_fld _ _ _ (by omega), getR_setR_self]
    exact sx_ux (by omega) (by omega)
  · rw [getR_setR_fld _ _ _ (by omega), getR_setR_self]
    exact Nat.mod_eq_of_lt (ho.trans (Nat.pow_lt_pow_right Nat.one_lt_two (show 25 < 32 by decide)))
  · rw [getR_setR_self, getR_setR_fld _ _ _ (by omega), getR_setR_fld _ _ _ (by omega), getR_setR_fld _ _ _ (by omega)]
    rfl

theorem coreAt_statShow (d : Dev) (n c : Nat) (mean lo hi : Int) (ovr i : Nat) :
    coreAt (statShow d n c mean lo hi ovr) (pgRx n) i = coreAt d (pgRx n) i := by
  refine statShow_low d n c mean lo hi ovr ?_
  split
  · decide
  · split
    · decide
    · split <;> decide

theorem statLen_statShow (d : Dev) (n c : Nat) (mean lo hi : Int) (ovr : Nat) :
    statLen (statShow d n c mean lo hi ovr) n = statLen d n := by
  unfold statLen
  rw [statShow_low d n c mean lo hi ovr (by decide)]

theorem statEligible_statShow (d : Dev) (n c b : Nat) (mean lo hi : Int) (ovr : Nat) :
    statEligible (statShow d n c mean lo hi ovr) n b = statEligible d n b := by
  have hin : inputOf (statShow d n c mean lo hi ovr) n b = inputOf d n b := by
    simp only [inputOf, coreAt_statShow]; rfl
  simp only [statEligible, statLen_statShow, hin]
  rfl

/-- A window that is not eligible, or not stuck, is at most noted with the core. -/
theorem judgeStuck_clear {d : Dev} {n c ovr : Nat} {lo hi : Int}
    (h : statEligible d n c = false ∨ (lo < hi ∧ ovr ≠ statLen d n)) : ∃ r, judgeStuck d n c lo hi ovr = { d with rx := r } := by
  unfold judgeStuck
  by_cases he : statEligible d n c = true
  · obtain ⟨hlt, hovr⟩ := h.resolve_left (by simp [he])
    exact ⟨_, (if_pos he).trans (if_neg (by simp only [not_or]; exact ⟨hlt.ne, hovr⟩))⟩
  · exact ⟨d.rx, if_neg he⟩

/-- From `d` to `e` events have at most been added, the stuck windows of line `n`'s cores counted stay, and so does memory. -/
structure Declares (n : Nat) (d e : Dev) : Prop where
  evt : ∀ p b, (evtRaw d p).testBit b = true → (evtRaw e p).testBit b = true
  run : (rx e n).stuckRun = (rx d n).stuckRun
  mem : e.mem = d.mem

theorem Declares.refl (n : Nat) (d : Dev) : Declares n d d := ⟨fun _ _ h => h, rfl, rfl⟩

theorem Declares.trans (n : Nat) (a b c : Dev) (h : Declares n a b) (g : Declares n b c) : Declares n a c :=
  ⟨fun p i hi => g.evt p i (h.evt p i hi), g.run.trans h.run, g.mem.trans h.mem⟩

theorem setR_declares (n : Nat) (d : Dev) (p : Nat) (f : Fld) (v : Nat) : Declares n d (setR d p f v) := ⟨fun _ _ h => h, rfl, rfl⟩

theorem bump_declares (n : Nat) (d : Dev) (p : Nat) (f : Fld) : Declares n d (bump d p f) := by
  unfold bump; rw [addC_eq]; exact setR_declares ..

theorem raise_declares (n : Nat) (d : Dev) (p b : Nat) : Declares n d (raise d p b) := ⟨fun q i h => raise_mono d p b q i h, rfl, rfl⟩

theorem ledgerNow_declares (n : Nat) (d : Dev) (k ln pt : Nat) (l : List Nat) : Declares n d (ledgerNow d k ln pt l) :=
  ⟨fun _ _ h => h, rfl, rfl⟩

theorem setRx_declares (n : Nat) (d : Dev) (x : RxSt) (h : x.stuckRun = (rx d n).stuckRun) : Declares n d (setRx d n x) :=
  ⟨fun _ _ h => h, by rw [rx_setRx, h], rfl⟩

theorem rxShow_declares (n : Nat) (d : Dev) : Declares n d (rxShow d n) := by
  unfold rxShow
  extract_lets p e1 e2
  have h1 : Declares n d e1 := setR_declares ..
  clear_value e1
  have h2 : Declares n e1 e2 := setR_declares ..
  clear_value e2
  exact .trans _ _ _ _ h1 (.trans _ _ _ _ h2 (setR_declares ..))

theorem handOver_declares (d : Dev) (n i c t : Nat) : Declares n d (handOver d n i c t) :=
  .trans _ _ _ _ (setR_declares n d (pgRx n) (coreFld i) c) (.trans _ _ _ _ (setRx_declares n _ _ (by rfl)) (rxShow_declares ..))

theorem calAbandon_declares (d : Dev) (n c : Nat) : Declares n d (calAbandon d n c) := by
  unfold calAbandon
  extract_lets x e pend keep e1 e2 e3
  split
  · exact .refl ..
  · have he : Declares n d e := by
      simp only [e]
      split
      · exact handOver_declares ..
      · exact .refl ..
    clear_value e
    have h2 : Declares n e e2 := ⟨fun _ _ h => h, rfl, rfl⟩
    clear_value e2
    exact .trans _ _ _ _ he (.trans _ _ _ _ h2 (.trans _ _ _ _ (bump_declares ..) (ledgerNow_declares ..)))

theorem declareFailed_declares (d : Dev) (n c cause : Nat) : Declares n d (declareFailed d n c cause) := by
  unfold declareFailed
  extract_lets p e e1 x e2 k
  split
  · exact .refl ..
  · have h1 : Declares n d e1 := .trans _ _ _ _ (.trans _ _ _ _ (setR_declares ..) (raise_declares ..)) (ledgerNow_declares ..)
    clear_value e1
    have h2 : Declares n e1 e2 := .trans _ _ _ _ (setRx_declares n e1 _ (by rfl)) (rxShow_declares ..)
    clear_value e2
    exact .trans _ _ _ _ h1 (.trans _ _ _ _ h2 (onlyIf_rel (Declares.refl n) e2 _ (calAbandon_declares ..)))

/-- An eligible window without movement is counted as stuck, with its event. -/
theorem judgeStuck_stuck {d : Dev} {n c : Nat} (v : Int) (ovr : Nat) (he : statEligible d n c = true) :
    let e := judgeStuck d n c v v ovr
    (evtRaw e (pgRx n)).testBit 12 = true ∧
    Store.get (rx e n).stuckRun 0 c = Store.get (rx d n).stuckRun 0 c + 1 ∧ e.mem = d.mem := by
  let x := rx d n
  let run := Store.get x.stuckRun 0 c + 1
  let e1 := setRx d n { x with stuckRun := Store.set x.stuckRun 0 c run }
  let e2 := raise (bump e1 (pgRx n) F.RX_STUCK_WINDOWS) (pgRx n) 12
  have heq : judgeStuck d n c v v ovr =
      onlyIf (decide (2 ≤ run) && flagR e2 (pgRx n) F.RX_STUCK_FAIL) (fun d => declareFailed d n c 1) e2 := by
    unfold judgeStuck
    exact (if_pos he).trans (if_pos (Or.inl rfl))
  rw [heq]
  have h1 : (rx e1 n).stuckRun = Store.set (rx d n).stuckRun 0 c run := congrArg RxSt.stuckRun (rx_setRx ..)
  have hm : e1.mem = d.mem := rfl
  have h2 : Declares n e1 e2 := .trans _ _ _ _ (bump_declares ..) (raise_declares ..)
  have h12 : (evtRaw e2 (pgRx n)).testBit 12 = true := raise_bit ..
  clear_value e2 e1
  have h3 : Declares n e2 (onlyIf (decide (2 ≤ run) && flagR e2 (pgRx n) F.RX_STUCK_FAIL) (fun d => declareFailed d n c 1) e2) :=
    onlyIf_rel (f := fun d => declareFailed d n c 1) (Declares.refl n) e2 _ (declareFailed_declares ..)
  refine ⟨h3.evt _ _ h12, ?_, by rw [h3.mem, h2.mem, hm]⟩
  rw [h3.run, h2.run, h1, Store.get_set_self]

/-! ### The statistics window of a thermal converter (R130) -/

/-- What the window of thermal converter `k` shows: `mean`, and what came in it. -/
def thShow (d : Dev) (n k : Nat) (mean : Int) (a : ThAcc) : Dev :=
  let p := pgThrx n
  let lim (v : Int) : Int := if a.n = 0 then 0 else v
  let d := setS (setS (setS d p (F.THRX_MEAN k) mean) p (F.THRX_MIN k) (lim a.mn)) p (F.THRX_MAX k) (lim a.mx)
  setR (setR d p (F.THRX_OVR k) a.ovr) p (F.THRX_WIN_SEQ k) (getR d p (F.THRX_WIN_SEQ k) + 1)

theorem thFlds_distinct (k : Nat) :
    fldAt (F.THRX_MIN k) = 34944 + 512 * k ∧ fldAt (F.THRX_MAX k) = 34960 + 512 * k ∧
    fldAt (F.THRX_OVR k) = 35072 + 512 * k ∧ fldAt (F.THRX_WIN_SEQ k) = 35200 + 512 * k := by
  simp only [fldAt, F.THRX_MIN, F.THRX_MAX, F.THRX_OVR, F.THRX_WIN_SEQ]; omega

theorem thShow_shows (d : Dev) (n k : Nat) (mean : Int) (a : ThAcc) :
    let e := thShow d n k mean a
    getR e (pgThrx n) (F.THRX_OVR k) = a.ovr % 2 ^ (F.THRX_OVR k).width ∧
    (a.n = 0 → getS e (pgThrx n) (F.THRX_MIN k) = 0 ∧ getS e (pgThrx n) (F.THRX_MAX k) = 0) := by
  obtain ⟨h2, h3, h4, h5⟩ := thFlds_distinct k
  unfold thShow setS getS
  refine ⟨?_, fun h0 => ?_⟩
  · rw [getR_setR_fld _ _ _ (by omega), getR_setR_self]
  · simp only [h0, if_true]
    constructor
    · rw [getR_setR_fld _ _ _ (by omega), getR_setR_fld _ _ _ (by omega), getR_setR_fld _ _ _ (by omega), getR_setR_self]
      rfl
    · rw [getR_setR_fld _ _ _ (by omega), getR_setR_fld _ _ _ (by omega), getR_setR_self]
      rfl

/-- The window is shown, the accumulation starts anew, and a first sample over range has its event. -/
theorem thWindowEnd_eq (d : Dev) (n k : Nat) :
    ∃ f mean, let a := Store.get (rx d n).th ThAcc.reset k
      let e := thShow { d with freeN := f } n k mean a
      thWindowEnd d n k = raiseOn (setRx e n { rx d n with th := Store.erase (rx d n).th k }) (pgThrx n) 8
        (getR d (pgThrx n) (F.THRX_OVR k) != 0) (a.ovr != 0) := by
  unfold thWindowEnd
  by_cases h0 : (Store.get (rx d n).th ThAcc.reset k).n = 0
  · refine ⟨d.freeN + 1, (Config.freeValue d.freeN : Nat), ?_⟩
    simp only [h0, if_true, freeV, thShow]; rfl
  · refine ⟨d.freeN, rne (256 * (Store.get (rx d n).th ThAcc.reset k).sum) (Store.get (rx d n).th ThAcc.reset k).n, ?_⟩
    simp only [h0, if_false, thShow]; rfl

theorem thWindowEnd_spec (d : Dev) (n k : Nat) :
    let e := thWindowEnd d n k
    let a := Store.get (rx d n).th ThAcc.reset k
    getR e (pgThrx n) (F.THRX_OVR k) = a.ovr % 2 ^ (F.THRX_OVR k).width ∧
    (a.n = 0 → getS e (pgThrx n) (F.THRX_MIN k) = 0 ∧ getS e (pgThrx n) (F.THRX_MAX k) = 0) ∧
    (getR d (pgThrx n) (F.THRX_OVR k) = 0 → 0 < a.ovr → (evtRaw e (pgThrx n)).testBit 8 = true) ∧
    Store.get (rx e n).th ThAcc.reset k = ThAcc.reset ∧ e.mem = d.mem := by
  intro e a
  obtain ⟨f, mean, he⟩ := thWindowEnd_eq d n k
  obtain ⟨hovr, hlim⟩ := thShow_shows { d with freeN := f } n k mean a
  have hm : (thShow { d with freeN := f } n k mean a).mem = d.mem := rfl
  have he : e = raiseOn (setRx (thShow { d with freeN := f } n k mean a) n { rx d n with th := Store.erase (rx d n).th k })
    (pgThrx n) 8 (getR d (pgThrx n) (F.THRX_OVR k) != 0) (a.ovr != 0) := he
  generalize thShow { d with freeN := f } n k mean a = b at *
  have hfld (g : Fld) : getR e (pgThrx n) g = getR b (pgThrx n) g := by rw [he]; unfold raiseOn; split <;> rfl
  have hrx : rx e n = { rx d n with th := Store.erase (rx d n).th k } := by
    rw [he]; unfold raiseOn; split <;> exact rx_setRx ..
  have hmem : e.mem = b.mem := by rw [he]; unfold raiseOn; split <;> rfl
  refine ⟨by rw [hfld, hovr], fun h0 => ?_, fun hwas hnow => ?_, ?_, hmem.trans hm⟩
  · unfold getS; rw [hfld, hfld]; exact hlim h0
  · rw [he, raiseOn, hwas, if_pos (by simp; omega)]; exact raise_bit ..
  · rw [hrx, Store.get, Store.find_erase_self]; rfl

end Sys2Proof.Machine

end

section
/-! PROOFS. Converter words and statistics together (R24, R111, R115, R116, R124, R128, R130, R144). -/

open Sys2Proof Sys2Proof.Machine

/-- Settles O20: a word by its phase and by what Pipe cluster `k` makes of it between the others' work, a window by what it
shows and by what its judgement may move. -/
theorem converterWordsAndStatistics : Obligations.ConverterWordsAndStatistics := by
  unfold Obligations.ConverterWordsAndStatistics
  intro s t n hn hs
  refine ⟨?_, ?_, ?_, ?_, ?_⟩
  · intro num ph halt raw hp hh hr h
    exact (gives_converterWord t hn hp hh hr hs).of_eq (doConverterWord_none t num ph halt raw h)
  · intro num ph halt raw k hp hh hr h0 h6 hu hk hused r
    have hplay := playedTo_apart s.dev t n k
    have har := Apart.trans n k _ _ _ hplay (arWord_apart (playedTo s.dev t n) n k num raw)
    have hw := wordOf32_playedTo s.dev t n num raw
    refine ⟨?_, ?_, ?_, ?_, ?_⟩
    · rintro rfl hno
      refine does_of_gives ((gives_converterWord t hn hp hh hr hs).of_eq (doConverterWord_normal h0 h6 hu t num halt raw)) ?_
      rw [← har.clusterUsed_eq] at hused
      rw [← isFenced_congr har.fenced, show r = _ from har.relay.symm] at hno
      obtain ⟨hdrops, hgap, hm⟩ := sendWord_drops (halt := halt)
        (wordOf32 (arWord (playedTo s.dev t n) n num raw none) n 0 num raw) hk hused hno
      rw [relay_settle, settle_mem]
      exact ⟨by rw [hdrops, har.relay], hgap, by rw [hm, har.mem]⟩
    · rintro rfl hf hl hb hoff
      have heff := doConverterWord_normal h0 h6 hu t num halt raw
      rw [arWord_off _ _ (by rw [flagL_playedTo]; exact hoff), hw] at heff
      refine does_of_gives ((gives_converterWord t hn hp hh hr hs).of_eq heff) ?_
      obtain ⟨hrelay, hcond⟩ := sendWord_halted (wordOf32 s.dev n 0 num raw) hk (by rw [hplay.clusterUsed_eq]; exact hused)
        (by rw [isFenced_congr hplay.fenced]; exact hf) (by rw [hplay.relay]; exact hl) hb
      rw [gapped, hplay.relay, hplay.calGap_eq, wordOf32_num] at hrelay
      rw [relay_settle, cond_settle, hrelay]
      exact ⟨rfl, rfl, rfl, hcond.trans hplay.cond⟩
    · rintro rfl hf hempty hb hreset hw0 hw1 hfull hoff
      have heff := doConverterWord_normal h0 h6 hu t num halt raw
      rw [arWord_off _ _ (by rw [flagL_playedTo]; exact hoff)] at heff
      refine does_of_gives ((gives_converterWord t hn hp hh hr hs).of_eq heff) ?_
      obtain ⟨hfifo, hhist, hm⟩ := sendWord_first (wordOf32 (playedTo s.dev t n) n 0 num raw) hk
        (by rw [hplay.clusterUsed_eq]; exact hused) (by rw [isFenced_congr hplay.fenced]; exact hf)
        (by rw [hplay.relay]; exact hempty) hb (by rw [frameFull, hplay.toFrame]; exact hfull)
        (hplay.cond.trans hreset) (wordOf32_phase ..) (by rw [hplay.pipe _ (by omega)]; exact hw0)
        (by rw [hplay.pipe _ (by omega)]; exact hw1)
      rw [wordOf32_num] at hhist
      rw [relay_settle, cond_settle, settle_mem]
      exact ⟨hfifo, hhist, hm.trans hplay.mem⟩
    · rintro rfl
      exact (gives_converterWord t hn hp hh hr hs).of_eq (doConverterWord_half h0 h6 hu t num halt raw)
    · rintro raw0 rfl hhalf hpart
      exact (gives_converterWord t hn hp hh hr hs).of_eq (doConverterWord_pair h0 h6 hu t num halt hhalf hpart)
  · intro c hc mean lo hi ovr hfit hovr hclear
    have hg := (gives_statWindowEnd t ovr hn (by omega : c < 7) (Or.inr hfit) hs).of_eq
      (doStatEnd_core t n mean lo hi ovr s.dev hc)
    obtain ⟨x, hx⟩ := judgeStuck_clear (d := statShow (advance s.dev t) n c mean lo hi ovr) (n := n) (c := c) (ovr := ovr)
      (lo := lo) (hi := hi) (by rw [statEligible_statShow, statLen_statShow]; exact hclear)
    rw [hx] at hg
    refine does_of_gives hg ?_
    obtain ⟨hmean, hlo, hhi, hov, hseq⟩ := statShow_shows (advance s.dev t) n c hfit hovr
    have hbut := statShow_regsBut (advance s.dev t) n c mean lo hi ovr
    simp only [RegsBut, getS, getR_settle, settle_evt, settle_mem]
    exact ⟨hmean, hlo, hhi, hov, hseq, hbut, rfl, rfl⟩
  · intro c hc v ovr hfit he
    have hg := (gives_statWindowEnd t ovr hn (by omega : c < 7) (Or.inr hfit) hs).of_eq
      (doStatEnd_core t n (256 * v) v v ovr s.dev hc)
    refine does_of_gives hg ?_
    obtain ⟨hevt, hrun, hm⟩ := judgeStuck_stuck v ovr
      ((statEligible_statShow (advance s.dev t) n c c (256 * v) v v ovr).trans he)
    rw [rx_settle, settle_mem]
    exact ⟨by simpa using hevt, hrun, hm⟩
  · intro c hc mean lo hi ovr
    have hg := (gives_statWindowEnd (mean := mean) (lo := lo) (hi := hi) t ovr hn (by omega : c + 5 < 7) (Or.inl (by omega)) hs).of_eq
      (doStatEnd_thermal t n c mean lo hi ovr s.dev)
    refine ⟨hg, does_of_gives hg ?_⟩
    obtain ⟨hovr, hlim, hevt, hth, hm⟩ := thWindowEnd_spec (advance s.dev t) n c
    simp only [getS, getR_settle, rx_settle, settle_mem]
    exact ⟨hovr, hlim, fun h0 h => by simpa using hevt h0 h, hth, hm⟩

end

section
/-! PROOFS. The interrupt tree: every step keeps it settled, what settling and the MSI-X commands send, and the two reads
with an effect (R51, R57, R301). -/

namespace Sys2Proof.Machine

open Sys2Proof

/-! ### What every step keeps (R57) -/

/-- Which vectors are active does not depend on time. -/
@[simp] theorem vecsActive_advance (d : Dev) (t : Nat) : vecsActive (advance d t) = vecsActive d :=
  vecsActive_congr rfl rfl rfl

theorem treeSettled_advance {d : Dev} (t : Nat) (h : TreeSettled d) : TreeSettled (advance d t) :=
  ⟨h.1.trans (vecsActive_advance d t).symm, h.2⟩

/-- A command that is taken leaves the tree settled: it settles the tree itself, or changes nothing. -/
theorem exec_keeps_treeSettled {c : Instr} {s t : State} (h : TreeSettled s.dev) (ht : exec c s = .next t) :
    TreeSettled t.dev := by
  rcases exec_settles c s with ⟨-, ho⟩ | ⟨-, -, ho⟩ | ⟨-, d, ho⟩
  · rw [ho] at ht; cases ht
  · rw [ho] at ht; cases ht; exact h
  · rw [ho] at ht; cases ht; exact settle_settled d

/-! ### What settling sends (R57) -/

theorem sendVec_recorded {d : Dev} {v : Nat} (hm : vecMasked d.irq v = true) (hp : v ∈ d.irq.pba) : sendVec d v = d := by
  simp [sendVec, hm, hp]

theorem sendVec_unmasked {d : Dev} {v : Nat} (hm : vecMasked d.irq v = false) : sendVec d v = emit d (.msix v) := by
  simp [sendVec, hm, emit]

/-- `d` with MSI-X at `q` and the messages of the vectors `vs` sent. -/
def withMsix (d : Dev) (q : Irq) (vs : List Nat) : Dev := { d with irq := q, out := d.out ++ vs.map Output.msix }

/-- Vectors whose pending bit is set where they are masked: the unmasked ones send their message. -/
theorem sendVecs_eq (l : List Nat) (d : Dev) (h : ∀ v ∈ l, vecMasked d.irq v = true → v ∈ d.irq.pba) :
    l.foldl sendVec d = withMsix d d.irq (l.filter (fun v => !vecMasked d.irq v)) := by
  induction l generalizing d with
  | nil => simp [withMsix]
  | cons v r ih =>
    have hr : ∀ w ∈ r, vecMasked d.irq w = true → w ∈ d.irq.pba := fun w hw => h w (by simp [hw])
    cases hm : vecMasked d.irq v with
    | true => rw [List.foldl_cons, sendVec_recorded hm (h v (by simp) hm), ih d hr]; simp [hm]
    | false => rw [List.foldl_cons, sendVec_unmasked hm, ih (emit d (.msix v)) hr]; simp [hm, emit, withMsix]

/-- The vectors that send their message when the tree of `d` settles: those newly active and not masked. -/
def freshVecs (d : Dev) : List Nat :=
  ((vecsActive d).filter (fun v => !d.irq.active.contains v)).filter (fun v => !vecMasked d.irq v)

/-- MSI-X once its active vectors are `act`: while a vector is masked its pending bit follows its activity. -/
def follow (q : Irq) (act : List Nat) : Irq := { q with active := act, pba := act.filter (vecMasked q) }

/-- Settling: the active vectors are recorded, and the newly active ones that are not masked send. -/
theorem settle_eq (d : Dev) : settle d = withMsix d (follow d.irq (vecsActive d)) (freshVecs d) :=
  sendVecs_eq _ { d with irq := follow d.irq (vecsActive d) }
    fun _ hv hm => List.mem_filter.2 ⟨(List.mem_filter.1 hv).1, hm⟩

theorem mem_freshVecs {d : Dev} {v : Nat} :
    v ∈ freshVecs d ↔ v ∈ vecsActive d ∧ v ∉ d.irq.active ∧ vecMasked d.irq v = false := by
  simp only [freshVecs, List.mem_filter, List.contains_eq_mem, Bool.not_eq_true', decide_eq_false_iff_not, and_assoc]

theorem settle_irq (d : Dev) : (settle d).irq = follow d.irq (vecsActive d) := by rw [settle_eq]; rfl

theorem settle_out (d : Dev) : (settle d).out = d.out ++ (freshVecs d).map Output.msix := by rw [settle_eq]; rfl

/-- Where the active vectors are recorded already, settling sends nothing. -/
theorem freshVecs_eq_nil {d : Dev} (h : vecsActive d = d.irq.active) : freshVecs d = [] :=
  List.eq_nil_iff_forall_not_mem.2 fun v hv => by
    obtain ⟨h1, h2, -⟩ := mem_freshVecs.1 hv
    exact h2 (h ▸ h1)

theorem settle_out_quiet {d : Dev} (h : vecsActive d = d.irq.active) : (settle d).out = d.out := by
  rw [settle_out, freshVecs_eq_nil h]; simp

/-! ### Rearm and unmask (R57) -/

theorem bit_eq_testBit (n b : Nat) : bit n b = n.testBit b := by
  rw [bit, Nat.testBit_eq_decide_div_mod_eq]; simp [Bool.beq_eq_decide_eq]

/-- A rearm word with one bit set names one vector. -/
theorem rearm_names_one {x v : Nat} :
    (decide (x / 32 = v / 32) && bit (2 ^ (v % 32)) (x % 32)) = true ↔ x = v := by
  rw [bit_eq_testBit, Nat.testBit_two_pow, Bool.and_eq_true, decide_eq_true_eq, decide_eq_true_eq]
  omega

theorem vecsActive_nodup (d : Dev) : (vecsActive d).Nodup := List.nodup_range.filter _

/-- The active vector `v` named alone. -/
theorem rearm_filter (d : Dev) (v : Nat) :
    (vecsActive d).filter (fun x => decide (x / 32 = v / 32) && bit (2 ^ (v % 32)) (x % 32)) =
      if v ∈ vecsActive d then [v] else [] := by
  rw [List.filter_congr (q := fun x => x == v) (fun x _ => by
    rw [Bool.eq_iff_iff, rearm_names_one, beq_iff_eq]), List.filter_beq]
  split
  · next h => rw [List.count_eq_one_of_mem (vecsActive_nodup d) h]; rfl
  · next h => rw [List.count_eq_zero_of_not_mem h]; rfl

theorem gives_vecRearm {s : State} {h : Nat} (t w : Nat) (hh : h < 2) (hs : Awake s) :
    Gives (.vecRearm t h w) s
      (((vecsActive s.dev).filter (fun x => decide (x / 32 = h) && bit w (x % 32))).foldl sendVec (advance s.dev t)) :=
  (gives_of_act (f := doVecRearm t h w) rfl (by simp [hh]) hs).of_eq (by simp only [doVecRearm, vecsActive_advance])

theorem gives_msixUnmask {s : State} {v : Nat} (t : Nat) (m f : Bool) (hv : v < 64) (hs : Awake s) :
    Gives (.msixUnmask t v m f) s (doMsixUnmask t v m f s.dev) := gives_of_act rfl (by simp [hv]) hs

/-- A rearm word with one bit set rearms that vector, where it is active. -/
theorem gives_vecRearm_one {s : State} {v : Nat} (t : Nat) (hv : v < 64) (hs : Awake s) :
    Gives (.vecRearm t (v / 32) (2 ^ (v % 32))) s
      (if v ∈ vecsActive s.dev then sendVec (advance s.dev t) v else advance s.dev t) :=
  (gives_vecRearm t _ (by omega) hs).of_eq (by rw [rearm_filter]; split <;> rfl)

/-- Pending bits settle to those of the active vectors that are masked, whatever they were. -/
theorem settle_pba {d : Dev} (h : vecsActive d = d.irq.active) (l : List Nat) :
    settle (withMsix d { d.irq with pba := l } []) = withMsix d (follow d.irq (vecsActive d)) [] := by
  have hv : vecsActive (withMsix d { d.irq with pba := l } []) = vecsActive d := vecsActive_congr rfl rfl rfl
  rw [settle_eq, freshVecs_eq_nil (hv.trans h), hv]
  simp only [withMsix, List.map_nil, List.append_nil]; rfl

/-- A masked vector that is due, where the active vectors are recorded: its pending bit follows its activity, and nothing is
sent. -/
theorem settle_sendVec_masked {d : Dev} {v : Nat} (h : vecsActive d = d.irq.active) (hm : vecMasked d.irq v = true) :
    settle (sendVec d v) = withMsix d (follow d.irq (vecsActive d)) [] := by
  rw [← settle_pba h (if d.irq.pba.contains v then d.irq.pba else v :: d.irq.pba), sendVec, if_pos hm]
  simp [withMsix]

/-- The vectors that an unmask makes send: pending, and then no longer masked. -/
def unmaskVecs (q : Irq) : List Nat := (List.range 64).filter (fun x => q.pba.contains x && !vecMasked q x)

/-- MSI-X with the Mask bit of `v` and the Function Mask written. -/
def maskPut (q : Irq) (v : Nat) (m f : Bool) : Irq :=
  { q with masked := (if m then [v] else []) ++ q.masked.filter (· != v), funcMask := f }

/-- The write itself: the vectors unmasked send, and their pending bits clear. -/
theorem doMsixUnmask_eq (t v : Nat) (m f : Bool) (d : Dev) :
    doMsixUnmask t v m f d = withMsix (advance d t)
      { maskPut d.irq v m f with pba := d.irq.pba.filter (fun x => !(unmaskVecs (maskPut d.irq v m f)).contains x) }
      (unmaskVecs (maskPut d.irq v m f)) := by
  cases m <;> rfl

/-- What a write of a Mask bit and of the Function Mask leaves, where the active vectors are recorded. -/
theorem settle_msixUnmask (t v : Nat) (m f : Bool) {d : Dev} (h : vecsActive d = d.irq.active) :
    (settle (doMsixUnmask t v m f d)).irq = follow (maskPut d.irq v m f) d.irq.active ∧
    (settle (doMsixUnmask t v m f d)).out = d.out ++ (unmaskVecs (maskPut d.irq v m f)).map Output.msix ∧
    (settle (doMsixUnmask t v m f d)).regs = d.regs ∧ (settle (doMsixUnmask t v m f d)).evt = d.evt ∧
    (settle (doMsixUnmask t v m f d)).mem = d.mem := by
  rw [doMsixUnmask_eq]
  generalize hp : d.irq.pba.filter _ = p
  have hv : vecsActive (withMsix (advance d t) { maskPut d.irq v m f with pba := p } (unmaskVecs (maskPut d.irq v m f))) =
      d.irq.active := h ▸ vecsActive_congr rfl rfl rfl
  refine ⟨?_, settle_out_quiet hv, settle_regs _, settle_evt _, settle_mem _⟩
  rw [settle_irq, hv]; rfl

/-- Where every other pending vector is masked and the Function Mask is off, unmasking `v` makes `v` send alone. -/
theorem unmaskVecs_one {q : Irq} {v : Nat} (hv : v < 64) (hp : v ∈ q.pba)
    (ho : ∀ w ∈ q.pba, w ≠ v → vecMasked q w = true) (hf : q.funcMask = false) :
    unmaskVecs (maskPut q v false false) = [v] := by
  have hx : ∀ x, (q.pba.contains x && !vecMasked (maskPut q v false false) x) = (x == v) := fun x => by
    by_cases hxv : x = v
    · subst hxv; simp [hp, vecMasked, maskPut]
    · by_cases hxp : x ∈ q.pba
      · have := ho x hxp hxv
        simp_all [vecMasked, maskPut]
      · simp [hxp, hxv]
  rw [unmaskVecs, show (maskPut q v false false).pba = q.pba from rfl, List.filter_congr (fun x _ => hx x), List.filter_beq,
    List.count_eq_one_of_mem List.nodup_range (List.mem_range.2 hv)]
  rfl

theorem vecMasked_maskPut_self (q : Irq) (v : Nat) : vecMasked (maskPut q v false false) v = false := by
  simp [vecMasked, maskPut]

/-! ### The two reads with an effect (R51, R301) -/

theorem gives_catEntryHiRead {s : State} (t : Nat) (hs : Awake s) :
    Gives (.catEntryHiRead t) s (doCatRead t s.dev) := gives_of_act rfl rfl hs

theorem gives_nowRead {s : State} (t : Nat) (hr : Reach s.dev pgTime) (hs : Awake s) :
    Gives (.nowRead t) s (emit (latchNow (advance s.dev t)) (.readData (taiSec (tai (advance s.dev t)) % 2 ^ 32))) :=
  (gives_of_act (f := doNowRead t) rfl rfl hs).of_eq
    (onPage_reach (fun d => emit (latchNow d) (.readData (taiSec (tai d) % 2 ^ 32))) (reach_advance hr))

theorem taiNs_lt (x : Int) : taiNs x < 2 ^ 32 := by unfold taiNs secU; omega

theorem taiSub_lt (x : Int) : taiSub x < 2 ^ 16 := by unfold taiSub; omega

/-- The three fields that latch the time, and the frame of the latch. -/
theorem latchNow_spec (d : Dev) :
    getR (latchNow d) pgTime F.TIME_NOW_S = taiSec (tai d) % 2 ^ 48 ∧
    getR (latchNow d) pgTime F.TIME_NOW_NS = taiNs (tai d) ∧ getR (latchNow d) pgTime F.TIME_NOW_SUB = taiSub (tai d) ∧
    RegsBut [(pgTime, F.TIME_NOW_S), (pgTime, F.TIME_NOW_NS), (pgTime, F.TIME_NOW_SUB)] (latchNow d) d := by
  unfold latchNow
  refine ⟨?_, ?_, ?_, ?_⟩
  · rw [getR_setR_fld _ _ _ (by decide), getR_setR_fld _ _ _ (by decide), getR_setR_self]; rfl
  · rw [getR_setR_fld _ _ _ (by decide), getR_setR_self]; exact Nat.mod_eq_of_lt (taiNs_lt _)
  · rw [getR_setR_self]; exact Nat.mod_eq_of_lt (taiSub_lt _)
  · intro p f h
    simp only [List.mem_cons, List.not_mem_nil, or_false, forall_eq_or_imp, forall_eq] at h
    obtain ⟨h1, h2, h3⟩ := h
    rw [getR_setR_ne _ _ h3, getR_setR_ne _ _ h2, getR_setR_ne _ _ h1]

end Sys2Proof.Machine

open Sys2Proof Sys2Proof.Machine

/-- Settles O6: a step passes a tick, or runs the front command, which settles the tree or changes nothing. -/
theorem interruptTreeStaysSettled : Obligations.InterruptTreeStaysSettled := by
  intro s t h ht
  unfold step at ht
  split at ht
  · cases ht; exact treeSettled_advance _ h
  · next c rest _ => exact exec_keeps_treeSettled (s := { s with pending := rest }) h ht

/-- Settles O7: settling in closed form, rearm and unmask on a settled tree, and the two reads. -/
theorem interruptMessagesAndReadsWithAnEffect : Obligations.InterruptMessagesAndReadsWithAnEffect := by
  unfold Obligations.InterruptMessagesAndReadsWithAnEffect
  refine ⟨fun d => ⟨_, freshVecs d, settle_eq d, rfl, rfl, rfl, fun v hv => mem_freshVecs.1 hv,
    fun v h1 h2 h3 => mem_freshVecs.2 ⟨h1, h2, h3⟩⟩, ?_, ?_⟩
  · rintro s t v hs ⟨hact, hpba⟩ hv
    refine ⟨fun hn => ?_, fun hin hm => ?_, fun hin hm => ?_, fun hin hp ho hf => ?_, fun h hh w => gives_vecRearm t w hh hs,
      fun m f => ?_⟩
    · exact (gives_vecRearm_one t hv hs).of_eq (if_neg hn)
    · exact (gives_vecRearm_one t hv hs).of_eq (by rw [if_pos hin]; exact sendVec_unmasked hm)
    · refine does_of_gives ((gives_vecRearm_one t hv hs).of_eq (if_pos hin)) ?_
      rw [settle_sendVec_masked (d := advance s.dev t) ((vecsActive_advance _ _).trans hact.symm) hm]
      refine ⟨List.mem_filter.2 ⟨?_, hm⟩, List.append_nil _, rfl, rfl⟩
      rwa [vecsActive_advance]
    · obtain ⟨hq, hout, hregs, hevt, hmem⟩ := settle_msixUnmask t v false false hact.symm
      refine does_of_gives (gives_msixUnmask t false false hv hs) ⟨?_, ?_, ?_, hregs, hevt, hmem⟩
      · rw [hout, unmaskVecs_one hv hp ho hf]; rfl
      · rw [hq]; simp [follow, vecMasked_maskPut_self]
      · rw [hq]; rfl
    · obtain ⟨hq, hout, hregs, hevt, hmem⟩ := settle_msixUnmask t v m f hact.symm
      refine does_of_gives (gives_msixUnmask t m f hv hs) ⟨?_, ?_, ?_, ?_, ?_, hregs, hevt, hmem⟩
      all_goals rw [hq]
      · rfl
      · rfl
      · rfl
      · rfl
      · exact hout
  · intro s t hs
    refine ⟨(gives_catEntryHiRead t hs).of_eq ?_, fun hr _ => ?_⟩
    · simp only [doCatRead, catSel, getR_advance, getR_emit]
      cases catalogue[getR s.dev pgCat F.CAT_INDEX]? <;> rfl
    · obtain ⟨h1, h2, h3, h4⟩ := latchNow_spec (advance s.dev t)
      refine does_of_gives (gives_nowRead t hr hs) ⟨?_, ?_, ?_, ?_, ?_, ?_, ?_⟩
      · simpa using h1
      · simpa using h2
      · simpa using h3
      · exact mem_settle_out (mem_emit _ _)
      · intro p f h; simpa using h4 p f h
      · simp [latchNow]
      · simp [latchNow]

end

section
/-! PROOFS. Register accesses: the word writes that reach a page or a window, and those turned away (R45–R48, R330). -/

namespace Sys2Proof.Machine

open Sys2Proof

/-! ### Pages and windows -/

/-- No page of registers lies in a coefficient window. -/
theorem coefOf_of_kindOf {p : Nat} {k : PageKind} (h : kindOf p = some k) : coefOf p = none := by
  unfold kindOf at h
  unfold coefOf
  cases hl : lineOfPage p with
  | none => rfl
  | some n =>
    simp only [hl] at h
    refine if_neg fun ho => ?_
    have hn : lineKind (p - lineBase n) = none := by
      unfold lineKind
      repeat rw [if_neg (by omega)]
    rw [hn] at h; cases h

theorem Reach.kind {d : Dev} {p : Nat} (h : Reach d p) : ∃ k, kindOf p = some k := Option.isSome_iff_exists.1 h.1

theorem Reach.visible {d : Dev} {p : Nat} (h : Reach d p) : Visible d p := h.2.2

/-! ### A write of this package (R45–R47) -/

/-- A write below the remote window is carried out here. -/
theorem busAccess_write_low (d : Dev) (owner : Nat) {addr : Nat} (size v : Nat) (h : addr < 0xC00000) :
    (busAccess d owner addr true size v).2 = (localWrite d addr size v).2 := by
  simp [busAccess, h]

theorem localWrite_bad {d : Dev} {addr size : Nat} (v : Nat)
    (h : size ≠ 4 ∨ addr % 4 ≠ 0 ∨ (kindOf (addr / 4096) = none ∧ coefOf (addr / 4096) = none) ∨
      pageHidden d (addr / 4096) = true) :
    (localWrite d addr size v).2 = badAccess d := by
  simp only [localWrite, if_pos h]

section
variable {d : Dev} {p off : Nat} (ho : off < 4096) (h4 : off % 4 = 0)
include ho h4

/-- An aligned word write at a page or window that is not hidden. -/
theorem localWrite_word (v : Nat) (hx : ¬ (kindOf p = none ∧ coefOf p = none)) (hh : pageHidden d p = false) :
    localWrite d (p * 4096 + off) 4 v =
      if pageFenced d p then (3, bump d pgPkg F.PKG_FENCE_ACCESS)
      else if pageDark d p then (0, d)
      else match coefOf p, kindOf p with
        | some (n, s, h), _ => (0, coefStore d n s (1024 * h + off / 4) (v % 2 ^ 32))
        | none, some k => (0, pageWrite d p k off (v % 2 ^ 32))
        | none, none => (2, badAccess d) := by
  have hp : (p * 4096 + off) / 4096 = p := by omega
  have hm : (p * 4096 + off) % 4096 = off := by omega
  have hno : ¬ (4 ≠ 4 ∨ (p * 4096 + off) % 4 ≠ 0 ∨ (kindOf p = none ∧ coefOf p = none) ∨ pageHidden d p = true) := by
    rintro (h | h | h | h)
    · exact h rfl
    · omega
    · exact hx h
    · rw [hh] at h; cases h
  simp only [localWrite, hp, hm, if_neg hno] <;> rfl

theorem localWrite_fenced (v : Nat) {k : PageKind} (hk : kindOf p = some k) (hh : pageHidden d p = false)
    (hf : pageFenced d p = true) : (localWrite d (p * 4096 + off) 4 v).2 = bump d pgPkg F.PKG_FENCE_ACCESS := by
  rw [localWrite_word ho h4 v (by simp [hk]) hh, if_pos hf]

theorem localWrite_page (v : Nat) {k : PageKind} (hk : kindOf p = some k) (hv : Visible d p) :
    (localWrite d (p * 4096 + off) 4 v).2 = pageWrite d p k off (v % 2 ^ 32) := by
  obtain ⟨hh, hf, hd⟩ := hv
  rw [localWrite_word ho h4 v (by simp [hk]) hh, if_neg (by simp [hf]), if_neg (by simp [hd]), coefOf_of_kindOf hk, hk]

theorem localWrite_coef (v : Nat) {n l h : Nat} (hc : coefOf p = some (n, l, h)) (hv : Visible d p) :
    (localWrite d (p * 4096 + off) 4 v).2 = coefStore d n l (1024 * h + off / 4) (v % 2 ^ 32) := by
  obtain ⟨hh, hf, hd⟩ := hv
  rw [localWrite_word ho h4 v (by simp [hc]) hh, if_neg (by simp [hf]), if_neg (by simp [hd]), hc]

end

theorem gives_registerWrite {s : State} {addr size : Nat} (t v : Nat) (hz : size < 5) (ha : addr < 0xC00000) (hs : Awake s) :
    Gives (.registerWrite t addr size v) s (localWrite (advance s.dev t) addr size v).2 :=
  (gives_of_act (f := fun d => (busAccess (advance d t) 0 addr true size v).2) rfl (by simpa [Instr.wf] using hz) hs).of_eq
    (busAccess_write_low _ _ _ _ ha)

/-- An access to the remote window that another package is to answer goes on as a proxied access (R330). -/
theorem busAccess_remote {d : Dev} {off : Nat} (owner : Nat) (write : Bool) (size v : Nat) (ho : off < 0x400000)
    (hw : write = true → size = 4 ∧ off % 4 = 0) (hq : getR d pgBtn F.BTN_WIN_QTR ≠ 3)
    (hg : getR d pgBtn F.BTN_WIN_PKG ≠ pkgIndex d) :
    busAccess d owner (0xC00000 + off) write size v =
      (none, proxyPut d ⟨owner, getR d pgBtn F.BTN_WIN_PKG, getR d pgBtn F.BTN_WIN_QTR * 0x400000 + off, write, v % 2 ^ 32,
        d.ticks, size⟩) := by
  have hlow : ¬ (0xC00000 + off < 0xC00000 ∨ 0x1000000 ≤ 0xC00000 + off) := by omega
  have hal : ¬ (write = true ∧ (size ≠ 4 ∨ (0xC00000 + off) % 4 ≠ 0)) := by
    rintro ⟨h, h' | h'⟩
    · exact h' (hw h).1
    · have := (hw h).2; omega
  unfold busAccess
  rw [if_neg hlow]
  dsimp only
  rw [if_neg hal, if_neg hq, if_neg hg, Nat.add_sub_cancel_left]

theorem gives_registerWrite_remote {s : State} {off : Nat} (t v : Nat) (ho : off < 0x400000) (h4 : off % 4 = 0)
    (hq : getR s.dev pgBtn F.BTN_WIN_QTR ≠ 3) (hg : getR s.dev pgBtn F.BTN_WIN_PKG ≠ pkgIndex s.dev) (hs : Awake s) :
    Gives (.registerWrite t (0xC00000 + off) 4 v) s
      (proxyPut (advance s.dev t) ⟨0, getR s.dev pgBtn F.BTN_WIN_PKG,
        getR s.dev pgBtn F.BTN_WIN_QTR * 0x400000 + off, true, v % 2 ^ 32, max s.dev.ticks t, 4⟩) :=
  (gives_of_act (f := fun d => (busAccess (advance d t) 0 (0xC00000 + off) true 4 v).2) rfl rfl hs).of_eq
    (congrArg Prod.snd (busAccess_remote (d := advance s.dev t) 0 true 4 v ho (fun _ => ⟨rfl, h4⟩) hq hg))

theorem gives_stagedWrite {s : State} {off : Nat} (t p v : Nat) (ho : off < 4096) (hs : Awake s) :
    Gives (.stagedWrite t p off v) s (localWrite (advance s.dev t) (p * 4096 + off) 4 v).2 :=
  (gives_of_act (f := fun d => (localWrite (advance d t) (p * 4096 + off % 4096) 4 v).2) rfl rfl hs).of_eq
    (by rw [Nat.mod_eq_of_lt ho])

/-! ### The words of the common header and of the LOOP page -/

theorem pageWrite_EVT_EN (d : Dev) {p : Nat} (k : PageKind) (v : Nat) (hp : p ≠ pgPaceTbl) :
    pageWrite d p k 0x014 v = setR d p cEVT_EN v := by
  simp [pageWrite, commonWrite, hp]

/-- The word of KP holds that staged field alone. -/
theorem hitsOn_LOOP_KP {l : Nat} (hl : l < 8) :
    (hitsOn pgLoop .loop (F.LOOP_KP l).off).map (fun h => (h.fld, h.row.acc, h.part)) = [(F.LOOP_KP l, .st, 0)] := by
  revert l; decide

/-- Writing the fields of one access type, where the word holds one field of up to 32 bits. -/
theorem putFields_one {d : Dev} {p off : Nat} {k : PageKind} {f : Fld} {a : Acc} (acc : Acc) (w : Nat)
    (h : (hitsOn p k off).map (fun h => (h.fld, h.row.acc, h.part)) = [(f, a, 0)]) (hf : f.width ≤ 32) :
    putFields acc d p k off w = if a = acc then setR d p f (bits w f.lsb f.width) else d := by
  obtain ⟨x, hx, hxf⟩ := List.map_eq_singleton_iff.1 h
  obtain ⟨rfl, hxf⟩ := Prod.ext_iff.1 hxf
  obtain ⟨rfl, -⟩ := Prod.ext_iff.1 hxf
  unfold putFields
  rw [hx]
  by_cases ha : x.row.acc = acc
  · simp [ha, hitPut, not_lt.2 hf]
  · simp [ha]

theorem pageWrite_LOOP_KP (d : Dev) {l : Nat} (v : Nat) (hl : l < 8) :
    pageWrite d pgLoop .loop (F.LOOP_KP l).off (v % 2 ^ 32) = setR d pgLoop (F.LOOP_KP l) v := by
  have ho : ¬ (F.LOOP_KP l).off < 0x040 := by simp [F.LOOP_KP]; omega
  have hline : lineOfPage pgLoop = none := by decide
  have h := hitsOn_LOOP_KP hl
  simp only [pageWrite, if_neg ho, hline, plainWord]
  rw [putFields_one .rw _ h (by simp [F.LOOP_KP]), if_neg (by decide), putFields_one .st _ h (by simp [F.LOOP_KP]), if_pos rfl]
  simp [setR, bits, F.LOOP_KP]

end Sys2Proof.Machine

open Sys2Proof Sys2Proof.Machine

/-- Settles O8: what becomes of a write, by where it falls. -/
theorem registerWritesStoreByAccessType : Obligations.RegisterWritesStoreByAccessType := by
  unfold Obligations.RegisterWritesStoreByAccessType
  intro s t v hs
  refine ⟨?_, ?_, ?_, ?_, ?_, ?_, ?_, ?_⟩
  · intro p hp hr
    obtain ⟨k, hk⟩ := hr.kind
    refine (gives_registerWrite t v (by omega) (by omega) hs).of_eq ?_
    rw [localWrite_page (d := advance s.dev t) (by omega) (by omega) v hk hr.visible, pageWrite_EVT_EN _ _ _ hr.2.1]
  · intro l hl hr
    have ho : (F.LOOP_KP l).off < 4096 := by simp [F.LOOP_KP]; omega
    have h4 : (F.LOOP_KP l).off % 4 = 0 := by simp [F.LOOP_KP]; omega
    refine does_of_gives ((gives_stagedWrite t pgLoop v ho hs).of_eq
      ((localWrite_page (d := advance s.dev t) (k := .loop) ho h4 v (by decide) hr.visible).trans (pageWrite_LOOP_KP _ v hl))) ⟨?_, ?_, ?_, ?_, ?_⟩
    · rw [getR_settle, getR_setR_self]; rfl
    · rw [getL, getL, getR_settle, getR_setR_fld _ _ _ (by simp [fldAt, liveF])]; rfl
    · intro q f h
      rw [getR_settle]; exact regsBut_setR _ _ _ _ q f h
    · simp
    · intro a; simp
  · intro p k off hp hk _ hv ho h4
    have hw := localWrite_page (d := advance s.dev t) ho h4 v hk hv
    exact ⟨(gives_registerWrite t v (by omega) (by omega) hs).of_eq hw, (gives_stagedWrite t p v ho hs).of_eq hw⟩
  · intro p n l h off hp hc hv ho h4
    exact (gives_registerWrite t v (by omega) (by omega) hs).of_eq (localWrite_coef ho h4 v hc hv)
  · intro p k off hp hk hh hf ho h4
    exact (gives_registerWrite t v (by omega) (by omega) hs).of_eq (localWrite_fenced ho h4 v hk hh hf)
  · intro off ho h4 hq hg
    exact gives_registerWrite_remote t v ho h4 hq hg hs
  · intro addr size hz ha
    exact (gives_registerWrite t v (by omega) ha hs).of_eq (localWrite_bad v (Or.inl (by omega)))
  · intro addr ha hk hc
    exact (gives_registerWrite t v (by omega) ha hs).of_eq (localWrite_bad v (Or.inr (Or.inr (Or.inl ⟨hk, hc⟩))))

end

section
/-! PROOFS. Event bits and CLR_COUNTERS (R50, R55, R59). -/

namespace Sys2Proof.Machine

open Sys2Proof

/-! ### Event bits (R55) -/

/-- Raising an event sets its bit and no other of its page. -/
theorem raise_testBit (d : Dev) (p b i : Nat) :
    (evtRaw (raise d p b) p).testBit i = ((evtRaw d p).testBit i || decide (i = b)) := by
  rw [evtRaw_raise_self, Nat.testBit_or, Nat.testBit_two_pow]
  simp [eq_comm]

/-- EVT_RAW of page `p` at `w`. -/
def setEvt (d : Dev) (p w : Nat) : Dev := { d with evt := Store.set d.evt 0 p w }

@[simp] theorem evtRaw_setEvt_self (d : Dev) (p w : Nat) : evtRaw (setEvt d p w) p = w := by simp [evtRaw, setEvt]

theorem evtRaw_setEvt_ne (d : Dev) {p q : Nat} (w : Nat) (h : q ≠ p) : evtRaw (setEvt d p w) q = evtRaw d q :=
  Store.get_set_ne _ _ _ _ h.symm

theorem raise_eq_setEvt (d : Dev) (p b : Nat) : raise d p b = setEvt d p (evtRaw d p ||| 2 ^ b) := rfl

theorem gives_evtSet {s : State} {p : Nat} (t v : Nat) (hr : Reach s.dev p) (hs : Awake s) :
    Gives (.evtSet t p v) s (setEvt (advance s.dev t) p (evtRaw s.dev p ||| v % 2 ^ 32)) := by
  refine (gives_of_act (f := doEvtSet t p v) rfl rfl hs).of_eq ?_
  rw [doEvtSet, if_pos hr.1, onPage_reach _ (reach_advance hr), if_neg hr.2.1]
  rfl

theorem gives_evtClr {s : State} {p : Nat} (t v same : Nat) (hr : Reach s.dev p) (hs : Awake s) :
    Gives (.evtClr t p v same) s
      (setEvt (advance s.dev t) p (andNot (evtRaw s.dev p) (v % 2 ^ 32) ||| same % 2 ^ 32)) := by
  refine (gives_of_act (f := doEvtClr t p v same) rfl rfl hs).of_eq ?_
  rw [doEvtClr, if_pos hr.1, onPage_reach _ (reach_advance hr), if_neg hr.2.1]
  rfl

/-- The bits of `n` not in `m`. -/
theorem andNot_testBit (n m i : Nat) : (andNot n m).testBit i = (n.testBit i && !m.testBit i) := by
  rw [andNot, Nat.testBit_xor, Nat.testBit_and]
  cases n.testBit i <;> cases m.testBit i <;> rfl

theorem testBit_word {i : Nat} (v : Nat) (hi : i < 32) : (v % 2 ^ 32).testBit i = v.testBit i := by
  rw [Nat.testBit_mod_two_pow]; simp [hi]

/-! ### Clearing counters (R50) -/

/-- The counters and trackers of a page of kind `k`. -/
def counterFlds (k : PageKind) : List Fld := ((rowsOf k).filter (·.ctr)).flatMap rowPlaces

theorem mem_rowPlaces {r : Row} {f : Fld} : f ∈ rowPlaces r ↔ ∃ i < r.n1, ∃ j < r.n2, rowFld r i j = f := by
  simp [rowPlaces]

theorem mem_counterFlds {k : PageKind} {f : Fld} :
    f ∈ counterFlds k ↔ ∃ r ∈ rowsOf k, r.ctr = true ∧ ∃ i < r.n1, ∃ j < r.n2, rowFld r i j = f := by
  simp [counterFlds, mem_rowPlaces, and_assoc]

/-- Every counter is 0 after reset (R50). -/
theorem counterFlds_reset (k : PageKind) : ∀ f ∈ counterFlds k, f.reset = 0 := by
  have hrow : ∀ r ∈ rowsOf k, r.ctr = true → r.fld.reset = 0 ∧ r.resets = [] := by
    cases k <;> decide
  intro f hf
  obtain ⟨r, hr, hc, i, -, j, -, rfl⟩ := mem_counterFlds.1 hf
  obtain ⟨h0, hl⟩ := hrow r hr hc
  simp [rowFld, hl, h0]

/-- Fields of page `p` written with 0, one after the other. -/
def zeroFlds (d : Dev) (p : Nat) (l : List Fld) : Dev := l.foldl (fun d f => setR d p f 0) d

theorem zeroFlds_frame (d : Dev) (p : Nat) (l : List Fld) : ∃ r, zeroFlds d p l = { d with regs := r } :=
  foldl_rel (R := fun a b => ∃ r, b = { a with regs := r }) (fun a => ⟨a.regs, rfl⟩)
    (by rintro a b c ⟨r, rfl⟩ ⟨r', rfl⟩; exact ⟨r', rfl⟩) (fun a f _ => ⟨_, rfl⟩) d

/-- Fields whose keys are not written keep their values. -/
theorem getR_zeroFlds_ne (d : Dev) {p q : Nat} {l : List Fld} {f : Fld} (h : ∀ g ∈ l, key p g ≠ key q f) :
    getR (zeroFlds d p l) q f = getR d q f :=
  foldl_rel (R := fun a b => getR b q f = getR a q f) (fun _ => rfl) (fun _ _ _ h1 h2 => h2.trans h1)
    (fun a g hg => getR_setR_ne a 0 (h g hg)) d

/-- Fields that are 0 after reset read 0 once written. -/
theorem getR_zeroFlds (d : Dev) (p : Nat) {l : List Fld} (hl : ∀ g ∈ l, g.reset = 0) {f : Fld} (hf : f ∈ l) :
    getR (zeroFlds d p l) p f = 0 := by
  refine foldl_attains (I := fun _ => True) (P := fun a => getR a p f = 0) hf (fun _ _ _ _ => trivial) ?_ ?_ trivial
  · intro a _
    rw [getR_setR_self, Nat.zero_mod]
  · intro a g hg _ h
    by_cases hk : key p g = key p f
    · have hset : getR (setR a p g 0) p f = getR (setR a p g 0) p g := by
        rw [getR, getR, hk, hl g hg, hl f hf]
      rw [hset, getR_setR_self, Nat.zero_mod]
    · rw [getR_setR_ne a 0 hk, h]

/-- On page SVC the accumulator records clear as well (R276). -/
def clearRecs (d : Dev) (p : Nat) : Dev :=
  if p = pgSvc then { d with svcRec := d.svcRec.foldl (fun m e => Store.set m AccRec.reset e.1 (clearRec e.2)) d.svcRec } else d

theorem clearCounters_eq (d : Dev) (p : Nat) (k : PageKind) :
    clearCounters d p k = zeroFlds (clearRecs d p) p (counterFlds k) := by
  simp only [zeroFlds, counterFlds, rowPlaces, List.foldl_flatMap, List.foldl_map]
  rfl

theorem clearRecs_frame (d : Dev) (p : Nat) : ∃ r, clearRecs d p = { d with svcRec := r } := by
  unfold clearRecs; split
  · exact ⟨_, rfl⟩
  · exact ⟨d.svcRec, rfl⟩

/-- CLR_COUNTERS on a page: its counters read 0, and all but them and the accumulator records is as before. -/
theorem clearCounters_spec (d : Dev) (p : Nat) (k : PageKind) :
    (∀ f ∈ counterFlds k, getR (clearCounters d p k) p f = 0) ∧
    (∀ q f, (∀ g ∈ counterFlds k, key p g ≠ key q f) → getR (clearCounters d p k) q f = getR d q f) ∧
    (∃ r a, clearCounters d p k = { d with regs := r, svcRec := a }) := by
  obtain ⟨a, ha⟩ := clearRecs_frame d p
  refine ⟨fun f hf => ?_, fun q f h => ?_, ?_⟩
  · rw [clearCounters_eq]; exact getR_zeroFlds _ p (counterFlds_reset k) hf
  · rw [clearCounters_eq, getR_zeroFlds_ne _ h, ha]; rfl
  · obtain ⟨r, hr⟩ := zeroFlds_frame (clearRecs d p) p (counterFlds k)
    rw [clearCounters_eq, hr, ha]; exact ⟨r, a, rfl⟩

theorem gives_clrCounters {s : State} {p : Nat} {k : PageKind} (t : Nat) (hk : kindOf p = some k) (hr : Reach s.dev p)
    (hs : Awake s) : Gives (.clrCounters t p) s (clearPage (advance s.dev t) p k) := by
  refine (gives_of_act (f := doClrCounters t p) rfl rfl hs).of_eq ?_
  simp only [doClrCounters, hk]
  rw [onPage_reach _ (reach_advance hr), if_neg hr.2.1]

/-- No Stocktake's instant is this tick: none is taken. -/
theorem stkCatch_none {d : Dev} (h : ∀ x ∈ d.stk, x.taken = true ∨ ∀ i, x.instant = some i → ticksUntil d i ≠ 0) :
    stkCatch d = d := by
  refine if_neg fun hany => ?_
  obtain ⟨x, hx, hdue⟩ := List.any_eq_true.1 hany
  rcases h x hx with ht | hi
  · simp [ht] at hdue
  · cases hxi : x.instant with
    | none => simp [hxi] at hdue
    | some i =>
      have hnow : x.taken = false ∧ ticksUntil d i = 0 := by simpa [hxi] using hdue
      exact hi i hxi hnow.2

end Sys2Proof.Machine

open Sys2Proof Sys2Proof.Machine

/-- Settles O10: EVT_RAW after each write, bit by bit. -/
theorem eventWritesSetAndClearBits : Obligations.EventWritesSetAndClearBits := by
  unfold Obligations.EventWritesSetAndClearBits
  refine ⟨fun d p b i q => ⟨raise_testBit d p b i, fun hq => evtRaw_raise_ne d b hq.symm, rfl, rfl, rfl, rfl⟩, ?_⟩
  intro s t p v same hs hr
  refine ⟨fun b hb => ?_, ?_, ?_⟩
  · refine does_of_gives (gives_evtSet t (2 ^ b) hr hs) ?_
    rw [settle_evt, Nat.mod_eq_of_lt (Nat.pow_lt_pow_right (by omega) hb)]
    rfl
  · refine does_of_gives (gives_evtSet t v hr hs) ⟨fun i hi => ?_, fun q hq => ?_, settle_regs _, settle_mem _⟩
    · rw [evtRaw_settle, evtRaw_setEvt_self, Nat.testBit_or, testBit_word v hi]
    · rw [evtRaw_settle, evtRaw_setEvt_ne _ _ hq]; rfl
  · refine does_of_gives (gives_evtClr t v same hr hs) ⟨fun i hi => ?_, fun q hq => ?_, settle_regs _, settle_mem _⟩
    · rw [evtRaw_settle, evtRaw_setEvt_self, Nat.testBit_or, andNot_testBit, testBit_word v hi, testBit_word same hi]
    · rw [evtRaw_settle, evtRaw_setEvt_ne _ _ hq]; rfl

/-- Settles O9: a clear is the Stocktake of its cycle, the counts still to be made, and zeros in the counters. -/
theorem clearCountersClearsExactlyThePagesCounters : Obligations.ClearCountersClearsExactlyThePagesCounters := by
  unfold Obligations.ClearCountersClearsExactlyThePagesCounters
  intro s t p k hs hk hr n d1 d2 d0
  have hd : clearPage (advance s.dev t) p k = clearCounters d0 p k := by
    unfold clearPage onlyIf
    simp only [decide_eq_true_eq]
    rfl
  obtain ⟨hzero, hother, r, a, hframe⟩ := clearCounters_spec d0 p k
  refine ⟨does_of_gives ((gives_clrCounters t hk hr hs).of_eq hd) ⟨?_, ?_, ?_, ?_, ?_⟩, fun h => stkCatch_none h⟩
  · intro r hr hc i hi j hj
    rw [getR_settle]
    exact hzero _ (mem_counterFlds.2 ⟨r, hr, hc, i, hi, j, hj, rfl⟩)
  · intro q f h
    rw [getR_settle]
    refine hother q f fun g hg => ?_
    obtain ⟨r, hr, hc, i, hi, j, hj, rfl⟩ := mem_counterFlds.1 hg
    exact h r hr hc i hi j hj
  · rw [settle_evt, hframe]
  · rw [settle_snap, hframe]
  · intro x; rw [settle_mem, hframe]

end

section
/-! PROOFS. Proxied accesses (R330): why a ninth read can show an output. -/

namespace Sys2Proof.Machine

open Sys2Proof

/-- Eight reads of package 1 are outstanding, and an enabled event of page PKG is mapped to vector 0, which is not
masked and which no settling of the tree has recorded as active yet. -/
def unsettledReads : Dev :=
  let d := raise (setR (setR State.reset.dev pgPkg cEVT_EN 1) pgPkg (F.PKG_VMAP_EN 0) 1) pgPkg 0
  { setR d pgBtn F.BTN_WIN_PKG 1 with
    irq := ⟨[], false, [], []⟩,
    baton := { d.baton with proxies := List.replicate 8 ⟨0, 1, 0, false, 0, 0, 4⟩ } }

theorem gives_proxyAccess {s : State} {off size : Nat} (t : Nat) (write : Bool) (v : Nat) (ho : off < 4194304) (hz : size < 5)
    (hs : Awake s) : Gives (.proxyAccess t off write size v) s (doProxyAccess t off write size v s.dev) :=
  gives_of_act rfl (by simp [ho, hz]) hs

end Sys2Proof.Machine

open Sys2Proof Sys2Proof.Machine

/-- Refutes O46: its clause on the ninth read has no premise that the interrupt tree is settled (R57). Where it is not, as in
`unsettledReads`, the access that waits still ends with the tree being settled, which sends the message of a vector newly
active, so the outputs do change. (O6 keeps such a state from being reached from reset.) -/
theorem not_proxiedAccessesCompleteInOrder : ¬ Obligations.ProxiedAccessesCompleteInOrder := by
  unfold Obligations.ProxiedAccessesCompleteInOrder
  intro h
  obtain ⟨-, -, -, -, hninth, -⟩ := h { State.reset with dev := unsettledReads } 0 0 0 (by decide) (by decide)
  obtain ⟨u, hu, -, -, -, hout⟩ := hninth (by decide) (by decide) (by decide) (by decide)
  have hgives := gives_proxyAccess (s := { State.reset with dev := unsettledReads }) (off := 0) (size := 4) 0 false 0
    (by decide) (by decide) (by decide)
  have hfresh : freshVecs (doProxyAccess 0 0 false 4 0 unsettledReads) = [0] := by decide +kernel
  have hkeep : (doProxyAccess 0 0 false 4 0 unsettledReads).out = unsettledReads.out := by decide +kernel
  rw [Gives] at hgives
  rw [hgives] at hu
  cases hu
  rw [settle_out, hfresh, hkeep] at hout
  exact absurd hout (by simp)

end

section
/-! PROOFS. Stocktakes, from request to end (R58–R62). -/

namespace Sys2Proof.Machine

open Sys2Proof

/-! ### Time as an instant -/

theorem tai_congr {d e : Dev} (ht : d.time = e.time) (hk : d.ticks = e.ticks) : tai d = tai e := by simp only [tai, ht, hk]

@[simp] theorem tai_settle (d : Dev) : tai (settle d) = tai d := tai_congr (settle_time d) (settle_ticks d)

/-- The first Pacer tick boundary at least `n` ticks ahead. -/
theorem nextPacer_spec (d : Dev) (n : Nat) :
    nextPacer d n % msU = 0 ∧ tai d + 655360 * n ≤ nextPacer d n ∧ nextPacer d n < tai d + 655360 * n + msU := by
  simp only [nextPacer, msU]
  omega

/-- Once the ticks until `x` have passed, TAI has reached it. -/
theorem le_tai_ticksUntil (d : Dev) (t : Nat) (x : Int) : x ≤ tai (advance d (max t (d.ticks + ticksUntil d x))) := by
  have h : tai d + 655360 * (ticksUntil d x : Int) ≤ tai (advance d (max t (d.ticks + ticksUntil d x))) := by
    simp only [tai, advance_time, advance_ticks]
    push_cast; omega
  have hx : x ≤ tai d + 655360 * (ticksUntil d x : Int) := by unfold ticksUntil; omega
  exact hx.trans h

/-! ### Messages on Baton -/

/-- A message goes out, or none does. -/
theorem batonSend_frame (d : Dev) (port kind : Nat) (l : List Int) :
    ∃ o, batonSend d port kind l = { d with out := o } := by
  unfold batonSend onlyIf; split
  · exact ⟨_, rfl⟩
  · exact ⟨d.out, rfl⟩

theorem batonSend_up {d : Dev} {port : Nat} (kind : Nat) (l : List Int) (h : batonUp d port = true) :
    batonSend d port kind l = emit d (.baton port kind l) := if_pos h

section
variable (d : Dev) (port kind : Nat) (l : List Int)
@[simp] theorem batonSend_regs : (batonSend d port kind l).regs = d.regs := by
  obtain ⟨o, h⟩ := batonSend_frame d port kind l; rw [h]
@[simp] theorem batonSend_snap : (batonSend d port kind l).snap = d.snap := by
  obtain ⟨o, h⟩ := batonSend_frame d port kind l; rw [h]
@[simp] theorem batonSend_stk : (batonSend d port kind l).stk = d.stk := by
  obtain ⟨o, h⟩ := batonSend_frame d port kind l; rw [h]
@[simp] theorem batonSend_ticks : (batonSend d port kind l).ticks = d.ticks := by
  obtain ⟨o, h⟩ := batonSend_frame d port kind l; rw [h]
@[simp] theorem tai_batonSend : tai (batonSend d port kind l) = tai d := by
  obtain ⟨o, h⟩ := batonSend_frame d port kind l; rw [h]; rfl
@[simp] theorem getR_batonSend (p : Nat) (f : Fld) : getR (batonSend d port kind l) p f = getR d p f :=
  getR_congr (batonSend_regs d port kind l) p f
end

/-- A message to a port that is UP is among the outputs of the device settled. -/
theorem mem_batonSend {d : Dev} {port : Nat} (kind : Nat) (l : List Int) (h : batonUp d port = true) :
    Output.baton port kind l ∈ (settle (batonSend d port kind l)).out := by
  rw [batonSend_up kind l h]; exact mem_settle_out (mem_emit _ _)

/-- The state of the Baton links stands on page BTN. -/
theorem batonUp_congr {d e : Dev} (h : ∀ f, fldAt f < 131072 → getR d pgBtn f = getR e pgBtn f) (port : Nat) :
    batonUp d port = batonUp e port := by
  unfold batonUp; rw [h]; split <;> decide

/-! ### Registers of page PKG that a Stocktake shows -/

/-- The word STOCKTAKE written: SYSTEM and RING_OUT. -/
def stkWord (d : Dev) (w : Nat) : Dev :=
  setR (setR d pgPkg F.PKG_STK_SYSTEM (bits w 1 1)) pgPkg F.PKG_STK_RING_OUT (bits w 2 1)

/-- Two devices that differ in registers of page PKG alone. -/
def OnPkg (d e : Dev) : Prop := ∃ r, e = { d with regs := r } ∧ ∀ p f, p ≠ pgPkg → fldAt f < 131072 → getR e p f = getR d p f

theorem OnPkg.refl (d : Dev) : OnPkg d d := ⟨d.regs, rfl, fun _ _ _ _ => rfl⟩

theorem OnPkg.setR {d e : Dev} (h : OnPkg d e) {f : Fld} (v : Nat) (hf : fldAt f < 131072) : OnPkg d (setR e pgPkg f v) := by
  obtain ⟨r, rfl, hr⟩ := h
  exact ⟨_, rfl, fun p g hp hg => (getR_setR_page _ _ hp.symm hf hg).trans (hr p g hp hg)⟩

theorem OnPkg.batonUp_eq {d e : Dev} (h : OnPkg d e) (port : Nat) : batonUp e port = batonUp d port :=
  batonUp_congr (fun f hf => by obtain ⟨r, -, hr⟩ := h; exact hr pgBtn f (by decide) hf) port

theorem OnPkg.isMaster_eq {d e : Dev} (h : OnPkg d e) : isMaster e = isMaster d := by
  obtain ⟨r, -, hr⟩ := h
  rw [isMaster, isMaster, flagR, flagR, hr pgTime _ (by decide) (by decide)]

theorem stkWord_onPkg (d : Dev) (w : Nat) : OnPkg d (stkWord d w) :=
  ((OnPkg.refl d).setR _ (by decide)).setR _ (by decide)

theorem stkShow_onPkg (d : Dev) : OnPkg d (stkShow d) := ((OnPkg.refl d).setR _ (by decide)).setR _ (by decide)

/-- REQ and PENDING follow whether a Stocktake is pending. -/
theorem stkShow_shows (d : Dev) :
    getR (stkShow d) pgPkg F.PKG_STK_REQ = b2n (!d.stk.isEmpty) ∧ getR (stkShow d) pgPkg F.PKG_STK_PENDING = b2n (!d.stk.isEmpty) := by
  have hb : b2n (!d.stk.isEmpty) % 2 ^ 1 = b2n (!d.stk.isEmpty) := by cases (!d.stk.isEmpty) <;> rfl
  refine ⟨?_, ?_⟩
  · rw [stkShow, getR_setR_fld _ _ _ (by decide), getR_setR_self]; exact hb
  · rw [stkShow, getR_setR_self]; exact hb

/-! ### Requests (R58, R59, R61) -/

theorem gives_stocktakeReq {s : State} (t v : Nat) (hs : Awake s) :
    Gives (.stocktakeReq t v) s (doStkReq t v s.dev) := gives_of_act rfl rfl hs

theorem doStkReq_idle (t : Nat) {v : Nat} (d : Dev) (h : bit v 0 = false) : doStkReq t v d = stkWord (advance d t) v := by
  simp only [doStkReq, h] <;> rfl

theorem doStkReq_joins (t : Nat) {v : Nat} {d : Dev} (h : bit v 0 = true) (hk : d.stk ≠ []) :
    doStkReq t v d = bump (stkWord (advance d t) v) pgPkg F.PKG_STK_MERGED := by
  have he : (stkWord (advance d t) v).stk.isEmpty = false := by simpa [stkWord] using hk
  simp only [doStkReq, h, if_true]
  exact if_pos (by rw [Bool.not_eq_true']; exact he)

section
variable {d : Dev} (hk : d.stk = [])
include hk

/-- A request with none pending begins a Stocktake: a local one, or a system one. -/
theorem doStkReq_begins (t : Nat) {v : Nat} (h : bit v 0 = true) :
    doStkReq t v d =
      (let e := stkWord (advance d t) v
       if bit v 1 then
         if isMaster d then stkMaster e (some e.ticks)
         else if batonUp d 0 then batonSend (stkBegin e ⟨some e.ticks, true, none, 0, [], false⟩) 0 0 []
         else stkFail e
       else stkBegin e ⟨some e.ticks, false, some (nextPacer e (usT 20)), (e.stkEpoch + 1) % 65536, [], false⟩) := by
  have he : (stkWord (advance d t) v).stk.isEmpty = true := by simp [stkWord, hk]
  have hm := (stkWord_onPkg (advance d t) v).isMaster_eq
  have hb := (stkWord_onPkg (advance d t) v).batonUp_eq 0
  unfold doStkReq
  rw [if_pos h]
  change (if (!(stkWord (advance d t) v).stk.isEmpty) = true then _ else if bit v 1 = true then
    if isMaster (stkWord (advance d t) v) = true then _ else if batonUp (stkWord (advance d t) v) 0 = true then _ else _ else _) = _
  rw [if_neg (by simp [he]), hm, hb]
  rfl

theorem doStkReq_local (t : Nat) :
    doStkReq t 1 d =
      (let e := stkWord (advance d t) 1
       stkBegin e ⟨some e.ticks, false, some (nextPacer e (usT 20)), (e.stkEpoch + 1) % 65536, [], false⟩) :=
  doStkReq_begins hk t rfl

theorem doStkReq_master (t : Nat) (hm : isMaster d = true) :
    doStkReq t 3 d = stkMaster (stkWord (advance d t) 3) (some (stkWord (advance d t) 3).ticks) := by
  rw [doStkReq_begins hk t rfl, hm]; rfl

theorem doStkReq_up (t : Nat) (hm : isMaster d = false) (hb : batonUp d 0 = true) :
    doStkReq t 3 d =
      batonSend (stkBegin (stkWord (advance d t) 3) ⟨some (stkWord (advance d t) 3).ticks, true, none, 0, [], false⟩) 0 0 [] := by
  rw [doStkReq_begins hk t rfl, hm, hb]; rfl

theorem doStkReq_fails (t : Nat) (hm : isMaster d = false) (hb : batonUp d 0 = false) :
    doStkReq t 3 d = stkFail (stkWord (advance d t) 3) := by
  rw [doStkReq_begins hk t rfl, hm, hb]; rfl

end

theorem stkBegin_shows (d : Dev) (k : StkSt) :
    getR (stkBegin d k) pgPkg F.PKG_STK_REQ = 1 ∧ getR (stkBegin d k) pgPkg F.PKG_STK_PENDING = 1 := by
  have h := stkShow_shows { d with stk := d.stk ++ [k] }
  have he : (d.stk ++ [k]).isEmpty = false := by simp
  rw [he] at h; exact h

@[simp] theorem stkBegin_stk (d : Dev) (k : StkSt) : (stkBegin d k).stk = d.stk ++ [k] := rfl
@[simp] theorem stkBegin_ticks (d : Dev) (k : StkSt) : (stkBegin d k).ticks = d.ticks := rfl
@[simp] theorem stkBegin_snap (d : Dev) (k : StkSt) : (stkBegin d k).snap = d.snap := rfl
@[simp] theorem tai_stkBegin (d : Dev) (k : StkSt) : tai (stkBegin d k) = tai d := rfl
@[simp] theorem stkWord_stk (d : Dev) (w : Nat) : (stkWord d w).stk = d.stk := rfl
@[simp] theorem stkWord_stkEpoch (d : Dev) (w : Nat) : (stkWord d w).stkEpoch = d.stkEpoch := rfl

theorem batonUp_stkBegin (d : Dev) (k : StkSt) (port : Nat) : batonUp (stkBegin d k) port = batonUp d port :=
  (stkShow_onPkg { d with stk := d.stk ++ [k] }).batonUp_eq port

/-- The Stocktake that the master begins: T at least 100 µs ahead, sent down where DOWN is UP. -/
theorem stkMaster_spec (d : Dev) (own : Option Nat) :
    ∃ x : Int, x % msU = 0 ∧ tai d + 655360 * 10000 ≤ x ∧
      stkMaster d own = batonSend (stkBegin d ⟨own, true, some x, (d.stkEpoch + 1) % 65536, [], false⟩) 1 1
        [x, ((d.stkEpoch + 1) % 65536 : Nat)] := by
  obtain ⟨h1, h2, -⟩ := nextPacer_spec d (usT 100)
  exact ⟨_, h1, h2, rfl⟩

/-- A system request fails: what a failure shows. -/
theorem stkFail_spec (d : Dev) (h : ∀ k ∈ d.stk, k.system = true) :
    (stkFail d).stk = [] ∧ getR (stkFail d) pgPkg F.PKG_SYS_FAILED = 1 ∧ getR (stkFail d) pgPkg F.PKG_STK_PENDING = 0 ∧
    (evtRaw (stkFail d) pgPkg).testBit 16 = true ∧ (stkFail d).snap = d.snap ∧ (stkFail d).stkEpoch = d.stkEpoch ∧
    (stkFail d).ticks = d.ticks := by
  have hnone : d.stk.filter (fun k => !k.system) = [] := List.filter_eq_nil_iff.2 (by simpa using h)
  refine ⟨hnone, ?_, ?_, raise_bit _ _ _, rfl, rfl, rfl⟩
  · simp only [stkFail, getR_raise, getR_setR_self]; rfl
  · simp only [stkFail, getR_raise]
    rw [getR_setR_fld _ _ _ (by decide), (stkShow_shows _).2, hnone]; rfl

/-! ### The instant (R58) -/

/-- Fields of the common header stand apart from all others. -/
theorem getR_setR_header (d : Dev) (p q : Nat) {f g : Fld} (v : Nat) (h1 : 2048 ≤ fldAt f) (h2 : fldAt f < 131072)
    (hg : fldAt g < 2048) : getR (setR d p f v) q g = getR d q g := by
  refine getR_setR_ne d v ?_
  rw [key_eq, key_eq]; omega

/-- What copying pages to their snapshot halves changes: snapshots, and EPOCH.STOCKTAKE of those pages. -/
def Snapped (ps : List Nat) (d e : Dev) : Prop :=
  (∃ r m l, e = { d with regs := r, snap := m, snapTaken := l }) ∧
  ∀ p f, fldAt f < 131072 → (fldAt f ≠ fldAt cSTOCKTAKE ∨ p ∉ ps) → getR e p f = getR d p f

theorem Snapped.refl (ps : List Nat) (d : Dev) : Snapped ps d d := ⟨⟨d.regs, d.snap, d.snapTaken, rfl⟩, fun _ _ _ _ => rfl⟩

theorem Snapped.trans (ps : List Nat) (a b c : Dev) : Snapped ps a b → Snapped ps b c → Snapped ps a c := by
  rintro ⟨⟨r, m, l, rfl⟩, h1⟩ ⟨⟨r', m', l', rfl⟩, h2⟩
  exact ⟨⟨r', m', l', rfl⟩, fun p f hf h => (h2 p f hf h).trans (h1 p f hf h)⟩

theorem snapPage_eq (e : Nat) (d : Dev) (p : Nat) :
    ∃ m l, snapPage e d p = setR { d with snap := m, snapTaken := l } p cSTOCKTAKE e := ⟨_, _, rfl⟩

theorem snapPage_snapped {ps : List Nat} (e : Nat) (d : Dev) {p : Nat} (hp : p ∈ ps) : Snapped ps d (snapPage e d p) := by
  obtain ⟨m, l, h⟩ := snapPage_eq e d p
  rw [h]
  refine ⟨⟨_, m, l, rfl⟩, fun q f hf hq => ?_⟩
  refine getR_setR_ne _ _ ?_
  rcases hq with hq | hq
  · rw [key_eq, key_eq]
    have : fldAt cSTOCKTAKE < 131072 := by decide
    omega
  · exact key_ne_page (fun h => hq (h ▸ hp)) (by decide) hf

theorem snapPages_snapped (e : Nat) (d : Dev) (ps : List Nat) : Snapped ps d (ps.foldl (snapPage e) d) :=
  foldl_rel (Snapped.refl ps) (Snapped.trans ps) (fun a _ hp => snapPage_snapped e a hp) d

/-- Every page copied shows the epoch. -/
theorem snapPages_shows (e : Nat) (d : Dev) {ps : List Nat} {p : Nat} (hp : p ∈ ps) :
    getR (ps.foldl (snapPage e) d) p cSTOCKTAKE = e % 65536 := by
  have hset (a : Dev) : getR (snapPage e a p) p cSTOCKTAKE = e % 65536 := by
    obtain ⟨m, l, h⟩ := snapPage_eq e a p
    rw [h, getR_setR_self]; rfl
  refine foldl_attains (I := fun _ => True) (P := fun a => getR a p cSTOCKTAKE = e % 65536) hp (fun _ _ _ _ => trivial)
    (fun a _ => hset a) (fun a q _ _ h => ?_) trivial
  by_cases hq : q = p
  · subst hq; exact hset a
  · rw [← h]
    exact (snapPage_snapped (ps := [q]) e a (by simp)).2 p cSTOCKTAKE (by decide) (Or.inr (by simpa using fun h => hq h.symm))

/-- A Stocktake that completes, where no other is pending. -/
theorem stkDone_spec (d : Dev) (k : StkSt) (h : d.stk = [k]) :
    (stkDone d k).stk = [] ∧ getR (stkDone d k) pgPkg F.PKG_STK_PENDING = 0 ∧
    getR (stkDone d k) pgPkg F.PKG_LAST_EPOCH = k.epoch % 65536 ∧ (evtRaw (stkDone d k) pgPkg).testBit 8 = true ∧
    (∃ r v, stkDone d k = { d with stk := [], regs := r, evt := v }) ∧
    (∀ p f, fldAt f < 2048 → getR (stkDone d k) p f = getR d p f) ∧
    (∀ f, (∀ g ∈ [F.PKG_STK_REQ, F.PKG_STK_PENDING, F.PKG_LAST_EPOCH, F.PKG_LAST_SYSTEM, F.PKG_SYS_FAILED], fldAt g ≠ fldAt f) →
      getR (stkDone d k) pgPkg f = getR d pgPkg f) := by
  have hnone : d.stk.filter (fun j => j.system != k.system) = [] := by simp [h]
  unfold stkDone
  rw [hnone]
  refine ⟨rfl, ?_, ?_, raise_bit _ _ _, ⟨_, _, rfl⟩, fun p f hf => ?_, fun f hf => ?_⟩
  · simp only [getR_raise]
    rw [getR_setR_fld _ _ _ (by decide), getR_setR_fld _ _ _ (by decide), getR_setR_fld _ _ _ (by decide), (stkShow_shows _).2]
    rfl
  · simp only [getR_raise]
    rw [getR_setR_fld _ _ _ (by decide), getR_setR_fld _ _ _ (by decide), getR_setR_self]
    rfl
  · simp only [getR_raise, stkShow]
    rw [getR_setR_header _ _ _ _ (by decide) (by decide) hf, getR_setR_header _ _ _ _ (by decide) (by decide) hf,
      getR_setR_header _ _ _ _ (by decide) (by decide) hf, getR_setR_header _ _ _ _ (by decide) (by decide) hf,
      getR_setR_header _ _ _ _ (by decide) (by decide) hf]
    rfl
  · simp only [List.mem_cons, List.not_mem_nil, or_false, forall_eq_or_imp, forall_eq] at hf
    obtain ⟨h1, h2, h3, h4, h5⟩ := hf
    simp only [getR_raise, stkShow]
    rw [getR_setR_fld _ _ _ h5, getR_setR_fld _ _ _ h4, getR_setR_fld _ _ _ h3, getR_setR_fld _ _ _ h2, getR_setR_fld _ _ _ h1]
    rfl

/-- The pages that a Stocktake copies: those outside fenced regions. -/
def openPages (d : Dev) : List Nat := allPages.filter (fun p => !pageFenced d p)

/-- The device after the copies of Stocktake `k` and before its end: its epoch, and the instant `x` shown. -/
def stkCopied (d : Dev) (k : StkSt) (x : Int) : Dev :=
  let e := (openPages d).foldl (snapPage k.epoch) d
  setR (setR { e with stkEpoch := k.epoch, svcSnap := if pageFenced e pgSvc then e.svcSnap else e.svcRec }
    pgPkg F.PKG_STK_TAI_S (taiSec x)) pgPkg F.PKG_STK_NS (taiNs x)

theorem stkCopied_spec (d : Dev) (k : StkSt) (x : Int) :
    (∃ r m l a, stkCopied d k x = { d with regs := r, snap := m, snapTaken := l, stkEpoch := k.epoch, svcSnap := a }) ∧
    getR (stkCopied d k x) pgPkg F.PKG_STK_RING_OUT = getR d pgPkg F.PKG_STK_RING_OUT ∧
    (∀ p ∈ openPages d, getR (stkCopied d k x) p cSTOCKTAKE = k.epoch % 65536) ∧
    (∀ p, p ∉ openPages d → getR (stkCopied d k x) p cSTOCKTAKE = getR d p cSTOCKTAKE) := by
  obtain ⟨⟨r, m, l, hf⟩, hkeep⟩ := snapPages_snapped k.epoch d (openPages d)
  have hhead (p : Nat) : getR (stkCopied d k x) p cSTOCKTAKE = getR ((openPages d).foldl (snapPage k.epoch) d) p cSTOCKTAKE := by
    simp only [stkCopied]
    rw [getR_setR_header _ _ _ _ (by decide) (by decide) (by decide), getR_setR_header _ _ _ _ (by decide) (by decide) (by decide)]
    rfl
  refine ⟨?_, ?_, fun p hp => ?_, fun p hp => ?_⟩
  · simp only [stkCopied]; rw [hf]; exact ⟨_, m, l, _, rfl⟩
  · simp only [stkCopied]
    rw [getR_setR_fld _ _ _ (by decide), getR_setR_fld _ _ _ (by decide)]
    exact hkeep _ _ (by decide) (Or.inl (by decide))
  · rw [hhead]; exact snapPages_shows k.epoch d hp
  · rw [hhead]; exact hkeep _ _ (by decide) (Or.inr hp)

/-- A local Stocktake without RING_OUT completes as soon as the pages are copied. -/
theorem stkTake_local {d : Dev} {k : StkSt} (x : Int) (hs : k.system = false) (hr : getR d pgPkg F.PKG_STK_RING_OUT = 0) :
    stkTake d k x = stkDone (stkCopied d k x) k := by
  have hring : flagR (stkCopied d k x) pgPkg F.PKG_STK_RING_OUT = false := by
    rw [flagR, (stkCopied_spec d k x).2.1, hr]; rfl
  have htake : stkTake d k x =
      (let e := onlyIf (flagR (stkCopied d k x) pgPkg F.PKG_STK_RING_OUT)
         (fun e => offerBytes e 27 (snapItem e k.system k.epoch x)) (stkCopied d k x)
       if k.system && isMaster e then { e with stk := e.stk.map (fun j => if j.system then { j with taken := true } else j) }
       else onlyIf k.system (fun e => batonSend e 0 2 [(pkgIndex e : Int)]) (stkDone e k)) := rfl
  rw [htake, hring, hs]
  rfl

theorem gives_stocktakeInstant {s : State} {k : StkSt} {x : Int} (t : Nat) (hk : s.dev.stk = [k]) (hn : k.taken = false)
    (hx : k.instant = some x) (hs : Awake s) :
    Gives (.stocktakeInstant t) s (stkTake (advance s.dev (max t (s.dev.ticks + ticksUntil s.dev x))) k x) := by
  refine (gives_of_act (f := doStkInstant t) rfl rfl hs).of_eq ?_
  simp [doStkInstant, hk, hn, hx]

/-! ### A system Stocktake (R61) -/

theorem gives_stocktakeForward {s : State} (t : Nat) (hs : Awake s) :
    Gives (.stocktakeForward t) s (doStkForward t s.dev) := gives_of_act rfl rfl hs

theorem gives_stocktakeTWord {s : State} {e : Nat} (t : Nat) (x : Int) (he : e < 65536) (hs : Awake s) :
    Gives (.stocktakeTWord t x e) s (doStkTWord t x e s.dev) := gives_of_act rfl (by simp [he]) hs

theorem gives_stocktakeConfirm {s : State} {i : Nat} (t : Nat) (hi : i < 8) (hs : Awake s) :
    Gives (.stocktakeConfirm t i) s (doStkConfirm t i s.dev) := gives_of_act rfl (by simp [hi]) hs

theorem gives_stocktakeMasterClose {s : State} (t : Nat) (hs : Awake s) :
    Gives (.stocktakeMasterClose t) s (doStkClose t s.dev) := gives_of_act rfl rfl hs

theorem gives_stocktakeSysTimeout {s : State} (t : Nat) (hs : Awake s) :
    Gives (.stocktakeSysTimeout t) s (doStkTimeout t s.dev) := gives_of_act rfl rfl hs

section
variable {d : Dev} (t : Nat)

theorem doStkForward_master (hb : batonUp d 1 = true) (hm : isMaster d = true) :
    doStkForward t d = if d.stk.isEmpty then stkMaster (advance d t) none else bump (advance d t) pgPkg F.PKG_STK_MERGED := by
  have hb' : batonUp (advance d t) 1 = true := hb
  have hm' : isMaster (advance d t) = true := hm
  simp only [doStkForward, hb', hm'] <;> rfl

theorem doStkForward_below (hb : batonUp d 1 = true) (hm : isMaster d = false) :
    doStkForward t d = batonSend (advance d t) 0 0 [] := by
  have hb' : batonUp (advance d t) 1 = true := hb
  have hm' : isMaster (advance d t) = false := hm
  simp only [doStkForward, hb', hm'] <;> rfl

/-- A T word from UP, passed down, and adopted where T is to come. -/
theorem doStkTWord_below (x : Int) (e : Nat) (hb : batonUp d 0 = true) (hm : isMaster d = false) :
    doStkTWord t x e d =
      (let a := batonSend (advance d t) 1 1 [x, (e : Int)]
       if x ≤ tai (advance d t) then a
       else stkBegin { a with stk := a.stk.filter (fun k => !k.system) }
         ⟨(a.stk.find? (·.system)).bind (·.reqAt), true, some x, e, [], false⟩) := by
  have hb' : batonUp (advance d t) 0 = true := hb
  have hm' : isMaster (advance d t) = false := hm
  simp only [doStkTWord, hb', hm', tai_batonSend] <;> rfl

theorem doStkConfirm_below (i : Nat) (hb : batonUp d 1 = true) (hm : isMaster d = false) :
    doStkConfirm t i d = batonSend (advance d t) 0 2 [(i : Int)] := by
  have hb' : batonUp (advance d t) 1 = true := hb
  have hm' : isMaster (advance d t) = false := hm
  simp only [doStkConfirm, hb', hm'] <;> rfl

/-- A confirmation that comes within 2 ms of T counts at the master. -/
theorem doStkConfirm_counts {k : StkSt} {x : Int} {i : Nat} (hb : batonUp d 1 = true) (hm : isMaster d = true) (hk : d.stk = [k])
    (hsys : k.system = true) (ht : k.taken = true) (hx : k.instant = some x) (hi : i ∉ k.confirms)
    (hlim : tai (advance d t) ≤ x + 2 * msU) :
    doStkConfirm t i d = { advance d t with stk := [{ k with confirms := k.confirms ++ [i] }] } := by
  have hb' : batonUp (advance d t) 1 = true := hb
  have hm' : isMaster (advance d t) = true := hm
  simp [doStkConfirm, hb', hm', hk, hsys, ht, hx, hi, hlim]

end

/-- The close of a system Stocktake at the master: ANSWERED and PARTIAL, and then its end. -/
theorem doStkClose_eq {d : Dev} {k : StkSt} {x : Int} (t : Nat) (hk : d.stk = [k]) (hsys : k.system = true) (ht : k.taken = true)
    (hx : k.instant = some x) :
    doStkClose t d =
      (let part := batonUp d 1 && d.baton.below.any (fun i => !k.confirms.contains i)
       onlyIf part (fun e => raise e pgPkg 9)
         (stkDone (setR (setR (advance d (max t (d.ticks + ticksUntil d (x + 2 * msU)))) pgPkg F.PKG_ANSWERED
           (1 + k.confirms.length)) pgPkg F.PKG_PARTIAL (b2n part)) k)) := by
  simp only [doStkClose, hk, hx, List.find?_cons, hsys, ht, Bool.and_self] <;> rfl

/-- PARTIAL raises its event besides. -/
theorem onlyIf_raise_cases (c : Bool) (d : Dev) (p b : Nat) :
    ∃ v, onlyIf c (fun e => raise e p b) d = { d with evt := v } ∧
      ∀ q i, (evtRaw d q).testBit i = true → (evtRaw (onlyIf c (fun e => raise e p b) d) q).testBit i = true := by
  cases c
  · exact ⟨d.evt, rfl, fun _ _ h => h⟩
  · exact ⟨_, rfl, fun q i h => raise_mono d p b q i h⟩

theorem doStkClose_spec {d : Dev} {k : StkSt} {x : Int} (t : Nat) (hk : d.stk = [k]) (hsys : k.system = true) (ht : k.taken = true)
    (hx : k.instant = some x) (hlen : k.confirms.length < 8) :
    getR (doStkClose t d) pgPkg F.PKG_ANSWERED = 1 + k.confirms.length ∧ (doStkClose t d).stk = [] ∧
    x + 2 * msU ≤ tai (doStkClose t d) ∧ (evtRaw (doStkClose t d) pgPkg).testBit 8 = true ∧
    getR (doStkClose t d) pgPkg F.PKG_PARTIAL = b2n (batonUp d 1 && d.baton.below.any (fun i => !k.confirms.contains i)) := by
  rw [doStkClose_eq t hk hsys ht hx]
  dsimp only
  generalize (batonUp d 1 && d.baton.below.any (fun i => !k.confirms.contains i)) = part
  have htai := le_tai_ticksUntil d t (x + 2 * msU)
  generalize max t (d.ticks + ticksUntil d (x + 2 * msU)) = u at htai
  obtain ⟨hstk, -, -, hevt, ⟨r, v, hframe⟩, -, hother⟩ := stkDone_spec
    (setR (setR (advance d u) pgPkg F.PKG_ANSWERED (1 + k.confirms.length)) pgPkg F.PKG_PARTIAL (b2n part)) k hk
  obtain ⟨v', hv', hmono⟩ := onlyIf_raise_cases part
    (stkDone (setR (setR (advance d u) pgPkg F.PKG_ANSWERED (1 + k.confirms.length)) pgPkg F.PKG_PARTIAL (b2n part)) k) pgPkg 9
  have hregs (f : Fld) := (getR_congr (congrArg Dev.regs hv') pgPkg f)
  refine ⟨?_, ?_, ?_, hmono _ _ hevt, ?_⟩
  · rw [hregs]
    refine (hother F.PKG_ANSWERED (by decide)).trans ?_
    rw [getR_setR_fld _ _ _ (by decide), getR_setR_self]
    exact Nat.mod_eq_of_lt (by simp [F.PKG_ANSWERED]; omega)
  · rw [hv']; exact hstk
  · rw [hv', hframe]; exact htai
  · rw [hregs]
    refine (hother F.PKG_PARTIAL (by decide)).trans ?_
    rw [getR_setR_self]
    cases part <;> rfl

end Sys2Proof.Machine

open Sys2Proof Sys2Proof.Machine

/-- Settles O11: the requests, the instant, and the five commands of a system Stocktake, branch by branch. -/
theorem stocktakesRunFromRequestToEnd : Obligations.StocktakesRunFromRequestToEnd := by
  unfold Obligations.StocktakesRunFromRequestToEnd
  refine ⟨fun s t hs => ⟨?_, ?_, ?_, ?_, ?_, ?_⟩, fun s t hs => ⟨?_, ?_, ?_, ?_, ?_, ?_, ?_, ?_, ?_, ?_⟩⟩
  · intro hk
    obtain ⟨h1, h2, h3⟩ := nextPacer_spec (stkWord (advance s.dev t) 1) (usT 20)
    refine does_of_gives ((gives_stocktakeReq t 1 hs).of_eq (doStkReq_local hk t)) ⟨_, ?_, h1, ?_, ?_, ?_, ?_, ?_, ?_, ?_⟩
    · simp [hk]
    · rw [tai_settle]; exact h2
    · rw [tai_settle]; exact h3
    · rw [getR_settle]; exact (stkBegin_shows _ _).1
    · rw [getR_settle]; exact (stkBegin_shows _ _).2
    · rw [settle_snap]; rfl
    · rw [settle_stkEpoch]; rfl
    · rw [settle_mem]; rfl
  · intro hk
    refine does_of_gives ((gives_stocktakeReq t 1 hs).of_eq (doStkReq_joins t rfl hk)) ⟨?_, ?_, ?_, ?_⟩
    · rw [settle_stk, bump, addC_eq]; rfl
    · rw [settle_snap, bump, addC_eq]; rfl
    · rw [settle_evt, bump, addC_eq]; rfl
    · rw [getR_settle, bump, getR_addC_narrow _ _ _ (by decide), stkWord, getR_setR_fld _ _ _ (by decide),
        getR_setR_fld _ _ _ (by decide)]
      rfl
  · intro hk hm hb
    obtain ⟨h1, h2, h3, h4, h5, h6, -⟩ := stkFail_spec (stkWord (advance s.dev t) 3) (by simp [stkWord, hk])
    refine does_of_gives ((gives_stocktakeReq t 3 hs).of_eq (doStkReq_fails hk t hm hb)) ?_
    simp only [settle_stk, getR_settle, evtRaw_settle, settle_snap, settle_stkEpoch]
    exact ⟨h1, h2, h3, h4, h5, h6⟩
  · intro hk hm
    obtain ⟨x, h1, h2, hx⟩ := stkMaster_spec (stkWord (advance s.dev t) 3) (some (stkWord (advance s.dev t) 3).ticks)
    refine does_of_gives ((gives_stocktakeReq t 3 hs).of_eq ((doStkReq_master hk t hm).trans hx)) ⟨x, ?_, h1, ?_, ?_, ?_⟩
    · simp [hk]
    · simpa using h2
    · rw [getR_settle, getR_batonSend]; exact (stkBegin_shows _ _).2
    · simp [stkWord]
  · intro hk hm hb
    have hup : batonUp (stkBegin (stkWord (advance s.dev t) 3) ⟨some (stkWord (advance s.dev t) 3).ticks, true, none, 0, [], false⟩) 0 =
        true := by rw [batonUp_stkBegin, (stkWord_onPkg _ _).batonUp_eq]; exact hb
    refine does_of_gives ((gives_stocktakeReq t 3 hs).of_eq (doStkReq_up hk t hm hb)) ⟨?_, mem_batonSend 0 [] hup, ?_, ?_⟩
    · simp [hk]
    · rw [getR_settle, getR_batonSend]; exact (stkBegin_shows _ _).2
    · simp [stkWord]
  · intro w hw
    exact (gives_stocktakeReq t w hs).of_eq (doStkReq_idle t s.dev hw)
  · intro k x hk hsys ht hx hr
    have hg := gives_stocktakeInstant t hk ht hx hs
    generalize hu : max t (s.dev.ticks + ticksUntil s.dev x) = u at hg
    obtain ⟨⟨r, m, l, a, hframe⟩, -, hopen, hfenced⟩ := stkCopied_spec (advance s.dev u) k x
    obtain ⟨h1, h2, h3, h4, ⟨r', v, h5⟩, h6, -⟩ := stkDone_spec (stkCopied (advance s.dev u) k x) k (by rw [hframe]; exact hk)
    refine does_of_gives (hg.of_eq (stkTake_local x hsys hr)) ⟨?_, ?_, ?_, ?_, ?_, ?_, ?_, ?_⟩
    · rw [settle_stkEpoch, h5, hframe]
    · rw [settle_stk]; exact h1
    · rw [getR_settle]; exact h2
    · rw [getR_settle]; exact h3
    · rw [evtRaw_settle]; exact h4
    · intro p hp hf
      rw [getR_settle, h6 _ _ (by decide)]
      exact hopen p (List.mem_filter.2 ⟨hp, by rw [show pageFenced (advance s.dev u) p = false from hf]; rfl⟩)
    · intro p _ hf
      rw [getR_settle, h6 _ _ (by decide)]
      exact hfenced p fun hmem => by
        have hno := (List.mem_filter.1 hmem).2
        rw [show pageFenced (advance s.dev u) p = true from hf] at hno
        cases hno
    · rw [settle_mem, h5, hframe]; rfl
  · intro hk hm hb
    obtain ⟨x, h1, h2, hx⟩ := stkMaster_spec (advance s.dev t) none
    have hup : batonUp (stkBegin (advance s.dev t) ⟨none, true, some x, ((advance s.dev t).stkEpoch + 1) % 65536, [], false⟩) 1 = true := by
      rw [batonUp_stkBegin]; exact hb
    refine does_of_gives ((gives_stocktakeForward t hs).of_eq
      (((doStkForward_master t hb hm).trans (if_pos (by rw [hk]; rfl))).trans hx)) ⟨x, ?_, h1, ?_, mem_batonSend 1 _ hup⟩
    · simp [hk]
    · simpa using h2
  · intro x e he hm hb hlt hk
    refine does_of_gives ((gives_stocktakeTWord t x he hs).of_eq
      ((doStkTWord_below t x e hb hm).trans (if_neg (not_le.2 hlt)))) ⟨?_, ?_⟩
    · simp [hk]
    · simp
  · intro hk hm hb
    exact (gives_stocktakeForward t hs).of_eq ((doStkForward_master t hb hm).trans (if_neg (by simpa using hk)))
  · intro hm hb
    exact (gives_stocktakeForward t hs).of_eq (doStkForward_below t hb hm)
  · intro x e he hm hb hle
    exact (gives_stocktakeTWord t x he hs).of_eq ((doStkTWord_below t x e hb hm).trans (if_pos hle))
  · intro i hi hm hb
    exact (gives_stocktakeConfirm t hi hs).of_eq (doStkConfirm_below t i hb hm)
  · intro k x i hi hk hsys ht hx hnot hm hb hlim
    refine does_of_gives ((gives_stocktakeConfirm t hi hs).of_eq (doStkConfirm_counts t hb hm hk hsys ht hx hnot hlim)) ⟨?_, ?_⟩
    · rw [settle_stk]
    · rw [settle_regs]; rfl
  · intro k x hk hsys ht hx hlen
    refine does_of_gives (gives_stocktakeMasterClose t hs) ?_
    simp only [getR_settle, settle_stk, tai_settle, evtRaw_settle]
    exact doStkClose_spec t hk hsys ht hx hlen
  · intro k q hk hsys hx hq
    have hclose : doStkTimeout t s.dev = stkFail (advance s.dev (max t (q + msT 10))) := by
      simp [doStkTimeout, hk, hsys, hx, hq]
    obtain ⟨h1, h2, -, h4, h5, h6, h7⟩ := stkFail_spec (advance s.dev (max t (q + msT 10))) (by simp [hk, hsys])
    refine does_of_gives ((gives_stocktakeSysTimeout t hs).of_eq hclose) ?_
    simp only [settle_stk, getR_settle, evtRaw_settle, settle_snap, settle_stkEpoch, settle_ticks]
    exact ⟨h1, by rw [h7, advance_ticks, msT]; omega, h2, h4, h5, h6⟩

end

section
/-! PROOFS. Commits (R29, R49, R80, R81, R84, R85): what STATUS shows of them, the plan check on the staged plan, requests
in time and late, captures, and the commits that apply at once. -/

namespace Sys2Proof.Machine

open Sys2Proof

/-! ## The shot clock of a line and what STATUS shows -/

@[simp] theorem line_setLine_self (d : Dev) (n : Nat) (x : LineSt) : line (setLine d n x) n = x := by
  simp [line, setLine]

@[simp] theorem line_advance (d : Dev) (t n : Nat) : line (advance d t) n = line d n := rfl

@[simp] theorem line_settle (d : Dev) (n : Nat) : line (settle d) n = line d n := by simp [line]

@[simp] theorem setLine_epochs (d : Dev) (n : Nat) (x : LineSt) : (setLine d n x).epochs = d.epochs := rfl
@[simp] theorem setLine_evt (d : Dev) (n : Nat) (x : LineSt) : (setLine d n x).evt = d.evt := rfl
@[simp] theorem setLine_mem (d : Dev) (n : Nat) (x : LineSt) : (setLine d n x).mem = d.mem := rfl
@[simp] theorem setLine_ticks (d : Dev) (n : Nat) (x : LineSt) : (setLine d n x).ticks = d.ticks := rfl
@[simp] theorem checkShow_epochs (d : Dev) (n : Nat) : (checkShow d n).epochs = d.epochs := rfl
@[simp] theorem checkShow_mem (d : Dev) (n : Nat) : (checkShow d n).mem = d.mem := rfl
@[simp] theorem checkShow_ticks (d : Dev) (n : Nat) : (checkShow d n).ticks = d.ticks := rfl

@[simp] theorem line_commitShow (d : Dev) (m n : Nat) : line (commitShow d m) n = line d n := rfl
@[simp] theorem commitShow_epochs (d : Dev) (n : Nat) : (commitShow d n).epochs = d.epochs := rfl
@[simp] theorem commitShow_evt (d : Dev) (n : Nat) : (commitShow d n).evt = d.evt := rfl
@[simp] theorem commitShow_mem (d : Dev) (n : Nat) : (commitShow d n).mem = d.mem := rfl
@[simp] theorem commitShow_committed (d : Dev) (n : Nat) : (commitShow d n).committed = d.committed := rfl
@[simp] theorem commitShow_ticks (d : Dev) (n : Nat) : (commitShow d n).ticks = d.ticks := rfl

/-- STATUS alone shows a commit. -/
theorem regsBut_commitShow (d : Dev) (n : Nat) :
    RegsBut [(pgLine n, cBUSY), (pgLine n, F.LINE_PLAN_PENDING), (pgLine n, F.LINE_SHOT_PENDING)] (commitShow d n) d := by
  intro p f h
  unfold commitShow
  exact (getR_setR_ne _ _ (h (pgLine n, F.LINE_SHOT_PENDING) (.tail _ (.tail _ (.head _))))).trans
    ((getR_setR_ne _ _ (h (pgLine n, F.LINE_PLAN_PENDING) (.tail _ (.head _)))).trans (getR_setR_ne _ _ (h (pgLine n, cBUSY) (.head _))))

/-- BUSY shows a commit that waits or is captured. -/
theorem getR_commitShow_busy (d : Dev) (n : Nat) :
    getR (commitShow d n) (pgLine n) cBUSY =
      b2n ((line d n).plan.isSome || (line d n).shot.isSome || (line d n).cap.isSome || (line d n).capShot.isSome) := by
  unfold commitShow
  refine (getR_setR_fld _ _ _ (by decide)).trans ((getR_setR_fld _ _ _ (by decide)).trans ((getR_setR_self _ _ _ _).trans ?_))
  generalize (_ || _ : Bool) = b
  cases b <;> rfl

theorem getR_commitShow_reason (d : Dev) (n : Nat) :
    getR (commitShow d n) (pgLine n) F.LINE_REASON = getR d (pgLine n) F.LINE_REASON :=
  (getR_setR_fld _ _ _ (by decide)).trans ((getR_setR_fld _ _ _ (by decide)).trans (getR_setR_fld _ _ _ (by decide)))

/-! ## An event raised on every page of a region -/

/-- Raising an event on the pages of a region changes EVT_RAW alone, and sets the bit on each of them. -/
theorem raiseRegion_frame (d : Dev) (r b : Nat) : ∃ v, raiseRegion d r b = { d with evt := v } :=
  foldl_rel (R := fun d e => ∃ v, e = { d with evt := v }) (fun d => ⟨d.evt, rfl⟩)
    (by rintro a _ _ ⟨v, rfl⟩ ⟨w, rfl⟩; exact ⟨w, rfl⟩) (fun d p _ => ⟨_, rfl⟩) d

theorem raiseRegion_bit (d : Dev) {r b p : Nat} (hp : p ∈ regionPages r) :
    (evtRaw (raiseRegion d r b) p).testBit b = true :=
  foldl_attains (I := fun _ => True) (P := fun d => (evtRaw d p).testBit b = true) hp (fun _ _ _ _ => trivial)
    (fun d _ => raise_bit d p b) (fun d q _ _ h => raise_mono d q b p b h) trivial

/-! ## The pages of a line region and their staged fields -/

theorem regionOf_of_mem_linePages : ∀ n < 12, ∀ p ∈ linePages n, regionOf p = some n := by decide +kernel
theorem kindOf_of_mem_linePages : ∀ n < 12, ∀ p ∈ linePages n, kindOf p ≠ some .paceTbl := by decide +kernel
theorem pgLine_mem_linePages : ∀ n < 12, pgLine n ∈ linePages n := by decide +kernel

/-- Every staged field but those of the pace table stands at the offsets 0x040 to 0x3FC. -/
theorem staged_place (k : PageKind) (hk : k ≠ .paceTbl) :
    ∀ r ∈ rowsOf k, r.acc = .st → ∀ f ∈ rowPlaces r, 2048 ≤ fldAt f ∧ fldAt f < 32768 := by
  cases k with
  | paceTbl => exact absurd rfl hk
  | _ => decide +kernel

theorem staged_place_of_line {n : Nat} (hn : n < 12) {e : Nat × Fld × Bool} (he : e ∈ stagedFields n) :
    2048 ≤ fldAt e.2.1 ∧ fldAt e.2.1 < 32768 := by
  obtain ⟨p, hp, he⟩ := List.mem_flatMap.1 he
  rw [regionPages, if_pos hn] at hp
  have hkind := kindOf_of_mem_linePages n hn p hp
  unfold stagedOf at he
  split at he
  case h_1 => cases he
  case h_2 k hk =>
    obtain ⟨r, hr, he⟩ := List.mem_flatMap.1 he
    obtain ⟨f, hf, rfl⟩ := List.mem_map.1 he
    obtain ⟨hrow, hst⟩ := List.mem_filter.1 hr
    exact staged_place k (fun h => hkind (hk.trans (congrArg some h))) r hrow (by simpa using hst) f hf

/-! ## The verdict on the staged plan, shown -/

/-- The plan check looks at no tick. -/
theorem planCheck_advance (d : Dev) (t n : Nat) : planCheck (advance d t) .staged n = planCheck d .staged n := rfl

/-- The verdict shown changes four register fields. -/
theorem checkShow_frame (d : Dev) (n : Nat) : ∃ r, checkShow d n = { d with regs := r } := ⟨_, rfl⟩

theorem getR_checkShow_reason (d : Dev) (n : Nat) :
    getR (checkShow d n) (pgLine n) F.LINE_REASON = (planCheck d .staged n).1 % 256 := by
  unfold checkShow
  exact (getR_setR_fld _ _ _ (by decide)).trans ((getR_setR_fld _ _ _ (by decide)).trans
    ((getR_setR_fld _ _ _ (by decide)).trans (getR_setR_self _ _ _ _)))

/-- No staged field is among those that show the verdict. -/
theorem getR_checkShow_staged (d : Dev) {n : Nat} (hn : n < 12) {e : Nat × Fld × Bool} (he : e ∈ stagedFields n) :
    getR (checkShow d n) e.1 e.2.1 = getR d e.1 e.2.1 := by
  obtain ⟨hlo, hhi⟩ := staged_place_of_line hn he
  have hne {f : Fld} (hf : fldAt f < 2048 ∨ 32768 ≤ fldAt f ∧ fldAt f < 131072) : key (pgLine n) f ≠ key e.1 e.2.1 := by
    rw [key_eq, key_eq]; omega
  unfold checkShow
  exact (getR_setR_ne _ _ (hne (by decide))).trans ((getR_setR_ne _ _ (hne (by decide))).trans
    ((getR_setR_ne _ _ (hne (by decide))).trans (getR_setR_ne _ _ (hne (by decide)))))

/-- Whether the staged plan differs from the committed one depends on the staged fields and the committed values alone. -/
theorem planDiffers_congr {d e : Dev} {n : Nat} (hc : d.committed = e.committed)
    (h : ∀ x ∈ stagedFields n, getR d x.1 x.2.1 = getR e x.1 x.2.1) : planDiffers d n = planDiffers e n := by
  rw [Bool.eq_iff_iff, planDiffers, planDiffers, List.any_eq_true, List.any_eq_true]
  exact exists_congr fun x => and_congr_right fun hx => by rw [h x hx, planVal, planVal, hc]

theorem planDiffers_checkShow (d : Dev) {n : Nat} (hn : n < 12) : planDiffers (checkShow d n) n = planDiffers d n :=
  planDiffers_congr rfl fun _ hx => getR_checkShow_staged d hn hx

/-! ## Wakes leave what a commit holds alone -/

/-- `e` is `d` but for its clusters, stale units, events, Pacer and output. -/
def Woken (d e : Dev) : Prop :=
  ∃ cl us ev pc o, e = { d with clusters := cl, unitStale := us, evt := ev, pacer := pc, out := o }

theorem Woken.refl (d : Dev) : Woken d d := ⟨_, _, _, _, _, rfl⟩

theorem Woken.trans (a b c : Dev) (hab : Woken a b) (hbc : Woken b c) : Woken a c := by
  obtain ⟨_, _, _, _, _, rfl⟩ := hab
  obtain ⟨_, _, _, _, _, rfl⟩ := hbc
  exact ⟨_, _, _, _, _, rfl⟩

theorem woken_avsHold (d : Dev) (k : Nat) : Woken d (avsHold d k) := by
  unfold avsHold avsPut
  split
  · exact .refl d
  · exact Woken.trans _ _ _ ⟨_, _, _, _, _, rfl⟩ (onlyIf_rel Woken.refl _ _ ⟨_, _, _, _, _, rfl⟩)

theorem StalesMore.woken {d e : Dev} (h : StalesMore d e) : Woken d e := by
  obtain ⟨⟨_, _, rfl⟩, -⟩ := h
  exact ⟨_, _, _, _, _, rfl⟩

theorem woken_wakeCluster (d : Dev) (n c : Nat) : Woken d (wakeCluster d n c) := by
  unfold wakeCluster
  dsimp only
  split
  · exact .refl d
  · refine Woken.trans _ _ _ ?_ (stalePages_more _ _).woken
    exact Woken.trans _ _ _ ⟨_, _, _, _, _, rfl⟩ (onlyIf_rel Woken.refl _ _ (woken_avsHold _ _))

theorem woken_wakeAll (d : Dev) (l : List (Nat × Nat)) : Woken d (wakeAll d l) :=
  foldl_rel Woken.refl Woken.trans (fun d e _ => woken_wakeCluster d e.1 e.2) d

/-! ## Requests in time and late (R80, R81) -/

section
variable {d : Dev} {n : Nat}

theorem requestLate_inTime (shot : Bool) (h : ∀ e, (line d n).next = some e → d.ticks + 200 ≤ e) :
    requestLate d n shot = d := by
  unfold requestLate
  dsimp only
  split
  · rfl
  · next e he => exact if_pos (h e he)

/-- A request that comes too late is late at once: every page of the line raises COMMIT_LATE. -/
def askLate (d : Dev) (n : Nat) (x : LineSt) : Dev := raiseRegion (setLine d n x) n 3

theorem askLate_frame (d : Dev) (n : Nat) (x : LineSt) : ∃ v, askLate d n x = { setLine d n x with evt := v } :=
  raiseRegion_frame _ n 3

@[simp] theorem line_askLate (d : Dev) (n : Nat) (x : LineSt) : line (askLate d n x) n = x := by
  obtain ⟨v, h⟩ := askLate_frame d n x
  rw [h]; exact line_setLine_self d n x

@[simp] theorem askLate_epochs (d : Dev) (n : Nat) (x : LineSt) : (askLate d n x).epochs = d.epochs := by
  obtain ⟨v, h⟩ := askLate_frame d n x
  rw [h]; rfl

@[simp] theorem askLate_mem (d : Dev) (n : Nat) (x : LineSt) : (askLate d n x).mem = d.mem := by
  obtain ⟨v, h⟩ := askLate_frame d n x
  rw [h]; rfl

theorem requestLate_shot {e : Nat} {q : PendC} (he : (line d n).next = some e) (hlt : e < d.ticks + 200)
    (hq : (line d n).shot = some q) (hl : q.late = false) :
    requestLate d n true = askLate d n { line d n with shot := some { q with late := true } } := by
  simp [requestLate, he, hlt, lateShot, hq, hl, lateEvent, askLate]

theorem requestLate_plan {e : Nat} {q : PendC} (he : (line d n).next = some e) (hlt : e < d.ticks + 200)
    (hq : (line d n).plan = some q) (hl : q.late = false) (hd : planDiffers d n = false) :
    requestLate d n false = askLate d n { line d n with plan := some { q with late := true } } := by
  simp [requestLate, he, hlt, latePlan, hq, hl, lateEvent, hd, askLate]

/-- COMMIT_SHOT requested on line `n` now. -/
def askShot (d : Dev) (n : Nat) : Dev := setLine d n { line d n with shot := some ⟨d.ticks, false⟩ }

/-- COMMIT requested on line `n` now, its verdict shown. -/
def askPlan (d : Dev) (n : Nat) : Dev := setLine (checkShow d n) n { line d n with plan := some ⟨d.ticks, false⟩ }

@[simp] theorem line_askShot (d : Dev) (n : Nat) : line (askShot d n) n = { line d n with shot := some ⟨d.ticks, false⟩ } :=
  line_setLine_self _ _ _

@[simp] theorem line_askPlan (d : Dev) (n : Nat) : line (askPlan d n) n = { line d n with plan := some ⟨d.ticks, false⟩ } :=
  line_setLine_self _ _ _

@[simp] theorem askShot_ticks (d : Dev) (n : Nat) : (askShot d n).ticks = d.ticks := rfl
@[simp] theorem askPlan_ticks (d : Dev) (n : Nat) : (askPlan d n).ticks = d.ticks := rfl

theorem commitShot_waits (h : (line d n).shot = none) :
    commitShot d n = commitShow (requestLate (askShot d n) n true) n := by
  simp [commitShot, h, askShot]

theorem commitShot_inTime (h : (line d n).shot = none) (hin : ∀ e, (line d n).next = some e → d.ticks + 200 ≤ e) :
    commitShot d n = commitShow (askShot d n) n := by
  rw [commitShot_waits h, requestLate_inTime true (by simpa using hin)]

theorem commitShot_late {e : Nat} (h : (line d n).shot = none) (he : (line d n).next = some e) (hlt : e < d.ticks + 200) :
    commitShot d n = commitShow (askLate (askShot d n) n { line d n with shot := some ⟨d.ticks, true⟩ }) n := by
  rw [commitShot_waits h, requestLate_shot (d := askShot d n) (q := ⟨d.ticks, false⟩) (by simpa using he) hlt (by simp) rfl, line_askShot]

theorem commitShot_joins (h : (line d n).shot ≠ none) : commitShot d n = d :=
  if_pos (Option.isSome_iff_ne_none.2 h)

theorem commitLine_rejects (h : (planCheck d .staged n).1 ≠ 0) (hlt : (planCheck d .staged n).1 < 256) :
    commitLine d n = reject (checkShow d n) n := by
  have hr : getR (checkShow d n) (pgLine n) F.LINE_REASON ≠ 0 := by
    rw [getR_checkShow_reason, Nat.mod_eq_of_lt hlt]; exact h
  exact if_pos hr

theorem commitLine_joins (h : (planCheck d .staged n).1 = 0) (hp : (line d n).plan ≠ none) : commitLine d n = checkShow d n := by
  have hr : ¬ getR (checkShow d n) (pgLine n) F.LINE_REASON ≠ 0 := by rw [getR_checkShow_reason, h]; simp
  exact (if_neg hr).trans (if_pos (Option.isSome_iff_ne_none.2 hp))

/-- The same, with the clusters woken that the staged plan needs, where it differs from the plan of a line that runs. -/
def askPlanWake (d : Dev) (n : Nat) : Dev :=
  onlyIf (lineOn (askPlan d n) n && (line d n).base != 6 && planDiffers (askPlan d n) n)
    (fun d => wakeAll d (neededBy d n .staged (ovNow d n))) (askPlan d n)

theorem woken_askPlanWake : Woken (askPlan d n) (askPlanWake d n) := onlyIf_rel Woken.refl _ _ (woken_wakeAll _ _)

theorem askPlanWake_of_same (h : planDiffers (askPlan d n) n = false) : askPlanWake d n = askPlan d n := by
  rw [askPlanWake, h, Bool.and_false]; rfl

theorem planDiffers_askPlan (hn : n < 12) : planDiffers (askPlan d n) n = planDiffers d n :=
  (planDiffers_congr rfl fun _ _ => rfl).trans (planDiffers_checkShow d hn)

@[simp] theorem line_askPlanWake (d : Dev) (n : Nat) :
    line (askPlanWake d n) n = { line d n with plan := some ⟨d.ticks, false⟩ } := by
  obtain ⟨cl, us, ev, pc, o, h⟩ := woken_askPlanWake (d := d) (n := n)
  rw [h]; exact line_askPlan d n

@[simp] theorem askPlanWake_ticks (d : Dev) (n : Nat) : (askPlanWake d n).ticks = d.ticks := by
  obtain ⟨cl, us, ev, pc, o, h⟩ := woken_askPlanWake (d := d) (n := n)
  rw [h]; rfl

theorem commitLine_waits (h : (planCheck d .staged n).1 = 0) (hp : (line d n).plan = none) :
    commitLine d n = commitShow (requestLate (askPlanWake d n) n false) n := by
  have hr : ¬ getR (checkShow d n) (pgLine n) F.LINE_REASON ≠ 0 := by rw [getR_checkShow_reason, h]; simp
  have hn : ¬ (line (checkShow d n) n).plan.isSome := by rw [show line (checkShow d n) n = line d n from rfl, hp]; simp
  exact (if_neg hr).trans (if_neg hn)

theorem commitLine_inTime (h : (planCheck d .staged n).1 = 0) (hp : (line d n).plan = none)
    (hin : ∀ e, (line d n).next = some e → d.ticks + 200 ≤ e) : commitLine d n = commitShow (askPlanWake d n) n := by
  rw [commitLine_waits h hp, requestLate_inTime false (by simpa using hin)]

theorem commitLine_late {e : Nat} (hn : n < 12) (h : (planCheck d .staged n).1 = 0) (hp : (line d n).plan = none)
    (hd : planDiffers d n = false) (he : (line d n).next = some e) (hlt : e < d.ticks + 200) :
    commitLine d n = commitShow (askLate (askPlan d n) n { line d n with plan := some ⟨d.ticks, true⟩ }) n := by
  have hsame := (planDiffers_askPlan (d := d) hn).trans hd
  rw [commitLine_waits h hp, askPlanWake_of_same hsame,
    requestLate_plan (d := askPlan d n) (q := ⟨d.ticks, false⟩) (by simpa using he) hlt (by simp) rfl hsame, line_askPlan]

end

/-! ## Captures (R49, R80) -/

section
variable {d : Dev} {n e : Nat} {q : PendC}

/-- The capture instant of slot-0 instant `e` is taken: line `n` notes it, with the overrides of a plan boundary. -/
def captureOpen (d : Dev) (n e : Nat) : Dev :=
  setLine d n { line d n with
    capFor := some e, ovCap := if isBoundary d n (line d n).nextNo then some (ovNow d n) else none }

theorem capture_opens (h : (line d n).capFor ≠ some e) :
    capture d n e = commitShow (captureCommit (captureShot (captureOpen d n e) n e) n e) n := if_neg h

/-- A COMMIT_SHOT that waits is captured with every staged value of the moment. -/
theorem capture_shot (h : (line d n).capFor ≠ some e) (hp : (line d n).plan = none) (hq : (line d n).shot = some q)
    (hle : q.reqAt + 200 ≤ e) :
    capture d n e = commitShow (setLine (captureOpen d n e) n
      { line (captureOpen d n e) n with shot := none, capShot := some ⟨true, q.late, captureNow d n⟩ }) n := by
  have hshot : captureShot (captureOpen d n e) n e = setLine (captureOpen d n e) n
      { line (captureOpen d n e) n with shot := none, capShot := some ⟨true, q.late, captureNow d n⟩ } := by
    simp only [captureShot, captureOpen, line_setLine_self, hq, if_pos hle] <;> rfl
  rw [capture_opens h, hshot]
  simp [captureCommit, captureOpen, hp]

/-- So is a COMMIT without a plan change. -/
theorem capture_plan_same (h : (line d n).capFor ≠ some e) (hs : (line d n).shot = none) (hq : (line d n).plan = some q)
    (hle : q.reqAt + 200 ≤ e) (hd : planDiffers d n = false) :
    capture d n e = commitShow (setLine (captureOpen d n e) n
      { line (captureOpen d n e) n with plan := none, cap := some ⟨true, q.late, captureNow d n⟩ }) n := by
  have hshot : captureShot (captureOpen d n e) n e = captureOpen d n e := by simp [captureShot, captureOpen, hs]
  have hsame : planDiffers (captureOpen d n e) n = false := hd
  rw [capture_opens h, hshot]
  simp only [captureCommit, captureOpen, line_setLine_self, hq, if_neg (not_lt.2 hle)] at hsame ⊢
  simp only [hsame] <;> rfl

theorem doCapture_opens (t : Nat) (he : (line d n).next = some e) (h : (line d n).capFor ≠ some e) :
    doCapture t n d = capture (advance d (max t (e - 200))) n e := by
  simp [doCapture, he, h]

theorem doCapture_once (t : Nat) (h : ∀ e, (line d n).next = some e → (line d n).capFor = some e) :
    doCapture t n d = advance d t := by
  unfold doCapture
  split
  · next e he => exact if_pos (h e he)
  · rfl

end

/-! ## Commits that apply at once (R29, R66, R82) -/

section
variable {d : Dev} {r : Nat}

/-- Putting a plan into force changes live values alone. -/
theorem putPlan_frame (a : Dev) (r : Nat) (w : PlanSrc) (whole : Bool) (d : Dev) :
    ∃ rg cm, putPlan a r w whole d = { d with regs := rg, committed := cm } := by
  refine foldl_rel (R := fun d e => ∃ rg cm, e = { d with regs := rg, committed := cm }) (fun d => ⟨_, _, rfl⟩)
    (by rintro a _ _ ⟨_, _, rfl⟩ ⟨_, _, rfl⟩; exact ⟨_, _, rfl⟩) (fun d e _ => ?_) d
  split
  · exact ⟨_, _, rfl⟩
  · exact ⟨_, _, rfl⟩

/-- The units of a region take its epoch or count as STALE. -/
theorem epochPages_frame (d : Dev) (ps : List Nat) (e : Nat) :
    ∃ us ev ue, epochPages d ps e = { d with unitStale := us, evt := ev, unitEpoch := ue } := by
  have htrans (a b c : Dev) (hab : ∃ us ev ue, b = { a with unitStale := us, evt := ev, unitEpoch := ue })
      (hbc : ∃ us ev ue, c = { b with unitStale := us, evt := ev, unitEpoch := ue }) :
      ∃ us ev ue, c = { a with unitStale := us, evt := ev, unitEpoch := ue } := by
    obtain ⟨_, _, _, rfl⟩ := hab
    obtain ⟨_, _, _, rfl⟩ := hbc
    exact ⟨_, _, _, rfl⟩
  refine foldl_rel (fun d => ⟨_, _, _, rfl⟩) htrans (fun d p _ => ?_) d
  refine foldl_rel (fun d => ⟨_, _, _, rfl⟩) htrans (fun d u _ => ?_) d
  split
  · exact ⟨_, _, _, rfl⟩
  · split
    · obtain ⟨⟨_, _, h⟩, -⟩ := enterStale_more d p u
      exact ⟨_, _, _, h⟩
    · exact ⟨_, _, _, rfl⟩

/-- The epoch of a region that commits goes up by one, no other does, and COMMIT_APPLIED is raised on each of its pages. -/
theorem epochCommit_spec (d : Dev) (r : Nat) :
    epoch (epochCommit d r) r = (epoch d r + 1) % 65536 ∧ (∀ q, q ≠ r → epoch (epochCommit d r) q = epoch d q) ∧
    (epochCommit d r).commitPend = d.commitPend ∧ (epochCommit d r).mem = d.mem ∧
    ∀ p ∈ regionPages r, (evtRaw (epochCommit d r) p).testBit 2 = true := by
  obtain ⟨us, ev, ue, h⟩ := epochPages_frame { d with epochs := Store.set d.epochs 0 r ((epoch d r + 1) % 65536) } (regionPages r)
    ((epoch d r + 1) % 65536)
  obtain ⟨v, hv⟩ := raiseRegion_frame
    (epochPages { d with epochs := Store.set d.epochs 0 r ((epoch d r + 1) % 65536) } (regionPages r) ((epoch d r + 1) % 65536)) r 2
  have hepochs : (epochCommit d r).epochs = Store.set d.epochs 0 r ((epoch d r + 1) % 65536) := by
    rw [epochCommit, hv, h]
  refine ⟨?_, fun q hq => ?_, ?_, ?_, fun p hp => raiseRegion_bit _ hp⟩
  · rw [epoch, hepochs, Store.get_set_self]
  · rw [epoch, hepochs, Store.get_set_ne _ _ _ _ hq.symm]; rfl
  · rw [epochCommit, hv, h]
  · rw [epochCommit, hv, h]

/-- What a service region's commit does, but in the region of the service converter, the loops and the pace table. -/
theorem serviceApply_spec (hr : r ≠ regService) :
    epoch (serviceApply d r) r = (epoch d r + 1) % 65536 ∧ (∀ q, q ≠ r → epoch (serviceApply d r) q = epoch d q) ∧
    r ∉ (serviceApply d r).commitPend ∧ (serviceApply d r).mem = d.mem ∧
    ∀ p ∈ regionPages r, (evtRaw (serviceApply d r) p).testBit 2 = true := by
  obtain ⟨rg, cm, h⟩ := putPlan_frame { d with commitPend := d.commitPend.filter (· != r) } r .staged true
    { d with commitPend := d.commitPend.filter (· != r) }
  have happly : serviceApply d r = epochCommit
      { d with regs := rg, committed := cm, commitPend := d.commitPend.filter (· != r) } r :=
    (if_neg hr).trans (congrArg (epochCommit · r) h)
  obtain ⟨h1, h2, h3, h4, h5⟩ := epochCommit_spec
    { d with regs := rg, committed := cm, commitPend := d.commitPend.filter (· != r) } r
  rw [happly]
  refine ⟨h1, h2, ?_, h4, h5⟩
  rw [h3]
  simp

variable {t : Nat}

theorem doImmediate_line (hr : r < 12) (hf : isFenced d r = false) (hb : d.bist = none)
    (hbase : (line d r).base = 0 ∨ (line d r).base = 6) (hw : (line d r).plan ≠ none ∨ (line d r).shot ≠ none) :
    doImmediate t r d = offApply (advance d t) r := by
  have hgo : ¬ (isFenced (advance d t) r || testDue (advance d t) r) := by
    rw [show isFenced (advance d t) r = false from hf, testDue, show (advance d t).bist = none from hb]; simp
  exact (if_neg hgo).trans ((if_pos hr).trans (if_pos ⟨hbase, by simpa [Option.isSome_iff_ne_none] using hw⟩))

theorem doImmediate_service (hr : 12 ≤ r) (hf : isFenced d r = false) (hb : d.bist = none) (hmem : r ∈ d.commitPend) :
    doImmediate t r d = serviceApply (advance d t) r := by
  have hgo : ¬ (isFenced (advance d t) r || testDue (advance d t) r) := by
    rw [show isFenced (advance d t) r = false from hf, testDue, show (advance d t).bist = none from hb]; simp
  exact (if_neg hgo).trans ((if_neg (not_lt.2 hr)).trans (if_pos (List.contains_iff_mem.2 hmem)))

theorem doImmediate_idle (hr : 12 ≤ r) (hno : r ∉ d.commitPend) : doImmediate t r d = advance d t := by
  have hcond : ¬ (advance d t).commitPend.contains r := fun h => hno (List.contains_iff_mem.1 h)
  by_cases hgo : isFenced (advance d t) r || testDue (advance d t) r
  · exact if_pos hgo
  · exact (if_neg hgo).trans ((if_neg (not_lt.2 hr)).trans (if_neg hcond))

end

/-! ## COMMIT on a page, CANCEL, and the commands -/

section
variable {d : Dev} {p r : Nat}

theorem commitPage_line {n : Nat} (hr : Reach d p) (hp : regionOf p = some n) (hn : n < 12) : commitPage d p = commitLine d n := by
  obtain ⟨-, hpt, -⟩ := hr
  simp [commitPage, hpt, hp, hn]

theorem commitPage_region (hr : Reach d p) (hp : regionOf p = some r) (h12 : 12 ≤ r) :
    commitPage d p = if r ∈ d.commitPend then d else { d with commitPend := d.commitPend ++ [r] } := by
  obtain ⟨-, hpt, -⟩ := hr
  simp [commitPage, hpt, hp, not_lt.2 h12]

theorem commitPage_none (hp : regionOf p = none) : commitPage d p = d := by simp [commitPage, hp]

theorem captureDue_before {n : Nat} (h : ∀ e, (line d n).next = some e → d.ticks + 200 < e) : captureDue d n = d := by
  unfold captureDue
  split
  · next e he => exact if_neg (not_le.2 (h e he))
  · rfl

theorem cancelLine_idle {n : Nat} (h : ∀ e, (line d n).next = some e → d.ticks + 200 < e) (hp : (line d n).plan = none)
    (hs : (line d n).shot = none) : cancelLine d n = d := by
  simp [cancelLine, captureDue_before h, hp, hs]

theorem cancelLine_withdraws {n : Nat} (h : ∀ e, (line d n).next = some e → d.ticks + 200 < e)
    (hw : (line d n).plan ≠ none ∨ (line d n).shot ≠ none) :
    cancelLine d n = commitShow (gateUnused
      (bump (setLine d n { line d n with plan := none, shot := none }) (pgLine n) F.LINE_CANCELS) n) n := by
  have hno : ¬ ((line d n).plan.isNone ∧ (line d n).shot.isNone) := by
    rw [Option.isNone_iff_eq_none, Option.isNone_iff_eq_none, not_and_or]; exact hw
  unfold cancelLine
  rw [captureDue_before h]
  exact if_neg hno

end

section
variable {s : State} {n : Nat} (t : Nat)

theorem gives_commitShot (hn : n < 12) (hr : Reach s.dev (pgLine n)) (hs : Awake s) :
    Gives (.commitShot t n) s (commitShot (advance s.dev t) n) :=
  (gives_of_act (f := fun d => onPage (pgLine n) (fun d => commitShot d n) (advance d t)) rfl (decide_eq_true hn) hs).of_eq
    (onPage_reach (d := advance s.dev t) (fun d => commitShot d n) (reach_advance hr))

theorem gives_cancel (hn : n < 12) (hr : Reach s.dev (pgLine n)) (hs : Awake s) :
    Gives (.cancel t n) s (cancelLine (advance s.dev t) n) :=
  (gives_of_act (f := fun d => onPage (pgLine n) (fun d => cancelLine d n) (advance d t)) rfl (decide_eq_true hn) hs).of_eq
    (onPage_reach (d := advance s.dev t) (fun d => cancelLine d n) (reach_advance hr))

theorem gives_commit {p : Nat} (hr : Reach s.dev p) (hs : Awake s) : Gives (.commit t p) s (commitPage (advance s.dev t) p) :=
  (gives_of_act (f := doCommit t p) rfl rfl hs).of_eq
    ((if_pos hr.1).trans (onPage_reach (d := advance s.dev t) (fun d => commitPage d p) (reach_advance hr)))

theorem gives_commit_line {p : Nat} (hn : n < 12) (hp : p ∈ linePages n) (hr : Reach s.dev p) (hs : Awake s) :
    Gives (.commit t p) s (commitLine (advance s.dev t) n) :=
  (gives_commit t hr hs).of_eq (commitPage_line (reach_advance hr) (regionOf_of_mem_linePages n hn p hp) hn)

theorem gives_commitCapture (hn : n < 12) (hs : Awake s) : Gives (.commitCapture t n) s (doCapture t n s.dev) :=
  gives_of_act rfl (decide_eq_true hn) hs

theorem gives_immediate {r : Nat} (hr : r < 17) (hs : Awake s) : Gives (.immediateCommitApply t r) s (doImmediate t r s.dev) :=
  gives_of_act rfl (decide_eq_true hr) hs

end

end Sys2Proof.Machine

open Sys2Proof Sys2Proof.Machine

/-- Settles O13: each request and each command has one equation above, and its frame gives the clause. -/
theorem commitsWaitApplyOrAreWithdrawn : Obligations.CommitsWaitApplyOrAreWithdrawn := by
  unfold Obligations.CommitsWaitApplyOrAreWithdrawn
  refine ⟨fun s t hs => ⟨?_, ?_, ?_, ?_, ?_, ?_, ?_, ?_, ?_, ?_, ?_, ?_⟩, fun s t hs => ⟨?_, ?_, ?_, ?_, ?_, ?_, ?_, ?_⟩⟩
  · intro n hn hr hq hin
    refine does_of_gives ((gives_commitShot t hn hr hs).of_eq (commitShot_inTime hq hin)) ⟨?_, ?_, ?_, ?_, ?_, ?_⟩
    · simp [advance_ticks]
    · simp [askShot]
    · simp [askShot]
    · exact fun p f h => (getR_settle _ p f).trans (regsBut_commitShow _ n p f h)
    · simp [getR_commitShow_busy, b2n]
    · simp [askShot]
  · rintro n hn hr hq ⟨e, he, hlt⟩
    refine does_of_gives ((gives_commitShot t hn hr hs).of_eq (commitShot_late hq he hlt)) ⟨?_, ?_, fun p hp => ?_, ?_⟩
    · simp [advance_ticks]
    · simp [askShot]
    · rw [evtRaw_settle]; exact raiseRegion_bit _ hp
    · simp [askShot]
  · intro n hn hr hq
    exact (gives_commitShot t hn hr hs).of_eq (commitShot_joins hq)
  · intro n hn hr hin hp hq
    exact (gives_cancel t hn hr hs).of_eq (cancelLine_idle hin hp hq)
  · intro n hn hr hin hw
    exact (gives_cancel t hn hr hs).of_eq (cancelLine_withdraws hin hw)
  · intro n hn hr hbad hlt
    exact (gives_commit_line t hn (pgLine_mem_linePages n hn) hr hs).of_eq (commitLine_rejects hbad hlt)
  · intro n hn p hp hr hok hq hin
    obtain ⟨cl, us, ev, pc, o, hw⟩ := woken_askPlanWake (d := advance s.dev t) (n := n)
    refine does_of_gives ((gives_commit_line t hn hp hr hs).of_eq (commitLine_inTime hok hq hin)) ⟨?_, ?_, ?_, ?_, ?_, ?_, ?_, ?_⟩
    · simp [advance_ticks]
    · simp
    · simp
    · simp [getR_commitShow_busy, b2n]
    · rw [getR_settle, getR_commitShow_reason, hw]
      exact (getR_checkShow_reason _ _).trans (by rw [planCheck_advance, hok])
    · rw [settle_epochs, commitShow_epochs, hw]; rfl
    · rw [settle_committed, commitShow_committed, hw]; rfl
    · rw [settle_mem, commitShow_mem, hw]; rfl
  · rintro n hn p hp hr hok hq hd ⟨e, he, hlt⟩
    refine does_of_gives ((gives_commit_line t hn hp hr hs).of_eq (commitLine_late hn hok hq hd he hlt)) ⟨?_, fun p hp => ?_, ?_, ?_⟩
    · simp [advance_ticks]
    · rw [evtRaw_settle]; exact raiseRegion_bit _ hp
    · simp [askPlan]
    · simp [askPlan]
  · intro n hn p hp hr hok hq
    exact (gives_commit_line t hn hp hr hs).of_eq (commitLine_joins hok hq)
  · intro p r hr hp h12 hno
    exact (gives_commit t hr hs).of_eq ((commitPage_region (d := advance s.dev t) hr hp h12).trans (if_neg hno))
  · intro p r hr hp h12 hmem
    exact (gives_commit t hr hs).of_eq ((commitPage_region (d := advance s.dev t) hr hp h12).trans (if_pos hmem))
  · intro p hr hp
    exact (gives_commit t hr hs).of_eq (commitPage_none hp)
  · intro n hn e q he hcap hp hq hle
    have hc := (doCapture_opens t he hcap).trans (capture_shot (d := advance s.dev (max t (e - 200))) hcap hp hq hle)
    refine does_of_gives ((gives_commitCapture t hn hs).of_eq hc) ⟨?_, ?_, ?_, ?_, ?_, ?_, ?_, ?_⟩
    · simp
    · simp [captureOpen]; rfl
    · simp [captureOpen]
    · simp [captureOpen, advance_ticks]
    · simp [captureOpen]
    · simp [captureOpen]
    · exact fun p f h => (getR_settle _ p f).trans (regsBut_commitShow _ n p f h)
    · simp [captureOpen]
  · intro n hn e q he hcap hsh hq hle hd
    have hc := (doCapture_opens t he hcap).trans (capture_plan_same (d := advance s.dev (max t (e - 200))) hcap hsh hq hle hd)
    refine does_of_gives ((gives_commitCapture t hn hs).of_eq hc) ⟨?_, ?_, ?_, ?_, ?_, ?_, ?_, ?_⟩
    · simp
    · simp [captureOpen]; rfl
    · simp [captureOpen]
    · simp [captureOpen, advance_ticks]
    · simp [captureOpen]
    · simp [captureOpen]
    · exact fun p f h => (getR_settle _ p f).trans (regsBut_commitShow _ n p f h)
    · simp [captureOpen]
  · intro n hn e he hcap
    exact (gives_commitCapture t hn hs).of_eq (doCapture_opens t he hcap)
  · intro n hn hcap
    exact (gives_commitCapture t hn hs).of_eq (doCapture_once t hcap)
  · intro n hn hf hb hbase hw
    exact (gives_immediate t (by omega) hs).of_eq (doImmediate_line hn hf hb hbase hw)
  · intro hf hb hmem
    exact (gives_immediate t (by decide) hs).of_eq (doImmediate_service (by decide) hf hb hmem)
  · intro r h12 h16 hmem hf hb
    obtain ⟨h1, h2, h3, h4, h5⟩ := serviceApply_spec (d := advance s.dev t) (r := r) (by simp [regService]; omega)
    refine does_of_gives ((gives_immediate t (by omega) hs).of_eq (doImmediate_service h12 hf hb hmem)) ⟨?_, fun q hq => ?_, ?_, fun p hp => ?_, ?_⟩
    · rw [epoch, settle_epochs]; exact h1
    · rw [epoch, settle_epochs]; exact h2 q hq
    · rw [settle_commitPend]; exact h3
    · rw [evtRaw_settle]; exact h5 p hp
    · rw [settle_mem]; exact h4
  · intro r h12 h17 hno _
    exact (gives_immediate t h17 hs).of_eq (doImmediate_idle h12 hno)

end

section
/-! PROOFS. The plan check (R85): its reasons in order, and what shows its verdict. -/

namespace Sys2Proof.Machine

open Sys2Proof

/-! ## The lowest-numbered failure -/

section
variable {d : Dev} {w : PlanSrc} {n : Nat}

theorem planCheck_period (h : pLine d w n F.LINE_PERIOD < 2000) : planCheck d w n = (1, 0, 0) := if_pos h

theorem planCheck_roundTrip (hper : 2000 ≤ pLine d w n F.LINE_PERIOD) (h : ¬ roundTripOk d w n = true) :
    planCheck d w n = (2, 0, 0) := (if_neg (not_lt.2 hper)).trans (if_pos (by simpa using h))

/-- A plan whose PERIOD and round trip pass. -/
abbrev PlanFits (d : Dev) (w : PlanSrc) (n : Nat) : Prop := 2000 ≤ pLine d w n F.LINE_PERIOD ∧ roundTripOk d w n = true

theorem planCheck_locked (hfit : PlanFits d w n) (hlock : pLine d w n F.LINE_TIMING = 1)
    (h : 100000000 % pLine d w n F.LINE_PERIOD ≠ 0) : planCheck d w n = (3, 0, 0) :=
  (if_neg (not_lt.2 hfit.1)).trans ((if_neg (by simp [hfit.2])).trans (if_pos ⟨hlock, h⟩))

theorem planCheck_gridPhase (hfit : PlanFits d w n) (hfree : pLine d w n F.LINE_TIMING = 0)
    (h : pLine d w n F.LINE_PERIOD ≤ pLine d w n F.LINE_GRID_PHASE) : planCheck d w n = (4, 0, 0) :=
  (if_neg (not_lt.2 hfit.1)).trans ((if_neg (by simp [hfit.2])).trans ((if_neg (by simp [hfree])).trans (if_pos h)))

theorem planCheck_rate (hfit : PlanFits d w n) (hfree : pLine d w n F.LINE_TIMING = 0)
    (hgrid : pLine d w n F.LINE_GRID_PHASE < pLine d w n F.LINE_PERIOD) (hrate : pLine d w n F.LINE_MODE = 0)
    (h : pLine d w n F.LINE_PERIOD % pLine d w n F.LINE_SLOTS ≠ 0) : planCheck d w n = (5, 0, 0) :=
  (if_neg (not_lt.2 hfit.1)).trans ((if_neg (by simp [hfit.2])).trans ((if_neg (by simp [hfree])).trans
    ((if_neg (not_le.2 hgrid)).trans (if_pos ⟨by simp [pRateMode, hrate], h⟩))))

theorem planCheck_slots (hfit : PlanFits d w n) (hfree : pLine d w n F.LINE_TIMING = 0)
    (hgrid : pLine d w n F.LINE_GRID_PHASE < pLine d w n F.LINE_PERIOD) (hmode : pLine d w n F.LINE_MODE = 1)
    (h : pLine d w n F.LINE_SLOTS = 0 ∨ 8 < pLine d w n F.LINE_SLOTS) : planCheck d w n = (6, 0, 0) :=
  (if_neg (not_lt.2 hfit.1)).trans ((if_neg (by simp [hfit.2])).trans ((if_neg (by simp [hfree])).trans
    ((if_neg (not_le.2 hgrid)).trans ((if_neg (by simp [pRateMode, hmode])).trans (if_pos h)))))

end

/-! ## The verdict shown -/

theorem regsBut_checkShow (d : Dev) (n : Nat) :
    RegsBut [(pgLine n, F.LINE_REASON), (pgLine n, F.LINE_CHECK_SLOT), (pgLine n, F.LINE_CHECK_PAGE), (pgLine n, cERROR)]
      (checkShow d n) d := by
  intro p f h
  simp only [List.mem_cons, List.not_mem_nil, or_false, forall_eq_or_imp, forall_eq] at h
  obtain ⟨hreason, hslot, hpage, herr⟩ := h
  unfold checkShow
  exact (getR_setR_ne _ _ herr).trans ((getR_setR_ne _ _ hpage).trans
    ((getR_setR_ne _ _ hslot).trans (getR_setR_ne _ _ hreason)))

theorem getR_checkShow_slot (d : Dev) (n : Nat) :
    getR (checkShow d n) (pgLine n) F.LINE_CHECK_SLOT = (planCheck d .staged n).2.1 % 8 := by
  unfold checkShow
  exact (getR_setR_fld _ _ _ (by decide)).trans ((getR_setR_fld _ _ _ (by decide)).trans (getR_setR_self _ _ _ _))

theorem getR_checkShow_page (d : Dev) (n : Nat) :
    getR (checkShow d n) (pgLine n) F.LINE_CHECK_PAGE = (planCheck d .staged n).2.2 % 64 := by
  unfold checkShow
  exact (getR_setR_fld _ _ _ (by decide)).trans (getR_setR_self _ _ _ _)

theorem getR_checkShow_error (d : Dev) (n : Nat) :
    getR (checkShow d n) (pgLine n) cERROR = b2n ((planCheck d .staged n).1 != 0) := by
  have hbit (b : Bool) : b2n b % 2 ^ cERROR.width = b2n b := by cases b <;> rfl
  unfold checkShow
  exact (getR_setR_self _ _ _ _).trans (hbit _)

theorem gives_planCheckEval {s : State} {n : Nat} (t : Nat) (hn : n < 12) (hs : Awake s) :
    Gives (.planCheckEval t n) s (checkShow (advance s.dev t) n) :=
  gives_of_act (f := doPlanCheckEval t n) rfl (decide_eq_true hn) hs

/-- An evaluation that fails for reason `r` shows it with ERROR, names no slot or page, and changes nothing else. -/
theorem planCheckEval_shows {s : State} {n r : Nat} (t : Nat) (hn : n < 12) (hs : Awake s) (h0 : r ≠ 0) (hr : r < 256)
    (h : planCheck s.dev .staged n = (r, 0, 0)) : Does (.planCheckEval t n) s (fun d =>
      getR d (pgLine n) F.LINE_REASON = r ∧ getR d (pgLine n) F.LINE_CHECK_SLOT = 0 ∧
      getR d (pgLine n) F.LINE_CHECK_PAGE = 0 ∧ getR d (pgLine n) cERROR = 1 ∧
      RegsBut [(pgLine n, F.LINE_REASON), (pgLine n, F.LINE_CHECK_SLOT), (pgLine n, F.LINE_CHECK_PAGE),
        (pgLine n, cERROR)] d s.dev ∧
      d.lines = s.dev.lines ∧ d.epochs = s.dev.epochs ∧ d.evt = s.dev.evt ∧ d.mem = s.dev.mem) := by
  have h := (planCheck_advance s.dev t n).trans h
  refine does_of_gives (gives_planCheckEval t hn hs) ⟨?_, ?_, ?_, ?_, fun p f hne => ?_, ?_, ?_, ?_, ?_⟩
  · rw [getR_settle, getR_checkShow_reason, h]; exact Nat.mod_eq_of_lt hr
  · rw [getR_settle, getR_checkShow_slot, h]; exact Nat.zero_mod _
  · rw [getR_settle, getR_checkShow_page, h]; exact Nat.zero_mod _
  · rw [getR_settle, getR_checkShow_error, h, bne_iff_ne.2 h0]; rfl
  · exact (getR_settle _ p f).trans (regsBut_checkShow _ n p f hne)
  · exact settle_lines _
  · exact settle_epochs _
  · exact settle_evt _
  · exact settle_mem _

end Sys2Proof.Machine

open Sys2Proof Sys2Proof.Machine

/-- Settles O12: each clause is a reason of the check whose lower ones do not hold, shown. -/
theorem planCheckShowsTheLowestReason : Obligations.PlanCheckShowsTheLowestReason := by
  unfold Obligations.PlanCheckShowsTheLowestReason
  intro s t n hn hs per fits shows
  have hshow {r : Nat} (h0 : r ≠ 0) (hr : r < 256) (h : planCheck s.dev .staged n = (r, 0, 0)) : shows r :=
    planCheckEval_shows t hn hs h0 hr h
  refine ⟨fun h => ?_, fun hper h => ?_, fun hper hfit hlock h => ?_, ?_⟩
  · exact hshow (by decide) (by decide) (planCheck_period h)
  · exact hshow (by decide) (by decide) (planCheck_roundTrip hper h)
  · exact hshow (by decide) (by decide) (planCheck_locked ⟨hper, hfit⟩ hlock h)
  · refine ⟨?_, ?_, ?_, gives_planCheckEval t hn hs, fun hok => ?_⟩
    · rintro ⟨hper, hfit, hfree⟩ h
      exact hshow (by decide) (by decide) (planCheck_gridPhase ⟨hper, hfit⟩ hfree h)
    · rintro ⟨hper, hfit, hfree⟩ hgrid hrate h
      exact hshow (by decide) (by decide) (planCheck_rate ⟨hper, hfit⟩ hfree hgrid hrate h)
    · rintro ⟨hper, hfit, hfree⟩ hgrid hmode h
      exact hshow (by decide) (by decide) (planCheck_slots ⟨hper, hfit⟩ hfree hgrid hmode h)
    · have hok := (congrArg Prod.fst (planCheck_advance s.dev t n)).trans hok
      refine does_of_gives (gives_planCheckEval t hn hs) ⟨?_, ?_, settle_epochs _, settle_evt _⟩
      · rw [getR_settle, getR_checkShow_reason, hok]
      · rw [getR_settle, getR_checkShow_error, hok]; rfl

end

section
/-! PROOFS. CANCEL (R84): what gating a cluster leaves alone, and what a withdrawal keeps. -/

namespace Sys2Proof.Machine

open Sys2Proof

/-! ## What gating a cluster leaves alone (R25, R233, R261)

Staged fields stand at the offsets 0x040 to 0x3FC of their pages, and what a gated cluster shows stands outside them and on
no LINE page. -/

/-- Field `g` of page `q` lies among the staged fields, or on a LINE page. -/
def PlanField (q : Nat) (g : Fld) : Prop := 2048 ≤ fldAt g ∧ fldAt g < 32768 ∨ (∃ m, q = pgLine m) ∧ fldAt g < 131072

/-- From `d` to `e` no line's shot clock, no field of a plan or of a LINE page and no memory has moved. -/
structure PlanKept (d e : Dev) : Prop where
  lines : e.lines = d.lines
  mem : e.mem = d.mem
  regs : ∀ q g, PlanField q g → getR e q g = getR d q g

theorem PlanKept.refl (d : Dev) : PlanKept d d := ⟨rfl, rfl, fun _ _ _ => rfl⟩

theorem PlanKept.trans (a b c : Dev) (h : PlanKept a b) (g : PlanKept b c) : PlanKept a c :=
  ⟨g.lines.trans h.lines, g.mem.trans h.mem, fun q f hf => (g.regs q f hf).trans (h.regs q f hf)⟩

/-- A field that shows what a unit does: on a page other than a LINE page, and not among its staged fields. -/
structure ShownField (p : Nat) (f : Fld) : Prop where
  page : ∀ m, pgLine m ≠ p
  place : fldAt f < 2048 ∨ 32768 ≤ fldAt f ∧ fldAt f < 131072

theorem setR_planKept (d : Dev) {p : Nat} {f : Fld} (v : Nat) (h : ShownField p f) : PlanKept d (setR d p f v) := by
  obtain ⟨hpage, hplace⟩ := h
  refine ⟨rfl, rfl, fun q g hg => getR_setR_ne d v ?_⟩
  rcases hg with hg | ⟨⟨m, rfl⟩, hg⟩
  · rw [key_eq, key_eq]; omega
  · exact key_ne_page (hpage m).symm (by omega) hg

theorem addC_planKept (d : Dev) {p : Nat} {f : Fld} (n : Nat) (h : ShownField p f) : PlanKept d (addC d p f n) := by
  rw [addC_eq]; exact setR_planKept d _ h

theorem setCore_planKept (d : Dev) (n k : Nat) (x : CoreSt) : PlanKept d (setCore d n k x) := ⟨rfl, rfl, fun _ _ _ => rfl⟩

/-! ### Pages of a line region other than its LINE page, and the shelf pools -/

theorem pgLine_ne_offset (n m : Nat) {o : Nat} (h0 : 0 < o) (ho : o < 64) : pgLine m ≠ lineBase n + o := by
  unfold pgLine lineBase; omega

theorem pgLine_ne_pgShelf (p m : Nat) : pgLine m ≠ pgShelf p := by
  unfold pgLine lineBase pgShelf pgShelfHub dieCommon
  split
  · omega
  · split <;> omega

section
variable {f : Fld} (n : Nat) (h : fldAt f < 2048 ∨ 32768 ≤ fldAt f ∧ fldAt f < 131072)
include h

theorem shown_rx : ShownField (pgRx n) f := ⟨fun m => pgLine_ne_offset n m (by decide) (by decide), h⟩

theorem shown_cal : ShownField (pgCal n) f := ⟨fun m => pgLine_ne_offset n m (by decide) (by decide), h⟩

theorem shown_strideCl : ShownField (pgStrideCl n) f := ⟨fun m => pgLine_ne_offset n m (by decide) (by decide), h⟩

theorem shown_stride {k : Nat} (hk : k < 16) : ShownField (pgStride n k) f :=
  ⟨fun m => by
    rw [show pgStride n k = lineBase n + (0x20 + k) from Nat.add_assoc ..]
    exact pgLine_ne_offset n m (by omega) (by omega), h⟩

theorem shown_shelf : ShownField (pgShelf n) f := ⟨pgLine_ne_pgShelf n, h⟩

end

/-! ### The core's shelf goes back to its pool -/

theorem poolShow_planKept (d : Dev) (p : Nat) : PlanKept d (poolShow d p) := by
  have hfree : fldAt (fFREE p) < 2048 ∨ 32768 ≤ fldAt (fFREE p) ∧ fldAt (fFREE p) < 131072 := by
    unfold fFREE; split <;> decide
  have hcommon : fldAt (fCOMMON p) < 2048 ∨ 32768 ≤ fldAt (fCOMMON p) ∧ fldAt (fCOMMON p) < 131072 := by
    unfold fCOMMON; split <;> decide
  unfold poolShow
  extract_lets was now e1 e2 e3
  have h1 : PlanKept d e1 := setR_planKept d _ (shown_shelf p hfree)
  clear_value e1
  have h2 : PlanKept e1 e2 := setR_planKept e1 _ (shown_shelf p hcommon)
  clear_value e2
  have h3 : PlanKept e2 e3 := setR_planKept e2 _ (shown_shelf p (by decide))
  clear_value e3
  have h4 : PlanKept e3 (raiseOn e3 (pgShelf p) 9 (was == 0) (now == 0)) := by
    unfold raiseOn; split
    · exact ⟨rfl, rfl, fun _ _ _ => rfl⟩
    · exact .refl e3
  exact .trans _ _ _ h1 (.trans _ _ _ h2 (.trans _ _ _ h3 h4))

theorem freeShelf_planKept (d : Dev) (p k : Nat) {q : Nat} (hq : q < 64) : PlanKept d (freeShelf d p q k) := by
  have hheld : 32768 ≤ fldAt (fHELD q) ∧ fldAt (fHELD q) < 131072 := by
    simp only [fldAt, fHELD, F.SHELFH_HELD]; omega
  unfold freeShelf
  extract_lets x mine e1 e2
  split
  · exact .refl d
  · have h1 : PlanKept d e1 := ⟨rfl, rfl, fun _ _ _ => rfl⟩
    have h2 : PlanKept e1 e2 := setR_planKept e1 _ (shown_shelf p (.inr hheld))
    exact .trans _ _ _ h1 (.trans _ _ _ h2 (poolShow_planKept e2 p))

theorem dropShelf_planKept (d : Dev) (n k : Nat) : PlanKept d (dropShelf d n k) := by
  unfold dropShelf
  dsimp only
  split
  · exact .trans _ _ _ (freeShelf_planKept d (dieOf n) 1 (by unfold strideReq; omega)) (setCore_planKept ..)
  · exact .refl d

/-! ### A Stride core loses its state -/

section
variable (d : Dev) (n : Nat) {k : Nat} (hk : k < 16)
include hk

theorem waitNote_planKept : PlanKept d (waitNote d n k) := by
  unfold waitNote
  split
  · exact .refl d
  · exact .trans _ _ _ (setCore_planKept ..) (addC_planKept _ _ (shown_stride n (by decide) hk))

theorem levelShow_planKept {i : Nat} (hi : i < 4) : PlanKept d (levelShow d n k i) := by
  have hlevel : 32768 ≤ fldAt (F.STRIDE_IN_LEVEL i) ∧ fldAt (F.STRIDE_IN_LEVEL i) < 131072 := by
    simp only [fldAt, F.STRIDE_IN_LEVEL]; omega
  exact setR_planKept d _ (shown_stride n (.inr hlevel) hk)

theorem coreShow_planKept : PlanKept d (coreShow d n k) :=
  .trans _ _ _ (setR_planKept d _ (shown_stride n (by decide) hk)) (setR_planKept _ _ (shown_stride n (by decide) hk))

theorem setCoreState_planKept (st : Nat) : PlanKept d (setCoreState d n k st) :=
  .trans _ _ _ (setR_planKept d _ (shown_stride n (by decide) hk)) (setR_planKept _ _ (shown_strideCl n (by decide)))

theorem coreLost_planKept : PlanKept d (coreLost n d k) := by
  unfold coreLost
  extract_lets st p e1 e2 e3 e4
  have h1 : PlanKept d e1 := .trans _ _ _ (waitNote_planKept d n hk) (dropShelf_planKept ..)
  clear_value e1
  have h2 : PlanKept e1 e2 := onlyIf_rel (f := fun d => setR d p F.STRIDE_RESTART 1) PlanKept.refl e1 _
    (setR_planKept e1 1 (shown_stride n (by decide) hk))
  clear_value e2
  have h3 : PlanKept e2 e3 := setCore_planKept ..
  clear_value e3
  have h4 : PlanKept e3 e4 :=
    foldl_rel PlanKept.refl PlanKept.trans (fun d i hi => levelShow_planKept d n hk (List.mem_range.1 hi)) e3
  clear_value e4
  exact .trans _ _ _ h1 (.trans _ _ _ h2 (.trans _ _ _ h3 (.trans _ _ _ h4
    (.trans _ _ _ (setCoreState_planKept e4 n hk 0) (coreShow_planKept _ n hk)))))

end

/-! ### A calibration pass ends, and the Starter's gates go off -/

theorem rxShow_planKept (d : Dev) (n : Nat) : PlanKept d (rxShow d n) := by
  unfold rxShow
  extract_lets p e1 e2
  have h1 : PlanKept d e1 := setR_planKept d _ (shown_rx n (by decide))
  clear_value e1
  have h2 : PlanKept e1 e2 := setR_planKept e1 _ (shown_rx n (by decide))
  clear_value e2
  exact .trans _ _ _ h1 (.trans _ _ _ h2 (setR_planKept e2 _ (shown_rx n (by decide))))

theorem handOver_planKept (d : Dev) (n i c t : Nat) : PlanKept d (handOver d n i c t) := by
  have hcore : 32768 ≤ fldAt (coreFld i) ∧ fldAt (coreFld i) < 131072 := by
    unfold coreFld; split
    · decide
    · split
      · decide
      · split <;> decide
  unfold handOver
  extract_lets x
  have h1 : PlanKept d (setR d (pgRx n) (coreFld i) c) := setR_planKept d c (shown_rx n (.inr hcore))
  generalize setR d (pgRx n) (coreFld i) c = e at h1 ⊢
  have h2 : PlanKept e (setRx e n { x with handAt := sampleOf t + 1, serveFrom := Store.set x.serveFrom 0 c t }) :=
    ⟨rfl, rfl, fun _ _ _ => rfl⟩
  exact .trans _ _ _ h1 (.trans _ _ _ h2 (rxShow_planKept _ n))

theorem calAbandon_planKept (d : Dev) (n c : Nat) : PlanKept d (calAbandon d n c) := by
  unfold calAbandon
  extract_lets x e pend keep e1 e2 e3
  split
  · exact .refl d
  · have he : PlanKept d e := by
      simp only [e]
      split
      · exact handOver_planKept ..
      · exact .refl d
    clear_value e
    have h2 : PlanKept e e2 := ⟨rfl, rfl, fun _ _ _ => rfl⟩
    clear_value e2
    have h3 : PlanKept e2 e3 := addC_planKept e2 1 (shown_cal n (by decide))
    clear_value e3
    exact .trans _ _ _ he (.trans _ _ _ h2 (.trans _ _ _ h3 ⟨rfl, rfl, fun _ _ _ => rfl⟩))

theorem gatesOff_planKept (d : Dev) (n : Nat) : PlanKept d (gatesOff d n) := by
  have hhold : PlanKept d (tgateHold d n) := by
    unfold tgateHold
    exact .trans _ _ _ (onlyIf_rel (f := fun d => setStarter d n { starter d n with tgLast := none }) PlanKept.refl d _
      ⟨rfl, rfl, fun _ _ _ => rfl⟩) ⟨rfl, rfl, fun _ _ _ => rfl⟩
  unfold gatesOff
  generalize tgateHold d n = e at hhold ⊢
  exact .trans _ _ _ hhold ⟨rfl, rfl, fun _ _ _ => rfl⟩

/-! ### Gating -/

theorem gateCluster_planKept (d : Dev) (n c : Nat) : PlanKept d (gateCluster d n c) := by
  unfold gateCluster
  dsimp only
  split
  · exact ⟨rfl, rfl, fun _ _ _ => rfl⟩
  · exact .refl d

theorem gateUnit_planKept (d : Dev) (n : Nat) {c : Nat} (hc : c < 11) : PlanKept d (gateUnit d n c) := by
  unfold gateUnit
  extract_lets e1 e2 e3
  split
  · exact .refl d
  · have h1 : PlanKept d e1 := by
      simp only [e1]
      split
      · exact foldl_rel PlanKept.refl PlanKept.trans
          (fun d i hi => coreLost_planKept d n (by have := List.mem_range.1 hi; omega)) d
      · exact .refl d
    clear_value e1
    have h2 : PlanKept e1 e2 := onlyIf_rel (f := fun d => calAbandon d n 0) PlanKept.refl e1 _ (calAbandon_planKept ..)
    clear_value e2
    have h3 : PlanKept e2 e3 := onlyIf_rel (f := fun d => gatesOff d n) PlanKept.refl e2 _ (gatesOff_planKept ..)
    clear_value e3
    exact .trans _ _ _ h1 (.trans _ _ _ h2 (.trans _ _ _ h3 (gateCluster_planKept ..)))

theorem gateUnused_planKept (d : Dev) (n : Nat) : PlanKept d (gateUnused d n) := by
  unfold gateUnused
  extract_lets keep e1 e2
  have h1 : PlanKept d e1 := foldl_rel PlanKept.refl PlanKept.trans
    (fun d c hc => gateUnit_planKept d n (by have := List.mem_range.1 (List.mem_filter.1 hc).1; omega)) d
  clear_value e1
  have h2 : PlanKept e1 e2 := foldl_rel PlanKept.refl PlanKept.trans
    (fun d k hk => gateUnit_planKept d n (by have := List.mem_range.1 (List.mem_filter.1 hk).1; omega)) e1
  clear_value e2
  refine .trans _ _ _ h1 (.trans _ _ _ h2 ?_)
  split
  · exact .refl e2
  · exact gateUnit_planKept e2 (partner n) (by decide)

/-! ## CANCEL -/

section
variable {d : Dev} {n : Nat}

/-- No capture instant of line `n` is to be taken now. -/
def CaptureDone (d : Dev) (n : Nat) : Prop := ∀ e, (line d n).next = some e → (line d n).capFor = some e ∨ d.ticks + 200 < e

theorem captureDue_done (h : CaptureDone d n) : captureDue d n = d := by
  unfold captureDue
  split
  · next e he =>
    split
    · next hle => exact if_pos ((h e he).resolve_right (not_lt.2 hle))
    · rfl
  · rfl

theorem captureDue_at {e : Nat} (he : (line d n).next = some e) (hle : e ≤ d.ticks + 200) :
    captureDue d n = capture d n e := by simp [captureDue, he, hle]

/-- A CANCEL that finds nothing waiting is at most a capture. -/
theorem cancelLine_none (hp : (line (captureDue d n) n).plan = none) (hs : (line (captureDue d n) n).shot = none) :
    cancelLine d n = captureDue d n := if_pos (by simp [hp, hs])

/-- What waits on line `n` is withdrawn, and counted. -/
def withdrawn (d : Dev) (n : Nat) : Dev :=
  bump (setLine d n { line d n with plan := none, shot := none }) (pgLine n) F.LINE_CANCELS

theorem cancelLine_some (h : CaptureDone d n) (hw : (line d n).plan ≠ none ∨ (line d n).shot ≠ none) :
    cancelLine d n = commitShow (gateUnused (withdrawn d n) n) n := by
  have hno : ¬ ((line d n).plan.isNone ∧ (line d n).shot.isNone) := by
    rw [Option.isNone_iff_eq_none, Option.isNone_iff_eq_none, not_and_or]; exact hw
  unfold cancelLine
  rw [captureDue_done h]
  exact if_neg hno

theorem line_withdrawn : line (withdrawn d n) n = { line d n with plan := none, shot := none } := by
  unfold withdrawn bump; rw [addC_eq]; exact line_setLine_self ..

theorem line_gateUnused (d : Dev) (m n : Nat) : line (gateUnused d m) n = line d n := by
  rw [line, (gateUnused_planKept d m).lines]; rfl

/-- No staged field shows a commit, and none is the counter. -/
theorem getR_cancelLine_staged (hn : n < 12) {e : Nat × Fld × Bool} (he : e ∈ stagedFields n) :
    getR (commitShow (gateUnused (withdrawn d n) n) n) e.1 e.2.1 = getR d e.1 e.2.1 := by
  have hplace := staged_place_of_line hn he
  have hshow : getR (commitShow (gateUnused (withdrawn d n) n) n) e.1 e.2.1 =
      getR (gateUnused (withdrawn d n) n) e.1 e.2.1 := by
    have hne {f : Fld} (hf : fldAt f < 2048) : key (pgLine n) f ≠ key e.1 e.2.1 := by
      rw [key_eq, key_eq]; omega
    refine regsBut_commitShow _ n _ _ ?_
    simp only [List.mem_cons, List.not_mem_nil, or_false, forall_eq_or_imp, forall_eq]
    exact ⟨hne (by decide), hne (by decide), hne (by decide)⟩
  have hcount : getR (withdrawn d n) e.1 e.2.1 = getR d e.1 e.2.1 := by
    have hfld : fldAt F.LINE_CANCELS = 34816 := rfl
    unfold withdrawn bump
    rw [addC_eq]
    exact getR_setR_ne _ _ (by rw [key_eq, key_eq]; omega)
  exact hshow.trans (((gateUnused_planKept _ n).regs _ _ (.inl hplace)).trans hcount)

theorem getR_cancelLine_count :
    getR (commitShow (gateUnused (withdrawn d n) n) n) (pgLine n) F.LINE_CANCELS =
      min (getR d (pgLine n) F.LINE_CANCELS + 1) (2 ^ 32 - 1) := by
  have hshow : getR (commitShow (gateUnused (withdrawn d n) n) n) (pgLine n) F.LINE_CANCELS =
      getR (gateUnused (withdrawn d n) n) (pgLine n) F.LINE_CANCELS := by
    refine regsBut_commitShow _ n _ _ ?_
    simp only [List.mem_cons, List.not_mem_nil, or_false, forall_eq_or_imp, forall_eq]
    exact ⟨key_ne_fld _ (by decide), key_ne_fld _ (by decide), key_ne_fld _ (by decide)⟩
  exact hshow.trans (((gateUnused_planKept _ n).regs _ _ (.inr ⟨⟨n, rfl⟩, by decide⟩)).trans (getR_addC_narrow _ _ 1 (by decide)))

theorem cancelLine_mem : (commitShow (gateUnused (withdrawn d n) n) n).mem = d.mem := by
  rw [commitShow_mem, (gateUnused_planKept _ n).mem, withdrawn, bump, addC_mem, setLine_mem]

end

end Sys2Proof.Machine

open Sys2Proof Sys2Proof.Machine

/-- Settles O14: CANCEL first takes a capture that is due; then it finds nothing, or withdraws what waits and gates clusters,
which keeps every plan. -/
theorem cancelWithdrawsWaitingCommits : Obligations.CancelWithdrawsWaitingCommits := by
  unfold Obligations.CancelWithdrawsWaitingCommits
  intro s t n hn hs hr
  refine ⟨fun hdone hp hq => ?_, fun e he hle hp hq => ?_, fun hdone hw => ?_⟩
  · have hdue : captureDue (advance s.dev t) n = advance s.dev t := captureDue_done hdone
    exact (gives_cancel t hn hr hs).of_eq ((cancelLine_none (by rwa [hdue]) (by rwa [hdue])).trans hdue)
  · have hdue := captureDue_at (d := advance s.dev t) he hle
    exact (gives_cancel t hn hr hs).of_eq ((cancelLine_none (by rwa [hdue]) (by rwa [hdue])).trans hdue)
  · have hline : line (gateUnused (withdrawn (advance s.dev t) n) n) n = { line s.dev n with plan := none, shot := none } :=
      (line_gateUnused ..).trans line_withdrawn
    refine does_of_gives ((gives_cancel t hn hr hs).of_eq (cancelLine_some (d := advance s.dev t) hdone hw))
      ⟨?_, ?_, ?_, ?_, fun e he => ?_, ?_, ?_⟩
    · rw [line_settle, line_commitShow, hline]
    · rw [line_settle, line_commitShow, hline]
    · rw [line_settle, line_commitShow, hline]
    · rw [line_settle, line_commitShow, hline]
    · exact (getR_settle _ _ _).trans (getR_cancelLine_staged hn he)
    · exact (getR_settle _ _ _).trans getR_cancelLine_count
    · exact (settle_mem _).trans cancelLine_mem

end

section
/-! PROOFS. The timeline's own commands (R64, R72, R74, R81, R86–R88): slot-0 instants, launches, starts and gap ends. -/

namespace Sys2Proof.Machine

open Sys2Proof

section
variable {d : Dev} {n k : Nat} (t : Nat)

/-! ## Slot-0 instants (R64) -/

theorem doSlot0_at {e : Nat} (h : (line d n).next = some e) : doSlot0 t n d = slot0 (advance d (max t e)) n e := by
  simp [doSlot0, h]

theorem doSlot0_none (h : (line d n).next = none) : doSlot0 t n d = advance d t := by simp [doSlot0, h]

/-! ## Launches (R72, R86) -/

/-- The slots of line `n` that launch: those of its plan, in a gap those of the old one. -/
def launchSlots (d : Dev) (n : Nat) : Nat :=
  if (line d n).gap || (line d n).stopAt.isSome then (line d n).gapN else slotsN d n

/-- The ticks from one slot's launch to the next one's. -/
def launchStep (d : Dev) (n : Nat) : Nat :=
  if (line d n).gap || (line d n).stopAt.isSome then (line d n).gapStep
  else if flagL d (pgLine n) F.LINE_MODE then 0 else (line d n).period / max 1 (launchSlots d n)

/-- The launch instant of slot `k`. -/
def launchTick (d : Dev) (n k : Nat) : Nat := (line d n).l0 + k * launchStep d n

/-- The launch instant of slot `k` has come, and the line notes it. -/
def launchOpen (d : Dev) (t n k : Nat) : Dev :=
  setLine (advance d (max t (launchTick d n k))) n { line d n with launches := (line d n).launches ++ [k] }

theorem doSlotLaunch_beyond (h : launchSlots d n ≤ k) : doSlotLaunch t n k d = advance d t := if_pos (.inr (.inl h))

/-- Slot `k` of the shot is still to launch, on a line that runs. -/
structure LaunchDue (d : Dev) (n k : Nat) : Prop where
  pos : 0 < k
  enabled : k < launchSlots d n
  new : k ∉ (line d n).launches
  shot : (line d n).launches ≠ []
  on : (line d n).base ≠ 0
  lit : (line d n).base ≠ 6

theorem doSlotLaunch_due (h : LaunchDue d n k) :
    doSlotLaunch t n k d =
      let go := (line d n).launched && lineState d n != 4
      pipeLaunch (onlyIf go (fun d' => starterLaunch d' n k (launchTick d n k)) (launchOpen d t n k)) n k
        (launchTick d n k) (line d n).l0No (!go) := by
  refine if_neg ?_
  obtain ⟨hpos, hen, hnew, hshot, hon, hlit⟩ := h
  rintro (h | h | h | h | h | h)
  · exact hpos.ne' h
  · exact not_lt.2 h hen
  · exact hnew (List.contains_iff_mem.1 h)
  · exact hshot (List.isEmpty_iff.1 h)
  · exact hon h
  · exact hlit h

theorem doSlotLaunch_launches (h : LaunchDue d n k) (hl : (line d n).launched = true) (hs : lineState d n ≠ 4) :
    doSlotLaunch t n k d = pipeLaunch (starterLaunch (launchOpen d t n k) n k (launchTick d n k)) n k
      (launchTick d n k) (line d n).l0No false := by
  have hgo : ((line d n).launched && lineState d n != 4) = true := by simp [hl, hs]
  rw [doSlotLaunch_due t h, hgo]; rfl

theorem doSlotLaunch_skips (h : LaunchDue d n k) (hno : (line d n).launched = false ∨ lineState d n = 4) :
    doSlotLaunch t n k d = pipeLaunch (launchOpen d t n k) n k (launchTick d n k) (line d n).l0No true := by
  have hgo : ((line d n).launched && lineState d n != 4) = false := by
    rcases hno with h | h <;> simp [h]
  rw [doSlotLaunch_due t h, hgo]; rfl

/-! ## Starts (R87) -/

/-- The clusters that line `n` needs are ready, and the lead of 200 ticks has passed. -/
def startReady (d : Dev) (t n : Nat) : Dev :=
  (keepSet d n).foldl (fun d c => if (cluster d c.1 c.2).waking then clusterReady d c.1 c.2 else d)
    (advance d (max t (readyTick d (keepSet d n) + 200)))

theorem doLineStart_starts (h : (line d n).waitWake = true) (hf : isFenced d n = false) :
    doLineStart t n d = startAt (startReady d t n) n (startReady d t n).ticks := if_neg (by simp [h, hf])

theorem doLineStart_none (h : (line d n).waitWake = false) : doLineStart t n d = advance d t := if_pos (.inl (by simp [h]))

/-! ## Gap ends (R86, R88) -/

/-- The gap of a stop that no shut-down has asked for ends: the line is OFF, by Pacer where Pacer stopped it. -/
theorem doGapEnd_stop {a : Nat} (h : (line d n).stopAt = some a) (hs : d.boot.stop = none) :
    doGapEnd t n d = lineOff (advance d (max t a)) n (if (line d n).paceStop then 6 else 0) := by
  cases hp : (line d n).paceStop <;> simp [doGapEnd, h, hs, hp]

theorem doGapEnd_dark {a : Nat} (h : (line d n).stopAt = none) (hd : (line d n).darkEnd = some a) :
    doGapEnd t n d = partnerOff (setLine (advance d (max t a)) n { line d n with darkEnd := none }) n := by
  simp [doGapEnd, h, hd]

theorem doGapEnd_none (h : (line d n).stopAt = none) (hd : (line d n).darkEnd = none) : doGapEnd t n d = advance d t := by
  simp [doGapEnd, h, hd]

end

/-! ## The commands -/

section
variable {s : State} {n : Nat} (t : Nat)

theorem gives_slot0Instant (hn : n < 12) (hs : Awake s) : Gives (.slot0Instant t n) s (doSlot0 t n s.dev) :=
  gives_of_act rfl (decide_eq_true hn) hs

theorem gives_slotLaunch {k : Nat} (hn : n < 12) (hk : k < 8) (hs : Awake s) :
    Gives (.slotLaunch t n k) s (doSlotLaunch t n k s.dev) :=
  gives_of_act rfl (by simp [hn, hk]) hs

theorem gives_lineStart (hn : n < 12) (hs : Awake s) : Gives (.lineStart t n) s (doLineStart t n s.dev) :=
  gives_of_act rfl (decide_eq_true hn) hs

theorem gives_gapEnd (hn : n < 12) (hs : Awake s) : Gives (.gapEnd t n) s (doGapEnd t n s.dev) :=
  gives_of_act rfl (decide_eq_true hn) hs

end

end Sys2Proof.Machine

open Sys2Proof Sys2Proof.Machine

/-- Settles O15: each command by the branch that the line's shot clock takes. -/
theorem timelineEventsComeAtTheirInstants : Obligations.TimelineEventsComeAtTheirInstants := by
  unfold Obligations.TimelineEventsComeAtTheirInstants
  intro s t n hn hs
  refine ⟨fun e he => ?_, fun hno => ?_, fun k hk hbeyond => ?_, fun k hk hpos hen hnew hshot hon hlit => ⟨?_, ?_⟩,
    fun hw hf => ?_, fun hw => ?_, fun a ha hb hp => ?_, fun a ha hb hp => ?_, fun a ha hd => ?_, fun ha hd => ?_⟩
  · exact (gives_slot0Instant t hn hs).of_eq (doSlot0_at t he)
  · exact (gives_slot0Instant t hn hs).of_eq (doSlot0_none t hno)
  · exact (gives_slotLaunch t hn hk hs).of_eq (doSlotLaunch_beyond t hbeyond)
  · intro hl hst
    exact (gives_slotLaunch t hn hk hs).of_eq (doSlotLaunch_launches t ⟨hpos, hen, hnew, hshot, hon, hlit⟩ hl hst)
  · intro hskip
    exact (gives_slotLaunch t hn hk hs).of_eq (doSlotLaunch_skips t ⟨hpos, hen, hnew, hshot, hon, hlit⟩ hskip)
  · exact (gives_lineStart t hn hs).of_eq (doLineStart_starts t hw hf)
  · exact (gives_lineStart t hn hs).of_eq (doLineStart_none t hw)
  · exact (gives_gapEnd t hn hs).of_eq (by rw [doGapEnd_stop t ha hb, hp]; rfl)
  · exact (gives_gapEnd t hn hs).of_eq (by rw [doGapEnd_stop t ha hb, hp]; rfl)
  · exact (gives_gapEnd t hn hs).of_eq (doGapEnd_dark t ha hd)
  · exact (gives_gapEnd t hn hs).of_eq (doGapEnd_none t ha hd)

end

section
/-! PROOFS. The open-load diagnosis (R98, R99): what the OK verdict of the 64th pulse leaves of PROBE_OPEN. -/

namespace Sys2Proof.Machine

open Sys2Proof

@[simp] theorem starter_setStarter (d : Dev) (n : Nat) (x : StarterSt) : starter (setStarter d n x) n = x := by
  simp [starter, setStarter]

@[simp] theorem sv_setStarter (d : Dev) (m : Nat) (x : StarterSt) (n : Nat) (f : Fld) :
    sv (setStarter d m x) n f = sv d n f := rfl

@[simp] theorem sv_advance (d : Dev) (t n : Nat) (f : Fld) : sv (advance d t) n f = sv d n f := rfl

section
variable {d : Dev} {n q e : Nat}

/-- The 64th pulse joins the accumulation, and its verdict is given. -/
theorem diagPulse_ends (hn : (starter d n).accN = 63)
    (hj : q * 256 < e * sv d n F.STARTER_OPEN_FRAC → (starter d n).accHigh = false) :
    diagPulse d n q e = verdict (setStarter d n { starter d n with
      accN := 64, accQ := (starter d n).accQ + q, accE := (starter d n).accE + e,
      accHigh := (starter d n).accHigh || !decide (q * 256 < e * sv d n F.STARTER_OPEN_FRAC),
      accSmall := (starter d n).accSmall || decide (e < 200) }) n e := by
  have hgo : (decide (q * 256 < e * sv d n F.STARTER_OPEN_FRAC) && (starter d n).accHigh) = false := by simpa using hj
  unfold diagPulse
  dsimp only
  rw [hgo]
  simp [onlyIf, hn]

/-- The verdict is OK where no pulse had a small expected charge and their charges come to OPEN_FRAC of the expected ones. -/
theorem verdict_ok (hs : (starter d n).accSmall = false)
    (hok : (starter d n).accE * sv d n F.STARTER_OPEN_FRAC ≤ (starter d n).accQ * 256) :
    verdict d n e = okVerdict (setStarter (setR (setR (setR d (pgStarter n) F.STARTER_LAST_Q ((starter d n).accQ / 64))
        (pgStarter n) F.STARTER_LAST_VERDICT 1) (pgStarter n) F.STARTER_LAST_UNDECIDED 0) n
      { starter d n with accN := 0, accQ := 0, accE := 0, accHigh := false, accSmall := false }) n := by
  have hcode : (if (starter d n).accSmall then 3 else
      if (starter d n).accQ * 256 < (starter d n).accE * sv d n F.STARTER_OPEN_FRAC then 2 else 1) = 1 := by
    rw [hs, if_neg (not_lt.2 hok)]; rfl
  unfold verdict
  dsimp only
  rw [hcode]
  rfl

/-- An OK verdict clears a PROBE_OPEN that reads 1, and leaves any other value. -/
theorem getR_okVerdict_probeOpen (d : Dev) (n : Nat) :
    getR (okVerdict d n) (pgStarter n) F.STARTER_PROBE_OPEN =
      if getR d (pgStarter n) F.STARTER_PROBE_OPEN = 1 then 0 else getR d (pgStarter n) F.STARTER_PROBE_OPEN := by
  have hkeep : getR (bump (setR d (pgStarter n) F.STARTER_FAIL_RUN 0) (pgStarter n) F.STARTER_VERDICTS_OK) (pgStarter n)
      F.STARTER_PROBE_OPEN = getR d (pgStarter n) F.STARTER_PROBE_OPEN :=
    (getR_addC_fld _ _ 1 (by decide)).trans (getR_setR_fld _ _ _ (by decide))
  unfold okVerdict
  dsimp only
  rw [flagR, hkeep]
  by_cases h1 : getR d (pgStarter n) F.STARTER_PROBE_OPEN = 1
  · rw [if_pos h1, if_pos (beq_iff_eq.2 h1), getR_raise, getR_setR_self]; rfl
  · rw [if_neg h1, if_neg (by simpa using h1), hkeep]

theorem getR_verdict_probeOpen (hs : (starter d n).accSmall = false)
    (hok : (starter d n).accE * sv d n F.STARTER_OPEN_FRAC ≤ (starter d n).accQ * 256) :
    getR (verdict d n e) (pgStarter n) F.STARTER_PROBE_OPEN =
      if getR d (pgStarter n) F.STARTER_PROBE_OPEN = 1 then 0 else getR d (pgStarter n) F.STARTER_PROBE_OPEN := by
  have hkeep (x : StarterSt) (l v u : Nat) :
      getR (setStarter (setR (setR (setR d (pgStarter n) F.STARTER_LAST_Q l) (pgStarter n) F.STARTER_LAST_VERDICT v)
        (pgStarter n) F.STARTER_LAST_UNDECIDED u) n x) (pgStarter n) F.STARTER_PROBE_OPEN =
      getR d (pgStarter n) F.STARTER_PROBE_OPEN :=
    (getR_setR_fld _ _ _ (by decide)).trans ((getR_setR_fld _ _ _ (by decide)).trans (getR_setR_fld _ _ _ (by decide)))
  rw [verdict_ok hs hok, getR_okVerdict_probeOpen, hkeep]

theorem doPsense_judges {r : List Nat} (t : Nat) (hw : (starter d n).windows = e :: r)
    (hen : flagL d (pgStarter n) F.STARTER_DIAG_EN = true) :
    doPsense t n q d = diagPulse (setStarter (advance d t) n { starter d n with windows := r }) n (min q 65535) e := by
  have hx : starter (advance d t) n = starter d n := rfl
  unfold doPsense
  dsimp only
  rw [hx, hw]
  exact if_pos hen

/-- What the 64th pulse leaves of PROBE_OPEN where its verdict is OK: 0 for a register that held 0 or 1, and else what it
held. -/
theorem getR_doPsense_probeOpen {r : List Nat} (t : Nat) (hw : (starter d n).windows = e :: r)
    (hen : flagL d (pgStarter n) F.STARTER_DIAG_EN = true) (hn : (starter d n).accN = 63)
    (hs : (starter d n).accSmall = false) (he : 200 ≤ e)
    (hj : min q 65535 * 256 < e * sv d n F.STARTER_OPEN_FRAC → (starter d n).accHigh = false)
    (hok : ((starter d n).accE + e) * sv d n F.STARTER_OPEN_FRAC ≤ ((starter d n).accQ + min q 65535) * 256) :
    getR (doPsense t n q d) (pgStarter n) F.STARTER_PROBE_OPEN =
      if getR d (pgStarter n) F.STARTER_PROBE_OPEN = 1 then 0 else getR d (pgStarter n) F.STARTER_PROBE_OPEN := by
  rw [doPsense_judges t hw hen, diagPulse_ends (by simpa using hn) (by simpa using hj)]
  refine (getR_verdict_probeOpen ?_ ?_).trans rfl
  · simpa [hs] using he
  · simpa using hok

end

/-- Line 0 awaits the charge of its 64th pulse, and its PROBE_OPEN, a field of one bit, holds 2. -/
def wideOpen : Dev :=
  { setStarter State.reset.dev 0 { StarterSt.reset with windows := [200], accN := 63 } with
    regs := [(key (pgStarter 0) F.STARTER_PROBE_OPEN, 2)] }

theorem gives_psenseWindowEnd {s : State} {n : Nat} (t q : Nat) (hn : n < 12) (hs : Awake s) :
    Gives (.psenseWindowEnd t n q) s (doPsense t n q s.dev) := gives_of_act rfl (decide_eq_true hn) hs

end Sys2Proof.Machine

open Sys2Proof Sys2Proof.Machine

/-- Refutes O21: its clause on the 64th pulse wants PROBE_OPEN at 0 after an OK verdict, and has no premise that this field
of one bit held 0 or 1. The verdict clears a PROBE_OPEN that reads 1 (`getR_okVerdict_probeOpen`), so the 2 that it holds in
`wideOpen` stays. (`setR` keeps a field to its width, so no run from reset comes to such a state.) -/
theorem not_chargeIsDiagnosedAndLightWatched : ¬ Obligations.ChargeIsDiagnosedAndLightWatched := by
  unfold Obligations.ChargeIsDiagnosedAndLightWatched
  intro h
  obtain ⟨-, -, -, -, hsixtyFourth, -⟩ := h.1 { State.reset with dev := wideOpen } 0 0 65535 (by decide) (by decide)
  obtain ⟨u, hu, -, -, -, -, hok, -⟩ :=
    hsixtyFourth 200 [] (by decide) (by decide) (by decide) (by decide) (by decide) (by decide)
  obtain ⟨-, -, hzero, -⟩ := hok (by decide)
  have hgives := gives_psenseWindowEnd (s := { State.reset with dev := wideOpen }) (n := 0) 0 65535 (by decide) (by decide)
  have htwo : getR (doPsense 0 0 65535 wideOpen) (pgStarter 0) F.STARTER_PROBE_OPEN = 2 :=
    getR_doPsense_probeOpen (e := 200) (r := []) 0 (by decide) (by decide) (by decide) (by decide) (by decide) (by decide)
      (by decide)
  rw [Gives, hu] at hgives
  cases hgives
  rw [getR_settle, htwo] at hzero
  exact absurd hzero (by decide)

end


section
/-! PROOFS. Gain steps of the schedule and of the auto-ranging hold (R118–R122). -/

namespace Sys2Proof.Machine

open Sys2Proof

theorem gives_gainScheduleEntry {s : State} {n k : Nat} (t : Nat) (hn : n < 12) (hk : k < 16) (hs : Awake s) :
    Gives (.gainScheduleEntry t n k) s (doSchedule t n k s.dev) := gives_of_act rfl (by simp [hn, hk]) hs

theorem gives_autorangeHoldExpiry {s : State} {n : Nat} (t : Nat) (hn : n < 12) (hs : Awake s) :
    Gives (.autorangeHoldExpiry t n) s (doHoldEnd t n s.dev) := gives_of_act rfl (by simp [hn]) hs

/-! ### A change of gain where none is in progress (R118, R120) -/

/-- A change that finds no other one listed keeps its sample: nothing slips, and the depth shown is the one it comes to. -/
theorem gainAsk_alone {d : Dev} {n : Nat} (s : Nat) (g : Option Nat) (dep : Int) (h : (rx d n).steps = []) :
    let v := ((rx d n).gnom, (rx d n).depth)
    let w := gainApply v ⟨s, g, dep⟩
    gainAsk d n s g dep =
      (setR (setRx d n { rx d n with steps := [⟨s, g, dep⟩] }) (pgRx n) F.RX_AR_DEPTH w.2, gainOf w != gainOf v) := by
  have hput : spaceSteps ((rx d n).gnom, (rx d n).depth) none none (stepPut ⟨s, g, dep⟩ (rx d n).steps) =
      ([⟨s, g, dep⟩], 0) := by
    rw [h]; rfl
  have hvals : gainVals (rx d n) s = ((rx d n).gnom, (rx d n).depth) := by rw [gainVals, h]; rfl
  unfold gainAsk gainAt
  dsimp only
  rw [hput, hvals]
  rfl

/-- The gain of a line whose only change is one step. -/
theorem gainAt_single {x : RxSt} {s : Nat} {g : Option Nat} {dep : Int} (h : x.steps = [⟨s, g, dep⟩]) :
    gainAt x s = gainOf (gainApply (x.gnom, x.depth) ⟨s, g, dep⟩) := by
  rw [gainAt, gainVals, h, List.filter_cons_of_pos (by simp)]; rfl

theorem gainSteps_single {x : RxSt} {s : Nat} {g : Option Nat} {dep : Int} (h : x.steps = [⟨s, g, dep⟩])
    (hc : gainOf (gainApply (x.gnom, x.depth) ⟨s, g, dep⟩) ≠ gainOf (x.gnom, x.depth)) : gainSteps x = [s] := by
  rw [gainSteps, h, stepsFrom, if_neg hc]; rfl

/-- A change of gain that finds no other one listed is listed as asked for, and cause `c` counts it where it changes the code. -/
theorem gainSet_alone {d : Dev} {n : Nat} (s : Nat) (g : Option Nat) (dep : Int) (c : Nat) {w : Nat × Nat}
    (h : (rx d n).steps = []) (hw : gainApply ((rx d n).gnom, (rx d n).depth) ⟨s, g, dep⟩ = w) :
    gainSet d n s g dep [c] =
      onlyIf (gainOf w != gainOf ((rx d n).gnom, (rx d n).depth)) (fun d => bump d (pgRx n) (stepCounter c))
        (setR (setRx d n { rx d n with steps := [⟨s, g, dep⟩] }) (pgRx n) F.RX_AR_DEPTH w.2) := by
  subst hw
  unfold gainSet
  dsimp only
  rw [gainAsk_alone s g dep h]
  rfl

/-- Such a change leaves all but registers and the steps of the line as it was. -/
theorem gainSet_alone_frame {d : Dev} {n : Nat} (s : Nat) (g : Option Nat) (dep : Int) (c : Nat) (h : (rx d n).steps = []) :
    ∃ r, gainSet d n s g dep [c] = { setRx d n { rx d n with steps := [⟨s, g, dep⟩] } with regs := r } := by
  rw [gainSet_alone s g dep c h rfl, onlyIf, bump, addC_eq]
  split
  · exact ⟨_, rfl⟩
  · exact ⟨_, rfl⟩

theorem rx_gainSet_alone {d : Dev} {n : Nat} (s : Nat) (g : Option Nat) (dep : Int) (c : Nat) (h : (rx d n).steps = []) :
    rx (gainSet d n s g dep [c]) n = { rx d n with steps := [⟨s, g, dep⟩] } := by
  obtain ⟨r, hr⟩ := gainSet_alone_frame s g dep c h
  rw [hr]
  exact rx_setRx ..

/-- A schedule entry or GAIN that changes the code without a step in progress is counted as such, and no other register but the
depth shown moves. -/
theorem gainSet_alone_counted {d : Dev} {n : Nat} (s : Nat) (g : Option Nat) (dep : Int) (h : (rx d n).steps = [])
    (hc : gainOf (gainApply ((rx d n).gnom, (rx d n).depth) ⟨s, g, dep⟩) ≠ gainOf ((rx d n).gnom, (rx d n).depth)) :
    let a := gainSet d n s g dep [0]
    getR a (pgRx n) F.RX_STEPS_SCHED = min (getR d (pgRx n) F.RX_STEPS_SCHED + 1) (2 ^ 32 - 1) ∧
    RegsBut [(pgRx n, F.RX_STEPS_SCHED), (pgRx n, F.RX_AR_DEPTH)] a d := by
  intro a
  have ha := gainSet_alone s g dep 0 h rfl
  rw [bne_iff_ne.2 hc] at ha
  have ha : a = bump _ (pgRx n) F.RX_STEPS_SCHED := ha
  refine ⟨?_, fun p f hf => ?_⟩
  · rw [ha, bump, getR_addC_narrow _ _ _ (by decide), getR_setR_fld _ _ _ (by decide)]; rfl
  · simp only [List.mem_cons, List.not_mem_nil, or_false, forall_eq_or_imp, forall_eq] at hf
    rw [ha, bump, addC_eq, getR_setR_ne _ _ hf.1, getR_setR_ne _ _ hf.2]; rfl

/-! ### Schedule entries (R119) -/

/-- The sample tick of schedule entry `k`. -/
def schedAt (d : Dev) (n k : Nat) : Nat := sampleOf (line d n).l0 + getL d (pgRx n) (F.RX_OFFSET k)

theorem doSchedule_applies {d : Dev} {n k e : Nat} (t : Nat) (hon : schedOn d n k = true) (hk : k ∉ (rx d n).schedDone)
    (hnext : (line d n).next = some e) (hsoon : schedAt d n k < sampleOf e) :
    doSchedule t n k d =
      gainSet (setRx (advance d (max t (schedAt d n k / 5))) n { rx d n with schedDone := (rx d n).schedDone ++ [k] }) n
        (schedAt d n k) (some (min 60 (getL d (pgRx n) (F.RX_CODE k)))) 0 [0] := by
  unfold doSchedule
  refine if_pos ?_
  rw [hnext, hon, Option.any_some, Bool.true_and, Bool.and_eq_true, decide_eq_true_eq]
  exact ⟨hsoon, by simpa using hk⟩

theorem doSchedule_not {d : Dev} {n k : Nat} (t : Nat)
    (h : schedOn d n k = false ∨ k ∈ (rx d n).schedDone ∨ ∃ e, (line d n).next = some e ∧ sampleOf e ≤ schedAt d n k) :
    doSchedule t n k d = advance d t := by
  unfold doSchedule
  refine if_neg ?_
  rcases h with h | h | ⟨e, h, he⟩
  · simp [h]
  · simp [h]
  · rw [h, Option.any_some]
    change ¬(_ && decide (schedAt d n k < sampleOf e) && _) = true
    simp [not_lt.2 he]

/-- A schedule entry that changes the code of a line without a step in progress: one step, at its sample, that is counted. -/
theorem doSchedule_steps {d : Dev} {n k e : Nat} (t : Nat) (hon : schedOn d n k = true) (hk : k ∉ (rx d n).schedDone)
    (hnext : (line d n).next = some e) (hsoon : schedAt d n k < sampleOf e) (hsteps : (rx d n).steps = [])
    (hcode : gainCode (min 60 (getL d (pgRx n) (F.RX_CODE k))) (rx d n).depth ≠ gainCode (rx d n).gnom (rx d n).depth) :
    let a := doSchedule t n k d
    gainAt (rx a n) (schedAt d n k) = gainCode (min 60 (getL d (pgRx n) (F.RX_CODE k))) (rx d n).depth ∧
    gainSteps (rx a n) = [schedAt d n k] ∧ schedAt d n k / 5 ≤ a.ticks ∧
    getR a (pgRx n) F.RX_STEPS_SCHED = min (getR d (pgRx n) F.RX_STEPS_SCHED + 1) (2 ^ 32 - 1) ∧
    RegsBut [(pgRx n, F.RX_STEPS_SCHED), (pgRx n, F.RX_AR_DEPTH)] a d ∧ a.evt = d.evt ∧ a.mem = d.mem := by
  intro a
  let b := setRx (advance d (max t (schedAt d n k / 5))) n { rx d n with schedDone := (rx d n).schedDone ++ [k] }
  let c := min 60 (getL d (pgRx n) (F.RX_CODE k))
  have ha : a = gainSet b n (schedAt d n k) (some c) 0 [0] := doSchedule_applies t hon hk hnext hsoon
  have hb : rx b n = { rx d n with schedDone := (rx d n).schedDone ++ [k] } := rx_setRx ..
  have hbsteps : (rx b n).steps = [] := by rw [hb]; exact hsteps
  have happly : gainApply ((rx d n).gnom, (rx d n).depth) ⟨schedAt d n k, some c, 0⟩ = (c, (rx d n).depth) := by
    simp [gainApply]
  obtain ⟨hcount, hregs⟩ := gainSet_alone_counted (schedAt d n k) (some c) 0 hbsteps (by rw [hb, happly]; exact hcode)
  have hrx := rx_gainSet_alone (schedAt d n k) (some c) 0 0 hbsteps
  obtain ⟨r, hr⟩ := gainSet_alone_frame (schedAt d n k) (some c) 0 0 hbsteps
  rw [← ha] at hcount hregs hrx hr
  rw [hb] at hrx
  refine ⟨?_, ?_, ?_, hcount, hregs, by rw [hr]; rfl, by rw [hr]; rfl⟩
  · rw [hrx, gainAt_single rfl, happly]; rfl
  · rw [hrx, gainSteps_single rfl (by rw [happly]; exact hcode)]
  · rw [hr]; exact le_max_of_le_right (le_max_right _ _)

/-! ### The end of the auto-ranging hold (R122) -/

/-- The sample tick at which the hold ends. -/
def holdEndAt (d : Dev) (n : Nat) : Nat := (rx d n).holdFrom + 64 * max 1 (getL d (pgRx n) F.RX_AR_HOLD)

theorem doHoldEnd_reduces {d : Dev} {n : Nat} (t : Nat) (h : 0 < (gainEnd (rx d n)).2) :
    doHoldEnd t n d =
      (let a := gainSet (advance d (max t (holdEndAt d n / 5))) n (holdEndAt d n) none (-1) [2]
       setRx a n { rx a n with holdFrom := holdEndAt d n }) := by
  unfold doHoldEnd
  exact if_neg h.ne'

theorem doHoldEnd_zero {d : Dev} {n : Nat} (t : Nat) (h : (gainEnd (rx d n)).2 = 0) : doHoldEnd t n d = advance d t := by
  unfold doHoldEnd
  exact if_pos h

theorem doHoldEnd_steps {d : Dev} {n : Nat} (t : Nat) (hsteps : (rx d n).steps = []) (hdepth : 0 < (rx d n).depth) :
    let a := doHoldEnd t n d
    gainEnd (rx a n) = ((rx d n).gnom, (rx d n).depth - 1) ∧ (rx a n).holdFrom = holdEndAt d n ∧
    holdEndAt d n / 5 ≤ a.ticks ∧ a.mem = d.mem ∧ a.epochs = d.epochs := by
  intro a
  have hend : (gainEnd (rx d n)).2 = (rx d n).depth := by rw [gainEnd, hsteps]; rfl
  have ha := doHoldEnd_reduces (d := d) (n := n) t (by rwa [hend])
  obtain ⟨r, hr⟩ := gainSet_alone_frame (d := advance d (max t (holdEndAt d n / 5))) (holdEndAt d n) none (-1) 2 hsteps
  have hset := rx_gainSet_alone (d := advance d (max t (holdEndAt d n / 5))) (holdEndAt d n) none (-1) 2 hsteps
  dsimp only at ha
  rw [hset, hr] at ha
  have ha : a = _ := ha
  refine ⟨?_, ?_, ?_, ?_, ?_⟩
  · rw [ha, rx_setRx]
    refine Prod.ext rfl ?_
    change (((rx d n).depth : Int) + -1).toNat = (rx d n).depth - 1
    omega
  · rw [ha, rx_setRx]
  · rw [ha]; exact le_max_of_le_right (le_max_right _ _)
  · rw [ha]; rfl
  · rw [ha]; rfl

end Sys2Proof.Machine

open Sys2Proof Sys2Proof.Machine

/-- Settles O18: what a schedule entry and the end of a hold do is their branches, and a change where no step is in progress
takes its place unmoved (`gainSet_alone`). -/
theorem gainStepsComeFromScheduleAndHold : Obligations.GainStepsComeFromScheduleAndHold := by
  unfold Obligations.GainStepsComeFromScheduleAndHold
  intro s t n hn hs x
  refine ⟨?_, ?_, ?_, ?_, ?_⟩
  · intro k hk h
    exact (gives_gainScheduleEntry t hn hk hs).of_eq (doSchedule_not t (h.imp_right .inl))
  · intro k hk e at_ hnext hlate
    exact (gives_gainScheduleEntry t hn hk hs).of_eq (doSchedule_not t (.inr (.inr ⟨e, hnext, hlate⟩)))
  · intro k hk e hon hdone hnext c at_ hsoon
    have hg := gives_gainScheduleEntry t hn hk hs
    refine ⟨hg.of_eq (doSchedule_applies t hon hdone hnext hsoon), fun hsteps hcode => does_of_gives hg ?_⟩
    simp only [RegsBut, rx_settle, getR_settle, settle_evt, settle_mem, settle_ticks]
    exact doSchedule_steps t hon hdone hnext hsoon hsteps hcode
  · exact fun h => (gives_autorangeHoldExpiry t hn hs).of_eq (doHoldEnd_zero t h)
  · have hg := gives_autorangeHoldExpiry t hn hs
    refine ⟨fun h => hg.of_eq (doHoldEnd_reduces t h), fun hsteps hdepth => does_of_gives hg ?_⟩
    simp only [rx_settle, settle_mem, settle_ticks, settle_epochs]
    exact doHoldEnd_steps t hsteps hdepth

end

section
/-! PROOFS. Converter cores that fail, pass a re-test and are replaced (R124–R127). -/

namespace Sys2Proof.Machine

open Sys2Proof

/-! ### The commands as their effects -/

theorem gives_failCore {s : State} {n : Nat} (t i : Nat) (hn : n < 12) (hs : Awake s) (h : Reach s.dev (pgRx n)) :
    Gives (.failCore t n i) s (failCore (advance s.dev t) n i) :=
  (gives_of_act (f := fun d => onPage (pgRx n) (fun d => failCore d n i) (advance d t)) rfl (by simp [hn]) hs).of_eq
    (onPage_reach _ (reach_advance h))

theorem gives_spareSubstitution {s : State} {n : Nat} (t : Nat) (hn : n < 12) (hs : Awake s) :
    Gives (.spareSubstitution t n) s (doSubstitute t n s.dev) := gives_of_act rfl (by simp [hn]) hs

theorem gives_requal {s : State} {n : Nat} (t : Nat) (hn : n < 12) (hs : Awake s) :
    Gives (.requal t n) s (doRequal t n s.dev) := gives_of_act rfl (by simp [hn]) hs

theorem gives_requalDone {s : State} {n : Nat} (t : Nat) (l : List Nat) (hn : n < 12) (hs : Awake s) :
    Gives (.requalDone t n l) s (doRequalDone t n l s.dev) := gives_of_act rfl (by simp [hn]) hs

@[simp] theorem isCal_settle (d : Dev) (p u : Nat) : isCal (settle d) p u = isCal d p u := by simp [isCal]
@[simp] theorem coreAt_settle (d : Dev) (p i : Nat) : coreAt (settle d) p i = coreAt d p i := by simp [coreAt]
@[simp] theorem isFailed_settle (d : Dev) (n c : Nat) : isFailed (settle d) n c = isFailed d n c := by simp [isFailed]
@[simp] theorem inputOf_settle (d : Dev) (n c : Nat) : inputOf (settle d) n c = inputOf d n c := by simp [inputOf, isAway]

/-! ### Folds of which at most one step does something -/

theorem foldl_of_fixed {α : Type} {f : Dev → α → Dev} {l : List α} {d : Dev} (h : ∀ b ∈ l, f d b = d) : l.foldl f d = d := by
  induction l with
  | nil => rfl
  | cons b l ih =>
    rw [List.foldl_cons, h b (by simp)]
    exact ih fun c hc => h c (by simp [hc])

/-- A fold whose other steps do nothing, before the step for `a` and after it, is that step. -/
theorem foldl_of_fixed_but {α : Type} {f : Dev → α → Dev} {l : List α} {a : α} {d : Dev} (ha : a ∈ l) (hnd : l.Nodup)
    (hbefore : ∀ b ∈ l, b ≠ a → f d b = d) (hafter : ∀ b ∈ l, b ≠ a → f (f d a) b = f d a) : l.foldl f d = f d a := by
  obtain ⟨l₁, l₂, rfl⟩ := List.append_of_mem ha
  have hne : ∀ b ∈ l₁ ++ l₂, b ≠ a := by
    rintro b hb rfl
    exact (List.nodup_cons.1 (List.nodup_middle.1 hnd)).1 hb
  rw [List.foldl_append, List.foldl_cons, foldl_of_fixed (l := l₁) fun b hb => hbefore b (by simp [hb]) (hne b (by simp [hb]))]
  exact foldl_of_fixed fun b hb => hafter b (by simp [hb]) (hne b (by simp [hb]))

/-! ### What the map of a line's cores shows (R129) -/

/-- The fields of the RX page that follow the map: CORE_SPARE, SPARE_READY, SPARE_IN_USE, POL_X_LOST and POL_Y_LOST. -/
def shownFlds : List Nat :=
  [F.RX_CORE_SPARE, F.RX_SPARE_READY, F.RX_SPARE_IN_USE, F.RX_POL_X_LOST, F.RX_POL_Y_LOST].map fldAt

/-- From `d` to `e` only registers have moved, and on the RX page of line `n` only fields that follow the map. -/
structure CoresShown (n : Nat) (d e : Dev) : Prop where
  frame : ∃ r, e = { d with regs := r }
  kept : ∀ f, fldAt f < 131072 → fldAt f ∉ shownFlds → getR e (pgRx n) f = getR d (pgRx n) f

theorem CoresShown.refl (n : Nat) (d : Dev) : CoresShown n d d := ⟨⟨d.regs, rfl⟩, fun _ _ _ => rfl⟩

theorem CoresShown.trans (n : Nat) (a b c : Dev) : CoresShown n a b → CoresShown n b c → CoresShown n a c := by
  rintro ⟨⟨r, rfl⟩, h⟩ ⟨⟨r', rfl⟩, g⟩
  exact ⟨⟨r', rfl⟩, fun f hf hs => (g f hf hs).trans (h f hf hs)⟩

theorem setR_coresShown (n : Nat) (d : Dev) {f : Fld} (v : Nat) (h : fldAt f ∈ shownFlds) :
    CoresShown n d (setR d (pgRx n) f v) :=
  ⟨⟨_, rfl⟩, fun _ _ hg => getR_setR_fld d _ v fun he => hg (he ▸ h)⟩

theorem rxShow_coresShown (d : Dev) (n : Nat) : CoresShown n d (rxShow d n) := by
  unfold rxShow
  extract_lets p e1 e2
  have h1 : CoresShown n d e1 := setR_coresShown n d _ (by decide)
  have h2 : CoresShown n e1 e2 := setR_coresShown n e1 _ (by decide)
  exact .trans _ _ _ _ h1 (.trans _ _ _ _ h2 (setR_coresShown n e2 _ (by decide)))

theorem polShow_coresShown (d : Dev) (n : Nat) : CoresShown n d (polShow d n) := by
  unfold polShow
  extract_lets ok e
  have h1 : CoresShown n d e := onlyIf_rel (f := fun d => setR d (pgRx n) F.RX_POL_X_LOST 0) (CoresShown.refl n) d _
    (setR_coresShown n d _ (by decide))
  exact .trans _ _ _ _ h1 (onlyIf_rel (f := fun d => setR d (pgRx n) F.RX_POL_Y_LOST 0) (CoresShown.refl n) e _
    (setR_coresShown n e _ (by decide)))

theorem calShow_coresShown (d : Dev) (n : Nat) : CoresShown n d (calShow d n) :=
  ⟨⟨_, rfl⟩, fun _ hf _ => getR_setR_page d _ (by unfold pgCal pgRx; omega) (by decide) hf⟩

/-- What holds of the four fields of the map holds of the one for input `i`. -/
theorem coreFld_forall {P : Fld → Prop} (i : Nat) (h : ∀ f ∈ [F.RX_CORE_XI, F.RX_CORE_XQ, F.RX_CORE_YI, F.RX_CORE_YQ], P f) :
    P (coreFld i) := by
  refine h _ ?_
  unfold coreFld
  split
  · simp
  · split
    · simp
    · split <;> simp

theorem coreFld_injective {i j : Nat} (hi : i < 4) (hj : j < 4) (h : i ≠ j) : fldAt (coreFld i) ≠ fldAt (coreFld j) := by
  have hall : ∀ i < 4, ∀ j < 4, i ≠ j → fldAt (coreFld i) ≠ fldAt (coreFld j) := by decide
  exact hall i hi j hj h

theorem CoresShown.coreAt_eq {n : Nat} {d e : Dev} (h : CoresShown n d e) (i : Nat) :
    coreAt e (pgRx n) i = coreAt d (pgRx n) i :=
  h.kept _ (coreFld_forall (P := fun f => fldAt f < 131072) i (by decide))
    (coreFld_forall (P := fun f => fldAt f ∉ shownFlds) i (by decide))

theorem isFailed_congr {n : Nat} {d e : Dev} (h : getR e (pgRx n) F.RX_FAILED = getR d (pgRx n) F.RX_FAILED) (c : Nat) :
    isFailed e n c = isFailed d n c := by rw [isFailed, h, isFailed]

theorem CoresShown.isFailed_eq {n : Nat} {d e : Dev} (h : CoresShown n d e) (c : Nat) : isFailed e n c = isFailed d n c :=
  isFailed_congr (h.kept _ (by decide) (by decide)) c

theorem CoresShown.isAway_eq {n : Nat} {d e : Dev} (h : CoresShown n d e) (c : Nat) : isAway e n c = isAway d n c := by
  obtain ⟨r, rfl⟩ := h.frame; rfl

theorem isAway_iff {d : Dev} {n c : Nat} : isAway d n c = true ↔ c ∈ (rx d n).away := List.contains_iff_mem

/-- Which input a core serves follows from the map and from the cores that are away. -/
theorem inputOf_congr {n c : Nat} {d e : Dev} (h : ∀ i, coreAt e (pgRx n) i = coreAt d (pgRx n) i)
    (ha : isAway e n c = isAway d n c) : inputOf e n c = inputOf d n c := by
  simp only [inputOf, h, ha]

/-- A core that is away serves no input (R127). -/
theorem inputOf_of_isAway {n c : Nat} {d : Dev} (h : isAway d n c = true) : inputOf d n c = 0 := by
  unfold inputOf
  split
  · exact if_pos h
  · rfl

/-! ### The FAILED bits -/

theorem isFailed_setR {n c : Nat} (d : Dev) (v : Nat) (hc : c < 5) :
    isFailed (setR d (pgRx n) F.RX_FAILED v) n c = v.testBit c := by
  rw [isFailed, bit_eq_testBit, getR_setR_self, Nat.testBit_mod_two_pow, decide_eq_true (show c < F.RX_FAILED.width from hc),
    Bool.true_and]

theorem testBit_failed (d : Dev) (n c : Nat) : (getR d (pgRx n) F.RX_FAILED).testBit c = isFailed d n c :=
  (bit_eq_testBit _ _).symm

/-! ### A core is declared FAILED (R124) -/

/-- From `d` to `e` core `c` of line `n`, alone, has been declared FAILED, with its event and its entry. -/
structure DeclaredFailed (n c : Nat) (d e : Dev) : Prop where
  failed : c < 5 → isFailed e n c = true
  others : ∀ b < 5, b ≠ c → isFailed e n b = isFailed d n b
  event : (evtRaw e (pgRx n)).testBit 8 = true
  entry : e.ledgerOut.length = d.ledgerOut.length + 1
  mem : e.mem = d.mem

theorem DeclaredFailed.shown {n c : Nat} {d e g : Dev} (h : DeclaredFailed n c d e) (hs : CoresShown n e g) :
    DeclaredFailed n c d g := by
  have hf := hs.isFailed_eq
  obtain ⟨r, rfl⟩ := hs.frame
  exact { h with failed := fun hc => (hf c).trans (h.failed hc), others := fun b hb hne => (hf b).trans (h.others b hb hne) }

theorem declareFailed_spec {d : Dev} {n c : Nat} (cause : Nat) (hc : isFailed d n c = false) (hrun : (calSt d n).run ≠ 2) :
    DeclaredFailed n c d (declareFailed d n c cause) := by
  unfold declareFailed
  extract_lets p e1 e2 x e3 k
  have hbits : ∀ b < 5, isFailed e2 n b = (isFailed d n b || decide (c = b)) := fun b hb => by
    refine (isFailed_setR d _ hb).trans ?_
    rw [Nat.testBit_or, testBit_failed, Nat.testBit_two_pow]
  have hrun3 : (calSt e3 n).run ≠ 2 := by
    obtain ⟨r, hr⟩ := (rxShow_coresShown (setRx e2 n _) n).frame
    simp only [e3]
    rw [hr]
    exact hrun
  have hidle : (k.run == 2) = false := by simpa [k] using hrun3
  rw [if_neg (by simp [hc]), hidle]
  refine DeclaredFailed.shown (e := setRx e2 n _) ?_ (rxShow_coresShown _ n)
  exact {
    failed := fun h5 => (hbits c h5).trans (by simp)
    others := fun b hb hne => (hbits b hb).trans (by simp [hne.symm])
    event := raise_bit _ p 8
    entry := List.length_append
    mem := rfl }

theorem failCore_none (d : Dev) (n : Nat) {i : Nat} (h : i = 0 ∨ 4 < i) : failCore d n i = d := by
  unfold failCore
  exact if_neg (by omega)

theorem failCore_input (d : Dev) (n : Nat) {i : Nat} (h : i < 4) :
    failCore d n (i + 1) = calShow (declareFailed d n (coreAt d (pgRx n) i) 2) n := by
  unfold failCore
  exact if_pos (by omega)

theorem declareFailed_already {d : Dev} {n c : Nat} (cause : Nat) (h : isFailed d n c = true) : declareFailed d n c cause = d := by
  unfold declareFailed
  exact if_pos h

/-! ### The unit of a core that takes a new role (R14, R125, R127) -/

theorem regionOf_pgRx {n : Nat} (hn : n < 12) : regionOf (pgRx n) = some n := by
  have hall : ∀ n < 12, regionOf (pgRx n) = some n := by decide
  exact hall n hn

/-- Core `c` of line `n` becomes CAL_STALE, and STALE unless it catches up at once, where `lead` holds. -/
def freshUnit (d : Dev) (n c : Nat) (lead : Bool) : Dev :=
  setCal (if lead then makeCurrent (enterStale d (pgRx n) c) (pgRx n) c else enterStale d (pgRx n) c) (pgRx n) c true

/-- From `d` to `e` only units and events have moved, and core `c` of line `n` is CAL_STALE, and current where `lead` holds. -/
structure Refreshed (n c : Nat) (lead : Bool) (d e : Dev) : Prop where
  regs : e.regs = d.regs
  rx : e.rx = d.rx
  lines : e.lines = d.lines
  ledgerOut : e.ledgerOut = d.ledgerOut
  mem : e.mem = d.mem
  cal : isCal e (pgRx n) c = true
  stale : isStale e (pgRx n) c = !lead
  current : lead = true → unitEpochOf e (pgRx n) c = epoch d n

theorem isCal_setCal (d : Dev) (p u : Nat) (b : Bool) : isCal (setCal d p u b) p u = b := Store.get_set_self ..

theorem makeCurrent_current (d : Dev) {p r : Nat} (u : Nat) (h : regionOf p = some r) :
    isStale (makeCurrent d p u) p u = false ∧ unitEpochOf (makeCurrent d p u) p u = epoch d r := by
  rw [makeCurrent_eq u h]
  exact ⟨by simp [isStale], by simp [unitEpochOf]⟩

theorem freshUnit_refreshed (d : Dev) {n : Nat} (c : Nat) (lead : Bool) (hn : n < 12) :
    Refreshed n c lead d (freshUnit d n c lead) := by
  obtain ⟨⟨us, ev, hst⟩, -⟩ := enterStale_more d (pgRx n) c
  have hcal : isCal (freshUnit d n c lead) (pgRx n) c = true := isCal_setCal ..
  cases lead with
  | false =>
    have heq : freshUnit d n c false = setCal (enterStale d (pgRx n) c) (pgRx n) c true := rfl
    have hstale : isStale (freshUnit d n c false) (pgRx n) c = true := isStale_enterStale d (pgRx n) c
    rw [hst] at heq
    rw [heq] at hcal hstale ⊢
    exact ⟨rfl, rfl, rfl, rfl, rfl, hcal, hstale, nofun⟩
  | true =>
    have heq : freshUnit d n c true = setCal (makeCurrent (enterStale d (pgRx n) c) (pgRx n) c) (pgRx n) c true := rfl
    obtain ⟨hstale, hepoch⟩ : isStale (freshUnit d n c true) (pgRx n) c = false ∧
        unitEpochOf (freshUnit d n c true) (pgRx n) c = epoch (enterStale d (pgRx n) c) n :=
      makeCurrent_current (enterStale d (pgRx n) c) c (regionOf_pgRx hn)
    rw [makeCurrent_eq c (regionOf_pgRx hn), hst] at heq
    rw [heq, hst] at hepoch
    rw [heq] at hcal hstale ⊢
    exact ⟨rfl, rfl, rfl, rfl, rfl, hcal, hstale, fun _ => hepoch⟩

theorem calDue_frame (d : Dev) (n c : Nat) : ∃ l, calDue d n c = { d with calPend := l } := by
  unfold calDue
  dsimp only
  split
  · exact ⟨d.calPend, rfl⟩
  · exact ⟨_, rfl⟩

/-- The cause is pending. -/
theorem mem_calDue (d : Dev) (n c : Nat) : c ∈ Store.get (calDue d n c).calPend [] n := by
  unfold calDue
  dsimp only
  split
  case isTrue h => simpa using h
  case isFalse => simp

/-! ### The lowest ready core takes an input (R125) -/

/-- From `d` to `e` core `c` has taken input `i` of line `n`: the rest of the map stands, no other core has failed or is away,
and the core is as R125 says. -/
structure Takes (n i c : Nat) (d e : Dev) : Prop where
  core : coreAt e (pgRx n) i = c
  others : ∀ j < 4, j ≠ i → coreAt e (pgRx n) j = coreAt d (pgRx n) j
  failed : ∀ b, isFailed e n b = isFailed d n b
  away : ∀ b, isAway e n b = true → isAway d n b = true
  cal : isCal e (pgRx n) c = true
  stale : isStale e (pgRx n) c = !leadMet d n (pgRx n) d.ticks
  current : leadMet d n (pgRx n) d.ticks = true → unitEpochOf e (pgRx n) c = epoch d n
  due : 3 ∈ Store.get e.calPend [] (coreOwner d n)
  event : (evtRaw e (pgRx n)).testBit 9 = true
  count : getR e (pgRx n) F.RX_SUBSTITUTIONS = min (getR d (pgRx n) F.RX_SUBSTITUTIONS + 1) (2 ^ 32 - 1)
  mem : e.mem = d.mem

theorem Takes.shown {n i c : Nat} {d e g : Dev} (h : Takes n i c d e) (hs : CoresShown n e g) : Takes n i c d g := by
  have hcore := hs.coreAt_eq
  have hfail := hs.isFailed_eq
  have hcount := hs.kept F.RX_SUBSTITUTIONS (by decide) (by decide)
  obtain ⟨r, rfl⟩ := hs.frame
  exact { h with
    core := (hcore i).trans h.core
    others := fun j hj hne => (hcore j).trans (h.others j hj hne)
    failed := fun b => (hfail b).trans (h.failed b)
    count := hcount.trans h.count }

theorem lt_of_mem_readyCores {d : Dev} {n c : Nat} (h : c ∈ readyCores d n) : c < 5 := by
  simp only [readyCores, spareRole, List.mem_filter, List.mem_range] at h
  exact h.1.1

theorem substitute_none {d : Dev} {n : Nat} (i : Nat) (h : readyCores d n = []) : substitute d n i = d := by
  unfold substitute
  rw [h]
  rfl

/-- Core `c` stands in the map for input `i`, with its unit refreshed and its service from now on. -/
def takeInput (d : Dev) (n i c : Nat) : Dev :=
  let old := coreAt d (pgRx n) i
  let e := freshUnit (setR d (pgRx n) (coreFld i) c) n c (leadMet d n (pgRx n) d.ticks)
  setRx e n { rx e n with failAt := Store.erase (rx e n).failAt old, away := (rx e n).away.filter (fun a => a != c && a != old),
                          serveFrom := Store.set (rx e n).serveFrom 0 c e.ticks }

theorem takeInput_refreshed (d : Dev) {n : Nat} (i c : Nat) (hn : n < 12) :
    let e := takeInput d n i c
    let lead := leadMet d n (pgRx n) d.ticks
    e.regs = (setR d (pgRx n) (coreFld i) c).regs ∧ e.lines = d.lines ∧ e.mem = d.mem ∧
    (∀ b, isAway e n b = true → isAway d n b = true) ∧
    isCal e (pgRx n) c = true ∧ isStale e (pgRx n) c = !lead ∧ (lead = true → unitEpochOf e (pgRx n) c = epoch d n) := by
  have h := freshUnit_refreshed (setR d (pgRx n) (coreFld i) c) c (leadMet d n (pgRx n) d.ticks) hn
  refine ⟨h.regs, h.lines, h.mem, fun b hb => ?_, h.cal, h.stale, h.current⟩
  rw [isAway_iff, takeInput, rx_setRx] at hb
  have hmem := (List.mem_filter.1 hb).1
  rw [rx, h.rx] at hmem
  exact isAway_iff.2 hmem

theorem substitute_eq {d : Dev} {n i c : Nat} (hn : n < 12) (hc : (readyCores d n).head? = some c) :
    substitute d n i =
      rxShow (polShow (calDue (raise (bump (takeInput d n i c) (pgRx n) F.RX_SUBSTITUTIONS) (pgRx n) 9) (coreOwner d n) 3) n) n := by
  have hlead : leadMet (enterStale (setR d (pgRx n) (coreFld i) c) (pgRx n) c) n (pgRx n)
      (enterStale (setR d (pgRx n) (coreFld i) c) (pgRx n) c).ticks = leadMet d n (pgRx n) d.ticks := by
    obtain ⟨⟨us, ev, hst⟩, -⟩ := enterStale_more (setR d (pgRx n) (coreFld i) c) (pgRx n) c
    rw [hst]; rfl
  have howner : coreOwner (raise (bump (takeInput d n i c) (pgRx n) F.RX_SUBSTITUTIONS) (pgRx n) 9) n = coreOwner d n := by
    obtain ⟨-, hlines, -⟩ := takeInput_refreshed d i c hn
    rw [coreOwner, line, bump, addC_eq]
    change (if ((takeInput d n i c).lines.get LineSt.reset n).base = 6 then _ else _) = _
    rw [hlines]
    rfl
  rw [← howner]
  unfold substitute
  simp only [hc]
  rw [hlead]
  rfl

theorem substitute_takes {d : Dev} {n i c : Nat} (hn : n < 12) (hi : i < 4) (hc : (readyCores d n).head? = some c) :
    Takes n i c d (substitute d n i) := by
  have hc5 : c < 5 := lt_of_mem_readyCores (List.mem_of_head? hc)
  obtain ⟨hregs, -, hmem, haway, hcal, hstale, hcurrent⟩ := takeInput_refreshed d i c hn
  rw [substitute_eq hn hc]
  refine Takes.shown (Takes.shown ?_ (polShow_coresShown _ n)) (rxShow_coresShown _ n)
  generalize takeInput d n i c = a at *
  have hdue := mem_calDue (raise (bump a (pgRx n) F.RX_SUBSTITUTIONS) (pgRx n) 9) (coreOwner d n) 3
  obtain ⟨l, hl⟩ := calDue_frame (raise (bump a (pgRx n) F.RX_SUBSTITUTIONS) (pgRx n) 9) (coreOwner d n) 3
  rw [hl] at hdue ⊢
  have hreg (f : Fld) : getR a (pgRx n) f = getR (setR d (pgRx n) (coreFld i) c) (pgRx n) f := getR_congr hregs _ f
  have hother (f : Fld) (hf : fldAt F.RX_SUBSTITUTIONS ≠ fldAt f) :
      getR (bump a (pgRx n) F.RX_SUBSTITUTIONS) (pgRx n) f = getR (setR d (pgRx n) (coreFld i) c) (pgRx n) f :=
    (getR_addC_fld a (pgRx n) 1 hf).trans (hreg f)
  have hmap (j : Nat) : fldAt F.RX_SUBSTITUTIONS ≠ fldAt (coreFld j) := coreFld_forall (P := fun f => _ ≠ fldAt f) j (by decide)
  have hkept (f : Fld) (hf : ∀ g ∈ [F.RX_CORE_XI, F.RX_CORE_XQ, F.RX_CORE_YI, F.RX_CORE_YQ], fldAt g ≠ fldAt f) :
      getR (setR d (pgRx n) (coreFld i) c) (pgRx n) f = getR d (pgRx n) f := getR_setR_fld d _ c (coreFld_forall i hf)
  exact {
    core := by
      refine (hother _ (hmap i)).trans ((getR_setR_self ..).trans (Nat.mod_eq_of_lt ?_))
      rw [coreFld_forall (P := fun f => f.width = 3) i (by decide)]
      omega
    others := fun j hj hne => (hother _ (hmap j)).trans (getR_setR_fld d _ c (coreFld_injective hi hj hne.symm))
    failed := fun b => isFailed_congr ((hother _ (by decide)).trans (hkept _ (by decide))) b
    away := fun b hb => haway b (by rw [bump, addC_eq] at hb; exact hb)
    cal := by rw [bump, addC_eq]; exact hcal
    stale := by rw [bump, addC_eq]; exact hstale
    current := fun h => by rw [bump, addC_eq]; exact hcurrent h
    due := hdue
    event := raise_bit ..
    count := by
      refine (getR_addC_narrow a (pgRx n) 1 (by decide)).trans ?_
      rw [hreg, hkept _ (by decide)]
      rfl
    mem := (addC_mem ..).trans hmem }

/-! ### SPARE_SUBSTITUTION (R125–R127) -/

/-- A substitution is asked for at input `i`. -/
def substInput (n : Nat) (d : Dev) (i : Nat) : Dev :=
  let c := coreAt d (pgRx n) i
  if isAway d n c || (isFailed d n c && decide (Store.get (rx d n).failAt 0 c + 199 ≤ d.ticks)) then substitute d n i else d

theorem doSubstitute_slot0 {d : Dev} {t n : Nat} (h : atSlot0 (advance d t) (coreOwner d n) = true) :
    doSubstitute t n d = (List.range 4).foldl (substInput n) (advance d t) := by
  unfold doSubstitute
  exact if_pos h

theorem doSubstitute_not {d : Dev} {t n : Nat} (h : atSlot0 (advance d t) (coreOwner d n) = false) :
    doSubstitute t n d = advance d t := by
  unfold doSubstitute
  exact if_neg (by rw [show atSlot0 (advance d t) (coreOwner (advance d t) n) = false from h]; decide)

theorem substInput_served {d : Dev} {n i : Nat} (h : deadInput d n i = false) : substInput n d i = d := by
  obtain ⟨hf, ha⟩ := Bool.or_eq_false_iff.1 h
  exact if_neg (by simp [hf, ha])

theorem substInput_failed {d : Dev} {n i : Nat} (hf : isFailed d n (coreAt d (pgRx n) i) = true)
    (ht : Store.get (rx d n).failAt 0 (coreAt d (pgRx n) i) + 199 ≤ d.ticks) : substInput n d i = substitute d n i :=
  if_pos (by simp [hf, ht])

theorem substInput_noSpare {d : Dev} {n : Nat} (i : Nat) (h : readyCores d n = []) : substInput n d i = d := by
  unfold substInput
  dsimp only
  split
  · exact substitute_none i h
  · rfl

/-- Without a ready core, or with every input served, a slot-0 instant changes nothing. -/
theorem doSubstitute_idle {d : Dev} (t : Nat) {n : Nat} (h : readyCores d n = [] ∨ ∀ i < 4, deadInput d n i = false) :
    doSubstitute t n d = advance d t := by
  by_cases hslot : atSlot0 (advance d t) (coreOwner d n) = true
  · rw [doSubstitute_slot0 hslot]
    refine foldl_of_fixed fun i hi => ?_
    rcases h with h | h
    · exact substInput_noSpare i h
    · exact substInput_served (h i (List.mem_range.1 hi))
  · exact doSubstitute_not (by simpa using hslot)

/-- An input that was served is still served once another one's failed core has been replaced. -/
theorem Takes.served {n i j c : Nat} {d e : Dev} (h : Takes n i c d e) (hj : j < 4) (hne : j ≠ i)
    (hd : deadInput d n j = false) : deadInput e n j = false := by
  obtain ⟨hf, ha⟩ := Bool.or_eq_false_iff.1 hd
  rw [deadInput, h.others j hj hne, h.failed, hf, Bool.false_or]
  exact Bool.eq_false_iff.2 fun hc => by rw [h.away _ hc] at ha; cases ha

/-- At a slot-0 instant, with one input alone failed for long enough, the lowest ready core takes it. -/
theorem doSubstitute_takes {d : Dev} {t n i c : Nat} (hn : n < 12) (hi : i < 4)
    (hf : isFailed d n (coreAt d (pgRx n) i) = true) (hc : (readyCores d n).head? = some c)
    (hd : ∀ j < 4, j ≠ i → deadInput d n j = false) (hslot : atSlot0 (advance d t) (coreOwner d n) = true)
    (ht : Store.get (rx d n).failAt 0 (coreAt d (pgRx n) i) + 199 ≤ max d.ticks t) :
    Takes n i c (advance d t) (doSubstitute t n d) := by
  have hsub : substInput n (advance d t) i = substitute (advance d t) n i := substInput_failed hf ht
  have htakes : Takes n i c (advance d t) (substitute (advance d t) n i) := substitute_takes hn hi hc
  have hfold := foldl_of_fixed_but (f := substInput n) (d := advance d t) (List.mem_range.2 hi) List.nodup_range
    (fun j hj hne => substInput_served (hd j (List.mem_range.1 hj) hne))
    (fun j hj hne => by
      rw [hsub]
      exact substInput_served (htakes.served (List.mem_range.1 hj) hne (hd j (List.mem_range.1 hj) hne)))
  rw [doSubstitute_slot0 hslot, hfold, hsub]
  exact htakes

/-! ### A FAILED core that passes its re-test (R127) -/

/-- From `d` to `e` core `c` of line `n`, which was FAILED, has joined the spare role, with its counter, event and entry. -/
structure Returns (n c : Nat) (d e : Dev) : Prop where
  passed : c < 5 → isFailed e n c = false
  others : ∀ b < 5, b ≠ c → isFailed e n b = isFailed d n b
  stale : isStale e (pgRx n) c = true
  cal : isCal e (pgRx n) c = true
  spare : inputOf e n c = 0
  due : 4 ∈ Store.get e.calPend [] (coreOwner d n)
  event : (evtRaw e (pgRx n)).testBit 11 = true
  count : getR e (pgRx n) F.RX_REQUAL_PASS = min (getR d (pgRx n) F.RX_REQUAL_PASS + 1) (2 ^ 32 - 1)
  requal : (rx e n).requal = (rx d n).requal
  entry : e.ledgerOut.length = d.ledgerOut.length + 1
  mem : e.mem = d.mem

theorem Returns.shown {n c : Nat} {d e g : Dev} (h : Returns n c d e) (hs : CoresShown n e g) : Returns n c d g := by
  have hfail := hs.isFailed_eq
  have hcount := hs.kept F.RX_REQUAL_PASS (by decide) (by decide)
  have hinput := inputOf_congr hs.coreAt_eq (hs.isAway_eq c)
  obtain ⟨r, rfl⟩ := hs.frame
  exact { h with
    passed := fun hc => (hfail c).trans (h.passed hc)
    others := fun b hb hne => (hfail b).trans (h.others b hb hne)
    spare := hinput.trans h.spare
    count := hcount.trans h.count }

/-- Core `c` leaves FAILED; it is away where the map still shows it at an input. -/
def leaveFailed (d : Dev) (n c : Nat) : Dev :=
  onlyIf (inputOf d n c != 0)
    (fun d => setRx d n { rx d n with away := (rx d n).away ++ [c], failAt := Store.erase (rx d n).failAt c })
    (setR d (pgRx n) F.RX_FAILED (andNot (getR d (pgRx n) F.RX_FAILED) (2 ^ c)))

theorem leaveFailed_frame (d : Dev) (n c : Nat) :
    ∃ x, leaveFailed d n c = { setR d (pgRx n) F.RX_FAILED (andNot (getR d (pgRx n) F.RX_FAILED) (2 ^ c)) with rx := x } := by
  unfold leaveFailed onlyIf
  split
  · exact ⟨_, rfl⟩
  · exact ⟨d.rx, rfl⟩

theorem requal_leaveFailed (d : Dev) (n c : Nat) : (rx (leaveFailed d n c) n).requal = (rx d n).requal := by
  unfold leaveFailed onlyIf
  split
  · rw [rx_setRx]; rfl
  · rfl

theorem coreAt_leaveFailed (d : Dev) (n c i : Nat) : coreAt (leaveFailed d n c) (pgRx n) i = coreAt d (pgRx n) i := by
  obtain ⟨x, hx⟩ := leaveFailed_frame d n c
  rw [hx]
  exact getR_setR_fld d _ _ (coreFld_forall (P := fun f => _ ≠ fldAt f) i (by decide))

/-- The core serves no input, not even one that the map still shows it at. -/
theorem inputOf_leaveFailed (d : Dev) (n c : Nat) : inputOf (leaveFailed d n c) n c = 0 := by
  by_cases hm : inputOf d n c = 0
  · refine (inputOf_congr (coreAt_leaveFailed d n c) ?_).trans hm
    rw [leaveFailed, hm]
    rfl
  · refine inputOf_of_isAway (isAway_iff.2 ?_)
    rw [leaveFailed, bne_iff_ne.2 hm, onlyIf, if_pos rfl, rx_setRx]
    simp

theorem coreReturns_eq (d : Dev) {n : Nat} (c : Nat) (hn : n < 12) :
    coreReturns d n c =
      rxShow (calDue (ledgerNow (raise (bump (freshUnit (leaveFailed d n c) n c false) (pgRx n) F.RX_REQUAL_PASS) (pgRx n) 11)
        0x0121 n (typeCode .rx) [c]) (coreOwner d n) 4) n := by
  have howner : coreOwner (raise (bump (freshUnit (leaveFailed d n c) n c false) (pgRx n) F.RX_REQUAL_PASS) (pgRx n) 11) n =
      coreOwner d n := by
    obtain ⟨x, hx⟩ := leaveFailed_frame d n c
    rw [coreOwner, line, bump, addC_eq]
    change (if ((freshUnit (leaveFailed d n c) n c false).lines.get LineSt.reset n).base = 6 then _ else _) = _
    rw [(freshUnit_refreshed (leaveFailed d n c) c false hn).lines, hx]
    rfl
  rw [← howner]
  rfl

theorem coreReturns_returns (d : Dev) {n : Nat} (c : Nat) (hn : n < 12) : Returns n c d (coreReturns d n c) := by
  rw [coreReturns_eq d c hn]
  refine Returns.shown ?_ (rxShow_coresShown _ n)
  obtain ⟨hregs, hrx, -, hledger, hmem, hcal, hstale, -⟩ := freshUnit_refreshed (leaveFailed d n c) c false hn
  obtain ⟨x, hx⟩ := leaveFailed_frame d n c
  have hspare := inputOf_leaveFailed d n c
  have hrequal := requal_leaveFailed d n c
  generalize freshUnit (leaveFailed d n c) n c false = a at *
  obtain ⟨l, hl⟩ := calDue_frame
    (ledgerNow (raise (bump a (pgRx n) F.RX_REQUAL_PASS) (pgRx n) 11) 0x0121 n (typeCode .rx) [c]) (coreOwner d n) 4
  have hdue := mem_calDue
    (ledgerNow (raise (bump a (pgRx n) F.RX_REQUAL_PASS) (pgRx n) 11) 0x0121 n (typeCode .rx) [c]) (coreOwner d n) 4
  rw [hl] at hdue ⊢
  have hreg (f : Fld) : getR a (pgRx n) f = getR (leaveFailed d n c) (pgRx n) f := getR_congr hregs _ f
  have hother (f : Fld) (hf : fldAt F.RX_REQUAL_PASS ≠ fldAt f) :
      getR (bump a (pgRx n) F.RX_REQUAL_PASS) (pgRx n) f = getR (leaveFailed d n c) (pgRx n) f :=
    (getR_addC_fld a (pgRx n) 1 hf).trans (hreg f)
  have hbits : ∀ b < 5, isFailed (bump a (pgRx n) F.RX_REQUAL_PASS) n b = (isFailed d n b && !decide (c = b)) := fun b hb => by
    rw [isFailed_congr (hother _ (by decide)) b, hx]
    refine (isFailed_setR d _ hb).trans ?_
    rw [andNot_testBit, testBit_failed, Nat.testBit_two_pow]
  exact {
    passed := fun hc => (hbits c hc).trans (by simp)
    others := fun b hb hne => (hbits b hb).trans (by simp [hne.symm])
    stale := by rw [bump, addC_eq]; exact hstale
    cal := by rw [bump, addC_eq]; exact hcal
    spare := by
      refine (inputOf_congr (d := leaveFailed d n c)
        (fun i => hother _ (coreFld_forall (P := fun f => _ ≠ fldAt f) i (by decide))) ?_).trans hspare
      rw [bump, addC_eq, isAway, isAway, rx, rx, ← hrx]
      rfl
    due := hdue
    event := raise_bit ..
    count := by
      refine (getR_addC_narrow a (pgRx n) 1 (by decide)).trans ?_
      rw [hreg, hx]
      exact congrArg (fun v => min (v + 1) (2 ^ 32 - 1)) (getR_setR_fld d (pgRx n) _ (by decide))
    requal := by
      rw [← hrequal, bump, addC_eq, rx, rx, ← hrx]
      rfl
    entry := by
      have hsame : a.ledgerOut = d.ledgerOut := hledger.trans (by rw [hx]; rfl)
      rw [bump, addC_eq, ← hsame]
      exact List.length_append
    mem := (addC_mem ..).trans (hmem.trans (by rw [hx]; rfl)) }

/-! ### REQUAL and REQUAL_DONE (R127) -/

theorem doRequal_none {d : Dev} {n : Nat} (t : Nat) (hr : Reach d (pgRx n)) (h : getR d (pgRx n) F.RX_FAILED = 0) :
    doRequal t n d = advance d t := by
  unfold doRequal
  rw [onPage_reach _ (reach_advance hr)]
  exact if_pos h

theorem doRequal_starts {d : Dev} {n : Nat} (t : Nat) (hr : Reach d (pgRx n)) (h : getR d (pgRx n) F.RX_FAILED ≠ 0) :
    doRequal t n d = setRx (advance d t) n { rx d n with requal := true } := by
  unfold doRequal
  rw [onPage_reach _ (reach_advance hr)]
  exact if_neg h

/-- The verdict of a re-test on core `c`, where `pass` lists the cores that passed. -/
def requalCore (n : Nat) (pass : List Nat) (d : Dev) (c : Nat) : Dev :=
  if !isFailed d n c then d else if pass.contains c then coreReturns d n c else bump d (pgRx n) F.RX_REQUAL_FAIL

/-- The device as a re-test of line `n` ends at tick `t`, before the verdicts. -/
def requalEnds (d : Dev) (t n : Nat) : Dev := setRx (advance d t) n { rx d n with requal := false }

theorem doRequalDone_ends {d : Dev} {n : Nat} (t : Nat) (l : List Nat) (h : (rx d n).requal = true) :
    doRequalDone t n l d = (List.range 5).foldl (requalCore n l) (requalEnds d t n) := by
  unfold doRequalDone
  exact if_pos h

theorem doRequalDone_none {d : Dev} {n : Nat} (t : Nat) (l : List Nat) (h : (rx d n).requal = false) :
    doRequalDone t n l d = advance d t := by
  unfold doRequalDone
  exact if_neg (by rw [show (rx (advance d t) n).requal = false from h]; decide)

theorem requalCore_working {d : Dev} {n c : Nat} (l : List Nat) (h : isFailed d n c = false) : requalCore n l d c = d :=
  if_pos (by simp [h])

theorem requalCore_passed {d : Dev} {n c : Nat} {l : List Nat} (h : isFailed d n c = true) (hl : c ∈ l) :
    requalCore n l d c = coreReturns d n c :=
  (if_neg (by simp [h])).trans (if_pos (by simpa using hl))

theorem requalCore_failed {d : Dev} {n c : Nat} {l : List Nat} (h : isFailed d n c = true) (hl : c ∉ l) :
    requalCore n l d c = bump d (pgRx n) F.RX_REQUAL_FAIL :=
  (if_neg (by simp [h])).trans (if_neg (by simpa using hl))

/-- The only FAILED core passes. -/
theorem doRequalDone_returns {d : Dev} {n c : Nat} (t : Nat) (hn : n < 12) (hc : c < 5) (hf : isFailed d n c = true)
    (hothers : ∀ b < 5, b ≠ c → isFailed d n b = false) (hr : (rx d n).requal = true) :
    Returns n c (requalEnds d t n) (doRequalDone t n [c] d) := by
  have hstep : requalCore n [c] (requalEnds d t n) c = coreReturns (requalEnds d t n) n c :=
    requalCore_passed hf (List.mem_singleton.2 rfl)
  have hreturns := coreReturns_returns (requalEnds d t n) c hn
  have hfold := foldl_of_fixed_but (f := requalCore n [c]) (d := requalEnds d t n) (List.mem_range.2 hc) List.nodup_range
    (fun b hb hne => requalCore_working _ (hothers b (List.mem_range.1 hb) hne))
    (fun b hb hne => by
      rw [hstep]
      have hb := List.mem_range.1 hb
      exact requalCore_working _ ((hreturns.others b hb hne).trans (hothers b hb hne)))
  rw [doRequalDone_ends t [c] hr, hfold, hstep]
  exact hreturns

/-- From `d` to `e` REQUAL_FAIL of line `n` has counted `k` cores, and nothing else has moved. -/
structure StillFailed (n k : Nat) (d e : Dev) : Prop where
  frame : ∃ r, e = { d with regs := r }
  regs : RegsBut [(pgRx n, F.RX_REQUAL_FAIL)] e d
  count : getR e (pgRx n) F.RX_REQUAL_FAIL = min (getR d (pgRx n) F.RX_REQUAL_FAIL + k) (2 ^ 32 - 1)

theorem StillFailed.isFailed_eq {n k : Nat} {d e : Dev} (h : StillFailed n k d e) (c : Nat) : isFailed e n c = isFailed d n c :=
  isFailed_congr (h.regs _ _ (by simpa using key_ne_fld (pgRx n) (by decide))) c

/-- Of the cores of `l` those that are FAILED are counted, one by one. -/
theorem requalCore_foldl (n : Nat) (l : List Nat) (d : Dev) (h : getR d (pgRx n) F.RX_REQUAL_FAIL < 2 ^ 32) :
    StillFailed n (l.filter (isFailed d n)).length d (l.foldl (requalCore n []) d) := by
  induction l generalizing d with
  | nil => exact ⟨⟨d.regs, rfl⟩, fun _ _ _ => rfl, by simp only [List.filter_nil, List.length_nil, List.foldl_nil]; omega⟩
  | cons c l ih =>
    rw [List.foldl_cons]
    by_cases hf : isFailed d n c = true
    · rw [requalCore_failed hf List.not_mem_nil, List.filter_cons_of_pos hf, List.length_cons]
      have hbump : StillFailed n 1 d (bump d (pgRx n) F.RX_REQUAL_FAIL) := by
        refine ⟨?_, ?_, getR_addC_narrow d (pgRx n) 1 (by decide)⟩
        · rw [bump, addC_eq]; exact ⟨_, rfl⟩
        · rw [bump, addC_eq]; exact regsBut_setR d (pgRx n) _ _
      have hrest := ih (bump d (pgRx n) F.RX_REQUAL_FAIL) (by rw [hbump.count]; omega)
      rw [show isFailed (bump d (pgRx n) F.RX_REQUAL_FAIL) n = isFailed d n from funext hbump.isFailed_eq] at hrest
      obtain ⟨r, hr⟩ := hbump.frame
      obtain ⟨r', hr'⟩ := hrest.frame
      refine ⟨⟨r', by rw [hr', hr]⟩, fun p f hp => (hrest.regs p f hp).trans (hbump.regs p f hp), ?_⟩
      rw [hrest.count, hbump.count]
      omega
    · rw [requalCore_working [] (by simpa using hf), List.filter_cons_of_neg hf]
      exact ih d h

end Sys2Proof.Machine

open Sys2Proof Sys2Proof.Machine

/-- Settles O19: each command by its branches; a declaration, a substitution and a return by what they do to one core
(`declareFailed_spec`, `substitute_takes`, `coreReturns_returns`), with every other step of the command's loop doing nothing. -/
theorem coresFailReturnAndAreReplaced : Obligations.CoresFailReturnAndAreReplaced := by
  unfold Obligations.CoresFailReturnAndAreReplaced
  refine ⟨?_, ?_⟩
  · intro s t n hn hs
    refine ⟨?_, ?_, ?_, ?_, ?_, ?_, ?_, ?_, ?_, ?_, ?_⟩
    · exact fun i hi hr => (gives_failCore t i hn hs hr).of_eq (failCore_none _ n hi)
    · intro i hi hr hf hrun
      have hg := (gives_failCore t (i + 1) hn hs hr).of_eq (failCore_input (advance s.dev t) n hi)
      have h := (declareFailed_spec (d := advance s.dev t) 2 hf hrun).shown (calShow_coresShown _ n)
      refine does_of_gives hg ?_
      simp only [isFailed_settle, evtRaw_settle, settle_ledgerOut, settle_mem]
      exact ⟨h.failed, h.others, h.event, h.entry, h.mem⟩
    · exact fun h => (gives_spareSubstitution t hn hs).of_eq (doSubstitute_idle t (.inl h))
    · exact fun h => (gives_spareSubstitution t hn hs).of_eq (doSubstitute_idle t (.inr h))
    · exact fun h => (gives_spareSubstitution t hn hs).of_eq (doSubstitute_not h)
    · intro i hi hr hf
      refine (gives_failCore t (i + 1) hn hs hr).of_eq ((failCore_input _ n hi).trans ?_)
      exact congrArg (calShow · n) (declareFailed_already (d := advance s.dev t) 2 hf)
    · intro c hc hf hothers hr
      have h := doRequalDone_returns t hn hc hf hothers hr
      refine does_of_gives (gives_requalDone t [c] hn hs) ?_
      have hrequal : (rx (requalEnds s.dev t n) n).requal = false := by rw [requalEnds, rx_setRx]
      simp only [isFailed_settle, isStale_settle, isCal_settle, inputOf_settle, settle_calPend, evtRaw_settle, getR_settle,
        rx_settle, settle_ledgerOut, settle_mem]
      exact ⟨h.passed hc, h.stale, h.cal, h.spare, h.due, h.event, h.count, h.requal.trans hrequal, h.entry, h.mem⟩
    · exact fun hr h => (gives_requal t hn hs).of_eq (doRequal_none t hr h)
    · exact fun hr h => (gives_requal t hn hs).of_eq (doRequal_starts t hr h)
    · exact fun h l => (gives_requalDone t l hn hs).of_eq (doRequalDone_none t l h)
    · intro hr hcount
      have h := requalCore_foldl n (List.range 5) (requalEnds s.dev t n) hcount
      refine does_of_gives ((gives_requalDone t [] hn hs).of_eq (doRequalDone_ends t [] hr)) ?_
      have hfailed := h.regs (pgRx n) F.RX_FAILED (by simpa using key_ne_fld (pgRx n) (by decide))
      have hrequal : (rx (requalEnds s.dev t n) n).requal = false := by rw [requalEnds, rx_setRx]
      simp only [RegsBut, getR_settle, rx_settle, settle_evt, settle_mem]
      obtain ⟨r, hframe⟩ := h.frame
      refine ⟨?_, hfailed, h.count, h.regs, ?_, ?_⟩
      · rw [hframe]; exact hrequal
      · rw [hframe]; rfl
      · rw [hframe]; rfl
  · intro s t n i c hn hi hs old hf hc hd hslot ht
    have h := doSubstitute_takes hn hi hf hc hd hslot ht
    refine does_of_gives (gives_spareSubstitution t hn hs) ?_
    simp only [coreAt_settle, isCal_settle, isStale_settle, unitEpochOf_settle, settle_calPend, evtRaw_settle, getR_settle,
      settle_mem]
    exact ⟨h.core, h.others, h.cal, ⟨h.stale, h.current⟩, h.due, h.event, h.count, h.mem⟩

end

section
/-! PROOFS. The coefficient banks of the slot pipes: writes of the window, seals and the bank shown (R139–R141). -/

namespace Sys2Proof.Machine

open Sys2Proof

/-! ### The commands as their effects -/

theorem gives_coefWrite {s : State} {n k w : Nat} (t v : Nat) (hn : n < 12) (hk : k < 8) (hw : w < 2048) (hs : Awake s)
    (hv : Visible s.dev (pgCoef n k)) : Gives (.coefWrite t n k w v) s (coefStore (advance s.dev t) n k w v) :=
  (gives_of_act (f := doCoefWrite t n k w v) rfl (by simp [hn, hk, hw]) hs).of_eq
    (onPage_visible (d := advance s.dev t) _ hv)

theorem gives_coefSeal {s : State} {n k : Nat} (t v : Nat) (hn : n < 12) (hk : k < 8) (hs : Awake s)
    (hr : Reach s.dev (pgSlot n k)) : Gives (.coefSeal t n k v) s (coefCtrl (advance s.dev t) n k v) :=
  (gives_of_act (f := doCoefSeal t n k v) rfl (by simp [hn, hk]) hs).of_eq (onPage_reach _ (reach_advance hr))

/-! ### The state of a bank: what runs it, its seal, its components -/

section
variable (d : Dev) (n k : Nat)

/-- What makes a bank run (R139) reads, of its SLOT page, the live BANK alone. -/
theorem bankRuns_setR {f : Fld} (v b : Nat) (hf : fldAt f < 131072) (h : fldAt f ≠ fldAt (liveF F.SLOT_BANK)) :
    bankRuns (setR d (pgSlot n k) f v) n k b = bankRuns d n k b := by
  have hline {g : Fld} (hg : fldAt g < 131072) : getR (setR d (pgSlot n k) f v) (pgLine n) g = getR d (pgLine n) g :=
    getR_setR_page d v (pgSlot_ne_pgLine n k) hf hg
  have hstate : lineState (setR d (pgSlot n k) f v) n = lineState d n := hline (by decide)
  have hslots : slotsN (setR d (pgSlot n k) f v) n = slotsN d n := hline (by decide)
  have hbank : getL (setR d (pgSlot n k) f v) (pgSlot n k) F.SLOT_BANK = getL d (pgSlot n k) F.SLOT_BANK :=
    getR_setR_fld d _ v h
  have hpipe : pipe (setR d (pgSlot n k) f v) n k = pipe d n k := rfl
  simp only [bankRuns, pipeRuns, hstate, hslots, hbank, hpipe]

@[simp] theorem isSealed_settle (b : Nat) : isSealed (settle d) n k b = isSealed d n k b := by simp [isSealed, flagR]
@[simp] theorem coefRaw_settle (b w : Nat) : coefRaw (settle d) n k b w = coefRaw d n k b w := by simp [coefRaw]

theorem sealFld_width (b : Nat) : (sealFld b).width = 1 := by unfold sealFld; split <;> rfl

theorem fldAt_sealFld_ne_wbank (b : Nat) : fldAt (sealFld b) ≠ fldAt F.SLOT_WBANK := by
  unfold sealFld; split <;> decide

theorem isSealed_setR (b v : Nat) : isSealed (setR d (pgSlot n k) (sealFld b) v) n k b = (v % 2 == 1) := by
  rw [isSealed, flagR, getR_setR_self, sealFld_width, pow_one]

/-- Two components of a pipe's banks have different keys. -/
theorem coefKey_ne {b c w u : Nat} (hw : w < 2048) (hu : u < 2048) (h : c ≠ b ∨ u ≠ w) :
    coefKey n k b w ≠ coefKey n k c u := by unfold coefKey; omega

end

/-! ### A write of the window (R140) -/

section
variable {d : Dev} {n k : Nat}

/-- The SLOT page counts a write that its running bank refuses, and raises COEF_BUSY. -/
theorem coefWrite_running (w v : Nat) (h : bankRuns d n k (getR d (pgSlot n k) F.SLOT_WBANK) = true) :
    coefWrite d n k w v = raise (bump d (pgSlot n k) F.SLOT_COEF_REFUSED) (pgSlot n k) 8 := if_pos h

/-- Component `w` of bank `b` is stored, and the bank is no longer sealed. -/
def storeTap (d : Dev) (n k b w v : Nat) : Dev :=
  setR { d with coef := Store.set d.coef 0 (coefKey n k b w) (v % 2 ^ 18) } (pgSlot n k) (sealFld b) 0

theorem coefWrite_stopped (w v : Nat) (h : bankRuns d n k (getR d (pgSlot n k) F.SLOT_WBANK) = false) :
    coefWrite d n k w v = storeTap d n k (getR d (pgSlot n k) F.SLOT_WBANK) w v := if_neg (by simp [h])

variable (d n k) (b w v : Nat)

theorem coefRaw_storeTap_self : coefRaw (storeTap d n k b w v) n k b w = v % 2 ^ 18 := Store.get_set_self ..

theorem coefRaw_storeTap_ne {c u : Nat} (hw : w < 2048) (hu : u < 2048) (h : c ≠ b ∨ u ≠ w) :
    coefRaw (storeTap d n k b w v) n k c u = coefRaw d n k c u := Store.get_set_ne _ _ _ _ (coefKey_ne n k hw hu h)

theorem isSealed_storeTap : isSealed (storeTap d n k b w v) n k b = false := isSealed_setR ..

theorem regsBut_storeTap : RegsBut [(pgSlot n k, sealFld b)] (storeTap d n k b w v) d :=
  regsBut_setR { d with coef := Store.set d.coef 0 (coefKey n k b w) (v % 2 ^ 18) } _ _ _

end

/-! ### A write of COEF_CTRL (R140) -/

/-- Two writes change two registers only. -/
theorem regsBut_setR_setR (d : Dev) (p q : Nat) (f g : Fld) (v w : Nat) :
    RegsBut [(p, f), (q, g)] (setR (setR d p f v) q g w) d := by
  intro r h hne
  rw [getR_setR_ne _ w (hne (q, g) (by simp)), getR_setR_ne d v (hne (p, f) (by simp))]

theorem getR_setR_wbank (d : Dev) (n k v : Nat) :
    getR (setR d (pgSlot n k) F.SLOT_WBANK v) (pgSlot n k) F.SLOT_WBANK = v % 2 := getR_setR_self ..

/-- A word with SEAL seals the bank that it selects, if that is stopped; any other word selects it alone. -/
theorem coefCtrl_eq (d : Dev) (n k v : Nat) :
    coefCtrl d n k v =
      if v.testBit 8 && !bankRuns d n k (v % 2) then
        setR (setR d (pgSlot n k) F.SLOT_WBANK v) (pgSlot n k) (sealFld (v % 2)) 1
      else setR d (pgSlot n k) F.SLOT_WBANK v := by
  simp only [coefCtrl, getR_setR_wbank, bit_eq_testBit, bankRuns_setR d n k v _ (f := F.SLOT_WBANK) (by decide) (by decide)]

section
variable {d : Dev} {n k v : Nat}

theorem coefCtrl_seals (hrun : bankRuns d n k (v % 2) = false) (hseal : v.testBit 8 = true) :
    coefCtrl d n k v = setR (setR d (pgSlot n k) F.SLOT_WBANK v) (pgSlot n k) (sealFld (v % 2)) 1 := by
  rw [coefCtrl_eq, hrun, hseal]; rfl

theorem coefCtrl_selects (h : bankRuns d n k (v % 2) = true ∨ v.testBit 8 = false) :
    coefCtrl d n k v = setR d (pgSlot n k) F.SLOT_WBANK v := by
  rw [coefCtrl_eq]
  obtain h | h := h <;> simp [h]

end

end Sys2Proof.Machine

open Sys2Proof Sys2Proof.Machine

/-- Settles O22: a write is its branch on the bank that WBANK shows (`coefWrite_stopped`, `coefWrite_running`), once the
capture instant that has come is taken (`captureDue_at`), and a word of COEF_CTRL its branch on SEAL (`coefCtrl_eq`). -/
theorem coefficientBanksLockWhileRunning : Obligations.CoefficientBanksLockWhileRunning := by
  unfold Obligations.CoefficientBanksLockWhileRunning
  intro s t n k w v hn hk hw hs p b before
  have hnone (h : before) : coefStore (advance s.dev t) n k w v = coefWrite (advance s.dev t) n k w v :=
    congrArg (coefWrite · n k w v) (captureDue_done (d := advance s.dev t) h)
  refine ⟨?_, ?_, ?_, ?_, ?_⟩
  · intro hv hbefore hrun
    refine does_of_gives ((gives_coefWrite t v hn hk hw hs hv).of_eq
      ((hnone hbefore).trans (coefWrite_stopped (d := advance s.dev t) w v hrun))) ?_
    simp only [RegsBut, coefRaw_settle, isSealed_settle, getR_settle, settle_evt, settle_mem]
    exact ⟨coefRaw_storeTap_self .., fun c u _ hu _ hne => coefRaw_storeTap_ne (advance s.dev t) n k b w v hw hu hne,
      isSealed_storeTap .., regsBut_storeTap (advance s.dev t) n k b w v, rfl, rfl⟩
  · exact fun hv hbefore hrun => (gives_coefWrite t v hn hk hw hs hv).of_eq
      ((hnone hbefore).trans (coefWrite_running (d := advance s.dev t) w v hrun))
  · intro e he hle hv d1 hrun
    refine (gives_coefWrite t v hn hk hw hs hv).of_eq ?_
    have hcapture : captureDue (advance s.dev t) n = d1 := captureDue_at he hle
    rw [coefStore, hcapture, coefWrite_running w v hrun]
  · intro hr hrun hseal
    refine does_of_gives ((gives_coefSeal t v hn hk hs hr).of_eq (coefCtrl_seals (d := advance s.dev t) hrun hseal)) ?_
    simp only [RegsBut, isSealed_settle, getR_settle, settle_evt, settle_coef]
    refine ⟨isSealed_setR .., ?_, regsBut_setR_setR (advance s.dev t) p p _ _ v 1, rfl, rfl⟩
    exact (getR_setR_fld _ _ 1 (fldAt_sealFld_ne_wbank _)).trans (getR_setR_wbank ..)
  · exact fun hr h => (gives_coefSeal t v hn hk hs hr).of_eq (coefCtrl_selects (d := advance s.dev t) h)

end

section
/-! PROOFS. Frame instants and due frames (R165, R167, R169). -/

namespace Sys2Proof.Machine

open Sys2Proof

/-! ### The commands as their effects -/

theorem gives_frameInstant {s : State} {n : Nat} (t : Nat) (hn : n < 12) (hs : Awake s) :
    Gives (.frameInstant t n) s (doFrameInstant t n s.dev) := gives_of_act rfl (by simp [hn]) hs

theorem gives_frameBuilt {s : State} {n : Nat} (t : Nat) (hn : n < 12) (hs : Awake s) :
    Gives (.frameBuilt t n) s (doFrameBuilt t n s.dev) := gives_of_act rfl (by simp [hn]) hs

@[simp] theorem frame_setR (d : Dev) (p : Nat) (f : Fld) (v n : Nat) : frame (setR d p f v) n = frame d n := rfl

theorem regsBut_settle (fs : List (Nat × Fld)) (d e : Dev) : RegsBut fs (settle d) e ↔ RegsBut fs d e := by
  simp only [RegsBut, getR_settle]

/-! ### Frame instants (R165, R167) -/

/-- The first tick from `t` on at which frame instant `i` has come. -/
def tickOfInstant (t : Nat) (i : Int) : Nat := max t (-(fdiv (-i) 65536)).toNat

theorem le_tickOfInstant (t : Nat) (i : Int) : i ≤ 65536 * (tickOfInstant t i : Int) := by
  unfold tickOfInstant fdiv; omega

/-- The frame that falls due at instant `i` of plan `p`, under the next number. -/
def frameDueAt (d : Dev) (n : Nat) (p : PlanRec) (i : Int) : DueFrame :=
  ⟨(frame d n).nextNo, p.id, i, unqualNow d, d.time.base + 10 * i⟩

/-- A frame instant is taken at tick `u`: line `n` goes on with the frame record `y`, and FRAME_NO shows the number. -/
def takeInstant (d : Dev) (n u : Nat) (y : FrameSt) : Dev :=
  setR (setFrame (advance d u) n y) (pgFrame n) F.FRAME_FRAME_NO (frame d n).nextNo

section
variable (d : Dev) (n u : Nat) (y : FrameSt)

@[simp] theorem frame_takeInstant : frame (takeInstant d n u y) n = y := by simp [takeInstant]
@[simp] theorem takeInstant_ticks : (takeInstant d n u y).ticks = max d.ticks u := rfl
@[simp] theorem takeInstant_evt : (takeInstant d n u y).evt = d.evt := rfl
@[simp] theorem takeInstant_mem : (takeInstant d n u y).mem = d.mem := rfl

theorem getR_takeInstant_frameNo (h : (frame d n).nextNo < 2 ^ 64) :
    getR (takeInstant d n u y) (pgFrame n) F.FRAME_FRAME_NO = (frame d n).nextNo :=
  (getR_setR_self ..).trans (Nat.mod_eq_of_lt h)

theorem regsBut_takeInstant : RegsBut [(pgFrame n, F.FRAME_FRAME_NO)] (takeInstant d n u y) d :=
  regsBut_setR (setFrame (advance d u) n y) _ _ _

end

theorem doFrameInstant_none {d : Dev} {n : Nat} (t : Nat) (h : (frame d n).nextInst = none) :
    doFrameInstant t n d = advance d t := by simp only [doFrameInstant, h]

/-- A line with a live plan, neither OFF nor DARK, takes its frame instant; in PAUSED no frame falls due. -/
theorem doFrameInstant_takes {d : Dev} {n : Nat} {i : Int} {p : PlanRec} {r : List PlanRec} (t : Nat)
    (hi : (frame d n).nextInst = some i) (hp : (gauge d n).plans = p :: r) (h0 : lineState d n ≠ 0)
    (h6 : lineState d n ≠ 6) : ∃ y : FrameSt,
    doFrameInstant t n d = takeInstant d n (tickOfInstant t i) y ∧
    y.nextInst = some (i + p.step * imOf p) ∧ y.nextNo = ((frame d n).nextNo + 1) % 2 ^ 64 ∧
    y.due = if lineState d n = 5 then (frame d n).due else (frame d n).due ++ [frameDueAt d n p i] := by
  have hst : ¬ (lineState (advance d (tickOfInstant t i)) n = 0 ∨ lineState (advance d (tickOfInstant t i)) n = 6) :=
    not_or.2 ⟨h0, h6⟩
  simp only [doFrameInstant, hi, hp, List.head?_cons]
  rw [← tickOfInstant, if_neg hst]
  exact ⟨_, rfl, by simp [ioutOf], rfl, rfl⟩

/-! ### Due frames (R166, R169) -/

/-- The merged samples of plan `p` that line `n` keeps. -/
def samplesOf (d : Dev) (n : Nat) (p : PlanRec) : List MergedS := (frame d n).merged.filter (fun m => m.plan == p.id)

/-- The frame at `inst` needs a merged sample that has not come. -/
def lacksSamples (p : PlanRec) (ms : List MergedS) (inst : Int) : Bool :=
  decide ((ms.length : Int) ≤ (frameSpan p ms inst).2)

theorem doFrameBuilt_none {d : Dev} {n : Nat} (t : Nat) (h : (frame d n).due = []) :
    doFrameBuilt t n d = advance d t := by
  have hadv : (frame (advance d t) n).due = [] := h
  simp only [doFrameBuilt, hadv]

/-- The oldest due frame waits while its plan may still have a sample that it needs; else it is built, at an edge of its
plan where its support goes beyond the plan's samples. -/
theorem doFrameBuilt_due {d : Dev} {n : Nat} {f : DueFrame} {r : List DueFrame} (t : Nat) (h : (frame d n).due = f :: r) :
    doFrameBuilt t n d =
      (let p := planOf (advance d t) n f.plan
       let ms := samplesOf d n p
       let late := lacksSamples p ms f.inst
       if late && (p.ended.isNone || planFlowing d n p.id) then advance d t
       else buildFrame (advance d t) n f p ms (late || decide ((frameSpan p ms f.inst).1 < 0))) := by
  have hadv : (frame (advance d t) n).due = f :: r := h
  simp only [doFrameBuilt, hadv]
  rfl

section
variable {d : Dev} {n : Nat} {f : DueFrame} {r : List DueFrame} {p : PlanRec} (t : Nat)
  (h : (frame d n).due = f :: r) (hp : planOf (advance d t) n f.plan = p)
include h hp

theorem doFrameBuilt_waits (hlate : lacksSamples p (samplesOf d n p) f.inst = true)
    (hmore : p.ended = none ∨ planFlowing d n p.id = true) : doFrameBuilt t n d = advance d t := by
  have hwait : (p.ended.isNone || planFlowing d n p.id) = true := by simpa using hmore
  rw [doFrameBuilt_due t h]
  simp only [hp, hlate, hwait, Bool.and_true, if_true]

/-- An ended plan, none of whose launches is still on its way, has no further samples. -/
theorem doFrameBuilt_edge (hlate : lacksSamples p (samplesOf d n p) f.inst = true) (hend : p.ended ≠ none)
    (hflow : planFlowing d n p.id = false) :
    doFrameBuilt t n d = buildFrame (advance d t) n f p (samplesOf d n p) true := by
  have hdone : (p.ended.isNone || planFlowing d n p.id) = false := by simpa [hflow, Option.isSome_iff_ne_none] using hend
  rw [doFrameBuilt_due t h]
  simp only [hp, hlate, hdone, Bool.and_false, Bool.false_eq_true, if_false, Bool.true_or]

theorem doFrameBuilt_whole (hin : lacksSamples p (samplesOf d n p) f.inst = false) :
    doFrameBuilt t n d = buildFrame (advance d t) n f p (samplesOf d n p)
      (decide ((frameSpan p (samplesOf d n p) f.inst).1 < 0)) := by
  rw [doFrameBuilt_due t h]
  simp only [hp, hin, Bool.false_and, Bool.false_eq_true, if_false, Bool.false_or]

end

end Sys2Proof.Machine

open Sys2Proof Sys2Proof.Machine

/-- Settles O24: a frame instant by what it makes of the line's frame record (`doFrameInstant_takes`), a due frame by whether
it needs samples that its plan may still have (`doFrameBuilt_waits`), will not have (`doFrameBuilt_edge`), or has already
(`doFrameBuilt_whole`). -/
theorem frameInstantsNumberFrames : Obligations.FrameInstantsNumberFrames := by
  unfold Obligations.FrameInstantsNumberFrames
  intro s t n hn hs
  have hinstant := gives_frameInstant t hn hs
  have hbuilt := gives_frameBuilt t hn hs
  refine ⟨fun h => hinstant.of_eq (doFrameInstant_none t h), ?_, ?_, fun h => hbuilt.of_eq (doFrameBuilt_none t h), ?_⟩
  · intro i p r hi hp hst hno
    obtain ⟨y, hd, hinst, hnum, hdue⟩ := doFrameInstant_takes t hi hp (by omega) (by omega)
    rw [if_neg (by omega)] at hdue
    have hreached : i ≤ 65536 * ((max s.dev.ticks (tickOfInstant t i) : Nat) : Int) := by
      have := le_tickOfInstant t i
      omega
    refine does_of_gives (hinstant.of_eq hd) ?_
    simp only [frame_settle, frame_takeInstant, settle_ticks, getR_settle, regsBut_settle, settle_evt, settle_mem]
    exact ⟨hinst, hnum, hdue, hreached, getR_takeInstant_frameNo s.dev n _ y hno, regsBut_takeInstant _ _ _ _, rfl, rfl⟩
  · intro i p r hi hp hst
    obtain ⟨y, hd, -, hnum, hdue⟩ := doFrameInstant_takes t hi hp (by omega) (by omega)
    rw [if_pos hst] at hdue
    refine does_of_gives (hinstant.of_eq hd) ?_
    simp only [frame_settle, frame_takeInstant]
    exact ⟨hnum, hdue⟩
  · intro f r h p ms late
    exact ⟨fun hlate hmore => hbuilt.of_eq (doFrameBuilt_waits t h rfl hlate hmore),
      fun hlate hend hflow => hbuilt.of_eq (doFrameBuilt_edge t h rfl hlate hend hflow),
      fun hin => hbuilt.of_eq (doFrameBuilt_whole t h rfl hin)⟩

end

section
/-! PROOFS. Raman shots, flips of the Stacks, thermal frames and seeds (R183–R186, R195, R197). -/

namespace Sys2Proof.Machine

open Sys2Proof

/-! ### The commands as their effects -/

section
variable {s : State} {n : Nat} (t : Nat) (hn : n < 12) (hs : Awake s)
include hn hs

theorem gives_ramanShotAccumulate (st an : List Int) :
    Gives (.ramanShotAccumulate t n st an) s (doRamanShot t n st an s.dev) := gives_of_act rfl (by simp [hn]) hs

theorem gives_stackFlip : Gives (.stackFlip t n) s (doFlip t n s.dev) := gives_of_act rfl (by simp [hn]) hs

theorem gives_thermalFrameBuilt : Gives (.thermalFrameBuilt t n) s (doThermal t n s.dev) :=
  gives_of_act rfl (by simp [hn]) hs

theorem gives_stackSeed (v : Nat) : Gives (.stackSeed t n v) s (doSeed t n v s.dev) :=
  gives_of_act rfl (by simp [hn]) hs

end

/-! ### A line's Stacks under the elementary updates -/

section
variable (d : Dev) (n m : Nat)

@[simp] theorem stack_setStack (x : StackSt) : stack (setStack d n x) n = x := by simp [stack, setStack]
@[simp] theorem stack_settle : stack (settle d) n = stack d n := by simp [stack]
@[simp] theorem stack_advance (t : Nat) : stack (advance d t) n = stack d n := rfl
@[simp] theorem stack_setR (p : Nat) (f : Fld) (v : Nat) : stack (setR d p f v) n = stack d n := rfl
@[simp] theorem stack_setS (p : Nat) (f : Fld) (v : Int) : stack (setS d p f v) n = stack d n := rfl
@[simp] theorem stack_raise (p b : Nat) : stack (raise d p b) n = stack d n := rfl
@[simp] theorem stack_refsShow (v : StackIv) : stack (refsShow d m v) n = stack d n := rfl
@[simp] theorem getR_setStack (x : StackSt) (p : Nat) (f : Fld) : getR (setStack d m x) p f = getR d p f := rfl
@[simp] theorem setStack_evt (x : StackSt) : (setStack d n x).evt = d.evt := rfl
@[simp] theorem setStack_mem (x : StackSt) : (setStack d n x).mem = d.mem := rfl

end

/-- A counter's step changes one register only. -/
theorem regsBut_addC (d : Dev) (p : Nat) (f : Fld) (k : Nat) : RegsBut [(p, f)] (addC d p f k) d := by
  rw [addC_eq]; exact regsBut_setR _ _ _ _

/-! ### Raman shots (R183–R186) -/

/-- A list of the right length needs no padding. -/
theorem padI_of_length {k : Nat} {l : List Int} (h : l.length = k) : padI k l = l := by
  rw [padI, List.take_left' h]

/-- A bin takes the pre-averaged value of its samples (R184, R185). -/
theorem accBank_acc {p : StackP} {q : Nat} (bank : List BinAcc) (l : List Int) (hq : q < p.bins) :
    ((accBank p bank l).getD q BinAcc.zero).acc =
      (bank.getD q BinAcc.zero).acc + sat16 (preAvg p.shift (binSamples p.j q l)) := by
  simp [accBank, List.getD_eq_getElem?_getD, hq]

/-- The samples of a Raman shot of an interval with the settings `p` have come: both converters' windows take them. -/
def shotSampled (t n : Nat) (p : StackP) (st an : List Int) (d : Dev) : Dev :=
  thShot (advance d t) n (padI (2 ^ p.j * p.bins) st) (padI (2 ^ p.j * p.bins) an)

/-- Counting in a register after the samples have come writes that register alone. -/
theorem regsBut_addC_shotSampled (t n : Nat) (p : StackP) (st an : List Int) (d : Dev) (q : Nat) (f : Fld) (k : Nat) :
    RegsBut [(q, f)] (addC (shotSampled t n p st an d) q f k) d := regsBut_addC (shotSampled t n p st an d) q f k

/-- Interval `v` past a STALE shot, with the shots `r` left. -/
def staleShot (v : StackIv) (r : List (Nat × Bool)) : StackIv :=
  { v with shots := r, staleN := v.staleN + 1, missed := true }

/-- Interval `v` past a counted shot with the samples `st` and `an`, with the shots `r` left. -/
def countedShot (v : StackIv) (r : List (Nat × Bool)) (st an : List Int) (sats : Nat) (cal : Bool) : StackIv :=
  { v with shots := r, counted := v.counted + 1, satN := v.satN + sats, cal := cal,
           bank0 := accBank v.p v.bank0 st, bank1 := accBank v.p v.bank1 an }

section
variable {d : Dev} {n : Nat} {v : StackIv} (t : Nat) (st an : List Int)

/-- Without a shot that awaits its samples nothing happens. -/
theorem doRamanShot_idle (h : ∀ v, (stack d n).cur = some v → v.shots = []) :
    doRamanShot t n st an d = advance d t := by
  cases hc : (stack d n).cur with
  | none => simp [doRamanShot, hc]
  | some v => simp [doRamanShot, hc, h v hc]

variable {launch : Nat} {b : Bool} {r : List (Nat × Bool)} (hc : (stack d n).cur = some v)
  (hv : v.shots = (launch, b) :: r)
include hc hv

theorem doRamanShot_stale (h : b = true ∨ isStale d (pgThrx n) 0 = true ∨ isStale d (pgThrx n) 1 = true) :
    doRamanShot t n st an d =
      setStack (bump (shotSampled t n v.p st an d) (pgStack n) F.STACK_STALE_SHOTS) n
        { stack d n with cur := some (staleShot v r) } := by
  have hstale : (b || isStale d (pgThrx n) 0 || isStale d (pgThrx n) 1) = true := by
    simpa only [Bool.or_eq_true, or_assoc] using h
  simp only [doRamanShot, stack_advance, hc, hv]
  exact if_pos hstale

theorem doRamanShot_counts (hb : b = false) (h0 : isStale d (pgThrx n) 0 = false) (h1 : isStale d (pgThrx n) 1 = false)
    (hst : st.length = 2 ^ v.p.j * v.p.bins) (han : an.length = 2 ^ v.p.j * v.p.bins) : ∃ vsats sats cal,
    doRamanShot t n st an d =
      setStack (addC (shotSampled t n v.p st an d) (pgStack n) F.STACK_VSATS vsats) n
        { stack d n with cur := some (countedShot v r st an sats cal) } := by
  have hfresh : ¬ (b || isStale d (pgThrx n) 0 || isStale d (pgThrx n) 1) = true := by simp [hb, h0, h1]
  simp only [doRamanShot, stack_advance, hc, hv, shotSampled, padI_of_length hst, padI_of_length han]
  exact ⟨_, _, _, if_neg hfresh⟩

end

/-! ### The flip (R186, R195) -/

/-- The seeds at a flip write the live constants and their state, and the Stacks' seeding marks; or nothing. -/
theorem seedConsts_cases (d : Dev) (n : Nat) : seedConsts d n = d ∨ ∃ k,
    seedConsts d n =
      setR (setConsts (setStack d n { stack d n with seedWait := false, fresh := false, seeded := true }) n k)
        (pgStack n) F.STACK_CONST_STATE 0 := by
  unfold seedConsts
  dsimp only
  split
  · exact Or.inr ⟨_, rfl⟩
  · exact Or.inl rfl

@[simp] theorem seedConsts_mem (d : Dev) (n : Nat) : (seedConsts d n).mem = d.mem := by
  obtain h | ⟨k, h⟩ := seedConsts_cases d n <;> rw [h]; rfl

@[simp] theorem seedConsts_ticks (d : Dev) (n : Nat) : (seedConsts d n).ticks = d.ticks := by
  obtain h | ⟨k, h⟩ := seedConsts_cases d n <;> rw [h]; rfl

@[simp] theorem seedConsts_nextNo (d : Dev) (n : Nat) : (stack (seedConsts d n) n).nextNo = (stack d n).nextNo := by
  obtain h | ⟨k, h⟩ := seedConsts_cases d n <;> rw [h]; simp [setConsts]

/-- The references shown write OVEN_T and AMB_T alone. -/
theorem getR_refsShow_fld (d : Dev) (n : Nat) (v : StackIv) {f : Fld} (ho : fldAt F.STACK_OVEN_T ≠ fldAt f)
    (ha : fldAt F.STACK_AMB_T ≠ fldAt f) : getR (refsShow d n v) (pgStack n) f = getR d (pgStack n) f := by
  simp only [refsShow, setS]
  rw [getR_setR_fld _ _ _ ha, getR_setR_fld _ _ _ ho]

/-- The device at the flip of `v`, with the line's Stacks at `x`: number and counted shots shown, the references of `v`
shown, FLIP raised. -/
def flipShown (d : Dev) (n : Nat) (v : StackIv) (no : Nat) (x : StackSt) : Dev :=
  raise (refsShow (setR (setR (setStack d n x) (pgStack n) F.STACK_STACK_NO no) (pgStack n) F.STACK_COUNTED v.counted) n v)
    (pgStack n) 8

section
variable (d : Dev) (n : Nat) (v : StackIv) (no : Nat) (x : StackSt)

@[simp] theorem stack_flipShown : stack (flipShown d n v no x) n = x := by simp [flipShown]
@[simp] theorem flipShown_ticks : (flipShown d n v no x).ticks = d.ticks := rfl
@[simp] theorem flipShown_mem : (flipShown d n v no x).mem = d.mem := rfl

theorem flipShown_raises_flip : (evtRaw (flipShown d n v no x) (pgStack n)).testBit 8 = true := raise_bit ..

theorem getR_flipShown_stackNo : getR (flipShown d n v no x) (pgStack n) F.STACK_STACK_NO = no % 2 ^ 64 := by
  simp only [flipShown, getR_raise]
  rw [getR_refsShow_fld _ _ _ (by decide) (by decide), getR_setR_fld _ _ _ (by decide), getR_setR_self]; rfl

theorem getR_flipShown_counted : getR (flipShown d n v no x) (pgStack n) F.STACK_COUNTED = v.counted % 2 ^ 32 := by
  simp only [flipShown, getR_raise]
  rw [getR_refsShow_fld _ _ _ (by decide) (by decide), getR_setR_self]; rfl

end

theorem doFlip_none {d : Dev} {n : Nat} (t : Nat) (h : (stack d n).closed = []) : doFlip t n d = advance d t := by
  simp only [doFlip, h]

/-- The oldest closed interval comes to rest at its flip, after the seeds, under the next number. -/
theorem doFlip_rests {d : Dev} {n : Nat} {v : StackIv} {r : List StackIv} (t : Nat) (h : (stack d n).closed = v :: r) :
    ∃ (x : StackSt) (l : List (Option Int)),
      doFlip t n d = flipShown (seedConsts (advance d (max t v.flipAt)) n) n v (stack d n).nextNo x ∧
      x.closed = r ∧ x.nextNo = (stack d n).nextNo + 1 ∧ x.rest = some ⟨(stack d n).nextNo, v, l, [], true⟩ := by
  simp only [doFlip, h, seedConsts_nextNo, stack_advance]
  exact ⟨_, _, rfl, rfl, rfl, rfl⟩

/-! ### Deciding the constants (R194–R197): frames on their way, pools and memory stay -/

/-- What a thermal frame is placed in, and memory. -/
def frameStores (d : Dev) : Store FrameSt × Store PoolSt × List Host.Cell := (d.frames, d.pools, d.mem)

theorem frameStores_eq_iff {d e : Dev} :
    frameStores d = frameStores e ↔ d.frames = e.frames ∧ d.pools = e.pools ∧ d.mem = e.mem := by simp [frameStores]

section
variable (d : Dev) (n : Nat)

@[simp] theorem frameStores_advance (t : Nat) : frameStores (advance d t) = frameStores d := rfl
@[simp] theorem frameStores_setR (p : Nat) (f : Fld) (v : Nat) : frameStores (setR d p f v) = frameStores d := rfl
@[simp] theorem frameStores_raise (p b : Nat) : frameStores (raise d p b) = frameStores d := rfl
@[simp] theorem frameStores_setStack (x : StackSt) : frameStores (setStack d n x) = frameStores d := rfl
@[simp] theorem frameStores_setConsts (k : Consts) : frameStores (setConsts d n k) = frameStores d := rfl
@[simp] theorem frameStores_refsShow (v : StackIv) : frameStores (refsShow d n v) = frameStores d := rfl
@[simp] theorem frameStores_ledgerNow (k ln pt : Nat) (l : List Nat) :
    frameStores (ledgerNow d k ln pt l) = frameStores d := rfl

@[simp] theorem frameStores_bump (p : Nat) (f : Fld) : frameStores (bump d p f) = frameStores d := by
  rw [bump, addC_eq, frameStores_setR]

@[simp] theorem frameStores_raiseOn (p b : Nat) (was now : Bool) : frameStores (raiseOn d p b was now) = frameStores d := by
  unfold raiseOn; split <;> rfl

@[simp] theorem frameStores_onlyIf (c : Bool) {f : Dev → Dev} (h : ∀ e, frameStores (f e) = frameStores e) :
    frameStores (onlyIf c f d) = frameStores d :=
  onlyIf_rel (R := fun a b => frameStores b = frameStores a) (fun _ => rfl) d c (h d)

@[simp] theorem frameStores_latchTerm (k : Nat) (x : Int) : frameStores (latchTerm d n k x) = frameStores d := by
  unfold latchTerm; dsimp only; split <;> rfl

/-- A solution accepted, one with too few shots, one rejected: registers, events, the Ledger and the Almanac at most. -/
@[simp] theorem frameStores_applyConsts (r : Nat × Consts) (no : Nat) :
    frameStores (applyConsts d n r no) = frameStores d := by
  unfold applyConsts
  dsimp only
  split
  case isTrue =>
    -- The Almanac's entry is none of the stores.
    show frameStores (setR _ (pgStack n) F.STACK_CONST_DEGRADED 0) = frameStores d
    simp
  case isFalse => simp [apply_ite frameStores]

end

/-! ### Placing a thermal frame: the Stacks and memory stay -/

/-- The lines' Stacks, and memory. -/
def stackStores (d : Dev) : Store StackSt × List Host.Cell := (d.ramans, d.mem)

section
variable (d : Dev) (p q k n : Nat)

@[simp] theorem stackStores_setR (f : Fld) (v : Nat) : stackStores (setR d p f v) = stackStores d := rfl
@[simp] theorem stackStores_raise (b : Nat) : stackStores (raise d p b) = stackStores d := rfl
@[simp] theorem stackStores_setPool (x : PoolSt) : stackStores (setPool d p x) = stackStores d := rfl
@[simp] theorem stackStores_setFrame (x : FrameSt) : stackStores (setFrame d n x) = stackStores d := rfl

@[simp] theorem stackStores_bump (f : Fld) : stackStores (bump d p f) = stackStores d := by
  rw [bump, addC_eq, stackStores_setR]

@[simp] theorem stackStores_raiseOn (b : Nat) (was now : Bool) : stackStores (raiseOn d p b was now) = stackStores d := by
  unfold raiseOn; split <;> rfl

@[simp] theorem stackStores_onlyIf (c : Bool) {f : Dev → Dev} (h : ∀ e, stackStores (f e) = stackStores e) :
    stackStores (onlyIf c f d) = stackStores d :=
  onlyIf_rel (R := fun a b => stackStores b = stackStores a) (fun _ => rfl) d c (h d)

@[simp] theorem stackStores_peak (f : Fld) (v : Nat) : stackStores (peak d p f v) = stackStores d := by
  obtain h | ⟨w, h⟩ := peak_cases d p f v <;> rw [h]; rfl

@[simp] theorem stackStores_heldPeak (b : Nat) : stackStores (heldPeak d b) = stackStores d := by
  obtain h | ⟨w, h⟩ := heldPeak_cases d b <;> rw [h]; rfl

@[simp] theorem stackStores_poolShow : stackStores (poolShow d p) = stackStores d := by simp [poolShow]

@[simp] theorem stackStores_takeShelves : stackStores (takeShelves d p q k).2 = stackStores d := by
  unfold takeShelves
  split
  · simp [giveShelves]
  · simp [refuseShelf]

/-- Placed in a shelf or dropped, an item changes frames, pools, registers and events at most. -/
theorem stackStores_placeFrame (kind num : Nat) (bytes : List Nat) :
    stackStores (placeFrame d n kind num bytes).2 = stackStores d := by
  unfold placeFrame
  dsimp only
  split <;> simp

end

theorem stack_placeFrame (d : Dev) (n m kind num : Nat) (bytes : List Nat) :
    stack (placeFrame d n kind num bytes).2 m = stack d m := by
  have h : (placeFrame d n kind num bytes).2.ramans = d.ramans :=
    congrArg Prod.fst (stackStores_placeFrame d n kind num bytes)
  rw [stack, h, stack]

theorem mem_placeFrame (d : Dev) (n kind num : Nat) (bytes : List Nat) : (placeFrame d n kind num bytes).2.mem = d.mem :=
  congrArg Prod.snd (stackStores_placeFrame d n kind num bytes)

/-! ### The thermal frame (R197, R202) -/

/-- The temperatures `x` of a flip are kept for the drift filter of line `n`. -/
def therPut (d : Dev) (n : Nat) (x : TherRes) : Dev :=
  setStack d n { stack d n with thermal := therKeep d n (x :: (stack d n).thermal) }

@[simp] theorem stack_therPut (d : Dev) (n : Nat) (x : TherRes) :
    stack (therPut d n x) n = { stack d n with thermal := therKeep d n (x :: (stack d n).thermal) } := by simp [therPut]

/-- The newest temperatures are always kept: an A instant can still use them. -/
theorem therKeep_cons (d : Dev) (n : Nat) (x : TherRes) (l : List TherRes) : ∃ l', therKeep d n (x :: l) = x :: l' := by
  unfold therKeep
  dsimp only
  split
  · exact ⟨l, rfl⟩
  · by_cases hyoung : d.ticks < x.flipAt + msT 10 <;> simp [hyoung]

/-- The evaluation of suspects keeps the resting stack and the temperatures. -/
theorem stack_suspectShow (d : Dev) (n : Nat) (v : StackIv) (now prev : List (Option Rat)) (pp : StackP) :
    (stack (suspectShow d n v now prev pp) n).rest = (stack d n).rest ∧
      (stack (suspectShow d n v now prev pp) n).thermal = (stack d n).thermal := by
  unfold suspectShow raiseOn
  dsimp only
  split <;> simp

@[simp] theorem frameStores_therPut (d : Dev) (n : Nat) (x : TherRes) : frameStores (therPut d n x) = frameStores d := rfl

@[simp] theorem frameStores_suspectShow (d : Dev) (n : Nat) (v : StackIv) (now prev : List (Option Rat)) (pp : StackP) :
    frameStores (suspectShow d n v now prev pp) = frameStores d := by simp [suspectShow]

section
variable {d : Dev} {n : Nat} (t : Nat)

/-- Without a resting stack, or with one whose frame is built, nothing happens. -/
theorem doThermal_idle (h : ∀ q, (stack d n).rest = some q → q.todo = false) : doThermal t n d = advance d t := by
  cases hr : (stack d n).rest with
  | none => simp [doThermal, hr]
  | some q => simp [doThermal, hr, h q hr]

/-- A thermal frame to be built: on a device `e`, where the constants are decided and the bins shown, the resting stack is
marked as built; unless the flip fell in PAUSED, OFF or DARK, its temperatures are kept, the suspects evaluated and the frame
placed. -/
theorem doThermal_todo {q : RestSt} (hr : (stack d n).rest = some q) (ht : q.todo = true) :
    ∃ (e : Dev) (temps : List (Option Int)) (now prev : List (Option Rat)) (pp : StackP) (bytes : List Nat),
      (doThermal t n d =
        if q.iv.flipSt = 5 ∨ q.iv.flipSt = 0 ∨ q.iv.flipSt = 6 then e
        else (placeFrame (suspectShow (therPut e n ⟨q.iv.flipAt, q.iv.p, temps⟩) n q.iv now prev pp) n 1 q.no bytes).2) ∧
      frameStores e = frameStores d ∧ ∃ r, (stack e n).rest = some r ∧ r.todo = false ∧ r.no = q.no ∧ r.iv = q.iv := by
  have hrest : (stack (advance d t) n).rest = some q := hr
  -- Rewriting the outer match alone: `simp` would rebuild the whole body, too deep a term for the kernel.
  unfold doThermal
  dsimp only
  rw [hrest]
  dsimp only
  rw [ht, if_neg (by simp)]
  exact ⟨_, _, _, _, _, _, rfl, by simp, _, congrArg StackSt.rest (stack_setStack ..), rfl, rfl, rfl⟩

/-- A flip in PAUSED: the resting stack is built, and no frame is placed. -/
theorem doThermal_paused {q : RestSt} (hr : (stack d n).rest = some q) (ht : q.todo = true) (hst : q.iv.flipSt = 5) :
    (∃ r, (stack (doThermal t n d) n).rest = some r ∧ r.todo = false ∧ r.no = q.no ∧ r.iv = q.iv) ∧
      frameStores (doThermal t n d) = frameStores d := by
  obtain ⟨e, temps, now, prev, pp, bytes, hd, hstores, hbuilt⟩ := doThermal_todo t hr ht
  rw [hd, if_pos (Or.inl hst)]
  exact ⟨hbuilt, hstores⟩

/-- A flip in an operating state: the resting stack is built, its temperatures are kept, and memory stays. -/
theorem doThermal_places {q : RestSt} (hr : (stack d n).rest = some q) (ht : q.todo = true)
    (hst : ¬ (q.iv.flipSt = 5 ∨ q.iv.flipSt = 0 ∨ q.iv.flipSt = 6)) :
    (∃ r, (stack (doThermal t n d) n).rest = some r ∧ r.todo = false ∧ r.no = q.no ∧ r.iv = q.iv) ∧
      (∃ x l, (stack (doThermal t n d) n).thermal = x :: l ∧ x.flipAt = q.iv.flipAt ∧ x.p = q.iv.p) ∧
      (doThermal t n d).mem = d.mem := by
  obtain ⟨e, temps, now, prev, pp, bytes, hd, hstores, hbuilt⟩ := doThermal_todo t hr ht
  let x : TherRes := ⟨q.iv.flipAt, q.iv.p, temps⟩
  obtain ⟨l, hl⟩ := therKeep_cons e n x (stack e n).thermal
  obtain ⟨hrest, hther⟩ := stack_suspectShow (therPut e n x) n q.iv now prev pp
  rw [stack_therPut] at hrest hther
  have hmem : (suspectShow (therPut e n x) n q.iv now prev pp).mem = d.mem :=
    (frameStores_eq_iff.1 (by simp [hstores])).2.2
  rw [hd, if_neg hst, stack_placeFrame, mem_placeFrame, hrest, hther]
  exact ⟨hbuilt, ⟨x, l, hl, rfl, rfl⟩, hmem⟩

end

/-! ### SEED (R195) -/

/-- A write of SEED that reaches its page: ALM_RESTORE as written, and with bit 0 the seeds wait for the next flip. -/
theorem doSeed_reach {d : Dev} {n : Nat} (t v : Nat) (h : Reach d (pgStack n)) :
    doSeed t n v d =
      (let e := setR (advance d t) (pgStack n) F.STACK_ALM_RESTORE (v / 2 % 2)
       if v % 2 = 1 then setStack e n { stack d n with seedWait := true } else e) := by
  rw [doSeed, onPage_reach _ (reach_advance h)]
  simp [bits, bit]

end Sys2Proof.Machine

open Sys2Proof Sys2Proof.Machine

/-- Settles O25: a shot by what it finds in the open interval (`doRamanShot_idle`, `doRamanShot_counts`,
`doRamanShot_stale`), a flip by the oldest closed interval (`doFlip_rests`), a thermal frame by the resting stack
(`doThermal_idle`, `doThermal_todo`), SEED by its bit 0 (`doSeed_reach`). -/
theorem ramanShotsAndStacksAccumulate : Obligations.RamanShotsAndStacksAccumulate := by
  unfold Obligations.RamanShotsAndStacksAccumulate
  constructor
  · intro s t n st an hn hs
    have hshot := gives_ramanShotAccumulate t hn hs st an
    refine ⟨?_, ?_, ?_, ?_⟩
    · intro hc
      exact hshot.of_eq (doRamanShot_idle t st an (by simp [hc]))
    · intro v hc hv
      exact hshot.of_eq (doRamanShot_idle t st an (by simp [hc, hv]))
    · intro v a r hc hv h0 h1 hst han
      obtain ⟨vsats, sats, cal, hd⟩ := doRamanShot_counts t st an hc hv rfl h0 h1 hst han
      refine does_of_gives (hshot.of_eq hd) ?_
      simp only [stack_settle, stack_setStack, regsBut_settle, settle_evt, settle_mem, setStack_evt, setStack_mem,
        addC_evt, addC_mem]
      exact ⟨_, rfl, rfl, rfl, rfl, rfl, fun q hq => ⟨accBank_acc _ _ hq, accBank_acc _ _ hq⟩,
        regsBut_addC_shotSampled _ _ _ _ _ _ _ _ _, rfl, rfl⟩
    · intro v a b r hc hv hstale
      refine does_of_gives (hshot.of_eq (doRamanShot_stale t st an hc hv hstale)) ?_
      simp only [stack_settle, stack_setStack, regsBut_settle, settle_evt, settle_mem, setStack_evt, setStack_mem,
        getR_settle, getR_setStack, bump, addC_evt, addC_mem]
      exact ⟨rfl, getR_addC_narrow _ _ _ (by decide), regsBut_addC_shotSampled _ _ _ _ _ _ _ _ _, rfl, rfl⟩
  · intro s t n hn hs
    have hflip := gives_stackFlip t hn hs
    have hther := gives_thermalFrameBuilt t hn hs
    refine ⟨fun h => hflip.of_eq (doFlip_none t h), ?_, ?_, ?_, ?_, ?_, ?_, ?_⟩
    · intro v r h
      obtain ⟨x, l, hd, hclosed, hno, hrest⟩ := doFlip_rests t h
      refine does_of_gives (hflip.of_eq hd) ?_
      simp only [stack_settle, stack_flipShown, getR_settle, settle_ticks, evtRaw_settle, settle_mem, flipShown_ticks,
        flipShown_mem, seedConsts_ticks, seedConsts_mem, advance_ticks]
      exact ⟨hclosed, hno, ⟨_, hrest, rfl, rfl, rfl⟩, getR_flipShown_stackNo .., getR_flipShown_counted .., by omega,
        flipShown_raises_flip .., rfl⟩
    · intro hr
      exact hther.of_eq (doThermal_idle t (by simp [hr]))
    · intro q hr ht
      exact hther.of_eq (doThermal_idle t (by simp [hr, ht]))
    · intro q hr ht hst
      obtain ⟨hrest, hstores⟩ := doThermal_paused t hr ht hst
      obtain ⟨hframes, hpools, -⟩ := frameStores_eq_iff.1 hstores
      refine does_of_gives hther ?_
      simp only [stack_settle, frame_settle, settle_pools]
      exact ⟨hrest, by rw [frame, hframes, frame], hpools⟩
    · intro q hr ht hst
      refine does_of_gives hther ?_
      simp only [stack_settle, settle_mem]
      exact doThermal_places t hr ht (by omega)
    · intro hreach v hv
      refine does_of_gives ((gives_stackSeed t hn hs v).of_eq (doSeed_reach t v hreach)) ?_
      simp only [if_pos hv, stack_settle, stack_setStack, getR_settle, getR_setStack, getR_setR_self, regsBut_settle]
      exact ⟨trivial, Nat.mod_mod _ _, regsBut_setR (advance s.dev t) _ _ _, by simp⟩
    · intro hreach v hv
      exact (gives_stackSeed t hn hs v).of_eq ((doSeed_reach t v hreach).trans (if_neg (by omega)))

end

section
/-! PROOFS. What the proofs of Stride cores share: cores under the elementary updates, the issue of a word, its retirement
(R207, R210, R211). -/

namespace Sys2Proof.Machine

open Sys2Proof

/-! ### Cores under the elementary updates -/

section
variable (d : Dev) (n k : Nat)

@[simp] theorem core_setCore (x : CoreSt) : core (setCore d n k x) n k = x := by simp [core, setCore]

theorem core_setCore_ne {i j : Nat} (x : CoreSt) (h : i * 16 + j ≠ n * 16 + k) : core (setCore d n k x) i j = core d i j :=
  Store.get_set_ne _ _ _ _ h.symm

@[simp] theorem core_settle : core (settle d) n k = core d n k := by simp [core]
@[simp] theorem core_advance (t : Nat) : core (advance d t) n k = core d n k := rfl
@[simp] theorem core_setR (p : Nat) (f : Fld) (v : Nat) : core (setR d p f v) n k = core d n k := rfl
@[simp] theorem core_raise (p b : Nat) : core (raise d p b) n k = core d n k := rfl
@[simp] theorem core_addC (p : Nat) (f : Fld) (c : Nat) : core (addC d p f c) n k = core d n k := by rw [addC_eq]; rfl
@[simp] theorem core_coreShow (i j : Nat) : core (coreShow d n k) i j = core d i j := rfl
@[simp] theorem core_setCoreState (st i j : Nat) : core (setCoreState d n k st) i j = core d i j := rfl
@[simp] theorem core_levelShow (q i j : Nat) : core (levelShow d n k q) i j = core d i j := rfl
@[simp] theorem getR_setCore (x : CoreSt) (p : Nat) (f : Fld) : getR (setCore d n k x) p f = getR d p f := rfl
@[simp] theorem evtRaw_setCore (x : CoreSt) (p : Nat) : evtRaw (setCore d n k x) p = evtRaw d p := rfl
@[simp] theorem setCore_evt (x : CoreSt) : (setCore d n k x).evt = d.evt := rfl
@[simp] theorem setCore_mem (x : CoreSt) : (setCore d n k x).mem = d.mem := rfl
@[simp] theorem setCore_ticks (x : CoreSt) : (setCore d n k x).ticks = d.ticks := rfl
@[simp] theorem coreShow_evt : (coreShow d n k).evt = d.evt := rfl
@[simp] theorem coreShow_mem : (coreShow d n k).mem = d.mem := rfl
@[simp] theorem levelShow_evt (q : Nat) : (levelShow d n k q).evt = d.evt := rfl
@[simp] theorem levelShow_mem (q : Nat) : (levelShow d n k q).mem = d.mem := rfl
@[simp] theorem setCoreState_evt (st : Nat) : (setCoreState d n k st).evt = d.evt := rfl
@[simp] theorem setCoreState_mem (st : Nat) : (setCoreState d n k st).mem = d.mem := rfl
@[simp] theorem setCoreState_ticks (st : Nat) : (setCoreState d n k st).ticks = d.ticks := rfl

/-- The page of a core shows its program counter and its bank, and nothing else of it. -/
theorem getR_coreShow {f : Fld} (hpc : fldAt F.STRIDE_PC ≠ fldAt f) (hisr : fldAt F.STRIDE_IN_ISR ≠ fldAt f) :
    getR (coreShow d n k) (pgStride n k) f = getR d (pgStride n k) f := by
  simp only [coreShow]
  rw [getR_setR_fld _ _ _ hisr, getR_setR_fld _ _ _ hpc]

/-- A change of a core's state leaves the other fields of its page alone. -/
theorem getR_setCoreState (st : Nat) {f : Fld} (hst : fldAt cSTATE ≠ fldAt f) (hf : fldAt f < 131072) :
    getR (setCoreState d n k st) (pgStride n k) f = getR d (pgStride n k) f := by
  unfold setCoreState clShow
  rw [getR_setR_page _ _ (pgStride_ne_pgStrideCl n k).symm (by decide) hf, getR_setR_fld _ _ _ hst]

end

/-! ### Retirement (R210, R211) -/

/-- Core `k` of line `n` has become `y` in one cycle: its page shows it and counts the cycle. -/
def retired (d : Dev) (n k : Nat) (y : CoreSt) : Dev := coreShow (addCycles (setCore d n k y) n k 1) n k

section
variable (d : Dev) (n k : Nat) (y : CoreSt)

@[simp] theorem core_retired : core (retired d n k y) n k = y := by simp [retired, addCycles]

theorem core_retired_ne {i j : Nat} (h : i * 16 + j ≠ n * 16 + k) : core (retired d n k y) i j = core d i j := by
  simp [retired, addCycles, core_setCore_ne _ _ _ _ h]

@[simp] theorem retired_evt : (retired d n k y).evt = d.evt := by simp [retired, addCycles]
@[simp] theorem retired_mem : (retired d n k y).mem = d.mem := by simp [retired, addCycles]
@[simp] theorem retired_ticks : (retired d n k y).ticks = d.ticks := by rw [retired, addCycles, addC_eq]; rfl

theorem getR_retired_pc : getR (retired d n k y) (pgStride n k) F.STRIDE_PC = y.pc % 4096 := by
  simp only [retired, coreShow]
  rw [getR_setR_fld _ _ _ (by decide), getR_setR_self]
  simp [addCycles, F.STRIDE_PC]

theorem getR_retired_isr : getR (retired d n k y) (pgStride n k) F.STRIDE_IN_ISR = b2n y.isr := by
  simp only [retired, coreShow]
  rw [getR_setR_self]
  cases h : y.isr <;> simp [addCycles, b2n, F.STRIDE_IN_ISR, h]

theorem getR_retired_cycles :
    getR (retired d n k y) (pgStride n k) F.STRIDE_CYCLES = (getR d (pgStride n k) F.STRIDE_CYCLES + 1) % 2 ^ 64 := by
  rw [retired, getR_coreShow _ _ _ (by decide) (by decide), addCycles, getR_addC_wide _ _ _ (by decide)]
  rfl

theorem regsBut_retired :
    RegsBut [(pgStride n k, F.STRIDE_CYCLES), (pgStride n k, F.STRIDE_PC), (pgStride n k, F.STRIDE_IN_ISR)]
      (retired d n k y) d := by
  intro q f h
  simp only [List.forall_mem_cons] at h
  obtain ⟨hcyc, hpc, hisr, -⟩ := h
  simp only [retired, coreShow, addCycles, addC_eq]
  rw [getR_setR_ne _ _ hisr, getR_setR_ne _ _ hpc, getR_setR_ne _ _ hcyc, getR_setCore]

end

/-- A command whose effect is that core `k` retires into `y`. -/
theorem Retires.of_gives {c : Instr} {s : State} {n k t : Nat} {y : CoreSt}
    (h : Gives c s (retired (advance s.dev t) n k y)) : Retires c s n k y := by
  refine does_of_gives h ?_
  simp only [core_settle, getR_settle, settle_evt, settle_mem, regsBut_settle, core_retired, retired_evt, retired_mem]
  exact ⟨trivial, fun i j hij => core_retired_ne _ _ _ _ hij, getR_retired_cycles .., getR_retired_pc .., getR_retired_isr ..,
    regsBut_retired (advance s.dev t) n k y, rfl, rfl⟩

section
variable {d : Dev} {n k : Nat} {x : CoreSt} (hm : coreMoves d n k = false) (hs : x.slots = 0) (hl : x.late = [])
include hm hs hl

/-- Outside delay slots, with nothing in flight, an instruction that is no branch steps the core. -/
theorem retireInstr_stepped (now late : List (Nat × Nat)) :
    retireInstr d n k x ⟨none, now, late, false, none⟩ (!late.isEmpty) = retired d n k (stepped x now late) := by
  have hmoves (y : CoreSt) : coreMoves (retired d n k y) n k = false := by
    rw [← hm]; simp only [retired, coreShow, addCycles, addC_eq]; rfl
  have hnext : nextPc { x with regs := putRegs x.regs (x.late ++ now), late := late, lat2 := !late.isEmpty } =
      stepped x now late := by simp [nextPc, stepped, hs, hl]
  simp only [retireInstr, hnext, Bool.false_eq_true, if_false]
  exact if_neg fun ⟨_, hmv⟩ => Bool.false_ne_true ((hmoves _).symm.trans hmv)

theorem finish_stepped (now late : List (Nat × Nat)) :
    finish d n k x ⟨none, now, late, false, none⟩ = retired d n k (stepped x now late) :=
  retireInstr_stepped hm hs hl now late

omit hm in
/-- A branch opens two delay slots, so that a change of the cluster's point waits for them. -/
theorem retireInstr_branched (target : Option Nat) (now : List (Nat × Nat)) :
    retireInstr d n k x (branchRes target now) false = retired d n k (branched x now target) := by
  have hnext : nextPc { x with regs := putRegs x.regs (x.late ++ now), late := [], lat2 := false } =
      { x with regs := putRegs x.regs now, late := [], lat2 := false, pc := x.pc + 1 } := by simp [nextPc, hs, hl]
  simp only [retireInstr, branchRes, hnext, if_true]
  rw [if_neg (by simp)]
  simp [retired, branched, hl]

omit hm in
theorem finish_branched (target : Option Nat) (now : List (Nat × Nat)) :
    finish d n k x (branchRes target now) = retired d n k (branched x now target) := retireInstr_branched hs hl target now

end

/-! ### Issue (R210, R211, R215) -/

/-- A core that issues `w` runs the instruction that the command names, where that is the instruction of `w`. -/
theorem issue_runs {d : Dev} {t n k op w : Nat} {run : Dev → CoreSt → Nat → Dev} (h : Issues d n k w) (hop : opOf w = op)
    (hl : opListed op = true) : issue t n k op run d = run (advance d t) (core d n k) w := by
  obtain ⟨hst, hup, -, hel, hpc, hw, hs, -⟩ := h
  have hst' : coreState (advance d t) n k = 1 := hst
  have hup' : clusterUp (advance d t) n (coreCluster k) = true := hup
  simp [issue, hst', hup', hel, hpc, hw, hop, hl, hs]

theorem Issues.advance {d : Dev} {n k w : Nat} (h : Issues d n k w) (t : Nat) : Issues (advance d t) n k w := h

section
variable {c : Instr} {s : State} {t n k op w : Nat} (hn : n < 12) (hk : k < 16) (hs : Awake s) (hi : Issues s.dev n k w)
  (hop : opOf w = op) (hl : opListed op = true)
include hn hk hs hi hop hl

theorem gives_stride {run : Dev → CoreSt → Nat → Dev} (hc : exec c s = act (coreOk n k) s (issue t n k op run)) :
    Gives c s (run (advance s.dev t) (core s.dev n k) w) :=
  (gives_of_act hc (by simp [coreOk, hn, hk]) hs).of_eq (issue_runs hi hop hl)

/-- An instruction that only touches registers, and is no branch, steps the core. -/
theorem retires_of_stepped {f : CoreSt → Nat → StrideRes} {now late : List (Nat × Nat)}
    (hc : exec c s = act (coreOk n k) s (issueRegs t n k op f))
    (hf : f (core s.dev n k) w = ⟨none, now, late, false, none⟩) :
    Retires c s n k (stepped (core s.dev n k) now late) := by
  obtain ⟨-, -, hm, -, -, -, hslots, hlate⟩ := hi.advance t
  refine .of_gives (t := t) ((gives_stride hn hk hs hi hop hl hc).of_eq ?_)
  rw [hf]
  exact finish_stepped hm hslots hlate now late

/-- A branch opens its delay slots. -/
theorem retires_of_branched {f : CoreSt → Nat → StrideRes} {target : Option Nat} {now : List (Nat × Nat)}
    (hc : exec c s = act (coreOk n k) s (issueRegs t n k op f)) (hf : f (core s.dev n k) w = branchRes target now) :
    Retires c s n k (branched (core s.dev n k) now target) := by
  obtain ⟨-, -, -, -, -, -, hslots, hlate⟩ := hi.advance t
  refine .of_gives (t := t) ((gives_stride hn hk hs hi hop hl hc).of_eq ?_)
  rw [hf]
  exact finish_branched hslots hlate target now

end

end Sys2Proof.Machine
end

section
/-! PROOFS. Addresses and circular buffers (R208, R209). -/

namespace Sys2Proof.Machine

open Sys2Proof

section
variable (x : CoreSt) (p : Nat) (v : Int)

theorem ux_16 : ux 16 v = (v % 65536).toNat := rfl

theorem circ_lt : circ x p v < 65536 := by
  have h (u : Int) : ux 16 u < 65536 := by rw [ux_16]; omega
  unfold circ
  extract_lets l b
  split_ifs <;> exact h _

theorem circ_of_len_zero (h : rdL x p = 0) : circ x p v = ux 16 v := by simp [circ, h]

variable {x p v} (h : rdL x p ≠ 0)
include h

theorem circ_above (hv : (rdB x p : Int) + rdL x p ≤ v) : circ x p v = ux 16 (v - rdL x p) := by simp [circ, h, hv]

theorem circ_below (hv : v < rdB x p) : circ x p v = ux 16 (v + rdL x p) := by
  have hno : ¬ (rdB x p : Int) + rdL x p ≤ v := by omega
  simp [circ, h, hno, hv]

theorem circ_inside (hlo : (rdB x p : Int) ≤ v) (hhi : v < (rdB x p : Int) + rdL x p) : circ x p v = ux 16 v := by
  simp [circ, h, hlo.not_gt, hhi.not_ge]

/-- From less than a buffer's length outside the buffer the one correction leads into it. -/
theorem circ_within (hb : rdB x p + rdL x p ≤ 65536) (hlo : (rdB x p : Int) ≤ v + rdL x p)
    (hhi : v < (rdB x p : Int) + 2 * rdL x p) : rdB x p ≤ circ x p v ∧ circ x p v < rdB x p + rdL x p := by
  rcases le_or_gt ((rdB x p : Int) + rdL x p) v with hv | hv
  · rw [circ_above h hv, ux_16]; omega
  rcases lt_or_ge v (rdB x p : Int) with hv' | hv'
  · rw [circ_below h hv', ux_16]; omega
  · rw [circ_inside h hv' hv, ux_16]; omega

end

section
variable {x : CoreSt} {w : Nat}

theorem address_mode0 (h : bits w 17 2 = 0) : address x w = (rdP x (bits w 19 3), rdP x (bits w 19 3)) := by
  simp [address, h]

theorem address_mode1 (h : bits w 17 2 = 1) : address x w =
    (circ x (bits w 19 3) (rdP x (bits w 19 3) + sx 14 (bits w 0 14)), rdP x (bits w 19 3)) := by
  simp [address, h]

theorem address_mode2 (h : bits w 17 2 = 2) : address x w =
    (rdP x (bits w 19 3), circ x (bits w 19 3) (rdP x (bits w 19 3) + sx 14 (bits w 0 14))) := by
  simp [address, h]

theorem address_mode3 (h : bits w 17 2 = 3) : address x w =
    (rdP x (bits w 19 3), circ x (bits w 19 3) (rdP x (bits w 19 3) + rdM x (bits w 15 2))) := by
  simp [address, h]

end

end Sys2Proof.Machine

open Sys2Proof Sys2Proof.Machine

/-- Settles O28: an address by its mode (`address_mode1` to `address_mode3`), a raw sum by where it lies (`circ_above`,
`circ_below`, `circ_inside`), and the step that stays inside (`circ_within`). -/
theorem circularAddressesCorrectOnce : Obligations.CircularAddressesCorrectOnce := by
  unfold Obligations.CircularAddressesCorrectOnce
  intro x p v
  refine ⟨?_, ?_, circ_of_len_zero x p v, circ_above, circ_below, circ_inside, circ_within⟩
  · rintro w rfl rfl
    exact ⟨address_mode1, address_mode2⟩
  · rintro w rfl hmode rfl
    exact address_mode3 hmode

end

section
/-! PROOFS. Stride loads, stores and moves of extended registers (R208–R210, R215, R218). -/

namespace Sys2Proof.Machine

open Sys2Proof

/-! ### The words of loads and stores -/

/-- `w` is a load or store word with these fields, its reserved bit 14 being 0 (R208). -/
structure MemWord (w op i p mode m imm : Nat) : Prop where
  op : opOf w = op
  reg : fD w = i
  ptr : bits w 19 3 = p
  mode : bits w 17 2 = mode
  mod : bits w 15 2 = m
  bit14 : bit w 14 = false
  imm : bits w 0 14 = imm

theorem MemWord.of_eq {w op i p mode m imm : Nat}
    (hw : w = op * 2 ^ 26 + i * 2 ^ 22 + p * 2 ^ 19 + mode * 2 ^ 17 + m * 2 ^ 15 + imm) (ho : op < 64) (hi : i < 16)
    (hp : p < 8) (hmode : mode < 4) (hm : m < 4) (himm : imm < 2 ^ 14) : MemWord w op i p mode m imm := by
  have hbit : w / 2 ^ 14 % 2 = 0 := by omega
  constructor
  case bit14 => rw [bit, hbit]; rfl
  all_goals simp only [opOf, fD, bits]; omega

theorem ptrWrite_eq {w p mode : Nat} (x : CoreSt) (v : Nat) (hp : bits w 19 3 = p) (hmode : bits w 17 2 = mode) :
    ptrWrite x w v = if mode < 2 then [] else [(kP (bank x) p, v % 65536)] := by
  simp only [ptrWrite, wrP, hp, hmode, ux_16]
  norm_cast

/-- The pointer write of an access in mode `mode` that leaves pointer `p` at `v`. -/
def moved (x : CoreSt) (p mode v : Nat) : List (Nat × Nat) := if mode < 2 then [] else [(kP (bank x) p, v % 65536)]

theorem moved_circ (x : CoreSt) (p q : Nat) {mode : Nat} (v : Int) (h : 2 ≤ mode) :
    moved x p mode (circ x q v) = [(kP (bank x) p, circ x q v)] := by
  rw [moved, if_neg (by omega), Nat.mod_eq_of_lt (circ_lt x q v)]

/-- A half is the low or the high one of its word (R209). -/
theorem sx_memH (x : CoreSt) (a : Nat) : sx 16 (memH x a) = sx 16 (memW x a / 2 ^ (16 * (a / 2 % 2))) := by
  have hshift : 8 * (a / 2 % 2 * 2) = 16 * (a / 2 % 2) := by omega
  simp only [memH, bits, sx, hshift, Nat.mod_mod]

section
variable {x : CoreSt} {w op i p mode m imm b ea v : Nat} (hw : MemWord w op i p mode m imm) (ha : address x w = (ea, v))
  (hb : ea % b = 0)
include hw ha hb

/-- A load of an aligned address moves its pointer at once, and its value is in flight. -/
theorem loadRes_aligned (val : CoreSt → Nat → Int) :
    loadRes b val x w = ⟨none, moved x p mode v, [(kD (bank x) i, ux 32 (val x ea))], false, none⟩ := by
  simp only [loadRes, hw.bit14, ha, hb, Bool.false_eq_true, ne_eq, not_true_eq_false, if_false, moved, wrD, hw.reg,
    ptrWrite_eq x _ hw.ptr hw.mode]

theorem runStore_aligned {n k : Nat} {d : Dev} (put : CoreSt → Nat → Nat → CoreSt) :
    runStore n k b put d x w = finish d n k (put x ea (rdD x i)) (okRes (moved x p mode v)) := by
  simp only [runStore, hw.bit14, ha, hb, Bool.false_eq_true, ne_eq, not_true_eq_false, if_false, moved, hw.reg,
    ptrWrite_eq x _ hw.ptr hw.mode]

end

section
variable {s : State} {x : CoreSt} {n k w i p mode m imm ea v : Nat} (t : Nat) (hn : n < 12) (hk : k < 16) (hs : Awake s)
  (hi : Issues s.dev n k w) (hx : core s.dev n k = x) (ha : address x w = (ea, v))
include hn hk hs hi hx ha

theorem retires_strideLd (hw : MemWord w 0x18 i p mode m imm) (h4 : ea % 4 = 0) :
    Retires (.strideLd t n k) s n k (stepped x (moved x p mode v) [(kD (bank x) i, memW x ea % 2 ^ 32)]) :=
  hx ▸ retires_of_stepped hn hk hs hi hw.op rfl rfl (hx.symm ▸ loadRes_aligned hw ha h4 _)

theorem retires_strideLdh (hw : MemWord w 0x19 i p mode m imm) (h2 : ea % 2 = 0) :
    Retires (.strideLdh t n k) s n k (stepped x (moved x p mode v) [(kD (bank x) i, ux 32 (sx 16 (memH x ea)))]) :=
  hx ▸ retires_of_stepped hn hk hs hi hw.op rfl rfl (hx.symm ▸ loadRes_aligned hw ha h2 _)

/-- A store of an aligned address leaves the core as it was but for its store and its pointer. -/
theorem retires_store {c : Instr} {op b : Nat} {put : CoreSt → Nat → Nat → CoreSt} (hw : MemWord w op i p mode m imm)
    (hb : ea % b = 0) (hop : opListed op = true) (hc : exec c s = act (coreOk n k) s (issue t n k op (runStore n k b put)))
    (hput : (put x ea (rdD x i)).slots = x.slots ∧ (put x ea (rdD x i)).late = x.late) :
    Retires c s n k (stepped (put x ea (rdD x i)) (moved x p mode v) []) := by
  subst hx
  obtain ⟨-, -, hm, -, -, -, hslots, hlate⟩ := hi.advance t
  refine .of_gives (t := t) ((gives_stride hn hk hs hi hw.op hop hc).of_eq ?_)
  rw [runStore_aligned hw ha hb]
  exact finish_stepped hm (hput.1.trans hslots) (hput.2.trans hlate) _ []

theorem retires_strideSt (hw : MemWord w 0x1A i p mode m imm) (h4 : ea % 4 = 0) :
    Retires (.strideSt t n k) s n k (stepped (putW x ea (rdD x i)) (moved x p mode v) []) :=
  retires_store t hn hk hs hi hx ha hw h4 rfl rfl ⟨rfl, rfl⟩

theorem retires_strideSth (hw : MemWord w 0x1B i p mode m imm) (h2 : ea % 2 = 0) :
    Retires (.strideSth t n k) s n k (stepped (putH x ea (rdD x i)) (moved x p mode v) []) :=
  retires_store t hn hk hs hi hx ha hw h2 rfl rfl ⟨rfl, rfl⟩

end

/-! ### Moves of extended registers (R218) -/

/-- `w` is a word of the X format with these fields, its low half being 0. -/
structure ExtWord (w op i e : Nat) : Prop where
  op : opOf w = op
  reg : fD w = i
  ext : bits w 16 6 = e
  low : bits w 0 16 = 0

theorem ExtWord.of_eq {w op i e : Nat} (hw : w = op * 2 ^ 26 + i * 2 ^ 22 + e * 2 ^ 16) (ho : op < 64) (hi : i < 16)
    (he : e < 64) : ExtWord w op i e := by
  constructor <;> simp only [opOf, fD, bits] <;> omega

/-- What a write of an extended register makes of core `x` has the same delay slots and results in flight. -/
def KeepsFlight (x : CoreSt) (o : Option (CoreSt × List (Nat × Nat) × Bool)) : Prop :=
  ∀ r ∈ o, r.1.slots = x.slots ∧ r.1.late = x.late

theorem extWrite_keepsFlight (d : Dev) (x : CoreSt) (e v : Nat) : KeepsFlight x (extWrite d x e v) := by
  unfold extWrite
  dsimp only
  repeat' refine iteInduction (motive := KeepsFlight x) (fun _ => ?_) (fun _ => ?_)
  all_goals rintro _ ⟨⟩
  all_goals exact ⟨rfl, rfl⟩

theorem extWrite_pointer (d : Dev) (x : CoreSt) {p : Nat} (v : Nat) (hp : p < 8) :
    extWrite d x p v = some (x, [(kP (bank x) p, v % 65536)], true) := by simp [extWrite, hp]

theorem extWrite_stat (d : Dev) (x : CoreSt) (v : Nat) :
    extWrite d x 28 v = some (x, [(kStat (bank x), andNot (rdStat x) 0x1003F ||| (v &&& 0x1003F))], false) := by
  simp [extWrite, statMask]

theorem extRead_coreId (d : Dev) (n k : Nat) (x : CoreSt) :
    extRead d n k x 46 = some ((k + n * 16 + pkgIndex d % 8 * 256 : Nat) : Int) := by simp [extRead]

section
variable {s : State} {x : CoreSt} {n k w i e t : Nat} (hn : n < 12) (hk : k < 16) (hs : Awake s) (hi : Issues s.dev n k w)
  (hx : core s.dev n k = x)
include hn hk hs hi hx

theorem retires_strideMovtx {y : CoreSt} {l : List (Nat × Nat)} {late : Bool} (hw : ExtWord w 0x16 i e)
    (he : extWrite (advance s.dev t) x e (rdD x i) = some (y, l, late)) :
    Retires (.strideMovtx t n k) s n k (if late then stepped y [] l else stepped y l []) := by
  subst hx
  obtain ⟨-, -, hm, -, -, -, hslots, hlate⟩ := hi.advance t
  obtain ⟨hys, hyl⟩ := extWrite_keepsFlight _ _ _ _ _ he
  refine .of_gives (t := t) ((gives_stride hn hk hs hi hw.op rfl rfl).of_eq ?_)
  cases late <;>
    simp only [runMovtx, hw.low, hw.ext, hw.reg, he, ne_eq, not_true_eq_false, if_false, if_true, Bool.false_eq_true]
  · exact finish_stepped hm (hys.trans hslots) (hyl.trans hlate) l []
  · exact finish_stepped hm (hys.trans hslots) (hyl.trans hlate) [] l

theorem retires_strideMovfx {v : Int} (hw : ExtWord w 0x17 i e) (he : extRead (advance s.dev t) n k x e = some v)
    (hne : e ≠ 45) : Retires (.strideMovfx t n k) s n k (stepped x [(kD (bank x) i, ux 32 v)] []) := by
  subst hx
  obtain ⟨-, -, hm, -, -, -, hslots, hlate⟩ := hi.advance t
  refine .of_gives (t := t) ((gives_stride hn hk hs hi hw.op rfl rfl).of_eq ?_)
  simp only [runMovfx, hw.ext, he, hw.low, hw.reg, if_true, if_neg hne]
  exact finish_stepped hm hslots hlate _ []

/-- A read of MAILBOX empties it (R224). -/
theorem retires_strideMovfx_mailbox (hw : ExtWord w 0x17 i 45) :
    Retires (.strideMovfx t n k) s n k (stepped { x with mailFull := false } [(kD (bank x) i, x.mailbox % 2 ^ 32)] []) := by
  subst hx
  obtain ⟨-, -, hm, -, -, -, hslots, hlate⟩ := hi.advance t
  refine .of_gives (t := t) ((gives_stride hn hk hs hi hw.op rfl rfl).of_eq ?_)
  have he (x : CoreSt) : extRead (advance s.dev t) n k x 45 = some (x.mailbox : Int) := by simp [extRead]
  simp only [runMovfx, hw.ext, he, hw.low, hw.reg, if_true]
  exact finish_stepped (x := { core s.dev n k with mailFull := false }) hm hslots hlate _ []

end

end Sys2Proof.Machine

open Sys2Proof Sys2Proof.Machine

/-- Settles O27: an aligned access of any mode moves its pointer and its word (`retires_strideLd`, `retires_strideSt`
and their halves), the address following its mode (`address_mode0` to `address_mode3`); a move writes or reads what
`extWrite` and `extRead` say (`retires_strideMovtx`, `retires_strideMovfx`, `retires_strideMovfx_mailbox`). -/
theorem strideLoadsStoresAndMoves : Obligations.StrideLoadsStoresAndMoves := by
  unfold Obligations.StrideLoadsStoresAndMoves
  intro s t n k w i p m imm hn hk hi hp hm himm hs hiss x a enc post postM
  have hmem {op mode : Nat} (hw : enc op mode) (ho : op < 64) (hmode : mode < 4) : MemWord w op i p mode m imm :=
    .of_eq hw ho hi hp hmode hm himm
  have hadr0 {op : Nat} (hf : MemWord w op i p 0 m imm) : address x w = (a, a) := by
    rw [address_mode0 hf.mode, hf.ptr]
  have hadr1 {op : Nat} (hf : MemWord w op i p 1 m imm) : address x w = (circ x p (a + sx 14 imm), a) := by
    rw [address_mode1 hf.mode, hf.ptr, hf.imm]
  have hadr2 {op : Nat} (hf : MemWord w op i p 2 m imm) : address x w = (a, circ x p (a + sx 14 imm)) := by
    rw [address_mode2 hf.mode, hf.ptr, hf.imm]
  have hadr3 {op : Nat} (hf : MemWord w op i p 3 m imm) : address x w = (a, circ x p (a + rdM x m)) := by
    rw [address_mode3 hf.mode, hf.ptr, hf.mod]
  refine ⟨fun hw ha => ?_, fun hw ha => ?_, fun hw ha => ?_, fun hw ha => ?_, fun hw ha => ?_, fun hw ha => ?_, fun hw ha => ?_,
    ?_, ?_, ?_, fun hw => ?_, fun hw => ?_, fun hw => ?_, fun hw => ?_⟩
  · have hf := hmem hw (by decide) (by decide)
    exact retires_strideLd t hn hk hs hiss rfl (hadr0 hf) hf ha
  · have hf := hmem hw (by decide) (by decide)
    exact retires_strideLd t hn hk hs hiss rfl (hadr1 hf) hf ha
  · have hf := hmem hw (by decide) (by decide)
    exact moved_circ x p p _ le_rfl ▸ retires_strideLd t hn hk hs hiss rfl (hadr2 hf) hf ha
  · have hf := hmem hw (by decide) (by decide)
    exact moved_circ x p p (mode := 3) _ (by decide) ▸ retires_strideLd t hn hk hs hiss rfl (hadr3 hf) hf ha
  · have hf := hmem hw (by decide) (by decide)
    exact sx_memH x a ▸ retires_strideLdh t hn hk hs hiss rfl (hadr0 hf) hf ha
  · have hf := hmem hw (by decide) (by decide)
    exact moved_circ x p p _ le_rfl ▸ retires_strideSt t hn hk hs hiss rfl (hadr2 hf) hf ha
  · have hf := hmem hw (by decide) (by decide)
    exact retires_strideSth t hn hk hs hiss rfl (hadr0 hf) hf ha
  · intro mode hmode ea wr
    exact ⟨fun hw => retires_strideLd t hn hk hs hiss rfl rfl (hmem hw (by decide) hmode),
      fun hw => retires_strideLdh t hn hk hs hiss rfl rfl (hmem hw (by decide) hmode),
      fun hw => retires_strideSt t hn hk hs hiss rfl rfl (hmem hw (by decide) hmode),
      fun hw => retires_strideSth t hn hk hs hiss rfl rfl (hmem hw (by decide) hmode)⟩
  · intro e he y l late hw
    exact retires_strideMovtx hn hk hs hiss rfl (.of_eq hw (by decide) hi he)
  · intro e he v hne hw hrd
    exact retires_strideMovfx hn hk hs hiss rfl (.of_eq hw (by decide) hi he) hrd hne
  · exact retires_strideMovtx hn hk hs hiss rfl (.of_eq hw (by decide) hi (by omega)) (extWrite_pointer _ _ _ hp)
  · exact retires_strideMovtx hn hk hs hiss rfl (.of_eq hw (by decide) hi (by decide)) (extWrite_stat _ _ _)
  · exact retires_strideMovfx_mailbox hn hk hs hiss rfl (.of_eq hw (by decide) hi (by decide))
  · have hid : k + 16 * n + 256 * (pkgIndex s.dev % 8) = ux 32 ((k + n * 16 + pkgIndex s.dev % 8 * 256 : Nat) : Int) := by
      rw [ux]; omega
    exact hid ▸ retires_strideMovfx hn hk hs hiss rfl (.of_eq hw (by decide) hi (by decide))
      (extRead_coreId (advance s.dev t) n k x) (by decide)

end

section
/-! PROOFS. The shelf of a Stride core: taking it and giving it back (R226, R338, R340). -/

namespace Sys2Proof.Machine

open Sys2Proof

theorem pgStride_ne_pgShelf {n k : Nat} (hn : n < 12) (hk : k < 16) : pgStride n k ≠ pgShelf (dieOf n) := by
  unfold pgStride lineBase pgShelf dieOf dieCommon
  rw [if_neg (by omega)]
  split <;> omega

/-- From `d` to `e` only the shelf of core `k` of line `n` has moved, with the pool of its die, the page and the events of
that pool. -/
structure ShelfMoves (n k : Nat) (d e : Dev) : Prop where
  frame : ∃ r ev po co, e = { d with regs := r, evt := ev, pools := po, cores := co }
  core : core e n k = { core d n k with shelf := (core e n k).shelf }
  regs : ∀ q f, q ≠ pgShelf (dieOf n) → fldAt f < 131072 → getR e q f = getR d q f
  evt : ∀ q, q ≠ pgShelf (dieOf n) → evtRaw e q = evtRaw d q

namespace ShelfMoves

variable {n k : Nat}

theorem refl (d : Dev) : ShelfMoves n k d d := ⟨⟨_, _, _, _, rfl⟩, rfl, fun _ _ _ _ => rfl, fun _ _ => rfl⟩

theorem trans (a b c : Dev) (h : ShelfMoves n k a b) (g : ShelfMoves n k b c) : ShelfMoves n k a c where
  frame := by
    obtain ⟨⟨_, _, _, _, rfl⟩, -⟩ := h
    obtain ⟨⟨_, _, _, _, rfl⟩, -⟩ := g
    exact ⟨_, _, _, _, rfl⟩
  core := by conv_lhs => rw [g.core, h.core]
  regs q f hq hf := (g.regs q f hq hf).trans (h.regs q f hq hf)
  evt q hq := (g.evt q hq).trans (h.evt q hq)

/-- The shelf may be marked as given back with the core as it was before the pool moved. -/
theorem shelfDown {d e : Dev} (h : ShelfMoves n k d e) :
    ShelfMoves n k d (setCore e n k { Machine.core d n k with shelf := false }) where
  frame := by
    obtain ⟨⟨_, _, _, _, rfl⟩, -⟩ := h
    exact ⟨_, _, _, _, rfl⟩
  core := by rw [core_setCore]
  regs := h.regs
  evt := h.evt

theorem mem {d e : Dev} (h : ShelfMoves n k d e) : e.mem = d.mem := by obtain ⟨⟨_, _, _, _, rfl⟩, -⟩ := h; rfl

theorem ledgerOut {d e : Dev} (h : ShelfMoves n k d e) : e.ledgerOut = d.ledgerOut := by
  obtain ⟨⟨_, _, _, _, rfl⟩, -⟩ := h; rfl

/-- The core's own page is not the pool's. -/
theorem getR_stride {d e : Dev} (h : ShelfMoves n k d e) (hn : n < 12) (hk : k < 16) {f : Fld} (hf : fldAt f < 131072) :
    getR e (pgStride n k) f = getR d (pgStride n k) f := h.regs _ f (pgStride_ne_pgShelf hn hk) hf

theorem evtRaw_stride {d e : Dev} (h : ShelfMoves n k d e) (hn : n < 12) (hk : k < 16) :
    evtRaw e (pgStride n k) = evtRaw d (pgStride n k) := h.evt _ (pgStride_ne_pgShelf hn hk)

end ShelfMoves

section
variable (n k : Nat) (d : Dev)

theorem setR_shelfMoves {f : Fld} (v : Nat) (hf : fldAt f < 131072) :
    ShelfMoves n k d (setR d (pgShelf (dieOf n)) f v) :=
  ⟨⟨_, _, _, _, rfl⟩, rfl, fun _ _ hq hg => getR_setR_page d v hq.symm hf hg, fun _ _ => rfl⟩

theorem raise_shelfMoves (b : Nat) : ShelfMoves n k d (raise d (pgShelf (dieOf n)) b) :=
  ⟨⟨_, _, _, _, rfl⟩, rfl, fun _ _ _ _ => rfl, fun _ hq => evtRaw_raise_ne d b hq.symm⟩

theorem setPool_shelfMoves (x : PoolSt) : ShelfMoves n k d (setPool d (dieOf n) x) :=
  ⟨⟨_, _, _, _, rfl⟩, rfl, fun _ _ _ _ => rfl, fun _ _ => rfl⟩

theorem setShelf_shelfMoves (b : Bool) : ShelfMoves n k d (setCore d n k { core d n k with shelf := b }) :=
  ⟨⟨_, _, _, _, rfl⟩, by simp, fun _ _ _ _ => rfl, fun _ _ => rfl⟩

theorem poolShow_shelfMoves : ShelfMoves n k d (poolShow d (dieOf n)) := by
  have hfree : fldAt (fFREE (dieOf n)) < 131072 := by unfold fFREE; split <;> decide
  have hcommon : fldAt (fCOMMON (dieOf n)) < 131072 := by unfold fCOMMON; split <;> decide
  unfold poolShow
  extract_lets was now e1 e2 e3
  have h3 : ShelfMoves n k d e3 := .trans _ _ _ (setR_shelfMoves n k d _ hfree)
    (.trans _ _ _ (setR_shelfMoves n k e1 _ hcommon) (setR_shelfMoves n k e2 _ (by decide)))
  refine .trans _ _ _ h3 ?_
  unfold raiseOn
  split
  · exact raise_shelfMoves n k e3 9
  · exact .refl e3

variable {q : Nat} (hq : q < 64) (c : Nat)
include hq

theorem freeShelf_shelfMoves : ShelfMoves n k d (freeShelf d (dieOf n) q c) := by
  have hheld : fldAt (fHELD q) < 131072 := by simp only [fldAt, fHELD, F.SHELFH_HELD]; omega
  unfold freeShelf
  extract_lets x mine e1 e2
  split
  · exact .refl d
  · have h1 : ShelfMoves n k d e1 := setPool_shelfMoves n k d _
    clear_value e1
    have h2 : ShelfMoves n k e1 e2 := setR_shelfMoves n k e1 _ hheld
    exact .trans _ _ _ h1 (.trans _ _ _ h2 (poolShow_shelfMoves n k e2))

theorem giveShelves_shelfMoves : ShelfMoves n k d (giveShelves d (dieOf n) q c) := by
  have hheld : fldAt (fHELD q) < 131072 := by simp only [fldAt, fHELD, F.SHELFH_HELD]; omega
  have hpeak : fldAt (fPEAK q) < 131072 := by simp only [fldAt, fPEAK, F.SHELFH_PEAK]; omega
  unfold giveShelves
  extract_lets ss x e1 e2 e3
  have h1 : ShelfMoves n k d e1 := setPool_shelfMoves n k d _
  clear_value e1
  have h2 : ShelfMoves n k e1 e2 := setR_shelfMoves n k e1 _ hheld
  clear_value e2
  have h3 : ShelfMoves n k e2 e3 := by
    rcases peak_cases e2 (pgShelf (dieOf n)) (fPEAK q) (heldBy e2 (dieOf n) q) with h | ⟨v, h⟩ <;> rw [show e3 = _ from h]
    · exact .refl e2
    · exact setR_shelfMoves n k e2 v hpeak
  exact .trans _ _ _ h1 (.trans _ _ _ h2 (.trans _ _ _ h3 (poolShow_shelfMoves n k e3)))

theorem takeShelves_shelfMoves : ShelfMoves n k d (takeShelves d (dieOf n) q c).2 := by
  have hlimit : fldAt (F.SHELFH_LIMIT_REFUSALS q) < 131072 := by simp only [fldAt, F.SHELFH_LIMIT_REFUSALS]; omega
  unfold takeShelves
  split
  · exact giveShelves_shelfMoves n k d hq c
  · unfold refuseShelf
    rw [bump, addC_eq]
    exact .trans _ _ _ (setR_shelfMoves n k d _ hlimit) (raise_shelfMoves n k _ 8)

end

section
variable (d : Dev) (n k : Nat)

theorem strideReq_lt : strideReq n < 64 := by unfold strideReq; omega

theorem dropShelf_shelfMoves : ShelfMoves n k d (dropShelf d n k) := by
  unfold dropShelf
  dsimp only
  split
  · exact (freeShelf_shelfMoves n k d (strideReq_lt n) 1).shelfDown
  · exact .refl d

theorem core_dropShelf : core (dropShelf d n k) n k = { core d n k with shelf := false } := by
  have h : (core (dropShelf d n k) n k).shelf = false := by
    unfold dropShelf
    dsimp only
    split
    case isTrue => simp
    case isFalse hno => simpa using hno
  rw [(dropShelf_shelfMoves d n k).core, h]

theorem wantShelf_shelfMoves : ShelfMoves n k d (wantShelf d n k) := by
  have htake := takeShelves_shelfMoves n k d (strideReq_lt n) 1
  unfold wantShelf
  dsimp only
  split
  · exact .refl d
  · split
    · exact .trans _ _ _ htake (setShelf_shelfMoves n k _ true)
    · exact htake

end

end Sys2Proof.Machine
end

section
/-! PROOFS. Stride branches, jumps, WAIT and HALT (R211, R215, R223). -/

namespace Sys2Proof.Machine

open Sys2Proof

/-! ### What the branches do to the registers (R215) -/

/-- `w` is a branch word with these fields (R215). -/
structure BranchWord (w op i j off : Nat) : Prop where
  op : opOf w = op
  s : bits w 22 4 = i
  t : bits w 18 4 = j
  reserved : bits w 12 6 = 0
  off : bits w 0 12 = off

theorem BranchWord.of_eq {w op i j off : Nat} (hw : w = op * 2 ^ 26 + i * 2 ^ 22 + j * 2 ^ 18 + off) (ho : op < 64)
    (hi : i < 16) (hj : j < 16) (hoff : off < 4096) : BranchWord w op i j off := by
  constructor <;> simp only [opOf, bits] <;> omega

theorem condBranch_eq {w op i j off : Nat} (hw : BranchWord w op i j off) (c : Int → Int → Bool) (x : CoreSt) :
    condBranch c x w = branchRes (if c (rdS x i) (rdS x j) then some (bTarget x w) else none) [] := by
  rw [condBranch, hw.reserved, hw.s, hw.t]; rfl

theorem bTarget_eq {w op i j off : Nat} (hw : BranchWord w op i j off) (x : CoreSt) :
    bTarget x w = (((x.pc : Int) + sx 12 off) % 4096).toNat := by
  rw [bTarget, hw.off]; rfl

theorem insBdec_eq {w op i off : Nat} (hw : BranchWord w op i 0 off) (x : CoreSt) :
    insBdec x w = branchRes (if ux 32 (rdS x i - 1) ≠ 0 then some (bTarget x w) else none)
      [(kD (bank x) i, ux 32 (rdS x i - 1))] := by
  have hreserved : bits w 12 10 = 0 := by
    have h1 := hw.reserved; have h2 := hw.t
    simp only [bits] at h1 h2 ⊢; omega
  have hv (v : Int) : ux 32 (ux 32 v : Nat) = ux 32 v := by simp only [ux]; omega
  simp only [insBdec, hreserved, hw.s, wrD, hv, ne_eq, not_true_eq_false, if_false]

theorem insJump_eq {w off : Nat} (hw : w = 0x25 * 2 ^ 26 + off) (hoff : off < 4096) (x : CoreSt) :
    insJump x w = branchRes (some off) [] := by
  have h1 : bits w 12 14 = 0 := by simp only [bits]; omega
  have h2 : bits w 0 12 = off := by simp only [bits]; omega
  simp [insJump, h1, h2]

theorem insJal_eq {w off : Nat} {x : CoreSt} (hw : w = 0x26 * 2 ^ 26 + off) (hoff : off < 4096) (hpc : x.pc < 4096) :
    insJal x w = branchRes (some off) [(kD (bank x) 15, x.pc + 3)] := by
  have h1 : bits w 12 14 = 0 := by simp only [bits]; omega
  have h2 : bits w 0 12 = off := by simp only [bits]; omega
  have h3 : ux 32 ((x.pc + 3 : Nat) : Int) = x.pc + 3 := by simp only [ux]; omega
  simp only [insJal, h1, h2, wrD, h3, ne_eq, not_true_eq_false, if_false]

theorem insJr_eq {w i : Nat} (hw : w = 0x27 * 2 ^ 26 + i * 2 ^ 22) (hi : i < 16) (x : CoreSt) :
    insJr x w = branchRes (some (rdD x i % 4096)) [] := by
  have h1 : bits w 0 22 = 0 := by simp only [bits]; omega
  have h2 : bits w 22 4 = i := by simp only [bits]; omega
  simp [insJr, h1, h2]

/-! ### RTI, WAIT and HALT (R223) -/

/-- The word of RTI, WAIT or HALT has nothing but its opcode. -/
theorem bits_plain (op : Nat) : bits (op * 2 ^ 26) 0 26 = 0 := by simp only [bits]; omega

/-- A further change of a core that has retired, which its page does not show. -/
theorem setCore_retired (d : Dev) (n k : Nat) {y z : CoreSt} (hpc : z.pc = y.pc) (hisr : z.isr = y.isr) :
    setCore (retired d n k y) n k z = retired d n k z := by
  simp only [retired, coreShow, addCycles, addC_eq, core_setR, core_setCore, getR_setCore, hpc, hisr]
  simp only [setCore, setR, Store.set_set]

/-- WAIT and HALT retire like an instruction without a result. -/
theorem retireInstr_plain {d : Dev} {n k w : Nat} (t : Nat) (hi : Issues d n k w) :
    retireInstr (advance d t) n k (core d n k) (okRes []) false = retired (advance d t) n k (stepped (core d n k) [] []) := by
  obtain ⟨-, -, hm, -, -, -, hslots, hlate⟩ := hi.advance t
  exact retireInstr_stepped hm hslots hlate [] []

section
variable {s : State} {x : CoreSt} {n k t : Nat} (hn : n < 12) (hk : k < 16) (hs : Awake s) (hx : core s.dev n k = x)
include hn hk hs hx

theorem retires_strideRti (hi : Issues s.dev n k (0x28 * 2 ^ 26)) (hisr : x.isr = true) :
    Retires (.strideRti t n k) s n k { branched x [] none with rti := true } := by
  subst hx
  obtain ⟨-, -, -, -, -, -, hslots, hlate⟩ := id hi
  refine .of_gives (t := t) ((gives_stride hn hk hs hi rfl rfl rfl).of_eq ?_)
  simp only [runRti, bits_plain, hisr, retireInstr_branched hslots hlate, core_retired, ne_eq, not_true_eq_false, if_false,
    Bool.not_true, Bool.false_eq_true]
  exact setCore_retired _ _ _ rfl rfl

theorem gives_strideWait (hi : Issues s.dev n k (0x29 * 2 ^ 26)) : Gives (.strideWait t n k) s
    (let d := retired (advance s.dev t) n k (stepped x [] [])
     if wanted x then d else setCoreState (setCore d n k { stepped x [] [] with waitAt := d.ticks }) n k 2) := by
  refine (gives_stride hn hk hs hi rfl rfl rfl).of_eq ?_
  simp only [runWait, bits_plain, ← hx, retireInstr_plain t hi, core_retired, ne_eq, not_true_eq_false, if_false]

theorem gives_strideHalt (hi : Issues s.dev n k (0x2A * 2 ^ 26)) : Gives (.strideHalt t n k) s
    (raise (setCoreState (dropShelf (retired (advance s.dev t) n k (stepped x [] [])) n k) n k 3) (pgStride n k) 8) := by
  refine (gives_stride hn hk hs hi rfl rfl rfl).of_eq ?_
  simp only [runHalt, bits_plain, ← hx, retireInstr_plain t hi, ne_eq, not_true_eq_false, if_false]

end

end Sys2Proof.Machine

open Sys2Proof Sys2Proof.Machine

/-- Settles O29: branches by what they decide (`condBranch_eq`, `insBdec_eq`) and jumps by their target open two delay slots
(`retires_of_branched`); RTI, WAIT and HALT as they retire (`retires_strideRti`, `gives_strideWait`, `gives_strideHalt`). -/
theorem strideBranchesAndStops : Obligations.StrideBranchesAndStops := by
  unfold Obligations.StrideBranchesAndStops
  intro s t n k w i j off hn hk hi hj hoff hs hiss x a b enc tgt if_
  have hword {op : Nat} (hw : enc op) (ho : op < 64) : BranchWord w op i j off := .of_eq hw ho hi hj hoff
  have hcond {c : Instr} {q : Prop} [Decidable q] {f : CoreSt → Nat → StrideRes} {g : Int → Int → Bool} {op : Nat}
      (hw : BranchWord w op i j off) (hl : opListed op = true)
      (hc : exec c s = act (coreOk n k) s (issueRegs t n k op f)) (hf : f x w = condBranch g x w) (hq : g a b = true ↔ q) :
      if_ c q := by
    refine retires_of_branched hn hk hs hiss hw.op hl hc (hf.trans ?_)
    rw [condBranch_eq hw, bTarget_eq hw]
    exact congrArg (branchRes · []) (if_congr hq rfl rfl)
  refine ⟨fun hw => ?_, fun hw => ?_, fun hw => ?_, fun hw => ?_, fun hw hj0 => ?_, fun hw => ?_, fun hw => ?_, fun hw => ?_,
    fun hw hisr => ?_, fun hw hwant => ?_, fun hw hwant => ?_, fun hw => ?_⟩
  · exact hcond (hword hw (by decide)) rfl rfl rfl beq_iff_eq
  · exact hcond (hword hw (by decide)) rfl rfl rfl bne_iff_ne
  · exact hcond (hword hw (by decide)) rfl rfl rfl decide_eq_true_iff
  · exact hcond (hword hw (by decide)) rfl rfl rfl decide_eq_true_iff
  · have hf := hword hw (by decide)
    exact retires_of_branched hn hk hs hiss hf.op rfl rfl ((insBdec_eq (hj0 ▸ hf) x).trans (bTarget_eq hf x ▸ rfl))
  · have hop : opOf w = 0x25 := by simp only [opOf]; omega
    exact retires_of_branched hn hk hs hiss hop rfl rfl (insJump_eq hw hoff x)
  · have hop : opOf w = 0x26 := by simp only [opOf]; omega
    obtain ⟨-, -, -, -, hpc, -⟩ := id hiss
    exact retires_of_branched hn hk hs hiss hop rfl rfl (insJal_eq hw hoff hpc)
  · have hop : opOf w = 0x27 := by simp only [opOf]; omega
    exact retires_of_branched hn hk hs hiss hop rfl rfl (insJr_eq hw hi x)
  · subst hw
    exact retires_strideRti hn hk hs rfl hiss hisr
  · subst hw
    exact .of_gives ((gives_strideWait hn hk hs rfl hiss).of_eq (if_pos hwant))
  · subst hw
    refine does_of_gives ((gives_strideWait hn hk hs rfl hiss).of_eq (if_neg (by simp [x, hwant]))) ?_
    simp only [coreState_settle, coreState_setCoreState, if_true, core_settle, core_setCoreState, core_setCore, settle_evt,
      settle_mem, settle_ticks, setCoreState_evt, setCoreState_mem, setCoreState_ticks, setCore_evt, setCore_mem, setCore_ticks,
      retired_evt, retired_mem]
    exact ⟨trivial, rfl, rfl, rfl⟩
  · subst hw
    have hmoves := dropShelf_shelfMoves (retired (advance s.dev t) n k (stepped x [] [])) n k
    refine does_of_gives (gives_strideHalt hn hk hs rfl hiss) ?_
    simp only [coreState_settle, coreState_raise, coreState_setCoreState, if_true, core_settle, core_raise, core_setCoreState,
      core_dropShelf, core_retired, evtRaw_settle, settle_mem, raise_mem, setCoreState_mem]
    exact ⟨trivial, trivial, rfl, raise_bit .., hmoves.mem.trans (retired_mem ..)⟩

end

section
/-! PROOFS. Stride ports, marks and mailboxes (R213, R224–R227). -/

namespace Sys2Proof.Machine

open Sys2Proof

/-! ### Sources and mailboxes (R220, R224) -/

theorem bit_or_two_pow (a i : Nat) : bit (a ||| 2 ^ i) i = true := by
  rw [bit_eq_testBit, Nat.testBit_or, Nat.testBit_two_pow_self, Bool.or_true]

/-- From `d` to `e` nothing but registers and core `k` of line `n` has moved. -/
def CoreOnly (n k : Nat) (d e : Dev) : Prop :=
  (∃ r co, e = { d with regs := r, cores := co }) ∧ ∀ i j, i * 16 + j ≠ n * 16 + k → core e i j = core d i j

namespace CoreOnly

variable {n k : Nat} {d e : Dev}

theorem trans (a b c : Dev) (h : CoreOnly n k a b) (g : CoreOnly n k b c) : CoreOnly n k a c := by
  obtain ⟨⟨_, _, rfl⟩, h⟩ := h
  obtain ⟨⟨_, _, rfl⟩, g⟩ := g
  exact ⟨⟨_, _, rfl⟩, fun i j hij => (g i j hij).trans (h i j hij)⟩

theorem evt (h : CoreOnly n k d e) : e.evt = d.evt := by obtain ⟨⟨_, _, rfl⟩, -⟩ := h; rfl
theorem mem (h : CoreOnly n k d e) : e.mem = d.mem := by obtain ⟨⟨_, _, rfl⟩, -⟩ := h; rfl
theorem ticks (h : CoreOnly n k d e) : e.ticks = d.ticks := by obtain ⟨⟨_, _, rfl⟩, -⟩ := h; rfl

end CoreOnly

section
variable (n k : Nat) (d : Dev)

theorem setCore_coreOnly (x : CoreSt) : CoreOnly n k d (setCore d n k x) :=
  ⟨⟨_, _, rfl⟩, fun _ _ h => core_setCore_ne _ _ _ _ h⟩

theorem setCoreState_coreOnly (st : Nat) : CoreOnly n k d (setCoreState d n k st) := ⟨⟨_, _, rfl⟩, fun _ _ _ => rfl⟩

theorem addC_coreOnly (p : Nat) (f : Fld) (c : Nat) : CoreOnly n k d (addC d p f c) := by
  rw [addC_eq]; exact ⟨⟨_, _, rfl⟩, fun _ _ _ => rfl⟩

/-- A WAIT in progress is counted up to now: only the mark of what is counted moves in the core. -/
theorem waitNote_spec : CoreOnly n k d (waitNote d n k) ∧ ∃ at_, core (waitNote d n k) n k = { core d n k with waitAt := at_ } := by
  unfold waitNote
  split
  · exact ⟨⟨⟨_, _, rfl⟩, fun _ _ _ => rfl⟩, _, rfl⟩
  · exact ⟨.trans _ _ _ (setCore_coreOnly n k d _) (addC_coreOnly n k _ _ _ _), _, by rw [addCycles, core_addC, core_setCore]⟩

/-- The onset of a source is kept in IPEND, whether or not it ends a WAIT. -/
theorem srcRaise_spec (i : Nat) : CoreOnly n k d (srcRaise d n k i) ∧
    ∃ sa at_, core (srcRaise d n k i) n k =
      { core d n k with ipend := (core d n k).ipend ||| 2 ^ i, srcAt := sa, waitAt := at_ } := by
  unfold srcRaise
  extract_lets x y e
  have he : CoreOnly n k d e := setCore_coreOnly n k d y
  have hcore : core e n k = y := core_setCore ..
  split
  · obtain ⟨hw, at_, hat⟩ := waitNote_spec n k e
    exact ⟨.trans _ _ _ he (.trans _ _ _ hw (setCoreState_coreOnly n k _ 1)), _, at_, by
      rw [core_setCoreState, hat, hcore]⟩
  · exact ⟨he, _, _, hcore⟩

/-- A value in the mailbox, which is full and raises source 5. -/
theorem mailPut_spec (v : Nat) : CoreOnly n k d (mailPut d n k v) ∧ (core (mailPut d n k v) n k).mailbox = v ∧
    (core (mailPut d n k v) n k).mailFull = true ∧ bit (core (mailPut d n k v) n k).ipend 5 = true := by
  unfold mailPut
  extract_lets x e
  have he : CoreOnly n k d e := onlyIf_rel (fun d => ⟨⟨_, _, rfl⟩, fun _ _ _ => rfl⟩) _ _ (addC_coreOnly n k d _ _ _)
  clear_value e
  obtain ⟨hs, sa, at_, hcore⟩ := srcRaise_spec n k (setCore e n k { x with mailbox := v, mailFull := true }) 5
  refine ⟨.trans _ _ _ he (.trans _ _ _ (setCore_coreOnly n k e _) hs), ?_⟩
  rw [hcore, core_setCore]
  exact ⟨rfl, rfl, bit_or_two_pow _ _⟩

end

/-! ### IN (R213, R225) -/

/-- `w` is an IN word for port `q` (R215). -/
structure InWord (w i q : Nat) : Prop where
  op : opOf w = 0x3A
  reg : fD w = i
  port : bits w 20 2 = q
  low : bits w 0 20 = 0

theorem InWord.of_eq {w i q : Nat} (hw : w = 0x3A * 2 ^ 26 + i * 2 ^ 22 + q * 2 ^ 20) (hi : i < 16) (hq : q < 4) :
    InWord w i q := by
  constructor <;> simp only [opOf, fD, bits] <;> omega

section
variable {d : Dev} {n k : Nat}

/-- A stall counts a cycle, as a stall too, and leaves the core alone. -/
theorem portStall_spec (d : Dev) (n k : Nat) : core (portStall d n k) n k = core d n k ∧
    getR (portStall d n k) (pgStride n k) F.STRIDE_STALL_CYCLES =
      min (getR d (pgStride n k) F.STRIDE_STALL_CYCLES + 1) (2 ^ 32 - 1) ∧
    getR (portStall d n k) (pgStride n k) F.STRIDE_CYCLES = (getR d (pgStride n k) F.STRIDE_CYCLES + 1) % 2 ^ 64 ∧
    (portStall d n k).evt = d.evt := by
  simp only [portStall, addCycles, bump, core_addC, addC_evt]
  rw [getR_addC_fld _ _ _ (by decide), getR_addC_narrow _ _ _ (by decide), getR_addC_wide _ _ _ (by decide),
    getR_addC_fld _ _ _ (by decide)]
  exact ⟨trivial, rfl, rfl, trivial⟩

theorem getR_levelShow (d : Dev) (n k q : Nat) : getR (levelShow d n k q) (pgStride n k) (F.STRIDE_IN_LEVEL q) =
    (Store.get (core d n k).bufs [] q).length % 2 ^ 13 := getR_setR_self ..

theorem rdStat_stepped (x : CoreSt) (v : Nat) (late : List (Nat × Nat)) :
    rdStat (stepped x [(kStat (bank x), v)] late) = v := Store.get_set_self ..

/-- Core `x` with word `a` popped from port `q`, where `r` stays. -/
def popped (x : CoreSt) (q : Nat) (a : InW) (r : List InW) : CoreSt :=
  { x with bufs := Store.set x.bufs [] q r, frame := if bit a.word 22 then a.frame else x.frame }

theorem runIn_empty {x : CoreSt} {w i q : Nat} (hw : InWord w i q) (hb : Store.get x.bufs [] q = []) :
    runIn n k d x w = portStall d n k := by
  simp [runIn, hw.low, hw.port, hb]

theorem runIn_pops {x : CoreSt} {w i q : Nat} {a : InW} {r : List InW} (hw : InWord w i q)
    (hb : Store.get x.bufs [] q = a :: r) (hm : coreMoves d n k = false) (hs : x.slots = 0) (hl : x.late = []) :
    runIn n k d x w = levelShow (retired d n k (stepped (popped x q a r)
      [(kStat (bank x), rdStat x ||| (bits a.word 16 6 * 256))] [(kD (bank x) i, a.word % 2 ^ 32)])) n k q := by
  simp only [runIn, hw.low, hw.port, hb, ne_eq, not_true_eq_false, if_false, hw.reg]
  rw [← finish_stepped (x := popped x q a r) hm hs hl]
  rfl

end

/-! ### OUT (R213, R227) -/

/-- `w` is an OUT word for port `q` and feature `id`, with K and PL 0 (R215). -/
structure OutWord (w i q id : Nat) : Prop where
  op : opOf w = 0x3B
  reg : fD w = i
  port : bits w 21 1 = q
  id : bits w 8 8 = id
  low : bits w 0 8 = 0
  reserved : bits w 16 3 = 0
  keep : bit w 19 = false
  pl : bit w 20 = false

theorem OutWord.of_eq {w i q id : Nat} (hw : w = 0x3B * 2 ^ 26 + i * 2 ^ 22 + q * 2 ^ 21 + id * 2 ^ 8) (hi : i < 16)
    (hq : q < 2) (hid : id < 256) : OutWord w i q id := by
  have h19 : w / 2 ^ 19 % 2 = 0 := by omega
  have h20 : w / 2 ^ 20 % 2 = 0 := by omega
  constructor
  case keep => rw [bit, h19]; rfl
  case pl => rw [bit, h20]; rfl
  all_goals simp only [opOf, fD, bits]; omega

/-- The feature word that OUT makes (R227). -/
def featureOf (d : Dev) (n k : Nat) (x : CoreSt) (i q id : Nat) : FeatW :=
  ⟨rdD x i, rdD x (i + 1) % 65536, id, k, q, false, x.frame, bits (rdStat x) 8 6 ||| 8 * b2n (isStale d (pgStride n k) 0)⟩

theorem outPort_setOut (x : CoreSt) {q : Nat} (l : List FeatW) : outPort (setOut x q l) q = l := by
  unfold outPort setOut; split <;> rfl

theorem setOut_keeps (x : CoreSt) (q : Nat) (l : List FeatW) :
    (setOut x q l).slots = x.slots ∧ (setOut x q l).late = x.late ∧ (setOut x q l).pc = x.pc ∧ bank (setOut x q l) = bank x := by
  unfold setOut; split <;> exact ⟨rfl, rfl, rfl, rfl⟩

/-- The marks are bits 13:8 of STAT. -/
theorem marks_cleared (v : Nat) : bits (andNot v 0x3F00) 8 6 = 0 := by
  refine Nat.eq_of_testBit_eq fun j => ?_
  rw [bits, Nat.testBit_mod_two_pow, Nat.testBit_div_two_pow, andNot_testBit, Nat.zero_testBit]
  by_cases hj : j < 6
  · have hmask : ∀ j < 6, Nat.testBit 0x3F00 (j + 8) = true := by decide
    rw [hmask j hj]; simp
  · simp [hj]

section
variable {d : Dev} {n k w i q id : Nat} {x : CoreSt} (hw : OutWord w i q id) (heven : i % 2 = 0)
include hw heven

theorem runOut_full (h : 8 ≤ (outPort x q).length) : runOut n k d x w = portStall d n k := by
  simp [runOut, hw.low, hw.reserved, hw.reg, hw.port, heven, h]

theorem runOut_pushes (h : (outPort x q).length < 8) (hm : coreMoves d n k = false) (hs : x.slots = 0) (hl : x.late = []) :
    runOut n k d x w = bump (retired d n k (stepped (setOut x q (outPort x q ++ [featureOf d n k x i q id]))
      [(kStat (bank x), andNot (rdStat x) 0x3F00)] [])) (pgStride n k)
      (if q = 0 then F.STRIDE_OUT_WORDS0 else F.STRIDE_OUT_WORDS1) := by
  obtain ⟨hks, hkl, -⟩ := setOut_keeps x q (outPort x q ++ [featureOf d n k x i q id])
  rw [← finish_stepped hm (hks.trans hs) (hkl.trans hl)]
  simp [runOut, hw.low, hw.reserved, hw.reg, hw.port, hw.keep, hw.pl, hw.id, heven, h.not_ge, featureOf, okRes]

end

/-! ### MARK and SIG (R224, R226) -/

theorem insMark_eq {w m : Nat} (hw : w = 0x3C * 2 ^ 26 + m * 2 ^ 8) (hm : m < 64) (x : CoreSt) :
    insMark x w = okRes [(kStat (bank x), rdStat x ||| m * 256)] := by
  have h0 : bits w 0 8 = 0 := by simp only [bits]; omega
  have h14 : bits w 14 12 = 0 := by simp only [bits]; omega
  have h8 : bits w 8 6 = m := by simp only [bits]; omega
  simp [insMark, h0, h14, h8, wrStat]

theorem runSig_eq {d : Dev} {n k w i c : Nat} {x : CoreSt} (hw : w = 0x3D * 2 ^ 26 + i * 2 ^ 22 + c * 2 ^ 18) (hi : i < 16)
    (hc : c < 16) (hm : coreMoves d n k = false) (hs : x.slots = 0) (hl : x.late = []) :
    runSig n k d x w =
      (let e := retired d n k (stepped x [] [])
       if c = k then raise (setR e (pgStride n k) F.STRIDE_MAILBOX_OUT (rdD x i)) (pgStride n k) 13
       else mailPut e n c (rdD x i)) := by
  have h0 : bits w 0 18 = 0 := by simp only [bits]; omega
  have h18 : bits w 18 4 = c := by simp only [bits]; omega
  have hreg : fD w = i := by simp only [fD, bits]; omega
  rw [← finish_stepped hm hs hl]
  simp only [runSig, h0, h18, hreg, ne_eq, not_true_eq_false, if_false]
  rfl

end Sys2Proof.Machine

open Sys2Proof Sys2Proof.Machine

/-- Settles O31: IN and OUT by what their port holds (`runIn_empty`, `runIn_pops`, `runOut_full`, `runOut_pushes`), MARK as
an instruction on STAT (`insMark_eq`), SIG by the core it names (`runSig_eq`, `mailPut_spec`). -/
theorem stridePortsAndMailboxes : Obligations.StridePortsAndMailboxes := by
  unfold Obligations.StridePortsAndMailboxes
  intro s t n k w i hn hk hi hs hiss x p
  obtain ⟨-, -, hm, -, -, -, hslots, hlate⟩ := hiss.advance t
  refine ⟨?_, ?_, ?_, ?_, ?_, ?_, ?_⟩
  · intro q hq hw hb
    have hf := InWord.of_eq hw hi hq
    obtain ⟨hcore, hstall, hcycles, hevt⟩ := portStall_spec (advance s.dev t) n k
    refine does_of_gives ((gives_stride (t := t) hn hk hs hiss hf.op rfl rfl).of_eq (runIn_empty hf hb)) ?_
    simp only [core_settle, getR_settle, settle_evt]
    exact ⟨hcore, hstall, hcycles, hevt⟩
  · intro q hq a r hw hb
    have hf := InWord.of_eq hw hi hq
    refine does_of_gives ((gives_stride (t := t) hn hk hs hiss hf.op rfl rfl).of_eq (runIn_pops hf hb hm hslots hlate)) ?_
    have hbufs : Store.get (popped x q a r).bufs [] q = r := Store.get_set_self ..
    simp only [core_settle, getR_settle, settle_evt, settle_mem, core_levelShow, core_retired, levelShow_evt, levelShow_mem,
      retired_evt, retired_mem]
    refine ⟨hbufs, rfl, rfl, rfl, rdStat_stepped (popped x q a r) _ _, rfl, ?_, rfl, rfl⟩
    refine (getR_levelShow ..).trans ?_
    rw [core_retired]
    exact congrArg (·.length % 2 ^ 13) hbufs
  · intro q id hq hid heven hw hlen
    have hf := OutWord.of_eq hw hi hq hid
    refine does_of_gives ((gives_stride (t := t) hn hk hs hiss hf.op rfl rfl).of_eq
      (runOut_pushes hf heven hlen hm hslots hlate)) ?_
    simp only [core_settle, settle_evt, settle_mem, bump, core_addC, core_retired, addC_evt, addC_mem, retired_evt, retired_mem]
    obtain ⟨-, -, hpc, hbank⟩ := setOut_keeps x q (outPort x q ++ [featureOf (advance s.dev t) n k x i q id])
    have hstat := rdStat_stepped (setOut x q (outPort x q ++ [featureOf (advance s.dev t) n k x i q id]))
      (andNot (rdStat x) 0x3F00) []
    rw [hbank] at hstat
    exact ⟨outPort_setOut .., (congrArg (bits · 8 6) hstat).trans (marks_cleared _), congrArg (· + 1) hpc, rfl, rfl⟩
  · intro q id hq hid heven hw hlen
    have hf := OutWord.of_eq hw hi hq hid
    obtain ⟨hcore, hstall, -⟩ := portStall_spec (advance s.dev t) n k
    refine does_of_gives ((gives_stride (t := t) hn hk hs hiss hf.op rfl rfl).of_eq (runOut_full hf heven hlen)) ?_
    simp only [core_settle, getR_settle]
    exact ⟨hcore, hstall⟩
  · intro m hm hw
    have hop : opOf w = 0x3C := by simp only [opOf]; omega
    exact retires_of_stepped hn hk hs hiss hop rfl rfl (insMark_eq hw hm x)
  · intro hw
    have hop : opOf w = 0x3D := by simp only [opOf]; omega
    refine does_of_gives ((gives_stride (t := t) hn hk hs hiss hop rfl rfl).of_eq
      ((runSig_eq hw hi hk hm hslots hlate).trans (if_pos rfl))) ?_
    simp only [core_settle, getR_settle, evtRaw_settle, settle_mem, core_raise, core_setR, core_retired, getR_raise,
      raise_mem, setR_mem, retired_mem]
    exact ⟨rfl, getR_setR_self .., raise_bit .., rfl⟩
  · intro c hc hck hw
    have hop : opOf w = 0x3D := by simp only [opOf]; omega
    obtain ⟨honly, hmail, hfull, hsrc⟩ := mailPut_spec n c (retired (advance s.dev t) n k (stepped x [] [])) (rdD x i)
    refine does_of_gives ((gives_stride (t := t) hn hk hs hiss hop rfl rfl).of_eq
      ((runSig_eq hw hi hc hm hslots hlate).trans (if_neg hck))) ?_
    simp only [core_settle, settle_evt, settle_mem]
    exact ⟨(honly.2 n k (by omega)).trans (core_retired ..), hmail, hfull, hsrc, honly.evt.trans (retired_evt ..),
      honly.mem.trans (retired_mem ..)⟩

end

section
/-! PROOFS. Stride faults, interrupts, the timer and the doorbell (R211, R215, R219–R222, R224). -/

namespace Sys2Proof.Machine

open Sys2Proof

/-! ### The instructions by their opcode (R215) -/

/-- Every Stride instruction is the issue of its own opcode, which is listed. -/
theorem strideOps_issue (t n k : Nat) (s : State) : ∀ q ∈ strideOps t n k,
    opListed q.1 = true ∧ ∃ run, exec q.2 s = act (coreOk n k) s (issue t n k q.1 run) := by
  unfold strideOps
  simp only [List.cons_append, List.nil_append]
  repeat' refine List.forall_mem_cons.2 ⟨⟨rfl, _, rfl⟩, ?_⟩
  exact List.forall_mem_nil _

/-! ### Faults (R219) -/

theorem strideFault_spec (d : Dev) {n k c : Nat} (hn : n < 12) (hk : k < 16) (hc : c < 8) :
    let x := core d n k
    let e := strideFault d n k c
    coreState e n k = 4 ∧ getR e (pgStride n k) F.STRIDE_CAUSE = c ∧ getR e (pgStride n k) F.STRIDE_FAULT_PC = x.pc % 4096 ∧
    (evtRaw e (pgStride n k)).testBit 9 = true ∧ (core e n k).regs = putRegs x.regs x.late ∧ (core e n k).mem = x.mem ∧
    (core e n k).pc = x.pc ∧ e.ledgerOut.length = d.ledgerOut.length + 1 ∧ e.mem = d.mem := by
  unfold strideFault
  extract_lets x p e1 e2 e3 e4 e
  have hmoves : ShelfMoves n k e4 (dropShelf e4 n k) := dropShelf_shelfMoves e4 n k
  have hreg {f : Fld} (hpc : fldAt F.STRIDE_PC ≠ fldAt f) (hisr : fldAt F.STRIDE_IN_ISR ≠ fldAt f) (hf : fldAt f < 131072) :
      getR e p f = getR (setCoreState e2 n k 4) p f := by
    rw [show getR e p f = _ from getR_coreShow _ _ _ hpc hisr, show getR (dropShelf e4 n k) p f = _ from
      hmoves.getR_stride hn hk hf]
    rfl
  have hcore : core e n k = { x with regs := putRegs x.regs x.late, late := [], lat2 := false, shelf := false } :=
    (core_dropShelf e4 n k).trans (by rw [show core e4 n k = core e1 n k from rfl, core_setCore])
  have hevt : evtRaw e p = evtRaw e4 p := hmoves.evtRaw_stride hn hk
  refine ⟨?_, ?_, ?_, ?_, ?_, ?_, ?_, ?_, hmoves.mem⟩
  · rw [coreState, hreg (by decide) (by decide) (by decide), ← coreState, coreState_setCoreState, if_pos rfl]
  · rw [hreg (by decide) (by decide) (by decide), getR_setCoreState _ _ _ _ (by decide) (by decide)]
    exact (getR_setR_self ..).trans (Nat.mod_eq_of_lt hc)
  · rw [hreg (by decide) (by decide) (by decide), getR_setCoreState _ _ _ _ (by decide) (by decide)]
    exact (getR_setR_fld _ _ _ (by decide)).trans (getR_setR_self ..)
  · rw [hevt]
    exact raise_bit ..
  · rw [hcore]
  · rw [hcore]
  · rw [hcore]
  · rw [show e.ledgerOut = e4.ledgerOut from hmoves.ledgerOut]
    exact List.length_append

/-! ### Issue, branch by branch (R211, R215, R219) -/

section
variable {d : Dev} {t n k op : Nat} {run : Dev → CoreSt → Nat → Dev}

theorem issue_idle (h : coreState d n k ≠ 1) : issue t n k op run d = advance d t := if_pos (.inl h)

/-- Core `k` of line `n` comes to its next instruction: it runs, and takes no interrupt first. -/
def AtBoundary (d : Dev) (n k : Nat) : Prop :=
  coreState d n k = 1 ∧ clusterUp d n (coreCluster k) = true ∧ eligible (core d n k) = false

variable (h : AtBoundary d n k)
include h

theorem issue_fetch : issue t n k op run d =
    if 4096 ≤ (core d n k).pc then strideFault (advance d t) n k 5
    else
      let w := Store.get (core d n k).prog 0 (core d n k).pc
      if !opListed (opOf w) then strideFault (advance d t) n k 1
      else if opOf w ≠ op then advance d t
      else if noSlot op ∧ (core d n k).slots ≠ 0 then strideFault (advance d t) n k 3
      else run (advance d t) (core d n k) w := by
  obtain ⟨hst, hup, hel⟩ := h
  have hst' : coreState (advance d t) n k = 1 := hst
  have hup' : clusterUp (advance d t) n (coreCluster k) = true := hup
  exact if_neg (by simp [hst', hup', hel])

theorem issue_pcEnd (hpc : 4096 ≤ (core d n k).pc) : issue t n k op run d = strideFault (advance d t) n k 5 := by
  rw [issue_fetch h, if_pos hpc]

variable (hpc : (core d n k).pc < 4096)
include hpc

theorem issue_illegal (hl : opListed (opOf (Store.get (core d n k).prog 0 (core d n k).pc)) = false) :
    issue t n k op run d = strideFault (advance d t) n k 1 := by
  rw [issue_fetch h, if_neg hpc.not_ge]; simp [hl]

theorem issue_other (hl : opListed (opOf (Store.get (core d n k).prog 0 (core d n k).pc)) = true)
    (ho : opOf (Store.get (core d n k).prog 0 (core d n k).pc) ≠ op) : issue t n k op run d = advance d t := by
  rw [issue_fetch h, if_neg hpc.not_ge]; simp [hl, ho]

theorem issue_slot (hl : opListed op = true) (ho : opOf (Store.get (core d n k).prog 0 (core d n k).pc) = op)
    (hno : noSlot op = true) (hs : (core d n k).slots ≠ 0) : issue t n k op run d = strideFault (advance d t) n k 3 := by
  rw [issue_fetch h, if_neg hpc.not_ge]; simp [ho, hl, hno, hs]

end

/-! ### Interrupts, the timer and the doorbell (R220–R222, R224) -/

section
variable {s : State} {n k : Nat} (t : Nat) (hn : n < 12) (hk : k < 16) (hs : Awake s)
include hn hk hs

theorem gives_interruptTaken : Gives (.interruptTaken t n k) s (doInterrupt t n k s.dev) :=
  gives_of_act rfl (by simp [coreOk, hn, hk]) hs

theorem gives_strideTimerExpiry : Gives (.strideTimerExpiry t n k) s (doTimer t n k s.dev) :=
  gives_of_act rfl (by simp [coreOk, hn, hk]) hs

theorem gives_doorbell : Gives (.doorbell t n k) s (doDoorbell t n k s.dev) := gives_of_act rfl (by simp [coreOk, hn, hk]) hs

end

/-- The lowest of the first eight bits of a word is found. -/
theorem find_lowest {v i : Nat} (hi : i < 8) (hset : bit v i = true) (hlow : ∀ j < i, bit v j = false) :
    (List.range 8).find? (fun s => bit v s) = some i := by
  rw [List.find?_range_eq_some]
  exact ⟨hset, List.mem_range.2 hi, fun j hj => by simp [hlow j hj]⟩

/-- Core `x` as it takes source `i` (R221, R222). -/
def interrupted (x : CoreSt) (i : Nat) : CoreSt :=
  { x with ipend := andNot x.ipend (2 ^ i), icause := i, ira := x.pc, pc := x.ivec, isr := true }

/-- Core `k` of line `n` has become `y` by taking an interrupt, with the latency `lat` (R222, R236). -/
def interruptShown (d : Dev) (n k : Nat) (y : CoreSt) (lat : Nat) : Dev :=
  coreShow (peak (bump (addCycles (setCore d n k y) n k 3) (pgStride n k) F.STRIDE_INTERRUPTS) (pgStride n k)
    F.STRIDE_IRQ_LAT_MAX lat) n k

theorem interruptShown_spec (d : Dev) (n k : Nat) (y : CoreSt) (lat : Nat) :
    let e := interruptShown d n k y lat
    core e n k = y ∧
    getR e (pgStride n k) F.STRIDE_INTERRUPTS = min (getR d (pgStride n k) F.STRIDE_INTERRUPTS + 1) (2 ^ 32 - 1) ∧
    getR e (pgStride n k) F.STRIDE_IN_ISR = b2n y.isr ∧ e.evt = d.evt ∧ e.mem = d.mem := by
  extract_lets e
  let g := bump (addCycles (setCore d n k y) n k 3) (pgStride n k) F.STRIDE_INTERRUPTS
  have hcount : getR g (pgStride n k) F.STRIDE_INTERRUPTS =
      min (getR d (pgStride n k) F.STRIDE_INTERRUPTS + 1) (2 ^ 32 - 1) := by
    simp only [g, bump, addCycles]
    rw [getR_addC_narrow _ _ _ (by decide), getR_addC_fld _ _ _ (by decide)]
    rfl
  have hg : core g n k = y ∧ g.evt = d.evt ∧ g.mem = d.mem := by simp [g, bump, addCycles]
  have hpeak : ∃ r, peak g (pgStride n k) F.STRIDE_IRQ_LAT_MAX lat = { g with regs := r } ∧
      getR { g with regs := r } (pgStride n k) F.STRIDE_INTERRUPTS = getR g (pgStride n k) F.STRIDE_INTERRUPTS := by
    rcases peak_cases g (pgStride n k) F.STRIDE_IRQ_LAT_MAX lat with h | ⟨v, h⟩
    · exact ⟨_, h, rfl⟩
    · exact ⟨_, h, getR_setR_fld _ _ _ (by decide)⟩
  obtain ⟨r, hr, hkeep⟩ := hpeak
  have he : e = coreShow { g with regs := r } n k := by rw [← hr]; rfl
  have hcore : core { g with regs := r } n k = y := hg.1
  have hisr : b2n y.isr % 2 ^ 1 = b2n y.isr := by cases y.isr <;> rfl
  rw [he, getR_coreShow _ _ _ (by decide) (by decide), hkeep, hcount, core_coreShow, hcore, coreShow_evt, coreShow_mem]
  refine ⟨rfl, rfl, ?_, hg.2.1, hg.2.2⟩
  rw [coreShow, hcore, getR_setR_self]
  exact hisr

section
variable {d : Dev} {n k : Nat} (t : Nat)

theorem doInterrupt_not (h : eligible (core d n k) = false) : doInterrupt t n k d = advance d t := by
  simp [doInterrupt, h]

theorem doInterrupt_takes {i : Nat} (hst : coreState d n k = 1) (hup : clusterUp d n (coreCluster k) = true)
    (hel : eligible (core d n k) = true) (hl : (core d n k).late = [])
    (hi : (List.range 8).find? (fun s => bit ((core d n k).ipend &&& (core d n k).imask) s) = some i) :
    ∃ lat, doInterrupt t n k d = interruptShown (advance d t) n k (interrupted (core d n k) i) lat := by
  have hst' : coreState (advance d t) n k = 1 := hst
  have hup' : clusterUp (advance d t) n (coreCluster k) = true := hup
  refine ⟨cyclesIn (advance d t) n k ((advance d t).ticks - Store.get (core d n k).srcAt 0 i) + 3, ?_⟩
  simp only [doInterrupt, core_advance, hst', hup', hel, hi, ne_eq, not_true_eq_false, Bool.not_true, Bool.false_eq_true, or_self,
    if_false, hl]
  simp [interruptShown, interrupted, putRegs, hl]


/-- The timer of a core that is not loaded stands, as one that is off does. -/
theorem doTimer_stands (h : ((core d n k).timerV = 0 ∧ getR d (pgStride n k) F.STRIDE_TIMER_RELOAD = 0) ∨
    coreState d n k = 0 ∨ coreState d n k = 3 ∨ coreState d n k = 4 ∨ coreState d n k = 5) :
    doTimer t n k d = advance d t := by
  refine if_pos ?_
  rcases h with h | h
  · exact .inl h
  · exact .inr (by omega)

/-- The timer reaches 0: its source comes up, and it counts from its reload value on. -/
theorem doTimer_expires (hon : (core d n k).timerV ≠ 0 ∨ getR d (pgStride n k) F.STRIDE_TIMER_RELOAD ≠ 0)
    (hst : coreState d n k = 1 ∨ coreState d n k = 6) :
    let x := core d n k
    doTimer t n k d = srcRaise (setCore (advance d (max t (x.timerAt + x.timerV))) n k
      { x with timerV := getR d (pgStride n k) F.STRIDE_TIMER_RELOAD, timerAt := x.timerAt + x.timerV }) n k 4 :=
  if_neg (by omega)

/-- A source that comes up at a core that does not wait shows nowhere. -/
theorem srcRaise_regs {i : Nat} (h : coreState d n k ≠ 2) : (srcRaise d n k i).regs = d.regs := by
  unfold srcRaise
  extract_lets x y e
  rw [if_neg fun hw => h hw.1]
  rfl

theorem doDoorbell_reach (h : Reach d (pgStride n k)) : doDoorbell t n k d =
    mailPut (advance d t) n k (getR d (pgStride n k) F.STRIDE_MAILBOX_IN) := onPage_reach _ (reach_advance h)

/-- An empty mailbox is filled without a count, and a core that does not wait goes on as it did. -/
theorem mailPut_regs (v : Nat) (hst : coreState d n k ≠ 2) (h : (core d n k).mailFull = false) :
    (mailPut d n k v).regs = d.regs := by
  unfold mailPut
  simp only [h, onlyIf, Bool.false_eq_true, if_false]
  exact srcRaise_regs hst

end

end Sys2Proof.Machine

open Sys2Proof Sys2Proof.Machine

/-- Settles O32: every Stride instruction is the issue of its opcode (`strideOps_issue`), which is settled branch by branch
(`issue_idle` to `issue_slot`, `strideFault_spec`); interrupts, the timer and the doorbell by what they find
(`doInterrupt_takes`, `doTimer_expires`, `mailPut_spec`). -/
theorem strideFaultsAndInterrupts : Obligations.StrideFaultsAndInterrupts := by
  unfold Obligations.StrideFaultsAndInterrupts
  constructor
  · intro s t n k hn hk hs q hq x w ready stops
    obtain ⟨hlisted, run, hexec⟩ := strideOps_issue t n k s q hq
    have hgives : Gives q.2 s (issue t n k q.1 run s.dev) := gives_of_act hexec (by simp [coreOk, hn, hk]) hs
    have hfault {c : Nat} (hc : c < 8) (h : issue t n k q.1 run s.dev = strideFault (advance s.dev t) n k c) : stops c := by
      refine does_of_gives (hgives.of_eq h) ?_
      simp only [coreState_settle, getR_settle, evtRaw_settle, core_settle, settle_ledgerOut, settle_mem]
      exact strideFault_spec (advance s.dev t) hn hk hc
    refine ⟨fun hst => hgives.of_eq (issue_idle hst), fun hr hpc => ?_, fun hr hpc hop => ?_, fun hr hpc hop hlo hhi hsl => ?_,
      fun hr hpc hop hne => hgives.of_eq (issue_other hr hpc hop hne)⟩
    · exact hfault (by decide) (issue_pcEnd hr hpc)
    · exact hfault (by decide) (issue_illegal hr hpc hop)
    · exact hfault (by decide) (issue_slot hr hpc hlisted hop (by simp [noSlot, hlo, hhi]) hsl)
  · intro s t n k hn hk hs x
    refine ⟨?_, ?_, ?_, ?_, ?_, ?_⟩
    · intro hst hup hel i hi hset hlow hlate
      obtain ⟨lat, hd⟩ := doInterrupt_takes t hst hup hel hlate (find_lowest hi hset hlow)
      refine does_of_gives ((gives_interruptTaken t hn hk hs).of_eq hd) ?_
      simp only [core_settle, getR_settle, settle_evt, settle_mem]
      exact interruptShown_spec (advance s.dev t) n k (interrupted x i) lat
    · exact fun hel => (gives_interruptTaken t hn hk hs).of_eq (doInterrupt_not t hel)
    · intro hon hst
      refine does_of_gives ((gives_strideTimerExpiry t hn hk hs).of_eq (doTimer_expires t hon hst)) ?_
      obtain ⟨honly, sa, at_, hcore⟩ := srcRaise_spec n k (setCore (advance s.dev (max t (x.timerAt + x.timerV))) n k
        { x with timerV := getR s.dev (pgStride n k) F.STRIDE_TIMER_RELOAD, timerAt := x.timerAt + x.timerV }) 4
      rw [core_settle, settle_regs, settle_evt, settle_ticks, hcore, core_setCore, honly.ticks, honly.evt,
        srcRaise_regs (by simp only [coreState, getR_setCore, getR_advance] at hst ⊢; omega)]
      exact ⟨rfl, rfl, bit_or_two_pow _ _, le_max_of_le_right (le_max_right _ _), rfl, rfl⟩
    · exact fun h => (gives_strideTimerExpiry t hn hk hs).of_eq (doTimer_stands t h)
    · exact fun hr => (gives_doorbell t hn hk hs).of_eq (doDoorbell_reach t hr)
    · intro hr hst hfull
      obtain ⟨honly, hmail, hput, hsrc⟩ := mailPut_spec n k (advance s.dev t) (getR s.dev (pgStride n k) F.STRIDE_MAILBOX_IN)
      refine does_of_gives ((gives_doorbell t hn hk hs).of_eq (doDoorbell_reach t hr)) ?_
      simp only [core_settle, settle_regs, settle_evt, settle_mem]
      exact ⟨hmail, hput, hsrc, mailPut_regs _ hst hfull, honly.evt, honly.mem⟩

end

section
/-! PROOFS. Kernels: START, the end of a load, STOP (R231–R234). -/

namespace Sys2Proof.Machine

open Sys2Proof

/-! ### The commands as their effects -/

section
variable {s : State} {n k : Nat} (t : Nat) (hn : n < 12) (hk : k < 16) (hs : Awake s)
include hn hk hs

theorem gives_coreStart (hr : Reach s.dev (pgStride n k)) : Gives (.coreStart t n k) s (startCore (advance s.dev t) n k) := by
  have h : Gives (.coreStart t n k) s (onPage (pgStride n k) (fun d => startCore d n k) (advance s.dev t)) :=
    gives_of_act (f := fun d => onPage (pgStride n k) (fun d => startCore d n k) (advance d t)) rfl (by simp [coreOk, hn, hk]) hs
  exact h.of_eq (onPage_reach _ hr)

theorem gives_coreStop (hr : Reach s.dev (pgStride n k)) : Gives (.coreStop t n k) s (stopCore (advance s.dev t) n k) := by
  have h : Gives (.coreStop t n k) s (onPage (pgStride n k) (fun d => stopCore d n k) (advance s.dev t)) :=
    gives_of_act (f := fun d => onPage (pgStride n k) (fun d => stopCore d n k) (advance d t)) rfl (by simp [coreOk, hn, hk]) hs
  exact h.of_eq (onPage_reach _ hr)

theorem gives_kernelLoadEnd : Gives (.kernelLoadEnd t n k) s (doLoadEnd t n k s.dev) :=
  gives_of_act rfl (by simp [coreOk, hn, hk]) hs

end

/-! ### START (R232, R233) -/

/-- From `d` to `e` cluster `c` of line `n` stays as it is. -/
def ClusterKept (n c : Nat) (d e : Dev) : Prop := cluster e n c = cluster d n c

theorem avsHold_clusterKept (d : Dev) (m n c : Nat) : ClusterKept n c d (avsHold d m) := by
  unfold avsHold avsPut
  split
  · rfl
  · exact onlyIf_rel (R := ClusterKept n c) (fun _ => rfl) _ _ rfl

/-- A cluster that is woken has power. -/
theorem wakeCluster_powered (d : Dev) (n c : Nat) : (cluster (wakeCluster d n c) n c).powered = true := by
  unfold wakeCluster
  extract_lets x e
  split
  case isTrue h => exact h
  case isFalse =>
    have havs : ClusterKept n c e (onlyIf (decide (7 ≤ c)) (fun d => avsHold d (dieOf n)) e) :=
      onlyIf_rel (R := ClusterKept n c) (fun _ => rfl) _ _ (avsHold_clusterKept e _ n c)
    obtain ⟨⟨us, ev, hstale⟩, -⟩ :=
      stalePages_more (onlyIf (decide (7 ≤ c)) (fun d => avsHold d (dieOf n)) e) (clusterPages n c)
    rw [hstale]
    exact congrArg ClusterSt.powered (havs.trans (cluster_setCluster ..))

theorem wakeCluster_up {d : Dev} {n c : Nat} (h : (cluster d n c).powered = true) : wakeCluster d n c = d := if_pos h

/-- Core `k` of line `n` with its ports empty, as START leaves it before its cluster wakes. -/
def portsCleared (d : Dev) (n k : Nat) : Dev :=
  (List.range 4).foldl (fun d i => levelShow d n k i)
    (setCore d n k { core d n k with frame := getR d (pgFrame n) F.FRAME_FRAME_NO, bufs := [], gapPorts := [] })

theorem portsCleared_frame (d : Dev) (n k : Nat) : ∃ r, portsCleared d n k =
    { setCore d n k { core d n k with frame := getR d (pgFrame n) F.FRAME_FRAME_NO, bufs := [], gapPorts := [] } with regs := r } :=
  foldl_rel (R := fun d e => ∃ r, e = { d with regs := r }) (fun _ => ⟨_, rfl⟩)
    (fun _ _ _ => by rintro ⟨_, rfl⟩ ⟨_, rfl⟩; exact ⟨_, rfl⟩) (fun _ _ _ => ⟨_, rfl⟩) _

section
variable {d : Dev} {n k : Nat}

theorem startCore_not (h : coreState d n k = 1 ∨ coreState d n k = 2 ∨ coreState d n k = 5 ∨ coreState d n k = 6) :
    startCore d n k = d := if_pos (by omega)

variable (h : coreState d n k = 0 ∨ coreState d n k = 3 ∨ coreState d n k = 4)
include h

theorem startCore_gated (hg : paceGated d n k = true) : startCore d n k = setR d (pgStride n k) F.STRIDE_RESTART 1 :=
  (if_neg (by omega)).trans (if_pos hg)

theorem startCore_loads (hg : paceGated d n k = false) :
    startCore d n k = setCoreState (wakeCluster (portsCleared d n k) n (coreCluster k)) n k 5 :=
  (if_neg (by omega)).trans (if_neg (by simp [hg]))

end

/-- A core that starts loads, in a cluster with power, from empty ports. -/
theorem started_spec (d : Dev) (n k : Nat) :
    let e := setCoreState (wakeCluster (portsCleared d n k) n (coreCluster k)) n k 5
    coreState e n k = 5 ∧ (cluster e n (coreCluster k)).powered = true ∧ (core e n k).bufs = [] ∧
    ((cluster d n (coreCluster k)).powered = true → e.evt = d.evt) ∧ e.mem = d.mem := by
  obtain ⟨r, hports⟩ := portsCleared_frame d n k
  refine ⟨by rw [coreState_setCoreState, if_pos rfl], wakeCluster_powered _ n _, ?_, fun hup => ?_, ?_⟩
  · obtain ⟨_, _, _, _, _, hwake⟩ := woken_wakeCluster (portsCleared d n k) n (coreCluster k)
    rw [core_setCoreState, hwake, hports]
    exact congrArg CoreSt.bufs (core_setCore ..)
  · rw [setCoreState_evt, wakeCluster_up (by rw [hports]; exact hup), hports]; rfl
  · obtain ⟨_, _, _, _, _, hwake⟩ := woken_wakeCluster (portsCleared d n k) n (coreCluster k)
    rw [setCoreState_mem, hwake, hports]; rfl

/-! ### STOP (R232) -/

theorem stopCore_spec (d : Dev) {n k : Nat} (hn : n < 12) (hk : k < 16) :
    let x := core d n k
    let e := stopCore d n k
    coreState e n k = 0 ∧ getR e (pgStride n k) F.STRIDE_RESTART = 0 ∧
    (∃ at_, core e n k = { x with regs := putRegs x.regs x.late, late := [], lat2 := false, reload := false, waitAt := at_,
                                  shelf := false }) ∧
    evtRaw e (pgStride n k) = evtRaw d (pgStride n k) := by
  obtain ⟨honly, at_, hat⟩ := waitNote_spec n k d
  unfold stopCore
  extract_lets x e0 y e1 e
  have hmoves : ShelfMoves n k (setCoreState e1 n k 0) e := dropShelf_shelfMoves _ n k
  have hcore : core e n k = { x with regs := putRegs x.regs x.late, late := [], lat2 := false, reload := false, waitAt := at_,
                                     shelf := false } := by
    refine (core_dropShelf _ n k).trans ?_
    rw [core_setCoreState, show core e1 n k = _ from core_setCore .., show y = _ from hat]
  refine ⟨?_, ?_, ⟨at_, hcore⟩, ?_⟩
  · rw [coreState, hmoves.getR_stride hn hk (by decide), ← coreState, coreState_setCoreState, if_pos rfl]
  · rw [hmoves.getR_stride hn hk (by decide), getR_setCoreState _ _ _ _ (by decide) (by decide)]
    exact (getR_setR_self (waitNote d n k) (pgStride n k) F.STRIDE_RESTART 0).trans rfl
  · rw [hmoves.evtRaw_stride hn hk]
    exact congrArg (Store.get · 0 (pgStride n k)) honly.evt

/-! ### The end of a load (R232–R234) -/

theorem waitNote_running {d : Dev} {n k : Nat} (h : coreState d n k ≠ 2) : waitNote d n k = d := if_pos h

theorem coreRuns_spec (d : Dev) (n k : Nat) :
    coreState (coreRuns d n k) n k = (if coreMoves d n k then 6 else 1) ∧
    (∃ from_, core (coreRuns d n k) n k = { core d n k with heldFrom := from_ }) ∧
    (∀ f, fldAt cSTATE ≠ fldAt f → fldAt f < 131072 →
      getR (coreRuns d n k) (pgStride n k) f = getR d (pgStride n k) f) ∧
    CoreOnly n k d (coreRuns d n k) := by
  have hrun : coreState (setCoreState d n k 1) n k = 1 := by rw [coreState_setCoreState, if_pos rfl]
  have hmove : coreMoves (setCoreState d n k 1) n k = coreMoves d n k := rfl
  unfold coreRuns
  extract_lets e
  rw [show coreMoves e n k = coreMoves d n k from hmove]
  split
  · rw [coreHeld, waitNote_running (by rw [hrun]; decide)]
    refine ⟨by rw [coreState_setCoreState, if_pos rfl], ⟨_, core_setCore ..⟩, fun f hst hf => ?_, ?_⟩
    · rw [getR_setCoreState _ _ _ _ hst hf, getR_setCore, getR_setCoreState _ _ _ _ hst hf]
    · exact .trans _ _ _ (setCoreState_coreOnly n k d 1) (.trans _ _ _ (setCore_coreOnly n k e _) (setCoreState_coreOnly n k _ 6))
  · exact ⟨hrun, ⟨_, rfl⟩, fun f hst hf => getR_setCoreState _ _ _ _ hst hf, setCoreState_coreOnly n k d 1⟩

theorem readImage_setR_restart (d : Dev) (n k v : Nat) :
    readImage (setR d (pgStride n k) F.STRIDE_RESTART v) n k = readImage d n k := by
  unfold readImage
  rw [getR_setR_fld _ _ _ (by decide)]
  rfl

section
variable {d : Dev} {n k : Nat} {pr da : Store Nat}

/-- A bad load: the core is STOPPED again, and the error is counted (R232). -/
def loadFailed (d : Dev) (n k : Nat) (y : CoreSt) : Dev :=
  raise (bump (setCoreState (setCore d n k y) n k 0) (pgStride n k) F.STRIDE_LOAD_ERRORS) (pgStride n k) 11

theorem loadEnd_fails (h : readImage d n k = (pr, da, none)) : loadEnd d n k =
    loadFailed (setR d (pgStride n k) F.STRIDE_RESTART 0) n k { core d n k with reload := false, prog := pr, mem := da } := by
  simp only [loadEnd, readImage_setR_restart, h]
  rfl

theorem loadFailed_spec (d : Dev) (n k : Nat) (y : CoreSt) :
    let e := loadFailed d n k y
    coreState e n k = 0 ∧ (evtRaw e (pgStride n k)).testBit 11 = true ∧ core e n k = y ∧
    getR e (pgStride n k) F.STRIDE_LOAD_ERRORS = min (getR d (pgStride n k) F.STRIDE_LOAD_ERRORS + 1) (2 ^ 32 - 1) ∧
    e.mem = d.mem := by
  simp only [loadFailed, coreState_raise, core_raise, getR_raise, raise_mem, bump, core_addC, addC_mem, core_setCoreState,
    core_setCore, setCoreState_mem, setCore_mem]
  rw [coreState, getR_addC_fld _ _ _ (by decide), ← coreState, coreState_setCoreState, getR_addC_narrow _ _ _ (by decide),
    getR_setCoreState _ _ _ _ (by decide) (by decide)]
  exact ⟨if_pos rfl, raise_bit .., trivial, rfl, trivial⟩

/-- The core of a good load: every register 0, at the entry (R232). -/
def loaded (d : Dev) (n k : Nat) (pr da : Store Nat) (entry : Nat) : CoreSt :=
  { CoreSt.reset with prog := pr, mem := da, pc := entry, frame := (core d n k).frame, shelf := (core d n k).shelf,
                      out0 := (core d n k).out0, out1 := (core d n k).out1,
                      timerV := getR d (pgStride n k) F.STRIDE_TIMER_RELOAD, timerAt := d.ticks }

/-- A good load is counted, and a restart shown, before the core asks for its shelf. -/
def loadCounted (d : Dev) (n k : Nat) (y : CoreSt) (again : Bool) : Dev :=
  onlyIf again (fun d => raise d (pgStride n k) 14)
    (raise (bump (coreRuns (setCore d n k y) n k) (pgStride n k) F.STRIDE_LOADS) (pgStride n k) 10)

theorem loadEnd_runs {entry : Nat} (h : readImage d n k = (pr, da, some entry)) : loadEnd d n k =
    coreShow (wantShelf (loadCounted (setR d (pgStride n k) F.STRIDE_RESTART 0) n k (loaded d n k pr da entry)
      (core d n k).reload) n k) n k := by
  simp only [loadEnd, readImage_setR_restart, h, getR_setR_fld d (pgStride n k) (f := F.STRIDE_RESTART)
    (g := F.STRIDE_TIMER_RELOAD) 0 (by decide)]
  rfl

theorem loadCounted_spec (d : Dev) (n k : Nat) (y : CoreSt) (again : Bool) :
    let e := loadCounted d n k y again
    coreState e n k = (if coreMoves d n k then 6 else 1) ∧ (∃ from_, core e n k = { y with heldFrom := from_ }) ∧
    (evtRaw e (pgStride n k)).testBit 10 = true ∧
    getR e (pgStride n k) F.STRIDE_LOADS = min (getR d (pgStride n k) F.STRIDE_LOADS + 1) (2 ^ 32 - 1) ∧
    getR e (pgStride n k) F.STRIDE_RESTART = getR d (pgStride n k) F.STRIDE_RESTART ∧ e.mem = d.mem := by
  obtain ⟨hst, ⟨from_, hcore⟩, hreg, honly⟩ := coreRuns_spec (setCore d n k y) n k
  rw [core_setCore] at hcore
  let g := raise (bump (coreRuns (setCore d n k y) n k) (pgStride n k) F.STRIDE_LOADS) (pgStride n k) 10
  have hg : coreState g n k = (if coreMoves d n k then 6 else 1) ∧ core g n k = { y with heldFrom := from_ } ∧
      (evtRaw g (pgStride n k)).testBit 10 = true ∧
      getR g (pgStride n k) F.STRIDE_LOADS = min (getR d (pgStride n k) F.STRIDE_LOADS + 1) (2 ^ 32 - 1) ∧
      getR g (pgStride n k) F.STRIDE_RESTART = getR d (pgStride n k) F.STRIDE_RESTART ∧ g.mem = d.mem := by
    simp only [g, coreState_raise, core_raise, getR_raise, raise_mem, bump, core_addC, addC_mem, hcore, honly.mem]
    rw [coreState, getR_addC_fld _ _ _ (by decide), ← coreState, hst, getR_addC_narrow _ _ _ (by decide),
      getR_addC_fld _ _ _ (by decide), hreg _ (by decide) (by decide), hreg _ (by decide) (by decide)]
    exact ⟨rfl, trivial, raise_bit .., rfl, rfl, rfl⟩
  obtain ⟨hst, hcore, hevt, hloads, hres, hmem⟩ := hg
  cases again
  · exact ⟨hst, ⟨_, hcore⟩, hevt, hloads, hres, hmem⟩
  · exact ⟨hst, ⟨_, hcore⟩, raise_mono _ _ _ _ _ hevt, hloads, hres, hmem⟩

theorem loadEnd_runs_spec {entry : Nat} (hn : n < 12) (hk : k < 16) (h : readImage d n k = (pr, da, some entry)) :
    let e := loadEnd d n k
    coreState e n k = (if coreMoves d n k then 6 else 1) ∧
    (∃ from_ shelf, core e n k = { loaded d n k pr da entry with heldFrom := from_, shelf := shelf }) ∧
    (evtRaw e (pgStride n k)).testBit 10 = true ∧
    getR e (pgStride n k) F.STRIDE_LOADS = min (getR d (pgStride n k) F.STRIDE_LOADS + 1) (2 ^ 32 - 1) ∧
    getR e (pgStride n k) F.STRIDE_RESTART = 0 ∧ e.mem = d.mem := by
  obtain ⟨hst, ⟨from_, hcore⟩, hevt, hloads, hres, hmem⟩ :=
    loadCounted_spec (setR d (pgStride n k) F.STRIDE_RESTART 0) n k (loaded d n k pr da entry) (core d n k).reload
  rw [loadEnd_runs h]
  generalize loadCounted _ n k _ _ = g at hst hcore hevt hloads hres hmem ⊢
  have hmoves := wantShelf_shelfMoves g n k
  have hreg {f : Fld} (hpc : fldAt F.STRIDE_PC ≠ fldAt f) (hisr : fldAt F.STRIDE_IN_ISR ≠ fldAt f) (hf : fldAt f < 131072) :
      getR (coreShow (wantShelf g n k) n k) (pgStride n k) f = getR g (pgStride n k) f :=
    (getR_coreShow _ n k hpc hisr).trans (hmoves.getR_stride hn hk hf)
  refine ⟨(hreg (by decide) (by decide) (by decide)).trans hst, ⟨from_, (core (wantShelf g n k) n k).shelf, ?_⟩,
    (congrArg (·.testBit 10) (hmoves.evtRaw_stride hn hk)).trans hevt,
    (hreg (by decide) (by decide) (by decide)).trans (hloads.trans ?_),
    (hreg (by decide) (by decide) (by decide)).trans (hres.trans (getR_setR_self ..)), hmoves.mem.trans hmem⟩
  · exact hmoves.core.trans (by rw [hcore])
  · rw [getR_setR_fld _ _ _ (by decide)]

end

end Sys2Proof.Machine

open Sys2Proof Sys2Proof.Machine

/-- Settles O33: START by the core's state and the pace step (`startCore_loads`, `startCore_gated`, `startCore_not`), STOP
(`stopCore_spec`), and the end of a load by what its image reads (`loadEnd_fails`, `loadEnd_runs`). -/
theorem kernelsLoadAndStop : Obligations.KernelsLoadAndStop := by
  unfold Obligations.KernelsLoadAndStop
  intro s t n k hn hk hs p st
  have hend := gives_kernelLoadEnd t hn hk hs
  refine ⟨?_, ?_, ?_, ?_, ?_, ?_, ?_, ?_⟩
  · intro hr hst hg
    refine does_of_gives ((gives_coreStart t hn hk hs hr).of_eq (startCore_loads hst hg)) ?_
    obtain ⟨h5, hup, hbufs, hevt, hmem⟩ := started_spec (advance s.dev t) n k
    rw [coreState_settle, cluster_settle, core_settle, settle_evt, settle_mem, hbufs]
    exact ⟨h5, hup, fun _ => rfl, hevt, hmem⟩
  · exact fun hr hst => (gives_coreStart t hn hk hs hr).of_eq (startCore_not hst)
  · exact fun hr hst hg => (gives_coreStart t hn hk hs hr).of_eq (startCore_gated hst hg)
  · intro hr
    obtain ⟨hst, hres, ⟨at_, hcore⟩, hevt⟩ := stopCore_spec (advance s.dev t) hn hk
    refine does_of_gives (gives_coreStop t hn hk hs hr) ?_
    rw [coreState_settle, getR_settle, core_settle, evtRaw_settle, hcore]
    exact ⟨hst, hres, rfl, rfl, rfl, rfl, hevt⟩
  · intro pr da hst hup himg
    refine does_of_gives (hend.of_eq ((if_pos ⟨hst, hup⟩).trans (loadEnd_fails himg))) ?_
    obtain ⟨h0, hevt, hcore, herr, hmem⟩ := loadFailed_spec (setR (advance s.dev t) p F.STRIDE_RESTART 0) n k
      { core (advance s.dev t) n k with reload := false, prog := pr, mem := da }
    rw [coreState_settle, evtRaw_settle, core_settle, getR_settle, settle_mem, hcore]
    exact ⟨h0, hevt, rfl, rfl, herr.trans (by rw [getR_setR_fld _ _ _ (by decide)]; rfl), hmem⟩
  · intro pr da e hst hup himg
    obtain ⟨h1, ⟨from_, shelf, hcore⟩, hevt, hloads, hres, hmem⟩ := loadEnd_runs_spec hn hk himg
    refine does_of_gives (hend.of_eq (if_pos ⟨hst, hup⟩)) ?_
    rw [coreState_settle, core_settle, evtRaw_settle, getR_settle, getR_settle, settle_mem, hcore]
    exact ⟨h1, rfl, rfl, rfl, rfl, rfl, hevt, hloads, hres, hmem⟩
  · exact fun hst hup => hend.of_eq (if_neg fun h => Bool.false_ne_true (hup.symm.trans h.2))
  · exact fun hst => hend.of_eq (if_neg fun h => hst h.1)

end

section
/-! PROOFS. Hurdle: a line's block under the elementary updates, and the step of its sequencers (R238–R240, R254). -/

namespace Sys2Proof.Machine

open Sys2Proof

/-! ### A line's Hurdle block under the elementary updates -/

@[simp] theorem hurdle_setHurdle (d : Dev) (n : Nat) (x : HurdleSt) : hurdle (setHurdle d n x) n = x := by
  simp [hurdle, setHurdle]
@[simp] theorem getR_setHurdle (d : Dev) (n : Nat) (x : HurdleSt) (p : Nat) (f : Fld) :
    getR (setHurdle d n x) p f = getR d p f := rfl
@[simp] theorem hurdle_setR (d : Dev) (p : Nat) (f : Fld) (v n : Nat) : hurdle (setR d p f v) n = hurdle d n := rfl
@[simp] theorem getR_setSeq (d : Dev) (n h : Nat) (y : SeqSt) (p : Nat) (f : Fld) :
    getR (setSeq d n h y) p f = getR d p f := rfl
@[simp] theorem hurdle_settle (d : Dev) (n : Nat) : hurdle (settle d) n = hurdle d n := by simp [hurdle]

theorem hurdle_setSeq (d : Dev) (n h : Nat) (y : SeqSt) : hurdle (setSeq d n h y) n =
    if h = 0 then { hurdle d n with seq0 := y } else { hurdle d n with seq1 := y } := by
  rw [setSeq, hurdle_setHurdle]

@[simp] theorem seqOf_setSeq (d : Dev) (n h : Nat) (y : SeqSt) : seqOf (hurdle (setSeq d n h y) n) h = y := by
  rw [hurdle_setSeq, seqOf]
  by_cases h0 : h = 0
  · simp [h0]
  · simp [h0]

theorem seqOf_setSeq_other (d : Dev) (n : Nat) {h : Nat} (y : SeqSt) (hh : h < 2) :
    seqOf (hurdle (setSeq d n (1 - h) y) n) h = seqOf (hurdle d n) h := by
  obtain rfl | rfl : h = 0 ∨ h = 1 := by omega
  · simp [hurdle_setSeq, seqOf]
  · simp [hurdle_setSeq, seqOf]

theorem gives_sequencerStep {s : State} {n : Nat} (t : Nat) (hn : n < 12) (hs : Awake s) :
    Gives (.sequencerStep t n) s (doSeqStep t n s.dev) := gives_of_act rfl (decide_eq_true hn) hs

/-! ### Registers of a page that change, the rest of the device kept -/

/-- From `d` to `e` only registers change, and on page `p` only the fields `fs`. -/
structure RegMoves (p : Nat) (fs : List Fld) (d e : Dev) : Prop where
  frame : ∃ r, e = { d with regs := r }
  keeps : ∀ g, (∀ f ∈ fs, fldAt f ≠ fldAt g) → getR e p g = getR d p g

namespace RegMoves

variable {p : Nat} {fs : List Fld}

theorem refl (d : Dev) : RegMoves p fs d d := ⟨⟨d.regs, rfl⟩, fun _ _ => rfl⟩

theorem trans (a b c : Dev) (h : RegMoves p fs a b) (g : RegMoves p fs b c) : RegMoves p fs a c where
  frame := by obtain ⟨⟨_, rfl⟩, -⟩ := h; obtain ⟨⟨_, rfl⟩, -⟩ := g; exact ⟨_, rfl⟩
  keeps f hf := (g.keeps f hf).trans (h.keeps f hf)

theorem of_setR (d : Dev) {f : Fld} (v : Nat) (hf : f ∈ fs) : RegMoves p fs d (setR d p f v) :=
  ⟨⟨_, rfl⟩, fun _ hg => getR_setR_fld _ _ _ (hg f hf)⟩

theorem of_addC (d : Dev) {f : Fld} (v : Nat) (hf : f ∈ fs) : RegMoves p fs d (addC d p f v) := by
  rw [addC_eq]; exact of_setR d _ hf

theorem mono {gs : List Fld} {d e : Dev} (h : RegMoves p fs d e) (hs : ∀ f ∈ fs, f ∈ gs) : RegMoves p gs d e :=
  ⟨h.frame, fun g hg => h.keeps g fun f hf => hg f (hs f hf)⟩

theorem hurdle_eq {d e : Dev} (h : RegMoves p fs d e) (n : Nat) : hurdle e n = hurdle d n := by
  obtain ⟨⟨_, rfl⟩, -⟩ := h; rfl

end RegMoves

/-- From `d` to `e` only registers and Hurdle blocks change. -/
def HurdleFrame (d e : Dev) : Prop := ∃ r x, e = { d with regs := r, hurdles := x }

theorem HurdleFrame.evt {d e : Dev} (h : HurdleFrame d e) : e.evt = d.evt := by obtain ⟨_, _, rfl⟩ := h; rfl
theorem HurdleFrame.mem {d e : Dev} (h : HurdleFrame d e) : e.mem = d.mem := by obtain ⟨_, _, rfl⟩ := h; rfl
theorem HurdleFrame.trans {a b c : Dev} (h : HurdleFrame a b) (g : HurdleFrame b c) : HurdleFrame a c := by
  obtain ⟨_, _, rfl⟩ := h
  obtain ⟨_, _, rfl⟩ := g
  exact ⟨_, _, rfl⟩

/-- From `d` to `e` only registers and Hurdle blocks change: line `n` keeps its frames that wait and its latched terms, and of
its HURDLE page only the fields `fs` change. -/
structure LineMoves (n : Nat) (fs : List Fld) (d e : Dev) : Prop where
  frame : HurdleFrame d e
  steps : (hurdle e n).steps = (hurdle d n).steps
  latched : (hurdle e n).latched = (hurdle d n).latched
  keeps : ∀ g, (∀ f ∈ fs, fldAt f ≠ fldAt g) → getR e (ph n) g = getR d (ph n) g

namespace LineMoves

variable {n : Nat} {fs gs : List Fld} {d e : Dev}

theorem refl (d : Dev) : LineMoves n fs d d := ⟨⟨d.regs, d.hurdles, rfl⟩, rfl, rfl, fun _ _ => rfl⟩

theorem trans (a b c : Dev) (h : LineMoves n fs a b) (g : LineMoves n fs b c) : LineMoves n fs a c where
  frame := h.frame.trans g.frame
  steps := g.steps.trans h.steps
  latched := g.latched.trans h.latched
  keeps f hf := (g.keeps f hf).trans (h.keeps f hf)

theorem of_regMoves (h : RegMoves (ph n) fs d e) : LineMoves n fs d e := by
  obtain ⟨⟨_, rfl⟩, hkeep⟩ := h; exact ⟨⟨_, _, rfl⟩, rfl, rfl, hkeep⟩

theorem of_setSeq (d : Dev) (n h : Nat) (y : SeqSt) : LineMoves n fs d (setSeq d n h y) where
  frame := ⟨_, _, rfl⟩
  steps := by rw [hurdle_setSeq]; split <;> rfl
  latched := by rw [hurdle_setSeq]; split <;> rfl
  keeps _ _ := rfl

theorem mono (h : LineMoves n fs d e) (hs : ∀ f ∈ fs, f ∈ gs) : LineMoves n gs d e :=
  ⟨h.frame, h.steps, h.latched, fun g hg => h.keeps g fun f hf => hg f (hs f hf)⟩

theorem flag (h : LineMoves n fs d e) {g : Fld} (hg : ∀ f ∈ fs, fldAt f ≠ fldAt g) :
    flagR e (ph n) g = flagR d (ph n) g := by rw [flagR, flagR, h.keeps g hg]

end LineMoves

/-! ### What the parts of a step change -/

/-- The remaining times of the timers of sequencer `h`. -/
def timerFields (h : Nat) : List Fld := (List.range 4).map (F.HURDLE_TREM h)

/-- What a step without an action changes of the registers of sequencer `h`. -/
def stepFields (h : Nat) : List Fld := F.HURDLE_SEQ_STATE h :: timerFields h

/-- What a start sets of the registers of sequencer `h`. -/
def startFields (h : Nat) : List Fld :=
  [F.HURDLE_SEQ_STATE h, F.HURDLE_SEQ_RUNNING h] ++ (List.range 4).flatMap (fun c => [fCNT h c, F.HURDLE_TREM h c])

/-- The registers of the detectors. -/
def detFields : List Fld := (List.range 8).flatMap (fun k => [F.HURDLE_OVER k, F.HURDLE_PEAK_CH k])

/-- The registers that follow the sequencers. -/
def showFields : List Fld := [F.HURDLE_REC_OPEN 0, F.HURDLE_REC_OPEN 1, cSTATE]

theorem detShow_regMoves (d : Dev) (n : Nat) (r : StepRec) : RegMoves (ph n) detFields d (detShow d n r) := by
  refine foldl_rel RegMoves.refl RegMoves.trans (fun d k hk => ?_) d
  exact (RegMoves.of_setR d _ (List.mem_flatMap.2 ⟨k, hk, by simp⟩)).trans _ _ _
    (RegMoves.of_setR _ _ (List.mem_flatMap.2 ⟨k, hk, by simp⟩))

theorem hurdleShow_regMoves (d : Dev) (n : Nat) : RegMoves (ph n) showFields d (hurdleShow d n) := by
  refine ((RegMoves.of_setR d _ ?_).trans _ _ _ (RegMoves.of_setR _ _ ?_)).trans _ _ _ (RegMoves.of_setR _ _ ?_)
  all_goals simp [showFields]

/-- STATUS.STATE shows whether a sequencer runs (R254). -/
theorem getR_hurdleShow_state (d : Dev) (n : Nat) : getR (hurdleShow d n) (ph n) cSTATE =
    b2n (flagR d (ph n) (F.HURDLE_SEQ_RUNNING 0) || flagR d (ph n) (F.HURDLE_SEQ_RUNNING 1)) := by
  have hrun (a b : Nat) {h : Nat} (hh : h < 2) : flagR (setR (setR d (ph n) (F.HURDLE_REC_OPEN 0) a) (ph n) (F.HURDLE_REC_OPEN 1) b)
      (ph n) (F.HURDLE_SEQ_RUNNING h) = flagR d (ph n) (F.HURDLE_SEQ_RUNNING h) := by
    rw [flagR, getR_setR_fld _ _ _ (by revert h; decide), getR_setR_fld _ _ _ (by revert h; decide), flagR]
  refine (getR_setR_self ..).trans ?_
  rw [List.foldl_cons, List.foldl_cons, List.foldl_nil, hrun _ _ (by decide), hrun _ _ (by decide)]
  generalize (flagR d _ _ || _) = c
  cases c <;> rfl

theorem fldAt_timer_ne (h : Nat) {i j : Nat} (hij : i ≠ j) : fldAt (F.HURDLE_TREM h i) ≠ fldAt (F.HURDLE_TREM h j) := by
  simp only [fldAt, F.HURDLE_TREM]; omega

theorem timersDown_snd (d : Dev) (n h : Nat) : (timersDown d n h).2 =
    (List.range 4).foldl (fun d i => setR d (ph n) (F.HURDLE_TREM h i) (getR d (ph n) (F.HURDLE_TREM h i) - 1)) d := rfl

theorem timersDown_regMoves (d : Dev) (n h : Nat) : RegMoves (ph n) (timerFields h) d (timersDown d n h).2 := by
  rw [timersDown_snd]
  exact foldl_rel RegMoves.refl RegMoves.trans (fun d i hi => RegMoves.of_setR d _ (List.mem_map_of_mem hi)) d

/-- A running timer falls by 1. -/
theorem getR_timersDown (d : Dev) (n h : Nat) {i : Nat} (hi : i < 4) :
    getR (timersDown d n h).2 (ph n) (F.HURDLE_TREM h i) = (getR d (ph n) (F.HURDLE_TREM h i) - 1) % 2 ^ 32 := by
  have hne (e : Dev) (v : Nat) {j k : Nat} (hjk : j ≠ k) : getR (setR e (ph n) (F.HURDLE_TREM h j) v) (ph n) (F.HURDLE_TREM h k) =
    getR e (ph n) (F.HURDLE_TREM h k) := getR_setR_fld _ _ _ (fldAt_timer_ne h hjk)
  rw [timersDown_snd]
  obtain rfl | rfl | rfl | rfl : i = 0 ∨ i = 1 ∨ i = 2 ∨ i = 3 := by omega
  all_goals simp [List.range_succ, hne]; rfl

/-! ### A sequencer starts (R240, R254) -/

theorem seqStart_idle {d : Dev} {n h : Nat}
    (hi : flagR d (ph n) (F.HURDLE_EN h) = false ∨ flagR d (ph n) (F.HURDLE_SEQ_RUNNING h) = true) : seqStart n d h = d :=
  if_pos (by rcases hi with hi | hi <;> simp [hi])

/-- Counter and timer `c` of sequencer `h` go to 0. -/
def clearCounter (n h : Nat) (d : Dev) (c : Nat) : Dev := setR (setR d (ph n) (fCNT h c) 0) (ph n) (F.HURDLE_TREM h c) 0

theorem clearCounter_regMoves (n h : Nat) (d : Dev) {c : Nat} (hc : c ∈ List.range 4) :
    RegMoves (ph n) ((List.range 4).flatMap (fun c => [fCNT h c, F.HURDLE_TREM h c])) d (clearCounter n h d c) :=
  (RegMoves.of_setR d _ (List.mem_flatMap.2 ⟨c, hc, by simp⟩)).trans _ _ _
    (RegMoves.of_setR _ _ (List.mem_flatMap.2 ⟨c, hc, by simp⟩))

theorem seqStart_enabled {d : Dev} {n h : Nat} (hen : flagR d (ph n) (F.HURDLE_EN h) = true)
    (hrun : flagR d (ph n) (F.HURDLE_SEQ_RUNNING h) = false) :
    let e := (List.range 4).foldl (clearCounter n h) d
    let e := setR e (ph n) (F.HURDLE_SEQ_STATE h) (getR e (ph n) (F.HURDLE_START_STATE h))
    seqStart n d h = setR (setSeq e n h { seqOf (hurdle e n) h with entered := false }) (ph n) (F.HURDLE_SEQ_RUNNING h) 1 :=
  if_neg (by simp [hen, hrun])

theorem seqStart_lineMoves (d : Dev) (n h : Nat) : LineMoves n (startFields h) d (seqStart n d h) := by
  by_cases hgo : flagR d (ph n) (F.HURDLE_EN h) = true ∧ flagR d (ph n) (F.HURDLE_SEQ_RUNNING h) = false
  · obtain ⟨hen, hrun⟩ := hgo
    rw [seqStart_enabled hen hrun]
    have hclear := foldl_rel RegMoves.refl RegMoves.trans (fun e c hc => clearCounter_regMoves n h e hc) d
    refine .trans _ _ _ ((LineMoves.of_regMoves hclear).mono fun f hf => List.mem_append_right _ hf) ?_
    refine .trans _ _ _ (.of_regMoves (.of_setR _ _ ?_)) (.trans _ _ _ (.of_setSeq ..) (.of_regMoves (.of_setR _ _ ?_)))
    all_goals simp [startFields]
  · rw [seqStart_idle (by simpa [imp_iff_not_or] using hgo)]
    exact .refl d

theorem fldAt_counter_ne {h : Nat} (hh : h < 2) {b : Nat} (hb : b < 4) {c : Nat} (hc : c < 4) (hbc : b ≠ c) :
    fldAt (fCNT h b) ≠ fldAt (fCNT h c) := by decide +revert

theorem fldAt_counter_ne_timer {h : Nat} (hh : h < 2) {b : Nat} (hb : b < 4) {c : Nat} (hc : c < 4) :
    fldAt (fCNT h b) ≠ fldAt (F.HURDLE_TREM h c) := by decide +revert

/-- Counter and timer `c` of sequencer `h` read 0. -/
def CounterClear (n h c : Nat) (d : Dev) : Prop :=
  getR d (ph n) (fCNT h c) = 0 ∧ getR d (ph n) (F.HURDLE_TREM h c) = 0

theorem clearCounters_clear (d : Dev) (n : Nat) {h c : Nat} (hh : h < 2) (hc : c < 4) :
    CounterClear n h c ((List.range 4).foldl (clearCounter n h) d) := by
  have hset (e : Dev) : CounterClear n h c (clearCounter n h e c) := by
    refine ⟨?_, (getR_setR_self ..).trans (Nat.zero_mod _)⟩
    rw [clearCounter, getR_setR_fld _ _ _ (fldAt_counter_ne_timer hh hc hc).symm, getR_setR_self, Nat.zero_mod]
  refine foldl_attains (I := fun _ => True) (List.mem_range.2 hc) (fun _ _ _ _ => trivial) (fun e _ => hset e) ?_ trivial
  intro e b hb _ hclear
  by_cases hbc : b = c
  · exact hbc ▸ hset e
  · have hb := List.mem_range.1 hb
    rw [CounterClear, clearCounter, getR_setR_fld _ _ _ (fldAt_counter_ne_timer hh hc hb).symm,
      getR_setR_fld _ _ _ (fldAt_counter_ne hh hb hc hbc), getR_setR_fld _ _ _ (fldAt_timer_ne h hbc),
      getR_setR_fld _ _ _ (fldAt_counter_ne_timer hh hb hc)]
    exact hclear

/-- What a start leaves. -/
theorem seqStart_spec {d : Dev} {n h : Nat} (hh : h < 2) (hen : flagR d (ph n) (F.HURDLE_EN h) = true)
    (hrun : flagR d (ph n) (F.HURDLE_SEQ_RUNNING h) = false) :
    (∀ c < 4, CounterClear n h c (seqStart n d h)) ∧
    getR (seqStart n d h) (ph n) (F.HURDLE_SEQ_STATE h) = getR d (ph n) (F.HURDLE_START_STATE h) % 16 ∧
    flagR (seqStart n d h) (ph n) (F.HURDLE_SEQ_RUNNING h) = true ∧
    (seqOf (hurdle (seqStart n d h) n) h).open_ = (seqOf (hurdle d n) h).open_ := by
  have hclear := foldl_rel RegMoves.refl RegMoves.trans (fun e c hc => clearCounter_regMoves n h e hc) d
  rw [seqStart_enabled hen hrun]
  refine ⟨fun c hc => ?_, ?_, ?_, ?_⟩
  · rw [CounterClear, getR_setR_fld _ _ _ (by clear * - hh hc; decide +revert),
      getR_setR_fld _ _ _ (by clear * - hh hc; decide +revert), getR_setSeq, getR_setSeq,
      getR_setR_fld _ _ _ (by clear * - hh hc; decide +revert), getR_setR_fld _ _ _ (by clear * - hh hc; decide +revert)]
    exact clearCounters_clear d n hh hc
  · rw [getR_setR_fld _ _ _ (by clear * - hh; decide +revert), getR_setSeq, getR_setR_self,
      hclear.keeps _ (by clear * - hh; decide +revert)]
    rfl
  · rw [flagR, getR_setR_self]; rfl
  · rw [hurdle_setR, seqOf_setSeq, hurdle_setR, hclear.hurdle_eq]

/-- Where the other sequencer is not enabled, a step's starts are the start of one. -/
theorem seqStarts_one {d : Dev} {n h : Nat} (hh : h < 2) (hen : flagR d (ph n) (F.HURDLE_EN (1 - h)) = false) :
    [0, 1].foldl (seqStart n) d = seqStart n d h := by
  have hother : seqStart n (seqStart n d h) (1 - h) = seqStart n d h :=
    seqStart_idle (.inl (((seqStart_lineMoves d n h).flag (by clear * - hh; decide +revert)).trans hen))
  obtain rfl | rfl : h = 0 ∨ h = 1 := by omega
  · exact hother
  · rw [List.foldl_cons, seqStart_idle (.inl hen)]; rfl

/-! ### A step of one sequencer (R238, R239) -/

/-- The arc of sequencer `h` that fires at step `r`, on the device `d` past its timers, and its time. -/
def seqHit (n : Nat) (r : StepRec) (other : Bool) (exp : List Bool) (d : Dev) (h : Nat) : Option ((Nat × Nat) × Int) :=
  (List.range 4).findSome? (fun a =>
    let w := arcWords d n h (getR d (ph n) (F.HURDLE_SEQ_STATE h)) a
    (arcTime d n h r other exp w.1).map (fun x => (w, x)))

section
variable {d : Dev} {n h : Nat} {r : StepRec} {others : List Bool}

theorem recStep_closed (ho : (seqOf (hurdle d n) h).open_ = none) : recStep d n h r = d := by
  simp only [recStep, ho]

theorem recForced_closed (ho : (seqOf (hurdle d n) h).open_ = none) : recForced d n h r = d := by
  simp only [recForced, ho]

theorem seqStep_stopped (hrun : flagR d (ph n) (F.HURDLE_SEQ_RUNNING h) = false) :
    seqStep n r others d h = setSeq d n h { seqOf (hurdle d n) h with sig := false } :=
  if_pos (by rw [hrun]; rfl)

/-- No arc fires. -/
theorem seqStep_none (hrun : flagR d (ph n) (F.HURDLE_SEQ_RUNNING h) = true)
    (hhit : seqHit n r (others.getD h false) (timersDown d n h).1 (timersDown d n h).2 h = none) :
    let e := (timersDown d n h).2
    let e := setSeq e n h { seqOf (hurdle e n) h with entered := false, sig := false }
    seqStep n r others d h = recForced (recStep e n h r) n h r := by
  unfold seqStep
  rw [if_neg (by simp [hrun])]
  unfold seqHit at hhit
  dsimp only at hhit ⊢
  rw [hhit]

/-- The arc with words `w0` and `w1` fires at time `x`. -/
theorem seqStep_some {w0 w1 : Nat} {x : Int} (hrun : flagR d (ph n) (F.HURDLE_SEQ_RUNNING h) = true)
    (hhit : seqHit n r (others.getD h false) (timersDown d n h).1 (timersDown d n h).2 h = some ((w0, w1), x)) :
    let e := recStep (arcTrig (arcActs (timersDown d n h).2 n h w1) n h r w0 w1 x) n h r
    let e := onlyIf (bit w1 10) (fun d => sigRaise d n h x) (onlyIf (bit w1 9) (fun d => closeRec d n h 1) e)
    let e := setSeq e n h { seqOf (hurdle e n) h with entered := true, sig := bit w1 10 }
    seqStep n r others d h = recForced (setR e (ph n) (F.HURDLE_SEQ_STATE h) (bits w0 16 4)) n h r := by
  unfold seqStep
  rw [if_neg (by simp [hrun])]
  unfold seqHit at hhit
  dsimp only at hhit ⊢
  rw [hhit]

/-- Without a counter action and a timer action an arc does nothing to counters and timers. -/
theorem arcActs_zero : arcActs d n h 0 = d := rfl

theorem arcTrig_zero (w0 : Nat) (x : Int) : arcTrig d n h r w0 0 x = d := rfl

/-- An arc that is not enabled does not fire (R239). -/
theorem seqHit_none {other : Bool} {exp : List Bool}
    (hoff : ∀ a < 4, bit (getR d (ph n) (F.HURDLE_ARC_W0 h (4 * getR d (ph n) (F.HURDLE_SEQ_STATE h) + a))) 31 = false) :
    seqHit n r other exp d h = none := by
  refine List.findSome?_eq_none_iff.2 fun a ha => ?_
  simp [arcWords, arcTime, hoff a (List.mem_range.1 ha)]

/-- The arc 0 "TRUE" fires at the time of its frame, whatever the other arcs say (R239, R244). -/
theorem seqHit_true {other : Bool} {exp : List Bool} {w0 : Nat}
    (hw : getR d (ph n) (F.HURDLE_ARC_W0 h (4 * getR d (ph n) (F.HURDLE_SEQ_STATE h))) = w0)
    (hon : bit w0 31 = true) (hterm : bits w0 0 6 = 30) (hneg : bit w0 6 = false) (hone : bit w0 15 = false) :
    seqHit n r other exp d h =
      some ((w0, getR d (ph n) (F.HURDLE_ARC_W1 h (4 * getR d (ph n) (F.HURDLE_SEQ_STATE h)))), r.tai) := by
  have htime : arcTime d n h r other exp w0 = some r.tai := by
    simp [arcTime, hon, hneg, hone, hterm, termTime, isLatched, levelTerm]
  simp [seqHit, List.range_succ, arcWords, hw, htime]

/-- From `d` to `e` sequencer `h`, which has no record open, takes a step without an action: it comes to state `dst`, `entered`
says whether it entered it there, and its running timers fall by 1. -/
structure Stepped (n h dst : Nat) (entered : Bool) (d e : Dev) : Prop where
  moves : LineMoves n (stepFields h) d e
  state : getR e (ph n) (F.HURDLE_SEQ_STATE h) = dst
  entered : (seqOf (hurdle e n) h).entered = entered
  closed : (seqOf (hurdle e n) h).open_ = none
  timers : ∀ i < 4, getR e (ph n) (F.HURDLE_TREM h i) = (getR d (ph n) (F.HURDLE_TREM h i) - 1) % 2 ^ 32

/-- Sequencer `h` runs in state `q` with no record open. -/
structure RunsIn (n h q : Nat) (d : Dev) : Prop where
  runs : flagR d (ph n) (F.HURDLE_SEQ_RUNNING h) = true
  state : getR d (ph n) (F.HURDLE_SEQ_STATE h) = q
  closed : (seqOf (hurdle d n) h).open_ = none

/-- The arc table lies at the end of the page, above every register that a step changes. -/
theorem fldAt_arc_ge (h i : Nat) :
    0xC00 * 32 ≤ fldAt (F.HURDLE_ARC_W0 h i) ∧ 0xC00 * 32 ≤ fldAt (F.HURDLE_ARC_W1 h i) := by
  simp only [fldAt, F.HURDLE_ARC_W0, F.HURDLE_ARC_W1]; omega

theorem fldAt_lt_arcs {h : Nat} (hh : h < 2) :
    ∀ f ∈ F.HURDLE_STEPS :: detFields ++ startFields h ++ timerFields h, fldAt f < 0xC00 * 32 := by decide +revert

/-- From `d` to `e` the arcs of the sequencers stay. -/
def ArcsKept (n h : Nat) (d e : Dev) : Prop :=
  ∀ i, getR e (ph n) (F.HURDLE_ARC_W0 h i) = getR d (ph n) (F.HURDLE_ARC_W0 h i) ∧
    getR e (ph n) (F.HURDLE_ARC_W1 h i) = getR d (ph n) (F.HURDLE_ARC_W1 h i)

theorem arcsKept_of_keeps {fs : List Fld} {d e : Dev} {n : Nat} (h : Nat)
    (hkeep : ∀ g, (∀ f ∈ fs, fldAt f ≠ fldAt g) → getR e (ph n) g = getR d (ph n) g) (hfs : ∀ f ∈ fs, fldAt f < 0xC00 * 32) :
    ArcsKept n h d e := fun i =>
  ⟨hkeep _ fun f hf => (lt_of_lt_of_le (hfs f hf) (fldAt_arc_ge h i).1).ne,
   hkeep _ fun f hf => (lt_of_lt_of_le (hfs f hf) (fldAt_arc_ge h i).2).ne⟩

theorem timersDown_arcsKept (hh : h < 2) : ArcsKept n h d (timersDown d n h).2 :=
  arcsKept_of_keeps h (timersDown_regMoves d n h).keeps fun f hf => fldAt_lt_arcs hh f (by simp [hf])

theorem fldAt_timer_ne_state {h : Nat} (hh : h < 2) : ∀ f ∈ timerFields h, fldAt f ≠ fldAt (F.HURDLE_SEQ_STATE h) := by
  decide +revert

/-- A sequencer past its timers is where it was. -/
theorem RunsIn.timersDown {q : Nat} (hs : RunsIn n h q d) (hh : h < 2) :
    getR (timersDown d n h).2 (ph n) (F.HURDLE_SEQ_STATE h) = q ∧
    (seqOf (hurdle (Machine.timersDown d n h).2 n) h).open_ = none :=
  ⟨((timersDown_regMoves d n h).keeps _ (fldAt_timer_ne_state hh)).trans hs.state,
   by rw [(timersDown_regMoves d n h).hurdle_eq, hs.closed]⟩

/-- The end of a step without an action: the sequencer notes whether it entered its state, and shows the state. -/
theorem stepped_of_timersDown {dst : Nat} {entered : Bool} {e : Dev} {y : SeqSt}
    (hmoves : RegMoves (ph n) [F.HURDLE_SEQ_STATE h] (setSeq (timersDown d n h).2 n h y) e) (hh : h < 2) (hy : y.open_ = none)
    (hent : y.entered = entered) (hstate : getR e (ph n) (F.HURDLE_SEQ_STATE h) = dst) : Stepped n h dst entered d e where
  moves := .trans _ _ _ ((LineMoves.of_regMoves (timersDown_regMoves d n h)).mono fun f hf => List.mem_cons_of_mem _ hf)
    (.trans _ _ _ (.of_setSeq ..) ((LineMoves.of_regMoves hmoves).mono fun f hf => by simp_all [stepFields]))
  state := hstate
  entered := by rw [hmoves.hurdle_eq, seqOf_setSeq, hent]
  closed := by rw [hmoves.hurdle_eq, seqOf_setSeq, hy]
  timers i hi := by
    have hne := fldAt_timer_ne_state hh _ (List.mem_map_of_mem (List.mem_range.2 hi))
    rw [hmoves.keeps _ (by simpa using hne.symm), getR_setSeq, getR_timersDown d n h hi]

/-- With no arc enabled a sequencer stays where it is (R239). -/
theorem seqStep_stays {q : Nat} (hh : h < 2) (hs : RunsIn n h q d)
    (hoff : ∀ a < 4, bit (getR d (ph n) (F.HURDLE_ARC_W0 h (4 * q + a))) 31 = false) :
    Stepped n h q false d (seqStep n r others d h) := by
  obtain ⟨hstate, hclosed⟩ := hs.timersDown hh
  rw [seqStep_none hs.runs (seqHit_none fun a ha => by
      rw [hstate, (timersDown_arcsKept hh _).1, hoff a ha]),
    recStep_closed (by rw [seqOf_setSeq, hclosed]), recForced_closed (by rw [seqOf_setSeq, hclosed])]
  exact stepped_of_timersDown (.refl _) hh hclosed rfl hstate

/-- The word of the arc "TRUE" with NEXT `nx`. -/
theorem arcTrue_bits {nx : Nat} (hnx : nx < 16) :
    bit (2 ^ 31 + nx * 2 ^ 16 + 30) 31 = true ∧ bits (2 ^ 31 + nx * 2 ^ 16 + 30) 0 6 = 30 ∧
    bit (2 ^ 31 + nx * 2 ^ 16 + 30) 6 = false ∧ bit (2 ^ 31 + nx * 2 ^ 16 + 30) 15 = false ∧
    bits (2 ^ 31 + nx * 2 ^ 16 + 30) 16 4 = nx := by
  decide +revert

/-- With the arc 0 "TRUE, no action" enabled a sequencer goes to its NEXT, whatever the other arcs say (R239). -/
theorem seqStep_fires {q nx : Nat} (hh : h < 2) (hnx : nx < 16) (hs : RunsIn n h q d)
    (hw0 : getR d (ph n) (F.HURDLE_ARC_W0 h (4 * q)) = 2 ^ 31 + nx * 2 ^ 16 + 30)
    (hw1 : getR d (ph n) (F.HURDLE_ARC_W1 h (4 * q)) = 0) : Stepped n h nx true d (seqStep n r others d h) := by
  obtain ⟨hon, hterm, hneg, hone, hnext⟩ := arcTrue_bits hnx
  obtain ⟨hstate, hclosed⟩ := hs.timersDown hh
  obtain ⟨h0, h1⟩ := timersDown_arcsKept (d := d) (n := n) hh (4 * q)
  have hhit := seqHit_true (r := r) (other := others.getD h false) (exp := (timersDown d n h).1)
    (by rw [hstate, h0, hw0]) hon hterm hneg hone
  rw [hstate, h1, hw1] at hhit
  rw [seqStep_some hs.runs hhit, arcActs_zero, arcTrig_zero, recStep_closed hclosed, recForced_closed (by
    rw [hurdle_setR, seqOf_setSeq]; exact hclosed), hnext]
  exact stepped_of_timersDown (.of_setR _ _ (List.mem_singleton.2 rfl)) hh hclosed rfl
    ((getR_setR_self ..).trans (Nat.mod_eq_of_lt hnx))

theorem fldAt_step_ne_running {h : Nat} (hh : h < 2) {i : Nat} (hi : i < 2) :
    ∀ f ∈ stepFields h, fldAt f ≠ fldAt (F.HURDLE_SEQ_RUNNING i) := by decide +revert

/-- A step of both sequencers is that of sequencer `h` where the other one is stopped, which only forgets that it fired SIG. -/
theorem seqSteps_one {dst : Nat} {entered : Bool} (hh : h < 2) (hoff : flagR d (ph n) (F.HURDLE_SEQ_RUNNING (1 - h)) = false)
    (hstep : ∀ e, (e = d ∨ ∃ y, e = setSeq d n (1 - h) y) → Stepped n h dst entered e (seqStep n r others e h)) :
    Stepped n h dst entered d ([0, 1].foldl (seqStep n r others) d) := by
  obtain rfl | rfl : h = 0 ∨ h = 1 := by omega
  · have hone := hstep d (.inl rfl)
    have hother : flagR (seqStep n r others d 0) (ph n) (F.HURDLE_SEQ_RUNNING 1) = false :=
      (hone.moves.flag (fldAt_step_ne_running hh (by decide))).trans hoff
    rw [List.foldl_cons, List.foldl_cons, List.foldl_nil, seqStep_stopped hother]
    generalize seqStep n r others d 0 = e at hone
    exact ⟨hone.moves.trans _ _ _ (.of_setSeq ..), hone.state, (congrArg _ (seqOf_setSeq_other e n _ hh)).trans hone.entered,
      (congrArg _ (seqOf_setSeq_other e n _ hh)).trans hone.closed, hone.timers⟩
  · rw [List.foldl_cons, List.foldl_cons, List.foldl_nil, seqStep_stopped hoff]
    have hone := hstep _ (.inr ⟨{ seqOf (hurdle d n) 0 with sig := false }, rfl⟩)
    exact ⟨.trans _ _ _ (.of_setSeq ..) hone.moves, hone.state, hone.entered, hone.closed, hone.timers⟩

end

theorem RunsIn.other {d : Dev} {n h q : Nat} (hs : RunsIn n h q d) (hh : h < 2) {e : Dev}
    (he : e = d ∨ ∃ y, e = setSeq d n (1 - h) y) : RunsIn n h q e := by
  obtain rfl | ⟨y, rfl⟩ := he
  · exact hs
  · exact ⟨hs.runs, hs.state, by rw [seqOf_setSeq_other d n y hh, hs.closed]⟩

theorem getR_other {d : Dev} {n h : Nat} {e : Dev} (he : e = d ∨ ∃ y, e = setSeq d n (1 - h) y) (p : Nat) (f : Fld) :
    getR e p f = getR d p f := by obtain rfl | ⟨y, rfl⟩ := he <;> rfl

/-! ### The step of a line (R237, R238) -/

/-- Line `n` takes up its oldest frame `r`. -/
def frameTaken (n : Nat) (r : StepRec) (rest : List StepRec) (d : Dev) : Dev :=
  setHurdle d n { hurdle d n with steps := rest, lastK := r.num, lastT := r.tai }

theorem getR_frameTaken (n : Nat) (r : StepRec) (rest : List StepRec) (d : Dev) (p : Nat) (f : Fld) :
    getR (frameTaken n r rest d) p f = getR d p f := rfl

/-- Line `n` takes up its oldest frame `r`, and the sequencers enabled since the last step start. -/
def stepBegun (n : Nat) (r : StepRec) (rest : List StepRec) (d : Dev) : Dev :=
  [0, 1].foldl (seqStart n) (frameTaken n r rest d)

/-- The detectors are shown, and the step is counted where a sequencer runs. -/
def stepCounted (n : Nat) (r : StepRec) (d : Dev) : Dev :=
  onlyIf (flagR d (ph n) (F.HURDLE_SEQ_RUNNING 0) || flagR d (ph n) (F.HURDLE_SEQ_RUNNING 1))
    (fun d => bump d (ph n) F.HURDLE_STEPS) (detShow d n r)

/-- The terms latched before the step, `old`, clear, and the page shows the sequencers. -/
def stepEnded (n : Nat) (old : List (Nat × Int)) (d : Dev) : Dev :=
  hurdleShow (setHurdle d n { hurdle d n with latched := (hurdle d n).latched.filter (fun e => !old.contains e) }) n

theorem doSeqStep_steps {d : Dev} {n : Nat} {r : StepRec} {rest : List StepRec} (t : Nat) (hx : (hurdle d n).steps = r :: rest)
    (hst : ¬(lineState d n = 0 ∨ lineState d n = 5 ∨ lineState d n = 6)) : doSeqStep t n d =
    stepEnded n (hurdle d n).latched ([0, 1].foldl (seqStep n r [(hurdle d n).seq1.sig, (hurdle d n).seq0.sig])
      (stepCounted n r (stepBegun n r rest (advance d t)))) := by
  have hx' : (hurdle (advance d t) n).steps = r :: rest := hx
  unfold doSeqStep
  dsimp only
  rw [hx']
  exact if_neg hst

theorem doSeqStep_none {d : Dev} {n : Nat} (t : Nat) (hx : (hurdle d n).steps = []) : doSeqStep t n d = advance d t := by
  have hx' : (hurdle (advance d t) n).steps = [] := hx
  unfold doSeqStep
  dsimp only
  rw [hx']

theorem doSeqStep_off {d : Dev} {n : Nat} (t : Nat) (hst : lineState d n = 0 ∨ lineState d n = 5 ∨ lineState d n = 6) :
    doSeqStep t n d = advance d t := by
  cases hx : (hurdle d n).steps with
  | nil => exact doSeqStep_none t hx
  | cons r rest =>
    have hx' : (hurdle (advance d t) n).steps = r :: rest := hx
    unfold doSeqStep
    dsimp only
    rw [hx']
    exact if_pos hst

section
variable {d e : Dev} {n h : Nat} {fs : List Fld}

theorem hurdle_stepEnded (old : List (Nat × Int)) : hurdle (stepEnded n old e) n =
    { hurdle e n with latched := (hurdle e n).latched.filter (fun e => !old.contains e) } :=
  ((hurdleShow_regMoves _ n).hurdle_eq n).trans (hurdle_setHurdle ..)

theorem stepEnded_frame (old : List (Nat × Int)) : HurdleFrame e (stepEnded n old e) := by
  obtain ⟨⟨_, h⟩, -⟩ := hurdleShow_regMoves (setHurdle e n { hurdle e n with
    latched := (hurdle e n).latched.filter (fun e => !old.contains e) }) n
  exact ⟨_, _, h⟩

theorem getR_stepEnded (old : List (Nat × Int)) {g : Fld} (hg : ∀ f ∈ showFields, fldAt f ≠ fldAt g) :
    getR (stepEnded n old e) (ph n) g = getR e (ph n) g := (hurdleShow_regMoves _ n).keeps g hg

/-- Terms that no part of the step latched anew are clear after it. -/
theorem latched_stepEnded (h : LineMoves n fs d e) : (hurdle (stepEnded n (hurdle d n).latched e) n).latched = [] := by
  rw [hurdle_stepEnded, ← h.latched]
  exact List.filter_eq_nil_iff.2 fun a ha => by simpa using ha

theorem stepCounted_regMoves (r : StepRec) : RegMoves (ph n) (F.HURDLE_STEPS :: detFields) d (stepCounted n r d) := by
  refine .trans _ _ _ ((detShow_regMoves d n r).mono fun f hf => List.mem_cons_of_mem _ hf) ?_
  exact onlyIf_rel (f := fun d => bump d (ph n) F.HURDLE_STEPS) RegMoves.refl _ _ (.of_addC _ _ (List.mem_cons_self ..))

theorem getR_stepCounted (r : StepRec) (hh : h < 2) (hrun : flagR d (ph n) (F.HURDLE_SEQ_RUNNING h) = true) :
    getR (stepCounted n r d) (ph n) F.HURDLE_STEPS = (getR d (ph n) F.HURDLE_STEPS + 1) % 2 ^ 64 := by
  have hon : (flagR d (ph n) (F.HURDLE_SEQ_RUNNING 0) || flagR d (ph n) (F.HURDLE_SEQ_RUNNING 1)) = true := by
    obtain rfl | rfl : h = 0 ∨ h = 1 := by omega
    · simp [hrun]
    · simp [hrun]
  rw [stepCounted, hon]
  refine (getR_addC_wide _ _ (f := F.HURDLE_STEPS) _ (by decide)).trans ?_
  rw [(detShow_regMoves d n r).keeps _ (by decide)]
  rfl

end

/-- The step from `d`, where sequencers have started, to `e`: the only one that runs, `h`, came to `dst` without an action. -/
structure StepShown (n h dst : Nat) (entered : Bool) (d e : Dev) : Prop where
  frame : HurdleFrame d e
  steps : (hurdle e n).steps = (hurdle d n).steps
  latched : (hurdle e n).latched = []
  state : getR e (ph n) (F.HURDLE_SEQ_STATE h) = dst
  entered : (seqOf (hurdle e n) h).entered = entered
  closed : (seqOf (hurdle e n) h).open_ = none
  timers : ∀ i < 4, getR e (ph n) (F.HURDLE_TREM h i) = (getR d (ph n) (F.HURDLE_TREM h i) - 1) % 2 ^ 32
  counted : getR e (ph n) F.HURDLE_STEPS = (getR d (ph n) F.HURDLE_STEPS + 1) % 2 ^ 64
  active : getR e (ph n) cSTATE = 1
  keeps : ∀ g, (∀ f ∈ F.HURDLE_STEPS :: detFields ++ stepFields h ++ showFields, fldAt f ≠ fldAt g) →
    getR e (ph n) g = getR d (ph n) g

theorem StepShown.timer_falls {n h dst i : Nat} {b : Bool} {d e : Dev} (hs : StepShown n h dst b d e) (hi : i < 4)
    (hlt : getR d (ph n) (F.HURDLE_TREM h i) < 2 ^ 32) :
    getR e (ph n) (F.HURDLE_TREM h i) = getR d (ph n) (F.HURDLE_TREM h i) - 1 :=
  (hs.timers i hi).trans (Nat.mod_eq_of_lt ((Nat.sub_le _ _).trans_lt hlt))

theorem fldAt_show_ne {h : Nat} (hh : h < 2) : ∀ g ∈ F.HURDLE_STEPS :: F.HURDLE_SEQ_RUNNING h :: stepFields h,
    ∀ f ∈ showFields, fldAt f ≠ fldAt g := by decide +revert
theorem fldAt_det_ne {h : Nat} (hh : h < 2) : ∀ g ∈ F.HURDLE_SEQ_RUNNING h :: stepFields h,
    ∀ f ∈ F.HURDLE_STEPS :: detFields, fldAt f ≠ fldAt g := by decide +revert
theorem fldAt_step_ne_steps {h : Nat} (hh : h < 2) : ∀ f ∈ stepFields h, fldAt f ≠ fldAt F.HURDLE_STEPS := by decide +revert

theorem Stepped.shown {n h dst : Nat} {entered : Bool} {d e : Dev} {r : StepRec} (hh : h < 2)
    (hrun : flagR d (ph n) (F.HURDLE_SEQ_RUNNING h) = true) (hs : Stepped n h dst entered (stepCounted n r d) e) :
    StepShown n h dst entered d (stepEnded n (hurdle d n).latched e) := by
  have hcount := LineMoves.of_regMoves (stepCounted_regMoves (d := d) (n := n) r)
  have hboth : LineMoves n (F.HURDLE_STEPS :: detFields ++ stepFields h) d e :=
    .trans _ _ _ (hcount.mono fun f hf => List.mem_append_left _ hf) (hs.moves.mono fun f hf => List.mem_append_right _ hf)
  have htimer {i : Nat} (hi : i < 4) : F.HURDLE_TREM h i ∈ stepFields h :=
    List.mem_cons_of_mem _ (List.mem_map_of_mem (List.mem_range.2 hi))
  refine ⟨?_, ?_, latched_stepEnded hboth, ?_, ?_, ?_, ?_, ?_, ?_, ?_⟩
  · exact hboth.frame.trans (stepEnded_frame _)
  · rw [hurdle_stepEnded]; exact hboth.steps
  · exact (getR_stepEnded _ (fldAt_show_ne hh _ (by simp [stepFields]))).trans hs.state
  · rw [hurdle_stepEnded]; exact hs.entered
  · rw [hurdle_stepEnded]; exact hs.closed
  · intro i hi
    have hmem := htimer hi
    refine (getR_stepEnded _ (fldAt_show_ne hh _ (by simp [hmem]))).trans ((hs.timers i hi).trans ?_)
    rw [hcount.keeps _ (fldAt_det_ne hh _ (by simp [hmem]))]
  · exact (getR_stepEnded _ (fldAt_show_ne hh _ (by simp))).trans
      ((hs.moves.keeps _ (fldAt_step_ne_steps hh)).trans (getR_stepCounted r hh hrun))
  · refine (getR_hurdleShow_state _ n).trans ?_
    have hon : flagR e (ph n) (F.HURDLE_SEQ_RUNNING h) = true := by
      rw [hs.moves.flag (fldAt_step_ne_running hh hh), hcount.flag (fldAt_det_ne hh _ (by simp)), hrun]
    have hon' (x : HurdleSt) : flagR (setHurdle e n x) (ph n) (F.HURDLE_SEQ_RUNNING h) = true := hon
    obtain rfl | rfl : h = 0 ∨ h = 1 := by omega
    · rw [hon']; rfl
    · rw [hon', Bool.or_true]; rfl
  · intro g hg
    refine (getR_stepEnded _ fun f hf => hg f (List.mem_append_right _ hf)).trans ?_
    exact hboth.keeps g fun f hf => hg f (List.mem_append_left _ hf)

section
variable {d : Dev} {n h q dst t : Nat} {entered : Bool} {r : StepRec} {rest : List StepRec}

/-- Where the other sequencer is not enabled, what starts is sequencer `h` alone. -/
theorem stepBegun_one (hh : h < 2) (hen : flagR d (ph n) (F.HURDLE_EN (1 - h)) = false) : stepBegun n r rest d =
    seqStart n (frameTaken n r rest d) h := seqStarts_one hh hen

theorem stepBegun_spec (hh : h < 2) (hen : flagR d (ph n) (F.HURDLE_EN (1 - h)) = false) :
    HurdleFrame d (stepBegun n r rest d) ∧ (hurdle (stepBegun n r rest d) n).steps = rest ∧
    (hurdle (stepBegun n r rest d) n).latched = (hurdle d n).latched ∧
    ∀ g, (∀ f ∈ startFields h, fldAt f ≠ fldAt g) → getR (stepBegun n r rest d) (ph n) g = getR d (ph n) g := by
  obtain ⟨⟨_, _, hframe⟩, hsteps, hlatched, hkeep⟩ := seqStart_lineMoves (frameTaken n r rest d) n h
  rw [frameTaken, hurdle_setHurdle] at hsteps hlatched
  rw [stepBegun_one hh hen]
  exact ⟨⟨_, _, hframe⟩, hsteps, hlatched, hkeep⟩

theorem fldAt_start_ne_other {h : Nat} (hh : h < 2) : ∀ f ∈ F.HURDLE_STEPS :: detFields ++ startFields h,
    fldAt f ≠ fldAt (F.HURDLE_SEQ_RUNNING (1 - h)) := by decide +revert

/-- The step of a line on which sequencer `h` alone runs once those enabled have started. -/
theorem doSeqStep_one (hx : (hurdle d n).steps = r :: rest)
    (hst : ¬(lineState d n = 0 ∨ lineState d n = 5 ∨ lineState d n = 6)) (hh : h < 2)
    (hoff : flagR d (ph n) (F.HURDLE_SEQ_RUNNING (1 - h)) = false) (hen : flagR d (ph n) (F.HURDLE_EN (1 - h)) = false)
    (hruns : RunsIn n h q (stepBegun n r rest (advance d t)))
    (hstep : ∀ e others, RunsIn n h q e → ArcsKept n h d e → Stepped n h dst entered e (seqStep n r others e h)) :
    StepShown n h dst entered (stepBegun n r rest (advance d t)) (doSeqStep t n d) := by
  obtain ⟨-, -, hlatched, hkeep⟩ := stepBegun_spec (d := advance d t) (r := r) (rest := rest) hh hen
  rw [doSeqStep_steps t hx hst, show (hurdle d n).latched = _ from hlatched.symm]
  generalize stepBegun n r rest (advance d t) = b at hruns hkeep
  have hcount := stepCounted_regMoves (d := b) (n := n) r
  have hruns' : RunsIn n h q (stepCounted n r b) :=
    ⟨((LineMoves.of_regMoves hcount).flag (fldAt_det_ne hh _ (by simp))).trans hruns.runs,
     (hcount.keeps _ (fldAt_det_ne hh _ (by simp [stepFields]))).trans hruns.state, by rw [hcount.hurdle_eq, hruns.closed]⟩
  have hkeep' (g : Fld) (hg : ∀ f ∈ F.HURDLE_STEPS :: detFields ++ startFields h, fldAt f ≠ fldAt g) :
      getR (stepCounted n r b) (ph n) g = getR d (ph n) g :=
    (hcount.keeps g fun f hf => hg f (List.mem_append_left _ hf)).trans
      (hkeep g fun f hf => hg f (List.mem_append_right _ hf))
  have harcs : ArcsKept n h d (stepCounted n r b) :=
    arcsKept_of_keeps h hkeep' fun f hf => fldAt_lt_arcs hh f (List.mem_append_left _ hf)
  refine Stepped.shown hh hruns.runs (seqSteps_one hh ?_ fun e he => hstep e _ (hruns'.other hh he) fun i => ?_)
  · rw [flagR, hkeep' _ (fldAt_start_ne_other hh)]; exact hoff
  · rw [getR_other he, getR_other he]; exact harcs i

/-- A sequencer that runs does not start again. -/
theorem runsIn_stepBegun (hh : h < 2) (hen : flagR d (ph n) (F.HURDLE_EN (1 - h)) = false) (hs : RunsIn n h q d) :
    stepBegun n r rest d = frameTaken n r rest d ∧ RunsIn n h q (stepBegun n r rest d) := by
  have hidle : stepBegun n r rest d = _ := (stepBegun_one hh hen).trans (seqStart_idle (.inr hs.runs))
  rw [hidle]
  exact ⟨rfl, hs.runs, hs.state, by rw [frameTaken, hurdle_setHurdle]; exact hs.closed⟩

/-- A sequencer enabled since the last step starts in START_STATE (R254). -/
theorem runsIn_stepBegun_start (hh : h < 2) (hen : flagR d (ph n) (F.HURDLE_EN (1 - h)) = false)
    (hon : flagR d (ph n) (F.HURDLE_EN h) = true) (hoff : flagR d (ph n) (F.HURDLE_SEQ_RUNNING h) = false)
    (hq : getR d (ph n) (F.HURDLE_START_STATE h) = q) (hlt : q < 16) (hopen : (seqOf (hurdle d n) h).open_ = none) :
    RunsIn n h q (stepBegun n r rest d) ∧ ∀ c < 4, CounterClear n h c (stepBegun n r rest d) := by
  obtain ⟨hclear, hstate, hrun, hclosed⟩ := seqStart_spec (d := frameTaken n r rest d) (n := n) hh hon hoff
  rw [stepBegun_one hh hen]
  refine ⟨⟨hrun, hstate.trans ?_, hclosed.trans ?_⟩, hclear⟩
  · rw [frameTaken, getR_setHurdle, hq, Nat.mod_eq_of_lt hlt]
  · rw [frameTaken, hurdle_setHurdle]; exact hopen

/-- With no sequencer enabled a step shows the detectors alone. -/
theorem seqSteps_idle {others : List Bool} (hoff : ∀ h < 2, flagR d (ph n) (F.HURDLE_SEQ_RUNNING h) = false) :
    LineMoves n detFields d ([0, 1].foldl (seqStep n r others) (stepCounted n r d)) := by
  have hdet := LineMoves.of_regMoves (detShow_regMoves d n r)
  have hcount : stepCounted n r d = detShow d n r := by
    rw [stepCounted, hoff 0 (by decide), hoff 1 (by decide)]; rfl
  have hoff' (h : Nat) (hh : h < 2) : flagR (detShow d n r) (ph n) (F.HURDLE_SEQ_RUNNING h) = false :=
    (hdet.flag fun f hf => fldAt_det_ne hh _ (by simp) f (List.mem_cons_of_mem _ hf)).trans (hoff h hh)
  rw [hcount, List.foldl_cons, List.foldl_cons, List.foldl_nil, seqStep_stopped (hoff' 0 (by decide)),
    seqStep_stopped (d := setSeq (detShow d n r) n 0 _) (hoff' 1 (by decide))]
  exact .trans _ _ _ hdet (.trans _ _ _ (.of_setSeq ..) (.of_setSeq ..))

/-- The step of a line with no sequencer enabled. -/
theorem doSeqStep_idle (hx : (hurdle d n).steps = r :: rest)
    (hst : ¬(lineState d n = 0 ∨ lineState d n = 5 ∨ lineState d n = 6))
    (hoff : ∀ h < 2, flagR d (ph n) (F.HURDLE_SEQ_RUNNING h) = false ∧ flagR d (ph n) (F.HURDLE_EN h) = false) :
    HurdleFrame (advance d t) (doSeqStep t n d) ∧ (hurdle (doSeqStep t n d) n).steps = rest ∧
    (hurdle (doSeqStep t n d) n).latched = [] ∧
    getR (doSeqStep t n d) (ph n) F.HURDLE_STEPS = getR d (ph n) F.HURDLE_STEPS := by
  have hbegun : stepBegun n r rest (advance d t) = frameTaken n r rest (advance d t) :=
    (stepBegun_one (d := advance d t) (h := 0) (by decide) (hoff 1 (by decide)).2).trans
      (seqStart_idle (d := frameTaken n r rest (advance d t)) (.inl (hoff 0 (by decide)).2))
  have htaken : hurdle (frameTaken n r rest (advance d t)) n = { hurdle d n with steps := rest, lastK := r.num, lastT := r.tai } :=
    hurdle_setHurdle ..
  have hmoves := seqSteps_idle (d := frameTaken n r rest (advance d t)) (n := n) (r := r)
    (others := [(hurdle d n).seq1.sig, (hurdle d n).seq0.sig]) fun h hh => (hoff h hh).1
  have hlatched := latched_stepEnded hmoves
  rw [doSeqStep_steps t hx hst, hbegun]
  refine ⟨.trans ⟨_, _, rfl⟩ (hmoves.frame.trans (stepEnded_frame _)), ?_, ?_, ?_⟩
  · rw [hurdle_stepEnded]; exact hmoves.steps.trans (congrArg HurdleSt.steps htaken)
  · rw [htaken] at hlatched; exact hlatched
  · rw [getR_stepEnded _ (by decide), hmoves.keeps _ (by decide), getR_frameTaken, getR_advance]

/-- What the start of a sequencer wrote and its first step leaves. -/
theorem fldAt_first_step_ne {h : Nat} (hh : h < 2) : ∀ g ∈ F.HURDLE_SEQ_RUNNING h :: (List.range 4).map (fCNT h),
    ∀ f ∈ F.HURDLE_STEPS :: detFields ++ stepFields h ++ showFields, fldAt f ≠ fldAt g := by decide +revert
theorem fldAt_start_ne_steps {h : Nat} (hh : h < 2) : ∀ f ∈ startFields h, fldAt f ≠ fldAt F.HURDLE_STEPS := by
  decide +revert

end

end Sys2Proof.Machine

open Sys2Proof Sys2Proof.Machine

/-- Settles O34: a step is what starts, what is counted and what each sequencer does (`doSeqStep_steps`); with one sequencer
running it comes to `doSeqStep_one`, whose arcs fire (`seqStep_fires`) or not (`seqStep_stays`). -/
theorem sequencersFireOneArc : Obligations.SequencersFireOneArc := by
  unfold Obligations.SequencersFireOneArc
  intro s t n hn hs x p st
  have hgives := gives_sequencerStep t hn hs
  have hsteps {st : Nat} (h : st = 1 ∨ st = 2 ∨ st = 3 ∨ st = 4) : ¬(st = 0 ∨ st = 5 ∨ st = 6) := by omega
  refine ⟨?_, ?_, ?_, ?_, ?_, ?_⟩
  · exact fun hx => hgives.of_eq (doSeqStep_none t hx)
  · exact fun hst => hgives.of_eq (doSeqStep_off t hst)
  · intro r rest hx hst hoff
    obtain ⟨hframe, hrest, hlatched, hcount⟩ := doSeqStep_idle (t := t) hx (hsteps hst) hoff
    refine does_of_gives hgives ?_
    simp only [hurdle_settle, getR_settle, settle_evt, settle_mem]
    exact ⟨hrest, hlatched, hcount, hframe.evt, hframe.mem⟩
  · intro r rest h q nx hx hst hnx hh hq _ hrun hoff hen hopen hw0 hw1
    obtain ⟨hbegun, hruns⟩ := runsIn_stepBegun (d := advance s.dev t) (r := r) (rest := rest) hh hen ⟨hrun, hq, hopen⟩
    have hshown := doSeqStep_one hx (hsteps hst) hh hoff hen hruns fun e others he harcs =>
      seqStep_fires hh hnx he ((harcs _).1.trans hw0) ((harcs _).2.trans hw1)
    rw [hbegun] at hshown
    refine does_of_gives hgives ?_
    simp only [hurdle_settle, getR_settle, settle_evt, settle_mem]
    exact ⟨hshown.steps.trans (congrArg _ (hurdle_setHurdle ..)), hshown.latched, hshown.state, hshown.entered, hshown.closed,
      fun i hi hlt => hshown.timer_falls hi hlt, hshown.counted, hshown.frame.evt, hshown.frame.mem⟩
  · intro r rest h q hx hst hh hq _ hrun hoff hen hopen harc
    obtain ⟨hbegun, hruns⟩ := runsIn_stepBegun (d := advance s.dev t) (r := r) (rest := rest) hh hen ⟨hrun, hq, hopen⟩
    have hshown := doSeqStep_one hx (hsteps hst) hh hoff hen hruns fun e others he harcs =>
      seqStep_stays hh he fun a ha => (bit_eq_testBit ..).trans ((congrArg (·.testBit 31) (harcs _).1).trans (harc a ha))
    rw [hbegun] at hshown
    refine does_of_gives hgives ?_
    simp only [hurdle_settle, getR_settle, settle_evt, settle_mem]
    exact ⟨hshown.steps.trans (congrArg _ (hurdle_setHurdle ..)), hshown.latched, hshown.state, hshown.entered,
      fun i hi hlt => hshown.timer_falls hi hlt, hshown.counted, hshown.frame.evt, hshown.frame.mem⟩
  · intro r rest h q hx hst hh hq hlt hon hrun hoff hen hopen harc
    obtain ⟨hruns, hclear⟩ := runsIn_stepBegun_start (d := advance s.dev t) (r := r) (rest := rest) hh hen hon hrun hq hlt hopen
    have hshown := doSeqStep_one hx (hsteps hst) hh hoff hen hruns fun e others he harcs =>
      seqStep_stays hh he fun a ha => (bit_eq_testBit ..).trans ((congrArg (·.testBit 31) (harcs _).1).trans (harc a ha))
    obtain ⟨hframe, -, -, hkeep⟩ := stepBegun_spec (d := advance s.dev t) (r := r) (rest := rest) hh hen
    generalize stepBegun n r rest (advance s.dev t) = b at hruns hclear hshown hframe hkeep
    refine does_of_gives hgives ?_
    simp only [flagR, getR_settle, settle_evt, settle_mem]
    refine ⟨?_, hshown.state, fun c hc => ⟨?_, ?_⟩, hshown.active, ?_, ?_, ?_⟩
    · exact (congrArg (· == 1) (hshown.keeps _ (fldAt_first_step_ne hh _ (by simp)))).trans hruns.runs
    · have hmem : fCNT h c ∈ (List.range 4).map (fCNT h) := List.mem_map_of_mem (List.mem_range.2 hc)
      exact (hshown.keeps _ (fldAt_first_step_ne hh _ (List.mem_cons_of_mem _ hmem))).trans (hclear c hc).1
    · exact (hshown.timers c hc).trans (congrArg (fun v => (v - 1) % 2 ^ 32) (hclear c hc).2)
    · exact hshown.counted.trans (congrArg (fun v => (v + 1) % 2 ^ 64) (hkeep _ (fldAt_start_ne_steps hh)))
    · exact (hframe.trans hshown.frame).evt
    · exact (hframe.trans hshown.frame).mem
end

section
/-! PROOFS. The emission of records (R247, R248): a ring number beyond the 32 rings counts among a line's registers. -/

namespace Sys2Proof.Machine

open Sys2Proof

/-- What a command does holds of the device that it gives. -/
theorem Gives.of_does {c : Instr} {s : State} {d : Dev} {P : Dev → Prop} (h : Gives c s d) (hd : Does c s P) : P (settle d) := by
  obtain ⟨u, hu, -, hp⟩ := hd
  rw [Gives, hu] at h
  rw [Host.Outcome.next.inj h] at hp
  exact hp

/-- A number that no ring has: what would be the DROPS counter of ring `strayRing` (R417) is RECORDS of line 0 (R254). -/
def strayRing : Nat := (key (pgHurdle 0) F.HURDLE_RECORDS - key pgRings (F.RINGS_DROPS 0)) / 256

/-- A closed record without measurements and without a capture. -/
def closedRecord : RecSt :=
  { kt := 0, term := 30, state := 0, trig := 0, acc := some 0, plan := 0, pscale := 0, kind := 0, flags := 0, peak := none,
    sumSq := 0, n := 0, lo := 0, hi := 0, jSum := 0, mSum := 0, anchor := none, sign := none, z := 0, dn := 0, iout := 0,
    capOn := false, capFrom := 0, cap := [], pinAsked := false, pin := none, pinRefused := false, kc := 0, tc := 0, cause := 1,
    endNo := 0 }

/-- Line 0 has that record to emit, and its frame has reached the hub; the map of source 25 (R404), a field of five bits, holds
`strayRing`, which is bound to the host, whose memory the device may not write. -/
def strayEmission : Dev :=
  setHurdle { State.reset.dev with
      regs := [(key pgRings (F.RINGS_MAP 25), strayRing), (key pgRings (F.RINGS_BIND strayRing), 1)] } 0
    { HurdleSt.reset with arrived := some 0, seq0 := { SeqSt.reset with done := [closedRecord] } }

theorem gives_recordEmit {s : State} {n h : Nat} (t : Nat) (hn : n < 12) (hh : h < 2) (hs : Awake s) :
    Gives (.recordEmit t n h) s (doRecordEmit t n h s.dev) := gives_of_act rfl (by simp [hn, hh]) hs

/-- The ring drops the record, which counts at RECORDS, and the emission counts there as well. -/
theorem records_strayEmission : getR (doRecordEmit 0 0 0 strayEmission) (pgHurdle 0) F.HURDLE_RECORDS = 2 := by
  decide +kernel

end Sys2Proof.Machine

open Sys2Proof Sys2Proof.Machine

/-- Refutes O35: its clause on the emission wants RECORDS to go up by one, and has no premise that the rings' map keeps to its
width. In `strayEmission` it names no ring, and the drop of the record on that ring counts at RECORDS of the line too, which
goes from 0 to 2 (`records_strayEmission`). (`setR` keeps a field to its width, so no run from reset comes to such a state.) -/
theorem not_recordsOpenAndAreEmitted : ¬ Obligations.RecordsOpenAndAreEmitted := by
  unfold Obligations.RecordsOpenAndAreEmitted
  intro h
  obtain ⟨-, -, -, -, hemit⟩ := h { State.reset with dev := strayEmission } 0 0 (by decide) (by decide)
  have hgives := gives_recordEmit (s := { State.reset with dev := strayEmission }) (n := 0) (h := 0) 0 (by decide) (by decide)
    (by decide)
  obtain ⟨-, -, hrecords⟩ := hgives.of_does (hemit 0 (by decide) closedRecord [] (by decide) (by decide))
  rw [getR_settle, records_strayEmission] at hrecords
  exact absurd hrecords (by decide)

end

section
/-! PROOFS. Feature words (R228, R242): the time of a frame whose plan is not kept goes with the tick of the command. -/

namespace Sys2Proof.Machine

open Sys2Proof

/-- A feature word of port 0 of core 0, of frame 0. -/
def waitingWord : FeatW := ⟨0, 0, 0, 0, 0, false, 0, 0⟩

/-- The settings of a filter that takes every word of core 0. -/
def coreZeroFilter : FiltCfg := ⟨true, 1, 0, 0, 2, 0, 0⟩

/-- At tick 0 that word waits on line 0, whose filter 0 takes it; no plan of the line is kept. -/
def planlessWord : Dev :=
  setCore (setL (setL State.reset.dev (pgHurdle 0) (F.HURDLE_FILT_EN 0) 1) (pgHurdle 0) (F.HURDLE_CORE_MASK 0) 1) 0 0
    { CoreSt.reset with out0 := [waitingWord] }

theorem gives_featureWord {s : State} {n : Nat} (t : Nat) (hn : n < 12) (hs : Awake s) :
    Gives (.featureWord t n) s (doFeatureWord t n s.dev) := gives_of_act rfl (decide_eq_true hn) hs

/-- The word's frame has a time of its own at each tick. -/
theorem timeOfFrame_planlessWord : timeOfFrame (advance planlessWord 1) 0 0 = timeOfFrame planlessWord 0 0 + 655360 := by
  decide +kernel

/-- The term is latched with the time that the frame has at the tick of the command. -/
theorem latched_planlessWord :
    (hurdle (doFeatureWord 1 0 planlessWord) 0).latched = [(8, timeOfFrame (advance planlessWord 1) 0 0)] := by
  decide +kernel

end Sys2Proof.Machine

open Sys2Proof Sys2Proof.Machine

/-- Refutes O36: its clause on a word that matches a filter wants the term latched with the time that the word's frame has
before the command. With no plan of the line kept, `timeOfFrame` counts from the present tick, so in `planlessWord` a command
at tick 1 latches a time of one tick later (`latched_planlessWord`, `timeOfFrame_planlessWord`). -/
theorem not_edgesTriggersFeaturesAndSequencerSetUp : ¬ Obligations.EdgesTriggersFeaturesAndSequencerSetUp := by
  unfold Obligations.EdgesTriggersFeaturesAndSequencerSetUp
  intro h
  obtain ⟨-, -, hmatch, -⟩ := h.2 { State.reset with dev := planlessWord } 1 0 0 0 0 (by decide) (by decide) (by decide)
    (by decide)
  have hgives := gives_featureWord (s := { State.reset with dev := planlessWord }) (n := 0) 1 (by decide) (by decide)
  obtain ⟨-, hlatched, -⟩ := hgives.of_does (hmatch 0 waitingWord [] 0 coreZeroFilter (by decide) (by decide) (by decide)
    (by decide) (by decide) (by decide) (by decide))
  rw [hurdle_settle, latched_planlessWord, timeOfFrame_planlessWord] at hlatched
  have htimes : timeOfFrame planlessWord 0 0 + 655360 = timeOfFrame planlessWord 0 0 :=
    congrArg Prod.snd (Option.some.inj hlatched)
  omega

end

section
/-! PROOFS. The Ledger: USER entries, numbers, reservations and the Archive's share (R250, R252, R253). -/

namespace Sys2Proof.Machine

open Sys2Proof

/-! ### What an item offered to a ring leaves (R404–R412) -/

/-- From `d` to `e` rings, flows and their outputs move, and no register of page PKG does. -/
structure RingMoves (d e : Dev) : Prop where
  frame : ∃ r ev rs o n, e = { d with regs := r, evt := ev, rings := rs, out := o, net := n }
  keeps : ∀ f, fldAt f < 131072 → getR e pgPkg f = getR d pgPkg f

namespace RingMoves

theorem refl (d : Dev) : RingMoves d d := ⟨⟨d.regs, d.evt, d.rings, d.out, d.net, rfl⟩, fun _ _ => rfl⟩

theorem trans {a b c : Dev} (h : RingMoves a b) (g : RingMoves b c) : RingMoves a c where
  frame := by
    obtain ⟨⟨_, _, _, _, _, rfl⟩, -⟩ := h
    obtain ⟨⟨_, _, _, _, _, rfl⟩, -⟩ := g
    exact ⟨_, _, _, _, _, rfl⟩
  keeps f hf := (g.keeps f hf).trans (h.keeps f hf)

/-- Pages from 2 on lie above page PKG, whatever the field. -/
theorem of_setR {d e : Dev} (h : RingMoves d e) {p : Nat} (f : Fld) (v : Nat) (hp : 2 ≤ p) : RingMoves d (setR e p f v) :=
  h.trans ⟨⟨_, _, _, _, _, rfl⟩, fun g hg => getR_setR_ne e v (by rw [key_eq, key_eq, pgPkg]; omega)⟩

theorem of_addC {d e : Dev} (h : RingMoves d e) {p : Nat} (f : Fld) (v : Nat) (hp : 2 ≤ p) : RingMoves d (addC e p f v) := by
  rw [addC_eq]; exact h.of_setR f _ hp

theorem of_raise {d e : Dev} (h : RingMoves d e) (p b : Nat) : RingMoves d (raise e p b) :=
  h.trans ⟨⟨_, _, _, _, _, rfl⟩, fun _ _ => rfl⟩

theorem of_setRing {d e : Dev} (h : RingMoves d e) (r : Nat) (x : RingSt) : RingMoves d (setRing e r x) :=
  h.trans ⟨⟨_, _, _, _, _, rfl⟩, fun _ _ => rfl⟩

theorem of_out {d e : Dev} (h : RingMoves d e) (o : List Output) : RingMoves d { e with out := o } :=
  h.trans ⟨⟨_, _, _, _, _, rfl⟩, fun _ _ => rfl⟩

theorem of_hostWrite {d e : Dev} (h : RingMoves d e) (a : Nat) (l : List Nat) : RingMoves d (hostWrite e a l) :=
  (h.of_addC F.PCIE_WR_BYTES _ (by decide)).of_out _

end RingMoves

section
variable {d : Dev} {r : Nat} {h : Held}

theorem freeItem_none {i : Item} (d : Dev) (hi : i.shelves = 0) : freeItem d i = d := if_pos hi

theorem dropItem_ringMoves (cause : Nat) (hi : h.item.shelves = 0) : RingMoves d (dropItem d r h cause) := by
  have hdrop : RingMoves d (bump d pgRings (F.RINGS_DROPS r)) := (RingMoves.refl d).of_addC _ _ (by decide)
  unfold dropItem
  dsimp only
  rw [freeItem_none _ hi]
  refine .of_setRing ?_ _ _
  split
  · exact hdrop.of_raise _ _
  · exact hdrop

theorem ringPad_ringMoves (i : Item) : RingMoves d (ringPad d r i) := by
  unfold ringPad
  dsimp only
  split
  · exact (((RingMoves.refl d).of_hostWrite _ _).of_setR _ _ (by decide)).of_hostWrite _ _
  · exact .refl d

theorem ringWrite_ringMoves (hi : h.item.shelves = 0) : RingMoves d (ringWrite d r h) := by
  unfold ringWrite
  dsimp only
  rw [freeItem_none _ hi]
  refine .of_addC (.of_setRing ?_ _ _) _ _ (by decide)
  exact ((RingMoves.refl d).of_hostWrite _ _ |>.of_setR _ _ (by decide)).of_hostWrite _ _

theorem flowSend_ringMoves (f : Nat) (hi : h.item.shelves = 0) : RingMoves d (flowSend d r f h) := by
  have heth (e : Nat) : 2 ≤ pgEth e := by unfold pgEth; omega
  unfold flowSend
  dsimp only
  rw [freeItem_none _ hi]
  refine .of_addC (.of_setRing ?_ _ _) _ _ (by decide)
  have hcounted (o : List Output) (p e n w : Nat) : RingMoves d (addC (addC (addC { d with out := o } (pgEth e) F.ETH_TX_PKTS n)
      (pgEth e) F.ETH_TX_BYTES w) pgFlows (F.FLOWS_PKTS f) p) :=
    ((((RingMoves.refl d).of_out o).of_addC _ _ (heth e)).of_addC _ _ (heth e)).of_addC _ _ (by decide)
  split
  · exact hcounted ..
  · exact (hcounted ..).trans ⟨⟨_, _, _, _, _, rfl⟩, fun _ _ => rfl⟩

theorem tryDeliver_ringMoves (hi : h.item.shelves = 0) : RingMoves d (tryDeliver d r h).2 := by
  unfold tryDeliver
  split
  · exact dropItem_ringMoves _ hi
  · split
    · dsimp only
      split
      · exact (ringPad_ringMoves h.item).trans (ringWrite_ringMoves hi)
      · exact ringPad_ringMoves h.item
    · dsimp only
      split
      · exact flowSend_ringMoves _ hi
      · exact .refl d

/-- An item without shelves, offered, leaves the Ledger and page PKG alone. -/
theorem offerBytes_ringMoves (d : Dev) (src : Nat) (bytes : List Nat) : RingMoves d (offerBytes d src bytes) := by
  have hoff : RingMoves d (bump d pgRings F.RINGS_OFF_ITEMS) := (RingMoves.refl d).of_addC _ _ (by decide)
  unfold offerBytes offer
  split
  · rw [freeItem_none _ rfl]; exact hoff
  · next r _ =>
    split
    · rw [freeItem_none _ rfl]; exact hoff
    · dsimp only
      split
      · refine RingMoves.trans ((RingMoves.refl d).of_setRing r { ringSt d r with seq := ((ringSt d r).seq + 1) % 2 ^ 32 }) ?_
        have hsent := tryDeliver_ringMoves (r := r) (h := ⟨⟨src, bytes, none, 0, 0, 0⟩, (ringSt d r).seq, d.ticks⟩)
          (d := setRing d r { ringSt d r with seq := ((ringSt d r).seq + 1) % 2 ^ 32 }) rfl
        generalize tryDeliver _ r _ = q at hsent
        obtain ⟨done, e⟩ := q
        cases done
        · exact hsent.of_setRing _ _
        · exact hsent
      · exact ((RingMoves.refl d).of_setRing _ _).of_setRing _ _

end

/-! ### Places and numbers (R250, R252) -/

theorem gives_userGo {s : State} (t v : Nat) (hs : Awake s) : Gives (.userGo t v) s (doUserGo t v s.dev) := gives_of_act rfl rfl hs
theorem gives_ledgerEntry {s : State} (t : Nat) (hs : Awake s) : Gives (.ledgerEntry t) s (doLedgerEntry t s.dev) :=
  gives_of_act rfl rfl hs
theorem gives_ledgerReserve {s : State} (t : Nat) (ok : Bool) (hs : Awake s) :
    Gives (.ledgerReserve t ok) s (doReserve t ok s.dev) := gives_of_act rfl rfl hs
theorem gives_ledgerReserveRetry {s : State} (t : Nat) (ok : Bool) (hs : Awake s) :
    Gives (.ledgerReserveRetry t ok) s (doReserveRetry t ok s.dev) := gives_of_act rfl rfl hs
theorem gives_ledgerArchiveWrite {s : State} (t : Nat) (hs : Awake s) :
    Gives (.ledgerArchiveWrite t) s (ledgerToArchive (advance s.dev t)) :=
  gives_of_act (f := fun d => ledgerToArchive (advance d t)) rfl rfl hs

section
variable {d : Dev}

theorem getR_ledgerPurge (d : Dev) {f : Fld} (hf : fldAt F.PKG_BUF_LEVEL ≠ fldAt f) :
    getR (ledgerPurge d) pgPkg f = getR d pgPkg f := getR_setR_fld _ _ _ hf

theorem ledgerPurge_places (d : Dev) : (ledgerPurge d).ledger.places = d.ledger.places.filter (fun p => !placeFree d p) := rfl

/-- The places and the device after each place has been tried for a number. -/
def numberPlaces (d : Dev) : List LedgerPlace × Dev :=
  d.ledger.places.foldl (fun a p => (a.1 ++ [(tryNumber a.2 p).1], (tryNumber a.2 p).2)) ([], d)

/-- Where numbers are held back, or the open run of lost entries waits for none, only the places are numbered. -/
theorem numberAll_eq (h : numberHeld (numberPlaces d).2 = true ∨ (numberPlaces d).2.ledger.lostPend = 0) :
    numberAll d = { (numberPlaces d).2 with ledger := { (numberPlaces d).2.ledger with places := (numberPlaces d).1 } } := by
  unfold numberAll
  refine if_pos ?_
  change (if (numberHeld (numberPlaces d).2 || _) = true then 0 else min (numberPlaces d).2.ledger.lostPend _) = 0
  rcases h with h | h
  · simp [h]
  · simp [h]

/-- With no place taken and no number awaited, numbering does nothing. -/
theorem numberAll_empty (hp : d.ledger.places = []) (hl : d.ledger.lostPend = 0) : numberAll d = d := by
  have hnone : numberPlaces d = ([], d) := by rw [numberPlaces, hp]; rfl
  rw [numberAll_eq (.inr (by rw [hnone, hl])), hnone, ← hp]

/-- With one place, numbering tries that one. -/
theorem numberAll_single {p q : LedgerPlace} {e : Dev} (hp : d.ledger.places = [p]) (hq : tryNumber d p = (q, e))
    (hl : numberHeld e = true ∨ e.ledger.lostPend = 0) :
    numberAll d = { e with ledger := { e.ledger with places := [q] } } := by
  have hone : numberPlaces d = ([q], e) := by
    rw [numberPlaces, hp, List.foldl_cons, List.foldl_nil, hq]; rfl
  rw [numberAll_eq (by rw [hone]; exact hl), hone]

/-- While numbers are held back an entry waits in its place (R250). -/
theorem tryNumber_held {p : LedgerPlace} (h : numberHeld d = true) : tryNumber d p = (p, d) :=
  if_pos (by simp [h])

/-- No number passed over. -/
theorem nextAcc_passNumbers_zero (hn : nextAcc d < 2 ^ 63) : nextAcc (passNumbers d 0) = nextAcc d :=
  (getR_setR_self ..).trans (Nat.mod_eq_of_lt (show nextAcc d + 0 < 2 ^ 64 by omega))

theorem numberHeld_passNumbers_zero (hn : nextAcc d < 2 ^ 63) : numberHeld (passNumbers d 0) = numberHeld d := by
  have hend : rsvEnd (passNumbers d 0) = rsvEnd d := getR_setR_fld _ _ _ (by decide)
  rw [numberHeld, numberHeld, nextAcc_passNumbers_zero hn, hend]
  rfl

/-- While numbers are reserved an entry takes the next one. -/
theorem tryNumber_plain {e : LedgerEntry} (h : numberHeld d = false) (hn : nextAcc d < 2 ^ 63) :
    tryNumber d (plainPlace e) = numberPlace (passNumbers d 0) (plainPlace e) := by
  simp [tryNumber, plainPlace, h, noteLost, numberHeld_passNumbers_zero hn]

/-- An entry other than EVENT_OPEN, and not of a self-test, is numbered and goes to ring 24. -/
theorem numberPlace_plain {e : LedgerEntry} (hk : e.kind ≠ 0x0160) (ht : e.test = false) : numberPlace d (plainPlace e) =
    ({ plainPlace e with num := some (nextAcc d) },
     offerBytes (bump (passNumbers d 1) pgPkg F.PKG_ENTRIES) 24
       (entryBytes (bump (passNumbers d 1) pgPkg F.PKG_ENTRIES) e (nextAcc d))) := by
  simp [numberPlace, plainPlace, noteOpen, hk, ht, onlyIf]

/-- The first entry takes a place. -/
theorem ledgerArrive_first {e : LedgerEntry} (hp : d.ledger.places = []) (hl : d.ledger.lostCount = 0) : ledgerArrive d e =
    ledgerPurge (numberAll { ledgerPurge d with ledger := { (ledgerPurge d).ledger with places := [plainPlace e] } }) := by
  have hp' : (ledgerPurge d).ledger.places = [] := by rw [ledgerPurge_places, hp]; rfl
  have hl' : (ledgerPurge d).ledger.lostCount = 0 := hl
  unfold ledgerArrive
  simp [hp', hl', onlyIf]

/-- While numbers are reserved the first entry to arrive takes the next one (R252). -/
theorem ledgerArrive_numbers {e : LedgerEntry} (hp : d.ledger.places = []) (hl : d.ledger.lostCount = 0)
    (hpend : d.ledger.lostPend = 0) (hw : d.ledger.reseedWait = false) (hlt : nextAcc d < rsvEnd d) (hn : nextAcc d < 2 ^ 63)
    (hk : e.kind ≠ 0x0160) (ht : e.test = false) :
    (ledgerArrive d e).ledgerOut = d.ledgerOut ∧ getR (ledgerArrive d e) pgPkg F.PKG_NEXT_ACC = nextAcc d + 1 ∧
    getR (ledgerArrive d e) pgPkg F.PKG_ENTRIES = min (getR d pgPkg F.PKG_ENTRIES + 1) (2 ^ 32 - 1) ∧
    ∀ q ∈ (ledgerArrive d e).ledger.places, q.entry = e ∧ q.num = some (nextAcc d) := by
  rw [ledgerArrive_first hp hl]
  generalize hc : { ledgerPurge d with ledger := { (ledgerPurge d).ledger with places := [plainPlace e] } } = c
  have hreg {f : Fld} (hf : fldAt F.PKG_BUF_LEVEL ≠ fldAt f) : getR c pgPkg f = getR d pgPkg f := by
    rw [← hc]; exact getR_ledgerPurge d hf
  have hnext : nextAcc c = nextAcc d := hreg (by decide)
  have hheld : numberHeld c = false := by
    have hend : rsvEnd c = rsvEnd d := hreg (by decide)
    have hwait : c.ledger.reseedWait = false := by rw [← hc]; exact hw
    simpa [numberHeld, hend, hwait, hnext] using hlt
  have hnum : nextAcc (passNumbers c 0) = nextAcc d := (nextAcc_passNumbers_zero (hnext ▸ hn)).trans hnext
  have hq := (tryNumber_plain (e := e) hheld (hnext ▸ hn)).trans (numberPlace_plain hk ht)
  have hmoves := offerBytes_ringMoves (bump (passNumbers (passNumbers c 0) 1) pgPkg F.PKG_ENTRIES) 24
    (entryBytes (bump (passNumbers (passNumbers c 0) 1) pgPkg F.PKG_ENTRIES) e (nextAcc (passNumbers c 0)))
  generalize offerBytes _ 24 _ = g at hq hmoves
  have hplaces : c.ledger.places = [plainPlace e] := by rw [← hc]
  have hother : g.ledger = c.ledger ∧ g.ledgerOut = c.ledgerOut := by
    obtain ⟨⟨_, _, _, _, _, rfl⟩, -⟩ := hmoves
    simp [passNumbers, addC_eq, bump]
  have hlost : g.ledger.lostPend = 0 := by rw [hother.1, ← hc]; exact hpend
  rw [numberAll_single hplaces hq (.inr hlost)]
  refine ⟨hother.2.trans (by rw [← hc]; rfl), ?_, ?_, ?_⟩
  · rw [getR_ledgerPurge _ (by decide)]
    refine (hmoves.keeps _ (by decide)).trans ((getR_addC_fld _ _ _ (by decide)).trans ((getR_setR_self ..).trans ?_))
    rw [hnum]
    exact Nat.mod_eq_of_lt (show nextAcc d + 1 < 2 ^ 64 by omega)
  · rw [getR_ledgerPurge _ (by decide)]
    refine (hmoves.keeps _ (by decide)).trans ((getR_addC_narrow _ _ (f := F.PKG_ENTRIES) _ (by decide)).trans ?_)
    rw [passNumbers, passNumbers, getR_setR_fld _ _ _ (by decide), getR_setR_fld _ _ _ (by decide), hreg (by decide)]
    rfl
  · intro q hmem
    rw [ledgerPurge_places] at hmem
    obtain rfl := List.mem_singleton.1 (List.mem_of_mem_filter hmem)
    exact ⟨rfl, congrArg some hnum⟩

/-- While numbers are held back the first entry to arrive waits in its place (R250, R251). -/
theorem ledgerArrive_waits {e : LedgerEntry} (hp : d.ledger.places = []) (hl : d.ledger.lostCount = 0)
    (hw : d.ledger.reseedWait = true) :
    (ledgerArrive d e).ledgerOut = d.ledgerOut ∧ getR (ledgerArrive d e) pgPkg F.PKG_NEXT_ACC = nextAcc d ∧
    (ledgerArrive d e).ledger.places = [plainPlace e] ∧ getR (ledgerArrive d e) pgPkg F.PKG_BUF_LEVEL = 1 ∧
    (ledgerArrive d e).evt = d.evt := by
  rw [ledgerArrive_first hp hl]
  generalize hc : { ledgerPurge d with ledger := { (ledgerPurge d).ledger with places := [plainPlace e] } } = c
  have hwait : c.ledger.reseedWait = true := by rw [← hc]; exact hw
  have hheld : numberHeld c = true := by simp [numberHeld, hwait]
  have hplaces : c.ledger.places = [plainPlace e] := by rw [← hc]
  have hsame : { c with ledger := { c.ledger with places := [plainPlace e] } } = c := by rw [← hplaces]
  rw [numberAll_single hplaces (tryNumber_held hheld) (.inl hheld), hsame]
  have hpurge : (ledgerPurge c).ledger.places = [plainPlace e] := by rw [ledgerPurge_places, hplaces]; rfl
  refine ⟨by rw [← hc]; rfl, ?_, hpurge, ?_, by rw [← hc]; rfl⟩
  · rw [getR_ledgerPurge _ (by decide), ← hc]; exact getR_ledgerPurge d (by decide)
  · refine (getR_setR_self ..).trans ?_
    rw [hplaces]; rfl

/-- The block up to `end_` is reserved and verified. -/
def blockReserved (d : Dev) (end_ : Nat) : Dev :=
  { setR { d with almH := end_, almHOk := true } pgPkg F.PKG_RSV_END end_ with ledger := { d.ledger with rsvFailed := false } }

theorem reserveBlock_true : reserveBlock d true = ledgerPurge (numberAll (blockReserved d (rsvEnd d + 4096))) := if_pos rfl

/-- The next block is reserved and verified (R250). -/
theorem reserveBlock_verified (hp : d.ledger.places = []) (hl : d.ledger.lostPend = 0) (hn : rsvEnd d < 2 ^ 63) :
    getR (reserveBlock d true) pgPkg F.PKG_RSV_END = rsvEnd d + 4096 ∧ (reserveBlock d true).almH = rsvEnd d + 4096 ∧
    (reserveBlock d true).almHOk = true ∧ getR (reserveBlock d true) pgPkg F.PKG_NEXT_ACC = nextAcc d ∧
    (reserveBlock d true).ledger.rsvFailed = false ∧ (reserveBlock d true).evt = d.evt := by
  have hend : rsvEnd d + 4096 < 2 ^ 64 := by omega
  rw [reserveBlock_true]
  generalize rsvEnd d + 4096 = end_ at hend
  rw [numberAll_empty (d := blockReserved d end_) hp hl, getR_ledgerPurge _ (by decide), getR_ledgerPurge _ (by decide)]
  exact ⟨(getR_setR_self ..).trans (Nat.mod_eq_of_lt hend), rfl, rfl, getR_setR_fld _ _ _ (by decide), rfl, rfl⟩

theorem doLedgerEntry_none {t : Nat} (h : d.ledgerOut = []) : doLedgerEntry t d = advance d t := by
  simp only [doLedgerEntry, advance_ledgerOut, h]

theorem doLedgerEntry_first {t : Nat} {e : LedgerEntry} {r : List LedgerEntry} (h : d.ledgerOut = e :: r) :
    doLedgerEntry t d = ledgerArrive { advance d t with ledgerOut := r } e := by
  simp only [doLedgerEntry, advance_ledgerOut, h]

theorem fldAt_detail_ne_payload {w : Nat} (hw : w < 7) : fldAt F.PKG_USER_DETAIL ≠ fldAt (F.PKG_USER_P w) := by
  simp only [fldAt, F.PKG_USER_DETAIL, F.PKG_USER_P]; omega

/-- USER_GO makes a USER entry with the detail and the payload written (R253). -/
theorem doUserGo_go {t v : Nat} (h : v.testBit 31 = true) : doUserGo t v d =
    ledgerNow (setR (advance d t) pgPkg F.PKG_USER_DETAIL (v % 65536)) 0xF000 0xF (v % 65536)
      ((List.range 7).flatMap (fun w => leBytes 4 (getR d pgPkg (F.PKG_USER_P w)))) := by
  have hv : bits v 0 16 = v % 65536 := by simp [bits]
  have hpay : (List.range 7).flatMap (fun w => leBytes 4 (getR (setR (advance d t) pgPkg F.PKG_USER_DETAIL (v % 65536)) pgPkg
      (F.PKG_USER_P w))) = (List.range 7).flatMap (fun w => leBytes 4 (getR d pgPkg (F.PKG_USER_P w))) := by
    refine List.flatMap_congr fun w hw => ?_
    rw [getR_setR_fld _ _ _ (fldAt_detail_ne_payload (List.mem_range.1 hw)), getR_advance]
  unfold doUserGo
  rw [hv]
  exact (if_pos (by rw [bit_eq_testBit, h])).trans (congrArg _ hpay)

theorem doUserGo_detail {t v : Nat} (h : v.testBit 31 = false) :
    doUserGo t v d = setR (advance d t) pgPkg F.PKG_USER_DETAIL (v % 65536) := by
  have hv : bits v 0 16 = v % 65536 := by simp [bits]
  unfold doUserGo
  rw [hv]
  exact if_neg (by rw [bit_eq_testBit, h]; decide)

/-- A reservation is made where the next number has reached the end of the block, and not before (R250). -/
theorem doReserve_block {t : Nat} {ok : Bool} (hle : rsvEnd d ≤ nextAcc d) (hon : reserveOn d = true)
    (hw : d.ledger.reseedWait = false) : doReserve t ok d = reserveBlock (advance d t) ok := by
  have hon' : reserveOn (advance d t) = true := hon
  have hle' : rsvEnd (advance d t) ≤ nextAcc (advance d t) := hle
  exact if_pos (by simp [hon', hle', hw])

theorem doReserve_not {t : Nat} {ok : Bool} (h : nextAcc d < rsvEnd d ∨ reserveOn d = false) :
    doReserve t ok d = advance d t := by
  refine if_neg ?_
  rcases h with h | h
  · have hlt : nextAcc (advance d t) < rsvEnd (advance d t) := h
    simp [hlt]
  · have hoff : reserveOn (advance d t) = false := h
    simp [hoff]

/-! ### The Archive's share (R252, R368) -/

theorem ledgerToArchive_unmounted (h : getR d pgArc cSTATE ≠ 2) : ledgerToArchive d = d := if_neg h

/-- A mounted Archive takes each numbered entry that it was not sent before, once. -/
theorem ledgerToArchive_mounted (h : getR d pgArc cSTATE = 2) :
    (∀ q ∈ (ledgerToArchive d).ledger.places, q.num ≠ none → q.arcSent = true) ∧
    (ledgerToArchive d).arc.inQ.length =
      d.arc.inQ.length + (d.ledger.places.filter (fun q => !q.arcSent && q.num.isSome)).length ∧
    (ledgerToArchive d).evt = d.evt := by
  unfold ledgerToArchive
  rw [if_pos h]
  refine ⟨?_, ?_, rfl⟩
  · intro q hq hnum
    obtain ⟨p, -, rfl⟩ := List.mem_map.1 hq
    by_cases hp : p.num.isSome
    · rw [if_pos hp]
    · rw [if_neg hp] at hnum
      exact absurd (Option.isNone_iff_eq_none.1 (by simpa using hp)) hnum
  · simp only [List.length_append, List.length_filterMap_eq_countP, Option.isSome_map, List.countP_eq_length_filter,
      List.filter_filter, Bool.and_comm]

end

end Sys2Proof.Machine

open Sys2Proof Sys2Proof.Machine

/-- Settles O37: an entry that arrives is numbered or waits (`ledgerArrive_numbers`, `ledgerArrive_waits`), a verified
reservation moves the end of the block (`reserveBlock_verified`), and a mounted Archive takes what is numbered
(`ledgerToArchive_mounted`). -/
theorem ledgerNumbersInOrder : Obligations.LedgerNumbersInOrder := by
  unfold Obligations.LedgerNumbersInOrder
  intro s t hs next end_
  have hentry := gives_ledgerEntry t hs
  have hreserve (ok : Bool) := gives_ledgerReserve t ok hs
  have hretry (ok : Bool) := gives_ledgerReserveRetry t ok hs
  refine ⟨?_, ?_, ?_, ?_, ?_, ?_, ?_, ?_, ?_, ?_, ?_⟩
  · intro v hv
    refine does_of_gives ((gives_userGo t v hs).of_eq (doUserGo_go hv)) ?_
    have hbut := regsBut_setR (advance s.dev t) pgPkg F.PKG_USER_DETAIL (v % 65536)
    simp only [settle_ledgerOut, getR_settle, settle_evt]
    refine ⟨_, rfl, rfl, rfl, rfl, ?_, rfl, fun p f h => ?_, rfl⟩
    · exact (getR_setR_self ..).trans (Nat.mod_mod _ _)
    · rw [getR_settle]; exact hbut p f h
  · exact fun v hv => (gives_userGo t v hs).of_eq (doUserGo_detail hv)
  · exact fun ho => hentry.of_eq (doLedgerEntry_none ho)
  · intro e r ho hp hl hpend hw hlt hn hk ht
    refine does_of_gives (hentry.of_eq (doLedgerEntry_first ho)) ?_
    simp only [settle_ledgerOut, getR_settle, settle_ledger]
    exact ledgerArrive_numbers (d := { advance s.dev t with ledgerOut := r }) hp hl hpend hw hlt hn hk ht
  · intro e r ho hp hl hw
    obtain ⟨hout, hnext, hplaces, hlevel, hevt⟩ :=
      ledgerArrive_waits (d := { advance s.dev t with ledgerOut := r }) (e := e) hp hl hw
    refine does_of_gives (hentry.of_eq (doLedgerEntry_first ho)) ?_
    simp only [settle_ledgerOut, getR_settle, settle_ledger, settle_evt]
    exact ⟨hout, hnext, ⟨_, hplaces, rfl, rfl⟩, hlevel, hevt⟩
  · exact fun ok h => (hreserve ok).of_eq (doReserve_not h)
  · intro hle hon hw hp hl hn
    refine ⟨does_of_gives ((hreserve true).of_eq (doReserve_block hle hon hw)) ?_,
      does_of_gives ((hreserve false).of_eq (doReserve_block hle hon hw)) ?_⟩
    · simp only [getR_settle, settle_almH, settle_almHOk, settle_ledger, settle_evt]
      exact reserveBlock_verified (d := advance s.dev t) hp hl hn
    · simp only [settle_almH, settle_ledger, settle_regs]
      exact ⟨rfl, rfl, rfl⟩
  · exact fun ok hf => (hretry ok).of_eq (if_neg (by simp [hf]))
  · intro hf hon hp hl hn
    obtain ⟨hend, halm, -, -, hfailed, -⟩ := reserveBlock_verified (d := advance s.dev t) hp hl hn
    refine does_of_gives ((hretry true).of_eq (if_pos ?_)) ?_
    · rw [Bool.and_eq_true]; exact ⟨hon, hf⟩
    · simp only [getR_settle, settle_almH, settle_ledger]
      exact ⟨hfailed, hend, halm⟩
  · exact fun h => (gives_ledgerArchiveWrite t hs).of_eq (ledgerToArchive_unmounted h)
  · intro h
    refine does_of_gives (gives_ledgerArchiveWrite t hs) ?_
    simpa using ledgerToArchive_mounted (d := advance s.dev t) h

end

section
/-! PROOFS. The control loops (R294): why a tick that holds can show an output. -/

namespace Sys2Proof.Machine

open Sys2Proof

/-- Loop 0 is on and has no result to compute from, and an enabled event of page PKG is mapped to vector 0, which is not masked
and which no settling of the tree has recorded as active yet. -/
def unsettledHold : Dev :=
  let d := raise (setR (setR State.reset.dev pgPkg cEVT_EN 1) pgPkg (F.PKG_VMAP_EN 0) 1) pgPkg 0
  setLoop { d with irq := ⟨[], false, [], []⟩ } 0 { LoopSt.reset with on := true }

theorem gives_loopTick {s : State} {k : Nat} (t : Nat) (hk : k < 8) (hs : Awake s) :
    Gives (.loopTick t k) s (doLoopTick t k s.dev) := gives_of_act rfl (decide_eq_true hk) hs

end Sys2Proof.Machine

open Sys2Proof Sys2Proof.Machine

/-- Refutes O41: its clause on a tick that holds wants the outputs unchanged, and has no premise that the interrupt tree is
settled (R57). Where it is not, as in `unsettledHold`, the tick itself drives nothing, but the command still ends with the tree
being settled, which sends the message of a vector newly active. (O6 keeps such a state from being reached from reset.) -/
theorem not_loopsComputeHoldAndFail : ¬ Obligations.LoopsComputeHoldAndFail := by
  unfold Obligations.LoopsComputeHoldAndFail
  intro h
  obtain ⟨-, -, -, hhold, -⟩ := h { State.reset with dev := unsettledHold } 0 0 (by decide) (by decide)
  obtain ⟨hgoes, -⟩ := hhold (by decide) (by decide) (by decide) (by decide) (by decide)
  have hgives := gives_loopTick (s := { State.reset with dev := unsettledHold }) (k := 0) 0 (by decide) (by decide)
  obtain ⟨-, -, -, -, -, hout, -⟩ := hgives.of_does (hgoes (.inr (by decide)))
  have hfresh : freshVecs (doLoopTick 0 0 unsettledHold) = [0] := by decide +kernel
  have hkeep : (doLoopTick 0 0 unsettledHold).out = unsettledHold.out := by decide +kernel
  rw [settle_out, hfresh, hkeep] at hout
  exact absurd hout (by simp)

end

section
/-! PROOFS. Service converter cores, sensor front end channels and entry records: the elementary updates, and what starting
the next entry, a result on its way to its users and the shown states leave alone (R275–R291). -/

namespace Sys2Proof.Machine

open Sys2Proof

/-! ### Cores, channels and records under the elementary updates -/

@[simp] theorem svcCore_setSvcCore (d : Dev) (c : Nat) (x : SvcCore) : svcCore (setSvcCore d c x) c = x := by
  simp [svcCore, setSvcCore]
@[simp] theorem svcCore_settle (d : Dev) (c : Nat) : svcCore (settle d) c = svcCore d c := by simp [svcCore]
@[simp] theorem svcCore_addC (d : Dev) (p : Nat) (f : Fld) (n c : Nat) : svcCore (addC d p f n) c = svcCore d c := by
  rw [addC_eq]; rfl
@[simp] theorem addC_svcRec (d : Dev) (p : Nat) (f : Fld) (n : Nat) : (addC d p f n).svcRec = d.svcRec := by rw [addC_eq]; rfl
@[simp] theorem addC_ticks (d : Dev) (p : Nat) (f : Fld) (n : Nat) : (addC d p f n).ticks = d.ticks := by rw [addC_eq]; rfl
@[simp] theorem svcCore_svcShow (d : Dev) (c : Nat) : svcCore (svcShow d) c = svcCore d c := rfl
@[simp] theorem setSvcCore_setSvcCore (d : Dev) (c : Nat) (x y : SvcCore) :
    setSvcCore (setSvcCore d c x) c y = setSvcCore d c y := by simp [setSvcCore]
@[simp] theorem getR_setSvcCore (d : Dev) (c : Nat) (x : SvcCore) (p : Nat) (f : Fld) :
    getR (setSvcCore d c x) p f = getR d p f := rfl

@[simp] theorem sfeSt_setSfe (d : Dev) (n : Nat) (x : SfeSt) : sfeSt (setSfe d n x) n = x := by simp [sfeSt, setSfe]
@[simp] theorem sfeSt_settle (d : Dev) (n : Nat) : sfeSt (settle d) n = sfeSt d n := by simp [sfeSt]
@[simp] theorem sfeSt_svcShow (d : Dev) (n : Nat) : sfeSt (svcShow d) n = sfeSt d n := rfl
@[simp] theorem svcRecOf_settle (d : Dev) (x : Nat) : svcRecOf (settle d) x = svcRecOf d x := by simp [svcRecOf]

theorem svcCore_setSvcCore_ne (d : Dev) {c e : Nat} (x : SvcCore) (h : c ≠ e) : svcCore (setSvcCore d c x) e = svcCore d e :=
  Store.get_set_ne _ _ _ _ h

/-- A core that keeps what it runs and what it has paused measures the same channels. -/
theorem skipCause_setSvcCore {d : Dev} {c : Nat} {x : SvcCore} (w : Nat) (hrun : x.run = (svcCore d c).run)
    (hpaused : x.paused = (svcCore d c).paused) : skipCause (setSvcCore d c x) w = skipCause d w := by
  have hbusy (n : Nat) : sfeBusy (setSvcCore d c x) n = sfeBusy d n := by
    unfold sfeBusy
    congr 1
    funext e
    by_cases h : c = e
    · subst h; rw [svcCore_setSvcCore, hrun, hpaused]
    · rw [svcCore_setSvcCore_ne d x h]
  have hst (n : Nat) : sfeSt (setSvcCore d c x) n = sfeSt d n := rfl
  simp only [skipCause, hbusy, hst, getR_setSvcCore]

/-! ### Starting what comes next -/

/-- The registers that change where a core starts what comes next. -/
def nextFields : List (Nat × Fld) :=
  [(pgSvc, cSTATE), (pgSfe, cSTATE), (pgSvc, F.SVC_SCANS0), (pgSvc, F.SVC_SCANS1), (pgSvc, F.SVC_CONTROL_RUNS),
   (pgSvc, F.SVC_ENTRY_SKIPS)] ++ (List.range 8).map (fun n => (pgSfe, F.SFE_SKIPS n))

/-- From `d` to `e` only registers of `nextFields` and the cores change. -/
structure NextMoves (d e : Dev) : Prop where
  frame : ∃ r cs, e = { d with regs := r, svcCores := cs }
  regs : RegsBut nextFields e d

namespace NextMoves

variable {d e : Dev}

theorem refl (d : Dev) : NextMoves d d := ⟨⟨_, _, rfl⟩, fun _ _ _ => rfl⟩

theorem trans {a b c : Dev} (h : NextMoves a b) (g : NextMoves b c) : NextMoves a c where
  frame := by obtain ⟨_, _, rfl⟩ := h.frame; obtain ⟨_, _, rfl⟩ := g.frame; exact ⟨_, _, rfl⟩
  regs p f hf := (g.regs p f hf).trans (h.regs p f hf)

theorem of_setSvcCore (h : NextMoves d e) (c : Nat) (x : SvcCore) : NextMoves d (setSvcCore e c x) :=
  h.trans ⟨⟨_, _, rfl⟩, fun _ _ _ => rfl⟩

theorem of_setR (h : NextMoves d e) {p : Nat} {f : Fld} (v : Nat) (hf : (p, f) ∈ nextFields) : NextMoves d (setR e p f v) :=
  h.trans ⟨⟨_, _, rfl⟩, fun q g hg => regsBut_setR e p f v q g (fun y hy => by
    obtain rfl := List.mem_singleton.1 hy; exact hg _ hf)⟩

theorem of_bump (h : NextMoves d e) {p : Nat} {f : Fld} (hf : (p, f) ∈ nextFields) : NextMoves d (bump e p f) := by
  rw [bump, addC_eq]; exact h.of_setR _ hf

theorem ite {a b : Dev} {c : Prop} [Decidable c] (ha : NextMoves d a) (hb : NextMoves d b) :
    NextMoves d (if c then a else b) := by
  split <;> assumption

theorem of_svcShow (h : NextMoves d e) : NextMoves d (svcShow e) :=
  (h.of_setR _ (by simp [nextFields])).of_setR _ (by simp [nextFields])

theorem of_startScan (h : NextMoves d e) (c : Nat) : NextMoves d (startScan e c) := h.of_setSvcCore ..

theorem of_startRun (h : NextMoves d e) (c x kind w : Nat) (prot : Bool) : NextMoves d (startRun e c x kind w prot) :=
  h.of_setSvcCore ..

theorem of_countSkip (h : NextMoves d e) (w cause : Nat) : NextMoves d (countSkip e w cause) := by
  refine .ite (h.of_bump (by simp [nextFields])) (h.of_bump ?_)
  have hw : (wSfe w).getD 0 < 8 := by
    unfold wSfe
    split
    · simp only [Option.getD_some]; omega
    · simp
  exact List.mem_append_right _ (List.mem_map.2 ⟨_, List.mem_range.2 hw, rfl⟩)

theorem of_nextRegular (fuel : Nat) (h : NextMoves d e) (c : Nat) : NextMoves d (nextRegular fuel e c) := by
  induction fuel generalizing e with
  | zero => exact h
  | succ fuel ih =>
    have hscans : (pgSvc, scansF c) ∈ nextFields := by unfold scansF; split <;> simp [nextFields]
    unfold nextRegular
    extract_lets x
    split
    · exact .ite h (.ite (ih (h.of_startScan c)) (h.of_setSvcCore ..))
    · split
      · exact ih ((h.of_setSvcCore ..).of_bump hscans)
      · extract_lets k
        exact .ite (h.of_startRun ..) (ih ((h.of_setSvcCore ..).of_countSkip ..))

theorem of_svcNext (h : NextMoves d e) (c : Nat) : NextMoves d (svcNext e c) := by
  unfold svcNext
  extract_lets x low resume guarded e1 w k e2
  refine of_svcShow (.ite h (.ite ?_ (.ite (of_bump (of_startRun (h.of_setSvcCore ..) ..) (by simp [nextFields]))
    ((h.of_setSvcCore ..).of_countSkip ..))))
  split
  · exact h.of_setSvcCore ..
  · exact h.of_nextRegular ..

theorem of_endRun (h : NextMoves d e) (c : Nat) (r : SvcRun) : NextMoves d (endRun e c r) :=
  .ite ((h.of_setSvcCore ..).of_setSvcCore ..) (h.of_setSvcCore ..)

theorem svcRec (h : NextMoves d e) : e.svcRec = d.svcRec := by obtain ⟨_, _, rfl⟩ := h.frame; rfl
theorem evt (h : NextMoves d e) : e.evt = d.evt := by obtain ⟨_, _, rfl⟩ := h.frame; rfl
theorem mem (h : NextMoves d e) : e.mem = d.mem := by obtain ⟨_, _, rfl⟩ := h.frame; rfl
theorem ticks (h : NextMoves d e) : e.ticks = d.ticks := by obtain ⟨_, _, rfl⟩ := h.frame; rfl
theorem svcCal (h : NextMoves d e) : e.svcCal = d.svcCal := by obtain ⟨_, _, rfl⟩ := h.frame; rfl
theorem unitCal (h : NextMoves d e) : e.unitCal = d.unitCal := by obtain ⟨_, _, rfl⟩ := h.frame; rfl
theorem ledgerOut (h : NextMoves d e) : e.ledgerOut = d.ledgerOut := by obtain ⟨_, _, rfl⟩ := h.frame; rfl
theorem sfeSt_eq (h : NextMoves d e) (n : Nat) : sfeSt e n = sfeSt d n := by obtain ⟨_, _, rfl⟩ := h.frame; rfl

end NextMoves

/-- A core that runs an entry starts nothing. -/
theorem svcNext_running {d : Dev} {c : Nat} {r : SvcRun} (h : (svcCore d c).run = some r) : svcNext d c = svcShow d := by
  simp [svcNext, h]

/-! ### Where a result goes: the oven check and the loops (R292, R300) -/

/-- From `d` to `e` memory, time in ticks, the records of the entries and page SFE are as they were. -/
def Beside (d e : Dev) : Prop :=
  e.mem = d.mem ∧ e.ticks = d.ticks ∧ e.svcRec = d.svcRec ∧ ∀ f, fldAt f < 131072 → getR e pgSfe f = getR d pgSfe f

namespace Beside

variable {d e : Dev}

theorem refl (d : Dev) : Beside d d := ⟨rfl, rfl, rfl, fun _ _ => rfl⟩

theorem trans (a b c : Dev) (h : Beside a b) (g : Beside b c) : Beside a c := by
  obtain ⟨hm, ht, hr, hf⟩ := h
  obtain ⟨gm, gt, gr, gf⟩ := g
  exact ⟨gm.trans hm, gt.trans ht, gr.trans hr, fun f h => (gf f h).trans (hf f h)⟩

/-- A write on a page above SFE, or a field within a page below it. -/
theorem setR (h : Beside d e) {p : Nat} {f : Fld} (v : Nat) (hp : pgSfe < p ∨ p < pgSfe ∧ fldAt f < 131072) :
    Beside d (setR e p f v) := by
  obtain ⟨hm, ht, hr, hf⟩ := h
  refine ⟨hm, ht, hr, fun g hg => (getR_setR_ne e v ?_).trans (hf g hg)⟩
  rw [key_eq, key_eq]
  rw [pgSfe] at hp ⊢
  omega

theorem addC (h : Beside d e) {p : Nat} {f : Fld} (n : Nat) (hp : pgSfe < p ∨ p < pgSfe ∧ fldAt f < 131072) :
    Beside d (addC e p f n) := by rw [addC_eq]; exact h.setR _ hp

theorem ite {a b : Dev} {c : Prop} [Decidable c] (ha : Beside d a) (hb : Beside d b) : Beside d (if c then a else b) := by
  split <;> assumption

theorem raiseOn (h : Beside d e) (p b : Nat) (was now : Bool) : Beside d (raiseOn e p b was now) :=
  .ite (show Beside d (raise e p b) from h) h

/-! The pages of lines. -/

theorem bankUp (h : Beside d e) (n s b : Nat) : Beside d (bankUp n s b e) := by
  unfold Machine.bankUp
  extract_lets f run load
  have hl : Beside d (onlyIf load (fun d => coefLoad d n s b) e) := .ite (a := coefLoad e n s b) h h
  exact hl.setR _ (.inl (by unfold pgSfe pgSlot lineBase; omega))

theorem pipeShow (h : Beside d e) (n s : Nat) : Beside d (pipeShow e n s) := by
  have hp : pgSfe < pgSlot n s := by unfold pgSfe pgSlot lineBase; omega
  unfold Machine.pipeShow Machine.bankShow
  extract_lets p e1 e2 e3
  have h3 : Beside d e3 :=
    ((((h.setR _ (.inl hp)).setR _ (.inl hp)).setR _ (.inl hp)).bankUp n s 0).bankUp n s 1
  exact .ite (h3.setR _ (.inl hp)) (.ite (h3.setR _ (.inl hp)) h3)

theorem eligShow (h : Beside d e) (n : Nat) : Beside d (eligShow e n) := by
  unfold Machine.eligShow
  extract_lets was
  exact .ite (.ite h h) h

theorem lineShow (h : Beside d e) (n cause : Nat) : Beside d (lineShow e n cause) := by
  have hl : pgSfe < pgLine n := by unfold pgSfe pgLine lineBase; omega
  have hs : pgSfe < pgStarter n := by unfold pgSfe pgStarter lineBase; omega
  unfold Machine.lineShow
  extract_lets p was now e1 e2 e3
  have h1 : Beside d e1 := h.setR _ (.inl hl)
  have h2 : Beside d e2 := ((show Beside d (safeSpan e1 n was now) from h1).setR _ (.inl hl)).setR _ (.inl hs)
  have h3 : Beside d e3 := h2
  exact .ite h1 ((h3.eligShow n).trans _ _ _ (foldl_rel refl trans (fun a s _ => (refl a).pipeShow n s) _))

theorem lineUnsync (d : Dev) (n : Nat) : Beside d (lineUnsync d n) := by
  have hl : pgSfe < pgLine n := by unfold pgSfe pgLine lineBase; omega
  unfold Machine.lineUnsync
  extract_lets x e1 p e2
  have h2 : Beside d e2 := refl d
  have h3 : Beside d (Machine.setR e2 p F.LINE_SYNC_LOST 1) := h2.setR 1 (.inl hl)
  have h4 : Beside d (raise (Machine.setR e2 p F.LINE_SYNC_LOST 1) p 10) := h3
  exact .ite (refl d) ((h4.addC 1 (.inl hl)).lineShow n 1)

/-! What follows the time. -/

theorem gridInvalid (h : Beside d e) : Beside d (gridInvalid e) :=
  h.trans _ _ _ (foldl_rel refl trans (fun a n _ => lineUnsync a n) e)

theorem gridValid (h : Beside d e) : Beside d (gridValid e) := by
  refine h.trans _ _ _ (foldl_rel refl trans (fun a n _ => ?_) e)
  extract_lets x
  exact .ite (show Beside a (setLine a n _) from refl a) (refl a)

theorem squelchNow (h : Beside d e) : Beside d (squelchNow e) := by
  unfold Machine.squelchNow
  extract_lets
  exact .ite h (.ite h h)

theorem freqShow (h : Beside d e) : Beside d (freqShow e) := by
  unfold Machine.freqShow freqTo
  extract_lets
  exact .ite (.ite h h) h

theorem qualShow (h : Beside d e) : Beside d (qualShow e) := by
  unfold Machine.qualShow
  extract_lets was now e1 t1 e2 t2 e3 e4
  have h1 : Beside d e1 := (h.setR _ (.inr (by decide))).setR _ (.inr (by decide))
  have h2 : Beside d e2 := .ite h1 h1
  clear_value e2
  have h4 : Beside d e4 := squelchNow (.ite h2 h2)
  clear_value e4
  have h5 : Beside d (raise e4 pgTime 14) := h4
  exact .ite h4 (.ite h5.gridValid h5.gridInvalid)

theorem bkpStep (h : Beside d e) : Beside d (bkpStep e) :=
  .ite ((show Beside d { e with bkpBase := e.time.base } from h).setR _ (.inl (by decide))) h

theorem ptpShow (h : Beside d e) {i : Nat} (hi : i < 2) : Beside d (ptpShow e i) := by
  have hp {f : Fld} (hf : fldAt f < 131072) : pgSfe < pgPtp i ∨ pgPtp i < pgSfe ∧ fldAt f < 131072 :=
    .inr ⟨by unfold pgSfe pgPtp; omega, hf⟩
  unfold Machine.ptpShow
  extract_lets p bad was e1 a e2
  have h1 : Beside d e1 := (h.setR (b2n bad) (hp (by decide))).raiseOn p 9 was bad
  clear_value e1
  exact ((h1.setR _ (hp (by decide))).setR _ (hp (by decide))).setR _ (hp (by decide))

theorem timeShow (h : Beside d e) : Beside d (timeShow e) := by
  unfold Machine.timeShow
  extract_lets was now e1 t1 e2 e3
  have h2 : Beside d e2 := by
    have h1 : Beside d e1 := h.setR (p := pgTime) (f := cSTATE) now (.inr (by decide))
    clear_value e1
    refine .ite h (.ite ?_ (.ite (h1.setR _ (.inr (by decide))) h1))
    exact (show Beside d { e1 with time := t1 } from h1).setR _ (.inr (by decide))
  clear_value e2
  exact (h2.freqShow.qualShow.bkpStep.ptpShow (by decide)).ptpShow (by decide)

theorem warmShow (h : Beside d e) : Beside d (warmShow e) := by
  unfold Machine.warmShow
  extract_lets cs cause was now t1 e1 e2
  have h1 : Beside d e1 := h
  exact timeShow (.ite h1 (h1.setR (p := pgTime) (f := F.TIME_OCXO_WARM) _ (.inr (by decide))))

theorem ovenResult (h : Beside d e) (v : Int) : Beside d (ovenResult e v) := by
  unfold Machine.ovenResult
  extract_lets x out
  have h1 (z : TimeSt) : Beside d { e with time := z } := h
  exact .ite (warmShow (.ite ((h1 _).addC 1 (.inr (by decide))) (h1 _))) (warmShow h)

/-! The loops. -/

theorem loopOut (h : Beside d e) (k u : Nat) : Beside d (loopOut e k u) := by
  have h1 := h.setR (p := pgLoop) (f := F.LOOP_OUT_NOW k) u (.inl (by decide))
  exact .ite h1 h1

theorem loopCompute (h : Beside d e) (k : Nat) (y : Int) : Beside d (loopCompute e k y) := by
  have hl : pgSfe < pgLoop := by decide
  unfold Machine.loopCompute
  extract_lets x was failed first e0 err lo hi kp der stuck i0 u i atLim wasLim e1 e2 e3 e4
  have h2 : Beside d e2 := (show Beside d e1 from h).setR _ (.inl hl)
  clear_value e2
  have h3 : Beside d e3 := .ite ((h2.addC 1 (.inl hl)).raiseOn pgLoop 8 wasLim true) h2
  clear_value e3
  have h4 : Beside d e4 := .ite h3 h3
  exact (h4.setR _ (.inl hl)).loopOut k u

theorem loopResult (h : Beside d e) (x : Nat) : Beside d (loopResult e x) := by
  refine .ite h (h.trans _ _ _ (foldl_rel refl trans (fun a k _ => ?_) e))
  extract_lets l
  have hl (z : LoopSt) : Beside a (setLoop a k z) := refl a
  exact .ite (refl a) (.ite (.ite ((hl _).loopCompute k _) (refl a)) (hl _))

end Beside

/-! ### A result enters its record (R276, R277) -/

/-- The record `a` with the result `v`, shown as `latest`, of the instant `at_` in it. -/
def recorded (a : AccRec) (v : Int) (latest : Nat) (at_ : Int) : AccRec :=
  { sum := (a.sum + ux 64 v) % 2 ^ 64, count := min (a.count + 1) (2 ^ 32 - 1), mn := min a.mn v, mx := max a.mx v,
    latest := latest, sec := taiSec at_ % 2 ^ 32, ns := taiNs at_, val := v }

/-- A result changes the record of its entry alone, and of memory, time and page SFE nothing. -/
theorem putResult_spec (d : Dev) (x : Nat) (v : Int) (latest : Nat) (at_ : Int) :
    Beside { d with svcRec := Store.set d.svcRec AccRec.reset x (recorded (svcRecOf d x) v latest at_) }
      (putResult d x v latest at_) := by
  unfold putResult
  extract_lets r r' e1 e2
  have h1 : Beside e1 e1 := .refl e1
  have h2 : Beside e1 e2 := .ite (h1.ovenResult v) h1
  exact h2.loopResult x

theorem svcRecOf_putResult (d : Dev) (x : Nat) (v : Int) (latest : Nat) (at_ : Int) :
    svcRecOf (putResult d x v latest at_) x = recorded (svcRecOf d x) v latest at_ := by
  obtain ⟨-, -, hrec, -⟩ := putResult_spec d x v latest at_
  rw [svcRecOf, hrec]
  exact Store.get_set_self ..

theorem svcRecOf_putResult_ne (d : Dev) {x z : Nat} (v : Int) (latest : Nat) (at_ : Int) (h : z ≠ x) :
    svcRecOf (putResult d x v latest at_) z = svcRecOf d z := by
  obtain ⟨-, -, hrec, -⟩ := putResult_spec d x v latest at_
  rw [svcRecOf, hrec]
  exact Store.get_set_ne _ _ _ _ h.symm

end Sys2Proof.Machine

end

section
/-! PROOFS. Sensor channels: measurements, tone checks, clamps and broken wires (R286–R291). -/

namespace Sys2Proof.Machine

open Sys2Proof

section
variable {s : State} {c n : Nat} (t : Nat)

theorem gives_sfeMeasurement (raw : List Int) (hc : c < 2) (hs : Awake s) :
    Gives (.sfeMeasurement t c raw) s (doSfeMeasure t c raw s.dev) := gives_of_act rfl (decide_eq_true hc) hs

theorem gives_sfeCheck (hn : n < 8) (hs : Awake s) : Gives (.sfeCheck t n) s (doSfeCheck t n s.dev) :=
  gives_of_act rfl (decide_eq_true hn) hs

theorem gives_sfeCheckDone (z : Nat) (l : List Nat) (hn : n < 8) (hs : Awake s) :
    Gives (.sfeCheckDone t n z l) s (doSfeCheckDone t n z l s.dev) := gives_of_act rfl (decide_eq_true hn) hs

theorem gives_sfeClamp (hn : n < 8) (hs : Awake s) : Gives (.sfeClamp t n) s (doClamp t n s.dev) :=
  gives_of_act rfl (decide_eq_true hn) hs

theorem gives_sfeClampRelease (hn : n < 8) (hs : Awake s) : Gives (.sfeClampRelease t n) s (doClampRelease t n s.dev) :=
  gives_of_act rfl (decide_eq_true hn) hs

theorem gives_wireBreak (hn : n < 8) (hs : Awake s) : Gives (.wireBreak t n) s (doWireBreak t n s.dev) :=
  gives_of_act rfl (decide_eq_true hn) hs

end

/-! ### Registers of page SFE that starting the next entry leaves alone -/

/-- What page SFE shows of channel `n` but for its skips. -/
def channelFields (n : Nat) : List Fld :=
  [F.SFE_TEMP n, F.SFE_CLASS n, F.SFE_OK n, F.SFE_Z_LAST n, F.SFE_MEASUREMENTS n, F.SFE_BREAKS n, F.SFE_CLAMPS n]

theorem NextMoves.getR_channel {d e : Dev} (h : NextMoves d e) {n : Nat} (hn : n < 8) {f : Fld} (hf : f ∈ channelFields n) :
    getR e pgSfe f = getR d pgSfe f := by
  have hkeys : ∀ n < 8, ∀ f ∈ channelFields n, ∀ x ∈ nextFields, key x.1 x.2 ≠ key pgSfe f := by decide
  exact h.regs _ _ (hkeys n hn f hf)

/-! ### OK and CLASS (R288, R291) -/

/-- Channel `n` is classified OK, is not clamped and has no wire broken. -/
def okNow (d : Dev) (n : Nat) : Bool :=
  getR d pgSfe (F.SFE_CLASS n) == 1 && !flagR d pgSfe (F.SFE_CLAMP n) && !(sfeSt d n).broke

/-- OK is shown; a channel that stops being OK spoils intervals of the Raman channels. -/
theorem sfeOkShow_frame (d : Dev) (n : Nat) :
    ∃ rm, sfeOkShow d n = { setR d pgSfe (F.SFE_OK n) (b2n (okNow d n)) with ramans := rm } := by
  unfold sfeOkShow
  extract_lets was now e1
  change ∃ rm, (if was && now.not then _ else e1) = { e1 with ramans := rm }
  split
  · exact foldl_rel (R := fun a b => ∃ rm, b = { a with ramans := rm }) (fun a => ⟨a.ramans, rfl⟩)
      (by rintro a _ _ ⟨_, rfl⟩ ⟨_, rfl⟩; exact ⟨_, rfl⟩) (fun a m _ => ⟨_, rfl⟩) e1
  · exact ⟨_, rfl⟩

theorem flagR_sfeOkShow_ok (d : Dev) (n : Nat) : flagR (sfeOkShow d n) pgSfe (F.SFE_OK n) = okNow d n := by
  obtain ⟨rm, h⟩ := sfeOkShow_frame d n
  rw [h, flagR]
  change (getR (setR d pgSfe (F.SFE_OK n) (b2n (okNow d n))) pgSfe (F.SFE_OK n) == 1) = _
  rw [getR_setR_self]
  cases okNow d n <;> rfl

theorem getR_sfeOkShow (d : Dev) (n : Nat) {g : Fld} (h : fldAt (F.SFE_OK n) ≠ fldAt g) :
    getR (sfeOkShow d n) pgSfe g = getR d pgSfe g := by
  obtain ⟨rm, he⟩ := sfeOkShow_frame d n
  rw [he]
  exact getR_setR_fld d pgSfe _ h

@[simp] theorem sfeOkShow_evt (d : Dev) (n : Nat) : (sfeOkShow d n).evt = d.evt := by
  obtain ⟨rm, h⟩ := sfeOkShow_frame d n; rw [h]; rfl
@[simp] theorem sfeOkShow_mem (d : Dev) (n : Nat) : (sfeOkShow d n).mem = d.mem := by
  obtain ⟨rm, h⟩ := sfeOkShow_frame d n; rw [h]; rfl
@[simp] theorem sfeOkShow_svcRec (d : Dev) (n : Nat) : (sfeOkShow d n).svcRec = d.svcRec := by
  obtain ⟨rm, h⟩ := sfeOkShow_frame d n; rw [h]; rfl

theorem fldAt_class_ne_ok (n : Nat) : fldAt (F.SFE_CLASS n) ≠ fldAt (F.SFE_OK n) := by
  simp only [fldAt, F.SFE_CLASS, F.SFE_OK]; omega
theorem fldAt_ok_ne_clamp (n : Nat) : fldAt (F.SFE_OK n) ≠ fldAt (F.SFE_CLAMP n) := by
  simp only [fldAt, F.SFE_CLAMP, F.SFE_OK]; omega
theorem fldAt_class_ne_clamp (n : Nat) : fldAt (F.SFE_CLASS n) ≠ fldAt (F.SFE_CLAMP n) := by
  simp only [fldAt, F.SFE_CLAMP, F.SFE_CLASS]; omega

/-- CLASS set to `v`, with CLASS_CHANGE raised where that changes it; OK is not shown yet. -/
def classPut (d : Dev) (n v : Nat) : Dev :=
  onlyIf (getR d pgSfe (F.SFE_CLASS n) != v) (fun d => raise d pgSfe 8) (setR d pgSfe (F.SFE_CLASS n) v)

theorem sfeClass_eq (d : Dev) (n v : Nat) : sfeClass d n v = sfeOkShow (classPut d n v) n := rfl

theorem classPut_frame (d : Dev) (n v : Nat) : ∃ ev, classPut d n v = { setR d pgSfe (F.SFE_CLASS n) v with evt := ev } :=
  onlyIf_rel (R := fun a b => ∃ ev, b = { a with evt := ev }) (fun a => ⟨a.evt, rfl⟩) _ _ ⟨_, rfl⟩

theorem getR_classPut_ne (d : Dev) (n v : Nat) {g : Fld} (h : fldAt (F.SFE_CLASS n) ≠ fldAt g) :
    getR (classPut d n v) pgSfe g = getR d pgSfe g := by
  obtain ⟨ev, he⟩ := classPut_frame d n v
  rw [he]
  exact getR_setR_fld d pgSfe _ h

theorem getR_classPut (d : Dev) (n : Nat) {v : Nat} (hv : v < 8) : getR (classPut d n v) pgSfe (F.SFE_CLASS n) = v := by
  obtain ⟨ev, he⟩ := classPut_frame d n v
  rw [he]
  exact (getR_setR_self d pgSfe (F.SFE_CLASS n) v).trans (Nat.mod_eq_of_lt hv)

/-- A new class: CLASS shows it, and OK whether it is 1 in a channel without a clamp and without a broken wire; memory, time,
records and the channels' own states are as they were. -/
theorem sfeClass_spec (d : Dev) (n : Nat) {v : Nat} (hv : v < 8) :
    getR (sfeClass d n v) pgSfe (F.SFE_CLASS n) = v ∧
    flagR (sfeClass d n v) pgSfe (F.SFE_OK n) = (v == 1 && !flagR d pgSfe (F.SFE_CLAMP n) && !(sfeSt d n).broke) ∧
    (∀ g, fldAt (F.SFE_CLASS n) ≠ fldAt g → fldAt (F.SFE_OK n) ≠ fldAt g → getR (sfeClass d n v) pgSfe g = getR d pgSfe g) ∧
    (∀ i, (evtRaw d pgSfe).testBit i = true → (evtRaw (sfeClass d n v) pgSfe).testBit i = true) ∧
    (∃ r ev rm, sfeClass d n v = { d with regs := r, evt := ev, ramans := rm }) := by
  rw [sfeClass_eq]
  refine ⟨?_, ?_, ?_, ?_, ?_⟩
  · rw [getR_sfeOkShow _ _ (fldAt_class_ne_ok n).symm, getR_classPut d n hv]
  · have hst : sfeSt (classPut d n v) n = sfeSt d n := by obtain ⟨ev, h⟩ := classPut_frame d n v; rw [h]; rfl
    rw [flagR_sfeOkShow_ok, okNow, getR_classPut d n hv, hst, flagR, getR_classPut_ne _ _ _ (fldAt_class_ne_clamp n), ← flagR]
  · intro g hc ho
    rw [getR_sfeOkShow _ _ ho, getR_classPut_ne _ _ _ hc]
  · intro i hi
    rw [evtRaw, sfeOkShow_evt, ← evtRaw]
    unfold classPut onlyIf
    split
    · exact raise_mono _ _ _ _ _ hi
    · exact hi
  · obtain ⟨ev, h⟩ := classPut_frame d n v
    obtain ⟨rm, h'⟩ := sfeOkShow_frame (classPut d n v) n
    rw [h', h]
    exact ⟨_, _, _, rfl⟩

/-! ### Measurements (R286, R287, R289) -/

section
variable {d : Dev} {c n : Nat} {r : SvcRun}

theorem phaseSums_advance (d : Dev) (t c per k : Nat) (l : List Int) :
    phaseSums (advance d t) c per k l = phaseSums d c per k l := by
  induction k generalizing l with
  | zero => rfl
  | succ k ih => rw [phaseSums, ih]; rfl

theorem doSfeMeasure_idle (t : Nat) (raw : List Int) (h : (svcCore d c).run = none) : doSfeMeasure t c raw d = advance d t := by
  simp [doSfeMeasure, h]

theorem doSfeMeasure_clamped (t : Nat) (raw : List Int) (h : (svcCore d c).run = some r) (hw : wSfe r.word = some n)
    (hb : r.bad = true) : doSfeMeasure t c raw d =
      svcNext (endRun (bump (advance d (max t (r.at_ + sfeTicks d n r.word - r.used))) pgSfe (F.SFE_CLAMPS n)) c r) c := by
  simp [doSfeMeasure, h, hw, hb]

theorem doSfeMeasure_kept (t : Nat) (raw : List Int) (h : (svcCore d c).run = some r) (hw : wSfe r.word = some n)
    (hb : r.bad = false) : doSfeMeasure t c raw d =
      svcNext (sfeKeep (advance d (max t (r.at_ + sfeTicks d n r.word - r.used))) c n r
        (phaseSums d c (2 ^ min 6 (wAvg r.word)) (sfePhases d n) raw)) c := by
  simp only [doSfeMeasure, h, hw, hb, phaseSums_advance]
  rfl

theorem sfeValue_frame (d : Dev) (n : Nat) (q : Option Rat) : ∃ f, (sfeValue d n q).1 = { d with freeN := f } := by
  unfold sfeValue
  extract_lets ty rn beta
  cases q with
  | none => exact ⟨_, rfl⟩
  | some q =>
    dsimp only
    split
    · exact ⟨_, rfl⟩
    · split
      · exact ⟨_, rfl⟩
      · exact ⟨_, rfl⟩

/-- A measurement in OHMS gives the resistance, rounded and limited (R287). -/
theorem sfeValue_ohms (q : Rat) (h : getL d pgSfe (F.SFE_TYPE n) = 2) :
    (sfeValue d n (some q)).2.1 = clampI 0 (2 ^ 32 - 1) (rneRat q) := by simp [sfeValue, h]

/-- In 4-wire it is REF_R × V / V_REF (R286). -/
theorem sfeOhms_fourWire {g : List Int} (hw : getL d pgSfe (F.SFE_WIRE n) = 2) (hg : g.getD 1 0 ≠ 0) :
    sfeOhms d n g = some ((getL d pgSfe F.SFE_REF_R : Rat) * (g.getD 0 0 : Rat) / (g.getD 1 0 : Rat)) := by
  have h1 : ¬g[1]?.getD 0 = 0 := by simpa using hg
  simp [sfeOhms, hw, h1]

theorem fldAt_measurements_ne_temp (n : Nat) : fldAt (F.SFE_TEMP n) ≠ fldAt (F.SFE_MEASUREMENTS n) := by
  simp only [fldAt, F.SFE_TEMP, F.SFE_MEASUREMENTS]; omega

/-- What a measurement of channel `n` begun at `from_` with the result `v`, saturated where `sat`, leaves before the result goes
into its record: counters, TEMP, and the intervals of the Raman channels. -/
def measureNoted (d : Dev) (n : Nat) (v : Int) (sat : Bool) (from_ : Nat) : Dev :=
  let d := onlyIf sat (fun d => bump d pgSvc F.SVC_SATURATIONS) d
  let d := bump d pgSfe (F.SFE_MEASUREMENTS n)
  let temp := decide (getL d pgSfe (F.SFE_TYPE n) < 2)
  let d := onlyIf temp (fun d => setS d pgSfe (F.SFE_TEMP n) v) d
  let d := { d with sfeAt := Store.set d.sfeAt 0 n (d.ticks + 1) }
  onlyIf temp (fun d => (List.range 12).foldl (refResult n v (from_ + d.ticks : Nat)) d) d

theorem sfeKeep_eq (d : Dev) (c n : Nat) (r : SvcRun) (g : List Int) :
    ∃ at_, sfeKeep d c n r g = putResult
      (endRun (measureNoted (sfeValue d n (sfeOhms d n g)).1 n (sfeValue d n (sfeOhms d n g)).2.1
        (sfeValue d n (sfeOhms d n g)).2.2 (r.first.getD r.at_)) c r)
      r.x (sfeValue d n (sfeOhms d n g)).2.1 (ux 32 (sfeValue d n (sfeOhms d n g)).2.1) at_ := ⟨_, rfl⟩

/-- From `d` to `e` memory, time in ticks, the records of the entries and the measurement count of channel `n` are as they
were. -/
def CountKept (n : Nat) (d e : Dev) : Prop :=
  e.mem = d.mem ∧ e.ticks = d.ticks ∧ e.svcRec = d.svcRec ∧
    getR e pgSfe (F.SFE_MEASUREMENTS n) = getR d pgSfe (F.SFE_MEASUREMENTS n)

theorem CountKept.refl (n : Nat) (d : Dev) : CountKept n d d := ⟨rfl, rfl, rfl, rfl⟩

theorem CountKept.trans (n : Nat) (a b c : Dev) (h : CountKept n a b) (g : CountKept n b c) : CountKept n a c := by
  obtain ⟨hm, ht, hr, hc⟩ := h
  obtain ⟨gm, gt, gr, gc⟩ := g
  exact ⟨gm.trans hm, gt.trans ht, gr.trans hr, gc.trans hc⟩

theorem refResults_frame (d : Dev) (n : Nat) (v m2 : Int) :
    ∃ rm, (List.range 12).foldl (refResult n v m2) d = { d with ramans := rm } :=
  foldl_rel (R := fun a b => ∃ rm, b = { a with ramans := rm }) (fun a => ⟨a.ramans, rfl⟩)
    (by rintro a _ _ ⟨_, rfl⟩ ⟨_, rfl⟩; exact ⟨_, rfl⟩) (fun a m _ => ⟨_, rfl⟩) d

/-- A measurement that is kept counts; memory, time and records stay. -/
theorem measureNoted_spec (d : Dev) {n : Nat} (hn : n < 8) (v : Int) (sat : Bool) (from_ : Nat) :
    (measureNoted d n v sat from_).mem = d.mem ∧ (measureNoted d n v sat from_).ticks = d.ticks ∧
      (measureNoted d n v sat from_).svcRec = d.svcRec ∧ getR (measureNoted d n v sat from_) pgSfe (F.SFE_MEASUREMENTS n) =
        min (getR d pgSfe (F.SFE_MEASUREMENTS n) + 1) (2 ^ 32 - 1) := by
  unfold measureNoted
  extract_lets e1 e2 temp e3 e4
  obtain ⟨hm, ht, hr, hf⟩ : Beside d e1 := .ite ((Beside.refl d).addC 1 (.inr (by decide))) (.refl d)
  clear_value e1
  have hcount : getR e2 pgSfe (F.SFE_MEASUREMENTS n) = min (getR d pgSfe (F.SFE_MEASUREMENTS n) + 1) (2 ^ 32 - 1) := by
    rw [← hf _ (by simp only [fldAt, F.SFE_MEASUREMENTS]; omega)]
    exact getR_addC_narrow e1 _ _ (Nat.le_refl 32)
  have h2 : e2.mem = e1.mem ∧ e2.ticks = e1.ticks ∧ e2.svcRec = e1.svcRec := by
    rw [show e2 = _ from addC_eq ..]
    exact ⟨rfl, rfl, rfl⟩
  obtain ⟨hm2, ht2, hr2⟩ := h2
  clear_value e2
  have h3 : CountKept n e2 e3 := onlyIf_rel (CountKept.refl n) _ _
    ⟨rfl, rfl, rfl, getR_setR_fld _ _ _ (fldAt_measurements_ne_temp n)⟩
  clear_value e3
  have h4 : CountKept n e2 e4 := h3
  clear_value e4
  have h5 : CountKept n e4 ((List.range 12).foldl (refResult n v (from_ + e4.ticks : Nat)) e4) := by
    obtain ⟨rm, h⟩ := refResults_frame e4 n v (from_ + e4.ticks : Nat)
    rw [h]
    exact ⟨rfl, rfl, rfl, rfl⟩
  obtain ⟨gm, gt, gr, gc⟩ := h4.trans _ _ _ _ (onlyIf_rel (CountKept.refl n) e4 temp
    (f := fun d => (List.range 12).foldl (refResult n v (from_ + d.ticks : Nat)) d) h5)
  exact ⟨gm.trans (hm2.trans hm), gt.trans (ht2.trans ht), gr.trans (hr2.trans hr), gc.trans hcount⟩

/-- A measurement that is kept counts, and its result goes into the record of its entry; memory and time stay. -/
theorem sfeKeep_spec (d : Dev) (c : Nat) {n : Nat} (hn : n < 8) (r : SvcRun) (g : List Int) :
    (svcRecOf (sfeKeep d c n r g) r.x).count = min ((svcRecOf d r.x).count + 1) (2 ^ 32 - 1) ∧
      (svcRecOf (sfeKeep d c n r g) r.x).val = (sfeValue d n (sfeOhms d n g)).2.1 ∧ (sfeKeep d c n r g).ticks = d.ticks ∧
      (sfeKeep d c n r g).mem = d.mem ∧ getR (sfeKeep d c n r g) pgSfe (F.SFE_MEASUREMENTS n) =
        min (getR d pgSfe (F.SFE_MEASUREMENTS n) + 1) (2 ^ 32 - 1) := by
  obtain ⟨at_, he⟩ := sfeKeep_eq d c n r g
  obtain ⟨fr, hfr⟩ := sfeValue_frame d n (sfeOhms d n g)
  rw [he]
  generalize sfeValue d n (sfeOhms d n g) = y at hfr ⊢
  obtain ⟨hm, ht, hr, hc⟩ := measureNoted_spec y.1 hn y.2.1 y.2.2 (r.first.getD r.at_)
  generalize measureNoted y.1 n y.2.1 y.2.2 (r.first.getD r.at_) = e at *
  have hend : NextMoves e (endRun e c r) := (NextMoves.refl e).of_endRun c r
  have hrec : svcRecOf (endRun e c r) r.x = svcRecOf d r.x := by rw [svcRecOf, hend.svcRec, hr, hfr]; rfl
  obtain ⟨pm, pt, -, pc⟩ := putResult_spec (endRun e c r) r.x y.2.1 (ux 32 y.2.1) at_
  refine ⟨?_, ?_, pt.trans (hend.ticks.trans ?_), pm.trans (hend.mem.trans ?_), ?_⟩
  · rw [svcRecOf_putResult, hrec]; rfl
  · rw [svcRecOf_putResult]; rfl
  · rw [ht, hfr]
  · rw [hm, hfr]
  · rw [pc _ (by simp only [fldAt, F.SFE_MEASUREMENTS]; omega)]
    refine (hend.getR_channel hn (by simp [channelFields])).trans (hc.trans ?_)
    rw [hfr]; rfl

end

section
variable (d : Dev) (c : Nat) {n : Nat} (hn : n < 8) (r : SvcRun)
include hn

/-- A measurement of a clamped channel is counted, and leaves records and TEMP alone (R289). -/
theorem measure_clamped :
    getR (svcNext (endRun (bump d pgSfe (F.SFE_CLAMPS n)) c r) c) pgSfe (F.SFE_CLAMPS n) =
        min (getR d pgSfe (F.SFE_CLAMPS n) + 1) (2 ^ 32 - 1) ∧
      (svcNext (endRun (bump d pgSfe (F.SFE_CLAMPS n)) c r) c).svcRec = d.svcRec ∧
      getR (svcNext (endRun (bump d pgSfe (F.SFE_CLAMPS n)) c r) c) pgSfe (F.SFE_TEMP n) = getR d pgSfe (F.SFE_TEMP n) ∧
      (svcNext (endRun (bump d pgSfe (F.SFE_CLAMPS n)) c r) c).mem = d.mem := by
  have hnext := ((NextMoves.refl (bump d pgSfe (F.SFE_CLAMPS n))).of_endRun c r).of_svcNext c
  refine ⟨?_, hnext.svcRec.trans (addC_svcRec ..), ?_, hnext.mem.trans (addC_mem ..)⟩
  · rw [hnext.getR_channel hn (by simp [channelFields])]
    exact getR_addC_narrow d pgSfe 1 (Nat.le_refl 32)
  · rw [hnext.getR_channel hn (by simp [channelFields])]
    exact getR_addC_fld d pgSfe 1 (by simp only [fldAt, F.SFE_CLAMPS, F.SFE_TEMP]; omega)

/-- A measurement that is kept enters its record and is counted (R276, R287). -/
theorem measure_kept (g : List Int) :
    (svcRecOf (svcNext (sfeKeep d c n r g) c) r.x).count = min ((svcRecOf d r.x).count + 1) (2 ^ 32 - 1) ∧
      (svcRecOf (svcNext (sfeKeep d c n r g) c) r.x).val = (sfeValue d n (sfeOhms d n g)).2.1 ∧
      (svcNext (sfeKeep d c n r g) c).ticks = d.ticks ∧
      getR (svcNext (sfeKeep d c n r g) c) pgSfe (F.SFE_MEASUREMENTS n) =
        min (getR d pgSfe (F.SFE_MEASUREMENTS n) + 1) (2 ^ 32 - 1) ∧ (svcNext (sfeKeep d c n r g) c).mem = d.mem := by
  obtain ⟨hcount, hval, hticks, hmem, hmeas⟩ := sfeKeep_spec d c hn r g
  have hnext := (NextMoves.refl (sfeKeep d c n r g)).of_svcNext c
  have hrec : svcRecOf (svcNext (sfeKeep d c n r g) c) r.x = svcRecOf (sfeKeep d c n r g) r.x := by
    rw [svcRecOf, hnext.svcRec, ← svcRecOf]
  rw [hrec, hnext.getR_channel hn (by simp [channelFields])]
  exact ⟨hcount, hval, hnext.ticks.trans hticks, hmeas, hnext.mem.trans hmem⟩

end

/-! ### Tone checks (R288) -/

section
variable {d : Dev} {t n : Nat}

/-- STATE of page SFE shows ACTIVE while a channel is checked (R297). -/
theorem getR_svcShow_checked (hn : n < 8) (h : (sfeSt d n).check.isSome = true) : getR (svcShow d) pgSfe cSTATE = 1 := by
  have hany : (List.range 8).any (fun m => (sfeSt d m).check.isSome) = true := List.any_eq_true.2 ⟨n, List.mem_range.2 hn, h⟩
  refine (getR_setR_self ..).trans ?_
  change b2n (_ || (List.range 8).any (fun m => (sfeSt d m).check.isSome)) % 2 ^ 4 = 1
  rw [hany, Bool.or_true]
  rfl

theorem getR_svcShow {p : Nat} {f : Fld} (h1 : key pgSvc cSTATE ≠ key p f) (h2 : key pgSfe cSTATE ≠ key p f) :
    getR (svcShow d) p f = getR d p f :=
  (getR_setR_ne _ _ h2).trans (getR_setR_ne _ _ h1)

theorem doSfeCheck_off (h : flagL d pgSfe (F.SFE_CHECK_EN n) = false) : doSfeCheck t n d = advance d t :=
  if_pos (by rw [show flagL (advance d t) pgSfe (F.SFE_CHECK_EN n) = false from h]; rfl)

/-- A check that is due, of a channel neither checked nor measured, starts. -/
theorem doSfeCheck_starts (hen : flagL d pgSfe (F.SFE_CHECK_EN n) = true) (hcheck : (sfeSt d n).check = none)
    (hbusy : sfeBusy d n = false) (hdue : (sfeSt d n).lastCheck + (if getR d pgSfe (F.SFE_CLASS n) = 2 then 100000000
      else 100000000 * max 1 (getL d pgSfe (F.SFE_CHECK_S n))) ≤ max d.ticks t) :
    doSfeCheck t n d = svcShow (setSfe (advance d t) n
      { sfeSt d n with check := some (advance d t).ticks, lastCheck := (advance d t).ticks }) := by
  refine if_neg ?_
  have hen' : flagL (advance d t) pgSfe (F.SFE_CHECK_EN n) = true := hen
  have hcheck' : (sfeSt (advance d t) n).check = none := hcheck
  have hbusy' : sfeBusy (advance d t) n = false := hbusy
  have hper : ¬(advance d t).ticks < (sfeSt (advance d t) n).lastCheck +
      (if getR (advance d t) pgSfe (F.SFE_CLASS n) = 2 then sT 1
      else sT (max 1 (getL (advance d t) pgSfe (F.SFE_CHECK_S n)))) := by
    simp only [sT, Nat.mul_comm _ 100000000]
    exact Nat.not_lt.2 hdue
  simp only [hen', hcheck', hbusy', decide_eq_false hper]
  decide

theorem doSfeCheckDone_none {z : Nat} {l : List Nat} (h : (sfeSt d n).check = none) : doSfeCheckDone t n z l d = advance d t := by
  simp [doSfeCheckDone, h]

/-- The channel after a check begun at `a` has read |Z| = `z`; it is not classified yet. -/
def checkRead (d : Dev) (t n a z : Nat) : Dev :=
  let d := advance d (max t (a + 1638400))
  setSfe (setR (setR d pgSfe (F.SFE_Z_LAST n) (min z (2 ^ 32 - 1))) pgSfe (F.SFE_LEAD_LAST n) 0) n
    { sfeSt d n with check := none, broke := false }

/-- The channel once that check has classified it. -/
def checkEnded (d : Dev) (t n a z : Nat) : Dev :=
  svcShow (sfeClass (checkRead d t n a z) n (classify (checkRead d t n a z) n z []))

theorem doSfeCheckDone_ends {a z : Nat} (h : (sfeSt d n).check = some a) : doSfeCheckDone t n z [] d = checkEnded d t n a z := by
  simp only [doSfeCheckDone, h, ite_self]
  rfl

/-- The class by |Z| where no lead was read. -/
theorem classify_noLeads (d : Dev) (n z : Nat) : classify d n z [] =
    if 3200000 < z then 2 else if z < 32 then 3
    else if z < 16 * getL d pgSfe (F.SFE_ZLO n) ∨ 16 * getL d pgSfe (F.SFE_ZHI n) < z then 4 else 1 := by
  simp [classify]

theorem classify_noLeads_lt (d : Dev) (n z : Nat) : classify d n z [] < 8 := by
  rw [classify_noLeads]; split <;> [decide; (split <;> [decide; (split <;> decide)])]

theorem checkRead_regs (d : Dev) (t n a z : Nat) : (checkRead d t n a z).regs =
    (setR (setR d pgSfe (F.SFE_Z_LAST n) (min z (2 ^ 32 - 1))) pgSfe (F.SFE_LEAD_LAST n) 0).regs := rfl

theorem getR_checkRead (d : Dev) (t n a z : Nat) {g : Fld} (hz : fldAt (F.SFE_Z_LAST n) ≠ fldAt g)
    (hl : fldAt (F.SFE_LEAD_LAST n) ≠ fldAt g) : getR (checkRead d t n a z) pgSfe g = getR d pgSfe g :=
  (getR_congr (checkRead_regs d t n a z) _ _).trans ((getR_setR_fld _ _ _ hl).trans (getR_setR_fld _ _ _ hz))

theorem getR_checkRead_z (d : Dev) (t n a z : Nat) :
    getR (checkRead d t n a z) pgSfe (F.SFE_Z_LAST n) = min z (2 ^ 32 - 1) := by
  have hne : fldAt (F.SFE_LEAD_LAST n) ≠ fldAt (F.SFE_Z_LAST n) := by simp only [fldAt, F.SFE_Z_LAST, F.SFE_LEAD_LAST]; omega
  rw [getR_congr (checkRead_regs d t n a z), getR_setR_fld _ _ _ hne, getR_setR_self]
  exact Nat.mod_eq_of_lt (by simp only [F.SFE_Z_LAST]; omega)

/-- The limits of |Z| stand as they were. -/
theorem classify_checkRead (d : Dev) (t n a z : Nat) : classify (checkRead d t n a z) n z [] = classify d n z [] := by
  have hlo : getL (checkRead d t n a z) pgSfe (F.SFE_ZLO n) = getL d pgSfe (F.SFE_ZLO n) := getR_checkRead d t n a z
    (by simp only [fldAt, liveF, F.SFE_Z_LAST, F.SFE_ZLO]; omega) (by simp only [fldAt, liveF, F.SFE_LEAD_LAST, F.SFE_ZLO]; omega)
  have hhi : getL (checkRead d t n a z) pgSfe (F.SFE_ZHI n) = getL d pgSfe (F.SFE_ZHI n) := getR_checkRead d t n a z
    (by simp only [fldAt, liveF, F.SFE_Z_LAST, F.SFE_ZHI]; omega) (by simp only [fldAt, liveF, F.SFE_LEAD_LAST, F.SFE_ZHI]; omega)
  rw [classify_noLeads, classify_noLeads, hlo, hhi]

/-- A check that ends shows |Z| and the class of it, and OK where it finds the channel in order and no ball is clamped (R288). -/
theorem checkEnded_spec (d : Dev) (t : Nat) {n : Nat} (hn : n < 8) (a z : Nat) :
    (sfeSt (checkEnded d t n a z) n).check = none ∧ a + 1638400 ≤ (checkEnded d t n a z).ticks ∧
      getR (checkEnded d t n a z) pgSfe (F.SFE_Z_LAST n) = min z (2 ^ 32 - 1) ∧
      getR (checkEnded d t n a z) pgSfe (F.SFE_CLASS n) = classify d n z [] ∧
      flagR (checkEnded d t n a z) pgSfe (F.SFE_OK n) = (classify d n z [] == 1 && !flagR d pgSfe (F.SFE_CLAMP n)) ∧
      (checkEnded d t n a z).mem = d.mem := by
  unfold checkEnded
  rw [classify_checkRead]
  obtain ⟨hclass, hok, hkeep, -, hframe⟩ := sfeClass_spec (checkRead d t n a z) n (classify_noLeads_lt d n z)
  generalize sfeClass (checkRead d t n a z) n (classify d n z []) = e at *
  have hshow := (NextMoves.refl e).of_svcShow
  have hclamp : flagR (checkRead d t n a z) pgSfe (F.SFE_CLAMP n) = flagR d pgSfe (F.SFE_CLAMP n) := by
    rw [flagR, getR_checkRead _ _ _ _ _ (by simp only [fldAt, F.SFE_Z_LAST, F.SFE_CLAMP]; omega)
      (by simp only [fldAt, F.SFE_LEAD_LAST, F.SFE_CLAMP]; omega), ← flagR]
  have hst : (sfeSt (checkRead d t n a z) n).check = none ∧ (sfeSt (checkRead d t n a z) n).broke = false := by
    rw [checkRead, sfeSt_setSfe]
    exact ⟨rfl, rfl⟩
  obtain ⟨hcheck, hbroke⟩ := hst
  refine ⟨?_, ?_, ?_, ?_, ?_, ?_⟩
  · obtain ⟨_, _, _, rfl⟩ := hframe
    exact hcheck
  · obtain ⟨_, _, _, rfl⟩ := hframe
    exact le_trans (le_max_right _ _) (le_max_right _ _)
  · rw [hshow.getR_channel hn (by simp [channelFields]), hkeep _ (by simp only [fldAt, F.SFE_CLASS, F.SFE_Z_LAST]; omega)
      (by simp only [fldAt, F.SFE_OK, F.SFE_Z_LAST]; omega), getR_checkRead_z]
  · rw [hshow.getR_channel hn (by simp [channelFields]), hclass]
  · rw [flagR, hshow.getR_channel hn (by simp [channelFields]), ← flagR, hok, hclamp, hbroke, Bool.not_false, Bool.and_true]
  · obtain ⟨_, _, _, rfl⟩ := hframe
    rfl

end

/-! ### Clamps and broken wires (R289, R290) -/

section
variable {d : Dev} {n : Nat} (t : Nat)

/-- A ball of channel `n` is clamped; the measurements that it spoils are marked already. -/
def clamped (d : Dev) (n : Nat) : Dev :=
  sfeOkShow (raiseOn (setR d pgSfe (F.SFE_CLAMP n) 1) pgSfe 9 (flagR d pgSfe (F.SFE_CLAMP n)) true) n

theorem doClamp_eq : ∃ cs, doClamp t n d = clamped { advance d t with svcCores := cs } n := by
  obtain ⟨cs, h⟩ := foldl_rel (R := fun a b => ∃ cs, b = { a with svcCores := cs }) (f := spoilRuns n) (l := List.range 2)
    (fun a => ⟨a.svcCores, rfl⟩) (by rintro a _ _ ⟨_, rfl⟩ ⟨_, rfl⟩; exact ⟨_, rfl⟩) (fun a m _ => ⟨_, rfl⟩) (advance d t)
  refine ⟨cs, ?_⟩
  rw [← h]
  rfl

/-- A clamp shows at once, takes OK away and is raised at its onset (R289). -/
theorem clamped_spec (d : Dev) (n : Nat) :
    flagR (clamped d n) pgSfe (F.SFE_CLAMP n) = true ∧ flagR (clamped d n) pgSfe (F.SFE_OK n) = false ∧
      (flagR d pgSfe (F.SFE_CLAMP n) = false → (evtRaw (clamped d n) pgSfe).testBit 9 = true) ∧
      (clamped d n).svcRec = d.svcRec ∧ (clamped d n).mem = d.mem := by
  unfold clamped
  generalize he : raiseOn (setR d pgSfe (F.SFE_CLAMP n) 1) pgSfe 9 (flagR d pgSfe (F.SFE_CLAMP n)) true = e
  have hframe : ∃ ev, e = { setR d pgSfe (F.SFE_CLAMP n) 1 with evt := ev } := by
    rw [← he, raiseOn]
    split
    · exact ⟨_, rfl⟩
    · exact ⟨_, rfl⟩
  have hclamp : flagR e pgSfe (F.SFE_CLAMP n) = true := by
    obtain ⟨ev, h⟩ := hframe
    rw [flagR, getR_congr (show e.regs = (setR d pgSfe (F.SFE_CLAMP n) 1).regs by rw [h]), getR_setR_self]
    rfl
  refine ⟨?_, ?_, fun hwas => ?_, ?_, ?_⟩
  · rw [flagR, getR_sfeOkShow _ _ (fldAt_ok_ne_clamp n), ← flagR, hclamp]
  · rw [flagR_sfeOkShow_ok, okNow, hclamp]; simp
  · rw [evtRaw, sfeOkShow_evt, ← evtRaw, ← he, hwas]
    exact raise_bit (setR d pgSfe (F.SFE_CLAMP n) 1) pgSfe 9
  · obtain ⟨ev, h⟩ := hframe
    rw [sfeOkShow_svcRec, h]; rfl
  · obtain ⟨ev, h⟩ := hframe
    rw [sfeOkShow_mem, h]; rfl

theorem NextMoves.of_dropMeasure {e : Dev} (h : NextMoves d e) (c m : Nat) : NextMoves d (dropMeasure e c m) := by
  unfold Machine.dropMeasure
  extract_lets y hit
  have hpaused : NextMoves d (regularDone (setSvcCore e c { y with paused := none }) c) := (h.of_setSvcCore ..).of_setSvcCore ..
  split
  · exact .ite ((h.of_endRun ..).of_svcNext c) (.ite hpaused h)
  · exact .ite (hpaused.of_svcNext c) h

theorem doWireBreak_idle (hbusy : sfeBusy d n = false) (hcheck : (sfeSt d n).check = none) : doWireBreak t n d = advance d t := by
  have hbusy' : sfeBusy (advance d t) n = false := hbusy
  have hcheck' : (sfeSt (advance d t) n).check = none := hcheck
  simp [doWireBreak, hbusy', hcheck']

/-- The channel with a wire broken is OPEN; a measurement of it has not ended yet. -/
def wireBroken (d : Dev) (t n : Nat) : Dev :=
  let d := raise (bump (advance d t) pgSfe (F.SFE_BREAKS n)) pgSfe 10
  setSfe d n { sfeSt d n with broke := true, check := none }

theorem doWireBreak_breaks (h : sfeBusy d n = true ∨ (sfeSt d n).check ≠ none) :
    NextMoves (sfeClass (wireBroken d t n) n 2) (doWireBreak t n d) := by
  have hnow : (!(sfeBusy (advance d t) n || (sfeSt (advance d t) n).check.isSome)) = false := by
    rcases h with h | h
    · rw [show sfeBusy (advance d t) n = true from h]; rfl
    · have hsome : (sfeSt (advance d t) n).check.isSome = true := Option.isSome_iff_ne_none.2 h
      rw [hsome, Bool.or_true]; rfl
  have heq : doWireBreak t n d = svcShow (dropMeasure (dropMeasure (sfeClass (wireBroken d t n) n 2) 0 n) 1 n) :=
    if_neg (by rw [hnow]; decide)
  rw [heq]
  exact (((NextMoves.refl _).of_dropMeasure 0 n).of_dropMeasure 1 n).of_svcShow

/-- A broken wire ends what measures or checks the channel, without a result; the channel is OPEN (R290). -/
theorem wireBreak_shows (hn : n < 8) (h : sfeBusy d n = true ∨ (sfeSt d n).check ≠ none) :
    (sfeSt (doWireBreak t n d) n).check = none ∧
      getR (doWireBreak t n d) pgSfe (F.SFE_BREAKS n) = min (getR d pgSfe (F.SFE_BREAKS n) + 1) (2 ^ 32 - 1) ∧
      getR (doWireBreak t n d) pgSfe (F.SFE_CLASS n) = 2 ∧ (getR (doWireBreak t n d) pgSfe (F.SFE_OK n) == 1) = false ∧
      (evtRaw (doWireBreak t n d) pgSfe).testBit 10 = true ∧ (doWireBreak t n d).svcRec = d.svcRec ∧
      (doWireBreak t n d).mem = d.mem := by
  have hnext := doWireBreak_breaks t h
  obtain ⟨hclass, hok, hkeep, hevt, hframe⟩ := sfeClass_spec (wireBroken d t n) n (v := 2) (by decide)
  have hst : sfeSt (sfeClass (wireBroken d t n) n 2) n = sfeSt (wireBroken d t n) n := by
    obtain ⟨_, _, _, hf⟩ := hframe; rw [hf]; rfl
  have hrec : (sfeClass (wireBroken d t n) n 2).svcRec = (wireBroken d t n).svcRec := by obtain ⟨_, _, _, hf⟩ := hframe; rw [hf]
  have hmem : (sfeClass (wireBroken d t n) n 2).mem = (wireBroken d t n).mem := by obtain ⟨_, _, _, hf⟩ := hframe; rw [hf]
  refine ⟨?_, ?_, ?_, ?_, ?_, ?_, ?_⟩
  · rw [hnext.sfeSt_eq, hst, wireBroken, sfeSt_setSfe]
  · rw [hnext.getR_channel hn (by simp [channelFields]), hkeep _ (by simp only [fldAt, F.SFE_CLASS, F.SFE_BREAKS]; omega)
      (by simp only [fldAt, F.SFE_OK, F.SFE_BREAKS]; omega)]
    exact getR_addC_narrow (advance d t) pgSfe 1 (Nat.le_refl 32)
  · rw [hnext.getR_channel hn (by simp [channelFields]), hclass]
  · rw [hnext.getR_channel hn (by simp [channelFields])]
    exact hok
  · rw [evtRaw, hnext.evt, ← evtRaw]
    exact hevt 10 (raise_bit (bump (advance d t) pgSfe (F.SFE_BREAKS n)) pgSfe 10)
  · exact hnext.svcRec.trans (hrec.trans (addC_svcRec (advance d t) ..))
  · exact hnext.mem.trans (hmem.trans (addC_mem (advance d t) ..))

end

end Sys2Proof.Machine
open Sys2Proof Sys2Proof.Machine

/-- Settles O40: a measurement is discarded, or kept with its result (`sfeKeep_spec`), and what the core starts next changes no
register of the channel (`NextMoves.getR_channel`); a check classifies the channel by |Z| (`classify_noLeads`, `sfeClass_spec`);
and OK follows the class, the clamp and the wire (`flagR_sfeOkShow_ok`). -/
theorem sensorChannelsMeasureAndCheck : Obligations.SensorChannelsMeasureAndCheck := by
  unfold Obligations.SensorChannelsMeasureAndCheck
  intro s t c n raw hc hn hs p
  subst p
  have hmeasure := gives_sfeMeasurement t raw hc hs
  have hcheck := gives_sfeCheck t hn hs
  have hdone (z : Nat) (l : List Nat) := gives_sfeCheckDone t z l hn hs
  have hbreak := gives_wireBreak t hn hs
  refine ⟨fun h => hmeasure.of_eq (doSfeMeasure_idle t raw h), ?_, fun h => hcheck.of_eq (doSfeCheck_off h), ?_,
    fun z l h => (hdone z l).of_eq (doSfeCheckDone_none h), ?_, ?_, ?_,
    fun hb hk => hbreak.of_eq (doWireBreak_idle t hb hk), ?_⟩
  · intro r hr hw g
    refine ⟨fun hb => ?_, fun hb => ?_, fun hb hwire htype hg => ?_⟩
    · refine does_of_gives (hmeasure.of_eq (doSfeMeasure_clamped t raw hr hw hb)) ?_
      simp only [getR_settle, settle_svcRec, settle_mem]
      exact measure_clamped (advance s.dev (max t (r.at_ + sfeTicks s.dev n r.word - r.used))) c hn r
    · refine does_of_gives (hmeasure.of_eq (doSfeMeasure_kept t raw hr hw hb)) ?_
      obtain ⟨hcount, -, hticks, hmeas, hmem⟩ := measure_kept
        (advance s.dev (max t (r.at_ + sfeTicks s.dev n r.word - r.used))) c hn r
        (phaseSums s.dev c (2 ^ min 6 (wAvg r.word)) (sfePhases s.dev n) raw)
      simp only [svcRecOf_settle, settle_ticks, getR_settle, settle_mem]
      refine ⟨hcount, ?_, hmeas, hmem⟩
      rw [hticks]
      exact le_trans (le_max_right _ _) (le_max_right _ _)
    · refine does_of_gives (hmeasure.of_eq (doSfeMeasure_kept t raw hr hw hb)) ?_
      obtain ⟨-, hval, -, hmeas, hmem⟩ := measure_kept
        (advance s.dev (max t (r.at_ + sfeTicks s.dev n r.word - r.used))) c hn r
        (phaseSums s.dev c (2 ^ min 6 (wAvg r.word)) (sfePhases s.dev n) raw)
      have htwo : sfePhases s.dev n = 2 := if_neg (by rw [hwire]; decide)
      rw [htwo] at hval hmeas hmem ⊢
      simp only [svcRecOf_settle, getR_settle, settle_mem]
      refine ⟨hval.trans ?_, hmeas, hmem⟩
      rw [sfeOhms_fourWire (d := advance s.dev (max t (r.at_ + sfeTicks s.dev n r.word - r.used))) hwire hg]
      exact sfeValue_ohms _ htype
  · intro hen hk hb hdue
    refine does_of_gives (hcheck.of_eq (doSfeCheck_starts hen hk hb hdue)) ?_
    simp only [sfeSt_settle, sfeSt_svcShow, sfeSt_setSfe, settle_ticks, getR_settle, settle_evt, settle_mem]
    exact ⟨rfl, rfl, getR_svcShow_checked hn (by rw [sfeSt_setSfe]; rfl), rfl, rfl⟩
  · intro a z hk
    refine does_of_gives ((hdone z []).of_eq (doSfeCheckDone_ends hk)) ?_
    obtain ⟨hcheck, hticks, hz, hclass, hok, hmem⟩ := checkEnded_spec s.dev t hn a z
    have hok' : flagR (settle (checkEnded s.dev t n a z)) pgSfe (F.SFE_OK n) =
      (classify s.dev n z [] == 1 && !flagR s.dev pgSfe (F.SFE_CLAMP n)) := by rw [flagR, getR_settle, ← flagR, hok]
    simp only [sfeSt_settle, settle_ticks, getR_settle, settle_mem, hok', hclass]
    rw [classify_noLeads]
    refine ⟨hcheck, hticks, hz, fun h => if_pos h, fun h => ?_, fun h1 h2 h3 => ?_, fun h1 h2 h3 h4 => ?_, hmem⟩
    · rw [if_neg (by omega), if_pos h]
    · rw [if_neg (by omega), if_neg (by omega), if_pos h3]
    · rw [if_neg (by omega), if_neg (by omega), if_neg (by omega)]
      exact ⟨rfl, fun h => by rw [h]; rfl⟩
  · obtain ⟨cs, he⟩ := doClamp_eq (d := s.dev) (n := n) t
    refine does_of_gives ((gives_sfeClamp t hn hs).of_eq he) ?_
    simp only [flagR, getR_settle, evtRaw_settle, settle_svcRec, settle_mem]
    exact clamped_spec { advance s.dev t with svcCores := cs } n
  · refine does_of_gives (gives_sfeClampRelease t hn hs) ?_
    simp only [flagR, getR_settle, settle_evt, settle_mem, doClampRelease, sfeOkShow_evt, sfeOkShow_mem]
    refine ⟨?_, rfl, rfl⟩
    rw [getR_sfeOkShow _ _ (fldAt_ok_ne_clamp n), getR_setR_self]
    rfl
  · intro h
    refine does_of_gives hbreak ?_
    simp only [sfeSt_settle, getR_settle, flagR, evtRaw_settle, settle_svcRec, settle_mem]
    exact wireBreak_shows t hn h

end

section
/-! PROOFS. Entries of the service converter: conversions, timed scans, CONTROL triggers and SHOT instants (R275–R282). -/

namespace Sys2Proof.Machine

open Sys2Proof

section
variable {s : State} {c : Nat} (t : Nat)

theorem gives_svcConversion (raw : Int) (hc : c < 2) (hs : Awake s) :
    Gives (.svcConversion t c raw) s (doConversion t c raw s.dev) := gives_of_act rfl (decide_eq_true hc) hs

theorem gives_scanStart (hc : c < 2) (hs : Awake s) : Gives (.scanStart t c) s (doScanStart t c s.dev) :=
  gives_of_act rfl (decide_eq_true hc) hs

theorem gives_injGo (v : Nat) (hs : Awake s) : Gives (.injGo t v) s (doInjGo t v s.dev) := gives_of_act rfl rfl hs

theorem gives_shotTrigger {i : Nat} (hi : i < 8) (hs : Awake s) : Gives (.shotTrigger t i) s (doShotTrigger t i s.dev) :=
  gives_of_act rfl (decide_eq_true hi) hs

end

/-! ### Conversions (R275, R276, R281) -/

/-- Core `c` runs `r`. -/
def running (d : Dev) (c : Nat) (r : SvcRun) : Dev := setSvcCore d c { svcCore d c with run := some r }

/-- Run `r` with the code of one more conversion in its sum. -/
def converted (d : Dev) (c : Nat) (r : SvcRun) (raw : Int) : SvcRun :=
  { r with sum := r.sum + svcCode d c (wDiff r.word) raw, n := r.n + 1, first := some (r.first.getD r.at_), at_ := d.ticks }

section
variable {d : Dev} {c : Nat} {r : SvcRun} (t : Nat) (raw : Int)

theorem doConversion_idle (h : (svcCore d c).run = none) : doConversion t c raw d = svcNext (advance d t) c := by
  simp [doConversion, h]

theorem doConversion_runs (h : (svcCore d c).run = some r) (hw : wSfe r.word = none) : doConversion t c raw d =
    svcNext (pauseRun (cycleEnd (advance d (max t (r.at_ + 50))) c r raw) c) c := by
  simp [doConversion, h, hw]

theorem cycleEnd_settles (h : 0 < r.settle) :
    cycleEnd d c r raw = running d c { r with settle := r.settle - 1, at_ := d.ticks } := if_pos h

theorem cycleEnd_adds (h : r.settle = 0) (hn : r.n + 1 ≠ 2 ^ wAvg r.word) :
    cycleEnd d c r raw = running d c (converted d c r raw) :=
  (if_neg (by omega)).trans (if_neg hn)

theorem cycleEnd_completes (h : r.settle = 0) (hn : r.n + 1 = 2 ^ wAvg r.word) :
    cycleEnd d c r raw = entryResult d c (converted d c r raw) :=
  (if_neg (by omega)).trans (if_pos hn)

/-- A run goes on to its next cycle where that ends before the next SHOT instant, or where it is not a regular one. -/
theorem svcNext_goesOn (h : r.kind = 0 → shotNear d c false = false) :
    svcNext (pauseRun (running d c r) c) c = svcShow (running d c r) := by
  have hrun : (svcCore (running d c r) c).run = some r := by rw [running, svcCore_setSvcCore]
  have hpause : pauseRun (running d c r) c = running d c r := by
    have hfar : ¬(r.kind = 0 ∧ shotNear (running d c r) c false = true) := fun ⟨hk, hn⟩ =>
      absurd ((h hk).symm.trans hn) (by decide)
    simp only [pauseRun, hrun, if_neg hfar]
  rw [hpause, svcNext_running hrun]

theorem NextMoves.of_pauseRun {d e : Dev} (h : NextMoves d e) (c : Nat) : NextMoves d (pauseRun e c) := by
  unfold Machine.pauseRun
  split
  · exact .ite (h.of_setSvcCore ..) h
  · exact h

theorem entryResult_eq (d : Dev) (c : Nat) (r : SvcRun) : ∃ latest at_,
    entryResult d c r = putResult (endRun d c r) r.x (fdiv r.sum (2 ^ wShift r.word)) latest at_ ∧
      (wAlign r.word = false → latest = ux 32 (fdiv r.sum (2 ^ wShift r.word))) :=
  ⟨_, _, rfl, fun h => by simp [h]⟩

/-- An entry that completes puts the floor of its sum by 2^SHIFT into its record, and changes no other (R275, R276). -/
theorem entryResult_spec (d : Dev) (c : Nat) (r : SvcRun) : ∃ latest at_,
    svcRecOf (entryResult d c r) r.x = recorded (svcRecOf d r.x) (fdiv r.sum (2 ^ wShift r.word)) latest at_ ∧
      (wAlign r.word = false → latest = ux 32 (fdiv r.sum (2 ^ wShift r.word))) ∧
      (∀ x, x ≠ r.x → svcRecOf (entryResult d c r) x = svcRecOf d x) ∧ (entryResult d c r).mem = d.mem := by
  obtain ⟨latest, at_, he, hlatest⟩ := entryResult_eq d c r
  have hend := (NextMoves.refl d).of_endRun c r
  have hrec (x : Nat) : svcRecOf (endRun d c r) x = svcRecOf d x := by rw [svcRecOf, hend.svcRec, ← svcRecOf]
  obtain ⟨hmem, -⟩ := putResult_spec (endRun d c r) r.x (fdiv r.sum (2 ^ wShift r.word)) latest at_
  rw [he]
  refine ⟨latest, at_, ?_, hlatest, fun x hx => ?_, hmem.trans hend.mem⟩
  · rw [svcRecOf_putResult, hrec]
  · rw [svcRecOf_putResult_ne _ _ _ _ hx, hrec]

end

/-! ### Timed scans (R278, R284) -/

section
variable {d : Dev} {t c : Nat}

theorem doScanStart_untimed (h : (svcCore d c).timed = false) : doScanStart t c d = advance d t := by
  simp [doScanStart, h]

/-- The ticks from one timed scan to the next. -/
def scanPeriod (d : Dev) (c : Nat) : Nat := 100 * max 1 (getL d pgSvc (F.SVC_SCAN_PERIOD c))

/-- The live settings let scans of core `c` be timed. -/
def scansOn (d : Dev) (c : Nat) : Bool := getL d pgSvc (F.SVC_MODE c) == 1 && getL d pgSvc (F.SVC_SEQ_LEN c) != 0

theorem scansOn_iff : scansOn d c = true ↔ getL d pgSvc (F.SVC_MODE c) = 1 ∧ getL d pgSvc (F.SVC_SEQ_LEN c) ≠ 0 := by
  simp [scansOn]

/-- At the tick of a timed scan core `c` is `y`. -/
def scanDue (d : Dev) (t c : Nat) (y : SvcCore) : Dev := setSvcCore (advance d (max t (svcCore d c).nextScan)) c y

/-- Core `c` once a timed scan has fallen due that is no overrun. -/
def scanNoted (d : Dev) (c : Nat) : SvcCore :=
  { svcCore d c with timed := scansOn d c
                     nextScan := if scansOn d c then (svcCore d c).nextScan + scanPeriod d c else (svcCore d c).nextScan }

theorem scanNoted_on (h : scansOn d c = true) : scanNoted d c =
    { svcCore d c with timed := true, nextScan := (svcCore d c).nextScan + scanPeriod d c } := by
  rw [scanNoted, h]; rfl

theorem scanNoted_off (h : scansOn d c = false) : scanNoted d c = { svcCore d c with timed := false } := by
  rw [scanNoted, h]; rfl

theorem doScanStart_overrun (ht : (svcCore d c).timed = true) (hscan : (svcCore d c).scan ≠ none)
    (hcal : svcCaling d c = false) : doScanStart t c d =
    raise (bump (scanDue d t c { svcCore d c with nextScan := (svcCore d c).nextScan + scanPeriod d c }) pgSvc (overrunsF c))
      pgSvc 8 := by
  have hover : ((svcCore d c).scan.isSome && !svcCaling d c) = true := by
    rw [hcal, Option.isSome_iff_ne_none.2 hscan]; rfl
  exact (if_neg (by rw [ht]; decide)).trans (if_pos hover)

/-- A timed scan that is no overrun starts, is held for the calibration, or ends the timing. -/
theorem doScanStart_noted (ht : (svcCore d c).timed = true) (h : (svcCore d c).scan = none ∨ svcCaling d c = true) :
    doScanStart t c d =
      if !scansOn d c then svcNext (scanDue d t c (scanNoted d c)) c
      else if svcCaling d c then
        (if (scanNoted d c).deferred then raise (bump (scanDue d t c (scanNoted d c)) pgSvc (overrunsF c)) pgSvc 8
         else setSvcCore (scanDue d t c (scanNoted d c)) c { scanNoted d c with deferred := true })
      else svcNext (startScan (scanDue d t c (scanNoted d c)) c) c := by
  have hover : ¬((svcCore d c).scan.isSome && !svcCaling d c) = true := by
    rcases h with h | h
    · simp [h]
    · rw [h, Bool.not_true, Bool.and_false]; decide
  exact (if_neg (by rw [ht]; decide)).trans (if_neg hover)

theorem doScanStart_starts (ht : (svcCore d c).timed = true) (hscan : (svcCore d c).scan = none) (hon : scansOn d c = true)
    (hcal : svcCaling d c = false) : doScanStart t c d = svcNext (startScan (scanDue d t c
      { svcCore d c with timed := true, nextScan := (svcCore d c).nextScan + scanPeriod d c }) c) c := by
  rw [doScanStart_noted ht (.inl hscan), hon, hcal, scanNoted_on hon]
  rfl

theorem doScanStart_stops (ht : (svcCore d c).timed = true) (hscan : (svcCore d c).scan = none) (hoff : scansOn d c = false) :
    doScanStart t c d = svcNext (scanDue d t c { svcCore d c with timed := false }) c := by
  rw [doScanStart_noted ht (.inl hscan), hoff, scanNoted_off hoff]
  rfl

theorem doScanStart_defers (ht : (svcCore d c).timed = true) (hon : scansOn d c = true) (hcal : svcCaling d c = true)
    (hdef : (svcCore d c).deferred = false) : doScanStart t c d = scanDue d t c
      { svcCore d c with timed := true, nextScan := (svcCore d c).nextScan + scanPeriod d c, deferred := true } := by
  rw [doScanStart_noted ht (.inr hcal), hon, hcal, scanNoted_on hon]
  simp only [hdef, scanDue, setSvcCore_setSvcCore]
  rfl

end

/-! ### CONTROL triggers (R279, R280, R282) -/

section
variable {d : Dev} {c x : Nat}

/-- A word of INJ_GO with one bit set triggers one entry. -/
theorem doInjGo_one {i : Nat} (t : Nat) (hi : i < 8) (hr : Reach d pgSvc) :
    doInjGo t (2 ^ i) d = svcControl (advance d t) (64 + i) := by
  have hbits : ∀ i < 8, (List.range 8).filter (fun j => bit (2 ^ i) j) = [i] := by decide
  rw [doInjGo, onPage_reach _ (reach_advance hr), hbits i hi]
  rfl

theorem svcControl_other (h : isControl d x = false) : svcControl d x = d := by simp [svcControl, h]

theorem svcControl_idle (h : isControl d x = true) (hc : entryCore x = c) (hcal : svcCaling d c = false)
    (hrun : (svcCore d c).run = none) : svcControl d x = svcNext (waitControl d c x) c := by
  subst hc
  simp [svcControl, h, hcal, hrun]

theorem svcControl_waits {r : SvcRun} (h : isControl d x = true) (hc : entryCore x = c) (hcal : svcCaling d c = false)
    (hrun : (svcCore d c).run = some r) (hk : r.kind ≠ 0) : svcControl d x = waitControl d c x := by
  subst hc
  simp [svcControl, h, hcal, hrun, hk]

theorem waitControl_merges (h : x ∈ (svcCore d c).waiting) : waitControl d c x = bump d pgSvc F.SVC_CONTROL_MERGED :=
  if_pos (List.contains_iff_mem.2 h)

theorem waitControl_first (h : (svcCore d c).waiting = []) :
    waitControl d c x = setSvcCore d c { svcCore d c with waiting := [x] } := by
  simp [waitControl, h]

/-- An idle core starts the one CONTROL entry that waits. -/
theorem svcNext_control (hrun : (svcCore d c).run = none) (hwait : (svcCore d c).waiting = [x])
    (hpaused : (svcCore d c).paused = none) (hcal : svcCaling d c = false) (hshot : shotNear d c true = false)
    (hskip : skipCause d (svcWordOf d x) = 0) : svcNext d c =
      svcShow (bump (startRun (setSvcCore d c { svcCore d c with waiting := [] }) c x 1 (svcWordOf d x) false) pgSvc
        F.SVC_CONTROL_RUNS) := by
  have hword (y : SvcCore) : svcWordOf (setSvcCore d c y) x = svcWordOf d x := rfl
  have hskip' : skipCause (setSvcCore d c { svcCore d c with waiting := [] }) (svcWordOf d x) = 0 :=
    (skipCause_setSvcCore (x := { svcCore d c with waiting := [] }) _ rfl rfl).trans hskip
  unfold svcNext
  extract_lets x' low resume guarded e w k e'
  have hlow : low = x := by simp [low, x', hwait]
  have hrest : x'.waiting.filter (· != x) = [] := by simp [x', hwait]
  have he : e = setSvcCore d c { svcCore d c with waiting := [] } := by simp only [e, hlow, hrest]; rfl
  have hw : w = svcWordOf d x := by rw [← hword { svcCore d c with waiting := [] }, ← he, ← hlow]
  have hk : k = 0 := by rw [← hskip', ← he, ← hw]
  have hguard : guarded = false := by simp [guarded, x', hpaused]
  have hshot' : shotNear d c (!x'.waiting.isEmpty && !guarded) = false := by rw [hguard]; simpa [x', hwait] using hshot
  have hgo : ¬(x'.run.isSome || svcCaling d c || shotNear d c (!x'.waiting.isEmpty && !guarded)) = true := by
    rw [hshot', hcal]; simp [x', hrun]
  have hstart : ¬(x'.waiting.isEmpty || guarded) = true := by rw [hguard]; simp [x', hwait]
  simp only [e', if_neg hgo, if_neg hstart, if_pos hk, he, hw, hlow]
  rfl

end

/-- The device once CONTROL entry `x`, triggered on an idle core, has started. -/
def controlStarted (d : Dev) (c x : Nat) : Dev :=
  svcShow (bump (startRun (setSvcCore d c { svcCore d c with waiting := [] }) c x 1 (svcWordOf d x) false) pgSvc
    F.SVC_CONTROL_RUNS)

/-- A CONTROL trigger starts an idle core, where nothing else waits, no SHOT instant is near and the entry is not passed over. -/
theorem svcControl_starts {d : Dev} {c x : Nat} (h : isControl d x = true) (hc : entryCore x = c) (hcal : svcCaling d c = false)
    (hrun : (svcCore d c).run = none) (hwait : (svcCore d c).waiting = []) (hpaused : (svcCore d c).paused = none)
    (hshot : shotNear d c true = false) (hskip : skipCause d (svcWordOf d x) = 0) :
    svcControl d x = controlStarted d c x := by
  have hcore : svcCore (setSvcCore d c { svcCore d c with waiting := [x] }) c = { svcCore d c with waiting := [x] } :=
    svcCore_setSvcCore ..
  have hskip' : skipCause (setSvcCore d c { svcCore d c with waiting := [x] }) (svcWordOf d x) = 0 :=
    (skipCause_setSvcCore (x := { svcCore d c with waiting := [x] }) _ rfl rfl).trans hskip
  have hnext := svcNext_control (d := setSvcCore d c { svcCore d c with waiting := [x] }) (x := x) (by rw [hcore]; exact hrun)
    (by rw [hcore]) (by rw [hcore]; exact hpaused) hcal hshot hskip'
  rw [hcore, setSvcCore_setSvcCore] at hnext
  rw [svcControl_idle h hc hcal hrun, waitControl_first hwait]
  exact hnext

theorem controlStarted_spec (d : Dev) (c x : Nat) :
    (svcCore (controlStarted d c x) c).run = some ⟨x, 1, svcWordOf d x, wSettle (svcWordOf d x), 0, 0, none, d.ticks, false, 0,
        ((wSfe (svcWordOf d x)).map (fun n => flagR d pgSfe (F.SFE_CLAMP n))).getD false⟩ ∧
      (svcCore (controlStarted d c x) c).waiting = [] ∧
      getR (controlStarted d c x) pgSvc F.SVC_CONTROL_RUNS = min (getR d pgSvc F.SVC_CONTROL_RUNS + 1) (2 ^ 32 - 1) ∧
      (controlStarted d c x).ticks = d.ticks ∧ (controlStarted d c x).evt = d.evt ∧ (controlStarted d c x).mem = d.mem := by
  have hcore : svcCore (controlStarted d c x) c = svcCore (startRun (setSvcCore d c { svcCore d c with waiting := [] }) c x 1
    (svcWordOf d x) false) c := svcCore_addC ..
  have hmoves : NextMoves d (controlStarted d c x) :=
    ((((NextMoves.refl d).of_setSvcCore ..).of_startRun ..).of_bump (by simp [nextFields])).of_svcShow
  rw [hcore, startRun, svcCore_setSvcCore, svcCore_setSvcCore]
  refine ⟨rfl, rfl, ?_, hmoves.ticks, hmoves.evt, hmoves.mem⟩
  rw [controlStarted, getR_svcShow (by decide) (by decide)]
  exact getR_addC_narrow _ _ _ (by decide)

/-! ### SHOT instants (R279, R281, R282) -/

section
variable {d : Dev} {t i : Nat}

theorem doShotTrigger_none (h : ∀ e ∈ d.svcShots, e.2 ≠ i) : doShotTrigger t i d = advance d t := by
  have hnone : d.svcShots.filter (fun e => e.2 == i) = [] := List.filter_eq_nil_iff.2 fun e he => by simpa using h e he
  simp [doShotTrigger, hnone]

/-- The device at the instant `a` of the one SHOT trigger that waited. -/
def shotDue (d : Dev) (t a : Nat) : Dev := { advance d (max t a) with svcShots := [] }

theorem doShotTrigger_one {a : Nat} (hi : i < 8) (h : d.svcShots = [(a, i)]) :
    doShotTrigger t i d = shotRun (shotDue d t a) i := by
  have hself : ∀ i < 8, (List.range 8).filter (fun k => i == k) = [i] := by decide
  simp [doShotTrigger, h, hself i hi, shotDue]

variable (hen : flagL d pgSvc (F.SVC_INJ_EN i) = true) (hclass : flagL d pgSvc (F.SVC_INJ_CLASS i) = true)
include hen hclass

theorem shotRun_calibrating (hcal : svcCaling d (i / 4) = true) : shotRun d i = bump d pgSvc F.SVC_SHOT_DROPS_CAL := by
  simp [shotRun, hen, hclass, hcal]

theorem shotRun_skips (hcal : svcCaling d (i / 4) = false)
    (hw : wReserved (getL d pgSvc (F.SVC_INJ_WORD i)) = true ∨ wSfe (getL d pgSvc (F.SVC_INJ_WORD i)) ≠ none) :
    shotRun d i = bump d pgSvc F.SVC_ENTRY_SKIPS := by
  have hskip : (wReserved (getL d pgSvc (F.SVC_INJ_WORD i)) || (wSfe (getL d pgSvc (F.SVC_INJ_WORD i))).isSome) = true := by
    rw [Bool.or_eq_true, Option.isSome_iff_ne_none]; exact hw
  simp only [shotRun, hen, hclass, hcal, hskip]
  rfl

variable (hcal : svcCaling d (i / 4) = false) (hres : wReserved (getL d pgSvc (F.SVC_INJ_WORD i)) = false)
  (hsfe : wSfe (getL d pgSvc (F.SVC_INJ_WORD i)) = none)
include hcal hres hsfe

theorem shotRun_drops {r : SvcRun} (hrun : (svcCore d (i / 4)).run = some r) (hk : r.kind ≠ 0) :
    shotRun d i = raise (bump d pgSvc F.SVC_SHOT_DROPS) pgSvc 9 := by
  simp [shotRun, hen, hclass, hcal, hres, hsfe, hrun, hk]

end

/-- A regular run that core `c` has is paused. -/
def pausedRun (d : Dev) (c : Nat) : Dev :=
  match (svcCore d c).run with
  | some r => pauseNow d c r
  | none => d

/-- The device once SHOT entry `i` has begun to convert at its instant. -/
def shotStarted (d : Dev) (i : Nat) : Dev :=
  svcShow (bump (startRun (pausedRun d (i / 4)) (i / 4) (64 + i) 2 (getL d pgSvc (F.SVC_INJ_WORD i)) false) pgSvc
    F.SVC_SHOT_RUNS)

theorem shotRun_converts {d : Dev} {i : Nat} (hen : flagL d pgSvc (F.SVC_INJ_EN i) = true)
    (hclass : flagL d pgSvc (F.SVC_INJ_CLASS i) = true) (hcal : svcCaling d (i / 4) = false)
    (hres : wReserved (getL d pgSvc (F.SVC_INJ_WORD i)) = false) (hsfe : wSfe (getL d pgSvc (F.SVC_INJ_WORD i)) = none)
    (hk : ∀ r, (svcCore d (i / 4)).run = some r → r.kind = 0) : shotRun d i = shotStarted d i := by
  have hregular : ((svcCore d (i / 4)).run.map (fun r => r.kind != 0)).getD false = false := by
    cases hrun : (svcCore d (i / 4)).run with
    | none => rfl
    | some r => simp [hk r hrun]
  simp only [shotRun, hen, hclass, hcal, hres, hsfe, hregular]
  rfl

theorem pausedRun_frame (d : Dev) (c : Nat) : ∃ cs, pausedRun d c = { d with svcCores := cs } := by
  unfold pausedRun
  split
  · exact ⟨_, rfl⟩
  · exact ⟨_, rfl⟩

/-- A run that pauses keeps its sum, and one of the multiplexer all of it (R281). -/
theorem pausedRun_keeps {d : Dev} {c : Nat} {r : SvcRun} (h : (svcCore d c).run = some r) : ∃ z,
    (svcCore (pausedRun d c) c).paused = some z ∧ z.x = r.x ∧ z.sum = r.sum ∧ z.n = r.n ∧ z.settle = r.settle ∧
      (wSfe r.word = none → z = r) := by
  simp only [pausedRun, h, pauseNow, svcCore_setSvcCore]
  refine ⟨_, rfl, ?_⟩
  split
  · next hs => exact ⟨rfl, rfl, rfl, rfl, fun hn => by rw [hn] at hs; exact absurd hs (by decide)⟩
  · exact ⟨rfl, rfl, rfl, rfl, fun _ => rfl⟩

theorem shotStarted_spec {d : Dev} {i : Nat} (hsfe : wSfe (getL d pgSvc (F.SVC_INJ_WORD i)) = none) :
    (shotStarted d i).ticks = d.ticks ∧ (shotStarted d i).svcShots = d.svcShots ∧
      (svcCore (shotStarted d i) (i / 4)).run =
        some ⟨64 + i, 2, getL d pgSvc (F.SVC_INJ_WORD i), 0, 0, 0, none, d.ticks, false, 0, false⟩ ∧
      (svcCore (shotStarted d i) (i / 4)).paused = (svcCore (pausedRun d (i / 4)) (i / 4)).paused ∧
      getR (shotStarted d i) pgSvc F.SVC_SHOT_RUNS = min (getR d pgSvc F.SVC_SHOT_RUNS + 1) (2 ^ 32 - 1) ∧
      (shotStarted d i).evt = d.evt ∧ (shotStarted d i).mem = d.mem := by
  have hcore : svcCore (shotStarted d i) (i / 4) = svcCore (startRun (pausedRun d (i / 4)) (i / 4) (64 + i) 2
    (getL d pgSvc (F.SVC_INJ_WORD i)) false) (i / 4) := svcCore_addC ..
  have hmoves : NextMoves (bump (startRun (pausedRun d (i / 4)) (i / 4) (64 + i) 2 (getL d pgSvc (F.SVC_INJ_WORD i)) false) pgSvc
    F.SVC_SHOT_RUNS) (shotStarted d i) := (NextMoves.refl _).of_svcShow
  obtain ⟨cs, hp⟩ := pausedRun_frame d (i / 4)
  rw [hcore, startRun, svcCore_setSvcCore, hsfe]
  refine ⟨?_, ?_, ?_, rfl, ?_, ?_, ?_⟩
  · rw [hmoves.ticks, bump, addC_ticks, startRun, hp]; rfl
  · rw [shotStarted, hp, bump, addC_eq]; rfl
  · rw [hp]; rfl
  · rw [shotStarted, getR_svcShow (by decide) (by decide), hp]
    exact getR_addC_narrow _ _ _ (by decide)
  · rw [hmoves.evt, bump, addC_evt, startRun, hp]; rfl
  · rw [hmoves.mem, bump, addC_mem, startRun, hp]; rfl

end Sys2Proof.Machine

end

section
/-! PROOFS. The calibration of the service converter's cores: its start, the judging of the new values, the end of a pass, and
the statement on entries and calibration together (R263–R265, R275–R284). -/

namespace Sys2Proof.Machine

open Sys2Proof

section
variable {s : State} {c : Nat} (t : Nat)

theorem gives_svcCalStart (hc : c < 2) (hs : Awake s) : Gives (.svcCalStart t c) s (doSvcCalStart t c s.dev) :=
  gives_of_act rfl (decide_eq_true hc) hs

theorem gives_svcCalDone (m : SvcMeas) (ok : Bool) (hc : c < 2) (hs : Awake s) :
    Gives (.svcCalDone t c m ok) s (doSvcCalDone t c m.ofs m.trim ok s.dev) := gives_of_act rfl (decide_eq_true hc) hs

end

/-! ### A core starts to calibrate (R284) -/

theorem calBit_width (c : Nat) : (calBit c).width = 1 := by unfold calBit; split <;> rfl

theorem key_state_ne_calBit (c : Nat) : key pgSvc cSTATE ≠ key pgSvc (calBit c) ∧ key pgSfe cSTATE ≠ key pgSvc (calBit c) := by
  unfold calBit; split <;> decide

theorem loopCalHold_frame (d : Dev) (c : Nat) : ∃ l, loopCalHold d c = { d with loops := l } := by
  refine foldl_rel (R := fun a b => ∃ l, b = { a with loops := l }) (fun a => ⟨a.loops, rfl⟩)
    (by rintro a _ _ ⟨_, rfl⟩ ⟨_, rfl⟩; exact ⟨_, rfl⟩) (fun a k _ => ?_) d
  extract_lets l x core
  split
  · exact ⟨_, rfl⟩
  · exact ⟨_, rfl⟩

theorem injBusy_iff (d : Dev) (c : Nat) : injBusy d c = false ↔
    (svcCore d c).waiting = [] ∧ ∀ r, (svcCore d c).run = some r → r.kind = 0 := by
  unfold injBusy
  cases h : (svcCore d c).run with
  | none => simp [h]
  | some r => simp [h]

/-- Core `c` has no run in progress: a regular one is aborted. -/
def calCleared (d : Dev) (c : Nat) : Dev := if (svcCore d c).run.isSome then abortRegular d c else d

/-- What core `c` calibrating from now on shows; its run has ended, and no entry waits on it. -/
def calBegun (d : Dev) (c : Nat) : Dev :=
  svcShow (loopCalHold (raise (setR (setSvcCal (setSvcCore d c { svcCore d c with waiting := [] })
    { d.svcCal with run := c + 1, coreAt_ := d.ticks }) pgSvc (calBit c) 1) pgSvc 10) c)

/-- A core without an injected entry calibrates at once; a regular run is aborted. -/
theorem svcCalBegin_eq {d : Dev} {c : Nat} (h : injBusy d c = false) :
    svcCalBegin d c = calBegun (calCleared d c) c := by
  obtain ⟨hwait, hkind⟩ := (injBusy_iff d c).1 h
  unfold svcCalBegin
  extract_lets y e1 ws z e2 x e3
  have h1 : e1 = calCleared d c := by
    simp only [e1, y, calCleared]
    cases hrun : (svcCore d c).run with
    | none => rfl
    | some r => exact if_pos (hkind r hrun)
  have hws : ws = [] := by
    simp only [ws, h1, calCleared]
    split
    · simp only [abortRegular, bump, svcCore_addC, svcCore_setSvcCore, hwait]
    · exact hwait
  have h2 : e2 = setSvcCore (calCleared d c) c { svcCore (calCleared d c) c with waiting := [] } := by
    simp only [e2, hws, List.foldl_nil, z, h1]
  simp only [e3, x, h2]
  rfl

theorem calCleared_spec (d : Dev) (c : Nat) : (svcCore (calCleared d c) c).run = none ∧ (calCleared d c).svcRec = d.svcRec ∧
    (calCleared d c).mem = d.mem := by
  unfold calCleared
  split
  · exact ⟨by rw [abortRegular, bump, svcCore_addC, svcCore_setSvcCore], addC_svcRec .., addC_mem ..⟩
  · next h => exact ⟨by simpa using h, rfl, rfl⟩

theorem calBegun_spec (d : Dev) (c : Nat) : (calBegun d c).svcCal.run = c + 1 ∧ flagR (calBegun d c) pgSvc (calBit c) = true ∧
    (svcCore (calBegun d c) c).run = (svcCore d c).run ∧ (evtRaw (calBegun d c) pgSvc).testBit 10 = true ∧
    (calBegun d c).svcRec = d.svcRec ∧ (calBegun d c).mem = d.mem := by
  unfold calBegun
  generalize he : setSvcCal (setSvcCore d c { svcCore d c with waiting := [] })
    { d.svcCal with run := c + 1, coreAt_ := d.ticks } = e
  have hcore : svcCore e c = { svcCore d c with waiting := [] } := by rw [← he]; exact svcCore_setSvcCore ..
  obtain ⟨l, hl⟩ := loopCalHold_frame (raise (setR e pgSvc (calBit c) 1) pgSvc 10) c
  have hshow := (NextMoves.refl (loopCalHold (raise (setR e pgSvc (calBit c) 1) pgSvc 10) c)).of_svcShow
  obtain ⟨hs1, hs2⟩ := key_state_ne_calBit c
  refine ⟨?_, ?_, ?_, ?_, ?_, ?_⟩
  · rw [hshow.svcCal, hl, ← he]; rfl
  · rw [flagR, getR_svcShow hs1 hs2, hl]
    change (getR (setR e pgSvc (calBit c) 1) pgSvc (calBit c) == 1) = true
    rw [getR_setR_self, calBit_width]
    rfl
  · have hloops : svcCore (loopCalHold (raise (setR e pgSvc (calBit c) 1) pgSvc 10) c) c = svcCore e c := by rw [hl]; rfl
    rw [svcCore_svcShow, hloops, hcore]
  · rw [evtRaw, hshow.evt, hl]
    exact raise_bit (setR e pgSvc (calBit c) 1) pgSvc 10
  · rw [hshow.svcRec, hl, ← he]; rfl
  · rw [hshow.mem, hl, ← he]; rfl

theorem doSvcCalStart_none {d : Dev} {c : Nat} (t : Nat) (h : svcAsked (advance d t) c = none) :
    doSvcCalStart t c d = advance d t := by simp [doSvcCalStart, h]

/-- The device as a pass begins: on core 0 the pass is opened. -/
def passOpened (d : Dev) (c : Nat) : Dev :=
  if c = 1 then d
  else setSvcCal d { d.svcCal with
    startAt := d.ticks, runForced := d.svcCal.forced, causes := d.svcCal.want, want := [],
    stale := [isCal d pgSvc 0, isCal d pgSvc 1], accN := 0, rejN := 0 }

/-- A core that may, and on which no injected entry runs or waits, starts to calibrate. -/
theorem doSvcCalStart_begins {d : Dev} {c a : Nat} (t : Nat) (h : svcAsked (advance d t) c = some a)
    (hbusy : injBusy d c = false) :
    doSvcCalStart t c d = calBegun (calCleared (passOpened (advance d t) c) c) c := by
  have hbusy' : injBusy (advance d t) c = false := hbusy
  have hopen : injBusy (passOpened (advance d t) c) c = false := by unfold passOpened; split <;> exact hbusy
  rw [← svcCalBegin_eq hopen]
  simp [doSvcCalStart, h, hbusy']
  rfl

/-! ### The new values are judged (R263, R283) -/

/-- A value within its range and not too far from the live one passes. -/
theorem svcLimit_within {lo hi step v live : Int} (was : Bool) (hlo : lo ≤ v) (hhi : v ≤ hi) (hstep : (v - live).natAbs ≤ step) :
    svcLimit lo hi step was v live = none := by
  rw [svcLimit, if_neg (by omega), if_neg (fun h => absurd h.2 (by omega))]

theorem svcLimit_above {lo hi step v live : Int} (was : Bool) (h : hi < v) : svcLimit lo hi step was v live = some 0 :=
  if_pos (.inr h)

/-- The verdicts on OFS and TRIM of core `c`. -/
def ofsVerdict (d : Dev) (c : Nat) (ofs : Int) : Option Nat :=
  svcLimit (-16384) 16384 2048 (d.svcCal.stale.getD c false) ofs (getS d pgSvc (F.SVC_OFS c))
def trimVerdict (d : Dev) (c : Nat) (trim : Int) : Option Nat :=
  svcLimit 498074 550502 5242 (d.svcCal.stale.getD c false) trim (getR d pgSvc (F.SVC_TRIM c))

theorem svcJudge_accepts {d : Dev} {c : Nat} {ofs trim : Int} (hofs : ofsVerdict d c ofs = none)
    (htrim : trimVerdict d c trim = none) : svcJudge d c ofs trim =
      setSvcCal (setCal (setS (setS d pgSvc (F.SVC_OFS c) ofs) pgSvc (F.SVC_TRIM c) trim) pgSvc c false)
        { d.svcCal with accN := d.svcCal.accN + 1 } := by
  unfold ofsVerdict at hofs
  unfold trimVerdict at htrim
  simp only [svcJudge, hofs, htrim]
  rfl

/-- The entries `lo` are made. -/
def logged (d : Dev) (lo : List LedgerEntry) : Dev := { d with ledgerOut := d.ledgerOut ++ lo }

/-- A core with a value that fails changes no register: each failing value has its entry in the Ledger. -/
theorem svcJudge_rejects {d : Dev} {c : Nat} {ofs trim : Int} (h : ¬(ofsVerdict d c ofs = none ∧ trimVerdict d c trim = none)) :
    ∃ lo, lo ≠ [] ∧ svcJudge d c ofs trim = setSvcCal (logged d lo) { d.svcCal with rejN := d.svcCal.rejN + 1 } := by
  unfold ofsVerdict trimVerdict at h
  unfold svcJudge
  extract_lets x was o k f1 f2 log e1 e2
  change ¬(f1 = none ∧ f2 = none) at h
  have hlog (a : Dev) (coef : Nat) (f : Option Nat) (v live : Int) :
      ∃ lo, log a coef f v live = logged a lo ∧ (f ≠ none → lo ≠ []) := by
    cases f with
    | none => exact ⟨[], by simp [log, logged], fun h => absurd rfl h⟩
    | some l => exact ⟨_, rfl, fun _ => List.cons_ne_nil _ _⟩
  obtain ⟨l1, h1, hne1⟩ := hlog d 1 f1 ofs o
  obtain ⟨l2, h2, hne2⟩ := hlog (log d 1 f1 ofs o) 2 f2 trim k
  have hneg : ¬(f1.isNone && f2.isNone) = true := by simpa using h
  have he2 : e2 = logged d (l1 ++ l2) := by
    change log (log d 1 f1 ofs o) 2 f2 trim k = _
    rw [h2, h1, logged, logged, logged, List.append_assoc]
  refine ⟨l1 ++ l2, fun hnil => ?_, by rw [if_neg hneg, he2]⟩
  obtain ⟨hnil1, hnil2⟩ := List.append_eq_nil_iff.1 hnil
  exact h ⟨by_contra fun hf => hne1 hf hnil1, by_contra fun hf => hne2 hf hnil2⟩

/-! ### A core's calibration has ended (R284) -/

theorem NextMoves.of_svcResume {d e : Dev} (c : Nat) (h : NextMoves d (setR e pgSvc (calBit c) 0)) :
    NextMoves d (svcResume e c) :=
  .of_svcNext (.ite (.of_startScan (h.of_setSvcCore ..) c) (h.of_setSvcCore ..)) c

theorem doSvcCalDone_not {d : Dev} {c : Nat} (t : Nat) (ofs : Int) (trim : Nat) (ok : Bool) (h : svcCaling d c = false) :
    doSvcCalDone t c ofs trim ok d = advance d t := by
  have h' : svcCaling (advance d t) c = false := h
  simp [doSvcCalDone, h']

/-- The device once core `c`'s new values are judged: its turn has ended, core 1's, or none, is next. -/
def turnEnded (d : Dev) (c : Nat) (ofs : Int) (trim : Nat) : Dev :=
  setSvcCal (svcJudge d c ofs trim)
    { (svcJudge d c ofs trim).svcCal with run := if c = 0 then 3 else 0, coreAt_ := (svcJudge d c ofs trim).ticks }

theorem doSvcCalDone_ends {d : Dev} {c : Nat} (t : Nat) (ofs : Int) (trim : Nat) (ok : Bool) (h : svcCaling d c = true) :
    doSvcCalDone t c ofs trim ok d =
      if c = 0 then svcResume (turnEnded (advance d t) c ofs trim) c
      else svcPassEnd (svcResume (turnEnded (advance d t) c ofs trim) c) ok := by
  have h' : svcCaling (advance d t) c = true := h
  simp only [doSvcCalDone, h']
  rfl

/-! ### The end of the pass (R263–R265, R270) -/

/-- A key outside the range that is cleared reads as before. -/
theorem Store.get_clearRange {α : Type} (t : Store α) (a : α) {lo hi k : Nat} (h : k < lo ∨ hi ≤ k) :
    Store.get (Store.clearRange t lo hi) a k = Store.get t a k := by
  have hfind : Store.find (Store.clearRange t lo hi) k = Store.find t k := by
    induction t with
    | nil => rfl
    | cons e r ih =>
      by_cases he : e.1 = k
      · have hkeep : (decide (e.1 < lo) || decide (hi ≤ e.1)) = true := by simpa [he] using h
        rw [Store.clearRange, List.filter_cons, if_pos hkeep]
        simp [Store.find, he]
      · rw [Store.clearRange] at ih ⊢
        rw [List.filter_cons]
        split
        · simp only [Store.find, he, if_false, ih]
        · simp only [Store.find, he, if_false, ih]
  rw [Store.get, hfind, ← Store.get]

/-- From `d` to `e` the calibration's turn, PASSES and CAL1 of page SVC are as they were, and no entry of the Ledger and no event
of the page is taken back. -/
structure PassMoves (d e : Dev) : Prop where
  run : e.svcCal.run = d.svcCal.run
  passes : getR e pgSvc F.SVC_PASSES = getR d pgSvc F.SVC_PASSES
  cal1 : getR e pgSvc F.SVC_CAL1 = getR d pgSvc F.SVC_CAL1
  ledger : d.ledgerOut.length ≤ e.ledgerOut.length
  evt : ∀ b, (evtRaw d pgSvc).testBit b = true → (evtRaw e pgSvc).testBit b = true

namespace PassMoves

variable {d e : Dev}

theorem refl (d : Dev) : PassMoves d d := ⟨rfl, rfl, rfl, le_refl _, fun _ h => h⟩

theorem trans {a b c : Dev} (h : PassMoves a b) (g : PassMoves b c) : PassMoves a c := by
  obtain ⟨hr, hp, hc, hl, he⟩ := h
  obtain ⟨gr, gp, gc, gl, ge⟩ := g
  exact ⟨gr.trans hr, gp.trans hp, gc.trans hc, le_trans hl gl, fun b hb => ge b (he b hb)⟩

theorem setR (h : PassMoves d e) {p : Nat} {f : Fld} (v : Nat) (hp : key p f ≠ key pgSvc F.SVC_PASSES)
    (hc : key p f ≠ key pgSvc F.SVC_CAL1) : PassMoves d (setR e p f v) :=
  h.trans ⟨rfl, getR_setR_ne e v hp, getR_setR_ne e v hc, le_refl _, fun _ hb => hb⟩

theorem bump (h : PassMoves d e) {p : Nat} {f : Fld} (hp : key p f ≠ key pgSvc F.SVC_PASSES)
    (hc : key p f ≠ key pgSvc F.SVC_CAL1) : PassMoves d (bump e p f) := by
  rw [Machine.bump, addC_eq]; exact h.setR _ hp hc

theorem raise (h : PassMoves d e) (p b : Nat) : PassMoves d (raise e p b) :=
  h.trans ⟨rfl, rfl, rfl, le_refl _, fun i hi => raise_mono e p b pgSvc i hi⟩

theorem ledgerNow (h : PassMoves d e) (k ln pt : Nat) (l : List Nat) : PassMoves d (ledgerNow e k ln pt l) :=
  h.trans ⟨rfl, rfl, rfl, by simp [Machine.ledgerNow, ledgerAt], fun _ hb => hb⟩

theorem setSvcCal (h : PassMoves d e) {x : SvcCalSt} (hx : x.run = e.svcCal.run) : PassMoves d (setSvcCal e x) :=
  h.trans ⟨hx, rfl, rfl, le_refl _, fun _ hb => hb⟩

theorem ite {a b : Dev} {c : Prop} [Decidable c] (ha : PassMoves d a) (hb : PassMoves d b) :
    PassMoves d (if c then a else b) := by split <;> assumption

/-! Jobs lie on page PACE. -/

/-- The registers of entry `n` of the job board. -/
def jobFields (n : Nat) : List Fld :=
  [F.PACE_J_OWNER n, F.PACE_J_LINE n, F.PACE_J_CLASS n, F.PACE_J_FORCED n, F.PACE_J_RUNNING n, F.PACE_J_VALID n, F.PACE_J_COST n,
   F.PACE_J_DUR n, F.PACE_J_DEADLINE n]

theorem setR_job (h : PassMoves d e) {n : Nat} (hn : n < 48) (f : Fld) (v : Nat) (hf : f ∈ jobFields n) :
    PassMoves d (Machine.setR e pgPace f v) := by
  have hlt : ∀ n < 48, ∀ f ∈ jobFields n, fldAt f < 131072 := by decide
  have hf' := hlt n hn f hf
  exact h.setR v (key_ne_page (by decide) hf' (by decide)) (key_ne_page (by decide) hf' (by decide))

theorem lt_of_jobEntry {o n : Nat} (h : jobEntry d o = some n) : n < 48 := List.mem_range.1 (List.mem_of_find?_eq_some h)

theorem forceEntry (h : PassMoves d e) {n : Nat} (hn : n < 48) (cause : Nat) : PassMoves d (forceEntry e n cause) := by
  have h1 := h.setR_job hn (F.PACE_J_FORCED n) 1 (by simp [jobFields])
  exact .ite h (((h1.bump (by decide) (by decide)).raise ..).ledgerNow ..)

theorem forceJob (h : PassMoves d e) (o : Nat) : PassMoves d (forceJob e o) := by
  unfold Machine.forceJob
  split
  · next n hn => exact h.forceEntry (lt_of_jobEntry hn) 1
  · exact h

theorem fillJob (h : PassMoves d e) {n : Nat} (hn : n < 48) (own ln cls cost dur dl : Nat) :
    PassMoves d (fillJob e n own ln cls cost dur dl) := by
  unfold Machine.fillJob
  iterate 9 refine setR_job ?_ hn _ _ (by simp [jobFields])
  exact h

theorem jobOwner (h : PassMoves d e) (l : Store Nat) : PassMoves d { e with jobOwner := l } :=
  h.trans ⟨rfl, rfl, rfl, le_refl _, fun _ hb => hb⟩

theorem postJob (h : PassMoves d e) (o cost dur dl : Nat) : PassMoves d (postJob e o cost dur dl) := by
  unfold Machine.postJob
  split
  · exact h
  · split
    · exact h
    · next n hn =>
      exact (h.fillJob (List.mem_range.1 (List.mem_of_find?_eq_some hn)) (ownType o) (ownLine o) 2 cost dur dl).jobOwner _

/-- Freeing an entry clears registers of page PACE only. -/
theorem freeEntry (h : PassMoves d e) {n : Nat} (hn : n < 48) : PassMoves d (freeEntry e n) := by
  have hkeep (f : Fld) : getR (Machine.freeEntry e n) pgSvc f = getR e pgSvc f := by
    refine Store.get_clearRange _ _ (.inr ?_)
    rw [key_eq, key_eq]
    simp only [pgPace, pgSvc, fldAt]
    omega
  exact h.trans ⟨rfl, hkeep _, hkeep _, le_refl _, fun _ hb => hb⟩

theorem freeJob (h : PassMoves d e) (o : Nat) : PassMoves d (freeJob e o) := by
  unfold Machine.freeJob
  split
  · next n hn => exact h.freeEntry (lt_of_jobEntry hn)
  · exact h

/-! The conditions, the record and DEGRADED. -/

theorem svcEval (h : PassMoves d e) : PassMoves d (svcEval e) := by
  unfold Machine.svcEval
  extract_lets x from_ el s timer dt dr hot old due dueAt late forced tb dueAt' e1 per
  have h1 : PassMoves d e1 := h.setSvcCal rfl
  clear_value dueAt'
  refine .ite h ?_
  split
  · exact h1.freeJob _
  · extract_lets dl e2
    have h2 : PassMoves d e2 := h1.postJob ..
    exact .ite (h2.forceJob _) h2

theorem svcStore (h : PassMoves d e) (ok : Bool) : PassMoves d (svcStore e ok) := by
  unfold Machine.svcStore
  extract_lets k e1
  have h1 : PassMoves d e1 := h.trans ⟨rfl, rfl, rfl, le_refl _, fun _ hb => hb⟩
  exact .ite h1 (h1.ledgerNow ..)

theorem svcDegrade (h : PassMoves d e) (on : Bool) : PassMoves d (svcDegrade e on) := by
  unfold Machine.svcDegrade
  extract_lets e1
  have h0 : PassMoves d (Machine.setR e pgSvc F.SVC_DEGRADED (b2n on)) := h.setR _ (by decide) (by decide)
  have h1 : PassMoves d e1 := .ite (h0.raise ..) h0
  exact h1.ledgerNow ..

theorem svcJudge (h : PassMoves d e) {c : Nat} (hc : c < 2) (ofs trim : Int) : PassMoves d (svcJudge e c ofs trim) := by
  by_cases hok : ofsVerdict e c ofs = none ∧ trimVerdict e c trim = none
  · have hkeys : ∀ c < 2, ∀ f ∈ [F.SVC_OFS c, F.SVC_TRIM c], ∀ g ∈ [F.SVC_PASSES, F.SVC_CAL1], key pgSvc f ≠ key pgSvc g := by
      decide
    have hofs := hkeys c hc (F.SVC_OFS c) (by simp)
    have htrim := hkeys c hc (F.SVC_TRIM c) (by simp)
    have hset := (h.setR (ux 16 ofs) (hofs _ (by simp)) (hofs _ (by simp)))
      |>.setR (ux 20 trim) (htrim _ (by simp)) (htrim _ (by simp))
    rw [svcJudge_accepts hok.1 hok.2]
    exact hset.trans ⟨rfl, rfl, rfl, le_refl _, fun _ hb => hb⟩
  · obtain ⟨lo, -, hj⟩ := svcJudge_rejects hok
    rw [hj]
    exact h.trans ⟨rfl, rfl, rfl, by simp [Machine.setSvcCal, logged], fun _ hb => hb⟩

end PassMoves

/-- The end of a pass is counted, raises CAL_DONE or CAL_REJECTED and enters the Ledger. -/
theorem svcPassEnd_spec {d : Dev} (hrun : d.svcCal.run = 0) (ok : Bool) :
    PassMoves (bump d pgSvc F.SVC_PASSES) (svcPassEnd d ok) ∧ d.ledgerOut.length < (svcPassEnd d ok).ledgerOut.length ∧
      ((evtRaw (svcPassEnd d ok) pgSvc).testBit 11 = true ∨ (evtRaw (svcPassEnd d ok) pgSvc).testBit 12 = true) := by
  have hbump : (bump d pgSvc F.SVC_PASSES).svcCal.run = 0 ∧ (bump d pgSvc F.SVC_PASSES).ledgerOut = d.ledgerOut := by
    rw [bump, addC_eq]; exact ⟨hrun, rfl⟩
  obtain ⟨hrun0, hledger0⟩ := hbump
  unfold svcPassEnd
  extract_lets x e0 a1 a2 a3 b1 b2 keep at_ b3 e1 e2
  have ha : PassMoves e0 a2 ∧ PassMoves a2 a3 :=
    ⟨(((PassMoves.refl e0).setR _ (by decide) (by decide)).setR _ (by decide) (by decide)).raise pgSvc 11,
      ((PassMoves.refl a2).setR _ (by decide) (by decide)).setSvcCal hrun0.symm⟩
  have hb : PassMoves e0 b1 ∧ PassMoves b1 b3 :=
    ⟨((PassMoves.refl e0).bump (by decide) (by decide)).raise pgSvc 12,
      ((PassMoves.refl b1).setR _ (by decide) (by decide)).setSvcCal
        (by rw [← hrun0]; simp only [b1, bump, addC_eq]; rfl)⟩
  have hverdict : PassMoves e0 e1 ∧ ((evtRaw e1 pgSvc).testBit 11 = true ∨ (evtRaw e1 pgSvc).testBit 12 = true) := by
    have h11 : (evtRaw a2 pgSvc).testBit 11 = true := raise_bit ..
    have h12 : (evtRaw b1 pgSvc).testBit 12 = true := raise_bit ..
    have hacc : PassMoves a2 (onlyIf (flagR a3 pgSvc F.SVC_DEGRADED) (fun d => svcDegrade d false) a3) :=
      .ite (ha.2.svcDegrade false) ha.2
    have hrej : PassMoves b1 (onlyIf (decide (3 ≤ getR b3 pgSvc F.SVC_REJECT_RUN) && !flagR b3 pgSvc F.SVC_DEGRADED)
        (fun d => svcDegrade d true) b3) := .ite (hb.2.svcDegrade true) hb.2
    by_cases hx : x.rejN = 0
    · rw [show e1 = _ from if_pos hx]
      exact ⟨ha.1.trans hacc, .inl (hacc.evt 11 h11)⟩
    · rw [show e1 = _ from if_neg hx]
      exact ⟨hb.1.trans hrej, .inr (hrej.evt 12 h12)⟩
  obtain ⟨hmoves, hevt⟩ := hverdict
  have hrest : PassMoves e2 (svcEval (onlyIf (decide (0 < x.accN)) (fun d => svcStore d ok) (freeJob e2 ownSVC))) := by
    have hfree := (PassMoves.refl e2).freeJob ownSVC
    exact .svcEval (.ite (hfree.svcStore ok) hfree)
  have hlogged : PassMoves e1 e2 := (PassMoves.refl e1).ledgerNow ..
  have hstrict : e2.ledgerOut.length = e1.ledgerOut.length + 1 := by simp [e2, ledgerNow, ledgerAt]
  clear_value e2 e1
  refine ⟨(hmoves.trans hlogged).trans hrest, ?_, hevt.imp (fun h => ?_) (fun h => ?_)⟩
  · have h1 := hmoves.ledger
    have h2 := hrest.ledger
    rw [hledger0] at h1
    omega
  · exact hrest.evt 11 (hlogged.evt 11 h)
  · exact hrest.evt 12 (hlogged.evt 12 h)

/-! ### A turn and the sequence that goes on (R284) -/

section
variable {d : Dev} {c : Nat} {ofs trim : Int}

/-- Values that pass become live, and the core is CAL_STALE no longer. -/
theorem turnEnded_accepts {trim : Nat} (hofs : ofsVerdict d c ofs = none) (htrim : trimVerdict d c trim = none) :
    ∃ x, x.run = (if c = 0 then 3 else 0) ∧ turnEnded d c ofs trim =
      setSvcCal (setCal (setS (setS d pgSvc (F.SVC_OFS c) ofs) pgSvc (F.SVC_TRIM c) trim) pgSvc c false) x := by
  rw [turnEnded, svcJudge_accepts hofs htrim]
  exact ⟨_, rfl, rfl⟩

theorem turnEnded_rejects {trim : Nat} (h : ¬(ofsVerdict d c ofs = none ∧ trimVerdict d c trim = none)) :
    ∃ x lo, x.run = (if c = 0 then 3 else 0) ∧ lo ≠ [] ∧ turnEnded d c ofs trim = setSvcCal (logged d lo) x := by
  obtain ⟨lo, hne, hj⟩ := svcJudge_rejects h
  rw [turnEnded, hj]
  exact ⟨_, lo, rfl, hne, rfl⟩

theorem svcResume_moves (d : Dev) (c : Nat) : NextMoves (setR d pgSvc (calBit c) 0) (svcResume d c) :=
  .of_svcResume c (.refl _)

theorem getR_svcResume {f : Fld} (hc : key pgSvc (calBit c) ≠ key pgSvc f)
    (hf : ∀ y ∈ nextFields, key y.1 y.2 ≠ key pgSvc f) : getR (svcResume d c) pgSvc f = getR d pgSvc f :=
  ((svcResume_moves d c).regs _ _ hf).trans (getR_setR_ne d 0 hc)

/-- The core's status bit clears. -/
theorem flagR_svcResume (hc : c < 2) : flagR (svcResume d c) pgSvc (calBit c) = false := by
  have hkeys : ∀ c < 2, ∀ y ∈ nextFields, key y.1 y.2 ≠ key pgSvc (calBit c) := by decide
  rw [flagR, (svcResume_moves d c).regs _ _ (hkeys c hc), getR_setR_self]
  simp

end

/-- Core 0's turn with values that pass. -/
theorem firstTurn_accepts {d : Dev} {ofs : Int} {trim : Nat} (hlo : -16384 ≤ ofs) (hhi : ofs ≤ 16384) (htrim : trim ≤ 550502)
    (hofs : ofsVerdict d 0 ofs = none) (hverdict : trimVerdict d 0 trim = none) :
    getS (svcResume (turnEnded d 0 ofs trim) 0) pgSvc (F.SVC_OFS 0) = ofs ∧
      getR (svcResume (turnEnded d 0 ofs trim) 0) pgSvc (F.SVC_TRIM 0) = trim ∧
      isCal (svcResume (turnEnded d 0 ofs trim) 0) pgSvc 0 = false ∧
      (svcResume (turnEnded d 0 ofs trim) 0).svcCal.run = 3 ∧ (svcResume (turnEnded d 0 ofs trim) 0).mem = d.mem := by
  obtain ⟨x, hx, hturn⟩ := turnEnded_accepts hofs hverdict
  have hmoves := svcResume_moves (turnEnded d 0 ofs trim) 0
  rw [getS, getR_svcResume (by decide) (by decide), getR_svcResume (by decide) (by decide), isCal, hmoves.unitCal, hmoves.svcCal,
    hmoves.mem, hturn]
  refine ⟨?_, ?_, isCal_setCal (setS (setS d pgSvc (F.SVC_OFS 0) ofs) pgSvc (F.SVC_TRIM 0) trim) pgSvc 0 false, hx, rfl⟩
  · change sx 16 (getR (setS (setS d pgSvc (F.SVC_OFS 0) ofs) pgSvc (F.SVC_TRIM 0) trim) pgSvc (F.SVC_OFS 0)) = ofs
    rw [setS, getR_setR_ne _ _ (by decide), setS, getR_setR_self]
    exact sx_ux (by omega) (by omega)
  · change getR (setS (setS d pgSvc (F.SVC_OFS 0) ofs) pgSvc (F.SVC_TRIM 0) trim) pgSvc (F.SVC_TRIM 0) = trim
    rw [setS, getR_setR_self]
    change ux 20 (trim : Int) % 2 ^ 20 = trim
    unfold ux
    omega

/-- Core 0's turn with a value that fails. -/
theorem firstTurn_rejects {d : Dev} {ofs : Int} {trim : Nat}
    (h : ¬(ofsVerdict d 0 ofs = none ∧ trimVerdict d 0 trim = none)) :
    getR (svcResume (turnEnded d 0 ofs trim) 0) pgSvc (F.SVC_OFS 0) = getR d pgSvc (F.SVC_OFS 0) ∧
      getR (svcResume (turnEnded d 0 ofs trim) 0) pgSvc (F.SVC_TRIM 0) = getR d pgSvc (F.SVC_TRIM 0) ∧
      isCal (svcResume (turnEnded d 0 ofs trim) 0) pgSvc 0 = isCal d pgSvc 0 ∧
      (svcResume (turnEnded d 0 ofs trim) 0).svcCal.run = 3 ∧
      d.ledgerOut.length < (svcResume (turnEnded d 0 ofs trim) 0).ledgerOut.length ∧
      (svcResume (turnEnded d 0 ofs trim) 0).mem = d.mem := by
  obtain ⟨x, lo, hx, hne, hturn⟩ := turnEnded_rejects h
  have hmoves := svcResume_moves (turnEnded d 0 ofs trim) 0
  rw [getR_svcResume (by decide) (by decide), getR_svcResume (by decide) (by decide), isCal, hmoves.unitCal, hmoves.svcCal,
    hmoves.mem, hmoves.ledgerOut, hturn]
  refine ⟨rfl, rfl, rfl, hx, ?_, rfl⟩
  change d.ledgerOut.length < (d.ledgerOut ++ lo).length
  have hpos := List.length_pos_iff.2 hne
  rw [List.length_append]
  omega

/-- Core 1's turn ends the pass. -/
theorem lastTurn_ends (d : Dev) (ofs : Int) (trim : Nat) (ok : Bool) :
    (svcPassEnd (svcResume (turnEnded d 1 ofs trim) 1) ok).svcCal.run = 0 ∧
      flagR (svcPassEnd (svcResume (turnEnded d 1 ofs trim) 1) ok) pgSvc F.SVC_CAL1 = false ∧
      getR (svcPassEnd (svcResume (turnEnded d 1 ofs trim) 1) ok) pgSvc F.SVC_PASSES =
        min (getR d pgSvc F.SVC_PASSES + 1) (2 ^ 32 - 1) ∧
      d.ledgerOut.length < (svcPassEnd (svcResume (turnEnded d 1 ofs trim) 1) ok).ledgerOut.length ∧
      ((evtRaw (svcPassEnd (svcResume (turnEnded d 1 ofs trim) 1) ok) pgSvc).testBit 11 = true ∨
        (evtRaw (svcPassEnd (svcResume (turnEnded d 1 ofs trim) 1) ok) pgSvc).testBit 12 = true) := by
  have hjudge := (PassMoves.refl d).svcJudge (c := 1) (by decide) ofs trim
  have hmoves := svcResume_moves (turnEnded d 1 ofs trim) 1
  have hflag : flagR (svcResume (turnEnded d 1 ofs trim) 1) pgSvc F.SVC_CAL1 = false := flagR_svcResume (c := 1) (by decide)
  have hrun : (svcResume (turnEnded d 1 ofs trim) 1).svcCal.run = 0 := by rw [hmoves.svcCal]; rfl
  have hpasses : getR (svcResume (turnEnded d 1 ofs trim) 1) pgSvc F.SVC_PASSES = getR d pgSvc F.SVC_PASSES :=
    (getR_svcResume (by decide) (by decide)).trans hjudge.passes
  have hledger : d.ledgerOut.length ≤ (svcResume (turnEnded d 1 ofs trim) 1).ledgerOut.length := by
    rw [hmoves.ledgerOut]; exact hjudge.ledger
  generalize svcResume (turnEnded d 1 ofs trim) 1 = e at *
  obtain ⟨hend, hlt, hevt⟩ := svcPassEnd_spec hrun ok
  refine ⟨?_, ?_, ?_, lt_of_le_of_lt hledger hlt, hevt⟩
  · rw [hend.run, bump, addC_eq]; exact hrun
  · rw [flagR, hend.cal1, bump, addC_eq, getR_setR_ne _ _ (by decide)]; exact hflag
  · rw [hend.passes, bump, getR_addC_narrow _ _ _ (by decide), hpasses]
    rfl

end Sys2Proof.Machine

end

section
/-! PROOFS. The statement on entries and calibration of the service converter, clause by clause (R263, R275–R284). -/

namespace Sys2Proof.Machine

open Sys2Proof

/-! ### Entries -/

section
variable {s : State} {t c : Nat} {r : SvcRun} (raw : Int)

theorem goesOn_spec (d : Dev) (c : Nat) (r : SvcRun) : (svcCore (svcShow (running d c r)) c).run = some r ∧
    (svcShow (running d c r)).ticks = d.ticks ∧ (svcShow (running d c r)).svcRec = d.svcRec ∧
    (svcShow (running d c r)).evt = d.evt ∧ (svcShow (running d c r)).mem = d.mem := by
  rw [svcCore_svcShow, running, svcCore_setSvcCore]
  exact ⟨rfl, rfl, rfl, rfl, rfl⟩

variable (hc : c < 2) (hs : Awake s) (hr : (svcCore s.dev c).run = some r) (hw : wSfe r.word = none)
include hc hs hr hw

theorem does_conversion_settles (h : 0 < r.settle)
    (hfree : r.kind = 0 → shotNear (advance s.dev (max t (r.at_ + 50))) c false = false) :
    Does (.svcConversion t c raw) s (fun d => d.svcRec = s.dev.svcRec ∧ r.at_ + 50 ≤ d.ticks ∧
      (svcCore d c).run = some { r with settle := r.settle - 1, at_ := d.ticks } ∧ d.evt = s.dev.evt ∧ d.mem = s.dev.mem) := by
  have hnext := doConversion_runs t raw hr hw
  rw [cycleEnd_settles raw h, svcNext_goesOn (d := advance s.dev (max t (r.at_ + 50)))
    (r := { r with settle := r.settle - 1, at_ := (advance s.dev (max t (r.at_ + 50))).ticks }) hfree] at hnext
  refine does_of_gives ((gives_svcConversion t raw hc hs).of_eq hnext) ?_
  obtain ⟨hrun, hticks, hrec, hevt, hmem⟩ := goesOn_spec (advance s.dev (max t (r.at_ + 50))) c
    { r with settle := r.settle - 1, at_ := (advance s.dev (max t (r.at_ + 50))).ticks }
  simp only [settle_svcRec, settle_ticks, svcCore_settle, settle_evt, settle_mem, hrun, hticks, hrec, hevt, hmem, true_and]
  exact ⟨rfl, le_trans (le_max_right _ _) (le_max_right _ _), rfl, rfl⟩

theorem does_conversion_adds (h : r.settle = 0) (hn : r.n + 1 ≠ 2 ^ wAvg r.word)
    (hfree : r.kind = 0 → shotNear (advance s.dev (max t (r.at_ + 50))) c false = false) :
    Does (.svcConversion t c raw) s (fun d =>
      (∃ z, (svcCore d c).run = some z ∧ z.sum = r.sum + svcCode s.dev c (wDiff r.word) raw ∧ z.n = r.n + 1 ∧ z.settle = 0 ∧
        z.x = r.x) ∧
      d.svcRec = s.dev.svcRec ∧ d.evt = s.dev.evt ∧ d.mem = s.dev.mem) := by
  have hnext := doConversion_runs t raw hr hw
  rw [cycleEnd_adds raw h hn, svcNext_goesOn (d := advance s.dev (max t (r.at_ + 50)))
    (r := converted (advance s.dev (max t (r.at_ + 50))) c r raw) hfree] at hnext
  refine does_of_gives ((gives_svcConversion t raw hc hs).of_eq hnext) ?_
  obtain ⟨hrun, -, hrec, hevt, hmem⟩ := goesOn_spec (advance s.dev (max t (r.at_ + 50))) c
    (converted (advance s.dev (max t (r.at_ + 50))) c r raw)
  simp only [settle_svcRec, svcCore_settle, settle_evt, settle_mem, hrun, hrec, hevt, hmem]
  exact ⟨⟨_, rfl, rfl, rfl, h, rfl⟩, rfl, rfl, rfl⟩

theorem does_conversion_completes (h : r.settle = 0) (hn : r.n + 1 = 2 ^ wAvg r.word) :
    Does (.svcConversion t c raw) s (fun d => ∃ latest at_,
      svcRecOf d r.x = recorded (svcRecOf s.dev r.x) (fdiv (r.sum + svcCode s.dev c (wDiff r.word) raw) (2 ^ wShift r.word))
        latest at_ ∧
      (wAlign r.word = false →
        latest = ux 32 (fdiv (r.sum + svcCode s.dev c (wDiff r.word) raw) (2 ^ wShift r.word))) ∧
      (∀ x, x ≠ r.x → svcRecOf d x = svcRecOf s.dev x) ∧ d.mem = s.dev.mem) := by
  have hnext := doConversion_runs t raw hr hw
  rw [cycleEnd_completes raw h hn] at hnext
  refine does_of_gives ((gives_svcConversion t raw hc hs).of_eq hnext) ?_
  obtain ⟨latest, at_, hrec, hlatest, hne, hmem⟩ := entryResult_spec (advance s.dev (max t (r.at_ + 50))) c
    (converted (advance s.dev (max t (r.at_ + 50))) c r raw)
  have hmoves := ((NextMoves.refl (entryResult (advance s.dev (max t (r.at_ + 50))) c
    (converted (advance s.dev (max t (r.at_ + 50))) c r raw))).of_pauseRun c).of_svcNext c
  have hsame (x : Nat) := congrArg (fun l => Store.get l AccRec.reset x) hmoves.svcRec
  simp only [svcRecOf_settle, settle_mem, hmoves.mem]
  exact ⟨latest, at_, (hsame _).trans hrec, hlatest, fun x hx => (hsame x).trans (hne x hx), hmem⟩

end

section
variable {s : State} {t i : Nat} (hi : i < 8) (hs : Awake s)
include hi hs

theorem does_injGo_starts (hr : Reach s.dev pgSvc) (hctl : isControl s.dev (64 + i) = true)
    (hcal : svcCaling s.dev (i / 4) = false) (hrun : (svcCore s.dev (i / 4)).run = none)
    (hwait : (svcCore s.dev (i / 4)).waiting = []) (hpaused : (svcCore s.dev (i / 4)).paused = none)
    (hshot : shotNear (advance s.dev t) (i / 4) true = false) (hskip : skipCause s.dev (svcWordOf s.dev (64 + i)) = 0) :
    Does (.injGo t (2 ^ i)) s (fun d =>
      (svcCore d (i / 4)).run = some ⟨64 + i, 1, svcWordOf s.dev (64 + i), wSettle (svcWordOf s.dev (64 + i)), 0, 0, none,
        d.ticks, false, 0, ((wSfe (svcWordOf s.dev (64 + i))).map (fun n => flagR s.dev pgSfe (F.SFE_CLAMP n))).getD false⟩ ∧
      (svcCore d (i / 4)).waiting = [] ∧
      getR d pgSvc F.SVC_CONTROL_RUNS = min (getR s.dev pgSvc F.SVC_CONTROL_RUNS + 1) (2 ^ 32 - 1) ∧
      d.evt = s.dev.evt ∧ d.mem = s.dev.mem) := by
  have hcore : entryCore (64 + i) = i / 4 := by simp [entryCore]
  have hgo := (doInjGo_one t hi hr).trans
    (svcControl_starts (d := advance s.dev t) hctl hcore hcal hrun hwait hpaused hshot hskip)
  refine does_of_gives ((gives_injGo t (2 ^ i) hs).of_eq hgo) ?_
  obtain ⟨hrun', hwait', hruns, hticks, hevt, hmem⟩ := controlStarted_spec (advance s.dev t) (i / 4) (64 + i)
  simp only [svcCore_settle, settle_ticks, getR_settle, settle_evt, settle_mem, hrun', hticks, hevt, hmem]
  exact ⟨rfl, hwait', hruns, rfl, rfl⟩

theorem gives_injGo_merges {r : SvcRun} (hr : Reach s.dev pgSvc) (hctl : isControl s.dev (64 + i) = true)
    (hcal : svcCaling s.dev (i / 4) = false) (hrun : (svcCore s.dev (i / 4)).run = some r) (hk : r.kind ≠ 0)
    (hwait : (64 + i) ∈ (svcCore s.dev (i / 4)).waiting) :
    Gives (.injGo t (2 ^ i)) s (bump (advance s.dev t) pgSvc F.SVC_CONTROL_MERGED) := by
  have hcore : entryCore (64 + i) = i / 4 := by simp [entryCore]
  refine (gives_injGo t (2 ^ i) hs).of_eq ((doInjGo_one t hi hr).trans ?_)
  rw [svcControl_waits (d := advance s.dev t) hctl hcore hcal hrun hk]
  exact waitControl_merges (d := advance s.dev t) hwait

theorem does_shotTrigger_converts {a : Nat} (hshots : s.dev.svcShots = [(a, i)]) (hen : flagL s.dev pgSvc (F.SVC_INJ_EN i) = true)
    (hclass : flagL s.dev pgSvc (F.SVC_INJ_CLASS i) = true) (hcal : svcCaling s.dev (i / 4) = false)
    (hres : wReserved (getL s.dev pgSvc (F.SVC_INJ_WORD i)) = false) (hsfe : wSfe (getL s.dev pgSvc (F.SVC_INJ_WORD i)) = none)
    (hk : ∀ r, (svcCore s.dev (i / 4)).run = some r → r.kind = 0) :
    Does (.shotTrigger t i) s (fun d => a ≤ d.ticks ∧ d.svcShots = [] ∧
      (svcCore d (i / 4)).run =
        some ⟨64 + i, 2, getL s.dev pgSvc (F.SVC_INJ_WORD i), 0, 0, 0, none, d.ticks, false, 0, false⟩ ∧
      (∀ r, (svcCore s.dev (i / 4)).run = some r → ∃ z, (svcCore d (i / 4)).paused = some z ∧ z.x = r.x ∧ z.sum = r.sum ∧
        z.n = r.n ∧ z.settle = r.settle ∧ (wSfe r.word = none → z = r)) ∧
      getR d pgSvc F.SVC_SHOT_RUNS = min (getR s.dev pgSvc F.SVC_SHOT_RUNS + 1) (2 ^ 32 - 1) ∧
      d.evt = s.dev.evt ∧ d.mem = s.dev.mem) := by
  have hgo := (doShotTrigger_one (t := t) hi hshots).trans
    (shotRun_converts (d := shotDue s.dev t a) hen hclass hcal hres hsfe hk)
  refine does_of_gives ((gives_shotTrigger t hi hs).of_eq hgo) ?_
  obtain ⟨hticks, hempty, hrun, hpaused, hruns, hevt, hmem⟩ :=
    shotStarted_spec (d := shotDue s.dev t a) hsfe
  simp only [settle_ticks, settle_svcShots, svcCore_settle, getR_settle, settle_evt, settle_mem, hticks, hempty, hrun, hpaused,
    hevt, hmem]
  exact ⟨le_trans (le_max_right _ _) (le_max_right _ _), rfl, rfl,
    fun r h => pausedRun_keeps (d := shotDue s.dev t a) h, hruns, rfl, rfl⟩

end

/-! ### Calibration -/

section
variable {s : State} {t : Nat} {ofs : Int} {trim : Nat} (ok : Bool) (hs : Awake s)
include hs

theorem does_svcCalStart_begins {c a : Nat} (hc : c < 2) (h : svcAsked (advance s.dev t) c = some a)
    (hbusy : injBusy s.dev c = false) : Does (.svcCalStart t c) s (fun d =>
      d.svcCal.run = c + 1 ∧ flagR d pgSvc (calBit c) = true ∧ (svcCore d c).run = none ∧
      (evtRaw d pgSvc).testBit 10 = true ∧ d.svcRec = s.dev.svcRec ∧ d.mem = s.dev.mem) := by
  refine does_of_gives ((gives_svcCalStart t hc hs).of_eq (doSvcCalStart_begins t h hbusy)) ?_
  obtain ⟨hrun, hflag, hcore, hevt, hrec, hmem⟩ := calBegun_spec (calCleared (passOpened (advance s.dev t) c) c) c
  obtain ⟨hcore', hrec', hmem'⟩ := calCleared_spec (passOpened (advance s.dev t) c) c
  have hopen : (passOpened (advance s.dev t) c).svcRec = s.dev.svcRec ∧ (passOpened (advance s.dev t) c).mem = s.dev.mem := by
    unfold passOpened; split <;> exact ⟨rfl, rfl⟩
  simp only [settle_svcCal, flagR, getR_settle, svcCore_settle, evtRaw_settle, settle_svcRec, settle_mem]
  exact ⟨hrun, hflag, hcore.trans hcore', hevt, hrec.trans (hrec'.trans hopen.1), hmem.trans (hmem'.trans hopen.2)⟩

theorem does_svcCalDone_accepts (hcal : svcCaling s.dev 0 = true) (hlo : -16384 ≤ ofs) (hhi : ofs ≤ 16384)
    (htlo : 498074 ≤ trim) (hthi : trim ≤ 550502) (hstep : (ofs - getS s.dev pgSvc (F.SVC_OFS 0)).natAbs ≤ 2048)
    (htstep : ((trim : Int) - (getR s.dev pgSvc (F.SVC_TRIM 0) : Int)).natAbs ≤ 5242) :
    Does (.svcCalDone t 0 ⟨ofs, trim⟩ ok) s (fun d => getS d pgSvc (F.SVC_OFS 0) = ofs ∧ getR d pgSvc (F.SVC_TRIM 0) = trim ∧
      isCal d pgSvc 0 = false ∧ d.svcCal.run = 3 ∧ flagR d pgSvc F.SVC_CAL0 = false ∧ d.mem = s.dev.mem) := by
  refine does_of_gives ((gives_svcCalDone t ⟨ofs, trim⟩ ok (by decide) hs).of_eq
    ((doSvcCalDone_ends t ofs trim ok hcal).trans (if_pos rfl))) ?_
  have hofs : ofsVerdict (advance s.dev t) 0 ofs = none := svcLimit_within _ hlo hhi (Int.ofNat_le.2 hstep)
  have htrim : trimVerdict (advance s.dev t) 0 trim = none :=
    svcLimit_within _ (Int.ofNat_le.2 htlo) (Int.ofNat_le.2 hthi) (Int.ofNat_le.2 htstep)
  obtain ⟨h1, h2, h3, h4, h5⟩ := firstTurn_accepts (d := advance s.dev t) hlo hhi hthi hofs htrim
  have hflag : flagR (svcResume (turnEnded (advance s.dev t) 0 ofs trim) 0) pgSvc F.SVC_CAL0 = false :=
    flagR_svcResume (c := 0) (by decide)
  simp only [getS, getR_settle, isCal_settle, settle_svcCal, flagR, settle_mem]
  exact ⟨h1, h2, h3, h4, hflag, h5⟩

theorem does_svcCalDone_rejects (hcal : svcCaling s.dev 0 = true) (h : 16384 < ofs) :
    Does (.svcCalDone t 0 ⟨ofs, trim⟩ ok) s (fun d =>
      getS d pgSvc (F.SVC_OFS 0) = getS s.dev pgSvc (F.SVC_OFS 0) ∧
      getR d pgSvc (F.SVC_TRIM 0) = getR s.dev pgSvc (F.SVC_TRIM 0) ∧ isCal d pgSvc 0 = isCal s.dev pgSvc 0 ∧
      d.svcCal.run = 3 ∧ s.dev.ledgerOut.length < d.ledgerOut.length ∧ d.mem = s.dev.mem) := by
  refine does_of_gives ((gives_svcCalDone t ⟨ofs, trim⟩ ok (by decide) hs).of_eq
    ((doSvcCalDone_ends t ofs trim ok hcal).trans (if_pos rfl))) ?_
  have hfails : ¬(ofsVerdict (advance s.dev t) 0 ofs = none ∧ trimVerdict (advance s.dev t) 0 trim = none) := fun ⟨hofs, _⟩ =>
    absurd ((svcLimit_above _ h).symm.trans hofs) (by simp)
  obtain ⟨h1, h2, h3, h4, h5, h6⟩ := firstTurn_rejects hfails
  simp only [getS, getR_settle, isCal_settle, settle_svcCal, settle_ledgerOut, settle_mem]
  exact ⟨congrArg (sx 16) h1, h2, h3, h4, h5, h6⟩

theorem does_svcCalDone_endsPass (hcal : svcCaling s.dev 1 = true) :
    Does (.svcCalDone t 1 ⟨ofs, trim⟩ ok) s (fun d => d.svcCal.run = 0 ∧
      flagR d pgSvc F.SVC_CAL1 = false ∧ getR d pgSvc F.SVC_PASSES = min (getR s.dev pgSvc F.SVC_PASSES + 1) (2 ^ 32 - 1) ∧
      s.dev.ledgerOut.length < d.ledgerOut.length ∧
      ((evtRaw d pgSvc).testBit 11 = true ∨ (evtRaw d pgSvc).testBit 12 = true)) := by
  refine does_of_gives ((gives_svcCalDone t ⟨ofs, trim⟩ ok (by decide) hs).of_eq
    ((doSvcCalDone_ends t ofs trim ok hcal).trans (if_neg (by decide)))) ?_
  simp only [settle_svcCal, flagR, getR_settle, settle_ledgerOut, evtRaw_settle]
  exact lastTurn_ends (advance s.dev t) ofs trim ok

end

end Sys2Proof.Machine

open Sys2Proof Sys2Proof.Machine

/-- Settles O39: a conversion, a scan, a trigger, a SHOT instant and a core's calibration each give the device that the
clause names, or one whose fields are read off it. -/
theorem serviceEntriesConvertAndCoresCalibrate : Obligations.ServiceEntriesConvertAndCoresCalibrate := by
  refine ⟨fun s t c raw hc hs => ?_, fun s t c ofs trim ok hc hs => ?_⟩
  · have hscan := gives_scanStart t hc hs
    intro y
    refine ⟨fun h => (gives_svcConversion t raw hc hs).of_eq (doConversion_idle t raw h), ?_,
      fun h => hscan.of_eq (doScanStart_untimed h), ?_, ?_, ?_,
      fun i hi h => (gives_shotTrigger t hi hs).of_eq (doShotTrigger_none h), ?_⟩
    · intro r hr hw q free code v
      refine ⟨fun h hfree => does_conversion_settles raw hc hs hr hw h hfree,
        fun h hn hfree => does_conversion_adds raw hc hs hr hw h hn hfree, fun h hn => ?_⟩
      obtain ⟨u, hu, hpending, latest, at_, hrec, hlatest, hne, hmem⟩ := does_conversion_completes (t := t) raw hc hs hr hw h hn
      refine ⟨u, hu, hpending, ?_⟩
      simp only [hrec]
      exact ⟨rfl, rfl, rfl, rfl, rfl, hlatest, hne, hmem⟩
    · intro per on d ht
      refine ⟨fun hidle hon hcal => hscan.of_eq (doScanStart_starts ht hidle (scansOn_iff.2 hon) hcal),
        fun hidle hoff => hscan.of_eq (doScanStart_stops ht hidle (by simpa using fun h => hoff (scansOn_iff.1 h))),
        fun hon hcal hdef => hscan.of_eq (doScanStart_defers ht (scansOn_iff.2 hon) hcal hdef),
        fun hbusy hcal => hscan.of_eq (doScanStart_overrun ht hbusy hcal)⟩
    · intro i hi hr h
      refine (gives_injGo t (2 ^ i) hs).of_eq ((doInjGo_one t hi hr).trans ?_)
      exact svcControl_other (d := advance s.dev t) h
    · rintro i hi rfl hr hctl hcal w
      exact ⟨does_injGo_starts hi hs hr hctl hcal, fun r hrun hk hwait => gives_injGo_merges hi hs hr hctl hcal hrun hk hwait⟩
    · rintro i a hi rfl hshots hen hclass w d
      have hshot := (gives_shotTrigger t hi hs).of_eq (doShotTrigger_one (t := t) hi hshots)
      refine ⟨fun hcal => hshot.of_eq (shotRun_calibrating (d := d) hen hclass hcal),
        fun hcal hw => hshot.of_eq (shotRun_skips (d := d) hen hclass hcal hw),
        fun hcal hres hsfe r hrun hk => hshot.of_eq (shotRun_drops (d := d) hen hclass hcal hres hsfe hrun hk),
        fun hcal hres hsfe hk => does_shotTrigger_converts hi hs hshots hen hclass hcal hres hsfe hk⟩
  · refine ⟨fun h => (gives_svcCalStart t hc hs).of_eq (doSvcCalStart_none t h),
      fun a h hbusy => does_svcCalStart_begins hs hc h hbusy,
      fun h => (gives_svcCalDone t ⟨ofs, trim⟩ ok hc hs).of_eq (doSvcCalDone_not t ofs trim ok h),
      fun _ => does_svcCalDone_accepts ok hs, fun _ => does_svcCalDone_rejects ok hs, fun _ => does_svcCalDone_endsPass ok hs⟩

end

section
/-! PROOFS. The machine as a whole: the front command, the idle tick, and commands that complete. -/

namespace Sys2Proof.Machine

open Sys2Proof

theorem step_cons (c : Instr) (s : State) : step { s with pending := c :: s.pending } = exec c s := rfl

theorem step_idle {s : State} (h : s.pending = []) : step s = .next { s with dev := idle s.dev } := by
  simp only [step, h]

/-- A command that is not well-formed is refused. -/
theorem exec_refused {c : Instr} (s : State) (h : c.wf = false) : exec c s = .refused .noSuchUnit := by
  rcases exec_settles c s with ⟨-, he⟩ | ⟨hwf, -⟩ | ⟨hwf, -⟩
  · exact he
  · exact absurd (hwf.symm.trans h) (by decide)
  · exact absurd (hwf.symm.trans h) (by decide)

/-- A well-formed command answers a next state and leaves the queue as it was. -/
theorem exec_completes {c : Instr} (s : State) (h : c.wf = true) : ∃ t, exec c s = .next t ∧ t.pending = s.pending := by
  rcases exec_settles c s with ⟨hwf, -⟩ | ⟨-, -, he⟩ | ⟨-, d, he⟩
  · exact absurd (hwf.symm.trans h) (by decide)
  · exact ⟨s, he, rfl⟩
  · exact ⟨_, he, rfl⟩

/-- A step takes exactly the front of the queue, while what waits there is well-formed. -/
theorem step_takes_front {s : State} (h : QueueWf s) : ∃ t, step s = .next t ∧ t.pending = s.pending.tail := by
  cases hq : s.pending with
  | nil => exact ⟨_, step_idle hq, hq⟩
  | cons c rest =>
    obtain ⟨t, he, ht⟩ := exec_completes { s with pending := rest } (h c (by simp [hq]))
    exact ⟨t, by simpa only [step, hq] using he, ht⟩

theorem queueWf_tail {s t : State} (h : QueueWf s) (ht : t.pending = s.pending.tail) : QueueWf t :=
  fun c hc => h c (List.mem_of_mem_tail (ht ▸ hc))

end Sys2Proof.Machine

open Sys2Proof Sys2Proof.Machine

/-- Settles O1: `step_cons`. -/
theorem stepRunsFrontCommand : Obligations.StepRunsFrontCommand := step_cons

/-- Settles O2: `step_idle`, whose device is the idle one, one tick later. -/
theorem idleStepPassesOneTick : Obligations.IdleStepPassesOneTick := by
  intro s h
  rw [step_idle h, idle, advance, Nat.max_eq_right (Nat.le_succ _)]

/-- Settles O4: a refusal is an ill-formed command's only answer (`exec_refused`), a next state any other's
(`exec_completes`). -/
theorem wellFormedCommandsComplete : Obligations.WellFormedCommandsComplete :=
  fun _ s => ⟨exec_refused s, exec_completes s⟩

/-- Settles O5: a step takes the front command (`step_takes_front`), and the rest of the queue keeps its form
(`queueWf_tail`). -/
theorem wellFormedQueueNeverStops : Obligations.WellFormedQueueNeverStops := by
  intro s h
  obtain ⟨t, hstep, ht⟩ := step_takes_front h
  exact ⟨t, hstep, queueWf_tail h ht, ht⟩

end

section
/-! PROOFS. The served time (R311): why the start of a ZDA sentence can show an output though no sentence starts. -/

namespace Sys2Proof.Machine

open Sys2Proof

/-- `unsettledHold` with a second boundary whose ZDA sentence has not come yet, and with every output off. -/
def unsettledSentence : Dev := { unsettledHold with time := { unsettledHold.time with secDone := 1 } }

theorem gives_todOutStart {s : State} (t : Nat) (hs : Awake s) : Gives (.todOutStart t) s (doTodOut t s.dev) :=
  gives_of_act rfl rfl hs

end Sys2Proof.Machine

open Sys2Proof Sys2Proof.Machine

/-- Refutes O43: its clause on a ZDA sentence wants no output where output 6 does not run, and has no premise that the
interrupt tree is settled (R57). Where it is not, as in `unsettledSentence`, the sentence drives nothing, but the command still
ends with the tree being settled, which sends the message of a vector newly active. (O6 keeps such a state from being reached
from reset.) -/
theorem not_timeIsServed : ¬ Obligations.TimeIsServed := by
  unfold Obligations.TimeIsServed
  intro h
  obtain ⟨-, -, hsentence, -⟩ := h { State.reset with dev := unsettledSentence } 0 0 (by decide) (by decide)
  have hgives := gives_todOutStart (s := { State.reset with dev := unsettledSentence }) 0 (by decide)
  obtain ⟨-, hquiet, -⟩ := hgives.of_does (hsentence (by decide))
  have hout := hquiet (by decide +kernel)
  have hfresh : freshVecs (doTodOut 0 unsettledSentence) = [0] := by decide +kernel
  have hkeep : (doTodOut 0 unsettledSentence).out = unsettledSentence.out := by decide +kernel
  rw [settle_out, hfresh, hkeep] at hout
  exact absurd hout (by simp)

end

section
/-! PROOFS. Echo replies (R403, R418): the width of the counter of sent frames. -/

namespace Sys2Proof.Machine

open Sys2Proof

/-- Sub-port 0 of port 0 is up, with a MAC address and an IPv4 address, and port 0 has sent 2^32 − 1 frames. -/
def manyFramesSent : Dev :=
  { State.reset.dev with
    regs := [(key (pgEth 0) (F.ETH_LINK 0), 2), (key (pgEth 0) (F.ETH_MAC 0), 1), (key (pgEth 0) (F.ETH_IPV4 0), 1),
      (key (pgEth 0) F.ETH_TX_PKTS, 2 ^ 32 - 1)] }

theorem gives_echoRequest {s : State} {e n : Nat} (t : Nat) (b : Bool) (ip : List Nat) (i : Nat) (he : e < 2) (hn : n < 4)
    (hs : Awake s) : Gives (.echoRequest t e n b ip i) s (doEcho t e n b ip i s.dev) :=
  gives_of_act rfl (by simp [he, hn]) hs

/-- A reply counts in TX_PKTS, which has 64 bits. -/
theorem txPkts_reply (d : Dev) (e p k : Nat) (l : List Int) :
    getR (reply d e p k l) (pgEth e) F.ETH_TX_PKTS = (getR d (pgEth e) F.ETH_TX_PKTS + 1) % 2 ^ 64 :=
  (getR_addC_fld _ _ _ (by decide)).trans (getR_addC_wide d (pgEth e) 1 (by decide))

/-- The device of `manyFramesSent` that has received the echo request and counted it in its second. -/
def echoTaken : Dev :=
  let d := rxFrame (advance manyFramesSent 0) 0
  { d with net := { d.net with echoSec := Store.set d.net.echoSec 0 0 (taiSec (tai d)),
                               echoCount := Store.set d.net.echoCount 0 0 1 } }

/-- The reply to an echo request counts beyond 32 bits. -/
theorem txPkts_manyFramesSent : getR (doEcho 0 0 0 false [1] 0 manyFramesSent) (pgEth 0) F.ETH_TX_PKTS = 2 ^ 32 :=
  (txPkts_reply echoTaken 0 0 2 [0]).trans (by decide +kernel)

end Sys2Proof.Machine

open Sys2Proof Sys2Proof.Machine

/-- Refutes O53: its clause on an answered echo request wants TX_PKTS to stop at 2^32 − 1, but TX_PKTS has 64 bits (R418) and
goes on to 2^32 from there, as `manyFramesSent` shows. -/
theorem not_pcieAndNetworkPorts : ¬ Obligations.PcieAndNetworkPorts := by
  unfold Obligations.PcieAndNetworkPorts
  intro h
  obtain ⟨-, -, -, -, -, -, -, -, -, -, -, -, -, -, -, -, -, hecho, -⟩ :=
    h { State.reset with dev := manyFramesSent } 0 0 0 0 (by decide) (by decide) (by decide)
  have hgives := gives_echoRequest (s := { State.reset with dev := manyFramesSent }) (e := 0) (n := 0) 0 false [1] 0 (by decide)
    (by decide) (by decide)
  obtain ⟨-, -, -, hsent, -⟩ := hgives.of_does (hecho false [1] 0 (by decide) (by decide))
  rw [getR_settle, txPkts_manyFramesSent] at hsent
  exact absurd hsent (by decide)

end

section
/-! PROOFS. The drop of an item (R409): a requester number beyond the 11 of pool HOST counts among the rings' registers. -/

namespace Sys2Proof.Machine

open Sys2Proof

/-- The distance in words of field `f` from the HELD count of requester 0 of pool HOST (R342): the number that no requester has
whose HELD count would be that field. -/
def strayRequester (p : Nat) (f : Fld) : Nat := (key p f - key (pgShelf 0) (fHELD 0)) / 128

/-- An item of no bytes that holds one shelf for such a requester. -/
def strayHeld (p : Nat) (f : Fld) : Held :=
  { item := ⟨0, [], none, 0, strayRequester p f, 1⟩, seq := 0, since := 0 }

/-- Ring 0, which is bound to a flow that is not enabled, holds an item whose requester's HELD count would be DROPS of ring 0. -/
def strayDrop : Dev := setRing State.reset.dev 0 { RingSt.reset with held := [strayHeld pgRings (F.RINGS_DROPS 0)] }

theorem gives_ringItemDeliver {s : State} {r : Nat} (t : Nat) (hr : r < 32) (hs : Awake s) :
    Gives (.ringItemDeliver t r) s (doRingDeliver t r s.dev) := gives_of_act rfl (decide_eq_true hr) hs

/-- The drop counts once, and the release of the item's shelf takes the count back. -/
theorem drops_strayDrop : getR (doRingDeliver 0 0 strayDrop) pgRings (F.RINGS_DROPS 0) = 0 := by decide +kernel

end Sys2Proof.Machine

open Sys2Proof Sys2Proof.Machine

/-- Refutes O54: its clause on a drop wants DROPS to go up, and has no premise that held items name requesters of their pool.
In `strayDrop` the item names none, and the release of its shelf writes the HELD count of that number, which is DROPS of the
ring itself and ends at 0 (`drops_strayDrop`). (Items get their requester from the model's own sources, so no run from reset
comes to such a state.) -/
theorem not_ringsCarryItems : ¬ Obligations.RingsCarryItems := by
  unfold Obligations.RingsCarryItems
  intro h
  obtain ⟨-, -, hdrop, -⟩ := h { State.reset with dev := strayDrop } 0 0 0 (by decide) (by decide)
  have hgives := gives_ringItemDeliver (s := { State.reset with dev := strayDrop }) (r := 0) 0 (by decide) (by decide)
  obtain ⟨hdrops, -⟩ := hgives.of_does
    (hdrop (strayHeld pgRings (F.RINGS_DROPS 0)) [] 2 (by decide) (by decide) (by decide))
  rw [getR_settle, drops_strayDrop] at hdrops
  exact absurd hdrops (by decide)

end

section
/-! PROOFS. Power failure (R455): a ring whose write offset counts among the Starter's registers. -/

namespace Sys2Proof.Machine

open Sys2Proof

/-- A number that no ring has: what would be WR of ring `gateRing` (R417) is the live polarity of PGATE of line 0 (R95). -/
def gateRing : Nat := (key (pgStarter 0) (liveF F.STARTER_PGATE_POL) - key pgRings (F.RINGS_WR 0)) / 128

/-- A Ledger entry is on its way to the hub, where there is a number for it; the map of source 24 (R404), a field of five bits,
holds `gateRing`, which is bound to the host, whose memory the device may write. -/
def strayGate : Dev :=
  { State.reset.dev with
    ledgerOut := [{ kind := 0x0701, line := 0xF, ptype := 2, taiS := 0, ns := 0, sub := 0, quality := 0, payload := [] }]
    regs := [(key pgPkg F.PKG_RSV_END, 1), (key pgPcie F.PCIE_BME, 1), (key pgRings (F.RINGS_MAP 24), gateRing),
      (key pgRings (F.RINGS_BIND gateRing), 1)] }

theorem gives_powerFail {s : State} (t : Nat) (hs : Awake s) : Gives (.powerFail t) s (doPowerFail t s.dev) :=
  gives_of_act rfl rfl hs

/-- The entry goes to the ring after the gates were driven, and WR of the ring, after the 80 bytes of the item, is what PGATE's
polarity reads as then. -/
theorem gateIdle_strayGate : gateIdle (doPowerFail 0 strayGate) 0 true = 128 := by decide +kernel

theorem pgate_strayGate : Output.pin (.pgate 0) 128 ∉ (settle (doPowerFail 0 strayGate)).out := by decide +kernel

@[simp] theorem gateIdle_settle (d : Dev) (n : Nat) (pg : Bool) : gateIdle (settle d) n pg = gateIdle d n pg := by
  simp [gateIdle, sv, getL]

end Sys2Proof.Machine

open Sys2Proof Sys2Proof.Machine

/-- Refutes O59: its clause on the power failure wants both gates of each line driven to the level that is inactive at its end,
and has no premise that the rings' map keeps to its width. In `strayGate` it names no ring, and the Ledger entry that the
failure sends there moves its WR, which is the polarity of PGATE of line 0 and so the level that is inactive
(`gateIdle_strayGate`), after the gates were driven. (`setR` keeps a field to its width, so no run from reset comes to such a
state.) -/
theorem not_shutDownSmbusAndPowerFail : ¬ Obligations.ShutDownSmbusAndPowerFail := by
  unfold Obligations.ShutDownSmbusAndPowerFail
  intro h
  obtain ⟨-, -, -, -, -, -, -, -, -, -, -, -, -, -, -, -, -, -, -, -, hfail⟩ :=
    h { State.reset with dev := strayGate } 0 0 0 0 (by decide) (by decide)
  have hgives := gives_powerFail (s := { State.reset with dev := strayGate }) 0 (by decide)
  obtain ⟨⟨-, hpins⟩, -⟩ := hgives.of_does hfail
  obtain ⟨hpgate, -⟩ := hpins 0 (by decide)
  rw [gateIdle_settle, gateIdle_strayGate] at hpgate
  exact pgate_strayGate hpgate

end

section
set_option Elab.async false
/-! PROOFS. Updates that show: what changes besides the registers of a list, said once for a whole chain of updates. -/

namespace Sys2Proof.Machine

open Sys2Proof

/-- From `d` to `e` the registers but for `fs` keep their values, and so does the part `k` of the device. -/
structure Moved (k : Dev → Dev) (fs : List (Nat × Fld)) (d e : Dev) : Prop where
  frame : k e = k d
  keeps : RegsBut fs e d

/-- The device but for its registers. -/
def noRegs (d : Dev) : Dev := { d with regs := [] }

/-- The device but for its registers and events. -/
def noShow (d : Dev) : Dev := { d with regs := [], evt := [] }

namespace Moved

variable {k : Dev → Dev} {fs : List (Nat × Fld)} {d e : Dev}

theorem refl (d : Dev) : Moved k fs d d := ⟨rfl, fun _ _ _ => rfl⟩

theorem trans (a b c : Dev) (h : Moved k fs a b) (g : Moved k fs b c) : Moved k fs a c :=
  ⟨g.frame.trans h.frame, fun p f hf => (g.keeps p f hf).trans (h.keeps p f hf)⟩

theorem mono {gs : List (Nat × Fld)} (h : Moved k fs d e) (hs : ∀ x ∈ fs, x ∈ gs) : Moved k gs d e :=
  ⟨h.frame, fun p f hf => h.keeps p f fun x hx => hf x (hs x hx)⟩

/-- An update of no register. -/
theorem of_regs (d e : Dev) (hr : e.regs = d.regs := by rfl) (hk : k e = k d := by rfl) : Moved k fs d e :=
  ⟨hk, fun p f _ => getR_congr hr p f⟩

theorem of_setR {p : Nat} {f : Fld} (d : Dev) (v : Nat) (hf : (p, f) ∈ fs)
    (hk : ∀ d, k (setR d p f v) = k d := by intro _; rfl) : Moved k fs d (setR d p f v) :=
  ⟨hk d, fun _ _ h => getR_setR_ne d v (h (p, f) hf)⟩

theorem of_addC {p : Nat} {f : Fld} (d : Dev) (v : Nat) (hf : (p, f) ∈ fs)
    (hk : ∀ v d, k (setR d p f v) = k d := by intro _ _; rfl) : Moved k fs d (addC d p f v) := by
  rw [addC_eq]; exact of_setR d _ hf (hk _)

theorem of_peak {p : Nat} {f : Fld} (d : Dev) (v : Nat) (hf : (p, f) ∈ fs)
    (hk : ∀ v d, k (setR d p f v) = k d := by intro _ _; rfl) : Moved k fs d (peak d p f v) := by
  obtain h | ⟨w, h⟩ := peak_cases d p f v <;> rw [h]
  · exact refl d
  · exact of_setR d w hf (hk w)

theorem of_raiseOn (d : Dev) (p b : Nat) (was now : Bool) (hk : ∀ d, k (raise d p b) = k d := by intro _; rfl) :
    Moved k fs d (raiseOn d p b was now) := by
  unfold raiseOn; split
  · exact of_regs d _ rfl (hk d)
  · exact refl d

theorem of_onlyIf {f : Dev → Dev} (d : Dev) (c : Bool) (h : Moved k fs d (f d)) : Moved k fs d (onlyIf c f d) :=
  onlyIf_rel refl d c h

theorem of_foldl {α : Type} {f : Dev → α → Dev} {l : List α} (d : Dev) (h : ∀ d, ∀ a ∈ l, Moved k fs d (f d a)) :
    Moved k fs d (l.foldl f d) := foldl_rel refl trans h d

/-! One more update after a chain of them. -/

theorem then_setR {p : Nat} {f : Fld} {v : Nat} (h : Moved k fs d e) (hf : (p, f) ∈ fs)
    (hk : ∀ d, k (setR d p f v) = k d := by intro _; rfl) : Moved k fs d (setR e p f v) := trans _ _ _ h (of_setR e v hf hk)

theorem then_addC {p : Nat} {f : Fld} {v : Nat} (h : Moved k fs d e) (hf : (p, f) ∈ fs)
    (hk : ∀ v d, k (setR d p f v) = k d := by intro _ _; rfl) : Moved k fs d (addC e p f v) := trans _ _ _ h (of_addC e v hf hk)

theorem then_bump {p : Nat} {f : Fld} (h : Moved k fs d e) (hf : (p, f) ∈ fs)
    (hk : ∀ v d, k (setR d p f v) = k d := by intro _ _; rfl) : Moved k fs d (bump e p f) := then_addC h hf hk

theorem then_peak {p : Nat} {f : Fld} {v : Nat} (h : Moved k fs d e) (hf : (p, f) ∈ fs)
    (hk : ∀ v d, k (setR d p f v) = k d := by intro _ _; rfl) : Moved k fs d (peak e p f v) := trans _ _ _ h (of_peak e v hf hk)

theorem then_raise {p b : Nat} (h : Moved k fs d e) (hk : ∀ d, k (raise d p b) = k d := by intro _; rfl) : Moved k fs d (raise e p b) :=
  trans _ _ _ h (of_regs e _ rfl (hk e))

theorem then_raiseOn {p b : Nat} {was now : Bool} (h : Moved k fs d e) (hk : ∀ d, k (raise d p b) = k d := by intro _; rfl) :
    Moved k fs d (raiseOn e p b was now) := trans _ _ _ h (of_raiseOn e p b was now hk)

theorem then_onlyIf {c : Bool} {f : Dev → Dev} (h : Moved k fs d e) (hf : Moved k fs e (f e)) :
    Moved k fs d (onlyIf c f e) := trans _ _ _ h (of_onlyIf e c hf)

/-- A register that is not in the list keeps its value. -/
theorem getR_eq {p : Nat} {f : Fld} (h : Moved k fs d e) (hk : ∀ x ∈ fs, key x.1 x.2 ≠ key p f) : getR e p f = getR d p f :=
  h.keeps p f hk

/-- On one page: a field that lies elsewhere keeps its value. -/
theorem getR_fld {p : Nat} {f : Fld} (h : Moved k fs d e) (hx : ∀ x ∈ fs, x.1 = p ∧ fldAt x.2 ≠ fldAt f) :
    getR e p f = getR d p f :=
  h.getR_eq fun x hm => by obtain ⟨hp, hf⟩ := hx x hm; rw [hp]; exact key_ne_fld p hf

/-- A field of another page keeps its value. -/
theorem getR_page {p : Nat} {f : Fld} (h : Moved k fs d e) (hf : fldAt f < 131072)
    (hx : ∀ x ∈ fs, x.1 ≠ p ∧ fldAt x.2 < 131072) : getR e p f = getR d p f :=
  h.getR_eq fun x hm => by obtain ⟨hp, hg⟩ := hx x hm; exact key_ne_page hp hg hf

/-- A part of what is kept is kept. -/
theorem coarser {g : Dev → Dev} (h : Moved k fs d e) (hg : ∀ d, g (k d) = g d := by intro _; rfl) : Moved g fs d e :=
  ⟨(hg e).symm.trans ((congrArg g h.frame).trans (hg d)), h.keeps⟩

/-- The registers of the settled device. -/
theorem settled (h : Moved k fs d e) : RegsBut fs (settle e) d := (regsBut_settle fs e d).2 h.keeps

/-- What `k` keeps, keeps its value. -/
theorem field {α : Type} (h : Moved k fs d e) (g : Dev → α) : g (k e) = g (k d) := congrArg g h.frame

end Moved

@[simp] theorem fldAt_cSTATE : fldAt cSTATE = 388 := rfl
@[simp] theorem fldAt_cBUSY : fldAt cBUSY = 384 := rfl

@[simp] theorem advance_advance (d : Dev) (t : Nat) : advance (advance d t) t = advance d t := by simp [advance]

/-- A command that writes page `p`, which is to be reached, has its effect at once. -/
theorem gives_of_write {c : Instr} {ok : Bool} {s : State} {p t : Nat} {f : Dev → Dev}
    (h : exec c s = act ok s (fun d => onPage p f (advance d t))) (hok : ok = true) (hr : Reach s.dev p) (hs : Awake s) :
    Gives c s (f (advance s.dev t)) :=
  (gives_of_act h hok hs).of_eq (onPage_reach f (reach_advance hr))

end Sys2Proof.Machine

end

section
set_option Elab.async false
/-! PROOFS. Shelf pools (R338–R342): where the fields of a pool's page lie, what its shown state leaves alone, and the request
that wins its cycle. -/

namespace Sys2Proof.Machine

open Sys2Proof

/-! ### The fields of a shelf page (R342) -/

@[simp] theorem fldAt_fHELD (q : Nat) : fldAt (fHELD q) = 36864 + 128 * q := by
  simp only [fldAt, fHELD, F.SHELFH_HELD]; omega
@[simp] theorem fldAt_fPEAK (q : Nat) : fldAt (fPEAK q) = 36880 + 128 * q := by
  simp only [fldAt, fPEAK, F.SHELFH_PEAK]; omega
@[simp] theorem fldAt_fRESERVE (p q : Nat) : fldAt (fRESERVE p q) = 2048 + 128 * q := by
  unfold fRESERVE; split <;> simp only [fldAt, F.SHELFH_RESERVE, F.SHELFD_RESERVE] <;> omega
@[simp] theorem fldAt_fLIMIT (p q : Nat) : fldAt (fLIMIT p q) = 2064 + 128 * q := by
  unfold fLIMIT; split <;> simp only [fldAt, F.SHELFH_LIMIT, F.SHELFD_LIMIT] <;> omega
@[simp] theorem fldAt_fFREE (p : Nat) : fldAt (fFREE p) = 32768 := by unfold fFREE; split <;> rfl
@[simp] theorem fldAt_fCOMMON (p : Nat) : fldAt (fCOMMON p) = 32784 := by unfold fCOMMON; split <;> rfl

/-- The field RESERVED_SUM of pool `p`. -/
def fSUM (p : Nat) : Fld := if p = 0 then F.SHELFH_RESERVED_SUM else F.SHELFD_RESERVED_SUM

@[simp] theorem fldAt_fSUM (p : Nat) : fldAt (fSUM p) = 32896 := by unfold fSUM; split <;> rfl

theorem fRESERVE_width (p q : Nat) : (fRESERVE p q).width = 10 := by unfold fRESERVE; split <;> rfl
theorem fLIMIT_width (p q : Nat) : (fLIMIT p q).width = 10 := by unfold fLIMIT; split <;> rfl
theorem fSUM_width (p : Nat) : (fSUM p).width = 10 := by unfold fSUM; split <;> rfl

theorem requesters_small {p q : Nat} (h : q < poolReqs p) : q < 19 := by
  unfold poolReqs at h; split at h <;> omega

/-! ### What an update of a pool shows -/

/-- The registers that show a pool's state. -/
def poolShown (p : Nat) : List (Nat × Fld) := [(pgShelf p, fFREE p), (pgShelf p, fCOMMON p), (pgShelf p, cSTATE)]

theorem poolShow_moved (d : Dev) (p : Nat) : Moved noShow (poolShown p) d (poolShow d p) := by
  unfold poolShow
  refine .trans _ _ _ (.trans _ _ _ (.trans _ _ _ (.of_setR d _ ?_) (.of_setR _ _ ?_)) (.of_setR _ _ ?_)) (.of_raiseOn _ _ _ _ _)
    <;> simp [poolShown]

/-- Showing a pool leaves every other field of its page. -/
theorem getR_poolShow {d : Dev} {p : Nat} {f : Fld} (h : fldAt f ≠ 32768 ∧ fldAt f ≠ 32784 ∧ fldAt f ≠ 388) :
    getR (poolShow d p) (pgShelf p) f = getR d (pgShelf p) f :=
  (poolShow_moved d p).getR_fld (by simp [poolShown]; omega)

theorem pool_poolShow (d : Dev) (p r : Nat) : pool (poolShow d p) r = pool d r :=
  (poolShow_moved d p).field (fun e => Store.get (Dev.pools e) PoolSt.reset r)

theorem poolShow_mem (d : Dev) (p : Nat) : (poolShow d p).mem = d.mem := (poolShow_moved d p).field Dev.mem

@[simp] theorem pool_setPool (d : Dev) (p : Nat) (x : PoolSt) : pool (setPool d p x) p = x := by simp [pool, setPool]
@[simp] theorem pool_setR (d : Dev) (p r : Nat) (f : Fld) (v : Nat) : pool (setR d p f v) r = pool d r := rfl
@[simp] theorem pool_settle (d : Dev) (p : Nat) : pool (settle d) p = pool d p := by simp [pool]
@[simp] theorem heldBy_settle (d : Dev) (p q : Nat) : heldBy (settle d) p q = heldBy d p q := getR_settle _ _ _
@[simp] theorem heldBy_setPool (d : Dev) (p : Nat) (x : PoolSt) (r q : Nat) : heldBy (setPool d p x) r q = heldBy d r q := rfl
@[simp] theorem heldBy_advance (d : Dev) (t p q : Nat) : heldBy (advance d t) p q = heldBy d p q := rfl

theorem heldBy_poolShow (d : Dev) (p : Nat) {q : Nat} (hq : q < 19) : heldBy (poolShow d p) p q = heldBy d p q :=
  getR_poolShow (by simp; omega)

/-- A field other than its own count leaves what a requester holds. -/
theorem heldBy_setR {p q : Nat} {f : Fld} (d : Dev) (v : Nat) (h : fldAt f ≠ 36864 + 128 * q) :
    heldBy (setR d (pgShelf p) f v) p q = heldBy d p q := getR_setR_fld _ _ _ (by simpa using h)

theorem heldBy_setR_self (d : Dev) (p q v : Nat) : heldBy (setR d (pgShelf p) (fHELD q) v) p q = v % 1024 := getR_setR_self _ _ _ _

theorem heldBy_peak {p q : Nat} {f : Fld} (d : Dev) (v : Nat) (h : fldAt f ≠ 36864 + 128 * q) :
    heldBy (peak d (pgShelf p) f v) p q = heldBy d p q := by
  obtain e | ⟨w, e⟩ := peak_cases d (pgShelf p) f v <;> rw [e]
  exact heldBy_setR d w h

theorem peak_mem (d : Dev) (p : Nat) (f : Fld) (v : Nat) : (peak d p f v).mem = d.mem := by
  obtain e | ⟨w, e⟩ := peak_cases d p f v <;> rw [e]; rfl

/-! ### Shelves given and released -/

theorem heldBy_giveShelves (d : Dev) (p n : Nat) {q : Nat} (hq : q < 19) :
    heldBy (giveShelves d p q n) p q = (heldBy d p q + n) % 1024 := by
  rw [giveShelves, heldBy_poolShow _ _ hq, heldBy_peak _ _ (by simp only [fldAt_fPEAK]; omega), heldBy_setR_self, heldBy_setPool]

theorem heldBy_giveShelves_other (d : Dev) (p n : Nat) {q r : Nat} (hr : r < 19) (h : r ≠ q) :
    heldBy (giveShelves d p q n) p r = heldBy d p r := by
  rw [giveShelves, heldBy_poolShow _ _ hr, heldBy_peak _ _ (by simp; omega), heldBy_setR _ _ (by simp; omega)]; rfl

theorem giveShelves_mem (d : Dev) (p q n : Nat) : (giveShelves d p q n).mem = d.mem := by
  rw [giveShelves, poolShow_mem, peak_mem]; rfl

theorem rr_giveShelves (d : Dev) (p q n : Nat) : (pool (giveShelves d p q n) p).rr = (pool d p).rr := by
  have hpeak : ∀ (e : Dev) f v, pool (peak e (pgShelf p) f v) p = pool e p := fun e f v => by
    obtain h | ⟨w, h⟩ := peak_cases e (pgShelf p) f v <;> rw [h]; rfl
  rw [giveShelves, pool_poolShow, hpeak, pool_setR, pool_setPool]

theorem heldBy_freeShelf (d : Dev) (p n : Nat) {q : Nat} (hq : q < 19) (h : heldBy d p q < 1024) :
    heldBy (freeShelf d p q n) p q = heldBy d p q - n := by
  unfold freeShelf
  split
  case isTrue h0 => simp [h0]
  case isFalse => rw [heldBy_poolShow _ _ hq, heldBy_setR_self]; exact Nat.mod_eq_of_lt (by simp; omega)

theorem heldBy_freeShelf_other (d : Dev) (p n : Nat) {q r : Nat} (hr : r < 19) (h : r ≠ q) :
    heldBy (freeShelf d p q n) p r = heldBy d p r := by
  unfold freeShelf
  split
  · rfl
  · rw [heldBy_poolShow _ _ hr, heldBy_setR _ _ (by simp; omega)]; rfl

theorem freeShelf_mem (d : Dev) (p q n : Nat) : (freeShelf d p q n).mem = d.mem := by
  unfold freeShelf
  split
  · rfl
  · rw [poolShow_mem]; rfl

/-! ### The request that wins its cycle (R339) -/

/-- The requesters of a pool in the order of a cycle, from the pointer on. -/
def cycleOrder (d : Dev) (p : Nat) : List Nat := (List.range (poolReqs p)).map (fun i => ((pool d p).rr + i) % poolReqs p)

theorem mem_cycleOrder {d : Dev} {p q : Nat} (hq : q < poolReqs p) : q ∈ cycleOrder d p := by
  refine List.mem_map.2 ⟨(q + (poolReqs p - (pool d p).rr % poolReqs p)) % poolReqs p,
    List.mem_range.2 (Nat.mod_lt _ (by omega)), ?_⟩
  have hlt : (pool d p).rr % poolReqs p < poolReqs p := Nat.mod_lt _ (by omega)
  rw [Nat.add_mod_mod, ← Nat.mod_add_mod, show (pool d p).rr % poolReqs p + (q + (poolReqs p - (pool d p).rr % poolReqs p)) =
    q + poolReqs p by omega, Nat.add_mod_right, Nat.mod_eq_of_lt hq]

/-- A request without rivals wins. -/
theorem cycleOrder_alone {d : Dev} {p q : Nat} (hq : q < poolReqs p) :
    (cycleOrder d p).find? (fun w => [q].contains w) = some q := by
  obtain ⟨w, hw⟩ := Option.isSome_iff_exists.1
    (List.find?_isSome.2 ⟨q, mem_cycleOrder (d := d) hq, by simp⟩ : ((cycleOrder d p).find? (fun w => [q].contains w)).isSome)
  have : w = q := by simpa using List.find?_some hw
  rw [hw, this]

/-- A rival at the pointer wins. -/
theorem cycleOrder_rival {d : Dev} {p q r : Nat} (hr : r < poolReqs p) (h : (pool d p).rr = r) :
    (cycleOrder d p).find? (fun w => [q, r].contains w) = some r := by
  obtain ⟨m, hm⟩ : ∃ m, poolReqs p = m + 1 := ⟨poolReqs p - 1, by omega⟩
  have hcons : cycleOrder d p = r :: (List.range m).map (fun i => (r + (i + 1)) % (m + 1)) := by
    simp [cycleOrder, hm, h, List.range_succ_eq_map, Nat.mod_eq_of_lt (hm ▸ hr), Function.comp_def]
  rw [hcons, List.find?_cons_of_pos (by simp)]

theorem doShelfRequest_refused {d : Dev} {p q n : Nat} (t : Nat) (l : List Nat) (h : wouldGrant d p q n = false) :
    doShelfRequest t p q n l d = refuseShelf (advance d t) p q := by
  simp [doShelfRequest, show wouldGrant (advance d t) p q n = false from h]

theorem doShelfRequest_won {d : Dev} {p q n : Nat} (t : Nat) (hq : q < poolReqs p) (h : wouldGrant d p q n = true) :
    doShelfRequest t p q n [] d =
      giveShelves (setPool (peak (advance d t) (pgShelf p) F.SHELFH_MAX_WAIT (Store.get (pool d p).waits 0 q)) p
        { pool d p with rr := (q + 1) % poolReqs p, waits := Store.set (pool d p).waits 0 q 0 }) p q n := by
  have hfind := cycleOrder_alone (d := advance d t) hq
  unfold doShelfRequest
  simp only [show wouldGrant (advance d t) p q n = true from h, Bool.not_true, Bool.false_eq_true, if_false]
  rw [show ((List.range (poolReqs p)).map (fun i => ((pool (advance d t) p).rr + i) % poolReqs p)) =
    cycleOrder (advance d t) p from rfl, hfind]
  simp only [if_true]
  rfl

theorem doShelfRequest_waits {d : Dev} {p q r n : Nat} (t : Nat) (hr : r < poolReqs p) (hrq : r ≠ q)
    (h : wouldGrant d p q n = true) (hrr : (pool d p).rr = r) :
    doShelfRequest t p q n [r] d = setPool (advance d t) p
      { pool d p with waits := Store.set (pool d p).waits 0 q (Store.get (pool d p).waits 0 q + 1) } := by
  have hfind := cycleOrder_rival (d := advance d t) (q := q) hr hrr
  unfold doShelfRequest
  simp only [show wouldGrant (advance d t) p q n = true from h, Bool.not_true, Bool.false_eq_true, if_false]
  rw [show ((List.range (poolReqs p)).map (fun i => ((pool (advance d t) p).rr + i) % poolReqs p)) =
    cycleOrder (advance d t) p from rfl, hfind]
  simp only [hrq, if_false]
  rfl

/-! ### Limits and reserves written (R341, R342) -/

theorem doShelfLimit_other {d : Dev} {p q : Nat} (t v : Nat) (h : ¬(p = 0 ∧ q = 8)) :
    doShelfLimit t p q v d =
      poolShow (setR (advance d t) (pgShelf p) (fLIMIT p q) (max v (getR d (pgShelf p) (fRESERVE p q)))) p := if_neg h

theorem doShelfLimit_host {d : Dev} (t v : Nat)
    (h : getR d (pgShelf 0) (fSUM 0) - getR d (pgShelf 0) (fRESERVE 0 8) + min v 256 ≤ 512) :
    doShelfLimit t 0 8 v d = poolShow (setR (setR (setR (advance d t) (pgShelf 0) (fLIMIT 0 8) (min v 256)) (pgShelf 0)
      (fRESERVE 0 8) (min v 256)) (pgShelf 0) (fSUM 0)
        (getR d (pgShelf 0) (fSUM 0) - getR d (pgShelf 0) (fRESERVE 0 8) + min v 256)) 0 := by
  simp only [doShelfLimit, and_self, if_true]
  exact if_neg (Nat.not_lt.2 h)

theorem doShelfReserve_fixed {d : Dev} {p q : Nat} (t v : Nat) (h : fixedReserve p q = true) :
    doShelfReserve t p q v d = advance d t := if_pos h

theorem doShelfReserve_refused {d : Dev} {p q v : Nat} (t : Nat) (hf : fixedReserve p q = false) (hv : v < 1024)
    (h : poolSize p < getR d (pgShelf p) (fSUM p) - getR d (pgShelf p) (fRESERVE p q) + v) :
    doShelfReserve t p q v d = raise (bump (advance d t) (pgShelf p) F.SHELFH_RESERVE_REFUSED) (pgShelf p) 10 := by
  rw [← Nat.mod_eq_of_lt hv] at h
  exact (if_neg (by simp [hf])).trans (if_pos h)

theorem doShelfReserve_applied {d : Dev} {p q v : Nat} (t : Nat) (hf : fixedReserve p q = false) (hv : v < 1024)
    (h : getR d (pgShelf p) (fSUM p) - getR d (pgShelf p) (fRESERVE p q) + v ≤ poolSize p) :
    doShelfReserve t p q v d = poolShow (setR (setR (advance d t) (pgShelf p) (fRESERVE p q) v) (pgShelf p) (fSUM p)
      (getR d (pgShelf p) (fSUM p) - getR d (pgShelf p) (fRESERVE p q) + v)) p := by
  have hmod := Nat.mod_eq_of_lt hv
  rw [← hmod] at h
  refine ((if_neg (by simp [hf])).trans (if_neg (Nat.not_lt.2 h))).trans ?_
  rw [hmod]; rfl

/-! ### The commands -/

section
variable {s : State} {p q n : Nat} (t : Nat) (hp : p < 3) (hq : q < poolReqs p) (hs : Awake s)
include hp hq hs

theorem gives_shelfRequest (l : List Nat) : Gives (.shelfRequest t p q n l) s (doShelfRequest t p q n l s.dev) :=
  gives_of_act rfl (by simp [hp, hq]) hs

theorem gives_shelfRelease : Gives (.shelfRelease t p q n) s (freeShelf (advance s.dev t) p q (min n (heldBy s.dev p q))) :=
  gives_of_act (f := fun d => freeShelf (advance d t) p q (min n (heldBy d p q))) rfl (by simp [hp, hq]) hs

theorem gives_shelfLimitWrite (v : Nat) (hr : Reach s.dev (pgShelf p)) :
    Gives (.shelfLimitWrite t p q v) s (doShelfLimit t p q v (advance s.dev t)) :=
  gives_of_write (f := doShelfLimit t p q v) rfl (by simp [hp, hq]) hr hs

theorem gives_shelfReserveWrite (v : Nat) (hr : Reach s.dev (pgShelf p)) :
    Gives (.shelfReserveWrite t p q v) s (doShelfReserve t p q v (advance s.dev t)) :=
  gives_of_write (f := doShelfReserve t p q v) rfl (by simp [hp, hq]) hr hs

end

end Sys2Proof.Machine

open Sys2Proof Sys2Proof.Machine

/-- Settles O47. -/
theorem shelvesAreGrantedWhole : Obligations.ShelvesAreGrantedWhole := by
  unfold Obligations.ShelvesAreGrantedWhole
  intro s t p q n v hp hq hs
  have hq19 := requesters_small hq
  refine ⟨fun l h => ?_, fun h => ?_, fun r hr hrq h hrr => ?_, fun h => ?_, fun hn hh => ?_, fun hr hpq hv => ?_,
    fun hr hp0 hq8 hsum => ?_, fun hr hf => ?_, fun hr hf hv hsum => ?_, fun hr hf hv hsum => ?_⟩
  · exact (gives_shelfRequest t hp hq hs l).of_eq (doShelfRequest_refused t l h)
  · refine does_of_gives ((gives_shelfRequest t hp hq hs []).of_eq (doShelfRequest_won t hq h)) ?_
    simp only [heldBy_settle, pool_settle, settle_mem, giveShelves_mem, rr_giveShelves, pool_setPool]
    refine ⟨?_, trivial, fun r hr hrq => ?_, peak_mem _ _ _ _⟩
    · rw [heldBy_giveShelves _ _ _ hq19, heldBy_setPool, heldBy_peak _ _ (by simp [fldAt, F.SHELFH_MAX_WAIT]; omega),
        heldBy_advance]
    · rw [heldBy_giveShelves_other _ _ _ (requesters_small hr) hrq, heldBy_setPool,
        heldBy_peak _ _ (by simp [fldAt, F.SHELFH_MAX_WAIT]; omega), heldBy_advance]
  · refine does_of_gives ((gives_shelfRequest t hp hq hs [r]).of_eq (doShelfRequest_waits t hr hrq h hrr)) ?_
    simp only [heldBy_settle, heldBy_setPool, heldBy_advance, pool_settle, pool_setPool, Store.get_set_self, settle_regs,
      settle_evt, true_and]
    exact ⟨rfl, rfl⟩
  · exact (gives_shelfRelease t hp hq hs).of_eq (by simp [h, freeShelf])
  · refine does_of_gives (gives_shelfRelease t hp hq hs) ?_
    simp only [heldBy_settle, settle_mem, freeShelf_mem, Nat.min_eq_left hn]
    exact ⟨heldBy_freeShelf _ _ _ hq19 hh, fun r hr hrq => heldBy_freeShelf_other _ _ _ (requesters_small hr) hrq, rfl⟩
  · refine does_of_gives ((gives_shelfLimitWrite t hp hq hs v hr).of_eq (doShelfLimit_other t v hpq)) ?_
    simp only [getR_settle, heldBy_settle, heldBy_poolShow _ _ hq19]
    refine ⟨?_, heldBy_setR _ _ (by simp only [fldAt_fLIMIT]; omega)⟩
    rw [getR_poolShow (by simp only [fldAt_fLIMIT]; omega), getR_setR_self, fLIMIT_width]; rfl
  · subst hp0 hq8
    refine does_of_gives ((gives_shelfLimitWrite t hp hq hs v hr).of_eq (doShelfLimit_host t v hsum)) ?_
    have hfits : min v 256 % 2 ^ 10 = min v 256 := Nat.mod_eq_of_lt (by omega)
    simp only [getR_settle]
    refine ⟨?_, ?_⟩
    · rw [getR_poolShow (by simp), getR_setR_fld _ _ _ (by simp), getR_setR_fld _ _ _ (by simp), getR_setR_self, fLIMIT_width,
        hfits]
    · rw [getR_poolShow (by simp), getR_setR_fld _ _ _ (by simp), getR_setR_self, fRESERVE_width, hfits]
  · exact (gives_shelfReserveWrite t hp hq hs v hr).of_eq ((doShelfReserve_fixed t v hf).trans (advance_advance _ _))
  · refine (gives_shelfReserveWrite t hp hq hs v hr).of_eq
      ((doShelfReserve_refused (d := advance s.dev t) t hf hv hsum).trans ?_)
    rw [advance_advance]
  · refine does_of_gives ((gives_shelfReserveWrite t hp hq hs v hr).of_eq (doShelfReserve_applied t hf hv hsum)) ?_
    simp only [getR_settle, heldBy_settle, heldBy_poolShow _ _ hq19, settle_mem, poolShow_mem]
    refine ⟨?_, ?_, ?_, rfl⟩
    · rw [getR_poolShow (by simp only [fldAt_fRESERVE]; omega), getR_setR_fld _ _ _ (by simp only [fldAt_fSUM, fldAt_fRESERVE]; omega),
        getR_setR_self, fRESERVE_width, Nat.mod_eq_of_lt (show v < 2 ^ 10 from hv)]
    · exact (getR_poolShow (f := fSUM p) (by simp)).trans (by rw [getR_setR_self, fSUM_width]; rfl)
    · rw [heldBy_setR _ _ (by simp only [fldAt_fSUM]; omega), heldBy_setR _ _ (by simp only [fldAt_fRESERVE]; omega)]; rfl

end

section
set_option Elab.async false
/-! PROOFS. DRAM accesses (R346, R351): the bytes that a write stores, and what poisoned lines leave alone. -/

namespace Sys2Proof.Machine

open Sys2Proof

/-- The device but for its registers and what DRAM controllers keep outside theirs. -/
def noDmc (d : Dev) : Dev := { d with regs := [], dmc := [] }

theorem chanOf_lt (a : Nat) : chanOf a < 2 := Nat.mod_lt _ (by decide)

/-- Fields that lie apart in their pages, on whatever pages. -/
theorem key_ne_far {p q : Nat} {f g : Fld} (hf : fldAt f < 131072) (hg : fldAt g < 131072) (h : fldAt f ≠ fldAt g) :
    key p f ≠ key q g := by
  by_cases hp : p = q
  · rw [hp]; exact key_ne_fld q h
  · exact key_ne_page hp hf hg

/-- The POISON_LINES registers of both controllers (R360). -/
def poisonLines : List (Nat × Fld) := [(pgDmc 0, F.DMC_POISON_LINES), (pgDmc 1, F.DMC_POISON_LINES)]

theorem mem_poisonLines {c : Nat} (hc : c < 2) : (pgDmc c, F.DMC_POISON_LINES) ∈ poisonLines := by
  interval_cases c <;> simp [poisonLines]

theorem unpoison_moved (d : Dev) (a len : Nat) : Moved noDmc poisonLines d (unpoison d a len) := by
  refine Moved.of_foldl d fun d l _ => ?_
  split
  · exact .trans _ _ _ (.of_regs _ _) (.of_setR _ _ (mem_poisonLines (chanOf_lt _)))
  · exact .refl d

theorem getR_dramWrite {d : Dev} {a : Nat} {b : List Nat} {p : Nat} {f : Fld} (h : ∀ x ∈ poisonLines, key x.1 x.2 ≠ key p f) :
    getR (dramWrite d a b) p f = getR d p f := (unpoison_moved _ a b.length).getR_eq h

/-- A write leaves every other register of a controller. -/
theorem getR_dmc_dramWrite (d : Dev) (a : Nat) (b : List Nat) (p : Nat) {f : Fld} (hf : fldAt f < 131072)
    (hne : fldAt F.DMC_POISON_LINES ≠ fldAt f) : getR (dramWrite d a b) p f = getR d p f :=
  getR_dramWrite (by
    simp only [poisonLines, List.mem_cons, List.not_mem_nil, or_false, forall_eq_or_imp, forall_eq]
    exact ⟨key_ne_far (by decide) hf hne, key_ne_far (by decide) hf hne⟩)

@[simp] theorem dramWrite_evt (d : Dev) (a : Nat) (b : List Nat) : (dramWrite d a b).evt = d.evt :=
  (unpoison_moved (store d a b) a b.length).field Dev.evt
@[simp] theorem dramWrite_ticks (d : Dev) (a : Nat) (b : List Nat) : (dramWrite d a b).ticks = d.ticks :=
  (unpoison_moved (store d a b) a b.length).field Dev.ticks
@[simp] theorem dramWrite_mem (d : Dev) (a : Nat) (b : List Nat) : (dramWrite d a b).mem = memWrite d.mem a b :=
  (unpoison_moved (store d a b) a b.length).field Dev.mem

/-- A byte of memory after a write. -/
theorem memByte_memWrite (m : List Host.Cell) (a : Nat) (b : List Nat) (y : Nat) :
    memByte (memWrite m a b) y = if a ≤ y ∧ y < a + b.length then b.getD (y - a) 0 % 256 else memByte m y := by
  split
  case isTrue h =>
    obtain ⟨i, rfl⟩ := Nat.exists_eq_add_of_le h.1
    have hi : i < b.length := by omega
    rw [memByte_memWrite_in m a b i hi, Nat.add_sub_cancel_left, List.getD_eq_getElem _ _ hi]
  case isFalse h => exact memByte_memWrite_out m a b y (by omega)

/-- The POISON_HITS registers of both controllers (R360). -/
def poisonHits : List (Nat × Fld) := [(pgDmc 0, F.DMC_POISON_HITS), (pgDmc 1, F.DMC_POISON_HITS)]

theorem poisonHit_moved (d : Dev) (a len : Nat) : Moved noRegs poisonHits d (poisonHit d a len) := by
  refine Moved.of_foldl d fun d c hc => ?_
  have hc2 : c < 2 := List.mem_range.1 hc
  split
  · exact .of_addC d 1 (by interval_cases c <;> simp [poisonHits])
  · exact .refl d

/-- A read leaves every other register of a controller. -/
theorem getR_dmc_poisonHit (d : Dev) (a len p : Nat) {f : Fld} (hf : fldAt f < 131072)
    (hne : fldAt F.DMC_POISON_HITS ≠ fldAt f) : getR (poisonHit d a len) p f = getR d p f :=
  (poisonHit_moved d a len).getR_eq (by
    simp only [poisonHits, List.mem_cons, List.not_mem_nil, or_false, forall_eq_or_imp, forall_eq]
    exact ⟨key_ne_far (by decide) hf hne, key_ne_far (by decide) hf hne⟩)

@[simp] theorem evtRaw_poisonHit (d : Dev) (a len p : Nat) : evtRaw (poisonHit d a len) p = evtRaw d p :=
  congrArg (fun e => Store.get e 0 p) ((poisonHit_moved d a len).field Dev.evt)

@[simp] theorem poisonHit_ledgerOut (d : Dev) (a len : Nat) : (poisonHit d a len).ledgerOut = d.ledgerOut :=
  (poisonHit_moved d a len).field Dev.ledgerOut
@[simp] theorem poisonHit_evt (d : Dev) (a len : Nat) : (poisonHit d a len).evt = d.evt :=
  (poisonHit_moved d a len).field Dev.evt
@[simp] theorem poisonHit_mem (d : Dev) (a len : Nat) : (poisonHit d a len).mem = d.mem :=
  (poisonHit_moved d a len).field Dev.mem

end Sys2Proof.Machine

end

section
set_option Elab.async false
/-! PROOFS. Check units (R395–R397): where their fields lie, the register over its width, and the job of a unit. -/

namespace Sys2Proof.Machine

open Sys2Proof

/-! ### The fields of the CHK page (R398) -/

section
variable (u : Nat)

@[simp] theorem fldAt_CHK_POLY : fldAt (F.CHK_POLY u) = 2048 + 2048 * u := by simp only [fldAt, F.CHK_POLY]; omega
@[simp] theorem fldAt_CHK_BYTES : fldAt (F.CHK_BYTES u) = 2056 + 2048 * u := by simp only [fldAt, F.CHK_BYTES]; omega
@[simp] theorem fldAt_CHK_AUTO_CMP : fldAt (F.CHK_AUTO_CMP u) = 2064 + 2048 * u := by simp only [fldAt, F.CHK_AUTO_CMP]; omega
@[simp] theorem fldAt_CHK_CRC_STATE : fldAt (F.CHK_CRC_STATE u) = 2432 + 2048 * u := by simp only [fldAt, F.CHK_CRC_STATE]; omega
@[simp] theorem fldAt_CHK_RESULT : fldAt (F.CHK_RESULT u) = 32768 + 1024 * u := by simp only [fldAt, F.CHK_RESULT]; omega
@[simp] theorem fldAt_CHK_BUSY : fldAt (F.CHK_BUSY u) = 33024 + 1024 * u := by simp only [fldAt, F.CHK_BUSY]; omega
@[simp] theorem fldAt_CHK_LAST_MISMATCH : fldAt (F.CHK_LAST_MISMATCH u) = 33025 + 1024 * u := by
  simp only [fldAt, F.CHK_LAST_MISMATCH]; omega
@[simp] theorem fldAt_CHK_DMA_ERROR : fldAt (F.CHK_DMA_ERROR u) = 33026 + 1024 * u := by simp only [fldAt, F.CHK_DMA_ERROR]; omega
@[simp] theorem fldAt_CHK_FED : fldAt (F.CHK_FED u) = 33152 + 1024 * u := by simp only [fldAt, F.CHK_FED]; omega
@[simp] theorem fldAt_CHK_MATCHES : fldAt (F.CHK_MATCHES u) = 33408 + 1024 * u := by simp only [fldAt, F.CHK_MATCHES]; omega
@[simp] theorem fldAt_CHK_MISMATCHES : fldAt (F.CHK_MISMATCHES u) = 33536 + 1024 * u := by simp only [fldAt, F.CHK_MISMATCHES]; omega

end

/-! ### The CRC register (R395, R396) -/

theorem crcParm_mem (k : Nat) : crcParm k ∈ [crc32cP, crc32P, crc16P, crc64P] := by
  unfold crcParm; (repeat' split) <;> simp

theorem crcParm_width (k : Nat) : (crcParm k).width ≤ 64 :=
  (by decide : ∀ q ∈ [crc32cP, crc32P, crc16P, crc64P], q.width ≤ 64) _ (crcParm_mem k)
theorem crcParm_xorout (k : Nat) : (crcParm k).xorout < 2 ^ (crcParm k).width :=
  (by decide : ∀ q ∈ [crc32cP, crc32P, crc16P, crc64P], q.xorout < 2 ^ q.width) _ (crcParm_mem k)
theorem crcParm_init (k : Nat) : (crcParm k).init < 2 ^ (crcParm k).width :=
  (by decide : ∀ q ∈ [crc32cP, crc32P, crc16P, crc64P], q.init < 2 ^ q.width) _ (crcParm_mem k)

/-- A value over the width in use fits a register of 64 bits. -/
theorem crc_fits (k : Nat) {x : Nat} (h : x < 2 ^ (crcParm k).width) : x % 2 ^ 64 = x :=
  Nat.mod_eq_of_lt (h.trans_le (Nat.pow_le_pow_right (by decide) (crcParm_width k)))

section
variable {d : Dev} {u : Nat} (c : Nat)

theorem chkPut_moved : Moved noRegs [(pgChk, F.CHK_CRC_STATE u), (pgChk, F.CHK_RESULT u)] d (chkPut d u c) :=
  .trans _ _ _ (.of_setR _ _ (by simp)) (.of_setR _ _ (by simp))

theorem crcState_chkPut :
    getR (chkPut d u c) pgChk (F.CHK_CRC_STATE u) = c % 2 ^ (crcParm (getR d pgChk (F.CHK_POLY u))).width := by
  rw [chkPut, getR_setR_fld _ _ _ (by simp; omega), getR_setR_self]
  exact crc_fits _ (Nat.mod_lt _ (by positivity))

theorem result_chkPut : getR (chkPut d u c) pgChk (F.CHK_RESULT u) =
    (c % 2 ^ (crcParm (getR d pgChk (F.CHK_POLY u))).width) ^^^ (crcParm (getR d pgChk (F.CHK_POLY u))).xorout := by
  rw [chkPut, getR_setR_self]
  exact crc_fits _ (Nat.xor_lt_two_pow (Nat.mod_lt _ (by positivity)) (crcParm_xorout _))

end

/-! ### Bytes fed, a comparison, the end of a job -/

section
variable (d : Dev) (u : Nat)

/-- The registers that bytes fed to unit `u` change. -/
def chkFedRegs (u : Nat) : List (Nat × Fld) := [(pgChk, F.CHK_CRC_STATE u), (pgChk, F.CHK_RESULT u), (pgChk, F.CHK_FED u)]

theorem chkFeed_moved (b : List Nat) : Moved noRegs (chkFedRegs u) d (chkFeed d u b) :=
  .trans _ _ _ ((chkPut_moved _).mono (by simp [chkFedRegs])) (.of_addC _ _ (by simp [chkFedRegs]))

theorem crcState_chkFeed (b : List Nat) (hu : u < 8) : getR (chkFeed d u b) pgChk (F.CHK_CRC_STATE u) =
    crcFeed (chkParm d u) (chkState d u) b % 2 ^ (chkParm d u).width := by
  rw [chkFeed, getR_addC_fld _ _ _ (by simp; omega), crcState_chkPut]; rfl

theorem result_chkFeed (b : List Nat) : getR (chkFeed d u b) pgChk (F.CHK_RESULT u) =
    (crcFeed (chkParm d u) (chkState d u) b % 2 ^ (chkParm d u).width) ^^^ (chkParm d u).xorout := by
  rw [chkFeed, getR_addC_fld _ _ _ (by simp), result_chkPut]; rfl

theorem fed_chkFeed (b : List Nat) (hu : u < 8) : getR (chkFeed d u b) pgChk (F.CHK_FED u) =
    (getR d pgChk (F.CHK_FED u) + b.length) % 2 ^ 64 := by
  rw [chkFeed, getR_addC_wide _ _ _ (show 32 < 64 by decide), (chkPut_moved _).getR_fld (by simp; omega)]; rfl

theorem chkSetBusy_moved (v : Nat) : Moved noRegs [(pgChk, F.CHK_BUSY u), (pgChk, cSTATE)] d (chkSetBusy d u v) :=
  .trans _ _ _ (.of_setR _ _ (by simp)) (.of_setR _ _ (by simp))

theorem busy_chkSetBusy (v : Nat) : getR (chkSetBusy d u v) pgChk (F.CHK_BUSY u) = v % 2 := by
  rw [chkSetBusy, getR_setR_fld _ _ _ (by simp; omega), getR_setR_self]; rfl

/-- The device but for its registers and the jobs of the check units. -/
def noChkJobs (d : Dev) : Dev := { d with regs := [], chkJobs := [] }

theorem chkEnd_moved : Moved noChkJobs [(pgChk, F.CHK_BUSY u), (pgChk, cSTATE)] d (chkEnd d u) :=
  .trans _ _ _ (.of_regs d { d with chkJobs := Store.erase d.chkJobs u }) ⟨rfl, (chkSetBusy_moved _ u 0).keeps⟩

theorem chkJobs_chkEnd : Store.find (chkEnd d u).chkJobs u = none := Store.find_erase_self _ _

end

end Sys2Proof.Machine
end

section
set_option Elab.async false
/-! PROOFS. Check units and host jobs (R393, R396, R397): the commands. -/

namespace Sys2Proof.Machine

open Sys2Proof

/-! ### Writes of a check unit -/

section
variable {s : State} {u : Nat} (t : Nat) (hu : u < 8) (hs : Awake s) (hr : Reach s.dev pgChk)

section
include hu hs hr

theorem gives_chkDataWrite (v : Nat) : Gives (.chkDataWrite t u v) s (chkData (advance s.dev t) u v) :=
  gives_of_write (f := fun d => chkData d u v) rfl (decide_eq_true hu) hr hs

theorem gives_chkStateWrite {w : Nat} (v : Nat) (hw : w < 2) : Gives (.chkStateWrite t u w v) s (chkStateW (advance s.dev t) u w v) :=
  gives_of_write (f := fun d => chkStateW d u w v) rfl (by simp [hu, hw]) hr hs

theorem gives_chkPolyWrite (v : Nat) : Gives (.chkPolyWrite t u v) s (chkCfg (advance s.dev t) u v) :=
  gives_of_write (f := fun d => chkCfg d u v) rfl (decide_eq_true hu) hr hs

theorem gives_chkCompare : Gives (.chkCompare t u) s (chkCompare (advance s.dev t) u) :=
  gives_of_write (f := fun d => chkCompare d u) rfl (decide_eq_true hu) hr hs

theorem gives_chkInit : Gives (.chkInit t u) s (chkInit (advance s.dev t) u) :=
  gives_of_write (f := fun d => chkInit d u) rfl (decide_eq_true hu) hr hs

theorem gives_chkGo : Gives (.chkGo t u) s (chkGo (advance s.dev t) u) :=
  gives_of_write (f := fun d => chkGo d u) rfl (decide_eq_true hu) hr hs

theorem gives_chkAbort (v : Nat) : Gives (.chkAbort t u v) s (chkAbort (advance s.dev t) u v) :=
  gives_of_write (f := fun d => chkAbort d u v) rfl (decide_eq_true hu) hr hs

end

include hu hs in
theorem gives_chkDmaDone : Gives (.chkDmaDone t u) s (doChkDone t u s.dev) := gives_of_act rfl (decide_eq_true hu) hs

end

section
variable {d : Dev} {u : Nat}

theorem chkIdle_busy {f : Dev → Dev} (h : chkBusy d u = true) : chkIdle u f d = bump d pgChk (F.CHK_REFUSED u) := if_pos h
theorem chkIdle_free {f : Dev → Dev} (h : chkBusy d u = false) : chkIdle u f d = f d := if_neg (by simp [h])

/-- The register of unit `u` holds `x` over the width in use, and RESULT follows. -/
def ChkHolds (d e : Dev) (u x : Nat) : Prop :=
  getR e pgChk (F.CHK_CRC_STATE u) = x % 2 ^ (chkParm d u).width ∧
    getR e pgChk (F.CHK_RESULT u) = (x % 2 ^ (chkParm d u).width) ^^^ (chkParm d u).xorout

theorem chkPut_holds (d : Dev) (u c : Nat) : ChkHolds d (chkPut d u c) u c := ⟨crcState_chkPut c, result_chkPut c⟩

/-- Unit `u` has been fed the bytes `b`. -/
def ChkFed (d e : Dev) (u : Nat) (b : List Nat) : Prop :=
  ChkHolds d e u (crcFeed (chkParm d u) (chkState d u) b) ∧
    getR e pgChk (F.CHK_FED u) = (getR d pgChk (F.CHK_FED u) + b.length) % 2 ^ 64

theorem chkFeed_fed (d : Dev) (b : List Nat) (hu : u < 8) : ChkFed d (chkFeed d u b) u b :=
  ⟨⟨crcState_chkFeed d u b hu, result_chkFeed d u b⟩, fed_chkFeed d u b hu⟩

/-- What leaves the registers of the feed alone leaves the unit fed. -/
theorem ChkFed.keep {e e' : Dev} {b : List Nat} (h : ChkFed d e u b)
    (hk : ∀ f ∈ [F.CHK_CRC_STATE u, F.CHK_RESULT u, F.CHK_FED u], getR e' pgChk f = getR e pgChk f) : ChkFed d e' u b := by
  obtain ⟨⟨hstate, hresult⟩, hfed⟩ := h
  exact ⟨⟨(hk _ (by simp)).trans hstate, (hk _ (by simp)).trans hresult⟩, (hk _ (by simp)).trans hfed⟩

theorem chkEnd_fed {e : Dev} {b : List Nat} (hu : u < 8) (h : ChkFed d e u b) : ChkFed d (chkEnd e u) u b :=
  h.keep fun f hf => (chkEnd_moved e u).getR_fld (by
    simp only [List.mem_cons, List.not_mem_nil, or_false] at hf
    obtain rfl | rfl | rfl := hf <;> simp <;> omega)

/-! ### The job of a unit -/

theorem chkGo_busy (h : chkBusy d u = true) : chkGo d u = d := if_pos h

/-- Unit `u` has the job that its registers name. -/
def chkTakeJob (d : Dev) (u : Nat) : Dev :=
  let j := (getR d pgChk (F.CHK_SRC u), getR d pgChk (F.CHK_LEN u))
  { d with chkJobs := Store.insert (Store.erase d.chkJobs u) u j }

theorem chkGo_starts (h : chkBusy d u = false) :
    chkGo d u = chkSetBusy (setR (chkTakeJob d u) pgChk (F.CHK_DMA_ERROR u) 0) u 1 := if_neg (by simp [h])

/-- While a unit is busy the page shows a job running. -/
theorem state_chkSetBusy_one (d : Dev) (hu : u < 8) : getR (chkSetBusy d u 1) pgChk cSTATE = 1 := by
  rw [chkSetBusy, getR_setR_self]
  have hbusy : chkBusy (setR d pgChk (F.CHK_BUSY u) 1) u = true := by
    rw [chkBusy, flagR, getR_setR_self]; rfl
  rw [List.any_eq_true.2 ⟨u, List.mem_range.2 hu, hbusy⟩]; rfl

/-- The job of unit `u` ends with the bytes `b` fed. -/
def chkStop (d : Dev) (u : Nat) (b : List Nat) : Dev := chkEnd (chkFeed d u b) u

/-- A job that met a poisoned line ends so. -/
def chkPoisoned (d : Dev) (u a n : Nat) (b : List Nat) : Dev := poisonHit (setR (chkStop d u b) pgChk (F.CHK_DMA_ERROR u) 1) a n

/-- A whole job ends so: with a comparison where CFG.AUTO_CMP asks for one. -/
def chkWhole (d : Dev) (u : Nat) (b : List Nat) : Dev :=
  raise (onlyIf (flagR (chkStop d u b) pgChk (F.CHK_AUTO_CMP u)) (fun d => chkCompare d u) (chkStop d u b)) pgChk (16 + u)

theorem chkAbort_none {v : Nat} (h : Store.find d.chkJobs u = none) : chkAbort d u v = d := by simp [chkAbort, h]

theorem chkAbort_some {a n v : Nat} (h : Store.find d.chkJobs u = some (a, n)) :
    chkAbort d u v = chkStop d u (load d a (min v n)) := by simp [chkAbort, h, chkStop]

theorem doChkDone_none (t : Nat) (h : Store.find d.chkJobs u = none) : doChkDone t u d = advance d t := by
  simp [doChkDone, h]

theorem doChkDone_poisoned (t : Nat) {a n : Nat} (h : Store.find d.chkJobs u = some (a, n)) (hp : beforePoison d a n < n) :
    doChkDone t u d = chkPoisoned (advance d t) u a n (load d a (beforePoison d a n)) := by
  simp only [doChkDone, advance_chkJobs, h]; exact if_pos hp

theorem doChkDone_whole (t : Nat) {a n : Nat} (h : Store.find d.chkJobs u = some (a, n)) (hp : n ≤ beforePoison d a n) :
    doChkDone t u d = chkWhole (advance d t) u (load d a (beforePoison d a n)) := by
  simp only [doChkDone, advance_chkJobs, h]; exact if_neg (Nat.not_lt.2 hp)

/-- A comparison changes its counters and LAST_MISMATCH alone. -/
theorem chkCompare_moved (d : Dev) (u : Nat) : Moved noShow
    [(pgChk, F.CHK_LAST_MISMATCH u), (pgChk, F.CHK_MATCHES u), (pgChk, F.CHK_MISMATCHES u)] d (chkCompare d u) := by
  simp only [chkCompare]; split
  · exact .then_bump (.then_setR (.refl d) (by simp)) (by simp)
  · exact .then_raise (.then_bump (.then_setR (.refl d) (by simp)) (by simp))

end

/-! ### Host jobs (R393) -/

/-- The host job that the registers of engine `e` name starts, or is refused. -/
def melStart (d : Dev) (e : Nat) : Dev :=
  let j := melJob d e
  if melRefuse d e j then raise (bump (setR d (pgMel e) F.MEL_JOB_REFUSED 1) (pgMel e) F.MEL_REFUSED) (pgMel e) 10
  else
    let d := setR (setR (setR d (pgMel e) F.MEL_JOB_REFUSED 0) (pgMel e) cSTATE 2) (pgMel e) cBUSY 1
    { d with mels := Store.insert (Store.erase d.mels e) e j }

theorem melStart_refused {d : Dev} {e : Nat} (h : melRefuse d e (melJob d e) = true) :
    melStart d e = raise (bump (setR d (pgMel e) F.MEL_JOB_REFUSED 1) (pgMel e) F.MEL_REFUSED) (pgMel e) 10 := if_pos h

section
variable {s : State} {e : Nat} (t : Nat) (he : e < 4) (hs : Awake s)

include he hs in
theorem gives_melJobDone : Gives (.melJobDone t e) s (doMelDone t e s.dev) := gives_of_act rfl (decide_eq_true he) hs

section
variable (hr : Reach s.dev (pgMel e))
include he hs hr

theorem gives_melGo : Gives (.melGo t e) s (melStart (advance s.dev t) e) :=
  gives_of_write (f := fun d => melStart d e) rfl (decide_eq_true he) hr hs

end
end

/-- The end of a job of engine `e` that delivers `len` bytes with verdict `v` (R393). -/
def melFinish (d : Dev) (e len v : Nat) : Dev :=
  melHostShow (onlyIf (v != 0) (fun d => raise d (pgMel e) 9)
    (raise (setR (setR d (pgMel e) F.MEL_OUT_LEN len) (pgMel e) F.MEL_VERDICT v) (pgMel e) 8)) e

/-- The engine is idle again. -/
def melIdle (d : Dev) (e : Nat) : Dev :=
  setR (setR { d with mels := Store.erase d.mels e } (pgMel e) cSTATE 0) (pgMel e) cBUSY 0

section
variable {d : Dev} {e : Nat} (t : Nat)

theorem doMelDone_none (h : Store.find d.mels e = none) : doMelDone t e d = advance d t := by simp [doMelDone, h]

theorem doMelDone_poisoned {j : MelJob} (h : Store.find d.mels e = some j) (hp : poisoned d j.src j.srcLen = true) :
    doMelDone t e d = melFinish (poisonHit (melIdle (advance d t) e) j.src j.srcLen) e 0 7 := by
  simp only [doMelDone, advance_mels, h]; exact if_pos hp

/-- What a job delivers: the verdict, the bytes, and whether an encoded block is RAW. -/
def melOut (j : MelJob) (b : List Nat) : Nat × List Nat × Bool :=
  if j.op = 0 then (0, encodeBlock (hostHead j b) j.level j.delta b) else ((decodeBlock b).1, (decodeBlock b).2, false)

/-- The job `j` of engine `e` ends with the result `x`: its bytes are written, and its counters and verdict follow. -/
def melDeliver (d : Dev) (e : Nat) (j : MelJob) (x : Nat × List Nat × Bool) : Dev :=
  melFinish (melCount (dramWrite (melIdle d e) j.dst x.2.1) e j.srcLen x.2.1.length (if j.op = 0 then 0 else 1) x.2.2 x.1) e
    x.2.1.length x.1

theorem doMelDone_done {j : MelJob} (h : Store.find d.mels e = some j) (hp : poisoned d j.src j.srcLen = false) :
    let b := load d j.src j.srcLen
    let x := melOut j b
    doMelDone t e d = melDeliver (advance d t) e j x := by
  simp only [doMelDone, advance_mels, h]
  refine (if_neg (Bool.eq_false_iff.1 hp)).trans ?_
  unfold melDeliver melOut
  split <;> rfl

end

/-! ### What the end of a host job shows -/

/-- The device but for its registers and events and what the engines keep outside theirs. -/
def noMel (d : Dev) : Dev := { d with regs := [], evt := [], mels := [], melHostNext := [] }

theorem melHostShow_moved (d : Dev) (e : Nat) : Moved noMel [(pgMel e, F.MEL_HOST_EN)] d (melHostShow d e) := by
  unfold melHostShow; split
  · exact .trans _ _ _ (.of_setR (p := pgMel e) (f := F.MEL_HOST_EN) d _ (by simp)) (.of_regs _ _)
  · exact .refl d

theorem melHostShow_evt (d : Dev) (e : Nat) : (melHostShow d e).evt = d.evt := by unfold melHostShow; split <;> rfl

section
variable (d : Dev) (e len v : Nat)

theorem melFinish_moved :
    Moved noMel [(pgMel e, F.MEL_OUT_LEN), (pgMel e, F.MEL_VERDICT), (pgMel e, F.MEL_HOST_EN)] d (melFinish d e len v) :=
  .trans _ _ _
    (.then_onlyIf (.then_raise (.then_setR (.then_setR (.refl d) (by simp)) (by simp))) (.of_regs _ _))
    ((melHostShow_moved _ e).mono (by simp))

theorem melFinish_mem : (melFinish d e len v).mem = d.mem := (melFinish_moved d e len v).field Dev.mem

theorem outLen_melFinish : getR (melFinish d e len v) (pgMel e) F.MEL_OUT_LEN = len % 2 ^ 21 := by
  rw [melFinish, (melHostShow_moved _ e).getR_fld (by simp; decide),
    (Moved.of_onlyIf (k := noMel) (fs := []) _ _ (.of_regs _ _)).getR_eq (by simp), getR_raise,
    getR_setR_fld _ _ _ (by decide), getR_setR_self]; rfl

theorem verdict_melFinish : getR (melFinish d e len v) (pgMel e) F.MEL_VERDICT = v % 8 := by
  rw [melFinish, (melHostShow_moved _ e).getR_fld (by simp; decide),
    (Moved.of_onlyIf (k := noMel) (fs := []) _ _ (.of_regs _ _)).getR_eq (by simp), getR_raise, getR_setR_self]; rfl

theorem done_melFinish : (evtRaw (melFinish d e len v) (pgMel e)).testBit 8 = true := by
  rw [melFinish, evtRaw, melHostShow_evt]
  exact onlyIf_rel (R := fun a b => (evtRaw a (pgMel e)).testBit 8 = true → (evtRaw b (pgMel e)).testBit 8 = true)
    (fun _ h => h) _ _ (raise_mono _ _ _ _ _) (raise_bit _ _ _)

theorem bad_melFinish (h : v ≠ 0) : (evtRaw (melFinish d e len v) (pgMel e)).testBit 9 = true := by
  rw [melFinish, evtRaw, melHostShow_evt, onlyIf, if_pos (by simpa using h)]
  exact raise_bit _ _ _

end

/-- The counters of an engine after a block. -/
def melCounters (e : Nat) : List (Nat × Fld) := [(pgMel e, F.MEL_IN_BYTES), (pgMel e, F.MEL_OUT_BYTES),
  (pgMel e, F.MEL_RAW_BLOCKS), (pgMel e, F.MEL_ENCODED), (pgMel e, F.MEL_DECODED), (pgMel e, F.MEL_MISMATCHES),
  (pgMel e, F.MEL_UNVERIFIED), (pgMel e, F.MEL_MALFORMED)]

section
variable (d : Dev) (e a b : Nat) (raw : Bool)

/-- Bytes in and out are counted. -/
theorem melBytes_moved : Moved noRegs (melCounters e) d (addC (addC d (pgMel e) F.MEL_IN_BYTES a) (pgMel e) F.MEL_OUT_BYTES b) :=
  .then_addC (.then_addC (.refl d) (by simp [melCounters])) (by simp [melCounters])

theorem melCount_moved (op v : Nat) : Moved noRegs (melCounters e) d (melCount d e a b op raw v) := by
  unfold melCount
  have hbytes := melBytes_moved d e a b
  dsimp only
  split
  · exact .then_onlyIf (.then_bump hbytes (by simp [melCounters])) (.of_addC _ _ (by simp [melCounters]))
  · have hdec := hbytes.then_bump (p := pgMel e) (f := F.MEL_DECODED) (by simp [melCounters])
    split
    · exact hdec.then_bump (by simp [melCounters])
    · split
      · exact hdec.then_bump (by simp [melCounters])
      · split
        · exact hdec.then_bump (by simp [melCounters])
        · exact hdec

/-- A decoded block counts in the counter of its verdict (R394). -/
theorem verdict_melCount {v : Nat} {f : Fld} (hf : f.width = 32)
    (h : v = 1 ∧ f = F.MEL_MISMATCHES ∨ v = 2 ∧ f = F.MEL_UNVERIFIED ∨ v = 3 ∧ f = F.MEL_MALFORMED) :
    getR (melCount d e a b 1 raw v) (pgMel e) f = min (getR d (pgMel e) f + 1) (2 ^ 32 - 1) := by
  have hcount : melCount d e a b 1 raw v =
      bump (bump (addC (addC d (pgMel e) F.MEL_IN_BYTES a) (pgMel e) F.MEL_OUT_BYTES b) (pgMel e) F.MEL_DECODED) (pgMel e) f := by
    obtain ⟨rfl, rfl⟩ | ⟨rfl, rfl⟩ | ⟨rfl, rfl⟩ := h <;> rfl
  have hne : fldAt F.MEL_IN_BYTES ≠ fldAt f ∧ fldAt F.MEL_OUT_BYTES ≠ fldAt f ∧ fldAt F.MEL_DECODED ≠ fldAt f := by
    obtain ⟨-, rfl⟩ | ⟨-, rfl⟩ | ⟨-, rfl⟩ := h <;> decide
  rw [hcount, bump, getR_addC_narrow _ _ _ (by omega), bump, getR_addC_fld _ _ _ hne.2.2, getR_addC_fld _ _ _ hne.2.1,
    getR_addC_fld _ _ _ hne.1, hf]

end

/-- A verdict chosen in the order of R389: malformed, unverified, mismatch, good. -/
theorem verdict_lt_four (malformed unverified mismatch : Prop) [Decidable malformed] [Decidable unverified] [Decidable mismatch]
    (x : List Nat) :
    (if malformed then (3, x) else (if unverified then 2 else if mismatch then 1 else 0, x)).1 < 4 := by
  by_cases hm : malformed
  · simp [hm]
  · by_cases hu : unverified
    · simp [hm, hu]
    · by_cases hx : mismatch <;> simp [hm, hu, hx]

/-- The verdicts of a decoder (R389). -/
theorem decodeBlock_verdict (b : List Nat) : (decodeBlock b).1 < 4 := by
  rw [decodeBlock]
  split
  · exact Nat.lt_succ_self 3
  · exact verdict_lt_four _ _ _ _

theorem melOut_verdict (j : MelJob) (b : List Nat) : (melOut j b).1 < 4 := by
  unfold melOut; split
  · exact Nat.zero_lt_succ 3
  · exact decodeBlock_verdict b

end Sys2Proof.Machine
end

section
set_option Elab.async false
/-! PROOFS. Check units and host jobs: what the commands leave, and obligation O52. -/

namespace Sys2Proof.Machine

open Sys2Proof

section
variable {d e : Dev} {u : Nat}

theorem ChkHolds.settle {x : Nat} (h : ChkHolds d e u x) : ChkHolds d (settle e) u x := by
  obtain ⟨hstate, hresult⟩ := h
  exact ⟨(getR_settle _ _ _).trans hstate, (getR_settle _ _ _).trans hresult⟩

theorem ChkFed.settle {b : List Nat} (h : ChkFed d e u b) : ChkFed d (settle e) u b := h.keep fun _ _ => getR_settle _ _ _

theorem busy_chkEnd (d : Dev) (u : Nat) : getR (chkEnd d u) pgChk (F.CHK_BUSY u) = 0 := busy_chkSetBusy _ u 0

/-! ### Configuration (R396) -/

/-- BYTES, AUTO_CMP and POLY as a write of CFG sets them. -/
def chkSetCfg (d : Dev) (u v : Nat) : Dev :=
  setR (setR (setR d pgChk (F.CHK_BYTES u) (bits v 8 3)) pgChk (F.CHK_AUTO_CMP u) (bits v 16 1)) pgChk (F.CHK_POLY u) (bits v 0 2)

theorem chkSetCfg_moved (d : Dev) (u v : Nat) :
    Moved noRegs [(pgChk, F.CHK_BYTES u), (pgChk, F.CHK_AUTO_CMP u), (pgChk, F.CHK_POLY u)] d (chkSetCfg d u v) :=
  .then_setR (.then_setR (.then_setR (.refl d) (by simp)) (by simp)) (by simp)

theorem poly_chkSetCfg (d : Dev) (u v : Nat) : getR (chkSetCfg d u v) pgChk (F.CHK_POLY u) = v % 4 := by
  rw [chkSetCfg, getR_setR_self, bits, Nat.pow_zero, Nat.div_one]; exact Nat.mod_mod _ _

theorem autoCmp_chkSetCfg (d : Dev) (u v : Nat) : getR (chkSetCfg d u v) pgChk (F.CHK_AUTO_CMP u) = v / 2 ^ 16 % 2 := by
  rw [chkSetCfg, getR_setR_fld _ _ _ (by simp), getR_setR_self]; exact Nat.mod_mod _ _

theorem bytes_chkSetCfg (d : Dev) (u v : Nat) : getR (chkSetCfg d u v) pgChk (F.CHK_BYTES u) = v / 2 ^ 8 % 8 := by
  rw [chkSetCfg, getR_setR_fld _ _ _ (by simp), getR_setR_fld _ _ _ (by simp), getR_setR_self]; exact Nat.mod_mod _ _

/-- A write of CFG to an idle unit: the register restarts where POLY changes. -/
theorem chkCfg_free (v : Nat) (h : chkBusy d u = false) : chkCfg d u v =
    if getR d pgChk (F.CHK_POLY u) = v % 4 then chkSetCfg d u v else chkInit (chkSetCfg d u v) u := by
  have hbits : bits v 0 2 = v % 4 := congrArg (· % 4) (Nat.div_one v)
  rw [chkCfg, chkIdle_free h]
  simp only [hbits, chkSetCfg, chkInit]

theorem chkInit_moved (d : Dev) (u : Nat) : Moved noRegs [(pgChk, F.CHK_CRC_STATE u), (pgChk, F.CHK_RESULT u)] d (chkInit d u) :=
  chkPut_moved _

/-- After INIT the register holds the initial value of the unit's polynomial. -/
theorem crcState_chkInit (d : Dev) (u : Nat) : getR (chkInit d u) pgChk (F.CHK_CRC_STATE u) = (chkParm d u).init :=
  (crcState_chkPut _).trans (Nat.mod_eq_of_lt (crcParm_init _))

/-! ### Comparison (R396) -/

/-- RESULT agrees with EXPECT over the width in use. -/
def ChkEqual (d : Dev) (u : Nat) : Prop :=
  crcOut (chkParm d u) (chkState d u) = getR d pgChk (F.CHK_EXPECT u) % 2 ^ (chkParm d u).width

theorem chkCompare_equal (h : ChkEqual d u) :
    chkCompare d u = bump (setR d pgChk (F.CHK_LAST_MISMATCH u) 0) pgChk (F.CHK_MATCHES u) := if_pos h

theorem chkCompare_unequal (h : ¬ ChkEqual d u) :
    chkCompare d u = raise (bump (setR d pgChk (F.CHK_LAST_MISMATCH u) 1) pgChk (F.CHK_MISMATCHES u)) pgChk (8 + u) := if_neg h

/-! ### The end of a job (R397) -/

section
variable (d : Dev) (u : Nat) (b : List Nat)

theorem chkStop_moved : Moved noChkJobs (chkFedRegs u ++ [(pgChk, F.CHK_BUSY u), (pgChk, cSTATE)]) d (chkStop d u b) :=
  .trans _ _ _ ((chkFeed_moved d u b).coarser.mono (by simp +contextual)) ((chkEnd_moved _ u).mono (by simp))

@[simp] theorem chkStop_evt : (chkStop d u b).evt = d.evt := (chkStop_moved d u b).field Dev.evt
@[simp] theorem chkStop_mem : (chkStop d u b).mem = d.mem := (chkStop_moved d u b).field Dev.mem
@[simp] theorem chkStop_chkJobs : Store.find (chkStop d u b).chkJobs u = none := chkJobs_chkEnd _ u
@[simp] theorem busy_chkStop : getR (chkStop d u b) pgChk (F.CHK_BUSY u) = 0 := busy_chkEnd _ u

end

theorem chkStop_fed (d : Dev) {u : Nat} (hu : u < 8) (b : List Nat) : ChkFed d (chkStop d u b) u b :=
  chkEnd_fed hu (chkFeed_fed d b hu)

section
variable (d : Dev) (u a n : Nat) (b : List Nat)

theorem chkPoisoned_moved : Moved noRegs ((pgChk, F.CHK_DMA_ERROR u) :: poisonHits) (chkStop d u b) (chkPoisoned d u a n b) :=
  .trans _ _ _ (.of_setR _ _ (by simp)) ((poisonHit_moved _ a n).mono (by simp +contextual))

theorem chkPoisoned_evt : (chkPoisoned d u a n b).evt = d.evt :=
  ((chkPoisoned_moved d u a n b).field Dev.evt).trans (chkStop_evt d u b)
theorem chkPoisoned_mem : (chkPoisoned d u a n b).mem = d.mem :=
  ((chkPoisoned_moved d u a n b).field Dev.mem).trans (chkStop_mem d u b)
theorem chkPoisoned_chkJobs : Store.find (chkPoisoned d u a n b).chkJobs u = none :=
  (congrArg (Store.find · u) ((chkPoisoned_moved d u a n b).field Dev.chkJobs)).trans (chkStop_chkJobs d u b)

theorem dmaError_chkPoisoned (hu : u < 8) : getR (chkPoisoned d u a n b) pgChk (F.CHK_DMA_ERROR u) = 1 :=
  ((poisonHit_moved _ a n).getR_page (by simp; omega) (by decide)).trans (getR_setR_self _ _ _ _)

/-- A field of the unit other than DMA_ERROR. -/
theorem getR_chkPoisoned {f : Fld} (hf : fldAt f < 131072) (hne : fldAt (F.CHK_DMA_ERROR u) ≠ fldAt f) :
    getR (chkPoisoned d u a n b) pgChk f = getR (chkStop d u b) pgChk f :=
  ((poisonHit_moved _ a n).getR_page hf (by decide)).trans (getR_setR_fld _ _ _ hne)

theorem chkPoisoned_fed (hu : u < 8) : ChkFed d (chkPoisoned d u a n b) u b :=
  (chkStop_fed d hu b).keep fun f hf => getR_chkPoisoned d u a n b
    (by simp only [List.mem_cons, List.not_mem_nil, or_false] at hf; obtain rfl | rfl | rfl := hf <;> (simp; omega))
    (by simp only [List.mem_cons, List.not_mem_nil, or_false] at hf; obtain rfl | rfl | rfl := hf <;> simp <;> omega)

theorem busy_chkPoisoned (hu : u < 8) : getR (chkPoisoned d u a n b) pgChk (F.CHK_BUSY u) = 0 :=
  (getR_chkPoisoned d u a n b (by simp; omega) (by simp)).trans (busy_chkStop d u b)

theorem chkWhole_moved : Moved noShow [(pgChk, F.CHK_LAST_MISMATCH u), (pgChk, F.CHK_MATCHES u), (pgChk, F.CHK_MISMATCHES u)]
    (chkStop d u b) (chkWhole d u b) := .then_raise (.of_onlyIf _ _ (chkCompare_moved _ u))

theorem chkWhole_mem : (chkWhole d u b).mem = d.mem := ((chkWhole_moved d u b).field Dev.mem).trans (chkStop_mem d u b)
theorem chkWhole_chkJobs : Store.find (chkWhole d u b).chkJobs u = none :=
  (congrArg (Store.find · u) ((chkWhole_moved d u b).field Dev.chkJobs)).trans (chkStop_chkJobs d u b)

theorem chkWhole_fed (hu : u < 8) : ChkFed d (chkWhole d u b) u b :=
  (chkStop_fed d hu b).keep fun f hf => (chkWhole_moved d u b).getR_fld (by
    simp only [List.mem_cons, List.not_mem_nil, or_false] at hf
    obtain rfl | rfl | rfl := hf <;> simp <;> omega)

theorem done_chkWhole : (evtRaw (chkWhole d u b) pgChk).testBit (16 + u) = true := raise_bit _ _ _

theorem busy_chkWhole : getR (chkWhole d u b) pgChk (F.CHK_BUSY u) = 0 :=
  ((chkWhole_moved d u b).getR_fld (by simp)).trans (busy_chkStop d u b)

end

end

/-! ### The end of a host job (R393) -/

section
variable (d : Dev) (e len v : Nat)

theorem melIdle_moved : Moved noMel [(pgMel e, cSTATE), (pgMel e, cBUSY)] d (melIdle d e) := by
  have hjob : Moved noMel [(pgMel e, cSTATE), (pgMel e, cBUSY)] d { d with mels := Store.erase d.mels e } := .of_regs _ _
  exact (hjob.then_setR (by simp)).then_setR (by simp)

theorem melIdle_mem : (melIdle d e).mem = d.mem := (melIdle_moved d e).field Dev.mem

theorem state_melIdle : getR (melIdle d e) (pgMel e) cSTATE = 0 := by
  rw [melIdle, getR_setR_fld _ _ _ (by simp), getR_setR_self]; rfl

theorem busy_melIdle : getR (melIdle d e) (pgMel e) cBUSY = 0 := by rw [melIdle, getR_setR_self]; rfl

/-- A register of the engine that the end of a job does not name. -/
theorem getR_melFinish {f : Fld} (h : fldAt F.MEL_OUT_LEN ≠ fldAt f ∧ fldAt F.MEL_VERDICT ≠ fldAt f ∧ fldAt F.MEL_HOST_EN ≠ fldAt f) :
    getR (melFinish d e len v) (pgMel e) f = getR d (pgMel e) f := by
  obtain ⟨hlen, hverdict, hhost⟩ := h
  exact (melFinish_moved d e len v).getR_fld (by simp [hlen, hverdict, hhost])

/-- The pages of the controllers lie apart from those of the engines. -/
theorem getR_mel_poisonHit (d : Dev) {e : Nat} (he : e < 4) (a n : Nat) {f : Fld} (hf : fldAt f < 131072) :
    getR (poisonHit d a n) (pgMel e) f = getR d (pgMel e) f :=
  (poisonHit_moved d a n).getR_page hf (by
    simp only [poisonHits, List.mem_cons, List.not_mem_nil, or_false, forall_eq_or_imp, forall_eq]
    refine ⟨⟨?_, by decide⟩, ?_, by decide⟩ <;> simp only [pgDmc, pgMel] <;> omega)

theorem getR_mel_dramWrite (d : Dev) {e : Nat} (he : e < 4) (a : Nat) (b : List Nat) {f : Fld} (hf : fldAt f < 131072) :
    getR (dramWrite d a b) (pgMel e) f = getR d (pgMel e) f :=
  getR_dramWrite (by
    simp only [poisonLines, List.mem_cons, List.not_mem_nil, or_false, forall_eq_or_imp, forall_eq]
    refine ⟨key_ne_page ?_ (by decide) hf, key_ne_page ?_ (by decide) hf⟩ <;> simp only [pgDmc, pgMel] <;> omega)

theorem melDeliver_mem (j : MelJob) (x : Nat × List Nat × Bool) : (melDeliver d e j x).mem = memWrite d.mem j.dst x.2.1 := by
  rw [melDeliver, melFinish_mem]; exact ((melCount_moved _ e _ _ _ _ _).field Dev.mem).trans (dramWrite_mem _ _ _)

/-- The state of the engine after a job. -/
theorem getR_melDeliver {e : Nat} (he : e < 4) (j : MelJob) (x : Nat × List Nat × Bool) {f : Fld} (hf : fldAt f = 384 ∨ fldAt f = 388) :
    getR (melDeliver d e j x) (pgMel e) f = getR (melIdle d e) (pgMel e) f := by
  rw [melDeliver, getR_melFinish _ _ _ _ (by obtain h | h := hf <;> rw [h] <;> decide), (melCount_moved _ e _ _ _ _ _).getR_fld
    (by simp only [melCounters, List.mem_cons, List.not_mem_nil, or_false, forall_eq_or_imp, forall_eq, true_and]
        obtain h | h := hf <;> rw [h] <;> decide), getR_mel_dramWrite _ he _ _ (by omega)]

/-- A counter of blocks over the whole end of a job. -/
theorem counts_melDeliver {e : Nat} (he : e < 4) (j : MelJob) (x : Nat × List Nat × Bool) (hop : j.op ≠ 0) {f : Fld}
    (hf : x.1 = 1 ∧ f = F.MEL_MISMATCHES ∨ x.1 = 2 ∧ f = F.MEL_UNVERIFIED ∨ x.1 = 3 ∧ f = F.MEL_MALFORMED) :
    getR (melDeliver d e j x) (pgMel e) f = min (getR d (pgMel e) f + 1) (2 ^ 32 - 1) := by
  have hfar : f.width = 32 ∧ fldAt f < 131072 ∧ fldAt cSTATE ≠ fldAt f ∧ fldAt cBUSY ≠ fldAt f ∧ fldAt F.MEL_OUT_LEN ≠ fldAt f ∧
      fldAt F.MEL_VERDICT ≠ fldAt f ∧ fldAt F.MEL_HOST_EN ≠ fldAt f := by
    obtain ⟨-, rfl⟩ | ⟨-, rfl⟩ | ⟨-, rfl⟩ := hf <;> decide
  obtain ⟨hw, hsmall, hstate, hbusy, hfin⟩ := hfar
  rw [melDeliver, if_neg hop, getR_melFinish _ _ _ _ hfin, verdict_melCount _ _ _ _ _ hw hf, getR_mel_dramWrite _ he _ _ hsmall,
    (melIdle_moved d e).getR_fld (by simp only [List.mem_cons, List.not_mem_nil, or_false, forall_eq_or_imp, forall_eq]; exact ⟨⟨trivial, hstate⟩, trivial, hbusy⟩)]

end

theorem melOut_bytes (j : MelJob) (b : List Nat) :
    (melOut j b).2.1 = if j.op = 0 then (encodeBlock (hostHead j b) j.level j.delta b).1 else (decodeBlock b).2 := by
  unfold melOut; split <;> rfl

theorem melOut_fst (j : MelJob) (b : List Nat) : (melOut j b).1 = if j.op = 0 then 0 else (decodeBlock b).1 := by
  unfold melOut; split <;> rfl

/-- A verdict other than good is that of a decoder. -/
theorem op_of_melOut {j : MelJob} {b : List Nat} (h : (melOut j b).1 ≠ 0) : j.op ≠ 0 := fun h0 => h (by rw [melOut, if_pos h0])

/-! ### The start of a host job (R393) -/

/-- Engine `e` has the host job `j` and shows itself busy. -/
def melTakeJob (d : Dev) (e : Nat) (j : MelJob) : Dev :=
  let d := setR (setR (setR d (pgMel e) F.MEL_JOB_REFUSED 0) (pgMel e) cSTATE 2) (pgMel e) cBUSY 1
  { d with mels := Store.insert (Store.erase d.mels e) e j }

theorem melStart_starts {d : Dev} {e : Nat} (h : melRefuse d e (melJob d e) = false) :
    melStart d e = melTakeJob d e (melJob d e) := if_neg (by simp [h])

theorem getR_melTakeJob (d : Dev) (e : Nat) (j : MelJob) (f : Fld) : getR (melTakeJob d e j) (pgMel e) f =
    getR (setR (setR (setR d (pgMel e) F.MEL_JOB_REFUSED 0) (pgMel e) cSTATE 2) (pgMel e) cBUSY 1) (pgMel e) f := rfl

theorem melRefuse_false {d : Dev} {e : Nat} (h : melRefuse d e (melJob d e) = false) :
    flagR d (pgMel e) F.MEL_HOST_EN = true ∧ getR d (pgMel e) cSTATE = 0 ∧ getR d (pgMel e) F.MEL_SRC_LEN ≠ 0 ∧
      (getR d (pgMel e) F.MEL_OP = 0 → getR d (pgMel e) F.MEL_SRC_LEN ≤ 1048576 ∧
        getR d (pgMel e) F.MEL_SRC_LEN + 40 ≤ getR d (pgMel e) F.MEL_DST_LEN) := by
  simp only [melRefuse, Bool.or_eq_false_iff, Bool.not_eq_false', bne_eq_false_iff_eq, beq_eq_false_iff_ne] at h
  obtain ⟨⟨⟨⟨⟨hhost, hstate⟩, -⟩, -⟩, hlen⟩, hop⟩ := h
  refine ⟨hhost, hstate, hlen, fun h0 => ?_⟩
  have h0' : (melJob d e).op = 0 := h0
  rw [if_pos h0', Bool.or_eq_false_iff, decide_eq_false_iff_not, decide_eq_false_iff_not, Nat.not_lt, Nat.not_lt] at hop
  exact hop

end Sys2Proof.Machine

open Sys2Proof Sys2Proof.Machine

/-- Settles O52. -/
theorem melainJobsAndCheckUnits : Obligations.MelainJobsAndCheckUnits := by
  unfold Obligations.MelainJobsAndCheckUnits
  intro s t e u v he hu hs
  refine ⟨fun hr h => ?_, fun hr h => ?_, melRefuse_false, fun h => ?_, fun j hj hp => ?_, fun j hj hp => ?_,
    fun hr hb => ?_, fun hr hb => ?_, fun hr hb w hw => ?_, fun hr hb => ?_, fun hr heq => ?_, fun hr hne => ?_,
    fun hr => ?_, fun hr hb => ?_, fun hr h => ?_, fun hr a n h => ?_, fun h => ?_, fun a n h => ?_⟩
  · exact (gives_melGo t he hs hr).of_eq (melStart_refused h)
  · refine does_of_gives ((gives_melGo t he hs hr).of_eq (melStart_starts h)) ?_
    simp only [getR_settle, settle_mels, settle_mem, settle_evt]
    simp only [getR_melTakeJob]
    refine ⟨?_, getR_setR_self _ _ _ _, ?_, Store.find_insert_self _ _ _ (Store.find_erase_self _ _), rfl, rfl⟩
    · exact (getR_setR_fld _ _ _ (by decide)).trans (getR_setR_self _ _ _ _)
    · exact (getR_setR_fld _ _ _ (by decide)).trans ((getR_setR_fld _ _ _ (by decide)).trans (getR_setR_self _ _ _ _))
  · exact (gives_melJobDone t he hs).of_eq (doMelDone_none t h)
  · refine does_of_gives ((gives_melJobDone t he hs).of_eq (doMelDone_poisoned t hj hp)) ?_
    simp only [getR_settle, evtRaw_settle, settle_mem, melFinish_mem, poisonHit_mem, verdict_melFinish, outLen_melFinish,
      done_melFinish, bad_melFinish _ _ _ 7 (by decide), true_and]
    refine ⟨rfl, ?_, ?_, melIdle_mem _ e⟩
    · rw [getR_melFinish _ _ _ _ (by decide), getR_mel_poisonHit _ he _ _ (by decide), state_melIdle]
    · rw [getR_melFinish _ _ _ _ (by decide), getR_mel_poisonHit _ he _ _ (by decide), busy_melIdle]
  · refine does_of_gives ((gives_melJobDone t he hs).of_eq (doMelDone_done t hj hp)) ?_
    simp only [← melOut_bytes, ← melOut_fst, getR_settle, evtRaw_settle, settle_mem, melDeliver_mem, memByte_memWrite]
    refine ⟨fun y => rfl, outLen_melFinish _ _ _ _, ?_, ?_, ?_, done_melFinish _ _ _ _, bad_melFinish _ _ _ _, fun h => ?_,
      fun h => ?_, fun h => ?_⟩
    · exact (verdict_melFinish _ _ _ _).trans (Nat.mod_eq_of_lt (by have := melOut_verdict j (load s.dev j.src j.srcLen); omega))
    · rw [getR_melDeliver _ he _ _ (.inr rfl), state_melIdle]
    · rw [getR_melDeliver _ he _ _ (.inl rfl), busy_melIdle]
    · exact counts_melDeliver _ he j _ (op_of_melOut (h.trans_ne (by decide))) (.inl ⟨h, rfl⟩)
    · exact counts_melDeliver _ he j _ (op_of_melOut (h.trans_ne (by decide))) (.inr (.inl ⟨h, rfl⟩))
    · exact counts_melDeliver _ he j _ (op_of_melOut (h.trans_ne (by decide))) (.inr (.inr ⟨h, rfl⟩))
  · refine ⟨(gives_chkDataWrite t hu hs hr v).of_eq (chkIdle_busy hb), fun w hw => (gives_chkStateWrite t hu hs hr v hw).of_eq (chkIdle_busy hb),
      (gives_chkPolyWrite t hu hs hr v).of_eq (chkIdle_busy hb), (gives_chkGo t hu hs hr).of_eq (chkGo_busy hb)⟩
  · refine does_of_gives ((gives_chkDataWrite t hu hs hr v).of_eq (chkIdle_free hb)) ?_
    have hm := chkFeed_moved (advance s.dev t) u (leBytes (chkBytes s.dev u) v)
    exact ⟨(chkFeed_fed _ _ hu).settle, hm.settled, (settle_evt _).trans (hm.field Dev.evt)⟩
  · refine does_of_gives ((gives_chkStateWrite t hu hs hr v hw).of_eq (chkIdle_free hb)) ?_
    have hm := chkPut_moved (d := advance s.dev t) (u := u) (putBits (getR s.dev pgChk (F.CHK_CRC_STATE u)) (32 * w) 32 v)
    exact ⟨(chkPut_holds _ u _).settle, hm.settled, (settle_evt _).trans (hm.field Dev.evt)⟩
  · refine does_of_gives ((gives_chkPolyWrite t hu hs hr v).of_eq (chkCfg_free v hb)) ?_
    have hm := chkSetCfg_moved (advance s.dev t) u v
    simp only [getR_settle, settle_evt]
    split
    case isTrue hp =>
      exact ⟨poly_chkSetCfg _ u v, bytes_chkSetCfg _ u v, autoCmp_chkSetCfg _ u v, fun _ => hm.getR_fld (by simp),
        fun hne => absurd hp hne, hm.field Dev.evt⟩
    case isFalse hp =>
      have hi := chkInit_moved (chkSetCfg (advance s.dev t) u v) u
      have hinit : chkParm (chkSetCfg (advance s.dev t) u v) u = crcParm (v % 4) := congrArg crcParm (poly_chkSetCfg _ u v)
      refine ⟨(hi.getR_fld (by simp; omega)).trans (poly_chkSetCfg _ u v), (hi.getR_fld (by simp; omega)).trans (bytes_chkSetCfg _ u v),
        (hi.getR_fld (by simp; omega)).trans (autoCmp_chkSetCfg _ u v), fun h => absurd h hp, fun _ => ?_,
        (hi.field Dev.evt).trans (hm.field Dev.evt)⟩
      rw [crcState_chkInit, hinit]
  · refine does_of_gives ((gives_chkCompare t hu hs hr).of_eq (chkCompare_equal heq)) ?_
    have hm : Moved noRegs [(pgChk, F.CHK_MATCHES u), (pgChk, F.CHK_LAST_MISMATCH u)] (advance s.dev t)
        (bump (setR (advance s.dev t) pgChk (F.CHK_LAST_MISMATCH u) 0) pgChk (F.CHK_MATCHES u)) :=
      .then_bump (.then_setR (.refl _) (by simp)) (by simp)
    simp only [getR_settle, settle_evt]
    refine ⟨?_, ?_, hm.settled, hm.field Dev.evt⟩
    · exact (getR_addC_narrow _ _ _ (le_refl 32)).trans (by rw [getR_setR_fld _ _ _ (by simp)]; rfl)
    · exact (getR_addC_fld _ _ _ (by simp)).trans (getR_setR_self _ _ _ _)
  · refine does_of_gives ((gives_chkCompare t hu hs hr).of_eq (chkCompare_unequal hne)) ?_
    have hm : Moved noShow [(pgChk, F.CHK_MISMATCHES u), (pgChk, F.CHK_LAST_MISMATCH u)] (advance s.dev t)
        (raise (bump (setR (advance s.dev t) pgChk (F.CHK_LAST_MISMATCH u) 1) pgChk (F.CHK_MISMATCHES u)) pgChk (8 + u)) :=
      .then_raise (.then_bump (.then_setR (.refl _) (by simp)) (by simp))
    simp only [getR_settle, evtRaw_settle, getR_raise]
    refine ⟨?_, ?_, hm.settled, raise_bit _ _ _⟩
    · exact (getR_addC_narrow _ _ _ (le_refl 32)).trans (by rw [getR_setR_fld _ _ _ (by simp)]; rfl)
    · exact (getR_addC_fld _ _ _ (by simp)).trans (getR_setR_self _ _ _ _)
  · refine does_of_gives (gives_chkInit t hu hs hr) ?_
    have hm := chkInit_moved (advance s.dev t) u
    exact ⟨(chkPut_holds _ u _).settle, hm.settled, (settle_evt _).trans (hm.field Dev.evt)⟩
  · refine does_of_gives ((gives_chkGo t hu hs hr).of_eq (chkGo_starts hb)) ?_
    have hm := chkSetBusy_moved (setR (chkTakeJob (advance s.dev t) u) pgChk (F.CHK_DMA_ERROR u) 0) u 1
    simp only [getR_settle, settle_evt, settle_chkJobs]
    exact ⟨busy_chkSetBusy _ u 1, (hm.getR_fld (by simp; omega)).trans (getR_setR_self _ _ _ _), state_chkSetBusy_one _ hu,
      hm.field Dev.evt, Store.find_insert_self _ _ _ (Store.find_erase_self _ _)⟩
  · exact (gives_chkAbort t hu hs hr v).of_eq (chkAbort_none h)
  · refine does_of_gives ((gives_chkAbort t hu hs hr v).of_eq (chkAbort_some h)) ?_
    simp only [getR_settle, settle_evt, settle_mem, settle_chkJobs, busy_chkStop, chkStop_chkJobs, chkStop_evt, chkStop_mem]
    exact ⟨chkStop_fed _ hu _, trivial, trivial, rfl, rfl⟩
  · exact (gives_chkDmaDone t hu hs).of_eq (doChkDone_none t h)
  · by_cases hk : beforePoison s.dev a n < n
    · refine does_of_gives ((gives_chkDmaDone t hu hs).of_eq (doChkDone_poisoned t h hk)) ?_
      simp only [getR_settle, settle_evt, settle_mem, settle_chkJobs, chkPoisoned_evt, chkPoisoned_mem,
        chkPoisoned_chkJobs]
      exact ⟨chkPoisoned_fed _ _ _ _ _ hu, busy_chkPoisoned _ _ _ _ _ hu, trivial, rfl, fun h => absurd hk (Nat.not_lt.2 h),
        fun _ => ⟨dmaError_chkPoisoned _ _ _ _ _ hu, rfl⟩⟩
    · refine does_of_gives ((gives_chkDmaDone t hu hs).of_eq (doChkDone_whole t h (Nat.not_lt.1 hk))) ?_
      simp only [getR_settle, evtRaw_settle, settle_mem, settle_chkJobs, chkWhole_mem, chkWhole_chkJobs]
      exact ⟨chkWhole_fed _ _ _ hu, busy_chkWhole _ _ _, trivial, rfl, fun _ => done_chkWhole _ _ _, fun h => absurd h hk⟩

end

section
set_option Elab.async false
/-! PROOFS. The state of a memory channel (R347–R354): its ranks and counters, requests that end self-refresh, corrected and
uncorrectable words, and the start of a migration. -/

namespace Sys2Proof.Machine

open Sys2Proof

/-! ### One more step of a chain of updates: an entry for the Ledger, a rank -/

section
variable {k : Dev → Dev} {fs : List (Nat × Fld)} {d e : Dev}

theorem Moved.then_ledgerNow {n ln pt : Nat} {l : List Nat} (h : Moved k fs d e)
    (hk : ∀ d, k (ledgerNow d n ln pt l) = k d := by intro _; rfl) : Moved k fs d (ledgerNow e n ln pt l) :=
  .trans _ _ _ h (.of_regs _ _ rfl (hk e))

theorem Moved.then_setDmc {c : Nat} {x : DmcSt} (h : Moved k fs d e) (hk : ∀ d, k (setDmc d c x) = k d := by intro _; rfl) :
    Moved k fs d (setDmc e c x) := .trans _ _ _ h (.of_regs _ _ rfl (hk e))

theorem Moved.then_setRank {c r v : Nat} (h : Moved k fs d e) (hf : (pgDmc c, F.DMC_RANK_STATE) ∈ fs)
    (hk : ∀ d w, k (setR d (pgDmc c) F.DMC_RANK_STATE w) = k d := by intro _ _; rfl) : Moved k fs d (setRank e c r v) :=
  h.then_setR hf fun d => hk d _

end

/-! ### Fields inside a register -/

/-- The four-bit field of rank `r` after a write to it. -/
theorem bits_putBits_rank {r v : Nat} (n : Nat) (hr : r < 4) (hv : v < 16) :
    bits (putBits n (4 * r) 4 v % 2 ^ 16) (4 * r) 4 = v := by
  interval_cases r <;> simp only [bits, putBits] <;> omega

/-- The four-bit field of another rank. -/
theorem bits_putBits_rank_ne {r i : Nat} (n v : Nat) (hr : r < 4) (hi : i < 4) (hne : i ≠ r) :
    bits (putBits n (4 * r) 4 v % 2 ^ 16) (4 * i) 4 = bits n (4 * i) 4 := by
  interval_cases r <;> interval_cases i <;> simp only [bits, putBits] <;> omega

/-! ### Ranks -/

section
variable {d e : Dev} {c r : Nat}

theorem rankState_congr (h : getR e (pgDmc c) F.DMC_RANK_STATE = getR d (pgDmc c) F.DMC_RANK_STATE) (r : Nat) :
    rankState e c r = rankState d c r := congrArg (bits · (4 * r) 4) h

/-- What leaves RANK_STATE alone leaves the states of the ranks. -/
theorem Moved.rankState {k : Dev → Dev} {fs : List (Nat × Fld)} (h : Moved k fs d e)
    (hf : ∀ x ∈ fs, key x.1 x.2 ≠ key (pgDmc c) F.DMC_RANK_STATE) (r : Nat) : rankState e c r = rankState d c r :=
  rankState_congr (h.getR_eq hf) r

theorem rankState_setRank_self {v : Nat} (d : Dev) (c : Nat) (hr : r < 4) (hv : v < 16) : rankState (setRank d c r v) c r = v := by
  rw [rankState, setRank, getR_setR_self]; exact bits_putBits_rank _ hr hv

theorem rankState_setRank_ne {i : Nat} (d : Dev) (c v : Nat) (hr : r < 4) (hi : i < 4) (hne : i ≠ r) :
    rankState (setRank d c r v) c i = rankState d c i := by
  rw [rankState, setRank, getR_setR_self]; exact bits_putBits_rank_ne _ v hr hi hne

@[simp] theorem rankState_settle (d : Dev) (c r : Nat) : Machine.rankState (settle d) c r = Machine.rankState d c r :=
  rankState_congr (getR_settle _ _ _) r

end

/-! ### What a controller keeps outside its registers -/

section
variable (d : Dev) (c : Nat) (x : DmcSt)

@[simp] theorem dmc_setDmc_self : dmc (setDmc d c x) c = x := Store.get_set_self _ _ _ _

theorem dmc_setDmc_ne {i : Nat} (h : i ≠ c) : dmc (setDmc d c x) i = dmc d i := Store.get_set_ne _ _ _ _ h.symm

@[simp] theorem dmc_setR (p : Nat) (f : Fld) (v : Nat) : dmc (setR d p f v) c = dmc d c := rfl
@[simp] theorem dmc_raise (p b : Nat) : dmc (raise d p b) c = dmc d c := rfl
@[simp] theorem dmc_ledgerNow (k ln pt : Nat) (l : List Nat) : dmc (ledgerNow d k ln pt l) c = dmc d c := rfl
@[simp] theorem dmc_advance (t : Nat) : dmc (advance d t) c = dmc d c := rfl
@[simp] theorem dmc_setRank (r v : Nat) : dmc (setRank d c r v) c = dmc d c := rfl
@[simp] theorem dmc_settle : dmc (settle d) c = dmc d c := by simp [dmc]
@[simp] theorem dmc_addC (p : Nat) (f : Fld) (n : Nat) : dmc (addC d p f n) c = dmc d c := by rw [addC_eq]; rfl

end

/-- A write leaves the controllers what concerns requests, tallies, migrations and the scrub. -/
theorem dmc_dramWrite (d : Dev) (a : Nat) (b : List Nat) (c : Nat) :
    ∃ p i, dmc (dramWrite d a b) c = { dmc d c with poison := p, inverted := i } := by
  refine foldl_rel (R := fun d e => ∃ p i, dmc e c = { dmc d c with poison := p, inverted := i }) (fun d => ⟨_, _, rfl⟩)
    (fun d e f => ?_) (fun d l _ => ?_) (store d a b)
  · rintro ⟨p, i, h⟩ ⟨q, j, g⟩
    exact ⟨q, j, by rw [g, h]⟩
  · split
    · rw [poisonShow, dmc_setR]
      by_cases hc : c = chanOf (64 * l)
      · subst hc; exact ⟨_, _, dmc_setDmc_self _ _ _⟩
      · exact ⟨_, _, dmc_setDmc_ne _ _ _ hc⟩
    · exact ⟨_, _, rfl⟩

/-! ### A request arrives (R354, R359) -/

/-- The device but for its registers, its outputs and what DRAM controllers keep outside theirs. -/
def noDmcOut (d : Dev) : Dev := { d with regs := [], dmc := [], out := [] }

/-- The device but for what memory channels show and log. -/
def noDmcShow (d : Dev) : Dev := { d with regs := [], dmc := [], out := [], evt := [], ledgerOut := [] }

/-- The controller leaves self-refresh. -/
def srWake (d : Dev) (c : Nat) (write : Bool) : Dev :=
  let rest := 20 - 10 * (d.ticks - (dmc d c).sreAt)
  setR (clearTally (peak d (pgDmc c) F.DMC_SR_WAIT_MAX (rest + if write then tXs d c else tXsDll d c)) c) (pgDmc c) cSTATE 1

/-- The controller notes the time of a request. -/
def noteReq (d : Dev) (c : Nat) : Dev := setDmc d c { dmc d c with lastReq := d.ticks }

section
variable (d : Dev) (c : Nat)

theorem srExit_asleep (write : Bool) (h : getR d (pgDmc c) cSTATE = 2) : srExit d c write = noteReq (srWake d c write) c := by
  unfold srExit; rw [if_pos h]; rfl

theorem srExit_awake (write : Bool) (h : getR d (pgDmc c) cSTATE ≠ 2) : srExit d c write = noteReq d c := by
  unfold srExit; rw [if_neg h]; rfl

theorem srWake_moved (write : Bool) : Moved noDmc [(pgDmc c, F.DMC_SR_WAIT_MAX), (pgDmc c, cSTATE)] d (srWake d c write) := by
  unfold srWake clearTally setDmc
  exact (Moved.trans (k := noDmc) _ _ _ (.of_peak (p := pgDmc c) (f := F.DMC_SR_WAIT_MAX) d _ (by simp)) (.of_regs _ _)).then_setR (by simp)

theorem getR_noteReq (p : Nat) (f : Fld) : getR (noteReq d c) p f = getR d p f := rfl

theorem noteReq_moved {fs : List (Nat × Fld)} : Moved noDmc fs d (noteReq d c) := .of_regs _ _

theorem srExit_moved (write : Bool) : Moved noDmc [(pgDmc c, F.DMC_SR_WAIT_MAX), (pgDmc c, cSTATE)] d (srExit d c write) := by
  by_cases h : getR d (pgDmc c) cSTATE = 2
  · rw [srExit_asleep d c write h]; exact .trans _ _ _ (srWake_moved d c write) (noteReq_moved _ c)
  · rw [srExit_awake d c write h]; exact noteReq_moved d c

theorem state_srExit (write : Bool) : getR (srExit d c write) (pgDmc c) cSTATE =
    if getR d (pgDmc c) cSTATE = 2 then 1 else getR d (pgDmc c) cSTATE := by
  split
  case isTrue h => rw [srExit_asleep d c write h, getR_noteReq, srWake, getR_setR_self]; rfl
  case isFalse h => rw [srExit_awake d c write h]; rfl

/-- The time of the last request; the tallies may clear. -/
theorem dmc_srExit (write : Bool) : ∃ y, dmc (srExit d c write) c = { dmc d c with lastReq := d.ticks, tally := y } := by
  by_cases h : getR d (pgDmc c) cSTATE = 2
  · have hticks : (srWake d c write).ticks = d.ticks := (srWake_moved d c write).field Dev.ticks
    rw [srExit_asleep d c write h, noteReq, dmc_setDmc_self, hticks, srWake, dmc_setR, clearTally, dmc_setDmc_self]
    obtain hp | ⟨v, hp⟩ := peak_cases d (pgDmc c) F.DMC_SR_WAIT_MAX
      (20 - 10 * (d.ticks - (dmc d c).sreAt) + if write then tXs d c else tXsDll d c) <;> rw [hp] <;> exact ⟨[], rfl⟩
  · rw [srExit_awake d c write h, noteReq, dmc_setDmc_self]; exact ⟨_, rfl⟩

theorem activate_moved (b r : Nat) : Moved noDmcOut [(pgDmc c, F.DMC_RH_REFRESHES)] d (activate d c b r) := by
  unfold activate
  exact .then_onlyIf (.of_regs d _) (.trans _ _ _ (.of_regs _ _) (.of_addC _ 1 (by simp)))

/-- An activate enters the tally alone. -/
theorem dmc_activate (b r : Nat) : ∃ y, dmc (activate d c b r) c = { dmc d c with tally := y } := by
  unfold activate
  dsimp only
  rw [onlyIf]
  split
  · exact ⟨_, (dmc_addC _ _ _ _ _).trans (dmc_setDmc_self _ _ _)⟩
  · exact ⟨_, dmc_setDmc_self _ _ _⟩

/-- The request of an access, and the row that it activates. -/
def dramStart (d : Dev) (c : Nat) (write : Bool) (open_ : List Nat) : Dev :=
  match open_ with
  | [b, row] => activate (srExit d c write) c b row
  | _ => srExit d c write

/-- An access that opens a row, or none. -/
theorem dramStart_cases (write : Bool) (open_ : List Nat) :
    dramStart d c write open_ = srExit d c write ∨ ∃ b row, dramStart d c write open_ = activate (srExit d c write) c b row := by
  unfold dramStart; split
  · exact .inr ⟨_, _, rfl⟩
  · exact .inl rfl

/-- The registers that a request changes. -/
def dramStartRegs (c : Nat) : List (Nat × Fld) :=
  [(pgDmc c, F.DMC_SR_WAIT_MAX), (pgDmc c, cSTATE), (pgDmc c, F.DMC_RH_REFRESHES)]

theorem dramStart_moved (write : Bool) (open_ : List Nat) : Moved noDmcOut (dramStartRegs c) d (dramStart d c write open_) := by
  have hexit : Moved noDmcOut (dramStartRegs c) d (srExit d c write) := (srExit_moved d c write).coarser.mono (by simp [dramStartRegs])
  obtain h | ⟨b, row, h⟩ := dramStart_cases d c write open_ <;> rw [h]
  · exact hexit
  · exact .trans _ _ _ hexit ((activate_moved _ c b row).mono (by simp [dramStartRegs]))

theorem state_dramStart (write : Bool) (open_ : List Nat) : getR (dramStart d c write open_) (pgDmc c) cSTATE =
    if getR d (pgDmc c) cSTATE = 2 then 1 else getR d (pgDmc c) cSTATE := by
  obtain h | ⟨b, row, h⟩ := dramStart_cases d c write open_ <;> rw [h]
  · exact state_srExit d c write
  · rw [(activate_moved _ c b row).getR_fld (by simp; decide)]; exact state_srExit d c write

theorem dmc_dramStart (write : Bool) (open_ : List Nat) :
    ∃ y, dmc (dramStart d c write open_) c = { dmc d c with lastReq := d.ticks, tally := y } := by
  obtain ⟨y, hy⟩ := dmc_srExit d c write
  obtain h | ⟨b, row, h⟩ := dramStart_cases d c write open_ <;> rw [h]
  · exact ⟨y, hy⟩
  · obtain ⟨z, hz⟩ := dmc_activate (srExit d c write) c b row
    exact ⟨z, by rw [hz, hy]⟩

end

/-! ### Corrected and uncorrectable words (R349–R351) -/

section
variable (d : Dev) (c : Nat)

theorem dramCe_zero : dramCe d c 0 = d := if_pos rfl

theorem dramCe_pos {n : Nat} (h : n ≠ 0) : dramCe d c n =
    raise (addC (setDmc d c { dmc d c with ceHour := (dmc d c).ceHour + n }) (pgDmc c) F.DMC_CE n) (pgDmc c) 8 := if_neg h

/-- An uncorrectable word of line `l` on rank `r` counts, shows and is logged. -/
def ueNote (d : Dev) (c r l : Nat) : Dev :=
  ledgerNow (raise (bump d (pgDmc c) F.DMC_UE) (pgDmc c) 9) 0x0410 0xF (typeCode .dmc) ([c, r] ++ leBytes 8 (64 * l))

theorem dramUe_other {r l : Nat} (h : l ∉ (dmc d c).inverted) : dramUe d c r l = retire (ueNote d c r l) c r (some l) := by
  rw [dramUe, dmc_ledgerNow, dmc_raise, bump, dmc_addC]
  exact if_neg (by simpa using h)

/-- The migration of rank `r` to the spare `q` starts (R350). -/
def migStart (d : Dev) (c r q : Nat) (l : Option Nat) : Dev :=
  let d := setRank (setRank (setDmc d c { dmc d c with mig := some ⟨r, q, d.ticks, l.toList⟩ }) c r 3) c q 3
  ledgerNow (raise (setR (setR d (pgDmc c) F.DMC_MIG_DONE 0) (pgDmc c) cSTATE 3) (pgDmc c) 11) 0x0412 0xF (typeCode .dmc) [c, r, q]

/-- The first SPARE rank of channel `c`. -/
def spareRank (d : Dev) (c : Nat) : Option Nat := (List.range 4).find? (fun q => rankState d c q == 2)

theorem spareRank_some {q : Nat} (h : spareRank d c = some q) : q < 4 ∧ rankState d c q = 2 :=
  ⟨List.mem_range.1 (List.mem_of_find?_eq_some h), by simpa using List.find?_some h⟩

theorem retire_migrates {r q : Nat} (l : Option Nat) (hr : rankState d c r = 1) (hm : (dmc d c).mig = none)
    (hq : spareRank d c = some q) : retire d c r l = migStart d c r q l := by
  rw [spareRank] at hq
  simp only [retire, hr, hm, hq, migStart]
  simp

/-- Without a spare rank the rank is FAILING (R350). -/
theorem retire_fails {r : Nat} (hr : rankState d c r = 1) (hq : spareRank d c = none) :
    retire d c r none = ledgerNow (setRank d c r 6) 0x0412 0xF (typeCode .dmc) [c, r, 0xFF] := by
  rw [spareRank] at hq
  simp only [retire, hr, hq]
  simp

end

end Sys2Proof.Machine
end

section
set_option Elab.async false
/-! PROOFS. Memory channels (R346–R359): accesses, scrub, hours and self-refresh, and obligation O48. -/

namespace Sys2Proof.Machine

open Sys2Proof

/-! ### A word in error -/

section
variable (d : Dev) (c r : Nat)

theorem ueNote_moved (l : Nat) : Moved noDmcShow [(pgDmc c, F.DMC_UE)] d (ueNote d c r l) := by
  unfold ueNote
  exact .then_ledgerNow (.then_raise (.then_bump (.refl d) (by simp)))

theorem migStart_moved (q : Nat) (l : Option Nat) :
    Moved noDmcShow [(pgDmc c, F.DMC_RANK_STATE), (pgDmc c, F.DMC_MIG_DONE), (pgDmc c, cSTATE)] d (migStart d c r q l) := by
  unfold migStart
  exact .then_ledgerNow (.then_raise (.then_setR (.then_setR (.then_setRank (.then_setRank (.then_setDmc (.refl d)) (by simp)) (by simp))
    (by simp)) (by simp)))

variable {d c r}

theorem rankState_migStart {q : Nat} (l : Option Nat) (hr : r < 4) (hq : q < 4) (hne : r ≠ q) :
    rankState (migStart d c r q l) c r = 3 ∧ rankState (migStart d c r q l) c q = 3 := by
  set e := setRank (setDmc d c { dmc d c with mig := some ⟨r, q, d.ticks, l.toList⟩ }) c r 3
  have hkeep : ∀ i, rankState (migStart d c r q l) c i = rankState (setRank e c q 3) c i := fun i => by
    refine Moved.rankState (k := noDmcShow) (fs := [(pgDmc c, F.DMC_MIG_DONE), (pgDmc c, cSTATE)]) ?_ ?_ i
    · unfold migStart
      exact .then_ledgerNow (.then_raise (.then_setR (.then_setR (.refl _) (by simp)) (by simp)))
    · simp only [List.mem_cons, List.not_mem_nil, or_false, forall_eq_or_imp, forall_eq]
      exact ⟨key_ne_fld _ (by decide), key_ne_fld _ (by decide)⟩
  rw [hkeep, hkeep, rankState_setRank_ne _ _ _ hq hr hne, rankState_setRank_self _ _ hr (by decide),
    rankState_setRank_self _ _ hq (by decide)]
  exact ⟨rfl, rfl⟩

theorem state_migStart (q : Nat) (l : Option Nat) : getR (migStart d c r q l) (pgDmc c) cSTATE = 3 := by
  rw [migStart, getR_ledgerNow, getR_raise, getR_setR_self]; rfl

theorem evt_migStart (q : Nat) (l : Option Nat) : (evtRaw (migStart d c r q l) (pgDmc c)).testBit 11 = true ∧
    ∀ i, (evtRaw d (pgDmc c)).testBit i = true → (evtRaw (migStart d c r q l) (pgDmc c)).testBit i = true :=
  ⟨raise_bit _ _ _, fun i h => raise_mono _ _ _ _ i h⟩

end

@[simp] theorem dmc_ueNote (d : Dev) (c r l i : Nat) : dmc (ueNote d c r l) i = dmc d i := by
  rw [ueNote, dmc_ledgerNow, dmc_raise, bump, dmc_addC]

theorem spareRank_congr {d e : Dev} {c : Nat} (h : ∀ i, rankState e c i = rankState d c i) : spareRank e c = spareRank d c :=
  congrArg (fun p => (List.range 4).find? p) (funext fun q => congrArg (· == 2) (h q))

@[simp] theorem rankState_poisonHit (d : Dev) (a len c r : Nat) : rankState (poisonHit d a len) c r = rankState d c r :=
  rankState_congr (getR_dmc_poisonHit d a len _ (by decide) (by decide)) r

theorem ledgerOut_ledgerNow (d : Dev) (k ln pt : Nat) (l : List Nat) :
    (ledgerNow d k ln pt l).ledgerOut.length = d.ledgerOut.length + 1 := List.length_append

theorem ledgerOut_ueNote (d : Dev) (c r l : Nat) : (ueNote d c r l).ledgerOut.length = d.ledgerOut.length + 1 := by
  rw [ueNote, ledgerOut_ledgerNow, raise_ledgerOut, bump, addC_eq, setR_ledgerOut]

theorem ledgerOut_migStart (d : Dev) (c r q : Nat) (l : Option Nat) :
    (migStart d c r q l).ledgerOut.length = d.ledgerOut.length + 1 := by
  rw [migStart, ledgerOut_ledgerNow]; rfl

/-- A field that a request leaves alone. -/
theorem key_ne_dramStart {c : Nat} {x : Nat × Fld} {f : Fld} (hx : x ∈ dramStartRegs c)
    (hf : fldAt F.DMC_SR_WAIT_MAX ≠ fldAt f ∧ fldAt cSTATE ≠ fldAt f ∧ fldAt F.DMC_RH_REFRESHES ≠ fldAt f) :
    key x.1 x.2 ≠ key (pgDmc c) f := by
  obtain ⟨hwait, hstate, hrh⟩ := hf
  simp only [dramStartRegs, List.mem_cons, List.not_mem_nil, or_false] at hx
  obtain rfl | rfl | rfl := hx
  · exact key_ne_fld _ hwait
  · exact key_ne_fld _ hstate
  · exact key_ne_fld _ hrh

/-! ### Accesses -/

/-- A read of `len` bytes ends so, after what its error calls for. -/
def dramReadEnd (d : Dev) (c r a len err : Nat) : Dev :=
  poisonHit (if err = 1 then dramCe d c 1 else if err = 2 then dramUe d c r (lineNo a) else d) a len

section
variable {d : Dev} {a r len err : Nat} {bytes open_ : List Nat} {write : Bool} (t : Nat)

theorem doDramAccess_idle (h : getR d (pgDmc (chanOf a)) cSTATE = 0 ∨ getR d (pgDmc (chanOf a)) cSTATE = 4) :
    doDramAccess t a r write len bytes open_ err d = advance d t := if_pos h

theorem doDramAccess_write (h : ¬ (getR d (pgDmc (chanOf a)) cSTATE = 0 ∨ getR d (pgDmc (chanOf a)) cSTATE = 4)) :
    doDramAccess t a r true len bytes open_ err d = dramWrite (dramStart (advance d t) (chanOf a) true open_) a bytes := if_neg h

theorem doDramAccess_read (h : ¬ (getR d (pgDmc (chanOf a)) cSTATE = 0 ∨ getR d (pgDmc (chanOf a)) cSTATE = 4)) :
    doDramAccess t a r false len bytes open_ err d =
      dramReadEnd (dramStart (advance d t) (chanOf a) false open_) (chanOf a) r a len err := if_neg h

end

section
variable {s : State} {r : Nat} (t : Nat) (hr : r < 4) (hs : Awake s)
include hr hs

theorem gives_dramAccess (a : Nat) (w : Bool) (n : Nat) (bs br : List Nat) (e : Nat) :
    Gives (.dramAccess t a r w n bs br e) s (doDramAccess t a r w n bs br e s.dev) := gives_of_act rfl (decide_eq_true hr) hs

end

section
variable {s : State} {c : Nat} (t : Nat) (hc : c < 2) (hs : Awake s)
include hc hs

theorem gives_rhWindow : Gives (.rhWindow t c) s (doRhWindow t c s.dev) := gives_of_act rfl (decide_eq_true hc) hs
theorem gives_dramCeHour : Gives (.dramCeHour t c) s (doCeHour t c s.dev) := gives_of_act rfl (decide_eq_true hc) hs
theorem gives_srEntry (same : Bool) : Gives (.srEntry t c same) s (doSrEntry t c same s.dev) :=
  gives_of_act rfl (decide_eq_true hc) hs

theorem gives_patrolScrub {r : Nat} (hr : r < 4) (n ce : Nat) (ue : List Nat) :
    Gives (.patrolScrub t c n ce r ue) s (doScrub t c n ce r ue s.dev) := gives_of_act rfl (by simp [hc, hr]) hs

theorem gives_caParityAlert {r : Nat} (hr : r < 4) : Gives (.caParityAlert t c r) s (doCaParity t c r s.dev) :=
  gives_of_act rfl (by simp [hc, hr]) hs

end

/-! ### The scrub (R349) -/

/-- The scrub rests between two passes at the instant `now`. -/
def scrubRests (d : Dev) (c now : Nat) : Prop := (dmc d c).scrubPos = 0 ∧ now < (dmc d c).scrubAt

section
variable {d : Dev} {c r n ce : Nat} {ue : List Nat} (t : Nat)

theorem doScrub_stopped (h1 : getR d (pgDmc c) cSTATE ≠ 1) (h3 : getR d (pgDmc c) cSTATE ≠ 3) :
    doScrub t c n ce r ue d = advance d t := if_pos (by simp [h1, h3])

theorem doScrub_rests (h : scrubRests d c (max d.ticks t)) : doScrub t c n ce r ue d = advance d t :=
  if_pos (by obtain ⟨h0, hlt⟩ := h; simp only [dmc_advance, advance_ticks, h0, hlt, decide_true, beq_self_eq_true, Bool.and_self, Bool.or_true])

/-- The scrub would advance: what stops it or lets it rest does not hold. -/
theorem scrub_due (hst : getR d (pgDmc c) cSTATE = 1 ∨ getR d (pgDmc c) cSTATE = 3) (hrest : ¬ scrubRests d c (max d.ticks t)) :
    ¬ ((getR (advance d t) (pgDmc c) cSTATE != 1 && getR (advance d t) (pgDmc c) cSTATE != 3 ||
      (dmc (advance d t) c).scrubPos == 0 && decide ((advance d t).ticks < (dmc (advance d t) c).scrubAt)) = true) := by
  simp only [getR_advance, dmc_advance, advance_ticks, Bool.or_eq_true, Bool.and_eq_true, bne_iff_ne, beq_iff_eq]
  rintro (⟨h1, h3⟩ | ⟨h0, hlt⟩)
  · exact hst.elim h1 h3
  · exact hrest ⟨h0, of_decide_eq_true hlt⟩

theorem doScrub_waits (hst : getR d (pgDmc c) cSTATE = 1 ∨ getR d (pgDmc c) cSTATE = 3)
    (hrest : ¬ scrubRests d c (max d.ticks t)) (hjob : jobRunning d (ownScrub c) = false) :
    doScrub t c n ce r ue d = scrubWant (advance d t) c := by
  have hjob' : (!jobRunning (advance d t) (ownScrub c)) = true := congrArg (! ·) hjob
  exact (if_neg (scrub_due t hst hrest)).trans (if_pos hjob')

/-- When the pass that begins now, or that goes on, is followed by the next one. -/
def scrubNext (d : Dev) (c : Nat) : Nat :=
  if (dmc d c).scrubPos = 0 then d.ticks + sT (3600 * max 1 (getR d (pgDmc c) F.DMC_SCRUB_H)) else (dmc d c).scrubAt

/-- The scrub goes on with `ce` corrected words. -/
def scrubStep (d : Dev) (c ce : Nat) : Dev := dramCe (setDmc d c { dmc d c with scrubAt := scrubNext d c }) c ce

/-- The scrub stands at line `pos` of its pass. -/
def scrubTo (d : Dev) (c pos : Nat) : Dev := setDmc d c { dmc d c with scrubPos := pos }

theorem dmc_dramCe (d : Dev) (c n : Nat) : dmc (dramCe d c n) c = { dmc d c with ceHour := (dmc d c).ceHour + n } := by
  by_cases h : n = 0
  · subst h; rw [dramCe_zero]; rfl
  · rw [dramCe_pos d c h, dmc_raise, dmc_addC, dmc_setDmc_self]

theorem dmc_dramCe_ne (d : Dev) {c i : Nat} (n : Nat) (hi : i ≠ c) : dmc (dramCe d c n) i = dmc d i := by
  by_cases h : n = 0
  · subst h; rw [dramCe_zero]
  · rw [dramCe_pos d c h, dmc_raise, dmc_addC, dmc_setDmc_ne _ _ _ hi]

/-- The device but for its registers, its events and what DRAM controllers keep outside theirs. -/
def noDmcEvt (d : Dev) : Dev := { d with regs := [], dmc := [], evt := [] }

theorem dramCe_moved (d : Dev) (c n : Nat) : Moved noDmcEvt [(pgDmc c, F.DMC_CE)] d (dramCe d c n) := by
  by_cases h : n = 0
  · subst h; rw [dramCe_zero]; exact .refl d
  · rw [dramCe_pos d c h]; exact .then_raise (.then_addC (.then_setDmc (.refl d)) (by simp))

theorem ce_dramCe (d : Dev) (c n : Nat) : getR (dramCe d c n) (pgDmc c) F.DMC_CE =
    if n = 0 then getR d (pgDmc c) F.DMC_CE else (getR d (pgDmc c) F.DMC_CE + n) % 2 ^ 64 := by
  split
  case isTrue h => rw [h, dramCe_zero]
  case isFalse h => rw [dramCe_pos d c h, getR_raise, getR_addC_wide _ _ _ (show 32 < 64 by decide)]; rfl

theorem scrubStep_moved (d : Dev) (c ce : Nat) : Moved noDmcShow [(pgDmc c, F.DMC_CE)] d (scrubStep d c ce) :=
  .trans _ _ _ (.then_setDmc (.refl d)) (dramCe_moved _ c ce).coarser

theorem usable_congr {d e : Dev} (hr : ∀ r, rankState e 0 r = rankState d 0 r) (hs : (dmc e 0).spareEn = (dmc d 0).spareEn)
    (hm : e.rankMiB = d.rankMiB) : usable e = usable d := by simp only [usable, hr, hs, hm]

theorem usable_scrubStep (d : Dev) {c : Nat} (hc : c < 2) (ce : Nat) : usable (scrubStep d c ce) = usable d := by
  have hm := scrubStep_moved d c ce
  refine usable_congr (hm.rankState ?_) ?_ (hm.field Dev.rankMiB)
  · simp only [List.mem_cons, List.not_mem_nil, or_false, forall_eq]
    interval_cases c <;> decide
  · by_cases h : c = 0
    · subst h; rw [scrubStep, dmc_dramCe, dmc_setDmc_self]
    · rw [scrubStep, dmc_dramCe_ne _ _ (Ne.symm h), dmc_setDmc_ne _ _ _ (Ne.symm h)]

theorem doScrub_advances (hc : c < 2) (hst : getR d (pgDmc c) cSTATE = 1 ∨ getR d (pgDmc c) cSTATE = 3)
    (hrest : ¬ scrubRests d c (max d.ticks t)) (hjob : jobRunning d (ownScrub c) = true)
    (hpos : (dmc d c).scrubPos + n < chanLines d) :
    doScrub t c n ce r [] d = scrubTo (scrubStep (advance d t) c ce) c ((dmc d c).scrubPos + n) := by
  have hjob' : ¬ (!jobRunning (advance d t) (ownScrub c)) = true := by
    have : jobRunning (advance d t) (ownScrub c) = true := hjob
    simp [this]
  have hat : (dmc (scrubStep (advance d t) c ce) c).scrubPos = (dmc d c).scrubPos := by
    rw [scrubStep, dmc_dramCe, dmc_setDmc_self, dmc_advance]
  have hmore : ¬ (0 < chanLines (scrubStep (advance d t) c ce) ∧
      chanLines (scrubStep (advance d t) c ce) ≤ (dmc (scrubStep (advance d t) c ce) c).scrubPos + n) := by
    have hlines : chanLines (scrubStep (advance d t) c ce) = chanLines d := congrArg (· / 128) (usable_scrubStep _ hc ce)
    rw [hlines, hat]; omega
  rw [← hat]
  exact (if_neg (scrub_due t hst hrest)).trans ((if_neg hjob').trans (if_neg hmore))

end

/-! ### Hours, parity alerts, self-refresh -/

section
variable {d : Dev} {c r : Nat} (t : Nat)

/-- The hour of corrected errors ends (R349). -/
def ceHourEnd (d : Dev) (c : Nat) : Dev := setDmc d c { dmc d c with ceHour := 0, hourAt := d.ticks }

theorem doCeHour_eq : doCeHour t c d =
    let e := advance d (max t (max (dmc d c).hourAt d.boot.releaseAt + sT 3600))
    onlyIf ((dmc d c).ceHour != 0) (fun e => ledgerNow e 0x0417 0xF (typeCode .dmc) (c :: leBytes 4 (dmc d c).ceHour)) (ceHourEnd e c) :=
  rfl

/-- A CA parity alert counts, shows and is logged. -/
def caNote (d : Dev) (c r : Nat) : Dev :=
  ledgerNow (raise (bump d (pgDmc c) F.DMC_CA_PAR) (pgDmc c) 10) 0x0411 0xF (typeCode .dmc) [c, r]

theorem caNote_moved (d : Dev) (c r : Nat) : Moved noDmcShow [(pgDmc c, F.DMC_CA_PAR)] d (caNote d c r) := by
  unfold caNote
  exact .then_ledgerNow (.then_raise (.then_bump (.refl d) (by simp)))

theorem doCaParity_fails (hr : rankState d c r = 1) (hq : spareRank d c = none) : doCaParity t c r d =
    ledgerNow (setRank (caNote (advance d t) c r) c r 6) 0x0412 0xF (typeCode .dmc) [c, r, 0xFF] := by
  have hkeep : ∀ i, rankState (caNote (advance d t) c r) c i = rankState d c i :=
    (caNote_moved (advance d t) c r).rankState (by simp only [List.mem_singleton, forall_eq]; exact key_ne_fld _ (by decide))
  refine retire_fails _ _ ((hkeep r).trans hr) ?_
  rw [← hq]; exact spareRank_congr hkeep

/-- R358's conditions for entry into self-refresh, with the least tolerance `tol`. -/
def srMayEnter (d : Dev) (c tol : Nat) : Bool :=
  flagR d (pgDmc c) F.DMC_SR_EN && getR d (pgDmc c) cSTATE == 1 &&
    decide (20 + max (tXs d c) (tXsDll d c) + getR d (pgDmc c) F.DMC_SR_MARGIN < tol) &&
    decide (getR d (pgDmc c) F.DMC_IDLE_CYCLES ≤ ctlCycles d c (dmc d c).lastReq)

/-- TOL_MIN is brought up to date. -/
def tolShow (d : Dev) (c : Nat) : Dev := setR d (pgDmc c) F.DMC_TOL_MIN (tolMin d c)

section
variable (d : Dev) (c : Nat)

theorem getR_tolShow {f : Fld} (h : fldAt F.DMC_TOL_MIN ≠ fldAt f) : getR (tolShow d c) (pgDmc c) f = getR d (pgDmc c) f :=
  getR_setR_fld _ _ _ h

theorem dmcCfg_tolShow {f : Fld} (h : fldAt F.DMC_TOL_MIN ≠ fldAt f) : dmcCfg (tolShow d c) c f = dmcCfg d c f := by
  simp only [dmcCfg, getR_tolShow d c h, getR_tolShow d c (show fldAt F.DMC_TOL_MIN ≠ fldAt cSTATE by decide)]; rfl

/-- TOL_MIN takes no part in the conditions. -/
theorem srMayEnter_tolShow (tol : Nat) : srMayEnter (tolShow d c) c tol = srMayEnter d c tol := by
  have hspeed := dmcCfg_tolShow d c (f := F.DMC_SPEED) (by decide)
  have hdensity := dmcCfg_tolShow d c (f := F.DMC_DENSITY) (by decide)
  have hmt : ctlCycles (tolShow d c) c (dmc (tolShow d c) c).lastReq = ctlCycles d c (dmc d c).lastReq := by
    simp only [ctlCycles, hspeed]; rfl
  have hxs : tXs (tolShow d c) c = tXs d c := by simp only [tXs, hspeed, hdensity]
  have hdll : tXsDll (tolShow d c) c = tXsDll d c := by simp only [tXsDll, hspeed, hdensity]
  simp only [srMayEnter, flagR, hxs, hdll, hmt,
    getR_tolShow d c (show fldAt F.DMC_TOL_MIN ≠ fldAt F.DMC_SR_EN by decide),
    getR_tolShow d c (show fldAt F.DMC_TOL_MIN ≠ fldAt cSTATE by decide),
    getR_tolShow d c (show fldAt F.DMC_TOL_MIN ≠ fldAt F.DMC_SR_MARGIN by decide),
    getR_tolShow d c (show fldAt F.DMC_TOL_MIN ≠ fldAt F.DMC_IDLE_CYCLES by decide)]

end

/-- A request cancels the entry. -/
def srCancel (d : Dev) (c : Nat) : Dev := bump (noteReq (tolShow d c) c) (pgDmc c) F.DMC_SR_CANCELS

/-- The channel enters self-refresh. -/
def srEnter (d : Dev) (c : Nat) : Dev :=
  bump (setR (setDmc (tolShow d c) c { dmc (tolShow d c) c with sreAt := (tolShow d c).ticks }) (pgDmc c) cSTATE 2) (pgDmc c)
    F.DMC_SR_ENTRIES

theorem srMayEnter_iff {tol : Nat} : srMayEnter d c tol = true ↔ flagR d (pgDmc c) F.DMC_SR_EN = true ∧
    getR d (pgDmc c) cSTATE = 1 ∧ 20 + max (tXs d c) (tXsDll d c) + getR d (pgDmc c) F.DMC_SR_MARGIN < tol ∧
    getR d (pgDmc c) F.DMC_IDLE_CYCLES ≤ ctlCycles d c (dmc d c).lastReq := by
  simp only [srMayEnter, Bool.and_eq_true, decide_eq_true_eq, beq_iff_eq, and_assoc]

theorem doSrEntry_eq (same : Bool) : doSrEntry t c same d =
    if srMayEnter (advance d t) c (tolMin d c) then
      if same then srCancel (advance d t) c else srEnter (advance d t) c
    else tolShow (advance d t) c := by
  rw [← srMayEnter_tolShow]; rfl

end

/-! ### Rolling records' fields (R346) -/

/-- The field of a line's rolling record that word `w` of a configuration write names. -/
def rollFld (n w : Nat) : Fld :=
  if w = 0 then F.SHELFH_ROLL_BASE n else if w = 1 then F.SHELFH_ROLL_SIZE n
  else if w = 2 then F.SHELFH_IDX_BASE n else F.SHELFH_IDX_LOG2 n

/-- A line that is OFF takes the word. -/
def rollSet (d : Dev) (n w v : Nat) : Dev :=
  if getR d (pgLine n) cSTATE = 0 then setR d (pgShelf 0) (rollFld n w) v else d

theorem gives_rollConfigWrite {s : State} {n w : Nat} (t v : Nat) (hn : n < 12) (hw : w < 4) (hs : Awake s)
    (hr : Reach s.dev (pgShelf 0)) : Gives (.rollConfigWrite t n w v) s (rollSet (advance s.dev t) n w v) :=
  gives_of_write (f := fun d => rollSet d n w v) rfl (by simp [hn, hw]) hr hs

end Sys2Proof.Machine

open Sys2Proof Sys2Proof.Machine

/-- Settles O48. -/
theorem memoryChannelsServe : Obligations.MemoryChannelsServe := by
  unfold Obligations.MemoryChannelsServe
  intro s t c r hc hr hs
  refine ⟨fun a w n bs br e ha h => ?_, fun a n bs br e ha h => ?_, fun a n bs br ha h => ?_,
    fun a n bs br q ha h h1 hm0 hq hl => ?_, ?_, fun n ce ue h1 h3 => ?_, fun n ce ue h hrest => ?_,
    fun n ce ue h hrest hj => ?_, fun n ce h hrest hj hpos => ?_, ?_, fun h1 hq => ?_, fun same h => ?_, fun h => ?_, fun h => ?_,
    fun n hn w hw v hreach => ?_⟩
  · subst ha; exact (gives_dramAccess t hr hs a w n bs br e).of_eq (doDramAccess_idle t h)
  · subst ha
    refine does_of_gives ((gives_dramAccess t hr hs a true n bs br e).of_eq (doDramAccess_write t (by omega))) ?_
    have hm := dramStart_moved (advance s.dev t) (chanOf a) true br
    obtain ⟨y, hy⟩ := dmc_dramStart (advance s.dev t) (chanOf a) true br
    obtain ⟨po, iv, hw⟩ := dmc_dramWrite (dramStart (advance s.dev t) (chanOf a) true br) a bs (chanOf a)
    simp only [settle_mem, settle_evt, getR_settle, dmc_settle, dramWrite_mem, dramWrite_evt, memByte_memWrite]
    have hmem : (dramStart (advance s.dev t) (chanOf a) true br).mem = s.dev.mem := hm.field Dev.mem
    refine ⟨fun y => ?_, ?_, ?_, hm.field Dev.evt⟩
    · rw [hmem]
    · rw [getR_dmc_dramWrite _ _ _ _ (by decide) (by decide), state_dramStart]
      by_cases h2 : getR s.dev (pgDmc (chanOf a)) cSTATE = 2
      · exact (if_pos h2).trans (if_pos h2).symm
      · exact (if_neg h2).trans (if_neg h2).symm
    · rw [hw, hy]; rfl
  · subst ha
    refine does_of_gives ((gives_dramAccess t hr hs a false n bs br 1).of_eq (doDramAccess_read t (by omega))) ?_
    set e := dramStart (advance s.dev t) (chanOf a) false br
    have hm : Moved noDmcOut (dramStartRegs (chanOf a)) (advance s.dev t) e := dramStart_moved _ _ _ _
    have hend : dramReadEnd e (chanOf a) r a n 1 = poisonHit (dramCe e (chanOf a) 1) a n := rfl
    simp only [settle_mem, getR_settle, evtRaw_settle, settle_ledgerOut, hend, poisonHit_mem, poisonHit_ledgerOut]
    refine ⟨?_, ?_, ?_, ?_⟩
    · rw [getR_dmc_poisonHit _ _ _ _ (by decide) (by decide), ce_dramCe, if_neg one_ne_zero,
        hm.getR_fld (by simp [dramStartRegs]; decide)]
      rfl
    · rw [evtRaw_poisonHit, dramCe_pos _ _ one_ne_zero]; exact raise_bit _ _ _
    · exact ((dramCe_moved e (chanOf a) 1).field Dev.mem).trans (hm.field Dev.mem)
    · exact ((dramCe_moved e (chanOf a) 1).field Dev.ledgerOut).trans (hm.field Dev.ledgerOut)
  · subst ha
    refine does_of_gives ((gives_dramAccess t hr hs a false n bs br 2).of_eq (doDramAccess_read t (by omega))) ?_
    set c := chanOf a
    set e := dramStart (advance s.dev t) c false br
    have hm : Moved noDmcOut (dramStartRegs c) (advance s.dev t) e := dramStart_moved _ _ _ _
    have hn := ueNote_moved e c r (lineNo a)
    obtain ⟨y, hy⟩ := dmc_dramStart (advance s.dev t) c false br
    have hrank : ∀ i, rankState (ueNote e c r (lineNo a)) c i = rankState s.dev c i := fun i =>
      (hn.rankState (by simp only [List.mem_singleton, forall_eq]; exact key_ne_fld _ (by decide)) i).trans
        (hm.rankState (fun x hx => key_ne_dramStart hx (by decide)) i)
    have hspare : spareRank (ueNote e c r (lineNo a)) c = some q := by rw [← hq]; exact spareRank_congr hrank
    obtain ⟨hq4, hq2⟩ := spareRank_some _ _ hspare
    have hend : dramReadEnd e c r a n 2 = poisonHit (migStart (ueNote e c r (lineNo a)) c r q (some (lineNo a))) a n := by
      rw [dramReadEnd, if_neg (by decide), if_pos rfl, dramUe_other _ _ (by rw [hy]; exact hl),
        retire_migrates _ _ _ ((hrank r).trans h1) (by rw [dmc_ueNote, hy]; exact hm0) hspare]
    have hne : r ≠ q := fun h => absurd ((congrArg (rankState s.dev c) h).symm.trans h1) (by rw [← hrank, hq2]; decide)
    have hmig := migStart_moved (ueNote e c r (lineNo a)) c r q (some (lineNo a))
    obtain ⟨hr3, hq3⟩ := rankState_migStart (d := ueNote e c r (lineNo a)) (c := c) (some (lineNo a)) hr hq4 hne
    obtain ⟨hev11, hev⟩ := evt_migStart (d := ueNote e c r (lineNo a)) (c := c) (r := r) q (some (lineNo a))
    simp only [settle_mem, getR_settle, evtRaw_settle, settle_ledgerOut, rankState_settle, hend, poisonHit_mem,
      poisonHit_ledgerOut, evtRaw_poisonHit, rankState_poisonHit,
      getR_dmc_poisonHit _ _ _ _ (show fldAt cSTATE < 131072 by decide) (by decide),
      getR_dmc_poisonHit _ _ _ _ (show fldAt F.DMC_UE < 131072 by decide) (by decide), hr3, hq3, hev11, state_migStart,
      hev 9 (raise_bit _ _ _), true_and]
    refine ⟨?_, ?_, ?_⟩
    · rw [hmig.getR_fld (by simp; decide), ueNote, getR_ledgerNow, getR_raise, bump, getR_addC_narrow _ _ _ (le_refl 32),
        hm.getR_fld (by simp [dramStartRegs]; decide)]
      rfl
    · have hout : e.ledgerOut = s.dev.ledgerOut := hm.field Dev.ledgerOut
      rw [ledgerOut_migStart, ledgerOut_ueNote, hout]
    · exact (hmig.field Dev.mem).trans ((hn.field Dev.mem).trans (hm.field Dev.mem))
  · refine does_of_gives (gives_rhWindow t hc hs) ?_
    simp only [doRhWindow, clearTally, dmc_settle, dmc_setDmc_self, settle_ticks, settle_regs, settle_evt, settle_mem]
    exact ⟨trivial, rfl, (le_max_right _ _).trans (le_max_right _ _), rfl, rfl, rfl⟩
  · exact (gives_patrolScrub t hc hs hr n ce ue).of_eq (doScrub_stopped t h1 h3)
  · exact (gives_patrolScrub t hc hs hr n ce ue).of_eq (doScrub_rests t hrest)
  · exact (gives_patrolScrub t hc hs hr n ce ue).of_eq (doScrub_waits t h hrest hj)
  · refine does_of_gives ((gives_patrolScrub t hc hs hr n ce []).of_eq (doScrub_advances t hc h hrest hj hpos)) ?_
    have hm := scrubStep_moved (advance s.dev t) c ce
    simp only [settle_mem, getR_settle, dmc_settle, scrubTo, dmc_setDmc_self]
    refine ⟨trivial, ?_, hm.field Dev.mem⟩
    exact ce_dramCe _ c ce
  · refine does_of_gives (gives_dramCeHour t hc hs) ?_
    rw [doCeHour_eq]
    have hdmc : dmc (ceHourEnd (advance s.dev (max t (max (dmc s.dev c).hourAt s.dev.boot.releaseAt + sT 3600))) c) c =
      { dmc s.dev c with ceHour := 0, hourAt := max s.dev.ticks (max t (max (dmc s.dev c).hourAt s.dev.boot.releaseAt + sT 3600)) } :=
      dmc_setDmc_self _ _ _
    by_cases h : (dmc s.dev c).ceHour = 0
    · simp only [h, bne_self_eq_false, onlyIf, Bool.false_eq_true, if_false, dmc_settle, hdmc, settle_ticks, settle_regs, settle_evt,
        settle_ledgerOut]
      exact ⟨trivial, rfl, (le_max_right _ _).trans (le_max_right _ _), rfl, rfl, fun _ => rfl, fun hne => absurd rfl hne⟩
    · simp only [bne_iff_ne.2 h, onlyIf, if_true, dmc_settle, dmc_ledgerNow, hdmc, settle_ticks, settle_regs, settle_evt,
        settle_ledgerOut]
      exact ⟨trivial, rfl, (le_max_right _ _).trans (le_max_right _ _), rfl, rfl, fun h0 => absurd h0 h, fun _ => ⟨_, rfl, rfl, rfl⟩⟩
  · refine does_of_gives ((gives_caParityAlert t hc hs hr).of_eq (doCaParity_fails t h1 hq)) ?_
    have hm := caNote_moved (advance s.dev t) c r
    simp only [settle_mem, getR_settle, evtRaw_settle, rankState_settle, settle_ledgerOut, getR_ledgerNow]
    refine ⟨?_, ?_, ?_, ?_, ?_, hm.field Dev.mem⟩
    · exact rankState_setRank_self _ _ hr (by decide)
    · rw [setRank, getR_setR_fld _ _ _ (by decide), caNote, getR_ledgerNow, getR_raise, bump,
        getR_addC_narrow _ _ _ (le_refl 32)]
      rfl
    · rw [setRank, getR_setR_fld _ _ _ (by decide), hm.getR_fld (by simp; decide)]; rfl
    · exact raise_bit _ _ _
    · rw [ledgerOut_ledgerNow, setRank, setR_ledgerOut, caNote, ledgerOut_ledgerNow, raise_ledgerOut, bump, addC_eq, setR_ledgerOut]
      rfl
  · refine (gives_srEntry t hc hs same).of_eq ((doSrEntry_eq t same).trans (if_neg ?_))
    rw [srMayEnter_iff]; exact fun ⟨hen, _⟩ => Bool.false_ne_true (h.symm.trans hen)
  · refine does_of_gives ((gives_srEntry t hc hs true).of_eq ((doSrEntry_eq t true).trans (if_pos (srMayEnter_iff.2 h)))) ?_
    have hm : Moved noDmc [(pgDmc c, F.DMC_TOL_MIN), (pgDmc c, F.DMC_SR_CANCELS)] (advance s.dev t) (srCancel (advance s.dev t) c) :=
      .then_bump (.trans _ _ _ (.of_setR _ _ (by simp)) (noteReq_moved _ c)) (by simp)
    simp only [if_true, getR_settle, dmc_settle]
    refine ⟨?_, ?_, ?_, hm.settled⟩
    · obtain ⟨-, hst, -⟩ := h
      exact (hm.getR_fld (by simp; decide)).trans hst
    · rw [srCancel, bump, getR_addC_narrow _ _ _ (le_refl 32), getR_noteReq, getR_tolShow _ _ (by decide)]; rfl
    · rw [srCancel, bump, dmc_addC, noteReq, dmc_setDmc_self]; rfl
  · refine does_of_gives ((gives_srEntry t hc hs false).of_eq ((doSrEntry_eq t false).trans (if_pos (srMayEnter_iff.2 h)))) ?_
    have hm : Moved noDmc [(pgDmc c, F.DMC_TOL_MIN), (pgDmc c, F.DMC_SR_ENTRIES), (pgDmc c, cSTATE)] (advance s.dev t)
        (srEnter (advance s.dev t) c) :=
      .then_bump (.then_setR (.then_setDmc (.of_setR _ _ (by simp))) (by simp)) (by simp)
    simp only [Bool.false_eq_true, if_false, getR_settle, dmc_settle]
    refine ⟨?_, ?_, ?_, hm.settled⟩
    · rw [srEnter, bump, getR_addC_fld _ _ _ (by decide), getR_setR_self]; rfl
    · rw [srEnter, bump, getR_addC_narrow _ _ _ (le_refl 32), getR_setR_fld _ _ _ (by decide)]
      exact congrArg (fun v => min (v + 1) (2 ^ 32 - 1)) (getR_tolShow (advance s.dev t) c (by decide))
    · rw [srEnter, bump, dmc_addC, dmc_setR, dmc_setDmc_self]; rfl
  · exact gives_rollConfigWrite t v hn hw hs hreach

end

section
set_option Elab.async false
/-! PROOFS. Updates of the registers of some pages, and the jobs on Pacer's board (R424), which change page PACE alone. -/

namespace Sys2Proof.Machine

open Sys2Proof

/-- From `d` to `e` the registers of the pages outside `P` keep their values, and so does the part `k` of the device. -/
structure Within (k : Dev → Dev) (P : Nat → Prop) (d e : Dev) : Prop where
  frame : k e = k d
  keeps : ∀ p f, ¬ P p → fldAt f < 131072 → getR e p f = getR d p f

namespace Within

variable {k : Dev → Dev} {P : Nat → Prop} {d e : Dev}

theorem refl (d : Dev) : Within k P d d := ⟨rfl, fun _ _ _ _ => rfl⟩

theorem trans (a b c : Dev) (h : Within k P a b) (g : Within k P b c) : Within k P a c :=
  ⟨g.frame.trans h.frame, fun p f hp hf => (g.keeps p f hp hf).trans (h.keeps p f hp hf)⟩

/-- A part of what is kept is kept. -/
theorem coarser {g : Dev → Dev} (h : Within k P d e) (hg : ∀ d, g (k d) = g d := by intro _; rfl) : Within g P d e :=
  ⟨(hg e).symm.trans ((congrArg g h.frame).trans (hg d)), h.keeps⟩

theorem mono {Q : Nat → Prop} (h : Within k P d e) (hq : ∀ p, P p → Q p) : Within k Q d e :=
  ⟨h.frame, fun p f hp => h.keeps p f fun hx => hp (hq p hx)⟩

theorem of_regs (d e : Dev) (hr : e.regs = d.regs := by rfl) (hk : k e = k d := by rfl) : Within k P d e :=
  ⟨hk, fun p f _ _ => getR_congr hr p f⟩

theorem of_setR {p : Nat} {f : Fld} (d : Dev) (v : Nat) (hp : P p) (hf : fldAt f < 131072)
    (hk : ∀ d, k (setR d p f v) = k d := by intro _; rfl) : Within k P d (setR d p f v) :=
  ⟨hk d, fun q _ hq hg => getR_setR_page d v (fun he : p = q => hq (he ▸ hp)) hf hg⟩

theorem then_setR {p : Nat} {f : Fld} {v : Nat} (h : Within k P d e) (hp : P p) (hf : fldAt f < 131072)
    (hk : ∀ d, k (setR d p f v) = k d := by intro _; rfl) : Within k P d (setR e p f v) := .trans _ _ _ h (.of_setR e v hp hf hk)

/-- What `k` keeps, keeps its value. -/
theorem field {α : Type} (h : Within k P d e) (g : Dev → α) : g (k e) = g (k d) := congrArg g h.frame

end Within

/-- The device but for its registers and what Pacer keeps of jobs outside them. -/
def noJobs (d : Dev) : Dev := { d with regs := [], jobOwner := [], jobSince := [] }

section
variable (d : Dev)

theorem fillJob_within {n : Nat} (hn : n < 48) (own ln cls cost dur dl : Nat) :
    Within noJobs (· = pgPace) d (fillJob d n own ln cls cost dur dl) := by
  unfold fillJob
  iterate 9 refine .then_setR ?_ rfl (by simp only [fldAt, F.PACE_J_OWNER, F.PACE_J_LINE, F.PACE_J_CLASS, F.PACE_J_FORCED,
    F.PACE_J_RUNNING, F.PACE_J_VALID, F.PACE_J_COST, F.PACE_J_DUR, F.PACE_J_DEADLINE]; omega)
  exact .refl d

theorem jobOwner_within {P : Nat → Prop} (l : Store Nat) : Within noJobs P d { d with jobOwner := l } := .of_regs _ _

theorem postJob_within (o cost dur dl : Nat) : Within noJobs (· = pgPace) d (postJob d o cost dur dl) := by
  unfold postJob
  split
  · exact .refl d
  · split
    · exact .refl d
    case h_2 n hn =>
      exact .trans _ _ _ (fillJob_within d (List.mem_range.1 (List.mem_of_find?_eq_some hn)) _ _ _ _ _ _) (jobOwner_within _ _)

/-- Freeing an entry clears registers of page PACE only. -/
theorem freeEntry_within {n : Nat} (hn : n < 48) : Within noJobs (· = pgPace) d (freeEntry d n) := by
  refine ⟨rfl, fun p f hp hf => Store.get_clearRange _ _ ?_⟩
  rw [key_eq, key_eq]
  simp only [pgPace, fldAt] at hp hf ⊢
  omega

theorem freeJob_within (o : Nat) : Within noJobs (· = pgPace) d (freeJob d o) := by
  unfold freeJob
  split
  case h_1 n hn => exact freeEntry_within d (List.mem_range.1 (List.mem_of_find?_eq_some hn))
  case h_2 => exact .refl d

end

end Sys2Proof.Machine
end

section
set_option Elab.async false
/-! PROOFS. Migrations, requalification, delays, sweeps and margins (R350–R357), and obligation O49. -/

namespace Sys2Proof.Machine

open Sys2Proof

/-! ### The commands -/

section
variable {s : State} {c : Nat} (t : Nat) (hc : c < 2) (hs : Awake s)
include hc hs

theorem gives_migrationDone (bad : List Nat) : Gives (.migrationDone t c bad) s (doMigDone t c bad s.dev) :=
  gives_of_act rfl (decide_eq_true hc) hs

theorem gives_rankRequalDone (ok : Bool) : Gives (.rankRequalDone t c ok) s (doRankRequal t c ok s.dev) :=
  gives_of_act rfl (decide_eq_true hc) hs

theorem gives_sweepDone (v e : Nat) : Gives (.sweepDone t c v e) s (doSweepDone t c v e s.dev) :=
  gives_of_act rfl (decide_eq_true hc) hs

theorem gives_marginSweep (ms : List Nat) : Gives (.marginSweep t c ms) s (doMargin t c ms s.dev) :=
  gives_of_act rfl (decide_eq_true hc) hs

end

/-! ### The end of a migration (R350) -/

section
variable (d : Dev) (c : Nat)

/-- The registers that a poisoned line shows in. -/
def poisonRegs (c : Nat) : List (Nat × Fld) := [(pgDmc c, F.DMC_POISON_LINES), (pgDmc c, F.DMC_POISON_OVERFLOW)]

theorem poisonAdd_moved (l : Nat) : Moved noDmcShow (poisonRegs c) d (poisonAdd d c l) := by
  simp only [poisonAdd, poisonShow]
  split
  · exact .refl d
  · split
    · exact .then_setR (.then_setDmc (.refl d)) (by simp [poisonRegs])
    · exact .then_ledgerNow (.then_raise (.then_bump (.then_setDmc (.refl d)) (by simp [poisonRegs])))

theorem noteLine_moved (l : Nat) : Moved noDmcShow (poisonRegs c) d (noteLine d c l) := by
  simp only [noteLine]
  split
  · split
    · exact .refl d
    · exact .then_setDmc (.refl d)
  · exact .refl d

/-- The lines that a copy found uncorrectable enter the poison map. -/
def migLines (d : Dev) (c : Nat) (ls : List Nat) : Dev := ls.foldl (fun d l => noteLine (poisonAdd d c l) c l) d

theorem migLines_moved (ls : List Nat) : Moved noDmcShow (poisonRegs c) d (migLines d c ls) :=
  .of_foldl d fun d l _ => .trans _ _ _ (poisonAdd_moved d c l) (noteLine_moved _ c l)

/-- The number of lines that the migration of channel `c` noted. -/
def migNoted (d : Dev) (c : Nat) : Nat :=
  match (dmc d c).mig with
  | some m => m.lines.length
  | none => 0

/-- The migration `m` of channel `c` is over: its ranks and the state of the channel. -/
def migClose (d : Dev) (c : Nat) (m : MigSt) : Dev :=
  let d := setRank (setRank (setDmc d c { dmc d c with mig := none }) c m.spare 1) c m.failing 4
  raise (setR (setR d (pgDmc c) cSTATE 1) (pgDmc c) F.DMC_MIG_DONE d.rankMiB) (pgDmc c) 12

/-- The migration `m` ends and enters the Ledger. -/
def migEnd (d : Dev) (c : Nat) (m : MigSt) : Dev :=
  ledgerNow (migClose d c m) 0x0413 0xF (typeCode .dmc)
    ([c, m.failing] ++ leBytes 4 (migNoted d c) ++ leBytes 4 ((d.ticks - m.start) / msT 1))

theorem migEnd_moved (m : MigSt) :
    Moved noDmcShow [(pgDmc c, F.DMC_RANK_STATE), (pgDmc c, cSTATE), (pgDmc c, F.DMC_MIG_DONE)] d (migEnd d c m) := by
  unfold migEnd migClose
  exact .then_ledgerNow (.then_raise (.then_setR (.then_setR (.then_setRank (.then_setRank (.then_setDmc (.refl d)) (by simp)) (by simp))
    (by simp)) (by simp)))

theorem rankState_migEnd (m : MigSt) (i : Nat) : rankState (migEnd d c m) c i =
    rankState (setRank (setRank (setDmc d c { dmc d c with mig := none }) c m.spare 1) c m.failing 4) c i := by
  refine Moved.rankState (k := noDmcShow) (fs := [(pgDmc c, cSTATE), (pgDmc c, F.DMC_MIG_DONE)]) ?_ ?_ i
  · unfold migEnd migClose
    exact .then_ledgerNow (.then_raise (.then_setR (.then_setR (.refl _) (by simp)) (by simp)))
  · simp only [List.mem_cons, List.not_mem_nil, or_false, forall_eq_or_imp, forall_eq]
    exact ⟨key_ne_fld _ (by decide), key_ne_fld _ (by decide)⟩

theorem dmc_migEnd (m : MigSt) : (dmc (migEnd d c m) c).mig = none := by
  rw [migEnd, dmc_ledgerNow, migClose, dmc_raise, dmc_setR, dmc_setR, dmc_setRank, dmc_setRank, dmc_setDmc_self]

theorem state_migEnd (m : MigSt) : getR (migEnd d c m) (pgDmc c) cSTATE = 1 := by
  rw [migEnd, getR_ledgerNow, migClose, getR_raise, getR_setR_fld _ _ _ (by decide), getR_setR_self]; rfl

theorem migDone_migEnd (m : MigSt) : getR (migEnd d c m) (pgDmc c) F.DMC_MIG_DONE = d.rankMiB % 2 ^ 32 := by
  rw [migEnd, getR_ledgerNow, migClose, getR_raise, getR_setR_self]; rfl

theorem evt_migEnd (m : MigSt) : (evtRaw (migEnd d c m) (pgDmc c)).testBit 12 = true := raise_bit _ _ _

theorem ledger_migEnd (m : MigSt) : ∃ y ∈ (migEnd d c m).ledgerOut, y.kind = 0x0413 :=
  ⟨_, List.mem_append_right _ (List.mem_singleton.2 rfl), rfl⟩

variable {d c}

theorem doMigDone_none (t : Nat) (bad : List Nat) (h : (dmc d c).mig = none ∨ migTicks d = none) : doMigDone t c bad d = advance d t := by
  unfold doMigDone
  obtain h | h := h <;> rw [h]
  cases (dmc d c).mig <;> rfl

theorem doMigDone_some (t : Nat) (bad : List Nat) {m : MigSt} {k : Nat} (hm : (dmc d c).mig = some m) (hk : migTicks d = some k) :
    doMigDone t c bad d = migEnd (migLines (advance d (max t (m.start + k))) c (m.lines ++ bad)) c m := by
  unfold doMigDone; rw [hm, hk]; rfl

end

/-! ### Requalification (R353) -/

section
variable {d : Dev} {c r v : Nat}

/-- Word 0x058 is written as `v`. -/
def requalSet (d : Dev) (c v : Nat) : Dev := setR d (pgDmc c) F.DMC_REQUAL_RANK v

/-- The test of rank `r`, which is in state `st`, starts. -/
def requalBegin (d : Dev) (c r st : Nat) : Dev := setRank (setDmc d c { dmc d c with requal := some (r, st) }) c r 5

/-- What a write of word 0x058 does. -/
def requalWrite (d : Dev) (c v : Nat) : Dev :=
  let e := requalSet d c v
  let st := rankState e c (bits v 0 2)
  if bit v 8 && (st == 4 || st == 6) && (dmc e c).requal.isNone then requalBegin e c (bits v 0 2) st else e

theorem gives_requalGo {s : State} (t : Nat) (hc : c < 2) (hs : Awake s) (hr : Reach s.dev (pgDmc c)) :
    Gives (.requalGo t c v) s (requalWrite (advance s.dev t) c v) :=
  gives_of_write (f := fun d => requalWrite d c v) rfl (decide_eq_true hc) hr hs

theorem requalWrite_stays (h : v.testBit 8 = false) : requalWrite d c v = requalSet d c v :=
  if_neg (by rw [bit_eq_testBit, h]; simp)

theorem requalWrite_begins (h8 : v.testBit 8 = true) (hv : v % 4 = r) (hst : rankState d c r = 4 ∨ rankState d c r = 6)
    (hq : (dmc d c).requal = none) : requalWrite d c v = requalBegin (requalSet d c v) c r (rankState d c r) := by
  have hbits : bits v 0 2 = r := (congrArg (· % 4) (Nat.div_one v)).trans hv
  have hkeep : rankState (requalSet d c v) c r = rankState d c r := rankState_congr (getR_setR_fld _ _ _ (by decide)) r
  rw [requalWrite, hbits, hkeep]
  refine if_pos ?_
  rw [bit_eq_testBit, h8, requalSet, dmc_setR, hq]
  obtain h | h := hst <;> rw [h] <;> rfl

theorem doRankRequal_none (t : Nat) (ok : Bool) (h : (dmc d c).requal = none) : doRankRequal t c ok d = advance d t := by
  simp only [doRankRequal, dmc_advance, h]

/-- The test of a rank is over. -/
def requalClose (d : Dev) (c : Nat) : Dev := setDmc d c { dmc d c with requal := none }

theorem doRankRequal_passes (t : Nat) {st : Nat} (h : (dmc d c).requal = some (r, st)) : doRankRequal t c true d =
    ledgerNow (raise (setRank (requalClose (advance d t) c) c r 2) (pgDmc c) 13) 0x0414 0xF (typeCode .dmc) [c, r] := by
  simp only [doRankRequal, dmc_advance, h]; rfl

theorem doRankRequal_fails (t : Nat) {st : Nat} (h : (dmc d c).requal = some (r, st)) : doRankRequal t c false d =
    setRank (requalClose (advance d t) c) c r st := by
  simp only [doRankRequal, dmc_advance, h]; rfl

end

/-! ### Delays (R355) -/

section
variable (d : Dev) (c r l w v : Nat)

@[simp] theorem fldAt_DLY_DL_WL : fldAt (F.DLY_DL_WL r l) = 98304 + 6912 * r + 768 * l := by simp only [fldAt, F.DLY_DL_WL]; omega
@[simp] theorem fldAt_DLY_DL_GATE : fldAt (F.DLY_DL_GATE r l) = 98320 + 6912 * r + 768 * l := by
  simp only [fldAt, F.DLY_DL_GATE]; omega
@[simp] theorem fldAt_DLY_DL_RD : fldAt (F.DLY_DL_RD r l) = 98432 + 6912 * r + 768 * l := by simp only [fldAt, F.DLY_DL_RD]; omega
@[simp] theorem fldAt_DLY_DL_WR : fldAt (F.DLY_DL_WR r l) = 98688 + 6912 * r + 768 * l := by simp only [fldAt, F.DLY_DL_WR]; omega
@[simp] theorem fldAt_DLY_DL_VREF : fldAt (F.DLY_DL_VREF r l) = 98944 + 6912 * r + 768 * l := by
  simp only [fldAt, F.DLY_DL_VREF]; omega

/-- The delay registers of lane `l` of rank `r`. -/
def delayRegs (c r l : Nat) : List (Nat × Fld) := [(pgDly c, F.DLY_DL_WL r l), (pgDly c, F.DLY_DL_GATE r l),
  (pgDly c, F.DLY_DL_RD r l), (pgDly c, F.DLY_DL_WR r l), (pgDly c, F.DLY_DL_VREF r l)]

theorem fldAt_delayRegs {c r l : Nat} (hr : r < 4) (hl : l < 9) {x : Nat × Fld} (hx : x ∈ delayRegs c r l) :
    98304 ≤ fldAt x.2 ∧ fldAt x.2 < 131072 := by
  simp only [delayRegs, List.mem_cons, List.not_mem_nil, or_false] at hx
  obtain rfl | rfl | rfl | rfl | rfl := hx <;> simp <;> omega

theorem setDelay_moved : Moved noRegs (delayRegs c r l) d (setDelay d c r l w v) := by
  simp only [setDelay]
  split
  · exact .then_setR (.of_setR _ _ (by simp [delayRegs])) (by simp [delayRegs])
  · split
    · exact .of_setR _ _ (by simp [delayRegs])
    · split
      · exact .of_setR _ _ (by simp [delayRegs])
      · exact .of_setR _ _ (by simp [delayRegs])

/-- A delay word is kept in the Almanac. -/
def delayKeep (d : Dev) (k v : Nat) : Dev := { d with almDly := Store.set d.almDly 0 k (v % 2 ^ 32) }

/-- A delay word applies. -/
def delayApply (d : Dev) (k v : Nat) : Dev := { d with dlyLive := Store.set d.dlyLive 0 k (v % 2 ^ 32) }

/-- What a write of a delay word does. -/
def delayWrite (d : Dev) (c r l w v : Nat) : Dev :=
  let e := delayKeep (setDelay d c r l w v) (c * 216 + 6 * (9 * r + l) + w) v
  if w = 5 ∧ getR e (pgDmc c) cSTATE ≠ 0 then e else delayApply e (c * 216 + 6 * (9 * r + l) + w) v

theorem gives_delayWrite {s : State} {c r l w : Nat} (t v : Nat) (hc : c < 2) (hr : r < 4) (hl : l < 9) (hw : w < 6) (hs : Awake s)
    (hp : Reach s.dev (pgDly c)) : Gives (.delayWrite t c r l w v) s (delayWrite (advance s.dev t) c r l w v) :=
  gives_of_write (f := fun d => delayWrite d c r l w v) rfl (by simp [hc, hr, hl, hw]) hp hs

variable {d c r l w v}

/-- The device but for its registers and its delays. -/
def noDelays (d : Dev) : Dev := { d with regs := [], almDly := [], dlyLive := [] }

theorem delayKeep_moved {fs : List (Nat × Fld)} (d : Dev) (k v : Nat) : Moved noDelays fs d (delayKeep d k v) := .of_regs _ _
theorem delayApply_moved {fs : List (Nat × Fld)} (d : Dev) (k v : Nat) : Moved noDelays fs d (delayApply d k v) := .of_regs _ _

theorem delayWrite_moved (d : Dev) (c r l w v : Nat) : Moved noDelays (delayRegs c r l) d (delayWrite d c r l w v) := by
  have hkeep := (setDelay_moved d c r l w v).coarser.trans (k := noDelays) _ _ _
    (delayKeep_moved _ (c * 216 + 6 * (9 * r + l) + w) v)
  simp only [delayWrite]; split
  · exact hkeep
  · exact .trans _ _ _ hkeep (delayApply_moved _ _ _)

theorem almDly_delayWrite (d : Dev) (c r l w v : Nat) :
    Store.get (delayWrite d c r l w v).almDly 0 (c * 216 + 6 * (9 * r + l) + w) = v % 2 ^ 32 := by
  simp only [delayWrite]; split <;> exact Store.get_set_self _ _ _ _

/-- A delay word applies, but for VREF outside INIT. -/
theorem dlyLive_delayWrite (d : Dev) {c r l : Nat} (w v : Nat) (hr : r < 4) (hl : l < 9) :
    Store.get (delayWrite d c r l w v).dlyLive 0 (c * 216 + 6 * (9 * r + l) + w) =
      if w = 5 ∧ getR d (pgDmc c) cSTATE ≠ 0 then Store.get d.dlyLive 0 (c * 216 + 6 * (9 * r + l) + w) else v % 2 ^ 32 := by
  have hm := setDelay_moved d c r l w v
  have hst : getR (delayKeep (setDelay d c r l w v) (c * 216 + 6 * (9 * r + l) + w) v) (pgDmc c) cSTATE = getR d (pgDmc c) cSTATE :=
    hm.getR_eq fun x hx => key_ne_far (by have := fldAt_delayRegs hr hl hx; omega) (by decide)
      (by have := fldAt_delayRegs hr hl hx; rw [fldAt_cSTATE]; omega)
  simp only [delayWrite, hst]
  split
  · exact congrArg (fun e => Store.get e 0 (c * 216 + 6 * (9 * r + l) + w)) (hm.field Dev.dlyLive)
  · exact Store.get_set_self _ _ _ _

/-- The lower and the upper word of a register of 64 bits. -/
theorem putBits_low (n v : Nat) : putBits n 0 32 v % 2 ^ 64 % 2 ^ 32 = v % 2 ^ 32 := by
  simp only [putBits, bits]; omega
theorem putBits_high (n v : Nat) : putBits n 32 32 v % 2 ^ 64 / 2 ^ 32 = v % 2 ^ 32 := by
  simp only [putBits, bits]; omega

/-- The registers after a delay word. -/
theorem getR_delayWrite (p : Nat) (f : Fld) : getR (delayWrite d c r l w v) p f = getR (setDelay d c r l w v) p f := by
  simp only [delayWrite]; split <;> rfl

end

/-! ### Sweeps (R356) -/

section
variable {d : Dev} {c v : Nat}

/-- The fields of word 0x040 of a DLY page but GO. -/
def sweepSet (d : Dev) (c v : Nat) : Dev :=
  let p := pgDly c
  let d := setR (setR d p F.DLY_SWEEP_RANK v) p F.DLY_SWEEP_LANE (v / 16)
  let d := setR (setR d p F.DLY_SWEEP_PARAM (v / 256)) p F.DLY_SWEEP_BIT (v / 4096)
  setR (setR d p F.DLY_SWEEP_START (v / 65536)) p F.DLY_SWEEP_STEP (v / 2 ^ 24)

/-- The registers of those fields. -/
def sweepRegs (c : Nat) : List (Nat × Fld) := [(pgDly c, F.DLY_SWEEP_RANK), (pgDly c, F.DLY_SWEEP_LANE), (pgDly c, F.DLY_SWEEP_PARAM),
  (pgDly c, F.DLY_SWEEP_BIT), (pgDly c, F.DLY_SWEEP_START), (pgDly c, F.DLY_SWEEP_STEP)]

theorem sweepSet_moved (d : Dev) (c v : Nat) : Moved noRegs (sweepRegs c) d (sweepSet d c v) := by
  unfold sweepSet
  iterate 6 refine .then_setR ?_ (by simp [sweepRegs])
  exact .refl d

/-- A sweep starts. -/
def sweepBegin (d : Dev) (c : Nat) : Dev := setR (setR d (pgDly c) cSTATE 1) (pgDly c) cBUSY 1

/-- What a write of word 0x040 does. -/
def sweepWrite (d : Dev) (c v : Nat) : Dev :=
  let e := sweepSet d c v
  let k := bits v 8 3
  if bit v 31 && getR e (pgDly c) cSTATE == 0 && decide (k < 5) then
    if (k == 0 || k == 1 || k == 4) && getR e (pgDmc c) cSTATE != 0 then raise e (pgDly c) 9 else sweepBegin e c
  else e

theorem gives_sweepGo {s : State} (t v : Nat) (hc : c < 2) (hs : Awake s) (hr : Reach s.dev (pgDly c)) :
    Gives (.sweepGo t c v) s (sweepWrite (advance s.dev t) c v) :=
  gives_of_write (f := fun d => sweepWrite d c v) rfl (decide_eq_true hc) hr hs

theorem param_sweepSet (d : Dev) (c v : Nat) : getR (sweepSet d c v) (pgDly c) F.DLY_SWEEP_PARAM = bits v 8 3 := by
  unfold sweepSet
  iterate 3 rw [getR_setR_fld _ _ _ (by decide)]
  exact getR_setR_self _ _ _ _

theorem rank_sweepSet (d : Dev) (c v : Nat) : getR (sweepSet d c v) (pgDly c) F.DLY_SWEEP_RANK = v % 4 := by
  unfold sweepSet
  iterate 5 rw [getR_setR_fld _ _ _ (by decide)]
  exact getR_setR_self _ _ _ _

theorem state_sweepSet (d : Dev) (c v : Nat) : getR (sweepSet d c v) (pgDly c) cSTATE = getR d (pgDly c) cSTATE :=
  (sweepSet_moved d c v).getR_fld (by simp [sweepRegs]; decide)

theorem init_sweepSet (d : Dev) (c v : Nat) : getR (sweepSet d c v) (pgDmc c) cSTATE = getR d (pgDmc c) cSTATE :=
  (sweepSet_moved d c v).getR_eq (by
    simp only [sweepRegs, List.mem_cons, List.not_mem_nil, or_false, forall_eq_or_imp, forall_eq]
    refine ⟨?_, ?_, ?_, ?_, ?_, ?_⟩ <;> exact key_ne_far (by decide) (by decide) (by decide))

/-- GO is written, no sweep runs, and the parameter is one of R356. -/
theorem sweepWrite_go (h31 : v.testBit 31 = true) (h0 : getR d (pgDly c) cSTATE = 0) (hk : bits v 8 3 < 5) : sweepWrite d c v =
    if (bits v 8 3 == 0 || bits v 8 3 == 1 || bits v 8 3 == 4) && getR d (pgDmc c) cSTATE != 0 then
      raise (sweepSet d c v) (pgDly c) 9
    else sweepBegin (sweepSet d c v) c := by
  rw [← init_sweepSet d c v]
  refine if_pos ?_
  rw [bit_eq_testBit, h31, state_sweepSet, h0, decide_eq_true hk]
  rfl

/-- The end of a sweep frees its job. -/
def sweepFree (d : Dev) (c : Nat) : Dev := onlyIf (jobBegun d (ownSweep c)) (fun d => freeJob d (ownSweep c)) d

theorem sweepFree_within (d : Dev) (c : Nat) : Within noJobs (· = pgPace) d (sweepFree d c) := by
  unfold sweepFree onlyIf; split
  · exact freeJob_within d _
  · exact .refl d

/-- What the sweep found. -/
def sweepShow (d : Dev) (c pass errs : Nat) : Dev := setR (setR d (pgDly c) F.DLY_SWEEP_PASS pass) (pgDly c) F.DLY_SWEEP_ERRORS errs

/-- The sweep is over. -/
def sweepEnd (d : Dev) (c : Nat) : Dev := raise (setR (setR d (pgDly c) cSTATE 0) (pgDly c) cBUSY 0) (pgDly c) 8

theorem doSweepDone_not (t pass errs : Nat) (h : getR d (pgDly c) cSTATE ≠ 1) : doSweepDone t c pass errs d = advance d t := if_neg h

theorem doSweepDone_runs (t pass errs : Nat) (h : getR d (pgDly c) cSTATE = 1) :
    doSweepDone t c pass errs d = sweepEnd (sweepFree (sweepShow (advance d t) c pass errs) c) c := if_pos h

theorem sweepEnd_moved (d : Dev) (c : Nat) : Moved noShow [(pgDly c, cSTATE), (pgDly c, cBUSY)] d (sweepEnd d c) :=
  .then_raise (.then_setR (.of_setR _ _ (by simp)) (by simp))

end

/-! ### Margins (R357) -/

/-- Registers written in a row: one of them. -/
theorem getR_foldl_setR {n i : Nat} (d : Dev) (p : Nat) (f : Nat → Fld) (v : Nat → Nat) (hi : i < n)
    (hne : ∀ j, j ≠ i → fldAt (f j) ≠ fldAt (f i)) :
    getR ((List.range n).foldl (fun d j => setR d p (f j) (v j)) d) p (f i) = v i % 2 ^ (f i).width := by
  induction n with
  | zero => exact absurd hi (Nat.not_lt_zero i)
  | succ n ih =>
    rw [List.range_succ, List.foldl_append, List.foldl_cons, List.foldl_nil]
    by_cases h : n = i
    · subst h; exact getR_setR_self _ _ _ _
    · rw [getR_setR_fld _ _ _ (hne n h)]; exact ih (by omega)

/-- The least of a list and a bound: it is the bound or in the list, and no entry lies below it. -/
theorem foldl_min_spec (l : List Nat) (b : Nat) :
    (l.foldl min b = b ∨ l.foldl min b ∈ l) ∧ l.foldl min b ≤ b ∧ ∀ x ∈ l, l.foldl min b ≤ x := by
  induction l generalizing b with
  | nil => simp
  | cons y l ih =>
    obtain ⟨hin, hb, hle⟩ := ih (min b y)
    rw [List.foldl_cons]
    refine ⟨?_, hb.trans (min_le_left _ _), ?_⟩
    · obtain h | h := hin
      · rw [h]
        obtain hm | hm := min_choice b y <;> rw [hm] <;> simp
      · exact .inr (List.mem_cons_of_mem _ h)
    · rintro x (_ | ⟨_, hx⟩)
      · exact hb.trans (min_le_right _ _)
      · exact hle x hx

theorem worstSide_le (m : Nat) : worstSide m ≤ 255 :=
  (min_le_left _ _).trans ((min_le_left _ _).trans (Nat.le_of_lt_succ (Nat.mod_lt _ (by decide))))

/-- The worst lane has a side below `k` just where some lane has. -/
theorem worstLane_lt_iff {ms : List Nat} (h : ms ≠ []) (k : Nat) :
    worstSide (ms.getD (worstLane ms) 0) < k ↔ ∃ m ∈ ms, worstSide m < k := by
  obtain ⟨hin, -, hle⟩ := foldl_min_spec (ms.map worstSide) 255
  set w := (ms.map worstSide).foldl min 255
  obtain ⟨m, hm, hmw⟩ : ∃ m ∈ ms, worstSide m = w := by
    obtain hw | hw := hin
    · obtain ⟨m, l, rfl⟩ := List.exists_cons_of_ne_nil h
      exact ⟨m, by simp, le_antisymm ((worstSide_le m).trans hw.ge) (hle _ (by simp))⟩
    · simpa using hw
  have hlt : worstLane ms < ms.length := List.findIdx_lt_length_of_exists ⟨m, hm, by simpa using hmw⟩
  have hside : worstSide (ms.getD (worstLane ms) 0) = w := by
    rw [List.getD_eq_getElem _ _ hlt]
    exact beq_iff_eq.1 (List.findIdx_getElem (p := fun m => worstSide m == w) (w := hlt))
  rw [hside]
  exact ⟨fun hk => ⟨m, hm, hmw ▸ hk⟩, fun ⟨x, hx, hxk⟩ => (hle _ (List.mem_map_of_mem hx)).trans_lt hxk⟩

section
variable {d : Dev} {c : Nat} {ms : List Nat}

/-- The margins of the nine lanes. -/
def marginShow (d : Dev) (c : Nat) (ms : List Nat) : Dev :=
  (List.range 9).foldl (fun d l => setR d (pgDmc c) (F.DMC_MARGIN l) (ms.getD l 0)) d

/-- Their registers. -/
def marginRegs (c : Nat) : List (Nat × Fld) := (List.range 9).map (fun l => (pgDmc c, F.DMC_MARGIN l))

theorem marginShow_moved (d : Dev) (c : Nat) (ms : List Nat) : Moved noRegs (marginRegs c) d (marginShow d c ms) :=
  .of_foldl d fun _ l hl => .of_setR _ _ (List.mem_map_of_mem hl)

theorem fldAt_marginRegs {x : Nat × Fld} (h : x ∈ marginRegs c) : x.1 = pgDmc c ∧ 34816 ≤ fldAt x.2 ∧ fldAt x.2 < 35968 := by
  obtain ⟨l, hl, rfl⟩ := List.mem_map.1 h
  have := List.mem_range.1 hl
  exact ⟨rfl, by simp only [fldAt, F.DMC_MARGIN]; omega, by simp only [fldAt, F.DMC_MARGIN]; omega⟩

theorem getR_marginShow (d : Dev) (c : Nat) (ms : List Nat) {f : Fld} (hf : fldAt f < 34816 ∨ 35968 ≤ fldAt f) :
    getR (marginShow d c ms) (pgDmc c) f = getR d (pgDmc c) f :=
  (marginShow_moved d c ms).getR_fld fun x hx => by
    obtain ⟨hp, hlo, hhi⟩ := fldAt_marginRegs hx
    exact ⟨hp, by omega⟩

/-- The margins of the present rank are shown and the turn passes to the next (R357). -/
def marginStep (d : Dev) (c : Nat) (ms : List Nat) (x : DmcSt) : Dev :=
  let d := marginShow d c ms
  setDmc d c { x with marginRank := (x.marginRank + 1) % (dmcCfg d c F.DMC_RANKS + 1), marginAt := d.ticks }

/-- A margin of the rank lies too low. -/
def marginLow (d : Dev) (c r : Nat) (ms : List Nat) : Dev :=
  let w := worstLane ms
  let d := ledgerNow (raise d (pgDmc c) 14) 0x0415 0xF (typeCode .dmc) [c, r, w, worstSide (ms.getD w 0)]
  postJob d (ownSweep c) (openCost (ownSweep c)) (openDur (ownSweep c)) 0

/-- The instant at which the margins are next read. -/
def marginTime (d : Dev) (t c : Nat) : Nat := max t (max (dmc d c).marginAt d.boot.releaseAt + sT (getR d (pgDmc c) F.DMC_MARGIN_S))

theorem doMargin_eq (t : Nat) (h : ms.length = 9) : doMargin t c ms d =
    let e := marginStep (advance d (marginTime d t c)) c ms (dmc d c)
    if worstSide (ms.getD (worstLane ms) 0) < getR e (pgDmc c) F.DMC_MARGIN_MIN then marginLow e c (dmc d c).marginRank ms else e := by
  have hpad : padTo 9 ms = ms := List.take_left' h
  simp only [doMargin, hpad]; rfl

theorem marginStep_moved (d : Dev) (c : Nat) (ms : List Nat) (x : DmcSt) : Moved noDmc (marginRegs c) d (marginStep d c ms x) := by
  unfold marginStep
  exact .then_setDmc (marginShow_moved d c ms).coarser

theorem dmc_marginStep (d : Dev) (c : Nat) (ms : List Nat) (x : DmcSt) :
    (dmc (marginStep d c ms x) c).marginRank = (x.marginRank + 1) % (dmcCfg (marginShow d c ms) c F.DMC_RANKS + 1) := by
  rw [marginStep, dmc_setDmc_self]

theorem dmc_marginShow (d : Dev) (c : Nat) (ms : List Nat) (i : Nat) : dmc (marginShow d c ms) i = dmc d i :=
  congrArg (fun e => Store.get e DmcSt.reset i) ((marginShow_moved d c ms).field Dev.dmc)

theorem dmcCfg_marginShow (d : Dev) (c : Nat) (ms : List Nat) : dmcCfg (marginShow d c ms) c F.DMC_RANKS = dmcCfg d c F.DMC_RANKS := by
  simp only [dmcCfg, dmc_marginShow, getR_marginShow d c ms (f := cSTATE) (.inl (by decide)),
    getR_marginShow d c ms (f := F.DMC_RANKS) (.inl (by decide))]

theorem margin_marginStep (d : Dev) (c : Nat) (ms : List Nat) (x : DmcSt) {i : Nat} (hi : i < 9) :
    getR (marginStep d c ms x) (pgDmc c) (F.DMC_MARGIN i) = ms.getD i 0 % 2 ^ 32 :=
  getR_foldl_setR d (pgDmc c) F.DMC_MARGIN (fun i => ms.getD i 0) hi (fun j hj => by simp only [fldAt, F.DMC_MARGIN]; omega)

/-- A margin that is too low shows, is logged and asks for a sweep: every page but PACE keeps its registers. -/
theorem marginLow_within (d : Dev) (c r : Nat) (ms : List Nat) :
    Within noJobs (· = pgPace) (ledgerNow (raise d (pgDmc c) 14) 0x0415 0xF (typeCode .dmc)
      [c, r, worstLane ms, worstSide (ms.getD (worstLane ms) 0)]) (marginLow d c r ms) := postJob_within _ _ _ _ _

end

end Sys2Proof.Machine

open Sys2Proof Sys2Proof.Machine

/-- Settles O49. -/
theorem ranksMigrateAndDelaysSweep : Obligations.RanksMigrateAndDelaysSweep := by
  unfold Obligations.RanksMigrateAndDelaysSweep
  intro s t c r l w v e hc hr hl hw hs
  refine ⟨fun bad h => ?_, fun bad m k hm hk hsp hfa hne => ?_, fun hp h8 => ?_, fun hp h8 hv hst hq => ?_, fun ok h => ?_,
    fun ok y h hy => ?_, fun hp => ?_, fun hp ⟨h31, h0⟩ hin hst => ?_, fun hp ⟨h31, h0⟩ hk hin => ?_, fun h => ?_, fun h => ?_,
    fun ms hms => ?_⟩
  · exact (gives_migrationDone t hc hs bad).of_eq (doMigDone_none t bad h)
  · refine does_of_gives ((gives_migrationDone t hc hs bad).of_eq (doMigDone_some t bad hm hk)) ?_
    set e := migLines (advance s.dev (max t (m.start + k))) c (m.lines ++ bad)
    have hl := migLines_moved (advance s.dev (max t (m.start + k))) c (m.lines ++ bad)
    have he := migEnd_moved e c m
    have hticks : (migEnd e c m).ticks = max s.dev.ticks (max t (m.start + k)) := (he.field Dev.ticks).trans (hl.field Dev.ticks)
    have hranks : ∀ i, rankState e c i = rankState s.dev c i := hl.rankState (by
      simp only [poisonRegs, List.mem_cons, List.not_mem_nil, or_false, forall_eq_or_imp, forall_eq]
      exact ⟨key_ne_fld _ (by decide), key_ne_fld _ (by decide)⟩)
    simp only [rankState_settle, dmc_settle, getR_settle, evtRaw_settle, settle_ledgerOut, settle_mem, settle_ticks, rankState_migEnd,
      dmc_migEnd, state_migEnd, migDone_migEnd, evt_migEnd, hticks]
    refine ⟨?_, ?_, fun i hi his hif => ?_, trivial, (le_max_right _ _).trans (le_max_right _ _), trivial, ?_, trivial,
      ledger_migEnd e c m, (he.field Dev.mem).trans (hl.field Dev.mem)⟩
    · rw [rankState_setRank_ne _ _ _ hfa hsp hne, rankState_setRank_self _ _ hsp (by decide)]
    · exact rankState_setRank_self _ _ hfa (by decide)
    · rw [rankState_setRank_ne _ _ _ hfa hi hif, rankState_setRank_ne _ _ _ hsp hi his]; exact hranks i
    · exact congrArg (· % 2 ^ 32) (hl.field Dev.rankMiB)
  · exact (gives_requalGo t hc hs hp).of_eq (requalWrite_stays h8)
  · refine does_of_gives ((gives_requalGo t hc hs hp).of_eq (requalWrite_begins h8 hv hst hq)) ?_
    simp only [rankState_settle, dmc_settle, getR_settle, settle_evt, settle_mem, requalBegin, dmc_setRank, dmc_setDmc_self]
    refine ⟨rankState_setRank_self _ _ hr (by decide), ?_, rfl, rfl, rfl⟩
    exact (getR_setR_fld _ _ _ (by decide)).trans ((getR_setR_self _ _ _ _).trans hv)
  · exact (gives_rankRequalDone t hc hs ok).of_eq (doRankRequal_none t ok h)
  · cases ok
    case false =>
      refine does_of_gives ((gives_rankRequalDone t hc hs false).of_eq (doRankRequal_fails t h)) ?_
      simp only [rankState_settle, dmc_settle, evtRaw_settle, settle_evt, settle_mem, dmc_setRank, requalClose, dmc_setDmc_self]
      exact ⟨rankState_setRank_self _ _ hr hy, trivial, fun h => absurd h Bool.false_ne_true, fun _ => rfl, rfl⟩
    case true =>
      refine does_of_gives ((gives_rankRequalDone t hc hs true).of_eq (doRankRequal_passes t h)) ?_
      simp only [rankState_settle, dmc_settle, evtRaw_settle, settle_evt, settle_mem, dmc_ledgerNow, dmc_raise, dmc_setRank, requalClose,
        dmc_setDmc_self]
      exact ⟨rankState_setRank_self _ _ hr (by decide), trivial, fun _ => raise_bit _ _ _, fun h => absurd h.symm Bool.false_ne_true, rfl⟩
  · refine does_of_gives (gives_delayWrite t v hc hr hl hw hs hp) ?_
    have hm := delayWrite_moved (advance s.dev t) c r l w v
    simp only [getR_settle, settle_evt, settle_mem, settle_almDly, settle_dlyLive, getR_delayWrite]
    refine ⟨almDly_delayWrite _ c r l w v, dlyLive_delayWrite _ w v hr hl, ?_, ?_, ?_, ?_, hm.field Dev.evt, hm.field Dev.mem⟩
    · rintro rfl
      exact ⟨(getR_setR_fld _ _ _ (by simp)).trans (getR_setR_self _ _ _ _), getR_setR_self _ _ _ _⟩
    · rintro rfl
      exact (congrArg (· % 2 ^ 32) (getR_setR_self _ _ _ _)).trans (putBits_low _ v)
    · rintro rfl
      exact (congrArg (· / 2 ^ 32) (getR_setR_self _ _ _ _)).trans (putBits_high _ v)
    · rintro rfl
      exact getR_setR_self _ _ _ _
  · refine does_of_gives ((gives_sweepGo t v hc hs hp).of_eq ((sweepWrite_go (d := advance s.dev t) h31 h0 (by omega)).trans (if_pos ?_))) ?_
    · rw [Bool.and_eq_true]
      exact ⟨by simpa [or_assoc] using hin, bne_iff_ne.2 hst⟩
    · simp only [getR_settle, evtRaw_settle, settle_mem]
      exact ⟨(state_sweepSet _ c v).trans h0, raise_bit _ _ _, (sweepSet_moved _ c v).field Dev.mem⟩
  · refine does_of_gives ((gives_sweepGo t v hc hs hp).of_eq ((sweepWrite_go (d := advance s.dev t) h31 h0 hk).trans (if_neg ?_))) ?_
    · rw [Bool.and_eq_true]
      exact fun ⟨hk, hst⟩ => absurd (hin (by simpa [or_assoc] using hk)) (bne_iff_ne.1 hst)
    · have hm := sweepSet_moved (advance s.dev t) c v
      simp only [getR_settle, settle_evt, settle_mem, sweepBegin]
      refine ⟨?_, getR_setR_self _ _ _ _, ?_, ?_, hm.field Dev.evt, hm.field Dev.mem⟩
      · exact (getR_setR_fld _ _ _ (by decide)).trans (getR_setR_self _ _ _ _)
      · rw [getR_setR_fld _ _ _ (by decide), getR_setR_fld _ _ _ (by decide)]; exact param_sweepSet _ c v
      · rw [getR_setR_fld _ _ _ (by decide), getR_setR_fld _ _ _ (by decide)]; exact rank_sweepSet _ c v
  · exact (gives_sweepDone t hc hs v e).of_eq (doSweepDone_not t v e h)
  · refine does_of_gives ((gives_sweepDone t hc hs v e).of_eq (doSweepDone_runs t v e h)) ?_
    have hf := sweepFree_within (sweepShow (advance s.dev t) c v e) c
    have hm := sweepEnd_moved (sweepFree (sweepShow (advance s.dev t) c v e) c) c
    have hpace : ¬ pgDly c = pgPace := by simp only [pgDly, pgPace]; omega
    simp only [getR_settle, evtRaw_settle, settle_mem]
    refine ⟨?_, ?_, ?_, ?_, raise_bit _ _ _, (hm.field Dev.mem).trans (hf.field Dev.mem)⟩
    · rw [hm.getR_fld (by simp; decide), hf.keeps _ _ hpace (by decide), sweepShow, getR_setR_fld _ _ _ (by decide), getR_setR_self]; rfl
    · rw [hm.getR_fld (by simp; decide), hf.keeps _ _ hpace (by decide), sweepShow, getR_setR_self]; rfl
    · rw [sweepEnd, getR_raise, getR_setR_fld _ _ _ (by decide), getR_setR_self]; rfl
    · rw [sweepEnd, getR_raise, getR_setR_self]; rfl
  · refine does_of_gives ((gives_marginSweep t hc hs ms).of_eq (doMargin_eq t hms)) ?_
    set e := marginStep (advance s.dev (marginTime s.dev t c)) c ms (dmc s.dev c)
    have hm : Moved noDmc (marginRegs c) (advance s.dev (marginTime s.dev t c)) e := marginStep_moved _ c ms _
    have hmin : getR e (pgDmc c) F.DMC_MARGIN_MIN = getR s.dev (pgDmc c) F.DMC_MARGIN_MIN := getR_marginShow _ c ms (.inl (by decide))
    have hrank : (dmc e c).marginRank = ((dmc s.dev c).marginRank + 1) % (dmcCfg s.dev c F.DMC_RANKS + 1) := by
      rw [dmc_marginStep, dmcCfg_marginShow]; rfl
    have hticks : e.ticks = max s.dev.ticks (marginTime s.dev t c) := hm.field Dev.ticks
    have htime : max (dmc s.dev c).marginAt s.dev.boot.releaseAt + 100000000 * getR s.dev (pgDmc c) F.DMC_MARGIN_S ≤ e.ticks := by
      rw [hticks]; simp only [marginTime, sT]; omega
    have hne : ms ≠ [] := fun h => by simp [h] at hms
    simp only [hmin, ← worstLane_lt_iff hne]
    split
    case isTrue h =>
      have hw := marginLow_within e c (dmc s.dev c).marginRank ms
      have hpace : ¬ pgDmc c = pgPace := by simp only [pgDmc, pgPace]; omega
      simp only [getR_settle, evtRaw_settle, settle_mem, settle_ledgerOut, settle_ticks, dmc_settle, settle_evt]
      have hdmc : (dmc (marginLow e c (dmc s.dev c).marginRank ms) c).marginRank = (dmc e c).marginRank :=
        congrArg (fun x => (Store.get x DmcSt.reset c).marginRank) (hw.field Dev.dmc)
      have hevt : (evtRaw (marginLow e c (dmc s.dev c).marginRank ms) (pgDmc c)).testBit 14 = true :=
        (congrArg (fun x => (Store.get x 0 (pgDmc c)).testBit 14) (hw.field Dev.evt)).trans (raise_bit e (pgDmc c) 14)
      have hlog : (marginLow e c (dmc s.dev c).marginRank ms).ledgerOut.length = s.dev.ledgerOut.length + 1 :=
        (congrArg List.length (hw.field Dev.ledgerOut)).trans
          ((ledgerOut_ledgerNow _ _ _ _ _).trans (congrArg (·.length + 1) (hm.field Dev.ledgerOut)))
      refine ⟨fun i hi => ?_, htime.trans (hw.field Dev.ticks).ge, hdmc.trans hrank, fun _ => ⟨hevt, hlog⟩, fun hnot => absurd h hnot,
        (hw.field Dev.mem).trans (hm.field Dev.mem)⟩
      rw [hw.keeps _ _ hpace (by simp only [fldAt, F.DMC_MARGIN]; omega)]
      exact margin_marginStep _ c ms (dmc s.dev c) hi
    case isFalse h =>
      simp only [getR_settle, evtRaw_settle, settle_mem, settle_ledgerOut, settle_ticks, dmc_settle, settle_evt]
      exact ⟨fun i hi => margin_marginStep _ c ms _ hi, htime, hrank, fun hlow => absurd hlow h,
        fun _ => ⟨hm.field Dev.evt, hm.field Dev.ledgerOut⟩, hm.field Dev.mem⟩

end

section
set_option Elab.async false
/-! PROOFS. Photo Finish (R315–R324): the edges of a channel in INTERVAL mode, its window and its calibration, and obligation
O44. -/

namespace Sys2Proof.Machine

open Sys2Proof

/-- The device but for its registers, its events and what the Photo-finish channels keep outside theirs. -/
def noPf (d : Dev) : Dev := { d with regs := [], evt := [], pfs := [] }

section
variable (d : Dev) (i : Nat)

@[simp] theorem pfSt_setPf (x : PfSt) : pfSt (setPf d i x) i = x := Store.get_set_self _ _ _ _
@[simp] theorem pfSt_advance (t : Nat) : pfSt (advance d t) i = pfSt d i := rfl
@[simp] theorem pfSt_settle : pfSt (settle d) i = pfSt d i := by simp [pfSt]
@[simp] theorem pfSt_setR (p : Nat) (f : Fld) (v : Nat) : pfSt (setR d p f v) i = pfSt d i := rfl
@[simp] theorem pfSt_raise (p b : Nat) : pfSt (raise d p b) i = pfSt d i := rfl
@[simp] theorem pfSt_bump (p : Nat) (f : Fld) : pfSt (bump d p f) i = pfSt d i := by rw [bump, addC_eq]; rfl
@[simp] theorem pfSt_raiseOn (p b : Nat) (was now : Bool) : pfSt (raiseOn d p b was now) i = pfSt d i := by
  unfold raiseOn; split <;> rfl

@[simp] theorem pfCfg_advance (t : Nat) : pfCfg (advance d t) i = pfCfg d i := rfl
@[simp] theorem pfCfg_setPf (x : PfSt) : pfCfg (setPf d i x) i = pfCfg d i := rfl
@[simp] theorem pfTime_advance (t u ce v : Nat) : pfTime (advance d t) i u ce v = pfTime d i u ce v := rfl

theorem Moved.then_setPf {k : Dev → Dev} {fs : List (Nat × Fld)} {d e : Dev} {i : Nat} {x : PfSt} (h : Moved k fs d e)
    (hk : ∀ d, k (setPf d i x) = k d := by intro _; rfl) : Moved k fs d (setPf e i x) := .trans _ _ _ h (.of_regs _ _ rfl (hk e))

end

section
variable {d : Dev} {i : Nat}

theorem pfNow_idle (h : (pfSt d i).run = none) : pfNow d i = pfCfg d i := by simp [pfNow, h]
theorem pfNow_runs {r : PfRun} (h : (pfSt d i).run = some r) : pfNow d i = r.cfg := by simp [pfNow, h]

/-! ### Commands -/

section
variable {s : State} (t : Nat) (hi : i < 8) (hs : Awake s)
include hi hs

theorem gives_pfEdge {src ce v0 v1 : Nat} (fall : Bool) (hsrc : src < 64) (h0 : v0 < 4096) (h1 : v1 < 4096) :
    Gives (.pfEdge t i src fall ce v0 v1) s (doPfEdge t i src fall ce v0 v1 s.dev) :=
  gives_of_act rfl (by simp [hi, hsrc, h0, h1]) hs

theorem gives_pfWindowClose : Gives (.pfWindowClose t i) s (doPfWindowClose t i s.dev) := gives_of_act rfl (decide_eq_true hi) hs
theorem gives_pfCalPass : Gives (.pfCalPass t i) s (doPfCalPass t i s.dev) := gives_of_act rfl (decide_eq_true hi) hs

theorem gives_pfCalDone {a0 b0 a1 b1 : Nat} (ha0 : a0 < 65536) (hb0 : b0 < 65536) (ha1 : a1 < 65536) (hb1 : b1 < 65536) :
    Gives (.pfCalDone t i a0 b0 a1 b1) s (doPfCalDone t i a0 b0 a1 b1 s.dev) :=
  gives_of_act rfl (by simp [hi, ha0, hb0, ha1, hb1]) hs

/-- An IDLE channel is armed. -/
def pfArmed (d : Dev) (i : Nat) : Dev := if getR d (pgPf i) cSTATE = 0 then setR d (pgPf i) cSTATE 1 else d

/-- The channel is IDLE and holds no measurement. -/
def pfDisarmed (d : Dev) (i : Nat) : Dev :=
  setR (setPf d i { pfSt d i with run := none, best := none, early := [], closed := none }) (pgPf i) cSTATE 0

section
variable (hr : Reach s.dev (pgPf i))
include hr

theorem gives_pfArm : Gives (.pfArm t i) s (pfArmed (advance s.dev t) i) :=
  gives_of_write (f := fun d => pfArmed d i) rfl (decide_eq_true hi) hr hs
theorem gives_pfDisarm : Gives (.pfDisarm t i) s (pfDisarmed (advance s.dev t) i) :=
  gives_of_write (f := fun d => pfDisarmed d i) rfl (decide_eq_true hi) hr hs
theorem gives_pfCalReq : Gives (.pfCalReq t i) s (pfPass (advance s.dev t) i) :=
  gives_of_write (f := fun d => pfPass d i) rfl (decide_eq_true hi) hr hs

end
end

/-! ### Edges (R316, R318) -/

section
variable (t ce v0 v1 : Nat)

theorem doPfEdge_none {src : Nat} (fall : Bool) (h : 56 ≤ src) : doPfEdge t i src fall ce v0 v1 d = advance d t := if_pos (.inl h)

/-- The start interpolator has timestamped an edge at `p`. -/
def pfSeen0 (d : Dev) (i : Nat) (p : Int) : Dev := setPf d i { pfSt d i with last0 := some p }

/-- The stop interpolator has timestamped an edge at `p`. -/
def pfSeen1 (d : Dev) (i : Nat) (p : Int) : Dev := setPf d i { pfSt d i with last1 := some p }

/-- An edge of ball 0, the start source of a channel in INTERVAL whose stop source is ball 1. -/
theorem doPfEdge_start (hm : (pfNow d i).mode = 0) (h0 : (pfNow d i).srcStart = 0) (h1 : (pfNow d i).srcStop = 1)
    (he : (pfNow d i).edgeStart = 0) (hl : (pfSt d i).last0 = none) :
    doPfEdge t i 0 false ce v0 v1 d =
      pfStartEdge (pfExpire (pfSeen0 (advance d t) i (pfTime d i 0 ce v0)) i (pfTime d i 0 ce v0)) i (pfTime d i 0 ce v0) false := by
  have hnow : pfNow (advance d t) i = pfNow d i := rfl
  simp [doPfEdge, hnow, hm, h0, h1, he, hl, pfStopSrc, pfMissed, b2n, onlyIf, pfSeen0]

/-- An edge of ball 1, the stop source. -/
theorem doPfEdge_stop (hm : (pfNow d i).mode = 0) (h0 : (pfNow d i).srcStart = 0) (h1 : (pfNow d i).srcStop = 1)
    (he : (pfNow d i).edgeStop = 0) (hl : (pfSt d i).last1 = none) :
    doPfEdge t i 1 false ce v0 v1 d =
      pfStopEdge (pfExpire (pfSeen1 (advance d t) i (pfTime d i 1 ce v1)) i (pfTime d i 1 ce v1)) i (pfTime d i 1 ce v1) false := by
  have hnow : pfNow (advance d t) i = pfNow d i := rfl
  simp [doPfEdge, hnow, hm, h0, h1, he, hl, pfStopSrc, pfMissed, b2n, onlyIf, pfSeen1]

end

theorem pfExpire_idle (p : Int) (h : (pfSt d i).run = none) : pfExpire d i p = d := by simp [pfExpire, h]

theorem pfExpire_open {r : PfRun} {p : Int} (h : (pfSt d i).run = some r) (hp : pfTick p < pfClose r.cfg (pfTick r.at_)) :
    pfExpire d i p = d := by simp [pfExpire, h, hp]

theorem pfExpire_ends {r : PfRun} {p : Int} (h : (pfSt d i).run = some r) (hp : pfClose r.cfg (pfTick r.at_) ≤ pfTick p) :
    pfExpire d i p = pfEnd d i r := by simp [pfExpire, h, hp]

/-- A measurement that starts at `p` runs. -/
def pfBegin (d : Dev) (i : Nat) (p : Int) (inner : Bool) : Dev :=
  let r : PfRun := ⟨pfCfg d i, p, !inner && pfStartNear p⟩
  setR (setPf d i { pfSt d i with run := some r, best := none, early := [], closed := none }) (pgPf i) cSTATE 2

theorem pfStartEdge_begins {p : Int} {inner : Bool} (h : (pfSt d i).run = none) (hst : getR d (pgPf i) cSTATE ≠ 0)
    (hm : (pfCfg d i).mode ≠ 3) (he : (pfSt d i).early = []) : pfStartEdge d i p inner = pfBegin d i p inner := by
  have hm' : (pfNow d i).mode ≠ 3 := by rwa [pfNow_idle h]
  simp [pfStartEdge, hst, hm', pfStart, h, he, pfEarly, pfBegin]

theorem pfStopEdge_runs {r : PfRun} {p : Int} {inner : Bool} (h : (pfSt d i).run = some r) (hst : getR d (pgPf i) cSTATE ≠ 0)
    (hm : r.cfg.mode ≠ 3) : pfStopEdge d i p inner = pfStopIn d i r p inner := by
  simp [pfStopEdge, pfNow_runs h, hm, hst, pfStop, h]

/-- A stop before the start, in INTERVAL. -/
theorem pfStopIn_order {r : PfRun} {p : Int} {inner : Bool} (hm : r.cfg.mode = 0) (hp : p < r.at_) :
    pfStopIn d i r p inner = pfOrder d i := by simp [pfStopIn, hm, hp]

/-- A stop at or after the start, with the window open from the start on. -/
theorem pfStopIn_result {r : PfRun} {p : Int} {inner : Bool} (hm : r.cfg.mode = 0) (ho : r.cfg.open_ ≤ 0) (hp : r.at_ ≤ p) :
    pfStopIn d i r p inner = pfResult d i r p inner := by
  have hopen : ¬ pfTick p < pfOpen r.cfg (pfTick r.at_) := by
    simp only [pfOpen, hm, pfTick]; simp only [ho, sup_of_le_left]; simp; omega
  simp [pfStopIn, hm, hopen, not_lt.2 hp]

end

/-! ### Results (R320, R321) -/

/-- The result of a measurement is ambiguous (R320). -/
def pfAmbig (r : PfRun) (p : Int) (inner : Bool) : Bool := r.ambig || (!inner && pfNear r.cfg (pfTick r.at_) p)

/-- LAST and its marks. -/
def pfLast (d : Dev) (i : Nat) (v : Int) (amb stale : Bool) : Dev :=
  setR (setR (setS d (pgPf i) F.PF_LAST v) (pgPf i) F.PF_AMBIG (b2n amb)) (pgPf i) F.PF_LAST_CAL_STALE (b2n stale)

/-- The measurement is over and its result counts. -/
def pfOver (d : Dev) (i : Nat) : Dev := bump (setPf d i { pfSt d i with run := none, best := none, early := [] }) (pgPf i) F.PF_RESULTS

/-- The channel is ARMED again; an ambiguous result counts, and shows at its onset. -/
def pfAgain (d : Dev) (i : Nat) (amb was : Bool) : Dev :=
  onlyIf amb (fun d => raiseOn (bump d (pgPf i) F.PF_AMBIGS) (pgPf i) 9 was true) (setR d (pgPf i) cSTATE 1)

section
variable (d : Dev) (i : Nat)

theorem pfResult_eq (r : PfRun) (p : Int) (inner : Bool) : pfResult d i r p inner =
    let e := pfAgain (pfOver (pfLast d i (p - r.at_) (pfAmbig r p inner) (pageCal d (pgPf i))) i) i (pfAmbig r p inner)
      (flagR d (pgPf i) F.PF_AMBIG)
    if pfAmbig r p inner && r.cfg.drop then e else pfCount e i r.cfg (p - r.at_) (pageCal d (pgPf i)) := rfl

/-- The registers that LAST and its marks are. -/
def pfLastRegs (i : Nat) : List (Nat × Fld) := [(pgPf i, F.PF_LAST), (pgPf i, F.PF_AMBIG), (pgPf i, F.PF_LAST_CAL_STALE)]

theorem pfLast_moved (v : Int) (amb stale : Bool) : Moved noPf (pfLastRegs i) d (pfLast d i v amb stale) := by
  unfold pfLast setS
  exact .then_setR (.then_setR (.of_setR _ _ (by simp [pfLastRegs])) (by simp [pfLastRegs])) (by simp [pfLastRegs])

theorem pfOver_moved : Moved noPf [(pgPf i, F.PF_RESULTS)] d (pfOver d i) := .then_bump (.then_setPf (.refl d)) (by simp)

theorem pfAgain_moved (amb was : Bool) : Moved noPf [(pgPf i, F.PF_AMBIGS), (pgPf i, cSTATE)] d (pfAgain d i amb was) :=
  .then_onlyIf (.of_setR _ _ (by simp)) (.then_raiseOn (.of_addC _ 1 (by simp)))

/-- The registers of a block's statistics. -/
def pfBlockRegs (i : Nat) : List (Nat × Fld) :=
  [(pgPf i, F.PF_MEAN), (pgPf i, F.PF_SD), (pgPf i, F.PF_MIN), (pgPf i, F.PF_MAX), (pgPf i, F.PF_BLOCKS)]

theorem pfBlock_moved (n : Nat) : Moved noPf (pfBlockRegs i) d (pfBlock d i n) := by
  simp only [pfBlock, setS]
  split
  · exact .refl d
  · refine .then_raise (.then_bump (.then_setPf ?_) (by simp [pfBlockRegs]))
    exact .then_setR (.then_setR (.then_setR (.of_setR _ _ (by simp [pfBlockRegs])) (by simp [pfBlockRegs])) (by simp [pfBlockRegs]))
      (by simp [pfBlockRegs])

theorem pfBlock_run (n : Nat) : (pfSt (pfBlock d i n) i).run = (pfSt d i).run := by
  simp only [pfBlock, setS]
  split
  · rfl
  · rw [pfSt_raise, pfSt_bump, pfSt_setPf]

theorem pfAgain_run (amb was : Bool) : (pfSt (pfAgain d i amb was) i).run = (pfSt d i).run := by
  unfold pfAgain onlyIf; split
  · rw [pfSt_raiseOn, pfSt_bump, pfSt_setR]
  · rfl

/-- A signed word that is not negative is read as it was written. -/
theorem sx_ux_word {v : Int} (h0 : 0 ≤ v) (h1 : v < 2 ^ 31) : sx 32 (ux 32 v % 2 ^ 32) = v := by
  obtain ⟨n, rfl⟩ := Int.eq_ofNat_of_zero_le h0
  have hn : ux 32 (n : Int) = n := by simp only [ux]; omega
  rw [hn, sx, if_pos (by omega)]; omega

variable {d i}

/-- Outside SPLIT a result enters the block alone. -/
theorem pfCount_spec {c : PfCfg} (v : Int) (stale : Bool) (hc : c.mode = 0) :
    Moved noPf (pfBlockRegs i) d (pfCount d i c v stale) ∧ (pfSt (pfCount d i c v stale) i).run = (pfSt d i).run := by
  have hsplit : (c.mode == 2 && !stale) = false := by rw [hc]; rfl
  simp only [pfCount, hsplit, Bool.false_and, onlyIf, Bool.false_eq_true, if_false]
  refine ⟨.trans _ _ _ (.then_setPf (.refl d)) (pfBlock_moved _ i _), ?_⟩
  rw [pfBlock_run, pfSt_setPf]

/-- What a result in INTERVAL leaves. -/
theorem pfResult_spec {r : PfRun} {p : Int} (hm : r.cfg.mode = 0) (h0 : 0 ≤ p - r.at_) (h1 : p - r.at_ < 2 ^ 31) :
    getS (pfResult d i r p false) (pgPf i) F.PF_LAST = p - r.at_ ∧ (pfSt (pfResult d i r p false) i).run = none ∧
      getR (pfResult d i r p false) (pgPf i) F.PF_AMBIG = b2n (pfAmbig r p false) ∧
      getR (pfResult d i r p false) (pgPf i) F.PF_RESULTS = min (getR d (pgPf i) F.PF_RESULTS + 1) (2 ^ 32 - 1) ∧
      (pfResult d i r p false).mem = d.mem := by
  have hl := pfLast_moved d i (p - r.at_) (pfAmbig r p false) (pageCal d (pgPf i))
  set e1 := pfLast d i (p - r.at_) (pfAmbig r p false) (pageCal d (pgPf i)) with he1
  have ho := pfOver_moved e1 i
  have ha := pfAgain_moved (pfOver e1 i) i (pfAmbig r p false) (flagR d (pgPf i) F.PF_AMBIG)
  set e2 := pfAgain (pfOver e1 i) i (pfAmbig r p false) (flagR d (pgPf i) F.PF_AMBIG) with he2
  obtain ⟨hend, hrun⟩ : Moved noPf (pfBlockRegs i) e2 (pfResult d i r p false) ∧
      (pfSt (pfResult d i r p false) i).run = (pfSt e2 i).run := by
    rw [pfResult_eq, ← he1, ← he2]
    dsimp only
    split
    · exact ⟨.refl _, rfl⟩
    · exact pfCount_spec _ _ hm
  have hkeep : ∀ {f : Fld}, f ∈ [F.PF_LAST, F.PF_AMBIG] → getR (pfResult d i r p false) (pgPf i) f = getR e1 (pgPf i) f := fun hf => by
    simp only [List.mem_cons, List.not_mem_nil, or_false] at hf
    obtain rfl | rfl := hf <;>
      rw [hend.getR_fld (by simp [pfBlockRegs]; decide), ha.getR_fld (by simp; decide), ho.getR_fld (by simp; decide)]
  refine ⟨?_, ?_, ?_, ?_, ?_⟩
  · rw [getS, hkeep (by simp), he1, pfLast, getR_setR_fld _ _ _ (by decide), getR_setR_fld _ _ _ (by decide), setS, getR_setR_self]
    exact sx_ux_word h0 h1
  · rw [hrun, he2, pfAgain_run, pfOver, pfSt_bump, pfSt_setPf]
  · rw [hkeep (by simp), he1, pfLast, getR_setR_fld _ _ _ (by decide), getR_setR_self]
    exact Nat.mod_eq_of_lt (by cases pfAmbig r p false <;> decide)
  · rw [hend.getR_fld (by simp [pfBlockRegs]; decide), ha.getR_fld (by simp; decide), pfOver, bump, getR_addC_narrow _ _ _ (le_refl 32)]
    exact congrArg (fun n => min (n + 1) (2 ^ 32 - 1)) (hl.getR_fld (by simp [pfLastRegs]; decide))
  · exact (hend.field Dev.mem).trans ((ha.field Dev.mem).trans ((ho.field Dev.mem).trans (hl.field Dev.mem)))

end

/-! ### A window that runs out (R318) -/

section
variable (d : Dev) (i : Nat) (r : PfRun)

/-- The channel notes the close tick of the window that ran out, and holds no measurement. -/
def pfRanOut (d : Dev) (i : Nat) (r : PfRun) : Dev :=
  let d := setPf d i { pfSt d i with closed := some (pfClose r.cfg (pfTick r.at_)) }
  setPf d i { pfSt d i with run := none, early := [] }

/-- A timeout. -/
def pfTimeout (d : Dev) (i : Nat) (r : PfRun) : Dev :=
  raise (bump (setR (pfRanOut d i r) (pgPf i) cSTATE 1) (pgPf i) F.PF_TIMEOUTS) (pgPf i) 11

variable {d i r}

theorem pfEnd_timeout (h : (pfSt d i).best = none) : pfEnd d i r = pfTimeout d i r := by
  simp [pfEnd, h, pfTimeout, pfRanOut]

theorem pfSt_pfTimeout :
    pfSt (pfTimeout d i r) i = { pfSt d i with closed := some (pfClose r.cfg (pfTick r.at_)), run := none, early := [] } := by
  rw [pfTimeout, pfSt_raise, pfSt_bump, pfSt_setR, pfRanOut, pfSt_setPf, pfSt_setPf]

theorem pfTimeout_moved : Moved noPf [(pgPf i, cSTATE), (pgPf i, F.PF_TIMEOUTS)] d (pfTimeout d i r) := by
  unfold pfTimeout pfRanOut
  exact .then_raise (.then_bump (.then_setR (.then_setPf (.then_setPf (.refl d))) (by simp)) (by simp))

theorem state_pfTimeout : getR (pfTimeout d i r) (pgPf i) cSTATE = 1 := by
  rw [pfTimeout, getR_raise, bump, getR_addC_fld _ _ _ (by decide), getR_setR_self]; rfl

theorem timeouts_pfTimeout :
    getR (pfTimeout d i r) (pgPf i) F.PF_TIMEOUTS = min (getR d (pgPf i) F.PF_TIMEOUTS + 1) (2 ^ 32 - 1) := by
  rw [pfTimeout, getR_raise, bump, getR_addC_narrow _ _ _ (le_refl 32), getR_setR_fld _ _ _ (by decide)]; rfl

theorem doPfWindowClose_idle (t : Nat) (h : (pfSt d i).run = none) : doPfWindowClose t i d = advance d t := by
  simp [doPfWindowClose, h]

theorem doPfWindowClose_ends (t : Nat) (h : (pfSt d i).run = some r) (hb : (pfSt d i).best = none) : doPfWindowClose t i d =
    pfTimeout (advance d (max t ((pfClose r.cfg (pfTick r.at_) + 4) / 5).toNat)) i r := by
  rw [← pfEnd_timeout (d := advance d _) hb]; simp [doPfWindowClose, h]

/-- A stop in the tick in which the window closed is late. -/
theorem pfStopEdge_late {p : Int} {inner : Bool} (h : (pfSt d i).run = none) (hm : (pfCfg d i).mode = 0)
    (hst : getR d (pgPf i) cSTATE ≠ 0) (hc : (pfSt d i).closed = some (pfTick p)) :
    pfStopEdge d i p inner = bump d (pgPf i) F.PF_LATE := by
  have hm' : (pfNow d i).mode = 0 := by rwa [pfNow_idle h]
  simp [pfStopEdge, hm', hst, pfStop, h, hc]

end

/-! ### Calibration passes (R324) -/

section
variable {d : Dev} {i : Nat}

theorem pfPass_runs (h : (pfSt d i).calRun = true) : pfPass d i = d := if_pos h
theorem pfPass_starts (h : (pfSt d i).calRun = false) : pfPass d i = setPf d i { pfSt d i with
    calRun := true, calWas := [isCal d (pgPf i) 0, isCal d (pgPf i) 1], lastPass := d.ticks } := if_neg (by simp [h])

/-- K1 and K2 of interpolator `u` become live. -/
def pfTake (d : Dev) (i u a b : Nat) : Dev := setCal (setR (setR d (pgPf i) (F.PF_K1 u) a) (pgPf i) (F.PF_K2 u) b) (pgPf i) u false

theorem pfLimit_within {lo hi step v live : Int} (hlo : lo ≤ v) (hhi : v ≤ hi) : pfLimit lo hi step true v live = none := by
  rw [pfLimit, if_neg (by omega)]; simp

theorem pfLimit_below {lo hi step v live : Int} (was : Bool) (h : v < lo) : pfLimit lo hi step was v live = some 0 := if_pos (.inl h)

/- `pfJudge` is unfolded as a constant, and its arguments are given afterwards: unfolded under them, its `match` would have
`pfLimit` computed on variables, step by step through its limits as numerals. -/

/-- Values within the limits at an interpolator that was CAL_STALE become live. -/
theorem pfJudge_accepts {u a b : Nat} (hw : (pfSt d i).calWas.getD u false = true) (h1 : 12800 ≤ a) (h2 : a ≤ 24000)
    (h3 : a + 24000 ≤ b) (h4 : b ≤ a + 40000) : pfJudge d i u a b = (false, pfTake d i u a b) := by
  have hf1 : ∀ live, pfLimit 12800 24000 256 true a live = none := fun _ => pfLimit_within (by omega) (by omega)
  have hf2 : ∀ step live, pfLimit 24000 40000 step true ((b : Int) - a) live = none := fun _ _ => pfLimit_within (by omega) (by omega)
  have hbody : @pfJudge = @pfJudge := rfl
  conv at hbody => rhs; delta pfJudge
  rw [hbody]
  simp only [hw, hf1, hf2, pfTake]

/-- A K1 below its limit rejects the interpolator. -/
theorem pfJudge_rejects {u a b : Nat} (h : a < 12800) : ∃ lo, pfJudge d i u a b = (true, logged d lo) := by
  have hf1 : ∀ was live, pfLimit 12800 24000 256 was a live = some 0 := fun _ _ => pfLimit_below _ (by omega)
  have hbody : @pfJudge = @pfJudge := rfl
  conv at hbody => rhs; delta pfJudge
  rw [hbody]
  simp only [hf1]
  cases pfLimit 24000 40000 _ _ _ _
  · exact ⟨_, rfl⟩
  · exact ⟨_, congrArg (Prod.mk true) (congrArg (fun l => { d with ledgerOut := l }) (List.append_assoc _ _ _))⟩

set_option maxRecDepth 4000 in
theorem doPfCalDone_idle (t a0 b0 a1 b1 : Nat) (h : (pfSt d i).calRun = false) : doPfCalDone t i a0 b0 a1 b1 d = advance d t := by
  simp only [doPfCalDone, pfSt_advance, h, Bool.not_false, if_true]

@[simp] theorem pfSt_pfTake (u a b : Nat) : pfSt (pfTake d i u a b) i = pfSt d i := rfl

/-- Both interpolators take their values, and the pass is over. -/
def pfTaken (d : Dev) (i a b : Nat) : Dev :=
  let d := pfTake (pfTake d i 0 a b) i 1 a b
  setPf d i { pfSt d i with calRun := false, lastTemp := hubTemp d }

/-- The channel's record is written, and no pass in a row was rejected. -/
def pfKept (d : Dev) (i : Nat) : Dev := setPf (pfStore d i) i { pfSt (pfStore d i) i with rejRun := 0 }

set_option maxRecDepth 4000 in
theorem doPfCalDone_accepts (t : Nat) {a b : Nat} (hrun : (pfSt d i).calRun = true) (hw : (pfSt d i).calWas = [true, true])
    (hdeg : flagR (pfKept (pfTaken (advance d t) i a b) i) (pgPf i) F.PF_DEGRADED = false) (h1 : 12800 ≤ a) (h2 : a ≤ 24000)
    (h3 : a + 24000 ≤ b) (h4 : b ≤ a + 40000) :
    doPfCalDone t i a b a b d = pfKept (pfTaken (advance d t) i a b) i := by
  have hj0 : pfJudge (advance d t) i 0 a b = (false, pfTake (advance d t) i 0 a b) :=
    pfJudge_accepts (by rw [pfSt_advance, hw]; rfl) h1 h2 h3 h4
  have hj1 : pfJudge (pfTake (advance d t) i 0 a b) i 1 a b = (false, pfTake (pfTake (advance d t) i 0 a b) i 1 a b) :=
    pfJudge_accepts (by rw [pfSt_pfTake, pfSt_advance, hw]; rfl) h1 h2 h3 h4
  simp only [doPfCalDone, pfSt_advance, hrun, hj0, hj1, Bool.not_true, Bool.false_eq_true, if_false, Bool.or_self, Bool.and_self, Bool.not_false, onlyIf, if_true]
  exact if_neg (by rw [← Bool.not_eq_true] at hdeg; exact hdeg)

/-- A rejected pass is over, counts and shows. -/
def pfRejected (d : Dev) (i : Nat) : Dev :=
  let d := setPf d i { pfSt d i with calRun := false, lastTemp := (pfSt d i).lastTemp }
  raise (bump (setPf d i { pfSt d i with rejRun := (pfSt d i).rejRun + 1 }) (pgPf i) F.PF_CAL_REJECTS) (pgPf i) 12

set_option maxRecDepth 4000 in
theorem doPfCalDone_rejects (t : Nat) {a b : Nat} (hrun : (pfSt d i).calRun = true) (h : a < 12800) :
    ∃ lo, doPfCalDone t i a b a b d = pfRejected (logged (advance d t) lo) i ∨
      doPfCalDone t i a b a b d = pfDegrade (pfRejected (logged (advance d t) lo) i) i true := by
  obtain ⟨l0, hj0⟩ := pfJudge_rejects (d := advance d t) (i := i) (u := 0) (b := b) h
  obtain ⟨l1, hj1⟩ := pfJudge_rejects (d := logged (advance d t) l0) (i := i) (u := 1) (b := b) h
  have hlog : logged (logged (advance d t) l0) l1 = logged (advance d t) (l0 ++ l1) :=
    congrArg (fun l => { advance d t with ledgerOut := l }) (List.append_assoc _ _ _)
  refine ⟨l0 ++ l1, ?_⟩
  rw [← hlog]
  simp only [doPfCalDone, pfSt_advance, hrun, hj0, hj1, Bool.not_true, Bool.false_eq_true, if_false, Bool.or_self, Bool.and_self, onlyIf, if_true]
  split
  · exact .inr rfl
  · exact .inl rfl

end

/-! ### What a pass leaves -/

section
variable (d : Dev) (i : Nat)

/-- The device but for its registers and what calibration passes of the Photo-finish unit keep outside theirs. -/
def noPfCal (d : Dev) : Dev := { d with regs := [], pfs := [], unitCal := [], almCal := [] }

/-- The coefficients of both interpolators. -/
def pfCoefs (i : Nat) : List (Nat × Fld) := [(pgPf i, F.PF_K1 0), (pgPf i, F.PF_K2 0), (pgPf i, F.PF_K1 1), (pgPf i, F.PF_K2 1)]

theorem unitCal_moved {fs : List (Nat × Fld)} (u : Nat) (b : Bool) : Moved noPfCal fs d (setCal d (pgPf i) u b) := .of_regs _ _

theorem pfTake_moved {u : Nat} (hu : u < 2) (a b : Nat) : Moved noPfCal (pfCoefs i) d (pfTake d i u a b) := by
  unfold pfTake
  refine .trans _ _ _ ?_ (unitCal_moved _ i u false)
  exact .then_setR (.of_setR _ _ (by interval_cases u <;> simp [pfCoefs])) (by interval_cases u <;> simp [pfCoefs])

theorem pfTaken_moved (a b : Nat) : Moved noPfCal (pfCoefs i) d (pfTaken d i a b) := by
  unfold pfTaken
  exact .then_setPf (.trans _ _ _ (pfTake_moved d i (by decide) a b) (pfTake_moved _ i (by decide) a b))

theorem pfKept_moved {fs : List (Nat × Fld)} : Moved noPfCal fs d (pfKept d i) := by
  unfold pfKept
  exact .then_setPf (.of_regs _ _)

variable {d i}

theorem isCal_pfTake (d : Dev) (i u a b : Nat) : isCal (pfTake d i u a b) (pgPf i) u = false := by
  rw [pfTake, isCal_setCal]

theorem isCal_pfTake_ne (d : Dev) (i a b : Nat) {u v : Nat} (h : v ≠ u) : isCal (pfTake d i v a b) (pgPf i) u = isCal d (pgPf i) u := by
  rw [pfTake, isCal, setCal, Store.get_set_ne _ _ _ _ (by simp only [unitKey]; omega)]; rfl

/-- The interpolators after an accepted pass. -/
theorem pfTaken_spec {a b u : Nat} (ha : a < 65536) (hb : b < 65536) (hu : u < 2) :
    getR (pfTaken d i a b) (pgPf i) (F.PF_K1 u) = a ∧ getR (pfTaken d i a b) (pgPf i) (F.PF_K2 u) = b ∧
      isCal (pfTaken d i a b) (pgPf i) u = false := by
  have hd : pfTaken d i a b = setPf (pfTake (pfTake d i 0 a b) i 1 a b) i _ := rfl
  have hk1 : ∀ e v, getR (pfTake e i v a b) (pgPf i) (F.PF_K1 v) = a := fun e v =>
    (getR_setR_fld _ _ _ (by simp only [fldAt, F.PF_K1, F.PF_K2]; omega)).trans ((getR_setR_self _ _ _ _).trans (Nat.mod_eq_of_lt ha))
  have hk2 : ∀ e v, getR (pfTake e i v a b) (pgPf i) (F.PF_K2 v) = b := fun e v =>
    (getR_setR_self _ _ _ _).trans (Nat.mod_eq_of_lt hb)
  have hother : ∀ e {f : Fld}, fldAt f ≠ fldAt (F.PF_K1 1) → fldAt f ≠ fldAt (F.PF_K2 1) →
      getR (pfTake e i 1 a b) (pgPf i) f = getR e (pgPf i) f := fun e f h1 h2 =>
    (getR_setR_fld _ _ _ h2.symm).trans (getR_setR_fld _ _ _ h1.symm)
  have hcal0 : isCal (pfTake (pfTake d i 0 a b) i 1 a b) (pgPf i) 0 = false := by rw [isCal_pfTake_ne _ i a b (by decide), isCal_pfTake]
  have hcal1 : isCal (pfTake (pfTake d i 0 a b) i 1 a b) (pgPf i) 1 = false := isCal_pfTake _ i 1 a b
  interval_cases u
  · exact ⟨(hother _ (by decide) (by decide)).trans (hk1 d 0), (hother _ (by decide) (by decide)).trans (hk2 d 0), hcal0⟩
  · exact ⟨hk1 _ 1, hk2 _ 1, hcal1⟩

/-- The device but for its registers, its events, the Photo-finish channels and the Ledger. -/
def noPfLog (d : Dev) : Dev := { d with regs := [], evt := [], pfs := [], ledgerOut := [] }

/-- The registers of a rejected pass. -/
def pfRejectRegs (i : Nat) : List (Nat × Fld) := [(pgPf i, F.PF_CAL_REJECTS), (pgPf i, F.PF_DEGRADED)]

theorem logged_moved {fs : List (Nat × Fld)} (d : Dev) (lo : List LedgerEntry) : Moved noPfLog fs d (logged d lo) := .of_regs _ _

theorem pfRejected_moved (d : Dev) (i : Nat) (lo : List LedgerEntry) :
    Moved noPfLog (pfRejectRegs i) d (pfRejected (logged d lo) i) := by
  unfold pfRejected
  exact .then_raise (.then_bump (.then_setPf (.then_setPf (logged_moved d lo))) (by simp [pfRejectRegs]))

theorem pfDegrade_moved (d : Dev) (i : Nat) : Moved noPfLog (pfRejectRegs i) d (pfDegrade d i true) := by
  unfold pfDegrade
  exact .then_ledgerNow (.then_onlyIf (.of_setR (p := pgPf i) (f := F.PF_DEGRADED) _ _ (by simp [pfRejectRegs])) (.then_raise (.refl _)))

theorem pfSt_pfDegrade (d : Dev) (i : Nat) : pfSt (pfDegrade d i true) i = pfSt d i := rfl

/-- A rejected pass counts and shows; the third in a row degrades the channel. -/
theorem pfReject_spec {d e : Dev} {i : Nat} {lo : List LedgerEntry}
    (h : e = pfRejected (logged d lo) i ∨ e = pfDegrade (pfRejected (logged d lo) i) i true) :
    Moved noPfLog (pfRejectRegs i) d e ∧ (pfSt e i).rejRun = (pfSt d i).rejRun + 1 ∧ (evtRaw e (pgPf i)).testBit 12 = true ∧
      getR e (pgPf i) F.PF_CAL_REJECTS = min (getR d (pgPf i) F.PF_CAL_REJECTS + 1) (2 ^ 32 - 1) := by
  have hm := pfRejected_moved d i lo
  have hrun : (pfSt (pfRejected (logged d lo) i) i).rejRun = (pfSt d i).rejRun + 1 := by
    rw [pfRejected, pfSt_raise, pfSt_bump, pfSt_setPf]
    exact congrArg (·.rejRun + 1) (pfSt_setPf _ i _)
  have hcount : getR (pfRejected (logged d lo) i) (pgPf i) F.PF_CAL_REJECTS = min (getR d (pgPf i) F.PF_CAL_REJECTS + 1) (2 ^ 32 - 1) :=
    getR_addC_narrow _ _ _ (le_refl 32)
  obtain rfl | rfl := h
  · exact ⟨hm, hrun, raise_bit _ _ _, hcount⟩
  · refine ⟨.trans _ _ _ hm (pfDegrade_moved _ i), (congrArg PfSt.rejRun (pfSt_pfDegrade _ i)).trans hrun,
      raise_mono _ _ _ _ _ (raise_bit _ _ _), ?_⟩
    rw [pfDegrade, getR_ledgerNow, onlyIf, if_pos rfl, getR_raise, getR_setR_fld _ _ _ (by decide), hcount]

end

end Sys2Proof.Machine

open Sys2Proof Sys2Proof.Machine

/-- Settles O44. -/
theorem photoFinishMeasures : Obligations.PhotoFinishMeasures := by
  unfold Obligations.PhotoFinishMeasures
  intro s t i hi hs
  refine ⟨fun hr h => ?_, fun hr h => ?_, fun hr => ?_, fun src fall ce v0 v1 h56 hsrc h0 h1 => ?_,
    fun ce v0 v1 h0 h1 hrun hst hm hs0 hs1 he hl hearly => ?_, fun ce v0 v1 r h0 h1 hrun hm hs0 hs1 he hopen hamb hl hst => ?_,
    fun h => ?_, fun r hrun hbest => ?_, fun hr h => ?_, fun hr h => ?_, fun h => ?_, fun h => ?_, fun a b ha hb h => ?_,
    fun a b hrun hw hdeg h1 h2 h3 h4 hb => ?_, fun a b hrun ha hb => ?_⟩
  · exact (gives_pfArm t hi hs hr).of_eq (if_pos h)
  · exact (gives_pfArm t hi hs hr).of_eq (if_neg h)
  · refine does_of_gives (gives_pfDisarm t hi hs hr) ?_
    have hm : Moved noPf [(pgPf i, cSTATE)] (advance s.dev t) (pfDisarmed (advance s.dev t) i) := .then_setR (.then_setPf (.refl _)) (by simp)
    simp only [getR_settle, pfSt_settle, settle_evt, settle_mem]
    refine ⟨getR_setR_self _ _ _ _, ?_, hm.settled, rfl, rfl⟩
    rw [pfDisarmed, pfSt_setR, pfSt_setPf]
  · exact (gives_pfEdge t hi hs fall hsrc h0 h1).of_eq (doPfEdge_none t ce v0 v1 fall h56)
  · have hnow := pfNow_idle hrun
    refine does_of_gives ((gives_pfEdge t hi hs false (by decide) h0 h1).of_eq (doPfEdge_start t ce v0 v1 (by rw [hnow]; exact hm)
      (by rw [hnow]; exact hs0) (by rw [hnow]; exact hs1) (by rw [hnow]; exact he) hl)) ?_
    set q := pfTime s.dev i 0 ce v0
    set e := pfSeen0 (advance s.dev t) i q
    have hseen : pfSt e i = { pfSt s.dev i with last0 := some q } := pfSt_setPf _ _ _
    have hidle : (pfSt e i).run = none := by rw [hseen]; exact hrun
    have hstate : getR e (pgPf i) cSTATE = 1 := hst
    rw [pfExpire_idle q hidle, pfStartEdge_begins hidle (by rw [hstate]; decide) (fun h3 => absurd (hm.symm.trans h3) (by decide))
      (by rw [hseen]; exact hearly)]
    have hmv : Moved noPf [(pgPf i, cSTATE)] e (pfBegin e i q false) := .then_setR (.then_setPf (.refl _)) (by simp)
    simp only [getR_settle, pfSt_settle, settle_evt, settle_mem]
    refine ⟨⟨⟨pfCfg s.dev i, q, pfStartNear q⟩, ?_, rfl, rfl⟩, getR_setR_self _ _ _ _, hmv.settled, rfl, rfl⟩
    rw [pfBegin, pfSt_setR, pfSt_setPf]; rfl
  · have hnow := pfNow_runs hrun
    have hg := (gives_pfEdge t hi hs false (src := 1) (ce := ce) (by decide) h0 h1).of_eq (doPfEdge_stop t ce v0 v1
      (by rw [hnow]; exact hm) (by rw [hnow]; exact hs0) (by rw [hnow]; exact hs1) (by rw [hnow]; exact he) hl)
    set q := pfTime s.dev i 1 ce v1
    have hseen : pfSt (pfSeen1 (advance s.dev t) i q) i = { pfSt s.dev i with last1 := some q } := pfSt_setPf _ _ _
    set e := pfSeen1 (advance s.dev t) i q
    have hrun' : (pfSt e i).run = some r := by rw [hseen]; exact hrun
    have hstate : getR e (pgPf i) cSTATE = 2 := hst
    have hmode : r.cfg.mode ≠ 3 := by rw [hm]; decide
    refine ⟨fun hle hwin hlt => ?_, fun hlt hwin => ?_, fun hlate hbest hcm => ?_⟩
    · refine does_of_gives (hg.of_eq ?_) (d := pfResult e i r q false) ?_
      · rw [pfExpire_open hrun' hwin, pfStopEdge_runs hrun' (by rw [hstate]; decide) hmode, pfStopIn_result hm hopen hle]
      · obtain ⟨hlast, hdone, hamb', hres, hmem⟩ := pfResult_spec (d := e) (i := i) (p := q) hm (by omega) hlt
        simp only [getS, getR_settle, pfSt_settle, settle_mem]
        refine ⟨hlast, hdone, ?_, hres, hmem⟩
        rw [hamb', pfAmbig, hamb]; rfl
    · refine does_of_gives (hg.of_eq ?_) (d := pfOrder e i) ?_
      · rw [pfExpire_open hrun' hwin, pfStopEdge_runs hrun' (by rw [hstate]; decide) hmode, pfStopIn_order hm hlt]
      · simp only [getR_settle, pfSt_settle, evtRaw_settle]
        refine ⟨?_, ?_, raise_bit _ _ _, ?_⟩
        · rw [pfOrder, pfSt_raise, pfSt_bump]; exact hrun'
        · exact getR_addC_narrow _ _ _ (le_refl 32)
        · exact getR_addC_fld _ _ _ (by decide)
    · refine does_of_gives (hg.of_eq ?_) (d := bump (pfTimeout e i r) (pgPf i) F.PF_LATE) ?_
      · rw [pfExpire_ends hrun' hlate.ge, pfEnd_timeout (by rw [hseen]; exact hbest)]
        have hout := pfSt_pfTimeout (d := e) (i := i) (r := r)
        exact pfStopEdge_late (by rw [hout])
          ((pfTimeout_moved.getR_fld (f := F.PF_MODE) (by simp; decide)).trans hcm) (by rw [state_pfTimeout]; decide) (by rw [hout, hlate]; rfl)
      · have hmv := pfTimeout_moved (d := e) (i := i) (r := r)
        simp only [getR_settle, pfSt_settle, pfSt_bump, pfSt_pfTimeout, true_and]
        refine ⟨?_, ?_, ?_⟩
        · rw [bump, getR_addC_fld _ _ _ (by decide), timeouts_pfTimeout]; rfl
        · rw [bump, getR_addC_narrow _ _ _ (le_refl 32), hmv.getR_fld (by simp; decide)]; rfl
        · rw [bump, getR_addC_fld _ _ _ (by decide), hmv.getR_fld (by simp; decide)]; rfl
  · exact (gives_pfWindowClose t hi hs).of_eq (doPfWindowClose_idle t h)
  · refine does_of_gives ((gives_pfWindowClose t hi hs).of_eq (doPfWindowClose_ends t hrun hbest)) ?_
    set e := advance s.dev (max t ((pfClose r.cfg (pfTick r.at_) + 4) / 5).toNat) with he
    have hmv := pfTimeout_moved (d := e) (i := i) (r := r)
    have hticks : (pfTimeout e i r).ticks = max s.dev.ticks (max t ((pfClose r.cfg (pfTick r.at_) + 4) / 5).toNat) :=
      hmv.field Dev.ticks
    simp only [getR_settle, pfSt_settle, evtRaw_settle, settle_mem, settle_ticks, pfSt_pfTimeout, state_pfTimeout, timeouts_pfTimeout,
      hticks, true_and]
    refine ⟨raise_bit _ _ _, ?_, rfl, hmv.settled, hmv.field Dev.mem⟩
    simp only [pfClose]; omega
  · exact (gives_pfCalReq t hi hs hr).of_eq (pfPass_runs h)
  · exact (gives_pfCalReq t hi hs hr).of_eq (pfPass_starts h)
  · exact (gives_pfCalPass t hi hs).of_eq (if_neg (by simp [h]))
  · exact (gives_pfCalPass t hi hs).of_eq (if_pos h)
  · exact (gives_pfCalDone t hi hs ha hb ha hb).of_eq (doPfCalDone_idle t a b a b h)
  · have hdeg' : flagR (pfKept (pfTaken (advance s.dev t) i a b) i) (pgPf i) F.PF_DEGRADED = false := by
      rw [← hdeg, flagR, (pfKept_moved (fs := []) _ _).getR_eq (by simp), (pfTaken_moved _ i a b).getR_fld (by simp [pfCoefs]; decide)]; rfl
    refine does_of_gives ((gives_pfCalDone t hi hs (by omega) hb (by omega) hb).of_eq
      (doPfCalDone_accepts t hrun hw hdeg' h1 h2 h3 h4)) ?_
    have hk := pfKept_moved (fs := []) (pfTaken (advance s.dev t) i a b) i
    have ht := pfTaken_moved (advance s.dev t) i a b
    simp only [getR_settle, pfSt_settle, settle_evt, settle_mem, isCal_settle]
    refine ⟨fun u hu => ?_, ?_, ?_, (hk.field Dev.evt).trans (ht.field Dev.evt), (hk.field Dev.mem).trans (ht.field Dev.mem)⟩
    · obtain ⟨hk1, hk2, hcal⟩ := pfTaken_spec (d := advance s.dev t) (i := i) (a := a) (b := b) (by omega) hb hu
      exact ⟨(hk.getR_eq (by simp)).trans hk1, (hk.getR_eq (by simp)).trans hk2, hcal⟩
    · rw [pfKept, pfSt_setPf]
      exact congrArg PfSt.calRun (pfSt_setPf _ i _)
    · rw [pfKept, pfSt_setPf]
  · obtain ⟨lo, hdo⟩ := doPfCalDone_rejects (b := b) t hrun ha
    refine does_of_gives (gives_pfCalDone t hi hs (by omega) hb (by omega) hb) ?_
    obtain ⟨hmv, hrej, hevt, hcount⟩ := pfReject_spec hdo
    simp only [getR_settle, pfSt_settle, evtRaw_settle, settle_mem, isCal_settle]
    refine ⟨fun u hu => ⟨hmv.getR_fld ?_, ?_⟩, hrej, hevt, hcount, hmv.field Dev.mem⟩
    · interval_cases u <;> simp [pfRejectRegs] <;> decide
    · exact congrArg (fun c => Store.get c false (unitKey (pgPf i) u)) (hmv.field Dev.unitCal)

end

section
set_option Elab.async false
/-! PROOFS. Command entries (R414, R415): the completion that ring 29 takes, the datagram, the entry taken, and the operations
access by access. -/

namespace Sys2Proof.Machine

open Sys2Proof

/-! ### Which registers of the rings an item offered to one of them moves (R404–R412) -/

/-- The registers of page RINGS that move when ring `r` takes an item without shelves. -/
def ownRegs (r : Nat) : List Fld := [F.RINGS_OFF_ITEMS, F.RINGS_DROPS r, F.RINGS_WR r, F.RINGS_ITEMS r]

/-- From `d` to `e` no other register of page RINGS moves. -/
structure RingKeeps (r : Nat) (d e : Dev) : Prop where
  keeps : ∀ f, fldAt f < 131072 → (∀ g ∈ ownRegs r, fldAt g ≠ fldAt f) → getR e pgRings f = getR d pgRings f

namespace RingKeeps

variable {r : Nat} {d e c : Dev}

theorem of_regs (d e : Dev) (h : e.regs = d.regs := by rfl) : RingKeeps r d e := ⟨fun f _ _ => getR_congr h pgRings f⟩

theorem trans (h : RingKeeps r d e) (g : RingKeeps r e c) : RingKeeps r d c :=
  ⟨fun f hf hg => (g.keeps f hf hg).trans (h.keeps f hf hg)⟩

theorem of_setR_own (d : Dev) {g : Fld} (v : Nat) (hg : g ∈ ownRegs r) : RingKeeps r d (setR d pgRings g v) :=
  ⟨fun _ _ hf => getR_setR_ne d v (key_ne_fld _ (hf g hg))⟩

theorem of_addC_own (d : Dev) {g : Fld} (v : Nat) (hg : g ∈ ownRegs r) : RingKeeps r d (addC d pgRings g v) := by
  rw [addC_eq]; exact of_setR_own d _ hg

/-- A later page lies above page RINGS, whatever the field. -/
theorem of_addC_above (d : Dev) {p : Nat} (g : Fld) (v : Nat) (hp : pgRings < p) : RingKeeps r d (addC d p g v) := by
  rw [addC_eq]
  exact ⟨fun f hf _ => getR_setR_ne d _ (by rw [key_eq, key_eq]; unfold pgRings at *; omega)⟩

/-- Written bytes count on the link's own page. -/
theorem of_hostWrite (d : Dev) (a : Nat) (l : List Nat) : RingKeeps r d (hostWrite d a l) := by
  have hcount : RingKeeps r d (addC d pgPcie F.PCIE_WR_BYTES l.length) := by
    rw [addC_eq]
    exact ⟨fun f hf _ => getR_setR_ne d _ (key_ne_page (by decide) (by decide) hf)⟩
  exact hcount.trans (.of_regs _ _)

end RingKeeps

section
variable {d : Dev} {r : Nat} {h : Held}

theorem mem_ownRegs : F.RINGS_OFF_ITEMS ∈ ownRegs r ∧ F.RINGS_DROPS r ∈ ownRegs r ∧ F.RINGS_WR r ∈ ownRegs r ∧
    F.RINGS_ITEMS r ∈ ownRegs r := by simp [ownRegs]

theorem setRing_ringKeeps (d : Dev) (q : Nat) (x : RingSt) : RingKeeps r d (setRing d q x) := .of_regs _ _

theorem dropItem_ringKeeps (cause : Nat) (hi : h.item.shelves = 0) : RingKeeps r d (dropItem d r h cause) := by
  have hdrop : RingKeeps r d (bump d pgRings (F.RINGS_DROPS r)) := .of_addC_own d _ mem_ownRegs.2.1
  unfold dropItem
  dsimp only
  rw [freeItem_none _ hi]
  refine .trans ?_ (setRing_ringKeeps _ _ _)
  split
  · exact hdrop.trans (.of_regs _ _)
  · exact hdrop

theorem ringPad_ringKeeps (i : Item) : RingKeeps r d (ringPad d r i) := by
  unfold ringPad
  dsimp only
  split
  · exact ((RingKeeps.of_hostWrite d _ _).trans (.of_setR_own _ _ mem_ownRegs.2.2.1)).trans (.of_hostWrite _ _ _)
  · exact .of_regs _ _

theorem ringWrite_ringKeeps (hi : h.item.shelves = 0) : RingKeeps r d (ringWrite d r h) := by
  unfold ringWrite
  dsimp only
  rw [freeItem_none _ hi]
  refine .trans (.trans ?_ (setRing_ringKeeps _ _ _)) (.of_addC_own _ _ mem_ownRegs.2.2.2)
  exact ((RingKeeps.of_hostWrite d _ _).trans (.of_setR_own _ _ mem_ownRegs.2.2.1)).trans (.of_hostWrite _ _ _)

theorem flowSend_ringKeeps (f : Nat) (hi : h.item.shelves = 0) : RingKeeps r d (flowSend d r f h) := by
  have heth (e : Nat) : pgRings < pgEth e := by unfold pgEth pgRings; omega
  have hcounted (o : List Output) (p e n w : Nat) : RingKeeps r d (addC (addC (addC { d with out := o } (pgEth e)
      F.ETH_TX_PKTS n) (pgEth e) F.ETH_TX_BYTES w) pgFlows (F.FLOWS_PKTS f) p) :=
    (((RingKeeps.of_regs d _).trans (.of_addC_above _ _ _ (heth e))).trans (.of_addC_above _ _ _ (heth e))).trans
      (.of_addC_above _ _ _ (by decide))
  unfold flowSend
  dsimp only
  rw [freeItem_none _ hi]
  refine .trans (.trans ?_ (setRing_ringKeeps _ _ _)) (.of_addC_own _ _ mem_ownRegs.2.2.2)
  split
  · exact hcounted ..
  · exact (hcounted ..).trans (.of_regs _ _)

theorem tryDeliver_ringKeeps (hi : h.item.shelves = 0) : RingKeeps r d (tryDeliver d r h).2 := by
  unfold tryDeliver
  split
  · exact dropItem_ringKeeps _ hi
  · split
    · dsimp only
      split
      · exact (ringPad_ringKeeps h.item).trans (ringWrite_ringKeeps hi)
      · exact ringPad_ringKeeps h.item
    · dsimp only
      split
      · exact flowSend_ringKeeps _ hi
      · exact .of_regs _ _

/-- Bytes offered to ring 29, which is the ring of its own source. -/
theorem offerBytes_ringKeeps (d : Dev) (bytes : List Nat) : RingKeeps 29 d (offerBytes d 29 bytes) := by
  unfold offerBytes offer
  rw [show ringOf d 29 = some 29 from rfl]
  dsimp only
  split
  · rw [freeItem_none _ rfl]; exact .of_addC_own d _ mem_ownRegs.1
  · split
    · refine (setRing_ringKeeps d 29 { ringSt d 29 with seq := ((ringSt d 29).seq + 1) % 2 ^ 32 }).trans ?_
      have hsent := tryDeliver_ringKeeps (r := 29) (h := ⟨⟨29, bytes, none, 0, 0, 0⟩, (ringSt d 29).seq, d.ticks⟩)
        (d := setRing d 29 { ringSt d 29 with seq := ((ringSt d 29).seq + 1) % 2 ^ 32 }) rfl
      generalize tryDeliver _ 29 _ = q at hsent
      obtain ⟨done, e⟩ := q
      cases done
      · exact hsent.trans (setRing_ringKeeps _ _ _)
      · exact hsent
    · exact (setRing_ringKeeps _ _ _).trans (setRing_ringKeeps _ _ _)

end

end Sys2Proof.Machine

end

section
set_option Elab.async false
/-! PROOFS. Command entries (R414, R415): the end of a command, the datagram, the entry taken, and the operations access by
access. -/

namespace Sys2Proof.Machine

open Sys2Proof

/-! ### The end of a command -/

/-- A command that ends with status `st` is counted. -/
def cmdCounted (st : Nat) (d : Dev) : Dev :=
  onlyIf (st != 0) (fun d => raise (bump d pgRings F.RINGS_CMD_ERRORS) pgRings 10) (bump d pgRings F.RINGS_CMD_EXEC)

/-- No command is in progress. -/
def cmdCleared (d : Dev) : Dev :=
  { d with cmd := { d.cmd with cur := none, waitSince := none, words := [], status := 0, old := none, away := false } }

/-- The head of ring 28 moves on by one entry, where the ring is the host's. -/
def cmdHead (d : Dev) : Dev :=
  if ringBind d 28 = 1 then
    let head := (getR d pgRings (F.RINGS_WR 28) + 32) % ringSize d 28
    let d := setR d pgRings (F.RINGS_WR 28) head
    onlyIf (hostUp d) (fun d => writeBack d 28 head) d
  else d

theorem addC_cmd (d : Dev) (p : Nat) (f : Fld) (n : Nat) : (addC d p f n).cmd = d.cmd := by rw [addC_eq]; rfl

section
variable (d : Dev) (e : CmdEntry) (st : Nat) (ws : List Nat)

theorem cmdFinish_eq : cmdFinish d e st ws = cmdHead (cmdCleared (cmdCounted st (offerBytes d 29 (completion e st ws)))) := rfl

theorem offerBytes_cmd (r : Nat) (l : List Nat) : (offerBytes d r l).cmd = d.cmd := by
  obtain ⟨_, _, _, _, _, h⟩ := (offerBytes_ringMoves d r l).frame
  rw [h]

theorem cmdCounted_cmd : (cmdCounted st d).cmd = d.cmd := by
  unfold cmdCounted onlyIf; split <;> simp [bump, addC_cmd]

theorem cmdHead_cmd : (cmdHead d).cmd = d.cmd := by
  unfold cmdHead; split
  · simp only [onlyIf]; split <;> simp [writeBack, hostWrite, addC_cmd]
  · rfl

theorem cmdHead_evt : (cmdHead d).evt = d.evt := by
  unfold cmdHead; split
  · simp only [onlyIf]; split <;> simp [writeBack, hostWrite]
  · rfl

theorem getR_writeBack (r v : Nat) {f : Fld} (hf : fldAt f < 131072) :
    getR (writeBack d r v) pgRings f = getR d pgRings f := by
  have hpage : key pgPcie F.PCIE_WR_BYTES ≠ key pgRings f := key_ne_page (by decide) (by decide) hf
  simp only [writeBack, hostWrite, addC_eq]
  exact getR_setR_ne d _ hpage

theorem cmdHead_getR {f : Fld} (hf : fldAt f < 131072) (hw : fldAt (F.RINGS_WR 28) ≠ fldAt f) :
    getR (cmdHead d) pgRings f = getR d pgRings f := by
  unfold cmdHead; split
  · simp only [onlyIf]
    split
    · rw [getR_writeBack _ _ _ hf, getR_setR_fld _ _ _ hw]
    · exact getR_setR_fld _ _ _ hw
  · rfl

/-- The head fits its field: a buffer has at most 2^30 bytes. -/
theorem cmdHead_wr (hb : ringBind d 28 = 1) :
    getR (cmdHead d) pgRings (F.RINGS_WR 28) = (getR d pgRings (F.RINGS_WR 28) + 32) % ringSize d 28 := by
  have hsize : ringSize d 28 ≤ 2 ^ 30 := Nat.pow_le_pow_right (by decide) (by unfold clampN; split_ifs <;> omega)
  have hfits (n : Nat) : n % ringSize d 28 % 2 ^ 30 = n % ringSize d 28 :=
    Nat.mod_eq_of_lt ((Nat.mod_lt _ (Nat.two_pow_pos _)).trans_le hsize)
  rw [cmdHead, if_pos hb]
  simp only [onlyIf]
  split
  · rw [getR_writeBack _ _ _ (by decide), getR_setR_self]; exact hfits _
  · rw [getR_setR_self]; exact hfits _

theorem cmdCounted_getR {f : Fld} (hx : fldAt F.RINGS_CMD_EXEC ≠ fldAt f) (he : fldAt F.RINGS_CMD_ERRORS ≠ fldAt f) :
    getR (cmdCounted st d) pgRings f = getR d pgRings f := by
  simp only [cmdCounted, onlyIf, bump]
  split <;> simp [getR_addC_fld, hx, he]

theorem cmdCounted_exec : getR (cmdCounted st d) pgRings F.RINGS_CMD_EXEC =
    min (getR d pgRings F.RINGS_CMD_EXEC + 1) (2 ^ 32 - 1) := by
  simp only [cmdCounted, onlyIf, bump]
  have hone := getR_addC_narrow d pgRings (f := F.RINGS_CMD_EXEC) 1 (by decide)
  split
  · rw [getR_raise, getR_addC_fld _ _ _ (by decide)]; exact hone
  · exact hone

/-- A command that fails counts as an error and shows it. -/
theorem cmdCounted_fails (h : st ≠ 0) : getR (cmdCounted st d) pgRings F.RINGS_CMD_ERRORS =
      min (getR d pgRings F.RINGS_CMD_ERRORS + 1) (2 ^ 32 - 1) ∧ (evtRaw (cmdCounted st d) pgRings).testBit 10 = true := by
  have hne : (st != 0) = true := by simpa using h
  simp only [cmdCounted, onlyIf, bump, hne, if_true]
  refine ⟨?_, raise_bit _ _ _⟩
  rw [getR_raise, getR_addC_narrow _ _ _ (by decide), getR_addC_fld _ _ _ (by decide)]; rfl

theorem cmdFinish_cmd : (cmdFinish d e st ws).cmd =
    { d.cmd with cur := none, waitSince := none, words := [], status := 0, old := none, away := false } := by
  simp [cmdFinish_eq, cmdHead_cmd, cmdCleared, cmdCounted_cmd, offerBytes_cmd]

theorem cmdFinish_exec : getR (cmdFinish d e st ws) pgRings F.RINGS_CMD_EXEC =
    min (getR d pgRings F.RINGS_CMD_EXEC + 1) (2 ^ 32 - 1) := by
  rw [cmdFinish_eq, cmdHead_getR _ (by decide) (by decide)]
  refine (cmdCounted_exec _ _).trans ?_
  rw [(offerBytes_ringKeeps d _).keeps _ (by decide) (by decide)]

/-- A command that fails: no command in progress, and both counts and the event show it. -/
theorem cmdFinish_fails (h : st ≠ 0) : (cmdFinish d e st ws).cmd.cur = none ∧
    (∀ f ∈ [F.RINGS_CMD_EXEC, F.RINGS_CMD_ERRORS],
      getR (cmdFinish d e st ws) pgRings f = min (getR d pgRings f + 1) (2 ^ 32 - 1)) ∧
    (evtRaw (cmdFinish d e st ws) pgRings).testBit 10 = true := by
  obtain ⟨herrors, hevt⟩ := cmdCounted_fails (offerBytes d 29 (completion e st ws)) st h
  refine ⟨by rw [cmdFinish_cmd], ?_, ?_⟩
  · simp only [List.mem_cons, List.not_mem_nil, or_false, forall_eq_or_imp, forall_eq]
    refine ⟨cmdFinish_exec .., ?_⟩
    rw [cmdFinish_eq, cmdHead_getR _ (by decide) (by decide)]
    refine herrors.trans ?_
    rw [(offerBytes_ringKeeps d _).keeps _ (by decide) (by decide)]
  · rw [cmdFinish_eq, evtRaw, cmdHead_evt]; exact hevt

theorem ringBind_congr {a b : Dev} {r : Nat} (h : getR a pgRings (F.RINGS_BIND r) = getR b pgRings (F.RINGS_BIND r)) :
    ringBind a r = ringBind b r := by simp only [ringBind, h]

/-- On the host's ring the head moves on by the entry. -/
theorem cmdFinish_wr (hb : ringBind d 28 = 1) : getR (cmdFinish d e st ws) pgRings (F.RINGS_WR 28) =
    (getR d pgRings (F.RINGS_WR 28) + 32) % ringSize d 28 := by
  have hkept {f : Fld} (hf : fldAt f < 131072) (hg : ∀ g ∈ ownRegs 29, fldAt g ≠ fldAt f)
      (hx : fldAt F.RINGS_CMD_EXEC ≠ fldAt f) (he : fldAt F.RINGS_CMD_ERRORS ≠ fldAt f) :
      getR (cmdCleared (cmdCounted st (offerBytes d 29 (completion e st ws)))) pgRings f = getR d pgRings f :=
    (cmdCounted_getR _ _ hx he).trans ((offerBytes_ringKeeps d _).keeps f hf hg)
  rw [cmdFinish_eq, cmdHead_wr _ ((ringBind_congr (hkept (by decide) (by decide) (by decide) (by decide))).trans hb),
    hkept (by decide) (by decide) (by decide) (by decide)]
  unfold ringSize
  rw [hkept (by decide) (by decide) (by decide) (by decide)]

end

/-! ### One access of the command in progress (R415) -/

/-- The device with another command in progress. -/
def withCmd (d : Dev) (c : CmdSt) : Dev := { d with cmd := c }

section
variable {d d' d'' : Dev} {e : CmdEntry} {k a v : Nat} {w : Bool}

/-- The access is on its way to another package. -/
theorem cmdRun_away (hc : d.cmd.cur = some e) (hn : nextAccess e d.cmd = (a, w, v)) (hb : busAccess d 1 a w 4 v = (none, d')) :
    cmdRun (k + 1) d = { d' with cmd := { d'.cmd with away := true } } := by simp [cmdRun, hc, hn, hb]

/-- The access ends the command, or the command waits. -/
theorem cmdRun_last {r : Nat × Nat} (hc : d.cmd.cur = some e) (hn : nextAccess e d.cmd = (a, w, v))
    (hb : busAccess d 1 a w 4 v = (some r, d')) (hk : d'.cmd.cur = some e) (hl : accessDone d' e r.1 r.2 = (false, d'')) :
    cmdRun (k + 1) d = d'' := by simp [cmdRun, hc, hn, hb, hk, hl]

/-- The command makes its next access at once. -/
theorem cmdRun_more {r : Nat × Nat} (hc : d.cmd.cur = some e) (hn : nextAccess e d.cmd = (a, w, v))
    (hb : busAccess d 1 a w 4 v = (some r, d')) (hk : d'.cmd.cur = some e) (hl : accessDone d' e r.1 r.2 = (true, d'')) :
    cmdRun (k + 1) d = cmdRun k d'' := by simp [cmdRun, hc, hn, hb, hk, hl]

/-- An access of a READ that is not its last adds its word. -/
theorem accessDone_read {st : Nat} (hop : e.op = 1) (hl : d.cmd.words.length + 1 < e.count) :
    accessDone d e st v = (true, withCmd d
      { d.cmd with words := d.cmd.words ++ [v], status := lowStatus d.cmd.status st, away := false }) := by
  have hmore : ¬e.count ≤ d.cmd.words.length + 1 := by omega
  simp [accessDone, hop, hmore, withCmd]

/-- The last access of a READ ends it. -/
theorem accessDone_read_last {st : Nat} (hop : e.op = 1) (hl : e.count = d.cmd.words.length + 1) :
    accessDone d e st v = (false, cmdFinish d e (lowStatus d.cmd.status st) (d.cmd.words ++ [v])) := by
  simp [accessDone, hop, hl]

/-- An access of a WAIT that finds the value sought ends it. -/
theorem accessDone_wait_found {st : Nat} (hop : e.op = 4) (hv : v &&& e.mask = e.data) :
    accessDone d e st v = (false, cmdFinish d e (lowStatus d.cmd.status st) [v]) := by simp [accessDone, hop, hv]

/-- An access of a WAIT whose time is over ends it with status 4. -/
theorem accessDone_wait_over {st since : Nat} (hop : e.op = 4) (hv : v &&& e.mask ≠ e.data) (hs : d.cmd.waitSince = some since)
    (ht : since + 100 * e.timeout ≤ d.ticks) :
    accessDone d e st v = (false, cmdFinish d e (lowStatus (lowStatus d.cmd.status st) 4) [v]) := by
  have hover : since + usT e.timeout ≤ d.ticks := by unfold usT; omega
  simp [accessDone, hop, hv, hs, hover]

/-- Any other access of a WAIT leaves it waiting. -/
theorem accessDone_wait_on {st since : Nat} (hop : e.op = 4) (hv : v &&& e.mask ≠ e.data) (hs : d.cmd.waitSince = some since)
    (ht : d.ticks < since + 100 * e.timeout) :
    accessDone d e st v = (false, { d with cmd := { d.cmd with status := lowStatus d.cmd.status st, away := false } }) := by
  have hon : ¬since + usT e.timeout ≤ d.ticks := by unfold usT; omega
  simp [accessDone, hop, hv, hs, hon]

end

/-! ### Operations that begin -/

/-- The command in progress is `e`, of operation `op`, and has made no access. -/
def CmdReady (c : CmdSt) (e : CmdEntry) (op : Nat) : Prop :=
  c.cur = some e ∧ e.op = op ∧ c.away = false ∧ c.words = [] ∧ c.waitSince = none

section
variable {d : Dev} {e : CmdEntry} {op : Nat} (t : Nat)

/-- A WAIT notes when it begins. -/
def waitBegun (d : Dev) : Dev := { d with cmd := { d.cmd with waitSince := some d.ticks, readAt := d.ticks } }

theorem doCmd_idle (h : ∀ e, ¬CmdReady d.cmd e op) : doCmd op t d = advance d t := by
  unfold doCmd
  dsimp only
  split
  · rfl
  · next e he =>
    refine if_pos ?_
    have hnot := h e
    simp only [CmdReady, show d.cmd.cur = some e from he, true_and, not_and_or] at hnot
    rcases hnot with h | h | h | h
    · exact .inl h
    · exact .inr (.inl (by simpa using h))
    · exact .inr (.inr (.inl (by simpa using h)))
    · exact .inr (.inr (.inr (by simpa [Option.isSome_iff_ne_none] using h)))

theorem doCmd_ready (h : CmdReady d.cmd e op) (hop : op ≠ 4) : doCmd op t d = cmdRun 64 (advance d t) := by
  obtain ⟨hc, ho, ha, hw, hs⟩ := h
  simp [doCmd, hc, ho, ha, hw, hs, hop]

theorem doCmd_wait (h : CmdReady d.cmd e 4) : doCmd 4 t d = cmdRun 64 (waitBegun (advance d t)) := by
  obtain ⟨hc, ho, ha, hw, hs⟩ := h
  simp [doCmd, hc, ho, ha, hw, hs, waitBegun]

end

/-! ### READ: word after word -/

/-- The values of the first `k` accesses. -/
def readWords (as : Nat → Nat × Nat) (k : Nat) : List Nat := (List.range k).map (fun i => (as i).2)

/-- The status after `k` accesses: the lowest other than 0. -/
def readStatus (c : CmdSt) (as : Nat → Nat × Nat) (k : Nat) : Nat :=
  (List.range k).foldl (fun q i => lowStatus q (as i).1) c.status

/-- The command in progress after `k` accesses of a READ. -/
def readCmd (c : CmdSt) (as : Nat → Nat × Nat) (k : Nat) : CmdSt :=
  if k = 0 then c else { c with words := readWords as k, status := readStatus c as k, away := false }

section
variable {c : CmdSt} {as : Nat → Nat × Nat} {e : CmdEntry}

theorem readWords_succ (k : Nat) : readWords as (k + 1) = readWords as k ++ [(as k).2] := by
  simp [readWords, List.range_succ]

theorem readStatus_succ (k : Nat) : readStatus c as (k + 1) = lowStatus (readStatus c as k) (as k).1 := by
  simp [readStatus, List.range_succ]

theorem readWords_length (k : Nat) : (readWords as k).length = k := by simp [readWords]

theorem readCmd_cur (k : Nat) : (readCmd c as k).cur = c.cur := by unfold readCmd; split <;> rfl

theorem readCmd_words (hw : c.words = []) (k : Nat) : (readCmd c as k).words = readWords as k := by
  unfold readCmd; split
  · next h => rw [h, hw]; rfl
  · rfl

theorem readCmd_status (k : Nat) : (readCmd c as k).status = readStatus c as k := by
  unfold readCmd; split
  · next h => rw [h]; rfl
  · rfl

theorem readCmd_succ (k : Nat) :
    { readCmd c as k with words := readWords as (k + 1), status := readStatus c as (k + 1), away := false } =
      readCmd c as (k + 1) := by
  rw [readCmd, readCmd, if_neg (Nat.succ_ne_zero k)]; split <;> rfl

/-- From its `k`-th access on a READ makes the `n + 1` that are left and ends. -/
theorem cmdRun_read {ds : Nat → Dev} (h : CmdReady c e 1)
    (hb : ∀ k < e.count, busAccess (withCmd (ds k) (readCmd c as k)) 1 (e.addr + 4 * k) false 4 0 = (some (as k), ds (k + 1)) ∧
      (ds (k + 1)).cmd = readCmd c as k) (m n k : Nat) (hk : k + n + 1 = e.count) :
    cmdRun (m + n + 1) (withCmd (ds k) (readCmd c as k)) =
      cmdFinish (ds e.count) e (readStatus c as e.count) (readWords as e.count) := by
  obtain ⟨hc, hop, -, hw, -⟩ := h
  have hnext (k : Nat) : nextAccess e (readCmd c as k) = (e.addr + 4 * k, false, 0) := by
    simp [nextAccess, hop, readCmd_words hw, readWords_length]
  induction n generalizing k with
  | zero =>
    obtain ⟨hbus, hcmd⟩ := hb k (by omega)
    have hlast : e.count = k + 1 := by omega
    rw [hlast, readStatus_succ, readWords_succ]
    refine cmdRun_last (e := e) ((readCmd_cur k).trans hc) (hnext k) hbus (by rw [hcmd, readCmd_cur, hc]) ?_
    rw [accessDone_read_last hop (by rw [hcmd, readCmd_words hw, readWords_length, hlast]), hcmd, readCmd_words hw,
      readCmd_status]
  | succ n ih =>
    obtain ⟨hbus, hcmd⟩ := hb k (by omega)
    rw [← ih (k + 1) (by omega)]
    refine cmdRun_more (e := e) ((readCmd_cur k).trans hc) (hnext k) hbus (by rw [hcmd, readCmd_cur, hc]) ?_
    rw [accessDone_read hop (by rw [hcmd, readCmd_words hw, readWords_length]; omega), hcmd, readCmd_words hw,
      readCmd_status, ← readWords_succ, ← readStatus_succ, readCmd_succ]

end

/-! ### A datagram (R414) -/

section
variable {d : Dev} {e : Nat}

/-- A frame received counts on its port's page alone, which lies between the pages of the rings and of the flows. -/
theorem getR_rxFrame_flows (he : e < 2) (f : Fld) : getR (bump d (pgEth e) F.ETH_RX_PKTS) pgFlows f = getR d pgFlows f := by
  have hkey : key (pgEth e) F.ETH_RX_PKTS ≠ key pgFlows f := by
    have hat : fldAt F.ETH_RX_PKTS < 131072 := by decide
    rw [key_eq, key_eq]; unfold pgEth pgFlows; omega
  rw [bump, addC_eq]; exact getR_setR_ne d _ hkey

theorem ringBind_rxFrame : ringBind (bump d (pgEth e) F.ETH_RX_PKTS) 28 = ringBind d 28 := by
  refine ringBind_congr ?_
  have hkey : key (pgEth e) F.ETH_RX_PKTS ≠ key pgRings (F.RINGS_BIND 28) :=
    key_ne_page (by unfold pgEth pgRings; omega) (by decide) (by decide)
  rw [bump, addC_eq]; exact getR_setR_ne d _ hkey

theorem subUp_rxFrame {n : Nat} (hn : n < 4) : subUp (bump d (pgEth e) F.ETH_RX_PKTS) e n = subUp d e n := by
  have hlink : fldAt F.ETH_RX_PKTS ≠ fldAt (F.ETH_LINK n) := by simp only [fldAt, F.ETH_RX_PKTS, F.ETH_LINK]; omega
  have hmac : fldAt F.ETH_RX_PKTS ≠ fldAt (F.ETH_MAC n) := by simp only [fldAt, F.ETH_RX_PKTS, F.ETH_MAC]; omega
  simp only [subUp, bump, getR_addC_fld _ _ _ hlink, getR_addC_fld _ _ _ hmac]

theorem cmdFlow_rxFrame (he : e < 2) (v6 : Bool) (src : List Nat) (sp f : Nat) :
    cmdFlow (bump d (pgEth e) F.ETH_RX_PKTS) v6 src sp f = cmdFlow d v6 src sp f := by
  simp only [cmdFlow, flagR, getR_rxFrame_flows he]

variable {n sp dp : Nat} {v6 : Bool} {src data : List Nat} (t : Nat)

theorem doCmdDatagram_other (he : e < 2) (hn : n < 4)
    (h : ¬(subUp d e n = true ∧ ringBind d 28 = 2 ∧ dp = getR d pgFlows F.FLOWS_CMD_PORT)) :
    doCmdDatagram t e n v6 src sp dp data d =
      bump (bump (advance d t) (pgEth e) F.ETH_RX_PKTS) (pgEth e) F.ETH_RX_IGNORED := by
  unfold doCmdDatagram rxFrame rxIgnore
  refine if_pos ?_
  rw [subUp_rxFrame hn, ringBind_rxFrame, getR_rxFrame_flows he]
  by_contra hnot
  have hall : (subUp (advance d t) e n = true ∧ ringBind (advance d t) 28 = 2) ∧ dp = getR d pgFlows F.FLOWS_CMD_PORT := by
    simpa using hnot
  exact h ⟨hall.1.1, hall.1.2, hall.2⟩

/-- The flow and the form that make a datagram's entries count. -/
def datagramGood (d : Dev) (v6 : Bool) (src : List Nat) (sp : Nat) (data : List Nat) : Prop :=
  (∃ f < 32, cmdFlow d v6 src sp f = true) ∧ data.length % 32 = 0 ∧ 32 ≤ data.length ∧ data.length ≤ 2048

theorem doCmdDatagram_mine (he : e < 2) (hn : n < 4)
    (h : subUp d e n = true ∧ ringBind d 28 = 2 ∧ dp = getR d pgFlows F.FLOWS_CMD_PORT) :
    (¬datagramGood d v6 src sp data → doCmdDatagram t e n v6 src sp dp data d =
      raise (bump (bump (advance d t) (pgEth e) F.ETH_RX_PKTS) pgFlows F.FLOWS_CMD_REJECTS) pgFlows 8) ∧
    (datagramGood d v6 src sp data → 256 < d.cmd.queue.length + data.length / 32 → doCmdDatagram t e n v6 src sp dp data d =
      raise (bump (bump (advance d t) (pgEth e) F.ETH_RX_PKTS) pgFlows F.FLOWS_CMD_DROPS) pgFlows 9) ∧
    (datagramGood d v6 src sp data → d.cmd.queue.length + data.length / 32 ≤ 256 → doCmdDatagram t e n v6 src sp dp data d =
      { bump (bump (advance d t) (pgEth e) F.ETH_RX_PKTS) pgFlows F.FLOWS_CMD_RX with
        cmd := { d.cmd with queue := d.cmd.queue ++ entriesOf data } }) := by
  obtain ⟨hup, hbind, rfl⟩ := h
  have hmine : ¬(!subUp (bump (advance d t) (pgEth e) F.ETH_RX_PKTS) e n || ringBind (bump (advance d t) (pgEth e)
      F.ETH_RX_PKTS) 28 != 2 || getR d pgFlows F.FLOWS_CMD_PORT != getR (bump (advance d t) (pgEth e) F.ETH_RX_PKTS) pgFlows
      F.FLOWS_CMD_PORT) = true := by
    rw [subUp_rxFrame hn, ringBind_rxFrame, getR_rxFrame_flows he]
    simp [show subUp (advance d t) e n = subUp d e n from rfl, show ringBind (advance d t) 28 = ringBind d 28 from rfl, hup,
      hbind]
  have hgood : ((!((List.range 32).any (cmdFlow (bump (advance d t) (pgEth e) F.ETH_RX_PKTS) v6 src sp) &&
      (data.length % 32 == 0 && decide (32 ≤ data.length) && decide (data.length ≤ 64 * 32)))) = true) ↔
      ¬datagramGood d v6 src sp data := by
    rw [Bool.not_eq_true', ← Bool.not_eq_true]
    refine not_congr ?_
    simp [datagramGood, cmdFlow_rxFrame he, show cmdFlow (advance d t) = cmdFlow d from rfl, and_assoc]
  have hqueue : (bump (advance d t) (pgEth e) F.ETH_RX_PKTS).cmd = d.cmd := addC_cmd ..
  have hrx : (bump (bump (advance d t) (pgEth e) F.ETH_RX_PKTS) pgFlows F.FLOWS_CMD_RX).cmd = d.cmd :=
    (addC_cmd ..).trans hqueue
  unfold doCmdDatagram rxFrame
  refine ⟨fun hb => ?_, fun hg hk => ?_, fun hg hk => ?_⟩
  · exact (if_neg hmine).trans (if_pos (hgood.2 hb))
  · refine (if_neg hmine).trans ((if_neg (fun hx => hgood.1 hx hg)).trans (if_pos ?_))
    rw [hqueue]; exact hk
  · refine (if_neg hmine).trans ((if_neg (fun hx => hgood.1 hx hg)).trans ((if_neg ?_).trans ?_))
    · rw [hqueue]; omega
    · exact congrArg (fun c : CmdSt => { bump (bump (advance d t) (pgEth e) F.ETH_RX_PKTS) pgFlows F.FLOWS_CMD_RX with
        cmd := { c with queue := c.queue ++ entriesOf data } }) hrx

end

/-! ### An entry is taken (R414) -/

/-- The part can take an entry: no command in progress, ring 28 not stopped, ring 29 not full. -/
def CmdFree (d : Dev) : Prop :=
  d.cmd.cur = none ∧ ringStopped d 28 = false ∧ (flagR d pgRings (F.RINGS_MODE 29) = false ∨ (ringSt d 29).held = [])

/-- The entry `b` is the command in progress. -/
def entryTaken (b : List Nat) (d : Dev) : Dev :=
  { d with cmd := { d.cmd with cur := some (entryOf b), words := [], status := 0, old := none, waitSince := none } }

/-- The entry `b` is taken; one of a wrong form ends at once. -/
def takeEntry (b : List Nat) (d : Dev) : Dev :=
  if entryGood b then entryTaken b d
  else cmdFinish (entryTaken b d) (entryOf b) 1 (List.replicate (opWords (entryOf b).op (entryOf b).count) 0)

section
variable {d : Dev} {b : List Nat} (t : Nat)

theorem cmdFree_iff : (d.cmd.cur.isSome = true ∨ (flagR d pgRings (F.RINGS_MODE 29) && !(ringSt d 29).held.isEmpty) = true ∨
    ringStopped d 28 = true) ↔ ¬CmdFree d := by
  unfold CmdFree
  cases d.cmd.cur <;> cases ringStopped d 28 <;> cases flagR d pgRings (F.RINGS_MODE 29) <;> simp

theorem doCmdFetch_busy (h : ¬CmdFree d) : doCmdFetch t b d = advance d t := if_pos (cmdFree_iff.2 h)

theorem doCmdFetch_off (h : ringBind d 28 = 0) : doCmdFetch t b d = advance d t := by
  by_cases hf : CmdFree d
  · refine (if_neg (fun hx => cmdFree_iff.1 hx hf)).trans ?_
    simp [show ringBind (advance d t) 28 = 0 from h]
  · exact doCmdFetch_busy t hf

theorem doCmdFetch_flow (hf : CmdFree d) (h : ringBind d 28 = 2) : doCmdFetch t b d =
    match d.cmd.queue with
    | [] => advance d t
    | b :: r => takeEntry b { advance d t with cmd := { d.cmd with queue := r } } := by
  refine (if_neg (fun hx => cmdFree_iff.1 hx hf)).trans ?_
  simp only [show ringBind (advance d t) 28 = 2 from h]
  rfl

theorem doCmdFetch_host (hf : CmdFree d) (h : ringBind d 28 = 1) : doCmdFetch t b d =
    if hostUp d && getR d pgRings (F.RINGS_WR 28) != getR d pgRings (F.RINGS_RD 28) % ringSize d 28 then
      takeEntry (padTo 32 (b.map (· % 256))) (addC (advance d t) pgPcie F.PCIE_RD_BYTES 32)
    else advance d t := by
  refine (if_neg (fun hx => cmdFree_iff.1 hx hf)).trans ?_
  simp only [show ringBind (advance d t) 28 = 1 from h]
  rfl

/-- 32 bytes are the entry as it stands. -/
theorem padTo_entry (hl : b.length = 32) (hb : ∀ x ∈ b, x < 256) : padTo 32 (b.map (· % 256)) = b := by
  have hmap : b.map (· % 256) = b := (List.map_congr_left fun x hx => Nat.mod_eq_of_lt (hb x hx)).trans (List.map_id _)
  rw [hmap, padTo, List.take_append_of_le_length (by omega), List.take_of_length_le (by omega)]

theorem takeEntry_good (h : entryGood b = true) : takeEntry b d = entryTaken b d := if_pos h

/-- An entry of a wrong form fails at once. -/
theorem takeEntry_bad (h : entryGood b = false) : (takeEntry b d).cmd.cur = none ∧ (takeEntry b d).cmd.queue = d.cmd.queue ∧
    (∀ f ∈ [F.RINGS_CMD_EXEC, F.RINGS_CMD_ERRORS], getR (takeEntry b d) pgRings f = min (getR d pgRings f + 1) (2 ^ 32 - 1)) ∧
    (evtRaw (takeEntry b d) pgRings).testBit 10 = true ∧
    (ringBind d 28 = 1 → getR (takeEntry b d) pgRings (F.RINGS_WR 28) =
      (getR d pgRings (F.RINGS_WR 28) + 32) % ringSize d 28) := by
  obtain ⟨hcur, hcounts, hevt⟩ := cmdFinish_fails (entryTaken b d) (entryOf b) 1
    (List.replicate (opWords (entryOf b).op (entryOf b).count) 0) (by decide)
  rw [takeEntry, if_neg (by simp [h])]
  exact ⟨hcur, by rw [cmdFinish_cmd]; rfl, hcounts, hevt, cmdFinish_wr (entryTaken b d) _ _ _⟩

end

/-! ### The commands -/

section
variable {s : State} (t : Nat)

theorem gives_cmdDatagram {e n sp dp : Nat} (v6 : Bool) (src data : List Nat) (he : e < 2) (hn : n < 4) (hsp : sp < 65536)
    (hdp : dp < 65536) (hs : Awake s) :
    Gives (.cmdDatagram t e n v6 src sp dp data) s (doCmdDatagram t e n v6 src sp dp data s.dev) :=
  gives_of_act rfl (by simp [he, hn, hsp, hdp]) hs

theorem gives_cmdEntryFetch (b : List Nat) (hs : Awake s) : Gives (.cmdEntryFetch t b) s (doCmdFetch t b s.dev) :=
  gives_of_act rfl rfl hs

theorem gives_cmdRead (hs : Awake s) : Gives (.cmdRead t) s (doCmd 1 t s.dev) := gives_of_act rfl rfl hs
theorem gives_cmdWrite (hs : Awake s) : Gives (.cmdWrite t) s (doCmd 2 t s.dev) := gives_of_act rfl rfl hs
theorem gives_cmdModify (hs : Awake s) : Gives (.cmdModify t) s (doCmd 3 t s.dev) := gives_of_act rfl rfl hs
theorem gives_cmdWait (hs : Awake s) : Gives (.cmdWait t) s (doCmd 4 t s.dev) := gives_of_act rfl rfl hs

theorem gives_cmdWaitPoll (hs : Awake s) : Gives (.cmdWaitPoll t) s (doCmdPoll t s.dev) := gives_of_act rfl rfl hs

/-- The four operations, each with its command. -/
theorem gives_op {i : Nat × Instr} (hs : Awake s)
    (hi : i ∈ [(1, Instr.cmdRead t), (2, .cmdWrite t), (3, .cmdModify t), (4, .cmdWait t)]) :
    Gives i.2 s (doCmd i.1 t s.dev) := by
  simp only [List.mem_cons, List.not_mem_nil, or_false] at hi
  obtain rfl | rfl | rfl | rfl := hi
  · exact gives_cmdRead t hs
  · exact gives_cmdWrite t hs
  · exact gives_cmdModify t hs
  · exact gives_cmdWait t hs

end

/-! ### What one access, or two, make of the device -/

section
variable {d d' d'' : Dev} {e : CmdEntry} (t : Nat)

/-- The first access of READ, WRITE and MODIFY. -/
theorem nextAccess_first {c : CmdSt} {op : Nat} (h : CmdReady c e op) (hlo : 1 ≤ op) (hop : op < 4) (hold : op = 3 → c.old = none) :
    nextAccess e c = (e.addr, decide (op = 2), if op = 2 then e.data else 0) := by
  obtain ⟨-, ho, -, hw, -⟩ := h
  interval_cases op
  · simp [nextAccess, ho, hw]
  · simp [nextAccess, ho]
  · simp [nextAccess, ho, hold rfl]

theorem doCmd_away {op : Nat} (h : CmdReady d.cmd e op) (hlo : 1 ≤ op) (hop : op < 4) (hold : op = 3 → d.cmd.old = none)
    (hb : busAccess (advance d t) 1 e.addr (decide (op = 2)) 4 (if op = 2 then e.data else 0) = (none, d')) :
    doCmd op t d = { d' with cmd := { d'.cmd with away := true } } := by
  rw [doCmd_ready t h (by omega)]
  exact cmdRun_away h.1 (nextAccess_first h hlo hop hold) hb

theorem doCmd_read {as : Nat → Nat × Nat} {ds : Nat → Dev} (h : CmdReady d.cmd e 1) (h1 : 1 ≤ e.count) (h64 : e.count ≤ 64)
    (h0 : ds 0 = advance d t)
    (hb : ∀ k < e.count, busAccess (withCmd (ds k) (readCmd d.cmd as k)) 1 (e.addr + 4 * k) false 4 0 = (some (as k), ds (k + 1)) ∧
      (ds (k + 1)).cmd = readCmd d.cmd as k) :
    doCmd 1 t d = cmdFinish (ds e.count) e (readStatus d.cmd as e.count) (readWords as e.count) := by
  have hrun := cmdRun_read h hb (64 - e.count) (e.count - 1) 0 (by omega)
  rw [show 64 - e.count + (e.count - 1) + 1 = 64 by omega, h0] at hrun
  rw [doCmd_ready t h (by decide)]
  exact hrun

theorem doCmd_write {a : Nat × Nat} (h : CmdReady d.cmd e 2) (hb : busAccess (advance d t) 1 e.addr true 4 e.data = (some a, d'))
    (hc : d'.cmd = d.cmd) : doCmd 2 t d = cmdFinish d' e (lowStatus d.cmd.status a.1) [] := by
  rw [doCmd_ready t h (by decide)]
  refine cmdRun_last h.1 (nextAccess_first h (by decide) (by decide) (by simp)) hb (by rw [hc]; exact h.1) ?_
  simp [accessDone, h.2.1, hc]

theorem doCmd_modify {a a' : Nat × Nat} (h : CmdReady d.cmd e 3) (hold : d.cmd.old = none)
    (hb : busAccess (advance d t) 1 e.addr false 4 0 = (some a, d')) (hc : d'.cmd = d.cmd)
    (hb' : busAccess (withCmd d' { d.cmd with old := some a.2, status := lowStatus d.cmd.status a.1, away := false }) 1 e.addr
      true 4 (modified e a.2) = (some a', d''))
    (hc' : d''.cmd = { d.cmd with old := some a.2, status := lowStatus d.cmd.status a.1, away := false }) :
    doCmd 3 t d = cmdFinish d'' e (lowStatus (lowStatus d.cmd.status a.1) a'.1) [modified e a.2] := by
  obtain ⟨hcur, hop, -⟩ := id h
  rw [doCmd_ready t h (by decide)]
  have hnext : nextAccess e (advance d t).cmd = (e.addr, false, 0) :=
    nextAccess_first h (by decide) (by decide) fun _ => hold
  refine (cmdRun_more (k := 63) (d := advance d t)
    (d'' := withCmd d' { d.cmd with old := some a.2, status := lowStatus d.cmd.status a.1, away := false }) hcur hnext hb (by rw [hc]; exact hcur) ?_).trans
    (cmdRun_last (k := 62) (d := withCmd d' _) (e := e) hcur ?_ hb' (by rw [hc']; exact hcur) ?_)
  · simp [accessDone, hop, hc, hold, withCmd]
  · simp [nextAccess, hop, withCmd]
  · simp [accessDone, hop, hc']

/-- One read of a WAIT: what it finds decides. -/
theorem cmdRun_wait {a : Nat × Nat} {k since : Nat} (hcur : d.cmd.cur = some e) (hop : e.op = 4)
    (hb : busAccess d 1 e.addr false 4 0 = (some a, d')) (hc : d'.cmd = d.cmd) (ht : d'.ticks = d.ticks)
    (hs : d.cmd.waitSince = some since) :
    (a.2 &&& e.mask = e.data → cmdRun (k + 1) d = cmdFinish d' e (lowStatus d.cmd.status a.1) [a.2]) ∧
    (a.2 &&& e.mask ≠ e.data → since + 100 * e.timeout ≤ d.ticks →
      cmdRun (k + 1) d = cmdFinish d' e (lowStatus (lowStatus d.cmd.status a.1) 4) [a.2]) ∧
    (a.2 &&& e.mask ≠ e.data → d.ticks < since + 100 * e.timeout →
      cmdRun (k + 1) d = { d' with cmd := { d.cmd with status := lowStatus d.cmd.status a.1, away := false } }) := by
  have hnext : nextAccess e d.cmd = (e.addr, false, 0) := by simp [nextAccess, hop]
  have hkept : d'.cmd.cur = some e := by rw [hc]; exact hcur
  have hsince : d'.cmd.waitSince = some since := by rw [hc]; exact hs
  refine ⟨fun hv => ?_, fun hv hover => ?_, fun hv hon => ?_⟩
  · exact cmdRun_last hcur hnext hb hkept (by rw [accessDone_wait_found hop hv, hc])
  · exact cmdRun_last hcur hnext hb hkept (by rw [accessDone_wait_over hop hv hsince (by omega), hc])
  · exact cmdRun_last hcur hnext hb hkept (by rw [accessDone_wait_on hop hv hsince (by omega), hc])

theorem doCmdPoll_idle (h : d.cmd.cur = none ∨ d.cmd.waitSince = none ∨ d.cmd.away = true) : doCmdPoll t d = advance d t := by
  unfold doCmdPoll
  split
  · next e since hc hw => exact if_pos (by simpa [hc, hw] using h)
  · rfl

theorem doCmdPoll_wait {since : Nat} (hc : d.cmd.cur = some e) (hw : d.cmd.waitSince = some since) (ha : d.cmd.away = false) :
    doCmdPoll t d = cmdRun 1 (withCmd (advance d (max t (d.cmd.readAt + 100)))
      { d.cmd with readAt := max d.ticks (max t (d.cmd.readAt + 100)) }) := by
  unfold doCmdPoll
  split
  · exact if_neg (by simp [ha])
  · next hnone => exact absurd hw (hnone e since hc)

end

end Sys2Proof.Machine

open Sys2Proof Sys2Proof.Machine

/-- Settles O55: each operation access by access; READ by induction over the words that are left. -/
theorem commandsRunInOrder : Obligations.CommandsRunInOrder := by
  unfold Obligations.CommandsRunInOrder
  intro s t hs c d0 p free fails ready ops first poll
  have hready (e : CmdEntry) (op : Nat) : ready e op ↔ CmdReady c e op := Iff.rfl
  refine ⟨?_, ?_, ?_, ?_, ?_, ?_, ?_, ?_, ?_, ?_, ?_, ?_, ?_, ?_, ?_⟩
  · intro e n v6 src sp dp data he hn hsp hdp rx mine good k cmd
    have hgives := gives_cmdDatagram t v6 src data he hn hsp hdp hs
    refine ⟨fun hm => hgives.of_eq (doCmdDatagram_other t he hn hm), fun hm => ?_, fun hm => ?_, fun hm => ?_⟩
    · exact fun hg => hgives.of_eq ((doCmdDatagram_mine t he hn hm).1 hg)
    · exact fun hg hk => hgives.of_eq ((doCmdDatagram_mine t he hn hm).2.1 hg hk)
    · exact fun hg hk => hgives.of_eq ((doCmdDatagram_mine t he hn hm).2.2 hg hk)
  · intro b h
    refine (gives_cmdEntryFetch t b hs).of_eq ?_
    by_cases hf : CmdFree s.dev
    · obtain h | h | ⟨hb, hq⟩ | ⟨hb, h⟩ := h
      · exact absurd hf h
      · exact doCmdFetch_off t h
      · rw [doCmdFetch_flow t hf hb, show s.dev.cmd.queue = [] from hq]
      · rw [doCmdFetch_host t hf hb]
        refine if_neg fun hx => ?_
        obtain ⟨hup, hne⟩ := (Bool.and_eq_true _ _).mp hx
        obtain h | h := h
        · exact absurd (h.symm.trans hup) (by decide)
        · exact absurd h (by simpa using hne)
    · exact doCmdFetch_busy t hf
  · intro a b r hf hb hq hg
    refine does_of_gives (gives_cmdEntryFetch t a hs) ?_
    rw [doCmdFetch_flow t hf hb, show s.dev.cmd.queue = b :: r from hq]
    simp only [takeEntry_good hg, settle_cmd, settle_regs, settle_evt]
    exact ⟨rfl, rfl, rfl, rfl, rfl⟩
  · intro a b r hf hb hq hg
    refine does_of_gives (gives_cmdEntryFetch t a hs) ?_
    rw [doCmdFetch_flow t hf hb, show s.dev.cmd.queue = b :: r from hq]
    obtain ⟨hcur, hqueue, hcounts, hevt, -⟩ := takeEntry_bad (d := { advance s.dev t with cmd := { s.dev.cmd with queue := r } }) hg
    simp only [fails, settle_cmd, getR_settle, evtRaw_settle]
    exact ⟨⟨hcur, hcounts, hevt⟩, hqueue⟩
  · intro b hf hb hup hl hbytes hne
    have htakes : doCmdFetch t b s.dev = takeEntry b (addC (advance s.dev t) pgPcie F.PCIE_RD_BYTES 32) := by
      rw [doCmdFetch_host t hf hb, if_pos (by simpa [hup] using hne), padTo_entry hl hbytes]
    have hregs : RegsBut [(pgPcie, F.PCIE_RD_BYTES)] (addC (advance s.dev t) pgPcie F.PCIE_RD_BYTES 32) s.dev := by
      rw [addC_eq]
      exact fun q f hf => getR_setR_ne (advance s.dev t) _ (hf (pgPcie, F.PCIE_RD_BYTES) (by simp))
    have hkept {f : Fld} (hf : fldAt f < 131072) :
        getR (addC (advance s.dev t) pgPcie F.PCIE_RD_BYTES 32) pgRings f = getR s.dev pgRings f :=
      hregs _ _ (by simpa using key_ne_page (by decide) (by decide) hf)
    refine ⟨fun hg => ?_, fun hg => ?_⟩
    · refine does_of_gives (gives_cmdEntryFetch t b hs) ?_
      rw [htakes, takeEntry_good hg]
      simp only [settle_cmd, getR_settle, regsBut_settle]
      exact ⟨rfl, getR_addC_wide _ _ _ (by decide), hregs⟩
    · refine does_of_gives (gives_cmdEntryFetch t b hs) ?_
      rw [htakes]
      obtain ⟨hcur, -, hcounts, hevt, hwr⟩ := takeEntry_bad (d := addC (advance s.dev t) pgPcie F.PCIE_RD_BYTES 32) hg
      simp only [fails, settle_cmd, getR_settle, evtRaw_settle]
      refine ⟨⟨hcur, fun f hf => ?_, hevt⟩, ?_⟩
      · rw [hcounts f hf]
        simp only [List.mem_cons, List.not_mem_nil, or_false] at hf
        obtain rfl | rfl := hf <;> rw [hkept (by decide)]
      · rw [hwr ((ringBind_congr (hkept (by decide))).trans hb), hkept (by decide)]
        unfold ringSize
        rw [hkept (by decide)]
  · intro i hi h
    exact (gives_op t hs hi).of_eq (doCmd_idle t h)
  · intro i hi e d hop hold h hb
    have hlo : 1 ≤ i.1 := by
      simp only [ops, List.mem_cons, List.not_mem_nil, or_false] at hi
      obtain rfl | rfl | rfl | rfl := hi <;> simp
    exact (gives_op t hs hi).of_eq (doCmd_away t h hlo hop (fun _ => hold) hb)
  · intro e ds as h h1 h64 h0 words status at_ hb
    exact (gives_cmdRead t hs).of_eq (doCmd_read t h h1 h64 h0 hb)
  · intro e d a h hb hc
    exact (gives_cmdWrite t hs).of_eq (doCmd_write t h hb hc)
  · intro e d a d' a' h hold hb hc c' hb' hc'
    exact (gives_cmdModify t hs).of_eq (doCmd_modify t h hold hb hc hb' hc')
  · intro e d a h hb hc ht htime
    obtain ⟨hfound, -, hon⟩ := cmdRun_wait (k := 63) (d := first) (since := d0.ticks) h.1 h.2.1 hb hc ht rfl
    refine ⟨fun hv => ?_, fun hv => ?_⟩
    · exact (gives_cmdWait t hs).of_eq ((doCmd_wait t h).trans (hfound hv))
    · exact (gives_cmdWait t hs).of_eq ((doCmd_wait t h).trans (hon hv (show d0.ticks < _ by omega)))
  · intro e d h hb
    exact (gives_cmdWait t hs).of_eq ((doCmd_wait t h).trans
      (cmdRun_away (d := first) h.1 (by simp [nextAccess, h.2.1]) hb))
  · intro h
    exact (gives_cmdWaitPoll t hs).of_eq (doCmdPoll_idle t h)
  · intro e since d a hc hw ha hop d1 hb hd ht st
    obtain ⟨hfound, hover, hon⟩ := cmdRun_wait (k := 0) (d := d1) (since := since) hc hop hb hd ht hw
    have hgives := (gives_cmdWaitPoll t hs).of_eq (doCmdPoll_wait t hc hw ha)
    exact ⟨fun hv => hgives.of_eq (hfound hv), fun hv h => hgives.of_eq (hover hv h), fun hv h => hgives.of_eq (hon hv h)⟩
  · exact fun d e st ws => ⟨by rw [cmdFinish_cmd], cmdFinish_exec ..⟩

end

section
set_option Elab.async false
/-! PROOFS. The time counter and what steers it (R300, R302–R304): what shows the time leaves the counter and the servo alone, and
a step and a label move the counter by what they say. -/

namespace Sys2Proof.Machine

open Sys2Proof

/-! ### What the displays of the time leave alone -/

/-- The time but for what its displays keep of their own. -/
def timeCore (x : TimeSt) : TimeSt :=
  { x with conds := [], unqual := false, quals := [], holdStart := 0, squelched := [], freqFrom := 0, freqAt := 0, freqGoal := 0 }

/-- From `d` to `e` memory, ticks and the time stay, no event of page TIME falls, and of page TIME only the fields `fs` move. -/
def TimeShows (fs : List Fld) (d e : Dev) : Prop :=
  e.mem = d.mem ∧ e.ticks = d.ticks ∧ timeCore e.time = timeCore d.time ∧
  (∀ b, (evtRaw d pgTime).testBit b = true → (evtRaw e pgTime).testBit b = true) ∧
  ∀ f, fldAt f < 131072 → (∀ g ∈ fs, fldAt g ≠ fldAt f) → getR e pgTime f = getR d pgTime f

namespace TimeShows

variable {fs : List Fld} {d e : Dev}

theorem refl (d : Dev) : TimeShows fs d d := ⟨rfl, rfl, rfl, fun _ h => h, fun _ _ _ => rfl⟩

theorem trans (a b c : Dev) (h : TimeShows fs a b) (g : TimeShows fs b c) : TimeShows fs a c := by
  obtain ⟨hm, ht, hx, hv, hf⟩ := h
  obtain ⟨gm, gt, gx, gv, gf⟩ := g
  exact ⟨gm.trans hm, gt.trans ht, gx.trans hx, fun b hb => gv b (hv b hb), fun f h1 h2 => (gf f h1 h2).trans (hf f h1 h2)⟩

theorem mono {gs : List Fld} (h : TimeShows fs d e) (hs : ∀ f ∈ fs, f ∈ gs) : TimeShows gs d e := by
  obtain ⟨hm, ht, hx, hv, hf⟩ := h
  exact ⟨hm, ht, hx, hv, fun f h1 h2 => hf f h1 fun g hg => h2 g (hs g hg)⟩

theorem mem (h : TimeShows fs d e) : e.mem = d.mem := h.1
theorem ticks (h : TimeShows fs d e) : e.ticks = d.ticks := h.2.1
theorem evt (h : TimeShows fs d e) {b : Nat} (hb : (evtRaw d pgTime).testBit b = true) : (evtRaw e pgTime).testBit b = true :=
  h.2.2.2.1 b hb

/-- What of the time no display keeps has its value. -/
theorem time (h : TimeShows fs d e) {α : Type} (g : TimeSt → α) (hg : ∀ x, g (timeCore x) = g x := by intro _; rfl) :
    g e.time = g d.time := (hg _).symm.trans ((congrArg g h.2.2.1).trans (hg _))

theorem getR_eq (h : TimeShows fs d e) {f : Fld} (hf : fldAt f < 131072) (hg : ∀ g ∈ fs, fldAt g ≠ fldAt f) :
    getR e pgTime f = getR d pgTime f := h.2.2.2.2 f hf hg

theorem flag_eq (h : TimeShows fs d e) {f : Fld} (hf : fldAt f < 131072) (hg : ∀ g ∈ fs, fldAt g ≠ fldAt f) :
    flagR e pgTime f = flagR d pgTime f := by simp only [flagR, h.getR_eq hf hg]

/-- A field of the list. -/
theorem show_ (h : TimeShows fs d e) {f : Fld} (v : Nat) (hf : f ∈ fs) : TimeShows fs d (setR e pgTime f v) := by
  obtain ⟨hm, ht, hx, hv, hr⟩ := h
  exact ⟨hm, ht, hx, hv, fun g h1 h2 => (getR_setR_ne e v (key_ne_fld _ (h2 f hf))).trans (hr g h1 h2)⟩

theorem count (h : TimeShows fs d e) {f : Fld} (n : Nat) (hf : f ∈ fs) : TimeShows fs d (addC e pgTime f n) := by
  rw [addC_eq]; exact h.show_ _ hf

/-- A field of a later page. -/
theorem later (h : TimeShows fs d e) {p : Nat} {f : Fld} (v : Nat) (hp : pgTime < p) : TimeShows fs d (setR e p f v) := by
  obtain ⟨hm, ht, hx, hv, hr⟩ := h
  refine ⟨hm, ht, hx, hv, fun g h1 h2 => (getR_setR_ne e v ?_).trans (hr g h1 h2)⟩
  rw [key_eq, key_eq]
  rw [pgTime] at hp ⊢
  omega

theorem laterCount (h : TimeShows fs d e) {p : Nat} {f : Fld} (n : Nat) (hp : pgTime < p) : TimeShows fs d (addC e p f n) := by
  rw [addC_eq]; exact h.later _ hp

theorem raise (h : TimeShows fs d e) (p b : Nat) : TimeShows fs d (raise e p b) := by
  obtain ⟨hm, ht, hx, hv, hr⟩ := h
  exact ⟨hm, ht, hx, fun i hi => raise_mono e p b pgTime i (hv i hi), hr⟩

theorem ite {a b : Dev} {c : Prop} [Decidable c] (ha : TimeShows fs d a) (hb : TimeShows fs d b) :
    TimeShows fs d (if c then a else b) := by split <;> assumption

theorem raiseOn (h : TimeShows fs d e) (p b : Nat) (was now : Bool) : TimeShows fs d (raiseOn e p b was now) :=
  .ite (h.raise p b) h

/-! The pages of lines. -/

theorem bankUp (h : TimeShows fs d e) (n s b : Nat) : TimeShows fs d (bankUp n s b e) := by
  unfold Machine.bankUp
  extract_lets f run load
  have hl : TimeShows fs d (onlyIf load (fun d => coefLoad d n s b) e) := .ite (a := coefLoad e n s b) h h
  exact hl.later _ (by unfold pgTime pgSlot lineBase; omega)

theorem pipeShow (h : TimeShows fs d e) (n s : Nat) : TimeShows fs d (pipeShow e n s) := by
  have hp : pgTime < pgSlot n s := by unfold pgTime pgSlot lineBase; omega
  unfold Machine.pipeShow Machine.bankShow
  extract_lets p e1 e2 e3
  have h3 : TimeShows fs d e3 := ((((h.later _ hp).later _ hp).later _ hp).bankUp n s 0).bankUp n s 1
  exact .ite (h3.later _ hp) (.ite (h3.later _ hp) h3)

theorem eligShow (h : TimeShows fs d e) (n : Nat) : TimeShows fs d (eligShow e n) := by
  unfold Machine.eligShow
  extract_lets was
  exact .ite (.ite h h) h

theorem lineShow (h : TimeShows fs d e) (n cause : Nat) : TimeShows fs d (lineShow e n cause) := by
  have hl : pgTime < pgLine n := by unfold pgTime pgLine lineBase; omega
  have hs : pgTime < pgStarter n := by unfold pgTime pgStarter lineBase; omega
  unfold Machine.lineShow
  extract_lets p was now e1 e2 e3
  have h1 : TimeShows fs d e1 := h.later _ hl
  have h2 : TimeShows fs d e2 := ((show TimeShows fs d (safeSpan e1 n was now) from h1).later _ hl).later _ hs
  have h3 : TimeShows fs d e3 := h2.raise p 12
  exact .ite h1 ((h3.eligShow n).trans _ _ _ (foldl_rel refl trans (fun a s _ => (refl a).pipeShow n s) _))

theorem lineUnsync (d : Dev) (n : Nat) : TimeShows fs d (lineUnsync d n) := by
  have hl : pgTime < pgLine n := by unfold pgTime pgLine lineBase; omega
  unfold Machine.lineUnsync
  extract_lets x e1 p e2
  have h2 : TimeShows fs d e2 := refl d
  exact .ite (refl d) ((((h2.later 1 hl).raise p 10).laterCount 1 hl).lineShow n 1)

theorem gridInvalid (h : TimeShows fs d e) : TimeShows fs d (gridInvalid e) :=
  h.trans _ _ _ (foldl_rel refl trans (fun a n _ => lineUnsync a n) e)

theorem gridValid (h : TimeShows fs d e) : TimeShows fs d (gridValid e) := by
  refine h.trans _ _ _ (foldl_rel refl trans (fun a n _ => ?_) e)
  extract_lets x
  exact .ite (show TimeShows fs a (setLine a n _) from refl a) (refl a)

/-! What follows the time. -/

theorem squelchNow (h : TimeShows fs d e) : TimeShows fs d (squelchNow e) := by
  unfold Machine.squelchNow
  extract_lets s
  have hs : TimeShows fs d { e with time := { e.time with squelched := e.time.squelched ++ s } } := h
  exact .ite h (.ite h (hs.raise pgPps 8))

theorem freqTo (h : TimeShows fs d e) (v : Int) : TimeShows fs d (freqTo e v) := by
  unfold Machine.freqTo
  extract_lets g
  exact .ite h h

theorem freqShow (h : TimeShows fs d e) : TimeShows fs d (freqShow e) := .ite (h.freqTo _) h

theorem qualShow (h : TimeShows fs d e) (hq : F.TIME_QUALIFIED ∈ fs) (hg : F.TIME_GRID_VALID ∈ fs) :
    TimeShows fs d (qualShow e) := by
  unfold Machine.qualShow
  extract_lets was now e1 t1 e2 t2 e3 e4
  have h1 : TimeShows fs d e1 := (h.show_ _ hq).show_ _ hg
  have h2 : TimeShows fs d e2 := .ite h1 h1
  clear_value e2
  have h4 : TimeShows fs d e4 := squelchNow (.ite h2 h2)
  clear_value e4
  exact .ite h4 (.ite (h4.raise pgTime 14).gridValid (h4.raise pgTime 14).gridInvalid)

theorem bkpStep (h : TimeShows fs d e) : TimeShows fs d (bkpStep e) :=
  .ite ((show TimeShows fs d { e with bkpBase := e.time.base } from h).later _ (by decide)) h

theorem ptpShow (h : TimeShows fs d e) (i : Nat) : TimeShows fs d (ptpShow e i) := by
  have hp : pgTime < pgPtp i := by unfold pgTime pgPtp; omega
  unfold Machine.ptpShow
  extract_lets p bad was e1 a e2
  have h1 : TimeShows fs d e1 := (h.later (b2n bad) hp).raiseOn p 9 was bad
  clear_value e1
  exact ((h1.later _ hp).later _ hp).later _ hp

end TimeShows

/-! ### TIME_STATE and OCXO_WARM (R300, R303) -/

/-- TIME_STATE goes to `now`, with its entry. -/
def stateShow (d : Dev) : Dev :=
  let was := timeState d
  let now := timeCode d
  if now = was then d
  else
    let d := ledgerNow (raise (setR d pgTime cSTATE now) pgTime 8) 0x0310 0xF (typeCode .time)
      ([was, now] ++ leBytes 4 (getR d pgTime F.TIME_PHASE_ERR))
    if now = 4 then
      setR { d with time := { d.time with holdStart := d.ticks } } pgTime F.TIME_HOLD_S 0
    else if was = 4 then setR d pgTime F.TIME_HOLD_S (holdSecs d)
    else d

/-- The fields of page TIME that show its state. -/
def stateFields : List Fld := [cSTATE, F.TIME_HOLD_S, F.TIME_QUALIFIED, F.TIME_GRID_VALID]

section
variable {d : Dev}

theorem timeShow_eq (d : Dev) : timeShow d = ptpShow (ptpShow (bkpStep (qualShow (freqShow (stateShow d)))) 0) 1 := rfl

theorem stateShow_shows (d : Dev) : TimeShows stateFields d (stateShow d) := by
  unfold stateShow
  extract_lets was now e
  have he : TimeShows stateFields d e :=
    (((TimeShows.refl d).show_ (f := cSTATE) now (by simp [stateFields])).raise pgTime 8)
  clear_value e
  have hheld : TimeShows stateFields d { e with time := { e.time with holdStart := e.ticks } } := he
  exact .ite (.refl d) (.ite (hheld.show_ _ (by simp [stateFields])) (.ite (he.show_ _ (by simp [stateFields])) he))

/-- What follows the state moves QUALIFIED and GRID_VALID alone. -/
theorem timeShow_follows (d : Dev) : TimeShows [F.TIME_QUALIFIED, F.TIME_GRID_VALID] (stateShow d) (timeShow d) := by
  rw [timeShow_eq]
  exact ((((TimeShows.refl _).freqShow.qualShow (by simp) (by simp)).bkpStep).ptpShow 0).ptpShow 1

theorem timeShow_shows (d : Dev) : TimeShows stateFields d (timeShow d) :=
  (stateShow_shows d).trans _ _ _ ((timeShow_follows d).mono (by simp [stateFields]))

theorem timeCode_le (d : Dev) : timeCode d ≤ 4 := by unfold timeCode; split_ifs <;> decide

/-- TIME_STATE is as its conditions say. -/
theorem timeState_timeShow (d : Dev) : timeState (timeShow d) = timeCode d := by
  have hfits : timeCode d % 2 ^ cSTATE.width = timeCode d := Nat.mod_eq_of_lt (Nat.lt_of_le_of_lt (timeCode_le d) (by decide))
  rw [timeState, (timeShow_follows d).getR_eq (by decide) (by decide)]
  simp only [stateShow]
  split
  · next h => exact h.symm
  · split
    · rw [getR_setR_fld _ _ _ (by decide)]
      exact (getR_setR_self d pgTime cSTATE _).trans hfits
    · split
      · rw [getR_setR_fld _ _ _ (by decide)]
        exact (getR_setR_self d pgTime cSTATE _).trans hfits
      · exact (getR_setR_self d pgTime cSTATE _).trans hfits

/-- OCXO_WARM goes to what its conditions say, with its event and its entry. -/
def warmState (d : Dev) : Dev :=
  let cs := warmConds d
  let now := cs.all id
  let cause := firstDiff d.time.conds cs
  let was := flagR d pgTime F.TIME_OCXO_WARM
  let d := { d with time := { d.time with conds := cs } }
  if now = was then d
  else
    let d := raise (setR d pgTime F.TIME_OCXO_WARM (b2n now)) pgTime (if now then 10 else 11)
    ledgerNow d 0x0312 0xF (typeCode .time) [b2n now, cause]

theorem warmShow_eq (d : Dev) : warmShow d = timeShow (warmState d) := rfl

theorem warmState_shows (d : Dev) : TimeShows [F.TIME_OCXO_WARM] d (warmState d) := by
  unfold warmState
  extract_lets cs now cause was x e1 e2
  have h1 : TimeShows [F.TIME_OCXO_WARM] d e1 := .refl d
  clear_value e1
  exact .ite h1 ((h1.show_ _ (by simp)).raise pgTime _)

theorem warmShow_shows (d : Dev) : TimeShows (F.TIME_OCXO_WARM :: stateFields) d (warmShow d) :=
  ((warmState_shows d).mono (by simp)).trans _ _ _ ((timeShow_shows _).mono fun _ h => List.mem_cons_of_mem _ h)

/-- OCXO_WARM is set where all its conditions hold. -/
theorem warm_warmShow (d : Dev) : flagR (warmShow d) pgTime F.TIME_OCXO_WARM = (warmConds d).all id := by
  rw [warmShow_eq, (timeShow_shows _).flag_eq (by decide) (by decide)]
  simp only [warmState]
  split
  · next h => exact h.symm
  · cases (warmConds d).all id <;> simp [flagR, b2n]; decide

/-- A loss of OCXO_WARM raises WARM_LOST. -/
theorem warmShow_lost (hwas : flagR d pgTime F.TIME_OCXO_WARM = true) (hnow : (warmConds d).all id = false) :
    (evtRaw (warmShow d) pgTime).testBit 11 = true := by
  refine (timeShow_shows (warmState d)).evt ?_
  simp only [warmState, hwas, hnow, Bool.false_eq_true, if_false]
  exact raise_bit _ _ _

/-- The state that follows OCXO_WARM. -/
theorem timeState_warmShow (d : Dev) : timeState (warmShow d) =
    if !d.time.isSet then 0 else if !flagR (warmShow d) pgTime F.TIME_OCXO_WARM then 1
      else if d.time.locked then 3 else if d.time.held then 4 else 2 := by
  rw [warmShow_eq, timeState_timeShow, timeCode, (timeShow_shows _).flag_eq (by decide) (by decide),
    (warmState_shows d).time TimeSt.isSet, (warmState_shows d).time TimeSt.locked, (warmState_shows d).time TimeSt.held]

end

/-! ### A step of the counter, and a label (R301, R302) -/

/-- The counter moved by `delta`, and the servo out of lock. -/
def timeStepped (d : Dev) (delta : Int) : TimeSt :=
  let base := d.time.base + delta
  let sec := -(-(base + 655360 * (d.ticks : Int)) / secU) - 1
  { d.time with base := base, secDone := sec, zdaDone := sec, msDone := (base + 655360 * (d.ticks : Int)) / msU,
                windowStart := none, locked := false, held := false, accRun := 0, rejects := [] }

namespace TimeShows

variable {fs : List Fld} {d e : Dev}

theorem latchTerm (h : TimeShows fs d e) (n k : Nat) (x : Int) : TimeShows fs d (latchTerm e n k x) := by
  unfold Machine.latchTerm
  extract_lets y
  split <;> exact h

theorem todSkip (h : TimeShows fs d e) (was : Int) : TimeShows fs d (todSkip e was) := by
  refine h.trans _ _ _ (foldl_rel refl trans (fun a n _ => ?_) e)
  extract_lets s last l
  refine .ite ?_ (refl a)
  unfold todSet
  extract_lets x
  refine latchTerm (show TimeShows fs a _ from ?_) n 29 _
  exact (show TimeShows fs a (if s = last then a else setHurdle a n { hurdle a n with todDone := l ++ [s] }) from
    .ite (refl a) (refl a))

theorem nextShow (h : TimeShows fs d e) (n : Nat) : TimeShows fs d (nextShow e n) := by
  have hl : pgTime < pgLine n := by unfold pgTime pgLine lineBase; omega
  unfold Machine.nextShow
  extract_lets p x put
  split
  · exact (((h.later _ hl).later _ hl).later _ hl).later _ hl
  · exact (((h.later _ hl).later _ hl).later _ hl).later _ hl

end TimeShows

/-- A step moves the counter by `delta`; of page TIME STEPS and HOLD_EXCEEDED alone. -/
theorem counterStep_shows (d : Dev) {delta : Int} (cause : Nat) (h : delta ≠ 0) :
    TimeShows [F.TIME_STEPS, F.TIME_HOLD_EXCEEDED] { d with time := timeStepped d delta } (counterStep d delta cause) := by
  unfold counterStep
  rw [if_neg h]
  extract_lets was x base sec ms y e1 e2 e3 e4 e5
  have h3 : TimeShows [F.TIME_STEPS, F.TIME_HOLD_EXCEEDED] e1 e3 := ((TimeShows.refl e1).count 1 (by simp)).raise pgTime 9
  have hun : TimeShows [F.TIME_STEPS, F.TIME_HOLD_EXCEEDED] { d with time := timeStepped d delta } (unlockServo e3) := by
    refine TimeShows.show_ ?_ 0 (by simp)
    obtain ⟨hm, ht, hx, hv, hf⟩ := h3
    exact ⟨hm, ht, congrArg (fun z : TimeSt => { z with locked := false, held := false, accRun := 0, rejects := [] }) hx, hv, hf⟩
  have h4 : TimeShows [F.TIME_STEPS, F.TIME_HOLD_EXCEEDED] { d with time := timeStepped d delta } e4 := (hun.todSkip was).gridInvalid
  clear_value e4
  have h5 : TimeShows [F.TIME_STEPS, F.TIME_HOLD_EXCEEDED] { d with time := timeStepped d delta } e5 :=
    .ite (h4.raise pgTime 14).gridValid h4
  exact h5.trans _ _ _ (foldl_rel TimeShows.refl TimeShows.trans (fun a n _ => (TimeShows.refl a).nextShow n) e5)

section
variable (d : Dev) (delta : Int) (cause : Nat)

theorem counterStep_zero : counterStep d 0 cause = d := if_pos rfl

theorem counterStep_mem : (counterStep d delta cause).mem = d.mem := by
  by_cases h : delta = 0
  · rw [h, counterStep_zero]
  · exact (counterStep_shows d cause h).mem

theorem counterStep_ticks : (counterStep d delta cause).ticks = d.ticks := by
  by_cases h : delta = 0
  · rw [h, counterStep_zero]
  · exact (counterStep_shows d cause h).ticks

theorem counterStep_base : (counterStep d delta cause).time.base = d.time.base + delta := by
  by_cases h : delta = 0
  · rw [h, counterStep_zero, add_zero]
  · exact (counterStep_shows d cause h).time TimeSt.base

theorem counterStep_todDone : (counterStep d delta cause).time.todDone = d.time.todDone := by
  by_cases h : delta = 0
  · rw [h, counterStep_zero]
  · exact (counterStep_shows d cause h).time TimeSt.todDone

theorem counterStep_waits : (counterStep d delta cause).time.armed = d.time.armed ∧
    (counterStep d delta cause).time.lagSecond = d.time.lagSecond := by
  by_cases h : delta = 0
  · rw [h, counterStep_zero]; exact ⟨rfl, rfl⟩
  · exact ⟨(counterStep_shows d cause h).time TimeSt.armed, (counterStep_shows d cause h).time TimeSt.lagSecond⟩

theorem counterStep_getR {f : Fld} (hf : fldAt f < 131072) (hg : ∀ g ∈ [F.TIME_STEPS, F.TIME_HOLD_EXCEEDED], fldAt g ≠ fldAt f) :
    getR (counterStep d delta cause) pgTime f = getR d pgTime f := by
  by_cases h : delta = 0
  · rw [h, counterStep_zero]
  · exact (counterStep_shows d cause h).getR_eq hf hg

end

/-- A label: the counter reads `x` at its instant, the time is set, and not from the backup counter. -/
structure Labelled (d : Dev) (x : Int) (k : Nat) (p : Int) (e : Dev) : Prop where
  mem : e.mem = d.mem
  ticks : e.ticks = d.ticks
  reads : e.time.base + 655360 * (k : Int) + rne (8192 * p) 125 = x
  isSet : e.time.isSet = true
  todDone : e.time.todDone = d.time.todDone
  backup : flagR e pgTime F.TIME_LABEL_BACKUP = false

theorem label_labelled (d : Dev) (x : Int) (k : Nat) (p : Int) : Labelled d x k p (label d x k p) := by
  unfold label
  extract_lets delta e1 t2 e2
  refine ⟨counterStep_mem d delta 0, counterStep_ticks d delta 0, ?_, rfl, counterStep_todDone d delta 0, ?_⟩
  · have hbase : (setR e2 pgTime F.TIME_LABEL_BACKUP 0).time.base = d.time.base + delta := counterStep_base d delta 0
    rw [hbase]; simp only [delta]; ring
  · simp [flagR]

/-- The displays leave a label as it is. -/
theorem Labelled.timeShow {d e : Dev} {x p : Int} {k : Nat} (h : Labelled d x k p e) : Labelled d x k p (timeShow e) := by
  have hs := timeShow_shows e
  exact ⟨hs.mem.trans h.mem, hs.ticks.trans h.ticks, by rw [hs.time TimeSt.base]; exact h.reads,
    (hs.time TimeSt.isSet).trans h.isSet, (hs.time TimeSt.todDone).trans h.todDone,
    (hs.flag_eq (by decide) (by decide)).trans h.backup⟩

/-! ### Edges (R304) -/

/-- The phase error of an edge `p` ps after the present tick, in 2^-16 ns / 125 ps. -/
def edgeErr (d : Dev) (p : Nat) : Int :=
  let at_ : Int := 125 * tai d + 8192 * ((p : Int) - getS d pgTime F.TIME_PPS_DELAY)
  at_ - (at_ + 125 * secU / 2) / (125 * secU) * (125 * secU)

/-- An edge is counted and its error shown. -/
def edgeIn (d : Dev) (p : Nat) : Dev :=
  let e := setS (bump d pgTime F.TIME_PPS_EDGES) pgTime F.TIME_PHASE_ERR
    (clampI (-(2 ^ 31)) (2 ^ 31 - 1) (rne (edgeErr d p) 8192))
  { e with time := { d.time with fresh := false } }

/-- The error is under STEP_TH. -/
def edgeSmall (d : Dev) (p : Nat) : Prop := (edgeErr d p).natAbs ≤ getR d pgTime F.TIME_STEP_TH * 8192000

/-- No label waits for the edge. -/
def NoLabel (x : TimeSt) : Prop := x.armed = false ∧ x.lagSecond = none

section
variable {d : Dev} {p : Nat}

theorem edgeIn_shows (d : Dev) (p : Nat) : TimeShows [F.TIME_PPS_EDGES, F.TIME_PHASE_ERR]
    { d with time := { d.time with fresh := false } } (edgeIn d p) := by
  have h : TimeShows [F.TIME_PPS_EDGES, F.TIME_PHASE_ERR] { d with time := { d.time with fresh := false } }
      (bump { d with time := { d.time with fresh := false } } pgTime F.TIME_PPS_EDGES) := (TimeShows.refl _).count 1 (by simp)
  have hshown := h.show_ (f := F.TIME_PHASE_ERR) (ux 32 (clampI (-(2 ^ 31)) (2 ^ 31 - 1) (rne (edgeErr d p) 8192))) (by simp)
  rw [bump, addC_eq] at hshown
  rw [edgeIn, bump, addC_eq]
  exact hshown

theorem edgeIn_edges (d : Dev) (p : Nat) : getR (edgeIn d p) pgTime F.TIME_PPS_EDGES =
    min (getR d pgTime F.TIME_PPS_EDGES + 1) (2 ^ 32 - 1) := by
  have hother : fldAt F.TIME_PHASE_ERR ≠ fldAt F.TIME_PPS_EDGES := by decide
  exact (getR_setR_fld (bump d pgTime F.TIME_PPS_EDGES) _ _ hother).trans (getR_addC_narrow d pgTime 1 (by decide))

theorem edgeIn_evt (d : Dev) (p : Nat) : (edgeIn d p).evt = d.evt := addC_evt ..

theorem refOn_taken {k : Nat} {q : Int} (h : NoLabel d.time) :
    edgeTaken d k q = refOn { d with time := { d.time with lastEdge := some (k, q), rejects := [] } } := by
  obtain ⟨ha, hl⟩ := h
  simp [edgeTaken, refOn, ha, hl]

theorem addC_time (d : Dev) (p : Nat) (f : Fld) (n : Nat) : (addC d p f n).time = d.time := by rw [addC_eq]; rfl

theorem doPpsEdge_other (t : Nat) (h : isMaster d = false) : doPpsEdge t p d = advance d t :=
  if_pos (by rw [show isMaster (advance d t) = isMaster d from rfl, h]; rfl)

/-- An edge that no label waits for, on the time master, by what the servo makes of it. -/
theorem doPpsEdge_plain (t : Nat) (hm : isMaster d = true) (hn : NoLabel d.time) :
    (edgeSmall (advance d t) p → doPpsEdge t p d =
      warmShow (edgeTaken (edgeGood (edgeIn (advance d t) p) (edgeErr (advance d t) p)) (max d.ticks t) p)) ∧
    (¬edgeSmall (advance d t) p → d.time.locked = false → d.time.held = false → doPpsEdge t p d =
      warmShow (edgeTaken (edgeStep (edgeIn (advance d t) p) (edgeErr (advance d t) p)) (max d.ticks t) p)) ∧
    (¬edgeSmall (advance d t) p → d.time.locked = true → d.time.fresh = false → d.time.rejects = [] → doPpsEdge t p d =
      bump { edgeIn (advance d t) p with time := { (edgeIn (advance d t) p).time with
        rejects := [edgeErr (advance d t) p], accRun := 0 } } pgTime F.TIME_PPS_REJECTS) := by
  obtain ⟨harm, hlag⟩ := hn
  unfold doPpsEdge
  extract_lets d1 d2 k at_ e d3 x small inLock d4 named taken stepped rs src rejected
  rw [if_neg (by rw [show isMaster d1 = isMaster d from rfl, hm]; decide)]
  have htime : d2.time = d.time := addC_time ..
  have hticks : d2.ticks = max d.ticks t := addC_ticks ..
  have hdelay : getS d2 pgTime F.TIME_PPS_DELAY = getS d1 pgTime F.TIME_PPS_DELAY :=
    congrArg (sx 32) (getR_addC_fld d1 _ _ (by decide))
  have he : e = edgeErr d1 p := by
    simp only [e, at_, edgeErr, hdelay, tai, htime, hticks]; rfl
  have hx : x = d.time := htime
  have h4 : d4 = edgeIn d1 p := by
    simp only [d4, hx, d3, he]; rfl
  have hsmall : small = true ↔ edgeSmall d1 p := by
    have hth : getR d3 pgTime F.TIME_STEP_TH = getR d1 pgTime F.TIME_STEP_TH := by
      refine (getR_setR_fld d2 _ _ (by decide)).trans ?_
      exact getR_addC_fld d1 _ _ (by decide)
    simp only [small, he, hth, edgeSmall, decide_eq_true_eq]
  have hnamed : named = false := by simp [named, hx, harm, hlag]
  have hk : k = max d.ticks t := hticks
  clear_value d4 named e small
  subst h4 hnamed he
  refine ⟨fun h => ?_, fun h hl hh => ?_, fun h hl hf hr => ?_⟩
  · rw [if_pos (hsmall.2 h)]
    simp only [Bool.false_eq_true, if_false, taken, hk]
    rfl
  · have hin : inLock = false := by simp [inLock, hx, hl, hh]
    rw [if_neg (fun hs => h (hsmall.1 hs)), hin]
    simp only [stepped, Bool.false_eq_true, if_false, Bool.not_false, Bool.or_true, if_true, Bool.false_and, hk]
    rfl
  · have hin : inLock = true := by simp [inLock, hx, hl]
    have hone : rs = [edgeErr d1 p] := by simp [rs, hx, hr]
    rw [if_neg (fun hs => h (hsmall.1 hs)), hin, hx, hf]
    simp only [Bool.not_true, Bool.or_false, Bool.false_eq_true, if_false]
    rw [if_neg (by rw [hone]; simp)]
    simp only [rejected, hone]
    rfl

end

section
variable {d : Dev} {e : Int} {k : Nat} {q : Int}

theorem steer_shows (d : Dev) : TimeShows [] d (steer d) := (show TimeShows [] d (freeV d).2 from .refl d).freqTo _

/-- An edge that is taken in lock leaves the counter and the lock. -/
theorem edgeGood_locked (hl : d.time.locked = true) (hn : NoLabel d.time) : NoLabel (edgeGood d e).time ∧
    (edgeGood d e).time.base = d.time.base ∧ (edgeGood d e).time.locked = true ∧ (edgeGood d e).ticks = d.ticks ∧
    (edgeGood d e).mem = d.mem ∧ getR (edgeGood d e) pgTime F.TIME_PPS_EDGES = getR d pgTime F.TIME_PPS_EDGES := by
  obtain ⟨harm, hlag⟩ := hn
  have hs := steer_shows d
  have hlocked : (steer d).time.locked = true := (hs.time TimeSt.locked).trans hl
  have hbase : (edgeGood d e).time.base = (steer d).time.base ∧ (edgeGood d e).time.locked = true ∧
      (edgeGood d e).time.armed = (steer d).time.armed ∧ (edgeGood d e).time.lagSecond = (steer d).time.lagSecond ∧
      (edgeGood d e).ticks = (steer d).ticks ∧ (edgeGood d e).mem = (steer d).mem ∧
      getR (edgeGood d e) pgTime F.TIME_PPS_EDGES = getR (steer d) pgTime F.TIME_PPS_EDGES := by
    simp only [edgeGood, onlyIf, hlocked, Bool.true_or, Bool.not_true, Bool.and_false, Bool.false_eq_true, if_false,
      true_and]
    rfl
  obtain ⟨hb, hk, ha, hg, ht, hm, hp⟩ := hbase
  exact ⟨⟨(ha.trans (hs.time TimeSt.armed)).trans harm, (hg.trans (hs.time TimeSt.lagSecond)).trans hlag⟩,
    hb.trans (hs.time TimeSt.base), hk, ht.trans hs.ticks, hm.trans hs.mem, hp.trans (hs.getR_eq (by decide) (by simp))⟩

/-- An edge that no label waits for leaves the reference present, and the time otherwise as it was. -/
theorem edgeTaken_shown (hn : NoLabel d.time) : let w := warmShow (edgeTaken d k q)
    w.mem = d.mem ∧ w.ticks = d.ticks ∧ w.time.base = d.time.base ∧ w.time.locked = d.time.locked ∧ w.time.accRun = d.time.accRun ∧
    w.time.refPresent = true ∧ w.time.lastEdge = some (k, q) ∧
    getR w pgTime F.TIME_PPS_EDGES = getR d pgTime F.TIME_PPS_EDGES := by
  have hs := warmShow_shows (edgeTaken d k q)
  rw [refOn_taken hn] at hs ⊢
  exact ⟨hs.mem, hs.ticks, hs.time TimeSt.base, hs.time TimeSt.locked, hs.time TimeSt.accRun, hs.time TimeSt.refPresent,
    hs.time TimeSt.lastEdge, hs.getR_eq (by decide) (by decide)⟩

/-- A step for an edge: a tick later the counter has moved by its error, and no label waits that did not. -/
theorem edgeStep_moves (hn : NoLabel d.time) : NoLabel (edgeStep d e).time ∧ (edgeStep d e).time.base = d.time.base - rne e 125 ∧
    (edgeStep d e).ticks = d.ticks + 1 ∧ (edgeStep d e).time.accRun = 0 ∧ (edgeStep d e).mem = d.mem ∧
    getR (edgeStep d e) pgTime F.TIME_PPS_EDGES = getR d pgTime F.TIME_PPS_EDGES := by
  obtain ⟨harm, hlag⟩ := hn
  obtain ⟨ha, hl⟩ := counterStep_waits (advance d (d.ticks + 1)) (-(rne e 125)) 1
  refine ⟨⟨ha.trans harm, hl.trans hlag⟩, counterStep_base .., ?_, rfl, counterStep_mem .., ?_⟩
  · exact (counterStep_ticks ..).trans (show max d.ticks (d.ticks + 1) = d.ticks + 1 by omega)
  · exact counterStep_getR (advance d (d.ticks + 1)) (-(rne e 125)) 1 (by decide) (by decide)

end

/-! ### The commands -/

section
variable {s : State} (t : Nat)

theorem gives_ppsEdge {p : Nat} (hp : p < 10000) (hs : Awake s) : Gives (.ppsEdge t p) s (doPpsEdge t p s.dev) :=
  gives_of_act rfl (decide_eq_true hp) hs

theorem gives_setArm (hs : Awake s) : Gives (.setArm t) s (doSetArm t s.dev) := gives_of_act rfl rfl hs

theorem gives_todSentence (ok : Bool) (utc : Int) (hs : Awake s) :
    Gives (.todSentence t ok utc) s (doTodSentence t ok utc s.dev) := gives_of_act rfl rfl hs

theorem gives_freqWindowEnd (off : Int) (hs : Awake s) : Gives (.freqWindowEnd t off) s (doFreqWindowEnd t off s.dev) :=
  gives_of_act rfl rfl hs

theorem gives_ocxoRdyChange (on : Bool) (hs : Awake s) : Gives (.ocxoRdyChange t on) s (doOcxoRdy t on s.dev) :=
  gives_of_act rfl rfl hs

theorem gives_warmMinExpiry (hs : Awake s) : Gives (.warmMinExpiry t) s (doWarmMin t s.dev) := gives_of_act rfl rfl hs

theorem gives_ppsMissingTimeout (hs : Awake s) : Gives (.ppsMissingTimeout t) s (doPpsMissing t s.dev) :=
  gives_of_act rfl rfl hs

theorem gives_holdLimitExpiry (hs : Awake s) : Gives (.holdLimitExpiry t) s (doHoldLimit t s.dev) := gives_of_act rfl rfl hs

end

/-! ### SET_ARM and the ZDA sentence (R302) -/

section
variable {d : Dev} (t : Nat)

/-- What SET_ARM does on its page. -/
def armNow (d : Dev) : Dev :=
  if !isMaster d then d
  else if setSrc d = 0 then { d with time := { d.time with armed := true } }
  else if setSrc d = 1 then
    let d := advance d (d.ticks + 1)
    timeShow (label d ((getR d pgTime F.TIME_SET_S : Int) * secU + (getR d pgTime F.TIME_SET_NS : Int) * 65536) d.ticks 0)
  else d

theorem doSetArm_reach (hr : Reach d pgTime) : doSetArm t d = armNow (advance d t) := onPage_reach armNow (reach_advance hr)

theorem armNow_other (h : isMaster d = false) : armNow d = d := if_pos (by simp [h])

theorem armNow_edge (h : isMaster d = true) (h0 : setSrc d = 0) : armNow d = { d with time := { d.time with armed := true } } := by
  simp [armNow, h, h0]

theorem armNow_now (h : isMaster d = true) (h1 : setSrc d = 1) : armNow d = timeShow (label (advance d (d.ticks + 1))
    ((getR d pgTime F.TIME_SET_S : Int) * secU + (getR d pgTime F.TIME_SET_NS : Int) * 65536) (max d.ticks (d.ticks + 1)) 0) := by
  unfold armNow
  rw [if_neg (by simp [h]), if_neg (by omega), if_pos h1]
  rfl

theorem doTodSentence_idle {ok : Bool} {utc : Int} (h : isMaster d = false ∨ setSrc d ≠ 2) :
    doTodSentence t ok utc d = advance d t := by
  refine if_pos ?_
  rw [show isMaster (advance d t) = isMaster d from rfl, show setSrc (advance d t) = setSrc d from rfl]
  simpa using h

/-- A sentence that counts, on the time master that takes its labels from sentences. -/
theorem doTodSentence_takes {ok : Bool} {utc : Int} (hm : isMaster d = true) (h2 : setSrc d = 2) : doTodSentence t ok utc d =
    if !ok then bump (advance d t) pgTime F.TIME_TOD_BAD
    else if flagR d pgTime F.TIME_TOD_LAG then
      { advance d t with time := { d.time with lagSecond := some (utc + getS d pgTime F.TIME_TAI_UTC) } }
    else match d.time.lastEdge with
      | some e => timeShow (todLabel (advance d t) (utc + getS d pgTime F.TIME_TAI_UTC) e)
      | none => advance d t := by
  refine if_neg ?_
  rw [show isMaster (advance d t) = isMaster d from rfl, show setSrc (advance d t) = setSrc d from rfl, hm, h2]
  decide

/-- The first sentence labels the counter by its edge. -/
theorem todLabel_first {l : Int} {e : Nat × Int} (h : d.time.todDone = false) : todLabel d l e =
    label { d with time := { d.time with todDone := true, disagree := 0 } } (l * secU + ppsDelay d) e.1 e.2 := by
  simp [todLabel, h]

end

/-! ### The loss of the reference, and the limit of HOLDOVER (R303, R304) -/

section
variable {d : Dev} (t : Nat)

theorem doPpsMissing_none (h : d.time.lastEdge = none) : doPpsMissing t d = advance d t := by simp [doPpsMissing, h]

/-- The reference is missed: what is counted and raised. -/
def edgeMissed (d : Dev) : Dev := bump (raise d pgTime 12) pgTime F.TIME_PPS_MISSING

theorem doPpsMissing_locked {k : Nat} {q : Int} (he : d.time.lastEdge = some (k, q)) (hm : isMaster d = true)
    (hr : d.time.refPresent = true) (hl : d.time.locked = true) :
    doPpsMissing t d = warmShow (refOff (loseLock (edgeMissed (advance d (max t (k + 300000000)))))) := by
  have hmaster : isMaster (advance d (max t (k + sT 3))) = true := hm
  have href : (advance d (max t (k + sT 3))).time.refPresent = true := hr
  have hlocked : (advance d (max t (k + sT 3))).time.locked = true := hl
  unfold doPpsMissing
  rw [he]
  exact (if_neg (by rw [hmaster, href]; decide)).trans (congrArg (fun e => warmShow (refOff (loseLock e))) (if_pos hlocked))

/-- A lock that is lost for want of a reference goes to HOLDOVER. -/
theorem refOff_loseLock (hl : d.time.locked = true) : (refOff (loseLock d)).time.locked = false ∧
    (refOff (loseLock d)).time.held = true ∧ (refOff (loseLock d)).time.refPresent = false ∧
    (refOff (loseLock d)).time.isSet = d.time.isSet ∧ (refOff (loseLock d)).ticks = d.ticks ∧
    getR (refOff (loseLock d)) pgTime F.TIME_PPS_MISSING = getR d pgTime F.TIME_PPS_MISSING ∧
    evtRaw (refOff (loseLock d)) pgTime = evtRaw d pgTime := by
  have hkept : (holdFreq d).time.isSet = d.time.isSet ∧ (holdFreq d).ticks = d.ticks ∧ (holdFreq d).regs = d.regs ∧
      (holdFreq d).evt = d.evt := by
    simp only [holdFreq, freqTo]
    split_ifs <;> exact ⟨rfl, rfl, rfl, rfl⟩
  obtain ⟨hset, hticks, hregs, hevt⟩ := hkept
  rw [loseLock, if_neg (by simp [hl])]
  exact ⟨rfl, rfl, rfl, hset, hticks, getR_congr hregs pgTime F.TIME_PPS_MISSING, congrArg (fun e => Store.get e 0 pgTime) hevt⟩

theorem edgeMissed_shows (d : Dev) : (edgeMissed d).time = d.time ∧ (edgeMissed d).ticks = d.ticks ∧
    getR (edgeMissed d) pgTime F.TIME_PPS_MISSING = min (getR d pgTime F.TIME_PPS_MISSING + 1) (2 ^ 32 - 1) ∧
    (evtRaw (edgeMissed d) pgTime).testBit 12 = true :=
  ⟨addC_time .., addC_ticks .., getR_addC_narrow _ _ 1 (by decide), by
    rw [evtRaw, edgeMissed, bump, addC_evt]; exact raise_bit d pgTime 12⟩

theorem doHoldLimit_idle (h : timeState d ≠ 4) : doHoldLimit t d = advance d t := if_pos (.inl h)

theorem doHoldLimit_held (h : timeState d = 4) (hx : flagR d pgTime F.TIME_HOLD_EXCEEDED = false) : doHoldLimit t d =
    timeShow (raise (setR (advance d (max t (d.time.holdStart + 100000000 * getR d pgTime F.TIME_HOLD_LIMIT))) pgTime
      F.TIME_HOLD_EXCEEDED 1) pgTime 13) := by
  rw [doHoldLimit, if_neg (by simp [h, hx]), show sT (getR d pgTime F.TIME_HOLD_LIMIT) =
    100000000 * getR d pgTime F.TIME_HOLD_LIMIT from Nat.mul_comm _ _]

end

/-! ### Each command, up to the displays -/

section
variable {s : State} {t p : Nat}

/-- The count of edges after an edge. -/
def EdgeCounted (s : State) (d : Dev) : Prop :=
  getR d pgTime F.TIME_PPS_EDGES = min (getR s.dev pgTime F.TIME_PPS_EDGES + 1) (2 ^ 32 - 1)

theorem does_ppsEdge_small (hs : Awake s) (hp : p < 10000) (hm : isMaster s.dev = true) (hn : NoLabel s.dev.time)
    (h : edgeSmall (advance s.dev t) p) (hl : s.dev.time.locked = true) : Does (.ppsEdge t p) s (fun d => EdgeCounted s d ∧
      d.time.locked = true ∧ d.time.base = s.dev.time.base ∧ d.time.refPresent = true ∧
      d.time.lastEdge = some (max s.dev.ticks t, (p : Int)) ∧ d.mem = s.dev.mem) := by
  have hn' : NoLabel (edgeIn (advance s.dev t) p).time := hn
  obtain ⟨hg, hbase, hlock, hticks, hmem, hpps⟩ := edgeGood_locked (d := edgeIn (advance s.dev t) p)
    (e := edgeErr (advance s.dev t) p) hl hn'
  obtain ⟨wmem, -, wbase, wlock, -, wref, wlast, wpps⟩ := edgeTaken_shown (k := max s.dev.ticks t) (q := (p : Int)) hg
  refine does_of_gives ((gives_ppsEdge t hp hs).of_eq ((doPpsEdge_plain t hm hn).1 h)) ?_
  simp only [EdgeCounted, getR_settle, settle_time, settle_mem]
  exact ⟨(wpps.trans hpps).trans (edgeIn_edges (advance s.dev t) p), wlock.trans hlock, wbase.trans hbase, wref, wlast,
    (wmem.trans hmem).trans (edgeIn_shows (advance s.dev t) p).mem⟩

theorem does_ppsEdge_rejected (hs : Awake s) (hp : p < 10000) (hm : isMaster s.dev = true) (hn : NoLabel s.dev.time)
    (h : ¬edgeSmall (advance s.dev t) p) (hl : s.dev.time.locked = true) (hf : s.dev.time.fresh = false)
    (hr : s.dev.time.rejects = []) : Does (.ppsEdge t p) s (fun d => EdgeCounted s d ∧ d.time.locked = true ∧
      d.time.base = s.dev.time.base ∧ d.time.rejects = [edgeErr (advance s.dev t) p] ∧
      getR d pgTime F.TIME_PPS_REJECTS = min (getR s.dev pgTime F.TIME_PPS_REJECTS + 1) (2 ^ 32 - 1) ∧
      d.evt = s.dev.evt ∧ d.mem = s.dev.mem) := by
  refine does_of_gives ((gives_ppsEdge t hp hs).of_eq ((doPpsEdge_plain t hm hn).2.2 h hl hf hr)) ?_
  simp only [EdgeCounted, getR_settle, settle_time, settle_mem, settle_evt, bump, addC_time, addC_mem, addC_evt]
  refine ⟨(getR_addC_fld _ _ _ (by decide)).trans (edgeIn_edges (advance s.dev t) p), hl, rfl, trivial, ?_,
    edgeIn_evt (advance s.dev t) p, (edgeIn_shows (advance s.dev t) p).mem⟩
  refine (getR_addC_narrow _ _ 1 (by decide)).trans ?_
  exact congrArg (fun n => min (n + 1) (2 ^ 32 - 1)) ((edgeIn_shows (advance s.dev t) p).getR_eq (by decide) (by decide))

theorem does_ppsEdge_step (hs : Awake s) (hp : p < 10000) (hm : isMaster s.dev = true) (hn : NoLabel s.dev.time)
    (h : ¬edgeSmall (advance s.dev t) p) (hl : s.dev.time.locked = false) (hh : s.dev.time.held = false) :
    Does (.ppsEdge t p) s (fun d => EdgeCounted s d ∧ d.time.base = s.dev.time.base - rne (edgeErr (advance s.dev t) p) 125 ∧
      d.ticks = max s.dev.ticks t + 1 ∧ d.time.accRun = 0 ∧ d.mem = s.dev.mem) := by
  have hn' : NoLabel (edgeIn (advance s.dev t) p).time := hn
  obtain ⟨hg, hbase, hticks, hrun, hmem, hpps⟩ := edgeStep_moves (e := edgeErr (advance s.dev t) p) hn'
  obtain ⟨wmem, wticks, wbase, -, wrun, -, -, wpps⟩ := edgeTaken_shown (k := max s.dev.ticks t) (q := (p : Int)) hg
  refine does_of_gives ((gives_ppsEdge t hp hs).of_eq ((doPpsEdge_plain t hm hn).2.1 h hl hh)) ?_
  simp only [EdgeCounted, getR_settle, settle_time, settle_mem, settle_ticks]
  refine ⟨(wpps.trans hpps).trans (edgeIn_edges (advance s.dev t) p), wbase.trans hbase, ?_, wrun.trans hrun,
    (wmem.trans hmem).trans (edgeIn_shows (advance s.dev t) p).mem⟩
  rw [wticks, hticks, (edgeIn_shows (advance s.dev t) p).ticks]; rfl

/-- SET_ARM under SET_SRC 1 sets the counter at the next tick. -/
theorem armNow_sets {d : Dev} (hm : isMaster d = true) (h1 : setSrc d = 1) :
    (armNow d).time.base + 655360 * ((d.ticks + 1 : Nat) : Int) =
      (getR d pgTime F.TIME_SET_S : Int) * secU + (getR d pgTime F.TIME_SET_NS : Int) * 65536 ∧
    (armNow d).ticks = d.ticks + 1 ∧ (armNow d).time.isSet = true ∧ flagR (armNow d) pgTime F.TIME_LABEL_BACKUP = false ∧
    (armNow d).mem = d.mem := by
  have hnext : max d.ticks (d.ticks + 1) = d.ticks + 1 := max_eq_right (Nat.le_succ _)
  have hlabel := (label_labelled (advance d (d.ticks + 1))
    ((getR d pgTime F.TIME_SET_S : Int) * secU + (getR d pgTime F.TIME_SET_NS : Int) * 65536) (d.ticks + 1) 0).timeShow
  have harmed := armNow_now hm h1
  rw [hnext] at harmed
  rw [harmed]
  have hreads := hlabel.reads
  rw [show rne (8192 * 0) 125 = 0 from rfl, add_zero] at hreads
  exact ⟨hreads, hlabel.ticks.trans hnext, hlabel.isSet, hlabel.backup, hlabel.mem⟩

theorem does_setArm_now (hs : Awake s) (hr : Reach s.dev pgTime) (hm : isMaster s.dev = true) (h1 : setSrc s.dev = 1) :
    Does (.setArm t) s (fun d =>
      tai d = (getR s.dev pgTime F.TIME_SET_S : Int) * secU + (getR s.dev pgTime F.TIME_SET_NS : Int) * 65536 ∧
      d.ticks = max s.dev.ticks t + 1 ∧ d.time.isSet = true ∧ flagR d pgTime F.TIME_LABEL_BACKUP = false ∧
      d.mem = s.dev.mem) := by
  obtain ⟨hreads, hticks, hset, hbackup, hmem⟩ := armNow_sets (d := advance s.dev t) hm h1
  refine does_of_gives ((gives_setArm t hs).of_eq (doSetArm_reach t hr)) ?_
  simp only [settle_time, settle_ticks, settle_mem, tai, flagR, getR_settle, hticks]
  exact ⟨hreads, rfl, hset, hbackup, hmem⟩

/-- The counter as the first sentence finds it. -/
def todFirst (d : Dev) : Dev := { d with time := { d.time with todDone := true, disagree := 0 } }

theorem does_todSentence_first (hs : Awake s) {utc q : Int} {k : Nat} (hm : isMaster s.dev = true) (h2 : setSrc s.dev = 2)
    (hlag : flagR s.dev pgTime F.TIME_TOD_LAG = false) (hlast : s.dev.time.lastEdge = some (k, q))
    (hdone : s.dev.time.todDone = false) : Does (.todSentence t true utc) s (fun d => d.time.isSet = true ∧
      d.time.todDone = true ∧ flagR d pgTime F.TIME_LABEL_BACKUP = false ∧
      d.time.base + 655360 * (k : Int) + rne (8192 * q) 125 =
        (utc + getS s.dev pgTime F.TIME_TAI_UTC) * secU + ppsDelay s.dev ∧ d.mem = s.dev.mem) := by
  have htakes : doTodSentence t true utc s.dev = timeShow (label
      (todFirst (advance s.dev t)) ((utc + getS s.dev pgTime F.TIME_TAI_UTC) * secU + ppsDelay s.dev) k q) := by
    rw [doTodSentence_takes t hm h2, if_neg (by simp), hlag, hlast]
    exact congrArg timeShow (todLabel_first (d := advance s.dev t) hdone)
  have hlabel := (label_labelled (todFirst (advance s.dev t))
    ((utc + getS s.dev pgTime F.TIME_TAI_UTC) * secU + ppsDelay s.dev) k q).timeShow
  refine does_of_gives ((gives_todSentence t true utc hs).of_eq htakes) ?_
  simp only [settle_time, settle_mem, flagR, getR_settle]
  exact ⟨hlabel.isSet, hlabel.todDone, hlabel.backup, hlabel.reads, hlabel.mem⟩

/-- A window of the frequency ends at tick `a`. -/
def windowEnded (d : Dev) (off : Int) (a : Nat) : Dev :=
  { d with time := { d.time with windows := (off :: d.time.windows).take 3, windowStart := some a } }

theorem does_freqWindowEnd (hs : Awake s) {a : Nat} (off : Int) (hw : s.dev.time.windowStart = some a) :
    Does (.freqWindowEnd t off) s (fun d => d.time.windows = (off :: s.dev.time.windows).take 3 ∧
      d.time.windowStart = some (a + 10000000000) ∧ a + 10000000000 ≤ d.ticks ∧ d.time.base = s.dev.time.base ∧
      d.mem = s.dev.mem) := by
  rw [show (10000000000 : Nat) = sT 100 from rfl]
  have hends : doFreqWindowEnd t off s.dev = warmShow (windowEnded (advance s.dev (max t (a + sT 100))) off (a + sT 100)) := by
    unfold doFreqWindowEnd
    rw [hw]
    rfl
  generalize a + sT 100 = w at hends ⊢
  have hshow := warmShow_shows (windowEnded (advance s.dev (max t w)) off w)
  have hlate : w ≤ max s.dev.ticks (max t w) := (le_max_right _ _).trans (le_max_right _ _)
  refine does_of_gives ((gives_freqWindowEnd t off hs).of_eq hends) ?_
  simp only [settle_time, settle_mem, settle_ticks]
  exact ⟨hshow.time TimeSt.windows, hshow.time TimeSt.windowStart, hlate.trans_eq hshow.ticks.symm, hshow.time TimeSt.base,
    hshow.mem⟩

/-- A ready pin that is asked and does not say so. -/
theorem warmConds_cold {d : Dev} (hpin : flagR d pgTime F.TIME_READY_EN = true) (hrdy : d.time.ocxoRdy = false) :
    (warmConds d).all id = false := by
  have hfirst : (!flagR d pgTime F.TIME_READY_EN || d.time.ocxoRdy) = false := by rw [hpin, hrdy]; rfl
  rw [warmConds, List.all_cons, hfirst]
  rfl

/-- The OCXO_RDY pin says `on`. -/
def ocxoSays (d : Dev) (on : Bool) : Dev := { d with time := { d.time with ocxoRdy := on } }

theorem does_ocxoRdyChange (hs : Awake s) (on : Bool) : Does (.ocxoRdyChange t on) s (fun d => d.time.ocxoRdy = on ∧
    d.time.base = s.dev.time.base ∧ (flagR s.dev pgTime F.TIME_READY_EN = true → on = false →
      flagR d pgTime F.TIME_OCXO_WARM = false ∧
      (flagR s.dev pgTime F.TIME_OCXO_WARM = true → (evtRaw d pgTime).testBit 11 = true))) := by
  have hshow := warmShow_shows (ocxoSays (advance s.dev t) on)
  refine does_of_gives ((gives_ocxoRdyChange t on hs).of_eq (e := warmShow (ocxoSays (advance s.dev t) on)) rfl) ?_
  simp only [settle_time, flagR, getR_settle, evtRaw_settle]
  refine ⟨hshow.time TimeSt.ocxoRdy, hshow.time TimeSt.base, fun hready hoff => ?_⟩
  have hcold := warmConds_cold (d := ocxoSays (advance s.dev t) on) hready hoff
  exact ⟨(warm_warmShow _).trans hcold, fun hwas => warmShow_lost hwas hcold⟩

/-- The conditions of R300 but for the minimum time hold where the pin is not asked and neither oven nor frequency speaks. -/
theorem warmConds_all {d : Dev} (hpin : flagR d pgTime F.TIME_READY_EN = false) (hoven : d.time.ovenBad = false)
    (href : d.time.refPresent = false) (ht : d.time.warmFrom + sT (getR d pgTime F.TIME_WARM_MIN_S) ≤ d.ticks) :
    (warmConds d).all id = true := by simp [warmConds, hpin, hoven, href, ht]

theorem does_warmMinExpiry (hs : Awake s) : Does (.warmMinExpiry t) s (fun d =>
    s.dev.time.warmFrom + 100000000 * getR s.dev pgTime F.TIME_WARM_MIN_S ≤ d.ticks ∧
    (flagR s.dev pgTime F.TIME_READY_EN = false → s.dev.time.ovenBad = false → s.dev.time.refPresent = false →
      flagR d pgTime F.TIME_OCXO_WARM = true) ∧ d.time.base = s.dev.time.base) := by
  have hlate : s.dev.time.warmFrom + sT (getR s.dev pgTime F.TIME_WARM_MIN_S) ≤
      (advance s.dev (max t (s.dev.time.warmFrom + sT (getR s.dev pgTime F.TIME_WARM_MIN_S)))).ticks :=
    (le_max_right _ _).trans (le_max_right _ _)
  have hshow := warmShow_shows (advance s.dev (max t (s.dev.time.warmFrom + sT (getR s.dev pgTime F.TIME_WARM_MIN_S))))
  refine does_of_gives (gives_warmMinExpiry t hs) ?_
  simp only [settle_time, settle_ticks, flagR, getR_settle]
  refine ⟨?_, fun hpin hoven href => (warm_warmShow _).trans (warmConds_all hpin hoven href hlate), hshow.time TimeSt.base⟩
  rw [Nat.mul_comm]
  exact hlate.trans_eq hshow.ticks.symm

theorem does_ppsMissingTimeout (hs : Awake s) {k : Nat} {q : Int} (hlast : s.dev.time.lastEdge = some (k, q))
    (hm : isMaster s.dev = true) (href : s.dev.time.refPresent = true) (hl : s.dev.time.locked = true) :
    Does (.ppsMissingTimeout t) s (fun d => k + 300000000 ≤ d.ticks ∧ d.time.locked = false ∧ d.time.held = true ∧
      d.time.refPresent = false ∧ (evtRaw d pgTime).testBit 12 = true ∧
      (s.dev.time.isSet = true → flagR d pgTime F.TIME_OCXO_WARM = true → timeState d = 4) ∧
      getR d pgTime F.TIME_PPS_MISSING = min (getR s.dev pgTime F.TIME_PPS_MISSING + 1) (2 ^ 32 - 1)) := by
  obtain ⟨htime, hticks, hcount, hevt⟩ := edgeMissed_shows (advance s.dev (max t (k + 300000000)))
  obtain ⟨rlock, rheld, rref, rset, rticks, rcount, revt⟩ := refOff_loseLock
    (d := edgeMissed (advance s.dev (max t (k + 300000000)))) (by rw [htime]; exact hl)
  have hset := rset.trans (congrArg TimeSt.isSet htime)
  have hgives := (gives_ppsMissingTimeout t hs).of_eq (doPpsMissing_locked t hlast hm href hl)
  have hlate : k + 300000000 ≤ (refOff (loseLock (edgeMissed (advance s.dev (max t (k + 300000000)))))).ticks :=
    ((le_max_right _ _).trans (le_max_right _ _)).trans_eq (rticks.trans hticks).symm
  have hfinal := rcount.trans hcount
  have hbit := revt ▸ hevt
  generalize refOff (loseLock (edgeMissed (advance s.dev (max t (k + 300000000))))) = e at *
  have hshow := warmShow_shows e
  refine does_of_gives hgives ?_
  simp only [settle_time, settle_ticks, evtRaw_settle, getR_settle, timeState, flagR]
  refine ⟨hlate.trans_eq hshow.ticks.symm, (hshow.time TimeSt.locked).trans rlock, (hshow.time TimeSt.held).trans rheld,
    (hshow.time TimeSt.refPresent).trans rref, hshow.evt hbit, fun hs' hwarm => ?_,
    (hshow.getR_eq (by decide) (by decide)).trans hfinal⟩
  have hstate := timeState_warmShow e
  rw [hset, show (advance s.dev (max t (k + 300000000))).time.isSet = true from hs', rlock, rheld,
    show flagR (warmShow e) pgTime F.TIME_OCXO_WARM = true from hwarm] at hstate
  exact hstate

theorem does_holdLimitExpiry (hs : Awake s) (h : timeState s.dev = 4) (hx : flagR s.dev pgTime F.TIME_HOLD_EXCEEDED = false) :
    Does (.holdLimitExpiry t) s (fun d =>
      s.dev.time.holdStart + 100000000 * getR s.dev pgTime F.TIME_HOLD_LIMIT ≤ d.ticks ∧
      flagR d pgTime F.TIME_HOLD_EXCEEDED = true ∧ (evtRaw d pgTime).testBit 13 = true ∧ d.time.base = s.dev.time.base) := by
  have hshow := timeShow_shows (raise (setR (advance s.dev (max t (s.dev.time.holdStart + 100000000 *
    getR s.dev pgTime F.TIME_HOLD_LIMIT))) pgTime F.TIME_HOLD_EXCEEDED 1) pgTime 13)
  have hset := getR_setR_self (advance s.dev (max t (s.dev.time.holdStart + 100000000 *
    getR s.dev pgTime F.TIME_HOLD_LIMIT))) pgTime F.TIME_HOLD_EXCEEDED 1
  refine does_of_gives ((gives_holdLimitExpiry t hs).of_eq (doHoldLimit_held t h hx)) ?_
  simp only [settle_time, settle_ticks, flagR, getR_settle, evtRaw_settle]
  refine ⟨?_, beq_iff_eq.2 ((hshow.getR_eq (by decide) (by decide)).trans hset), hshow.evt (raise_bit _ _ _),
    hshow.time TimeSt.base⟩
  rw [hshow.ticks]
  exact (le_max_right _ _).trans (le_max_right _ _)

end

end Sys2Proof.Machine

open Sys2Proof Sys2Proof.Machine

/-- Settles O42: each command up to the displays of the time, which leave the counter and the servo as they are. -/
theorem timeFollowsItsReference : Obligations.TimeFollowsItsReference := by
  unfold Obligations.TimeFollowsItsReference
  intro s t p hp hs x at_ e small plain edges
  refine ⟨fun hm => (gives_ppsEdge t hp hs).of_eq (doPpsEdge_other t hm), ?_, ?_, ?_, ?_, ?_, ?_, ?_, ?_, ?_, ?_, ?_, ?_, ?_,
    fun on => does_ocxoRdyChange hs on, does_warmMinExpiry hs, ?_, ?_, ?_, ?_⟩
  · exact fun ⟨hm, hn⟩ h hl => does_ppsEdge_small hs hp hm hn h hl
  · exact fun ⟨hm, hn⟩ h hl hf hr => does_ppsEdge_rejected hs hp hm hn h hl hf hr
  · exact fun ⟨hm, hn⟩ h hl hh => does_ppsEdge_step hs hp hm hn h hl hh
  · exact fun hr hm => (gives_setArm t hs).of_eq ((doSetArm_reach t hr).trans (armNow_other hm))
  · exact fun hr hm h0 => (gives_setArm t hs).of_eq ((doSetArm_reach t hr).trans (armNow_edge (d := advance s.dev t) hm h0))
  · exact fun hr hm h1 => does_setArm_now hs hr hm h1
  · exact fun ok utc h => (gives_todSentence t ok utc hs).of_eq (doTodSentence_idle t h)
  · exact fun utc hm h2 => (gives_todSentence t false utc hs).of_eq (doTodSentence_takes t hm h2)
  · exact fun utc hm h2 hlag => (gives_todSentence t true utc hs).of_eq ((doTodSentence_takes t hm h2).trans (if_pos hlag))
  · intro utc hm h2 hlag hlast
    refine (gives_todSentence t true utc hs).of_eq ((doTodSentence_takes t hm h2).trans ?_)
    simp [hlag, show s.dev.time.lastEdge = none from hlast]
  · exact fun utc k q hm h2 hlag hlast hdone => does_todSentence_first hs hm h2 hlag hlast hdone
  · intro off hw
    refine (gives_freqWindowEnd t off hs).of_eq ?_
    simp [doFreqWindowEnd, show s.dev.time.windowStart = none from hw]
  · exact fun off a hw => does_freqWindowEnd hs off hw
  · exact fun hlast => (gives_ppsMissingTimeout t hs).of_eq (doPpsMissing_none t hlast)
  · exact fun k q hlast hm href hl => does_ppsMissingTimeout hs hlast hm href hl
  · exact fun h => (gives_holdLimitExpiry t hs).of_eq (doHoldLimit_idle t h)
  · exact fun h hx => does_holdLimitExpiry hs h hx

end

section
set_option Elab.async false
/-! PROOFS. Updates that leave the start, the fences and the self-test alone: what line regions, calibration, the time and the
links do writes none of the pages PKG, DMC, BIST and those of the lane and bus units. -/

namespace Sys2Proof.Machine

open Sys2Proof

/-- The pages of the package, the DRAM controllers, the lane and bus units and the self-test. -/
abbrev CorePage (p : Nat) : Prop := p = pgPkg ∨ p = pgDmc 0 ∨ p = pgDmc 1 ∨ (pgLpu 0 ≤ p ∧ p ≤ pgLpu 4) ∨ p = pgBist

/-- From `d` to `e` memory, ticks, the start, the fences, the self-test and the size of a rank stay, and the registers of those pages. -/
def OffCore (d e : Dev) : Prop :=
  e.mem = d.mem ∧ e.ticks = d.ticks ∧ e.boot = d.boot ∧ e.fenced = d.fenced ∧ e.bist = d.bist ∧ e.rankMiB = d.rankMiB ∧
  ∀ p f, CorePage p → fldAt f < 131072 → getR e p f = getR d p f

namespace OffCore

variable {d e : Dev}

theorem refl (d : Dev) : OffCore d d := ⟨rfl, rfl, rfl, rfl, rfl, rfl, fun _ _ _ _ => rfl⟩

theorem trans (a b c : Dev) (h : OffCore a b) (g : OffCore b c) : OffCore a c := by
  obtain ⟨hm, ht, hb, hf, hs, hk, hr⟩ := h
  obtain ⟨gm, gt, gb, gf, gs, gk, gr⟩ := g
  exact ⟨gm.trans hm, gt.trans ht, gb.trans hb, gf.trans hf, gs.trans hs, gk.trans hk,
    fun p f hp hlt => (gr p f hp hlt).trans (hr p f hp hlt)⟩

theorem mem (h : OffCore d e) : e.mem = d.mem := h.1
theorem ticks (h : OffCore d e) : e.ticks = d.ticks := h.2.1
theorem boot (h : OffCore d e) : e.boot = d.boot := h.2.2.1
theorem fenced (h : OffCore d e) : e.fenced = d.fenced := h.2.2.2.1
theorem bist (h : OffCore d e) : e.bist = d.bist := h.2.2.2.2.1

theorem rankMiB (h : OffCore d e) : e.rankMiB = d.rankMiB := h.2.2.2.2.2.1

theorem getR_eq (h : OffCore d e) {p : Nat} {f : Fld} (hp : CorePage p) (hf : fldAt f < 131072) : getR e p f = getR d p f :=
  h.2.2.2.2.2.2 p f hp hf

/-- A write above those pages, or within a page that is none of them. -/
theorem setR (h : OffCore d e) {p : Nat} {f : Fld} (v : Nat) (hp : pgBist < p ∨ ¬CorePage p ∧ fldAt f < 131072) :
    OffCore d (setR e p f v) := by
  obtain ⟨hm, ht, hb, hf, hs, hk, hr⟩ := h
  refine ⟨hm, ht, hb, hf, hs, hk, fun q g hq hg => (getR_setR_ne e v ?_).trans (hr q g hq hg)⟩
  obtain hp | ⟨hp, hlt⟩ := hp
  · rw [key_eq, key_eq]
    simp only [CorePage, pgPkg, pgDmc, pgLpu, pgBist] at hp hq ⊢
    omega
  · exact key_ne_page (fun he => hp (he ▸ hq)) hlt hg

theorem addC (h : OffCore d e) {p : Nat} {f : Fld} (n : Nat) (hp : pgBist < p ∨ ¬CorePage p ∧ fldAt f < 131072) :
    OffCore d (addC e p f n) := by rw [addC_eq]; exact h.setR _ hp

theorem ite {a b : Dev} {c : Prop} [Decidable c] (ha : OffCore d a) (hb : OffCore d b) : OffCore d (if c then a else b) := by
  split <;> assumption

theorem raiseOn (h : OffCore d e) (p b : Nat) (was now : Bool) : OffCore d (raiseOn e p b was now) :=
  .ite (show OffCore d (raise e p b) from h) h

theorem onlyIf {f : Dev → Dev} (h : OffCore d e) (c : Bool) (hf : OffCore e (f e)) : OffCore d (onlyIf c f e) :=
  .ite (.trans _ _ _ h hf) h

theorem foldl {α : Type} {f : Dev → α → Dev} {l : List α} (h : OffCore d e) (hf : ∀ d, ∀ a ∈ l, OffCore d (f d a)) :
    OffCore d (l.foldl f e) := .trans _ _ _ h (foldl_rel refl trans hf e)

/-- A change of Pacer's board. -/
theorem job {a : Dev} (h : OffCore d e) (g : Within noJobs (· = pgPace) e a) : OffCore d a := by
  refine .trans _ _ _ h ⟨g.field (·.mem), g.field (·.ticks), g.field (·.boot), g.field (·.fenced), g.field (·.bist),
    g.field (·.rankMiB), ?_⟩
  refine fun p f hp hf => g.keeps p f (fun hq => ?_) hf
  simp only [CorePage, pgPkg, pgDmc, pgLpu, pgBist] at hp
  simp only [pgPace] at hq
  omega

end OffCore

/-- A page of a line lies above all of them. -/
theorem pgBist_lt_line (n k : Nat) : pgBist < lineBase n + k := by unfold pgBist lineBase; omega

theorem pgBist_lt_shelf (n : Nat) : pgBist < pgShelf (dieOf n) := by
  have h : dieOf n ≠ 0 := by unfold dieOf; omega
  rw [pgShelf, if_neg h]
  unfold dieCommon pgBist
  split <;> omega

/-- The fence of region `r` is down, since now. -/
def opened (d : Dev) (r : Nat) : Dev :=
  { d with fenced := d.fenced.filter (· != r), fenceFree := Store.set d.fenceFree 0 r d.ticks }

namespace OffCore

variable {d e : Dev}

/-- A write on a page of a line. -/
theorem line (h : OffCore d e) (n k : Nat) {f : Fld} (v : Nat) : OffCore d (Machine.setR e (lineBase n + k) f v) :=
  h.setR v (.inl (pgBist_lt_line n k))

theorem lineC (h : OffCore d e) (n k : Nat) {f : Fld} (v : Nat) : OffCore d (Machine.addC e (lineBase n + k) f v) :=
  h.addC v (.inl (pgBist_lt_line n k))

/-! Calibration and its jobs. -/

theorem calShow (h : OffCore d e) (n : Nat) : OffCore d (calShow e n) := h.line n 0x11 _

theorem forceEntry (h : OffCore d e) {j : Nat} (hj : j < 48) (c : Nat) : OffCore d (forceEntry e j c) := by
  have hp {f : Fld} (hf : fldAt f < 131072) : pgBist < pgPace ∨ ¬CorePage pgPace ∧ fldAt f < 131072 := .inr ⟨by decide, hf⟩
  unfold Machine.forceEntry
  extract_lets e1 e2 own
  have h1 : OffCore d e1 := h.setR 1 (hp (by simp only [fldAt, F.PACE_J_FORCED]; omega))
  exact .ite h (h1.addC 1 (hp (by decide)))

theorem forceJob (h : OffCore d e) (o : Nat) : OffCore d (forceJob e o) := by
  unfold Machine.forceJob
  split
  case h_1 j hj => exact h.forceEntry (List.mem_range.1 (List.mem_of_find?_eq_some hj)) 1
  case h_2 => exact h

theorem calEval (h : OffCore d e) (n : Nat) : OffCore d (calEval e n) := by
  unfold Machine.calEval
  extract_lets x cs from_ el per dr hot old due a1 late now forced bits a2 e1 e2
  refine .ite (h.calShow n) (.ite ((h.job (freeJob_within e n)).calShow n) (.calShow ?_ n))
  have h1 : OffCore d e1 := h
  clear_value e1
  clear_value a2
  cases a2 with
  | none => exact h1.job (freeJob_within e1 n)
  | some a => exact .onlyIf (h1.job (postJob_within e1 _ _ _ _)) _ ((refl _).forceJob n)

theorem calDue (h : OffCore d e) (n c : Nat) : OffCore d (calDue e n c) := .ite h h

theorem svcEval (h : OffCore d e) : OffCore d (svcEval e) := by
  unfold Machine.svcEval
  extract_lets x from_ el s timer dt dr hot old due a1 late forced tb a2 e1
  refine .ite h ?_
  have h1 : OffCore d e1 := h
  clear_value e1 a2
  cases a2 with
  | none => exact h1.job (freeJob_within e1 _)
  | some a => exact .onlyIf (h1.job (postJob_within e1 _ _ _ _)) _ ((refl _).forceJob _)

theorem svcWant (h : OffCore d e) (c : Nat) : OffCore d (svcWant e c) := svcEval h

theorem enterStale (h : OffCore d e) (p u : Nat) : OffCore d (enterStale e p u) := .ite h h

theorem stalePages (h : OffCore d e) (ps : List Nat) : OffCore d (stalePages e ps) :=
  h.foldl fun d p _ => (refl d).foldl fun d u _ => (refl d).enterStale p u

/-- The fence falls: the units behind it are stale and a pass is due. -/
theorem of_unfence (d : Dev) (r : Nat) : OffCore (opened d r) (unfence d r) := by
  unfold unfence
  extract_lets e1 e2 us e3
  have h1 : OffCore (opened d r) e1 := refl _
  have h2 : OffCore (opened d r) e2 := h1.stalePages _
  have h3 : OffCore (opened d r) e3 := h2.foldl fun d u _ => refl d
  exact .ite ((h3.calDue r 7).calEval r) (.ite (h3.svcWant 7) h3)

/-! The cores of a line and its clusters. -/

theorem rxShow (h : OffCore d e) (n : Nat) : OffCore d (rxShow e n) := ((h.line n 2 _).line n 2 _).line n 2 _

theorem handOver (h : OffCore d e) (n i c t : Nat) : OffCore d (handOver e n i c t) :=
  rxShow (e := setRx (Machine.setR e (pgRx n) (coreFld i) c) n _) (h.line n 2 c) n

theorem calAbandon (h : OffCore d e) (n c : Nat) : OffCore d (calAbandon e n c) := by
  unfold Machine.calAbandon
  extract_lets x e1 pend keep e2 e3 e4
  have h1 : OffCore d e1 := .ite (h.handOver n _ _ _) h
  exact .ite h (lineC (show OffCore d e3 from h1) n 0x11 1)

theorem declareFailed (h : OffCore d e) (n c cause : Nat) : OffCore d (declareFailed e n c cause) := by
  unfold Machine.declareFailed
  extract_lets p e1 e2 x e3 k
  have h1 : OffCore d e1 := h.line n 2 (f := F.RX_FAILED) _
  have h3 : OffCore d e3 := rxShow (e := setRx e2 n _) h1 n
  exact .ite h (.onlyIf h3 _ ((refl _).calAbandon n 2))

theorem coreReturns (h : OffCore d e) (n c : Nat) : OffCore d (coreReturns e n c) := by
  unfold Machine.coreReturns
  extract_lets p mapped e1 e2 e3 e4
  have h1 : OffCore d e1 := h.line n 2 _
  have h2 : OffCore d e2 := .onlyIf h1 _ (refl e1)
  have h3 : OffCore d e3 := h2.enterStale p c
  have h4 : OffCore d e4 := h3.lineC n 2 1
  exact rxShow (calDue (e := ledgerNow e4 0x0121 n (typeCode .rx) [c]) h4 _ 4) n

theorem coreTested (h : OffCore d e) (n c v : Nat) : OffCore d (coreTested e n c v) :=
  .ite (.ite (h.lineC n 2 1) (h.declareFailed n c 0)) (.ite (h.coreReturns n c) h)

theorem poolShow (h : OffCore d e) (n : Nat) : OffCore d (poolShow e (dieOf n)) := by
  have hp := pgBist_lt_shelf n
  unfold Machine.poolShow
  extract_lets was now e1 e2 e3
  exact (((h.setR _ (.inl hp)).setR _ (.inl hp)).setR _ (.inl hp)).raiseOn _ _ _ _

theorem freeShelf (h : OffCore d e) (n q k : Nat) : OffCore d (freeShelf e (dieOf n) q k) := by
  have hp := pgBist_lt_shelf n
  unfold Machine.freeShelf
  extract_lets x mine e1 e2
  exact .ite h (poolShow ((show OffCore d e1 from h).setR _ (.inl hp)) n)

theorem coreLost (h : OffCore d e) (n k : Nat) : OffCore d (coreLost n e k) := by
  have hp : pgBist < pgStride n k := by unfold pgStride; rw [Nat.add_assoc]; exact pgBist_lt_line n _
  unfold Machine.coreLost
  extract_lets st p e1 e2 e3 e4
  have hw : OffCore d (waitNote e n k) := by
    unfold Machine.waitNote
    extract_lets x c
    exact .ite h ((show OffCore d (setCore e n k _) from h).addC _ (.inl hp))
  have h1 : OffCore d e1 := by
    unfold e1 dropShelf
    extract_lets x
    exact .ite (show OffCore d (setCore (Machine.freeShelf (waitNote e n k) _ _ 1) n k _) from hw.freeShelf n _ 1) hw
  have h2 : OffCore d e2 := .onlyIf h1 _ ((refl e1).setR 1 (.inl hp))
  have h4 : OffCore d e4 := (show OffCore d e3 from h2).foldl fun d i _ => (refl d).setR _ (.inl hp)
  have h5 : OffCore d (clShow (Machine.setR e4 (pgStride n k) cSTATE 0) n) := (h4.setR 0 (.inl hp)).line n 0x12 _
  exact (h5.setR _ (.inl hp)).setR _ (.inl hp)

theorem pinHold (h : OffCore d e) (p : Pin) : OffCore d (pinHold e p) := h

theorem setStarter (h : OffCore d e) (n : Nat) (x : StarterSt) : OffCore d (setStarter e n x) := h

theorem emit (h : OffCore d e) (o : Output) : OffCore d (emit e o) := h

theorem gatesOff (h : OffCore d e) (n : Nat) : OffCore d (gatesOff e n) := by
  have ht : OffCore d (tgateHold e n) := .pinHold (.onlyIf h _ ((refl e).setStarter n _)) _
  unfold Machine.gatesOff
  extract_lets e1 e2
  exact (((ht.pinHold (.pgate n)).emit _).emit _).setStarter n _

theorem gateUnit (h : OffCore d e) (n c : Nat) : OffCore d (gateUnit e n c) := by
  unfold Machine.gateUnit
  extract_lets e1 e2 e3
  have h1 : OffCore d e1 := .ite (h.foldl fun d i _ => (refl d).coreLost n _) h
  have h2 : OffCore d e2 := h1.onlyIf _ ((refl e1).calAbandon n 0)
  have h3 : OffCore d e3 := h2.onlyIf _ ((refl e2).gatesOff n)
  exact .ite h (.ite h3 h3)

theorem svcCalAbandon (h : OffCore d e) : OffCore d (svcCalAbandon e) := by
  have hp {f : Fld} (hf : fldAt f < 131072) : pgBist < pgSvc ∨ ¬CorePage pgSvc ∧ fldAt f < 131072 := .inr ⟨by decide, hf⟩
  unfold Machine.svcCalAbandon
  extract_lets x e1 e2 e3
  have h1 : OffCore d e1 := h
  have h2 : OffCore d e2 := (h1.setR 0 (hp (by decide))).setR 0 (hp (by decide))
  exact .ite h (show OffCore d e3 from h2.foldl fun d c _ => refl d)

/-! The checkers of the lines' cores. -/

theorem checkPages (h : OffCore d e) {p : Nat} {f : Fld} (v : Nat) (hp : pgLpu 5 ≤ p ∧ p ≤ pgLpu 7) (hf : fldAt f < 131072) :
    OffCore d (Machine.setR e p f v) := h.setR v (.inr ⟨by simp only [CorePage, pgPkg, pgDmc, pgLpu, pgBist] at hp ⊢; omega, hf⟩)

theorem lpuShow (h : OffCore d e) {i : Nat} (hi : 5 ≤ i ∧ i ≤ 7) : OffCore d (lpuShow e i) :=
  h.checkPages _ (by simp only [pgLpu]; omega) (by decide)

theorem checkShowVals (h : OffCore d e) {n : Nat} (hn : n < 12) (s : Nat) (l : List Int) : OffCore d (checkShowVals e n s l) := by
  have hc : pgLpu 5 ≤ checkPage n ∧ checkPage n ≤ pgLpu 7 := by simp only [checkPage, pgLpu]; omega
  unfold Machine.checkShowVals Machine.setS
  extract_lets e1
  by_cases hs : s < 5
  · have hf : fldAt (F.LPUA_AMP (n % 6) s) < 131072 ∧ fldAt (F.LPUA_PHASE (n % 6) s) < 131072 := by
      simp only [fldAt, F.LPUA_AMP, F.LPUA_PHASE]; omega
    rw [if_pos hs]
    exact (h.checkPages _ hc hf.1).checkPages _ hc hf.2
  · rw [if_neg hs]
    have hf (c : Nat) (hc : c < 2) : fldAt (F.LPUA_AMP n c) < 131072 := by simp only [fldAt, F.LPUA_AMP]; omega
    exact .ite ((h.checkPages _ (by decide) (hf 0 (by omega))).checkPages _ (by decide) (hf 1 (by omega))) h

theorem checkerRuns (h : OffCore d e) {n : Nat} (hn : n < 12) (s : Nat) : OffCore d (checkerRuns e n s) := by
  have hc : pgLpu 5 ≤ checkPage n ∧ checkPage n ≤ pgLpu 7 := by simp only [checkPage, pgLpu]; omega
  have hf (u : Nat) (hu : u < 12) : fldAt (F.LPUA_UNIT_STATE u) < 131072 ∧ fldAt (F.LPUA_VERDICT u) < 131072 := by
    simp only [fldAt, F.LPUA_UNIT_STATE, F.LPUA_VERDICT]; omega
  refine .ite (lpuShow ?_ (by omega)) (.ite (lpuShow ?_ (by omega)) h)
  · exact (h.checkPages _ hc (hf _ (by omega)).1).checkPages _ hc (hf _ (by omega)).2
  · exact (h.checkPages _ (by decide) (hf _ hn).1).checkPages _ (by decide) (hf _ hn).2

theorem checkerDone (h : OffCore d e) (b : BistSt) {n : Nat} (hn : n < 12) (s : Nat) : OffCore d (checkerDone e b n s) := by
  unfold Machine.checkerDone
  extract_lets judge put
  have hput {i u : Nat} (v : Nat) (hi : 5 ≤ i ∧ i ≤ 7) (hu : u < 12) : OffCore d (put e i u v) := by
    have hp : pgLpu 5 ≤ pgLpu i ∧ pgLpu i ≤ pgLpu 7 := by simp only [pgLpu]; omega
    have h1 : OffCore d (Machine.setR (Machine.setR e (pgLpu i) (F.LPUA_UNIT_STATE u) 3) (pgLpu i) (F.LPUA_VERDICT u) v) :=
      (h.checkPages _ hp (by simp only [fldAt, F.LPUA_UNIT_STATE]; omega)).checkPages _ hp
        (by simp only [fldAt, F.LPUA_VERDICT]; omega)
    exact lpuShow (e := raise _ (pgLpu i) (8 + u)) h1 hi
  exact .ite (hput _ (by omega) (by omega)) (.ite (hput _ (by omega) hn) h)

end OffCore

end Sys2Proof.Machine
end

section
set_option Elab.async false
/-! PROOFS. What shows a line and the time, and the links of Baton and the network, leave the start, the fences and the self-test
alone. -/

namespace Sys2Proof.Machine

open Sys2Proof

namespace OffCore

variable {d e : Dev}

/-! The pages of lines. -/

theorem head (h : OffCore d e) (n : Nat) {f : Fld} (v : Nat) : OffCore d (Machine.setR e (pgLine n) f v) :=
  h.setR v (.inl (pgBist_lt_line n 0))

theorem headC (h : OffCore d e) (n : Nat) {f : Fld} (v : Nat) : OffCore d (Machine.addC e (pgLine n) f v) :=
  h.addC v (.inl (pgBist_lt_line n 0))

theorem bankUp (h : OffCore d e) (n s b : Nat) : OffCore d (bankUp n s b e) := by
  unfold Machine.bankUp
  extract_lets f run load
  have hl : OffCore d (Machine.onlyIf load (fun d => coefLoad d n s b) e) := .ite (a := coefLoad e n s b) h h
  exact hl.setR _ (.inl (by unfold pgSlot; rw [Nat.add_assoc]; exact pgBist_lt_line n _))

theorem pipeShow (h : OffCore d e) (n s : Nat) : OffCore d (pipeShow e n s) := by
  have hp : pgBist < pgSlot n s := by unfold pgSlot; rw [Nat.add_assoc]; exact pgBist_lt_line n _
  unfold Machine.pipeShow Machine.bankShow
  extract_lets p e1 e2 e3
  have h3 : OffCore d e3 :=
    ((((h.setR _ (.inl hp)).setR _ (.inl hp)).setR _ (.inl hp)).bankUp n s 0).bankUp n s 1
  exact .ite (h3.setR _ (.inl hp)) (.ite (h3.setR _ (.inl hp)) h3)

theorem pipesShow (h : OffCore d e) (n : Nat) : OffCore d (pipesShow e n) := h.foldl fun d s _ => (refl d).pipeShow n s

theorem eligShow (h : OffCore d e) (n : Nat) : OffCore d (eligShow e n) := by
  unfold Machine.eligShow
  extract_lets was
  exact .ite (.ite h h) h

theorem lineShow (h : OffCore d e) (n cause : Nat) : OffCore d (lineShow e n cause) := by
  unfold Machine.lineShow
  extract_lets p was now e1 e2 e3
  have h1 : OffCore d e1 := h.head n _
  have h2 : OffCore d e2 := ((show OffCore d (safeSpan e1 n was now) from h1).head n _).line n 1 _
  have h3 : OffCore d e3 := h2
  exact .ite h1 ((h3.eligShow n).pipesShow n)

theorem lineUnsync (h : OffCore d e) (n : Nat) : OffCore d (lineUnsync e n) := by
  unfold Machine.lineUnsync
  extract_lets x e1 p e2
  have h2 : OffCore d e2 := h
  have h3 : OffCore d (raise (Machine.setR e2 p F.LINE_SYNC_LOST 1) p 10) := h2.head n (f := F.LINE_SYNC_LOST) 1
  exact .ite h ((h3.headC n 1).lineShow n 1)

/-! What follows the time. -/

theorem gridInvalid (h : OffCore d e) : OffCore d (gridInvalid e) := h.foldl fun d n _ => (refl d).lineUnsync n

theorem gridValid (h : OffCore d e) : OffCore d (gridValid e) := by
  refine h.foldl fun a n _ => ?_
  extract_lets x
  exact .ite (show OffCore a (setLine a n _) from refl a) (refl a)

theorem squelchNow (h : OffCore d e) : OffCore d (squelchNow e) := by
  unfold Machine.squelchNow
  extract_lets
  exact .ite h (.ite h h)

theorem freqShow (h : OffCore d e) : OffCore d (freqShow e) := by
  unfold Machine.freqShow freqTo
  extract_lets
  exact .ite (.ite h h) h

/-- A write on page TIME, on that of a PTP port or on that of the backup domain. -/
theorem time (h : OffCore d e) {f : Fld} (v : Nat) (hf : fldAt f < 131072) : OffCore d (Machine.setR e pgTime f v) :=
  h.setR v (.inr ⟨by decide, hf⟩)

theorem qualShow (h : OffCore d e) : OffCore d (qualShow e) := by
  unfold Machine.qualShow
  extract_lets was now e1 t1 e2 t2 e3 e4
  have h1 : OffCore d e1 := (h.time _ (by decide)).time _ (by decide)
  have h2 : OffCore d e2 := .ite h1 h1
  clear_value e2
  have h4 : OffCore d e4 := squelchNow (.ite h2 h2)
  clear_value e4
  have h5 : OffCore d (raise e4 pgTime 14) := h4
  exact .ite h4 (.ite h5.gridValid h5.gridInvalid)

theorem bkpStep (h : OffCore d e) : OffCore d (bkpStep e) :=
  .ite ((show OffCore d { e with bkpBase := e.time.base } from h).setR _ (.inr (by decide))) h

theorem ptpShow (h : OffCore d e) {i : Nat} (hi : i < 2) : OffCore d (ptpShow e i) := by
  have hp {f : Fld} (hf : fldAt f < 131072) : pgBist < pgPtp i ∨ ¬CorePage (pgPtp i) ∧ fldAt f < 131072 :=
    .inr ⟨by simp only [CorePage, pgPkg, pgDmc, pgLpu, pgBist, pgPtp]; omega, hf⟩
  unfold Machine.ptpShow
  extract_lets p bad was e1 a e2
  have h1 : OffCore d e1 := (h.setR (b2n bad) (hp (by decide))).raiseOn p 9 was bad
  clear_value e1
  exact ((h1.setR _ (hp (by decide))).setR _ (hp (by decide))).setR _ (hp (by decide))

theorem timeShow (h : OffCore d e) : OffCore d (timeShow e) := by
  unfold Machine.timeShow
  extract_lets was now e1 t1 e2 e3
  have h2 : OffCore d e2 := by
    have h1 : OffCore d e1 := h.time (f := cSTATE) now (by decide)
    clear_value e1
    refine .ite h (.ite ?_ (.ite (h1.time _ (by decide)) h1))
    exact (show OffCore d { e1 with time := t1 } from h1).time _ (by decide)
  clear_value e2
  exact (h2.freqShow.qualShow.bkpStep.ptpShow (by decide)).ptpShow (by decide)

theorem warmShow (h : OffCore d e) : OffCore d (warmShow e) := by
  unfold Machine.warmShow
  extract_lets cs cause was now t1 e1 e2
  have h1 : OffCore d e1 := h
  exact timeShow (.ite h1 (h1.time (f := F.TIME_OCXO_WARM) _ (by decide)))

/-! The links of Baton and the network. -/

theorem loseLock (h : OffCore d e) : OffCore d (loseLock e) := by
  unfold Machine.loseLock holdFreq freqTo
  extract_lets l g t e1
  have he : OffCore d e1 := .ite h (.ite h h)
  exact .ite h he

/-- A write on page BATON. -/
theorem baton (h : OffCore d e) {f : Fld} (v : Nat) (hf : fldAt f < 131072) : OffCore d (Machine.setR e pgBtn f v) :=
  h.setR v (.inr ⟨by decide, hf⟩)

theorem upLock (h : OffCore d e) (on : Bool) : OffCore d (upLock e on) := by
  unfold Machine.upLock
  extract_lets was e1 t e2
  have h1 : OffCore d e1 := h.baton (f := F.BTN_UP_LOCKED) (b2n on) (by decide)
  clear_value e1
  have h2 : OffCore d e2 := h1.loseLock
  clear_value e2
  refine .ite h (.ite h1 (.ite ?_ h2))
  exact time (f := F.TIME_HOLD_EXCEEDED) (show OffCore d { e1 with time := _ } from h1) 0 (by decide)

theorem linkPut (h : OffCore d e) (port v : Nat) : OffCore d (linkPut e port v) := by
  have hf : fldAt (btnFld port) < 131072 := by unfold btnFld; split <;> decide
  unfold Machine.linkPut
  extract_lets was e1 e2 at_ b1 b2 b3 e3 e4 e5 t e6
  have h1 : OffCore d e1 := h.baton v hf
  clear_value e1
  have h3 : OffCore d e3 := .onlyIf (show OffCore d { e2 with baton := b3 } from h1) _ ((refl _).addC 1 (.inr (by decide)))
  clear_value e3
  have h5 : OffCore d e5 := (h3.baton (f := F.BTN_UP_CAL) 0 (by decide)).upLock false
  clear_value e5
  have h6 : OffCore d e6 := h5
  clear_value e6
  exact .ite h (.ite (warmShow (.onlyIf h6 _ (refl e6))) h3)

theorem ethLink (h : OffCore d e) {i k : Nat} (hi : i < 2) (hk : k < 4) (v : Nat) : OffCore d (setLink e i k v) := by
  have hp : ¬CorePage (pgEth i) := by simp only [CorePage, pgPkg, pgDmc, pgLpu, pgBist, pgEth]; omega
  have hf : fldAt (F.ETH_LINK k) < 131072 := by simp only [fldAt, F.ETH_LINK]; omega
  unfold Machine.setLink
  extract_lets was up n e1 e2 e3
  have h1 : OffCore d e1 := .ite h h
  clear_value e1
  have h2 : OffCore d e2 := h1.setR v (.inr ⟨hp, hf⟩)
  clear_value e2
  have h3 : OffCore d e3 := .ite (show OffCore d (raise e2 (pgEth i) 8) from h2) h2
  clear_value e3
  have h4 : OffCore d (bump e3 (pgEth i) F.ETH_LINK_DOWNS) := h3.addC 1 (.inr ⟨hp, by decide⟩)
  exact .ite (show OffCore d (raise (bump e3 (pgEth i) F.ETH_LINK_DOWNS) (pgEth i) 9) from h4) h3

theorem ethShow (h : OffCore d e) {i : Nat} (hi : i < 2) (fault : Bool) : OffCore d (ethShow e i fault) :=
  h.setR _ (.inr ⟨by simp only [CorePage, pgPkg, pgDmc, pgLpu, pgBist, pgEth]; omega, by decide⟩)

theorem laneDown (h : OffCore d e) (i : Nat) {u : Nat} (hu : u < 8) : OffCore d (laneDown e i u) := by
  unfold Machine.laneDown
  split
  · refine ethShow (h.foldl fun d k hk => ?_) (by omega) false
    have hports : subPorts e (u / 4) ≤ 4 := by
      unfold subPorts
      extract_lets m
      split
      · omega
      · split <;> omega
    exact (refl d).ethLink (by omega) (lt_of_lt_of_le (List.mem_range.1 hk) hports) 0
  · split
    · exact h.linkPut u 0
    · exact h

end OffCore

end Sys2Proof.Machine
end

section
set_option Elab.async false
/-! PROOFS. The self-test (R465–R471): how a slice begins and ends, what a released region leaves, and the end of a run. -/

namespace Sys2Proof.Machine

open Sys2Proof

/-! ### The STATUS of the page and the end of a run (R468–R470) -/

@[simp] theorem isFenced_settle (d : Dev) (r : Nat) : isFenced (settle d) r = isFenced d r := by simp [isFenced]

/-- A slice is under test or waits for its turn. -/
def bistRunning (b : Option BistSt) : Bool :=
  match b with
  | none => false
  | some b => b.cur.isSome || !b.todo.isEmpty

section
variable (d : Dev) (b : Option BistSt)

theorem bistPut_eq : bistPut d b =
    setR (setR { d with bist := b } pgBist cSTATE (b2n (bistRunning b))) pgBist cBUSY (b2n (bistRunning b)) := by
  cases b <;> rfl

@[simp] theorem bist_bistPut : (bistPut d b).bist = b := rfl
@[simp] theorem fenced_bistPut : (bistPut d b).fenced = d.fenced := rfl
@[simp] theorem boot_bistPut : (bistPut d b).boot = d.boot := rfl
@[simp] theorem ticks_bistPut : (bistPut d b).ticks = d.ticks := rfl
@[simp] theorem evtRaw_bistPut (p : Nat) : evtRaw (bistPut d b) p = evtRaw d p := rfl
@[simp] theorem isFenced_bistPut (r : Nat) : isFenced (bistPut d b) r = isFenced d r := rfl

theorem state_bistPut : getR (bistPut d b) pgBist cSTATE = b2n (bistRunning b) := by
  rw [bistPut_eq, getR_setR_fld _ _ _ (by decide), getR_setR_self]
  cases bistRunning b <;> rfl

theorem getR_bistPut {f : Fld} (hf : fldAt f ≠ fldAt cSTATE ∧ fldAt f ≠ fldAt cBUSY) :
    getR (bistPut d b) pgBist f = getR d pgBist f := by
  rw [bistPut_eq, getR_setR_fld _ _ _ hf.2.symm, getR_setR_fld _ _ _ hf.1.symm]
  rfl

end

/-- The number of runs. -/
abbrev bistRuns (d : Dev) : Nat := getR d pgBist F.BIST_RUNS

theorem runs_bistPut (d : Dev) (b : Option BistSt) : bistRuns (bistPut d b) = bistRuns d := getR_bistPut d b (by decide)

theorem OffCore.runs {d e : Dev} (h : OffCore d e) : bistRuns e = bistRuns d :=
  h.getR_eq (.inr (.inr (.inr (.inr rfl)))) (by decide)

section
variable (d : Dev) (b : BistSt)

/-- A run that ends counts, shows DONE, or a failure with it, and is gone. -/
theorem bistFinish_spec : (bistFinish d b).bist = none ∧ (bistFinish d b).fenced = d.fenced ∧ (bistFinish d b).ticks = d.ticks ∧
    bistRuns (bistFinish d b) = min (bistRuns d + 1) (2 ^ 32 - 1) ∧ getR (bistFinish d b) pgBist cSTATE = 0 ∧
    (evtRaw (bistFinish d b) pgBist).testBit 8 = true := by
  unfold bistFinish
  extract_lets p vs e1 e2 e3
  have hruns : bistRuns e1 = min (bistRuns d + 1) (2 ^ 32 - 1) := by
    rw [bistRuns, getR_setR_fld _ _ _ (by decide)]
    exact getR_addC_narrow d pgBist 1 (by decide)
  have hd : e1.fenced = d.fenced ∧ e1.ticks = d.ticks := by
    constructor <;> (unfold e1 bump; rw [addC_eq]; rfl)
  clear_value e1
  have h2 : bistRuns e2 = bistRuns e1 ∧ e2.fenced = e1.fenced ∧ e2.ticks = e1.ticks ∧ (evtRaw e2 pgBist).testBit 8 = true := by
    have h8 : (evtRaw (raise e1 p 8) pgBist).testBit 8 = true := raise_bit e1 p 8
    unfold e2 onlyIf
    split
    · exact ⟨rfl, rfl, rfl, raise_mono _ _ _ _ _ h8⟩
    · exact ⟨rfl, rfl, rfl, h8⟩
  clear_value e2
  have h3 : bistRuns e3 = bistRuns e2 ∧ e3.fenced = e2.fenced ∧ e3.ticks = e2.ticks ∧ evtRaw e3 pgBist = evtRaw e2 pgBist := by
    unfold e3
    split <;> exact ⟨rfl, rfl, rfl, rfl⟩
  clear_value e3
  obtain ⟨hr2, hf2, ht2, h8⟩ := h2
  obtain ⟨hr3, hf3, ht3, hv3⟩ := h3
  refine ⟨rfl, (hf3.trans hf2).trans hd.1, (ht3.trans ht2).trans hd.2, ?_, state_bistPut _ _, ?_⟩
  · rw [runs_bistPut, hr3, hr2, hruns]
  · rw [evtRaw_bistPut, hv3]
    exact h8

/-- The tests that have begun are done: the run of a start rests, another ends. -/
theorem bistRest_start (h : b.cause = 1) : bistRest d b =
    bistPut d (some { b with before := b.before + (d.ticks - b.startAt), startAt := d.ticks }) := if_pos h

theorem bistRest_other (h : b.cause ≠ 1) : bistRest d b = bistFinish d b := if_neg h

theorem fenced_bistRest : (bistRest d b).fenced = d.fenced := by
  obtain ⟨-, hf, -⟩ := bistFinish_spec d b
  unfold bistRest
  split
  · rfl
  · exact hf

theorem ticks_bistRest : (bistRest d b).ticks = d.ticks := by
  obtain ⟨-, -, ht, -⟩ := bistFinish_spec d b
  unfold bistRest
  split
  · rfl
  · exact ht

end

/-! ### A region is released (R467) -/

section
variable (d : Dev) (b : BistSt) (r : Nat)

theorem regionShow_moved : Moved noRegs [(pgBist, F.BIST_SLICES r), (pgBist, F.BIST_DURATION_US r), (pgBist, F.BIST_VERDICT r),
    (pgBist, F.BIST_FIRST_BAD r), (pgBist, F.BIST_FAIL_SIG_LO r)] d (regionShow d b r) := by
  unfold regionShow
  extract_lets p vs half code fb some_ sig us e1 e2
  have h1 : Moved noRegs [(pgBist, F.BIST_SLICES r), (pgBist, F.BIST_DURATION_US r), (pgBist, F.BIST_VERDICT r),
      (pgBist, F.BIST_FIRST_BAD r), (pgBist, F.BIST_FAIL_SIG_LO r)] d e1 :=
    .then_setR (.of_setR d _ (by simp [p])) (by simp [p])
  exact ((h1.then_setR (by simp [p])).then_setR (by simp [p])).then_setR (by simp [p])

theorem runs_regionShow : bistRuns (regionShow d b r) = bistRuns d :=
  (regionShow_moved d b r).getR_fld (by
    simp only [List.mem_cons, List.not_mem_nil, or_false, fldAt, F.BIST_SLICES, F.BIST_DURATION_US, F.BIST_VERDICT,
      F.BIST_FIRST_BAD, F.BIST_FAIL_SIG_LO, F.BIST_RUNS]
    rintro x (rfl | rfl | rfl | rfl | rfl) <;> exact ⟨rfl, by dsimp only; omega⟩)

theorem bistRelease_offCore : OffCore (opened (regionShow d b r) r) (bistRelease d b r).1 :=
  (OffCore.of_unfence _ r).foldl fun d c _ => (OffCore.refl d).gateUnit r c

/-- The fence of the region is down. -/
theorem isFenced_bistRelease : isFenced (bistRelease d b r).1 r = false := by
  rw [isFenced, (bistRelease_offCore d b r).fenced]
  simp [opened]

theorem runs_bistRelease : bistRuns (bistRelease d b r).1 = bistRuns d :=
  (bistRelease_offCore d b r).runs.trans (runs_regionShow d b r)

theorem ticks_bistRelease : (bistRelease d b r).1.ticks = d.ticks :=
  (bistRelease_offCore d b r).ticks.trans ((regionShow_moved d b r).field Dev.ticks)

end

/-! ### A slice ends (R464–R466, R468) -/

/-- A rank of a channel is retired: on the controller's page only. -/
theorem retire_moved (d : Dev) (c r : Nat) : Moved noDmcShow
    [(pgDmc c, F.DMC_RANK_STATE), (pgDmc c, F.DMC_MIG_DONE), (pgDmc c, cSTATE)] d (retire d c r none) := by
  unfold retire
  extract_lets st
  split
  · exact .refl d
  split
  · exact .refl d
  split
  · exact ((((((Moved.refl d).then_setDmc).then_setRank (by simp)).then_setRank (by simp)).then_setR (by simp)).then_setR
      (by simp)).then_raise.then_ledgerNow
  · exact ((Moved.refl d).then_setRank (by simp)).then_ledgerNow

/-- From `d` to `e` no tick passes and no run is counted. -/
def SameRuns (d e : Dev) : Prop := e.ticks = d.ticks ∧ bistRuns e = bistRuns d

namespace SameRuns

theorem refl (d : Dev) : SameRuns d d := ⟨rfl, rfl⟩

theorem trans (a b c : Dev) (h : SameRuns a b) (g : SameRuns b c) : SameRuns a c := ⟨g.1.trans h.1, g.2.trans h.2⟩

theorem of_offCore {d e : Dev} (h : OffCore d e) : SameRuns d e := ⟨h.ticks, h.runs⟩

theorem of_retire {c : Nat} (d : Dev) (hc : c < 2) (r : Nat) : SameRuns d (retire d c r none) :=
  ⟨(retire_moved d c r).field Dev.ticks, (retire_moved d c r).getR_page (by decide) (by
    simp only [List.mem_cons, List.not_mem_nil, or_false]
    rintro x (rfl | rfl | rfl) <;> refine ⟨by simp only [pgDmc, pgBist]; omega, by dsimp only; decide⟩)⟩

theorem of_setR {p : Nat} {f : Fld} (d : Dev) (v : Nat) (hp : p ≠ pgBist) (hf : fldAt f < 131072) : SameRuns d (setR d p f v) :=
  ⟨rfl, getR_setR_page d v hp hf (by decide)⟩

theorem of_sliceActs (d : Dev) (b : BistSt) (r s v : Nat) (l : List Int) : SameRuns d (sliceActs d b r s v l) := by
  unfold sliceActs
  split
  · exact of_offCore ((OffCore.refl d).coreTested r s v)
  split
  · exact refl d
  split
  · exact of_setR d _ (by decide) (by decide)
  split
  · refine foldl_rel refl trans (fun d e he => ?_) d
    have hc := (List.mem_filter.1 he).2
    simp only [Bool.and_eq_true, decide_eq_true_eq] at hc
    exact of_retire d hc.1 e.2
  · exact refl d

end SameRuns

/-- The run after a slice of region `r` with the record `e`. -/
def sliceDone (b : BistSt) (e : List Nat) : BistSt := { b with cur := none, done := e :: b.done }

/-- What a slice that ends has done before its region is released. -/
def sliceJudged (d : Dev) (b : BistSt) (r s v sig count : Nat) (vals : List Int) (budget : Bool) : Dev :=
  let d := sliceActs (almanacShow d b b.done) b r s v vals
  let d := if r < 12 then checkerDone d b r (if budget then (if s < 5 then 4 else s) else s) else d
  onlyIf (decide (2 ≤ v) && b.cause != 0)
    (fun d => testEntry d 0x0802 (typeCode .bist) (sliceBytes [r, s, v, sig, count])) d

theorem sliceJudged_same (d : Dev) (b : BistSt) (r s v sig count : Nat) (vals : List Int) (budget : Bool) :
    SameRuns d (sliceJudged d b r s v sig count vals budget) := by
  unfold sliceJudged
  extract_lets e1 e2
  have h1 : SameRuns d e1 := SameRuns.of_sliceActs (almanacShow d b b.done) b r s v vals
  have h2 : SameRuns e1 e2 := by
    by_cases hr : r < 12
    · rw [show e2 = _ from if_pos hr]
      exact .of_offCore ((OffCore.refl e1).checkerDone b hr _)
    · rw [show e2 = e1 from if_neg hr]
      exact .refl e1
  clear_value e2
  refine (h1.trans _ _ _ h2).trans _ _ _ ?_
  unfold onlyIf
  split
  · exact ⟨rfl, rfl⟩
  · exact .refl e2

theorem sliceEnd_eq (d : Dev) (b : BistSt) (r s v sig count : Nat) (vals : List Int) (budget : Bool) :
    sliceEnd d b r s v sig count vals budget =
      let b := { sliceDone b [r, s, v, sig, count] with todo := if budget then [] else b.todo }
      let d := sliceJudged d b r s v sig count vals budget
      let x := if b.todo.any (fun e => e.1 == r) then (d, b) else bistRelease d b r
      if x.2.todo.isEmpty then bistRest x.1 x.2 else bistPut x.1 (some x.2) := rfl

/-- What the end of a slice of region `r` leaves, `e` being its record and `n` the number of runs before. -/
def SliceEnded (b : BistSt) (r : Nat) (e : List Nat) (n : Nat) (d : Dev) : Prop :=
  ((∃ x ∈ b.todo, x.1 = r) → d.bist = some (sliceDone b e)) ∧
  ((∀ x ∈ b.todo, x.1 ≠ r) → isFenced d r = false ∧
    (b.todo ≠ [] → d.bist = some { sliceDone b e with lent := [] }) ∧
    (b.todo = [] → b.cause ≠ 1 → d.bist = none ∧ bistRuns d = min (n + 1) (2 ^ 32 - 1)))

section
variable {d : Dev} {b : BistSt} {r s v sig count : Nat} {vals : List Int}

/-- Other slices of the region wait: the run goes on behind the fence. -/
theorem sliceEnd_waits (h : ∃ x ∈ b.todo, x.1 = r) : sliceEnd d b r s v sig count vals false =
    bistPut (sliceJudged d (sliceDone b [r, s, v, sig, count]) r s v sig count vals false)
      (some (sliceDone b [r, s, v, sig, count])) := by
  have hany : b.todo.any (fun e => e.1 == r) = true := by simpa using h
  have hne : b.todo.isEmpty = false := by
    obtain ⟨x, hx, -⟩ := h
    cases hb : b.todo with
    | nil => rw [hb] at hx; cases hx
    | cons => rfl
  rw [sliceEnd_eq]
  simp only [Bool.false_eq_true, if_false, hany, if_true, sliceDone, hne]

/-- It was the region's last slice: its fence falls. -/
theorem sliceEnd_last (h : ∀ x ∈ b.todo, x.1 ≠ r) : sliceEnd d b r s v sig count vals false =
    let c := sliceDone b [r, s, v, sig, count]
    let e := (bistRelease (sliceJudged d c r s v sig count vals false) c r).1
    if b.todo.isEmpty then bistRest e { c with lent := [] } else bistPut e (some { c with lent := [] }) := by
  have hany : b.todo.any (fun e => e.1 == r) = false := by simpa using h
  rw [sliceEnd_eq]
  simp only [Bool.false_eq_true, if_false, sliceDone, hany]
  rfl

theorem sliceEnd_ended : SliceEnded b r [r, s, v, sig, count] (bistRuns d) (sliceEnd d b r s v sig count vals false) := by
  refine ⟨fun h => by rw [sliceEnd_waits h]; rfl, fun h => ?_⟩
  rw [sliceEnd_last h]
  extract_lets c e
  have hf : isFenced e r = false := isFenced_bistRelease _ _ _
  have hn : bistRuns e = bistRuns d := (runs_bistRelease _ _ _).trans (sliceJudged_same d c r s v sig count vals false).2
  clear_value e
  refine ⟨?_, fun hne => ?_, fun he hc => ?_⟩
  · split
    · rw [isFenced, fenced_bistRest]; exact hf
    · exact hf
  · rw [if_neg (by simpa using hne)]
    rfl
  · have hb := bistFinish_spec e { c with lent := [] }
    obtain ⟨hbist, -, -, hruns, -⟩ := hb
    rw [he, if_pos List.isEmpty_nil, bistRest_other e { c with lent := [] } hc]
    exact ⟨hbist, by rw [hruns, hn]⟩

end

/-! ### A slice begins (R467, R468) -/

/-- The fence of a region under test: the time stays and the run goes on. -/
theorem bistFence_spec (d : Dev) (b : BistSt) (r : Nat) : isFenced (bistFence d b r).1 r = true ∧
    (bistFence d b r).1.ticks = d.ticks ∧ ∃ l, (bistFence d b r).2 = { b with regionAt := d.ticks, lent := l } := by
  unfold bistFence
  extract_lets lend e1 e2 e3 e4 e5
  have h1 : OffCore d e1 := .ite ((OffCore.refl d).calAbandon r 0) (.ite (OffCore.refl d).svcCalAbandon (.refl d))
  have h2 : OffCore d e2 := .ite (h1.foldl fun d k _ => (OffCore.refl d).coreLost r k) h1
  have h3 : OffCore d e3 := h2.foldl fun d c _ => OffCore.refl d
  have h5 : e5.fenced = e4.fenced ∧ e5.ticks = e4.ticks := by
    unfold e5
    split <;> exact ⟨rfl, rfl⟩
  have ht : e5.ticks = d.ticks := h5.2.trans h3.ticks
  refine ⟨?_, ht, lend, by rw [← ht]⟩
  rw [isFenced, h5.1]
  simp [e4]

theorem slices_almanacShow (d : Dev) (b : BistSt) (l : List (List Nat)) : (almanacShow d b l).boot.slices = l := by
  unfold almanacShow
  dsimp only
  split <;> rfl

/-- The run as slice `k` of region `r` begins. -/
def sliceBegun (b : BistSt) (r k now : Nat) (q : List (Nat × Nat)) : BistSt := { b with cur := some (r, k, now), todo := q }

/-- The next slice begins: its record and its region's fence first. -/
theorem doSliceStart_begins {d : Dev} {b : BistSt} {r k t : Nat} {q : List (Nat × Nat)} (hb : d.bist = some b) (hc : b.cur = none)
    (hq : b.todo = (r, k) :: q) (hf : Store.get d.boot.freeAt 0 r = 0) (hlt : max d.ticks t < budgetEnd d b) :
    doSliceStart t d =
      let x := if isFenced d r then (advance d t, b) else bistFence (advance d t) b r
      let c := sliceBegun x.2 r k x.1.ticks q
      let e := almanacShow x.1 c ([r, k, 5, 0, 0] :: c.done)
      bistPut (if r < 12 then checkerRuns e r k else e) (some c) := by
  have hb' : (advance d t).bist = some b := hb
  have hf' : ¬Store.get (advance d t).boot.freeAt 0 r ≠ 0 := not_not.2 hf
  have hlt' : ¬budgetEnd (advance d t) b ≤ (advance d t).ticks := Nat.not_le.2 hlt
  unfold doSliceStart
  simp only [hb', hc, hq, if_neg hf', if_neg hlt']
  by_cases h : isFenced d r = true
  · have h' : isFenced (advance d t) r = true := h
    simp only [h, h', if_true]
    rfl
  · have h' : ¬isFenced (advance d t) r = true := h
    obtain ⟨-, ht, -⟩ := bistFence_spec (advance d t) b r
    simp only [h, h', Bool.false_eq_true, if_false, sliceBegun, ht]

theorem doSliceStart_spec {d : Dev} {b : BistSt} {r k t : Nat} {q : List (Nat × Nat)} (hb : d.bist = some b) (hc : b.cur = none)
    (hq : b.todo = (r, k) :: q) (hf : Store.get d.boot.freeAt 0 r = 0) (hlt : max d.ticks t < budgetEnd d b) :
    isFenced (doSliceStart t d) r = true ∧ (∃ c, (doSliceStart t d).bist = some c ∧
      c.cur = some (r, k, (doSliceStart t d).ticks) ∧ c.todo = q ∧ c.done = b.done) ∧
    (doSliceStart t d).boot.slices = [r, k, 5, 0, 0] :: b.done ∧ getR (doSliceStart t d) pgBist cSTATE = 1 := by
  rw [doSliceStart_begins hb hc hq hf hlt]
  extract_lets x c e
  have hx : isFenced x.1 r = true ∧ x.2.done = b.done := by
    by_cases h : isFenced d r = true
    · rw [show x = _ from if_pos h]
      exact ⟨h, rfl⟩
    · obtain ⟨h1, -, l, h2⟩ := bistFence_spec (advance d t) b r
      rw [show x = _ from if_neg h]
      exact ⟨h1, by rw [h2]⟩
  have he : OffCore e (if r < 12 then checkerRuns e r k else e) := by
    by_cases hr : r < 12
    · rw [if_pos hr]; exact (OffCore.refl e).checkerRuns hr k
    · rw [if_neg hr]; exact .refl e
  have hsl : e.boot.slices = [r, k, 5, 0, 0] :: b.done := by
    rw [show e.boot.slices = _ from slices_almanacShow x.1 c _]
    exact congrArg (_ :: ·) hx.2
  generalize (if r < 12 then checkerRuns e r k else e) = a at he
  refine ⟨?_, ⟨c, rfl, ?_, rfl, hx.2⟩, ?_, state_bistPut _ _⟩
  · rw [isFenced_bistPut, isFenced, he.fenced]
    exact hx.1
  · rw [ticks_bistPut, he.ticks]
    rfl
  · rw [boot_bistPut, he.boot]
    exact hsl

/-! ### The end of the budget (R468) -/

/-- A slice is under test: it is cut. -/
theorem doBudgetTimeout_cuts {d : Dev} {b : BistSt} {r s a t sig n : Nat} (hb : d.bist = some b) (hc : b.cur = some (r, s, a)) :
    doBudgetTimeout t sig n d = sliceEnd (advance d (max t (budgetEnd d b))) b r s 3 sig n [] true := by
  have hn : ¬(b.cur.isNone ∧ b.todo.isEmpty) := by simp [hc]
  unfold doBudgetTimeout
  simp only [hb, if_neg hn]
  simp only [hc]

/-- No slice is under test: the region of the next one is released. -/
theorem doBudgetTimeout_waits {d : Dev} {b : BistSt} {t sig n : Nat} (hb : d.bist = some b) (hc : b.cur = none) (hq : b.todo ≠ []) :
    doBudgetTimeout t sig n d =
      let e := advance d (max t (budgetEnd d b))
      let r := (b.todo.headD (0, 0)).1
      let c := { b with todo := [] }
      let x := if isFenced e r && Store.get e.boot.freeAt 0 r == 0 then bistRelease e c r else (e, c)
      bistRest x.1 x.2 := by
  have hn : ¬(b.cur.isNone ∧ b.todo.isEmpty) := by simp [hq]
  unfold doBudgetTimeout
  simp only [hb, if_neg hn]
  simp only [hc]

/-- The run as its budget ends: the slices that have not begun stay NOT_RUN. -/
def Rests (b : BistSt) (n now : Nat) (e : Dev) : Prop :=
  (b.cause = 1 → ∃ c, e.bist = some c ∧ c.cur = none ∧ c.todo = []) ∧
  (b.cause ≠ 1 → e.bist = none ∧ bistRuns e = min (n + 1) (2 ^ 32 - 1) ∧ (evtRaw e pgBist).testBit 8 = true) ∧
  e.ticks = now ∧ getR e pgBist cSTATE = 0

theorem rests_bistRest (d : Dev) (b : BistSt) (hc : b.cur = none) (hq : b.todo = []) :
    Rests b (bistRuns d) d.ticks (bistRest d b) := by
  obtain ⟨h1, -, h2, h3, h4, h5⟩ := bistFinish_spec d b
  refine ⟨fun h => ?_, fun h => ?_, ticks_bistRest d b, ?_⟩
  · rw [bistRest_start d b h]
    exact ⟨_, rfl, hc, hq⟩
  · rw [bistRest_other d b h]
    exact ⟨h1, h3, h5⟩
  · by_cases h : b.cause = 1
    · rw [bistRest_start d b h, state_bistPut]
      simp [bistRunning, hc, hq, b2n]
    · rw [bistRest_other d b h]
      exact h4

theorem sliceEnd_budget (d : Dev) (b : BistSt) (r s v sig n : Nat) :
    Rests b (bistRuns d) d.ticks (sliceEnd d b r s v sig n [] true) := by
  let c : BistSt := { sliceDone b [r, s, v, sig, n] with todo := [] }
  have hs := sliceJudged_same d c r s v sig n [] true
  have hr := ticks_bistRelease (sliceJudged d c r s v sig n [] true) c r
  have hn := runs_bistRelease (sliceJudged d c r s v sig n [] true) c r
  have h := rests_bistRest (bistRelease (sliceJudged d c r s v sig n [] true) c r).1 { c with lent := [] } rfl rfl
  rw [hn, hr, hs.1, hs.2] at h
  exact h

theorem doBudgetTimeout_rests {d : Dev} {b : BistSt} {t sig n : Nat} (hb : d.bist = some b) (h : b.cur ≠ none ∨ b.todo ≠ []) :
    Rests b (bistRuns d) (max d.ticks (max t (budgetEnd d b))) (doBudgetTimeout t sig n d) := by
  cases hc : b.cur with
  | some x =>
    rw [doBudgetTimeout_cuts hb hc]
    exact sliceEnd_budget _ b x.1 x.2.1 3 sig n
  | none =>
    rw [doBudgetTimeout_waits hb hc (h.resolve_left (not_not.2 hc))]
    extract_lets e r c x
    have hx : x.2.cur = none ∧ x.2.todo = [] ∧ x.2.cause = b.cause ∧ SameRuns e x.1 := by
      by_cases hr : (isFenced e r && Store.get e.boot.freeAt 0 r == 0) = true
      · rw [show x = _ from if_pos hr]
        exact ⟨hc, rfl, rfl, ticks_bistRelease e c r, runs_bistRelease e c r⟩
      · rw [show x = _ from if_neg hr]
        exact ⟨hc, rfl, rfl, .refl e⟩
    obtain ⟨hcur, hq, hcause, ht, hn⟩ := hx
    have hrest := rests_bistRest x.1 x.2 hcur hq
    rw [Rests, hcause, ht, hn] at hrest
    exact hrest

end Sys2Proof.Machine
end

section
set_option Elab.async false
/-! PROOFS. Lane and bus units (R458–R463, R472): their start, their counts and their verdict. -/

namespace Sys2Proof.Machine

open Sys2Proof

/-! ### Where the fields of a unit lie -/

section
variable (u : Nat)

@[simp] theorem fldAt_unitState : fldAt (F.LPUL_UNIT_STATE u) = 32768 + 1024 * u := by
  simp only [fldAt, F.LPUL_UNIT_STATE]; omega
@[simp] theorem fldAt_laneVerdict : fldAt (F.LPUL_VERDICT u) = 32770 + 1024 * u := by
  simp only [fldAt, F.LPUL_VERDICT]; omega
@[simp] theorem fldAt_laneErrors : fldAt (F.LPUL_ERRORS u) = 32896 + 1024 * u := by
  simp only [fldAt, F.LPUL_ERRORS]; omega
@[simp] theorem fldAt_laneBits : fldAt (F.LPUL_BITS u) = 33152 + 1024 * u := by
  simp only [fldAt, F.LPUL_BITS]; omega
@[simp] theorem fldAt_lockLosses : fldAt (F.LPUL_LOCK_LOSSES u) = 33408 + 1024 * u := by
  simp only [fldAt, F.LPUL_LOCK_LOSSES]; omega
@[simp] theorem fldAt_laneLoop : fldAt (F.LPUL_LOOP u) = 2052 + 2048 * u := by
  simp only [fldAt, F.LPUL_LOOP]; omega
@[simp] theorem fldAt_busFirst : fldAt (F.LPUB_FIRST_FAIL u) = 33152 + 1024 * u := by
  simp only [fldAt, F.LPUB_FIRST_FAIL]; omega
@[simp] theorem fldAt_busErrors : fldAt (F.LPUB_ERRORS u) = 32896 + 1024 * u := by
  simp only [fldAt, F.LPUB_ERRORS]; omega
@[simp] theorem fldAt_busLanes : fldAt (F.LPUB_LANE_ERR u) = 32772 + 1024 * u := by
  simp only [fldAt, F.LPUB_LANE_ERR]; omega
@[simp] theorem fldAt_busWorst : fldAt (F.LPUB_WORST_RAW u) = 33408 + 1024 * u := by
  simp only [fldAt, F.LPUB_WORST_RAW]; omega
@[simp] theorem fldAt_rawMax : fldAt (F.LPUB_RAW_MAX u) = 2432 + 2048 * u := by
  simp only [fldAt, F.LPUB_RAW_MAX]; omega

end

/-! ### A unit shows that it runs, and ends with its verdict (R471, R472) -/

section
variable (d : Dev) (i u : Nat)

/-- A unit that runs makes the page BUSY. -/
theorem busy_lpuShow (hu : u < 12) (h : getR d (pgLpu i) (F.LPUL_UNIT_STATE u) = 1 ∨ getR d (pgLpu i) (F.LPUL_UNIT_STATE u) = 2) :
    getR (lpuShow d i) (pgLpu i) cBUSY = 1 := by
  unfold lpuShow
  extract_lets run
  have hrun : run = true := by
    simp only [run, List.any_eq_true, List.mem_range, Bool.or_eq_true, beq_iff_eq]
    exact ⟨u, hu, h⟩
  rw [getR_setR_self, hrun]
  rfl

/-- An entry of a test is the last of the Ledger. -/
theorem testEntry_ledgerOut (k pt : Nat) (l : List Nat) :
    ∃ z, (testEntry d k pt l).ledgerOut = d.ledgerOut ++ [z] ∧ z.kind = k ∧ z.test = true := by
  obtain ⟨x, hx, hk⟩ : ∃ x, (ledgerNow d k 0xF pt l).ledgerOut = d.ledgerOut ++ [x] ∧ x.kind = k := ⟨_, rfl, rfl⟩
  refine ⟨{ x with test := true }, ?_, hk, rfl⟩
  simp only [testEntry, hx, List.dropLast_concat, List.getLast?_concat, Option.toList_some, List.map_cons, List.map_nil]

/-- The device but for its registers, its events and the Ledger's entries. -/
def noEntry (d : Dev) : Dev := { d with regs := [], evt := [], ledgerOut := [] }

/-- The registers of a unit that is done. -/
def unitEnds (i u : Nat) : List (Nat × Fld) :=
  [(pgLpu i, F.LPUL_UNIT_STATE u), (pgLpu i, F.LPUL_VERDICT u), (pgLpu i, cBUSY)]

theorem lpuDone_moved (v errs n : Nat) :
    Moved noEntry (unitEnds i u) d (lpuDone d i u v errs n) := by
  unfold lpuDone
  extract_lets p e1 e2
  have h1 : Moved noEntry (unitEnds i u) d e1 :=
    .then_setR (.of_setR d _ (by simp [unitEnds, p])) (by simp [unitEnds, p])
  have h2 : Moved noEntry (unitEnds i u) e1 e2 := .of_regs _ _
  exact (h1.trans _ _ _ h2).then_setR (by simp [unitEnds])

theorem ticks_lpuDone (v errs n : Nat) : (lpuDone d i u v errs n).ticks = d.ticks := (lpuDone_moved d i u v errs n).field Dev.ticks

theorem lpuDone_spec {v : Nat} (errs n : Nat) (hv : v < 4) :
    getR (lpuDone d i u v errs n) (pgLpu i) (F.LPUL_UNIT_STATE u) = 3 ∧ getR (lpuDone d i u v errs n) (pgLpu i) (F.LPUL_VERDICT u) = v ∧
    (evtRaw (lpuDone d i u v errs n) (pgLpu i)).testBit (8 + u) = true ∧
    ∃ z, (lpuDone d i u v errs n).ledgerOut = d.ledgerOut ++ [z] ∧ z.kind = 0x0803 ∧ z.test = true := by
  unfold lpuDone lpuShow
  extract_lets p e1 e2
  have hs : getR e2 p (F.LPUL_UNIT_STATE u) = 3 ∧ getR e2 p (F.LPUL_VERDICT u) = v := by
    refine ⟨?_, (getR_setR_self ..).trans (Nat.mod_eq_of_lt hv)⟩
    exact (getR_setR_fld _ _ _ (by simp only [fldAt_unitState, fldAt_laneVerdict]; omega)).trans (getR_setR_self ..)
  have he : (evtRaw e2 p).testBit (8 + u) = true := raise_bit e1 p (8 + u)
  obtain ⟨z, hz, hk⟩ := testEntry_ledgerOut (raise e1 p (8 + u)) 0x0803 (typeCode .lpuLane)
    ([i, u, v, getR (raise e1 p (8 + u)) p (F.LPUL_PATTERN u)] ++ leBytes 8 errs ++ leBytes 8 n)
  have hl : e2.ledgerOut = d.ledgerOut ++ [z] := hz
  clear_value e2
  refine ⟨?_, ?_, he, z, hl, hk⟩
  · rw [getR_setR_fld _ _ _ (by simp only [fldAt_unitState, fldAt_cBUSY]; omega)]; exact hs.1
  · rw [getR_setR_fld _ _ _ (by simp only [fldAt_laneVerdict, fldAt_cBUSY]; omega)]; exact hs.2

/-- What the end of a unit does not show, stays. -/
theorem getR_lpuDone {f : Fld} (v errs n : Nat)
    (hf : fldAt f ≠ 32768 + 1024 * u ∧ fldAt f ≠ 32770 + 1024 * u ∧ fldAt f ≠ 384) :
    getR (lpuDone d i u v errs n) (pgLpu i) f = getR d (pgLpu i) f :=
  (lpuDone_moved d i u v errs n).getR_fld (by
    simp only [unitEnds, List.mem_cons, List.not_mem_nil, or_false]
    rintro x (rfl | rfl | rfl) <;> refine ⟨rfl, ?_⟩ <;> simp only [fldAt_unitState, fldAt_laneVerdict, fldAt_cBUSY] <;> omega)

end

/-! ### Lane units (R458–R461) -/

/-- The errors of a lane unit after `n` more in its checker. -/
def laneErrors (d : Dev) (i u n : Nat) : Nat :=
  if getR d (pgLpu i) (F.LPUL_UNIT_STATE u) = 2 ∧ lpuLoop d i u ≠ 2 then
    min (2 ^ 48 - 1) (getR d (pgLpu i) (F.LPUL_ERRORS u) + n)
  else getR d (pgLpu i) (F.LPUL_ERRORS u)

/-- A lane unit is active. -/
abbrev laneActive (d : Dev) (i u : Nat) : Prop :=
  getR d (pgLpu i) (F.LPUL_UNIT_STATE u) = 1 ∨ getR d (pgLpu i) (F.LPUL_UNIT_STATE u) = 2

section
variable (d : Dev) (i u : Nat)

theorem laneCount_moved (n m : Nat) :
    Moved noRegs [(pgLpu i, F.LPUL_ERRORS u), (pgLpu i, F.LPUL_BITS u)] d (laneCount d i u n m) := by
  unfold laneCount
  extract_lets p add
  split
  · exact .then_setR (.of_setR d _ (by simp [p])) (by simp [p])
  · exact .refl d

theorem errors_laneCount (n m : Nat) : getR (laneCount d i u n m) (pgLpu i) (F.LPUL_ERRORS u) = laneErrors d i u n := by
  unfold laneCount laneErrors
  extract_lets p add
  split
  · rw [getR_setR_fld _ _ _ (by simp only [fldAt_laneErrors, fldAt_laneBits]; omega), getR_setR_self]
    refine Nat.mod_eq_of_lt (lt_of_le_of_lt (min_le_left _ _) ?_)
    exact Nat.sub_lt (Nat.two_pow_pos _) one_pos
  · rfl

theorem getR_laneCount {f : Fld} (n m : Nat) (hf : fldAt f ≠ 32896 + 1024 * u ∧ fldAt f ≠ 33152 + 1024 * u) :
    getR (laneCount d i u n m) (pgLpu i) f = getR d (pgLpu i) f :=
  (laneCount_moved d i u n m).getR_fld (by
    simp only [List.mem_cons, List.not_mem_nil, or_false]
    rintro x (rfl | rfl) <;> refine ⟨rfl, ?_⟩ <;> simp only [fldAt_laneErrors, fldAt_laneBits] <;> omega)

theorem loop_laneCount (n m : Nat) : lpuLoop (laneCount d i u n m) i u = lpuLoop d i u := by
  simp only [lpuLoop]
  rw [getR_laneCount d i u n m (by simp only [fldAt_laneLoop]; omega)]

/-- The verdict of a lane unit with `n` more errors: none in FAR, else PASS for one that locked in time and lost nothing. -/
def laneVerdict (n : Nat) : Nat :=
  if lpuLoop d i u = 2 then 0
  else if (lpu d i u).inTime = true ∧ laneErrors d i u n = 0 ∧ getR d (pgLpu i) (F.LPUL_LOCK_LOSSES u) = 0 then 1 else 2

theorem laneVerdict_lt (n : Nat) : laneVerdict d i u n < 4 := by
  unfold laneVerdict
  split
  · decide
  · split <;> decide

/-- A run of a lane unit ends: with its errors, its entry and its verdict. -/
structure LaneEnds (n : Nat) (e : Dev) : Prop where
  state : getR e (pgLpu i) (F.LPUL_UNIT_STATE u) = 3
  bit : (evtRaw e (pgLpu i)).testBit (8 + u) = true
  entry : ∃ z, e.ledgerOut = d.ledgerOut ++ [z] ∧ z.kind = 0x0803 ∧ z.test = true
  errors : getR e (pgLpu i) (F.LPUL_ERRORS u) = laneErrors d i u n
  verdict : getR e (pgLpu i) (F.LPUL_VERDICT u) = laneVerdict d i u n
  ticks : e.ticks = d.ticks

theorem laneEnd_idle {n m : Nat} (h : ¬laneActive d i u) : laneEnd d i u n m = d := if_pos (not_or.1 h)

theorem laneEnd_active (n m : Nat) (h : laneActive d i u) : laneEnd d i u n m =
    lpuDone (laneCount d i u n m) i u (laneVerdict d i u n) (getR (laneCount d i u n m) (pgLpu i) (F.LPUL_ERRORS u))
      (getR (laneCount d i u n m) (pgLpu i) (F.LPUL_BITS u)) := by
  unfold laneEnd laneVerdict
  extract_lets p st e1 e good
  have hgood : good = true ↔ (lpu d i u).inTime = true ∧ laneErrors d i u n = 0 ∧
      getR d (pgLpu i) (F.LPUL_LOCK_LOSSES u) = 0 := by
    have hx : lpu e1 i u = lpu d i u := (laneCount_moved d i u n m).field (fun d => lpu d i u)
    have hl : getR e1 p (F.LPUL_LOCK_LOSSES u) = getR d p (F.LPUL_LOCK_LOSSES u) :=
      getR_laneCount d i u n m (by simp only [fldAt_lockLosses]; omega)
    have he : e = laneErrors d i u n := errors_laneCount d i u n m
    simp only [good, hx, hl, he, Bool.and_eq_true, beq_iff_eq, and_assoc, p]
  have hloop : lpuLoop e1 i u = lpuLoop d i u := loop_laneCount d i u n m
  clear_value good
  rw [if_neg (by simpa only [laneActive, ← not_or, not_not] using h), hloop]
  simp only [hgood]
  rfl

theorem laneEnd_ends (n m : Nat) (h : laneActive d i u) : LaneEnds d i u n (laneEnd d i u n m) := by
  rw [laneEnd_active d i u n m h]
  obtain ⟨hs, hd, hb, z, hz, hk⟩ := lpuDone_spec (laneCount d i u n m) i u
    (getR (laneCount d i u n m) (pgLpu i) (F.LPUL_ERRORS u)) (getR (laneCount d i u n m) (pgLpu i) (F.LPUL_BITS u))
    (laneVerdict_lt d i u n)
  have hout : (laneCount d i u n m).ledgerOut = d.ledgerOut := (laneCount_moved d i u n m).field Dev.ledgerOut
  refine ⟨hs, hb, ⟨z, hout ▸ hz, hk⟩, ?_, hd, ?_⟩
  · rw [getR_lpuDone _ _ _ _ _ _ (by simp only [fldAt_laneErrors]; omega)]
    exact errors_laneCount d i u n m
  · exact (ticks_lpuDone _ i u _ _ _).trans ((laneCount_moved d i u n m).field Dev.ticks)

end

end Sys2Proof.Machine
end

section
set_option Elab.async false
/-! PROOFS. Pattern units and the self-test (R458–R472): what their commands do, put together. -/

namespace Sys2Proof.Machine

open Sys2Proof

/-! ### Starting a lane unit (R459, R461) -/

section
variable (d : Dev) (i u : Nat)

/-- The unit's counters at 0, its verdict none and its state SEARCHING, or LOCKED in FAR. -/
def laneCleared (d : Dev) (i u : Nat) : Dev :=
  let p := pgLpu i
  let d := setR (setR d p (F.LPUL_ERRORS u) 0) p (F.LPUL_BITS u) 0
  let d := setR (setR d p (F.LPUL_LOCK_LOSSES u) 0) p (F.LPUL_VERDICT u) 0
  setR d p (F.LPUL_UNIT_STATE u) (if lpuLoop d i u = 2 then 2 else 1)

theorem laneCleared_spec :
    getR (laneCleared d i u) (pgLpu i) (F.LPUL_UNIT_STATE u) = (if lpuLoop d i u = 2 then 2 else 1) ∧
    getR (laneCleared d i u) (pgLpu i) (F.LPUL_ERRORS u) = 0 ∧ getR (laneCleared d i u) (pgLpu i) (F.LPUL_BITS u) = 0 ∧
    getR (laneCleared d i u) (pgLpu i) (F.LPUL_LOCK_LOSSES u) = 0 ∧
    getR (laneCleared d i u) (pgLpu i) (F.LPUL_VERDICT u) = 0 ∧ (laneCleared d i u).mem = d.mem := by
  unfold laneCleared
  extract_lets p e1 e2
  have hne {a b : Nat} (h : a ≠ b) (v : Nat) : a + v ≠ b + v := by omega
  have he : getR e1 p (F.LPUL_ERRORS u) = 0 ∧ getR e1 p (F.LPUL_BITS u) = 0 :=
    ⟨(getR_setR_fld _ _ _ (by simp only [fldAt_laneBits, fldAt_laneErrors]; omega)).trans ((getR_setR_self ..).trans (Nat.zero_mod _)),
      (getR_setR_self ..).trans (Nat.zero_mod _)⟩
  have h2 {f : Fld} (hf : fldAt f ≠ 33408 + 1024 * u ∧ fldAt f ≠ 32770 + 1024 * u) : getR e2 p f = getR e1 p f := by
    unfold e2
    rw [getR_setR_fld _ _ _ (by simp only [fldAt_laneVerdict]; omega), getR_setR_fld _ _ _ (by simp only [fldAt_lockLosses]; omega)]
  have hl : getR e2 p (F.LPUL_LOCK_LOSSES u) = 0 ∧ getR e2 p (F.LPUL_VERDICT u) = 0 :=
    ⟨(getR_setR_fld _ _ _ (by simp only [fldAt_laneVerdict, fldAt_lockLosses]; omega)).trans ((getR_setR_self ..).trans (Nat.zero_mod _)),
      (getR_setR_self ..).trans (Nat.zero_mod _)⟩
  have hloop : lpuLoop e2 i u = lpuLoop d i u := by
    simp only [lpuLoop]
    rw [h2 (by simp only [fldAt_laneLoop]; omega)]
    unfold e1
    rw [getR_setR_fld _ _ _ (by simp only [fldAt_laneBits, fldAt_laneLoop]; omega),
      getR_setR_fld _ _ _ (by simp only [fldAt_laneErrors, fldAt_laneLoop]; omega)]
  refine ⟨?_, ?_, ?_, ?_, ?_, rfl⟩
  · rw [getR_setR_self, hloop]
    split <;> rfl
  · rw [getR_setR_fld _ _ _ (by simp only [fldAt_unitState, fldAt_laneErrors]; omega),
      h2 (by simp only [fldAt_laneErrors]; omega)]
    exact he.1
  · rw [getR_setR_fld _ _ _ (by simp only [fldAt_unitState, fldAt_laneBits]; omega),
      h2 (by simp only [fldAt_laneBits]; omega)]
    exact he.2
  · rw [getR_setR_fld _ _ _ (by simp only [fldAt_unitState, fldAt_lockLosses]; omega)]
    exact hl.1
  · rw [getR_setR_fld _ _ _ (by simp only [fldAt_unitState, fldAt_laneVerdict]; omega)]
    exact hl.2

/-- A unit that starts: its registers cleared, its lane out of service, the page BUSY. -/
def laneStarted (d : Dev) (i u : Nat) : Dev := lpuShow (laneDown (setLpu (laneCleared d i u) i u ⟨d.ticks, false⟩) i u) i

theorem laneStart_none (h : lpuUnits i ≤ u ∨ laneActive d i u) : laneStart d i u = d := if_pos h

theorem laneStart_refused (hu : u < lpuUnits i) (h : ¬laneActive d i u) (hi : i = 0) (hp : getR d pgPcie cSTATE ≠ 0) :
    laneStart d i u = lpuRefuse d i := by
  unfold laneStart
  extract_lets p st
  rw [if_neg (not_or.2 ⟨Nat.not_le.2 hu, h⟩), if_pos ⟨hi, hp⟩]

theorem laneStart_starts (hu : u < lpuUnits i) (h : ¬laneActive d i u) (hp : i = 0 → getR d pgPcie cSTATE = 0) :
    laneStart d i u = laneStarted d i u := by
  unfold laneStart
  extract_lets p st
  rw [if_neg (not_or.2 ⟨Nat.not_le.2 hu, h⟩), if_neg (fun hx => hx.2 (hp hx.1))]
  rfl

theorem offCore_setLpu (x : LpuSt) : OffCore d (setLpu d i u x) := ⟨rfl, rfl, rfl, rfl, rfl, rfl, fun _ _ _ _ => rfl⟩

variable {i u}

theorem laneStarted_spec (hi : i < 3) (hu : u < 8) :
    getR (laneStarted d i u) (pgLpu i) (F.LPUL_UNIT_STATE u) = (if lpuLoop d i u = 2 then 2 else 1) ∧
    getR (laneStarted d i u) (pgLpu i) (F.LPUL_ERRORS u) = 0 ∧ getR (laneStarted d i u) (pgLpu i) (F.LPUL_BITS u) = 0 ∧
    getR (laneStarted d i u) (pgLpu i) (F.LPUL_LOCK_LOSSES u) = 0 ∧
    getR (laneStarted d i u) (pgLpu i) (F.LPUL_VERDICT u) = 0 ∧ getR (laneStarted d i u) (pgLpu i) cBUSY = 1 ∧
    (laneStarted d i u).mem = d.mem := by
  unfold laneStarted
  have hd := (offCore_setLpu (laneCleared d i u) i u ⟨d.ticks, false⟩).laneDown i hu
  generalize laneDown (setLpu (laneCleared d i u) i u ⟨d.ticks, false⟩) i u = e at hd
  have hr {f : Fld} (hf : fldAt f < 131072) : getR e (pgLpu i) f = getR (laneCleared d i u) (pgLpu i) f :=
    hd.getR_eq (by simp only [CorePage, pgPkg, pgDmc, pgLpu, pgBist]; omega) hf
  have hs {f : Fld} (hf : fldAt f < 131072) (hb : fldAt f ≠ 384) :
      getR (lpuShow e i) (pgLpu i) f = getR (laneCleared d i u) (pgLpu i) f :=
    (getR_setR_fld e _ _ (by rw [fldAt_cBUSY]; omega)).trans (hr hf)
  obtain ⟨h1, h2, h3, h4, h5, hm⟩ := laneCleared_spec d i u
  refine ⟨?_, ?_, ?_, ?_, ?_, busy_lpuShow e i u (by omega) ?_, hd.mem.trans hm⟩
  · rw [hs (by simp only [fldAt_unitState]; omega) (by simp only [fldAt_unitState]; omega), h1]
  · rw [hs (by simp only [fldAt_laneErrors]; omega) (by simp only [fldAt_laneErrors]; omega), h2]
  · rw [hs (by simp only [fldAt_laneBits]; omega) (by simp only [fldAt_laneBits]; omega), h3]
  · rw [hs (by simp only [fldAt_lockLosses]; omega) (by simp only [fldAt_lockLosses]; omega), h4]
  · rw [hs (by simp only [fldAt_laneVerdict]; omega) (by simp only [fldAt_laneVerdict]; omega), h5]
  · rw [hr (by simp only [fldAt_unitState]; omega), h1]
    split
    · exact .inr rfl
    · exact .inl rfl

end

/-! ### The checker locks, loses its lock, and a bit is inverted (R460) -/

section
variable {d : Dev} {i u t : Nat}

theorem doLaneDuration_idle {e n : Nat} (h : ¬laneActive d i u) : doLaneDuration t i u e n d = advance d t := if_pos (not_or.1 h)

/-- The tick at which DURATION_S is over. -/
def laneOver (d : Dev) (i u : Nat) : Nat := (lpu d i u).startAt + sT (max 1 (getR d (pgLpu i) (F.LPUL_DURATION_S u)))

theorem laneOver_le (d : Dev) (i u t : Nat) :
    (lpu d i u).startAt + 100000000 * max 1 (getR d (pgLpu i) (F.LPUL_DURATION_S u)) ≤ (advance d (max t (laneOver d i u))).ticks := by
  have h : laneOver d i u ≤ (advance d (max t (laneOver d i u))).ticks := le_trans (le_max_right _ _) (le_max_right _ _)
  simpa only [laneOver, sT, Nat.mul_comm] using h

theorem doLaneDuration_ends {e n : Nat} (h : laneActive d i u) :
    LaneEnds (advance d (max t (laneOver d i u))) i u e (doLaneDuration t i u e n d) := by
  have he : doLaneDuration t i u e n d = laneEnd (advance d (max t (laneOver d i u))) i u e n :=
    if_neg fun hx => not_or.2 hx h
  rw [he]
  exact laneEnd_ends _ i u e n h

theorem doChecker_none (h : getR d (pgLpu i) (F.LPUL_UNIT_STATE u) ≠ 1) : doChecker t i u d = advance d t := if_neg h

/-- The checker has locked: in time if within 1 ms of the start. -/
def checkerLocks (d : Dev) (i u : Nat) : Dev :=
  setR (setLpu d i u { lpu d i u with
    inTime := (lpu d i u).inTime || decide (d.ticks ≤ (lpu d i u).startAt + msT 1) }) (pgLpu i) (F.LPUL_UNIT_STATE u) 2

theorem doChecker_locks (h : getR d (pgLpu i) (F.LPUL_UNIT_STATE u) = 1) : doChecker t i u d = checkerLocks (advance d t) i u :=
  if_pos h

theorem checkerLocks_spec (d : Dev) (i u : Nat) :
    getR (checkerLocks d i u) (pgLpu i) (F.LPUL_UNIT_STATE u) = 2 ∧
    ((lpu (checkerLocks d i u) i u).inTime = true ↔ (lpu d i u).inTime = true ∨ d.ticks ≤ (lpu d i u).startAt + 100000) ∧
    Moved (fun d => { d with regs := [], lpus := [] }) [(pgLpu i, F.LPUL_UNIT_STATE u)] d (checkerLocks d i u) := by
  refine ⟨getR_setR_self .., ?_, ?_⟩
  · have hx : lpu (checkerLocks d i u) i u = { lpu d i u with
        inTime := (lpu d i u).inTime || decide (d.ticks ≤ (lpu d i u).startAt + msT 1) } := Store.get_set_self ..
    rw [hx]
    simp only [Bool.or_eq_true, decide_eq_true_eq]
    rfl
  · exact .then_setR (.of_regs _ _) (List.mem_singleton_self _)

theorem doLostLock_none {e n : Nat} (h : getR d (pgLpu i) (F.LPUL_UNIT_STATE u) ≠ 2 ∨ lpuLoop d i u = 2) :
    doLostLock t i u e n d = advance d t := if_neg (by
  rintro ⟨h1, h2⟩
  exact h.elim (fun hx => hx h1) (fun hx => h2 hx))

/-- The checker searches again. -/
def lockLost (d : Dev) (i u e n : Nat) : Dev :=
  raise (setR (bump (laneCount d i u e n) (pgLpu i) (F.LPUL_LOCK_LOSSES u)) (pgLpu i) (F.LPUL_UNIT_STATE u) 1) (pgLpu i) 21

theorem doLostLock_lost {e n : Nat} (h1 : getR d (pgLpu i) (F.LPUL_UNIT_STATE u) = 2) (h2 : lpuLoop d i u ≠ 2) :
    doLostLock t i u e n d = lockLost (advance d t) i u e n := if_pos ⟨h1, h2⟩

theorem lockLost_spec (d : Dev) (i u e n : Nat) :
    getR (lockLost d i u e n) (pgLpu i) (F.LPUL_UNIT_STATE u) = 1 ∧
    getR (lockLost d i u e n) (pgLpu i) (F.LPUL_LOCK_LOSSES u) =
      min (getR d (pgLpu i) (F.LPUL_LOCK_LOSSES u) + 1) (2 ^ 32 - 1) ∧
    getR (lockLost d i u e n) (pgLpu i) (F.LPUL_ERRORS u) = laneErrors d i u e ∧
    (evtRaw (lockLost d i u e n) (pgLpu i)).testBit 21 = true ∧ (lockLost d i u e n).mem = d.mem := by
  unfold lockLost
  refine ⟨?_, ?_, ?_, raise_bit .., ?_⟩
  · rw [getR_raise, getR_setR_self]
    rfl
  · rw [getR_raise, getR_setR_fld _ _ _ (by simp only [fldAt_unitState, fldAt_lockLosses]; omega), bump,
      getR_addC_narrow _ _ _ (show (F.LPUL_LOCK_LOSSES u).width ≤ 32 from le_refl _),
      getR_laneCount _ _ _ _ _ (by simp only [fldAt_lockLosses]; omega)]
    rfl
  · rw [getR_raise, getR_setR_fld _ _ _ (by simp only [fldAt_unitState, fldAt_laneErrors]; omega), bump,
      getR_addC_fld _ _ _ (by simp only [fldAt_lockLosses, fldAt_laneErrors]; omega)]
    exact errors_laneCount d i u e n
  · exact (addC_mem _ _ _ _).trans ((laneCount_moved d i u e n).field Dev.mem)

theorem laneInject_none (h : ¬laneActive d i u ∨ lpuLoop d i u = 2) : laneInject d i u = d :=
  if_pos (h.imp_left not_or.1)

theorem laneInject_active (h : laneActive d i u) (hl : lpuLoop d i u ≠ 2) :
    laneInject d i u = emit (onlyIf (lpuLoop d i u == 0) (fun d => laneCount d i u 1 0) d) (.inject i u) :=
  if_neg (not_or.2 ⟨fun hx => (not_or.2 hx) h, hl⟩)

theorem laneInject_spec (h : laneActive d i u) (hl : lpuLoop d i u ≠ 2) :
    Output.inject i u ∈ (laneInject d i u).out ∧
    getR (laneInject d i u) (pgLpu i) (F.LPUL_ERRORS u) =
      (if lpuLoop d i u = 0 then laneErrors d i u 1 else getR d (pgLpu i) (F.LPUL_ERRORS u)) ∧
    (laneInject d i u).evt = d.evt := by
  rw [laneInject_active h hl]
  refine ⟨List.mem_append_right _ (List.mem_singleton_self _), ?_, ?_⟩
  · show getR (onlyIf _ _ d) _ _ = _
    unfold onlyIf
    simp only [beq_iff_eq]
    split
    · exact errors_laneCount d i u 1 0
    · rfl
  · show (onlyIf _ _ d).evt = _
    unfold onlyIf
    split
    · exact (laneCount_moved d i u 1 0).field Dev.evt
    · rfl

end

/-! ### Bus units (R462, R463) -/

/-- A bus unit may not start: its rank or the Archive is in use. -/
def busRefused (d : Dev) (i u : Nat) : Prop :=
  if i = 3 then flagR d (pgLpu i) (F.LPUB_SCOPE u) = true ∧
    (rankState d u (getR d (pgLpu i) (F.LPUB_RANK u)) = 1 ∨ rankState d u (getR d (pgLpu i) (F.LPUB_RANK u)) = 3)
  else arcSt d = 1 ∨ arcSt d = 5

section
variable (d : Dev) (i u : Nat)

/-- The registers of a unit that starts. -/
def busCleared (d : Dev) (i u : Nat) : Dev :=
  let p := pgLpu i
  let d := setR (setR d p (F.LPUB_ERRORS u) 0) p (F.LPUB_FIRST_FAIL u) 0
  let d := setR (setR d p (F.LPUB_LANE_ERR u) 0) p (F.LPUB_WORST_RAW u) 0
  setR (setR d p (F.LPUB_VERDICT u) 0) p (F.LPUB_UNIT_STATE u) 2

theorem busCleared_spec : getR (busCleared d i u) (pgLpu i) (F.LPUL_UNIT_STATE u) = 2 ∧
    getR (busCleared d i u) (pgLpu i) (F.LPUB_ERRORS u) = 0 ∧ getR (busCleared d i u) (pgLpu i) (F.LPUL_VERDICT u) = 0 := by
  unfold busCleared
  extract_lets p e1 e2
  refine ⟨getR_setR_self .., ?_, ?_⟩
  · refine (getR_setR_fld _ _ _ (f := F.LPUL_UNIT_STATE u) (by simp only [fldAt_unitState, fldAt_busErrors]; omega)).trans ?_
    refine (getR_setR_fld _ _ _ (f := F.LPUL_VERDICT u) (by simp only [fldAt_laneVerdict, fldAt_busErrors]; omega)).trans ?_
    unfold e2 e1
    rw [getR_setR_fld _ _ _ (by simp only [fldAt_busWorst, fldAt_busErrors]; omega),
      getR_setR_fld _ _ _ (by simp only [fldAt_busLanes, fldAt_busErrors]; omega),
      getR_setR_fld _ _ _ (by simp only [fldAt_busFirst, fldAt_busErrors]; omega), getR_setR_self, Nat.zero_mod]
  · refine (getR_setR_fld _ _ _ (f := F.LPUL_UNIT_STATE u) (by simp only [fldAt_unitState, fldAt_laneVerdict]; omega)).trans ?_
    exact (getR_setR_self ..).trans (Nat.zero_mod _)

/-- The channel wakes for a unit of page 3. -/
def busWoken (d : Dev) (i u : Nat) : Dev := onlyIf (i == 3 && getR d (pgDmc u) cSTATE == 2) (fun d => srExit d u true) d

def busStarted (d : Dev) (i u : Nat) : Dev :=
  lpuShow (setLpu (busWoken (busCleared d i u) i u) i u ⟨(busWoken (busCleared d i u) i u).ticks, false⟩) i

theorem busStart_none (h : lpuUnits i ≤ u ∨ getR d (pgLpu i) (F.LPUB_UNIT_STATE u) = 2) : busStart d i u = d := if_pos h

theorem busRefused_iff : (if i = 3 then flagR d (pgLpu i) (F.LPUB_SCOPE u) &&
    (rankState d u (getR d (pgLpu i) (F.LPUB_RANK u)) == 1 || rankState d u (getR d (pgLpu i) (F.LPUB_RANK u)) == 3)
    else arcSt d == 1 || arcSt d == 5) = true ↔ busRefused d i u := by
  unfold busRefused
  split <;> simp only [Bool.and_eq_true, Bool.or_eq_true, beq_iff_eq]

theorem busStart_busy (hu : u < lpuUnits i) (h : getR d (pgLpu i) (F.LPUB_UNIT_STATE u) ≠ 2) (hr : busRefused d i u) :
    busStart d i u = lpuRefuse d i :=
  (if_neg (not_or.2 ⟨Nat.not_le.2 hu, h⟩)).trans (if_pos ((busRefused_iff d i u).2 hr))

theorem busStart_starts (hu : u < lpuUnits i) (h : getR d (pgLpu i) (F.LPUB_UNIT_STATE u) ≠ 2) (hr : ¬busRefused d i u) :
    busStart d i u = busStarted d i u :=
  (if_neg (not_or.2 ⟨Nat.not_le.2 hu, h⟩)).trans (if_neg fun hx => hr ((busRefused_iff d i u).1 hx))

variable {i u}

theorem busWoken_moved : Moved noDmc [(pgDmc u, F.DMC_SR_WAIT_MAX), (pgDmc u, cSTATE)] d (busWoken d i u) :=
  .of_onlyIf d _ (srExit_moved d u true)

theorem getR_busWoken (hu : u < 8) {f : Fld} (hf : fldAt f < 131072) :
    getR (busWoken d i u) (pgLpu i) f = getR d (pgLpu i) f :=
  (busWoken_moved d).getR_page hf (by
    simp only [List.mem_cons, List.not_mem_nil, or_false]
    rintro x (rfl | rfl) <;> refine ⟨by simp only [pgDmc, pgLpu]; omega, by dsimp only; decide⟩)

theorem busStarted_spec (hu : u < 8) :
    getR (busStarted d i u) (pgLpu i) (F.LPUL_UNIT_STATE u) = 2 ∧ getR (busStarted d i u) (pgLpu i) (F.LPUB_ERRORS u) = 0 ∧
    getR (busStarted d i u) (pgLpu i) (F.LPUL_VERDICT u) = 0 ∧ getR (busStarted d i u) (pgLpu i) cBUSY = 1 ∧
    (busStarted d i u).mem = d.mem := by
  unfold busStarted
  have hr {f : Fld} (hf : fldAt f < 131072) := getR_busWoken (busCleared d i u) (i := i) (f := f) hu hf
  have hm : (busWoken (busCleared d i u) i u).mem = d.mem := (busWoken_moved (i := i) (u := u) (busCleared d i u)).field Dev.mem
  generalize busWoken (busCleared d i u) i u = e at hr hm
  have hs {f : Fld} (hf : fldAt f < 131072) (hb : fldAt f ≠ 384) :
      getR (lpuShow (setLpu e i u ⟨e.ticks, false⟩) i) (pgLpu i) f = getR (busCleared d i u) (pgLpu i) f :=
    (getR_setR_fld (setLpu e i u ⟨e.ticks, false⟩) _ _ (by rw [fldAt_cBUSY]; omega)).trans (hr hf)
  obtain ⟨h1, h2, h3⟩ := busCleared_spec d i u
  refine ⟨?_, ?_, ?_, busy_lpuShow (setLpu e i u ⟨e.ticks, false⟩) i u (by omega) (.inr ?_), hm⟩
  · rw [hs (by simp only [fldAt_unitState]; omega) (by simp only [fldAt_unitState]; omega), h1]
  · rw [hs (by simp only [fldAt_busErrors]; omega) (by simp only [fldAt_busErrors]; omega), h2]
  · rw [hs (by simp only [fldAt_laneVerdict]; omega) (by simp only [fldAt_laneVerdict]; omega), h3]
  · exact (hr (by simp only [fldAt_unitState]; omega)).trans h1

/-! A run of a bus unit ends. -/

/-- The counters of a bus unit that is done. -/
def busCounted (d : Dev) (i u errs first lanes worst : Nat) : Dev :=
  let p := pgLpu i
  let d := setR (setR d p (F.LPUB_ERRORS u) (min (2 ^ 64 - 1) errs)) p (F.LPUB_FIRST_FAIL u) (if errs = 0 then 0 else first)
  if i = 3 then setR d p (F.LPUB_LANE_ERR u) lanes else setR d p (F.LPUB_WORST_RAW u) (min 65535 worst)

/-- The verdict of a bus unit. -/
def busVerdict (d : Dev) (i u errs worst : Nat) : Nat :=
  if (i = 3 ∧ errs = 0) ∨ (i = 4 ∧ worst ≤ getR d (pgLpu i) (F.LPUB_RAW_MAX u)) then 1 else 2

variable (errs first lanes worst : Nat)

theorem busEnd_idle (h : getR d (pgLpu i) (F.LPUB_UNIT_STATE u) ≠ 2) : busEnd d i u errs first lanes worst = d := if_pos h

theorem getR_busCounted {f : Fld} (hf : fldAt f ≠ 32772 + 1024 * u ∧ fldAt f ≠ 33408 + 1024 * u) :
    getR (busCounted d i u errs first lanes worst) (pgLpu i) f =
      getR (setR (setR d (pgLpu i) (F.LPUB_ERRORS u) (min (2 ^ 64 - 1) errs)) (pgLpu i) (F.LPUB_FIRST_FAIL u)
        (if errs = 0 then 0 else first)) (pgLpu i) f := by
  unfold busCounted
  extract_lets p e1
  split
  · exact getR_setR_fld _ _ _ (by simp only [fldAt_busLanes]; omega)
  · exact getR_setR_fld _ _ _ (by simp only [fldAt_busWorst]; omega)

theorem busCounted_ledgerOut : (busCounted d i u errs first lanes worst).ledgerOut = d.ledgerOut := by
  unfold busCounted
  extract_lets p e1
  split <;> rfl

theorem busEnd_ends (hi : i = 3 ∨ i = 4) (hu : u < 8) (h : getR d (pgLpu i) (F.LPUB_UNIT_STATE u) = 2) : busEnd d i u errs first lanes worst =
    lpuDone (busCounted d i u errs first lanes worst) i u (busVerdict d i u errs worst) errs 0 := by
  have hraw : getR (busCounted d i u errs first lanes worst) (pgLpu i) (F.LPUB_RAW_MAX u) =
      getR d (pgLpu i) (F.LPUB_RAW_MAX u) := by
    rw [getR_busCounted _ _ _ _ _ (by simp only [fldAt_rawMax]; omega),
      getR_setR_fld _ _ _ (by simp only [fldAt_busFirst, fldAt_rawMax]; omega),
      getR_setR_fld _ _ _ (by simp only [fldAt_busErrors, fldAt_rawMax]; omega)]
  have hgood : (if i = 3 then errs == 0 else
      decide (worst ≤ getR (busCounted d i u errs first lanes worst) (pgLpu i) (F.LPUB_RAW_MAX u))) = true ↔
      (i = 3 ∧ errs = 0) ∨ (i = 4 ∧ worst ≤ getR d (pgLpu i) (F.LPUB_RAW_MAX u)) := by
    rw [hraw]
    obtain rfl | rfl := hi <;> simp
  refine (if_neg (not_not.2 h)).trans ?_
  refine congrArg (fun v => lpuDone (busCounted d i u errs first lanes worst) i u v errs 0) ?_
  unfold busVerdict
  exact if_congr hgood rfl rfl

/-- What the end of a bus unit shows. -/
structure BusEnds (d : Dev) (i u errs first worst : Nat) (e : Dev) : Prop where
  state : getR e (pgLpu i) (F.LPUB_UNIT_STATE u) = 3
  entry : ∃ z, e.ledgerOut = d.ledgerOut ++ [z] ∧ z.kind = 0x0803 ∧ z.test = true
  bit : (evtRaw e (pgLpu i)).testBit (8 + u) = true
  errors : getR e (pgLpu i) (F.LPUB_ERRORS u) = min (2 ^ 64 - 1) errs
  first_ : getR e (pgLpu i) (F.LPUB_FIRST_FAIL u) = (if errs = 0 then 0 else first % 2 ^ 40)
  verdict : getR e (pgLpu i) (F.LPUB_VERDICT u) = busVerdict d i u errs worst

theorem busEnd_spec (hi : i = 3 ∨ i = 4) (hu : u < 8) (h : getR d (pgLpu i) (F.LPUB_UNIT_STATE u) = 2) :
    BusEnds d i u errs first worst (busEnd d i u errs first lanes worst) := by
  rw [busEnd_ends d errs first lanes worst hi hu h]
  have hv : busVerdict d i u errs worst < 4 := by unfold busVerdict; split <;> decide
  obtain ⟨h1, h2, h3, z, hz, hk⟩ := lpuDone_spec (busCounted d i u errs first lanes worst) i u errs 0 hv
  refine ⟨h1, ⟨z, (busCounted_ledgerOut d errs first lanes worst) ▸ hz, hk⟩, h3, ?_, ?_, h2⟩
  · rw [getR_lpuDone _ _ _ _ _ _ (by simp only [fldAt_busErrors]; omega),
      getR_busCounted _ _ _ _ _ (f := F.LPUB_ERRORS u) (by simp only [fldAt_busErrors]; omega),
      getR_setR_fld _ _ _ (by simp only [fldAt_busFirst, fldAt_busErrors]; omega), getR_setR_self]
    refine Nat.mod_eq_of_lt (lt_of_le_of_lt (min_le_left _ _) ?_)
    exact Nat.sub_lt (Nat.two_pow_pos _) one_pos
  · rw [getR_lpuDone _ _ _ _ _ _ (by simp only [fldAt_busFirst]; omega),
      getR_busCounted _ _ _ _ _ (by simp only [fldAt_busFirst]; omega), getR_setR_self]
    split <;> rfl

end

/-! ### The self-test's commands (R464–R470) -/

section
variable {d : Dev} {b : BistSt} {r k a t sig n : Nat}

theorem checkShowVals_offCore (d : Dev) (r k : Nat) (l : List Int) : OffCore d (if r < 12 then checkShowVals d r k l else d) := by
  split
  case isTrue h => exact (OffCore.refl d).checkShowVals h k l
  case isFalse => exact .refl d

theorem SliceEnded.settle {e : List Nat} (h : SliceEnded b r e n d) : SliceEnded b r e n (settle d) := by
  obtain ⟨h1, h2⟩ := h
  refine ⟨fun hx => (settle_bist d).trans (h1 hx), fun hx => ?_⟩
  obtain ⟨hf, hw, he⟩ := h2 hx
  refine ⟨(isFenced_settle d r).trans hf, fun hq => (settle_bist d).trans (hw hq), fun hq hc => ?_⟩
  obtain ⟨hb, hn⟩ := he hq hc
  exact ⟨(settle_bist d).trans hb, (getR_settle ..).trans hn⟩

/-- The verdict of a slice that ends. -/
def sliceVerdict (d : Dev) (b : BistSt) (r k a t sig n es en : Nat) (ok : Bool) (vs : List Int) : Nat :=
  if n ≠ en ∨ sliceCut d b a < max d.ticks t then 3
  else if (if analogue r k then within d r k ok vs else sig == es) then 1 else 2

theorem doSliceEnd_none {es en : Nat} {ok : Bool} {vs : List Int} (h : ∀ b, d.bist = some b → b.cur = none) :
    doSliceEnd t sig n es en ok vs d = advance d t := by
  have hb : (advance d t).bist = d.bist := rfl
  unfold doSliceEnd
  simp only [hb]
  cases hd : d.bist with
  | none => rfl
  | some b => simp only [h b hd]

theorem doSliceEnd_ended {es en : Nat} {ok : Bool} {vs : List Int} (hb : d.bist = some b) (hc : b.cur = some (r, k, a))
    (hlt : max d.ticks t < budgetEnd d b) : SliceEnded b r [r, k, sliceVerdict d b r k a t sig n es en ok vs, sig, n]
      (bistRuns d) (doSliceEnd t sig n es en ok vs d) := by
  have hb' : (advance d t).bist = some b := hb
  have hbud : decide (budgetEnd (advance d t) b ≤ (advance d t).ticks) = false := decide_eq_false (Nat.not_le.2 hlt)
  have he : doSliceEnd t sig n es en ok vs d = sliceEnd (if r < 12 then checkShowVals (advance d t) r k vs else advance d t) b r k
      (sliceVerdict d b r k a t sig n es en ok vs) sig n vs false := by
    unfold doSliceEnd
    simp only [hb', hc, hbud]
    rfl
  rw [he, show bistRuns d = bistRuns (advance d t) from rfl, ← (checkShowVals_offCore (advance d t) r k vs).runs]
  exact sliceEnd_ended

theorem ticks_sliceEnd (d : Dev) (b : BistSt) (r k v sig n : Nat) (vs : List Int) (budget : Bool) :
    (sliceEnd d b r k v sig n vs budget).ticks = d.ticks := by
  rw [sliceEnd_eq]
  extract_lets c0 c e x
  have he : e.ticks = d.ticks := (sliceJudged_same d c r k v sig n vs budget).1
  have hx : x.1.ticks = e.ticks := by
    by_cases h : (c.todo.any fun e => e.1 == r) = true
    · rw [show x = _ from if_pos h]
    · rw [show x = _ from if_neg h]
      exact ticks_bistRelease e c r
  clear_value x
  split
  · rw [ticks_bistRest, hx, he]
  · rw [ticks_bistPut, hx, he]

theorem doSliceTimeout_none (h : ∀ b, d.bist = some b → b.cur = none) : doSliceTimeout t sig n d = advance d t := by
  unfold doSliceTimeout
  cases hd : d.bist with
  | none => rfl
  | some b => simp only [h b hd]

theorem doSliceTimeout_eq (hb : d.bist = some b) (hc : b.cur = some (r, k, a))
    (hlt : max d.ticks (max t (sliceCut d b a)) < budgetEnd d b) : doSliceTimeout t sig n d =
      sliceEnd (advance d (max t (sliceCut d b a))) b r k 3 sig n [] false := by
  have hbud : decide (budgetEnd (advance d (max t (sliceCut d b a))) b ≤ (advance d (max t (sliceCut d b a))).ticks) = false :=
    decide_eq_false (Nat.not_le.2 hlt)
  unfold doSliceTimeout
  simp only [hb, hc, hbud]

theorem doSliceStart_none (h : d.bist = none) : doSliceStart t d = advance d t := by
  have hb : (advance d t).bist = none := h
  unfold doSliceStart
  simp only [hb]

theorem doBudgetTimeout_none (h : d.bist = none) : doBudgetTimeout t sig n d = advance d t := by
  unfold doBudgetTimeout
  simp only [h]

/-- RUN_NOW may start a run. -/
abbrev runIdle (d : Dev) : Prop := d.bist = none ∧ d.boot.stop = none ∧ 6 ≤ getR d pgPkg F.PKG_BOOT_STAGE ∧ pState d ≠ 2

/-- The slices of the lines that are OFF. -/
abbrev offSlices (d : Dev) : List (Nat × Nat) := bistTodo d ((List.range 12).filter (fun n => (line d n).base == 0))

theorem runBusy_iff (d : Dev) : (d.bist.isSome ∨ d.boot.stop.isSome ∨ getR d pgPkg F.PKG_BOOT_STAGE < 6 ∨ pState d = 2) ↔ ¬runIdle d := by
  simp only [runIdle, Option.isSome_iff_ne_none, ← Nat.not_le]
  tauto

theorem runNow_none (h : ¬runIdle d ∨ offSlices d = []) : runNow d = d := by
  unfold runNow
  extract_lets todo
  by_cases hi : runIdle d
  · have hq : todo.isEmpty = true := by rw [List.isEmpty_iff]; exact h.resolve_left (not_not.2 hi)
    rw [if_neg (fun hx => (runBusy_iff d).1 hx hi), if_pos hq]
  · rw [if_pos ((runBusy_iff d).2 hi)]

theorem runNow_starts (h : runIdle d) (hq : offSlices d ≠ []) :
    getR (runNow d) pgBist cSTATE = 1 ∧ ∃ b, (runNow d).bist = some b ∧ b.cause = 2 ∧ b.todo = offSlices d ∧ b.cur = none ∧ b.done = [] := by
  have hne : (offSlices d).isEmpty = false := by simpa using hq
  have he : runNow d = bistBegin d 2 (offSlices d) := by
    unfold runNow
    rw [if_neg (fun hx => (runBusy_iff d).1 hx h)]
    exact if_neg (by rw [hne]; exact Bool.false_ne_true)
  rw [he]
  generalize offSlices d = todo at hne
  unfold bistBegin
  extract_lets b e
  rw [if_neg (by rw [hne]; exact Bool.false_ne_true)]
  refine ⟨?_, b, rfl, rfl, rfl, rfl, rfl⟩
  rw [state_bistPut]
  simp [bistRunning, b, hne, b2n]

end

end Sys2Proof.Machine

open Sys2Proof Sys2Proof.Machine

/-- Settles O60: a lane or bus unit changes its own page only while it runs, and a slice's end passes through the run as it stands. -/
theorem patternUnitsAndSelfTests : Obligations.PatternUnitsAndSelfTests := by
  unfold Obligations.PatternUnitsAndSelfTests
  intro s t i u hu hs
  extract_lets p d0 st loop runs old errors logged laneEnds bst busRefuse bist ended offLines idle
  have hlane (hi : i < 3) : (decide (i < 3) && decide (u < 8)) = true := by simp [hi, hu]
  have hbus (hi : i = 3 ∨ i = 4) : (decide (3 ≤ i) && decide (i < 5) && decide (u < 8)) = true := by
    obtain rfl | rfl := hi <;> simp [hu]
  have hends {n t' : Nat} {d : Dev} (h : LaneEnds (advance s.dev t') i u n d) : laneEnds (settle d) n := by
    obtain ⟨h1, h2, h3, h4, h5, -⟩ := h
    simp only [laneEnds, logged, getR_settle, evtRaw_settle, settle_ledgerOut]
    exact ⟨h1, h2, h3, h4, h5⟩
  refine ⟨?_, ?_, ?_, ?_, ?_, ?_, ?_, ?_, ?_, ?_, ?_, ?_, ?_, ?_, ?_, ?_, ?_, ?_, ?_, ?_, ?_, ?_, ?_, ?_, ?_, ?_, ?_⟩
  · exact fun hi hr h => (gives_of_write (by rfl) (hlane hi) hr hs).of_eq (laneStart_none d0 i u h)
  · exact fun hi hr h hp => (gives_of_write (by rfl) (hlane (by omega)) hr hs).of_eq
      (laneStart_refused d0 i u (by rw [hi]; exact hu) h hi hp)
  · intro hi hr hlt h hp
    refine does_of_gives ((gives_of_write (by rfl) (hlane hi) hr hs).of_eq (laneStart_starts d0 i u hlt h hp)) ?_
    simp only [getR_settle, settle_mem]
    exact laneStarted_spec d0 hi hu
  · exact fun e n hi hr h => (gives_of_write (by rfl) (hlane hi) hr hs).of_eq (laneEnd_idle d0 i u h)
  · exact fun e n hi hr h => does_of_gives (gives_of_write (by rfl) (hlane hi) hr hs) (hends (t' := t) (laneEnd_ends d0 i u e n h))
  · exact fun e n hi h => (gives_of_act (f := doLaneDuration t i u e n) (by rfl) (hlane hi) hs).of_eq (doLaneDuration_idle h)
  · intro e n hi h
    have hl := doLaneDuration_ends (t := t) (e := e) (n := n) h
    refine does_of_gives (gives_of_act (f := doLaneDuration t i u e n) (by rfl) (hlane hi) hs) ⟨hends hl, ?_⟩
    rw [settle_ticks, hl.ticks]
    exact laneOver_le s.dev i u t
  · exact fun hi h => (gives_of_act (by rfl) (hlane hi) hs).of_eq (doChecker_none h)
  · intro hi h
    refine does_of_gives ((gives_of_act (by rfl) (hlane hi) hs).of_eq (doChecker_locks h)) ?_
    obtain ⟨h1, h2, h3⟩ := checkerLocks_spec d0 i u
    have ht : (checkerLocks d0 i u).ticks = d0.ticks := rfl
    have hl : lpu (settle (checkerLocks d0 i u)) i u = lpu (checkerLocks d0 i u) i u := by simp [lpu]
    refine ⟨by rw [getR_settle]; exact h1, ?_, h3.settled, by rw [settle_evt]; rfl⟩
    rw [settle_ticks, ht, hl]
    exact h2
  · exact fun e n hi h => (gives_of_act (by rfl) (hlane hi) hs).of_eq (doLostLock_none h)
  · intro e n hi h1 h2
    refine does_of_gives ((gives_of_act (by rfl) (hlane hi) hs).of_eq (doLostLock_lost h1 h2)) ?_
    simp only [getR_settle, evtRaw_settle, settle_mem]
    exact lockLost_spec d0 i u e n
  · exact fun hi hr h => (gives_of_write (by rfl) (hlane hi) hr hs).of_eq (laneInject_none (d := d0) h)
  · intro hi hr h hl
    obtain ⟨h1, h2, h3⟩ := laneInject_spec (d := d0) h hl
    refine does_of_gives (gives_of_write (by rfl) (hlane hi) hr hs) ⟨mem_settle_out h1, ?_, ?_⟩
    · rw [getR_settle]; exact h2
    · rw [settle_evt]; exact h3
  · exact fun hi hr h => (gives_of_write (by rfl) (hbus hi) hr hs).of_eq (busStart_none d0 i u h)
  · exact fun hi hr hlt h hx => (gives_of_write (by rfl) (hbus hi) hr hs).of_eq (busStart_busy d0 i u hlt h hx)
  · intro hi hr hlt h hx
    refine does_of_gives ((gives_of_write (by rfl) (hbus hi) hr hs).of_eq (busStart_starts d0 i u hlt h hx)) ?_
    simp only [getR_settle, settle_mem]
    exact busStarted_spec d0 hu
  · intro e f l w hi h
    exact ⟨(gives_of_act (f := fun d => busEnd (advance d t) i u e f l w) (by rfl) (hbus hi) hs).of_eq (busEnd_idle d0 e f l w h),
      fun hr => (gives_of_write (by rfl) (hbus hi) hr hs).of_eq (busEnd_idle d0 e f l w h)⟩
  · intro e f l w hi h
    extract_lets ends
    have he : ends (settle (busEnd d0 i u e f l w)) := by
      obtain ⟨h1, h2, h3, h4, h5, h6⟩ := busEnd_spec d0 e f l w hi hu h
      simp only [ends, logged, getR_settle, evtRaw_settle, settle_ledgerOut]
      exact ⟨h1, h2, h3, h4, h5, h6⟩
    exact ⟨does_of_gives (gives_of_act (f := fun d => busEnd (advance d t) i u e f l w) (by rfl) (hbus hi) hs) he,
      fun hr => does_of_gives (gives_of_write (f := fun d => busEnd d i u e f l w) (by rfl) (hbus hi) hr hs) he⟩
  · intro hb c hc
    have hcur : ∀ b, s.dev.bist = some b → b.cur = none := fun b h => nomatch hb.symm.trans h
    simp only [List.mem_cons, List.not_mem_nil, or_false] at hc
    obtain rfl | rfl | rfl | rfl := hc
    · exact (gives_of_act (f := doSliceStart t) (by rfl) rfl hs).of_eq (doSliceStart_none hb)
    · exact (gives_of_act (f := doSliceEnd t 0 0 0 0 true []) (by rfl) rfl hs).of_eq (doSliceEnd_none hcur)
    · exact (gives_of_act (f := doSliceTimeout t 0 0) (by rfl) rfl hs).of_eq (doSliceTimeout_none hcur)
    · exact (gives_of_act (f := doBudgetTimeout t 0 0) (by rfl) rfl hs).of_eq (doBudgetTimeout_none hb)
  · intro b r k q hb hc hq hf hlt
    refine does_of_gives (gives_of_act (f := doSliceStart t) (by rfl) rfl hs) ?_
    simp only [bist, isFenced_settle, settle_bist, settle_ticks, settle_boot, getR_settle]
    exact doSliceStart_spec hb hc hq hf hlt
  · intro b r k a sig n es en ok vs hb hc hlt
    exact does_of_gives (gives_of_act (f := doSliceEnd t sig n es en ok vs) (by rfl) rfl hs) (doSliceEnd_ended hb hc hlt).settle
  · intro b r k a sig n hb hc hlt
    refine does_of_gives ((gives_of_act (f := doSliceTimeout t sig n) (by rfl) rfl hs).of_eq (doSliceTimeout_eq hb hc hlt)) ?_
    refine ⟨sliceEnd_ended.settle, ?_⟩
    rw [settle_ticks, ticks_sliceEnd]
    exact le_trans (le_max_right _ _) (le_max_right _ _)
  · intro b hb hc c hm
    have hcur : ∀ c, s.dev.bist = some c → c.cur = none := fun c h => by
      obtain rfl : b = c := Option.some.inj (hb.symm.trans h)
      exact hc
    simp only [List.mem_cons, List.not_mem_nil, or_false] at hm
    obtain rfl | rfl := hm
    · exact (gives_of_act (f := doSliceEnd t 0 0 0 0 true []) (by rfl) rfl hs).of_eq (doSliceEnd_none hcur)
    · exact (gives_of_act (f := doSliceTimeout t 0 0) (by rfl) rfl hs).of_eq (doSliceTimeout_none hcur)
  · intro b sig n hb hc hcause
    obtain ⟨h1, -, h3, h4⟩ := doBudgetTimeout_rests (t := t) (sig := sig) (n := n) hb hc
    refine does_of_gives (gives_of_act (f := doBudgetTimeout t sig n) (by rfl) rfl hs) ?_
    simp only [bist, settle_bist, settle_ticks, getR_settle, h3]
    exact ⟨h1 hcause, le_trans (le_max_right _ _) (le_max_right _ _), h4⟩
  · intro b sig n hb hc hcause
    obtain ⟨-, h2, h3, h4⟩ := doBudgetTimeout_rests (t := t) (sig := sig) (n := n) hb hc
    obtain ⟨hnone, hruns, hbit⟩ := h2 hcause
    refine does_of_gives (gives_of_act (f := doBudgetTimeout t sig n) (by rfl) rfl hs) ?_
    simp only [settle_bist, settle_ticks, getR_settle, evtRaw_settle, h3]
    exact ⟨hnone, le_trans (le_max_right _ _) (le_max_right _ _), hruns, h4, .inl hbit⟩
  · exact fun hr h => (gives_of_write (by rfl) rfl hr hs).of_eq (runNow_none (d := d0) h)
  · intro hr h hq
    refine does_of_gives (gives_of_write (by rfl) rfl hr hs) ?_
    simp only [bist, settle_bist, getR_settle]
    exact runNow_starts (d := d0) h hq
end

section
set_option Elab.async false
/-! PROOFS. A line that stops or starts leaves the start, the fences and the self-test alone (R12–R14, R451). -/

namespace Sys2Proof.Machine

open Sys2Proof

namespace OffCore

variable {d e : Dev}

/-! A line stops. -/

theorem setLine (h : OffCore d e) (n : Nat) (x : LineSt) : OffCore d (setLine e n x) := h

theorem hurdleShow (h : OffCore d e) (n : Nat) : OffCore d (hurdleShow e n) := by
  unfold Machine.hurdleShow
  extract_lets e1
  have h1 : OffCore d e1 := h.foldl fun d k _ => (refl d).line n 0x10 _
  exact h1.line n 0x10 _

theorem closeRec (h : OffCore d e) (n k c : Nat) : OffCore d (closeRec e n k c) := by
  unfold Machine.closeRec
  extract_lets y
  split
  · exact h
  · extract_lets endNo x e1 e2
    have h1 : OffCore d e1 := by
      unfold e1 setSeq setHurdle
      exact h
    clear_value e1
    have h2 : OffCore d e2 := by
      unfold e2
      split
      · exact h1
      · exact h1
    exact h2

theorem hurdleStop (h : OffCore d e) (n : Nat) : OffCore d (hurdleStop e n) := ((h.closeRec n 0 3).closeRec n 1 3).hurdleShow n

theorem clipRun (h : OffCore d e) (n t : Nat) : OffCore d (clipRun e n t) := by
  unfold Machine.clipRun
  extract_lets x b k e1
  have h1 : OffCore d e1 := h.setStarter n _
  clear_value e1
  exact .ite h ((h1.lineC n 1 k).raiseOn _ _ _ _)

theorem refShow (h : OffCore d e) (n : Nat) : OffCore d (refShow e n) := (h.line n 1 _).line n 1 _

theorem levelPut (h : OffCore d e) (n v : Nat) : OffCore d (levelPut e n v) :=
  .ite h (emit (e := Machine.setR e (pgStarter n) F.STARTER_LEVEL_OUT v) (h.line n 1 v) _)

theorem lineIdle (h : OffCore d e) (n : Nat) : OffCore d (lineIdle e n) := by
  unfold Machine.lineIdle
  extract_lets e1 x x0 e2 e3 e4 e5 y y0 e6 e7 e8 e9
  have h1 : OffCore d e1 := h.clipRun n _
  clear_value e1
  have h2 : OffCore d e2 := h1.setStarter n _
  clear_value e2
  have h3 : OffCore d e3 := h2.foldl fun d f _ => (refl d).line n 1 0
  clear_value e3
  have h4 : OffCore d e4 := h3.line n 1 _
  clear_value e4
  have h5 : OffCore d e5 := (h4.levelPut n 0).refShow n
  clear_value e5
  have h6 : OffCore d e6 := h5
  clear_value e6
  have h7 : OffCore d e7 := h6.line n 2 _
  clear_value e7
  have h8 : OffCore d e8 := h7.foldl fun d s _ => show OffCore d (setPipe d n s PipeSt.reset) from refl d
  clear_value e8
  have h9 : OffCore d e9 := h8.foldl fun d k _ =>
    show OffCore d (setRelay (setCond d n k CondSt.reset) n k { relay d n k with fifo := [] }) from refl d
  exact h9

theorem commitShow (h : OffCore d e) (n : Nat) : OffCore d (commitShow e n) := ((h.head n _).head n _).head n _

theorem stackShow (h : OffCore d e) (n : Nat) : OffCore d (stackShow e n) := h.line n 0xF _

theorem framesShow (h : OffCore d e) (n : Nat) : OffCore d (framesShow e n) := by
  unfold Machine.framesShow
  extract_lets st on e1 e2
  have h2 : OffCore d e2 := (h.line n 0xD _).line n 0xE _
  exact .ite (h2.line n 0xC 0) (.ite (h2.line n 0xC _) h2)

theorem nextShow (h : OffCore d e) (n : Nat) : OffCore d (nextShow e n) := by
  have hput {a : Dev} (ha : OffCore d a) (f g : Fld) (v w : Nat) :
      OffCore d (Machine.setR (Machine.setR a (pgLine n) f v) (pgLine n) g w) := (ha.head n v).head n w
  unfold Machine.nextShow
  extract_lets p x put
  split
  · exact hput (hput h ..) ..
  · exact hput (hput h ..) ..

theorem lineDown (h : OffCore d e) (n cause : Nat) : OffCore d (lineDown e n cause true) := by
  unfold Machine.lineDown
  extract_lets p x e1 x0 e2 e3 e4 e5 e6 e7
  have h1 : OffCore d e1 := .hurdleStop (.onlyIf h _ ((refl _).calAbandon n 3)) n
  clear_value e1
  have h2 : OffCore d e2 := h1
  clear_value e2
  have h3 : OffCore d e3 := (((h2.head n 0).head n 0).head n 0).head n 0
  clear_value e3
  have h6 : OffCore d e6 := (h3.lineShow n cause).lineIdle n
  clear_value e6
  have h7 : OffCore d e7 := ((h6.framesShow n).stackShow n).pipesShow n
  clear_value e7
  exact ((h7.commitShow n).nextShow n).eligShow n

theorem withdraw (h : OffCore d e) (n : Nat) : OffCore d (withdraw e n) := by
  unfold Machine.withdraw
  extract_lets x had e1
  have h1 : OffCore d e1 := h
  clear_value e1
  exact .onlyIf h1 _ ((refl e1).headC n 1)

theorem unitsReset (h : OffCore d e) (n : Nat) : OffCore d (unitsReset e n) := by
  unfold Machine.unitsReset
  extract_lets e1 e2
  have h1 : OffCore d e1 := h.foldl fun d c _ => (refl d).gateUnit n c
  clear_value e1
  have h2 : OffCore d e2 := h1
  clear_value e2
  exact h2.foldl fun d k _ => show OffCore d (setRelay (setToFrame d n k []) n k RelaySt.reset) from refl d

/-! A line starts. -/

theorem gateUnused (h : OffCore d e) (n : Nat) : OffCore d (gateUnused e n) := by
  unfold Machine.gateUnused
  extract_lets keep e1 e2
  have h1 : OffCore d e1 := h.foldl fun d c _ => (refl d).gateUnit n c
  clear_value e1
  have h2 : OffCore d e2 := h1.foldl fun d k _ => (refl d).gateUnit n (7 + k)
  clear_value e2
  exact .ite h2 (h2.gateUnit _ 0)

theorem partnerOff (h : OffCore d e) (n : Nat) : OffCore d (partnerOff e n) := by
  unfold Machine.partnerOff
  extract_lets m x0 e1
  have h1 : OffCore d e1 := (h.setLine m _).lineShow m 7
  clear_value e1
  exact .ite ((h1.gateUnit m 0).commitShow m) h

theorem avsHold (h : OffCore d e) (k : Nat) : OffCore d (avsHold e k) := by
  unfold Machine.avsHold avsPut
  extract_lets x0 e1
  have h1 : OffCore d e1 := h
  clear_value e1
  exact .ite h (.onlyIf h1 _ ((refl e1).emit _))

theorem wakeCluster (h : OffCore d e) (n c : Nat) : OffCore d (wakeCluster e n c) := by
  unfold Machine.wakeCluster
  extract_lets x e1
  have h1 : OffCore d e1 := h
  clear_value e1
  exact .ite h (.stalePages (.onlyIf h1 _ ((refl e1).avsHold _)) _)

theorem coresStale (h : OffCore d e) (n : Nat) : OffCore d (coresStale e n) :=
  rxShow (h.foldl fun d i _ => show OffCore d (setCal d (pgRx n) (coreAt d (pgRx n) i) true) from refl d) n

theorem partnerDark (h : OffCore d e) (n : Nat) : OffCore d (partnerDark e n) := by
  unfold Machine.partnerDark
  extract_lets m e1 x0 e2 e3
  have h1 : OffCore d e1 := .ite ((h.head m 0).head m 0) h
  clear_value e1
  have h2 : OffCore d e2 := (h1.setLine m _).lineShow m 7
  clear_value e2
  have h3 : OffCore d e3 := ((h2.framesShow m).wakeCluster m 0).gateUnused m
  clear_value e3
  exact .ite h (.onlyIf h3 _ ((((refl e3).coresStale m).calDue n 6).calEval n))

theorem strainShow (h : OffCore d e) (n : Nat) : OffCore d (strainShow e n) := by
  unfold Machine.strainShow
  extract_lets p xi g num den
  split
  · exact line (e := (freeV e).2) h n 0xE _
  · exact h.line n 0xE _

theorem planShow (h : OffCore d e) (n : Nat) : OffCore d (planShow e n) := by
  unfold Machine.planShow
  extract_lets p e1 q e2 e3
  have h1 : OffCore d e1 := h.line n 0xC _
  clear_value e1
  have h2 : OffCore d e2 := (h1.line n 0xD _).line n 0xD _
  clear_value e2
  have h3 : OffCore d e3 := (h2.line n 0xD _).line n 0xD _
  clear_value e3
  exact (h3.pipesShow n).strainShow n

theorem override (h : OffCore d e) (n : Nat) (ov : List Nat) : OffCore d (override e n ov) := by
  refine h.foldl fun a x hx => (refl a).setR _ (.inl ?_)
  simp only [overVals, List.mem_cons, List.not_mem_nil, or_false] at hx
  obtain rfl | rfl | rfl | rfl | rfl | rfl | rfl := hx
  · exact pgBist_lt_line n 0
  all_goals exact pgBist_lt_line n _

theorem startFrom (h : OffCore d e) (n : Nat) : OffCore d (startFrom e n) := by
  unfold Machine.startFrom
  extract_lets ov e1 x0 e2 e3 fine e4 e5
  have h1 : OffCore d e1 := (h.override n ov).planShow n
  clear_value e1
  have h2 : OffCore d e2 := h1.setLine n _
  clear_value e2
  have h3 : OffCore d e3 := h2.head n 1
  clear_value e3
  have h4 : OffCore d e4 := h3.head n _
  clear_value e4
  have h5 : OffCore d e5 := .ite (h4.partnerDark n) (h4.partnerOff n)
  clear_value e5
  exact .gateUnused (h5.foldl fun d x _ => (refl d).wakeCluster x.1 x.2) n

/-! Calibration loads. -/

theorem setCal (h : OffCore d e) (p u : Nat) (b : Bool) : OffCore d (setCal e p u b) := h

theorem calLoad (h : OffCore d e) (n : Nat) : OffCore d (calLoad e n) := by
  unfold Machine.calLoad
  extract_lets p e1 us
  split
  · extract_lets r e1 e2
    have h1 : OffCore d e1 := h.foldl fun d x _ => (refl d).line n 0x11 _
    clear_value e1
    have h2 : OffCore d e2 := (h1.line n 0x11 _).line n 0x11 _
    exact h2
  · have h1 : OffCore d e1 := h.foldl fun d x _ => (refl d).line n 0x11 _
    clear_value e1
    have h2 : OffCore d (us.foldl (fun d u => Machine.setCal d u.1 u.2 true) e1) := h1.foldl fun d x _ => (refl d).setCal x.1 x.2 true
    exact (h2.rxShow n).calDue n 5

/-- A write on page SVC, or on that of a Photo Finish channel. -/
theorem svc (h : OffCore d e) {f : Fld} (v : Nat) (hf : fldAt f < 131072) : OffCore d (Machine.setR e pgSvc f v) :=
  h.setR v (.inr ⟨by decide, hf⟩)

theorem svcLoad (h : OffCore d e) : OffCore d (svcLoad e) := by
  have hflds : ∀ x ∈ svcRecFlds, fldAt x.1 < 131072 := by decide
  unfold Machine.svcLoad
  extract_lets e1
  split
  · extract_lets r e2
    have h2 : OffCore d e2 := h.foldl fun d x hx => (refl d).svc _ (hflds x.1 (List.of_mem_zip hx).1)
    clear_value e2
    exact (h2.svc _ (by decide)).svc _ (by decide)
  · have h1 : OffCore d e1 := h.foldl fun d x hx => (refl d).svc _ (hflds x hx)
    clear_value e1
    exact ((h1.setCal pgSvc 0 true).setCal pgSvc 1 true).svcWant 5

theorem pfLoad (h : OffCore d e) {i : Nat} (hi : i < 8) : OffCore d (pfLoad e i) := by
  have hflds : ∀ f ∈ pfRecFlds, fldAt f < 131072 := by decide
  have hp : ¬CorePage (pgPf i) := by simp only [CorePage, pgPkg, pgDmc, pgLpu, pgBist, pgPf]; omega
  unfold Machine.pfLoad
  extract_lets p
  split
  · extract_lets r e1
    have h1 : OffCore d e1 := h.foldl fun d x hx => (refl d).setR _ (.inr ⟨hp, hflds x.1 (List.of_mem_zip hx).1⟩)
    clear_value e1
    exact h1
  · exact (show OffCore d (List.foldl (fun d f => Machine.setR d p f f.reset) e pfRecFlds) from
      h.foldl fun d x hx => (refl d).setR _ (.inr ⟨hp, hflds x hx⟩))

end OffCore

end Sys2Proof.Machine
end

section
set_option Elab.async false
/-! PROOFS. What leaves the state of a line as it is: what shows lines, what wakes and gates their clusters, and what another line
does. -/

namespace Sys2Proof.Machine

open Sys2Proof

/-- From `d` to `e` line `n` stays as it is. -/
def SameLine (n : Nat) (d e : Dev) : Prop := line e n = line d n

namespace SameLine

variable {n : Nat} {d e : Dev}

theorem refl (d : Dev) : SameLine n d d := rfl

theorem trans (a b c : Dev) (h : SameLine n a b) (g : SameLine n b c) : SameLine n a c := Eq.trans g h

theorem of_lines (h : SameLine n d e) {a : Dev} (g : a.lines = e.lines) : SameLine n d a :=
  (show line a n = line e n by simp only [line, g]).trans h

theorem setR (h : SameLine n d e) (p : Nat) (f : Fld) (v : Nat) : SameLine n d (setR e p f v) := h

theorem addC (h : SameLine n d e) (p : Nat) (f : Fld) (v : Nat) : SameLine n d (addC e p f v) := by rw [addC_eq]; exact h

theorem ite {a b : Dev} {c : Prop} [Decidable c] (ha : SameLine n d a) (hb : SameLine n d b) :
    SameLine n d (if c then a else b) := by split <;> assumption

theorem onlyIf {f : Dev → Dev} (h : SameLine n d e) (c : Bool) (hf : SameLine n e (f e)) : SameLine n d (onlyIf c f e) :=
  .ite (.trans _ _ _ h hf) h

theorem foldl {α : Type} {f : Dev → α → Dev} {l : List α} (h : SameLine n d e) (hf : ∀ d, ∀ a ∈ l, SameLine n d (f d a)) :
    SameLine n d (l.foldl f e) := .trans _ _ _ h (foldl_rel refl trans hf e)

theorem raiseOn (h : SameLine n d e) (p b : Nat) (was now : Bool) : SameLine n d (raiseOn e p b was now) :=
  .ite (show SameLine n d (raise e p b) from h) h

theorem setLine (h : SameLine n d e) {m : Nat} (hm : m ≠ n) (x : LineSt) : SameLine n d (setLine e m x) :=
  Eq.trans (Store.get_set_ne _ _ _ _ hm) h

/-- A change of Pacer's board. -/
theorem job {a : Dev} {P : Nat → Prop} (h : SameLine n d e) (g : Within noJobs P e a) : SameLine n d a :=
  h.of_lines (g.field (·.lines))

/-! What shows a line. -/

theorem bankUp (h : SameLine n d e) (m s b : Nat) : SameLine n d (bankUp m s b e) := by
  unfold Machine.bankUp
  extract_lets f run load
  have hl : SameLine n d (Machine.onlyIf load (fun d => coefLoad d m s b) e) := .ite (a := coefLoad e m s b) h h
  exact hl.setR _ _ _

theorem pipeShow (h : SameLine n d e) (m s : Nat) : SameLine n d (pipeShow e m s) := by
  unfold Machine.pipeShow Machine.bankShow
  extract_lets p e1 e2 e3
  have h3 : SameLine n d e3 := ((((h.setR ..).setR ..).setR ..).bankUp m s 0).bankUp m s 1
  exact .ite (h3.setR ..) (.ite (h3.setR ..) h3)

theorem pipesShow (h : SameLine n d e) (m : Nat) : SameLine n d (pipesShow e m) := h.foldl fun d s _ => (refl d).pipeShow m s

theorem eligShow (h : SameLine n d e) (m : Nat) : SameLine n d (eligShow e m) := by
  unfold Machine.eligShow
  extract_lets was
  exact .ite (.ite h h) h

theorem lineShow (h : SameLine n d e) (m cause : Nat) : SameLine n d (lineShow e m cause) := by
  unfold Machine.lineShow
  extract_lets p was now e1 e2 e3
  have h1 : SameLine n d e1 := h
  clear_value e1
  have h2 : SameLine n d e2 := h1
  clear_value e2
  have h3 : SameLine n d e3 := h2
  clear_value e3
  exact .ite h1 ((h3.eligShow m).pipesShow m)

theorem framesShow (h : SameLine n d e) (m : Nat) : SameLine n d (framesShow e m) := by
  unfold Machine.framesShow
  extract_lets st on e1 e2
  have h2 : SameLine n d e2 := h
  clear_value e2
  exact .ite h2 (.ite h2 h2)

theorem nextShow (h : SameLine n d e) (m : Nat) : SameLine n d (nextShow e m) := by
  unfold Machine.nextShow
  extract_lets p x put
  split
  · exact h
  · exact h

theorem lineIdle (h : SameLine n d e) (m : Nat) : SameLine n d (lineIdle e m) := by
  unfold Machine.lineIdle
  extract_lets e1 x x0 e2 e3 e4 e5 y y0 e6 e7 e8 e9
  have h1 : SameLine n d e1 := by
    unfold e1 Machine.clipRun
    extract_lets x b k a
    have ha : SameLine n d a := h
    clear_value a
    exact .ite h ((ha.addC ..).raiseOn ..)
  clear_value e1
  have h2 : SameLine n d e2 := h1
  clear_value e2
  have h3 : SameLine n d e3 := h2.foldl fun d f _ => (refl d).setR ..
  clear_value e3
  have h4 : SameLine n d e4 := h3
  clear_value e4
  have h5 : SameLine n d (levelPut e4 m 0) := .ite h4 h4
  have h6 : SameLine n d e5 := h5
  clear_value e5
  have h7 : SameLine n d e7 := h6
  clear_value e7
  have h8 : SameLine n d e8 := h7.foldl fun d s _ => show SameLine n d (setPipe d m s PipeSt.reset) from refl d
  clear_value e8
  have h9 : SameLine n d e9 := h8.foldl fun d k _ =>
    show SameLine n d (setRelay (setCond d m k CondSt.reset) m k { relay d m k with fifo := [] }) from refl d
  exact h9

/-! Clusters and what other lines do. -/

theorem gateUnit (h : SameLine n d e) (m : Nat) {c : Nat} (hc : c < 11) : SameLine n d (gateUnit e m c) :=
  h.of_lines (gateUnit_planKept e m hc).lines

theorem stalePages (h : SameLine n d e) (ps : List Nat) : SameLine n d (stalePages e ps) :=
  h.foldl fun d _ _ => (refl d).foldl fun d _ _ => .ite (refl d) rfl

theorem avsHold (h : SameLine n d e) (k : Nat) : SameLine n d (avsHold e k) := by
  unfold Machine.avsHold avsPut
  extract_lets x0 e1
  have h1 : SameLine n d e1 := h
  clear_value e1
  exact .ite h (.onlyIf h1 _ rfl)

theorem wakeCluster (h : SameLine n d e) (m c : Nat) : SameLine n d (wakeCluster e m c) := by
  unfold Machine.wakeCluster
  extract_lets x e1
  have h1 : SameLine n d e1 := h
  clear_value e1
  exact .ite h (.stalePages (.onlyIf h1 _ ((refl e1).avsHold _)) _)

theorem wakeAll (h : SameLine n d e) (l : List (Nat × Nat)) : SameLine n d (wakeAll e l) :=
  h.foldl fun d x _ => (refl d).wakeCluster x.1 x.2

theorem calShow (h : SameLine n d e) (m : Nat) : SameLine n d (calShow e m) := h

theorem calDue (h : SameLine n d e) (m c : Nat) : SameLine n d (calDue e m c) := .ite h h

theorem rxShow (h : SameLine n d e) (m : Nat) : SameLine n d (rxShow e m) := h

theorem setCal (h : SameLine n d e) (p u : Nat) (b : Bool) : SameLine n d (setCal e p u b) := h

theorem coresStale (h : SameLine n d e) (m : Nat) : SameLine n d (coresStale e m) := by
  unfold Machine.coresStale
  exact (h.foldl fun d i _ => (refl d).setCal (pgRx m) (coreAt d (pgRx m) i) true).rxShow m

theorem forceJob (h : SameLine n d e) (o : Nat) : SameLine n d (forceJob e o) := by
  unfold Machine.forceJob Machine.forceEntry
  split
  case h_1 j hj =>
    extract_lets e1 e2 own
    have h1 : SameLine n d e1 := h
    clear_value e1
    exact .ite h (show SameLine n d (raise (bump e1 pgPace F.PACE_JOBS_FORCED) pgPace 11) from h1.addC ..)
  case h_2 => exact h

theorem calEval (h : SameLine n d e) (m : Nat) : SameLine n d (calEval e m) := by
  unfold Machine.calEval
  extract_lets x cs from_ el per dr hot old due a1 late now forced bits a2 e1 e2
  refine .ite (h.calShow m) (.ite ((h.job (freeJob_within e m)).calShow m) (.calShow ?_ m))
  have h1 : SameLine n d e1 := h
  clear_value e1
  unfold e2
  clear_value a2
  cases a2 with
  | none => exact h1.job (freeJob_within e1 m)
  | some a => exact .onlyIf (h1.job (postJob_within e1 _ _ _ _)) _ ((refl _).forceJob m)

theorem gateUnused (h : SameLine n d e) (m : Nat) : SameLine n d (gateUnused e m) := .trans _ _ _ h (line_gateUnused e m n)

theorem commitShow (h : SameLine n d e) (m : Nat) : SameLine n d (commitShow e m) := .trans _ _ _ h (line_commitShow e m n)

theorem partnerOff (h : SameLine n d e) (hn : partner n ≠ n) : SameLine n d (partnerOff e n) := by
  unfold Machine.partnerOff
  extract_lets m x0 e1
  have h1 : SameLine n d e1 := (h.setLine (m := m) hn { line e m with base := 0 }).lineShow m 7
  clear_value e1
  exact .ite ((h1.gateUnit m (by decide)).commitShow m) h

theorem partnerDark (h : SameLine n d e) (hn : partner n ≠ n) : SameLine n d (partnerDark e n) := by
  unfold Machine.partnerDark
  extract_lets m e1 x0 e2 e3
  have h1 : SameLine n d e1 := .ite ((h.setR ..).setR ..) h
  clear_value e1
  have h2 : SameLine n d e2 := (h1.setLine (m := m) hn { line e1 m with base := 6, waitWake := false }).lineShow m 7
  clear_value e2
  have h3 : SameLine n d e3 := ((h2.framesShow m).wakeCluster m 0).gateUnused m
  clear_value e3
  exact .ite h (.onlyIf h3 _ ((((refl e3).coresStale m).calDue n 6).calEval n))

end SameLine

end Sys2Proof.Machine
end

section
set_option Elab.async false
/-! PROOFS. Line resets (R451, R452): what one leaves, and the release of its fence. -/

namespace Sys2Proof.Machine

open Sys2Proof

/-! ### A line goes OFF -/

section
variable (d : Dev) (n : Nat)

theorem base_lineDown (cause : Nat) : (line (lineDown d n cause true) n).base = 0 := by
  unfold lineDown
  extract_lets p x e1 x0 e2 e3 e4 e5 e6 e7
  have h2 : (line e2 n).base = 0 := by
    rw [show line e2 n = _ from Store.get_set_self ..]
    rfl
  clear_value e2
  have h3 : SameLine n e2 e3 := rfl
  clear_value e3
  have h4 : SameLine n e2 e4 := h3.lineShow n cause
  clear_value e4
  have h5 : SameLine n e2 e5 := h4.lineIdle n
  clear_value e5
  have h6 : SameLine n e2 (stackShow (framesShow e5 n) n) := h5.framesShow n
  have h7 : SameLine n e2 e7 := h6.pipesShow n
  clear_value e7
  have h8 : SameLine n e2 (eligShow (nextShow (commitShow e7 n) n) n) := ((h7.commitShow n).nextShow n).eligShow n
  exact (congrArg LineSt.base h8).trans h2

theorem sameLine_unitsReset : SameLine n d (unitsReset d n) := by
  unfold unitsReset
  extract_lets e1 e2
  have h1 : SameLine n d e1 := (SameLine.refl d).foldl fun d c hc => (SameLine.refl d).gateUnit n (List.mem_range.1 hc)
  clear_value e1
  have h2 : SameLine n d e2 := h1
  clear_value e2
  exact h2.foldl fun d k _ => show SameLine n d (setRelay (setToFrame d n k []) n k RelaySt.reset) from rfl

/-- The line off, its commits withdrawn and its units reset. -/
def lineCleared (d : Dev) (n : Nat) : Dev :=
  let x := freeV (withdraw d n)
  onlyIf ((line d n).base != 0 && flagL d (pgLine n) F.LINE_FINE) (fun d => gateUnit d (partner n) 0)
    (unitsReset (lineDown x.2 n (x.1 % 256) true) n)

/-- The fence of the line, and the tick of its release. -/
def lineFenced (d : Dev) (n : Nat) : Dev :=
  { d with fenced := n :: d.fenced.filter (· != n), boot := { d.boot with
      freeAt := Store.set d.boot.freeAt 0 n (d.ticks + msT 1 + 1), frozenAt := Store.erase d.boot.frozenAt n } }

theorem lineReset_eq (cause : Nat) : lineReset d n cause =
    ledgerNow (raise (bump (lineFenced (lineCleared d n) n) pgPkg F.PKG_LINE_RESETS) pgPkg 14) 0x0705 0xF (typeCode .pkg) [n, cause] := rfl

theorem lineCleared_offCore : OffCore d (lineCleared d n) := by
  unfold lineCleared
  extract_lets x
  have h1 : OffCore d x.2 := (OffCore.refl d).withdraw n
  exact .onlyIf ((h1.lineDown n _).unitsReset n) _ ((OffCore.refl _).gateUnit _ 0)

theorem base_lineCleared : (line (lineCleared d n) n).base = 0 := by
  unfold lineCleared
  extract_lets x
  have h1 : SameLine n (lineDown x.2 n (x.1 % 256) true) (unitsReset (lineDown x.2 n (x.1 % 256) true) n) := sameLine_unitsReset _ n
  have h2 := h1.onlyIf ((line d n).base != 0 && flagL d (pgLine n) F.LINE_FINE) (f := fun d => gateUnit d (partner n) 0)
    ((SameLine.refl _).gateUnit _ (by decide))
  exact (congrArg LineSt.base h2).trans (base_lineDown x.2 n _)

/-- What a line reset leaves. -/
structure LineReset (d : Dev) (n : Nat) (e : Dev) : Prop where
  fenced : e.fenced = n :: d.fenced.filter (· != n)
  base : (line e n).base = 0
  count : getR e pgPkg F.PKG_LINE_RESETS = min (getR d pgPkg F.PKG_LINE_RESETS + 1) (2 ^ 32 - 1)
  bit : (evtRaw e pgPkg).testBit 14 = true
  free : Store.get e.boot.freeAt 0 n = d.ticks + 100001
  mem : e.mem = d.mem
  ticks : e.ticks = d.ticks

theorem lineReset_spec (cause : Nat) : LineReset d n (lineReset d n cause) := by
  rw [lineReset_eq]
  have hc := lineCleared_offCore d n
  have hb := base_lineCleared d n
  generalize lineCleared d n = e at hc hb
  have hbump : bump (lineFenced e n) pgPkg F.PKG_LINE_RESETS = setR (lineFenced e n) pgPkg F.PKG_LINE_RESETS
      (min (getR e pgPkg F.PKG_LINE_RESETS + 1) (2 ^ 32 - 1)) := addC_eq ..
  refine ⟨?_, ?_, ?_, raise_bit .., ?_, ?_, ?_⟩
  · rw [hbump]
    exact congrArg (fun l => n :: List.filter (· != n) l) hc.fenced
  · rw [hbump]
    exact hb
  · refine (getR_addC_narrow (lineFenced e n) pgPkg 1 (by decide)).trans ?_
    exact congrArg (fun v => min (v + 1) (2 ^ 32 - 1)) (hc.getR_eq (.inl rfl) (by decide))
  · rw [hbump, ← hc.ticks]
    exact Store.get_set_self e.boot.freeAt 0 n (e.ticks + msT 1 + 1)
  · rw [hbump]
    exact hc.mem
  · rw [hbump]
    exact hc.ticks

theorem isFenced_lineReset (cause : Nat) : isFenced (lineReset d n cause) n = true := by
  rw [isFenced, (lineReset_spec d n cause).fenced]
  simp

theorem isFenced_lineReset_of {k : Nat} (cause : Nat) (h : isFenced d k = true) : isFenced (lineReset d n cause) k = true := by
  rw [isFenced, (lineReset_spec d n cause).fenced]
  rw [isFenced] at h
  by_cases hk : k = n
  · simp [hk]
  · simp only [List.contains_eq_mem, decide_eq_true_eq, List.mem_cons, List.mem_filter, bne_iff_ne] at h ⊢
    exact .inr ⟨h, hk⟩

end

/-! ### The word LINE_RESET -/

/-- The lines that the word resets. -/
def resetLines (d : Dev) (m : Nat) : List Nat :=
  ((List.range 12).filter (bit m)).filter (fun n => (line d n).base != 6 && !isFenced d n)

/-- A line of the word is DARK. -/
def darkLine (d : Dev) (m : Nat) : Bool := !(((List.range 12).filter (bit m)).filter (fun n => (line d n).base == 6)).isEmpty

theorem lineResets_bad {d : Dev} {m key : Nat} (h : key ≠ 0x5A17) : lineResets d m key = d :=
  if_pos (by simpa [keyGood] using h)

theorem lineResets_good (d : Dev) (m : Nat) : lineResets d m 0x5A17 =
    setR ((resetLines d m).foldl (fun d n => lineReset d n 0) d) pgPkg F.PKG_LINE_RESET_ERR (b2n (darkLine d m)) := rfl

theorem darkLine_iff (d : Dev) (m : Nat) : darkLine d m = true ↔ ∃ k < 12, m.testBit k = true ∧ (line d k).base = 6 := by
  simp only [darkLine, Bool.not_eq_true', List.isEmpty_eq_false_iff_exists_mem, List.mem_filter, List.mem_range, bit_eq_testBit,
    beq_iff_eq, and_assoc]

theorem isFenced_resets {l : List Nat} {k : Nat} (d : Dev) (h : isFenced d k = true ∨ k ∈ l) :
    isFenced (l.foldl (fun d n => lineReset d n 0) d) k = true := by
  induction l generalizing d with
  | nil => exact h.resolve_right (List.not_mem_nil)
  | cons n l ih =>
    refine ih _ ?_
    obtain h | h := h
    · exact .inl (isFenced_lineReset_of d n 0 h)
    · obtain rfl | h := List.mem_cons.1 h
      · exact .inl (isFenced_lineReset d k 0)
      · exact .inr h

theorem lineResets_fenced (d : Dev) (m : Nat) {k : Nat} (hk : k < 12) (hm : m.testBit k = true) (hb : (line d k).base ≠ 6) :
    isFenced (lineResets d m 0x5A17) k = true := by
  rw [lineResets_good]
  refine isFenced_resets d ?_
  by_cases hf : isFenced d k = true
  · exact .inl hf
  · refine .inr ?_
    simp only [resetLines, List.mem_filter, List.mem_range, bit_eq_testBit, Bool.and_eq_true, bne_iff_ne, Bool.not_eq_true']
    exact ⟨⟨hk, hm⟩, hb, by simpa using hf⟩

/-- The word for one line. -/
theorem filter_bit_single {n : Nat} (hn : n < 12) : (List.range 12).filter (bit (2 ^ n)) = [n] := by
  have h : ∀ n < 12, (List.range 12).filter (bit (2 ^ n)) = [n] := by decide
  exact h n hn

theorem lineResets_dark {d : Dev} {n : Nat} (hn : n < 12) (hb : (line d n).base = 6) :
    lineResets d (2 ^ n) 0x5A17 = setR d pgPkg F.PKG_LINE_RESET_ERR 1 := by
  rw [lineResets_good, resetLines, darkLine, filter_bit_single hn]
  simp [hb, b2n]

theorem lineResets_again {d : Dev} {n : Nat} (hn : n < 12) (hb : (line d n).base ≠ 6) (hf : isFenced d n = true) :
    lineResets d (2 ^ n) 0x5A17 = setR d pgPkg F.PKG_LINE_RESET_ERR 0 := by
  rw [lineResets_good, resetLines, darkLine, filter_bit_single hn]
  simp [hb, hf, b2n]

theorem lineResets_one {d : Dev} {n : Nat} (hn : n < 12) (hb : (line d n).base ≠ 6) (hf : isFenced d n = false) :
    lineResets d (2 ^ n) 0x5A17 = setR (lineReset d n 0) pgPkg F.PKG_LINE_RESET_ERR 0 := by
  rw [lineResets_good, resetLines, darkLine, filter_bit_single hn]
  simp [hb, hf, b2n]

/-! ### The fence falls and the line starts (R451) -/

/-- The power state that the part is in. -/
abbrev pstateNow (d : Dev) : Nat := getR d pgPace F.PACE_PSTATE_NOW

/-- From `d` to `e` lines, Pacer, the start and the registers of line `n` stay, and so does the power state. -/
def Calm (n : Nat) (d e : Dev) : Prop :=
  e.lines = d.lines ∧ e.pacer = d.pacer ∧ e.boot = d.boot ∧ pstateNow e = pstateNow d ∧
  ∀ f, fldAt f < 131072 → getR e (pgLine n) f = getR d (pgLine n) f

namespace Calm

variable {n : Nat} {d e : Dev}

theorem refl (d : Dev) : Calm n d d := ⟨rfl, rfl, rfl, rfl, fun _ _ => rfl⟩

theorem trans (a b c : Dev) (h : Calm n a b) (g : Calm n b c) : Calm n a c := by
  obtain ⟨hl, hp, hb, hs, hr⟩ := h
  obtain ⟨gl, gp, gb, gs, gr⟩ := g
  exact ⟨gl.trans hl, gp.trans hp, gb.trans hb, gs.trans hs, fun f hf => (gr f hf).trans (hr f hf)⟩

/-- A write elsewhere on Pacer's page. -/
theorem pace (h : Calm n d e) {f : Fld} (v : Nat) (hf : fldAt f < 131072) (hne : fldAt f ≠ fldAt F.PACE_PSTATE_NOW) :
    Calm n d (setR e pgPace f v) :=
  h.trans _ _ _ ⟨rfl, rfl, rfl, getR_setR_fld e _ v hne, fun _ hg => getR_setR_page e v (by unfold pgPace pgLine lineBase; omega) hf hg⟩

/-- A field of an entry of the board. -/
theorem entry (h : Calm n d e) {f : Fld} (v : Nat) (hf : 98304 ≤ fldAt f ∧ fldAt f < 131072) : Calm n d (setR e pgPace f v) :=
  h.pace v hf.2 (by rw [show fldAt F.PACE_PSTATE_NOW = 32780 from rfl]; omega)

theorem cal (h : Calm n d e) {f : Fld} (v : Nat) (hf : fldAt f < 131072) : Calm n d (setR e (pgCal n) f v) :=
  h.trans _ _ _ ⟨rfl, rfl, rfl, getR_setR_page e v (by unfold pgPace pgCal lineBase; omega) hf (by decide),
    fun _ hg => getR_setR_page e v (by unfold pgCal pgLine; omega) hf hg⟩

theorem ite {a b : Dev} {c : Prop} [Decidable c] (ha : Calm n d a) (hb : Calm n d b) : Calm n d (if c then a else b) := by
  split <;> assumption

theorem onlyIf {f : Dev → Dev} (h : Calm n d e) (c : Bool) (hf : Calm n e (f e)) : Calm n d (onlyIf c f e) :=
  .ite (.trans _ _ _ h hf) h

theorem calShow (h : Calm n d e) : Calm n d (calShow e n) := h.cal _ (by decide)

theorem freeJob (h : Calm n d e) (o : Nat) : Calm n d (freeJob e o) := by
  unfold Machine.freeJob
  split
  case h_1 j hj =>
    have hlt := List.mem_range.1 (List.mem_of_find?_eq_some hj)
    have hw := freeEntry_within e hlt
    refine h.trans _ _ _ ⟨hw.field (·.lines), hw.field (·.pacer), hw.field (·.boot), ?_, fun f hf => hw.keeps _ f ?_ hf⟩
    · refine Store.get_clearRange _ _ ?_
      rw [key_eq, key_eq]
      simp only [fldAt, F.PACE_PSTATE_NOW]
      omega
    · unfold pgPace pgLine lineBase
      omega
  case h_2 => exact h

theorem fillJob (h : Calm n d e) {j : Nat} (hj : j < 48) (own ln cls cost dur dl : Nat) :
    Calm n d (fillJob e j own ln cls cost dur dl) := by
  unfold Machine.fillJob
  iterate 9 refine .entry ?_ _ (by simp only [fldAt, F.PACE_J_OWNER, F.PACE_J_LINE, F.PACE_J_CLASS, F.PACE_J_FORCED,
    F.PACE_J_RUNNING, F.PACE_J_VALID, F.PACE_J_COST, F.PACE_J_DUR, F.PACE_J_DEADLINE]; omega)
  exact h

theorem jobOwner (h : Calm n d e) (l : Store Nat) : Calm n d { e with jobOwner := l } := h

theorem postJob (h : Calm n d e) (o cost dur dl : Nat) : Calm n d (postJob e o cost dur dl) := by
  unfold Machine.postJob
  split
  · exact h
  · split
    · exact h
    case h_2 j hj => exact (h.fillJob (List.mem_range.1 (List.mem_of_find?_eq_some hj)) ..).jobOwner _

theorem forceJob (h : Calm n d e) (o : Nat) : Calm n d (forceJob e o) := by
  unfold Machine.forceJob Machine.forceEntry
  split
  case h_1 j hj =>
    have hlt := List.mem_range.1 (List.mem_of_find?_eq_some hj)
    extract_lets e1 e2 own
    have h1 : Calm n d e1 := h.entry 1 (by simp only [fldAt, F.PACE_J_FORCED]; omega)
    clear_value e1
    have h2 : Calm n d (bump e1 pgPace F.PACE_JOBS_FORCED) := by
      unfold bump
      rw [addC_eq]
      exact h1.pace _ (by decide) (by decide)
    exact .ite h h2
  case h_2 => exact h

theorem calEval (h : Calm n d e) : Calm n d (calEval e n) := by
  unfold Machine.calEval
  extract_lets x cs from_ el per dr hot old due a1 late now forced bits a2 e1 e2
  refine .ite h.calShow (.ite (h.freeJob n).calShow (.calShow ?_))
  have h1 : Calm n d e1 := h
  clear_value e1
  unfold e2
  clear_value a2
  cases a2 with
  | none => exact h1.freeJob n
  | some a => exact .onlyIf (h1.postJob ..) _ ((refl _).forceJob n)

theorem foldl {α : Type} {f : Dev → α → Dev} {l : List α} (h : Calm n d e) (hf : ∀ d, ∀ a ∈ l, Calm n d (f d a)) :
    Calm n d (l.foldl f e) := .trans _ _ _ h (foldl_rel refl trans hf e)

theorem enterStale (d : Dev) (p u : Nat) : Calm n d (enterStale d p u) := .ite (refl d) (refl d)

theorem setCal (d : Dev) (p u : Nat) (b : Bool) : Calm n d (setCal d p u b) := refl d

theorem calDue (h : Calm n d e) (c : Nat) : Calm n d (calDue e n c) := .ite h h

theorem unfence (d : Dev) (hn : n < 12) : Calm n d (unfence d n) := by
  unfold Machine.unfence
  extract_lets e1 e2 us e3
  have h1 : Calm n d e1 := refl d
  clear_value e1
  have h2 : Calm n d e2 := h1.foldl fun d p _ => (refl d).foldl fun d u _ => enterStale d p u
  clear_value e2
  have h3 : Calm n d e3 := h2.foldl fun d u _ => setCal d u.1 u.2 true
  clear_value e3
  rw [if_pos hn]
  exact (h3.calDue 7).calEval

end Calm

/-- The line may start once its fence is down. -/
def lineMayGo (d : Dev) (n : Nat) : Bool := flagL d (pgLine n) F.LINE_RUN && (line d n).base == 0 && d.boot.stop.isNone

/-- Line `n` waits for no release any more. -/
def unawaited (d : Dev) (n : Nat) : Dev := { d with boot := { d.boot with freeAt := Store.erase d.boot.freeAt n } }

theorem freeAt_unawaited (d : Dev) (n : Nat) : Store.get (unawaited d n).boot.freeAt 0 n = 0 := by
  simp [unawaited, Store.get, Store.find_erase_self]

/-- The release of the fence. -/
def released (d : Dev) (n : Nat) : Dev := unfence (unawaited d n) n

theorem doResetRelease_none {d : Dev} {t n : Nat} (h : Store.get d.boot.freeAt 0 n = 0) : doResetRelease t n d = advance d t := by
  unfold doResetRelease
  simp only [h]

/-- A line whose fence is down goes on: it starts, or is held, where it may. -/
def lineResumes (d : Dev) (n : Nat) : Dev :=
  if lineMayGo d n then (if linesHeld d then holdLine d n true else startFrom d n) else d

theorem lineResumes_eq (d : Dev) (n : Nat) : (if (!(flagL d (pgLine n) F.LINE_RUN && (line d n).base == 0 && d.boot.stop.isNone)) = true
    then d else if linesHeld d then holdLine d n true else startFrom d n) = lineResumes d n := by
  unfold lineResumes lineMayGo
  cases flagL d (pgLine n) F.LINE_RUN && (line d n).base == 0 && d.boot.stop.isNone <;> rfl

theorem doResetRelease_some {d : Dev} {t n a : Nat} (h : Store.get d.boot.freeAt 0 n = a + 1) : doResetRelease t n d =
    lineResumes (released (advance d (max t a)) n) n := by
  unfold doResetRelease
  simp only [h]
  exact lineResumes_eq (released (advance d (max t a)) n) n

theorem released_offCore (d : Dev) (n : Nat) :
    OffCore (opened (unawaited d n) n) (released d n) := .of_unfence _ n

theorem released_calm (d : Dev) {n : Nat} (hn : n < 12) :
    Calm n (unawaited d n) (released d n) := .unfence _ hn

theorem linesHeld_congr {d e : Dev} (hp : pstateNow e = pstateNow d) (hg : e.pacer = d.pacer) (hs : e.boot.stop = d.boot.stop) :
    linesHeld e = linesHeld d := by
  rw [linesHeld, linesHeld, hg, hs]
  rw [show getR e pgPace F.PACE_PSTATE_NOW = _ from hp]

theorem partner_ne (n : Nat) : partner n ≠ n := by unfold partner; split <;> omega

/-- A line that starts waits for its clusters. -/
theorem waitWake_startFrom (d : Dev) (n : Nat) : (line (startFrom d n) n).waitWake = true := by
  unfold startFrom
  extract_lets ov e1 x0 e2 e3 fine e4 e5
  clear_value e1 ov
  have h2 : (line e2 n).waitWake = true := congrArg LineSt.waitWake (line_setLine_self e1 n _)
  clear_value e2
  have h4 : SameLine n e2 e4 := ((SameLine.refl e2).setR ..).setR ..
  clear_value e4
  have h5 : SameLine n e2 e5 := .ite (h4.partnerDark (partner_ne n)) (h4.partnerOff (partner_ne n))
  clear_value e5
  have h6 : SameLine n e2 (gateUnused (wakeAll e5 (keepSet e5 n)) n) := (h5.wakeAll _).gateUnused n
  exact (congrArg LineSt.waitWake h6).trans h2

theorem doResetRelease_spec {d : Dev} {t n a : Nat} (hn : n < 12) (h : Store.get d.boot.freeAt 0 n = a + 1) :
    isFenced (doResetRelease t n d) n = false ∧ Store.get (doResetRelease t n d).boot.freeAt 0 n = 0 ∧
    a ≤ (doResetRelease t n d).ticks ∧ (flagL d (pgLine n) F.LINE_RUN = true → (line d n).base = 0 → d.boot.stop = none →
      linesHeld d = false → (line (doResetRelease t n d) n).waitWake = true) := by
  rw [doResetRelease_some h]
  have ho := released_offCore (advance d (max t a)) n
  have hc := released_calm (advance d (max t a)) hn
  generalize released (advance d (max t a)) n = e at ho hc
  have hfen : isFenced e n = false := by
    rw [isFenced, ho.fenced]
    simp [opened]
  have hfree : Store.get e.boot.freeAt 0 n = 0 := by
    rw [ho.boot]
    exact freeAt_unawaited _ n
  have hticks : a ≤ e.ticks := by
    rw [ho.ticks]
    exact le_trans (le_max_right _ _) (le_max_right _ _)
  have hgo : OffCore e (lineResumes e n) := .ite (.ite (.refl e) ((OffCore.refl e).startFrom n)) (.refl e)
  refine ⟨?_, ?_, ?_, fun hrun hbase hstop hheld => ?_⟩
  · rw [isFenced, hgo.fenced]; exact hfen
  · rw [hgo.boot]; exact hfree
  · rw [hgo.ticks]; exact hticks
  · obtain ⟨hl, hp, hb, hs, hr⟩ := hc
    have h1 : lineMayGo e n = true := by
      have hrun' : flagL e (pgLine n) F.LINE_RUN = true := by
        rw [flagL, getL, show getR e _ _ = _ from hr (liveF F.LINE_RUN) (by decide)]
        exact hrun
      have hbase' : (line e n).base = 0 := by
        rw [line, show e.lines = _ from hl]
        exact hbase
      have hstop' : e.boot.stop = none := by
        rw [show e.boot = _ from hb]
        exact hstop
      simp [lineMayGo, hrun', hbase', hstop']
    have h2 : linesHeld e = false := (linesHeld_congr hs hp (congrArg BootSt.stop hb)).trans hheld
    rw [lineResumes, if_pos h1, if_neg (by rw [h2]; exact Bool.false_ne_true)]
    exact waitWake_startFrom e n

/-! ### A line that stays FROZEN (R452) -/

theorem doAutoReset_none {d : Dev} {t n : Nat} (h : getR d pgPkg F.PKG_LINE_AUTO_S = 0 ∨ Store.get d.boot.frozenAt 0 n = 0 ∨
    isFenced d n = true ∨ (line d n).base = 6) : doAutoReset t n d = advance d t := if_pos h

/-- The line is reset, and the tick of its reset kept. -/
def autoReset (d : Dev) (n : Nat) : Dev :=
  let e := lineReset d n 1
  { e with boot := { e.boot with autoAt := Store.set e.boot.autoAt 0 n (e.ticks + 1) } }

/-- The tick from which a line FROZEN for `s` seconds is reset. -/
def autoDue (d : Dev) (n : Nat) : Nat :=
  max (Store.get d.boot.frozenAt 0 n - 1 + sT (getR d pgPkg F.PKG_LINE_AUTO_S))
    (if Store.get d.boot.autoAt 0 n = 0 then 0 else Store.get d.boot.autoAt 0 n - 1 + sT (10 * getR d pgPkg F.PKG_LINE_AUTO_S))

theorem doAutoReset_resets {d : Dev} {t n : Nat} (h0 : getR d pgPkg F.PKG_LINE_AUTO_S ≠ 0) (h1 : Store.get d.boot.frozenAt 0 n ≠ 0)
    (h2 : isFenced d n = false) (h3 : (line d n).base ≠ 6) : doAutoReset t n d = autoReset (advance d (max t (autoDue d n))) n :=
  if_neg (by simp [h0, h1, h2, h3])

end Sys2Proof.Machine
end

section
set_option Elab.async false
/-! PROOFS. The stages of a start (R443–R445, R447): what its loads leave alone, and what each stage shows. -/

namespace Sys2Proof.Machine

open Sys2Proof

/-! ### What the loads of a start leave alone (R444) -/

/-- The registers that a start shows: its stage and the states of the DRAM controllers. -/
def bootRegs : List (Nat × Fld) := [(pgPkg, F.PKG_BOOT_STAGE), (pgDmc 0, cSTATE), (pgDmc 1, cSTATE)]

/-- From `d` to `e` the start and those registers stay. -/
def Loads (d e : Dev) : Prop :=
  e.boot.dram = d.boot.dram ∧ e.boot.cfg = d.boot.cfg ∧ e.rankMiB = d.rankMiB ∧ ∀ x ∈ bootRegs, getR e x.1 x.2 = getR d x.1 x.2

namespace Loads

variable {d e : Dev}

theorem refl (d : Dev) : Loads d d := ⟨rfl, rfl, rfl, fun _ _ => rfl⟩

theorem trans (a b c : Dev) (h : Loads a b) (g : Loads b c) : Loads a c := by
  obtain ⟨hb, hc, hm, hr⟩ := h
  obtain ⟨gb, gc, gm, gr⟩ := g
  exact ⟨gb.trans hb, gc.trans hc, gm.trans hm, fun x hx => (gr x hx).trans (hr x hx)⟩

theorem of_offCore (h : Loads d e) {a : Dev} (g : OffCore e a) : Loads d a := by
  refine h.trans _ _ _ ⟨by rw [g.boot], by rw [g.boot], g.rankMiB, fun x hx => ?_⟩
  simp only [bootRegs, List.mem_cons, List.not_mem_nil, or_false] at hx
  obtain rfl | rfl | rfl := hx <;> exact g.getR_eq (by decide) (by decide)

theorem setR (h : Loads d e) {p : Nat} {f : Fld} (v : Nat) (hk : ∀ x ∈ bootRegs, key p f ≠ key x.1 x.2) : Loads d (setR e p f v) :=
  h.trans _ _ _ ⟨rfl, rfl, rfl, fun x hx => getR_setR_ne e v (hk x hx)⟩

/-- A write on a page above the controllers'. -/
theorem above (h : Loads d e) {p : Nat} (f : Fld) (v : Nat) (hp : pgDmc 1 < p) : Loads d (Machine.setR e p f v) := by
  refine h.setR v fun x hx => ?_
  simp only [bootRegs, List.mem_cons, List.not_mem_nil, or_false] at hx
  rw [key_eq, key_eq]
  simp only [pgDmc] at hp
  obtain rfl | rfl | rfl := hx <;> simp only [pgPkg, pgDmc, fldAt, F.PKG_BOOT_STAGE, cSTATE] <;> omega

theorem aboveC (h : Loads d e) {p : Nat} (f : Fld) (v : Nat) (hp : pgDmc 1 < p) : Loads d (addC e p f v) := by
  rw [addC_eq]; exact h.above f _ hp

/-- A write on page PKG, but for the stage. -/
theorem pkg (h : Loads d e) {f : Fld} (v : Nat) (hf : fldAt f < 131072) (hs : fldAt f ≠ fldAt F.PKG_BOOT_STAGE) :
    Loads d (Machine.setR e pgPkg f v) := by
  refine h.setR v fun x hx => ?_
  simp only [bootRegs, List.mem_cons, List.not_mem_nil, or_false] at hx
  obtain rfl | rfl | rfl := hx
  · exact key_ne_fld _ hs
  · exact key_ne_page (by decide) hf (by decide)
  · exact key_ne_page (by decide) hf (by decide)

theorem ite {a b : Dev} {c : Prop} [Decidable c] (ha : Loads d a) (hb : Loads d b) : Loads d (if c then a else b) := by
  split <;> assumption

theorem onlyIf {f : Dev → Dev} (h : Loads d e) (c : Bool) (hf : Loads e (f e)) : Loads d (onlyIf c f e) :=
  .ite (.trans _ _ _ h hf) h

theorem foldl {α : Type} {f : Dev → α → Dev} {l : List α} (h : Loads d e) (hf : ∀ d, ∀ a ∈ l, Loads d (f d a)) :
    Loads d (l.foldl f e) := .trans _ _ _ h (foldl_rel refl trans hf e)

/-! An item offered to a ring. -/

theorem hostWrite (h : Loads d e) (a : Nat) (l : List Nat) : Loads d (hostWrite e a l) :=
  show Loads d (addC e pgPcie F.PCIE_WR_BYTES l.length) from h.aboveC _ _ (by decide)

theorem setRing (h : Loads d e) (r : Nat) (x : RingSt) : Loads d (setRing e r x) := h

theorem rings (h : Loads d e) (f : Fld) (v : Nat) : Loads d (Machine.setR e pgRings f v) := h.above f v (by decide)

theorem ringsC (h : Loads d e) (f : Fld) (v : Nat) : Loads d (addC e pgRings f v) := h.aboveC f v (by decide)

theorem dropItem (h : Loads d e) (r : Nat) {i : Held} (c : Nat) (hi : i.item.shelves = 0) : Loads d (dropItem e r i c) := by
  unfold Machine.dropItem
  dsimp only
  rw [freeItem_none _ hi]
  exact .setRing (.ite (show Loads d (raise (bump e pgRings (F.RINGS_DROPS r)) pgRings 8) from h.ringsC _ 1) (h.ringsC _ 1)) _ _

theorem ringPad (h : Loads d e) (r : Nat) (i : Item) : Loads d (ringPad e r i) := by
  unfold Machine.ringPad
  extract_lets wr left e1 e2
  have h1 : Loads d e1 := h.hostWrite _ _
  exact .ite (Loads.hostWrite (h1.rings _ 0) _ _) h

theorem ringWrite (h : Loads d e) (r : Nat) {i : Held} (hi : i.item.shelves = 0) : Loads d (ringWrite e r i) := by
  unfold Machine.ringWrite
  dsimp only
  rw [freeItem_none _ hi]
  exact .ringsC (.setRing (.hostWrite ((h.hostWrite _ _).rings _ _) _ _) _ _) _ 1

theorem flowSend (h : Loads d e) (r f : Nat) {i : Held} (hi : i.item.shelves = 0) : Loads d (flowSend e r f i) := by
  have heth (k : Nat) : pgDmc 1 < pgEth k := by unfold pgEth pgDmc; omega
  unfold Machine.flowSend
  extract_lets len n k wire rate e1 e2 e3 n0 e4 x e5
  have h1 : Loads d e1 := h
  clear_value e1
  have h2 : Loads d e2 := (h1.aboveC _ _ (heth k)).aboveC _ _ (heth k)
  clear_value e2
  have h3 : Loads d e3 := h2.aboveC _ _ (by decide)
  clear_value e3
  have h4 : Loads d e4 := .ite h3 h3
  clear_value e4
  have h5 : Loads d e5 := h4.setRing _ _
  clear_value e5
  rw [freeItem_none _ hi]
  exact h5.ringsC _ 1

theorem tryDeliver (h : Loads d e) (r : Nat) {i : Held} (hi : i.item.shelves = 0) : Loads d (tryDeliver e r i).2 := by
  unfold Machine.tryDeliver
  split
  · exact h.dropItem r _ hi
  · split
    · dsimp only
      split
      · exact (h.ringPad r i.item).ringWrite r hi
      · exact h.ringPad r i.item
    · dsimp only
      split
      · exact h.flowSend r _ hi
      · exact h

theorem offerBytes (h : Loads d e) (src : Nat) (bytes : List Nat) : Loads d (offerBytes e src bytes) := by
  unfold Machine.offerBytes offer
  split
  · rw [freeItem_none _ rfl]; exact h.ringsC _ 1
  · next r _ =>
    split
    · rw [freeItem_none _ rfl]; exact h.ringsC _ 1
    · dsimp only
      split
      · have hsent := (h.setRing r { ringSt e r with seq := ((ringSt e r).seq + 1) % 2 ^ 32 }).tryDeliver r
          (i := ⟨⟨src, bytes, none, 0, 0, 0⟩, (ringSt e r).seq, e.ticks⟩) rfl
        generalize Machine.tryDeliver _ r _ = q at hsent
        obtain ⟨done, a⟩ := q
        cases done
        · exact hsent.setRing _ _
        · exact hsent
      · exact (h.setRing _ _).setRing _ _

/-! The Ledger's numbers. -/

theorem noteOpen (h : Loads d e) (x : LedgerEntry) (k : Nat) : Loads d (noteOpen e x k) := by
  unfold Machine.noteOpen
  extract_lets y
  exact .ite (.ite h h) h

theorem noteLost (h : Loads d e) (o : Option Nat) (k : Nat) (l : List (Nat × LedgerEntry)) : Loads d (noteLost e o k l) := by
  unfold Machine.noteLost
  split
  · exact h.foldl fun d x _ => .ite ((refl d).noteOpen _ _) (refl d)
  · exact h

theorem passNumbers (h : Loads d e) (k : Nat) : Loads d (passNumbers e k) := h.pkg _ (by decide) (by decide)

theorem numberPlace (h : Loads d e) (p : LedgerPlace) : Loads d (numberPlace e p).2 := by
  unfold Machine.numberPlace
  extract_lets n x0 x e1 e2
  have h0 := (h.noteOpen x n).passNumbers 1
  have h1 : Loads d e1 := by
    unfold e1 bump
    rw [addC_eq]
    exact h0.pkg _ (by decide) (by decide)
  clear_value e1
  have h2 : Loads d e2 := .onlyIf h1 _ ((refl e1).offerBytes _ _)
  exact h2.offerBytes _ _

theorem tryNumber (h : Loads d e) (p : LedgerPlace) : Loads d (tryNumber e p).2 := by
  unfold Machine.tryNumber
  extract_lets k p1 e1 p2
  have h1 : Loads d e1 := (h.passNumbers k).noteLost _ _ _
  clear_value e1
  split
  · exact h
  · split
    · exact h1.numberPlace p2
    · exact h1

theorem numberAll (h : Loads d e) : Loads d (numberAll e) := by
  unfold Machine.numberAll
  extract_lets r a0 l0 e1 k y0 l j e2
  have hr : Loads d r.2 := by
    have hfold (ps : List LedgerPlace) (a : List LedgerPlace × Dev) (ha : Loads d a.2) : Loads d (ps.foldl
        (fun (a : List LedgerPlace × Dev) p =>
          let x := Machine.tryNumber a.2 p
          (a.1 ++ [x.1], x.2)) a).2 := by
      induction ps generalizing a with
      | nil => exact ha
      | cons p ps ih => exact ih _ (ha.tryNumber p)
    exact hfold _ _ h
  have h1 : Loads d e1 := hr
  clear_value e1
  have h2 : Loads d e2 := (h1.passNumbers k).noteLost _ _ _
  exact .ite h1 h2

theorem ledgerPurge (h : Loads d e) : Loads d (ledgerPurge e) := by
  unfold Machine.ledgerPurge
  extract_lets ps
  exact pkg (e := { e with ledger := { e.ledger with places := ps } }) h _ (by decide) (by decide)

theorem reserveBlock (h : Loads d e) (ok : Bool) : Loads d (reserveBlock e ok) := by
  unfold Machine.reserveBlock
  extract_lets n e1
  have h1 : Loads d e1 := pkg (e := { e with almH := n, almHOk := true }) h n (by decide) (by decide)
  clear_value e1
  refine .ite (ledgerPurge (numberAll ?_)) h
  exact h1

theorem mount (h : Loads d e) : Loads d (mount e) := by
  unfold Machine.mount arcState
  extract_lets e1
  have h1 : Loads d e1 := h
  clear_value e1
  have h2 : Loads d (raise (Machine.setR e1 pgArc cSTATE 1) pgArc 8) := h1.above cSTATE 1 (by decide)
  exact .ite (.ite h (ledgerPurge h2)) h

/-! The tests of a stage. -/

theorem bist (h : Loads d e) (f : Fld) (v : Nat) : Loads d (Machine.setR e pgBist f v) := h.above f v (by decide)

theorem bistPut (h : Loads d e) (b : Option BistSt) : Loads d (bistPut e b) :=
  bist (bist (e := { e with bist := b }) h _ _) _ _

theorem bistClear (h : Loads d e) : Loads d (bistClear e) :=
  h.foldl fun d _ _ => bist (bist (bist (bist (bist (refl d) _ _) _ _) _ _) _ _) _ _

theorem almanacShow (h : Loads d e) (b : BistSt) (l : List (List Nat)) : Loads d (almanacShow e b l) := by
  obtain ⟨hb, hc, hm, hr⟩ := h
  unfold Machine.almanacShow
  extract_lets y x r
  have hx : x.dram = e.boot.dram ∧ x.cfg = e.boot.cfg := ⟨rfl, rfl⟩
  refine ⟨?_, ?_, hm, hr⟩
  · exact (by split <;> rfl : (if b.cause = 0 then { x with almRun := some r } else x).dram = x.dram).trans (hx.1.trans hb)
  · exact (by split <;> rfl : (if b.cause = 0 then { x with almRun := some r } else x).cfg = x.cfg).trans (hx.2.trans hc)

theorem bistStage (h : Loads d e) (todo : List (Nat × Nat)) : Loads d (bistStage e todo) := by
  unfold Machine.bistStage
  refine .ite h ?_
  split
  · exact (h.bistClear.almanacShow _ _).bistPut _
  · exact h.bistPut _

end Loads

end Sys2Proof.Machine
end

section
set_option Elab.async false
/-! PROOFS. The start, the life-cycle and the watchdog (R443–R450), and the commands of start-up put together. -/

namespace Sys2Proof.Machine

open Sys2Proof

/-! ### The lines of a part after reset (R441) -/

/-- If every line is OFF in `d`, every line is in `e`. -/
def AllOff (d e : Dev) : Prop := (∀ i, (line d i).base = 0) → ∀ i, (line e i).base = 0

namespace AllOff

variable {d e : Dev}

theorem refl (d : Dev) : AllOff d d := id

theorem trans (a b c : Dev) (h : AllOff a b) (g : AllOff b c) : AllOff a c := g ∘ h

theorem ite {a b : Dev} {c : Prop} [Decidable c] (ha : AllOff d a) (hb : AllOff d b) : AllOff d (if c then a else b) := by
  split <;> assumption

theorem setR (h : AllOff d e) (p : Nat) (f : Fld) (v : Nat) : AllOff d (setR e p f v) := h

theorem setLine (d : Dev) (n : Nat) (x : LineSt) (hx : x.base = (line d n).base) : AllOff d (setLine d n x) := by
  intro h i
  by_cases hi : n = i
  · rw [← hi, line_setLine_self, hx]
    exact h n
  · rw [line, show Store.get (Machine.setLine d n x).lines LineSt.reset i = _ from Store.get_set_ne _ _ _ _ hi]
    exact h i

theorem lineUnsync (d : Dev) (n : Nat) : AllOff d (lineUnsync d n) := by
  intro h
  unfold Machine.lineUnsync
  extract_lets x y
  have hx : x.base = 0 := h n
  rw [if_pos (by rw [hx]; decide)]
  exact setLine d n { x with gridAt := none } rfl h

theorem gridInvalid (h : AllOff d e) : AllOff d (gridInvalid e) :=
  h.trans _ _ _ (foldl_rel refl trans (fun a n _ => lineUnsync a n) e)

theorem gridValid (h : AllOff d e) : AllOff d (gridValid e) := by
  refine h.trans _ _ _ (foldl_rel refl trans (fun a n _ => ?_) e)
  extract_lets x
  exact .ite (setLine a n _ rfl) (refl a)

theorem squelchNow (h : AllOff d e) : AllOff d (squelchNow e) := by
  unfold Machine.squelchNow
  extract_lets
  exact .ite h (.ite h h)

theorem freqShow (h : AllOff d e) : AllOff d (freqShow e) := by
  unfold Machine.freqShow freqTo
  extract_lets
  exact .ite (.ite h h) h

theorem qualShow (h : AllOff d e) : AllOff d (qualShow e) := by
  unfold Machine.qualShow
  extract_lets was now e1 t1 e2 t2 e3 e4
  have h1 : AllOff d e1 := (h.setR _ _ _).setR _ _ _
  clear_value e1
  have h2 : AllOff d e2 := .ite h1 h1
  clear_value e2
  have h4 : AllOff d e4 := squelchNow (.ite h2 h2)
  clear_value e4
  have h5 : AllOff d (raise e4 pgTime 14) := h4
  exact .ite h4 (.ite h5.gridValid h5.gridInvalid)

theorem bkpStep (h : AllOff d e) : AllOff d (bkpStep e) := .ite h h

theorem ptpShow (h : AllOff d e) (i : Nat) : AllOff d (ptpShow e i) := by
  unfold Machine.ptpShow
  extract_lets p bad was e1 a e2
  have h1 : AllOff d e1 := .ite h h
  clear_value e1
  exact ((h1.setR _ _ _).setR _ _ _).setR _ _ _

theorem timeShow (h : AllOff d e) : AllOff d (timeShow e) := by
  unfold Machine.timeShow
  extract_lets was now e1 t1 e2 e3
  have h2 : AllOff d e2 := by
    have h1 : AllOff d e1 := h
    clear_value e1
    exact .ite h (.ite h1 (.ite h1 h1))
  clear_value e2
  exact (h2.freqShow.qualShow.bkpStep.ptpShow 0).ptpShow 1

theorem restoreTime (h : AllOff d e) (s p : Nat) : AllOff d (restoreTime e s p) := by
  unfold Machine.restoreTime
  extract_lets base sec ms t1 x e1
  have h1 : AllOff d e1 := h
  clear_value e1
  exact timeShow (h1.setR _ _ _)

end AllOff

theorem OffCore.restoreTime {d e : Dev} (h : OffCore d e) (s p : Nat) : OffCore d (restoreTime e s p) := by
  unfold Machine.restoreTime
  extract_lets base sec ms t1 x e1
  have h1 : OffCore d e1 := h
  clear_value e1
  exact OffCore.timeShow (h1.time _ (by decide))

theorem keptRegs_lines (old d : Dev) (kind idx : Nat) : (keptRegs old d kind idx).lines = d.lines := by
  unfold keptRegs
  extract_lets valid ret e1 keep e2 e3 e4 e5
  have h1 : e1.lines = d.lines := foldl_rel (R := fun d e => e.lines = d.lines) (f := ret) (fun _ => rfl) (fun _ _ _ h g => g.trans h)
    (fun _ _ _ => rfl) d
  clear_value e1
  have h5 : e5.lines = e4.lines := by
    unfold e5
    split <;> rfl
  exact h5.trans h1

theorem cause_keptRegs (old d : Dev) {kind : Nat} (idx : Nat) (hk : kind < 8) :
    getR (keptRegs old d kind idx) pgPkg F.PKG_RESET_CAUSE = kind := by
  unfold keptRegs
  extract_lets valid ret e1 keep e2 e3 e4 e5
  have h4 : getR e4 pgPkg F.PKG_RESET_CAUSE = kind :=
    (getR_setR_fld _ _ _ (by decide)).trans ((getR_setR_self ..).trans (Nat.mod_eq_of_lt hk))
  clear_value e4
  have h5 : getR e5 pgPkg F.PKG_RESET_CAUSE = kind := by
    unfold e5
    split
    · rw [getR_setR_fld _ _ _ (by decide), getR_setR_fld _ _ _ (by decide)]; exact h4
    · simp only [keep]
      rw [getR_setR_fld _ _ _ (by decide), getR_setR_fld _ _ _ (by decide)]; exact h4
  clear_value e5
  rw [getR_setR_fld _ _ _ (by decide), getR_setR_fld _ _ _ (by decide)]
  exact h5

/-- A part after a reset shows its cause, and its lines are OFF. -/
theorem deviceReset_shows (d : Dev) {kind : Nat} (idx : Nat) (hk : kind < 8) :
    getR (deviceReset d kind idx) pgPkg F.PKG_RESET_CAUSE = kind ∧ ∀ i, (line (deviceReset d kind idx) i).base = 0 := by
  unfold deviceReset
  extract_lets a r x1 x2 x3 led x4 x5 warm time x6 x7
  have hl : x7.lines = [] := keptRegs_lines d { x6 with boot := keptBoot d.boot kind d.ticks } kind idx
  have hc : getR x7 pgPkg F.PKG_RESET_CAUSE = kind := cause_keptRegs d { x6 with boot := keptBoot d.boot kind d.ticks } idx hk
  clear_value x7
  have h0 : ∀ i, (line x7 i).base = 0 := fun i => by rw [line, hl]; rfl
  have ho : OffCore x7 (if bkpValid x7 then restoreTime x7 (bkpSecs x7) (bkpPhase x7) else x7) :=
    .ite ((OffCore.refl x7).restoreTime _ _) (.refl x7)
  have ha : AllOff x7 (if bkpValid x7 then restoreTime x7 (bkpSecs x7) (bkpPhase x7) else x7) :=
    .ite ((AllOff.refl x7).restoreTime _ _) (.refl x7)
  exact ⟨(ho.getR_eq (.inl rfl) (by decide)).trans hc, ha h0⟩

/-! ### The life-cycle (R448, R449) -/

section
variable {d : Dev} {ok v : Bool}

theorem lcAdvance_bad (h : lcGood d d.boot.fuseLc ok v = false) : lcAdvance d ok v = setR d pgPkg F.PKG_LC_ERR 1 := by
  unfold lcAdvance
  extract_lets lc
  rw [if_neg (by rw [h]; exact Bool.false_ne_true)]

theorem lcGood_implies (h : lcGood d d.boot.fuseLc ok v = true) :
    d.boot.fuseLc < 3 ∧ getR d pgPkg F.PKG_LC_TARGET = d.boot.fuseLc + 1 ∧ v = true := by
  unfold lcGood at h
  simp only [Bool.and_eq_true, decide_eq_true_eq] at h
  obtain ⟨⟨⟨h1, h2⟩, h3⟩, -⟩ := h
  exact ⟨h1, h2, h3⟩

theorem lcAdvance_good (h : lcGood d d.boot.fuseLc ok v = true) :
    (lcAdvance d ok v).boot.fuseLc = d.boot.fuseLc + 1 ∧ getR (lcAdvance d ok v) pgPkg F.PKG_LC_ERR = 0 ∧
    (evtRaw (lcAdvance d ok v) pgPkg).testBit 15 = true ∧ RegsBut [(pgPkg, F.PKG_LC_ERR)] (lcAdvance d ok v) d ∧
    ∃ e ∈ (lcAdvance d ok v).ledgerOut, e.kind = 0x0703 := by
  unfold lcAdvance
  extract_lets lc b0 b1 b2 e
  rw [if_pos h]
  have hb : (raise e pgPkg 15).boot.fuseLc = d.boot.fuseLc + 1 := rfl
  have hr : Moved (fun _ => d) [(pgPkg, F.PKG_LC_ERR)] d e := by
    refine ⟨rfl, fun p f hf => ?_⟩
    exact getR_setR_ne _ 0 (hf (pgPkg, F.PKG_LC_ERR) (List.mem_singleton_self _))
  have h0 : getR e pgPkg F.PKG_LC_ERR = 0 := getR_setR_self ..
  clear_value e
  exact ⟨hb, h0, raise_bit e pgPkg 15, hr.keeps, _, List.mem_append_right _ (List.mem_singleton_self _), rfl⟩

end

/-! ### The watchdog (R450) -/

/-- The tick at which the watchdog expires. -/
def wdogAt (d : Dev) : Nat := d.boot.kick + msT (max 10 (getR d pgPkg F.PKG_WDOG_MS) * (if d.boot.grace then 5 else 1))

theorem doWatchdog_off {d : Dev} {t : Nat} (h : wdogRuns d = false) : doWatchdog t d = advance d t := if_pos (by rw [h]; rfl)

theorem doWatchdog_on {d : Dev} {t : Nat} (h : wdogRuns d = true) : doWatchdog t d = wdogExpire (advance d (max t (wdogAt d))) :=
  if_neg (by rw [h]; exact Bool.false_ne_true)

theorem wdogAt_eq (d : Dev) : wdogAt d =
    d.boot.kick + 100000 * (max 10 (getR d pgPkg F.PKG_WDOG_MS) * (if d.boot.grace then 5 else 1)) := by
  rw [wdogAt, msT, Nat.mul_comm]

/-- An expiry counts, shows and is logged. -/
def wdogNoted (d : Dev) : Dev :=
  let old := d.boot.expiries.filter (fun e => decide (d.ticks ≤ e + sT 600))
  raise (ledgerNow (bump d pgPkg F.PKG_WDOG_EXPIRIES) 0x0704 0xF (typeCode .pkg) [min 255 (old.length + 1), b2n (wdogArmed d)]) pgPkg 13

/-- The management core alone is reset. -/
def coreReset (d : Dev) : Dev :=
  let d := bump d pgPkg F.PKG_MGMT_RESETS
  { d with boot := { d.boot with kick := d.ticks, grace := true, expiries := (d.ticks :: d.boot.expiries).take 15 } }

theorem wdogExpire_eq (d : Dev) : wdogExpire d = if wdogArmed d then deviceReset (wdogNoted d) 4 0 else coreReset (wdogNoted d) := rfl

theorem wdogExpire_core (d : Dev) (h : wdogArmed d = false) :
    getR (wdogExpire d) pgPkg F.PKG_WDOG_EXPIRIES = min (getR d pgPkg F.PKG_WDOG_EXPIRIES + 1) (2 ^ 32 - 1) ∧
    getR (wdogExpire d) pgPkg F.PKG_MGMT_RESETS = min (getR d pgPkg F.PKG_MGMT_RESETS + 1) (2 ^ 32 - 1) ∧
    (evtRaw (wdogExpire d) pgPkg).testBit 13 = true ∧ (wdogExpire d).boot.kick = (wdogExpire d).ticks ∧
    (wdogExpire d).boot.grace = true ∧ (wdogExpire d).ticks = d.ticks ∧ (wdogExpire d).lines = d.lines ∧
    (wdogExpire d).mem = d.mem := by
  rw [wdogExpire_eq, if_neg (by rw [h]; exact Bool.false_ne_true)]
  have h1 : getR (wdogNoted d) pgPkg F.PKG_WDOG_EXPIRIES = min (getR d pgPkg F.PKG_WDOG_EXPIRIES + 1) (2 ^ 32 - 1) :=
    getR_addC_narrow d pgPkg 1 (by decide)
  have h2 : getR (wdogNoted d) pgPkg F.PKG_MGMT_RESETS = getR d pgPkg F.PKG_MGMT_RESETS := getR_addC_fld d pgPkg 1 (by decide)
  have h3 : (evtRaw (wdogNoted d) pgPkg).testBit 13 = true := raise_bit _ pgPkg 13
  have h4 : Moved noEntry [(pgPkg, F.PKG_WDOG_EXPIRIES)] d (wdogNoted d) :=
    .then_raise (.trans _ _ _ (.of_addC d 1 (List.mem_singleton_self _)) (.of_regs _ _))
  generalize wdogNoted d = e at h1 h2 h3 h4
  have hm : Moved noEntry [(pgPkg, F.PKG_MGMT_RESETS)] e (bump e pgPkg F.PKG_MGMT_RESETS) := .of_addC e 1 (List.mem_singleton_self _)
  refine ⟨?_, ?_, ?_, rfl, rfl, ?_, ?_, ?_⟩
  · exact (getR_addC_fld e pgPkg 1 (by decide)).trans h1
  · rw [← h2]
    exact getR_addC_narrow e pgPkg 1 (by decide)
  · show (evtRaw (bump e pgPkg F.PKG_MGMT_RESETS) pgPkg).testBit 13 = true
    rw [evtRaw, bump, addC_evt]
    exact h3
  · exact (hm.field Dev.ticks).trans (h4.field Dev.ticks)
  · exact (hm.field Dev.lines).trans (h4.field Dev.lines)
  · exact (hm.field Dev.mem).trans (h4.field Dev.mem)

/-! ### The stages of a start (R444, R447) -/

section
variable {d : Dev}

theorem applyCfg_nil (f : Nat → Bool) (h : d.boot.cfg = []) : applyCfg d f = d := by
  simp [applyCfg, h]

/-- A register of each of the twelve lines. -/
theorem getR_foldl_lines (f : Fld) (g : BootSt → Nat → Nat) (pg : Nat → Nat) (hf : fldAt f < 131072)
    (hpg : ∀ i < 12, ∀ j < 12, pg i = pg j → i = j) (l : List Nat) (hl : ∀ i ∈ l, i < 12) (d : Dev) {i : Nat} (hi : i < 12) :
    getR (l.foldl (fun d n => setR d (pg n) f (g d.boot n)) d) (pg i) f =
      if i ∈ l then g d.boot i % 2 ^ f.width else getR d (pg i) f := by
  induction l generalizing d with
  | nil => rfl
  | cons n l ih =>
    have hn : n < 12 := hl n (List.mem_cons_self)
    rw [List.foldl_cons, ih (fun i hm => hl i (List.mem_cons_of_mem n hm))]
    by_cases hm : i ∈ l
    · rw [if_pos hm, if_pos (List.mem_cons_of_mem n hm)]
      rfl
    · rw [if_neg hm]
      by_cases hin : i = n
      · subst hin
        rw [if_pos List.mem_cons_self, getR_setR_self]
      · rw [if_neg (fun hx => (List.mem_cons.1 hx).elim hin hm)]
        exact getR_setR_page d _ (fun he => hin (hpg i hi n hn he.symm)) hf hf

theorem pgRx_inj : ∀ i < 12, ∀ j < 12, pgRx i = pgRx j → i = j := by
  intro i hi j hj h
  unfold pgRx lineBase at h
  omega

/-- The trims of the fuses. -/
def trimmed (d : Dev) : Dev :=
  (List.range 12).foldl (fun d n => setR d (pgRx n) F.RX_GAIN_DLY (clampN 2 6 (d.boot.fuseTrim.getD n 2))) d

/-- The bridges are up. -/
def bridged (d : Dev) : Dev := (List.range 2).foldl (fun d b => setR d (pgBridge (b + 1)) F.BRIDGE_LINK_STATE 2) d

theorem bridged_eq (d : Dev) : bridged d = setR (setR d (pgBridge 1) F.BRIDGE_LINK_STATE 2) (pgBridge 2) F.BRIDGE_LINK_STATE 2 := rfl

/-- The marks of an unclean end and of a thermal trip. -/
def marked (d : Dev) : Dev :=
  setR (setR d pgPkg F.PKG_UNCLEAN (b2n (!d.boot.orderly))) pgPkg F.PKG_TRIP_SEEN (b2n d.boot.trip.isSome)

theorem bootFuses_eq (d : Dev) : bootFuses d =
    toStage { bridged (marked (trimmed d)) with boot := { (bridged (marked (trimmed d))).boot with orderly := false } } 1 := rfl

theorem getR_trimmed (d : Dev) {i : Nat} (hi : i < 12) :
    getR (trimmed d) (pgRx i) F.RX_GAIN_DLY = clampN 2 6 (d.boot.fuseTrim.getD i 2) := by
  have h := getR_foldl_lines F.RX_GAIN_DLY (fun b n => clampN 2 6 (b.fuseTrim.getD n 2)) pgRx (by decide) pgRx_inj
    (List.range 12) (fun i hm => List.mem_range.1 hm) d hi
  rw [if_pos (List.mem_range.2 hi)] at h
  refine h.trans (Nat.mod_eq_of_lt ?_)
  show clampN 2 6 _ < 16
  unfold clampN
  split
  · decide
  · split <;> omega

theorem trimmed_boot (d : Dev) : (trimmed d).boot = d.boot :=
  foldl_rel (R := fun d e => e.boot = d.boot) (f := fun d n => setR d (pgRx n) F.RX_GAIN_DLY _) (fun _ => rfl) (fun _ _ _ h g => g.trans h) (fun _ _ _ => rfl) d

theorem bootFuses_spec (d : Dev) : getR (bootFuses d) pgPkg F.PKG_BOOT_STAGE = 1 ∧
    flagR (bootFuses d) pgPkg F.PKG_UNCLEAN = !d.boot.orderly ∧ flagR (bootFuses d) pgPkg F.PKG_TRIP_SEEN = d.boot.trip.isSome ∧
    (bootFuses d).boot.orderly = false ∧
    (∀ i < 12, getR (bootFuses d) (pgRx i) F.RX_GAIN_DLY = clampN 2 6 (d.boot.fuseTrim.getD i 2)) ∧
    ∀ k < 2, getR (bootFuses d) (pgBridge (k + 1)) F.BRIDGE_LINK_STATE = 2 := by
  rw [bootFuses_eq]
  have hb := trimmed_boot d
  have ht (i : Nat) (hi : i < 12) := getR_trimmed d hi
  generalize trimmed d = e at hb ht
  have hstage {p : Nat} {f : Fld} (hk : key pgPkg F.PKG_BOOT_STAGE ≠ key p f) :
      getR (toStage { bridged (marked e) with boot := { (bridged (marked e)).boot with orderly := false } } 1) p f =
        getR (bridged (marked e)) p f := getR_setR_ne _ 1 hk
  have hbridged {p : Nat} {f : Fld} (h1 : pgBridge 1 ≠ p) (h2 : pgBridge 2 ≠ p) (hf : fldAt f < 131072) :
      getR (bridged (marked e)) p f = getR (marked e) p f :=
    (getR_setR_page _ 2 h2 (by decide) hf).trans (getR_setR_page _ 2 h1 (by decide) hf)
  have hflag (b : Bool) : (b2n b % 2 ^ 1 == 1) = b := by cases b <;> rfl
  refine ⟨getR_setR_self .., ?_, ?_, rfl, fun i hi => ?_, fun k hk => ?_⟩
  · rw [flagR, hstage (key_ne_fld _ (by decide)), hbridged (by decide) (by decide) (by decide), ← hb]
    show (getR (setR (setR e pgPkg F.PKG_UNCLEAN (b2n (!e.boot.orderly))) pgPkg F.PKG_TRIP_SEEN _) pgPkg F.PKG_UNCLEAN == 1) = _
    rw [getR_setR_fld _ _ _ (by decide), getR_setR_self]
    exact hflag _
  · rw [flagR, hstage (key_ne_fld _ (by decide)), hbridged (by decide) (by decide) (by decide), ← hb]
    show (getR (setR (setR e pgPkg F.PKG_UNCLEAN (b2n (!e.boot.orderly))) pgPkg F.PKG_TRIP_SEEN _) pgPkg F.PKG_TRIP_SEEN == 1) = _
    rw [getR_setR_self]
    exact hflag _
  · have hp : pgPkg ≠ pgRx i := by unfold pgPkg pgRx lineBase; omega
    have h1 : pgBridge 1 ≠ pgRx i := by
      rw [show pgBridge 1 = 1794 from rfl]
      unfold pgRx lineBase
      omega
    have h2 : pgBridge 2 ≠ pgRx i := by
      rw [show pgBridge 2 = 2818 from rfl]
      unfold pgRx lineBase
      omega
    rw [hstage (key_ne_page hp (by decide) (by decide)), hbridged h1 h2 (by decide), ← ht i hi]
    exact (getR_setR_page _ _ hp (by decide) (by decide)).trans (getR_setR_page _ _ hp (by decide) (by decide))
  · have hp : pgPkg ≠ pgBridge (k + 1) := by
      obtain rfl | rfl : k = 0 ∨ k = 1 := by omega
      · decide
      · decide
    rw [hstage (key_ne_page hp (by decide) (by decide)), bridged_eq]
    obtain rfl | rfl : k = 0 ∨ k = 1 := by omega
    · rw [getR_setR_page _ _ (by decide) (by decide) (by decide), getR_setR_self]
      rfl
    · rw [getR_setR_self]
      rfl

/-- What the tests of a stage leave of the start. -/
def StageKeeps (d e : Dev) : Prop :=
  e.boot.fw = d.boot.fw ∧ e.boot.cfg = d.boot.cfg ∧ ∀ f, fldAt f < 131072 → getR e pgPkg f = getR d pgPkg f

namespace StageKeeps

variable {e : Dev}

theorem refl (d : Dev) : StageKeeps d d := ⟨rfl, rfl, fun _ _ => rfl⟩

theorem trans (a b c : Dev) (h : StageKeeps a b) (g : StageKeeps b c) : StageKeeps a c := by
  obtain ⟨h1, h2, h3⟩ := h
  obtain ⟨g1, g2, g3⟩ := g
  exact ⟨g1.trans h1, g2.trans h2, fun f hf => (g3 f hf).trans (h3 f hf)⟩

theorem bist (h : StageKeeps d e) (g : Fld) (v : Nat) : StageKeeps d (setR e pgBist g v) :=
  h.trans _ _ _ ⟨rfl, rfl, fun f hf => getR_setR_ne e v (by rw [key_eq, key_eq]; unfold pgBist pgPkg; omega)⟩

theorem setBist (h : StageKeeps d e) (b : Option BistSt) : StageKeeps d { e with bist := b } := h

theorem bistPut (h : StageKeeps d e) (b : Option BistSt) : StageKeeps d (bistPut e b) :=
  ((h.setBist b).bist _ _).bist _ _

theorem bistClear (h : StageKeeps d e) : StageKeeps d (bistClear e) :=
  h.trans _ _ _ (foldl_rel refl trans (fun d _ _ => ((((refl d).bist _ _).bist _ _).bist _ _).bist _ _ |>.bist _ _) e)

theorem almanacShow (h : StageKeeps d e) (b : BistSt) (l : List (List Nat)) : StageKeeps d (almanacShow e b l) := by
  refine h.trans _ _ _ ?_
  unfold Machine.almanacShow
  extract_lets y x r
  refine ⟨?_, ?_, fun _ _ => rfl⟩
  · exact (by split <;> rfl : (if b.cause = 0 then { x with almRun := some r } else x).fw = x.fw)
  · exact (by split <;> rfl : (if b.cause = 0 then { x with almRun := some r } else x).cfg = x.cfg)

theorem bistStage (h : StageKeeps d e) (todo : List (Nat × Nat)) : StageKeeps d (bistStage e todo) := by
  unfold Machine.bistStage
  split
  · exact h
  · split
    · exact (h.bistClear.almanacShow _ _).bistPut _
    · exact h.bistPut _

end StageKeeps

/-- Neither slot holds good images. -/
theorem bootImages_none {vals : List Nat} {cfg : List (Nat × Nat)} (h0 : vals.getD 0 0 ≠ 1) (h1 : vals.getD 1 0 ≠ 1) :
    bootImages d vals cfg = toStage d 15 := by
  unfold bootImages
  extract_lets slot
  have hs : slot = 1 := if_neg h0
  rw [hs, if_pos h1]

/-- Slot `k` is used. -/
theorem bootImages_slot {vals : List Nat} {cfg : List (Nat × Nat)} {k : Nat} (hk : k < 2) (h : vals.getD k 0 = 1)
    (h0 : k = 1 → vals.getD 0 0 ≠ 1) :
    getR (bootImages d vals cfg) pgPkg F.PKG_BOOT_STAGE = 2 ∧ getR (bootImages d vals cfg) pgPkg F.PKG_BOOT_SLOT = k ∧
    (bootImages d vals cfg).boot.fw = vals.getD (2 + k) 0 % 2 ^ 32 ∧ (bootImages d vals cfg).boot.cfg = cfg := by
  have hslot : (if vals.getD 0 0 = 1 then 0 else 1) = k := by
    obtain rfl | rfl : k = 0 ∨ k = 1 := by omega
    · exact if_pos h
    · exact if_neg (h0 rfl)
  unfold bootImages
  rw [hslot, if_neg (not_not.2 h)]
  extract_lets slot x0 x e1 ok e2 rs
  have h2 : getR e2 pgPkg F.PKG_BOOT_STAGE = 2 ∧ getR e2 pgPkg F.PKG_BOOT_SLOT = k ∧
      e2.boot.fw = vals.getD (2 + k) 0 % 2 ^ 32 ∧ e2.boot.cfg = cfg := by
    refine ⟨getR_setR_self (setR d pgPkg F.PKG_BOOT_SLOT k) pgPkg F.PKG_BOOT_STAGE 2, ?_, rfl, rfl⟩
    refine (getR_setR_fld (f := F.PKG_BOOT_STAGE) (g := F.PKG_BOOT_SLOT) (setR d pgPkg F.PKG_BOOT_SLOT k) pgPkg 2 (by decide)).trans ?_
    exact (getR_setR_self ..).trans (Nat.mod_eq_of_lt hk)
  clear_value e2
  obtain ⟨g1, g2, g3⟩ := (StageKeeps.refl e2).bistStage ((bistTodo e2 rs).filter (fun e => e != (regMemory, 2)))
  obtain ⟨p1, p2, p3, p4⟩ := h2
  exact ⟨(g3 _ (by decide)).trans p1, (g3 _ (by decide)).trans p2, g1.trans p3, g2.trans p4⟩

/-- Stage 4 begins, without a configuration. -/
theorem bootLines_loads (ok : Bool) (h : d.boot.cfg = []) : Loads (toStage d 4) (bootLines d ok) := by
  unfold bootLines
  extract_lets e1 e2 e3 e4 e5
  have h2 : Loads e1 e2 := (Loads.refl e1).bistStage _
  have hcfg : e2.boot.cfg = [] := h2.2.1.trans h
  have h3 : Loads e1 e3 := by
    rw [show e3 = e2 from applyCfg_nil _ hcfg]
    exact h2
  clear_value e3
  have h4 : OffCore e3 e4 := by
    have hc : OffCore e3 ((List.range 12).foldl calLoad e3) := (OffCore.refl e3).foldl fun d n _ => (OffCore.refl d).calLoad n
    exact hc.svcLoad.foldl fun d i hi => (OffCore.refl d).pfLoad (List.mem_range.1 hi)
  clear_value e4
  have h4' : Loads e1 e4 := h3.of_offCore h4
  have h5 : Loads e1 e5 := .ite h4' (h4'.reserveBlock ok)
  exact h5.mount

theorem stage_bootLines (ok : Bool) (h : d.boot.cfg = []) : getR (bootLines d ok) pgPkg F.PKG_BOOT_STAGE = 4 :=
  ((bootLines_loads ok h).2.2.2 (pgPkg, F.PKG_BOOT_STAGE) (by simp [bootRegs])).trans (getR_setR_self ..)

/-- A word of the delays sets registers above the controllers'. -/
theorem Loads.setDelay {d e : Dev} (h : Loads d e) (c r l w v : Nat) : Loads d (setDelay e c r l w v) := by
  have hp : pgDmc 1 < pgDly c := by unfold pgDmc pgDly; omega
  unfold Machine.setDelay
  extract_lets p f g
  exact .ite ((h.above _ v hp).above _ _ hp) (.ite (h.above _ _ hp) (.ite (h.above _ _ hp) (h.above _ v hp)))

/-- Controller `c` comes up: its ranks have their states, and it is in RUN. -/
def dramUp (d : Dev) (c : Nat) : Dev :=
  let p := pgDmc c
  let n := getR d p F.DMC_RANKS
  let sp := getR d p F.DMC_SPARE_RANK
  let keep := flagR d p F.DMC_SPARE_EN && decide (sp ≤ n) && decide (0 < n)
  let word := getR d p F.DMC_SPEED + n * 16 + b2n keep * 256 + sp * 512 + getR d p F.DMC_DENSITY * 4096 +
    getR d p F.DMC_RDIMM * 8192
  let d := (List.range 4).foldl (fun d r => setRank d c r (if n < r then 0 else if keep && r == sp then 2 else 1)) d
  setR (setDmc d c { dmc d c with spareEn := keep, cfg := word, lastReq := d.ticks }) p cSTATE 1

theorem dramUp_moved (d : Dev) (c : Nat) : Moved noDmc [(pgDmc c, F.DMC_RANK_STATE), (pgDmc c, cSTATE)] d (dramUp d c) := by
  unfold dramUp
  extract_lets p n sp keep word e1
  have h1 : Moved noDmc [(pgDmc c, F.DMC_RANK_STATE), (pgDmc c, cSTATE)] d e1 :=
    Moved.of_foldl d fun d r _ => .of_setR d _ List.mem_cons_self
  clear_value e1
  exact (h1.trans _ _ _ (.of_regs _ _)).trans _ _ _ (.of_setR _ 1 (by simp [p]))

theorem state_dramUp (d : Dev) (c : Nat) : getR (dramUp d c) (pgDmc c) cSTATE = 1 := by
  unfold dramUp
  exact getR_setR_self ..

theorem state_dramUp_ne (d : Dev) {c k : Nat} (h : pgDmc c ≠ pgDmc k) : getR (dramUp d c) (pgDmc k) cSTATE = getR d (pgDmc k) cSTATE := by
  refine (dramUp_moved d c).getR_eq ?_
  simp only [List.mem_cons, List.not_mem_nil, or_false, forall_eq_or_imp, forall_eq]
  exact ⟨key_ne_page h (by decide) (by decide), key_ne_page h (by decide) (by decide)⟩

/-- The delays of the image or of the Almanac are set, and the size of a rank is known. -/
def dramSet (d : Dev) (vals : List Nat) (cfg : List (Nat × Nat)) : Dev :=
  let d := if vals.getD 1 0 = 1 then d
    else { d with almDly := cfg.foldl (fun m e => Store.set m 0 e.1 (e.2 % 2 ^ 32)) [] }
  let d := d.almDly.foldl (fun d e =>
    setDelay d (e.1 / 216) (e.1 % 216 / 54) (e.1 % 54 / 6) (e.1 % 6) e.2) { d with dlyLive := d.almDly }
  { d with rankMiB := vals.getD 0 0, boot := { d.boot with dram := true } }

theorem bootDram_eq (d : Dev) (vals : List Nat) (cfg : List (Nat × Nat)) :
    bootDram d vals cfg = dramUp (dramUp (dramSet d vals cfg) 0) 1 := rfl

/-- What an initialisation of the DRAM shows. -/
def DramReady (d : Dev) (mib : Nat) (e : Dev) : Prop :=
  e.boot.dram = true ∧ e.boot.cfg = d.boot.cfg ∧ e.rankMiB = mib ∧ ∀ k < 2, getR e (pgDmc k) cSTATE = 1

theorem DramReady.of_loads {d a b : Dev} {mib : Nat} (h : DramReady d mib a) (g : Loads a b) : DramReady d mib b := by
  obtain ⟨h1, h2, h3, h4⟩ := h
  obtain ⟨g1, g2, g3, g4⟩ := g
  refine ⟨g1.trans h1, g2.trans h2, g3.trans h3, fun k hk => ?_⟩
  refine (g4 (pgDmc k, cSTATE) ?_).trans (h4 k hk)
  interval_cases k <;> simp [bootRegs]

theorem DramReady.toStage {d e : Dev} {mib : Nat} (h : DramReady d mib e) (k : Nat) : DramReady d mib (toStage e k) := by
  obtain ⟨h1, h2, h3, h4⟩ := h
  refine ⟨h1, h2, h3, fun c hc => (getR_setR_page e k ?_ (by decide) (by decide)).trans (h4 c hc)⟩
  interval_cases c <;> decide

theorem dramSet_spec (d : Dev) (vals : List Nat) (cfg : List (Nat × Nat)) :
    (dramSet d vals cfg).boot.dram = true ∧ (dramSet d vals cfg).boot.cfg = d.boot.cfg ∧
    (dramSet d vals cfg).rankMiB = vals.getD 0 0 := by
  unfold dramSet
  extract_lets e0 e1
  have h0 : Loads d e0 := .ite (.refl d) (Loads.refl d)
  clear_value e0
  have h1 : Loads d e1 := Loads.foldl (e := { e0 with dlyLive := e0.almDly }) h0 fun d e _ => (Loads.refl d).setDelay ..
  exact ⟨rfl, h1.2.1, rfl⟩

theorem bootDram_ready (d : Dev) (vals : List Nat) (cfg : List (Nat × Nat)) : DramReady d (vals.getD 0 0) (bootDram d vals cfg) := by
  rw [bootDram_eq]
  obtain ⟨h1, h2, h3⟩ := dramSet_spec d vals cfg
  generalize dramSet d vals cfg = e at h1 h2 h3
  have m0 := dramUp_moved e 0
  have s0 := state_dramUp e 0
  generalize dramUp e 0 = a at m0 s0
  have m1 := dramUp_moved a 1
  have hb : (dramUp a 1).boot = e.boot := (m1.field (·.boot)).trans (m0.field (·.boot))
  refine ⟨by rw [hb, h1], by rw [hb, h2], ((m1.field (·.rankMiB)).trans (m0.field (·.rankMiB))).trans h3, fun k hk => ?_⟩
  obtain rfl | rfl : k = 0 ∨ k = 1 := by omega
  · exact (state_dramUp_ne a (by decide)).trans s0
  · exact state_dramUp a 1

/-- Stage 3 once the DRAM is initialised. -/
theorem bootMemory_again {vals : List Nat} {cfg : List (Nat × Nat)} (hd : d.boot.dram = true) :
    bootMemory d vals cfg = if bistQuiet d then bootLines d (vals.getD 2 1 != 0) else d := by
  unfold bootMemory
  dsimp only
  rw [if_pos hd]

theorem bootMemory_first {vals : List Nat} {cfg : List (Nat × Nat)} (hd : d.boot.dram = false) (hc : d.boot.cfg = []) :
    DramReady d (vals.getD 0 0) (bootMemory d vals cfg) := by
  unfold bootMemory
  extract_lets todo ok e
  have h : DramReady d (vals.getD 0 0) e := bootDram_ready d vals cfg
  clear_value e
  rw [if_neg (by rw [hd]; exact Bool.false_ne_true)]
  split
  · exact (h.toStage 4).of_loads (bootLines_loads ok (h.2.1.trans hc))
  · exact h.of_loads ((Loads.refl e).bistStage todo)

/-! The end of a start (R447). -/

/-- From `d` to `e` the stage, the tick and the instant of release stay, and no trip appears. -/
def Ending (d e : Dev) : Prop :=
  e.ticks = d.ticks ∧ e.boot.releaseAt = d.boot.releaseAt ∧ (d.boot.trip = none → e.boot.trip = none) ∧
  ∀ f, f = F.PKG_BOOT_STAGE ∨ f = F.PKG_BOOT_MS → getR e pgPkg f = getR d pgPkg f

namespace Ending

variable {e : Dev}

theorem refl (d : Dev) : Ending d d := ⟨rfl, rfl, id, fun _ _ => rfl⟩

theorem trans (a b c : Dev) (h : Ending a b) (g : Ending b c) : Ending a c := by
  obtain ⟨h1, h2, h3, h4⟩ := h
  obtain ⟨g1, g2, g3, g4⟩ := g
  exact ⟨g1.trans h1, g2.trans h2, g3 ∘ h3, fun f hf => (g4 f hf).trans (h4 f hf)⟩

theorem setR (h : Ending d e) {f : Fld} (v : Nat) (hf : fldAt f < fldAt F.PKG_BOOT_STAGE ∨ fldAt F.PKG_BOOT_MS < fldAt f) :
    Ending d (setR e pgPkg f v) :=
  h.trans _ _ _ ⟨rfl, rfl, id, fun g hg => getR_setR_fld e pgPkg v (by
    have hlt : fldAt F.PKG_BOOT_STAGE < fldAt F.PKG_BOOT_MS := by decide
    obtain rfl | rfl := hg <;> omega)⟩

theorem ledgerNow (h : Ending d e) (k ln pt : Nat) (l : List Nat) : Ending d (ledgerNow e k ln pt l) := h

theorem onlyIf {f : Dev → Dev} (h : Ending d e) (c : Bool) (hf : Ending e (f e)) : Ending d (onlyIf c f e) := by
  unfold Machine.onlyIf
  split
  · exact h.trans _ _ _ hf
  · exact h

theorem storedRun (h : Ending d e) : Ending d (storedRun e) := by
  refine h.trans _ _ _ ?_
  unfold Machine.storedRun
  split
  · exact refl e
  · next r _ =>
    extract_lets e1 e2
    have h1 : Ending e e1 := (refl e).ledgerNow ..
    clear_value e1
    have h2 : Ending e e2 := h1.trans _ _ _ (foldl_rel refl trans (fun a x _ => (refl a).ledgerNow ..) e1)
    exact h2

theorem reseed (h : Ending d e) (x k : Nat) : Ending d (reseed e x k) := by
  unfold Machine.reseed
  split
  · extract_lets y src l e1
    have h1 : Ending d e1 := setR (e := { e with ledger := l, almH := x }) (f := F.PKG_NEXT_ACC) h x (by decide)
    clear_value e1
    rw [bump, addC_eq]
    exact (h1.setR (f := F.PKG_RSV_END) x (by decide)).setR (f := F.PKG_RESEEDS) _ (by decide)
  · exact h

end Ending

/-- A trip that the start found is logged and forgotten. -/
def tripLogged (d : Dev) : Dev :=
  match d.boot.trip with
  | some (k, i, r) =>
    let d := ledgerNow d 0x0702 0xF (typeCode .pkg) ([k, i] ++ leBytes 2 (ux 16 r))
    { d with boot := { d.boot with trip := none } }
  | none => d

theorem trip_tripLogged (d : Dev) : (tripLogged d).boot.trip = none := by
  unfold tripLogged
  split
  · rfl
  · assumption

theorem Ending.tripLogged (d : Dev) : Ending d (tripLogged d) := by
  unfold Machine.tripLogged
  split
  · exact ⟨rfl, rfl, fun _ => rfl, fun _ _ => rfl⟩
  · exact .refl d

/-- The start up to its last entry: its trip, its unclean end and the run of the last shut-down are logged. -/
def startLogged (d : Dev) : Dev :=
  let d := if d.ledger.reseedWait ∧ arcSt d ≠ 2 then reseed d (bkpSecs d * 2 ^ 20) 2 else d
  storedRun (tripLogged (onlyIf (flagR (toStage d 6) pgPkg F.PKG_UNCLEAN)
    (fun d => ledgerNow d 0x0707 0xF (typeCode .pkg) (leBytes 4 (lastDurable d))) (toStage d 6)))

theorem startLogged_spec (d : Dev) : (startLogged d).ticks = d.ticks ∧ (startLogged d).boot.releaseAt = d.boot.releaseAt ∧
    (startLogged d).boot.trip = none ∧ getR (startLogged d) pgPkg F.PKG_BOOT_STAGE = 6 := by
  unfold startLogged
  extract_lets e1
  have h1 : Ending d e1 := by
    unfold e1
    split
    · exact (Ending.refl d).reseed _ _
    · exact .refl d
  clear_value e1
  have hs : getR (toStage e1 6) pgPkg F.PKG_BOOT_STAGE = 6 := getR_setR_self ..
  have h2 : (toStage e1 6).ticks = d.ticks ∧ (toStage e1 6).boot.releaseAt = d.boot.releaseAt := ⟨h1.1, h1.2.1⟩
  generalize toStage e1 6 = e2 at hs h2
  have h3 : Ending e2 (onlyIf (flagR e2 pgPkg F.PKG_UNCLEAN)
      (fun d => ledgerNow d 0x0707 0xF (typeCode .pkg) (leBytes 4 (lastDurable d))) e2) :=
    (Ending.refl e2).onlyIf _ ((Ending.refl e2).ledgerNow ..)
  generalize onlyIf _ _ e2 = e3 at h3
  have h4 := (Ending.refl (tripLogged e3)).storedRun
  obtain ⟨p1, p2, -, p4⟩ := h3.trans _ _ _ ((Ending.tripLogged e3).trans _ _ _ h4)
  exact ⟨p1.trans h2.1, p2.trans h2.2, h4.2.2.1 (trip_tripLogged e3), (p4 _ (.inl rfl)).trans hs⟩

/-- What the end of a start shows. -/
def bootShown (d : Dev) : Dev :=
  raise (setR d pgPkg F.PKG_BOOT_MS (min (2 ^ 32 - 1) ((d.ticks - d.boot.releaseAt) / msT 1))) pgPkg 12

theorem bootDone_eq (d : Dev) : ∃ l, bootDone d = ledgerNow (bootShown (startLogged d)) 0x0701 0xF (typeCode .pkg) l := ⟨_, rfl⟩

theorem bootDone_spec (d : Dev) : (bootDone d).ticks = d.ticks ∧ getR (bootDone d) pgPkg F.PKG_BOOT_STAGE = 6 ∧
    (evtRaw (bootDone d) pgPkg).testBit 12 = true ∧ (bootDone d).boot.trip = none ∧
    getR (bootDone d) pgPkg F.PKG_BOOT_MS = min (2 ^ 32 - 1) ((d.ticks - d.boot.releaseAt) / 100000) := by
  obtain ⟨l, hl⟩ := bootDone_eq d
  rw [hl]
  obtain ⟨h1, h2, h3, h4⟩ := startLogged_spec d
  generalize startLogged d = e at h1 h2 h3 h4
  rw [← h1, ← h2]
  refine ⟨rfl, (getR_setR_fld e pgPkg _ (by decide)).trans h4, raise_bit _ pgPkg 12, h3, ?_⟩
  refine (getR_setR_self e pgPkg F.PKG_BOOT_MS _).trans (Nat.mod_eq_of_lt ?_)
  exact Nat.lt_of_le_of_lt (Nat.min_le_left _ _) (by decide)

/-! Each stage of the command. -/

section
variable {t : Nat} {v : List Nat} {c : List (Nat × Nat)}

theorem doBootStage_going (h : d.boot.stop = none) : doBootStage t v c d =
    (let d := advance d t
     let k := bootStage d
     if k = 0 then bootFuses d
     else if k = 1 then bootImages d v c
     else if k = 2 then (if bistQuiet d then applyCfg (toStage d 3) dmcWord else d)
     else if k = 3 then bootMemory d v c
     else if k = 4 then (if bistQuiet d then toStage (bistStartEnd d) 5 else d)
     else if k = 5 then (if arcSt d = 1 then d else bootDone d)
     else d) := by
  unfold doBootStage
  extract_lets e k
  exact if_neg (by rw [show e.boot.stop = none from h]; exact Bool.false_ne_true)

theorem doBootStage_stopped (h : d.boot.stop.isSome = true) : doBootStage t v c d = advance d t := if_pos h

theorem doBootStage_zero (hs : d.boot.stop = none) (h : bootStage d = 0) : doBootStage t v c d = bootFuses (advance d t) :=
  (doBootStage_going hs).trans (if_pos h)

theorem doBootStage_one (hs : d.boot.stop = none) (h : bootStage d = 1) : doBootStage t v c d = bootImages (advance d t) v c := by
  rw [doBootStage_going hs]
  dsimp only
  rw [show bootStage (advance d t) = 1 from h]
  rfl

theorem doBootStage_two (hs : d.boot.stop = none) (h : bootStage d = 2) :
    doBootStage t v c d = if bistQuiet d then applyCfg (toStage (advance d t) 3) dmcWord else advance d t := by
  rw [doBootStage_going hs]
  dsimp only
  rw [show bootStage (advance d t) = 2 from h]
  rfl

theorem doBootStage_three (hs : d.boot.stop = none) (h : bootStage d = 3) : doBootStage t v c d = bootMemory (advance d t) v c := by
  rw [doBootStage_going hs]
  dsimp only
  rw [show bootStage (advance d t) = 3 from h]
  rfl

theorem doBootStage_four (hs : d.boot.stop = none) (h : bootStage d = 4) :
    doBootStage t v c d = if bistQuiet d then toStage (bistStartEnd (advance d t)) 5 else advance d t := by
  rw [doBootStage_going hs]
  dsimp only
  rw [show bootStage (advance d t) = 4 from h]
  rfl

theorem doBootStage_five (hs : d.boot.stop = none) (h : bootStage d = 5) :
    doBootStage t v c d = if arcSt d = 1 then advance d t else bootDone (advance d t) := by
  rw [doBootStage_going hs]
  dsimp only
  rw [show bootStage (advance d t) = 5 from h]
  rfl

theorem doBootStage_over (hs : d.boot.stop = none) (h : 5 < bootStage d) : doBootStage t v c d = advance d t := by
  rw [doBootStage_going hs]
  dsimp only
  rw [show bootStage (advance d t) = bootStage d from rfl, if_neg (by omega), if_neg (by omega), if_neg (by omega),
    if_neg (by omega), if_neg (by omega), if_neg (by omega)]

/-- A stage that waits, or a part that has none. -/
theorem doBootStage_waits (h : d.boot.stop.isSome = true ∨ 5 < bootStage d ∨ ((bootStage d = 2 ∨ bootStage d = 4 ∨
    (bootStage d = 3 ∧ d.boot.dram = true)) ∧ bistQuiet d = false) ∨ (bootStage d = 5 ∧ arcSt d = 1)) :
    doBootStage t v c d = advance d t := by
  cases hs : d.boot.stop with
  | some x => exact doBootStage_stopped (by rw [hs]; rfl)
  | none =>
    obtain h | h | ⟨h, hq⟩ | ⟨h, ha⟩ := h
    · rw [hs] at h
      exact absurd h Bool.false_ne_true
    · exact doBootStage_over hs h
    · have hq' : ¬bistQuiet d = true := by rw [hq]; exact Bool.false_ne_true
      obtain h | h | ⟨h, hd⟩ := h
      · rw [doBootStage_two hs h, if_neg hq']
      · rw [doBootStage_four hs h, if_neg hq']
      · rw [doBootStage_three hs h, bootMemory_again (d := advance d t) hd]
        exact if_neg hq'
    · rw [doBootStage_five hs h, if_pos ha]

end

end

/-! ### A line that stays FROZEN is reset (R452) -/

theorem autoReset_spec (d : Dev) (n : Nat) : isFenced (autoReset d n) n = true ∧
    getR (autoReset d n) pgPkg F.PKG_LINE_RESETS = min (getR d pgPkg F.PKG_LINE_RESETS + 1) (2 ^ 32 - 1) ∧
    (evtRaw (autoReset d n) pgPkg).testBit 14 = true ∧ (autoReset d n).ticks = d.ticks ∧
    Store.get (autoReset d n).boot.autoAt 0 n = d.ticks + 1 := by
  unfold autoReset
  extract_lets e
  have hf : isFenced e n = true := isFenced_lineReset d n 1
  have h : LineReset d n e := lineReset_spec d n 1
  clear_value e
  exact ⟨hf, h.count, h.bit, h.ticks, (Store.get_set_self e.boot.autoAt 0 n (e.ticks + 1)).trans (congrArg (· + 1) h.ticks)⟩

theorem le_autoDue (d : Dev) (n : Nat) :
    Store.get d.boot.frozenAt 0 n - 1 + 100000000 * getR d pgPkg F.PKG_LINE_AUTO_S ≤ autoDue d n := by
  unfold autoDue sT
  omega

/-- A line reset that a word asked for, and the word's answer. -/
def oneReset (d : Dev) (n : Nat) : Dev := setR (lineReset d n 0) pgPkg F.PKG_LINE_RESET_ERR 0

theorem oneReset_spec (d : Dev) (n : Nat) : isFenced (oneReset d n) n = true ∧ (line (oneReset d n) n).base = 0 ∧
    getR (oneReset d n) pgPkg F.PKG_LINE_RESETS = min (getR d pgPkg F.PKG_LINE_RESETS + 1) (2 ^ 32 - 1) ∧
    getR (oneReset d n) pgPkg F.PKG_LINE_RESET_ERR = 0 ∧ (evtRaw (oneReset d n) pgPkg).testBit 14 = true ∧
    Store.get (oneReset d n).boot.freeAt 0 n = (oneReset d n).ticks + 100001 ∧ (oneReset d n).mem = d.mem := by
  unfold oneReset
  have hf := isFenced_lineReset d n 0
  have h := lineReset_spec d n 0
  generalize lineReset d n 0 = e at hf h
  refine ⟨hf, h.base, (getR_setR_fld e pgPkg 0 (by decide)).trans h.count, getR_setR_self .., h.bit, ?_, h.mem⟩
  exact h.free.trans (congrArg (· + 100001) h.ticks.symm)

/-- Which lines a word finds DARK. -/
theorem err_lineResets (d : Dev) (m : Nat) : getR (lineResets d m 0x5A17) pgPkg F.PKG_LINE_RESET_ERR = 1 ↔
    ∃ k < 12, m.testBit k = true ∧ (line d k).base = 6 := by
  rw [lineResets_good, ← darkLine_iff, getR_setR_self]
  cases darkLine d m <;> decide

/-! ### The final entry of a start's last test -/

theorem bistStartEnd_none {d : Dev} (h : d.bist = none) : bistStartEnd d = d := by
  unfold bistStartEnd
  simp only [h]

@[simp] theorem flagR_settle (d : Dev) (p : Nat) (f : Fld) : flagR (settle d) p f = flagR d p f := by rw [flagR, flagR, getR_settle]

end Sys2Proof.Machine

open Sys2Proof Sys2Proof.Machine

/-- Settles O58: clause by clause, from what each stage, the life-cycle advance, an expiry and a line reset do. -/
theorem startsLifeCycleWatchdogAndLineResets : Obligations.StartsLifeCycleWatchdogAndLineResets := by
  unfold Obligations.StartsLifeCycleWatchdogAndLineResets
  intro s t n hn hs
  extract_lets p d0 b stage up base fenced auto frozen
  have hboot (v : List Nat) (c : List (Nat × Nat)) : Gives (.bootStageEnd t v c) s (doBootStage t v c s.dev) :=
    gives_of_act (ok := true) (f := doBootStage t v c) rfl rfl hs
  have hlc (k : Nat) (ok v : Bool) : Gives (.lcAdvance t k ok v) s (onlyIf (keyGood k) (fun d => lcAdvance d ok v) d0) :=
    gives_of_act (ok := true) (f := fun d => onlyIf (keyGood k) (fun d => lcAdvance d ok v) (advance d t)) rfl rfl hs
  have hkick (v : Nat) : Gives (.wdogKick t v) s (wdogKick d0 v) :=
    gives_of_act (ok := true) (f := fun d => wdogKick (advance d t) v) rfl rfl hs
  have hwdog : Gives (.watchdogExpiry t) s (doWatchdog t s.dev) := gives_of_act (ok := true) (f := doWatchdog t) rfl rfl hs
  have hreset (m k : Nat) : Gives (.lineReset t m k) s (lineResets d0 m k) :=
    gives_of_act (ok := true) (f := fun d => lineResets (advance d t) m k) rfl rfl hs
  have hfree : Gives (.lineResetRelease t n) s (doResetRelease t n s.dev) :=
    gives_of_act (f := doResetRelease t n) rfl (decide_eq_true hn) hs
  have hauto : Gives (.lineAutoReset t n) s (doAutoReset t n s.dev) :=
    gives_of_act (f := doAutoReset t n) rfl (decide_eq_true hn) hs
  refine ⟨?_, ?_, ?_, ?_, ?_, ?_, ?_, ?_, ?_, ?_, ?_, ?_, ?_, ?_, ?_, ?_, ?_, ?_, ?_, ?_, ?_, ?_, ?_, ?_, ?_, ?_, ?_, ?_⟩
  · exact fun v c h => (hboot v c).of_eq (doBootStage_waits h)
  · intro v c hb h
    refine does_of_gives ((hboot v c).of_eq (doBootStage_zero hb h)) ?_
    simp only [getR_settle, flagR_settle, settle_boot]
    exact bootFuses_spec d0
  · exact fun v c hb h h0 h1 => (hboot v c).of_eq ((doBootStage_one hb h).trans (bootImages_none h0 h1))
  · intro v c k hk hb h hv h0
    refine does_of_gives ((hboot v c).of_eq (doBootStage_one hb h)) ?_
    simp only [getR_settle, settle_boot]
    exact bootImages_slot hk hv h0
  · exact fun v c hb h hq hc => (hboot v c).of_eq ((doBootStage_two hb h).trans ((if_pos hq).trans (applyCfg_nil _ hc)))
  · exact fun v c hb h hq => (hboot v c).of_eq ((doBootStage_two hb h).trans (if_pos hq))
  · intro v c hb h hd hq hc
    refine does_of_gives ((hboot v c).of_eq ((doBootStage_three hb h).trans ((bootMemory_again (d := d0) hd).trans (if_pos hq)))) ?_
    simp only [getR_settle]
    exact stage_bootLines _ hc
  · intro v c hb h hq
    refine does_of_gives ((hboot v c).of_eq ((doBootStage_four hb h).trans (if_pos hq))) ?_
    simp only [getR_settle]
    exact getR_setR_self ..
  · intro v c hb h hd hc
    refine does_of_gives ((hboot v c).of_eq (doBootStage_three hb h)) ?_
    obtain ⟨h1, -, h3, h4⟩ := bootMemory_first (d := d0) (vals := v) (cfg := c) hd hc
    simp only [getR_settle, settle_boot, settle_rankMiB]
    exact ⟨h1, h3, h4⟩
  · intro v c hb h hn
    have hq : bistQuiet s.dev = true := by simp [bistQuiet, hn]
    have he : bistStartEnd d0 = d0 := bistStartEnd_none hn
    exact (hboot v c).of_eq ((doBootStage_four hb h).trans ((if_pos hq).trans (congrArg (toStage · 5) he)))
  · intro v c hb h ha
    refine does_of_gives ((hboot v c).of_eq ((doBootStage_five hb h).trans (if_neg ha))) ?_
    obtain ⟨h1, h2, h3, h4, h5⟩ := bootDone_spec d0
    rw [← h1] at h5
    simp only [getR_settle, evtRaw_settle, settle_boot, settle_ticks]
    exact ⟨h2, h3, h4, h5⟩
  · exact fun k ok v hk => (hlc k ok v).of_eq (if_neg (by simpa [keyGood] using hk))
  · exact fun ok v h => (hlc 0x5A17 ok v).of_eq (lcAdvance_bad (d := d0) h)
  · intro ok v h
    obtain ⟨h1, h2, h3⟩ := lcGood_implies h
    refine ⟨h1, h2, h3, does_of_gives (hlc 0x5A17 ok v) ?_⟩
    obtain ⟨g1, g2, g3, g4, g5⟩ := lcAdvance_good (d := d0) h
    simp only [getR_settle, evtRaw_settle, settle_boot, settle_ledgerOut]
    exact ⟨g1, g2, g3, fun p f hf => (getR_settle _ p f).trans (g4 p f hf), g5⟩
  · exact hkick 0x4B4B
  · exact fun v hv => (hkick v).of_eq (if_neg hv)
  · exact fun h => hwdog.of_eq (doWatchdog_off h)
  · intro h ha
    refine does_of_gives (hwdog.of_eq (doWatchdog_on h)) ?_
    obtain ⟨h1, h2, h3, h4, h5, h6, h7, h8⟩ := wdogExpire_core (advance s.dev (max t (wdogAt s.dev))) ha
    have hle : wdogAt s.dev ≤ (advance s.dev (max t (wdogAt s.dev))).ticks := le_trans (le_max_right _ _) (le_max_right _ _)
    rw [← h6] at hle
    generalize wdogExpire (advance s.dev (max t (wdogAt s.dev))) = e at h1 h2 h3 h4 h5 h6 h7 h8 hle ⊢
    rw [wdogAt_eq] at hle
    simp only [up, getR_settle, evtRaw_settle, settle_boot, settle_ticks, settle_lines, settle_mem]
    exact ⟨h1, h2, h3, h4, h5, hle, h7, h8⟩
  · intro h ha
    refine does_of_gives (hwdog.of_eq ((doWatchdog_on h).trans ((wdogExpire_eq _).trans (if_pos ha)))) ?_
    simp only [getR_settle, line_settle]
    exact deviceReset_shows _ 0 (by decide)
  · exact fun m k hk => (hreset m k).of_eq (lineResets_bad hk)
  · intro m
    refine does_of_gives (hreset m 0x5A17) ?_
    simp only [getR_settle, isFenced_settle]
    exact ⟨err_lineResets d0 m, fun k hk hm hb => lineResets_fenced d0 m hk hm hb⟩
  · exact fun h => (hreset (2 ^ n) 0x5A17).of_eq (lineResets_dark (d := d0) hn h)
  · exact fun h hf => (hreset (2 ^ n) 0x5A17).of_eq (lineResets_again (d := d0) hn h hf)
  · intro h hf
    refine does_of_gives ((hreset (2 ^ n) 0x5A17).of_eq (lineResets_one (d := d0) hn h hf)) ?_
    simp only [up, getR_settle, evtRaw_settle, isFenced_settle, line_settle, settle_boot, settle_ticks, settle_mem]
    exact oneReset_spec d0 n
  · exact fun h => hfree.of_eq (doResetRelease_none h)
  · intro a h
    refine does_of_gives hfree ?_
    simp only [isFenced_settle, line_settle, settle_boot, settle_ticks]
    exact doResetRelease_spec hn h
  · exact fun h => hauto.of_eq (doAutoReset_none h)
  · intro h0 h1 h2 h3
    refine does_of_gives (hauto.of_eq (doAutoReset_resets h0 h1 h2 h3)) ?_
    obtain ⟨g1, g2, g3, g4, g5⟩ := autoReset_spec (advance s.dev (max t (autoDue s.dev n))) n
    have hle : autoDue s.dev n ≤ (advance s.dev (max t (autoDue s.dev n))).ticks := le_trans (le_max_right _ _) (le_max_right _ _)
    simp only [up, getR_settle, evtRaw_settle, isFenced_settle, settle_boot, settle_ticks]
    rw [g4]
    exact ⟨g1, g2, g3, (le_autoDue s.dev n).trans hle, g5⟩
end

section
set_option Elab.async false
/-! PROOFS. What follows a change of the Archive: the computed registers of its page, its state and its jobs (R373, R377, R383). -/

namespace Sys2Proof.Machine

open Sys2Proof

/-- The computed registers of the ARC page. -/
def arcShown : List (Nat × Fld) :=
  [(pgArc, F.ARC_SEGS_TOTAL), (pgArc, F.ARC_SEGS_FREE), (pgArc, F.ARC_HELD_SEGS), (pgArc, F.ARC_OLDEST_S), (pgArc, F.ARC_ERASE_MIN),
    (pgArc, F.ARC_ERASE_MAX), (pgArc, F.ARC_PINS_OPEN), (pgArc, F.ARC_PINS_FULL), (pgArc, F.ARC_BACKLOG_MS), (pgArc, F.ARC_BEHIND)]

theorem arcShow_moved (d : Dev) : Moved noShow arcShown d (arcShow d) := by
  unfold arcShow
  extract_lets p us es e1 e2 e3 e4 e5 e6 back was now e7
  have hin {f : Fld} (h : (pgArc, f) ∈ arcShown) : (p, f) ∈ arcShown := h
  have h1 : Moved noShow arcShown d e1 := ((Moved.refl d).then_setR (hin (by simp [arcShown]))).then_setR (hin (by simp [arcShown]))
  clear_value e1
  have h2 : Moved noShow arcShown d e2 := (h1.then_setR (hin (by simp [arcShown]))).then_setR (hin (by simp [arcShown]))
  clear_value e2
  have h3 : Moved noShow arcShown d e3 := h2.then_setR (hin (by simp [arcShown]))
  clear_value e3
  have h4 : Moved noShow arcShown d e4 := h3.then_setR (hin (by simp [arcShown]))
  clear_value e4
  have h5 : Moved noShow arcShown d e5 := h4.then_setR (hin (by simp [arcShown]))
  clear_value e5
  have h6 : Moved noShow arcShown d e6 := h5.then_setR (hin (by simp [arcShown]))
  clear_value e6
  have h7 : Moved noShow arcShown d e7 := (h6.then_setR (hin (by simp [arcShown]))).then_setR (hin (by simp [arcShown]))
  clear_value e7
  exact h7.then_raiseOn

section
variable (d : Dev)

@[simp] theorem arc_arcShow : (arcShow d).arc = d.arc := (arcShow_moved d).field Dev.arc
@[simp] theorem pins_arcShow : (arcShow d).pins = d.pins := (arcShow_moved d).field Dev.pins
@[simp] theorem pinAsk_arcShow : (arcShow d).pinAsk = d.pinAsk := (arcShow_moved d).field Dev.pinAsk
@[simp] theorem mem_arcShow : (arcShow d).mem = d.mem := (arcShow_moved d).field Dev.mem
@[simp] theorem ticks_arcShow : (arcShow d).ticks = d.ticks := (arcShow_moved d).field Dev.ticks
@[simp] theorem almBad_arcShow : (arcShow d).almBad = d.almBad := (arcShow_moved d).field Dev.almBad
@[simp] theorem ledgerOut_arcShow : (arcShow d).ledgerOut = d.ledgerOut := (arcShow_moved d).field Dev.ledgerOut

/-- A register of the ARC page that is not computed. -/
theorem getR_arcShow {f : Fld} (h : ∀ x ∈ arcShown, fldAt x.2 ≠ fldAt f) : getR (arcShow d) pgArc f = getR d pgArc f := by
  refine (arcShow_moved d).getR_fld fun x hx => ⟨?_, h x hx⟩
  have hp : ∀ x ∈ arcShown, x.1 = pgArc := by simp [arcShown]
  exact hp x hx

theorem arcSt_arcShow : arcSt (arcShow d) = arcSt d := getR_arcShow d (by decide)

theorem raiseOn_mono {p b q k : Nat} (was now : Bool) (h : (evtRaw d q).testBit k = true) : (evtRaw (raiseOn d p b was now) q).testBit k = true := by
  unfold raiseOn
  split
  · exact raise_mono d p b q k h
  · exact h

theorem arcShow_mono {p k : Nat} (h : (evtRaw d p).testBit k = true) : (evtRaw (arcShow d) p).testBit k = true := by
  unfold arcShow
  extract_lets q us es e1 e2 e3 e4 e5 e6 back was now e7
  have h7 : e7.evt = d.evt := rfl
  clear_value e7
  exact raiseOn_mono _ was now (by rw [evtRaw, h7]; exact h)

/-- Every computed register stands on page ARC. -/
theorem arcShown_page : ∀ x ∈ arcShown, x.1 = pgArc ∧ fldAt x.2 < 131072 := by decide

end

/-! ### What all the follow-ups leave alone -/

/-- The device but for its registers, events, Ledger and the jobs' owners. -/
def noFollow (d : Dev) : Dev :=
  { d with regs := [], evt := [], ledger := { d.ledger with places := [], reseedWait := false, mounted := false }, ledgerOut := [], almH := 0, jobOwner := [], jobSince := [] }

/-- Where they write on page ARC: the computed registers and STATE. -/
def followAt : List Nat := fldAt cSTATE :: arcShown.map (fun x => fldAt x.2)

theorem shown_mem {x : Nat × Fld} (h : x ∈ arcShown) : fldAt x.2 ∈ followAt :=
  List.mem_cons.2 (.inr (List.mem_map.2 ⟨x, h, rfl⟩))

/-- From `d` to `e` the registers, but for pages PKG and PACE and those at `l` on page ARC, keep their values; events and
entries stay, others may be added; and the rest of the device is the same. -/
def Follows (l : List Nat) (d e : Dev) : Prop :=
  noFollow e = noFollow d ∧ (∀ p k, (evtRaw d p).testBit k = true → (evtRaw e p).testBit k = true) ∧
  (∀ z ∈ d.ledgerOut, z ∈ e.ledgerOut) ∧
  ∀ p f, p ≠ pgPkg → p ≠ pgPace → fldAt f < 131072 → (p = pgArc → fldAt f ∉ l) → getR e p f = getR d p f

namespace Follows

variable {l : List Nat} {d e : Dev}

theorem refl (d : Dev) : Follows l d d := ⟨rfl, fun _ _ h => h, fun _ h => h, fun _ _ _ _ _ _ => rfl⟩

theorem trans (a b c : Dev) (h : Follows l a b) (g : Follows l b c) : Follows l a c := by
  obtain ⟨h1, h2, h3, h4⟩ := h
  obtain ⟨g1, g2, g3, g4⟩ := g
  exact ⟨g1.trans h1, fun p k x => g2 p k (h2 p k x), fun z hz => g3 z (h3 z hz),
    fun p f hp hq hf hs => (g4 p f hp hq hf hs).trans (h4 p f hp hq hf hs)⟩

/-- What the frame keeps, keeps its value. -/
theorem field {α : Type} (h : Follows l d e) (g : Dev → α) : g (noFollow e) = g (noFollow d) := congrArg g h.1

theorem arc (h : Follows l d e) : e.arc = d.arc := h.field Dev.arc
theorem pins (h : Follows l d e) : e.pins = d.pins := h.field Dev.pins
theorem pinAsk (h : Follows l d e) : e.pinAsk = d.pinAsk := h.field Dev.pinAsk
theorem mem (h : Follows l d e) : e.mem = d.mem := h.field Dev.mem
theorem ticks (h : Follows l d e) : e.ticks = d.ticks := h.field Dev.ticks
theorem rings (h : Follows l d e) : e.rings = d.rings := h.field Dev.rings
theorem almBad (h : Follows l d e) : e.almBad = d.almBad := h.field Dev.almBad
theorem bit (h : Follows l d e) {p k : Nat} (g : (evtRaw d p).testBit k = true) : (evtRaw e p).testBit k = true := h.2.1 p k g
theorem entry (h : Follows l d e) {z : LedgerEntry} (g : z ∈ d.ledgerOut) : z ∈ e.ledgerOut := h.2.2.1 z g

/-- A register of page ARC that no follow-up writes. -/
theorem getR_arc (h : Follows l d e) {f : Fld} (hs : fldAt f ∉ l) (hf : fldAt f < 131072) : getR e pgArc f = getR d pgArc f :=
  h.2.2.2 pgArc f (by decide) (by decide) hf fun _ => hs

/-- A register of a NAND channel. -/
theorem getR_nch (h : Follows l d e) (c : Nat) {f : Fld} (hf : fldAt f < 131072) : getR e (pgNch c) f = getR d (pgNch c) f :=
  h.2.2.2 (pgNch c) f (by unfold pgNch pgPkg; omega) (by unfold pgNch pgPace; omega) hf fun hp => by
    unfold pgNch pgArc at hp
    omega

theorem mono {m : List Nat} (h : Follows l d e) (hl : ∀ x ∈ l, x ∈ m) : Follows m d e := by
  obtain ⟨h1, h2, h3, h4⟩ := h
  exact ⟨h1, h2, h3, fun p f hp hq hf hs => h4 p f hp hq hf fun he hx => hs he (hl _ hx)⟩

theorem anywhere (h : Follows [] d e) : Follows l d e := h.mono fun _ hx => absurd hx List.not_mem_nil

/-- STATE stays where no follow-up writes it. -/
theorem state (h : Follows l d e) (hs : fldAt cSTATE ∉ l) : arcSt e = arcSt d := h.getR_arc hs (by decide)

/-- An update of no register, event, entry or the rest. -/
theorem of_same (h : Follows l d e) {a : Dev} (hr : a.regs = e.regs := by rfl) (he : a.evt = e.evt := by rfl)
    (hl : a.ledgerOut = e.ledgerOut := by rfl) (hn : noFollow a = noFollow e := by rfl) : Follows l d a := by
  refine h.trans _ _ _ ⟨hn, fun p k x => ?_, fun z hz => by rw [hl]; exact hz, fun p f _ _ _ _ => getR_congr hr p f⟩
  rw [evtRaw, he]
  exact x

theorem setR (h : Follows l d e) {p : Nat} {f : Fld} (v : Nat) (hp : p = pgPkg ∨ p = pgPace ∨ p = pgArc ∧ fldAt f ∈ l)
    (hf : fldAt f < 131072) : Follows l d (setR e p f v) := by
  refine h.trans _ _ _ ⟨rfl, fun _ _ x => x, fun _ x => x, fun q g hq hq' hg hs => getR_setR_ne e v ?_⟩
  obtain rfl | rfl | ⟨rfl, hin⟩ := hp
  · exact key_ne_page (Ne.symm hq) hf hg
  · exact key_ne_page (Ne.symm hq') hf hg
  · by_cases hqa : pgArc = q
    · subst hqa
      exact key_ne_fld _ fun he => hs rfl (he ▸ hin)
    · exact key_ne_page hqa hf hg

theorem raise (h : Follows l d e) (p b : Nat) : Follows l d (raise e p b) :=
  h.trans _ _ _ ⟨rfl, fun q k x => raise_mono e p b q k x, fun _ x => x, fun _ _ _ _ _ _ => rfl⟩

theorem ledgerNow (h : Follows l d e) (k ln pt : Nat) (w : List Nat) : Follows l d (ledgerNow e k ln pt w) :=
  h.trans _ _ _ ⟨rfl, fun _ _ x => x, fun _ x => List.mem_append_left _ x, fun _ _ _ _ _ _ => rfl⟩

theorem ite {a b : Dev} {c : Prop} [Decidable c] (ha : Follows l d a) (hb : Follows l d b) : Follows l d (if c then a else b) := by
  split <;> assumption

theorem onlyIf {f : Dev → Dev} (h : Follows l d e) (c : Bool) (hf : Follows l e (f e)) : Follows l d (onlyIf c f e) :=
  .ite (.trans _ _ _ h hf) h

theorem arcShow (h : Follows followAt d e) : Follows followAt d (arcShow e) := by
  have hm := arcShow_moved e
  refine h.trans _ _ _ ⟨hm.field noFollow, fun p k => arcShow_mono e, fun z hz => by rw [ledgerOut_arcShow]; exact hz, fun p f _ _ hf hs => ?_⟩
  refine hm.getR_eq fun x hx => ?_
  obtain ⟨hp, hlt⟩ := arcShown_page x hx
  rw [hp]
  by_cases hq : pgArc = p
  · subst hq
    exact key_ne_fld _ fun he => hs rfl (he ▸ shown_mem hx)
  · exact key_ne_page hq hlt hf

theorem arcSt (h : Follows followAt d e) (v : Nat) : Follows followAt d (Machine.setR e pgArc cSTATE v) :=
  h.setR v (.inr (.inr ⟨rfl, List.mem_cons_self⟩)) (by decide)

theorem ledgerPurge (h : Follows l d e) : Follows l d (ledgerPurge e) := by
  unfold Machine.ledgerPurge
  extract_lets ps
  exact setR (e := { e with ledger := { e.ledger with places := ps } }) (of_same h) _ (.inl rfl) (by decide)

theorem arcState (h : Follows followAt d e) (v : Nat) : Follows followAt d (arcState e v) := by
  unfold Machine.arcState
  extract_lets e1
  have h1 : Follows followAt d e1 := h.ledgerNow _ _ _ _
  clear_value e1
  exact .ite h ((h1.arcSt v).raise pgArc 8).ledgerPurge

theorem arcCheck (h : Follows followAt d e) : Follows followAt d (arcCheck e) := .ite (h.arcState 3) h

/-! The jobs on Pacer's board. -/

theorem pace (h : Follows l d e) {f : Fld} (v : Nat) (hf : fldAt f < 131072) : Follows l d (Machine.setR e pgPace f v) :=
  h.setR v (.inr (.inl rfl)) hf

theorem job (h : Follows l d e) {a : Dev} (g : Within noJobs (· = pgPace) e a) : Follows l d a := by
  refine h.trans _ _ _ ⟨g.field noFollow, fun p k x => ?_, fun z hz => ?_, fun p f _ hq hf _ => g.keeps p f hq hf⟩
  · rw [evtRaw, show a.evt = e.evt from g.field Dev.evt]
    exact x
  · rw [show a.ledgerOut = e.ledgerOut from g.field Dev.ledgerOut]
    exact hz

theorem postJob (h : Follows l d e) (o cost dur dl : Nat) : Follows l d (postJob e o cost dur dl) := h.job (postJob_within e o cost dur dl)

theorem freeJob (h : Follows l d e) (o : Nat) : Follows l d (freeJob e o) := h.job (freeJob_within e o)

theorem forceEntry (h : Follows l d e) {j : Nat} (hj : j < 48) (c : Nat) : Follows l d (forceEntry e j c) := by
  unfold Machine.forceEntry
  extract_lets e1 e2 own
  have h1 : Follows l d e1 := h.pace _ (by simp only [fldAt, F.PACE_J_FORCED]; omega)
  clear_value e1
  have h2 : Follows l d e2 := by
    unfold e2 bump
    rw [addC_eq]
    exact (h1.pace _ (by decide)).raise pgPace 11
  clear_value e2
  exact .ite h (h2.ledgerNow _ _ _ _)

theorem forceJob (h : Follows l d e) (o : Nat) : Follows l d (forceJob e o) := by
  unfold Machine.forceJob
  split
  · next j hj => exact h.forceEntry (List.mem_range.1 (List.mem_of_find?_eq_some hj)) 1
  · exact h

theorem wearWant (h : Follows l d e) : Follows l d (wearWant e) := by
  unfold Machine.wearWant
  extract_lets
  exact .ite (h.postJob ..) h

theorem refreshWant (h : Follows l d e) : Follows l d (refreshWant e) := by
  unfold Machine.refreshWant
  extract_lets ds e1 late
  have h1 : Follows l d e1 := h.postJob ..
  clear_value e1
  exact .ite (h.freeJob _) (h1.onlyIf _ ((refl e1).forceJob _))

theorem pinCopyWant (h : Follows l d e) : Follows l d (pinCopyWant e) := by
  unfold Machine.pinCopyWant
  split
  · exact h.postJob ..
  · exact h.freeJob _

theorem retWant (h : Follows l d e) : Follows l d (retWant e) := .ite (h.freeJob _) (h.postJob ..)

theorem reseed (h : Follows l d e) (x k : Nat) : Follows l d (reseed e x k) := by
  unfold Machine.reseed
  split
  · extract_lets y src led e1
    have h1 : Follows l d e1 := setR (e := { e with ledger := led, almH := x }) (f := F.PKG_NEXT_ACC) (of_same h) x (.inl rfl) (by decide)
    clear_value e1
    rw [bump, addC_eq]
    exact (h1.setR (f := F.PKG_RSV_END) x (.inl rfl) (by decide)).setR (f := F.PKG_RESEEDS) _ (.inl rfl) (by decide)
  · exact h

theorem reseedAtMount (h : Follows l d e) : Follows l d (reseedAtMount e) := by
  unfold Machine.reseedAtMount
  split
  · exact h.reseed _ _
  · exact h.reseed _ _

end Follows

/-! ### The state (R382, R383) -/

section
variable {d : Dev} {v : Nat}

/-- What a change of state shows. -/
theorem arcState_shows (h : arcSt d ≠ v) (hv : v < 16) : arcSt (arcState d v) = v ∧ (evtRaw (arcState d v) pgArc).testBit 8 = true ∧
    ∃ z ∈ (arcState d v).ledgerOut, z.kind = 0x0505 ∧ z.payload = padTo 28 [arcSt d, v] := by
  unfold arcState
  extract_lets e1
  rw [if_neg h]
  have hz : ∃ z ∈ e1.ledgerOut, z.kind = 0x0505 ∧ z.payload = padTo 28 [arcSt d, v] :=
    ⟨_, List.mem_append_right _ (List.mem_singleton_self _), rfl, rfl⟩
  clear_value e1
  have hs : arcSt (raise (setR e1 pgArc cSTATE v) pgArc 8) = v := (getR_setR_self e1 pgArc cSTATE v).trans (Nat.mod_eq_of_lt hv)
  have hb : (evtRaw (raise (setR e1 pgArc cSTATE v) pgArc 8) pgArc).testBit 8 = true := raise_bit _ _ 8
  have hl : (raise (setR e1 pgArc cSTATE v) pgArc 8).ledgerOut = e1.ledgerOut := rfl
  generalize raise (setR e1 pgArc cSTATE v) pgArc 8 = a at hs hb hl
  have hf : Follows [] a (ledgerPurge a) := (Follows.refl a).ledgerPurge
  obtain ⟨z, hz, hk⟩ := hz
  exact ⟨(hf.state (by decide)).trans hs, hf.bit hb, z, hf.entry (by rw [hl]; exact hz), hk⟩

/-- A MOUNTED Archive stays MOUNTED or becomes READ_ONLY. -/
theorem arcSt_arcCheck (h : arcSt d = 2 ∨ arcSt d = 3) : arcSt (arcCheck d) = 2 ∨ arcSt (arcCheck d) = 3 := by
  unfold arcCheck
  split
  · next hc => exact .inr (arcState_shows (by rw [hc.1]; decide) (by decide)).1
  · exact h

end

end Sys2Proof.Machine
end

section
set_option Elab.async false
/-! PROOFS. The Archive's open, staged and dropped blocks (R368, R377). -/

namespace Sys2Proof.Machine

open Sys2Proof

/-! ### Open blocks (R368) -/

/-- `o` is the open block of its stream. -/
def putOpen (d : Dev) (o : ArcOpen) : Dev :=
  { d with arc := { d.arc with opens := o :: d.arc.opens.filter (fun x => x.stream != o.stream) } }

theorem openOf_putOpen (d : Dev) (o : ArcOpen) : openOf (putOpen d o) o.stream = some o := by
  simp [openOf, putOpen]

theorem openOf_stream {d : Dev} {n : Nat} {o : ArcOpen} (h : openOf d n = some o) : o.stream = n := by
  simpa using List.find?_some h

@[simp] theorem openOf_settle (d : Dev) (n : Nat) : openOf (settle d) n = openOf d n := by simp [openOf]

@[simp] theorem openOf_arcShow (d : Dev) (n : Nat) : openOf (arcShow d) n = openOf d n := by simp [openOf]

/-- What an item makes of the open block `o` of its stream. -/
def openJoined (o : ArcOpen) (i : ArcItem) : ArcOpen := { o with items := o.items ++ [i] }

/-- The open block that an item begins. -/
def openBegun (d : Dev) (i : ArcItem) : ArcOpen :=
  ⟨i.stream, d.ticks, [i], if i.stream < 36 then Store.get d.paceMel 0 (i.stream % 12) else 0⟩

/-- The bytes of an open block. -/
abbrev openBytes (o : ArcOpen) : List Nat := o.items.flatMap (·.bytes)

section
variable {d : Dev} {i : ArcItem} {o : ArcOpen}

theorem joinBlock_first (h : openOf d i.stream = none) (hl : i.bytes.length ≤ 262144) : joinBlock d i = putOpen d (openBegun d i) := by
  unfold joinBlock
  simp only [h]
  exact if_neg (by omega)

theorem joinBlock_more (h : openOf d i.stream = some o) (ha : d.ticks < o.at_ + 10000000)
    (hl : (openBytes o).length + i.bytes.length ≤ 262144) : joinBlock d i = putOpen d (openJoined o i) := by
  have hn : ¬(262144 < (openBytes o).length + i.bytes.length ∨ o.at_ + msT 100 ≤ d.ticks) := by
    rw [show msT 100 = 10000000 from rfl]
    omega
  unfold joinBlock
  simp only [h, if_neg hn]
  rw [if_neg (by omega)]
  rw [← openOf_stream h]
  rfl

/-- The open block closes, and the item begins the next one. -/
theorem joinBlock_closes (h : openOf d i.stream = some o)
    (hc : 262144 < (openBytes o).length + i.bytes.length ∨ o.at_ + 10000000 ≤ d.ticks)
    (hn : openOf (closeBlock d o) i.stream = none) (hl : i.bytes.length ≤ 262144) :
    joinBlock d i = putOpen (closeBlock d o) (openBegun (closeBlock d o) i) := by
  have hc' : 262144 < (openBytes o).length + i.bytes.length ∨ o.at_ + msT 100 ≤ d.ticks := hc
  unfold joinBlock
  simp only [h, if_pos hc', hn]
  exact if_neg (by omega)

end

/-! ### Closing (R368, R377) -/

/-- The open block is gone. -/
def unopened (d : Dev) (o : ArcOpen) : Dev :=
  { d with arc := { d.arc with opens := d.arc.opens.filter (fun x => x.stream != o.stream) } }

/-- The block that the open block `o` with first and last items `f` and `l` becomes. -/
def closedBlock (d : Dev) (o : ArcOpen) (f l : ArcItem) : ArcBlock :=
  { id := d.arc.nextId, stream := o.stream, items := o.items.length, first := f.num, last := l.num, from_ := f.tai,
    to_ := l.tai, closedAt := min d.ticks (o.at_ + msT 100), origLen := (openBytes o).length, data := openBytes o, logged := false,
    durable := false, pin := 0, bad := [], cap := o.cap }

/-- A closed block waits in staging. -/
def stageBlock (d : Dev) (b : ArcBlock) : Dev :=
  { d with arc := { d.arc with nextId := d.arc.nextId + 1, staged := d.arc.staged ++ [b] } }

section
variable {d : Dev} {o : ArcOpen}

theorem closeBlock_cases (h : o.items ≠ []) : ∃ f l, closeBlock d o =
    if arcSt d = 3 then dropBlock (unopened d o) (closedBlock d o f l) 2
    else if 128 * 2 ^ 20 < stagingUsed d + (openBytes o).length then dropBlock (unopened d o) (closedBlock d o f l) 0
    else stageBlock (unopened d o) (closedBlock d o f l) := by
  obtain ⟨f, hf⟩ := Option.isSome_iff_exists.1 (List.isSome_head?.2 h)
  obtain ⟨l, hl⟩ := Option.isSome_iff_exists.1 (List.getLast?_isSome.2 h)
  refine ⟨f, l, ?_⟩
  unfold closeBlock
  simp only [hf, hl]
  rfl

theorem closeBlock_empty (h : o.items = []) : closeBlock d o = unopened d o := by
  unfold closeBlock
  simp only [h]
  rfl

/-- A block that closes with room for it waits in staging. -/
theorem closeBlock_stages (h : o.items ≠ []) (hs : arcSt d ≠ 3) (hr : stagingUsed d + (openBytes o).length ≤ 128 * 2 ^ 20) :
    ∃ f l, closeBlock d o = stageBlock (unopened d o) (closedBlock d o f l) := by
  obtain ⟨f, l, hc⟩ := closeBlock_cases (d := d) h
  exact ⟨f, l, hc.trans ((if_neg hs).trans (if_neg (Nat.not_lt.2 hr)))⟩

/-- In READ_ONLY a block that closes is dropped. -/
theorem closeBlock_drops (h : o.items ≠ []) (hs : arcSt d = 3) :
    ∃ f l, closeBlock d o = dropBlock (unopened d o) (closedBlock d o f l) 2 := by
  obtain ⟨f, l, hc⟩ := closeBlock_cases (d := d) h
  exact ⟨f, l, hc.trans (if_pos hs)⟩

theorem openOf_unopened (d : Dev) (o : ArcOpen) : openOf (unopened d o) o.stream = none := by
  simp [openOf, unopened]

end

/-! ### Dropping (R377) -/

/-- The Ledger's places alone change, and the register of their number. -/
def noPlaces (d : Dev) : Dev := { d with regs := [], ledger := { d.ledger with places := [] } }

theorem ledgerStored_moved (d : Dev) (a b : Nat) (ok : Bool) : Moved noPlaces [(pgPkg, F.PKG_BUF_LEVEL)] d (ledgerStored d a b ok) := by
  unfold ledgerStored
  extract_lets mine ps l
  generalize hx : ({ d with ledger := { l with places := ps } } : Dev) = x
  have h1 : Moved noPlaces [(pgPkg, F.PKG_BUF_LEVEL)] d x := hx ▸ .of_regs _ _ rfl rfl
  unfold ledgerPurge
  extract_lets qs
  exact (h1.trans _ _ _ (.of_regs x { x with ledger := { x.ledger with places := qs } } rfl rfl)).then_setR (List.mem_singleton_self _)

/-- The register that counts the drops of `cause`. -/
def dropCount (cause : Nat) : Fld := if cause = 1 then F.ARC_POISON_DROPS else F.ARC_DROP_BLOCKS

theorem dropBlock_spec (d : Dev) (b : ArcBlock) (cause : Nat) : (dropBlock d b cause).arc = d.arc ∧
    (dropBlock d b cause).ticks = d.ticks ∧
    getR (dropBlock d b cause) pgArc (dropCount cause) = min (getR d pgArc (dropCount cause) + 1) (2 ^ 32 - 1) ∧
    (evtRaw (dropBlock d b cause) pgArc).testBit 10 = true ∧
    ∃ z, (dropBlock d b cause).ledgerOut = d.ledgerOut ++ [z] ∧ z.kind = 0x0504 := by
  unfold dropBlock
  extract_lets e1 e2
  have hw : (dropCount cause).width ≤ 32 := by unfold dropCount; split <;> decide
  have hlt : fldAt (dropCount cause) < 131072 := by unfold dropCount; split <;> decide
  have h1 : getR e1 pgArc (dropCount cause) = min (getR d pgArc (dropCount cause) + 1) (2 ^ 32 - 1) := by
    refine (getR_addC_narrow d pgArc 1 hw).trans ?_
    unfold dropCount
    split <;> rfl
  have hk1 : Moved noRegs [(pgArc, dropCount cause)] d e1 := .of_addC d 1 (List.mem_singleton_self _)
  clear_value e1
  have hk2 : Moved noPlaces [(pgPkg, F.PKG_BUF_LEVEL)] (raise e1 pgArc 10) e2 :=
    .of_onlyIf _ _ (ledgerStored_moved _ _ _ _)
  have h2 : getR e2 pgArc (dropCount cause) = getR e1 pgArc (dropCount cause) :=
    hk2.getR_page hlt (by simp only [List.mem_singleton, forall_eq]; decide)
  have hb : (evtRaw e2 pgArc).testBit 10 = true := by
    rw [evtRaw, show e2.evt = (raise e1 pgArc 10).evt from hk2.field Dev.evt]
    exact raise_bit e1 pgArc 10
  have ha : e2.arc = d.arc := (hk2.field Dev.arc).trans (hk1.field Dev.arc)
  have ht : e2.ticks = d.ticks := (hk2.field Dev.ticks).trans (hk1.field Dev.ticks)
  have hl : e2.ledgerOut = d.ledgerOut := (hk2.field Dev.ledgerOut).trans (hk1.field Dev.ledgerOut)
  clear_value e2
  exact ⟨ha, ht, h2.trans h1, hb, _, congrArg (· ++ [_]) hl, rfl⟩

end Sys2Proof.Machine
end

section
set_option Elab.async false
/-! PROOFS. The Archive's placed, journalled and durable blocks, and its NAND operations (R366, R372, R376, R377, R384). -/

namespace Sys2Proof.Machine

open Sys2Proof

/-! ### Segments -/

@[simp] theorem seg_settle (d : Dev) (k : Nat) : seg (settle d) k = seg d k := by simp [seg]

theorem seg_congr {d e : Dev} (h : e.arc = d.arc) (k : Nat) : seg e k = seg d k := by rw [seg, seg, h]

@[simp] theorem seg_setSeg_same (d : Dev) (k : Nat) (x : ArcSeg) : seg (setSeg d k x) k = x := Store.get_set_self _ _ _ _

theorem seg_setSeg_ne (d : Dev) {k n : Nat} (x : ArcSeg) (h : k ≠ n) : seg (setSeg d k x) n = seg d n := Store.get_set_ne _ _ _ _ h

/-! ### Placement (R364, R366) -/

/-- Block `b` goes to the end of segment `o`. -/
def placedAt (d : Dev) (o : Nat) (b : ArcBlock) : Dev :=
  setSeg d o { seg d o with used := (seg d o).used + b.data.length, blocks := (seg d o).blocks ++ [b] }

section
variable {d : Dev} {g : ArcGeo} {o v : Nat}

/-- The segment being written has room. -/
theorem segFor_open {n : Nat} (hg : d.arc.geo = some g) (ho : Store.get d.arc.openSeg 0 v = o + 1) (hv : (seg d o).vol = v)
    (hr : (seg d o).used + n ≤ segRoom d g o) : segFor d v n = (some o, d) := by
  unfold segFor
  simp only [hg, ho]
  exact if_pos ⟨Nat.succ_ne_zero o, hv, hr⟩

theorem placeBlock_open {b : ArcBlock} (hg : d.arc.geo = some g) (ho : Store.get d.arc.openSeg 0 v = o + 1)
    (hv : (seg d o).vol = v) (hr : (seg d o).used + b.data.length ≤ segRoom d g o) : placeBlock d v b = (true, placedAt d o b) := by
  unfold placeBlock
  simp only [segFor_open hg ho hv hr]
  rfl

end

theorem arc_addC (d : Dev) (p : Nat) (f : Fld) (n : Nat) : (addC d p f n).arc = d.arc := by rw [addC_eq]; rfl

theorem arc_onlyIf {f : Dev → Dev} (d : Dev) (c : Bool) (h : (f d).arc = d.arc) : (onlyIf c f d).arc = d.arc := by
  unfold onlyIf
  split
  · exact h
  · rfl

/-- What an engine counts of an encoded block is no part of the Archive. -/
theorem arc_melCount (d : Dev) (e a b : Nat) (raw : Bool) (v : Nat) : (melCount d e a b 0 raw v).arc = d.arc := by
  unfold melCount
  extract_lets p e1 e2
  have h1 : e1.arc = d.arc := (arc_addC _ _ _ _).trans (arc_addC _ _ _ _)
  clear_value e1
  rw [if_pos rfl]
  exact (arc_onlyIf (f := fun d => bump d p F.MEL_RAW_BLOCKS) _ raw (arc_addC _ _ _ _)).trans ((arc_addC _ _ _ _).trans h1)

/-- What the encoding of a staged block yields. -/
def encoded (d : Dev) (b : ArcBlock) : ArcBlock :=
  { b with data := (encodeBlock (arcHead b) (arcLevel d b.stream b.cap) (arcDelta d b.stream) b.data).1 }

theorem encodeNext_places {d : Dev} {g : ArcGeo} {o : Nat} {z : ArcBlock} {q : List ArcBlock} (k : Nat) (hz : d.arc.staged = z :: q)
    (hg : d.arc.geo = some g) (ho : Store.get d.arc.openSeg 0 (volOf z.stream) = o + 1) (hv : (seg d o).vol = volOf z.stream)
    (hr : (seg d o).used + (encoded d z).data.length ≤ segRoom d g o) :
    (encodeNext d (some k)).arc = { (placedAt d o (encoded d z)).arc with staged := q } := by
  have hp := placeBlock_open (b := encoded d z) hg ho hv hr
  unfold encoded at hp ⊢
  unfold encodeNext
  simp only [hz]
  generalize encodeBlock (arcHead z) (arcLevel d z.stream z.cap) (arcDelta d z.stream) z.data = x at hp ⊢
  obtain ⟨out, raw⟩ := x
  simp only at hp ⊢
  simp only [hp]
  exact ((Follows.refl _).arcCheck.arc).trans (arc_melCount _ k _ _ raw 0)

/-! ### The journal (R376) -/

/-- Every block placed is named by the journal. -/
def allLogged (d : Dev) : Prop := ∀ y ∈ d.arc.segs, ∀ z ∈ y.2.blocks, z.logged = true

/-- The journal names all blocks placed and all pins. -/
def journalled (d : Dev) : Dev :=
  { d with
    arc := { d.arc with segs := d.arc.segs.map (fun e => (e.1, { e.2 with blocks := e.2.blocks.map (fun b => { b with logged := true }) })) }
    pins := d.pins.map (fun p => { p with logged := true }) }

/-- A checkpoint of the map. -/
def checkpointed (d : Dev) : Dev :=
  { d with arc := { d.arc with hasCkpt := true, ckptAt := d.ticks, ckptBkp := bkpSecs d } }

theorem journal_true (d : Dev) : journal d true = checkpointed (journalled d) := rfl

theorem allLogged_journalled (d : Dev) : allLogged (journalled d) := by
  intro y hy z hz
  obtain ⟨x, -, rfl⟩ := List.mem_map.1 (show y ∈ d.arc.segs.map _ from hy)
  obtain ⟨b, -, rfl⟩ := List.mem_map.1 hz
  rfl

theorem pins_journalled (d : Dev) : ∀ p ∈ (journalled d).pins, p.logged = true := by
  intro p hp
  obtain ⟨q, -, rfl⟩ := List.mem_map.1 (show p ∈ d.pins.map _ from hp)
  rfl

/-! ### Durability (R377) -/

/-- The blocks with the number of `b` are durable. -/
def markDurable (d : Dev) (b : ArcBlock) : Dev :=
  { d with arc := { d.arc with segs := d.arc.segs.map (fun e =>
    (e.1, { e.2 with blocks := e.2.blocks.map (fun c => if c.id = b.id then { c with durable := true } else c) })) } }

theorem setDurable_eq (d : Dev) (b : ArcBlock) : setDurable d b =
    onlyIf (decide (b.closedAt + sT 1 < (onlyIf (b.stream == 36) (fun d => ledgerStored d b.first b.last true) (markDurable d b)).ticks))
      (fun d => bump d pgArc F.ARC_LATE_BLOCKS)
      (onlyIf (b.stream == 36) (fun d => ledgerStored d b.first b.last true) (markDurable d b)) := rfl

/-- The device but for the Archive, the Ledger's places and registers. -/
theorem setDurable_moved (d : Dev) (b : ArcBlock) :
    Moved noPlaces [(pgPkg, F.PKG_BUF_LEVEL), (pgArc, F.ARC_LATE_BLOCKS)] (markDurable d b) (setDurable d b) := by
  rw [setDurable_eq]
  have h1 : Moved noPlaces [(pgPkg, F.PKG_BUF_LEVEL), (pgArc, F.ARC_LATE_BLOCKS)] (markDurable d b)
      (onlyIf (b.stream == 36) (fun d => ledgerStored d b.first b.last true) (markDurable d b)) :=
    .of_onlyIf _ _ ((ledgerStored_moved _ _ _ _).mono (by simp))
  generalize onlyIf (b.stream == 36) _ _ = e at h1 ⊢
  exact h1.then_onlyIf (.of_addC e 1 (by simp))

theorem arc_of_moved {fs : List (Nat × Fld)} {d e : Dev} (h : Moved noPlaces fs d e) : e.arc = d.arc := h.field Dev.arc

theorem late_setDurable (d : Dev) (b : ArcBlock) (h : getR d pgArc F.ARC_LATE_BLOCKS < 2 ^ 32) :
    getR (setDurable d b) pgArc F.ARC_LATE_BLOCKS =
      min (getR d pgArc F.ARC_LATE_BLOCKS + (if b.closedAt + 100000000 < d.ticks then 1 else 0)) (2 ^ 32 - 1) := by
  rw [setDurable_eq]
  have h1 : Moved noPlaces [(pgPkg, F.PKG_BUF_LEVEL)] (markDurable d b)
      (onlyIf (b.stream == 36) (fun d => ledgerStored d b.first b.last true) (markDurable d b)) :=
    .of_onlyIf _ _ (ledgerStored_moved _ _ _ _)
  generalize onlyIf (b.stream == 36) _ _ = e at h1 ⊢
  have ht : e.ticks = d.ticks := h1.field Dev.ticks
  have hr : getR e pgArc F.ARC_LATE_BLOCKS = getR d pgArc F.ARC_LATE_BLOCKS :=
    h1.getR_page (by decide) (by simp only [List.mem_singleton, forall_eq]; decide)
  rw [ht, show sT 1 = 100000000 from rfl, ← hr]
  rw [← hr] at h
  by_cases hl : b.closedAt + 100000000 < d.ticks
  · rw [if_pos hl, decide_eq_true hl]
    exact getR_addC_narrow e pgArc (f := F.ARC_LATE_BLOCKS) 1 (by decide)
  · rw [if_neg hl, decide_eq_false hl]
    show getR e pgArc F.ARC_LATE_BLOCKS = _
    omega

theorem durable_markDurable {d : Dev} {b : ArcBlock} : ∀ y ∈ (markDurable d b).arc.segs, ∀ k ∈ y.2.blocks, k.id = b.id → k.durable = true := by
  intro y hy k hk hid
  obtain ⟨x, -, rfl⟩ := List.mem_map.1 (show y ∈ d.arc.segs.map _ from hy)
  obtain ⟨c, -, rfl⟩ := List.mem_map.1 hk
  by_cases hc : c.id = b.id
  · rw [if_pos hc]
  · rw [if_neg hc] at hid
    exact absurd hid hc

/-! ### Segments that become due (R375) -/

section
variable {d : Dev} {s : Nat}

theorem makeDue_free (c : Nat) (h : (seg d s).vol = 0) : makeDue d s c = d := if_pos h

theorem makeDue_used (c : Nat) (h : (seg d s).vol ≠ 0) : ∃ w, makeDue d s c = setSeg d s { seg d s with due := some w } := by
  unfold makeDue
  extract_lets x due
  rw [if_neg h]
  have hd : ∃ w, due = some w := by
    unfold due
    split
    · split
      · exact ⟨_, rfl⟩
      · exact ⟨_, rfl⟩
    · exact ⟨_, rfl⟩
  obtain ⟨w, hw⟩ := hd
  exact ⟨w, by rw [hw]⟩

/-- The device but for the Archive outside its registers. -/
def noArc (d : Dev) : Dev := { d with arc := { d.arc with segs := [] } }

theorem makeDue_frame (d : Dev) (s c : Nat) : noArc (makeDue d s c) = noArc d := by
  by_cases h : (seg d s).vol = 0
  · rw [makeDue_free c h]
  · obtain ⟨w, hw⟩ := makeDue_used c h
    rw [hw]
    rfl

theorem vol_makeDue (d : Dev) (s c : Nat) : (seg (makeDue d s c) s).vol = (seg d s).vol := by
  by_cases h : (seg d s).vol = 0
  · rw [makeDue_free c h]
  · obtain ⟨w, hw⟩ := makeDue_used c h
    rw [hw, seg_setSeg_same]

theorem due_makeDue {c : Nat} (h : (seg d s).vol ≠ 0) : (seg (makeDue d s c) s).due ≠ none := by
  obtain ⟨w, hw⟩ := makeDue_used c h
  rw [hw, seg_setSeg_same]
  exact Option.some_ne_none w

end

/-! ### NAND reads (R366, R375) -/

theorem getR_peak_self (d : Dev) (p : Nat) {f : Fld} {v : Nat} (hv : v < 2 ^ f.width) : getR (peak d p f v) p f = max (getR d p f) v := by
  unfold peak
  split
  case isTrue h =>
    rw [getR_setR_self, Nat.min_eq_left (by omega), Nat.mod_eq_of_lt hv]
    omega
  case isFalse h => omega

/-- A codeword of channel `c` that decodes at read-retry level `lv` with `bt` corrected bits: a segment `x` over its limits is due. -/
def codewordRead (d : Dev) (c x lv bt : Nat) : Dev :=
  let d := peak (addC d (pgNch c) F.NCH_RETRY_READS lv) (pgNch c) F.NCH_MAX_BITS bt
  let d := onlyIf (decide (lv ≤ 16) && decide (getR d pgArc F.ARC_REFRESH_LEVEL ≤ lv)) (fun d => makeDue d x 1) d
  onlyIf (decide (getR d pgArc F.ARC_REFRESH_BITS < bt)) (fun d => makeDue d x 2) d

/-- A codeword that does not decode at all: span `cw` of block `k` is unreadable. -/
def codewordLost (d : Dev) (c rr x k cw : Nat) (b : Option ArcBlock) : Dev :=
  let d := bump (addC d (pgNch c) F.NCH_RETRY_READS rr) (pgNch c) F.NCH_SOFT_READS
  let d := raise (bump (bump d (pgNch c) F.NCH_UNCORRECTABLE) pgArc F.ARC_UNREADABLE) pgArc 11
  let d := match b with
    | some b => ledgerNow d 0x0503 0xF (typeCode .arc) ([b.stream] ++ leBytes 8 b.first)
    | none => d
  let y := seg d x
  setSeg d x { y with blocks := (y.blocks.zip (List.range y.blocks.length)).map (fun z =>
    if z.2 = k then { z.1 with bad := z.1.bad ++ [cw] } else z.1) }

theorem doNandRead_decodes (t c x k cw lv bt : Nat) (d : Dev) (h : lv ≤ 16) : doNandRead t c x k cw [(lv, bt)] d =
    arcShow (refreshWant (codewordRead (bump (advance d t) (pgNch c) F.NCH_READS) c x (min lv (min 16 (getR d pgArc F.ARC_RR_COUNT))) bt)) := by
  unfold doNandRead
  extract_lets e1 p rr e2 b e3
  have hm : min lv rr ≤ 16 := by omega
  have h3 : e3 = codewordRead e2 c x (min lv rr) bt := by
    unfold e3
    simp only [List.length_cons, List.length_nil, Nat.zero_add, List.range_one, List.zip_cons_cons, List.zip_nil_left, List.foldl_cons,
      List.foldl_nil]
    rw [if_pos h]
    rw [if_pos hm]
    rw [if_neg (by omega)]
    rw [show decide (16 < min lv rr) = false from decide_eq_false (by omega), show (min lv rr == 17) = false from by
      rw [beq_eq_false_iff_ne]; omega]
    rfl
  rw [h3]
  rfl

theorem doNandRead_lost (t c x k cw bt : Nat) (d : Dev) : doNandRead t c x k cw [(18, bt)] d =
    arcShow (refreshWant (codewordLost (bump (advance d t) (pgNch c) F.NCH_READS) c (min 16 (getR d pgArc F.ARC_RR_COUNT)) x k cw
      (seg d x).blocks[k]?)) := by
  unfold doNandRead
  extract_lets e1 p rr e2 b e3
  have h3 : e3 = codewordLost e2 c rr x k cw b := by
    unfold e3
    simp only [List.length_cons, List.length_nil, Nat.zero_add, List.range_one, List.zip_cons_cons, List.zip_nil_left, List.foldl_cons,
      List.foldl_nil]
    rw [if_neg (by decide : ¬18 ≤ 16), if_neg (by decide : ¬18 ≤ 16), if_pos (rfl : (18 : Nat) = 18)]
    rfl
  have hb : b = (seg d x).blocks[k]? := by
    unfold b e2
    rw [bump, addC_eq]
    rfl
  rw [h3, hb]
  rfl

/-- What a codeword that decodes leaves. -/
theorem codewordRead_spec (d : Dev) (c x lv : Nat) {bt : Nat} (hbt : bt < 2 ^ 32) :
    getR (codewordRead d c x lv bt) (pgNch c) F.NCH_READS = getR d (pgNch c) F.NCH_READS ∧
    getR (codewordRead d c x lv bt) (pgNch c) F.NCH_RETRY_READS = min (getR d (pgNch c) F.NCH_RETRY_READS + lv) (2 ^ 32 - 1) ∧
    getR (codewordRead d c x lv bt) (pgNch c) F.NCH_MAX_BITS = max (getR d (pgNch c) F.NCH_MAX_BITS) bt ∧
    (getR d pgArc F.ARC_REFRESH_BITS < bt → (seg d x).vol ≠ 0 → (seg (codewordRead d c x lv bt) x).due ≠ none) ∧
    (codewordRead d c x lv bt).mem = d.mem := by
  unfold codewordRead
  extract_lets e1 e2
  have hm : Moved noRegs [(pgNch c, F.NCH_RETRY_READS), (pgNch c, F.NCH_MAX_BITS)] d e1 :=
    (Moved.refl d).then_addC (by simp) |>.then_peak (by simp)
  have hr : getR e1 (pgNch c) F.NCH_RETRY_READS = min (getR d (pgNch c) F.NCH_RETRY_READS + lv) (2 ^ 32 - 1) := by
    have h0 : getR (addC d (pgNch c) F.NCH_RETRY_READS lv) (pgNch c) F.NCH_RETRY_READS = _ := getR_addC_narrow d (pgNch c) lv (by decide)
    rw [← show F.NCH_RETRY_READS.width = 32 from rfl, ← h0]
    exact (Moved.of_peak (k := noRegs) (fs := [(pgNch c, F.NCH_MAX_BITS)]) _ _ (List.mem_singleton_self _)).getR_fld
      (by simp only [List.mem_singleton, forall_eq]; exact ⟨trivial, by decide⟩)
  have hb : getR e1 (pgNch c) F.NCH_MAX_BITS = max (getR d (pgNch c) F.NCH_MAX_BITS) bt := by
    refine (getR_peak_self _ _ hbt).trans (congrArg (max · bt) ?_)
    exact getR_addC_fld d (pgNch c) lv (by decide)
  have hn : getR e1 (pgNch c) F.NCH_READS = getR d (pgNch c) F.NCH_READS :=
    hm.getR_fld (by simp only [List.mem_cons, List.not_mem_nil, or_false, forall_eq_or_imp, forall_eq]; exact ⟨⟨trivial, by decide⟩, trivial, by decide⟩)
  have hl : getR e1 pgArc F.ARC_REFRESH_BITS = getR d pgArc F.ARC_REFRESH_BITS := by
    have hp : pgNch c ≠ pgArc := by unfold pgNch pgArc; omega
    exact hm.getR_page (by decide) (by
      simp only [List.mem_cons, List.not_mem_nil, or_false, forall_eq_or_imp, forall_eq]
      exact ⟨⟨hp, by decide⟩, hp, by decide⟩)
  have hs : seg e1 x = seg d x := seg_congr (hm.field Dev.arc) x
  have hmem : e1.mem = d.mem := hm.field Dev.mem
  clear_value e1
  have h2 : noArc e2 = noArc e1 ∧ (seg e2 x).vol = (seg e1 x).vol := by
    unfold e2 onlyIf
    split
    · exact ⟨makeDue_frame e1 x 1, vol_makeDue e1 x 1⟩
    · exact ⟨rfl, rfl⟩
  clear_value e2
  obtain ⟨h2, hv⟩ := h2
  have h3 : noArc (onlyIf (decide (getR e2 pgArc F.ARC_REFRESH_BITS < bt)) (fun d => makeDue d x 2) e2) = noArc e1 := by
    unfold onlyIf
    split
    · exact (makeDue_frame e2 x 2).trans h2
    · exact h2
  have hreg (p : Nat) (f : Fld) : getR (onlyIf (decide (getR e2 pgArc F.ARC_REFRESH_BITS < bt)) (fun d => makeDue d x 2) e2) p f =
      getR e1 p f := getR_congr (congrArg Dev.regs h3 :) p f
  refine ⟨(hreg _ _).trans hn, (hreg _ _).trans hr, (hreg _ _).trans hb, fun hlt hvol => ?_, (congrArg Dev.mem h3 :).trans hmem⟩
  have hlim : getR e2 pgArc F.ARC_REFRESH_BITS = getR e1 pgArc F.ARC_REFRESH_BITS := getR_congr (congrArg Dev.regs h2 :) _ _
  rw [hlim, hl, decide_eq_true hlt]
  exact due_makeDue (by rw [hv, hs]; exact hvol)

theorem getR_addC_page {p q : Nat} {f g : Fld} (d : Dev) (n : Nat) (h : p ≠ q) (hf : fldAt f < 131072) (hg : fldAt g < 131072) :
    getR (addC d p f n) q g = getR d q g := by rw [addC_eq, getR_setR_page _ _ h hf hg]

/-- An element of a list that is mapped with its place. -/
theorem getElem?_marked {α β : Type} {l : List α} {k : Nat} {z : α} (h : l[k]? = some z) (f : α × Nat → β) {b : β} (hb : f (z, k) = b) :
    ((l.zip (List.range l.length)).map f)[k]? = some b := by
  have hk : k < l.length := (List.getElem?_eq_some_iff.1 h).1
  have hr : (List.range l.length)[k]? = some k := by rw [List.getElem?_range hk]
  rw [List.getElem?_map, (List.getElem?_zip_eq_some (z := (z, k))).2 ⟨h, hr⟩, Option.map_some, hb]

/-- What a codeword that does not decode leaves. -/
theorem codewordLost_spec (d : Dev) (c rr x k cw : Nat) (b : Option ArcBlock) :
    getR (codewordLost d c rr x k cw b) pgArc F.ARC_UNREADABLE = min (getR d pgArc F.ARC_UNREADABLE + 1) (2 ^ 32 - 1) ∧
    getR (codewordLost d c rr x k cw b) (pgNch c) F.NCH_UNCORRECTABLE = min (getR d (pgNch c) F.NCH_UNCORRECTABLE + 1) (2 ^ 32 - 1) ∧
    (evtRaw (codewordLost d c rr x k cw b) pgArc).testBit 11 = true ∧
    ∀ z, (seg d x).blocks[k]? = some z → (seg (codewordLost d c rr x k cw b) x).blocks[k]? = some { z with bad := z.bad ++ [cw] } := by
  unfold codewordLost
  extract_lets e1 e2 e3 y
  have hp : pgNch c ≠ pgArc := by unfold pgNch pgArc; omega
  have h1 : Moved noRegs [(pgNch c, F.NCH_RETRY_READS), (pgNch c, F.NCH_SOFT_READS)] d e1 :=
    (Moved.refl d).then_addC (by simp) |>.then_bump (by simp)
  have hu : getR e1 (pgNch c) F.NCH_UNCORRECTABLE = getR d (pgNch c) F.NCH_UNCORRECTABLE :=
    h1.getR_fld (by simp only [List.mem_cons, List.not_mem_nil, or_false, forall_eq_or_imp, forall_eq]; exact ⟨⟨trivial, by decide⟩, trivial, by decide⟩)
  have ha : getR e1 pgArc F.ARC_UNREADABLE = getR d pgArc F.ARC_UNREADABLE := h1.getR_page (by decide) (by
    simp only [List.mem_cons, List.not_mem_nil, or_false, forall_eq_or_imp, forall_eq]
    exact ⟨⟨hp, by decide⟩, hp, by decide⟩)
  have hs : seg e1 x = seg d x := seg_congr (h1.field Dev.arc) x
  clear_value e1
  have h2u : getR e2 (pgNch c) F.NCH_UNCORRECTABLE = min (getR d (pgNch c) F.NCH_UNCORRECTABLE + 1) (2 ^ 32 - 1) := by
    rw [← hu]
    exact (getR_addC_page _ 1 (Ne.symm hp) (by decide) (by decide)).trans (getR_addC_narrow e1 (pgNch c) 1 (by decide))
  have h2a : getR e2 pgArc F.ARC_UNREADABLE = min (getR d pgArc F.ARC_UNREADABLE + 1) (2 ^ 32 - 1) := by
    rw [← ha]
    refine (getR_addC_narrow _ pgArc 1 (by decide)).trans (congrArg (fun v => min (v + 1) (2 ^ 32 - 1)) ?_)
    exact getR_addC_page e1 1 hp (by decide) (by decide)
  have h2b : (evtRaw e2 pgArc).testBit 11 = true := raise_bit _ pgArc 11
  have h2s : seg e2 x = seg d x := (seg_congr ((arc_addC _ _ _ _).trans (arc_addC _ _ _ _)) x).trans hs
  clear_value e2
  have h3 : (∀ p f, getR e3 p f = getR e2 p f) ∧ evtRaw e3 pgArc = evtRaw e2 pgArc ∧ seg e3 x = seg e2 x := by
    unfold e3
    split
    · exact ⟨fun _ _ => rfl, rfl, rfl⟩
    · exact ⟨fun _ _ => rfl, rfl, rfl⟩
  obtain ⟨h3r, h3e, h3s⟩ := h3
  clear_value e3
  refine ⟨(h3r _ _).trans h2a, (h3r _ _).trans h2u, (congrArg (Nat.testBit · 11) h3e).trans h2b, fun z hz => ?_⟩
  rw [seg_setSeg_same]
  rw [← h2s, ← h3s] at hz
  exact getElem?_marked hz _ (by rw [if_pos rfl])

end Sys2Proof.Machine
end

section
set_option Elab.async false
/-! PROOFS. The Archive's programs and erases that fail, its snapshots and its retrieval requests (R372, R380, R383). -/

namespace Sys2Proof.Machine

open Sys2Proof

/-! ### Programs and erases (R372, R379) -/

theorem noteBytes_regs (d : Dev) (n : Nat) : (noteBytes d n).regs = (addC d pgArc F.ARC_WRITTEN n).regs := rfl

theorem noteBytes_rest (d : Dev) (n : Nat) : (noteBytes d n).evt = d.evt ∧ (noteBytes d n).almBad = d.almBad := by
  have h : Moved noRegs [(pgArc, F.ARC_WRITTEN)] d (addC d pgArc F.ARC_WRITTEN n) := .of_addC d n (List.mem_singleton_self _)
  exact ⟨h.field Dev.evt, h.field Dev.almBad⟩

/-- `n` bytes are programmed in `pages` pages on channel `c`. -/
def pagesProgrammed (d : Dev) (c pages n : Nat) : Dev := noteBytes (addC d (pgNch c) F.NCH_PROGRAMS pages) n

theorem pgNch_ne_pgArc (c : Nat) : pgNch c ≠ pgArc := by unfold pgNch pgArc; omega

theorem pagesProgrammed_spec (d : Dev) (c pages n : Nat) :
    getR (pagesProgrammed d c pages n) (pgNch c) F.NCH_PROGRAMS = (getR d (pgNch c) F.NCH_PROGRAMS + pages) % 2 ^ 64 ∧
    getR (pagesProgrammed d c pages n) (pgNch c) F.NCH_PROG_FAILS = getR d (pgNch c) F.NCH_PROG_FAILS ∧
    getR (pagesProgrammed d c pages n) pgArc F.ARC_WRITTEN = (getR d pgArc F.ARC_WRITTEN + n) % 2 ^ 64 ∧
    getR (pagesProgrammed d c pages n) pgArc F.ARC_GROWN_BAD = getR d pgArc F.ARC_GROWN_BAD ∧
    (pagesProgrammed d c pages n).evt = d.evt ∧ (pagesProgrammed d c pages n).almBad = d.almBad := by
  unfold pagesProgrammed
  have h1 : getR (addC d (pgNch c) F.NCH_PROGRAMS pages) (pgNch c) F.NCH_PROGRAMS = _ := getR_addC_wide d (pgNch c) pages (by decide)
  have h2 : getR (addC d (pgNch c) F.NCH_PROGRAMS pages) (pgNch c) F.NCH_PROG_FAILS = _ := getR_addC_fld d (pgNch c) pages (by decide)
  have h3 (f : Fld) (hf : fldAt f < 131072) : getR (addC d (pgNch c) F.NCH_PROGRAMS pages) pgArc f = _ :=
    getR_addC_page d pages (pgNch_ne_pgArc c) (by decide) hf
  have hm : Moved noRegs [(pgNch c, F.NCH_PROGRAMS)] d (addC d (pgNch c) F.NCH_PROGRAMS pages) := .of_addC d pages (List.mem_singleton_self _)
  have he : (addC d (pgNch c) F.NCH_PROGRAMS pages).evt = d.evt := hm.field Dev.evt
  have ha : (addC d (pgNch c) F.NCH_PROGRAMS pages).almBad = d.almBad := hm.field Dev.almBad
  generalize addC d (pgNch c) F.NCH_PROGRAMS pages = e at h1 h2 h3 he ha
  have hn (f : Fld) (hf : fldAt f < 131072) : getR (noteBytes e n) (pgNch c) f = getR e (pgNch c) f :=
    (getR_congr (noteBytes_regs e n) _ _).trans (getR_addC_page e n (Ne.symm (pgNch_ne_pgArc c)) (by decide) hf)
  obtain ⟨g1, g2⟩ := noteBytes_rest e n
  refine ⟨(hn _ (by decide)).trans h1, (hn _ (by decide)).trans h2, ?_, ?_, g1.trans he, g2.trans ha⟩
  · rw [← h3 F.ARC_WRITTEN (by decide)]
    exact (getR_congr (noteBytes_regs e n) _ _).trans (getR_addC_wide e pgArc n (by decide))
  · rw [← h3 F.ARC_GROWN_BAD (by decide)]
    exact (getR_congr (noteBytes_regs e n) _ _).trans (getR_addC_fld e pgArc n (by decide))

/-- The bytes of a page. -/
def pageSize (d : Dev) : Nat :=
  match d.arc.geo with
  | some g => g.pageBytes
  | none => 0

theorem pageSize_some {d : Dev} {g : ArcGeo} (h : d.arc.geo = some g) : pageSize d = g.pageBytes := by
  unfold pageSize
  simp only [h]

theorem doNandProgram_good (t c v u b p : Nat) (d : Dev) : doNandProgram t c v u b p true d =
    pagesProgrammed (advance d t) c p (p * pageSize d) := rfl

/-- A program that fails counts on its channel. -/
def programFailed (d : Dev) (c : Nat) : Dev := raise (bump d (pgNch c) F.NCH_PROG_FAILS) (pgNch c) 8

/-- An erase, and one that fails, count on their channel. -/
def eraseFailed (d : Dev) (c : Nat) : Dev := raise (bump (bump d (pgNch c) F.NCH_ERASES) (pgNch c) F.NCH_ERASE_FAILS) (pgNch c) 9

theorem doNandProgram_bad (t c v u b p : Nat) (d : Dev) : doNandProgram t c v u b p false d =
    growBad (programFailed (pagesProgrammed (advance d t) c p (p * pageSize d)) c) c v u b 0 := by
  unfold doNandProgram
  extract_lets e1 p2 size e2
  have h2 : e2 = pagesProgrammed e1 c p (p * pageSize d) := rfl
  rw [if_neg Bool.false_ne_true, h2]
  unfold programFailed
  rfl

theorem doNandErase_good (t c v u b : Nat) (d : Dev) : doNandErase t c v u b true d = bump (advance d t) (pgNch c) F.NCH_ERASES := by
  unfold doNandErase
  exact if_pos rfl

theorem doNandErase_bad (t c v u b : Nat) (d : Dev) : doNandErase t c v u b false d =
    growBad (eraseFailed (advance d t) c) c v u b 1 := by
  unfold doNandErase
  extract_lets e1 p e2
  rw [if_neg Bool.false_ne_true]
  unfold eraseFailed
  rfl

/-- A grown bad block counts and is logged, before what follows from it. -/
def badNoted (d : Dev) (c v u b cause : Nat) : Dev :=
  raise (bump (ledgerNow { d with almBad := d.almBad ++ [blkKey c v u b] } 0x0501 0xF (typeCode .arc) ([c, v, u] ++ leBytes 4 b ++ [cause]))
    pgArc F.ARC_GROWN_BAD) pgArc 12

theorem growBad_new {d : Dev} {c v u b : Nat} (cause : Nat) (hl : d.almBad.length < 16384) (hn : blkKey c v u b ∉ d.almBad) :
    growBad d c v u b cause = arcShow (arcCheck (badNoted d c v u b cause)) := by
  unfold growBad
  extract_lets e1 e2
  have h1 : e1 = { d with almBad := d.almBad ++ [blkKey c v u b] } := if_pos ⟨hl, by simpa using hn⟩
  unfold e2
  rw [h1]
  rfl

/-- What a new grown bad block leaves. -/
theorem growBad_spec {d : Dev} {c v u b : Nat} (cause : Nat) (hl : d.almBad.length < 16384) (hn : blkKey c v u b ∉ d.almBad) :
    getR (growBad d c v u b cause) pgArc F.ARC_GROWN_BAD = min (getR d pgArc F.ARC_GROWN_BAD + 1) (2 ^ 32 - 1) ∧
    (evtRaw (growBad d c v u b cause) pgArc).testBit 12 = true ∧
    (growBad d c v u b cause).almBad = d.almBad ++ [blkKey c v u b] ∧
    (∀ p k, (evtRaw d p).testBit k = true → (evtRaw (growBad d c v u b cause) p).testBit k = true) ∧
    ∀ k f, fldAt f < 131072 → getR (growBad d c v u b cause) (pgNch k) f = getR d (pgNch k) f := by
  rw [growBad_new cause hl hn]
  unfold badNoted
  generalize he : ledgerNow _ _ _ _ _ = e
  have hr (p : Nat) (f : Fld) : getR e p f = getR d p f := by rw [← he]; rfl
  have hv : e.evt = d.evt := by rw [← he]; rfl
  have ha : e.almBad = d.almBad ++ [blkKey c v u b] := by rw [← he]; rfl
  clear he
  have hb : Moved noRegs [(pgArc, F.ARC_GROWN_BAD)] e (bump e pgArc F.ARC_GROWN_BAD) := .of_addC e 1 (List.mem_singleton_self _)
  have hg : getR (bump e pgArc F.ARC_GROWN_BAD) pgArc F.ARC_GROWN_BAD = min (getR e pgArc F.ARC_GROWN_BAD + 1) (2 ^ 32 - 1) :=
    getR_addC_narrow e pgArc 1 (by decide)
  have hk (k : Nat) (f : Fld) (hf : fldAt f < 131072) : getR (bump e pgArc F.ARC_GROWN_BAD) (pgNch k) f = getR e (pgNch k) f :=
    getR_addC_page e 1 (Ne.symm (pgNch_ne_pgArc k)) (by decide) hf
  have hba : (bump e pgArc F.ARC_GROWN_BAD).almBad = e.almBad := hb.field Dev.almBad
  have hbe : (bump e pgArc F.ARC_GROWN_BAD).evt = e.evt := hb.field Dev.evt
  generalize bump e pgArc F.ARC_GROWN_BAD = a at hg hk hba hbe
  have hf : Follows followAt (raise a pgArc 12) (arcShow (arcCheck (raise a pgArc 12))) := (Follows.refl _).arcCheck.arcShow
  refine ⟨?_, hf.bit (raise_bit a pgArc 12), hf.almBad.trans (hba.trans ha), fun p k hx => hf.bit (raise_mono _ _ _ _ _ ?_),
    fun k f hlt => (hf.getR_nch k hlt).trans ((hk k f hlt).trans (hr _ _))⟩
  · exact (hf.getR_arc (by decide) (by decide)).trans (hg.trans (by rw [hr]))
  · rw [evtRaw, hbe, hv]
    exact hx

end Sys2Proof.Machine
end

section
set_option Elab.async false
/-! PROOFS. The Archive's retrieval requests (R380), and its streams put together. -/

namespace Sys2Proof.Machine

open Sys2Proof

/-! ### Retrieval (R380) -/

theorem jobSince_postJob (d : Dev) (o cost dur dl : Nat) : (postJob d o cost dur dl).jobSince = d.jobSince := by
  unfold postJob
  split
  · rfl
  · split <;> rfl

/-- The request that the registers state. -/
def retAsked (d : Dev) : RetReq :=
  { stream := getR d pgArc F.ARC_RET_STREAM, mode := getR d pgArc F.ARC_RET_MODE, decode := flagR d pgArc F.ARC_RET_DECODE,
    tag := getR d pgArc F.ARC_RET_TAG, a := getR d pgArc F.ARC_RET_A, aNs := getR d pgArc F.ARC_RET_A_NS,
    b := getR d pgArc F.ARC_RET_B, bNs := getR d pgArc F.ARC_RET_B_NS, todo := none }

/-- A request is queued. -/
def retQueued (d : Dev) : Dev := { d with arc := { d.arc with rets := d.arc.rets ++ [retAsked d] } }

section
variable {d : Dev}

theorem retGo_full (h : 8 + b2n (jobBegun d ownRet) ≤ d.arc.rets.length) : retGo d = setR d pgArc F.ARC_RET_STATUS 4 := by
  unfold retGo
  extract_lets p waits q
  exact if_pos (.inl (by unfold waits; omega))

theorem retGo_queues (h : d.arc.rets.length < 8) (hs : arcSt d = 2 ∨ arcSt d = 3) : retGo d = retShow (retWant (retQueued d)) := by
  unfold retGo
  extract_lets p waits q
  exact if_neg (by unfold waits; omega)

theorem retShow_empty (h : d.arc.rets = []) : retShow d = d := if_pos (by rw [h]; rfl)

theorem retShow_some (h : d.arc.rets ≠ []) :
    retShow d = setR d pgArc F.ARC_RET_STATUS (if jobBegun d ownRet then 2 else 1) :=
  if_neg (by simpa using h)

/-- RET_STATUS alone follows the requests. -/
theorem retShow_moved (d : Dev) : Moved noRegs [(pgArc, F.ARC_RET_STATUS)] d (retShow d) := by
  unfold retShow
  split
  · exact .refl d
  · exact .of_setR d _ (List.mem_singleton_self _)

theorem retGo_spec (h : d.arc.rets.length < 8) (hs : arcSt d = 2 ∨ arcSt d = 3) (hj : Store.get d.jobSince 0 ownRet = 0) :
    getR (retGo d) pgArc F.ARC_RET_STATUS = 1 ∧ (retGo d).arc.rets = d.arc.rets ++ [retAsked d] := by
  rw [retGo_queues h hs]
  have hr : (retQueued d).arc.rets = d.arc.rets ++ [retAsked d] := rfl
  have hq : Store.get (retQueued d).jobSince 0 ownRet = 0 := hj
  generalize retQueued d = e at hr hq
  have hw : (retWant e).arc.rets = d.arc.rets ++ [retAsked d] := (congrArg ArcSt.rets (Follows.refl (l := []) e).retWant.arc).trans hr
  have hn : (retWant e).arc.rets ≠ [] := by rw [hw]; simp
  have hb : jobBegun (retWant e) ownRet = false := by
    have hp : retWant e = postJob e ownRet (openCost ownRet) (openDur ownRet) 0 := if_neg (by rw [hr]; simp)
    rw [jobBegun, hp, jobSince_postJob, hq]
    exact Bool.and_false _
  rw [retShow_some hn, hb]
  exact ⟨getR_setR_self .., hw⟩

/-- The running request has ended. -/
def retEnded (d : Dev) : Dev :=
  freeJob { d with arc := { d.arc with rets := d.arc.rets.drop 1, cancel := false } } ownRet

theorem doRetDone_idle {t : Nat} (h : d.arc.rets = [] ∨ jobBegun d ownRet = false) : doRetDone t d = advance d t := by
  unfold doRetDone
  extract_lets e
  cases hr : d.arc.rets with
  | nil =>
    have he : e.arc.rets = [] := hr
    simp only [he]
    rfl
  | cons q z =>
    have he : e.arc.rets = q :: z := hr
    have hb : jobBegun e ownRet = false := h.resolve_left (by rw [hr]; simp)
    simp only [he, hb]
    rfl

theorem doRetDone_ends {t : Nat} {q : RetReq} {z : List RetReq} (hr : d.arc.rets = q :: z) (hj : jobBegun d ownRet = true)
    (hc : d.arc.cancel = true ∨ q.todo = some []) : doRetDone t d =
    retShow (retWant (raise (setR (setR (retEnded (advance d t)) pgArc F.ARC_RET_TAG_DONE q.tag) pgArc F.ARC_RET_STATUS 3) pgArc 14)) := by
  unfold doRetDone
  extract_lets e
  have he : e.arc.rets = q :: z := hr
  have hb : jobBegun e ownRet = true := hj
  have hx : e.arc.cancel = true ∨ q.todo = some [] := hc
  change _ = retShow (retWant (raise (setR (setR (retEnded e) pgArc F.ARC_RET_TAG_DONE q.tag) pgArc F.ARC_RET_STATUS 3) pgArc 14))
  clear_value e
  simp only [he, hb]
  rw [if_neg (by decide)]
  obtain hx | hx := hx
  · rw [if_pos hx]
    rfl
  · rw [hx]
    cases hcan : e.arc.cancel with
    | true => rfl
    | false => rfl

theorem retEnded_follows (d : Dev) : Follows [] { d with arc := { d.arc with rets := d.arc.rets.drop 1, cancel := false } } (retEnded d) :=
  (Follows.refl _).freeJob _

/-- What a request that ends leaves. -/
theorem doRetDone_spec {t : Nat} {q : RetReq} {z : List RetReq} (hr : d.arc.rets = q :: z) (hj : jobBegun d ownRet = true)
    (hc : d.arc.cancel = true ∨ q.todo = some []) : (doRetDone t d).arc.rets = z ∧ (doRetDone t d).arc.cancel = false ∧
    getR (doRetDone t d) pgArc F.ARC_RET_TAG_DONE = q.tag % 2 ^ 16 ∧
    (z = [] → getR (doRetDone t d) pgArc F.ARC_RET_STATUS = 3) ∧ (evtRaw (doRetDone t d) pgArc).testBit 14 = true ∧
    (doRetDone t d).rings = d.rings := by
  rw [doRetDone_ends hr hj hc]
  have hf := retEnded_follows (advance d t)
  generalize retEnded (advance d t) = a at hf
  have ha : a.arc.rets = z := (congrArg ArcSt.rets hf.arc).trans (show d.arc.rets.drop 1 = z by rw [hr]; rfl)
  have hac : a.arc.cancel = false := congrArg ArcSt.cancel hf.arc
  have har : a.rings = d.rings := hf.rings
  clear hf
  generalize hb : raise (setR (setR a pgArc F.ARC_RET_TAG_DONE q.tag) pgArc F.ARC_RET_STATUS 3) pgArc 14 = b
  have hbt : getR b pgArc F.ARC_RET_TAG_DONE = q.tag % 2 ^ 16 := by
    rw [← hb, getR_raise, getR_setR_fld _ _ _ (by decide), getR_setR_self]
    rfl
  have hbs : getR b pgArc F.ARC_RET_STATUS = 3 := by
    rw [← hb, getR_raise, getR_setR_self]
    rfl
  have hbb : (evtRaw b pgArc).testBit 14 = true := by
    rw [← hb]
    exact raise_bit _ pgArc 14
  have hba : b.arc = a.arc ∧ b.rings = a.rings := by
    rw [← hb]
    exact ⟨rfl, rfl⟩
  clear hb
  have hw : Follows [] b (retWant b) := (Follows.refl b).retWant
  generalize retWant b = c at hw
  have hs := retShow_moved c
  refine ⟨?_, ?_, ?_, fun hz => ?_, ?_, (hs.field Dev.rings).trans (hw.rings.trans (hba.2.trans har))⟩
  · rw [show (retShow c).arc = c.arc from hs.field Dev.arc, hw.arc, hba.1, ha]
  · rw [show (retShow c).arc = c.arc from hs.field Dev.arc, hw.arc, hba.1, hac]
  · rw [hs.getR_fld (by simp only [List.mem_singleton, forall_eq]; exact ⟨trivial, by decide⟩), hw.getR_arc (by decide) (by decide), hbt]
  · rw [retShow_empty (by rw [hw.arc, hba.1, ha, hz]), hw.getR_arc (by decide) (by decide), hbs]
  · rw [evtRaw, show (retShow c).evt = c.evt from hs.field Dev.evt]
    exact hw.bit hbb

end

/-! ### Timeouts and erases that fail (R372, R384) -/

theorem doNandTimeout_spec (t c : Nat) (fatal : Bool) (d : Dev) :
    getR (doNandTimeout t c fatal d) (pgNch c) F.NCH_TIMEOUTS = min (getR d (pgNch c) F.NCH_TIMEOUTS + 1) (2 ^ 32 - 1) ∧
    (evtRaw (doNandTimeout t c fatal d) (pgNch c)).testBit 10 = true ∧
    getR (doNandTimeout t c fatal d) (pgNch c) cSTATE = (if fatal then 3 else getR d (pgNch c) cSTATE) ∧
    (doNandTimeout t c fatal d).arc = d.arc := by
  unfold doNandTimeout
  extract_lets e1 e2
  have h1 : getR e2 (pgNch c) F.NCH_TIMEOUTS = min (getR d (pgNch c) F.NCH_TIMEOUTS + 1) (2 ^ 32 - 1) :=
    getR_addC_narrow e1 (pgNch c) 1 (by decide)
  have h2 : (evtRaw e2 (pgNch c)).testBit 10 = true := raise_bit _ _ 10
  have h3 : getR e2 (pgNch c) cSTATE = getR d (pgNch c) cSTATE := getR_addC_fld e1 (pgNch c) 1 (by decide)
  have h4 : e2.arc = d.arc := arc_addC e1 (pgNch c) F.NCH_TIMEOUTS 1
  clear_value e2
  cases fatal with
  | false => exact ⟨h1, h2, h3, h4⟩
  | true => exact ⟨(getR_setR_fld e2 (pgNch c) 3 (by decide)).trans h1, h2, getR_setR_self .., h4⟩

theorem eraseFailed_spec (d : Dev) (c : Nat) :
    getR (eraseFailed d c) (pgNch c) F.NCH_ERASES = min (getR d (pgNch c) F.NCH_ERASES + 1) (2 ^ 32 - 1) ∧
    getR (eraseFailed d c) (pgNch c) F.NCH_ERASE_FAILS = min (getR d (pgNch c) F.NCH_ERASE_FAILS + 1) (2 ^ 32 - 1) ∧
    (evtRaw (eraseFailed d c) (pgNch c)).testBit 9 = true ∧ getR (eraseFailed d c) pgArc F.ARC_GROWN_BAD = getR d pgArc F.ARC_GROWN_BAD ∧
    (eraseFailed d c).almBad = d.almBad := by
  have hm : Moved noRegs [(pgNch c, F.NCH_ERASES), (pgNch c, F.NCH_ERASE_FAILS)] d (bump (bump d (pgNch c) F.NCH_ERASES) (pgNch c) F.NCH_ERASE_FAILS) :=
    (Moved.of_addC d 1 (by simp)).then_bump (by simp)
  refine ⟨?_, ?_, raise_bit _ _ 9, ?_, hm.field Dev.almBad⟩
  · exact (getR_addC_fld _ (pgNch c) 1 (by decide)).trans (getR_addC_narrow d (pgNch c) 1 (by decide))
  · refine (getR_addC_narrow _ (pgNch c) 1 (by decide)).trans (congrArg (fun v => min (v + 1) (2 ^ 32 - 1)) ?_)
    exact getR_addC_fld d (pgNch c) 1 (by decide)
  · exact (getR_addC_page _ 1 (pgNch_ne_pgArc c) (by decide) (by decide)).trans
      (getR_addC_page d 1 (pgNch_ne_pgArc c) (by decide) (by decide))

/-! ### Snapshots (R383) -/

theorem leAt_whole (l : List Nat) : leAt l 0 l.length = ofLe l := by simp [leAt]

theorem snapLen_eq (d : Dev) (a : Nat) : leAt (load d a 4) 0 4 = ofLe (memRead d.mem a 4) := by
  have h : (load d a 4).length = 4 := by simp [load, memRead]
  exact (congrArg (leAt (load d a 4) 0) h.symm).trans (leAt_whole _)

theorem snapGo_takes {d : Dev} {a len : Nat} (ha : getR d pgArc F.ARC_SNAP_ADDR * 256 = a) (hl : ofLe (memRead d.mem a 4) = len)
    (hs : arcSt d = 2) (hp : poisoned d a (4 + len) = false) : snapGo d =
    { d with arc := { d.arc with inQ := d.arc.inQ ++ [⟨37, 0, tai d, memRead d.mem (a + 4) len⟩] } } := by
  unfold snapGo
  extract_lets a' len' b i
  have ha' : a' = a := ha
  have hl' : len' = len := by
    unfold len'
    rw [ha', snapLen_eq, hl]
  rw [if_neg (not_not.2 hs), ha', hl', if_neg (by rw [hp]; exact Bool.false_ne_true)]
  unfold i
  rw [ha', hl']
  rfl

theorem snapGo_none {d : Dev} (hs : arcSt d ≠ 2) : snapGo d = d := if_pos hs

/-! ### An engine and the Archive (R377, R390) -/

section
variable {d : Dev} {e t : Nat}

theorem doMelArchive_busy (dec poi : Bool) (h : melHost d e = true ∨ getR d (pgMel e) cSTATE ≠ 0) :
    doMelArchive t e dec poi d = advance d t := by
  have h' : melHost (advance d t) e = true ∨ getR (advance d t) (pgMel e) cSTATE ≠ 0 := h
  exact if_pos (by simpa using h')

/-- Staging has lost its oldest block. -/
def unstaged (d : Dev) (q : List ArcBlock) : Dev := { d with arc := { d.arc with staged := q } }

section
variable (h1 : melHost d e = false) (h2 : getR d (pgMel e) cSTATE = 0)
include h1 h2

theorem melFree : ¬(melHost (advance d t) e || getR (advance d t) (pgMel e) cSTATE != 0) = true := by
  rw [show melHost (advance d t) e = false from h1, show getR (advance d t) (pgMel e) cSTATE = 0 from h2]
  decide

theorem doMelArchive_poisoned {z : ArcBlock} {q : List ArcBlock} (hs : arcSt d = 2) (hz : d.arc.staged = z :: q) :
    doMelArchive t e false true d = arcShow (dropBlock (unstaged (advance d t) q) z 1) := by
  have hm := melFree (t := t) h1 h2
  unfold doMelArchive unstaged
  extract_lets a
  have ha : a.arc.staged = z :: q := hz
  rw [if_neg hm, if_neg Bool.false_ne_true, if_neg (not_not.2 (show arcSt a = 2 from hs))]
  simp only [ha]
  exact if_pos trivial

theorem doMelArchive_encodes {z : ArcBlock} {q : List ArcBlock} (hs : arcSt d = 2) (hz : d.arc.staged = z :: q) :
    doMelArchive t e false false d = arcShow (encodeNext (advance d t) (some e)) := by
  have hm := melFree (t := t) h1 h2
  unfold doMelArchive
  extract_lets a
  have ha : a.arc.staged = z :: q := hz
  rw [if_neg hm, if_neg Bool.false_ne_true, if_neg (not_not.2 (show arcSt a = 2 from hs))]
  simp only [ha]
  rfl

theorem doMelArchive_sends {q : RetReq} {z : List RetReq} (poi : Bool) (hr : d.arc.rets = q :: z) (hj : jobBegun d ownRet = true)
    (hc : d.arc.cancel = false) : doMelArchive t e true poi d = retSend (advance d t) (some e) := by
  have hm := melFree (t := t) h1 h2
  unfold doMelArchive
  extract_lets a
  have ha : a.arc.rets = q :: z := hr
  rw [if_neg hm, if_pos rfl]
  simp only [ha]
  exact if_pos (by rw [show jobBegun a ownRet = true from hj, show a.arc.cancel = false from hc]; rfl)

end

end

/-! ### Frames on their way, and the timer of a block (R368) -/

/-- The oldest item has left the queue. -/
def itemTaken (d : Dev) (q : List ArcItem) : Dev := { d with arc := { d.arc with inQ := q } }

section
variable {d : Dev} {t n : Nat}

theorem doArchiveFrame_none (h : d.arc.inQ = []) : doArchiveFrame t d = advance d t := by
  unfold doArchiveFrame
  extract_lets a
  have ha : a.arc.inQ = [] := h
  simp only [ha]
  rfl

theorem doArchiveFrame_joins {i : ArcItem} {q : List ArcItem} (h : d.arc.inQ = i :: q) :
    doArchiveFrame t d = arcShow (joinBlock (itemTaken (advance d t) q) i) := by
  unfold doArchiveFrame itemTaken
  extract_lets a
  have ha : a.arc.inQ = i :: q := h
  simp only [ha]
  rfl

theorem doBlockTimer_none (h : openOf d n = none) : doBlockTimer t n d = advance d t := by
  unfold doBlockTimer
  simp only [h]

theorem doBlockTimer_closes {o : ArcOpen} (h : openOf d n = some o) :
    doBlockTimer t n d = arcShow (closeBlock (advance d (max t (o.at_ + msT 100))) o) := by
  unfold doBlockTimer
  simp only [h]

/-- An item begins the next block of its stream, and the block before it waits in staging. -/
theorem joinBlock_next {i : ArcItem} {o : ArcOpen} (h : openOf d i.stream = some o) (hi : o.items ≠ []) (hs : arcSt d ≠ 3)
    (hl : i.bytes.length ≤ 262144) (hc : 262144 < (openBytes o).length + i.bytes.length ∨ o.at_ + 10000000 ≤ d.ticks)
    (hr : stagingUsed d + (openBytes o).length ≤ 128 * 2 ^ 20) : ∃ f l, joinBlock d i =
      putOpen (stageBlock (unopened d o) (closedBlock d o f l)) (openBegun d i) := by
  obtain ⟨f, l, hb⟩ := closeBlock_stages hi hs hr
  have hn : openOf (closeBlock d o) i.stream = none := by
    rw [hb, ← openOf_stream h]
    exact openOf_unopened d o
  refine ⟨f, l, ?_⟩
  rw [joinBlock_closes h hc hn hl, hb]
  rfl

end

/-- What a block that becomes durable leaves. -/
theorem durableShown_spec (d : Dev) (z : ArcBlock) (h : getR d pgArc F.ARC_LATE_BLOCKS < 2 ^ 32) :
    (∀ y ∈ (arcShow (setDurable d z)).arc.segs, ∀ k ∈ y.2.blocks, k.id = z.id → k.durable = true) ∧
    getR (arcShow (setDurable d z)) pgArc F.ARC_LATE_BLOCKS =
      min (getR d pgArc F.ARC_LATE_BLOCKS + (if z.closedAt + 100000000 < d.ticks then 1 else 0)) (2 ^ 32 - 1) := by
  have ha : (setDurable d z).arc = (markDurable d z).arc := arc_of_moved (setDurable_moved d z)
  rw [arc_arcShow, ha]
  exact ⟨durable_markDurable, (getR_arcShow _ (by decide)).trans (late_setDurable d z h)⟩

section
variable {d : Dev} {t : Nat}

theorem doDurable_none (h : (blocksIn d (fun b => b.logged && !b.durable)).head? = none) : doDurable t d = advance d t := by
  unfold doDurable
  extract_lets a
  have ha : (blocksIn a (fun b => b.logged && !b.durable)).head? = none := h
  simp only [ha]
  rfl

theorem doDurable_some {z : ArcBlock} (h : (blocksIn d (fun b => b.logged && !b.durable)).head? = some z) :
    doDurable t d = arcShow (setDurable (advance d t) z) := by
  unfold doDurable
  extract_lets a
  have ha : (blocksIn a (fun b => b.logged && !b.durable)).head? = some z := h
  simp only [ha]
  rfl

end

end Sys2Proof.Machine

open Sys2Proof Sys2Proof.Machine

/-- Settles O50: clause by clause, from what each of the Archive's commands leaves. -/
theorem archiveKeepsItsStreams : Obligations.ArchiveKeepsItsStreams := by
  unfold Obligations.ArchiveKeepsItsStreams
  intro s t n e v c b u g hn he hc hv hu hs
  extract_lets x up at_ runs cap logged r
  have hframe : Gives (.archiveFrame t) s (doArchiveFrame t s.dev) := gives_of_act (ok := true) (f := doArchiveFrame t) rfl rfl hs
  have htimer : Gives (.blockCloseTimer t n) s (doBlockTimer t n s.dev) := gives_of_act (f := doBlockTimer t n) rfl (decide_eq_true hn) hs
  have hmel (dec poi : Bool) : Gives (.melArchiveBlock t e dec poi) s (doMelArchive t e dec poi s.dev) :=
    gives_of_act (f := doMelArchive t e dec poi) rfl (decide_eq_true he) hs
  have hjournal : Gives (.journalWrite t) s (if arcSt s.dev = 2 then journal (advance s.dev t) false else advance s.dev t) :=
    gives_of_act (ok := true) (f := fun d => let d := advance d t; if arcSt d = 2 then journal d false else d) rfl rfl hs
  have hckpt : Gives (.checkpoint t) s (doCheckpoint t s.dev) := gives_of_act (ok := true) (f := doCheckpoint t) rfl rfl hs
  have hdur : Gives (.blockDurable t) s (doDurable t s.dev) := gives_of_act (ok := true) (f := doDurable t) rfl rfl hs
  have hread (k cw : Nat) (l : List (Nat × Nat)) : Gives (.nandRead t c v g k cw l) s (doNandRead t c g k cw l s.dev) :=
    gives_of_act (f := doNandRead t c g k cw l) rfl (by simp [hc, hv]) hs
  have hprog (p : Nat) (ok : Bool) : Gives (.nandProgramDone t c v u b p ok) s (doNandProgram t c v u b p ok s.dev) :=
    gives_of_act (f := doNandProgram t c v u b p ok) rfl (by simp [hc, hv, hu]) hs
  have herase (ok : Bool) : Gives (.nandEraseDone t c v u b ok) s (doNandErase t c v u b ok s.dev) :=
    gives_of_act (f := doNandErase t c v u b ok) rfl (by simp [hc, hv, hu]) hs
  have hout (fatal : Bool) : Gives (.nandTimeout t c fatal) s (doNandTimeout t c fatal s.dev) :=
    gives_of_act (f := doNandTimeout t c fatal) rfl (decide_eq_true hc) hs
  have hdone : Gives (.retDone t) s (doRetDone t s.dev) := gives_of_act (ok := true) (f := doRetDone t) rfl rfl hs
  have hsnap (hr : Reach s.dev pgArc) : Gives (.snapGo t) s (snapGo (advance s.dev t)) := gives_of_write (ok := true) rfl rfl hr hs
  have hret (hr : Reach s.dev pgArc) : Gives (.retGo t) s (retGo (advance s.dev t)) := gives_of_write (ok := true) rfl rfl hr hs
  have hcancel (hr : Reach s.dev pgArc) : Gives (.retCancel t) s (retCancel (advance s.dev t)) := gives_of_write (ok := true) rfl rfl hr hs
  refine ⟨?_, ?_, ?_, ?_, ?_, ?_, ?_, ?_, ?_, ?_, ?_, ?_, ?_, ?_, ?_, ?_, ?_, ?_, ?_, ?_, ?_, ?_, ?_, ?_, ?_, ?_, ?_, ?_, ?_, ?_, ?_⟩
  · exact fun h => hframe.of_eq (doArchiveFrame_none h)
  · intro i q h hl ho
    refine does_of_gives (hframe.of_eq (doArchiveFrame_joins h)) ?_
    rw [joinBlock_first (d := itemTaken (advance s.dev t) q) ho hl]
    simp only [settle_arc, settle_mem, openOf_settle, openOf_arcShow, arc_arcShow, mem_arcShow]
    exact ⟨rfl, openOf_putOpen _ (openBegun _ i), rfl, rfl⟩
  · intro i q o h ho ha hl
    refine does_of_gives (hframe.of_eq (doArchiveFrame_joins h)) ?_
    rw [joinBlock_more (d := itemTaken (advance s.dev t) q) ho ha hl]
    simp only [settle_arc, settle_mem, openOf_settle, openOf_arcShow, arc_arcShow, mem_arcShow]
    have hp := openOf_putOpen (itemTaken (advance s.dev t) q) (openJoined o i)
    rw [show (openJoined o i).stream = i.stream from (openOf_stream ho : o.stream = i.stream)] at hp
    exact ⟨rfl, hp, rfl, rfl⟩
  · intro i q o h ho hi hst hl hcl hr
    refine does_of_gives (hframe.of_eq (doArchiveFrame_joins h)) ?_
    obtain ⟨f, l, hj⟩ := joinBlock_next (d := itemTaken (advance s.dev t) q) ho hi hst hl hcl hr
    rw [hj]
    simp only [settle_arc, openOf_settle, openOf_arcShow, arc_arcShow]
    exact ⟨openOf_putOpen _ (openBegun _ i), _, rfl, openOf_stream ho, rfl, rfl, rfl⟩
  · exact fun h => htimer.of_eq (doBlockTimer_none h)
  · intro o ho hi hst hr
    refine does_of_gives (htimer.of_eq (doBlockTimer_closes ho)) ?_
    obtain ⟨f, l, hb⟩ := closeBlock_stages (d := advance s.dev (max t (o.at_ + msT 100))) hi hst hr
    rw [hb]
    simp only [settle_arc, settle_ticks, openOf_settle, openOf_arcShow, arc_arcShow, ticks_arcShow]
    refine ⟨le_trans (le_max_right _ _) (le_max_right _ _), ?_, ?_⟩
    · rw [← openOf_stream ho]
      exact openOf_unopened _ o
    · exact List.length_append
  · intro o ho hi hst
    refine does_of_gives (htimer.of_eq (doBlockTimer_closes ho)) ?_
    obtain ⟨f, l, hb⟩ := closeBlock_drops (d := advance s.dev (max t (o.at_ + msT 100))) hi hst
    rw [hb]
    obtain ⟨h1, -, h3, h4, h5⟩ := dropBlock_spec (unopened (advance s.dev (max t (o.at_ + msT 100))) o)
      (closedBlock (advance s.dev (max t (o.at_ + msT 100))) o f l) 2
    generalize dropBlock _ _ 2 = a at h1 h3 h4 h5 ⊢
    simp only [up, settle_arc, settle_ledgerOut, getR_settle, evtRaw_settle, openOf_settle, openOf_arcShow, arc_arcShow, ledgerOut_arcShow]
    refine ⟨?_, by rw [h1]; rfl, ?_, arcShow_mono a h4, h5⟩
    · rw [← openOf_stream ho, openOf, h1]
      exact openOf_unopened _ o
    · exact (getR_arcShow a (by decide)).trans h3
  · exact fun dec poi h => (hmel dec poi).of_eq (doMelArchive_busy dec poi h)
  · intro z q h1 h2 hst hz
    refine does_of_gives ((hmel false true).of_eq (doMelArchive_poisoned h1 h2 hst hz)) ?_
    obtain ⟨g1, -, g3, g4, -⟩ := dropBlock_spec (unstaged (advance s.dev t) q) z 1
    generalize dropBlock _ _ 1 = a at g1 g3 g4 ⊢
    simp only [up, settle_arc, getR_settle, evtRaw_settle, arc_arcShow]
    exact ⟨by rw [g1]; rfl, (getR_arcShow a (by decide)).trans g3, arcShow_mono a g4⟩
  · intro z q geo o h1 h2 hst hz out hg ho hvol hroom
    refine does_of_gives ((hmel false false).of_eq (doMelArchive_encodes h1 h2 hst hz)) ?_
    have ha := encodeNext_places (d := advance s.dev t) e hz hg ho hvol hroom
    simp only [settle_arc, arc_arcShow, seg_settle]
    refine ⟨by rw [ha], ?_⟩
    rw [seg, arc_arcShow, ha]
    exact congrArg ArcSeg.blocks (seg_setSeg_same (advance s.dev t) o _)
  · exact fun q z poi h1 h2 hr hj hcan => (hmel true poi).of_eq (doMelArchive_sends h1 h2 poi hr hj hcan)
  · exact fun h => hjournal.of_eq (if_neg h)
  · intro h
    refine does_of_gives (hjournal.of_eq (if_pos h)) ?_
    simp only [logged, settle_arc, settle_pins, settle_regs, settle_evt]
    exact ⟨allLogged_journalled _, pins_journalled _, rfl, rfl, rfl⟩
  · exact fun h => hckpt.of_eq (if_neg h)
  · intro h
    refine does_of_gives (hckpt.of_eq (if_pos h)) ?_
    rw [journal_true]
    simp only [logged, settle_arc, settle_regs, settle_evt, settle_ticks]
    refine ⟨allLogged_journalled _, rfl, rfl, ?_, rfl, rfl⟩
    rw [Nat.mul_comm]
    exact le_trans (le_max_right _ _) (le_max_right _ _)
  · exact fun h => hdur.of_eq (doDurable_none h)
  · intro z hz hlt
    refine does_of_gives (hdur.of_eq (doDurable_some hz)) ?_
    simp only [up, settle_arc, getR_settle]
    exact durableShown_spec (advance s.dev t) z hlt
  · intro k cw lv bt hlv hbt
    refine does_of_gives ((hread k cw _).of_eq (doNandRead_decodes t c g k cw lv bt s.dev hlv)) ?_
    obtain ⟨h1, h2, h3, h4, h5⟩ := codewordRead_spec (bump (advance s.dev t) (pgNch c) F.NCH_READS) c g
      (min lv (min 16 (getR s.dev pgArc F.ARC_RR_COUNT))) hbt
    generalize codewordRead _ c g _ bt = a at h1 h2 h3 h4 h5 ⊢
    have hb (f : Fld) (hf : fldAt F.NCH_READS ≠ fldAt f) : getR (bump (advance s.dev t) (pgNch c) F.NCH_READS) (pgNch c) f =
        getR s.dev (pgNch c) f := getR_addC_fld (advance s.dev t) (pgNch c) 1 hf
    have hr : getR (bump (advance s.dev t) (pgNch c) F.NCH_READS) (pgNch c) F.NCH_READS =
        (getR s.dev (pgNch c) F.NCH_READS + 1) % 2 ^ 64 := getR_addC_wide (advance s.dev t) (pgNch c) 1 (by decide)
    have hl : getR (bump (advance s.dev t) (pgNch c) F.NCH_READS) pgArc F.ARC_REFRESH_BITS = getR s.dev pgArc F.ARC_REFRESH_BITS :=
      getR_addC_page (advance s.dev t) 1 (pgNch_ne_pgArc c) (by decide) (by decide)
    have hm : Moved noRegs [(pgNch c, F.NCH_READS)] (advance s.dev t) (bump (advance s.dev t) (pgNch c) F.NCH_READS) :=
      .of_addC _ 1 (List.mem_singleton_self _)
    have hsg : seg (bump (advance s.dev t) (pgNch c) F.NCH_READS) g = seg s.dev g := seg_congr (hm.field Dev.arc) g
    have hmem : (bump (advance s.dev t) (pgNch c) F.NCH_READS).mem = s.dev.mem := hm.field Dev.mem
    generalize bump (advance s.dev t) (pgNch c) F.NCH_READS = d at h1 h2 h3 h4 h5 hb hr hl hsg hmem
    have hf : Follows followAt a (arcShow (refreshWant a)) := (Follows.refl a).refreshWant.arcShow
    simp only [up, getR_settle, settle_mem, seg_settle]
    refine ⟨?_, ?_, ?_, fun hlt hvol => ?_, hf.mem.trans (h5.trans hmem)⟩
    · rw [hf.getR_nch c (by decide), h1, hr]
    · rw [hf.getR_nch c (by decide), h2, hb _ (by decide)]
    · rw [hf.getR_nch c (by decide), h3, hb _ (by decide)]
    · rw [seg_congr hf.arc]
      exact h4 (by rw [hl]; exact hlt) (by rw [hsg]; exact hvol)
  · intro k cw bt
    refine does_of_gives ((hread k cw _).of_eq (doNandRead_lost t c g k cw bt s.dev)) ?_
    obtain ⟨h1, h2, h3, h4⟩ := codewordLost_spec (bump (advance s.dev t) (pgNch c) F.NCH_READS) c
      (min 16 (getR s.dev pgArc F.ARC_RR_COUNT)) g k cw (seg s.dev g).blocks[k]?
    generalize codewordLost _ c _ g k cw _ = a at h1 h2 h3 h4 ⊢
    have hb : getR (bump (advance s.dev t) (pgNch c) F.NCH_READS) (pgNch c) F.NCH_UNCORRECTABLE =
        getR s.dev (pgNch c) F.NCH_UNCORRECTABLE := getR_addC_fld (advance s.dev t) (pgNch c) 1 (by decide)
    have hl : getR (bump (advance s.dev t) (pgNch c) F.NCH_READS) pgArc F.ARC_UNREADABLE = getR s.dev pgArc F.ARC_UNREADABLE :=
      getR_addC_page (advance s.dev t) 1 (pgNch_ne_pgArc c) (by decide) (by decide)
    have hsg : seg (bump (advance s.dev t) (pgNch c) F.NCH_READS) g = seg s.dev g := seg_congr (arc_addC _ _ _ _) g
    generalize bump (advance s.dev t) (pgNch c) F.NCH_READS = d at h1 h2 h4 hb hl hsg
    have hf : Follows followAt a (arcShow (refreshWant a)) := (Follows.refl a).refreshWant.arcShow
    simp only [up, getR_settle, evtRaw_settle, seg_settle]
    refine ⟨?_, ?_, hf.bit h3, fun z hz => ?_⟩
    · rw [hf.getR_arc (by decide) (by decide), h1, hl]
    · rw [hf.getR_nch c (by decide), h2, hb]
    · rw [seg_congr hf.arc]
      exact h4 z (by rw [hsg]; exact hz)
  · intro p
    refine does_of_gives ((hprog p true).of_eq (doNandProgram_good t c v u b p s.dev)) ?_
    obtain ⟨h1, -, h3, -, h5, -⟩ := pagesProgrammed_spec (advance s.dev t) c p (p * pageSize s.dev)
    simp only [getR_settle, settle_evt]
    exact ⟨h1, h5, fun geo hg => by rw [← pageSize_some hg]; exact h3⟩
  · intro p hlen hnew
    refine does_of_gives ((hprog p false).of_eq (doNandProgram_bad t c v u b p s.dev)) ?_
    obtain ⟨-, h2, -, h4, h5, h6⟩ := pagesProgrammed_spec (advance s.dev t) c p (p * pageSize s.dev)
    generalize pagesProgrammed (advance s.dev t) c p (p * pageSize s.dev) = a at h2 h4 h5 h6 ⊢
    have hc1 : getR (programFailed a c) (pgNch c) F.NCH_PROG_FAILS = min (getR a (pgNch c) F.NCH_PROG_FAILS + 1) (2 ^ 32 - 1) :=
      getR_addC_narrow a (pgNch c) 1 (by decide)
    have hc2 : getR (programFailed a c) pgArc F.ARC_GROWN_BAD = getR a pgArc F.ARC_GROWN_BAD :=
      getR_addC_page a 1 (pgNch_ne_pgArc c) (by decide) (by decide)
    have hc3 : (evtRaw (programFailed a c) (pgNch c)).testBit 8 = true := raise_bit _ _ 8
    have hm : Moved noRegs [(pgNch c, F.NCH_PROG_FAILS)] a (bump a (pgNch c) F.NCH_PROG_FAILS) := .of_addC a 1 (List.mem_singleton_self _)
    have hc4 : (programFailed a c).almBad = s.dev.almBad := (hm.field Dev.almBad).trans h6
    generalize programFailed a c = f at hc1 hc2 hc3 hc4 ⊢
    obtain ⟨g1, g2, g3, g4, g5⟩ := growBad_spec (d := f) 0 (by rw [hc4]; exact hlen) (by rw [hc4]; exact hnew)
    simp only [up, getR_settle, evtRaw_settle, settle_almBad]
    refine ⟨?_, g4 _ _ hc3, ?_, g2, by rw [g3, hc4]⟩
    · rw [g5 c _ (by decide), hc1, h2]
      rfl
    · rw [g1, hc2, h4]
      rfl
  · exact (herase true).of_eq (doNandErase_good t c v u b s.dev)
  · intro hlen hnew
    refine does_of_gives ((herase false).of_eq (doNandErase_bad t c v u b s.dev)) ?_
    obtain ⟨h1, h2, h3, h4, h5⟩ := eraseFailed_spec (advance s.dev t) c
    generalize eraseFailed (advance s.dev t) c = f at h1 h2 h3 h4 h5 ⊢
    have hal : f.almBad = s.dev.almBad := h5
    obtain ⟨g1, g2, g3, g4, g5⟩ := growBad_spec (d := f) 1 (by rw [hal]; exact hlen) (by rw [hal]; exact hnew)
    simp only [up, getR_settle, evtRaw_settle, settle_almBad]
    refine ⟨?_, ?_, g4 _ _ h3, ?_, g2, by rw [g3, hal]⟩
    · rw [g5 c _ (by decide), h1]
      rfl
    · rw [g5 c _ (by decide), h2]
      rfl
    · rw [g1, h4]
      rfl
  · intro fatal
    refine does_of_gives (hout fatal) ?_
    obtain ⟨h1, h2, h3, h4⟩ := doNandTimeout_spec t c fatal s.dev
    simp only [up, getR_settle, evtRaw_settle, settle_arc]
    exact ⟨h1, h2, h3, h4⟩
  · exact fun hr h => (hsnap hr).of_eq (snapGo_none h)
  · intro hr h hp
    exact (hsnap hr).of_eq (snapGo_takes (d := advance s.dev t) rfl rfl h hp)
  · exact fun hr h => (hret hr).of_eq (retGo_full h)
  · intro hr hl hst hj
    refine does_of_gives (hret hr) ?_
    obtain ⟨h1, h2⟩ := retGo_spec (d := advance s.dev t) hl hst hj
    simp only [getR_settle, settle_arc]
    exact ⟨h1, _, h2, rfl, rfl, rfl, rfl, rfl, rfl⟩
  · exact fun hr => hcancel hr
  · exact fun h => hdone.of_eq (doRetDone_idle h)
  · intro q z hr hj hcan
    refine does_of_gives hdone ?_
    simp only [getR_settle, evtRaw_settle, settle_arc, settle_rings]
    exact doRetDone_spec hr hj hcan
end

section
set_option Elab.async false
/-! PROOFS. The Archive's pins (R370): requests, ends, copies and UNPIN. -/

namespace Sys2Proof.Machine

open Sys2Proof

/-! ### Requests -/

/-- The number of held segments is computed. -/
theorem held_arcShow (d : Dev) : getR (arcShow d) pgArc F.ARC_HELD_SEGS = heldSegs d % 65536 := by
  unfold arcShow
  extract_lets p us es e1 e2 e3 e4 e5 e6 back was now e7
  have hh : heldSegs e1 = heldSegs d := rfl
  have h2 : getR e2 pgArc F.ARC_HELD_SEGS = heldSegs d % 65536 := by
    rw [← hh]
    exact (getR_setR_fld (setR e1 pgArc F.ARC_HELD_SEGS (heldSegs e1)) pgArc _ (by decide)).trans (getR_setR_self ..)
  clear_value e2
  have h3 : getR e3 pgArc F.ARC_HELD_SEGS = heldSegs d % 65536 := (getR_setR_fld e2 pgArc _ (by decide)).trans h2
  clear_value e3
  have h4 : getR e4 pgArc F.ARC_HELD_SEGS = heldSegs d % 65536 := (getR_setR_fld e3 pgArc _ (by decide)).trans h3
  clear_value e4
  have h5 : getR e5 pgArc F.ARC_HELD_SEGS = heldSegs d % 65536 := (getR_setR_fld e4 pgArc _ (by decide)).trans h4
  clear_value e5
  have h6 : getR e6 pgArc F.ARC_HELD_SEGS = heldSegs d % 65536 := (getR_setR_fld e5 pgArc _ (by decide)).trans h5
  clear_value e6
  have h7 : getR e7 pgArc F.ARC_HELD_SEGS = heldSegs d % 65536 :=
    (getR_setR_fld _ pgArc _ (by decide)).trans ((getR_setR_fld e6 pgArc _ (by decide)).trans h6)
  clear_value e7
  unfold raiseOn
  split
  · exact h7
  · exact h7

/-- The oldest request has been taken up. -/
def askTaken (d : Dev) (q : List PinAsk) : Dev := arcShow { d with pinAsk := q }

/-- The pin that request `a` gets. -/
def pinGranted (d : Dev) (a : PinAsk) : PinSt :=
  { id := getR d pgArc F.ARC_NEXT_PIN, line := a.line, seq := a.seq, kt := a.kt, from_ := a.from_, end_ := pinEndOf d a, closed := false,
    copied := false, logged := false }

section
variable {d : Dev} {t : Nat} {a : PinAsk} {q : List PinAsk}

theorem doPinRequest_none (h : d.pinAsk = []) : doPinRequest t d = advance d t := by
  unfold doPinRequest
  extract_lets e
  have he : e.pinAsk = [] := h
  simp only [he]
  rfl

theorem doPinRequest_some (h : d.pinAsk = a :: q) : doPinRequest t d =
    if arcSt (askTaken (advance d t) q) ≠ 2 ∨ pinsFull (askTaken (advance d t) q) then
      bump (pinTell (askTaken (advance d t) q) a none) pgArc F.ARC_PINS_REFUSED
    else
      arcShow (pinTell { setR (askTaken (advance d t) q) pgArc F.ARC_NEXT_PIN
        (if getR (askTaken (advance d t) q) pgArc F.ARC_NEXT_PIN + 1 = 2 ^ 32 then 1
          else getR (askTaken (advance d t) q) pgArc F.ARC_NEXT_PIN + 1) with
        pins := (askTaken (advance d t) q).pins ++ [pinGranted (askTaken (advance d t) q) a] } a
        (some (getR (askTaken (advance d t) q) pgArc F.ARC_NEXT_PIN))) := by
  unfold doPinRequest
  extract_lets e
  have he : e.pinAsk = a :: q := h
  simp only [he]
  rfl

/-- What a request taken up leaves. -/
theorem askTaken_spec (d : Dev) (q : List PinAsk) : (askTaken d q).pinAsk = q ∧ (askTaken d q).pins = d.pins ∧
    arcSt (askTaken d q) = arcSt d ∧ getR (askTaken d q) pgArc F.ARC_NEXT_PIN = getR d pgArc F.ARC_NEXT_PIN ∧
    getR (askTaken d q) pgArc F.ARC_PINS_REFUSED = getR d pgArc F.ARC_PINS_REFUSED ∧
    getR (askTaken d q) pgArc F.ARC_PIN_HOLD_MAX = getR d pgArc F.ARC_PIN_HOLD_MAX ∧
    getR (askTaken d q) pgArc F.ARC_HELD_SEGS = heldSegs d % 65536 := by
  unfold askTaken
  refine ⟨pinAsk_arcShow _, pins_arcShow _, arcSt_arcShow _, getR_arcShow _ (by decide), getR_arcShow _ (by decide),
    getR_arcShow _ (by decide), held_arcShow _⟩

theorem pinsFull_askTaken {d : Dev} (h1 : openPins d < 256) (h2 : heldSegs d % 65536 + 1 ≤ getR d pgArc F.ARC_PIN_HOLD_MAX) :
    pinsFull (askTaken d q) = false := by
  obtain ⟨-, hp, -, -, -, hm, hh⟩ := askTaken_spec d q
  have ho : openPins (askTaken d q) = openPins d := by rw [openPins, openPins, hp]
  rw [pinsFull, ho, hm, hh]
  simp only [Bool.or_eq_false_iff, decide_eq_false_iff_not]
  omega

/-- A refusal. -/
theorem doPinRequest_refuses (h : d.pinAsk = a :: q) (hs : arcSt d ≠ 2) : (doPinRequest t d).pinAsk = q ∧ (doPinRequest t d).pins = d.pins ∧
    getR (doPinRequest t d) pgArc F.ARC_PINS_REFUSED = min (getR d pgArc F.ARC_PINS_REFUSED + 1) (2 ^ 32 - 1) ∧
    getR (doPinRequest t d) pgArc F.ARC_NEXT_PIN = getR d pgArc F.ARC_NEXT_PIN := by
  rw [doPinRequest_some h]
  obtain ⟨h1, h2, h3, h4, h5, -, -⟩ := askTaken_spec (advance d t) q
  generalize askTaken (advance d t) q = e at h1 h2 h3 h4 h5
  rw [if_pos (.inl (by rw [h3]; exact hs))]
  have hm : Moved noRegs [(pgArc, F.ARC_PINS_REFUSED)] (pinTell e a none) (bump (pinTell e a none) pgArc F.ARC_PINS_REFUSED) :=
    .of_addC _ 1 (List.mem_singleton_self _)
  refine ⟨(hm.field Dev.pinAsk).trans h1, (hm.field Dev.pins).trans h2, ?_, ?_⟩
  · refine (getR_addC_narrow (pinTell e a none) pgArc 1 (by decide)).trans (congrArg (fun v => min (v + 1) (2 ^ 32 - 1)) h5)
  · exact (getR_addC_fld (pinTell e a none) pgArc 1 (by decide)).trans h4

theorem nextPin_lt {n : Nat} (h : n < 2 ^ 32) : (if n + 1 = 2 ^ 32 then 1 else n + 1) < 2 ^ 32 := by
  split <;> omega

/-- A grant. -/
theorem doPinRequest_grants (h : d.pinAsk = a :: q) (hs : arcSt d = 2) (h1 : openPins d < 256)
    (h2 : heldSegs d % 65536 + 1 ≤ getR d pgArc F.ARC_PIN_HOLD_MAX) (hid : getR d pgArc F.ARC_NEXT_PIN < 2 ^ 32) :
    (doPinRequest t d).pinAsk = q ∧ getR (doPinRequest t d) pgArc F.ARC_NEXT_PIN =
      (if getR d pgArc F.ARC_NEXT_PIN + 1 = 2 ^ 32 then 1 else getR d pgArc F.ARC_NEXT_PIN + 1) ∧
    ∃ p, (doPinRequest t d).pins = d.pins ++ [p] ∧ p.id = getR d pgArc F.ARC_NEXT_PIN ∧ p.line = a.line ∧ p.from_ = a.from_ ∧
      p.closed = false ∧ p.copied = false := by
  rw [doPinRequest_some h]
  have hfull : pinsFull (askTaken (advance d t) q) = false := pinsFull_askTaken (d := advance d t) h1 h2
  obtain ⟨g1, g2, g3, g4, -, -, -⟩ := askTaken_spec (advance d t) q
  generalize askTaken (advance d t) q = e at g1 g2 g3 g4 hfull
  have hd : getR (advance d t) pgArc F.ARC_NEXT_PIN = getR d pgArc F.ARC_NEXT_PIN := rfl
  rw [hd] at g4
  have hs' : arcSt (advance d t) = 2 := hs
  rw [if_neg (by rw [hfull, g3, hs']; simp), g4]
  refine ⟨(pinAsk_arcShow _).trans g1, ?_, _, (pins_arcShow _).trans (congrArg (· ++ [pinGranted e a]) g2), g4, rfl, rfl, rfl, rfl⟩
  refine (getR_arcShow _ (by decide)).trans ((getR_setR_self e pgArc F.ARC_NEXT_PIN _).trans (Nat.mod_eq_of_lt (nextPin_lt hid)))

end

/-! ### Ends of windows (R370) -/

/-- The pins with those like `p` closed. -/
def pinShut (d : Dev) (p : PinSt) : Dev := { d with pins := d.pins.map (fun q => if q.id = p.id then { q with closed := true } else q) }

section
variable {d : Dev} {t : Nat}

theorem doPinClose_none (h : d.pins.find? (fun p => p.end_.isSome && !p.closed) = none) : doPinClose t d = advance d t := by
  unfold doPinClose
  simp only [h]

theorem doPinClose_some {p : PinSt} {e : Int} (h : d.pins.find? (fun p => p.end_.isSome && !p.closed) = some p) (he : p.end_ = some e) :
    doPinClose t d = arcShow (pinCopyWant (pinShut (advance d (max t (d.ticks + ticksUntil d e))) p)) := by
  unfold doPinClose
  simp only [h, he]
  rfl

theorem Follows.tai {l : List Nat} {a b : Dev} (h : Follows l a b) : tai b = tai a := tai_congr (h.field Dev.time) h.ticks

/-- What a pin that closes leaves. -/
theorem doPinClose_spec {p : PinSt} {e : Int} (h : d.pins.find? (fun p => p.end_.isSome && !p.closed) = some p) (he : p.end_ = some e) :
    e ≤ Machine.tai (doPinClose t d) ∧
    (doPinClose t d).pins = d.pins.map (fun q => if q.id = p.id then { q with closed := true } else q) ∧ (doPinClose t d).arc = d.arc := by
  rw [doPinClose_some h he]
  have hle := le_tai_ticksUntil d t e
  generalize hx : pinShut (advance d (max t (d.ticks + ticksUntil d e))) p = x
  have hp : x.pins = d.pins.map (fun q => if q.id = p.id then { q with closed := true } else q) := by rw [← hx]; rfl
  have ha : x.arc = d.arc := by rw [← hx]; rfl
  have ht : Machine.tai x = Machine.tai (advance d (max t (d.ticks + ticksUntil d e))) := by rw [← hx]; rfl
  have hf : Follows followAt x (arcShow (pinCopyWant x)) := (Follows.refl x).pinCopyWant.arcShow
  exact ⟨by rw [hf.tai, ht]; exact hle, hf.pins.trans hp, hf.arc.trans ha⟩

end

/-! ### Copies (R369, R370) -/

/-- The first closed pin that has no copy. -/
def toCopy (d : Dev) : Option PinSt := d.pins.find? (fun p => p.closed && !p.copied)

/-- The stored blocks of a pin's window. -/
def windowBlocks (d : Dev) (p : PinSt) : List ArcBlock := blocksIn d (fun b => b.pin == 0 && inWindow p b)

section
variable {d : Dev} {t : Nat}

theorem doPinCopyDone_idle (h : toCopy d = none ∨ jobBegun d ownPin = false) : doPinCopyDone t d = advance d t := by
  unfold doPinCopyDone
  extract_lets e
  cases hc : toCopy d with
  | none =>
    have he : e.pins.find? (fun p => p.closed && !p.copied) = none := hc
    simp only [he]
    rfl
  | some p =>
    have he : e.pins.find? (fun p => p.closed && !p.copied) = some p := hc
    have hj : jobBegun e ownPin = false := h.resolve_left (by rw [hc]; exact Option.some_ne_none p)
    simp only [he, hj]
    exact if_pos (.inl rfl)

/-- The pins with those like `p` copied. -/
def pinCopied (d : Dev) (p : PinSt) : Dev := { d with pins := d.pins.map (fun q => if q.id = p.id then { q with copied := true } else q) }

/-- An empty window is copied at once. -/
theorem doPinCopyDone_empty {p : PinSt} (h : toCopy d = some p) (hj : jobBegun d ownPin = true) (hs : arcSt d = 2)
    (hb : windowBlocks d p = []) : doPinCopyDone t d = arcShow (arcCheck (pinCopyWant (freeJob (pinCopied (advance d t) p) ownPin))) := by
  unfold doPinCopyDone
  extract_lets e
  have he : e.pins.find? (fun p => p.closed && !p.copied) = some p := h
  have hj' : jobBegun e ownPin = true := hj
  have hs' : arcSt e = 2 := hs
  have hb' : blocksIn e (fun b => b.pin == 0 && inWindow p b) = [] := hb
  simp only [he, hj', hs', hb', copyPin]
  exact if_neg (by decide)

/-- A copy for which EVENTS has no room breaks the pin. -/
theorem doPinCopyDone_breaks {p : PinSt} {b : ArcBlock} {q : List ArcBlock} (h : toCopy d = some p) (hj : jobBegun d ownPin = true)
    (hs : arcSt d = 2) (hk : flagR d pgArc F.ARC_EVT_KEEP = true) (hb : windowBlocks d p = b :: q)
    (hf : eventsFull d b.data.length = true) :
    doPinCopyDone t d = arcShow (arcCheck (pinCopyWant (freeJob (breakPin (dropCopy (advance d t) p.id) p) ownPin))) := by
  unfold doPinCopyDone
  extract_lets e
  have he : e.pins.find? (fun p => p.closed && !p.copied) = some p := h
  have hj' : jobBegun e ownPin = true := hj
  have hs' : arcSt e = 2 := hs
  have hb' : blocksIn e (fun b => b.pin == 0 && inWindow p b) = b :: q := hb
  have hk' : flagR e pgArc F.ARC_EVT_KEEP = true := hk
  have hf' : eventsFull e b.data.length = true := hf
  simp only [he, hj', hs', hb', copyPin, hk', hf']
  exact if_neg (by decide)

/-- From `d` to `e` the Archive alone changes, outside its registers. -/
def ArcOnly (d e : Dev) : Prop := { e with arc := d.arc } = d

theorem ArcOnly.refl (d : Dev) : ArcOnly d d := rfl

theorem ArcOnly.trans (a b c : Dev) (h : ArcOnly a b) (g : ArcOnly b c) : ArcOnly a c := by
  unfold ArcOnly at *
  rw [← h, ← g]

theorem ArcOnly.keeps {α : Type} {d e : Dev} (h : ArcOnly d e) (f : Dev → α) (hf : ∀ (d : Dev) (a : ArcSt), f { d with arc := a } = f d := by intro _ _; rfl) :
    f e = f d := (hf e d.arc).symm.trans (congrArg f h)

theorem dropCopy_only (d : Dev) (i : Nat) : ArcOnly d (dropCopy d i) := by
  refine foldl_rel ArcOnly.refl ArcOnly.trans (fun a e _ => ?_) d
  extract_lets bs
  split
  · split <;> exact rfl
  · exact ArcOnly.refl a

/-- What a pin that is broken leaves. -/
theorem breakPin_spec (d : Dev) (p : PinSt) : (breakPin d p).pins = d.pins.filter (fun q => q.id != p.id) ∧
    getR (breakPin d p) pgArc F.ARC_PINS_BROKEN = min (getR d pgArc F.ARC_PINS_BROKEN + 1) (2 ^ 32 - 1) ∧
    (evtRaw (breakPin d p) pgArc).testBit 13 = true ∧ (∃ z ∈ (breakPin d p).ledgerOut, z.kind = 0x0162 ∧ z.line = p.line) ∧
    arcSt (breakPin d p) = arcSt d ∧ (breakPin d p).arc = d.arc := by
  unfold breakPin
  extract_lets e1 e2
  have hp : e2.pins = d.pins.filter (fun q => q.id != p.id) := rfl
  have hr (f : Fld) : getR e2 pgArc f = getR d pgArc f := rfl
  have hz : ∃ z ∈ e2.ledgerOut, z.kind = 0x0162 ∧ z.line = p.line :=
    ⟨_, List.mem_append_right _ (List.mem_singleton_self _), rfl, rfl⟩
  have ha : e2.arc = d.arc := rfl
  clear_value e2
  have hm : Moved noRegs [(pgArc, F.ARC_PINS_BROKEN)] e2 (bump e2 pgArc F.ARC_PINS_BROKEN) := .of_addC e2 1 (List.mem_singleton_self _)
  refine ⟨(hm.field Dev.pins).trans hp, ?_, raise_bit _ _ 13, ?_, ?_, (hm.field Dev.arc).trans ha⟩
  · rw [← hr]
    exact getR_addC_narrow e2 pgArc 1 (by decide)
  · obtain ⟨z, hz, hk⟩ := hz
    refine ⟨z, ?_, hk⟩
    rw [show (raise (bump e2 pgArc F.ARC_PINS_BROKEN) pgArc 13).ledgerOut = e2.ledgerOut from hm.field Dev.ledgerOut]
    exact hz
  · exact (getR_addC_fld e2 pgArc 1 (by decide)).trans (hr _)

end

/-! ### UNPIN (R370) -/

/-- What UNPIN leaves. -/
theorem unpin_spec (d : Dev) (i : Nat) : (unpin d i).pins = d.pins.filter (fun q => q.id != i) ∧
    ((∀ p ∈ d.pins, p.id = i → p.copied = false) → (unpin d i).arc = d.arc) ∧ (unpin d i).mem = d.mem := by
  unfold unpin
  split
  · next h =>
    rw [List.find?_eq_none] at h
    refine ⟨(List.filter_eq_self.2 fun q hq => ?_).symm, fun _ => rfl, rfl⟩
    simpa using h q hq
  · next p h =>
    have hmem : p ∈ d.pins := List.mem_of_find?_eq_some h
    have hid : p.id = i := by simpa using List.find?_some h
    extract_lets e1 e2
    have h2 : ArcOnly e1 e2 := by
      unfold e2
      split
      · exact dropCopy_only e1 i
      · exact ArcOnly.refl e1
    have h2a : p.copied = false → e2.arc = d.arc := fun hc => by
      have he : e2 = e1 := if_neg (by rw [hc]; exact Bool.false_ne_true)
      rw [he]
    have hp : e2.pins = d.pins.filter (fun q => q.id != i) := h2.keeps Dev.pins
    have hm : e2.mem = d.mem := h2.keeps Dev.mem
    clear_value e2
    have hf : Follows followAt e2 (arcShow (if (e2.pins.any (fun q => q.closed && !q.copied)) = true then e2 else freeJob e2 ownPin)) :=
      (Follows.ite (.refl e2) ((Follows.refl e2).freeJob ownPin)).arcShow
    exact ⟨hf.pins.trans hp, fun h => hf.arc.trans (h2a (h p hmem hid)), hf.mem.trans hm⟩

end Sys2Proof.Machine
end

section
set_option Elab.async false
/-! PROOFS. The Archive's wear moves, refreshes, ageing and budget (R371, R374, R375, R379). -/

namespace Sys2Proof.Machine

open Sys2Proof

/-! ### The least of a list -/

/-- The element that comes before all others is the one that a scan keeps. -/
theorem foldl_least {R : Nat → Nat → Prop} [DecidableRel R] {a : Nat} (r : List Nat) (s : Nat) (ha : a = s ∨ a ∈ r)
    (hs : s ≠ a → R a s ∧ ¬R s a) (hr : ∀ k ∈ r, k ≠ a → R a k ∧ ¬R k a) : r.foldl (fun m k => if R k m then k else m) s = a := by
  induction r generalizing s with
  | nil =>
    obtain h | h := ha
    · exact h.symm
    · exact absurd h List.not_mem_nil
  | cons k r ih =>
    rw [List.foldl_cons]
    have hr' : ∀ k ∈ r, k ≠ a → R a k ∧ ¬R k a := fun j hj => hr j (List.mem_cons_of_mem k hj)
    have hk := hr k List.mem_cons_self
    by_cases hka : k = a
    · subst hka
      by_cases hsk : s = k
      · subst hsk
        rw [show (if R s s then s else s) = s from ite_self s]
        exact ih s (.inl rfl) (fun h => absurd rfl h) hr'
      · rw [if_pos (hs hsk).1]
        exact ih k (.inl rfl) (fun h => absurd rfl h) hr'
    · by_cases hsa : s = a
      · subst hsa
        rw [if_neg (hk hka).2]
        exact ih s (.inl rfl) (fun h => absurd rfl h) hr'
      · have hin : a ∈ r := by
          obtain h | h := ha
          · exact absurd h.symm hsa
          · exact (List.mem_cons.1 h).resolve_left (fun h => hka h.symm)
        by_cases hc : R k s
        · rw [if_pos hc]
          exact ih k (.inr hin) (fun _ => hk hka) hr'
        · rw [if_neg hc]
          exact ih s (.inr hin) hs hr'

/-- The same of a list that may be empty. -/
def scanned (R : Nat → Nat → Prop) [DecidableRel R] : List Nat → Option Nat
  | [] => none
  | s :: r => some (r.foldl (fun m k => if R k m then k else m) s)

theorem scanned_least {R : Nat → Nat → Prop} [DecidableRel R] {a : Nat} {l : List Nat} (ha : a ∈ l)
    (hl : ∀ k ∈ l, k ≠ a → R a k ∧ ¬R k a) : scanned R l = some a := by
  cases l with
  | nil => exact absurd ha List.not_mem_nil
  | cons s r => exact congrArg some (foldl_least r s (List.mem_cons.1 ha) (hl s List.mem_cons_self)
      fun k hk => hl k (List.mem_cons_of_mem s hk))

/-- The segments in use. -/
def usedSegs (d : Dev) : List Nat := (segsUsed d).filter (fun s => (seg d s).vol != 0)

/-- The segment in use with the lowest erase count. -/
def leastWorn (d : Dev) : Option Nat := scanned (fun k m => (seg d k).erases < (seg d m).erases) (usedSegs d)

theorem hottest_eq (d : Dev) : hottest d = scanned (fun k m => (seg d m).erases < (seg d k).erases) (freeSegs d) := by
  unfold hottest scanned
  cases freeSegs d <;> rfl

section
variable {d : Dev} {t a b : Nat}

theorem leastWorn_some (ha : a ∈ segsUsed d) (hu : (seg d a).vol ≠ 0)
    (h : ∀ k ∈ segsUsed d, (seg d k).vol ≠ 0 → k ≠ a → (seg d a).erases < (seg d k).erases) : leastWorn d = some a := by
  refine scanned_least (List.mem_filter.2 ⟨ha, by simpa using hu⟩) fun k hk hne => ?_
  obtain ⟨hk, hv⟩ := List.mem_filter.1 hk
  have hlt := h k hk (by simpa using hv) hne
  exact ⟨hlt, Nat.lt_asymm hlt⟩

theorem hottest_some (hb : b ∈ segsUsed d) (hf : (seg d b).vol = 0)
    (h : ∀ k ∈ segsUsed d, (seg d k).vol = 0 → k ≠ b → (seg d k).erases < (seg d b).erases) : hottest d = some b := by
  rw [hottest_eq]
  refine scanned_least (List.mem_filter.2 ⟨hb, by simpa using hf⟩) fun k hk hne => ?_
  obtain ⟨hk, hv⟩ := List.mem_filter.1 hk
  have hlt := h k hk (by simpa using hv) hne
  exact ⟨hlt, Nat.lt_asymm hlt⟩

end

/-! ### A move of a segment's data (R371, R375) -/

/-- The data of segment `a` has moved to the FREE segment `b`. -/
def SegMoved (d : Dev) (a b : Nat) (e : Dev) : Prop :=
  (seg e a).vol = 0 ∧ (seg e b).vol = (seg d a).vol ∧ (seg e b).blocks = (seg d a).blocks ∧
  (seg e b).erases = (seg d b).erases + b2n (seg d b).dirty ∧ ∀ k, k ≠ a → k ≠ b → seg e k = seg d k

theorem moveSeg_moved {d : Dev} {a b : Nat} (h : a ≠ b) : SegMoved d a b (moveSeg d a b) := by
  unfold moveSeg
  extract_lets x y e1 o src e2
  have h1b : seg e1 b = { x with erases := y.erases + b2n y.dirty, dirty := true, age := 0, due := none } := seg_setSeg_same d b _
  have h1 (k : Nat) (hk : k ≠ b) : seg e1 k = seg d k := seg_setSeg_ne d _ (Ne.symm hk)
  clear_value e1
  have h2 (k : Nat) : seg e2 k = seg e1 k := by
    unfold e2
    split <;> rfl
  clear_value e2
  have h3 (k : Nat) (hk : k ≠ a) : seg (freeSeg e2 a) k = seg e1 k := (seg_setSeg_ne e2 _ (Ne.symm hk)).trans (h2 k)
  refine ⟨?_, ?_, ?_, ?_, fun k ha hb => (h3 k ha).trans (h1 k hb)⟩
  · rw [show seg (freeSeg e2 a) a = _ from seg_setSeg_same e2 a _]
    rfl
  · rw [h3 b (Ne.symm h), h1b]
  · rw [h3 b (Ne.symm h), h1b]
  · rw [h3 b (Ne.symm h), h1b]

theorem SegMoved.of_arc {d e : Dev} {a b : Nat} (h : SegMoved d a b e) {d' e' : Dev} (hd : d'.arc = d.arc) (he : e'.arc = e.arc) :
    SegMoved d' a b e' := by
  obtain ⟨h1, h2, h3, h4, h5⟩ := h
  refine ⟨?_, ?_, ?_, ?_, fun k ha hb => ?_⟩
  · rw [seg_congr he, h1]
  · rw [seg_congr he, seg_congr hd, h2]
  · rw [seg_congr he, seg_congr hd, h3]
  · rw [seg_congr he, seg_congr hd, h4]
  · rw [seg_congr he, seg_congr hd, h5 k ha hb]

/-- A move changes no register, event or entry. -/
theorem moveSeg_frame (d : Dev) (a b : Nat) : (moveSeg d a b).regs = d.regs ∧ (moveSeg d a b).ledgerOut = d.ledgerOut := by
  unfold moveSeg
  extract_lets x y e1 o src e2
  have h1 : e1.regs = d.regs ∧ e1.ledgerOut = d.ledgerOut := ⟨rfl, rfl⟩
  clear_value e1
  have h2 : e2.regs = e1.regs ∧ e2.ledgerOut = e1.ledgerOut := by
    unfold e2
    split <;> exact ⟨rfl, rfl⟩
  clear_value e2
  exact ⟨h2.1.trans h1.1, h2.2.trans h1.2⟩

/-! ### Wear moves (R371) -/

section
variable {d : Dev} {t a b : Nat}

/-- What the freeing of a job leaves to the Archive. -/
theorem freeJob_frame (d : Dev) (o : Nat) : noJobs (freeJob d o) = noJobs d := (freeJob_within d o).frame

theorem hottest_freeJob (d : Dev) (o : Nat) : hottest (freeJob d o) = hottest d :=
  (congrArg hottest (freeJob_frame d o) : hottest (noJobs (freeJob d o)) = hottest (noJobs d))

theorem coldest_freeJob (d : Dev) (o : Nat) : coldest (freeJob d o) = coldest d :=
  (congrArg coldest (freeJob_frame d o) : coldest (noJobs (freeJob d o)) = coldest (noJobs d))

theorem nextDue_freeJob (d : Dev) (o : Nat) : nextDue (freeJob d o) = nextDue d :=
  (congrArg nextDue (freeJob_frame d o) : nextDue (noJobs (freeJob d o)) = nextDue (noJobs d))

theorem reclaimable_freeJob (d : Dev) (o : Nat) : reclaimable (freeJob d o) (holding (freeJob d o)) = reclaimable d (holding d) :=
  (congrArg (fun d => reclaimable d (holding d)) (freeJob_frame d o) :
    reclaimable (noJobs (freeJob d o)) (holding (noJobs (freeJob d o))) = reclaimable (noJobs d) (holding (noJobs d)))

theorem doWearMove_idle (h : jobBegun d ownWear = false ∨ arcSt d ≠ 2) : doWearMove t d = advance d t := by
  unfold doWearMove
  extract_lets e
  have h' : jobBegun e ownWear = false ∨ arcSt e ≠ 2 := h
  exact if_pos (by simpa using h')

theorem doWearMove_moves (hj : jobBegun d ownWear = true) (hs : arcSt d = 2) (ha : leastWorn d = some a) (hb : hottest d = some b) :
    doWearMove t d = arcShow (arcCheck (wearWant (bump (moveSeg (freeJob (advance d t) ownWear) a b) pgArc F.ARC_WEAR_MOVES))) := by
  unfold doWearMove
  extract_lets e used src e1
  have hsrc : src = some a := by
    rw [← ha]
    unfold src leastWorn scanned
    rfl
  have hhot : hottest e1 = some b := (hottest_freeJob e ownWear).trans hb
  have hj' : jobBegun e ownWear = true := hj
  have hs' : arcSt e = 2 := hs
  rw [if_neg (by simp [hj', hs']), hsrc, hhot]

/-- What a wear move leaves. -/
theorem doWearMove_spec (hj : jobBegun d ownWear = true) (hs : arcSt d = 2) (ha : leastWorn d = some a) (hb : hottest d = some b)
    (hne : a ≠ b) : SegMoved d a b (doWearMove t d) ∧
    getR (doWearMove t d) pgArc F.ARC_WEAR_MOVES = min (getR d pgArc F.ARC_WEAR_MOVES + 1) (2 ^ 32 - 1) := by
  rw [doWearMove_moves hj hs ha hb]
  have h1 : Follows [] (advance d t) (freeJob (advance d t) ownWear) := (Follows.refl _).freeJob _
  have hm := moveSeg_moved (d := freeJob (advance d t) ownWear) hne
  have hr := (moveSeg_frame (freeJob (advance d t) ownWear) a b).1
  have h2 : getR (moveSeg (freeJob (advance d t) ownWear) a b) pgArc F.ARC_WEAR_MOVES = getR d pgArc F.ARC_WEAR_MOVES :=
    (getR_congr hr _ _).trans (h1.getR_arc (by decide) (by decide))
  generalize moveSeg (freeJob (advance d t) ownWear) a b = e at hm h2
  have h3 : getR (bump e pgArc F.ARC_WEAR_MOVES) pgArc F.ARC_WEAR_MOVES = min (getR d pgArc F.ARC_WEAR_MOVES + 1) (2 ^ 32 - 1) := by
    rw [← h2]
    exact getR_addC_narrow e pgArc 1 (by decide)
  have h3a : (bump e pgArc F.ARC_WEAR_MOVES).arc = e.arc := arc_addC e pgArc F.ARC_WEAR_MOVES 1
  generalize bump e pgArc F.ARC_WEAR_MOVES = x at h3 h3a
  have hf : Follows followAt x (arcShow (arcCheck (wearWant x))) := (Follows.refl x).wearWant.arcCheck.arcShow
  exact ⟨hm.of_arc h1.arc.symm (hf.arc.trans h3a), (hf.getR_arc (by decide) (by decide)).trans h3⟩

end

/-! ### Refreshes (R375) -/

theorem foldl_mem {R : Nat → Nat → Prop} [DecidableRel R] (r : List Nat) (s : Nat) : r.foldl (fun m k => if R k m then k else m) s ∈ s :: r := by
  induction r generalizing s with
  | nil => exact List.mem_singleton_self s
  | cons k r ih =>
    rw [List.foldl_cons]
    have h := ih (if R k s then k else s)
    by_cases hc : R k s
    · rw [if_pos hc] at h ⊢
      exact List.mem_cons_of_mem s h
    · rw [if_neg hc] at h ⊢
      obtain h | h := List.mem_cons.1 h
      · rw [h]
        exact List.mem_cons_self
      · exact List.mem_cons_of_mem s (List.mem_cons_of_mem k h)

/-- The coldest FREE segment is FREE. -/
theorem vol_coldest {d : Dev} {b : Nat} (h : coldest d = some b) : (seg d b).vol = 0 := by
  have hb : b ∈ freeSegs d := by
    unfold coldest at h
    cases hl : freeSegs d with
    | nil =>
      rw [hl] at h
      exact absurd h (Option.some_ne_none b).symm
    | cons s r =>
      rw [hl] at h
      rw [← Option.some.inj h]
      exact foldl_mem (R := fun k m => (seg d k).erases < (seg d m).erases) r s
  simpa using (List.mem_filter.1 hb).2

section
variable {d : Dev} {t a b : Nat}

theorem doRefreshDone_idle (h : jobBegun d ownRefresh = false ∨ arcSt d ≠ 2) : doRefreshDone t d = advance d t := by
  unfold doRefreshDone
  extract_lets e
  have h' : jobBegun e ownRefresh = false ∨ arcSt e ≠ 2 := h
  exact if_pos (by simpa using h')

/-- The job is off the board. -/
abbrev refreshFreed (d : Dev) (t : Nat) : Dev := freeJob (advance d t) ownRefresh

theorem vol_refreshFreed (d : Dev) (t k : Nat) : (seg (refreshFreed d t) k).vol = (seg d k).vol := by
  have h : Follows [] (advance d t) (refreshFreed d t) := (Follows.refl _).freeJob _
  rw [seg_congr h.arc]
  rfl

theorem doRefreshDone_moves (hj : jobBegun d ownRefresh = true) (hs : arcSt d = 2) (hn : nextDue d = some a) (hc : coldest d = some b)
    (hv : (seg d a).vol ≠ 1) : ∃ l, doRefreshDone t d = arcShow (arcCheck (refreshWant (wearWant
      (bump (ledgerNow (moveSeg (refreshFreed d t) a b) 0x0502 0xF (typeCode .arc) l) pgArc F.ARC_REFRESHES)))) := by
  unfold doRefreshDone
  extract_lets e e1
  have hj' : jobBegun e ownRefresh = true := hj
  have hs' : arcSt e = 2 := hs
  have hn' : nextDue e1 = some a := (nextDue_freeJob e ownRefresh).trans hn
  have hc' : coldest e1 = some b := (coldest_freeJob e ownRefresh).trans hc
  have hv' : (seg e1 a).vol ≠ 1 := by
    rw [show (seg e1 a).vol = _ from vol_refreshFreed d t a]
    exact hv
  rw [if_neg (by simp [hj', hs']), hn']
  dsimp only
  rw [if_neg fun h => hv' h.1, hc']
  exact ⟨_, rfl⟩

theorem doRefreshDone_reclaims (hj : jobBegun d ownRefresh = true) (hs : arcSt d = 2) (hn : nextDue d = some a) (hv : (seg d a).vol = 1)
    (hr : (reclaimable d (holding d)).head?.map (·.1) = some a) :
    doRefreshDone t d = arcShow (refreshWant (freeSeg (refreshFreed d t) a)) := by
  unfold doRefreshDone
  extract_lets e e1
  have hj' : jobBegun e ownRefresh = true := hj
  have hs' : arcSt e = 2 := hs
  have hn' : nextDue e1 = some a := (nextDue_freeJob e ownRefresh).trans hn
  have hr' : (reclaimable e1 (holding e1)).head?.map (·.1) = some a := by
    rw [show reclaimable e1 (holding e1) = _ from reclaimable_freeJob e ownRefresh]
    exact hr
  have hv' : (seg e1 a).vol = 1 := (vol_refreshFreed d t a).trans hv
  rw [if_neg (by simp [hj', hs']), hn']
  exact if_pos ⟨hv', hr'⟩

/-- What a refresh leaves. -/
theorem doRefreshDone_spec (hj : jobBegun d ownRefresh = true) (hs : arcSt d = 2) (hn : nextDue d = some a) (hc : coldest d = some b)
    (hu : (seg d a).vol ≠ 0) (hv : (seg d a).vol ≠ 1) : SegMoved d a b (doRefreshDone t d) ∧
    getR (doRefreshDone t d) pgArc F.ARC_REFRESHES = min (getR d pgArc F.ARC_REFRESHES + 1) (2 ^ 32 - 1) ∧
    ∃ z ∈ (doRefreshDone t d).ledgerOut, z.kind = 0x0502 := by
  obtain ⟨l, hd⟩ := doRefreshDone_moves (t := t) hj hs hn hc hv
  rw [hd]
  have hne : a ≠ b := fun h => hu (h ▸ vol_coldest hc)
  have h1 : Follows [] (advance d t) (refreshFreed d t) := (Follows.refl _).freeJob _
  have hm := moveSeg_moved (d := refreshFreed d t) hne
  have hr := (moveSeg_frame (refreshFreed d t) a b).1
  have h2 : getR (moveSeg (refreshFreed d t) a b) pgArc F.ARC_REFRESHES = getR d pgArc F.ARC_REFRESHES :=
    (getR_congr hr _ _).trans (h1.getR_arc (by decide) (by decide))
  generalize moveSeg (refreshFreed d t) a b = e at hm h2
  generalize hy : ledgerNow e 0x0502 0xF (typeCode .arc) l = y
  have hya : y.arc = e.arc := by rw [← hy]; rfl
  have hyr : getR y pgArc F.ARC_REFRESHES = getR e pgArc F.ARC_REFRESHES := by rw [← hy]; rfl
  have hyz : ∃ z ∈ y.ledgerOut, z.kind = 0x0502 := by
    rw [← hy]
    exact ⟨_, List.mem_append_right _ (List.mem_singleton_self _), rfl⟩
  have hb : Moved noRegs [(pgArc, F.ARC_REFRESHES)] y (bump y pgArc F.ARC_REFRESHES) := .of_addC y 1 (List.mem_singleton_self _)
  have h3 : getR (bump y pgArc F.ARC_REFRESHES) pgArc F.ARC_REFRESHES = min (getR d pgArc F.ARC_REFRESHES + 1) (2 ^ 32 - 1) := by
    rw [← h2, ← hyr]
    exact getR_addC_narrow y pgArc 1 (by decide)
  have h3a : (bump y pgArc F.ARC_REFRESHES).arc = e.arc := (hb.field Dev.arc).trans hya
  have h3l : (bump y pgArc F.ARC_REFRESHES).ledgerOut = y.ledgerOut := hb.field Dev.ledgerOut
  generalize bump y pgArc F.ARC_REFRESHES = x at h3 h3a h3l
  have hf : Follows followAt x (arcShow (arcCheck (refreshWant (wearWant x)))) := (Follows.refl x).wearWant.refreshWant.arcCheck.arcShow
  obtain ⟨z, hz, hk⟩ := hyz
  exact ⟨hm.of_arc h1.arc.symm (hf.arc.trans h3a), (hf.getR_arc (by decide) (by decide)).trans h3, z, hf.entry (by rw [h3l]; exact hz), hk⟩

/-- What a reclaim in place of a refresh leaves. -/
theorem doRefreshDone_freed (hj : jobBegun d ownRefresh = true) (hs : arcSt d = 2) (hn : nextDue d = some a) (hv : (seg d a).vol = 1)
    (hr : (reclaimable d (holding d)).head?.map (·.1) = some a) : (seg (doRefreshDone t d) a).vol = 0 ∧
    getR (doRefreshDone t d) pgArc F.ARC_REFRESHES = getR d pgArc F.ARC_REFRESHES := by
  rw [doRefreshDone_reclaims hj hs hn hv hr]
  have h1 : Follows [] (advance d t) (refreshFreed d t) := (Follows.refl _).freeJob _
  generalize refreshFreed d t = e at h1
  have h2 : (seg (freeSeg e a) a).vol = 0 := congrArg ArcSeg.vol (seg_setSeg_same e a _)
  have h3 : getR (freeSeg e a) pgArc F.ARC_REFRESHES = getR e pgArc F.ARC_REFRESHES := rfl
  generalize freeSeg e a = x at h2 h3
  have hf : Follows followAt x (arcShow (refreshWant x)) := (Follows.refl x).refreshWant.arcShow
  refine ⟨by rw [seg_congr hf.arc, h2], (hf.getR_arc (by decide) (by decide)).trans (h3.trans (h1.getR_arc (by decide) (by decide)))⟩

end

/-! ### Ageing (R374, R375) -/

/-- Segment `e` ages by `a`. -/
def ageOne (a : Nat) (d : Dev) (e : Nat × ArcSeg) : Dev :=
  if e.2.vol = 0 then d
  else
    let x := { e.2 with age := e.2.age + a }
    let d := setSeg d e.1 x
    if 256 * getR d pgArc F.ARC_AGE_LIMIT ≤ x.age then makeDue d e.1 0 else d

theorem ageAll_eq (d : Dev) (a : Nat) : ageAll d a = d.arc.segs.foldl (ageOne a) d := rfl

theorem ageOne_frame (a : Nat) (d : Dev) (e : Nat × ArcSeg) : noArc (ageOne a d e) = noArc d := by
  unfold ageOne
  extract_lets src x e1
  have h1 : noArc e1 = noArc d := rfl
  clear_value e1
  split
  · rfl
  · split
    · exact (makeDue_frame e1 _ 0).trans h1
    · exact h1

theorem ageAll_frame (d : Dev) (a : Nat) : noArc (ageAll d a) = noArc d := by
  rw [ageAll_eq]
  exact foldl_rel (R := fun d e => noArc e = noArc d) (fun _ => rfl) (fun _ _ _ h g => g.trans h) (fun d e _ => ageOne_frame a d e) d

theorem regs_ageAll (d : Dev) (a : Nat) : (ageAll d a).regs = d.regs := (congrArg Dev.regs (ageAll_frame d a) :)

theorem age_makeDue (d : Dev) (s c : Nat) : (seg (makeDue d s c) s).age = (seg d s).age := by
  by_cases h : (seg d s).vol = 0
  · rw [makeDue_free c h]
  · obtain ⟨w, hw⟩ := makeDue_used c h
    rw [hw, seg_setSeg_same]

/-- A used segment ages, and is due at the limit. -/
theorem ageOne_spec {a k : Nat} {d : Dev} {e : ArcSeg} (h : e.vol ≠ 0) : (seg (ageOne a d (k, e)) k).age = e.age + a ∧
    (256 * getR d pgArc F.ARC_AGE_LIMIT ≤ e.age + a → (seg (ageOne a d (k, e)) k).due ≠ none) := by
  unfold ageOne
  extract_lets src x e1
  have h1 : seg e1 k = x := seg_setSeg_same d k x
  have hl : getR e1 pgArc F.ARC_AGE_LIMIT = getR d pgArc F.ARC_AGE_LIMIT := rfl
  have hx : x.age = e.age + a ∧ x.vol ≠ 0 := ⟨rfl, h⟩
  clear_value e1 x
  rw [if_neg h, hl, ← hx.1]
  split
  · exact ⟨by rw [age_makeDue, h1], fun _ => due_makeDue (by rw [h1]; exact hx.2)⟩
  · next hn => exact ⟨by rw [h1], fun hle => absurd hle hn⟩

/-- The segments have aged now. -/
def agedNow (y : Dev) : Dev := refreshWant { y with arc := { y.arc with ageAt := y.ticks } }

section
variable {d : Dev} {t : Nat}

/-- The instant of the next ageing. -/
def ageInstant (d : Dev) (t : Nat) : Nat := max t (d.arc.ageAt + 6000000000)

theorem doAge_known {a : Int} (h : arcSt d = 2 ∨ arcSt d = 3) (ha : arcTemp d = some a) :
    doAge t d = agedNow (ageAll (advance d (ageInstant d t)) (ageRise (getR d pgArc F.ARC_EA) a 60)) := by
  unfold doAge
  have hs : sT 60 = 6000000000 := rfl
  extract_lets e e2 e3
  have he : e = advance d (ageInstant d t) := by
    unfold e ageInstant
    rw [hs]
  have ha' : arcTemp e = some a := by
    rw [he]
    exact ha
  have h2 : e2 = ageAll (advance d (ageInstant d t)) (ageRise (getR d pgArc F.ARC_EA) a 60) := by
    unfold e2
    rw [ha', he]
    rfl
  rw [← h2]
  clear_value e2
  exact if_pos h

theorem doAge_free (h : arcSt d = 2 ∨ arcSt d = 3) (ha : arcTemp d = none) :
    doAge t d = agedNow (ageAll (freeV (advance d (ageInstant d t))).2 (freeV (advance d (ageInstant d t))).1) := by
  unfold doAge
  have hs : sT 60 = 6000000000 := rfl
  extract_lets e e2 e3
  have he : e = advance d (ageInstant d t) := by
    unfold e ageInstant
    rw [hs]
  have ha' : arcTemp e = none := by
    rw [he]
    exact ha
  have h2 : e2 = ageAll (freeV (advance d (ageInstant d t))).2 (freeV (advance d (ageInstant d t))).1 := by
    unfold e2
    rw [ha', he]
  rw [← h2]
  clear_value e2
  exact if_pos h

/-- What the ageing of a single used segment leaves. -/
theorem agedNow_spec {a k : Nat} {e : ArcSeg} (hg : d.arc.segs = [(k, e)]) (hv : e.vol ≠ 0) :
    (agedNow (ageAll d a)).ticks = d.ticks ∧ (agedNow (ageAll d a)).arc.ageAt = d.ticks ∧ (agedNow (ageAll d a)).mem = d.mem ∧
    (seg (agedNow (ageAll d a)) k).age = e.age + a ∧
    (256 * getR d pgArc F.ARC_AGE_LIMIT ≤ e.age + a → (seg (agedNow (ageAll d a)) k).due ≠ none) := by
  have hy : ageAll d a = ageOne a d (k, e) := by rw [ageAll_eq, hg]; rfl
  obtain ⟨h1, h2⟩ := ageOne_spec (a := a) (k := k) (d := d) hv
  rw [← hy] at h1 h2
  have hf := ageAll_frame d a
  generalize ageAll d a = y at h1 h2 hf
  have ht : y.ticks = d.ticks := (congrArg Dev.ticks hf :)
  have hm : y.mem = d.mem := (congrArg Dev.mem hf :)
  unfold agedNow
  generalize hx : ({ y with arc := { y.arc with ageAt := y.ticks } } : Dev) = x
  have hxs : seg x k = seg y k := by rw [← hx]; rfl
  have hxt : x.ticks = y.ticks ∧ x.mem = y.mem ∧ x.arc.ageAt = y.ticks := by rw [← hx]; exact ⟨rfl, rfl, rfl⟩
  obtain ⟨hx1, hx2, hx3⟩ := hxt
  have hw : Follows [] x (refreshWant x) := (Follows.refl x).refreshWant
  refine ⟨hw.ticks.trans (hx1.trans ht), (congrArg ArcSt.ageAt hw.arc).trans (hx3.trans ht), hw.mem.trans (hx2.trans hm), ?_, ?_⟩
  · rw [seg_congr hw.arc, hxs, h1]
  · rw [seg_congr hw.arc, hxs]
    exact h2

end

/-! ### The budget (R379) -/

/-- What the wear of a day shows of the budget. -/
theorem wearShow_spec (d : Dev) : Follows [fldAt F.ARC_WEAR_RATIO] d (wearShow d) ∧ (getR d pgArc F.ARC_BUDGET ≠ 0 →
    getR (wearShow d) pgArc F.ARC_WEAR_RATIO = min 65535 (rne ((256 * wearDay d : Nat) : Int) (getR d pgArc F.ARC_BUDGET)).toNat) := by
  unfold wearShow
  extract_lets was b w r e1
  have h1 : Follows [fldAt F.ARC_WEAR_RATIO] d e1 :=
    (Follows.refl d).setR _ (.inr (.inr ⟨rfl, List.mem_singleton_self _⟩)) (by decide)
  have h2 : getR e1 pgArc F.ARC_WEAR_RATIO = min 65535 r := by
    refine (getR_setR_self d pgArc F.ARC_WEAR_RATIO _).trans (Nat.mod_eq_of_lt ?_)
    exact Nat.lt_of_le_of_lt (Nat.min_le_left _ _) (by decide)
  clear_value e1
  have h3 : Follows [fldAt F.ARC_WEAR_RATIO] e1 (raiseOn e1 pgArc 15 was (decide (256 < min 65535 r))) := .ite ((Follows.refl e1).raise _ _) (.refl e1)
  refine ⟨h1.trans _ _ _ h3, fun hb => ?_⟩
  have h4 : getR (raiseOn e1 pgArc 15 was (decide (256 < min 65535 r))) pgArc F.ARC_WEAR_RATIO = getR e1 pgArc F.ARC_WEAR_RATIO := by
    unfold raiseOn
    split <;> rfl
  rw [h4, h2, show r = (rne ((256 * wearDay d : Nat) : Int) (getR d pgArc F.ARC_BUDGET)).toNat from if_neg hb]

section
variable {d : Dev} {t : Nat}

/-- The instant of the next budget. -/
def budgetInstant (d : Dev) (t : Nat) : Nat := max t (d.arc.budgetAt + 6000000000)

/-- The budget of the day is noted. -/
def budgetNoted (e : Dev) : Dev :=
  let d := { e with arc := { e.arc with budgetAt := e.ticks } }
  setR d pgArc F.ARC_BUDGET (dayBudget d)

theorem doWearBudget_mounted (h : arcSt d = 2 ∨ arcSt d = 3) :
    doWearBudget t d = arcCheck (wearShow (budgetNoted (advance d (budgetInstant d t)))) := if_pos h

theorem budgetNoted_spec (e : Dev) : getR (budgetNoted e) pgArc F.ARC_BUDGET = dayBudget e % 2 ^ 64 ∧
    wearDay (budgetNoted e) = wearDay e ∧ (budgetNoted e).ticks = e.ticks :=
  ⟨getR_setR_self .., rfl, rfl⟩

/-- What a budget leaves. -/
theorem doWearBudget_spec (h : arcSt d = 2 ∨ arcSt d = 3) : (doWearBudget t d).ticks = (advance d (budgetInstant d t)).ticks ∧
    getR (doWearBudget t d) pgArc F.ARC_BUDGET = dayBudget (advance d (budgetInstant d t)) % 2 ^ 64 ∧
    (dayBudget (advance d (budgetInstant d t)) % 2 ^ 64 ≠ 0 → getR (doWearBudget t d) pgArc F.ARC_WEAR_RATIO =
      min 65535 (rne ((256 * wearDay (advance d (budgetInstant d t)) : Nat) : Int) (dayBudget (advance d (budgetInstant d t)) % 2 ^ 64 : Nat)).toNat) := by
  rw [doWearBudget_mounted h]
  generalize advance d (budgetInstant d t) = e
  obtain ⟨h1, h2, h3⟩ := budgetNoted_spec e
  generalize budgetNoted e = a at h1 h2 h3
  obtain ⟨g1, g2⟩ := wearShow_spec a
  rw [h1, h2] at g2
  have g3 : getR (wearShow a) pgArc F.ARC_BUDGET = getR a pgArc F.ARC_BUDGET := g1.getR_arc (by decide) (by decide)
  have g4 := g1.ticks
  generalize wearShow a = b at g2 g3 g4
  have hf : Follows followAt b (arcCheck b) := (Follows.refl b).arcCheck
  exact ⟨hf.ticks.trans (g4.trans h3), (hf.getR_arc (by decide) (by decide)).trans (g3.trans h1),
    fun hd => (hf.getR_arc (by decide) (by decide)).trans (g2 hd)⟩

end

end Sys2Proof.Machine
end

section
set_option Elab.async false
/-! PROOFS. Mount, format and unmount of the Archive (R363, R369, R376, R378, R383). -/

namespace Sys2Proof.Machine

open Sys2Proof

/-! ### Geometry (R363) -/

/-- The device but for its registers and the geometry. -/
def noGeo (d : Dev) : Dev := { d with regs := [], arc := { d.arc with geo := none } }

/-- The pages of the NAND channels. -/
abbrev NchPage (p : Nat) : Prop := ∃ c, p = pgNch c

theorem nch_within {k : Dev → Dev} {d e : Dev} {c v : Nat} {f : Fld} (h : Within k NchPage d e) (hf : fldAt f < 131072)
    (hk : ∀ d, k (setR d (pgNch c) f v) = k d := by intro _; rfl) : Within k NchPage d (setR e (pgNch c) f v) :=
  h.then_setR ⟨c, rfl⟩ hf hk

/-- Reading the parameter pages changes the geometry and the registers of the channels. -/
theorem readGeometry_within (d : Dev) (ps : List (Nat × List Nat)) : Within noGeo NchPage d (readGeometry d ps) := by
  unfold readGeometry
  extract_lets rs ref acc geo src e1
  have h1 : Within noGeo NchPage d e1 := .of_regs _ _ rfl rfl
  clear_value e1 geo acc
  refine h1.trans _ _ _ (foldl_rel Within.refl Within.trans (fun d c _ => ?_) e1)
  extract_lets p mine all st e2 e3 on v
  have h2 : Within noGeo NchPage d e2 := by
    unfold e2
    split
    · exact .refl d
    · exact nch_within (.refl d) (by decide)
  clear_value e2
  have h3 : Within noGeo NchPage d e3 := nch_within h2 (by decide)
  clear_value e3
  split
  · extract_lets e4 e5
    have h4 : Within noGeo NchPage d e4 := nch_within (nch_within h3 (by decide)) (by decide)
    clear_value e4
    have h5 : Within noGeo NchPage d e5 := nch_within (nch_within h4 (by decide)) (by decide)
    clear_value e5
    exact nch_within (nch_within h5 (by decide)) (by decide)
  · exact h3

section
variable (d : Dev) (ps : List (Nat × List Nat))

/-- A register of page ARC is not touched. -/
theorem getR_readGeometry {f : Fld} (hf : fldAt f < 131072) : getR (readGeometry d ps) pgArc f = getR d pgArc f :=
  (readGeometry_within d ps).keeps pgArc f (fun ⟨c, hc⟩ => pgNch_ne_pgArc c hc.symm) hf

theorem arcSt_readGeometry : arcSt (readGeometry d ps) = arcSt d := getR_readGeometry d ps (by decide)

theorem hasCkpt_readGeometry : (readGeometry d ps).arc.hasCkpt = d.arc.hasCkpt := (readGeometry_within d ps).field (fun d => d.arc.hasCkpt)

end

/-! ### Mount (R378) -/

/-- The state has changed from `was` to `v`: it is shown, an event and an entry. -/
def StateShown (was v : Nat) (d : Dev) : Prop :=
  arcSt d = v ∧ (evtRaw d pgArc).testBit 8 = true ∧ ∃ z ∈ d.ledgerOut, z.kind = 0x0505 ∧ z.payload = padTo 28 [was, v]

theorem StateShown.of_follows {was v : Nat} {l : List Nat} {d e : Dev} (h : StateShown was v d) (g : Follows l d e) (hs : arcSt e = arcSt d) :
    StateShown was v e := by
  obtain ⟨h1, h2, z, hz, h3⟩ := h
  exact ⟨hs.trans h1, g.bit h2, z, g.entry hz, h3⟩

theorem StateShown.settled {was v : Nat} {d : Dev} (h : StateShown was v d) : StateShown was v (settle d) := by
  obtain ⟨h1, h2, h3⟩ := h
  exact ⟨(getR_settle d pgArc cSTATE).trans h1, by rw [evtRaw_settle]; exact h2, by rw [settle_ledgerOut]; exact h3⟩

theorem StateShown.arcShow {was v : Nat} {d : Dev} (h : StateShown was v d) : StateShown was v (arcShow d) :=
  h.of_follows (Follows.refl d).arcShow (arcSt_arcShow d)

theorem arcState_shown {d : Dev} {was v : Nat} (hs : arcSt d = was) (hne : was ≠ v) (hv : v < 16) : StateShown was v (arcState d v) := by
  rw [← hs] at hne ⊢
  exact arcState_shows hne hv

theorem arc_arcState (d : Dev) (v : Nat) : (arcState d v).arc = d.arc := ((Follows.refl d).arcState v).arc

section
variable {d : Dev} {t : Nat} {ok : Bool} {ps : List (Nat × List Nat)} {ms : List Nat} {k : Nat}

theorem doMountDone_idle (h : arcSt d ≠ 1) : doMountDone t ok ps ms k d = advance d t := if_pos h

theorem doMountDone_fails (hs : arcSt d = 1) (h : ok = false ∨ d.arc.hasCkpt = false) :
    doMountDone t ok ps ms k d = arcState (readGeometry (advance d t) ps) 4 := by
  unfold doMountDone
  extract_lets e g
  have hc : g.arc.hasCkpt = d.arc.hasCkpt := hasCkpt_readGeometry e ps
  rw [if_neg (not_not.2 (show arcSt e = 1 from hs))]
  refine if_pos ?_
  rw [hc]
  obtain h | h := h <;> simp [h]

theorem ledgerMounted (d : Dev) : Follows [] d { d with ledger := { d.ledger with mounted := true } } :=
  ⟨rfl, fun _ _ h => h, fun _ h => h, fun _ _ _ _ _ _ => rfl⟩

/-- A mount that completes may seed the numbers of the Ledger. -/
theorem mountSeeds (d : Dev) : Follows [] d (reseedAtMount { d with ledger := { d.ledger with mounted := true } }) :=
  (ledgerMounted d).reseedAtMount

/-- A mounted Archive posts its jobs and shows what it holds. -/
def mountShown (d : Dev) : Dev :=
  arcShow (arcCheck (pinCopyWant (refreshWant (wearWant (reseedAtMount { d with ledger := { d.ledger with mounted := true } })))))

theorem mountShows {d : Dev} (h : StateShown 1 2 d) : (arcSt (mountShown d) = 2 ∨ arcSt (mountShown d) = 3) ∧
    (evtRaw (mountShown d) pgArc).testBit 8 = true ∧ ∀ z ∈ d.ledgerOut, z ∈ (mountShown d).ledgerOut := by
  have h1 : Follows [] d (pinCopyWant (refreshWant (wearWant (reseedAtMount { d with ledger := { d.ledger with mounted := true } })))) :=
    (mountSeeds d).wearWant.refreshWant.pinCopyWant
  unfold mountShown
  generalize pinCopyWant _ = a at h1
  have ha : arcSt a = 2 := (h1.state (by decide)).trans h.1
  have h2 : Follows followAt d (arcShow (arcCheck a)) := h1.anywhere.arcCheck.arcShow
  refine ⟨?_, h2.bit h.2.1, fun z hz => h2.entry hz⟩
  rw [arcSt_arcShow]
  exact arcSt_arcCheck (.inl ha)

/-- The good end of a mount. -/
theorem doMountDone_mounts (hs : arcSt d = 1) (hc : d.arc.hasCkpt = true) (hg : (readGeometry (advance d t) ps).arc.geo ≠ none) :
    (arcSt (doMountDone t true ps ms k d) = 2 ∨ arcSt (doMountDone t true ps ms k d) = 3) ∧
    (evtRaw (doMountDone t true ps ms k d) pgArc).testBit 8 = true ∧ ∃ z ∈ (doMountDone t true ps ms k d).ledgerOut, z.kind = 0x0506 := by
  unfold doMountDone
  extract_lets e g src1 e1 off e2 src2 e3 e4 e5 src3 e6
  have hgc : g.arc.hasCkpt = true := (hasCkpt_readGeometry e ps).trans hc
  have hgg : g.arc.geo.isNone = false := by
    cases hgo : g.arc.geo with
    | none => exact absurd hgo hg
    | some x => rfl
  rw [if_neg (not_not.2 (show arcSt e = 1 from hs)), if_neg (by rw [hgc, hgg]; decide)]
  have hg1 : arcSt g = 1 := (arcSt_readGeometry e ps).trans hs
  clear_value g
  have h1 : arcSt e1 = 1 := hg1
  clear_value e1
  have h2 : arcSt e2 = 1 := (getR_congr (regs_ageAll e1 _) pgArc cSTATE).trans h1
  clear_value e2
  have h3 : arcSt e3 = 1 := h2
  clear_value e3
  have h4 : arcSt e4 = 1 ∧ ∃ z ∈ e4.ledgerOut, z.kind = 0x0506 :=
    ⟨h3, _, List.mem_append_right _ (List.mem_singleton_self _), rfl⟩
  clear_value e4
  obtain ⟨h4, z, hz, hk⟩ := h4
  have h5 : StateShown 1 2 e5 := arcState_shown h4 (by decide) (by decide)
  have h5z : z ∈ e5.ledgerOut := ((Follows.refl e4).arcState 2).entry hz
  clear_value e5
  obtain ⟨g1, g2, g3⟩ := mountShows h5
  exact ⟨g1, g2, z, g3 z h5z, hk⟩

/-! ### Format (R369, R383) -/

theorem doFormatDone_idle (h : arcSt d ≠ 5) : doFormatDone t ok ps ms d = advance d t := if_pos h

theorem doFormatDone_fails (h : arcSt d = 5) : doFormatDone t false ps ms d = arcState (readGeometry (advance d t) ps) 4 := by
  unfold doFormatDone
  extract_lets e g
  rw [if_neg (not_not.2 (show arcSt e = 5 from h))]
  split
  · rfl
  · exact if_pos rfl

/-- The formatted Archive, before it shows what it holds. -/
def formatted (e : Dev) (g : ArcGeo) (marks : List Nat) : Dev :=
  let p := pgArc
  let d := { e with arc := { e.arc with marks := marks, segs := [], openSeg := [] }, pins := [] }
  let ts := testBlocks d g
  let d := { d with arc := { d.arc with marks := marks ++ ts, tests := ts } }
  let e := getR d p F.ARC_EVT_SEGS
  let l := getR d p F.ARC_LEDGER_SEGS
  let c := getR d p F.ARC_CFG_SEGS
  let n := (segsUsed d).length
  let q := [0, n - e - l - c - getR d p F.ARC_FREE_MIN, e, l, c]
  let a := { d.arc with quota := q, hasCkpt := true, ckptAt := d.ticks, ckptBkp := bkpSecs d, formatS := tai d / secU }
  setR { d with arc := a } p F.ARC_WRITTEN 0

theorem doFormatDone_formats {g : ArcGeo} (h : arcSt d = 5) (hg : (readGeometry (advance d t) ps).arc.geo = some g) :
    doFormatDone t true ps ms d = arcShow (arcState (formatted (readGeometry (advance d t) ps) g ms) 0) := by
  unfold doFormatDone
  extract_lets e x
  have hx : x.arc.geo = some g := hg
  change _ = arcShow (arcState (formatted x g ms) 0)
  clear_value x
  rw [if_neg (not_not.2 (show arcSt e = 5 from h))]
  split
  · next hn => exact absurd (hn.symm.trans hx) (Option.some_ne_none g).symm
  · next g' hg' =>
    obtain rfl : g' = g := Option.some.inj (hg'.symm.trans hx)
    exact if_neg (c := (!true) = true) (by decide)

theorem segsUsed_congr {d e : Dev} (ha : e.arc = d.arc) (hb : e.almBad = d.almBad) : segsUsed e = segsUsed d := by
  have h : segUsable e = segUsable d := by
    funext g s
    have hg : segGood e g s = segGood d g s := by
      unfold segGood isBad
      rw [ha, hb]
    unfold segUsable
    rw [hg]
  unfold segsUsed
  rw [ha, h]

/-- What a format leaves. -/
theorem formatted_spec (e : Dev) (g : ArcGeo) (ms : List Nat) :
    let q := getR e pgArc F.ARC_EVT_SEGS + getR e pgArc F.ARC_LEDGER_SEGS + getR e pgArc F.ARC_CFG_SEGS + getR e pgArc F.ARC_FREE_MIN
    arcSt (formatted e g ms) = arcSt e ∧ (formatted e g ms).pins = [] ∧ (formatted e g ms).arc.segs = [] ∧
    (formatted e g ms).arc.hasCkpt = true ∧ getR (formatted e g ms) pgArc F.ARC_WRITTEN = 0 ∧
    (formatted e g ms).arc.quota.getD 2 0 = getR e pgArc F.ARC_EVT_SEGS ∧
    (formatted e g ms).arc.quota.getD 1 0 + q = max (segsUsed (formatted e g ms)).length q := by
  intro q
  unfold formatted
  extract_lets p src d ts src2 d2 v l c n w src3 a
  have hd : d2.pins = [] ∧ d2.arc.segs = [] ∧ ∀ f, getR d2 pgArc f = getR e pgArc f := ⟨rfl, rfl, fun _ => rfl⟩
  clear_value d2
  obtain ⟨h1, h2, h3⟩ := hd
  have hu : segsUsed (setR { d2 with arc := a } pgArc F.ARC_WRITTEN 0) = segsUsed d2 := rfl
  refine ⟨(getR_setR_fld _ pgArc 0 (by decide)).trans (h3 cSTATE), h1, h2, rfl, getR_setR_self .., h3 _, ?_⟩
  rw [hu]
  show n - v - l - c - getR d2 p F.ARC_FREE_MIN + q = max n q
  have hv : v = getR e pgArc F.ARC_EVT_SEGS := h3 _
  have hl : l = getR e pgArc F.ARC_LEDGER_SEGS := h3 _
  have hc : c = getR e pgArc F.ARC_CFG_SEGS := h3 _
  have hm : getR d2 p F.ARC_FREE_MIN = getR e pgArc F.ARC_FREE_MIN := h3 _
  unfold q
  omega

/-- The format as it ends. -/
theorem doFormatDone_spec (h : arcSt d = 5) (hg : (readGeometry (advance d t) ps).arc.geo ≠ none) :
    let q := getR d pgArc F.ARC_EVT_SEGS + getR d pgArc F.ARC_LEDGER_SEGS + getR d pgArc F.ARC_CFG_SEGS + getR d pgArc F.ARC_FREE_MIN
    StateShown 5 0 (doFormatDone t true ps ms d) ∧ (doFormatDone t true ps ms d).pins = [] ∧ (doFormatDone t true ps ms d).arc.segs = [] ∧
    (doFormatDone t true ps ms d).arc.hasCkpt = true ∧ getR (doFormatDone t true ps ms d) pgArc F.ARC_WRITTEN = 0 ∧
    (doFormatDone t true ps ms d).arc.quota.getD 2 0 = getR d pgArc F.ARC_EVT_SEGS ∧
    (doFormatDone t true ps ms d).arc.quota.getD 1 0 + q = max (segsUsed (doFormatDone t true ps ms d)).length q := by
  intro q
  obtain ⟨g, hg⟩ := Option.ne_none_iff_exists'.1 hg
  rw [doFormatDone_formats h hg]
  have hr (f : Fld) (hf : fldAt f < 131072) : getR (readGeometry (advance d t) ps) pgArc f = getR d pgArc f := getR_readGeometry (advance d t) ps hf
  have hs : arcSt (readGeometry (advance d t) ps) = 5 := (hr cSTATE (by decide)).trans h
  generalize readGeometry (advance d t) ps = e at hr hs
  obtain ⟨f1, f2, f3, f4, f5, f6, f7⟩ := formatted_spec e g ms
  rw [hr _ (by decide)] at f6
  rw [hr _ (by decide), hr _ (by decide), hr _ (by decide), hr _ (by decide)] at f7
  generalize formatted e g ms = a at f1 f2 f3 f4 f5 f6 f7
  have hf : Follows followAt a (arcShow (arcState a 0)) := ((Follows.refl a).arcState 0).arcShow
  have hst : StateShown 5 0 (arcShow (arcState a 0)) := (arcState_shown (f1.trans hs) (by decide) (by decide)).arcShow
  have hseg : segsUsed (arcShow (arcState a 0)) = segsUsed a := segsUsed_congr hf.arc hf.almBad
  generalize arcShow (arcState a 0) = b at hf hst hseg
  rw [hseg, hf.arc]
  exact ⟨hst, hf.pins.trans f2, f3, f4, (hf.getR_arc (by decide) (by decide)).trans f5, f6, f7⟩

end

end Sys2Proof.Machine
end

section
set_option Elab.async false
/-! PROOFS. Unmount of the Archive (R376, R437), and its pins, wear and states put together. -/

namespace Sys2Proof.Machine

open Sys2Proof

/-! ### Open blocks close (R368) -/

theorem arcSt_dropBlock (d : Dev) (b : ArcBlock) (cause : Nat) : arcSt (dropBlock d b cause) = arcSt d := by
  unfold dropBlock
  extract_lets e1 e2
  have h1 : arcSt e1 = arcSt d := by
    unfold e1
    split <;> exact getR_addC_fld d pgArc 1 (by decide)
  clear_value e1
  have hk2 : Moved noPlaces [(pgPkg, F.PKG_BUF_LEVEL)] (raise e1 pgArc 10) e2 := .of_onlyIf _ _ (ledgerStored_moved _ _ _ _)
  have h2 : arcSt e2 = arcSt e1 := hk2.getR_page (by decide) (by simp only [List.mem_singleton, forall_eq]; decide)
  clear_value e2
  exact (show arcSt (ledgerNow e2 _ _ _ _) = arcSt e2 from rfl).trans (h2.trans h1)

/-- A block that closes leaves the state, and the other open blocks. -/
theorem closeBlock_spec (d : Dev) (o : ArcOpen) : arcSt (closeBlock d o) = arcSt d ∧
    (closeBlock d o).arc.opens = d.arc.opens.filter (fun x => x.stream != o.stream) := by
  by_cases h : o.items = []
  · rw [closeBlock_empty h]
    exact ⟨rfl, rfl⟩
  · obtain ⟨f, l, hc⟩ := closeBlock_cases (d := d) h
    rw [hc]
    have hd (c : Nat) : arcSt (dropBlock (unopened d o) (closedBlock d o f l) c) = arcSt d ∧
        (dropBlock (unopened d o) (closedBlock d o f l) c).arc.opens = d.arc.opens.filter (fun x => x.stream != o.stream) :=
      ⟨arcSt_dropBlock _ _ c, congrArg ArcSt.opens (dropBlock_spec (unopened d o) (closedBlock d o f l) c).1⟩
    split
    · exact hd 2
    · split
      · exact hd 0
      · exact ⟨rfl, rfl⟩

theorem closeAll_spec (l : List ArcOpen) (d : Dev) : arcSt (l.foldl closeBlock d) = arcSt d ∧
    ∀ x ∈ (l.foldl closeBlock d).arc.opens, x ∈ d.arc.opens ∧ ∀ o ∈ l, x.stream ≠ o.stream := by
  induction l generalizing d with
  | nil => exact ⟨rfl, fun x hx => ⟨hx, fun o ho => absurd ho List.not_mem_nil⟩⟩
  | cons o l ih =>
    obtain ⟨h1, h2⟩ := ih (closeBlock d o)
    obtain ⟨g1, g2⟩ := closeBlock_spec d o
    refine ⟨h1.trans g1, fun x hx => ?_⟩
    obtain ⟨hx1, hx2⟩ := h2 x hx
    rw [g2, List.mem_filter] at hx1
    refine ⟨hx1.1, fun p hp => ?_⟩
    obtain rfl | hp := List.mem_cons.1 hp
    · simpa using hx1.2
    · exact hx2 p hp

/-- All open blocks close. -/
theorem closeAll_none (d : Dev) : (d.arc.opens.foldl closeBlock d).arc.opens = [] := by
  refine List.eq_nil_iff_forall_not_mem.2 fun x hx => ?_
  obtain ⟨h1, h2⟩ := (closeAll_spec d.arc.opens d).2 x hx
  exact h2 x h1 rfl

/-! ### Staged blocks are placed (R369–R371) -/

/-- From `d` to `e` the open blocks and the state stay. -/
def Places (d e : Dev) : Prop := e.arc.opens = d.arc.opens ∧ arcSt e = arcSt d

namespace Places

variable {d e : Dev}

theorem refl (d : Dev) : Places d d := ⟨rfl, rfl⟩

theorem trans (a b c : Dev) (h : Places a b) (g : Places b c) : Places a c := ⟨g.1.trans h.1, g.2.trans h.2⟩

theorem setSeg (h : Places d e) (k : Nat) (x : ArcSeg) : Places d (setSeg e k x) := h

theorem freeSeg (h : Places d e) (k : Nat) : Places d (freeSeg e k) := h.setSeg k _

theorem of_follows {l : List Nat} {a : Dev} (h : Places d e) (g : Follows l e a) (hs : fldAt cSTATE ∉ l) : Places d a :=
  ⟨(congrArg ArcSt.opens g.arc).trans h.1, (g.state hs).trans h.2⟩

theorem breakPin (h : Places d e) (p : PinSt) : Places d (breakPin e p) := by
  obtain ⟨-, -, -, -, hs, ha⟩ := breakPin_spec e p
  exact ⟨(congrArg ArcSt.opens ha).trans h.1, hs.trans h.2⟩

theorem reclaimCont (n : Nat) (h : Places d e) : Places d (reclaimCont n e) := by
  induction n generalizing e with
  | zero => exact h
  | succ n ih =>
    unfold Machine.reclaimCont
    split
    · exact h.freeSeg _
    · split
      · exact ih (h.breakPin _)
      · exact h

theorem reclaimEvents (h : Places d e) : Places d (reclaimEvents e) := by
  unfold Machine.reclaimEvents
  split
  · exact h
  · next b _ _ =>
    extract_lets e1
    have h1 : Places d e1 := h
    clear_value e1
    refine h1.trans _ _ _ (foldl_rel refl trans (fun a x _ => ?_) e1)
    extract_lets bs
    split
    · exact (refl a).freeSeg _
    · exact (refl a).setSeg _ _

theorem makeRoom (h : Places d e) (v : Nat) : Places d (makeRoom e v) := by
  unfold Machine.makeRoom
  split
  · exact h
  · split
    · exact h.reclaimCont _
    · split
      · exact h.reclaimEvents
      · split
        · exact h.freeSeg _
        · exact h

theorem allocSeg (h : Places d e) (v : Nat) : Places d (allocSeg e v).2 := by
  unfold Machine.allocSeg
  extract_lets e1
  have h1 : Places d e1 := h.makeRoom v
  clear_value e1
  split
  · next s _ =>
    have h2 : Places d (takeSeg e1 s v) := h1
    exact h2.of_follows (Follows.refl (l := []) _).wearWant List.not_mem_nil
  · exact h1

theorem segFor (h : Places d e) (v n : Nat) : Places d (segFor e v n).2 := by
  unfold Machine.segFor
  split
  · exact h
  · extract_lets o
    split
    · exact h
    · have ha := h.allocSeg v
      generalize Machine.allocSeg e v = r at ha
      obtain ⟨_ | s, a⟩ := r
      · exact ha
      · exact ha

theorem placeBlock (h : Places d e) (v : Nat) (b : ArcBlock) : Places d (placeBlock e v b).2 := by
  unfold Machine.placeBlock
  have ha := h.segFor v b.data.length
  generalize Machine.segFor e v b.data.length = r at ha
  obtain ⟨_ | s, a⟩ := r
  · exact ha
  · exact ha

end Places

/-- From `d` to `e` the open blocks stay, and a MOUNTED or READ_ONLY Archive stays one of them. -/
def StaysOpen (d e : Dev) : Prop := e.arc.opens = d.arc.opens ∧ (arcSt d = 2 ∨ arcSt d = 3 → arcSt e = 2 ∨ arcSt e = 3)

theorem StaysOpen.trans {a b c : Dev} (h : StaysOpen a b) (g : StaysOpen b c) : StaysOpen a c := ⟨g.1.trans h.1, g.2 ∘ h.2⟩

theorem StaysOpen.of_places {a b : Dev} (h : Places a b) : StaysOpen a b := ⟨h.1, fun g => by rw [h.2]; exact g⟩

theorem arcCheck_stays (d : Dev) : StaysOpen d (arcCheck d) :=
  ⟨congrArg ArcSt.opens ((Follows.refl d).arcCheck).arc, arcSt_arcCheck⟩

theorem encodeNext_stays (d : Dev) : StaysOpen d (encodeNext d none) := by
  unfold encodeNext
  split
  · exact ⟨rfl, id⟩
  · next b r _ =>
    generalize encodeBlock _ _ _ _ = x
    obtain ⟨out, raw⟩ := x
    dsimp only
    have hp := (Places.refl d).placeBlock (volOf b.stream) { b with data := out }
    generalize placeBlock d (volOf b.stream) { b with data := out } = y at hp
    obtain ⟨_ | _, a⟩ := y
    · exact (StaysOpen.of_places hp).trans (arcCheck_stays a)
    · have ha : Places d { a with arc := { a.arc with staged := r } } := hp
      exact (StaysOpen.of_places ha).trans (arcCheck_stays _)

theorem encodeAll_stays (n : Nat) (d : Dev) : StaysOpen d (encodeAll n d) := by
  induction n generalizing d with
  | zero => exact ⟨rfl, id⟩
  | succ n ih => exact (encodeNext_stays d).trans (ih _)

/-! ### Every placed block becomes durable (R376, R377) -/

theorem mem_insId {x b : ArcBlock} {l : List ArcBlock} : x ∈ insId b l ↔ x = b ∨ x ∈ l := by
  induction l with
  | nil => simp [insId]
  | cons c l ih =>
    unfold insId
    split
    · simp
    · simp only [List.mem_cons, ih]
      tauto

theorem mem_foldl_insId {x : ArcBlock} (r l : List ArcBlock) : x ∈ r.foldl (fun l b => insId b l) l ↔ x ∈ r ∨ x ∈ l := by
  induction r generalizing l with
  | nil => simp
  | cons b r ih =>
    rw [List.foldl_cons, ih, mem_insId, List.mem_cons]
    tauto

/-- The blocks of the segments. -/
def storedBlocks (d : Dev) : List ArcBlock := d.arc.segs.flatMap (fun e => e.2.blocks)

theorem storedBlocks_congr {d e : Dev} (h : e.arc = d.arc) : storedBlocks e = storedBlocks d := by rw [storedBlocks, storedBlocks, h]

theorem mem_storedBlocks {d : Dev} {z : ArcBlock} : z ∈ storedBlocks d ↔ ∃ y ∈ d.arc.segs, z ∈ y.2.blocks := by
  simp [storedBlocks]

theorem mem_blocksIn {d : Dev} {f : ArcBlock → Bool} {z : ArcBlock} : z ∈ blocksIn d f ↔ z ∈ storedBlocks d ∧ f z = true := by
  unfold blocksIn
  rw [mem_foldl_insId, List.mem_filter]
  simp [storedBlocks]

theorem storedBlocks_markDurable (d : Dev) (b : ArcBlock) :
    storedBlocks (markDurable d b) = (storedBlocks d).map (fun c => if c.id = b.id then { c with durable := true } else c) := by
  unfold storedBlocks markDurable
  rw [List.flatMap_map, List.map_flatMap]

/-- Marking a list of blocks makes durable all that have their numbers. -/
theorem durable_foldl (l : List ArcBlock) (d : Dev)
    (h : ∀ z ∈ storedBlocks d, z.durable = true ∨ ∃ b ∈ l, b.id = z.id) : ∀ z ∈ storedBlocks (l.foldl setDurable d), z.durable = true := by
  induction l generalizing d with
  | nil => exact fun z hz => (h z hz).resolve_right fun ⟨b, hb, _⟩ => List.not_mem_nil hb
  | cons b l ih =>
    refine ih _ fun z hz => ?_
    rw [show storedBlocks (setDurable d b) = storedBlocks (markDurable d b) from
      storedBlocks_congr (arc_of_moved (setDurable_moved d b)), storedBlocks_markDurable] at hz
    obtain ⟨c, hc, rfl⟩ := List.mem_map.1 hz
    by_cases hid : c.id = b.id
    · rw [if_pos hid]
      exact .inl rfl
    · rw [if_neg hid]
      refine (h c hc).imp_right fun ⟨x, hx, hxc⟩ => ?_
      obtain rfl | hx := List.mem_cons.1 hx
      · exact absurd hxc.symm hid
      · exact ⟨x, hx, hxc⟩

/-- From `d` to `e` the state, the open blocks and the checkpoint stay. -/
def Flushes (d e : Dev) : Prop := arcSt e = arcSt d ∧ e.arc.opens = d.arc.opens ∧ e.arc.hasCkpt = d.arc.hasCkpt

theorem setDurable_flushes (d : Dev) (b : ArcBlock) : Flushes d (setDurable d b) := by
  have ha : (setDurable d b).arc = (markDurable d b).arc := arc_of_moved (setDurable_moved d b)
  refine ⟨?_, by rw [ha]; rfl, by rw [ha]; rfl⟩
  refine (setDurable_moved d b).getR_eq ?_
  simp only [List.mem_cons, List.not_mem_nil, or_false, forall_eq_or_imp, forall_eq]
  exact ⟨by decide, by decide⟩

theorem foldl_setDurable_flushes (l : List ArcBlock) (d : Dev) : Flushes d (l.foldl setDurable d) :=
  foldl_rel (fun _ => ⟨rfl, rfl, rfl⟩) (fun _ _ _ h g => ⟨g.1.trans h.1, g.2.1.trans h.2.1, g.2.2.trans h.2.2⟩)
    (fun d b _ => setDurable_flushes d b) d

/-! ### Unmount (R376, R383, R437) -/

/-- A MOUNTED Archive writes all that it holds, and a checkpoint. -/
def archiveFlushed (d : Dev) : Dev :=
  let d := d.arc.opens.foldl closeBlock d
  let d := journal (encodeAll d.arc.staged.length d) true
  (blocksIn d (fun b => !b.durable)).foldl setDurable d

theorem archiveFlushed_spec {d : Dev} (h : arcSt d = 2) : (arcSt (archiveFlushed d) = 2 ∨ arcSt (archiveFlushed d) = 3) ∧
    (archiveFlushed d).arc.opens = [] ∧ (archiveFlushed d).arc.hasCkpt = true ∧ ∀ z ∈ storedBlocks (archiveFlushed d), z.durable = true := by
  unfold archiveFlushed
  extract_lets e1 e2
  have h1 : arcSt e1 = 2 := (closeAll_spec d.arc.opens d).1.trans h
  have h1o : e1.arc.opens = [] := closeAll_none d
  clear_value e1
  have h2 : StaysOpen e1 (encodeAll e1.arc.staged.length e1) := encodeAll_stays _ e1
  have h2s : (arcSt e2 = 2 ∨ arcSt e2 = 3) ∧ e2.arc.opens = [] ∧ e2.arc.hasCkpt = true := by
    have hs := h2.2 (.inl h1)
    have ho := h2.1.trans h1o
    unfold e2
    generalize encodeAll e1.arc.staged.length e1 = a at hs ho
    exact ⟨hs, ho, rfl⟩
  clear_value e2
  obtain ⟨g1, g2, g3⟩ := foldl_setDurable_flushes (blocksIn e2 (fun b => !b.durable)) e2
  refine ⟨by rw [g1]; exact h2s.1, g2.trans h2s.2.1, g3.trans h2s.2.2, durable_foldl _ e2 fun z hz => ?_⟩
  cases hd : z.durable with
  | true => exact .inl rfl
  | false => exact .inr ⟨z, mem_blocksIn.2 ⟨hz, by rw [hd]; rfl⟩, rfl⟩

/-- The Archive ends its jobs and its requests. -/
def archiveLeft (d : Dev) : Dev :=
  let d := [ownRefresh, ownWear, ownPin, ownRet].foldl freeJob d
  let d := if d.arc.rets.isEmpty then d else setR d pgArc F.ARC_RET_STATUS 4
  arcShow (arcState { d with arc := { d.arc with rets := [], cancel := false } } 0)

theorem archiveLeft_spec {d : Dev} (h : arcSt d ≠ 0) : StateShown (arcSt d) 0 (archiveLeft d) ∧
    (archiveLeft d).arc = { d.arc with rets := [], cancel := false } := by
  unfold archiveLeft
  extract_lets e1 e2 src
  have h1 : Follows [] d e1 := foldl_rel (R := Follows []) Follows.refl Follows.trans (fun d o _ => (Follows.refl d).freeJob o) d
  clear_value e1
  have h2 : arcSt e2 = arcSt e1 ∧ e2.arc = e1.arc := by
    unfold e2
    split
    · exact ⟨rfl, rfl⟩
    · exact ⟨getR_setR_fld e1 pgArc 4 (by decide), rfl⟩
  clear_value e2
  generalize hx : ({ e2 with arc := { src with rets := [], cancel := false } } : Dev) = x
  have hxs : arcSt x = arcSt d := by
    rw [← hx]
    exact h2.1.trans (h1.state (by decide))
  have hxa : x.arc = { d.arc with rets := [], cancel := false } := by
    rw [← hx, ← h1.arc, ← h2.2]
  have hst : StateShown (arcSt d) 0 (arcState x 0) := arcState_shown hxs h (by decide)
  exact ⟨hst.arcShow, (arc_arcShow _).trans ((arc_arcState x 0).trans hxa)⟩

/-- Only a MOUNTED Archive has blocks to write. -/
def flushedIf (d : Dev) : Dev := if arcSt d = 2 then archiveFlushed d else d

/-- What remains of an unmount once all is written. -/
def unmountRest (d : Dev) : Dev := if arcSt d = 2 ∨ arcSt d = 3 then archiveLeft d else d

theorem unmount_eq (d : Dev) : unmount d = unmountRest (flushedIf d) := by
  unfold unmount unmountRest archiveLeft flushedIf archiveFlushed
  rfl

theorem flushedIf_mounted {d : Dev} (h : arcSt d = 2) : flushedIf d = archiveFlushed d := if_pos h

theorem flushedIf_other {d : Dev} (h : arcSt d ≠ 2) : flushedIf d = d := if_neg h

theorem unmount_idle {d : Dev} (h2 : arcSt d ≠ 2) (h3 : arcSt d ≠ 3) : unmount d = d := by
  rw [unmount_eq, flushedIf_other h2]
  exact if_neg fun h : arcSt d = 2 ∨ arcSt d = 3 => h.elim h2 h3

theorem unmount_mounted {d : Dev} (h : arcSt d = 2) : unmount d = archiveLeft (archiveFlushed d) := by
  rw [unmount_eq, flushedIf_mounted h]
  exact if_pos (archiveFlushed_spec h).1

theorem unmount_readOnly {d : Dev} (h : arcSt d = 3) : unmount d = archiveLeft d := by
  rw [unmount_eq, flushedIf_other (by rw [h]; decide)]
  exact if_pos (.inr h)

end Sys2Proof.Machine
end

section
set_option Elab.async false
/-! PROOFS. The Archive's pins, wear, ageing, mount and format (R369–R375, R378, R379, R383), clause by clause. -/

open Sys2Proof Sys2Proof.Machine

/-- Settles O51: clause by clause, from what each of the commands leaves. -/
theorem archivePinsWearAndMount : Obligations.ArchivePinsWearAndMount := by
  unfold Obligations.ArchivePinsWearAndMount
  intro s t i hs
  extract_lets x st up copy id fresh moved state
  have hact {c : Instr} {f : Dev → Dev} (h : exec c s = act true s f) : Gives c s (f s.dev) := gives_of_act h rfl hs
  have hask : Gives (.pinRequest t) s (doPinRequest t s.dev) := hact rfl
  have hclose : Gives (.pinClose t) s (doPinClose t s.dev) := hact rfl
  have hcopy : Gives (.pinCopyDone t) s (doPinCopyDone t s.dev) := hact rfl
  have hunpin (hr : Reach s.dev pgArc) : Gives (.unpin t i) s (unpin (advance s.dev t) i) :=
    gives_of_write (ok := true) (f := fun d => unpin d i) rfl rfl hr hs
  have hwear : Gives (.wearMoveDone t) s (doWearMove t s.dev) := hact rfl
  have hrefresh : Gives (.refreshDone t) s (doRefreshDone t s.dev) := hact rfl
  have hage : Gives (.ageUpdate t) s (doAge t s.dev) := hact rfl
  have hbudget : Gives (.wearBudget t) s (doWearBudget t s.dev) := hact rfl
  have hmount (hr : Reach s.dev pgArc) : Gives (.mount t) s (mount (advance s.dev t)) := gives_of_write (ok := true) rfl rfl hr hs
  have hdone (ok : Bool) (ps : List (Nat × List Nat)) (ms : List Nat) (k : Nat) :
      Gives (.mountDone t ok ps ms k) s (doMountDone t ok ps ms k s.dev) := hact rfl
  have hformat (hr : Reach s.dev pgArc) : Gives (.format t) s (format (advance s.dev t)) := gives_of_write (ok := true) rfl rfl hr hs
  have hformatted (ok : Bool) (ps : List (Nat × List Nat)) (ms : List Nat) :
      Gives (.formatDone t ok ps ms) s (doFormatDone t ok ps ms s.dev) := hact rfl
  have hunmount (hr : Reach s.dev pgArc) : Gives (.unmount t) s (unmount (advance s.dev t)) := gives_of_write (ok := true) rfl rfl hr hs
  have hst {d : Dev} {v : Nat} (h : StateShown st v d) : state (settle d) v := h.settled
  refine ⟨?_, ?_, ?_, ?_, ?_, ?_, ?_, ?_, ?_, ?_, ?_, ?_, ?_, ?_, ?_, ?_, ?_, ?_, ?_, ?_, ?_, ?_, ?_, ?_, ?_, ?_, ?_, ?_, ?_, ?_, ?_, ?_, ?_⟩
  · exact fun h => hask.of_eq (doPinRequest_none h)
  · intro a q h hne
    refine does_of_gives hask ?_
    simp only [up, getR_settle, settle_pinAsk, settle_pins]
    exact doPinRequest_refuses h hne
  · intro a q h h2 ho hid hh
    refine does_of_gives hask ?_
    simp only [getR_settle, settle_pinAsk, settle_pins]
    exact doPinRequest_grants h h2 ho hh hid
  · exact fun h => hclose.of_eq (doPinClose_none h)
  · intro p e h he
    refine does_of_gives hclose ?_
    simp only [tai_settle, settle_pins, settle_arc]
    exact doPinClose_spec h he
  · exact fun h => hcopy.of_eq (doPinCopyDone_idle h)
  · intro p h hj h2 hb
    refine does_of_gives (hcopy.of_eq (doPinCopyDone_empty h hj h2 hb)) ?_
    have hf : Follows followAt (pinCopied (advance s.dev t) p) (arcShow (arcCheck (pinCopyWant (freeJob (pinCopied (advance s.dev t) p) ownPin)))) :=
      ((Follows.refl _).freeJob _).pinCopyWant.arcCheck.arcShow
    simp only [settle_pins, settle_arc]
    exact ⟨hf.pins, hf.arc⟩
  · intro p b q h hj h2 hk hb hfull
    refine does_of_gives (hcopy.of_eq (doPinCopyDone_breaks h hj h2 hk hb hfull)) ?_
    have hd := dropCopy_only (advance s.dev t) p.id
    generalize dropCopy (advance s.dev t) p.id = a at hd
    have hdp : a.pins = s.dev.pins := hd.keeps Dev.pins
    have hdr : getR a pgArc F.ARC_PINS_BROKEN = getR s.dev pgArc F.ARC_PINS_BROKEN := getR_congr (hd.keeps Dev.regs) _ _
    obtain ⟨g1, g2, g3, ⟨z, hz, g4⟩, -, -⟩ := breakPin_spec a p
    generalize breakPin a p = e at g1 g2 g3 hz
    have hf : Follows followAt e (arcShow (arcCheck (pinCopyWant (freeJob e ownPin)))) := ((Follows.refl _).freeJob _).pinCopyWant.arcCheck.arcShow
    simp only [up, getR_settle, evtRaw_settle, settle_pins, settle_ledgerOut]
    exact ⟨hf.pins.trans (g1.trans (by rw [hdp])), (hf.getR_arc (by decide) (by decide)).trans (g2.trans (by rw [hdr])), hf.bit g3, z, hf.entry hz, g4⟩
  · intro hr
    refine does_of_gives (hunpin hr) ?_
    simp only [settle_pins, settle_arc, settle_mem]
    exact unpin_spec (advance s.dev t) i
  · exact fun h => hwear.of_eq (doWearMove_idle h)
  · intro a b hj h2 ha hb hu hf hla hlb
    refine does_of_gives hwear ?_
    have hne : a ≠ b := fun h => hu (h ▸ hf)
    obtain ⟨g1, g2⟩ := doWearMove_spec (t := t) hj h2 (leastWorn_some ha hu hla) (hottest_some hb hf hlb) hne
    simp only [moved, up, getR_settle, seg_settle]
    exact ⟨g1, g2⟩
  · exact fun h => hrefresh.of_eq (doRefreshDone_idle h)
  · intro a b hj h2 hn hc hu hv
    refine does_of_gives hrefresh ?_
    simp only [moved, up, getR_settle, seg_settle, settle_ledgerOut]
    exact doRefreshDone_spec hj h2 hn hc hu hv
  · intro a hj h2 hn hv hr
    refine does_of_gives hrefresh ?_
    simp only [getR_settle, seg_settle]
    exact doRefreshDone_freed hj h2 hn hv hr
  · exact fun h2 h3 => hage.of_eq (if_neg fun h : arcSt s.dev = 2 ∨ arcSt s.dev = 3 => h.elim h2 h3)
  · exact fun a h ha => hage.of_eq (doAge_known h ha)
  · intro a k e h ha hg hv
    refine does_of_gives (hage.of_eq (doAge_known h ha)) ?_
    obtain ⟨g1, g2, g3, g4, g5⟩ := agedNow_spec (d := advance s.dev (ageInstant s.dev t))
      (a := ageRise (getR s.dev pgArc F.ARC_EA) a 60) hg hv
    have hle : x.ageAt + 6000000000 ≤ (advance s.dev (ageInstant s.dev t)).ticks := le_trans (le_max_right _ _) (le_max_right _ _)
    simp only [settle_ticks, settle_arc, settle_mem, seg_settle]
    rw [g1]
    exact ⟨hle, g2, g4, g5, g3⟩
  · exact fun h ha => hage.of_eq (doAge_free h ha)
  · exact fun h2 h3 => hbudget.of_eq (if_neg fun h : arcSt s.dev = 2 ∨ arcSt s.dev = 3 => h.elim h2 h3)
  · intro h
    refine does_of_gives hbudget ?_
    simp only [getR_settle, settle_ticks]
    exact doWearBudget_spec h
  · exact fun hr h => (hmount hr).of_eq (if_neg h)
  · intro hr h
    refine does_of_gives ((hmount hr).of_eq (if_pos (show arcSt (advance s.dev t) = 0 from h))) ?_
    exact ⟨hst (arcState_shown (d := advance s.dev t) rfl (by rw [show st = 0 from h]; decide) (by decide)), by rw [settle_arc, arc_arcState]; rfl⟩
  · exact fun ok ps ms k h => (hdone ok ps ms k).of_eq (doMountDone_idle h)
  · intro ok ps ms k h hc
    refine does_of_gives ((hdone ok ps ms k).of_eq (doMountDone_fails h hc)) ?_
    exact hst (arcState_shown (arcSt_readGeometry _ ps) (by rw [show st = 1 from h]; decide) (by decide))
  · intro ps ms k h hc hg
    refine does_of_gives (hdone true ps ms k) ?_
    obtain ⟨g1, g2, g3⟩ := doMountDone_mounts (ms := ms) (k := k) h hc hg
    rw [settle_ledgerOut, evtRaw_settle, show arcSt (settle _) = _ from getR_settle _ pgArc cSTATE]
    exact ⟨g1, g2, g3⟩
  · intro hr h
    refine does_of_gives ((hformat hr).of_eq (if_pos h)) ?_
    exact ⟨hst (arcState_shown (d := advance s.dev t) rfl (by obtain h | h := h.1 <;> rw [show st = _ from h] <;> decide) (by decide)),
      by rw [settle_arc, arc_arcState]; rfl⟩
  · exact fun hr h => (hformat hr).of_eq (if_neg h)
  · exact fun ok ps ms h => (hformatted ok ps ms).of_eq (doFormatDone_idle h)
  · intro ps ms h
    refine does_of_gives ((hformatted false ps ms).of_eq (doFormatDone_fails h)) ?_
    exact hst (arcState_shown (arcSt_readGeometry _ ps) (by rw [show st = 5 from h]; decide) (by decide))
  · intro ps ms h hg
    refine does_of_gives (hformatted true ps ms) ?_
    obtain ⟨g1, g2, g3, g4, g5, g6, g7⟩ := doFormatDone_spec (ms := ms) h hg
    rw [← show st = 5 from h] at g1
    have hseg := segsUsed_congr (settle_arc (doFormatDone t true ps ms s.dev)) (settle_almBad _)
    simp only [getR_settle, settle_arc, settle_pins, hseg]
    exact ⟨hst g1, g2, g3, g4, g5, g6, g7⟩
  · exact fun hr h2 h3 => (hunmount hr).of_eq (unmount_idle h2 h3)
  · intro hr h
    refine does_of_gives ((hunmount hr).of_eq (unmount_mounted (d := advance s.dev t) h)) ?_
    obtain ⟨f1, f2, f3, f4⟩ := archiveFlushed_spec (d := advance s.dev t) h
    generalize archiveFlushed (advance s.dev t) = e at f1 f2 f3 f4
    obtain ⟨⟨g1, g2, -⟩, g3⟩ := archiveLeft_spec (d := e) (by omega)
    rw [settle_arc, evtRaw_settle, show arcSt (settle _) = _ from getR_settle _ pgArc cSTATE, g3]
    exact ⟨g1, g2, f2, rfl, f3, fun y hy z hz => f4 z (mem_storedBlocks.2 ⟨y, hy, hz⟩)⟩
  · intro hr h
    refine does_of_gives ((hunmount hr).of_eq (unmount_readOnly (d := advance s.dev t) h)) ?_
    obtain ⟨g1, g2⟩ := archiveLeft_spec (d := advance s.dev t) (by rw [show arcSt (advance s.dev t) = 3 from h]; decide)
    rw [settle_arc, g2]
    exact ⟨hst g1, rfl, rfl⟩
end
